-- ==== Sys2Proof/Word.lean ====
section
/-!
DEFINITION. The machine words of the CX9 and their plainest arithmetic.
-/

namespace Sys2Proof

/-- A byte. -/
abbrev Byte := BitVec 8
/-- A halfword. -/
abbrev Half := BitVec 16
/-- A 32-bit word: a register, a general register, one lane of a vector (R4, R154). -/
abbrev Word := BitVec 32
/-- A 64-bit word: a queue descriptor, an f register, a chip time in ns (R163, R5). -/
abbrev Dword := BitVec 64

/-- Bits `hi` down to `lo` of a natural number. -/
def bits (n hi lo : Nat) : Nat := n / 2 ^ lo % 2 ^ (hi + 1 - lo)

/-- Bit `i` of a natural number. -/
def bit (n i : Nat) : Bool := n / 2 ^ i % 2 == 1

/-- A 0/1 number from a truth value. -/
def b2n (b : Bool) : Nat := if b then 1 else 0

/-- The signed reading of the low `w` bits of `n` (two's complement). -/
def sext (n w : Nat) : Int :=
  let m := n % 2 ^ w
  if m < 2 ^ (w - 1) then (m : Int) else (m : Int) - (2 ^ w : Nat)

/-- The low `w` bits of an integer, as a natural number (two's complement). -/
def wrapInt (x : Int) (w : Nat) : Nat := (x % (2 ^ w : Nat)).toNat

/-- Addition of an occurrence to a count of largest value `m` (R3: saturating occurrence counts). -/
def satAdd (n k m : Nat) : Nat := Nat.min (n + k) m

/-- `x` held between `lo` and `hi`. -/
def clampI (lo hi x : Int) : Int := if x < lo then lo else if hi < x then hi else x

end Sys2Proof
end

