-- ==== Sys2Proof/Syntax.lean ====
section
/-!
DEFINITION. The commands the block takes: one constructor for each row of the table of operations and events.
-/

namespace Sys2Proof

/-- What is reported to the chip fault controller (R168): a single-bit memory error or an uncorrectable word at an
address, a double fault of a grain, the failure of a link of a unit, or a fault source of a unit that becomes inactive. -/
inductive FaultKind where
  | singleBit
  | uncorrectable
  | doubleFault
  | linkFailure
  | sourceEnds
  deriving DecidableEq, Repr

/-- The rails that the supervisor watches (R470) but for VSW, which the load switches watch (R343). -/
inductive Rail where
  | vcore | vddm | vio18 | vio33 | vbat
  deriving DecidableEq, Repr

/-- Where a rail stands after crossing a threshold (R470). -/
inductive Level where
  | under | inside | above
  deriving DecidableEq, Repr

/-- What makes a clock fault (R482): the crystal stopped, or a controller PLL out of lock. -/
inductive ClockLoss where
  | crystal | core | fabric | pwm
  deriving DecidableEq, Repr

/-- The three programmable grain kinds (R178). -/
inductive GKind where
  | ctl | vec | link
  deriving DecidableEq, Repr

/-- A programmable grain: control grains 0 to 7, vector grains 0 to 15, link engines 0 to 19. -/
inductive GrainId where
  | ctl (g : Fin 8)
  | vec (v : Fin 16)
  | link (e : Fin 20)
  deriving DecidableEq, Repr


/-- The commands, in the table's order. An operand `t` is the chip instant of the event in ps; an operand `src` the
source identifier of the writer (R167). -/
inductive Instr where
  /-- REGISTER_WRITE (R513): A write to a register that has no row of its own takes effect whole or is refused whole. -/
  | registerWrite (src : Nat) (a : Nat) (v : Nat) (t : Nat)
  /-- RC_READ (R172): A read of an RC count returns the value and clears it. -/
  | rcRead (a : Nat) (t : Nat)
  /-- SAMPLE (R52): A node receives a SAMPLE, schedules its conversions from the target instant, turns balancing off, or sets LATE when it cannot execute it. -/
  | sample (p : Fin 18) (i : Fin 64) (body : List Nat) (arr : Fin 2) (t : Nat)
  /-- READ (R57): A node receives a READ and schedules its record in its slot, or a NAK 0x02 when the tag is not held. -/
  | read (p : Fin 18) (i : Fin 64) (body : List Nat) (arr : Fin 2) (t : Nat)
  /-- TIME (R50): A node receives a TIME and sets its local time to the carried value plus its delay. -/
  | time (p : Fin 18) (i : Fin 64) (body : List Nat) (arr : Fin 2) (t : Nat)
  /-- PING (R41): A node addressed by PING schedules a PONG. -/
  | ping (p : Fin 18) (i : Fin 64) (body : List Nat) (arr : Fin 2) (t : Nat)
  /-- ENUM (R45): An UNASSIGNED node takes position and address, marks its up port, schedules EACK and opens its repeater. -/
  | enum (p : Fin 18) (i : Fin 64) (body : List Nat) (arr : Fin 2) (t : Nat)
  /-- SETDLY (R50): A node stores its delays d0 and d1. -/
  | setdly (p : Fin 18) (i : Fin 64) (body : List Nat) (arr : Fin 2) (t : Nat)
  /-- RUN (R45): A node enters RUN on mode 1 after SETDLY, or returns to ASSIGNED on mode 0. -/
  | run (p : Fin 18) (i : Fin 64) (body : List Nat) (arr : Fin 2) (t : Nat)
  /-- BAL (R63): A node replaces its balancing mask and restarts its timeout, or answers NAK. -/
  | bal (p : Fin 18) (i : Fin 64) (body : List Nat) (carries : Bool) (arr : Fin 2) (t : Nat)
  /-- OWT (R62): A node arms the selected open-wire sinks for the next executed SAMPLE with OWT set. -/
  | owt (p : Fin 18) (i : Fin 64) (body : List Nat) (arr : Fin 2) (t : Nat)
  /-- AUTH (R41): A node starts the CMAC computation for a new nonce, or answers with ARSP or NAK for a repeated nonce. -/
  | auth (p : Fin 18) (i : Fin 64) (body : List Nat) (arr : Fin 2) (t : Nat)
  /-- WREG (R44): A node writes one of its registers or answers NAK 0x03. -/
  | wreg (p : Fin 18) (i : Fin 64) (body : List Nat) (arr : Fin 2) (t : Nat)
  /-- RREG (R44): A node answers with RREP carrying a register value, or NAK 0x03. -/
  | rreg (p : Fin 18) (i : Fin 64) (body : List Nat) (arr : Fin 2) (t : Nat)
  /-- RESET (R45): A node turns balancing and sinks off, forgets position and delays and returns to UNASSIGNED. -/
  | reset (p : Fin 18) (i : Fin 64) (body : List Nat) (arr : Fin 2) (t : Nat)
  /-- NODE_UNKNOWN_COMMAND (R39): A node answers an unlisted command type addressed to it with NAK 0x06. -/
  | nodeUnknownCommand (p : Fin 18) (i : Fin 64) (body : List Nat) (arr : Fin 2) (t : Nat)
  /-- NODE_ANSWER_SEND (R41): 2,000 ns after an addressed command the node sends its answer frame. -/
  | nodeAnswerSend (p : Fin 18) (i : Fin 64) (t : Nat)
  /-- NODE_SLOT_RESPONSE (R57): At its slot instant the node sends its record or NAK for the READ. -/
  | nodeSlotResponse (p : Fin 18) (i : Fin 64) (t : Nat)
  /-- NODE_CONVERSION_STEP (R54): At each clear 4 µs step the node converts the next cell or aux channel. -/
  | nodeConversionStep (p : Fin 18) (i : Fin 64) (val : Nat) (t : Nat)
  /-- NODE_SWEEP_CONVERSIONS_END (R56): The last conversion of an executed SAMPLE ends; the tag becomes held and balancing resumes. -/
  | nodeSweepConversionsEnd (p : Fin 18) (i : Fin 64) (stack : Nat) (temp : Nat) (fuse : Bool) (t : Nat)
  /-- NODE_STREAM_SAMPLE (R61): A sense node samples current at each STREAMPER instant and counts older unreported samples as discarded. -/
  | nodeStreamSample (p : Fin 18) (i : Fin 64) (cur : Int) (t : Nat)
  /-- NODE_AUTH_COMPUTE_DONE (R68): A node completes its authentication response computation. -/
  | nodeAuthComputeDone (p : Fin 18) (i : Fin 64) (t : Nat)
  /-- NODE_BAL_TIMEOUT (R63): A node's balancing timeout runs out and balancing stops. -/
  | nodeBalTimeout (p : Fin 18) (i : Fin 64) (t : Nat)
  /-- NODE_SLEEP_TIMEOUT (R66): 2.0 to 2.1 s without a good frame the node enters SLEEP. -/
  | nodeSleepTimeout (p : Fin 18) (i : Fin 64) (t : Nat)
  /-- NODE_WAKE_TONE (R67): A node detects the wake tone for 100 µs, relays it and wakes from SLEEP to UNASSIGNED. -/
  | nodeWakeTone (p : Fin 18) (i : Fin 64) (arr : Fin 2) (t : Nat)
  /-- NODE_INSULATION_MEASURE (R44): A bus sense node measures insulation at its ISOCFG interval. -/
  | nodeInsulationMeasure (p : Fin 18) (i : Fin 64) (rpos : Nat) (rneg : Nat) (ok : Bool) (t : Nat)
  /-- CREC (R60): The engine receives a cell record, checks it, and passes an accepted record to the limit checker, fault window and SF. -/
  | crec (k : Fin 20) (body : List Nat) (crc : Bool) (viol : Bool) (t : Nat)
  /-- SREC (R60): The engine receives a string sense record and passes its values and stream samples on when accepted. -/
  | srec (k : Fin 20) (body : List Nat) (crc : Bool) (viol : Bool) (t : Nat)
  /-- BREC (R60): The engine receives a bus sense record and passes its values and stream samples on when accepted. -/
  | brec (k : Fin 20) (body : List Nat) (crc : Bool) (viol : Bool) (t : Nat)
  /-- PONG (R49): The engine receives a PONG and measures the round trip. -/
  | pong (k : Fin 20) (body : List Nat) (crc : Bool) (viol : Bool) (t : Nat)
  /-- EACK (R47): The engine receives an EACK during enumeration and keeps the position with its serial, or retries. -/
  | eack (k : Fin 20) (body : List Nat) (crc : Bool) (viol : Bool) (t : Nat)
  /-- ARSP (R69): The engine receives an authentication response and has the crypto engine check it. -/
  | arsp (k : Fin 20) (body : List Nat) (crc : Bool) (viol : Bool) (t : Nat)
  /-- RREP (R47): The engine receives a register reply, including the RREG of enumeration retry. -/
  | rrep (k : Fin 20) (body : List Nat) (crc : Bool) (viol : Bool) (t : Nat)
  /-- NAK (R60): The engine receives a node NAK, sets NAK and records EV_LINK_NAK; the position counts as missing. -/
  | nak (k : Fin 20) (body : List Nat) (crc : Bool) (viol : Bool) (t : Nat)
  /-- SLOT_WINDOW_CLOSE (R60): A READ's slot window closes; positions without a response set MISSING and record EV_LINK_MISSING. -/
  | slotWindowClose (k : Fin 20) (t : Nat)
  /-- TIME_MARKER (R48): While MKEN is 1 the engine sends a TIME once per TMKPER. -/
  | timeMarker (k : Fin 20) (t : Nat)
  /-- RECALIBRATION (R51): Within each 10 s the engine recalibrates every node and sends SETDLY when a delay moved by more than 20 ns. -/
  | recalibration (k : Fin 20) (ring : Nat) (t : Nat)
  /-- PORT_ENUMERATION (R46): The engine enumerates a port: RESET, ENUM per position, calibration, authentication, NODES and EV_LINK_ENUM. -/
  | portEnumeration (k : Fin 20) (first : Fin 65) (t : Nat)
  /-- ENUM_EACK_TIMEOUT (R46): No EACK within 50 µs; the position is retried or enumeration stops. -/
  | enumEackTimeout (k : Fin 20) (t : Nat)
  /-- AUTH_PERIOD (R69): Every AUTHPER minutes the engine re-authenticates every node with a fresh nonce. -/
  | authPeriod (k : Fin 20) (gap : Bool) (t : Nat)
  /-- AUTH_COLLECT (R69): At least 1 ms after the first AUTH the engine sends the repeated AUTH to collect the ARSP. -/
  | authCollect (k : Fin 20) (t : Nat)
  /-- RING_END0_FRAME_TIMEOUT (R95): An expected end-0 frame does not reach end 1 within T_ring + 1 µs; end 1 suspects a break and may resend the SAMPLE. -/
  | ringEnd0FrameTimeout (ring : Fin 2) (t : Nat)
  /-- RING_END0_FRAME_AT_END1 (R28): End 1 receives an end-0 frame; ENDSEEN is updated and a two-ended port returns to one-ended operation. -/
  | ringEnd0FrameAtEnd1 (ring : Fin 2) (body : List Nat) (crc : Bool) (t : Nat)
  /-- LSEND (R73): Sends a frame body with framing and CRC, optionally waiting for the armed launch time. -/
  | lsend (g : GrainId) (rd : Fin 32) (rs1 : Fin 32) (rs2 : Fin 32) (imm5 : Fin 32) (t : Nat)
  /-- LSEND_LAUNCH (R73): The armed launch time arrives and the waiting frame is sent. -/
  | lsendLaunch (g : GrainId) (t : Nat)
  /-- LTARM (R73): Arms the 64-bit launch time. -/
  | ltarm (g : GrainId) (rs1 : Fin 32) (rs2 : Fin 32) (t : Nat)
  /-- LRECV (R73): Waits for a received frame until a chip-time limit. -/
  | lrecv (g : GrainId) (rd : Fin 32) (rs1 : Fin 32) (t : Nat)
  /-- LRECV_COMPLETE (R73): A frame arrives or the time limit passes and lrecv writes its result. -/
  | lrecvComplete (g : GrainId) (t : Nat)
  /-- LPING (R73): Sends a PING to an address. -/
  | lping (g : GrainId) (rd : Fin 32) (rs1 : Fin 32) (t : Nat)
  /-- LPING_COMPLETE (R73): The PONG arrives or 100 µs pass and lping writes the round trip. -/
  | lpingComplete (g : GrainId) (t : Nat)
  /-- LWAKE (R73): Sends the wake tone for a given time. -/
  | lwake (g : GrainId) (rs1 : Fin 32) (t : Nat)
  /-- LSTAT (R73): Returns a link status word. -/
  | lstat (g : GrainId) (rd : Fin 32) (imm5 : Fin 32) (t : Nat)
  /-- LSLOT (R73): Arms the slot window of the next READ sent. -/
  | lslot (g : GrainId) (rs1 : Fin 32) (rs2 : Fin 32) (t : Nat)
  /-- WAKE (R67): A write of WAKE sends a 500 µs wake tone on the port. -/
  | wake (src : Nat) (k : Fin 20) (v : Nat) (t : Nat)
  /-- SWEEP_GRID_POINT (R77): At a grid point the sequencer selects the period, places the target and mask, and posts the sweep descriptor to each enabled engine. -/
  | sweepGridPoint (t : Nat)
  /-- SWEEP_DEADLINE_MISS (R91): A late SAMPLE or a READ window not closed before the next SAMPLE is a recoverable fault recorded as EV_SWP_DEADLINE. -/
  | sweepDeadlineMiss (k : Fin 20) (tag : Fin 65535) (t : Nat)
  /-- RETRY_READ (R89): The engine sends one retry READ for the missing positions when occupancy allows. -/
  | retryRead (k : Fin 20) (t : Nat)
  /-- CHAIN_BREAK_LOCATE (R92): The engine pings missing positions to locate a break, sets AQ_PORT_BRK and records EV_SWP_CHAIN_BREAK. -/
  | chainBreakLocate (k : Fin 20) (t : Nat)
  /-- NODE_STALE_TIMEOUT (R90): A node's stale age exceeds t_stale; the engine raises node stale and records EV_SWP_STALE. -/
  | nodeStaleTimeout (p : Fin 18) (i : Fin 64) (t : Nat)
  /-- STREAM_ONLY_READ (R80): The engine sends a stream-only READ in each STRPER interval without a sweep READ. -/
  | streamOnlyRead (k : Fin 20) (slot : Nat) (t : Nat)
  /-- MEAN_WINDOW_END (R517): At each 10 ms window end the 10 ms mean of I is formed and the dwells advance or restart. -/
  | meanWindowEnd (t : Nat)
  /-- OWT_PERIODIC (R99): Once per OWTPER the sequencer runs the open-wire test on every enabled port. -/
  | owtPeriodic (t : Nat)
  /-- OWTNOW (R99): A write of OWTNOW runs the open-wire test on every enabled port. -/
  | owtnow (src : Nat) (v : Nat) (t : Nat)
  /-- TRIG (R104): A write of TRIG triggers a fault-window freeze. -/
  | trig (src : Nat) (v : Nat) (t : Nat)
  /-- WINDOW_FREEZE (R104): POSTN sweeps after a trigger the window freezes, records EV_WIN_FREEZE and hands its contents to PS. -/
  | windowFreeze (t : Nat)
  /-- WINDOW_HOLD_CLEAR (R104): Clearing HOLD re-arms a frozen window whose archive copy completed. -/
  | windowHoldClear (src : Nat) (v : Nat) (t : Nat)
  /-- PHASE_DECIMATOR_OUTPUT (R111): A phase's sinc³ decimator produces an output, stamped with its corrected instant. -/
  | phaseDecimatorOutput (n : Fin 24) (acc : Nat) (t : Nat)
  /-- PHASE_SUM_WRITE (R111): Once every active phase has enclosing outputs, the phase sum is written to its current ring. -/
  | phaseSumWrite (r : Fin 12) (t : Nat)
  /-- PDAT_NO_TRANSITION (R112): A PDAT input shows no transition for 64 modulator clocks; the phase sense fails. -/
  | pdatNoTransition (n : Fin 24) (t : Nat)
  /-- AIC_SAMPLE (R113): An AIC channel delivers a sample, stamped and checked for over range and stuck. -/
  | aicSample (n : Fin 8) (code : Int) (t : Nat)
  /-- AIN_CONVERSION (R119): An AIN conversion completes, is stamped and checked against its window. -/
  | ainConversion (n : Fin 16) (code : Fin 4096) (t : Nat)
  /-- AIN_TIMEOUT (R121): A conversion not complete within 10 µs is dropped and recorded. -/
  | ainTimeout (n : Fin 16) (t : Nat)
  /-- STREAM_STALE (R110): A stream's newest sample ages past its limit; STALE is set and current stream stale raised. -/
  | streamStale (i : Fin 14) (t : Nat)
  /-- XCHK_WINDOW_END (R115): At each 1 ms window the current unit compares the two string paths and sets XFAIL after 10 failures. -/
  | xchkWindowEnd (t : Nat)
  /-- OFFSET_MEASURE (R117): After each 1 s with gates inhibited and contactors open, path means are written to AQ_CUR_OFS. -/
  | offsetMeasure (r : Fin 12) (t : Nat)
  /-- CURRENT_AT_INSTANT (R118): ES obtains a string's current at a cell's instant by interpolating the selected ring once data covers it. -/
  | currentAtInstant (r : Fin 12) (instant : Nat) (t : Nat)
  /-- CFB_SAMPLE (R122): The power die samples a CFB input every 100 µs and debounces it. -/
  | cfbSample (n : Fin 24) (level : Fin 3) (t : Nat)
  /-- TRIP_VERDICT (R129): A verdict or source change reaches the trip block, which combines actions per string and starts the most severe. -/
  | tripVerdict (n : Nat) (t : Nat)
  /-- DERATE_HOLD_EXPIRE (R131): DHOLD after its source clears, a DERATE releases itself. -/
  | derateHoldExpire (r : Fin 12) (t : Nat)
  /-- RAMP_PARK (R133): A ramping string meets the zero-current condition and is inhibited (parked), then opens for RAMP-OPEN. -/
  | rampPark (r : Fin 12) (t : Nat)
  /-- RAMP_TIMEOUT (R133): A ramp reaches TRAMPMAX and the string is inhibited at that instant. -/
  | rampTimeout (r : Fin 12) (t : Nat)
  /-- ZERO_CURRENT_OPEN (R132): An inhibited string meets the zero-current condition and its HC channel turns off. -/
  | zeroCurrentOpen (r : Fin 12) (t : Nat)
  /-- OPEN_TIMEOUT (R133): t_open_max passes; the HC channel turns off under load and EV_CON_FORCED is recorded. -/
  | openTimeout (r : Fin 12) (t : Nat)
  /-- TRIP_CLR (R131): A write of CLR releases latched strings whose sources are inactive, or is refused. -/
  | tripClr (src : Nat) (v : Nat) (t : Nat)
  /-- TRIP_PROGRAM_REQUEST (R127): A write of PW_TRIP_REQ raises source 28 with the given action, scope and strings. -/
  | tripProgramRequest (src : Nat) (v : Nat) (t : Nat)
  /-- DLIM_DIS_WRITE (R134): A write of the discharge limit completes and stamps the dynamic limit pair. -/
  | dlimDisWrite (src : Nat) (r : Fin 12) (v : Nat) (t : Nat)
  /-- DLIM_EXCEED (R135): Current above the limit in force with margin for DLPERS raises source 16. -/
  | dlimExceed (r : Fin 12) (t : Nat)
  /-- DLIM_STALE (R136): No completed pair for DLSTALE: fallback limits, source 17 and EV_DLIM_STALE. -/
  | dlimStale (r : Fin 12) (t : Nat)
  /-- CONTACTOR_CLOSE (R139): A close request is checked and accepted or refused with EV_CON_REFUSED. -/
  | contactorClose (src : Nat) (r : Fin 12) (v : Nat) (t : Nat)
  /-- CONTACTOR_OPEN (R127): A PW_CON_CMD OPEN bit starts an unlatched RAMP-OPEN of the string. -/
  | contactorOpen (src : Nat) (r : Fin 12) (v : Nat) (t : Nat)
  /-- CLOSE_WAIT_END (R140): A waiting close in an LC group proceeds when its partner enters economiser hold or 200 ms pass. -/
  | closeWaitEnd (r : Fin 12) (t : Nat)
  /-- PULL_IN_TIMEOUT (R141): TPULL passes without both feedbacks closed; HC off and source 20 raised with cause pull-in. -/
  | pullInTimeout (r : Fin 12) (t : Nat)
  /-- ECONOMISER_START (R141): 200 ms after pull-in start the HC input follows its assigned source. -/
  | economiserStart (r : Fin 12) (t : Nat)
  /-- WELD_CHECK_TIMEOUT (R143): 100 ms after HC off or at TDROP the welded-contact check decides and may set WLOCK. -/
  | weldCheckTimeout (r : Fin 12) (t : Nat)
  /-- PRECHARGE_START (R146): A write of START checks preconditions and starts the pre-charge sequence or records EV_PCH_FAIL. -/
  | prechargeStart (src : Nat) (v : Nat) (t : Nat)
  /-- PRECHARGE_TIMEOUT (R147): A pre-charge step's time limit passes: seed ΔV, boost settling or string buck. -/
  | prechargeTimeout (t : Nat)
  /-- JOIN (R148): A write of JOIN runs steps 5 to 7 for JMASK or is refused. -/
  | join (src : Nat) (v : Nat) (t : Nat)
  /-- ABORT (R147): A write of ABORT fails the sequence with reason 9. -/
  | abort (src : Nat) (v : Nat) (t : Nat)
  /-- PRESEQ_COMPLETE (R150): The power die confirms every HC off, or 5 ms pass, and the chip reset is asserted. -/
  | preseqComplete (t : Nat)
  /-- PW_RESET_HOLD (R151): When PW cannot pre-sequence, PW is reset, channels held 5 ms, then the chip reset. -/
  | pwResetHold (t : Nat)
  /-- LB (R190): Loads a sign-extended byte. -/
  | lb (g : GrainId) (rd : Fin 32) (rs1 : Fin 32) (imm : Fin 65536) (t : Nat)
  /-- LH (R190): Loads a sign-extended halfword. -/
  | lh (g : GrainId) (rd : Fin 32) (rs1 : Fin 32) (imm : Fin 65536) (t : Nat)
  /-- LW (R190): Loads a word. -/
  | lw (g : GrainId) (rd : Fin 32) (rs1 : Fin 32) (imm : Fin 65536) (t : Nat)
  /-- LBU (R190): Loads a zero-extended byte. -/
  | lbu (g : GrainId) (rd : Fin 32) (rs1 : Fin 32) (imm : Fin 65536) (t : Nat)
  /-- LHU (R190): Loads a zero-extended halfword. -/
  | lhu (g : GrainId) (rd : Fin 32) (rs1 : Fin 32) (imm : Fin 65536) (t : Nat)
  /-- LOAD_COMPLETE (R191): A waiting load receives its data or an error response and raises bus error precisely. -/
  | loadComplete (g : GrainId) (t : Nat)
  /-- SB (R190): Stores a byte. -/
  | sb (g : GrainId) (rs2 : Fin 32) (rs1 : Fin 32) (imm : Fin 65536) (t : Nat)
  /-- SH (R190): Stores a halfword. -/
  | sh (g : GrainId) (rs2 : Fin 32) (rs1 : Fin 32) (imm : Fin 65536) (t : Nat)
  /-- SW (R190): Stores a word; MRAM stores pass through staging. -/
  | sw (g : GrainId) (rs2 : Fin 32) (rs1 : Fin 32) (imm : Fin 65536) (t : Nat)
  /-- IMPRECISE_BUS_ERROR (R210): A store's error response is taken later as an imprecise bus error. -/
  | impreciseBusError (g : GrainId) (t : Nat)
  /-- ADD (R187): Integer sum. -/
  | add (g : GrainId) (rd : Fin 32) (rs1 : Fin 32) (rs2 : Fin 32) (t : Nat)
  /-- SUB (R187): Integer difference. -/
  | sub (g : GrainId) (rd : Fin 32) (rs1 : Fin 32) (rs2 : Fin 32) (t : Nat)
  /-- AND (R187): Bitwise and. -/
  | and (g : GrainId) (rd : Fin 32) (rs1 : Fin 32) (rs2 : Fin 32) (t : Nat)
  /-- OR (R187): Bitwise or. -/
  | or (g : GrainId) (rd : Fin 32) (rs1 : Fin 32) (rs2 : Fin 32) (t : Nat)
  /-- XOR (R187): Bitwise exclusive or. -/
  | xor (g : GrainId) (rd : Fin 32) (rs1 : Fin 32) (rs2 : Fin 32) (t : Nat)
  /-- SLL (R187): Shift left by register. -/
  | sll (g : GrainId) (rd : Fin 32) (rs1 : Fin 32) (rs2 : Fin 32) (t : Nat)
  /-- SRL (R187): Logical shift right by register. -/
  | srl (g : GrainId) (rd : Fin 32) (rs1 : Fin 32) (rs2 : Fin 32) (t : Nat)
  /-- SRA (R187): Arithmetic shift right by register. -/
  | sra (g : GrainId) (rd : Fin 32) (rs1 : Fin 32) (rs2 : Fin 32) (t : Nat)
  /-- SLT (R187): Signed set-less-than. -/
  | slt (g : GrainId) (rd : Fin 32) (rs1 : Fin 32) (rs2 : Fin 32) (t : Nat)
  /-- SLTU (R187): Unsigned set-less-than. -/
  | sltu (g : GrainId) (rd : Fin 32) (rs1 : Fin 32) (rs2 : Fin 32) (t : Nat)
  /-- MIN (R187): Signed minimum. -/
  | min (g : GrainId) (rd : Fin 32) (rs1 : Fin 32) (rs2 : Fin 32) (t : Nat)
  /-- MAX (R187): Signed maximum. -/
  | max (g : GrainId) (rd : Fin 32) (rs1 : Fin 32) (rs2 : Fin 32) (t : Nat)
  /-- MINU (R187): Unsigned minimum. -/
  | minu (g : GrainId) (rd : Fin 32) (rs1 : Fin 32) (rs2 : Fin 32) (t : Nat)
  /-- MAXU (R187): Unsigned maximum. -/
  | maxu (g : GrainId) (rd : Fin 32) (rs1 : Fin 32) (rs2 : Fin 32) (t : Nat)
  /-- SLLI (R187): Shift left by immediate. -/
  | slli (g : GrainId) (rd : Fin 32) (rs1 : Fin 32) (sh : Fin 32) (t : Nat)
  /-- SRLI (R187): Logical shift right by immediate. -/
  | srli (g : GrainId) (rd : Fin 32) (rs1 : Fin 32) (sh : Fin 32) (t : Nat)
  /-- SRAI (R187): Arithmetic shift right by immediate. -/
  | srai (g : GrainId) (rd : Fin 32) (rs1 : Fin 32) (sh : Fin 32) (t : Nat)
  /-- CLZ (R187): Counts leading zeros. -/
  | clz (g : GrainId) (rd : Fin 32) (rs1 : Fin 32) (t : Nat)
  /-- CTZ (R187): Counts trailing zeros. -/
  | ctz (g : GrainId) (rd : Fin 32) (rs1 : Fin 32) (t : Nat)
  /-- POPC (R187): Counts ones. -/
  | popc (g : GrainId) (rd : Fin 32) (rs1 : Fin 32) (t : Nat)
  /-- MUL (R187): Low 32 bits of the product. -/
  | mul (g : GrainId) (rd : Fin 32) (rs1 : Fin 32) (rs2 : Fin 32) (t : Nat)
  /-- MULH (R187): High 32 bits of the signed product. -/
  | mulh (g : GrainId) (rd : Fin 32) (rs1 : Fin 32) (rs2 : Fin 32) (t : Nat)
  /-- MULHU (R187): High 32 bits of the unsigned product. -/
  | mulhu (g : GrainId) (rd : Fin 32) (rs1 : Fin 32) (rs2 : Fin 32) (t : Nat)
  /-- DIV (R188): Signed saturating division. -/
  | div (g : GrainId) (rd : Fin 32) (rs1 : Fin 32) (rs2 : Fin 32) (t : Nat)
  /-- DIVU (R188): Unsigned saturating division. -/
  | divu (g : GrainId) (rd : Fin 32) (rs1 : Fin 32) (rs2 : Fin 32) (t : Nat)
  /-- REM (R188): Signed remainder. -/
  | rem (g : GrainId) (rd : Fin 32) (rs1 : Fin 32) (rs2 : Fin 32) (t : Nat)
  /-- REMU (R188): Unsigned remainder. -/
  | remu (g : GrainId) (rd : Fin 32) (rs1 : Fin 32) (rs2 : Fin 32) (t : Nat)
  /-- ADDI (R189): Adds an immediate. -/
  | addi (g : GrainId) (rd : Fin 32) (rs1 : Fin 32) (imm : Fin 65536) (t : Nat)
  /-- SLTI (R189): Signed set-less-than immediate. -/
  | slti (g : GrainId) (rd : Fin 32) (rs1 : Fin 32) (imm : Fin 65536) (t : Nat)
  /-- SLTIU (R189): Unsigned set-less-than immediate. -/
  | sltiu (g : GrainId) (rd : Fin 32) (rs1 : Fin 32) (imm : Fin 65536) (t : Nat)
  /-- ANDI (R189): And with an unsigned immediate. -/
  | andi (g : GrainId) (rd : Fin 32) (rs1 : Fin 32) (imm : Fin 65536) (t : Nat)
  /-- ORI (R189): Or with an unsigned immediate. -/
  | ori (g : GrainId) (rd : Fin 32) (rs1 : Fin 32) (imm : Fin 65536) (t : Nat)
  /-- XORI (R189): Exclusive or with an unsigned immediate. -/
  | xori (g : GrainId) (rd : Fin 32) (rs1 : Fin 32) (imm : Fin 65536) (t : Nat)
  /-- LUI (R189): Loads an immediate into the upper half. -/
  | lui (g : GrainId) (rd : Fin 32) (imm : Fin 65536) (t : Nat)
  /-- SRR (R183): Reads a system register; reading TIMELO latches TIMEHI. -/
  | srr (g : GrainId) (rd : Fin 32) (n : Fin 65536) (t : Nat)
  /-- SRW (R183): Writes a system register, serialising. -/
  | srw (g : GrainId) (n : Fin 65536) (rs1 : Fin 32) (t : Nat)
  /-- BEQ (R193): Branches when equal. -/
  | beq (g : GrainId) (rs1 : Fin 32) (rs2 : Fin 32) (off : Fin 65536) (t : Nat)
  /-- BNE (R193): Branches when not equal. -/
  | bne (g : GrainId) (rs1 : Fin 32) (rs2 : Fin 32) (off : Fin 65536) (t : Nat)
  /-- BLT (R193): Branches when signed less. -/
  | blt (g : GrainId) (rs1 : Fin 32) (rs2 : Fin 32) (off : Fin 65536) (t : Nat)
  /-- BGE (R193): Branches when signed greater or equal. -/
  | bge (g : GrainId) (rs1 : Fin 32) (rs2 : Fin 32) (off : Fin 65536) (t : Nat)
  /-- BLTU (R193): Branches when unsigned less. -/
  | bltu (g : GrainId) (rs1 : Fin 32) (rs2 : Fin 32) (off : Fin 65536) (t : Nat)
  /-- BGEU (R193): Branches when unsigned greater or equal. -/
  | bgeu (g : GrainId) (rs1 : Fin 32) (rs2 : Fin 32) (off : Fin 65536) (t : Nat)
  /-- J (R193): Jumps relative. -/
  | j (g : GrainId) (off : Fin 67108864) (t : Nat)
  /-- JAL (R193): Jumps relative and writes the return address to g1. -/
  | jal (g : GrainId) (off : Fin 67108864) (t : Nat)
  /-- JALR (R193): Jumps to a register target and writes the return address. -/
  | jalr (g : GrainId) (rd : Fin 32) (rs1 : Fin 32) (imm : Fin 65536) (t : Nat)
  /-- FLW (R190): Loads binary32 into an f register. -/
  | flw (g : GrainId) (rd : Fin 32) (rs1 : Fin 32) (imm : Fin 65536) (t : Nat)
  /-- FLD (R190): Loads binary64 into an f register. -/
  | fld (g : GrainId) (rd : Fin 32) (rs1 : Fin 32) (imm : Fin 65536) (t : Nat)
  /-- FSW (R190): Stores binary32 from an f register. -/
  | fsw (g : GrainId) (rs2 : Fin 32) (rs1 : Fin 32) (imm : Fin 65536) (t : Nat)
  /-- FSD (R190): Stores binary64 from an f register. -/
  | fsd (g : GrainId) (rs2 : Fin 32) (rs1 : Fin 32) (imm : Fin 65536) (t : Nat)
  /-- FADD (R196): Floating addition. -/
  | fadd (g : GrainId) (p : Bool) (rd : Fin 32) (rs1 : Fin 32) (rs2 : Fin 32) (t : Nat)
  /-- FSUB (R196): Floating subtraction. -/
  | fsub (g : GrainId) (p : Bool) (rd : Fin 32) (rs1 : Fin 32) (rs2 : Fin 32) (t : Nat)
  /-- FMUL (R196): Floating multiplication. -/
  | fmul (g : GrainId) (p : Bool) (rd : Fin 32) (rs1 : Fin 32) (rs2 : Fin 32) (t : Nat)
  /-- FDIV (R196): Floating division. -/
  | fdiv (g : GrainId) (p : Bool) (rd : Fin 32) (rs1 : Fin 32) (rs2 : Fin 32) (t : Nat)
  /-- FSQRT (R196): Floating square root. -/
  | fsqrt (g : GrainId) (p : Bool) (rd : Fin 32) (rs1 : Fin 32) (t : Nat)
  /-- FMLA (R196): Fused fs3 + fs1 × fs2. -/
  | fmla (g : GrainId) (p : Bool) (rd : Fin 32) (rs1 : Fin 32) (rs2 : Fin 32) (rs3 : Fin 32) (t : Nat)
  /-- FMLS (R196): Fused fs3 − fs1 × fs2. -/
  | fmls (g : GrainId) (p : Bool) (rd : Fin 32) (rs1 : Fin 32) (rs2 : Fin 32) (rs3 : Fin 32) (t : Nat)
  /-- FMNL (R196): Fused fs1 × fs2 − fs3. -/
  | fmnl (g : GrainId) (p : Bool) (rd : Fin 32) (rs1 : Fin 32) (rs2 : Fin 32) (rs3 : Fin 32) (t : Nat)
  /-- FMIN (R196): IEEE minimum. -/
  | fmin (g : GrainId) (p : Bool) (rd : Fin 32) (rs1 : Fin 32) (rs2 : Fin 32) (t : Nat)
  /-- FMAX (R196): IEEE maximum. -/
  | fmax (g : GrainId) (p : Bool) (rd : Fin 32) (rs1 : Fin 32) (rs2 : Fin 32) (t : Nat)
  /-- FABS (R196): Clears the sign bit. -/
  | fabs (g : GrainId) (p : Bool) (rd : Fin 32) (rs1 : Fin 32) (t : Nat)
  /-- FNEG (R196): Inverts the sign bit. -/
  | fneg (g : GrainId) (p : Bool) (rd : Fin 32) (rs1 : Fin 32) (t : Nat)
  /-- FCEQ (R196): Floating compare equal. -/
  | fceq (g : GrainId) (p : Bool) (rd : Fin 32) (rs1 : Fin 32) (rs2 : Fin 32) (t : Nat)
  /-- FCLT (R196): Floating compare less. -/
  | fclt (g : GrainId) (p : Bool) (rd : Fin 32) (rs1 : Fin 32) (rs2 : Fin 32) (t : Nat)
  /-- FCLE (R196): Floating compare less or equal. -/
  | fcle (g : GrainId) (p : Bool) (rd : Fin 32) (rs1 : Fin 32) (rs2 : Fin 32) (t : Nat)
  /-- FKIND (R196): Classifies a floating value. -/
  | fkind (g : GrainId) (p : Bool) (rd : Fin 32) (rs1 : Fin 32) (t : Nat)
  /-- FTOI (R196): Converts floating to signed 32-bit, saturating. -/
  | ftoi (g : GrainId) (p : Bool) (rd : Fin 32) (rs1 : Fin 32) (t : Nat)
  /-- ITOF (R196): Converts signed 32-bit to floating. -/
  | itof (g : GrainId) (p : Bool) (rd : Fin 32) (rs1 : Fin 32) (t : Nat)
  /-- FNARROW (R196): Converts binary64 to binary32. -/
  | fnarrow (g : GrainId) (rd : Fin 32) (rs1 : Fin 32) (t : Nat)
  /-- FWIDEN (R196): Converts binary32 to binary64. -/
  | fwiden (g : GrainId) (rd : Fin 32) (rs1 : Fin 32) (t : Nat)
  /-- FMVGF_LO (R196): Moves the low half of an f register to a g register. -/
  | fmvgfLo (g : GrainId) (rd : Fin 32) (rs1 : Fin 32) (t : Nat)
  /-- FMVGF_HI (R196): Moves the high half of an f register to a g register. -/
  | fmvgfHi (g : GrainId) (rd : Fin 32) (rs1 : Fin 32) (t : Nat)
  /-- FMVFG_LO (R196): Writes a g register into the low half of an f register. -/
  | fmvfgLo (g : GrainId) (rd : Fin 32) (rs1 : Fin 32) (t : Nat)
  /-- FMVFG_HI (R196): Writes a g register into the high half of an f register. -/
  | fmvfgHi (g : GrainId) (rd : Fin 32) (rs1 : Fin 32) (t : Nat)
  /-- FCUN (R196): Tests for an unordered pair. -/
  | fcun (g : GrainId) (p : Bool) (rd : Fin 32) (rs1 : Fin 32) (rs2 : Fin 32) (t : Nat)
  /-- AMOADD (R197): Atomic fetch and add. -/
  | amoadd (g : GrainId) (rd : Fin 32) (rs1 : Fin 32) (rs2 : Fin 32) (t : Nat)
  /-- AMOSWAP (R197): Atomic swap. -/
  | amoswap (g : GrainId) (rd : Fin 32) (rs1 : Fin 32) (rs2 : Fin 32) (t : Nat)
  /-- AMOCAS (R197): Atomic compare and swap. -/
  | amocas (g : GrainId) (rd : Fin 32) (rs1 : Fin 32) (rs2 : Fin 32) (t : Nat)
  /-- QPUT (R198): Puts a descriptor into a queue, waiting or refused when full. -/
  | qput (g : GrainId) (rd : Fin 32) (rs1 : Fin 32) (rs2 : Fin 32) (t : Nat)
  /-- QGET (R198): Gets a descriptor, waiting while the queue is empty. -/
  | qget (g : GrainId) (rd : Fin 32) (rs1 : Fin 32) (t : Nat)
  /-- QTRY (R198): Gets a descriptor without waiting. -/
  | qtry (g : GrainId) (rd : Fin 32) (rs1 : Fin 32) (t : Nat)
  /-- WAITQ (R198): Waits until a masked queue holds a descriptor or the inbox is not empty. -/
  | waitq (g : GrainId) (rd : Fin 32) (rs1 : Fin 32) (t : Nat)
  /-- QUEUE_WAIT_RESUME (R199): A waiting qput, qget or waitq resumes when room or data arrives. -/
  | queueWaitResume (g : GrainId) (t : Nat)
  /-- QPUTHI (R163): A write of QPUTHI puts the assembled descriptor into the queue. -/
  | qputhi (src : Nat) (n : Fin 64) (v : Nat) (t : Nat)
  /-- QGETLO (R163): A read of QGETLO gets a descriptor and returns its low word. -/
  | qgetlo (n : Fin 64) (t : Nat)
  /-- FENCE (R203): Waits until every earlier access is globally performed. -/
  | fence (g : GrainId) (t : Nat)
  /-- PFENCE (R204): Acts as fence and waits until earlier MRAM stores are durable. -/
  | pfence (g : GrainId) (t : Nat)
  /-- FENCE_COMPLETE (R204): A waiting fence or pfence completes. -/
  | fenceComplete (g : GrainId) (t : Nat)
  /-- ERET (R207): Restores STATUS from ESTAT and continues at EPC. -/
  | eret (g : GrainId) (t : Nat)
  /-- IBGET (R212): Removes the oldest inbox descriptor into a register quad. -/
  | ibget (g : GrainId) (rd : Fin 32) (t : Nat)
  /-- IPOST (R212): Raises a doorbell descriptor in another grain's inbox. -/
  | ipost (g : GrainId) (rs1 : Fin 32) (rs2 : Fin 32) (t : Nat)
  /-- TRAP (R209): Raises the trap exception. -/
  | trap (g : GrainId) (imm5 : Fin 32) (t : Nat)
  /-- BRK (R209): Raises the breakpoint exception. -/
  | brk (g : GrainId) (t : Nat)
  /-- DLARM (R201): Arms a deadline slot. -/
  | dlarm (g : GrainId) (slot : Fin 32) (rs1 : Fin 32) (t : Nat)
  /-- DLDONE (R201): Disarms a deadline slot and reports the outcome. -/
  | dldone (g : GrainId) (rd : Fin 32) (slot : Fin 32) (t : Nat)
  /-- TRAP_ENTRY (R207): With IE 1, TRAP 0 and a non-empty inbox, the grain enters its trap handler. -/
  | trapEntry (g : GrainId) (t : Nat)
  /-- INBOX_HOLD_RELEASE (R166): A held asynchronous descriptor is delivered when an inbox entry frees. -/
  | inboxHoldRelease (src : Nat) (dest : Nat) (t : Nat)
  /-- VADD_I (R217): Lane integer sum. -/
  | vaddI (g : GrainId) (scalar : Bool) (vd : Fin 32) (a : Fin 32) (b : Fin 32) (pg : Fin 8) (t : Nat)
  /-- VSUB_I (R217): Lane integer difference. -/
  | vsubI (g : GrainId) (scalar : Bool) (vd : Fin 32) (a : Fin 32) (b : Fin 32) (pg : Fin 8) (t : Nat)
  /-- VMUL_I (R217): Lane integer product. -/
  | vmulI (g : GrainId) (scalar : Bool) (vd : Fin 32) (a : Fin 32) (b : Fin 32) (pg : Fin 8) (t : Nat)
  /-- VAND (R217): Lane bitwise and. -/
  | vand (g : GrainId) (scalar : Bool) (vd : Fin 32) (a : Fin 32) (b : Fin 32) (pg : Fin 8) (t : Nat)
  /-- VOR (R217): Lane bitwise or. -/
  | vor (g : GrainId) (scalar : Bool) (vd : Fin 32) (a : Fin 32) (b : Fin 32) (pg : Fin 8) (t : Nat)
  /-- VXOR (R217): Lane bitwise exclusive or. -/
  | vxor (g : GrainId) (scalar : Bool) (vd : Fin 32) (a : Fin 32) (b : Fin 32) (pg : Fin 8) (t : Nat)
  /-- VSLL (R217): Lane shift left. -/
  | vsll (g : GrainId) (scalar : Bool) (vd : Fin 32) (a : Fin 32) (b : Fin 32) (pg : Fin 8) (t : Nat)
  /-- VSRL (R217): Lane logical shift right. -/
  | vsrl (g : GrainId) (scalar : Bool) (vd : Fin 32) (a : Fin 32) (b : Fin 32) (pg : Fin 8) (t : Nat)
  /-- VSRA (R217): Lane arithmetic shift right. -/
  | vsra (g : GrainId) (scalar : Bool) (vd : Fin 32) (a : Fin 32) (b : Fin 32) (pg : Fin 8) (t : Nat)
  /-- VMIN_I (R217): Lane signed minimum. -/
  | vminI (g : GrainId) (scalar : Bool) (vd : Fin 32) (a : Fin 32) (b : Fin 32) (pg : Fin 8) (t : Nat)
  /-- VMAX_I (R217): Lane signed maximum. -/
  | vmaxI (g : GrainId) (scalar : Bool) (vd : Fin 32) (a : Fin 32) (b : Fin 32) (pg : Fin 8) (t : Nat)
  /-- VMINU (R217): Lane unsigned minimum. -/
  | vminu (g : GrainId) (scalar : Bool) (vd : Fin 32) (a : Fin 32) (b : Fin 32) (pg : Fin 8) (t : Nat)
  /-- VMAXU (R217): Lane unsigned maximum. -/
  | vmaxu (g : GrainId) (scalar : Bool) (vd : Fin 32) (a : Fin 32) (b : Fin 32) (pg : Fin 8) (t : Nat)
  /-- VADD_F (R217): Lane binary32 sum. -/
  | vaddF (g : GrainId) (scalar : Bool) (vd : Fin 32) (a : Fin 32) (b : Fin 32) (pg : Fin 8) (t : Nat)
  /-- VSUB_F (R217): Lane binary32 difference. -/
  | vsubF (g : GrainId) (scalar : Bool) (vd : Fin 32) (a : Fin 32) (b : Fin 32) (pg : Fin 8) (t : Nat)
  /-- VMUL_F (R217): Lane binary32 product. -/
  | vmulF (g : GrainId) (scalar : Bool) (vd : Fin 32) (a : Fin 32) (b : Fin 32) (pg : Fin 8) (t : Nat)
  /-- VDIV_F (R217): Lane binary32 quotient. -/
  | vdivF (g : GrainId) (scalar : Bool) (vd : Fin 32) (a : Fin 32) (b : Fin 32) (pg : Fin 8) (t : Nat)
  /-- VFMA (R217): Lane fused multiply-add into vd. -/
  | vfma (g : GrainId) (scalar : Bool) (vd : Fin 32) (a : Fin 32) (b : Fin 32) (pg : Fin 8) (t : Nat)
  /-- VFNMA (R217): Lane fused negative multiply-add into vd. -/
  | vfnma (g : GrainId) (scalar : Bool) (vd : Fin 32) (a : Fin 32) (b : Fin 32) (pg : Fin 8) (t : Nat)
  /-- VMIN_F (R217): Lane floating minimum. -/
  | vminF (g : GrainId) (scalar : Bool) (vd : Fin 32) (a : Fin 32) (b : Fin 32) (pg : Fin 8) (t : Nat)
  /-- VMAX_F (R217): Lane floating maximum. -/
  | vmaxF (g : GrainId) (scalar : Bool) (vd : Fin 32) (a : Fin 32) (b : Fin 32) (pg : Fin 8) (t : Nat)
  /-- VSQRT_F (R217): Lane square root. -/
  | vsqrtF (g : GrainId) (vd : Fin 32) (a : Fin 32) (pg : Fin 8) (t : Nat)
  /-- VABS_F (R217): Lane absolute value. -/
  | vabsF (g : GrainId) (vd : Fin 32) (a : Fin 32) (pg : Fin 8) (t : Nat)
  /-- VNEG_F (R217): Lane negation. -/
  | vnegF (g : GrainId) (vd : Fin 32) (a : Fin 32) (pg : Fin 8) (t : Nat)
  /-- VCVT_F_I (R217): Lane integer to binary32. -/
  | vcvtFI (g : GrainId) (vd : Fin 32) (a : Fin 32) (pg : Fin 8) (t : Nat)
  /-- VCVT_I_F (R217): Lane binary32 to integer, saturating. -/
  | vcvtIF (g : GrainId) (vd : Fin 32) (a : Fin 32) (pg : Fin 8) (t : Nat)
  /-- VLD (R218): Vector load of consecutive words. -/
  | vld (g : GrainId) (vd : Fin 32) (rs1 : Fin 32) (pg : Fin 8) (t : Nat)
  /-- VLDS (R218): Vector strided load. -/
  | vlds (g : GrainId) (vd : Fin 32) (rs1 : Fin 32) (rs2 : Fin 32) (pg : Fin 8) (t : Nat)
  /-- VST (R218): Vector store of consecutive words. -/
  | vst (g : GrainId) (vs : Fin 32) (rs1 : Fin 32) (pg : Fin 8) (t : Nat)
  /-- VSTS (R218): Vector strided store. -/
  | vsts (g : GrainId) (vs : Fin 32) (rs1 : Fin 32) (rs2 : Fin 32) (pg : Fin 8) (t : Nat)
  /-- VGTH (R218): Vector gather. -/
  | vgth (g : GrainId) (vd : Fin 32) (rs1 : Fin 32) (vs2 : Fin 32) (pg : Fin 8) (t : Nat)
  /-- VSCT (R218): Vector scatter. -/
  | vsct (g : GrainId) (vs : Fin 32) (rs1 : Fin 32) (vs2 : Fin 32) (pg : Fin 8) (t : Nat)
  /-- VCMP_EQ_I (R220): Lane integer compare equal into a predicate. -/
  | vcmpEqI (g : GrainId) (pd : Fin 8) (a : Fin 32) (b : Fin 32) (pg : Fin 8) (t : Nat)
  /-- VCMP_NE_I (R220): Lane integer compare not equal. -/
  | vcmpNeI (g : GrainId) (pd : Fin 8) (a : Fin 32) (b : Fin 32) (pg : Fin 8) (t : Nat)
  /-- VCMP_LT_I (R220): Lane signed compare less. -/
  | vcmpLtI (g : GrainId) (pd : Fin 8) (a : Fin 32) (b : Fin 32) (pg : Fin 8) (t : Nat)
  /-- VCMP_LE_I (R220): Lane signed compare less or equal. -/
  | vcmpLeI (g : GrainId) (pd : Fin 8) (a : Fin 32) (b : Fin 32) (pg : Fin 8) (t : Nat)
  /-- VCMP_LTU (R220): Lane unsigned compare less. -/
  | vcmpLtu (g : GrainId) (pd : Fin 8) (a : Fin 32) (b : Fin 32) (pg : Fin 8) (t : Nat)
  /-- VCMP_LEU (R220): Lane unsigned compare less or equal. -/
  | vcmpLeu (g : GrainId) (pd : Fin 8) (a : Fin 32) (b : Fin 32) (pg : Fin 8) (t : Nat)
  /-- VCMP_EQ_F (R220): Lane floating compare equal. -/
  | vcmpEqF (g : GrainId) (pd : Fin 8) (a : Fin 32) (b : Fin 32) (pg : Fin 8) (t : Nat)
  /-- VCMP_LT_F (R220): Lane floating compare less. -/
  | vcmpLtF (g : GrainId) (pd : Fin 8) (a : Fin 32) (b : Fin 32) (pg : Fin 8) (t : Nat)
  /-- VCMP_LE_F (R220): Lane floating compare less or equal. -/
  | vcmpLeF (g : GrainId) (pd : Fin 8) (a : Fin 32) (b : Fin 32) (pg : Fin 8) (t : Nat)
  /-- VCMP_UN_F (R220): Lane floating unordered test. -/
  | vcmpUnF (g : GrainId) (pd : Fin 8) (a : Fin 32) (b : Fin 32) (pg : Fin 8) (t : Nat)
  /-- PAND (R220): Predicate and. -/
  | pand (g : GrainId) (pd : Fin 8) (a : Fin 8) (b : Fin 8) (t : Nat)
  /-- POR (R220): Predicate or. -/
  | por (g : GrainId) (pd : Fin 8) (a : Fin 8) (b : Fin 8) (t : Nat)
  /-- PXOR (R220): Predicate exclusive or. -/
  | pxor (g : GrainId) (pd : Fin 8) (a : Fin 8) (b : Fin 8) (t : Nat)
  /-- PNOT (R220): Predicate inverse. -/
  | pnot (g : GrainId) (pd : Fin 8) (a : Fin 8) (t : Nat)
  /-- PMV (R220): Moves a general register into a predicate. -/
  | pmv (g : GrainId) (pd : Fin 8) (rs1 : Fin 32) (t : Nat)
  /-- PGET (R220): Moves a predicate into a general register. -/
  | pget (g : GrainId) (rd : Fin 32) (a : Fin 8) (t : Nat)
  /-- VBCAST (R220): Broadcasts a general register to active lanes. -/
  | vbcast (g : GrainId) (vd : Fin 32) (rs1 : Fin 32) (pg : Fin 8) (t : Nat)
  /-- VINS (R220): Inserts a general register into one lane. -/
  | vins (g : GrainId) (vd : Fin 32) (rs1 : Fin 32) (lane : Fin 8) (t : Nat)
  /-- VEXT (R220): Extracts one lane into a general register. -/
  | vext (g : GrainId) (rd : Fin 32) (vs1 : Fin 32) (lane : Fin 8) (t : Nat)
  /-- VSEL (R220): Selects lanes by predicate. -/
  | vsel (g : GrainId) (vd : Fin 32) (a : Fin 32) (b : Fin 32) (pg : Fin 8) (t : Nat)
  /-- VMV (R220): Copies active lanes. -/
  | vmv (g : GrainId) (vd : Fin 32) (a : Fin 32) (pg : Fin 8) (t : Nat)
  /-- VID (R220): Writes lane indices. -/
  | vid (g : GrainId) (vd : Fin 32) (pg : Fin 8) (t : Nat)
  /-- VREDADD_I (R221): Integer sum reduction. -/
  | vredaddI (g : GrainId) (rd : Fin 32) (a : Fin 32) (pg : Fin 8) (t : Nat)
  /-- VREDADD_F (R221): Floating sum reduction in fixed order. -/
  | vredaddF (g : GrainId) (rd : Fin 32) (a : Fin 32) (pg : Fin 8) (t : Nat)
  /-- VREDMAX_F (R221): Floating maximum reduction. -/
  | vredmaxF (g : GrainId) (rd : Fin 32) (a : Fin 32) (pg : Fin 8) (t : Nat)
  /-- VREDMIN_F (R221): Floating minimum reduction. -/
  | vredminF (g : GrainId) (rd : Fin 32) (a : Fin 32) (pg : Fin 8) (t : Nat)
  /-- VREDMAX_I (R221): Integer maximum reduction. -/
  | vredmaxI (g : GrainId) (rd : Fin 32) (a : Fin 32) (pg : Fin 8) (t : Nat)
  /-- VREDMIN_I (R221): Integer minimum reduction. -/
  | vredminI (g : GrainId) (rd : Fin 32) (a : Fin 32) (pg : Fin 8) (t : Nat)
  /-- VTLD (R222): Loads a table descriptor into a table slot. -/
  | vtld (g : GrainId) (slot : Fin 4) (rs1 : Fin 32) (t : Nat)
  /-- VTAB2 (R223): Bilinear table interpolation per lane. -/
  | vtab2 (g : GrainId) (slot : Fin 4) (vd : Fin 32) (vs1 : Fin 32) (vs2 : Fin 32) (pg : Fin 8) (t : Nat)
  /-- VEXP (R224): Lane exponential. -/
  | vexp (g : GrainId) (vd : Fin 32) (vs1 : Fin 32) (pg : Fin 8) (t : Nat)
  /-- VCORR (R225): Sends active lanes to the block's impedance correlator, waiting while its queue is full. -/
  | vcorr (g : GrainId) (rs : Fin 32) (vs1 : Fin 32) (vs2 : Fin 32) (pg : Fin 8) (t : Nat)
  /-- CORR_LANE_ACCUMULATE (R226): The correlator accumulates an accepted lane into C, S and N for each frequency. -/
  | corrLaneAccumulate (b : Fin 4) (t : Nat)
  /-- CORR_CLR (R227): A write of CLR zeroes every accumulator while BUSY is 1. -/
  | corrClr (src : Nat) (b : Fin 4) (v : Nat) (t : Nat)
  /-- CORR_CLEAR_DONE (R227): The correlator clear completes and BUSY reads 0. -/
  | corrClearDone (b : Fin 4) (t : Nat)
  /-- KCALL (R228): Invokes a kernel through a descriptor, copying it into the overlay or jumping to an override. -/
  | kcall (g : GrainId) (rd : Fin 32) (rs1 : Fin 32) (t : Nat)
  /-- KERNEL_CELL_STATE_FILTER (R242): Kernel 0x01 updates every cell's state from one sweep. -/
  | kernelCellStateFilter (g : GrainId) (t : Nat)
  /-- KERNEL_CAPACITY (R254): Kernel 0x02 forms capacity observations at counted anchors. -/
  | kernelCapacity (g : GrainId) (t : Nat)
  /-- KERNEL_RESISTANCE (R255): Kernel 0x03 forms series-resistance observations from current steps. -/
  | kernelResistance (g : GrainId) (t : Nat)
  /-- KERNEL_POWER_LIMITS (R260): Kernel 0x04 computes each cell's charge and discharge limits for three horizons. -/
  | kernelPowerLimits (g : GrainId) (t : Nat)
  /-- KERNEL_IMPEDANCE (R257): Kernel 0x05 forms impedance phasors from the correlator accumulators. -/
  | kernelImpedance (g : GrainId) (t : Nat)
  /-- KERNEL_INTERNAL_TEMPERATURE (R258): Kernel 0x06 sets internal temperature from the impedance phase. -/
  | kernelInternalTemperature (g : GrainId) (t : Nat)
  /-- KERNEL_SELF_DISCHARGE (R259): Kernel 0x07 estimates self-discharge between anchors and flags soft shorts. -/
  | kernelSelfDischarge (g : GrainId) (t : Nat)
  /-- KERNEL_AGGREGATION_PARTIAL (R236): Kernel 0x08 in partial form aggregates one grain's cells. -/
  | kernelAggregationPartial (g : GrainId) (t : Nat)
  /-- KERNEL_AGGREGATION_FINAL (R262): Kernel 0x08 final merges partials, integrates charge, writes limits, weights, ESREQ and the result block. -/
  | kernelAggregationFinal (g : GrainId) (t : Nat)
  /-- SHARE_WEIGHT_WRITE (R277): A write of PW_SHW sets a string's weights at the next splitter cycle. -/
  | shareWeightWrite (src : Nat) (r : Fin 12) (v : Nat) (t : Nat)
  /-- WEIGHTS_STALE (R277): Weights unwritten for 100 ms count as 1.0 and EV_REG_WEIGHTS_STALE is recorded. -/
  | weightsStale (t : Nat)
  /-- VBUS_SOURCE_RECOVER (R275): After 100 ms of sound source the strings return to mode 1. -/
  | vbusSourceRecover (t : Nat)
  /-- PHASE_PERIOD_START (R280): At each switching period start each active phase updates its duty; open, burst and rotation are judged. -/
  | phasePeriodStart (r : Fin 12) (slot : Fin 4) (ones : Nat) (len : Nat) (t : Nat)
  /-- PHASE_DECAY_DONE (R299): 100 µs after inhibit the removed phase counts as at zero current. -/
  | phaseDecayDone (n : Fin 24) (t : Nat)
  /-- PHEN (R301): A write of PHEN re-enables a disabled phase or is refused. -/
  | phen (src : Nat) (r : Fin 12) (v : Nat) (t : Nat)
  /-- REFRESH_PULSE (R284): Every TREFRESH a phase with gates off sends a low-side refresh pulse. -/
  | refreshPulse (n : Fin 24) (t : Nat)
  /-- DELAY_LINE_RECAL (R281): Every 10 µs the HR-PWM delay line is recalibrated against the 400 MHz counter. -/
  | delayLineRecal (t : Nat)
  /-- PWM_EDGE (R311): A regulator pulse or enable edge turns a switch off at once or schedules its turn-on after dead time. -/
  | pwmEdge (n : Fin 24) (en : Bool) (pulse : Bool) (t : Nat)
  /-- PSYNC_EDGE (R285): A PSYNC_IN rising edge is measured; lock is declared or phase corrected. -/
  | psyncEdge (width : Nat) (t : Nat)
  /-- PSYNC_LOSS (R286): No edge within 1.5 periods or an edge far from prediction declares PSYNC_IN lost. -/
  | psyncLoss (t : Nat)
  /-- SYNC_HOLD_EXPIRE (R286): After SYNCHOLD carrier periods the timebase moves toward PERNOM. -/
  | syncHoldExpire (t : Nat)
  /-- VSET (R293): The PCS sets the bus target and slew; the CX9 accepts or NAKs and supersedes an earlier command. -/
  | vset (seq : Fin 256) (payload : Nat) (t : Nat)
  /-- STATQ (R290): The PCS asks for status; STAT then VBUS are sent. -/
  | statq (seq : Fin 256) (t : Nat)
  /-- IFF (R273): The PCS sends an expected bus current used as feed-forward. -/
  | iff (seq : Fin 256) (payload : Nat) (t : Nat)
  /-- LIMQ (R290): The PCS asks for limits; LIMD then LIMC are sent. -/
  | limq (seq : Fin 256) (t : Nat)
  /-- BVL_UNKNOWN_TYPE (R290): An unknown command type is answered with NAK reason 1. -/
  | bvlUnknownType (ty : Fin 128) (seq : Fin 256) (t : Nat)
  /-- BVL_FRAME_DISCARD (R289): A frame with bad CRC or bit 47 set is discarded and counted. -/
  | bvlFrameDiscard (seq : Fin 256) (t : Nat)
  /-- BVL_RESPONSE_SEND (R291): The CX9 sends its next queued response frame by priority once the line is free. -/
  | bvlResponseSend (t : Nat)
  /-- VSET_SETTLED (R293): The bus stays within VBAND for TSETTLE after reaching the target; ACK-DONE is queued. -/
  | vsetSettled (t : Nat)
  /-- IFF_TIMEOUT (R273): No IFF for 10 ms sets the feed-forward to 0. -/
  | iffTimeout (t : Nat)
  /-- LIM_PERIODIC (R296): Every LIMPER the CX9 queues LIMD and LIMC. -/
  | limPeriodic (t : Nat)
  /-- BVL_SILENCE (R297): No good frame for 10 ms; EV_BVL_TIMEOUT and the target is held for 100 ms. -/
  | bvlSilence (t : Nat)
  /-- BVL_FALLBACK (R297): 100 ms more of silence enters fallback per TOACT and VAUTO. -/
  | bvlFallback (t : Nat)
  /-- BVL_CLOCK_LOSS (R288): BVL_CK without an edge for 1 µs makes the link silent and the CX9 sends nothing. -/
  | bvlClockLoss (t : Nat)
  /-- CAPMOVE_TIMEOUT (R302): A capacitance move not below 50 V within 2 s records EV_REG_CAPDIS and enters mode 0. -/
  | capmoveTimeout (r : Fin 12) (t : Nat)
  /-- EXC_START (R303): A write of START begins excitation of a string or is refused with XEND. -/
  | excStart (src : Nat) (v : Nat) (t : Nat)
  /-- EXC_STOP (R305): A write of STOP ends excitation through the falling envelope. -/
  | excStop (src : Nat) (v : Nat) (t : Nat)
  /-- EXC_ENVELOPE_END (R305): The falling envelope reaches zero and EV_REG_EXC_END is recorded. -/
  | excEnvelopeEnd (t : Nat)
  /-- EXC_COMP_TIMEOUT (R305): A compensation share unplaceable for 10 ms ends the excitation with reason 4. -/
  | excCompTimeout (t : Nat)
  /-- DESAT_FLAG (R314): A desaturation flag counting after blanking while the switch is on is a short of the half-bridge. -/
  | desatFlag (n : Fin 24) (hi : Bool) (level : Bool) (t : Nat)
  /-- BLANK_END (R314): TBLANK after a turn-on, a desaturation flag already high counts as a short. -/
  | blankEnd (n : Fin 24) (hi : Bool) (t : Nat)
  /-- FAST_OVERCURRENT (R315): The PDAT-based detector exceeds FOCTH at two clocks and declares a short. -/
  | fastOvercurrent (n : Fin 24) (ones1 : Fin 9) (ones2 : Fin 9) (t : Nat)
  /-- FEEDBACK_CHANGE (R311): A gate feedback level counts; a pending turn-on may proceed or a feedback fault be taken. -/
  | feedbackChange (n : Fin 24) (hi : Bool) (level : Bool) (t : Nat)
  /-- INTERLOCK_TIMEOUT (R312): Feedback not agreeing within TIL gives an interlock or feedback fault. -/
  | interlockTimeout (n : Fin 24) (t : Nat)
  /-- STOP_HARD_OFF (R318): A half-bridge's plateau ends and it goes hard off in stagger order. -/
  | stopHardOff (n : Fin 24) (t : Nat)
  /-- STOP_END (R319): 20 µs after the last hard-off step the stop ends. -/
  | stopEnd (t : Nat)
  /-- GATE_KILL_ASSERT (R321): SF asserts GATE_KILL; every switch goes to plateau and EV_GD_KILL is recorded. -/
  | gateKillAssert (t : Nat)
  /-- GATE_KILL_HARD_OFF (R321): 1.0 µs after assertion every switch goes hard off. -/
  | gateKillHardOff (t : Nat)
  /-- GATE_KILL_RELEASE (R321): SF releases GATE_KILL and outputs return to the sources of R310. -/
  | gateKillRelease (t : Nat)
  /-- GD_UV_LOW (R322): GD_UV_N counts low; every half-bridge goes hard off and faults, or UV is set. -/
  | gdUvLow (t : Nat)
  /-- GD_UV_HIGH (R325): GD_UV_N returns high and its fault source becomes inactive. -/
  | gdUvHigh (t : Nat)
  /-- TEST_MODE_ENTER (R313): A write of TEN 1 enters direct test mode or is refused. -/
  | testModeEnter (src : Nat) (v : Nat) (t : Nat)
  /-- TEST_COMMAND (R313): A write of TCMD drives the test half-bridge or is refused as both-on. -/
  | testCommand (src : Nat) (v : Nat) (t : Nat)
  /-- LEAK_START (R323): A write of LSTART begins the leak test of the half-bridges in LMASK or is refused. -/
  | leakStart (src : Nat) (v : Nat) (t : Nat)
  /-- LEAK_STEP_END (R323): A leak-test step ends and the next begins; a feedback on in weak off fails the half-bridge. -/
  | leakStepEnd (t : Nat)
  /-- RETRY_WAIT_END (R325): RWAIT after its fault a half-bridge returns to off when its source is inactive. -/
  | retryWaitEnd (n : Fin 24) (t : Nat)
  /-- HBCLR (R326): A write of HBCLR returns a latched half-bridge to off or is refused. -/
  | hbclr (src : Nat) (v : Nat) (t : Nat)
  /-- CHANNEL_INPUT_CHANGE (R331): A load-switch channel's input changes and its output turns on or off. -/
  | channelInputChange (c : Fin 24) (io : Nat) (sense : Nat) (vclamp : Nat) (dur : Nat) (t : Nat)
  /-- LOAD_TIMER_EDGE (R332): A load timer reaches its high-time or period end and toggles its output. -/
  | loadTimerEdge (n : Fin 12) (t : Nat)
  /-- INRUSH_WINDOW_END (R334): A GC channel's inrush window closes after TINR. -/
  | inrushWindowEnd (c : Fin 24) (t : Nat)
  /-- CHANNEL_THERMAL_TRIP (R335): A channel sensor reaches 175 °C; the channel turns off or latches. -/
  | channelThermalTrip (c : Fin 24) (tj : Int) (vclamp : Nat) (dur : Nat) (t : Nat)
  /-- CHANNEL_THERMAL_RESTART (R335): In restart mode a cooled channel at 160 °C turns on again. -/
  | channelThermalRestart (c : Fin 24) (tj : Int) (t : Nat)
  /-- CHANNEL_PREWARN (R336): An HC or LC channel at 160 °C raises source 21. -/
  | channelPrewarn (c : Fin 24) (tj : Int) (t : Nat)
  /-- CHANNEL_SENSOR_BROKEN (R336): A broken channel sensor raises source 21 or latches a GC channel. -/
  | channelSensorBroken (c : Fin 24) (t : Nat)
  /-- CHANNEL_SENSE_FAULT (R340): Sense disagreeing with the on-state drop for 1 ms reads 0xFFF. -/
  | channelSenseFault (c : Fin 24) (t : Nat)
  /-- CHANNEL_OPEN_LOAD (R341): Current below the open-load threshold for 10 ms sets OPENLD. -/
  | channelOpenLoad (c : Fin 24) (t : Nat)
  /-- VSW_LOW (R343): VSW below 7.0 V for 10 µs turns every channel off and raises source 22. -/
  | vswLow (clamps : List (Nat × Nat × Nat)) (t : Nat)
  /-- VSW_RECOVER (R343): VSW at 8.0 V for 10 ms ends the lock-out. -/
  | vswRecover (t : Nat)
  /-- LSCLR (R344): A write of LSCLR releases a latched channel or is refused. -/
  | lsclr (src : Nat) (v : Nat) (t : Nat)
  /-- SF_INIT (R352): On chip reset release SF checks its ROM, self-tests, loads its set and enters LOCK or RUN. -/
  | sfInit (rom : Bool) (self : Bool) (seal_ : Fin 256) (sealn : Fin 256) (t : Nat)
  /-- SAFETY_CYCLE (R352): Each 1 ms safety cycle evaluates causes, readback and resets and drives the outputs. -/
  | safetyCycle (hc : Fin 4096) (lc : Fin 64) (t : Nat)
  /-- SF_INTERNAL_FAULT (R347): An SF internal fault causes SDC, lock-out and a chip-fatal report. -/
  | sfInternalFault (t : Nat)
  /-- SF_ALIVE_TIMEOUT (R348): Neither safety grain toggles its alive line for 2 ms; the output stage asserts GATE_KILL and LC off. -/
  | sfAliveTimeout (t : Nat)
  /-- ROM_CHECK (R346): Every 24 h SF checks its kernel ROM against its CRC-32C. -/
  | romCheck (ok : Bool) (t : Nat)
  /-- PROOF_DUE (R351): A path unproven for TPROOF sets PRDUE. -/
  | proofDue (t : Nat)
  /-- PAIR_INPUT_CHANGE (R353): A safety input level counts after t_f; a demand raises the pair's function. -/
  | pairInputChange (n : Fin 8) (b : Bool) (level : Bool) (t : Nat)
  /-- PAIR_DISCREPANCY (R353): Channels disagreeing longer than the discrepancy time fault the pair. -/
  | pairDiscrepancy (n : Fin 8) (t : Nat)
  /-- TEST_PULSE (R354): An STP output pulses low and its tested channels are checked. -/
  | testPulse (k : Fin 4) (ok : Fin 65536) (t : Nat)
  /-- SRS_TIMEOUT (R358): SRSTMAX passes since t_r and SRS ends in SDC. -/
  | srsTimeout (t : Nat)
  /-- SRS_CURRENT_LOST (R358): No valid stream sample of a string for 5 ms ends SRS in SDC. -/
  | srsCurrentLost (t : Nat)
  /-- SF_RECORD_COPY (R360): A record copy reaches SF and is checked by the Safe Cell Envelope. -/
  | sfRecordCopy (ok : Bool) (t : Nat)
  /-- SCE_STALE (R360): No valid copy from a node for SSTALE is an SRS cause. -/
  | sceStale (p : Fin 18) (i : Fin 64) (t : Nat)
  /-- SF_VERDICT_COPY (R362): A verdict copy of INHIBIT, OPEN or FORCE starts SF's execution check. -/
  | sfVerdictCopy (t : Nat)
  /-- EXEC_CHECK_TIMEOUT (R362): 5 ms after the copy a trip state not reached is an execution-check failure. -/
  | execCheckTimeout (t : Nat)
  /-- RESET_PRESS (R364): A two-channel reset press is validated at its later release. -/
  | resetPress (a : Option (Nat × Nat)) (b : Option (Nat × Nat)) (t : Nat)
  /-- RESET_STUCK (R364): A reset input active over 3 s is stuck; inputs ignored until 1 s inactive. -/
  | resetStuck (active : Fin 4) (t : Nat)
  /-- SEAL_CHANGE (R367): Seal strap readings violating their rules cause a seal fault. -/
  | sealChange (seal_ : Fin 256) (sealn : Fin 256) (t : Nat)
  /-- MAILBOX_GO (R376): A write of GO passes a received Zenmomor frame to the safety-layer engine. -/
  | mailboxGo (src : Nat) (v : Nat) (t : Nat)
  /-- CONN_WATCHDOG (R372): No frame accepted for T_wd is a connection fault. -/
  | connWatchdog (n : Fin 32) (t : Nat)
  /-- PRODUCER_FRAME (R375): Every producer period SF queues a status frame for the connection. -/
  | producerFrame (n : Fin 32) (t : Nat)
  /-- TXACK (R376): A write of TXACK presents the next frame to send. -/
  | txack (src : Nat) (v : Nat) (t : Nat)
  /-- MAILBOX_REQ (R377): A write of REQ latches a program SDC or SRS cause. -/
  | mailboxReq (src : Nat) (v : Nat) (t : Nat)
  /-- CAN_ENABLE (R381): A write of EN 1 starts a controller after its bit-timing checks, or is refused. -/
  | canEnable (src : Nat) (n : Fin 6) (v : Nat) (t : Nat)
  /-- CAN_STANDBY (R384): Setting STBY completes the frame in progress and stops transmitting. -/
  | canStandby (src : Nat) (n : Fin 6) (v : Nat) (t : Nat)
  /-- CAN_COMMIT (R386): A commit copies a buffer shadow into the active buffer or defers it. -/
  | canCommit (src : Nat) (n : Fin 6) (v : Nat) (t : Nat)
  /-- CAN_ABORT (R388): An abort removes a pending buffer and records EV_CAN_ABORT. -/
  | canAbort (src : Nat) (n : Fin 6) (v : Nat) (t : Nat)
  /-- CAN_FRAME_RECEIVED (R390): A received frame is filtered into a FIFO, rejected, or taken as a reference message. -/
  | canFrameReceived (n : Fin 6) (w0 : Nat) (w1 : Nat) (data : List Nat) (sof : Nat) (t : Nat)
  /-- CAN_TX_COMPLETE (R389): A transmitted frame succeeds; its completion is reported and deferred content becomes pending. -/
  | canTxComplete (n : Fin 6) (sof : Nat) (tdcv : Nat) (t : Nat)
  /-- CAN_TX_ERROR (R393): A transmission ends in error; counters, collision count and states update. -/
  | canTxError (n : Fin 6) (lec : Fin 8) (late : Bool) (exempt : Bool) (tdcv : Nat) (t : Nat)
  /-- CAN_ARBITRATION (R387): At a start of frame the controller enters arbitration with its highest-priority pending buffer. -/
  | canArbitration (n : Fin 6) (won : Bool) (t : Nat)
  /-- BOREL (R393): A write of BOREL starts bus-off recovery. -/
  | borel (src : Nat) (n : Fin 6) (v : Nat) (t : Nat)
  /-- CAN_BUSOFF_RECOVERED (R393): 128 occurrences of 11 recessive bits end recovery. -/
  | canBusoffRecovered (n : Fin 6) (t : Nat)
  /-- POP (R391): A write of POP releases a FIFO's head message. -/
  | pop (src : Nat) (n : Fin 6) (f : Fin 2) (v : Nat) (t : Nat)
  /-- CAN_REFERENCE_SEND (R397): At each multiple of RMPER a master puts its reference message into arbitration. -/
  | canReferenceSend (n : Fin 6) (t : Nat)
  /-- CAN_TIME_LOST (R398): No valid offset for RMTO clears TMVALID, or lets a backup master send. -/
  | canTimeLost (n : Fin 6) (t : Nat)
  /-- ETH_FRAME_RECEIVED (R402): A received frame is accepted, classified and written to a free buffer, or discarded. -/
  | ethFrameReceived (m : Fin 2) (frame : List Nat) (fcs : Bool) (sfd : Nat) (t : Nat)
  /-- ETH_FRAME_TRANSMIT (R405): The MAC sends a frame from TXQ and puts a completion into TXDONEQ. -/
  | ethFrameTransmit (m : Fin 2) (sfd : Nat) (t : Nat)
  /-- ETH_TX_TIMEOUT (R405): A frame unsent for 10 ms is discarded with status 2. -/
  | ethTxTimeout (m : Fin 2) (t : Nat)
  /-- ETH_LINK_POLL (R407): Every 100 ms the MAC reads the PHY link bit over MDIO. -/
  | ethLinkPoll (m : Fin 2) (link : Bool) (t : Nat)
  /-- PHASE (R408): A write of PHASE schedules a slewed chip-time correction. -/
  | phase (src : Nat) (v : Nat) (t : Nat)
  /-- RATE (R408): A write of RATE sets the chip-time rate adjustment. -/
  | rate (src : Nat) (v : Nat) (t : Nat)
  /-- STEP (R409): A write of STEP advances chip time at once, or is refused while sweeps or deadlines run. -/
  | step (src : Nat) (v : Nat) (t : Nat)
  /-- DISC (R410): Setting DISC declares chip time disciplined and records EV_TIME_DISC. -/
  | disc (src : Nat) (v : Nat) (t : Nat)
  /-- DISC_LOST (R410): No RATE or PHASE write for TLOSS clears DISC. -/
  | discLost (t : Nat)
  /-- EVENT_RAISE (R420): A grain raises an event into its 8-entry stack, replacing or dropping by severity. -/
  | eventRaise (src : Nat) (code : Nat) (words : List Nat) (t : Nat)
  /-- BLOCK_EVENT_COLLECT (R421): A block takes events from its grains' stacks into its buffer and forwards them. -/
  | blockEventCollect (blk : Nat) (t : Nat)
  /-- LEDGER_EVENT_RECEIVE (R422): The ledger engine passes a forwarded event through its token bucket and queues it or suppresses it. -/
  | ledgerEventReceive (blk : Nat) (t : Nat)
  /-- LEDGER_PERSIST (R423): A queued record is written to the sediment and bedrock slots and becomes persisted. -/
  | ledgerPersist (verified : Bool) (t : Nat)
  /-- LEDGER_WEAR_CHECK (R425): A 24 h mean above 1,000 records/s sets WEAR. -/
  | ledgerWearCheck (t : Nat)
  /-- COMMISSION (R426): A write of COMMISSION burns the commissioned bit and persists EV_LED_COMMISSION in bedrock slot 0. -/
  | commission (src : Nat) (v : Nat) (t : Nat)
  /-- SEDCLR (R427): A write of SEDCLR persists EV_LED_SED_CLEAR as the oldest reachable record. -/
  | sedclr (src : Nat) (v : Nat) (t : Nat)
  /-- BSRC (R421): A write of LEDGER_BCLR clears entries 0 to 15 of a block's buffer. -/
  | bsrc (src : Nat) (v : Nat) (t : Nat)
  /-- LEDGER_WIN0_READ (R429): A read of LEDGER_WIN0 latches the record at the cursor or moves a lapped cursor. -/
  | ledgerWin0Read (t : Nat)
  /-- LEDGER_WIN15_READ (R429): A read of LEDGER_WIN15 advances the cursor by 1. -/
  | ledgerWin15Read (t : Nat)
  /-- ARCHIVE_COPY_DONE (R431): The archive copy completes, EV_LED_ARCHIVE is recorded and the window re-arms unless HOLD. -/
  | archiveCopyDone (t : Nat)
  /-- LIFETIME_BLOCK_INPUT (R433): The store takes a state or model block from LTQ and returns its descriptor. -/
  | lifetimeBlockInput (t : Nat)
  /-- LIFETIME_ROLL (R434): Once per LTROLL the store commits every cell in use, string by string. -/
  | lifetimeRoll (t : Nat)
  /-- LIFETIME_BATCH_DONE (R435): A redo batch completes its three steps and the next batch may begin. -/
  | lifetimeBatchDone (t : Nat)
  /-- POWER_FAIL_COMMIT_DONE (R437): EV_LED_PF_COMMIT is persisted and commit mode closes. -/
  | powerFailCommitDone (t : Nat)
  /-- PS_BOOT_RECOVERY (R440): After a chip reset PS loads the remap table, redoes, finds heads, applies the journal and persists EV_LED_BOOT. -/
  | psBootRecovery (t : Nat)
  /-- MRAM_SCRUB_PASS (R442): A scrub pass completes, recording corrections or lateness. -/
  | mramScrubPass (rows : List (Fin 16384)) (n : Nat) (bad : List Nat) (t : Nat)
  /-- SRAM_SCRUB (R158): The scrubber reads and corrects every SRAM and local-memory word within 60 s. -/
  | sramScrub (corr : List Nat) (bad : List Nat) (t : Nat)
  /-- BEAT_PARITY_FAIL (R161): A receiver rejects a beat with bad parity and the sender replays it, up to a link failure. -/
  | beatParityFail (u : Nat) (n : Fin 5) (t : Nat)
  /-- VC0_BEAT_LOST (R162): Both copies of a VC0 beat fail one lane; the fault is chip-fatal. -/
  | vc0BeatLost (u : Nat) (t : Nat)
  /-- FAULT_REPORT (R168): The chip fault controller classifies a fault and starts its reaction: quarantine, isolate, region or chip reset. -/
  | faultReport (kind : FaultKind) (u : Nat) (a : Nat) (holds : Bool) (t : Nat)
  /-- GRAIN_LOCKUP (R168): A grain retiring nothing for 2^20 cycles outside waits is quarantined. -/
  | grainLockup (g : Nat) (t : Nat)
  /-- RECOVERY_WAIT_END (R170): A unit's recovery wait ends and its restart begins. -/
  | recoveryWaitEnd (u : Nat) (t : Nat)
  /-- RESTART_COMPLETE (R169): A grain, block or region restart completes. -/
  | restartComplete (u : Nat) (t : Nat)
  /-- FAULT_SOURCE_TIMEOUT (R171): A fault source active for TACTMAX escalates its unit. -/
  | faultSourceTimeout (u : Nat) (t : Nat)
  /-- FB_FLT_REL (R169): A write of FB_FLT_REL releases a quarantined grain or isolated block, or is refused. -/
  | fbFltRel (src : Nat) (v : Nat) (t : Nat)
  /-- PS_RESET_COMPLETE (R18): A PS reset completes; a pending commit mode starts. -/
  | psResetComplete (t : Nat)
  /-- CHIP_RESET_RELEASE (R446): A chip reset is released; PS recovers, SF starts and the boot ROM is started. -/
  | chipResetRelease (t : Nat)
  /-- VECTOR_SELFTEST_DONE (R232): A vector grain's self-test completes and GOOD is set or the grain stays quarantined. -/
  | vectorSelftestDone (v : Fin 16) (ok : Bool) (t : Nat)
  /-- BOOT_ROM (R450): The boot ROM samples BOOT pins, checks and selects a slot, loads segments and starts the program or enters recovery. -/
  | bootRom (pins : Fin 8) (t : Nat)
  /-- HELLO (R457): Recovery replies with serial, revision, counter and slot states. -/
  | hello (seq : Fin 65536) (t : Nat)
  /-- WRITE (R457): Recovery writes data into the target slot at an offset. -/
  | write (seq : Fin 65536) (off : Nat) (data : List Nat) (t : Nat)
  /-- VERIFY (R457): Recovery checks the target slot under R449. -/
  | verify (seq : Fin 65536) (t : Nat)
  /-- COMMIT (R457): After a good VERIFY recovery writes trial 0 and resets the chip. -/
  | commit (seq : Fin 65536) (t : Nat)
  /-- CONFIRM (R454): A write of CONFIRM marks the booted trial slot confirmed. -/
  | confirm (src : Nat) (v : Nat) (t : Nat)
  /-- ARBGO (R454): A write of ARBGO burns the anti-rollback counter up to ARBSET. -/
  | arbgo (src : Nat) (v : Nat) (t : Nat)
  /-- REBOOT (R454): A write of REBOOT raises a chip reset through the pre-sequence. -/
  | reboot (src : Nat) (v : Nat) (t : Nat)
  /-- REVGO (R455): A write of REVGO burns the revocation bit of a key hash. -/
  | revgo (src : Nat) (v : Nat) (t : Nat)
  /-- DBGGO (R468): A write of DBGGO checks a debug token and opens its scope. -/
  | dbggo (src : Nat) (v : Nat) (t : Nat)
  /-- DBGLOCK (R468): A write of DBGLOCK closes the debug scope. -/
  | dbglock (src : Nat) (v : Nat) (t : Nat)
  /-- DEBUG_CHALLENGE_READ (R468): A read of PS_DBG_CHAL0 draws a new challenge from the TRNG. -/
  | debugChallengeRead (t : Nat)
  /-- DEBUG_EXPIRE (R468): A challenge's 10 min or a token's duration runs out. -/
  | debugExpire (t : Nat)
  /-- OTP_GO (R466): A write of GO burns one OTP bit or is refused. -/
  | otpGo (src : Nat) (v : Nat) (t : Nat)
  /-- UNLOCK (R461): A write of UNLOCK checks the password and unlocks the gate or counts a failure. -/
  | unlock (src : Nat) (v : Nat) (t : Nat)
  /-- CG_LOCKOUT_END (R462): The lockout time runs out and unlocks are accepted again. -/
  | cgLockoutEnd (t : Nat)
  /-- LOCK (R463): A write of LOCK locks the configuration gate. -/
  | lock (src : Nat) (v : Nat) (t : Nat)
  /-- CG_IDLE_TIMEOUT (R463): CGTO without a gated write locks the gate. -/
  | cgIdleTimeout (t : Nat)
  /-- SETPW (R464): A write of SETPW stores a new salt and hash in a password slot. -/
  | setpw (src : Nat) (v : Nat) (t : Nat)
  /-- CLRPW (R464): A write of CLRPW empties a password slot. -/
  | clrpw (src : Nat) (v : Nat) (t : Nat)
  /-- IMPORT (R459): A write of IMPORT checks the key blob and writes the key slot. -/
  | keyImport (src : Nat) (v : Nat) (t : Nat)
  /-- SUPPLY_FAULT (R470): A rail crosses its under- or overvoltage threshold and the supervisor resets per its row. -/
  | supplyFault (rail : Rail) (lev : Level) (t : Nat)
  /-- POWER_ON_RELEASE (R471): 2 ms after the last rail crosses its threshold with clocks locked, power-on reset is released. -/
  | powerOnRelease (vbat : Bool) (x32 : Bool) (vsys : Fin 65536) (t : Nat)
  /-- POWER_FAIL (R472): The system rail below PFTH for 5 µs raises the commit trigger and halts regulators. -/
  | powerFail (vsys : Fin 65536) (t : Nat)
  /-- POWER_FAIL_RECOVERY (R473): The rail back above PFTH + PFHYS for 100 ms after the commit asserts a chip reset. -/
  | powerFailRecovery (vsys : Fin 65536) (since : Nat) (t : Nat)
  /-- HOLD_EXPIRE (R477): t_hold runs out without reclaim; source 30 is raised and timers and I/O are released. -/
  | holdExpire (t : Nat)
  /-- RECLAIM (R476): A write of RECLAIM ends the CT output hold. -/
  | reclaim (src : Nat) (v : Nat) (t : Nat)
  /-- RESET_N_LOW (R479): An accepted low on RESET_N raises source 29 and holds the chip in reset. -/
  | resetNLow (t : Nat)
  /-- RESET_N_HIGH (R480): RESET_N seen high ends the hold; boot starts 2 µs later. -/
  | resetNHigh (t : Nat)
  /-- CLOCK_FAULT (R482): A stopped crystal or unlocked PLL resets the chip with cause 4. -/
  | clockFault (why : ClockLoss) (t : Nat)
  /-- OSC_VOTE_WINDOW (R483): Each 1 ms window the supervisor votes on three oscillators and reacts to an outlier. -/
  | oscVoteWindow (x : Nat) (f : Nat) (m : Nat) (t : Nat)
  /-- RTC_LOAD (R484): Every second and at each chip reset the RTC is loaded with chip time. -/
  | rtcLoad (t : Nat)
  /-- DIE_SENSOR_CONVERT (R486): A die sensor converts; broken state and band rise are judged. -/
  | dieSensorConvert (n : Fin 13) (temp : Int) (ok : Bool) (t : Nat)
  /-- BAND_FALL (R487): A die's reading 3 °C below threshold for 1 s lowers its band. -/
  | bandFall (d : Fin 2) (t : Nat)
  /-- THERMAL_SHUTDOWN (R488): A counting sensor at the shutdown limit for 1 ms raises source 27. -/
  | thermalShutdown (n : Fin 13) (t : Nat)
  /-- THERMAL_PRESEQ_TRIGGER (R488): Every HC off or the time limit passing raises source 29 for the shutdown reset. -/
  | thermalPreseqTrigger (t : Nat)
  /-- THERMAL_RESET_RELEASE (R488): Counting sensors below the release limit for 10 s release the reset. -/
  | thermalResetRelease (t : Nat)
  /-- TEST_N_LOW (R495): TEST_N low for 1 µs holds the CX9 in power-on reset. -/
  | testNLow (t : Nat)
  /-- PMON_WRAP (R174): A performance counter wraps; OVFN rises and a descriptor may be posted. -/
  | pmonWrap (n : Fin 64) (t : Nat)
  /-- CLRALL (R174): A write of CLRALL clears every performance counter. -/
  | clrall (src : Nat) (v : Nat) (t : Nat)
  /-- DEADLINE_MISS (R175): An armed deadline slot passes; a miss descriptor is posted and MISS set. -/
  | deadlineMiss (g : Fin 8) (slot : Fin 16) (t : Nat)
  /-- KICK (R176): A write to FB_WDOG_KICK advances or completes the kick sequence, or is refused. -/
  | kick (src : Nat) (v : Nat) (t : Nat)
  /-- WATCHDOG_EXPIRE (R176): No kick within PERIOD is a region-fatal fault of CT. -/
  | watchdogExpire (t : Nat)
  /-- NODE_POWER_UP (R45): A node powers up into UNASSIGNED with its repeater closed. -/
  | nodePowerUp (p : Fin 18) (i : Fin 64) (kind : Fin 4) (cells : Fin 19) (auxN : Fin 9) (serial : Nat) (key : Option (List Nat)) (t : Nat)
  /-- NODE_BAD_CRC_FRAME (R43): A node receives a command frame whose command CRC fails; it repeats it if ASSIGNED or RUN, acts on nothing, counts CMDCRC and leaves its sleep timer running. -/
  | nodeBadCrcFrame (p : Fin 18) (i : Fin 64) (body : List Nat) (arr : Fin 2) (t : Nat)
  /-- RESET_N_GLITCH (R479): A low pulse on RESET_N shorter than 2 µs is ignored and counted in GLITCHN. -/
  | resetNGlitch (t : Nat)
  /-- RESET_STUCK_CLEAR (R364): Both SF reset inputs have been inactive for 1 s; SF stops ignoring them and SFAULT_N is no longer held low for the stuck inputs. -/
  | resetStuckClear (t : Nat)
  /-- CAN_RX_ERROR (R393): A frame being received ends in a protocol error; REC and LEC change and the controller may become error-passive. -/
  | canRxError (n : Fin 6) (lec : Fin 8) (eight : Bool) (t : Nat)
  /-- CHANNEL_CURRENT_LIMIT (R333): A load-switch channel's current reaches its current limit; the channel limits, LIM is set and the event is kept for attribution under R338. -/
  | channelCurrentLimit (c : Fin 24) (active : Bool) (t : Nat)
  /-- CHANNEL_PREWARN_END (R336): An HC or LC channel's sensor falls below 160 °C; PREW clears and trip source 21 becomes inactive. -/
  | channelPrewarnEnd (c : Fin 24) (tj : Int) (t : Nat)
  deriving DecidableEq, Repr

end Sys2Proof
end

