-- ==== Sys2Proof/Decode.lean ====
section
/-!
DEFINITION. The command that a word spells by the bits of the table of operations and events.
-/

namespace Sys2Proof

/-- The command that the word `w` of `nbits` bits spells. The table gives no row any bits, so no word spells a command:
commands reach the block as register writes, frames, events and instructions of its grains, never as a word of the
table. -/
def decodeTableWord (_nbits _w : Nat) : Option Instr := none

end Sys2Proof
end

