-- ==== Sys2Proof/Config.lean ====
section
/-!
DEFINITION. What an implementation fixes and the values the spec leaves open: constants without a body, so that a claim
holds whatever they are.
-/

namespace Sys2Proof.Config

/-- A free value: applied to the model's counter of values drawn (log 4). It stands for every value the spec leaves
open after an effect it gives. -/
opaque freeWord : Nat → Nat

/-- AES-128-CMAC of a message under a key (R68, R449, R468): the algorithm is named, not given, by the spec (log 5). -/
opaque aesCmac : (key : List Nat) → (msg : List Nat) → Nat

/-- AES decryption of a segment or key blob under a key and initial vector (R450, R459), byte by byte (log 5). -/
opaque aesDecrypt : (key : List Nat) → (iv : List Nat) → (data : List Nat) → List Nat

/-- SHA-256 as 32 bytes (R448, R461) (log 5). -/
opaque sha256 : (data : List Nat) → List Nat

/-- The check of an ECDSA P-256 signature: key, digest, signature (R449, R468) (log 5). -/
opaque ecdsaOk : (key : List Nat) → (digest : List Nat) → (sig : List Nat) → Bool

/-- The identification of a part: serial number and key material in OTP as shipped, by OTP byte offset (log 6). -/
opaque otpShipped : Nat → Byte

/-- The contents of the boot ROM and the kernel ROM, by address: the spec gives none (log 6). -/
opaque romByte : Nat → Byte

/-- Where the code of a resident kernel stands in the kernel ROM, which no rule states (log 6). -/
opaque kernelBase : Nat → Nat

/-- The quotient of a number by zero, which no rule states (log 4). -/
opaque quotientByZero : Int → Int

/-- What a node finds of itself at the end of a sweep: bit 0 its self-test has failed, bit 1 its temperature has reduced
balancing (R43); by the node and the instant, since no rule states when (log 4). -/
opaque nodeHealth : Nat → Nat → Nat

/-- How many frames the transmit queue of the safety mailbox holds, which no rule states (R375) (log 13). -/
opaque mailboxDepth : Nat

end Sys2Proof.Config
end

