-- ==== Sys2Proof/Machine/Events.lean ====
section
/-!
DEFINITION. The event codes and severities of the ledger, from the event tables of the spec (R75, R105, R123, R152, R177, R234, R268, R306, R327, R345, R379, R400, R416, R445, R469, R489).
-/

namespace Sys2Proof.Machine

/-- `EV_LINK_CRC` (R75), severity 2. -/
def EV_LINK_CRC : Nat := 0x1101
/-- `EV_LINK_MISSING` (R75), severity 3. -/
def EV_LINK_MISSING : Nat := 0x1102
/-- `EV_LINK_SLOT` (R75), severity 3. -/
def EV_LINK_SLOT : Nat := 0x1103
/-- `EV_LINK_ENUM` (R75), severity 1. -/
def EV_LINK_ENUM : Nat := 0x1104
/-- `EV_LINK_SWAP` (R75), severity 2. -/
def EV_LINK_SWAP : Nat := 0x1105
/-- `EV_LINK_AUTH_FAIL` (R75), severity 4. -/
def EV_LINK_AUTH_FAIL : Nat := 0x1106
/-- `EV_LINK_NAK` (R75), severity 2. -/
def EV_LINK_NAK : Nat := 0x1107
/-- `EV_LINK_LATE` (R75), severity 3. -/
def EV_LINK_LATE : Nat := 0x1108
/-- `EV_LINK_DLY_SHIFT` (R75), severity 3. -/
def EV_LINK_DLY_SHIFT : Nat := 0x1109
/-- `EV_LINK_WAKE` (R75), severity 1. -/
def EV_LINK_WAKE : Nat := 0x110a
/-- `EV_LINK_REFUSED` (R75), severity 3. -/
def EV_LINK_REFUSED : Nat := 0x110b
/-- `EV_SWP_CHAIN_BREAK` (R105), severity 4. -/
def EV_SWP_CHAIN_BREAK : Nat := 0x110c
/-- `EV_SWP_RING_TWOEND` (R105), severity 4. -/
def EV_SWP_RING_TWOEND : Nat := 0x110d
/-- `EV_SWP_STALE` (R105), severity 5. -/
def EV_SWP_STALE : Nat := 0x110e
/-- `EV_SWP_RESTORE` (R105), severity 1. -/
def EV_SWP_RESTORE : Nat := 0x110f
/-- `EV_SWP_WIRE_SUSPECT` (R105), severity 3. -/
def EV_SWP_WIRE_SUSPECT : Nat := 0x1110
/-- `EV_SWP_WIRE_BREAK` (R105), severity 4. -/
def EV_SWP_WIRE_BREAK : Nat := 0x1111
/-- `EV_SWP_SS_MISMATCH` (R105), severity 4. -/
def EV_SWP_SS_MISMATCH : Nat := 0x1112
/-- `EV_SWP_OWT_INDET` (R105), severity 4. -/
def EV_SWP_OWT_INDET : Nat := 0x1113
/-- `EV_SWP_DEADLINE` (R105), severity 4. -/
def EV_SWP_DEADLINE : Nat := 0x1601
/-- `EV_SWP_NOSYNC` (R105), severity 3. -/
def EV_SWP_NOSYNC : Nat := 0x1602
/-- `EV_SWP_REFUSED` (R105), severity 3. -/
def EV_SWP_REFUSED : Nat := 0x1603
/-- `EV_SWP_PERIOD` (R105), severity 1. -/
def EV_SWP_PERIOD : Nat := 0x1604
/-- `EV_WIN_FREEZE` (R105), severity 2. -/
def EV_WIN_FREEZE : Nat := 0x1605
/-- `EV_WIN_RETRIGGER` (R105), severity 3. -/
def EV_WIN_RETRIGGER : Nat := 0x1606
/-- `EV_CUR_XCHK` (R123), severity 4. -/
def EV_CUR_XCHK : Nat := 0x1501
/-- `EV_CUR_STALE` (R123), severity 4. -/
def EV_CUR_STALE : Nat := 0x1502
/-- `EV_CUR_DISCARD` (R123), severity 3. -/
def EV_CUR_DISCARD : Nat := 0x1503
/-- `EV_CUR_IMPLAUS` (R123), severity 3. -/
def EV_CUR_IMPLAUS : Nat := 0x1504
/-- `EV_CUR_GAP` (R123), severity 2. -/
def EV_CUR_GAP : Nat := 0x1505
/-- `EV_CUR_OFFSET` (R123), severity 1. -/
def EV_CUR_OFFSET : Nat := 0x1506
/-- `EV_AIC_FAULT` (R123), severity 4. -/
def EV_AIC_FAULT : Nat := 0x1507
/-- `EV_AIN_WIN` (R123), severity 3. -/
def EV_AIN_WIN : Nat := 0x1508
/-- `EV_CUR_REFUSED` (R123), severity 3. -/
def EV_CUR_REFUSED : Nat := 0x1509
/-- `EV_CFB_INDET` (R123), severity 4. -/
def EV_CFB_INDET : Nat := 0x4280
/-- `EV_LIM_WARN` (R152), severity 3. -/
def EV_LIM_WARN : Nat := 0x1114
/-- `EV_LIM_GROUP` (R152), severity 4. -/
def EV_LIM_GROUP : Nat := 0x1115
/-- `EV_TRIP_NOTE` (R152), severity 2. -/
def EV_TRIP_NOTE : Nat := 0x4301
/-- `EV_TRIP_DERATE` (R152), severity 3. -/
def EV_TRIP_DERATE : Nat := 0x4302
/-- `EV_TRIP_ACTION` (R152), severity 5. -/
def EV_TRIP_ACTION : Nat := 0x4303
/-- `EV_TRIP_CLEAR` (R152), severity 1. -/
def EV_TRIP_CLEAR : Nat := 0x4304
/-- `EV_TRIP_CLR_REFUSED` (R152), severity 3. -/
def EV_TRIP_CLR_REFUSED : Nat := 0x4305
/-- `EV_TRIP_REFUSED` (R152), severity 3. -/
def EV_TRIP_REFUSED : Nat := 0x4306
/-- `EV_DLIM_STALE` (R152), severity 3. -/
def EV_DLIM_STALE : Nat := 0x4307
/-- `EV_CON_CLOSE` (R152), severity 1. -/
def EV_CON_CLOSE : Nat := 0x4308
/-- `EV_CON_OPEN` (R152), severity 1. -/
def EV_CON_OPEN : Nat := 0x4309
/-- `EV_CON_FORCED` (R152), severity 4. -/
def EV_CON_FORCED : Nat := 0x430a
/-- `EV_CON_WELD` (R152), severity 5. -/
def EV_CON_WELD : Nat := 0x430b
/-- `EV_CON_REFUSED` (R152), severity 3. -/
def EV_CON_REFUSED : Nat := 0x430c
/-- `EV_CON_LOSS_INFER` (R152), severity 3. -/
def EV_CON_LOSS_INFER : Nat := 0x430d
/-- `EV_PCH_DONE` (R152), severity 1. -/
def EV_PCH_DONE : Nat := 0x430e
/-- `EV_PCH_FAIL` (R152), severity 4. -/
def EV_PCH_FAIL : Nat := 0x430f
/-- `EV_PRESEQ` (R152), severity 2. -/
def EV_PRESEQ : Nat := 0x4310
/-- `EV_ORPHAN` (R152), severity 4. -/
def EV_ORPHAN : Nat := 0x4311
/-- `EV_FB_ECC_CORR` (R177), severity 2. -/
def EV_FB_ECC_CORR : Nat := 0x8101
/-- `EV_FB_ECC_UNCORR` (R177), severity 4. -/
def EV_FB_ECC_UNCORR : Nat := 0x8102
/-- `EV_FB_REPLAY` (R177), severity 2. -/
def EV_FB_REPLAY : Nat := 0x8103
/-- `EV_FB_LINK_FAIL` (R177), severity 4. -/
def EV_FB_LINK_FAIL : Nat := 0x8104
/-- `EV_FB_VC0_LOST` (R177), severity 5. -/
def EV_FB_VC0_LOST : Nat := 0x8105
/-- `EV_FB_QUARANTINE` (R177), severity 4. -/
def EV_FB_QUARANTINE : Nat := 0x8106
/-- `EV_FB_ISOLATE` (R177), severity 4. -/
def EV_FB_ISOLATE : Nat := 0x8107
/-- `EV_FB_REGION_FATAL` (R177), severity 5. -/
def EV_FB_REGION_FATAL : Nat := 0x8108
/-- `EV_FB_CHIP_FATAL` (R177), severity 5. -/
def EV_FB_CHIP_FATAL : Nat := 0x8109
/-- `EV_FB_ESCALATE` (R177), severity 5. -/
def EV_FB_ESCALATE : Nat := 0x810a
/-- `EV_FB_REFUSED` (R177), severity 3. -/
def EV_FB_REFUSED : Nat := 0x810b
/-- `EV_FB_OVERLAP` (R177), severity 3. -/
def EV_FB_OVERLAP : Nat := 0x810c
/-- `EV_FB_Q_OVF` (R177), severity 3. -/
def EV_FB_Q_OVF : Nat := 0x8201
/-- `EV_FB_INBOX_HELD` (R177), severity 2. -/
def EV_FB_INBOX_HELD : Nat := 0x8202
/-- `EV_FB_PMON_OVF` (R177), severity 1. -/
def EV_FB_PMON_OVF : Nat := 0x8301
/-- `EV_FB_DL_MISS` (R177), severity 4. -/
def EV_FB_DL_MISS : Nat := 0x8401
/-- `EV_FB_WDOG` (R177), severity 5. -/
def EV_FB_WDOG : Nat := 0x8402
/-- `EV_FB_WDOG_BADKICK` (R177), severity 3. -/
def EV_FB_WDOG_BADKICK : Nat := 0x8403
/-- `EV_VEC_SELFTEST_FAIL` (R234), severity 5. -/
def EV_VEC_SELFTEST_FAIL : Nat := 0x2101
/-- `EV_VEC_KERNEL_FAULT` (R234), severity 4. -/
def EV_VEC_KERNEL_FAULT : Nat := 0x2102
/-- `EV_VEC_THROTTLE` (R234), severity 2. -/
def EV_VEC_THROTTLE : Nat := 0x2103
/-- `EV_VEC_REFUSED` (R234), severity 3. -/
def EV_VEC_REFUSED : Nat := 0x2104
/-- `EV_EST_INCONS` (R268), severity 4. -/
def EV_EST_INCONS : Nat := 0x2201
/-- `EV_EST_OFFSET` (R268), severity 3. -/
def EV_EST_OFFSET : Nat := 0x2202
/-- `EV_EST_CALREQ` (R268), severity 3. -/
def EV_EST_CALREQ : Nat := 0x2203
/-- `EV_EST_CALDONE` (R268), severity 1. -/
def EV_EST_CALDONE : Nat := 0x2204
/-- `EV_EST_ANCHOR` (R268), severity 1. -/
def EV_EST_ANCHOR : Nat := 0x2205
/-- `EV_EST_CAP_REJECT` (R268), severity 2. -/
def EV_EST_CAP_REJECT : Nat := 0x2206
/-- `EV_EST_TINT` (R268), severity 4. -/
def EV_EST_TINT : Nat := 0x2207
/-- `EV_EST_SOFTSHORT` (R268), severity 4. -/
def EV_EST_SOFTSHORT : Nat := 0x2208
/-- `EV_EST_DEADLINE` (R268), severity 4. -/
def EV_EST_DEADLINE : Nat := 0x2209
/-- `EV_EST_PARAM` (R268), severity 4. -/
def EV_EST_PARAM : Nat := 0x220a
/-- `EV_EST_NEWCELL` (R268), severity 1. -/
def EV_EST_NEWCELL : Nat := 0x220b
/-- `EV_REG_PHASE_OPEN` (R306), severity 4. -/
def EV_REG_PHASE_OPEN : Nat := 0x4001
/-- `EV_REG_PHASE_SENSE` (R306), severity 4. -/
def EV_REG_PHASE_SENSE : Nat := 0x4002
/-- `EV_REG_PHASE_EN` (R306), severity 1. -/
def EV_REG_PHASE_EN : Nat := 0x4003
/-- `EV_REG_SHORTFALL` (R306), severity 3. -/
def EV_REG_SHORTFALL : Nat := 0x4004
/-- `EV_REG_SYNC_LOST` (R306), severity 3. -/
def EV_REG_SYNC_LOST : Nat := 0x4005
/-- `EV_REG_SYNC_LOCK` (R306), severity 1. -/
def EV_REG_SYNC_LOCK : Nat := 0x4006
/-- `EV_REG_EXC_END` (R306), severity 2. -/
def EV_REG_EXC_END : Nat := 0x4007
/-- `EV_REG_VBUS_FAULT` (R306), severity 5. -/
def EV_REG_VBUS_FAULT : Nat := 0x4008
/-- `EV_REG_WEIGHTS_STALE` (R306), severity 3. -/
def EV_REG_WEIGHTS_STALE : Nat := 0x4009
/-- `EV_REG_CAPDIS` (R306), severity 3. -/
def EV_REG_CAPDIS : Nat := 0x400a
/-- `EV_REG_REFUSED` (R306), severity 3. -/
def EV_REG_REFUSED : Nat := 0x400b
/-- `EV_BVL_CRC` (R306), severity 2. -/
def EV_BVL_CRC : Nat := 0x4010
/-- `EV_BVL_TIMEOUT` (R306), severity 4. -/
def EV_BVL_TIMEOUT : Nat := 0x4011
/-- `EV_BVL_RESTORE` (R306), severity 1. -/
def EV_BVL_RESTORE : Nat := 0x4012
/-- `EV_BVL_REFUSED` (R306), severity 3. -/
def EV_BVL_REFUSED : Nat := 0x4013
/-- `EV_GD_SHORT` (R327), severity 5. -/
def EV_GD_SHORT : Nat := 0x4101
/-- `EV_GD_INTERLOCK` (R327), severity 4. -/
def EV_GD_INTERLOCK : Nat := 0x4102
/-- `EV_GD_FBERR` (R327), severity 4. -/
def EV_GD_FBERR : Nat := 0x4103
/-- `EV_GD_UV` (R327), severity 5. -/
def EV_GD_UV : Nat := 0x4104
/-- `EV_GD_LEAK` (R327), severity 4. -/
def EV_GD_LEAK : Nat := 0x4105
/-- `EV_GD_BOTHON` (R327), severity 3. -/
def EV_GD_BOTHON : Nat := 0x4106
/-- `EV_GD_RETRY` (R327), severity 2. -/
def EV_GD_RETRY : Nat := 0x4107
/-- `EV_GD_LATCH` (R327), severity 4. -/
def EV_GD_LATCH : Nat := 0x4108
/-- `EV_GD_CLEAR` (R327), severity 1. -/
def EV_GD_CLEAR : Nat := 0x4109
/-- `EV_GD_KILL` (R327), severity 5. -/
def EV_GD_KILL : Nat := 0x410a
/-- `EV_GD_REFUSED` (R327), severity 3. -/
def EV_GD_REFUSED : Nat := 0x410b
/-- `EV_LS_THERM` (R345), severity 3. -/
def EV_LS_THERM : Nat := 0x4281
/-- `EV_LS_LATCH` (R345), severity 4. -/
def EV_LS_LATCH : Nat := 0x4282
/-- `EV_LS_PREWARN` (R345), severity 4. -/
def EV_LS_PREWARN : Nat := 0x4283
/-- `EV_LS_TSENS` (R345), severity 4. -/
def EV_LS_TSENS : Nat := 0x4284
/-- `EV_LS_CLAMP` (R345), severity 4. -/
def EV_LS_CLAMP : Nat := 0x4285
/-- `EV_LS_SENSE` (R345), severity 4. -/
def EV_LS_SENSE : Nat := 0x4286
/-- `EV_LS_OPENLOAD` (R345), severity 3. -/
def EV_LS_OPENLOAD : Nat := 0x4287
/-- `EV_LS_VSW` (R345), severity 5. -/
def EV_LS_VSW : Nat := 0x4288
/-- `EV_LS_CLEAR` (R345), severity 1. -/
def EV_LS_CLEAR : Nat := 0x4289
/-- `EV_LS_REFUSED` (R345), severity 3. -/
def EV_LS_REFUSED : Nat := 0x428a
/-- `EV_SF_SDC` (R379), severity 6. -/
def EV_SF_SDC : Nat := 0x6001
/-- `EV_SF_SRS` (R379), severity 6. -/
def EV_SF_SRS : Nat := 0x6002
/-- `EV_SF_RESET` (R379), severity 2. -/
def EV_SF_RESET : Nat := 0x6003
/-- `EV_SF_RESET_REFUSED` (R379), severity 3. -/
def EV_SF_RESET_REFUSED : Nat := 0x6004
/-- `EV_SF_INTERNAL` (R379), severity 5. -/
def EV_SF_INTERNAL : Nat := 0x6005
/-- `EV_SF_SET_LOAD` (R379), severity 1. -/
def EV_SF_SET_LOAD : Nat := 0x6006
/-- `EV_SF_SET_FAIL` (R379), severity 5. -/
def EV_SF_SET_FAIL : Nat := 0x6007
/-- `EV_SF_PROOF_DUE` (R379), severity 3. -/
def EV_SF_PROOF_DUE : Nat := 0x6008
/-- `EV_SF_MBX_REFUSED` (R379), severity 3. -/
def EV_SF_MBX_REFUSED : Nat := 0x6009
/-- `EV_SF_DISCREP` (R379), severity 4. -/
def EV_SF_DISCREP : Nat := 0x6101
/-- `EV_SF_TESTPULSE` (R379), severity 4. -/
def EV_SF_TESTPULSE : Nat := 0x6102
/-- `EV_SF_SEAL` (R379), severity 5. -/
def EV_SF_SEAL : Nat := 0x6103
/-- `EV_SF_RST_STUCK` (R379), severity 4. -/
def EV_SF_RST_STUCK : Nat := 0x6104
/-- `EV_SF_READBACK` (R379), severity 5. -/
def EV_SF_READBACK : Nat := 0x6105
/-- `EV_SF_SCE` (R379), severity 6. -/
def EV_SF_SCE : Nat := 0x6106
/-- `EV_SF_CONN_FAULT` (R379), severity 4. -/
def EV_SF_CONN_FAULT : Nat := 0x6201
/-- `EV_CAN_BUSOFF` (R400), severity 4. -/
def EV_CAN_BUSOFF : Nat := 0x3201
/-- `EV_CAN_BUSOFF_REC` (R400), severity 1. -/
def EV_CAN_BUSOFF_REC : Nat := 0x3202
/-- `EV_CAN_PASSIVE` (R400), severity 3. -/
def EV_CAN_PASSIVE : Nat := 0x3203
/-- `EV_CAN_COLLISION` (R400), severity 4. -/
def EV_CAN_COLLISION : Nat := 0x3204
/-- `EV_CAN_FIFO_LOST` (R400), severity 3. -/
def EV_CAN_FIFO_LOST : Nat := 0x3205
/-- `EV_CAN_ABORT` (R400), severity 1. -/
def EV_CAN_ABORT : Nat := 0x3206
/-- `EV_CAN_TM_LOST` (R400), severity 3. -/
def EV_CAN_TM_LOST : Nat := 0x3207
/-- `EV_CAN_TM_CONFLICT` (R400), severity 4. -/
def EV_CAN_TM_CONFLICT : Nat := 0x3208
/-- `EV_CAN_REFUSED` (R400), severity 3. -/
def EV_CAN_REFUSED : Nat := 0x3209
/-- `EV_ETH_LINK` (R416), severity 2. -/
def EV_ETH_LINK : Nat := 0x3301
/-- `EV_ETH_TXTO` (R416), severity 3. -/
def EV_ETH_TXTO : Nat := 0x3302
/-- `EV_ETH_REFUSED` (R416), severity 3. -/
def EV_ETH_REFUSED : Nat := 0x3303
/-- `EV_TIME_DISC` (R416), severity 1. -/
def EV_TIME_DISC : Nat := 0x3311
/-- `EV_TIME_LOST` (R416), severity 3. -/
def EV_TIME_LOST : Nat := 0x3312
/-- `EV_TIME_STEP` (R416), severity 2. -/
def EV_TIME_STEP : Nat := 0x3313
/-- `EV_TIME_REFUSED` (R416), severity 3. -/
def EV_TIME_REFUSED : Nat := 0x3314
/-- `EV_MRAM_SCRUB` (R445), severity 1. -/
def EV_MRAM_SCRUB : Nat := 0x5001
/-- `EV_MRAM_SCRUB_LATE` (R445), severity 4. -/
def EV_MRAM_SCRUB_LATE : Nat := 0x5002
/-- `EV_MRAM_REMAP` (R445), severity 3. -/
def EV_MRAM_REMAP : Nat := 0x5003
/-- `EV_MRAM_SPARE_LOW` (R445), severity 4. -/
def EV_MRAM_SPARE_LOW : Nat := 0x5004
/-- `EV_MRAM_UNCORR` (R445), severity 5. -/
def EV_MRAM_UNCORR : Nat := 0x5005
/-- `EV_LED_BOOT` (R445), severity 1. -/
def EV_LED_BOOT : Nat := 0x5101
/-- `EV_LED_COMMISSION` (R445), severity 2. -/
def EV_LED_COMMISSION : Nat := 0x5102
/-- `EV_LED_SED_CLEAR` (R445), severity 3. -/
def EV_LED_SED_CLEAR : Nat := 0x5103
/-- `EV_LED_SNAP` (R445), severity 1. -/
def EV_LED_SNAP : Nat := 0x5104
/-- `EV_LED_TORN` (R445), severity 3. -/
def EV_LED_TORN : Nat := 0x5105
/-- `EV_LED_PF_COMMIT` (R445), severity 2. -/
def EV_LED_PF_COMMIT : Nat := 0x5106
/-- `EV_LED_CFG_WRITE` (R445), severity 2. -/
def EV_LED_CFG_WRITE : Nat := 0x5107
/-- `EV_LED_ARCHIVE` (R445), severity 1. -/
def EV_LED_ARCHIVE : Nat := 0x5108
/-- `EV_LED_WEAR` (R445), severity 3. -/
def EV_LED_WEAR : Nat := 0x5109
/-- `EV_LED_REFUSED` (R445), severity 3. -/
def EV_LED_REFUSED : Nat := 0x510a
/-- `EV_LT_RETIRE` (R445), severity 2. -/
def EV_LT_RETIRE : Nat := 0x5401
/-- `EV_LT_NEW` (R445), severity 1. -/
def EV_LT_NEW : Nat := 0x5402
/-- `EV_LT_LOST` (R445), severity 4. -/
def EV_LT_LOST : Nat := 0x5403
/-- `EV_LT_APPLY` (R445), severity 1. -/
def EV_LT_APPLY : Nat := 0x5404
/-- `EV_LT_INPUT` (R445), severity 3. -/
def EV_LT_INPUT : Nat := 0x5405
/-- `EV_CG_UNLOCK` (R469), severity 2. -/
def EV_CG_UNLOCK : Nat := 0x5201
/-- `EV_CG_FAIL` (R469), severity 3. -/
def EV_CG_FAIL : Nat := 0x5202
/-- `EV_CG_LOCKOUT` (R469), severity 4. -/
def EV_CG_LOCKOUT : Nat := 0x5203
/-- `EV_CG_LOCK` (R469), severity 1. -/
def EV_CG_LOCK : Nat := 0x5204
/-- `EV_CG_PWCHG` (R469), severity 2. -/
def EV_CG_PWCHG : Nat := 0x5205
/-- `EV_CG_REFUSED` (R469), severity 3. -/
def EV_CG_REFUSED : Nat := 0x5206
/-- `EV_KEY_IMPORT` (R469), severity 2. -/
def EV_KEY_IMPORT : Nat := 0x5301
/-- `EV_KEY_LOST` (R469), severity 5. -/
def EV_KEY_LOST : Nat := 0x5302
/-- `EV_KEY_REFUSED` (R469), severity 3. -/
def EV_KEY_REFUSED : Nat := 0x5303
/-- `EV_BOOT_START` (R469), severity 1. -/
def EV_BOOT_START : Nat := 0x5411
/-- `EV_BOOT_FALLBACK` (R469), severity 3. -/
def EV_BOOT_FALLBACK : Nat := 0x5412
/-- `EV_BOOT_REJECT` (R469), severity 4. -/
def EV_BOOT_REJECT : Nat := 0x5413
/-- `EV_BOOT_RECOVERY` (R469), severity 3. -/
def EV_BOOT_RECOVERY : Nat := 0x5414
/-- `EV_BOOT_CONFIRM` (R469), severity 1. -/
def EV_BOOT_CONFIRM : Nat := 0x5415
/-- `EV_BOOT_ARB` (R469), severity 2. -/
def EV_BOOT_ARB : Nat := 0x5416
/-- `EV_BOOT_REVOKE` (R469), severity 2. -/
def EV_BOOT_REVOKE : Nat := 0x5417
/-- `EV_BOOT_DBG_UNLOCK` (R469), severity 3. -/
def EV_BOOT_DBG_UNLOCK : Nat := 0x5418
/-- `EV_BOOT_DBG_FAIL` (R469), severity 3. -/
def EV_BOOT_DBG_FAIL : Nat := 0x5419
/-- `EV_BOOT_REFUSED` (R469), severity 3. -/
def EV_BOOT_REFUSED : Nat := 0x541a
/-- `EV_OTP_BURN` (R469), severity 2. -/
def EV_OTP_BURN : Nat := 0x541b
/-- `EV_SV_POWER_FAIL` (R489), severity 4. -/
def EV_SV_POWER_FAIL : Nat := 0x7001
/-- `EV_SV_RESET` (R489), severity 2. -/
def EV_SV_RESET : Nat := 0x7002
/-- `EV_SV_RESET_HELD` (R489), severity 3. -/
def EV_SV_RESET_HELD : Nat := 0x7003
/-- `EV_SV_HOLD` (R489), severity 4. -/
def EV_SV_HOLD : Nat := 0x7004
/-- `EV_SV_RECLAIM` (R489), severity 2. -/
def EV_SV_RECLAIM : Nat := 0x7005
/-- `EV_SV_SUPPLY` (R489), severity 5. -/
def EV_SV_SUPPLY : Nat := 0x7006
/-- `EV_SV_CLOCK` (R489), severity 5. -/
def EV_SV_CLOCK : Nat := 0x7007
/-- `EV_SV_RTC_LOST` (R489), severity 3. -/
def EV_SV_RTC_LOST : Nat := 0x7008
/-- `EV_SV_BAND` (R489), severity 2. -/
def EV_SV_BAND : Nat := 0x7009
/-- `EV_SV_SENSOR_BROKEN` (R489), severity 4. -/
def EV_SV_SENSOR_BROKEN : Nat := 0x700a
/-- `EV_SV_THERM_SHDN` (R489), severity 5. -/
def EV_SV_THERM_SHDN : Nat := 0x700b
/-- `EV_SV_REFUSED` (R489), severity 3. -/
def EV_SV_REFUSED : Nat := 0x700c

/-- The codes of severity 6. -/
def severity6Codes : List Nat := [EV_SF_SDC, EV_SF_SRS, EV_SF_SCE]

/-- The codes of severity 5. -/
def severity5Codes : List Nat := [EV_SWP_STALE, EV_TRIP_ACTION, EV_CON_WELD, EV_FB_VC0_LOST, EV_FB_REGION_FATAL, EV_FB_CHIP_FATAL, EV_FB_ESCALATE, EV_FB_WDOG, EV_VEC_SELFTEST_FAIL, EV_REG_VBUS_FAULT, EV_GD_SHORT, EV_GD_UV] ++
  [EV_GD_KILL, EV_LS_VSW, EV_SF_INTERNAL, EV_SF_SET_FAIL, EV_SF_SEAL, EV_SF_READBACK, EV_MRAM_UNCORR, EV_KEY_LOST, EV_SV_SUPPLY, EV_SV_CLOCK, EV_SV_THERM_SHDN]

/-- The codes of severity 4. -/
def severity4Codes : List Nat := [EV_LINK_AUTH_FAIL, EV_SWP_CHAIN_BREAK, EV_SWP_RING_TWOEND, EV_SWP_WIRE_BREAK, EV_SWP_SS_MISMATCH, EV_SWP_OWT_INDET, EV_SWP_DEADLINE, EV_CUR_XCHK, EV_CUR_STALE, EV_AIC_FAULT, EV_CFB_INDET, EV_LIM_GROUP] ++
  [EV_CON_FORCED, EV_PCH_FAIL, EV_ORPHAN, EV_FB_ECC_UNCORR, EV_FB_LINK_FAIL, EV_FB_QUARANTINE, EV_FB_ISOLATE, EV_FB_DL_MISS, EV_VEC_KERNEL_FAULT, EV_EST_INCONS, EV_EST_TINT, EV_EST_SOFTSHORT] ++
  [EV_EST_DEADLINE, EV_EST_PARAM, EV_REG_PHASE_OPEN, EV_REG_PHASE_SENSE, EV_BVL_TIMEOUT, EV_GD_INTERLOCK, EV_GD_FBERR, EV_GD_LEAK, EV_GD_LATCH, EV_LS_LATCH, EV_LS_PREWARN, EV_LS_TSENS] ++
  [EV_LS_CLAMP, EV_LS_SENSE, EV_SF_DISCREP, EV_SF_TESTPULSE, EV_SF_RST_STUCK, EV_SF_CONN_FAULT, EV_CAN_BUSOFF, EV_CAN_COLLISION, EV_CAN_TM_CONFLICT, EV_MRAM_SCRUB_LATE, EV_MRAM_SPARE_LOW, EV_LT_LOST] ++
  [EV_CG_LOCKOUT, EV_BOOT_REJECT, EV_SV_POWER_FAIL, EV_SV_HOLD, EV_SV_SENSOR_BROKEN]

/-- The codes of severity 3. -/
def severity3Codes : List Nat := [EV_LINK_MISSING, EV_LINK_SLOT, EV_LINK_LATE, EV_LINK_DLY_SHIFT, EV_LINK_REFUSED, EV_SWP_WIRE_SUSPECT, EV_SWP_NOSYNC, EV_SWP_REFUSED, EV_WIN_RETRIGGER, EV_CUR_DISCARD, EV_CUR_IMPLAUS, EV_AIN_WIN] ++
  [EV_CUR_REFUSED, EV_LIM_WARN, EV_TRIP_DERATE, EV_TRIP_CLR_REFUSED, EV_TRIP_REFUSED, EV_DLIM_STALE, EV_CON_REFUSED, EV_CON_LOSS_INFER, EV_FB_REFUSED, EV_FB_OVERLAP, EV_FB_Q_OVF, EV_FB_WDOG_BADKICK] ++
  [EV_VEC_REFUSED, EV_EST_OFFSET, EV_EST_CALREQ, EV_REG_SHORTFALL, EV_REG_SYNC_LOST, EV_REG_WEIGHTS_STALE, EV_REG_CAPDIS, EV_REG_REFUSED, EV_BVL_REFUSED, EV_GD_BOTHON, EV_GD_REFUSED, EV_LS_THERM] ++
  [EV_LS_OPENLOAD, EV_LS_REFUSED, EV_SF_RESET_REFUSED, EV_SF_PROOF_DUE, EV_SF_MBX_REFUSED, EV_CAN_PASSIVE, EV_CAN_FIFO_LOST, EV_CAN_TM_LOST, EV_CAN_REFUSED, EV_ETH_TXTO, EV_ETH_REFUSED, EV_TIME_LOST] ++
  [EV_TIME_REFUSED, EV_MRAM_REMAP, EV_LED_SED_CLEAR, EV_LED_TORN, EV_LED_WEAR, EV_LED_REFUSED, EV_LT_INPUT, EV_CG_FAIL, EV_CG_REFUSED, EV_KEY_REFUSED, EV_BOOT_FALLBACK, EV_BOOT_RECOVERY] ++
  [EV_BOOT_DBG_UNLOCK, EV_BOOT_DBG_FAIL, EV_BOOT_REFUSED, EV_SV_RESET_HELD, EV_SV_RTC_LOST, EV_SV_REFUSED]

/-- The codes of severity 2. -/
def severity2Codes : List Nat := [EV_LINK_CRC, EV_LINK_SWAP, EV_LINK_NAK, EV_WIN_FREEZE, EV_CUR_GAP, EV_TRIP_NOTE, EV_PRESEQ, EV_FB_ECC_CORR, EV_FB_REPLAY, EV_FB_INBOX_HELD, EV_VEC_THROTTLE, EV_EST_CAP_REJECT] ++
  [EV_REG_EXC_END, EV_BVL_CRC, EV_GD_RETRY, EV_SF_RESET, EV_ETH_LINK, EV_TIME_STEP, EV_LED_COMMISSION, EV_LED_PF_COMMIT, EV_LED_CFG_WRITE, EV_LT_RETIRE, EV_CG_UNLOCK, EV_CG_PWCHG] ++
  [EV_KEY_IMPORT, EV_BOOT_ARB, EV_BOOT_REVOKE, EV_OTP_BURN, EV_SV_RESET, EV_SV_RECLAIM, EV_SV_BAND]

/-- The codes of severity 1. -/
def severity1Codes : List Nat := [EV_LINK_ENUM, EV_LINK_WAKE, EV_SWP_RESTORE, EV_SWP_PERIOD, EV_CUR_OFFSET, EV_TRIP_CLEAR, EV_CON_CLOSE, EV_CON_OPEN, EV_PCH_DONE, EV_FB_PMON_OVF, EV_EST_CALDONE, EV_EST_ANCHOR] ++
  [EV_EST_NEWCELL, EV_REG_PHASE_EN, EV_REG_SYNC_LOCK, EV_BVL_RESTORE, EV_GD_CLEAR, EV_LS_CLEAR, EV_SF_SET_LOAD, EV_CAN_BUSOFF_REC, EV_CAN_ABORT, EV_TIME_DISC, EV_MRAM_SCRUB, EV_LED_BOOT] ++
  [EV_LED_SNAP, EV_LED_ARCHIVE, EV_LT_NEW, EV_LT_APPLY, EV_CG_LOCK, EV_BOOT_START, EV_BOOT_CONFIRM]

/-- The severity of an event code (R418): the tables of the event chapters; 0 for a code no table lists. -/
def eventSeverity (code : Nat) : Nat :=
  if code ∈ severity6Codes then 6
  else if code ∈ severity5Codes then 5
  else if code ∈ severity4Codes then 4
  else if code ∈ severity3Codes then 3
  else if code ∈ severity2Codes then 2
  else if code ∈ severity1Codes then 1
  else 0

end Sys2Proof.Machine
end

