-- ==== Sys2Proof/Machine/Fields.lean ====
section
/-!
DEFINITION. Register fields: places, access types (R3), ranges (R513), and the rows a register table is made of.
-/

namespace Sys2Proof.Machine

/-- The place of a field in a register: bits `hi` down to `lo`. -/
structure Fld where
  hi : Nat
  lo : Nat
  deriving DecidableEq, Repr

/-- The access types of R3. -/
inductive Acc where
  | ro | rw | rwl | rws | wo | rc | w1c
  deriving DecidableEq, Repr

/-- The width of a field. -/
def Fld.width (f : Fld) : Nat := f.hi + 1 - f.lo

/-- The largest value of a field. -/
def Fld.max (f : Fld) : Nat := 2 ^ f.width - 1

/-- A field's value in a register word. -/
def Fld.get (f : Fld) (w : Word) : Nat := w.toNat / 2 ^ f.lo % 2 ^ f.width

/-- A register word with one field replaced (the value's low bits). -/
def Fld.put (f : Fld) (w : Word) (v : Nat) : Word :=
  BitVec.ofNat 32 (w.toNat % 2 ^ f.lo + v % 2 ^ f.width * 2 ^ f.lo
    + w.toNat / 2 ^ (f.lo + f.width) * 2 ^ (f.lo + f.width))

/-- A field's value read as a signed number. -/
def Fld.getS (f : Fld) (w : Word) : Int := sext (f.get w) f.width

/-- One field of a register table: its place, its access type and its stated range (R513). -/
structure FieldDesc where
  fld : Fld
  acc : Acc
  min : Nat
  max : Nat
  deriving DecidableEq, Repr

/-- One row of a register table: the first address, the strides and counts of its array (outermost first), the reset
word, the fields, and the event that a refused write records. -/
structure RegRow where
  base : Nat
  dims : List (Nat × Nat)
  reset : Nat
  fields : List FieldDesc
  refused : Nat
  deriving DecidableEq, Repr

/-- Whether an offset is a place of an array with these strides and counts. -/
def offsetFits : List (Nat × Nat) → Nat → Bool
  | [], o => o == 0
  | (st, ct) :: ds, o => decide (o / st < ct) && offsetFits ds (o % st)

/-- Whether address `a` is a register of the row. -/
def RegRow.has (r : RegRow) (a : Nat) : Bool := decide (r.base ≤ a) && offsetFits r.dims (a - r.base)

end Sys2Proof.Machine
end

