-- ==== Sys2Proof/Machine/RegsAQ.lean ====
section
/-!
DEFINITION. The registers of the acquisition region (AQ): addresses, fields, access types, ranges and reset values, from the register tables of the spec.
-/

namespace Sys2Proof.Machine

/-- Address of `AQ_PORT_CTL` (R74). -/
def AQ_PORT_CTL (k : Nat) : Nat := 0x42000000 + k / 4 * 0x100000 + k % 4 * 0x1000
/-- `AQ_PORT_CTL.WAKE`, WO: 1 sends a 500 µs wake tone. -/
def AQ_PORT_CTL_WAKE : Fld := ⟨28, 28⟩
/-- `AQ_PORT_CTL.PINGAVG`, RW: Averages 2^code PINGs; 5–15 refused. -/
def AQ_PORT_CTL_PINGAVG : Fld := ⟨27, 24⟩
/-- `AQ_PORT_CTL.AUTHPER`, RWL: Re-authentication period in minutes; 0 = at enumeration only. -/
def AQ_PORT_CTL_AUTHPER : Fld := ⟨23, 16⟩
/-- `AQ_PORT_CTL.TMKPER`, RW: Marker period in 100 µs units, 1 to 100; 0 and above 100 refused. -/
def AQ_PORT_CTL_TMKPER : Fld := ⟨15, 8⟩
/-- `AQ_PORT_CTL.TXAMP`, RW: Transmit amplitude 0.6 + 0.1 × code Vppd; 11–15 refused. -/
def AQ_PORT_CTL_TXAMP : Fld := ⟨7, 4⟩
/-- `AQ_PORT_CTL.MKEN`, RW: TIME markers on. -/
def AQ_PORT_CTL_MKEN : Fld := ⟨3, 3⟩
/-- `AQ_PORT_CTL.AUTHREQ`, RWL: Authentication required. -/
def AQ_PORT_CTL_AUTHREQ : Fld := ⟨2, 2⟩
/-- `AQ_PORT_CTL.RING`, RO: 1 for engines 16–19. -/
def AQ_PORT_CTL_RING : Fld := ⟨1, 1⟩
/-- `AQ_PORT_CTL.EN`, RW: Port enabled. On a ring, end 0's `EN` enables the ring and end 1's `EN` enables end 1's part (R28). -/
def AQ_PORT_CTL_EN : Fld := ⟨0, 0⟩

/-- Address of `AQ_PORT_STAT` (R74). -/
def AQ_PORT_STAT (k : Nat) : Nat := 0x42000004 + k / 4 * 0x100000 + k % 4 * 0x1000
/-- `AQ_PORT_STAT.ALLAUTH`, RO: Every enumerated node authenticated. -/
def AQ_PORT_STAT_ALLAUTH : Fld := ⟨12, 12⟩
/-- `AQ_PORT_STAT.DLYVALID`, RO: Every enumerated node holds a calibrated delay. -/
def AQ_PORT_STAT_DLYVALID : Fld := ⟨11, 11⟩
/-- `AQ_PORT_STAT.STATE`, RO: 0 off, 1 waking, 2 enumerating, 3 calibrating, 4 authenticating, 5 running, 6 two-ended. -/
def AQ_PORT_STAT_STATE : Fld := ⟨10, 8⟩
/-- `AQ_PORT_STAT.ENDSEEN`, RO: Ring end 1 receiving end 0's commands with a good CRC (R28); shown in both end engines; 0 on a chain. -/
def AQ_PORT_STAT_ENDSEEN : Fld := ⟨7, 7⟩
/-- `AQ_PORT_STAT.NODES`, RO: Nodes enumerated, 0 to 64. -/
def AQ_PORT_STAT_NODES : Fld := ⟨6, 0⟩

/-- Address of `AQ_PORT_EVT` (R74). -/
def AQ_PORT_EVT (k : Nat) : Nat := 0x42000008 + k / 4 * 0x100000 + k % 4 * 0x1000
/-- `AQ_PORT_EVT.DLYSHIFT`, W1C: A delay moved by more than 20 ns. -/
def AQ_PORT_EVT_DLYSHIFT : Fld := ⟨7, 7⟩
/-- `AQ_PORT_EVT.LATE`, W1C: A record carried LATE. -/
def AQ_PORT_EVT_LATE : Fld := ⟨6, 6⟩
/-- `AQ_PORT_EVT.NAK`, W1C: A NAK arrived. -/
def AQ_PORT_EVT_NAK : Fld := ⟨5, 5⟩
/-- `AQ_PORT_EVT.SWAP`, W1C: A serial changed at a position. -/
def AQ_PORT_EVT_SWAP : Fld := ⟨4, 4⟩
/-- `AQ_PORT_EVT.AUTHFAIL`, W1C: A node failed authentication. -/
def AQ_PORT_EVT_AUTHFAIL : Fld := ⟨3, 3⟩
/-- `AQ_PORT_EVT.SLOTERR`, W1C: A response had the wrong address, tag or timing. -/
def AQ_PORT_EVT_SLOTERR : Fld := ⟨2, 2⟩
/-- `AQ_PORT_EVT.MISSING`, W1C: A slot closed without a response. -/
def AQ_PORT_EVT_MISSING : Fld := ⟨1, 1⟩
/-- `AQ_PORT_EVT.CRCERR`, W1C: A response failed its CRC. -/
def AQ_PORT_EVT_CRCERR : Fld := ⟨0, 0⟩

/-- Address of `AQ_PORT_CNT0` (R74). -/
def AQ_PORT_CNT0 (k : Nat) : Nat := 0x4200000c + k / 4 * 0x100000 + k % 4 * 0x1000
/-- `AQ_PORT_CNT0.AUTHFAILN`, RC: Occurrences of `AUTHFAIL`, saturating at 255. -/
def AQ_PORT_CNT0_AUTHFAILN : Fld := ⟨31, 24⟩
/-- `AQ_PORT_CNT0.SLOTERRN`, RC: Occurrences of `SLOTERR`, saturating. -/
def AQ_PORT_CNT0_SLOTERRN : Fld := ⟨23, 16⟩
/-- `AQ_PORT_CNT0.MISSINGN`, RC: Occurrences of `MISSING`, saturating. -/
def AQ_PORT_CNT0_MISSINGN : Fld := ⟨15, 8⟩
/-- `AQ_PORT_CNT0.CRCERRN`, RC: Occurrences of `CRCERR`, saturating. -/
def AQ_PORT_CNT0_CRCERRN : Fld := ⟨7, 0⟩

/-- Address of `AQ_PORT_CNT1` (R74). -/
def AQ_PORT_CNT1 (k : Nat) : Nat := 0x42000010 + k / 4 * 0x100000 + k % 4 * 0x1000
/-- `AQ_PORT_CNT1.DLYSHIFTN`, RC: Occurrences of `DLYSHIFT`, saturating at 255. -/
def AQ_PORT_CNT1_DLYSHIFTN : Fld := ⟨31, 24⟩
/-- `AQ_PORT_CNT1.LATEN`, RC: Occurrences of `LATE`, saturating. -/
def AQ_PORT_CNT1_LATEN : Fld := ⟨23, 16⟩
/-- `AQ_PORT_CNT1.NAKN`, RC: Occurrences of `NAK`, saturating. -/
def AQ_PORT_CNT1_NAKN : Fld := ⟨15, 8⟩
/-- `AQ_PORT_CNT1.SWAPN`, RC: Occurrences of `SWAP`, saturating. -/
def AQ_PORT_CNT1_SWAPN : Fld := ⟨7, 0⟩

/-- Address of `AQ_PORT_BRK` (R104). -/
def AQ_PORT_BRK (k : Nat) : Nat := 0x42000014 + k / 4 * 0x100000 + k % 4 * 0x1000
/-- `AQ_PORT_BRK.STALEMS`, RO: Stale age of the oldest stale node, ms, saturating at 65,535. -/
def AQ_PORT_BRK_STALEMS : Fld := ⟨31, 16⟩
/-- `AQ_PORT_BRK.BRKVALID`, RO: A break is located. -/
def AQ_PORT_BRK_BRKVALID : Fld := ⟨15, 15⟩
/-- `AQ_PORT_BRK.BRKPOS`, RO: Last position reachable from end 0. -/
def AQ_PORT_BRK_BRKPOS : Fld := ⟨14, 8⟩
/-- `AQ_PORT_BRK.STALEN`, RO: Stale nodes on the port, 0 to 64. -/
def AQ_PORT_BRK_STALEN : Fld := ⟨6, 0⟩

/-- Address of `AQ_NODE_SERLO` (R74). -/
def AQ_NODE_SERLO (k : Nat) (p : Nat) : Nat := 0x42000400 + k / 4 * 0x100000 + k % 4 * 0x1000 + (p - 1) * 0x10
/-- `AQ_NODE_SERLO.SER`, RO: Low word of the serial of the node at position p. -/
def AQ_NODE_SERLO_SER : Fld := ⟨31, 0⟩

/-- Address of `AQ_NODE_SERHI` (R74). -/
def AQ_NODE_SERHI (k : Nat) (p : Nat) : Nat := 0x42000404 + k / 4 * 0x100000 + k % 4 * 0x1000 + (p - 1) * 0x10
/-- `AQ_NODE_SERHI.SER`, RO: High word of the serial of the node at position p. -/
def AQ_NODE_SERHI_SER : Fld := ⟨31, 0⟩

/-- Address of `AQ_NODE_DLY` (R74). -/
def AQ_NODE_DLY (k : Nat) (p : Nat) : Nat := 0x42000408 + k / 4 * 0x100000 + k % 4 * 0x1000 + (p - 1) * 0x10
/-- `AQ_NODE_DLY.D1`, RO: Delay from end 1, 1.25 ns units; 0 on a chain. -/
def AQ_NODE_DLY_D1 : Fld := ⟨31, 16⟩
/-- `AQ_NODE_DLY.D0`, RO: Delay from end 0, 1.25 ns units. -/
def AQ_NODE_DLY_D0 : Fld := ⟨15, 0⟩

/-- Address of `AQ_NODE_STAT` (R74). -/
def AQ_NODE_STAT (k : Nat) (p : Nat) : Nat := 0x4200040c + k / 4 * 0x100000 + k % 4 * 0x1000 + (p - 1) * 0x10
/-- `AQ_NODE_STAT.BALTMR`, RO: Balancing time left from the last record, s. -/
def AQ_NODE_STAT_BALTMR : Fld := ⟨23, 16⟩
/-- `AQ_NODE_STAT.BALACT`, RO: Balancing mask non-zero in the last record. -/
def AQ_NODE_STAT_BALACT : Fld := ⟨11, 11⟩
/-- `AQ_NODE_STAT.SWAPPED`, RO: Serial differs from the one held before enumeration. -/
def AQ_NODE_STAT_SWAPPED : Fld := ⟨10, 10⟩
/-- `AQ_NODE_STAT.AUTH`, RO: Node authenticated. -/
def AQ_NODE_STAT_AUTH : Fld := ⟨9, 9⟩
/-- `AQ_NODE_STAT.CELLS`, RO: Cells populated, 0 to 18. -/
def AQ_NODE_STAT_CELLS : Fld := ⟨8, 4⟩
/-- `AQ_NODE_STAT.TYPE`, RO: 0 none, 1 cell, 2 string sense, 3 bus sense. -/
def AQ_NODE_STAT_TYPE : Fld := ⟨3, 0⟩

/-- Address of `AQ_NODE_LIM` (R125). -/
def AQ_NODE_LIM (k : Nat) (p : Nat) : Nat := 0x42000800 + k / 4 * 0x100000 + k % 4 * 0x1000 + (p - 1) * 0x4
/-- `AQ_NODE_LIM.BRKL`, RO: Bit k: sense line k broken, set at EV_SWP_WIRE_BREAK, cleared when an open-wire test finds every line intact. -/
def AQ_NODE_LIM_BRKL : Fld := ⟨26, 8⟩
/-- `AQ_NODE_LIM.PROF`, RWL: Profile index. -/
def AQ_NODE_LIM_PROF : Fld := ⟨4, 0⟩

/-- Address of `AQ_LINK_BASE` (R74). -/
def AQ_LINK_BASE : Nat := 0x4200f000
/-- `AQ_LINK_BASE.BASE`, RWL: Node address base per R38; values above 64,383 are refused. -/
def AQ_LINK_BASE_BASE : Fld := ⟨15, 0⟩

/-- Address of `AQ_AIC_CFG` (R122). -/
def AQ_AIC_CFG (n : Nat) : Nat := 0x42500000 + n * 0x10
/-- `AQ_AIC_CFG.AFEDLY`, RW: Front-end delay, signed, 10 ns units. -/
def AQ_AIC_CFG_AFEDLY : Fld := ⟨27, 16⟩
/-- `AQ_AIC_CFG.ODR`, RW: Output rate per the AIC table; 5–7 refused. -/
def AQ_AIC_CFG_ODR : Fld := ⟨11, 9⟩
/-- `AQ_AIC_CFG.RANGE`, RW: 0 ±100 mV, 1 ±1 V, 2 ±5 V, 3 ±10 V. -/
def AQ_AIC_CFG_RANGE : Fld := ⟨8, 7⟩
/-- `AQ_AIC_CFG.EN`, RW: Channel on. -/
def AQ_AIC_CFG_EN : Fld := ⟨0, 0⟩

/-- Address of `AQ_AIC_SCL` (R122). -/
def AQ_AIC_SCL (n : Nat) : Nat := 0x42500004 + n * 0x10
/-- `AQ_AIC_SCL.SCALE`, RW: Signed: mA at positive full scale; offset, mA. -/
def AQ_AIC_SCL_SCALE : Fld := ⟨31, 0⟩

/-- Address of `AQ_AIC_OFS` (R122). -/
def AQ_AIC_OFS (n : Nat) : Nat := 0x42500008 + n * 0x10
/-- `AQ_AIC_OFS.OFS`, RW: Signed: mA at positive full scale; offset, mA. -/
def AQ_AIC_OFS_OFS : Fld := ⟨31, 0⟩

/-- Address of `AQ_AIN_CFG` (R122). -/
def AQ_AIN_CFG (n : Nat) : Nat := 0x42500100 + n * 0x4
/-- `AQ_AIN_CFG.HI`, RW: Window high, code. -/
def AQ_AIN_CFG_HI : Fld := ⟨31, 20⟩
/-- `AQ_AIN_CFG.LO`, RW: Window low, code. -/
def AQ_AIN_CFG_LO : Fld := ⟨19, 8⟩
/-- `AQ_AIN_CFG.PERS`, RW: Samples outside or inside to change state, 1 to 15; 0 refused. -/
def AQ_AIN_CFG_PERS : Fld := ⟨7, 4⟩
/-- `AQ_AIN_CFG.RATE`, RW: 0 1 S/s, 1 10 S/s, 2 100 S/s, 3 1 kS/s, 4 10 kS/s, 5 100 kS/s; 6–7 refused. -/
def AQ_AIN_CFG_RATE : Fld := ⟨3, 1⟩
/-- `AQ_AIN_CFG.EN`, RW: Channel on. -/
def AQ_AIN_CFG_EN : Fld := ⟨0, 0⟩

/-- Address of `AQ_CUR_SRC` (R122). -/
def AQ_CUR_SRC (s : Nat) : Nat := 0x42500200 + s * 0x4
/-- `AQ_CUR_SRC.EN`, RW: Source s and the cross-check of string s on. -/
def AQ_CUR_SRC_EN : Fld := ⟨31, 31⟩
/-- `AQ_CUR_SRC.POS`, RW: Position of the string sense node, 1 to 64. -/
def AQ_CUR_SRC_POS : Fld := ⟨13, 8⟩
/-- `AQ_CUR_SRC.PORT`, RW: Logical port, 0 to 17; 18–31 refused. -/
def AQ_CUR_SRC_PORT : Fld := ⟨4, 0⟩

/-- Address of `AQ_CUR_OFS` (R122). -/
def AQ_CUR_OFS (s : Nat) : Nat := 0x42500240 + s * 0x4
/-- `AQ_CUR_OFS.PHOFS`, RO: Phase-sum path offset, signed, 10 mA units. -/
def AQ_CUR_OFS_PHOFS : Fld := ⟨31, 16⟩
/-- `AQ_CUR_OFS.SHOFS`, RO: Shunt path offset, signed, 10 mA units. -/
def AQ_CUR_OFS_SHOFS : Fld := ⟨15, 0⟩

/-- Address of `AQ_CUR_XCFG` (R122). -/
def AQ_CUR_XCFG : Nat := 0x42500280
/-- `AQ_CUR_XCFG.XPCT`, RWL: Proportional tolerance, 0.1 % units. -/
def AQ_CUR_XCFG_XPCT : Fld := ⟨31, 24⟩
/-- `AQ_CUR_XCFG.ISMAX`, RWL: Plausibility limit, A. -/
def AQ_CUR_XCFG_ISMAX : Fld := ⟨23, 12⟩
/-- `AQ_CUR_XCFG.XABS`, RWL: Absolute tolerance, 100 mA units. -/
def AQ_CUR_XCFG_XABS : Fld := ⟨11, 0⟩

/-- Address of `AQ_CUR_STAT` (R122). -/
def AQ_CUR_STAT : Nat := 0x42500284
/-- `AQ_CUR_STAT.XFAIL`, RO: Bit s: cross-check of string s failed. -/
def AQ_CUR_STAT_XFAIL : Fld := ⟨27, 16⟩
/-- `AQ_CUR_STAT.STALE`, RO: Bits 0–11: string streams; bits 12–13: bus streams of rings A and B. -/
def AQ_CUR_STAT_STALE : Fld := ⟨13, 0⟩

/-- Address of `AQ_CUR_EVT` (R122). -/
def AQ_CUR_EVT : Nat := 0x42500288
/-- `AQ_CUR_EVT.REFUSED`, W1C: A write was refused. -/
def AQ_CUR_EVT_REFUSED : Fld := ⟨7, 7⟩
/-- `AQ_CUR_EVT.GAP`, W1C: An interpolation found a gap. -/
def AQ_CUR_EVT_GAP : Fld := ⟨6, 6⟩
/-- `AQ_CUR_EVT.AINWIN`, W1C: An AIN window was left, or a conversion timed out. -/
def AQ_CUR_EVT_AINWIN : Fld := ⟨5, 5⟩
/-- `AQ_CUR_EVT.AICFLT`, W1C: An AIC channel went over range or stuck. -/
def AQ_CUR_EVT_AICFLT : Fld := ⟨4, 4⟩
/-- `AQ_CUR_EVT.IMPLAUS`, W1C: A stream sample exceeded `ISMAX`. -/
def AQ_CUR_EVT_IMPLAUS : Fld := ⟨3, 3⟩
/-- `AQ_CUR_EVT.DISCARD`, W1C: A sense node discarded samples. -/
def AQ_CUR_EVT_DISCARD : Fld := ⟨2, 2⟩
/-- `AQ_CUR_EVT.STALE`, W1C: A stream became stale. -/
def AQ_CUR_EVT_STALE : Fld := ⟨1, 1⟩
/-- `AQ_CUR_EVT.XCHK`, W1C: A cross-check failed. -/
def AQ_CUR_EVT_XCHK : Fld := ⟨0, 0⟩

/-- Address of `AQ_CUR_CNT0` (R122). -/
def AQ_CUR_CNT0 : Nat := 0x4250028c
/-- `AQ_CUR_CNT0.IMPLAUSN`, RC: Occurrences, saturating at 255 (CNT0, CNT1). -/
def AQ_CUR_CNT0_IMPLAUSN : Fld := ⟨31, 24⟩
/-- `AQ_CUR_CNT0.DISCARDN`, RC: Occurrences, saturating. -/
def AQ_CUR_CNT0_DISCARDN : Fld := ⟨23, 16⟩
/-- `AQ_CUR_CNT0.STALEN`, RC: Occurrences, saturating. -/
def AQ_CUR_CNT0_STALEN : Fld := ⟨15, 8⟩
/-- `AQ_CUR_CNT0.XCHKN`, RC: Occurrences, saturating. -/
def AQ_CUR_CNT0_XCHKN : Fld := ⟨7, 0⟩

/-- Address of `AQ_CUR_CNT1` (R122). -/
def AQ_CUR_CNT1 : Nat := 0x42500290
/-- `AQ_CUR_CNT1.REFUSEDN`, RC: Occurrences, saturating at 255 (CNT0, CNT1). -/
def AQ_CUR_CNT1_REFUSEDN : Fld := ⟨31, 24⟩
/-- `AQ_CUR_CNT1.GAPN`, RC: Occurrences, saturating. -/
def AQ_CUR_CNT1_GAPN : Fld := ⟨23, 16⟩
/-- `AQ_CUR_CNT1.AINWINN`, RC: Occurrences, saturating. -/
def AQ_CUR_CNT1_AINWINN : Fld := ⟨15, 8⟩
/-- `AQ_CUR_CNT1.AICFLTN`, RC: Occurrences, saturating. -/
def AQ_CUR_CNT1_AICFLTN : Fld := ⟨7, 0⟩

/-- Address of `AQ_SWP_CTL` (R104). -/
def AQ_SWP_CTL : Nat := 0x42600000
/-- `AQ_SWP_CTL.LEAD`, RW: SAMPLE lead, µs, 20 to 255; checked per R79. -/
def AQ_SWP_CTL_LEAD : Fld := ⟨23, 16⟩
/-- `AQ_SWP_CTL.STALEN`, RW: t_stale in periods, 1 to 15; 0 refused. -/
def AQ_SWP_CTL_STALEN : Fld := ⟨15, 12⟩
/-- `AQ_SWP_CTL.STRPER`, RW: Stream read period, 0.25 ms units, 1 to 15; 0 refused. -/
def AQ_SWP_CTL_STRPER : Fld := ⟨11, 8⟩
/-- `AQ_SWP_CTL.OWTNOW`, WO: 1 runs the open-wire test on every enabled port. -/
def AQ_SWP_CTL_OWTNOW : Fld := ⟨7, 7⟩
/-- `AQ_SWP_CTL.AUXDIV`, RW: Aux converted every `AUXDIV`-th sweep; 0 never. -/
def AQ_SWP_CTL_AUXDIV : Fld := ⟨6, 4⟩
/-- `AQ_SWP_CTL.SNAP`, RW: Target snapping per R82. -/
def AQ_SWP_CTL_SNAP : Fld := ⟨3, 3⟩
/-- `AQ_SWP_CTL.PIPE`, RW: Pipelined mode. -/
def AQ_SWP_CTL_PIPE : Fld := ⟨2, 2⟩
/-- `AQ_SWP_CTL.EN`, RW: Sweeps on. -/
def AQ_SWP_CTL_EN : Fld := ⟨0, 0⟩

/-- Address of `AQ_SWP_PER` (R104). -/
def AQ_SWP_PER : Nat := 0x42600004
/-- `AQ_SWP_PER.NREST`, RW: Rest period in near periods, 1 to 255; a rest period above 10 s refused. -/
def AQ_SWP_PER_NREST : Fld := ⟨31, 24⟩
/-- `AQ_SWP_PER.NNEAR`, RW: Near period in load periods, 1 to 255. -/
def AQ_SWP_PER_NNEAR : Fld := ⟨23, 16⟩
/-- `AQ_SWP_PER.PLOAD`, RW: Load period, 10 µs units, 50 to 10,000; checked per R79. -/
def AQ_SWP_PER_PLOAD : Fld := ⟨15, 0⟩

/-- Address of `AQ_SWP_EPOCHLO` (R104). -/
def AQ_SWP_EPOCHLO : Nat := 0x42600008
/-- `AQ_SWP_EPOCHLO.EPOCH`, RW: Low and high words of the grid origin, chip time; takes effect at the write of the high word. -/
def AQ_SWP_EPOCHLO_EPOCH : Fld := ⟨31, 0⟩

/-- Address of `AQ_SWP_EPOCHHI` (R104). -/
def AQ_SWP_EPOCHHI : Nat := 0x4260000c
/-- `AQ_SWP_EPOCHHI.EPOCH`, RW: Low and high words of the grid origin, chip time; takes effect at the write of the high word. -/
def AQ_SWP_EPOCHHI_EPOCH : Fld := ⟨31, 0⟩

/-- Address of `AQ_SWP_ADAPT` (R104). -/
def AQ_SWP_ADAPT : Nat := 0x42600010
/-- `AQ_SWP_ADAPT.IREST`, RW: Rest threshold, 10 mA units. -/
def AQ_SWP_ADAPT_IREST : Fld := ⟨31, 16⟩
/-- `AQ_SWP_ADAPT.ILOAD`, RW: Load threshold, 10 mA units; 0 turns adaptation off. -/
def AQ_SWP_ADAPT_ILOAD : Fld := ⟨15, 0⟩

/-- Address of `AQ_SWP_DWELL` (R104). -/
def AQ_SWP_DWELL : Nat := 0x42600014
/-- `AQ_SWP_DWELL.TREST`, RW: Dwell before rest, s. -/
def AQ_SWP_DWELL_TREST : Fld := ⟨31, 16⟩
/-- `AQ_SWP_DWELL.TNEAR`, RW: Dwell before near, 0.1 s units. -/
def AQ_SWP_DWELL_TNEAR : Fld := ⟨15, 0⟩

/-- Address of `AQ_SWP_REQ` (R104). -/
def AQ_SWP_REQ : Nat := 0x42600018
/-- `AQ_SWP_REQ.PGMREQ`, RW: Period requested by the program, in load periods; 0 none. -/
def AQ_SWP_REQ_PGMREQ : Fld := ⟨31, 16⟩
/-- `AQ_SWP_REQ.ESREQ`, RW: Period requested by ES, in load periods; 0 none. -/
def AQ_SWP_REQ_ESREQ : Fld := ⟨15, 0⟩

/-- Address of `AQ_SWP_BLK` (R104). -/
def AQ_SWP_BLK (n : Nat) : Nat := 0x42600020 + n * 0x4
/-- `AQ_SWP_BLK.OFFSET`, RW: Window start after the PSYNC_IN rising edge, 100 ns units. -/
def AQ_SWP_BLK_OFFSET : Fld := ⟨31, 16⟩
/-- `AQ_SWP_BLK.WIDTH`, RW: Window width, 100 ns units; 0 disables the window. -/
def AQ_SWP_BLK_WIDTH : Fld := ⟨15, 4⟩

/-- Address of `AQ_SWP_PLAUS` (R104). -/
def AQ_SWP_PLAUS : Nat := 0x42600030
/-- `AQ_SWP_PLAUS.OWTDV`, RW: Open-wire threshold, 5 mV units. -/
def AQ_SWP_PLAUS_OWTDV : Fld := ⟨31, 24⟩
/-- `AQ_SWP_PLAUS.RTOL`, RW: Stack-sum tolerance term, mV. -/
def AQ_SWP_PLAUS_RTOL : Fld := ⟨23, 16⟩
/-- `AQ_SWP_PLAUS.VPAIR`, RW: Pair-sum tolerance, mV. -/
def AQ_SWP_PLAUS_VPAIR : Fld := ⟨15, 8⟩
/-- `AQ_SWP_PLAUS.VDEV`, RW: Cell deviation threshold, mV. -/
def AQ_SWP_PLAUS_VDEV : Fld := ⟨7, 0⟩

/-- Address of `AQ_SWP_OWT` (R104). -/
def AQ_SWP_OWT : Nat := 0x42600034
/-- `AQ_SWP_OWT.PLSN`, RW: Records a signature must persist, 1 to 15; 0 refused. -/
def AQ_SWP_OWT_PLSN : Fld := ⟨19, 16⟩
/-- `AQ_SWP_OWT.OWTPER`, RW: Periodic open-wire test interval, minutes; 0 never. -/
def AQ_SWP_OWT_OWTPER : Fld := ⟨15, 0⟩

/-- Address of `AQ_SWP_STAT` (R104). -/
def AQ_SWP_STAT : Nat := 0x42600038
/-- `AQ_SWP_STAT.TAG`, RO: Tag of the latest sweep. -/
def AQ_SWP_STAT_TAG : Fld := ⟨31, 16⟩
/-- `AQ_SWP_STAT.PMODE`, RO: Per R518: 0 load, from R87 or the third item of R88; 1 near; 2 rest; 3 shorter period set by `ESREQ` or `PGMREQ`. -/
def AQ_SWP_STAT_PMODE : Fld := ⟨15, 14⟩
/-- `AQ_SWP_STAT.NOSYNC`, RO: PSYNC_IN windows suspended. -/
def AQ_SWP_STAT_NOSYNC : Fld := ⟨13, 13⟩

/-- Address of `AQ_SWP_EVT` (R104). -/
def AQ_SWP_EVT : Nat := 0x4260003c
/-- `AQ_SWP_EVT.REFUSED`, W1C: A write was refused. -/
def AQ_SWP_EVT_REFUSED : Fld := ⟨2, 2⟩
/-- `AQ_SWP_EVT.NOSYNC`, W1C: PSYNC_IN windows were suspended. -/
def AQ_SWP_EVT_NOSYNC : Fld := ⟨1, 1⟩
/-- `AQ_SWP_EVT.OVERRUN`, W1C: A sweep deadline was missed. -/
def AQ_SWP_EVT_OVERRUN : Fld := ⟨0, 0⟩

/-- Address of `AQ_SWP_CNT` (R104). -/
def AQ_SWP_CNT : Nat := 0x42600040
/-- `AQ_SWP_CNT.REFUSEDN`, RC: Occurrences of `REFUSED`, saturating at 255. -/
def AQ_SWP_CNT_REFUSEDN : Fld := ⟨23, 16⟩
/-- `AQ_SWP_CNT.NOSYNCN`, RC: Occurrences of `NOSYNC`, saturating. -/
def AQ_SWP_CNT_NOSYNCN : Fld := ⟨15, 8⟩
/-- `AQ_SWP_CNT.OVERRUNN`, RC: Occurrences of `OVERRUN`, saturating. -/
def AQ_SWP_CNT_OVERRUNN : Fld := ⟨7, 0⟩

/-- Address of `AQ_WIN_CTL` (R104). -/
def AQ_WIN_CTL : Nat := 0x42600100
/-- `AQ_WIN_CTL.POSTN`, RW: Sweeps written after a trigger. -/
def AQ_WIN_CTL_POSTN : Fld := ⟨15, 8⟩
/-- `AQ_WIN_CTL.HOLD`, RW: Keep the window frozen after the archive copy. -/
def AQ_WIN_CTL_HOLD : Fld := ⟨1, 1⟩
/-- `AQ_WIN_CTL.TRIG`, WO: 1 triggers a freeze. -/
def AQ_WIN_CTL_TRIG : Fld := ⟨0, 0⟩

/-- Address of `AQ_WIN_STAT` (R104). -/
def AQ_WIN_STAT : Nat := 0x42600104
/-- `AQ_WIN_STAT.NSWEEP`, RO: Whole sweeps the window holds at the present node count. -/
def AQ_WIN_STAT_NSWEEP : Fld := ⟨31, 16⟩
/-- `AQ_WIN_STAT.RETRIG`, RC: Further triggers from the first trigger until re-arm (R104), saturating at 255. -/
def AQ_WIN_STAT_RETRIG : Fld := ⟨15, 8⟩
/-- `AQ_WIN_STAT.ARCH`, RO: Archive copy in progress. -/
def AQ_WIN_STAT_ARCH : Fld := ⟨1, 1⟩
/-- `AQ_WIN_STAT.FROZEN`, RO: Window frozen. -/
def AQ_WIN_STAT_FROZEN : Fld := ⟨0, 0⟩

/-- Address of `AQ_LIM_PROF` (R124). -/
def AQ_LIM_PROF (n : Nat) (w : Nat) : Nat := 0x42602000 + n * 0x40 + w * 0x4
/-- `AQ_LIM_PROF.WORD`, RWL: Word w of limit profile n. -/
def AQ_LIM_PROF_WORD : Fld := ⟨31, 0⟩

/-- The register descriptors of the acquisition region (AQ), one row per register array (R3, R513). -/
def regRowsAQ0 : List RegRow := [
  -- AQ_PORT_CTL
  ⟨0x42000000, [(0x100000, 5), (0x1000, 4)], 0x43c0a6c, [⟨AQ_PORT_CTL_WAKE, .wo, 0, 1⟩, ⟨AQ_PORT_CTL_PINGAVG, .rw, 0, 4⟩, ⟨AQ_PORT_CTL_AUTHPER, .rwl, 0, 255⟩, ⟨AQ_PORT_CTL_TMKPER, .rw, 1, 100⟩, ⟨AQ_PORT_CTL_TXAMP, .rw, 0, 10⟩, ⟨AQ_PORT_CTL_MKEN, .rw, 0, 1⟩, ⟨AQ_PORT_CTL_AUTHREQ, .rwl, 0, 1⟩, ⟨AQ_PORT_CTL_RING, .ro, 0, 1⟩, ⟨AQ_PORT_CTL_EN, .rw, 0, 1⟩], EV_LINK_REFUSED⟩,
  -- AQ_PORT_STAT
  ⟨0x42000004, [(0x100000, 5), (0x1000, 4)], 0x0, [⟨AQ_PORT_STAT_ALLAUTH, .ro, 0, 1⟩, ⟨AQ_PORT_STAT_DLYVALID, .ro, 0, 1⟩, ⟨AQ_PORT_STAT_STATE, .ro, 0, 7⟩, ⟨AQ_PORT_STAT_ENDSEEN, .ro, 0, 1⟩, ⟨AQ_PORT_STAT_NODES, .ro, 0, 127⟩], EV_LINK_REFUSED⟩,
  -- AQ_PORT_EVT
  ⟨0x42000008, [(0x100000, 5), (0x1000, 4)], 0x0, [⟨AQ_PORT_EVT_DLYSHIFT, .w1c, 0, 1⟩, ⟨AQ_PORT_EVT_LATE, .w1c, 0, 1⟩, ⟨AQ_PORT_EVT_NAK, .w1c, 0, 1⟩, ⟨AQ_PORT_EVT_SWAP, .w1c, 0, 1⟩, ⟨AQ_PORT_EVT_AUTHFAIL, .w1c, 0, 1⟩, ⟨AQ_PORT_EVT_SLOTERR, .w1c, 0, 1⟩, ⟨AQ_PORT_EVT_MISSING, .w1c, 0, 1⟩, ⟨AQ_PORT_EVT_CRCERR, .w1c, 0, 1⟩], EV_LINK_REFUSED⟩,
  -- AQ_PORT_CNT0
  ⟨0x4200000c, [(0x100000, 5), (0x1000, 4)], 0x0, [⟨AQ_PORT_CNT0_AUTHFAILN, .rc, 0, 255⟩, ⟨AQ_PORT_CNT0_SLOTERRN, .rc, 0, 255⟩, ⟨AQ_PORT_CNT0_MISSINGN, .rc, 0, 255⟩, ⟨AQ_PORT_CNT0_CRCERRN, .rc, 0, 255⟩], EV_LINK_REFUSED⟩,
  -- AQ_PORT_CNT1
  ⟨0x42000010, [(0x100000, 5), (0x1000, 4)], 0x0, [⟨AQ_PORT_CNT1_DLYSHIFTN, .rc, 0, 255⟩, ⟨AQ_PORT_CNT1_LATEN, .rc, 0, 255⟩, ⟨AQ_PORT_CNT1_NAKN, .rc, 0, 255⟩, ⟨AQ_PORT_CNT1_SWAPN, .rc, 0, 255⟩], EV_LINK_REFUSED⟩,
  -- AQ_PORT_BRK
  ⟨0x42000014, [(0x100000, 5), (0x1000, 4)], 0x0, [⟨AQ_PORT_BRK_STALEMS, .ro, 0, 65535⟩, ⟨AQ_PORT_BRK_BRKVALID, .ro, 0, 1⟩, ⟨AQ_PORT_BRK_BRKPOS, .ro, 0, 127⟩, ⟨AQ_PORT_BRK_STALEN, .ro, 0, 127⟩], EV_SWP_REFUSED⟩,
  -- AQ_NODE_SERLO
  ⟨0x42000400, [(0x100000, 5), (0x1000, 4), (0x10, 64)], 0x0, [⟨AQ_NODE_SERLO_SER, .ro, 0, 4294967295⟩], EV_LINK_REFUSED⟩,
  -- AQ_NODE_SERHI
  ⟨0x42000404, [(0x100000, 5), (0x1000, 4), (0x10, 64)], 0x0, [⟨AQ_NODE_SERHI_SER, .ro, 0, 4294967295⟩], EV_LINK_REFUSED⟩,
  -- AQ_NODE_DLY
  ⟨0x42000408, [(0x100000, 5), (0x1000, 4), (0x10, 64)], 0x0, [⟨AQ_NODE_DLY_D1, .ro, 0, 65535⟩, ⟨AQ_NODE_DLY_D0, .ro, 0, 65535⟩], EV_LINK_REFUSED⟩,
  -- AQ_NODE_STAT
  ⟨0x4200040c, [(0x100000, 5), (0x1000, 4), (0x10, 64)], 0x0, [⟨AQ_NODE_STAT_BALTMR, .ro, 0, 255⟩, ⟨AQ_NODE_STAT_BALACT, .ro, 0, 1⟩, ⟨AQ_NODE_STAT_SWAPPED, .ro, 0, 1⟩, ⟨AQ_NODE_STAT_AUTH, .ro, 0, 1⟩, ⟨AQ_NODE_STAT_CELLS, .ro, 0, 31⟩, ⟨AQ_NODE_STAT_TYPE, .ro, 0, 15⟩], EV_LINK_REFUSED⟩,
  -- AQ_NODE_LIM
  ⟨0x42000800, [(0x100000, 5), (0x1000, 4), (0x4, 64)], 0x0, [⟨AQ_NODE_LIM_BRKL, .ro, 0, 524287⟩, ⟨AQ_NODE_LIM_PROF, .rwl, 0, 31⟩], EV_LINK_REFUSED⟩,
  -- AQ_LINK_BASE
  ⟨0x4200f000, [], 0x0, [⟨AQ_LINK_BASE_BASE, .rwl, 0, 64383⟩], EV_LINK_REFUSED⟩,
  -- AQ_AIC_CFG
  ⟨0x42500000, [(0x10, 8)], 0x580, [⟨AQ_AIC_CFG_AFEDLY, .rw, 0, 4095⟩, ⟨AQ_AIC_CFG_ODR, .rw, 0, 4⟩, ⟨AQ_AIC_CFG_RANGE, .rw, 0, 3⟩, ⟨AQ_AIC_CFG_EN, .rw, 0, 1⟩], EV_CUR_REFUSED⟩,
  -- AQ_AIC_SCL
  ⟨0x42500004, [(0x10, 8)], 0x0, [⟨AQ_AIC_SCL_SCALE, .rw, 0, 4294967295⟩], EV_CUR_REFUSED⟩,
  -- AQ_AIC_OFS
  ⟨0x42500008, [(0x10, 8)], 0x0, [⟨AQ_AIC_OFS_OFS, .rw, 0, 4294967295⟩], EV_CUR_REFUSED⟩,
  -- AQ_AIN_CFG
  ⟨0x42500100, [(0x4, 16)], 0xfff00044, [⟨AQ_AIN_CFG_HI, .rw, 0, 4095⟩, ⟨AQ_AIN_CFG_LO, .rw, 0, 4095⟩, ⟨AQ_AIN_CFG_PERS, .rw, 1, 15⟩, ⟨AQ_AIN_CFG_RATE, .rw, 0, 5⟩, ⟨AQ_AIN_CFG_EN, .rw, 0, 1⟩], EV_CUR_REFUSED⟩,
  -- AQ_CUR_SRC
  ⟨0x42500200, [(0x4, 12)], 0x10, [⟨AQ_CUR_SRC_EN, .rw, 0, 1⟩, ⟨AQ_CUR_SRC_POS, .rw, 0, 63⟩, ⟨AQ_CUR_SRC_PORT, .rw, 0, 17⟩], EV_CUR_REFUSED⟩,
  -- AQ_CUR_OFS
  ⟨0x42500240, [(0x4, 12)], 0x0, [⟨AQ_CUR_OFS_PHOFS, .ro, 0, 65535⟩, ⟨AQ_CUR_OFS_SHOFS, .ro, 0, 65535⟩], EV_CUR_REFUSED⟩,
  -- AQ_CUR_XCFG
  ⟨0x42500280, [], 0x147d0014, [⟨AQ_CUR_XCFG_XPCT, .rwl, 0, 255⟩, ⟨AQ_CUR_XCFG_ISMAX, .rwl, 0, 4095⟩, ⟨AQ_CUR_XCFG_XABS, .rwl, 0, 4095⟩], EV_CUR_REFUSED⟩,
  -- AQ_CUR_STAT
  ⟨0x42500284, [], 0x0, [⟨AQ_CUR_STAT_XFAIL, .ro, 0, 4095⟩, ⟨AQ_CUR_STAT_STALE, .ro, 0, 16383⟩], EV_CUR_REFUSED⟩,
  -- AQ_CUR_EVT
  ⟨0x42500288, [], 0x0, [⟨AQ_CUR_EVT_REFUSED, .w1c, 0, 1⟩, ⟨AQ_CUR_EVT_GAP, .w1c, 0, 1⟩, ⟨AQ_CUR_EVT_AINWIN, .w1c, 0, 1⟩, ⟨AQ_CUR_EVT_AICFLT, .w1c, 0, 1⟩, ⟨AQ_CUR_EVT_IMPLAUS, .w1c, 0, 1⟩, ⟨AQ_CUR_EVT_DISCARD, .w1c, 0, 1⟩, ⟨AQ_CUR_EVT_STALE, .w1c, 0, 1⟩, ⟨AQ_CUR_EVT_XCHK, .w1c, 0, 1⟩], EV_CUR_REFUSED⟩,
  -- AQ_CUR_CNT0
  ⟨0x4250028c, [], 0x0, [⟨AQ_CUR_CNT0_IMPLAUSN, .rc, 0, 255⟩, ⟨AQ_CUR_CNT0_DISCARDN, .rc, 0, 255⟩, ⟨AQ_CUR_CNT0_STALEN, .rc, 0, 255⟩, ⟨AQ_CUR_CNT0_XCHKN, .rc, 0, 255⟩], EV_CUR_REFUSED⟩,
  -- AQ_CUR_CNT1
  ⟨0x42500290, [], 0x0, [⟨AQ_CUR_CNT1_REFUSEDN, .rc, 0, 255⟩, ⟨AQ_CUR_CNT1_GAPN, .rc, 0, 255⟩, ⟨AQ_CUR_CNT1_AINWINN, .rc, 0, 255⟩, ⟨AQ_CUR_CNT1_AICFLTN, .rc, 0, 255⟩], EV_CUR_REFUSED⟩,
  -- AQ_SWP_CTL
  ⟨0x42600000, [], 0x323418, [⟨AQ_SWP_CTL_LEAD, .rw, 20, 255⟩, ⟨AQ_SWP_CTL_STALEN, .rw, 1, 15⟩, ⟨AQ_SWP_CTL_STRPER, .rw, 1, 15⟩, ⟨AQ_SWP_CTL_OWTNOW, .wo, 0, 1⟩, ⟨AQ_SWP_CTL_AUXDIV, .rw, 0, 7⟩, ⟨AQ_SWP_CTL_SNAP, .rw, 0, 1⟩, ⟨AQ_SWP_CTL_PIPE, .rw, 0, 1⟩, ⟨AQ_SWP_CTL_EN, .rw, 0, 1⟩], EV_SWP_REFUSED⟩,
  -- AQ_SWP_PER
  ⟨0x42600004, [], 0xa640064, [⟨AQ_SWP_PER_NREST, .rw, 1, 255⟩, ⟨AQ_SWP_PER_NNEAR, .rw, 1, 255⟩, ⟨AQ_SWP_PER_PLOAD, .rw, 50, 10000⟩], EV_SWP_REFUSED⟩
]

def regRowsAQ1 : List RegRow := [
  -- AQ_SWP_EPOCHLO
  ⟨0x42600008, [], 0x0, [⟨AQ_SWP_EPOCHLO_EPOCH, .rw, 0, 4294967295⟩], EV_SWP_REFUSED⟩,
  -- AQ_SWP_EPOCHHI
  ⟨0x4260000c, [], 0x0, [⟨AQ_SWP_EPOCHHI_EPOCH, .rw, 0, 4294967295⟩], EV_SWP_REFUSED⟩,
  -- AQ_SWP_ADAPT
  ⟨0x42600010, [], 0x0, [⟨AQ_SWP_ADAPT_IREST, .rw, 0, 65535⟩, ⟨AQ_SWP_ADAPT_ILOAD, .rw, 0, 65535⟩], EV_SWP_REFUSED⟩,
  -- AQ_SWP_DWELL
  ⟨0x42600014, [], 0x3c0064, [⟨AQ_SWP_DWELL_TREST, .rw, 0, 65535⟩, ⟨AQ_SWP_DWELL_TNEAR, .rw, 0, 65535⟩], EV_SWP_REFUSED⟩,
  -- AQ_SWP_REQ
  ⟨0x42600018, [], 0x0, [⟨AQ_SWP_REQ_PGMREQ, .rw, 0, 65535⟩, ⟨AQ_SWP_REQ_ESREQ, .rw, 0, 65535⟩], EV_SWP_REFUSED⟩,
  -- AQ_SWP_BLK
  ⟨0x42600020, [(0x4, 4)], 0x0, [⟨AQ_SWP_BLK_OFFSET, .rw, 0, 65535⟩, ⟨AQ_SWP_BLK_WIDTH, .rw, 0, 4095⟩], EV_SWP_REFUSED⟩,
  -- AQ_SWP_PLAUS
  ⟨0x42600030, [], 0x141e0a1e, [⟨AQ_SWP_PLAUS_OWTDV, .rw, 0, 255⟩, ⟨AQ_SWP_PLAUS_RTOL, .rw, 0, 255⟩, ⟨AQ_SWP_PLAUS_VPAIR, .rw, 0, 255⟩, ⟨AQ_SWP_PLAUS_VDEV, .rw, 0, 255⟩], EV_SWP_REFUSED⟩,
  -- AQ_SWP_OWT
  ⟨0x42600034, [], 0x2000a, [⟨AQ_SWP_OWT_PLSN, .rw, 1, 15⟩, ⟨AQ_SWP_OWT_OWTPER, .rw, 0, 65535⟩], EV_SWP_REFUSED⟩,
  -- AQ_SWP_STAT
  ⟨0x42600038, [], 0x0, [⟨AQ_SWP_STAT_TAG, .ro, 0, 65535⟩, ⟨AQ_SWP_STAT_PMODE, .ro, 0, 3⟩, ⟨AQ_SWP_STAT_NOSYNC, .ro, 0, 1⟩], EV_SWP_REFUSED⟩,
  -- AQ_SWP_EVT
  ⟨0x4260003c, [], 0x0, [⟨AQ_SWP_EVT_REFUSED, .w1c, 0, 1⟩, ⟨AQ_SWP_EVT_NOSYNC, .w1c, 0, 1⟩, ⟨AQ_SWP_EVT_OVERRUN, .w1c, 0, 1⟩], EV_SWP_REFUSED⟩,
  -- AQ_SWP_CNT
  ⟨0x42600040, [], 0x0, [⟨AQ_SWP_CNT_REFUSEDN, .rc, 0, 255⟩, ⟨AQ_SWP_CNT_NOSYNCN, .rc, 0, 255⟩, ⟨AQ_SWP_CNT_OVERRUNN, .rc, 0, 255⟩], EV_SWP_REFUSED⟩,
  -- AQ_WIN_CTL
  ⟨0x42600100, [], 0xa00, [⟨AQ_WIN_CTL_POSTN, .rw, 0, 255⟩, ⟨AQ_WIN_CTL_HOLD, .rw, 0, 1⟩, ⟨AQ_WIN_CTL_TRIG, .wo, 0, 1⟩], EV_SWP_REFUSED⟩,
  -- AQ_WIN_STAT
  ⟨0x42600104, [], 0x0, [⟨AQ_WIN_STAT_NSWEEP, .ro, 0, 65535⟩, ⟨AQ_WIN_STAT_RETRIG, .rc, 0, 255⟩, ⟨AQ_WIN_STAT_ARCH, .ro, 0, 1⟩, ⟨AQ_WIN_STAT_FROZEN, .ro, 0, 1⟩], EV_SWP_REFUSED⟩,
  -- AQ_LIM_PROF
  ⟨0x42602000, [(0x40, 32), (0x4, 16)], 0x0, [⟨AQ_LIM_PROF_WORD, .rwl, 0, 4294967295⟩], EV_SWP_REFUSED⟩
]

/-- All register rows of the acquisition region (AQ). -/
def regRowsAQ : List RegRow := regRowsAQ0 ++ regRowsAQ1

end Sys2Proof.Machine
end

