-- ==== Sys2Proof/Machine/RegsCT.lean ====
section
/-!
DEFINITION. The registers of the control region (CT): addresses, fields, access types, ranges and reset values, from the register tables of the spec.
-/

namespace Sys2Proof.Machine

/-- Address of `CT_LT_CFG` (R344). -/
def CT_LT_CFG (n : Nat) : Nat := 0x44200400 + n * 0x4
/-- `CT_LT_CFG.DUTY`, RW: High time, 1/1,024 of the period, 0 to 1,024; others refused. -/
def CT_LT_CFG_DUTY : Fld := ⟨31, 21⟩
/-- `CT_LT_CFG.EN`, RW: Timer running; 0 holds the output low. -/
def CT_LT_CFG_EN : Fld := ⟨20, 20⟩
/-- `CT_LT_CFG.PERIOD`, RW: Period, µs, 40 to 1,000,000; checked per R332. -/
def CT_LT_CFG_PERIOD : Fld := ⟨19, 0⟩

/-- Address of `CT_TIME_CTL` (R415). -/
def CT_TIME_CTL : Nat := 0x44201000
/-- `CT_TIME_CTL.DISC`, RW: Disciplined, per R410. -/
def CT_TIME_CTL_DISC : Fld := ⟨31, 31⟩
/-- `CT_TIME_CTL.TLOSS`, RW: Loss time, 100 ms units, 1 to 255; 0 refused. -/
def CT_TIME_CTL_TLOSS : Fld := ⟨23, 16⟩
/-- `CT_TIME_CTL.SLEW`, RW: Phase slew, ppm, 1 to 1,000; others refused. -/
def CT_TIME_CTL_SLEW : Fld := ⟨15, 0⟩

/-- Address of `CT_TIME_RATE` (R415). -/
def CT_TIME_RATE : Nat := 0x44201004
/-- `CT_TIME_RATE.RATE`, RW: Signed, 0.01 ppb units, ±100,000,000, others refused; signed correction or remainder, ns; unsigned step, ns, under R409. -/
def CT_TIME_RATE_RATE : Fld := ⟨31, 0⟩

/-- Address of `CT_TIME_PHASE` (R415). -/
def CT_TIME_PHASE : Nat := 0x44201008
/-- `CT_TIME_PHASE.PHASE`, RW: Signed, 0.01 ppb units, ±100,000,000, others refused; signed correction or remainder, ns; unsigned step, ns, under R409. -/
def CT_TIME_PHASE_PHASE : Fld := ⟨31, 0⟩

/-- Address of `CT_TIME_STEP` (R415). -/
def CT_TIME_STEP : Nat := 0x4420100c
/-- `CT_TIME_STEP.STEP`, WO: Signed, 0.01 ppb units, ±100,000,000, others refused; signed correction or remainder, ns; unsigned step, ns, under R409. -/
def CT_TIME_STEP_STEP : Fld := ⟨31, 0⟩

/-- Address of `CT_PLANT` (R415). -/
def CT_PLANT : Nat := 0x44201010
/-- `CT_PLANT.PIDX`, RWL: Plant index, 0 to 55; 56–63 refused. -/
def CT_PLANT_PIDX : Fld := ⟨5, 0⟩

/-- Address of `ETH_CTL` (R415). -/
def ETH_CTL (m : Nat) : Nat := 0x44202000 + m * 0x1000
/-- `ETH_CTL.EN`, RW: MAC on. -/
def ETH_CTL_EN : Fld := ⟨31, 31⟩
/-- `ETH_CTL.SPEED`, RW: 0 10, 1 100, 2 1,000 Mbit/s; 3 refused. -/
def ETH_CTL_SPEED : Fld := ⟨30, 29⟩
/-- `ETH_CTL.VMODE`, RW: Per R402; 3 refused. -/
def ETH_CTL_VMODE : Fld := ⟨28, 27⟩
/-- `ETH_CTL.PTPEN`, RW: Accept the PTP addresses. -/
def ETH_CTL_PTPEN : Fld := ⟨26, 26⟩
/-- `ETH_CTL.MCALL`, RW: Accept every multicast. -/
def ETH_CTL_MCALL : Fld := ⟨25, 25⟩
/-- `ETH_CTL.PHYAD`, RW: PHY address. -/
def ETH_CTL_PHYAD : Fld := ⟨24, 20⟩

/-- Address of `ETH_ADDRLO` (R415). -/
def ETH_ADDRLO (m : Nat) : Nat := 0x44202004 + m * 0x1000
/-- `ETH_ADDRLO.ADDR`, RW: LO: address bytes 2–5, byte 5 in [7:0]; HI: bytes 0–1 in [15:0], [31:16] reserved. -/
def ETH_ADDRLO_ADDR : Fld := ⟨31, 0⟩

/-- Address of `ETH_ADDRHI` (R415). -/
def ETH_ADDRHI (m : Nat) : Nat := 0x44202008 + m * 0x1000
/-- `ETH_ADDRHI.ADDR`, RW: LO: address bytes 2–5, byte 5 in [7:0]; HI: bytes 0–1 in [15:0], [31:16] reserved. -/
def ETH_ADDRHI_ADDR : Fld := ⟨15, 0⟩

/-- Address of `ETH_QMAP` (R415). -/
def ETH_QMAP (m : Nat) : Nat := 0x4420200c + m * 0x1000
/-- `ETH_QMAP.DEFEN`, RW: Unmatched frames to `DEFQ`. -/
def ETH_QMAP_DEFEN : Fld := ⟨31, 31⟩
/-- `ETH_QMAP.FREEQ`, RW: Free-buffer queue. -/
def ETH_QMAP_FREEQ : Fld := ⟨29, 24⟩
/-- `ETH_QMAP.TXQ`, RW: Transmit queue. -/
def ETH_QMAP_TXQ : Fld := ⟨23, 18⟩
/-- `ETH_QMAP.TXDONEQ`, RW: Completion queue. -/
def ETH_QMAP_TXDONEQ : Fld := ⟨17, 12⟩
/-- `ETH_QMAP.DEFQ`, RW: Default receive queue. -/
def ETH_QMAP_DEFQ : Fld := ⟨11, 6⟩

/-- Address of `ETH_DLY` (R415). -/
def ETH_DLY (m : Nat) : Nat := 0x44202010 + m * 0x1000
/-- `ETH_DLY.RXDLY`, RW: Receive stamp correction, signed, ns. -/
def ETH_DLY_RXDLY : Fld := ⟨31, 16⟩
/-- `ETH_DLY.TXDLY`, RW: Transmit stamp correction, signed, ns. -/
def ETH_DLY_TXDLY : Fld := ⟨15, 0⟩

/-- Address of `ETH_STAT` (R415). -/
def ETH_STAT (m : Nat) : Nat := 0x44202014 + m * 0x1000
/-- `ETH_STAT.LINK`, RO: PHY reports link. -/
def ETH_STAT_LINK : Fld := ⟨31, 31⟩

/-- Address of `ETH_EVT` (R415). -/
def ETH_EVT (m : Nat) : Nat := 0x44202018 + m * 0x1000
/-- `ETH_EVT.REFUSED`, W1C: A write was refused. -/
def ETH_EVT_REFUSED : Fld := ⟨5, 5⟩
/-- `ETH_EVT.TXTO`, W1C: A frame was discarded unsent. -/
def ETH_EVT_TXTO : Fld := ⟨4, 4⟩
/-- `ETH_EVT.OVSZ`, W1C: A frame exceeded its buffer. -/
def ETH_EVT_OVSZ : Fld := ⟨3, 3⟩
/-- `ETH_EVT.NOBUF`, W1C: No free buffer. -/
def ETH_EVT_NOBUF : Fld := ⟨2, 2⟩
/-- `ETH_EVT.BADFR`, W1C: A frame failed FCS, length or VLAN acceptance. -/
def ETH_EVT_BADFR : Fld := ⟨1, 1⟩
/-- `ETH_EVT.LINKCHG`, W1C: Link changed. -/
def ETH_EVT_LINKCHG : Fld := ⟨0, 0⟩

/-- Address of `ETH_CNT0` (R415). -/
def ETH_CNT0 (m : Nat) : Nat := 0x4420201c + m * 0x1000
/-- `ETH_CNT0.BADFRN`, RC: Occurrences, saturating at 255 (CNT0, CNT1). -/
def ETH_CNT0_BADFRN : Fld := ⟨31, 24⟩
/-- `ETH_CNT0.NOBUFN`, RC: Occurrences, saturating. -/
def ETH_CNT0_NOBUFN : Fld := ⟨23, 16⟩
/-- `ETH_CNT0.OVSZN`, RC: CNT0: occurrences, saturating. CNT1: reserved. -/
def ETH_CNT0_OVSZN : Fld := ⟨15, 8⟩
/-- `ETH_CNT0.LINKCHGN`, RC: CNT0: occurrences, saturating. CNT1: reserved. -/
def ETH_CNT0_LINKCHGN : Fld := ⟨7, 0⟩

/-- Address of `ETH_CNT1` (R415). -/
def ETH_CNT1 (m : Nat) : Nat := 0x44202020 + m * 0x1000
/-- `ETH_CNT1.REFUSEDN`, RC: Occurrences, saturating at 255 (CNT0, CNT1). -/
def ETH_CNT1_REFUSEDN : Fld := ⟨31, 24⟩
/-- `ETH_CNT1.TXTON`, RC: Occurrences, saturating. -/
def ETH_CNT1_TXTON : Fld := ⟨23, 16⟩

/-- Address of `ETH_VID` (R415). -/
def ETH_VID (m : Nat) (k : Nat) : Nat := 0x44202040 + m * 0x1000 + k * 0x4
/-- `ETH_VID.VEN`, RW: Entry enabled. -/
def ETH_VID_VEN : Fld := ⟨12, 12⟩
/-- `ETH_VID.VID`, RW: VLAN identifier, 1 to 4,094; others refused. -/
def ETH_VID_VID : Fld := ⟨11, 0⟩

/-- Address of `ETH_RULE` (R415). -/
def ETH_RULE (m : Nat) (k : Nat) : Nat := 0x44202080 + m * 0x1000 + k * 0x4
/-- `ETH_RULE.REN`, RW: Rule enabled. -/
def ETH_RULE_REN : Fld := ⟨31, 31⟩
/-- `ETH_RULE.RKIND`, RW: 0 EtherType, 1 UDP port, 2 VID; 3 refused. -/
def ETH_RULE_RKIND : Fld := ⟨29, 28⟩
/-- `ETH_RULE.RQ`, RW: Target queue. -/
def ETH_RULE_RQ : Fld := ⟨27, 22⟩
/-- `ETH_RULE.RVAL`, RW: Value matched. -/
def ETH_RULE_RVAL : Fld := ⟨15, 0⟩

/-- Address of `CAN_CTL` (R399). -/
def CAN_CTL (n : Nat) : Nat := 0x44208000 + n * 0x4000
/-- `CAN_CTL.EN`, RW: Controller on; checked under R381. -/
def CAN_CTL_EN : Fld := ⟨31, 31⟩
/-- `CAN_CTL.FDE`, RW: FD frames enabled. -/
def CAN_CTL_FDE : Fld := ⟨30, 30⟩
/-- `CAN_CTL.MODE`, RW: 0 normal, 1 listen-only, 2 internal loopback; 3 refused. -/
def CAN_CTL_MODE : Fld := ⟨29, 28⟩
/-- `CAN_CTL.BORMODE`, RW: 0 automatic recovery, 1 program release. -/
def CAN_CTL_BORMODE : Fld := ⟨27, 27⟩
/-- `CAN_CTL.BOREL`, WO: 1 starts bus-off recovery. -/
def CAN_CTL_BOREL : Fld := ⟨26, 26⟩
/-- `CAN_CTL.STBY`, RW: CANn_STB high. -/
def CAN_CTL_STBY : Fld := ⟨25, 25⟩
/-- `CAN_CTL.PXHD`, RW: Protocol exception disabled. -/
def CAN_CTL_PXHD : Fld := ⟨24, 24⟩

/-- Address of `CAN_NBT` (R399). -/
def CAN_NBT (n : Nat) : Nat := 0x44208004 + n * 0x4000
/-- `CAN_NBT.NBRP`, RW: Nominal prescaler − 1, 0 to 255. -/
def CAN_NBT_NBRP : Fld := ⟨31, 24⟩
/-- `CAN_NBT.NTSEG1`, RW: Segment 1 − 1, 1 to 255. -/
def CAN_NBT_NTSEG1 : Fld := ⟨23, 16⟩
/-- `CAN_NBT.NTSEG2`, RW: Segment 2 − 1, 1 to 127. -/
def CAN_NBT_NTSEG2 : Fld := ⟨15, 9⟩
/-- `CAN_NBT.NSJW`, RW: Jump width − 1, 0 to 127. -/
def CAN_NBT_NSJW : Fld := ⟨8, 2⟩
/-- `CAN_NBT.TRIPLE`, RW: Triple sampling, R382. -/
def CAN_NBT_TRIPLE : Fld := ⟨1, 1⟩

/-- Address of `CAN_DBT` (R399). -/
def CAN_DBT (n : Nat) : Nat := 0x44208008 + n * 0x4000
/-- `CAN_DBT.DBRP`, RW: Data prescaler − 1, 0 to 31. -/
def CAN_DBT_DBRP : Fld := ⟨26, 22⟩
/-- `CAN_DBT.DTSEG1`, RW: Segment 1 − 1, 0 to 31. -/
def CAN_DBT_DTSEG1 : Fld := ⟨21, 17⟩
/-- `CAN_DBT.DTSEG2`, RW: Segment 2 − 1, 0 to 15. -/
def CAN_DBT_DTSEG2 : Fld := ⟨16, 13⟩
/-- `CAN_DBT.DSJW`, RW: Jump width − 1, 0 to 15. -/
def CAN_DBT_DSJW : Fld := ⟨12, 9⟩

/-- Address of `CAN_TDC` (R399). -/
def CAN_TDC (n : Nat) : Nat := 0x4420800c + n * 0x4000
/-- `CAN_TDC.TDCEN`, RW: Transmitter delay compensation on. -/
def CAN_TDC_TDCEN : Fld := ⟨31, 31⟩
/-- `CAN_TDC.TDCO`, RW: Offset, 80 MHz cycles. -/
def CAN_TDC_TDCO : Fld := ⟨30, 24⟩
/-- `CAN_TDC.TDCV`, RO: Latest measured delay, 80 MHz cycles. -/
def CAN_TDC_TDCV : Fld := ⟨15, 8⟩

/-- Address of `CAN_ERR` (R399). -/
def CAN_ERR (n : Nat) : Nat := 0x44208010 + n * 0x4000
/-- `CAN_ERR.STATE`, RO: 0 error-active, 1 error-passive, 2 bus-off, 3 recovering. -/
def CAN_ERR_STATE : Fld := ⟨29, 28⟩
/-- `CAN_ERR.LEC`, RO: Latest error: 0 none, 1 stuff, 2 form, 3 ACK, 4 bit recessive, 5 bit dominant, 6 CRC, 7 delay compensation. -/
def CAN_ERR_LEC : Fld := ⟨27, 24⟩
/-- `CAN_ERR.REC`, RO: Receive error counter. -/
def CAN_ERR_REC : Fld := ⟨23, 16⟩
/-- `CAN_ERR.TEC`, RO: Transmit error counter. -/
def CAN_ERR_TEC : Fld := ⟨8, 0⟩

/-- Address of `CAN_EVT` (R399). -/
def CAN_EVT (n : Nat) : Nat := 0x44208014 + n * 0x4000
/-- `CAN_EVT.REFUSED`, W1C: A write was refused. -/
def CAN_EVT_REFUSED : Fld := ⟨7, 7⟩
/-- `CAN_EVT.TMLOST`, W1C: Reference time lost. -/
def CAN_EVT_TMLOST : Fld := ⟨6, 6⟩
/-- `CAN_EVT.COLL`, W1C: Identifier collision suspected. -/
def CAN_EVT_COLL : Fld := ⟨5, 5⟩
/-- `CAN_EVT.LOST`, W1C: A received frame was discarded. -/
def CAN_EVT_LOST : Fld := ⟨4, 4⟩
/-- `CAN_EVT.BUSOFF`, W1C: Bus-off entered. -/
def CAN_EVT_BUSOFF : Fld := ⟨3, 3⟩
/-- `CAN_EVT.PASSIVE`, W1C: Error-passive entered. -/
def CAN_EVT_PASSIVE : Fld := ⟨2, 2⟩
/-- `CAN_EVT.TDC`, W1C: Delay compensation failed. -/
def CAN_EVT_TDC : Fld := ⟨1, 1⟩
/-- `CAN_EVT.ERR`, W1C: A protocol error. -/
def CAN_EVT_ERR : Fld := ⟨0, 0⟩

/-- Address of `CAN_CNT0` (R399). -/
def CAN_CNT0 (n : Nat) : Nat := 0x44208018 + n * 0x4000
/-- `CAN_CNT0.TDCN`, RC: Occurrences, saturating at 255 (CNT0, CNT1). -/
def CAN_CNT0_TDCN : Fld := ⟨31, 24⟩
/-- `CAN_CNT0.PASSIVEN`, RC: Occurrences, saturating. -/
def CAN_CNT0_PASSIVEN : Fld := ⟨23, 16⟩
/-- `CAN_CNT0.BUSOFFN`, RC: Occurrences, saturating. -/
def CAN_CNT0_BUSOFFN : Fld := ⟨15, 8⟩
/-- `CAN_CNT0.LOSTN`, RC: Occurrences, saturating. -/
def CAN_CNT0_LOSTN : Fld := ⟨7, 0⟩

/-- Address of `CAN_CNT1` (R399). -/
def CAN_CNT1 (n : Nat) : Nat := 0x4420801c + n * 0x4000
/-- `CAN_CNT1.COLLN`, RC: Occurrences, saturating at 255 (CNT0, CNT1). -/
def CAN_CNT1_COLLN : Fld := ⟨31, 24⟩
/-- `CAN_CNT1.TMLOSTN`, RC: Occurrences, saturating. -/
def CAN_CNT1_TMLOSTN : Fld := ⟨23, 16⟩
/-- `CAN_CNT1.REFUSEDN`, RC: Occurrences, saturating. -/
def CAN_CNT1_REFUSEDN : Fld := ⟨15, 8⟩
/-- `CAN_CNT1.ERRN`, RC: Occurrences, saturating. -/
def CAN_CNT1_ERRN : Fld := ⟨7, 0⟩

/-- Address of `CAN_TXCMD` (R399). -/
def CAN_TXCMD (n : Nat) : Nat := 0x44208020 + n * 0x4000
/-- `CAN_TXCMD.COMMIT`, WO: 1 commits the shadow under R386. -/
def CAN_TXCMD_COMMIT : Fld := ⟨31, 31⟩
/-- `CAN_TXCMD.ABORT`, WO: 1 aborts under R388. -/
def CAN_TXCMD_ABORT : Fld := ⟨30, 30⟩
/-- `CAN_TXCMD.EXP`, WO: 1 names the express buffer; `BUF` ignored. -/
def CAN_TXCMD_EXP : Fld := ⟨29, 29⟩
/-- `CAN_TXCMD.BUF`, WO: Buffer, 0 to 63. -/
def CAN_TXCMD_BUF : Fld := ⟨5, 0⟩

/-- Address of `CAN_TXCFG` (R399). -/
def CAN_TXCFG (n : Nat) : Nat := 0x44208024 + n * 0x4000
/-- `CAN_TXCFG.DQEN`, RW: Completion descriptors to `DONEQ`. -/
def CAN_TXCFG_DQEN : Fld := ⟨31, 31⟩
/-- `CAN_TXCFG.DONEQ`, RW: Completion queue, 0 to 63. -/
def CAN_TXCFG_DONEQ : Fld := ⟨29, 24⟩
/-- `CAN_TXCFG.EXPDEST`, RW: Grain for express completions, per R167. -/
def CAN_TXCFG_EXPDEST : Fld := ⟨23, 12⟩
/-- `CAN_TXCFG.EVDEST`, RW: Grain for descriptor codes 4 to 6. -/
def CAN_TXCFG_EVDEST : Fld := ⟨11, 0⟩

/-- Address of `CAN_TXPENDLO` (R399). -/
def CAN_TXPENDLO (n : Nat) : Nat := 0x44208028 + n * 0x4000
/-- `CAN_TXPENDLO.TXPEND`, RO: Bit b of LO, bit b − 32 of HI: buffer b pending; buffer b's copy deferred. -/
def CAN_TXPENDLO_TXPEND : Fld := ⟨31, 0⟩

/-- Address of `CAN_TXPENDHI` (R399). -/
def CAN_TXPENDHI (n : Nat) : Nat := 0x4420802c + n * 0x4000
/-- `CAN_TXPENDHI.TXPEND`, RO: Bit b of LO, bit b − 32 of HI: buffer b pending; buffer b's copy deferred. -/
def CAN_TXPENDHI_TXPEND : Fld := ⟨31, 0⟩

/-- Address of `CAN_TXSWPLO` (R399). -/
def CAN_TXSWPLO (n : Nat) : Nat := 0x44208030 + n * 0x4000
/-- `CAN_TXSWPLO.TXSWP`, RO: Bit b of LO, bit b − 32 of HI: buffer b pending; buffer b's copy deferred. -/
def CAN_TXSWPLO_TXSWP : Fld := ⟨31, 0⟩

/-- Address of `CAN_TXSWPHI` (R399). -/
def CAN_TXSWPHI (n : Nat) : Nat := 0x44208034 + n * 0x4000
/-- `CAN_TXSWPHI.TXSWP`, RO: Bit b of LO, bit b − 32 of HI: buffer b pending; buffer b's copy deferred. -/
def CAN_TXSWPHI_TXSWP : Fld := ⟨31, 0⟩

/-- Address of `CAN_TXSTAT` (R399). -/
def CAN_TXSTAT (n : Nat) : Nat := 0x44208038 + n * 0x4000
/-- `CAN_TXSTAT.EXPPEND`, RO: Express buffer pending. -/
def CAN_TXSTAT_EXPPEND : Fld := ⟨31, 31⟩
/-- `CAN_TXSTAT.EXPSWP`, RO: Express copy deferred. -/
def CAN_TXSTAT_EXPSWP : Fld := ⟨30, 30⟩
/-- `CAN_TXSTAT.TXACT`, RO: A frame in transmission. -/
def CAN_TXSTAT_TXACT : Fld := ⟨29, 29⟩
/-- `CAN_TXSTAT.ACTBUF`, RO: Buffer in transmission; 64 express, 65 reference. -/
def CAN_TXSTAT_ACTBUF : Fld := ⟨22, 16⟩

/-- Address of `CAN_COLL` (R399). -/
def CAN_COLL (n : Nat) : Nat := 0x4420803c + n * 0x4000
/-- `CAN_COLL.COLLTH`, RW: Collision threshold, 1 to 255; 0 refused. -/
def CAN_COLL_COLLTH : Fld := ⟨31, 24⟩
/-- `CAN_COLL.COLLBUF`, RO: Buffer of the latest suspicion; 64 express. -/
def CAN_COLL_COLLBUF : Fld := ⟨14, 8⟩
/-- `CAN_COLL.COLLRUN`, RO: Present run count, saturating. -/
def CAN_COLL_COLLRUN : Fld := ⟨7, 0⟩

/-- Address of `CAN_FIFOCTL` (R399). -/
def CAN_FIFOCTL (n : Nat) (f : Nat) : Nat := 0x44208040 + n * 0x4000 + f * 0x4
/-- `CAN_FIFOCTL.POP`, WO: 1 releases the head message. -/
def CAN_FIFOCTL_POP : Fld := ⟨31, 31⟩
/-- `CAN_FIFOCTL.FEN`, RW: FIFO enabled; frames for a disabled FIFO are rejected. -/
def CAN_FIFOCTL_FEN : Fld := ⟨30, 30⟩
/-- `CAN_FIFOCTL.WMDEST`, RW: Grain for the watermark descriptor. -/
def CAN_FIFOCTL_WMDEST : Fld := ⟨23, 12⟩
/-- `CAN_FIFOCTL.WMARK`, RW: Watermark, 1 to 32; 0 none; above 32 refused. -/
def CAN_FIFOCTL_WMARK : Fld := ⟨11, 6⟩
/-- `CAN_FIFOCTL.FCOUNT`, RO: Messages held. -/
def CAN_FIFOCTL_FCOUNT : Fld := ⟨5, 0⟩

/-- Address of `CAN_FILTCFG` (R399). -/
def CAN_FILTCFG (n : Nat) : Nat := 0x44208048 + n * 0x4000
/-- `CAN_FILTCFG.NOMATCH`, RW: 0 reject, 1 FIFO 0, 2 FIFO 1; 3 refused. -/
def CAN_FILTCFG_NOMATCH : Fld := ⟨1, 0⟩

/-- Address of `CAN_TM_CTL` (R399). -/
def CAN_TM_CTL (n : Nat) : Nat := 0x44208080 + n * 0x4000
/-- `CAN_TM_CTL.TMODE`, RW: 0 off, 1 slave, 2 master, 3 backup master. -/
def CAN_TM_CTL_TMODE : Fld := ⟨31, 30⟩
/-- `CAN_TM_CTL.IDE`, RW: `RMID` extended. -/
def CAN_TM_CTL_IDE : Fld := ⟨29, 29⟩
/-- `CAN_TM_CTL.RMID`, RW: Reference identifier. -/
def CAN_TM_CTL_RMID : Fld := ⟨28, 0⟩

/-- Address of `CAN_TM_PER` (R399). -/
def CAN_TM_PER (n : Nat) : Nat := 0x44208084 + n * 0x4000
/-- `CAN_TM_PER.RMTO`, RW: Loss time, ms, 1 to 65,535; 0 refused. -/
def CAN_TM_PER_RMTO : Fld := ⟨31, 16⟩
/-- `CAN_TM_PER.RMPER`, RW: Period, 100 µs units, 1 to 10,000; others refused. -/
def CAN_TM_PER_RMPER : Fld := ⟨15, 0⟩

/-- Address of `CAN_TM_DLY` (R399). -/
def CAN_TM_DLY (n : Nat) : Nat := 0x44208088 + n * 0x4000
/-- `CAN_TM_DLY.RMDLY`, RW: Delay compensation, signed, ns. -/
def CAN_TM_DLY_RMDLY : Fld := ⟨15, 0⟩

/-- Address of `CAN_TM_OFS` (R399). -/
def CAN_TM_OFS (n : Nat) : Nat := 0x4420808c + n * 0x4000
/-- `CAN_TM_OFS.TMOFS`, RO: Signed: offset, ns, saturating; rate, ppb. -/
def CAN_TM_OFS_TMOFS : Fld := ⟨31, 0⟩

/-- Address of `CAN_TM_RATE` (R399). -/
def CAN_TM_RATE (n : Nat) : Nat := 0x44208090 + n * 0x4000
/-- `CAN_TM_RATE.TMRATE`, RO: Signed: offset, ns, saturating; rate, ppb. -/
def CAN_TM_RATE_TMRATE : Fld := ⟨31, 0⟩

/-- Address of `CAN_TM_STAT` (R399). -/
def CAN_TM_STAT (n : Nat) : Nat := 0x44208094 + n * 0x4000
/-- `CAN_TM_STAT.TMVALID`, RO: An offset formed within `RMTO`. -/
def CAN_TM_STAT_TMVALID : Fld := ⟨31, 31⟩
/-- `CAN_TM_STAT.MDISC`, RO: Byte 0 bit 7 of the latest reference message. -/
def CAN_TM_STAT_MDISC : Fld := ⟨30, 30⟩
/-- `CAN_TM_STAT.SEQ`, RO: Sequence of the latest reference message. -/
def CAN_TM_STAT_SEQ : Fld := ⟨5, 0⟩

/-- Address of `CAN_TM_SOFLO` (R399). -/
def CAN_TM_SOFLO (n : Nat) : Nat := 0x44208098 + n * 0x4000
/-- `CAN_TM_SOFLO.TMSOF`, RO: Chip time of the latest reference SOF, per R173. -/
def CAN_TM_SOFLO_TMSOF : Fld := ⟨31, 0⟩

/-- Address of `CAN_TM_SOFHI` (R399). -/
def CAN_TM_SOFHI (n : Nat) : Nat := 0x4420809c + n * 0x4000
/-- `CAN_TM_SOFHI.TMSOF`, RO: Chip time of the latest reference SOF, per R173. -/
def CAN_TM_SOFHI_TMSOF : Fld := ⟨31, 0⟩

/-- Address of `CAN_FIFO` (R399). -/
def CAN_FIFO (n : Nat) (f : Nat) (w : Nat) : Nat := 0x44208400 + n * 0x4000 + f * 0x80 + w * 0x4
/-- `CAN_FIFO.WORD`, RO: Word w of the head message of FIFO f. -/
def CAN_FIFO_WORD : Fld := ⟨31, 0⟩

/-- Address of `CAN_FLTID` (R399). -/
def CAN_FLTID (n : Nat) (k : Nat) : Nat := 0x44208800 + n * 0x4000 + k * 0x8
/-- `CAN_FLTID.TGT`, RW: 0 reject, 1 FIFO 0, 2 FIFO 1, 3 disabled. -/
def CAN_FLTID_TGT : Fld := ⟨31, 30⟩
/-- `CAN_FLTID.IDE`, RW: Extended identifier. -/
def CAN_FLTID_IDE : Fld := ⟨29, 29⟩
/-- `CAN_FLTID.ID`, RW: Identifier, in the layout of word 0. -/
def CAN_FLTID_ID : Fld := ⟨28, 0⟩

/-- Address of `CAN_FLTMSK` (R399). -/
def CAN_FLTMSK (n : Nat) (k : Nat) : Nat := 0x44208804 + n * 0x4000 + k * 0x8
/-- `CAN_FLTMSK.FMT`, RW: 0 any, 1 classical only, 2 FD only; 3 refused. -/
def CAN_FLTMSK_FMT : Fld := ⟨31, 30⟩
/-- `CAN_FLTMSK.MASK`, RW: Bit set: compared. -/
def CAN_FLTMSK_MASK : Fld := ⟨28, 0⟩

/-- Address of `CAN_SHADOW` (R399). -/
def CAN_SHADOW (n : Nat) (b : Nat) (w : Nat) : Nat := 0x44209000 + n * 0x4000 + b * 0x80 + w * 0x4
/-- `CAN_SHADOW.WORD`, RW: Word w of the shadow of transmit buffer b. -/
def CAN_SHADOW_WORD : Fld := ⟨31, 0⟩

/-- Address of `CAN_EXPRESS` (R399). -/
def CAN_EXPRESS (n : Nat) (w : Nat) : Nat := 0x4420b000 + n * 0x4000 + w * 0x4
/-- `CAN_EXPRESS.WORD`, RW: Word w of the shadow of the express buffer. -/
def CAN_EXPRESS_WORD : Fld := ⟨31, 0⟩

/-- The register descriptors of the control region (CT), one row per register array (R3, R513). -/
def regRowsCT0 : List RegRow := [
  -- CT_LT_CFG
  ⟨0x44200400, [(0x4, 12)], 0x3e8, [⟨CT_LT_CFG_DUTY, .rw, 0, 1024⟩, ⟨CT_LT_CFG_EN, .rw, 0, 1⟩, ⟨CT_LT_CFG_PERIOD, .rw, 40, 1000000⟩], EV_LS_REFUSED⟩,
  -- CT_TIME_CTL
  ⟨0x44201000, [], 0x140064, [⟨CT_TIME_CTL_DISC, .rw, 0, 1⟩, ⟨CT_TIME_CTL_TLOSS, .rw, 1, 255⟩, ⟨CT_TIME_CTL_SLEW, .rw, 1, 1000⟩], EV_TIME_REFUSED⟩,
  -- CT_TIME_RATE
  ⟨0x44201004, [], 0x0, [⟨CT_TIME_RATE_RATE, .rw, 0, 4294967295⟩], EV_TIME_REFUSED⟩,
  -- CT_TIME_PHASE
  ⟨0x44201008, [], 0x0, [⟨CT_TIME_PHASE_PHASE, .rw, 0, 4294967295⟩], EV_TIME_REFUSED⟩,
  -- CT_TIME_STEP
  ⟨0x4420100c, [], 0x0, [⟨CT_TIME_STEP_STEP, .wo, 0, 4294967295⟩], EV_TIME_REFUSED⟩,
  -- CT_PLANT
  ⟨0x44201010, [], 0x0, [⟨CT_PLANT_PIDX, .rwl, 0, 55⟩], EV_TIME_REFUSED⟩,
  -- ETH_CTL
  ⟨0x44202000, [(0x1000, 2)], 0x40000000, [⟨ETH_CTL_EN, .rw, 0, 1⟩, ⟨ETH_CTL_SPEED, .rw, 0, 2⟩, ⟨ETH_CTL_VMODE, .rw, 0, 2⟩, ⟨ETH_CTL_PTPEN, .rw, 0, 1⟩, ⟨ETH_CTL_MCALL, .rw, 0, 1⟩, ⟨ETH_CTL_PHYAD, .rw, 0, 31⟩], EV_ETH_REFUSED⟩,
  -- ETH_ADDRLO
  ⟨0x44202004, [(0x1000, 2)], 0x0, [⟨ETH_ADDRLO_ADDR, .rw, 0, 4294967295⟩], EV_ETH_REFUSED⟩,
  -- ETH_ADDRHI
  ⟨0x44202008, [(0x1000, 2)], 0x0, [⟨ETH_ADDRHI_ADDR, .rw, 0, 65535⟩], EV_ETH_REFUSED⟩,
  -- ETH_QMAP
  ⟨0x4420200c, [(0x1000, 2)], 0x0, [⟨ETH_QMAP_DEFEN, .rw, 0, 1⟩, ⟨ETH_QMAP_FREEQ, .rw, 0, 63⟩, ⟨ETH_QMAP_TXQ, .rw, 0, 63⟩, ⟨ETH_QMAP_TXDONEQ, .rw, 0, 63⟩, ⟨ETH_QMAP_DEFQ, .rw, 0, 63⟩], EV_ETH_REFUSED⟩,
  -- ETH_DLY
  ⟨0x44202010, [(0x1000, 2)], 0x0, [⟨ETH_DLY_RXDLY, .rw, 0, 65535⟩, ⟨ETH_DLY_TXDLY, .rw, 0, 65535⟩], EV_ETH_REFUSED⟩,
  -- ETH_STAT
  ⟨0x44202014, [(0x1000, 2)], 0x0, [⟨ETH_STAT_LINK, .ro, 0, 1⟩], EV_ETH_REFUSED⟩,
  -- ETH_EVT
  ⟨0x44202018, [(0x1000, 2)], 0x0, [⟨ETH_EVT_REFUSED, .w1c, 0, 1⟩, ⟨ETH_EVT_TXTO, .w1c, 0, 1⟩, ⟨ETH_EVT_OVSZ, .w1c, 0, 1⟩, ⟨ETH_EVT_NOBUF, .w1c, 0, 1⟩, ⟨ETH_EVT_BADFR, .w1c, 0, 1⟩, ⟨ETH_EVT_LINKCHG, .w1c, 0, 1⟩], EV_ETH_REFUSED⟩,
  -- ETH_CNT0
  ⟨0x4420201c, [(0x1000, 2)], 0x0, [⟨ETH_CNT0_BADFRN, .rc, 0, 255⟩, ⟨ETH_CNT0_NOBUFN, .rc, 0, 255⟩, ⟨ETH_CNT0_OVSZN, .rc, 0, 255⟩, ⟨ETH_CNT0_LINKCHGN, .rc, 0, 255⟩], EV_ETH_REFUSED⟩,
  -- ETH_CNT1
  ⟨0x44202020, [(0x1000, 2)], 0x0, [⟨ETH_CNT1_REFUSEDN, .rc, 0, 255⟩, ⟨ETH_CNT1_TXTON, .rc, 0, 255⟩], EV_ETH_REFUSED⟩,
  -- ETH_VID
  ⟨0x44202040, [(0x1000, 2), (0x4, 16)], 0x0, [⟨ETH_VID_VEN, .rw, 0, 1⟩, ⟨ETH_VID_VID, .rw, 1, 4094⟩], EV_ETH_REFUSED⟩,
  -- ETH_RULE
  ⟨0x44202080, [(0x1000, 2), (0x4, 16)], 0x0, [⟨ETH_RULE_REN, .rw, 0, 1⟩, ⟨ETH_RULE_RKIND, .rw, 0, 2⟩, ⟨ETH_RULE_RQ, .rw, 0, 63⟩, ⟨ETH_RULE_RVAL, .rw, 0, 65535⟩], EV_ETH_REFUSED⟩,
  -- CAN_CTL
  ⟨0x44208000, [(0x4000, 6)], 0x2000000, [⟨CAN_CTL_EN, .rw, 0, 1⟩, ⟨CAN_CTL_FDE, .rw, 0, 1⟩, ⟨CAN_CTL_MODE, .rw, 0, 2⟩, ⟨CAN_CTL_BORMODE, .rw, 0, 1⟩, ⟨CAN_CTL_BOREL, .wo, 0, 1⟩, ⟨CAN_CTL_STBY, .rw, 0, 1⟩, ⟨CAN_CTL_PXHD, .rw, 0, 1⟩], EV_CAN_REFUSED⟩,
  -- CAN_NBT
  ⟨0x44208004, [(0x4000, 6)], 0x0, [⟨CAN_NBT_NBRP, .rw, 0, 255⟩, ⟨CAN_NBT_NTSEG1, .rw, 1, 255⟩, ⟨CAN_NBT_NTSEG2, .rw, 1, 127⟩, ⟨CAN_NBT_NSJW, .rw, 0, 127⟩, ⟨CAN_NBT_TRIPLE, .rw, 0, 1⟩], EV_CAN_REFUSED⟩,
  -- CAN_DBT
  ⟨0x44208008, [(0x4000, 6)], 0x0, [⟨CAN_DBT_DBRP, .rw, 0, 31⟩, ⟨CAN_DBT_DTSEG1, .rw, 0, 31⟩, ⟨CAN_DBT_DTSEG2, .rw, 0, 15⟩, ⟨CAN_DBT_DSJW, .rw, 0, 15⟩], EV_CAN_REFUSED⟩,
  -- CAN_TDC
  ⟨0x4420800c, [(0x4000, 6)], 0x0, [⟨CAN_TDC_TDCEN, .rw, 0, 1⟩, ⟨CAN_TDC_TDCO, .rw, 0, 127⟩, ⟨CAN_TDC_TDCV, .ro, 0, 255⟩], EV_CAN_REFUSED⟩,
  -- CAN_ERR
  ⟨0x44208010, [(0x4000, 6)], 0x0, [⟨CAN_ERR_STATE, .ro, 0, 3⟩, ⟨CAN_ERR_LEC, .ro, 0, 15⟩, ⟨CAN_ERR_REC, .ro, 0, 255⟩, ⟨CAN_ERR_TEC, .ro, 0, 511⟩], EV_CAN_REFUSED⟩,
  -- CAN_EVT
  ⟨0x44208014, [(0x4000, 6)], 0x0, [⟨CAN_EVT_REFUSED, .w1c, 0, 1⟩, ⟨CAN_EVT_TMLOST, .w1c, 0, 1⟩, ⟨CAN_EVT_COLL, .w1c, 0, 1⟩, ⟨CAN_EVT_LOST, .w1c, 0, 1⟩, ⟨CAN_EVT_BUSOFF, .w1c, 0, 1⟩, ⟨CAN_EVT_PASSIVE, .w1c, 0, 1⟩, ⟨CAN_EVT_TDC, .w1c, 0, 1⟩, ⟨CAN_EVT_ERR, .w1c, 0, 1⟩], EV_CAN_REFUSED⟩,
  -- CAN_CNT0
  ⟨0x44208018, [(0x4000, 6)], 0x0, [⟨CAN_CNT0_TDCN, .rc, 0, 255⟩, ⟨CAN_CNT0_PASSIVEN, .rc, 0, 255⟩, ⟨CAN_CNT0_BUSOFFN, .rc, 0, 255⟩, ⟨CAN_CNT0_LOSTN, .rc, 0, 255⟩], EV_CAN_REFUSED⟩,
  -- CAN_CNT1
  ⟨0x4420801c, [(0x4000, 6)], 0x0, [⟨CAN_CNT1_COLLN, .rc, 0, 255⟩, ⟨CAN_CNT1_TMLOSTN, .rc, 0, 255⟩, ⟨CAN_CNT1_REFUSEDN, .rc, 0, 255⟩, ⟨CAN_CNT1_ERRN, .rc, 0, 255⟩], EV_CAN_REFUSED⟩
]

def regRowsCT1 : List RegRow := [
  -- CAN_TXCMD
  ⟨0x44208020, [(0x4000, 6)], 0x0, [⟨CAN_TXCMD_COMMIT, .wo, 0, 1⟩, ⟨CAN_TXCMD_ABORT, .wo, 0, 1⟩, ⟨CAN_TXCMD_EXP, .wo, 0, 1⟩, ⟨CAN_TXCMD_BUF, .wo, 0, 63⟩], EV_CAN_REFUSED⟩,
  -- CAN_TXCFG
  ⟨0x44208024, [(0x4000, 6)], 0x0, [⟨CAN_TXCFG_DQEN, .rw, 0, 1⟩, ⟨CAN_TXCFG_DONEQ, .rw, 0, 63⟩, ⟨CAN_TXCFG_EXPDEST, .rw, 0, 4095⟩, ⟨CAN_TXCFG_EVDEST, .rw, 0, 4095⟩], EV_CAN_REFUSED⟩,
  -- CAN_TXPENDLO
  ⟨0x44208028, [(0x4000, 6)], 0x0, [⟨CAN_TXPENDLO_TXPEND, .ro, 0, 4294967295⟩], EV_CAN_REFUSED⟩,
  -- CAN_TXPENDHI
  ⟨0x4420802c, [(0x4000, 6)], 0x0, [⟨CAN_TXPENDHI_TXPEND, .ro, 0, 4294967295⟩], EV_CAN_REFUSED⟩,
  -- CAN_TXSWPLO
  ⟨0x44208030, [(0x4000, 6)], 0x0, [⟨CAN_TXSWPLO_TXSWP, .ro, 0, 4294967295⟩], EV_CAN_REFUSED⟩,
  -- CAN_TXSWPHI
  ⟨0x44208034, [(0x4000, 6)], 0x0, [⟨CAN_TXSWPHI_TXSWP, .ro, 0, 4294967295⟩], EV_CAN_REFUSED⟩,
  -- CAN_TXSTAT
  ⟨0x44208038, [(0x4000, 6)], 0x0, [⟨CAN_TXSTAT_EXPPEND, .ro, 0, 1⟩, ⟨CAN_TXSTAT_EXPSWP, .ro, 0, 1⟩, ⟨CAN_TXSTAT_TXACT, .ro, 0, 1⟩, ⟨CAN_TXSTAT_ACTBUF, .ro, 0, 127⟩], EV_CAN_REFUSED⟩,
  -- CAN_COLL
  ⟨0x4420803c, [(0x4000, 6)], 0x10000000, [⟨CAN_COLL_COLLTH, .rw, 1, 255⟩, ⟨CAN_COLL_COLLBUF, .ro, 0, 127⟩, ⟨CAN_COLL_COLLRUN, .ro, 0, 255⟩], EV_CAN_REFUSED⟩,
  -- CAN_FIFOCTL
  ⟨0x44208040, [(0x4000, 6), (0x4, 2)], 0x0, [⟨CAN_FIFOCTL_POP, .wo, 0, 1⟩, ⟨CAN_FIFOCTL_FEN, .rw, 0, 1⟩, ⟨CAN_FIFOCTL_WMDEST, .rw, 0, 4095⟩, ⟨CAN_FIFOCTL_WMARK, .rw, 0, 32⟩, ⟨CAN_FIFOCTL_FCOUNT, .ro, 0, 63⟩], EV_CAN_REFUSED⟩,
  -- CAN_FILTCFG
  ⟨0x44208048, [(0x4000, 6)], 0x0, [⟨CAN_FILTCFG_NOMATCH, .rw, 0, 2⟩], EV_CAN_REFUSED⟩,
  -- CAN_TM_CTL
  ⟨0x44208080, [(0x4000, 6)], 0x0, [⟨CAN_TM_CTL_TMODE, .rw, 0, 3⟩, ⟨CAN_TM_CTL_IDE, .rw, 0, 1⟩, ⟨CAN_TM_CTL_RMID, .rw, 0, 536870911⟩], EV_CAN_REFUSED⟩,
  -- CAN_TM_PER
  ⟨0x44208084, [(0x4000, 6)], 0x320064, [⟨CAN_TM_PER_RMTO, .rw, 1, 65535⟩, ⟨CAN_TM_PER_RMPER, .rw, 1, 10000⟩], EV_CAN_REFUSED⟩,
  -- CAN_TM_DLY
  ⟨0x44208088, [(0x4000, 6)], 0x0, [⟨CAN_TM_DLY_RMDLY, .rw, 0, 65535⟩], EV_CAN_REFUSED⟩,
  -- CAN_TM_OFS
  ⟨0x4420808c, [(0x4000, 6)], 0x0, [⟨CAN_TM_OFS_TMOFS, .ro, 0, 4294967295⟩], EV_CAN_REFUSED⟩,
  -- CAN_TM_RATE
  ⟨0x44208090, [(0x4000, 6)], 0x0, [⟨CAN_TM_RATE_TMRATE, .ro, 0, 4294967295⟩], EV_CAN_REFUSED⟩,
  -- CAN_TM_STAT
  ⟨0x44208094, [(0x4000, 6)], 0x0, [⟨CAN_TM_STAT_TMVALID, .ro, 0, 1⟩, ⟨CAN_TM_STAT_MDISC, .ro, 0, 1⟩, ⟨CAN_TM_STAT_SEQ, .ro, 0, 63⟩], EV_CAN_REFUSED⟩,
  -- CAN_TM_SOFLO
  ⟨0x44208098, [(0x4000, 6)], 0x0, [⟨CAN_TM_SOFLO_TMSOF, .ro, 0, 4294967295⟩], EV_CAN_REFUSED⟩,
  -- CAN_TM_SOFHI
  ⟨0x4420809c, [(0x4000, 6)], 0x0, [⟨CAN_TM_SOFHI_TMSOF, .ro, 0, 4294967295⟩], EV_CAN_REFUSED⟩,
  -- CAN_FIFO
  ⟨0x44208400, [(0x4000, 6), (0x80, 2), (0x4, 20)], 0x0, [⟨CAN_FIFO_WORD, .ro, 0, 4294967295⟩], EV_CAN_REFUSED⟩,
  -- CAN_FLTID
  ⟨0x44208800, [(0x4000, 6), (0x8, 128)], 0xc0000000, [⟨CAN_FLTID_TGT, .rw, 0, 3⟩, ⟨CAN_FLTID_IDE, .rw, 0, 1⟩, ⟨CAN_FLTID_ID, .rw, 0, 536870911⟩], EV_CAN_REFUSED⟩,
  -- CAN_FLTMSK
  ⟨0x44208804, [(0x4000, 6), (0x8, 128)], 0x0, [⟨CAN_FLTMSK_FMT, .rw, 0, 2⟩, ⟨CAN_FLTMSK_MASK, .rw, 0, 536870911⟩], EV_CAN_REFUSED⟩,
  -- CAN_SHADOW
  ⟨0x44209000, [(0x4000, 6), (0x80, 64), (0x4, 20)], 0x0, [⟨CAN_SHADOW_WORD, .rw, 0, 4294967295⟩], EV_CAN_REFUSED⟩,
  -- CAN_EXPRESS
  ⟨0x4420b000, [(0x4000, 6), (0x4, 20)], 0x0, [⟨CAN_EXPRESS_WORD, .rw, 0, 4294967295⟩], EV_CAN_REFUSED⟩
]

/-- All register rows of the control region (CT). -/
def regRowsCT : List RegRow := regRowsCT0 ++ regRowsCT1

end Sys2Proof.Machine
end

