-- ==== Sys2Proof/Machine/RegsES.lean ====
section
/-!
DEFINITION. The registers of the estimation region (ES): addresses, fields, access types, ranges and reset values, from the register tables of the spec.
-/

namespace Sys2Proof.Machine

/-- Address of `ES_CORR_CTL` (R233). -/
def ES_CORR_CTL (b : Nat) : Nat := 0x43000000 + b * 0x100000
/-- `ES_CORR_CTL.RUN`, RW: Correlator accepts lanes. -/
def ES_CORR_CTL_RUN : Fld := ⟨31, 31⟩
/-- `ES_CORR_CTL.CLR`, WO: 1 clears the accumulators, per R227. -/
def ES_CORR_CTL_CLR : Fld := ⟨30, 30⟩
/-- `ES_CORR_CTL.NFRQ`, RW: Frequencies used, minus 1. -/
def ES_CORR_CTL_NFRQ : Fld := ⟨29, 28⟩
/-- `ES_CORR_CTL.ACCOFS`, RW: Accumulator base in block SRAM, 64 KB units, 0 to 25; others refused. -/
def ES_CORR_CTL_ACCOFS : Fld := ⟨20, 16⟩
/-- `ES_CORR_CTL.NCH`, RW: Channels, 1 to 6,144; others refused. -/
def ES_CORR_CTL_NCH : Fld := ⟨12, 0⟩

/-- Address of `ES_CORR_EPOCHLO` (R233). -/
def ES_CORR_EPOCHLO (b : Nat) : Nat := 0x43000004 + b * 0x100000
/-- `ES_CORR_EPOCHLO.EPOCH`, RW: Reference instant, chip time, low and high words per R173. -/
def ES_CORR_EPOCHLO_EPOCH : Fld := ⟨31, 0⟩

/-- Address of `ES_CORR_EPOCHHI` (R233). -/
def ES_CORR_EPOCHHI (b : Nat) : Nat := 0x43000008 + b * 0x100000
/-- `ES_CORR_EPOCHHI.EPOCH`, RW: Reference instant, chip time, low and high words per R173. -/
def ES_CORR_EPOCHHI_EPOCH : Fld := ⟨31, 0⟩

/-- Address of `ES_CORR_FRQ` (R233). -/
def ES_CORR_FRQ (b : Nat) (k : Nat) : Nat := 0x43000010 + b * 0x100000 + k * 0x4
/-- `ES_CORR_FRQ.FRQ`, RW: Frequency, µHz, 50,000 to 200,000,000; others refused. -/
def ES_CORR_FRQ_FRQ : Fld := ⟨27, 0⟩

/-- Address of `ES_CORR_STAT` (R233). -/
def ES_CORR_STAT (b : Nat) : Nat := 0x43000020 + b * 0x100000
/-- `ES_CORR_STAT.BUSY`, RO: Clear in progress. -/
def ES_CORR_STAT_BUSY : Fld := ⟨1, 1⟩
/-- `ES_CORR_STAT.PEND`, RO: Accepted lanes not yet accumulated. -/
def ES_CORR_STAT_PEND : Fld := ⟨0, 0⟩

/-- Address of `ES_CORR_CNT` (R233). -/
def ES_CORR_CNT (b : Nat) : Nat := 0x43000024 + b * 0x100000
/-- `ES_CORR_CNT.IDLEN`, RC: Lanes discarded while not running, saturating at 65,535. -/
def ES_CORR_CNT_IDLEN : Fld := ⟨31, 16⟩
/-- `ES_CORR_CNT.RANGEN`, RC: Lanes discarded for c ≥ `NCH`, saturating at 65,535. -/
def ES_CORR_CNT_RANGEN : Fld := ⟨15, 0⟩

/-- Address of `ES_VB_STAT` (R233). -/
def ES_VB_STAT (b : Nat) : Nat := 0x43000040 + b * 0x100000
/-- `ES_VB_STAT.BAND`, RO: Thermal band in force, 0 to 4. -/
def ES_VB_STAT_BAND : Fld := ⟨10, 8⟩
/-- `ES_VB_STAT.ACTIVE`, RO: Bit g: a kernel is active on grain g. -/
def ES_VB_STAT_ACTIVE : Fld := ⟨7, 4⟩
/-- `ES_VB_STAT.GOOD`, RO: Bit g: grain g passed self-test. -/
def ES_VB_STAT_GOOD : Fld := ⟨3, 0⟩

/-- Address of `ES_KOVR` (R233). -/
def ES_KOVR (b : Nat) (k : Nat) : Nat := 0x43000080 + b * 0x100000 + k * 0x4
/-- `ES_KOVR.ADDR`, RW: Override for kernel ID k: 0 resident; otherwise a 4-byte-aligned address from 0x0800_0000 to 0x0801_BFFF. Other values, and any write for k = 0, refused. -/
def ES_KOVR_ADDR : Fld := ⟨31, 0⟩

/-- The register descriptors of the estimation region (ES), one row per register array (R3, R513). -/
def regRowsES0 : List RegRow := [
  -- ES_CORR_CTL
  ⟨0x43000000, [(0x100000, 4)], 0x1800, [⟨ES_CORR_CTL_RUN, .rw, 0, 1⟩, ⟨ES_CORR_CTL_CLR, .wo, 0, 1⟩, ⟨ES_CORR_CTL_NFRQ, .rw, 0, 3⟩, ⟨ES_CORR_CTL_ACCOFS, .rw, 0, 25⟩, ⟨ES_CORR_CTL_NCH, .rw, 1, 6144⟩], EV_VEC_REFUSED⟩,
  -- ES_CORR_EPOCHLO
  ⟨0x43000004, [(0x100000, 4)], 0x0, [⟨ES_CORR_EPOCHLO_EPOCH, .rw, 0, 4294967295⟩], EV_VEC_REFUSED⟩,
  -- ES_CORR_EPOCHHI
  ⟨0x43000008, [(0x100000, 4)], 0x0, [⟨ES_CORR_EPOCHHI_EPOCH, .rw, 0, 4294967295⟩], EV_VEC_REFUSED⟩,
  -- ES_CORR_FRQ
  ⟨0x43000010, [(0x100000, 4), (0x4, 4)], 0xf4240, [⟨ES_CORR_FRQ_FRQ, .rw, 50000, 200000000⟩], EV_VEC_REFUSED⟩,
  -- ES_CORR_STAT
  ⟨0x43000020, [(0x100000, 4)], 0x0, [⟨ES_CORR_STAT_BUSY, .ro, 0, 1⟩, ⟨ES_CORR_STAT_PEND, .ro, 0, 1⟩], EV_VEC_REFUSED⟩,
  -- ES_CORR_CNT
  ⟨0x43000024, [(0x100000, 4)], 0x0, [⟨ES_CORR_CNT_IDLEN, .rc, 0, 65535⟩, ⟨ES_CORR_CNT_RANGEN, .rc, 0, 65535⟩], EV_VEC_REFUSED⟩,
  -- ES_VB_STAT
  ⟨0x43000040, [(0x100000, 4)], 0x0, [⟨ES_VB_STAT_BAND, .ro, 0, 7⟩, ⟨ES_VB_STAT_ACTIVE, .ro, 0, 15⟩, ⟨ES_VB_STAT_GOOD, .ro, 0, 15⟩], EV_VEC_REFUSED⟩,
  -- ES_KOVR
  ⟨0x43000080, [(0x100000, 4), (0x4, 16)], 0x0, [⟨ES_KOVR_ADDR, .rw, 0, 4294967295⟩], EV_VEC_REFUSED⟩
]

/-- All register rows of the estimation region (ES). -/
def regRowsES : List RegRow := regRowsES0

end Sys2Proof.Machine
end

