-- ==== Sys2Proof/Machine/RegsFB.lean ====
section
/-!
DEFINITION. The registers of the fabric (FB) and supervisor (SV): addresses, fields, access types, ranges and reset values, from the register tables of the spec.
-/

namespace Sys2Proof.Machine

/-- Address of `FB_XBAR_WGT` (R176). -/
def FB_XBAR_WGT : Nat := 0x40000000
/-- `FB_XBAR_WGT.WGT`, RWL: Weights, 4 bits per port from [3:0]: AQ 4, ES 4, CT 2, PW 2, PS 2, SF 1, FB 1; 0 refused. -/
def FB_XBAR_WGT_WGT : Fld := ⟨27, 0⟩

/-- Address of `FB_FLT_CFG` (R176). -/
def FB_FLT_CFG : Nat := 0x40000004
/-- `FB_FLT_CFG.TACTMAX`, RWL: Active-source limit, 10 ms units, 1 to 255. -/
def FB_FLT_CFG_TACTMAX : Fld := ⟨31, 24⟩
/-- `FB_FLT_CFG.BWAIT`, RWL: Block wait, 10 µs units, 1 to 255. -/
def FB_FLT_CFG_BWAIT : Fld := ⟨23, 16⟩
/-- `FB_FLT_CFG.QWAIT`, RWL: Grain wait, µs, 1 to 255. -/
def FB_FLT_CFG_QWAIT : Fld := ⟨15, 8⟩
/-- `FB_FLT_CFG.BRETRY`, RWL: Block retry limit, 1 to 15. -/
def FB_FLT_CFG_BRETRY : Fld := ⟨7, 4⟩
/-- `FB_FLT_CFG.GRETRY`, RWL: Grain retry limit, 1 to 15. -/
def FB_FLT_CFG_GRETRY : Fld := ⟨3, 0⟩

/-- Address of `FB_FLT_LAST` (R176). -/
def FB_FLT_LAST : Nat := 0x40000008
/-- `FB_FLT_LAST.SRC`, RO: Source of the latest fault, per R167. -/
def FB_FLT_LAST_SRC : Fld := ⟨31, 20⟩
/-- `FB_FLT_LAST.CLASS`, RO: 0 correctable, 1 recoverable, 2 region-fatal, 3 chip-fatal. -/
def FB_FLT_LAST_CLASS : Fld := ⟨19, 18⟩
/-- `FB_FLT_LAST.LEVEL`, RO: 0 grain, 1 block, 2 region, 3 chip. -/
def FB_FLT_LAST_LEVEL : Fld := ⟨17, 16⟩
/-- `FB_FLT_LAST.CODE`, RO: Event code recorded. -/
def FB_FLT_LAST_CODE : Fld := ⟨15, 0⟩

/-- Address of `FB_FLT_EVT` (R176). -/
def FB_FLT_EVT : Nat := 0x4000000c
/-- `FB_FLT_EVT.ESCAL`, W1C: A unit escalated. -/
def FB_FLT_EVT_ESCAL : Fld := ⟨4, 4⟩
/-- `FB_FLT_EVT.OVERLAP`, W1C: R171 applied. -/
def FB_FLT_EVT_OVERLAP : Fld := ⟨3, 3⟩
/-- `FB_FLT_EVT.FATAL`, W1C: A region-fatal fault. -/
def FB_FLT_EVT_FATAL : Fld := ⟨2, 2⟩
/-- `FB_FLT_EVT.RECOV`, W1C: A recoverable fault. -/
def FB_FLT_EVT_RECOV : Fld := ⟨1, 1⟩
/-- `FB_FLT_EVT.CORR`, W1C: A correctable fault. -/
def FB_FLT_EVT_CORR : Fld := ⟨0, 0⟩

/-- Address of `FB_FLT_CNT0` (R176). -/
def FB_FLT_CNT0 : Nat := 0x40000010
/-- `FB_FLT_CNT0.CORRN`, RC: CNT0: occurrences of `CORR`, saturating at 65,535. CNT1: reserved. -/
def FB_FLT_CNT0_CORRN : Fld := ⟨31, 16⟩
/-- `FB_FLT_CNT0.RECOVN`, RC: Occurrences, saturating at 255. -/
def FB_FLT_CNT0_RECOVN : Fld := ⟨15, 8⟩
/-- `FB_FLT_CNT0.FATALN`, RC: Occurrences, saturating at 255. -/
def FB_FLT_CNT0_FATALN : Fld := ⟨7, 0⟩

/-- Address of `FB_FLT_CNT1` (R176). -/
def FB_FLT_CNT1 : Nat := 0x40000014
/-- `FB_FLT_CNT1.ESCALN`, RC: Occurrences, saturating at 255. -/
def FB_FLT_CNT1_ESCALN : Fld := ⟨15, 8⟩
/-- `FB_FLT_CNT1.OVERLAPN`, RC: Occurrences, saturating at 255. -/
def FB_FLT_CNT1_OVERLAPN : Fld := ⟨7, 0⟩

/-- Address of `FB_FLT_REL` (R176). -/
def FB_FLT_REL : Nat := 0x40000018
/-- `FB_FLT_REL.SRC`, WO: Releases the quarantined grain or isolated block named; refused while any of its fault sources is active. -/
def FB_FLT_REL_SRC : Fld := ⟨11, 0⟩

/-- Address of `FB_Q_CFG` (R176). -/
def FB_Q_CFG (n : Nat) : Nat := 0x40100000 + n * 0x10
/-- `FB_Q_CFG.EN`, RW: Queue enabled. -/
def FB_Q_CFG_EN : Fld := ⟨31, 31⟩
/-- `FB_Q_CFG.FULLRF`, RW: 1: grain puts to a full queue are refused. -/
def FB_Q_CFG_FULLRF : Fld := ⟨30, 30⟩
/-- `FB_Q_CFG.VC`, RW: Virtual channel, 1 or 2; 0 and 3 refused. -/
def FB_Q_CFG_VC : Fld := ⟨29, 28⟩
/-- `FB_Q_CFG.CONS`, RW: Consumer grain, per R167; 0 none. -/
def FB_Q_CFG_CONS : Fld := ⟨27, 16⟩
/-- `FB_Q_CFG.SIZE`, RW: Depth 16 × 2^code, 0 to 6; 7–15 refused. -/
def FB_Q_CFG_SIZE : Fld := ⟨13, 10⟩
/-- `FB_Q_CFG.WMARK`, RW: Watermark count, below the depth; 0 none. -/
def FB_Q_CFG_WMARK : Fld := ⟨9, 0⟩

/-- Address of `FB_Q_STAT` (R176). -/
def FB_Q_STAT (n : Nat) : Nat := 0x40100004 + n * 0x10
/-- `FB_Q_STAT.OVFN`, RC: Occurrences of `OVF`, saturating at 255. -/
def FB_Q_STAT_OVFN : Fld := ⟨31, 24⟩
/-- `FB_Q_STAT.OVF`, W1C: A put was refused or dropped. -/
def FB_Q_STAT_OVF : Fld := ⟨16, 16⟩
/-- `FB_Q_STAT.COUNT`, RO: Descriptors held. -/
def FB_Q_STAT_COUNT : Fld := ⟨10, 0⟩

/-- Address of `FB_PMON_CTL` (R176). -/
def FB_PMON_CTL : Nat := 0x40200000
/-- `FB_PMON_CTL.CLRALL`, WO: 1 clears every counter and `OVFN`. -/
def FB_PMON_CTL_CLRALL : Fld := ⟨2, 2⟩
/-- `FB_PMON_CTL.FREEZE`, RW: Stops every counter. -/
def FB_PMON_CTL_FREEZE : Fld := ⟨1, 1⟩
/-- `FB_PMON_CTL.EN`, RW: Counters enabled. -/
def FB_PMON_CTL_EN : Fld := ⟨0, 0⟩

/-- Address of `FB_PMON_SEL` (R176). -/
def FB_PMON_SEL (n : Nat) : Nat := 0x40200100 + n * 0x4
/-- `FB_PMON_SEL.OVFPOST`, RW: Post an inbox descriptor on wrap. -/
def FB_PMON_SEL_OVFPOST : Fld := ⟨31, 31⟩
/-- `FB_PMON_SEL.DEST`, RW: Grain for the wrap descriptor. -/
def FB_PMON_SEL_DEST : Fld := ⟨27, 16⟩
/-- `FB_PMON_SEL.SRC`, RW: Source per the monitor sources table. -/
def FB_PMON_SEL_SRC : Fld := ⟨9, 0⟩

/-- Address of `FB_PMON_CNTLO` (R176). -/
def FB_PMON_CNTLO (n : Nat) : Nat := 0x40200400 + n * 0x8
/-- `FB_PMON_CNTLO.CNTLO`, RO: LO: count [31:0]; reading latches HI (R173). -/
def FB_PMON_CNTLO_CNTLO : Fld := ⟨31, 0⟩

/-- Address of `FB_PMON_CNTHI` (R176). -/
def FB_PMON_CNTHI (n : Nat) : Nat := 0x40200404 + n * 0x8
/-- `FB_PMON_CNTHI.OVFN`, RC: HI: wraps, saturating at 255. -/
def FB_PMON_CNTHI_OVFN : Fld := ⟨23, 16⟩
/-- `FB_PMON_CNTHI.CNTHI`, RO: HI: count [47:32]; HI bits [31:24] reserved. -/
def FB_PMON_CNTHI_CNTHI : Fld := ⟨15, 0⟩

/-- Address of `FB_DL_ESC` (R176). -/
def FB_DL_ESC (k : Nat) : Nat := 0x40300000 + k * 0x4
/-- `FB_DL_ESC.ESCH`, RWL: Bit i: slot i of control grain 2k + 1 is region-fatal. -/
def FB_DL_ESC_ESCH : Fld := ⟨31, 16⟩
/-- `FB_DL_ESC.ESCL`, RWL: Bit i: slot i of control grain 2k is region-fatal. -/
def FB_DL_ESC_ESCL : Fld := ⟨15, 0⟩

/-- Address of `FB_DL_STAT` (R176). -/
def FB_DL_STAT : Nat := 0x40300010
/-- `FB_DL_STAT.MISS`, W1C: Bit g: control grain g missed a deadline. -/
def FB_DL_STAT_MISS : Fld := ⟨7, 0⟩

/-- Address of `FB_DL_CNT0` (R176). -/
def FB_DL_CNT0 : Nat := 0x40300014
/-- `FB_DL_CNT0.MISSN`, RC: Occurrences of `MISS` per grain, 8 bits each from [7:0], saturating at 255: CNT0 grains 0–3, CNT1 grains 4–7. -/
def FB_DL_CNT0_MISSN : Fld := ⟨31, 0⟩

/-- Address of `FB_DL_CNT1` (R176). -/
def FB_DL_CNT1 : Nat := 0x40300018
/-- `FB_DL_CNT1.MISSN`, RC: Occurrences of `MISS` per grain, 8 bits each from [7:0], saturating at 255: CNT0 grains 0–3, CNT1 grains 4–7. -/
def FB_DL_CNT1_MISSN : Fld := ⟨31, 0⟩

/-- Address of `FB_WDOG_CTL` (R176). -/
def FB_WDOG_CTL : Nat := 0x40300020
/-- `FB_WDOG_CTL.WEN`, RWL: Watchdog on; writing 0 while set is refused. -/
def FB_WDOG_CTL_WEN : Fld := ⟨31, 31⟩
/-- `FB_WDOG_CTL.BADN`, RC: Refused kicks, saturating at 255. -/
def FB_WDOG_CTL_BADN : Fld := ⟨23, 16⟩
/-- `FB_WDOG_CTL.PERIOD`, RWL: Period, ms, 1 to 1,000. -/
def FB_WDOG_CTL_PERIOD : Fld := ⟨15, 0⟩

/-- Address of `FB_WDOG_KICK` (R176). -/
def FB_WDOG_KICK : Nat := 0x40300024
/-- `FB_WDOG_KICK.KICK`, WO: Kick sequence per R176. -/
def FB_WDOG_KICK_KICK : Fld := ⟨31, 0⟩

/-- Address of `SV_RST_STAT` (R488). -/
def SV_RST_STAT : Nat := 0x41000000
/-- `SV_RST_STAT.GLITCHN`, RC: RESET_N pulses ignored under R479, saturating at 65,535. -/
def SV_RST_STAT_GLITCHN : Fld := ⟨31, 16⟩
/-- `SV_RST_STAT.PRESEQ`, RO: A pre-sequence preceded the latest chip reset. -/
def SV_RST_STAT_PRESEQ : Fld := ⟨8, 8⟩
/-- `SV_RST_STAT.CAUSE`, RO: Cause of the latest chip reset, per R475. -/
def SV_RST_STAT_CAUSE : Fld := ⟨3, 0⟩

/-- Address of `SV_RST_HOLD` (R488). -/
def SV_RST_HOLD : Nat := 0x41000004
/-- `SV_RST_HOLD.HOLDMS`, RO: RESET_N low time of the latest chip reset, ms, saturating; 0 when RESET_N did not cause it. -/
def SV_RST_HOLD_HOLDMS : Fld := ⟨31, 0⟩

/-- Address of `SV_HOLD_CTL` (R488). -/
def SV_HOLD_CTL : Nat := 0x41000008
/-- `SV_HOLD_CTL.RECLAIM`, WO: 1 ends the hold under R476; refused under R477 and outside a hold. -/
def SV_HOLD_CTL_RECLAIM : Fld := ⟨31, 31⟩
/-- `SV_HOLD_CTL.HOLDING`, RO: Output hold in progress. -/
def SV_HOLD_CTL_HOLDING : Fld := ⟨30, 30⟩
/-- `SV_HOLD_CTL.THOLD`, RWL: t_hold, 10 ms units, 1 to 500; others refused. -/
def SV_HOLD_CTL_THOLD : Fld := ⟨15, 0⟩

/-- Address of `SV_PF_CFG` (R488). -/
def SV_PF_CFG : Nat := 0x4100000c
/-- `SV_PF_CFG.PFTH`, RWL: Power-fail threshold on the rail, 0.1 V units, 90 to 300; others refused. -/
def SV_PF_CFG_PFTH : Fld := ⟨24, 16⟩
/-- `SV_PF_CFG.PFHYS`, RWL: Recovery hysteresis, 0.1 V units, 5 to 50; others refused. -/
def SV_PF_CFG_PFHYS : Fld := ⟨7, 0⟩

/-- Address of `SV_SUP_STAT` (R488). -/
def SV_SUP_STAT : Nat := 0x41000010
/-- `SV_SUP_STAT.VSYS`, RO: Rail voltage from VSYS_SENSE, 10 mV units. -/
def SV_SUP_STAT_VSYS : Fld := ⟨31, 16⟩
/-- `SV_SUP_STAT.RTCLOST`, RO: The RTC was invalid at the latest boot (R485). -/
def SV_SUP_STAT_RTCLOST : Fld := ⟨6, 6⟩
/-- `SV_SUP_STAT.PF`, RO: Rail below `PFTH`. -/
def SV_SUP_STAT_PF : Fld := ⟨5, 5⟩
/-- `SV_SUP_STAT.VBATOK`, RO: VBAT above 1.6 V. -/
def SV_SUP_STAT_VBATOK : Fld := ⟨4, 4⟩
/-- `SV_SUP_STAT.VIO33OK`, RO: VIO33 within its thresholds. -/
def SV_SUP_STAT_VIO33OK : Fld := ⟨3, 3⟩
/-- `SV_SUP_STAT.VIO18OK`, RO: VIO18 within its thresholds. -/
def SV_SUP_STAT_VIO18OK : Fld := ⟨2, 2⟩
/-- `SV_SUP_STAT.VDDMOK`, RO: VDDM within its thresholds. -/
def SV_SUP_STAT_VDDMOK : Fld := ⟨1, 1⟩
/-- `SV_SUP_STAT.VCOREOK`, RO: VCORE within its thresholds. -/
def SV_SUP_STAT_VCOREOK : Fld := ⟨0, 0⟩

/-- Address of `SV_CLK_STAT` (R488). -/
def SV_CLK_STAT : Nat := 0x41000014
/-- `SV_CLK_STAT.VOTE`, RO: Latest vote: 0 all agree, 1 crystal outlier, 2 safety oscillator outlier, 3 monitor outlier. -/
def SV_CLK_STAT_VOTE : Fld := ⟨9, 8⟩
/-- `SV_CLK_STAT.X32`, RO: 32.768 kHz crystal in use. -/
def SV_CLK_STAT_X32 : Fld := ⟨5, 5⟩
/-- `SV_CLK_STAT.XTAL`, RO: 25 MHz crystal running. -/
def SV_CLK_STAT_XTAL : Fld := ⟨4, 4⟩
/-- `SV_CLK_STAT.LOCK`, RO: PLL locked: [0] core, [1] fabric, [2] PWM, [3] safety. -/
def SV_CLK_STAT_LOCK : Fld := ⟨3, 0⟩

/-- Address of `SV_TH_STAT` (R488). -/
def SV_TH_STAT : Nat := 0x41000018
/-- `SV_TH_STAT.BROKEN`, RO: Bit n: sensor n broken. -/
def SV_TH_STAT_BROKEN : Fld := ⟨28, 16⟩
/-- `SV_TH_STAT.PBAND`, RO: Power-die band, 0 to 4. -/
def SV_TH_STAT_PBAND : Fld := ⟨10, 8⟩
/-- `SV_TH_STAT.CBAND`, RO: Controller-die band, 0 to 4. -/
def SV_TH_STAT_CBAND : Fld := ⟨6, 4⟩
/-- `SV_TH_STAT.BAND`, RO: Band in force, 0 to 4. -/
def SV_TH_STAT_BAND : Fld := ⟨2, 0⟩

/-- Address of `SV_RTCLO` (R488). -/
def SV_RTCLO : Nat := 0x41000020
/-- `SV_RTCLO.RTC`, RO: RTC value on the chip-time scale, ns, low and high words per R173. -/
def SV_RTCLO_RTC : Fld := ⟨31, 0⟩

/-- Address of `SV_RTCHI` (R488). -/
def SV_RTCHI : Nat := 0x41000024
/-- `SV_RTCHI.RTC`, RO: RTC value on the chip-time scale, ns, low and high words per R173. -/
def SV_RTCHI_RTC : Fld := ⟨31, 0⟩

/-- Address of `SV_EVT` (R488). -/
def SV_EVT : Nat := 0x41000028
/-- `SV_EVT.REFUSED`, W1C: A write was refused. -/
def SV_EVT_REFUSED : Fld := ⟨5, 5⟩
/-- `SV_EVT.HOLD`, W1C: A CT output hold started. -/
def SV_EVT_HOLD : Fld := ⟨4, 4⟩
/-- `SV_EVT.CLKVOTE`, W1C: The vote found an outlier. -/
def SV_EVT_CLKVOTE : Fld := ⟨3, 3⟩
/-- `SV_EVT.BROKEN`, W1C: A sensor became broken. -/
def SV_EVT_BROKEN : Fld := ⟨2, 2⟩
/-- `SV_EVT.BAND`, W1C: The band in force changed. -/
def SV_EVT_BAND : Fld := ⟨1, 1⟩
/-- `SV_EVT.PF`, W1C: The power-fail threshold was crossed. -/
def SV_EVT_PF : Fld := ⟨0, 0⟩

/-- Address of `SV_CNT` (R488). -/
def SV_CNT : Nat := 0x4100002c
/-- `SV_CNT.REFUSEDN`, RC: Occurrences, saturating at 15. -/
def SV_CNT_REFUSEDN : Fld := ⟨31, 28⟩
/-- `SV_CNT.HOLDN`, RC: Occurrences, saturating at 15. -/
def SV_CNT_HOLDN : Fld := ⟨27, 24⟩
/-- `SV_CNT.CLKVOTEN`, RC: Occurrences, saturating at 255. -/
def SV_CNT_CLKVOTEN : Fld := ⟨23, 16⟩
/-- `SV_CNT.BROKENN`, RC: Occurrences, saturating. -/
def SV_CNT_BROKENN : Fld := ⟨15, 8⟩
/-- `SV_CNT.BANDN`, RC: Occurrences, saturating at 15. -/
def SV_CNT_BANDN : Fld := ⟨7, 4⟩
/-- `SV_CNT.PFN`, RC: Occurrences, saturating at 15. -/
def SV_CNT_PFN : Fld := ⟨3, 0⟩

/-- Address of `SV_TSENS` (R488). -/
def SV_TSENS (n : Nat) : Nat := 0x41000040 + n * 0x4
/-- `SV_TSENS.TS`, RO: Reading of sensor n, temperature code; 0x7FFF broken; n 0–8 controller die, 9–12 power die. -/
def SV_TSENS_TS : Fld := ⟨15, 0⟩

/-- The register descriptors of the fabric (FB) and supervisor (SV), one row per register array (R3, R513). -/
def regRowsFB0 : List RegRow := [
  -- FB_XBAR_WGT
  ⟨0x40000000, [], 0x1122244, [⟨FB_XBAR_WGT_WGT, .rwl, 0, 268435455⟩], EV_FB_REFUSED⟩,
  -- FB_FLT_CFG
  ⟨0x40000004, [], 0x640a0a33, [⟨FB_FLT_CFG_TACTMAX, .rwl, 1, 255⟩, ⟨FB_FLT_CFG_BWAIT, .rwl, 1, 255⟩, ⟨FB_FLT_CFG_QWAIT, .rwl, 1, 255⟩, ⟨FB_FLT_CFG_BRETRY, .rwl, 1, 15⟩, ⟨FB_FLT_CFG_GRETRY, .rwl, 1, 15⟩], EV_FB_REFUSED⟩,
  -- FB_FLT_LAST
  ⟨0x40000008, [], 0x0, [⟨FB_FLT_LAST_SRC, .ro, 0, 4095⟩, ⟨FB_FLT_LAST_CLASS, .ro, 0, 3⟩, ⟨FB_FLT_LAST_LEVEL, .ro, 0, 3⟩, ⟨FB_FLT_LAST_CODE, .ro, 0, 65535⟩], EV_FB_REFUSED⟩,
  -- FB_FLT_EVT
  ⟨0x4000000c, [], 0x0, [⟨FB_FLT_EVT_ESCAL, .w1c, 0, 1⟩, ⟨FB_FLT_EVT_OVERLAP, .w1c, 0, 1⟩, ⟨FB_FLT_EVT_FATAL, .w1c, 0, 1⟩, ⟨FB_FLT_EVT_RECOV, .w1c, 0, 1⟩, ⟨FB_FLT_EVT_CORR, .w1c, 0, 1⟩], EV_FB_REFUSED⟩,
  -- FB_FLT_CNT0
  ⟨0x40000010, [], 0x0, [⟨FB_FLT_CNT0_CORRN, .rc, 0, 65535⟩, ⟨FB_FLT_CNT0_RECOVN, .rc, 0, 255⟩, ⟨FB_FLT_CNT0_FATALN, .rc, 0, 255⟩], EV_FB_REFUSED⟩,
  -- FB_FLT_CNT1
  ⟨0x40000014, [], 0x0, [⟨FB_FLT_CNT1_ESCALN, .rc, 0, 255⟩, ⟨FB_FLT_CNT1_OVERLAPN, .rc, 0, 255⟩], EV_FB_REFUSED⟩,
  -- FB_FLT_REL
  ⟨0x40000018, [], 0x0, [⟨FB_FLT_REL_SRC, .wo, 0, 4095⟩], EV_FB_REFUSED⟩,
  -- FB_Q_CFG
  ⟨0x40100000, [(0x10, 64)], 0x20000000, [⟨FB_Q_CFG_EN, .rw, 0, 1⟩, ⟨FB_Q_CFG_FULLRF, .rw, 0, 1⟩, ⟨FB_Q_CFG_VC, .rw, 1, 2⟩, ⟨FB_Q_CFG_CONS, .rw, 0, 4095⟩, ⟨FB_Q_CFG_SIZE, .rw, 0, 6⟩, ⟨FB_Q_CFG_WMARK, .rw, 0, 1023⟩], EV_FB_REFUSED⟩,
  -- FB_Q_STAT
  ⟨0x40100004, [(0x10, 64)], 0x0, [⟨FB_Q_STAT_OVFN, .rc, 0, 255⟩, ⟨FB_Q_STAT_OVF, .w1c, 0, 1⟩, ⟨FB_Q_STAT_COUNT, .ro, 0, 2047⟩], EV_FB_REFUSED⟩,
  -- FB_PMON_CTL
  ⟨0x40200000, [], 0x0, [⟨FB_PMON_CTL_CLRALL, .wo, 0, 1⟩, ⟨FB_PMON_CTL_FREEZE, .rw, 0, 1⟩, ⟨FB_PMON_CTL_EN, .rw, 0, 1⟩], EV_FB_REFUSED⟩,
  -- FB_PMON_SEL
  ⟨0x40200100, [(0x4, 64)], 0x0, [⟨FB_PMON_SEL_OVFPOST, .rw, 0, 1⟩, ⟨FB_PMON_SEL_DEST, .rw, 0, 4095⟩, ⟨FB_PMON_SEL_SRC, .rw, 0, 1023⟩], EV_FB_REFUSED⟩,
  -- FB_PMON_CNTLO
  ⟨0x40200400, [(0x8, 64)], 0x0, [⟨FB_PMON_CNTLO_CNTLO, .ro, 0, 4294967295⟩], EV_FB_REFUSED⟩,
  -- FB_PMON_CNTHI
  ⟨0x40200404, [(0x8, 64)], 0x0, [⟨FB_PMON_CNTHI_OVFN, .rc, 0, 255⟩, ⟨FB_PMON_CNTHI_CNTHI, .ro, 0, 65535⟩], EV_FB_REFUSED⟩,
  -- FB_DL_ESC
  ⟨0x40300000, [(0x4, 4)], 0x0, [⟨FB_DL_ESC_ESCH, .rwl, 0, 65535⟩, ⟨FB_DL_ESC_ESCL, .rwl, 0, 65535⟩], EV_FB_REFUSED⟩,
  -- FB_DL_STAT
  ⟨0x40300010, [], 0x0, [⟨FB_DL_STAT_MISS, .w1c, 0, 255⟩], EV_FB_REFUSED⟩,
  -- FB_DL_CNT0
  ⟨0x40300014, [], 0x0, [⟨FB_DL_CNT0_MISSN, .rc, 0, 4294967295⟩], EV_FB_REFUSED⟩,
  -- FB_DL_CNT1
  ⟨0x40300018, [], 0x0, [⟨FB_DL_CNT1_MISSN, .rc, 0, 4294967295⟩], EV_FB_REFUSED⟩,
  -- FB_WDOG_CTL
  ⟨0x40300020, [], 0x3e8, [⟨FB_WDOG_CTL_WEN, .rwl, 0, 1⟩, ⟨FB_WDOG_CTL_BADN, .rc, 0, 255⟩, ⟨FB_WDOG_CTL_PERIOD, .rwl, 1, 1000⟩], EV_FB_REFUSED⟩,
  -- FB_WDOG_KICK
  ⟨0x40300024, [], 0x0, [⟨FB_WDOG_KICK_KICK, .wo, 0, 4294967295⟩], EV_FB_REFUSED⟩,
  -- SV_RST_STAT
  ⟨0x41000000, [], 0x1, [⟨SV_RST_STAT_GLITCHN, .rc, 0, 65535⟩, ⟨SV_RST_STAT_PRESEQ, .ro, 0, 1⟩, ⟨SV_RST_STAT_CAUSE, .ro, 0, 15⟩], EV_SV_REFUSED⟩,
  -- SV_RST_HOLD
  ⟨0x41000004, [], 0x0, [⟨SV_RST_HOLD_HOLDMS, .ro, 0, 4294967295⟩], EV_SV_REFUSED⟩,
  -- SV_HOLD_CTL
  ⟨0x41000008, [], 0x32, [⟨SV_HOLD_CTL_RECLAIM, .wo, 0, 1⟩, ⟨SV_HOLD_CTL_HOLDING, .ro, 0, 1⟩, ⟨SV_HOLD_CTL_THOLD, .rwl, 1, 500⟩], EV_SV_REFUSED⟩,
  -- SV_PF_CFG
  ⟨0x4100000c, [], 0xb4000a, [⟨SV_PF_CFG_PFTH, .rwl, 90, 300⟩, ⟨SV_PF_CFG_PFHYS, .rwl, 5, 50⟩], EV_SV_REFUSED⟩,
  -- SV_SUP_STAT
  ⟨0x41000010, [], 0x0, [⟨SV_SUP_STAT_VSYS, .ro, 0, 65535⟩, ⟨SV_SUP_STAT_RTCLOST, .ro, 0, 1⟩, ⟨SV_SUP_STAT_PF, .ro, 0, 1⟩, ⟨SV_SUP_STAT_VBATOK, .ro, 0, 1⟩, ⟨SV_SUP_STAT_VIO33OK, .ro, 0, 1⟩, ⟨SV_SUP_STAT_VIO18OK, .ro, 0, 1⟩, ⟨SV_SUP_STAT_VDDMOK, .ro, 0, 1⟩, ⟨SV_SUP_STAT_VCOREOK, .ro, 0, 1⟩], EV_SV_REFUSED⟩,
  -- SV_CLK_STAT
  ⟨0x41000014, [], 0x0, [⟨SV_CLK_STAT_VOTE, .ro, 0, 3⟩, ⟨SV_CLK_STAT_X32, .ro, 0, 1⟩, ⟨SV_CLK_STAT_XTAL, .ro, 0, 1⟩, ⟨SV_CLK_STAT_LOCK, .ro, 0, 15⟩], EV_SV_REFUSED⟩
]

def regRowsFB1 : List RegRow := [
  -- SV_TH_STAT
  ⟨0x41000018, [], 0x0, [⟨SV_TH_STAT_BROKEN, .ro, 0, 8191⟩, ⟨SV_TH_STAT_PBAND, .ro, 0, 7⟩, ⟨SV_TH_STAT_CBAND, .ro, 0, 7⟩, ⟨SV_TH_STAT_BAND, .ro, 0, 7⟩], EV_SV_REFUSED⟩,
  -- SV_RTCLO
  ⟨0x41000020, [], 0x0, [⟨SV_RTCLO_RTC, .ro, 0, 4294967295⟩], EV_SV_REFUSED⟩,
  -- SV_RTCHI
  ⟨0x41000024, [], 0x0, [⟨SV_RTCHI_RTC, .ro, 0, 4294967295⟩], EV_SV_REFUSED⟩,
  -- SV_EVT
  ⟨0x41000028, [], 0x0, [⟨SV_EVT_REFUSED, .w1c, 0, 1⟩, ⟨SV_EVT_HOLD, .w1c, 0, 1⟩, ⟨SV_EVT_CLKVOTE, .w1c, 0, 1⟩, ⟨SV_EVT_BROKEN, .w1c, 0, 1⟩, ⟨SV_EVT_BAND, .w1c, 0, 1⟩, ⟨SV_EVT_PF, .w1c, 0, 1⟩], EV_SV_REFUSED⟩,
  -- SV_CNT
  ⟨0x4100002c, [], 0x0, [⟨SV_CNT_REFUSEDN, .rc, 0, 15⟩, ⟨SV_CNT_HOLDN, .rc, 0, 15⟩, ⟨SV_CNT_CLKVOTEN, .rc, 0, 255⟩, ⟨SV_CNT_BROKENN, .rc, 0, 255⟩, ⟨SV_CNT_BANDN, .rc, 0, 15⟩, ⟨SV_CNT_PFN, .rc, 0, 15⟩], EV_SV_REFUSED⟩,
  -- SV_TSENS
  ⟨0x41000040, [(0x4, 13)], 0x0, [⟨SV_TSENS_TS, .ro, 0, 65535⟩], EV_SV_REFUSED⟩
]

/-- All register rows of the fabric (FB) and supervisor (SV). -/
def regRowsFB : List RegRow := regRowsFB0 ++ regRowsFB1

end Sys2Proof.Machine
end

