-- ==== Sys2Proof/Machine/RegsPS.lean ====
section
/-!
DEFINITION. The registers of the persistence region (PS): addresses, fields, access types, ranges and reset values, from the register tables of the spec.
-/

namespace Sys2Proof.Machine

/-- Address of `PS_MRAM_STAT` (R444). -/
def PS_MRAM_STAT : Nat := 0x46000000
/-- `PS_MRAM_STAT.SPARES`, RO: Spare rows in use, 0 to 440. -/
def PS_MRAM_STAT_SPARES : Fld := ⟨31, 23⟩
/-- `PS_MRAM_STAT.SBAND`, RO: Band governing the present pass. -/
def PS_MRAM_STAT_SBAND : Fld := ⟨22, 20⟩
/-- `PS_MRAM_STAT.SCRUBPOS`, RO: Pass progress, 16 KB units. -/
def PS_MRAM_STAT_SCRUBPOS : Fld := ⟨9, 0⟩

/-- Address of `PS_MRAM_EVT` (R444). -/
def PS_MRAM_EVT : Nat := 0x46000004
/-- `PS_MRAM_EVT.UNCORR`, W1C: An uncorrectable word. -/
def PS_MRAM_EVT_UNCORR : Fld := ⟨2, 2⟩
/-- `PS_MRAM_EVT.REMAP`, W1C: A row was remapped. -/
def PS_MRAM_EVT_REMAP : Fld := ⟨1, 1⟩
/-- `PS_MRAM_EVT.LATE`, W1C: A scrub pass was late. -/
def PS_MRAM_EVT_LATE : Fld := ⟨0, 0⟩

/-- Address of `PS_MRAM_CNT` (R444). -/
def PS_MRAM_CNT : Nat := 0x46000008
/-- `PS_MRAM_CNT.CORRN`, RC: Scrub corrections, saturating at 65,535. -/
def PS_MRAM_CNT_CORRN : Fld := ⟨31, 16⟩
/-- `PS_MRAM_CNT.UNCORRN`, RC: [15:12] and [11:8], occurrences, saturating at 15. -/
def PS_MRAM_CNT_UNCORRN : Fld := ⟨15, 12⟩
/-- `PS_MRAM_CNT.REMAPN`, RC: [15:12] and [11:8], occurrences, saturating at 15. -/
def PS_MRAM_CNT_REMAPN : Fld := ⟨11, 8⟩
/-- `PS_MRAM_CNT.LATEN`, RC: Occurrences, saturating at 255. -/
def PS_MRAM_CNT_LATEN : Fld := ⟨7, 0⟩

/-- Address of `LEDGER_CTL` (R444). -/
def LEDGER_CTL : Nat := 0x46100000
/-- `LEDGER_CTL.COMMISSION`, RWLC: A write of 1 commissions under R426 while the gate is unlocked; a write of 0 does nothing; stores nothing and reads 0 (R514). -/
def LEDGER_CTL_COMMISSION : Fld := ⟨31, 31⟩
/-- `LEDGER_CTL.SEDCLR`, RWLC: A write of 1 clears the sediment view under R427 while the gate is unlocked; a write of 0 does nothing; stores nothing and reads 0 (R514). -/
def LEDGER_CTL_SEDCLR : Fld := ⟨30, 30⟩
/-- `LEDGER_CTL.LDBG`, RWL: Forward severity-0 events. -/
def LEDGER_CTL_LDBG : Fld := ⟨29, 29⟩

/-- Address of `LEDGER_STAT` (R444). -/
def LEDGER_STAT : Nat := 0x46100004
/-- `LEDGER_STAT.CMSN`, RO: Commissioned. -/
def LEDGER_STAT_CMSN : Fld := ⟨31, 31⟩
/-- `LEDGER_STAT.COMMIT`, RO: Commit mode. -/
def LEDGER_STAT_COMMIT : Fld := ⟨30, 30⟩
/-- `LEDGER_STAT.JPEND`, RO: Journal pending. -/
def LEDGER_STAT_JPEND : Fld := ⟨29, 29⟩
/-- `LEDGER_STAT.BEDN`, RO: Bedrock records, 0 to 4,096. -/
def LEDGER_STAT_BEDN : Fld := ⟨12, 0⟩

/-- Address of `LEDGER_SEQNEW` (R444). -/
def LEDGER_SEQNEW : Nat := 0x46100008
/-- `LEDGER_SEQNEW.SEQ`, RO: Newest persisted sequence; oldest reachable sequence. -/
def LEDGER_SEQNEW_SEQ : Fld := ⟨31, 0⟩

/-- Address of `LEDGER_SEQOLD` (R444). -/
def LEDGER_SEQOLD : Nat := 0x4610000c
/-- `LEDGER_SEQOLD.SEQ`, RO: Newest persisted sequence; oldest reachable sequence. -/
def LEDGER_SEQOLD_SEQ : Fld := ⟨31, 0⟩

/-- Address of `LEDGER_RSEL` (R444). -/
def LEDGER_RSEL : Nat := 0x46100010
/-- `LEDGER_RSEL.AREA`, RW: 0 sediment, 1 bedrock. -/
def LEDGER_RSEL_AREA : Fld := ⟨0, 0⟩

/-- Address of `LEDGER_CUR` (R444). -/
def LEDGER_CUR : Nat := 0x46100014
/-- `LEDGER_CUR.CUR`, RW: Sequence, or bedrock index 0 to 4,095, per R429. -/
def LEDGER_CUR_CUR : Fld := ⟨31, 0⟩

/-- Address of `LEDGER_EVT` (R444). -/
def LEDGER_EVT : Nat := 0x46100018
/-- `LEDGER_EVT.WEAR`, W1C: Mean rate above 1,000 records/s. -/
def LEDGER_EVT_WEAR : Fld := ⟨4, 4⟩
/-- `LEDGER_EVT.REFUSED`, W1C: A write was refused. -/
def LEDGER_EVT_REFUSED : Fld := ⟨3, 3⟩
/-- `LEDGER_EVT.LAPPED`, W1C: The cursor was overtaken. -/
def LEDGER_EVT_LAPPED : Fld := ⟨2, 2⟩
/-- `LEDGER_EVT.LOST`, W1C: A stack drop or buffer overwrite. -/
def LEDGER_EVT_LOST : Fld := ⟨1, 1⟩
/-- `LEDGER_EVT.SUPPR`, W1C: An event was suppressed. -/
def LEDGER_EVT_SUPPR : Fld := ⟨0, 0⟩

/-- Address of `LEDGER_CNT` (R444). -/
def LEDGER_CNT : Nat := 0x4610001c
/-- `LEDGER_CNT.WEARN`, RC: Occurrences, saturating at 255. -/
def LEDGER_CNT_WEARN : Fld := ⟨31, 24⟩
/-- `LEDGER_CNT.REFUSEDN`, RC: Occurrences, saturating. -/
def LEDGER_CNT_REFUSEDN : Fld := ⟨23, 16⟩
/-- `LEDGER_CNT.LAPPEDN`, RC: Occurrences, saturating. -/
def LEDGER_CNT_LAPPEDN : Fld := ⟨15, 8⟩
/-- `LEDGER_CNT.LOSTN`, RC: Occurrences, saturating at 15. -/
def LEDGER_CNT_LOSTN : Fld := ⟨7, 4⟩
/-- `LEDGER_CNT.SUPPRN`, RC: Occurrences, saturating at 15. -/
def LEDGER_CNT_SUPPRN : Fld := ⟨3, 0⟩

/-- Address of `LEDGER_BCLR` (R444). -/
def LEDGER_BCLR : Nat := 0x46100020
/-- `LEDGER_BCLR.BSRC`, WO: Clears entries 0–15 of the block named, per R167. -/
def LEDGER_BCLR_BSRC : Fld := ⟨11, 0⟩

/-- Address of `LEDGER_CLHEAD` (R444). -/
def LEDGER_CLHEAD : Nat := 0x46100024
/-- `LEDGER_CLHEAD.CLIDX`, RO: Slot of the newest change-log entry. -/
def LEDGER_CLHEAD_CLIDX : Fld := ⟨11, 0⟩

/-- Address of `LEDGER_WIN` (R444). -/
def LEDGER_WIN (n : Nat) : Nat := 0x46100040 + n * 0x4
/-- `LEDGER_WIN.WIN`, RO: Record bytes 4n to 4n + 3, per R429. -/
def LEDGER_WIN_WIN : Fld := ⟨31, 0⟩

/-- Address of `LEDGER_SEVR` (R444). -/
def LEDGER_SEVR (n : Nat) : Nat := 0x46100080 + n * 0x4
/-- `LEDGER_SEVR.RATE`, RWL: Tokens per s, 1 to 1,000. -/
def LEDGER_SEVR_RATE : Fld := ⟨25, 16⟩
/-- `LEDGER_SEVR.BURST`, RWL: Burst, 1 to 255. -/
def LEDGER_SEVR_BURST : Fld := ⟨7, 0⟩

/-- Address of `LEDGER_RLC` (R444). -/
def LEDGER_RLC (n : Nat) : Nat := 0x46100100 + n * 0x8
/-- `LEDGER_RLC.REN`, RWL: RLC: entry enabled. -/
def LEDGER_RLC_REN : Fld := ⟨31, 31⟩
/-- `LEDGER_RLC.CODE`, RWL: RLC: code. -/
def LEDGER_RLC_CODE : Fld := ⟨15, 0⟩

/-- Address of `LEDGER_RLR` (R444). -/
def LEDGER_RLR (n : Nat) : Nat := 0x46100104 + n * 0x8
/-- `LEDGER_RLR.RATE`, RWL: RLR: tokens per s, 1 to 1,000. -/
def LEDGER_RLR_RATE : Fld := ⟨25, 16⟩
/-- `LEDGER_RLR.BURST`, RWL: RLR: burst, 1 to 255. -/
def LEDGER_RLR_BURST : Fld := ⟨7, 0⟩

/-- Address of `LEDGER_SNAPC` (R444). -/
def LEDGER_SNAPC (k : Nat) : Nat := 0x46100800 + k * 0x40
/-- `LEDGER_SNAPC.SEN`, RWL: SNAPC: set enabled. -/
def LEDGER_SNAPC_SEN : Fld := ⟨31, 31⟩
/-- `LEDGER_SNAPC.SCODE`, RWL: SNAPC: trigger code. -/
def LEDGER_SNAPC_SCODE : Fld := ⟨15, 0⟩

/-- Address of `LEDGER_SNAPA` (R444). -/
def LEDGER_SNAPA (k : Nat) (j : Nat) : Nat := 0x46100804 + k * 0x40 + j * 0x4
/-- `LEDGER_SNAPA.SADDR`, RWL: SNAPA: address per R428; 0 ends the list. -/
def LEDGER_SNAPA_SADDR : Fld := ⟨31, 0⟩

/-- Address of `CG_CTL` (R468). -/
def CG_CTL : Nat := 0x46200000
/-- `CG_CTL.UNLOCK`, WO: R461. -/
def CG_CTL_UNLOCK : Fld := ⟨31, 31⟩
/-- `CG_CTL.LOCK`, WO: R463. -/
def CG_CTL_LOCK : Fld := ⟨30, 30⟩
/-- `CG_CTL.SETPW`, WO: R464. -/
def CG_CTL_SETPW : Fld := ⟨29, 29⟩
/-- `CG_CTL.CLRPW`, WO: R464. -/
def CG_CTL_CLRPW : Fld := ⟨28, 28⟩
/-- `CG_CTL.PSLOT`, RW: Password slot. -/
def CG_CTL_PSLOT : Fld := ⟨25, 24⟩
/-- `CG_CTL.PWLEN`, RW: Password length, 0 to 63 stored; `UNLOCK` and `SETPW` need 1 to 32 (R461). -/
def CG_CTL_PWLEN : Fld := ⟨21, 16⟩
/-- `CG_CTL.CGTO`, RWL: Idle relock, min, 1 to 60. -/
def CG_CTL_CGTO : Fld := ⟨7, 0⟩

/-- Address of `CG_STAT` (R468). -/
def CG_STAT : Nat := 0x46200004
/-- `CG_STAT.UNLOCKED`, RO: Gate unlocked. -/
def CG_STAT_UNLOCKED : Fld := ⟨31, 31⟩
/-- `CG_STAT.USED`, RO: Slot of the unlock in force. -/
def CG_STAT_USED : Fld := ⟨30, 29⟩
/-- `CG_STAT.SET`, RO: Bit k: slot k holds a password. -/
def CG_STAT_SET : Fld := ⟨28, 25⟩
/-- `CG_STAT.FAILS`, RO: Failures, 0 to 5. -/
def CG_STAT_FAILS : Fld := ⟨24, 22⟩
/-- `CG_STAT.LOCKN`, RO: Lockouts since the last unlock, saturating at 31. -/
def CG_STAT_LOCKN : Fld := ⟨21, 17⟩
/-- `CG_STAT.LOCKREM`, RO: Lockout left, min, 0 to 1,440. -/
def CG_STAT_LOCKREM : Fld := ⟨10, 0⟩

/-- Address of `CG_PW` (R468). -/
def CG_PW (n : Nat) : Nat := 0x46200040 + n * 0x4
/-- `CG_PW.PW`, WO: Password word n. -/
def CG_PW_PW : Fld := ⟨31, 0⟩

/-- Address of `PS_KEY_CTL` (R468). -/
def PS_KEY_CTL : Nat := 0x46300000
/-- `PS_KEY_CTL.IMPORT`, WO: R459. -/
def PS_KEY_CTL_IMPORT : Fld := ⟨31, 31⟩
/-- `PS_KEY_CTL.VALID`, RO: Bit k: slot k valid. -/
def PS_KEY_CTL_VALID : Fld := ⟨15, 0⟩

/-- Address of `PS_KEY_BLOB` (R468). -/
def PS_KEY_BLOB (n : Nat) : Nat := 0x46300040 + n * 0x4
/-- `PS_KEY_BLOB.BLOB`, WO: Key blob word n. -/
def PS_KEY_BLOB_BLOB : Fld := ⟨31, 0⟩

/-- Address of `LT_CTL` (R444). -/
def LT_CTL : Nat := 0x46400000
/-- `LT_CTL.EN`, RWL: Store running. -/
def LT_CTL_EN : Fld := ⟨31, 31⟩
/-- `LT_CTL.LTQ`, RWL: Input queue. -/
def LT_CTL_LTQ : Fld := ⟨29, 24⟩
/-- `LT_CTL.LTDONEQ`, RWL: Return queue. -/
def LT_CTL_LTDONEQ : Fld := ⟨21, 16⟩
/-- `LT_CTL.LTROLL`, RWL: Rolling period, s, 60 to 3,600. -/
def LT_CTL_LTROLL : Fld := ⟨11, 0⟩

/-- Address of `LT_MAP0` (R444). -/
def LT_MAP0 : Nat := 0x46400004
/-- `LT_MAP0.MAP`, RWL: 4 bits per port from [3:0], ports 0–7 and 8–15: string 0 to 11, 15 none; 12–14 refused. -/
def LT_MAP0_MAP : Fld := ⟨31, 0⟩

/-- Address of `LT_MAP1` (R444). -/
def LT_MAP1 : Nat := 0x46400008
/-- `LT_MAP1.MAP`, RWL: 4 bits per port from [3:0], ports 0–7 and 8–15: string 0 to 11, 15 none; 12–14 refused. -/
def LT_MAP1_MAP : Fld := ⟨31, 0⟩

/-- Address of `LT_STAT` (R444). -/
def LT_STAT : Nat := 0x4640000c
/-- `LT_STAT.REDO`, RO: Next redo slot, 0 to 47. -/
def LT_STAT_REDO : Fld := ⟨21, 16⟩
/-- `LT_STAT.INUSE`, RO: Cell records in use. -/
def LT_STAT_INUSE : Fld := ⟨14, 0⟩

/-- Address of `PS_BOOT_STAT` (R468). -/
def PS_BOOT_STAT : Nat := 0x46401000
/-- `PS_BOOT_STAT.DBGOPEN`, RO: A token is in force. -/
def PS_BOOT_STAT_DBGOPEN : Fld := ⟨31, 31⟩
/-- `PS_BOOT_STAT.DBGSCOPE`, RO: Scope open. -/
def PS_BOOT_STAT_DBGSCOPE : Fld := ⟨30, 25⟩
/-- `PS_BOOT_STAT.ARB`, RO: Counter, 0 to 64. -/
def PS_BOOT_STAT_ARB : Fld := ⟨24, 18⟩
/-- `PS_BOOT_STAT.OUTCOME`, RO: 0 preferred, 1 fallback, 2 forced, 3 recovery. -/
def PS_BOOT_STAT_OUTCOME : Fld := ⟨17, 16⟩
/-- `PS_BOOT_STAT.BOOTPIN`, RO: BOOT[2:0] as sampled. -/
def PS_BOOT_STAT_BOOTPIN : Fld := ⟨15, 13⟩
/-- `PS_BOOT_STAT.SLOT`, RO: 0 A, 1 B. -/
def PS_BOOT_STAT_SLOT : Fld := ⟨12, 12⟩
/-- `PS_BOOT_STAT.REVOKED`, RO: Bit k: hash k revoked. -/
def PS_BOOT_STAT_REVOKED : Fld := ⟨11, 8⟩
/-- `PS_BOOT_STAT.HASHSET`, RO: Bit k: hash k programmed. -/
def PS_BOOT_STAT_HASHSET : Fld := ⟨7, 4⟩

/-- Address of `PS_BOOT_CMD` (R468). -/
def PS_BOOT_CMD : Nat := 0x46401004
/-- `PS_BOOT_CMD.CONFIRM`, WO: R454. -/
def PS_BOOT_CMD_CONFIRM : Fld := ⟨31, 31⟩
/-- `PS_BOOT_CMD.REBOOT`, WO: R454. -/
def PS_BOOT_CMD_REBOOT : Fld := ⟨30, 30⟩
/-- `PS_BOOT_CMD.DBGLOCK`, WO: Closes the debug scope. -/
def PS_BOOT_CMD_DBGLOCK : Fld := ⟨29, 29⟩
/-- `PS_BOOT_CMD.DBGGO`, WO: Checks the token, R468. -/
def PS_BOOT_CMD_DBGGO : Fld := ⟨28, 28⟩
/-- `PS_BOOT_CMD.ARBGO`, WO: Burns to `ARBSET`. -/
def PS_BOOT_CMD_ARBGO : Fld := ⟨23, 23⟩
/-- `PS_BOOT_CMD.ARBSET`, WO: Counter value, 0 to 64. -/
def PS_BOOT_CMD_ARBSET : Fld := ⟨22, 16⟩
/-- `PS_BOOT_CMD.REVGO`, WO: Revokes `REVKEY`. -/
def PS_BOOT_CMD_REVGO : Fld := ⟨15, 15⟩
/-- `PS_BOOT_CMD.REVKEY`, WO: Key hash index. -/
def PS_BOOT_CMD_REVKEY : Fld := ⟨9, 8⟩

/-- Address of `PS_OTP_PRG` (R468). -/
def PS_OTP_PRG : Nat := 0x46401008
/-- `PS_OTP_PRG.GO`, WO: Burns the bit, R466. -/
def PS_OTP_PRG_GO : Fld := ⟨31, 31⟩
/-- `PS_OTP_PRG.BUSY`, RO: Burn in progress. -/
def PS_OTP_PRG_BUSY : Fld := ⟨30, 30⟩
/-- `PS_OTP_PRG.BIT`, WO: Bit address, byte offset × 8 + bit. -/
def PS_OTP_PRG_BIT : Fld := ⟨15, 0⟩

/-- Address of `PS_DBG_CHAL` (R468). -/
def PS_DBG_CHAL (n : Nat) : Nat := 0x46401040 + n * 0x4
/-- `PS_DBG_CHAL.CHAL`, RO: Challenge word n. -/
def PS_DBG_CHAL_CHAL : Fld := ⟨31, 0⟩

/-- Address of `PS_DBG_TOK` (R468). -/
def PS_DBG_TOK (n : Nat) : Nat := 0x46401100 + n * 0x4
/-- `PS_DBG_TOK.TOK`, WO: Debug token word n. -/
def PS_DBG_TOK_TOK : Fld := ⟨31, 0⟩

/-- The register descriptors of the persistence region (PS), one row per register array (R3, R513). -/
def regRowsPS0 : List RegRow := [
  -- PS_MRAM_STAT
  ⟨0x46000000, [], 0x0, [⟨PS_MRAM_STAT_SPARES, .ro, 0, 511⟩, ⟨PS_MRAM_STAT_SBAND, .ro, 0, 7⟩, ⟨PS_MRAM_STAT_SCRUBPOS, .ro, 0, 1023⟩], EV_LED_REFUSED⟩,
  -- PS_MRAM_EVT
  ⟨0x46000004, [], 0x0, [⟨PS_MRAM_EVT_UNCORR, .w1c, 0, 1⟩, ⟨PS_MRAM_EVT_REMAP, .w1c, 0, 1⟩, ⟨PS_MRAM_EVT_LATE, .w1c, 0, 1⟩], EV_LED_REFUSED⟩,
  -- PS_MRAM_CNT
  ⟨0x46000008, [], 0x0, [⟨PS_MRAM_CNT_CORRN, .rc, 0, 65535⟩, ⟨PS_MRAM_CNT_UNCORRN, .rc, 0, 15⟩, ⟨PS_MRAM_CNT_REMAPN, .rc, 0, 15⟩, ⟨PS_MRAM_CNT_LATEN, .rc, 0, 255⟩], EV_LED_REFUSED⟩,
  -- LEDGER_CTL
  ⟨0x46100000, [], 0x0, [⟨LEDGER_CTL_COMMISSION, .rwl, 0, 1⟩, ⟨LEDGER_CTL_SEDCLR, .rwl, 0, 1⟩, ⟨LEDGER_CTL_LDBG, .rwl, 0, 1⟩], EV_LED_REFUSED⟩,
  -- LEDGER_STAT
  ⟨0x46100004, [], 0x0, [⟨LEDGER_STAT_CMSN, .ro, 0, 1⟩, ⟨LEDGER_STAT_COMMIT, .ro, 0, 1⟩, ⟨LEDGER_STAT_JPEND, .ro, 0, 1⟩, ⟨LEDGER_STAT_BEDN, .ro, 0, 8191⟩], EV_LED_REFUSED⟩,
  -- LEDGER_SEQNEW
  ⟨0x46100008, [], 0x0, [⟨LEDGER_SEQNEW_SEQ, .ro, 0, 4294967295⟩], EV_LED_REFUSED⟩,
  -- LEDGER_SEQOLD
  ⟨0x4610000c, [], 0x0, [⟨LEDGER_SEQOLD_SEQ, .ro, 0, 4294967295⟩], EV_LED_REFUSED⟩,
  -- LEDGER_RSEL
  ⟨0x46100010, [], 0x0, [⟨LEDGER_RSEL_AREA, .rw, 0, 1⟩], EV_LED_REFUSED⟩,
  -- LEDGER_CUR
  ⟨0x46100014, [], 0x0, [⟨LEDGER_CUR_CUR, .rw, 0, 4294967295⟩], EV_LED_REFUSED⟩,
  -- LEDGER_EVT
  ⟨0x46100018, [], 0x0, [⟨LEDGER_EVT_WEAR, .w1c, 0, 1⟩, ⟨LEDGER_EVT_REFUSED, .w1c, 0, 1⟩, ⟨LEDGER_EVT_LAPPED, .w1c, 0, 1⟩, ⟨LEDGER_EVT_LOST, .w1c, 0, 1⟩, ⟨LEDGER_EVT_SUPPR, .w1c, 0, 1⟩], EV_LED_REFUSED⟩,
  -- LEDGER_CNT
  ⟨0x4610001c, [], 0x0, [⟨LEDGER_CNT_WEARN, .rc, 0, 255⟩, ⟨LEDGER_CNT_REFUSEDN, .rc, 0, 255⟩, ⟨LEDGER_CNT_LAPPEDN, .rc, 0, 255⟩, ⟨LEDGER_CNT_LOSTN, .rc, 0, 15⟩, ⟨LEDGER_CNT_SUPPRN, .rc, 0, 15⟩], EV_LED_REFUSED⟩,
  -- LEDGER_BCLR
  ⟨0x46100020, [], 0x0, [⟨LEDGER_BCLR_BSRC, .wo, 0, 4095⟩], EV_LED_REFUSED⟩,
  -- LEDGER_CLHEAD
  ⟨0x46100024, [], 0x0, [⟨LEDGER_CLHEAD_CLIDX, .ro, 0, 4095⟩], EV_LED_REFUSED⟩,
  -- LEDGER_WIN
  ⟨0x46100040, [(0x4, 16)], 0x0, [⟨LEDGER_WIN_WIN, .ro, 0, 4294967295⟩], EV_LED_REFUSED⟩,
  -- LEDGER_SEVR
  ⟨0x46100080, [(0x4, 6)], 0x0, [⟨LEDGER_SEVR_RATE, .rwl, 1, 1000⟩, ⟨LEDGER_SEVR_BURST, .rwl, 1, 255⟩], EV_LED_REFUSED⟩,
  -- LEDGER_RLC
  ⟨0x46100100, [(0x8, 64)], 0x0, [⟨LEDGER_RLC_REN, .rwl, 0, 1⟩, ⟨LEDGER_RLC_CODE, .rwl, 0, 65535⟩], EV_LED_REFUSED⟩,
  -- LEDGER_RLR
  ⟨0x46100104, [(0x8, 64)], 0x0, [⟨LEDGER_RLR_RATE, .rwl, 1, 1000⟩, ⟨LEDGER_RLR_BURST, .rwl, 1, 255⟩], EV_LED_REFUSED⟩,
  -- LEDGER_SNAPC
  ⟨0x46100800, [(0x40, 16)], 0x0, [⟨LEDGER_SNAPC_SEN, .rwl, 0, 1⟩, ⟨LEDGER_SNAPC_SCODE, .rwl, 0, 65535⟩], EV_LED_REFUSED⟩,
  -- LEDGER_SNAPA
  ⟨0x46100804, [(0x40, 16), (0x4, 12)], 0x0, [⟨LEDGER_SNAPA_SADDR, .rwl, 0, 4294967295⟩], EV_LED_REFUSED⟩,
  -- CG_CTL
  ⟨0x46200000, [], 0xa, [⟨CG_CTL_UNLOCK, .wo, 0, 1⟩, ⟨CG_CTL_LOCK, .wo, 0, 1⟩, ⟨CG_CTL_SETPW, .wo, 0, 1⟩, ⟨CG_CTL_CLRPW, .wo, 0, 1⟩, ⟨CG_CTL_PSLOT, .rw, 0, 3⟩, ⟨CG_CTL_PWLEN, .rw, 0, 63⟩, ⟨CG_CTL_CGTO, .rwl, 1, 60⟩], EV_CG_REFUSED⟩,
  -- CG_STAT
  ⟨0x46200004, [], 0x0, [⟨CG_STAT_UNLOCKED, .ro, 0, 1⟩, ⟨CG_STAT_USED, .ro, 0, 3⟩, ⟨CG_STAT_SET, .ro, 0, 15⟩, ⟨CG_STAT_FAILS, .ro, 0, 7⟩, ⟨CG_STAT_LOCKN, .ro, 0, 31⟩, ⟨CG_STAT_LOCKREM, .ro, 0, 2047⟩], EV_CG_REFUSED⟩,
  -- CG_PW
  ⟨0x46200040, [(0x4, 8)], 0x0, [⟨CG_PW_PW, .wo, 0, 4294967295⟩], EV_CG_REFUSED⟩,
  -- PS_KEY_CTL
  ⟨0x46300000, [], 0x0, [⟨PS_KEY_CTL_IMPORT, .wo, 0, 1⟩, ⟨PS_KEY_CTL_VALID, .ro, 0, 65535⟩], EV_KEY_REFUSED⟩,
  -- PS_KEY_BLOB
  ⟨0x46300040, [(0x4, 16)], 0x0, [⟨PS_KEY_BLOB_BLOB, .wo, 0, 4294967295⟩], EV_KEY_REFUSED⟩,
  -- LT_CTL
  ⟨0x46400000, [], 0x258, [⟨LT_CTL_EN, .rwl, 0, 1⟩, ⟨LT_CTL_LTQ, .rwl, 0, 63⟩, ⟨LT_CTL_LTDONEQ, .rwl, 0, 63⟩, ⟨LT_CTL_LTROLL, .rwl, 60, 3600⟩], EV_LED_REFUSED⟩
]

def regRowsPS1 : List RegRow := [
  -- LT_MAP0
  ⟨0x46400004, [], 0xffffffff, [⟨LT_MAP0_MAP, .rwl, 0, 4294967295⟩], EV_LED_REFUSED⟩,
  -- LT_MAP1
  ⟨0x46400008, [], 0xffffffff, [⟨LT_MAP1_MAP, .rwl, 0, 4294967295⟩], EV_LED_REFUSED⟩,
  -- LT_STAT
  ⟨0x4640000c, [], 0x0, [⟨LT_STAT_REDO, .ro, 0, 63⟩, ⟨LT_STAT_INUSE, .ro, 0, 32767⟩], EV_LED_REFUSED⟩,
  -- PS_BOOT_STAT
  ⟨0x46401000, [], 0x0, [⟨PS_BOOT_STAT_DBGOPEN, .ro, 0, 1⟩, ⟨PS_BOOT_STAT_DBGSCOPE, .ro, 0, 63⟩, ⟨PS_BOOT_STAT_ARB, .ro, 0, 127⟩, ⟨PS_BOOT_STAT_OUTCOME, .ro, 0, 3⟩, ⟨PS_BOOT_STAT_BOOTPIN, .ro, 0, 7⟩, ⟨PS_BOOT_STAT_SLOT, .ro, 0, 1⟩, ⟨PS_BOOT_STAT_REVOKED, .ro, 0, 15⟩, ⟨PS_BOOT_STAT_HASHSET, .ro, 0, 15⟩], EV_BOOT_REFUSED⟩,
  -- PS_BOOT_CMD
  ⟨0x46401004, [], 0x0, [⟨PS_BOOT_CMD_CONFIRM, .wo, 0, 1⟩, ⟨PS_BOOT_CMD_REBOOT, .wo, 0, 1⟩, ⟨PS_BOOT_CMD_DBGLOCK, .wo, 0, 1⟩, ⟨PS_BOOT_CMD_DBGGO, .wo, 0, 1⟩, ⟨PS_BOOT_CMD_ARBGO, .wo, 0, 1⟩, ⟨PS_BOOT_CMD_ARBSET, .wo, 0, 64⟩, ⟨PS_BOOT_CMD_REVGO, .wo, 0, 1⟩, ⟨PS_BOOT_CMD_REVKEY, .wo, 0, 3⟩], EV_BOOT_REFUSED⟩,
  -- PS_OTP_PRG
  ⟨0x46401008, [], 0x0, [⟨PS_OTP_PRG_GO, .wo, 0, 1⟩, ⟨PS_OTP_PRG_BUSY, .ro, 0, 1⟩, ⟨PS_OTP_PRG_BIT, .wo, 0, 65535⟩], EV_BOOT_REFUSED⟩,
  -- PS_DBG_CHAL
  ⟨0x46401040, [(0x4, 4)], 0x0, [⟨PS_DBG_CHAL_CHAL, .ro, 0, 4294967295⟩], EV_BOOT_REFUSED⟩,
  -- PS_DBG_TOK
  ⟨0x46401100, [(0x4, 48)], 0x0, [⟨PS_DBG_TOK_TOK, .wo, 0, 4294967295⟩], EV_BOOT_REFUSED⟩
]

/-- All register rows of the persistence region (PS). -/
def regRowsPS : List RegRow := regRowsPS0 ++ regRowsPS1

end Sys2Proof.Machine
end

