-- ==== Sys2Proof/Machine/RegsPW.lean ====
section
/-!
DEFINITION. The registers of the power region (PW): addresses, fields, access types, ranges and reset values, from the register tables of the spec.
-/

namespace Sys2Proof.Machine

/-- Address of `PW_BUS_CFG` (R305). -/
def PW_BUS_CFG : Nat := 0x45000000
/-- `PW_BUS_CFG.TOACT`, RWL: Fallback: 0 move to `VAUTO`; 1 ramp to zero and idle. -/
def PW_BUS_CFG_TOACT : Fld := ⟨28, 28⟩
/-- `PW_BUS_CFG.VHEAD`, RWL: Headroom over the highest string, V. -/
def PW_BUS_CFG_VHEAD : Fld := ⟨23, 16⟩
/-- `PW_BUS_CFG.VSLEWDEF`, RWL: Default slew, 0.1 V/ms units, 1 to 255. -/
def PW_BUS_CFG_VSLEWDEF : Fld := ⟨15, 8⟩
/-- `PW_BUS_CFG.VBSRC`, RWL: AIC channel of the bus voltage. -/
def PW_BUS_CFG_VBSRC : Fld := ⟨2, 0⟩

/-- Address of `PW_BUS_VLIM` (R305). -/
def PW_BUS_VLIM : Nat := 0x45000004
/-- `PW_BUS_VLIM.VBMAX`, RWL: Largest target, 0.1 V units; 0 refuses every VSET with reason 2. -/
def PW_BUS_VLIM_VBMAX : Fld := ⟨31, 16⟩
/-- `PW_BUS_VLIM.VAUTO`, RWL: Autonomous target, 0.1 V units; 0 none. -/
def PW_BUS_VLIM_VAUTO : Fld := ⟨15, 0⟩

/-- Address of `PW_BUS_KP` (R305). -/
def PW_BUS_KP : Nat := 0x45000008
/-- `PW_BUS_KP.KPB`, RWL: Signed Q15.16: A/V; A/(V·ms). -/
def PW_BUS_KP_KPB : Fld := ⟨31, 0⟩

/-- Address of `PW_BUS_KI` (R305). -/
def PW_BUS_KI : Nat := 0x4500000c
/-- `PW_BUS_KI.KIB`, RWL: Signed Q15.16: A/V; A/(V·ms). -/
def PW_BUS_KI_KIB : Fld := ⟨31, 0⟩

/-- Address of `PW_BUS_SETTLE` (R305). -/
def PW_BUS_SETTLE : Nat := 0x45000010
/-- `PW_BUS_SETTLE.TSETTLE`, RWL: Settling time, ms, 1 to 10,000. -/
def PW_BUS_SETTLE_TSETTLE : Fld := ⟨31, 16⟩
/-- `PW_BUS_SETTLE.VBAND`, RWL: Settling band, 0.1 V units, 1 to 1,000. -/
def PW_BUS_SETTLE_VBAND : Fld := ⟨15, 0⟩

/-- Address of `PW_REG_EVT` (R305). -/
def PW_REG_EVT : Nat := 0x45000014
/-- `PW_REG_EVT.WSTALE`, W1C: Weights went stale. -/
def PW_REG_EVT_WSTALE : Fld := ⟨5, 5⟩
/-- `PW_REG_EVT.REFUSED`, W1C: A write was refused. -/
def PW_REG_EVT_REFUSED : Fld := ⟨4, 4⟩
/-- `PW_REG_EVT.SYNCLOST`, W1C: PSYNC_IN was lost. -/
def PW_REG_EVT_SYNCLOST : Fld := ⟨3, 3⟩
/-- `PW_REG_EVT.SHORTFALL`, W1C: The splitter was short of current. -/
def PW_REG_EVT_SHORTFALL : Fld := ⟨2, 2⟩
/-- `PW_REG_EVT.PHSENSE`, W1C: A phase sense failed. -/
def PW_REG_EVT_PHSENSE : Fld := ⟨1, 1⟩
/-- `PW_REG_EVT.PHOPEN`, W1C: A phase opened. -/
def PW_REG_EVT_PHOPEN : Fld := ⟨0, 0⟩

/-- Address of `PW_REG_CNT0` (R305). -/
def PW_REG_CNT0 : Nat := 0x45000018
/-- `PW_REG_CNT0.SHORTFALLN`, RC: CNT0: occurrences, saturating at 255. CNT1: reserved. -/
def PW_REG_CNT0_SHORTFALLN : Fld := ⟨31, 24⟩
/-- `PW_REG_CNT0.PHSENSEN`, RC: Occurrences, saturating. -/
def PW_REG_CNT0_PHSENSEN : Fld := ⟨23, 16⟩
/-- `PW_REG_CNT0.PHOPENN`, RC: Occurrences, saturating. -/
def PW_REG_CNT0_PHOPENN : Fld := ⟨15, 8⟩

/-- Address of `PW_REG_CNT1` (R305). -/
def PW_REG_CNT1 : Nat := 0x4500001c
/-- `PW_REG_CNT1.WSTALEN`, RC: Occurrences, saturating. -/
def PW_REG_CNT1_WSTALEN : Fld := ⟨23, 16⟩
/-- `PW_REG_CNT1.REFUSEDN`, RC: Occurrences, saturating. -/
def PW_REG_CNT1_REFUSEDN : Fld := ⟨15, 8⟩
/-- `PW_REG_CNT1.SYNCLOSTN`, RC: CNT0: reserved. CNT1: occurrences, saturating. -/
def PW_REG_CNT1_SYNCLOSTN : Fld := ⟨7, 0⟩

/-- Address of `PW_BUS_STAT` (R305). -/
def PW_BUS_STAT : Nat := 0x45000020
/-- `PW_BUS_STAT.VTGT`, RO: Bus target, 50 mV units. -/
def PW_BUS_STAT_VTGT : Fld := ⟨31, 16⟩
/-- `PW_BUS_STAT.VREF`, RO: Present reference, 50 mV units. -/
def PW_BUS_STAT_VREF : Fld := ⟨15, 0⟩

/-- Address of `PW_BVL_CTL` (R305). -/
def PW_BVL_CTL : Nat := 0x45000100
/-- `PW_BVL_CTL.EN`, RWL: Link enabled. -/
def PW_BVL_CTL_EN : Fld := ⟨31, 31⟩
/-- `PW_BVL_CTL.LIMPER`, RWL: Limit frame period, ms, 1 to 10; others refused. -/
def PW_BVL_CTL_LIMPER : Fld := ⟨7, 0⟩

/-- Address of `PW_BVL_STAT` (R305). -/
def PW_BVL_STAT : Nat := 0x45000104
/-- `PW_BVL_STAT.LASTSEQ`, RO: Sequence of the latest VSET accepted. -/
def PW_BVL_STAT_LASTSEQ : Fld := ⟨31, 24⟩
/-- `PW_BVL_STAT.PENDSEQ`, RO: Sequence awaiting ACK-DONE. -/
def PW_BVL_STAT_PENDSEQ : Fld := ⟨23, 16⟩
/-- `PW_BVL_STAT.PEND`, RO: A command awaits ACK-DONE. -/
def PW_BVL_STAT_PEND : Fld := ⟨15, 15⟩
/-- `PW_BVL_STAT.LSTATE`, RO: 0 no clock, 1 up, 2 silent and holding, 3 fallback. -/
def PW_BVL_STAT_LSTATE : Fld := ⟨14, 12⟩
/-- `PW_BVL_STAT.ALERT`, RO: BVL_ALERT_N asserted. -/
def PW_BVL_STAT_ALERT : Fld := ⟨11, 11⟩

/-- Address of `PW_BVL_EVT` (R305). -/
def PW_BVL_EVT : Nat := 0x45000108
/-- `PW_BVL_EVT.NAKD`, W1C: A NAK was sent. -/
def PW_BVL_EVT_NAKD : Fld := ⟨3, 3⟩
/-- `PW_BVL_EVT.TIMEOUT`, W1C: The link went silent. -/
def PW_BVL_EVT_TIMEOUT : Fld := ⟨2, 2⟩
/-- `PW_BVL_EVT.CRCERR`, W1C: A frame was discarded. -/
def PW_BVL_EVT_CRCERR : Fld := ⟨1, 1⟩
/-- `PW_BVL_EVT.SUPERSEDED`, W1C: ACK-SUPERSEDED was sent. -/
def PW_BVL_EVT_SUPERSEDED : Fld := ⟨0, 0⟩

/-- Address of `PW_BVL_CNT` (R305). -/
def PW_BVL_CNT : Nat := 0x4500010c
/-- `PW_BVL_CNT.NAKDN`, RC: Occurrences, saturating at 255. -/
def PW_BVL_CNT_NAKDN : Fld := ⟨31, 24⟩
/-- `PW_BVL_CNT.TIMEOUTN`, RC: Occurrences, saturating. -/
def PW_BVL_CNT_TIMEOUTN : Fld := ⟨23, 16⟩
/-- `PW_BVL_CNT.CRCERRN`, RC: Occurrences, saturating. -/
def PW_BVL_CNT_CRCERRN : Fld := ⟨15, 8⟩
/-- `PW_BVL_CNT.SUPERSEDEDN`, RC: Occurrences, saturating. -/
def PW_BVL_CNT_SUPERSEDEDN : Fld := ⟨7, 0⟩

/-- Address of `PW_PWM_CFG` (R305). -/
def PW_PWM_CFG : Nat := 0x45000200
/-- `PW_PWM_CFG.PERNOM`, RWL: Free-running period, 2.5 ns units, 4,000 to 50,000. -/
def PW_PWM_CFG_PERNOM : Fld := ⟨31, 16⟩
/-- `PW_PWM_CFG.SYNCMUL`, RWL: Switching periods per carrier period, 1 to 31. -/
def PW_PWM_CFG_SYNCMUL : Fld := ⟨15, 11⟩
/-- `PW_PWM_CFG.SYNCEN`, RWL: Track PSYNC_IN. -/
def PW_PWM_CFG_SYNCEN : Fld := ⟨10, 10⟩

/-- Address of `PW_PWM_SYNC` (R305). -/
def PW_PWM_SYNC : Nat := 0x45000204
/-- `PW_PWM_SYNC.SYNCOFS`, RWL: Frame start after the rising edge, 10 ns units. -/
def PW_PWM_SYNC_SYNCOFS : Fld := ⟨31, 16⟩
/-- `PW_PWM_SYNC.SYNCHOLD`, RWL: Hold after loss, carrier periods, 1 to 255. -/
def PW_PWM_SYNC_SYNCHOLD : Fld := ⟨15, 8⟩
/-- `PW_PWM_SYNC.SYNCSTEP`, RWL: Phase correction per period, 2.5 ns units, 1 to 255. -/
def PW_PWM_SYNC_SYNCSTEP : Fld := ⟨7, 0⟩

/-- Address of `PW_PWM_TMIN` (R305). -/
def PW_PWM_TMIN : Nat := 0x45000208
/-- `PW_PWM_TMIN.TMINON`, RWL: Shortest on-time, 2.5 ns units, 20 to 400. -/
def PW_PWM_TMIN_TMINON : Fld := ⟨31, 16⟩
/-- `PW_PWM_TMIN.ROTN`, RWL: Rotation interval, periods; 0 none. -/
def PW_PWM_TMIN_ROTN : Fld := ⟨15, 0⟩

/-- Address of `PW_PWM_BURST` (R305). -/
def PW_PWM_BURST : Nat := 0x4500020c
/-- `PW_PWM_BURST.TREFRESH`, RWL: Refresh interval, µs, 10 to 10,000. -/
def PW_PWM_BURST_TREFRESH : Fld := ⟨31, 16⟩
/-- `PW_PWM_BURST.WREF`, RWL: Refresh pulse, 20 ns units, 10 to 100. -/
def PW_PWM_BURST_WREF : Fld := ⟨15, 8⟩
/-- `PW_PWM_BURST.BURSTON`, RWL: Switching periods per burst, 1 to 255. -/
def PW_PWM_BURST_BURSTON : Fld := ⟨7, 0⟩

/-- Address of `PW_SYNC_STAT` (R305). -/
def PW_SYNC_STAT : Nat := 0x45000210
/-- `PW_SYNC_STAT.CPER`, RO: Measured carrier period, 100 ns units. -/
def PW_SYNC_STAT_CPER : Fld := ⟨31, 16⟩
/-- `PW_SYNC_STAT.SYNC`, RO: 0 free running, 1 acquiring, 2 locked, 3 holding. -/
def PW_SYNC_STAT_SYNC : Fld := ⟨1, 0⟩

/-- Address of `PW_EXC_CTL` (R305). -/
def PW_EXC_CTL : Nat := 0x45000300
/-- `PW_EXC_CTL.START`, WO: 1 starts under R303. -/
def PW_EXC_CTL_START : Fld := ⟨31, 31⟩
/-- `PW_EXC_CTL.STOP`, WO: 1 ends through the envelope. -/
def PW_EXC_CTL_STOP : Fld := ⟨30, 30⟩
/-- `PW_EXC_CTL.XACT`, RO: Excitation active. -/
def PW_EXC_CTL_XACT : Fld := ⟨29, 29⟩
/-- `PW_EXC_CTL.XSTR`, RW: String, 0 to 11. -/
def PW_EXC_CTL_XSTR : Fld := ⟨23, 20⟩
/-- `PW_EXC_CTL.XNF`, RW: Frequencies minus 1. -/
def PW_EXC_CTL_XNF : Fld := ⟨19, 18⟩
/-- `PW_EXC_CTL.XRAMPT`, RW: Envelope time, ms, 10 to 10,000. -/
def PW_EXC_CTL_XRAMPT : Fld := ⟨15, 0⟩

/-- Address of `PW_EXC_FRQ` (R305). -/
def PW_EXC_FRQ (k : Nat) : Nat := 0x45000304 + k * 0x8
/-- `PW_EXC_FRQ.XFRQ`, RW: FRQ: µHz, 50,000 to 200,000,000; [31:28] reserved. -/
def PW_EXC_FRQ_XFRQ : Fld := ⟨27, 0⟩

/-- Address of `PW_EXC_AMP` (R305). -/
def PW_EXC_AMP (k : Nat) : Nat := 0x45000308 + k * 0x8
/-- `PW_EXC_AMP.XAMP`, RW: AMP: amplitude, 10 mA units; [31:16] reserved. -/
def PW_EXC_AMP_XAMP : Fld := ⟨15, 0⟩

/-- Address of `PW_EXC_EPOCHLO` (R305). -/
def PW_EXC_EPOCHLO : Nat := 0x45000324
/-- `PW_EXC_EPOCHLO.XEPOCH`, RW: Phase reference, chip time, per R173. -/
def PW_EXC_EPOCHLO_XEPOCH : Fld := ⟨31, 0⟩

/-- Address of `PW_EXC_EPOCHHI` (R305). -/
def PW_EXC_EPOCHHI : Nat := 0x45000328
/-- `PW_EXC_EPOCHHI.XEPOCH`, RW: Phase reference, chip time, per R173. -/
def PW_EXC_EPOCHHI_XEPOCH : Fld := ⟨31, 0⟩

/-- Address of `PW_EXC_STAT` (R305). -/
def PW_EXC_STAT : Nat := 0x4500032c
/-- `PW_EXC_STAT.XEND`, RO: Latest end or refusal reason: 1–4 per R305; 0x10 + the failed condition of R303, in its list order. -/
def PW_EXC_STAT_XEND : Fld := ⟨7, 0⟩

/-- Address of `PW_SREG_CFG` (R305). -/
def PW_SREG_CFG (s : Nat) : Nat := 0x45000400 + s * 0x20
/-- `PW_SREG_CFG.EN`, RWL: Regulator enabled. -/
def PW_SREG_CFG_EN : Fld := ⟨31, 31⟩
/-- `PW_SREG_CFG.NPH`, RWL: Phases minus 1. -/
def PW_SREG_CFG_NPH : Fld := ⟨30, 29⟩
/-- `PW_SREG_CFG.PH0`, RWL: Half-bridge of each slot, 5 bits each, `PH0` in [13:9]. -/
def PW_SREG_CFG_PH0 : Fld := ⟨13, 9⟩
/-- `PW_SREG_CFG.PH1`, RWL: Half-bridge of each slot, 5 bits each, `PH0` in [13:9]. -/
def PW_SREG_CFG_PH1 : Fld := ⟨18, 14⟩
/-- `PW_SREG_CFG.PH2`, RWL: Half-bridge of each slot, 5 bits each, `PH0` in [13:9]. -/
def PW_SREG_CFG_PH2 : Fld := ⟨23, 19⟩
/-- `PW_SREG_CFG.PH3`, RWL: Half-bridge of each slot, 5 bits each, `PH0` in [13:9]. -/
def PW_SREG_CFG_PH3 : Fld := ⟨28, 24⟩
/-- `PW_SREG_CFG.CPH`, RWL: Carrier phase offset, 1/256 period. -/
def PW_SREG_CFG_CPH : Fld := ⟨7, 0⟩

/-- Address of `PW_SREG_RAT` (R305). -/
def PW_SREG_RAT (s : Nat) : Nat := 0x45000404 + s * 0x20
/-- `PW_SREG_RAT.IBURST`, RWL: Burst threshold, 100 mA units; 0 no burst. -/
def PW_SREG_RAT_IBURST : Fld := ⟨31, 16⟩
/-- `PW_SREG_RAT.ISRAT`, RWL: Rated string current, 100 mA units. -/
def PW_SREG_RAT_ISRAT : Fld := ⟨15, 0⟩

/-- Address of `PW_SREG_KP` (R305). -/
def PW_SREG_KP (s : Nat) : Nat := 0x45000408 + s * 0x20
/-- `PW_SREG_KP.KPP`, RWL: Signed Q3.28: duty per A; duty per A per period. -/
def PW_SREG_KP_KPP : Fld := ⟨31, 0⟩

/-- Address of `PW_SREG_KI` (R305). -/
def PW_SREG_KI (s : Nat) : Nat := 0x4500040c + s * 0x20
/-- `PW_SREG_KI.KIP`, RWL: Signed Q3.28: duty per A; duty per A per period. -/
def PW_SREG_KI_KIP : Fld := ⟨31, 0⟩

/-- Address of `PW_SREG_DLIM` (R305). -/
def PW_SREG_DLIM (s : Nat) : Nat := 0x45000410 + s * 0x20
/-- `PW_SREG_DLIM.DMAX`, RWL: Largest low-side duty, UQ0.16. -/
def PW_SREG_DLIM_DMAX : Fld := ⟨31, 16⟩
/-- `PW_SREG_DLIM.DMIN`, RWL: Smallest low-side duty, UQ0.16. -/
def PW_SREG_DLIM_DMIN : Fld := ⟨15, 0⟩

/-- Address of `PW_SHW` (R305). -/
def PW_SHW (s : Nat) : Nat := 0x45000414 + s * 0x20
/-- `PW_SHW.WCHG`, RW: Charge weight, UQ4.12. -/
def PW_SHW_WCHG : Fld := ⟨31, 16⟩
/-- `PW_SHW.WDIS`, RW: Discharge weight, UQ4.12. -/
def PW_SHW_WDIS : Fld := ⟨15, 0⟩

/-- Address of `PW_SREG_STAT` (R305). -/
def PW_SREG_STAT (s : Nat) : Nat := 0x45000418 + s * 0x20
/-- `PW_SREG_STAT.PHFAIL`, RO: Bit k: slot k disabled. -/
def PW_SREG_STAT_PHFAIL : Fld := ⟨27, 24⟩
/-- `PW_SREG_STAT.NACT`, RO: Active phases. -/
def PW_SREG_STAT_NACT : Fld := ⟨19, 16⟩
/-- `PW_SREG_STAT.BURST`, RO: In burst. -/
def PW_SREG_STAT_BURST : Fld := ⟨11, 11⟩
/-- `PW_SREG_STAT.ATCEIL`, RO: Share clamped at the ceiling. -/
def PW_SREG_STAT_ATCEIL : Fld := ⟨10, 10⟩
/-- `PW_SREG_STAT.MODE`, RO: Mode per R271. -/
def PW_SREG_STAT_MODE : Fld := ⟨2, 0⟩

/-- Address of `PW_SREG_PHEN` (R305). -/
def PW_SREG_PHEN (s : Nat) : Nat := 0x4500041c + s * 0x20
/-- `PW_SREG_PHEN.PHEN`, WO: Bit k re-enables slot k under R301. -/
def PW_SREG_PHEN_PHEN : Fld := ⟨3, 0⟩

/-- Address of `PW_PH_CFG` (R305). -/
def PW_PH_CFG (n : Nat) : Nat := 0x45000800 + n * 0x10
/-- `PW_PH_CFG.PDLY`, RWL: Modulator delay, 10 ns units. -/
def PW_PH_CFG_PDLY : Fld := ⟨31, 24⟩
/-- `PW_PH_CFG.POSR`, RWL: 0 64, 1 128, 2 256; 3 refused. -/
def PW_PH_CFG_POSR : Fld := ⟨1, 0⟩

/-- Address of `PW_PH_GAIN` (R305). -/
def PW_PH_GAIN (n : Nat) : Nat := 0x45000804 + n * 0x10
/-- `PW_PH_GAIN.PGAIN`, RWL: Signed: mA at 2d − 1 = 1; offset, mA. -/
def PW_PH_GAIN_PGAIN : Fld := ⟨31, 0⟩

/-- Address of `PW_PH_OFS` (R305). -/
def PW_PH_OFS (n : Nat) : Nat := 0x45000808 + n * 0x10
/-- `PW_PH_OFS.POFS`, RWL: Signed: mA at 2d − 1 = 1; offset, mA. -/
def PW_PH_OFS_POFS : Fld := ⟨31, 0⟩

/-- Address of `PW_GD_CFG` (R326). -/
def PW_GD_CFG : Nat := 0x45100000
/-- `PW_GD_CFG.RWAIT`, RWL: Retry wait, ms, 1 to 10,000; others refused. -/
def PW_GD_CFG_RWAIT : Fld := ⟨31, 16⟩
/-- `PW_GD_CFG.RTRY`, RWL: Tries within 60 s, 0 to 7. -/
def PW_GD_CFG_RTRY : Fld := ⟨12, 10⟩
/-- `PW_GD_CFG.SCSCOPE`, RWL: Stop scope: 0 every half-bridge, 1 the faulted half-bridge's regulator. -/
def PW_GD_CFG_SCSCOPE : Fld := ⟨9, 9⟩
/-- `PW_GD_CFG.TPLAT`, RWL: Plateau, 0.1 µs units, 5 to 40; others refused. -/
def PW_GD_CFG_TPLAT : Fld := ⟨5, 0⟩

/-- Address of `PW_GD_STAT` (R326). -/
def PW_GD_STAT : Nat := 0x45100004
/-- `PW_GD_STAT.STOP`, RO: A stop in progress. -/
def PW_GD_STAT_STOP : Fld := ⟨26, 26⟩
/-- `PW_GD_STAT.KILL`, RO: GATE_KILL asserted. -/
def PW_GD_STAT_KILL : Fld := ⟨25, 25⟩
/-- `PW_GD_STAT.UV`, RO: GD_UV_N counts as low. -/
def PW_GD_STAT_UV : Fld := ⟨24, 24⟩
/-- `PW_GD_STAT.FAULTED`, RO: Bit n: half-bridge n faulted, waiting or latched. -/
def PW_GD_STAT_FAULTED : Fld := ⟨23, 0⟩

/-- Address of `PW_GD_EVT` (R326). -/
def PW_GD_EVT : Nat := 0x45100008
/-- `PW_GD_EVT.REFUSED`, W1C: A write was refused. -/
def PW_GD_EVT_REFUSED : Fld := ⟨7, 7⟩
/-- `PW_GD_EVT.LATCHED`, W1C: A half-bridge latched. -/
def PW_GD_EVT_LATCHED : Fld := ⟨6, 6⟩
/-- `PW_GD_EVT.BOTHON`, W1C: A both-on test request was refused. -/
def PW_GD_EVT_BOTHON : Fld := ⟨5, 5⟩
/-- `PW_GD_EVT.LEAK`, W1C: A leak test failed. -/
def PW_GD_EVT_LEAK : Fld := ⟨4, 4⟩
/-- `PW_GD_EVT.UV`, W1C: An undervoltage fault. -/
def PW_GD_EVT_UV : Fld := ⟨3, 3⟩
/-- `PW_GD_EVT.FBERR`, W1C: A feedback fault. -/
def PW_GD_EVT_FBERR : Fld := ⟨2, 2⟩
/-- `PW_GD_EVT.INTERLOCK`, W1C: An interlock fault. -/
def PW_GD_EVT_INTERLOCK : Fld := ⟨1, 1⟩
/-- `PW_GD_EVT.SHORT`, W1C: A short. -/
def PW_GD_EVT_SHORT : Fld := ⟨0, 0⟩

/-- Address of `PW_GD_CNT0` (R326). -/
def PW_GD_CNT0 : Nat := 0x4510000c
/-- `PW_GD_CNT0.UVN`, RC: Occurrences, saturating at 255 (CNT0, CNT1). -/
def PW_GD_CNT0_UVN : Fld := ⟨31, 24⟩
/-- `PW_GD_CNT0.FBERRN`, RC: Occurrences, saturating. -/
def PW_GD_CNT0_FBERRN : Fld := ⟨23, 16⟩
/-- `PW_GD_CNT0.INTERLOCKN`, RC: Occurrences, saturating. -/
def PW_GD_CNT0_INTERLOCKN : Fld := ⟨15, 8⟩
/-- `PW_GD_CNT0.SHORTN`, RC: Occurrences, saturating. -/
def PW_GD_CNT0_SHORTN : Fld := ⟨7, 0⟩

/-- Address of `PW_GD_CNT1` (R326). -/
def PW_GD_CNT1 : Nat := 0x45100010
/-- `PW_GD_CNT1.REFUSEDN`, RC: Occurrences, saturating at 255 (CNT0, CNT1). -/
def PW_GD_CNT1_REFUSEDN : Fld := ⟨31, 24⟩
/-- `PW_GD_CNT1.LATCHEDN`, RC: Occurrences, saturating. -/
def PW_GD_CNT1_LATCHEDN : Fld := ⟨23, 16⟩
/-- `PW_GD_CNT1.BOTHONN`, RC: Occurrences, saturating. -/
def PW_GD_CNT1_BOTHONN : Fld := ⟨15, 8⟩
/-- `PW_GD_CNT1.LEAKN`, RC: Occurrences, saturating. -/
def PW_GD_CNT1_LEAKN : Fld := ⟨7, 0⟩

/-- Address of `PW_GD_CLR` (R326). -/
def PW_GD_CLR : Nat := 0x45100014
/-- `PW_GD_CLR.HBCLR`, WO: Bit n clears latched half-bridge n under R326. -/
def PW_GD_CLR_HBCLR : Fld := ⟨23, 0⟩

/-- Address of `PW_GD_TEST` (R326). -/
def PW_GD_TEST : Nat := 0x45100018
/-- `PW_GD_TEST.TEN`, RW: Direct test mode under R313. -/
def PW_GD_TEST_TEN : Fld := ⟨31, 31⟩
/-- `PW_GD_TEST.THB`, RW: Half-bridge under test, 0 to 23; others refused. -/
def PW_GD_TEST_THB : Fld := ⟨20, 16⟩
/-- `PW_GD_TEST.TCMD`, RW: [3] GH, [2] MH, [1] GL, [0] ML. -/
def PW_GD_TEST_TCMD : Fld := ⟨3, 0⟩

/-- Address of `PW_GD_LEAK` (R326). -/
def PW_GD_LEAK : Nat := 0x4510001c
/-- `PW_GD_LEAK.LSTART`, WO: 1 starts the leak test under R323. -/
def PW_GD_LEAK_LSTART : Fld := ⟨31, 31⟩
/-- `PW_GD_LEAK.LBUSY`, RO: Leak test running. -/
def PW_GD_LEAK_LBUSY : Fld := ⟨30, 30⟩
/-- `PW_GD_LEAK.LMASK`, RW: Bit n: test half-bridge n. -/
def PW_GD_LEAK_LMASK : Fld := ⟨23, 0⟩

/-- Address of `PW_GD_LTIME` (R326). -/
def PW_GD_LTIME : Nat := 0x45100020
/-- `PW_GD_LTIME.TLEAK`, RWL: Weak-off step, µs, 10 to 1,000; others refused. -/
def PW_GD_LTIME_TLEAK : Fld := ⟨15, 0⟩

/-- Address of `PW_GD_LRES` (R326). -/
def PW_GD_LRES : Nat := 0x45100024
/-- `PW_GD_LRES.LFAIL`, RO: Bit n: half-bridge n failed the latest leak test. -/
def PW_GD_LRES_LFAIL : Fld := ⟨23, 0⟩

/-- Address of `PW_HB_CFG` (R326). -/
def PW_HB_CFG (n : Nat) : Nat := 0x45100100 + n * 0x10
/-- `PW_HB_CFG.TBLANK`, RWL: Blanking, 20 ns units, 5 to 250. -/
def PW_HB_CFG_TBLANK : Fld := ⟨31, 24⟩
/-- `PW_HB_CFG.TIL`, RWL: Interlock limit, 10 ns units, 10 to 200. -/
def PW_HB_CFG_TIL : Fld := ⟨23, 16⟩
/-- `PW_HB_CFG.TDEAD`, RWL: Dead time, 2.5 ns units, 20 to 400. -/
def PW_HB_CFG_TDEAD : Fld := ⟨8, 0⟩

/-- Address of `PW_HB_FOC` (R326). -/
def PW_HB_FOC (n : Nat) : Nat := 0x45100104 + n * 0x10
/-- `PW_HB_FOC.FOCTH`, RWL: Fast overcurrent threshold, 100 mA units; checked under R316. -/
def PW_HB_FOC_FOCTH : Fld := ⟨15, 0⟩

/-- Address of `PW_HB_STAT` (R326). -/
def PW_HB_STAT (n : Nat) : Nat := 0x45100108 + n * 0x10
/-- `PW_HB_STAT.TRIES`, RO: Faults within the latest 60 s, 0 to 8. -/
def PW_HB_STAT_TRIES : Fld := ⟨23, 20⟩
/-- `PW_HB_STAT.CAUSE`, RO: 0 none, 1 desaturation high, 2 desaturation low, 3 fast overcurrent, 4 interlock, 5 feedback high, 6 feedback low, 7 undervoltage, 8 leak high, 9 leak low. -/
def PW_HB_STAT_CAUSE : Fld := ⟨15, 12⟩
/-- `PW_HB_STAT.OUT`, RO: Outputs: [11] GH, [10] MH, [9] GL, [8] ML. -/
def PW_HB_STAT_OUT : Fld := ⟨11, 8⟩
/-- `PW_HB_STAT.FB`, RO: Counted feedback: [7] FH, [6] FL. -/
def PW_HB_STAT_FB : Fld := ⟨7, 6⟩
/-- `PW_HB_STAT.DS`, RO: Counted desaturation flags: [5] DH, [4] DL. -/
def PW_HB_STAT_DS : Fld := ⟨5, 4⟩
/-- `PW_HB_STAT.STATE`, RO: 0 off, 1 switching, 2 in a stop, 3 waiting, 4 latched, 5 test, 6 leak test, 7 not armed. -/
def PW_HB_STAT_STATE : Fld := ⟨2, 0⟩

/-- Address of `PW_LS_CTL` (R344). -/
def PW_LS_CTL : Nat := 0x45200000
/-- `PW_LS_CTL.IMEN`, RW: IMON on. -/
def PW_LS_CTL_IMEN : Fld := ⟨5, 5⟩
/-- `PW_LS_CTL.IMSEL`, RW: Channel on IMON, 0 to 23; others refused. -/
def PW_LS_CTL_IMSEL : Fld := ⟨4, 0⟩

/-- Address of `PW_LS_STAT` (R344). -/
def PW_LS_STAT : Nat := 0x45200004
/-- `PW_LS_STAT.VSWLO`, RO: VSW lock-out in force. -/
def PW_LS_STAT_VSWLO : Fld := ⟨24, 24⟩
/-- `PW_LS_STAT.ON`, RO: Bit c: channel c on. -/
def PW_LS_STAT_ON : Fld := ⟨23, 0⟩

/-- Address of `PW_LS_EVT` (R344). -/
def PW_LS_EVT : Nat := 0x45200008
/-- `PW_LS_EVT.REFUSED`, W1C: A write was refused. -/
def PW_LS_EVT_REFUSED : Fld := ⟨6, 6⟩
/-- `PW_LS_EVT.VSW`, W1C: VSW lock-out. -/
def PW_LS_EVT_VSW : Fld := ⟨5, 5⟩
/-- `PW_LS_EVT.OPENLD`, W1C: An open load. -/
def PW_LS_EVT_OPENLD : Fld := ⟨4, 4⟩
/-- `PW_LS_EVT.SENSE`, W1C: A sense fault. -/
def PW_LS_EVT_SENSE : Fld := ⟨3, 3⟩
/-- `PW_LS_EVT.CLAMP`, W1C: A clamp-energy lock. -/
def PW_LS_EVT_CLAMP : Fld := ⟨2, 2⟩
/-- `PW_LS_EVT.LATCH`, W1C: A channel latched. -/
def PW_LS_EVT_LATCH : Fld := ⟨1, 1⟩
/-- `PW_LS_EVT.THERM`, W1C: A thermal trip. -/
def PW_LS_EVT_THERM : Fld := ⟨0, 0⟩

/-- Address of `PW_LS_CNT0` (R344). -/
def PW_LS_CNT0 : Nat := 0x4520000c
/-- `PW_LS_CNT0.THERMN`, RC: Occurrences, saturating at 255 (CNT0, CNT1). -/
def PW_LS_CNT0_THERMN : Fld := ⟨31, 24⟩
/-- `PW_LS_CNT0.LATCHN`, RC: Occurrences, saturating. -/
def PW_LS_CNT0_LATCHN : Fld := ⟨23, 16⟩
/-- `PW_LS_CNT0.CLAMPN`, RC: Occurrences, saturating. -/
def PW_LS_CNT0_CLAMPN : Fld := ⟨15, 8⟩
/-- `PW_LS_CNT0.SENSEN`, RC: CNT0: occurrences, saturating. CNT1: reserved. -/
def PW_LS_CNT0_SENSEN : Fld := ⟨7, 0⟩

/-- Address of `PW_LS_CNT1` (R344). -/
def PW_LS_CNT1 : Nat := 0x45200010
/-- `PW_LS_CNT1.OPENLDN`, RC: Occurrences, saturating at 255 (CNT0, CNT1). -/
def PW_LS_CNT1_OPENLDN : Fld := ⟨31, 24⟩
/-- `PW_LS_CNT1.VSWN`, RC: Occurrences, saturating. -/
def PW_LS_CNT1_VSWN : Fld := ⟨23, 16⟩
/-- `PW_LS_CNT1.REFUSEDN`, RC: Occurrences, saturating. -/
def PW_LS_CNT1_REFUSEDN : Fld := ⟨15, 8⟩

/-- Address of `PW_LS_CLR` (R344). -/
def PW_LS_CLR : Nat := 0x45200014
/-- `PW_LS_CLR.LSCLR`, WO: Bit c releases channel c under R344. -/
def PW_LS_CLR_LSCLR : Fld := ⟨23, 0⟩

/-- Address of `PW_LS_CFG` (R344). -/
def PW_LS_CFG (c : Nat) : Nat := 0x45200100 + c * 0x10
/-- `PW_LS_CFG.NRST`, RWL: Restarts in 10 s, 1 to 8; others refused. -/
def PW_LS_CFG_NRST : Fld := ⟨27, 24⟩
/-- `PW_LS_CFG.EBUD`, RWL: Clamp budget, 10 mJ units, 1 to 255. -/
def PW_LS_CFG_EBUD : Fld := ⟨23, 16⟩
/-- `PW_LS_CFG.TINR`, RWL: Inrush window, 10 ms units, 0 to 10. -/
def PW_LS_CFG_TINR : Fld := ⟨11, 8⟩
/-- `PW_LS_CFG.TMODE`, RWL: 0 restart, 1 latch. -/
def PW_LS_CFG_TMODE : Fld := ⟨7, 7⟩
/-- `PW_LS_CFG.OLEN`, RWL: Open-load detection on. -/
def PW_LS_CFG_OLEN : Fld := ⟨6, 6⟩
/-- `PW_LS_CFG.SRC`, RWL: Input source per R330. -/
def PW_LS_CFG_SRC : Fld := ⟨5, 0⟩

/-- Address of `PW_LS_STATc` (R344). -/
def PW_LS_STATc (c : Nat) : Nat := 0x45200104 + c * 0x10
/-- `PW_LS_STATc.ATTR`, RO: Attributed neighbour of the latest trip; 31 none. -/
def PW_LS_STATc_ATTR : Fld := ⟨31, 27⟩
/-- `PW_LS_STATc.CAUSE`, RO: 0 none, 1 thermal, 2 broken sensor, 3 clamp energy, 4 VSW. -/
def PW_LS_STATc_CAUSE : Fld := ⟨26, 24⟩
/-- `PW_LS_STATc.NCYC`, RO: Thermal trips in the latest 10 s. -/
def PW_LS_STATc_NCYC : Fld := ⟨23, 20⟩
/-- `PW_LS_STATc.PREW`, RO: Sensor at 160 °C or more. -/
def PW_LS_STATc_PREW : Fld := ⟨19, 19⟩
/-- `PW_LS_STATc.OPENLD`, RO: Open load now. -/
def PW_LS_STATc_OPENLD : Fld := ⟨18, 18⟩
/-- `PW_LS_STATc.LIM`, RO: In current limit. -/
def PW_LS_STATc_LIM : Fld := ⟨17, 17⟩
/-- `PW_LS_STATc.LATCHED`, RO: Channel latched. -/
def PW_LS_STATc_LATCHED : Fld := ⟨16, 16⟩
/-- `PW_LS_STATc.ISENSE`, RO: Sensed current per R340; 0xFFF fault. -/
def PW_LS_STATc_ISENSE : Fld := ⟨11, 0⟩

/-- Address of `PW_LS_TJ` (R344). -/
def PW_LS_TJ (c : Nat) : Nat := 0x45200108 + c * 0x10
/-- `PW_LS_TJ.EACC`, RO: Clamp account, mJ, saturating. -/
def PW_LS_TJ_EACC : Fld := ⟨31, 16⟩
/-- `PW_LS_TJ.TJ`, RO: Channel temperature, temperature code; 0x7FFF broken or too hot. -/
def PW_LS_TJ_TJ : Fld := ⟨15, 0⟩

/-- Address of `PW_CFB_CFG` (R122). -/
def PW_CFB_CFG : Nat := 0x45200800
/-- `PW_CFB_CFG.FILT`, RWL: Debounce, 0.1 ms units, 5 to 200; others refused. -/
def PW_CFB_CFG_FILT : Fld := ⟨31, 24⟩
/-- `PW_CFB_CFG.POL`, RWL: Bit n: 1 high means closed. -/
def PW_CFB_CFG_POL : Fld := ⟨23, 0⟩

/-- Address of `PW_CFB_STAT` (R122). -/
def PW_CFB_STAT : Nat := 0x45200804
/-- `PW_CFB_STAT.CLOSED`, RO: Bit n: debounced state of CFBn, 1 closed. -/
def PW_CFB_STAT_CLOSED : Fld := ⟨23, 0⟩

/-- Address of `PW_TRIP_SRC` (R151). -/
def PW_TRIP_SRC (n : Nat) : Nat := 0x45300000 + n * 0x4
/-- `PW_TRIP_SRC.EN`, RWL: Source enabled; fixed rows refuse 0; row 31 reads 0 in every field and refuses any change (R127). -/
def PW_TRIP_SRC_EN : Fld := ⟨31, 31⟩
/-- `PW_TRIP_SRC.ACTIVE`, RO: Source active now. -/
def PW_TRIP_SRC_ACTIVE : Fld := ⟨30, 30⟩
/-- `PW_TRIP_SRC.SCOPE`, RWL: 0 string, 1 group, 2 section; 3 refused. -/
def PW_TRIP_SRC_SCOPE : Fld := ⟨5, 4⟩
/-- `PW_TRIP_SRC.ACT`, RWL: Action code. -/
def PW_TRIP_SRC_ACT : Fld := ⟨2, 0⟩

/-- Address of `PW_TRIP_CFG` (R151). -/
def PW_TRIP_CFG : Nat := 0x45300080
/-- `PW_TRIP_CFG.RSLOPE`, RWL: Ramp slope, A/ms, 1 to 255; 0 refused. -/
def PW_TRIP_CFG_RSLOPE : Fld := ⟨31, 24⟩
/-- `PW_TRIP_CFG.TRAMPMAX`, RWL: Ramp limit, 10 ms units, 1 to 255; 0 refused. -/
def PW_TRIP_CFG_TRAMPMAX : Fld := ⟨23, 16⟩
/-- `PW_TRIP_CFG.TOPENMAX`, RWL: t_open_max, ms, 10 to 255. -/
def PW_TRIP_CFG_TOPENMAX : Fld := ⟨15, 8⟩
/-- `PW_TRIP_CFG.IZERO`, RWL: I_zero, 100 mA units, 5 to 200. -/
def PW_TRIP_CFG_IZERO : Fld := ⟨7, 0⟩

/-- Address of `PW_TRIP_LIM` (R151). -/
def PW_TRIP_LIM : Nat := 0x45300084
/-- `PW_TRIP_LIM.DLPERS`, RWL: Persistence for source 16, ms, 1 to 255. -/
def PW_TRIP_LIM_DLPERS : Fld := ⟨31, 24⟩
/-- `PW_TRIP_LIM.DLMARG`, RWL: Margin over the limit in force, %, 0 to 50. -/
def PW_TRIP_LIM_DLMARG : Fld := ⟨23, 16⟩
/-- `PW_TRIP_LIM.DLFALL`, RWL: Fallback, % of static limits, 0 to 100. -/
def PW_TRIP_LIM_DLFALL : Fld := ⟨15, 8⟩
/-- `PW_TRIP_LIM.DERPCT`, RWL: DERATE fraction, %, 0 to 100. -/
def PW_TRIP_LIM_DERPCT : Fld := ⟨7, 0⟩

/-- Address of `PW_TRIP_TIM` (R151). -/
def PW_TRIP_TIM : Nat := 0x45300088
/-- `PW_TRIP_TIM.DLSTALE`, RWL: Dynamic-limit staleness, ms, 20 to 1,000. -/
def PW_TRIP_TIM_DLSTALE : Fld := ⟨31, 16⟩
/-- `PW_TRIP_TIM.DHOLD`, RWL: DERATE hold after its source clears, s. -/
def PW_TRIP_TIM_DHOLD : Fld := ⟨15, 0⟩

/-- Address of `PW_TRIP_REQ` (R151). -/
def PW_TRIP_REQ : Nat := 0x4530008c
/-- `PW_TRIP_REQ.SMASK`, WO: Strings for source 28. -/
def PW_TRIP_REQ_SMASK : Fld := ⟨27, 16⟩
/-- `PW_TRIP_REQ.SCOPE`, WO: As `PW_TRIP_SRCn`. -/
def PW_TRIP_REQ_SCOPE : Fld := ⟨5, 4⟩
/-- `PW_TRIP_REQ.ACT`, WO: Action code 0 to 6; 7 refused. -/
def PW_TRIP_REQ_ACT : Fld := ⟨2, 0⟩

/-- Address of `PW_TRIP_CLR` (R151). -/
def PW_TRIP_CLR : Nat := 0x45300090
/-- `PW_TRIP_CLR.CLR`, WO: Bit s releases string s under R131. -/
def PW_TRIP_CLR_CLR : Fld := ⟨11, 0⟩

/-- Address of `PW_TRIP_EVT` (R151). -/
def PW_TRIP_EVT : Nat := 0x45300094
/-- `PW_TRIP_EVT.REFUSED`, W1C: A write or clear was refused. -/
def PW_TRIP_EVT_REFUSED : Fld := ⟨3, 3⟩
/-- `PW_TRIP_EVT.FORCED`, W1C: A contactor opened under load. -/
def PW_TRIP_EVT_FORCED : Fld := ⟨2, 2⟩
/-- `PW_TRIP_EVT.DLSTALE`, W1C: Dynamic limits went stale. -/
def PW_TRIP_EVT_DLSTALE : Fld := ⟨1, 1⟩
/-- `PW_TRIP_EVT.ACTION`, W1C: An action RAMP or above started. -/
def PW_TRIP_EVT_ACTION : Fld := ⟨0, 0⟩

/-- Address of `PW_TRIP_CNT` (R151). -/
def PW_TRIP_CNT : Nat := 0x45300098
/-- `PW_TRIP_CNT.REFUSEDN`, RC: Occurrences of `REFUSED`, saturating at 255. -/
def PW_TRIP_CNT_REFUSEDN : Fld := ⟨31, 24⟩
/-- `PW_TRIP_CNT.FORCEDN`, RC: Occurrences of `FORCED`, saturating. -/
def PW_TRIP_CNT_FORCEDN : Fld := ⟨23, 16⟩
/-- `PW_TRIP_CNT.DLSTALEN`, RC: Occurrences of `DLSTALE`, saturating. -/
def PW_TRIP_CNT_DLSTALEN : Fld := ⟨15, 8⟩
/-- `PW_TRIP_CNT.ACTIONN`, RC: Occurrences of `ACTION`, saturating. -/
def PW_TRIP_CNT_ACTIONN : Fld := ⟨7, 0⟩

/-- Address of `PW_TRIP_STR` (R151). -/
def PW_TRIP_STR (s : Nat) : Nat := 0x45300100 + s * 0x4
/-- `PW_TRIP_STR.CAUSE`, RO: Source of the action in force. -/
def PW_TRIP_STR_CAUSE : Fld := ⟨12, 8⟩
/-- `PW_TRIP_STR.LATCH`, RO: Action latched. -/
def PW_TRIP_STR_LATCH : Fld := ⟨7, 7⟩
/-- `PW_TRIP_STR.ACT`, RO: Action in force. -/
def PW_TRIP_STR_ACT : Fld := ⟨6, 4⟩
/-- `PW_TRIP_STR.STATE`, RO: 0 running, 1 derated, 2 ramping, 3 parked, 4 inhibited, 5 opening, 6 open, 7 not configured. -/
def PW_TRIP_STR_STATE : Fld := ⟨2, 0⟩

/-- Address of `PW_DLIM_CHG` (R151). -/
def PW_DLIM_CHG (s : Nat) : Nat := 0x45300200 + s * 0x8
/-- `PW_DLIM_CHG.LIM`, RW: Charge or discharge limit, current code, positive; negative values refused. -/
def PW_DLIM_CHG_LIM : Fld := ⟨31, 0⟩

/-- Address of `PW_DLIM_DIS` (R151). -/
def PW_DLIM_DIS (s : Nat) : Nat := 0x45300204 + s * 0x8
/-- `PW_DLIM_DIS.LIM`, RW: Charge or discharge limit, current code, positive; negative values refused. -/
def PW_DLIM_DIS_LIM : Fld := ⟨31, 0⟩

/-- Address of `PW_CON_CMD` (R151). -/
def PW_CON_CMD : Nat := 0x45300300
/-- `PW_CON_CMD.OPEN`, WO: Bit s: RAMP-OPEN of string s, unlatched. -/
def PW_CON_CMD_OPEN : Fld := ⟨27, 16⟩
/-- `PW_CON_CMD.CLOSE`, WO: Bit s: close request under R139. -/
def PW_CON_CMD_CLOSE : Fld := ⟨11, 0⟩

/-- Address of `PW_CON_CFG` (R151). -/
def PW_CON_CFG : Nat := 0x45300304
/-- `PW_CON_CFG.TDROP`, RWL: Feedback open after HC off, ms, 20 to 255. -/
def PW_CON_CFG_TDROP : Fld := ⟨15, 8⟩
/-- `PW_CON_CFG.TPULL`, RWL: Pull-in limit, ms, 30 to 150. -/
def PW_CON_CFG_TPULL : Fld := ⟨7, 0⟩

/-- Address of `PW_CON_STAT` (R151). -/
def PW_CON_STAT : Nat := 0x45300308
/-- `PW_CON_STAT.WLOCK`, RWL: Bit s set by a weld; writing 0 clears. -/
def PW_CON_STAT_WLOCK : Fld := ⟨23, 12⟩
/-- `PW_CON_STAT.CLOSED`, RO: Bit s: both contactors of string s closed. -/
def PW_CON_STAT_CLOSED : Fld := ⟨11, 0⟩

/-- Address of `PW_PCH_CTL` (R151). -/
def PW_PCH_CTL : Nat := 0x45300400
/-- `PW_PCH_CTL.JMASK`, RW: Strings for `JOIN`. -/
def PW_PCH_CTL_JMASK : Fld := ⟨27, 16⟩
/-- `PW_PCH_CTL.JOIN`, WO: 1 runs steps 5 to 7 for `JMASK`. -/
def PW_PCH_CTL_JOIN : Fld := ⟨2, 2⟩
/-- `PW_PCH_CTL.ABORT`, WO: 1 fails the sequence with reason 9. -/
def PW_PCH_CTL_ABORT : Fld := ⟨1, 1⟩
/-- `PW_PCH_CTL.START`, WO: 1 starts the sequence. -/
def PW_PCH_CTL_START : Fld := ⟨0, 0⟩

/-- Address of `PW_PCH_CFG` (R151). -/
def PW_PCH_CFG : Nat := 0x45300404
/-- `PW_PCH_CFG.TAUMAX`, RWL: τ maximum, 5 ms units. -/
def PW_PCH_CFG_TAUMAX : Fld := ⟨31, 24⟩
/-- `PW_PCH_CFG.TAUMIN`, RWL: τ minimum, 5 ms units. -/
def PW_PCH_CFG_TAUMIN : Fld := ⟨23, 16⟩
/-- `PW_PCH_CFG.SEEDGC`, RWL: Relay channel, GC0 to GC5; 6–7 refused. -/
def PW_PCH_CFG_SEEDGC : Fld := ⟨6, 4⟩
/-- `PW_PCH_CFG.SEED`, RWL: Seed string, 0 to 11; 12–15 refused. -/
def PW_PCH_CFG_SEED : Fld := ⟨3, 0⟩

/-- Address of `PW_PCH_RATE` (R151). -/
def PW_PCH_RATE : Nat := 0x45300408
/-- `PW_PCH_RATE.IPCH`, RWL: Buck pre-charge current, 100 mA units. -/
def PW_PCH_RATE_IPCH : Fld := ⟨31, 16⟩
/-- `PW_PCH_RATE.PSLEW`, RWL: Boost slew, 10 mV/ms units. -/
def PW_PCH_RATE_PSLEW : Fld := ⟨15, 0⟩

/-- Address of `PW_PCH_STAT` (R151). -/
def PW_PCH_STAT : Nat := 0x4530040c
/-- `PW_PCH_STAT.FAILMASK`, RO: Strings left open by the latest sequence. -/
def PW_PCH_STAT_FAILMASK : Fld := ⟨19, 8⟩
/-- `PW_PCH_STAT.STEP`, RO: 0 idle, 1–6 as R147, 7 done, 8 failed. -/
def PW_PCH_STAT_STEP : Fld := ⟨7, 4⟩
/-- `PW_PCH_STAT.REASON`, RO: 0 none, 1 precondition, 2 τ short, 3 τ long, 4 ΔV not reached, 5 pull-in, 6 boost timeout, 7 trip action, 8 resistor rest, 9 abort. -/
def PW_PCH_STAT_REASON : Fld := ⟨3, 0⟩

/-- The register descriptors of the power region (PW), one row per register array (R3, R513). -/
def regRowsPW0 : List RegRow := [
  -- PW_BUS_CFG
  ⟨0x45000000, [], 0x320a00, [⟨PW_BUS_CFG_TOACT, .rwl, 0, 1⟩, ⟨PW_BUS_CFG_VHEAD, .rwl, 0, 255⟩, ⟨PW_BUS_CFG_VSLEWDEF, .rwl, 1, 255⟩, ⟨PW_BUS_CFG_VBSRC, .rwl, 0, 7⟩], EV_REG_REFUSED⟩,
  -- PW_BUS_VLIM
  ⟨0x45000004, [], 0x0, [⟨PW_BUS_VLIM_VBMAX, .rwl, 0, 65535⟩, ⟨PW_BUS_VLIM_VAUTO, .rwl, 0, 65535⟩], EV_REG_REFUSED⟩,
  -- PW_BUS_KP
  ⟨0x45000008, [], 0x0, [⟨PW_BUS_KP_KPB, .rwl, 0, 4294967295⟩], EV_REG_REFUSED⟩,
  -- PW_BUS_KI
  ⟨0x4500000c, [], 0x0, [⟨PW_BUS_KI_KIB, .rwl, 0, 4294967295⟩], EV_REG_REFUSED⟩,
  -- PW_BUS_SETTLE
  ⟨0x45000010, [], 0x50014, [⟨PW_BUS_SETTLE_TSETTLE, .rwl, 1, 10000⟩, ⟨PW_BUS_SETTLE_VBAND, .rwl, 1, 1000⟩], EV_REG_REFUSED⟩,
  -- PW_REG_EVT
  ⟨0x45000014, [], 0x0, [⟨PW_REG_EVT_WSTALE, .w1c, 0, 1⟩, ⟨PW_REG_EVT_REFUSED, .w1c, 0, 1⟩, ⟨PW_REG_EVT_SYNCLOST, .w1c, 0, 1⟩, ⟨PW_REG_EVT_SHORTFALL, .w1c, 0, 1⟩, ⟨PW_REG_EVT_PHSENSE, .w1c, 0, 1⟩, ⟨PW_REG_EVT_PHOPEN, .w1c, 0, 1⟩], EV_REG_REFUSED⟩,
  -- PW_REG_CNT0
  ⟨0x45000018, [], 0x0, [⟨PW_REG_CNT0_SHORTFALLN, .rc, 0, 255⟩, ⟨PW_REG_CNT0_PHSENSEN, .rc, 0, 255⟩, ⟨PW_REG_CNT0_PHOPENN, .rc, 0, 255⟩], EV_REG_REFUSED⟩,
  -- PW_REG_CNT1
  ⟨0x4500001c, [], 0x0, [⟨PW_REG_CNT1_WSTALEN, .rc, 0, 255⟩, ⟨PW_REG_CNT1_REFUSEDN, .rc, 0, 255⟩, ⟨PW_REG_CNT1_SYNCLOSTN, .rc, 0, 255⟩], EV_REG_REFUSED⟩,
  -- PW_BUS_STAT
  ⟨0x45000020, [], 0x0, [⟨PW_BUS_STAT_VTGT, .ro, 0, 65535⟩, ⟨PW_BUS_STAT_VREF, .ro, 0, 65535⟩], EV_REG_REFUSED⟩,
  -- PW_BVL_CTL
  ⟨0x45000100, [], 0x1, [⟨PW_BVL_CTL_EN, .rwl, 0, 1⟩, ⟨PW_BVL_CTL_LIMPER, .rwl, 1, 10⟩], EV_BVL_REFUSED⟩,
  -- PW_BVL_STAT
  ⟨0x45000104, [], 0x0, [⟨PW_BVL_STAT_LASTSEQ, .ro, 0, 255⟩, ⟨PW_BVL_STAT_PENDSEQ, .ro, 0, 255⟩, ⟨PW_BVL_STAT_PEND, .ro, 0, 1⟩, ⟨PW_BVL_STAT_LSTATE, .ro, 0, 7⟩, ⟨PW_BVL_STAT_ALERT, .ro, 0, 1⟩], EV_BVL_REFUSED⟩,
  -- PW_BVL_EVT
  ⟨0x45000108, [], 0x0, [⟨PW_BVL_EVT_NAKD, .w1c, 0, 1⟩, ⟨PW_BVL_EVT_TIMEOUT, .w1c, 0, 1⟩, ⟨PW_BVL_EVT_CRCERR, .w1c, 0, 1⟩, ⟨PW_BVL_EVT_SUPERSEDED, .w1c, 0, 1⟩], EV_BVL_REFUSED⟩,
  -- PW_BVL_CNT
  ⟨0x4500010c, [], 0x0, [⟨PW_BVL_CNT_NAKDN, .rc, 0, 255⟩, ⟨PW_BVL_CNT_TIMEOUTN, .rc, 0, 255⟩, ⟨PW_BVL_CNT_CRCERRN, .rc, 0, 255⟩, ⟨PW_BVL_CNT_SUPERSEDEDN, .rc, 0, 255⟩], EV_BVL_REFUSED⟩,
  -- PW_PWM_CFG
  ⟨0x45000200, [], 0x4e204400, [⟨PW_PWM_CFG_PERNOM, .rwl, 4000, 50000⟩, ⟨PW_PWM_CFG_SYNCMUL, .rwl, 1, 31⟩, ⟨PW_PWM_CFG_SYNCEN, .rwl, 0, 1⟩], EV_REG_REFUSED⟩,
  -- PW_PWM_SYNC
  ⟨0x45000204, [], 0xa14, [⟨PW_PWM_SYNC_SYNCOFS, .rwl, 0, 65535⟩, ⟨PW_PWM_SYNC_SYNCHOLD, .rwl, 1, 255⟩, ⟨PW_PWM_SYNC_SYNCSTEP, .rwl, 1, 255⟩], EV_REG_REFUSED⟩,
  -- PW_PWM_TMIN
  ⟨0x45000208, [], 0x280000, [⟨PW_PWM_TMIN_TMINON, .rwl, 20, 400⟩, ⟨PW_PWM_TMIN_ROTN, .rwl, 0, 65535⟩], EV_REG_REFUSED⟩,
  -- PW_PWM_BURST
  ⟨0x4500020c, [], 0x1f41904, [⟨PW_PWM_BURST_TREFRESH, .rwl, 10, 10000⟩, ⟨PW_PWM_BURST_WREF, .rwl, 10, 100⟩, ⟨PW_PWM_BURST_BURSTON, .rwl, 1, 255⟩], EV_REG_REFUSED⟩,
  -- PW_SYNC_STAT
  ⟨0x45000210, [], 0x0, [⟨PW_SYNC_STAT_CPER, .ro, 0, 65535⟩, ⟨PW_SYNC_STAT_SYNC, .ro, 0, 3⟩], EV_REG_REFUSED⟩,
  -- PW_EXC_CTL
  ⟨0x45000300, [], 0x64, [⟨PW_EXC_CTL_START, .wo, 0, 1⟩, ⟨PW_EXC_CTL_STOP, .wo, 0, 1⟩, ⟨PW_EXC_CTL_XACT, .ro, 0, 1⟩, ⟨PW_EXC_CTL_XSTR, .rw, 0, 11⟩, ⟨PW_EXC_CTL_XNF, .rw, 0, 3⟩, ⟨PW_EXC_CTL_XRAMPT, .rw, 10, 10000⟩], EV_REG_REFUSED⟩,
  -- PW_EXC_FRQ
  ⟨0x45000304, [(0x8, 4)], 0x989680, [⟨PW_EXC_FRQ_XFRQ, .rw, 50000, 200000000⟩], EV_REG_REFUSED⟩,
  -- PW_EXC_AMP
  ⟨0x45000308, [(0x8, 4)], 0x0, [⟨PW_EXC_AMP_XAMP, .rw, 0, 65535⟩], EV_REG_REFUSED⟩,
  -- PW_EXC_EPOCHLO
  ⟨0x45000324, [], 0x0, [⟨PW_EXC_EPOCHLO_XEPOCH, .rw, 0, 4294967295⟩], EV_REG_REFUSED⟩,
  -- PW_EXC_EPOCHHI
  ⟨0x45000328, [], 0x0, [⟨PW_EXC_EPOCHHI_XEPOCH, .rw, 0, 4294967295⟩], EV_REG_REFUSED⟩,
  -- PW_EXC_STAT
  ⟨0x4500032c, [], 0x0, [⟨PW_EXC_STAT_XEND, .ro, 0, 255⟩], EV_REG_REFUSED⟩,
  -- PW_SREG_CFG
  ⟨0x45000400, [(0x20, 12)], 0x0, [⟨PW_SREG_CFG_EN, .rwl, 0, 1⟩, ⟨PW_SREG_CFG_NPH, .rwl, 0, 3⟩, ⟨PW_SREG_CFG_PH0, .rwl, 0, 23⟩, ⟨PW_SREG_CFG_PH1, .rwl, 0, 23⟩, ⟨PW_SREG_CFG_PH2, .rwl, 0, 23⟩, ⟨PW_SREG_CFG_PH3, .rwl, 0, 23⟩, ⟨PW_SREG_CFG_CPH, .rwl, 0, 255⟩], EV_REG_REFUSED⟩
]

def regRowsPW1 : List RegRow := [
  -- PW_SREG_RAT
  ⟨0x45000404, [(0x20, 12)], 0x0, [⟨PW_SREG_RAT_IBURST, .rwl, 0, 65535⟩, ⟨PW_SREG_RAT_ISRAT, .rwl, 0, 65535⟩], EV_REG_REFUSED⟩,
  -- PW_SREG_KP
  ⟨0x45000408, [(0x20, 12)], 0x0, [⟨PW_SREG_KP_KPP, .rwl, 0, 4294967295⟩], EV_REG_REFUSED⟩,
  -- PW_SREG_KI
  ⟨0x4500040c, [(0x20, 12)], 0x0, [⟨PW_SREG_KI_KIP, .rwl, 0, 4294967295⟩], EV_REG_REFUSED⟩,
  -- PW_SREG_DLIM
  ⟨0x45000410, [(0x20, 12)], 0xfae1051f, [⟨PW_SREG_DLIM_DMAX, .rwl, 0, 65535⟩, ⟨PW_SREG_DLIM_DMIN, .rwl, 0, 65535⟩], EV_REG_REFUSED⟩,
  -- PW_SHW
  ⟨0x45000414, [(0x20, 12)], 0x10001000, [⟨PW_SHW_WCHG, .rw, 0, 65535⟩, ⟨PW_SHW_WDIS, .rw, 0, 65535⟩], EV_REG_REFUSED⟩,
  -- PW_SREG_STAT
  ⟨0x45000418, [(0x20, 12)], 0x7, [⟨PW_SREG_STAT_PHFAIL, .ro, 0, 15⟩, ⟨PW_SREG_STAT_NACT, .ro, 0, 15⟩, ⟨PW_SREG_STAT_BURST, .ro, 0, 1⟩, ⟨PW_SREG_STAT_ATCEIL, .ro, 0, 1⟩, ⟨PW_SREG_STAT_MODE, .ro, 0, 7⟩], EV_REG_REFUSED⟩,
  -- PW_SREG_PHEN
  ⟨0x4500041c, [(0x20, 12)], 0x0, [⟨PW_SREG_PHEN_PHEN, .wo, 0, 15⟩], EV_REG_REFUSED⟩,
  -- PW_PH_CFG
  ⟨0x45000800, [(0x10, 24)], 0x1, [⟨PW_PH_CFG_PDLY, .rwl, 0, 255⟩, ⟨PW_PH_CFG_POSR, .rwl, 0, 2⟩], EV_REG_REFUSED⟩,
  -- PW_PH_GAIN
  ⟨0x45000804, [(0x10, 24)], 0x0, [⟨PW_PH_GAIN_PGAIN, .rwl, 0, 4294967295⟩], EV_REG_REFUSED⟩,
  -- PW_PH_OFS
  ⟨0x45000808, [(0x10, 24)], 0x0, [⟨PW_PH_OFS_POFS, .rwl, 0, 4294967295⟩], EV_REG_REFUSED⟩,
  -- PW_GD_CFG
  ⟨0x45100000, [], 0x640c14, [⟨PW_GD_CFG_RWAIT, .rwl, 1, 10000⟩, ⟨PW_GD_CFG_RTRY, .rwl, 0, 7⟩, ⟨PW_GD_CFG_SCSCOPE, .rwl, 0, 1⟩, ⟨PW_GD_CFG_TPLAT, .rwl, 5, 40⟩], EV_GD_REFUSED⟩,
  -- PW_GD_STAT
  ⟨0x45100004, [], 0x0, [⟨PW_GD_STAT_STOP, .ro, 0, 1⟩, ⟨PW_GD_STAT_KILL, .ro, 0, 1⟩, ⟨PW_GD_STAT_UV, .ro, 0, 1⟩, ⟨PW_GD_STAT_FAULTED, .ro, 0, 16777215⟩], EV_GD_REFUSED⟩,
  -- PW_GD_EVT
  ⟨0x45100008, [], 0x0, [⟨PW_GD_EVT_REFUSED, .w1c, 0, 1⟩, ⟨PW_GD_EVT_LATCHED, .w1c, 0, 1⟩, ⟨PW_GD_EVT_BOTHON, .w1c, 0, 1⟩, ⟨PW_GD_EVT_LEAK, .w1c, 0, 1⟩, ⟨PW_GD_EVT_UV, .w1c, 0, 1⟩, ⟨PW_GD_EVT_FBERR, .w1c, 0, 1⟩, ⟨PW_GD_EVT_INTERLOCK, .w1c, 0, 1⟩, ⟨PW_GD_EVT_SHORT, .w1c, 0, 1⟩], EV_GD_REFUSED⟩,
  -- PW_GD_CNT0
  ⟨0x4510000c, [], 0x0, [⟨PW_GD_CNT0_UVN, .rc, 0, 255⟩, ⟨PW_GD_CNT0_FBERRN, .rc, 0, 255⟩, ⟨PW_GD_CNT0_INTERLOCKN, .rc, 0, 255⟩, ⟨PW_GD_CNT0_SHORTN, .rc, 0, 255⟩], EV_GD_REFUSED⟩,
  -- PW_GD_CNT1
  ⟨0x45100010, [], 0x0, [⟨PW_GD_CNT1_REFUSEDN, .rc, 0, 255⟩, ⟨PW_GD_CNT1_LATCHEDN, .rc, 0, 255⟩, ⟨PW_GD_CNT1_BOTHONN, .rc, 0, 255⟩, ⟨PW_GD_CNT1_LEAKN, .rc, 0, 255⟩], EV_GD_REFUSED⟩,
  -- PW_GD_CLR
  ⟨0x45100014, [], 0x0, [⟨PW_GD_CLR_HBCLR, .wo, 0, 16777215⟩], EV_GD_REFUSED⟩,
  -- PW_GD_TEST
  ⟨0x45100018, [], 0x0, [⟨PW_GD_TEST_TEN, .rw, 0, 1⟩, ⟨PW_GD_TEST_THB, .rw, 0, 23⟩, ⟨PW_GD_TEST_TCMD, .rw, 0, 15⟩], EV_GD_REFUSED⟩,
  -- PW_GD_LEAK
  ⟨0x4510001c, [], 0x0, [⟨PW_GD_LEAK_LSTART, .wo, 0, 1⟩, ⟨PW_GD_LEAK_LBUSY, .ro, 0, 1⟩, ⟨PW_GD_LEAK_LMASK, .rw, 0, 16777215⟩], EV_GD_REFUSED⟩,
  -- PW_GD_LTIME
  ⟨0x45100020, [], 0x64, [⟨PW_GD_LTIME_TLEAK, .rwl, 10, 1000⟩], EV_GD_REFUSED⟩,
  -- PW_GD_LRES
  ⟨0x45100024, [], 0x0, [⟨PW_GD_LRES_LFAIL, .ro, 0, 16777215⟩], EV_GD_REFUSED⟩,
  -- PW_HB_CFG
  ⟨0x45100100, [(0x10, 24)], 0x32320050, [⟨PW_HB_CFG_TBLANK, .rwl, 5, 250⟩, ⟨PW_HB_CFG_TIL, .rwl, 10, 200⟩, ⟨PW_HB_CFG_TDEAD, .rwl, 20, 400⟩], EV_GD_REFUSED⟩,
  -- PW_HB_FOC
  ⟨0x45100104, [(0x10, 24)], 0x0, [⟨PW_HB_FOC_FOCTH, .rwl, 0, 65535⟩], EV_GD_REFUSED⟩,
  -- PW_HB_STAT
  ⟨0x45100108, [(0x10, 24)], 0x7, [⟨PW_HB_STAT_TRIES, .ro, 0, 15⟩, ⟨PW_HB_STAT_CAUSE, .ro, 0, 15⟩, ⟨PW_HB_STAT_OUT, .ro, 0, 15⟩, ⟨PW_HB_STAT_FB, .ro, 0, 3⟩, ⟨PW_HB_STAT_DS, .ro, 0, 3⟩, ⟨PW_HB_STAT_STATE, .ro, 0, 7⟩], EV_GD_REFUSED⟩,
  -- PW_LS_CTL
  ⟨0x45200000, [], 0x0, [⟨PW_LS_CTL_IMEN, .rw, 0, 1⟩, ⟨PW_LS_CTL_IMSEL, .rw, 0, 23⟩], EV_LS_REFUSED⟩,
  -- PW_LS_STAT
  ⟨0x45200004, [], 0x0, [⟨PW_LS_STAT_VSWLO, .ro, 0, 1⟩, ⟨PW_LS_STAT_ON, .ro, 0, 16777215⟩], EV_LS_REFUSED⟩
]

def regRowsPW2 : List RegRow := [
  -- PW_LS_EVT
  ⟨0x45200008, [], 0x0, [⟨PW_LS_EVT_REFUSED, .w1c, 0, 1⟩, ⟨PW_LS_EVT_VSW, .w1c, 0, 1⟩, ⟨PW_LS_EVT_OPENLD, .w1c, 0, 1⟩, ⟨PW_LS_EVT_SENSE, .w1c, 0, 1⟩, ⟨PW_LS_EVT_CLAMP, .w1c, 0, 1⟩, ⟨PW_LS_EVT_LATCH, .w1c, 0, 1⟩, ⟨PW_LS_EVT_THERM, .w1c, 0, 1⟩], EV_LS_REFUSED⟩,
  -- PW_LS_CNT0
  ⟨0x4520000c, [], 0x0, [⟨PW_LS_CNT0_THERMN, .rc, 0, 255⟩, ⟨PW_LS_CNT0_LATCHN, .rc, 0, 255⟩, ⟨PW_LS_CNT0_CLAMPN, .rc, 0, 255⟩, ⟨PW_LS_CNT0_SENSEN, .rc, 0, 255⟩], EV_LS_REFUSED⟩,
  -- PW_LS_CNT1
  ⟨0x45200010, [], 0x0, [⟨PW_LS_CNT1_OPENLDN, .rc, 0, 255⟩, ⟨PW_LS_CNT1_VSWN, .rc, 0, 255⟩, ⟨PW_LS_CNT1_REFUSEDN, .rc, 0, 255⟩], EV_LS_REFUSED⟩,
  -- PW_LS_CLR
  ⟨0x45200014, [], 0x0, [⟨PW_LS_CLR_LSCLR, .wo, 0, 16777215⟩], EV_LS_REFUSED⟩,
  -- PW_LS_CFG
  ⟨0x45200100, [(0x10, 24)], 0x8640000, [⟨PW_LS_CFG_NRST, .rwl, 1, 8⟩, ⟨PW_LS_CFG_EBUD, .rwl, 1, 255⟩, ⟨PW_LS_CFG_TINR, .rwl, 0, 10⟩, ⟨PW_LS_CFG_TMODE, .rwl, 0, 1⟩, ⟨PW_LS_CFG_OLEN, .rwl, 0, 1⟩, ⟨PW_LS_CFG_SRC, .rwl, 0, 63⟩], EV_LS_REFUSED⟩,
  -- PW_LS_STATc
  ⟨0x45200104, [(0x10, 24)], 0xf8000000, [⟨PW_LS_STATc_ATTR, .ro, 0, 31⟩, ⟨PW_LS_STATc_CAUSE, .ro, 0, 7⟩, ⟨PW_LS_STATc_NCYC, .ro, 0, 15⟩, ⟨PW_LS_STATc_PREW, .ro, 0, 1⟩, ⟨PW_LS_STATc_OPENLD, .ro, 0, 1⟩, ⟨PW_LS_STATc_LIM, .ro, 0, 1⟩, ⟨PW_LS_STATc_LATCHED, .ro, 0, 1⟩, ⟨PW_LS_STATc_ISENSE, .ro, 0, 4095⟩], EV_LS_REFUSED⟩,
  -- PW_LS_TJ
  ⟨0x45200108, [(0x10, 24)], 0x0, [⟨PW_LS_TJ_EACC, .ro, 0, 65535⟩, ⟨PW_LS_TJ_TJ, .ro, 0, 65535⟩], EV_LS_REFUSED⟩,
  -- PW_CFB_CFG
  ⟨0x45200800, [], 0x32ffffff, [⟨PW_CFB_CFG_FILT, .rwl, 5, 200⟩, ⟨PW_CFB_CFG_POL, .rwl, 0, 16777215⟩], EV_CUR_REFUSED⟩,
  -- PW_CFB_STAT
  ⟨0x45200804, [], 0x0, [⟨PW_CFB_STAT_CLOSED, .ro, 0, 16777215⟩], EV_CUR_REFUSED⟩,
  -- PW_TRIP_SRC
  ⟨0x45300000, [(0x4, 32)], 0x0, [⟨PW_TRIP_SRC_EN, .rwl, 0, 1⟩, ⟨PW_TRIP_SRC_ACTIVE, .ro, 0, 1⟩, ⟨PW_TRIP_SRC_SCOPE, .rwl, 0, 2⟩, ⟨PW_TRIP_SRC_ACT, .rwl, 0, 7⟩], EV_TRIP_REFUSED⟩,
  -- PW_TRIP_CFG
  ⟨0x45300080, [], 0xa0a3214, [⟨PW_TRIP_CFG_RSLOPE, .rwl, 1, 255⟩, ⟨PW_TRIP_CFG_TRAMPMAX, .rwl, 1, 255⟩, ⟨PW_TRIP_CFG_TOPENMAX, .rwl, 10, 255⟩, ⟨PW_TRIP_CFG_IZERO, .rwl, 5, 200⟩], EV_TRIP_REFUSED⟩,
  -- PW_TRIP_LIM
  ⟨0x45300084, [], 0x50a3232, [⟨PW_TRIP_LIM_DLPERS, .rwl, 1, 255⟩, ⟨PW_TRIP_LIM_DLMARG, .rwl, 0, 50⟩, ⟨PW_TRIP_LIM_DLFALL, .rwl, 0, 100⟩, ⟨PW_TRIP_LIM_DERPCT, .rwl, 0, 100⟩], EV_TRIP_REFUSED⟩,
  -- PW_TRIP_TIM
  ⟨0x45300088, [], 0x32000a, [⟨PW_TRIP_TIM_DLSTALE, .rwl, 20, 1000⟩, ⟨PW_TRIP_TIM_DHOLD, .rwl, 0, 65535⟩], EV_TRIP_REFUSED⟩,
  -- PW_TRIP_REQ
  ⟨0x4530008c, [], 0x0, [⟨PW_TRIP_REQ_SMASK, .wo, 0, 4095⟩, ⟨PW_TRIP_REQ_SCOPE, .wo, 0, 2⟩, ⟨PW_TRIP_REQ_ACT, .wo, 0, 6⟩], EV_TRIP_REFUSED⟩,
  -- PW_TRIP_CLR
  ⟨0x45300090, [], 0x0, [⟨PW_TRIP_CLR_CLR, .wo, 0, 4095⟩], EV_TRIP_REFUSED⟩,
  -- PW_TRIP_EVT
  ⟨0x45300094, [], 0x0, [⟨PW_TRIP_EVT_REFUSED, .w1c, 0, 1⟩, ⟨PW_TRIP_EVT_FORCED, .w1c, 0, 1⟩, ⟨PW_TRIP_EVT_DLSTALE, .w1c, 0, 1⟩, ⟨PW_TRIP_EVT_ACTION, .w1c, 0, 1⟩], EV_TRIP_REFUSED⟩,
  -- PW_TRIP_CNT
  ⟨0x45300098, [], 0x0, [⟨PW_TRIP_CNT_REFUSEDN, .rc, 0, 255⟩, ⟨PW_TRIP_CNT_FORCEDN, .rc, 0, 255⟩, ⟨PW_TRIP_CNT_DLSTALEN, .rc, 0, 255⟩, ⟨PW_TRIP_CNT_ACTIONN, .rc, 0, 255⟩], EV_TRIP_REFUSED⟩,
  -- PW_TRIP_STR
  ⟨0x45300100, [(0x4, 12)], 0x6, [⟨PW_TRIP_STR_CAUSE, .ro, 0, 31⟩, ⟨PW_TRIP_STR_LATCH, .ro, 0, 1⟩, ⟨PW_TRIP_STR_ACT, .ro, 0, 7⟩, ⟨PW_TRIP_STR_STATE, .ro, 0, 7⟩], EV_TRIP_REFUSED⟩,
  -- PW_DLIM_CHG
  ⟨0x45300200, [(0x8, 12)], 0x0, [⟨PW_DLIM_CHG_LIM, .rw, 0, 2147483647⟩], EV_TRIP_REFUSED⟩,
  -- PW_DLIM_DIS
  ⟨0x45300204, [(0x8, 12)], 0x0, [⟨PW_DLIM_DIS_LIM, .rw, 0, 2147483647⟩], EV_TRIP_REFUSED⟩,
  -- PW_CON_CMD
  ⟨0x45300300, [], 0x0, [⟨PW_CON_CMD_OPEN, .wo, 0, 4095⟩, ⟨PW_CON_CMD_CLOSE, .wo, 0, 4095⟩], EV_TRIP_REFUSED⟩,
  -- PW_CON_CFG
  ⟨0x45300304, [], 0x6464, [⟨PW_CON_CFG_TDROP, .rwl, 20, 255⟩, ⟨PW_CON_CFG_TPULL, .rwl, 30, 150⟩], EV_TRIP_REFUSED⟩,
  -- PW_CON_STAT
  ⟨0x45300308, [], 0x0, [⟨PW_CON_STAT_WLOCK, .rwl, 0, 4095⟩, ⟨PW_CON_STAT_CLOSED, .ro, 0, 4095⟩], EV_TRIP_REFUSED⟩,
  -- PW_PCH_CTL
  ⟨0x45300400, [], 0x0, [⟨PW_PCH_CTL_JMASK, .rw, 0, 4095⟩, ⟨PW_PCH_CTL_JOIN, .wo, 0, 1⟩, ⟨PW_PCH_CTL_ABORT, .wo, 0, 1⟩, ⟨PW_PCH_CTL_START, .wo, 0, 1⟩], EV_TRIP_REFUSED⟩,
  -- PW_PCH_CFG
  ⟨0x45300404, [], 0x28140000, [⟨PW_PCH_CFG_TAUMAX, .rwl, 0, 255⟩, ⟨PW_PCH_CFG_TAUMIN, .rwl, 0, 255⟩, ⟨PW_PCH_CFG_SEEDGC, .rwl, 0, 5⟩, ⟨PW_PCH_CFG_SEED, .rwl, 0, 11⟩], EV_TRIP_REFUSED⟩
]

def regRowsPW3 : List RegRow := [
  -- PW_PCH_RATE
  ⟨0x45300408, [], 0xc80064, [⟨PW_PCH_RATE_IPCH, .rwl, 0, 65535⟩, ⟨PW_PCH_RATE_PSLEW, .rwl, 0, 65535⟩], EV_TRIP_REFUSED⟩,
  -- PW_PCH_STAT
  ⟨0x4530040c, [], 0x0, [⟨PW_PCH_STAT_FAILMASK, .ro, 0, 4095⟩, ⟨PW_PCH_STAT_STEP, .ro, 0, 15⟩, ⟨PW_PCH_STAT_REASON, .ro, 0, 15⟩], EV_TRIP_REFUSED⟩
]

/-- All register rows of the power region (PW). -/
def regRowsPW : List RegRow := regRowsPW0 ++ regRowsPW1 ++ regRowsPW2 ++ regRowsPW3

end Sys2Proof.Machine
end

