-- ==== Sys2Proof/Machine/RegsSF.lean ====
section
/-!
DEFINITION. The registers of the safety region (SF): addresses, fields, access types, ranges and reset values, from the register tables of the spec.
-/

namespace Sys2Proof.Machine

/-- Address of `SF_STAT` (R378). -/
def SF_STAT : Nat := 0x47000000
/-- `SF_STAT.STATE`, RO: 0 INIT, 1 LOCK, 2 RUN, 3 SRS. -/
def SF_STAT_STATE : Fld := ⟨31, 29⟩
/-- `SF_STAT.PERM`, RO: HC permission granted. -/
def SF_STAT_PERM : Fld := ⟨28, 28⟩
/-- `SF_STAT.GKILL`, RO: GATE_KILL asserted. -/
def SF_STAT_GKILL : Fld := ⟨27, 27⟩
/-- `SF_STAT.LCOFF`, RO: Every LC input off. -/
def SF_STAT_LCOFF : Fld := ⟨26, 26⟩
/-- `SF_STAT.SOK`, RO: SOK high. -/
def SF_STAT_SOK : Fld := ⟨25, 25⟩
/-- `SF_STAT.SFAULT`, RO: SFAULT_N low. -/
def SF_STAT_SFAULT : Fld := ⟨24, 24⟩
/-- `SF_STAT.CAUSE`, RO: First cause of the episode: 0 none, 1 pair SDC, 2 pair SRS, 3 envelope, 4 ramp end, 5 SCE voltage or temperature, 6 SCE stack-sum range, 7 SCE inconsistency, 8 SCE stale, 9 connection demand, 10 connection fault, 11 program, 12 discrepancy, 13 test pulse, 14 seal, 15 readback, 16 internal, 17 power-up, 18 execution check, 19 `SRSTMAX`, 20 current lost. -/
def SF_STAT_CAUSE : Fld := ⟨23, 16⟩
/-- `SF_STAT.SET`, RO: Active set index. -/
def SF_STAT_SET : Fld := ⟨15, 12⟩
/-- `SF_STAT.SWE`, RO: SEAL4 reads 1. -/
def SF_STAT_SWE : Fld := ⟨11, 11⟩
/-- `SF_STAT.PRDUE`, RO: A proof is due. -/
def SF_STAT_PRDUE : Fld := ⟨10, 10⟩
/-- `SF_STAT.SETOK`, RO: Selected set valid and loaded. -/
def SF_STAT_SETOK : Fld := ⟨9, 9⟩

/-- Address of `SF_SERIAL` (R378). -/
def SF_SERIAL : Nat := 0x47000004
/-- `SF_SERIAL.SERIAL`, RO: Serial of the active set. -/
def SF_SERIAL_SERIAL : Fld := ⟨31, 0⟩

/-- Address of `SF_CNT` (R378). -/
def SF_CNT : Nat := 0x47000008
/-- `SF_CNT.SDCN`, RC: SDCs, saturating at 255. -/
def SF_CNT_SDCN : Fld := ⟨31, 24⟩
/-- `SF_CNT.SRSN`, RC: SRSs, saturating. -/
def SF_CNT_SRSN : Fld := ⟨23, 16⟩
/-- `SF_CNT.RSTREFN`, RC: Refused resets, saturating. -/
def SF_CNT_RSTREFN : Fld := ⟨15, 8⟩
/-- `SF_CNT.MBXREFN`, RC: Refused writes, saturating. -/
def SF_CNT_MBXREFN : Fld := ⟨7, 0⟩

/-- Address of `SF_MBX_RX` (R378). -/
def SF_MBX_RX (n : Nat) : Nat := 0x47000100 + n * 0x4
/-- `SF_MBX_RX.RXD`, WO: Frame bytes 4n to 4n + 3, byte 4n in [7:0]. -/
def SF_MBX_RX_RXD : Fld := ⟨31, 0⟩

/-- Address of `SF_MBX_RXCTL` (R378). -/
def SF_MBX_RXCTL : Nat := 0x47000140
/-- `SF_MBX_RXCTL.GO`, WO: 1 passes the frame to the engine. -/
def SF_MBX_RXCTL_GO : Fld := ⟨31, 31⟩
/-- `SF_MBX_RXCTL.RXBUSY`, RO: Engine taking the frame. -/
def SF_MBX_RXCTL_RXBUSY : Fld := ⟨30, 30⟩
/-- `SF_MBX_RXCTL.LEN`, WO: Frame length, bytes, 13 to 60. -/
def SF_MBX_RXCTL_LEN : Fld := ⟨5, 0⟩

/-- Address of `SF_MBX_TX` (R378). -/
def SF_MBX_TX (n : Nat) : Nat := 0x47000180 + n * 0x4
/-- `SF_MBX_TX.TXD`, RO: Frame bytes 4n to 4n + 3, byte 4n in [7:0]. -/
def SF_MBX_TX_TXD : Fld := ⟨31, 0⟩

/-- Address of `SF_MBX_TXCTL` (R378). -/
def SF_MBX_TXCTL : Nat := 0x470001c0
/-- `SF_MBX_TXCTL.TXACK`, WO: 1 presents the next frame. -/
def SF_MBX_TXCTL_TXACK : Fld := ⟨31, 31⟩
/-- `SF_MBX_TXCTL.TXRDY`, RO: A frame is presented. -/
def SF_MBX_TXCTL_TXRDY : Fld := ⟨30, 30⟩
/-- `SF_MBX_TXCTL.TXCON`, RO: Connection of the frame. -/
def SF_MBX_TXCTL_TXCON : Fld := ⟨20, 16⟩
/-- `SF_MBX_TXCTL.TXLEN`, RO: Frame length, bytes. -/
def SF_MBX_TXCTL_TXLEN : Fld := ⟨5, 0⟩

/-- Address of `SF_MBX_REQ` (R378). -/
def SF_MBX_REQ : Nat := 0x470001c4
/-- `SF_MBX_REQ.REQ`, WO: 1 SDC cause, 2 SRS cause; 0 and 3 refused. -/
def SF_MBX_REQ_REQ : Fld := ⟨1, 0⟩

/-- Address of `SF_IN_STAT` (R378). -/
def SF_IN_STAT : Nat := 0x47100000
/-- `SF_IN_STAT.RAWB`, RO: SIN_B7–SIN_B0, filtered. -/
def SF_IN_STAT_RAWB : Fld := ⟨31, 24⟩
/-- `SF_IN_STAT.RAWA`, RO: SIN_A7–SIN_A0, filtered. -/
def SF_IN_STAT_RAWA : Fld := ⟨23, 16⟩
/-- `SF_IN_STAT.PFLT`, RO: Bit n: pair n faulted. -/
def SF_IN_STAT_PFLT : Fld := ⟨15, 8⟩
/-- `SF_IN_STAT.DEMAND`, RO: Bit n: pair n in demand. -/
def SF_IN_STAT_DEMAND : Fld := ⟨7, 0⟩

/-- Address of `SF_IO_STAT` (R378). -/
def SF_IO_STAT : Nat := 0x47100004
/-- `SF_IO_STAT.SEALN`, RO: SEALN7–SEALN0. -/
def SF_IO_STAT_SEALN : Fld := ⟨31, 24⟩
/-- `SF_IO_STAT.SEAL`, RO: SEAL7–SEAL0. -/
def SF_IO_STAT_SEAL : Fld := ⟨23, 16⟩
/-- `SF_IO_STAT.RSTUCK`, RO: Reset inputs stuck. -/
def SF_IO_STAT_RSTUCK : Fld := ⟨15, 15⟩
/-- `SF_IO_STAT.SRST`, RO: [14] SRST_B, [13] SRST_A active. -/
def SF_IO_STAT_SRST : Fld := ⟨14, 13⟩

/-- Address of `SF_RB_STAT` (R378). -/
def SF_RB_STAT : Nat := 0x47100008
/-- `SF_RB_STAT.HCRB`, RO: Bit s: HC s reads on. -/
def SF_RB_STAT_HCRB : Fld := ⟨29, 18⟩
/-- `SF_RB_STAT.LCRB`, RO: Bit g: LC g reads on. -/
def SF_RB_STAT_LCRB : Fld := ⟨17, 12⟩

/-- Address of `SF_CON_STAT` (R378). -/
def SF_CON_STAT (n : Nat) : Nat := 0x47200000 + n * 0x4
/-- `SF_CON_STAT.CSTATE`, RO: 0 unused, 1 start, 2 running, 3 faulted since the last accepted frame. -/
def SF_CON_STAT_CSTATE : Fld := ⟨31, 30⟩
/-- `SF_CON_STAT.LASTF`, RO: Latest fault: 0 none, 1 CRC, 2 sequence, 3 stamp, 4 age, 5 watchdog. -/
def SF_CON_STAT_LASTF : Fld := ⟨29, 27⟩
/-- `SF_CON_STAT.LOSTN`, RC: Frames lost under R372, saturating at 255. -/
def SF_CON_STAT_LOSTN : Fld := ⟨23, 16⟩
/-- `SF_CON_STAT.CID`, RO: Connection ID. -/
def SF_CON_STAT_CID : Fld := ⟨15, 0⟩

/-- The register descriptors of the safety region (SF), one row per register array (R3, R513). -/
def regRowsSF0 : List RegRow := [
  -- SF_STAT
  ⟨0x47000000, [], 0xc000000, [⟨SF_STAT_STATE, .ro, 0, 7⟩, ⟨SF_STAT_PERM, .ro, 0, 1⟩, ⟨SF_STAT_GKILL, .ro, 0, 1⟩, ⟨SF_STAT_LCOFF, .ro, 0, 1⟩, ⟨SF_STAT_SOK, .ro, 0, 1⟩, ⟨SF_STAT_SFAULT, .ro, 0, 1⟩, ⟨SF_STAT_CAUSE, .ro, 0, 255⟩, ⟨SF_STAT_SET, .ro, 0, 15⟩, ⟨SF_STAT_SWE, .ro, 0, 1⟩, ⟨SF_STAT_PRDUE, .ro, 0, 1⟩, ⟨SF_STAT_SETOK, .ro, 0, 1⟩], EV_SF_MBX_REFUSED⟩,
  -- SF_SERIAL
  ⟨0x47000004, [], 0x0, [⟨SF_SERIAL_SERIAL, .ro, 0, 4294967295⟩], EV_SF_MBX_REFUSED⟩,
  -- SF_CNT
  ⟨0x47000008, [], 0x0, [⟨SF_CNT_SDCN, .rc, 0, 255⟩, ⟨SF_CNT_SRSN, .rc, 0, 255⟩, ⟨SF_CNT_RSTREFN, .rc, 0, 255⟩, ⟨SF_CNT_MBXREFN, .rc, 0, 255⟩], EV_SF_MBX_REFUSED⟩,
  -- SF_MBX_RX
  ⟨0x47000100, [(0x4, 16)], 0x0, [⟨SF_MBX_RX_RXD, .wo, 0, 4294967295⟩], EV_SF_MBX_REFUSED⟩,
  -- SF_MBX_RXCTL
  ⟨0x47000140, [], 0x0, [⟨SF_MBX_RXCTL_GO, .wo, 0, 1⟩, ⟨SF_MBX_RXCTL_RXBUSY, .ro, 0, 1⟩, ⟨SF_MBX_RXCTL_LEN, .wo, 0, 60⟩], EV_SF_MBX_REFUSED⟩,
  -- SF_MBX_TX
  ⟨0x47000180, [(0x4, 16)], 0x0, [⟨SF_MBX_TX_TXD, .ro, 0, 4294967295⟩], EV_SF_MBX_REFUSED⟩,
  -- SF_MBX_TXCTL
  ⟨0x470001c0, [], 0x0, [⟨SF_MBX_TXCTL_TXACK, .wo, 0, 1⟩, ⟨SF_MBX_TXCTL_TXRDY, .ro, 0, 1⟩, ⟨SF_MBX_TXCTL_TXCON, .ro, 0, 31⟩, ⟨SF_MBX_TXCTL_TXLEN, .ro, 0, 63⟩], EV_SF_MBX_REFUSED⟩,
  -- SF_MBX_REQ
  ⟨0x470001c4, [], 0x0, [⟨SF_MBX_REQ_REQ, .wo, 1, 2⟩], EV_SF_MBX_REFUSED⟩,
  -- SF_IN_STAT
  ⟨0x47100000, [], 0x0, [⟨SF_IN_STAT_RAWB, .ro, 0, 255⟩, ⟨SF_IN_STAT_RAWA, .ro, 0, 255⟩, ⟨SF_IN_STAT_PFLT, .ro, 0, 255⟩, ⟨SF_IN_STAT_DEMAND, .ro, 0, 255⟩], EV_SF_MBX_REFUSED⟩,
  -- SF_IO_STAT
  ⟨0x47100004, [], 0x0, [⟨SF_IO_STAT_SEALN, .ro, 0, 255⟩, ⟨SF_IO_STAT_SEAL, .ro, 0, 255⟩, ⟨SF_IO_STAT_RSTUCK, .ro, 0, 1⟩, ⟨SF_IO_STAT_SRST, .ro, 0, 3⟩], EV_SF_MBX_REFUSED⟩,
  -- SF_RB_STAT
  ⟨0x47100008, [], 0x0, [⟨SF_RB_STAT_HCRB, .ro, 0, 4095⟩, ⟨SF_RB_STAT_LCRB, .ro, 0, 63⟩], EV_SF_MBX_REFUSED⟩,
  -- SF_CON_STAT
  ⟨0x47200000, [(0x4, 32)], 0x0, [⟨SF_CON_STAT_CSTATE, .ro, 0, 3⟩, ⟨SF_CON_STAT_LASTF, .ro, 0, 7⟩, ⟨SF_CON_STAT_LOSTN, .rc, 0, 255⟩, ⟨SF_CON_STAT_CID, .ro, 0, 65535⟩], EV_SF_MBX_REFUSED⟩
]

/-- All register rows of the safety region (SF). -/
def regRowsSF : List RegRow := regRowsSF0

end Sys2Proof.Machine
end

