-- ==== Sys2Proof/Machine/Registers.lean ====
section
/-!
DEFINITION. The register map: which row an address belongs to, and the reset value of every register.
-/

namespace Sys2Proof.Machine

/-- The register rows of the region that holds address `a` (R7, R153). -/
def regRowsOf (a : Nat) : List RegRow :=
  match a / 0x1000000 with
  | 0x40 | 0x41 => regRowsFB
  | 0x42 => regRowsAQ
  | 0x43 => regRowsES
  | 0x44 => regRowsCT
  | 0x45 => regRowsPW
  | 0x46 => regRowsPS
  | 0x47 => regRowsSF
  | _ => []

/-- The register row that address `a` belongs to; none where no register is defined (R515). -/
def regRow? (a : Nat) : Option RegRow := (regRowsOf a).find? (fun r => r.has a)

/-- Default action codes of the trip sources 0 to 31 (R127); 7 takes the action from the profile. Rows 28 to 30 have
no action of their own in the table: DESIGN CHOICE (log 2), NOTE for 28 and RAMP-OPEN for 29 and 30. -/
def tripResetAct (n : Nat) : Nat :=
  [7, 7, 7, 3, 7, 5, 7, 0, 7, 1, 3, 3, 3, 3, 1, 5, 5, 1, 0, 0, 5, 3, 4, 5, 3, 5, 3, 3, 0, 3, 3, 0].getD n 0

/-- Default scope codes of the trip sources 0 to 31 (R127): 2, section, for a source without a native string. -/
def tripResetScope (n : Nat) : Nat :=
  [0, 0, 0, 0, 0, 0, 2, 2, 0, 0, 0, 0, 0, 0, 0, 0, 0, 0, 2, 2, 0, 0, 2, 0, 0, 2, 2, 2, 2, 2, 2, 0].getD n 0

/-- The reset value of the register at address `a`: the table's, or the per-place values where the table gives one for
each place of an array. -/
def regReset (a : Nat) : Word :=
  match regRow? a with
  | none => 0#32
  | some r =>
    if r.base = PW_TRIP_SRC 0 then
      let n := (a - r.base) / 4
      if n = 31 then 0#32
      else BitVec.ofNat 32 (2 ^ 31 + tripResetScope n * 16 + tripResetAct n)
    else if r.base = AQ_PORT_CTL 0 then
      if 0x42400000 ≤ a then BitVec.ofNat 32 (r.reset + 2) else BitVec.ofNat 32 r.reset
    else if r.base = PW_LS_CFG 0 then
      let c := (a - r.base) / 16
      if c < 12 then BitVec.ofNat 32 (r.reset + 0x80 + 1)
      else if c < 18 then BitVec.ofNat 32 (r.reset + 0x80)
      else BitVec.ofNat 32 (r.reset + 10 * 256)
    else if r.base = LEDGER_SEVR 0 then
      [0x000A0010#32, 0x00640020#32, 0x00640040#32, 0x00C80080#32, 0x01F400FF#32, 0x03E800FF#32].getD
        ((a - r.base) / 4) 0#32
    else BitVec.ofNat 32 r.reset

end Sys2Proof.Machine
end

