-- ==== Sys2Proof/Machine/Tab.lean ====
section
/-!
DEFINITION. Sparse tables: sorted lists of key and value pairs that leave out every entry equal to the default.
-/

namespace Sys2Proof.Machine

/-- A sparse table from keys to values, in one canonical form: keys strictly rising, no entry equal to what an
unlisted key reads as. -/
abbrev Tab (α : Type) := List (Nat × α)

/-- What key `k` reads as; `d` where the table lists nothing. -/
def Tab.get {α : Type} (d : α) : Tab α → Nat → α
  | [], _ => d
  | (j, v) :: t, k => if j = k then v else Tab.get d t k

/-- The table with key `k` listed as `v`. -/
def Tab.put {α : Type} : Tab α → Nat → α → Tab α
  | [], k, v => [(k, v)]
  | (j, w) :: t, k, v =>
    if k < j then (k, v) :: (j, w) :: t
    else if k = j then (k, v) :: t
    else (j, w) :: Tab.put t k v

/-- The table with key `k` not listed. -/
def Tab.drop {α : Type} : Tab α → Nat → Tab α
  | [], _ => []
  | (j, w) :: t, k => if j = k then Tab.drop t k else (j, w) :: Tab.drop t k

/-- The table in which key `k` reads as `v`, kept canonical: `d` is what an unlisted `k` reads as. -/
def Tab.set {α : Type} [DecidableEq α] (d : α) (t : Tab α) (k : Nat) (v : α) : Tab α :=
  if v = d then Tab.drop t k else Tab.put t k v

/-- Key `k`'s value changed by `f`. -/
def Tab.upd {α : Type} [DecidableEq α] (d : α) (t : Tab α) (k : Nat) (f : α → α) : Tab α :=
  Tab.set d t k (f (Tab.get d t k))

/-- Every key of the table exceeds `n`, and the keys rise strictly. -/
def Tab.sortedFrom {α : Type} : Option Nat → Tab α → Bool
  | _, [] => true
  | none, (j, _) :: t => Tab.sortedFrom (some j) t
  | some n, (j, _) :: t => decide (n < j) && Tab.sortedFrom (some j) t

/-- The canonical form: keys strictly rising and no entry equal to the default of its key. -/
def Tab.wf {α : Type} [DecidableEq α] (d : Nat → α) (t : Tab α) : Bool :=
  Tab.sortedFrom none t && t.all (fun p => decide (p.2 ≠ d p.1))

end Sys2Proof.Machine
end

