-- ==== Sys2Proof/Machine/State.lean ====
section
/-!
DEFINITION. The state of the CX9 as plain data, what an unlisted register or byte reads as, and the state right after reset.
-/

namespace Sys2Proof.Machine

/-- Memory: the bytes that differ from what an unlisted address reads as, by rising address. -/
abbrev Mem := Tab Byte

/-- What an unlisted byte of memory reads as: erased MRAM reads all ones (R426: every slot as shipped is invalid),
the ROMs read what the vendor put there (log 6), every other memory reads 0 (DESIGN CHOICE, log 3). -/
def memDefault (a : Nat) : Byte :=
  if a < 0x00180000 then Config.romByte a
  else if 0x04000000 ≤ a ∧ a < 0x05000000 then 0xFF#8 else 0#8

/-- The canonical form of memory. -/
def Memory.wf (m : Mem) : Bool := Tab.wf memDefault m

/-! ## Events and the ledger (chapter 16) -/

/-- An event on its way from its grain to the ledger (R418, R420). -/
structure EvRec where
  /-- Event code, 16 bits. -/
  code : Nat
  /-- Severity 0 to 6. -/
  sev : Nat
  /-- Source identifier of the raiser, 12 bits (R167). -/
  src : Nat
  /-- Chip time of the raise, ns. -/
  time : Nat
  /-- Snapshot words 0 to 11, 32 bits each; words not listed are 0 (R419). -/
  words : List Nat
  /-- Order of raising within the part (R420). -/
  ord : Nat
  deriving DecidableEq, Repr

/-- A block's event buffer (R421). -/
structure BlockBuf where
  /-- Entries 0 to 15: the first 16 events since the last clear. -/
  first : List EvRec := []
  /-- Entries 16 to 63: the latest 48 events, oldest first. -/
  circ : List EvRec := []
  /-- Events that have entered the circulating part since reset: event number n lies in entry 16 + n mod 48. -/
  total : Nat := 0
  /-- Circulating entries not yet forwarded, by order of raising, oldest first. -/
  unsent : List Nat := []
  /-- Entries overwritten before they were forwarded, since the count last rode in a record (R419). -/
  above : Nat := 0
  deriving DecidableEq, Repr

/-- A token bucket (R422). -/
structure Bucket where
  /-- The codes assigned to it, with their severities (one, or more for bucket 511). -/
  codes : List (Nat × Nat)
  /-- Level, in 10^-12 tokens. -/
  level : Nat
  /-- Instant of the level, ps. -/
  stamp : Nat
  deriving DecidableEq, Repr

/-- A cell's deltas since its last commit, in PS staging SRAM (R433, R434). -/
structure LifeCell where
  /-- The cell is in use: its record in MRAM says so (R432). -/
  used : Bool := false
  /-- Charge below 0.01 Ah carried to the next commit, mAs (R434). -/
  carryIn : Nat := 0
  carryOut : Nat := 0
  /-- Balancing charge not yet committed, mAs. -/
  bal : Nat := 0
  /-- Time not yet committed per temperature bin and SOC bin, ns. -/
  tbins : Tab Nat := []
  sbins : Tab Nat := []
  /-- Present bins, and the bins at the last commit. -/
  tbin : Nat := 0
  sbin : Nat := 0
  tbinC : Nat := 0
  sbinC : Nat := 0
  /-- Chip time of the previous state block, ns; none before the first. -/
  lastBlock : Option Nat := none
  /-- Extremes of voltage and temperature, committed ones included. -/
  vmax : Nat := 0
  vmin : Nat := 0xFFFF
  tmax : Int := -32768
  tmin : Int := 32767
  /-- Voltage and temperature trips, and warnings, not yet committed. -/
  trips : Nat := 0
  warns : Nat := 0
  /-- Model values of a model block since the last commit, binary32; empty where none came. -/
  model : List Nat := []
  /-- Committed at the present references of its string (R434, R437). -/
  fresh : Bool := false
  deriving DecidableEq, Repr

/-- The state of the ledger engine, the lifetime store and the MRAM controller beside their registers. -/
structure Ledger where
  /-- Event stacks of the grains, oldest first, at most 8 each, by source (R420). -/
  pile : Tab (List EvRec) := []
  /-- Drop counts of the stacks since they last rode in a record (R419). -/
  drops : Tab Nat := []
  /-- Number of events raised so far. -/
  ord : Nat := 0
  /-- Block buffers, by block source (R421). -/
  bufs : Tab BlockBuf := []
  /-- Token buckets in the order of assignment, at most 512 (R422). -/
  buckets : List Bucket := []
  /-- Whether EV_LED_REFUSED for a code beyond the 512 buckets has been recorded (R422). -/
  bucketFull : Bool := false
  /-- The engine's queue, oldest first, at most 512 (R424). -/
  queue : List EvRec := []
  /-- Events suppressed per code since its last passing record (R419). -/
  supp : Tab Nat := []
  /-- The next sequence (R423). -/
  seqNext : Nat := 0
  /-- Records persisted since the sediment was empty (the next sediment slot is this mod 98,304). -/
  sedSlot : Nat := 0
  /-- Reachable sediment records (R427, R429). -/
  sedReach : Nat := 0
  /-- Whether the window `LEDGER_WIN` holds a record (R429). -/
  winOk : Bool := false
  /-- Next change-log slot and entry sequence (R430). -/
  chgNext : Nat := 0
  chgSeq : Nat := 0
  /-- Records persisted in the present 24 h window and the window's start, ps (R425). -/
  wearCount : Nat := 0
  wearSince : Nat := 0
  /-- Commit mode (R437), the records persisted in it, and its start, ps. -/
  commit : Bool := false
  commitRecs : Nat := 0
  commitAt : Nat := 0
  /-- EV_LED_PF_COMMIT of this commit mode persisted, ps (R437, R473). -/
  commitDone : Option Nat := none
  /-- A commit trigger that waits for a PS reset to complete (R18). -/
  commitWait : Bool := false
  /-- Contactors closed (bit 0 positive, 1 negative) and current, mA, per string at the regulators' halt (R145), and the
  string map then in force (R433). -/
  halt : Tab (Nat × Int) := []
  haltMap : Nat × Nat := (0xFFFFFFFF, 0xFFFFFFFF)
  /-- Whether a journal is pending (R438), and the latest journal sequence written. -/
  jpend : Bool := false
  jseq : Nat := 0
  /-- The next archive slot, and the copy in progress: trigger time in ns, trigger kind, sequence of
  EV_WIN_FREEZE once persisted (R431). -/
  archNext : Nat := 0
  archBusy : Option (Nat × Nat × Option Nat) := none
  /-- Lifetime store: string integrals A_in, A_out and references, in half mA·ns (R433, R434). -/
  aIn : Tab Nat := []
  aOut : Tab Nat := []
  rIn : Tab Nat := []
  rOut : Tab Nat := []
  rInPrev : Tab Nat := []
  rOutPrev : Tab Nat := []
  /-- The latest current and instant integrated per string, mA and ns. -/
  intLast : Tab (Option (Int × Nat)) := []
  /-- Deltas of the cells, by flat index (R433). -/
  cells : Tab LifeCell := []
  /-- Flat indices waiting for a commit, in commit order (R434). -/
  commitQ : List Nat := []
  /-- Whether the section record waits for a commit (R434). -/
  secDirty : Bool := false
  /-- The batch in progress: the cells, by flat index, and whether the section record is in it (R435). -/
  batch : Option (List Nat × Bool) := none
  /-- Next redo slot and its slot sequence (R435). -/
  redoNext : Nat := 0
  redoSeq : Nat := 0
  /-- Next entry of the retired ring (R436). -/
  retNext : Nat := 0
  /-- Start of the latest rolling pass, ps (R434). -/
  rollAt : Nat := 0
  /-- MRAM: rows remapped to spares, and rows corrected in the latest pass (R441). -/
  remap : Tab Nat := []
  rowsCorr : List Nat := []
  /-- Start of the scrub pass, ps, and the hottest band since (R442). -/
  scrubAt : Nat := 0
  scrubBand : Nat := 0
  /-- Whether EV_MRAM_SPARE_LOW has been recorded (R441). -/
  spareLow : Bool := false
  deriving DecidableEq, Repr

/-! ## Grains (chapter 7) -/

/-- Whether a grain has been started since reset, runs, is quarantined, or was halted by a power failure (R14, R157, R169,
R472). -/
inductive Run where
  | unstarted | running | quarantined | halted
  deriving DecidableEq, Repr

/-- The width and extension of a load. -/
inductive LoadKind where
  | b | h | w | bu | hu | fw | fd
  deriving DecidableEq, Repr

/-- What a grain waits for (R191, R199, R200, R203, R204). -/
inductive Wait where
  | none
  /-- A load from outside the grain's own memory: destination, address. -/
  | load (k : LoadKind) (rd : Nat) (addr : Nat)
  | qput (rd q : Nat) (d : Dword)
  | qget (rd q : Nat)
  | waitq (rd : Nat) (mask : Nat)
  | fence
  /-- A durable fence; the second field is the address of the first store discarded by commit mode (R206). -/
  | pfence (discarded : Option Nat)
  /-- `lsend` waits for its launch time, ns, or for the slot window in progress: destination, body, time (R58, R73). -/
  | lsend (rd : Nat) (body : List Nat) (launch : Nat)
  /-- A received frame until a limit, ps: destination (R73). -/
  | lrecv (rd : Nat) (limit : Nat)
  /-- The PONG of an address, since an instant in ps: destination, address (R73). -/
  | lping (rd : Nat) (addr : Nat) (since : Nat)
  /-- `vcorr` waits for room in the correlator's queue: the lanes it sends, by channel, value and instant (R225). -/
  | vcorr (lanes : List (Nat × Nat × Nat))
  /-- A resident kernel runs (R228). -/
  | kernel
  deriving DecidableEq, Repr

/-- A 128-bit inbox descriptor (R211). -/
structure Desc where
  w0 : Word
  w1 : Word
  w2 : Word
  w3 : Word
  deriving DecidableEq, Repr

/-- A deadline slot (R201). -/
structure DlSlot where
  armed : Bool := false
  missed : Bool := false
  /-- Deadline, ps. -/
  due : Nat := 0
  deriving DecidableEq, Repr

/-- A table slot of a vector grain (R222). -/
structure TabSlot where
  valid : Bool := false
  /-- The descriptor words 0 to 9 as loaded. -/
  words : List Nat := []
  deriving DecidableEq, Repr

/-- The resident kernel active on a grain (R228): its ID, its descriptor's address, the register of its status, and the
address after `kcall`. -/
structure Active where
  id : Nat
  desc : Nat
  rd : Nat
  ret : Nat
  deriving DecidableEq, Repr

/-- The state of one grain (R179, R181, R183). -/
structure Grain where
  run : Run := .unstarted
  wait : Wait := .none
  /-- Program counter. -/
  pc : Word := 0x08000000#32
  /-- General registers g1 to g31; g0 is never listed. -/
  g : Tab Word := []
  /-- Floating registers f0 to f31. -/
  f : Tab Dword := []
  fpctl : Word := 0#32
  status : Word := 1#32
  estat : Word := 0#32
  epc : Word := 0#32
  evec : Word := 0x08000010#32
  scratch0 : Word := 0#32
  scratch1 : Word := 0#32
  /-- TIMEHI as latched by the latest read of TIMELO. -/
  timeHi : Word := 0#32
  /-- MPU registers: 2r is MPUBASEr, 2r + 1 is MPULIMr. -/
  mpu : Tab Word := []
  inbox : List Desc := []
  /-- Deadline slots 0 to 15. -/
  dl : Tab DlSlot := []
  /-- Pending imprecise bus errors, oldest first: address of the store and data address (R210). -/
  imprecise : List (Nat × Nat) := []
  /-- Instant of the latest retired instruction, ps (R168). -/
  retired : Nat := 0
  /-- Vector registers, key n × 256 + lane (R213). -/
  v : Tab Word := []
  /-- Predicates p1 to p7, key n × 256 + lane; p0 reads all ones. -/
  p : Tab Bool := []
  /-- Table slots of `vtld`. -/
  tabs : Tab TabSlot := []
  /-- Kernel held in the overlay, 0 none (R228). -/
  overlay : Nat := 0
  kern : Option Active := none
  deriving DecidableEq, Repr

/-! ## The fabric (chapter 6) -/

/-- A descriptor held by its source for a full inbox, with the number of merges (R166). -/
structure Held where
  desc : Desc
  merges : Nat
  deriving DecidableEq, Repr

/-- The recovery phase of a grain, block or region (R169, R170). -/
inductive Recovery where
  | none
  /-- Its wait runs until the instant, ps. -/
  | waiting (due : Nat)
  /-- Its restart began at the instant, ps. -/
  | restarting (since : Nat)
  /-- It stays quarantined or isolated until released (R169). -/
  | stays
  deriving DecidableEq, Repr

/-- A unit's fault record (R170, R171). -/
structure FaultUnit where
  phase : Recovery := .none
  /-- Active fault sources: event code and the instant it became active, ps. -/
  active : List (Nat × Nat) := []
  /-- Instants of the faults counted in the sliding retry window, ps. -/
  faults : List Nat := []
  deriving DecidableEq, Repr

/-- A program store to MRAM that is not yet durable (R156): the storing grain, the store's address in the program, the word
it changed and what that word held. -/
structure PendStore where
  src : Nat
  pc : Nat
  addr : Nat
  old : Nat
  deriving DecidableEq, Repr

/-- The queue controller, the fault controller, the monitors and the deadline monitor beside their registers. -/
structure Fabric where
  /-- Queues Q0 to Q63, oldest first (R163). -/
  queues : Tab (List Dword) := []
  /-- QPUTLO written, per queue. -/
  putLo : Tab Word := []
  /-- High word of the descriptor last got through QGETLO. -/
  getHi : Tab Word := []
  /-- Whether the watermark descriptor of the present rise has been posted (R165). -/
  wmPosted : Tab Bool := []
  /-- Held inbox descriptors, key source × 4,096 + destination (R166). -/
  held : Tab (Option Held) := []
  /-- Fault state of the units, by source identifier. -/
  units : Tab FaultUnit := []
  /-- Isolated blocks (R168). -/
  isolated : Tab Bool := []
  /-- Performance counters; a counter past 2^48 − 1 waits for its wrap (R174). -/
  pmon : Tab Nat := []
  /-- High halves latched by reads of low words, by the address of the high word (R173). -/
  latch : Tab (Option Word) := []
  /-- Low words written to a pair whose high word is to follow, by the address of the low word (R173). -/
  loWord : Tab (Option Word) := []
  /-- Watchdog: whether the first kick word has been written, and the end of the period, ps (R176). -/
  kicked : Bool := false
  wdogDue : Option Nat := none
  /-- Program stores to MRAM not yet durable, oldest first (R156, R204). -/
  mramPend : List PendStore := []
  /-- Poisoned 64-bit words of memory, by address / 8 (R158). -/
  poison : Tab Bool := []
  /-- Bytes of a poisoned word written since, a mask: the word is sound again once all eight are (R158). -/
  mended : Tab Nat := []
  /-- Start of the latest scrub pass, ps (R158). -/
  sramScrubAt : Nat := 0
  /-- The response to the latest read or write of a register from outside a grain: the word read, and whether it was an
  error response (R153). -/
  rdata : Nat := 0
  rerr : Bool := false
  /-- Regions in reset: 2 ES, 3 CT, 5 PS (R17). -/
  inReset : Tab Bool := []
  deriving DecidableEq, Repr

/-! ## Cell links and nodes (chapters 2 and 3) -/

/-- The node states of R45. -/
inductive NState where
  | sleep | unassigned | assigned | run
  deriving DecidableEq, Repr

/-- The results of one executed SAMPLE (R42, R43, R56). -/
structure Held2 where
  tag : Nat
  /-- Conversion results in the order of R54: cells, or the sense node's fields. -/
  vals : Tab Nat := []
  /-- Aux values. -/
  aux : Tab Nat := []
  stack : Nat := 0
  auxFresh : Bool := false
  owtAct : Bool := false
  deriving DecidableEq, Repr

/-- A sweep that a node carries out (R54). -/
structure NodeSweep where
  tag : Nat
  /-- Target instant in local time, ns. -/
  target : Nat
  mask : Nat
  auxEn : Bool
  owt : Bool
  /-- Conversions done. -/
  done : Nat := 0
  /-- The next mux step. -/
  step : Nat := 0
  res : Held2
  deriving DecidableEq, Repr

/-- A node on a port, as its contract describes it (R29 to R68, R72). -/
structure Node where
  st : NState := .unassigned
  /-- Repeater open (R29, R45). -/
  rep : Bool := false
  addr : Nat := 0
  pos : Nat := 0
  port : Nat := 0
  /-- The physical port, 0 or 1, on which the ENUM arrived. -/
  upPort : Nat := 0
  d0 : Nat := 0
  d1 : Nat := 0
  dlySet : Bool := false
  /-- Node type, cells populated, aux channels, revisions and serial of the EACK (R40). -/
  type : Nat := 1
  cells : Nat := 18
  auxN : Nat := 0
  hw : Nat := 0
  fw : Nat := 0
  serial : Nat := 0
  /-- The node key provisioned, 16 bytes; none where none is (R41, R68). -/
  key : Option (List Nat) := none
  /-- Local time, ps, at the instant of the latest TIME, and that instant, ps (R50). -/
  localT : Nat := 0
  localAt : Nat := 0
  /-- Instant of the latest frame with a good CRC, or of the wake from SLEEP, ps (R66). -/
  lastGood : Nat := 0
  /-- Command frames with a bad CRC, saturating at 255 (R43). -/
  cmdCrc : Nat := 0
  /-- A SAMPLE since the latest record was not executed (R43). -/
  late : Bool := false
  /-- What the node found of itself at the end of its latest sweep (R43). -/
  nodeFlt : Bool := false
  nodeHot : Bool := false
  /-- Registers 0x01 to 0x04 and 0x10 to 0x1F that were written (R44). -/
  regs : Tab Nat := []
  /-- Balancing mask and the end of its timeout, ps (R63). -/
  balMask : Nat := 0
  balDue : Nat := 0
  /-- Switches held off from an executed SAMPLE to its last conversion (R64). -/
  balOff : Bool := false
  /-- Armed open-wire sinks (R62). -/
  owtArm : Nat := 0
  /-- The last nonce, the end of its computation, ps, and whether it is complete (R41, R68). -/
  nonce : Option (List Nat) := none
  authDue : Nat := 0
  authDone : Bool := false
  /-- The answer scheduled: body, instant in ps, physical port (R41). -/
  answer : Option (List Nat × Nat × Nat) := none
  /-- The slot response scheduled: tag, whether it was held at the READ, instant in ps, physical port (R57). -/
  slot : Option (Nat × Bool × Nat × Nat) := none
  sweep : Option NodeSweep := none
  /-- Results of the two most recent executed SAMPLEs, newest first (R56). -/
  held : List Held2 := []
  /-- Stream samples not yet reported, oldest first, at most 16, and the instant of the first, ns (R61). -/
  stream : List Int := []
  streamAt : Nat := 0
  discarded : Nat := 0
  /-- Insulation state and values of a bus sense node (R43, R44). -/
  isoState : Nat := 0
  isoP : Nat := 0xFFFFFFFF
  isoN : Nat := 0xFFFFFFFF
  /-- Instant of the latest insulation measurement, ps. -/
  isoAt : Nat := 0
  /-- Fuse intact; the latest sense values (R43). -/
  fuse : Bool := true
  /-- The end of the frame the node is sending, ps (R31). -/
  sendEnd : Nat := 0
  /-- The frame last sent and its instant. -/
  sent : Option (List Nat × Nat) := none
  /-- The frame last repeated out of the other port (R29). -/
  repeated : Option (List Nat) := none
  /-- The wake tone last relayed, instant in ps (R67). -/
  relayAt : Option Nat := none
  deriving DecidableEq, Repr

/-- What the engines hold for one position of a logical port. -/
structure Pos where
  auxN : Nat := 0
  hw : Nat := 0
  fw : Nat := 0
  /-- The serial held before the latest enumeration (R71). -/
  oldSerial : Nat := 0
  /-- Authentication: nonce in use, tries failed, collections answered 0x07, instant of the first AUTH, ps (R69). -/
  nonce : Option Nat := none
  authTries : Nat := 0
  busy : Nat := 0
  authAt : Nat := 0
  /-- Waiting for the repeated AUTH to be answered. -/
  collecting : Bool := false
  /-- Target of the first sweep without a valid record, ps; none while not stale (R90). -/
  staleSince : Option Nat := none
  /-- Whether EV_SWP_STALE has been recorded for the present stale age. -/
  staleActed : Bool := false
  /-- The sweep tag of the latest accepted record (R60). -/
  gotTag : Option Nat := none
  /-- Missing in the latest READ (R60, R89). -/
  missing : Bool := false
  /-- Consecutive violations, by value index (R126). -/
  pers : Tab Nat := []
  /-- Sources the checker holds active, by source × 64 + value index (R519). -/
  active : Tab Bool := []
  /-- Consecutive records of a sense-wire pattern, by line or cell index (R98). -/
  sig : Tab Nat := []
  /-- Lines under suspicion (R98). -/
  suspect : Nat := 0
  /-- Open-wire verdicts gathered in sweep A: lines intact, broken, indeterminate (R99, R101). -/
  owtDone : Nat := 0
  owtBad : Bool := false
  /-- The cell values count as missing after an indeterminate test (R102). -/
  indet : Bool := false
  /-- The latest record without OWTACT: cells, for the baseline of the test (R99). -/
  base : List Nat := []
  /-- Lines whose groups were protected at the latest record (R137, R152). -/
  grp : Nat := 0
  /-- The window entry of the latest record, 40 bytes (R103). -/
  entry : List Nat := []
  /-- Aux values of the latest four records with AUXFRESH, newest first, 16 bytes each (R103). -/
  aux4 : List (List Nat) := []
  deriving DecidableEq, Repr

/-- A READ outstanding on a port (R60, R89). -/
structure ReadOut where
  tag : Nat
  first : Nat
  last : Nat
  /-- Slot length, 10 ns units. -/
  slot : Nat
  /-- Instant at the balls, ps. -/
  instant : Nat
  retry : Bool
  /-- Positions whose slot has had a response, and those whose response was accepted (R60). -/
  seen : List Nat := []
  got : List Nat := []
  deriving DecidableEq, Repr

/-- A frame at an engine's receiver (R73): its body, whether its CRC is good and a code violation was seen, its instant, ps. -/
structure RxFrame where
  body : List Nat
  crc : Bool
  viol : Bool
  at_ : Nat
  deriving DecidableEq, Repr

/-- A link engine beside its registers and its core (R46 to R75, R89 to R97). -/
structure Engine where
  /-- Enumeration: position being tried and tries made; none when not enumerating (R46). -/
  enumPos : Option Nat := none
  enumTry : Nat := 0
  /-- The ENUM was answered with a bad EACK, and the RREG of R47 is out. -/
  enumProbe : Bool := false
  /-- Instant of the ENUM or RREG sent, ps. -/
  enumAt : Nat := 0
  /-- First position of this enumeration (R46, R94). -/
  enumFirst : Nat := 1
  /-- NODES before the enumeration (R94). -/
  enumOld : Nat := 0
  /-- PINGs answered and the sum of their round trips, ps, for the position being measured (R49). -/
  pingPos : Nat := 0
  pingN : Nat := 0
  pingSum : Nat := 0
  /-- The PING outstanding: position and instant, ps. -/
  pingOut : Option (Nat × Nat) := none
  /-- T_ring, ps (R95). -/
  tRing : Nat := 0
  /-- Armed slot window: first, last, slot (R73). -/
  slot : Option (Nat × Nat × Nat) := none
  /-- Armed launch time, ns; 0 before any is armed (R73). -/
  launch : Nat := 0
  /-- Frames received and not yet taken by `lrecv` or `lping`, oldest first. -/
  rxq : List RxFrame := []
  /-- Frames received, wrapping, and the instant of the last, ns. -/
  rxN : Nat := 0
  rxAt : Nat := 0
  readOut : Option ReadOut := none
  /-- The frame last sent and its instant, ps. -/
  sent : Option (List Nat × Nat) := none
  /-- The wake tone last sent: instant, ps, and length, µs (R67). -/
  wake : Option (Nat × Nat) := none
  /-- Instant of the latest TIME, recalibration and authentication round, ps. -/
  timeAt : Nat := 0
  recalAt : Nat := 0
  authAt : Nat := 0
  /-- Whether the blocked re-authentication of this AUTHPER has been recorded (R69). -/
  authBlocked : Bool := false
  /-- Positions found by this enumeration, and the position being authenticated, 0 none (R46, R69). -/
  found : Nat := 0
  authPos : Nat := 0
  /-- The sweep in hand: tag and target in ns (R91), and the previous tag. -/
  swTag : Option Nat := none
  swTarget : Nat := 0
  swOwt : Nat := 0
  prevTag : Option Nat := none
  prevTarget : Nat := 0
  prevOwt : Nat := 0
  /-- The READ whose slot window closed last (R89), and the missing position being pinged (R92). -/
  lastRead : Option ReadOut := none
  locate : Option Nat := none
  /-- Two-ended operation ends at the next grid point (R97). -/
  rejoin : Bool := false
  /-- Instant of the latest READ, ps (R80). -/
  strAt : Nat := 0
  /-- Open-wire test on this port alone: 1 sweep A next, 2 sweep B next (R98, R99). -/
  owt : Nat := 0
  /-- End 1 suspects a break (R95). -/
  suspect : Bool := false
  /-- Two-ended operation: a and b (R96). -/
  twoEnd : Option (Nat × Nat) := none
  deriving DecidableEq, Repr

/-- The link engines, the nodes on their cables, and what AQ holds per position. -/
structure Links where
  engines : Tab Engine := []
  /-- Nodes by logical port × 64 + place on the cable. -/
  nodes : Tab Node := []
  /-- Per position, by logical port × 64 + position − 1. -/
  pos : Tab Pos := []
  /-- Bus voltage of the latest valid bus sense record of ring A (0) and B (1), mV (R521). -/
  busRec : Tab (Option Int) := []
  /-- Copies of accepted records on their way to SF: port, position, body (R360). -/
  sfCopies : List (Nat × Nat × List Nat) := []
  /-- Nodes whose serial changed, waiting for the lifetime store: port, position (R71, R436). -/
  swaps : List (Nat × Nat) := []
  deriving DecidableEq, Repr

/-! ## Sweeps and the fault window (chapter 3) -/

/-- A sweep descriptor (R77). -/
structure SweepDesc where
  tag : Nat
  flags : Nat
  /-- Target instant, ns. -/
  target : Nat
  mask : Nat
  /-- Period in force, ns. -/
  period : Nat
  owtMask : Nat
  /-- Sweeps posted since reset, this one included. -/
  seq : Nat := 0
  deriving DecidableEq, Repr

/-- The sweep sequencer and the window block beside their registers. -/
structure Sweep where
  /-- Next sweep tag (R76). -/
  tag : Nat := 0
  /-- The latest descriptor. -/
  cur : Option SweepDesc := none
  /-- R87's period in force: 0 load, 1 near, 2 rest. -/
  mode : Nat := 0
  /-- Period in force, load periods (R88), and what set it (R518). -/
  period : Nat := 1
  /-- Dwells of near and rest, ms (R517). -/
  dwellNear : Nat := 0
  dwellRest : Nat := 0
  /-- Limit profile words as the latest posted sweep found them (R124). -/
  profs : Tab Word := []
  /-- Sums of |I| and sample counts of the present 10 ms window, per string (R517). -/
  winSum : Tab Nat := []
  winN : Tab Nat := []
  /-- Sweeps posted since reset (AUXDIV, header offset 24). -/
  count : Nat := 0
  /-- Open-wire test: 0 none, 1 sweep A next, 2 sweep B next; start of the latest, ps (R99). -/
  owt : Nat := 0
  owtAt : Nat := 0
  /-- Whether the loss of PSYNC_IN has been recorded (R84). -/
  nosync : Bool := false
  /-- Grid point of the latest sweep, ns. -/
  last : Option Nat := none
  /-- Sweeps whose records are not yet written to the window, oldest first (R103). -/
  toWrite : List SweepDesc := []
  /-- Fault window: where the next sweep is written, sweeps held, and the size of one. -/
  wrAt : Nat := 0
  held : Nat := 0
  size : Nat := 0
  /-- Freeze: sweeps still to write after a trigger, and the trigger's instant in ns and kind (R104). -/
  trig : Option (Nat × Nat × Nat) := none
  /-- The frozen window's trigger: instant in ns and kind. -/
  frozenBy : Option (Nat × Nat) := none
  deriving DecidableEq, Repr

/-! ## The current unit and the analog inputs (chapter 4) -/

/-- The current unit beside its registers; sources are numbered as the table of R106 does. -/
structure Cur where
  /-- Entries written to each source's ring, and the stamp of its newest accepted sample, ns (R107, R110). -/
  ring : Tab Nat := []
  newest : Tab Nat := []
  /-- Stream period of the latest record of each stream source, ns (R118). -/
  streamPer : Tab Nat := []
  /-- The present 1 ms window of sources 0 to 23: sum, samples, and whether it must be skipped (R115, R116). -/
  winSum : Tab Int := []
  winN : Tab Nat := []
  winBad : Tab Bool := []
  /-- Consecutive failed windows per string (R115). -/
  xfails : Tab Nat := []
  /-- Offset measurement: sums, samples, and since when the string is quiet, ps (R117). -/
  offSum : Tab Int := []
  offN : Tab Nat := []
  offSince : Tab (Option Nat) := []
  /-- Offset measurements completed per string (R117, R253). -/
  offGen : Tab Nat := []
  /-- Decimator outputs of a phase, newest first: stamp in ns and mA (R111); consecutive outputs above 0.9 (R112). -/
  outs : Tab (List (Nat × Int)) := []
  ovN : Tab Nat := []
  /-- Lead outputs of a regulator whose sum is still to be written, oldest first (R111). -/
  sums : Tab (List (Nat × Int)) := []
  /-- AIC channels: latest code, equal codes in a row, codes at or above and below 98 % in a row, faults held (R516). -/
  aicCode : Tab Int := []
  aicSame : Tab Nat := []
  aicHigh : Tab Nat := []
  aicLow : Tab Nat := []
  aicOver : Tab Bool := []
  aicStuck : Tab Bool := []
  /-- AIN channels: latest code and its stamp, ns; samples outside and inside the window in a row; source held (R120). -/
  ainCode : Tab Nat := []
  ainAt : Tab Nat := []
  ainOut : Tab Nat := []
  ainIn : Tab Nat := []
  ainHeld : Tab Bool := []
  /-- Strings for which "string current unknown" is raised (R118). -/
  unknown : Tab Bool := []
  /-- The latest answer to ES: string, instant in ns, and the current in mA, none where invalid (R118). -/
  answer : Option (Nat × Nat × Option Int) := none
  deriving DecidableEq, Repr


/-! ## Protection and disconnect (chapter 5) -/

/-- A verdict or a source change on its way to the trip block (R126, R519). -/
structure Verdict where
  /-- Source 0 to 31 (R127). -/
  src : Nat
  /-- Which holder of the source: port and position, value index or string. -/
  key : Nat
  on : Bool
  /-- Action and scope from the profile, 7 and 3 where the row of the source gives them. -/
  act : Nat
  scope : Nat
  /-- The native string; none acts with section scope (R128, R520). -/
  native : Option Nat
  /-- Flat cell index, or port and position, for the record. -/
  cause : Nat
  value : Nat
  deriving DecidableEq, Repr

/-- A source that is active at the trip block. -/
structure ActiveSrc where
  src : Nat
  key : Nat
  act : Nat
  /-- The strings it reaches, a mask. -/
  strings : Nat
  cause : Nat
  deriving DecidableEq, Repr

/-- The state codes of `PW_TRIP_STRs.STATE`. -/
inductive StrState where
  | normal | derated | ramping | parked | inhibited | opening | open_ | precharge | closing
  deriving DecidableEq, Repr

/-- What the trip block holds for one string (R129 to R133, R139 to R143). -/
structure TripStr where
  /-- Latched action and its cause; 0 none (R131). -/
  latch : Option (Nat × Nat) := none
  /-- The action running and the instant of the episode's first inhibit or ramp, ps (R130). -/
  act : Nat := 0
  episode : Option Nat := none
  /-- Ramp limit of the running ramp, ps (100 ms for source 27). -/
  rampMax : Nat := 0
  /-- Whether the contactors open after the zero-current condition. -/
  opens : Bool := false
  /-- Instant from which t_open_max runs, ps (R130, R133). -/
  openFrom : Nat := 0
  st : StrState := .open_
  /-- A DERATE is in force (R131). -/
  derate : Bool := false
  /-- End of the DERATE hold, ps (R131). -/
  derateDue : Option Nat := none
  /-- HC channel driven on by the program's or pre-charge's close (R139 to R141). -/
  hc : Bool := false
  /-- Start of the pull-in, ps (R141). -/
  pullAt : Option Nat := none
  /-- A close that waits for its LC partner, since ps (R140). -/
  closeWait : Option Nat := none
  /-- HC turned off, ps: the welded-contact check runs (R143); zero-current condition met at the opening. -/
  offAt : Option Nat := none
  offZero : Bool := true
  econ : Bool := false
  /-- Start of the span below I_zero per path (0 shunt, 1 phase), ns, and its latest stamp (R132). -/
  zeroS : Option Nat := none
  zeroSLast : Nat := 0
  zeroP : Option Nat := none
  zeroPLast : Nat := 0
  /-- Dynamic limits in force, their stamp ps, and whether they are stale (R134, R136). -/
  dlimStamp : Nat := 0
  dlimStale : Bool := false
  dlimChg : Nat := 0
  dlimDis : Nat := 0
  /-- Since when each path exceeds the limit in force, ns (R135). -/
  overS : Option Nat := none
  overP : Option Nat := none
  /-- Latest current of each path, mA (R144). -/
  iS : Int := 0
  iP : Int := 0
  /-- ΔV of the latest three sweep records, newest first, mV (R139). -/
  dv : List Int := []
  /-- Contactor voltages that have exceeded +50 V since HC off: bit 0 positive, bit 1 negative (R143). -/
  weldOk : Nat := 0
  /-- The welded-contact check after the latest opening is not made (R143). -/
  noWeldCheck : Bool := false
  /-- The latest contactor and string voltages of its sense node, mV, and their instant, ps. -/
  vStr : Int := 0
  vPos : Int := 0
  vNeg : Int := 0
  vAt : Option Nat := none
  /-- Joined to the bus loop (R148). -/
  joined : Bool := false
  deriving DecidableEq, Repr

/-- The pre-charge sequence (R146 to R149). -/
structure Precharge where
  /-- Step 0 idle, 1 to 7. -/
  step : Nat := 0
  /-- Start of the step and of the sequence, ps. -/
  instant : Nat := 0
  start : Nat := 0
  /-- The relay on SEEDGC is driven on (R147). -/
  relay : Bool := false
  /-- Seed ΔV at the relay's closing and the time constant found, mV and ps. -/
  dv0 : Int := 0
  /-- Bus voltage at the start of the boost, mV (R147). -/
  vBus0 : Int := 0
  tau : Nat := 0
  /-- Strings of the present JOIN, done and failed, masks. -/
  mask : Nat := 0
  done : Nat := 0
  /-- Instants of attempts, ps (R149). -/
  attempts : List Nat := []
  deriving DecidableEq, Repr

/-- The trip block. -/
structure Trip where
  /-- Verdicts and source changes that have not reached the block yet, oldest first. -/
  inbox : List Verdict := []
  /-- Copies of verdicts on their way to SF (R126, R362). -/
  sfCopies : List Verdict := []
  active : List ActiveSrc := []
  str : Tab TripStr := []
  pch : Precharge := {}
  /-- Contactor wear, by contactor × 16 + field of R144 in the table's order. -/
  wear : Tab Nat := []
  /-- Contactor feedback before debounce: 0 low, 1 between the thresholds, 2 high; since when, ps; indeterminate (R122). -/
  cfbRaw : Tab Nat := []
  cfbSince : Tab Nat := []
  cfbIndet : Tab Bool := []
  /-- Pre-sequence: start, ps, and the trigger (R150). -/
  preseqAt : Option Nat := none
  preseqCause : Nat := 0
  /-- PW could not pre-sequence: reset of PW since, ps (R151). -/
  pwHoldAt : Option Nat := none
  orphan : Bool := false
  deriving DecidableEq, Repr

/-! ## The correlators (chapter 8) -/

/-- A lane on its way to a correlator (R225): channel, value in binary32, instant in 100 ns units. -/
structure Lane where
  chan : Nat
  value : Nat
  instant : Nat
  deriving DecidableEq, Repr


/-! ## What the resident kernels keep (chapter 9)

The spec keeps these values in the private parts of records and in private arrays whose layout it does not give; the
model holds them here, by the address of the record or array (log 18). Numbers are binary32 patterns unless said. -/

/-- A counted anchor (R250): 1 rest, 2 taper, 3 quasi-rest; its instant, ns; the SOC and pe then. -/
structure Anchor where
  kind : Nat
  at_ : Nat
  soc : Nat
  pe : Nat
  deriving DecidableEq, Repr

/-- What the kernels keep of one cell. -/
structure EstCell where
  /-- Instant of the latest update, ns. -/
  last : Option Nat := none
  /-- The sweep tag of the latest voltage update, and its instant in ns, voltage and current. -/
  tag : Option Nat := none
  volt : Nat × Nat × Nat := (0, 0, 0)
  /-- Surface temperature at the latest update, °C. -/
  tc : Nat := 0
  /-- Whether the latest voltage lies within VNEAR of a bound (R265). -/
  near : Bool := false
  /-- Since when full rest 0, quasi-rest 1, full taper 2 and empty taper 3 have held, ns (R247 to R249). -/
  since : Tab (Option Nat) := []
  /-- When the next update of rest 0, full taper 2 and empty taper 3 is due, ns. -/
  due : Tab Nat := []
  /-- Extremes of the string voltage in the present taper, mV. -/
  vlo : Int := 0
  vhi : Int := 0
  /-- Quasi-rest (R248): the samples as two basis values and the voltage, the next evaluation n, the square of the last
  accepted σ_u as a fraction, and ETA1, ETA2 and the 60 s mean |i| at t_s. -/
  fit : List (Nat × Nat × Nat) := []
  fitN : Nat := 0
  fitSig : Option (Int × Int) := none
  etaS : Nat × Nat := (0, 0)
  meanS : Nat := 0
  /-- Seconds of |i|, newest first: second, integral in mA·ns, ns. -/
  absI : List (Nat × Nat × Nat) := []
  /-- The latest anchor, the counted charge since it in As, and whether a no-current hold fell in between (R254). -/
  anchor : Option Anchor := none
  charge : Nat := 0
  gap : Bool := false
  /-- A pair of anchors that kernel 0x02 has not yet taken, with the charge between them. -/
  pair : Option (Anchor × Anchor × Nat) := none
  /-- b1, b2, ETA1 and ETA2 of an accepted fit that kernel 0x03 has not yet taken (R255). -/
  fitOut : Option (Nat × Nat × Nat × Nat) := none
  /-- The voltage update of the previous 0x03 call's sweep. -/
  rPrev : Option (Nat × Nat × Nat) := none
  /-- Consecutive windows above TINTW, and the end of the window that TINT comes from, ns (R258). -/
  hot : Nat := 0
  tintEnd : Nat := 0
  /-- Self-discharge (R259): the earlier anchor, the newer one not yet taken, the balancing charge since, mAs, and
  consecutive pairs at or above SDTHR. -/
  sdLast : Option Anchor := none
  sdNew : Option Anchor := none
  sdBal : Nat := 0
  sdN : Nat := 0
  deriving DecidableEq, Repr

/-- What the final form of kernel 0x08 keeps (R241, R253, R265). -/
structure EstHist where
  /-- Charge history of a string, newest first, at most 256: instant in ns, charge in half mA·ns, uncovered time in ns. -/
  charge : Tab (List (Nat × Int × Nat)) := []
  /-- Seconds of the sources s and 12 + s, newest first: second, sum in mA, samples; and the newest stamp taken, ns. -/
  secs : Tab (List (Nat × Int × Nat)) := []
  seen : Tab Nat := []
  /-- A cell of the string has set INCONS since the latest comparison, and when that was, ns (R253). -/
  incons : Tab Bool := []
  offAt : Tab (Option Nat) := []
  /-- A suspected offset: IOFSU raised, and the count of offset measurements then; since when the means agree, ns. -/
  off : Tab (Option (Nat × Nat)) := []
  offOk : Tab (Option Nat) := []
  /-- Start of the latest quasi-rest or full rest of a string, ns (R265). -/
  rlx : Tab (Option Nat) := []
  /-- The period last requested. -/
  req : Nat := 0
  deriving DecidableEq, Repr

/-- One string in a partial of kernel 0x08 (R261 to R266). -/
structure EstPart where
  cells : Nat := 0
  /-- Least and greatest SOC, least lower and greatest upper bound, sum of SOC, least capacity and its sum of ρs. -/
  socLo : Nat := 0
  socHi : Nat := 0
  lbLo : Nat := 0
  ubHi : Nat := 0
  socSum : Nat := 0
  qLo : Nat := 0
  rhos : Nat := 0
  /-- Least limits: charge 2, 10, 30 s, discharge 2, 10, 30 s; sums of u0 and of k × R_T in
  the same order. -/
  lim : List Nat := []
  u0 : List Nat := []
  res : List Nat := []
  /-- Least SOC × Q and (1 − SOC) × Q, the same with the bounds, and the sum of the open-circuit voltages. -/
  eDis : Nat := 0
  eChg : Nat := 0
  eDisB : Nat := 0
  eChgB : Nat := 0
  ocv : Nat := 0
  /-- Hottest internal and surface temperature, °C. -/
  tint : Option Nat := none
  tsurf : Nat := 0
  /-- The flags of any cell, in the order of the result block. -/
  flags : Nat := 0
  near : Bool := false
  /-- Flat index of the cell of least SOC, and the second of the latest sweep. -/
  least : Nat := 0
  sec : Nat := 0
  deriving DecidableEq, Repr

/-- The private data of the resident kernels. -/
structure Est where
  /-- Cells by the address of their record. -/
  cells : Tab EstCell := []
  /-- The state of kernel 0x08, by its address. -/
  hists : Tab EstHist := []
  /-- Partials by their address: string and its part. -/
  parts : Tab (List (Nat × EstPart)) := []
  /-- Last applied sweep tag of kernel 0x01, by the address of its state array (R238). -/
  tags : Tab (Option Nat) := []
  /-- The end of the excitation window of an impedance array, ns, by its address. -/
  zEnd : Tab Nat := []
  /-- Strings in a calibration-rest episode, by the address of the state of kernel 0x08 × 16 (R251). -/
  cal : Tab Bool := []
  deriving DecidableEq, Repr


/-! ## String regulators and the bus voltage link (chapter 10) -/

/-- A regulator beside its registers. -/
structure RegStr where
  /-- String reference, mA, string sign: positive charges the string (R278). -/
  iref : Int := 0
  /-- Entry of mode 1: the ceiling rises from zero at RSLOPE since, ps (R271). -/
  ceilAt : Nat := 0
  /-- Ramp: value at its start, mA, and its start, ps (R271); whether the string idles afterwards of itself. -/
  rampFrom : Int := 0
  rampAt : Nat := 0
  idles : Bool := false
  /-- Burst: periods below IBURST in a row, in burst, periods left of the switching part (R283). -/
  lowN : Nat := 0
  burst : Bool := false
  burstN : Nat := 0
  /-- Firing order: positions advanced, and periods since the last advance (R282). -/
  rot : Nat := 0
  rotN : Nat := 0
  /-- Start of mode 4, ps (R302). -/
  capAt : Nat := 0
  deriving DecidableEq, Repr

/-- A phase of a regulator, by half-bridge (R280, R298 to R301). -/
structure Phase where
  /-- Integrator, duty in 2^-28, and duty held to 2^-24 (R280). -/
  x : Int := 0
  d : Nat := 0
  /-- Periods in a row below 5 % of its share (R298). -/
  openN : Nat := 0
  /-- Its sense has failed (R112), it is open, or both; instant of its inhibit, ps (R299). -/
  senseFail : Bool := false
  isOpen : Bool := false
  decayAt : Option Nat := none
  /-- Latest low-side conduction, ps (R284). -/
  refreshAt : Nat := 0
  /-- Place of its carrier, 1/3,072 of a period (R282). -/
  car : Nat := 0
  /-- Which switches the coming period carries: 0 both, 1 the high side alone, 2 the low side alone (R281). -/
  only : Nat := 0
  deriving DecidableEq, Repr

/-- The regulator block, the sync tracker and the bus voltage link. -/
structure Regu where
  str : Tab RegStr := []
  ph : Tab Phase := []
  /-- Latest sample of VBSRC, mV, and its instant, ps; none before the first (R272). -/
  vbus : Int := 0
  vbusAt : Option Nat := none
  /-- Bus loop: running, integrator in 2^-16 mA, I_tot in mA, reference and target in µV, slew in 0.1 V/ms (R273, R274). -/
  running : Bool := false
  x : Int := 0
  iTot : Int := 0
  vref : Int := 0
  target : Nat := 0
  slew : Nat := 10
  /-- A VSET has been accepted since reset. -/
  vsetEver : Bool := false
  /-- IFF, mA, and its instant, ps (R273). -/
  iff_ : Int := 0
  iffAt : Nat := 0
  /-- Latest VSET received: sequence, payload and the ACK last sent for it (R292). -/
  vsetLast : Option (Nat × Nat × Nat × Nat) := none
  /-- The VSET in force that waits for its ACK-DONE (R293). -/
  vsetPend : Option Nat := none
  /-- Start of the settling time, ps (R293). -/
  settleAt : Option Nat := none
  /-- Latest frame with a good CRC, start of the silence, fallback (R297). -/
  linkAt : Nat := 0
  silentAt : Option Nat := none
  fallback : Bool := false
  /-- Responses waiting: priority, type, payload (R291); own sequence; the frame last sent. -/
  rsp : List (Nat × Nat × Nat) := []
  rspSeq : Nat := 0
  sent : Option Nat := none
  /-- End of the frame last sent with its 8 bit times of 1, ps (R288). -/
  sentEnd : Nat := 0
  /-- LIMD and LIMC last sent, and when, ps (R296). -/
  limD : Nat := 0
  limC : Nat := 0
  limAt : Nat := 0
  /-- Short of current, and since when a compensation share cannot be placed, ps (R279, R305). -/
  short : Bool := false
  excShort : Option Nat := none
  /-- Latest write of the weights, ps; stale (R277). -/
  weightsAt : Nat := 0
  weightsStale : Bool := false
  /-- The bus voltage source is faulty, and since when it has been sound, ps (R275). -/
  vbusFault : Bool := true
  vbusSound : Option Nat := none
  /-- PSYNC_IN: latest edge, ps; latest intervals, at most 8, newest first; start of the hold (R285, R286). -/
  psyncAt : Option Nat := none
  psyncIv : List Nat := []
  holdAt : Option Nat := none
  /-- Timebase period, ps, and the largest step toward the nominal one in force. -/
  tbPer : Nat := 50000000
  /-- Timebase: start of the latest switching period, ps, periods since the carrier period's start, and the phase error
  still to correct, ps (R285). -/
  tbAt : Nat := 0
  tbN : Nat := 0
  tbErr : Int := 0
  /-- Delay line recalibrated, ps (R281). -/
  dlineAt : Nat := 0
  /-- Excitation: the instant at which its envelope ends, ns (R303 to R305). -/
  excStop : Option Nat := none
  /-- Value of p(t) at the latest splitter cycle, mA. -/
  excP : Int := 0
  deriving DecidableEq, Repr

/-! ## The gate block (chapter 11) -/

/-- A half-bridge beside its registers; its outputs, feedback, flags, cause and state stand in `PW_HB_STATn`. -/
structure HB where
  /-- The regulator's enable and pulse (R311). -/
  en : Bool := false
  pulse : Bool := false
  /-- Latest G rising and falling edges of the high and low side, ps. -/
  riseH : Nat := 0
  riseL : Nat := 0
  fallH : Nat := 0
  fallL : Nat := 0
  /-- A turn-on that waits for its dead time and the opposite feedback: high side, and the end of the dead time, ps. -/
  pend : Option (Bool × Nat) := none
  /-- Instant of the latest fault, ps, and those of the latest 60 s (R325, R326). -/
  faultAt : Nat := 0
  faults : List Nat := []
  /-- The fast overcurrent detector reads above its threshold (R315, R325). -/
  foc : Bool := false
  /-- The trip matrix inhibits its string (R310). -/
  inhibit : Bool := false
  /-- Member of the stop in progress, and faulted in it; start of its plateau and its hard-off instant, ps (R317, R318). -/
  inStop : Bool := false
  stopFault : Bool := false
  platAt : Nat := 0
  offDue : Option Nat := none
  deriving DecidableEq, Repr

/-- The gate block. -/
structure Gate where
  hb : Tab HB := []
  /-- The latest hard-off instant of the stop's faulted half-bridges and of all, ps (R318, R319). -/
  lastFaultOff : Option Nat := none
  lastOff : Nat := 0
  /-- Assertion of GATE_KILL, ps (R321). -/
  killAt : Nat := 0
  /-- The leak test: half-bridges still to test, the step 1 to 5 of the first of them, and its end, ps (R323). -/
  leak : Option (List Nat × Nat × Nat) := none
  deriving DecidableEq, Repr

/-! ## Load switches (chapter 12) -/

/-- A load-switch channel beside its registers. -/
structure LsCh where
  /-- Instants of its latest turn-on and turn-off, ps; a channel off since reset counts as off for long. -/
  onAt : Nat := 0
  offAt : Option Nat := none
  /-- End of its inrush window, ps (R334). -/
  inrush : Option Nat := none
  /-- Thermal trips and restarts of the latest 10 s, ps (R335). -/
  trips : List Nat := []
  restarts : List Nat := []
  /-- Off and waiting to cool (R335). -/
  cooling : Bool := false
  /-- Latest instant in current limit, and of a thermal trip, ps (R338). -/
  limAt : Option Nat := none
  tripAt : Option Nat := none
  /-- Held off after a VSW lock-out until its input has been off once (R343). -/
  vswHold : Bool := false
  /-- Clamp account, nJ, and its instant, ps (R339); sense code at the latest turn-off. -/
  energy : Nat := 0
  energyAt : Nat := 0
  offSense : Nat := 0
  /-- Its sensor is broken (R336). -/
  broken : Bool := false
  deriving DecidableEq, Repr

/-- A load timer (R332). -/
structure LoadTimer where
  /-- Start of the period in progress, ps; its settings, µs and 1/1,024; its output. -/
  start : Nat := 0
  period : Nat := 0
  duty : Nat := 0
  high : Bool := false
  /-- Stopped with its output low by the end of t_hold (R477). -/
  stopped : Bool := false
  deriving DecidableEq, Repr

/-- The output block beside its registers, and the pins that drive it. -/
structure LoadSw where
  ch : Tab LsCh := []
  timers : Tab LoadTimer := []
  /-- Levels of the 32 general I/O lines, and whether they are inputs since the end of t_hold (R330, R477). -/
  io : Nat := 0
  ioInputs : Bool := true
  /-- SF's wires to the LC channels: bit g on (R330). -/
  lcWire : Nat := 0
  deriving DecidableEq, Repr


/-! ## The safety region (chapter 13) -/

/-- What SF holds for a string with a sense position in its set (R357, R358). -/
structure SfStr where
  /-- Stream samples of the latest 2 ms: instant in ns and mA. -/
  samples : List (Nat × Int) := []
  /-- I_s, mA (R357). -/
  iRef : Nat := 0
  /-- Chip instant of the latest valid copy with samples, ps. -/
  lastAt : Nat := 0
  /-- Samples arrived since the previous cycle start; one of them above `SRSIEND`. -/
  got : Bool := false
  above : Bool := false
  deriving DecidableEq, Repr

/-- What SF holds for a cell node in its masks (R360). -/
structure SceNode where
  /-- Consecutive violating copies: voltage or temperature, stack-sum range, stack-sum inconsistency. -/
  vt : Nat := 0
  range : Nat := 0
  sum : Nat := 0
  /-- The latest valid copy, ps, 0 none since the set was loaded; whether the node is stale. -/
  lastAt : Nat := 0
  stale : Bool := false
  deriving DecidableEq, Repr

/-- A safety input pair beside its registers (R353, R354). -/
structure SfPair where
  /-- Since when the channels disagree, ps. -/
  disagree : Option Nat := none
  /-- Since its fault both channels have shown demand together. -/
  both : Bool := false
  /-- A test-pulse fault is present; good pulses in a row since, channel A and B, at most 3. -/
  pulse : Bool := false
  goodA : Nat := 0
  goodB : Nat := 0
  deriving DecidableEq, Repr

/-- A Zenmomor connection beside its register (R372 to R375). -/
structure SfConn where
  /-- Latest accepted sequence and stamp; learned offset, 1/5,000 µs; instant of the latest accepted frame or of the
  connection's start, ps. -/
  seq : Nat := 0
  stamp : Nat := 0
  offset : Int := 0
  at_ : Nat := 0
  /-- Demand bits of the latest accepted frame, 1 no demand. -/
  sdcOk : Bool := false
  srsOk : Bool := false
  /-- Start of the remote press, ps (R374). -/
  press : Option Nat := none
  /-- Frames repeated (R372). -/
  repeats : Nat := 0
  /-- Producer: next sequence (R375). -/
  nextSeq : Nat := 0
  deriving DecidableEq, Repr

/-- An execution check that runs: its end, ps, and the strings in scope, a mask (R362). -/
structure SfExec where
  due : Nat
  strings : Nat
  deriving DecidableEq, Repr

/-- The safety region beside its registers. -/
structure Safety where
  /-- The bytes of the set in force; none before the first valid load (R369). -/
  set : List Nat := []
  /-- When it was loaded, ps. -/
  loadAt : Nat := 0
  /-- Stop causes latched, in the order of occurrence, with whether each calls for SDC (R352). -/
  latched : List (Nat × Bool) := []
  /-- The first cause that has occurred since the latest safety cycle (R365). -/
  newCause : Option Nat := none
  /-- Every reset is refused until the next chip reset (R347). -/
  locked : Bool := false
  /-- SF has reported the internal fault of this lock (R347). -/
  reported : Bool := false
  /-- A valid press waits for the next safety cycle (R364, R365). -/
  press : Bool := false
  /-- Program request written since the latest safety cycle (R365, R377). -/
  request : Bool := false
  /-- A seal fault is present; safety cycles in a row with a complement that differs (R367). -/
  sealFlt : Bool := false
  sealN : Nat := 0
  pairs : Tab SfPair := []
  /-- SRS: t_r, ps. -/
  tR : Nat := 0
  str : Tab SfStr := []
  sce : Tab SceNode := []
  conns : Tab SfConn := []
  execs : List SfExec := []
  /-- Cycles in a row in which a channel's readback is wrong: HC 0 to 11, LC 12 to 17 (R350). -/
  rbBad : Tab Nat := []
  /-- Latest proof of LC paths 0 to 5 and the HC permission path 6, ps; whether each showed off at the previous cycle. -/
  proven : Tab Nat := []
  offSeen : Tab Bool := []
  /-- Start of `PRDUE`, ps (R351). -/
  dueAt : Nat := 0
  /-- Frames that wait for transmission, oldest first: connection and bytes (R375). -/
  txq : List (Nat × List Nat) := []
  /-- Frames discarded for their connection ID (R372). -/
  discarded : Nat := 0
  deriving DecidableEq, Repr

/-! ## The CAN controllers (chapter 14) -/

/-- A CAN controller beside its registers. Buffers are 0 to 63, 64 express, 65 the reference message. -/
structure Can where
  /-- Messages of the pending buffers, 20 words each (R385, R386). -/
  bufs : Tab (List Nat) := []
  /-- The buffer in transmission; the program has aborted it (R388). -/
  act : Option Nat := none
  aborting : Bool := false
  /-- The buffer of the latest attempt, and whether its run of bit errors has been reported (R394). -/
  lastBuf : Option Nat := none
  reported : Bool := false
  /-- Messages of FIFO 0 and 1, oldest first; losses since the latest stored message; watermark descriptor posted (R391). -/
  fifo : Tab (List (List Nat)) := []
  lost : Tab Nat := []
  wmPosted : Tab Bool := []
  /-- Master: next sequence; sequence and SOF, ns, of the latest reference message that succeeded; new content that waits
  for the end of the one in transmission (R396, R397). -/
  seq : Nat := 0
  sent : Option (Nat × Nat) := none
  refNext : Option (List Nat) := none
  /-- A backup master sends (R397). -/
  backup : Bool := false
  /-- SOF captures of the latest 4 reference messages, newest first: sequence and ns (R398). -/
  caps : List (Nat × Nat) := []
  /-- The previous valid offset, ns, and its capture, ns; when it was formed, ps (R398). -/
  ofs : Option (Int × Nat) := none
  ofsAt : Nat := 0
  /-- The latest reference message received, ps (R397). -/
  refAt : Nat := 0
  deriving DecidableEq, Repr

/-! ## Ethernet and chip time (chapter 15) -/

/-- The MACs and the time unit beside their registers. -/
structure Eth where
  /-- The frame last sent by each MAC: bytes from the destination address, padded, without FCS (R405). -/
  sent : Tab (List Nat) := []
  /-- Phase correction not yet applied, 0.1 ns (R408). -/
  phase : Int := 0
  /-- Rate adjustment gathered, 10^-11 cycles, and cycles gathered toward the next slew step, 10^-6 steps (R408). -/
  rateAcc : Int := 0
  slewAcc : Nat := 0
  /-- The latest write of RATE or PHASE, ps (R410). -/
  servoAt : Nat := 0
  deriving DecidableEq, Repr

/-! ## Boot, keys and access control (chapter 17) -/

/-- Recovery by the boot ROM (R456, R457). -/
structure Recover where
  /-- The interface served: 0 MAC0, 1 CAN0, 2 none. -/
  iface : Nat := 2
  /-- The target slot: 0 A, 1 B. -/
  slot : Nat := 0
  /-- Sequence of the latest command, and the reply to it: type, status and data bytes. -/
  seq : Nat := 0
  reply : Option (Nat × Nat × List Nat) := none
  /-- A good VERIFY since the latest WRITE. -/
  verified : Bool := false
  /-- The state word of the target has been invalidated (R456). -/
  begun : Bool := false
  deriving DecidableEq, Repr

/-- Boot, OTP, key store, configuration gate and debug state beside their registers. -/
structure Boot where
  /-- Key slots: slot 0 holds the section key, 16 bytes; none where empty or invalid (R458, R460). -/
  keys : Tab (Option (List Nat)) := []
  /-- Sequences of the two copies of each slot, by slot × 2 + copy (R458). -/
  keySeq : Tab Nat := []
  /-- OTP bits burnt since the vendor shipped the part, by bit number (R466). -/
  otp : Tab Bool := []
  /-- Password slots: salt and hash; none where empty (R461). -/
  pw : Tab (Option (List Nat × List Nat)) := []
  /-- The lockout in force: its start and its length, ps (R462). -/
  lock : Option (Nat × Nat) := none
  /-- The latest gated write or the unlock, ps (R463). -/
  gateAt : Nat := 0
  /-- The challenge in force, 16 bytes, and when it was drawn, ps (R468). -/
  chal : Option (List Nat × Nat) := none
  /-- The end of the token in force, ps (R468). -/
  dbgDue : Option Nat := none
  /-- A slot was booted by the boot ROM since the chip reset (R447 to R452); its security version and key index. -/
  booted : Bool := false
  version : Nat := 0
  key : Nat := 0
  /-- The recovery of PS has run since the chip reset (R446). -/
  psUp : Bool := false
  /-- In recovery (R456). -/
  recover : Option Recover := none
  deriving DecidableEq, Repr

/-! ## The supervisor (chapter 18) -/

/-- The always-on supervisor beside its registers. -/
structure Super where
  /-- The 24 V rail below `PFTH` (R472). -/
  pf : Bool := false
  /-- Start of the commit mode in force, ps (R437, R472). -/
  pfAt : Option Nat := none
  /-- Since when the rail has stayed above `PFTH` + `PFHYS`, ps (R473, R474). -/
  railOkAt : Option Nat := none
  /-- Start of the output hold, ps (R476). -/
  holdAt : Option Nat := none
  /-- A reset that has been decided and waits for the pre-sequence: its cause (R475); 0 none. -/
  cause : Nat := 0
  /-- A chip reset deferred by commit mode (R474): its cause and how it comes: 0 at once, 1 after the pre-sequence of R150,
  2 after the hold of R151. -/
  deferred : Option (Nat × Nat) := none
  /-- Assertion of the chip reset in force, ps; none while the chip runs (R479, R484). -/
  resetAt : Option Nat := some 0
  /-- RESET_N is low, since its accepted low, ps, and the instant it was last seen high (R479, R480). -/
  lowAt : Option Nat := none
  highAt : Nat := 0
  /-- The reset is held until the sensors of a die are cool: 1 controller die, 2 power die (R488). -/
  hotDie : Nat := 0
  /-- TEST_N is low (R495). -/
  test : Bool := false
  /-- Which rails stand inside their thresholds: bit 0 VCORE, 1 VDDM, 2 VIO18, 3 VIO33 (R470, R471). -/
  rails : Nat := 0
  /-- Start of the span at the shutdown limit, ps, per sensor, and of the declaration (R488). -/
  hotAt : Tab (Option Nat) := []
  shdnAt : Option Nat := none
  shdnStart : Nat := 0
  /-- Since when a broken sensor passes its self-check, ps (R486). -/
  soundAt : Tab (Option Nat) := []
  /-- Latest good reading per sensor, 0.01 °C. -/
  temp : Tab Int := []
  /-- Since when a die's highest reading stays 3 °C below the threshold of band b, ps, by die × 8 + b (R487). -/
  coolAt : Tab (Option Nat) := []
  /-- Since when every counting sensor of the hot die stays below its release limit, ps (R488). -/
  coldAt : Option Nat := none
  /-- Oscillator vote: the outcome of the latest window and how many in a row: 0 agree, 1 crystal, 2 safety oscillator,
  3 monitor oscillator, 4 no pair (R483). -/
  vote : Nat := 0
  voteN : Nat := 0
  /-- The RTC: chip time loaded last, ns, and the instant of the load, ps; valid (R484, R485). -/
  rtc : Nat := 0
  rtcAt : Nat := 0
  rtcBad : Bool := true
  /-- What PS persists at the next boot: a reset (cause, pre-sequence), a held RESET_N (ms), a lost RTC (R475, R480, R485). -/
  owedReset : Option (Nat × Nat) := none
  owedHeld : Option Nat := none
  owedRtc : Bool := false
  /-- Chip-fatal reports of SF in the latest 10 minutes, ps (R347). -/
  sfReports : List Nat := []
  /-- Strings whose channels were held through R151, a mask: their openings count at the next boot. -/
  drops : Nat := 0
  /-- Power has been lost since the previous boot (R145, R485). -/
  powerLost : Bool := true
  deriving DecidableEq, Repr

/-! ## The whole machine -/

/-- The state of the CX9. -/
structure State where
  /-- Commands waiting, first in first out. -/
  pending : List Instr := []
  /-- Chip instant, ps: chip time advances in 2.5 ns steps (R5, R15). -/
  now : Nat := 0
  /-- The model's own counter of free values drawn (not the spec's). -/
  fresh : Nat := 0
  /-- Every register, by address; an unlisted one holds its reset value (R3, R7). -/
  regs : Tab Word := []
  /-- Every byte of SRAM, local memory (at its alias, R157), MRAM and ROM, by address (R153). -/
  mem : Mem := []
  /-- Queues, faults, monitors, deadlines (chapter 6). -/
  fab : Fabric := {}
  /-- The control, vector and link grains, by source identifier (chapters 7 and 8). -/
  grains : Tab Grain := []
  /-- The ledger engine, lifetime store and MRAM controller (chapter 16). -/
  led : Ledger := {}
  /-- Link engines, nodes and positions (chapter 2). -/
  lnk : Links := {}
  /-- Sweep sequencer and fault window (chapter 3). -/
  swp : Sweep := {}
  /-- Trip matrix, contactors, pre-charge (chapter 5). -/
  trip : Trip := {}
  /-- Boot, OTP, keys, configuration gate, debug (chapter 17). -/
  boot : Boot := {}
  /-- Gate block (chapter 11). -/
  gate : Gate := {}
  /-- String regulators, sync tracker, bus voltage link (chapter 10). -/
  regu : Regu := {}
  /-- Load-switch channels, load timers, general I/O lines (chapter 12). -/
  out : LoadSw := {}
  /-- Current unit and analog inputs (chapter 4). -/
  cur : Cur := {}
  /-- The safety region (chapter 13). -/
  sf : Safety := {}
  /-- CAN controllers 0 to 5 (chapter 14). -/
  can : Tab Can := []
  /-- Ethernet MACs and chip-time discipline (chapter 15). -/
  eth : Eth := {}
  /-- The always-on supervisor (chapter 18). -/
  sv : Super := {}
  /-- Lanes that wait in a correlator, by block: one list per `vcorr`, oldest first, at most 16 (R225). -/
  corr : Tab (List (List Lane)) := []
  /-- Private data of the resident kernels (chapter 9, log 18). -/
  est : Est := {}
  deriving DecidableEq, Repr

/-- Why the machine stops with a fault. No command of this block stops it: every access to an address that does not
exist gets the error response of R153, and every refused command is recorded; the constructor stands for the
queue's own form only (nobody raises it; safe). -/
inductive Fault where
  | none
  deriving DecidableEq, Repr

/-- Why a command has no meaning: raised by the dispatch alone, for a command not modelled (safe). -/
inductive Refusal where
  | notModelled (mnemonic : String)
  deriving DecidableEq, Repr

/-- The machine right after reset: every register at its reset value, every memory byte unlisted, no command waiting.
Where the spec gives a hidden piece of state no reset value, its default is named in the log (DESIGN CHOICE, log 2). -/
def State.reset : State := {}

end Sys2Proof.Machine
end

