-- ==== Sys2Proof/Machine/Ops.lean ====
section
/-!
DEFINITION. The named operations over time, registers, memory, events, inboxes and queues that every command is built of.
-/

namespace Sys2Proof.Machine

/-! ## Time -/

/-- The machine at the instant `t` of an event; time never moves back (R409). -/
def State.at (s : State) (t : Nat) : State := { s with now := Nat.max s.now t }

/-- Chip time in ns: it advances in 2.5 ns steps (R5, R15). -/
def State.ns (s : State) : Nat := s.now / 2500 * 2500 / 1000

/-- Microseconds, milliseconds and seconds in ps. -/
def us : Nat := 1000000
def ms : Nat := 1000000000
def sec : Nat := 1000000000000

/-! ## Free values -/

/-- A value the spec leaves open: the next one drawn (log 4). -/
def State.freeNat (s : State) : Nat := Config.freeWord s.fresh
/-- The machine after `k` free values were drawn. -/
def State.drew (s : State) (k : Nat) : State := { s with fresh := s.fresh + k }

/-! ## Registers -/

/-- The word a register holds. -/
def State.reg (s : State) (a : Nat) : Word := Tab.get (regReset a) s.regs a

/-- A register set to a word by the hardware. -/
def State.setReg (s : State) (a : Nat) (w : Word) : State := { s with regs := Tab.set (regReset a) s.regs a w }

/-- A field of a register, unsigned. -/
def State.rd (s : State) (a : Nat) (f : Fld) : Nat := f.get (s.reg a)

/-- A field of a register, signed. -/
def State.rdS (s : State) (a : Nat) (f : Fld) : Int := f.getS (s.reg a)

/-- A one-bit field of a register. -/
def State.rdB (s : State) (a : Nat) (f : Fld) : Bool := s.rd a f == 1

/-- One field of a register set by the hardware. -/
def State.wr (s : State) (a : Nat) (f : Fld) (v : Nat) : State := s.setReg a (f.put (s.reg a) v)

/-- One bit of a register set by the hardware. -/
def State.wrBit (s : State) (a : Nat) (i : Nat) (v : Bool) : State := s.wr a ⟨i, i⟩ (b2n v)

/-- A W1C flag set by the hardware, with its saturating occurrence count (R3, R172). -/
def State.hit (s : State) (evt : Nat) (f : Fld) (cnt : Nat) (c : Fld) : State :=
  let s1 := s.wr evt f 1
  s1.wr cnt c (satAdd (s1.rd cnt c) 1 c.max)

/-- A saturating count raised by one. -/
def State.bump (s : State) (cnt : Nat) (c : Fld) : State := s.wr cnt c (satAdd (s.rd cnt c) 1 c.max)

/-! ## Memory -/

/-- One byte of memory. -/
def State.byte (s : State) (a : Nat) : Byte := Tab.get (memDefault a) s.mem a

/-- A byte of a poisoned word written: the word is sound again once all of it was written (R158). -/
def Fabric.mend (f : Fabric) (a : Nat) : Fabric :=
  if Tab.get false f.poison (a / 8) then
    let m := Tab.get 0 f.mended (a / 8) ||| 2 ^ (a % 8)
    if m = 255 then { f with poison := Tab.set false f.poison (a / 8) false, mended := Tab.set 0 f.mended (a / 8) 0 }
    else { f with mended := Tab.set 0 f.mended (a / 8) m }
  else f

/-- One byte of memory written. -/
def State.setByte (s : State) (a : Nat) (b : Byte) : State :=
  { s with mem := Tab.set (memDefault a) s.mem a b, fab := s.fab.mend a }

/-- `n` bytes from `a`, little-endian. -/
def State.loadLE (s : State) (a : Nat) : Nat → Nat
  | 0 => 0
  | n + 1 => s.loadLE a n + 2 ^ (8 * n) * (s.byte (a + n)).toNat

/-- The low `n` bytes of `v` stored from `a`, little-endian. -/
def State.storeLE (s : State) (a : Nat) : Nat → Nat → State
  | 0, _ => s
  | n + 1, v => (s.setByte a (BitVec.ofNat 8 v)).storeLE (a + 1) n (v / 256)

/-- A list of bytes stored from `a`. -/
def State.storeBytes (s : State) (a : Nat) : List Nat → State
  | [] => s
  | b :: bs => (s.setByte a (BitVec.ofNat 8 b)).storeBytes (a + 1) bs

/-- `n` bytes read from `a`. -/
def State.loadBytes (s : State) (a : Nat) : Nat → List Nat
  | 0 => []
  | n + 1 => (s.byte a).toNat :: s.loadBytes (a + 1) n

/-- The bytes of a number, little-endian. -/
def bytesLE (v : Nat) : Nat → List Nat
  | 0 => []
  | n + 1 => v % 256 :: bytesLE (v / 256) n

/-- The number that bytes spell, little-endian. -/
def ofBytesLE : List Nat → Nat
  | [] => 0
  | b :: bs => b % 256 + 256 * ofBytesLE bs

/-- The 64-bit words that an access of `n` bytes at `a` touches are free of poison (R158). -/
def State.sound (s : State) (a n : Nat) : Bool :=
  !(s.fab.poison.any (fun p => p.2 && decide (a / 8 ≤ p.1 ∧ p.1 ≤ (a + n - 1) / 8)))

/-! ## Sources (R167) -/

end Sys2Proof.Machine

namespace Sys2Proof

/-- The source identifier of a programmable grain. -/
def GrainId.src : GrainId → Nat
  | .ctl g => 0x300 + g.val / 4 * 16 + g.val % 4
  | .vec v => 0x200 + v.val / 4 * 16 + v.val % 4
  | .link e => 0x100 + e.val / 4 * 16 + e.val % 4

/-- The kind of a grain. -/
def GrainId.kind : GrainId → GKind
  | .ctl _ => .ctl
  | .vec _ => .vec
  | .link _ => .link

end Sys2Proof

namespace Sys2Proof.Machine

/-- The source of link engine k. -/
def engSrc (k : Nat) : Nat := 0x100 + k / 4 * 16 + k % 4
/-- The source of control grain g. -/
def ctlSrc (g : Nat) : Nat := 0x300 + g / 4 * 16 + g % 4
/-- The source of vector grain v. -/
def vecSrc (v : Nat) : Nat := 0x200 + v / 4 * 16 + v % 4

/-- The programmable grain that a source names (R167, R178). -/
def grainOfSrc (src : Nat) : Option GrainId :=
  let blk := src / 16 % 16
  let g := src % 16
  if 4 ≤ g then none
  else
    let i := blk * 4 + g
    match src / 256 with
    | 1 => if h : i < 20 then some (.link ⟨i, h⟩) else none
    | 2 => if h : i < 16 then some (.vec ⟨i, h⟩) else none
    | 3 => if h : i < 8 then some (.ctl ⟨i, h⟩) else none
    | _ => none

/-- The block that a source belongs to, as a source. -/
def blockOf (src : Nat) : Nat := src / 16 * 16 + 15
/-- The region that a source belongs to, as a source. -/
def regionOf (src : Nat) : Nat := src / 256 * 256 + 255

/-- The sources of the fabric's blocks, the supervisor, and the single blocks that raise events of their own. -/
def srcFault : Nat := 0x80F
def srcQueue : Nat := 0x81F
def srcPmon : Nat := 0x82F
def srcDl : Nat := 0x83F
def srcSV : Nat := 0x7FF
def srcAnalog : Nat := 0x15F
def srcWindow : Nat := 0x16F
def srcComms : Nat := 0x32F
def srcReg : Nat := 0x40F
def srcGate : Nat := 0x41F
def srcOut : Nat := 0x42F
def srcTrip : Nat := 0x43F
def srcMram : Nat := 0x50F
def srcLedger : Nat := 0x51F
def srcCG : Nat := 0x52F
def srcKey : Nat := 0x53F
def srcBoot : Nat := 0x54F
def srcSF : Nat := 0x60F
def srcSFIO : Nat := 0x61F
def srcSFL : Nat := 0x62F

/-- The register window of the block a source belongs to (R7). -/
def windowOf (src : Nat) : Nat :=
  let blk := src / 16 % 16
  match src / 256 with
  | 1 => 0x42000000 + blk * 0x100000
  | 2 => 0x43000000 + blk * 0x100000
  | 3 => 0x44000000 + blk * 0x100000
  | 4 => 0x45000000 + blk * 0x100000
  | 5 => 0x46000000 + blk * 0x100000
  | 6 => 0x47000000 + blk * 0x100000
  | 7 => 0x41000000
  | _ => 0x40000000 + blk * 0x100000

/-- Where the local memory of a grain lies for every other grain (R157). -/
def aliasBase (src : Nat) : Nat := windowOf src + 0x80000 + src % 16 * 0x20000

/-! ## Grains -/

/-- The state of the grain with a source. -/
def State.grain (s : State) (src : Nat) : Grain := Tab.get {} s.grains src
/-- That grain changed. -/
def State.setGrain (s : State) (src : Nat) (g : Grain) : State := { s with grains := Tab.set {} s.grains src g }
/-- That grain changed by a function. -/
def State.updGrain (s : State) (src : Nat) (f : Grain → Grain) : State := s.setGrain src (f (s.grain src))

/-! ## Events (R420) -/

/-- The oldest entry of equal or lower severity taken out of a full stack; none where no entry qualifies. -/
def evictOldest (sev : Nat) : List EvRec → Option (List EvRec)
  | [] => none
  | e :: es =>
    if e.sev ≤ sev then some es
    else match evictOldest sev es with
      | none => none
      | some es' => some (e :: es')

/-- The stack that an event is raised into, with the event or without it when it is dropped (R420). -/
def pushEvent (e : EvRec) (st : List EvRec) : Option (List EvRec) :=
  if st.length < 8 then some (st ++ [e])
  else match evictOldest e.sev st with
    | none => none
    | some st' => some (st' ++ [e])

/-- An event of a code raised by a source, with its snapshot words (R418 to R420). -/
def State.raise (s : State) (src code : Nat) (words : List Nat) : State :=
  let e : EvRec := { code := code, sev := eventSeverity code, src := src, time := s.ns, words := words, ord := s.led.ord }
  match pushEvent e (Tab.get [] s.led.pile src) with
  | some st => { s with led := { s.led with pile := Tab.set [] s.led.pile src st, ord := s.led.ord + 1 } }
  | none =>
    let s1 := { s with led := { s.led with
      drops := Tab.set 0 s.led.drops src (satAdd (Tab.get 0 s.led.drops src) 1 1023), ord := s.led.ord + 1 } }
    s1.hit LEDGER_EVT LEDGER_EVT_LOST LEDGER_CNT LEDGER_CNT_LOSTN

/-! ## Performance monitors (R174) -/

/-- Counter n counts `k` occurrences of monitor source `src` when it selects it. -/
def State.countOne (s : State) (src k n : Nat) : State :=
  if s.rd (FB_PMON_SEL n) FB_PMON_SEL_SRC = src then
    { s with fab := { s.fab with pmon := Tab.set 0 s.fab.pmon n (Tab.get 0 s.fab.pmon n + k) } }
  else s

/-- Every counter that selects monitor source `src` counts `k` occurrences of it while counting is on (R174). -/
def State.count (s : State) (src k : Nat) : State :=
  if s.rdB FB_PMON_CTL FB_PMON_CTL_EN && !s.rdB FB_PMON_CTL FB_PMON_CTL_FREEZE then
    (List.range 64).foldl (fun s n => s.countOne src k n) s
  else s

/-- The monitor source of kind k of a grain (R174). -/
def monSrc (src k : Nat) : Nat :=
  match grainOfSrc src with
  | some (.ctl g) => 0x200 + g.val * 16 + k
  | some (.vec v) => 0x280 + v.val * 16 + k
  | some (.link e) => 0x380 + e.val * 4 + k
  | none => 0x3FF

/-! ## Inboxes (R166, R211) -/

/-- Word 0 of an inbox descriptor. -/
def descW0 (cls src code info : Nat) : Word :=
  BitVec.ofNat 32 (cls % 16 * 2 ^ 28 + src % 4096 * 2 ^ 16 + code % 256 * 2 ^ 8 + info % 256)

/-- A descriptor of a class, source and code with its words A and B, raised now. -/
def State.mkDesc (s : State) (cls src code info a b : Nat) : Desc :=
  ⟨descW0 cls src code info, BitVec.ofNat 32 a, BitVec.ofNat 32 b, BitVec.ofNat 32 s.ns⟩

/-- A descriptor appended to a grain's inbox. -/
def State.inboxPush (s : State) (dest : Nat) (d : Desc) : State :=
  s.updGrain dest (fun g => { g with inbox := g.inbox ++ [d] })

/-- An asynchronous descriptor delivered, held by its source when fewer than 3 entries are free, or merged into the
one the source holds (R166). A destination that is no grain, or a quarantined grain, receives nothing (R14). -/
def State.post (s : State) (cls src code dest a b : Nat) : State :=
  match grainOfSrc dest with
  | none => s
  | some _ =>
    let g := s.grain dest
    let key := src * 4096 + dest
    if g.run = .quarantined then s
    else
      match Tab.get none s.fab.held key with
      | some h =>
        let d := s.mkDesc cls src code 0 a b
        { s with fab := { s.fab with held := Tab.set none s.fab.held key (some ⟨d, h.merges + 1⟩) } }
      | none =>
        if g.inbox.length < 14 then
          let s1 := s.inboxPush dest (s.mkDesc cls src code 0 a b)
          s1.count (monSrc dest 4) (if g.run = .running then 1 else 0)
        else
          { s with fab := { s.fab with held := Tab.set none s.fab.held key (some ⟨s.mkDesc cls src code 0 a b, 0⟩) } }

/-- A deadline miss uses the reserved entries too, and is held only when all 16 are taken (R166, R175). -/
def State.postReserved (s : State) (cls src code dest a b : Nat) : State :=
  let g := s.grain dest
  if g.run = .quarantined then s
  else if g.inbox.length < 16 then s.inboxPush dest (s.mkDesc cls src code 0 a b)
  else { s with fab := { s.fab with
    held := Tab.set none s.fab.held (src * 4096 + dest) (some ⟨s.mkDesc cls src code 0 a b, 0⟩) } }

/-! ## Queues (R163 to R165) -/

/-- The descriptors queue n holds, oldest first. -/
def State.queue (s : State) (n : Nat) : List Dword := Tab.get [] s.fab.queues n

/-- The depth of queue n. -/
def State.depth (s : State) (n : Nat) : Nat := 16 * 2 ^ s.rd (FB_Q_CFG n) FB_Q_CFG_SIZE

/-- Whether a descriptor's `KIND` may be stored: 1, 2, or 8 to 15 (R163). -/
def kindOk (d : Dword) : Bool :=
  let k := d.toNat / 2 ^ 60
  k == 1 || k == 2 || decide (8 ≤ k)

/-- A refused or dropped put: OVF and its event (R164). -/
def State.qOverflow (s : State) (n putter : Nat) : State :=
  (s.hit (FB_Q_STAT n) FB_Q_STAT_OVF (FB_Q_STAT n) FB_Q_STAT_OVFN).raise srcQueue EV_FB_Q_OVF [putter, n]

/-- The watermark descriptor, posted once per rise to WMARK (R165). -/
def State.qWatermark (s : State) (n : Nat) : State :=
  let wm := s.rd (FB_Q_CFG n) FB_Q_CFG_WMARK
  let cnt := (s.queue n).length
  if wm ≠ 0 ∧ wm ≤ cnt ∧ Tab.get false s.fab.wmPosted n = false then
    let s1 := { s with fab := { s.fab with wmPosted := Tab.set false s.fab.wmPosted n true } }
    s1.post 3 srcQueue n (s.rd (FB_Q_CFG n) FB_Q_CFG_CONS) cnt 0
  else s

/-- A descriptor appended to queue n, which has room (R163, R165). -/
def State.qAppend (s : State) (n : Nat) (d : Dword) : State :=
  let s1 := { s with fab := { s.fab with queues := Tab.set [] s.fab.queues n (s.queue n ++ [d]) } }
  (s1.count (0x1C0 + n) 1).qWatermark n

/-- A put by a hardware producer: dropped when the queue is full (R164), or is not enabled. -/
def State.qPutHw (s : State) (n putter : Nat) (d : Dword) : State :=
  if s.rdB (FB_Q_CFG n) FB_Q_CFG_EN && decide ((s.queue n).length < s.depth n) then s.qAppend n d
  else s.qOverflow n putter

/-- A get from queue n: the oldest descriptor and the machine without it. -/
def State.qTake (s : State) (n : Nat) : Option (Dword × State) :=
  match s.queue n with
  | [] => none
  | d :: ds =>
    let wm := s.rd (FB_Q_CFG n) FB_Q_CFG_WMARK
    let posted := if ds.length < wm then Tab.set false s.fab.wmPosted n false else s.fab.wmPosted
    some (d, { s with fab := { s.fab with queues := Tab.set [] s.fab.queues n ds, wmPosted := posted } })

/-! ## Poison -/

/-- The 64-bit word at `a` poisoned or made sound again (R158). -/
def State.setPoison (s : State) (a : Nat) (b : Bool) : State :=
  { s with fab := { s.fab with poison := Tab.set false s.fab.poison (a / 8) b, mended := Tab.set 0 s.fab.mended (a / 8) 0 } }

/-! ## Refusals -/

/-- The flag and count that record a refused write beside its event, by refusal event and address. -/
def State.refusalFlag (s : State) (ev a : Nat) : State :=
  if ev = EV_SWP_REFUSED then s.hit AQ_SWP_EVT AQ_SWP_EVT_REFUSED AQ_SWP_CNT AQ_SWP_CNT_REFUSEDN
  else if ev = EV_CUR_REFUSED then s.hit AQ_CUR_EVT AQ_CUR_EVT_REFUSED AQ_CUR_CNT1 AQ_CUR_CNT1_REFUSEDN
  else if ev = EV_TRIP_REFUSED then s.hit PW_TRIP_EVT PW_TRIP_EVT_REFUSED PW_TRIP_CNT PW_TRIP_CNT_REFUSEDN
  else if ev = EV_REG_REFUSED then s.hit PW_REG_EVT PW_REG_EVT_REFUSED PW_REG_CNT1 PW_REG_CNT1_REFUSEDN
  else if ev = EV_GD_REFUSED then s.hit PW_GD_EVT PW_GD_EVT_REFUSED PW_GD_CNT1 PW_GD_CNT1_REFUSEDN
  else if ev = EV_LS_REFUSED then s.hit PW_LS_EVT PW_LS_EVT_REFUSED PW_LS_CNT1 PW_LS_CNT1_REFUSEDN
  else if ev = EV_CAN_REFUSED then
    let n := (a - 0x44208000) / 0x4000
    s.hit (CAN_EVT n) CAN_EVT_REFUSED (CAN_CNT1 n) CAN_CNT1_REFUSEDN
  else if ev = EV_ETH_REFUSED then
    let m := (a - 0x44202000) / 0x1000
    s.hit (ETH_EVT m) ETH_EVT_REFUSED (ETH_CNT1 m) ETH_CNT1_REFUSEDN
  else if ev = EV_LED_REFUSED then s.hit LEDGER_EVT LEDGER_EVT_REFUSED LEDGER_CNT LEDGER_CNT_REFUSEDN
  else if ev = EV_SV_REFUSED then s.hit SV_EVT SV_EVT_REFUSED SV_CNT SV_CNT_REFUSEDN
  else if ev = EV_SF_MBX_REFUSED then s.bump SF_CNT SF_CNT_MBXREFN
  else s

/-- The source that raises the events of the register at an address: its engine, CAN controller or Ethernet MAC where
it belongs to one, else its block (R167). -/
def srcOfReg (a : Nat) : Nat :=
  let blk := a / 0x100000 % 16
  match a / 0x1000000 with
  | 0x40 => 0x800 + blk * 16 + 15
  | 0x41 => srcSV
  | 0x42 =>
    if blk < 5 ∧ a % 0x100000 < 0x4000 then engSrc (blk * 4 + a % 0x100000 / 0x1000)
    else 0x100 + blk * 16 + 15
  | 0x43 => 0x200 + blk * 16 + 15
  | 0x44 =>
    if 0x44208000 ≤ a ∧ a < 0x44220000 then 0x320 + (a - 0x44208000) / 0x4000
    else 0x300 + blk * 16 + 15
  | 0x45 => 0x400 + blk * 16 + 15
  | 0x46 => 0x500 + blk * 16 + 15
  | 0x47 => 0x600 + blk * 16 + 15
  | _ => srcFault

/-- A refused write recorded once (R513, R177): the writer's source, the address and the value. -/
def State.refuse (s : State) (ev src a v : Nat) : State :=
  (s.refusalFlag ev a).raise (srcOfReg a) ev [src, a, v]

/-- A write refused with an error response recorded (R153, R515). -/
def State.refuseFb (s : State) (src a v : Nat) : State := s.raise srcFault EV_FB_REFUSED [src, a, v]

end Sys2Proof.Machine
end

