-- ==== Sys2Proof/Machine/Nodes.lean ====
section
/-!
DEFINITION. The nodes on the cell links: what a node does with each command frame and at each of its own instants
(chapter 2: R29 to R31, R39 to R45, R50 to R68).
-/

namespace Sys2Proof.Machine

/-! ## Frames -/

/-- The big-endian field of `n` bytes at an offset of a frame body (R36). -/
def beField (body : List Nat) (off n : Nat) : Nat :=
  ((body.drop off).take n).foldl (fun a b => a * 256 + b % 256) 0

/-- `n` bytes of a number, big-endian. -/
def beBytes (v : Nat) : Nat → List Nat
  | 0 => []
  | n + 1 => v / 256 ^ n % 256 :: beBytes v n

/-- The type byte of a body. -/
def frameType (body : List Nat) : Nat := beField body 0 1
/-- The address of a body. -/
def frameAddr (body : List Nat) : Nat := beField body 1 2

/-- From a frame's instant to its end, ps: the body, the CRC and the end delimiter, 20 ns a bit (R33 to R35). -/
def frameTail (len : Nat) : Nat := (8 * (len + 2) + 2) * 20000

/-- A NAK body: refused type and reason (R40). -/
def nakBody (addr ty reason : Nat) : List Nat := [0x87] ++ beBytes addr 2 ++ [ty % 256, reason]

/-! ## Access -/

/-- The place of a node: logical port and place on the cable. -/
def nodeKey (p : Fin 18) (i : Fin 64) : Nat := p.val * 64 + i.val
/-- A node on its cable. -/
def State.node (s : State) (n : Nat) : Node := Tab.get {} s.lnk.nodes n
/-- That node changed. -/
def State.setNode (s : State) (n : Nat) (x : Node) : State :=
  { s with lnk := { s.lnk with nodes := Tab.set {} s.lnk.nodes n x } }

/-- A node in ASSIGNED or RUN. -/
def Node.enumerated (n : Node) : Bool := n.st == .assigned || n.st == .run

/-- Local time at an instant, ps (R50). -/
def Node.localAtPs (n : Node) (t : Nat) : Nat := n.localT + (t - n.localAt)

/-- A node register: the value written, or its reset value (R44). -/
def Node.register (n : Node) (r : Nat) : Nat :=
  Tab.get (if r = 2 then 250 else if r = 3 then 0x0A01 else if r = 4 then 18 else 0) n.regs r

/-! ## Receiving a frame (R29 to R31, R39) -/

/-- A frame reaches a node that is awake and not sending: it is repeated by a node in ASSIGNED or RUN, and a good CRC
restarts the sleep time (R29, R31, R66). -/
def Node.hear (n : Node) (body : List Nat) (good : Bool) (t : Nat) : Node :=
  { n with
    repeated := if n.enumerated then some body else n.repeated
    lastGood := if good then t else n.lastGood }

/-- Whether a body names the node: its own address (`some true`), every node (`some false`), or another. -/
def Node.addressed (n : Node) (body : List Nat) : Option Bool :=
  if frameAddr body = 0xFFFF then some false
  else if n.enumerated && frameAddr body == n.addr then some true
  else none

/-- A command frame with a good CRC at a node: `act own` is what a node does that may act on it, `own` telling its own
address from 0xFFFF; the length test and the address forms are R39's. A sleeping node, and a node that is sending, take
no notice (R31, R45). -/
def nodeFrame (s : State) (k : Nat) (body : List Nat) (t : Nat) (len : Nat) (node bcast : Bool)
    (act : Node → Bool → Node) : State :=
  let s := s.at t
  let n := s.node k
  if n.st == .sleep || decide (t < n.sendEnd) then s
  else
    let h := n.hear body true t
    if len ≠ 0 ∧ body.length ≠ len then s.setNode k h
    else match n.addressed body with
      | some true => if node then s.setNode k (act h true) else s.setNode k h
      | some false => if bcast then s.setNode k (act h false) else s.setNode k h
      | none => s.setNode k h

/-- An answer scheduled 2,000 ns after the command's instant (R41). -/
def Node.answering (n : Node) (body : List Nat) (t arr : Nat) : Node :=
  { n with answer := some (body, t + 2000000, arr) }

/-- A NAK scheduled for a command addressed to the node; a broadcast is never answered (R40). -/
def Node.nak (n : Node) (own : Bool) (ty reason t arr : Nat) : Node :=
  if own then n.answering (nakBody n.addr ty reason) t arr else n

/-! ## Sampling -/

/-- The conversions of a sweep: populated cells or voltage channels, then aux (R54, R61). -/
def Node.channels (n : Node) : Nat := if n.type = 2 then 3 else if n.type = 3 then 1 else n.cells

/-- How many conversions a sweep makes. -/
def Node.conversions (n : Node) (auxEn : Bool) : Nat :=
  n.channels + (if auxEn then (if n.type = 1 then n.auxN else 0) else 0)

/-- The first step from `i` that the mask leaves clear; steps from 64 are clear (R54). -/
def clearStep (mask : Nat) (i : Nat) : Nat → Nat
  | 0 => i
  | fuel + 1 => if i < 64 ∧ bit mask i then clearStep mask (i + 1) fuel else i

/-- The step of conversion `j` (R85): the j-th clear step. -/
def stepOf (mask : Nat) : Nat → Nat
  | 0 => clearStep mask 0 64
  | j + 1 => clearStep mask (stepOf mask j + 1) 64

/-- The end of a sweep's last conversion, local time in ns. -/
def NodeSweep.endNs (w : NodeSweep) (n : Node) : Nat :=
  w.target + 4000 * (stepOf w.mask (n.conversions w.auxEn - 1) + 1)

/-- SAMPLE at a node in RUN (R52, R54, R56, R64). -/
def Node.sample (n : Node) (body : List Nat) (t : Nat) : Node :=
  if n.st ≠ .run then n
  else
    let now := n.localAtPs t / 1000
    let delta := (beField body 5 6 + 2 ^ 48 - now % 2 ^ 48) % 2 ^ 48
    let target := now + delta
    let overlaps := match n.sweep with
      | some w => decide (target < w.endNs n)
      | none => false
    if delta < 10000 || decide (100000000 < delta) || overlaps then { n with late := true }
    else
      let ctl := beField body 19 1
      { n with
        balOff := true
        sweep := some { tag := beField body 3 2, target := target, mask := beField body 11 8, auxEn := bit ctl 0,
                        owt := bit ctl 1 && decide (n.owtArm ≠ 0),
                        res := { tag := beField body 3 2, owtAct := bit ctl 1 && decide (n.owtArm ≠ 0) } } }

/-- A SAMPLE (R52). -/
def execSample (s : State) (p : Fin 18) (i : Fin 64) (body : List Nat) (_arr : Fin 2) (t : Nat) :
    Host.Outcome State Fault Refusal :=
  .next (nodeFrame s (nodeKey p i) body t 20 false true (fun n _ => n.sample body t))

/-- READ at a node: a node in RUN within first to last schedules its slot response (R57); a cell node stays silent for
the stream-only tag (R59). -/
def Node.read (n : Node) (body : List Nat) (arr t : Nat) : Node :=
  let tag := beField body 3 2
  let first := beField body 7 1
  if n.st = .run ∧ first ≤ n.pos ∧ n.pos ≤ beField body 8 1 ∧ ¬ (tag = 0xFFFF ∧ n.type = 1) then
    let heldTag := tag == 0xFFFF || n.held.any (fun h => h.tag == tag)
    { n with slot := some (tag, heldTag, t + 2000000 + (n.pos - first) * beField body 5 2 * 10000, arr) }
  else n

/-- A READ (R57). -/
def execRead (s : State) (p : Fin 18) (i : Fin 64) (body : List Nat) (arr : Fin 2) (t : Nat) :
    Host.Outcome State Fault Refusal :=
  .next (nodeFrame s (nodeKey p i) body t 9 false true (fun n _ => n.read body arr.val t))

/-- TIME at a node: local time is the carried value plus the delay of the port it arrived on (R50). -/
def Node.time (n : Node) (body : List Nat) (arr t : Nat) : Node :=
  if n.enumerated then
    { n with localT := beField body 3 6 * 1000 + (if arr = n.upPort then n.d0 else n.d1) * 1250, localAt := t }
  else n

/-- A TIME (R50). -/
def execTime (s : State) (p : Fin 18) (i : Fin 64) (body : List Nat) (arr : Fin 2) (t : Nat) :
    Host.Outcome State Fault Refusal :=
  .next (nodeFrame s (nodeKey p i) body t 9 false true (fun n _ => n.time body arr.val t))

/-- A PING is answered with PONG (R41). -/
def execPing (s : State) (p : Fin 18) (i : Fin 64) (body : List Nat) (arr : Fin 2) (t : Nat) :
    Host.Outcome State Fault Refusal :=
  .next (nodeFrame s (nodeKey p i) body t 3 true false
    (fun n _ => n.answering ([0x83] ++ beBytes n.addr 2) t arr.val))

/-- ENUM at an UNASSIGNED node: it takes position and address, marks its up port, answers EACK and opens its repeater;
a node that holds a position only repeats it (R45). -/
def Node.enum (n : Node) (body : List Nat) (arr t : Nat) : Node :=
  if n.st = .unassigned then
    let a := beField body 5 2
    let m := { n with st := .assigned, rep := true, pos := beField body 3 1, port := beField body 4 1, addr := a,
                      upPort := arr }
    m.answering ([0x84] ++ beBytes a 2 ++ beBytes n.serial 8 ++ [n.type, n.cells, n.auxN, n.hw] ++ beBytes n.fw 2) t arr
  else n

/-- An ENUM (R45). -/
def execEnum (s : State) (p : Fin 18) (i : Fin 64) (body : List Nat) (arr : Fin 2) (t : Nat) :
    Host.Outcome State Fault Refusal :=
  .next (nodeFrame s (nodeKey p i) body t 7 false true (fun n _ => n.enum body arr.val t))

/-- A SETDLY: the node stores d0 and d1 (R50). -/
def execSetdly (s : State) (p : Fin 18) (i : Fin 64) (body : List Nat) (_arr : Fin 2) (t : Nat) :
    Host.Outcome State Fault Refusal :=
  .next (nodeFrame s (nodeKey p i) body t 7 true false
    (fun n _ => { n with d0 := beField body 3 2, d1 := beField body 5 2, dlySet := true }))

/-- Balancing and sinks off. -/
def Node.balStop (n : Node) : Node := { n with balMask := 0, balDue := 0 }

/-- RUN at a node (R45): mode 1 after a SETDLY enters RUN, without one answers NAK 0x03; mode 0 returns to ASSIGNED with
balancing off and the held results discarded. -/
def Node.runCmd (n : Node) (body : List Nat) (own : Bool) (arr t : Nat) : Node :=
  let mode := beField body 3 1
  if ¬ n.enumerated then n
  else if mode = 1 then
    if n.dlySet then { n with st := .run } else n.nak own 0x16 0x03 t arr
  else if mode = 0 then
    if n.st = .run then { n.balStop with st := .assigned, held := [], sweep := none, balOff := false } else n
  else n.nak own 0x16 0x03 t arr

/-- A RUN (R45). -/
def execRun (s : State) (p : Fin 18) (i : Fin 64) (body : List Nat) (arr : Fin 2) (t : Nat) :
    Host.Outcome State Fault Refusal :=
  .next (nodeFrame s (nodeKey p i) body t 4 true true (fun n own => n.runCmd body own arr.val t))

/-- Ones in the low 18 bits of a mask. -/
def popc18 (m : Nat) : Nat := ((List.range 18).filter (fun i => bit m i)).length

/-- BAL at a node (R45, R63). `carries` says whether the node's circuit can carry the pattern. -/
def Node.bal (n : Node) (body : List Nat) (carries : Bool) (arr t : Nat) : Node :=
  let mask := beField body 3 3
  let tmo := beField body 6 1
  if n.st ≠ .run then n.nak true 0x17 0x01 t arr
  else if 2 ^ (if n.type = 1 then n.cells else 0) ≤ mask ∨ n.register 4 < popc18 mask then n.nak true 0x17 0x03 t arr
  else if ¬ carries then n.nak true 0x17 0x04 t arr
  else if tmo = 0 then n.balStop
  else { n with balMask := mask, balDue := t + tmo * sec }

/-- A BAL (R63). -/
def execBal (s : State) (p : Fin 18) (i : Fin 64) (body : List Nat) (carries : Bool) (arr : Fin 2) (t : Nat) :
    Host.Outcome State Fault Refusal :=
  .next (nodeFrame s (nodeKey p i) body t 7 true false (fun n _ => n.bal body carries arr.val t))

/-- OWT at a node: it arms the selected sinks (R62); a line that is not populated is NAK 0x03 (R40). -/
def Node.owt (n : Node) (body : List Nat) (own : Bool) (arr t : Nat) : Node :=
  let mask := beField body 3 3
  if ¬ n.enumerated then n
  else if 2 ^ (n.cells + 1) ≤ mask ∧ own then n.nak own 0x18 0x03 t arr
  else { n with owtArm := mask % 2 ^ (n.cells + 1) }

/-- An OWT (R62). -/
def execOwt (s : State) (p : Fin 18) (i : Fin 64) (body : List Nat) (arr : Fin 2) (t : Nat) :
    Host.Outcome State Fault Refusal :=
  .next (nodeFrame s (nodeKey p i) body t 6 true true (fun n own => n.owt body own arr.val t))

/-- The response of R68: the first 8 bytes of the CMAC of nonce, serial and chain position under the node key (log 5). -/
def authResponse (key nonce : List Nat) (serial port pos : Nat) : Nat :=
  Config.aesCmac key (nonce ++ beBytes serial 8 ++ [port % 256, pos % 256]) / 2 ^ 64 % 2 ^ 64

/-- The node key derived from the section key and a serial (R68). -/
def deriveNodeKey (section_ : List Nat) (serial : Nat) : List Nat :=
  beBytes (Config.aesCmac section_ (beBytes serial 8)) 16

/-- AUTH at a node (R41): a new nonce starts the computation; the last nonce again is answered. -/
def Node.auth (n : Node) (body : List Nat) (arr t : Nat) : Node :=
  let nonce := (body.drop 3).take 12
  if n.nonce = some nonce then
    match n.key with
    | none => n.nak true 0x19 0x05 t arr
    | some key =>
      if n.authDone then
        n.answering ([0x85] ++ beBytes n.addr 2 ++ beBytes (authResponse key nonce n.serial n.port n.pos) 8) t arr
      else n.nak true 0x19 0x07 t arr
  else { n with nonce := some nonce, authDue := t + ms, authDone := false }

/-- An AUTH (R41). -/
def execAuth (s : State) (p : Fin 18) (i : Fin 64) (body : List Nat) (arr : Fin 2) (t : Nat) :
    Host.Outcome State Fault Refusal :=
  .next (nodeFrame s (nodeKey p i) body t 15 true false (fun n _ => n.auth body arr.val t))

/-- Whether a node takes a value into a register (R44). -/
def Node.wregOk (n : Node) (r v : Nat) : Bool :=
  if r = 1 then decide (v < 256)
  else if r = 2 then n.type != 1 && decide (250 ≤ v ∧ v ≤ 4000)
  else if r = 3 then n.type == 3 && decide (v < 2 ^ 16 ∧ 1 ≤ v / 256 ∧ v % 256 ≤ 1)
  else if r = 4 then decide (1 ≤ v ∧ v ≤ 18)
  else decide (0x10 ≤ r ∧ r < 0x20)

/-- WREG at a node (R44). -/
def Node.wreg (n : Node) (body : List Nat) (arr t : Nat) : Node :=
  let r := beField body 3 1
  let v := beField body 4 4
  if n.wregOk r v then { n with regs := Tab.put n.regs r v } else n.nak true 0x1A 0x03 t arr

/-- A WREG (R44). -/
def execWreg (s : State) (p : Fin 18) (i : Fin 64) (body : List Nat) (arr : Fin 2) (t : Nat) :
    Host.Outcome State Fault Refusal :=
  .next (nodeFrame s (nodeKey p i) body t 8 true false (fun n _ => n.wreg body arr.val t))

/-- Whether a node holds a register: listed for its type, or its maker's own (R44). -/
def Node.hasReg (n : Node) (r : Nat) : Bool :=
  r == 0 || r == 1 || r == 4 || (r == 2 && n.type != 1) || (r == 3 && n.type == 3) || decide (0x10 ≤ r ∧ r < 0x20)

/-- The value of a node register as RREG answers it (R44). -/
def Node.regValue (n : Node) (r : Nat) : Nat :=
  if r = 0 then n.type + n.cells * 2 ^ 8 + n.auxN * 2 ^ 16 else n.register r

/-- RREG at a node (R44). -/
def Node.rreg (n : Node) (body : List Nat) (arr t : Nat) : Node :=
  let r := beField body 3 1
  if n.hasReg r then n.answering ([0x86] ++ beBytes n.addr 2 ++ [r] ++ beBytes (n.regValue r) 4) t arr
  else n.nak true 0x1B 0x03 t arr

/-- An RREG (R44). -/
def execRreg (s : State) (p : Fin 18) (i : Fin 64) (body : List Nat) (arr : Fin 2) (t : Nat) :
    Host.Outcome State Fault Refusal :=
  .next (nodeFrame s (nodeKey p i) body t 4 true false (fun n _ => n.rreg body arr.val t))

/-- What a node forgets on RESET or SLEEP (R45). -/
def Node.forget (n : Node) (st : NState) : Node :=
  { n.balStop with st := st, rep := false, pos := 0, addr := 0, d0 := 0, d1 := 0, dlySet := false, owtArm := 0,
                   sweep := none, held := [], slot := none, answer := none, balOff := false }

/-- A RESET: balancing and sinks off, position and delays forgotten, UNASSIGNED; CMDCRC cleared (R43, R45). -/
def execReset (s : State) (p : Fin 18) (i : Fin 64) (body : List Nat) (_arr : Fin 2) (t : Nat) :
    Host.Outcome State Fault Refusal :=
  .next (nodeFrame s (nodeKey p i) body t 3 true true (fun n _ => { n.forget .unassigned with cmdCrc := 0 }))

/-- A command frame of an unlisted type: NAK 0x06 to the node's own address, whatever its length (R39). -/
def execNodeUnknownCommand (s : State) (p : Fin 18) (i : Fin 64) (body : List Nat) (arr : Fin 2) (t : Nat) :
    Host.Outcome State Fault Refusal :=
  .next (nodeFrame s (nodeKey p i) body t 0 true false (fun n _ => n.nak true (frameType body) 0x06 t arr.val))

/-- A command frame with a bad CRC: repeated, not acted on, counted (R29, R30, R43). -/
def execNodeBadCrcFrame (s : State) (p : Fin 18) (i : Fin 64) (body : List Nat) (_arr : Fin 2) (t : Nat) :
    Host.Outcome State Fault Refusal :=
  let s := s.at t
  let n := s.node (nodeKey p i)
  if n.st == .sleep || decide (t < n.sendEnd) then .next s
  else .next (s.setNode (nodeKey p i) { n.hear body false t with cmdCrc := satAdd n.cmdCrc 1 255 })

/-! ## A node's own instants -/

/-- A node's frame goes out on a physical port; until its end an arriving frame is discarded (R31). -/
def Node.send (n : Node) (body : List Nat) (t : Nat) : Node :=
  { n with sent := some (body, t), sendEnd := t + frameTail body.length }

/-- The scheduled answer is sent at its instant (R41). -/
def execNodeAnswerSend (s : State) (p : Fin 18) (i : Fin 64) (t : Nat) : Host.Outcome State Fault Refusal :=
  let s := s.at t
  let n := s.node (nodeKey p i)
  match n.answer with
  | some (body, due, _) =>
    if due ≤ t then .next (s.setNode (nodeKey p i) { n.send body t with answer := none }) else .next s
  | none => .next s

/-- Record flags (R43). -/
def Node.flags (n : Node) (h : Held2) : Nat :=
  b2n n.late + 2 * b2n h.owtAct + 4 * b2n h.auxFresh + 8 + 16 * b2n n.nodeFlt + 32 * b2n n.nodeHot + 256 * n.cmdCrc

/-- A cell record (R42). -/
def Node.crecBody (n : Node) (tag : Nat) (h : Held2) (t : Nat) : List Nat :=
  [0x80] ++ beBytes n.addr 2 ++ beBytes tag 2 ++ beBytes (n.flags h) 2 ++
    (List.range 18).flatMap (fun c => beBytes (if c < n.cells then Tab.get 0 h.vals c else 0) 2) ++
    (List.range 8).flatMap (fun a => beBytes (if a < n.auxN then Tab.get 0 h.aux a else 0) 2) ++
    beBytes h.stack 4 ++ beBytes (if n.balOff then 0 else n.balMask) 3 ++
    [if n.balMask = 0 then 0 else Nat.min 255 ((n.balDue - t + sec - 1) / sec)]

/-- A sense record (R43, R59, R61); the stream part starts at offset 22. -/
def Node.srecBody (n : Node) (tag : Nat) (h : Held2) : List Nat :=
  [0x7F + n.type] ++ beBytes n.addr 2 ++ beBytes tag 2 ++ beBytes (n.flags h) 2 ++
    (if n.type = 2 then
      beBytes (Tab.get 0 h.vals 0) 4 ++ beBytes (Tab.get 0 h.vals 1) 4 ++ beBytes (Tab.get 0 h.vals 2) 4 ++
        [b2n n.fuse]
     else beBytes (Tab.get 0 h.vals 0) 4 ++ beBytes n.isoP 4 ++ beBytes n.isoN 4 ++ [n.isoState]) ++
    beBytes (Tab.get 0 h.aux 8) 2 ++ beBytes n.streamAt 6 ++ beBytes (n.register 2) 2 ++
    [n.stream.length, Nat.min 255 n.discarded] ++
    (List.range 16).flatMap (fun j => beBytes (wrapInt (n.stream.getD j 0) 32) 4)

/-- The record or NAK of a READ is sent at the slot instant (R56, R57); a sent record clears LATE and the reported
stream samples (R43, R61). -/
def Node.slotSend (n : Node) (tag : Nat) (ok : Bool) (t : Nat) : Node :=
  if ¬ ok then { n.send (nakBody n.addr 0x11 0x02) t with slot := none }
  else
    let h := (n.held.find? (fun h => h.tag == tag || tag == 0xFFFF)).getD { tag := tag }
    let body := if n.type = 1 then n.crecBody tag h t else n.srecBody tag h
    { n.send body t with slot := none, late := false, stream := [], discarded := 0 }

/-- A slot response (R57). -/
def execNodeSlotResponse (s : State) (p : Fin 18) (i : Fin 64) (t : Nat) : Host.Outcome State Fault Refusal :=
  let s := s.at t
  let n := s.node (nodeKey p i)
  match n.slot with
  | some (tag, ok, due, _) =>
    if due ≤ t then .next (s.setNode (nodeKey p i) (n.slotSend tag ok t)) else .next s
  | none => .next s

/-- One conversion: the next channel in the order of R54, into the sweep's results. -/
def Node.convert (n : Node) (val t : Nat) : Node :=
  match n.sweep with
  | none => n
  | some w =>
    let st := clearStep w.mask w.step 64
    if w.done < n.conversions w.auxEn ∧ w.target + 4000 * st ≤ n.localAtPs t / 1000 then
      let res := if w.done < n.channels then { w.res with vals := Tab.set 0 w.res.vals w.done val }
        else { w.res with aux := Tab.set 0 w.res.aux (w.done - n.channels) val, auxFresh := true }
      { n with sweep := some { w with done := w.done + 1, step := st + 1, res := res } }
    else n

/-- A node converts its next channel at a clear step (R54). -/
def execNodeConversionStep (s : State) (p : Fin 18) (i : Fin 64) (val t : Nat) : Host.Outcome State Fault Refusal :=
  let s := s.at t
  .next (s.setNode (nodeKey p i) ((s.node (nodeKey p i)).convert val t))

/-- The last conversion of an executed SAMPLE ends (R55, R56, R62, R64): the tag is held, balancing resumes, sinks that
conducted disarm. -/
def Node.sweepEnd (n : Node) (stack temp : Nat) (fuse : Bool) : Node :=
  match n.sweep with
  | none => n
  | some w =>
    if w.done < n.conversions w.auxEn then n
    else
      let res := { w.res with stack := stack, aux := Tab.set 0 w.res.aux 8 temp }
      { n with sweep := none, balOff := false, fuse := fuse, held := res :: n.held.take 1,
               owtArm := if w.owt then 0 else n.owtArm }

/-- The end of a node's conversions (R56), and what the node finds of itself (R43). -/
def execNodeSweepConversionsEnd (s : State) (p : Fin 18) (i : Fin 64) (stack temp : Nat) (fuse : Bool) (t : Nat) :
    Host.Outcome State Fault Refusal :=
  let s := s.at t
  let h := Config.nodeHealth (nodeKey p i) t
  .next (s.setNode (nodeKey p i) { (s.node (nodeKey p i)).sweepEnd stack temp fuse with
    nodeFlt := bit h 0, nodeHot := bit h 1 })

/-- A stream sample of a sense node; the oldest of more than 16 unreported samples counts as discarded (R61). -/
def Node.streamPush (n : Node) (cur : Int) (t : Nat) : Node :=
  let per := n.register 2 * 250
  if n.type = 1 then n
  else if n.stream.length < 16 then
    { n with stream := n.stream ++ [cur],
             streamAt := if n.stream.isEmpty then n.localAtPs t / 1000 % 2 ^ 48 else n.streamAt }
  else { n with stream := n.stream.drop 1 ++ [cur], streamAt := (n.streamAt + per) % 2 ^ 48,
                discarded := satAdd n.discarded 1 255 }

/-- A sense node samples current (R61). -/
def execNodeStreamSample (s : State) (p : Fin 18) (i : Fin 64) (cur : Int) (t : Nat) :
    Host.Outcome State Fault Refusal :=
  let s := s.at t
  .next (s.setNode (nodeKey p i) ((s.node (nodeKey p i)).streamPush cur t))

/-- A node's authentication response is computed (R41, R68). -/
def execNodeAuthComputeDone (s : State) (p : Fin 18) (i : Fin 64) (t : Nat) : Host.Outcome State Fault Refusal :=
  let s := s.at t
  let n := s.node (nodeKey p i)
  .next (s.setNode (nodeKey p i) (if n.nonce.isSome then { n with authDone := true } else n))

/-- A node's balancing timeout runs out (R63). -/
def execNodeBalTimeout (s : State) (p : Fin 18) (i : Fin 64) (t : Nat) : Host.Outcome State Fault Refusal :=
  let s := s.at t
  let n := s.node (nodeKey p i)
  .next (if n.balMask ≠ 0 ∧ n.balDue ≤ t then s.setNode (nodeKey p i) n.balStop else s)

/-- 2.0 s without a good frame a node enters SLEEP (R66). -/
def execNodeSleepTimeout (s : State) (p : Fin 18) (i : Fin 64) (t : Nat) : Host.Outcome State Fault Refusal :=
  let s := s.at t
  let n := s.node (nodeKey p i)
  .next (if n.st ≠ .sleep ∧ n.lastGood + 2 * sec ≤ t then s.setNode (nodeKey p i) (n.forget .sleep) else s)

/-- A wake tone of 100 µs at a node: it relays it, and wakes from SLEEP to UNASSIGNED (R45, R67). -/
def execNodeWakeTone (s : State) (p : Fin 18) (i : Fin 64) (_arr : Fin 2) (t : Nat) :
    Host.Outcome State Fault Refusal :=
  let s := s.at t
  let n := s.node (nodeKey p i)
  let m := if n.st = .sleep then { n with st := .unassigned, rep := false, lastGood := t } else n
  .next (s.setNode (nodeKey p i) { m with relayAt := some t })

/-- A bus sense node measures insulation at its interval (R43, R44). -/
def execNodeInsulationMeasure (s : State) (p : Fin 18) (i : Fin 64) (rpos rneg : Nat) (ok : Bool) (t : Nat) :
    Host.Outcome State Fault Refusal :=
  let s := s.at t
  let n := s.node (nodeKey p i)
  if n.type = 3 ∧ n.register 3 % 2 = 1 ∧ n.isoAt + n.register 3 / 256 * sec ≤ t then
    .next (s.setNode (nodeKey p i)
      (if ok then { n with isoState := 2, isoP := rpos % 2 ^ 32, isoN := rneg % 2 ^ 32, isoAt := t }
       else { n with isoState := 3, isoAt := t }))
  else .next s

/-- A node powers up: UNASSIGNED with its repeater closed and its registers at their reset values (R44, R45). -/
def execNodePowerUp (s : State) (p : Fin 18) (i : Fin 64) (kind : Fin 4) (cells : Fin 19) (auxN : Fin 9)
    (serial : Nat) (key : Option (List Nat)) (t : Nat) : Host.Outcome State Fault Refusal :=
  let s := s.at t
  .next (s.setNode (nodeKey p i)
    { type := kind.val, cells := cells.val, auxN := auxN.val, serial := serial % 2 ^ 64, key := key, lastGood := t })

end Sys2Proof.Machine
end

