-- ==== Sys2Proof/Machine/Links.lean ====
section
/-!
DEFINITION. The link engines: addresses, frames sent and received, enumeration, calibration, authentication (chapter 2).
-/

namespace Sys2Proof.Machine

/-! ## Ports and engines (R6, R8, R28) -/

/-- The logical port of engine k: a chain's own number; 16 for A0 and A1, 17 for B0 and B1. -/
def portOf (k : Nat) : Nat := if k < 16 then k else 16 + (k - 16) / 2
/-- Which end of its port an engine is. -/
def endOf (k : Nat) : Nat := if k < 16 then 0 else (k - 16) % 2
/-- The engine that sends a port's commands in normal operation (R28). -/
def eng0 (p : Nat) : Nat := if p < 16 then p else 16 + (p - 16) * 2

/-- An engine's state. -/
def State.eng (s : State) (k : Nat) : Engine := Tab.get {} s.lnk.engines k
/-- That engine changed. -/
def State.updEng (s : State) (k : Nat) (f : Engine → Engine) : State :=
  { s with lnk := { s.lnk with engines := Tab.set {} s.lnk.engines k (f (s.eng k)) } }

/-- What the engines hold for a position of a port. -/
def State.pos (s : State) (p q : Nat) : Pos := Tab.get {} s.lnk.pos (p * 64 + (q - 1))
/-- That position changed. -/
def State.updPos (s : State) (p q : Nat) (f : Pos → Pos) : State :=
  { s with lnk := { s.lnk with pos := Tab.set {} s.lnk.pos (p * 64 + (q - 1)) (f (s.pos p q)) } }

/-- The first snapshot word of a link event: port and position (R75). -/
def portPos (p q : Nat) : Nat := p * 256 + q

/-- A node's address (R38). -/
def State.addrOf (s : State) (p q : Nat) : Nat := s.rd AQ_LINK_BASE AQ_LINK_BASE_BASE + p * 64 + q - 1

/-- Fields of a position as the end-0 engine's registers hold them. -/
def State.nodeType (s : State) (p q : Nat) : Nat := s.rd (AQ_NODE_STAT (eng0 p) q) AQ_NODE_STAT_TYPE
def State.nodeCells (s : State) (p q : Nat) : Nat := s.rd (AQ_NODE_STAT (eng0 p) q) AQ_NODE_STAT_CELLS
def State.nodeAuth (s : State) (p q : Nat) : Bool := s.rdB (AQ_NODE_STAT (eng0 p) q) AQ_NODE_STAT_AUTH
def State.nodeSerial (s : State) (p q : Nat) : Nat :=
  (s.reg (AQ_NODE_SERLO (eng0 p) q)).toNat + (s.reg (AQ_NODE_SERHI (eng0 p) q)).toNat * 2 ^ 32
/-- Nodes enumerated on a port. -/
def State.portNodes (s : State) (p : Nat) : Nat := s.rd (AQ_PORT_STAT (eng0 p)) AQ_PORT_STAT_NODES
/-- Whether a port is enabled: the `EN` of its end-0 engine (R28). -/
def State.portEn (s : State) (p : Nat) : Bool := s.rdB (AQ_PORT_CTL (eng0 p)) AQ_PORT_CTL_EN

/-! ## Flags and events of a port -/

/-- A flag of `AQ_PORT_EVT` with its count. -/
def State.hitPort (s : State) (k : Nat) (f : Fld) (c : Nat) : State :=
  if c < 4 then s.hit (AQ_PORT_EVT k) f (AQ_PORT_CNT0 k) ⟨8 * c + 7, 8 * c⟩
  else s.hit (AQ_PORT_EVT k) f (AQ_PORT_CNT1 k) ⟨8 * (c - 4) + 7, 8 * (c - 4)⟩

def State.hitCrc (s : State) (k : Nat) : State := s.hitPort k AQ_PORT_EVT_CRCERR 0
def State.hitMissing (s : State) (k : Nat) : State := s.hitPort k AQ_PORT_EVT_MISSING 1
def State.hitSlot (s : State) (k : Nat) : State := s.hitPort k AQ_PORT_EVT_SLOTERR 2
def State.hitAuthFail (s : State) (k : Nat) : State := s.hitPort k AQ_PORT_EVT_AUTHFAIL 3
def State.hitSwap (s : State) (k : Nat) : State := s.hitPort k AQ_PORT_EVT_SWAP 4
def State.hitNak (s : State) (k : Nat) : State := s.hitPort k AQ_PORT_EVT_NAK 5
def State.hitLate (s : State) (k : Nat) : State := s.hitPort k AQ_PORT_EVT_LATE 6
def State.hitDlyShift (s : State) (k : Nat) : State := s.hitPort k AQ_PORT_EVT_DLYSHIFT 7

/-- A position missing for a tag: MISSING and EV_LINK_MISSING (R60); a stream-only READ leaves the position's sweep
records as they are (R60). -/
def State.missing (s : State) (k q tag : Nat) : State :=
  let p := portOf k
  let s1 := (if tag = 0xFFFF then s else s.updPos p q (fun x => { x with missing := true })).hitMissing k
  (s1.raise (engSrc k) EV_LINK_MISSING [portPos p q]).count (0x380 + k * 4 + 2) 1

/-! ## Verdicts (R126 to R128, R519, R520) -/

/-- The position of string n's sense node, 1 to 64: six bits, 0 for 64 (log 17). -/
def State.curPos (s : State) (n : Nat) : Nat :=
  let v := s.rd (AQ_CUR_SRC n) AQ_CUR_SRC_POS
  if v = 0 then 64 else v

/-- The native string of a position: a chain's string, or the string whose current source names the ring position
(R520). The string of chain Cp is Sp (DEDUCED, log 7). -/
def State.nativeString (s : State) (p q : Nat) : Option Nat :=
  if p < 16 then (if p < 12 then some p else none)
  else if s.nodeType p q = 2 then
    (List.range 12).find? (fun n => s.rd (AQ_CUR_SRC n) AQ_CUR_SRC_PORT == p && s.curPos n == q)
  else none

/-- The holder of a source: a node's value. -/
def verdictKey (p q idx : Nat) : Nat := (p * 64 + (q - 1)) * 256 + idx

/-- A verdict on its way to the trip block, with a copy to SF for every trip source (R126). -/
def State.verdict (s : State) (v : Verdict) : State :=
  { s with trip := { s.trip with inbox := s.trip.inbox ++ [v],
                                 sfCopies := if v.src = 2 then s.trip.sfCopies else s.trip.sfCopies ++ [v] } }

/-- A source of a node raised or cleared with the action and scope of its row (R127). -/
def State.nodeSource (s : State) (src p q idx : Nat) (on : Bool) : State :=
  s.verdict { src := src, key := verdictKey p q idx, on := on, act := 7, scope := 3, native := s.nativeString p q,
              cause := portPos p q, value := 0 }

/-- A source of a string, raised or cleared by a block of PW, SF or the supervisor (R127). -/
def State.stringSource (s : State) (src key : Nat) (native : Option Nat) (on : Bool) : State :=
  { s with trip := { s.trip with inbox := s.trip.inbox ++
    [{ src := src, key := key, on := on, act := 7, scope := 3, native := native, cause := src, value := 0 }] } }

/-! ## Stale positions (R90) -/

/-- A position stops being stale: its source 11 becomes inactive. -/
def State.unstalePos (s : State) (p q : Nat) : State :=
  let was := (s.pos p q).staleActed
  let s := s.updPos p q (fun x => { x with missing := false, staleSince := none, staleActed := false })
  if was then s.nodeSource 11 p q 89 false else s

/-- Positions from `lo` to `hi` are no longer enumerated on an enabled port (R90). -/
def State.staleDrop (s : State) (p lo hi : Nat) : State :=
  ((List.range 64).filter (fun i => decide (lo ≤ i + 1 ∧ i + 1 ≤ hi))).foldl (fun s i => s.unstalePos p (i + 1)) s

/-! ## Sending -/

/-- An engine's frame goes out at an instant; with its monitor count. -/
def State.engSend (s : State) (k : Nat) (body : List Nat) : State :=
  (s.updEng k (fun e => { e with sent := some (body, s.now) })).count (0x380 + k * 4) 1

/-- A wake tone of `us_` microseconds on the port (R67). -/
def State.wakeTone (s : State) (k us_ : Nat) : State :=
  let s1 := s.updEng k (fun e => { e with wake := some (s.now, us_) })
  (s1.wr (AQ_PORT_STAT k) AQ_PORT_STAT_STATE 1).raise (engSrc k) EV_LINK_WAKE [portPos (portOf k) 0, us_]

/-- The field lengths of a body, by type (R39, R40, R42, R43). -/
def fieldLens (ty len : Nat) : List Nat :=
  match ty with
  | 0x10 => [1, 2, 2, 6, 8, 1]
  | 0x11 => [1, 2, 2, 2, 1, 1]
  | 0x12 => [1, 2, 6]
  | 0x14 => [1, 2, 1, 1, 2]
  | 0x15 => [1, 2, 2, 2]
  | 0x16 => [1, 2, 1]
  | 0x17 => [1, 2, 3, 1]
  | 0x18 => [1, 2, 3]
  | 0x19 => [1, 2, 12]
  | 0x1A => [1, 2, 1, 4]
  | 0x1B => [1, 2, 1]
  | 0x80 => [1, 2, 2, 2] ++ List.replicate 26 2 ++ [4, 3, 1]
  | 0x81 | 0x82 => [1, 2, 2, 2, 4, 4, 4, 1, 2, 6, 2, 1, 1] ++ List.replicate 16 4
  | 0x84 => [1, 2, 8, 1, 1, 1, 1, 2]
  | 0x85 => [1, 2, 8]
  | 0x86 => [1, 2, 1, 4]
  | 0x87 => [1, 2, 1, 1]
  | _ => [1, 2] ++ List.replicate (len - 3) 1

/-- Every field of a body reversed in place: wire order to program order and back (R36). -/
def reverseFields : List Nat → List Nat → List Nat
  | [], _ => []
  | n :: ns, bs => (bs.take n).reverse ++ reverseFields ns (bs.drop n)

/-- A body converted between the wire's order and the program's (R36). -/
def swapBody (body : List Nat) : List Nat := reverseFields (fieldLens (frameType body) body.length) body

/-- Bodies of the engine's own commands (R39). -/
def bodyReset (addr : Nat) : List Nat := [0x1C] ++ beBytes addr 2
def bodyEnum (p q addr : Nat) : List Nat := [0x14] ++ beBytes 0xFFFF 2 ++ [q, p] ++ beBytes addr 2
def bodyPing (addr : Nat) : List Nat := [0x13] ++ beBytes addr 2
def bodySetdly (addr d0 d1 : Nat) : List Nat := [0x15] ++ beBytes addr 2 ++ beBytes d0 2 ++ beBytes d1 2
def bodyAuth (addr nonce : Nat) : List Nat := [0x19] ++ beBytes addr 2 ++ beBytes nonce 12
def bodyRreg (addr r : Nat) : List Nat := [0x1B] ++ beBytes addr 2 ++ [r]
def bodyTime (ns : Nat) : List Nat := [0x12] ++ beBytes 0xFFFF 2 ++ beBytes (ns % 2 ^ 48) 6
def bodyBal (addr mask tmo : Nat) : List Nat := [0x17] ++ beBytes addr 2 ++ beBytes mask 3 ++ [tmo]
def bodyRead (tag slot first last : Nat) : List Nat :=
  [0x11] ++ beBytes 0xFFFF 2 ++ beBytes tag 2 ++ beBytes slot 2 ++ [first, last]

/-- Every frame that reaches an engine's receiver: counted, stamped, kept for `lrecv` (R73). -/
def State.engRx (s : State) (k : Nat) (body : List Nat) (crc viol : Bool) : State :=
  s.updEng k (fun e => { e with rxq := e.rxq ++ [{ body := body, crc := crc, viol := viol, at_ := s.now }], rxN := (e.rxN + 1) % 2 ^ 32, rxAt := s.ns })

/-! ## Calibration (R49, R51) -/

/-- The delay code of a round trip sum: (RT − 2,000 ns) / 2 to the nearest 1.25 ns (R49). -/
def delayCode (sum n : Nat) : Nat :=
  let d2 := sum / n - 2000000
  (d2 + 1250) / 2500

/-- The state code of `AQ_PORT_STAT.STATE`. -/
def State.portState (s : State) (k : Nat) : Nat := s.rd (AQ_PORT_STAT k) AQ_PORT_STAT_STATE

/-- The next calibration PING of an engine: to the position being measured. -/
def State.sendPing (s : State) (k q : Nat) : State :=
  (s.engSend k (bodyPing (s.addrOf (portOf k) q))).updEng k (fun e => { e with pingPos := q, pingOut := some (q, s.now) })

/-- The authentication round of an engine starts at a position with a fresh nonce from the TRNG (R69). -/
def State.sendAuth (s : State) (k q : Nat) : State :=
  let p := portOf k
  let nonce := (Config.freeWord s.fresh) % 2 ^ 96
  let s1 := (s.drew 1).engSend k (bodyAuth (s.addrOf p q) nonce)
  (s1.updPos p q (fun x => { x with nonce := some nonce, authAt := s.now, collecting := false, busy := 0 })).updEng k
    (fun e => { e with authPos := q })

/-- The end of an enumeration: NODES, ALLAUTH, RUN of the port and EV_LINK_ENUM; the end of a break when the count is
reached again (R46, R94). -/
def State.enumDone (s : State) (k : Nat) : State :=
  let p := portOf k
  let e := s.eng k
  let all := (List.range e.found).all (fun q => s.nodeAuth p (q + 1))
  let s := s.wr (AQ_PORT_STAT k) AQ_PORT_STAT_STATE 5
  let s := s.wr (AQ_PORT_STAT k) AQ_PORT_STAT_ALLAUTH (b2n all)
  let s := s.updEng k (fun e => { e with authPos := 0, enumPos := none })
  if e.enumFirst = 1 then
    let s := (s.wr (AQ_PORT_STAT (eng0 p)) AQ_PORT_STAT_NODES e.found).staleDrop p (e.found + 1) 64
    let s := (s.wr (AQ_PORT_BRK (eng0 p)) AQ_PORT_BRK_BRKVALID 0).wr (AQ_PORT_BRK (eng0 p)) AQ_PORT_BRK_BRKPOS 0
    s.raise (engSrc k) EV_LINK_ENUM [portPos p e.found]
  else
    let s := s.raise (engSrc k) EV_LINK_ENUM [portPos p e.found]
    if e.enumOld ≤ e.found then
      let s := (s.wr (AQ_PORT_BRK (eng0 p)) AQ_PORT_BRK_BRKVALID 0).wr (AQ_PORT_BRK (eng0 p)) AQ_PORT_BRK_BRKPOS 0
      s.raise (engSrc k) EV_SWP_RESTORE [portPos p e.found]
    else s.wr (AQ_PORT_BRK (eng0 p)) AQ_PORT_BRK_BRKPOS e.found

/-- Authentication goes on with the next position, or ends (R46, R69). -/
def State.authNext (s : State) (k q : Nat) : State :=
  let e := s.eng k
  let n := if s.portState k = 4 then e.found else s.portNodes (portOf k)
  if q + 1 ≤ n then s.sendAuth k (q + 1)
  else if s.portState k = 4 then s.enumDone k
  else
    let all := (List.range n).all (fun q => s.nodeAuth (portOf k) (q + 1))
    (s.wr (AQ_PORT_STAT k) AQ_PORT_STAT_ALLAUTH (b2n all)).updEng k (fun e => { e with authPos := 0, authAt := s.now })

/-- The calibration of a port's nodes ends: authentication follows when it is required (R46). -/
def State.calDone (s : State) (k : Nat) : State :=
  let s := (s.wr (AQ_PORT_STAT k) AQ_PORT_STAT_DLYVALID 1).updEng k (fun e => { e with pingPos := 0, recalAt := s.now })
  if s.portState k = 3 then
    if s.rdB (AQ_PORT_CTL k) AQ_PORT_CTL_AUTHREQ ∧ (s.eng k).enumFirst ≤ (s.eng k).found then
      (s.wr (AQ_PORT_STAT k) AQ_PORT_STAT_STATE 4).sendAuth k (s.eng k).enumFirst
    else s.enumDone k
  else s

/-- The positions an engine calibrates: what it found while enumerating, else NODES. -/
def State.calCount (s : State) (k : Nat) : Nat :=
  if s.portState k = 3 then (s.eng k).found else s.portNodes (portOf k)

/-- Calibration starts at a position, or ends when there is none (R46, R51). -/
def State.calStart (s : State) (k q : Nat) : State :=
  if q ≤ s.calCount k then (s.updEng k (fun e => { e with pingN := 0, pingSum := 0 })).sendPing k q else s.calDone k

/-- A position's delay is measured: at enumeration it is always written and sent; later only a change of more than
20 ns is (R46, R51). Engine end 0 measures d0, end 1 d1 (R49). -/
def State.calPosition (s : State) (k q d : Nat) : State :=
  let p := portOf k
  let fld := if endOf k = 0 then AQ_NODE_DLY_D0 else AQ_NODE_DLY_D1
  let a := AQ_NODE_DLY (eng0 p) q
  let old := s.rd a fld
  let moved := decide (old + 16 < d ∨ d + 16 < old)
  let put := fun (s : State) =>
    let s := s.wr a fld d
    s.engSend k (bodySetdly (s.addrOf p q) (s.rd a AQ_NODE_DLY_D0) (s.rd a AQ_NODE_DLY_D1))
  if s.portState k = 3 then put s
  else if moved then ((put s).hitDlyShift k).raise (engSrc k) EV_LINK_DLY_SHIFT [portPos p q, d]
  else s

/-- A PONG answers the outstanding PING (R49). -/
def State.pong (s : State) (k : Nat) : State :=
  let e := s.eng k
  match e.pingOut with
  | none => s
  | some (q, at_) =>
    let n := e.pingN + 1
    let sum := e.pingSum + (s.now - at_) / 2500 * 2500
    let s := s.updEng k (fun e => { e with pingOut := none, pingN := n, pingSum := sum })
    if n < 2 ^ s.rd (AQ_PORT_CTL k) AQ_PORT_CTL_PINGAVG then s.sendPing k q
    else (s.calPosition k q (delayCode sum n)).calStart k (q + 1)

/-! ## Enumeration (R46, R47, R71, R94) -/

/-- The ENUM of the position being tried. -/
def State.sendEnum (s : State) (k q : Nat) : State :=
  let p := portOf k
  (s.engSend k (bodyEnum p q (s.addrOf p q))).updEng k
    (fun e => { e with enumPos := some q, enumProbe := false, enumAt := s.now })

/-- Enumeration stops with `n` positions found; calibration follows (R46). -/
def State.enumStop (s : State) (k n : Nat) : State :=
  let s := s.updEng k (fun e => { e with enumPos := none, found := n })
  (s.wr (AQ_PORT_STAT k) AQ_PORT_STAT_STATE 3).calStart k (s.eng k).enumFirst

/-- The engine enumerates a port from a position: from 1 with RESET to every node (R46), from beyond a break without
(R94). -/
def State.enumBegin (s : State) (k first : Nat) : State :=
  let p := portOf k
  let old := s.portNodes p
  let s := s.updEng k (fun e => { e with enumFirst := first, enumOld := old, enumTry := 0, found := first - 1 })
  let s := (s.wr (AQ_PORT_STAT k) AQ_PORT_STAT_STATE 2).wr (AQ_PORT_STAT k) AQ_PORT_STAT_DLYVALID 0
  let s := if first = 1 then s.engSend k (bodyReset 0xFFFF) else s
  s.sendEnum k first

/-- A try of a position is spent: the next ENUM, or the end after three (R46, R47). -/
def State.enumRetry (s : State) (k q : Nat) : State :=
  let tries := (s.eng k).enumTry + 1
  if tries < 3 then (s.updEng k (fun e => { e with enumTry := tries })).sendEnum k q
  else s.enumStop k (q - 1)

/-- The source "node unauthenticated" of a position (R70, R127). -/
def State.unauthSource (s : State) (p q : Nat) (on : Bool) : State := s.nodeSource 12 p q 88 on

/-- A node fails an authentication: two retries with fresh nonces, then it is marked unauthenticated (R69). -/
def State.authFail (s : State) (k q : Nat) : State :=
  let p := portOf k
  let tries := (s.pos p q).authTries + 1
  if tries ≤ 2 then (s.updPos p q (fun x => { x with authTries := tries })).sendAuth k q
  else
    let s := s.updPos p q (fun x => { x with authTries := 0, nonce := none, collecting := false })
    let s := s.wr (AQ_NODE_STAT (eng0 p) q) AQ_NODE_STAT_AUTH 0
    let ser := s.nodeSerial p q
    let s := (s.hitAuthFail k).raise (engSrc k) EV_LINK_AUTH_FAIL [portPos p q, ser % 2 ^ 32, ser / 2 ^ 32]
    (s.unauthSource p q true).authNext k q

/-- A node's response is good (R69). -/
def State.authPass (s : State) (k q : Nat) : State :=
  let p := portOf k
  let s := s.updPos p q (fun x => { x with authTries := 0, nonce := none, collecting := false })
  let s := s.wr (AQ_NODE_STAT (eng0 p) q) AQ_NODE_STAT_AUTH 1
  (s.unauthSource p q false).authNext k q

/-- The check of an ARSP by the crypto engine (R68, R69); with no valid section key every check fails (R460). -/
def State.authCheck (s : State) (p q rsp : Nat) : Bool :=
  match Tab.get none s.boot.keys 0, (s.pos p q).nonce with
  | some key, some nonce =>
    authResponse (deriveNodeKey key (s.nodeSerial p q)) (beBytes nonce 12) (s.nodeSerial p q) p q == rsp
  | _, _ => false

/-- The position of an address on a port, if it is one of 1 to 64. -/
def State.posOfAddr (s : State) (p a : Nat) : Option Nat :=
  let b := s.addrOf p 1
  if b ≤ a ∧ a < b + 64 then some (a - b + 1) else none

end Sys2Proof.Machine
end

