-- ==== Sys2Proof/Machine/GateOps.lean ====
section
/-!
DEFINITION. The gate block's operations: outputs, faults, the stop, retry and latching (chapter 11: R307 to R326).
-/

namespace Sys2Proof.Machine

/-! ## Access -/

/-- A half-bridge's hidden state. -/
def State.hb (s : State) (n : Nat) : HB := Tab.get {} s.gate.hb n
/-- That half-bridge changed. -/
def State.updHb (s : State) (n : Nat) (f : HB → HB) : State :=
  { s with gate := { s.gate with hb := Tab.set {} s.gate.hb n (f (s.hb n)) } }

/-- Outputs GH, MH, GL, ML of a half-bridge, as bits 3 to 0. -/
def State.hbOut (s : State) (n : Nat) : Nat := s.rd (PW_HB_STAT n) PW_HB_STAT_OUT
/-- Command pair of a switch: 2 on, 0 hard off, 1 soft plateau, 3 weak off (R308). -/
def State.swOut (s : State) (n : Nat) (hi : Bool) : Nat := if hi then s.hbOut n / 4 else s.hbOut n % 4
/-- State code of a half-bridge. -/
def State.hbState (s : State) (n : Nat) : Nat := s.rd (PW_HB_STAT n) PW_HB_STAT_STATE
def State.setHbState (s : State) (n v : Nat) : State := s.wr (PW_HB_STAT n) PW_HB_STAT_STATE v
/-- A switch's counted feedback and desaturation flag. -/
def State.hbFb (s : State) (n : Nat) (hi : Bool) : Bool := bit (s.rd (PW_HB_STAT n) PW_HB_STAT_FB) (b2n hi)
def State.hbDs (s : State) (n : Nat) (hi : Bool) : Bool := bit (s.rd (PW_HB_STAT n) PW_HB_STAT_DS) (b2n hi)

/-- A switch's command pair set, with the edge instants of its G output. -/
def State.setSw (s : State) (n : Nat) (hi : Bool) (v : Nat) : State :=
  let was := s.swOut n hi
  let out := if hi then v * 4 + s.hbOut n % 4 else s.hbOut n / 4 * 4 + v
  let s1 := s.wr (PW_HB_STAT n) PW_HB_STAT_OUT out
  let t := s.now
  if was ≠ 2 ∧ v = 2 then s1.updHb n (fun h => if hi then { h with riseH := t } else { h with riseL := t })
  else if was = 2 ∧ v ≠ 2 then s1.updHb n (fun h => if hi then { h with fallH := t } else { h with fallL := t })
  else s1

/-- Both switches hard off, a pending turn-on dropped (R308). -/
def State.hardOff (s : State) (n : Nat) : State :=
  ((s.setSw n true 0).setSw n false 0).updHb n (fun h => { h with pend := none })

/-- Each switch that is on goes to soft plateau; a switch that is off stays hard off (R317). -/
def State.toPlateau (s : State) (n : Nat) : State :=
  let s1 := if s.swOut n true = 2 then s.setSw n true 1 else s
  let s2 := if s.swOut n false = 2 then s1.setSw n false 1 else s1
  s2.updHb n (fun h => { h with pend := none })

/-! ## Regulators and half-bridges (R269, R316) -/

/-- The half-bridge in slot k of string r's regulator. -/
def State.slotHb (s : State) (r k : Nat) : Nat := s.rd (PW_SREG_CFG r) ⟨13 + 5 * k, 9 + 5 * k⟩
/-- Whether a string's regulator is configured. -/
def State.sregEn (s : State) (r : Nat) : Bool := s.rdB (PW_SREG_CFG r) PW_SREG_CFG_EN
/-- The number of phases of a regulator. -/
def State.nph (s : State) (r : Nat) : Nat := s.rd (PW_SREG_CFG r) PW_SREG_CFG_NPH + 1
/-- The half-bridges of a string's regulator. -/
def State.hbsOf (s : State) (r : Nat) : List Nat :=
  if s.sregEn r then (List.range (s.nph r)).map (fun k => s.slotHb r k) else []
/-- The string whose enabled regulator uses half-bridge n. -/
def State.stringOfHb (s : State) (n : Nat) : Option Nat :=
  (List.range 12).find? (fun r => (s.hbsOf r).contains n)
/-- A string's regulator mode. -/
def State.sregMode (s : State) (r : Nat) : Nat := s.rd (PW_SREG_STAT r) PW_SREG_STAT_MODE

/-- Whether half-bridge n may leave the off state (R316). -/
def State.armed (s : State) (n : Nat) : Bool :=
  let th := s.rd (PW_HB_FOC n) PW_HB_FOC_FOCTH
  match s.stringOfHb n with
  | some r =>
    let rat := s.rd (PW_SREG_RAT r) PW_SREG_RAT_ISRAT
    decide (3 * rat ≤ 2 * th * s.nph r ∧ th * s.nph r ≤ 3 * rat ∧ th ≠ 0)
  | none => decide (th ≠ 0)

/-- A half-bridge at rest is off when armed, else not armed (R316). -/
def State.rearm (s : State) (n : Nat) : State :=
  if s.hbState n = 0 ∨ s.hbState n = 7 then s.setHbState n (if s.armed n then 0 else 7) else s

/-- Every half-bridge at rest judged again, after a write of what R316 depends on. -/
def State.rearmAll (s : State) : State := (List.range 24).foldl (fun s n => s.rearm n) s

/-! ## Faults (R320, R324 to R326) -/

/-- A fault state: faulted in a stop, waiting or latched. -/
def State.faulted (s : State) (n : Nat) : Bool := bit (s.rd PW_GD_STAT PW_GD_STAT_FAULTED) n

/-- Trip source 23 of a half-bridge's string follows whether any of its half-bridges is faulted (R324). -/
def State.source23 (s : State) (n : Nat) : State :=
  match s.stringOfHb n with
  | none => s
  | some r => s.stringSource 23 r (some r) ((s.hbsOf r).any (fun h => s.faulted h))

/-- Faults of the latest 60 s. -/
def State.tries (s : State) (n : Nat) : List Nat := (s.hb n).faults.filter (fun t => decide (s.now < t + 60 * sec))

/-- A half-bridge latches (R326). -/
def State.hbLatch (s : State) (n cause : Nat) : State :=
  ((s.setHbState n 4).hit PW_GD_EVT PW_GD_EVT_LATCHED PW_GD_CNT1 PW_GD_CNT1_LATCHEDN).raise srcGate EV_GD_LATCH [n, cause]

/-- A fault counted: its cause, its instant, TRIES, the fault mask and the trip source; it latches above RTRY (R324,
R326). -/
def State.hbFault (s : State) (n cause : Nat) : State :=
  let ts := s.tries n ++ [s.now]
  let s := s.updHb n (fun h => { h with faultAt := s.now, faults := ts })
  let s := s.wr (PW_HB_STAT n) PW_HB_STAT_TRIES (Nat.min 8 ts.length)
  let s := s.wr (PW_HB_STAT n) PW_HB_STAT_CAUSE cause
  let s := s.wrBit PW_GD_STAT n true
  let s := if s.hbState n = 4 then s
    else if s.rd PW_GD_CFG PW_GD_CFG_RTRY < ts.length then s.hbLatch n cause
    else if (s.hb n).inStop then s else s.setHbState n 3
  s.source23 n

/-- The event and flag of a fault cause (R324). -/
def State.hbFaultEvent (s : State) (n cause : Nat) : State :=
  if cause ≤ 3 then (s.hit PW_GD_EVT PW_GD_EVT_SHORT PW_GD_CNT0 PW_GD_CNT0_SHORTN).raise srcGate EV_GD_SHORT [n, cause]
  else if cause = 4 then
    (s.hit PW_GD_EVT PW_GD_EVT_INTERLOCK PW_GD_CNT0 PW_GD_CNT0_INTERLOCKN).raise srcGate EV_GD_INTERLOCK [n, cause]
  else if cause ≤ 6 then
    (s.hit PW_GD_EVT PW_GD_EVT_FBERR PW_GD_CNT0 PW_GD_CNT0_FBERRN).raise srcGate EV_GD_FBERR [n, cause]
  else if cause = 7 then (s.hit PW_GD_EVT PW_GD_EVT_UV PW_GD_CNT0 PW_GD_CNT0_UVN).raise srcGate EV_GD_UV [n, cause]
  else (s.hit PW_GD_EVT PW_GD_EVT_LEAK PW_GD_CNT1 PW_GD_CNT1_LEAKN).raise srcGate EV_GD_LEAK [n, cause]

/-- Direct test mode and the leak test end at a source of order 1 to 4 (R313, R323). -/
def State.endTests (s : State) : State :=
  let ten := s.rdB PW_GD_TEST PW_GD_TEST_TEN
  let thb := s.rd PW_GD_TEST PW_GD_TEST_THB
  let s := if ten then
      let s := (s.wr PW_GD_TEST PW_GD_TEST_TEN 0).wr PW_GD_TEST PW_GD_TEST_TCMD 0
      if s.hbState thb = 5 then ((s.hardOff thb).setHbState thb 0).rearm thb else s
    else s
  match s.gate.leak with
  | none => s
  | some (hbs, _, _) =>
    let s := { s with gate := { s.gate with leak := none } }
    let s := s.wr PW_GD_LEAK PW_GD_LEAK_LBUSY 0
    hbs.foldl (fun s n => if s.hbState n = 6 then ((s.hardOff n).setHbState n 0).rearm n else s) s

/-- An interlock, feedback or undervoltage fault: both switches hard off, the fault state, no stop (R320, R322). -/
def State.plainFault (s : State) (n cause : Nat) : State :=
  ((s.endTests.hardOff n).hbFault n cause).hbFaultEvent n cause

/-! ## The stop (R317 to R319) -/

/-- The half-bridges in the stop scope of half-bridge h (SCSCOPE). -/
def State.stopScope (s : State) (h : Nat) : List Nat :=
  if s.rdB PW_GD_CFG PW_GD_CFG_SCSCOPE then
    match s.stringOfHb h with
    | some r => s.hbsOf r
    | none => [h]
  else List.range 24

/-- The plateau length, ps. -/
def State.tplat (s : State) : Nat := s.rd PW_GD_CFG PW_GD_CFG_TPLAT * 100000

/-- Half-bridge n enters the stop: plateau, and its hard-off instant (R317, R318). A latched half-bridge, or one in its
fault state, stays as it is. -/
def State.enterStop (s : State) (n : Nat) : State :=
  if (s.hb n).inStop ∨ s.hbState n = 3 ∨ s.hbState n = 4 then s
  else
    let s := s.toPlateau n
    let t := s.now
    let s := s.updHb n (fun h => { h with inStop := true, stopFault := false, platAt := t, offDue := some (t + s.tplat) })
    s.setHbState n 2

/-- The hard-off instant of a faulted half-bridge: after its own plateau, and 200 ns after the previous faulted one
(R318). -/
def State.faultOffDue (s : State) (n : Nat) : Nat :=
  let own := (s.hb n).platAt + s.tplat
  match s.gate.lastFaultOff with
  | none => own
  | some p => Nat.max own (p + 200000)

/-- A short of half-bridge n with its cause: it becomes faulted and every half-bridge in scope enters the stop (R317). -/
def State.short (s : State) (n cause : Nat) : State :=
  if s.hbState n = 4 ∨ (s.hb n).stopFault then s
  else
    let s := s.endTests
    let s := (n :: s.stopScope n).foldl (fun s m => s.enterStop m) s
    let due := s.faultOffDue n
    let s := s.updHb n (fun h => { h with stopFault := true, offDue := h.offDue.map (fun _ => due) })
    let s := { s with gate := { s.gate with lastFaultOff := some due } }
    let s := s.wr PW_GD_STAT PW_GD_STAT_STOP 1
    (s.hbFault n cause).hbFaultEvent n cause

/-- Whether a stop is in progress. -/
def State.inStop (s : State) : Bool := s.rdB PW_GD_STAT PW_GD_STAT_STOP

/-! ## Sources of precedence (R310) -/

/-- The trip matrix inhibits or frees the half-bridges of a string: hard off, except in a stop (R310, R318). -/
def State.inhibitString (s : State) (r : Nat) (on : Bool) : State :=
  (s.hbsOf r).foldl (fun s n =>
    let s := s.updHb n (fun h => { h with inhibit := on })
    if on then
      let s := if s.hbState n = 5 ∨ s.hbState n = 6 then s.endTests else s
      if (s.hb n).inStop ∨ s.hbState n = 3 ∨ s.hbState n = 4 then s else (s.hardOff n).setHbState n (if s.armed n then 0 else 7)
    else s) s

/-- Whether a half-bridge's fault source is inactive (R325). -/
def State.faultInactive (s : State) (n : Nat) : Bool :=
  !s.hbDs n true && !s.hbDs n false && !(s.hb n).foc && !s.hbFb n true && !s.hbFb n false &&
    !s.rdB PW_GD_STAT PW_GD_STAT_UV

/-- Whether the regulator's pulse may act on half-bridge n: no higher source holds it (R310). -/
def State.regulatorDrives (s : State) (n : Nat) : Bool :=
  !s.rdB PW_GD_STAT PW_GD_STAT_KILL && !(s.hb n).inStop && !s.rdB PW_GD_STAT PW_GD_STAT_UV && !s.faulted n &&
    !(s.hb n).inhibit && decide (s.hbState n ≤ 1)

/-- The dead time and the interlock limit of a half-bridge, ps. -/
def State.tdead (s : State) (n : Nat) : Nat := s.rd (PW_HB_CFG n) PW_HB_CFG_TDEAD * 2500
def State.til (s : State) (n : Nat) : Nat := s.rd (PW_HB_CFG n) PW_HB_CFG_TIL * 10000
def State.tblank (s : State) (n : Nat) : Nat := s.rd (PW_HB_CFG n) PW_HB_CFG_TBLANK * 20000

/-- A pending turn-on whose dead time is over and whose opposite feedback counts as off is carried out (R311). -/
def State.settle (s : State) (n : Nat) : State :=
  match (s.hb n).pend with
  | none => s
  | some (hi, due) =>
    if due ≤ s.now ∧ s.hbFb n (!hi) = false then (s.setSw n hi 2).updHb n (fun h => { h with pend := none }) else s

/-- A turn-on of a switch asked for: at once when the opposite switch's G fell a dead time ago and its feedback counts
as off, else pending (R311). The dead time runs from the opposite switch's falling edge, and no turn-on comes before
the commanding edge plus the dead time. -/
def State.askOn (s : State) (n : Nat) (hi : Bool) : State :=
  let h := s.hb n
  let fall := if hi then h.fallL else h.fallH
  let due := Nat.max (s.now + s.tdead n) (fall + s.tdead n)
  s.updHb n (fun h => { h with pend := some (hi, due) })

/-- A switch turned off at once, and a pending turn-on of it dropped (R311). -/
def State.turnOff (s : State) (n : Nat) (hi : Bool) : State :=
  let s := if s.swOut n hi = 2 then s.setSw n hi 0 else s
  s.updHb n (fun h => { h with pend := match h.pend with
    | some (x, d) => if x = hi then none else some (x, d)
    | none => none })

/-- The regulator's enable and pulse at half-bridge n (R311): off at the edge, on after the dead time. -/
def State.driveHb (s : State) (n : Nat) (en pulse : Bool) : State :=
  let s := s.updHb n (fun h => { h with en := en, pulse := pulse })
  if ¬ s.regulatorDrives n then s
  else if ¬ en then ((s.turnOff n true).turnOff n false).setHbState n (if s.armed n then 0 else 7)
  else if ¬ s.armed n then s
  else
    let s := s.setHbState n 1
    let s := s.turnOff n (!pulse)
    if s.swOut n pulse = 2 then s else s.askOn n pulse

end Sys2Proof.Machine
end

