-- ==== Sys2Proof/Machine/LoadOps.lean ====
section
/-!
DEFINITION. The load-switch channels' operations: inputs, outputs, trips, latches, clamp accounts (chapter 12).
-/

namespace Sys2Proof.Machine

/-! ## Access -/

def State.ls (s : State) (c : Nat) : LsCh := Tab.get {} s.out.ch c
def State.updLs (s : State) (c : Nat) (f : LsCh → LsCh) : State :=
  { s with out := { s.out with ch := Tab.set {} s.out.ch c (f (s.ls c)) } }
def State.lt (s : State) (n : Nat) : LoadTimer := Tab.get {} s.out.timers n
def State.updLt (s : State) (n : Nat) (f : LoadTimer → LoadTimer) : State :=
  { s with out := { s.out with timers := Tab.set {} s.out.timers n (f (s.lt n)) } }
/-- Whether channel c is on. -/
def State.lsOn (s : State) (c : Nat) : Bool := bit (s.rd PW_LS_STAT PW_LS_STAT_ON) c
def State.lsLatched (s : State) (c : Nat) : Bool := s.rdB (PW_LS_STATc c) PW_LS_STATc_LATCHED

/-! ## Inputs (R330) -/

/-- The level of the source a code names (R330). -/
def State.lsSource (s : State) (code : Nat) : Bool :=
  if code = 0 then false
  else if code = 1 then true
  else if code ≤ 33 then bit s.out.io (code - 2)
  else if code ≤ 45 then (s.lt (code - 34)).high
  else false

/-- The contactor supervisor's drive of HC s: off, fully on from pull-in start, then the source (R141, R330). -/
def State.conDrive (s : State) (r : Nat) : Bool :=
  let x := Tab.get {} s.trip.str r
  x.hc && (!x.econ || s.lsSource (s.rd (PW_LS_CFG r) PW_LS_CFG_SRC))

/-- A channel's input (R330). -/
def State.lsInput (s : State) (c : Nat) : Bool :=
  if c < 12 then s.rdB SF_STAT SF_STAT_PERM && s.conDrive c
  else if c < 18 then bit s.out.lcWire (c - 12)
  else if c = 18 + s.rd PW_PCH_CFG PW_PCH_CFG_SEEDGC then s.trip.pch.relay
  else s.lsSource (s.rd (PW_LS_CFG c) PW_LS_CFG_SRC)

/-! ## Outputs (R331, R334, R343) -/

/-- A channel turned off, or on; a GC channel that was off for 100 ms opens its inrush window (R334). -/
def State.lsSet (s : State) (c : Nat) (on : Bool) : State :=
  if s.lsOn c = on then s
  else
    let now := s.now
    let s := s.wrBit PW_LS_STAT c on
    if on then
      let long : Bool := match (s.ls c).offAt with
        | none => true
        | some t0 => decide (t0 + 100 * ms ≤ now)
      let tinr := s.rd (PW_LS_CFG c) PW_LS_CFG_TINR
      let s := if s.lsLatched c then s else s.wr (PW_LS_STATc c) PW_LS_STATc_CAUSE 0
      s.updLs c (fun x => { x with onAt := now, inrush := if 18 ≤ c ∧ long ∧ tinr ≠ 0 then some (now + tinr * 10 * ms) else x.inrush })
    else
      let code := s.rd (PW_LS_STATc c) PW_LS_STATc_ISENSE
      let s := s.updLs c (fun x => { x with offAt := some now, offSense := code })
      let s := (s.wr (PW_LS_STATc c) PW_LS_STATc_ISENSE 0).wr (PW_LS_STATc c) PW_LS_STATc_OPENLD 0
      s.wr (PW_LS_STATc c) PW_LS_STATc_LIM 0

/-- A channel's output follows its input unless a latch, cooling or the VSW lock-out holds it off (R330, R335, R343). -/
def State.lsSync (s : State) (c : Nat) : State :=
  let inp := s.lsInput c
  let lo := s.rdB PW_LS_STAT PW_LS_STAT_VSWLO
  let s := if ¬ inp ∧ ¬ lo then s.updLs c (fun x => { x with vswHold := false }) else s
  s.lsSet c (inp && !s.lsLatched c && !(s.ls c).cooling && !lo && !(s.ls c).vswHold)

/-- Every channel follows its input. -/
def State.lsSyncAll (s : State) : State := (List.range 24).foldl (fun s c => s.lsSync c) s

/-! ## Sources 20 and 21 (R336, R337) -/

/-- The strings that an HC or LC channel concerns. -/
def lsStrings (c : Nat) : List Nat := if c < 12 then [c] else if c < 18 then [2 * (c - 12), 2 * (c - 12) + 1] else []

/-- Source 20 (a latch) or 21 (a pre-warning) of a channel for its strings. -/
def State.lsTrip (s : State) (src c : Nat) (on : Bool) : State :=
  (lsStrings c).foldl (fun s r => s.stringSource src (1024 + c * 16 + r) (some r) on) s

/-! ## Latching and clamp energy (R337, R339) -/

/-- A channel latches with a cause (R335 to R337, R339). -/
def State.lsLatch (s : State) (c cause : Nat) : State :=
  let s := (s.wr (PW_LS_STATc c) PW_LS_STATc_LATCHED 1).wr (PW_LS_STATc c) PW_LS_STATc_CAUSE cause
  let s := s.updLs c (fun x => { x with cooling := false })
  let s := s.lsSync c
  let s := (s.hit PW_LS_EVT PW_LS_EVT_LATCH PW_LS_CNT0 PW_LS_CNT0_LATCHN).raise srcOut EV_LS_LATCH
    [c, cause, s.rd (PW_LS_STATc c) PW_LS_STATc_ATTR]
  s.lsTrip 20 c true

/-- The drain of a clamp account, mW (R339). -/
def lsDrain (c : Nat) : Nat := if c < 12 then 100 else 150

/-- The clamp account brought up to now, and its register (R339). -/
def State.lsAccount (s : State) (c : Nat) : State :=
  let now := s.now
  let s := s.updLs c (fun x => { x with energy := x.energy - (now - x.energyAt) * lsDrain c / 1000000, energyAt := now })
  s.wr (PW_LS_TJ c) PW_LS_TJ_EACC (Nat.min 65535 ((s.ls c).energy / 1000000))

/-- The sense scale, 0.1 mA per LSB (R340). -/
def lsScale (c : Nat) : Nat := if c < 12 then 25 else if c < 18 then 40 else 50

/-- A channel's current limit, mA: the stated value (R328). -/
def State.lsLimit (s : State) (c : Nat) : Nat :=
  if c < 12 then 8000 else if c < 18 then 12000
  else match (s.ls c).inrush with
    | some t0 => if s.now < t0 then 16000 else 8000
    | none => 8000

/-- The clamp energy of a turn-off: 0.5 × clamp voltage (mV) × current at turn-off × duration (ns), added to the
account; at the budget the channel latches (R339). -/
def State.lsClamp (s : State) (c vclamp dur : Nat) : State :=
  if dur = 0 then s
  else
    let code := (s.ls c).offSense
    let i := if code = 0xFFF then s.lsLimit c else code * lsScale c / 10
    let s := (s.lsAccount c).updLs c (fun x => { x with energy := x.energy + vclamp * i * dur / 2000000 })
    let s := s.lsAccount c
    if s.rd (PW_LS_CFG c) PW_LS_CFG_EBUD * 10000000 ≤ (s.ls c).energy ∧ ¬ s.lsLatched c then
      let s := (s.hit PW_LS_EVT PW_LS_EVT_CLAMP PW_LS_CNT0 PW_LS_CNT0_CLAMPN).raise srcOut EV_LS_CLAMP
        [c, 3, s.rd (PW_LS_STATc c) PW_LS_STATc_ATTR]
      s.lsLatch c 3
    else s

/-! ## Attribution (R338) -/

/-- Whether a channel was in current limit or tripped within the last second. -/
def State.lsRecent (s : State) (c : Nat) : Bool :=
  let x := s.ls c
  let near := fun (o : Option Nat) => match o with
    | some t0 => decide (s.now ≤ t0 + sec)
    | none => false
  s.rdB (PW_LS_STATc c) PW_LS_STATc_LIM || near x.limAt || near x.tripAt

/-- A channel's temperature. -/
def State.lsTemp (s : State) (c : Nat) : Int := sext (s.rd (PW_LS_TJ c) PW_LS_TJ_TJ) 16

/-- The neighbour a thermal trip is attributed to: 31 none, the hotter of two (R338). -/
def State.lsAttr (s : State) (c : Nat) : Nat :=
  let lo := decide (0 < c) && s.lsRecent (c - 1)
  let hi := decide (c < 23) && s.lsRecent (c + 1)
  if lo && hi then (if s.lsTemp (c - 1) < s.lsTemp (c + 1) then c + 1 else c - 1)
  else if lo then c - 1
  else if hi then c + 1
  else 31

/-! ## Load timers (R332) -/

/-- A timer's output after its settings were written, or at the start of a period. -/
def State.ltLoad (s : State) (n start : Nat) : State :=
  let en := s.rdB (CT_LT_CFG n) CT_LT_CFG_EN
  let per := s.rd (CT_LT_CFG n) CT_LT_CFG_PERIOD
  let duty := s.rd (CT_LT_CFG n) CT_LT_CFG_DUTY
  s.updLt n (fun x => { x with start := start, period := per, duty := duty, high := en && decide (duty ≠ 0) && !x.stopped })

/-- The channels whose source is timer n follow it. -/
def State.ltSync (s : State) (n : Nat) : State :=
  ((List.range 24).filter (fun c => s.rd (PW_LS_CFG c) PW_LS_CFG_SRC = 34 + n)).foldl (fun s c => s.lsSync c) s

end Sys2Proof.Machine
end

