-- ==== Sys2Proof/Machine/Secure.lean ====
section
/-!
DEFINITION. CRC-32C, the OTP, and the key hashes (R371, R449, R466).
-/

namespace Sys2Proof.Machine

/-! ## CRC-32C (R371) -/

/-- One bit of the reflected CRC-32C with polynomial 0x1EDC6F41. -/
def crcBit (c : Nat) : Nat := if c % 2 = 1 then Nat.xor (c / 2) 0x82F63B78 else c / 2

/-- One byte. -/
def crcByte (c b : Nat) : Nat :=
  crcBit (crcBit (crcBit (crcBit (crcBit (crcBit (crcBit (crcBit (Nat.xor c (b % 256)))))))))

/-- CRC-32C over bytes (R371). -/
def crc32c (bs : List Nat) : Nat := Nat.xor (bs.foldl crcByte 0xFFFFFFFF) 0xFFFFFFFF

/-! ## OTP (R466) -/

/-- One OTP bit: a vendor field as shipped, any other field as burnt. -/
def State.otpBit (s : State) (i : Nat) : Bool :=
  if i < 0x200 * 8 then bit (Config.otpShipped (i / 8)).toNat (i % 8) else Tab.get false s.boot.otp i

/-- One OTP byte. -/
def State.otpByte (s : State) (a : Nat) : Nat :=
  (List.range 8).foldl (fun n i => n + b2n (s.otpBit (a * 8 + i)) * 2 ^ i) 0

/-- Bytes of the OTP. -/
def State.otpBytes (s : State) (a n : Nat) : List Nat := (List.range n).map (fun i => s.otpByte (a + i))

/-- A bit burnt (R466). -/
def State.burnBit (s : State) (i : Nat) : State := { s with boot := { s.boot with otp := Tab.set false s.boot.otp i true } }

/-- The majority of three bits. -/
def maj3 (a b c : Bool) : Bool := (a && b) || (b && c) || (a && c)

/-- Bit k of a field of `w` bits held three times in a row from bit `i` (R466). -/
def State.otp3 (s : State) (i w k : Nat) : Bool := maj3 (s.otpBit (i + k)) (s.otpBit (i + w + k)) (s.otpBit (i + 2 * w + k))

/-- The hash of key k, 32 bytes; whether it is programmed, and revoked (R449, R455). -/
def State.keyHash (s : State) (k : Nat) : List Nat := s.otpBytes (0x200 + k * 32) 32
def State.keyProgrammed (s : State) (k : Nat) : Bool := (s.keyHash k).any (fun b => b != 0)
def State.keyRevoked (s : State) (k : Nat) : Bool := s.otp3 (0x298 * 8) 4 k

end Sys2Proof.Machine
end

