-- ==== Sys2Proof/Machine/Views.lean ====
section
/-!
DEFINITION. What a register reads as: the stored word, with the fields that follow the machine's state at the read.
-/

namespace Sys2Proof.Machine

/-- Whether address `a` is a place of the array of registers that starts at `b`, with stride `st` and `n` places. -/
def inArray (a b st n : Nat) : Bool := decide (b ≤ a ∧ a < b + st * n) && (a - b) % st == 0

/-- The engine whose window holds an address, with the offset in it; none outside the engine windows (R8, R74). -/
def engineOff (a : Nat) : Option (Nat × Nat) :=
  if a / 0x1000000 = 0x42 ∧ a / 0x100000 % 16 < 5 ∧ a % 0x100000 < 0x4000 then
    some (a / 0x100000 % 16 * 4 + a % 0x4000 / 0x1000, a % 0x1000)
  else none

/-! ## Pairs (R173) -/

/-- The high register of the 64-bit pair whose low register is `a`. -/
def pairHigh (a : Nat) : Option Nat :=
  let can := decide (0x44208000 ≤ a ∧ a < 0x44220000)
  let off := (a - 0x44208000) % 0x4000
  if a = AQ_SWP_EPOCHLO ∨ a = PW_EXC_EPOCHLO ∨ a = SV_RTCLO then some (a + 4)
  else if a / 0x1000000 = 0x43 ∧ a % 0x100000 = 4 ∧ a / 0x100000 % 16 < 4 then some (a + 4)
  else if inArray a (FB_PMON_CNTLO 0) 8 64 then some (a + 4)
  else if can ∧ (off = 0x28 ∨ off = 0x30 ∨ off = 0x98) then some (a + 4)
  else match engineOff a with
    | some (_, o) => if 0x400 ≤ o ∧ o < 0x800 ∧ o % 16 = 0 then some (a + 4) else none
    | none => none

/-- The low register of the pair whose high register is `a`. -/
def pairLow (a : Nat) : Option Nat := if 4 ≤ a ∧ pairHigh (a - 4) = some a then some (a - 4) else none

/-! ## Fields that follow the state -/

/-- Stale nodes of a port: their number and the stale age of the oldest, ms (R90). -/
def State.staleView (s : State) (p : Nat) : Nat × Nat :=
  ((List.range 64).map (· + 1)).foldl (fun acc q =>
    match (s.pos p q).staleSince with
    | some t0 => (acc.1 + 1, Nat.max acc.2 ((s.now - t0) / ms))
    | none => acc) (0, 0)

/-- The remaining lockout, min, rounded up (R462). -/
def State.lockRem (s : State) : Nat :=
  match s.boot.lock with
  | some (t0, len) => (t0 + len - s.now + 60 * sec - 1) / (60 * sec)
  | none => 0

/-- The anti-rollback counter: the bits set by majority of its three copies (R454). -/
def State.arb (s : State) : Nat :=
  (List.range 64).foldl (fun n i => n + b2n (s.otp3 (0x280 * 8) 64 i)) 0

/-- The section is commissioned (R426). -/
def State.commissioned (s : State) : Bool :=
  maj3 (s.otpBit (0x2E0 * 8)) (s.otpBit (0x2E0 * 8 + 1)) (s.otpBit (0x2E0 * 8 + 2))

/-- Four bits, one per key hash. -/
def mask4 (f : Nat → Bool) : Nat := b2n (f 0) + 2 * b2n (f 1) + 4 * b2n (f 2) + 8 * b2n (f 3)

/-- The newest persisted sequence and the oldest reachable one (R423, R429). -/
def State.seqNew (s : State) : Nat := if s.led.sedReach = 0 then 0 else (s.led.seqNext + 2 ^ 32 - 1) % 2 ^ 32
def State.seqOld (s : State) : Nat :=
  if s.led.sedReach = 0 then 0 else (s.led.seqNext + 2 ^ 32 - s.led.sedReach) % 2 ^ 32

/-- RTC value on the chip-time scale, ns: the value loaded last and the time since (R484). -/
def State.rtcNow (s : State) : Nat := s.sv.rtc + (s.now - s.sv.rtcAt) / 1000

/-- Vector grains of block b on which a kernel is active, a mask. -/
def State.activeVec (s : State) (b : Nat) : Nat :=
  mask4 (fun g => (s.grain (0x200 + b * 16 + g)).kern.isSome)

/-- A register word with the fields of the fabric that follow the state. -/
def State.viewFB (s : State) (a : Nat) (w : Word) : Word :=
  if inArray a (FB_Q_STAT 0) 16 64 then FB_Q_STAT_COUNT.put w (s.queue ((a - FB_Q_STAT 0) / 16)).length
  else if inArray a (FB_PMON_CNTLO 0) 8 64 then
    FB_PMON_CNTLO_CNTLO.put w (Tab.get 0 s.fab.pmon ((a - FB_PMON_CNTLO 0) / 8) % 2 ^ 48)
  else if inArray a (FB_PMON_CNTHI 0) 8 64 then
    FB_PMON_CNTHI_CNTHI.put w (Tab.get 0 s.fab.pmon ((a - FB_PMON_CNTHI 0) / 8) % 2 ^ 48 / 2 ^ 32)
  else if a = SV_RTCLO then BitVec.ofNat 32 s.rtcNow
  else if a = SV_RTCHI then BitVec.ofNat 32 (s.rtcNow / 2 ^ 32)
  else w

/-- The same for the acquisition and estimation regions. -/
def State.viewAQ (s : State) (a : Nat) (w : Word) : Word :=
  match engineOff a with
  | some (k, 0x014) =>
    let v := s.staleView (portOf k)
    AQ_PORT_BRK_STALEMS.put (AQ_PORT_BRK_STALEN.put w v.1) (Nat.min v.2 65535)
  | _ =>
    if a / 0x1000000 = 0x43 ∧ a % 0x100000 = 0x40 then
      let b := a / 0x100000 % 16
      ES_VB_STAT_BAND.put (ES_VB_STAT_ACTIVE.put w (s.activeVec b)) (s.rd SV_TH_STAT SV_TH_STAT_BAND)
    else w

/-- The same for the power region: sliding counts and accounts (R326, R335, R339). -/
def State.viewPW (s : State) (a : Nat) (w : Word) : Word :=
  if inArray a (PW_HB_STAT 0) 16 24 then
    PW_HB_STAT_TRIES.put w (Nat.min 8 (s.tries ((a - PW_HB_STAT 0) / 16)).length)
  else if inArray a (PW_LS_STATc 0) 16 24 then
    let c := (a - PW_LS_STATc 0) / 16
    let n := ((s.ls c).trips.filter (fun t => decide (s.now < t + 10 * sec))).length
    PW_LS_STATc_NCYC.put w (Nat.min 15 n)
  else if inArray a (PW_LS_TJ 0) 16 24 then (s.lsAccount ((a - PW_LS_TJ 0) / 16)).reg a
  else w

/-- The same for the persistence region. -/
def State.viewPS (s : State) (a : Nat) (w : Word) : Word :=
  if a = LEDGER_STAT then
    LEDGER_STAT_CMSN.put (LEDGER_STAT_COMMIT.put (LEDGER_STAT_JPEND.put w (b2n s.led.jpend)) (b2n s.led.commit))
      (b2n s.commissioned)
  else if a = LEDGER_SEQNEW then BitVec.ofNat 32 s.seqNew
  else if a = LEDGER_SEQOLD then BitVec.ofNat 32 s.seqOld
  else if a = LEDGER_CLHEAD then BitVec.ofNat 32 (if s.led.chgSeq = 0 then 0 else (s.led.chgNext + 4095) % 4096)
  else if a = PS_MRAM_STAT then PS_MRAM_STAT_SBAND.put w s.led.scrubBand
  else if a = LT_STAT then LT_STAT_REDO.put w s.led.redoNext
  else if a = CG_STAT then CG_STAT_LOCKREM.put w s.lockRem
  else if a = PS_BOOT_STAT then
    PS_BOOT_STAT_ARB.put (PS_BOOT_STAT_REVOKED.put (PS_BOOT_STAT_HASHSET.put w (mask4 s.keyProgrammed)) (mask4 s.keyRevoked))
      s.arb
  else w

/-- What the register at `a` holds, for a reader or a writer. -/
def State.view (s : State) (a : Nat) : Word :=
  let w := s.reg a
  match a / 0x1000000 with
  | 0x40 | 0x41 => s.viewFB a w
  | 0x42 | 0x43 => s.viewAQ a w
  | 0x45 => s.viewPW a w
  | 0x46 => s.viewPS a w
  | _ => w

end Sys2Proof.Machine
end

