-- ==== Sys2Proof/Machine/RegRead.lean ====
section
/-!
DEFINITION. Reads: which addresses exist, what a read of a register returns and does (R3, R153 to R158, R172, R173), and
the bytes of ROM, MRAM, SRAM and local memory.
-/

namespace Sys2Proof.Machine

/-! ## The address space (R153, R157) -/

/-- What stands at an address for a 32-bit access from a grain. -/
inductive Place where
  | rom
  | mram
  /-- Region SRAM or the local memory of a grain at its alias. -/
  | ram
  /-- The event buffer of a block, by block source (R421). -/
  | evbuf (src : Nat)
  /-- The OTP as the boot block shows it (R466). -/
  | otp
  | register
  | queue (n off : Nat)
  | none
  deriving DecidableEq, Repr

/-- Bytes of local memory of a grain (R153). -/
def localBytes (src : Nat) : Nat :=
  match grainOfSrc src with
  | some (.ctl _) => 0x20000
  | some (.vec _) => 0x20000
  | some (.link _) => 0xC000
  | none => 0

/-- Bytes of instruction memory of a grain, from its offset 0 (R153, R157); a vector grain has one memory for both. -/
def instrBytes (src : Nat) : Nat :=
  match grainOfSrc src with
  | some (.ctl _) => 0x10000
  | some (.link _) => 0x4000
  | _ => 0

/-- The block source whose window holds an address; none where no block has it (R7). -/
def blockAt (a : Nat) : Option Nat :=
  let b := a / 0x100000 % 16
  let n := match a / 0x1000000 with
    | 0x40 => 4
    | 0x41 => 1
    | 0x42 => 7
    | 0x43 => 4
    | 0x44 => 3
    | 0x45 => 4
    | 0x46 => 5
    | 0x47 => 3
    | _ => 0
  let r := match a / 0x1000000 with
    | 0x40 => 8
    | 0x41 => 7
    | x => x % 16 - 1
  if b < n then some (if r = 7 then srcSV else r * 256 + b * 16 + 15) else none

/-- The grain whose local memory an alias address lies in, with the offset (R157). -/
def aliasAt (a : Nat) : Option (Nat × Nat) :=
  let o := a % 0x100000
  if 0x42000000 ≤ a ∧ a < 0x45000000 ∧ 0x80000 ≤ o then
    match blockAt a with
    | some blk =>
      let src := blk / 16 * 16 + (o - 0x80000) / 0x20000
      let off := (o - 0x80000) % 0x20000
      if off < localBytes src then some (src, off) else none
    | none => none
  else none

/-- The six SRAMs: base and size (R153). -/
def sramAreas : List (Nat × Nat) :=
  [(0x10000000, 0x600000), (0x11000000, 0x800000), (0x12000000, 0x580000), (0x13000000, 0x200000),
   (0x13800000, 0x100000), (0x14000000, 0x100000)]

/-- What stands at the address of a 32-bit access. -/
def placeOf (a : Nat) : Place :=
  if a < 0x40000 ∨ (0x100000 ≤ a ∧ a < 0x180000) then .rom
  else if 0x04000000 ≤ a ∧ a < 0x05000000 then .mram
  else if sramAreas.any (fun m => decide (m.1 ≤ a ∧ a < m.1 + m.2)) then .ram
  else if 0x20000000 ≤ a ∧ a < 0x20040000 ∧ a % 0x1000 < 0x10 then .queue (a / 0x1000 % 64) (a % 0x1000)
  else if 0x40000000 ≤ a ∧ a < 0x48000000 then
    if (aliasAt a).isSome then .ram
    else if a / 0x1000 % 0x100 = 0x7F then
      match blockAt a with
      | some b => .evbuf b
      | none => .none
    else if 0x46402000 ≤ a ∧ a < 0x46404000 then .otp
    else if (regRow? a).isSome then .register
    else .none
  else .none

/-! ## The words that are no registers -/

/-- The bytes of an event as a record, with a sequence and word 11 (R418, R419). -/
def EvRec.bytes (e : EvRec) (seq : Nat) (cnt : Bool) (w11 : Nat) : List Nat :=
  bytesLE e.code 2 ++ bytesLE (b2n cnt * 32768 + e.sev % 8 * 4096 + e.src % 4096) 2 ++ bytesLE e.time 8 ++ bytesLE seq 4 ++
    (List.range 11).flatMap (fun i => bytesLE (e.words.getD i 0 % 2 ^ 32) 4) ++
    bytesLE (if cnt then w11 else e.words.getD 11 0 % 2 ^ 32) 4

/-- The event in entry i of a block's buffer; the circulating entries hold event number n in entry 16 + n mod 48 (R421). -/
def BlockBuf.entry (b : BlockBuf) (i : Nat) : Option EvRec :=
  if i < 16 then b.first[i]?
  else
    let j := i - 16
    let age := (b.total + 48 - 1 - j) % 48
    if b.circ.length ≤ age then none else b.circ[b.circ.length - 1 - age]?

/-- A word of a block's event buffer; an entry not in use reads 0. -/
def State.evWord (s : State) (src o : Nat) : Nat :=
  match (Tab.get {} s.led.bufs src).entry (o / 64) with
  | some e => ofBytesLE (((e.bytes 0 false 0).drop (o % 64)).take 4)
  | none => 0

/-- A byte of the OTP as it may be read: the device key and the provisioning keys read 0, so does what lies beyond the
map (R466). -/
def State.otpRead (s : State) (o : Nat) : Nat :=
  if (0x10 ≤ o ∧ o < 0x30) ∨ (0x2A0 ≤ o ∧ o < 0x2E0) ∨ 0x2E4 ≤ o then 0 else s.otpByte o

/-- A 32-bit word of memory. -/
def State.word (s : State) (a : Nat) : Nat := s.loadLE a 4

/-! ## What a read does -/

/-- The word a read returns: write-only fields read 0 (R3), reserved bits read 0 (R4). -/
def readMask (r : RegRow) (w : Word) : Word :=
  r.fields.foldl (fun acc f => if f.acc = .wo then acc else f.fld.put acc (f.fld.get w)) 0#32

/-- The register after a read: its RC fields are cleared (R3). -/
def readClear (r : RegRow) (w : Word) : Word :=
  r.fields.foldl (fun acc f => if f.acc = .rc then f.fld.put acc 0 else acc) w

/-- The drawn challenge: 16 bytes, free (R468). -/
def State.drawChallenge (s : State) : State :=
  let bs := (List.range 16).map (fun i => Config.freeWord (s.fresh + i) % 256)
  let s := { (s.drew 16) with boot := { s.boot with chal := some (bs, s.now) } }
  (List.range 4).foldl (fun s i =>
    s.setReg (PS_DBG_CHAL i) (BitVec.ofNat 32 (ofBytesLE ((bs.drop (4 * i)).take 4)))) s

/-- Whether a sediment cursor is reachable, past the newest record, or older than the oldest one: 0, 1, 2 (R429). -/
def cursorCase (c newest oldest : Nat) : Nat :=
  let m := 2 ^ 32
  let span := (newest + m - oldest) % m
  if (c + m - oldest) % m ≤ span then 0
  else
    let d := (c + m - newest) % m
    if 1 ≤ d ∧ d ≤ 2 ^ 31 then 1 else 2

/-- The address of the sediment slot that holds a reachable sequence. -/
def State.sedAddr (s : State) (q : Nat) : Nat :=
  let back := (s.led.seqNext + 2 ^ 32 - q) % 2 ^ 32
  0x04790000 + (s.led.sedSlot + 98304 - back % 98304) % 98304 * 64

/-- The address of the record at the cursor, and the machine with the cursor moved where it was lapped (R429). -/
def State.cursorRecord (s : State) : Option Nat × State :=
  let c := (s.reg LEDGER_CUR).toNat
  if s.rdB LEDGER_RSEL LEDGER_RSEL_AREA then
    (if c < s.rd LEDGER_STAT LEDGER_STAT_BEDN then some (0x04450000 + c * 64) else none, s)
  else if s.led.sedReach = 0 then (none, s)
  else
    match cursorCase c s.seqNew s.seqOld with
    | 0 => (some (s.sedAddr c), s)
    | 1 => (none, s)
    | _ =>
      (some (s.sedAddr s.seqOld),
        (s.setReg LEDGER_CUR (BitVec.ofNat 32 s.seqOld)).hit LEDGER_EVT LEDGER_EVT_LAPPED LEDGER_CNT LEDGER_CNT_LAPPEDN)

/-- A read of `LEDGER_WIN0` latches the record at the cursor (R429). -/
def State.winLatch (s : State) : State :=
  let r := s.cursorRecord
  let s := r.2
  let put := fun (s : State) (f : Nat → Word) =>
    (List.range 16).foldl (fun s i => s.setReg (LEDGER_WIN i) (f i)) s
  match r.1 with
  | some a => put { s with led := { s.led with winOk := true } } (fun i => BitVec.ofNat 32 (s.word (a + 4 * i)))
  | none => put { s with led := { s.led with winOk := false } } (fun _ => 0#32)

/-- A read of `LEDGER_WIN15` advances the cursor past the record latched (R429). -/
def State.winAdvance (s : State) : State :=
  if s.led.winOk then s.setReg LEDGER_CUR (BitVec.ofNat 32 ((s.reg LEDGER_CUR).toNat + 1)) else s

/-- What a read of a register does before the word is taken: a latch or a draw; how far a scrub pass has come is a free
value (R442: only its end is bounded). -/
def State.preRead (s : State) (a : Nat) : State :=
  if a = LEDGER_WIN 0 then s.winLatch
  else if a = PS_DBG_CHAL 0 then s.drawChallenge
  else if a = PS_MRAM_STAT then (s.drew 1).wr PS_MRAM_STAT PS_MRAM_STAT_SCRUBPOS (s.freeNat % 1024)
  else s

/-- The half of a pair that a read returns: a high word as its low word's read latched it (R173). -/
def State.pairView (s : State) (a : Nat) : Word :=
  match pairLow a with
  | some _ =>
    match Tab.get none s.fab.latch a with
    | some h => if inArray a (FB_PMON_CNTHI 0) 8 64 then FB_PMON_CNTHI_CNTHI.put (s.view a) (FB_PMON_CNTHI_CNTHI.get h) else h
    | none => s.view a
  | none => s.view a

/-- What a read does after the word is taken: RC fields cleared (R3), the high word of a pair latched (R173), the
ledger's cursor advanced (R429). -/
def State.postRead (s : State) (r : RegRow) (a : Nat) : State :=
  let s := s.setReg a (readClear r (s.reg a))
  let s := match pairHigh a with
    | some h => { s with fab := { s.fab with latch := Tab.set none s.fab.latch h (some (s.view h)) } }
    | none => s
  if a = LEDGER_WIN 15 then s.winAdvance else s

/-- A read of a register. -/
def State.regRead (s : State) (r : RegRow) (a : Nat) : Word × State :=
  let s := s.preRead a
  (readMask r (s.pairView a), s.postRead r a)

/-- Whether the unit that owns a register answers: a quarantined link engine and an isolated block do not (R14, R168). -/
def State.answers (s : State) (a : Nat) : Bool :=
  !(match blockAt a with
    | some b => Tab.get false s.fab.isolated b
    | none => false) &&
  (match engineOff a with
    | some (k, _) => (s.grain (engSrc k)).run != .quarantined
    | none => true)

/-- Whether the memory at an address answers: the local memories of an isolated block do not (R168). -/
def State.memAnswers (s : State) (a : Nat) : Bool :=
  match aliasAt a with
  | some (src, _) => !(Tab.get false s.fab.isolated (blockOf src))
  | none => true

/-- A 32-bit read of an aligned address of the shared address space: the word, none for an error response (R153, R158,
R515), and the machine after it. -/
def State.busRead (s : State) (a : Nat) : Option Nat × State :=
  if a % 4 ≠ 0 then (none, s)
  else
    match placeOf a with
    | .rom | .mram | .ram => (if s.sound a 4 && s.memAnswers a then some (s.word a) else none, s)
    | .evbuf src => (some (s.evWord src (a % 0x1000)), s)
    | .otp =>
      let o := a - 0x46402000
      (some (ofBytesLE ((List.range 4).map (fun i => s.otpRead (o + i)))), s)
    | .register =>
      if s.answers a then
        match regRow? a with
        | some r => let x := s.regRead r a; (some x.1.toNat, x.2)
        | none => (none, s)
      else (none, s)
    | .queue n off =>
      if ¬ s.rdB (FB_Q_CFG n) FB_Q_CFG_EN then (none, s)
      else if off = 8 then
        match s.qTake n with
        | some (d, s1) =>
          (some (d.toNat % 2 ^ 32), { s1 with fab := { s1.fab with
            getHi := Tab.set 0#32 s1.fab.getHi n (BitVec.ofNat 32 (d.toNat / 2 ^ 32)) } })
        | none => (some 0, { s with fab := { s.fab with getHi := Tab.set 0#32 s.fab.getHi n 0#32 } })
      else if off = 12 then (some (Tab.get 0#32 s.fab.getHi n).toNat, s)
      else (some 0, s)
    | .none => (none, s)

end Sys2Proof.Machine
end

