-- ==== Sys2Proof/Machine/LifeOps.lean ====
section
/-!
DEFINITION. What the rest of the part hands to the cell-lifetime store: extremes, trips, warnings and contactor events
(R433, R434).
-/

namespace Sys2Proof.Machine

/-- The deltas of the cell with a flat index. -/
def State.life (s : State) (f : Nat) : LifeCell := Tab.get {} s.led.cells f
/-- Those deltas changed by a function. -/
def State.updLife (s : State) (f : Nat) (g : LifeCell → LifeCell) : State :=
  { s with led := { s.led with cells := Tab.set {} s.led.cells f (g (s.life f)) } }

/-- The store runs, and its deltas are not frozen (R433, R437). -/
def State.lifeOn (s : State) : Bool := s.rdB LT_CTL LT_CTL_EN && !s.led.commit

/-- The string that a cell's charge comes from, by the map of its port; none on a ring or a port mapped to 15 (R433). -/
def lifeString (map0 map1 f : Nat) : Option Nat :=
  let p := f / 1152
  if 16 ≤ p then none
  else
    let m := (if p < 8 then map0 else map1) / 2 ^ (4 * (p % 8)) % 16
    if m < 12 then some m else none

/-- A batch takes up to 31 units from the cells that wait; the section record takes 13 (R435). -/
def State.startBatch (s : State) : State :=
  if s.led.batch.isSome ∨ s.led.commit ∨ Tab.get false s.fab.inReset 5 then s
  else
    let room := if s.led.secDirty then 18 else 31
    let cells := s.led.commitQ.take room
    if cells.isEmpty ∧ ¬ s.led.secDirty then s
    else { s with led := { s.led with
      batch := some (cells, s.led.secDirty), commitQ := s.led.commitQ.drop room, secDirty := false } }

/-- A cell is to be committed out of turn (R434). -/
def State.lifeCommit (s : State) (f : Nat) : State :=
  let inBatch : Bool := match s.led.batch with
    | some b => b.1.contains f
    | none => false
  if s.led.commitQ.contains f ∨ inBatch then s
  else (({ s with led := { s.led with commitQ := s.led.commitQ ++ [f] } } : State)).startBatch

/-- A contactor event commits the section record within 1 s (R434). -/
def State.lifeSection (s : State) : State :=
  if s.lifeOn then (({ s with led := { s.led with secDirty := true } } : State)).startBatch else s

/-- A valid voltage of a cell (R433): an extreme that moves commits the cell out of turn (R434). -/
def State.lifeVolt (s : State) (f v : Nat) : State :=
  let x := s.life f
  if ¬ s.lifeOn ∨ ¬ x.used ∨ v = 0xFFFF then s
  else if x.vmax < v ∨ v < x.vmin then
    (s.updLife f (fun x => { x with vmax := Nat.max x.vmax v, vmin := Nat.min x.vmin v })).lifeCommit f
  else s

/-- A trip (sources 0 and 1) or a warning (source 2) that carries a flat index (R433); a trip count that rises commits the
cell out of turn (R434). -/
def State.lifeVerdict (s : State) (src f : Nat) : State :=
  let x := s.life f
  if ¬ s.lifeOn ∨ ¬ x.used then s
  else if src < 2 then (s.updLife f (fun x => { x with trips := satAdd x.trips 1 65535 })).lifeCommit f
  else s.updLife f (fun x => { x with warns := satAdd x.warns 1 65535 })

/-- The temperature bin and the SOC bin of the codes of a state block (R432): 0.01 °C and 0.01 %. -/
def tempBin (t : Int) : Nat :=
  if t < -1000 then 0 else if t < 0 then 1 else if t < 1000 then 2 else if t < 2000 then 3 else if t < 3000 then 4
  else if t < 4000 then 5 else if t < 5000 then 6 else 7
def socBin (c : Nat) : Nat := if c < 2000 then 0 else if c < 5000 then 1 else if c < 8000 then 2 else 3

/-- Whether a temperature or an SOC lies more than 1 °C or 1 % past a boundary of the bin held at the last commit. -/
def pastTemp (b : Nat) (t : Int) : Bool :=
  tempBin (t - 101) > b || decide (tempBin (t + 100) < b)
def pastSoc (b c : Nat) : Bool := decide (socBin (c - 101) > b) || decide (socBin (c + 100) < b)

end Sys2Proof.Machine
end

