-- ==== Sys2Proof/Machine/LedgerOps.lean ====
section
/-!
DEFINITION. The ledger engine: event buffers, token buckets, the writing of records, register snapshots, and the change
log (R420 to R430).
-/

namespace Sys2Proof.Machine

/-! ## MRAM as PS writes it -/

/-- PS is in reset (R17, R18). -/
def State.psReset (s : State) : Bool := Tab.get false s.fab.inReset 5

/-- Bytes written to MRAM by PS: the words written are sound again (R158). -/
def State.mramWrite (s : State) (a : Nat) (bs : List Nat) : State :=
  let s := s.storeBytes a bs
  let s := (List.range ((bs.length + 7) / 8)).foldl (fun s i => s.setPoison (a + 8 * i) false) s
  s.count 0x3D2 ((bs.length + 7) / 8)

/-! ## Spare rows (R441) -/

/-- The 1 KB row of an MRAM address. -/
def mramRow (a : Nat) : Nat := (a - 0x04000000) / 1024

/-- A row is remapped to the next spare row, which takes its contents (R441); with none left it stays. -/
def State.remapRow (s : State) (row : Nat) : State :=
  let used := s.led.remap.length
  if 440 ≤ used then s
  else
    let s := { s with led := { s.led with remap := Tab.set 0 s.led.remap (row + 16384 * used) (used + 1) } }
    let s := (s.hit PS_MRAM_EVT PS_MRAM_EVT_REMAP PS_MRAM_CNT PS_MRAM_CNT_REMAPN).raise srcMram EV_MRAM_REMAP [row]
    let s := s.wr PS_MRAM_STAT PS_MRAM_STAT_SPARES (used + 1)
    if 396 ≤ used + 1 ∧ ¬ s.led.spareLow then
      ({ s with led := { s.led with spareLow := true } }).raise srcMram EV_MRAM_SPARE_LOW [used + 1]
    else s

/-! ## Block buffers (R421) -/

/-- An entry put into the circulating part; the oldest is overwritten when 48 are held, and is lost when it was not yet
forwarded and its severity is not 0. -/
def BlockBuf.push (b : BlockBuf) (e : EvRec) : BlockBuf × Bool :=
  let first := if b.first.length < 16 then b.first ++ [e] else b.first
  let circ := b.circ ++ [e]
  let above := if circ.length ≤ 48 then none else circ.head?
  let lost : Bool := match above with
    | some o => b.unsent.contains o.ord && o.sev != 0
    | none => false
  let gone : Nat := match above with
    | some o => o.ord
    | none => 0
  let unsent := if above.isSome then b.unsent.filter (fun n => n != gone) else b.unsent
  ({ first := first, circ := if circ.length ≤ 48 then circ else circ.drop 1, total := b.total + 1,
     unsent := unsent ++ [e.ord], above := if lost then satAdd b.above 1 1023 else b.above }, lost)

/-- An event in the order of raising. -/
def insertEv (e : EvRec) : List EvRec → List EvRec
  | [] => [e]
  | x :: xs => if e.ord < x.ord then e :: x :: xs else x :: insertEv e xs

/-- A block takes every entry of its grains' stacks, in order of raising (R420). -/
def State.collect (s : State) (blk : Nat) : State :=
  let mine := s.led.pile.filter (fun p => blockOf p.1 == blk)
  let evs := mine.foldl (fun acc p => p.2.foldl (fun acc e => insertEv e acc) acc) []
  let s := mine.foldl (fun s p => { s with led := { s.led with pile := Tab.set [] s.led.pile p.1 [] } }) s
  evs.foldl (fun s e =>
    let r := (Tab.get {} s.led.bufs blk).push e
    let s := { s with led := { s.led with bufs := Tab.set {} s.led.bufs blk r.1 } }
    if r.2 then s.hit LEDGER_EVT LEDGER_EVT_LOST LEDGER_CNT LEDGER_CNT_LOSTN else s) s

/-! ## Token buckets (R422) -/

/-- Rate and burst of a code: those of the first enabled `LEDGER_RLCn` that names it, else those of its severity. -/
def State.rateOf (s : State) (code sev : Nat) : Nat × Nat :=
  match (List.range 64).find? (fun n => s.rdB (LEDGER_RLC n) LEDGER_RLC_REN && s.rd (LEDGER_RLC n) LEDGER_RLC_CODE == code) with
  | some n => (s.rd (LEDGER_RLR n) LEDGER_RLR_RATE, s.rd (LEDGER_RLR n) LEDGER_RLR_BURST)
  | none => (s.rd (LEDGER_SEVR sev) LEDGER_SEVR_RATE, s.rd (LEDGER_SEVR sev) LEDGER_SEVR_BURST)

/-- Rate and burst of a bucket: the least among its codes. -/
def State.rateOfAll (s : State) : List (Nat × Nat) → Nat × Nat
  | [] => (0, 0)
  | [c] => s.rateOf c.1 c.2
  | c :: cs =>
    let a := s.rateOf c.1 c.2
    let b := s.rateOfAll cs
    (Nat.min a.1 b.1, Nat.min a.2 b.2)

/-- A token, in the unit of a bucket's level. -/
def token : Nat := 1000000000000

/-- The place of a code's bucket, and the machine in which it has one. -/
def State.bucketOf (s : State) (code sev : Nat) : Nat × State :=
  match s.led.buckets.findIdx? (fun b => b.codes.any (fun c => c.1 == code)) with
  | some i => (i, s)
  | none =>
    if s.led.buckets.length < 512 then
      let b : Bucket := { codes := [(code, sev)], level := (s.rateOf code sev).2 * token, stamp := s.now }
      (s.led.buckets.length, { s with led := { s.led with buckets := s.led.buckets ++ [b] } })
    else
      let bs := s.led.buckets.modify 511 (fun b => { b with codes := b.codes ++ [(code, sev)] })
      let s := { s with led := { s.led with buckets := bs } }
      if s.led.bucketFull then (511, s)
      else (511, ({ s with led := { s.led with bucketFull := true } }).raise srcLedger EV_LED_REFUSED [code])

/-- Whether an event of a code passes its bucket, and the machine after it took its token. -/
def State.bucketPass (s : State) (code sev : Nat) : Bool × State :=
  if sev = 6 ∨ code / 256 = 0x51 then (true, s)
  else
    let r := s.bucketOf code sev
    let s := r.2
    match s.led.buckets[r.1]? with
    | none => (true, s)
    | some b =>
      let q := s.rateOfAll b.codes
      let level := Nat.min (q.2 * token) (b.level + q.1 * (s.now - b.stamp))
      let pass := decide (token ≤ level)
      let b := { b with level := if pass then level - token else level, stamp := s.now }
      (pass, { s with led := { s.led with buckets := s.led.buckets.set r.1 b } })

/-! ## Persisting (R418, R419, R423) -/

/-- The counts due on the next record of a code from a grain (R419). -/
def State.countsDue (s : State) (e : EvRec) : Nat × Nat × Nat :=
  (Tab.get 0 s.led.supp e.code, Tab.get 0 s.led.drops e.src, (Tab.get {} s.led.bufs (blockOf e.src)).above)

/-- Those counts restart from 0 once they have ridden. -/
def State.countsRode (s : State) (e : EvRec) : State :=
  let blk := blockOf e.src
  { s with led := { s.led with
    supp := Tab.set 0 s.led.supp e.code 0, drops := Tab.set 0 s.led.drops e.src 0,
    bufs := Tab.set {} s.led.bufs blk { Tab.get {} s.led.bufs blk with above := 0 } } }

/-- One record written with the next sequence into the next sediment slot, and into the next bedrock slot while the
section is commissioned and the bedrock has room (R423, R426). -/
def State.writeRecord (s : State) (e : EvRec) : State :=
  let seq := s.led.seqNext
  let d := s.countsDue e
  let cnt := decide (e.code ≠ EV_LED_SNAP ∧ (d.1 ≠ 0 ∨ d.2.1 ≠ 0 ∨ d.2.2 ≠ 0))
  let bs := e.bytes seq cnt (d.1 * 2 ^ 20 + d.2.1 * 1024 + d.2.2)
  let s := if cnt then s.countsRode e else s
  let s := s.mramWrite (0x04790000 + s.led.sedSlot * 64) bs
  let bed := s.rd LEDGER_STAT LEDGER_STAT_BEDN
  let s := if s.commissioned ∧ bed < 4096 then
      (s.mramWrite (0x04450000 + bed * 64) bs).wr LEDGER_STAT LEDGER_STAT_BEDN (bed + 1)
    else s
  let s := { s with led := { s.led with
    seqNext := (seq + 1) % 2 ^ 32, sedSlot := (s.led.sedSlot + 1) % 98304,
    sedReach := Nat.min (s.led.sedReach + 1) 98304, wearCount := s.led.wearCount + 1,
    commitRecs := s.led.commitRecs + b2n s.led.commit,
    archBusy := match s.led.archBusy with
      | some (t, k, none) => if e.code = EV_WIN_FREEZE then some (t, k, some seq) else s.led.archBusy
      | x => x } }
  s.count 0x3D0 1

/-- The source of register snapshot set k (R428). -/
def snapSrc (k : Nat) : Nat := if k < 8 then 0x5C0 + k else 0x5D0 + (k - 8)

/-- The words listed by snapshot set k, read in order up to the first address 0; a read that gets an error response
gives 0 (R428). -/
def State.snapWords (s : State) (k : Nat) : Nat → Nat → List Nat × State
  | 0, _ => ([], s)
  | n + 1, j =>
    let a := (s.reg (LEDGER_SNAPA k j)).toNat
    if a = 0 then ([], s)
    else
      let r := s.busRead a
      let rest := r.2.snapWords k n (j + 1)
      (r.1.getD 0 :: rest.1, rest.2)

/-- Set k persists its snapshot (R428). -/
def State.snapshot (s : State) (k : Nat) : State :=
  let r := s.snapWords k 12 0
  let s := r.2
  s.writeRecord { code := EV_LED_SNAP, sev := eventSeverity EV_LED_SNAP, src := snapSrc k, time := s.ns, words := r.1, ord := 0 }

/-- One record persisted, and the snapshots it triggers (R423, R428). -/
def State.persist (s : State) (e : EvRec) : State :=
  let s := s.writeRecord e
  ((List.range 16).filter (fun k =>
    s.rdB (LEDGER_SNAPC k) LEDGER_SNAPC_SEN && s.rd (LEDGER_SNAPC k) LEDGER_SNAPC_SCODE == e.code)).foldl
    (fun s k => s.snapshot k) s

/-- An event of PS's own that it persists itself, with the sequence it gets. -/
def State.persistOwn (s : State) (src code : Nat) (words : List Nat) : State :=
  s.persist { code := code, sev := eventSeverity code, src := src, time := s.ns, words := words, ord := 0 }

/-! ## The engine's queue (R422, R424) -/

/-- The next entry of a block's buffer that may be forwarded: in commit mode only those of severity 4 or higher (R437). -/
def State.nextEntry (s : State) (blk : Nat) : Option EvRec :=
  let b := Tab.get {} s.led.bufs blk
  b.circ.find? (fun e => b.unsent.contains e.ord && (!s.led.commit || decide (4 ≤ e.sev)))

/-- An entry counts as forwarded. -/
def State.markSent (s : State) (blk : Nat) (e : EvRec) : State :=
  let b := Tab.get {} s.led.bufs blk
  { s with led := { s.led with bufs := Tab.set {} s.led.bufs blk { b with unsent := b.unsent.filter (fun n => n != e.ord) } } }

/-- The engine takes the next entry of a block: passed into the queue or suppressed; an entry of severity 0 stays in the
buffer unless `LDBG` is 1; while PS is in reset or the queue is full the entry waits (R421, R422, R424). -/
def State.receive (s : State) (blk : Nat) : State :=
  if s.psReset ∨ 512 ≤ s.led.queue.length ∨ s.led.commitDone.isSome then s
  else match s.nextEntry blk with
    | none => s
    | some e =>
      let s := s.markSent blk e
      if e.sev = 0 ∧ ¬ s.rdB LEDGER_CTL LEDGER_CTL_LDBG then s
      else
        let r := s.bucketPass e.code e.sev
        let s := r.2
        if r.1 then { s with led := { s.led with queue := s.led.queue ++ [e] } }
        else
          let s := { s with led := { s.led with
            supp := Tab.set 0 s.led.supp e.code (satAdd (Tab.get 0 s.led.supp e.code) 1 4095) } }
          (s.hit LEDGER_EVT LEDGER_EVT_SUPPR LEDGER_CNT LEDGER_CNT_SUPPRN).count 0x3D1 1

/-- The oldest queued record persisted. -/
def State.persistNext (s : State) : State :=
  match s.led.queue with
  | [] => s
  | e :: es => ({ s with led := { s.led with queue := es } }).persist e

/-- Every queued record persisted, in order. -/
def State.persistAll (s : State) : State := s.led.queue.foldl (fun s _ => s.persistNext) s

/-- Everything raised so far is collected, forwarded and persisted: the times of R420, R421 and R424 are shorter than
what follows (log 14). -/
def State.drainEvents (s : State) : State :=
  if s.psReset then s
  else
    let s := s.led.pile.foldl (fun s p => s.collect (blockOf p.1)) s
    let s := s.led.bufs.foldl (fun s p => p.2.unsent.foldl (fun s _ => (s.receive p.1).persistAll) s) s
    s.persistAll

/-! ## The change log (R430) -/

/-- A change-log entry and its EV_LED_CFG_WRITE: the address, its old and new value, the writer, the password slot used
(0xFF for a sealed write), and whether it was an MRAM store. -/
def State.changeLog (s : State) (a old new src slot : Nat) (mram : Bool) : State :=
  let cseq := s.led.chgSeq
  let rseq := s.led.seqNext
  let bs := bytesLE cseq 4 ++ bytesLE rseq 4 ++ bytesLE s.ns 8 ++ bytesLE a 4 ++ bytesLE old 4 ++ bytesLE new 4 ++
    bytesLE src 2 ++ [slot, b2n mram]
  let s := s.mramWrite (0x04420000 + s.led.chgNext * 32) bs
  let s := { s with led := { s.led with chgSeq := (cseq + 1) % 2 ^ 32, chgNext := (s.led.chgNext + 1) % 4096 } }
  s.persistOwn srcLedger EV_LED_CFG_WRITE [rseq, a, old, new, src, slot]

/-! ## The section record (R426, R432) -/

/-- Bytes 0 to 1,551 of the section record with one span replaced, and their CRC. -/
def State.sectionWrite (s : State) (o : Nat) (bs : List Nat) : State :=
  let old := s.loadBytes 0x04718000 1552
  let body := old.take o ++ bs ++ old.drop (o + bs.length)
  s.mramWrite 0x04718000 (body ++ bytesLE (crc32c body) 4)

/-- The section record is sound: its CRC matches. -/
def State.sectionOk (s : State) : Bool :=
  ofBytesLE (s.loadBytes (0x04718000 + 1552) 4) == crc32c (s.loadBytes 0x04718000 1552)

end Sys2Proof.Machine
end

