-- ==== Sys2Proof/Machine/LifeStore.lean ====
section
/-!
DEFINITION. The cell-lifetime store: cell records, the section record, commits in batches, node swaps, the power-fail
journal (R432 to R438).
-/

namespace Sys2Proof.Machine

/-! ## Cell records (R432) -/

/-- The address of the record of a flat index. -/
def cellAddr (f : Nat) : Nat := 0x04490000 + f * 128

/-- A record of 124 bytes with its CRC. -/
def withCrc (bs : List Nat) : List Nat := bs ++ bytesLE (crc32c bs) 4

/-- A number of `n` bytes at an offset of a record. -/
def leField (bs : List Nat) (o n : Nat) : Nat := ofBytesLE ((bs.drop o).take n)

/-- Bytes replaced at an offset of a record. -/
def putField (bs : List Nat) (o : Nat) (v : List Nat) : List Nat := bs.take o ++ v ++ bs.drop (o + v.length)

/-- The CRC of a cell record holds and no word of it is poisoned (R432, R443). -/
def State.recOk (s : State) (a : Nat) : Bool :=
  let bs := s.loadBytes a 128
  (leField bs 124 4 == crc32c (bs.take 124)) && (List.range 16).all (fun i => s.sound (a + 8 * i) 8)

/-- The record of a flat index is sound and in use. -/
def State.recUsed (s : State) (f : Nat) : Bool := s.recOk (cellAddr f) && bit (s.byte (cellAddr f + 11)).toNat 0

/-- The serial that the record of a flat index holds; 0 where it is not in use. -/
def State.recSerial (s : State) (f : Nat) : Nat := if s.recUsed f then s.loadLE (cellAddr f) 8 else 0

/-- A new record: the extremes hold no value yet, the model values are NaN (R436). -/
def newRecord (serial f flags since : Nat) : List Nat :=
  withCrc (bytesLE serial 8 ++ bytesLE f 2 ++ [f % 18, flags] ++ bytesLE 0 4 ++ bytesLE since 4 ++ bytesLE 0 4 ++
    List.replicate 60 0 ++ bytesLE 0 2 ++ bytesLE 0xFFFF 2 ++ bytesLE 0x8000 2 ++ bytesLE 0x7FFF 2 ++
    (List.replicate 5 (bytesLE 0x7FC00000 4)).flatten ++ bytesLE 0 4 ++ bytesLE 0 8)

/-- Chip time in s. -/
def State.secs (s : State) : Nat := s.ns / 1000000000 % 2 ^ 32

/-- The cells in use, counted (R432). -/
def State.useSync (s : State) : State :=
  s.wr LT_STAT LT_STAT_INUSE ((s.led.cells.filter (fun p => p.2.used)).length)

/-- A record whose CRC fails, or that holds a poisoned word, is replaced by a new one with history lost (R443). -/
def State.cellLost (s : State) (f : Nat) : State :=
  let base := f - f % 18
  let other := (List.range 18).findSome? (fun c => if s.recUsed (base + c) then some (s.recSerial (base + c)) else none)
  let s := s.mramWrite (cellAddr f) (newRecord (other.getD 0) f 3 s.secs)
  let s := s.updLife f (fun _ => { used := true })
  (s.raise srcBoot EV_LT_LOST [f]).useSync

/-! ## Charge (R433, R434) -/

/-- An integral in half mA·ns as mAs. -/
def mas (x : Nat) : Nat := x / 2000000000

/-- The charge, mAs, that a commit adds to a cell: between the previous references of its string and the present ones,
unless it was already committed at these (R434). -/
def State.chargeDue (s : State) (f : Nat) : Nat × Nat :=
  match lifeString (s.reg LT_MAP0).toNat (s.reg LT_MAP1).toNat f with
  | none => (0, 0)
  | some r =>
    if (s.life f).fresh then (0, 0)
    else (mas (Tab.get 0 s.led.rIn r) - mas (Tab.get 0 s.led.rInPrev r),
          mas (Tab.get 0 s.led.rOut r) - mas (Tab.get 0 s.led.rOutPrev r))

/-- Seconds gathered in a bin. -/
def binSecs (t : Tab Nat) (b : Nat) : Nat := Tab.get 0 t b / 1000000000
/-- What stays in the bins after whole seconds were committed. -/
def binRest (t : Tab Nat) : Tab Nat := t.foldl (fun acc p => Tab.set 0 acc p.1 (p.2 % 1000000000)) []

/-- The image of a cell's record after a commit (R432, R434). -/
def State.cellImage (s : State) (f : Nat) : List Nat :=
  let r := s.loadBytes (cellAddr f) 128
  let x := s.life f
  let d := s.chargeDue f
  let add := fun (o n k : Nat) => bytesLE (leField r o n + k) n
  let sat := fun (a b : Nat) => satAdd a b 65535
  withCrc (r.take 12 ++ add 12 4 1 ++ (r.drop 16).take 4 ++ bytesLE s.secs 4 ++
    add 24 4 ((d.1 + x.carryIn) / 36000) ++ add 28 4 ((d.2 + x.carryOut) / 36000) ++ add 32 4 (x.bal / 1000) ++
    (List.range 8).flatMap (fun b => add (36 + 4 * b) 4 (binSecs x.tbins b)) ++
    (List.range 4).flatMap (fun b => add (68 + 4 * b) 4 (binSecs x.sbins b)) ++
    bytesLE x.vmax 2 ++ bytesLE x.vmin 2 ++ bytesLE (wrapInt x.tmax 16) 2 ++ bytesLE (wrapInt x.tmin 16) 2 ++
    (if x.model.isEmpty then (r.drop 92).take 20 else x.model.flatMap (fun w => bytesLE w 4)) ++
    bytesLE (sat (leField r 112 2) x.trips) 2 ++ bytesLE (sat (leField r 114 2) x.warns) 2 ++ (r.drop 116).take 8)

/-- The deltas of a cell after a commit: the remainders stay (R434). -/
def State.cellDone (s : State) (f : Nat) : State :=
  let d := s.chargeDue f
  s.updLife f (fun x => { x with
    carryIn := (d.1 + x.carryIn) % 36000, carryOut := (d.2 + x.carryOut) % 36000, bal := x.bal % 1000,
    tbins := binRest x.tbins, sbins := binRest x.sbins, tbinC := x.tbin, sbinC := x.sbin, trips := 0, warns := 0,
    model := [], fresh := true })

/-! ## The section record (R432) -/

/-- The widths of the fields of a contactor's wear record (R144). -/
def wearWidths : List Nat := [4, 4, 4, 4, 4, 4, 4, 2, 2]

/-- The wear record of contactor n. -/
def State.wearBytes (s : State) (n : Nat) : List Nat :=
  (wearWidths.zipIdx).flatMap (fun p => bytesLE (Tab.get 0 s.trip.wear (n * 16 + p.2)) p.1)

/-- Which contactors of a string are closed: bit 0 positive, bit 1 negative; and the larger current of its paths. -/
def State.stringLoad (s : State) (r : Nat) : Nat × Int :=
  let x := Tab.get {} s.trip.str r
  let cfb := s.rd PW_CFB_STAT PW_CFB_STAT_CLOSED
  (bits cfb (2 * r + 1) (2 * r), if x.iS.natAbs < x.iP.natAbs then x.iP else x.iS)

/-- The first 1,552 bytes of the section record as a commit writes them. -/
def State.sectionImage (s : State) : List Nat :=
  let old := s.loadBytes 0x04718000 1552
  let ok := s.sectionOk
  let keep := fun (o n : Nat) => if ok then leField old o n else 0
  (List.range 24).flatMap s.wearBytes ++
    (List.range 12).flatMap (fun r =>
      bytesLE (wrapInt (s.stringLoad r).2 32) 4 ++ [(s.stringLoad r).1] ++ List.replicate 59 0) ++
    bytesLE (keep 1536 8) 8 ++ bytesLE (keep 1544 4 + 1) 4 ++ bytesLE (keep 1548 4) 4

/-- The section record written. -/
def State.sectionCommit (s : State) : State := s.mramWrite 0x04718000 (withCrc s.sectionImage)

/-! ## Batches (R435) -/

/-- The address of redo slot r. -/
def redoAddr (r : Nat) : Nat := 0x04742000 + r * 0x1000

/-- The units of a batch: addresses and images. -/
def State.batchUnits (s : State) (b : List Nat × Bool) : List (Nat × List Nat) :=
  b.1.map (fun f => (cellAddr f, s.cellImage f)) ++
    (if b.2 then
      let im := withCrc s.sectionImage ++ List.replicate 108 0
      (List.range 13).map (fun i => (0x04718000 + i * 128, (im.drop (i * 128)).take 128))
    else [])

/-- Step 1: images and header in the redo slot; its W0, the magic and slot sequence, is written last. -/
def State.redoWrite (s : State) (units : List (Nat × List Nat)) : State :=
  let a := redoAddr s.led.redoNext
  let s := s.mramWrite a (List.replicate 8 255)
  let s := s.mramWrite (a + 8) (bytesLE units.length 4 ++
    (units.flatMap (fun (u : Nat × List Nat) => bytesLE ((u.1 - 0x04490000) / 128) 2) ++ List.replicate 116 0).take 116)
  let s := (units.zipIdx).foldl (fun (s : State) (u : (Nat × List Nat) × Nat) => s.mramWrite (a + 128 + 128 * u.2) u.1.2) s
  s.mramWrite a (bytesLE 0x52454431 4 ++ bytesLE s.led.redoSeq 4)

/-- Steps 2 and 3: images in place, the slot invalidated, the next slot next. -/
def State.redoApply (s : State) (units : List (Nat × List Nat)) : State :=
  let s := units.foldl (fun s u => s.mramWrite u.1 u.2) s
  let s := s.mramWrite (redoAddr s.led.redoNext) (List.replicate 8 255)
  { s with led := { s.led with redoNext := (s.led.redoNext + 1) % 48, redoSeq := (s.led.redoSeq + 1) % 2 ^ 32 } }

/-- Before a commit every cell of the batch whose record is lost is replaced (R443). -/
def State.mendBatch (s : State) (b : List Nat × Bool) : State :=
  b.1.foldl (fun s f => if s.recOk (cellAddr f) then s else s.cellLost f) s

/-- A batch completes, and the next one begins. -/
def State.batchDone (s : State) : State :=
  match s.led.batch with
  | none => s
  | some b =>
    let s := s.mendBatch b
    let units := s.batchUnits b
    let s := (s.redoWrite units).redoApply units
    let s := b.1.foldl (fun s f => s.cellDone f) s
    ({ s with led := { s.led with batch := none } }).startBatch

/-- A pass begins: every string takes its references, every cell in use waits for its commit, the section record too
(R434). -/
def State.rollStart (s : State) : State :=
  let used := (s.led.cells.filter (fun p => p.2.used)).map (fun p => p.1)
  let str := fun f => lifeString (s.reg LT_MAP0).toNat (s.reg LT_MAP1).toNat f
  let order := (List.range 12).flatMap (fun r => used.filter (fun f => str f == some r)) ++
    used.filter (fun f => str f == none)
  let s := { s with led := { s.led with
    rInPrev := s.led.rIn, rOutPrev := s.led.rOut, rIn := s.led.aIn, rOut := s.led.aOut, rollAt := s.now } }
  let s := used.foldl (fun s f => s.updLife f (fun x => { x with fresh := false })) s
  ({ s with led := { s.led with commitQ := order, secDirty := true } }).startBatch

/-! ## New cells (R436) -/

/-- The retired copy of a cell's record, and EV_LT_RETIRE with the values the ring keeps. -/
def State.retire (s : State) (f : Nat) : State :=
  let r := s.loadBytes (cellAddr f) 128
  let w := fun (o n : Nat) => leField r o n
  let seq := s.led.seqNext
  let s := s.mramWrite (0x04772000 + s.led.retNext * 128)
    (withCrc (r.take 116 ++ bytesLE s.secs 4 ++ bytesLE seq 4))
  let s := { s with led := { s.led with retNext := (s.led.retNext + 1) % 960 } }
  s.persistOwn srcBoot EV_LT_RETIRE
    [w 0 4, w 4 4, w 8 2 + w 10 1 * 65536, w 16 4, w 24 4, w 28 4, w 32 4, w 84 4, w 88 4, w 92 4]

/-- The cells of a node become new cells: the records in use are retired, and the populated cells get new ones. -/
def State.lifeNode (s : State) (p q : Nat) : State :=
  let base := p * 1152 + (q - 1) * 18
  let ser := s.nodeSerial p q
  let n := if s.nodeType p q = 1 then s.nodeCells p q else 0
  let s := (List.range 18).foldl (fun s c => if s.recUsed (base + c) then s.retire (base + c) else s) s
  let s := (List.range 18).foldl (fun s c =>
    if c < n then
      (s.mramWrite (cellAddr (base + c)) (newRecord ser (base + c) 1 s.secs)).updLife (base + c) (fun _ => { used := true })
    else if s.recUsed (base + c) then
      (s.mramWrite (cellAddr (base + c)) (newRecord 0 (base + c) 0 0)).updLife (base + c) (fun _ => {})
    else s) s
  (s.raise srcBoot EV_LT_NEW [base]).useSync

/-- The serial held for a position: the engine's, else the lifetime store's (R71). -/
def State.heldSerial (s : State) (p q : Nat) : Nat :=
  let e := s.nodeSerial p q
  if e ≠ 0 then e
  else
    let base := p * 1152 + (q - 1) * 18
    ((List.range 18).findSome? (fun c => if s.recUsed (base + c) then some (s.recSerial (base + c)) else none)).getD 0

/-- Enumeration keeps a serial: where the records of the position do not carry it, the store makes new cells, at once
while it runs, else when it starts (R71, R436). -/
def State.lifeSerial (s : State) (p q : Nat) : State :=
  let base := p * 1152 + (q - 1) * 18
  let n := if s.nodeType p q = 1 then s.nodeCells p q else 0
  let same := (List.range n).all (fun c => s.recUsed (base + c) && s.recSerial (base + c) == s.nodeSerial p q)
  if n = 0 ∨ same then s
  else if s.lifeOn then s.lifeNode p q
  else { s with lnk := { s.lnk with swaps := s.lnk.swaps.filter (fun x => x != (p, q)) ++ [(p, q)] } }

/-- The store starts: the nodes that waited get their new cells (R436). -/
def State.lifeStart (s : State) : State :=
  let s := s.lnk.swaps.foldl (fun s x => s.lifeNode x.1 x.2) s
  { s with lnk := { s.lnk with swaps := [] }, led := { s.led with rollAt := s.now } }

/-! ## State and model blocks (R433) -/

/-- Every cell that a block names is in use, and the block ends at or below flat index 20,735. -/
def State.blockOk (s : State) (first n : Nat) : Bool :=
  decide (first + n ≤ 20736) && (List.range n).all (fun i => (s.life (first + i)).used)

/-- One cell's part of a state block: SOC code, temperature code, balancing charge; the time since its previous block, at
most 10 s, goes to its present bins. -/
def State.stateCell (s : State) (f time soc : Nat) (temp : Int) (bal : Nat) : State :=
  let x := s.life f
  let dt := match x.lastBlock with
    | some t0 => Nat.min (time - t0) 10000000000
    | none => 0
  let tb := tempBin temp
  let sb := socBin soc
  let moved := decide (x.tmax < temp) || decide (temp < x.tmin) || pastTemp x.tbinC temp || pastSoc x.sbinC soc
  let s := s.updLife f (fun x => { x with
    bal := x.bal + bal, tbin := tb, sbin := sb, lastBlock := some time,
    tbins := Tab.set 0 x.tbins tb (Tab.get 0 x.tbins tb + dt), sbins := Tab.set 0 x.sbins sb (Tab.get 0 x.sbins sb + dt),
    tmax := if x.tmax < temp then temp else x.tmax, tmin := if temp < x.tmin then temp else x.tmin })
  if moved then s.lifeCommit f else s

/-- A block at an address, by its tag: 1 state, 2 model. -/
def State.lifeBlock (s : State) (a tag : Nat) : State :=
  let first := s.loadLE a 4
  let n := s.loadLE (a + 4) 4
  let time := s.loadLE (a + 8) 8
  if ¬ s.blockOk first n ∨ (tag ≠ 1 ∧ tag ≠ 2) then s.raise srcBoot EV_LT_INPUT [first, n, tag]
  else if tag = 1 then
    (List.range n).foldl (fun s i =>
      let c := a + 16 + 8 * i
      s.stateCell (first + i) time (s.loadLE c 2) (sext (s.loadLE (c + 2) 2) 16) (s.loadLE (c + 4) 4)) s
  else
    (List.range n).foldl (fun s i =>
      let c := a + 16 + 20 * i
      s.updLife (first + i) (fun x => { x with model := (List.range 5).map (fun j => s.loadLE (c + 4 * j) 4) })) s

/-- The store takes one descriptor from its queue and returns it. -/
def State.lifeInput (s : State) : State :=
  match s.qTake (s.rd LT_CTL LT_CTL_LTQ) with
  | none => s
  | some (d, s) =>
    let v := d.toNat
    let s := if v / 2 ^ 60 = 1 then s.lifeBlock (v % 2 ^ 32) (v / 2 ^ 32 % 65536)
      else s.raise srcBoot EV_LT_INPUT [v % 2 ^ 32, v / 2 ^ 32]
    s.qPutHw (s.rd LT_CTL LT_CTL_LTDONEQ) srcBoot d

end Sys2Proof.Machine
end

