-- ==== Sys2Proof/Machine/Journal.lean ====
section
/-!
DEFINITION. Commit mode at a power failure, the journal it leaves, and the recovery of PS at the next boot (R145, R206,
R437 to R440).
-/

namespace Sys2Proof.Machine

/-! ## Commit mode (R206, R437) -/

/-- Program stores not yet durable are discarded, the latest first; each raises the bus-error exception imprecisely, and a
`pfence` that waits for one completes with it (R206). -/
def State.discardStores (s : State) : State :=
  let lost := s.fab.mramPend
  let s := lost.reverse.foldl (fun s p => s.storeLE p.addr 4 p.old) s
  let s := lost.foldl (fun s p => s.updGrain p.src (fun g => { g with
    imprecise := g.imprecise ++ [(p.pc, p.addr)],
    wait := match g.wait with
      | .pfence none => .pfence (some p.addr)
      | w => w })) s
  { s with fab := { s.fab with mramPend := [] } }

/-- PS enters commit mode: what runs is frozen; a batch that has not reached its second step is abandoned (R437). -/
def State.commitEnter (s : State) : State :=
  let halt := (List.range 12).foldl (fun t r => Tab.set (0, 0) t r (s.stringLoad r)) []
  let now := s.now
  let map := ((s.reg LT_MAP0).toNat, (s.reg LT_MAP1).toNat)
  let s := s.discardStores
  { s with led := { s.led with
    commit := true, commitAt := now, commitRecs := 0, commitDone := none, halt := halt, haltMap := map, batch := none,
    archBusy := none } }

/-- The commit trigger t0: PS enters commit mode, after a PS reset in progress has completed (R18, R437). -/
def State.commitTrigger (s : State) : State :=
  if s.led.commit then s
  else if s.psReset then { s with led := { s.led with commitWait := true } }
  else s.commitEnter

/-! ## The journal (R437) -/

def journalBase : Nat := 0x04719000
def journalMagic : Nat := 0x4C4A4E31

/-- The entry of string r: integrals and references, mAs, contactor state and current at the halt. -/
def State.journalString (s : State) (r : Nat) : List Nat :=
  let v := fun (t : Tab Nat) => bytesLE (mas (Tab.get 0 t r)) 8
  let h := Tab.get (0, 0) s.led.halt r
  v s.led.aIn ++ v s.led.aOut ++ v s.led.rIn ++ v s.led.rOut ++ v s.led.rInPrev ++ v s.led.rOutPrev ++
    bytesLE h.1 4 ++ bytesLE (wrapInt h.2 32) 4 ++ List.replicate 8 0

/-- The entry of cell f, 64 bits. -/
def State.journalCell (s : State) (f : Nat) : Nat :=
  let x := s.life f
  let last := s.loadLE (cellAddr f + 20) 4
  s.loadLE (cellAddr f + 12) 2 + b2n x.fresh * 2 ^ 16 + x.tbin % 8 * 2 ^ 17 + x.sbin % 4 * 2 ^ 20 +
    Nat.min (x.bal / 1000) 65535 * 2 ^ 32 + Nat.min (s.secs - last) 4095 * 2 ^ 48

/-- The journal written: trailer invalid first, header, strings and cells, trailer last. -/
def State.journalWrite (s : State) : State :=
  let seq := (s.led.jseq + 1) % 2 ^ 32
  let used := (s.led.cells.filter (fun p => p.2.used)).map (fun p => p.1)
  let w0 := bytesLE journalMagic 4 ++ bytesLE seq 4
  let s := s.mramWrite (journalBase + 167872) (List.replicate 8 255)
  let s := s.mramWrite journalBase (w0 ++ bytesLE (s.led.commitAt / 1000) 8 ++ bytesLE used.length 4 ++ bytesLE 0 4 ++
    List.replicate 4 255 ++ List.replicate 36 0)
  let s := (List.range 12).foldl (fun s r => s.mramWrite (journalBase + 64 + r * 64) (s.journalString r)) s
  let s := used.foldl (fun s f => s.mramWrite (journalBase + 832 + f * 8) (bytesLE (s.journalCell f) 8)) s
  let s := s.mramWrite (journalBase + 167872) (w0 ++ List.replicate 56 0)
  { s with led := { s.led with jseq := seq, jpend := true } }

/-- Entries left in block buffers. -/
def State.leftInBuffers (s : State) : Nat := s.led.bufs.foldl (fun n p => n + p.2.unsent.length) 0

/-- Commit mode runs to its end: queued records, the journal unless one is pending, EV_LED_PF_COMMIT (R437, R438). -/
def State.commitFinish (s : State) : State :=
  let s := s.persistAll
  let had := s.led.jpend
  let s := if had then s else s.journalWrite
  let s := s.persistOwn srcLedger EV_LED_PF_COMMIT [s.led.jseq, s.led.commitRecs, s.leftInBuffers, b2n (!had)]
  let now := s.now
  { s with led := { s.led with commitDone := some now } }

/-- Before a chip reset with power present PS completes the step it is writing and closes the session word; a commit mode
in force keeps it open (R438). -/
def State.psClose (s : State) : State :=
  if s.psReset ∨ s.led.commit then s
  else
    let s := match s.led.batch with
      | some b => let s := s.mendBatch b; s.redoWrite (s.batchUnits b)
      | none => s
    s.mramWrite 0x04718800 (bytesLE 0 8)

/-! ## Recovery at boot (R440) -/

/-- The redo slot with a valid W0. -/
def State.redoFind (s : State) : Option Nat := (List.range 48).find? (fun r => s.loadLE (redoAddr r) 4 == 0x52454431)

/-- Step 2: the images of a redo slot written into place, and the slot invalidated. -/
def State.redoRecover (s : State) : State × Nat :=
  match s.redoFind with
  | none => (s, 0)
  | some r =>
    let a := redoAddr r
    let n := Nat.min 31 (s.loadLE (a + 8) 4)
    let s := (List.range n).foldl (fun s i =>
      s.mramWrite (0x04490000 + s.loadLE (a + 12 + 2 * i) 2 * 128) (s.loadBytes (a + 128 + 128 * i) 128)) s
    (s.mramWrite a (List.replicate 8 255), 1)

/-- A slot of 64 bytes, or a change-log entry of 32, is valid: its validity word is not all ones and no word of it is
poisoned (R418, R430, R443). -/
def State.slotValid (s : State) (a n w : Nat) : Bool :=
  (s.loadLE (a + w) 8 != 2 ^ 64 - 1) && (List.range (n / 8)).all (fun i => s.sound (a + 8 * i) 8)

/-- Step 3: the head of an area of `k` slots: a valid slot whose next slot is invalid or does not hold its sequence + 1. -/
def State.headOf (s : State) (base k n w sq : Nat) : Option Nat :=
  (List.range k).find? (fun i =>
    let a := base + i * n
    let b := base + (i + 1) % k * n
    s.slotValid a n w && (!s.slotValid b n w || s.loadLE (b + sq) 4 != (s.loadLE (a + sq) 4 + 1) % 2 ^ 32))

/-- Records that can be reached going back from the head: sequences that fall by one, as far as the latest
EV_LED_SED_CLEAR (R427, R429). -/
def State.reachBack (s : State) (i seq : Nat) : Nat → Nat
  | 0 => 0
  | n + 1 =>
    let a := 0x04790000 + i * 64
    if s.slotValid a 64 8 && s.loadLE (a + 12) 4 == seq then
      if s.loadLE a 2 = EV_LED_SED_CLEAR then 1
      else 1 + s.reachBack ((i + 98303) % 98304) ((seq + 2 ^ 32 - 1) % 2 ^ 32) n
    else 0

/-- The heads of the bedrock, the sediment and the change log (R440). -/
def State.findHeads (s : State) : State :=
  let bed := ((List.range 4096).find? (fun i => !s.slotValid (0x04450000 + i * 64) 64 8)).getD 4096
  let s := s.wr LEDGER_STAT LEDGER_STAT_BEDN bed
  let s := match s.headOf 0x04790000 98304 64 8 12 with
    | some i =>
      let seq := s.loadLE (0x04790000 + i * 64 + 12) 4
      { s with led := { s.led with
        seqNext := (seq + 1) % 2 ^ 32, sedSlot := (i + 1) % 98304, sedReach := s.reachBack i seq 98304 } }
    | none => { s with led := { s.led with sedReach := 0, sedSlot := 0 } }
  match s.headOf 0x04420000 4096 32 0 0 with
  | some i => { s with led := { s.led with
      chgNext := (i + 1) % 4096, chgSeq := (s.loadLE (0x04420000 + i * 32) 4 + 1) % 2 ^ 32 } }
  | none => s

/-- The newest chip time found in the sediment, ns. -/
def State.newestTime (s : State) : Nat :=
  (List.range s.led.sedReach).foldl (fun m i =>
    Nat.max m (s.loadLE (0x04790000 + (s.led.sedSlot + 98304 - 1 - i) % 98304 * 64 + 4) 8)) 0

/-- The wear records and the cells in use, as MRAM holds them. -/
def State.lifeLoad (s : State) : State :=
  let offs := [0, 4, 8, 12, 16, 20, 24, 28, 30]
  let wear := if s.sectionOk then
      (List.range 24).foldl (fun t n => ((offs.zip wearWidths).zipIdx).foldl (fun t p =>
        Tab.set 0 t (n * 16 + p.2) (s.loadLE (0x04718000 + n * 32 + p.1.1) p.1.2)) t) []
    else []
  let s := { s with trip := { s.trip with wear := wear } }
  let bad := (List.range 20736).filter (fun f => bit (s.byte (cellAddr f + 11)).toNat 0 && s.loadLE (cellAddr f) 8 != 2 ^ 64 - 1
    && !s.recOk (cellAddr f))
  let s := bad.foldl (fun s f => s.cellLost f) s
  let used := (List.range 20736).filter s.recUsed
  let s := used.foldl (fun s f =>
    let r := s.loadBytes (cellAddr f) 128
    s.updLife f (fun x => { x with
      used := true, vmax := leField r 84 2, vmin := leField r 86 2, tmax := sext (leField r 88 2) 16,
      tmin := sext (leField r 90 2) 16 })) s
  s.useSync

/-- One contactor drop inferred, under load or at zero current (R145): fields 1 zero-current openings, 2 openings under
load, 4 drops, 5 largest current, 6 sum of currents. -/
def State.lossInfer (s : State) (n : Nat) (complete : Bool) (i : Nat) : State :=
  let add := fun (s : State) (f k : Nat) =>
    { s with trip := { s.trip with wear := Tab.set 0 s.trip.wear (n * 16 + f) (Tab.get 0 s.trip.wear (n * 16 + f) + k) } }
  let s := add s 4 1
  if complete then
    if i < s.rd PW_TRIP_CFG PW_TRIP_CFG_IZERO * 100 then add s 1 1 else s
  else
    let s := add (add s 2 1) 6 (i / 1000)
    { s with trip := { s.trip with wear := Tab.set 0 s.trip.wear (n * 16 + 5) (Nat.max i (Tab.get 0 s.trip.wear (n * 16 + 5))) } }

/-- An opening of contactor n held through R151 counts as under load, without a current (R151). -/
def State.heldOpening (s : State) (n : Nat) : State :=
  { s with trip := { s.trip with wear := Tab.set 0 s.trip.wear (n * 16 + 2) (Tab.get 0 s.trip.wear (n * 16 + 2) + 1) } }

/-- The contactor inference of R145 over the strings recorded closed: mask of closed contactors and current, mA. -/
def State.inferAll (s : State) (complete : Bool) (rec_ : Nat → Nat × Int) : State :=
  (List.range 12).foldl (fun s r =>
    let x := rec_ r
    if x.1 % 4 = 0 then s
    else
      let s := if bit x.1 0 then s.lossInfer (2 * r) complete x.2.natAbs else s
      let s := if bit x.1 1 then s.lossInfer (2 * r + 1) complete x.2.natAbs else s
      s.raise srcTrip EV_CON_LOSS_INFER [r, wrapInt x.2 32]) s

/-- A cell entry of the journal applied to its record when the commit counts match (R440). -/
def State.applyCell (s : State) (f : Nat) : State :=
  let e := s.loadLE (journalBase + 832 + f * 8) 8
  let r := s.loadBytes (cellAddr f) 128
  if leField r 12 2 ≠ e % 65536 then s
  else
    let str := lifeString s.led.haltMap.1 s.led.haltMap.2 f
    let at_ := fun (k : Nat) => match str with
      | some n => s.loadLE (journalBase + 64 + n * 64 + 8 * k) 8
      | none => 0
    let fresh := bit e 16
    let dIn := (at_ 0 - (if fresh then at_ 2 else at_ 4)) / 36000
    let dOut := (at_ 1 - (if fresh then at_ 3 else at_ 5)) / 36000
    let tb := bits e 19 17
    let sb := bits e 21 20
    let add := fun (bs : List Nat) (o n k : Nat) => putField bs o (bytesLE (leField bs o n + k) n)
    let r := add r 12 4 1
    let r := putField r 20 (bytesLE s.secs 4)
    let r := add (add (add r 24 4 dIn) 28 4 dOut) 32 4 (bits e 47 32)
    let r := add (add r (36 + 4 * tb) 4 (bits e 59 48)) (68 + 4 * sb) 4 (bits e 59 48)
    s.mramWrite (cellAddr f) (withCrc (r.take 124))

/-- Step 4: the outcome of the journal: 0 none, 1 applied, 2 torn, 3 missing (R440). -/
def State.journalRecover (s : State) : State × Nat :=
  let seq := s.loadLE (journalBase + 4) 4
  let pend := s.loadLE journalBase 4 == journalMagic && s.loadLE (journalBase + 24) 4 == 2 ^ 32 - 1
  let whole := s.loadLE (journalBase + 167872) 4 == journalMagic && s.loadLE (journalBase + 167876) 4 == seq
  let sec := fun (s : State) (j : Nat) =>
    s.mramWrite 0x04718000 (withCrc ((s.sectionImage.take 1548) ++ bytesLE j 4))
  if pend && whole then
    let used := (s.led.cells.filter (fun p => p.2.used)).map (fun p => p.1)
    let s := used.foldl (fun s f => s.applyCell f) s
    let h := fun r => (s.loadLE (journalBase + 64 + r * 64 + 48) 4, sext (s.loadLE (journalBase + 64 + r * 64 + 52) 4) 32)
    let s := s.inferAll true h
    let s := s.mramWrite (journalBase + 24) (bytesLE 0 4)
    let s := sec s seq
    (({ s with led := { s.led with jpend := false } }).raise srcBoot EV_LT_APPLY [seq], 1)
  else if pend ∨ s.loadLE 0x04718800 8 = 0x53455331 then
    let s := s.raise srcLedger EV_LED_TORN [seq]
    let h := fun r => (s.loadLE (0x04718000 + 768 + r * 64 + 4) 1, sext (s.loadLE (0x04718000 + 768 + r * 64) 4) 32)
    let s := if s.sectionOk then s.inferAll false h else s
    let last := if s.sectionOk then s.loadLE (0x04718000 + 1548) 4 else 0
    let s := sec s last
    let s := if pend then s.mramWrite (journalBase + 24) (bytesLE 0 4) else s
    ({ s with led := { s.led with jpend := false } }, if pend then 2 else 3)
  else (s, 0)

/-- The steps of R440 in order: remap table, redo, heads, journal, session, boot record; then what the supervisor left for
PS to persist (R475, R480, R485). -/
def State.bootRecovery (s : State) : State :=
  let s := s.wr PS_MRAM_STAT PS_MRAM_STAT_SPARES s.led.remap.length
  let redo := s.redoRecover
  let s := (redo.1).findHeads
  let s := s.lifeLoad
  let s := if s.sv.drops = 0 then s else
    let s := (List.range 24).foldl (fun (s : State) n => if bit s.sv.drops (n / 2) then s.heldOpening n else s) s
    (({ s with led := { s.led with secDirty := true }, sv := { s.sv with drops := 0 } } : State)).startBatch
  let j := s.journalRecover
  let s := (j.1).mramWrite 0x04718800 (bytesLE 0x53455331 8)
  let newest := s.newestTime
  let s := s.persistOwn srcLedger EV_LED_BOOT
    [newest % 2 ^ 32, newest / 2 ^ 32, s.ns % 2 ^ 32, s.ns / 2 ^ 32, j.2 + b2n (decide (s.ns < newest)) * 2 ^ 31, redo.2]
  let s := match s.sv.owedReset with
    | some (c, p) => s.persistOwn srcSV EV_SV_RESET [c, p]
    | none => s
  let s := match s.sv.owedHeld with
    | some n => s.persistOwn srcSV EV_SV_RESET_HELD [n, s.rd SV_RST_STAT SV_RST_STAT_GLITCHN]
    | none => s
  let s := if s.sv.owedRtc then s.persistOwn srcSV EV_SV_RTC_LOST [0] else s
  { s with sv := { s.sv with owedReset := none, owedHeld := none, owedRtc := false, powerLost := false } }

end Sys2Proof.Machine
end

