-- ==== Sys2Proof/Machine/Checker.lean ====
section
/-!
DEFINITION. The in-line limit checker, the sense-wire signature, the open-wire decision and group protection
(R98 to R102, R124 to R126, R137, R138, R519).
-/

namespace Sys2Proof.Machine

/-! ## Profiles (R124) -/

/-- Byte `off` of a limit profile as the checkers hold it for the present sweep (R124). -/
def State.profByte (s : State) (n off : Nat) : Nat :=
  (Tab.get 0#32 s.swp.profs (AQ_LIM_PROF n (off / 4))).toNat / 2 ^ (8 * (off % 4)) % 256
/-- A 16-bit profile field. -/
def State.prof16 (s : State) (n off : Nat) : Nat := s.profByte n off + 256 * s.profByte n (off + 1)
/-- A 32-bit profile field. -/
def State.prof32 (s : State) (n off : Nat) : Nat := (Tab.get 0#32 s.swp.profs (AQ_LIM_PROF n (off / 4))).toNat

/-- The profile of a position: its map entry's, or profile 0, whichever matches the node's type (R124). -/
def State.profileOf (s : State) (p q : Nat) : Option Nat :=
  let ty := s.nodeType p q
  let n := s.rd (AQ_NODE_LIM (eng0 p) q) AQ_NODE_LIM_PROF
  if s.profByte n 0 = ty ∧ ty ≠ 0 then some n
  else if s.profByte 0 0 = ty ∧ ty ≠ 0 then some 0
  else none

/-! ## Comparisons (R126) -/

/-- One comparison of a record: source, value index, whether the record violates it, how many consecutive records act,
the action and scope of the verdict, and the value. -/
structure Check where
  src : Nat
  idx : Nat
  viol : Bool
  pers : Nat
  act : Nat
  scope : Nat
  value : Nat
  deriving DecidableEq, Repr

/-- The persistence key of a comparison. -/
def Check.key (c : Check) : Nat := c.src * 256 + c.idx

/-- The action that a verdict calls for at the trip block: its own where the source's row takes it from the profile. -/
def State.verdictAct (s : State) (v : Verdict) : Nat :=
  let a := s.rd (PW_TRIP_SRC v.src) PW_TRIP_SRC_ACT
  if a = 7 then v.act else a

/-- The verdict of a comparison. -/
def Check.verdict (c : Check) (s : State) (p q : Nat) (on : Bool) : Verdict :=
  { src := c.src, key := verdictKey p q c.idx, on := on, act := c.act, scope := c.scope,
    native := s.nativeString p q,
    cause :=
      if c.idx < 18 ∧ c.src ≤ 2 then p * 1152 + (q - 1) * 18 + c.idx
      else if c.src = 2 ∧ 32 ≤ c.idx ∧ c.idx < 50 then p * 1152 + (q - 1) * 18 + (c.idx - 32)
      else portPos p q,
    value := c.value }

/-- Whether a verdict carries a flat cell index. -/
def cellVerdict (v : Verdict) : Bool :=
  decide (v.src ≤ 2 ∧ v.key % 256 < 18) || decide (v.src = 2 ∧ 32 ≤ v.key % 256 ∧ v.key % 256 < 50)

/-- One comparison applied: the count of consecutive violations, the source's activity, and the verdict it sends, if it
changes (R126, R519). -/
def Pos.check (x : Pos) (c : Check) : Pos × Option Bool :=
  if c.viol then
    let n := satAdd (Tab.get 0 x.pers c.key) 1 255
    let x1 := { x with pers := Tab.set 0 x.pers c.key n }
    if c.pers ≤ n ∧ Tab.get false x.active c.key = false then
      ({ x1 with active := Tab.set false x1.active c.key true }, some true)
    else (x1, none)
  else
    let x1 := { x with pers := Tab.set 0 x.pers c.key 0 }
    if Tab.get false x.active c.key then ({ x1 with active := Tab.set false x1.active c.key false }, some false)
    else (x1, none)

/-- All comparisons of a record: the position's new state and the verdicts in the order of the comparisons. -/
def runChecks (s : State) (p q : Nat) : Pos → List Check → Pos × List Verdict
  | x, [] => (x, [])
  | x, c :: cs =>
    let r := x.check c
    let rest := runChecks s p q r.1 cs
    match r.2 with
    | none => rest
    | some on => (rest.1, c.verdict s p q on :: rest.2)

/-- Whether verdict `a` goes before `b` on VC0: the more severe action, then the wider scope; the earlier stays first
(R126). -/
def State.worse (s : State) (a b : Verdict) : Bool :=
  decide (s.verdictAct b < s.verdictAct a) || (s.verdictAct a == s.verdictAct b && decide (b.scope < a.scope))

/-- The raising verdict that goes on VC0, in front of the others (R126). -/
def State.vc0First (s : State) : List Verdict → List Verdict
  | [] => []
  | v :: vs =>
    match s.vc0First vs with
    | [] => [v]
    | w :: ws => if w.on && w.src != 2 && (!(v.on && v.src != 2) || s.worse w v) then w :: v :: ws else v :: w :: ws

/-- The comparisons of a record carried out, their verdicts sent (R126). -/
def State.applyChecks (s : State) (k p q : Nat) (cs : List Check) : State :=
  let r := runChecks s p q (s.pos p q) cs
  let s1 := s.updPos p q (fun _ => r.1)
  let vs := s1.vc0First r.2
  let s2 := vs.foldl (fun s v =>
    let s := if v.src = 2 ∧ v.on then s.raise (engSrc k) EV_LIM_WARN [portPos p q, v.value, v.cause] else s
    let s := if v.on ∧ cellVerdict v then s.lifeVerdict v.src v.cause else s
    s.verdict v) s1
  s2.count (0x380 + k * 4 + 3) (vs.filter (fun v => v.on)).length

/-! ## Broken lines and groups (R98, R137) -/

/-- The groups of cells next to broken or suspected lines: first cell, last cell, whether the run touches line 0 or the
top line (R137). -/
def brokenGroups (mask n : Nat) : Nat → Nat → Option Nat → List (Nat × Nat × Bool)
  | 0, _, _ => []
  | fuel + 1, k, run =>
    if k ≤ n ∧ bit mask k then brokenGroups mask n fuel (k + 1) (some (run.getD k))
    else
      match run with
      | some r => (r - 1, Nat.min (k - 1) (n - 1), decide (r = 0 ∨ k = n + 1)) :: brokenGroups mask n fuel (k + 1) none
      | none => brokenGroups mask n fuel (k + 1) none

/-- The cells' voltages in a cell record, as codes. -/
def crecCell (body : List Nat) (c : Nat) : Nat := beField body (7 + 2 * c) 2
/-- The stack-sum of a cell record, mV. -/
def crecStack (body : List Nat) : Nat := beField body 59 4
/-- The stack-sum tolerance in 1/200 of a cell voltage code: 0.05 % of the stack-sum plus RTOL (R98). -/
def State.stackTol200 (s : State) (stack : Nat) : Nat := stack + s.rd AQ_SWP_PLAUS AQ_SWP_PLAUS_RTOL * 2000

/-- Sum of a list of numbers. -/
def sumList (l : List Nat) : Nat := l.foldl (· + ·) 0

/-- The comparison of one group's sum with its bounds, in 1/200 of a cell voltage code (R137). -/
def State.groupCheck (s : State) (prof : Nat) (body : List Nat) (n : Nat) (g : Nat × Nat × Bool) : Check :=
  let cells := (List.range n).filter (fun c => decide (g.1 ≤ c ∧ c ≤ g.2.1))
  let others := (List.range n).filter (fun c => decide (c < g.1 ∨ g.2.1 < c))
  let cnt := cells.length
  let pairm := s.prof16 prof 20
  let tol : Int := if g.2.2 then s.stackTol200 (crecStack body) else 0
  let sum : Int := if g.2.2 then ((crecStack body * 10 : Nat) : Int) - sumList (others.map (crecCell body))
    else sumList (cells.map (crecCell body))
  let hi : Int := 200 * (cnt * s.prof16 prof 4 - (cnt - 1) * pairm : Int) - tol
  let lo : Int := 200 * (cnt * s.prof16 prof 6 + (cnt - 1) * pairm : Int) + tol
  { src := 8, idx := 128 + g.1, viol := decide (hi < 200 * sum ∨ 200 * sum < lo),
    pers := s.profByte prof 1 % 16, act := s.profByte prof 2 % 8, scope := s.profByte prof 2 / 16 % 4,
    value := sum.toNat }

/-- The lines next to which cells are protected in groups: the broken lines and the suspected inner ones (R98, R137). -/
def State.groupLines (s : State) (p q n : Nat) : Nat :=
  let inner := (s.pos p q).suspect
  let brk := s.rd (AQ_NODE_LIM (eng0 p) q) AQ_NODE_LIM_BRKL
  (List.range (n + 1)).foldl (fun m k =>
    if bit brk k || (bit inner k && decide (0 < k ∧ k < n)) then m + 2 ^ k else m) 0

/-- Groups that start or end group protection with this record: EV_LIM_GROUP, and source 8 cleared with an ended group
(R137, R152, R519). -/
def State.groupEvents (s : State) (k p q : Nat) : State :=
  let n := s.nodeCells p q
  let mask := s.groupLines p q n
  let old := brokenGroups (s.pos p q).grp n 20 0 none
  let new := brokenGroups mask n 20 0 none
  let s := (old.filter (fun g => !new.contains g)).foldl (fun s g =>
    let s := s.raise (engSrc k) EV_LIM_GROUP [portPos p q, g.1, 0]
    let key := 8 * 256 + 128 + g.1
    if Tab.get false (s.pos p q).active key then
      let s := s.updPos p q (fun x => { x with active := Tab.set false x.active key false, pers := Tab.set 0 x.pers key 0 })
      s.nodeSource 8 p q (128 + g.1) false
    else s) s
  let s := (new.filter (fun g => !old.contains g)).foldl (fun s g =>
    s.raise (engSrc k) EV_LIM_GROUP [portPos p q, g.1, 1]) s
  s.updPos p q (fun x => { x with grp := mask })

/-- The comparisons of a cell record (R126). -/
def State.cellChecks (s : State) (p q : Nat) (body : List Nat) : List Check :=
  let n := s.nodeCells p q
  let flags := beField body 5 2
  let owtAct := bit flags 1 || (s.pos p q).indet
  let fault : List Check := [{ src := 13, idx := 84, viol := bit flags 4, pers := 1, act := 7, scope := 3, value := flags }]
  match s.profileOf p q with
  | none => { src := 13, idx := 85, viol := true, pers := 1, act := 7, scope := 3, value := 0 } :: fault
  | some prof =>
    let tp := s.profByte prof 1 % 16
    let wp := s.profByte prof 1 / 16
    let av := s.profByte prof 2
    let at_ := s.profByte prof 3
    let wact := s.profByte prof 23 % 8
    let groups := brokenGroups (s.groupLines p q n) n 20 0 none
    let free := fun c => groups.all (fun g => decide (c < g.1 ∨ g.2.1 < c))
    let v := crecCell body
    let cellTrips : List Check := (List.range n).filterMap (fun c =>
      if owtAct then none
      else some (if v c = 0xFFFF then { src := 3, idx := 96 + c, viol := true, pers := 1, act := 7, scope := 3, value := 0xFFFF }
        else { src := 3, idx := 96 + c, viol := false, pers := 1, act := 7, scope := 3, value := v c }))
    let cells : List Check := (List.range n).flatMap (fun c =>
      if owtAct || !free c || v c == 0xFFFF then []
      else
        [{ src := 0, idx := c, viol := decide (s.prof16 prof 4 < v c ∨ v c < s.prof16 prof 6), pers := tp,
           act := av % 8, scope := av / 16 % 4, value := v c },
         { src := 2, idx := 32 + c, viol := decide (s.prof16 prof 8 < v c ∨ v c < s.prof16 prof 10), pers := wp,
           act := wact, scope := av / 16 % 4, value := v c }])
    let aux : List Check := (List.range 8).flatMap (fun a =>
      if bit (s.profByte prof 22) a ∧ a < (s.pos p q).auxN then
        let x := sext (beField body (43 + 2 * a) 2) 16
        let hot := beField body (43 + 2 * a) 2 == 0x7FFF
        let out := fun hi lo => hot || decide (sext (s.prof16 prof hi) 16 < x ∨ x < sext (s.prof16 prof lo) 16)
        [{ src := 1, idx := 64 + a, viol := out 12 14, pers := tp, act := at_ % 8, scope := at_ / 16 % 4,
           value := beField body (43 + 2 * a) 2 },
         { src := 2, idx := 72 + a, viol := out 16 18, pers := wp, act := wact, scope := at_ / 16 % 4,
           value := beField body (43 + 2 * a) 2 }]
      else [])
    let grp : List Check := if owtAct then [] else groups.map (s.groupCheck prof body n)
    { src := 13, idx := 85, viol := false, pers := 1, act := 7, scope := 3, value := 0 } :: fault ++
      cellTrips ++ cells ++ aux ++ grp

/-- The stream samples of a sense record, signed mA (R43). -/
def streamSamples (body : List Nat) : List Int :=
  (List.range (Nat.min 16 (beField body 30 1))).map (fun j => sext (beField body (32 + 4 * j) 4) 32)

/-- The comparisons of a string sense record; for the stream-only tag the stream alone (R126). -/
def State.stringChecks (s : State) (p q : Nat) (body : List Nat) (closed : Bool) : List Check :=
  let flags := beField body 5 2
  let only := beField body 3 2 == 0xFFFF
  match s.profileOf p q with
  | none => [{ src := 13, idx := 85, viol := true, pers := 1, act := 7, scope := 3, value := 0 }]
  | some prof =>
    let tp := s.profByte prof 1 % 16
    let av := s.profByte prof 2
    let at_ := s.profByte prof 3
    let ichg := sext (s.prof32 prof 12) 32
    let idis := sext (s.prof32 prof 16) 32
    let bad := (streamSamples body).any (fun x => decide (ichg < x ∨ x < -idis))
    let stream : List Check :=
      [{ src := 4, idx := 81, viol := bad, pers := tp, act := av % 8, scope := av / 16 % 4, value := 0 }]
    if only then stream
    else
      let v := sext (beField body 7 4) 32
      { src := 13, idx := 85, viol := false, pers := 1, act := 7, scope := 3, value := 0 } ::
      { src := 13, idx := 84, viol := bit flags 4, pers := 1, act := 7, scope := 3, value := flags } ::
      { src := 5, idx := 83, viol := !bit (beField body 19 1) 0, pers := 1, act := 7, scope := 3, value := 0 } ::
      (if closed then
        [{ src := 4, idx := 80,
           viol := decide (sext (s.prof32 prof 4) 32 < v ∨ v < sext (s.prof32 prof 8) 32), pers := tp,
           act := av % 8, scope := av / 16 % 4, value := beField body 7 4 }]
       else []) ++
      [{ src := 4, idx := 82, viol := decide (sext (s.prof16 prof 20) 16 < sext (beField body 20 2) 16), pers := tp,
         act := at_ % 8, scope := at_ / 16 % 4, value := beField body 20 2 }] ++ stream

/-- The comparisons of a bus sense record (R126). -/
def State.busChecks (s : State) (p q : Nat) (body : List Nat) : List Check :=
  let flags := beField body 5 2
  let only := beField body 3 2 == 0xFFFF
  match s.profileOf p q with
  | none => [{ src := 13, idx := 85, viol := true, pers := 1, act := 7, scope := 3, value := 0 }]
  | some prof =>
    let tp := s.profByte prof 1 % 16
    let av := s.profByte prof 2
    let at_ := s.profByte prof 3
    let ibus := sext (s.prof32 prof 12) 32
    let bad := (streamSamples body).any (fun x => decide (ibus < x ∨ x < -ibus))
    let stream : List Check :=
      [{ src := 6, idx := 81, viol := bad, pers := tp, act := av % 8, scope := 2, value := 0 }]
    if only then stream
    else
      let v := sext (beField body 7 4) 32
      let iso := beField body 19 1 % 4
      let riso := s.prof32 prof 16
      { src := 13, idx := 85, viol := false, pers := 1, act := 7, scope := 3, value := 0 } ::
      { src := 13, idx := 84, viol := bit flags 4, pers := 1, act := 7, scope := 3, value := flags } ::
      { src := 6, idx := 80, viol := decide (sext (s.prof32 prof 4) 32 < v ∨ v < sext (s.prof32 prof 8) 32),
        pers := tp, act := av % 8, scope := 2, value := beField body 7 4 } ::
      { src := 6, idx := 82, viol := decide (sext (s.prof16 prof 20) 16 < sext (beField body 20 2) 16), pers := tp,
        act := at_ % 8, scope := 2, value := beField body 20 2 } ::
      (if iso = 2 then
        [{ src := 7, idx := 86, viol := decide (beField body 11 4 < riso ∨ beField body 15 4 < riso), pers := tp,
           act := 7, scope := 3, value := beField body 11 4 }]
       else []) ++ stream

/-! ## The sense-wire signature (R98) -/

/-- Insertion into a rising list. -/
def insertUp (x : Nat) : List Nat → List Nat
  | [] => [x]
  | y :: ys => if x ≤ y then x :: y :: ys else y :: insertUp x ys

/-- Twice the median of a list. -/
def median2 (l : List Nat) : Nat :=
  let r := l.foldl (fun acc x => insertUp x acc) []
  let n := r.length
  if n = 0 then 0
  else if n % 2 = 1 then 2 * r.getD (n / 2) 0 else r.getD (n / 2 - 1) 0 + r.getD (n / 2) 0

/-- What the record shows: the stack-sum out of tolerance, the suspected inner lines, and the suspected end lines. -/
structure Signature where
  mismatch : Bool
  pairs : List Nat
  ends : List Nat
  deriving DecidableEq, Repr

/-- r = stack-sum − Σ V_c, in cell voltage codes. -/
def crecResidue (body : List Nat) (n : Nat) : Int :=
  ((crecStack body * 10 : Nat) : Int) - sumList ((List.range n).map (crecCell body))

/-- The pattern of a cell record (R98). -/
def State.signature (s : State) (body : List Nat) (n : Nat) : Signature :=
  let v := (List.range n).map (crecCell body)
  let m2 := median2 v
  let d2 : Nat → Int := fun c => 2 * (crecCell body c : Int) - m2
  let vdev : Int := 20 * s.rd AQ_SWP_PLAUS AQ_SWP_PLAUS_VDEV
  let vpair : Int := 20 * s.rd AQ_SWP_PLAUS AQ_SWP_PLAUS_VPAIR
  let off := fun c => decide (vdev < d2 c ∨ d2 c < -vdev)
  let r := crecResidue body n
  if s.stackTol200 (crecStack body) < (200 * r).natAbs then { mismatch := true, pairs := [], ends := [] }
  else
    let pair := fun c => decide (0 < c ∧ c < n) && off (c - 1) && off c &&
      decide (d2 (c - 1) * d2 c < 0 ∧ (d2 (c - 1) + d2 c).natAbs ≤ vpair.natAbs)
    let pairs := (List.range n).filter pair
    let e0 := if 0 < n ∧ off 0 ∧ ¬ pair 1 then [0] else []
    let en := if 1 < n ∧ off (n - 1) ∧ ¬ pair (n - 1) then [n] else []
    { mismatch := false, pairs := pairs, ends := e0 ++ en }

/-- Whether a record is tested (R98). -/
def signatureTested (body : List Nat) (n : Nat) : Bool :=
  let flags := beField body 5 2
  bit flags 3 && !bit flags 1 && (List.range n).all (fun c => crecCell body c != 0xFFFF)

/-- Counts of consecutive records per pattern: lines 0 to 18, and 63 for the mismatch. -/
def sigCount (sig : Signature) (t : Tab Nat) : Tab Nat :=
  (List.range 19 ++ [63]).foldl (fun t i =>
    let on := if i = 63 then sig.mismatch else sig.pairs.contains i || sig.ends.contains i
    Tab.set 0 t i (if on then satAdd (Tab.get 0 t i) 1 255 else 0)) t

/-- The signature test of an accepted cell record: a pattern that appears in PLSN consecutive records raises its verdict
(R98). -/
def State.signatureTest (s : State) (k p q : Nat) (body : List Nat) : State :=
  let n := s.nodeCells p q
  if ¬ signatureTested body n then s
  else
    let sig := s.signature body n
    let plsn := s.rd AQ_SWP_OWT AQ_SWP_OWT_PLSN
    let x := s.pos p q
    let cnt := sigCount sig x.sig
    let due := fun i => Tab.get 0 cnt i == plsn
    let s := s.updPos p q (fun x => { x with sig := cnt })
    let s := if sig.mismatch ∧ due 63 then
        s.raise (engSrc k) EV_SWP_SS_MISMATCH [portPos p q, wrapInt (crecResidue body n / 10) 32]
      else s
    let s := s.applyChecks k p q [{ src := 10, idx := 62, viol := sig.mismatch, pers := plsn, act := 7, scope := 3,
                                    value := crecStack body }]
    let s := sig.pairs.foldl (fun s c =>
      if due c ∧ ¬ bit (s.pos p q).suspect c then
        ((s.raise (engSrc k) EV_SWP_WIRE_SUSPECT [portPos p q, c]).updPos p q
          (fun x => { x with suspect := x.suspect + 2 ^ c })).updEng (eng0 p) (fun e => { e with owt := 1 })
      else s) s
    sig.ends.foldl (fun s c =>
      if due c ∧ ¬ bit (s.pos p q).suspect c then
        (s.updPos p q (fun x => { x with suspect := x.suspect + 2 ^ c })).updEng (eng0 p) (fun e => { e with owt := 1 })
      else s) s

/-! ## The open-wire decision (R99 to R102) -/

/-- The verdict of a line: some true broken, some false intact, none indeterminate (R101). -/
def owtLine (dv : Int) (n k : Nat) (delta : Nat → Int) : Option Bool :=
  let lower := if k = 0 then none else some (delta (k - 1))
  let upper := if k = n then none else some (delta k)
  let small := fun (x : Option Int) => match x with
    | none => true
    | some d => decide (2 * d < dv ∧ -dv < 2 * d)
  if small lower && small upper then some false
  else match lower, upper with
    | some a, some b => if a ≤ -dv ∧ dv ≤ b then some true else none
    | none, some b => if b ≤ -dv then some true else none
    | some a, none => if a ≤ -dv then some true else none
    | none, none => none

/-- Balancing stopped in a node by the engine's own BAL with timeout 0 (R138). -/
def State.balOffNode (s : State) (k p q : Nat) : State := s.engSend k (bodyBal (s.addrOf p q) 0 0)

/-- One line judged and acted on (R102). -/
def State.owtActLine (s : State) (k p q n : Nat) (body : List Nat) (line : Nat) : State :=
  let x := s.pos p q
  let dv : Int := 50 * s.rd AQ_SWP_PLAUS AQ_SWP_PLAUS_OWTDV
  let delta : Nat → Int := fun c => (crecCell body c : Int) - x.base.getD c 0
  match owtLine dv n line delta with
  | some true =>
    let a := AQ_NODE_LIM (eng0 p) q
    let s := s.wrBit a (8 + line) true
    let s := s.raise (engSrc k) EV_SWP_WIRE_BREAK [portPos p q, line]
    let s := s.nodeSource 9 p q 140 true
    (s.balOffNode k p q).updPos p q (fun x => { x with owtBad := true })
  | some false => s.updPos p q (fun x => { x with owtDone := if bit x.owtDone line then x.owtDone else x.owtDone + 2 ^ line })
  | none =>
    (s.raise (engSrc k) EV_SWP_OWT_INDET [portPos p q, line]).updPos p q
      (fun x => { x with owtBad := true, indet := true })

/-- The open-wire record of a sweep: each line that sank in it is judged; after the second sweep a node whose every line
is intact loses its suspicion, its broken lines and its source 9 (R101, R102, R138). -/
def State.owtDecide (s : State) (k p q : Nat) (body : List Nat) (mask : Nat) : State :=
  let n := s.nodeCells p q
  let sweepA := bit mask 1
  let s := if sweepA then s.updPos p q (fun x => { x with owtDone := 0, owtBad := false }) else s
  let s := ((List.range (n + 1)).filter (fun l => bit mask l)).foldl (fun s l => s.owtActLine k p q n body l) s
  let x := s.pos p q
  if ¬ sweepA ∧ ¬ x.owtBad ∧ x.owtDone = 2 ^ (n + 1) - 1 then
    let s := s.updPos p q (fun x => { x with suspect := 0, indet := false, sig := [] })
    if s.rd (AQ_NODE_LIM (eng0 p) q) AQ_NODE_LIM_BRKL = 0 then s
    else (s.wr (AQ_NODE_LIM (eng0 p) q) AQ_NODE_LIM_BRKL 0).nodeSource 9 p q 140 false
  else s

/-! ## The window entry (R103) -/

/-- The 40-byte window entry of a cell record. -/
def State.cellEntry (s : State) (p q : Nat) (body : List Nat) : List Nat :=
  let n := s.nodeCells p q
  let x := s.pos p q
  let brk := s.rd (AQ_NODE_LIM (eng0 p) q) AQ_NODE_LIM_BRKL
  let r := clampI (-32768) 32767 (crecResidue body n / 10)
  (List.range 18).flatMap (fun c => bytesLE (crecCell body c) 2) ++
    bytesLE (beField body 5 2 % 256 + 1024 * b2n (!s.nodeAuth p q) + 2048 * b2n (decide (x.suspect ≠ 0)) +
      4096 * b2n (decide (brk ≠ 0))) 2 ++ bytesLE (wrapInt r 16) 2

/-- The 40-byte window entry of a sense record. -/
def State.senseEntry (s : State) (p q : Nat) (body : List Nat) : List Nat :=
  let xs := streamSamples body
  let mn := xs.foldl (fun a b => if b < a then b else a) (xs.getD 0 0)
  let mx := xs.foldl (fun a b => if a < b then b else a) (xs.getD 0 0)
  let mean := if xs.length = 0 then 0 else (xs.foldl (· + ·) 0) / (xs.length : Int)
  (bytesLE (beField body 7 4) 4 ++ bytesLE (beField body 11 4) 4 ++ bytesLE (beField body 15 4) 4) ++
    [beField body 19 1, 0] ++ bytesLE (beField body 20 2) 2 ++
    bytesLE (wrapInt mn 32) 4 ++ bytesLE (wrapInt mx 32) 4 ++ bytesLE (wrapInt mean 32) 4 ++
    List.replicate 8 0 ++ bytesLE (beField body 5 2 % 256 + 1024 * b2n (!s.nodeAuth p q)) 2 ++ [0, 0]

end Sys2Proof.Machine
end

