-- ==== Sys2Proof/Machine/Trig.lean ====
section
/-!
DEFINITION. Cosine and sine of a fraction of a turn in fixed point, for the excitation and the correlator (log 8).
-/

namespace Sys2Proof.Machine

/-- One quarter turn, 2^40 times π/2. -/
def halfPi40 : Int := 1727108826179

/-- cos of an angle in the first quadrant, angle and value scaled by 2^40, by its Taylor polynomial to degree 14. -/
def cosQuad (a : Int) : Int :=
  let q : Int := 2 ^ 40
  let x2 := a * a / q
  let step := fun (acc : Int) (k : Int) => q - acc * x2 / q / k
  [182, 132, 90, 56, 30, 12, 2].foldl step q

/-- cos of the turn fraction n/d, scaled by 2^30. -/
def cosTurn (n d : Nat) : Int :=
  let f := 4 * (n % d)
  let quad := f / d
  let r := f % d
  let a := halfPi40 * (r : Int) / (d : Int)
  let c := cosQuad a / 1024
  let sn := cosQuad (halfPi40 - a) / 1024
  match quad with
  | 0 => c
  | 1 => -sn
  | 2 => -c
  | _ => sn

/-- sin of the turn fraction n/d, scaled by 2^30: the cosine a quarter turn earlier. -/
def sinTurn (n d : Nat) : Int := cosTurn (4 * n + 3 * d) (4 * d)

end Sys2Proof.Machine
end

