-- ==== Sys2Proof/Machine/RegOps.lean ====
section
/-!
DEFINITION. The regulator block's operations: modes, limits and ceilings, the bus loop, the share splitter, the phase
loops, the bus voltage link's responses (chapter 10).
-/

namespace Sys2Proof.Machine

/-- The sum of a list of integers, and of natural numbers. -/
def sumI (xs : List Int) : Int := xs.foldl (· + ·) 0
def sumN (xs : List Nat) : Nat := xs.foldl (· + ·) 0

/-- A quotient; by zero it is a free value (log 4). -/
def quot (a b : Int) : Int := if b = 0 then Config.quotientByZero a else a / b

/-! ## Access -/

/-- A string's regulator. -/
def State.rstr (s : State) (r : Nat) : RegStr := Tab.get {} s.regu.str r
def State.updRstr (s : State) (r : Nat) (f : RegStr → RegStr) : State :=
  { s with regu := { s.regu with str := Tab.set {} s.regu.str r (f (s.rstr r)) } }
/-- The phase at half-bridge n. -/
def State.phase (s : State) (n : Nat) : Phase := Tab.get {} s.regu.ph n
def State.updPhase (s : State) (n : Nat) (f : Phase → Phase) : State :=
  { s with regu := { s.regu with ph := Tab.set {} s.regu.ph n (f (s.phase n)) } }
/-- A string of the trip block. -/
def State.tstr (s : State) (r : Nat) : TripStr := Tab.get {} s.trip.str r
def State.updTstr (s : State) (r : Nat) (f : TripStr → TripStr) : State :=
  { s with trip := { s.trip with str := Tab.set {} s.trip.str r (f (s.tstr r)) } }

/-- The strings whose regulators exist (R271: EN). -/
def State.strings (s : State) : List Nat := (List.range 12).filter (fun r => s.sregEn r)

/-! ## Modes (R271) -/

def State.setMode (s : State) (r m : Nat) : State := s.wr (PW_SREG_STAT r) PW_SREG_STAT_MODE m

/-- Gates of a string's phases off by the regulator's enable. -/
def State.gatesOff (s : State) (r : Nat) : State := (s.hbsOf r).foldl (fun s n => s.driveHb n false false) s

/-- A regulator enters mode 1: its ceiling rises from zero (R271). -/
def State.enterRun (s : State) (r : Nat) : State :=
  (s.setMode r 1).updRstr r (fun x => { x with iref := 0, ceilAt := s.now, idles := false, lowN := 0, burst := false })

/-- A regulator enters mode 2: its reference falls from its present value (R271). -/
def State.enterRamp (s : State) (r : Nat) (idles : Bool) : State :=
  if s.sregMode r = 2 then s
  else (s.setMode r 2).updRstr r (fun x => { x with rampFrom := x.iref, rampAt := s.now, idles := idles })

/-- A regulator enters mode 0: gates off, no reference (R271). -/
def State.enterIdle (s : State) (r : Nat) : State :=
  if s.sregEn r then ((s.gatesOff r).setMode r 0).updRstr r (fun x => { x with iref := 0, idles := false, burst := false }) else s

/-- The value of a ramp now, mA (RSLOPE in A/ms, that is mA/µs). -/
def State.rampValue (s : State) (r : Nat) : Int :=
  let x := s.rstr r
  let drop : Int := s.rd PW_TRIP_CFG PW_TRIP_CFG_RSLOPE * ((s.now - x.rampAt) / us)
  if 0 ≤ x.rampFrom then (if x.rampFrom ≤ drop then 0 else x.rampFrom - drop)
  else (if -x.rampFrom ≤ drop then 0 else x.rampFrom + drop)

/-- A ramp ends: gates off, mode 0; whether the string idles of itself is kept (R271). -/
def State.rampDone (s : State) (r : Nat) : State :=
  ((s.gatesOff r).setMode r 0).updRstr r (fun x => { x with iref := 0, burst := false })

/-- The reference of a string in mode 2 follows its ramp, which ends at zero (R271). -/
def State.rampTick (s : State) (r : Nat) : State :=
  if s.sregMode r = 2 then
    let v := s.rampValue r
    if v = 0 then s.rampDone r else s.updRstr r (fun x => { x with iref := v })
  else s

/-! ## Phases and ceilings (R276, R299) -/

/-- Whether the phase in slot k of string r is active: not disabled, its half-bridge off or switching. -/
def State.phActive (s : State) (r k : Nat) : Bool :=
  decide (k < s.nph r) && !bit (s.rd (PW_SREG_STAT r) PW_SREG_STAT_PHFAIL) k && !s.faulted (s.slotHb r k) &&
    decide (s.hbState (s.slotHb r k) ≤ 2)

/-- The active phases of a string. -/
def State.nact (s : State) (r : Nat) : Nat := ((List.range 4).filter (fun k => s.phActive r k)).length

/-- NACT follows the phases. -/
def State.syncNact (s : State) (r : Nat) : State := s.wr (PW_SREG_STAT r) PW_SREG_STAT_NACT (s.nact r)

/-- A string's static limit, mA: ICHG or IDIS of its sense node's profile (R134); 0 where its sense node has no
profile (log 9). -/
def State.staticLimit (s : State) (r : Nat) (dis : Bool) : Nat :=
  let p := s.rd (AQ_CUR_SRC r) AQ_CUR_SRC_PORT
  let q := s.curPos r
  match s.profileOf p q with
  | some n => if s.profByte n 0 = 2 then s.prof32 n (if dis then 16 else 12) else 0
  | none => 0

/-- A string's limit in force, mA (R131, R134, R136). -/
def State.limitInForce (s : State) (r : Nat) (dis : Bool) : Nat :=
  let x := s.tstr r
  let st := s.staticLimit r dis
  let dyn := if x.dlimStale then st * s.rd PW_TRIP_LIM PW_TRIP_LIM_DLFALL / 100
    else if dis then x.dlimDis else x.dlimChg
  let lim := Nat.min dyn st
  if x.derate then lim * s.rd PW_TRIP_LIM PW_TRIP_LIM_DERPCT / 100 else lim

/-- A string's ceiling, string side, mA (R271, R276). -/
def State.ceilStr (s : State) (r : Nat) (dis : Bool) : Nat :=
  let rated := s.rd (PW_SREG_RAT r) PW_SREG_RAT_ISRAT * 100
  let full := Nat.min (s.limitInForce r dis) rated * s.nact r / s.nph r
  let rise := s.rd PW_TRIP_CFG PW_TRIP_CFG_RSLOPE * ((s.now - (s.rstr r).ceilAt) / us)
  if s.sregMode r = 1 then Nat.min full rise else full

/-- Conversion between string and bus terms by V_s / V_bus (R276). -/
def State.toBus (s : State) (r : Nat) (i : Int) : Int := quot (i * (s.tstr r).vStr) s.regu.vbus
def State.toString_ (s : State) (r : Nat) (i : Int) : Int := quot (i * s.regu.vbus) (s.tstr r).vStr

/-- The section's ceiling in a direction, bus side, mA: over the strings in mode 1 (R296). -/
def State.sectionCeil (s : State) (dis : Bool) : Nat :=
  sumN ((s.strings.filter (fun r => s.sregMode r = 1)).map (fun r => (s.toBus r (s.ceilStr r dis)).toNat))

/-! ## BVL_ALERT_N and responses (R291, R295, R296) -/

/-- BVL_ALERT_N follows its causes (R295). -/
def State.alertSync (s : State) : State :=
  let sev := (List.range 12).any (fun r => decide (2 ≤ (s.tstr r).act))
  s.wr PW_BVL_STAT PW_BVL_STAT_ALERT (b2n (s.regu.short || sev || s.regu.vbusFault || s.regu.fallback))

/-- A response queued by priority, in order of generation within it (R291). -/
def insertRsp (r : Nat × Nat × Nat) : List (Nat × Nat × Nat) → List (Nat × Nat × Nat)
  | [] => [r]
  | x :: xs => if r.1 < x.1 then r :: x :: xs else x :: insertRsp r xs

def State.respond (s : State) (prio ty payload : Nat) : State :=
  { s with regu := { s.regu with rsp := insertRsp (prio, ty, payload % 2 ^ 24) s.regu.rsp } }

/-- LIMD and LIMC queued with the ceilings of now (R279, R296). -/
def State.sendLimits (s : State) : State :=
  let d := s.sectionCeil true
  let c := s.sectionCeil false
  let s := { s with regu := { s.regu with limD := d, limC := c, limAt := s.now } }
  (s.respond 3 0x51 (d / 100)).respond 3 0x52 (c / 100)

/-- Whether a value moved by more than 1 % from the one last sent. -/
def moved1pct (new old : Nat) : Bool := decide (old < 100 * (if old ≤ new then new - old else old - new))

/-- LIMD and LIMC at a change of more than 1 % of either ceiling, while the link is enabled (R296). -/
def State.limitsOnChange (s : State) : State :=
  if s.rdB PW_BVL_CTL PW_BVL_CTL_EN ∧
      (moved1pct (s.sectionCeil true) s.regu.limD ∨ moved1pct (s.sectionCeil false) s.regu.limC) then s.sendLimits
  else s

/-! ## The bus loop and the splitter (R273, R274, R278, R279, R304) -/

/-- The bus target in force, µV: the VSET's, or VAUTO before any and in fallback with TOACT 0 (R274). -/
def State.busTarget (s : State) : Int :=
  let vauto := s.rd PW_BUS_VLIM PW_BUS_VLIM_VAUTO * 100000
  if ¬ s.regu.vsetEver ∨ (s.regu.fallback ∧ ¬ s.rdB PW_BUS_CFG PW_BUS_CFG_TOACT ∧ vauto ≠ 0) then vauto
  else s.regu.target * 50000

/-- The slew in force, µV per ps × 10^9, that is µV per ms: PSLEW until pre-charge is done (R274). -/
def State.busSlew (s : State) : Nat :=
  if s.trip.pch.step ≠ 0 ∨ ¬ (List.range 12).any (fun r => (s.tstr r).joined) then
    s.rd PW_PCH_RATE PW_PCH_RATE_PSLEW * 10000
  else if s.regu.fallback then s.rd PW_BUS_CFG PW_BUS_CFG_VSLEWDEF * 100000
  else s.regu.slew * 100000

/-- A value moved toward a target by at most a step. -/
def stepTo (x target step : Int) : Int :=
  if target < x then (if x - step ≤ target then target else x - step)
  else (if target ≤ x + step then target else x + step)

/-- p(t) of the excitation, mA: the envelope times the sum of the cosines (R304). -/
def State.excValue (s : State) : Int :=
  if ¬ s.rdB PW_EXC_CTL PW_EXC_CTL_XACT then 0
  else
    let ep := (s.reg PW_EXC_EPOCHLO).toNat + (s.reg PW_EXC_EPOCHHI).toNat * 2 ^ 32
    let t := s.ns
    if t < ep then 0
    else
      let ramp := s.rd PW_EXC_CTL PW_EXC_CTL_XRAMPT * 1000000
      let up := if ramp = 0 then (2 ^ 20 : Nat) else Nat.min (2 ^ 20) ((t - ep) * 2 ^ 20 / ramp)
      let env := match s.regu.excStop with
        | none => up
        | some st => if ramp = 0 then 0 else up - Nat.min up ((t - st) * 2 ^ 20 / ramp)
      let term := fun (k : Nat) =>
        let phi := s.rd (PW_EXC_FRQ k) PW_EXC_FRQ_XFRQ * ((t - ep) / 100) % 10 ^ 13
        (s.rd (PW_EXC_AMP k) PW_EXC_AMP_XAMP * 10 : Int) * cosTurn phi (10 ^ 13)
      let n := s.rd PW_EXC_CTL PW_EXC_CTL_XNF + 1
      (env : Int) * sumI ((List.range n).map term) / 2 ^ 50

/-- The excitation amplitude held back on the excited string, string side, mA (R278). -/
def State.excAmp (s : State) (r : Nat) : Nat :=
  if s.rdB PW_EXC_CTL PW_EXC_CTL_XACT ∧ s.rd PW_EXC_CTL PW_EXC_CTL_XSTR = r then
    sumN ((List.range (s.rd PW_EXC_CTL PW_EXC_CTL_XNF + 1)).map (fun k => s.rd (PW_EXC_AMP k) PW_EXC_AMP_XAMP * 10))
  else 0

/-- A string's weight for a direction, UQ4.12; 1.0 while stale (R277). -/
def State.weight (s : State) (r : Nat) (dis : Bool) : Nat :=
  if s.regu.weightsStale then 0x1000
  else s.rd (PW_SHW r) (if dis then PW_SHW_WDIS else PW_SHW_WCHG)

/-- The ceiling of a string in the splitter, bus side, mA (R278). -/
def State.splitCeil (s : State) (r : Nat) (dis : Bool) : Int :=
  s.toBus r ((s.ceilStr r dis : Int) - s.excAmp r)

/-- The loop of R278: shares by weight, strings at their ceilings taken out. -/
def splitLoop (w : Nat → Nat) (c : Nat → Int) (sign : Int) : Nat → List Nat → Int → List (Nat × Int) →
    List (Nat × Int) × List Nat × Int
  | 0, a, r, acc => (acc, a, r)
  | fuel + 1, a, r, acc =>
    let sum0 := sumN (a.map w)
    let w' := fun x => if sum0 = 0 then 1 else w x
    let sum := sumN (a.map w')
    let share := fun x => if sum = 0 then 0 else r * (w' x : Int) / (sum : Int)
    let above := a.filter (fun x => decide (c x < (share x).natAbs))
    if a.isEmpty then (acc, [], r)
    else if above.isEmpty then (acc ++ a.map (fun x => (x, share x)), a, 0)
    else
      let taken := above.map (fun x => (x, sign * c x))
      splitLoop w c sign fuel (a.filter (fun x => !above.contains x)) (r - sumI (taken.map (·.2))) (acc ++ taken)

/-- An excitation ends at once with a reason (R305). -/
def State.excEnd (s : State) (reason : Nat) : State :=
  if s.rdB PW_EXC_CTL PW_EXC_CTL_XACT then
    let s := (s.wr PW_EXC_CTL PW_EXC_CTL_XACT 0).wr PW_EXC_STAT PW_EXC_STAT_XEND reason
    let s := { s with regu := { s.regu with excStop := none, excShort := none, excP := 0 } }
    s.raise srcReg EV_REG_EXC_END [s.rd PW_EXC_CTL PW_EXC_CTL_XSTR, reason]
  else s

/-- The share splitter (R278, R279, R304). -/
def State.splitter (s : State) : State :=
  let s : State := s.strings.foldl (fun s r => s.rampTick r) s
  let run := s.strings.filter (fun r => s.sregMode r = 1 ∨ s.sregMode r = 5)
  let others := s.strings.filter (fun r => s.sregMode r = 2 ∨ s.sregMode r = 3 ∨ s.sregMode r = 4)
  let dis := decide (0 < s.regu.iTot)
  let r0 := s.regu.iTot + sumI (others.map (fun r => s.toBus r (s.rstr r).iref))
  let sign : Int := if r0 < 0 then -1 else 1
  let res := splitLoop (fun r => s.weight r dis) (fun r => s.splitCeil r dis) sign 13 run r0 []
  let short := res.2.1.isEmpty && decide (res.2.2 ≠ 0) && !run.isEmpty
  let p := s.excValue
  let xs := s.rd PW_EXC_CTL PW_EXC_CTL_XSTR
  let comp := run.filter (fun r => decide (r ≠ xs))
  let wsum := sumN (comp.map (fun r => s.weight r dis))
  let wt := fun r => if wsum = 0 then 1 else s.weight r dis
  let wtot := if wsum = 0 then comp.length else wsum
  let pBus := s.toBus xs p
  let shareOf : Nat → Int := fun r => ((res.1.find? (fun e => e.1 = r)).map (·.2)).getD 0
  let compOf : Nat → Int := fun r => if r = xs ∨ wtot = 0 then 0 else -(pBus * (wt r : Int) / (wtot : Int))
  let unplaced := decide (p ≠ 0) && comp.any (fun r => decide (s.splitCeil r dis < (shareOf r + compOf r).natAbs))
  let s : State := run.foldl (fun s r =>
    let share := shareOf r
    let add : Int := if r = xs then p else s.toString_ r (compOf r)
    let atc := decide ((s.splitCeil r dis).natAbs ≤ share.natAbs ∧ share ≠ 0)
    ((s.updRstr r (fun x => { x with iref := -(s.toString_ r share) + add })).wr (PW_SREG_STAT r) PW_SREG_STAT_ATCEIL
      (b2n atc))) s
  let since := if unplaced then some (s.regu.excShort.getD s.now) else none
  let s : State := { s with regu := { s.regu with excP := p, excShort := since } }
  let s : State := if s.rdB PW_EXC_CTL PW_EXC_CTL_XACT && comp.isEmpty then s.excEnd 3 else s
  let s := if short ∧ ¬ s.regu.short then
      let s := { s with regu := { s.regu with short := true } }
      ((s.hit PW_REG_EVT PW_REG_EVT_SHORTFALL PW_REG_CNT0 PW_REG_CNT0_SHORTFALLN).raise srcReg EV_REG_SHORTFALL
        [wrapInt res.2.2 32]).sendLimits
    else { s with regu := { s.regu with short := short } }
  (s.limitsOnChange).alertSync

/-- One run of the bus loop at a sample of VBSRC (R272 to R274): `v` in mV, `ts` in ps. -/
def State.busLoop (s : State) (v : Int) (ts : Nat) : State :=
  let active := s.strings.any (fun r => s.sregMode r = 1 ∨ s.sregMode r = 5)
  let s := { s with regu := { s.regu with vbus := v, vbusAt := some s.now } }
  if ¬ active then
    let s := { s with regu := { s.regu with running := false, x := 0, iTot := 0 } }
    (s.wr PW_BUS_STAT PW_BUS_STAT_VTGT (wrapInt (s.busTarget / 50000) 16)).splitter
  else
    let v0 := if s.regu.running then s.regu.vref else v * 1000
    let vref := stepTo v0 s.busTarget ((s.busSlew * ts / ms : Nat) : Int)
    let e := (vref - v * 1000) / 1000
    let kp := PW_BUS_KP_KPB.getS (s.reg PW_BUS_KP)
    let ki := PW_BUS_KI_KIB.getS (s.reg PW_BUS_KI)
    let iff := if s.regu.iffAt + 10 * ms ≤ s.now then 0 else s.regu.iff_
    let u := (kp * e + s.regu.x) / 65536 + iff
    let iTot := clampI (-(s.sectionCeil false : Int)) (s.sectionCeil true) u
    let x := if iTot = u ∨ (e < 0 ∧ 0 < u) ∨ (0 < e ∧ u < 0) then s.regu.x + ki * e * (ts : Int) / (ms : Int) else s.regu.x
    let s := { s with regu := { s.regu with running := true, vref := vref, x := x, iTot := iTot } }
    let s := s.wr PW_BUS_STAT PW_BUS_STAT_VTGT (wrapInt (s.busTarget / 50000) 16)
    let inBand := decide (vref = s.busTarget ∧
      (v * 1000 - s.busTarget).natAbs ≤ s.rd PW_BUS_SETTLE PW_BUS_SETTLE_VBAND * 100000)
    let s := { s with regu := { s.regu with settleAt := if inBand then some (s.regu.settleAt.getD s.now) else none } }
    (s.wr PW_BUS_STAT PW_BUS_STAT_VREF (wrapInt (vref / 50000) 16)).splitter

/-! ## Source faults and parking (R275, R300) -/

/-- The bus voltage source becomes faulty: strings in mode 1 idle, the alert, the event (R275). -/
def State.vbusFaulty (s : State) : State :=
  if s.regu.vbusFault then { s with regu := { s.regu with vbusSound := none } }
  else
    let s := { s with regu := { s.regu with vbusFault := true, vbusSound := none } }
    let s := (s.strings.filter (fun r => s.sregMode r = 1)).foldl (fun s r => s.enterRamp r true) s
    s.alertSync.raise srcReg EV_REG_VBUS_FAULT [s.rd PW_BUS_CFG PW_BUS_CFG_VBSRC]

/-- The park request of a string, trip source 24 (R300). -/
def State.parkRequest (s : State) (r : Nat) : State := s.stringSource 24 r (some r) true

/-- A phase is removed: its gates off, its bit in PHFAIL, the ceiling scaled; a second failure or none left asks for
parking (R299, R300). -/
def State.removePhase (s : State) (r k : Nat) : State :=
  let n := s.slotHb r k
  let before := s.rd (PW_SREG_STAT r) PW_SREG_STAT_PHFAIL
  let s := s.driveHb n false false
  let s := s.updPhase n (fun x => { x with decayAt := some s.now })
  let s := s.wr (PW_SREG_STAT r) PW_SREG_STAT_PHFAIL (if bit before k then before else before + 2 ^ k)
  let s := s.syncNact r
  let s := if s.nact r = 0 ∨ before ≠ 0 then s.parkRequest r else s
  s.limitsOnChange

/-- A phase's sense fails (R112, R298). -/
def State.phaseSenseFail (s : State) (n : Nat) : State :=
  if (s.phase n).senseFail then s
  else
    let s := s.updPhase n (fun x => { x with senseFail := true })
    let s := (s.hit PW_REG_EVT PW_REG_EVT_PHSENSE PW_REG_CNT0 PW_REG_CNT0_PHSENSEN).raise srcReg EV_REG_PHASE_SENSE [n]
    match s.stringOfHb n with
    | none => s
    | some r => match (List.range 4).find? (fun k => decide (k < s.nph r) && s.slotHb r k == n) with
      | none => s
      | some k => s.removePhase r k

/-- PSYNC_IN is reported lost while the tracker is not locked (R84, R286). -/
def State.psyncLost (s : State) : Bool := s.rd PW_SYNC_STAT PW_SYNC_STAT_SYNC != 2

end Sys2Proof.Machine
end

