-- ==== Sys2Proof/Machine/Regulators.lean ====
section
/-!
DEFINITION. The events of the regulators, the sync tracker, the bus voltage link and the excitation (chapter 10), and
the end of a stop.
-/

namespace Sys2Proof.Machine

/-! ## Idling and resuming (R275, R297) -/

/-- Whether the fallback of the link makes the strings idle (R297). -/
def State.fallbackIdles (s : State) : Bool :=
  s.regu.fallback && (s.rdB PW_BUS_CFG PW_BUS_CFG_TOACT || s.rd PW_BUS_VLIM PW_BUS_VLIM_VAUTO == 0)

/-- Whether a string's contactors are closed and its trip state is normal or derated (R271). -/
def State.canRun (s : State) (r : Nat) : Bool :=
  (s.tstr r).hc && ((s.tstr r).st == .normal || (s.tstr r).st == .derated) && s.sregEn r

/-- The strings that idle of themselves return to mode 1 once neither the bus source nor the link keeps them idle. -/
def State.resume (s : State) : State :=
  if s.regu.vbusFault || s.fallbackIdles then s
  else (s.strings.filter (fun r => (s.rstr r).idles && s.canRun r && (s.sregMode r == 0 || s.sregMode r == 2))).foldl
    (fun s r => s.enterRun r) s

/-- Every string in mode 1 ramps to zero and idles. -/
def State.idleAll (s : State) : State :=
  (s.strings.filter (fun r => s.sregMode r = 1)).foldl (fun s r => s.enterRamp r true) s

/-- No write of the weights for 100 ms: every weight counts as 1.0, once per episode (R277). -/
def execWeightsStale (s : State) (t : Nat) : Host.Outcome State Fault Refusal :=
  let s := s.at t
  if ¬ s.regu.weightsStale ∧ s.regu.weightsAt + 100 * ms ≤ s.now then
    let s := { s with regu := { s.regu with weightsStale := true } }
    .next ((s.hit PW_REG_EVT PW_REG_EVT_WSTALE PW_REG_CNT1 PW_REG_CNT1_WSTALEN).raise srcReg EV_REG_WEIGHTS_STALE [0])
  else .next s

/-- 100 ms of a sound bus voltage source: the strings return to mode 1 (R275). -/
def execVbusSourceRecover (s : State) (t : Nat) : Host.Outcome State Fault Refusal :=
  let s := s.at t
  match s.regu.vbusSound with
  | some t0 =>
    if s.regu.vbusFault ∧ t0 + 100 * ms ≤ s.now then
      let s := { s with regu := { s.regu with vbusFault := false, vbusSound := none } }
      .next (s.resume).alertSync
    else .next s
  | none => .next s

/-! ## The phase loop (R280 to R284, R298, R299) -/

/-- The firing order of a regulator: its active slots from the advanced position (R282). -/
def State.firing (s : State) (r : Nat) : List Nat :=
  let act := (List.range 4).filter (fun k => s.phActive r k)
  if act.isEmpty then [] else
    let n := (s.rstr r).rot % act.length
    act.drop n ++ act.take n

/-- The regulator's own judgement once per period: rotation (R282) and burst (R283). -/
def State.regPeriod (s : State) (r : Nat) : State :=
  let rotn := s.rd PW_PWM_TMIN PW_PWM_TMIN_ROTN
  let s := s.updRstr r (fun x =>
    if rotn = 0 then x
    else if rotn ≤ x.rotN + 1 then { x with rotN := 0, rot := (x.rot + 1) % 12 } else { x with rotN := x.rotN + 1 })
  let ib := s.rd (PW_SREG_RAT r) PW_SREG_RAT_IBURST * 100
  let on := s.rd PW_PWM_BURST PW_PWM_BURST_BURSTON
  let x := s.rstr r
  let mag := x.iref.natAbs
  let s :=
    if ¬ x.burst then
      let n := if ib ≠ 0 ∧ mag < ib then x.lowN + 1 else 0
      if 8 ≤ n then s.updRstr r (fun x => { x with lowN := 0, burst := true, burstN := on })
      else s.updRstr r (fun x => { x with lowN := n })
    else if ib = 0 ∨ 5 * ib ≤ 4 * mag then s.updRstr r (fun x => { x with burst := false, burstN := 0, lowN := 0 })
    else if x.burstN = 0 then
      (s.drew 1).updRstr r (fun x => { x with burstN := if s.freeNat % 2 = 1 then on else 0 })
    else s.updRstr r (fun x => { x with burstN := x.burstN - 1 })
  s.wr (PW_SREG_STAT r) PW_SREG_STAT_BURST (b2n (s.rstr r).burst)

/-- A carrier moved toward its place by at most 1/16 of a period (R282), in 1/3,072 of a period. -/
def carStep (x target : Nat) : Nat :=
  let up := (target + 3072 - x % 3072) % 3072
  if up = 0 then x % 3072
  else if up ≤ 1536 then (x + Nat.min up 192) % 3072
  else (x + 3072 - Nat.min (3072 - up) 192) % 3072

/-- The new duty of a phase and its integrator, in 2^-28 of a period (R280). -/
def State.phaseLoop (s : State) (r n : Nat) (i : Int) : State :=
  let vs := (s.tstr r).vStr
  let e := quot (s.rstr r).iref (s.nact r : Int) - i
  let dff := 2 ^ 28 - quot (vs * 2 ^ 28) s.regu.vbus
  let kpp := PW_SREG_KP_KPP.getS (s.reg (PW_SREG_KP r))
  let kip := PW_SREG_KI_KIP.getS (s.reg (PW_SREG_KI r))
  let dmin : Int := s.rd (PW_SREG_DLIM r) PW_SREG_DLIM_DMIN * 4096
  let dmax : Int := s.rd (PW_SREG_DLIM r) PW_SREG_DLIM_DMAX * 4096
  let p := s.phase n
  let inc := kip * e / 1000
  let held := (decide ((p.d : Int) * 16 ≤ dmin) && decide (0 < inc)) || (decide (dmax ≤ (p.d : Int) * 16) && decide (inc < 0))
  let x := if held then p.x else p.x + inc
  let d := clampI dmin dmax (dff - kpp * e / 1000 - x)
  let d24 := (d / 16).toNat
  let tmin := s.rd PW_PWM_TMIN PW_PWM_TMIN_TMINON * 2500
  let low := d24 * s.regu.tbPer / 2 ^ 24
  let only := if low < tmin then 1 else if s.regu.tbPer - low < tmin then 2 else 0
  s.updPhase n (fun p => { p with x := x, d := d24, only := only, refreshAt := if only = 1 then p.refreshAt else s.now })

/-- Whether a phase is open after this period, and the count of periods below 5 % of its share (R298). -/
def State.openCount (s : State) (r n : Nat) (i : Int) : Nat :=
  let share := (quot (s.rstr r).iref (s.nact r : Int)).natAbs
  let rat := s.rd (PW_SREG_RAT r) PW_SREG_RAT_ISRAT * 100
  if rat < 5 * share * s.nph r ∧ 20 * i.natAbs < share then (s.phase n).openN + 1 else 0

/-- A phase's mean current over a period, mA: the count of ones among `len` modulator bits with PGAIN and POFS (R111,
R280). -/
def State.phaseMean (s : State) (n ones len : Nat) : Int :=
  let g := PW_PH_GAIN_PGAIN.getS (s.reg (PW_PH_GAIN n))
  let o := PW_PH_OFS_POFS.getS (s.reg (PW_PH_OFS n))
  quot ((2 * (ones : Int) - len) * g) len - o

/-- A switching period of a phase starts (R280): the ramp, rotation and burst are judged, the carrier moves, the duty
for the next period is computed from the mean current of the period just ended, an open phase is removed. -/
def execPhasePeriodStart (s : State) (r : Fin 12) (slot : Fin 4) (ones len t : Nat) :
    Host.Outcome State Fault Refusal :=
  let s := (s.at t).rampTick r
  let n := s.slotHb r slot
  let m := s.sregMode r
  if ¬ s.sregEn r ∨ m = 0 ∨ m = 7 ∨ ¬ s.phActive r slot then .next s
  else
    let order := s.firing r
    let s := if ((List.range 4).filter (fun k => s.phActive r k)).head? = some slot.val then s.regPeriod r else s
    let place := s.rd (PW_SREG_CFG r) PW_SREG_CFG_CPH * 12 + order.idxOf slot.val * (3072 / order.length)
    let s := s.updPhase n (fun p => { p with car := carStep p.car (place % 3072) })
    let x := s.rstr r
    if x.burst ∧ x.burstN = 0 then .next (s.driveHb n false false)
    else if ¬ s.regulatorDrives n then .next s
    else
      let i := s.phaseMean n ones len
      let cnt := s.openCount r n i
      let s := (s.phaseLoop r n i).updPhase n (fun p => { p with openN := cnt })
      if 20 ≤ cnt then
        let s := s.updPhase n (fun p => { p with isOpen := true, openN := 0 })
        let s := (s.hit PW_REG_EVT PW_REG_EVT_PHOPEN PW_REG_CNT0 PW_REG_CNT0_PHOPENN).raise srcReg EV_REG_PHASE_OPEN [n]
        .next (s.removePhase r slot)
      else .next s

/-- 100 µs after its inhibit a removed phase counts as at zero current (R299). -/
def execPhaseDecayDone (s : State) (n : Fin 24) (t : Nat) : Host.Outcome State Fault Refusal :=
  let s := s.at t
  match (s.phase n).decayAt with
  | some t0 => .next (if t0 + 100 * us ≤ s.now then s.updPhase n (fun p => { p with decayAt := none }) else s)
  | none => .next s

/-- A refresh pulse of the low side, every TREFRESH while the gates are off in burst or in mode 0 with contactors
closed, and under no inhibit (R284). The end of the pulse is the next edge of the phase. -/
def execRefreshPulse (s : State) (n : Fin 24) (t : Nat) : Host.Outcome State Fault Refusal :=
  let s := (s.at t).settle n
  match s.stringOfHb n with
  | none => .next s
  | some r =>
    let x := s.rstr r
    let off := (x.burst && x.burstN == 0) || (s.sregMode r == 0 && (s.tstr r).hc)
    let due := (s.phase n).refreshAt + s.rd PW_PWM_BURST PW_PWM_BURST_TREFRESH * us
    if off && decide (due ≤ s.now) && s.regulatorDrives n then
      let now := s.now
      .next ((s.updPhase n (fun p => { p with refreshAt := now })).driveHb n true false)
    else .next s

/-- The delay line is recalibrated every 10 µs (R281). -/
def execDelayLineRecal (s : State) (t : Nat) : Host.Outcome State Fault Refusal :=
  let s := s.at t
  if s.regu.dlineAt + 10 * us ≤ s.now then .next { s with regu := { s.regu with dlineAt := s.now } } else .next s

/-! ## Tracking PSYNC_IN (R285 to R287) -/

def State.syncState (s : State) : Nat := s.rd PW_SYNC_STAT PW_SYNC_STAT_SYNC
def State.setSync (s : State) (v : Nat) : State := s.wr PW_SYNC_STAT PW_SYNC_STAT_SYNC v

/-- The measured carrier period, ps: the mean of the intervals held. -/
def State.carrierPer (s : State) : Nat :=
  let n := s.regu.psyncIv.length
  if n = 0 then 0 else sumN s.regu.psyncIv / n

/-- The period that the timebase moves toward: the carrier's in lock, the last one while holding, else PERNOM. -/
def State.tbGoal (s : State) : Nat :=
  let mul := s.rd PW_PWM_CFG PW_PWM_CFG_SYNCMUL
  if s.syncState = 2 ∧ mul ≠ 0 then s.carrierPer / mul
  else if s.syncState = 3 then s.regu.tbPer
  else s.rd PW_PWM_CFG PW_PWM_CFG_PERNOM * 2500

/-- The timebase brought up to now: whole switching periods pass, the period moves by at most 0.1 % of itself and the
phase by at most SYNCSTEP in each (R285, R286, log 8). -/
def State.tbAdvance (s : State) : State :=
  let per := s.regu.tbPer
  if per = 0 then s
  else
    let n := (s.now - s.regu.tbAt) / per
    let goal := s.tbGoal
    let step : Int := s.rd PW_PWM_SYNC PW_PWM_SYNC_SYNCSTEP * 2500 * n
    let corr := clampI (-step) step s.regu.tbErr
    let mul := Nat.max 1 (s.rd PW_PWM_CFG PW_PWM_CFG_SYNCMUL)
    { s with regu := { s.regu with
      tbPer := (stepTo (per : Int) (goal : Int) ((n * per / 1000 : Nat) : Int)).toNat,
      tbAt := ((s.regu.tbAt + n * per : Nat) + corr).toNat, tbErr := s.regu.tbErr - corr,
      tbN := (s.regu.tbN + n) % mul } }

/-- PSYNC_OUT (R287): high for the first half of every SYNCMUL periods. -/
def State.psyncOut (s : State) : Bool :=
  decide (2 * (s.regu.tbN * s.regu.tbPer + (s.now - s.regu.tbAt)) < s.rd PW_PWM_CFG PW_PWM_CFG_SYNCMUL * s.regu.tbPer)

/-- PSYNC_IN is declared lost: the timebase holds (R286). -/
def State.psyncLose (s : State) : State :=
  let s := (s.tbAdvance).setSync 3
  let s := { s with regu := { s.regu with holdAt := some s.now } }
  (s.hit PW_REG_EVT PW_REG_EVT_SYNCLOST PW_REG_CNT1 PW_REG_CNT1_SYNCLOSTN).raise srcReg EV_REG_SYNC_LOST [0]

/-- Whether 8 intervals lie within 0.5 % of their mean, and the mean over SYNCMUL is 10 to 125 µs (R285). -/
def State.lockable (s : State) (iv : List Nat) : Bool :=
  let m := sumN iv / 8
  let mul := s.rd PW_PWM_CFG PW_PWM_CFG_SYNCMUL
  decide (iv.length = 8) && iv.all (fun x => decide (200 * x ≤ 201 * m ∧ 199 * m ≤ 200 * x)) &&
    decide (mul ≠ 0 ∧ 10 * us * mul ≤ m ∧ m ≤ 125 * us * mul)

/-- The phase error between the rising edge plus SYNCOFS and the nearest start of SYNCMUL periods, ps. -/
def State.tbError (s : State) : Int :=
  let mul := Nat.max 1 (s.rd PW_PWM_CFG PW_PWM_CFG_SYNCMUL)
  let frame := mul * s.regu.tbPer
  let want := s.now + s.rd PW_PWM_SYNC PW_PWM_SYNC_SYNCOFS * 10000
  let have_ := s.regu.tbAt + frame * (want / Nat.max 1 frame + 1) - s.regu.tbN * s.regu.tbPer
  let d := (((want + frame * (want / Nat.max 1 frame + 2) : Nat) : Int) - have_) % (Nat.max 1 frame : Nat)
  if 2 * d < frame then d else d - frame

/-- A PSYNC_IN pulse of a width in ns whose rising edge is now (R285): below 200 ns it is ignored. -/
def execPsyncEdge (s : State) (width t : Nat) : Host.Outcome State Fault Refusal :=
  let s := (s.at t).tbAdvance
  if width < 200 ∨ ¬ s.rdB PW_PWM_CFG PW_PWM_CFG_SYNCEN then .next s
  else
    let per := s.carrierPer
    match s.regu.psyncAt with
    | none =>
      let s := { s with regu := { s.regu with psyncAt := some s.now } }
      .next (if s.syncState = 0 then s.setSync 1 else s)
    | some t0 =>
      let iv := s.now - t0
      let far := decide (20 * iv < 19 * per ∨ 21 * per < 20 * iv)
      let s := { s with regu := { s.regu with psyncAt := some s.now } }
      if s.syncState = 2 ∧ far then
        let s := s.psyncLose
        .next { s with regu := { s.regu with psyncIv := [iv] } }
      else
        let ivs := (iv :: s.regu.psyncIv).take 8
        let wasLocked := decide (s.syncState = 2)
        let s := { s with regu := { s.regu with psyncIv := ivs } }
        let s := s.wr PW_SYNC_STAT PW_SYNC_STAT_CPER (Nat.min 65535 (s.carrierPer / 100000))
        if wasLocked then .next { s with regu := { s.regu with tbErr := s.tbError } }
        else if s.lockable ivs then
          let s := { s with regu := { s.regu with holdAt := none } }
          let s := s.setSync 2
          let s := { s with regu := { s.regu with tbErr := s.tbError } }
          .next (s.raise srcReg EV_REG_SYNC_LOCK [0])
        else .next (if s.syncState = 0 then s.setSync 1 else s)

/-- No rising edge within 1.5 times the measured period (R286). -/
def execPsyncLoss (s : State) (t : Nat) : Host.Outcome State Fault Refusal :=
  let s := s.at t
  match s.regu.psyncAt with
  | some t0 =>
    if s.syncState = 2 ∧ 2 * t0 + 3 * s.carrierPer ≤ 2 * s.now then
      let s := s.psyncLose
      .next { s with regu := { s.regu with psyncAt := none, psyncIv := s.regu.psyncIv.take 1 } }
    else .next s
  | none => .next s

/-- After SYNCHOLD carrier periods the timebase runs free and moves toward PERNOM (R286). -/
def execSyncHoldExpire (s : State) (t : Nat) : Host.Outcome State Fault Refusal :=
  let s := (s.at t).tbAdvance
  match s.regu.holdAt with
  | some t0 =>
    if s.syncState = 3 ∧ t0 + s.rd PW_PWM_SYNC PW_PWM_SYNC_SYNCHOLD * s.carrierPer ≤ s.now then
      let s := { s with regu := { s.regu with holdAt := none } }
      .next (s.setSync (if s.regu.psyncAt.isSome then 1 else 0))
    else .next s
  | none => .next s

/-! ## The bus voltage link (R288 to R297, R521) -/

/-- CRC-8 of a list of bits, MSB first: polynomial 0x2F, initial value 0xFF, no final XOR (R289). -/
def crc8 (bs : List Bool) : Nat :=
  bs.foldl (fun c b =>
    let top := (c / 128 % 2 == 1) != b
    let c := c * 2 % 256
    if top then c ^^^ 0x2F else c) 0xFF

/-- A 48-bit frame: type, sequence, payload and CRC (R289). -/
def bvlFrame (ty seq payload : Nat) : Nat :=
  let top := ty % 256 * 2 ^ 32 + seq % 256 * 2 ^ 24 + payload % 2 ^ 24
  top * 256 + crc8 ((List.range 40).map (fun i => bit top (39 - i)))

def State.setLstate (s : State) (v : Nat) : State := s.wr PW_BVL_STAT PW_BVL_STAT_LSTATE v

/-- A frame with a good CRC has arrived: it ends a silence (R297). -/
def State.bvlGood (s : State) : State :=
  let was := s.regu.silentAt
  let s := { s with regu := { s.regu with linkAt := s.now, silentAt := none } }
  let s := s.setLstate (if s.regu.fallback then 3 else 1)
  if was.isSome then s.raise srcReg EV_BVL_RESTORE [0] else s

/-- A NAK with its flag (R291). -/
def State.bvlNak (s : State) (seq ty reason : Nat) : State :=
  (s.hit PW_BVL_EVT PW_BVL_EVT_NAKD PW_BVL_CNT PW_BVL_CNT_NAKDN).respond 1 0x44
    (seq % 256 * 2 ^ 16 + ty % 256 * 2 ^ 8 + reason)

/-- Why a VSET is refused: the link disabled, above VBMAX, or below the highest connected string plus VHEAD; 0 none. -/
def State.vsetReason (s : State) (payload : Nat) : Nat :=
  let mv : Int := payload / 256 % 65536 * 50
  let head : Int := s.rd PW_BUS_CFG PW_BUS_CFG_VHEAD * 1000
  if ¬ s.rdB PW_BVL_CTL PW_BVL_CTL_EN then 4
  else if s.rd PW_BUS_VLIM PW_BUS_VLIM_VBMAX = 0 ∨ (s.rd PW_BUS_VLIM PW_BUS_VLIM_VBMAX * 100 : Int) < mv then 2
  else if (List.range 12).any (fun r => (s.tstr r).hc && decide (mv < (s.tstr r).vStr + head)) then 3
  else 0

/-- A VSET accepted (R293). -/
def State.vsetAccept (s : State) (seq payload : Nat) : State :=
  let s := s.respond 1 0x41 (seq % 256 * 2 ^ 16)
  let s := match s.regu.vsetPend with
    | some old =>
      (s.hit PW_BVL_EVT PW_BVL_EVT_SUPERSEDED PW_BVL_CNT PW_BVL_CNT_SUPERSEDEDN).respond 2 0x43 (old % 256 * 2 ^ 16)
    | none => s
  let sl := payload % 256
  let slew := if sl = 0 then s.rd PW_BUS_CFG PW_BUS_CFG_VSLEWDEF else sl
  let s := { s with regu := { s.regu with target := payload / 256 % 65536, slew := slew, vsetEver := true,
                                          vsetPend := some seq, settleAt := none, fallback := false,
                                          vsetLast := some (seq, payload, 0x41, seq % 256 * 2 ^ 16) } }
  let s := (s.wr PW_BVL_STAT PW_BVL_STAT_LASTSEQ seq).wr PW_BVL_STAT PW_BVL_STAT_PENDSEQ seq
  let s := (s.wr PW_BVL_STAT PW_BVL_STAT_PEND 1).setLstate 1
  let s := s.wr PW_BUS_STAT PW_BUS_STAT_VTGT (payload / 256 % 65536)
  (s.resume).alertSync

/-- A new VSET command: accepted, or refused with a NAK that a repetition gets again (R290, R293). -/
def State.vsetNew (s : State) (seq pl : Nat) : State :=
  let why := s.vsetReason pl
  if why = 0 then s.vsetAccept seq pl
  else
    let s := s.bvlNak seq 0x01 why
    { s with regu := { s.regu with
      vsetLast := some (seq, pl, 0x44, seq * 2 ^ 16 + 0x01 * 2 ^ 8 + why) } }

/-- VSET (R290, R292, R293). A repetition is answered with the latest answer to it again. -/
def execVset (s : State) (seq : Fin 256) (payload t : Nat) : Host.Outcome State Fault Refusal :=
  let s := (s.at t).bvlGood
  let pl := payload % 2 ^ 24
  match s.regu.vsetLast with
  | some (q, p, ty, ans) =>
    if q = seq.val ∧ p = pl then .next (s.respond (if ty = 0x41 ∨ ty = 0x44 then 1 else 2) ty ans)
    else .next (s.vsetNew seq.val pl)
  | none => .next (s.vsetNew seq.val pl)

/-- The bus voltage that VBUS carries, in 10 mV units (R521). -/
def State.vbusReport (s : State) : Nat :=
  let ch := s.rd PW_BUS_CFG PW_BUS_CFG_VBSRC
  if s.rdB (AQ_AIC_CFG ch) AQ_AIC_CFG_EN && !s.regu.vbusFault && s.regu.vbusAt.isSome then wrapInt (s.regu.vbus / 10) 24
  else match Tab.get none s.lnk.busRec 0, Tab.get none s.lnk.busRec 1 with
    | some v, _ => wrapInt (v / 10) 24
    | none, some v => wrapInt (v / 10) 24
    | none, none => 0

/-- The payload of STAT (R291). -/
def State.statPayload (s : State) : Nat :=
  ((List.range 12).filter (fun r => s.sregEn r && s.sregMode r == 1)).foldl (fun m r => m + 2 ^ (12 + r)) 0 +
    b2n s.regu.short * 128 + b2n (decide (s.syncState = 2)) * 64 + b2n s.regu.fallback * 32 +
    s.rd PW_EXC_CTL PW_EXC_CTL_XACT * 16

/-- STATQ: STAT, then VBUS (R290). -/
def execStatq (s : State) (seq : Fin 256) (t : Nat) : Host.Outcome State Fault Refusal :=
  let s := (s.at t).bvlGood
  if s.rdB PW_BVL_CTL PW_BVL_CTL_EN then .next ((s.respond 3 0x53 s.statPayload).respond 3 0x50 s.vbusReport)
  else .next (s.bvlNak seq 0x02 4)

/-- IFF: the expected bus current, 0.1 A units (R273, R290). -/
def execIff (s : State) (seq : Fin 256) (payload t : Nat) : Host.Outcome State Fault Refusal :=
  let s := (s.at t).bvlGood
  if s.rdB PW_BVL_CTL PW_BVL_CTL_EN then
    .next { s with regu := { s.regu with iff_ := sext payload 24 * 100, iffAt := s.now } }
  else .next (s.bvlNak seq 0x03 4)

/-- LIMQ: LIMD, then LIMC (R290). -/
def execLimq (s : State) (seq : Fin 256) (t : Nat) : Host.Outcome State Fault Refusal :=
  let s := (s.at t).bvlGood
  if s.rdB PW_BVL_CTL PW_BVL_CTL_EN then .next s.sendLimits else .next (s.bvlNak seq 0x04 4)

/-- A frame of another type: NAK reason 1 (R290). -/
def execBvlUnknownType (s : State) (ty : Fin 128) (seq : Fin 256) (t : Nat) : Host.Outcome State Fault Refusal :=
  let s := s.at t
  if 1 ≤ ty.val ∧ ty.val ≤ 4 then .next s else .next (s.bvlGood.bvlNak seq ty 1)

/-- A frame with a bad CRC or bit 47 at 1: discarded and counted; the silence goes on (R289). -/
def execBvlFrameDiscard (s : State) (seq : Fin 256) (t : Nat) : Host.Outcome State Fault Refusal :=
  .next (((s.at t).hit PW_BVL_EVT PW_BVL_EVT_CRCERR PW_BVL_CNT PW_BVL_CNT_CRCERRN).raise srcReg EV_BVL_CRC [seq])

/-- The next response frame goes out once the line is free; without a clock nothing is sent (R288, R291). -/
def execBvlResponseSend (s : State) (t : Nat) : Host.Outcome State Fault Refusal :=
  let s := s.at t
  match s.regu.rsp with
  | (_, ty, payload) :: rest =>
    if s.rd PW_BVL_STAT PW_BVL_STAT_LSTATE = 0 ∨ s.now < s.regu.sentEnd then .next s
    else .next { s with regu := { s.regu with rsp := rest, rspSeq := (s.regu.rspSeq + 1) % 256,
                                              sent := some (bvlFrame ty s.regu.rspSeq payload),
                                              sentEnd := s.now + 2240000 } }
  | [] => .next s

/-- The bus has settled: ACK-DONE for the command in force (R293). -/
def execVsetSettled (s : State) (t : Nat) : Host.Outcome State Fault Refusal :=
  let s := s.at t
  match s.regu.vsetPend, s.regu.settleAt with
  | some q, some t0 =>
    if t0 + s.rd PW_BUS_SETTLE PW_BUS_SETTLE_TSETTLE * ms ≤ s.now then
      let ans := q % 256 * 2 ^ 16
      let s := (s.respond 2 0x42 ans).wr PW_BVL_STAT PW_BVL_STAT_PEND 0
      let last := match s.regu.vsetLast with
        | some (q', p, ty, a) => if q' = q then some (q', p, 0x42, ans) else some (q', p, ty, a)
        | none => none
      .next { s with regu := { s.regu with vsetPend := none, vsetLast := last } }
    else .next s
  | _, _ => .next s

/-- No IFF for 10 ms: the feed-forward is 0 (R273). -/
def execIffTimeout (s : State) (t : Nat) : Host.Outcome State Fault Refusal :=
  let s := s.at t
  if s.regu.iffAt + 10 * ms ≤ s.now then .next { s with regu := { s.regu with iff_ := 0 } } else .next s

/-- LIMD and LIMC every LIMPER (R296). -/
def execLimPeriodic (s : State) (t : Nat) : Host.Outcome State Fault Refusal :=
  let s := s.at t
  if s.rdB PW_BVL_CTL PW_BVL_CTL_EN ∧ s.regu.limAt + s.rd PW_BVL_CTL PW_BVL_CTL_LIMPER * ms ≤ s.now then
    .next s.sendLimits
  else .next s

/-- The link is silent: EV_BVL_TIMEOUT, and the target is held (R297). -/
def State.bvlSilent (s : State) (lstate : Nat) : State :=
  if s.regu.silentAt.isSome then s.setLstate (if s.regu.fallback ∧ lstate = 2 then 3 else lstate)
  else
    let s := { s with regu := { s.regu with silentAt := some s.now } }
    let s := s.setLstate (if s.regu.fallback ∧ lstate = 2 then 3 else lstate)
    (s.hit PW_BVL_EVT PW_BVL_EVT_TIMEOUT PW_BVL_CNT PW_BVL_CNT_TIMEOUTN).raise srcReg EV_BVL_TIMEOUT [0]

/-- No good frame for 10 ms (R297). -/
def execBvlSilence (s : State) (t : Nat) : Host.Outcome State Fault Refusal :=
  let s := s.at t
  if s.rdB PW_BVL_CTL PW_BVL_CTL_EN ∧ s.regu.silentAt = none ∧ s.regu.linkAt + 10 * ms ≤ s.now then
    .next (s.bvlSilent 2)
  else .next s

/-- 100 ms more of silence: fallback; a pending ACK is lost (R297). -/
def execBvlFallback (s : State) (t : Nat) : Host.Outcome State Fault Refusal :=
  let s := s.at t
  match s.regu.silentAt with
  | some t0 =>
    if t0 + 100 * ms ≤ s.now ∧ ¬ s.regu.fallback then
      let s := { s with regu := { s.regu with fallback := true, vsetPend := none } }
      let s := (s.wr PW_BVL_STAT PW_BVL_STAT_PEND 0).setLstate 3
      let s := if s.fallbackIdles then s.idleAll else s
      .next s.alertSync
    else .next s
  | none => .next s

/-- BVL_CK without an edge for 1 µs: nothing is sent and the link counts as silent (R288). -/
def execBvlClockLoss (s : State) (t : Nat) : Host.Outcome State Fault Refusal := .next ((s.at t).bvlSilent 0)

/-! ## Capacitance moves and excitation (R302, R305) -/

/-- A capacitance move is not below 50 V within 2 s (R302). -/
def execCapmoveTimeout (s : State) (r : Fin 12) (t : Nat) : Host.Outcome State Fault Refusal :=
  let s := s.at t
  if s.sregMode r = 4 ∧ (s.rstr r).capAt + 2 * sec ≤ s.now then
    .next ((s.raise srcReg EV_REG_CAPDIS [r]).enterIdle r)
  else .next s

/-- The falling envelope has reached zero (R305, reason 1). -/
def execExcEnvelopeEnd (s : State) (t : Nat) : Host.Outcome State Fault Refusal :=
  let s := s.at t
  match s.regu.excStop with
  | some st =>
    if st + s.rd PW_EXC_CTL PW_EXC_CTL_XRAMPT * 1000000 ≤ s.ns then .next (s.excEnd 1) else .next s
  | none => .next s

/-- A compensation share could not be placed for 10 ms (R305, reason 4). -/
def execExcCompTimeout (s : State) (t : Nat) : Host.Outcome State Fault Refusal :=
  let s := s.at t
  match s.regu.excShort with
  | some t0 => if t0 + 10 * ms ≤ s.now then .next (s.excEnd 4) else .next s
  | none => .next s

/-! ## The end of a stop (R319) -/

/-- One half-bridge leaves the stop. -/
def State.leaveStop (s : State) (n : Nat) : State :=
  if (s.hb n).inStop then
    let fl := s.faulted n
    let s := s.updHb n (fun h => { h with inStop := false, stopFault := false, offDue := none })
    if s.hbState n = 4 then s
    else if fl then s.setHbState n 3
    else (s.setHbState n 0).rearm n
  else s

/-- 20 µs after the last hard-off step the stop ends: a faulted half-bridge stays in its fault state, the others return
to their regulators, whose ceilings rise from zero (R319). -/
def execStopEnd (s : State) (t : Nat) : Host.Outcome State Fault Refusal :=
  let s := s.at t
  let pendingOff := (List.range 24).any (fun n => (s.hb n).inStop && (s.hb n).offDue.isSome)
  if s.inStop ∧ ¬ pendingOff ∧ s.gate.lastOff + 20 * us ≤ s.now then
    let regs := s.strings.filter (fun r => (s.hbsOf r).any (fun n => (s.hb n).inStop))
    let s := (List.range 24).foldl (fun s n => s.leaveStop n) s
    let s := { s with gate := { s.gate with lastFaultOff := none } }
    let s := s.wr PW_GD_STAT PW_GD_STAT_STOP 0
    let now := s.now
    let s := regs.foldl (fun s r => (s.syncNact r).updRstr r (fun x => { x with ceilAt := now })) s
    .next s.limitsOnChange
  else .next s

/-! ## What register writes of the regulator block do -/

/-- The effect of a write of the weights (R277). -/
def State.weightsWritten (s : State) : State :=
  { s with regu := { s.regu with weightsAt := s.now, weightsStale := false } }

/-- Why a write to `PW_SREG_CFG` of string r is refused (R269). -/
def State.sregCfgBad (s : State) (r v : Nat) : Bool :=
  let w : Word := BitVec.ofNat 32 v
  let n := PW_SREG_CFG_NPH.get w + 1
  let hbs := (List.range n).map (fun k => Fld.get ⟨13 + 5 * k, 9 + 5 * k⟩ w)
  let others := (s.strings.filter (fun q => decide (q ≠ r))).flatMap (fun q => s.hbsOf q)
  (PW_SREG_CFG_EN.get w == 1 && hbs.any (fun h => others.contains h)) || hbs.any (fun h => decide (23 < h)) ||
    decide ((s.tstr r).st ≠ .open_)

/-- The effect of a write to `PW_SREG_CFG`: mode 0 or 7, the active phases, the arming of half-bridges (R271, R316). -/
def State.sregCfgEffect (s : State) (r : Nat) : State :=
  let s := if s.sregEn r then (if s.sregMode r = 7 then s.setMode r 0 else s) else s.setMode r 7
  (s.syncNact r).rearmAll

/-- Whether PHEN is refused (R301): the mode, or a failure source still active. -/
def State.phenBad (s : State) (r v : Nat) : Bool :=
  !(s.sregMode r == 0 || s.sregMode r == 7) ||
    (List.range 4).any (fun k => bit v k && decide (k < s.nph r) && (s.phase (s.slotHb r k)).senseFail)

/-- The effect of PHEN (R301). -/
def State.phen (s : State) (r v : Nat) : State :=
  ((List.range 4).filter (fun k => bit v k && bit (s.rd (PW_SREG_STAT r) PW_SREG_STAT_PHFAIL) k)).foldl (fun s k =>
    let n := s.slotHb r k
    let s := s.wr (PW_SREG_STAT r) PW_SREG_STAT_PHFAIL (s.rd (PW_SREG_STAT r) PW_SREG_STAT_PHFAIL - 2 ^ k)
    let s := s.updPhase n (fun p => { p with isOpen := false, openN := 0, decayAt := none })
    (s.syncNact r).raise srcReg EV_REG_PHASE_EN [n]) s

/-- The first condition of R303 that a start fails, 1 to 6 for its list; 0 none. `v` is the word written. -/
def State.excReason (s : State) (v : Nat) : Nat :=
  let w : Word := BitVec.ofNat 32 v
  let r := PW_EXC_CTL_XSTR.get w
  let ks := List.range (PW_EXC_CTL_XNF.get w + 1)
  let amp := fun k => s.rd (PW_EXC_AMP k) PW_EXC_AMP_XAMP
  let ep := (s.reg PW_EXC_EPOCHLO).toNat + (s.reg PW_EXC_EPOCHHI).toNat * 2 ^ 32
  if s.sregMode r ≠ 1 then 1
  else if s.rdB PW_EXC_CTL PW_EXC_CTL_XACT then 2
  else if ks.any (fun k => decide (s.rd (PW_EXC_FRQ k) PW_EXC_FRQ_XFRQ < 50000 ∨
      200000000 < s.rd (PW_EXC_FRQ k) PW_EXC_FRQ_XFRQ)) then 3
  else if ks.any (fun k => decide (amp k < 100)) then 4
  else if s.rd (PW_SREG_RAT r) PW_SREG_RAT_ISRAT < 2 * sumN (ks.map amp) then 5
  else if ep < s.ns + 1000000 then 6
  else 0

/-- The effect of an admitted START (R303). -/
def State.excBegin (s : State) : State :=
  let s := s.wr PW_EXC_CTL PW_EXC_CTL_XACT 1
  { s with regu := { s.regu with excStop := none, excShort := none } }

/-- The effect of STOP: the envelope falls from now (R304, R305). -/
def State.excHalt (s : State) : State :=
  if s.rdB PW_EXC_CTL PW_EXC_CTL_XACT ∧ s.regu.excStop = none then
    { s with regu := { s.regu with excStop := some s.ns } }
  else s

end Sys2Proof.Machine
end

