-- ==== Sys2Proof/Machine/WinOps.lean ====
section
/-!
DEFINITION. The triggers of the fault window (R104).
-/

namespace Sys2Proof.Machine

/-- A trigger of the fault window, of kind 0 trip action, 1 SF, 2 `TRIG` (R104, R431): the first one starts the count of
POSTN sweeps; a further one before the window re-arms is counted and recorded. -/
def State.winTrigger (s : State) (kind : Nat) : State :=
  if s.swp.trig.isSome ∨ s.rdB AQ_WIN_STAT AQ_WIN_STAT_FROZEN then
    (s.bump AQ_WIN_STAT AQ_WIN_STAT_RETRIG).raise srcWindow EV_WIN_RETRIGGER [kind]
  else { s with swp := { s.swp with trig := some (s.rd AQ_WIN_CTL AQ_WIN_CTL_POSTN, s.ns, kind) } }

/-- The window re-arms (R104). -/
def State.winRearm (s : State) : State :=
  let s := s.wr AQ_WIN_STAT AQ_WIN_STAT_FROZEN 0
  { s with swp := { s.swp with trig := none, frozenBy := none } }

/-- The open-wire test starts with the next sweep on every enabled port (R99). -/
def State.owtStart (s : State) : State := { s with swp := { s.swp with owt := 1, owtAt := s.now } }

/-- The program clears HOLD: a frozen window whose archive copy completed re-arms (R104). -/
def State.winHoldClear (s : State) : State :=
  if s.rdB AQ_WIN_STAT AQ_WIN_STAT_FROZEN ∧ ¬ s.rdB AQ_WIN_STAT AQ_WIN_STAT_ARCH then s.winRearm else s

end Sys2Proof.Machine
end

