-- ==== Sys2Proof/Machine/TripOps.lean ====
section
/-!
DEFINITION. The trip block's operations: actions on strings, contactors, the zero-current condition, pre-charge
(chapter 5).
-/

namespace Sys2Proof.Machine

/-! ## Access and status -/

/-- The state code of a string (R128, `PW_TRIP_STRs.STATE`). -/
def StrState.code : StrState → Nat
  | .normal => 0
  | .derated => 1
  | .ramping => 2
  | .parked => 3
  | .inhibited => 4
  | .opening => 5
  | .open_ | .precharge | .closing => 6

/-- `PW_TRIP_STRs` follows the string (log 11: a string that is not configured reads as open, as at reset). -/
def State.strSync (s : State) (r : Nat) : State :=
  let x := s.tstr r
  let cause := match x.latch with
    | some (_, c) => c
    | none => s.rd (PW_TRIP_STR r) PW_TRIP_STR_CAUSE
  let s := (s.wr (PW_TRIP_STR r) PW_TRIP_STR_STATE x.st.code).wr (PW_TRIP_STR r) PW_TRIP_STR_ACT x.act
  let s := s.wr (PW_TRIP_STR r) PW_TRIP_STR_LATCH (b2n x.latch.isSome)
  s.wr (PW_TRIP_STR r) PW_TRIP_STR_CAUSE (if x.act = 0 ∧ x.latch = none then 0 else cause)

/-- A string's state set; an unlatched action ends with the opening. -/
def State.setSt (s : State) (r : Nat) (st : StrState) : State :=
  (s.updTstr r (fun x =>
    if st = .open_ ∧ x.latch = none then { x with st := st, act := 0, episode := none, opens := false }
    else { x with st := st })).strSync r

/-- Whether a CFB input reads closed (R122). -/
def State.cfbClosed (s : State) (n : Nat) : Bool := bit (s.rd PW_CFB_STAT PW_CFB_STAT_CLOSED) n
def State.bothClosed (s : State) (r : Nat) : Bool := s.cfbClosed (2 * r) && s.cfbClosed (2 * r + 1)
def State.bothOpen (s : State) (r : Nat) : Bool := !s.cfbClosed (2 * r) && !s.cfbClosed (2 * r + 1)

/-- Contactor wear of both contactors of a string (R144). -/
def State.wearOne (s : State) (n f k : Nat) : State :=
  State.lifeSection { s with trip := { s.trip with
    wear := Tab.set 0 s.trip.wear (n * 16 + f) (Tab.get 0 s.trip.wear (n * 16 + f) + k) } }
def State.wearBoth (s : State) (r f k : Nat) : State := (s.wearOne (2 * r) f k).wearOne (2 * r + 1) f k
def State.wearMax (s : State) (n k : Nat) : State :=
  let w := Nat.max (Tab.get 0 s.trip.wear (n * 16 + 5)) k
  { s with trip := { s.trip with wear := Tab.set 0 s.trip.wear (n * 16 + 5) w } }

/-! ## The zero-current condition and the dynamic limits (R132, R135) -/

/-- A path is sound: present, neither stale nor faulty (R108, R132). -/
def State.shuntSound (s : State) (r : Nat) : Bool :=
  s.rdB (AQ_CUR_SRC r) AQ_CUR_SRC_EN && !bit (s.rd AQ_CUR_STAT AQ_CUR_STAT_STALE) r
def State.phaseSound (s : State) (r : Nat) : Bool :=
  s.sregEn r && (List.range 4).all (fun k => !(s.phActive r k && (s.phase (s.slotHb r k)).senseFail))

/-- The zero-current condition of a string (R132). -/
def State.zeroMet (s : State) (r : Nat) : Bool :=
  let x := s.tstr r
  let span := fun (o : Option Nat) (last : Nat) => match o with
    | some t0 => decide (t0 + 200000 ≤ last)
    | none => false
  (s.shuntSound r || s.phaseSound r) && (!s.shuntSound r || span x.zeroS x.zeroSLast) &&
    (!s.phaseSound r || span x.zeroP x.zeroPLast)

/-- A sample of a current path reaches the trip block (R132, R135): its stamp in ns, its value in mA, whether it is
flagged, and the path's sample period in ns. -/
def State.pathSample (s : State) (r : Nat) (phase : Bool) (stamp : Nat) (v : Int) (bad : Bool) (period : Nat) : State :=
  let x := s.tstr r
  let last := if phase then x.zeroPLast else x.zeroSLast
  let cur := if phase then x.zeroP else x.zeroS
  let gap := decide (5 * period < 2 * (stamp - last))
  let iz := s.rd PW_TRIP_CFG PW_TRIP_CFG_IZERO * 100
  let z := if bad ∨ iz ≤ v.natAbs then none else if gap then some stamp else some (cur.getD stamp)
  let lim := s.limitInForce r (decide (v < 0))
  let exceeds := !bad && decide (lim * (100 + s.rd PW_TRIP_LIM PW_TRIP_LIM_DLMARG) < v.natAbs * 100)
  let s := if phase then
      s.updTstr r (fun x => { x with zeroP := z, zeroPLast := stamp, iP := if bad then x.iP else v,
                                     overP := if exceeds then some (x.overP.getD stamp) else none })
    else
      s.updTstr r (fun x => { x with zeroS := z, zeroSLast := stamp, iS := if bad then x.iS else v,
                                     overS := if exceeds then some (x.overS.getD stamp) else none })
  let y := s.tstr r
  if y.overS = none ∧ y.overP = none ∧ s.trip.active.any (fun a => a.src == 16 && a.key == r) then
    s.stringSource 16 r (some r) false
  else s

/-! ## Opening (R133, R143, R144) -/

/-- A capacitance move asked of a string's regulator after an opening (R143, R302): boosted into the bus at no more than
IPCH, how much below it is open (log 4). -/
def State.capMove (s : State) (r : Nat) : State :=
  if s.sregEn r ∧ (s.tstr r).vStr ≤ s.regu.vbus ∧ s.sregMode r ≠ 7 then
    let ipch := s.rd PW_PCH_RATE PW_PCH_RATE_IPCH * 100
    let now := s.now
    let i := s.freeNat % (ipch + 1)
    let s := ((s.drew 1).inhibitString r false).setMode r 4
    s.updRstr r (fun x => { x with iref := -(i : Int), capAt := now })
  else s

/-- Of some load timers, those that drive no HC channel that is on stop with their output low (R477). -/
def State.stopTimers (s : State) (which : Nat → Bool) : State :=
  ((List.range 12).filter which).foldl (fun (s : State) n =>
    if (List.range 12).any (fun c => s.rd (PW_LS_CFG c) PW_LS_CFG_SRC = 34 + n && (s.tstr c).hc) then s
    else (s.updLt n (fun x => { x with high := false, stopped := true })).ltSync n) s

/-- The HC channel of a string turns off: the opening counted by whether the zero-current condition is met, the
capacitance moved, the welded-contact check armed (R133, R143, R144), but for an opening of a thermal shutdown (R488).
`force` tells a FORCE action. -/
def State.hcOff (s : State) (r : Nat) (force : Bool) : State :=
  let zero := s.zeroMet r
  let now := s.now
  let skip := decide (s.regu.vbus < (s.tstr r).vStr) || s.trip.active.any (fun a => a.src == 27)
  let i := Nat.max (s.tstr r).iS.natAbs (s.tstr r).iP.natAbs
  let s := s.updTstr r (fun x => { x with hc := false, econ := false, closeWait := none, offAt := some now, offZero := zero,
                                          weldOk := 0, noWeldCheck := skip, joined := false })
  let s := s.lsSync r
  let src := s.rd (PW_LS_CFG r) PW_LS_CFG_SRC
  let s := if s.trip.orphan then s.stopTimers (fun n => src == 34 + n) else s
  let s := if zero then
      (s.wearBoth r 1 1).raise srcTrip EV_CON_OPEN [r, b2n skip]
    else
      let s := (s.wearBoth r 2 1).wearBoth r 6 (i / 1000)
      let s := (s.wearMax (2 * r) i).wearMax (2 * r + 1) i
      let s := if force then s.wearBoth r 3 1 else s
      (s.hit PW_TRIP_EVT PW_TRIP_EVT_FORCED PW_TRIP_CNT PW_TRIP_CNT_FORCEDN).raise srcTrip EV_CON_FORCED [r, i]
  let s := s.setSt r (if s.bothOpen r then .open_ else .opening)
  s.capMove r

/-! ## Sources (R127, R128) -/

/-- Rows that the program cannot reconfigure. -/
def fixedSource (n : Nat) : Bool := n == 25 || n == 26 || n == 27 || n == 29 || n == 30

/-- The configured strings, as a mask (R127). -/
def State.stringMask (s : State) : Nat := s.strings.foldl (fun m r => m + 2 ^ r) 0

/-- The strings a scope reaches from a native string (R128); only configured ones count. -/
def State.scopeMask (s : State) (scope : Nat) (native : Option Nat) : Nat :=
  match native with
  | none => s.stringMask
  | some r =>
    let all := if scope = 0 then [r] else if scope = 1 then [2 * (r / 2), 2 * (r / 2) + 1] else List.range 12
    (all.filter (fun q => s.sregEn q)).foldl (fun m q => m + 2 ^ q) 0

/-- The action of a verdict by its source's row (R127). -/
def State.srcAct (s : State) (v : Verdict) : Nat := s.verdictAct v
/-- The scope of a verdict by its source's row: the verdict's where the row takes the profile (R127). -/
def State.srcScope (s : State) (v : Verdict) : Nat :=
  if s.rd (PW_TRIP_SRC v.src) PW_TRIP_SRC_ACT = 7 then v.scope else s.rd (PW_TRIP_SRC v.src) PW_TRIP_SRC_SCOPE

/-- `ACTIVE` of a row follows the active sources. -/
def State.activeSync (s : State) (n : Nat) : State :=
  s.wr (PW_TRIP_SRC n) PW_TRIP_SRC_ACTIVE (b2n (s.trip.active.any (fun a => a.src == n)))

/-! ## Pre-charge failure (R147) -/

def State.setPchStep (s : State) (n : Nat) : State :=
  let s := s.wr PW_PCH_STAT PW_PCH_STAT_STEP n
  let now := s.now
  { s with trip := { s.trip with pch := { s.trip.pch with step := if n ≤ 6 then n else 0, instant := now } } }

/-- The relay on SEEDGC driven (R147). -/
def State.setRelay (s : State) (on : Bool) : State :=
  let s := { s with trip := { s.trip with pch := { s.trip.pch with relay := on } } }
  s.lsSync (18 + s.rd PW_PCH_CFG PW_PCH_CFG_SEEDGC)

def State.seed (s : State) : Nat := s.rd PW_PCH_CFG PW_PCH_CFG_SEED

/-- A string left open by the sequence. -/
def State.pchFailMask (s : State) (r : Nat) : State := s.wrBit PW_PCH_STAT (8 + r) true

/-- A RAMP or RAMP-OPEN of a string starts, unless it ramps already (R133). -/
def State.beginRamp (s : State) (r : Nat) (opens : Bool) (limit : Nat) : State :=
  let now := s.now
  let s := s.updTstr r (fun x => { x with opens := x.opens || opens, episode := some (x.episode.getD now) })
  let x := s.tstr r
  match x.st with
  | .normal | .derated =>
    let s := s.updTstr r (fun x => { x with rampMax := limit })
    let s := if s.sregMode r = 1 then s.enterRamp r false else s
    s.setSt r .ramping
  | .ramping => s.updTstr r (fun x => { x with rampMax := Nat.min x.rampMax limit })
  | .closing | .precharge =>
    if x.hc ∧ opens then
      let s := (s.enterIdle r).updTstr r (fun x => { x with openFrom := now })
      (s.inhibitString r true).setSt r .opening
    else (s.enterIdle r).strSync r
  | .parked =>
    (if opens then s.updTstr r (fun x => { x with openFrom := now }) else s).strSync r
  | _ => s.strSync r

/-- The pre-charge sequence fails with a reason: SEEDGC off, in steps 2 to 4 the seed opens by RAMP-OPEN, EV_PCH_FAIL
with step and reason (R147). -/
def State.pchFail (s : State) (reason : Nat) : State :=
  let step := s.trip.pch.step
  let s := (s.setRelay false).setPchStep 8
  let s := s.wr PW_PCH_STAT PW_PCH_STAT_REASON reason
  let s := s.raise srcTrip EV_PCH_FAIL [s.seed, step, reason]
  let s := s.strings.foldl (fun s r => if s.sregMode r = 3 ∨ s.sregMode r = 5 then s.enterIdle r else s) s
  if 2 ≤ step ∧ step ≤ 4 ∧ (s.tstr s.seed).hc then
    s.beginRamp s.seed true (s.rd PW_TRIP_CFG PW_TRIP_CFG_TRAMPMAX * 10 * ms)
  else s

/-- An action RAMP or more severe reaches a string: it ends the pre-charge of that string (R21, R147). -/
def State.pchTrip (s : State) (r : Nat) : State :=
  let p := s.trip.pch
  if p.step = 0 then s
  else if r = s.seed ∧ 2 ≤ p.step ∧ p.step ≤ 4 then s.pchFail 7
  else if bit p.mask r ∧ ¬ bit p.done r then
    let s := { s with trip := { s.trip with pch := { p with mask := p.mask - 2 ^ r } } }
    s.pchFailMask r
  else s

/-! ## Actions (R129, R130, R133) -/

/-- Gates of a string inhibited at once; its regulator idles (R133). -/
def State.inhibitAct (s : State) (r : Nat) : State :=
  let now := s.now
  let s := s.updTstr r (fun x => { x with episode := some (x.episode.getD now) })
  (s.enterIdle r).inhibitString r true

/-- An action starts on a string and supersedes a less severe one (R130, R133). -/
def State.startAct (s : State) (r act cause : Nat) (latch : Bool) : State :=
  let limit := if cause = 27 then 100 * ms else s.rd PW_TRIP_CFG PW_TRIP_CFG_TRAMPMAX * 10 * ms
  let s := s.updTstr r (fun x => { x with act := act, latch := if latch then some (act, cause) else x.latch })
  let s := s.wr (PW_TRIP_STR r) PW_TRIP_STR_CAUSE cause
  let s := (s.excEnd 2).pchTrip r
  let x := s.tstr r
  let now := s.now
  let s :=
    if act = 2 then s.beginRamp r false limit
    else if act = 3 then s.beginRamp r true limit
    else if act = 4 then
      let s := s.inhibitAct r
      match x.st with
      | .normal | .derated | .ramping | .parked => s.setSt r .inhibited
      | _ => s.strSync r
    else if act = 5 then
      let s := (s.inhibitAct r).updTstr r (fun x => { x with opens := true, openFrom := x.episode.getD now })
      if x.hc then s.setSt r .opening else s.strSync r
    else
      let s := s.inhibitAct r
      if x.hc then s.hcOff r true else s.strSync r
  s.alertSync

/-- The most severe action among the active and latched ones that reach a string, with its cause; INHIBIT or RAMP
together with a RAMP-OPEN makes OPEN (R129). -/
def State.topAct (s : State) (r : Nat) : Nat × Nat :=
  let acts := (s.trip.active.filter (fun a => bit a.strings r)).map (fun a => (a.act, a.src)) ++
    (match (s.tstr r).latch with
      | some l => [l]
      | none => [])
  let top := acts.foldl (fun m a => if m.1 < a.1 then a else m) (0, 0)
  if (top.1 = 4 ∨ top.1 = 2) ∧ acts.any (fun a => a.1 == 3) then (5, top.2) else top

/-- A string follows its most severe action (R129, R130). -/
def State.evalString (s : State) (r : Nat) : State :=
  let t := s.topAct r
  if 2 ≤ t.1 ∧ (s.tstr r).act < t.1 then s.startAct r t.1 t.2 true else s.strSync r

/-- DERATE on a string: in force while a source calls for it, and DHOLD after (R131). -/
def State.evalDerate (s : State) (r : Nat) : State :=
  let on := s.trip.active.any (fun a => bit a.strings r && a.act == 1)
  let x := s.tstr r
  let hold := s.rd PW_TRIP_TIM PW_TRIP_TIM_DHOLD * sec
  let now := s.now
  let s := if on then s.updTstr r (fun x => { x with derate := true, derateDue := none })
    else if x.derate ∧ x.derateDue = none then s.updTstr r (fun x => { x with derateDue := some (now + hold) })
    else s
  let s := if on ∧ x.st = .normal then s.setSt r .derated else s
  s.updTstr r (fun x => if x.act < 2 then { x with act := if on then 1 else 0 } else x)

/-! ## The sequences of R149 and R150 -/

/-- The orphan sequence: every running or derated string performs RAMP-OPEN (R149). -/
def State.orphanSeq (s : State) : State :=
  let rs := s.strings.filter (fun r => (s.tstr r).st == .normal || (s.tstr r).st == .derated)
  let mask := rs.foldl (fun m r => m + 2 ^ r) 0
  let s := { s with trip := { s.trip with orphan := true } }
  let s := rs.foldl (fun s r => s.startAct r 3 30 true) s
  s.raise srcTrip EV_ORPHAN [mask]

/-- The reset pre-sequence at its start: every string inhibited, its HC channel off at zero current (R150). -/
def State.preseqInhibit (s : State) : State :=
  (List.range 12).foldl (fun s r =>
    let s := s.inhibitAct r
    let s := s.updTstr r (fun x => { x with opens := true, openFrom := x.episode.getD x.openFrom })
    if (s.tstr r).hc then (if s.zeroMet r then s.hcOff r false else s.setSt r .opening) else s) s

/-! ## Verdicts (R127 to R131, R519) -/

/-- A source becomes active at the trip block, or inactive. -/
def State.setActive (s : State) (v : Verdict) : State :=
  let keep := s.trip.active.filter (fun a => !(a.src == v.src && a.key == v.key))
  let a : ActiveSrc := { src := v.src, key := v.key, act := s.srcAct v, strings := s.scopeMask (s.srcScope v) v.native,
                         cause := v.cause }
  let s := { s with trip := { s.trip with active := if v.on then keep ++ [a] else keep } }
  s.activeSync v.src

/-- The event that a source's raise records (R152). -/
def State.tripEvent (s : State) (act : Nat) (v : Verdict) : State :=
  if act = 0 then s.raise srcTrip EV_TRIP_NOTE [v.cause, v.src, v.value]
  else if act = 1 then s.raise srcTrip EV_TRIP_DERATE [v.cause, v.src, v.value]
  else (s.hit PW_TRIP_EVT PW_TRIP_EVT_ACTION PW_TRIP_CNT PW_TRIP_CNT_ACTIONN).raise srcTrip EV_TRIP_ACTION
    [v.cause, v.src, v.value]

/-- One verdict or source change taken into the block (R126, R127). -/
def State.takeVerdict (s : State) (v : Verdict) : State :=
  if v.src = 29 ∧ v.on then s.preseqInhibit.setActive v
  else if v.src = 30 ∧ v.on then (s.orphanSeq).setActive { v with native := none }
  else if v.on then
    if s.rdB (PW_TRIP_SRC v.src) PW_TRIP_SRC_EN ∨ fixedSource v.src then
      let known := s.trip.active.any (fun a => a.src == v.src && a.key == v.key)
      let act := s.srcAct v
      let s := s.setActive v
      if known then s else s.tripEvent act v
    else s
  else s.setActive v

/-- The strings on which an action INHIBIT or more severe is in force. -/
def State.inhibitedStrings (s : State) : List Nat := s.strings.filter (fun r => decide (4 ≤ (s.tstr r).act))

/-- Verdicts that arrive in one fabric cycle: all taken, then every string evaluated (R129). A string on which an action
INHIBIT or more severe starts, or the pre-sequence, triggers the fault window (R104). -/
def State.takeVerdicts (s : State) (vs : List Verdict) : State :=
  let before := s.inhibitedStrings
  let s := vs.foldl (fun s v => s.takeVerdict v) s
  let s := s.strings.foldl (fun s r => (s.evalDerate r).evalString r) s
  let s := if s.inhibitedStrings.any (fun r => !before.contains r) ∨ vs.any (fun v => v.src == 29 && v.on) then
      s.winTrigger (b2n (vs.any (fun v => v.src == 25 && v.on)))
    else s
  (s.limitsOnChange).alertSync

/-- The block takes every verdict that waits. -/
def State.tripFlush (s : State) : State :=
  let vs := s.trip.inbox
  ({ s with trip := { s.trip with inbox := [] } }).takeVerdicts vs

/-- A momentary source: raised and cleared again, its action latching by itself (log 12). -/
def State.pulse (s : State) (v : Verdict) : State :=
  { s with trip := { s.trip with inbox := s.trip.inbox ++ [v, { v with on := false }] } }
def State.pulseString (s : State) (src key r : Nat) : State :=
  s.pulse { src := src, key := key, on := true, act := 7, scope := 3, native := some r, cause := r, value := 0 }

/-! ## Closing (R139 to R142) -/

/-- The sense node of a string gives valid records. -/
def State.senseValid (s : State) (r : Nat) : Bool :=
  let p := s.rd (AQ_CUR_SRC r) AQ_CUR_SRC_PORT
  let q := s.curPos r
  (s.tstr r).vAt.isSome && !(s.pos p q).missing && (s.pos p q).staleSince.isNone

/-- Three sweep records in a row with |ΔV| of at most 5 V (R139). -/
def State.dvOk (s : State) (r : Nat) : Bool :=
  decide ((s.tstr r).dv.length = 3) && (s.tstr r).dv.all (fun d => decide (d.natAbs ≤ 5000))

/-- The first condition of R139 that a close request fails, by its place in the list, 1 to 6; 0 none. -/
def State.closeReason (s : State) (r : Nat) : Nat :=
  if ¬ s.rdB SF_STAT SF_STAT_PERM then 1
  else if (s.tstr r).latch.isSome ∨ 2 ≤ (s.topAct r).1 then 2
  else if ¬ s.bothOpen r ∨ Tab.get false s.trip.cfbIndet (2 * r) ∨ Tab.get false s.trip.cfbIndet (2 * r + 1) then 3
  else if bit (s.rd PW_CON_STAT PW_CON_STAT_WLOCK) r then 4
  else if ¬ s.senseValid r then 5
  else if ¬ s.dvOk r then 6
  else 0

/-- Pull-in starts: HC fully on (R141). -/
def State.pullIn (s : State) (r : Nat) : State :=
  let now := s.now
  let s := s.updTstr r (fun x => { x with hc := true, econ := false, pullAt := some now, closeWait := none, offAt := none,
                                          opens := false })
  (s.lsSync r).setSt r .closing

/-- Whether the LC partner is in its first 200 ms after pull-in start (R140). -/
def State.partnerBusy (s : State) (r : Nat) : Bool :=
  match (s.tstr (if r % 2 = 0 then r + 1 else r - 1)).pullAt with
  | some t0 => decide (s.now < t0 + 200 * ms)
  | none => false

/-- A close request: refused with its reason, waiting for its LC partner, or pulled in (R139, R140). -/
def State.closeReq (s : State) (r : Nat) : State :=
  let why := s.closeReason r
  if why ≠ 0 then s.raise srcTrip EV_CON_REFUSED [r, why]
  else if s.partnerBusy r then
    let now := s.now
    s.updTstr r (fun x => { x with closeWait := some now })
  else s.pullIn r

/-! ## The steps of pre-charge (R147, R148) -/

def State.updPch (s : State) (f : Precharge → Precharge) : State :=
  { s with trip := { s.trip with pch := f s.trip.pch } }

/-- Whether the bus is inside its settling band. -/
def State.busSettled (s : State) : Bool :=
  decide ((s.regu.vbus * 1000 - s.busTarget).natAbs ≤ s.rd PW_BUS_SETTLE PW_BUS_SETTLE_VBAND * 100000)

/-- Step 7: the bus loop takes every closed string (R147, R271). -/
def State.pchDone (s : State) : State :=
  let closed := s.strings.filter (fun r => (s.tstr r).hc && s.bothClosed r)
  let s := closed.foldl (fun s r =>
    let s := s.updTstr r (fun x => { x with joined := true })
    if s.sregMode r ≠ 1 ∧ s.canRun r then s.enterRun r else s) s
  (s.setPchStep 7).raise srcTrip EV_PCH_DONE [closed.foldl (fun m r => m + 2 ^ r) 0]

/-- Step 6: the strings whose ΔV holds close (R147). -/
def State.pchClose (s : State) : State :=
  let s := s.setPchStep 6
  let p := s.trip.pch
  let rs := (List.range 12).filter (fun r => bit p.mask r)
  let s := rs.foldl (fun s r =>
    if bit s.trip.pch.done r then
      let s := (s.enterIdle r).closeReq r
      if (s.tstr r).hc ∨ (s.tstr r).closeWait.isSome then s
      else (s.updPch (fun p => { p with mask := p.mask - 2 ^ r })).pchFailMask r
    else
      ((s.enterIdle r).updPch (fun p => { p with mask := p.mask - 2 ^ r })).pchFailMask r) s
  if s.trip.pch.mask = 0 then s.pchDone else s

/-- Step 5: buck pre-charge of a mask of strings, at no more than IPCH (R147, R302). -/
def State.pchBuck (s : State) (mask : Nat) : State :=
  let s := (s.setPchStep 5).updPch (fun p => { p with mask := mask, done := 0 })
  let ipch := s.rd PW_PCH_RATE PW_PCH_RATE_IPCH * 100
  let s := ((List.range 12).filter (fun r => bit mask r)).foldl (fun s r =>
    let i := s.freeNat % (ipch + 1)
    let s := ((s.drew 1).inhibitString r false).setMode r 3
    s.updRstr r (fun x => { x with iref := (i : Int) })) s
  if mask = 0 then s.pchDone else s

/-- The configured strings but those already closed. -/
def State.pchOthers (s : State) : Nat :=
  (s.strings.filter (fun r => !(s.tstr r).hc && (s.topAct r).1 < 2)).foldl (fun m r => m + 2 ^ r) 0

/-- Step 4 ends when the bus is inside its settling band (R147). -/
def State.pchBus (s : State) : State :=
  if s.trip.pch.step = 4 ∧ s.busSettled then
    let r := s.seed
    let s := s.updTstr r (fun x => { x with joined := true })
    s.pchBuck s.pchOthers
  else s

/-- A sweep record of a string's sense node moves the sequence on (R147): τ and ΔV of the seed in step 2, ΔV of each
string in step 5. -/
def State.pchSense (s : State) (r : Nat) : State :=
  let p := s.trip.pch
  let d : Int := (s.tstr r).dv.headD 0
  if p.step = 2 ∧ r = s.seed then
    let tau := if p.tau = 0 ∧ 1000 * d ≤ 368 * p.dv0 then s.now - p.instant else p.tau
    let s := s.updPch (fun p => { p with tau := tau })
    if p.tau = 0 ∧ tau ≠ 0 ∧ tau < s.rd PW_PCH_CFG PW_PCH_CFG_TAUMIN * 5 * ms then s.pchFail 2
    else if p.tau = 0 ∧ tau ≠ 0 ∧ s.rd PW_PCH_CFG PW_PCH_CFG_TAUMAX * 5 * ms < tau then s.pchFail 3
    else if tau ≠ 0 ∧ s.dvOk r then
      let s := (s.setPchStep 3).closeReq r
      if (s.tstr r).hc ∨ (s.tstr r).closeWait.isSome then s else s.pchFail 5
    else s
  else if p.step = 5 ∧ bit p.mask r ∧ ¬ bit p.done r ∧ s.dvOk r then
    let s := s.updPch (fun p => { p with done := p.done + 2 ^ r })
    if s.trip.pch.done = s.trip.pch.mask then s.pchClose else s
  else s

/-- Contactors of a string are both closed, or its pull-in failed: the sequence moves on (R147). -/
def State.pchClosed (s : State) (r : Nat) (ok : Bool) : State :=
  let p := s.trip.pch
  if p.step = 3 ∧ r = s.seed then
    if ok then
      let v := s.regu.vbus
      let s := (s.setRelay false).setPchStep 4
      let s := s.updPch (fun p => { p with vBus0 := v })
      (s.setMode r 5).updRstr r (fun x => { x with iref := 0 })
    else s.pchFail 5
  else if p.step = 6 ∧ bit p.mask r then
    let s := s.updPch (fun p => { p with mask := p.mask - 2 ^ r })
    let s := if ok then s else s.pchFailMask r
    if s.trip.pch.mask = 0 then s.pchDone else s
  else s

/-! ## Contactor feedback (R122, R141, R142) -/

/-- A debounced change of a CFB input of a string reaches the contactor supervision. -/
def State.cfbChanged (s : State) (r : Nat) : State :=
  let s := s.wrBit PW_CON_STAT r (s.bothClosed r)
  let x := s.tstr r
  if x.st = .closing ∧ x.hc ∧ s.bothClosed r then
    let s := (s.wearBoth r 0 1).raise srcTrip EV_CON_CLOSE [r]
    let s := s.setSt r (if x.derate then .derated else .normal)
    s.pchClosed r true
  else if x.hc ∧ x.st ≠ .closing ∧ ¬ s.bothClosed r then
    let s := if s.zeroMet r then s.wearBoth r 1 1 else
      let i := Nat.max x.iS.natAbs x.iP.natAbs
      ((s.wearBoth r 2 1).wearMax (2 * r) i).wearMax (2 * r + 1) i
    s.pulseString 20 (2048 + r) r
  else if x.st = .opening ∧ ¬ x.hc ∧ s.bothOpen r then s.setSt r .open_
  else s

/-! ## Sense records (R43, R139, R143, R302) -/

/-- The values of a string's sense node that the trip block and the regulator take from a sweep record: string voltage
and contactor voltages, mV. -/
def State.senseRecord (s : State) (r : Nat) (v vp vn : Int) (sweep : Bool) : State :=
  let now := s.now
  let s := s.updTstr r (fun x => { x with
    vStr := v, vPos := vp, vNeg := vn, vAt := some now,
    dv := if sweep then ((vp + vn) :: x.dv).take 3 else x.dv,
    weldOk := if x.offAt.isSome then
        b2n (bit x.weldOk 0 || decide (50000 < vp)) + 2 * b2n (bit x.weldOk 1 || decide (50000 < vn)) else x.weldOk })
  let s := if sweep then s.pchSense r else s
  if sweep ∧ s.sregMode r = 4 ∧ v - (vp + vn) < 50000 then s.enterIdle r else s

/-! ## Clearing (R131) -/

/-- Whether a clear of a string is refused. -/
def State.clrBad (s : State) (r : Nat) : Bool :=
  s.trip.active.any (fun a => bit a.strings r) || (s.tstr r).st == .closing || (s.tstr r).st == .opening

/-- A string released (R131): with contactors closed it returns to the splitter at zero current, else it stays open. -/
def State.release (s : State) (r : Nat) : State :=
  let s := s.updTstr r (fun x => { x with latch := none, act := 0, episode := none, opens := false })
  let s := s.inhibitString r false
  let s := { s with trip := { s.trip with orphan := false } }
  let x := s.tstr r
  let s := if x.hc then
      let s := s.setSt r (if x.derate then .derated else .normal)
      if x.joined ∧ s.sregEn r then s.enterRun r else s
    else s.strSync r
  (s.raise srcTrip EV_TRIP_CLEAR [r]).alertSync

/-- The effect of a write of CLR that is not refused: latched strings are released (R131). -/
def State.tripClr (s : State) (mask : Nat) : State :=
  ((List.range 12).filter (fun r => bit mask r)).foldl (fun s r => if (s.tstr r).latch = none then s else s.release r) s

/-- The effect of a write of `PW_TRIP_REQ`: source 28 with the action, scope and strings written (R127). -/
def State.tripReq (s : State) (v : Nat) : State :=
  let w : Word := BitVec.ofNat 32 v
  let act := PW_TRIP_REQ_ACT.get w
  let scope := PW_TRIP_REQ_SCOPE.get w
  let mask := PW_TRIP_REQ_SMASK.get w
  let rs := (List.range 12).filter (fun r => bit mask r)
  if ¬ s.rdB (PW_TRIP_SRC 28) PW_TRIP_SRC_EN then s
  else
    let vs := rs.map (fun r => ({ src := 28, key := r, on := true, act := act, scope := scope, native := some r, cause := r,
                                  value := v } : Verdict))
    let s := vs.foldl (fun s x => s.tripEvent act x) s
    let before := s.trip.active
    let acts := rs.map (fun r => ({ src := 28, key := r, act := act, strings := s.scopeMask scope (some r), cause := r } : ActiveSrc))
    let s := { s with trip := { s.trip with active := before ++ acts } }
    let s := s.strings.foldl (fun s r => (s.evalDerate r).evalString r) s
    let s := { s with trip := { s.trip with active := before } }
    s.strings.foldl (fun s r => s.evalDerate r) s

/-- The effect of a write of `PW_CON_CMD.OPEN`: RAMP-OPEN of each string, unlatched (R127). -/
def State.conOpen (s : State) (mask : Nat) : State :=
  ((List.range 12).filter (fun r => bit mask r)).foldl (fun s r =>
    if (s.tstr r).hc ∧ (s.tstr r).act < 3 then s.startAct r 3 28 false else s) s

/-- The effect of a write of `PW_CON_CMD.CLOSE` (R139). -/
def State.conClose (s : State) (mask : Nat) : State :=
  ((List.range 12).filter (fun r => bit mask r)).foldl (fun s r => s.closeReq r) s

/-- The effect of a completed write of the dynamic limits (R134, R136). -/
def State.dlimWritten (s : State) (r : Nat) : State :=
  let now := s.now
  let chg := (s.reg (PW_DLIM_CHG r)).toNat
  let dis := (s.reg (PW_DLIM_DIS r)).toNat
  let was := (s.tstr r).dlimStale
  let s := s.updTstr r (fun x => { x with dlimStamp := now, dlimStale := false, dlimChg := chg, dlimDis := dis })
  let s := if was then s.stringSource 17 r (some r) false else s
  s.limitsOnChange

/-! ## Starting pre-charge (R146, R148) -/

/-- The period in force, ps. -/
def State.sweepPeriod (s : State) : Nat := s.swp.period * s.rd AQ_SWP_PER AQ_SWP_PER_PLOAD * 10 * us

/-- The preconditions of START (R146). -/
def State.pchReady (s : State) : Bool :=
  s.rd PW_CFB_STAT PW_CFB_STAT_CLOSED == 0 && s.rdB SF_STAT SF_STAT_PERM && decide (s.sweepPeriod ≤ 10 * ms) &&
    s.senseValid s.seed && ((Tab.get none s.lnk.busRec 0).isSome || (Tab.get none s.lnk.busRec 1).isSome)

/-- EV_PCH_FAIL of a refused start or join: no step runs. -/
def State.pchRefuse (s : State) (reason : Nat) : State :=
  (s.wr PW_PCH_STAT PW_PCH_STAT_REASON reason).raise srcTrip EV_PCH_FAIL [s.seed, 1, reason]

/-- The bus lies within 5 % of its target (R146). -/
def State.busNear (s : State) : Bool :=
  decide (20 * (s.regu.vbus * 1000 - s.busTarget).natAbs ≤ s.busTarget.natAbs)

/-- Attempts of the latest 10 minutes (R149). -/
def State.pchTries (s : State) : List Nat := s.trip.pch.attempts.filter (fun t0 => decide (s.now < t0 + 600 * sec))

/-- Why START is refused: reason 1 or 8; 0 where it is not (R146, R149). -/
def State.pchStartReason (s : State) : Nat :=
  if ¬ s.pchReady then 1 else if s.busNear then 0 else if 3 ≤ s.pchTries.length then 8 else 0

/-- The effect of START (R146, R147). -/
def State.pchStart (s : State) : State :=
  let s := (s.wr PW_PCH_STAT PW_PCH_STAT_REASON 0).wr PW_PCH_STAT PW_PCH_STAT_FAILMASK 0
  if s.busNear then s.pchBuck s.pchOthers
  else
    let now := s.now
    let dv0 : Int := (s.tstr s.seed).vPos + (s.tstr s.seed).vNeg
    let tries := s.pchTries
    let s := (s.setPchStep 2).updPch (fun p => { p with start := now, dv0 := dv0, tau := 0, mask := 0, done := 0,
                                                        attempts := tries ++ [now] })
    s.setRelay true

/-- Whether JOIN is refused: no string in mode 1, the bus outside its band, or a sequence running (R148). -/
def State.pchJoinBad (s : State) : Bool :=
  !(s.strings.any (fun r => s.sregMode r == 1) && s.busSettled && s.trip.pch.step == 0)

/-- The effect of JOIN: steps 5 to 7 for JMASK (R148). -/
def State.pchJoin (s : State) : State :=
  let s := (s.wr PW_PCH_STAT PW_PCH_STAT_REASON 0).wr PW_PCH_STAT PW_PCH_STAT_FAILMASK 0
  let m := s.rd PW_PCH_CTL PW_PCH_CTL_JMASK
  let others := s.pchOthers
  s.pchBuck (((List.range 12).filter (fun r => bit m r && bit others r)).foldl (fun a r => a + 2 ^ r) 0)

/-- The effect of ABORT (R147, reason 9). -/
def State.pchAbort (s : State) : State := if s.trip.pch.step = 0 then s else s.pchFail 9

end Sys2Proof.Machine
end

