-- ==== Sys2Proof/Machine/SupOps.lean ====
section
/-!
DEFINITION. Resets and how they come about: grain restarts, block and region resets, the pre-sequence, the chip reset
(R13, R17 to R19, R149 to R151, R169, R170, R463, R473 to R476).
-/

namespace Sys2Proof.Machine

/-! ## Grains (R169, R181) -/

/-- Bytes from `lo` up to `hi` cleared to 0, with valid check bits. -/
def State.clearBytes (s : State) (lo hi : Nat) : State :=
  { s with
    mem := s.mem.filter (fun p => !(decide (lo ≤ p.1) && decide (p.1 < hi)))
    fab := { s.fab with poison := s.fab.poison.filter (fun p => !(decide (lo / 8 ≤ p.1) && decide (p.1 < hi / 8))) } }

/-- The data memory of a grain is cleared: data TCM, tile memory or frame buffer. -/
def State.clearData (s : State) (src : Nat) : State :=
  let a := aliasBase src
  s.clearBytes (a + instrBytes src) (a + localBytes src)

/-- Descriptors that sources hold for a grain are discarded (R181). -/
def State.dropHeld (s : State) (dest : Nat) : State :=
  { s with fab := { s.fab with held := s.fab.held.filter (fun p => p.1 % 4096 != dest) } }

/-- A grain at its reset vector, running or not (R181). -/
def State.grainInit (s : State) (src : Nat) (run : Run) : State :=
  let now := s.now
  (s.dropHeld src).setGrain src { run := run, retired := now }

/-- A word of a grain's instruction memory is poisoned (R169). -/
def State.instrPoisoned (s : State) (src : Nat) : Bool :=
  let a := aliasBase src
  s.fab.poison.any (fun p => p.2 && decide (a / 8 ≤ p.1) && decide (p.1 < (a + instrBytes src) / 8))

/-- A link engine's port must first be enumerated again: it is enabled and its enumeration was not complete (log 15). -/
def State.mustEnumerate (s : State) (src : Nat) : Bool :=
  match grainOfSrc src with
  | some (.link e) =>
    let st := s.rd (AQ_PORT_STAT e.val) AQ_PORT_STAT_STATE
    s.rdB (AQ_PORT_CTL e.val) AQ_PORT_CTL_EN && st != 0 && st != 5 && st != 6
  | _ => false

/-- A quarantined grain loses its fabric access and does nothing (R14). -/
def State.quarantine (s : State) (src : Nat) : State :=
  if (s.grain src).run = .unstarted then s
  else (s.dropHeld src).updGrain src (fun g => { g with run := .quarantined, wait := .none, inbox := [] })

/-- The fault record of a unit. -/
def State.unit (s : State) (u : Nat) : FaultUnit := Tab.get {} s.fab.units u
def State.updUnit (s : State) (u : Nat) (f : FaultUnit → FaultUnit) : State :=
  { s with fab := { s.fab with units := Tab.set {} s.fab.units u (f (s.unit u)) } }

/-- A quarantined grain restarts (R169): its data memory is cleared and it starts at its reset vector, unless one of the
three cases keeps it quarantined. -/
def State.restartGrain (s : State) (src : Nat) : State :=
  if (s.grain src).run ≠ .quarantined ∨ (s.unit src).phase = .stays then s
  else
    let s := s.clearData src
    if s.instrPoisoned src ∨ s.mustEnumerate src then s.updUnit src (fun u => { u with phase := .stays })
    else (s.grainInit src .running).updUnit src (fun u => { u with phase := .none })

/-- The grains of a block, by block source. -/
def grainsOfBlock (blk : Nat) : List Nat :=
  ((List.range 4).map (fun g => blk / 16 * 16 + g)).filter (fun g => (grainOfSrc g).isSome)

/-- The blocks of a region that hold something, by region number (R7). -/
def blocksOfRegion (r : Nat) : List Nat :=
  let n := match r with
    | 1 => 7
    | 2 => 4
    | 3 => 3
    | 4 => 4
    | 5 => 5
    | 6 => 3
    | _ => 0
  (List.range n).map (fun b => r * 256 + b * 16 + 15)

/-! ## Blocks and regions (R17, R168 to R170) -/

/-- Registers from `lo` up to `hi` at their reset values. -/
def State.resetRegs (s : State) (lo hi : Nat) : State :=
  { s with regs := s.regs.filter (fun p => !(decide (lo ≤ p.1) && decide (p.1 < hi))) }

/-- The state that a block holds beside its registers, at its reset value: keys of engines 4b to 4b + 3 (0x10F to 0x14F),
the current unit, the window block, the communications block, the regulator, gate, output and trip blocks. The wear records and
what stands on pins stay. -/
def State.resetBlockState (s : State) (blk : Nat) : State :=
  let b := blk / 16 % 16
  match blk / 256, b with
  | 1, 5 => { s with cur := {} }
  | 1, 6 => { s with swp := {} }
  | 1, _ =>
    let mine := fun (k : Nat) => k / 4 == b
    { s with lnk := { s.lnk with
      engines := s.lnk.engines.filter (fun p => !mine p.1),
      pos := s.lnk.pos.filter (fun p => !mine (eng0 (p.1 / 64))) } }
  | 3, 2 => { s with can := [], eth := {} }
  | 4, 0 => { s with regu := {} }
  | 4, 1 => { s with gate := {} }
  | 4, 2 =>
    let now := s.now
    { s with out := { s.out with ch := [] }, trip := { s.trip with cfbSince := s.trip.cfbRaw.map (fun p => (p.1, now)) } }
  | 4, 3 => { s with trip := { inbox := s.trip.inbox, wear := s.trip.wear, cfbRaw := s.trip.cfbRaw, cfbSince := s.trip.cfbSince } }
  | _, _ => s

/-- Fields of PS that OTP, MRAM or a sampled pin backs, kept through a reset of PS: bedrock count, cells in use, passwords,
failures, lockouts, key validity, what was booted and the debug scope (R423, R432, R447, R458, R462, R468). -/
def keptFields : List (Nat × Fld) :=
  [(LEDGER_STAT, LEDGER_STAT_BEDN), (LT_STAT, LT_STAT_INUSE), (PS_MRAM_STAT, PS_MRAM_STAT_SPARES), (CG_STAT, CG_STAT_SET),
   (CG_STAT, CG_STAT_FAILS), (CG_STAT, CG_STAT_LOCKN), (PS_KEY_CTL, PS_KEY_CTL_VALID), (PS_BOOT_STAT, PS_BOOT_STAT_OUTCOME),
   (PS_BOOT_STAT, PS_BOOT_STAT_BOOTPIN), (PS_BOOT_STAT, PS_BOOT_STAT_SLOT), (PS_BOOT_STAT, PS_BOOT_STAT_DBGOPEN),
   (PS_BOOT_STAT, PS_BOOT_STAT_DBGSCOPE)]

/-- Fields of one machine put into another. -/
def State.keepFields (s old : State) (fs : List (Nat × Fld)) : State := fs.foldl (fun s f => s.wr f.1 f.2 (old.rd f.1 f.2)) s

/-- The configuration gate locks, and records it with the password slot and a reason when it was unlocked (R463, R469). -/
def State.gateLock (s : State) (why : Nat) : State :=
  if s.rdB CG_STAT CG_STAT_UNLOCKED then
    let slot := s.rd CG_STAT CG_STAT_USED
    ((s.wr CG_STAT CG_STAT_UNLOCKED 0).wr CG_STAT CG_STAT_USED 0).raise srcCG EV_CG_LOCK [slot, why]
  else s

/-- A block isolated: its grains are quarantined (R13). -/
def State.isolate (s : State) (blk : Nat) : State :=
  let s := { s with fab := { s.fab with isolated := Tab.set false s.fab.isolated blk true } }
  (grainsOfBlock blk).foldl (fun s g => s.quarantine g) s

/-- A block reset: its registers and state at their reset values; its SRAM is kept (R170). -/
def State.resetBlock (s : State) (blk : Nat) : State :=
  let base := windowOf blk
  let old := s
  let s := s.resetRegs base (base + 0x7F000)
  let s := if blk / 256 = 5 then s.keepFields old keptFields else s
  s.resetBlockState blk

/-- A block's reset completes: it is reachable again and its grains restart (R169). -/
def State.blockUp (s : State) (blk : Nat) : State :=
  let s := { s with fab := { s.fab with isolated := Tab.set false s.fab.isolated blk false } }
  let s := s.updUnit blk (fun u => { u with phase := .none })
  (grainsOfBlock blk).foldl (fun s g => s.restartGrain g) s

/-- The watchdog's period starts again (R176). -/
def State.wdogStart (s : State) : State :=
  let due := s.now + s.rd FB_WDOG_CTL FB_WDOG_CTL_PERIOD * ms
  { s with fab := { s.fab with kicked := false, wdogDue := if s.rdB FB_WDOG_CTL FB_WDOG_CTL_WEN then some due else none } }

/-- The output hold starts, or starts again from this reset (R476, R478). -/
def State.holdStart (s : State) : State :=
  let now := s.now
  let s := { s with sv := { s.sv with holdAt := some now } }
  ((s.wr SV_HOLD_CTL SV_HOLD_CTL_HOLDING 1).hit SV_EVT SV_EVT_HOLD SV_CNT SV_CNT_HOLDN).raise srcSV EV_SV_HOLD [0]

/-- A region reset begins: ES (2), CT (3) or PS (5) (R17). The load timers of a CT in reset keep running, and so do their
settings (R476). -/
def State.regionReset (s : State) (r : Nat) : State :=
  let now := s.now
  let lt := s.regs.filter (fun p => decide (CT_LT_CFG 0 ≤ p.1 ∧ p.1 < CT_LT_CFG 24))
  let s := if r = 5 then s.gateLock 4 else if r = 3 then s.gateLock 3 else s
  let s := (blocksOfRegion r).foldl (fun s b => (s.isolate b).resetBlock b) s
  let s := if r = 3 then ((lt.foldl (fun s p => s.setReg p.1 p.2) s).holdStart).wdogStart else s
  let s := { s with fab := { s.fab with inReset := Tab.set false s.fab.inReset r true } }
  s.updUnit (r * 256 + 255) (fun u => { u with phase := .restarting now })

/-- A region's reset completes (R18, R170): a commit trigger that waited for PS enters commit mode. -/
def State.regionUp (s : State) (r : Nat) : State :=
  let s := { s with fab := { s.fab with inReset := Tab.set false s.fab.inReset r false } }
  let s := s.updUnit (r * 256 + 255) (fun u => { u with phase := .none })
  let s : State := (blocksOfRegion r).foldl (fun s b => s.blockUp b) s
  if r = 5 ∧ s.led.commitWait then ({ s with led := { s.led with commitWait := false } }).commitEnter else s

/-! ## The chip reset (R17, R475, R484) -/

/-- What a chip reset keeps of the ledger: what MRAM holds, the engine's place in it, and the spare rows. -/
def Ledger.keep (l : Ledger) : Ledger :=
  { seqNext := l.seqNext, sedSlot := l.sedSlot, sedReach := l.sedReach, chgNext := l.chgNext, chgSeq := l.chgSeq,
    jpend := l.jpend, jseq := l.jseq, archNext := l.archNext, retNext := l.retNext, redoSeq := l.redoSeq, remap := l.remap,
    rowsCorr := l.rowsCorr, scrubAt := l.scrubAt, scrubBand := l.scrubBand, spareLow := l.spareLow, halt := l.halt,
    haltMap := l.haltMap, wearCount := l.wearCount, wearSince := l.wearSince,
    pile := l.pile.filter (fun p => p.1 == srcSV), ord := l.ord }

/-- The lockout as it is durable: the time left at its latest full minute (R462). -/
def State.lockKept (s : State) : Option (Nat × Nat) :=
  s.boot.lock.map (fun l => (s.now, l.2 - (s.now - l.1) / (60 * sec) * (60 * sec)))

/-- Addresses whose bytes stay through a chip reset: all memories with power present (log 3), MRAM alone without. -/
def keepsByte (power : Bool) (a : Nat) : Bool := power || (decide (0x04000000 ≤ a) && decide (a < 0x05000000))

/-- The machine held in a chip reset: everything but SV, the VBAT clock and what OTP and MRAM hold restarts from boot; the
nodes and the levels at the pins stand outside the part. -/
def State.resetState (s : State) (power : Bool) : State :=
  let sv := s.regs.filter (fun p => power && decide (p.1 / 0x1000000 = 0x41))
  let s1 : State := { State.reset with
    pending := s.pending, now := s.now, fresh := s.fresh, regs := sv,
    mem := s.mem.filter (fun p => keepsByte power p.1),
    fab := { poison := s.fab.poison.filter (fun p => keepsByte power (p.1 * 8)), sramScrubAt := s.fab.sramScrubAt },
    led := s.led.keep, lnk := { nodes := s.lnk.nodes },
    trip := { wear := s.trip.wear, cfbRaw := s.trip.cfbRaw, cfbSince := s.trip.cfbRaw.map (fun p => (p.1, s.now)) },
    boot := { keys := s.boot.keys, keySeq := s.boot.keySeq, otp := s.boot.otp, pw := s.boot.pw, lock := s.lockKept },
    sv := s.sv }
  s1.keepFields s [(CG_STAT, CG_STAT_SET), (CG_STAT, CG_STAT_FAILS), (CG_STAT, CG_STAT_LOCKN), (PS_KEY_CTL, PS_KEY_CTL_VALID)]

/-- What the supervisor keeps when power is lost: the VBAT clock, the pins, the rails, and what it owes to PS. -/
def Super.lost (v : Super) : Super :=
  { pf := v.pf, lowAt := v.lowAt, highAt := v.highAt, test := v.test, rails := v.rails, rtc := v.rtc, rtcAt := v.rtcAt,
    rtcBad := v.rtcBad, owedHeld := v.owedHeld, owedRtc := v.owedRtc, drops := v.drops }

/-- A power loss may leave a program store that was not durable with its old value: which ones is free (R156, R205). -/
def State.tearStores (s : State) : State :=
  let lost := s.fab.mramPend
  lost.reverse.foldl (fun s p =>
    let old := decide (s.freeNat % 2 = 1)
    let s := s.drew 1
    if old then s.storeLE p.addr 4 p.old else s) s

/-- A chip reset is asserted for a cause (R475): PS closes its work while power is present (R438), the RTC takes chip time
(R484). -/
def State.chipReset (s : State) (cause : Nat) : State :=
  let power := decide (cause ≠ 1)
  let pre := s.trip.preseqAt.isSome
  let s := if power then ((s.gateLock 5).drainEvents).psClose else s.tearStores
  let s := s.resetState power
  let now := s.now
  let s : State := if power then s else { s with sv := s.sv.lost }
  let s := if cause = 2 then s else s.setReg SV_RST_HOLD 0#32
  let s := { s with sv := { s.sv with
    cause := 0, deferred := none, holdAt := none, resetAt := some now, shdnAt := none, hotAt := [], pfAt := none,
    owedReset := some (cause, b2n pre), powerLost := s.sv.powerLost || !power,
    rtc := if power then now / 1000 else s.sv.rtc, rtcAt := if power then now else s.sv.rtcAt } }
  ((s.wr SV_RST_STAT SV_RST_STAT_CAUSE cause).wr SV_RST_STAT SV_RST_STAT_PRESEQ (b2n pre)).wr SV_HOLD_CTL
    SV_HOLD_CTL_HOLDING 0

/-! ## The ways to it (R150, R151, R474) -/

/-- The pre-sequence starts: the supervisor raises source 29 (R150). -/
def State.preseqStart (s : State) (cause : Nat) : State :=
  let now := s.now
  let s := { s with sv := { s.sv with cause := cause }, trip := { s.trip with preseqAt := some now, preseqCause := cause } }
  (s.stringSource 29 0 none true).tripFlush

/-- PW is reset, every gate output hard off, and the power-die channels are held as they are (R151). -/
def State.pwHold (s : State) (cause : Nat) : State :=
  let now := s.now
  let closed := ((List.range 12).filter (fun r => (Tab.get {} s.trip.str r).hc)).foldl (fun m r => m + 2 ^ r) 0
  let s := (List.range 24).foldl (fun s n => s.hardOff n) s
  let s := [0x40F, 0x41F, 0x43F].foldl (fun s b => s.resetBlock b) s
  { s with
    sv := { s.sv with cause := cause, drops := Nat.lor s.sv.drops closed }
    trip := { s.trip with pwHoldAt := some now, preseqAt := none } }

/-- A chip reset is started in its way: 0 at once, 1 by R150, 2 by R151. -/
def State.startReset (s : State) (cause way : Nat) : State :=
  if way = 1 then s.preseqStart cause else if way = 2 then s.pwHold cause else s.chipReset cause

/-- A chip reset is requested: one under way stays as it is; in commit mode it is deferred until EV_LED_PF_COMMIT is
persisted, for at most 3 ms (R474). Power-on reset waits for nothing. -/
def State.requestReset (s : State) (cause way : Nat) : State :=
  if cause = 1 then s.chipReset 1
  else if s.sv.resetAt.isSome ∨ s.trip.pwHoldAt.isSome ∨ (s.trip.preseqAt.isSome ∧ way = 1) then s
  else if s.led.commit ∧ s.led.commitDone = none ∧ s.now < s.led.commitAt + 3 * ms ∧ s.trip.preseqAt = none then
    { s with sv := { s.sv with deferred := some (s.sv.deferred.getD (cause, way)) } }
  else s.startReset cause way

/-- The deferral ends (R474). -/
def State.runDeferred (s : State) : State :=
  match s.sv.deferred with
  | some (c, w) => ({ s with sv := { s.sv with deferred := none } }).startReset c w
  | none => s

/-- A chip-fatal fault: the pre-sequence, then a chip reset of cause 6 (R13, R475). -/
def State.chipFatal (s : State) : State := s.requestReset 6 1

/-- The booted slot is in trial (R450, R451). -/
def State.inTrial (s : State) : Bool :=
  let a := 0x04000000 + s.rd PS_BOOT_STAT PS_BOOT_STAT_SLOT * 0x200000 + 0x1FFFC0
  s.boot.booted && decide (s.loadLE (a + 4) 4 = 0x53544154 ∧ 0x10 ≤ s.loadLE a 4 ∧ s.loadLE a 4 ≤ 0x13)

/-- The pre-sequence ends (R150): at 5 ms every HC channel still on turns off under load; EV_PRESEQ names those strings;
the chip reset is asserted. Before that, while a channel is on, nothing happens. -/
def State.preseqEnd (s : State) : State :=
  match s.trip.preseqAt with
  | none => s
  | some t0 =>
    let s := s.tripFlush
    let on := (List.range 12).filter (fun r => (s.tstr r).hc)
    if on ≠ [] ∧ s.now < t0 + 5 * ms then s
    else
      let s := on.foldl (fun s r => s.hcOff r false) s
      let s := s.raise srcTrip EV_PRESEQ [on.foldl (fun m r => m + 2 ^ r) 0]
      s.chipReset s.sv.cause

end Sys2Proof.Machine
end

