-- ==== Sys2Proof/Machine/FaultOps.lean ====
section
/-!
DEFINITION. The chip fault controller: classes, reactions, escalation and the overlap rule (R13, R168 to R171).
-/

namespace Sys2Proof.Machine

/-- The level of a unit: 0 grain, 1 block, 2 region, 3 chip (R167). -/
def unitLevel (u : Nat) : Nat :=
  if u / 256 = 8 then 3 else if u % 256 = 255 then 2 else if u % 16 = 15 then 1 else 0

/-- Whether unit `a` is `b` or contains it. -/
def unitContains (a b : Nat) : Bool := a == b || a == blockOf b || a == regionOf b

/-- A fault noted: latest fault, the flag of its class with its count, and its event (R168). -/
def State.fltNote (s : State) (src code cls level : Nat) (words : List Nat) : State :=
  let s := (((s.wr FB_FLT_LAST FB_FLT_LAST_SRC src).wr FB_FLT_LAST FB_FLT_LAST_CLASS cls).wr FB_FLT_LAST FB_FLT_LAST_LEVEL
    level).wr FB_FLT_LAST FB_FLT_LAST_CODE code
  let s := if cls = 0 then s.hit FB_FLT_EVT FB_FLT_EVT_CORR FB_FLT_CNT0 FB_FLT_CNT0_CORRN
    else if cls = 1 then s.hit FB_FLT_EVT FB_FLT_EVT_RECOV FB_FLT_CNT0 FB_FLT_CNT0_RECOVN
    else s.hit FB_FLT_EVT FB_FLT_EVT_FATAL FB_FLT_CNT0 FB_FLT_CNT0_FATALN
  s.raise srcFault code (src :: words)

/-- A unit escalates, to a class and level (R168). -/
def State.escalNote (s : State) (u cls level : Nat) : State :=
  (s.hit FB_FLT_EVT FB_FLT_EVT_ESCAL FB_FLT_CNT1 FB_FLT_CNT1_ESCALN).fltNote u EV_FB_ESCALATE cls level []

/-- The units in recovery that are a unit, contain it or are contained by it (R171). -/
def State.overlapping (s : State) (u : Nat) : List Nat :=
  ((s.fab.units.filter (fun p => p.2.phase != .none && p.2.phase != .stays &&
    (unitContains p.1 u || unitContains u p.1))).map (fun p => p.1))

/-- EV_FB_OVERLAP with both sources (R171). -/
def State.overlapNote (s : State) (u : Nat) : State :=
  match s.overlapping u with
  | [] => s
  | v :: _ => (s.hit FB_FLT_EVT FB_FLT_EVT_OVERLAP FB_FLT_CNT1 FB_FLT_CNT1_OVERLAPN).raise srcFault EV_FB_OVERLAP [u, v]

/-- A fault counted in a unit's sliding window, and how many it holds (R170, R171). -/
def State.countFault (s : State) (u window : Nat) : Nat × State :=
  let now := s.now
  let fs := ((s.unit u).faults.filter (fun t => decide (now < t + window))) ++ [now]
  (fs.length, s.updUnit u (fun x => { x with faults := fs }))

/-- A unit waits for its restart; the restarts of the units it contains are carried out with it (R171). -/
def State.waitUnit (s : State) (u wait : Nat) : State :=
  let inner := (s.overlapping u).filter (fun v => v != u && unitContains u v)
  let s := inner.foldl (fun s v => s.updUnit v (fun x => { x with phase := .none })) s
  let due := s.now + wait
  s.updUnit u (fun x => { x with phase := .waiting due })

/-- A region-fatal fault of a region (R13, R19, R451): ES, CT or PS resets, until the fourth time within 10 minutes; AQ, PW
and a CT whose slot is in trial are treated as chip-fatal. SF is governed by nothing outside it (R10). -/
def State.regionFatal (s : State) (r : Nat) : State :=
  if r = 6 ∨ r = 7 then s
  else if r ≠ 2 ∧ r ≠ 3 ∧ r ≠ 5 then s.chipFatal
  else if r = 3 ∧ s.inTrial then s.chipFatal
  else
    let u := r * 256 + 255
    let s := s.overlapNote u
    let n := s.countFault u (600 * sec)
    let s := n.2
    if 3 < n.1 then (s.escalNote u 3 3).chipFatal
    else
      let inner := (s.overlapping u).filter (fun v => v != u)
      let s := inner.foldl (fun s v => s.updUnit v (fun x => { x with phase := .none })) s
      s.regionReset r

/-- A block's reaction: isolated, its wait runs; with its retries exceeded, region-fatal (R170). -/
def State.blockFault (s : State) (blk : Nat) : State :=
  if blk / 256 = 6 ∨ blk / 256 = 7 then s
  else
    let s := s.overlapNote blk
    let n := s.countFault blk (60 * sec)
    let s := n.2
    if s.rd FB_FLT_CFG FB_FLT_CFG_BRETRY < n.1 then
      (s.escalNote blk 2 2).regionFatal (blk / 256)
    else if (s.unit (regionOf blk)).phase ≠ .none then s
    else (s.isolate blk).waitUnit blk (s.rd FB_FLT_CFG FB_FLT_CFG_BWAIT * 10 * us)

/-- A grain's reaction: quarantined, its wait runs; with its retries exceeded it stays quarantined until released; inside
a unit in recovery that unit's wait starts again (R169 to R171). -/
def State.grainFault (s : State) (g : Nat) : State :=
  if (grainOfSrc g).isNone then s
  else
    let s := s.overlapNote g
    let n := s.countFault g (60 * sec)
    let s := (n.2).quarantine g
    let blk := blockOf g
    if s.rd FB_FLT_CFG FB_FLT_CFG_GRETRY < n.1 then
      (s.updUnit g (fun x => { x with phase := .stays })).escalNote g 1 0
    else if (s.unit (regionOf g)).phase ≠ .none then s
    else if (s.unit blk).phase ≠ .none then s.waitUnit blk (s.rd FB_FLT_CFG FB_FLT_CFG_BWAIT * 10 * us)
    else s.waitUnit g (s.rd FB_FLT_CFG FB_FLT_CFG_QWAIT * us)

/-- A unit goes one level up (R168). -/
def State.escalate (s : State) (u : Nat) : State :=
  match unitLevel u with
  | 0 => ((s.escalNote u 1 0).quarantine u).updUnit u (fun x => { x with phase := .stays })
  | 1 => (s.escalNote u 2 2).regionFatal (u / 256)
  | _ => (s.escalNote u 3 3).chipFatal

/-- A link failure (R161, R168): of a block to its region crossbar, of a region or inside its crossbar, inside the chip
crossbar. -/
def State.linkFailure (s : State) (u : Nat) : State :=
  match unitLevel u with
  | 3 => (s.fltNote u EV_FB_CHIP_FATAL 3 3 []).chipFatal
  | 2 => (s.fltNote u EV_FB_REGION_FATAL 2 2 []).regionFatal (u / 256)
  | _ => (s.fltNote (blockOf u) EV_FB_ISOLATE 1 1 []).blockFault (blockOf u)

/-- The unit that an address of SRAM, queue RAM or local memory belongs to: a grain, a region, or the queue controller. -/
def memUnit (a : Nat) : Nat :=
  match aliasAt a with
  | some (g, _) => g
  | none =>
    match a / 0x1000000 with
    | 0x10 => 0x1FF
    | 0x11 => 0x2FF
    | 0x12 => 0x3FF
    | 0x13 => if a < 0x13800000 then 0x4FF else 0x5FF
    | 0x14 => 0x6FF
    | _ => srcQueue

/-- A single-bit memory error corrected and counted (R158, R168). -/
def State.eccCorrected (s : State) (a : Nat) : State :=
  let u := memUnit a
  let r := u / 256
  let s := if 1 ≤ r ∧ r ≤ 6 then s.count (0x3F0 + (r - 1)) 1 else s
  s.fltNote u EV_FB_ECC_CORR 0 0 [a]

/-- An uncorrectable word (R158, R168): poisoned; in local memory its grain is quarantined; in SF's SRAM SF handles it. -/
def State.eccFailed (s : State) (a : Nat) : State :=
  let s := s.setPoison a true
  let u := memUnit a
  let s := s.fltNote u EV_FB_ECC_UNCORR 1 (unitLevel u) [a]
  if unitLevel u = 0 then s.grainFault u else s

/-- A fault source of a unit becomes active, or inactive. -/
def State.setSource (s : State) (u code : Nat) (on : Bool) : State :=
  let now := s.now
  s.updUnit u (fun x =>
    let rest := x.active.filter (fun p => p.1 != code)
    { x with active := if on then rest ++ [(code, ((x.active.find? (fun p => p.1 == code)).map (fun p => p.2)).getD now)]
             else rest })

/-- Whether a source keeps a unit from completing its recovery (R171). -/
def State.sourceActive (s : State) (u : Nat) : Bool :=
  s.fab.units.any (fun p => unitContains u p.1 && !p.2.active.isEmpty)

/-! ## Release (R169, R232) -/

/-- A vector grain that failed its self-test since the chip reset (R232). -/
def State.selfTestFailed (s : State) (g : Nat) : Bool :=
  match grainOfSrc g with
  | some (.vec v) =>
    (s.grain g).run == .quarantined && (s.unit g).phase == .stays && (s.unit g).faults.isEmpty &&
      !bit (s.rd (ES_VB_STAT (v.val / 4)) ES_VB_STAT_GOOD) (v.val % 4)
  | _ => false

/-- A release of a grain or block is refused while a fault source of it is active, or for a grain that failed its
self-test. -/
def State.fltRelBad (s : State) (u : Nat) : Bool :=
  s.sourceActive u || s.selfTestFailed u || (unitLevel u == 0 && s.instrPoisoned u)

/-- The release of a quarantined grain or an isolated block (R169). -/
def State.fltRel (s : State) (u : Nat) : State :=
  if unitLevel u = 1 then
    if Tab.get false s.fab.isolated u then (s.resetBlock u).blockUp u else s
  else if unitLevel u = 0 ∧ (s.grain u).run = .quarantined then
    let stays := decide ((s.unit u).phase = .stays)
    let s := if stays then s else s.clearData u
    (s.grainInit u .running).updUnit u (fun x => { x with phase := .none })
  else s

end Sys2Proof.Machine
end

