-- ==== Sys2Proof/Machine/BootOps.lean ====
section
/-!
DEFINITION. Images, rollback, OTP burns, debug tokens, the configuration gate and the key store: what the commands of the
boot, gate and key registers check and do (R448 to R468).
-/

namespace Sys2Proof.Machine

/-! ## Image slots (R448 to R450) -/

/-- The base of an image slot: 0 A, 1 B. -/
def imgBase (slot : Nat) : Nat := 0x04000000 + slot * 0x200000
/-- The largest body, bytes. -/
def imgBodyMax : Nat := 0x1FFDC0
/-- The address of a slot's state word. -/
def imgState (slot : Nat) : Nat := imgBase slot + 0x1FFFC0

/-- A field of a slot's header: offset and bytes. -/
def State.hdr (s : State) (slot o n : Nat) : Nat := s.loadLE (imgBase slot + o) n
def State.imgSeq (s : State) (slot : Nat) : Nat := s.hdr slot 8 4
def State.imgVersion (s : State) (slot : Nat) : Nat := s.hdr slot 12 1
def State.imgKey (s : State) (slot : Nat) : Nat := s.hdr slot 13 1
def State.imgSegs (s : State) (slot : Nat) : Nat := s.hdr slot 14 2
def State.imgBody (s : State) (slot : Nat) : Nat := s.hdr slot 16 4

/-- Segment i of a slot: target address, body offset, length, grain. -/
def State.imgSeg (s : State) (slot i : Nat) : Nat × Nat × Nat × Nat :=
  let o := 128 + 16 * i
  (s.hdr slot o 4, s.hdr slot (o + 4) 4, s.hdr slot (o + 8) 4, s.hdr slot (o + 12) 2)

/-- No poisoned word lies in `n` bytes from an aligned address. -/
def State.soundRange (s : State) (a n : Nat) : Bool :=
  !s.fab.poison.any (fun p => p.2 && decide (a / 8 ≤ p.1) && decide (p.1 < (a + n + 7) / 8))

/-- Bytes of a range that are all 0. -/
def State.zeroRange (s : State) (a n : Nat) : Bool := (s.loadBytes a n).all (fun b => b == 0)

/-- A target: every byte lies in one grain's local memory alias, or in the SRAM of one region. -/
def targetOk (t n : Nat) : Bool :=
  (match aliasAt t with
    | some (src, off) => decide (off + n ≤ localBytes src)
    | none => false) ||
  sramAreas.any (fun m => decide (m.1 ≤ t ∧ t + n ≤ m.1 + m.2))

/-- A P-256 public key against the key hashes of OTP (R449). -/
def State.keyOk (s : State) (k : Nat) (key : List Nat) : Bool :=
  decide (k < 4) && s.keyProgrammed k && !s.keyRevoked k && Config.sha256 key == s.keyHash k

/-- The first check of R449 that a slot fails, 1 to 9 in its order; 0 when it is valid. -/
def State.imgCheck (s : State) (slot : Nat) : Nat :=
  let b := imgBase slot
  let n := s.imgSegs slot
  let segs := (List.range n).map (fun i => s.imgSeg slot i)
  let fieldsOk := decide (s.imgVersion slot ≤ 64) && decide (s.imgKey slot ≤ 3) && decide (1 ≤ n ∧ n ≤ 16) &&
    decide (s.imgBody slot ≤ imgBodyMax) && s.zeroRange (b + 52) 12 && s.zeroRange (b + 384) 64 &&
    segs.all (fun g => g.2.2.2 == 0 || (grainOfSrc g.2.2.2).isSome)
  let key := s.loadBytes (b + 64) 64
  if ¬ (s.soundRange b 512 ∧ s.hdr slot 0 4 = 0x43583949 ∧ s.hdr slot 4 4 = 1) then 1
  else if ¬ fieldsOk then 2
  else if ¬ s.keyOk (s.imgKey slot) key then 3
  else if ¬ Config.ecdsaOk key (Config.sha256 (s.loadBytes b 448)) (s.loadBytes (b + 448) 64) then 4
  else if ¬ (s.soundRange (b + 512) (s.imgBody slot) ∧
      Config.sha256 (s.loadBytes (b + 512) (s.imgBody slot)) = s.loadBytes (b + 20) 32) then 5
  else if s.imgVersion slot < s.arb then 6
  else if ¬ segs.all (fun g => decide (g.2.1 + g.2.2.1 ≤ s.imgBody slot)) then 7
  else if ¬ segs.all (fun g => targetOk g.1 g.2.2.1) then 8
  else if (s.imgSeg slot 0).2.2.2 ≠ 0x300 then 9
  else 0

/-- A slot checked; a failure is recorded (R449). -/
def State.checkSlot (s : State) (slot : Nat) : Bool × State :=
  let c := s.imgCheck slot
  if c = 0 then (true, s) else (false, s.raise srcBoot EV_BOOT_REJECT [slot, c])

/-- What a state word says (R450). -/
inductive SlotState where
  | trial (n : Nat)
  | confirmed
  | rejected
  | unbootable
  deriving DecidableEq, Repr

def State.slotState (s : State) (slot : Nat) : SlotState :=
  let a := imgState slot
  let v := s.loadLE a 4
  if ¬ s.sound a 8 ∨ s.loadLE (a + 4) 4 ≠ 0x53544154 then .unbootable
  else if 0x10 ≤ v ∧ v ≤ 0x13 then .trial (v - 0x10)
  else if v = 0x20 then .confirmed
  else if v = 0x30 then .rejected
  else .unbootable

/-- A state word written. -/
def State.slotStateWrite (s : State) (slot v : Nat) : State := s.mramWrite (imgState slot) (bytesLE v 4 ++ bytesLE 0x53544154 4)

/-! ## Confirmation, rollback, revocation (R454, R455) -/

def State.bootSlot (s : State) : Nat := s.rd PS_BOOT_STAT PS_BOOT_STAT_SLOT

def State.confirmBad (s : State) : Bool := !s.inTrial
def State.confirm (s : State) : State :=
  let slot := s.bootSlot
  (s.slotStateWrite slot 0x20).raise srcBoot EV_BOOT_CONFIRM [slot]

def State.arbBad (s : State) (v : Nat) : Bool :=
  decide (s.boot.version < v) || decide (v < s.arb) || !s.boot.booted || s.slotState s.bootSlot != .confirmed

/-- The counter burnt up to v: bits not yet set, each in its three copies (R454). -/
def State.arbBurn (s : State) (v : Nat) : State :=
  (List.range 64).foldl (fun (s : State) i =>
    if s.arb < v ∧ ¬ s.otp3 (0x280 * 8) 64 i then
      ((s.burnBit (0x280 * 8 + i)).burnBit (0x280 * 8 + 64 + i)).burnBit (0x280 * 8 + 128 + i)
    else s) s

def State.arbGo (s : State) (v : Nat) : State := (s.arbBurn v).raise srcBoot EV_BOOT_ARB [s.bootSlot, v]

def State.revBad (s : State) (k : Nat) : Bool :=
  (s.boot.booted && s.boot.key == k) ||
    !(List.range 4).any (fun j => j != k && s.keyProgrammed j && !s.keyRevoked j)

def State.revGo (s : State) (k : Nat) : State :=
  let b := 0x298 * 8 + k
  (((s.burnBit b).burnBit (b + 4)).burnBit (b + 8)).raise srcBoot EV_BOOT_REVOKE [k]

/-- `REBOOT` is refused in commit mode (R454). -/
def State.rebootBad (s : State) : Bool := s.led.commit

/-! ## Debug (R467, R468) -/

def State.dbgPermLocked (s : State) : Bool :=
  maj3 (s.otpBit (0x2E0 * 8 + 6)) (s.otpBit (0x2E0 * 8 + 7)) (s.otpBit (0x2E0 * 8 + 8))

/-- The token as written, 192 bytes. -/
def State.token (s : State) : List Nat := (List.range 48).flatMap (fun n => bytesLE (s.reg (PS_DBG_TOK n)).toNat 4)

/-- The challenge in force. -/
def State.challenge (s : State) : Option (List Nat) :=
  match s.boot.chal with
  | some (c, t0) => if s.now < t0 + 600 * sec then some c else none
  | none => none

/-- Whether the token written is good. -/
def State.tokenOk (s : State) : Bool :=
  let b := s.token
  let at_ := fun (o n : Nat) => (b.drop o).take n
  let key := at_ 64 64
  let dur := ofBytesLE (at_ 30 2)
  !s.dbgPermLocked && ofBytesLE (at_ 0 4) == 0x44425431 && at_ 4 8 == s.otpBytes 0 8 && s.challenge == some (at_ 12 16) &&
    decide (ofBytesLE (at_ 28 2) < 64) && decide (1 ≤ dur ∧ dur ≤ 1440) && (at_ 33 31).all (fun x => x == 0) &&
    s.keyOk (ofBytesLE (at_ 32 1)) key && Config.ecdsaOk key (Config.sha256 (at_ 0 128)) (at_ 128 64)

/-- The debug scope closed. -/
def State.dbgClose (s : State) : State :=
  let s := (s.wr PS_BOOT_STAT PS_BOOT_STAT_DBGOPEN 0).wr PS_BOOT_STAT PS_BOOT_STAT_DBGSCOPE 0
  { s with boot := { s.boot with dbgDue := none } }

/-- The effect of `DBGGO`: the challenge is used up, a good token opens its scope. -/
def State.dbgGo (s : State) : State :=
  let ok := s.tokenOk
  let b := s.token
  let k := b.getD 32 0
  let s := { s with boot := { s.boot with chal := none } }
  if ok then
    let due := s.now + ofBytesLE ((b.drop 30).take 2) * 60 * sec
    let s := { s with boot := { s.boot with dbgDue := some due } }
    ((s.wr PS_BOOT_STAT PS_BOOT_STAT_DBGOPEN 1).wr PS_BOOT_STAT PS_BOOT_STAT_DBGSCOPE (b.getD 28 0)).raise srcBoot
      EV_BOOT_DBG_UNLOCK [k]
  else s.raise srcBoot EV_BOOT_DBG_FAIL [k]

/-! ## OTP (R466) -/

/-- A bit that `PS_OTP_PRG` burns: key hashes, provisioning keys, the policy bits but the commissioned ones. -/
def designerBit (i : Nat) : Bool :=
  let b := i / 8
  decide (0x200 ≤ b ∧ b < 0x280) || decide (0x2A0 ≤ b ∧ b < 0x2E0) || decide (0x2E0 * 8 + 3 ≤ i ∧ i < 0x2E0 * 8 + 12)

def State.otpBad (s : State) (i : Nat) : Bool := !designerBit i || !s.rdB CG_STAT CG_STAT_UNLOCKED || s.commissioned
def State.otpGo (s : State) (i : Nat) : State := (s.burnBit i).raise srcBoot EV_OTP_BURN [i]

/-! ## The configuration gate (R461 to R464) -/

def State.unlocked (s : State) : Bool := s.rdB CG_STAT CG_STAT_UNLOCKED

/-- Whether a lockout is in force. -/
def State.lockedOut (s : State) : Bool :=
  match s.boot.lock with
  | some (t0, len) => decide (s.now < t0 + len)
  | none => false

/-- The password as written. -/
def State.password (s : State) (len : Nat) : List Nat :=
  ((List.range 8).flatMap (fun n => bytesLE (s.reg (CG_PW n)).toNat 4)).take len

/-- The password words zeroed. -/
def State.pwZero (s : State) : State := (List.range 8).foldl (fun s n => s.setReg (CG_PW n) 0#32) s

def pwLenOk (len : Nat) : Bool := decide (1 ≤ len ∧ len ≤ 32)

/-- An unlock is refused for its length or during a lockout. -/
def State.unlockBad (s : State) (len : Nat) : Bool := !pwLenOk len || s.lockedOut

/-- The fifth failure starts a lockout (R462). -/
def State.lockoutStart (s : State) (slot : Nat) : State :=
  let n := s.rd CG_STAT CG_STAT_LOCKN
  let len := Nat.min (24 * 3600) (600 * 2 ^ n) * sec
  let now := s.now
  let s := { s with boot := { s.boot with lock := some (now, len) } }
  ((s.wr CG_STAT CG_STAT_LOCKN (Nat.min 31 (n + 1))).wr CG_STAT CG_STAT_FAILS 0).raise srcCG EV_CG_LOCKOUT [slot]

/-- The effect of `UNLOCK` on a slot with a length. -/
def State.unlock (s : State) (slot len : Nat) : State :=
  let pw := s.password len
  let ok := match Tab.get none s.boot.pw slot with
    | some (salt, hash) => Config.sha256 (salt ++ pw) == hash
    | none => false
  let s := s.pwZero
  if ok then
    let now := s.now
    let s := { s with boot := { s.boot with gateAt := now } }
    let s := ((s.wr CG_STAT CG_STAT_UNLOCKED 1).wr CG_STAT CG_STAT_USED slot).wr CG_STAT CG_STAT_FAILS 0
    (s.wr CG_STAT CG_STAT_LOCKN 0).raise srcCG EV_CG_UNLOCK [slot]
  else
    let n := s.rd CG_STAT CG_STAT_FAILS + 1
    let s := (s.wr CG_STAT CG_STAT_FAILS n).raise srcCG EV_CG_FAIL [slot]
    if 5 ≤ n then s.lockoutStart slot else s

def State.setpwBad (s : State) (len : Nat) : Bool :=
  !pwLenOk len || (!s.unlocked && s.rd CG_STAT CG_STAT_SET != 0)

/-- The effect of `SETPW`: a new salt, a free value, and the hash. -/
def State.setpw (s : State) (slot len : Nat) : State :=
  let pw := s.password len
  let salt := (List.range 16).map (fun i => Config.freeWord (s.fresh + i) % 256)
  let s := (s.drew 16).pwZero
  let s := { s with boot := { s.boot with pw := Tab.set none s.boot.pw slot (some (salt, Config.sha256 (salt ++ pw))) } }
  (s.wrBit CG_STAT (25 + slot) true).raise srcCG EV_CG_PWCHG [slot]

def State.clrpwBad (s : State) (slot : Nat) : Bool := !s.unlocked || s.rd CG_STAT CG_STAT_SET == 2 ^ slot
def State.clrpw (s : State) (slot : Nat) : State :=
  let s := s.pwZero
  let s := { s with boot := { s.boot with pw := Tab.set none s.boot.pw slot none } }
  (s.wrBit CG_STAT (25 + slot) false).raise srcCG EV_CG_PWCHG [slot]

/-! ## The key store (R458, R459) -/

/-- The blob as written, 64 bytes. -/
def State.blob (s : State) : List Nat := (List.range 16).flatMap (fun n => bytesLE (s.reg (PS_KEY_BLOB n)).toNat 4)

/-- The provisioning keys: encryption, then MAC. -/
def State.provEnc (s : State) : List Nat := s.otpBytes 0x2A0 32
def State.provMac (s : State) : List Nat := s.otpBytes 0x2C0 32

def State.importBad (s : State) : Bool :=
  let b := s.blob
  !s.unlocked || s.provEnc.all (fun x => x == 0) || s.provMac.all (fun x => x == 0) ||
    beBytes (Config.aesCmac s.provMac (b.take 48)) 16 != b.drop 48 || b.getD 0 0 != 0 || b.getD 1 0 != 1 ||
    (List.range 18).any (fun p => s.rdB (AQ_PORT_CTL p) AQ_PORT_CTL_EN)

/-- The effect of `IMPORT`: the older copy of the slot is written. -/
def State.keyTake (s : State) : State :=
  let key := (Config.aesDecrypt s.provEnc (List.replicate 16 0) ((s.blob.drop 16).take 32)).take 16
  let q0 := Tab.get 0 s.boot.keySeq 0
  let q1 := Tab.get 0 s.boot.keySeq 1
  let s := { s with boot := { s.boot with
    keys := Tab.set none s.boot.keys 0 (some key),
    keySeq := Tab.set 0 s.boot.keySeq (if q0 ≤ q1 then 0 else 1) (Nat.max q0 q1 + 1) } }
  (s.wrBit PS_KEY_CTL 0 true).raise srcKey EV_KEY_IMPORT [0]

end Sys2Proof.Machine
end

