-- ==== Sys2Proof/Machine/BootRom.lean ====
section
/-!
DEFINITION. What the boot ROM does: boot, recovery and its commands (R447 to R452, R456, R457); and the timed events of the
gate and the debug scope (R462, R463, R468).
-/

namespace Sys2Proof.Machine

/-! ## Recovery (R456) -/

/-- Entering recovery with the slots already known to be invalid; `iface` names the interface by the pins, 2 none. -/
def State.enterRecovery (s : State) (bad : List Nat) (iface : Nat) : State :=
  let a := if bad.contains 0 then (false, s) else s.checkSlot 0
  let b := if bad.contains 1 then (false, a.2) else a.2.checkSlot 1
  let s := b.2
  let slot := if ¬ a.1 then 0 else if ¬ b.1 then 1 else if s.imgSeq 0 < s.imgSeq 1 then 0 else 1
  let want := if iface = 2 then b2n (s.otpBit (0x2E0 * 8 + 11)) else iface
  let off := s.otpBit (0x2E0 * 8 + 9 + want)
  let s := { s with boot := { s.boot with recover := some { iface := if off then 2 else want, slot := slot } } }
  ((s.wr PS_BOOT_STAT PS_BOOT_STAT_OUTCOME 3).wr PS_BOOT_STAT PS_BOOT_STAT_SLOT slot).raise srcBoot EV_BOOT_RECOVERY [slot]

/-! ## Boot (R450 to R452) -/

/-- Segments copied in index order (R452). -/
def State.loadSegments (s : State) (slot : Nat) : State :=
  (List.range (s.imgSegs slot)).foldl (fun s i =>
    let g := s.imgSeg slot i
    let s := s.storeBytes g.1 (s.loadBytes (imgBase slot + 512 + g.2.1) g.2.2.1)
    let left := s.fab.poison.filter (fun p => !(decide (g.1 ≤ p.1 * 8) && decide (p.1 * 8 + 8 ≤ g.1 + g.2.2.1)))
    { s with fab := { s.fab with poison := left } }) s

/-- The grains named are started in segment order, control grain 0 last (R452); a quarantined grain stays so. -/
def State.startGrains (s : State) (slot : Nat) : State :=
  let s := (List.range (s.imgSegs slot)).foldl (fun (s : State) i =>
    let g := (s.imgSeg slot i).2.2.2
    if g = 0 ∨ g = 0x300 ∨ (s.grain g).run = .quarantined then s else s.grainInit g .running) s
  s.grainInit 0x300 .running

/-- A checked slot is booted: its trial count written first, segments, grains, EV_BOOT_START (R451, R452). -/
def State.bootTake (s : State) (slot outcome : Nat) : State :=
  let s := match s.slotState slot with
    | .trial n => s.slotStateWrite slot (0x11 + n)
    | _ => s
  let seq := s.imgSeq slot
  let ver := s.imgVersion slot
  let key := s.imgKey slot
  let s := (s.wr PS_BOOT_STAT PS_BOOT_STAT_OUTCOME outcome).wr PS_BOOT_STAT PS_BOOT_STAT_SLOT slot
  let s := { s with boot := { s.boot with booted := true, version := ver, key := key } }
  let s := if outcome = 1 then s.raise srcBoot EV_BOOT_FALLBACK [slot] else s
  let s := s.raise srcBoot EV_BOOT_START [slot, outcome, seq, ver]
  (s.loadSegments slot).startGrains slot

/-- The slots whose state can be booted, the preferred one first (R450). -/
def State.bootOrder (s : State) : List Nat :=
  let ok := fun slot => match s.slotState slot with
    | .trial _ => true
    | .confirmed => true
    | _ => false
  (if s.imgSeq 0 < s.imgSeq 1 then [1, 0] else [0, 1]).filter ok

/-- The slots considered in order: one tried out is rejected, one that fails a check is passed over, the first good one is
booted; with none left the part enters recovery (R450, R456). -/
def State.bootTry (s : State) (bad : List Nat) (first : Bool) : List Nat → State
  | [] => s.enterRecovery bad 2
  | slot :: rest =>
    if s.slotState slot = .trial 3 then (s.slotStateWrite slot 0x30).bootTry bad false rest
    else
      let c := s.checkSlot slot
      if c.1 then c.2.bootTake slot (if first then 0 else 1) else c.2.bootTry (bad ++ [slot]) false rest

/-- A slot forced by the pins (R447, R449). -/
def State.bootForced (s : State) (slot : Nat) : State :=
  match s.slotState slot with
  | .trial n =>
    if n = 3 then (s.slotStateWrite slot 0x30).enterRecovery [] 2
    else
      let c := s.checkSlot slot
      if c.1 then c.2.bootTake slot 2 else c.2.enterRecovery [slot] 2
  | .confirmed =>
    let c := s.checkSlot slot
    if c.1 then c.2.bootTake slot 2 else c.2.enterRecovery [slot] 2
  | _ => s.enterRecovery [] 2

/-- The boot ROM on control grain 0 samples the BOOT pins once and acts on them (R447). -/
def execBootRom (s : State) (pins : Fin 8) (t : Nat) : Host.Outcome State Fault Refusal :=
  let s := s.at t
  if ¬ s.boot.psUp ∨ s.boot.booted ∨ s.boot.recover.isSome ∨ s.sv.resetAt.isSome ∨ (s.grain 0x300).run ≠ .running then .next s
  else
    let p := pins.val
    let s := s.wr PS_BOOT_STAT PS_BOOT_STAT_BOOTPIN p
    if p = 1 then .next (s.enterRecovery [] 0)
    else if p = 2 then .next (s.enterRecovery [] 1)
    else if p = 3 then .next (s.bootForced 0)
    else if p = 4 then .next (s.bootForced 1)
    else
      let s := if 5 ≤ p then s.raise srcBoot EV_BOOT_REFUSED [p] else s
      .next (s.bootTry [] true s.bootOrder)

/-! ## The recovery commands (R457) -/

/-- The reply to a command: its type + 0x80, its sequence, a status and data. -/
def State.reply (s : State) (typ status : Nat) (data : List Nat) : State :=
  match s.boot.recover with
  | some r => { s with boot := { s.boot with recover := some { r with reply := some (typ + 0x80, status, data) } } }
  | none => s

/-- A command of a type and sequence: none outside recovery; a repeated sequence is answered again as before, another than
the next is refused with status 2, the next is carried out. -/
def State.recCommand (s : State) (typ seq : Nat) (f : Recover → State → State) : State :=
  match s.boot.recover with
  | none => s
  | some r =>
    if r.iface = 2 then s
    else
      let go := fun (s : State) => f r { s with boot := { s.boot with recover := some { r with seq := seq } } }
      match r.reply with
      | none => go s
      | some _ =>
        if seq = r.seq then s
        else if seq = (r.seq + 1) % 65536 then go s
        else s.reply typ 2 []

/-- HELLO: serial, lot and silicon revision, counter, both slots' sequence and state. -/
def execHello (s : State) (seq : Fin 65536) (t : Nat) : Host.Outcome State Fault Refusal :=
  .next ((s.at t).recCommand 1 seq.val (fun _ s =>
    s.reply 1 0 (s.otpBytes 0 16 ++ [s.arb] ++ (List.range 2).flatMap (fun k =>
      bytesLE (s.imgSeq k) 4 ++ s.loadBytes (imgState k) 8))))

/-- WRITE: data at an offset of the target slot; its state word is invalidated before the first body write (R456). -/
def execWrite (s : State) (seq : Fin 65536) (off : Nat) (data : List Nat) (t : Nat) : Host.Outcome State Fault Refusal :=
  .next ((s.at t).recCommand 2 seq.val (fun r s =>
    if 0x1FFFC0 < off + data.length ∨ (if r.iface = 0 then 1024 else 56) < data.length then s.reply 2 1 []
    else
      let first := decide (0x200 < off + data.length) && !r.begun
      let s := if first then s.mramWrite (imgState r.slot) (bytesLE 0 8) else s
      let s := s.storeBytes (imgBase r.slot + off) data
      let s := (List.range ((off % 8 + data.length + 7) / 8)).foldl (fun s i =>
        s.setPoison (imgBase r.slot + off + 8 * i) false) s
      let rec_ := s.boot.recover.map (fun x => { x with verified := false, begun := x.begun || first })
      let s := { s with boot := { s.boot with recover := rec_ } }
      s.reply 2 0 []))

/-- VERIFY: the target slot is checked under R449; the status tells a signature or hash, the counter, or any other
check. -/
def execVerify (s : State) (seq : Fin 65536) (t : Nat) : Host.Outcome State Fault Refusal :=
  .next ((s.at t).recCommand 3 seq.val (fun r s =>
    let c := s.imgCheck r.slot
    let s := (s.checkSlot r.slot).2
    let rec_ := s.boot.recover.map (fun x => { x with verified := decide (c = 0) })
    let s := { s with boot := { s.boot with recover := rec_ } }
    s.reply 3 (if c = 0 then 0 else if c = 6 then 4 else if 3 ≤ c ∧ c ≤ 5 then 3 else 1) []))

/-- COMMIT: after a good VERIFY, trial 0 and a chip reset. -/
def execCommit (s : State) (seq : Fin 65536) (t : Nat) : Host.Outcome State Fault Refusal :=
  .next ((s.at t).recCommand 4 seq.val (fun r s =>
    if r.verified then ((s.slotStateWrite r.slot 0x10).reply 4 0 []).requestReset 7 1 else s.reply 4 3 []))

/-! ## Timed events -/

/-- A read of `PS_DBG_CHAL0` draws a challenge (R468). -/
def execDebugChallengeRead (s : State) (t : Nat) : Host.Outcome State Fault Refusal :=
  let s := s.at t
  let r := s.busRead (PS_DBG_CHAL 0)
  .next { r.2 with fab := { r.2.fab with rdata := r.1.getD 0, rerr := r.1.isNone } }

/-- A challenge's 10 min or a token's duration runs out (R468). -/
def execDebugExpire (s : State) (t : Nat) : Host.Outcome State Fault Refusal :=
  let s := s.at t
  let s := if s.challenge.isNone then { s with boot := { s.boot with chal := none } } else s
  match s.boot.dbgDue with
  | some due => .next (if due ≤ s.now then s.dbgClose else s)
  | none => .next s

/-- The lockout time runs out (R462). -/
def execCgLockoutEnd (s : State) (t : Nat) : Host.Outcome State Fault Refusal :=
  let s := s.at t
  .next (if s.lockedOut then s else { s with boot := { s.boot with lock := none } })

/-- `CGTO` without a gated write (R463). -/
def execCgIdleTimeout (s : State) (t : Nat) : Host.Outcome State Fault Refusal :=
  let s := s.at t
  .next (if s.boot.gateAt + s.rd CG_CTL CG_CTL_CGTO * 60 * sec ≤ s.now then s.gateLock 2 else s)

end Sys2Proof.Machine
end

