-- ==== Sys2Proof/Machine/CanOps.lean ====
section
/-!
DEFINITION. The CAN controllers' operations: bit timing, buffers, arbitration, FIFOs, error counters, reference time
(chapter 14).
-/

namespace Sys2Proof.Machine

/-! ## Access -/

def State.canOf (s : State) (n : Nat) : Can := Tab.get {} s.can n
def State.updCan (s : State) (n : Nat) (f : Can → Can) : State := { s with can := Tab.set {} s.can n (f (s.canOf n)) }
/-- The source of controller n (R167). -/
def canSrc (n : Nat) : Nat := 0x320 + n
def State.canEn (s : State) (n : Nat) : Bool := s.rdB (CAN_CTL n) CAN_CTL_EN
def State.canMode (s : State) (n : Nat) : Nat := s.rd (CAN_CTL n) CAN_CTL_MODE
def State.canState (s : State) (n : Nat) : Nat := s.rd (CAN_ERR n) CAN_ERR_STATE
/-- An inbox descriptor of class 8 (R389); a destination of 0 posts nothing. -/
def State.canPost (s : State) (n code dest a b : Nat) : State := s.post 8 (canSrc n) code dest a b
/-- The first snapshot word: controller and buffer (R400). -/
def canWord (n b : Nat) : Nat := n * 256 + b
/-- The SOF stamp of a chip instant in ns, µs (R395). -/
def sofUs (ns : Nat) : Nat := ns / 1000 % 2 ^ 32

/-! ## Bit timing (R380, R381) -/

/-- Cycles of 80 MHz in a nominal and in a data-phase bit. -/
def nomCycles (w : Word) : Nat := (CAN_NBT_NBRP.get w + 1) * (1 + (CAN_NBT_NTSEG1.get w + 1) + (CAN_NBT_NTSEG2.get w + 1))
def datCycles (w : Word) : Nat := (CAN_DBT_DBRP.get w + 1) * (1 + (CAN_DBT_DTSEG1.get w + 1) + (CAN_DBT_DTSEG2.get w + 1))

/-- Whether a write of `EN` 1 is refused for its bit timing (R381); the data phase counts while FD frames are enabled. -/
def State.canTimingBad (s : State) (n : Nat) (fde : Bool) : Bool :=
  let nb := s.reg (CAN_NBT n)
  let db := s.reg (CAN_DBT n)
  let nc := nomCycles nb
  let dc := datCycles db
  let nq := 3 + CAN_NBT_NTSEG1.get nb + CAN_NBT_NTSEG2.get nb
  let dq := 3 + CAN_DBT_DTSEG1.get db + CAN_DBT_DTSEG2.get db
  decide (nc < 80 ∨ 8000 < nc) || decide (nq < 8) || decide (CAN_NBT_NTSEG2.get nb < CAN_NBT_NSJW.get nb) ||
    (CAN_NBT_TRIPLE.get nb == 1 && decide (nc < 320)) ||
    (fde && (decide (dc < 10 ∨ 80 < dc) || decide (nc < dc) || decide (dq < 5) ||
      decide (CAN_DBT_DTSEG2.get db < CAN_DBT_DSJW.get db) ||
      (decide (dc < 80) && !s.rdB (CAN_TDC n) CAN_TDC_TDCEN)))

/-- Whether a write of `CAN_CTL` is refused beyond its ranges (R381, R393). -/
def State.canCtlBad (s : State) (n : Nat) (w : Word) : Bool :=
  let old := s.reg (CAN_CTL n)
  let on := s.canEn n
  (on && (CAN_CTL_FDE.get w != CAN_CTL_FDE.get old || CAN_CTL_MODE.get w != CAN_CTL_MODE.get old)) ||
    (!on && CAN_CTL_EN.get w == 1 && s.canTimingBad n (CAN_CTL_FDE.get w == 1)) ||
    (CAN_CTL_BOREL.get w == 1 && s.canState n != 2)

/-! ## Buffers (R385 to R388) -/

/-- Words of a buffer's shadow; 64 is the express buffer's. -/
def State.canShadow (s : State) (n b : Nat) : List Nat :=
  (List.range 20).map (fun w => (s.reg (if b = 64 then CAN_EXPRESS n w else CAN_SHADOW n b w)).toNat)

def State.canPending (s : State) (n b : Nat) : Bool := !(Tab.get [] (s.canOf n).bufs b).isEmpty

/-- The `TXPEND`, `EXPPEND` bit of a buffer follows it. -/
def State.canPendSync (s : State) (n b : Nat) : State :=
  let v := s.canPending n b
  if b < 32 then s.wrBit (CAN_TXPENDLO n) b v
  else if b < 64 then s.wrBit (CAN_TXPENDHI n) (b - 32) v
  else if b = 64 then s.wr (CAN_TXSTAT n) CAN_TXSTAT_EXPPEND (b2n v)
  else s

/-- Whether a buffer's copy is deferred, and that bit set (R386). -/
def State.canSwp (s : State) (n b : Nat) : Bool :=
  if b < 32 then bit (s.reg (CAN_TXSWPLO n)).toNat b
  else if b < 64 then bit (s.reg (CAN_TXSWPHI n)).toNat (b - 32)
  else if b = 64 then s.rdB (CAN_TXSTAT n) CAN_TXSTAT_EXPSWP
  else (s.canOf n).refNext.isSome
def State.setCanSwp (s : State) (n b : Nat) (v : Bool) : State :=
  if b < 32 then s.wrBit (CAN_TXSWPLO n) b v
  else if b < 64 then s.wrBit (CAN_TXSWPHI n) (b - 32) v
  else if b = 64 then s.wr (CAN_TXSTAT n) CAN_TXSTAT_EXPSWP (b2n v)
  else if v then s else s.updCan n (fun c => { c with refNext := none })

/-- A buffer's message, or none (pending or not). -/
def State.canPut (s : State) (n b : Nat) (m : List Nat) : State :=
  (s.updCan n (fun c => { c with bufs := Tab.set [] c.bufs b m })).canPendSync n b

/-- Whether a message may not be committed (R386). -/
def State.canMsgBad (s : State) (n : Nat) (m : List Nat) : Bool :=
  let w0 := m.getD 0 0
  let fdf := bit w0 31
  (bit w0 30 && fdf) || (bit (m.getD 1 0) 4 && !fdf) || (fdf && !s.rdB (CAN_CTL n) CAN_CTL_FDE)

/-- A commit of a buffer that is not refused (R386). -/
def State.canCommit (s : State) (n b : Nat) : State :=
  if (s.canOf n).act = some b then s.setCanSwp n b true else s.canPut n b (s.canShadow n b)

/-- A completion reported (R389). -/
def State.canDone (s : State) (n b status sof : Nat) : State :=
  if b < 64 then
    if s.rdB (CAN_TXCFG n) CAN_TXCFG_DQEN then
      s.qPutHw (s.rd (CAN_TXCFG n) CAN_TXCFG_DONEQ) (canSrc n)
        (BitVec.ofNat 64 (2 * 2 ^ 60 + status * 2 ^ 56 + n * 2 ^ 48 + b * 2 ^ 40 + sof))
    else s
  else if b = 64 then s.canPost n 1 (s.rd (CAN_TXCFG n) CAN_TXCFG_EXPDEST) status sof
  else s

/-- A buffer leaves: no message, no deferred copy. -/
def State.canRemove (s : State) (n b : Nat) : State := (s.setCanSwp n b false).canPut n b []

/-- A write of ABORT (R388). -/
def State.canAbort (s : State) (n b : Nat) : State :=
  if ¬ s.canPending n b then s
  else
    let s := s.raise (canSrc n) EV_CAN_ABORT [canWord n b]
    if (s.canOf n).act = some b then s.updCan n (fun c => { c with aborting := true })
    else (s.canRemove n b).canDone n b 1 0

/-- A write of `CAN_TXCMD` (R386, R388). -/
def State.canTxCmd (s : State) (n : Nat) (w : Word) : State :=
  let b := if CAN_TXCMD_EXP.get w = 1 then 64 else CAN_TXCMD_BUF.get w
  let s := if CAN_TXCMD_COMMIT.get w = 1 then s.canCommit n b else s
  if CAN_TXCMD_ABORT.get w = 1 then s.canAbort n b else s

/-- Whether a write of `CAN_TXCMD` is refused (R386). -/
def State.canTxCmdBad (s : State) (n : Nat) (w : Word) : Bool :=
  let b := if CAN_TXCMD_EXP.get w = 1 then 64 else CAN_TXCMD_BUF.get w
  CAN_TXCMD_COMMIT.get w == 1 && !s.canSwp n b && s.canMsgBad n (s.canShadow n b)

/-! ## Arbitration (R387) -/

/-- The arbitration field of a message as a number: the smaller wins. -/
def canKey (m : List Nat) : Nat :=
  let w0 := m.getD 0 0
  let id := w0 % 2 ^ 29
  let rtr := b2n (bit w0 30)
  if bit w0 29 then id / 2 ^ 18 * 2 ^ 21 + 2 ^ 20 + 2 ^ 19 + id % 2 ^ 18 * 2 + rtr
  else id / 2 ^ 18 * 2 ^ 21 + rtr * 2 ^ 20

/-- The pending buffer that enters arbitration: express first, else the one that would win, ties to the lower index. -/
def State.canChoice (s : State) (n : Nat) : Option Nat :=
  let bufs := (s.canOf n).bufs
  if s.canPending n 64 then some 64
  else (bufs.foldl (fun (best : Option (Nat × Nat)) e => match best with
    | none => some (e.1, canKey e.2)
    | some b => if canKey e.2 < b.2 then some (e.1, canKey e.2) else best) none).map (fun b => b.1)

/-- A buffer's attempt begins; a change of buffer ends a run of bit errors (R394). -/
def State.canBegin (s : State) (n b : Nat) : State :=
  let s := (s.wr (CAN_TXSTAT n) CAN_TXSTAT_TXACT 1).wr (CAN_TXSTAT n) CAN_TXSTAT_ACTBUF b
  let s := if (s.canOf n).lastBuf = some b then s
    else (s.wr (CAN_COLL n) CAN_COLL_COLLRUN 0).updCan n (fun c => { c with reported := false })
  s.updCan n (fun c => { c with act := some b, aborting := false, lastBuf := some b })

/-- An attempt ends. -/
def State.canEnd (s : State) (n : Nat) : State :=
  (s.wr (CAN_TXSTAT n) CAN_TXSTAT_TXACT 0).updCan n (fun c => { c with act := none, aborting := false })

/-- The content of a deferred commit, once the frame in transmission has ended (R386). -/
def State.canDeferred (s : State) (n b : Nat) : List Nat :=
  if b = 65 then ((s.canOf n).refNext).getD [] else s.canShadow n b

/-! ## Error confinement (R393) -/

/-- The states follow TEC and REC: error-passive above 127, bus-off above 255. -/
def State.canConfine (s : State) (n : Nat) : State :=
  let tec := s.rd (CAN_ERR n) CAN_ERR_TEC
  let rec_ := s.rd (CAN_ERR n) CAN_ERR_REC
  let st := s.canState n
  if 2 ≤ st then s
  else if 255 < tec then
    let s := s.wr (CAN_ERR n) CAN_ERR_STATE (if s.rdB (CAN_CTL n) CAN_CTL_BORMODE then 2 else 3)
    let s := (s.hit (CAN_EVT n) CAN_EVT_BUSOFF (CAN_CNT0 n) CAN_CNT0_BUSOFFN).raise (canSrc n) EV_CAN_BUSOFF [canWord n 0]
    s.canPost n 4 (s.rd (CAN_TXCFG n) CAN_TXCFG_EVDEST) 1 tec
  else if 127 < tec ∨ 127 < rec_ then
    if st = 1 then s
    else
      let s := s.wr (CAN_ERR n) CAN_ERR_STATE 1
      (s.hit (CAN_EVT n) CAN_EVT_PASSIVE (CAN_CNT0 n) CAN_CNT0_PASSIVEN).raise (canSrc n) EV_CAN_PASSIVE [canWord n 0]
  else s.wr (CAN_ERR n) CAN_ERR_STATE 0

/-- A protocol error: LEC, ERR. -/
def State.canLec (s : State) (n lec : Nat) : State :=
  (s.wr (CAN_ERR n) CAN_ERR_LEC lec).hit (CAN_EVT n) CAN_EVT_ERR (CAN_CNT1 n) CAN_CNT1_ERRN

/-- A run of bit errors after arbitration reaches COLLTH: reported once per run (R394). -/
def State.canCollide (s : State) (n b : Nat) : State :=
  let run := satAdd (s.rd (CAN_COLL n) CAN_COLL_COLLRUN) 1 255
  let s := s.wr (CAN_COLL n) CAN_COLL_COLLRUN run
  if run = s.rd (CAN_COLL n) CAN_COLL_COLLTH ∧ ¬ (s.canOf n).reported then
    let id := (Tab.get [] (s.canOf n).bufs b).getD 0 0 % 2 ^ 29
    let s := (s.wr (CAN_COLL n) CAN_COLL_COLLBUF b).updCan n (fun c => { c with reported := true })
    let s := (s.hit (CAN_EVT n) CAN_EVT_COLL (CAN_CNT1 n) CAN_CNT1_COLLN).raise (canSrc n) EV_CAN_COLLISION [canWord n b, id]
    s.canPost n 5 (s.rd (CAN_TXCFG n) CAN_TXCFG_EVDEST) b run
  else s

/-- A write of BOREL: recovery starts (R393). -/
def State.canBorel (s : State) (n : Nat) : State := s.wr (CAN_ERR n) CAN_ERR_STATE 3

/-! ## Reception (R390, R391) -/

/-- The head window and the count of a FIFO follow it (R391). -/
def State.fifoSync (s : State) (n f : Nat) : State :=
  let q := Tab.get [] (s.canOf n).fifo f
  let head := q.headD []
  let s := (List.range 20).foldl (fun s w => s.setReg (CAN_FIFO n f w) (BitVec.ofNat 32 (head.getD w 0))) s
  let s := s.wr (CAN_FIFOCTL n f) CAN_FIFOCTL_FCOUNT q.length
  if q.length < s.rd (CAN_FIFOCTL n f) CAN_FIFOCTL_WMARK then
    s.updCan n (fun c => { c with wmPosted := Tab.set false c.wmPosted f false })
  else s

/-- The watermark descriptor of a FIFO (R391). -/
def State.fifoMark (s : State) (n f : Nat) : State :=
  let wm := s.rd (CAN_FIFOCTL n f) CAN_FIFOCTL_WMARK
  let cnt := (Tab.get [] (s.canOf n).fifo f).length
  if wm ≠ 0 ∧ wm ≤ cnt ∧ Tab.get false (s.canOf n).wmPosted f = false then
    let s := s.updCan n (fun c => { c with wmPosted := Tab.set false c.wmPosted f true })
    s.canPost n (2 + f) (s.rd (CAN_FIFOCTL n f) CAN_FIFOCTL_WMDEST) cnt 0
  else s

/-- A frame stored in a FIFO, or lost (R391). -/
def State.fifoPut (s : State) (n f : Nat) (m : List Nat) (idx : Nat) : State :=
  let q := Tab.get [] (s.canOf n).fifo f
  if ¬ s.rdB (CAN_FIFOCTL n f) CAN_FIFOCTL_FEN then s
  else if 32 ≤ q.length then
    let s := s.updCan n (fun c => { c with lost := Tab.set 0 c.lost f (satAdd (Tab.get 0 c.lost f) 1 255) })
    (s.hit (CAN_EVT n) CAN_EVT_LOST (CAN_CNT0 n) CAN_CNT0_LOSTN).raise (canSrc n) EV_CAN_FIFO_LOST [canWord n f]
  else
    let w1 := m.getD 1 0 % 64 + idx * 2 ^ 8 + Tab.get 0 (s.canOf n).lost f * 2 ^ 16
    let m := m.set 1 w1
    let s := s.updCan n (fun c => { c with fifo := Tab.set [] c.fifo f (q ++ [m]), lost := Tab.set 0 c.lost f 0 })
    (s.fifoSync n f).fifoMark n f

/-- A POP of a FIFO that holds a message (R391). -/
def State.fifoPop (s : State) (n f : Nat) : State :=
  (s.updCan n (fun c => { c with fifo := Tab.set [] c.fifo f ((Tab.get [] c.fifo f).drop 1) })).fifoSync n f

/-- Whether filter k matches a message (R390). -/
def State.filterHit (s : State) (n k : Nat) (w0 : Nat) : Bool :=
  let f := s.reg (CAN_FLTID n k)
  let m := s.reg (CAN_FLTMSK n k)
  let mask := CAN_FLTMSK_MASK.get m
  let fmt := CAN_FLTMSK_FMT.get m
  CAN_FLTID_TGT.get f != 3 && CAN_FLTID_IDE.get f == b2n (bit w0 29) &&
    Nat.land (w0 % 2 ^ 29) mask == Nat.land (CAN_FLTID_ID.get f) mask &&
    (fmt == 0 || (fmt == 1 && !bit w0 31) || (fmt == 2 && bit w0 31))

/-- A received frame goes where the first matching filter, or NOMATCH, says (R390). -/
def State.canFilter (s : State) (n : Nat) (m : List Nat) : State :=
  match (List.range 128).find? (fun k => s.filterHit n k (m.getD 0 0)) with
  | some k =>
    let tgt := s.rd (CAN_FLTID n k) CAN_FLTID_TGT
    if tgt = 0 then s else s.fifoPut n (tgt - 1) m k
  | none =>
    let nm := s.rd (CAN_FILTCFG n) CAN_FILTCFG_NOMATCH
    if nm = 0 then s else (s.drew 1).fifoPut n (nm - 1) m (s.freeNat % 128)

/-! ## Reference time (R396 to R399) -/

/-- Data byte k of a message (R385). -/
def canByte (m : List Nat) (k : Nat) : Nat := m.getD (4 + k / 4) 0 / 2 ^ (8 * (k % 4)) % 256

/-- Bytes 2 to 7 of a reference message. -/
def refTime (m : List Nat) : Nat := (List.range 6).foldl (fun a k => a * 256 + canByte m (2 + k)) 0

/-- Whether a message is a reference message of a controller (R396). -/
def State.isReference (s : State) (n : Nat) (m : List Nat) : Bool :=
  let w0 := m.getD 0 0
  let c := s.reg (CAN_TM_CTL n)
  CAN_TM_CTL_TMODE.get c != 0 && !bit w0 31 && !bit w0 30 && m.getD 1 0 % 16 == 8 &&
    w0 % 2 ^ 29 == CAN_TM_CTL_RMID.get c && b2n (bit w0 29) == CAN_TM_CTL_IDE.get c

/-- The full capture of the latest reference SOF. -/
def State.setTmSof (s : State) (n ns : Nat) : State :=
  (s.setReg (CAN_TM_SOFLO n) (BitVec.ofNat 32 ns)).setReg (CAN_TM_SOFHI n) (BitVec.ofNat 32 (ns / 2 ^ 32))

/-- A slave forms the offset of a named, kept reference message (R398). -/
def State.canOffset (s : State) (n : Nat) (m : List Nat) : State :=
  let named := canByte m 1 % 64
  match ((s.canOf n).caps.find? (fun c => c.1 == named)) with
  | none => s
  | some c =>
    let d : Int := (refTime m : Int) + s.rdS (CAN_TM_DLY n) CAN_TM_DLY_RMDLY - (c.2 : Int)
    let ofs := sext (wrapInt d 48) 48
    let lim : Int := 2 ^ 31 - 1
    let prev := (s.canOf n).ofs
    let s := s.setReg (CAN_TM_OFS n) (BitVec.ofNat 32 (wrapInt (clampI (-lim) lim ofs) 32))
    let s := match prev with
      | some p => if c.2 = p.2 then s else
          s.setReg (CAN_TM_RATE n) (BitVec.ofNat 32 (wrapInt ((ofs - p.1) * 1000000000 / ((c.2 : Int) - p.2)) 32))
      | none => s
    let now := s.now
    let s := (s.wr (CAN_TM_STAT n) CAN_TM_STAT_TMVALID 1).updCan n (fun x => { x with ofs := some (ofs, c.2), ofsAt := now })
    s.canPost n 6 (s.rd (CAN_TXCFG n) CAN_TXCFG_EVDEST) (wrapInt (clampI (-lim) lim ofs) 32) (canByte m 0 % 64)

/-- A reference message from another node (R397 to R399). -/
def State.canReference (s : State) (n : Nat) (m : List Nat) (sof : Nat) : State :=
  let mode := s.rd (CAN_TM_CTL n) CAN_TM_CTL_TMODE
  let seq := canByte m 0 % 64
  let now := s.now
  let s := (s.setTmSof n sof).wr (CAN_TM_STAT n) CAN_TM_STAT_SEQ seq
  let s := s.wr (CAN_TM_STAT n) CAN_TM_STAT_MDISC (b2n (bit (canByte m 0) 7))
  let s := s.updCan n (fun c => { c with refAt := now, backup := false, caps := ((seq, sof) :: c.caps).take 4 })
  if mode = 1 then (if bit (canByte m 0) 6 then s.canOffset n m else s)
  else if mode = 2 ∧ s.canMode n ≠ 2 then s.raise (canSrc n) EV_CAN_TM_CONFLICT [canWord n 0]
  else s

/-- The reference message that a master puts into arbitration (R396, R397). -/
def State.refMessage (s : State) (n : Nat) : List Nat :=
  let c := s.reg (CAN_TM_CTL n)
  let x := s.canOf n
  let last := x.sent.getD (0, 0)
  let b0 := x.seq % 64 + 64 * b2n x.sent.isSome + 128 * b2n (s.rdB CT_TIME_CTL CT_TIME_CTL_DISC)
  let b1 := last.1 % 64 + 64 * b2n (decide (CAN_TM_CTL_TMODE.get c = 3))
  let bs := [b0, b1] ++ beBytes (last.2 % 2 ^ 48) 6
  [CAN_TM_CTL_RMID.get c + CAN_TM_CTL_IDE.get c * 2 ^ 29, 8, 0, 0, ofBytesLE (bs.take 4), ofBytesLE (bs.drop 4)] ++
    List.replicate 14 0

end Sys2Proof.Machine
end

