-- ==== Sys2Proof/Machine/CanBus.lean ====
section
/-!
DEFINITION. The events of the CAN controllers (chapter 14).
-/

namespace Sys2Proof.Machine

/-- CAN_ARBITRATION: at a start of frame the controller enters arbitration with its choice, and wins or loses it (R387).
A controller that is off, listen-only, in standby, bus-off or already sending does not. -/
def execCanArbitration (s : State) (n : Fin 6) (won : Bool) (t : Nat) : Host.Outcome State Fault Refusal :=
  let s := s.at t
  if ¬ s.canEn n ∨ s.canMode n = 1 ∨ s.rdB (CAN_CTL n) CAN_CTL_STBY ∨ 2 ≤ s.canState n ∨ (s.canOf n).act ≠ none then .next s
  else match s.canChoice n with
    | some b => if won then .next (s.canBegin n b) else .next s
    | none => .next s

/-- CAN_TX_COMPLETE: the frame in transmission succeeds: reported, the counters fall, deferred content becomes pending
(R383, R386, R389, R394). `sof` is the capture in ps, `tdcv` the measured delay. -/
def execCanTxComplete (s : State) (n : Fin 6) (sof tdcv t : Nat) : Host.Outcome State Fault Refusal :=
  let s := s.at t
  match (s.canOf n).act with
  | none => .next s
  | some b =>
    let m := Tab.get [] (s.canOf n).bufs b
    let stamp := sof / 1000
    let fd := bit (m.getD 0 0) 31 && bit (m.getD 1 0) 4 && s.rdB (CAN_TDC n) CAN_TDC_TDCEN
    let s := if fd then s.wr (CAN_TDC n) CAN_TDC_TDCV (Nat.min tdcv 255) else s
    let s := s.wr (CAN_ERR n) CAN_ERR_TEC (s.rd (CAN_ERR n) CAN_ERR_TEC - 1)
    let s := (s.wr (CAN_COLL n) CAN_COLL_COLLRUN 0).updCan n (fun c => { c with reported := false })
    let s := s.canDone n b 0 (sofUs stamp)
    let s := if b = 65 then
        let seq := canByte m 0 % 64
        ((s.updCan n (fun c => { c with sent := some (seq, stamp) })).setTmSof n stamp).wr (CAN_TM_STAT n) CAN_TM_STAT_SEQ seq
      else s
    let s := if s.canSwp n b ∧ ¬ (s.canOf n).aborting then
        let m := s.canDeferred n b
        (s.setCanSwp n b false).canPut n b m
      else s.canRemove n b
    .next ((s.canEnd n).canConfine n)

/-- CAN_TX_ERROR: the transmission ends in error (R383, R386, R388, R393, R394). `lec` is the kind of error, `late` tells
a bit error in the control, data or CRC field, `exempt` the cases in which ISO 11898-1 leaves TEC as it is. -/
def execCanTxError (s : State) (n : Fin 6) (lec : Fin 8) (late exempt : Bool) (tdcv t : Nat) :
    Host.Outcome State Fault Refusal :=
  let s := s.at t
  match (s.canOf n).act with
  | none => .next s
  | some b =>
    let s := s.canLec n lec
    let s := if lec.val = 7 then
        (s.wr (CAN_TDC n) CAN_TDC_TDCV (Nat.min tdcv 255)).hit (CAN_EVT n) CAN_EVT_TDC (CAN_CNT0 n) CAN_CNT0_TDCN
      else s
    let s := if lec.val = 7 ∨ (late ∧ (lec.val = 4 ∨ lec.val = 5)) then s.canCollide n b
      else (s.wr (CAN_COLL n) CAN_COLL_COLLRUN 0).updCan n (fun c => { c with reported := false })
    let s := if exempt then s else s.wr (CAN_ERR n) CAN_ERR_TEC (Nat.min 511 (s.rd (CAN_ERR n) CAN_ERR_TEC + 8))
    let s := if (s.canOf n).aborting then (s.canRemove n b).canDone n b 1 0
      else if s.canSwp n b then
        let m := s.canDeferred n b
        (s.setCanSwp n b false).canPut n b m
      else s
    .next ((s.canEnd n).canConfine n)

/-- CAN_RX_ERROR: a frame being received ends in a protocol error; REC rises by 1, or by 8 where ISO 11898-1 says so
(R393). -/
def execCanRxError (s : State) (n : Fin 6) (lec : Fin 8) (eight : Bool) (t : Nat) : Host.Outcome State Fault Refusal :=
  let s := s.at t
  if ¬ s.canEn n ∨ 2 ≤ s.canState n then .next s
  else
    let s := s.canLec n lec
    let k := if eight then 8 else 1
    .next ((s.wr (CAN_ERR n) CAN_ERR_REC (satAdd (s.rd (CAN_ERR n) CAN_ERR_REC) k 255)).canConfine n)

/-- CAN_FRAME_RECEIVED: a frame received without error: stamped, filtered, and taken as a reference message where it is
one (R390, R391, R395 to R399). `m` holds words 0, 1 and the data words of R385. -/
def execCanFrameReceived (s : State) (n : Fin 6) (w0 w1 : Nat) (data : List Nat) (sof t : Nat) :
    Host.Outcome State Fault Refusal :=
  let s := s.at t
  if ¬ s.canEn n ∨ 2 ≤ s.canState n then .next s
  else
    let m := [w0 % 2 ^ 32, w1 % 64, sofUs (sof / 1000), 0] ++ (List.range 16).map (fun i => data.getD i 0 % 2 ^ 32)
    let r := s.rd (CAN_ERR n) CAN_ERR_REC
    let s := if 127 < r then (s.drew 1).wr (CAN_ERR n) CAN_ERR_REC (119 + s.freeNat % 9) else s.wr (CAN_ERR n) CAN_ERR_REC (r - 1)
    let s := (s.canConfine n).canFilter n m
    .next (if s.isReference n m then s.canReference n m (sof / 1000) else s)

/-- CAN_BUSOFF_RECOVERED: recovery ends (R393). -/
def execCanBusoffRecovered (s : State) (n : Fin 6) (t : Nat) : Host.Outcome State Fault Refusal :=
  let s := s.at t
  if s.canState n = 3 then
    let s := ((s.wr (CAN_ERR n) CAN_ERR_TEC 0).wr (CAN_ERR n) CAN_ERR_REC 0).wr (CAN_ERR n) CAN_ERR_STATE 0
    let s := s.raise (canSrc n) EV_CAN_BUSOFF_REC [canWord n 0]
    .next (s.canPost n 4 (s.rd (CAN_TXCFG n) CAN_TXCFG_EVDEST) 0 0)
  else .next s

/-- CAN_REFERENCE_SEND: at a multiple of RMPER a master's reference message goes into arbitration, or replaces the one
still pending (R386, R397). -/
def execCanReferenceSend (s : State) (n : Fin 6) (t : Nat) : Host.Outcome State Fault Refusal :=
  let s := s.at t
  let mode := s.rd (CAN_TM_CTL n) CAN_TM_CTL_TMODE
  if s.canEn n ∧ (mode = 2 ∨ (mode = 3 ∧ (s.canOf n).backup)) then
    let m := s.refMessage n
    let s := if (s.canOf n).act = some 65 then s.updCan n (fun c => { c with refNext := some m }) else s.canPut n 65 m
    .next (s.updCan n (fun c => { c with seq := (c.seq + 1) % 64 }))
  else .next s

/-- CAN_TIME_LOST: no valid offset for RMTO clears a slave's TMVALID; no reference message for RMTO lets a backup master
send (R397, R398). -/
def execCanTimeLost (s : State) (n : Fin 6) (t : Nat) : Host.Outcome State Fault Refusal :=
  let s := s.at t
  let mode := s.rd (CAN_TM_CTL n) CAN_TM_CTL_TMODE
  let rmto := s.rd (CAN_TM_PER n) CAN_TM_PER_RMTO * ms
  if mode = 1 ∧ s.rdB (CAN_TM_STAT n) CAN_TM_STAT_TMVALID ∧ (s.canOf n).ofsAt + rmto ≤ s.now then
    let s := (s.wr (CAN_TM_STAT n) CAN_TM_STAT_TMVALID 0).hit (CAN_EVT n) CAN_EVT_TMLOST (CAN_CNT1 n) CAN_CNT1_TMLOSTN
    .next (s.raise (canSrc n) EV_CAN_TM_LOST [canWord n 0])
  else if mode = 3 ∧ (s.canOf n).refAt + rmto ≤ s.now then .next (s.updCan n (fun c => { c with backup := true }))
  else .next s

end Sys2Proof.Machine
end

