-- ==== Sys2Proof/Machine/Float.lean ====
section
/-!
DEFINITION. IEEE 754-2019 arithmetic on binary32 and binary64 bit patterns (R195, R216): every operation is computed
exactly and rounded once.
-/

namespace Sys2Proof.Machine

/-! ## Formats and values -/

/-- A binary format: exponent bits and fraction bits. -/
structure Fmt where
  ew : Nat
  mw : Nat
  deriving DecidableEq, Repr

def f32 : Fmt := ⟨8, 23⟩
def f64 : Fmt := ⟨11, 52⟩

def Fmt.bias (f : Fmt) : Nat := 2 ^ (f.ew - 1) - 1
/-- Exponent of the smallest quantum. -/
def Fmt.qmin (f : Fmt) : Int := 1 - (f.bias : Int) - f.mw
def Fmt.sign (f : Fmt) : Nat := 2 ^ (f.ew + f.mw)
def Fmt.infBits (f : Fmt) : Nat := (2 ^ f.ew - 1) * 2 ^ f.mw
/-- The default NaN (R195). -/
def Fmt.nan (f : Fmt) : Nat := f.infBits + 2 ^ (f.mw - 1)

/-- A value: a NaN, an infinity, or a signed number m · 2^e. -/
inductive FVal where
  | nan (signalling : Bool)
  | inf (neg : Bool)
  | num (neg : Bool) (m : Nat) (e : Int)
  deriving DecidableEq, Repr

/-- The value of a bit pattern. -/
def Fmt.val (f : Fmt) (x : Nat) : FVal :=
  let neg := x / f.sign % 2 == 1
  let ex := x / 2 ^ f.mw % 2 ^ f.ew
  let fr := x % 2 ^ f.mw
  if ex = 2 ^ f.ew - 1 then
    if fr = 0 then .inf neg else .nan (fr / 2 ^ (f.mw - 1) == 0)
  else if ex = 0 then .num neg fr f.qmin
  else .num neg (2 ^ f.mw + fr) (f.qmin + ((ex : Int) - 1))

def FVal.isNan : FVal → Bool
  | .nan _ => true
  | _ => false

def FVal.isSnan : FVal → Bool
  | .nan sg => sg
  | _ => false

/-- Flags as `FPCTL` [8:4] holds them: inexact 1, underflow 2, overflow 4, division by zero 8, invalid 16. -/
abbrev Flags := Nat

/-- A result: bits and the flags it raises. -/
abbrev FRes := Nat × Flags

/-- The default NaN with the invalid flag, or without. -/
def Fmt.invalid (f : Fmt) : FRes := (f.nan, 16)
def Fmt.quiet (f : Fmt) (fl : Flags) : FRes := (f.nan, fl)

def bitLen (m : Nat) : Nat := if m = 0 then 0 else Nat.log2 m + 1

/-- Whether a magnitude is rounded up, from its kept part and its remainder of `2 * half` (R195, `RM`). -/
def roundsUp (rm : Nat) (neg : Bool) (kept rem half : Nat) : Bool :=
  match rm with
  | 1 => decide (half ≤ rem)
  | 2 => false
  | 3 => !neg && rem != 0
  | 4 => neg && rem != 0
  | _ => decide (half < rem) || (rem == half && kept % 2 == 1)

/-- m · 2^e rounded to a multiple of 2^q, and whether it was inexact. -/
def roundTo (rm : Nat) (neg : Bool) (m : Nat) (e q : Int) : Nat × Bool :=
  if q ≤ e then (m * 2 ^ (e - q).toNat, false)
  else
    let k := (q - e).toNat
    let kept := m / 2 ^ k
    let rem := m % 2 ^ k
    (kept + (if roundsUp rm neg kept rem (2 ^ (k - 1)) then 1 else 0), rem != 0)

/-- A zero of a sign. -/
def Fmt.zero (f : Fmt) (neg : Bool) : Nat := if neg then f.sign else 0
/-- An infinity of a sign. -/
def Fmt.inf (f : Fmt) (neg : Bool) : Nat := f.zero neg + f.infBits

/-- An overflowed result: an infinity or the largest finite number, by mode and sign. -/
def Fmt.overflow (f : Fmt) (rm : Nat) (neg : Bool) : FRes :=
  let toInf := match rm with
    | 2 => false
    | 3 => !neg
    | 4 => neg
    | _ => true
  (if toInf then f.inf neg else f.inf neg - 1, 5)

/-- The exact number ±m · 2^e rounded once into the format; underflow is a tiny result after rounding that is inexact. -/
def Fmt.round (f : Fmt) (rm : Nat) (neg : Bool) (m : Nat) (e : Int) : FRes :=
  if m = 0 then (f.zero neg, 0)
  else
    let p := f.mw + 1
    let free : Int := e + bitLen m - p
    let q := if free < f.qmin then f.qmin else free
    let r := roundTo rm neg m e q
    let mant := if r.1 = 2 ^ p then 2 ^ f.mw else r.1
    let q := if r.1 = 2 ^ p then q + 1 else q
    let wide := roundTo rm neg m e free
    let tiny := decide (free < f.qmin) && !(wide.1 == 2 ^ p && decide (free + 1 = f.qmin))
    if mant < 2 ^ f.mw then (f.zero neg + mant, if r.2 then (if tiny then 3 else 1) else 0)
    else
      let ex := (q - f.qmin).toNat + 1
      if 2 ^ f.ew - 1 ≤ ex then f.overflow rm neg
      else (f.zero neg + ex * 2 ^ f.mw + (mant - 2 ^ f.mw), if r.2 then (if tiny then 3 else 1) else 0)

/-! ## Arithmetic -/

def sgn (neg : Bool) (m : Nat) : Int := if neg then -(m : Int) else m

/-- The exact sum of two numbers, rounded; an exact zero of unlike signs is +0, or −0 toward −∞. -/
def Fmt.sum (f : Fmt) (rm : Nat) (n1 : Bool) (m1 : Nat) (e1 : Int) (n2 : Bool) (m2 : Nat) (e2 : Int) : FRes :=
  let e := if e1 ≤ e2 then e1 else e2
  let v := sgn n1 (m1 * 2 ^ (e1 - e).toNat) + sgn n2 (m2 * 2 ^ (e2 - e).toNat)
  if v = 0 then (f.zero (if n1 = n2 then n1 else rm == 4), 0)
  else f.round rm (decide (v < 0)) v.natAbs e

def Fmt.add (f : Fmt) (rm a b : Nat) : FRes :=
  match f.val a, f.val b with
  | .nan s, y => f.quiet (if s || y.isSnan then 16 else 0)
  | _, .nan s => f.quiet (if s then 16 else 0)
  | .inf n, .inf m => if n = m then (f.inf n, 0) else f.invalid
  | .inf n, _ => (f.inf n, 0)
  | _, .inf n => (f.inf n, 0)
  | .num n1 m1 e1, .num n2 m2 e2 => f.sum rm n1 m1 e1 n2 m2 e2

/-- The sign inverted. -/
def Fmt.neg (f : Fmt) (a : Nat) : Nat := if a / f.sign % 2 = 1 then a - f.sign else a + f.sign
/-- The sign cleared. -/
def Fmt.abs (f : Fmt) (a : Nat) : Nat := if a / f.sign % 2 = 1 then a - f.sign else a

def Fmt.sub (f : Fmt) (rm a b : Nat) : FRes := f.add rm a (f.neg b)

def Fmt.mul (f : Fmt) (rm a b : Nat) : FRes :=
  match f.val a, f.val b with
  | .nan s, y => f.quiet (if s || y.isSnan then 16 else 0)
  | _, .nan s => f.quiet (if s then 16 else 0)
  | .inf n, .inf m => (f.inf (n != m), 0)
  | .inf n, .num m x _ => if x = 0 then f.invalid else (f.inf (n != m), 0)
  | .num n x _, .inf m => if x = 0 then f.invalid else (f.inf (n != m), 0)
  | .num n1 m1 e1, .num n2 m2 e2 => f.round rm (n1 != n2) (m1 * m2) (e1 + e2)

def Fmt.div (f : Fmt) (rm a b : Nat) : FRes :=
  match f.val a, f.val b with
  | .nan s, y => f.quiet (if s || y.isSnan then 16 else 0)
  | _, .nan s => f.quiet (if s then 16 else 0)
  | .inf _, .inf _ => f.invalid
  | .inf n, .num m _ _ => (f.inf (n != m), 0)
  | .num n _ _, .inf m => (f.zero (n != m), 0)
  | .num n1 m1 e1, .num n2 m2 e2 =>
    if m2 = 0 then (if m1 = 0 then f.invalid else (f.inf (n1 != n2), 8))
    else if m1 = 0 then (f.zero (n1 != n2), 0)
    else
      let k := f.mw + 4 + bitLen m2
      let q := m1 * 2 ^ k / m2
      let sticky := if m1 * 2 ^ k % m2 = 0 then 0 else 1
      f.round rm (n1 != n2) (2 * q + sticky) (e1 - e2 - k - 1)

/-- The integer square root, bit by bit from bit `n - 1`. -/
def isqrtFrom (x : Nat) : Nat → Nat → Nat
  | 0, r => r
  | n + 1, r => if (r + 2 ^ n) * (r + 2 ^ n) ≤ x then isqrtFrom x n (r + 2 ^ n) else isqrtFrom x n r

def isqrt (x : Nat) : Nat := isqrtFrom x (bitLen x / 2 + 1) 0

def Fmt.sqrt (f : Fmt) (rm a : Nat) : FRes :=
  match f.val a with
  | .nan s => f.quiet (if s then 16 else 0)
  | .inf n => if n then f.invalid else (f.inf false, 0)
  | .num n m e =>
    if m = 0 then (f.zero n, 0)
    else if n then f.invalid
    else
      let k := 2 * f.mw + 6 + (if (e % 2 = 0) then 0 else 1)
      let x := m * 2 ^ k
      let r := isqrt x
      let sticky := if r * r = x then 0 else 1
      f.round rm false (2 * r + sticky) ((e - k) / 2 - 1)

/-- a · b + c with one rounding. `open_` is the flag raised for an infinity times zero plus a quiet NaN, which
IEEE 754-2019 leaves open. -/
def Fmt.fma (f : Fmt) (rm a b c : Nat) (open_ : Flags) : FRes :=
  let x := f.val a
  let y := f.val b
  let z := f.val c
  if x.isNan ∨ y.isNan then f.quiet (if x.isSnan || y.isSnan || z.isSnan then 16 else 0)
  else
    match x, y with
    | .num n1 m1 e1, .num n2 m2 e2 =>
      match z with
      | .nan s => f.quiet (if s then 16 else 0)
      | .inf n => (f.inf n, 0)
      | .num n3 m3 e3 => f.sum rm (n1 != n2) (m1 * m2) (e1 + e2) n3 m3 e3
    | _, _ =>
      let neg := (a / f.sign % 2 == 1) != (b / f.sign % 2 == 1)
      let zeroTimes : Bool := match x, y with
        | .num _ m _, _ => m == 0
        | _, .num _ m _ => m == 0
        | _, _ => false
      match z with
      | .nan s => f.quiet (if s then 16 else if zeroTimes then open_ else 0)
      | .inf n => if zeroTimes ∨ n ≠ neg then f.invalid else (f.inf neg, 0)
      | .num _ _ _ => if zeroTimes then f.invalid else (f.inf neg, 0)

/-! ## Comparison -/

/-- Whether a is below b; neither is a NaN. −0 equals +0. -/
def FVal.lt : FVal → FVal → Bool
  | .inf n, .inf m => n && !m
  | .inf n, _ => n
  | _, .inf m => !m
  | .num n1 m1 e1, .num n2 m2 e2 =>
    let e := if e1 ≤ e2 then e1 else e2
    decide (sgn n1 (m1 * 2 ^ (e1 - e).toNat) < sgn n2 (m2 * 2 ^ (e2 - e).toNat))
  | .nan _, _ => false
  | _, .nan _ => false

/-- Whether two values are equal; a NaN equals nothing. -/
def FVal.eq (x y : FVal) : Bool := !x.isNan && !y.isNan && !FVal.lt x y && !FVal.lt y x

/-- Invalid when an operand is a signalling NaN. -/
def snanFlag (x y : FVal) : Flags := if x.isSnan || y.isSnan then 16 else 0
/-- Invalid when an operand is any NaN. -/
def nanFlag (x y : FVal) : Flags := if x.isNan || y.isNan then 16 else 0

/-- Minimum and maximum: −0 orders below +0, a NaN operand gives the default NaN (R196). -/
def Fmt.min (f : Fmt) (a b : Nat) : FRes :=
  let x := f.val a
  let y := f.val b
  if x.isNan || y.isNan then (f.nan, snanFlag x y)
  else if x.eq y then (if a / f.sign % 2 = 1 then a else b, 0)
  else (if FVal.lt x y then a else b, 0)

def Fmt.max (f : Fmt) (a b : Nat) : FRes :=
  let x := f.val a
  let y := f.val b
  if x.isNan || y.isNan then (f.nan, snanFlag x y)
  else if x.eq y then (if a / f.sign % 2 = 1 then b else a, 0)
  else (if FVal.lt x y then b else a, 0)

/-- The kind and sign of a value: 0 zero, 1 subnormal, 2 normal, 3 infinity, 4 quiet, 5 signalling NaN; bit 3 the sign. -/
def Fmt.kind (f : Fmt) (a : Nat) : Nat :=
  let k := match f.val a with
    | .nan s => if s then 5 else 4
    | .inf _ => 3
    | .num _ m _ => if m = 0 then 0 else if m < 2 ^ f.mw then 1 else 2
  k + 8 * (a / f.sign % 2)

/-! ## Conversions -/

/-- To a signed 32-bit integer: out of range saturates, a NaN gives 0, both invalid (R196). -/
def Fmt.toInt (f : Fmt) (rm a : Nat) : FRes :=
  match f.val a with
  | .nan _ => (0, 16)
  | .inf n => (if n then 0x80000000 else 0x7FFFFFFF, 16)
  | .num n m e =>
    let r := roundTo rm n m e 0
    if n then (if 2 ^ 31 < r.1 then (0x80000000, 16) else ((2 ^ 32 - r.1) % 2 ^ 32, if r.2 then 1 else 0))
    else if 2 ^ 31 ≤ r.1 then (0x7FFFFFFF, 16)
    else (r.1, if r.2 then 1 else 0)

/-- From a signed integer. -/
def Fmt.ofInt (f : Fmt) (rm : Nat) (v : Int) : FRes := f.round rm (decide (v < 0)) v.natAbs 0

/-- One format into another, rounded once where it does not fit (R196). -/
def Fmt.convert (f g : Fmt) (rm a : Nat) : FRes :=
  match f.val a with
  | .nan s => g.quiet (if s then 16 else 0)
  | .inf n => (g.inf n, 0)
  | .num n m e => g.round rm n m e

end Sys2Proof.Machine
end

