-- ==== Sys2Proof/Machine/Ethernet.lean ====
section
/-!
DEFINITION. The Ethernet MACs and chip time's discipline (chapter 15).
-/

namespace Sys2Proof.Machine

/-! ## Reception (R402 to R404) -/

/-- A descriptor's fields (R163). -/
def descAddr (d : Dword) : Nat := d.toNat % 2 ^ 32
def descLen (d : Dword) : Nat := d.toNat / 2 ^ 48 % 4096
def descTag (d : Dword) : Nat := d.toNat / 2 ^ 32 % 65536
/-- A buffer descriptor. -/
def bufDesc (len tag addr : Nat) : Dword := BitVec.ofNat 64 (2 ^ 60 + len % 4096 * 2 ^ 48 + tag % 65536 * 2 ^ 32 + addr)

/-- A MAC's address. -/
def State.macAddr (s : State) (m : Nat) : Nat := s.rd (ETH_ADDRHI m) ETH_ADDRHI_ADDR * 2 ^ 32 + (s.reg (ETH_ADDRLO m)).toNat

/-- Whether an address is one of the PTP addresses that PTPEN admits (R402). -/
def ptpAddress (d : Nat) : Bool := d == 0x011B19000000 || d == 0x0180C200000E

/-- Whether a destination is accepted (R402). -/
def State.ethDest (s : State) (m d : Nat) : Bool :=
  d == s.macAddr m || d == 0xFFFFFFFFFFFF || (s.rdB (ETH_CTL m) ETH_CTL_MCALL && bit d 40) ||
    (s.rdB (ETH_CTL m) ETH_CTL_PTPEN && ptpAddress d)

/-- The TCI of a frame's first tag, where it carries one (R402). -/
def ethTci (f : List Nat) : Option Nat := if beField f 12 2 = 0x8100 then some (beField f 14 2) else none

/-- Whether the VLAN state of a frame is allowed (R402). -/
def State.ethVlan (s : State) (m : Nat) (tci : Option Nat) : Bool :=
  let mode := s.rd (ETH_CTL m) ETH_CTL_VMODE
  match tci with
  | none => mode != 2
  | some c =>
    let vid := c % 4096
    if vid = 0 then mode != 2
    else mode == 0 || (List.range 16).any (fun k => s.rdB (ETH_VID m k) ETH_VID_VEN && s.rd (ETH_VID m k) ETH_VID_VID == vid)

/-- Whether rule k matches a frame without its tag (R403). -/
def State.ethRule (s : State) (m k : Nat) (f : List Nat) (tci : Option Nat) : Bool :=
  let r := s.reg (ETH_RULE m k)
  let v := ETH_RULE_RVAL.get r
  ETH_RULE_REN.get r == 1 &&
    (if ETH_RULE_RKIND.get r = 0 then beField f 12 2 == v
     else if ETH_RULE_RKIND.get r = 1 then
       beField f 12 2 == 0x0800 && beField f 14 1 == 0x45 && beField f 20 2 % 0x4000 == 0 && beField f 23 1 == 17 &&
         beField f 36 2 == v
     else match tci with
       | some c => c % 4096 == v
       | none => false)

/-- A frame lost: its flag (R402, R404). -/
def State.ethLost (s : State) (m : Nat) (f : Fld) (c : Fld) : State := s.hit (ETH_EVT m) f (ETH_CNT0 m) c

/-- A kept frame written into a free buffer and put into its queue (R404). -/
def State.ethKeep (s : State) (m : Nat) (f : List Nat) (tci : Option Nat) (q idx : Nat) (ptp : Bool) (stamp : Nat) : State :=
  let fq := s.rd (ETH_QMAP m) ETH_QMAP_FREEQ
  match s.qTake fq with
  | none => s.ethLost m ETH_EVT_NOBUF ETH_CNT0_NOBUFN
  | some (d, s) =>
    let units := (16 + f.length + 15) / 16
    if descLen d * 16 < 16 + f.length then (s.qPutHw fq srcComms d).ethLost m ETH_EVT_OVSZ ETH_CNT0_OVSZN
    else if ¬ s.rdB (FB_Q_CFG q) FB_Q_CFG_EN ∨ s.depth q ≤ (s.queue q).length then
      (s.qPutHw fq srcComms d).qOverflow q srcComms
    else
      let tag := match tci with
        | some c => c
        | none => 0
      let head := bytesLE stamp 8 ++ bytesLE f.length 2 ++ bytesLE tag 2 ++
        [if idx = 0x7F then 0xFF else idx, b2n tci.isSome + 2 * b2n ptp, 0, 0]
      let s := s.storeBytes (descAddr d) (head ++ f)
      s.qAppend q (bufDesc units (m * 32768 + idx * 256) (descAddr d))

/-- ETH_FRAME_RECEIVED: a frame from its destination address to its last data byte, its tag included and its FCS left out
(R402 to R404, R406). `sfd` is the chip instant of its start-of-frame delimiter at the balls, ps. -/
def execEthFrameReceived (s : State) (m : Fin 2) (frame : List Nat) (fcs : Bool) (sfd t : Nat) :
    Host.Outcome State Fault Refusal :=
  let s := s.at t
  let f := frame.map (· % 256)
  let dest := beField f 0 6
  let tci := ethTci f
  let plain := if tci.isSome then f.take 12 ++ f.drop 16 else f
  if ¬ s.rdB (ETH_CTL m) ETH_CTL_EN then .next s
  else if ¬ fcs ∨ f.length + 4 < 64 ∨ 1522 < f.length + 4 then .next (s.ethLost m ETH_EVT_BADFR ETH_CNT0_BADFRN)
  else if ¬ s.ethDest m dest ∨ beField plain 12 2 = 0x8808 then .next s
  else if ¬ s.ethVlan m tci then .next (s.ethLost m ETH_EVT_BADFR ETH_CNT0_BADFRN)
  else
    let stamp := (((sfd / 1000 : Nat) : Int) + s.rdS (ETH_DLY m) ETH_DLY_RXDLY).toNat
    match (List.range 16).find? (fun k => s.ethRule m k plain tci) with
    | some k => .next (s.ethKeep m plain tci (s.rd (ETH_RULE m k) ETH_RULE_RQ) k (ptpAddress dest) stamp)
    | none =>
      if s.rdB (ETH_QMAP m) ETH_QMAP_DEFEN then
        .next (s.ethKeep m plain tci (s.rd (ETH_QMAP m) ETH_QMAP_DEFQ) 0x7F (ptpAddress dest) stamp)
      else .next s

/-! ## Transmission (R405, R407) -/

/-- A completion put into `TXDONEQ` (R405). -/
def State.ethDone (s : State) (m status tag stamp : Nat) : State :=
  s.qPutHw (s.rd (ETH_QMAP m) ETH_QMAP_TXDONEQ) srcComms
    (BitVec.ofNat 64 (2 * 2 ^ 60 + status * 2 ^ 56 + m * 2 ^ 55 + tag * 2 ^ 32 + stamp % 2 ^ 32))

/-- ETH_FRAME_TRANSMIT: the oldest frame of `TXQ` leaves, padded to 64 bytes with its FCS and with its tag inserted, or is
refused for its length (R405, R406). `sfd` is the instant of its start-of-frame delimiter, ps. -/
def execEthFrameTransmit (s : State) (m : Fin 2) (sfd t : Nat) : Host.Outcome State Fault Refusal :=
  let s := s.at t
  if ¬ s.rdB (ETH_CTL m) ETH_CTL_EN ∨ ¬ s.rdB (ETH_STAT m) ETH_STAT_LINK then .next s
  else match s.qTake (s.rd (ETH_QMAP m) ETH_QMAP_TXQ) with
    | none => .next s
    | some (d, s) =>
      let a := descAddr d
      let ctl := s.loadLE a 2
      let tci := s.loadLE (a + 2) 2
      let body := s.loadBytes (a + 16) (descLen d * 16 - 16)
      let f := if bit ctl 1 then body.take 12 ++ [0x81, 0] ++ beBytes tci 2 ++ body.drop 12 else body
      if 1522 < f.length + 4 then .next (s.ethDone m 1 (descTag d) 0)
      else
        let f := f ++ List.replicate (60 - f.length) 0
        let stamp := (((sfd / 1000 : Nat) : Int) + s.rdS (ETH_DLY m) ETH_DLY_TXDLY).toNat
        let s := { s with eth := { s.eth with sent := Tab.set [] s.eth.sent m f } }
        .next (s.ethDone m 0 (descTag d) (if bit ctl 0 then stamp else 0))

/-- ETH_TX_TIMEOUT: the oldest frame has waited 10 ms unsent: discarded with status 2 (R405, R407). -/
def execEthTxTimeout (s : State) (m : Fin 2) (t : Nat) : Host.Outcome State Fault Refusal :=
  let s := s.at t
  if ¬ s.rdB (ETH_CTL m) ETH_CTL_EN then .next s
  else match s.qTake (s.rd (ETH_QMAP m) ETH_QMAP_TXQ) with
    | none => .next s
    | some (d, s) =>
      let s := (s.hit (ETH_EVT m) ETH_EVT_TXTO (ETH_CNT1 m) ETH_CNT1_TXTON).raise srcComms EV_ETH_TXTO [m]
      .next (s.ethDone m 2 (descTag d) 0)

/-- ETH_LINK_POLL: bit 2 of PHY register 1, every 100 ms (R407). -/
def execEthLinkPoll (s : State) (m : Fin 2) (link : Bool) (t : Nat) : Host.Outcome State Fault Refusal :=
  let s := s.at t
  if ¬ s.rdB (ETH_CTL m) ETH_CTL_EN ∨ s.rdB (ETH_STAT m) ETH_STAT_LINK = link then .next s
  else
    let s := s.wr (ETH_STAT m) ETH_STAT_LINK (b2n link)
    .next ((s.ethLost m ETH_EVT_LINKCHG ETH_CNT0_LINKCHGN).raise srcComms EV_ETH_LINK [m, b2n link])

/-! ## Chip time (R408 to R410) -/

/-- `PHASE` reads the remainder not yet applied (R408). -/
def State.phaseSync (s : State) : State := s.setReg CT_TIME_PHASE (BitVec.ofNat 32 (wrapInt (s.eth.phase / 10) 32))

/-- One 400 MHz cycle: chip time advances by 2.5 ns, with an extra step or one withheld where RATE or a phase slew calls
for it (R408). -/
def State.clockCycle (s : State) : State :=
  let rate := s.eth.rateAcc + CT_TIME_RATE_RATE.getS (s.reg CT_TIME_RATE)
  let one : Int := 100000000000
  let rStep : Int := if one ≤ rate then 1 else if rate ≤ -one then -1 else 0
  let big := decide (25 ≤ s.eth.phase.natAbs)
  let acc := if big then s.eth.slewAcc + s.rd CT_TIME_CTL CT_TIME_CTL_SLEW else 0
  let go := decide (1000000 ≤ acc)
  let pStep : Int := if go then (if 0 < s.eth.phase then 1 else -1) else 0
  let s := { s with
    now := ((s.now : Int) + 2500 * (1 + rStep + pStep)).toNat.max s.now,
    eth := { s.eth with rateAcc := rate - rStep * one, slewAcc := if go then acc - 1000000 else acc,
                        phase := s.eth.phase - 25 * pStep } }
  if go then s.phaseSync else s

/-- The effect of a write of PHASE (R408, R410). -/
def State.phaseWritten (s : State) : State :=
  let now := s.now
  let v := CT_TIME_PHASE_PHASE.getS (s.reg CT_TIME_PHASE)
  { s with eth := { s.eth with phase := v * 10, slewAcc := 0, servoAt := now } }

/-- The effect of a write of RATE (R410). -/
def State.rateWritten (s : State) : State :=
  let now := s.now
  { s with eth := { s.eth with servoAt := now } }

/-- Whether a write of STEP is refused: sweeps on, or a control-grain deadline armed (R409). -/
def State.stepBad (s : State) : Bool :=
  s.rdB AQ_SWP_CTL AQ_SWP_CTL_EN || (List.range 8).any (fun g => (s.grain (ctlSrc g)).dl.any (fun d => d.2.armed))

/-- The effect of an accepted write of STEP: chip time advances at once (R409). -/
def State.timeStep (s : State) (ns : Nat) : State :=
  ({ s with now := s.now + ns * 1000 }).raise srcComms EV_TIME_STEP [ns]

/-- The effect of a write of `DISC` (R410): a setting is recorded. -/
def State.discWritten (s : State) (old : Bool) : State :=
  let on := s.rdB CT_TIME_CTL CT_TIME_CTL_DISC
  if on ∧ ¬ old then s.raise srcComms EV_TIME_DISC [1] else s

/-- DISC_LOST: no write of RATE or PHASE for TLOSS (R410). -/
def execDiscLost (s : State) (t : Nat) : Host.Outcome State Fault Refusal :=
  let s := s.at t
  if s.rdB CT_TIME_CTL CT_TIME_CTL_DISC ∧ s.eth.servoAt + s.rd CT_TIME_CTL CT_TIME_CTL_TLOSS * 100 * ms ≤ s.now then
    .next ((s.wr CT_TIME_CTL CT_TIME_CTL_DISC 0).raise srcComms EV_TIME_LOST [0])
  else .next s

end Sys2Proof.Machine
end

