-- ==== Sys2Proof/Machine/Fault.lean ====
section
/-!
DEFINITION. The commands of chapter 6 but for register writes: memory scrubbing, beats, fault reports, recovery, monitors,
deadlines, the watchdog, held descriptors.
-/

namespace Sys2Proof.Machine

/-- A scrub pass: the words corrected and those found uncorrectable (R158). -/
def execSramScrub (s : State) (corr bad : List Nat) (t : Nat) : Host.Outcome State Fault Refusal :=
  let s := s.at t
  let s := corr.foldl (fun s a => s.eccCorrected a) s
  let s := bad.foldl (fun s a => s.eccFailed a) s
  let now := s.now
  .next { s with fab := { s.fab with sramScrubAt := now } }

/-- The monitor sources of a unit's link: chip crossbar port or region block (R174). -/
def linkMon (u k : Nat) : Nat :=
  let r := u / 256
  if r = 8 then 6 * 8 + k
  else if u % 256 = 255 then (r - 1) * 8 + k
  else 0x040 + (r - 1) * 0x40 + u / 16 % 16 * 8 + k

/-- A beat with bad parity on a unit's link was sent again `n` times: a good replay is a correctable fault, a fourth
failure a link failure (R161). -/
def execBeatParityFail (s : State) (u : Nat) (n : Fin 5) (t : Nat) : Host.Outcome State Fault Refusal :=
  let s := s.at t
  let s := s.count (linkMon u 5) (Nat.min n.val 3)
  if n.val < 4 then .next (s.fltNote u EV_FB_REPLAY 0 (unitLevel u) [])
  else .next ((s.raise srcFault EV_FB_LINK_FAIL [u]).linkFailure u)

/-- Both copies of a VC0 beat fail in one lane: chip-fatal (R162). -/
def execVc0BeatLost (s : State) (u : Nat) (t : Nat) : Host.Outcome State Fault Refusal :=
  .next (((s.at t).fltNote u EV_FB_VC0_LOST 3 3 []).chipFatal)

/-- A fault is reported, classed and answered (R168); `holds` tells that its source stays active (R171). -/
def execFaultReport (s : State) (kind : FaultKind) (u a : Nat) (holds : Bool) (t : Nat) : Host.Outcome State Fault Refusal :=
  let s := s.at t
  match kind with
  | .singleBit => .next (s.eccCorrected a)
  | .uncorrectable =>
    let s := s.eccFailed a
    .next (if holds then s.setSource (memUnit a) EV_FB_ECC_UNCORR true else s)
  | .doubleFault =>
    let s := (s.fltNote u EV_FB_QUARANTINE 1 0 []).grainFault u
    .next (if holds then s.setSource u EV_FB_QUARANTINE true else s)
  | .linkFailure =>
    let s := s.linkFailure u
    .next (if holds then s.setSource u EV_FB_LINK_FAIL true else s)
  | .sourceEnds => .next (s.updUnit u (fun x => { x with active := [] }))

/-- The cycle of a grain's island, ps (R15). -/
def islandCycle (src : Nat) : Nat := if src / 256 = 1 then 2500 else 1250

/-- A grain that has retired nothing for 2^20 cycles outside an architected wait is quarantined (R168). -/
def execGrainLockup (s : State) (g : Nat) (t : Nat) : Host.Outcome State Fault Refusal :=
  let s := s.at t
  let x := s.grain g
  if (grainOfSrc g).isSome ∧ x.run = .running ∧ x.wait = .none ∧ x.retired + 2 ^ 20 * islandCycle g ≤ s.now then
    .next ((s.fltNote g EV_FB_QUARANTINE 1 0 []).grainFault g)
  else .next s

/-- A unit's wait ends and its restart begins (R170); a block reset starts. -/
def execRecoveryWaitEnd (s : State) (u : Nat) (t : Nat) : Host.Outcome State Fault Refusal :=
  let s := s.at t
  match (s.unit u).phase with
  | .waiting due =>
    if due ≤ s.now then
      let now := s.now
      let s := if unitLevel u = 1 then s.resetBlock u else s
      .next (s.updUnit u (fun x => { x with phase := .restarting now }))
    else .next s
  | _ => .next s

/-- A unit's restart completes, once no source of its faults is active (R169, R171). -/
def execRestartComplete (s : State) (u : Nat) (t : Nat) : Host.Outcome State Fault Refusal :=
  let s := s.at t
  match (s.unit u).phase with
  | .restarting _ =>
    if s.sourceActive u then .next s
    else if unitLevel u = 0 then .next (s.restartGrain u)
    else if unitLevel u = 1 then .next (s.blockUp u)
    else .next (s.regionUp (u / 256))
  | _ => .next s

/-- A source active for `TACTMAX` escalates its unit (R168, R171). -/
def execFaultSourceTimeout (s : State) (u : Nat) (t : Nat) : Host.Outcome State Fault Refusal :=
  let s := s.at t
  let lim := s.rd FB_FLT_CFG FB_FLT_CFG_TACTMAX * 10 * ms
  if (s.unit u).active.any (fun p => decide (p.2 + lim ≤ s.now)) then
    .next ((s.updUnit u (fun x => { x with active := [] })).escalate u)
  else .next s

/-- A performance counter wraps (R174). -/
def execPmonWrap (s : State) (n : Fin 64) (t : Nat) : Host.Outcome State Fault Refusal :=
  let s := s.at t
  let v := Tab.get 0 s.fab.pmon n.val
  if v < 2 ^ 48 then .next s
  else
    let s := { s with fab := { s.fab with pmon := Tab.set 0 s.fab.pmon n.val (v - 2 ^ 48) } }
    let s := (s.bump (FB_PMON_CNTHI n.val) FB_PMON_CNTHI_OVFN).raise srcPmon EV_FB_PMON_OVF [n.val]
    if s.rdB (FB_PMON_SEL n.val) FB_PMON_SEL_OVFPOST then
      .next (s.post 4 srcPmon n.val (s.rd (FB_PMON_SEL n.val) FB_PMON_SEL_DEST) 0 0)
    else .next s

/-- Every counter and `OVFN` cleared (R174). -/
def State.pmonClear (s : State) : State :=
  let s := { s with fab := { s.fab with pmon := [] } }
  (List.range 64).foldl (fun s n => s.wr (FB_PMON_CNTHI n) FB_PMON_CNTHI_OVFN 0) s

/-- A miss of a slot's deadline: its descriptor, MISS and EV_FB_DL_MISS, and the reaction where `FB_DL_ESC` calls the slot
region-fatal (R175). -/
def State.deadlineMissed (s : State) (src slot due : Nat) : State :=
  let g := src / 16 % 16 * 4 + src % 4
  let s := s.postReserved 2 srcDl slot src (due / 1000) 0
  let cnt := if g < 4 then FB_DL_CNT0 else FB_DL_CNT1
  let f : Fld := ⟨g % 4 * 8 + 7, g % 4 * 8⟩
  let s := (s.hit FB_DL_STAT ⟨g, g⟩ cnt f).count (monSrc src 7) 1
  let s := s.raise srcDl EV_FB_DL_MISS [src, slot]
  if bit (s.reg (FB_DL_ESC (g / 2))).toNat (g % 2 * 16 + slot) then
    (s.fltNote 0x3FF EV_FB_REGION_FATAL 2 2 [src, slot]).regionFatal 3
  else s.fltNote src EV_FB_DL_MISS 1 0 [slot]

/-- The deadline of an armed slot has passed (R175). -/
def execDeadlineMiss (s : State) (g : Fin 8) (slot : Fin 16) (t : Nat) : Host.Outcome State Fault Refusal :=
  let s := s.at t
  let src := ctlSrc g.val
  let d := Tab.get {} (s.grain src).dl slot.val
  if ¬ d.armed ∨ d.missed ∨ s.now < d.due then .next s
  else
    .next ((s.updGrain src (fun x => { x with dl := Tab.set {} x.dl slot.val { d with missed := true } })).deadlineMissed
      src slot.val d.due)

/-- A write of `KICK`: the first word of the sequence, the word that completes it, or a word out of order (R176). -/
def State.kickBad (s : State) (v : Nat) : Bool := if s.fab.kicked then v != 0xA5A5 else v != 0x5A5A
def State.kick (s : State) (v : Nat) : State :=
  if v = 0x5A5A then { s with fab := { s.fab with kicked := true } } else s.wdogStart
def State.kickRefused (s : State) (src v : Nat) : State :=
  (s.bump FB_WDOG_CTL FB_WDOG_CTL_BADN).raise srcDl EV_FB_WDOG_BADKICK [src, FB_WDOG_KICK, v]

/-- No kick within the period: region-fatal to CT (R176). -/
def execWatchdogExpire (s : State) (t : Nat) : Host.Outcome State Fault Refusal :=
  let s := s.at t
  match s.fab.wdogDue with
  | some due =>
    if due ≤ s.now then
      .next (((s.wdogStart).fltNote 0x3FF EV_FB_WDOG 2 2 []).regionFatal 3)
    else .next s
  | none => .next s

/-- A held descriptor delivered, with the raises merged into it (R166, R211). -/
def Held.out (h : Held) : Desc := { h.desc with w0 := BitVec.ofNat 32 (h.desc.w0.toNat / 256 * 256 + Nat.min h.merges 255) }

/-- A source delivers the descriptor that it holds for a grain once an entry is free (R166). -/
def execInboxHoldRelease (s : State) (src dest : Nat) (t : Nat) : Host.Outcome State Fault Refusal :=
  let s := s.at t
  let key := src % 4096 * 4096 + dest % 4096
  match Tab.get none s.fab.held key with
  | some h =>
    let room := if h.desc.w0.toNat / 2 ^ 28 = 2 then 16 else 14
    if (s.grain (dest % 4096)).inbox.length < room then
      let s := s.inboxPush (dest % 4096) h.out
      let s := { s with fab := { s.fab with held := Tab.set none s.fab.held key none } }
      .next (s.raise srcFault EV_FB_INBOX_HELD [src, h.merges])
    else .next s
  | none => .next s

end Sys2Proof.Machine
end

