-- ==== Sys2Proof/Machine/Gate.lean ====
section
/-!
DEFINITION. The events of the gate interface and of the power-stage protection (chapter 11).
-/

namespace Sys2Proof.Machine

/-- A counted level written into a two-bit pair of `PW_HB_STATn`. -/
def putPair (v : Nat) (hi level : Bool) : Nat := if hi then b2n level * 2 + v % 2 else v / 2 * 2 + b2n level

/-- Whether a desaturation flag of a switch is a short: the switch is on and its blanking time is over (R314). -/
def State.desatShort (s : State) (n : Nat) (hi : Bool) : Bool :=
  s.hbDs n hi && s.swOut n hi == 2 &&
    decide ((if hi then (s.hb n).riseH else (s.hb n).riseL) + s.tblank n ≤ s.now)

/-- A desaturation flag counts at a level (R309, R314). -/
def execDesatFlag (s : State) (n : Fin 24) (hi level : Bool) (t : Nat) : Host.Outcome State Fault Refusal :=
  let s := (s.at t).settle n
  let s := s.wr (PW_HB_STAT n) PW_HB_STAT_DS (putPair (s.rd (PW_HB_STAT n) PW_HB_STAT_DS) hi level)
  .next (if s.desatShort n hi then s.short n (if hi then 1 else 2) else s)

/-- The blanking time of a switch ends with its flag already high (R314). -/
def execBlankEnd (s : State) (n : Fin 24) (hi : Bool) (t : Nat) : Host.Outcome State Fault Refusal :=
  let s := (s.at t).settle n
  .next (if s.desatShort n hi then s.short n (if hi then 1 else 2) else s)

/-- Whether the fast overcurrent detector's value exceeds FOCTH for a count of ones (R315), in quarter mA. -/
def State.focOver (s : State) (n ones : Nat) : Bool :=
  let g := PW_PH_GAIN_PGAIN.getS (s.reg (PW_PH_GAIN n))
  let o := PW_PH_OFS_POFS.getS (s.reg (PW_PH_OFS n))
  decide (400 * s.rd (PW_HB_FOC n) PW_HB_FOC_FOCTH < (((ones : Int) - 4) * g - 4 * o).natAbs)

/-- The fast overcurrent detector at two consecutive modulator clocks (R315). -/
def execFastOvercurrent (s : State) (n : Fin 24) (ones1 ones2 : Fin 9) (t : Nat) : Host.Outcome State Fault Refusal :=
  let s := (s.at t).settle n
  let above := s.focOver n ones1 && s.focOver n ones2
  let s := s.updHb n (fun h => { h with foc := above })
  .next (if above && (s.swOut n true == 2 || s.swOut n false == 2) then s.short n 3 else s)

/-- The leak test's half-bridge fails: latched at once with its cause, and the test goes on with the next (R323). -/
def State.leakFail (s : State) (n : Nat) (hi : Bool) : State :=
  let cause := if hi then 8 else 9
  let s := s.hardOff n
  let s := s.wr (PW_HB_STAT n) PW_HB_STAT_CAUSE cause
  let s := (s.wrBit PW_GD_STAT n true).wrBit PW_GD_LRES n true
  let s := s.updHb n (fun h => { h with faultAt := s.now, faults := s.tries n ++ [s.now] })
  let s := s.hbLatch n cause
  (s.hbFaultEvent n cause).source23 n

/-- The leak test goes on with a list of half-bridges: its first one begins step 1, or the test ends (R323). -/
def State.leakNext (s : State) (hbs : List Nat) : State :=
  match hbs with
  | [] => ({ s with gate := { s.gate with leak := none } }).wr PW_GD_LEAK PW_GD_LEAK_LBUSY 0
  | n :: rest =>
    let s := (s.hardOff n).setHbState n 6
    { s with gate := { s.gate with leak := some (n :: rest, 1, s.now + us) } }

/-- A step of the leak test ends and the next begins (R323). -/
def State.leakStep (s : State) : State :=
  match s.gate.leak with
  | none => s
  | some ([], _, _) => s.leakNext []
  | some (n :: rest, step, due) =>
    let tl := s.rd PW_GD_LTIME PW_GD_LTIME_TLEAK * us
    if s.now < due then s
    else if step = 1 then
      let s := s.setSw n true 3
      { s with gate := { s.gate with leak := some (n :: rest, 2, s.now + tl) } }
    else if step = 2 then
      let s := s.setSw n true 0
      { s with gate := { s.gate with leak := some (n :: rest, 3, s.now + us) } }
    else if step = 3 then
      let s := s.setSw n false 3
      { s with gate := { s.gate with leak := some (n :: rest, 4, s.now + tl) } }
    else if step = 4 then
      let s := s.setSw n false 0
      { s with gate := { s.gate with leak := some (n :: rest, 5, s.now + us) } }
    else ((s.setHbState n 0).rearm n).leakNext rest

/-- A half-bridge under the leak test whose weak-off switch reads on fails, and the test goes on (R323). -/
def State.leakCheck (s : State) (n : Nat) : State :=
  match s.gate.leak with
  | some (m :: rest, _, _) =>
    if m = n ∧ s.swOut n true = 3 ∧ s.hbFb n true then (s.leakFail n true).leakNext rest
    else if m = n ∧ s.swOut n false = 3 ∧ s.hbFb n false then (s.leakFail n false).leakNext rest
    else s
  | _ => s

/-- Whether a hard-off switch reads on later than TIL after its falling edge with no turn-on of the other pending
(R312). -/
def State.strayOn (s : State) (n : Nat) (hi : Bool) : Bool :=
  let h := s.hb n
  s.swOut n hi == 0 && s.hbFb n hi && h.pend.isNone && decide ((if hi then h.fallH else h.fallL) + s.til n < s.now) &&
    decide (s.hbState n ≠ 3 ∧ s.hbState n ≠ 4 ∧ s.hbState n ≠ 6)

/-- A gate feedback counts at a level (R309, R311, R312, R323). -/
def execFeedbackChange (s : State) (n : Fin 24) (hi level : Bool) (t : Nat) : Host.Outcome State Fault Refusal :=
  let s := (s.at t).settle n
  let s := s.wr (PW_HB_STAT n) PW_HB_STAT_FB (putPair (s.rd (PW_HB_STAT n) PW_HB_STAT_FB) hi level)
  let s := (s.settle n).leakCheck n
  .next (if s.strayOn n hi then s.plainFault n (if hi then 5 else 6) else s)

/-- Whether a switch that is on does not read on TIL after its rising edge (R312). -/
def State.lateOn (s : State) (n : Nat) (hi : Bool) : Bool :=
  s.swOut n hi == 2 && !s.hbFb n hi &&
    decide ((if hi then (s.hb n).riseH else (s.hb n).riseL) + s.til n ≤ s.now)

/-- The interlock limit of a half-bridge passes: a pending turn-on against a switch that still reads on is an interlock
fault; a switch that does not follow its command is a feedback fault (R312). -/
def execInterlockTimeout (s : State) (n : Fin 24) (t : Nat) : Host.Outcome State Fault Refusal :=
  let s := (s.at t).settle n
  let h := s.hb n
  match h.pend with
  | some (hi, _) =>
    if s.hbFb n (!hi) ∧ (if hi then h.fallL else h.fallH) + s.til n ≤ s.now then
      .next ((s.updHb n (fun h => { h with pend := none })).plainFault n 4)
    else .next s
  | none =>
    if s.lateOn n true then .next (s.plainFault n 5)
    else if s.lateOn n false then .next (s.plainFault n 6)
    else if s.strayOn n true then .next (s.plainFault n 5)
    else if s.strayOn n false then .next (s.plainFault n 6)
    else .next s

/-- A member of the stop reaches its hard-off step (R318). -/
def execStopHardOff (s : State) (n : Fin 24) (t : Nat) : Host.Outcome State Fault Refusal :=
  let s := s.at t
  match (s.hb n).offDue with
  | some due =>
    if (s.hb n).inStop ∧ due ≤ s.now then
      let s := (s.hardOff n).updHb n (fun h => { h with offDue := none })
      .next { s with gate := { s.gate with lastOff := Nat.max s.gate.lastOff due } }
    else .next s
  | none => .next s

/-- SF asserts GATE_KILL: every switch that is on goes to soft plateau (R321). The wire follows SF's own GKILL. -/
def execGateKillAssert (s : State) (t : Nat) : Host.Outcome State Fault Refusal :=
  let s := s.at t
  if s.rdB SF_STAT SF_STAT_GKILL ∧ ¬ s.rdB PW_GD_STAT PW_GD_STAT_KILL then
    let s := s.endTests.wr PW_GD_STAT PW_GD_STAT_KILL 1
    let s := { s with gate := { s.gate with killAt := s.now } }
    let s := (List.range 24).foldl (fun s n => s.toPlateau n) s
    .next (s.raise srcGate EV_GD_KILL [0, 0])
  else .next s

/-- 1.0 µs after the assertion every switch goes hard off (R321). -/
def execGateKillHardOff (s : State) (t : Nat) : Host.Outcome State Fault Refusal :=
  let s := s.at t
  if s.rdB PW_GD_STAT PW_GD_STAT_KILL ∧ s.gate.killAt + us ≤ s.now then
    .next ((List.range 24).foldl (fun s n => (s.hardOff n).updHb n (fun h => { h with offDue := none })) s)
  else .next s

/-- SF releases GATE_KILL: outputs return to the sources of R310 (R321). -/
def execGateKillRelease (s : State) (t : Nat) : Host.Outcome State Fault Refusal :=
  let s := s.at t
  if s.rdB PW_GD_STAT PW_GD_STAT_KILL ∧ ¬ s.rdB SF_STAT SF_STAT_GKILL then
    let s := s.wr PW_GD_STAT PW_GD_STAT_KILL 0
    .next ((List.range 24).foldl (fun s n => if s.hbState n = 1 then (s.setHbState n 0).rearm n else s.rearm n) s)
  else .next s

/-- GD_UV_N counts as low: while any half-bridge switches or is in test mode every half-bridge goes hard off and into
its fault state; otherwise only UV is set (R322). -/
def execGdUvLow (s : State) (t : Nat) : Host.Outcome State Fault Refusal :=
  let s := s.at t
  let busy := (List.range 24).any (fun n => s.hbState n == 1 || s.hbState n == 5 || s.hbState n == 2)
  let s := s.wr PW_GD_STAT PW_GD_STAT_UV 1
  if busy then
    let s := s.endTests
    let s := (List.range 24).foldl (fun s n =>
      let s := (s.hardOff n).updHb n (fun h => { h with offDue := none })
      if s.hbState n = 4 then s else (s.hbFault n 7).hbFaultEvent n 7) s
    .next ((List.range 12).foldl (fun s r => if s.sregEn r then s.stringSource 23 r (some r) true else s) s)
  else .next s

/-- GD_UV_N returns high (R322, R325). -/
def execGdUvHigh (s : State) (t : Nat) : Host.Outcome State Fault Refusal :=
  .next ((s.at t).wr PW_GD_STAT PW_GD_STAT_UV 0)

/-- A leak-test step ends (R323). -/
def execLeakStepEnd (s : State) (t : Nat) : Host.Outcome State Fault Refusal :=
  let s := s.at t
  match s.gate.leak with
  | some (n :: rest, st, due) =>
    let s1 := s.leakCheck n
    .next (if s1.gate.leak = some (n :: rest, st, due) then s1.leakStep else s1)
  | _ => .next s

/-- A half-bridge returns to off, its fault cleared (R325, R326). -/
def State.hbRelease (s : State) (n : Nat) : State :=
  let s := s.wrBit PW_GD_STAT n false
  let s := s.wr (PW_HB_STAT n) PW_HB_STAT_CAUSE 0
  (((s.setHbState n 0).rearm n)).source23 n

/-- RWAIT after its fault a half-bridge returns to off when its source is inactive; a source active for TACTMAX latches
it (R325). -/
def execRetryWaitEnd (s : State) (n : Fin 24) (t : Nat) : Host.Outcome State Fault Refusal :=
  let s := s.at t
  let h := s.hb n
  if s.hbState n = 3 ∧ h.faultAt + s.rd PW_GD_CFG PW_GD_CFG_RWAIT * ms ≤ s.now then
    if s.faultInactive n then .next ((s.hbRelease n).raise srcGate EV_GD_RETRY [n, s.rd (PW_HB_STAT n) PW_HB_STAT_CAUSE])
    else if h.faultAt + s.rd FB_FLT_CFG FB_FLT_CFG_TACTMAX * 10 * ms ≤ s.now then
      .next (s.hbLatch n (s.rd (PW_HB_STAT n) PW_HB_STAT_CAUSE))
    else .next s
  else .next s

/-- An edge of the regulator's pulse or enable (R311). -/
def execPwmEdge (s : State) (n : Fin 24) (en pulse : Bool) (t : Nat) : Host.Outcome State Fault Refusal :=
  .next (((s.at t).settle n).driveHb n en pulse)

/-! ## What register writes of the gate block do -/

/-- The conditions of R313 for a half-bridge: off or not armed, its regulator in mode 0 or 7, its string open or no
string. -/
def State.testable (s : State) (n : Nat) : Bool :=
  (s.hbState n == 0 || s.hbState n == 7) &&
    match s.stringOfHb n with
    | none => true
    | some r => (s.sregMode r == 0 || s.sregMode r == 7) &&
        decide ((Tab.get {} s.trip.str r).st = .open_)

/-- Whether TCMD asks for a switch on while the other is on or in soft plateau (R313). -/
def State.bothOn (s : State) (n cmd : Nat) : Bool :=
  let h := cmd / 4
  let l := cmd % 4
  (h == 2 && (l == 2 || l == 1 || s.swOut n false == 1)) || (l == 2 && (h == 1 || s.swOut n true == 1))

/-- TCMD drives the half-bridge under test (R313): an on request obeys the dead time and the feedback; both on is
refused. -/
def State.testDrive (s : State) (n cmd : Nat) : State :=
  if s.bothOn n cmd then
    let s := (s.hardOff n).wr PW_GD_TEST PW_GD_TEST_TCMD 0
    (s.hit PW_GD_EVT PW_GD_EVT_BOTHON PW_GD_CNT1 PW_GD_CNT1_BOTHONN).raise srcGate EV_GD_BOTHON [n, cmd]
  else
    let one := fun (s : State) (hi : Bool) (v : Nat) =>
      if v = 2 then (if s.swOut n hi = 2 then s else s.askOn n hi)
      else (s.turnOff n hi).setSw n hi v
    if cmd / 4 = 2 then one (one s false (cmd % 4)) true 2 else one (one s true (cmd / 4)) false (cmd % 4)

/-- The effect of an admitted write to `PW_GD_TEST`: test mode entered, left, or its command changed (R313). -/
def State.gdTestEffect (s : State) (wasTen : Bool) (wasHb : Nat) : State :=
  let ten := s.rdB PW_GD_TEST PW_GD_TEST_TEN
  let n := s.rd PW_GD_TEST PW_GD_TEST_THB
  let s := if wasTen ∧ (¬ ten ∨ wasHb ≠ n) then ((s.hardOff wasHb).setHbState wasHb 0).rearm wasHb else s
  if ten then
    let s := s.setHbState n 5
    s.testDrive n (s.rd PW_GD_TEST PW_GD_TEST_TCMD)
  else s

/-- The effect of LSTART: the leak test of the half-bridges in LMASK, in ascending order (R323). -/
def State.leakStart (s : State) : State :=
  let m := s.rd PW_GD_LEAK PW_GD_LEAK_LMASK
  let s := (s.wr PW_GD_LRES PW_GD_LRES_LFAIL 0).wr PW_GD_LEAK PW_GD_LEAK_LBUSY 1
  s.leakNext ((List.range 24).filter (fun n => bit m n))

/-- The effect of HBCLR on one half-bridge: off with TRIES at 0, EV_GD_CLEAR (R326). -/
def State.hbClear (s : State) (n : Nat) : State :=
  let cause := s.rd (PW_HB_STAT n) PW_HB_STAT_CAUSE
  let s := s.updHb n (fun h => { h with faults := [] })
  let s := (s.wr (PW_HB_STAT n) PW_HB_STAT_TRIES 0).hbRelease n
  s.raise srcGate EV_GD_CLEAR [n, cause]

end Sys2Proof.Machine
end

