-- ==== Sys2Proof/Machine/Trip.lean ====
section
/-!
DEFINITION. The events of the trip block, the contactor supervisor and the pre-charge sequence (chapter 5), and the
contactor feedback (R122).
-/

namespace Sys2Proof.Machine

/-- Verdicts and source changes reach the trip block: the oldest one and `n` more in the same fabric cycle, combined per
string before any action starts (R129). -/
def execTripVerdict (s : State) (n t : Nat) : Host.Outcome State Fault Refusal :=
  let s := s.at t
  let vs := s.trip.inbox.take (n + 1)
  let s := { s with trip := { s.trip with inbox := s.trip.inbox.drop (n + 1) } }
  .next (s.takeVerdicts vs)

/-- DHOLD after its source cleared a DERATE releases itself (R131). -/
def execDerateHoldExpire (s : State) (r : Fin 12) (t : Nat) : Host.Outcome State Fault Refusal :=
  let s := s.at t
  match (s.tstr r).derateDue with
  | some due =>
    if due ≤ s.now then
      let s := s.updTstr r (fun x => { x with derate := false, derateDue := none })
      let s := if (s.tstr r).st = .derated then s.setSt r .normal else s
      .next s.limitsOnChange
    else .next s
  | none => .next s

/-- A ramping string is inhibited: parked (R133). -/
def State.park (s : State) (r : Nat) : State :=
  let now := s.now
  let s := ((s.enterIdle r).inhibitString r true).updTstr r (fun x => { x with openFrom := now })
  s.setSt r .parked

/-- A ramping string meets the zero-current condition: parked, and opened for RAMP-OPEN (R133). -/
def execRampPark (s : State) (r : Fin 12) (t : Nat) : Host.Outcome State Fault Refusal :=
  let s := s.at t
  if (s.tstr r).st = .ramping ∧ s.zeroMet r then
    let s := s.park r
    .next (if (s.tstr r).opens ∧ (s.tstr r).hc then s.hcOff r false else s)
  else .next s

/-- A ramp reaches TRAMPMAX (100 ms for source 27): the string is inhibited at that instant (R133). -/
def execRampTimeout (s : State) (r : Fin 12) (t : Nat) : Host.Outcome State Fault Refusal :=
  let s := s.at t
  let x := s.tstr r
  match x.episode with
  | some t0 => if x.st = .ramping ∧ t0 + x.rampMax ≤ s.now then .next (s.park r) else .next s
  | none => .next s

/-- An inhibited string that opens meets the zero-current condition: its HC channel turns off (R132, R133). -/
def execZeroCurrentOpen (s : State) (r : Fin 12) (t : Nat) : Host.Outcome State Fault Refusal :=
  let s := s.at t
  let x := s.tstr r
  if (x.st = .opening ∨ x.st = .parked) ∧ x.opens ∧ x.hc ∧ s.zeroMet r then .next (s.hcOff r false) else .next s

/-- t_open_max passes: the HC channel turns off as it is (R133). -/
def execOpenTimeout (s : State) (r : Fin 12) (t : Nat) : Host.Outcome State Fault Refusal :=
  let s := s.at t
  let x := s.tstr r
  if (x.st = .opening ∨ x.st = .parked) ∧ x.opens ∧ x.hc ∧
      x.openFrom + s.rd PW_TRIP_CFG PW_TRIP_CFG_TOPENMAX * ms ≤ s.now then .next (s.hcOff r false) else .next s

/-- The limit in force exceeded without interruption for DLPERS on a path: source 16 (R135). -/
def execDlimExceed (s : State) (r : Fin 12) (t : Nat) : Host.Outcome State Fault Refusal :=
  let s := s.at t
  let x := s.tstr r
  let pers := s.rd PW_TRIP_LIM PW_TRIP_LIM_DLPERS * 1000000
  let long := fun (o : Option Nat) (last : Nat) => match o with
    | some t0 => decide (t0 + pers ≤ last)
    | none => false
  if (s.shuntSound r && long x.overS x.zeroSLast) || (s.phaseSound r && long x.overP x.zeroPLast) then
    .next (s.stringSource 16 r (some r.val) true)
  else .next s

/-- No completed pair for DLSTALE: the fallback limits, source 17, EV_DLIM_STALE (R136). -/
def execDlimStale (s : State) (r : Fin 12) (t : Nat) : Host.Outcome State Fault Refusal :=
  let s := s.at t
  let x := s.tstr r
  if ¬ x.dlimStale ∧ x.dlimStamp + s.rd PW_TRIP_TIM PW_TRIP_TIM_DLSTALE * ms ≤ s.now then
    let s := s.updTstr r (fun x => { x with dlimStale := true })
    let s := (s.hit PW_TRIP_EVT PW_TRIP_EVT_DLSTALE PW_TRIP_CNT PW_TRIP_CNT_DLSTALEN).raise srcTrip EV_DLIM_STALE [r]
    .next (s.stringSource 17 r (some r.val) true).limitsOnChange
  else .next s

/-- A close that waited for its LC partner is checked again and carried out (R140). -/
def execCloseWaitEnd (s : State) (r : Fin 12) (t : Nat) : Host.Outcome State Fault Refusal :=
  let s := s.at t
  if (s.tstr r).closeWait.isSome ∧ ¬ s.partnerBusy r then
    let s := s.updTstr r (fun x => { x with closeWait := none })
    let s := s.closeReq r
    .next (if (s.tstr r).hc then s else s.pchClosed r false)
  else .next s

/-- TPULL passes without both feedbacks closed: HC off, source 20 with cause pull-in (R141). -/
def execPullInTimeout (s : State) (r : Fin 12) (t : Nat) : Host.Outcome State Fault Refusal :=
  let s := s.at t
  let x := s.tstr r
  match x.pullAt with
  | some t0 =>
    if x.st = .closing ∧ x.hc ∧ t0 + s.rd PW_CON_CFG PW_CON_CFG_TPULL * ms ≤ s.now ∧ ¬ s.bothClosed r then
      let s := (s.updTstr r (fun x => { x with hc := false, econ := false })).lsSync r
      let s := (s.wearBoth r 7 1).setSt r .open_
      .next ((s.pulseString 20 (2048 + r) r).pchClosed r false)
    else .next s
  | none => .next s

/-- 200 ms after pull-in start the HC input follows its assigned source (R141). -/
def execEconomiserStart (s : State) (r : Fin 12) (t : Nat) : Host.Outcome State Fault Refusal :=
  let s := s.at t
  let x := s.tstr r
  match x.pullAt with
  | some t0 =>
    if x.hc ∧ ¬ x.econ ∧ t0 + 200 * ms ≤ s.now then
      .next ((s.updTstr r (fun x => { x with econ := true })).lsSync r)
    else .next s
  | none => .next s

/-- The welded-contact check decides: each contactor's voltage above +50 V within 100 ms of HC off, each CFB open by TDROP
(R143). -/
def execWeldCheckTimeout (s : State) (r : Fin 12) (t : Nat) : Host.Outcome State Fault Refusal :=
  let s := s.at t
  let x := s.tstr r
  match x.offAt with
  | none => .next s
  | some t0 =>
    let tdrop := s.rd PW_CON_CFG PW_CON_CFG_TDROP * ms
    let late1 := decide (t0 + 100 * ms ≤ s.now)
    let late2 := decide (t0 + tdrop ≤ s.now)
    let above := late1 && late2
    if x.noWeldCheck ∨ x.vStr < 200000 then
      .next (if above then s.updTstr r (fun x => { x with offAt := none }) else s)
    else
      let badP := (late1 && !bit x.weldOk 0) || (late2 && s.cfbClosed (2 * r))
      let badN := (late1 && !bit x.weldOk 1) || (late2 && s.cfbClosed (2 * r + 1))
      if badP ∨ badN then
        let s := s.updTstr r (fun x => { x with offAt := none })
        let s := if badP then s.wearOne (2 * r) 8 1 else s
        let s := if badN then s.wearOne (2 * r + 1) 8 1 else s
        let s := s.wrBit PW_CON_STAT (12 + r) true
        let s := s.raise srcTrip EV_CON_WELD [r, wrapInt x.vPos 32, wrapInt x.vNeg 32]
        .next (s.pulseString 20 (2048 + r) r)
      else .next (if above then s.updTstr r (fun x => { x with offAt := none }) else s)

/-- A pre-charge step's time limit passes: ΔV of the seed by 6 TAUMAX (reason 4), the boost (reason 6), the bucks of step
5 after 2 s (R147). -/
def execPrechargeTimeout (s : State) (t : Nat) : Host.Outcome State Fault Refusal :=
  let s := s.at t
  let p := s.trip.pch
  if p.step = 2 ∧ p.instant + 6 * s.rd PW_PCH_CFG PW_PCH_CFG_TAUMAX * 5 * ms ≤ s.now ∧ ¬ s.dvOk s.seed then
    .next (s.pchFail 4)
  else if p.step = 4 then
    let dv := (s.busTarget / 1000 - p.vBus0).natAbs
    let slew := s.rd PW_PCH_RATE PW_PCH_RATE_PSLEW * 10
    let lim := if slew = 0 then 0 else dv * ms / slew
    if slew ≠ 0 ∧ p.instant + lim + 100 * ms ≤ s.now ∧ ¬ s.busSettled then .next (s.pchFail 6) else .next s
  else if p.step = 5 ∧ p.instant + 2 * sec ≤ s.now then .next s.pchClose
  else .next s

/-- The power die samples a CFB input every 100 µs: 0 low, 1 between the thresholds, 2 high; a level that holds for FILT
counts (R122). -/
def execCfbSample (s : State) (n : Fin 24) (level : Fin 3) (t : Nat) : Host.Outcome State Fault Refusal :=
  let s := s.at t
  let now := s.now
  let s := if Tab.get 0 s.trip.cfbRaw n = level.val then s
    else { s with trip := { s.trip with cfbRaw := Tab.set 0 s.trip.cfbRaw n level.val,
                                        cfbSince := Tab.set 0 s.trip.cfbSince n now } }
  if now < Tab.get 0 s.trip.cfbSince n + s.rd PW_CFB_CFG PW_CFB_CFG_FILT * 100 * us then .next s
  else if level = 1 then
    if Tab.get false s.trip.cfbIndet n then .next s
    else
      let s := { s with trip := { s.trip with cfbIndet := Tab.set false s.trip.cfbIndet n true } }
      .next (s.raise srcOut EV_CFB_INDET [n])
  else
    let s := { s with trip := { s.trip with cfbIndet := Tab.set false s.trip.cfbIndet n false } }
    let closed := decide (level = 2) == bit (s.rd PW_CFB_CFG PW_CFB_CFG_POL) n
    if s.cfbClosed n = closed then .next s
    else .next ((s.wrBit PW_CFB_STAT n closed).cfbChanged (n / 2))

end Sys2Proof.Machine
end

