-- ==== Sys2Proof/Machine/Current.lean ====
section
/-!
DEFINITION. The current unit, the analog inputs and time alignment (chapter 4).
-/

namespace Sys2Proof.Machine

/-! ## Rings (R107) -/

/-- Address of ring entry `i` of source `x`. -/
def ringAddr (x i : Nat) : Nat := 0x10480000 + x * 0x4000 + i % 1024 * 16

/-- A sample written to its ring: stamp in ns, value in mA, flags (R107). -/
def State.ringWrite (s : State) (x stamp : Nat) (v : Int) (flags : Nat) : State :=
  let i := Tab.get 0 s.cur.ring x
  let a := ringAddr x i
  let s := ((s.storeLE a 8 stamp).storeLE (a + 8) 4 (wrapInt v 32)).storeLE (a + 12) 4 flags
  { s with cur := { s.cur with ring := Tab.set 0 s.cur.ring x (i + 1) } }

/-- The entries that a ring holds, oldest first: stamp, value, flags. -/
def State.ringEntries (s : State) (x : Nat) : List (Nat × Int × Nat) :=
  let n := Tab.get 0 s.cur.ring x
  (List.range (Nat.min n 1024)).map (fun j =>
    let a := ringAddr x (n - Nat.min n 1024 + j)
    (s.loadLE a 8, sext (s.loadLE (a + 8) 4) 32, s.loadLE (a + 12) 4))

/-- A quotient rounded to the nearest integer (log 8). -/
def nearest (a b : Int) : Int := if b = 0 then Config.quotientByZero a else (2 * a + b) / (2 * b)

/-- Linear interpolation at an instant, rounded to 1 mA (R118). -/
def interpolate (ta : Nat) (va : Int) (tb : Nat) (vb : Int) (t : Nat) : Int :=
  va + nearest ((vb - va) * ((t : Int) - ta)) ((tb : Int) - ta)

/-- An instant in ps rounded to 2.5 ns, in ns. -/
def stampNs (ps : Int) : Nat := (((ps + 1250) / 2500 * 2500) / 1000).toNat

/-! ## Windows, offsets, integrals (R115, R117, R433) -/

/-- A string is quiet: gates inhibited and both contactors open (R117). -/
def State.quiet (s : State) (r : Nat) : Bool :=
  s.bothOpen r && (s.sregMode r == 0 || s.sregMode r == 7)

/-- A sample joins the 1 ms window of its source; a flagged one makes the window be skipped (R116). -/
def State.windowAdd (s : State) (x : Nat) (v : Int) (bad : Bool) : State :=
  if bad then { s with cur := { s.cur with winBad := Tab.set false s.cur.winBad x true } }
  else { s with cur := { s.cur with winSum := Tab.set 0 s.cur.winSum x (Tab.get 0 s.cur.winSum x + v),
                                    winN := Tab.set 0 s.cur.winN x (Tab.get 0 s.cur.winN x + 1) } }

/-- A sample of a quiet string joins its offset measurement; a string that is not quiet starts over (R117). -/
def State.offsetAdd (s : State) (x r : Nat) (v : Int) : State :=
  if s.quiet r then
    let since := (Tab.get none s.cur.offSince r).getD s.now
    { s with cur := { s.cur with offSum := Tab.set 0 s.cur.offSum x (Tab.get 0 s.cur.offSum x + v),
                                 offN := Tab.set 0 s.cur.offN x (Tab.get 0 s.cur.offN x + 1),
                                 offSince := Tab.set none s.cur.offSince r (some since) } }
  else
    { s with cur := { s.cur with offSum := Tab.set 0 (Tab.set 0 s.cur.offSum r 0) (12 + r) 0,
                                 offN := Tab.set 0 (Tab.set 0 s.cur.offN r 0) (12 + r) 0,
                                 offSince := Tab.set none s.cur.offSince r none } }

/-- The source that R118 selects for a string: the shunt, or the phase sum. -/
def State.selected (s : State) (r : Nat) : Nat :=
  if ¬ s.shuntSound r ∨ (bit (s.rd AQ_CUR_STAT AQ_CUR_STAT_XFAIL) r ∧ s.phaseSound r) then 12 + r else r

/-- The charge of a string's selected source, integrated trapezoidally, in half mA·ns (R433); frozen in commit mode
(R437). -/
def State.integrate (s : State) (x r stamp : Nat) (v : Int) : State :=
  if ¬ s.lifeOn ∨ s.selected r ≠ x then s
  else
    let d : Int := match Tab.get none s.led.intLast r with
      | some (v0, t0) => (v0 + v) * ((stamp : Int) - t0)
      | none => 0
    let put := fun (tb : Tab Nat) (k : Nat) => Tab.set 0 tb r (Tab.get 0 tb r + k)
    { s with led := { s.led with
      intLast := Tab.set none s.led.intLast r (some (v, stamp)),
      aIn := if 0 < d then put s.led.aIn d.toNat else s.led.aIn,
      aOut := if d < 0 then put s.led.aOut (-d).toNat else s.led.aOut } }

/-! ## String current unknown (R118, source 15) -/

/-- Source 15 of a string follows whether it is closed and has no sound path (R118). -/
def State.unknownSync (s : State) (r : Nat) : State :=
  let on := s.bothClosed r && !s.shuntSound r && !s.phaseSound r
  if Tab.get false s.cur.unknown r = on then s
  else
    let s := { s with cur := { s.cur with unknown := Tab.set false s.cur.unknown r on } }
    s.stringSource 15 r (some r) on

/-! ## Streams (R108 to R110, R517) -/

/-- The source of a sense node's stream: a string whose current source names it and is enabled, or the bus source of a
ring whose lowest bus sense node it is (R108). -/
def State.streamSource (s : State) (p q : Nat) : Option Nat :=
  let ty := s.nodeType p q
  if ty = 2 then
    (List.range 12).find? (fun r => s.rdB (AQ_CUR_SRC r) AQ_CUR_SRC_EN && s.rd (AQ_CUR_SRC r) AQ_CUR_SRC_PORT == p &&
      s.curPos r == q)
  else if ty = 3 ∧ 16 ≤ p ∧ (List.range (q - 1)).all (fun i => s.nodeType p (i + 1) != 3) then some (24 + (p - 16))
  else none

/-- The bit of a source in `STALE`. -/
def staleBit (x : Nat) : Nat := if x < 12 then x else 12 + (x - 24)

/-- A source stops being stale (R110). -/
def State.unstale (s : State) (x : Nat) : State :=
  if bit (s.rd AQ_CUR_STAT AQ_CUR_STAT_STALE) (staleBit x) then
    let s := s.wrBit AQ_CUR_STAT (staleBit x) false
    if x < 12 then (s.stringSource 14 x (some x) false).unknownSync x else s
  else s

/-- A stream sample against the thresholds of R87: the load or the near period is called for, and both dwells restart
(R517). -/
def State.adaptSample (s : State) (v : Nat) : State :=
  let iload := s.rd AQ_SWP_ADAPT AQ_SWP_ADAPT_ILOAD * 10
  let irest := s.rd AQ_SWP_ADAPT AQ_SWP_ADAPT_IREST * 10
  let m := if iload = 0 ∨ iload ≤ v then 0 else if s.swp.mode = 2 ∧ irest ≤ v then 1 else s.swp.mode
  if m < s.swp.mode then { s with swp := { s.swp with mode := m, dwellNear := 0, dwellRest := 0 } } else s

/-- A string whose stream is stale counts as above ILOAD (R87). -/
def State.adaptLoad (s : State) : State :=
  if 0 < s.swp.mode then { s with swp := { s.swp with mode := 0, dwellNear := 0, dwellRest := 0 } } else s

/-- A source becomes stale (R110). -/
def State.makeStale (s : State) (x : Nat) : State :=
  if bit (s.rd AQ_CUR_STAT AQ_CUR_STAT_STALE) (staleBit x) then s
  else
    let s := s.wrBit AQ_CUR_STAT (staleBit x) true
    let s := (s.hit AQ_CUR_EVT AQ_CUR_EVT_STALE AQ_CUR_CNT0 AQ_CUR_CNT0_STALEN).raise srcAnalog EV_CUR_STALE [x]
    if x < 12 then ((s.stringSource 14 x (some x) true).adaptLoad).unknownSync x else s

/-- Chip time of a 48-bit local time near now (R50). -/
def State.extend48 (s : State) (t48 : Nat) : Nat :=
  let base := s.ns / 2 ^ 48 * 2 ^ 48
  if base + t48 ≤ s.ns + 2 ^ 47 then base + t48 else base + t48 - 2 ^ 48

/-- One stream sample of a source (R109). -/
def State.streamSample (s : State) (x stamp : Nat) (v : Int) (period : Nat) : State :=
  let bad := decide (s.rd AQ_CUR_XCFG AQ_CUR_XCFG_ISMAX * 1000 < v.natAbs)
  let s := s.ringWrite x stamp v (1 + 2 * b2n bad)
  let s := if bad then
      (s.hit AQ_CUR_EVT AQ_CUR_EVT_IMPLAUS AQ_CUR_CNT0 AQ_CUR_CNT0_IMPLAUSN).raise srcAnalog EV_CUR_IMPLAUS
        [x, wrapInt v 32]
    else s
  if x < 12 then
    let s := (s.adaptSample v.natAbs).windowAdd x v bad
    let s := s.pathSample x false stamp v bad period
    let s := if bad then s else (s.offsetAdd x x v).integrate x x stamp v
    { s with swp := { s.swp with winSum := Tab.set 0 s.swp.winSum x (Tab.get 0 s.swp.winSum x + v.natAbs),
                                 winN := Tab.set 0 s.swp.winN x (Tab.get 0 s.swp.winN x + 1) } }
  else s

/-- The stream part of an accepted sense record (R109, R110). -/
def State.streamIn (s : State) (p q : Nat) (body : List Nat) : State :=
  match s.streamSource p q with
  | none => s
  | some x =>
    let first := s.extend48 (beField body 22 6)
    let period := beField body 28 2 * 250
    let disc := beField body 31 1
    let xs := streamSamples body
    let s := if disc = 0 then s
      else (s.hit AQ_CUR_EVT AQ_CUR_EVT_DISCARD AQ_CUR_CNT0 AQ_CUR_CNT0_DISCARDN).raise srcAnalog EV_CUR_DISCARD [x, disc]
    let s := (xs.zip (List.range 16)).foldl (fun s e => s.streamSample x (first + e.2 * period) e.1 period) s
    let last := first + (xs.length - 1) * period
    let s := { s with cur := { s.cur with streamPer := Tab.set 0 s.cur.streamPer x period } }
    if xs.length ≠ 0 ∧ Tab.get 0 s.cur.newest x < last then
      let s := { s with cur := { s.cur with newest := Tab.set 0 s.cur.newest x last } }
      s.unstale x
    else s

/-- The STRPER interval, ps. -/
def State.strPer (s : State) : Nat := s.rd AQ_SWP_CTL AQ_SWP_CTL_STRPER * 250 * us

/-- A stream's newest sample ages past 3 STRPER intervals + 0.5 ms, or its position holds no string sense node (R108,
R110). Sources 0 to 11 are strings, 12 and 13 the bus sense nodes of rings A and B. -/
def execStreamStale (s : State) (i : Fin 14) (t : Nat) : Host.Outcome State Fault Refusal :=
  let s := s.at t
  let x := if i.val < 12 then i.val else 12 + i.val
  let old := decide (Tab.get 0 s.cur.newest x * 1000 + 3 * s.strPer + 500 * us < s.now)
  if i.val < 12 then
    let p := s.rd (AQ_CUR_SRC i) AQ_CUR_SRC_PORT
    let q := s.curPos i
    if s.rdB (AQ_CUR_SRC i) AQ_CUR_SRC_EN ∧ (old ∨ s.nodeType p q ≠ 2) then .next (s.makeStale x) else .next s
  else
    let p := 16 + (i.val - 12)
    if old ∧ (List.range 64).any (fun q => s.nodeType p (q + 1) == 3) then .next (s.makeStale x) else .next s

/-! ## Phase bitstreams (R111, R112) -/

/-- The oversampling ratio of a phase. -/
def State.posr (s : State) (n : Nat) : Nat := 64 * 2 ^ s.rd (PW_PH_CFG n) PW_PH_CFG_POSR

/-- A decimator output of a phase: `acc` of POSR^3 ones weighted by the sinc³ filter, its output time `t`, stamped with
its corrected instant (R111); four in a row beyond 0.9 fail the sense (R112). -/
def execPhaseDecimatorOutput (s : State) (n : Fin 24) (acc t : Nat) : Host.Outcome State Fault Refusal :=
  let s := s.at t
  let r3 : Int := ((s.posr n) ^ 3 : Nat)
  let m : Int := 2 * (acc : Int) - r3
  let v := nearest (m * PW_PH_GAIN_PGAIN.getS (s.reg (PW_PH_GAIN n))) r3 - PW_PH_OFS_POFS.getS (s.reg (PW_PH_OFS n))
  let stamp := stampNs ((t : Int) - 75000 * (s.posr n - 1 : Nat) - 10000 * s.rd (PW_PH_CFG n) PW_PH_CFG_PDLY)
  let above := decide (9 * r3 < 10 * m.natAbs)
  let k := if above then Tab.get 0 s.cur.ovN n + 1 else 0
  let hist := ((stamp, v) :: Tab.get [] s.cur.outs n).take 8
  let s := { s with cur := { s.cur with outs := Tab.set [] s.cur.outs n hist, ovN := Tab.set 0 s.cur.ovN n k } }
  let s := match s.stringOfHb n with
    | none => s
    | some r =>
      if ((List.range 4).find? (fun k => s.phActive r k)).map (fun k => s.slotHb r k) = some n.val then
        { s with cur := { s.cur with sums := Tab.set [] s.cur.sums r (Tab.get [] s.cur.sums r ++ [(stamp, v)]) } }
      else s
  let s := if 4 ≤ k then s.phaseSenseFail n else s
  .next (match s.stringOfHb n with
    | none => s
    | some r => s.unknownSync r)

/-- A phase's value at an instant, between the two outputs that enclose it (R111). -/
def State.phaseAt (s : State) (n t : Nat) : Option Int :=
  let outs := Tab.get [] s.cur.outs n
  match outs.find? (fun o => decide (o.1 ≤ t)), outs.reverse.find? (fun o => decide (t ≤ o.1)) with
  | some a, some b => some (if a.1 = b.1 then a.2 else interpolate a.1 a.2 b.1 b.2 t)
  | _, _ => none

/-- Once every active phase has enclosing outputs, the phase sum of a regulator is written to its ring; with a failed
phase it carries the faulty-path flag (R111, R112). -/
def execPhaseSumWrite (s : State) (r : Fin 12) (t : Nat) : Host.Outcome State Fault Refusal :=
  let s := s.at t
  match Tab.get [] s.cur.sums r with
  | [] => .next s
  | (stamp, v) :: rest =>
    let act := (List.range 4).filter (fun k => s.phActive r k)
    let others := (act.drop 1).map (fun k => s.phaseAt (s.slotHb r k) stamp)
    if others.any (fun o => o.isNone) then .next s
    else
      let sum := v + sumI (others.map (fun o => o.getD 0))
      let bad := act.any (fun k => (s.phase (s.slotHb r k)).senseFail)
      let period := s.posr (s.slotHb r (act.headD 0)) * 50
      let s := { s with cur := { s.cur with sums := Tab.set [] s.cur.sums r rest,
                                            newest := Tab.set 0 s.cur.newest (12 + r) stamp } }
      let s := s.ringWrite (12 + r) stamp sum (1 + 8 * b2n bad)
      let s := (s.windowAdd (12 + r) sum bad).pathSample r true stamp sum bad period
      .next (if bad then s else (s.offsetAdd (12 + r) r sum).integrate (12 + r) r stamp sum)

/-- No transition on a PDAT input for 64 modulator clocks: the phase's sense fails (R112). -/
def execPdatNoTransition (s : State) (n : Fin 24) (t : Nat) : Host.Outcome State Fault Refusal :=
  let s := (s.at t).phaseSenseFail n
  .next (match s.stringOfHb n with
    | none => s
    | some r => s.unknownSync r)

/-! ## AIC channels (R113, R114, R516, R272) -/

/-- Sample interval and group delay of an output rate, ps (R113). -/
def aicPeriod (odr : Nat) : Nat := [1000000000, 250000000, 62500000, 15625000, 4000000].getD odr 0
def aicDelay (odr : Nat) : Nat := [1499906250, 374906250, 93656250, 23343750, 5906250].getD odr 0

/-- Trip source 19 follows whether an enabled AIC channel holds a fault (R516). -/
def State.aicSource (s : State) : State :=
  let on := (List.range 8).any (fun n => s.rdB (AQ_AIC_CFG n) AQ_AIC_CFG_EN &&
    (Tab.get false s.cur.aicOver n || Tab.get false s.cur.aicStuck n))
  let was := s.trip.active.any (fun a => a.src == 19) || s.trip.inbox.any (fun v => v.src == 19)
  if on ∨ was then s.stringSource 19 0 none on else s

/-- The range and stuck checks of a code (R516). -/
def State.aicCheck (s : State) (n : Nat) (code : Int) : State :=
  let c := s.cur
  let big := decide (98 * 2 ^ 23 ≤ 100 * code.natAbs)
  let first := decide (Tab.get 0 c.aicSame n = 0)
  let same := decide (code = Tab.get 0 c.aicCode n) && !first
  let eq := if same then Tab.get 0 c.aicSame n + 1 else 1
  let hi := if big then Tab.get 0 c.aicHigh n + 1 else 0
  let lo := if big then 0 else Tab.get 0 c.aicLow n + 1
  let above := if 4 ≤ hi then true else if 4 ≤ lo then false else Tab.get false c.aicOver n
  let stuck := if 1024 ≤ eq then true else if same then Tab.get false c.aicStuck n else false
  let start := (above && !Tab.get false c.aicOver n) || (stuck && !Tab.get false c.aicStuck n)
  let change := start || (above != Tab.get false c.aicOver n) || (stuck != Tab.get false c.aicStuck n)
  let s := { s with cur := { c with
    aicCode := Tab.set 0 c.aicCode n code, aicSame := Tab.set 0 c.aicSame n eq, aicHigh := Tab.set 0 c.aicHigh n hi,
    aicLow := Tab.set 0 c.aicLow n lo, aicOver := Tab.set false c.aicOver n above,
    aicStuck := Tab.set false c.aicStuck n stuck } }
  let s := if start then
      (s.hit AQ_CUR_EVT AQ_CUR_EVT_AICFLT AQ_CUR_CNT1 AQ_CUR_CNT1_AICFLTN).raise srcAnalog EV_AIC_FAULT [n]
    else s
  if change then s.aicSource else s

/-- An AIC channel delivers a 24-bit code at its output time (R113, R114): checked, stamped, written to its ring; the
channel of VBSRC runs the bus loop (R272), or makes the bus voltage source faulty (R275). -/
def execAicSample (s : State) (n : Fin 8) (code : Int) (t : Nat) : Host.Outcome State Fault Refusal :=
  let s := s.at t
  if ¬ s.rdB (AQ_AIC_CFG n) AQ_AIC_CFG_EN then .next s
  else
    let code := sext (wrapInt code 24) 24
    let s := s.aicCheck n code
    let odr := s.rd (AQ_AIC_CFG n) AQ_AIC_CFG_ODR
    let v := code * AQ_AIC_SCL_SCALE.getS (s.reg (AQ_AIC_SCL n)) / 2 ^ 23 - AQ_AIC_OFS_OFS.getS (s.reg (AQ_AIC_OFS n))
    let stamp := stampNs ((t : Int) - aicDelay odr - 10000 * s.rdS (AQ_AIC_CFG n) AQ_AIC_CFG_AFEDLY)
    let above := Tab.get false s.cur.aicOver n
    let stuck := Tab.get false s.cur.aicStuck n
    let s := s.ringWrite (26 + n) stamp v (1 + 4 * b2n above + 8 * b2n stuck)
    if s.rd PW_BUS_CFG PW_BUS_CFG_VBSRC ≠ n.val then .next s
    else if above || stuck then .next s.vbusFaulty
    else
      let since := s.regu.vbusSound.getD s.now
      let s := if s.regu.vbusFault then { s with regu := { s.regu with vbusSound := some since } } else s
      .next (s.busLoop v (aicPeriod odr)).pchBus

/-! ## AIN channels (R119 to R121) -/

/-- Trip source 18 of a channel raised or cleared. -/
def State.ainSource (s : State) (n : Nat) (on : Bool) : State :=
  if Tab.get false s.cur.ainHeld n = on then s
  else
    let s := { s with cur := { s.cur with ainHeld := Tab.set false s.cur.ainHeld n on } }
    s.stringSource 18 n none on

/-- An AIN window left, or a conversion timed out: AINWIN and EV_AIN_WIN (R120, R121). -/
def State.ainWin (s : State) (n : Nat) : State :=
  ((s.hit AQ_CUR_EVT AQ_CUR_EVT_AINWIN AQ_CUR_CNT1 AQ_CUR_CNT1_AINWINN).raise srcAnalog EV_AIN_WIN [n]).ainSource n true

/-- An AIN conversion completes: stamped at the end of its sampling, `t`, and checked against its window (R119, R120). -/
def execAinConversion (s : State) (n : Fin 16) (code : Fin 4096) (t : Nat) : Host.Outcome State Fault Refusal :=
  let s := s.at t
  if ¬ s.rdB (AQ_AIN_CFG n) AQ_AIN_CFG_EN then .next s
  else
    let out := decide (code.val < s.rd (AQ_AIN_CFG n) AQ_AIN_CFG_LO ∨ s.rd (AQ_AIN_CFG n) AQ_AIN_CFG_HI < code.val)
    let pers := s.rd (AQ_AIN_CFG n) AQ_AIN_CFG_PERS
    let o := if out then Tab.get 0 s.cur.ainOut n + 1 else 0
    let i := if out then 0 else Tab.get 0 s.cur.ainIn n + 1
    let s := { s with cur := { s.cur with ainCode := Tab.set 0 s.cur.ainCode n code, ainAt := Tab.set 0 s.cur.ainAt n s.ns,
                                          ainOut := Tab.set 0 s.cur.ainOut n o, ainIn := Tab.set 0 s.cur.ainIn n i } }
    if out ∧ o = pers then .next (s.ainWin n)
    else if ¬ out ∧ pers ≤ i then .next (s.ainSource n false)
    else .next s

/-- A conversion not complete within 10 µs: the sample is dropped (R121). -/
def execAinTimeout (s : State) (n : Fin 16) (t : Nat) : Host.Outcome State Fault Refusal := .next ((s.at t).ainWin n)

/-! ## Cross-check and offsets (R115 to R117) -/

/-- The mean of a source's window, in mA. -/
def State.winMean (s : State) (x : Nat) : Int :=
  nearest (Tab.get 0 s.cur.winSum x) (Tab.get 0 s.cur.winN x : Nat)

/-- The cross-check of one string over the window that ends (R115, R116). -/
def State.xcheck (s : State) (r : Nat) : State :=
  let stale := bit (s.rd AQ_CUR_STAT AQ_CUR_STAT_STALE) r
  let skip := stale || Tab.get 0 s.cur.winN r == 0 || Tab.get 0 s.cur.winN (12 + r) == 0 ||
    Tab.get false s.cur.winBad r || Tab.get false s.cur.winBad (12 + r)
  let setN := fun (s : State) (k : Nat) => { s with cur := { s.cur with xfails := Tab.set 0 s.cur.xfails r k } }
  if ¬ s.rdB (AQ_CUR_SRC r) AQ_CUR_SRC_EN ∨ ¬ s.sregEn r then s
  else if skip then setN s 0
  else
    let a := s.winMean r
    let b := s.winMean (12 + r)
    let tol := s.rd AQ_CUR_XCFG AQ_CUR_XCFG_XABS * 100000 + s.rd AQ_CUR_XCFG AQ_CUR_XCFG_XPCT * a.natAbs
    if tol < 1000 * (a - b).natAbs then
      let k := Tab.get 0 s.cur.xfails r + 1
      let s := setN s k
      if k = 10 ∧ ¬ bit (s.rd AQ_CUR_STAT AQ_CUR_STAT_XFAIL) r then
        let s := s.wrBit AQ_CUR_STAT (16 + r) true
        let s := (s.hit AQ_CUR_EVT AQ_CUR_EVT_XCHK AQ_CUR_CNT0 AQ_CUR_CNT0_XCHKN).raise srcAnalog EV_CUR_XCHK
          [r, wrapInt a 32, wrapInt b 32]
        s.parkRequest r
      else s
    else (setN s 0).wrBit AQ_CUR_STAT (16 + r) false

/-- A 1 ms window ends: every string is cross-checked and the windows start anew (R115). -/
def execXchkWindowEnd (s : State) (t : Nat) : Host.Outcome State Fault Refusal :=
  let s := s.at t
  let s := (List.range 12).foldl (fun s r => s.xcheck r) s
  .next { s with cur := { s.cur with winSum := [], winN := [], winBad := [] } }

/-- After 1 s of a quiet string the means of its paths are written to `AQ_CUR_OFSs` (R117). -/
def execOffsetMeasure (s : State) (r : Fin 12) (t : Nat) : Host.Outcome State Fault Refusal :=
  let s := s.at t
  match Tab.get none s.cur.offSince r with
  | none => .next s
  | some t0 =>
    if s.quiet r ∧ t0 + sec ≤ s.now then
      let mean := fun (x : Nat) =>
        let n := Tab.get 0 s.cur.offN x
        if n = 0 then 0 else nearest (Tab.get 0 s.cur.offSum x) (10 * n : Nat)
      let s1 := s.wr (AQ_CUR_OFS r) AQ_CUR_OFS_SHOFS (wrapInt (mean r) 16)
      let s1 := s1.wr (AQ_CUR_OFS r) AQ_CUR_OFS_PHOFS (wrapInt (mean (12 + r)) 16)
      let s1 := s1.raise srcAnalog EV_CUR_OFFSET [r]
      let now := s.now
      .next { s1 with cur := { s1.cur with
        offSum := Tab.set 0 (Tab.set 0 s1.cur.offSum r 0) (12 + r) 0, offN := Tab.set 0 (Tab.set 0 s1.cur.offN r 0) (12 + r) 0,
        offSince := Tab.set none s1.cur.offSince r (some now),
        offGen := Tab.set 0 s1.cur.offGen r (Tab.get 0 s1.cur.offGen r + 1) } }
    else .next s

/-! ## Current at an instant (R118) -/

/-- The current of a source at an instant, from its ring: none where the newest stamp is older, no valid entry lies
before or after, or the gap is too long (the flag tells a gap). -/
def State.currentOf (s : State) (x t period : Nat) : Option Int × Bool :=
  let es := (s.ringEntries x).filter (fun e => e.2.2 == 1)
  match es.reverse.find? (fun e => decide (e.1 ≤ t)), es.find? (fun e => decide (t < e.1)) with
  | some a, some b =>
    if 5 * period < 2 * (b.1 - a.1) then (none, true) else (some (interpolate a.1 a.2.1 b.1 b.2.1 t), false)
  | _, _ => (none, false)

/-- The sample period of a string's path, ns: the stream period of its sense node's latest record, or the decimator's. -/
def State.pathPeriod (s : State) (x : Nat) : Nat :=
  if x < 12 then Tab.get 0 s.cur.streamPer x
  else s.posr (s.slotHb (x - 12) (((List.range 4).find? (fun k => s.phActive (x - 12) k)).getD 0)) * 50

/-- ES obtains the current of string r at an instant in ns (R118). -/
def execCurrentAtInstant (s : State) (r : Fin 12) (instant t : Nat) : Host.Outcome State Fault Refusal :=
  let s := s.at t
  let x := s.selected r
  let res := s.currentOf x instant (s.pathPeriod x)
  let s := if res.2 then
      (s.hit AQ_CUR_EVT AQ_CUR_EVT_GAP AQ_CUR_CNT1 AQ_CUR_CNT1_GAPN).raise srcAnalog EV_CUR_GAP [x]
    else s
  .next (({ s with cur := { s.cur with answer := some (r.val, instant, res.1) } }).unknownSync r)

end Sys2Proof.Machine
end

