-- ==== Sys2Proof/Machine/Records.lean ====
section
/-!
DEFINITION. The responses that reach the link engines, the slot windows, and what the engines do at their own times:
markers, recalibration, enumeration, authentication, retries, breaks and two-ended rings (R46 to R51, R57 to R71, R80,
R89 to R97).
-/

namespace Sys2Proof.Machine

/-! ## READs and their slots (R57, R60) -/

/-- A READ sent by an engine: its slots open (R57, R73). -/
def State.sendRead (s : State) (k tag first last slot : Nat) (retry : Bool) : State :=
  let now := s.now
  (s.engSend k (bodyRead tag slot first last)).updEng k (fun e => { e with
    readOut := some { tag := tag, first := first, last := last, slot := slot, instant := now, retry := retry },
    slot := none, strAt := now })

/-- The delay that an engine's end holds for a position, 1.25 ns units (R49). -/
def State.delayOf (s : State) (k q : Nat) : Nat :=
  s.rd (AQ_NODE_DLY (eng0 (portOf k)) q) (if endOf k = 0 then AQ_NODE_DLY_D0 else AQ_NODE_DLY_D1)

/-- The instant at the balls at which a position's response is expected, ps (R57, R60). -/
def State.slotExpected (s : State) (k : Nat) (r : ReadOut) (q : Nat) : Nat :=
  r.instant + 2 * us + s.delayOf k q * 2500 + (q - r.first) * r.slot * 10000

/-- The distance between two instants. -/
def dist (a b : Nat) : Nat := if a ≤ b then b - a else a - b

/-- The positions of a READ. -/
def ReadOut.range (r : ReadOut) : List Nat := (List.range (r.last + 1 - r.first)).map (fun i => r.first + i)

/-- The slot's position: the one whose response is expected nearest to now. -/
def State.slotPos (s : State) (k : Nat) (r : ReadOut) : Nat :=
  r.range.foldl (fun b q => if dist (s.slotExpected k r q) s.now < dist (s.slotExpected k r b) s.now then q else b) r.first

/-- The conditions of R60 on length, address and instant. -/
def State.slotFits (s : State) (k : Nat) (r : ReadOut) (q : Nat) (body : List Nat) (len : Nat) : Bool :=
  body.length == len && frameAddr body == s.addrOf (portOf k) q && decide (dist (s.slotExpected k r q) s.now ≤ 500000)

/-- The record length of a node type (R40). -/
def recordLen (ty : Nat) : Nat := if ty = 1 then 67 else 96

/-- The target and the sense lines of a sweep tag as its engine holds it. -/
def Engine.sweepOf (e : Engine) (tag : Nat) : Option (Nat × Nat) :=
  if e.swTag = some tag then some (e.swTarget, e.swOwt)
  else if e.prevTag = some tag then some (e.prevTarget, e.prevOwt)
  else none

/-- The READ in progress of an engine changed. -/
def State.updRead (s : State) (k : Nat) (f : ReadOut → ReadOut) : State :=
  s.updEng k (fun e => { e with readOut := e.readOut.map f })

/-! ## Accepted records (R60, R88 to R90, R98 to R103, R109, R126) -/

/-- An accepted record's place in its sweep: the position holds a record of the tag and is neither missing nor stale; cell
values after an indeterminate open-wire test go on missing (R90, R102). -/
def State.recordHeld (s : State) (k p q tag : Nat) : State :=
  if tag = 0xFFFF then s
  else
    let target := match (s.eng k).sweepOf tag with
      | some x => x.1
      | none => s.ns
    let s := s.updPos p q (fun x => { x with gotTag := some tag })
    if (s.pos p q).indet then
      s.updPos p q (fun x => { x with missing := true, staleSince := some (x.staleSince.getD target) })
    else s.unstalePos p q

/-- The flags of an accepted record: LATE (R60). -/
def State.recordFlags (s : State) (k p q : Nat) (body : List Nat) : State :=
  if bit (beField body 5 2) 0 then (s.hitLate k).raise (engSrc k) EV_LINK_LATE [portPos p q] else s

/-- An accepted cell record (R60, R98 to R103, R126). -/
def State.cellRecord (s : State) (k p q : Nat) (body : List Nat) : State :=
  let tag := beField body 3 2
  let owt := match (s.eng k).sweepOf tag with
    | some x => x.2
    | none => 0
  let a := AQ_NODE_STAT (eng0 p) q
  let s := (s.wr a AQ_NODE_STAT_BALTMR (beField body 66 1)).wr a AQ_NODE_STAT_BALACT
    (b2n (decide (beField body 63 3 ≠ 0)))
  let s := s.signatureTest k p q body
  let s := s.groupEvents k p q
  let s := s.applyChecks k p q (s.cellChecks p q body)
  let s := if bit (beField body 5 2) 1 then s.owtDecide k p q body owt
    else s.updPos p q (fun x => { x with base := (List.range 18).map (crecCell body) })
  let e := s.cellEntry p q body
  let aux := (List.range 8).flatMap (fun a => bytesLE (beField body (43 + 2 * a) 2) 2)
  let s := s.updPos p q (fun x => { x with
    entry := e, aux4 := if bit (beField body 5 2) 2 then (aux :: x.aux4).take 4 else x.aux4 })
  s.recordHeld k p q tag

/-- The sense values of an accepted sweep record of a string sense node reach the trip block (R139, R143). -/
def State.senseIn (s : State) (p q : Nat) (body : List Nat) : State :=
  match s.nativeString p q with
  | some r => s.senseRecord r (sext (beField body 7 4) 32) (sext (beField body 11 4) 32) (sext (beField body 15 4) 32)
      (beField body 3 2 != 0xFFFF)
  | none => s

/-- The stored entry of an accepted sweep record of a sense node (R103). -/
def State.senseHeld (s : State) (k p q : Nat) (body : List Nat) : State :=
  let tag := beField body 3 2
  if tag = 0xFFFF then s
  else
    let e := s.senseEntry p q body
    (s.updPos p q (fun x => { x with entry := e })).recordHeld k p q tag

/-- An accepted string sense record (R60, R109, R126). -/
def State.stringRecord (s : State) (k p q : Nat) (body : List Nat) : State :=
  let closed := match s.nativeString p q with
    | some r => s.bothClosed r
    | none => false
  let s := s.applyChecks k p q (s.stringChecks p q body closed)
  let s := (s.senseHeld k p q body).streamIn p q body
  if beField body 3 2 = 0xFFFF then s else s.senseIn p q body

/-- An accepted bus sense record (R60, R109, R126, R521). -/
def State.busRecord (s : State) (k p q : Nat) (body : List Nat) : State :=
  let s := s.applyChecks k p q (s.busChecks p q body)
  let s := (s.senseHeld k p q body).streamIn p q body
  if beField body 3 2 = 0xFFFF ∨ p < 16 then s
  else { s with lnk := { s.lnk with busRec := Tab.set none s.lnk.busRec (p - 16) (some (sext (beField body 7 4) 32)) } }

/-- A copy of an accepted record sets out for SF (R360). -/
def State.copyToSf (s : State) (p q : Nat) (body : List Nat) : State :=
  { s with lnk := { s.lnk with sfCopies := s.lnk.sfCopies ++ [(p, q, body)] } }

/-- A response that failed a check (R60): the position counts as missing for the tag. -/
def State.badResponse (s : State) (k q : Nat) (crc : Bool) (tag : Nat) : State :=
  let p := portOf k
  let s := if tag = 0xFFFF then s else s.updPos p q (fun x => { x with missing := true })
  let s := s.updRead k (fun r => { r with seen := q :: r.seen })
  if crc then (s.hitSlot k).raise (engSrc k) EV_LINK_SLOT [portPos p q]
  else ((s.hitCrc k).raise (engSrc k) EV_LINK_CRC [portPos p q]).count (0x380 + k * 4 + 1) 1

/-- A record of a type reaches its engine: checked, and passed on when accepted (R60). A position that holds a record of
the sweep already sees a further one discarded. -/
def State.recordIn (s : State) (k : Nat) (body : List Nat) (crc viol : Bool)
    (take : State → Nat → Nat → Nat → List Nat → State) : State :=
  let s := s.engRx k body crc viol
  let p := portOf k
  match (s.eng k).readOut with
  | none =>
    if crc && !viol then (s.hitSlot k).raise (engSrc k) EV_LINK_SLOT [portPos p 0]
    else (s.hitCrc k).raise (engSrc k) EV_LINK_CRC [portPos p 0]
  | some r =>
    let q := s.slotPos k r
    if r.tag ≠ 0xFFFF ∧ (s.pos p q).gotTag = some r.tag then s
    else if ¬ crc ∨ viol then s.badResponse k q false r.tag
    else
      let ty := s.nodeType p q
      if frameType body = 0x7F + ty ∧ 1 ≤ ty ∧ s.slotFits k r q body (recordLen ty) ∧ beField body 3 2 = r.tag then
        let s := s.updRead k (fun r => { r with seen := q :: r.seen, got := q :: r.got })
        (take ((s.recordFlags k p q body)) k p q body).copyToSf p q body
      else s.badResponse k q true r.tag

/-- What an accepted record of each type does. A record is accepted only with its node's own type. -/
def State.anyRecord (s : State) (k p q : Nat) (body : List Nat) : State :=
  if frameType body = 0x80 then s.cellRecord k p q body
  else if frameType body = 0x81 then s.stringRecord k p q body
  else s.busRecord k p q body

/-- CREC: an engine receives a cell record (R60). -/
def execCrec (s : State) (k : Fin 20) (body : List Nat) (crc viol : Bool) (t : Nat) : Host.Outcome State Fault Refusal :=
  .next ((s.at t).recordIn k body crc viol State.anyRecord)

/-- SREC: an engine receives a string sense record (R60). -/
def execSrec (s : State) (k : Fin 20) (body : List Nat) (crc viol : Bool) (t : Nat) : Host.Outcome State Fault Refusal :=
  .next ((s.at t).recordIn k body crc viol State.anyRecord)

/-- BREC: an engine receives a bus sense record (R60). -/
def execBrec (s : State) (k : Fin 20) (body : List Nat) (crc viol : Bool) (t : Nat) : Host.Outcome State Fault Refusal :=
  .next ((s.at t).recordIn k body crc viol State.anyRecord)

/-! ## Other responses -/

/-- The next missing position after `q` in the last READ, lowest first. -/
def State.nextMissing (s : State) (k q : Nat) : Option Nat :=
  match (s.eng k).lastRead with
  | some r => r.range.find? (fun x => decide (q < x) && (s.pos (portOf k) x).missing)
  | none => none

/-- A PING of the break location goes out (R92). -/
def State.locatePing (s : State) (k q : Nat) : State :=
  let now := s.now
  (s.engSend k (bodyPing (s.addrOf (portOf k) q))).updEng k
    (fun e => { e with locate := some q, pingOut := some (q, now) })

/-- PONG: the round trip of the engine's own PING is measured (R49), or a pinged missing position is reached (R92). -/
def execPong (s : State) (k : Fin 20) (body : List Nat) (crc viol : Bool) (t : Nat) : Host.Outcome State Fault Refusal :=
  let s := (s.at t).engRx k body crc viol
  let p := portOf k
  match (s.eng k).pingOut with
  | none => .next s
  | some (q, _) =>
    if ¬ crc ∨ viol then .next ((s.hitCrc k).raise (engSrc k) EV_LINK_CRC [portPos p q])
    else if frameType body = 0x83 ∧ frameAddr body = s.addrOf p q then
      if (s.eng k).locate = some q then
        let s := s.updEng k (fun e => { e with pingOut := none, locate := none })
        match s.nextMissing k q with
        | some m => .next (s.locatePing k m)
        | none => .next s
      else .next (s.pong k)
    else .next s

/-- A position is kept with the serial and description of a good EACK; a serial that differs from the one held is a module
swap (R47, R71). -/
def State.eackKeep (s : State) (k q : Nat) (body : List Nat) : State :=
  let p := portOf k
  let e0 := eng0 p
  let old := s.heldSerial p q
  let ser := beField body 3 8
  let swapped := decide (old ≠ 0 ∧ old ≠ ser)
  let former := (List.range 18).findSome? (fun pp => (List.range 64).findSome? (fun i =>
    if (pp ≠ p ∨ i + 1 ≠ q) ∧ s.nodeSerial pp (i + 1) = ser then some (portPos pp (i + 1)) else none))
  let s := (s.setReg (AQ_NODE_SERLO e0 q) (BitVec.ofNat 32 ser)).setReg (AQ_NODE_SERHI e0 q)
    (BitVec.ofNat 32 (ser / 2 ^ 32))
  let a := AQ_NODE_STAT e0 q
  let s := ((s.wr a AQ_NODE_STAT_TYPE (beField body 11 1)).wr a AQ_NODE_STAT_CELLS (beField body 12 1)).wr a
    AQ_NODE_STAT_AUTH 0
  let s := (s.wr a AQ_NODE_STAT_SWAPPED (b2n swapped)).updPos p q (fun x => { x with
    auxN := beField body 13 1, hw := beField body 14 1, fw := beField body 15 2, oldSerial := old })
  let s := if swapped then
      (s.hitSwap k).raise (engSrc k) EV_LINK_SWAP
        [portPos p q, old % 2 ^ 32, old / 2 ^ 32, ser % 2 ^ 32, ser / 2 ^ 32, former.getD 0]
    else s
  s.lifeSerial p q

/-- EACK: the position is kept with its serial and the next one is tried, or the answer was bad and register 0x00 is read
first (R46, R47). -/
def execEack (s : State) (k : Fin 20) (body : List Nat) (crc viol : Bool) (t : Nat) : Host.Outcome State Fault Refusal :=
  let s := (s.at t).engRx k body crc viol
  let p := portOf k
  match (s.eng k).enumPos with
  | none => .next s
  | some q =>
    if ¬ crc ∨ viol then
      let now := s.now
      let s := (s.hitCrc k).raise (engSrc k) EV_LINK_CRC [portPos p q]
      .next ((s.engSend k (bodyRreg (s.addrOf p q) 0)).updEng k (fun e => { e with enumProbe := true, enumAt := now }))
    else if frameType body = 0x84 ∧ body.length = 17 ∧ frameAddr body = s.addrOf p q then
      let s := (s.eackKeep k q body).updEng k (fun e => { e with found := q, enumTry := 0 })
      if q < 64 then .next (s.sendEnum k (q + 1)) else .next (s.enumStop k 64)
    else .next s

/-- RREP: a position whose EACK was bad holds its address: it is reset and tried again (R47). -/
def execRrep (s : State) (k : Fin 20) (body : List Nat) (crc viol : Bool) (t : Nat) : Host.Outcome State Fault Refusal :=
  let s := (s.at t).engRx k body crc viol
  let p := portOf k
  match (s.eng k).enumPos with
  | none => .next s
  | some q =>
    if (s.eng k).enumProbe ∧ crc ∧ ¬ viol ∧ frameType body = 0x86 ∧ frameAddr body = s.addrOf p q then
      .next ((s.engSend k (bodyReset (s.addrOf p q))).enumRetry k q)
    else .next s

/-- ARSP: the crypto engine checks the response of the position being authenticated (R68, R69). -/
def execArsp (s : State) (k : Fin 20) (body : List Nat) (crc viol : Bool) (t : Nat) : Host.Outcome State Fault Refusal :=
  let s := (s.at t).engRx k body crc viol
  let p := portOf k
  let q := (s.eng k).authPos
  if q = 0 ∨ ¬ (s.pos p q).collecting then .next s
  else if ¬ crc ∨ viol then .next (((s.hitCrc k).raise (engSrc k) EV_LINK_CRC [portPos p q]).authFail k q)
  else if frameType body = 0x85 ∧ frameAddr body = s.addrOf p q then
    .next (if s.authCheck p q (beField body 3 8) then s.authPass k q else s.authFail k q)
  else .next s

/-- A NAK in a READ slot that meets R60's conditions on CRC, address and instant. -/
def State.nakInSlot (s : State) (k q : Nat) (body : List Nat) (tag : Nat) : State :=
  let p := portOf k
  let s := if tag = 0xFFFF then s else s.updPos p q (fun x => { x with missing := true })
  ((s.updRead k (fun r => { r with seen := q :: r.seen })).hitNak k).raise (engSrc k) EV_LINK_NAK
    [portPos p q, beField body 4 1]

/-- A NAK that answers the collecting AUTH: reason 0x07 once makes the engine collect again, else the try failed (R69). -/
def State.nakAuth (s : State) (k q reason : Nat) : State :=
  let p := portOf k
  let now := s.now
  if reason = 7 ∧ (s.pos p q).busy = 0 then
    s.updPos p q (fun x => { x with busy := 1, collecting := false, authAt := now })
  else s.authFail k q

/-- NAK (R60, R69): in a slot the position counts as missing; elsewhere it answers the engine's own command. -/
def execNak (s : State) (k : Fin 20) (body : List Nat) (crc viol : Bool) (t : Nat) : Host.Outcome State Fault Refusal :=
  let s := (s.at t).engRx k body crc viol
  let p := portOf k
  match (s.eng k).readOut with
  | some r =>
    let q := s.slotPos k r
    if r.tag ≠ 0xFFFF ∧ (s.pos p q).gotTag = some r.tag then .next s
    else if ¬ crc ∨ viol then .next (s.badResponse k q false r.tag)
    else if s.slotFits k r q body 5 then .next (s.nakInSlot k q body r.tag)
    else .next (s.badResponse k q true r.tag)
  | none =>
    let q := (s.eng k).authPos
    if ¬ crc ∨ viol then .next ((s.hitCrc k).raise (engSrc k) EV_LINK_CRC [portPos p q])
    else
      let s := (s.hitNak k).raise (engSrc k) EV_LINK_NAK
        [portPos p ((s.posOfAddr p (frameAddr body)).getD 0), beField body 4 1]
      if 0 < q ∧ (s.pos p q).collecting ∧ beField body 3 1 = 0x19 ∧ frameAddr body = s.addrOf p q then
        .next (s.nakAuth k q (beField body 4 1))
      else .next s

/-! ## Slot windows, retries, breaks (R60, R89, R90, R92, R95, R96) -/

/-- The positions that a READ expects: all of them, or the sense nodes in a stream-only READ (R60). -/
def State.expected (s : State) (k : Nat) (r : ReadOut) : List Nat :=
  r.range.filter (fun q => if r.tag = 0xFFFF then decide (2 ≤ s.nodeType (portOf k) q) else true)

/-- Positions of a port that have no valid record of a tag become stale at its target (R90). -/
def State.staleFrom (s : State) (p : Nat) (qs : List Nat) (tag target : Nat) : State :=
  (qs.filter (fun q => decide (1 ≤ q ∧ q ≤ s.portNodes p) && decide ((s.pos p q).gotTag ≠ some tag))).foldl
    (fun s q => s.updPos p q (fun x => { x with staleSince := some (x.staleSince.getD target) })) s

/-- End 1 has read the positions missing from end 0: with a position of its own beyond every position of end 0 the port
becomes two-ended (R96). -/
def State.twoEnded (s : State) (k : Nat) (r : ReadOut) : State :=
  let p := portOf k
  let n := s.portNodes p
  let from0 := (List.range n).filter (fun i => (s.pos p (i + 1)).gotTag = some r.tag && !r.got.contains (i + 1))
  let a := from0.foldl (fun m i => Nat.max m (i + 1)) 0
  let b := r.got.foldl (fun m q => Nat.min m q) 65
  let s := s.updEng k (fun e => { e with suspect := false })
  if r.got = [] ∨ b ≤ a then s
  else
    let s := (s.updEng k (fun e => { e with twoEnd := some (a, b) })).updEng (k - 1) (fun e =>
      { e with twoEnd := some (a, b) })
    let s := (s.wr (AQ_PORT_STAT k) AQ_PORT_STAT_STATE 6).wr (AQ_PORT_STAT (k - 1)) AQ_PORT_STAT_STATE 6
    s.raise (engSrc k) EV_SWP_RING_TWOEND [portPos p 0, a, b]

/-- SLOT_WINDOW_CLOSE: positions without a response are missing (R60, R90); on a ring, end 1 suspects a break (R95), or
its own READ decides two-ended operation (R96). -/
def execSlotWindowClose (s : State) (k : Fin 20) (t : Nat) : Host.Outcome State Fault Refusal :=
  let s := s.at t
  let p := portOf k
  match (s.eng k).readOut with
  | none => .next s
  | some r =>
    let lost := (s.expected k r).filter (fun q =>
      !r.seen.contains q && !(r.tag != 0xFFFF && (s.pos p q).gotTag == some r.tag))
    let s := lost.foldl (fun s q => s.missing k q r.tag) s
    let s := s.updEng k (fun e => { e with readOut := none, lastRead := some r })
    if r.tag = 0xFFFF then .next s
    else
      let target := match (s.eng k).sweepOf r.tag with
        | some x => x.1
        | none => s.ns
      let s := s.staleFrom p r.range r.tag target
      let gaps := r.range.any (fun q => (s.pos p q).gotTag != some r.tag)
      if k.val < 16 then .next s
      else if endOf k = 0 then
        if gaps ∧ s.rdB (AQ_PORT_CTL (k + 1)) AQ_PORT_CTL_EN ∧ (s.eng k).twoEnd = none then
          .next (s.updEng (k + 1) (fun e => { e with suspect := true }))
        else .next s
      else if (s.eng k).suspect then .next (s.twoEnded k r)
      else .next s

/-- RETRY_READ: one READ of the same tag over the lowest to the highest missing position (R89); on a ring whose end 1
suspects a break, end 1 reads them (R96). -/
def execRetryRead (s : State) (k : Fin 20) (t : Nat) : Host.Outcome State Fault Refusal :=
  let s := s.at t
  let p := portOf k
  let src := if endOf k = 1 ∧ (s.eng k).suspect then s.eng (eng0 p) else s.eng k
  match src.lastRead, (s.eng k).readOut with
  | some r, none =>
    let miss := r.range.filter (fun q => (s.pos p q).gotTag != some r.tag)
    if r.tag = 0xFFFF ∨ miss = [] ∨ (r.retry ∧ endOf k = 0) then .next s
    else
      let lo := miss.foldl Nat.min 64
      let hi := miss.foldl Nat.max 0
      .next (s.sendRead k r.tag lo hi r.slot true)
  | _, _ => .next s

/-- A break is located between `m − 1` and `m` (R92). -/
def State.breakAt (s : State) (k m : Nat) : State :=
  let p := portOf k
  let a := AQ_PORT_BRK (eng0 p)
  let s := (s.wr a AQ_PORT_BRK_BRKVALID 1).wr a AQ_PORT_BRK_BRKPOS (m - 1)
  (s.updEng k (fun e => { e with locate := none, pingOut := none })).raise (engSrc k) EV_SWP_CHAIN_BREAK [portPos p (m - 1)]

/-- CHAIN_BREAK_LOCATE: the lowest missing position is pinged; a PING without a PONG for 100 µs locates the break (R92).
A ring with both ends at work goes by R95 and R96 instead. -/
def execChainBreakLocate (s : State) (k : Fin 20) (t : Nat) : Host.Outcome State Fault Refusal :=
  let s := s.at t
  let e := s.eng k
  if 16 ≤ k.val ∧ (endOf k = 1 ∨ s.rdB (AQ_PORT_CTL (k + 1)) AQ_PORT_CTL_EN) then .next s
  else
    match e.locate, e.pingOut with
    | some m, some (_, t0) => if t0 + 100 * us ≤ s.now then .next (s.breakAt k m) else .next s
    | _, _ =>
      match s.nextMissing k 0, e.readOut with
      | some m, none => if s.rdB (AQ_PORT_BRK (eng0 (portOf k))) AQ_PORT_BRK_BRKVALID then .next s
          else .next (s.locatePing k m)
      | _, _ => .next s

/-- t_stale, ps (R90). -/
def State.tStale (s : State) : Nat := Nat.min (s.rd AQ_SWP_CTL AQ_SWP_CTL_STALEN * s.sweepPeriod) (100 * ms)

/-- NODE_STALE_TIMEOUT: a stale age beyond t_stale raises source 11 and EV_SWP_STALE once (R90). -/
def execNodeStaleTimeout (s : State) (p : Fin 18) (i : Fin 64) (t : Nat) : Host.Outcome State Fault Refusal :=
  let s := s.at t
  let q := i.val + 1
  match (s.pos p q).staleSince with
  | none => .next s
  | some t0 =>
    if t0 * 1000 + s.tStale < s.now ∧ q ≤ s.portNodes p ∧ s.portEn p ∧ ¬ (s.pos p q).staleActed then
      let s := (s.updPos p q (fun x => { x with staleActed := true })).raise (engSrc (eng0 p)) EV_SWP_STALE [portPos p q]
      .next (s.nodeSource 11 p q 89 true)
    else .next s

/-! ## Markers, recalibration, enumeration (R46 to R51, R67) -/

/-- Whether an engine sends its port's commands: end 0, and end 1 of a two-ended ring (R28, R96). -/
def State.commands (s : State) (k : Nat) : Bool :=
  s.portEn (portOf k) && (endOf k == 0 || (s.eng k).twoEnd.isSome)

/-- TIME_MARKER: once per TMKPER, between frames and outside slot windows (R48). -/
def execTimeMarker (s : State) (k : Fin 20) (t : Nat) : Host.Outcome State Fault Refusal :=
  let s := s.at t
  let e := s.eng k
  let due : Bool := e.timeAt == 0 || decide (e.timeAt + s.rd (AQ_PORT_CTL k) AQ_PORT_CTL_TMKPER * 100 * us ≤ s.now)
  if s.commands k ∧ s.rdB (AQ_PORT_CTL k) AQ_PORT_CTL_MKEN ∧ due ∧ e.readOut = none then
    let now := s.now
    .next ((s.engSend k (bodyTime s.ns)).updEng k (fun e => { e with timeAt := now }))
  else .next s

/-- RECALIBRATION: every node of a running port is measured anew; end 1 also measures T_ring, `ring` ps (R51, R95). -/
def execRecalibration (s : State) (k : Fin 20) (ring t : Nat) : Host.Outcome State Fault Refusal :=
  let s := s.at t
  let e := s.eng k
  if 5 ≤ s.portState (eng0 (portOf k)) ∧ s.portEn (portOf k) ∧ s.rdB (AQ_PORT_CTL k) AQ_PORT_CTL_EN ∧
      e.readOut = none ∧ e.pingOut = none then
    .next ((if endOf k = 1 then s.updEng k (fun e => { e with tRing := ring }) else s).calStart k 1)
  else .next s

/-- PORT_ENUMERATION: from position 1, or from beyond a break, no earlier than 15 ms after the start of a wake tone (R46,
R67, R94). -/
def execPortEnumeration (s : State) (k : Fin 20) (first : Fin 65) (t : Nat) : Host.Outcome State Fault Refusal :=
  let s := s.at t
  let waking : Bool := match (s.eng k).wake with
    | some (t0, _) => decide (s.now < t0 + 15 * ms)
    | none => false
  let brk := AQ_PORT_BRK (eng0 (portOf k))
  let ok : Bool := first.val == 1 || (s.rdB brk AQ_PORT_BRK_BRKVALID &&
    (first.val == s.rd brk AQ_PORT_BRK_BRKPOS + 1 || (endOf k == 1 && first.val != 0)))
  if ¬ s.rdB (AQ_PORT_CTL k) AQ_PORT_CTL_EN ∨ waking ∨ ¬ ok then .next s
  else .next (s.enumBegin k first)

/-- ENUM_EACK_TIMEOUT: no EACK, or no RREP, within 50 µs: the position's try is spent (R46, R47). -/
def execEnumEackTimeout (s : State) (k : Fin 20) (t : Nat) : Host.Outcome State Fault Refusal :=
  let s := s.at t
  match (s.eng k).enumPos with
  | none => .next s
  | some q => if (s.eng k).enumAt + 50 * us ≤ s.now then .next (s.enumRetry k q) else .next s

/-! ## Authentication (R69) -/

/-- AUTH_PERIOD: every AUTHPER minutes every node is authenticated again; without a gap on the line the engine waits and
records it once per AUTHPER (R69). -/
def execAuthPeriod (s : State) (k : Fin 20) (gap : Bool) (t : Nat) : Host.Outcome State Fault Refusal :=
  let s := s.at t
  let e := s.eng k
  let per := s.rd (AQ_PORT_CTL k) AQ_PORT_CTL_AUTHPER * 60 * sec
  if per = 0 ∨ ¬ s.rdB (AQ_PORT_CTL k) AQ_PORT_CTL_AUTHREQ ∨ s.portState k < 5 ∨ s.now < e.authAt + per ∨ 0 < e.authPos then
    .next s
  else if gap then
    if 0 < s.portNodes (portOf k) then .next ((s.updEng k (fun e => { e with authBlocked := false })).sendAuth k 1)
    else .next s
  else if e.authBlocked then .next s
  else .next ((s.updEng k (fun e => { e with authBlocked := true })).raise (engSrc k) EV_LINK_REFUSED [portPos (portOf k) 0])

/-- AUTH_COLLECT: at least 1 ms after the first AUTH the engine sends it again to collect the response; a collection that
stays unanswered for 100 µs is a missing response (R69). -/
def execAuthCollect (s : State) (k : Fin 20) (t : Nat) : Host.Outcome State Fault Refusal :=
  let s := s.at t
  let p := portOf k
  let q := (s.eng k).authPos
  let x := s.pos p q
  match x.nonce with
  | none => .next s
  | some nonce =>
    if q = 0 then .next s
    else if x.collecting then
      if x.authAt + 100 * us ≤ s.now then .next (s.authFail k q) else .next s
    else if x.authAt + ms ≤ s.now then
      let now := s.now
      .next ((s.engSend k (bodyAuth (s.addrOf p q) nonce)).updPos p q (fun x => { x with collecting := true, authAt := now }))
    else .next s

/-! ## Rings (R28, R95, R97) -/

/-- `ENDSEEN` in both end engines (R28). -/
def State.endSeen (s : State) (p : Nat) (v : Bool) : State :=
  (s.wr (AQ_PORT_STAT (eng0 p)) AQ_PORT_STAT_ENDSEEN (b2n v)).wr (AQ_PORT_STAT (eng0 p + 1)) AQ_PORT_STAT_ENDSEEN (b2n v)

/-- End 1 suspects a break; a missing SAMPLE is sent again from end 1 when it reaches every position at least 14 µs before
its target (R95). -/
def State.suspectBreak (s : State) (p : Nat) : State :=
  let k0 := eng0 p
  let k1 := k0 + 1
  let s := (s.endSeen p false).updEng k1 (fun e => { e with suspect := true })
  match (s.eng k0).sent with
  | some (body, _) =>
    let far := (List.range (s.portNodes p)).foldl (fun m i => Nat.max m (s.rd (AQ_NODE_DLY k0 (i + 1)) AQ_NODE_DLY_D1)) 0
    let target := (s.eng k0).swTarget * 1000
    if frameType body = 0x10 ∧ s.now + far * 1250 + 14 * us ≤ target then s.engSend k1 body else s
  | none => s

/-- RING_END0_FRAME_TIMEOUT: an end-0 frame does not reach end 1 within T_ring + 1 µs (R28, R95). `p` is ring A or B. -/
def execRingEnd0FrameTimeout (s : State) (ring : Fin 2) (t : Nat) : Host.Outcome State Fault Refusal :=
  let s := s.at t
  let p := 16 + ring.val
  let k0 := eng0 p
  if ¬ s.portEn p ∨ ¬ s.rdB (AQ_PORT_CTL (k0 + 1)) AQ_PORT_CTL_EN ∨ (s.eng k0).twoEnd.isSome then .next s
  else
    match (s.eng k0).sent with
    | some (_, t0) => if t0 + (s.eng (k0 + 1)).tRing + us ≤ s.now then .next (s.suspectBreak p) else .next s
    | none => .next s

/-- RING_END0_FRAME_AT_END1: an end-0 frame reaches end 1 (R28): with a good CRC, ENDSEEN is 1, an ENUM ends the
enumeration (R46), and a two-ended port returns to one-ended operation at the next grid point (R97); with a bad one end 1
suspects a break. -/
def execRingEnd0FrameAtEnd1 (s : State) (ring : Fin 2) (body : List Nat) (crc : Bool) (t : Nat) :
    Host.Outcome State Fault Refusal :=
  let s := s.at t
  let p := 16 + ring.val
  let k0 := eng0 p
  if ¬ s.portEn p ∨ ¬ s.rdB (AQ_PORT_CTL (k0 + 1)) AQ_PORT_CTL_EN then .next s
  else if crc then
    let s := (s.engRx (k0 + 1) body crc false).endSeen p true
    if (s.eng k0).twoEnd.isSome then
      .next ((s.updEng k0 (fun e => { e with rejoin := true })).updEng (k0 + 1) (fun e => { e with rejoin := true }))
    else if frameType body = 0x14 then
      match (s.eng k0).enumPos with
      | some q => .next (s.enumStop k0 (q - 1))
      | none => .next s
    else .next s
  else if (s.eng k0).twoEnd.isSome then .next (s.endSeen p false)
  else .next (s.suspectBreak p)

end Sys2Proof.Machine
end

