-- ==== Sys2Proof/Machine/Sweep.lean ====
section
/-!
DEFINITION. The sweep sequencer: grid, adaptive period, targets, blackout masks, descriptors, the open-wire test, the
fault window (R76 to R88, R91, R97, R99, R103, R104, R517, R518).
-/

namespace Sys2Proof.Machine

/-! ## Blackout windows (R81 to R84) -/

/-- The configured blackout windows: offset and width, ps. -/
def State.blackouts (s : State) : List (Nat × Nat) :=
  ((List.range 4).map (fun n => (s.rd (AQ_SWP_BLK n) AQ_SWP_BLK_OFFSET * 100000, s.rd (AQ_SWP_BLK n) AQ_SWP_BLK_WIDTH * 100000))).filter
    (fun w => decide (w.2 ≠ 0))

/-- The edge and carrier period that the windows are predicted from, ps; none while PSYNC_IN is lost (R84). -/
def State.predictor (s : State) : Option (Nat × Nat) :=
  match s.regu.psyncAt with
  | some e => if s.psyncLost ∨ s.carrierPer = 0 then none else some (e, s.carrierPer)
  | none => none

/-- Where [a, a + 4 µs) overlaps a predicted window: the end of that window, ps. -/
def overlapEnd (ws : List (Nat × Nat)) (pr : Option (Nat × Nat)) (a : Nat) : Option Nat :=
  match pr with
  | none => none
  | some (e, per) => ws.findSome? (fun w =>
      let d := (((a : Int) - e - w.1) % (per : Int)).toNat
      if d < w.2 then some (a + (w.2 - d)) else if per - d < 4 * us then some (a + (per - d) + w.2) else none)

/-- An instant rounded up to the 2.5 ns grid. -/
def upToTick (a : Nat) : Nat := (a + 2499) / 2500 * 2500

/-- The first instant from `a` whose first step overlaps no window, within `lim` (R82). -/
def snapFrom (ws : List (Nat × Nat)) (pr : Option (Nat × Nat)) (lim : Nat) : Nat → Nat → Option Nat
  | 0, _ => none
  | fuel + 1, a =>
    if lim < a then none
    else match overlapEnd ws pr a with
      | none => some a
      | some b => snapFrom ws pr lim fuel (Nat.max (a + 2500) (upToTick b))

/-- The target of the sweep at grid point `g`, ps (R82). -/
def State.snapTarget (s : State) (g : Nat) : Nat :=
  if s.rdB AQ_SWP_CTL AQ_SWP_CTL_SNAP then (snapFrom s.blackouts s.predictor (g + 100 * us) 400 (upToTick g)).getD g else g

/-- The blackout mask of a target, ps (R83). -/
def State.blackMask (s : State) (target : Nat) : Nat :=
  let ws := s.blackouts
  let pr := s.predictor
  (List.range 64).foldl (fun m i => if (overlapEnd ws pr (target + 4 * us * i)).isSome then m + 2 ^ i else m) 0

/-! ## The period (R87, R88, R518) -/

/-- Whether the third item of R88 holds: a node of an enabled port missing or stale, a suspicion open, an open-wire test
running. -/
def State.sweepUrgent (s : State) : Bool :=
  decide (s.swp.owt ≠ 0) || (List.range 18).any (fun p => s.portEn p &&
    (decide ((s.eng (eng0 p)).owt ≠ 0) || (List.range (s.portNodes p)).any (fun i =>
      let x := s.pos p (i + 1)
      x.missing || x.staleSince.isSome || decide (x.suspect ≠ 0))))

/-- The period of R87, load periods. -/
def State.adaptPeriod (s : State) : Nat :=
  let near := s.rd AQ_SWP_PER AQ_SWP_PER_NNEAR
  if s.rd AQ_SWP_ADAPT AQ_SWP_ADAPT_ILOAD = 0 ∨ s.swp.mode = 0 then 1
  else if s.swp.mode = 1 then near
  else near * s.rd AQ_SWP_PER AQ_SWP_PER_NREST

/-- A requested period held against the present choice: the shorter one (R88). -/
def minReq (p req : Nat) : Nat := if req = 0 then p else Nat.min p req

/-- The period called for and its PMODE (R88, R518). -/
def State.periodWanted (s : State) : Nat × Nat :=
  let a := s.adaptPeriod
  let r := minReq (minReq a (s.rd AQ_SWP_REQ AQ_SWP_REQ_ESREQ)) (s.rd AQ_SWP_REQ AQ_SWP_REQ_PGMREQ)
  if s.sweepUrgent then (1, 0)
  else if r < a then (r, 3)
  else if s.rd AQ_SWP_ADAPT AQ_SWP_ADAPT_ILOAD = 0 then (a, 0) else (a, s.swp.mode)

/-- PLOAD, ns. -/
def State.pload (s : State) : Nat := s.rd AQ_SWP_PER AQ_SWP_PER_PLOAD * 10000

/-- The grid origin, ns. -/
def State.epoch (s : State) : Nat := (s.reg AQ_SWP_EPOCHLO).toNat + (s.reg AQ_SWP_EPOCHHI).toNat * 2 ^ 32

/-- The first point from `t` of the grid of a period, ns (R76). -/
def gridFrom (epoch per t : Nat) : Nat :=
  let d := ((epoch : Int) - t) % (per : Int)
  t + d.toNat

/-- The grid point of the next sweep and its period: a shorter period starts at its first point far enough ahead, a longer
one only where its own grid meets the present one (R517). -/
def State.nextGrid (s : State) (wanted : Nat) : Nat × Nat :=
  let thr := s.ns + s.rd AQ_SWP_CTL AQ_SWP_CTL_LEAD * 1000 + 20000
  let thr := match s.swp.last with
    | some g => Nat.max thr (g + 1)
    | none => thr
  if wanted ≤ s.swp.period then (gridFrom s.epoch (wanted * s.pload) thr, wanted)
  else
    let g := gridFrom s.epoch (s.swp.period * s.pload) thr
    if gridFrom s.epoch (wanted * s.pload) g = g then (g, wanted) else (g, s.swp.period)

/-! ## The fault window (R103) -/

/-- Positions of a port without a record of the sweep. -/
def State.missingCount (s : State) (p tag : Nat) : Nat :=
  ((List.range (s.portNodes p)).filter (fun i => (s.pos p (i + 1)).missing || (s.pos p (i + 1)).gotTag != some tag)).length

/-- The sweep header (R103). -/
def State.winHeader (s : State) (d : SweepDesc) : List Nat :=
  bytesLE d.tag 2 ++ bytesLE d.flags 2 ++ bytesLE d.target 8 ++ bytesLE d.mask 8 ++ bytesLE d.period 4 ++ bytesLE d.seq 4 ++
    (List.range 18).flatMap (fun p => [s.rd (AQ_PORT_BRK (eng0 p)) AQ_PORT_BRK_BRKPOS, s.missingCount p d.tag])

/-- The node entry of a position without a record of the sweep (R103): missing, or stale since an earlier sweep. -/
def State.missingEntry (s : State) (p q : Nat) (d : SweepDesc) : List Nat :=
  let x := s.pos p q
  let old := match x.staleSince with
    | some t => decide (t < d.target)
    | none => false
  let fl := 256 * (if old then 2 else 1) + 1024 * b2n (!s.nodeAuth p q) + 2048 * b2n (decide (x.suspect ≠ 0)) +
    4096 * b2n (decide (s.rd (AQ_NODE_LIM (eng0 p) q) AQ_NODE_LIM_BRKL ≠ 0))
  List.replicate 36 (if s.nodeType p q = 1 then 0xFF else 0) ++ bytesLE fl 2 ++ [0, 0]

/-- The node entry of a position (R103). -/
def State.winEntry (s : State) (p q : Nat) (d : SweepDesc) : List Nat :=
  let x := s.pos p q
  if x.gotTag = some d.tag ∧ ¬ x.missing then x.entry else s.missingEntry p q d

/-- Every byte of a sweep in the window. -/
def State.winBytes (s : State) (d : SweepDesc) : List Nat :=
  s.winHeader d ++ (List.range 18).flatMap (fun p =>
    (List.range (s.portNodes p)).flatMap (fun i => s.winEntry p (i + 1) d))

/-- Enumerated nodes. -/
def State.nodeCount (s : State) : Nat := sumN ((List.range 18).map s.portNodes)

/-- The size of a sweep in the window, and how many fit (R103). -/
def State.sweepSize (s : State) : Nat := (64 + 40 * s.nodeCount + 63) / 64 * 64
def State.winFits (s : State) : Nat := 0x400000 / s.sweepSize

/-- A sweep is written over the oldest one, unless the window is frozen or about to freeze; the sweeps after a trigger are
counted down (R103, R104). -/
def State.winWrite (s : State) (d : SweepDesc) : State :=
  let left : Bool := match s.swp.trig with
    | some (0, _) => false
    | _ => true
  if s.rdB AQ_WIN_STAT AQ_WIN_STAT_FROZEN ∨ ¬ left then s
  else
    let size := s.sweepSize
    let fresh := decide (s.swp.size ≠ size)
    let at_ := if fresh ∨ s.winFits ≤ s.swp.wrAt then 0 else s.swp.wrAt
    let held := if fresh then 0 else s.swp.held
    let s1 := s.storeBytes (0x10000000 + at_ * size) (s.winBytes d)
    let s1 := s1.wr AQ_WIN_STAT AQ_WIN_STAT_NSWEEP s.winFits
    { s1 with swp := { s1.swp with
      size := size, wrAt := (at_ + 1) % s.winFits, held := Nat.min (held + 1) s.winFits,
      trig := s1.swp.trig.map (fun x => (x.1 - 1, x.2)) } }

/-- Cells of a node that stand clear of suspected and broken lines: a line lies between cells k - 1 and k (R433). -/
def State.clearCells (s : State) (p q : Nat) : List Nat :=
  let lines := Nat.lor (s.pos p q).suspect (s.rd (AQ_NODE_LIM (eng0 p) q) AQ_NODE_LIM_BRKL)
  (List.range (s.nodeCells p q)).filter (fun c => !bit lines c && !bit lines (c + 1))

/-- The voltages of a sweep's valid entries reach the lifetime store (R433). -/
def State.sweepExtremes (s : State) (d : SweepDesc) : State :=
  if ¬ s.lifeOn then s
  else (List.range 18).foldl (fun s p => (List.range (s.portNodes p)).foldl (fun s i =>
    let x := s.pos p (i + 1)
    if x.gotTag = some d.tag ∧ ¬ x.missing ∧ ¬ x.indet ∧ s.nodeType p (i + 1) = 1 then
      (s.clearCells p (i + 1)).foldl (fun s c =>
        s.lifeVolt (p * 1152 + i * 18 + c) (ofBytesLE ((x.entry.drop (2 * c)).take 2))) s
    else s) s) s

/-- The sweeps whose records are complete are written: all posted ones in direct mode, all but the latest in pipelined
mode, whose records follow the next SAMPLE (R78, R103). -/
def State.winFlush (s : State) : State :=
  let keep := if s.rdB AQ_SWP_CTL AQ_SWP_CTL_PIPE then 1 else 0
  let n := s.swp.toWrite.length - keep
  let s := (s.swp.toWrite.take n).foldl (fun s d => (s.winWrite d).sweepExtremes d) s
  { s with swp := { s.swp with toWrite := s.swp.toWrite.drop n } }

/-! ## The descriptor (R77) -/

/-- Sense lines of an open-wire sweep: 1 sweep A, the odd lines; 2 sweep B, line 0 and the even lines (R99). -/
def owtLines (step : Nat) : Nat := if step = 1 then 0x2AAAA else if step = 2 then 0x55555 else 0
/-- The step after an open-wire sweep. -/
def owtAfter (step : Nat) : Nat := if step = 1 then 2 else 0

/-- The bytes of a sweep descriptor (R77). -/
def SweepDesc.bytes (d : SweepDesc) : List Nat :=
  bytesLE d.tag 2 ++ bytesLE d.flags 2 ++ bytesLE d.target 8 ++ bytesLE d.mask 8 ++ bytesLE d.period 4 ++
    bytesLE d.owtMask 3 ++ List.replicate 5 0

/-- The descriptor reaches an engine: in its frame buffer and its inbox (R77); a two-ended ring that heard its other end
returns to one end first (R97). -/
def State.postSweep (s : State) (k : Nat) (d : SweepDesc) : State :=
  let p := portOf k
  let step := if s.swp.owt ≠ 0 then s.swp.owt else (s.eng (eng0 p)).owt
  let d := { d with owtMask := owtLines step, flags := d.flags + 2 * b2n (decide (step ≠ 0)) }
  let s := s.storeBytes (aliasBase (engSrc k) + 0x4000 + 0x7FE0) d.bytes
  let s := s.post 6 srcWindow 0 (engSrc k) d.tag 0x7FE0
  s.updEng k (fun e => { e with prevTag := e.swTag, prevTarget := e.swTarget, prevOwt := e.swOwt,
                                swTag := some d.tag, swTarget := d.target, swOwt := d.owtMask })

/-- A port's own open-wire test moves on with its sweep (R98, R99). -/
def State.portOwtNext (s : State) (p : Nat) : State :=
  if s.swp.owt ≠ 0 ∨ ¬ s.portEn p then s
  else s.updEng (eng0 p) (fun e => { e with owt := owtAfter e.owt })

/-- A ring returns to one-ended operation: recalibrated, EV_SWP_RESTORE (R97). -/
def State.ringRejoin (s : State) (p : Nat) : State :=
  let k0 := eng0 p
  if (s.eng k0).rejoin then
    let s := (s.updEng k0 (fun e => { e with rejoin := false, twoEnd := none })).updEng (k0 + 1) (fun e =>
      { e with rejoin := false, twoEnd := none })
    let s := (s.wr (AQ_PORT_STAT k0) AQ_PORT_STAT_STATE 5).wr (AQ_PORT_STAT (k0 + 1)) AQ_PORT_STAT_STATE 5
    ((s.raise (engSrc k0) EV_SWP_RESTORE [portPos p 0]).calStart k0 1).calStart (k0 + 1) 1
  else s

/-- The profiles and the map are applied as one set with the sweep (R124). -/
def State.takeProfiles (s : State) : State :=
  { s with swp := { s.swp with profs := s.regs.filter (fun r => decide (AQ_LIM_PROF 0 0 ≤ r.1 ∧ r.1 < AQ_LIM_PROF 32 0)) } }

/-- Loss and return of PSYNC_IN at a sweep (R84). -/
def State.syncNote (s : State) : State :=
  let lost := s.psyncLost
  let s := s.wr AQ_SWP_STAT AQ_SWP_STAT_NOSYNC (b2n lost)
  let was := s.swp.nosync
  let s := { s with swp := { s.swp with nosync := lost } }
  if lost ∧ ¬ was then
    (s.hit AQ_SWP_EVT AQ_SWP_EVT_NOSYNC AQ_SWP_CNT AQ_SWP_CNT_NOSYNCN).raise srcWindow EV_SWP_NOSYNC [s.swp.tag]
  else s

/-- The period in force changes: EV_SWP_PERIOD; a shorter one restarts both dwells (R517). -/
def State.setPeriod (s : State) (per pmode : Nat) : State :=
  let old := s.swp.period
  let s := s.wr AQ_SWP_STAT AQ_SWP_STAT_PMODE pmode
  if per = old then s
  else
    let s := { s with swp := { s.swp with
      period := per, dwellNear := if per < old then 0 else s.swp.dwellNear,
      dwellRest := if per < old then 0 else s.swp.dwellRest } }
    s.raise srcWindow EV_SWP_PERIOD [s.swp.tag, per]

/-- SWEEP_GRID_POINT: the sweep of the next grid point is placed and posted (R76, R77, R82 to R84, R87, R88). -/
def execSweepGridPoint (s : State) (t : Nat) : Host.Outcome State Fault Refusal :=
  let s := s.at t
  let want := s.periodWanted
  let g := s.nextGrid want.1
  let thr := s.ns + s.rd AQ_SWP_CTL AQ_SWP_CTL_LEAD * 1000 + 20000
  if ¬ s.rdB AQ_SWP_CTL AQ_SWP_CTL_EN ∨ s.pload = 0 ∨ thr + s.pload ≤ g.1 then .next s
  else
    let s := s.winFlush
    let s := (s.syncNote).setPeriod g.2 (if g.2 = want.1 then want.2 else s.rd AQ_SWP_STAT AQ_SWP_STAT_PMODE)
    let s := (s.takeProfiles).ringRejoin 16
    let s := s.ringRejoin 17
    let target := s.snapTarget (g.1 * 1000)
    let div := s.rd AQ_SWP_CTL AQ_SWP_CTL_AUXDIV
    let aux := div != 0 && s.swp.count % Nat.max 1 div == 0
    let tag := s.swp.tag
    let d : SweepDesc := {
      tag := tag
      flags := b2n aux + 4 * b2n (s.rdB AQ_SWP_CTL AQ_SWP_CTL_PIPE) + 8 * b2n s.psyncLost +
        16 * b2n (decide (target ≠ g.1 * 1000))
      target := target / 1000
      mask := s.blackMask target
      period := g.2 * s.pload
      owtMask := 0
      seq := s.swp.count + 1 }
    let s := ((List.range 20).filter (fun k => s.portEn (portOf k) && s.rdB (AQ_PORT_CTL k) AQ_PORT_CTL_EN)).foldl
      (fun s k => s.postSweep k d) s
    let s := (List.range 18).foldl (fun s p => s.portOwtNext p) s
    let full := { d with owtMask := owtLines s.swp.owt, flags := d.flags + 2 * b2n (decide (s.swp.owt ≠ 0)) }
    let s := s.wr AQ_SWP_STAT AQ_SWP_STAT_TAG tag
    .next { s with swp := { s.swp with
      tag := if tag = 0xFFFE then 0 else tag + 1, cur := some full, count := s.swp.count + 1, last := some g.1,
      toWrite := s.swp.toWrite ++ [full], owt := owtAfter s.swp.owt } }

/-! ## Windows of the adaptive period (R517) -/

/-- Whether a string's mean over the window lies below a threshold in mA; none where it has no sample. -/
def State.meanBelow (s : State) (r thr : Nat) : Option Bool :=
  if bit (s.rd AQ_CUR_STAT AQ_CUR_STAT_STALE) r then some false
  else
    let n := Tab.get 0 s.swp.winN r
    if n = 0 then none else some (decide (Tab.get 0 s.swp.winSum r < thr * n))

/-- A dwell over one more window, ms. -/
def State.dwellStep (s : State) (thr dwell : Nat) : Nat :=
  let rs := (List.range 12).filter (fun r => s.rdB (AQ_CUR_SRC r) AQ_CUR_SRC_EN)
  let ms_ := rs.map (fun r => s.meanBelow r thr)
  if ms_.any (fun m => m == some false) then 0
  else if ms_.any (fun m => m == none) then dwell
  else dwell + 10

/-- MEAN_WINDOW_END: the dwells advance or restart, and a complete dwell lengthens the period (R87, R517). -/
def execMeanWindowEnd (s : State) (t : Nat) : Host.Outcome State Fault Refusal :=
  let s := s.at t
  let near := s.dwellStep (s.rd AQ_SWP_ADAPT AQ_SWP_ADAPT_ILOAD * 10) s.swp.dwellNear
  let rest := s.dwellStep (s.rd AQ_SWP_ADAPT AQ_SWP_ADAPT_IREST * 10) s.swp.dwellRest
  let m := if s.rd AQ_SWP_ADAPT AQ_SWP_ADAPT_ILOAD = 0 then 0
    else if s.rd AQ_SWP_DWELL AQ_SWP_DWELL_TREST * 1000 ≤ rest then 2
    else if s.swp.mode = 0 ∧ s.rd AQ_SWP_DWELL AQ_SWP_DWELL_TNEAR * 100 ≤ near then 1
    else s.swp.mode
  .next { s with swp := { s.swp with dwellNear := near, dwellRest := rest, winSum := [], winN := [],
                                     mode := Nat.max m s.swp.mode } }

/-! ## Deadlines, stream-only READs, periodic tests -/

/-- SWEEP_DEADLINE_MISS: a late SAMPLE or a late READ window is recorded (R91); positions without a record of the tag are
stale from its target (R90). -/
def execSweepDeadlineMiss (s : State) (k : Fin 20) (tag : Fin 65535) (t : Nat) : Host.Outcome State Fault Refusal :=
  let s := s.at t
  let p := portOf k
  let s := (s.hit AQ_SWP_EVT AQ_SWP_EVT_OVERRUN AQ_SWP_CNT AQ_SWP_CNT_OVERRUNN).raise srcWindow EV_SWP_DEADLINE
    [portPos p 0, tag]
  match (s.eng k).prevTag with
  | some pt => if pt = tag.val then
      .next (s.staleFrom p ((List.range (s.portNodes p)).map (· + 1)) tag (s.eng k).prevTarget) else .next s
  | none => .next s

/-- The positions that an engine's READs cover: its side of a two-ended ring, or up to a located break (R93, R96). -/
def State.readSide (s : State) (k : Nat) : Nat × Nat :=
  let p := portOf k
  let n := s.portNodes p
  match (s.eng k).twoEnd with
  | some (a, b) => if endOf k = 0 then (1, a) else (b, n)
  | none =>
    if s.rdB (AQ_PORT_BRK (eng0 p)) AQ_PORT_BRK_BRKVALID then (1, s.rd (AQ_PORT_BRK (eng0 p)) AQ_PORT_BRK_BRKPOS) else (1, n)

/-- STREAM_ONLY_READ: once per STRPER without a READ, on a port with a sense node (R59, R80). -/
def execStreamOnlyRead (s : State) (k : Fin 20) (slot t : Nat) : Host.Outcome State Fault Refusal :=
  let s := s.at t
  let p := portOf k
  let e := s.eng k
  let side := s.readSide k
  let sense := (List.range (s.portNodes p)).any (fun i => decide (side.1 ≤ i + 1 ∧ i + 1 ≤ side.2 ∧ 2 ≤ s.nodeType p (i + 1)))
  if s.commands k ∧ 5 ≤ s.portState k ∧ sense ∧ e.readOut = none ∧ (e.strAt = 0 ∨ e.strAt + s.strPer ≤ s.now) then
    .next (s.sendRead k 0xFFFF side.1 side.2 (Nat.max 1660 slot) false)
  else .next s

/-- OWT_PERIODIC: once per OWTPER the open-wire test runs on every enabled port (R99). -/
def execOwtPeriodic (s : State) (t : Nat) : Host.Outcome State Fault Refusal :=
  let s := s.at t
  let per := s.rd AQ_SWP_OWT AQ_SWP_OWT_OWTPER
  if s.rdB AQ_SWP_CTL AQ_SWP_CTL_EN ∧ per ≠ 0 ∧ s.swp.owtAt + per * 60 * sec ≤ s.now ∧ s.swp.owt = 0 then .next s.owtStart
  else .next s

end Sys2Proof.Machine
end

