-- ==== Sys2Proof/Machine/Ledger.lean ====
section
/-!
DEFINITION. The commands of chapter 16: events on their way to MRAM, reads of the ledger window, the fault-window archive,
the lifetime store, recovery, scrubbing; and R104's freeze.
-/

namespace Sys2Proof.Machine

/-! ## Events and records -/

/-- A grain raises an event (R420). -/
def execEventRaise (s : State) (src code : Nat) (words : List Nat) (t : Nat) : Host.Outcome State Fault Refusal :=
  .next ((s.at t).raise src code words)

/-- A block takes its grains' events into its buffer (R420, R421). -/
def execBlockEventCollect (s : State) (blk : Nat) (t : Nat) : Host.Outcome State Fault Refusal :=
  .next ((s.at t).collect (blockOf blk))

/-- The engine takes the next event that a block forwards (R421, R422). -/
def execLedgerEventReceive (s : State) (blk : Nat) (t : Nat) : Host.Outcome State Fault Refusal :=
  .next ((s.at t).receive (blockOf blk))

/-- The oldest queued record is persisted; a slot row whose write fails verification is remapped (R423, R441). -/
def execLedgerPersist (s : State) (verified : Bool) (t : Nat) : Host.Outcome State Fault Refusal :=
  let s := s.at t
  if s.psReset then .next s
  else
    let row := mramRow (0x04790000 + s.led.sedSlot * 64)
    let any := !s.led.queue.isEmpty
    let s := s.persistNext
    .next (if any && !verified then s.remapRow row else s)

/-- The mean rate over 24 h is judged (R425). -/
def execLedgerWearCheck (s : State) (t : Nat) : Host.Outcome State Fault Refusal :=
  let s := s.at t
  if s.now < s.led.wearSince + 86400 * sec then .next s
  else
    let n := s.led.wearCount
    let now := s.now
    let s := { s with led := { s.led with wearCount := 0, wearSince := now } }
    if 86400 * 1000 < n then
      .next ((s.hit LEDGER_EVT LEDGER_EVT_WEAR LEDGER_CNT LEDGER_CNT_WEARN).raise srcLedger EV_LED_WEAR [n])
    else .next s

/-! ## Commands of the ledger's registers -/

/-- A write of `COMMISSION` is refused once the section is commissioned (R426). -/
def State.commissionBad (s : State) : Bool := s.commissioned

/-- The section is commissioned (R426): the bit burnt in its three copies, the time in the section record, the first
bedrock record. -/
def State.commission (s : State) : State :=
  let s := ((s.burnBit (0x2E0 * 8)).burnBit (0x2E0 * 8 + 1)).burnBit (0x2E0 * 8 + 2)
  let s := if s.sectionOk then s.sectionWrite 1536 (bytesLE s.ns 8)
    else s.mramWrite 0x04718000 (withCrc ((s.sectionImage.take 1536) ++ bytesLE s.ns 8 ++ bytesLE 0 8))
  s.persistOwn srcLedger EV_LED_COMMISSION [s.led.seqNext]

/-- The sediment view is cleared: the record of the command, and the snapshots that follow it, can be reached (R427). -/
def State.sedClear (s : State) : State :=
  ({ s with led := { s.led with sedReach := 0 } } : State).persistOwn srcLedger EV_LED_SED_CLEAR [s.led.seqNext]

/-- Entries 0 to 15 of a block's buffer are cleared (R421). -/
def State.blockClear (s : State) (src : Nat) : State :=
  let blk := blockOf src
  { s with led := { s.led with bufs := Tab.set {} s.led.bufs blk { Tab.get {} s.led.bufs blk with first := [] } } }

/-! ## Reads -/

/-- A read of a register from outside a grain: its response stands in the machine's latest response. -/
def State.extRead (s : State) (a : Nat) : State :=
  let r := s.busRead a
  { r.2 with fab := { r.2.fab with rdata := r.1.getD 0, rerr := r.1.isNone } }

/-- A read of an RC count, or of any other register, returns its value and clears it (R3, R172). -/
def execRcRead (s : State) (a : Nat) (t : Nat) : Host.Outcome State Fault Refusal := .next ((s.at t).extRead a)

/-- A read of `LEDGER_WIN0` (R429). -/
def execLedgerWin0Read (s : State) (t : Nat) : Host.Outcome State Fault Refusal := .next ((s.at t).extRead (LEDGER_WIN 0))

/-- A read of `LEDGER_WIN15` (R429). -/
def execLedgerWin15Read (s : State) (t : Nat) : Host.Outcome State Fault Refusal := .next ((s.at t).extRead (LEDGER_WIN 15))

/-! ## The archive (R104, R431) -/

/-- The slot of the archive that is written next. -/
def State.archAddr (s : State) : Nat := 0x04D90000 + s.led.archNext * 0x40000

/-- POSTN sweeps after a trigger the window freezes and its copy begins; in commit mode nothing is copied (R104, R431). -/
def execWindowFreeze (s : State) (t : Nat) : Host.Outcome State Fault Refusal :=
  let s := s.at t
  match s.swp.trig with
  | some (0, ns, kind) =>
    if s.rdB AQ_WIN_STAT AQ_WIN_STAT_FROZEN then .next s
    else
      let tag := s.rd AQ_SWP_STAT AQ_SWP_STAT_TAG
      let s := (s.wr AQ_WIN_STAT AQ_WIN_STAT_FROZEN 1).raise srcWindow EV_WIN_FREEZE [tag, kind]
      let s := { s with swp := { s.swp with frozenBy := some (ns, kind) } }
      if s.led.commit then .next s
      else
        let s := s.mramWrite s.archAddr (List.replicate 8 255)
        .next ({ s with led := { s.led with archBusy := some (ns, kind, none) } }.wr AQ_WIN_STAT AQ_WIN_STAT_ARCH 1)
  | _ => .next s

/-- The parts of an archive slot: header, aux values of the nodes, the newest whole sweeps that fit, oldest first. -/
def State.archBytes (s : State) (ns kind seq : Nat) : List Nat :=
  let nodes := (List.range 18).flatMap (fun p => (List.range (s.portNodes p)).map (fun i => (p, i + 1)))
  let size := Nat.max 64 s.swp.size
  let n := Nat.min s.swp.held ((0x40000 - 64 - 64 * nodes.length) / size)
  let fits := 0x400000 / size
  let head := bytesLE 0x46415231 4 ++ bytesLE seq 4 ++ bytesLE ns 8 ++ bytesLE nodes.length 4 ++ bytesLE n 4 ++
    bytesLE size 4 ++ bytesLE kind 4 ++ List.replicate 32 0
  head ++ nodes.flatMap (fun x => (((s.pos x.1 x.2).aux4.flatten) ++ List.replicate 64 0).take 64) ++
    (List.range n).flatMap (fun i =>
      s.loadBytes (0x10000000 + (s.swp.wrAt + 2 * fits - (n - i)) % fits * size) size)

/-- The archive copy completes, once the sequence of EV_WIN_FREEZE is known; the window re-arms unless `HOLD` (R431). -/
def execArchiveCopyDone (s : State) (t : Nat) : Host.Outcome State Fault Refusal :=
  let s := s.at t
  match s.led.archBusy with
  | some (ns, kind, some seq) =>
    if s.psReset then .next s
    else
      let slot := s.led.archNext
      let bs := s.archBytes ns kind seq
      let s := (s.mramWrite (s.archAddr + 8) (bs.drop 8)).mramWrite s.archAddr (bs.take 8)
      let s := { s with led := { s.led with archBusy := none, archNext := (slot + 1) % 8 } }
      let s := (s.wr AQ_WIN_STAT AQ_WIN_STAT_ARCH 0).raise srcLedger EV_LED_ARCHIVE [slot]
      .next (if s.rdB AQ_WIN_CTL AQ_WIN_CTL_HOLD then s else s.winRearm)
  | _ => .next s

/-! ## The lifetime store -/

/-- A state or model block is taken from `LTQ` (R433). -/
def execLifetimeBlockInput (s : State) (t : Nat) : Host.Outcome State Fault Refusal :=
  let s := s.at t
  if s.lifeOn ∧ ¬ s.psReset then .next s.lifeInput else .next s

/-- A rolling pass begins once per `LTROLL`, after the commits that wait (R434). -/
def execLifetimeRoll (s : State) (t : Nat) : Host.Outcome State Fault Refusal :=
  let s := s.at t
  if s.lifeOn ∧ ¬ s.psReset ∧ s.led.commitQ.isEmpty ∧ s.led.rollAt + s.rd LT_CTL LT_CTL_LTROLL * sec ≤ s.now then
    .next s.rollStart
  else .next s

/-- A redo batch completes (R435). -/
def execLifetimeBatchDone (s : State) (t : Nat) : Host.Outcome State Fault Refusal :=
  let s := s.at t
  if s.psReset then .next s else .next s.batchDone

/-! ## Power failure, recovery, scrubbing -/

/-- Commit mode closes (R437). -/
def execPowerFailCommitDone (s : State) (t : Nat) : Host.Outcome State Fault Refusal :=
  let s := s.at t
  if s.led.commit ∧ s.led.commitDone = none ∧ ¬ s.psReset then .next (s.commitFinish).runDeferred else .next s

/-- The interval within which a scrub pass completes in a band, ps (R487). -/
def scrubInterval (band : Nat) : Nat :=
  (if band = 0 then 30 * 86400 else if band = 1 then 7 * 86400 else if band = 2 then 86400 else if band = 3 then 14400
   else 3600) * sec

/-- An uncorrectable word found in MRAM (R443): poisoned; a cell record there is replaced. -/
def State.mramUncorr (s : State) (a : Nat) : State :=
  let s := s.setPoison a true
  let s := (s.hit PS_MRAM_EVT PS_MRAM_EVT_UNCORR PS_MRAM_CNT PS_MRAM_CNT_UNCORRN).raise srcMram EV_MRAM_UNCORR [a]
  if 0x04490000 ≤ a ∧ a < cellAddr 20736 ∧ (s.life ((a - 0x04490000) / 128)).used then
    s.cellLost ((a - 0x04490000) / 128)
  else s

/-- A scrub pass completes: the rows with a corrected word, the uncorrectable words; a row corrected on two consecutive
passes is remapped; a late pass is recorded (R441, R442). -/
def execMramScrubPass (s : State) (rows : List (Fin 16384)) (n : Nat) (bad : List Nat) (t : Nat) :
    Host.Outcome State Fault Refusal :=
  let s := s.at t
  if s.led.commit ∨ s.psReset then .next s
  else
    let rs := rows.map (fun r => r.val)
    let again := rs.filter (fun r => s.led.rowsCorr.contains r)
    let s := again.foldl (fun s r => s.remapRow r) s
    let s := bad.foldl (fun s a => if 0x04000000 ≤ a ∧ a < 0x05000000 then s.mramUncorr a else s) s
    let s := s.wr PS_MRAM_CNT PS_MRAM_CNT_CORRN (satAdd (s.rd PS_MRAM_CNT PS_MRAM_CNT_CORRN) n 65535)
    let s := (s.count 0x3D4 n).raise srcMram EV_MRAM_SCRUB [n]
    let late := decide (s.led.scrubAt + scrubInterval s.led.scrubBand < s.now)
    let s := if late then
        (s.hit PS_MRAM_EVT PS_MRAM_EVT_LATE PS_MRAM_CNT PS_MRAM_CNT_LATEN).raise srcMram EV_MRAM_SCRUB_LATE [s.led.scrubBand]
      else s
    let now := s.now
    let band := s.rd SV_TH_STAT SV_TH_STAT_BAND
    .next { s with led := { s.led with rowsCorr := rs, scrubAt := now, scrubBand := band } }

end Sys2Proof.Machine
end

