-- ==== Sys2Proof/Machine/LoadSwitch.lean ====
section
/-!
DEFINITION. The events of the load-switch channels and the load timers (chapter 12).
-/

namespace Sys2Proof.Machine

/-- A channel's input is formed anew (R330, R331): `io` the levels of the general I/O lines, `sense` the channel's sense
code before the change, `vclamp` (mV) and `dur` (ns) the clamp phase of a turn-off that drives the output into the
clamp. -/
def execChannelInputChange (s : State) (c : Fin 24) (io sense vclamp dur t : Nat) : Host.Outcome State Fault Refusal :=
  let s := s.at t
  let s := { s with out := { s.out with io := io % 2 ^ 32 } }
  let s := if s.lsOn c ∧ s.rd (PW_LS_STATc c) PW_LS_STATc_ISENSE ≠ 0xFFF then
    s.wr (PW_LS_STATc c) PW_LS_STATc_ISENSE (Nat.min 0xFFE sense) else s
  let s := s.lsSync c
  .next (if s.lsOn c then s else s.lsClamp c vclamp dur)

/-- A load timer reaches the end of its high time or of its period (R332). -/
def execLoadTimerEdge (s : State) (n : Fin 12) (t : Nat) : Host.Outcome State Fault Refusal :=
  let s := s.at t
  let x := s.lt n
  if ¬ s.rdB (CT_LT_CFG n) CT_LT_CFG_EN ∨ x.stopped then .next s
  else if x.start + x.period * us ≤ s.now then
    .next ((s.ltLoad n (x.start + x.period * us)).ltSync n)
  else if x.high ∧ x.start + x.period * us * x.duty / 1024 ≤ s.now then
    .next ((s.updLt n (fun x => { x with high := false })).ltSync n)
  else .next s

/-- A GC channel's inrush window closes (R334). -/
def execInrushWindowEnd (s : State) (c : Fin 24) (t : Nat) : Host.Outcome State Fault Refusal :=
  let s := s.at t
  match (s.ls c).inrush with
  | some due => .next (if due ≤ s.now then s.updLs c (fun x => { x with inrush := none }) else s)
  | none => .next s

/-- A channel's current reaches its current limit, or falls below it again: it limits and stays on (R333, R338). -/
def execChannelCurrentLimit (s : State) (c : Fin 24) (active : Bool) (t : Nat) : Host.Outcome State Fault Refusal :=
  let s := s.at t
  if s.lsOn c then
    let now := s.now
    .next ((s.updLs c (fun x => { x with limAt := some now })).wr (PW_LS_STATc c) PW_LS_STATc_LIM (b2n active))
  else .next s

/-- A channel's temperature code: TJ and PREW (R336). -/
def State.lsTj (s : State) (c : Nat) (tj : Int) : State :=
  let s := s.wr (PW_LS_TJ c) PW_LS_TJ_TJ (wrapInt tj 16)
  (s.wr (PW_LS_STATc c) PW_LS_STATc_PREW (b2n (decide (16000 ≤ tj)))).updLs c (fun x => { x with broken := false })

/-- A sensor's reading taken with its pre-warning: an HC or LC channel that comes to 160 °C or more raises source 21, a GC
channel reports it in PREW alone (R336). -/
def State.lsWarm (s : State) (c : Nat) (tj : Int) : State :=
  let was := s.rdB (PW_LS_STATc c) PW_LS_STATc_PREW
  let s := s.lsTj c tj
  if 16000 ≤ tj ∧ ¬ was ∧ c < 18 then
    (s.raise srcOut EV_LS_PREWARN [c, 0, s.rd (PW_LS_STATc c) PW_LS_STATc_ATTR]).lsTrip 21 c true
  else s

/-- Instants of a list within the last 10 s. -/
def State.last10s (s : State) (ts : List Nat) : List Nat := ts.filter (fun x => decide (s.now < x + 10 * sec))

/-- A channel's sensor reads 175 °C or more: it turns off; it latches in latch mode, or after NRST restarts within 10 s
(R335, R338). -/
def execChannelThermalTrip (s : State) (c : Fin 24) (tj : Int) (vclamp dur t : Nat) : Host.Outcome State Fault Refusal :=
  let s := (s.at t).lsWarm c tj
  if tj < 17500 then .next s
  else
    let attr := s.lsAttr c
    let now := s.now
    let trips := s.last10s (s.ls c).trips ++ [now]
    let again := s.last10s (s.ls c).restarts
    let s := s.updLs c (fun x => { x with trips := trips, restarts := again, tripAt := some now, cooling := true })
    let s := s.wr (PW_LS_STATc c) PW_LS_STATc_NCYC (Nat.min 15 trips.length)
    let s := s.wr (PW_LS_STATc c) PW_LS_STATc_ATTR attr
    let s := if s.lsLatched c then s else s.wr (PW_LS_STATc c) PW_LS_STATc_CAUSE 1
    let s := s.lsSync c
    let s := (s.hit PW_LS_EVT PW_LS_EVT_THERM PW_LS_CNT0 PW_LS_CNT0_THERMN).raise srcOut EV_LS_THERM [c, 1, attr]
    let s := if s.lsLatched c then s
      else if s.rdB (PW_LS_CFG c) PW_LS_CFG_TMODE ∨ s.rd (PW_LS_CFG c) PW_LS_CFG_NRST ≤ again.length then s.lsLatch c 1
      else s
    .next (s.lsClamp c vclamp dur)

/-- A cooled channel in restart mode, a GC channel then, turns on again when its input is on (R335). -/
def execChannelThermalRestart (s : State) (c : Fin 24) (tj : Int) (t : Nat) : Host.Outcome State Fault Refusal :=
  let s := if c.val < 18 then s.at t else (s.at t).lsTj c tj
  if 18 ≤ c.val ∧ tj ≤ 16000 ∧ (s.ls c).cooling ∧ s.lsInput c ∧ ¬ s.rdB (PW_LS_CFG c) PW_LS_CFG_TMODE then
    let now := s.now
    let again := s.last10s (s.ls c).restarts ++ [now]
    .next ((s.updLs c (fun x => { x with cooling := false, restarts := again })).lsSync c)
  else .next s

/-- An HC or LC channel at 160 °C or more raises source 21; a GC channel reports it in PREW alone (R336). -/
def execChannelPrewarn (s : State) (c : Fin 24) (tj : Int) (t : Nat) : Host.Outcome State Fault Refusal :=
  .next ((s.at t).lsWarm c tj)

/-- The sensor falls below 160 °C: PREW clears and source 21 becomes inactive (R336). -/
def execChannelPrewarnEnd (s : State) (c : Fin 24) (tj : Int) (t : Nat) : Host.Outcome State Fault Refusal :=
  let s := (s.at t).lsTj c tj
  .next (if tj < 16000 then s.lsTrip 21 c false else s)

/-- A broken sensor: source 21 for an HC or LC channel, an immediate latch for a GC channel (R336). -/
def execChannelSensorBroken (s : State) (c : Fin 24) (t : Nat) : Host.Outcome State Fault Refusal :=
  let s := s.at t
  let was := (s.ls c).broken
  let s := (s.wr (PW_LS_TJ c) PW_LS_TJ_TJ 0x7FFF).updLs c (fun x => { x with broken := true })
  if was then .next s
  else if c.val < 18 then
    .next ((s.raise srcOut EV_LS_TSENS [c, 2, s.rd (PW_LS_STATc c) PW_LS_STATc_ATTR]).lsTrip 21 c true)
  else .next (if s.lsLatched c then s else s.lsLatch c 2)

/-- The sense disagrees with the on-state drop for 1 ms (R340). -/
def execChannelSenseFault (s : State) (c : Fin 24) (t : Nat) : Host.Outcome State Fault Refusal :=
  let s := s.at t
  if s.lsOn c ∧ s.rd (PW_LS_STATc c) PW_LS_STATc_ISENSE ≠ 0xFFF then
    let s := s.wr (PW_LS_STATc c) PW_LS_STATc_ISENSE 0xFFF
    .next ((s.hit PW_LS_EVT PW_LS_EVT_SENSE PW_LS_CNT0 PW_LS_CNT0_SENSEN).raise srcOut EV_LS_SENSE
      [c, s.rd (PW_LS_STATc c) PW_LS_STATc_CAUSE, s.rd (PW_LS_STATc c) PW_LS_STATc_ATTR])
  else .next s

/-- A channel that is on carries less than its open-load threshold for 10 ms (R341). -/
def execChannelOpenLoad (s : State) (c : Fin 24) (t : Nat) : Host.Outcome State Fault Refusal :=
  let s := s.at t
  if s.lsOn c ∧ s.rdB (PW_LS_CFG c) PW_LS_CFG_OLEN ∧ ¬ s.rdB (PW_LS_STATc c) PW_LS_STATc_OPENLD then
    let s := s.wr (PW_LS_STATc c) PW_LS_STATc_OPENLD 1
    .next ((s.hit PW_LS_EVT PW_LS_EVT_OPENLD PW_LS_CNT1 PW_LS_CNT1_OPENLDN).raise srcOut EV_LS_OPENLOAD
      [c, s.rd (PW_LS_STATc c) PW_LS_STATc_CAUSE, s.rd (PW_LS_STATc c) PW_LS_STATc_ATTR])
  else .next s

/-- VSW below 7.0 V for 10 µs: every channel off, source 22 (R343). `clamps` lists the clamp phases: channel, clamp
voltage in mV, duration in ns. -/
def execVswLow (s : State) (clamps : List (Nat × Nat × Nat)) (t : Nat) : Host.Outcome State Fault Refusal :=
  let s := s.at t
  if s.rdB PW_LS_STAT PW_LS_STAT_VSWLO then .next s
  else
    let s := s.wr PW_LS_STAT PW_LS_STAT_VSWLO 1
    let s := (List.range 24).foldl (fun s c =>
      let s := if s.lsLatched c then s else s.wr (PW_LS_STATc c) PW_LS_STATc_CAUSE 4
      (s.updLs c (fun x => { x with vswHold := decide (c < 18) })).lsSet c false) s
    let s := (s.hit PW_LS_EVT PW_LS_EVT_VSW PW_LS_CNT1 PW_LS_CNT1_VSWN).raise srcOut EV_LS_VSW [0, 4, 31]
    let s := s.stringSource 22 0 none true
    .next (clamps.foldl (fun s x => if x.1 < 24 then s.lsClamp x.1 x.2.1 x.2.2 else s) s)

/-- VSW at 8.0 V or more for 10 ms: the lock-out ends; an HC or LC channel waits for its input to be off once (R343). -/
def execVswRecover (s : State) (t : Nat) : Host.Outcome State Fault Refusal :=
  let s := s.at t
  if s.rdB PW_LS_STAT PW_LS_STAT_VSWLO then
    let s := (s.wr PW_LS_STAT PW_LS_STAT_VSWLO 0).stringSource 22 0 none false
    .next s.lsSyncAll
  else .next s

/-! ## What register writes of the output block do -/

/-- Whether a write of LSCLR is refused for a channel named in it (R344). -/
def State.lsClrBad (s : State) (v : Nat) : Bool :=
  s.rdB PW_LS_STAT PW_LS_STAT_VSWLO ||
    (List.range 24).any (fun c => bit v c && s.lsLatched c &&
      ((s.ls c).broken || decide (16000 ≤ s.lsTemp c) ||
        decide (s.rd (PW_LS_CFG c) PW_LS_CFG_EBUD * 10000000 < 2 * ((s.lsAccount c).ls c).energy)))

/-- The effect of LSCLR: latched channels released (R344). -/
def State.lsClear (s : State) (v : Nat) : State :=
  ((List.range 24).filter (fun c => bit v c && s.lsLatched c)).foldl (fun s c =>
    let s := (s.lsAccount c).wr (PW_LS_STATc c) PW_LS_STATc_LATCHED 0
    let s := s.updLs c (fun x => { x with restarts := [], cooling := false })
    let s := s.raise srcOut EV_LS_CLEAR
      [c, s.rd (PW_LS_STATc c) PW_LS_STATc_CAUSE, s.rd (PW_LS_STATc c) PW_LS_STATc_ATTR]
    let s := s.wr (PW_LS_STATc c) PW_LS_STATc_CAUSE 0
    (s.lsSync c).lsTrip 20 c false) s

/-- Why a write to `PW_LS_CFG` of channel c is refused (R330, R334, R335). -/
def State.lsCfgBad (s : State) (c v : Nat) : Bool :=
  let w : Word := BitVec.ofNat 32 v
  let src := PW_LS_CFG_SRC.get w
  decide (45 < src) || (decide (c < 12) && src == 0) || (decide (12 ≤ c ∧ c < 18) && src != 0) ||
    (c == 18 + s.rd PW_PCH_CFG PW_PCH_CFG_SEEDGC && src != 0) ||
    (decide (c < 18) && (PW_LS_CFG_TINR.get w != 0 || PW_LS_CFG_TMODE.get w == 0))

/-- Why a write of SEEDGC is refused: the channel's SRC is not 0 (R330). -/
def State.seedGcBad (s : State) (v : Nat) : Bool :=
  s.rd (PW_LS_CFG (18 + PW_PCH_CFG_SEEDGC.get (BitVec.ofNat 32 v))) PW_LS_CFG_SRC != 0

/-- Why a load timer's setting is refused: a high or low time that is not 0 and below 10 µs (R332). -/
def ltCfgBad (v : Nat) : Bool :=
  let w : Word := BitVec.ofNat 32 v
  let per := CT_LT_CFG_PERIOD.get w
  let duty := CT_LT_CFG_DUTY.get w
  decide (per < 40) || (duty != 0 && decide (per * duty < 10240)) ||
    (decide (duty < 1024) && duty != 1024 && decide (per * (1024 - duty) < 10240))

/-- The effect of a write to a load timer: a running timer takes it at the end of its period, a starting one at once,
a stopped one drives low (R332). -/
def State.ltWritten (s : State) (n : Nat) (wasEn : Bool) : State :=
  if s.rdB (CT_LT_CFG n) CT_LT_CFG_EN then
    (if wasEn then s else ((s.updLt n (fun x => { x with stopped := false })).ltLoad n s.now).ltSync n)
  else (s.updLt n (fun x => { x with high := false })).ltSync n

/-- IMON in µV: 125 mV/A of the selected channel's sense (R342). -/
def State.imon (s : State) : Nat :=
  if s.rdB PW_LS_CTL PW_LS_CTL_IMEN then
    let c := s.rd PW_LS_CTL PW_LS_CTL_IMSEL
    s.rd (PW_LS_STATc c) PW_LS_STATc_ISENSE * lsScale c * 25 / 2
  else 0

end Sys2Proof.Machine
end

