-- ==== Sys2Proof/Machine/SafetyOps.lean ====
section
/-!
DEFINITION. The safety region's operations: the parameter set, causes and outputs, pairs, Safe Ramp Stop, the Safe Cell
Envelope (chapter 13).
-/

namespace Sys2Proof.Machine

/-! ## The parameter set (R366 to R369) -/

/-- SF's timer, µs (R346). -/
def State.sfUs (s : State) : Nat := s.now / us

/-- Fields of the set in force, little-endian. -/
def State.set8 (s : State) (o : Nat) : Nat := s.sf.set.getD o 0
def State.set16 (s : State) (o : Nat) : Nat := s.set8 o + 256 * s.set8 (o + 1)

/-- Bytes of a set image as numbers. -/
def le16 (b : List Nat) (o : Nat) : Nat := b.getD o 0 + 256 * b.getD (o + 1) 0
def le32 (b : List Nat) (o : Nat) : Nat := le16 b o + 65536 * le16 b (o + 2)

/-- Whether a number lies in a range. -/
def within_ (n lo hi : Nat) : Bool := decide (lo ≤ n ∧ n ≤ hi)

/-- The ranges of a pair entry; a pair without a function has none (R368). -/
def pairOk (b : List Nat) (n : Nat) : Bool :=
  let o := 12 + 4 * n
  let f := b.getD o 0
  f == 0 || (decide (f ≤ 2) && within_ (b.getD (o + 2) 0) 1 20 && within_ (b.getD (o + 3) 0) 1 100)

/-- The ranges of a connection entry in use (R371). -/
def connOk (b : List Nat) (n : Nat) : Bool :=
  let o := 240 + 16 * n
  let fl := b.getD (o + 2) 0
  let prod := bit fl 1
  !bit fl 0 || (within_ (b.getD (o + 3) 0) (if prod then 4 else 1) 48 && within_ (le16 b (o + 8)) 5 1000 &&
    within_ (le16 b (o + 10)) 1 1000 && within_ (b.getD (o + 14) 0) 1 8 &&
    (if prod then within_ (le16 b (o + 12)) 1 500 && decide (2 * le16 b (o + 12) < le16 b (o + 8)) else le16 b (o + 12) == 0))

/-- Magic, version, index and every range of a set image (R368, R369). -/
def setFieldsOk (b : List Nat) (idx : Nat) : Bool :=
  le32 b 0 == 0x5A4D5331 && le16 b 4 == 1 && b.getD 6 0 == idx && (List.range 8).all (pairOk b) &&
    within_ (le16 b 44) 50 500 && within_ (le16 b 46) 1 8760 && within_ (le16 b 48) 1 2550 && within_ (le16 b 50) 1 100 &&
    within_ (le16 b 52) 1 200 && within_ (le16 b 54) 20 10000 && within_ (le16 b 56) 0 100 &&
    decide (le16 b 60 < le16 b 58) && decide (sext (le16 b 64) 16 < sext (le16 b 62) 16) && within_ (le16 b 68) 1 1000 &&
    (List.range 32).all (connOk b) && within_ (le16 b 752) 10 12000

/-- The signature of a set verifies against a programmed key hash that is not revoked (R369). -/
def State.setSigned (s : State) (b : List Nat) : Bool :=
  let d := Config.sha256 (b.take 1984)
  (List.range 4).any (fun k => s.keyProgrammed k && !s.keyRevoked k && Config.ecdsaOk (s.keyHash k) d (b.drop 1984))

/-- The selected set as MRAM holds it (R366, R368). -/
def State.selectedSet (s : State) : List Nat :=
  s.loadBytes (0x04400000 + s.rd SF_IO_STAT SF_IO_STAT_SEAL % 16 * 0x800) 2048

/-- Whether the selected set is valid (R369). -/
def State.setValid (s : State) : Bool :=
  let b := s.selectedSet
  setFieldsOk b (s.rd SF_IO_STAT SF_IO_STAT_SEAL % 16) && s.setSigned b

/-! ## Connections of the set (R371) -/

def connBase (n : Nat) : Nat := 240 + 16 * n
def State.connUsed (s : State) (n : Nat) : Bool := bit (s.set8 (connBase n + 2)) 0
def State.connProducer (s : State) (n : Nat) : Bool := bit (s.set8 (connBase n + 2)) 1
def State.connId (s : State) (n : Nat) : Nat := s.set16 (connBase n)
def State.connLen (s : State) (n : Nat) : Nat := s.set8 (connBase n + 3)
def State.connWd (s : State) (n : Nat) : Nat := s.set16 (connBase n + 8)
/-- The seed's four bytes, most significant first. -/
def State.connSeed (s : State) (n : Nat) : List Nat := ((s.sf.set.drop (connBase n + 4)).take 4).reverse
def State.conn (s : State) (n : Nat) : SfConn := Tab.get {} s.sf.conns n
def State.updConn (s : State) (n : Nat) (f : SfConn → SfConn) : State :=
  { s with sf := { s.sf with conns := Tab.set {} s.sf.conns n (f (s.conn n)) } }
def State.connState (s : State) (n : Nat) : Nat := s.rd (SF_CON_STAT n) SF_CON_STAT_CSTATE

/-- Every connection at its start under a newly loaded set (R372); producer sequences run on from chip reset (R375). -/
def State.connsStart (s : State) : State :=
  let now := s.now
  (List.range 32).foldl (fun s n =>
    let s := s.updConn n (fun c => { nextSeq := c.nextSeq, at_ := now })
    let s := s.setReg (SF_CON_STAT n) 0#32
    let s := s.wr (SF_CON_STAT n) SF_CON_STAT_CID (if s.connUsed n then s.connId n else 0)
    s.wr (SF_CON_STAT n) SF_CON_STAT_CSTATE (if s.connUsed n then 1 else 0)) s

/-- The selected set loaded, or found invalid (R367, R369). -/
def State.loadSet (s : State) : State :=
  let idx := s.rd SF_IO_STAT SF_IO_STAT_SEAL % 16
  if s.setValid then
    let b := s.selectedSet
    let now := s.now
    let s := { s with sf := { s.sf with
      set := b, loadAt := now, str := [], pairs := [], sce := [] } }
    let s := ((s.wr SF_STAT SF_STAT_SET idx).wr SF_STAT SF_STAT_SETOK 1).setReg SF_SERIAL (BitVec.ofNat 32 (le32 b 8))
    (s.connsStart).raise srcSF EV_SF_SET_LOAD [idx, le32 b 8]
  else (s.wr SF_STAT SF_STAT_SETOK 0).raise srcSF EV_SF_SET_FAIL [idx]

/-! ## Causes (R352, R356, R357, R365) -/

/-- `SFAULT` follows the faults (R349). -/
def State.sfFault (s : State) : State :=
  let f := s.sf.locked || decide (s.rd SF_IN_STAT SF_IN_STAT_PFLT ≠ 0) || s.rdB SF_IO_STAT SF_IO_STAT_RSTUCK ||
    !s.rdB SF_STAT SF_STAT_SETOK || (List.range 32).any (fun n => s.connState n == 3)
  s.wr SF_STAT SF_STAT_SFAULT (b2n f)

/-- A stop cause latched at its first occurrence; `CAUSE` keeps the first of the episode (R352, R365). -/
def State.sfCause (s : State) (code : Nat) (sdc : Bool) : State :=
  let s := { s with sf := { s.sf with newCause := some (s.sf.newCause.getD code) } }
  if s.sf.latched.contains (code, sdc) then s
  else
    let s := if s.sf.latched = [] then s.wr SF_STAT SF_STAT_CAUSE code else s
    { s with sf := { s.sf with latched := s.sf.latched ++ [(code, sdc)] } }

/-- SF's state (R352): 0 INIT, 1 LOCK, 2 RUN, 3 SRS. -/
def State.sfState (s : State) : Nat := s.rd SF_STAT SF_STAT_STATE

/-- The outputs of INIT and LOCK (R349): GATE_KILL, LC inputs off, permission withheld, SOK low. -/
def State.sfOutputsOff (s : State) : State :=
  let s := ((s.wr SF_STAT SF_STAT_GKILL 1).wr SF_STAT SF_STAT_LCOFF 1).wr SF_STAT SF_STAT_PERM 0
  let s := s.wr SF_STAT SF_STAT_SOK 0
  ({ s with out := { s.out with lcWire := 0 } }).lsSyncAll

/-- The outputs of RUN and SRS (R349). -/
def State.sfOutputsOn (s : State) (sok : Bool) : State :=
  let s := ((s.wr SF_STAT SF_STAT_GKILL 0).wr SF_STAT SF_STAT_LCOFF 0).wr SF_STAT SF_STAT_PERM 1
  let s := s.wr SF_STAT SF_STAT_SOK (b2n sok)
  ({ s with out := { s.out with lcWire := 0x3F } }).lsSyncAll

/-- Safe Disconnect with a cause (R356). -/
def State.sdc (s : State) (cause : Nat) : State :=
  let s := (s.sfOutputsOff).wr SF_STAT SF_STAT_STATE 1
  let s := (s.bump SF_CNT SF_CNT_SDCN).raise srcSF EV_SF_SDC [cause]
  s.stringSource 25 0 none true

/-- The strings with a sense position in the set, with that position (R357, R368). -/
def State.sfStrings (s : State) : List (Nat × Nat × Nat) :=
  ((List.range 12).map (fun r => (r, s.set8 (217 + 2 * r), s.set8 (216 + 2 * r)))).filter (fun x => decide (x.2.2 ≠ 0 ∧ x.2.1 ≠ 0))

def State.sfStr (s : State) (r : Nat) : SfStr := Tab.get {} s.sf.str r
def State.updSfStr (s : State) (r : Nat) (f : SfStr → SfStr) : State :=
  { s with sf := { s.sf with str := Tab.set {} s.sf.str r (f (s.sfStr r)) } }

/-- Safe Ramp Stop starts: source 26, t_r, and the envelope of every string (R357). -/
def State.srsStart (s : State) (cause : Nat) : State :=
  let now := s.now
  let t := s.ns
  let s := (s.wr SF_STAT SF_STAT_STATE 3).wr SF_STAT SF_STAT_SOK 0
  let s := { s with sf := { s.sf with tR := now } }
  let s := s.sfStrings.foldl (fun s x => s.updSfStr x.1 (fun c => { c with
    iRef := (c.samples.filter (fun e => decide (t ≤ e.1 + 1000000 ∧ e.1 ≤ t))).foldl (fun m e => Nat.max m e.2.natAbs) 0,
    lastAt := now, got := false, above := false })) s
  let s := (s.bump SF_CNT SF_CNT_SRSN).raise srcSF EV_SF_SRS [cause]
  s.stringSource 26 0 none true

/-- E_s at an instant, mA (R357). -/
def State.envelope (s : State) (r t : Nat) : Nat :=
  let dt := t - s.sf.tR / 1000 - s.set16 56 * 1000000
  (s.sfStr r).iRef - s.set16 48 * 100 * dt / 1000000 + s.set16 50 * 1000

/-! ## Pairs (R353 to R355) -/

def State.pair (s : State) (n : Nat) : SfPair := Tab.get {} s.sf.pairs n
def State.updPair (s : State) (n : Nat) (f : SfPair → SfPair) : State :=
  { s with sf := { s.sf with pairs := Tab.set {} s.sf.pairs n (f (s.pair n)) } }
def State.pairFn (s : State) (n : Nat) : Nat := s.set8 (12 + 4 * n)
def State.pairAnti (s : State) (n : Nat) : Bool := bit (s.set8 (13 + 4 * n)) 5

/-- Whether a channel of a pair shows demand: A low; B low, or high in an antivalent pair (R353). -/
def State.demandA (s : State) (n : Nat) : Bool := !bit (s.rd SF_IN_STAT SF_IN_STAT_RAWA) n
def State.demandB (s : State) (n : Nat) : Bool :=
  if s.pairAnti n then bit (s.rd SF_IN_STAT SF_IN_STAT_RAWB) n else !bit (s.rd SF_IN_STAT SF_IN_STAT_RAWB) n
def State.pairFaulted (s : State) (n : Nat) : Bool := bit (s.rd SF_IN_STAT SF_IN_STAT_PFLT) n

/-- A pair's function raised with a cause (R353, R355). -/
def State.pairRaise (s : State) (n code : Nat) : State := s.sfCause code (s.pairFn n == 1)

/-- A pair faulted: PFLT, and its function raised (R353, R354). -/
def State.pairFault (s : State) (n code : Nat) : State :=
  let s := (s.wrBit SF_IN_STAT (8 + n) true).updPair n (fun x => { x with both := false })
  (s.pairRaise n code).sfFault

/-- A faulted pair clears once both channels have shown demand and then normal, and after a test-pulse fault three good
pulses on each tested channel (R353, R354). -/
def State.pairClear (s : State) (n : Nat) : State :=
  let x := s.pair n
  let tested := bit (s.set8 (13 + 4 * n)) 4
  let good := !x.pulse || (decide (3 ≤ x.goodA) && (s.pairAnti n || decide (3 ≤ x.goodB))) || !tested
  if s.pairFaulted n ∧ x.both ∧ ¬ s.demandA n ∧ ¬ s.demandB n ∧ good then
    ((s.wrBit SF_IN_STAT (8 + n) false).updPair n (fun x => { x with both := false, pulse := false })).sfFault
  else s

/-- A pair's levels are read anew (R353). -/
def State.pairEval (s : State) (n : Nat) : State :=
  let a := s.demandA n
  let b := s.demandB n
  let now := s.now
  if s.pairFn n = 0 then s.wrBit SF_IN_STAT n false
  else
    let s := s.wrBit SF_IN_STAT n (a || b)
    let s := s.updPair n (fun x => { x with
      disagree := if a != b then some (x.disagree.getD now) else none, both := x.both || (a && b) })
    let s := if a || b then s.pairRaise n (if s.pairFn n = 1 then 1 else 2) else s
    s.pairClear n

/-! ## The Safe Cell Envelope (R359 to R361) -/

def State.sce (s : State) (k : Nat) : SceNode := Tab.get {} s.sf.sce k
def State.updSce (s : State) (k : Nat) (f : SceNode → SceNode) : State :=
  { s with sf := { s.sf with sce := Tab.set {} s.sf.sce k (f (s.sce k)) } }

/-- Whether the set names a cell node at a position (R360, R368). -/
def State.sceExpected (s : State) (p q : Nat) : Bool := bit (s.set8 (72 + 8 * p + (q - 1) / 8)) ((q - 1) % 8)

/-- The first violating value of a copy against SVMIN, SVMAX, STMIN and STMAX, with groups in place of the cells next to
broken lines: flat index and value (R360). -/
def State.sceViolation (s : State) (p q : Nat) (body : List Nat) : Option (Nat × Nat) :=
  let n := s.nodeCells p q
  let flags := beField body 5 2
  let hi := s.set16 58
  let lo := s.set16 60
  let flat := p * 1152 + (q - 1) * 18
  let groups := brokenGroups (s.rd (AQ_NODE_LIM (eng0 p) q) AQ_NODE_LIM_BRKL) n 20 0 none
  let free := fun c => groups.all (fun g => decide (c < g.1 ∨ g.2.1 < c))
  let cell := (List.range n).find? (fun c => !bit flags 1 && free c && (decide (hi < crecCell body c) || decide (crecCell body c < lo)))
  let grp := groups.find? (fun g =>
    let cells := (List.range n).filter (fun c => decide (g.1 ≤ c ∧ c ≤ g.2.1))
    let others := (List.range n).filter (fun c => decide (c < g.1 ∨ g.2.1 < c))
    let cnt := cells.length
    let tol : Int := if g.2.2 then s.stackTol200 (crecStack body) else 0
    let sum : Int := if g.2.2 then ((crecStack body * 10 : Nat) : Int) - sumList (others.map (crecCell body))
      else sumList (cells.map (crecCell body))
    let pm := s.set16 70
    !bit flags 1 && decide (200 * (cnt * hi - (cnt - 1) * pm : Int) - tol < 200 * sum ∨
      200 * sum < 200 * (cnt * lo + (cnt - 1) * pm : Int) + tol))
  let aux := (List.range 8).find? (fun a => bit (s.set8 66) a && decide (a < (s.pos p q).auxN) &&
    (beField body (43 + 2 * a) 2 == 0x7FFF || decide (sext (s.set16 62) 16 < sext (beField body (43 + 2 * a) 2) 16) ||
      decide (sext (beField body (43 + 2 * a) 2) 16 < sext (s.set16 64) 16)))
  match cell, grp, aux with
  | some c, _, _ => some (flat + c, crecCell body c)
  | _, some g, _ => some (flat + g.1, crecCell body g.1)
  | _, _, some a => some (flat, beField body (43 + 2 * a) 2)
  | _, _, _ => none

/-- A cause of the SCE at its second violating copy in a row: recorded and latched (R360). -/
def State.sceRaise (s : State) (n code idx v : Nat) (sdc : Bool) : State :=
  if n = 2 then (s.raise srcSFIO EV_SF_SCE [idx, v]).sfCause code sdc
  else if 2 < n then s.sfCause code sdc
  else s

/-- A valid copy of an expected cell node (R360). -/
def State.sceCopy (s : State) (p q : Nat) (body : List Nat) : State :=
  let k := p * 64 + (q - 1)
  let n := s.nodeCells p q
  let flags := beField body 5 2
  let stack := crecStack body
  let now := s.now
  let flat := p * 1152 + (q - 1) * 18
  let v := s.sceViolation p q body
  let rangeBad := decide (n * s.set16 58 < stack * 10 ∨ stack * 10 < n * s.set16 60)
  let tested := bit flags 3 && !bit flags 1 && (List.range n).all (fun c => crecCell body c != 0xFFFF)
  let sumBad := decide (stack + s.set16 68 * 2000 < (200 * crecResidue body n).natAbs)
  let s := s.updSce k (fun x => { x with
    lastAt := now, stale := false, vt := if v.isSome then x.vt + 1 else 0,
    range := if bit flags 3 then (if rangeBad then x.range + 1 else 0) else x.range,
    sum := if tested then (if sumBad then x.sum + 1 else 0) else x.sum })
  let x := s.sce k
  let vv := v.getD (flat, 0)
  let s := if v.isSome then s.sceRaise x.vt 5 vv.1 vv.2 true else s
  let s := if bit flags 3 && rangeBad then s.sceRaise x.range 6 flat stack true else s
  if tested && sumBad then s.sceRaise x.sum 7 flat stack false else s

/-- A valid copy of a string sense record: its stream samples against the envelope (R357, R358). -/
def State.streamCopy (s : State) (r : Nat) (body : List Nat) : State :=
  let first := s.extend48 (beField body 22 6)
  let period := beField body 28 2 * 250
  let xs := (streamSamples body).zip (List.range 16)
  let es := xs.map (fun e => (first + e.2 * period, e.1))
  let now := s.now
  let t := s.ns
  let iend := s.set16 52 * 100
  let viol := s.sfState == 3 && es.any (fun e => decide (s.envelope r e.1 < e.2.natAbs))
  let s := s.updSfStr r (fun c => { c with
    samples := (c.samples ++ es).filter (fun e => decide (t ≤ e.1 + 2000000)),
    lastAt := if es = [] then c.lastAt else now, got := c.got || decide (es ≠ []),
    above := c.above || es.any (fun e => decide (iend < e.2.natAbs)) })
  if viol then (s.sfCause 3 true).sdc 3 else s

/-! ## Which causes are still active (R365) -/

/-- The causes whose sources are active, the first of them deciding what a refusal reports (R365). -/
def State.sfActive (s : State) : List Nat :=
  let st := s.rd SF_IN_STAT SF_IN_STAT_DEMAND
  (if s.sf.locked then [16] else []) ++ (if s.sf.sealFlt then [14] else []) ++
  ((List.range 8).filter (fun n => bit st n && decide (s.pairFn n ≠ 0))).map (fun n => if s.pairFn n = 1 then 1 else 2) ++
  ((List.range 8).filter (fun n => s.pairFaulted n)).map (fun n => if (s.pair n).pulse then 13 else 12) ++
  (if s.sf.sce.any (fun e => decide (2 ≤ e.2.vt)) then [5] else []) ++
  (if s.sf.sce.any (fun e => decide (2 ≤ e.2.range)) then [6] else []) ++
  (if s.sf.sce.any (fun e => decide (2 ≤ e.2.sum)) then [7] else []) ++
  (if s.sf.sce.any (fun e => e.2.stale) then [8] else []) ++
  ((List.range 32).filter (fun n => s.connUsed n && !s.connProducer n &&
    (s.connState n != 2 || !(s.conn n).sdcOk || !(s.conn n).srsOk))).map (fun n => if s.connState n = 2 then 9 else 10) ++
  (if s.sf.request then [11] else []) ++
  (if s.rd SF_RB_STAT SF_RB_STAT_HCRB ≠ 0 ∨ s.rd SF_RB_STAT SF_RB_STAT_LCRB ≠ 0 then [15] else [])

/-! ## Resets (R364, R365) -/

/-- A reset refused (R364, R365). -/
def State.sfResetRefused (s : State) (cause : Nat) : State :=
  (s.bump SF_CNT SF_CNT_RSTREFN).raise srcSF EV_SF_RESET_REFUSED [cause]

/-- A reset accepted: the causes clear, the outputs are released, sources 25 and 26 end (R352, R356, R365). -/
def State.sfResetAccept (s : State) : State :=
  let s := if s.rd SF_STAT SF_STAT_SET ≠ s.rd SF_IO_STAT SF_IO_STAT_SEAL % 16 ∨ ¬ s.rdB SF_STAT SF_STAT_SETOK then s.loadSet
    else s
  let s := { s with sf := { s.sf with latched := [] } }
  let s := ((s.wr SF_STAT SF_STAT_CAUSE 0).wr SF_STAT SF_STAT_STATE 2).sfOutputsOn true
  let s := (s.stringSource 25 0 none false).stringSource 26 0 none false
  (s.raise srcSF EV_SF_RESET [0]).sfFault

/-- A press evaluated at a safety cycle that SF began in the state `was`: it is refused outside LOCK, for a cause that
occurred since the previous cycle, and while a cause is active (R365, R367). -/
def State.sfResetEval (s : State) (was : Nat) : State :=
  let act := s.sf.newCause.toList ++ s.sfActive
  if was ≠ 1 ∨ act ≠ [] then s.sfResetRefused (act.headD 0)
  else if ¬ s.setValid then
    ((if s.rd SF_STAT SF_STAT_SET ≠ s.rd SF_IO_STAT SF_IO_STAT_SEAL % 16 then s.loadSet else s).sfFault).sfResetRefused 0
  else s.sfResetAccept

/-! ## Internal faults (R346, R347) -/

/-- The supervisor's memory of SF's chip-fatal reports. -/
def State.updReports (s : State) (l : List Nat) : State := { s with sv := { s.sv with sfReports := l } }

/-- An internal fault found after INIT: Safe Disconnect, lock-out, EV_SF_INTERNAL, and a chip-fatal report, for which the
chip is not reset when two came within the 10 minutes before (R347). -/
def State.sfInternal (s : State) : State :=
  let s := s.sfCause 16 true
  let s := if s.sfState = 1 then s else s.sdc 16
  let s := { s with sf := { s.sf with locked := true, reported := true } }
  let s := (s.sfFault).raise srcSF EV_SF_INTERNAL [16]
  let now := s.now
  let recent := s.sv.sfReports.filter (fun t => decide (now < t + 600 * sec))
  let s := (s.fltNote srcSF EV_FB_CHIP_FATAL 3 3 []).updReports (recent ++ [now])
  if recent.length < 2 then s.chipFatal else s

end Sys2Proof.Machine
end

