-- ==== Sys2Proof/Machine/SafetyLayer.lean ====
section
/-!
DEFINITION. The events of the safety region and the Zenmomor safety layer (chapter 13).
-/

namespace Sys2Proof.Machine

/-! ## Start, cycle, faults (R346 to R352) -/

/-- SF_INIT: ROM check, self-test, straps, set load; then LOCK or RUN (R347, R352, R366 to R369). -/
def execSfInit (s : State) (rom self : Bool) (seal_ sealn : Fin 256) (t : Nat) : Host.Outcome State Fault Refusal :=
  let s := s.at t
  if s.sfState ≠ 0 then .next s
  else
    let now := s.now
    let s := (s.wr SF_IO_STAT SF_IO_STAT_SEAL seal_).wr SF_IO_STAT SF_IO_STAT_SEALN sealn
    let s := s.wr SF_STAT SF_STAT_SWE (b2n (bit seal_ 4))
    let s := { s with sf := { s.sf with
      proven := (List.range 7).foldl (fun tb i => Tab.set 0 tb i now) [] } }
    if ¬ rom ∨ ¬ self then
      let s := { s with sf := { s.sf with locked := true } }
      let s := ((s.sfCause 16 true).wr SF_STAT SF_STAT_STATE 1).sfOutputsOff
      .next (((s.sfFault).raise srcSF EV_SF_INTERNAL [16]).fltNote srcSF EV_SF_INTERNAL 3 3 [])
    else
      let bad := decide (seal_.val / 32 ≠ 5)
      let s := { s with sf := { s.sf with sealFlt := bad } }
      let s := if bad then (s.sfCause 14 true).raise srcSFIO EV_SF_SEAL [14] else s
      let s := s.loadSet
      let s := (List.range 8).foldl (fun s n => s.pairEval n) s
      let s : State := if bit (s.set8 7) 0 then s else s.sfCause 17 true
      if s.sf.latched = [] ∧ s.rdB SF_STAT SF_STAT_SETOK then
        .next (((s.wr SF_STAT SF_STAT_STATE 2).sfOutputsOn true).sfFault)
      else .next (((s.wr SF_STAT SF_STAT_STATE 1).sfOutputsOff).sfFault)

/-- The seal straps at a safety cycle: a complement that differs for 2 cycles in a row is a seal fault (R367). -/
def State.sealCycle (s : State) : State :=
  let seal_ := s.rd SF_IO_STAT SF_IO_STAT_SEAL
  let sealn := s.rd SF_IO_STAT SF_IO_STAT_SEALN
  let bad := decide (seal_ + sealn ≠ 255)
  let n := if bad then s.sf.sealN + 1 else 0
  let s := { s with sf := { s.sf with sealN := n } }
  if n = 2 then
    let s := { s with sf := { s.sf with sealFlt := true } }
    (s.sfCause 14 true).raise srcSFIO EV_SF_SEAL [14]
  else if n = 0 ∧ seal_ / 32 = 5 then { s with sf := { s.sf with sealFlt := false } }
  else s

/-- Whether the readback of a channel is wrong (R350). -/
def State.rbWrong (s : State) (c : Nat) (on : Bool) : Bool :=
  if c < 12 then on && !s.rdB SF_STAT SF_STAT_PERM
  else
    let inp := bit s.out.lcWire (c - 12)
    (on && !inp) || (!on && decide (2 ≤ s.sfState) && !s.rdB PW_LS_STAT PW_LS_STAT_VSWLO)

/-- The readback at a safety cycle: wrong for 2 cycles in a row is a cause (R350). -/
def State.readback (s : State) (hc lc : Nat) : State :=
  let s := (s.wr SF_RB_STAT SF_RB_STAT_HCRB hc).wr SF_RB_STAT SF_RB_STAT_LCRB lc
  (List.range 18).foldl (fun s c =>
    let on := if c < 12 then bit hc c else bit lc (c - 12)
    let n := if s.rbWrong c on then satAdd (Tab.get 0 s.sf.rbBad c) 1 3 else 0
    let s := { s with sf := { s.sf with rbBad := Tab.set 0 s.sf.rbBad c n } }
    if n = 2 then (s.sfCause 15 true).raise srcSFIO EV_SF_READBACK [c] else s) s

/-- A path that shows off over a full cycle in lock-out is proven; PRDUE clears once every path has been (R351). -/
def State.proofCycle (s : State) (hc lc : Nat) : State :=
  let lock := decide (s.sfState = 1)
  let now := s.now
  let s := (List.range 7).foldl (fun s i =>
    let off := lock && (if i < 6 then !bit lc i else decide (hc = 0))
    let full := off && Tab.get false s.sf.offSeen i
    { s with sf := { s.sf with
      offSeen := Tab.set false s.sf.offSeen i off,
      proven := if full then Tab.set 0 s.sf.proven i now else s.sf.proven } }) s
  if s.rdB SF_STAT SF_STAT_PRDUE ∧ (List.range 7).all (fun i => decide (s.sf.dueAt < Tab.get 0 s.sf.proven i)) then
    s.wr SF_STAT SF_STAT_PRDUE 0
  else s

/-- Ramp end: every sample of every configured string since the previous cycle start at or below SRSIEND, with at least
one sample of each (R358). -/
def State.rampEnded (s : State) : Bool :=
  !s.sfStrings.isEmpty && s.sfStrings.all (fun x => (s.sfStr x.1).got && !(s.sfStr x.1).above)

/-- The first latched SDC cause, and the first latched cause. -/
def State.firstSdc (s : State) : Option Nat := (s.sf.latched.find? (fun c => c.2)).map (fun c => c.1)

/-- The state table at a safety cycle (R352, R358). -/
def State.sfTransit (s : State) : State :=
  let s := if s.sfState = 3 ∧ s.rampEnded then s.sfCause 4 true else s
  if s.sfState = 2 then
    match s.firstSdc, s.sf.latched with
    | some c, _ => s.sdc c
    | none, c :: _ => s.srsStart c.1
    | none, [] => if s.rdB SF_STAT SF_STAT_GKILL then s.sfOutputsOn true else s
  else if s.sfState = 3 then
    match s.firstSdc with
    | some c => s.sdc c
    | none => if s.rdB SF_STAT SF_STAT_GKILL then s.sfOutputsOn false else s
  else s

/-- SAFETY_CYCLE: every 1 ms causes, readback and resets are evaluated and the outputs driven; `hc` and `lc` are the
channels' on-states as the power die returns them (R350 to R352, R356 to R358, R365, R367). -/
def execSafetyCycle (s : State) (hc : Fin 4096) (lc : Fin 64) (t : Nat) : Host.Outcome State Fault Refusal :=
  let s := s.at t
  if s.sfState = 0 then .next s
  else
    let was := s.sfState
    let s := ((s.sealCycle).readback hc lc).proofCycle hc lc
    let s := s.sfTransit
    let s := (List.range 12).foldl (fun s r => s.updSfStr r (fun c => { c with got := false, above := false })) s
    let press := s.sf.press
    let s := if press then s.sfResetEval was else s
    .next ({ s with sf := { s.sf with press := false, request := false, newCause := none } }).sfFault

/-- SF_INTERNAL_FAULT: comparator mismatch, uncorrectable SF SRAM word or safety clock fault (R346, R347). -/
def execSfInternalFault (s : State) (t : Nat) : Host.Outcome State Fault Refusal := .next (s.at t).sfInternal

/-- SF_ALIVE_TIMEOUT: the output stage alone asserts GATE_KILL and turns every LC input off (R348). -/
def execSfAliveTimeout (s : State) (t : Nat) : Host.Outcome State Fault Refusal :=
  let s := s.at t
  let s := (s.wr SF_STAT SF_STAT_GKILL 1).wr SF_STAT SF_STAT_LCOFF 1
  .next ({ s with out := { s.out with lcWire := 0 } }).lsSyncAll

/-- ROM_CHECK: a failed check of the safety kernel ROM is an internal fault (R346). -/
def execRomCheck (s : State) (ok : Bool) (t : Nat) : Host.Outcome State Fault Refusal :=
  let s := s.at t
  .next (if ok then s else s.sfInternal)

/-- PROOF_DUE: a path unproven for TPROOF (R351). -/
def execProofDue (s : State) (t : Nat) : Host.Outcome State Fault Refusal :=
  let s := s.at t
  let lim := s.set16 46 * 3600 * sec
  if s.sf.set ≠ [] ∧ ¬ s.rdB SF_STAT SF_STAT_PRDUE ∧
      (List.range 7).any (fun i => decide (Tab.get 0 s.sf.proven i + lim ≤ s.now)) then
    let now := s.now
    let s := { s with sf := { s.sf with dueAt := now } }
    .next ((s.wr SF_STAT SF_STAT_PRDUE 1).raise srcSF EV_SF_PROOF_DUE [0])
  else .next s

/-! ## Pairs and test pulses (R353, R354) -/

/-- PAIR_INPUT_CHANGE: a channel's level has held for t_f and counts (R353); `b` tells channel B. -/
def execPairInputChange (s : State) (n : Fin 8) (b level : Bool) (t : Nat) : Host.Outcome State Fault Refusal :=
  let s := s.at t
  .next ((s.wrBit SF_IN_STAT ((if b then 24 else 16) + n) level).pairEval n)

/-- PAIR_DISCREPANCY: the channels of a pair have disagreed for longer than its discrepancy time (R353). -/
def execPairDiscrepancy (s : State) (n : Fin 8) (t : Nat) : Host.Outcome State Fault Refusal :=
  let s := s.at t
  match (s.pair n).disagree with
  | none => .next s
  | some t0 =>
    if t0 + s.set8 (15 + 4 * n) * 10 * ms < s.now ∧ ¬ s.pairFaulted n ∧ s.pairFn n ≠ 0 then
      .next ((s.raise srcSFIO EV_SF_DISCREP [n]).pairFault n 12)
    else .next s

/-- One tested channel after a pulse of its STP output (R354). -/
def State.pulseChannel (s : State) (n : Nat) (b ok : Bool) : State :=
  if ok then
    (s.updPair n (fun x => if b then { x with goodB := satAdd x.goodB 1 3 } else { x with goodA := satAdd x.goodA 1 3 })).pairClear n
  else
    let s := s.updPair n (fun x => if b then { x with goodB := 0, pulse := true } else { x with goodA := 0, pulse := true })
    (s.raise srcSFIO EV_SF_TESTPULSE [n + 8 * b2n b]).pairFault n 13

/-- TEST_PULSE: STPk pulses low; bit n of `ok` tells that channel A of pair n followed it in time with no stray low, bit
8 + n the same of channel B. Only channels that read high and are fed from STPk are tested (R354). -/
def execTestPulse (s : State) (k : Fin 4) (ok : Fin 65536) (t : Nat) : Host.Outcome State Fault Refusal :=
  let s := s.at t
  .next ((List.range 8).foldl (fun s n =>
    let cfg := s.set8 (13 + 4 * n)
    if s.pairFn n = 0 ∨ ¬ bit cfg 4 then s
    else
      let s := if cfg % 4 = k.val ∧ bit (s.rd SF_IN_STAT SF_IN_STAT_RAWA) n then s.pulseChannel n false (bit ok n) else s
      if cfg / 4 % 4 = k.val ∧ bit (s.rd SF_IN_STAT SF_IN_STAT_RAWB) n then s.pulseChannel n true (bit ok (8 + n)) else s) s)

/-! ## Safe Ramp Stop (R358) -/

/-- SRS_TIMEOUT: SRSTMAX has passed since t_r (R358). -/
def execSrsTimeout (s : State) (t : Nat) : Host.Outcome State Fault Refusal :=
  let s := s.at t
  if s.sfState = 3 ∧ s.sf.tR + s.set16 54 * ms ≤ s.now then .next ((s.sfCause 19 true).sdc 19) else .next s

/-- SRS_CURRENT_LOST: no valid stream sample of some string for 5 ms (R358). -/
def execSrsCurrentLost (s : State) (t : Nat) : Host.Outcome State Fault Refusal :=
  let s := s.at t
  if s.sfState = 3 ∧ s.sfStrings.any (fun x => decide ((s.sfStr x.1).lastAt + 5 * ms ≤ s.now)) then
    .next ((s.sfCause 20 true).sdc 20)
  else .next s

/-! ## Copies (R359 to R362) -/

/-- SF_RECORD_COPY: the oldest record copy on its way reaches SF; one whose record CRC fails there counts as missing
(R359, R360). -/
def execSfRecordCopy (s : State) (ok : Bool) (t : Nat) : Host.Outcome State Fault Refusal :=
  let s := s.at t
  match s.lnk.sfCopies with
  | [] => .next s
  | (p, q, body) :: rest =>
    let s := { s with lnk := { s.lnk with sfCopies := rest } }
    if ¬ ok ∨ s.sf.set = [] then .next s
    else if frameType body = 0x80 then .next (if s.sceExpected p q then s.sceCopy p q body else s)
    else match s.sfStrings.find? (fun x => x.2.1 == p && x.2.2 == q) with
      | some x => .next (if frameType body = 0x81 then s.streamCopy x.1 body else s)
      | none => .next s

/-- SCE_STALE: no valid copy of an expected node for SSTALE (R360). -/
def execSceStale (s : State) (p : Fin 18) (i : Fin 64) (t : Nat) : Host.Outcome State Fault Refusal :=
  let s := s.at t
  let k := p.val * 64 + i.val
  let last := Nat.max (s.sce k).lastAt s.sf.loadAt
  if s.sf.set ≠ [] ∧ s.sceExpected p (i + 1) ∧ last + s.set16 752 * ms ≤ s.now ∧ ¬ (s.sce k).stale then
    .next (((s.updSce k (fun x => { x with stale := true })).raise srcSFIO EV_SF_SCE [p.val * 1152 + i.val * 18, 0]).sfCause 8 false)
  else .next s

/-- SF_VERDICT_COPY: the oldest verdict copy reaches SF; INHIBIT, OPEN or FORCE starts an execution check (R362). -/
def execSfVerdictCopy (s : State) (t : Nat) : Host.Outcome State Fault Refusal :=
  let s := s.at t
  match s.trip.sfCopies with
  | [] => .next s
  | v :: rest =>
    let s := { s with trip := { s.trip with sfCopies := rest } }
    if v.on ∧ 4 ≤ s.srcAct v then
      .next { s with sf := { s.sf with
        execs := s.sf.execs ++ [⟨s.now + 5 * ms, s.scopeMask (s.srcScope v) v.native⟩] } }
    else .next s

/-- Whether every string of a mask reads parked, inhibited, opening or open (R362). -/
def State.execHeld (s : State) (mask : Nat) : Bool :=
  (List.range 12).all (fun r => !bit mask r || within_ (s.rd (PW_TRIP_STR r) PW_TRIP_STR_STATE) 3 6)

/-- EXEC_CHECK_TIMEOUT: 5 ms after a copy a string of its scope is not stopped (R362). -/
def execExecCheckTimeout (s : State) (t : Nat) : Host.Outcome State Fault Refusal :=
  let s := s.at t
  let due := s.sf.execs.filter (fun e => decide (e.due ≤ s.now))
  let now := s.now
  let s := { s with sf := { s.sf with execs := s.sf.execs.filter (fun e => !decide (e.due ≤ now)) } }
  if due.any (fun e => !s.execHeld e.strings) then .next (s.sfCause 18 true) else .next s

/-! ## Reset inputs and straps (R364, R367) -/

/-- Whether a press of both inputs is valid: instants of activation and release of each, ps (R364). -/
def pressValid (a b : Option (Nat × Nat)) : Bool :=
  match a, b with
  | some (a0, a1), some (b0, b1) =>
    let len := Nat.min a1 b1 - Nat.max a0 b0
    decide (dist a0 b0 ≤ 50 * ms ∧ dist a1 b1 ≤ 50 * ms ∧ 200 * ms ≤ len ∧ len ≤ 3 * sec)
  | _, _ => false

/-- RESET_PRESS: the later release of SRST_A and SRST_B; a valid press waits for the next safety cycle (R364, R365). -/
def execResetPress (s : State) (a b : Option (Nat × Nat)) (t : Nat) : Host.Outcome State Fault Refusal :=
  let s := (s.at t).wr SF_IO_STAT SF_IO_STAT_SRST 0
  if s.rdB SF_IO_STAT SF_IO_STAT_RSTUCK then .next s
  else if pressValid a b then .next { s with sf := { s.sf with press := true } }
  else .next (s.sfResetRefused (s.sfActive.headD 0))

/-- The reset inputs count as stuck (R364). -/
def State.resetStuck (s : State) : State :=
  if s.rdB SF_IO_STAT SF_IO_STAT_RSTUCK then s
  else ((s.wr SF_IO_STAT SF_IO_STAT_RSTUCK 1).raise srcSFIO EV_SF_RST_STUCK [0]).sfFault

/-- RESET_STUCK: an input has been active for more than 3 s; `active` has bit 0 for SRST_A, bit 1 for SRST_B (R364). -/
def execResetStuck (s : State) (active : Fin 4) (t : Nat) : Host.Outcome State Fault Refusal :=
  .next ((s.at t).wr SF_IO_STAT SF_IO_STAT_SRST active).resetStuck

/-- RESET_STUCK_CLEAR: both inputs have been inactive for 1 s (R364). -/
def execResetStuckClear (s : State) (t : Nat) : Host.Outcome State Fault Refusal :=
  let s := (s.at t).wr SF_IO_STAT SF_IO_STAT_SRST 0
  .next (s.wr SF_IO_STAT SF_IO_STAT_RSTUCK 0).sfFault

/-- SEAL_CHANGE: the straps read other levels (R366, R367). -/
def execSealChange (s : State) (seal_ sealn : Fin 256) (t : Nat) : Host.Outcome State Fault Refusal :=
  let s := s.at t
  let old := s.rd SF_IO_STAT SF_IO_STAT_SEAL
  let s := (s.wr SF_IO_STAT SF_IO_STAT_SEAL seal_).wr SF_IO_STAT SF_IO_STAT_SEALN sealn
  let s := s.wr SF_STAT SF_STAT_SWE (b2n (bit seal_ 4))
  let odd := decide (seal_.val / 32 ≠ 5)
  if s.sfState ≠ 0 ∧ (odd ∨ (2 ≤ s.sfState ∧ old % 16 ≠ seal_.val % 16)) then
    let s := { s with sf := { s.sf with sealFlt := odd || s.sf.sealFlt } }
    .next ((s.sfCause 14 true).raise srcSFIO EV_SF_SEAL [14])
  else .next s

/-! ## Connections (R372 to R374) -/

/-- A connection fault: it returns to start and counts as carrying 0 in every bit (R372, R373). -/
def State.connFault (s : State) (n code : Nat) : State :=
  let now := s.now
  let s := (s.wr (SF_CON_STAT n) SF_CON_STAT_CSTATE 3).wr (SF_CON_STAT n) SF_CON_STAT_LASTF code
  let s := s.updConn n (fun c => { c with sdcOk := false, srsOk := false, press := none, at_ := now })
  ((s.raise srcSFL EV_SF_CONN_FAULT [n, code]).sfCause 10 true).sfFault

/-- The remote reset bit of an accepted frame (R374). -/
def State.remoteReset (s : State) (n : Nat) (on : Bool) : State :=
  let now := s.now
  if ¬ bit (s.set8 7) 1 then s
  else match (s.conn n).press, on with
    | none, true => s.updConn n (fun c => { c with press := some now })
    | none, false => s
    | some t0, true => if t0 + 3 * sec < s.now then s.resetStuck else s
    | some t0, false =>
      let s := s.updConn n (fun c => { c with press := none })
      if t0 + 200 * ms ≤ s.now ∧ s.now ≤ t0 + 3 * sec then { s with sf := { s.sf with press := true } } else s

/-- An accepted frame's payload (R373). -/
def State.connPayload (s : State) (n b : Nat) : State :=
  let s := s.updConn n (fun c => { c with sdcOk := bit b 0, srsOk := bit b 1 })
  let s := if bit b 0 then s else s.sfCause 9 true
  let s := if bit b 1 then s else s.sfCause 9 false
  (s.remoteReset n (bit b 2)).sfFault

/-- A frame accepted: sequence, stamp, offset, and the connection runs (R372). -/
def State.connAccept (s : State) (n seq stamp : Nat) (offset : Int) (b : Nat) : State :=
  let now := s.now
  let s := s.updConn n (fun c => { c with seq := seq, stamp := stamp, offset := offset, at_ := now })
  (s.wr (SF_CON_STAT n) SF_CON_STAT_CSTATE 2).connPayload n b

/-- Checks 3 to 5 on a running connection (R372). -/
def State.connRunning (s : State) (n seq stamp b : Nat) : State :=
  let c := s.conn n
  let dseq := (seq + 65536 - c.seq) % 65536
  let dst := (stamp + 2 ^ 32 - c.stamp) % 2 ^ 32
  let span : Int := (5000 * 2 ^ 32 : Nat)
  let x := ((((s.sfUs : Int) - stamp) * 5000 - c.offset) % span + span) % span
  let d := if 2 * x < span then x else x - span
  if dseq = 0 then s.updConn n (fun c => { c with repeats := c.repeats + 1 })
  else if s.set8 (connBase n + 14) < dseq then s.connFault n 2
  else if dst < 1 ∨ 2 ^ 31 < dst then s.connFault n 3
  else if ((s.set16 (connBase n + 10) * 1000 * 5000 : Nat) : Int) < d then s.connFault n 4
  else
    let s := s.wr (SF_CON_STAT n) SF_CON_STAT_LOSTN (satAdd (s.rd (SF_CON_STAT n) SF_CON_STAT_LOSTN) (dseq - 1) 255)
    let o := (if d < 0 then c.offset + d else c.offset) + ((s.now - c.at_) / us : Nat)
    s.connAccept n seq stamp o b

/-- A frame written to the mailbox is checked (R372). -/
def State.zenmomor (s : State) (f : List Nat) : State :=
  let id := beField f 0 2
  match (List.range 32).find? (fun n => s.connUsed n && !s.connProducer n && s.connId n == id) with
  | none => { s with sf := { s.sf with discarded := s.sf.discarded + 1 } }
  | some n =>
    let l := s.connLen n
    let good := decide (12 + l ≤ f.length) && crc32c (s.connSeed n ++ f.take (8 + l)) == beField f (8 + l) 4
    if ¬ good then s.connFault n 1
    else
      let seq := beField f 2 2
      let stamp := beField f 4 4
      let b := beField f 8 1
      if s.connState n = 2 then s.connRunning n seq stamp b
      else s.connAccept n seq stamp (((s.sfUs : Int) - stamp) * 5000) b

/-- The bytes of the receive mailbox. -/
def State.mbxBytes (s : State) (n : Nat) : List Nat :=
  ((List.range 16).flatMap (fun i => bytesLE (s.reg (SF_MBX_RX i)).toNat 4)).take n

/-- The effect of an accepted write of GO: the engine takes the frame (R376). -/
def State.mbxGo (s : State) (len : Nat) : State := s.zenmomor (s.mbxBytes len)

/-- CONN_WATCHDOG: no frame accepted for T_wd (R372). -/
def execConnWatchdog (s : State) (n : Fin 32) (t : Nat) : Host.Outcome State Fault Refusal :=
  let s := s.at t
  if s.connUsed n ∧ ¬ s.connProducer n ∧ s.connState n ≠ 3 ∧ (s.conn n).at_ + s.connWd n * ms ≤ s.now then
    .next (s.connFault n 5)
  else .next s

/-! ## Producers (R375, R376) -/

/-- Payload of a producer frame (R375). -/
def State.producerPayload (s : State) (n : Nat) : List Nat :=
  let st := s.sfState
  let b0 := b2n (s.rdB SF_STAT SF_STAT_SOK) + 2 * b2n (decide (st = 1)) + 4 * b2n (decide (st = 3)) +
    8 * s.rd SF_STAT SF_STAT_SFAULT + 16 * s.rd SF_STAT SF_STAT_PRDUE
  let pairs := (List.range 8).foldl (fun m i =>
    if bit (s.rd SF_IN_STAT SF_IN_STAT_DEMAND) i ∨ s.pairFaulted i then m + 2 ^ i else m) 0
  ([b0, s.rd SF_STAT SF_STAT_CAUSE, s.rd SF_STAT SF_STAT_SET, pairs] ++ List.replicate (s.connLen n - 4) 0)

/-- A frame of a producer connection with its check value (R370, R371). -/
def State.producerFrame (s : State) (n : Nat) : List Nat :=
  let head := beBytes (s.connId n) 2 ++ beBytes ((s.conn n).nextSeq % 65536) 2 ++ beBytes (s.sfUs % 2 ^ 32) 4
  let f := head ++ s.producerPayload n
  f ++ beBytes (crc32c (s.connSeed n ++ f)) 4

/-- The next waiting frame is presented, when none is (R376). -/
def State.mbxPresent (s : State) : State :=
  if s.rdB SF_MBX_TXCTL SF_MBX_TXCTL_TXRDY then s
  else match s.sf.txq with
    | [] => s
    | (n, f) :: rest =>
      let s := { s with sf := { s.sf with txq := rest } }
      let s := (List.range 16).foldl (fun s i =>
        s.setReg (SF_MBX_TX i) (BitVec.ofNat 32 (ofBytesLE ((f.drop (4 * i)).take 4)))) s
      let s := (s.wr SF_MBX_TXCTL SF_MBX_TXCTL_TXCON n).wr SF_MBX_TXCTL SF_MBX_TXCTL_TXLEN f.length
      s.wr SF_MBX_TXCTL SF_MBX_TXCTL_TXRDY 1

/-- The oldest frame of a connection replaced by a newer one, in its place. -/
def replaceOldest (n : Nat) (f : List Nat) : List (Nat × List Nat) → List (Nat × List Nat)
  | [] => []
  | e :: es => if e.1 = n then (n, f) :: es else e :: replaceOldest n f es

/-- PRODUCER_FRAME: the frame of a producer period waits in the transmit queue (R375). -/
def execProducerFrame (s : State) (n : Fin 32) (t : Nat) : Host.Outcome State Fault Refusal :=
  let s := s.at t
  if s.connUsed n ∧ s.connProducer n then
    let f := s.producerFrame n
    let s := s.updConn n (fun c => { c with nextSeq := c.nextSeq + 1 })
    let q := if s.sf.txq.length < Config.mailboxDepth then s.sf.txq ++ [(n.val, f)] else replaceOldest n f s.sf.txq
    .next ({ s with sf := { s.sf with txq := q } }).mbxPresent
  else .next s

/-- The effect of a write of TXACK: the next frame is presented (R376). -/
def State.mbxAck (s : State) : State := ((s.wr SF_MBX_TXCTL SF_MBX_TXCTL_TXRDY 0).mbxPresent)

/-- The effect of an accepted write of REQ: a program cause (R377). -/
def State.mbxReq (s : State) (req : Nat) : State :=
  ({ s with sf := { s.sf with request := true } }).sfCause 11 (req == 1)

end Sys2Proof.Machine
end

