-- ==== Sys2Proof/Machine/Supervisor.lean ====
section
/-!
DEFINITION. The commands of chapter 18: supplies, power failure, the reset sources, the output hold, clocks, the RTC, die
temperature; and the release of resets (R18, R149 to R151, R232, R446, R495).
-/

namespace Sys2Proof.Machine

/-! ## Supplies (R470, R471) -/

/-- The bit of a rail in `SV_SUP_STAT` and in the rails mask; its number in events (log 16). -/
def railBit : Rail → Nat
  | .vcore => 0
  | .vddm => 1
  | .vio18 => 2
  | .vio33 => 3
  | .vbat => 4

/-- A rail recorded inside or outside its thresholds; VBAT low while every other rail is off makes the RTC invalid (R485). -/
def State.railSet (s : State) (r : Rail) (ok : Bool) : State :=
  let s := s.wrBit SV_SUP_STAT (railBit r) ok
  let i := railBit r
  let rails := if i = 4 then s.sv.rails else s.sv.rails - b2n (bit s.sv.rails i) * 2 ^ i + b2n ok * 2 ^ i
  let vbat := s.rdB SV_SUP_STAT SV_SUP_STAT_VBATOK
  { s with sv := { s.sv with rails := rails, rtcBad := s.sv.rtcBad || (decide (rails = 0) && !vbat) } }

/-- EV_SV_SUPPLY with the rail. -/
def State.supplyNote (s : State) (r : Rail) : State := s.raise srcSV EV_SV_SUPPLY [railBit r]

/-- A rail crosses a threshold and the supervisor reacts as its row states (R470). -/
def execSupplyFault (s : State) (rail : Rail) (lev : Level) (t : Nat) : Host.Outcome State Fault Refusal :=
  let s := (s.at t).railSet rail (decide (lev = .inside))
  match rail, lev with
  | .vbat, _ => .next s
  | _, .inside => .next s
  | .vcore, .under => .next ((s.supplyNote rail).requestReset 1 0)
  | .vddm, .under => .next ((s.supplyNote rail).requestReset 1 0)
  | .vio33, .under => .next ((s.supplyNote rail).requestReset 3 0)
  | _, _ => .next ((s.supplyNote rail).requestReset 3 1)

/-- 2 ms after the last rail crossed its threshold, with the crystal running and the PLLs locked (R471, R495): what the
supervisor sees of VBAT over the outage, of the 32.768 kHz crystal and of the system rail in 10 mV. -/
def execPowerOnRelease (s : State) (vbat x32 : Bool) (vsys : Fin 65536) (t : Nat) : Host.Outcome State Fault Refusal :=
  let s := s.at t
  if s.sv.resetAt.isNone then .next s
  else
    let s := [Rail.vcore, .vddm, .vio18, .vio33].foldl (fun s r => s.railSet r true) s
    let s := (s.railSet .vbat vbat).wr SV_SUP_STAT SV_SUP_STAT_VSYS vsys.val
    let s := ((s.wr SV_CLK_STAT SV_CLK_STAT_XTAL 1).wr SV_CLK_STAT SV_CLK_STAT_LOCK 15).wr SV_CLK_STAT SV_CLK_STAT_X32 (b2n x32)
    .next { s with sv := { s.sv with test := false, rtcBad := s.sv.rtcBad || !vbat } }

/-! ## Power failure (R472 to R474) -/

/-- The rail has stayed below `PFTH` for 5 µs (R472). -/
def execPowerFail (s : State) (vsys : Fin 65536) (t : Nat) : Host.Outcome State Fault Refusal :=
  let s := (s.at t).wr SV_SUP_STAT SV_SUP_STAT_VSYS vsys.val
  if s.sv.pf ∨ s.rd SV_PF_CFG SV_PF_CFG_PFTH * 10 ≤ vsys.val then .next s
  else
    let now := s.now
    let s := { s with sv := { s.sv with pf := true, pfAt := some now, railOkAt := none } }
    let s := ((s.wr SV_SUP_STAT SV_SUP_STAT_PF 1).hit SV_EVT SV_EVT_PF SV_CNT SV_CNT_PFN).raise srcSV EV_SV_POWER_FAIL [vsys.val]
    if s.sv.resetAt.isSome then .next s
    else
      let s := s.commitTrigger
      let s := (List.range 12).foldl (fun s r => s.inhibitAct r) s
      .next ((List.range 16).foldl (fun (s : State) v =>
        if (s.grain (vecSrc v)).run = .running then s.updGrain (vecSrc v) (fun g => { g with run := .halted }) else s) s)

/-- The rail has stayed above `PFTH` + `PFHYS` since an instant: after 100 ms of it from EV_LED_PF_COMMIT on the chip is
reset with cause 8; while the chip is held in reset, 100 ms end the hold (R473, R474). -/
def execPowerFailRecovery (s : State) (vsys : Fin 65536) (since t : Nat) : Host.Outcome State Fault Refusal :=
  let s := (s.at t).wr SV_SUP_STAT SV_SUP_STAT_VSYS vsys.val
  if ¬ s.sv.pf ∨ vsys.val ≤ (s.rd SV_PF_CFG SV_PF_CFG_PFTH + s.rd SV_PF_CFG SV_PF_CFG_PFHYS) * 10 then .next s
  else
    let s := s.wr SV_SUP_STAT SV_SUP_STAT_PF 0
    let s := { s with sv := { s.sv with railOkAt := some since } }
    if s.sv.resetAt.isSome then
      .next (if since + 100 * ms ≤ s.now then { s with sv := { s.sv with pf := false } } else s)
    else
      match s.led.commitDone with
      | some d =>
        if Nat.max since d + 100 * ms ≤ s.now then
          .next (({ s with sv := { s.sv with pf := false } }).requestReset 8 1)
        else .next s
      | none => .next s

/-! ## The output hold (R476, R477) -/

/-- t_hold runs out without a reclaim (R149, R477). -/
def execHoldExpire (s : State) (t : Nat) : Host.Outcome State Fault Refusal :=
  let s := s.at t
  match s.sv.holdAt with
  | some t0 =>
    if t0 + s.rd SV_HOLD_CTL SV_HOLD_CTL_THOLD * 10 * ms ≤ s.now then
      let s := { s with sv := { s.sv with holdAt := none }, out := { s.out with ioInputs := true } }
      let s := s.wr SV_HOLD_CTL SV_HOLD_CTL_HOLDING 0
      .next ((((s.stringSource 30 0 none true).stringSource 30 0 none false).tripFlush).stopTimers (fun _ => true))
    else .next s
  | none => .next s

/-- `RECLAIM` is refused outside a hold and once the orphan sequence has started (R477). -/
def State.reclaimBad (s : State) : Bool := s.sv.holdAt.isNone

/-- The effect of `RECLAIM` (R476). -/
def State.reclaim (s : State) : State :=
  let s := { s with sv := { s.sv with holdAt := none } }
  (s.wr SV_HOLD_CTL SV_HOLD_CTL_HOLDING 0).raise srcSV EV_SV_RECLAIM [0]

/-! ## RESET_N and TEST_N (R479, R480, R495) -/

/-- A low on RESET_N is accepted (R479). -/
def execResetNLow (s : State) (t : Nat) : Host.Outcome State Fault Refusal :=
  let s := s.at t
  if s.sv.lowAt.isSome then .next s
  else
    let now := s.now
    let s := { s with sv := { s.sv with lowAt := some now } }
    .next (s.requestReset 2 1)

/-- RESET_N is seen high: the counter of its low time stops (R480). -/
def execResetNHigh (s : State) (t : Nat) : Host.Outcome State Fault Refusal :=
  let s := s.at t
  match s.sv.lowAt with
  | some t0 =>
    let now := s.now
    let n := Nat.min (2 ^ 32 - 1) ((now - t0) / ms)
    let mine : Bool := if s.sv.resetAt.isSome then s.rd SV_RST_STAT SV_RST_STAT_CAUSE == 2 else s.sv.cause == 2 ||
      (s.sv.deferred.map (fun d => d.1)) == some 2
    let s := { s with sv := { s.sv with lowAt := none, highAt := now, owedHeld := some n } }
    .next (if mine then s.setReg SV_RST_HOLD (BitVec.ofNat 32 n) else s)
  | none => .next s

/-- A low pulse shorter than 2 µs is ignored and counted (R479). -/
def execResetNGlitch (s : State) (t : Nat) : Host.Outcome State Fault Refusal :=
  .next ((s.at t).bump SV_RST_STAT SV_RST_STAT_GLITCHN)

/-- TEST_N low for 1 µs (R495). -/
def execTestNLow (s : State) (t : Nat) : Host.Outcome State Fault Refusal :=
  let s := s.at t
  let s := { s with sv := { s.sv with test := true } }
  .next (s.requestReset 1 0)

/-! ## The reset sequences (R150, R151) -/

/-- Every HC channel is off, or 5 ms have passed (R150). -/
def execPreseqComplete (s : State) (t : Nat) : Host.Outcome State Fault Refusal := .next (s.at t).preseqEnd

/-- PW cannot carry out the pre-sequence that was asked of it: PW is reset and its channels are held; 5 ms later the chip
reset is asserted (R151). -/
def execPwResetHold (s : State) (t : Nat) : Host.Outcome State Fault Refusal :=
  let s := s.at t
  match s.trip.pwHoldAt with
  | some t0 => .next (if t0 + 5 * ms ≤ s.now then s.chipReset s.sv.cause else s)
  | none => .next (if s.trip.preseqAt.isSome then s.pwHold s.sv.cause else s)

/-- A PS reset completes (R18). -/
def execPsResetComplete (s : State) (t : Nat) : Host.Outcome State Fault Refusal :=
  let s := s.at t
  .next (if s.psReset then s.regionUp 5 else s)

/-! ## Boot (R446, R484, R485) -/

/-- Whether nothing holds the chip in reset (R471, R474, R479, R480, R488, R495). -/
def State.releasable (s : State) : Bool :=
  match s.sv.resetAt with
  | none => false
  | some t0 =>
    s.sv.rails == 15 && s.sv.lowAt.isNone && !s.sv.pf && s.sv.hotDie == 0 && !s.sv.test &&
      (s.rd SV_RST_STAT SV_RST_STAT_CAUSE != 2 || (decide (s.sv.highAt + 2 * us ≤ s.now) && decide (t0 + 100 * us ≤ s.now)))

/-- The machine at a chip time that may lie before the present one: what is timed from the past counts from it. -/
def State.restartTime (s : State) (n : Nat) : State :=
  { s with
    now := n
    led := { s.led with wearSince := Nat.min s.led.wearSince n, scrubAt := Nat.min s.led.scrubAt n }
    fab := { s.fab with sramScrubAt := Nat.min s.fab.sramScrubAt n }
    trip := { s.trip with cfbSince := s.trip.cfbSince.map (fun p => (p.1, Nat.min p.2 n)) }
    boot := { s.boot with lock := s.boot.lock.map (fun l => (n, l.2)) }
    sv := { s.sv with
      rtc := n / 1000, rtcAt := n, sfReports := s.sv.sfReports.map (fun x => Nat.min x n),
      soundAt := s.sv.soundAt.map (fun p => (p.1, p.2.map (fun x => Nat.min x n))),
      coolAt := s.sv.coolAt.map (fun p => (p.1, p.2.map (fun x => Nat.min x n))) } }

/-- A chip reset is released: chip time starts at the RTC, rounded up to 2.5 ns, or at 0 when it is invalid (R484, R485). -/
def execChipResetRelease (s : State) (t : Nat) : Host.Outcome State Fault Refusal :=
  let s := s.at t
  if ¬ s.releasable then .next s
  else
    let bad := s.sv.rtcBad
    let n := if bad then 0 else (s.rtcNow * 1000 + 2499) / 2500 * 2500
    let s := (s.restartTime n).wr SV_SUP_STAT SV_SUP_STAT_RTCLOST (b2n bad)
    .next { s with sv := { s.sv with resetAt := none, owedRtc := bad, rtcBad := false } }

/-- PS recovers, and the boot block starts control grain 0 on the boot ROM: `jalr g0, g0, 0x0100` in word 0 (R440, R446). -/
def execPsBootRecovery (s : State) (t : Nat) : Host.Outcome State Fault Refusal :=
  let s := s.at t
  if s.sv.resetAt.isSome ∨ s.boot.psUp then .next s
  else
    let s := s.bootRecovery
    let s := { s with boot := { s.boot with psUp := true } }
    .next ((s.storeLE (aliasBase 0x300) 4 0xA8000100).grainInit 0x300 .running)

/-- The self-test of vector grain v ends; a grain that fails stays quarantined (R232). -/
def execVectorSelftestDone (s : State) (v : Fin 16) (ok : Bool) (t : Nat) : Host.Outcome State Fault Refusal :=
  let s := s.at t
  let src := vecSrc v.val
  if (s.grain src).run ≠ .unstarted then .next s
  else if ok then .next (s.wrBit (ES_VB_STAT (v.val / 4)) (v.val % 4) true)
  else
    let s := s.wrBit (ES_VB_STAT (v.val / 4)) (v.val % 4) false
    let s := (s.updGrain src (fun g => { g with run := .quarantined })).updUnit src (fun u => { u with phase := .stays })
    .next (s.raise src EV_VEC_SELFTEST_FAIL [src])

/-! ## Clocks and the RTC (R482 to R485) -/

/-- A clock fault with the oscillator concerned: EV_SV_CLOCK and the reset of R151 (R482). -/
def State.clockFault (s : State) (osc : Nat) : State := (s.raise srcSV EV_SV_CLOCK [osc]).requestReset 4 2

/-- The crystal stopped, or a PLL lost lock (R482). -/
def execClockFault (s : State) (why : ClockLoss) (t : Nat) : Host.Outcome State Fault Refusal :=
  let s := s.at t
  match why with
  | .crystal => .next ((s.wr SV_CLK_STAT SV_CLK_STAT_XTAL 0).clockFault 1)
  | .core => .next ((s.wrBit SV_CLK_STAT 0 false).clockFault 4)
  | .fabric => .next ((s.wrBit SV_CLK_STAT 1 false).clockFault 5)
  | .pwm => .next ((s.wrBit SV_CLK_STAT 2 false).clockFault 6)

/-- Whether two counts differ by no more than a percentage of the larger (R483). -/
def within (p a b : Nat) : Bool := decide ((Nat.max a b - Nat.min a b) * 100 ≤ p * Nat.max a b)

/-- The outcome of a window: 1 to 3 the outlier, 4 no pair agrees, else 0 (R483). -/
def voteOf (x f m : Nat) : Nat :=
  if within 10 f m && !within 15 x f && !within 15 x m then 1
  else if within 10 x m && !within 15 f x && !within 15 f m then 2
  else if within 10 x f && !within 15 m x && !within 15 m f then 3
  else if !within 10 x f && !within 10 x m && !within 10 f m then 4
  else 0

/-- A window of the oscillator vote, with the counts of crystal, safety and monitor oscillator referred to their nominal
frequencies; two windows in a row decide (R483). -/
def execOscVoteWindow (s : State) (x f m : Nat) (t : Nat) : Host.Outcome State Fault Refusal :=
  let s := s.at t
  let v := voteOf x f m
  let n := if v = s.sv.vote then Nat.min 3 (s.sv.voteN + 1) else 1
  let s := { s with sv := { s.sv with vote := v, voteN := n } }
  if n < 2 then .next s
  else
    let s := if v = 4 then (s.drew 1).wr SV_CLK_STAT SV_CLK_STAT_VOTE (s.freeNat % 4) else s.wr SV_CLK_STAT SV_CLK_STAT_VOTE v
    if n ≠ 2 ∨ v = 0 then .next s
    else
      let s := if v = 4 then s else s.hit SV_EVT SV_EVT_CLKVOTE SV_CNT SV_CNT_CLKVOTEN
      if v = 1 then .next (s.clockFault 1)
      else if v = 2 then .next s.sfInternal
      else if v = 3 then .next (s.raise srcSV EV_SV_CLOCK [3])
      else .next ((s.sfInternal).clockFault 0)

/-- Once every second of chip time the RTC is loaded with it (R484). -/
def execRtcLoad (s : State) (t : Nat) : Host.Outcome State Fault Refusal :=
  let s := s.at t
  if s.sv.resetAt.isSome ∨ s.now < s.sv.rtcAt + sec then .next s
  else
    let now := s.now
    .next { s with sv := { s.sv with rtc := now / 1000, rtcAt := now, rtcBad := false } }

/-! ## Die temperature (R233, R486 to R488) -/

/-- The die of a sensor: 0 controller, 1 power; the sensors of a die. -/
def dieOf (n : Nat) : Nat := if n < 9 then 0 else 1
def sensorsOf (d : Nat) : List Nat := if d = 0 then [0, 1, 2, 3, 4, 5, 6, 7, 8] else [9, 10, 11, 12]

/-- The threshold at which band b begins on a die, 0.01 °C (R487). -/
def bandAt (d b : Nat) : Int :=
  if d = 0 then (if b = 1 then 7000 else if b = 2 then 9500 else if b = 3 then 11000 else 12500)
  else (if b = 1 then 9500 else if b = 2 then 12000 else if b = 3 then 13500 else 15000)

def State.brokenS (s : State) (n : Nat) : Bool := bit (s.rd SV_TH_STAT SV_TH_STAT_BROKEN) n
def State.tempS (s : State) (n : Nat) : Int := Tab.get 0 s.sv.temp n

/-- The highest reading of a die's sensors that are not broken. -/
def State.hottest (s : State) (d : Nat) : Int :=
  (sensorsOf d).foldl (fun m n => if s.brokenS n then m else if m < s.tempS n then s.tempS n else m) (-27315)

/-- The band that a die's readings select; a broken sensor forces B4. -/
def State.bandWanted (s : State) (d : Nat) : Nat :=
  if (sensorsOf d).any s.brokenS then 4
  else ([1, 2, 3, 4].filter (fun b => decide (bandAt d b ≤ s.hottest d))).length

/-- The field of a die's band. -/
def bandFld (d : Nat) : Fld := if d = 0 then SV_TH_STAT_CBAND else SV_TH_STAT_PBAND

/-- The band in force follows the dies' bands; a change is recorded, and by the vector blocks too (R233, R487). -/
def State.bandSync (s : State) : State :=
  let b := Nat.max (s.rd SV_TH_STAT SV_TH_STAT_CBAND) (s.rd SV_TH_STAT SV_TH_STAT_PBAND)
  if b = s.rd SV_TH_STAT SV_TH_STAT_BAND then s
  else
    let s := s.wr SV_TH_STAT SV_TH_STAT_BAND b
    let s := { s with led := { s.led with scrubBand := Nat.max s.led.scrubBand b } }
    let s := (s.hit SV_EVT SV_EVT_BAND SV_CNT SV_CNT_BANDN).raise srcSV EV_SV_BAND [b]
    if s.sv.resetAt.isSome then s
    else [0x20F, 0x21F, 0x22F, 0x23F].foldl (fun s v => s.raise v EV_VEC_THROTTLE [v, b]) s

/-- Whether a sensor counts toward thermal shutdown (R488). -/
def State.countsS (s : State) (n : Nat) : Bool :=
  let d := dieOf n
  !s.brokenS n || (sensorsOf d).any (fun m => m != n && (s.brokenS m || decide (bandAt d 4 < s.tempS m)))

/-- Shutdown and release limits of a die, 0.01 °C (R488). -/
def shdnLimit (d : Nat) : Int := if d = 0 then 14000 else 16500
def releaseLimit (d : Nat) : Int := if d = 0 then 11000 else 13500

/-- A time since which something holds: kept while it holds. -/
def since (hold : Bool) (now : Nat) (o : Option Nat) : Option Nat := if hold then some (o.getD now) else none

/-- The spans that a die's readings start and end (R487, R488). -/
def State.dieSpans (s : State) (d : Nat) : State :=
  let now := s.now
  let anyBroken := (sensorsOf d).any s.brokenS
  let top := s.hottest d
  let cool := [1, 2, 3, 4].foldl (fun t b => Tab.set none t (d * 8 + b)
    (since (!anyBroken && decide (top + 300 ≤ bandAt d b)) now (Tab.get none t (d * 8 + b)))) s.sv.coolAt
  let hot := (sensorsOf d).foldl (fun t n => Tab.set none t n
    (since (s.countsS n && (s.brokenS n || decide (shdnLimit d ≤ s.tempS n))) now (Tab.get none t n))) s.sv.hotAt
  let cold := if s.sv.hotDie = d + 1 then
      since ((sensorsOf d).all (fun n => !s.countsS n || (!s.brokenS n && decide (s.tempS n < releaseLimit d)))) now s.sv.coldAt
    else s.sv.coldAt
  { s with sv := { s.sv with coolAt := cool, hotAt := hot, coldAt := cold } }

/-- A sensor found broken: the too-hot code, and its event when it becomes so (R486). -/
def State.sensorBad (s : State) (n : Nat) : State :=
  let was := s.brokenS n
  let s := { s with sv := { s.sv with soundAt := Tab.set none s.sv.soundAt n none } }
  let s := (s.wr (SV_TSENS n) SV_TSENS_TS 0x7FFF).wrBit SV_TH_STAT (16 + n) true
  if was then s else (s.hit SV_EVT SV_EVT_BROKEN SV_CNT SV_CNT_BROKENN).raise srcSV EV_SV_SENSOR_BROKEN [n]

/-- A sensor that reads within its range and passes its self-check; a broken one is sound again after 1 s of it (R486). -/
def State.sensorGood (s : State) (n : Nat) (temp : Int) : State :=
  let now := s.now
  let t0 := (Tab.get none s.sv.soundAt n).getD now
  if s.brokenS n ∧ now < t0 + sec then
    { s with sv := { s.sv with soundAt := Tab.set none s.sv.soundAt n (some t0) } }
  else
    let s := { s with sv := { s.sv with temp := Tab.set 0 s.sv.temp n temp, soundAt := Tab.set none s.sv.soundAt n none } }
    (s.wr (SV_TSENS n) SV_TSENS_TS (wrapInt temp 16)).wrBit SV_TH_STAT (16 + n) false

/-- A conversion of sensor n: its reading in 0.01 °C and the result of its self-check; its die's band rises at once (R486
to R488). -/
def execDieSensorConvert (s : State) (n : Fin 13) (temp : Int) (ok : Bool) (t : Nat) : Host.Outcome State Fault Refusal :=
  let s := s.at t
  let s := if ok ∧ -5000 ≤ temp ∧ temp ≤ 20000 then s.sensorGood n.val temp else s.sensorBad n.val
  let d := dieOf n.val
  let s := s.dieSpans d
  .next ((s.wr SV_TH_STAT (bandFld d) (Nat.max (s.rd SV_TH_STAT (bandFld d)) (s.bandWanted d))).bandSync)

/-- A die has stayed 3 °C below its band's threshold for 1 s: the band falls as far as that holds (R487). -/
def State.bandFall (s : State) (d : Nat) : Nat → State
  | 0 => s
  | n + 1 =>
    let b := s.rd SV_TH_STAT (bandFld d)
    match Tab.get none s.sv.coolAt (d * 8 + b) with
    | some t0 => if b ≠ 0 ∧ t0 + sec ≤ s.now then (s.wr SV_TH_STAT (bandFld d) (b - 1)).bandFall d n else s
    | none => s

def execBandFall (s : State) (d : Fin 2) (t : Nat) : Host.Outcome State Fault Refusal :=
  .next (((s.at t).bandFall d.val 4).bandSync)

/-- A counting sensor has stayed at the shutdown limit for 1 ms (R488). -/
def execThermalShutdown (s : State) (n : Fin 13) (t : Nat) : Host.Outcome State Fault Refusal :=
  let s := s.at t
  match Tab.get none s.sv.hotAt n.val with
  | some t0 =>
    if s.now < t0 + ms ∨ s.sv.shdnAt.isSome ∨ s.sv.resetAt.isSome then .next s
    else
      let now := s.now
      let s := { s with sv := { s.sv with shdnAt := some now, shdnStart := t0, hotDie := dieOf n.val + 1, coldAt := none } }
      let s := s.raise srcSV EV_SV_THERM_SHDN [n.val, s.rd (SV_TSENS n.val) SV_TSENS_TS]
      .next ((s.stringSource 27 0 none true).tripFlush)
  | none => .next s

/-- Every string's HC channel is off, or the time limit has passed: source 29, and the pre-sequence (R488). -/
def execThermalPreseqTrigger (s : State) (t : Nat) : Host.Outcome State Fault Refusal :=
  let s := s.at t
  if s.sv.shdnAt.isNone then .next s
  else
    let off := s.strings.all (fun r => !(s.tstr r).hc && decide (5 ≤ (s.tstr r).st.code))
    let lim := s.sv.shdnStart + (102 + s.rd PW_TRIP_CFG PW_TRIP_CFG_TOPENMAX) * ms
    .next (if off ∨ lim ≤ s.now then s.requestReset 5 1 else s)

/-- The sensors of the die that caused the shutdown have stayed below its release limit for 10 s (R488). -/
def execThermalResetRelease (s : State) (t : Nat) : Host.Outcome State Fault Refusal :=
  let s := s.at t
  match s.sv.coldAt with
  | some t0 =>
    .next (if t0 + 10 * sec ≤ s.now then { s with sv := { s.sv with hotDie := 0, coldAt := none } } else s)
  | none => .next s

end Sys2Proof.Machine
end

