-- ==== Sys2Proof/Machine/WriteRules.lean ====
section
/-!
DEFINITION. The refusals of R513 that a field's own rule makes in the present state: one predicate per region over the
register's address, the word written and the word that the register would hold.
-/

namespace Sys2Proof.Machine

/-- The place of address `a` in the array of registers at `b` with stride `st` and `n` places. -/
def placeIn (a b st n : Nat) : Option Nat := if inArray a b st n then some ((a - b) / st) else none

/-! ## The sweep occupancy (R79) -/

/-- The settings that the occupancy of R79 depends on: LEAD in µs, PIPE, the load period in 10 µs units, and the widths of
the blackout windows in 100 ns units. -/
structure SweepSet where
  lead : Nat
  pipe : Bool
  pload : Nat
  widths : List Nat
  deriving DecidableEq, Repr

/-- The settings in force. -/
def State.sweepSet (s : State) : SweepSet :=
  { lead := s.rd AQ_SWP_CTL AQ_SWP_CTL_LEAD, pipe := s.rdB AQ_SWP_CTL AQ_SWP_CTL_PIPE,
    pload := s.rd AQ_SWP_PER AQ_SWP_PER_PLOAD,
    widths := (List.range 4).map (fun n => s.rd (AQ_SWP_BLK n) AQ_SWP_BLK_WIDTH) }

/-- Positions enumerated on a port. -/
def State.portPositions (s : State) (p : Nat) : List Nat := (List.range (s.portNodes p)).map (· + 1)

/-- The largest delay held for a port, 1.25 ns units (R79). -/
def State.dMax (s : State) (p : Nat) : Nat :=
  (s.portPositions p).foldl (fun m q =>
    Nat.max m (Nat.max (s.rd (AQ_NODE_DLY (eng0 p) q) AQ_NODE_DLY_D0) (s.rd (AQ_NODE_DLY (eng0 p) q) AQ_NODE_DLY_D1))) 0

/-- Conversions of a node per sweep: those of R54, and its aux channels where the sweeps convert aux at all. -/
def State.conversions (s : State) (p q : Nat) : Nat :=
  let n := match s.nodeType p q with
    | 1 => s.nodeCells p q
    | 2 => 3
    | 3 => 1
    | _ => 0
  n + (if s.rd AQ_SWP_CTL AQ_SWP_CTL_AUXDIV = 0 then 0 else (s.pos p q).auxN)

/-- The occupancy of a port per sweep, ps (R79). -/
def State.occupancy (s : State) (w : SweepSet) (p : Nat) : Nat :=
  let qs := s.portPositions p
  let cells := qs.all (fun q => s.nodeType p q == 1)
  let slot := if cells then 11960 else 16600
  let tResp := if cells then 11560 else 16200
  let tRead := (2280 + 2000 + (qs.length - 1) * slot + tResp + 2360 + 1000) * 1000 + 2 * s.dMax p * 1250
  let conv := qs.foldl (fun m q => Nat.max m (s.conversions p q)) 0
  let black := (w.widths.filter (fun x => decide (0 < x))).foldl (fun n x => n + (x * 100 + 3999) / 4000 + 1) 0
  if w.pipe then 5000000 + tRead else w.lead * us + 4000000 * (conv + black) + tRead

/-- Whether R79 refuses a write that leaves these settings. -/
def State.sweepBad (s : State) (w : SweepSet) : Bool :=
  (List.range 18).any (fun p => s.portEn p && decide (0 < s.portNodes p) &&
    (decide (w.pload * 10 * us < s.occupancy w p) || decide (w.lead * us < 14 * us + s.dMax p * 1250)))

/-! ## The acquisition region -/

/-- A profile word is refused for a header or a warning action outside its range (R124). -/
def profBad (i v : Nat) : Bool :=
  let act := fun (x : Nat) => x % 8 == 7 || x / 16 % 4 == 3 || x / 64 != 0
  let kind := v % 256
  let pers := v / 256 % 256
  if i = 0 then
    decide (3 < kind) || (kind != 0 && (decide (pers % 16 < 1 ∨ 4 < pers % 16) || pers / 16 == 0 ||
      act (v / 65536 % 256) || act (v / 16777216)))
  else i == 5 && decide (1 < v / 16777216 % 8)

def State.badAQ (s : State) (a : Nat) (new : Word) : Bool :=
  let old := s.reg a
  let set := s.sweepSet
  if a = AQ_SWP_CTL then
    (AQ_SWP_CTL_LEAD.get new != AQ_SWP_CTL_LEAD.get old || AQ_SWP_CTL_PIPE.get new != AQ_SWP_CTL_PIPE.get old) &&
      s.sweepBad { set with lead := AQ_SWP_CTL_LEAD.get new, pipe := AQ_SWP_CTL_PIPE.get new == 1 }
  else if a = AQ_SWP_PER then
    let pl := AQ_SWP_PER_PLOAD.get new
    decide (1000000 < AQ_SWP_PER_NREST.get new * AQ_SWP_PER_NNEAR.get new * pl) || s.sweepBad { set with pload := pl }
  else if inArray a (AQ_SWP_BLK 0) 4 4 then
    s.sweepBad { set with widths := set.widths.set ((a - AQ_SWP_BLK 0) / 4) (AQ_SWP_BLK_WIDTH.get new) }
  else if 0x42602000 ≤ a ∧ a < 0x42602800 then profBad (a % 0x40 / 4) new.toNat
  else
    match engineOff a with
    | some (k, o) => decide (0x800 ≤ o ∧ o < 0x900) && endOf k == 1 && new != old
    | none => false

/-! ## The fabric and the supervisor -/

def State.badFB (s : State) (a v : Nat) (new : Word) : Bool :=
  let old := s.reg a
  if a = FB_XBAR_WGT then (List.range 7).any (fun i => Fld.get ⟨4 * i + 3, 4 * i⟩ new == 0)
  else if a = FB_FLT_REL then s.fltRelBad (v % 4096)
  else if a = FB_WDOG_CTL then FB_WDOG_CTL_WEN.get old == 1 && FB_WDOG_CTL_WEN.get new == 0
  else if a = FB_WDOG_KICK then s.kickBad v
  else if a = SV_HOLD_CTL then bit v 31 && s.reclaimBad
  else if inArray a (FB_Q_CFG 0) 16 64 then
    (FB_Q_CFG_EN.get old == 1 && (FB_Q_CFG_SIZE.get new != FB_Q_CFG_SIZE.get old || FB_Q_CFG_VC.get new != FB_Q_CFG_VC.get old ||
      FB_Q_CFG_CONS.get new != FB_Q_CFG_CONS.get old)) ||
      decide (16 * 2 ^ FB_Q_CFG_SIZE.get new ≤ FB_Q_CFG_WMARK.get new)
  else false

/-! ## The estimation region -/

/-- R227, R228: the correlator's settings change only while RUN and PEND are 0. -/
def State.badES (s : State) (a v : Nat) (new : Word) : Bool :=
  let b := a / 0x100000 % 16
  let o := a % 0x100000
  let old := s.reg a
  let busy := s.rdB (ES_CORR_CTL b) ES_CORR_CTL_RUN || s.rd (ES_CORR_STAT b) ES_CORR_STAT_PEND != 0
  if o = 0 then
    (busy && (ES_CORR_CTL_NFRQ.get new != ES_CORR_CTL_NFRQ.get old || ES_CORR_CTL_NCH.get new != ES_CORR_CTL_NCH.get old ||
      ES_CORR_CTL_ACCOFS.get new != ES_CORR_CTL_ACCOFS.get old)) ||
      (bit v 30 && ES_CORR_CTL_RUN.get old == 1)
  else if o = 4 ∨ o = 8 ∨ (0x10 ≤ o ∧ o < 0x20) then busy
  else if 0x80 ≤ o ∧ o < 0xC0 then
    o == 0x80 || !(new == 0#32 || (new.toNat % 4 == 0 && decide (0x08000000 ≤ new.toNat ∧ new.toNat ≤ 0x0801BFFF)))
  else false

/-! ## The control region -/

def State.badCT (s : State) (a v : Nat) (new : Word) : Bool :=
  let old := s.reg a
  if a = CT_TIME_RATE then decide ((CT_TIME_RATE_RATE.getS new).natAbs > 100000000)
  else if a = CT_TIME_STEP then s.stepBad
  else if inArray a (CT_LT_CFG 0) 4 12 then ltCfgBad new.toNat
  else if 0x44208000 ≤ a ∧ a < 0x44220000 then
    let n := (a - 0x44208000) / 0x4000
    let o := (a - 0x44208000) % 0x4000
    if o = 0 then s.canCtlBad n (BitVec.ofNat 32 v)
    else if o = 4 ∨ o = 8 then new != old && s.canEn n
    else if o = 0x20 then s.canTxCmdBad n (BitVec.ofNat 32 v)
    else if o = 0x40 ∨ o = 0x44 then bit v 31 && (Tab.get [] (s.canOf n).fifo ((o - 0x40) / 4)).isEmpty
    else if 0x1000 ≤ o ∧ o < 0x3000 then s.canSwp n ((o - 0x1000) / 0x80)
    else if 0x3000 ≤ o ∧ o < 0x3050 then s.canSwp n 64
    else false
  else false

/-! ## The power region -/

/-- The trip sources that may take their action from the profile, and those without a native string (R127). -/
def profSources : List Nat := [0, 1, 2, 4, 6, 8]
def sectionSources : List Nat := [6, 7, 18, 19, 22]

/-- Whether a write to the row of a trip source is refused (R127). -/
def tripSrcBad (n : Nat) (old new : Word) : Bool :=
  if fixedSource n ∨ n = 31 then new != old
  else
    (PW_TRIP_SRC_ACT.get new == 7 && !profSources.contains n) ||
      (sectionSources.contains n && PW_TRIP_SRC_SCOPE.get new != 2)

/-- The strings of a mask. -/
def maskStrings (m : Nat) : List Nat := (List.range 12).filter (fun r => bit m r)

/-- The half-bridges of a mask. -/
def maskHbs (m : Nat) : List Nat := (List.range 24).filter (fun n => bit m n)

/-- The regulator of a half-bridge runs in one of modes 1 to 5. -/
def State.hbBusy (s : State) (n : Nat) : Bool :=
  match s.stringOfHb n with
  | some r => decide (1 ≤ s.sregMode r ∧ s.sregMode r ≤ 5)
  | none => false

def State.badGate (s : State) (a v : Nat) (new : Word) : Bool :=
  let old := s.reg a
  if a = PW_GD_CLR then (maskHbs v).any (fun n => s.hbState n == 4 && !s.faultInactive n)
  else if a = PW_GD_LEAK then
    bit v 31 && (s.rdB PW_GD_STAT PW_GD_STAT_UV || !(maskHbs (PW_GD_LEAK_LMASK.get new)).all (fun n => s.testable n))
  else if a = PW_GD_TEST then
    PW_GD_TEST_TEN.get new == 1 &&
      (PW_GD_TEST_TEN.get old == 0 || PW_GD_TEST_THB.get new != PW_GD_TEST_THB.get old) && !s.testable (PW_GD_TEST_THB.get new)
  else match placeIn a (PW_HB_CFG 0) 16 24 with
    | some n => new != old && s.hbBusy n
    | none => false

def State.badPW (s : State) (a v : Nat) (new : Word) : Bool :=
  let old := s.reg a
  if a / 0x100000 = 0x451 then s.badGate a v new
  else if a = PW_TRIP_CLR then (maskStrings v).any (fun r => (s.tstr r).latch.isSome && s.clrBad r)
  else if a = PW_CON_CMD then (maskStrings v).any (fun r => s.closeReason r != 0)
  else if a = PW_PCH_CTL then (bit v 0 && s.pchStartReason != 0) || (bit v 2 && s.pchJoinBad)
  else if a = PW_PCH_CFG then PW_PCH_CFG_SEEDGC.get new != PW_PCH_CFG_SEEDGC.get old && s.seedGcBad new.toNat
  else if a = PW_EXC_CTL then bit v 31 && s.excReason new.toNat != 0
  else if a = PW_LS_CLR then (v % 2 ^ 24 != 0) && s.lsClrBad v
  else if inArray a (PW_TRIP_SRC 0) 4 32 then tripSrcBad ((a - PW_TRIP_SRC 0) / 4) old new
  else if inArray a (PW_LS_CFG 0) 16 24 then s.lsCfgBad ((a - PW_LS_CFG 0) / 16) new.toNat
  else if inArray a (PW_SREG_CFG 0) 32 12 then new != old && s.sregCfgBad ((a - PW_SREG_CFG 0) / 32) new.toNat
  else if inArray a (PW_SREG_PHEN 0) 32 12 then (v % 16 != 0) && s.phenBad ((a - PW_SREG_PHEN 0) / 32) v
  else false

/-! ## The persistence region -/

/-- An address that a snapshot set may list (R428). -/
def snapAddrOk (a : Nat) : Bool :=
  a == 0 || (a % 4 == 0 && (sramAreas.any (fun m => decide (m.1 ≤ a ∧ a < m.1 + m.2)) || decide (0x40000000 ≤ a ∧ a < 0x48000000)))

/-- A write of `PS_BOOT_CMD` is refused for any function it asks for and may not have (R454, R455). -/
def State.bootCmdBad (s : State) (v : Nat) : Bool :=
  (bit v 31 && s.confirmBad) || (bit v 30 && s.rebootBad) || (bit v 23 && s.arbBad (v / 65536 % 128)) ||
    (bit v 15 && s.revBad (v / 256 % 4))

/-- A write of `CG_CTL` may ask for one function, and is refused where that function is (R461 to R464). -/
def State.gateCtlBad (s : State) (v : Nat) (new : Word) : Bool :=
  let len := CG_CTL_PWLEN.get new
  decide (1 < b2n (bit v 31) + b2n (bit v 30) + b2n (bit v 29) + b2n (bit v 28)) ||
    (bit v 31 && s.unlockBad len) || (bit v 29 && s.setpwBad len) || (bit v 28 && s.clrpwBad (CG_CTL_PSLOT.get new))

def State.badPS (s : State) (a v : Nat) (new : Word) : Bool :=
  if a = LEDGER_CTL then bit v 31 && s.commissionBad
  else if a = LT_MAP0 ∨ a = LT_MAP1 then (List.range 8).any (fun i => decide (12 ≤ new.toNat / 16 ^ i % 16 ∧ new.toNat / 16 ^ i % 16 ≤ 14))
  else if a = CG_CTL then s.gateCtlBad v new
  else if a = PS_KEY_CTL then bit v 31 && s.importBad
  else if a = PS_BOOT_CMD then s.bootCmdBad v
  else if a = PS_OTP_PRG then bit v 31 && s.otpBad (v % 65536)
  else if 0x46100804 ≤ a ∧ a < 0x46100C00 ∧ 4 ≤ a % 64 then !snapAddrOk new.toNat
  else false

/-! ## The safety mailbox -/

/-- A mailbox command is refused for its length, while a frame is in hand, or for its code (R376, R377). -/
def State.badSF (s : State) (a v : Nat) : Bool :=
  if a = SF_MBX_RXCTL then bit v 31 && (s.rdB SF_MBX_RXCTL SF_MBX_RXCTL_RXBUSY || decide (v % 64 < 13 ∨ 60 < v % 64))
  else if a = SF_MBX_REQ then v % 4 == 0 || v % 4 == 3
  else false

/-- Whether a field's own rule refuses the write in the present state (R513). -/
def State.fieldBad (s : State) (a v : Nat) (new : Word) : Bool :=
  match a / 0x1000000 with
  | 0x40 | 0x41 => s.badFB a v new
  | 0x42 => s.badAQ a new
  | 0x43 => s.badES a v new
  | 0x44 => s.badCT a v new
  | 0x45 => s.badPW a v new
  | 0x46 => s.badPS a v new
  | 0x47 => s.badSF a v
  | _ => false

end Sys2Proof.Machine
end

