-- ==== Sys2Proof/Machine/WriteEffects.lean ====
section
/-!
DEFINITION. What a write of a register does beside storing its fields: the commands it carries and the effects of changed
settings, region by region.
-/

namespace Sys2Proof.Machine

/-! ## The acquisition region -/

/-- A port control word was written: the wake tone, or the end of an enabled port (R67, R74, R90). -/
def State.portWritten (s : State) (k v : Nat) (old : Word) : State :=
  let s := if bit v 28 then s.wakeTone k 500 else s
  if AQ_PORT_CTL_EN.get old = 1 ∧ ¬ s.rdB (AQ_PORT_CTL k) AQ_PORT_CTL_EN then
    let s := if endOf k = 0 then s.staleDrop (portOf k) 1 64 else s
    let s := s.updEng k (fun e => { e with readOut := none, enumPos := none, pingOut := none, locate := none })
    s.wr (AQ_PORT_STAT k) AQ_PORT_STAT_STATE 0
  else s

/-- An AIC channel turned off holds no fault (R516). -/
def State.aicOff (s : State) (n : Nat) : State :=
  let c := s.cur
  let had := Tab.get false c.aicOver n || Tab.get false c.aicStuck n
  let s := { s with cur := { c with
    aicSame := Tab.set 0 c.aicSame n 0, aicHigh := Tab.set 0 c.aicHigh n 0, aicLow := Tab.set 0 c.aicLow n 0,
    aicOver := Tab.set false c.aicOver n false, aicStuck := Tab.set false c.aicStuck n false } }
  if had then s.aicSource else s

/-- An AIN channel turned off holds no window fault (R120). -/
def State.ainOff (s : State) (n : Nat) : State :=
  { s with cur := { s.cur with ainOut := Tab.set 0 s.cur.ainOut n 0, ainIn := Tab.set 0 s.cur.ainIn n 0 } }.ainSource n false

/-- A one-bit field fell from 1 to 0. -/
def fell (f : Fld) (old new : Word) : Bool := f.get old == 1 && f.get new == 0

/-- A one-bit field rose from 0 to 1. -/
def rose (f : Fld) (old new : Word) : Bool := f.get old == 0 && f.get new == 1

def State.effAQ (s : State) (a v : Nat) (old : Word) : State :=
  let new := s.reg a
  if a = AQ_SWP_CTL then
    let s := if bit v 7 then s.owtStart else s
    if rose AQ_SWP_CTL_EN old new then { s with swp := { s.swp with last := none } } else s
  else if a = AQ_WIN_CTL then
    let s := if bit v 0 then s.winTrigger 2 else s
    if fell AQ_WIN_CTL_HOLD old new then s.winHoldClear else s
  else if inArray a (AQ_AIC_CFG 0) 16 8 then
    if fell AQ_AIC_CFG_EN old new then s.aicOff ((a - AQ_AIC_CFG 0) / 16) else s
  else if inArray a (AQ_AIN_CFG 0) 4 16 then
    if fell AQ_AIN_CFG_EN old new then s.ainOff ((a - AQ_AIN_CFG 0) / 4) else s
  else if inArray a (AQ_CUR_SRC 0) 4 12 then
    if fell AQ_CUR_SRC_EN old new then
      (s.unstale ((a - AQ_CUR_SRC 0) / 4)).unknownSync ((a - AQ_CUR_SRC 0) / 4)
    else s
  else
    match engineOff a with
    | some (k, 0) => s.portWritten k v old
    | _ => s

/-! ## The fabric and the supervisor -/

def State.effFB (s : State) (a v : Nat) (old : Word) : State :=
  if a = FB_FLT_REL then s.fltRel (v % 4096)
  else if a = FB_PMON_CTL then (if bit v 2 then s.pmonClear else s)
  else if a = FB_WDOG_CTL then (if rose FB_WDOG_CTL_WEN old (s.reg a) then s.wdogStart else s)
  else if a = FB_WDOG_KICK then s.kick v
  else if a = SV_HOLD_CTL then (if bit v 31 then s.reclaim else s)
  else s

/-! ## The estimation region -/

/-- Where the accumulators of block b's correlator begin (R226). -/
def State.corrBase (s : State) (b : Nat) : Nat :=
  0x11000000 + b * 0x200000 + s.rd (ES_CORR_CTL b) ES_CORR_CTL_ACCOFS * 0x10000

/-- CLR: every accumulator and count is zeroed, in the 6,144 channels that the layout holds (R227). -/
def State.corrClear (s : State) (b : Nat) : State :=
  let base := s.corrBase b
  (s.clearBytes base (base + 393216 + 4 * 6144)).wr (ES_CORR_STAT b) ES_CORR_STAT_BUSY 1

def State.effES (s : State) (a v : Nat) : State :=
  if a % 0x100000 = 0 ∧ bit v 30 then s.corrClear (a / 0x100000 % 16) else s

/-! ## The control region -/

def State.effCan (s : State) (n o v : Nat) : State :=
  if o = 0 then (if bit v 26 then s.canBorel n else s)
  else if o = 0x20 then s.canTxCmd n (BitVec.ofNat 32 v)
  else if o = 0x40 ∨ o = 0x44 then (if bit v 31 then s.fifoPop n ((o - 0x40) / 4) else s)
  else s

def State.effCT (s : State) (a v : Nat) (old : Word) : State :=
  if a = CT_TIME_CTL then s.discWritten (CT_TIME_CTL_DISC.get old == 1)
  else if a = CT_TIME_RATE then s.rateWritten
  else if a = CT_TIME_PHASE then s.phaseWritten
  else if a = CT_TIME_STEP then s.timeStep v
  else if inArray a (CT_LT_CFG 0) 4 12 then s.ltWritten ((a - CT_LT_CFG 0) / 4) (CT_LT_CFG_EN.get old == 1)
  else if 0x44208000 ≤ a ∧ a < 0x44220000 then s.effCan ((a - 0x44208000) / 0x4000) ((a - 0x44208000) % 0x4000) v
  else s

/-! ## The power region -/

def State.effGate (s : State) (a v : Nat) (old : Word) : State :=
  if a = PW_GD_CLR then ((maskHbs v).filter (fun n => s.hbState n == 4)).foldl (fun s n => s.hbClear n) s
  else if a = PW_GD_TEST then s.gdTestEffect (PW_GD_TEST_TEN.get old == 1) (PW_GD_TEST_THB.get old)
  else if a = PW_GD_LEAK then (if bit v 31 then s.leakStart else s)
  else if inArray a (PW_HB_FOC 0) 16 24 then s.rearmAll
  else s

def State.effPch (s : State) (v : Nat) : State :=
  let s := if bit v 1 then s.pchAbort else s
  let s := if bit v 0 then s.pchStart else s
  if bit v 2 then s.pchJoin else s

def State.effExc (s : State) (v : Nat) : State :=
  let s := if bit v 30 then s.excHalt else s
  if bit v 31 then s.excBegin else s

def State.effPW (s : State) (a v : Nat) (old : Word) : State :=
  if a / 0x100000 = 0x451 then s.effGate a v old
  else if a = PW_TRIP_REQ then s.tripReq v
  else if a = PW_TRIP_CLR then s.tripClr v
  else if a = PW_CON_CMD then (s.conOpen (v / 65536 % 4096)).conClose (v % 4096)
  else if a = PW_CON_STAT then
    (maskStrings (PW_CON_STAT_WLOCK.get old)).foldl (fun s r =>
      if bit (s.rd PW_CON_STAT PW_CON_STAT_WLOCK) r then s else s.stringSource 20 r (some r) false) s
  else if a = PW_PCH_CTL then s.effPch v
  else if a = PW_EXC_CTL then s.effExc v
  else if a = PW_LS_CLR then s.lsClear v
  else if inArray a (PW_LS_CFG 0) 16 24 then s.lsSync ((a - PW_LS_CFG 0) / 16)
  else if inArray a (PW_DLIM_DIS 0) 8 12 then s.dlimWritten ((a - PW_DLIM_DIS 0) / 8)
  else if inArray a (PW_SREG_CFG 0) 32 12 then s.sregCfgEffect ((a - PW_SREG_CFG 0) / 32)
  else if inArray a (PW_SREG_RAT 0) 32 12 then s.rearmAll.limitsOnChange
  else if inArray a (PW_SHW 0) 32 12 then s.weightsWritten
  else if inArray a (PW_SREG_PHEN 0) 32 12 then s.phen ((a - PW_SREG_PHEN 0) / 32) v
  else s

/-! ## The persistence region -/

def State.effBoot (s : State) (v : Nat) : State :=
  let s := if bit v 31 then s.confirm else s
  let s := if bit v 23 then s.arbGo (v / 65536 % 128) else s
  let s := if bit v 15 then s.revGo (v / 256 % 4) else s
  let s := if bit v 29 then s.dbgClose else s
  let s := if bit v 28 then s.dbgGo else s
  if bit v 30 then s.requestReset 7 1 else s

def State.effGateCtl (s : State) (v : Nat) : State :=
  let slot := s.rd CG_CTL CG_CTL_PSLOT
  let len := s.rd CG_CTL CG_CTL_PWLEN
  if bit v 31 then s.unlock slot len
  else if bit v 30 then (if s.unlocked then s.gateLock 1 else s).pwZero
  else if bit v 29 then s.setpw slot len
  else if bit v 28 then s.clrpw slot
  else s

def State.effPS (s : State) (a v : Nat) (old : Word) : State :=
  if a = LEDGER_CTL then
    let s := if bit v 31 then s.commission else s
    if bit v 30 then s.sedClear else s
  else if a = LEDGER_BCLR then s.blockClear (v % 4096)
  else if a = LT_CTL then (if rose LT_CTL_EN old (s.reg a) then s.lifeStart else s)
  else if a = CG_CTL then s.effGateCtl v
  else if a = PS_KEY_CTL then (if bit v 31 then s.keyTake else s)
  else if a = PS_BOOT_CMD then s.effBoot v
  else if a = PS_OTP_PRG then (if bit v 31 then s.otpGo (v % 65536) else s)
  else s

/-! ## The safety mailbox -/

def State.effSF (s : State) (a v : Nat) : State :=
  if a = SF_MBX_RXCTL then (if bit v 31 then s.mbxGo (v % 64) else s)
  else if a = SF_MBX_TXCTL then (if bit v 31 then s.mbxAck else s)
  else if a = SF_MBX_REQ then s.mbxReq (v % 4)
  else s

/-- The effects of a write of `v` to the register at `a`, which held `old` before. -/
def State.writeEffect (s : State) (a v : Nat) (old : Word) : State :=
  match a / 0x1000000 with
  | 0x40 | 0x41 => s.effFB a v old
  | 0x42 => s.effAQ a v old
  | 0x43 => s.effES a v
  | 0x44 => s.effCT a v old
  | 0x45 => s.effPW a v old
  | 0x46 => s.effPS a v old
  | 0x47 => s.effSF a v
  | _ => s

end Sys2Proof.Machine
end

