-- ==== Sys2Proof/Machine/RegWrite.lean ====
section
/-!
DEFINITION. Writes: what a register holds after a write (R3, R4), the admission of a write (R513, R514), the writes of the
shared address space (R153 to R157), and the two words of a pair (R173).
-/

namespace Sys2Proof.Machine

/-! ## The word a register would hold -/

/-- Write-only registers whose word the hardware keeps for a command to use: password, key blob, token and mailbox words. -/
def dataWindow (a : Nat) : Bool :=
  inArray a (CG_PW 0) 4 8 || inArray a (PS_KEY_BLOB 0) 4 16 || inArray a (PS_DBG_TOK 0) 4 48 || inArray a (SF_MBX_RX 0) 4 16

/-- One field of a register after a write of `v`: RW, RWL and RWS fields take the value written, a 1 clears a W1C flag, RO
and RC fields stay, a WO field stores nothing unless it is a data window (R3, R514). -/
def mergeField (keep : Bool) (v acc : Word) (f : FieldDesc) : Word :=
  match f.acc with
  | .rw | .rwl | .rws => f.fld.put acc (f.fld.get v)
  | .w1c => f.fld.put acc (f.fld.get acc &&& (f.fld.max - f.fld.get v))
  | .wo => if keep then f.fld.put acc (f.fld.get v) else acc
  | .ro | .rc => acc

/-- The word a register would hold after a write of `v` (R3). `WLOCK` bits are only cleared by a write, and the commands of
`LEDGER_CTL` store nothing (R514). -/
def mergeWord (a : Nat) (r : RegRow) (old v : Word) : Word :=
  let w := r.fields.foldl (mergeField (dataWindow a) v) old
  if a = PW_CON_STAT then PW_CON_STAT_WLOCK.put w (PW_CON_STAT_WLOCK.get old &&& PW_CON_STAT_WLOCK.get v)
  else if a = LEDGER_CTL then LEDGER_CTL_COMMISSION.put (LEDGER_CTL_SEDCLR.put w 0) 0
  else w

/-! ## Admission (R513, R514) -/

/-- Fields that a write sets have a stated range (R513). -/
def FieldDesc.outside (f : FieldDesc) (v : Word) : Bool :=
  match f.acc with
  | .rw | .rwl | .rws | .wo => decide (f.fld.get v < f.min ∨ f.max < f.fld.get v)
  | .ro | .rc | .w1c => false

/-- A write that changes an RWL field, or issues a gated command (R514). -/
def gatedWrite (a : Nat) (r : RegRow) (old new : Word) (v : Nat) : Bool :=
  r.fields.any (fun f => f.acc == .rwl && f.fld.get new != f.fld.get old) || (a == LEDGER_CTL && (bit v 31 || bit v 30))

/-- A string whose close, or clear, makes the whole write be refused. -/
def firstBad (v : Nat) (bad : Nat → Bool) : Nat := ((maskStrings v).find? bad).getD 0

/-- The record of a write that a field's own rule refuses: the register's refusal event, or the event that the command's own
chapter names (R513). -/
def State.noteBad (s : State) (src a v : Nat) (r : RegRow) (new : Word) : State :=
  if a = FB_WDOG_KICK then s.kickRefused src v
  else if a = PW_TRIP_CLR then
    (s.hit PW_TRIP_EVT PW_TRIP_EVT_REFUSED PW_TRIP_CNT PW_TRIP_CNT_REFUSEDN).raise srcTrip EV_TRIP_CLR_REFUSED
      [firstBad v (fun q => (s.tstr q).latch.isSome && s.clrBad q)]
  else if a = PW_CON_CMD then
    let q := firstBad v (fun q => s.closeReason q != 0)
    (s.hit PW_TRIP_EVT PW_TRIP_EVT_REFUSED PW_TRIP_CNT PW_TRIP_CNT_REFUSEDN).raise srcTrip EV_CON_REFUSED [q, s.closeReason q]
  else if a = PW_PCH_CTL then
    (s.hit PW_TRIP_EVT PW_TRIP_EVT_REFUSED PW_TRIP_CNT PW_TRIP_CNT_REFUSEDN).pchRefuse
      (if bit v 0 then s.pchStartReason else 1)
  else if a = PW_PCH_CFG then s.refuse EV_LS_REFUSED src a v
  else if a = PW_EXC_CTL then (s.wr PW_EXC_STAT PW_EXC_STAT_XEND (16 + s.excReason new.toNat)).refuse r.refused src a v
  else s.refuse r.refused src a v

/-! ## Pairs (R173) -/

/-- The high register of a pair that the program writes, by its low register. -/
def writePair (a : Nat) : Option Nat :=
  if a = AQ_SWP_EPOCHLO ∨ a = PW_EXC_EPOCHLO ∨ (a / 0x1000000 = 0x43 ∧ a % 0x100000 = 4 ∧ a / 0x100000 % 16 < 4) then some (a + 4)
  else none

/-- The low register of such a pair, by its high register. -/
def writePairLow (a : Nat) : Option Nat := if 4 ≤ a ∧ writePair (a - 4) = some a then some (a - 4) else none

/-- The low word written before takes effect with the high word. -/
def State.takeLow (s : State) (a : Nat) : State :=
  match writePairLow a with
  | some lo =>
    match Tab.get none s.fab.loWord lo with
    | some w => { (s.setReg lo w) with fab := { s.fab with loWord := Tab.set none s.fab.loWord lo none } }
    | none => s
  | none => s

/-! ## Writes of registers -/

/-- A write that is not refused: the fields take their values, a gated write enters the change log (R430, R463), and the
effects follow. -/
def State.regTake (s : State) (src a v : Nat) (r : RegRow) (new : Word) : State :=
  let old := s.reg a
  let gated := gatedWrite a r old new v
  let s1 := (s.setReg a new).takeLow a
  let s2 : State := if gated then
      let now := s.now
      let shown := if a = LEDGER_CTL then new.toNat + v / 2 ^ 30 * 2 ^ 30 else new.toNat
      ({ s1 with boot := { s1.boot with gateAt := now } }).changeLog a old.toNat shown src (s1.rd CG_STAT CG_STAT_USED) false
    else s1
  s2.writeEffect a v old

/-- A write of a register takes effect whole or is refused whole (R513). -/
def State.regWrite (s : State) (src a v : Nat) (r : RegRow) : State :=
  let w : Word := BitVec.ofNat 32 v
  let new := mergeWord a r (s.reg a) w
  if s.fieldBad a v new then s.noteBad src a v r new
  else if r.fields.any (fun f => f.outside w) || (gatedWrite a r (s.reg a) new v && !s.unlocked) then s.refuse r.refused src a v
  else
    match writePair a with
    | some _ => { s with fab := { s.fab with loWord := Tab.set none s.fab.loWord a (some new) } }
    | none => s.regTake src a v r new

/-! ## Program stores to memory -/

/-- The program configuration area, and the safety parameter set slots (R153, R368). -/
def inConfig (a : Nat) : Bool := decide (0x04408000 ≤ a ∧ a < 0x04420000)
def inSets (a : Nat) : Bool := decide (0x04400000 ≤ a ∧ a < 0x04408000)

/-- Whether a program store to MRAM is accepted (R153, R206, R368). -/
def State.mramOpen (s : State) (a : Nat) : Bool :=
  !s.led.commit &&
    ((decide (0x04000000 ≤ a ∧ a < 0x04400000) && decide ((a - 0x04000000) / 0x200000 ≠ s.bootSlot)) ||
      (inConfig a && s.unlocked) || (inSets a && s.rdB SF_STAT SF_STAT_SWE))

/-- An accepted program store of `n` bytes to MRAM: not durable yet (R156); one to the configuration or to a parameter set
enters the change log (R430). -/
def State.mramStore (s : State) (src pc a n v : Nat) : State :=
  let w := a / 4 * 4
  let old := s.word w
  let s1 := s.storeLE a n v
  let s1 := { s1 with fab := { s1.fab with mramPend := s1.fab.mramPend ++ [⟨src, pc, w, old⟩] } }
  if inConfig a then
    let now := s.now
    ({ s1 with boot := { s1.boot with gateAt := now } }).changeLog w old (s1.word w) src (s1.rd CG_STAT CG_STAT_USED) true
  else if inSets a then s1.changeLog w old (s1.word w) src 0xFF true
  else s1

/-- Whether a program may write a byte of SRAM or of a local memory at its alias (R107, R153, R157). -/
def State.ramOpen (s : State) (a : Nat) : Bool :=
  if 0x10000000 ≤ a ∧ a < 0x10400000 then false
  else if 0x10480000 ≤ a ∧ a < 0x10480000 + 34 * 0x4000 then false
  else if 0x13800000 ≤ a ∧ a < 0x13900000 then false
  else if 0x14000000 ≤ a ∧ a < 0x14100000 then false
  else
    match aliasAt a with
    | some (g, off) =>
      let run := (s.grain g).run
      s.memAnswers a && (decide (instrBytes g ≤ off) || run == .quarantined || run == .unstarted)
    | none => true

/-- A store into a kernel overlay marks it empty (R231). -/
def State.overlayTouched (s : State) (a : Nat) : State :=
  match aliasAt a with
  | some (g, off) => if g / 256 = 2 ∧ 0x1C000 ≤ off then s.updGrain g (fun x => { x with overlay := 0 }) else s
  | none => s

/-- An address of SF that takes no write from another region: SF SRAM, and the SF window but for the safety mailbox (R9). -/
def sfClosed (a : Nat) : Bool :=
  decide (0x14000000 ≤ a ∧ a < 0x14100000) ||
    (decide (0x47000000 ≤ a ∧ a < 0x48000000) && !decide (0x47000100 ≤ a ∧ a < 0x470001C8))

/-- A write that gets the error response, recorded once (R153, R377). -/
def State.writeError (s : State) (src a v : Nat) : Bool × State :=
  (false, if sfClosed a then s.refuse EV_SF_MBX_REFUSED src a v else s.refuseFb src a v)

/-- A put through `QPUTHI` (R163, R164): a full queue refuses it with its own record. -/
def State.windowPut (s : State) (src n a v : Nat) : Bool × State :=
  let lo := (Tab.get 0#32 s.fab.putLo n).toNat
  let d : Dword := BitVec.ofNat 64 (2 ^ 32 * (v % 2 ^ 32) + lo)
  if ¬ kindOk d ∨ ¬ s.rdB (FB_Q_CFG n) FB_Q_CFG_EN then s.writeError src a v
  else if s.depth n ≤ (s.queue n).length then (true, s.qOverflow n src)
  else (true, s.qAppend n d)

/-- A program store of `n` bytes to memory or to a window, by the grain `src` at `pc` (R153 to R157): whether it was
answered without error, and the machine after it. Registers and queue windows take aligned 32-bit words alone (R154). -/
def State.busStore (s : State) (src pc a n v : Nat) : Bool × State :=
  match placeOf (a / 4 * 4) with
  | .mram => if s.mramOpen a && !s.psReset then (true, s.mramStore src pc a n v) else s.writeError src a v
  | .ram => if s.ramOpen a then (true, (s.storeLE a n v).overlayTouched a) else s.writeError src a v
  | .register =>
    if n ≠ 4 ∨ a % 4 ≠ 0 ∨ sfClosed a ∨ ¬ s.answers a then s.writeError src a v
    else match regRow? a with
      | some r => (true, s.regWrite src a (v % 2 ^ 32) r)
      | none => s.writeError src a v
  | .queue q off =>
    if n ≠ 4 ∨ a % 4 ≠ 0 then s.writeError src a v
    else if off = 0 then
      (true, { s with fab := { s.fab with putLo := Tab.set 0#32 s.fab.putLo q (BitVec.ofNat 32 v) } })
    else if off = 4 then s.windowPut src q a v
    else s.writeError src a v
  | .rom | .evbuf _ | .otp | .none => s.writeError src a v

/-- A write of an aligned 32-bit word from outside a grain, named by a source: its response stands in the machine. -/
def State.busWrite (s : State) (src a v : Nat) : State :=
  let r := s.busStore src 0 a 4 v
  { r.2 with fab := { r.2.fab with rdata := 0, rerr := !r.1 } }

/-- A write of a register's word by `src` at the instant `t`. -/
def writeReg (s : State) (src a v t : Nat) : Host.Outcome State Fault Refusal := .next ((s.at t).busWrite src a v)

end Sys2Proof.Machine
end

