-- ==== Sys2Proof/Machine/Nersel.lean ====
section
/-!
DEFINITION. What every Nersel instruction is built of: registers, the MPU, traps and exceptions, the issue of an
instruction by a grain, and a grain's accesses to memory (R178 to R211).
-/

namespace Sys2Proof.Machine

/-! ## Instruction words (R185) -/

def encR (major rd rs1 rs2 sub func : Nat) : Nat :=
  major * 2 ^ 26 + rd * 2 ^ 21 + rs1 * 2 ^ 16 + rs2 * 2 ^ 11 + sub * 2 ^ 6 + func
def encI (major rd rs1 imm : Nat) : Nat := major * 2 ^ 26 + rd * 2 ^ 21 + rs1 * 2 ^ 16 + imm
def encJ (major off : Nat) : Nat := major * 2 ^ 26 + off

/-! ## Registers (R179, R180) -/

/-- g register n of a grain; g0 reads 0. -/
def State.gReg (s : State) (src n : Nat) : Word := if n = 0 then 0#32 else Tab.get 0#32 (s.grain src).g n

/-- g register n written; a write to g0 is discarded. -/
def State.setG (s : State) (src n : Nat) (w : Word) : State :=
  if n = 0 then s else s.updGrain src (fun x => { x with g := Tab.set 0#32 x.g n w })

/-- The pair gn, gn+1 as one 64-bit word. -/
def State.gPair (s : State) (src n : Nat) : Dword :=
  BitVec.ofNat 64 ((s.gReg src n).toNat + (s.gReg src (n + 1)).toNat * 2 ^ 32)
def State.setPair (s : State) (src n : Nat) (d : Dword) : State :=
  (s.setG src n (BitVec.ofNat 32 d.toNat)).setG src (n + 1) (BitVec.ofNat 32 (d.toNat / 2 ^ 32))

/-- f register n of a control grain. -/
def State.fReg (s : State) (src n : Nat) : Dword := Tab.get 0#64 (s.grain src).f n
def State.setF (s : State) (src n : Nat) (d : Dword) : State :=
  s.updGrain src (fun x => { x with f := Tab.set 0#64 x.f n d })

def State.pc (s : State) (src : Nat) : Nat := (s.grain src).pc.toNat
def State.setPc (s : State) (src a : Nat) : State := s.updGrain src (fun x => { x with pc := BitVec.ofNat 32 a })

/-- The grain runs in supervisor mode (R182). -/
def State.super (s : State) (src : Nat) : Bool := bit (s.grain src).status.toNat 0

/-- An instruction has retired: the instant, and the count of the monitors (R168, R174). -/
def State.retired (s : State) (src : Nat) : State :=
  let now := s.now
  let s := s.updGrain src (fun x => { x with retired := now })
  if src / 256 = 1 then s else s.count (monSrc src 0) 1

/-- The instruction completes and the next one follows. -/
def State.stepOn (s : State) (src : Nat) : State := (s.setPc src (s.pc src + 4)).retired src

/-! ## The grain's own memory (R153, R192) -/

/-- Where an address of the grain's own local memory lies, at its alias; none outside it. -/
def ownAddr (src a : Nat) : Option Nat :=
  if 0x08000000 ≤ a ∧ a < 0x08000000 + localBytes src then some (aliasBase src + (a - 0x08000000)) else none

/-- Bytes of the memory that a grain fetches from; a vector grain's is its tile memory (R192). -/
def fetchBytes (src : Nat) : Nat := if src / 256 = 2 then 0x20000 else instrBytes src

/-! ## The MPU (R184) -/

inductive Access where
  | read | write | exec
  deriving DecidableEq, Repr

/-- The lowest-numbered enabled region that holds an address. -/
def Grain.region (x : Grain) (a : Nat) : Option Nat :=
  (List.range 16).find? (fun r =>
    let b := (Tab.get 0#32 x.mpu (2 * r)).toNat
    bit b 0 && decide (b / 64 ≤ a / 64 ∧ a / 64 ≤ (Tab.get 0#32 x.mpu (2 * r + 1)).toNat / 64))

/-- Whether the MPU permits an access in the grain's mode. -/
def State.allows (s : State) (src a : Nat) (k : Access) : Bool :=
  let x := s.grain src
  let sup := s.super src
  match x.region a with
  | none => sup
  | some r =>
    let b := (Tab.get 0#32 x.mpu (2 * r)).toNat
    match k with
    | .read => sup || bit b 1
    | .write => if sup then bit b 4 else bit b 2
    | .exec => if sup then bit b 5 else bit b 3

/-- Whether a grain may fetch at an address: its own instruction memory, or the boot ROM for a control grain, with the
permission of the MPU (R184, R192). -/
def State.fetchOk (s : State) (src a : Nat) : Bool :=
  (decide (0x08000000 ≤ a ∧ a < 0x08000000 + fetchBytes src) || (src / 256 == 3 && decide (a < 0x40000))) && s.allows src a .exec

/-- The word fetched is free of poison (R158). -/
def State.fetchSound (s : State) (src a : Nat) : Bool :=
  match ownAddr src a with
  | some p => s.sound p 4
  | none => s.sound a 4

/-! ## Traps (R207 to R211) -/

/-- Trap entry: the status and the pc saved, supervisor mode, IE 0, TRAP 1, on at EVEC (R207). -/
def State.trapIn (s : State) (src : Nat) : State :=
  s.updGrain src (fun x => { x with estat := x.status, epc := x.pc, status := 5#32, pc := x.evec, wait := .none })

/-- A double fault: handled as a fault of the grain, without a descriptor (R168, R208). -/
def State.doubleFault (s : State) (src : Nat) : State := (s.fltNote src EV_FB_QUARANTINE 1 0 []).grainFault src

/-- EPC lies in the overlay of a grain with an active kernel: the kernel ends with status 0x0F (R229). -/
def State.kernelFault (s : State) (src : Nat) : State :=
  match (s.grain src).kern with
  | some k =>
    if 0x0801C000 ≤ s.pc src ∧ s.pc src < 0x08020000 then
      let notify := bit (s.loadLE (((ownAddr src k.desc).getD k.desc) + 2) 1) 0
      let nsrc := s.loadLE (((ownAddr src k.desc).getD k.desc) + 4) 2
      let s := (s.updGrain src (fun x => { x with kern := none, wait := .none })).raise src EV_VEC_KERNEL_FAULT [src, k.desc]
      if notify then s.post 9 (blockOf src) k.id (nsrc % 4096) k.desc 0x0F else s
    else s
  | none => s

/-- A synchronous exception of a cause with its A, B and INFO words: its descriptor, then trap entry; with TRAP 1 or the
inbox full it is a double fault (R207 to R211). -/
def State.syncExc (s : State) (src code a b info : Nat) : State :=
  let s := s.kernelFault src
  let x := s.grain src
  if bit x.status.toNat 2 ∨ 16 ≤ x.inbox.length then s.doubleFault src
  else
    let s := (s.inboxPush src (s.mkDesc 1 src code info a b)).trapIn src
    if src / 256 = 3 then s.count (monSrc src 5) 1 else if src / 256 = 2 then s.count (monSrc src 4) 1 else s

/-- A pending imprecise bus error is taken, the oldest first (R210). -/
def State.takeImprecise (s : State) (src : Nat) : State :=
  match (s.grain src).imprecise with
  | [] => s
  | (pa, da) :: rest => (s.updGrain src (fun x => { x with imprecise := rest })).syncExc src 7 pa da 1

/-- An exception of the instruction at the pc; a pending imprecise bus error comes first (R209). -/
def State.exc (s : State) (src code b : Nat) : State :=
  if (s.grain src).imprecise.isEmpty then s.syncExc src code (s.pc src) b 0 else s.takeImprecise src

/-! ## Issue -/

/-- Grain `g` executes the instruction with word `w` at its pc (R178, R182, R192, R209): a grain that does not run, or
waits, does nothing; `legal` tells that the grain's kind and the registers named permit it, `task` that task mode may
execute it. -/
def State.issue (s : State) (g : GrainId) (t w : Nat) (legal task : Bool) (f : State → State) : Host.Outcome State Fault Refusal :=
  let s := s.at t
  let src := g.src
  if (s.grain src).run ≠ .running ∨ (s.grain src).wait ≠ .none then .next s
  else if ¬ s.fetchOk src (s.pc src) then .next (s.exc src 4 (s.pc src))
  else if ¬ s.fetchSound src (s.pc src) then .next (s.exc src 7 (s.pc src))
  else if ¬ legal then .next (s.exc src 1 w)
  else if ¬ task ∧ ¬ s.super src then .next (s.exc src 2 w)
  else .next (f s)

/-- An instruction that writes one general register and goes on. -/
def State.compute (s : State) (g : GrainId) (t w : Nat) (legal : Bool) (rd : Nat) (v : State → Word) :
    Host.Outcome State Fault Refusal :=
  s.issue g t w legal true (fun s => (s.setG g.src rd (v s)).stepOn g.src)

/-! ## Loads -/

def LoadKind.width : LoadKind → Nat
  | .b | .bu => 1
  | .h | .hu => 2
  | .w | .fw => 4
  | .fd => 8

/-- The value loaded is written: sign- or zero-extended, or to an f register (R190). -/
def State.loadInto (s : State) (src : Nat) (k : LoadKind) (rd v : Nat) : State :=
  match k with
  | .b => s.setG src rd (BitVec.ofInt 32 (sext v 8))
  | .h => s.setG src rd (BitVec.ofInt 32 (sext v 16))
  | .w | .bu | .hu => s.setG src rd (BitVec.ofNat 32 v)
  | .fw | .fd => s.setF src rd (BitVec.ofNat 64 v)

/-- A read of `n` bytes outside the grain's own memory: none for an error response (R153, R154, R158). -/
def State.busLoad (s : State) (a n : Nat) : Option Nat × State :=
  match placeOf (a / 4 * 4) with
  | .rom | .mram | .ram => (if s.sound a n && s.memAnswers a then some (s.loadLE a n) else none, s)
  | _ => if n = 4 then s.busRead a else (none, s)

/-- A load: from the grain's own memory at once, from anywhere else it waits for its data (R190, R191). -/
def State.load (s : State) (src : Nat) (k : LoadKind) (rd a : Nat) : State :=
  if a % k.width ≠ 0 then s.exc src 3 a
  else if ¬ s.allows src a .read then s.exc src 5 a
  else match ownAddr src a with
    | some p => if s.sound p k.width then (s.loadInto src k rd (s.loadLE p k.width)).stepOn src else s.exc src 7 a
    | none => s.updGrain src (fun x => { x with wait := .load k rd a })

/-- The address gs1 + imm16 of a load or store. -/
def State.effAddr (s : State) (src rs1 imm : Nat) : Nat := wrapInt ((s.gReg src rs1).toNat + sext imm 16) 32

/-! ## Stores -/

/-- A store outside the grain's own memory: an error response comes back later (R191, R210). A 64-bit store moves its two
words. -/
def State.storeOut (s : State) (src a n v : Nat) : State :=
  let pc := s.pc src
  let one := fun (s : State) (a n v : Nat) =>
    let r := s.busStore src pc a n v
    if r.1 then r.2 else r.2.updGrain src (fun x => { x with imprecise := x.imprecise ++ [(pc, a)] })
  if n = 8 then
    match placeOf a with
    | .mram | .ram => one (one s a 4 (v % 2 ^ 32)) (a + 4) 4 (v / 2 ^ 32)
    | _ => one s a 8 v
  else one s a n v

/-- A store (R190 to R192): the grain's own instruction memory takes one in supervisor mode alone. -/
def State.store (s : State) (src a n v : Nat) : State :=
  if a % n ≠ 0 then s.exc src 3 a
  else if ¬ s.allows src a .write then s.exc src 6 a
  else match ownAddr src a with
    | some p =>
      if a < 0x08000000 + instrBytes src ∧ ¬ s.super src then s.exc src 6 a
      else ((s.storeLE p n v).overlayTouched p).stepOn src
    | none => (s.storeOut src a n v).stepOn src

end Sys2Proof.Machine
end

