-- ==== Sys2Proof/Machine/VecArith.lean ====
section
/-!
DEFINITION. Vector registers, predicates and lane arithmetic (R213 to R217).
-/

namespace Sys2Proof.Machine

/-- An instruction word in format V (R215). -/
def encV (major vd a b pg func : Nat) : Nat := major * 2 ^ 26 + vd * 2 ^ 21 + a * 2 ^ 16 + b * 2 ^ 11 + pg * 2 ^ 8 + func

/-! ## Registers (R213, R214) -/

/-- Lane i of a vector register. -/
def State.lane (s : State) (src n i : Nat) : Nat := (Tab.get 0#32 (s.grain src).v (n * 256 + i)).toNat

def State.setLane (s : State) (src n i v : Nat) : State :=
  s.updGrain src (fun x => { x with v := Tab.set 0#32 x.v (n * 256 + i) (BitVec.ofNat 32 v) })

/-- Bit i of a predicate; p0 reads all ones. -/
def State.pbit (s : State) (src n i : Nat) : Bool := n == 0 || Tab.get false (s.grain src).p (n * 256 + i)

/-- A bit of a predicate written; writes to p0 are discarded. -/
def State.setPbit (s : State) (src n i : Nat) (b : Bool) : State :=
  if n = 0 then s else s.updGrain src (fun x => { x with p := Tab.set false x.p (n * 256 + i) b })

/-- The lane numbers. -/
def laneIds : List Nat := [0, 1, 2, 3, 4, 5, 6, 7]

/-- The active lanes under a predicate, lowest first. -/
def State.activeLanes (s : State) (src pg : Nat) : List Nat := laneIds.filter (s.pbit src pg)

/-- The lanes of a list written with their results. -/
def State.putLanes (s : State) (src vd : Nat) (l : List Nat) (f : Nat → Nat) : State :=
  l.foldl (fun s i => s.setLane src vd i (f i)) s

/-- A predicate written, bit by bit. -/
def State.putPred (s : State) (src pd : Nat) (f : Nat → Bool) : State :=
  laneIds.foldl (fun s i => s.setPbit src pd i (f i)) s

/-- A vector instruction whose active lanes each receive a result computed from the state before it. -/
def State.laneOp (s : State) (g : GrainId) (t w vd pg : Nat) (f : State → Nat → Nat) : Host.Outcome State Fault Refusal :=
  s.issue g t w (g.kind == .vec) true (fun s => (s.putLanes g.src vd (s.activeLanes g.src pg) (f s)).stepOn g.src)

/-- Operand b: a lane of vs2 in major 0x30, gs2 in every lane in major 0x31 (R217). -/
def State.operandB (s : State) (src : Nat) (scalar : Bool) (b i : Nat) : Nat :=
  if scalar then (s.gReg src b).toNat else s.lane src b i

/-- Major 0x30 or 0x31: a result from vd, operand a and operand b of each lane. -/
def State.arith (s : State) (g : GrainId) (t func : Nat) (scalar : Bool) (vd a b pg : Nat) (f : Nat → Nat → Nat → Nat) :
    Host.Outcome State Fault Refusal :=
  s.laneOp g t (encV (if scalar then 0x31 else 0x30) vd a b pg func) vd pg
    (fun s i => f (s.lane g.src vd i) (s.lane g.src a i) (s.operandB g.src scalar b i))

/-- A unary row of major 0x30. -/
def State.arith1 (s : State) (g : GrainId) (t func vd a pg : Nat) (f : Nat → Nat) : Host.Outcome State Fault Refusal :=
  s.laneOp g t (encV 0x30 vd a 0 pg func) vd pg (fun s i => f (s.lane g.src a i))

/-- The signed value of a lane. -/
def laneInt (x : Nat) : Int := sext x 32

/-- A NaN result is the canonical NaN (R216). -/
def canon32 (x : Nat) : Nat := if (f32.val x).isNan then f32.nan else x

/-! ## Lane arithmetic (R216, R217) -/

/-- `vadd.i`: sum. -/
def execVaddI (s : State) (g : GrainId) (scalar : Bool) (vd a b : Fin 32) (pg : Fin 8) (t : Nat) :
    Host.Outcome State Fault Refusal :=
  s.arith g t 0x00 scalar vd a b pg (fun _ a b => (a + b) % 2 ^ 32)

/-- `vsub.i`: difference. -/
def execVsubI (s : State) (g : GrainId) (scalar : Bool) (vd a b : Fin 32) (pg : Fin 8) (t : Nat) :
    Host.Outcome State Fault Refusal :=
  s.arith g t 0x01 scalar vd a b pg (fun _ a b => (a + (2 ^ 32 - b)) % 2 ^ 32)

/-- `vmul.i`: low 32 bits of the product. -/
def execVmulI (s : State) (g : GrainId) (scalar : Bool) (vd a b : Fin 32) (pg : Fin 8) (t : Nat) :
    Host.Outcome State Fault Refusal :=
  s.arith g t 0x02 scalar vd a b pg (fun _ a b => a * b % 2 ^ 32)

/-- `vand`: bitwise and. -/
def execVand (s : State) (g : GrainId) (scalar : Bool) (vd a b : Fin 32) (pg : Fin 8) (t : Nat) :
    Host.Outcome State Fault Refusal :=
  s.arith g t 0x03 scalar vd a b pg (fun _ a b => a &&& b)

/-- `vor`: bitwise or. -/
def execVor (s : State) (g : GrainId) (scalar : Bool) (vd a b : Fin 32) (pg : Fin 8) (t : Nat) :
    Host.Outcome State Fault Refusal :=
  s.arith g t 0x04 scalar vd a b pg (fun _ a b => a ||| b)

/-- `vxor`: bitwise exclusive or. -/
def execVxor (s : State) (g : GrainId) (scalar : Bool) (vd a b : Fin 32) (pg : Fin 8) (t : Nat) :
    Host.Outcome State Fault Refusal :=
  s.arith g t 0x05 scalar vd a b pg (fun _ a b => a ^^^ b)

/-- `vsll`: left shift by operand [4:0]. -/
def execVsll (s : State) (g : GrainId) (scalar : Bool) (vd a b : Fin 32) (pg : Fin 8) (t : Nat) :
    Host.Outcome State Fault Refusal :=
  s.arith g t 0x06 scalar vd a b pg (fun _ a b => a * 2 ^ (b % 32) % 2 ^ 32)

/-- `vsrl`: logical right shift by operand [4:0]. -/
def execVsrl (s : State) (g : GrainId) (scalar : Bool) (vd a b : Fin 32) (pg : Fin 8) (t : Nat) :
    Host.Outcome State Fault Refusal :=
  s.arith g t 0x07 scalar vd a b pg (fun _ a b => a / 2 ^ (b % 32))

/-- `vsra`: arithmetic right shift by operand [4:0]. -/
def execVsra (s : State) (g : GrainId) (scalar : Bool) (vd a b : Fin 32) (pg : Fin 8) (t : Nat) :
    Host.Outcome State Fault Refusal :=
  s.arith g t 0x08 scalar vd a b pg (fun _ a b => wrapInt (laneInt a / 2 ^ (b % 32)) 32)

/-- `vmin.i`: signed minimum. -/
def execVminI (s : State) (g : GrainId) (scalar : Bool) (vd a b : Fin 32) (pg : Fin 8) (t : Nat) :
    Host.Outcome State Fault Refusal :=
  s.arith g t 0x09 scalar vd a b pg (fun _ a b => if laneInt a ≤ laneInt b then a else b)

/-- `vmax.i`: signed maximum. -/
def execVmaxI (s : State) (g : GrainId) (scalar : Bool) (vd a b : Fin 32) (pg : Fin 8) (t : Nat) :
    Host.Outcome State Fault Refusal :=
  s.arith g t 0x0A scalar vd a b pg (fun _ a b => if laneInt a ≤ laneInt b then b else a)

/-- `vminu`: unsigned minimum. -/
def execVminu (s : State) (g : GrainId) (scalar : Bool) (vd a b : Fin 32) (pg : Fin 8) (t : Nat) :
    Host.Outcome State Fault Refusal :=
  s.arith g t 0x0B scalar vd a b pg (fun _ a b => if a ≤ b then a else b)

/-- `vmaxu`: unsigned maximum. -/
def execVmaxu (s : State) (g : GrainId) (scalar : Bool) (vd a b : Fin 32) (pg : Fin 8) (t : Nat) :
    Host.Outcome State Fault Refusal :=
  s.arith g t 0x0C scalar vd a b pg (fun _ a b => if a ≤ b then b else a)

/-- `vadd.f`: binary32 sum. -/
def execVaddF (s : State) (g : GrainId) (scalar : Bool) (vd a b : Fin 32) (pg : Fin 8) (t : Nat) :
    Host.Outcome State Fault Refusal :=
  s.arith g t 0x10 scalar vd a b pg (fun _ a b => (f32.add 0 a b).1)

/-- `vsub.f`: binary32 difference. -/
def execVsubF (s : State) (g : GrainId) (scalar : Bool) (vd a b : Fin 32) (pg : Fin 8) (t : Nat) :
    Host.Outcome State Fault Refusal :=
  s.arith g t 0x11 scalar vd a b pg (fun _ a b => (f32.sub 0 a b).1)

/-- `vmul.f`: binary32 product. -/
def execVmulF (s : State) (g : GrainId) (scalar : Bool) (vd a b : Fin 32) (pg : Fin 8) (t : Nat) :
    Host.Outcome State Fault Refusal :=
  s.arith g t 0x12 scalar vd a b pg (fun _ a b => (f32.mul 0 a b).1)

/-- `vdiv.f`: binary32 quotient. -/
def execVdivF (s : State) (g : GrainId) (scalar : Bool) (vd a b : Fin 32) (pg : Fin 8) (t : Nat) :
    Host.Outcome State Fault Refusal :=
  s.arith g t 0x13 scalar vd a b pg (fun _ a b => (f32.div 0 a b).1)

/-- `vfma`: vd = vs1 × operand b + vd, one rounding. -/
def execVfma (s : State) (g : GrainId) (scalar : Bool) (vd a b : Fin 32) (pg : Fin 8) (t : Nat) :
    Host.Outcome State Fault Refusal :=
  s.arith g t 0x14 scalar vd a b pg (fun d a b => (f32.fma 0 a b d 0).1)

/-- `vfnma`: vd = vd − vs1 × operand b, one rounding. -/
def execVfnma (s : State) (g : GrainId) (scalar : Bool) (vd a b : Fin 32) (pg : Fin 8) (t : Nat) :
    Host.Outcome State Fault Refusal :=
  s.arith g t 0x15 scalar vd a b pg (fun d a b => (f32.fma 0 (f32.neg a) b d 0).1)

/-- `vmin.f`: minimum as `fmin`. -/
def execVminF (s : State) (g : GrainId) (scalar : Bool) (vd a b : Fin 32) (pg : Fin 8) (t : Nat) :
    Host.Outcome State Fault Refusal :=
  s.arith g t 0x16 scalar vd a b pg (fun _ a b => (f32.min a b).1)

/-- `vmax.f`: maximum as `fmax`. -/
def execVmaxF (s : State) (g : GrainId) (scalar : Bool) (vd a b : Fin 32) (pg : Fin 8) (t : Nat) :
    Host.Outcome State Fault Refusal :=
  s.arith g t 0x17 scalar vd a b pg (fun _ a b => (f32.max a b).1)

/-- `vsqrt.f`: binary32 square root. -/
def execVsqrtF (s : State) (g : GrainId) (vd a : Fin 32) (pg : Fin 8) (t : Nat) : Host.Outcome State Fault Refusal :=
  s.arith1 g t 0x18 vd a pg (fun a => (f32.sqrt 0 a).1)

/-- `vabs.f`: sign cleared. -/
def execVabsF (s : State) (g : GrainId) (vd a : Fin 32) (pg : Fin 8) (t : Nat) : Host.Outcome State Fault Refusal :=
  s.arith1 g t 0x19 vd a pg (fun a => canon32 (f32.abs a))

/-- `vneg.f`: sign inverted. -/
def execVnegF (s : State) (g : GrainId) (vd a : Fin 32) (pg : Fin 8) (t : Nat) : Host.Outcome State Fault Refusal :=
  s.arith1 g t 0x1A vd a pg (fun a => canon32 (f32.neg a))

/-- `vcvt.f.i`: signed integer to binary32. -/
def execVcvtFI (s : State) (g : GrainId) (vd a : Fin 32) (pg : Fin 8) (t : Nat) : Host.Outcome State Fault Refusal :=
  s.arith1 g t 0x1B vd a pg (fun a => (f32.ofInt 0 (laneInt a)).1)

/-- `vcvt.i.f`: binary32 to signed integer, saturating, 0 from a NaN. -/
def execVcvtIF (s : State) (g : GrainId) (vd a : Fin 32) (pg : Fin 8) (t : Nat) : Host.Outcome State Fault Refusal :=
  s.arith1 g t 0x1C vd a pg (fun a => (f32.toInt 0 a).1)

end Sys2Proof.Machine
end

