-- ==== Sys2Proof/Machine/Correlator.lean ====
section
/-!
DEFINITION. The impedance correlators (R225 to R227).
-/

namespace Sys2Proof.Machine

/-- The vector block of a grain (R167). -/
def vblockOf (src : Nat) : Nat := src / 16 % 16

/-- Lanes waiting in a block's correlator, one list per `vcorr`. -/
def State.corrQueue (s : State) (b : Nat) : List (List Lane) := Tab.get [] s.corr b
def State.setCorrQueue (s : State) (b : Nat) (q : List (List Lane)) : State :=
  ({ s with corr := Tab.set [] s.corr b q }).wr (ES_CORR_STAT b) ES_CORR_STAT_PEND (b2n !q.isEmpty)

/-- A saturating count of `ES_CORR_CNT` moves up. -/
def State.corrCount (s : State) (b n : Nat) (f : Fld) : State :=
  s.wr (ES_CORR_CNT b) f (Nat.min (s.rd (ES_CORR_CNT b) f + n) 65535)

/-- Lanes reach their block's correlator (R225): discarded while it does not run or is being cleared, waiting while its
queue is full, else accepted but for channels beyond `NCH`. -/
def State.corrTry (s : State) (src : Nat) (lanes : List Lane) : State :=
  let b := vblockOf src
  let go := fun (s : State) => (s.updGrain src (fun x => { x with wait := .none })).stepOn src
  if ¬ s.rdB (ES_CORR_CTL b) ES_CORR_CTL_RUN ∨ s.rdB (ES_CORR_STAT b) ES_CORR_STAT_BUSY then
    go (s.corrCount b lanes.length ES_CORR_CNT_IDLEN)
  else if 16 ≤ (s.corrQueue b).length then
    s.updGrain src (fun x => { x with wait := .vcorr (lanes.map (fun l => (l.chan, l.value, l.instant))) })
  else
    let nch := s.rd (ES_CORR_CTL b) ES_CORR_CTL_NCH
    let ok := lanes.filter (fun l => decide (l.chan < nch))
    let s := s.corrCount b (lanes.length - ok.length) ES_CORR_CNT_RANGEN
    go (if ok.isEmpty then s else s.setCorrQueue b (s.corrQueue b ++ [ok]))

/-- `vcorr gs, vs1, vs2` sends the active lanes: value, instant and channel gs + i. -/
def execVcorr (s : State) (g : GrainId) (rs vs1 vs2 : Fin 32) (pg : Fin 8) (t : Nat) : Host.Outcome State Fault Refusal :=
  s.issue g t (encV 0x35 rs vs1 vs2 pg 0x10) (g.kind == .vec) true (fun s =>
    let src := g.src
    s.corrTry src ((s.activeLanes src pg).map (fun i =>
      { chan := (s.gReg src rs).toNat + i, value := s.lane src vs1 i, instant := s.lane src vs2 i })))

/-- The cosine of the turn fraction n/d scaled by 2^40 (log 8). -/
def cosTurn40 (n d : Nat) : Int :=
  let f := 4 * (n % d)
  let r := f % d
  let a := halfPi40 * (r : Int) / (d : Int)
  match f / d with
  | 0 => cosQuad a
  | 1 => -cosQuad (halfPi40 - a)
  | 2 => -cosQuad a
  | _ => cosQuad (halfPi40 - a)

/-- A cosine within 2^−30, in binary64: the deviation is free (R226, log 4). -/
def cosNear (n d free : Nat) : Nat :=
  let c := cosTurn40 n d * 2 ^ 22 + ((free % (2 ^ 33 + 2 ^ 30 + 1) : Nat) : Int) - (2 ^ 32 + 2 ^ 29)
  (f64.round 0 (decide (c < 0)) c.natAbs (-62)).1

/-- value × factor is added to the binary64 word at an address, rounded to nearest even (R226). -/
def State.corrAdd (s : State) (a value factor : Nat) : State :=
  s.storeLE a 8 (f64.fma 0 (f32.convert f64 0 value).1 factor (s.loadLE a 8) 0).1

/-- One lane and frequency: C and S of its channel. -/
def State.corrFreq (s : State) (b : Nat) (l : Lane) (k : Nat) : State :=
  let d := 10 ^ 13
  let phi := s.rd (ES_CORR_FRQ b k) ES_CORR_FRQ_FRQ * l.instant % d
  let a := s.corrBase b + l.chan * 64 + k * 16
  let n := s.fresh
  ((s.drew 2).corrAdd a l.value (cosNear phi d (Config.freeWord n))).corrAdd (a + 8) l.value
    (cosNear (4 * phi + 3 * d) (4 * d) (Config.freeWord (n + 1)))

/-- A lane accumulated: every frequency in use, then N of its channel, saturating. -/
def State.corrLane (s : State) (b : Nat) (l : Lane) : State :=
  let s := (List.range (s.rd (ES_CORR_CTL b) ES_CORR_CTL_NFRQ + 1)).foldl (fun s k => s.corrFreq b l k) s
  let a := s.corrBase b + 393216 + l.chan * 4
  s.storeLE a 4 (Nat.min (s.loadLE a 4 + 1) (2 ^ 32 - 1))

/-- The grains of a block that wait with their lanes go on, in order, while there is room (R225). -/
def State.corrResume (s : State) (b : Nat) : State :=
  (List.range 4).foldl (fun s g =>
    let src := 0x200 + b * 16 + g
    match (s.grain src).wait with
    | .vcorr ls => s.corrTry src (ls.map (fun (c, v, i) => { chan := c, value := v, instant := i }))
    | _ => s) s

/-- CORR_LANE_ACCUMULATE: the oldest accepted lane is accumulated (R226). -/
def execCorrLaneAccumulate (s : State) (b : Fin 4) (t : Nat) : Host.Outcome State Fault Refusal :=
  let s := s.at t
  match s.corrQueue b with
  | (l :: ls) :: q => .next (((s.corrLane b l).setCorrQueue b (if ls.isEmpty then q else ls :: q)).corrResume b)
  | _ => .next s

/-- CORR_CLEAR_DONE: a clear ends; `BUSY` reads 0 (R227). -/
def execCorrClearDone (s : State) (b : Fin 4) (t : Nat) : Host.Outcome State Fault Refusal :=
  .next ((s.at t).wr (ES_CORR_STAT b) ES_CORR_STAT_BUSY 0)

end Sys2Proof.Machine
end

