-- ==== Sys2Proof/Machine/VecMem.lean ====
section
/-!
DEFINITION. Vector memory access (R218) and the table instructions (R222 to R224).
-/

namespace Sys2Proof.Machine

/-- An address a vector instruction may name outside the grain's own memory: region SRAM (R218). -/
def inRegionSram (a : Nat) : Bool := sramAreas.any (fun m => decide (m.1 ≤ a ∧ a < m.1 + m.2))

/-- Alignment and MPU permission of the lanes' addresses: the exception and the address of the lowest failing lane (R218). -/
def State.laneCheck (s : State) (src : Nat) (k : Access) (as : List Nat) : Option (Nat × Nat) :=
  as.findSome? (fun a =>
    if a % 4 ≠ 0 then some (3, a) else if s.allows src a k then none else some (if k = .write then 6 else 5, a))

/-- The word at a lane's address; none for an error response. -/
def State.laneRead (s : State) (src a : Nat) : Option Nat :=
  match ownAddr src a with
  | some p => if s.sound p 4 then some (s.loadLE p 4) else none
  | none => if inRegionSram a ∧ s.sound a 4 ∧ s.memAnswers a then some (s.loadLE a 4) else none

/-- A gather: all lanes are checked before any is performed, and an error response leaves every lane as it was. -/
def State.gather (s : State) (src vd : Nat) (l : List Nat) (addr : Nat → Nat) : State :=
  match s.laneCheck src .read (l.map addr) with
  | some (c, a) => s.exc src c a
  | none =>
    match l.find? (fun i => (s.laneRead src (addr i)).isNone) with
    | some i => s.exc src 7 (addr i)
    | none => (s.putLanes src vd l (fun i => (s.laneRead src (addr i)).getD 0)).stepOn src

/-- A lane stored: another address than the grain's own memory or region SRAM is refused, imprecisely (R210, R218). -/
def State.laneWrite (s : State) (src a v : Nat) : State :=
  match ownAddr src a with
  | some p => (s.storeLE p 4 v).overlayTouched p
  | none =>
    let pc := s.pc src
    let r := if inRegionSram a then s.busStore src pc a 4 v else s.writeError src a v
    if r.1 then r.2 else r.2.updGrain src (fun x => { x with imprecise := x.imprecise ++ [(pc, a)] })

/-- A scatter: the highest lane's value remains where lanes name one address. -/
def State.scatter (s : State) (src vs : Nat) (l : List Nat) (addr : Nat → Nat) : State :=
  match s.laneCheck src .write (l.map addr) with
  | some (c, a) => s.exc src c a
  | none => (l.foldl (fun s i => s.laneWrite src (addr i) (s.lane src vs i)) s).stepOn src

/-- Lane addresses: consecutive, at a signed byte stride, and indexed by a vector. -/
def State.addrSeq (s : State) (src rs1 i : Nat) : Nat := ((s.gReg src rs1).toNat + 4 * i) % 2 ^ 32
def State.addrStride (s : State) (src rs1 rs2 i : Nat) : Nat :=
  ((s.gReg src rs1).toNat + i * (s.gReg src rs2).toNat) % 2 ^ 32
def State.addrIndex (s : State) (src rs1 vs2 i : Nat) : Nat := ((s.gReg src rs1).toNat + 4 * s.lane src vs2 i) % 2 ^ 32

def State.vmem (s : State) (g : GrainId) (t w vd pg : Nat) (store : Bool) (addr : State → Nat → Nat) :
    Host.Outcome State Fault Refusal :=
  s.issue g t w (g.kind == .vec) true (fun s =>
    let l := s.activeLanes g.src pg
    if store then s.scatter g.src vd l (addr s) else s.gather g.src vd l (addr s))

/-- `vld vd, gs1`: lane i from gs1 + 4i. -/
def execVld (s : State) (g : GrainId) (vd rs1 : Fin 32) (pg : Fin 8) (t : Nat) : Host.Outcome State Fault Refusal :=
  s.vmem g t (encV 0x32 vd rs1 0 pg 0) vd pg false (fun s => s.addrSeq g.src rs1)

/-- `vlds vd, gs1, gs2`: lane i from gs1 + i × gs2. -/
def execVlds (s : State) (g : GrainId) (vd rs1 rs2 : Fin 32) (pg : Fin 8) (t : Nat) : Host.Outcome State Fault Refusal :=
  s.vmem g t (encV 0x32 vd rs1 rs2 pg 1) vd pg false (fun s => s.addrStride g.src rs1 rs2)

/-- `vst vs, gs1`: lane i to gs1 + 4i. -/
def execVst (s : State) (g : GrainId) (vs rs1 : Fin 32) (pg : Fin 8) (t : Nat) : Host.Outcome State Fault Refusal :=
  s.vmem g t (encV 0x32 vs rs1 0 pg 2) vs pg true (fun s => s.addrSeq g.src rs1)

/-- `vsts vs, gs1, gs2`: lane i to gs1 + i × gs2. -/
def execVsts (s : State) (g : GrainId) (vs rs1 rs2 : Fin 32) (pg : Fin 8) (t : Nat) : Host.Outcome State Fault Refusal :=
  s.vmem g t (encV 0x32 vs rs1 rs2 pg 3) vs pg true (fun s => s.addrStride g.src rs1 rs2)

/-- `vgth vd, gs1, vs2`: lane i from gs1 + 4 × vs2 lane i. -/
def execVgth (s : State) (g : GrainId) (vd rs1 vs2 : Fin 32) (pg : Fin 8) (t : Nat) : Host.Outcome State Fault Refusal :=
  s.vmem g t (encV 0x32 vd rs1 vs2 pg 4) vd pg false (fun s => s.addrIndex g.src rs1 vs2)

/-- `vsct vs, gs1, vs2`: lane i to gs1 + 4 × vs2 lane i. -/
def execVsct (s : State) (g : GrainId) (vs rs1 vs2 : Fin 32) (pg : Fin 8) (t : Nat) : Host.Outcome State Fault Refusal :=
  s.vmem g t (encV 0x32 vs rs1 vs2 pg 5) vs pg true (fun s => s.addrIndex g.src rs1 vs2)

/-! ## Tables (R222, R223) -/

/-- A table descriptor from its words (R222). -/
structure Table where
  base : Nat
  nx : Nat
  ny : Nat
  x0 : Nat
  rdx : Nat
  y0 : Nat
  rdy : Nat
  np : Nat
  clamp : Bool
  deriving DecidableEq, Repr

def tableOf (ws : List Nat) : Table :=
  let w := fun i => ws.getD i 0
  { base := w 0, nx := w 1 % 65536, ny := w 1 / 65536, x0 := w 2, rdx := w 3, y0 := w 4, rdy := w 5, np := w 6 % 65536,
    clamp := bit (w 6) 16 }

/-- The fields' ranges (R222). -/
def tableOk (src : Nat) (ws : List Nat) : Bool :=
  let d := tableOf ws
  d.base % 4 == 0 && ((ownAddr src d.base).isSome || inRegionSram d.base) && decide (2 ≤ d.nx ∧ d.nx ≤ 1024) &&
    decide (1 ≤ d.ny ∧ d.ny ≤ 64) && decide (1 ≤ d.np ∧ d.np ≤ 8) && ws.getD 6 0 / 131072 == 0 && ws.getD 7 0 == 0

/-- `vtld slot, gs1`: a 32-byte table descriptor into a table slot; one out of range leaves it invalid. -/
def execVtld (s : State) (g : GrainId) (slot : Fin 4) (rs1 : Fin 32) (t : Nat) : Host.Outcome State Fault Refusal :=
  s.issue g t (encV 0x35 0 rs1 0 0 (8 + slot)) (g.kind == .vec) true (fun s =>
    let src := g.src
    let a := (s.gReg src rs1).toNat
    let words := (List.range 8).map (fun i => a + 4 * i)
    if a % 32 ≠ 0 then s.exc src 3 a
    else if ¬ s.allows src a .read then s.exc src 5 a
    else match words.find? (fun a => (s.laneRead src a).isNone) with
      | some a => s.exc src 7 a
      | none =>
        let ws := words.map (fun a => (s.laneRead src a).getD 0)
        (s.updGrain src (fun x => { x with tabs := Tab.set {} x.tabs slot { valid := tableOk src ws, words := ws } })).stepOn src)

/-- min(max(floor(u), 0), hi) of a binary32 number; 0 from a NaN (log 8). -/
def floorClamp (u hi : Nat) : Nat :=
  match f32.val u with
  | .nan _ => 0
  | .inf neg => if neg then 0 else hi
  | .num neg m e => if neg then 0 else Nat.min (if 0 ≤ e then m * 2 ^ e.toNat else m / 2 ^ (-e).toNat) hi

/-- A fraction limited to [0, 1] (R223). -/
def clamp01 (x : Nat) : Nat := (f32.min (f32.max x 0).1 0x3F800000).1

/-- One axis of `vtab2`: the index and the fraction. -/
def tabAxis (x x0 rdx n : Nat) (clamp : Bool) : Nat × Nat :=
  let u := (f32.mul 0 (f32.sub 0 x x0).1 rdx).1
  let i := floorClamp u (n - 2)
  let f := (f32.sub 0 u (f32.ofInt 0 i).1).1
  (i, if clamp then clamp01 f else f)

/-- Where `vtab2` reads: x and y axes and the addresses of val(i, j), val(i+1, j), val(i, j+1), val(i+1, j+1); with NY 1 the
second row is not read. -/
def Table.cells (d : Table) (x y p : Nat) : Nat × Nat × List Nat :=
  let ax := tabAxis x d.x0 d.rdx d.nx d.clamp
  let ay := if d.ny = 1 then (0, 0) else tabAxis y d.y0 d.rdy d.ny d.clamp
  let at_ := fun i j => (d.base + ((p * d.ny + j) * d.nx + i) * 4) % 2 ^ 32
  (ax.2, ay.2, [at_ ax.1 ay.1, at_ (ax.1 + 1) ay.1] ++ (if d.ny = 1 then [] else [at_ ax.1 (ay.1 + 1), at_ (ax.1 + 1) (ay.1 + 1)]))

/-- No memory is read: x or y is a NaN, or the plane does not exist. -/
def Table.skips (d : Table) (x y p : Nat) : Bool := (f32.val x).isNan || (f32.val y).isNan || decide (d.np ≤ p)

/-- a + f × (b − a), one rounding for each operation. -/
def lerp (f a b : Nat) : Nat := (f32.fma 0 f (f32.sub 0 b a).1 a 0).1

/-- The result from the values read (R223). -/
def Table.interp (d : Table) (x y p : Nat) (val : Nat → Nat) : Nat :=
  if d.skips x y p then f32.nan
  else
    let c := d.cells x y p
    let vs := c.2.2.map val
    let a := lerp c.1 (vs.getD 0 0) (vs.getD 1 0)
    let b := if d.ny = 1 then a else lerp c.1 (vs.getD 2 0) (vs.getD 3 0)
    lerp c.2.1 a b

/-- `vtab2 vd, vs1, vs2` on a table slot; an invalid slot is illegal (R222, R223). -/
def execVtab2 (s : State) (g : GrainId) (slot : Fin 4) (vd vs1 vs2 : Fin 32) (pg : Fin 8) (t : Nat) :
    Host.Outcome State Fault Refusal :=
  let w := encV 0x35 vd vs1 vs2 pg slot
  s.issue g t w (g.kind == .vec) true (fun s =>
    let src := g.src
    let sl := Tab.get {} (s.grain src).tabs slot
    let d := tableOf sl.words
    let l := s.activeLanes src pg
    let arg := fun i => (s.lane src vs1 i, s.lane src vs2 i, s.lane src vd i)
    let reads := fun i => let (x, y, p) := arg i; if d.skips x y p then [] else (d.cells x y p).2.2
    if ¬ sl.valid then s.exc src 1 w
    else match s.laneCheck src .read (l.flatMap reads) with
      | some (c, a) => s.exc src c a
      | none =>
        match (l.flatMap reads).find? (fun a => (s.laneRead src a).isNone) with
        | some a => s.exc src 7 a
        | none => (s.putLanes src vd l (fun i =>
            let (x, y, p) := arg i
            d.interp x y p (fun a => (s.laneRead src a).getD 0))).stepOn src)

/-! ## The exponential (R224) -/

/-- ln 2 and one, scaled by 2^96. -/
def ln2q96 : Int := 54916777467707473351141471128
def q96 : Int := 2 ^ 96

/-- e^r scaled by 2^96, for r from 0 to ln 2 at that scale, by its Taylor polynomial. -/
def expTaylor (r : Int) : Nat → Int → Int
  | 0, acc => acc
  | n + 1, acc => expTaylor r n (q96 + r * acc / (q96 * (n + 1)))

/-- The largest binary32 number not above e^x, for the finite x = ±m · 2^e within the range of R224. -/
def expFloor (neg : Bool) (m : Nat) (e : Int) : Nat :=
  let sh := e + 96
  let mag : Nat := if 0 ≤ sh then m * 2 ^ sh.toNat else m / 2 ^ (-sh).toNat
  let x := sgn neg mag
  let k := x / ln2q96
  let y := expTaylor (x - k * ln2q96) 30 q96
  ((k + 127).toNat * 2 ^ 23 + y.toNat / 2 ^ 73) - 2 ^ 23

/-- e^x within 2 ulp: one of the four binary32 numbers about the exact value, which of them `pick` says, is free (log 4). -/
def vexpLane (x pick : Nat) : Nat :=
  match f32.val x with
  | .nan _ => f32.nan
  | .inf neg => if neg then 0 else f32.infBits
  | .num neg m e =>
    let hundredThousandths : Nat := if 0 ≤ e then m * 2 ^ e.toNat * 100000 else m * 100000 / 2 ^ (-e).toNat
    let above : Nat := if 0 ≤ e then 0 else b2n (m * 100000 % 2 ^ (-e).toNat != 0)
    if neg ∧ 8733654 < hundredThousandths + above then 0
    else if ¬ neg ∧ 8872284 < hundredThousandths + above then f32.infBits
    else if m = 0 then 0x3F800000 - 2 + pick % 5
    else Nat.min (expFloor neg m e - 1 + pick % 4) f32.infBits

/-- `vexp vd, vs1`: e^x, within 2 ulp. -/
def execVexp (s : State) (g : GrainId) (vd vs1 : Fin 32) (pg : Fin 8) (t : Nat) : Host.Outcome State Fault Refusal :=
  s.issue g t (encV 0x35 vd vs1 0 pg 4) (g.kind == .vec) true (fun s =>
    let src := g.src
    let n := s.fresh
    ((s.drew 8).putLanes src vd (s.activeLanes src pg)
      (fun i => vexpLane (s.lane src vs1 i) (Config.freeWord (n + i)))).stepOn src)

end Sys2Proof.Machine
end

