-- ==== Sys2Proof/Machine/EstCore.lean ====
section
/-!
DEFINITION. The arithmetic, the records and the checks that the resident kernels share (R236 to R240, R267), and how a
kernel is invoked and ends (R228 to R230).
-/

namespace Sys2Proof.Machine

/-! ## Binary32 arithmetic of the kernels: each operation rounds once (R216, log 19) -/

def fAdd (a b : Nat) : Nat := (f32.add 0 a b).1
def fSub (a b : Nat) : Nat := (f32.sub 0 a b).1
def fMul (a b : Nat) : Nat := (f32.mul 0 a b).1
def fDiv (a b : Nat) : Nat := (f32.div 0 a b).1
def fMin (a b : Nat) : Nat := (f32.min a b).1
def fMax (a b : Nat) : Nat := (f32.max a b).1
def fSqrt (a : Nat) : Nat := (f32.sqrt 0 a).1
def fLt (a b : Nat) : Bool := FVal.lt (f32.val a) (f32.val b)
def fLe (a b : Nat) : Bool := fLt a b || FVal.eq (f32.val a) (f32.val b)
def fNeg (a : Nat) : Nat := f32.neg a
def fAbs (a : Nat) : Nat := f32.abs a
def fNan (a : Nat) : Bool := (f32.val a).isNan
def f1 : Nat := 0x3F800000
def f2 : Nat := 0x40000000
def f3 : Nat := 0x40400000
def f3600 : Nat := 0x45610000

/-- The binary32 number nearest to n / d. -/
def fRat (n : Int) (d : Nat) : Nat :=
  if n = 0 ∨ d = 0 then 0
  else
    let k := 60 + bitLen d
    let q := n.natAbs * 2 ^ k / d
    let sticky := if n.natAbs * 2 ^ k % d = 0 then 0 else 1
    (f32.round 0 (decide (n < 0)) (2 * q + sticky) (-(k : Int) - 1)).1

/-- The binary32 number nearest to the square root of n / d. -/
def fRootRat (n d : Nat) : Nat :=
  if n = 0 ∨ d = 0 then 0
  else
    let k := 60 + bitLen d
    let x := n * 2 ^ (2 * k) / d
    let r := isqrt x
    let sticky := if r * r = x ∧ n * 2 ^ (2 * k) % d = 0 then 0 else 1
    (f32.round 0 false (2 * r + sticky) (-(k : Int) - 1)).1

def fInt (n : Int) : Nat := (f32.ofInt 0 n).1

/-- A finite binary32 number scaled by 2^149: exact. -/
def fix149 (x : Nat) : Int :=
  match f32.val x with
  | .num neg m e => sgn neg (m * 2 ^ (e + 149).toNat)
  | _ => 0

/-- The floor of a non-negative number times a scale. -/
def fFloor (x scale : Nat) : Nat := (fix149 x * scale).toNat / 2 ^ 149

/-! ## Memory of a kernel -/

/-- Where an address of a vector grain's memory or of region SRAM lies. -/
def physOf (src a : Nat) : Nat := (ownAddr src a).getD a

def State.kLoad (s : State) (src a n : Nat) : Nat := s.loadLE (physOf src a) n
def State.kStore (s : State) (src a n v : Nat) : State :=
  match ownAddr src a with
  | some p => (s.storeLE p n v).overlayTouched p
  | none => (s.busStore src (s.pc src) a n v).2

/-- An area of `n` bytes as a kernel reads or writes it: the exception and address where it cannot, else none. A kernel's
accesses are those of a vector instruction (R184, R218). -/
def State.areaFault (s : State) (src : Nat) (k : Access) (a n : Nat) : Option (Nat × Nat) :=
  if n = 0 then none
  else if a % 4 ≠ 0 then some (3, a)
  else
    match ((List.range (n / 64 + 2)).map (fun i => if i = 0 then a else (a / 64 + i) * 64)).find?
        (fun x => decide (x < a + n) && !s.allows src x k) with
    | some x => some (if k = .write then 6 else 5, x)
    | none =>
      let own := (ownAddr src a).isSome && (ownAddr src (a + n - 1)).isSome
      let shared := sramAreas.any (fun m => decide (m.1 ≤ a ∧ a + n ≤ m.1 + m.2))
      let open_ : Bool := if k = .write then own || s.ramOpen a else true
      if (own || shared) && open_ && (k == .write || s.sound (physOf src a) n) then none else some (7, a)

/-! ## The descriptor (R229, R237) -/

structure KDesc where
  at_ : Nat
  items : Nat
  prm : Nat
  state : Nat
  input : Nat
  output : Nat
  time : Nat
  map : Nat
  deadline : Nat
  chem : Nat
  a : Nat
  b : Nat
  chan : Nat
  ncell : Nat
  deriving DecidableEq, Repr

def State.kdesc (s : State) (src a : Nat) : KDesc :=
  let w := fun o n => s.kLoad src (a + o) n
  { at_ := a, items := w 6 2, prm := w 8 4, state := w 12 4, input := w 16 4, output := w 20 4, time := w 32 8, map := w 40 4,
    deadline := w 44 4, chem := w 48 4, a := w 52 4, b := w 56 4, chan := w 60 2, ncell := w 62 2 }

/-- A cell map entry (R237). -/
structure MapEntry where
  node : Nat
  cell : Nat
  aux : Nat
  str : Nat
  chem : Nat
  flat : Nat
  deriving DecidableEq, Repr

def State.mapEntry (s : State) (src map i : Nat) : MapEntry :=
  let w := fun o n => s.kLoad src (map + 8 * i + o) n
  { node := w 0 2, cell := w 2 1, aux := w 3 1, str := w 4 1, chem := w 5 1, flat := w 6 2 }

/-- Ranges of a map entry (R6, R237). -/
def MapEntry.ok (m : MapEntry) : Bool :=
  decide (m.node < 1152 ∧ m.cell < 18 ∧ m.str < 12 ∧ m.chem < 8 ∧ m.flat < 20736) && (decide (m.aux < 8) || m.aux == 0xFF)

/-- The ranges of the parameter block (R267): offset, least and greatest value as binary32. -/
def paramRanges : List (Nat × Nat × Nat) :=
  [(4, 0x3A83126F, 0x3D4CCCCD), (8, 0x42700000, 0x45E10000), (12, 0x3BA3D70A, 0x3DCCCCCD), (16, 0x41200000, 0x42F00000),
   (20, 0x3C23D70A, 0x3E4CCCCD), (24, 0x42700000, 0x44E10000), (28, 0x3A03126F, 0x3C23D70A), (32, 0x45610000, 0x4A1E3400),
   (36, 0x3CA3D70A, 0x3E99999A), (40, 0x3DCCCCCD, 0x3F800000), (44, 0x40400000, 0x41200000), (48, 0x40A00000, 0x447A0000),
   (52, 0x3A83126F, 0x3E800000), (56, 0x00000000, 0x3D4CCCCD), (60, 0x00000000, 0x41200000), (64, 0x3A83126F, 0x3D4CCCCD),
   (68, 0x3D4CCCCD, 0x41A00000), (72, 0x3DCCCCCD, 0x3F666666), (76, 0x3D4CCCCD, 0x40000000), (80, 0x3DCCCCCD, 0x42480000),
   (84, 0x40000000, 0x447A0000), (88, 0x40000000, 0x41F00000), (92, 0x42700000, 0x47A8C000), (96, 0x3A83126F, 0x3F800000),
   (100, 0x45610000, 0x4A1E3400), (104, 0x3F800000, 0x41200000), (108, 0x3A83126F, 0x3D4CCCCD), (112, 0x00000000, 0x42C80000),
   (116, 0x00000000, 0x3E4CCCCD), (120, 0x3F800000, 0x447A0000), (124, 0x00000000, 0x44160000)]

/-- The parameter block at an address is in range (R267). -/
def State.prmOk (s : State) (src a : Nat) : Bool :=
  s.kLoad src a 4 == 1 && paramRanges.all (fun (o, lo, hi) => fLe lo (s.kLoad src (a + o) 4) && fLe (s.kLoad src (a + o) 4) hi)

/-! ## Chemistry profiles (R240) -/

/-- A chemistry profile: its tables and its words. -/
structure Chem where
  t0 : Table
  t1 : Table
  ok : Bool
  words : List Nat
  deriving DecidableEq, Repr

def State.chem (s : State) (src base n : Nat) : Chem :=
  let ws := (List.range 32).map (fun i => s.kLoad src (base + 128 * n + 4 * i) 4)
  { t0 := tableOf ws, t1 := tableOf (ws.drop 8), ok := tableOk src (ws.take 8) && tableOk src ((ws.drop 8).take 8), words := ws }

/-- The word at an offset of a profile. -/
def Chem.at_ (c : Chem) (o : Nat) : Nat := c.words.getD (o / 4) 0
def Chem.qnom (c : Chem) : Nat := c.at_ 64

/-- tab(n, x, y) (R242). -/
def State.tab (s : State) (src : Nat) (d : Table) (n x y : Nat) : Nat :=
  d.interp x y n (fun a => s.kLoad src a 4)

/-- slope(n, x, y): the row's difference per unit of x, interpolated in y (R242). -/
def State.slope (s : State) (src : Nat) (d : Table) (n x y : Nat) : Nat :=
  let c := d.cells x y n
  let v := fun i => s.kLoad src (c.2.2.getD i 0) 4
  let row := fun i => fMul (fSub (v (i + 1)) (v i)) d.rdx
  if d.skips x y n then f32.nan else if d.ny = 1 then row 0 else lerp c.2.1 (row 0) (row 2)

/-! ## Cell records (R239) -/

structure CellRec where
  soc : Nat
  p : Nat
  d : Nat
  h : Nat
  eta1 : Nat
  eta2 : Nat
  rhos : Nat
  rho1 : Nat
  tau1 : Nat
  rho2 : Nat
  tau2 : Nat
  q : Nat
  varq : Nat
  run : Nat
  flags : Nat
  tanch : Nat
  tint : Nat
  deriving DecidableEq, Repr

def State.loadRec (s : State) (src a : Nat) : CellRec :=
  let w := fun i => s.kLoad src (a + 4 * i) 4
  { soc := w 0, p := w 1, d := w 2, h := w 3, eta1 := w 4, eta2 := w 5, rhos := w 6, rho1 := w 7, tau1 := w 8, rho2 := w 9,
    tau2 := w 10, q := w 11, varq := w 12, run := w 13 % 65536, flags := w 13 / 65536, tanch := w 14, tint := w 15 }

def CellRec.words (r : CellRec) : List Nat :=
  [r.soc, r.p, r.d, r.h, r.eta1, r.eta2, r.rhos, r.rho1, r.tau1, r.rho2, r.tau2, r.q, r.varq, r.run % 65536 + r.flags * 65536,
   r.tanch, r.tint]

/-- Words stored one after the other. -/
def State.kStoreWords (s : State) (src a : Nat) (ws : List Nat) : State :=
  (ws.foldl (fun (x : State × Nat) w => (x.1.kStore src x.2 4 w, x.2 + 4)) (s, a)).1

/-- `n` words of a private array take values that are free (log 18). -/
def State.kPrivate (s : State) (src a n : Nat) : State :=
  let f := s.fresh
  (s.drew n).kStoreWords src a ((List.range n).map (fun i => Config.freeWord (f + i) % 2 ^ 32))

/-- A record stored, with its 32 private bytes. -/
def State.storeRec (s : State) (src a : Nat) (r : CellRec) : State := (s.kStoreWords src a r.words).kPrivate src (a + 64) 8

def CellRec.flag (r : CellRec) (n : Nat) : Bool := bit r.flags n
def CellRec.setFlag (r : CellRec) (n : Nat) (v : Bool) : CellRec :=
  { r with flags := r.flags - b2n (bit r.flags n) * 2 ^ n + b2n v * 2 ^ n }

/-- 3√P + D, and the width of the bounds (R246). -/
def CellRec.half (r : CellRec) : Nat := fAdd (fMul f3 (fSqrt r.p)) r.d
def CellRec.width (r : CellRec) : Nat := fMul f2 r.half
/-- The lower and the upper bound (R246). -/
def CellRec.lower (r : CellRec) : Nat := clamp01 (fSub (fSub r.soc (fMul f3 (fSqrt r.p))) r.d)
def CellRec.upper (r : CellRec) : Nat := clamp01 (fAdd (fAdd r.soc (fMul f3 (fSqrt r.p))) r.d)

/-- The model's data of a cell. -/
def State.estCell (s : State) (a : Nat) : EstCell := Tab.get {} s.est.cells a
def State.setEstCell (s : State) (a : Nat) (x : EstCell) : State :=
  { s with est := { s.est with cells := Tab.set {} s.est.cells a x } }
def State.hist (s : State) (a : Nat) : EstHist := Tab.get {} s.est.hists a
def State.updHist (s : State) (a : Nat) (f : EstHist → EstHist) : State :=
  { s with est := { s.est with hists := Tab.upd {} s.est.hists a f } }

/-! ## Invoking a kernel (R228, R230) -/

/-- The resident kernels' item limits (R230) and code sizes. -/
def kernelLimit (_id : Nat) : Nat := 6144
def kernelCode (id : Nat) : Nat := [0, 14, 6, 5, 12, 7, 4, 4, 6].getD id 0 * 1024

/-- A kernel's code copied from kernel ROM into the overlay (R228): where it stands there is not stated (log 6). -/
def State.overlayCopy (s : State) (src id : Nat) : State :=
  if (s.grain src).overlay = id then s
  else
    let s := s.storeBytes (aliasBase src + 0x1C000)
      ((List.range (kernelCode id)).map (fun i => (Config.romByte (Config.kernelBase id + i)).toNat))
    s.updGrain src (fun x => { x with overlay := id })

/-- The conditions on a descriptor's address (R228). -/
def kernelDescOk (src a : Nat) : Bool :=
  let own := 0x11000000 + src / 16 % 16 * 0x200000
  a % 64 == 0 && (decide (0x08000000 ≤ a ∧ a < 0x08020000) || decide (own ≤ a ∧ a < own + 0x200000))

/-- `kcall gd, gs1` (R228). -/
def execKcall (s : State) (g : GrainId) (rd rs1 : Fin 32) (t : Nat) : Host.Outcome State Fault Refusal :=
  s.issue g t (encV 0x36 rd rs1 0 0 0) (g.kind == .vec) true (fun s =>
    let src := g.src
    let a := (s.gReg src rs1).toNat
    let answer := fun (v : Nat) => (s.setG src rd (BitVec.ofNat 32 v)).stepOn src
    if (s.grain src).kern.isSome then answer 5
    else if ¬ kernelDescOk src a then answer 3
    else match s.areaFault src .read a 64 with
      | some (c, x) => s.exc src c x
      | none =>
        let id := s.kLoad src a 1
        let above := if 1 ≤ id ∧ id < 16 then (s.reg (ES_KOVR (src / 16 % 16) id)).toNat else 0
        if ¬ (1 ≤ id ∧ id ≤ 8) ∧ above = 0 then answer 1
        else if above ≠ 0 then
          let pc := s.pc src
          let s := (s.setG src rd 0#32).setG src 3 (BitVec.ofNat 32 a)
          ((s.setG src 1 (BitVec.ofNat 32 (pc + 4))).setPc src above).retired src
        else if s.kLoad src (a + 1) 1 ≠ 1 then answer 2
        else
          let k : Active := { id := id, desc := a, rd := rd, ret := (s.pc src + 4) % 2 ^ 32 }
          let s := (s.overlayCopy src id).setG src 3 (BitVec.ofNat 32 a)
          (s.setPc src 0x0801C000).updGrain src (fun x => { x with kern := some k, wait := .kernel }))

/-! ## The end of a kernel (R228) -/

/-- The registers a kernel leaves undefined: g1, g3 to g15, v0 to v15, p1 to p3 and the table slots take free values. -/
def State.kernelRegs (s : State) (src : Nat) : State :=
  let f := s.fresh
  let word := fun i => BitVec.ofNat 32 (Config.freeWord (f + i))
  let s := s.drew 204
  let s := ([1, 3, 4, 5, 6, 7, 8, 9, 10, 11, 12, 13, 14, 15]).foldl (fun s n => s.setG src n (word n)) s
  let s := (List.range 16).foldl (fun s n =>
    laneIds.foldl (fun s i => s.setLane src n i (word (16 + 8 * n + i)).toNat) s) s
  let s := ([1, 2, 3]).foldl (fun s n => laneIds.foldl (fun s i => s.setPbit src n i (bit (word (144 + n)).toNat i)) s) s
  (List.range 4).foldl (fun s n =>
    let slot : TabSlot := ⟨bit (word (148 + n)).toNat 0, (List.range 8).map (fun i => (word (152 + 8 * n + i)).toNat)⟩
    s.updGrain src (fun x => { x with tabs := Tab.set {} x.tabs n slot })) s

/-- A kernel returns its status: in gd, and in a descriptor to `NSRC` when `NOTIFY` is set (R228). -/
def State.kernelEnd (s : State) (src : Nat) (k : Active) (status : Nat) : State :=
  let notify := bit (s.kLoad src (k.desc + 2) 1) 0
  let nsrc := s.kLoad src (k.desc + 4) 2
  let s := (s.kernelRegs src).setG src k.rd (BitVec.ofNat 32 status)
  let s := (s.updGrain src (fun x => { x with kern := none, wait := .none })).setPc src k.ret
  let s := s.retired src
  if notify then s.post 9 (blockOf src) k.id (nsrc % 4096) k.desc status else s

/-- A kernel's access fails: a synchronous exception inside the overlay, which ends the kernel (R229). -/
def State.kernelExc (s : State) (src c a : Nat) : State :=
  let pc := 0x0801C000 + s.freeNat % 4096 * 4
  (((s.drew 1).setPc src pc).updGrain src (fun x => { x with wait := .none })).exc src c a

/-- A deadline of the descriptor: a miss is recorded with the kernel and the lateness, and noted as a recoverable fault
that restarts no unit (R238). -/
def State.kernelLate (s : State) (src id : Nat) (d : KDesc) : Bool × State :=
  if d.deadline = 0 ∨ s.ns ≤ d.time + d.deadline then (false, s)
  else
    let s := (((s.wr FB_FLT_LAST FB_FLT_LAST_SRC src).wr FB_FLT_LAST FB_FLT_LAST_CLASS 1).wr FB_FLT_LAST FB_FLT_LAST_LEVEL
      0).wr FB_FLT_LAST FB_FLT_LAST_CODE EV_EST_DEADLINE
    let s := s.hit FB_FLT_EVT FB_FLT_EVT_RECOV FB_FLT_CNT0 FB_FLT_CNT0_RECOVN
    (true, s.raise src EV_EST_DEADLINE [id, s.ns - (d.time + d.deadline)])

/-- A kernel runs to its end at an instant. `areas` are what it reads and writes, `pre` the status of a check that writes
nothing (R238), `body` its effect with the status it would return. -/
def State.kernelRun (s : State) (g : GrainId) (t id : Nat) (form : KDesc → Bool) (limit : Nat)
    (areas : State → KDesc → List (Access × Nat × Nat)) (pre : State → KDesc → Option Nat)
    (body : State → Nat → KDesc → Nat × State) : Host.Outcome State Fault Refusal :=
  let s := s.at t
  let src := g.src
  let x := s.grain src
  match x.kern with
  | none => .next s
  | some k =>
    let d := s.kdesc src k.desc
    if x.run ≠ .running ∨ x.wait ≠ .kernel ∨ k.id ≠ id ∨ ¬ form d then .next s
    else if d.items = 0 ∨ limit < d.items then .next (s.kernelEnd src k 4)
    else
      let fixed := [(Access.read, d.prm, 128), (.read, d.map, if id = 8 ∧ d.b = 1 then 0 else 8 * d.items),
        (.read, d.chem, if id = 8 ∧ d.b = 1 then 0 else 1024)] ++ areas s d
      match fixed.findSome? (fun (m, a, n) => s.areaFault src m a n) with
      | some (c, a) => .next (s.kernelExc src c a)
      | none =>
        let ms := if id = 8 ∧ d.b = 1 then [] else (List.range d.items).map (s.mapEntry src d.map)
        if ¬ s.prmOk src d.prm ∨ ¬ ms.all MapEntry.ok then
          .next ((s.raise src EV_EST_PARAM [id]).kernelEnd src k 0x11)
        else if ¬ ms.all (fun m => (s.chem src d.chem m.chem).ok) then .next (s.kernelEnd src k 0x12)
        else match pre s d with
          | some st => .next (s.kernelEnd src k st)
          | none =>
            let r := body s src d
            let late := r.2.kernelLate src id d
            .next (late.2.kernelEnd src k (if late.1 then 0x10 else r.1))

end Sys2Proof.Machine
end

