-- ==== Sys2Proof/Machine/EstFilter.lean ====
section
/-!
DEFINITION. Kernel 0x01, the cell state filter: charge counting, the update, anchors, and what the CX9 does when counted
charge and voltage disagree (R241 to R253).
-/

namespace Sys2Proof.Machine

/-! ## Charge (R241) -/

/-- The charge in half mA·ns and the covered time in ns of a source between two instants, from its ring: trapezoidal over
consecutive valid entries; an interval longer than 2.5 sample periods is not integrated. -/
def State.ringCharge (s : State) (x t0 t1 : Nat) : Int × Nat :=
  let per := s.pathPeriod x
  let es := (s.ringEntries x).filter (fun e => e.2.2 == 1)
  (es.zip (es.drop 1)).foldl (fun (acc : Int × Nat) (a, b) =>
    let lo := Nat.max a.1 t0
    let hi := Nat.min b.1 t1
    if hi ≤ lo ∨ 5 * per < 2 * (b.1 - a.1) then acc
    else
      let v := fun t => interpolate a.1 a.2.1 b.1 b.2.1 t
      (acc.1 + (v lo + v hi) * ((hi - lo : Nat) : Int), acc.2 + (hi - lo))) (0, 0)

/-- The charge integral, half mA·ns, and the uncovered time, ns, of a string at an instant: interpolated in the history, and
continued from the ring beyond its newest entry. -/
def State.chargeAt (s : State) (h : EstHist) (r t : Nat) : Int × Int :=
  match Tab.get [] h.charge r with
  | [] => (0, t)
  | n :: es =>
    if n.1 ≤ t then
      let c := s.ringCharge (s.selected r) n.1 t
      (n.2.1 + c.1, (n.2.2 : Int) + ((t - n.1 - c.2 : Nat) : Int))
    else
      match ((n :: es).zip es).find? (fun p => decide (p.2.1 ≤ t)) with
      | some (b, a) =>
        let w := (b.1 - a.1 : Nat)
        let k := ((t - a.1 : Nat) : Int)
        (a.2.1 + (b.2.1 - a.2.1) * k / w, (a.2.2 : Int) + ((b.2.2 : Int) - a.2.2) * k / w)
      | none =>
        let o := es.getLastD n
        (o.2.1, (o.2.2 : Int) - ((o.1 - t : Nat) : Int))

/-- The mean of a string's current over the 10 ms up to an instant, mA; none without a valid sample. -/
def State.mean10 (s : State) (r t : Nat) : Option Int :=
  let es := (s.ringEntries (s.selected r)).filter (fun e => e.2.2 == 1 && decide (e.1 ≤ t ∧ t < e.1 + 10000000))
  if es.isEmpty then none else some (nearest (es.foldl (fun a e => a + e.2.1) 0) es.length)

/-! ## The sweep image (R103, R236) -/

structure Img where
  addr : Nat
  tag : Nat
  owt : Bool
  target : Nat
  mask : Nat
  deriving DecidableEq, Repr

def State.img (s : State) (src a : Nat) : Img :=
  { addr := a, tag := s.kLoad src a 2, owt := bit (s.kLoad src (a + 2) 2) 1, target := s.kLoad src (a + 4) 8,
    mask := s.kLoad src (a + 12) 8 }

/-- The node of an entry: entries run by port, then position, over the enumerated nodes. -/
def State.entryNode (s : State) (n : Nat) : Nat × Nat :=
  (((List.range 18).flatMap (fun p => (List.range (s.portNodes p)).map (fun q => (p, q + 1))))[n]?).getD (0, 1)

/-- The string voltage in an image, mV: its sense node's entry. -/
def State.imgString (s : State) (src : Nat) (im : Img) (r : Nat) : Int :=
  let p := s.rd (AQ_CUR_SRC r) AQ_CUR_SRC_PORT
  let n := ((List.range p).map s.portNodes).foldl (· + ·) 0 + (s.curPos r - 1)
  sext (s.kLoad src (im.addr + 64 + 40 * n) 4) 32

/-- The cells of a string, from the nodes of its chain. -/
def State.stringCells (s : State) (r : Nat) : Nat :=
  ((List.range (s.portNodes r)).map (fun q => s.rd (AQ_NODE_STAT (eng0 r) (q + 1)) AQ_NODE_STAT_CELLS)).foldl (· + ·) 0

/-- A cell's surface temperature, °C: its sensor, or the mean of its node's valid aux temperatures; with none valid the
value is free (log 4). -/
def State.cellTemp (s : State) (src b : Nat) (m : MapEntry) (free : Nat) : Nat :=
  let at_ := fun j => sext (s.kLoad src (b + 16 * m.node + 2 * j) 2) 16
  if m.aux < 8 then fRat (at_ m.aux) 100
  else
    let n := s.entryNode m.node
    let ok := (List.range (s.pos n.1 n.2).auxN).filter (fun j => decide (at_ j ≠ 0x7FFF))
    if ok.isEmpty then free % 2 ^ 32 else fRat (ok.foldl (fun a j => a + at_ j) 0) (100 * ok.length)

/-! ## Inversion (R250) -/

/-- The SOC at which tab(0) + h × tab(1) equals a voltage: the table row at tc is searched; outside it, 0 or 1. -/
def State.invert (s : State) (src : Nat) (c : Chem) (h tc v : Nat) : Nat :=
  let x := fun i => fAdd c.t0.x0 (fDiv (fInt i) c.t0.rdx)
  let f := fun (i : Nat) => fAdd (s.tab src c.t0 0 (x i) tc) (fMul h (s.tab src c.t0 1 (x i) tc))
  if fLt v (f 0) then 0
  else match (List.range (c.t0.nx - 1)).find? (fun i => fLe (f i) v && fLe v (f (i + 1))) with
    | some i => fAdd (x i) (fDiv (fDiv (fSub v (f i)) (fSub (f (i + 1)) (f i))) c.t0.rdx)
    | none => f1

/-! ## The quasi-rest fit (R248) -/

/-- u, b1 and b2 of the least-squares fit, and σ_u² as a fraction, from samples (e^(−Δ/τ1), e^(−Δ/τ2), v); none with fewer
than four samples or a singular system. Solved exactly and rounded once (log 19). -/
def quasiFit (l : List (Nat × Nat × Nat)) : Option (Nat × Nat × Nat × Int × Int) :=
  let sum := fun (f : Int → Int → Int → Int) => l.foldl (fun a (x, y, v) => a + f (fix149 x) (fix149 y) (fix149 v)) 0
  let u : Int := 2 ^ 149
  let n : Int := l.length
  let a := n * u * u
  let b := sum (fun x _ _ => x) * u
  let c := sum (fun _ y _ => y) * u
  let d := sum (fun x _ _ => x * x)
  let e := sum (fun x y _ => x * y)
  let f := sum (fun _ y _ => y * y)
  let r0 := sum (fun _ _ v => v) * u
  let r1 := sum (fun x _ v => x * v)
  let r2 := sum (fun _ y v => y * v)
  let vv := sum (fun _ _ v => v * v)
  let cof := d * f - e * e
  let det := a * cof - b * (b * f - e * c) + c * (b * e - d * c)
  let du := r0 * cof - b * (r1 * f - e * r2) + c * (r1 * e - d * r2)
  let d1 := a * (r1 * f - e * r2) - r0 * (b * f - e * c) + c * (b * r2 - r1 * c)
  let d2 := a * (d * r2 - r1 * e) - b * (b * r2 - r1 * c) + r0 * (b * e - d * c)
  if n ≤ 3 ∨ det ≤ 0 then none
  else
    let ss := vv * det - (du * r0 + d1 * r1 + d2 * r2)
    some (fRat du det.toNat, fRat d1 det.toNat, fRat d2 det.toNat, (if ss < 0 then 0 else ss) * cof, det * det * (n - 3))

/-! ## Conditions judged from the 10 ms mean (R247 to R249) -/

/-- A duration in seconds, as ns. -/
def secNs (x : Nat) : Nat := fFloor x 1000000000

/-- The instants since which the four conditions have held, and the extremes of the string voltage, brought to an
instant. -/
def EstCell.judge (x : EstCell) (pm : Nat → Nat) (qnom : Nat) (m : Option Int) (volt : Int) (cells t : Nat) : EstCell :=
  let i := fRat (m.getD 0) 1000
  let hold := fun (k : Nat) (c : Bool) => if c then some ((Tab.get none x.since k).getD t) else none
  let lim := fun o => fMul (pm o) qnom
  let some_ := m.isSome
  let lo := if volt < x.vlo then volt else x.vlo
  let hi := if x.vhi < volt then volt else x.vhi
  let full := some_ && fLt 0 i && fLt i (lim 20)
  let empty := some_ && fLt i 0 && fLt (fNeg (lim 20)) i
  let steady := fLe (fRat (hi - lo) 1000) (fMul (pm 28) (fInt cells))
  let was := (Tab.get none x.since 2).isSome || (Tab.get none x.since 3).isSome
  let fresh := !was || !steady
  let taper := fun (k : Nat) (c : Bool) => if c then (if fresh then some t else hold k true) else none
  let since := [(0, hold 0 (some_ && fLt (fAbs i) (lim 4))), (1, hold 1 (some_ && fLe (fAbs i) (lim 12))), (2, taper 2 full),
    (3, taper 3 empty)]
  let due := fun (k per : Nat) (now : Option Nat) => match now with
    | some t0 => if Tab.get none x.since k = some t0 then Tab.get 0 x.due k else t0 + secNs per
    | none => 0
  { x with
    since := since.foldl (fun tb p => Tab.set none tb p.1 p.2) x.since,
    due := [(0, due 0 (pm 8) (hold 0 (some_ && fLt (fAbs i) (lim 4)))), (2, due 2 (pm 24) (taper 2 full)),
      (3, due 3 (pm 24) (taper 3 empty))].foldl (fun tb p => Tab.set 0 tb p.1 p.2) x.due,
    vlo := if (full || empty) && !fresh then lo else volt, vhi := if (full || empty) && !fresh then hi else volt }

/-- An anchor update is due at an instant: the next one follows after each further period. -/
def EstCell.isDue (x : EstCell) (k t : Nat) : Bool := (Tab.get none x.since k).isSome && decide (Tab.get 0 x.due k ≤ t)
def EstCell.again (x : EstCell) (k per t : Nat) : EstCell :=
  let d := Tab.get 0 x.due k
  { x with due := Tab.set 0 x.due k (if per = 0 then t + 1 else d + ((t - d) / per + 1) * per) }

/-- The mean |i| of the latest 60 s, A. -/
def EstCell.meanAbs (x : EstCell) : Nat :=
  let q := x.absI.foldl (fun a e => a + e.2.1) 0
  let n := x.absI.foldl (fun a e => a + e.2.2) 0
  fRat (q : Nat) (n * 1000)

def EstCell.addAbs (x : EstCell) (t mA dt : Nat) : EstCell :=
  let sec_ := t / 1000000000
  let l := match x.absI with
    | (k, q, n) :: r => if k = sec_ then (k, q + mA * dt, n + dt) :: r else (sec_, mA * dt, dt) :: (k, q, n) :: r
    | [] => [(sec_, mA * dt, dt)]
  { x with absI := l.filter (fun e => decide (sec_ < e.1 + 60)) }

/-! ## The update of one cell (R242) -/

/-- What a call gathers over its cells: inconsistencies, cells held for lack of current, and counted anchors by string and
kind. -/
structure FilterAcc where
  incons : Bool := false
  held : Bool := false
  counted : List (Nat × Nat) := []
  deriving DecidableEq, Repr

/-- Counting: SOC, relaxation, hysteresis and drift (R242); without a valid current the relaxation and the hysteresis are
held (R244). -/
def CellRec.count (r : CellRec) (c : Chem) (pm : Nat → Nat) (k dq dt i iofsu : Nat) (valid : Bool) (pick : Nat → Nat) :
    CellRec × Nat :=
  let dqe := if fLt 0 dq then fMul dq (c.at_ 92) else dq
  let as_ := fMul f3600 r.q
  let e := fun n x => vexpLane (fNeg x) (pick n)
  let a1 := e 0 (fDiv dt r.tau1)
  let a2 := e 1 (fDiv dt r.tau2)
  let sg := if fLt 0 i then f1 else if fLt i 0 then fNeg f1 else 0
  let relax := fun a eta rho => fAdd (fMul a eta) (fMul (fMul (fMul (fSub f1 a) k) rho) i)
  let h := fAdd r.h (fMul (fSub sg r.h) (fSub f1 (e 2 (fDiv (fMul (c.at_ 88) (fAbs dq)) as_))))
  let r := { r with soc := fAdd r.soc (fDiv dqe as_),
                    d := fAdd r.d (fDiv (fAdd (fMul (pm 56) (fAbs dq)) (fMul iofsu dt)) as_) }
  (if valid then { r with eta1 := relax a1 r.eta1 r.rho1, eta2 := relax a2 r.eta2 r.rho2, h := h } else r, dqe)

/-- The voltage part: the corrected record, with e and s (R242). -/
def CellRec.correct (r : CellRec) (pm : Nat → Nat) (v vp g sv : Nat) : CellRec × Nat × Nat × Nat :=
  let d3 := fDiv r.d f3
  let pe := fAdd r.p (fMul d3 d3)
  let ss := fAdd (fMul (fMul g g) pe) sv
  let e := fSub v vp
  let kk := fDiv (fMul pe g) ss
  let left := fSub f1 (fMul kk g)
  let far := fLt (fMul (fMul (pm 44) (pm 44)) ss) (fMul e e)
  ({ r with soc := clamp01 (fAdd r.soc (fMul kk e)), p := fMul left r.p, d := fMul left r.d,
            run := if far then Nat.min (r.run + 1) 65535 else 0 }, e, ss, pe)

/-- NEWCELL and REINIT (R245): the resistances, relaxation and capacity first, then SOC by inversion. -/
def State.initCell (s : State) (src : Nat) (c : Chem) (pm : Nat → Nat) (r : CellRec) (v i tc now : Nat) : CellRec :=
  let r := if r.flag 2 then
      let q := c.qnom
      let vq := fMul (fRat 5 100) q
      { r with rhos := c.at_ 68, rho1 := c.at_ 72, tau1 := c.at_ 76, rho2 := c.at_ 80, tau2 := c.at_ 84, q := q,
               varq := fMul vq vq }.setFlag 1 true |>.setFlag 8 false
    else r
  let k := s.tab src c.t0 2 (if fNan r.soc then 0 else r.soc) tc
  let soc := s.invert src c 0 tc (fSub v (fMul (fMul k r.rhos) i))
  (({ r with soc := soc, p := pm 52, d := 0, h := 0, eta1 := 0, eta2 := 0, run := 0, tanch := now % 2 ^ 32,
             tint := f32.nan }).setFlag 2 false).setFlag 3 false

/-- The flags that follow from the width and the time since the latest counted anchor (R250 to R252): the record, whether a
calibration rest begins to be called for, and whether it ends. -/
def CellRec.widthFlags (r : CellRec) (pm : Nat → Nat) (now : Nat) (anchor : Bool) : CellRec × Bool × Bool :=
  let w := r.width
  let narrow := fLe w (fDiv (pm 36) f2)
  let done := r.flag 6 && anchor && narrow
  let r := if narrow then r.setFlag 0 false else r
  let r := if done then r.setFlag 6 false else r
  let age := fInt ((now + 2 ^ 32 - r.tanch) % 2 ^ 32 : Nat)
  let calls := fLt (pm 32) age || fLt (pm 36) w
  let r := if calls then (r.setFlag 6 true).setFlag 9 true else r
  (if r.flag 0 || r.flag 6 then r else r.setFlag 9 false, calls, done)

/-- Which anchor update falls on this sweep: 1 rest, 2 taper, 3 quasi-rest, 0 none; with the fit of a quasi-rest (R250). -/
def EstCell.anchorKind (x : EstCell) (pm : Nat → Nat) (t : Nat) : Nat × Option (Nat × Nat × Nat × Int × Int) :=
  if x.isDue 0 t then (1, none)
  else if x.isDue 2 t || x.isDue 3 t then (2, none)
  else match Tab.get none x.since 1 with
    | none => (0, none)
    | some ts =>
      let rested : Bool := match Tab.get none x.since 0 with
        | some t0 => decide (t0 + secNs (pm 8) ≤ t)
        | none => false
      if rested ∨ t < ts + secNs (pm 16) * 2 ^ x.fitN then (0, none)
      else match quasiFit x.fit with
        | none => (4, none)
        | some (u, b1, b2, sn, sd) =>
          let q := fix149 (pm 64)
          let small := decide (sn * (2 ^ 298) ≤ q * q * sd)
          let better : Bool := match x.fitSig with
            | some (pn, pd) => decide (4 * sn * pd ≤ pn * sd)
            | none => true
          if small ∧ better then (3, some (u, b1, b2, sn, sd)) else (4, none)

/-- The anchor taken: the next one due, and the next evaluation of the fit. -/
def EstCell.anchorDone (x : EstCell) (pm : Nat → Nat) (t kind : Nat) (fit : Option (Nat × Nat × Nat × Int × Int))
    (qnom : Nat) : EstCell :=
  match kind with
  | 1 => x.again 0 (secNs (pm 8)) t
  | 2 => if x.isDue 2 t then x.again 2 (secNs (pm 24)) t else x.again 3 (secNs (pm 24)) t
  | 0 => x
  | _ =>
    let x := { x with fitN := x.fitN + 1 }
    match fit with
    | some (_, b1, b2, sn, sd) =>
      { x with fitSig := some (sn, sd),
               fitOut := if fLe (fMul (pm 76) qnom) x.meanS then some (b1, b2, x.etaS.1, x.etaS.2) else x.fitOut }
    | none => x

/-- A counted anchor kept for kernels 0x02 and 0x07 (R250, R254, R259). -/
def EstCell.keepAnchor (x : EstCell) (a : Anchor) : EstCell :=
  let x := { x with pair := match x.anchor with
                      | some b => if x.gap then none else some (b, a, x.charge)
                      | none => none,
                    anchor := some a, charge := 0, gap := false }
  if a.kind = 3 then x else { x with sdLast := x.sdNew.orElse (fun _ => x.sdLast), sdNew := some a }

/-- A quasi-rest that has just begun starts a new fit; one that ended forgets it. -/
def EstCell.fitStart (x old : EstCell) (r : CellRec) : EstCell :=
  if Tab.get none x.since 1 = Tab.get none old.since 1 then x
  else { x with fit := [], fitN := 0, fitSig := none, etaS := (r.eta1, r.eta2), meanS := old.meanAbs }

/-- A calibration-rest episode of a string is recorded once (R251). -/
def State.calCall (s : State) (a r : Nat) : State :=
  if Tab.get false s.est.cal (a * 16 + r) then s
  else ({ s with est := { s.est with cal := Tab.set false s.est.cal (a * 16 + r) true } }).raise srcWindow EV_EST_CALREQ [r]

/-- One cell of one sweep (R242 to R252). -/
def State.filterItem (s : State) (src : Nat) (d : KDesc) (pm : Nat → Nat) (im : Img) (acc : FilterAcc) (j : Nat) :
    State × FilterAcc :=
  let m := s.mapEntry src d.map j
  let c := s.chem src d.chem m.chem
  let a := d.state + 96 * j
  let r0 := s.loadRec src a
  let x0 := s.estCell (physOf src a)
  let f := s.fresh
  let pick := fun i => Config.freeWord (f + i)
  let s := s.drew 8
  let t := im.target + 4000 * stepOf im.mask m.cell
  let now := t / 1000000000
  let st := s.kLoad src (im.addr + 64 + 40 * m.node + 36) 2
  let code := s.kLoad src (im.addr + 64 + 40 * m.node + 2 * m.cell) 2
  let v := fRat code 10000
  let vok := decide (st / 256 % 32 = 0) && code != 0xFFFF && !im.owt
  let xs := s.selected m.str
  let cur := s.currentOf xs t (s.pathPeriod xs)
  let s := if cur.2 then
      (s.hit AQ_CUR_EVT AQ_CUR_EVT_GAP AQ_CUR_CNT1 AQ_CUR_CNT1_GAPN).raise srcAnalog EV_CUR_GAP [xs]
    else s
  let mA := cur.1.getD 0
  let i := fRat mA 1000
  let tc := s.cellTemp src d.b m (pick 3)
  let ha := physOf src d.a
  let h := s.hist ha
  let last := x0.last.getD t
  let c1 := s.chargeAt h m.str t
  let c0 := s.chargeAt h m.str last
  let dU := (c1.2 - c0.2).toNat
  let dt := t - last - dU
  let noCur := cur.1.isNone || decide (0 < dU)
  let acc := { acc with held := acc.held || noCur }
  let x := x0.judge pm c.qnom (s.mean10 m.str t) (s.imgString src im m.str) (s.stringCells m.str) t
  let x := (x.fitStart x0 r0).addAbs t mA.natAbs dt
  let began := fun k => (Tab.get none x.since k).isSome && Tab.get none x.since k != Tab.get none x0.since k
  let s := if began 0 || began 1 then s.updHist ha (fun h => { h with rlx := Tab.set none h.rlx m.str (some t) }) else s
  let near := fun (b : Nat) => fLe (fAbs (fSub v b)) (pm 116)
  let x := { x with last := some t, tc := tc, near := if vok then near (c.at_ 108) || near (c.at_ 112) else x.near }
  let finish := fun (s : State) (r : CellRec) (x : EstCell) (acc : FilterAcc) =>
    let r := if (x.tintEnd + secNs (pm 92) < t : Bool) then { r with tint := f32.nan } else r
    ((s.storeRec src a r).setEstCell (physOf src a) x, acc)
  if r0.flag 2 ∨ r0.flag 3 then
    if vok ∧ ¬ cur.1.isNone then
      let r := s.initCell src c pm r0 v i tc now
      let s := if r0.flag 2 then s.raise src EV_EST_NEWCELL [m.flat] else s
      finish s ((r.setFlag 4 noCur).setFlag 5 false) { x with anchor := none, charge := 0, gap := false, pair := none } acc
    else finish s ((r0.setFlag 4 noCur).setFlag 5 true) x acc
  else
    let k := s.tab src c.t0 2 r0.soc tc
    let iofsu := match Tab.get none h.off m.str with
      | some o => o.1
      | none => pm 60
    let ct := r0.count c pm k (fRat (c1.1 - c0.1) 2000000000000) (fRat dt 1000000000) i iofsu (!cur.1.isNone) pick
    let r := ct.1
    let x := { x with charge := fAdd x.charge ct.2, gap := x.gap || noCur }
    let r := if noCur then
        let lim := fRat ((Nat.max (s.limitInForce m.str false) (s.limitInForce m.str true) : Nat) : Int) 1000
        let g := fDiv (fMul lim (fRat dU 1000000000)) (fMul f3600 r.q)
        { r with p := fAdd r.p (fMul g g) }
      else r
    let r := (r.setFlag 4 noCur).setFlag 5 (!vok || noCur)
    if ¬ vok ∨ noCur then
      let wf := r.widthFlags pm now false
      finish (if wf.2.1 then s.calCall ha m.str else s) wf.1 x acc
    else
      let sv := fMul (c.at_ 100) (c.at_ 100)
      let so := fMul (c.at_ 96) (c.at_ 96)
      let y := fSub v (fMul (fMul k r.rhos) i)
      let ts := (Tab.get none x.since 1).getD t
      let basis := fun tau n => vexpLane (fNeg (fDiv (fRat ((t - ts : Nat) : Int) 1000000000) tau)) (pick n)
      let x := if (Tab.get none x.since 1).isSome then { x with fit := (basis r.tau1 4, basis r.tau2 5, y) :: x.fit } else x
      let an := x.anchorKind pm t
      let kind := if an.1 = 4 then 0 else an.1
      let x := x.anchorDone pm t an.1 an.2 c.qnom
      let r := if kind = 1 then { r with eta1 := 0, eta2 := 0 } else r
      let ocv := fAdd (s.tab src c.t0 0 r.soc tc) (fMul r.h (s.tab src c.t0 1 r.soc tc))
      let g := fAdd (s.slope src c.t0 0 r.soc tc) (fMul r.h (s.slope src c.t0 1 r.soc tc))
      let load := fMul (fMul k r.rhos) (if kind = 1 then 0 else i)
      let vp := if kind = 3 then ocv else fAdd (fAdd (fAdd ocv r.eta1) r.eta2) load
      let seen := match an.2 with
        | some (u, _, _, sn, sd) => (u, fAdd (fRat sn sd.toNat) so)
        | none => (v, if kind = 0 then sv else fAdd sv so)
      let up := r.correct pm seen.1 vp g seen.2
      let r := if kind = 3 then { up.1 with eta1 := 0, eta2 := 0 } else up.1
      let far := fLe (pm 48) (fInt r.run)
      let x := { x with tag := some im.tag, volt := (t, v, i) }
      if far ∧ kind = 0 then
        let s := s.raise src EV_EST_INCONS [m.flat, r.soc, r.p, r.d, up.2.1, up.2.2.1, v, i, tc]
        let s := s.updHist ha (fun h => { h with incons := Tab.set false h.incons m.str true })
        let soc := s.invert src c r.h tc (fSub (fSub y r.eta1) r.eta2)
        let r := (({ r with soc := soc, p := pm 52, d := 0, run := 0 }.setFlag 0 true).setFlag 9 true).setFlag 1 true
        finish s r x { acc with incons := true }
      else
        let r := if far then { r with run := 0 } else r
        let counted := kind ≠ 0 ∧ fLe r.width (fDiv (pm 36) f2)
        let r := if counted then { r with tanch := now % 2 ^ 32 } else r
        let x := if counted then x.keepAnchor { kind := kind, at_ := t, soc := r.soc, pe := up.2.2.2 } else x
        let wf := r.widthFlags pm now (decide counted)
        let s := if wf.2.2 then s.raise src EV_EST_CALDONE [m.flat] else s
        let s := if wf.2.1 then s.calCall ha m.str else s
        finish s wf.1 x (if counted then { acc with counted := (m.str, kind) :: acc.counted } else acc)

/-- One EV_EST_ANCHOR per string and anchor, with the cells counted (R250). -/
def State.anchorEvents (s : State) (src : Nat) (l : List (Nat × Nat)) : State :=
  (List.range 12).foldl (fun s r => [1, 2, 3].foldl (fun s k =>
    let n := l.count (r, k)
    if n = 0 then s else s.raise src EV_EST_ANCHOR [r, k, n]) s) s

/-- A string without a cell in calibration rest ends its episode (R251). -/
def State.calEnd (s : State) (src : Nat) (d : KDesc) : State :=
  (List.range 12).foldl (fun s r =>
    let on := (List.range d.items).any (fun j =>
      (s.mapEntry src d.map j).str == r && (s.loadRec src (d.state + 96 * j)).flag 6)
    let any := (List.range d.items).any (fun j => (s.mapEntry src d.map j).str == r)
    if any ∧ ¬ on then { s with est := { s.est with cal := Tab.set false s.est.cal (physOf src d.a * 16 + r) false } } else s) s

/-- Whether a sweep tag is newer than the last applied (R238). -/
def tagNewer (new : Nat) (last : Option Nat) : Bool :=
  match last with
  | none => true
  | some l => decide (1 ≤ (new + 65535 - l) % 65535 ∧ (new + 65535 - l) % 65535 ≤ 32767)

/-- KERNEL_CELL_STATE_FILTER: kernel 0x01 updates every cell's state from one sweep (R242). -/
def execKernelCellStateFilter (s : State) (g : GrainId) (t : Nat) : Host.Outcome State Fault Refusal :=
  s.kernelRun g t 1 (fun _ => true) (kernelLimit 1)
    (fun s d =>
      let top := ((List.range d.items).map (fun j => (s.mapEntry g.src d.map j).node)).foldl Nat.max 0
      [(.read, d.input, 64 + 40 * (top + 1)), (.read, d.b, 16 * (top + 1)), (.read, d.state, 96 * d.items),
       (.write, d.state, 96 * d.items)])
    (fun s d => if tagNewer (s.kLoad g.src d.input 2) (Tab.get none s.est.tags (physOf g.src d.state)) then none else some 0x13)
    (fun s src d =>
      let im := s.img src d.input
      let prm := d.prm
      let pm := fun o => s.kLoad src (prm + o) 4
      let r := (List.range d.items).foldl (fun (p : State × FilterAcc) j => p.1.filterItem src d pm im p.2 j) (s, {})
      let s := ((r.1.anchorEvents src r.2.counted).calEnd src d)
      let s := { s with est := { s.est with tags := Tab.set none s.est.tags (physOf src d.state) (some im.tag) } }
      (if r.2.incons then 0x20 else if r.2.held then 0x21 else 0, s))

end Sys2Proof.Machine
end

