-- ==== Sys2Proof/Machine/EstLearn.lean ====
section
/-!
DEFINITION. Kernels 0x02, 0x03, 0x06 and 0x07: capacity, resistance, internal temperature and self-discharge (R254, R255,
R258, R259).
-/

namespace Sys2Proof.Machine

/-- A cell of a call: its record's address as the kernel names it and where that lies, its map entry, its profile. -/
structure Item where
  addr : Nat
  key : Nat
  m : MapEntry
  c : Chem
  deriving DecidableEq, Repr

def State.item (s : State) (src : Nat) (d : KDesc) (base j : Nat) : Item :=
  let m := s.mapEntry src d.map j
  { addr := base + 96 * j, key := physOf src (base + 96 * j), m := m, c := s.chem src d.chem m.chem }

/-- Every cell of a call in turn, by its record at `base`. -/
def State.eachItem (s : State) (src : Nat) (d : KDesc) (base : Nat) (f : State → Nat → Item → State) : State :=
  (List.range d.items).foldl (fun s j => f s j (s.item src d base j)) s

/-- The areas of a kernel that updates records at `output` and keeps `n` private bytes per cell. -/
def learnAreas (d : KDesc) (n : Nat) : List (Access × Nat × Nat) :=
  [(.read, d.output, 96 * d.items), (.write, d.output, 96 * d.items), (.write, d.state, n * d.items)]

/-- Whether a number lies in a range. -/
def fWithin (lo x hi : Nat) : Bool := fLe lo x && fLe x hi

/-! ## Capacity (R254) -/

/-- A capacity observation and its variance from a pair of anchors. -/
def capObs (pm : Nat → Nat) (p1 p2 : Anchor) (charge : Nat) : Nat × Nat :=
  let ds := fAbs (fSub p2.soc p1.soc)
  let q := fDiv (fAbs charge) (fMul f3600 ds)
  (q, fMul (fMul q q) (fAdd (fDiv (fAdd p1.pe p2.pe) (fMul ds ds)) (fMul (pm 56) (pm 56))))

/-- A scalar Kalman step on the capacity, held within 0.5 to 1.1 × QNOM. -/
def CellRec.learnQ (r : CellRec) (qnom obs var : Nat) : CellRec :=
  let k := fDiv r.varq (fAdd r.varq var)
  let q := fAdd r.q (fMul k (fSub obs r.q))
  { r with q := fMin (fMax q (fMul (fRat 1 2) qnom)) (fMul (fRat 11 10) qnom), varq := fMul (fSub f1 k) r.varq }.setFlag 1 false

def State.capacityItem (src : Nat) (d : KDesc) (pm : Nat → Nat) (s : State) (j : Nat) (it : Item) : State :=
  let x := s.estCell it.key
  let s := s.kPrivate src (d.state + 16 * j) 4
  match x.pair with
  | none => s
  | some (p1, p2, charge) =>
    let s := s.setEstCell it.key { x with pair := none }
    if ¬ fLe (pm 72) (fAbs (fSub p2.soc p1.soc)) then s
    else
      let r := s.loadRec src it.addr
      let o := capObs pm p1 p2 charge
      let far := fLt (fMul (fInt 4) (fSqrt (fAdd r.varq o.2))) (fAbs (fSub o.1 r.q))
      if far ∧ ¬ r.flag 1 then s.raise src EV_EST_CAP_REJECT [it.m.flat] else s.storeRec src it.addr (r.learnQ it.c.qnom o.1 o.2)

/-- KERNEL_CAPACITY: kernel 0x02 (R254). -/
def execKernelCapacity (s : State) (g : GrainId) (t : Nat) : Host.Outcome State Fault Refusal :=
  s.kernelRun g t 2 (fun _ => true) (kernelLimit 2) (fun _ d => learnAreas d 16) (fun _ _ => none) (fun s src d =>
    let pm := fun o => s.kLoad src (d.prm + o) 4
    (0, s.eachItem src d d.output (State.capacityItem src d pm)))

/-! ## Resistance (R255) -/

/-- A value moved toward another by a fraction of the difference. -/
def toward (x target part : Nat) : Nat := fAdd x (fMul part (fSub target x))

/-- A relaxation resistance scaled by an accepted fit, when b / ETA lies within 0.5 to 2. -/
def scaleRho (rho b eta : Nat) : Nat :=
  let ratio := fDiv b eta
  if fWithin (fRat 1 2) ratio f2 then toward rho (fMul rho ratio) (fRat 1 10) else rho

def State.resistanceItem (src : Nat) (d : KDesc) (pm : Nat → Nat) (tag : Nat) (s : State) (j : Nat) (it : Item) : State :=
  let x := s.estCell it.key
  let r := s.loadRec src it.addr
  let s := s.kPrivate src (d.state + 16 * j) 4
  let cur := if x.tag = some tag then some x.volt else none
  let r := match cur, x.rPrev with
    | some (t1, v1, i1), some (t0, v0, i0) =>
      let di := fSub i1 i0
      let obs := fDiv (fSub v1 v0) (fMul (s.tab src it.c.t0 2 r.soc x.tc) di)
      if t1 ≤ t0 + 20000000 ∧ fLe (fMul (pm 76) it.c.qnom) (fAbs di) ∧
          fWithin (fMul (fRat 1 2) r.rhos) obs (fMul f2 r.rhos) then
        { r with rhos := toward r.rhos obs (fRat 2 100) }
      else r
    | _, _ => r
  let r := match x.fitOut with
    | some (b1, b2, e1, e2) => { r with rho1 := scaleRho r.rho1 b1 e1, rho2 := scaleRho r.rho2 b2 e2 }
    | none => r
  (s.storeRec src it.addr r).setEstCell it.key { x with rPrev := cur, fitOut := none }

/-- KERNEL_RESISTANCE: kernel 0x03 (R255). -/
def execKernelResistance (s : State) (g : GrainId) (t : Nat) : Host.Outcome State Fault Refusal :=
  s.kernelRun g t 3 (fun _ => true) (kernelLimit 3) (fun _ d => (.read, d.input, 64) :: learnAreas d 16) (fun _ _ => none)
    (fun s src d =>
      let pm := fun o => s.kLoad src (d.prm + o) 4
      let tag := s.kLoad src d.input 2
      (0, s.eachItem src d d.output (State.resistanceItem src d pm tag)))

/-! ## Internal temperature (R258) -/

/-- The frequency number equal to FTINT among those in use. -/
def State.tintFreq (s : State) (b ftint : Nat) : Option Nat :=
  (List.range (s.rd (ES_CORR_CTL b) ES_CORR_CTL_NFRQ + 1)).find? (fun k =>
    FVal.eq (f32.val (fRat (s.rd (ES_CORR_FRQ b k) ES_CORR_FRQ_FRQ : Nat) 1000000)) (f32.val ftint))

def State.tintItem (src : Nat) (d : KDesc) (pm : Nat → Nat) (s : State) (j : Nat) (it : Item) : State :=
  let x := s.estCell it.key
  let r := s.loadRec src it.addr
  let s := s.kPrivate src (d.state + 4 * j) 1
  let phase := match s.tintFreq (src / 16 % 16) (it.c.at_ 104) with
    | some k => s.kLoad src (d.input + 32 * j + 8 * k + 4) 4
    | none => f32.nan
  if fNan phase then
    let r := if x.tintEnd + secNs (pm 92) < s.ns then { r with tint := f32.nan } else r
    s.storeRec src it.addr r
  else
    let ti := s.tab src it.c.t1 0 phase r.soc
    let diff := fSub ti x.tc
    let hot := if fLt (pm 88) diff then x.hot + 1 else 0
    let cold := fLe diff (fDiv (pm 88) f2)
    let warn := decide (2 ≤ hot)
    let s := if warn ∧ ¬ r.flag 7 then s.raise src EV_EST_TINT [it.m.flat, ti, x.tc] else s
    let r := { r with tint := ti }
    let r := if warn then r.setFlag 7 true else if cold then r.setFlag 7 false else r
    (s.storeRec src it.addr r).setEstCell it.key { x with hot := hot, tintEnd := Tab.get 0 s.est.zEnd (physOf src d.input) }

/-- KERNEL_INTERNAL_TEMPERATURE: kernel 0x06 (R258). -/
def execKernelInternalTemperature (s : State) (g : GrainId) (t : Nat) : Host.Outcome State Fault Refusal :=
  s.kernelRun g t 6 (fun _ => true) (kernelLimit 6) (fun _ d => (.read, d.input, 32 * d.items) :: learnAreas d 4)
    (fun _ _ => none) (fun s src d =>
      let pm := fun o => s.kLoad src (d.prm + o) 4
      (0, s.eachItem src d d.output (State.tintItem src d pm)))

/-! ## Self-discharge (R259) -/

/-- A number inserted into a rising list. -/
def fInsert (x : Nat) : List Nat → List Nat
  | [] => [x]
  | y :: l => if fLt x y then x :: y :: l else y :: fInsert x l

/-- The median; of an even count the mean of the two in the middle. -/
def fMedian (l : List Nat) : Nat :=
  let l := l.foldl (fun a x => fInsert x a) []
  let n := l.length
  if n % 2 = 1 then l.getD (n / 2) 0 else fDiv (fAdd (l.getD (n / 2 - 1) 0) (l.getD (n / 2) 0)) f2

/-- A cell's pair of consecutive full-rest or taper anchors at least SDMIN apart, with pe small at both: r_c, Δt in s. -/
def EstCell.sdPair (x : EstCell) (pm : Nat → Nat) (r : CellRec) (bal : Nat) : Option (Nat × Nat × Nat) :=
  match x.sdLast, x.sdNew with
  | some a, some b =>
    let dt := fRat ((b.at_ - a.at_ : Nat) : Int) 1000000000
    let sig := fMul (pm 108) (pm 108)
    if fLe (pm 100) dt ∧ fLe a.pe sig ∧ fLe b.pe sig then
      let rc := fAdd (fSub b.soc a.soc) (fDiv (fRat bal 1000) (fMul f3600 r.q))
      some (rc, dt, fSqrt (fAdd a.pe b.pe))
    else none
  | _, _ => none

/-- The self-discharge of one cell against the median of its string. -/
def State.sdItem (src : Nat) (d : KDesc) (pm : Nat → Nat) (med : Nat → Nat) (s : State) (j : Nat) (it : Item) : State :=
  let x := s.estCell it.key
  let r := s.loadRec src it.addr
  let s := s.kPrivate src (d.state + 16 * j) 4
  let bal := x.sdBal + s.kLoad src (d.input + 4 * j) 4
  let next : EstCell := if x.sdNew.isSome then { x with sdLast := x.sdNew, sdNew := none, sdBal := 0 } else { x with sdBal := bal }
  match x.sdPair pm r bal with
  | none => s.setEstCell it.key next
  | some (rc, dt, sig) =>
    let amps := fun y => fDiv (fMul (fMul y f3600) r.q) dt
    if fLt (fDiv (pm 96) f3) (amps sig) then s.setEstCell it.key next
    else
      let isd := amps (fSub (med it.m.str) rc)
      let n := if fLe (pm 96) isd then x.sdN + 1 else 0
      let short := fLe (pm 104) (fInt n)
      let s := if short ∧ ¬ r.flag 8 then s.raise src EV_EST_SOFTSHORT [it.m.flat, isd] else s
      let r := if short then r.setFlag 8 true else r
      (s.storeRec src it.addr r).setEstCell it.key { next with sdN := n }

/-- KERNEL_SELF_DISCHARGE: kernel 0x07 (R259). -/
def execKernelSelfDischarge (s : State) (g : GrainId) (t : Nat) : Host.Outcome State Fault Refusal :=
  s.kernelRun g t 7 (fun _ => true) (kernelLimit 7) (fun _ d => (.read, d.input, 4 * d.items) :: learnAreas d 16)
    (fun _ _ => none) (fun s src d =>
      let pm := fun o => s.kLoad src (d.prm + o) 4
      let med := fun (r : Nat) => fMedian ((List.range d.items).filterMap (fun j =>
        let it := s.item src d d.output j
        let x := s.estCell it.key
        if it.m.str = r then
          (x.sdPair pm (s.loadRec src it.addr) (x.sdBal + s.kLoad src (d.input + 4 * j) 4)).map (fun p => p.1)
        else none))
      (0, s.eachItem src d d.output (State.sdItem src d pm med)))

end Sys2Proof.Machine
end

