-- ==== Sys2Proof/Machine/EstLimits.lean ====
section
/-!
DEFINITION. Kernels 0x04 and 0x05: power limits and impedance (R256, R257, R260).
-/

namespace Sys2Proof.Machine

/-! ## Power limits (R260) -/

/-- The horizons 2, 10 and 30 s. -/
def horizons : List Nat := [0x40000000, 0x41200000, 0x41F00000]

/-- The temperature for k and the caps: the internal one where it is higher and TINTW is set (R258). -/
def CellRec.limitTemp (r : CellRec) (tc : Nat) : Nat := if r.flag 7 ∧ ¬ fNan r.tint then fMax r.tint tc else tc

/-- u0, den and k × R_T of a cell at a SOC and horizon, with the decay factors e1 and e2 (R260, R261). -/
def State.powerTerms (s : State) (src : Nat) (c : Chem) (r : CellRec) (soc tc T e1 e2 : Nat) : Nat × Nat × Nat :=
  let k := s.tab src c.t0 2 soc tc
  let ocv := fAdd (s.tab src c.t0 0 soc tc) (fMul r.h (s.tab src c.t0 1 soc tc))
  let g := fAdd (s.slope src c.t0 0 soc tc) (fMul r.h (s.slope src c.t0 1 soc tc))
  let u0 := fAdd (fAdd ocv (fMul r.eta1 e1)) (fMul r.eta2 e2)
  let kr := fMul k (fAdd (fAdd r.rhos (fMul r.rho1 (fSub f1 e1))) (fMul r.rho2 (fSub f1 e2)))
  (u0, fAdd kr (fDiv (fMul g T) (fMul f3600 r.q)), kr)

/-- The SOC for a direction: the bound while CONSV is set. -/
def CellRec.limitSoc (r : CellRec) (dis : Bool) : Nat := if r.flag 9 then (if dis then r.lower else r.upper) else r.soc

/-- A cell's limit for a direction and horizon, A. -/
def State.cellLimit (s : State) (src : Nat) (c : Chem) (r : CellRec) (tc : Nat) (dis : Bool) (T e1 e2 : Nat) : Nat :=
  let soc := r.limitSoc dis
  let p := s.powerTerms src c r soc tc T e1 e2
  let room := if dis then fSub p.1 (c.at_ 112) else fSub (c.at_ 108) p.1
  let cap := fMul (s.tab src c.t0 (if dis then 4 else 3) soc tc) c.qnom
  fMin (fMax (fDiv room p.2.1) 0) cap

/-- The decay factors e^(−T/τ1) and e^(−T/τ2) of a horizon, each within 2 ulp (R224). -/
def CellRec.decay (r : CellRec) (pick : Nat → Nat) (n T : Nat) : Nat × Nat :=
  (vexpLane (fNeg (fDiv T r.tau1)) (pick (2 * n)), vexpLane (fNeg (fDiv T r.tau2)) (pick (2 * n + 1)))

def State.powerItem (src : Nat) (d : KDesc) (s : State) (j : Nat) (it : Item) : State :=
  let r := s.loadRec src it.addr
  let tc := r.limitTemp (s.estCell it.key).tc
  let f := s.fresh
  let s := s.drew 6
  let lim : Bool → List Nat := fun dis => (horizons.zip (List.range 3)).map (fun (T, n) =>
    let e := r.decay (fun i => Config.freeWord (f + i)) n T
    s.cellLimit src it.c r tc dis T e.1 e.2)
  s.kStoreWords src (d.output + 24 * j) (lim false ++ lim true)

/-- KERNEL_POWER_LIMITS: kernel 0x04 (R260). -/
def execKernelPowerLimits (s : State) (g : GrainId) (t : Nat) : Host.Outcome State Fault Refusal :=
  s.kernelRun g t 4 (fun _ => true) (kernelLimit 4)
    (fun _ d => [(.read, d.input, 96 * d.items), (.write, d.output, 24 * d.items)]) (fun _ _ => none)
    (fun s src d => (0, s.eachItem src d d.input (State.powerItem src d)))

/-! ## Impedance (R256, R257) -/

/-- Angles of the quotients 2^−i in degrees, scaled by 2^40. -/
def atanDeg : List Int :=
  [49478023249920, 29208582661662, 15433012903280, 7834038323712, 3932221230125, 1968027526446, 984253903256, 492156985618,
   246082247574, 123041593148, 61520855245, 30760434956, 15380218395, 7690109312, 3845054670, 1922527337,
   961263669, 480631834, 240315917, 120157959, 60078979, 30039490, 15019745, 7509872,
   3754936, 1877468, 938734, 469367, 234684, 117342, 58671, 29335,
   14668, 7334, 3667, 1833, 917, 458, 229, 115,
   57]

/-- One step of vectoring: the vector turned toward the positive real axis, and the angle turned so far. -/
def turnStep (v : Int × Int × Int) (p : Nat × Int) : Int × Int × Int :=
  let (x, y, a) := v
  let d : Int := 2 ^ p.1
  if 0 ≤ y then (x + y / d, y - x / d, a + p.2) else (x - y / d, y + x / d, a - p.2)

/-- arg(x + jy) in degrees, as binary32 (log 8). -/
def argDeg (x y : Int) : Nat :=
  if x = 0 ∧ y = 0 then 0
  else
    let n := bitLen (Nat.max x.natAbs y.natAbs)
    let fit := fun (v : Int) => if 64 ≤ n then v / 2 ^ (n - 64) else v * 2 ^ (64 - n)
    let x := fit x
    let y := fit y
    let start : Int × Int × Int := if x < 0 then (-x, -y, if 0 ≤ y then 180 * 2 ^ 40 else -180 * 2 ^ 40) else (x, y, 0)
    let r := ((List.range 41).zip atanDeg).foldl turnStep start
    fRat r.2.2 (2 ^ 40)

/-- A finite binary64 number scaled by 2^1074: exact. -/
def fix1074 (x : Nat) : Int :=
  match f64.val x with
  | .num neg m e => sgn neg (m * 2 ^ (e + 1074).toNat)
  | _ => 0

/-- The window rule (R256): whole periods of every frequency, at least NPER of the lowest, 100 ms to 429.4 s, and no
frequency above 1 / (4 × PLOAD) (R265). -/
def State.windowBad (s : State) (src : Nat) (d : KDesc) : Bool :=
  let b := src / 16 % 16
  let fs := (List.range (s.rd (ES_CORR_CTL b) ES_CORR_CTL_NFRQ + 1)).map (fun k => s.rd (ES_CORR_FRQ b k) ES_CORR_FRQ_FRQ)
  let low := fs.foldl Nat.min (2 ^ 28)
  let pload := s.rd AQ_SWP_PER AQ_SWP_PER_PLOAD
  let nper := s.kLoad src (d.prm + 84) 4
  !(fs.all (fun f => f * d.b % 10 ^ 13 == 0 && decide (f * 4 * pload ≤ 10 ^ 11)) &&
    decide (1000000 ≤ d.b ∧ d.b ≤ 4294000000) && fLe nper (fRat (low * d.b : Nat) (10 ^ 13)))

/-- C, S and N of a channel and frequency, from the accumulators at an address. -/
def State.phasor (s : State) (src acc c k : Nat) : Int × Int × Nat :=
  (fix1074 (s.kLoad src (acc + c * 64 + k * 16) 8), fix1074 (s.kLoad src (acc + c * 64 + k * 16 + 8) 8),
   s.kLoad src (acc + 393216 + c * 4) 4)

/-- |Z| and arg Z of one cell and frequency (R257); NaN where the current is too small, the cell has too few samples or
the frequency is not in use. -/
def State.impedance (s : State) (src : Nat) (d : KDesc) (c ci k : Nat) : Nat × Nat :=
  let v := s.phasor src d.a c k
  let i := s.phasor src d.a ci k
  let z := fix149 (s.kLoad src (d.prm + 80) 4)
  let v2 := (v.1 * v.1 + v.2.1 * v.2.1).toNat
  let i2 := (i.1 * i.1 + i.2.1 * i.2.1).toNat
  let strong := decide (z * z * (i.2.2 * i.2.2 : Nat) * 2 ^ 2148 ≤ 4 * (i2 : Int) * 2 ^ 298)
  let enough := decide (9 * d.b * 100000 ≤ 10 * v.2.2 * s.sweepPeriod)
  if k ≤ s.rd (ES_CORR_CTL (src / 16 % 16)) ES_CORR_CTL_NFRQ ∧ strong ∧ enough ∧ 0 < i.2.2 ∧ 0 < v.2.2 ∧ 0 < i2 then
    (fRootRat (v2 * (i.2.2 * i.2.2)) (i2 * (v.2.2 * v.2.2)),
     argDeg (v.1 * i.1 + v.2.1 * i.2.1) (v.1 * i.2.1 - v.2.1 * i.1))
  else (f32.nan, f32.nan)

/-- KERNEL_IMPEDANCE: kernel 0x05 (R257). -/
def execKernelImpedance (s : State) (g : GrainId) (t : Nat) : Host.Outcome State Fault Refusal :=
  let b := g.src / 16 % 16
  s.kernelRun g t 5 (fun _ => true) (kernelLimit 5)
    (fun _ d => [(.write, d.output, 32 * d.items), (.read, d.a, 417792)])
    (fun s d =>
      if s.rdB (ES_CORR_CTL b) ES_CORR_CTL_RUN ∨ s.rdB (ES_CORR_STAT b) ES_CORR_STAT_PEND then some 0x30
      else if s.windowBad g.src d then some 0x31 else none)
    (fun s src d =>
      let s := (List.range d.items).foldl (fun s j =>
        let m := s.mapEntry src d.map j
        let zs := (List.range 4).map (fun k => s.impedance src d (d.chan + j) (d.ncell + m.str) k)
        s.kStoreWords src (d.output + 32 * j) (zs.flatMap (fun z => [z.1, z.2]))) s
      (0, { s with est := { s.est with zEnd := Tab.set 0 s.est.zEnd (physOf src d.output) d.time } }))

end Sys2Proof.Machine
end

