-- ==== Sys2Proof/Machine/EstAggr.lean ====
section
/-!
DEFINITION. Kernel 0x08, aggregation: partials of one grain's cells, and the final call that merges them, keeps the charge
history, writes limits, weights and the period request, and fills the result block (R241, R253, R261 to R266).
-/

namespace Sys2Proof.Machine

/-! ## Partials (R236, R261, R264) -/

/-- Two parts of one string as one. -/
def EstPart.merge (a b : EstPart) : EstPart :=
  let less := fLt b.socLo a.socLo
  { cells := a.cells + b.cells, socLo := fMin a.socLo b.socLo, socHi := fMax a.socHi b.socHi, lbLo := fMin a.lbLo b.lbLo,
    ubHi := fMax a.ubHi b.ubHi, socSum := fAdd a.socSum b.socSum, qLo := fMin a.qLo b.qLo, rhos := fAdd a.rhos b.rhos,
    lim := List.zipWith fMin a.lim b.lim, u0 := List.zipWith fAdd a.u0 b.u0, res := List.zipWith fAdd a.res b.res,
    eDis := fMin a.eDis b.eDis, eChg := fMin a.eChg b.eChg, eDisB := fMin a.eDisB b.eDisB, eChgB := fMin a.eChgB b.eChgB,
    ocv := fAdd a.ocv b.ocv,
    tint := match a.tint, b.tint with
      | some x, some y => some (fMax x y)
      | some x, none => some x
      | none, y => y,
    tsurf := fMax a.tsurf b.tsurf, flags := a.flags ||| b.flags, near := a.near || b.near,
    least := if less then b.least else a.least, sec := Nat.max a.sec b.sec }

/-- A part put into a list by string. -/
def partInsert (l : List (Nat × EstPart)) (r : Nat) (x : EstPart) : List (Nat × EstPart) :=
  match l with
  | [] => [(r, x)]
  | (k, y) :: l => if k = r then (k, y.merge x) :: l else (k, y) :: partInsert l r x

/-- The flags of a cell in the order of the result block (R266). -/
def CellRec.resultFlags (r : CellRec) : Nat :=
  b2n (r.flag 9) + 2 * b2n (r.flag 6) + 4 * b2n (r.flag 0) + 8 * b2n (r.flag 7) + 16 * b2n (r.flag 8) + 64 * b2n (r.flag 4)

/-- One cell as a part of its string. -/
def State.cellPart (s : State) (src : Nat) (d : KDesc) (j : Nat) (it : Item) (pick : Nat → Nat) : EstPart :=
  let r := s.loadRec src it.addr
  let x := s.estCell it.key
  let tc := r.limitTemp x.tc
  let terms := ([false, true]).flatMap (fun dis => (horizons.zip (List.range 3)).map (fun (T, n) =>
    let e := r.decay pick n T
    s.powerTerms src it.c r (r.limitSoc dis) tc T e.1 e.2))
  { cells := 1, socLo := r.soc, socHi := r.soc, lbLo := r.lower, ubHi := r.upper, socSum := r.soc, qLo := r.q, rhos := r.rhos,
    lim := (List.range 6).map (fun n => s.kLoad src (d.a + 24 * j + 4 * n) 4),
    u0 := terms.map (fun p => p.1), res := terms.map (fun p => p.2.2),
    eDis := fMul r.soc r.q, eChg := fMul (fSub f1 r.soc) r.q, eDisB := fMul r.lower r.q, eChgB := fMul (fSub f1 r.upper) r.q,
    ocv := s.tab src it.c.t0 0 r.soc x.tc, tint := if fNan r.tint then none else some r.tint, tsurf := x.tc,
    flags := r.resultFlags, near := x.near, least := it.m.flat, sec := x.last.getD 0 / 1000000000 }

/-- KERNEL_AGGREGATION_PARTIAL: kernel 0x08 in partial form (R236). -/
def execKernelAggregationPartial (s : State) (g : GrainId) (t : Nat) : Host.Outcome State Fault Refusal :=
  s.kernelRun g t 8 (fun d => d.b != 1) (kernelLimit 8)
    (fun _ d => [(.read, d.input, 96 * d.items), (.read, d.a, 24 * d.items), (.write, d.output, 3072)]) (fun _ _ => none)
    (fun s src d =>
      let f := s.fresh
      let s := s.drew 6
      let l := (List.range d.items).foldl (fun l j =>
        let it := s.item src d d.input j
        partInsert l it.m.str (s.cellPart src d j it (fun i => Config.freeWord (f + i)))) []
      let s := s.kPrivate src d.output 768
      (0, { s with est := { s.est with parts := Tab.set [] s.est.parts (physOf src d.output) l } }))

/-! ## The charge history (R241) -/

/-- A string's history gains an entry at the newest valid stamp of its ring. -/
def State.histString (s : State) (a : Nat) (r : Nat) : State :=
  let x := s.selected r
  match ((s.ringEntries x).filter (fun e => e.2.2 == 1)).reverse with
  | [] => s
  | e :: _ =>
    let l := Tab.get [] (s.hist a).charge r
    let next := match l with
      | [] => some (e.1, (0 : Int), 0)
      | (t0, q, u) :: _ =>
        if e.1 ≤ t0 then none
        else
          let c := s.ringCharge x t0 e.1
          some (e.1, q + c.1, u + (e.1 - t0 - c.2))
    match next with
    | some n => s.updHist a (fun h => { h with charge := Tab.set [] h.charge r ((n :: l).take 256) })
    | none => s

/-! ## Path offsets (R253) -/

/-- The samples of a source since the last call, by second; the latest 60 s are kept. -/
def State.secondsOf (s : State) (a x : Nat) : State :=
  let seen := Tab.get 0 (s.hist a).seen x
  let es := (s.ringEntries x).filter (fun e => e.2.2 == 1 && decide (seen < e.1))
  let add := fun (l : List (Nat × Int × Nat)) (e : Nat × Int × Nat) =>
    let k := e.1 / 1000000000
    match l with
    | (k0, q, n) :: t => if k0 = k then (k0, q + e.2.1, n + 1) :: t else (k, e.2.1, 1) :: (k0, q, n) :: t
    | [] => [(k, e.2.1, 1)]
  let now := s.ns / 1000000000
  s.updHist a (fun h => { h with
    secs := Tab.set [] h.secs x ((es.foldl add (Tab.get [] h.secs x)).filter (fun e => decide (now < e.1 + 60))),
    seen := Tab.set 0 h.seen x (es.foldl (fun m e => Nat.max m e.1) seen) })

/-- The 60 s mean of a source, mA. -/
def EstHist.mean60 (h : EstHist) (x : Nat) : Int :=
  let l := Tab.get [] h.secs x
  nearest (l.foldl (fun a e => a + e.2.1) 0) (l.foldl (fun a e => a + e.2.2) 0 : Nat)

/-- The comparison of a string's two paths after an inconsistency, at most once per 60 s, and its end (R253). -/
def State.pathCheck (s : State) (src a : Nat) (pm : Nat → Nat) (r : Nat) : State :=
  let s := (s.secondsOf a r).secondsOf a (12 + r)
  let h := s.hist a
  let sound := s.shuntSound r && s.phaseSound r
  let diff := fAbs (fRat (h.mean60 r - h.mean60 (12 + r)) 1000)
  let far := fLt (pm 68) diff
  let gen := Tab.get 0 s.cur.offGen r
  let now := s.ns
  let free : Bool := match Tab.get none h.offAt r with
    | some t0 => decide (t0 + 60000000000 ≤ now)
    | none => true
  if Tab.get false h.incons r ∧ free ∧ sound then
    let s := s.updHist a (fun h => { h with incons := Tab.set false h.incons r false, offAt := Tab.set none h.offAt r (some now) })
    if far then
      let s := s.updHist a (fun h => { h with off := Tab.set none h.off r (some (fAdd (pm 60) diff, gen)), offOk := Tab.set none h.offOk r none })
      s.raise src EV_EST_OFFSET [r, wrapInt (h.mean60 r) 32, wrapInt (h.mean60 (12 + r)) 32]
    else s
  else match Tab.get none h.off r with
    | none => s
    | some (_, g0) =>
      let since := if far ∨ ¬ sound then none else some ((Tab.get none h.offOk r).getD now)
      let ended : Bool := match since with
        | some t0 => decide (t0 + 60000000000 ≤ now)
        | none => false
      if g0 ≠ gen ∨ ended then
        s.updHist a (fun h => { h with off := Tab.set none h.off r none, offOk := Tab.set none h.offOk r none })
      else s.updHist a (fun h => { h with offOk := Tab.set none h.offOk r since })

/-! ## Limits and weights (R261 to R263) -/

/-- The string's limits, A: charge 2, 10, 30 s, discharge 2, 10, 30 s; narrowed while any cell has CALREQ. -/
def EstPart.limits (x : EstPart) (pm : Nat → Nat) : List Nat :=
  if bit x.flags 1 then x.lim.map (fun v => fMul v (pm 40)) else x.lim

/-- The string's power limits, W, in the same order (R261). -/
def EstPart.powers (x : EstPart) (pm : Nat → Nat) : List Nat :=
  (List.range 6).map (fun n =>
    let i := (x.limits pm).getD n 0
    let drop := fMul i (x.res.getD n 0)
    fMul i (if n < 3 then fAdd (x.u0.getD n 0) drop else fSub (x.u0.getD n 0) drop))

/-- A write by the kernel to a register. -/
def State.kWrite (s : State) (src a v : Nat) : State := (s.busStore src (s.pc src) a 4 v).2

/-- The 2 s limits of a string, charge first (R262). -/
def State.writeLimits (s : State) (src : Nat) (pm : Nat → Nat) (r : Nat) (x : EstPart) : State :=
  let l := x.limits pm
  (s.kWrite src (PW_DLIM_CHG r) (fFloor (l.getD 0 0) 1000 % 2 ^ 32)).kWrite src (PW_DLIM_DIS r) (fFloor (l.getD 3 0) 1000 % 2 ^ 32)

/-- The mean SOC of a string. -/
def EstPart.socMean (x : EstPart) : Nat := fDiv x.socSum (fInt x.cells)

def fMean (l : List Nat) : Nat := fDiv (l.foldl fAdd 0) (fInt l.length)

/-- The share weights of a string, UQ4.12, discharge low, charge high (R263). -/
def shareWeights (pm : Nat → Nat) (qm sm : Nat) (x : EstPart) : Nat :=
  let k := fMul (pm 112) (fSub x.socMean sm)
  let w := fun (y : Nat) => Nat.min (fFloor (fMul (fDiv x.qLo qm) (fMin (fMax y 0) f2)) 4096) 0xFFFF
  w (fAdd f1 k) + w (fSub f1 k) * 65536

/-! ## The period request (R265) -/

def State.periodRequest (s : State) (pm : Nat → Nat) (h : EstHist) (near : Bool) : Nat :=
  let fs := ((List.range 4).filter (fun b => s.rdB (ES_CORR_CTL b) ES_CORR_CTL_RUN)).flatMap (fun b =>
    (List.range (s.rd (ES_CORR_CTL b) ES_CORR_CTL_NFRQ + 1)).map (fun k => s.rd (ES_CORR_FRQ b k) ES_CORR_FRQ_FRQ))
  let fmax := fs.foldl Nat.max 0
  let exc := if fs.isEmpty then 0 else Nat.max 1 (10 ^ 11 / (4 * fmax * s.rd AQ_SWP_PER AQ_SWP_PER_PLOAD))
  let relax := (List.range 12).any (fun r => match Tab.get none h.rlx r with
    | some t0 => decide (s.ns < t0 + secNs (pm 124))
    | none => false)
  let l := ([exc, if relax then fFloor (pm 120) 1 else 0, b2n near]).filter (· ≠ 0)
  match l with
  | [] => 0
  | x :: t => t.foldl Nat.min x

/-! ## The result block (R266) -/

/-- The nearest integer to a non-negative number times a scale, and to any number. -/
def fNearest (x scale : Nat) : Int := (fix149 x * (2 * scale) + 2 ^ 149) / 2 ^ 150
def fCode (x scale w : Nat) : Nat := wrapInt (fNearest x scale) w
def fCeil (x scale : Nat) : Nat := ((fix149 x * scale).toNat + 2 ^ 149 - 1) / 2 ^ 149

/-- The words of an entry that a string and the section share, from their parts. -/
structure Result where
  socs : List Nat
  cap : Nat
  rhos : Nat
  cur : List Nat
  pow : List Nat
  energy : List Nat
  tint : Nat
  tsurf : Nat
  flags : Nat
  least : Nat
  sec : Nat
  deriving DecidableEq, Repr

def Result.bytes (x : Result) : List Nat :=
  x.socs.flatMap (fun v => bytesLE v 2) ++ bytesLE x.cap 4 ++ bytesLE x.rhos 4 ++ x.cur.flatMap (fun v => bytesLE v 4) ++
    x.pow.flatMap (fun v => bytesLE v 4) ++ x.energy.flatMap (fun v => bytesLE v 4) ++ bytesLE x.tint 2 ++ bytesLE x.tsurf 2 ++
    bytesLE x.flags 2 ++ bytesLE x.least 2 ++ bytesLE x.sec 4 ++ List.replicate 44 0

/-- A string's entry; with no valid internal temperature its code is free (log 4). -/
def EstPart.result (x : EstPart) (pm : Nat → Nat) (off : Bool) (free : Nat) : Result :=
  let b := bit x.flags 0
  { socs := [fCode x.socLo 10000 16, fCode x.socHi 10000 16, fFloor x.lbLo 10000, fCeil x.ubHi 10000],
    cap := fCode x.qLo 100 32, rhos := fCode x.rhos 1000000 32,
    cur := (x.limits pm).map (fun v => fFloor v 1000), pow := (x.powers pm).map (fun v => fFloor v 1),
    energy := [fFloor (fMul (if b then x.eDisB else x.eDis) x.ocv) 1, fFloor (fMul (if b then x.eChgB else x.eChg) x.ocv) 1],
    tint := match x.tint with
      | some v => fCode v 100 16
      | none => free % 65536,
    tsurf := fCode x.tsurf 100 16, flags := x.flags + 32 * b2n off, least := x.least, sec := x.sec }

/-- The section's entry from its strings' entries: least and greatest, sums, hottest, or. -/
def sectionResult (l : List (EstPart × Result)) : Result :=
  let sum := fun (f : Result → List Nat) (n : Nat) => (List.range n).map (fun i => l.foldl (fun a p => a + (f p.2).getD i 0) 0)
  let pick := fun (f : Nat → Nat → Nat) (i : Nat) => match l.map (fun p => p.2.socs.getD i 0) with
    | [] => 0
    | x :: t => t.foldl f x
  let hot := fun (f : Result → Nat) => match l.map (fun p => sext (f p.2) 16) with
    | [] => 0
    | x :: t => wrapInt (t.foldl (fun a b => if a < b then b else a) x) 16
  let first := l.foldl (fun (a : Option (EstPart × Result)) p => match a with
    | some q => if fLt p.1.socLo q.1.socLo then some p else some q
    | none => some p) none
  { socs := [pick Nat.min 0, pick Nat.max 1, pick Nat.min 2, pick Nat.max 3], cap := l.foldl (fun a p => a + p.2.cap) 0, rhos := 0,
    cur := sum Result.cur 6, pow := sum Result.pow 6, energy := sum Result.energy 2, tint := hot Result.tint,
    tsurf := hot Result.tsurf, flags := l.foldl (fun a p => a ||| p.2.flags) 0,
    least := match first with
      | some p => p.2.least
      | none => 0,
    sec := l.foldl (fun a p => Nat.max a p.2.sec) 0 }

/-- The effect of the final call (R236, R241, R253, R262 to R266). -/
def State.aggregate (s : State) (src : Nat) (d : KDesc) : State :=
  let pm0 := (List.range 32).map (fun i => s.kLoad src (d.prm + 4 * i) 4)
  let pm := fun o => pm0.getD (o / 4) 0
  let a := physOf src d.state
  let s := s.strings.foldl (fun s r => (s.histString a r).pathCheck src a pm r) s
  let parts := (List.range d.items).foldl (fun l k =>
    (Tab.get [] s.est.parts (physOf src (d.input + 3072 * k))).foldl (fun l p => partInsert l p.1 p.2) l) []
  let used := s.strings.filterMap (fun r => (parts.find? (fun p => p.1 == r)).map (fun p => (r, p.2)))
  let s := used.foldl (fun s p => s.writeLimits src pm p.1 p.2) s
  let qm := fMean (used.map (fun p => p.2.qLo))
  let sm := fMean (used.map (fun p => p.2.socMean))
  let s := used.foldl (fun s p => s.kWrite src (PW_SHW p.1) (shareWeights pm qm sm p.2)) s
  let req := s.periodRequest pm (s.hist a) (used.any (fun p => p.2.near))
  let s := if req ≠ (s.hist a).req then
      (s.kWrite src AQ_SWP_REQ ((s.reg AQ_SWP_REQ).toNat / 65536 * 65536 + req % 65536)).updHist a (fun h => { h with req := req })
    else s
  let f := s.fresh
  let rs := used.map (fun p => (p.1, p.2, p.2.result pm (Tab.get none (s.hist a).off p.1).isSome (Config.freeWord (f + p.1))))
  let s := s.drew 12
  let bytes := (List.range 12).flatMap (fun r => match rs.find? (fun p => p.1 == r) with
    | some p => p.2.2.bytes
    | none => List.replicate 128 0) ++ (sectionResult (rs.map (fun p => p.2))).bytes
  let words := (List.range 416).map (fun i => ofBytesLE ((bytes.drop (4 * i)).take 4))
  (s.kStoreWords src d.output words).kPrivate src d.state 16384

/-- KERNEL_AGGREGATION_FINAL: kernel 0x08 in final form. -/
def execKernelAggregationFinal (s : State) (g : GrainId) (t : Nat) : Host.Outcome State Fault Refusal :=
  s.kernelRun g t 8 (fun d => d.b == 1) 16
    (fun _ d => [(.read, d.input, 3072 * d.items), (.write, d.output, 1664), (.write, d.state, 65536)]) (fun _ _ => none)
    (fun s src d => (0, s.aggregate src d))

end Sys2Proof.Machine
end

