-- ==== Sys2Proof/Machine/FloatOps.lean ====
section
/-!
DEFINITION. The floating-point instructions of the control grains (R195, R196).
-/

namespace Sys2Proof.Machine

/-! ## Shapes -/

/-- The format that P selects: binary32 or binary64. -/
def fmtOf (p : Bool) : Fmt := if p then f64 else f32

/-- An operand: a binary32 operand ignores the high half (R195). -/
def State.fArg (s : State) (src : Nat) (p : Bool) (n : Nat) : Nat :=
  let v := (s.fReg src n).toNat
  if p then v else v % 2 ^ 32

/-- The rounding mode in force; codes 5 to 7 act as 0. -/
def State.frm (s : State) (src : Nat) : Nat :=
  let m := (s.grain src).fpctl.toNat % 8
  if 5 ≤ m then 0 else m

/-- Flags raised stick in `FPCTL` [8:4]. -/
def State.fRaise (s : State) (src : Nat) (fl : Flags) : State :=
  s.updGrain src (fun x => { x with fpctl := x.fpctl ||| BitVec.ofNat 32 (fl * 16) })

/-- The word of a floating-point instruction: operation, P, and fs3 or 0 in sub (R196). -/
def encF (op : Nat) (p : Bool) (rd rs1 rs2 sub : Nat) : Nat := encR 2 rd rs1 rs2 sub (2 * op + b2n p)

/-- An operation with a floating result (its high half 0 for binary32). -/
def State.fpF (s : State) (g : GrainId) (rd t w : Nat) (f : State → FRes) : Host.Outcome State Fault Refusal :=
  s.issue g t w (g.kind == .ctl) true (fun s =>
    let r := f s
    ((s.fRaise g.src r.2).setF g.src rd (BitVec.ofNat 64 r.1)).stepOn g.src)

/-- An operation with a result in a general register. -/
def State.fpG (s : State) (g : GrainId) (rd t w : Nat) (f : State → FRes) : Host.Outcome State Fault Refusal :=
  s.issue g t w (g.kind == .ctl) true (fun s =>
    let r := f s
    ((s.fRaise g.src r.2).setG g.src rd (BitVec.ofNat 32 r.1)).stepOn g.src)

/-- `fadd fd, fs1, fs2` in binary32, or binary64 with P. -/
def execFadd (s : State) (g : GrainId) (p : Bool) (rd rs1 rs2 : Fin 32) (t : Nat) : Host.Outcome State Fault Refusal :=
  s.fpF g rd t (encF 0 p rd rs1 rs2 0) (fun s => (fmtOf p).add (s.frm g.src) (s.fArg g.src p rs1) (s.fArg g.src p rs2))

/-- `fsub fd, fs1, fs2` in binary32, or binary64 with P. -/
def execFsub (s : State) (g : GrainId) (p : Bool) (rd rs1 rs2 : Fin 32) (t : Nat) : Host.Outcome State Fault Refusal :=
  s.fpF g rd t (encF 1 p rd rs1 rs2 0) (fun s => (fmtOf p).sub (s.frm g.src) (s.fArg g.src p rs1) (s.fArg g.src p rs2))

/-- `fmul fd, fs1, fs2` in binary32, or binary64 with P. -/
def execFmul (s : State) (g : GrainId) (p : Bool) (rd rs1 rs2 : Fin 32) (t : Nat) : Host.Outcome State Fault Refusal :=
  s.fpF g rd t (encF 2 p rd rs1 rs2 0) (fun s => (fmtOf p).mul (s.frm g.src) (s.fArg g.src p rs1) (s.fArg g.src p rs2))

/-- `fdiv fd, fs1, fs2` in binary32, or binary64 with P. -/
def execFdiv (s : State) (g : GrainId) (p : Bool) (rd rs1 rs2 : Fin 32) (t : Nat) : Host.Outcome State Fault Refusal :=
  s.fpF g rd t (encF 3 p rd rs1 rs2 0) (fun s => (fmtOf p).div (s.frm g.src) (s.fArg g.src p rs1) (s.fArg g.src p rs2))

/-- `fsqrt fd, fs1`. -/
def execFsqrt (s : State) (g : GrainId) (p : Bool) (rd rs1 : Fin 32) (t : Nat) : Host.Outcome State Fault Refusal :=
  s.fpF g rd t (encF 4 p rd rs1 0 0) (fun s => (fmtOf p).sqrt (s.frm g.src) (s.fArg g.src p rs1))

/-- A fused operation: the flag of an infinity times zero plus a quiet NaN is free, as IEEE 754-2019 leaves it. -/
def State.fused (s : State) (g : GrainId) (p : Bool) (rd t w : Nat) (f : State → Nat × Nat × Nat) :
    Host.Outcome State Fault Refusal :=
  s.issue g t w (g.kind == .ctl) true (fun s =>
    let x := f s
    let r := (fmtOf p).fma (s.frm g.src) x.1 x.2.1 x.2.2 (16 * (s.freeNat % 2))
    (((s.drew 1).fRaise g.src r.2).setF g.src rd (BitVec.ofNat 64 r.1)).stepOn g.src)

/-- `fmla fd, fs1, fs2, fs3`: fs3 + fs1 × fs2 with one rounding. -/
def execFmla (s : State) (g : GrainId) (p : Bool) (rd rs1 rs2 rs3 : Fin 32) (t : Nat) : Host.Outcome State Fault Refusal :=
  s.fused g p rd t (encF 5 p rd rs1 rs2 rs3) (fun s =>
    ((s.fArg g.src p rs1), (s.fArg g.src p rs2), (s.fArg g.src p rs3)))

/-- `fmls fd, fs1, fs2, fs3`: fs3 − fs1 × fs2 with one rounding. -/
def execFmls (s : State) (g : GrainId) (p : Bool) (rd rs1 rs2 rs3 : Fin 32) (t : Nat) : Host.Outcome State Fault Refusal :=
  s.fused g p rd t (encF 6 p rd rs1 rs2 rs3) (fun s =>
    ((fmtOf p).neg (s.fArg g.src p rs1), (s.fArg g.src p rs2), (s.fArg g.src p rs3)))

/-- `fmnl fd, fs1, fs2, fs3`: fs1 × fs2 − fs3 with one rounding. -/
def execFmnl (s : State) (g : GrainId) (p : Bool) (rd rs1 rs2 rs3 : Fin 32) (t : Nat) : Host.Outcome State Fault Refusal :=
  s.fused g p rd t (encF 7 p rd rs1 rs2 rs3) (fun s =>
    ((s.fArg g.src p rs1), (s.fArg g.src p rs2), (fmtOf p).neg (s.fArg g.src p rs3)))

/-- `fmin fd, fs1, fs2`: −0 below +0, the default NaN for a NaN operand. -/
def execFmin (s : State) (g : GrainId) (p : Bool) (rd rs1 rs2 : Fin 32) (t : Nat) : Host.Outcome State Fault Refusal :=
  s.fpF g rd t (encF 8 p rd rs1 rs2 0) (fun s => (fmtOf p).min (s.fArg g.src p rs1) (s.fArg g.src p rs2))

/-- `fmax fd, fs1, fs2`: −0 below +0, the default NaN for a NaN operand. -/
def execFmax (s : State) (g : GrainId) (p : Bool) (rd rs1 rs2 : Fin 32) (t : Nat) : Host.Outcome State Fault Refusal :=
  s.fpF g rd t (encF 9 p rd rs1 rs2 0) (fun s => (fmtOf p).max (s.fArg g.src p rs1) (s.fArg g.src p rs2))

/-- `fabs fd, fs1`: no flags. -/
def execFabs (s : State) (g : GrainId) (p : Bool) (rd rs1 : Fin 32) (t : Nat) : Host.Outcome State Fault Refusal :=
  s.fpF g rd t (encF 10 p rd rs1 0 0) (fun s => ((fmtOf p).abs (s.fArg g.src p rs1), 0))

/-- `fneg fd, fs1`: no flags. -/
def execFneg (s : State) (g : GrainId) (p : Bool) (rd rs1 : Fin 32) (t : Nat) : Host.Outcome State Fault Refusal :=
  s.fpF g rd t (encF 11 p rd rs1 0 0) (fun s => ((fmtOf p).neg (s.fArg g.src p rs1), 0))

/-- `fceq gd, fs1, fs2`: equal. -/
def execFceq (s : State) (g : GrainId) (p : Bool) (rd rs1 rs2 : Fin 32) (t : Nat) : Host.Outcome State Fault Refusal :=
  s.fpG g rd t (encF 12 p rd rs1 rs2 0) (fun s =>
    let x := (fmtOf p).val (s.fArg g.src p rs1)
    let y := (fmtOf p).val (s.fArg g.src p rs2)
    (b2n (x.eq y), snanFlag x y))

/-- `fclt gd, fs1, fs2`: below. -/
def execFclt (s : State) (g : GrainId) (p : Bool) (rd rs1 rs2 : Fin 32) (t : Nat) : Host.Outcome State Fault Refusal :=
  s.fpG g rd t (encF 13 p rd rs1 rs2 0) (fun s =>
    let x := (fmtOf p).val (s.fArg g.src p rs1)
    let y := (fmtOf p).val (s.fArg g.src p rs2)
    (b2n (FVal.lt x y), nanFlag x y))

/-- `fcle gd, fs1, fs2`: below or equal. -/
def execFcle (s : State) (g : GrainId) (p : Bool) (rd rs1 rs2 : Fin 32) (t : Nat) : Host.Outcome State Fault Refusal :=
  s.fpG g rd t (encF 14 p rd rs1 rs2 0) (fun s =>
    let x := (fmtOf p).val (s.fArg g.src p rs1)
    let y := (fmtOf p).val (s.fArg g.src p rs2)
    (b2n (FVal.lt x y || x.eq y), nanFlag x y))

/-- `fcun gd, fs1, fs2`: unordered. -/
def execFcun (s : State) (g : GrainId) (p : Bool) (rd rs1 rs2 : Fin 32) (t : Nat) : Host.Outcome State Fault Refusal :=
  s.fpG g rd t (encF 21 p rd rs1 rs2 0) (fun s =>
    let x := (fmtOf p).val (s.fArg g.src p rs1)
    let y := (fmtOf p).val (s.fArg g.src p rs2)
    (b2n (x.isNan || y.isNan), snanFlag x y))

/-- `fkind gd, fs1`. -/
def execFkind (s : State) (g : GrainId) (p : Bool) (rd rs1 : Fin 32) (t : Nat) : Host.Outcome State Fault Refusal :=
  s.fpG g rd t (encF 15 p rd rs1 0 0) (fun s => ((fmtOf p).kind (s.fArg g.src p rs1), 0))

/-- `ftoi gd, fs1`: to signed 32-bit under RM. -/
def execFtoi (s : State) (g : GrainId) (p : Bool) (rd rs1 : Fin 32) (t : Nat) : Host.Outcome State Fault Refusal :=
  s.fpG g rd t (encF 16 p rd rs1 0 0) (fun s => (fmtOf p).toInt (s.frm g.src) (s.fArg g.src p rs1))

/-- `itof fd, gs1`: from signed 32-bit, rounded under RM. -/
def execItof (s : State) (g : GrainId) (p : Bool) (rd rs1 : Fin 32) (t : Nat) : Host.Outcome State Fault Refusal :=
  s.fpF g rd t (encF 17 p rd rs1 0 0) (fun s => (fmtOf p).ofInt (s.frm g.src) (s.gReg g.src rs1).toInt)

/-- `fnarrow fd, fs1`: binary64 to binary32 under RM. -/
def execFnarrow (s : State) (g : GrainId) (rd rs1 : Fin 32) (t : Nat) : Host.Outcome State Fault Refusal :=
  s.fpF g rd t (encF 18 false rd rs1 0 0) (fun s => f64.convert f32 (s.frm g.src) (s.fArg g.src true rs1))

/-- `fwiden fd, fs1`: binary32 to binary64, exact. -/
def execFwiden (s : State) (g : GrainId) (rd rs1 : Fin 32) (t : Nat) : Host.Outcome State Fault Refusal :=
  s.fpF g rd t (encF 18 true rd rs1 0 0) (fun s => f32.convert f64 (s.frm g.src) (s.fArg g.src false rs1))

/-- `fmvgf.lo gd, fs1`: the low half, unchanged. -/
def execFmvgfLo (s : State) (g : GrainId) (rd rs1 : Fin 32) (t : Nat) : Host.Outcome State Fault Refusal :=
  s.fpG g rd t (encF 19 false rd rs1 0 0) (fun s => ((s.fReg g.src rs1).toNat % 2 ^ 32, 0))

/-- `fmvgf.hi gd, fs1`: the high half, unchanged. -/
def execFmvgfHi (s : State) (g : GrainId) (rd rs1 : Fin 32) (t : Nat) : Host.Outcome State Fault Refusal :=
  s.fpG g rd t (encF 19 true rd rs1 0 0) (fun s => ((s.fReg g.src rs1).toNat / 2 ^ 32, 0))

/-- `fmvfg.lo fd, gs1`: the low half written, the high half kept. -/
def execFmvfgLo (s : State) (g : GrainId) (rd rs1 : Fin 32) (t : Nat) : Host.Outcome State Fault Refusal :=
  s.fpF g rd t (encF 20 false rd rs1 0 0) (fun s =>
    ((s.fReg g.src rd).toNat / 2 ^ 32 * 2 ^ 32 + (s.gReg g.src rs1).toNat, 0))

/-- `fmvfg.hi fd, gs1`: the high half written, the low half kept. -/
def execFmvfgHi (s : State) (g : GrainId) (rd rs1 : Fin 32) (t : Nat) : Host.Outcome State Fault Refusal :=
  s.fpF g rd t (encF 20 true rd rs1 0 0) (fun s =>
    ((s.fReg g.src rd).toNat % 2 ^ 32 + (s.gReg g.src rs1).toNat * 2 ^ 32, 0))

end Sys2Proof.Machine
end

