-- ==== Sys2Proof/Machine/Integer.lean ====
section
/-!
DEFINITION. The integer instructions (R187 to R189): one meaning each over the issue of an instruction and the value it
computes.
-/

namespace Sys2Proof.Machine

/-! ## Values -/

/-- Leading zeros of a word (R187). -/
def clzW (w : Word) : Nat := 32 - bitLen w.toNat

/-- Trailing zeros of a word: the first of `n` bits from bit `i` that is 1. -/
def ctzFrom (x : Nat) : Nat → Nat → Nat
  | 0, i => i
  | n + 1, i => if bit x i then i else ctzFrom x n (i + 1)
def ctzW (w : Word) : Nat := ctzFrom w.toNat 32 0

/-- Ones of a word. -/
def popW (w : Word) : Nat := ((List.range 32).filter (fun i => bit w.toNat i)).length

/-- A truth value as a word. -/
def boolW (b : Bool) : Word := if b then 1#32 else 0#32

/-- An unsigned immediate as a word, and a sign-extended one (R185). -/
def immU (i : Nat) : Word := BitVec.ofNat 32 i
def immS (i : Nat) : Word := BitVec.ofInt 32 (sext i 16)

/-- Division that saturates (R188). -/
def divW (a b : Word) : Word :=
  if b = 0#32 then (if a = 0#32 then 0#32 else if a.toInt < 0 then 0x80000000#32 else 0x7FFFFFFF#32)
  else if a = 0x80000000#32 ∧ b = 0xFFFFFFFF#32 then 0x7FFFFFFF#32
  else BitVec.ofInt 32 (a.toInt.tdiv b.toInt)
def divuW (a b : Word) : Word := if b = 0#32 then (if a = 0#32 then 0#32 else 0xFFFFFFFF#32) else BitVec.ofNat 32 (a.toNat / b.toNat)
def remW (a b : Word) : Word :=
  if b = 0#32 then 0#32
  else if a = 0x80000000#32 ∧ b = 0xFFFFFFFF#32 then 0#32
  else BitVec.ofInt 32 (a.toInt.tmod b.toInt)
def remuW (a b : Word) : Word := if b = 0#32 then 0#32 else BitVec.ofNat 32 (a.toNat % b.toNat)

/-- High halves of products. -/
def mulhW (a b : Word) : Word := BitVec.ofInt 32 ((a.toInt * b.toInt) / 2 ^ 32)
def mulhuW (a b : Word) : Word := BitVec.ofNat 32 (a.toNat * b.toNat / 2 ^ 32)

/-! ## Shapes -/

/-- A register operation: gd from gs1 and gs2 (R187). -/
def State.aluR (s : State) (g : GrainId) (rd rs1 rs2 t w : Nat) (legal : Bool) (f : Word → Word → Word) :
    Host.Outcome State Fault Refusal :=
  s.compute g t w legal rd (fun s => f (s.gReg g.src rs1) (s.gReg g.src rs2))

/-- A register operation of one source. -/
def State.aluU (s : State) (g : GrainId) (rd rs1 t w : Nat) (f : Word → Word) : Host.Outcome State Fault Refusal :=
  s.compute g t w true rd (fun s => f (s.gReg g.src rs1))

/-! ## Major 0x00 (R187) -/

/-- `add gd, gs1, gs2`. Sum. -/
def execAdd (s : State) (g : GrainId) (rd rs1 rs2 : Fin 32) (t : Nat) : Host.Outcome State Fault Refusal :=
  s.aluR g rd rs1 rs2 t (encR 0 rd rs1 rs2 0 1) true (fun a b => a + b)

/-- `sub gd, gs1, gs2`. Difference. -/
def execSub (s : State) (g : GrainId) (rd rs1 rs2 : Fin 32) (t : Nat) : Host.Outcome State Fault Refusal :=
  s.aluR g rd rs1 rs2 t (encR 0 rd rs1 rs2 0 2) true (fun a b => a - b)

/-- `and gd, gs1, gs2`. Bitwise and. -/
def execAnd (s : State) (g : GrainId) (rd rs1 rs2 : Fin 32) (t : Nat) : Host.Outcome State Fault Refusal :=
  s.aluR g rd rs1 rs2 t (encR 0 rd rs1 rs2 0 3) true (fun a b => a &&& b)

/-- `or gd, gs1, gs2`. Bitwise or. -/
def execOr (s : State) (g : GrainId) (rd rs1 rs2 : Fin 32) (t : Nat) : Host.Outcome State Fault Refusal :=
  s.aluR g rd rs1 rs2 t (encR 0 rd rs1 rs2 0 4) true (fun a b => a ||| b)

/-- `xor gd, gs1, gs2`. Bitwise exclusive or. -/
def execXor (s : State) (g : GrainId) (rd rs1 rs2 : Fin 32) (t : Nat) : Host.Outcome State Fault Refusal :=
  s.aluR g rd rs1 rs2 t (encR 0 rd rs1 rs2 0 5) true (fun a b => a ^^^ b)

/-- `sll gd, gs1, gs2`. Shift left by gs2 [4:0]. -/
def execSll (s : State) (g : GrainId) (rd rs1 rs2 : Fin 32) (t : Nat) : Host.Outcome State Fault Refusal :=
  s.aluR g rd rs1 rs2 t (encR 0 rd rs1 rs2 0 6) true (fun a b => a <<< (b.toNat % 32))

/-- `srl gd, gs1, gs2`. Logical shift right by gs2 [4:0]. -/
def execSrl (s : State) (g : GrainId) (rd rs1 rs2 : Fin 32) (t : Nat) : Host.Outcome State Fault Refusal :=
  s.aluR g rd rs1 rs2 t (encR 0 rd rs1 rs2 0 7) true (fun a b => a >>> (b.toNat % 32))

/-- `sra gd, gs1, gs2`. Arithmetic shift right by gs2 [4:0]. -/
def execSra (s : State) (g : GrainId) (rd rs1 rs2 : Fin 32) (t : Nat) : Host.Outcome State Fault Refusal :=
  s.aluR g rd rs1 rs2 t (encR 0 rd rs1 rs2 0 8) true (fun a b => a.sshiftRight (b.toNat % 32))

/-- `slt gd, gs1, gs2`. Signed less than. -/
def execSlt (s : State) (g : GrainId) (rd rs1 rs2 : Fin 32) (t : Nat) : Host.Outcome State Fault Refusal :=
  s.aluR g rd rs1 rs2 t (encR 0 rd rs1 rs2 0 9) true (fun a b => boolW (decide (a.toInt < b.toInt)))

/-- `sltu gd, gs1, gs2`. Unsigned less than. -/
def execSltu (s : State) (g : GrainId) (rd rs1 rs2 : Fin 32) (t : Nat) : Host.Outcome State Fault Refusal :=
  s.aluR g rd rs1 rs2 t (encR 0 rd rs1 rs2 0 10) true (fun a b => boolW (decide (a.toNat < b.toNat)))

/-- `min gd, gs1, gs2`. Signed minimum. -/
def execMin (s : State) (g : GrainId) (rd rs1 rs2 : Fin 32) (t : Nat) : Host.Outcome State Fault Refusal :=
  s.aluR g rd rs1 rs2 t (encR 0 rd rs1 rs2 0 11) true (fun a b => if a.toInt ≤ b.toInt then a else b)

/-- `max gd, gs1, gs2`. Signed maximum. -/
def execMax (s : State) (g : GrainId) (rd rs1 rs2 : Fin 32) (t : Nat) : Host.Outcome State Fault Refusal :=
  s.aluR g rd rs1 rs2 t (encR 0 rd rs1 rs2 0 12) true (fun a b => if a.toInt ≤ b.toInt then b else a)

/-- `minu gd, gs1, gs2`. Unsigned minimum. -/
def execMinu (s : State) (g : GrainId) (rd rs1 rs2 : Fin 32) (t : Nat) : Host.Outcome State Fault Refusal :=
  s.aluR g rd rs1 rs2 t (encR 0 rd rs1 rs2 0 13) true (fun a b => if a.toNat ≤ b.toNat then a else b)

/-- `maxu gd, gs1, gs2`. Unsigned maximum. -/
def execMaxu (s : State) (g : GrainId) (rd rs1 rs2 : Fin 32) (t : Nat) : Host.Outcome State Fault Refusal :=
  s.aluR g rd rs1 rs2 t (encR 0 rd rs1 rs2 0 14) true (fun a b => if a.toNat ≤ b.toNat then b else a)

/-- `slli gd, gs1, sh`. Shift left. -/
def execSlli (s : State) (g : GrainId) (rd rs1 sh : Fin 32) (t : Nat) : Host.Outcome State Fault Refusal :=
  s.aluU g rd rs1 t (encR 0 rd rs1 0 sh 16) (fun a => a <<< sh.val)

/-- `srli gd, gs1, sh`. Logical shift right. -/
def execSrli (s : State) (g : GrainId) (rd rs1 sh : Fin 32) (t : Nat) : Host.Outcome State Fault Refusal :=
  s.aluU g rd rs1 t (encR 0 rd rs1 0 sh 17) (fun a => a >>> sh.val)

/-- `srai gd, gs1, sh`. Arithmetic shift right. -/
def execSrai (s : State) (g : GrainId) (rd rs1 sh : Fin 32) (t : Nat) : Host.Outcome State Fault Refusal :=
  s.aluU g rd rs1 t (encR 0 rd rs1 0 sh 18) (fun a => a.sshiftRight sh.val)

/-- `clz gd, gs1`. Leading zeros; 32 for 0. -/
def execClz (s : State) (g : GrainId) (rd rs1 : Fin 32) (t : Nat) : Host.Outcome State Fault Refusal :=
  s.aluU g rd rs1 t (encR 0 rd rs1 0 0 20) (fun a => BitVec.ofNat 32 (clzW a))

/-- `ctz gd, gs1`. Trailing zeros; 32 for 0. -/
def execCtz (s : State) (g : GrainId) (rd rs1 : Fin 32) (t : Nat) : Host.Outcome State Fault Refusal :=
  s.aluU g rd rs1 t (encR 0 rd rs1 0 0 21) (fun a => BitVec.ofNat 32 (ctzW a))

/-- `popc gd, gs1`. Ones. -/
def execPopc (s : State) (g : GrainId) (rd rs1 : Fin 32) (t : Nat) : Host.Outcome State Fault Refusal :=
  s.aluU g rd rs1 t (encR 0 rd rs1 0 0 22) (fun a => BitVec.ofNat 32 (popW a))

/-! ## Major 0x01 (R178, R187, R188); a link engine has no divide -/

/-- `mul gd, gs1, gs2`. Low half of the product. -/
def execMul (s : State) (g : GrainId) (rd rs1 rs2 : Fin 32) (t : Nat) : Host.Outcome State Fault Refusal :=
  s.aluR g rd rs1 rs2 t (encR 1 rd rs1 rs2 0 0) true (fun a b => a * b)

/-- `mulh gd, gs1, gs2`. High half of the signed product. -/
def execMulh (s : State) (g : GrainId) (rd rs1 rs2 : Fin 32) (t : Nat) : Host.Outcome State Fault Refusal :=
  s.aluR g rd rs1 rs2 t (encR 1 rd rs1 rs2 0 1) true mulhW

/-- `mulhu gd, gs1, gs2`. High half of the unsigned product. -/
def execMulhu (s : State) (g : GrainId) (rd rs1 rs2 : Fin 32) (t : Nat) : Host.Outcome State Fault Refusal :=
  s.aluR g rd rs1 rs2 t (encR 1 rd rs1 rs2 0 2) true mulhuW

/-- `div gd, gs1, gs2`. Signed quotient, toward zero, saturating. -/
def execDiv (s : State) (g : GrainId) (rd rs1 rs2 : Fin 32) (t : Nat) : Host.Outcome State Fault Refusal :=
  s.aluR g rd rs1 rs2 t (encR 1 rd rs1 rs2 0 4) (g.kind != .link) divW

/-- `divu gd, gs1, gs2`. Unsigned quotient, saturating. -/
def execDivu (s : State) (g : GrainId) (rd rs1 rs2 : Fin 32) (t : Nat) : Host.Outcome State Fault Refusal :=
  s.aluR g rd rs1 rs2 t (encR 1 rd rs1 rs2 0 5) (g.kind != .link) divuW

/-- `rem gd, gs1, gs2`. Signed remainder, with the sign of gs1. -/
def execRem (s : State) (g : GrainId) (rd rs1 rs2 : Fin 32) (t : Nat) : Host.Outcome State Fault Refusal :=
  s.aluR g rd rs1 rs2 t (encR 1 rd rs1 rs2 0 6) (g.kind != .link) remW

/-- `remu gd, gs1, gs2`. Unsigned remainder. -/
def execRemu (s : State) (g : GrainId) (rd rs1 rs2 : Fin 32) (t : Nat) : Host.Outcome State Fault Refusal :=
  s.aluR g rd rs1 rs2 t (encR 1 rd rs1 rs2 0 7) (g.kind != .link) remuW

/-! ## Immediates (R189) -/

/-- `addi gd, gs1, imm16`. Sum with the sign-extended immediate. -/
def execAddi (s : State) (g : GrainId) (rd rs1 : Fin 32) (imm : Fin 65536) (t : Nat) : Host.Outcome State Fault Refusal :=
  s.aluU g rd rs1 t (encI 8 rd rs1 imm) (fun a => a + immS imm)

/-- `slti gd, gs1, imm16`. Signed less than the immediate. -/
def execSlti (s : State) (g : GrainId) (rd rs1 : Fin 32) (imm : Fin 65536) (t : Nat) : Host.Outcome State Fault Refusal :=
  s.aluU g rd rs1 t (encI 9 rd rs1 imm) (fun a => boolW (decide (a.toInt < (immS imm).toInt)))

/-- `sltiu gd, gs1, imm16`. Unsigned less than the sign-extended immediate. -/
def execSltiu (s : State) (g : GrainId) (rd rs1 : Fin 32) (imm : Fin 65536) (t : Nat) : Host.Outcome State Fault Refusal :=
  s.aluU g rd rs1 t (encI 10 rd rs1 imm) (fun a => boolW (decide (a.toNat < (immS imm).toNat)))

/-- `andi gd, gs1, imm16`. Bitwise and with the unsigned immediate. -/
def execAndi (s : State) (g : GrainId) (rd rs1 : Fin 32) (imm : Fin 65536) (t : Nat) : Host.Outcome State Fault Refusal :=
  s.aluU g rd rs1 t (encI 11 rd rs1 imm) (fun a => a &&& immU imm)

/-- `ori gd, gs1, imm16`. Bitwise or with the unsigned immediate. -/
def execOri (s : State) (g : GrainId) (rd rs1 : Fin 32) (imm : Fin 65536) (t : Nat) : Host.Outcome State Fault Refusal :=
  s.aluU g rd rs1 t (encI 12 rd rs1 imm) (fun a => a ||| immU imm)

/-- `xori gd, gs1, imm16`. Bitwise exclusive or with the unsigned immediate. -/
def execXori (s : State) (g : GrainId) (rd rs1 : Fin 32) (imm : Fin 65536) (t : Nat) : Host.Outcome State Fault Refusal :=
  s.aluU g rd rs1 t (encI 13 rd rs1 imm) (fun a => a ^^^ immU imm)

/-- `lui gd, imm16`. The immediate × 65,536. -/
def execLui (s : State) (g : GrainId) (rd : Fin 32) (imm : Fin 65536) (t : Nat) : Host.Outcome State Fault Refusal :=
  s.compute g t (encI 14 rd 0 imm) true rd (fun _ => BitVec.ofNat 32 (imm.val * 65536))

end Sys2Proof.Machine
end

