-- ==== Sys2Proof/Machine/LinkOps.lean ====
section
/-!
DEFINITION. The link-extension instructions of the link engines (R73, R74).
-/

namespace Sys2Proof.Machine

/-- The engine of a source 0x1xx (R167). -/
def engOf (src : Nat) : Nat := (src - 0x100) / 16 * 4 + src % 16

/-- Where an offset of an engine's frame buffer lies (R153). -/
def frameAt (src off : Nat) : Nat := aliasBase src + 0x4000 + off

/-- A refusal by a link instruction: EV_LINK_REFUSED and a link-fault descriptor with the function and the instruction's
address (R74, R211). -/
def State.linkRefuse (s : State) (src q func : Nat) : State :=
  (s.raise src EV_LINK_REFUSED [portPos (portOf (engOf src)) q]).post 5 src func src (s.pc src) 0

/-- The positions that a READ's body names, as if it had been sent (R74). -/
def readOfBody (body : List Nat) (instant : Nat) : ReadOut :=
  { tag := beField body 3 2, first := beField body 7 1, last := beField body 8 1, slot := beField body 5 2, instant := instant,
    retry := false }

/-- A READ without an armed slot window: each position of its range counts as missing (R60, R74). -/
def State.readUnsent (s : State) (k : Nat) (body : List Nat) : State :=
  (s.expected k (readOfBody body s.now)).foldl (fun s q => s.missing k q (beField body 3 2)) s

/-- A frame goes out: a READ uses up the armed slot window (R57, R73); gd receives the low word of its instant. -/
def State.lsendGo (s : State) (src rd : Nat) (body : List Nat) : State :=
  let k := engOf src
  let now := s.now
  let arm := (s.eng k).slot
  let s := s.engSend k body
  let s := match arm with
    | some (first, last, slot) =>
      if frameType body = 0x11 then s.updEng k (fun e => { e with
        readOut := some { tag := beField body 3 2, first := first, last := last, slot := slot, instant := now, retry := false },
        slot := none, strAt := now })
      else s
    | none => s
  let s := s.updGrain src (fun x => { x with wait := .none })
  (s.setG src rd (BitVec.ofNat 32 s.ns)).stepOn src

/-- A frame goes out once its launch time has come and no slot window is open on the port (R58, R73). -/
def State.lsendTry (s : State) (src rd : Nat) (body : List Nat) (launch : Nat) : State :=
  if launch * 1000 ≤ s.now ∧ (s.eng (engOf src)).readOut = none then s.lsendGo src rd body
  else s.updGrain src (fun x => { x with wait := .lsend rd body launch })

/-- A BAL that R65 refuses: to an unauthenticated node with AUTHREQ 1, or to a node with a broken line (R138); its
position. -/
def State.balBarred (s : State) (k : Nat) (body : List Nat) : Option Nat :=
  let p := portOf k
  if frameType body ≠ 0x17 then none
  else (s.posOfAddr p (frameAddr body)).filter (fun q =>
    (s.rdB (AQ_PORT_CTL (eng0 p)) AQ_PORT_CTL_AUTHREQ && !s.nodeAuth p q) || s.rd (AQ_NODE_LIM (eng0 p) q) AQ_NODE_LIM_BRKL != 0)

/-- `lsend gd, gs1, gs2, imm5` sends the body at frame-buffer offset gs1, gs2 bytes long (R73, R74). -/
def execLsend (s : State) (g : GrainId) (rd rs1 rs2 imm5 : Fin 32) (t : Nat) : Host.Outcome State Fault Refusal :=
  s.issue g t (encR 0x3C rd rs1 rs2 imm5 1) (g.kind == .link) true (fun s =>
    let src := g.src
    let k := engOf src
    let off := (s.gReg src rs1).toNat
    let len := (s.gReg src rs2).toNat
    if len < 3 ∨ 120 < len then (s.linkRefuse src 0 1).stepOn src
    else if 0x8000 < off + len ∨ ¬ s.sound (frameAt src off) len then s.exc src 7 (0x08004000 + off)
    else
      let body := swapBody (s.loadBytes (frameAt src off) len)
      if frameType body = 0x11 ∧ (s.eng k).slot = none then ((s.linkRefuse src 0 1).readUnsent k body).stepOn src
      else match s.balBarred k body with
        | some q => (s.linkRefuse src q 1).stepOn src
        | none => s.lsendTry src rd body (if bit imm5 0 then (s.eng k).launch else 0))

/-- The launch time has come, or the slot window has closed: the waiting frame goes out (R58, R73). -/
def execLsendLaunch (s : State) (g : GrainId) (t : Nat) : Host.Outcome State Fault Refusal :=
  let s := s.at t
  match (s.grain g.src).wait with
  | .lsend rd body launch => .next (s.lsendTry g.src rd body launch)
  | _ => .next s

/-- `ltarm gs1, gs2` arms the launch time. -/
def execLtarm (s : State) (g : GrainId) (rs1 rs2 : Fin 32) (t : Nat) : Host.Outcome State Fault Refusal :=
  s.issue g t (encR 0x3C 0 rs1 rs2 0 2) (g.kind == .link) true (fun s =>
    let at_ := (s.gReg g.src rs1).toNat + (s.gReg g.src rs2).toNat * 2 ^ 32
    (s.updEng (engOf g.src) (fun e => { e with launch := at_ })).stepOn g.src)

/-- The instant, ps, at which the low word of chip time passes a value: at most 2^31 ns ahead, else it has passed (log 4). -/
def State.limitAt (s : State) (w : Nat) : Nat :=
  let d := (w + 2 ^ 32 - s.ns % 2 ^ 32) % 2 ^ 32
  if d < 2 ^ 31 then (s.ns + d) * 1000 else 0

/-- A received frame goes to its `lrecv`: stored in the frame buffer, at an offset that is free, and described in gd; 0 once
the limit has passed (R73). -/
def State.lrecvTry (s : State) (src rd limit : Nat) : State :=
  let k := engOf src
  let idle := fun (s : State) => s.updGrain src (fun x => { x with wait := .none })
  match (s.eng k).rxq with
  | f :: rest =>
    let n := f.body.length
    let off := s.freeNat % (0x8000 - n % 256 + 1)
    let s := ((s.drew 1).updEng k (fun e => { e with rxq := rest })).storeBytes (frameAt src off) (swapBody f.body)
    let v := b2n f.crc * 2 ^ 31 + b2n f.viol * 2 ^ 30 + n % 256 * 2 ^ 22 + off * 2 ^ 7
    ((idle s).setG src rd (BitVec.ofNat 32 v)).stepOn src
  | [] =>
    if limit < s.now then ((idle s).setG src rd 0#32).stepOn src
    else s.updGrain src (fun x => { x with wait := .lrecv rd limit })

/-- `lrecv gd, gs1` waits for a received frame until the low word of chip time passes gs1. -/
def execLrecv (s : State) (g : GrainId) (rd rs1 : Fin 32) (t : Nat) : Host.Outcome State Fault Refusal :=
  s.issue g t (encR 0x3C rd rs1 0 0 3) (g.kind == .link) true (fun s =>
    s.lrecvTry g.src rd (s.limitAt (s.gReg g.src rs1).toNat))

/-- A frame has arrived, or the limit has passed. -/
def execLrecvComplete (s : State) (g : GrainId) (t : Nat) : Host.Outcome State Fault Refusal :=
  let s := s.at t
  match (s.grain g.src).wait with
  | .lrecv rd limit => .next (s.lrecvTry g.src rd limit)
  | _ => .next s

/-- `lping gd, gs1` sends a PING and waits for its PONG. -/
def execLping (s : State) (g : GrainId) (rd rs1 : Fin 32) (t : Nat) : Host.Outcome State Fault Refusal :=
  s.issue g t (encR 0x3C rd rs1 0 0 4) (g.kind == .link) true (fun s =>
    let addr := (s.gReg g.src rs1).toNat % 2 ^ 16
    let now := s.now
    (s.engSend (engOf g.src) (bodyPing addr)).updGrain g.src (fun x => { x with wait := .lping rd addr now }))

/-- A good PONG of an address since an instant. -/
def RxFrame.pongOf (f : RxFrame) (addr since : Nat) : Bool :=
  f.crc && !f.viol && frameType f.body == 0x83 && frameAddr f.body == addr && decide (since ≤ f.at_)

/-- The PONG has arrived: gd = the round trip in 2.5 ns units; all ones after 100 µs (R49, R73). -/
def execLpingComplete (s : State) (g : GrainId) (t : Nat) : Host.Outcome State Fault Refusal :=
  let s := s.at t
  let src := g.src
  let k := engOf src
  match (s.grain src).wait with
  | .lping rd addr since =>
    let fin := fun (s : State) (v : Nat) =>
      ((s.updGrain src (fun x => { x with wait := .none })).setG src rd (BitVec.ofNat 32 v)).stepOn src
    match (s.eng k).rxq.find? (fun f => f.pongOf addr since) with
    | some f =>
      if f.at_ ≤ since + 100 * us then
        .next (fin (s.updEng k (fun e => { e with rxq := e.rxq.erase f })) ((f.at_ - since) / 2500))
      else .next (fin s (2 ^ 32 - 1))
    | none => if since + 100 * us ≤ s.now then .next (fin s (2 ^ 32 - 1)) else .next s
  | _ => .next s

/-- `lwake gs1` sends the wake tone for gs1 µs, 100 to 10,000 (R67, R74). -/
def execLwake (s : State) (g : GrainId) (rs1 : Fin 32) (t : Nat) : Host.Outcome State Fault Refusal :=
  s.issue g t (encR 0x3C 0 rs1 0 0 5) (g.kind == .link) true (fun s =>
    let n := (s.gReg g.src rs1).toNat
    if n < 100 ∨ 10000 < n then (s.linkRefuse g.src 0 5).stepOn g.src
    else (s.wakeTone (engOf g.src) n).stepOn g.src)

/-- `lstat gd, imm5`: a status word; a number the table does not give is illegal. -/
def execLstat (s : State) (g : GrainId) (rd imm5 : Fin 32) (t : Nat) : Host.Outcome State Fault Refusal :=
  s.issue g t (encR 0x3C rd 0 0 imm5 6) (g.kind == .link && decide (imm5.val < 4)) true (fun s =>
    let k := engOf g.src
    let v : Word := match imm5.val with
      | 0 => BitVec.ofNat 32 (s.eng k).rxAt
      | 1 => BitVec.ofNat 32 ((s.eng k).rxAt / 2 ^ 32)
      | 2 => s.reg (AQ_PORT_STAT k)
      | _ => BitVec.ofNat 32 (s.eng k).rxN
    (s.setG g.src rd v).stepOn g.src)

/-- The shortest slot a port's nodes allow, in 10 ns units: 11,960 ns with cell nodes alone, 16,600 ns with a sense node
(R58). -/
def State.minSlot (s : State) (p : Nat) : Nat :=
  if (List.range (s.portNodes p)).any (fun i => decide (2 ≤ s.nodeType p (i + 1))) then 1660 else 1196

/-- `lslot gs1, gs2` arms the slot window of the next READ; a slot too short is refused and leaves none armed (R58, R74). -/
def execLslot (s : State) (g : GrainId) (rs1 rs2 : Fin 32) (t : Nat) : Host.Outcome State Fault Refusal :=
  s.issue g t (encR 0x3C 0 rs1 rs2 0 7) (g.kind == .link) true (fun s =>
    let src := g.src
    let k := engOf src
    let v := (s.gReg src rs1).toNat
    let slot := (s.gReg src rs2).toNat
    if slot < s.minSlot (portOf k) then ((s.linkRefuse src 0 7).updEng k (fun e => { e with slot := none })).stepOn src
    else (s.updEng k (fun e => { e with slot := some (v % 256, v / 256 % 256, slot) })).stepOn src)

end Sys2Proof.Machine
end

