-- ==== Sys2Proof/Machine/LoadStore.lean ====
section
/-!
DEFINITION. Loads, stores, branches and jumps (R190 to R193).
-/

namespace Sys2Proof.Machine

/-! ## Loads and stores (R190, R191) -/

/-- `lb`: a byte, sign-extended. -/
def execLb (s : State) (g : GrainId) (rd rs1 : Fin 32) (imm : Fin 65536) (t : Nat) : Host.Outcome State Fault Refusal :=
  s.issue g t (encI 0x10 rd rs1 imm) true true (fun s => s.load g.src .b rd (s.effAddr g.src rs1 imm))

/-- `lh`: a halfword, sign-extended. -/
def execLh (s : State) (g : GrainId) (rd rs1 : Fin 32) (imm : Fin 65536) (t : Nat) : Host.Outcome State Fault Refusal :=
  s.issue g t (encI 0x11 rd rs1 imm) true true (fun s => s.load g.src .h rd (s.effAddr g.src rs1 imm))

/-- `lw`: a word. -/
def execLw (s : State) (g : GrainId) (rd rs1 : Fin 32) (imm : Fin 65536) (t : Nat) : Host.Outcome State Fault Refusal :=
  s.issue g t (encI 0x12 rd rs1 imm) true true (fun s => s.load g.src .w rd (s.effAddr g.src rs1 imm))

/-- `lbu`: a byte, zero-extended. -/
def execLbu (s : State) (g : GrainId) (rd rs1 : Fin 32) (imm : Fin 65536) (t : Nat) : Host.Outcome State Fault Refusal :=
  s.issue g t (encI 0x13 rd rs1 imm) true true (fun s => s.load g.src .bu rd (s.effAddr g.src rs1 imm))

/-- `lhu`: a halfword, zero-extended. -/
def execLhu (s : State) (g : GrainId) (rd rs1 : Fin 32) (imm : Fin 65536) (t : Nat) : Host.Outcome State Fault Refusal :=
  s.issue g t (encI 0x14 rd rs1 imm) true true (fun s => s.load g.src .hu rd (s.effAddr g.src rs1 imm))

/-- `flw`: a word into the low half of an f register, its high half 0; control grains. -/
def execFlw (s : State) (g : GrainId) (rd rs1 : Fin 32) (imm : Fin 65536) (t : Nat) : Host.Outcome State Fault Refusal :=
  s.issue g t (encI 0x16 rd rs1 imm) (g.kind == .ctl) true (fun s => s.load g.src .fw rd (s.effAddr g.src rs1 imm))

/-- `fld`: a 64-bit word into an f register; control grains. -/
def execFld (s : State) (g : GrainId) (rd rs1 : Fin 32) (imm : Fin 65536) (t : Nat) : Host.Outcome State Fault Refusal :=
  s.issue g t (encI 0x17 rd rs1 imm) (g.kind == .ctl) true (fun s => s.load g.src .fd rd (s.effAddr g.src rs1 imm))

/-- `sb`: the low 8 bits of a register stored. -/
def execSb (s : State) (g : GrainId) (rs2 rs1 : Fin 32) (imm : Fin 65536) (t : Nat) : Host.Outcome State Fault Refusal :=
  s.issue g t (encI 0x18 rs2 rs1 imm) true true (fun s =>
    s.store g.src (s.effAddr g.src rs1 imm) 1 ((s.gReg g.src rs2).toNat % 2 ^ 8))

/-- `sh`: the low 16 bits of a register stored. -/
def execSh (s : State) (g : GrainId) (rs2 rs1 : Fin 32) (imm : Fin 65536) (t : Nat) : Host.Outcome State Fault Refusal :=
  s.issue g t (encI 0x19 rs2 rs1 imm) true true (fun s =>
    s.store g.src (s.effAddr g.src rs1 imm) 2 ((s.gReg g.src rs2).toNat % 2 ^ 16))

/-- `sw`: the low 32 bits of a register stored. -/
def execSw (s : State) (g : GrainId) (rs2 rs1 : Fin 32) (imm : Fin 65536) (t : Nat) : Host.Outcome State Fault Refusal :=
  s.issue g t (encI 0x1A rs2 rs1 imm) true true (fun s =>
    s.store g.src (s.effAddr g.src rs1 imm) 4 ((s.gReg g.src rs2).toNat % 2 ^ 32))

/-- `fsw`: the low 32 bits of a register stored; control grains. -/
def execFsw (s : State) (g : GrainId) (rs2 rs1 : Fin 32) (imm : Fin 65536) (t : Nat) : Host.Outcome State Fault Refusal :=
  s.issue g t (encI 0x1E rs2 rs1 imm) (g.kind == .ctl) true (fun s =>
    s.store g.src (s.effAddr g.src rs1 imm) 4 ((s.fReg g.src rs2).toNat % 2 ^ 32))

/-- `fsd`: the low 64 bits of a register stored; control grains. -/
def execFsd (s : State) (g : GrainId) (rs2 rs1 : Fin 32) (imm : Fin 65536) (t : Nat) : Host.Outcome State Fault Refusal :=
  s.issue g t (encI 0x1F rs2 rs1 imm) (g.kind == .ctl) true (fun s =>
    s.store g.src (s.effAddr g.src rs1 imm) 8 ((s.fReg g.src rs2).toNat))

/-- A waiting load receives its data, or an error response that raises the bus-error exception precisely (R191); while PS is
in reset a read of MRAM goes on waiting (R156). -/
def execLoadComplete (s : State) (g : GrainId) (t : Nat) : Host.Outcome State Fault Refusal :=
  let s := s.at t
  let src := g.src
  match (s.grain src).wait with
  | .load k rd a =>
    if placeOf (a / 4 * 4) = .mram ∧ s.psReset then .next s
    else
      let r := (s.updGrain src (fun x => { x with wait := .none })).busLoad a k.width
      match r.1 with
      | some v => .next ((r.2.loadInto src k rd v).stepOn src)
      | none => .next (r.2.exc src 7 a)
  | _ => .next s

/-- A store's error response is taken as an imprecise bus error at an instruction boundary (R210). -/
def execImpreciseBusError (s : State) (g : GrainId) (t : Nat) : Host.Outcome State Fault Refusal :=
  let s := s.at t
  if (s.grain g.src).run = .running ∧ (s.grain g.src).wait = .none then .next (s.takeImprecise g.src) else .next s

/-! ## Branches and jumps (R193) -/

/-- A branch to its own address + off16 × 4 when its condition holds. -/
def State.branch (s : State) (g : GrainId) (rs1 rs2 off t w : Nat) (c : Word → Word → Bool) : Host.Outcome State Fault Refusal :=
  s.issue g t w true true (fun s =>
    if c (s.gReg g.src rs1) (s.gReg g.src rs2) then
      (s.setPc g.src (wrapInt (s.pc g.src + 4 * sext off 16) 32)).retired g.src
    else s.stepOn g.src)

/-- `beq gs1, gs2, off16`: equal. -/
def execBeq (s : State) (g : GrainId) (rs1 rs2 : Fin 32) (off : Fin 65536) (t : Nat) : Host.Outcome State Fault Refusal :=
  s.branch g rs1 rs2 off t (encI 0x20 rs1 rs2 off) (fun a b => a == b)

/-- `bne gs1, gs2, off16`: not equal. -/
def execBne (s : State) (g : GrainId) (rs1 rs2 : Fin 32) (off : Fin 65536) (t : Nat) : Host.Outcome State Fault Refusal :=
  s.branch g rs1 rs2 off t (encI 0x21 rs1 rs2 off) (fun a b => a != b)

/-- `blt gs1, gs2, off16`: signed less than. -/
def execBlt (s : State) (g : GrainId) (rs1 rs2 : Fin 32) (off : Fin 65536) (t : Nat) : Host.Outcome State Fault Refusal :=
  s.branch g rs1 rs2 off t (encI 0x22 rs1 rs2 off) (fun a b => decide (a.toInt < b.toInt))

/-- `bge gs1, gs2, off16`: signed greater or equal. -/
def execBge (s : State) (g : GrainId) (rs1 rs2 : Fin 32) (off : Fin 65536) (t : Nat) : Host.Outcome State Fault Refusal :=
  s.branch g rs1 rs2 off t (encI 0x23 rs1 rs2 off) (fun a b => decide (b.toInt ≤ a.toInt))

/-- `bltu gs1, gs2, off16`: unsigned less than. -/
def execBltu (s : State) (g : GrainId) (rs1 rs2 : Fin 32) (off : Fin 65536) (t : Nat) : Host.Outcome State Fault Refusal :=
  s.branch g rs1 rs2 off t (encI 0x24 rs1 rs2 off) (fun a b => decide (a.toNat < b.toNat))

/-- `bgeu gs1, gs2, off16`: unsigned greater or equal. -/
def execBgeu (s : State) (g : GrainId) (rs1 rs2 : Fin 32) (off : Fin 65536) (t : Nat) : Host.Outcome State Fault Refusal :=
  s.branch g rs1 rs2 off t (encI 0x25 rs1 rs2 off) (fun a b => decide (b.toNat ≤ a.toNat))

/-- `j off26`: its own address + off26 × 4. -/
def execJ (s : State) (g : GrainId) (off : Fin 67108864) (t : Nat) : Host.Outcome State Fault Refusal :=
  s.issue g t (encJ 0x28 off) true true (fun s =>
    (s.setPc g.src (wrapInt (s.pc g.src + 4 * sext off 26) 32)).retired g.src)

/-- `jal off26`: as `j`, with its own address + 4 in g1. -/
def execJal (s : State) (g : GrainId) (off : Fin 67108864) (t : Nat) : Host.Outcome State Fault Refusal :=
  s.issue g t (encJ 0x29 off) true true (fun s =>
    let pc := s.pc g.src
    ((s.setG g.src 1 (BitVec.ofNat 32 (pc + 4))).setPc g.src (wrapInt (pc + 4 * sext off 26) 32)).retired g.src)

/-- `jalr gd, gs1, imm16`: the target first, then its own address + 4 in gd, then the jump. -/
def execJalr (s : State) (g : GrainId) (rd rs1 : Fin 32) (imm : Fin 65536) (t : Nat) : Host.Outcome State Fault Refusal :=
  s.issue g t (encI 0x2A rd rs1 imm) true true (fun s =>
    let pc := s.pc g.src
    let target := s.effAddr g.src rs1 imm / 4 * 4
    ((s.setG g.src rd (BitVec.ofNat 32 (pc + 4))).setPc g.src target).retired g.src)

end Sys2Proof.Machine
end

