-- ==== Sys2Proof/Machine/SystemOps.lean ====
section
/-!
DEFINITION. System registers, deadlines, fences, traps and the inbox (R182, R183, R200 to R212).
-/

namespace Sys2Proof.Machine

/-! ## System registers (R183) -/

/-- Whether a grain has a system register, and may read it in task mode. -/
def sysKnown (kind : GKind) (n : Nat) : Bool :=
  [0x000, 0x001, 0x002, 0x003, 0x004, 0x005, 0x008, 0x009, 0x010, 0x011].contains n || decide (0x100 ≤ n ∧ n < 0x120) ||
    (kind == .ctl && (n == 0x020 || n == 0x030))
def sysTaskReads (n : Nat) : Bool := [0x000, 0x008, 0x009, 0x010, 0x011, 0x020, 0x030].contains n

/-- Whether a system register may be written at all. -/
def sysWrites (kind : GKind) (n : Nat) : Bool :=
  [0x001, 0x002, 0x003, 0x004, 0x005].contains n || decide (0x100 ≤ n ∧ n < 0x120) || (kind == .ctl && n == 0x020)

/-- Slots of a grain as bits: armed, and missed (R183). -/
def Grain.dlStat (x : Grain) : Nat :=
  (List.range 16).foldl (fun m i =>
    let d := Tab.get {} x.dl i
    m + (if d.armed && !d.missed then 2 ^ i else 0) + (if d.missed then 2 ^ (16 + i) else 0)) 0

/-- The value of a system register. -/
def State.sysReg (s : State) (g : GrainId) (n : Nat) : Word :=
  let x := s.grain g.src
  match n with
  | 0x000 => x.status
  | 0x001 => x.estat
  | 0x002 => x.epc
  | 0x003 => x.evec
  | 0x004 => x.scratch0
  | 0x005 => x.scratch1
  | 0x008 => BitVec.ofNat 32 (g.src + 4096 * (match g.kind with
    | .ctl => 1
    | .vec => 2
    | .link => 3))
  | 0x009 => BitVec.ofNat 32 x.inbox.length
  | 0x010 => BitVec.ofNat 32 s.ns
  | 0x011 => x.timeHi
  | 0x020 => x.fpctl
  | 0x030 => BitVec.ofNat 32 x.dlStat
  | n => Tab.get 0#32 x.mpu (n - 0x100)

/-- A system register written: reserved bits read 0. -/
def State.setSys (s : State) (src n : Nat) (w : Word) : State :=
  s.updGrain src (fun x => match n with
    | 0x001 => { x with estat := w &&& 7#32 }
    | 0x002 => { x with epc := w }
    | 0x003 => { x with evec := w &&& 0xFFFFFFFC#32 }
    | 0x004 => { x with scratch0 := w }
    | 0x005 => { x with scratch1 := w }
    | 0x020 => { x with fpctl := w &&& 0x1F7#32 }
    | n => { x with mpu := Tab.set 0#32 x.mpu (n - 0x100) (if n % 2 = 1 then w &&& 0xFFFFFFC0#32 else w) })

/-- `srr gd, n`; a read of TIMELO latches TIMEHI (R173, R183). -/
def execSrr (s : State) (g : GrainId) (rd : Fin 32) (n : Fin 65536) (t : Nat) : Host.Outcome State Fault Refusal :=
  s.issue g t (encI 6 rd 0 n) (sysKnown g.kind n) (sysTaskReads n) (fun s =>
    let v := s.sysReg g n
    let hi := s.ns / 2 ^ 32
    let s := if n.val = 0x010 then s.updGrain g.src (fun x => { x with timeHi := BitVec.ofNat 32 hi }) else s
    (s.setG g.src rd v).stepOn g.src)

/-- `srw n, gs1` (R182, R183). -/
def execSrw (s : State) (g : GrainId) (n : Fin 65536) (rs1 : Fin 32) (t : Nat) : Host.Outcome State Fault Refusal :=
  s.issue g t (encI 7 0 rs1 n) (sysWrites g.kind n) (n.val == 0x020) (fun s =>
    (s.setSys g.src n (s.gReg g.src rs1)).stepOn g.src)

/-! ## Deadlines (R201, R202) -/

/-- `dlarm slot, gs1`: due gs1 ns after it retires, rounded up to the 2.5 ns grid. -/
def execDlarm (s : State) (g : GrainId) (slot rs1 : Fin 32) (t : Nat) : Host.Outcome State Fault Refusal :=
  s.issue g t (encR 3 0 rs1 0 slot 8) (g.kind == .ctl && decide (slot.val < 16)) true (fun s =>
    let due := (s.now + (s.gReg g.src rs1).toNat * 1000 + 2499) / 2500 * 2500
    let s := s.updGrain g.src (fun x => { x with dl := Tab.set {} x.dl slot.val { armed := true, missed := false, due := due } })
    (s.count (monSrc g.src 6) 1).stepOn g.src)

/-- `dldone gd, slot`: 1 in time, 0 missed, all ones not armed; a miss not yet declared is declared (R202). -/
def execDldone (s : State) (g : GrainId) (rd slot : Fin 32) (t : Nat) : Host.Outcome State Fault Refusal :=
  s.issue g t (encR 3 rd 0 0 slot 9) (g.kind == .ctl && decide (slot.val < 16)) true (fun s =>
    let src := g.src
    let d := Tab.get {} (s.grain src).dl slot.val
    let late := decide (d.due ≤ s.now)
    let v : Word := if ¬ d.armed then 0xFFFFFFFF#32 else if d.missed || late then 0#32 else 1#32
    let s := s.updGrain src (fun x => { x with dl := Tab.set {} x.dl slot.val {} })
    let s := (s.setG src rd v).stepOn src
    if d.armed && late && !d.missed then s.deadlineMissed src slot.val d.due else s)

/-! ## Fences (R203 to R206) -/

/-- After a fence, an atomic or a `qput` a pending imprecise bus error is taken (R210). -/
def State.afterFence (s : State) (src : Nat) : State :=
  if (s.grain src).imprecise.isEmpty then s else s.takeImprecise src

/-- The grain's program stores to MRAM are durable (R204). -/
def State.durable (s : State) (src : Nat) : State :=
  { s with fab := { s.fab with mramPend := s.fab.mramPend.filter (fun p => p.src != src) } }

/-- `fence` waits for the grain's earlier accesses (R203). -/
def execFence (s : State) (g : GrainId) (t : Nat) : Host.Outcome State Fault Refusal :=
  s.issue g t (encR 3 0 0 0 0 0) true true (fun s => s.updGrain g.src (fun x => { x with wait := .fence }))

/-- `pfence` waits until the grain's program stores to MRAM are durable (R204). -/
def execPfence (s : State) (g : GrainId) (t : Nat) : Host.Outcome State Fault Refusal :=
  s.issue g t (encR 3 0 0 0 0 1) true true (fun s => s.updGrain g.src (fun x => { x with wait := .pfence none }))

/-- A waiting fence completes; a durable fence completes once PS is out of reset, and with the bus-error exception where
commit mode discarded a store it waited for (R203, R204, R206). -/
def execFenceComplete (s : State) (g : GrainId) (t : Nat) : Host.Outcome State Fault Refusal :=
  let s := s.at t
  let src := g.src
  let free := fun (s : State) => s.updGrain src (fun x => { x with wait := .none })
  match (s.grain src).wait with
  | .fence => .next (((free s).stepOn src).afterFence src)
  | .pfence none =>
    if s.psReset then .next s
    else .next (((((free s).durable src).count 0x3D3 1).stepOn src).afterFence src)
  | .pfence (some a) => .next ((free s).syncExc src 7 (s.pc src) a 0)
  | _ => .next s

/-! ## Traps (R207 to R209) -/

/-- `eret`: STATUS from ESTAT, on at EPC; it resumes a kernel that a trap interrupted (R207, R229). -/
def execEret (s : State) (g : GrainId) (t : Nat) : Host.Outcome State Fault Refusal :=
  s.issue g t (encR 3 0 0 0 0 2) true false (fun s =>
    let s := s.updGrain g.src (fun x => { x with
      status := x.estat, pc := x.epc,
      wait := if x.kern.isSome && decide (0x0801C000 ≤ x.epc.toNat ∧ x.epc.toNat < 0x08020000) then .kernel else .none })
    s.retired g.src)

/-- `trap imm5` (R209). -/
def execTrap (s : State) (g : GrainId) (imm5 : Fin 32) (t : Nat) : Host.Outcome State Fault Refusal :=
  s.issue g t (encR 3 0 0 0 imm5 5) true true (fun s => s.exc g.src 8 imm5)

/-- `brk` (R209). -/
def execBrk (s : State) (g : GrainId) (t : Nat) : Host.Outcome State Fault Refusal :=
  s.issue g t (encR 3 0 0 0 0 6) true true (fun s => s.exc g.src 9 0)

/-- An asynchronous trap: with IE 1, TRAP 0 and a non-empty inbox the grain enters its handler, at an instruction boundary
or out of an interruptible wait (R199, R207); a kernel may be interrupted (R229), at an address of the overlay that is
free. -/
def execTrapEntry (s : State) (g : GrainId) (t : Nat) : Host.Outcome State Fault Refusal :=
  let s := s.at t
  let src := g.src
  let x := s.grain src
  if x.run ≠ .running ∨ bit x.status.toNat 1 = false ∨ bit x.status.toNat 2 ∨ x.inbox.isEmpty then .next s
  else
    match x.wait with
    | .none | .qput _ _ _ | .qget _ _ => .next (s.trapIn src)
    | .waitq rd _ => .next (((s.setG src rd 0xFFFFFFFF#32).stepOn src).trapIn src)
    | .kernel =>
      let a := 0x0801C000 + s.freeNat % 4096 * 4
      .next (((s.drew 1).setPc src a).trapIn src)
    | _ => .next s

/-! ## The inbox (R212) -/

/-- `ibget gd`: the oldest descriptor into the quad gd, zeros from an empty inbox. -/
def execIbget (s : State) (g : GrainId) (rd : Fin 32) (t : Nat) : Host.Outcome State Fault Refusal :=
  s.issue g t (encR 3 rd 0 0 0 3) (decide (rd.val % 4 = 0)) false (fun s =>
    let src := g.src
    let d := (s.grain src).inbox.headD ⟨0#32, 0#32, 0#32, 0#32⟩
    let s := s.updGrain src (fun x => { x with inbox := x.inbox.drop 1 })
    ((((s.setG src rd d.w0).setG src (rd + 1) d.w1).setG src (rd + 2) d.w2).setG src (rd + 3) d.w3).stepOn src)

/-- `ipost gs1, gs2`: a doorbell to the grain that gs1 names; another source, or a quarantined grain, is refused under R153. -/
def execIpost (s : State) (g : GrainId) (rs1 rs2 : Fin 32) (t : Nat) : Host.Outcome State Fault Refusal :=
  s.issue g t (encR 3 0 rs1 rs2 0 4) (decide (rs2.val % 2 = 0)) false (fun s =>
    let src := g.src
    let a := (s.gReg src rs1).toNat
    let dest := a % 4096
    if (grainOfSrc dest).isNone ∨ (s.grain dest).run = .quarantined then
      let b := s.freeNat % 2 ^ 32
      ((s.drew 1).refuseFb src b a).exc src 7 b
    else
      (s.post 7 src (a / 65536 % 256) dest (s.gReg src rs2).toNat (s.gReg src (rs2 + 1)).toNat).stepOn src)

end Sys2Proof.Machine
end

