-- ==== Sys2Proof/Machine/QueueAtomic.lean ====
section
/-!
DEFINITION. Atomics and queue instructions (R155, R197 to R199).
-/

namespace Sys2Proof.Machine

/-! ## Atomics (R155, R197) -/

/-- An atomic at the word in gs1: the old value goes to gd, `f` gives the new one from the old, none to leave it. Only SRAM
and local memory take one (R155); it acts as a fence (R203). -/
def State.atomic (s : State) (src rd a : Nat) (f : State → Nat → Option Nat) : State :=
  let go := fun (s : State) (p : Nat) =>
    if ¬ s.sound p 4 then s.exc src 7 a
    else
      let old := s.loadLE p 4
      let s1 := match f s old with
        | some v => (s.storeLE p 4 v).overlayTouched p
        | none => s
      ((s1.setG src rd (BitVec.ofNat 32 old)).stepOn src).afterFence src
  if a % 4 ≠ 0 then s.exc src 3 a
  else if ¬ s.allows src a .read ∨ ¬ s.allows src a .write then s.exc src 6 a
  else match ownAddr src a with
    | some p => if a < 0x08000000 + instrBytes src ∧ ¬ s.super src then s.exc src 6 a else go s p
    | none =>
      if placeOf a = .ram ∧ s.ramOpen a ∧ s.memAnswers a then go s a
      else ((s.writeError src a ((f s 0).getD 0)).2).exc src 7 a

/-- `amoadd gd, gs1, gs2`: stores t + gs2. -/
def execAmoadd (s : State) (g : GrainId) (rd rs1 rs2 : Fin 32) (t : Nat) : Host.Outcome State Fault Refusal :=
  s.issue g t (encR 5 rd rs1 rs2 0 0) true true (fun s =>
    s.atomic g.src rd (s.gReg g.src rs1).toNat (fun s v => some ((v + (s.gReg g.src rs2).toNat) % 2 ^ 32)))

/-- `amoswap gd, gs1, gs2`: stores gs2. -/
def execAmoswap (s : State) (g : GrainId) (rd rs1 rs2 : Fin 32) (t : Nat) : Host.Outcome State Fault Refusal :=
  s.issue g t (encR 5 rd rs1 rs2 0 1) true true (fun s =>
    s.atomic g.src rd (s.gReg g.src rs1).toNat (fun s _ => some (s.gReg g.src rs2).toNat))

/-- `amocas gd, gs1, gs2`: stores gs2 + 1 when the word equals gs2. -/
def execAmocas (s : State) (g : GrainId) (rd rs1 rs2 : Fin 32) (t : Nat) : Host.Outcome State Fault Refusal :=
  s.issue g t (encR 5 rd rs1 rs2 0 2) (decide (rs2.val % 2 = 0)) true (fun s =>
    s.atomic g.src rd (s.gReg g.src rs1).toNat (fun s v =>
      if v = (s.gReg g.src rs2).toNat then some (s.gReg g.src (rs2 + 1)).toNat else none))

/-! ## Queues (R163 to R165, R198) -/

/-- The window of a queue, at which the MPU checks (R184). -/
def queueWindow (q : Nat) : Nat := 0x20000000 + q * 0x1000

def State.queueOn (s : State) (q : Nat) : Bool := s.rdB (FB_Q_CFG q) FB_Q_CFG_EN
def State.queueFull (s : State) (q : Nat) : Bool := decide (s.depth q ≤ (s.queue q).length)

/-- The queues of a mask that hold a descriptor, and those that are turned off. -/
def State.readyIn (s : State) (mask : Nat) : Option Nat :=
  (List.range 64).find? (fun q => bit mask q && !(s.queue q).isEmpty)
def State.offIn (s : State) (mask : Nat) : Option Nat := (List.range 64).find? (fun q => bit mask q && !s.queueOn q)

/-- A put that a grain waits for, or makes now: into a queue with room it gives 1; a full queue makes it wait, or refuses
it with FULLRF (R164); a queue that is off, or a descriptor of a kind never stored, is refused under R153. -/
def State.qputTry (s : State) (src rd q : Nat) (d : Dword) : State :=
  let idle := fun (s : State) => s.updGrain src (fun x => { x with wait := .none })
  if ¬ s.queueOn q ∨ ¬ kindOk d then ((idle s).refuseFb src (queueWindow q) (d.toNat % 2 ^ 32)).exc src 7 (queueWindow q)
  else if s.queueFull q then
    if s.rdB (FB_Q_CFG q) FB_Q_CFG_FULLRF then ((((idle s).qOverflow q src).setG src rd 0#32).stepOn src).afterFence src
    else s.updGrain src (fun x => { x with wait := .qput rd q d })
  else ((((idle s).qAppend q d).setG src rd 1#32).stepOn src).afterFence src

/-- A get that a grain waits for, or makes now. -/
def State.qgetTry (s : State) (src rd q : Nat) (waits : Bool) : State :=
  let idle := fun (s : State) => s.updGrain src (fun x => { x with wait := .none })
  if ¬ s.queueOn q then (idle s).exc src 7 (queueWindow q)
  else match s.qTake q with
    | some (d, s1) => ((idle s1).setPair src rd d).stepOn src
    | none =>
      if waits then s.updGrain src (fun x => { x with wait := .qget rd q }) else ((idle s).setPair src rd 0#64).stepOn src

/-- A wait on queues: the lowest that holds a descriptor, else all ones once the inbox is not empty. -/
def State.waitqTry (s : State) (src rd mask : Nat) : State :=
  let idle := fun (s : State) => s.updGrain src (fun x => { x with wait := .none })
  match s.offIn mask with
  | some q => (idle s).exc src 7 (queueWindow q)
  | none =>
    match s.readyIn mask with
    | some q => ((idle s).setG src rd (BitVec.ofNat 32 q)).stepOn src
    | none =>
      if (s.grain src).inbox.isEmpty then s.updGrain src (fun x => { x with wait := .waitq rd mask })
      else ((idle s).setG src rd 0xFFFFFFFF#32).stepOn src

/-- `qput gd, gs1, gs2` (R198, R203). -/
def execQput (s : State) (g : GrainId) (rd rs1 rs2 : Fin 32) (t : Nat) : Host.Outcome State Fault Refusal :=
  s.issue g t (encR 4 rd rs1 rs2 0 0) (decide (rs2.val % 2 = 0)) true (fun s =>
    let q := (s.gReg g.src rs1).toNat % 64
    if ¬ s.allows g.src (queueWindow q) .write then s.exc g.src 6 (queueWindow q)
    else s.qputTry g.src rd q (s.gPair g.src rs2))

/-- `qget gd, gs1` waits while the queue is empty (R198). -/
def execQget (s : State) (g : GrainId) (rd rs1 : Fin 32) (t : Nat) : Host.Outcome State Fault Refusal :=
  s.issue g t (encR 4 rd rs1 0 0 1) (decide (rd.val % 2 = 0)) true (fun s =>
    let q := (s.gReg g.src rs1).toNat % 64
    if ¬ s.allows g.src (queueWindow q) .read then s.exc g.src 5 (queueWindow q) else s.qgetTry g.src rd q true)

/-- `qtry gd, gs1`: an empty queue gives 0 in both words (R198). -/
def execQtry (s : State) (g : GrainId) (rd rs1 : Fin 32) (t : Nat) : Host.Outcome State Fault Refusal :=
  s.issue g t (encR 4 rd rs1 0 0 2) (decide (rd.val % 2 = 0)) true (fun s =>
    let q := (s.gReg g.src rs1).toNat % 64
    if ¬ s.allows g.src (queueWindow q) .read then s.exc g.src 5 (queueWindow q) else s.qgetTry g.src rd q false)

/-- `waitq gd, gs1` on the queues of a 64-bit mask (R198, R199). -/
def execWaitq (s : State) (g : GrainId) (rd rs1 : Fin 32) (t : Nat) : Host.Outcome State Fault Refusal :=
  s.issue g t (encR 4 rd rs1 0 0 3) (decide (rs1.val % 2 = 0)) true (fun s =>
    let mask := (s.gPair g.src rs1).toNat
    match (List.range 64).find? (fun q => bit mask q && !s.allows g.src (queueWindow q) .read) with
    | some q => s.exc g.src 5 (queueWindow q)
    | none => s.waitqTry g.src rd mask)

/-- A waiting `qput`, `qget` or `waitq` goes on when room, a descriptor or the inbox lets it (R198, R199). -/
def execQueueWaitResume (s : State) (g : GrainId) (t : Nat) : Host.Outcome State Fault Refusal :=
  let s := s.at t
  match (s.grain g.src).wait with
  | .qput rd q d => .next (s.qputTry g.src rd q d)
  | .qget rd q => .next (s.qgetTry g.src rd q true)
  | .waitq rd mask => .next (s.waitqTry g.src rd mask)
  | _ => .next s

end Sys2Proof.Machine
end

