-- ==== Sys2Proof/Machine/RegCmds.lean ====
section
/-!
DEFINITION. The commands that are writes of one register: each with the word written and its command field forced, through
the one admission and the one set of effects of register writes (R513, R514).
-/

namespace Sys2Proof.Machine

/-- A write to a register that has no row of its own, or of a word of a queue window or of a memory, by `src` (R513). -/
def execRegisterWrite (s : State) (src a v t : Nat) : Host.Outcome State Fault Refusal := writeReg s src a v t

/-- A write of a port control word with WAKE 1 (R67). -/
def execWake (s : State) (src : Nat) (k : Fin 20) (v t : Nat) : Host.Outcome State Fault Refusal :=
  writeReg s src (AQ_PORT_CTL k) ((AQ_PORT_CTL_WAKE.put (BitVec.ofNat 32 v) 1).toNat) t

/-- A write of the sweep control word with OWTNOW 1 (R99). -/
def execOwtnow (s : State) (src : Nat) (v t : Nat) : Host.Outcome State Fault Refusal :=
  writeReg s src AQ_SWP_CTL ((AQ_SWP_CTL_OWTNOW.put (BitVec.ofNat 32 v) 1).toNat) t

/-- A write of the window control word with TRIG 1 (R104). -/
def execTrig (s : State) (src : Nat) (v t : Nat) : Host.Outcome State Fault Refusal :=
  writeReg s src AQ_WIN_CTL ((AQ_WIN_CTL_TRIG.put (BitVec.ofNat 32 v) 1).toNat) t

/-- A write of the window control word with HOLD 0 (R104). -/
def execWindowHoldClear (s : State) (src : Nat) (v t : Nat) : Host.Outcome State Fault Refusal :=
  writeReg s src AQ_WIN_CTL ((AQ_WIN_CTL_HOLD.put (BitVec.ofNat 32 v) 0).toNat) t

/-- A write of CLR, one bit per string (R131). -/
def execTripClr (s : State) (src : Nat) (v t : Nat) : Host.Outcome State Fault Refusal :=
  writeReg s src PW_TRIP_CLR v t

/-- A write of the program's trip request (R127). -/
def execTripProgramRequest (s : State) (src : Nat) (v t : Nat) : Host.Outcome State Fault Refusal :=
  writeReg s src PW_TRIP_REQ v t

/-- A write of a discharge limit: the pair is complete (R134). -/
def execDlimDisWrite (s : State) (src : Nat) (r : Fin 12) (v t : Nat) : Host.Outcome State Fault Refusal :=
  writeReg s src (PW_DLIM_DIS r) v t

/-- A write of `PW_CON_CMD` that asks at least to close string r (R139). -/
def execContactorClose (s : State) (src : Nat) (r : Fin 12) (v t : Nat) : Host.Outcome State Fault Refusal :=
  writeReg s src PW_CON_CMD ((v + (1 - v / 2 ^ r.val % 2) * 2 ^ r.val)) t

/-- A write of `PW_CON_CMD` that asks at least to open string r (R127). -/
def execContactorOpen (s : State) (src : Nat) (r : Fin 12) (v t : Nat) : Host.Outcome State Fault Refusal :=
  writeReg s src PW_CON_CMD ((v + (1 - v / 2 ^ (16 + r.val) % 2) * 2 ^ (16 + r.val))) t

/-- A write of the pre-charge control word with START 1 (R146). -/
def execPrechargeStart (s : State) (src : Nat) (v t : Nat) : Host.Outcome State Fault Refusal :=
  writeReg s src PW_PCH_CTL ((PW_PCH_CTL_START.put (BitVec.ofNat 32 v) 1).toNat) t

/-- A write of the pre-charge control word with JOIN 1 (R148). -/
def execJoin (s : State) (src : Nat) (v t : Nat) : Host.Outcome State Fault Refusal :=
  writeReg s src PW_PCH_CTL ((PW_PCH_CTL_JOIN.put (BitVec.ofNat 32 v) 1).toNat) t

/-- A write of the pre-charge control word with ABORT 1 (R147). -/
def execAbort (s : State) (src : Nat) (v t : Nat) : Host.Outcome State Fault Refusal :=
  writeReg s src PW_PCH_CTL ((PW_PCH_CTL_ABORT.put (BitVec.ofNat 32 v) 1).toNat) t

/-- A write of a string's share weights (R277). -/
def execShareWeightWrite (s : State) (src : Nat) (r : Fin 12) (v t : Nat) : Host.Outcome State Fault Refusal :=
  writeReg s src (PW_SHW r) v t

/-- A write of PHEN, one bit per slot (R301). -/
def execPhen (s : State) (src : Nat) (r : Fin 12) (v t : Nat) : Host.Outcome State Fault Refusal :=
  writeReg s src (PW_SREG_PHEN r) v t

/-- A write of the excitation control word with START 1 (R303). -/
def execExcStart (s : State) (src : Nat) (v t : Nat) : Host.Outcome State Fault Refusal :=
  writeReg s src PW_EXC_CTL ((PW_EXC_CTL_START.put (BitVec.ofNat 32 v) 1).toNat) t

/-- A write of the excitation control word with STOP 1 (R304). -/
def execExcStop (s : State) (src : Nat) (v t : Nat) : Host.Outcome State Fault Refusal :=
  writeReg s src PW_EXC_CTL ((PW_EXC_CTL_STOP.put (BitVec.ofNat 32 v) 1).toNat) t

/-- A write of the test word with TEN 1 (R313). -/
def execTestModeEnter (s : State) (src : Nat) (v t : Nat) : Host.Outcome State Fault Refusal :=
  writeReg s src PW_GD_TEST ((PW_GD_TEST_TEN.put (BitVec.ofNat 32 v) 1).toNat) t

/-- A write of TCMD, the other fields of the test word at their present values (R313). -/
def execTestCommand (s : State) (src : Nat) (v t : Nat) : Host.Outcome State Fault Refusal :=
  writeReg s src PW_GD_TEST ((PW_GD_TEST_TCMD.put (s.reg PW_GD_TEST) v).toNat) t

/-- A write of the leak-test word with LSTART 1 (R323). -/
def execLeakStart (s : State) (src : Nat) (v t : Nat) : Host.Outcome State Fault Refusal :=
  writeReg s src PW_GD_LEAK ((PW_GD_LEAK_LSTART.put (BitVec.ofNat 32 v) 1).toNat) t

/-- A write of HBCLR, one bit per half-bridge (R326). -/
def execHbclr (s : State) (src : Nat) (v t : Nat) : Host.Outcome State Fault Refusal :=
  writeReg s src PW_GD_CLR v t

/-- A write of LSCLR, one bit per channel (R344). -/
def execLsclr (s : State) (src : Nat) (v t : Nat) : Host.Outcome State Fault Refusal :=
  writeReg s src PW_LS_CLR v t

/-- A write of the mailbox control word with GO 1 (R376). -/
def execMailboxGo (s : State) (src : Nat) (v t : Nat) : Host.Outcome State Fault Refusal :=
  writeReg s src SF_MBX_RXCTL ((SF_MBX_RXCTL_GO.put (BitVec.ofNat 32 v) 1).toNat) t

/-- A write of TXACK 1 (R376). -/
def execTxack (s : State) (src : Nat) (v t : Nat) : Host.Outcome State Fault Refusal :=
  writeReg s src SF_MBX_TXCTL ((SF_MBX_TXCTL_TXACK.put (BitVec.ofNat 32 v) 1).toNat) t

/-- A write of REQ (R377). -/
def execMailboxReq (s : State) (src : Nat) (v t : Nat) : Host.Outcome State Fault Refusal :=
  writeReg s src SF_MBX_REQ v t

/-- A write of a controller's control word with EN 1 (R381). -/
def execCanEnable (s : State) (src : Nat) (n : Fin 6) (v t : Nat) : Host.Outcome State Fault Refusal :=
  writeReg s src (CAN_CTL n) ((CAN_CTL_EN.put (BitVec.ofNat 32 v) 1).toNat) t

/-- A write of a controller's control word with STBY 1 (R384). -/
def execCanStandby (s : State) (src : Nat) (n : Fin 6) (v t : Nat) : Host.Outcome State Fault Refusal :=
  writeReg s src (CAN_CTL n) ((CAN_CTL_STBY.put (BitVec.ofNat 32 v) 1).toNat) t

/-- A write of the transmit command word with COMMIT 1 (R386). -/
def execCanCommit (s : State) (src : Nat) (n : Fin 6) (v t : Nat) : Host.Outcome State Fault Refusal :=
  writeReg s src (CAN_TXCMD n) ((CAN_TXCMD_COMMIT.put (BitVec.ofNat 32 v) 1).toNat) t

/-- A write of the transmit command word with ABORT 1 (R388). -/
def execCanAbort (s : State) (src : Nat) (n : Fin 6) (v t : Nat) : Host.Outcome State Fault Refusal :=
  writeReg s src (CAN_TXCMD n) ((CAN_TXCMD_ABORT.put (BitVec.ofNat 32 v) 1).toNat) t

/-- A write of a controller's control word with BOREL 1 (R393). -/
def execBorel (s : State) (src : Nat) (n : Fin 6) (v t : Nat) : Host.Outcome State Fault Refusal :=
  writeReg s src (CAN_CTL n) ((CAN_CTL_BOREL.put (BitVec.ofNat 32 v) 1).toNat) t

/-- A write of a FIFO's control word with POP 1 (R391). -/
def execPop (s : State) (src : Nat) (n : Fin 6) (f : Fin 2) (v t : Nat) : Host.Outcome State Fault Refusal :=
  writeReg s src (CAN_FIFOCTL n f) ((CAN_FIFOCTL_POP.put (BitVec.ofNat 32 v) 1).toNat) t

/-- A write of PHASE (R408). -/
def execPhase (s : State) (src : Nat) (v t : Nat) : Host.Outcome State Fault Refusal :=
  writeReg s src CT_TIME_PHASE v t

/-- A write of RATE (R408). -/
def execRate (s : State) (src : Nat) (v t : Nat) : Host.Outcome State Fault Refusal :=
  writeReg s src CT_TIME_RATE v t

/-- A write of STEP (R409). -/
def execStep (s : State) (src : Nat) (v t : Nat) : Host.Outcome State Fault Refusal :=
  writeReg s src CT_TIME_STEP v t

/-- A write of the time control word with DISC 1 (R410). -/
def execDisc (s : State) (src : Nat) (v t : Nat) : Host.Outcome State Fault Refusal :=
  writeReg s src CT_TIME_CTL ((CT_TIME_CTL_DISC.put (BitVec.ofNat 32 v) 1).toNat) t

/-- A write of the ledger control word with COMMISSION 1 (R426). -/
def execCommission (s : State) (src : Nat) (v t : Nat) : Host.Outcome State Fault Refusal :=
  writeReg s src LEDGER_CTL ((LEDGER_CTL_COMMISSION.put (BitVec.ofNat 32 v) 1).toNat) t

/-- A write of the ledger control word with SEDCLR 1 (R427). -/
def execSedclr (s : State) (src : Nat) (v t : Nat) : Host.Outcome State Fault Refusal :=
  writeReg s src LEDGER_CTL ((LEDGER_CTL_SEDCLR.put (BitVec.ofNat 32 v) 1).toNat) t

/-- A write of BSRC, the source of a block (R421). -/
def execBsrc (s : State) (src : Nat) (v t : Nat) : Host.Outcome State Fault Refusal :=
  writeReg s src LEDGER_BCLR v t

/-- A write of the source to release (R169). -/
def execFbFltRel (s : State) (src : Nat) (v t : Nat) : Host.Outcome State Fault Refusal :=
  writeReg s src FB_FLT_REL v t

/-- A write of the boot command word with CONFIRM 1 (R454). -/
def execConfirm (s : State) (src : Nat) (v t : Nat) : Host.Outcome State Fault Refusal :=
  writeReg s src PS_BOOT_CMD ((PS_BOOT_CMD_CONFIRM.put (BitVec.ofNat 32 v) 1).toNat) t

/-- A write of the boot command word with ARBGO 1 (R454). -/
def execArbgo (s : State) (src : Nat) (v t : Nat) : Host.Outcome State Fault Refusal :=
  writeReg s src PS_BOOT_CMD ((PS_BOOT_CMD_ARBGO.put (BitVec.ofNat 32 v) 1).toNat) t

/-- A write of the boot command word with REBOOT 1 (R454). -/
def execReboot (s : State) (src : Nat) (v t : Nat) : Host.Outcome State Fault Refusal :=
  writeReg s src PS_BOOT_CMD ((PS_BOOT_CMD_REBOOT.put (BitVec.ofNat 32 v) 1).toNat) t

/-- A write of the boot command word with REVGO 1 (R455). -/
def execRevgo (s : State) (src : Nat) (v t : Nat) : Host.Outcome State Fault Refusal :=
  writeReg s src PS_BOOT_CMD ((PS_BOOT_CMD_REVGO.put (BitVec.ofNat 32 v) 1).toNat) t

/-- A write of the boot command word with DBGGO 1 (R468). -/
def execDbggo (s : State) (src : Nat) (v t : Nat) : Host.Outcome State Fault Refusal :=
  writeReg s src PS_BOOT_CMD ((PS_BOOT_CMD_DBGGO.put (BitVec.ofNat 32 v) 1).toNat) t

/-- A write of the boot command word with DBGLOCK 1 (R468). -/
def execDbglock (s : State) (src : Nat) (v t : Nat) : Host.Outcome State Fault Refusal :=
  writeReg s src PS_BOOT_CMD ((PS_BOOT_CMD_DBGLOCK.put (BitVec.ofNat 32 v) 1).toNat) t

/-- A write of the OTP word with GO 1 (R466). -/
def execOtpGo (s : State) (src : Nat) (v t : Nat) : Host.Outcome State Fault Refusal :=
  writeReg s src PS_OTP_PRG ((PS_OTP_PRG_GO.put (BitVec.ofNat 32 v) 1).toNat) t

/-- A write of the gate control word with UNLOCK 1 (R461). -/
def execUnlock (s : State) (src : Nat) (v t : Nat) : Host.Outcome State Fault Refusal :=
  writeReg s src CG_CTL ((CG_CTL_UNLOCK.put (BitVec.ofNat 32 v) 1).toNat) t

/-- A write of the gate control word with LOCK 1 (R463). -/
def execLock (s : State) (src : Nat) (v t : Nat) : Host.Outcome State Fault Refusal :=
  writeReg s src CG_CTL ((CG_CTL_LOCK.put (BitVec.ofNat 32 v) 1).toNat) t

/-- A write of the gate control word with SETPW 1 (R464). -/
def execSetpw (s : State) (src : Nat) (v t : Nat) : Host.Outcome State Fault Refusal :=
  writeReg s src CG_CTL ((CG_CTL_SETPW.put (BitVec.ofNat 32 v) 1).toNat) t

/-- A write of the gate control word with CLRPW 1 (R464). -/
def execClrpw (s : State) (src : Nat) (v t : Nat) : Host.Outcome State Fault Refusal :=
  writeReg s src CG_CTL ((CG_CTL_CLRPW.put (BitVec.ofNat 32 v) 1).toNat) t

/-- A write of IMPORT 1 (R459). -/
def execKeyImport (s : State) (src : Nat) (v t : Nat) : Host.Outcome State Fault Refusal :=
  writeReg s src PS_KEY_CTL ((PS_KEY_CTL_IMPORT.put (BitVec.ofNat 32 v) 1).toNat) t

/-- A write of the hold control word with RECLAIM 1 (R476). -/
def execReclaim (s : State) (src : Nat) (v t : Nat) : Host.Outcome State Fault Refusal :=
  writeReg s src SV_HOLD_CTL ((SV_HOLD_CTL_RECLAIM.put (BitVec.ofNat 32 v) 1).toNat) t

/-- A write of the monitor control word with CLRALL 1 (R174). -/
def execClrall (s : State) (src : Nat) (v t : Nat) : Host.Outcome State Fault Refusal :=
  writeReg s src FB_PMON_CTL ((FB_PMON_CTL_CLRALL.put (BitVec.ofNat 32 v) 1).toNat) t

/-- A write of KICK (R176). -/
def execKick (s : State) (src : Nat) (v t : Nat) : Host.Outcome State Fault Refusal :=
  writeReg s src FB_WDOG_KICK v t

/-- A write of a correlator's control word with CLR 1 (R227). -/
def execCorrClr (s : State) (src : Nat) (b : Fin 4) (v t : Nat) : Host.Outcome State Fault Refusal :=
  writeReg s src (ES_CORR_CTL b) ((ES_CORR_CTL_CLR.put (BitVec.ofNat 32 v) 1).toNat) t

/-- A write of QPUTHI puts the descriptor whose low word QPUTLO holds (R163, R164). -/
def execQputhi (s : State) (src : Nat) (n : Fin 64) (v t : Nat) : Host.Outcome State Fault Refusal :=
  writeReg s src (0x20000004 + n.val * 0x1000) v t

/-- A read of QGETLO gets the oldest descriptor and returns its low word (R163). -/
def execQgetlo (s : State) (n : Fin 64) (t : Nat) : Host.Outcome State Fault Refusal :=
  .next ((s.at t).extRead (0x20000008 + n.val * 0x1000))

end Sys2Proof.Machine
end

