-- ==== Sys2Proof/Machine/VecMove.lean ====
section
/-!
DEFINITION. Compares, predicates, moves and reductions (R220, R221).
-/

namespace Sys2Proof.Machine

/-- A compare: pd bit i tells whether it holds in an active lane; the others are 0 (R214, R220). -/
def State.vcompare (s : State) (g : GrainId) (t func pd a b pg : Nat) (f : Nat → Nat → Bool) : Host.Outcome State Fault Refusal :=
  s.issue g t (encV 0x33 pd a b pg func) (g.kind == .vec) true (fun s =>
    (s.putPred g.src pd (fun i => s.pbit g.src pg i && f (s.lane g.src a i) (s.lane g.src b i))).stepOn g.src)

/-- Predicate logic under pg 0. -/
def State.plogic (s : State) (g : GrainId) (t func pd a b : Nat) (f : Bool → Bool → Bool) : Host.Outcome State Fault Refusal :=
  s.issue g t (encV 0x33 pd a b 0 func) (g.kind == .vec) true (fun s =>
    (s.putPred g.src pd (fun i => f (s.pbit g.src a i) (s.pbit g.src b i))).stepOn g.src)

/-! ## Compares -/

/-- `vcmp.eq.i pd, vs1, vs2`: equal. -/
def execVcmpEqI (s : State) (g : GrainId) (pd : Fin 8) (a b : Fin 32) (pg : Fin 8) (t : Nat) :
    Host.Outcome State Fault Refusal :=
  s.vcompare g t 0x00 pd a b pg (fun a b => a == b)

/-- `vcmp.ne.i pd, vs1, vs2`: not equal. -/
def execVcmpNeI (s : State) (g : GrainId) (pd : Fin 8) (a b : Fin 32) (pg : Fin 8) (t : Nat) :
    Host.Outcome State Fault Refusal :=
  s.vcompare g t 0x01 pd a b pg (fun a b => a != b)

/-- `vcmp.lt.i pd, vs1, vs2`: signed less than. -/
def execVcmpLtI (s : State) (g : GrainId) (pd : Fin 8) (a b : Fin 32) (pg : Fin 8) (t : Nat) :
    Host.Outcome State Fault Refusal :=
  s.vcompare g t 0x02 pd a b pg (fun a b => decide (laneInt a < laneInt b))

/-- `vcmp.le.i pd, vs1, vs2`: signed at most. -/
def execVcmpLeI (s : State) (g : GrainId) (pd : Fin 8) (a b : Fin 32) (pg : Fin 8) (t : Nat) :
    Host.Outcome State Fault Refusal :=
  s.vcompare g t 0x03 pd a b pg (fun a b => decide (laneInt a ≤ laneInt b))

/-- `vcmp.ltu pd, vs1, vs2`: unsigned less than. -/
def execVcmpLtu (s : State) (g : GrainId) (pd : Fin 8) (a b : Fin 32) (pg : Fin 8) (t : Nat) :
    Host.Outcome State Fault Refusal :=
  s.vcompare g t 0x04 pd a b pg (fun a b => decide (a < b))

/-- `vcmp.leu pd, vs1, vs2`: unsigned at most. -/
def execVcmpLeu (s : State) (g : GrainId) (pd : Fin 8) (a b : Fin 32) (pg : Fin 8) (t : Nat) :
    Host.Outcome State Fault Refusal :=
  s.vcompare g t 0x05 pd a b pg (fun a b => decide (a ≤ b))

/-- `vcmp.eq.f pd, vs1, vs2`: binary32 equal; a NaN gives 0. -/
def execVcmpEqF (s : State) (g : GrainId) (pd : Fin 8) (a b : Fin 32) (pg : Fin 8) (t : Nat) :
    Host.Outcome State Fault Refusal :=
  s.vcompare g t 0x08 pd a b pg (fun a b => FVal.eq (f32.val a) (f32.val b))

/-- `vcmp.lt.f pd, vs1, vs2`: binary32 less than; a NaN gives 0. -/
def execVcmpLtF (s : State) (g : GrainId) (pd : Fin 8) (a b : Fin 32) (pg : Fin 8) (t : Nat) :
    Host.Outcome State Fault Refusal :=
  s.vcompare g t 0x09 pd a b pg (fun a b => FVal.lt (f32.val a) (f32.val b))

/-- `vcmp.le.f pd, vs1, vs2`: binary32 at most; a NaN gives 0. -/
def execVcmpLeF (s : State) (g : GrainId) (pd : Fin 8) (a b : Fin 32) (pg : Fin 8) (t : Nat) :
    Host.Outcome State Fault Refusal :=
  s.vcompare g t 0x0A pd a b pg (fun a b => FVal.lt (f32.val a) (f32.val b) || FVal.eq (f32.val a) (f32.val b))

/-- `vcmp.un.f pd, vs1, vs2`: either operand is a NaN. -/
def execVcmpUnF (s : State) (g : GrainId) (pd : Fin 8) (a b : Fin 32) (pg : Fin 8) (t : Nat) :
    Host.Outcome State Fault Refusal :=
  s.vcompare g t 0x0B pd a b pg (fun a b => (f32.val a).isNan || (f32.val b).isNan)

/-! ## Predicates -/

/-- `pand pd, ps1, ps2`. -/
def execPand (s : State) (g : GrainId) (pd a b : Fin 8) (t : Nat) : Host.Outcome State Fault Refusal :=
  s.plogic g t 0x10 pd a b (fun a b => a && b)

/-- `por pd, ps1, ps2`. -/
def execPor (s : State) (g : GrainId) (pd a b : Fin 8) (t : Nat) : Host.Outcome State Fault Refusal :=
  s.plogic g t 0x11 pd a b (fun a b => a || b)

/-- `pxor pd, ps1, ps2`. -/
def execPxor (s : State) (g : GrainId) (pd a b : Fin 8) (t : Nat) : Host.Outcome State Fault Refusal :=
  s.plogic g t 0x12 pd a b (fun a b => a != b)

/-- `pnot pd, ps1`. -/
def execPnot (s : State) (g : GrainId) (pd a : Fin 8) (t : Nat) : Host.Outcome State Fault Refusal :=
  s.plogic g t 0x13 pd a 0 (fun a _ => !a)

/-- `pmv pd, gs1`: pd = gs1 [7:0]. -/
def execPmv (s : State) (g : GrainId) (pd : Fin 8) (rs1 : Fin 32) (t : Nat) : Host.Outcome State Fault Refusal :=
  s.issue g t (encV 0x33 pd rs1 0 0 0x14) (g.kind == .vec) true (fun s =>
    (s.putPred g.src pd (bit (s.gReg g.src rs1).toNat)).stepOn g.src)

/-- `pget gd, ps1`. -/
def execPget (s : State) (g : GrainId) (rd : Fin 32) (a : Fin 8) (t : Nat) : Host.Outcome State Fault Refusal :=
  s.issue g t (encV 0x33 rd a 0 0 0x15) (g.kind == .vec) true (fun s =>
    let v := laneIds.foldl (fun m i => m + b2n (s.pbit g.src a i) * 2 ^ i) 0
    (s.setG g.src rd (BitVec.ofNat 32 v)).stepOn g.src)

/-! ## Moves -/

/-- `vbcast vd, gs1`. -/
def execVbcast (s : State) (g : GrainId) (vd rs1 : Fin 32) (pg : Fin 8) (t : Nat) : Host.Outcome State Fault Refusal :=
  s.laneOp g t (encV 0x34 vd rs1 0 pg 0) vd pg (fun s _ => (s.gReg g.src rs1).toNat)

/-- `vins vd, gs1, lane`. -/
def execVins (s : State) (g : GrainId) (vd rs1 : Fin 32) (lane : Fin 8) (t : Nat) : Host.Outcome State Fault Refusal :=
  s.issue g t (encV 0x34 vd rs1 lane 0 1) (g.kind == .vec) true (fun s =>
    (s.setLane g.src vd lane (s.gReg g.src rs1).toNat).stepOn g.src)

/-- `vext gd, vs1, lane`. -/
def execVext (s : State) (g : GrainId) (rd vs1 : Fin 32) (lane : Fin 8) (t : Nat) : Host.Outcome State Fault Refusal :=
  s.issue g t (encV 0x34 rd vs1 lane 0 2) (g.kind == .vec) true (fun s =>
    (s.setG g.src rd (BitVec.ofNat 32 (s.lane g.src vs1 lane))).stepOn g.src)

/-- `vsel vd, vs1, vs2` writes every lane (R214). -/
def execVsel (s : State) (g : GrainId) (vd a b : Fin 32) (pg : Fin 8) (t : Nat) : Host.Outcome State Fault Refusal :=
  s.issue g t (encV 0x34 vd a b pg 3) (g.kind == .vec) true (fun s =>
    (s.putLanes g.src vd laneIds (fun i => if s.pbit g.src pg i then s.lane g.src a i else s.lane g.src b i)).stepOn g.src)

/-- `vmv vd, vs1`. -/
def execVmv (s : State) (g : GrainId) (vd a : Fin 32) (pg : Fin 8) (t : Nat) : Host.Outcome State Fault Refusal :=
  s.laneOp g t (encV 0x34 vd a 0 pg 4) vd pg (fun s i => s.lane g.src a i)

/-- `vid vd`: lane i = i. -/
def execVid (s : State) (g : GrainId) (vd : Fin 32) (pg : Fin 8) (t : Nat) : Host.Outcome State Fault Refusal :=
  s.laneOp g t (encV 0x34 vd 0 0 pg 5) vd pg (fun _ i => i)

/-! ## Reductions (R221) -/

/-- The lanes combined in the tree's order. -/
def tree (f : Nat → Nat → Nat) (l : Nat → Nat) : Nat :=
  f (f (f (l 0) (l 1)) (f (l 2) (l 3))) (f (f (l 4) (l 5)) (f (l 6) (l 7)))

/-- A reduction of the active lanes into gd; inactive lanes count as the identity. -/
def State.reduce (s : State) (g : GrainId) (t func rd a pg ident : Nat) (f : Nat → Nat → Nat) : Host.Outcome State Fault Refusal :=
  s.issue g t (encV 0x34 rd a 0 pg func) (g.kind == .vec) true (fun s =>
    let v := tree f (fun i => if s.pbit g.src pg i then s.lane g.src a i else ident)
    (s.setG g.src rd (BitVec.ofNat 32 v)).stepOn g.src)

/-- `vredadd.i gd, vs1`. -/
def execVredaddI (s : State) (g : GrainId) (rd a : Fin 32) (pg : Fin 8) (t : Nat) : Host.Outcome State Fault Refusal :=
  s.reduce g t 0x08 rd a pg 0 (fun a b => (a + b) % 2 ^ 32)

/-- `vredadd.f gd, vs1`. -/
def execVredaddF (s : State) (g : GrainId) (rd a : Fin 32) (pg : Fin 8) (t : Nat) : Host.Outcome State Fault Refusal :=
  s.reduce g t 0x09 rd a pg 0 (fun a b => (f32.add 0 a b).1)

/-- `vredmax.f gd, vs1`. -/
def execVredmaxF (s : State) (g : GrainId) (rd a : Fin 32) (pg : Fin 8) (t : Nat) : Host.Outcome State Fault Refusal :=
  s.reduce g t 0x0A rd a pg 0xFF800000 (fun a b => (f32.max a b).1)

/-- `vredmin.f gd, vs1`. -/
def execVredminF (s : State) (g : GrainId) (rd a : Fin 32) (pg : Fin 8) (t : Nat) : Host.Outcome State Fault Refusal :=
  s.reduce g t 0x0B rd a pg 0x7F800000 (fun a b => (f32.min a b).1)

/-- `vredmax.i gd, vs1`. -/
def execVredmaxI (s : State) (g : GrainId) (rd a : Fin 32) (pg : Fin 8) (t : Nat) : Host.Outcome State Fault Refusal :=
  s.reduce g t 0x0C rd a pg 0x80000000 (fun a b => if laneInt a ≤ laneInt b then b else a)

/-- `vredmin.i gd, vs1`. -/
def execVredminI (s : State) (g : GrainId) (rd a : Fin 32) (pg : Fin 8) (t : Nat) : Host.Outcome State Fault Refusal :=
  s.reduce g t 0x0D rd a pg 0x7FFFFFFF (fun a b => if laneInt a ≤ laneInt b then a else b)

end Sys2Proof.Machine
end

