-- ==== Sys2Proof/Machine/Dispatch.lean ====
section
/-!
DEFINITION. The dispatch: one arm for each command, each a call of that command's meaning.
-/

namespace Sys2Proof.Machine

/-- The effect of a command on everything but the queue of waiting commands. -/
def exec (i : Instr) (s : State) : Host.Outcome State Fault Refusal :=
  match i with
  | .registerWrite src a v t => Sys2Proof.Machine.execRegisterWrite s src a v t
  | .rcRead a t => Sys2Proof.Machine.execRcRead s a t
  | .sample p idx body arr t => Sys2Proof.Machine.execSample s p idx body arr t
  | .read p idx body arr t => Sys2Proof.Machine.execRead s p idx body arr t
  | .time p idx body arr t => Sys2Proof.Machine.execTime s p idx body arr t
  | .ping p idx body arr t => Sys2Proof.Machine.execPing s p idx body arr t
  | .enum p idx body arr t => Sys2Proof.Machine.execEnum s p idx body arr t
  | .setdly p idx body arr t => Sys2Proof.Machine.execSetdly s p idx body arr t
  | .run p idx body arr t => Sys2Proof.Machine.execRun s p idx body arr t
  | .bal p idx body carries arr t => Sys2Proof.Machine.execBal s p idx body carries arr t
  | .owt p idx body arr t => Sys2Proof.Machine.execOwt s p idx body arr t
  | .auth p idx body arr t => Sys2Proof.Machine.execAuth s p idx body arr t
  | .wreg p idx body arr t => Sys2Proof.Machine.execWreg s p idx body arr t
  | .rreg p idx body arr t => Sys2Proof.Machine.execRreg s p idx body arr t
  | .reset p idx body arr t => Sys2Proof.Machine.execReset s p idx body arr t
  | .nodeUnknownCommand p idx body arr t => Sys2Proof.Machine.execNodeUnknownCommand s p idx body arr t
  | .nodeAnswerSend p idx t => Sys2Proof.Machine.execNodeAnswerSend s p idx t
  | .nodeSlotResponse p idx t => Sys2Proof.Machine.execNodeSlotResponse s p idx t
  | .nodeConversionStep p idx val t => Sys2Proof.Machine.execNodeConversionStep s p idx val t
  | .nodeSweepConversionsEnd p idx stack temp fuse t => Sys2Proof.Machine.execNodeSweepConversionsEnd s p idx stack temp fuse t
  | .nodeStreamSample p idx cur t => Sys2Proof.Machine.execNodeStreamSample s p idx cur t
  | .nodeAuthComputeDone p idx t => Sys2Proof.Machine.execNodeAuthComputeDone s p idx t
  | .nodeBalTimeout p idx t => Sys2Proof.Machine.execNodeBalTimeout s p idx t
  | .nodeSleepTimeout p idx t => Sys2Proof.Machine.execNodeSleepTimeout s p idx t
  | .nodeWakeTone p idx arr t => Sys2Proof.Machine.execNodeWakeTone s p idx arr t
  | .nodeInsulationMeasure p idx rpos rneg ok t => Sys2Proof.Machine.execNodeInsulationMeasure s p idx rpos rneg ok t
  | .crec k body crc viol t => Sys2Proof.Machine.execCrec s k body crc viol t
  | .srec k body crc viol t => Sys2Proof.Machine.execSrec s k body crc viol t
  | .brec k body crc viol t => Sys2Proof.Machine.execBrec s k body crc viol t
  | .pong k body crc viol t => Sys2Proof.Machine.execPong s k body crc viol t
  | .eack k body crc viol t => Sys2Proof.Machine.execEack s k body crc viol t
  | .arsp k body crc viol t => Sys2Proof.Machine.execArsp s k body crc viol t
  | .rrep k body crc viol t => Sys2Proof.Machine.execRrep s k body crc viol t
  | .nak k body crc viol t => Sys2Proof.Machine.execNak s k body crc viol t
  | .slotWindowClose k t => Sys2Proof.Machine.execSlotWindowClose s k t
  | .timeMarker k t => Sys2Proof.Machine.execTimeMarker s k t
  | .recalibration k ring t => Sys2Proof.Machine.execRecalibration s k ring t
  | .portEnumeration k first t => Sys2Proof.Machine.execPortEnumeration s k first t
  | .enumEackTimeout k t => Sys2Proof.Machine.execEnumEackTimeout s k t
  | .authPeriod k gap t => Sys2Proof.Machine.execAuthPeriod s k gap t
  | .authCollect k t => Sys2Proof.Machine.execAuthCollect s k t
  | .ringEnd0FrameTimeout ring t => Sys2Proof.Machine.execRingEnd0FrameTimeout s ring t
  | .ringEnd0FrameAtEnd1 ring body crc t => Sys2Proof.Machine.execRingEnd0FrameAtEnd1 s ring body crc t
  | .lsend g rd rs1 rs2 imm5 t => Sys2Proof.Machine.execLsend s g rd rs1 rs2 imm5 t
  | .lsendLaunch g t => Sys2Proof.Machine.execLsendLaunch s g t
  | .ltarm g rs1 rs2 t => Sys2Proof.Machine.execLtarm s g rs1 rs2 t
  | .lrecv g rd rs1 t => Sys2Proof.Machine.execLrecv s g rd rs1 t
  | .lrecvComplete g t => Sys2Proof.Machine.execLrecvComplete s g t
  | .lping g rd rs1 t => Sys2Proof.Machine.execLping s g rd rs1 t
  | .lpingComplete g t => Sys2Proof.Machine.execLpingComplete s g t
  | .lwake g rs1 t => Sys2Proof.Machine.execLwake s g rs1 t
  | .lstat g rd imm5 t => Sys2Proof.Machine.execLstat s g rd imm5 t
  | .lslot g rs1 rs2 t => Sys2Proof.Machine.execLslot s g rs1 rs2 t
  | .wake src k v t => Sys2Proof.Machine.execWake s src k v t
  | .sweepGridPoint t => Sys2Proof.Machine.execSweepGridPoint s t
  | .sweepDeadlineMiss k tag t => Sys2Proof.Machine.execSweepDeadlineMiss s k tag t
  | .retryRead k t => Sys2Proof.Machine.execRetryRead s k t
  | .chainBreakLocate k t => Sys2Proof.Machine.execChainBreakLocate s k t
  | .nodeStaleTimeout p idx t => Sys2Proof.Machine.execNodeStaleTimeout s p idx t
  | .streamOnlyRead k slot t => Sys2Proof.Machine.execStreamOnlyRead s k slot t
  | .meanWindowEnd t => Sys2Proof.Machine.execMeanWindowEnd s t
  | .owtPeriodic t => Sys2Proof.Machine.execOwtPeriodic s t
  | .owtnow src v t => Sys2Proof.Machine.execOwtnow s src v t
  | .trig src v t => Sys2Proof.Machine.execTrig s src v t
  | .windowFreeze t => Sys2Proof.Machine.execWindowFreeze s t
  | .windowHoldClear src v t => Sys2Proof.Machine.execWindowHoldClear s src v t
  | .phaseDecimatorOutput n acc t => Sys2Proof.Machine.execPhaseDecimatorOutput s n acc t
  | .phaseSumWrite r t => Sys2Proof.Machine.execPhaseSumWrite s r t
  | .pdatNoTransition n t => Sys2Proof.Machine.execPdatNoTransition s n t
  | .aicSample n code t => Sys2Proof.Machine.execAicSample s n code t
  | .ainConversion n code t => Sys2Proof.Machine.execAinConversion s n code t
  | .ainTimeout n t => Sys2Proof.Machine.execAinTimeout s n t
  | .streamStale idx t => Sys2Proof.Machine.execStreamStale s idx t
  | .xchkWindowEnd t => Sys2Proof.Machine.execXchkWindowEnd s t
  | .offsetMeasure r t => Sys2Proof.Machine.execOffsetMeasure s r t
  | .currentAtInstant r instant t => Sys2Proof.Machine.execCurrentAtInstant s r instant t
  | .cfbSample n level t => Sys2Proof.Machine.execCfbSample s n level t
  | .tripVerdict n t => Sys2Proof.Machine.execTripVerdict s n t
  | .derateHoldExpire r t => Sys2Proof.Machine.execDerateHoldExpire s r t
  | .rampPark r t => Sys2Proof.Machine.execRampPark s r t
  | .rampTimeout r t => Sys2Proof.Machine.execRampTimeout s r t
  | .zeroCurrentOpen r t => Sys2Proof.Machine.execZeroCurrentOpen s r t
  | .openTimeout r t => Sys2Proof.Machine.execOpenTimeout s r t
  | .tripClr src v t => Sys2Proof.Machine.execTripClr s src v t
  | .tripProgramRequest src v t => Sys2Proof.Machine.execTripProgramRequest s src v t
  | .dlimDisWrite src r v t => Sys2Proof.Machine.execDlimDisWrite s src r v t
  | .dlimExceed r t => Sys2Proof.Machine.execDlimExceed s r t
  | .dlimStale r t => Sys2Proof.Machine.execDlimStale s r t
  | .contactorClose src r v t => Sys2Proof.Machine.execContactorClose s src r v t
  | .contactorOpen src r v t => Sys2Proof.Machine.execContactorOpen s src r v t
  | .closeWaitEnd r t => Sys2Proof.Machine.execCloseWaitEnd s r t
  | .pullInTimeout r t => Sys2Proof.Machine.execPullInTimeout s r t
  | .economiserStart r t => Sys2Proof.Machine.execEconomiserStart s r t
  | .weldCheckTimeout r t => Sys2Proof.Machine.execWeldCheckTimeout s r t
  | .prechargeStart src v t => Sys2Proof.Machine.execPrechargeStart s src v t
  | .prechargeTimeout t => Sys2Proof.Machine.execPrechargeTimeout s t
  | .join src v t => Sys2Proof.Machine.execJoin s src v t
  | .abort src v t => Sys2Proof.Machine.execAbort s src v t
  | .preseqComplete t => Sys2Proof.Machine.execPreseqComplete s t
  | .pwResetHold t => Sys2Proof.Machine.execPwResetHold s t
  | .lb g rd rs1 imm t => Sys2Proof.Machine.execLb s g rd rs1 imm t
  | .lh g rd rs1 imm t => Sys2Proof.Machine.execLh s g rd rs1 imm t
  | .lw g rd rs1 imm t => Sys2Proof.Machine.execLw s g rd rs1 imm t
  | .lbu g rd rs1 imm t => Sys2Proof.Machine.execLbu s g rd rs1 imm t
  | .lhu g rd rs1 imm t => Sys2Proof.Machine.execLhu s g rd rs1 imm t
  | .loadComplete g t => Sys2Proof.Machine.execLoadComplete s g t
  | .sb g rs2 rs1 imm t => Sys2Proof.Machine.execSb s g rs2 rs1 imm t
  | .sh g rs2 rs1 imm t => Sys2Proof.Machine.execSh s g rs2 rs1 imm t
  | .sw g rs2 rs1 imm t => Sys2Proof.Machine.execSw s g rs2 rs1 imm t
  | .impreciseBusError g t => Sys2Proof.Machine.execImpreciseBusError s g t
  | .add g rd rs1 rs2 t => Sys2Proof.Machine.execAdd s g rd rs1 rs2 t
  | .sub g rd rs1 rs2 t => Sys2Proof.Machine.execSub s g rd rs1 rs2 t
  | .and g rd rs1 rs2 t => Sys2Proof.Machine.execAnd s g rd rs1 rs2 t
  | .or g rd rs1 rs2 t => Sys2Proof.Machine.execOr s g rd rs1 rs2 t
  | .xor g rd rs1 rs2 t => Sys2Proof.Machine.execXor s g rd rs1 rs2 t
  | .sll g rd rs1 rs2 t => Sys2Proof.Machine.execSll s g rd rs1 rs2 t
  | .srl g rd rs1 rs2 t => Sys2Proof.Machine.execSrl s g rd rs1 rs2 t
  | .sra g rd rs1 rs2 t => Sys2Proof.Machine.execSra s g rd rs1 rs2 t
  | .slt g rd rs1 rs2 t => Sys2Proof.Machine.execSlt s g rd rs1 rs2 t
  | .sltu g rd rs1 rs2 t => Sys2Proof.Machine.execSltu s g rd rs1 rs2 t
  | .min g rd rs1 rs2 t => Sys2Proof.Machine.execMin s g rd rs1 rs2 t
  | .max g rd rs1 rs2 t => Sys2Proof.Machine.execMax s g rd rs1 rs2 t
  | .minu g rd rs1 rs2 t => Sys2Proof.Machine.execMinu s g rd rs1 rs2 t
  | .maxu g rd rs1 rs2 t => Sys2Proof.Machine.execMaxu s g rd rs1 rs2 t
  | .slli g rd rs1 sh t => Sys2Proof.Machine.execSlli s g rd rs1 sh t
  | .srli g rd rs1 sh t => Sys2Proof.Machine.execSrli s g rd rs1 sh t
  | .srai g rd rs1 sh t => Sys2Proof.Machine.execSrai s g rd rs1 sh t
  | .clz g rd rs1 t => Sys2Proof.Machine.execClz s g rd rs1 t
  | .ctz g rd rs1 t => Sys2Proof.Machine.execCtz s g rd rs1 t
  | .popc g rd rs1 t => Sys2Proof.Machine.execPopc s g rd rs1 t
  | .mul g rd rs1 rs2 t => Sys2Proof.Machine.execMul s g rd rs1 rs2 t
  | .mulh g rd rs1 rs2 t => Sys2Proof.Machine.execMulh s g rd rs1 rs2 t
  | .mulhu g rd rs1 rs2 t => Sys2Proof.Machine.execMulhu s g rd rs1 rs2 t
  | .div g rd rs1 rs2 t => Sys2Proof.Machine.execDiv s g rd rs1 rs2 t
  | .divu g rd rs1 rs2 t => Sys2Proof.Machine.execDivu s g rd rs1 rs2 t
  | .rem g rd rs1 rs2 t => Sys2Proof.Machine.execRem s g rd rs1 rs2 t
  | .remu g rd rs1 rs2 t => Sys2Proof.Machine.execRemu s g rd rs1 rs2 t
  | .addi g rd rs1 imm t => Sys2Proof.Machine.execAddi s g rd rs1 imm t
  | .slti g rd rs1 imm t => Sys2Proof.Machine.execSlti s g rd rs1 imm t
  | .sltiu g rd rs1 imm t => Sys2Proof.Machine.execSltiu s g rd rs1 imm t
  | .andi g rd rs1 imm t => Sys2Proof.Machine.execAndi s g rd rs1 imm t
  | .ori g rd rs1 imm t => Sys2Proof.Machine.execOri s g rd rs1 imm t
  | .xori g rd rs1 imm t => Sys2Proof.Machine.execXori s g rd rs1 imm t
  | .lui g rd imm t => Sys2Proof.Machine.execLui s g rd imm t
  | .srr g rd n t => Sys2Proof.Machine.execSrr s g rd n t
  | .srw g n rs1 t => Sys2Proof.Machine.execSrw s g n rs1 t
  | .beq g rs1 rs2 off t => Sys2Proof.Machine.execBeq s g rs1 rs2 off t
  | .bne g rs1 rs2 off t => Sys2Proof.Machine.execBne s g rs1 rs2 off t
  | .blt g rs1 rs2 off t => Sys2Proof.Machine.execBlt s g rs1 rs2 off t
  | .bge g rs1 rs2 off t => Sys2Proof.Machine.execBge s g rs1 rs2 off t
  | .bltu g rs1 rs2 off t => Sys2Proof.Machine.execBltu s g rs1 rs2 off t
  | .bgeu g rs1 rs2 off t => Sys2Proof.Machine.execBgeu s g rs1 rs2 off t
  | .j g off t => Sys2Proof.Machine.execJ s g off t
  | .jal g off t => Sys2Proof.Machine.execJal s g off t
  | .jalr g rd rs1 imm t => Sys2Proof.Machine.execJalr s g rd rs1 imm t
  | .flw g rd rs1 imm t => Sys2Proof.Machine.execFlw s g rd rs1 imm t
  | .fld g rd rs1 imm t => Sys2Proof.Machine.execFld s g rd rs1 imm t
  | .fsw g rs2 rs1 imm t => Sys2Proof.Machine.execFsw s g rs2 rs1 imm t
  | .fsd g rs2 rs1 imm t => Sys2Proof.Machine.execFsd s g rs2 rs1 imm t
  | .fadd g p rd rs1 rs2 t => Sys2Proof.Machine.execFadd s g p rd rs1 rs2 t
  | .fsub g p rd rs1 rs2 t => Sys2Proof.Machine.execFsub s g p rd rs1 rs2 t
  | .fmul g p rd rs1 rs2 t => Sys2Proof.Machine.execFmul s g p rd rs1 rs2 t
  | .fdiv g p rd rs1 rs2 t => Sys2Proof.Machine.execFdiv s g p rd rs1 rs2 t
  | .fsqrt g p rd rs1 t => Sys2Proof.Machine.execFsqrt s g p rd rs1 t
  | .fmla g p rd rs1 rs2 rs3 t => Sys2Proof.Machine.execFmla s g p rd rs1 rs2 rs3 t
  | .fmls g p rd rs1 rs2 rs3 t => Sys2Proof.Machine.execFmls s g p rd rs1 rs2 rs3 t
  | .fmnl g p rd rs1 rs2 rs3 t => Sys2Proof.Machine.execFmnl s g p rd rs1 rs2 rs3 t
  | .fmin g p rd rs1 rs2 t => Sys2Proof.Machine.execFmin s g p rd rs1 rs2 t
  | .fmax g p rd rs1 rs2 t => Sys2Proof.Machine.execFmax s g p rd rs1 rs2 t
  | .fabs g p rd rs1 t => Sys2Proof.Machine.execFabs s g p rd rs1 t
  | .fneg g p rd rs1 t => Sys2Proof.Machine.execFneg s g p rd rs1 t
  | .fceq g p rd rs1 rs2 t => Sys2Proof.Machine.execFceq s g p rd rs1 rs2 t
  | .fclt g p rd rs1 rs2 t => Sys2Proof.Machine.execFclt s g p rd rs1 rs2 t
  | .fcle g p rd rs1 rs2 t => Sys2Proof.Machine.execFcle s g p rd rs1 rs2 t
  | .fkind g p rd rs1 t => Sys2Proof.Machine.execFkind s g p rd rs1 t
  | .ftoi g p rd rs1 t => Sys2Proof.Machine.execFtoi s g p rd rs1 t
  | .itof g p rd rs1 t => Sys2Proof.Machine.execItof s g p rd rs1 t
  | .fnarrow g rd rs1 t => Sys2Proof.Machine.execFnarrow s g rd rs1 t
  | .fwiden g rd rs1 t => Sys2Proof.Machine.execFwiden s g rd rs1 t
  | .fmvgfLo g rd rs1 t => Sys2Proof.Machine.execFmvgfLo s g rd rs1 t
  | .fmvgfHi g rd rs1 t => Sys2Proof.Machine.execFmvgfHi s g rd rs1 t
  | .fmvfgLo g rd rs1 t => Sys2Proof.Machine.execFmvfgLo s g rd rs1 t
  | .fmvfgHi g rd rs1 t => Sys2Proof.Machine.execFmvfgHi s g rd rs1 t
  | .fcun g p rd rs1 rs2 t => Sys2Proof.Machine.execFcun s g p rd rs1 rs2 t
  | .amoadd g rd rs1 rs2 t => Sys2Proof.Machine.execAmoadd s g rd rs1 rs2 t
  | .amoswap g rd rs1 rs2 t => Sys2Proof.Machine.execAmoswap s g rd rs1 rs2 t
  | .amocas g rd rs1 rs2 t => Sys2Proof.Machine.execAmocas s g rd rs1 rs2 t
  | .qput g rd rs1 rs2 t => Sys2Proof.Machine.execQput s g rd rs1 rs2 t
  | .qget g rd rs1 t => Sys2Proof.Machine.execQget s g rd rs1 t
  | .qtry g rd rs1 t => Sys2Proof.Machine.execQtry s g rd rs1 t
  | .waitq g rd rs1 t => Sys2Proof.Machine.execWaitq s g rd rs1 t
  | .queueWaitResume g t => Sys2Proof.Machine.execQueueWaitResume s g t
  | .qputhi src n v t => Sys2Proof.Machine.execQputhi s src n v t
  | .qgetlo n t => Sys2Proof.Machine.execQgetlo s n t
  | .fence g t => Sys2Proof.Machine.execFence s g t
  | .pfence g t => Sys2Proof.Machine.execPfence s g t
  | .fenceComplete g t => Sys2Proof.Machine.execFenceComplete s g t
  | .eret g t => Sys2Proof.Machine.execEret s g t
  | .ibget g rd t => Sys2Proof.Machine.execIbget s g rd t
  | .ipost g rs1 rs2 t => Sys2Proof.Machine.execIpost s g rs1 rs2 t
  | .trap g imm5 t => Sys2Proof.Machine.execTrap s g imm5 t
  | .brk g t => Sys2Proof.Machine.execBrk s g t
  | .dlarm g slot rs1 t => Sys2Proof.Machine.execDlarm s g slot rs1 t
  | .dldone g rd slot t => Sys2Proof.Machine.execDldone s g rd slot t
  | .trapEntry g t => Sys2Proof.Machine.execTrapEntry s g t
  | .inboxHoldRelease src dest t => Sys2Proof.Machine.execInboxHoldRelease s src dest t
  | .vaddI g scalar vd a b pg t => Sys2Proof.Machine.execVaddI s g scalar vd a b pg t
  | .vsubI g scalar vd a b pg t => Sys2Proof.Machine.execVsubI s g scalar vd a b pg t
  | .vmulI g scalar vd a b pg t => Sys2Proof.Machine.execVmulI s g scalar vd a b pg t
  | .vand g scalar vd a b pg t => Sys2Proof.Machine.execVand s g scalar vd a b pg t
  | .vor g scalar vd a b pg t => Sys2Proof.Machine.execVor s g scalar vd a b pg t
  | .vxor g scalar vd a b pg t => Sys2Proof.Machine.execVxor s g scalar vd a b pg t
  | .vsll g scalar vd a b pg t => Sys2Proof.Machine.execVsll s g scalar vd a b pg t
  | .vsrl g scalar vd a b pg t => Sys2Proof.Machine.execVsrl s g scalar vd a b pg t
  | .vsra g scalar vd a b pg t => Sys2Proof.Machine.execVsra s g scalar vd a b pg t
  | .vminI g scalar vd a b pg t => Sys2Proof.Machine.execVminI s g scalar vd a b pg t
  | .vmaxI g scalar vd a b pg t => Sys2Proof.Machine.execVmaxI s g scalar vd a b pg t
  | .vminu g scalar vd a b pg t => Sys2Proof.Machine.execVminu s g scalar vd a b pg t
  | .vmaxu g scalar vd a b pg t => Sys2Proof.Machine.execVmaxu s g scalar vd a b pg t
  | .vaddF g scalar vd a b pg t => Sys2Proof.Machine.execVaddF s g scalar vd a b pg t
  | .vsubF g scalar vd a b pg t => Sys2Proof.Machine.execVsubF s g scalar vd a b pg t
  | .vmulF g scalar vd a b pg t => Sys2Proof.Machine.execVmulF s g scalar vd a b pg t
  | .vdivF g scalar vd a b pg t => Sys2Proof.Machine.execVdivF s g scalar vd a b pg t
  | .vfma g scalar vd a b pg t => Sys2Proof.Machine.execVfma s g scalar vd a b pg t
  | .vfnma g scalar vd a b pg t => Sys2Proof.Machine.execVfnma s g scalar vd a b pg t
  | .vminF g scalar vd a b pg t => Sys2Proof.Machine.execVminF s g scalar vd a b pg t
  | .vmaxF g scalar vd a b pg t => Sys2Proof.Machine.execVmaxF s g scalar vd a b pg t
  | .vsqrtF g vd a pg t => Sys2Proof.Machine.execVsqrtF s g vd a pg t
  | .vabsF g vd a pg t => Sys2Proof.Machine.execVabsF s g vd a pg t
  | .vnegF g vd a pg t => Sys2Proof.Machine.execVnegF s g vd a pg t
  | .vcvtFI g vd a pg t => Sys2Proof.Machine.execVcvtFI s g vd a pg t
  | .vcvtIF g vd a pg t => Sys2Proof.Machine.execVcvtIF s g vd a pg t
  | .vld g vd rs1 pg t => Sys2Proof.Machine.execVld s g vd rs1 pg t
  | .vlds g vd rs1 rs2 pg t => Sys2Proof.Machine.execVlds s g vd rs1 rs2 pg t
  | .vst g vs rs1 pg t => Sys2Proof.Machine.execVst s g vs rs1 pg t
  | .vsts g vs rs1 rs2 pg t => Sys2Proof.Machine.execVsts s g vs rs1 rs2 pg t
  | .vgth g vd rs1 vs2 pg t => Sys2Proof.Machine.execVgth s g vd rs1 vs2 pg t
  | .vsct g vs rs1 vs2 pg t => Sys2Proof.Machine.execVsct s g vs rs1 vs2 pg t
  | .vcmpEqI g pd a b pg t => Sys2Proof.Machine.execVcmpEqI s g pd a b pg t
  | .vcmpNeI g pd a b pg t => Sys2Proof.Machine.execVcmpNeI s g pd a b pg t
  | .vcmpLtI g pd a b pg t => Sys2Proof.Machine.execVcmpLtI s g pd a b pg t
  | .vcmpLeI g pd a b pg t => Sys2Proof.Machine.execVcmpLeI s g pd a b pg t
  | .vcmpLtu g pd a b pg t => Sys2Proof.Machine.execVcmpLtu s g pd a b pg t
  | .vcmpLeu g pd a b pg t => Sys2Proof.Machine.execVcmpLeu s g pd a b pg t
  | .vcmpEqF g pd a b pg t => Sys2Proof.Machine.execVcmpEqF s g pd a b pg t
  | .vcmpLtF g pd a b pg t => Sys2Proof.Machine.execVcmpLtF s g pd a b pg t
  | .vcmpLeF g pd a b pg t => Sys2Proof.Machine.execVcmpLeF s g pd a b pg t
  | .vcmpUnF g pd a b pg t => Sys2Proof.Machine.execVcmpUnF s g pd a b pg t
  | .pand g pd a b t => Sys2Proof.Machine.execPand s g pd a b t
  | .por g pd a b t => Sys2Proof.Machine.execPor s g pd a b t
  | .pxor g pd a b t => Sys2Proof.Machine.execPxor s g pd a b t
  | .pnot g pd a t => Sys2Proof.Machine.execPnot s g pd a t
  | .pmv g pd rs1 t => Sys2Proof.Machine.execPmv s g pd rs1 t
  | .pget g rd a t => Sys2Proof.Machine.execPget s g rd a t
  | .vbcast g vd rs1 pg t => Sys2Proof.Machine.execVbcast s g vd rs1 pg t
  | .vins g vd rs1 lane t => Sys2Proof.Machine.execVins s g vd rs1 lane t
  | .vext g rd vs1 lane t => Sys2Proof.Machine.execVext s g rd vs1 lane t
  | .vsel g vd a b pg t => Sys2Proof.Machine.execVsel s g vd a b pg t
  | .vmv g vd a pg t => Sys2Proof.Machine.execVmv s g vd a pg t
  | .vid g vd pg t => Sys2Proof.Machine.execVid s g vd pg t
  | .vredaddI g rd a pg t => Sys2Proof.Machine.execVredaddI s g rd a pg t
  | .vredaddF g rd a pg t => Sys2Proof.Machine.execVredaddF s g rd a pg t
  | .vredmaxF g rd a pg t => Sys2Proof.Machine.execVredmaxF s g rd a pg t
  | .vredminF g rd a pg t => Sys2Proof.Machine.execVredminF s g rd a pg t
  | .vredmaxI g rd a pg t => Sys2Proof.Machine.execVredmaxI s g rd a pg t
  | .vredminI g rd a pg t => Sys2Proof.Machine.execVredminI s g rd a pg t
  | .vtld g slot rs1 t => Sys2Proof.Machine.execVtld s g slot rs1 t
  | .vtab2 g slot vd vs1 vs2 pg t => Sys2Proof.Machine.execVtab2 s g slot vd vs1 vs2 pg t
  | .vexp g vd vs1 pg t => Sys2Proof.Machine.execVexp s g vd vs1 pg t
  | .vcorr g rs vs1 vs2 pg t => Sys2Proof.Machine.execVcorr s g rs vs1 vs2 pg t
  | .corrLaneAccumulate b t => Sys2Proof.Machine.execCorrLaneAccumulate s b t
  | .corrClr src b v t => Sys2Proof.Machine.execCorrClr s src b v t
  | .corrClearDone b t => Sys2Proof.Machine.execCorrClearDone s b t
  | .kcall g rd rs1 t => Sys2Proof.Machine.execKcall s g rd rs1 t
  | .kernelCellStateFilter g t => Sys2Proof.Machine.execKernelCellStateFilter s g t
  | .kernelCapacity g t => Sys2Proof.Machine.execKernelCapacity s g t
  | .kernelResistance g t => Sys2Proof.Machine.execKernelResistance s g t
  | .kernelPowerLimits g t => Sys2Proof.Machine.execKernelPowerLimits s g t
  | .kernelImpedance g t => Sys2Proof.Machine.execKernelImpedance s g t
  | .kernelInternalTemperature g t => Sys2Proof.Machine.execKernelInternalTemperature s g t
  | .kernelSelfDischarge g t => Sys2Proof.Machine.execKernelSelfDischarge s g t
  | .kernelAggregationPartial g t => Sys2Proof.Machine.execKernelAggregationPartial s g t
  | .kernelAggregationFinal g t => Sys2Proof.Machine.execKernelAggregationFinal s g t
  | .shareWeightWrite src r v t => Sys2Proof.Machine.execShareWeightWrite s src r v t
  | .weightsStale t => Sys2Proof.Machine.execWeightsStale s t
  | .vbusSourceRecover t => Sys2Proof.Machine.execVbusSourceRecover s t
  | .phasePeriodStart r slot ones len t => Sys2Proof.Machine.execPhasePeriodStart s r slot ones len t
  | .phaseDecayDone n t => Sys2Proof.Machine.execPhaseDecayDone s n t
  | .phen src r v t => Sys2Proof.Machine.execPhen s src r v t
  | .refreshPulse n t => Sys2Proof.Machine.execRefreshPulse s n t
  | .delayLineRecal t => Sys2Proof.Machine.execDelayLineRecal s t
  | .pwmEdge n en pulse t => Sys2Proof.Machine.execPwmEdge s n en pulse t
  | .psyncEdge width t => Sys2Proof.Machine.execPsyncEdge s width t
  | .psyncLoss t => Sys2Proof.Machine.execPsyncLoss s t
  | .syncHoldExpire t => Sys2Proof.Machine.execSyncHoldExpire s t
  | .vset seq payload t => Sys2Proof.Machine.execVset s seq payload t
  | .statq seq t => Sys2Proof.Machine.execStatq s seq t
  | .iff seq payload t => Sys2Proof.Machine.execIff s seq payload t
  | .limq seq t => Sys2Proof.Machine.execLimq s seq t
  | .bvlUnknownType ty seq t => Sys2Proof.Machine.execBvlUnknownType s ty seq t
  | .bvlFrameDiscard seq t => Sys2Proof.Machine.execBvlFrameDiscard s seq t
  | .bvlResponseSend t => Sys2Proof.Machine.execBvlResponseSend s t
  | .vsetSettled t => Sys2Proof.Machine.execVsetSettled s t
  | .iffTimeout t => Sys2Proof.Machine.execIffTimeout s t
  | .limPeriodic t => Sys2Proof.Machine.execLimPeriodic s t
  | .bvlSilence t => Sys2Proof.Machine.execBvlSilence s t
  | .bvlFallback t => Sys2Proof.Machine.execBvlFallback s t
  | .bvlClockLoss t => Sys2Proof.Machine.execBvlClockLoss s t
  | .capmoveTimeout r t => Sys2Proof.Machine.execCapmoveTimeout s r t
  | .excStart src v t => Sys2Proof.Machine.execExcStart s src v t
  | .excStop src v t => Sys2Proof.Machine.execExcStop s src v t
  | .excEnvelopeEnd t => Sys2Proof.Machine.execExcEnvelopeEnd s t
  | .excCompTimeout t => Sys2Proof.Machine.execExcCompTimeout s t
  | .desatFlag n hi level t => Sys2Proof.Machine.execDesatFlag s n hi level t
  | .blankEnd n hi t => Sys2Proof.Machine.execBlankEnd s n hi t
  | .fastOvercurrent n ones1 ones2 t => Sys2Proof.Machine.execFastOvercurrent s n ones1 ones2 t
  | .feedbackChange n hi level t => Sys2Proof.Machine.execFeedbackChange s n hi level t
  | .interlockTimeout n t => Sys2Proof.Machine.execInterlockTimeout s n t
  | .stopHardOff n t => Sys2Proof.Machine.execStopHardOff s n t
  | .stopEnd t => Sys2Proof.Machine.execStopEnd s t
  | .gateKillAssert t => Sys2Proof.Machine.execGateKillAssert s t
  | .gateKillHardOff t => Sys2Proof.Machine.execGateKillHardOff s t
  | .gateKillRelease t => Sys2Proof.Machine.execGateKillRelease s t
  | .gdUvLow t => Sys2Proof.Machine.execGdUvLow s t
  | .gdUvHigh t => Sys2Proof.Machine.execGdUvHigh s t
  | .testModeEnter src v t => Sys2Proof.Machine.execTestModeEnter s src v t
  | .testCommand src v t => Sys2Proof.Machine.execTestCommand s src v t
  | .leakStart src v t => Sys2Proof.Machine.execLeakStart s src v t
  | .leakStepEnd t => Sys2Proof.Machine.execLeakStepEnd s t
  | .retryWaitEnd n t => Sys2Proof.Machine.execRetryWaitEnd s n t
  | .hbclr src v t => Sys2Proof.Machine.execHbclr s src v t
  | .channelInputChange c io sense vclamp dur t => Sys2Proof.Machine.execChannelInputChange s c io sense vclamp dur t
  | .loadTimerEdge n t => Sys2Proof.Machine.execLoadTimerEdge s n t
  | .inrushWindowEnd c t => Sys2Proof.Machine.execInrushWindowEnd s c t
  | .channelThermalTrip c tj vclamp dur t => Sys2Proof.Machine.execChannelThermalTrip s c tj vclamp dur t
  | .channelThermalRestart c tj t => Sys2Proof.Machine.execChannelThermalRestart s c tj t
  | .channelPrewarn c tj t => Sys2Proof.Machine.execChannelPrewarn s c tj t
  | .channelSensorBroken c t => Sys2Proof.Machine.execChannelSensorBroken s c t
  | .channelSenseFault c t => Sys2Proof.Machine.execChannelSenseFault s c t
  | .channelOpenLoad c t => Sys2Proof.Machine.execChannelOpenLoad s c t
  | .vswLow clamps t => Sys2Proof.Machine.execVswLow s clamps t
  | .vswRecover t => Sys2Proof.Machine.execVswRecover s t
  | .lsclr src v t => Sys2Proof.Machine.execLsclr s src v t
  | .sfInit rom self seal_ sealn t => Sys2Proof.Machine.execSfInit s rom self seal_ sealn t
  | .safetyCycle hc lc t => Sys2Proof.Machine.execSafetyCycle s hc lc t
  | .sfInternalFault t => Sys2Proof.Machine.execSfInternalFault s t
  | .sfAliveTimeout t => Sys2Proof.Machine.execSfAliveTimeout s t
  | .romCheck ok t => Sys2Proof.Machine.execRomCheck s ok t
  | .proofDue t => Sys2Proof.Machine.execProofDue s t
  | .pairInputChange n b level t => Sys2Proof.Machine.execPairInputChange s n b level t
  | .pairDiscrepancy n t => Sys2Proof.Machine.execPairDiscrepancy s n t
  | .testPulse k ok t => Sys2Proof.Machine.execTestPulse s k ok t
  | .srsTimeout t => Sys2Proof.Machine.execSrsTimeout s t
  | .srsCurrentLost t => Sys2Proof.Machine.execSrsCurrentLost s t
  | .sfRecordCopy ok t => Sys2Proof.Machine.execSfRecordCopy s ok t
  | .sceStale p idx t => Sys2Proof.Machine.execSceStale s p idx t
  | .sfVerdictCopy t => Sys2Proof.Machine.execSfVerdictCopy s t
  | .execCheckTimeout t => Sys2Proof.Machine.execExecCheckTimeout s t
  | .resetPress a b t => Sys2Proof.Machine.execResetPress s a b t
  | .resetStuck active t => Sys2Proof.Machine.execResetStuck s active t
  | .sealChange seal_ sealn t => Sys2Proof.Machine.execSealChange s seal_ sealn t
  | .mailboxGo src v t => Sys2Proof.Machine.execMailboxGo s src v t
  | .connWatchdog n t => Sys2Proof.Machine.execConnWatchdog s n t
  | .producerFrame n t => Sys2Proof.Machine.execProducerFrame s n t
  | .txack src v t => Sys2Proof.Machine.execTxack s src v t
  | .mailboxReq src v t => Sys2Proof.Machine.execMailboxReq s src v t
  | .canEnable src n v t => Sys2Proof.Machine.execCanEnable s src n v t
  | .canStandby src n v t => Sys2Proof.Machine.execCanStandby s src n v t
  | .canCommit src n v t => Sys2Proof.Machine.execCanCommit s src n v t
  | .canAbort src n v t => Sys2Proof.Machine.execCanAbort s src n v t
  | .canFrameReceived n w0 w1 data sof t => Sys2Proof.Machine.execCanFrameReceived s n w0 w1 data sof t
  | .canTxComplete n sof tdcv t => Sys2Proof.Machine.execCanTxComplete s n sof tdcv t
  | .canTxError n lec late exempt tdcv t => Sys2Proof.Machine.execCanTxError s n lec late exempt tdcv t
  | .canArbitration n won t => Sys2Proof.Machine.execCanArbitration s n won t
  | .borel src n v t => Sys2Proof.Machine.execBorel s src n v t
  | .canBusoffRecovered n t => Sys2Proof.Machine.execCanBusoffRecovered s n t
  | .pop src n f v t => Sys2Proof.Machine.execPop s src n f v t
  | .canReferenceSend n t => Sys2Proof.Machine.execCanReferenceSend s n t
  | .canTimeLost n t => Sys2Proof.Machine.execCanTimeLost s n t
  | .ethFrameReceived m frame fcs sfd t => Sys2Proof.Machine.execEthFrameReceived s m frame fcs sfd t
  | .ethFrameTransmit m sfd t => Sys2Proof.Machine.execEthFrameTransmit s m sfd t
  | .ethTxTimeout m t => Sys2Proof.Machine.execEthTxTimeout s m t
  | .ethLinkPoll m link t => Sys2Proof.Machine.execEthLinkPoll s m link t
  | .phase src v t => Sys2Proof.Machine.execPhase s src v t
  | .rate src v t => Sys2Proof.Machine.execRate s src v t
  | .step src v t => Sys2Proof.Machine.execStep s src v t
  | .disc src v t => Sys2Proof.Machine.execDisc s src v t
  | .discLost t => Sys2Proof.Machine.execDiscLost s t
  | .eventRaise src code words t => Sys2Proof.Machine.execEventRaise s src code words t
  | .blockEventCollect blk t => Sys2Proof.Machine.execBlockEventCollect s blk t
  | .ledgerEventReceive blk t => Sys2Proof.Machine.execLedgerEventReceive s blk t
  | .ledgerPersist verified t => Sys2Proof.Machine.execLedgerPersist s verified t
  | .ledgerWearCheck t => Sys2Proof.Machine.execLedgerWearCheck s t
  | .commission src v t => Sys2Proof.Machine.execCommission s src v t
  | .sedclr src v t => Sys2Proof.Machine.execSedclr s src v t
  | .bsrc src v t => Sys2Proof.Machine.execBsrc s src v t
  | .ledgerWin0Read t => Sys2Proof.Machine.execLedgerWin0Read s t
  | .ledgerWin15Read t => Sys2Proof.Machine.execLedgerWin15Read s t
  | .archiveCopyDone t => Sys2Proof.Machine.execArchiveCopyDone s t
  | .lifetimeBlockInput t => Sys2Proof.Machine.execLifetimeBlockInput s t
  | .lifetimeRoll t => Sys2Proof.Machine.execLifetimeRoll s t
  | .lifetimeBatchDone t => Sys2Proof.Machine.execLifetimeBatchDone s t
  | .powerFailCommitDone t => Sys2Proof.Machine.execPowerFailCommitDone s t
  | .psBootRecovery t => Sys2Proof.Machine.execPsBootRecovery s t
  | .mramScrubPass rows n bad t => Sys2Proof.Machine.execMramScrubPass s rows n bad t
  | .sramScrub corr bad t => Sys2Proof.Machine.execSramScrub s corr bad t
  | .beatParityFail u n t => Sys2Proof.Machine.execBeatParityFail s u n t
  | .vc0BeatLost u t => Sys2Proof.Machine.execVc0BeatLost s u t
  | .faultReport kind u a holds t => Sys2Proof.Machine.execFaultReport s kind u a holds t
  | .grainLockup g t => Sys2Proof.Machine.execGrainLockup s g t
  | .recoveryWaitEnd u t => Sys2Proof.Machine.execRecoveryWaitEnd s u t
  | .restartComplete u t => Sys2Proof.Machine.execRestartComplete s u t
  | .faultSourceTimeout u t => Sys2Proof.Machine.execFaultSourceTimeout s u t
  | .fbFltRel src v t => Sys2Proof.Machine.execFbFltRel s src v t
  | .psResetComplete t => Sys2Proof.Machine.execPsResetComplete s t
  | .chipResetRelease t => Sys2Proof.Machine.execChipResetRelease s t
  | .vectorSelftestDone v ok t => Sys2Proof.Machine.execVectorSelftestDone s v ok t
  | .bootRom pins t => Sys2Proof.Machine.execBootRom s pins t
  | .hello seq t => Sys2Proof.Machine.execHello s seq t
  | .write seq off data t => Sys2Proof.Machine.execWrite s seq off data t
  | .verify seq t => Sys2Proof.Machine.execVerify s seq t
  | .commit seq t => Sys2Proof.Machine.execCommit s seq t
  | .confirm src v t => Sys2Proof.Machine.execConfirm s src v t
  | .arbgo src v t => Sys2Proof.Machine.execArbgo s src v t
  | .reboot src v t => Sys2Proof.Machine.execReboot s src v t
  | .revgo src v t => Sys2Proof.Machine.execRevgo s src v t
  | .dbggo src v t => Sys2Proof.Machine.execDbggo s src v t
  | .dbglock src v t => Sys2Proof.Machine.execDbglock s src v t
  | .debugChallengeRead t => Sys2Proof.Machine.execDebugChallengeRead s t
  | .debugExpire t => Sys2Proof.Machine.execDebugExpire s t
  | .otpGo src v t => Sys2Proof.Machine.execOtpGo s src v t
  | .unlock src v t => Sys2Proof.Machine.execUnlock s src v t
  | .cgLockoutEnd t => Sys2Proof.Machine.execCgLockoutEnd s t
  | .lock src v t => Sys2Proof.Machine.execLock s src v t
  | .cgIdleTimeout t => Sys2Proof.Machine.execCgIdleTimeout s t
  | .setpw src v t => Sys2Proof.Machine.execSetpw s src v t
  | .clrpw src v t => Sys2Proof.Machine.execClrpw s src v t
  | .keyImport src v t => Sys2Proof.Machine.execKeyImport s src v t
  | .supplyFault rail lev t => Sys2Proof.Machine.execSupplyFault s rail lev t
  | .powerOnRelease vbat x32 vsys t => Sys2Proof.Machine.execPowerOnRelease s vbat x32 vsys t
  | .powerFail vsys t => Sys2Proof.Machine.execPowerFail s vsys t
  | .powerFailRecovery vsys since t => Sys2Proof.Machine.execPowerFailRecovery s vsys since t
  | .holdExpire t => Sys2Proof.Machine.execHoldExpire s t
  | .reclaim src v t => Sys2Proof.Machine.execReclaim s src v t
  | .resetNLow t => Sys2Proof.Machine.execResetNLow s t
  | .resetNHigh t => Sys2Proof.Machine.execResetNHigh s t
  | .clockFault why t => Sys2Proof.Machine.execClockFault s why t
  | .oscVoteWindow x f m t => Sys2Proof.Machine.execOscVoteWindow s x f m t
  | .rtcLoad t => Sys2Proof.Machine.execRtcLoad s t
  | .dieSensorConvert n temp ok t => Sys2Proof.Machine.execDieSensorConvert s n temp ok t
  | .bandFall d t => Sys2Proof.Machine.execBandFall s d t
  | .thermalShutdown n t => Sys2Proof.Machine.execThermalShutdown s n t
  | .thermalPreseqTrigger t => Sys2Proof.Machine.execThermalPreseqTrigger s t
  | .thermalResetRelease t => Sys2Proof.Machine.execThermalResetRelease s t
  | .testNLow t => Sys2Proof.Machine.execTestNLow s t
  | .pmonWrap n t => Sys2Proof.Machine.execPmonWrap s n t
  | .clrall src v t => Sys2Proof.Machine.execClrall s src v t
  | .deadlineMiss g slot t => Sys2Proof.Machine.execDeadlineMiss s g slot t
  | .kick src v t => Sys2Proof.Machine.execKick s src v t
  | .watchdogExpire t => Sys2Proof.Machine.execWatchdogExpire s t
  | .nodePowerUp p idx kind cells auxN serial key t => Sys2Proof.Machine.execNodePowerUp s p idx kind cells auxN serial key t
  | .nodeBadCrcFrame p idx body arr t => Sys2Proof.Machine.execNodeBadCrcFrame s p idx body arr t
  | .resetNGlitch t => Sys2Proof.Machine.execResetNGlitch s t
  | .resetStuckClear t => Sys2Proof.Machine.execResetStuckClear s t
  | .canRxError n lec eight t => Sys2Proof.Machine.execCanRxError s n lec eight t
  | .channelCurrentLimit c active t => Sys2Proof.Machine.execChannelCurrentLimit s c active t
  | .channelPrewarnEnd c tj t => Sys2Proof.Machine.execChannelPrewarnEnd s c tj t

end Sys2Proof.Machine
end

