-- ==== Sys2Proof/Safety.lean ====
section
/-!
DEFINITION. What counts as a sound state: the canonical forms of memory and registers and the bounds the spec sets; the
parts of the state, for what a command leaves alone.
-/

namespace Sys2Proof.Machine

/-- The registers are in their canonical form: addresses strictly rising, no listed word equal to its reset value. -/
def Registers.wf (r : Tab Word) : Bool := Tab.wf regReset r

/-- A sound state: memory and registers in their canonical forms, at most 8 events stacked per source (R420), at most 16
descriptors in each inbox (R166). -/
structure State.Inv (s : State) : Prop where
  mem : Memory.wf s.mem = true
  regs : Registers.wf s.regs = true
  pile : ∀ src, (Tab.get [] s.led.pile src).length ≤ 8
  inbox : ∀ src, (s.grain src).inbox.length ≤ 16

/-- From one state to another the queue of waiting commands stands as it is, and an OTP bit that was burnt stays burnt
(R466). -/
structure State.Onward (s t : State) : Prop where
  pending : t.pending = s.pending
  otp : ∀ i, Tab.get false s.boot.otp i = true → Tab.get false t.boot.otp i = true

/-- The parts of the state beside time and the queue of waiting commands: one for each field, but that the two ledger
registers which an event lost from a full stack counts in, and the inboxes of the grains, are parts of their own. -/
inductive Part where
  | fresh_
  | regs_
  | lost_
  | mem_
  | fab_
  | grains_
  | inbox_
  | led_
  | lnk_
  | swp_
  | trip_
  | boot_
  | gate_
  | regu_
  | out_
  | cur_
  | sf_
  | can_
  | eth_
  | sv_
  | corr_
  | est_
  deriving DecidableEq, Repr

/-- A part stands as it was. -/
def Part.same (s t : State) : Part → Prop
  | .fresh_ => t.fresh = s.fresh
  | .regs_ => ∀ a, a ≠ LEDGER_EVT → a ≠ LEDGER_CNT → t.reg a = s.reg a
  | .lost_ => t.reg LEDGER_EVT = s.reg LEDGER_EVT ∧ t.reg LEDGER_CNT = s.reg LEDGER_CNT
  | .mem_ => t.mem = s.mem
  | .fab_ => t.fab = s.fab
  | .grains_ => ∀ src, { t.grain src with inbox := [] } = { s.grain src with inbox := [] }
  | .inbox_ => ∀ src, (t.grain src).inbox = (s.grain src).inbox
  | .led_ => t.led = s.led
  | .lnk_ => t.lnk = s.lnk
  | .swp_ => t.swp = s.swp
  | .trip_ => t.trip = s.trip
  | .boot_ => t.boot = s.boot
  | .gate_ => t.gate = s.gate
  | .regu_ => t.regu = s.regu
  | .out_ => t.out = s.out
  | .cur_ => t.cur = s.cur
  | .sf_ => t.sf = s.sf
  | .can_ => t.can = s.can
  | .eth_ => t.eth = s.eth
  | .sv_ => t.sv = s.sv
  | .corr_ => t.corr = s.corr
  | .est_ => t.est = s.est

/-- The parts of the state that a command may change, with all that it sets off; every other part stands. -/
def touches : Instr → List Part
  | .registerWrite .. | .wake .. | .owtnow .. | .trig .. | .windowHoldClear .. | .tripClr .. | .tripProgramRequest ..
      | .dlimDisWrite .. | .contactorClose .. | .contactorOpen .. | .prechargeStart .. | .join .. | .abort .. |
      .preseqComplete .. | .pwResetHold .. | .sb .. | .sh .. | .sw .. | .fsw .. | .fsd .. | .qputhi .. | .dldone .. |
      .vld .. | .vlds .. | .vst .. | .vsts .. | .vgth .. | .vsct .. | .corrClr .. | .kernelCellStateFilter .. |
      .kernelCapacity .. | .kernelResistance .. | .kernelPowerLimits .. | .kernelImpedance .. |
      .kernelInternalTemperature .. | .kernelSelfDischarge .. | .kernelAggregationPartial .. |
      .kernelAggregationFinal .. | .shareWeightWrite .. | .phen .. | .excStart .. | .excStop .. | .testModeEnter .. |
      .testCommand .. | .leakStart .. | .hbclr .. | .lsclr .. | .sfInternalFault .. | .romCheck .. | .mailboxGo .. |
      .txack .. | .mailboxReq .. | .canEnable .. | .canStandby .. | .canCommit .. | .canAbort .. | .borel .. | .pop
      .. | .phase .. | .rate .. | .step .. | .disc .. | .commission .. | .sedclr .. | .bsrc .. | .powerFailCommitDone
      .. | .beatParityFail .. | .vc0BeatLost .. | .faultReport .. | .faultSourceTimeout .. | .fbFltRel .. | .commit
      .. | .confirm .. | .arbgo .. | .reboot .. | .revgo .. | .dbggo .. | .dbglock .. | .otpGo .. | .unlock .. |
      .lock .. | .setpw .. | .clrpw .. | .keyImport .. | .supplyFault .. | .powerFailRecovery .. | .reclaim .. |
      .resetNLow .. | .clockFault .. | .oscVoteWindow .. | .thermalPreseqTrigger .. | .testNLow .. | .clrall .. |
      .deadlineMiss .. | .kick .. | .watchdogExpire .. =>
    [.fresh_, .regs_, .lost_, .mem_, .fab_, .grains_, .inbox_, .led_, .lnk_, .swp_, .trip_, .boot_, .gate_, .regu_,
        .out_, .cur_, .sf_, .can_, .eth_, .sv_, .corr_, .est_]
  | .rcRead .. | .qgetlo .. | .ledgerWin0Read .. | .ledgerWin15Read .. | .debugChallengeRead .. =>
    [.fresh_, .regs_, .lost_, .fab_, .led_, .boot_]
  | .sample .. | .read .. | .time .. | .ping .. | .enum .. | .setdly .. | .run .. | .bal .. | .owt .. | .auth .. |
      .wreg .. | .rreg .. | .reset .. | .nodeUnknownCommand .. | .nodeAnswerSend .. | .nodeSlotResponse .. |
      .nodeConversionStep .. | .nodeSweepConversionsEnd .. | .nodeStreamSample .. | .nodeAuthComputeDone .. |
      .nodeBalTimeout .. | .nodeSleepTimeout .. | .nodeWakeTone .. | .nodeInsulationMeasure .. | .nodePowerUp .. |
      .nodeBadCrcFrame .. =>
    [.lnk_]
  | .crec .. | .srec .. | .brec .. =>
    [.regs_, .lost_, .mem_, .fab_, .led_, .lnk_, .swp_, .trip_, .gate_, .regu_, .out_, .cur_]
  | .pong .. | .arsp .. | .rrep .. | .nak .. | .recalibration .. | .enumEackTimeout .. | .authCollect .. |
      .ringEnd0FrameAtEnd1 .. =>
    [.fresh_, .regs_, .lost_, .fab_, .led_, .lnk_, .trip_]
  | .eack .. =>
    [.fresh_, .regs_, .lost_, .mem_, .fab_, .led_, .lnk_, .trip_, .boot_]
  | .slotWindowClose .. | .chainBreakLocate .. =>
    [.regs_, .lost_, .fab_, .led_, .lnk_]
  | .timeMarker .. | .retryRead .. | .streamOnlyRead .. =>
    [.fab_, .lnk_]
  | .portEnumeration .. | .ringEnd0FrameTimeout .. =>
    [.regs_, .lost_, .fab_, .lnk_]
  | .authPeriod .. =>
    [.fresh_, .lost_, .fab_, .led_, .lnk_]
  | .lsend .. | .ltarm .. | .lping .. | .lwake .. | .lslot .. =>
    [.regs_, .lost_, .fab_, .grains_, .inbox_, .led_, .lnk_]
  | .lsendLaunch .. | .lpingComplete .. =>
    [.fab_, .grains_, .lnk_]
  | .lrecv .. =>
    [.fresh_, .regs_, .lost_, .mem_, .fab_, .grains_, .inbox_, .led_, .lnk_]
  | .lrecvComplete .. =>
    [.fresh_, .mem_, .fab_, .grains_, .lnk_]
  | .lstat .. | .lb .. | .lh .. | .lw .. | .lbu .. | .lhu .. | .impreciseBusError .. | .add .. | .sub .. | .and .. |
      .or .. | .xor .. | .sll .. | .srl .. | .sra .. | .slt .. | .sltu .. | .min .. | .max .. | .minu .. | .maxu .. |
      .slli .. | .srli .. | .srai .. | .clz .. | .ctz .. | .popc .. | .mul .. | .mulh .. | .mulhu .. | .div .. |
      .divu .. | .rem .. | .remu .. | .addi .. | .slti .. | .sltiu .. | .andi .. | .ori .. | .xori .. | .lui .. |
      .srr .. | .srw .. | .beq .. | .bne .. | .blt .. | .bge .. | .bltu .. | .bgeu .. | .j .. | .jal .. | .jalr .. |
      .flw .. | .fld .. | .fadd .. | .fsub .. | .fmul .. | .fdiv .. | .fsqrt .. | .fmin .. | .fmax .. | .fabs .. |
      .fneg .. | .fceq .. | .fclt .. | .fcle .. | .fkind .. | .ftoi .. | .itof .. | .fnarrow .. | .fwiden .. |
      .fmvgfLo .. | .fmvgfHi .. | .fmvfgLo .. | .fmvfgHi .. | .fcun .. | .qput .. | .qget .. | .qtry .. | .waitq .. |
      .queueWaitResume .. | .fence .. | .pfence .. | .fenceComplete .. | .eret .. | .ibget .. | .trap .. | .brk .. |
      .dlarm .. | .vaddI .. | .vsubI .. | .vmulI .. | .vand .. | .vor .. | .vxor .. | .vsll .. | .vsrl .. | .vsra ..
      | .vminI .. | .vmaxI .. | .vminu .. | .vmaxu .. | .vaddF .. | .vsubF .. | .vmulF .. | .vdivF .. | .vfma .. |
      .vfnma .. | .vminF .. | .vmaxF .. | .vsqrtF .. | .vabsF .. | .vnegF .. | .vcvtFI .. | .vcvtIF .. | .vcmpEqI ..
      | .vcmpNeI .. | .vcmpLtI .. | .vcmpLeI .. | .vcmpLtu .. | .vcmpLeu .. | .vcmpEqF .. | .vcmpLtF .. | .vcmpLeF ..
      | .vcmpUnF .. | .pand .. | .por .. | .pxor .. | .pnot .. | .pmv .. | .pget .. | .vbcast .. | .vins .. | .vext
      .. | .vsel .. | .vmv .. | .vid .. | .vredaddI .. | .vredaddF .. | .vredmaxF .. | .vredminF .. | .vredmaxI .. |
      .vredminI .. | .vtld .. | .vtab2 .. | .sramScrub .. | .grainLockup .. =>
    [.regs_, .lost_, .fab_, .grains_, .inbox_, .led_]
  | .sweepGridPoint .. =>
    [.fresh_, .regs_, .lost_, .mem_, .fab_, .inbox_, .led_, .lnk_, .swp_, .trip_]
  | .sweepDeadlineMiss .. =>
    [.regs_, .lost_, .led_, .lnk_]
  | .nodeStaleTimeout .. =>
    [.lost_, .led_, .lnk_, .trip_]
  | .meanWindowEnd .. | .owtPeriodic .. =>
    [.swp_]
  | .windowFreeze .. | .archiveCopyDone .. =>
    [.regs_, .lost_, .mem_, .fab_, .led_, .swp_]
  | .phaseDecimatorOutput .. | .pdatNoTransition .. =>
    [.regs_, .lost_, .led_, .trip_, .gate_, .regu_, .cur_]
  | .phaseSumWrite .. =>
    [.mem_, .fab_, .led_, .trip_, .cur_]
  | .aicSample .. =>
    [.fresh_, .regs_, .lost_, .mem_, .fab_, .led_, .trip_, .gate_, .regu_, .cur_]
  | .ainConversion .. | .ainTimeout .. | .xchkWindowEnd .. | .currentAtInstant .. =>
    [.regs_, .lost_, .led_, .trip_, .cur_]
  | .streamStale .. =>
    [.regs_, .lost_, .led_, .swp_, .trip_, .cur_]
  | .offsetMeasure .. =>
    [.regs_, .lost_, .led_, .cur_]
  | .cfbSample .. | .closeWaitEnd .. | .pullInTimeout .. | .prechargeTimeout .. =>
    [.regs_, .lost_, .led_, .trip_, .gate_, .regu_, .out_]
  | .tripVerdict .. =>
    [.fresh_, .regs_, .lost_, .led_, .swp_, .trip_, .gate_, .regu_, .out_]
  | .derateHoldExpire .. =>
    [.regs_, .lost_, .trip_, .regu_]
  | .rampPark .. | .zeroCurrentOpen .. | .openTimeout .. =>
    [.fresh_, .regs_, .lost_, .led_, .trip_, .gate_, .regu_, .out_]
  | .rampTimeout .. =>
    [.regs_, .lost_, .trip_, .gate_, .regu_]
  | .dlimExceed .. =>
    [.trip_]
  | .dlimStale .. =>
    [.regs_, .lost_, .led_, .trip_, .regu_]
  | .economiserStart .. | .vswRecover .. | .channelPrewarnEnd .. =>
    [.regs_, .lost_, .trip_, .out_]
  | .weldCheckTimeout .. | .retryWaitEnd .. =>
    [.regs_, .lost_, .led_, .trip_]
  | .loadComplete .. =>
    [.fresh_, .regs_, .lost_, .fab_, .grains_, .inbox_, .led_, .boot_]
  | .fmla .. | .fmls .. | .fmnl .. | .ipost .. | .vexp .. =>
    [.fresh_, .regs_, .lost_, .fab_, .grains_, .inbox_, .led_]
  | .amoadd .. | .amoswap .. | .amocas .. | .kcall .. =>
    [.regs_, .lost_, .mem_, .fab_, .grains_, .inbox_, .led_]
  | .trapEntry .. =>
    [.fresh_, .fab_, .grains_]
  | .inboxHoldRelease .. =>
    [.lost_, .fab_, .inbox_, .led_]
  | .vcorr .. =>
    [.regs_, .lost_, .fab_, .grains_, .inbox_, .led_, .corr_]
  | .corrLaneAccumulate .. =>
    [.fresh_, .regs_, .lost_, .mem_, .fab_, .grains_, .corr_]
  | .corrClearDone .. | .gateKillRelease .. | .gdUvHigh .. | .resetNGlitch .. | .resetStuckClear .. =>
    [.regs_, .lost_]
  | .weightsStale .. | .psyncEdge .. | .psyncLoss .. | .vset .. | .statq .. | .iff .. | .limq .. | .bvlUnknownType ..
      | .bvlSilence .. | .bvlClockLoss .. | .excEnvelopeEnd .. | .excCompTimeout .. =>
    [.regs_, .lost_, .led_, .regu_]
  | .vbusSourceRecover .. | .syncHoldExpire .. | .vsetSettled .. | .bvlFallback .. =>
    [.regs_, .lost_, .regu_]
  | .phasePeriodStart .. =>
    [.fresh_, .regs_, .lost_, .led_, .trip_, .gate_, .regu_]
  | .phaseDecayDone .. | .delayLineRecal .. | .bvlResponseSend .. | .iffTimeout .. | .limPeriodic .. =>
    [.regu_]
  | .refreshPulse .. | .stopEnd .. =>
    [.regs_, .lost_, .gate_, .regu_]
  | .pwmEdge .. | .stopHardOff .. | .gateKillHardOff .. =>
    [.regs_, .lost_, .gate_]
  | .bvlFrameDiscard .. | .channelSenseFault .. | .channelOpenLoad .. | .resetStuck .. | .ethLinkPoll .. | .discLost
      .. | .blockEventCollect .. | .ledgerWearCheck .. | .cgIdleTimeout .. | .bandFall .. =>
    [.regs_, .lost_, .led_]
  | .capmoveTimeout .. =>
    [.regs_, .lost_, .led_, .gate_, .regu_]
  | .desatFlag .. | .blankEnd .. | .fastOvercurrent .. | .feedbackChange .. | .interlockTimeout .. | .gdUvLow .. |
      .leakStepEnd .. =>
    [.regs_, .lost_, .led_, .trip_, .gate_]
  | .gateKillAssert .. =>
    [.regs_, .lost_, .led_, .gate_]
  | .channelInputChange .. | .channelThermalTrip .. | .channelPrewarn .. | .channelSensorBroken .. | .vswLow .. =>
    [.regs_, .lost_, .led_, .trip_, .out_]
  | .loadTimerEdge .. | .channelThermalRestart .. | .sfAliveTimeout .. | .channelCurrentLimit .. =>
    [.regs_, .lost_, .out_]
  | .inrushWindowEnd .. =>
    [.out_]
  | .sfInit .. =>
    [.regs_, .lost_, .led_, .out_, .sf_]
  | .safetyCycle .. | .srsTimeout .. | .srsCurrentLost .. =>
    [.regs_, .lost_, .led_, .trip_, .out_, .sf_]
  | .proofDue .. | .pairDiscrepancy .. | .testPulse .. | .sceStale .. | .resetPress .. | .sealChange .. |
      .connWatchdog .. =>
    [.regs_, .lost_, .led_, .sf_]
  | .pairInputChange .. | .execCheckTimeout .. | .producerFrame .. =>
    [.regs_, .lost_, .sf_]
  | .sfRecordCopy .. =>
    [.regs_, .lost_, .led_, .lnk_, .trip_, .out_, .sf_]
  | .sfVerdictCopy .. =>
    [.trip_, .sf_]
  | .canFrameReceived .. =>
    [.fresh_, .regs_, .lost_, .fab_, .inbox_, .led_, .can_]
  | .canTxComplete .. | .canTxError .. =>
    [.regs_, .lost_, .fab_, .inbox_, .led_, .can_]
  | .canArbitration .. | .canReferenceSend .. =>
    [.regs_, .lost_, .can_]
  | .canBusoffRecovered .. | .ethTxTimeout .. | .lifetimeBlockInput .. | .pmonWrap .. | .canRxError .. =>
    [.regs_, .lost_, .fab_, .inbox_, .led_]
  | .canTimeLost .. =>
    [.regs_, .lost_, .led_, .can_]
  | .ethFrameReceived .. =>
    [.regs_, .lost_, .mem_, .fab_, .inbox_, .led_]
  | .ethFrameTransmit .. =>
    [.regs_, .lost_, .fab_, .inbox_, .led_, .eth_]
  | .eventRaise .. =>
    [.lost_, .led_]
  | .ledgerEventReceive .. =>
    [.regs_, .lost_, .fab_, .led_]
  | .ledgerPersist .. =>
    [.fresh_, .regs_, .lost_, .mem_, .fab_, .led_, .boot_]
  | .lifetimeRoll .. =>
    [.led_]
  | .lifetimeBatchDone .. | .mramScrubPass .. =>
    [.regs_, .lost_, .mem_, .fab_, .led_]
  | .psBootRecovery .. =>
    [.fresh_, .regs_, .lost_, .mem_, .fab_, .grains_, .inbox_, .led_, .trip_, .boot_, .sv_]
  | .recoveryWaitEnd .. =>
    [.regs_, .lost_, .fab_, .lnk_, .swp_, .trip_, .gate_, .regu_, .out_, .cur_, .can_, .eth_]
  | .restartComplete .. | .psResetComplete .. =>
    [.mem_, .fab_, .grains_, .inbox_, .led_]
  | .chipResetRelease .. =>
    [.regs_, .lost_, .fab_, .led_, .trip_, .boot_, .sv_]
  | .vectorSelftestDone .. =>
    [.regs_, .lost_, .fab_, .grains_, .led_]
  | .bootRom .. =>
    [.regs_, .lost_, .mem_, .fab_, .grains_, .inbox_, .led_, .boot_]
  | .hello .. | .cgLockoutEnd .. =>
    [.boot_]
  | .write .. =>
    [.mem_, .fab_, .boot_]
  | .verify .. =>
    [.lost_, .led_, .boot_]
  | .debugExpire .. =>
    [.regs_, .lost_, .boot_]
  | .powerOnRelease .. | .resetNHigh .. =>
    [.regs_, .lost_, .sv_]
  | .powerFail .. =>
    [.regs_, .lost_, .mem_, .fab_, .grains_, .led_, .trip_, .gate_, .regu_, .sv_]
  | .holdExpire .. | .thermalShutdown .. =>
    [.fresh_, .regs_, .lost_, .led_, .swp_, .trip_, .gate_, .regu_, .out_, .sv_]
  | .rtcLoad .. | .thermalResetRelease .. =>
    [.sv_]
  | .dieSensorConvert .. =>
    [.regs_, .lost_, .led_, .sv_]

/-! ## What an instruction of a grain does -/

/-- A grain executes the instruction at its pc now: it runs and waits for nothing, its MPU lets it fetch there, and the word
is free of poison (R158, R178, R184). -/
structure State.Ready (s : State) (g : GrainId) : Prop where
  run : (s.grain g.src).run = .running
  wait : (s.grain g.src).wait = .none
  fetch : s.fetchOk g.src (s.pc g.src) = true
  sound : s.fetchSound g.src (s.pc g.src) = true

/-- A grain with a general register written; g0 takes no write (R179). -/
def Grain.put (x : Grain) (n : Nat) (w : Word) : Grain := if n = 0 then x else { x with g := Tab.set 0#32 x.g n w }

/-- A grain with an f register written (R180). -/
def Grain.putF (x : Grain) (n : Nat) (d : Dword) : Grain := { x with f := Tab.set 0#64 x.f n d }

/-- A grain with flags raised in `FPCTL` [8:4] (R195). -/
def Grain.flags (x : Grain) (fl : Nat) : Grain := { x with fpctl := x.fpctl ||| BitVec.ofNat 32 (fl * 16) }

/-- A grain at another pc, an instruction retired at the instant `n`. -/
def Grain.goto (x : Grain) (pc : Word) (n : Nat) : Grain := { x with pc := pc, retired := n }

/-- A grain at the next instruction, one retired at the instant `n`. -/
def Grain.next (x : Grain) (n : Nat) : Grain := x.goto (x.pc + 4#32) n

/-- From `s` at the instant `t`, grain `g` has changed, to `f` of itself; the monitors may have counted and the parts in `ps`
may have changed; all else stands: every byte of memory, every register, every other grain. -/
structure State.Did (s : State) (g : GrainId) (t : Nat) (ps : List Part) (f : Grain → Grain) (u : State) : Prop where
  now : u.now = Nat.max s.now t
  pending : u.pending = s.pending
  grain : u.grain g.src = f (s.grain g.src)
  others : ∀ x, x ≠ g.src → u.grain x = s.grain x
  fab : .fab_ ∈ ps ∨ u.fab = { s.fab with pmon := u.fab.pmon }
  rest : ∀ p, p ∉ Part.grains_ :: .inbox_ :: .fab_ :: ps → p.same s u

/-- An outcome is a next state in which grain `g` has changed, to `f` of itself, and beside it the parts in `ps` at most. -/
def State.Does (s : State) (g : GrainId) (t : Nat) (ps : List Part) (f : Grain → Grain)
    (o : Host.Outcome State Fault Refusal) : Prop :=
  ∃ u, o = .next u ∧ s.Did g t ps f u

/-- The instruction sets general register `rd` to `w`, and the next one follows. -/
def State.Sets (s : State) (g : GrainId) (t : Nat) (rd : Nat) (w : Word) (o : Host.Outcome State Fault Refusal) : Prop :=
  s.Does g t [] (fun x => (x.put rd w).next (Nat.max s.now t)) o

/-- The instruction sets vector register `vd` in the lanes that predicate `pg` makes active and leaves every other lane as it
is, and the next one follows (R213, R214). -/
def State.SetsV (s : State) (g : GrainId) (t : Nat) (ps : List Part) (vd pg : Nat) (f : Nat → Nat)
    (o : Host.Outcome State Fault Refusal) : Prop :=
  ∃ u v, o = .next u ∧ s.Did g t ps (fun x => ({ x with v := v } : Grain).next (Nat.max s.now t)) u ∧
    ∀ n i, i < 8 → u.lane g.src n i = if n = vd ∧ s.pbit g.src pg i then f i % 2 ^ 32 else s.lane g.src n i

/-- The instruction sets predicate register `pd`, and the next one follows; a write to p0 is discarded (R213, R214). -/
def State.SetsP (s : State) (g : GrainId) (t : Nat) (pd : Nat) (f : Nat → Bool)
    (o : Host.Outcome State Fault Refusal) : Prop :=
  ∃ u v, o = .next u ∧ s.Did g t [] (fun x => ({ x with p := v } : Grain).next (Nat.max s.now t)) u ∧
    ∀ n i, i < 8 → u.pbit g.src n i = if n = pd ∧ n ≠ 0 then f i else s.pbit g.src n i

/-- Nothing stands between an exception of grain `g` and its handler: no kernel, no pending imprecise bus error, TRAP 0, and
room in the inbox (R207, R208). -/
structure State.Calm (s : State) (g : GrainId) : Prop where
  kern : (s.grain g.src).kern = none
  imprecise : (s.grain g.src).imprecise = []
  trap : bit (s.grain g.src).status.toNat 2 = false
  room : (s.grain g.src).inbox.length < 16

/-- A grain in its handler: the status and the pc saved, supervisor mode with IE 0 and TRAP 1, at EVEC (R207). -/
def Grain.trapped (x : Grain) : Grain :=
  { x with estat := x.status, epc := x.pc, status := 5#32, pc := x.evec, wait := .none }

/-- The instruction takes the exception of a cause with its B word: its descriptor, whose A word is the pc, is the newest in
the inbox and the grain is in its handler; nothing else changes (R207, R209, R211). -/
def State.Traps (s : State) (g : GrainId) (t code b : Nat) (o : Host.Outcome State Fault Refusal) : Prop :=
  s.Does g t [] (fun x => ({ x with inbox := x.inbox ++ [(s.at t).mkDesc 1 g.src code 0 (s.pc g.src) b] } : Grain).trapped) o

/-- Memory holds the low `n` bytes of `v` from `p`, little-endian, and every other byte stands; in the fabric the poison of
the words written and the monitors alone may differ (R158, R190). -/
structure State.Stored (s : State) (p n v : Nat) (u : State) : Prop where
  bytes : ∀ a, u.byte a = if p ≤ a ∧ a < p + n then BitVec.ofNat 8 (v / 2 ^ (8 * (a - p))) else s.byte a
  fab : ∃ m po me, u.fab = { s.fab with pmon := m, poison := po, mended := me }

/-- An outcome is a next state in which `n` bytes of memory from `p` hold `v` and grain `g` has changed, to `f` of itself. -/
def State.Stores (s : State) (g : GrainId) (t p n v : Nat) (f : Grain → Grain) (o : Host.Outcome State Fault Refusal) :
    Prop :=
  ∃ u, o = .next u ∧ s.Did g t [.mem_, .fab_] f u ∧ s.Stored p n v u

/-- An outcome is a next state in which node `k` is `m`; of the links every other node, engine and position, and beside the
links everything, stands. -/
def State.NodeBecomes (s : State) (k t : Nat) (m : Node) (o : Host.Outcome State Fault Refusal) : Prop :=
  ∃ u, o = .next u ∧ u.now = Nat.max s.now t ∧ u.node k = m ∧ (∀ j, j ≠ k → u.node j = s.node j) ∧
    { u.lnk with nodes := [] } = { s.lnk with nodes := [] } ∧ ∀ p, p ≠ Part.lnk_ → p.same s u

/-- Node `k` is awake and sends no frame of its own at the instant `t`: it hears what arrives (R31, R45). -/
def State.Hears (s : State) (k t : Nat) : Prop := (s.node k).st ≠ .sleep ∧ (s.node k).sendEnd ≤ t

/-! ## Events and register writes -/

/-- Beside what else it did, the command raised one event of `src`: the stack of that source is what R420 makes of the stack
before and the event. -/
def State.Raised (s u : State) (src code : Nat) (ws : List Nat) : Prop :=
  ∃ e : EvRec, e.code = code ∧ e.sev = eventSeverity code ∧ e.src = src ∧ e.time = u.ns ∧ e.words = ws ∧
    Tab.get [] u.led.pile src = (pushEvent e (Tab.get [] s.led.pile src)).getD (Tab.get [] s.led.pile src)

/-- A write of the word `v` to the register at `a` is refused on no account (R153, R513, R514): the register answers, no
field's own rule refuses, every field is in its range, and what the configuration gate guards is admitted. -/
structure State.Admits (s : State) (a v : Nat) (r : RegRow) : Prop where
  row : regRow? a = some r
  place : placeOf a = .register
  aligned : a % 4 = 0
  word : v < 2 ^ 32
  reach : sfClosed a = false
  answers : s.answers a = true
  rule : s.fieldBad a v (mergeWord a r (s.reg a) (BitVec.ofNat 32 v)) = false
  range : ∀ f ∈ r.fields, f.outside (BitVec.ofNat 32 v) = false
  gate : gatedWrite a r (s.reg a) (mergeWord a r (s.reg a) (BitVec.ofNat 32 v)) v = true → s.unlocked = true

end Sys2Proof.Machine
end

