-- ==== Sys2Proof/Certificates/Slice0/Obligations.lean ====
section
/-!
DEFINITION. The statements for the provers: what each family of commands does, what every command leaves alone, and the
invariants that every step keeps.
-/

open Sys2Proof Sys2Proof.Machine

/-- For every ready grain each of add, sub, and, or, xor, sll, srl, sra, slt, sltu, min, max, minu, maxu, slli, srli,
srai, clz, ctz, popc, mul, mulh and mulhu completes: gd takes the value the table gives, g0 takes none, the next
instruction follows, and every other register, every byte of memory and every other grain stand. (R187, R179) -/
def Obligations.IntegerInstructionsSetTheirRegister : Prop :=
  ∀ (s : State) (g : GrainId) (rd rs1 rs2 sh : Fin 32) (t : Nat), s.Ready g →
    let a := s.gReg g.src rs1
    let b := s.gReg g.src rs2
    let sets := fun (c : Instr) (w : Word) => s.Sets g t rd w (exec c s)
    sets (.add g rd rs1 rs2 t) (a + b) ∧
    sets (.sub g rd rs1 rs2 t) (a - b) ∧
    sets (.and g rd rs1 rs2 t) (a &&& b) ∧
    sets (.or g rd rs1 rs2 t) (a ||| b) ∧
    sets (.xor g rd rs1 rs2 t) (a ^^^ b) ∧
    sets (.sll g rd rs1 rs2 t) (a <<< (b.toNat % 32)) ∧
    sets (.srl g rd rs1 rs2 t) (a >>> (b.toNat % 32)) ∧
    sets (.sra g rd rs1 rs2 t) (a.sshiftRight (b.toNat % 32)) ∧
    sets (.slt g rd rs1 rs2 t) (if a.toInt < b.toInt then 1#32 else 0#32) ∧
    sets (.sltu g rd rs1 rs2 t) (if a.toNat < b.toNat then 1#32 else 0#32) ∧
    sets (.min g rd rs1 rs2 t) (if a.toInt ≤ b.toInt then a else b) ∧
    sets (.max g rd rs1 rs2 t) (if a.toInt ≤ b.toInt then b else a) ∧
    sets (.minu g rd rs1 rs2 t) (if a.toNat ≤ b.toNat then a else b) ∧
    sets (.maxu g rd rs1 rs2 t) (if a.toNat ≤ b.toNat then b else a) ∧
    sets (.slli g rd rs1 sh t) (a <<< sh.val) ∧
    sets (.srli g rd rs1 sh t) (a >>> sh.val) ∧
    sets (.srai g rd rs1 sh t) (a.sshiftRight sh.val) ∧
    (∃ z, s.Sets g t rd (BitVec.ofNat 32 z) (exec (.clz g rd rs1 t) s) ∧ z ≤ 32 ∧ a.toNat < 2 ^ (32 - z) ∧
      (z < 32 → 2 ^ (31 - z) ≤ a.toNat)) ∧
    (∃ z, s.Sets g t rd (BitVec.ofNat 32 z) (exec (.ctz g rd rs1 t) s) ∧ z ≤ 32 ∧ (∀ i, i < z → bit a.toNat i = false) ∧
      (z < 32 → bit a.toNat z = true)) ∧
    sets (.popc g rd rs1 t) (BitVec.ofNat 32 ((List.range 32).filter (fun i => bit a.toNat i)).length) ∧
    sets (.mul g rd rs1 rs2 t) (a * b) ∧
    sets (.mulh g rd rs1 rs2 t) (BitVec.ofInt 32 (a.toInt * b.toInt / 2 ^ 32)) ∧
    sets (.mulhu g rd rs1 rs2 t) (BitVec.ofNat 32 (a.toNat * b.toNat / 2 ^ 32))

/-- For every ready grain addi, slti, sltiu, andi, ori and xori compute as their register forms with imm16 in place of
gs2, sign-extended for the first three and unsigned for the others, sltiu comparing unsigned against the sign-extended
immediate, and lui sets gd to imm16 times 65,536; nothing else changes. (R189) -/
def Obligations.ImmediateInstructionsSetTheirRegister : Prop :=
  ∀ (s : State) (g : GrainId) (rd rs1 : Fin 32) (imm : Fin 65536) (t : Nat), s.Ready g →
    let a := s.gReg g.src rs1
    let sets := fun (c : Instr) (w : Word) => s.Sets g t rd w (exec c s)
    sets (.addi g rd rs1 imm t) (a + BitVec.signExtend 32 (BitVec.ofNat 16 imm)) ∧
    sets (.slti g rd rs1 imm t) (if a.toInt < (BitVec.ofNat 16 imm.val).toInt then 1#32 else 0#32) ∧
    sets (.sltiu g rd rs1 imm t)
      (if a.toNat < (BitVec.signExtend 32 (BitVec.ofNat 16 imm.val)).toNat then 1#32 else 0#32) ∧
    sets (.andi g rd rs1 imm t) (a &&& BitVec.ofNat 32 imm) ∧
    sets (.ori g rd rs1 imm t) (a ||| BitVec.ofNat 32 imm) ∧
    sets (.xori g rd rs1 imm t) (a ^^^ BitVec.ofNat 32 imm) ∧
    sets (.lui g rd imm t) (BitVec.ofNat 32 (imm.val * 65536))

/-- For a ready control or vector grain, div, divu, rem and remu complete on every pair of operands: a quotient by zero
saturates with the sign of the dividend (0 from 0), a remainder by zero is 0, and the quotient of the most negative
number by -1 is the largest positive number with remainder 0; every other quotient goes toward zero. A link engine
takes the illegal-instruction exception instead. (R188) -/
def Obligations.DivisionSaturates : Prop :=
  ∀ (s : State) (g : GrainId) (rd rs1 rs2 : Fin 32) (t : Nat), s.Ready g →
    let a := s.gReg g.src rs1
    let b := s.gReg g.src rs2
    let ends := a = 0x80000000#32 ∧ b = 0xFFFFFFFF#32
    (g.kind ≠ .link →
      s.Sets g t rd (if b = 0#32 then (if a = 0#32 then 0#32 else if a.toInt < 0 then 0x80000000#32 else 0x7FFFFFFF#32)
        else if ends then 0x7FFFFFFF#32 else BitVec.ofInt 32 (a.toInt.tdiv b.toInt)) (exec (.div g rd rs1 rs2 t) s) ∧
      s.Sets g t rd (if b = 0#32 then (if a = 0#32 then 0#32 else 0xFFFFFFFF#32)
        else BitVec.ofNat 32 (a.toNat / b.toNat)) (exec (.divu g rd rs1 rs2 t) s) ∧
      s.Sets g t rd (if b = 0#32 ∨ ends then 0#32 else BitVec.ofInt 32 (a.toInt.tmod b.toInt))
        (exec (.rem g rd rs1 rs2 t) s) ∧
      s.Sets g t rd (if b = 0#32 then 0#32 else BitVec.ofNat 32 (a.toNat % b.toNat)) (exec (.remu g rd rs1 rs2 t) s)) ∧
    (g.kind = .link → ∀ c ∈ [(Instr.div g rd rs1 rs2 t, 4), (.divu g rd rs1 rs2 t, 5), (.rem g rd rs1 rs2 t, 6),
        (.remu g rd rs1 rs2 t, 7)],
      exec c.1 s = .next ((s.at t).exc g.src 1 (encR 1 rd rs1 rs2 0 c.2)))

/-- For every ready control grain each floating-point operation completes: arithmetic, square root, minimum, maximum, sign
operations, compares, classification, conversions and moves write fd (or gd) with the IEEE 754 result under FPCTL.RM,
a binary32 result with its high half 0, OR their flags into FPCTL [8:4], never trap, and leave every other register,
all memory and every other grain as they were. The fused operations round once; the flag of infinity times zero plus a
quiet NaN is the model's free value (log 4). (R195, R196) -/
def Obligations.FloatInstructionsSetTheirRegister : Prop :=
  ∀ (s : State) (g : GrainId) (p : Bool) (rd rs1 rs2 rs3 : Fin 32) (t : Nat), s.Ready g → g.kind = .ctl →
    let n := Nat.max s.now t
    let m := s.frm g.src
    let F := fmtOf p
    let a := s.fArg g.src p rs1
    let b := s.fArg g.src p rs2
    let c := s.fArg g.src p rs3
    let x := F.val a
    let y := F.val b
    let isF := fun (i : Instr) (r : FRes) =>
      s.Does g t [] (fun q => ((q.flags r.2).putF rd (BitVec.ofNat 64 r.1)).next n) (exec i s)
    let isG := fun (i : Instr) (r : FRes) =>
      s.Does g t [] (fun q => ((q.flags r.2).put rd (BitVec.ofNat 32 r.1)).next n) (exec i s)
    let fused := fun (i : Instr) (a b c : Nat) => ∃ k, k < 2 ∧
      s.Does g t [.fresh_] (fun q => ((q.flags (F.fma m a b c (16 * k)).2).putF rd
        (BitVec.ofNat 64 (F.fma m a b c (16 * k)).1)).next n) (exec i s)
    isF (.fadd g p rd rs1 rs2 t) (F.add m a b) ∧
    isF (.fsub g p rd rs1 rs2 t) (F.sub m a b) ∧
    isF (.fmul g p rd rs1 rs2 t) (F.mul m a b) ∧
    isF (.fdiv g p rd rs1 rs2 t) (F.div m a b) ∧
    isF (.fsqrt g p rd rs1 t) (F.sqrt m a) ∧
    fused (.fmla g p rd rs1 rs2 rs3 t) a b c ∧
    fused (.fmls g p rd rs1 rs2 rs3 t) (F.neg a) b c ∧
    fused (.fmnl g p rd rs1 rs2 rs3 t) a b (F.neg c) ∧
    isF (.fmin g p rd rs1 rs2 t) (F.min a b) ∧
    isF (.fmax g p rd rs1 rs2 t) (F.max a b) ∧
    isF (.fabs g p rd rs1 t) (F.abs a, 0) ∧
    isF (.fneg g p rd rs1 t) (F.neg a, 0) ∧
    isG (.fceq g p rd rs1 rs2 t) (if x.eq y then 1 else 0, if x.isSnan || y.isSnan then 16 else 0) ∧
    isG (.fclt g p rd rs1 rs2 t) (if FVal.lt x y then 1 else 0, if x.isNan || y.isNan then 16 else 0) ∧
    isG (.fcle g p rd rs1 rs2 t) (if FVal.lt x y || x.eq y then 1 else 0, if x.isNan || y.isNan then 16 else 0) ∧
    isG (.fcun g p rd rs1 rs2 t) (if x.isNan || y.isNan then 1 else 0, if x.isSnan || y.isSnan then 16 else 0) ∧
    isG (.fkind g p rd rs1 t) (F.kind a, 0) ∧
    isG (.ftoi g p rd rs1 t) (F.toInt m a) ∧
    isF (.itof g p rd rs1 t) (F.ofInt m (s.gReg g.src rs1).toInt) ∧
    isF (.fnarrow g rd rs1 t) (f64.convert f32 m (s.fReg g.src rs1).toNat) ∧
    isF (.fwiden g rd rs1 t) (f32.convert f64 m ((s.fReg g.src rs1).toNat % 2 ^ 32)) ∧
    isG (.fmvgfLo g rd rs1 t) ((s.fReg g.src rs1).toNat % 2 ^ 32, 0) ∧
    isG (.fmvgfHi g rd rs1 t) ((s.fReg g.src rs1).toNat / 2 ^ 32, 0) ∧
    isF (.fmvfgLo g rd rs1 t) ((s.fReg g.src rd).toNat / 2 ^ 32 * 2 ^ 32 + (s.gReg g.src rs1).toNat, 0) ∧
    isF (.fmvfgHi g rd rs1 t) ((s.fReg g.src rd).toNat % 2 ^ 32 + (s.gReg g.src rs1).toNat * 2 ^ 32, 0)

/-- For every ready grain each branch continues at its own address + off16 x 4 when its condition holds (signed for blt
and bge, unsigned for bltu and bgeu) and at the next instruction otherwise; j and jal go to their own address + off26
x 4, jal writing its own address + 4 to g1; jalr goes to gs1 + imm16 with bits [1:0] cleared, computed before gd takes
its own address + 4. Nothing else changes and no delay slot follows. (R193) -/
def Obligations.BranchesAndJumps : Prop :=
  ∀ (s : State) (g : GrainId) (rd rs1 rs2 : Fin 32) (off imm : Fin 65536) (far : Fin 67108864) (t : Nat), s.Ready g →
    let n := Nat.max s.now t
    let a := s.gReg g.src rs1
    let b := s.gReg g.src rs2
    let pc := (s.grain g.src).pc
    let near := pc + BitVec.signExtend 32 (BitVec.ofNat 16 off) * 4#32
    let there := pc + BitVec.signExtend 32 (BitVec.ofNat 26 far) * 4#32
    let branches := fun (c : Instr) (taken : Prop) =>
      (taken → s.Does g t [] (fun x => x.goto near n) (exec c s)) ∧ (¬ taken → s.Does g t [] (fun x => x.next n) (exec c s))
    branches (.beq g rs1 rs2 off t) (a = b) ∧
    branches (.bne g rs1 rs2 off t) (a ≠ b) ∧
    branches (.blt g rs1 rs2 off t) (a.toInt < b.toInt) ∧
    branches (.bge g rs1 rs2 off t) (b.toInt ≤ a.toInt) ∧
    branches (.bltu g rs1 rs2 off t) (a.toNat < b.toNat) ∧
    branches (.bgeu g rs1 rs2 off t) (b.toNat ≤ a.toNat) ∧
    s.Does g t [] (fun x => x.goto there n) (exec (.j g far t) s) ∧
    s.Does g t [] (fun x => (x.put 1 (pc + 4#32)).goto there n) (exec (.jal g far t) s) ∧
    s.Does g t [] (fun x => (x.put rd (pc + 4#32)).goto ((a + BitVec.signExtend 32 (BitVec.ofNat 16 imm)) &&& 0xFFFFFFFC#32) n)
      (exec (.jalr g rd rs1 imm t) s)

/-- A ready grain's load of its own local memory, naturally aligned, readable under its MPU and free of poison, completes
at once: lb and lh sign-extend, lbu and lhu zero-extend, lw takes the word, flw the word with the high half of fd 0,
fld 64 bits; the address is gs1 plus the sign-extended immediate and data is little-endian. Nothing else changes.
(R190, R153) -/
def Obligations.LoadsReadOwnMemory : Prop :=
  ∀ (s : State) (g : GrainId) (rd rs1 : Fin 32) (imm : Fin 65536) (t p : Nat), s.Ready g →
    let a := (s.gReg g.src rs1 + BitVec.signExtend 32 (BitVec.ofNat 16 imm)).toNat
    let ok := fun n => a % n = 0 ∧ s.sound p n = true
    let b1 := s.byte p
    let b2 := s.byte (p + 1) ++ s.byte p
    let b4 : Word := s.byte (p + 3) ++ s.byte (p + 2) ++ b2
    let b8 : Dword := s.byte (p + 7) ++ s.byte (p + 6) ++ (s.byte (p + 5) ++ s.byte (p + 4)) ++ b4
    let setsF := fun (c : Instr) (d : Dword) => s.Does g t [] (fun x => (x.putF rd d).next (Nat.max s.now t)) (exec c s)
    s.allows g.src a .read = true → ownAddr g.src a = some p →
    (ok 1 → s.Sets g t rd (b1.signExtend 32) (exec (.lb g rd rs1 imm t) s)) ∧
    (ok 2 → s.Sets g t rd (b2.signExtend 32) (exec (.lh g rd rs1 imm t) s)) ∧
    (ok 4 → s.Sets g t rd b4 (exec (.lw g rd rs1 imm t) s)) ∧
    (ok 1 → s.Sets g t rd (b1.zeroExtend 32) (exec (.lbu g rd rs1 imm t) s)) ∧
    (ok 2 → s.Sets g t rd (b2.zeroExtend 32) (exec (.lhu g rd rs1 imm t) s)) ∧
    (ok 4 → g.kind = .ctl → setsF (.flw g rd rs1 imm t) (b4.zeroExtend 64)) ∧
    (ok 8 → g.kind = .ctl → setsF (.fld g rd rs1 imm t) b8)

/-- A ready grain's naturally aligned and permitted load of an address outside its own memory waits for its data and
changes nothing else; a waiting load of sound words of region SRAM, the ROM, or MRAM with PS out of reset completes
with the bytes there, extended as its kind says, and the next instruction follows. (R191, R190, R153, R156) -/
def Obligations.LoadsFromElsewhereWaitForTheirData : Prop :=
  ∀ (s : State) (g : GrainId) (rd rs1 : Fin 32) (imm : Fin 65536) (t a : Nat),
    let waits := fun (c : Instr) (k : LoadKind) (e : Nat) =>
      e % k.width = 0 → s.allows g.src e .read = true → ownAddr g.src e = none →
        s.Does g t [] (fun x => { x with wait := .load k rd e }) (exec c s)
    let e := (s.gReg g.src rs1 + BitVec.signExtend 32 (BitVec.ofNat 16 imm)).toNat
    let brings := fun (k : LoadKind) (f : Grain → Grain) =>
      (s.grain g.src).wait = .load k rd a → s.sound a k.width = true → s.memAnswers a = true →
        s.Does g t [] (fun x => (f { x with wait := .none }).next (Nat.max s.now t)) (exec (.loadComplete g t) s)
    (s.Ready g → waits (.lb g rd rs1 imm t) .b e ∧ waits (.lh g rd rs1 imm t) .h e ∧ waits (.lw g rd rs1 imm t) .w e ∧
      waits (.lbu g rd rs1 imm t) .bu e ∧ waits (.lhu g rd rs1 imm t) .hu e) ∧
    (s.Ready g → g.kind = .ctl → waits (.flw g rd rs1 imm t) .fw e ∧ waits (.fld g rd rs1 imm t) .fd e) ∧
    (placeOf (a / 4 * 4) = .ram ∨ placeOf (a / 4 * 4) = .rom ∨ (placeOf (a / 4 * 4) = .mram ∧ s.psReset = false) →
      brings .b (fun x => x.put rd ((s.byte a).signExtend 32)) ∧
      brings .h (fun x => x.put rd ((s.byte (a + 1) ++ s.byte a).signExtend 32)) ∧
      brings .w (fun x => x.put rd (s.byte (a + 3) ++ s.byte (a + 2) ++ (s.byte (a + 1) ++ s.byte a))) ∧
      brings .bu (fun x => x.put rd ((s.byte a).zeroExtend 32)) ∧
      brings .hu (fun x => x.put rd ((s.byte (a + 1) ++ s.byte a).zeroExtend 32)) ∧
      brings .fw (fun x => x.putF rd ((s.byte (a + 3) ++ s.byte (a + 2) ++ (s.byte (a + 1) ++ s.byte a)).zeroExtend 64)) ∧
      brings .fd (fun x => x.putF rd (s.byte (a + 7) ++ s.byte (a + 6) ++ (s.byte (a + 5) ++ s.byte (a + 4)) ++
        (s.byte (a + 3) ++ s.byte (a + 2) ++ (s.byte (a + 1) ++ s.byte a)))))

/-- A ready grain's naturally aligned store that its MPU permits, to its own local memory (its instruction memory in
supervisor mode alone) or to region SRAM open to programs, completes: the bytes stored hold the low bits of the
register, least significant first, every other byte of memory stands, and no register changes but the pc; a store into
a vector grain's kernel overlay marks it empty. (R190, R191, R192, R231) -/
def Obligations.StoresWriteTheirBytesAlone : Prop :=
  ∀ (s : State) (g : GrainId) (rs2 rs1 : Fin 32) (imm : Fin 65536) (t p : Nat), s.Ready g →
    let a := (s.gReg g.src rs1 + BitVec.signExtend 32 (BitVec.ofNat 16 imm)).toNat
    let v := (s.gReg g.src rs2).toNat
    let d := (s.fReg g.src rs2).toNat
    let own := s.allows g.src a .write = true ∧ ownAddr g.src a = some p ∧
      (0x08000000 + instrBytes g.src ≤ a ∨ s.super g.src = true)
    let sram := s.allows g.src a .write = true ∧ ownAddr g.src a = none ∧ p = a ∧ placeOf (a / 4 * 4) = .ram ∧
      s.ramOpen a = true ∧ aliasAt a = none
    let f := fun (x : Grain) =>
      ({ x with overlay := if g.kind = .vec ∧ 0x0801C000 ≤ a ∧ a < 0x08020000 then 0 else x.overlay } : Grain).next (Nat.max s.now t)
    (own ∨ sram → s.Stores g t p 1 v f (exec (.sb g rs2 rs1 imm t) s)) ∧
    (own ∨ sram → a % 2 = 0 → s.Stores g t p 2 v f (exec (.sh g rs2 rs1 imm t) s)) ∧
    (own ∨ sram → a % 4 = 0 → s.Stores g t p 4 v f (exec (.sw g rs2 rs1 imm t) s)) ∧
    (own ∨ sram → a % 4 = 0 → g.kind = .ctl → s.Stores g t p 4 d f (exec (.fsw g rs2 rs1 imm t) s)) ∧
    (own → a % 8 = 0 → g.kind = .ctl → s.Stores g t p 8 d f (exec (.fsd g rs2 rs1 imm t) s))

/-- For a ready grain with nothing between an exception and its handler, a load, store or atomic that is not naturally
aligned takes the misaligned exception (cause 3), and an aligned one that the MPU denies takes the load-access (5) or
store-access (6) exception, with the data address as B word: memory and registers stand, and the grain is in its
handler with its status and pc saved. (R190, R184, R207, R209) -/
def Obligations.MisalignedAndDeniedAccessesTrap : Prop :=
  ∀ (s : State) (g : GrainId) (rd rs1 rs2 : Fin 32) (imm : Fin 65536) (t : Nat), s.Ready g → s.Calm g →
    let a := (s.gReg g.src rs1 + BitVec.signExtend 32 (BitVec.ofNat 16 imm)).toNat
    let b := (s.gReg g.src rs1).toNat
    let access := fun (c : Instr) (n a code : Nat) (k : Access) =>
      (a % n ≠ 0 → s.Traps g t 3 a (exec c s)) ∧
      (a % n = 0 → s.allows g.src a k = false → s.Traps g t code a (exec c s))
    access (.lb g rd rs1 imm t) 1 a 5 .read ∧
    access (.lbu g rd rs1 imm t) 1 a 5 .read ∧
    access (.lh g rd rs1 imm t) 2 a 5 .read ∧
    access (.lhu g rd rs1 imm t) 2 a 5 .read ∧
    access (.lw g rd rs1 imm t) 4 a 5 .read ∧
    (g.kind = .ctl → access (.flw g rd rs1 imm t) 4 a 5 .read ∧ access (.fld g rd rs1 imm t) 8 a 5 .read ∧
      access (.fsw g rs2 rs1 imm t) 4 a 6 .write ∧ access (.fsd g rs2 rs1 imm t) 8 a 6 .write) ∧
    access (.sb g rs2 rs1 imm t) 1 a 6 .write ∧
    access (.sh g rs2 rs1 imm t) 2 a 6 .write ∧
    access (.sw g rs2 rs1 imm t) 4 a 6 .write ∧
    (b % 4 ≠ 0 → s.Traps g t 3 b (exec (.amoadd g rd rs1 rs2 t) s) ∧ s.Traps g t 3 b (exec (.amoswap g rd rs1 rs2 t) s) ∧
      (rs2.val % 2 = 0 → s.Traps g t 3 b (exec (.amocas g rd rs1 rs2 t) s)))

/-- For a ready grain in supervisor mode (srr of a register that task mode may read, and srw of FPCTL, in either mode):
srr copies STATUS, ESTAT, EPC, EVEC, SCRATCH0/1, GRAINID, INBOXN, TIMELO, TIMEHI, an MPU register, and on a control
grain FPCTL and DLSTAT into gd, a read of TIMELO latching the high word of the same instant into TIMEHI; srw writes
the writable ones, reserved bits reading 0. Nothing else changes. (R183, R182, R173) -/
def Obligations.SystemRegistersReadAndWrite : Prop :=
  ∀ (s : State) (g : GrainId) (rd rs1 : Fin 32) (k : Fin 32) (t : Nat), s.Ready g →
    let x := s.grain g.src
    let n := Nat.max s.now t
    let v := s.gReg g.src rs1
    let kind := match g.kind with
      | .ctl => 1
      | .vec => 2
      | .link => 3
    let reads := fun (i : Fin 65536) (w : Word) => s.Sets g t rd w (exec (.srr g rd i t) s)
    let writes := fun (i : Fin 65536) (f : Grain → Grain) => s.Does g t [] (fun x => (f x).next n) (exec (.srw g i rs1 t) s)
    (s.super g.src = true →
      reads 0x001 x.estat ∧ reads 0x002 x.epc ∧ reads 0x003 x.evec ∧ reads 0x004 x.scratch0 ∧ reads 0x005 x.scratch1 ∧
      (∀ i : Fin 65536, i.val = 0x100 + k.val → reads i (Tab.get 0#32 x.mpu k)) ∧
      writes 0x001 (fun x => { x with estat := v &&& 7#32 }) ∧
      writes 0x002 (fun x => { x with epc := v }) ∧
      writes 0x003 (fun x => { x with evec := v &&& 0xFFFFFFFC#32 }) ∧
      writes 0x004 (fun x => { x with scratch0 := v }) ∧
      writes 0x005 (fun x => { x with scratch1 := v }) ∧
      (∀ i : Fin 65536, i.val = 0x100 + k.val → writes i (fun x => { x with
        mpu := Tab.set 0#32 x.mpu k (if k.val % 2 = 1 then v &&& 0xFFFFFFC0#32 else v) }))) ∧
    reads 0x000 x.status ∧
    reads 0x008 (BitVec.ofNat 32 (g.src + 4096 * kind)) ∧
    reads 0x009 (BitVec.ofNat 32 x.inbox.length) ∧
    s.Does g t [] (fun x => (({ x with timeHi := BitVec.ofNat 32 ((s.at t).ns / 2 ^ 32) } : Grain).put rd
      (BitVec.ofNat 32 (s.at t).ns)).next n) (exec (.srr g rd 0x010 t) s) ∧
    reads 0x011 x.timeHi ∧
    (g.kind = .ctl → reads 0x020 x.fpctl ∧ reads 0x030 (BitVec.ofNat 32 x.dlStat) ∧
      writes 0x020 (fun x => { x with fpctl := v &&& 0x1F7#32 }))

/-- For a ready grain in task mode with nothing between an exception and its handler, eret, ibget, ipost, srw to any
system register but FPCTL and srr of a supervisor-only register have none of their effects: each takes the privilege
exception (cause 2) with its own instruction word as B word, and the grain is in its handler in supervisor mode.
(R182, R207, R209) -/
def Obligations.PrivilegedInstructionsTrapInTaskMode : Prop :=
  ∀ (s : State) (g : GrainId) (rd rs1 rs2 : Fin 32) (i : Fin 65536) (t : Nat), s.Ready g → s.Calm g → s.super g.src = false →
    s.Traps g t 2 (encR 3 0 0 0 0 2) (exec (.eret g t) s) ∧
    (rd.val % 4 = 0 → s.Traps g t 2 (encR 3 rd 0 0 0 3) (exec (.ibget g rd t) s)) ∧
    (rs2.val % 2 = 0 → s.Traps g t 2 (encR 3 0 rs1 rs2 0 4) (exec (.ipost g rs1 rs2 t) s)) ∧
    (i.val ∈ [0x001, 0x002, 0x003, 0x004, 0x005] ∨ (0x100 ≤ i.val ∧ i.val < 0x120) →
      s.Traps g t 2 (encI 7 0 rs1 i) (exec (.srw g i rs1 t) s) ∧ s.Traps g t 2 (encI 6 rd 0 i) (exec (.srr g rd i t) s))

/-- For a ready grain with nothing between an exception and its handler, a floating-point or deadline instruction on a
grain that is no control grain, a vector instruction on one that is no vector grain, a link instruction on one that is
no link engine, an odd register pair, a misaligned quad, a deadline slot above 15 and an unlisted or read-only system
register take the illegal-instruction exception (cause 1) with the instruction word as B word. (R178, R180, R183,
R201) -/
def Obligations.UncarriedInstructionsTrapAsIllegal : Prop :=
  ∀ (s : State) (g : GrainId) (rd rs1 rs2 slot : Fin 32) (q1 : Fin 8) (i : Fin 65536) (p : Bool) (t : Nat), s.Ready g → s.Calm g →
    let illegal := fun (c : Instr) => ∃ w, s.Traps g t 1 w (exec c s)
    (g.kind ≠ .ctl → illegal (.fadd g p rd rs1 rs2 t) ∧ illegal (.fsqrt g p rd rs1 t) ∧ illegal (.flw g rd rs1 i t) ∧
      illegal (.fsd g rs2 rs1 i t) ∧ illegal (.dlarm g slot rs1 t) ∧ illegal (.dldone g rd slot t)) ∧
    (g.kind ≠ .vec → illegal (.vaddI g p rd rs1 rs2 q1 t) ∧ illegal (.vid g rd q1 t)) ∧
    (g.kind ≠ .link → illegal (.lsend g rd rs1 rs2 slot t) ∧ illegal (.lstat g rd slot t)) ∧
    (rd.val % 2 ≠ 0 → illegal (.qget g rd rs1 t) ∧ illegal (.qtry g rd rs1 t)) ∧
    (rs2.val % 2 ≠ 0 → illegal (.qput g rd rs1 rs2 t) ∧ illegal (.ipost g rs1 rs2 t) ∧ illegal (.amocas g rd rs1 rs2 t)) ∧
    (rd.val % 4 ≠ 0 → illegal (.ibget g rd t)) ∧
    (16 ≤ slot.val → illegal (.dlarm g slot rs1 t) ∧ illegal (.dldone g rd slot t)) ∧
    (i.val ∈ [0x000, 0x008, 0x009, 0x010, 0x011, 0x030] → illegal (.srw g i rs1 t)) ∧
    (0x120 ≤ i.val → illegal (.srw g i rs1 t) ∧ illegal (.srr g rd i t))

/-- A calm, ready grain's trap imm5 takes exception 8 with imm5 as B word and brk takes exception 9; in supervisor mode
eret restores STATUS from ESTAT and continues at EPC (into its waiting kernel where EPC lies in the overlay of an
active one). With IE 1, TRAP 0 and an inbox that is not empty a running grain, at an instruction boundary or in the
wait of a qput or qget, enters its handler; a waitq completes first with gd all ones. (R207, R199, R209, R229) -/
def Obligations.TrapBreakAndReturn : Prop :=
  ∀ (s : State) (g : GrainId) (imm5 : Fin 32) (t rd : Nat),
    let n := Nat.max s.now t
    let x := s.grain g.src
    (s.Ready g → s.Calm g → s.Traps g t 8 imm5 (exec (.trap g imm5 t) s) ∧ s.Traps g t 9 0 (exec (.brk g t) s)) ∧
    (s.Ready g → s.super g.src = true → s.Does g t [] (fun x => { x with
      status := x.estat, pc := x.epc, retired := n,
      wait := if x.kern.isSome ∧ 0x0801C000 ≤ x.epc.toNat ∧ x.epc.toNat < 0x08020000 then .kernel else .none })
      (exec (.eret g t) s)) ∧
    (x.run = .running → bit x.status.toNat 1 = true → bit x.status.toNat 2 = false → x.inbox ≠ [] →
      (x.wait = .none ∨ (∃ q d, x.wait = .qput rd q d) ∨ (∃ q, x.wait = .qget rd q) →
        s.Does g t [] Grain.trapped (exec (.trapEntry g t) s)) ∧
      ((∃ m, x.wait = .waitq rd m) → s.Does g t [] (fun x => ((x.put rd 0xFFFFFFFF#32).next n).trapped)
        (exec (.trapEntry g t) s)) ∧
      (x.wait = .kernel → ∃ a : Word, 0x0801C000 ≤ a.toNat ∧ a.toNat < 0x08020000 ∧
        s.Does g t [.fresh_] (fun x => ({ x with pc := a } : Grain).trapped) (exec (.trapEntry g t) s)))

/-- On a ready control grain dlarm arms a slot due at its instant plus gs1 ns, rounded up to the 2.5 ns grid, whatever the
slot held before; dldone disarms the slot and gives 1 when it was armed and the deadline has not come, 0 when it had
missed or the deadline has come, and all ones when it was not armed; a miss found so is declared after the
instruction. A slot field of 16 to 31 is illegal. (R201, R202) -/
def Obligations.DeadlineSlots : Prop :=
  ∀ (s : State) (g : GrainId) (rd rs1 slot : Fin 32) (t : Nat), s.Ready g → g.kind = .ctl →
    let n := Nat.max s.now t
    let d := Tab.get {} (s.grain g.src).dl slot
    let due := (n + (s.gReg g.src rs1).toNat * 1000 + 2499) / 2500 * 2500
    let gd : Word := if d.armed = false then 0xFFFFFFFF#32 else if d.missed = true ∨ d.due ≤ n then 0#32 else 1#32
    (slot.val < 16 →
      s.Does g t [] (fun x => ({ x with
        dl := Tab.set {} x.dl slot { armed := true, missed := false, due := due } } : Grain).next n) (exec (.dlarm g slot rs1 t) s) ∧
      ∃ u, s.Did g t [] (fun x => (({ x with dl := Tab.set {} x.dl slot {} } : Grain).put rd gd).next n) u ∧
        exec (.dldone g rd slot t) s = .next (if d.armed = true ∧ d.due ≤ n ∧ d.missed = false
          then u.deadlineMissed g.src slot d.due else u)) ∧
    (16 ≤ slot.val → s.Calm g →
      s.Traps g t 1 (encR 3 0 rs1 0 slot 8) (exec (.dlarm g slot rs1 t) s) ∧
      s.Traps g t 1 (encR 3 rd 0 0 slot 9) (exec (.dldone g rd slot t) s))

/-- A ready grain's fence and pfence wait and change nothing else; a waiting fence completes and the next instruction
follows, then a pending imprecise bus error is taken; a waiting pfence completes once PS is out of reset with the
grain's program stores to MRAM durable, and with the bus-error exception where commit mode discarded a store it waited
for. A pending imprecise bus error is taken at an instruction boundary with its INFO bit 0 set. (R203, R204, R206,
R210) -/
def Obligations.FencesWaitAndComplete : Prop :=
  ∀ (s : State) (g : GrainId) (t a : Nat) (e : Nat × Nat) (es : List (Nat × Nat)),
    let n := Nat.max s.now t
    let x := s.grain g.src
    let on := fun (x : Grain) => ({ x with wait := .none } : Grain).next n
    (s.Ready g → s.Does g t [] (fun x => { x with wait := .fence }) (exec (.fence g t) s) ∧
      s.Does g t [] (fun x => { x with wait := .pfence none }) (exec (.pfence g t) s)) ∧
    (x.wait = .fence → x.imprecise = [] → s.Does g t [] on (exec (.fenceComplete g t) s)) ∧
    (x.wait = .fence → x.imprecise = e :: es →
      ∃ u, s.Did g t [] on u ∧ exec (.fenceComplete g t) s = .next (u.takeImprecise g.src)) ∧
    (x.wait = .pfence none → x.imprecise = [] → s.psReset = false →
      ∃ u m, exec (.fenceComplete g t) s = .next u ∧ s.Did g t [.fab_] on u ∧
        u.fab = { s.fab with pmon := m, mramPend := s.fab.mramPend.filter (fun p => p.src != g.src) }) ∧
    (x.wait = .pfence (some a) → s.Calm g → s.Traps g t 7 a (exec (.fenceComplete g t) s)) ∧
    (x.run = .running → x.wait = .none → x.kern = none → bit x.status.toNat 2 = false → x.inbox.length < 16 →
      x.imprecise = e :: es → s.Does g t [] (fun x => ({ x with
        imprecise := es, inbox := x.inbox ++ [(s.at t).mkDesc 1 g.src 7 1 e.1 e.2] } : Grain).trapped)
        (exec (.impreciseBusError g t) s))

/-- In supervisor mode a ready grain's ibget moves the oldest descriptor's four words into the quad gd, zeros from an
empty inbox; ipost appends a class 7 descriptor with CODE gs1 [23:16] and the pair gs2 as A and B to the inbox of the
grain that gs1 names, when that grain is not quarantined, its inbox has room and the sender holds nothing for it; an
ipost to no grain is refused and takes the bus-error exception. (R212, R166, R182) -/
def Obligations.InboxInstructions : Prop :=
  ∀ (s : State) (g dst : GrainId) (rd rs1 rs2 : Fin 32) (t : Nat), s.Ready g → s.super g.src = true →
    let n := Nat.max s.now t
    let a := (s.gReg g.src rs1).toNat
    let d := (s.grain g.src).inbox.headD ⟨0#32, 0#32, 0#32, 0#32⟩
    let e := (s.at t).mkDesc 7 g.src (a / 65536 % 256) 0 (s.gReg g.src rs2).toNat (s.gReg g.src (rs2 + 1)).toNat
    (rd.val % 4 = 0 → s.Does g t [] (fun x => ((((({ x with inbox := x.inbox.tail } : Grain).put rd d.w0).put (rd.val + 1) d.w1).put
      (rd.val + 2) d.w2).put (rd.val + 3) d.w3).next n) (exec (.ibget g rd t) s)) ∧
    (rs2.val % 2 = 0 → a % 4096 = dst.src → (s.grain dst.src).run ≠ .quarantined → (s.grain dst.src).inbox.length < 14 →
      Tab.get none s.fab.held (g.src * 4096 + dst.src) = none →
      ∃ u, exec (.ipost g rs1 rs2 t) s = .next u ∧
        (u.grain dst.src).inbox = (s.grain dst.src).inbox ++ [e] ∧ (u.grain g.src).pc = (s.grain g.src).pc + 4#32 ∧
        (∀ src, src ≠ dst.src → (u.grain src).inbox = (s.grain src).inbox) ∧
        (∀ src, src ≠ g.src → { u.grain src with inbox := [] } = { s.grain src with inbox := [] }) ∧
        { u.fab with pmon := [] } = { s.fab with pmon := [] } ∧
        ∀ p, p ∉ [Part.grains_, .inbox_, .fab_] → p.same s u) ∧
    (rs2.val % 2 = 0 → grainOfSrc (a % 4096) = none →
      ∃ b, exec (.ipost g rs1 rs2 t) s = .next ((((s.at t).drew 1).refuseFb g.src b a).exc g.src 7 b))

/-- For a ready grain that the MPU lets reach the queue's window, on a queue that is enabled: qput of a storable kind into
a queue with room appends the descriptor and gives 1, a full one waits (or gives 0 and records the overflow with
FULLRF 1); qget and qtry take the oldest descriptor into the pair gd, on an empty queue qget waits and qtry gives 0;
waitq gives the lowest ready queue of its mask, all ones once the inbox is not empty, and removes nothing. A waiting
one resumes in the same way. (R163, R164, R165, R198, R199) -/
def Obligations.QueueInstructions : Prop :=
  ∀ (s : State) (g : GrainId) (rd rs1 rs2 : Fin 32) (t q mask : Nat) (d : Dword) (ds : List Dword),
    let n := Nat.max s.now t
    let x := s.grain g.src
    let free := fun (x : Grain) => ({ x with wait := .none } : Grain)
    let pair := fun (x : Grain) (d : Dword) => (x.put rd (BitVec.ofNat 32 d.toNat)).put (rd.val + 1) (BitVec.ofNat 32 (d.toNat / 2 ^ 32))
    let room := s.queueOn q = true ∧ kindOk d = true ∧ s.queueFull q = false ∧ x.imprecise = [] ∧
      (let wm := s.rd (FB_Q_CFG q) FB_Q_CFG_WMARK; wm = 0 ∨ (s.queue q).length + 1 < wm ∨ Tab.get false s.fab.wmPosted q = true)
    let puts := fun (c : Instr) => ∃ u m, exec c s = .next u ∧ s.Did g t [.fab_] (fun x => ((free x).put rd 1#32).next n) u ∧
      u.fab = { s.fab with pmon := m, queues := Tab.set [] s.fab.queues q (s.queue q ++ [d]) }
    let takes := fun (c : Instr) => ∃ u m w, exec c s = .next u ∧ s.Did g t [.fab_] (fun x => (pair (free x) d).next n) u ∧
      u.fab = { s.fab with pmon := m, wmPosted := w, queues := Tab.set [] s.fab.queues q ds } ∧
      ∀ i, i ≠ q → Tab.get false w i = Tab.get false s.fab.wmPosted i
    let finds := fun (c : Instr) =>
      (s.offIn mask = none → s.readyIn mask = some q → s.Does g t [] (fun x => ((free x).put rd (BitVec.ofNat 32 q)).next n) (exec c s)) ∧
      (s.offIn mask = none → s.readyIn mask = none → x.inbox ≠ [] →
        s.Does g t [] (fun x => ((free x).put rd 0xFFFFFFFF#32).next n) (exec c s)) ∧
      (s.offIn mask = none → s.readyIn mask = none → x.inbox = [] →
        s.Does g t [] (fun x => { x with wait := .waitq rd mask }) (exec c s))
    let window := queueWindow q
    (s.Ready g → q = (s.gReg g.src rs1).toNat % 64 → s.allows g.src window .write = true → d = s.gPair g.src rs2 → rs2.val % 2 = 0 →
      (room → puts (.qput g rd rs1 rs2 t)) ∧
      (s.queueOn q = true → kindOk d = true → s.queueFull q = true → s.rdB (FB_Q_CFG q) FB_Q_CFG_FULLRF = false →
        s.Does g t [] (fun x => { x with wait := .qput rd q d }) (exec (.qput g rd rs1 rs2 t) s)) ∧
      (s.queueOn q = true → kindOk d = true → s.queueFull q = true → s.rdB (FB_Q_CFG q) FB_Q_CFG_FULLRF = true →
        x.imprecise = [] → ∃ u, exec (.qput g rd rs1 rs2 t) s = .next u ∧
          u.grain g.src = ((free x).put rd 0#32).next n ∧ u.queue q = s.queue q)) ∧
    (s.Ready g → q = (s.gReg g.src rs1).toNat % 64 → s.allows g.src window .read = true → rd.val % 2 = 0 → s.queueOn q = true →
      (s.queue q = d :: ds → takes (.qget g rd rs1 t) ∧ takes (.qtry g rd rs1 t)) ∧
      (s.queue q = [] → s.Does g t [] (fun x => { x with wait := .qget rd q }) (exec (.qget g rd rs1 t) s) ∧
        s.Does g t [] (fun x => (pair (free x) 0#64).next n) (exec (.qtry g rd rs1 t) s))) ∧
    (s.Ready g → mask = (s.gPair g.src rs1).toNat → rs1.val % 2 = 0 →
      (∀ i, i < 64 → bit mask i = true → s.allows g.src (queueWindow i) .read = true) → finds (.waitq g rd rs1 t)) ∧
    (x.wait = .qput rd q d → room → puts (.queueWaitResume g t)) ∧
    (x.wait = .qget rd q → s.queueOn q = true → s.queue q = d :: ds → takes (.queueWaitResume g t)) ∧
    (x.wait = .waitq rd mask → finds (.queueWaitResume g t))

/-- A ready grain's atomic on an aligned, sound word that its MPU lets it read and write, in its own local memory (its
instruction memory in supervisor mode alone) or in region SRAM open to programs, completes: gd takes the old word t;
amoadd stores t + gs2, amoswap gs2, amocas the second register of the pair when t equals the first and nothing
otherwise. No other byte and no other register changes. (R155, R197, R203) -/
def Obligations.AtomicsReadAndReplace : Prop :=
  ∀ (s : State) (g : GrainId) (rd rs1 rs2 : Fin 32) (t p : Nat), s.Ready g → (s.grain g.src).imprecise = [] →
    let a := (s.gReg g.src rs1).toNat
    let b := s.gReg g.src rs2
    let c := s.gReg g.src (rs2.val + 1)
    let old := s.byte (p + 3) ++ s.byte (p + 2) ++ (s.byte (p + 1) ++ s.byte p)
    let own := ownAddr g.src a = some p ∧ (0x08000000 + instrBytes g.src ≤ a ∨ s.super g.src = true)
    let sram := ownAddr g.src a = none ∧ p = a ∧ placeOf a = .ram ∧ s.ramOpen a = true ∧ aliasAt a = none
    let kept := fun (x : Grain) => (x.put rd old).next (Nat.max s.now t)
    let f := fun (x : Grain) =>
      kept { x with overlay := if g.kind = .vec ∧ 0x0801C000 ≤ a ∧ a < 0x08020000 then 0 else x.overlay }
    a % 4 = 0 → s.allows g.src a .read = true → s.allows g.src a .write = true → s.sound p 4 = true → own ∨ sram →
    s.Stores g t p 4 (old + b).toNat f (exec (.amoadd g rd rs1 rs2 t) s) ∧
    s.Stores g t p 4 b.toNat f (exec (.amoswap g rd rs1 rs2 t) s) ∧
    (rs2.val % 2 = 0 → old = b → s.Stores g t p 4 c.toNat f (exec (.amocas g rd rs1 rs2 t) s)) ∧
    (rs2.val % 2 = 0 → old ≠ b → s.Does g t [] kept (exec (.amocas g rd rs1 rs2 t) s))

/-- On a ready vector grain each integer lane operation (add, subtract, low product, and, or, xor, shifts by operand
[4:0], signed and unsigned minimum and maximum) completes: every active lane of vd takes the result of vs1 and operand
b (vs2, or gs2 in every lane), every inactive lane and every other register keeps its value, and the next instruction
follows. (R213, R214, R217) -/
def Obligations.VectorIntegerArithmetic : Prop :=
  ∀ (s : State) (g : GrainId) (scalar : Bool) (vd va vb : Fin 32) (pg : Fin 8) (t : Nat), s.Ready g → g.kind = .vec →
    let a := fun i => s.lane g.src va i
    let b := fun i => if scalar then (s.gReg g.src vb).toNat else s.lane g.src vb i
    let d := fun i => s.lane g.src vd i
    let sets := fun (c : Instr) (f : Nat → Nat) => s.SetsV g t [] vd pg f (exec c s)
    sets (.vaddI g scalar vd va vb pg t) (fun i => a i + b i) ∧
    sets (.vsubI g scalar vd va vb pg t) (fun i => a i + (2 ^ 32 - b i)) ∧
    sets (.vmulI g scalar vd va vb pg t) (fun i => a i * b i) ∧
    sets (.vand g scalar vd va vb pg t) (fun i => a i &&& b i) ∧
    sets (.vor g scalar vd va vb pg t) (fun i => a i ||| b i) ∧
    sets (.vxor g scalar vd va vb pg t) (fun i => a i ^^^ b i) ∧
    sets (.vsll g scalar vd va vb pg t) (fun i => a i * 2 ^ (b i % 32)) ∧
    sets (.vsrl g scalar vd va vb pg t) (fun i => a i / 2 ^ (b i % 32)) ∧
    sets (.vsra g scalar vd va vb pg t) (fun i => wrapInt (sext (a i) 32 / 2 ^ (b i % 32)) 32) ∧
    sets (.vminI g scalar vd va vb pg t) (fun i => if sext (a i) 32 ≤ sext (b i) 32 then a i else b i) ∧
    sets (.vmaxI g scalar vd va vb pg t) (fun i => if sext (a i) 32 ≤ sext (b i) 32 then b i else a i) ∧
    sets (.vminu g scalar vd va vb pg t) (fun i => if a i ≤ b i then a i else b i) ∧
    sets (.vmaxu g scalar vd va vb pg t) (fun i => if a i ≤ b i then b i else a i)

/-- On a ready vector grain each binary32 lane operation (add, subtract, multiply, divide, fused multiply-add and its
negation, minimum, maximum, square root, sign operations with a canonical NaN, conversions to and from signed
integers) completes: every active lane of vd takes the IEEE 754 result, every inactive lane and every other register
keeps its value, and no flag is kept. (R213, R214, R216, R217) -/
def Obligations.VectorFloatArithmetic : Prop :=
  ∀ (s : State) (g : GrainId) (scalar : Bool) (vd va vb : Fin 32) (pg : Fin 8) (t : Nat), s.Ready g → g.kind = .vec →
    let a := fun i => s.lane g.src va i
    let b := fun i => if scalar then (s.gReg g.src vb).toNat else s.lane g.src vb i
    let d := fun i => s.lane g.src vd i
    let sets := fun (c : Instr) (f : Nat → Nat) => s.SetsV g t [] vd pg f (exec c s)
    sets (.vaddF g scalar vd va vb pg t) (fun i => (f32.add 0 (a i) (b i)).1) ∧
    sets (.vsubF g scalar vd va vb pg t) (fun i => (f32.sub 0 (a i) (b i)).1) ∧
    sets (.vmulF g scalar vd va vb pg t) (fun i => (f32.mul 0 (a i) (b i)).1) ∧
    sets (.vdivF g scalar vd va vb pg t) (fun i => (f32.div 0 (a i) (b i)).1) ∧
    sets (.vfma g scalar vd va vb pg t) (fun i => (f32.fma 0 (a i) (b i) (d i) 0).1) ∧
    sets (.vfnma g scalar vd va vb pg t) (fun i => (f32.fma 0 (f32.neg (a i)) (b i) (d i) 0).1) ∧
    sets (.vminF g scalar vd va vb pg t) (fun i => (f32.min (a i) (b i)).1) ∧
    sets (.vmaxF g scalar vd va vb pg t) (fun i => (f32.max (a i) (b i)).1) ∧
    sets (.vsqrtF g vd va pg t) (fun i => (f32.sqrt 0 (a i)).1) ∧
    sets (.vabsF g vd va pg t) (fun i => if (f32.val (f32.abs (a i))).isNan then f32.nan else f32.abs (a i)) ∧
    sets (.vnegF g vd va pg t) (fun i => if (f32.val (f32.neg (a i))).isNan then f32.nan else f32.neg (a i)) ∧
    sets (.vcvtFI g vd va pg t) (fun i => (f32.ofInt 0 (sext (a i) 32)).1) ∧
    sets (.vcvtIF g vd va pg t) (fun i => (f32.toInt 0 (a i)).1)

/-- On a ready vector grain each compare sets bit i of pd to whether it holds in an active lane and to 0 in an inactive
one (signed, unsigned and binary32 forms; a NaN compares false, unordered true); pand, por, pxor, pnot and pmv combine
predicates bit by bit; a write of p0 is discarded, and it reads all ones; pget collects a predicate into gd. Nothing
else changes. (R213, R214, R220) -/
def Obligations.VectorComparesAndPredicates : Prop :=
  ∀ (s : State) (g : GrainId) (pd pa pb : Fin 8) (rd va vb : Fin 32) (pg : Fin 8) (t : Nat), s.Ready g → g.kind = .vec →
    let a := fun i => s.lane g.src va i
    let b := fun i => s.lane g.src vb i
    let x := fun i => f32.val (a i)
    let y := fun i => f32.val (b i)
    let p := fun i => s.pbit g.src pa i
    let q := fun i => s.pbit g.src pb i
    let setsP := fun (c : Instr) (f : Nat → Bool) => s.SetsP g t pd f (exec c s)
    setsP (.vcmpEqI g pd va vb pg t) (fun i => s.pbit g.src pg i && decide (a i = b i)) ∧
    setsP (.vcmpNeI g pd va vb pg t) (fun i => s.pbit g.src pg i && decide (a i ≠ b i)) ∧
    setsP (.vcmpLtI g pd va vb pg t) (fun i => s.pbit g.src pg i && decide (sext (a i) 32 < sext (b i) 32)) ∧
    setsP (.vcmpLeI g pd va vb pg t) (fun i => s.pbit g.src pg i && decide (sext (a i) 32 ≤ sext (b i) 32)) ∧
    setsP (.vcmpLtu g pd va vb pg t) (fun i => s.pbit g.src pg i && decide (a i < b i)) ∧
    setsP (.vcmpLeu g pd va vb pg t) (fun i => s.pbit g.src pg i && decide (a i ≤ b i)) ∧
    setsP (.vcmpEqF g pd va vb pg t) (fun i => s.pbit g.src pg i && (x i).eq (y i)) ∧
    setsP (.vcmpLtF g pd va vb pg t) (fun i => s.pbit g.src pg i && FVal.lt (x i) (y i)) ∧
    setsP (.vcmpLeF g pd va vb pg t) (fun i => s.pbit g.src pg i && (FVal.lt (x i) (y i) || (x i).eq (y i))) ∧
    setsP (.vcmpUnF g pd va vb pg t) (fun i => s.pbit g.src pg i && ((x i).isNan || (y i).isNan)) ∧
    setsP (.pand g pd pa pb t) (fun i => p i && q i) ∧
    setsP (.por g pd pa pb t) (fun i => p i || q i) ∧
    setsP (.pxor g pd pa pb t) (fun i => p i != q i) ∧
    setsP (.pnot g pd pa t) (fun i => !p i) ∧
    setsP (.pmv g pd va t) (fun i => bit (s.gReg g.src va).toNat i) ∧
    (∃ v, s.Sets g t rd (BitVec.ofNat 32 v) (exec (.pget g rd pa t) s) ∧ v < 256 ∧ ∀ i, i < 8 → bit v i = p i)

/-- On a ready vector grain vbcast, vmv and vid write the active lanes of vd from gs1, vs1 or the lane number, vsel writes
every lane from vs1 where pg is 1 and vs2 where it is 0, vins writes one lane and vext reads one; each reduction
combines the eight lanes in the order of the binary tree, an inactive lane counting as the identity of its operation,
into gd. Nothing else changes. (R213, R214, R221) -/
def Obligations.VectorMovesAndReductions : Prop :=
  ∀ (s : State) (g : GrainId) (vd va vb rd rs1 : Fin 32) (lane pg : Fin 8) (t : Nat), s.Ready g → g.kind = .vec →
    let a := fun i => s.lane g.src va i
    let b := fun i => s.lane g.src vb i
    let w := (s.gReg g.src rs1).toNat
    let sets := fun (c : Instr) (f : Nat → Nat) => s.SetsV g t [] vd pg f (exec c s)
    let all := fun (c : Instr) (f : Nat → Nat) => s.SetsV g t [] vd 0 f (exec c s)
    let folds := fun (c : Instr) (e : Nat) (f : Nat → Nat → Nat) =>
      let l := fun i => if s.pbit g.src pg i then a i else e
      s.Sets g t rd (BitVec.ofNat 32 (f (f (f (l 0) (l 1)) (f (l 2) (l 3))) (f (f (l 4) (l 5)) (f (l 6) (l 7))))) (exec c s)
    sets (.vbcast g vd rs1 pg t) (fun _ => w) ∧
    sets (.vmv g vd va pg t) a ∧
    sets (.vid g vd pg t) (fun i => i) ∧
    all (.vsel g vd va vb pg t) (fun i => if s.pbit g.src pg i then a i else b i) ∧
    all (.vins g vd rs1 lane t) (fun i => if i = lane.val then w else s.lane g.src vd i) ∧
    s.Sets g t rd (BitVec.ofNat 32 (a lane)) (exec (.vext g rd va lane t) s) ∧
    folds (.vredaddI g rd va pg t) 0 (fun x y => (x + y) % 2 ^ 32) ∧
    folds (.vredaddF g rd va pg t) 0 (fun x y => (f32.add 0 x y).1) ∧
    folds (.vredmaxF g rd va pg t) 0xFF800000 (fun x y => (f32.max x y).1) ∧
    folds (.vredminF g rd va pg t) 0x7F800000 (fun x y => (f32.min x y).1) ∧
    folds (.vredmaxI g rd va pg t) 0x80000000 (fun x y => if sext x 32 ≤ sext y 32 then y else x) ∧
    folds (.vredminI g rd va pg t) 0x7FFFFFFF (fun x y => if sext x 32 ≤ sext y 32 then x else y)

/-- On a ready vector grain vld, vlds and vgth bring each active lane the word at its own address (consecutive, at a
signed stride, or indexed) when all are aligned, permitted and answered; vst, vsts and vsct store the active lanes,
the highest lane remaining where two name one address, and no other byte changes; vtld fills a table slot from an
aligned descriptor; vtab2 interpolates in a valid slot; vexp gives a result within its bound, which of those in reach
is free (log 4). (R218, R222, R223, R224) -/
def Obligations.VectorMemoryAndTables : Prop :=
  ∀ (s : State) (g : GrainId) (slot : Fin 4) (vd vs rs1 rs2 : Fin 32) (pg : Fin 8) (t : Nat), s.Ready g → g.kind = .vec →
    let base := (s.gReg g.src rs1).toNat
    let active := fun i => i < 8 ∧ s.pbit g.src pg i = true
    let seq := fun i => (base + 4 * i) % 2 ^ 32
    let stride := fun i => (base + i * (s.gReg g.src rs2).toNat) % 2 ^ 32
    let index := fun i => (base + 4 * s.lane g.src vs i) % 2 ^ 32
    let loads := fun (c : Instr) (a : Nat → Nat) => ∀ v : Nat → Nat,
      (∀ i, active i → a i % 4 = 0 ∧ s.allows g.src (a i) .read = true ∧ s.laneRead g.src (a i) = some (v i)) →
        s.SetsV g t [] vd pg v (exec c s)
    let stores := fun (c : Instr) (a : Nat → Nat) => ∀ p : Nat → Nat,
      (∀ i, active i → a i % 4 = 0 ∧ s.allows g.src (a i) .write = true ∧
        ((ownAddr g.src (a i) = some (p i) ∧ a i < 0x0801C000) ∨ (ownAddr g.src (a i) = none ∧ p i = a i ∧
          inRegionSram (a i) = true ∧ placeOf (a i) = .ram ∧ s.ramOpen (a i) = true ∧ aliasAt (a i) = none))) →
      ∃ u, exec c s = .next u ∧ s.Did g t [.mem_, .fab_] (fun x => x.next (Nat.max s.now t)) u ∧
        (∀ x, (∀ i, active i → ¬ (p i ≤ x ∧ x < p i + 4)) → u.byte x = s.byte x) ∧
        ∀ i, active i → (∀ j, active j → i < j → p j + 4 ≤ p i ∨ p i + 4 ≤ p j) → u.loadLE (p i) 4 = s.lane g.src vd i
    let words := (List.range 8).map (fun i => base + 4 * i)
    let ws := words.map (fun x => (s.laneRead g.src x).getD 0)
    let tab := Tab.get {} (s.grain g.src).tabs slot
    let d := tableOf tab.words
    let reads := fun i => if d.skips (s.lane g.src rs1 i) (s.lane g.src vs i) (s.lane g.src vd i) then []
      else (d.cells (s.lane g.src rs1 i) (s.lane g.src vs i) (s.lane g.src vd i)).2.2
    loads (.vld g vd rs1 pg t) seq ∧ loads (.vlds g vd rs1 rs2 pg t) stride ∧ loads (.vgth g vd rs1 vs pg t) index ∧
    stores (.vst g vd rs1 pg t) seq ∧ stores (.vsts g vd rs1 rs2 pg t) stride ∧ stores (.vsct g vd rs1 vs pg t) index ∧
    (base % 32 = 0 → s.allows g.src base .read = true → (∀ x ∈ words, (s.laneRead g.src x).isSome = true) →
      s.Does g t [] (fun x => ({ x with tabs := Tab.set {} x.tabs slot { valid := tableOk g.src ws, words := ws } } : Grain).next
        (Nat.max s.now t)) (exec (.vtld g slot rs1 t) s)) ∧
    (tab.valid = true → (∀ i, active i → ∀ x ∈ reads i, x % 4 = 0 ∧ s.allows g.src x .read = true ∧
        (s.laneRead g.src x).isSome = true) →
      s.SetsV g t [] vd pg (fun i => d.interp (s.lane g.src rs1 i) (s.lane g.src vs i) (s.lane g.src vd i)
        (fun x => (s.laneRead g.src x).getD 0)) (exec (.vtab2 g slot vd rs1 vs pg t) s)) ∧
    ∃ pick : Nat → Nat, s.SetsV g t [.fresh_] vd pg (fun i => vexpLane (s.lane g.src vs i) (pick i)) (exec (.vexp g vd vs pg t) s)

/-- On a ready link engine ltarm arms the launch time gs1 + gs2 2^32; lslot arms the slot window of the next READ when the
slot is long enough (1,196 units of 10 ns with cell nodes alone, 1,660 with a sense node) and leaves none armed when
it is not; lwake of 100 to 10,000 us starts the wake tone and the port state WAKE; lstat reads the chip time of the
last frame's end, the port status and the count of received frames, and a number above 3 is illegal. The other
engines, the nodes and the positions stand. (R58, R67, R73, R74) -/
def Obligations.LinkEnginesArm : Prop :=
  ∀ (s : State) (e : Fin 20) (rd rs1 rs2 imm5 : Fin 32) (t : Nat),
    let g := GrainId.link e
    let v1 := (s.gReg g.src rs1).toNat
    let v2 := (s.gReg g.src rs2).toNat
    let n := Nat.max s.now t
    let on := fun (x : Grain) => x.next n
    let alone := fun (u : State) => (∀ j, j ≠ e.val → u.eng j = s.eng j) ∧
      { u.lnk with engines := [] } = { s.lnk with engines := [] }
    s.Ready g →
    (∃ u, exec (.ltarm g rs1 rs2 t) s = .next u ∧ s.Did g t [.lnk_] on u ∧ alone u ∧
      u.eng e = { s.eng e with launch := v1 + v2 * 2 ^ 32 }) ∧
    (1660 ≤ v2 ∨ (1196 ≤ v2 ∧ ∀ q, q < s.portNodes (portOf e) → s.nodeType (portOf e) (q + 1) < 2) →
      ∃ u, exec (.lslot g rs1 rs2 t) s = .next u ∧ s.Did g t [.lnk_] on u ∧ alone u ∧
        u.eng e = { s.eng e with slot := some (v1 % 256, v1 / 256 % 256, v2) }) ∧
    (v2 < 1196 ∨ (v2 < 1660 ∧ ∃ q, q < s.portNodes (portOf e) ∧ 2 ≤ s.nodeType (portOf e) (q + 1)) →
      ∃ u, exec (.lslot g rs1 rs2 t) s = .next u ∧ alone u ∧ u.eng e = { s.eng e with slot := none } ∧
        (u.grain g.src).g = (s.grain g.src).g ∧ (u.grain g.src).pc = (s.grain g.src).pc + 4#32) ∧
    (100 ≤ v1 → v1 ≤ 10000 → ∃ u, exec (.lwake g rs1 t) s = .next u ∧ s.Did g t [.lnk_, .regs_, .lost_, .led_] on u ∧
      alone u ∧ u.eng e = { s.eng e with wake := some (n, v1) } ∧ u.rd (AQ_PORT_STAT e) AQ_PORT_STAT_STATE = 1) ∧
    (imm5.val = 0 → s.Sets g t rd (BitVec.ofNat 32 (s.eng e).rxAt) (exec (.lstat g rd imm5 t) s)) ∧
    (imm5.val = 1 → s.Sets g t rd (BitVec.ofNat 32 ((s.eng e).rxAt / 2 ^ 32)) (exec (.lstat g rd imm5 t) s)) ∧
    (imm5.val = 2 → s.Sets g t rd (s.reg (AQ_PORT_STAT e)) (exec (.lstat g rd imm5 t) s)) ∧
    (imm5.val = 3 → s.Sets g t rd (BitVec.ofNat 32 (s.eng e).rxN) (exec (.lstat g rd imm5 t) s)) ∧
    (4 ≤ imm5.val → s.Calm g → s.Traps g t 1 (encR 0x3C rd 0 0 imm5 6) (exec (.lstat g rd imm5 t) s))

/-- On a ready link engine lsend of a body of 3 to 120 bytes in the frame buffer, not a READ, nor a BAL to a node that may
not balance, with no slot window open, sends it now, or with LAUNCH set at its armed instant, and gives the low word
of the instant; a READ opens the armed slot window and uses it up. lrecv hands over the oldest received frame, stored
in the frame buffer at an offset the spec leaves free, with its CRC, code violation, length and offset in gd, and
gives 0 once its limit has passed. lping sends a PING and gives the round trip in 2.5 ns units, all ones after 100 us.
(R36, R49, R57, R58, R73, R74) -/
def Obligations.LinkEnginesSendAndReceive : Prop :=
  ∀ (s : State) (e : Fin 20) (rd rs1 rs2 imm5 : Fin 32) (t : Nat),
    let g := GrainId.link e
    let off := (s.gReg g.src rs1).toNat
    let len := (s.gReg g.src rs2).toNat
    let n := Nat.max s.now t
    let ns := n / 2500 * 2500 / 1000
    let body := swapBody (s.loadBytes (aliasBase g.src + 0x4000 + off) len)
    let done := fun (rd : Nat) (v : Nat) (x : Grain) => (({ x with wait := .none } : Grain).put rd (BitVec.ofNat 32 v)).next n
    let goes := fun (rd : Nat) (b : List Nat) (c : Instr) => ∃ u, exec c s = .next u ∧ s.Did g t [.lnk_] (done rd ns) u ∧
      (u.eng e).sent = some (b, n) ∧ (frameType b ≠ 0x11 → u.eng e = { s.eng e with sent := some (b, n) }) ∧
      (∀ first last slot, frameType b = 0x11 → (s.eng e).slot = some (first, last, slot) →
        (u.eng e).slot = none ∧ (u.eng e).readOut = some {
          tag := beField b 3 2, first := first, last := last, slot := slot, instant := n, retry := false })
    let takes := fun (rd : Nat) (f : RxFrame) (c : Instr) => ∃ u o, exec c s = .next u ∧ o + f.body.length % 256 ≤ 0x8000 ∧
      s.Did g t [.fresh_, .lnk_, .mem_, .fab_] (done rd (b2n f.crc * 2 ^ 31 + b2n f.viol * 2 ^ 30 +
        f.body.length % 256 * 2 ^ 22 + o * 2 ^ 7)) u ∧ u.eng e = { s.eng e with rxq := (s.eng e).rxq.tail } ∧
      (∀ i, i < (swapBody f.body).length → (u.byte (aliasBase g.src + 0x4000 + o + i)) =
        BitVec.ofNat 8 ((swapBody f.body).getD i 0)) ∧
      (∀ a, a < aliasBase g.src + 0x4000 + o ∨ aliasBase g.src + 0x4000 + o + (swapBody f.body).length ≤ a →
        u.byte a = s.byte a)
    (s.Ready g → 3 ≤ len → len ≤ 120 → off + len ≤ 0x8000 → s.sound (aliasBase g.src + 0x4000 + off) len = true →
      (frameType body = 0x11 → (s.eng e).slot ≠ none) →
      (frameType body = 0x17 → s.rdB (AQ_PORT_CTL (eng0 (portOf e))) AQ_PORT_CTL_AUTHREQ = false ∧
        ∀ q, s.rd (AQ_NODE_LIM (eng0 (portOf e)) q) AQ_NODE_LIM_BRKL = 0) →
      ((s.eng e).readOut = none → bit imm5.val 0 = false ∨ (s.eng e).launch * 1000 ≤ n →
        goes rd body (.lsend g rd rs1 rs2 imm5 t)) ∧
      (bit imm5.val 0 = true → n < (s.eng e).launch * 1000 →
        s.Does g t [] (fun x => { x with wait := .lsend rd body (s.eng e).launch }) (exec (.lsend g rd rs1 rs2 imm5 t) s))) ∧
    (∀ r b launch, (s.grain g.src).wait = .lsend r b launch → launch * 1000 ≤ n → (s.eng e).readOut = none →
      (frameType b = 0x11 → (s.eng e).slot ≠ none) → goes r b (.lsendLaunch g t)) ∧
    (∀ f fs, (s.eng e).rxq = f :: fs → (s.Ready g → takes rd f (.lrecv g rd rs1 t)) ∧
      ∀ r limit, (s.grain g.src).wait = .lrecv r limit → takes r f (.lrecvComplete g t)) ∧
    (∀ r limit, (s.eng e).rxq = [] → (s.grain g.src).wait = .lrecv r limit → limit < n →
      s.Does g t [] (done r 0) (exec (.lrecvComplete g t) s)) ∧
    (s.Ready g → ∃ u, exec (.lping g rd rs1 t) s = .next u ∧
      s.Did g t [.lnk_] (fun x => { x with wait := .lping rd (off % 65536) n }) u ∧
      u.eng e = { s.eng e with sent := some ([0x13, off / 256 % 256, off % 256], n) }) ∧
    (∀ r a since, (s.grain g.src).wait = .lping r a since →
      ((∀ f ∈ (s.eng e).rxq, ¬ (frameType f.body = 0x83 ∧ frameAddr f.body = a ∧ since ≤ f.at_ ∧ f.crc = true)) →
        since + 100 * us ≤ n → s.Does g t [] (done r (2 ^ 32 - 1)) (exec (.lpingComplete g t) s)) ∧
      (∀ f fs, (s.eng e).rxq = f :: fs → frameType f.body = 0x83 → frameAddr f.body = a → since ≤ f.at_ →
        f.at_ ≤ since + 100 * us → f.crc = true → f.viol = false → ∃ u, exec (.lpingComplete g t) s = .next u ∧
          s.Did g t [.lnk_] (done r ((f.at_ - since) / 2500)) u ∧ u.eng e = { s.eng e with rxq := fs }))

/-- A ready vector grain's vcorr sends its active lanes, channel gs + i, to its block's correlator: all discarded and
counted in IDLEN while RUN is 0 or a clear is in progress, waiting while the 16-entry queue is full, else queued in
order but for channels at or above NCH, which count in RANGEN. The oldest lane adds value x cos and value x sin of its
phase, cos and sin within 2^-30, to C and S of its channel and frequency, and 1 to N, saturating. When a clear ends
BUSY reads 0. (R225, R226, R227) -/
def Obligations.CorrelatorTakesAndAccumulatesLanes : Prop :=
  ∀ (s : State) (v : Fin 16) (rs vs1 vs2 : Fin 32) (pg : Fin 8) (b : Fin 4) (t : Nat),
    let g := GrainId.vec v
    let blk := v.val / 4
    let lanes := (s.activeLanes g.src pg).map (fun i => ({
      chan := (s.gReg g.src rs).toNat + i, value := s.lane g.src vs1 i, instant := s.lane g.src vs2 i } : Lane))
    let busy := s.rdB (ES_CORR_CTL blk) ES_CORR_CTL_RUN = false ∨ s.rdB (ES_CORR_STAT blk) ES_CORR_STAT_BUSY = true
    let inside := lanes.filter (fun l => decide (l.chan < s.rd (ES_CORR_CTL blk) ES_CORR_CTL_NCH))
    let on := fun (x : Grain) => ({ x with wait := .none } : Grain).next (Nat.max s.now t)
    (s.Ready g → busy → ∃ u, exec (.vcorr g rs vs1 vs2 pg t) s = .next u ∧ s.Did g t [.regs_, .lost_] on u ∧
      u.rd (ES_CORR_CNT blk) ES_CORR_CNT_IDLEN = Nat.min (s.rd (ES_CORR_CNT blk) ES_CORR_CNT_IDLEN + lanes.length) 65535) ∧
    (s.Ready g → ¬ busy → (s.corrQueue blk).length < 16 → ∃ u, exec (.vcorr g rs vs1 vs2 pg t) s = .next u ∧
      s.Did g t [.regs_, .lost_, .corr_] on u ∧ u.rd (ES_CORR_CNT blk) ES_CORR_CNT_RANGEN =
        Nat.min (s.rd (ES_CORR_CNT blk) ES_CORR_CNT_RANGEN + (lanes.length - inside.length)) 65535 ∧
      u.corrQueue blk = (if inside = [] then s.corrQueue blk else s.corrQueue blk ++ [inside]) ∧
      (∀ j, j ≠ blk → u.corrQueue j = s.corrQueue j) ∧
      (inside ≠ [] → u.rdB (ES_CORR_STAT blk) ES_CORR_STAT_PEND = true)) ∧
    (s.Ready g → ¬ busy → 16 ≤ (s.corrQueue blk).length → s.Does g t [] (fun x => { x with
      wait := .vcorr (lanes.map (fun l => (l.chan, l.value, l.instant))) }) (exec (.vcorr g rs vs1 vs2 pg t) s)) ∧
    (∀ l ls q, s.corrQueue b = (l :: ls) :: q → s.rd (ES_CORR_CTL b) ES_CORR_CTL_NFRQ = 0 → ∃ u x y,
      let a := s.corrBase b + l.chan * 64
      let m := s.corrBase b + 393216 + l.chan * 4
      let phi := s.rd (ES_CORR_FRQ b 0) ES_CORR_FRQ_FRQ * l.instant % 10 ^ 13
      let sum := fun (f old : Nat) => (f64.fma 0 (f32.convert f64 0 l.value).1 f old 0).1 % 2 ^ 64
      exec (.corrLaneAccumulate b t) s = .next u ∧ (l.chan < 6144 →
        u.loadLE a 8 = sum (cosNear phi (10 ^ 13) x) (s.loadLE a 8) ∧
        u.loadLE (a + 8) 8 = sum (cosNear (4 * phi + 3 * 10 ^ 13) (4 * 10 ^ 13) y) (s.loadLE (a + 8) 8) ∧
        u.loadLE m 4 = Nat.min (s.loadLE m 4 + 1) (2 ^ 32 - 1))) ∧
    (∃ u, exec (.corrClearDone b t) s = .next u ∧ u.rdB (ES_CORR_STAT b) ES_CORR_STAT_BUSY = false ∧
      (∀ a, a ≠ ES_CORR_STAT b → u.reg a = s.reg a) ∧ ∀ p, p ≠ Part.regs_ → p ≠ .lost_ → p.same s u)

/-- A ready vector grain's kcall gives 5 while a kernel is active, 3 for a bad descriptor address, 1 for an ID that names
no kernel, 2 for another version, and with an override continues there with g3 and the return address in g1; else the
kernel becomes active, its code in the overlay, with g3 = gs1. An active kernel ends with its status in gd, the grain
continues after kcall and no kernel is active: 4 for an item count of 0 or above the limit; with sound areas, 0x11 for
parameters or a map out of range, 0x12 for a bad profile, and, all in range and no deadline, its result: 0, for the
filter 0, 0x20 or 0x21, or 0x13 for no newer tag, for the impedance 0x30 or 0x31 while the correlator runs or the
window is bad. (R228, R229, R230, R231, R237, R238, R240) -/
def Obligations.KernelsStartAndEnd : Prop :=
  ∀ (s : State) (v : Fin 16) (rd rs1 : Fin 32) (t : Nat),
    let g := GrainId.vec v
    let a := (s.gReg g.src rs1).toNat
    let x := s.grain g.src
    let id := s.kLoad g.src a 1
    let above := (s.reg (ES_KOVR (v.val / 4) id)).toNat
    let n := Nat.max s.now t
    (s.Ready g →
      (x.kern ≠ none → s.Sets g t rd 5 (exec (.kcall g rd rs1 t) s)) ∧
      (x.kern = none → kernelDescOk g.src a = false → s.Sets g t rd 3 (exec (.kcall g rd rs1 t) s)) ∧
      (x.kern = none → kernelDescOk g.src a = true → s.areaFault g.src .read a 64 = none →
        (id = 0 ∨ 16 ≤ id → s.Sets g t rd 1 (exec (.kcall g rd rs1 t) s)) ∧
        (9 ≤ id → id < 16 → above = 0 → s.Sets g t rd 1 (exec (.kcall g rd rs1 t) s)) ∧
        (1 ≤ id → id < 16 → above ≠ 0 → s.Does g t [] (fun x => (((x.put rd 0).put 3 (BitVec.ofNat 32 a)).put 1
          (x.pc + 4#32)).goto (BitVec.ofNat 32 above) n) (exec (.kcall g rd rs1 t) s)) ∧
        (1 ≤ id → id ≤ 8 → above = 0 → s.kLoad g.src (a + 1) 1 ≠ 1 → s.Sets g t rd 2 (exec (.kcall g rd rs1 t) s)) ∧
        (1 ≤ id → id ≤ 8 → above = 0 → s.kLoad g.src (a + 1) 1 = 1 → s.Does g t [.mem_, .fab_] (fun x => { x.put 3 (BitVec.ofNat 32 a) with
          pc := 0x0801C000#32, overlay := id, wait := .kernel,
          kern := some { id := id, desc := a, rd := rd, ret := ((x.pc).toNat + 4) % 2 ^ 32 } }) (exec (.kcall g rd rs1 t) s)))) ∧
    (∀ k, x.kern = some k → x.run = .running → x.wait = .kernel →
      let d := s.kdesc g.src k.desc
      let ends := fun (c : Instr) (sts : List Nat) => ∃ u st, exec c s = .next u ∧ st ∈ sts ∧ (u.grain g.src).kern = none ∧
        (u.grain g.src).wait = .none ∧ (u.grain g.src).pc = BitVec.ofNat 32 k.ret ∧
        (k.rd ≠ 0 → u.gReg g.src k.rd = BitVec.ofNat 32 st)
      let maps := (List.range d.items).map (s.mapEntry g.src d.map)
      let can := fun (l : List (Access × Nat × Nat)) => ∀ m ∈ [(Access.read, d.prm, 128), (.read, d.map, 8 * d.items),
        (.read, d.chem, 1024)] ++ l, s.areaFault g.src m.1 m.2.1 m.2.2 = none
      let learn := fun (n : Nat) => [(Access.read, d.output, 96 * d.items), (.write, d.output, 96 * d.items),
        (.write, d.state, n * d.items)]
      let valid := 1 ≤ d.items ∧ d.items ≤ 6144 ∧ s.prmOk g.src d.prm = true ∧ (∀ m ∈ maps, m.ok = true) ∧
        (∀ m ∈ maps, (s.chem g.src d.chem m.chem).ok = true) ∧ d.deadline = 0
      let kernels := [(1, Instr.kernelCellStateFilter g t), (2, .kernelCapacity g t), (3, .kernelResistance g t),
        (4, .kernelPowerLimits g t), (5, .kernelImpedance g t), (6, .kernelInternalTemperature g t), (7, .kernelSelfDischarge g t)]
      (∀ c ∈ kernels, c.1 = k.id → d.items = 0 ∨ 6144 < d.items → ends c.2 [4]) ∧
      (valid →
        (k.id = 1 → (∀ top, (∀ m ∈ maps, m.node ≤ top) → (top = 0 ∨ ∃ m ∈ maps, m.node = top) →
            can [(.read, d.input, 64 + 40 * (top + 1)), (.read, d.b, 16 * (top + 1)), (.read, d.state, 96 * d.items),
              (.write, d.state, 96 * d.items)]) →
          ends (.kernelCellStateFilter g t) (if tagNewer (s.kLoad g.src d.input 2)
            (Tab.get none s.est.tags (physOf g.src d.state)) then [0, 0x20, 0x21] else [0x13])) ∧
        (k.id = 2 → can (learn 16) → ends (.kernelCapacity g t) [0]) ∧
        (k.id = 3 → can ((.read, d.input, 64) :: learn 16) → ends (.kernelResistance g t) [0]) ∧
        (k.id = 4 → can [(.read, d.input, 96 * d.items), (.write, d.output, 24 * d.items)] → ends (.kernelPowerLimits g t) [0]) ∧
        (k.id = 5 → can [(.write, d.output, 32 * d.items), (.read, d.a, 417792)] → ends (.kernelImpedance g t)
          (if s.rdB (ES_CORR_CTL (v.val / 4)) ES_CORR_CTL_RUN = true ∨ s.rdB (ES_CORR_STAT (v.val / 4)) ES_CORR_STAT_PEND = true
            then [0x30] else if s.windowBad g.src d = true then [0x31] else [0])) ∧
        (k.id = 6 → can ((.read, d.input, 32 * d.items) :: learn 4) → ends (.kernelInternalTemperature g t) [0]) ∧
        (k.id = 7 → can ((.read, d.input, 4 * d.items) :: learn 16) → ends (.kernelSelfDischarge g t) [0]) ∧
        (k.id = 8 → d.b ≠ 1 → can [(.read, d.input, 96 * d.items), (.read, d.a, 24 * d.items), (.write, d.output, 3072)] →
          ends (.kernelAggregationPartial g t) [0])) ∧
      (k.id = 8 → d.b = 1 → 1 ≤ d.items → d.items ≤ 16 → s.prmOk g.src d.prm = true → d.deadline = 0 →
        (∀ m ∈ [(Access.read, d.prm, 128), (.read, d.input, 3072 * d.items), (.write, d.output, 1664), (.write, d.state, 65536)],
          s.areaFault g.src m.1 m.2.1 m.2.2 = none) → ends (.kernelAggregationFinal g t) [0]) ∧
      (1 ≤ d.items → d.items ≤ 6144 → k.id = 2 → can (learn 16) → s.prmOk g.src d.prm = false → ends (.kernelCapacity g t) [0x11]) ∧
      (1 ≤ d.items → d.items ≤ 6144 → k.id = 2 → can (learn 16) → s.prmOk g.src d.prm = true → (∀ m ∈ maps, m.ok = true) →
        (∃ m ∈ maps, (s.chem g.src d.chem m.chem).ok = false) → ends (.kernelCapacity g t) [0x12]))

/-- A node that is awake and sends no frame of its own repeats each good frame when it is enumerated and restarts its
sleep time; on a command of the right length to its own address, or to 0xFFFF where the table has that form, it acts:
TIME sets local time with the delay of the arrival port, ENUM assigns an UNASSIGNED node and schedules its EACK,
SETDLY stores the delays, RUN mode 1 after a SETDLY enters RUN and mode 0 leaves it, BAL replaces mask and timeout,
OWT arms sinks, AUTH starts or collects the response, WREG writes, PING and RREG are answered, RESET forgets. Every
answer is scheduled 2,000 ns after the command's instant. (R29, R39, R41, R44, R45, R50, R62, R63, R68) -/
def Obligations.NodesObeyCommands : Prop :=
  ∀ (s : State) (p : Fin 18) (i : Fin 64) (body : List Nat) (arr : Fin 2) (t : Nat), s.Hears (nodeKey p i) t →
    let k := nodeKey p i
    let n := s.node k
    let h := { n with repeated := if n.enumerated then some body else n.repeated, lastGood := t }
    let own := n.enumerated = true ∧ frameAddr body = n.addr ∧ n.addr ≠ 0xFFFF
    let all := frameAddr body = 0xFFFF
    let r := beField body 3 1
    let v := beField body 4 4
    let answer := fun (b : List Nat) => { h with answer := some (b, t + 2000000, arr.val) }
    let addr := fun (a : Nat) => [a / 256 % 256, a % 256]
    let off := { h with balMask := 0, balDue := 0 }
    (body.length = 9 → all → n.enumerated = true → s.NodeBecomes k t { h with
      localT := beField body 3 6 * 1000 + (if arr = n.upPort then n.d0 else n.d1) * 1250, localAt := t }
      (exec (.time p i body arr t) s)) ∧
    (body.length = 3 → own → s.NodeBecomes k t (answer ([0x83] ++ addr n.addr)) (exec (.ping p i body arr t) s)) ∧
    (body.length = 7 → all → n.st = .unassigned → s.NodeBecomes k t { (answer ([0x84] ++ addr (beField body 5 2) ++
        beBytes n.serial 8 ++ [n.type, n.cells, n.auxN, n.hw] ++ addr n.fw)) with
      st := .assigned, rep := true, pos := r, port := beField body 4 1, addr := beField body 5 2, upPort := arr.val }
      (exec (.enum p i body arr t) s)) ∧
    (body.length = 7 → own → s.NodeBecomes k t { h with d0 := beField body 3 2, d1 := beField body 5 2, dlySet := true }
      (exec (.setdly p i body arr t) s)) ∧
    (body.length = 4 → own ∨ (all ∧ n.enumerated = true) →
      (r = 1 → n.dlySet = true → s.NodeBecomes k t { h with st := .run } (exec (.run p i body arr t) s)) ∧
      (r = 0 → n.st = .run → s.NodeBecomes k t { off with st := .assigned, held := [], sweep := none, balOff := false }
        (exec (.run p i body arr t) s))) ∧
    (body.length = 7 → own → n.st = .run → n.type = 1 → beField body 3 3 < 2 ^ n.cells →
      popc18 (beField body 3 3) ≤ n.register 4 → s.NodeBecomes k t
        (if beField body 6 1 = 0 then off else { h with balMask := beField body 3 3, balDue := t + beField body 6 1 * sec })
        (exec (.bal p i body true arr t) s)) ∧
    (body.length = 6 → own ∨ (all ∧ n.enumerated = true) → beField body 3 3 < 2 ^ (n.cells + 1) →
      s.NodeBecomes k t { h with owtArm := beField body 3 3 } (exec (.owt p i body arr t) s)) ∧
    (body.length = 15 → own →
      (n.nonce ≠ some (body.drop 3) → s.NodeBecomes k t { h with
        nonce := some (body.drop 3), authDue := t + ms, authDone := false } (exec (.auth p i body arr t) s)) ∧
      (∀ key, n.nonce = some (body.drop 3) → n.key = some key → n.authDone = true → s.NodeBecomes k t
        (answer ([0x85] ++ addr n.addr ++ beBytes (Config.aesCmac key
          (body.drop 3 ++ beBytes n.serial 8 ++ [n.port % 256, n.pos % 256]) / 2 ^ 64 % 2 ^ 64) 8))
        (exec (.auth p i body arr t) s))) ∧
    (body.length = 8 → own → ((r = 1 ∧ v < 256) ∨ (r = 2 ∧ n.type ≠ 1 ∧ 250 ≤ v ∧ v ≤ 4000) ∨
      (r = 3 ∧ n.type = 3 ∧ v < 65536 ∧ 1 ≤ v / 256 ∧ v % 256 ≤ 1) ∨ (r = 4 ∧ 1 ≤ v ∧ v ≤ 18) ∨ (0x10 ≤ r ∧ r < 0x20)) →
      s.NodeBecomes k t { h with regs := Tab.put n.regs r v } (exec (.wreg p i body arr t) s)) ∧
    (body.length = 4 → own → (r = 0 ∨ r = 1 ∨ (r = 2 ∧ n.type ≠ 1) ∨ (r = 3 ∧ n.type = 3) ∨ r = 4 ∨ (0x10 ≤ r ∧ r < 0x20)) →
      s.NodeBecomes k t (answer ([0x86] ++ addr n.addr ++ [r] ++ beBytes
        (if r = 0 then n.type + n.cells * 2 ^ 8 + n.auxN * 2 ^ 16 else n.register r) 4)) (exec (.rreg p i body arr t) s)) ∧
    (body.length = 3 → own ∨ all → s.NodeBecomes k t { off with
      st := .unassigned, rep := false, pos := 0, addr := 0, d0 := 0, d1 := 0, dlySet := false, owtArm := 0, sweep := none,
      held := [], slot := none, answer := none, balOff := false, cmdCrc := 0 } (exec (.reset p i body arr t) s))

/-- An awake node that sends no frame answers a command to its own address, 2,000 ns later, with NAK 0x06 for an unlisted
type; NAK 0x03 for a RUN mode 1 without a SETDLY, a BAL mask beyond its cells or BALMAX, an OWT line it lacks, a
register it lacks or a value out of range; NAK 0x01 for a BAL outside RUN; NAK 0x04 for a pattern its circuit cannot
carry; NAK 0x05 for an AUTH without a key; NAK 0x07 for one not yet computed. A listed command of another length, and
an unlisted one to 0xFFFF, is ignored but for the repetition and the sleep time; a frame with a bad CRC is counted; a
sleeping or sending node takes no notice. (R29, R30, R31, R39, R40, R41, R44, R45, R63) -/
def Obligations.NodesRefuseWithNak : Prop :=
  ∀ (s : State) (p : Fin 18) (i : Fin 64) (body : List Nat) (arr : Fin 2) (t : Nat),
    let k := nodeKey p i
    let n := s.node k
    let r := beField body 3 1
    let v := beField body 4 4
    let mask := beField body 3 3
    let rest := { n with repeated := if n.enumerated then some body else n.repeated, lastGood := t }
    let own := n.enumerated = true ∧ frameAddr body = n.addr ∧ n.addr ≠ 0xFFFF
    let nak := fun (ty reason : Nat) (c : Instr) => s.NodeBecomes k t
      { rest with answer := some ([0x87, n.addr / 256 % 256, n.addr % 256, ty % 256, reason], t + 2000000, arr.val) } (exec c s)
    let silent := fun (c : Instr) => s.NodeBecomes k t rest (exec c s)
    (s.Hears k t → own →
      nak (frameType body) 6 (.nodeUnknownCommand p i body arr t) ∧
      (body.length = 4 → r = 1 → n.dlySet = false → nak 0x16 3 (.run p i body arr t)) ∧
      (body.length = 7 → ∀ carries, (n.st ≠ .run → nak 0x17 1 (.bal p i body carries arr t)) ∧
        (n.st = .run → n.type ≠ 1 ∧ mask ≠ 0 ∨ n.type = 1 ∧ 2 ^ n.cells ≤ mask ∨ n.register 4 < popc18 mask →
          nak 0x17 3 (.bal p i body carries arr t)) ∧
        (n.st = .run → n.type = 1 → mask < 2 ^ n.cells → popc18 mask ≤ n.register 4 → nak 0x17 4 (.bal p i body false arr t))) ∧
      (body.length = 6 → 2 ^ (n.cells + 1) ≤ mask → nak 0x18 3 (.owt p i body arr t)) ∧
      (body.length = 15 → n.nonce = some (body.drop 3) →
        (n.key = none → nak 0x19 5 (.auth p i body arr t)) ∧
        (n.key ≠ none → n.authDone = false → nak 0x19 7 (.auth p i body arr t))) ∧
      (body.length = 8 → (r = 0 ∨ (5 ≤ r ∧ r < 0x10) ∨ 0x20 ≤ r ∨ (r = 4 ∧ (v = 0 ∨ 18 < v)) ∨ (r = 1 ∧ 256 ≤ v) ∨
        (r = 2 ∧ (n.type = 1 ∨ v < 250 ∨ 4000 < v)) ∨ (r = 3 ∧ n.type ≠ 3)) → nak 0x1A 3 (.wreg p i body arr t)) ∧
      (body.length = 4 → ((5 ≤ r ∧ r < 0x10) ∨ 0x20 ≤ r ∨ (r = 2 ∧ n.type = 1) ∨ (r = 3 ∧ n.type ≠ 3)) →
        nak 0x1B 3 (.rreg p i body arr t))) ∧
    (s.Hears k t →
      (body.length ≠ 3 → silent (.ping p i body arr t) ∧ silent (.reset p i body arr t)) ∧
      (body.length ≠ 4 → silent (.run p i body arr t) ∧ silent (.rreg p i body arr t)) ∧
      (body.length ≠ 7 → silent (.setdly p i body arr t) ∧ silent (.enum p i body arr t) ∧ ∀ c, silent (.bal p i body c arr t)) ∧
      (frameAddr body = 0xFFFF → silent (.nodeUnknownCommand p i body arr t) ∧ silent (.ping p i body arr t)) ∧
      s.NodeBecomes k t { n with repeated := rest.repeated, cmdCrc := Nat.min (n.cmdCrc + 1) 255 }
        (exec (.nodeBadCrcFrame p i body arr t) s)) ∧
    (¬ s.Hears k t → s.NodeBecomes k t n (exec (.ping p i body arr t) s) ∧
      s.NodeBecomes k t n (exec (.nodeUnknownCommand p i body arr t) s) ∧
      s.NodeBecomes k t n (exec (.reset p i body arr t) s) ∧ s.NodeBecomes k t n (exec (.nodeBadCrcFrame p i body arr t) s))

/-- A node in RUN executes a SAMPLE whose target lies 10 us to 100 ms ahead and after the previous sweep's conversions,
with balancing off until the last conversion, and otherwise sets LATE. On each clear step it converts the next
channel; after the last one it holds the tag, with the one before, and balances again. A READ whose first-to-last
range holds its position schedules its response at 2,000 ns plus (position - first) slots; at that instant it sends
its record, or NAK 0x02 for a tag it does not hold, and a sent record clears LATE and the reported stream. (R57) -/
def Obligations.NodesSampleAndAnswerReads : Prop :=
  ∀ (s : State) (p : Fin 18) (i : Fin 64) (body : List Nat) (arr : Fin 2) (t : Nat),
    let k := nodeKey p i
    let n := s.node k
    let h := { n with repeated := some body, lastGood := t }
    let now := n.localAtPs t / 1000
    let target := now + (beField body 5 6 + 2 ^ 48 - now % 2 ^ 48) % 2 ^ 48
    let tag := beField body 3 2
    let ctl := beField body 19 1
    (s.Hears k t → n.st = .run → frameAddr body = 0xFFFF → body.length = 20 →
      ((now + 10000 ≤ target ∧ target ≤ now + 100000000) → (∀ w, n.sweep = some w → w.endNs n ≤ target) →
        s.NodeBecomes k t { h with balOff := true, sweep := some {
          tag := tag, target := target, mask := beField body 11 8, auxEn := bit ctl 0, owt := bit ctl 1 && n.owtArm != 0,
          res := { tag := tag, owtAct := bit ctl 1 && n.owtArm != 0 } } } (exec (.sample p i body arr t) s)) ∧
      (target < now + 10000 ∨ now + 100000000 < target ∨ (∃ w, n.sweep = some w ∧ target < w.endNs n) →
        s.NodeBecomes k t { h with late := true } (exec (.sample p i body arr t) s))) ∧
    (s.Hears k t → n.st = .run → frameAddr body = 0xFFFF → body.length = 9 → tag ≠ 0xFFFF ∨ n.type ≠ 1 →
      beField body 7 1 ≤ n.pos → n.pos ≤ beField body 8 1 → s.NodeBecomes k t { h with slot := some (tag,
        (tag == 0xFFFF || n.held.any (fun d => d.tag == tag)),
        t + 2000000 + (n.pos - beField body 7 1) * beField body 5 2 * 10000, arr.val) } (exec (.read p i body arr t) s)) ∧
    (∀ tg ok due port, n.slot = some (tg, ok, due, port) → due ≤ t →
      (ok = false → s.NodeBecomes k t { n with
        slot := none, sendEnd := t + 58 * 20000, sent := some ([0x87, n.addr / 256 % 256, n.addr % 256, 0x11, 2], t) } (exec (.nodeSlotResponse p i t) s)) ∧
      (ok = true → ∃ b, b.take 5 = [if n.type = 1 then 0x80 else 0x7F + n.type, n.addr / 256 % 256, n.addr % 256,
          tg / 256 % 256, tg % 256] ∧ b.length = (if n.type = 1 then 67 else 96) ∧
        s.NodeBecomes k t { n with
          slot := none, late := false, stream := [], discarded := 0, sent := some (b, t), sendEnd := t + (8 * (b.length + 2) + 2) * 20000 } (exec (.nodeSlotResponse p i t) s))) ∧
    (∀ w val st, n.sweep = some w → st = clearStep w.mask w.step 64 → w.target + 4000 * st ≤ now →
      (w.done < n.channels → s.NodeBecomes k t { n with sweep := some { w with
        done := w.done + 1, step := st + 1, res := { w.res with vals := Tab.set 0 w.res.vals w.done val } } }
        (exec (.nodeConversionStep p i val t) s)) ∧
      (n.channels ≤ w.done → n.type = 1 → w.auxEn = true → w.done < n.channels + n.auxN →
        s.NodeBecomes k t { n with sweep := some { w with done := w.done + 1, step := st + 1, res := { w.res with
          aux := Tab.set 0 w.res.aux (w.done - n.channels) val, auxFresh := true } } }
          (exec (.nodeConversionStep p i val t) s))) ∧
    (∀ w stack temp fuse, n.sweep = some w → n.channels + (if w.auxEn = true ∧ n.type = 1 then n.auxN else 0) ≤ w.done →
      ∃ flt hot, s.NodeBecomes k t { n with
        nodeFlt := flt, nodeHot := hot, sweep := none, balOff := false, fuse := fuse, owtArm := if w.owt then 0 else n.owtArm, held := { w.res with stack := stack, aux := Tab.set 0 w.res.aux 8 temp } :: n.held.take 1 }
        (exec (.nodeSweepConversionsEnd p i stack temp fuse t) s))

/-- At its instant a scheduled answer is sent and the node is busy until the frame's end; a sense node's stream keeps its
latest 16 unreported samples and counts the older ones; the authentication response completes; the balancing timeout
stops balancing; 2.0 s after the last good frame a node sleeps, forgetting position and delays; a wake tone is relayed
and wakes a sleeping node to UNASSIGNED; a bus sense node measures insulation at its interval; a node powers up
UNASSIGNED with its registers at their reset values. (R41, R44, R45, R61, R63, R66, R67, R68) -/
def Obligations.NodesActOnTheirOwn : Prop :=
  ∀ (s : State) (p : Fin 18) (i : Fin 64) (arr : Fin 2) (t : Nat),
    let k := nodeKey p i
    let n := s.node k
    let off := { n with balMask := 0, balDue := 0 }
    (∀ body due port, n.answer = some (body, due, port) → due ≤ t → s.NodeBecomes k t { n with
      answer := none, sent := some (body, t), sendEnd := t + (8 * (body.length + 2) + 2) * 20000 } (exec (.nodeAnswerSend p i t) s)) ∧
    (∀ cur, n.type ≠ 1 → n.stream.length < 16 → s.NodeBecomes k t { n with
      stream := n.stream ++ [cur], streamAt := if n.stream = [] then n.localAtPs t / 1000 % 2 ^ 48 else n.streamAt } (exec (.nodeStreamSample p i cur t) s)) ∧
    (∀ cur, n.type ≠ 1 → n.stream.length = 16 → s.NodeBecomes k t { n with
      stream := n.stream.tail ++ [cur], streamAt := (n.streamAt + n.register 2 * 250) % 2 ^ 48, discarded := Nat.min (n.discarded + 1) 255 }
      (exec (.nodeStreamSample p i cur t) s)) ∧
    (n.nonce ≠ none → s.NodeBecomes k t { n with authDone := true } (exec (.nodeAuthComputeDone p i t) s)) ∧
    (n.balMask ≠ 0 → n.balDue ≤ t → s.NodeBecomes k t off (exec (.nodeBalTimeout p i t) s)) ∧
    (n.st ≠ .sleep → n.lastGood + 2 * sec ≤ t → s.NodeBecomes k t { off with
      st := .sleep, rep := false, pos := 0, addr := 0, d0 := 0, d1 := 0, dlySet := false, owtArm := 0, sweep := none,
      held := [], slot := none, answer := none, balOff := false } (exec (.nodeSleepTimeout p i t) s)) ∧
    (t < n.lastGood + 2 * sec → s.NodeBecomes k t n (exec (.nodeSleepTimeout p i t) s)) ∧
    s.NodeBecomes k t (if n.st = .sleep then { n with st := .unassigned, rep := false, lastGood := t, relayAt := some t }
      else { n with relayAt := some t }) (exec (.nodeWakeTone p i arr t) s) ∧
    (∀ rpos rneg ok, n.type = 3 → n.register 3 % 2 = 1 → n.isoAt + n.register 3 / 256 * sec ≤ t → s.NodeBecomes k t
      (if ok = true then { n with isoState := 2, isoP := rpos % 2 ^ 32, isoN := rneg % 2 ^ 32, isoAt := t }
        else { n with isoState := 3, isoAt := t }) (exec (.nodeInsulationMeasure p i rpos rneg ok t) s)) ∧
    (∀ (kind : Fin 4) (cells : Fin 19) (auxN : Fin 9) serial key, ∃ m : Node, m.st = .unassigned ∧ m.rep = false ∧
      m.type = kind ∧ m.cells = cells ∧ m.auxN = auxN ∧ m.serial = serial % 2 ^ 64 ∧ m.key = key ∧ m.lastGood = t ∧
      m.register 1 = 0 ∧ m.register 2 = 250 ∧ m.register 3 = 0x0A01 ∧ m.register 4 = 18 ∧ m.sweep = none ∧ m.held = [] ∧
      s.NodeBecomes k t m (exec (.nodePowerUp p i kind cells auxN serial key t) s))

/-- A record that meets every condition of acceptance is copied to SF, its position holds the tag and is neither missing
nor stale; one with a bad CRC leaves the position missing and sets CRCERR; a NAK that meets the conditions on CRC,
address and instant leaves it missing and sets NAK. A PONG of the calibration adds its round trip and the next PING
goes out; a good EACK keeps the serial and type and the next position is tried; an RREP after a bad EACK resets the
node and tries again; a good ARSP authenticates its position and the next one follows. A frame nobody waits for is
counted, stamped and kept for lrecv. (R46, R47, R49, R60, R68, R69, R73, R89, R90) -/
def Obligations.EnginesTakeResponses : Prop :=
  ∀ (s : State) (k : Fin 20) (body : List Nat) (t : Nat),
    let n := Nat.max s.now t
    let p := portOf k
    let e := s.eng k
    let gives := fun (c : Instr) (P : State → Prop) => ∃ u, exec c s = .next u ∧ P u
    let records := fun (crc viol : Bool) (P : State → Prop) => gives (.crec k body crc viol t) P ∧ gives (.srec k body crc viol t) P ∧
      gives (.brec k body crc viol t) P
    (∀ r q, e.readOut = some r → q = (s.at t).slotPos k r → r.tag = 0xFFFF ∨ (s.pos p q).gotTag ≠ some r.tag →
      (frameType body = 0x7F + s.nodeType p q → 1 ≤ s.nodeType p q → body.length = recordLen (s.nodeType p q) →
        frameAddr body = s.addrOf p q → n ≤ (s.at t).slotExpected k r q + 500000 → (s.at t).slotExpected k r q ≤ n + 500000 → beField body 3 2 = r.tag →
        records true false (fun u => u.lnk.sfCopies.getLast? = some (p, q, body) ∧ (r.tag ≠ 0xFFFF →
          (u.pos p q).gotTag = some r.tag ∧ ((u.pos p q).indet = false →
            (u.pos p q).missing = false ∧ (u.pos p q).staleSince = none)))) ∧
      (∀ viol, records false viol (fun u => u.rdB (AQ_PORT_EVT k) AQ_PORT_EVT_CRCERR = true ∧
        (r.tag ≠ 0xFFFF → (u.pos p q).missing = true))) ∧
      (body.length = 5 → frameAddr body = s.addrOf p q → n ≤ (s.at t).slotExpected k r q + 500000 → (s.at t).slotExpected k r q ≤ n + 500000 →
        gives (.nak k body true false t) (fun u => u.rdB (AQ_PORT_EVT k) AQ_PORT_EVT_NAK = true ∧
          (r.tag ≠ 0xFFFF → (u.pos p q).missing = true)))) ∧
    (∀ crc viol, e.pingOut = none → e.enumPos = none → e.authPos = 0 →
      let kept := fun (u : State) => u.eng k = { e with
        rxq := e.rxq ++ [{ body := body, crc := crc, viol := viol, at_ := n }], rxN := (e.rxN + 1) % 2 ^ 32,
        rxAt := n / 2500 * 2500 / 1000 }
      gives (.pong k body crc viol t) kept ∧ gives (.eack k body crc viol t) kept ∧ gives (.rrep k body crc viol t) kept ∧
        gives (.arsp k body crc viol t) kept) ∧
    (∀ q t0, e.pingOut = some (q, t0) → e.locate ≠ some q → frameType body = 0x83 → frameAddr body = s.addrOf p q →
      e.pingN + 1 < 2 ^ s.rd (AQ_PORT_CTL k) AQ_PORT_CTL_PINGAVG → gives (.pong k body true false t) (fun u =>
        (u.eng k).pingN = e.pingN + 1 ∧ (u.eng k).pingSum = e.pingSum + (n - t0) / 2500 * 2500 ∧
        (u.eng k).pingOut = some (q, n) ∧ (u.eng k).sent = some (bodyPing (s.addrOf p q), n))) ∧
    (∀ q, e.enumPos = some q → frameType body = 0x84 → body.length = 17 → frameAddr body = s.addrOf p q → q < 64 →
      gives (.eack k body true false t) (fun u => (u.eng k).found = q ∧ (u.eng k).enumPos = some (q + 1) ∧
        (u.eng k).enumTry = 0)) ∧
    (∀ q, e.enumPos = some q → gives (.eack k body false false t) (fun u =>
      u.rdB (AQ_PORT_EVT k) AQ_PORT_EVT_CRCERR = true ∧ (u.eng k).enumProbe = true ∧
      (u.eng k).sent = some ([0x1B] ++ beBytes (s.addrOf p q) 2 ++ [0], n))) ∧
    (∀ q, e.enumPos = some q → e.enumProbe = true → e.enumTry < 2 → frameType body = 0x86 → frameAddr body = s.addrOf p q →
      gives (.rrep k body true false t) (fun u => (u.eng k).enumPos = some q ∧ (u.eng k).enumTry = e.enumTry + 1 ∧
        (u.eng k).enumProbe = false ∧ (u.eng k).sent = some (bodyEnum p q (s.addrOf p q), n))) ∧
    (0 < e.authPos → (s.pos p e.authPos).collecting = true → frameType body = 0x85 → frameAddr body = s.addrOf p e.authPos →
      (s.at t).authCheck p e.authPos (beField body 3 8) = true → s.portState k ≠ 4 → e.authPos + 1 ≤ s.portNodes p →
      e.authPos ≤ 64 → gives (.arsp k body true false t) (fun u => u.nodeAuth p e.authPos = true ∧ (u.eng k).authPos = e.authPos + 1))

/-- A write of WAKE sends a 500 us wake tone; a closing slot window ends the READ and leaves each of its positions that
did not answer missing; one retry READ spans the lowest to the highest missing position of a chain; its lowest missing
position is pinged, and a PING without a PONG for 100 us locates the break below it; a stale age beyond t_stale raises
source 11 once; TIME markers, the recalibration, the enumeration from position 1 with RESET, the repeated ENUM after
50 us, the authentication round (or its wait for a gap) and the collecting AUTH after 1 ms are sent when they are due;
a ring's end 1 that misses an end-0 frame suspects a break and clears ENDSEEN, and one that sees it sets ENDSEEN.
(R28, R46, R48, R51, R60, R67, R69, R89, R90, R92, R94, R95) -/
def Obligations.EnginesActAtTheirTimes : Prop :=
  ∀ (s : State) (k : Fin 20) (t : Nat),
    let n := Nat.max s.now t
    let p := portOf k
    let e := s.eng k
    let gives := fun (c : Instr) (P : State → Prop) => ∃ u, exec c s = .next u ∧ P u
    let missed := fun (r : ReadOut) (q : Nat) => r.first ≤ q ∧ q ≤ r.last ∧ (s.pos p q).gotTag ≠ some r.tag
    (∀ r, e.readOut = some r → r.tag ≠ 0xFFFF → k.val < 16 → gives (.slotWindowClose k t) (fun u =>
      (u.eng k).readOut = none ∧ (u.eng k).lastRead = some r ∧
      ∀ q, missed r q → q ∉ r.seen → 1 ≤ r.first → (u.pos p q).missing = true)) ∧
    (∀ r, e.lastRead = some r → e.readOut = none → r.tag ≠ 0xFFFF → r.retry = false → k.val < 16 → r.last ≤ 64 →
      (∃ q, missed r q) → gives (.retryRead k t) (fun u => ∃ lo hi, (∀ q, missed r q → lo ≤ q ∧ q ≤ hi) ∧
        missed r lo ∧ missed r hi ∧ (u.eng k).readOut = some {
          tag := r.tag, first := lo, last := hi, slot := r.slot, instant := n, retry := true } ∧ (u.eng k).sent = some (bodyRead r.tag r.slot lo hi, n))) ∧
    (∀ m, k.val < 16 → e.locate = none → s.nextMissing k 0 = some m → e.readOut = none →
      s.rdB (AQ_PORT_BRK k) AQ_PORT_BRK_BRKVALID = false → gives (.chainBreakLocate k t) (fun u =>
        (u.eng k).locate = some m ∧ (u.eng k).pingOut = some (m, n) ∧ (u.eng k).sent = some (bodyPing (s.addrOf p m), n))) ∧
    (∀ m q t0, k.val < 16 → e.locate = some m → e.pingOut = some (q, t0) → t0 + 100 * us ≤ n → 1 ≤ m → m ≤ 64 →
      gives (.chainBreakLocate k t) (fun u => u.rdB (AQ_PORT_BRK k) AQ_PORT_BRK_BRKVALID = true ∧
        u.rd (AQ_PORT_BRK k) AQ_PORT_BRK_BRKPOS = m - 1 ∧ (u.eng k).locate = none)) ∧
    (∀ (pp : Fin 18) (i : Fin 64) t0, (s.pos pp (i.val + 1)).staleSince = some t0 → (s.pos pp (i.val + 1)).staleActed = false →
      t0 * 1000 + s.tStale < n → i.val + 1 ≤ s.portNodes pp → s.portEn pp = true → gives (.nodeStaleTimeout pp i t) (fun u =>
        (u.pos pp (i.val + 1)).staleActed = true ∧ ∃ v, u.trip.inbox = s.trip.inbox ++ [v] ∧ v.src = 11 ∧ v.on = true)) ∧
    (s.commands k = true → s.rdB (AQ_PORT_CTL k) AQ_PORT_CTL_MKEN = true → e.readOut = none →
      e.timeAt + s.rd (AQ_PORT_CTL k) AQ_PORT_CTL_TMKPER * 100 * us ≤ n → gives (.timeMarker k t) (fun u =>
        u.eng k = { e with timeAt := n, sent := some (bodyTime (n / 2500 * 2500 / 1000), n) })) ∧
    (∀ ring, k.val < 16 → 5 ≤ s.portState k → s.portEn p = true → e.readOut = none → e.pingOut = none → 1 ≤ s.portNodes p →
      gives (.recalibration k ring t) (fun u => (u.eng k).pingOut = some (1, n) ∧ (u.eng k).pingN = 0 ∧
        (u.eng k).pingSum = 0 ∧ (u.eng k).sent = some (bodyPing (s.addrOf p 1), n))) ∧
    (s.rdB (AQ_PORT_CTL k) AQ_PORT_CTL_EN = true → (∀ t0 w, e.wake = some (t0, w) → t0 + 15 * ms ≤ n) →
      gives (.portEnumeration k 1 t) (fun u => u.rd (AQ_PORT_STAT k) AQ_PORT_STAT_STATE = 2 ∧ u.rdB (AQ_PORT_STAT k) AQ_PORT_STAT_DLYVALID = false ∧
        (u.eng k).enumPos = some 1 ∧ (u.eng k).enumFirst = 1 ∧ (u.eng k).enumTry = 0 ∧
        (u.eng k).sent = some (bodyEnum p 1 (s.addrOf p 1), n))) ∧
    (∀ src v row, (s.at t).Admits (AQ_PORT_CTL k) (AQ_PORT_CTL_WAKE.put (BitVec.ofNat 32 v) 1).toNat row →
      (s.rdB (AQ_PORT_CTL k) AQ_PORT_CTL_EN = true → AQ_PORT_CTL_EN.get (BitVec.ofNat 32 v) = 1) →
      gives (.wake src k v t) (fun u => u.eng k = { e with wake := some (n, 500) } ∧
        u.rd (AQ_PORT_STAT k) AQ_PORT_STAT_STATE = 1)) ∧
    (∀ q, e.enumPos = some q → e.enumAt + 50 * us ≤ n → e.enumTry < 2 → gives (.enumEackTimeout k t) (fun u =>
      (u.eng k).enumPos = some q ∧ (u.eng k).enumTry = e.enumTry + 1 ∧
      (u.eng k).sent = some (bodyEnum p q (s.addrOf p q), n))) ∧
    (s.rdB (AQ_PORT_CTL k) AQ_PORT_CTL_AUTHREQ = true → 1 ≤ s.rd (AQ_PORT_CTL k) AQ_PORT_CTL_AUTHPER →
      5 ≤ s.portState k → e.authAt + s.rd (AQ_PORT_CTL k) AQ_PORT_CTL_AUTHPER * 60 * sec ≤ n → e.authPos = 0 →
      (1 ≤ s.portNodes p → gives (.authPeriod k true t) (fun u => (u.eng k).authPos = 1 ∧ ∃ nonce, nonce < 2 ^ 96 ∧
        (u.pos p 1).nonce = some nonce ∧ (u.pos p 1).authAt = n ∧ (u.eng k).sent = some (bodyAuth (s.addrOf p 1) nonce, n))) ∧
      (e.authBlocked = false → gives (.authPeriod k false t) (fun u => (u.eng k) = { e with authBlocked := true }))) ∧
    (∀ nonce, 0 < e.authPos → (s.pos p e.authPos).nonce = some nonce → (s.pos p e.authPos).collecting = false →
      (s.pos p e.authPos).authAt + ms ≤ n → gives (.authCollect k t) (fun u => (u.pos p e.authPos).collecting = true ∧
        (u.pos p e.authPos).authAt = n ∧ (u.eng k).sent = some (bodyAuth (s.addrOf p e.authPos) nonce, n))) ∧
    (∀ ring : Fin 2, let k0 := eng0 (16 + ring.val)
      s.portEn (16 + ring.val) = true → s.rdB (AQ_PORT_CTL (k0 + 1)) AQ_PORT_CTL_EN = true → (s.eng k0).twoEnd = none →
      (∀ b t0, (s.eng k0).sent = some (b, t0) → t0 + (s.eng (k0 + 1)).tRing + us ≤ n →
        gives (.ringEnd0FrameTimeout ring t) (fun u => (u.eng (k0 + 1)).suspect = true ∧
          u.rdB (AQ_PORT_STAT k0) AQ_PORT_STAT_ENDSEEN = false ∧ u.rdB (AQ_PORT_STAT (k0 + 1)) AQ_PORT_STAT_ENDSEEN = false)) ∧
      (∀ body, frameType body ≠ 0x14 → gives (.ringEnd0FrameAtEnd1 ring body true t) (fun u =>
        u.rdB (AQ_PORT_STAT k0) AQ_PORT_STAT_ENDSEEN = true ∧ u.rdB (AQ_PORT_STAT (k0 + 1)) AQ_PORT_STAT_ENDSEEN = true ∧
        (u.eng (k0 + 1)).rxq = (s.eng (k0 + 1)).rxq ++ [{ body := body, crc := true, viol := false, at_ := n }])))

/-- A held descriptor is delivered, with its merges, once an entry is free; a scrub pass notes its instant and a corrected
word its address; a beat sent again counts as correctable, a corrected bit too; the end of a unit's sources, a locked-
up grain (quarantined, inbox empty), a wait that ends and a grain's restart at its reset vector follow R168 to R171; a
source active for TACTMAX escalates a grain, which stays quarantined; a counter at 2^48 wraps and counts in OVFN; a
deadline passed sets MISS and posts its descriptor; an expired watchdog resets CT; a lost VC0 beat starts the reset
pre-sequence of cause 6. (R158, R161, R162, R166, R168, R169, R170, R171, R174, R175, R176, R13) -/
def Obligations.FaultsAreClassedAndRecovered : Prop :=
  ∀ (s : State) (t : Nat),
    let n := Nat.max s.now t
    let gives := fun (c : Instr) (P : State → Prop) => ∃ u, exec c s = .next u ∧ P u
    let last := fun (u : State) (src cls level code : Nat) => u.rd FB_FLT_LAST FB_FLT_LAST_SRC = src % 4096 ∧
      u.rd FB_FLT_LAST FB_FLT_LAST_CLASS = cls ∧ u.rd FB_FLT_LAST FB_FLT_LAST_LEVEL = level ∧
      u.rd FB_FLT_LAST FB_FLT_LAST_CODE = code
    (∀ src dest h, src < 4096 → dest < 4096 → Tab.get none s.fab.held (src * 4096 + dest) = some h →
      (s.grain dest).inbox.length < (if h.desc.w0.toNat / 2 ^ 28 = 2 then 16 else 14) →
      gives (.inboxHoldRelease src dest t) (fun u => (u.grain dest).inbox = (s.grain dest).inbox ++ [h.out] ∧
        Tab.get none u.fab.held (src * 4096 + dest) = none ∧ (∀ g, g ≠ dest → u.grain g = s.grain g) ∧
        s.Raised u srcFault EV_FB_INBOX_HELD [src, h.merges])) ∧
    (gives (.sramScrub [] [] t) (fun u => u = { s.at t with fab := { s.fab with sramScrubAt := n } })) ∧
    (∀ a, gives (.sramScrub [a] [] t) (fun u => u.fab.sramScrubAt = n ∧ last u (memUnit a) 0 0 EV_FB_ECC_CORR ∧
      u.rdB FB_FLT_EVT FB_FLT_EVT_CORR = true ∧ ∀ b, u.byte b = s.byte b)) ∧
    (∀ a, unitLevel (memUnit a) ≠ 0 → gives (.sramScrub [] [a] t) (fun u => u.fab.sramScrubAt = n ∧
      Tab.get false u.fab.poison (a / 8) = true ∧ u.rdB FB_FLT_EVT FB_FLT_EVT_RECOV = true)) ∧
    (∀ x (k : Fin 5), k.val < 4 → gives (.beatParityFail x k t) (fun u => last u x 0 (unitLevel x) EV_FB_REPLAY ∧
      u.rdB FB_FLT_EVT FB_FLT_EVT_CORR = true ∧ u.grains = s.grains)) ∧
    (∀ x, s.sv.resetAt = none → s.trip.pwHoldAt = none → s.trip.preseqAt = none → s.led.commit = false →
      gives (.vc0BeatLost x t) (fun u => u.sv.cause = 6)) ∧
    (∀ x a h, gives (.faultReport .singleBit x a h t) (fun u => last u (memUnit a) 0 0 EV_FB_ECC_CORR)) ∧
    (∀ x a h, gives (.faultReport .sourceEnds x a h t) (fun u => (u.unit x).active = [] ∧ u.regs = s.regs)) ∧
    (∀ (g : GrainId), (s.grain g.src).run = .running → (s.grain g.src).wait = .none → (s.grain g.src).retired + 2 ^ 20 * islandCycle g.src ≤ n →
      gives (.grainLockup g.src t) (fun u => (u.grain g.src).run = .quarantined ∧ (u.grain g.src).inbox = [])) ∧
    (∀ x due, (s.unit x).phase = .waiting due → due ≤ n → unitLevel x ≠ 1 → gives (.recoveryWaitEnd x t) (fun u =>
      (u.unit x).phase = .restarting n ∧ u.grains = s.grains ∧ u.regs = s.regs ∧ u.mem = s.mem)) ∧
    (∀ (g : GrainId) t0, (s.unit g.src).phase = .restarting t0 → s.sourceActive g.src = false → unitLevel g.src = 0 →
      (s.grain g.src).run = .quarantined → s.instrPoisoned g.src = false → s.mustEnumerate g.src = false →
      gives (.restartComplete g.src t) (fun u => u.grain g.src = { run := .running, retired := n } ∧
        (u.unit g.src).phase = .none ∧ ∀ a, aliasBase g.src + instrBytes g.src ≤ a →
          a < aliasBase g.src + localBytes g.src → u.byte a = memDefault a)) ∧
    (∀ x c t0, unitLevel x = 0 → (c, t0) ∈ (s.unit x).active →
      t0 + s.rd FB_FLT_CFG FB_FLT_CFG_TACTMAX * 10 * ms ≤ n → (s.grain x).run ≠ .unstarted →
      gives (.faultSourceTimeout x t) (fun u => (u.unit x).phase = .stays ∧ (u.unit x).active = [] ∧
        (u.grain x).run = .quarantined ∧ u.rdB FB_FLT_EVT FB_FLT_EVT_ESCAL = true)) ∧
    (∀ (k : Fin 64), 2 ^ 48 ≤ Tab.get 0 s.fab.pmon k.val → s.rdB (FB_PMON_SEL k) FB_PMON_SEL_OVFPOST = false →
      gives (.pmonWrap k t) (fun u => Tab.get 0 u.fab.pmon k.val = Tab.get 0 s.fab.pmon k.val - 2 ^ 48 ∧
        u.rd (FB_PMON_CNTHI k) FB_PMON_CNTHI_OVFN = satAdd (s.rd (FB_PMON_CNTHI k) FB_PMON_CNTHI_OVFN) 1 255 ∧
        u.grains = s.grains)) ∧
    (∀ (g : Fin 8) (k : Fin 16) (d : DlSlot), Tab.get {} (s.grain (ctlSrc g)).dl k.val = d → d.armed = true → d.missed = false →
      d.due ≤ n → bit (s.reg (FB_DL_ESC (g.val / 2))).toNat (g.val % 2 * 16 + k.val) = false →
      gives (.deadlineMiss g k t) (fun u => (Tab.get {} (u.grain (ctlSrc g)).dl k.val).missed = true ∧
        u.rd FB_DL_STAT ⟨g, g⟩ = 1 ∧ u.rdB FB_FLT_EVT FB_FLT_EVT_RECOV = true ∧ (u.grain (ctlSrc g)).run = (s.grain (ctlSrc g)).run)) ∧
    (∀ due, s.fab.wdogDue = some due → due ≤ n → s.inTrial = false → (s.unit 0x3FF).faults = [] →
      gives (.watchdogExpire t) (fun u => Tab.get false u.fab.inReset 3 = true ∧ (u.unit 0x3FF).phase = .restarting n))

/-- An admitted write to a register that carries no command sets every RW and RWL field to its value in the word, clears a
W1C flag where the word has a 1, leaves RO and RC fields and every other register as they are, and gets no error
response; a write refused for a value outside a field's range or for an RWL field while the gate is locked changes no
field of the register, gets no error response and is recorded with the register's refusal event; a write to an address
with nothing there gets the error response and changes no register, memory or grain; an open word of memory takes the
word; a read of a register returns its readable fields and clears its RC fields. (R3, R4, R153, R513, R514, R515) -/
def Obligations.RegisterWritesTakeEffectWholeOrNotAtAll : Prop :=
  ∀ (s : State) (src a v t : Nat),
    let gives := fun (c : Instr) (P : State → Prop) => ∃ u, exec c s = .next u ∧ P u
    (∀ r, (s.at t).Admits a v r → r.fields.all (fun f => f.acc != .rwl) = true → writePair a = none → writePairLow a = none →
      a ≠ PW_CON_STAT → a ≠ LEDGER_CTL → (∀ (z : State) (o : Word), z.writeEffect a v o = z) →
      gives (.registerWrite src a v t) (fun u => u.fab.rerr = false ∧ (∀ b, b ≠ a → u.reg b = s.reg b) ∧
        (∀ f ∈ r.fields, (f.acc = .rw → u.rd a f.fld = f.fld.get (BitVec.ofNat 32 v)) ∧
          (f.acc = .ro ∨ f.acc = .rc → u.rd a f.fld = s.rd a f.fld) ∧
          (f.acc = .w1c → u.rd a f.fld = s.rd a f.fld &&& (f.fld.max - f.fld.get (BitVec.ofNat 32 v)))) ∧
        ∀ p, p ≠ Part.regs_ → p ≠ .lost_ → p ≠ .fab_ → p.same s u)) ∧
    (∀ r, v < 2 ^ 32 → a % 4 = 0 → regRow? a = some r → placeOf a = .register → sfClosed a = false → s.answers a = true →
      let new := mergeWord a r (s.reg a) (BitVec.ofNat 32 v)
      (s.at t).fieldBad a v new = false →
      r.fields.any (fun f => f.outside (BitVec.ofNat 32 v)) = true ∨
        (gatedWrite a r (s.reg a) new v = true ∧ (s.at t).unlocked = false) →
      gives (.registerWrite src a v t) (fun u => u.fab.rerr = false ∧ u.reg a = s.reg a ∧
        s.Raised u (srcOfReg a) r.refused [src, a, v] ∧
        ∀ p, p ≠ Part.regs_ → p ≠ .lost_ → p ≠ .led_ → p ≠ .fab_ → p.same s u)) ∧
    (placeOf (a / 4 * 4) = .none → gives (.registerWrite src a v t) (fun u => u.fab.rerr = true ∧
      ∀ p, p ≠ Part.lost_ → p ≠ .led_ → p ≠ .fab_ → (p = .regs_ → sfClosed a = false) → p.same s u)) ∧
    (a % 4 = 0 → placeOf a = .ram → s.ramOpen a = true → gives (.registerWrite src a v t) (fun u => u.fab.rerr = false ∧
      ∀ b, u.byte b = if a ≤ b ∧ b < a + 4 then BitVec.ofNat 8 (v / 2 ^ (8 * (b - a))) else s.byte b)) ∧
    (∀ r, a % 4 = 0 → regRow? a = some r → placeOf a = .register → s.answers a = true → pairLow a = none → pairHigh a = none →
      (∀ z : State, z.view a = z.reg a) → a ≠ LEDGER_WIN 0 → a ≠ LEDGER_WIN 15 → a ≠ PS_DBG_CHAL 0 → a ≠ PS_MRAM_STAT →
      gives (.rcRead a t) (fun u => u.fab.rerr = false ∧ u.fab.rdata = (readMask r (s.reg a)).toNat ∧
        u.reg a = readClear r (s.reg a) ∧ (∀ b, b ≠ a → u.reg b = s.reg b) ∧ u.mem = s.mem ∧ u.grains = s.grains))

/-- The watchdog is kicked by 0x5A5A and then 0xA5A5, which starts its period again; a word out of that order is refused,
counted and recorded and restarts nothing; a write of FB_FLT_REL starts a quarantined grain at its reset vector;
CLRALL zeroes every counter and OVFN; a put through a queue window appends the descriptor, is dropped with its event
when the queue is full, and gets an error response for a KIND that may not be stored; a get returns the oldest
descriptor's low word, keeps its high word, and reads 0 from an empty queue; CLR of a correlator zeroes every
accumulator. (R163, R164, R169, R174, R176, R227) -/
def Obligations.FabricCommandsActOnTheirUnits : Prop :=
  ∀ (s : State) (src t : Nat),
    let n := Nat.max s.now t
    let gives := fun (c : Instr) (P : State → Prop) => ∃ u, exec c s = .next u ∧ P u
    (s.answers FB_WDOG_KICK = true →
      (s.fab.kicked = false → gives (.kick src 0x5A5A t) (fun u => u.fab.kicked = true ∧ u.fab.wdogDue = s.fab.wdogDue)) ∧
      (s.fab.kicked = true → s.rdB FB_WDOG_CTL FB_WDOG_CTL_WEN = true → gives (.kick src 0xA5A5 t) (fun u =>
        u.fab.kicked = false ∧ u.fab.wdogDue = some (n + s.rd FB_WDOG_CTL FB_WDOG_CTL_PERIOD * ms))) ∧
      (∀ v, v < 2 ^ 32 → v ≠ (if s.fab.kicked then 0xA5A5 else 0x5A5A) → gives (.kick src v t) (fun u =>
        u.fab.kicked = s.fab.kicked ∧ u.fab.wdogDue = s.fab.wdogDue ∧
        s.Raised u srcDl EV_FB_WDOG_BADKICK [src, FB_WDOG_KICK, v] ∧
        u.rd FB_WDOG_CTL FB_WDOG_CTL_BADN = satAdd (s.rd FB_WDOG_CTL FB_WDOG_CTL_BADN) 1 FB_WDOG_CTL_BADN.max))) ∧
    (∀ (g : GrainId) r, (s.at t).Admits FB_FLT_REL g.src r → (s.grain g.src).run = .quarantined → unitLevel g.src = 0 →
      gives (.fbFltRel src g.src t) (fun u => u.grain g.src = { run := .running, retired := n } ∧
        (u.unit g.src).phase = .none ∧ ∀ x, x ≠ g.src → u.grain x = s.grain x)) ∧
    (∀ v r, (s.at t).Admits FB_PMON_CTL (FB_PMON_CTL_CLRALL.put (BitVec.ofNat 32 v) 1).toNat r →
      gives (.clrall src v t) (fun u => u.fab.pmon = [] ∧
        ∀ k : Fin 64, u.rd (FB_PMON_CNTHI k) FB_PMON_CNTHI_OVFN = 0)) ∧
    (∀ (k : Fin 64) (v : Nat), v < 2 ^ 32 →
      let d : Dword := BitVec.ofNat 64 (2 ^ 32 * v + (Tab.get 0#32 s.fab.putLo k.val).toNat)
      (kindOk d = true → s.rdB (FB_Q_CFG k) FB_Q_CFG_EN = true → (s.queue k).length < s.depth k →
        gives (.qputhi src k v t) (fun u => u.queue k = s.queue k ++ [d] ∧ u.fab.rerr = false ∧
          ∀ j, j ≠ k.val → u.queue j = s.queue j)) ∧
      (kindOk d = true → s.rdB (FB_Q_CFG k) FB_Q_CFG_EN = true → s.depth k ≤ (s.queue k).length →
        gives (.qputhi src k v t) (fun u => u.fab.queues = s.fab.queues ∧ u.fab.rerr = false ∧
          s.Raised u srcQueue EV_FB_Q_OVF [src, k.val])) ∧
      (kindOk d = false → gives (.qputhi src k v t) (fun u => u.fab.queues = s.fab.queues ∧ u.fab.rerr = true))) ∧
    (∀ (k : Fin 64), s.rdB (FB_Q_CFG k) FB_Q_CFG_EN = true →
      (∀ d ds, s.queue k = d :: ds → gives (.qgetlo k t) (fun u => u.queue k = ds ∧ u.fab.rdata = d.toNat % 2 ^ 32 ∧
        Tab.get 0#32 u.fab.getHi k.val = BitVec.ofNat 32 (d.toNat / 2 ^ 32) ∧ u.fab.rerr = false)) ∧
      (s.queue k = [] → gives (.qgetlo k t) (fun u => u.fab.queues = s.fab.queues ∧ u.fab.rdata = 0 ∧
        Tab.get 0#32 u.fab.getHi k.val = 0#32))) ∧
    (∀ (b : Fin 4) v r, (s.at t).Admits (ES_CORR_CTL b) (ES_CORR_CTL_CLR.put (BitVec.ofNat 32 v) 1).toNat r →
      gives (.corrClr src b v t) (fun u => u.rdB (ES_CORR_STAT b) ES_CORR_STAT_BUSY = true ∧
        ∀ a, u.corrBase b ≤ a → a < u.corrBase b + 393216 + 4 * 6144 → u.byte a = 0#8))

/-- A verdict whose row says INHIBIT, on the one configured string, latches that action with its source and inhibits the
string; a DERATE releases DHOLD after its source cleared; a ramping string parks at the zero-current condition or at
TRAMPMAX; an inhibited string that opens turns its HC channel off at the zero-current condition or after TOPENMAX; a
limit exceeded for DLPERS raises source 16 and a stale one source 17; a close that waited is carried out; a pull-in
without feedback by TPULL ends with HC off and source 20; the economiser starts 200 ms after pull-in; a contact found
welded sets WLOCK and raises source 20; a seed whose voltage does not follow ends pre-charge with reason 4; a feedback
level held for FILT is taken. (R122, R127, R131, R132, R133, R135, R136, R140, R141, R143, R147) -/
def Obligations.StringsInhibitRampAndOpen : Prop :=
  ∀ (s : State) (t : Nat),
    let n := Nat.max s.now t
    let gives := fun (c : Instr) (P : State → Prop) => ∃ u, exec c s = .next u ∧ P u
    (∀ (r : Fin 12) (v : Verdict), s.trip.inbox = [v] → v.on = true → v.src < 25 → v.native = some r.val →
      s.rdB (PW_TRIP_SRC v.src) PW_TRIP_SRC_EN = true → s.rd (PW_TRIP_SRC v.src) PW_TRIP_SRC_ACT = 4 →
      s.rd (PW_TRIP_SRC v.src) PW_TRIP_SRC_SCOPE = 0 → s.strings = [r.val] → s.trip.active = [] → s.trip.pch.step = 0 →
      (s.tstr r).act < 4 → (s.tstr r).latch = none → (s.tstr r).st = .normal →
      gives (.tripVerdict 0 t) (fun u => u.trip.inbox = [] ∧ (u.tstr r).st = .inhibited ∧ (u.tstr r).act = 4 ∧
        (u.tstr r).latch = some (4, v.src) ∧ ∃ a, u.trip.active = [a] ∧ a.src = v.src ∧ a.key = v.key ∧ a.act = 4)) ∧
    (∀ (r : Fin 12) due, (s.tstr r).derateDue = some due → due ≤ n → (s.tstr r).st = .derated → (s.tstr r).latch = none →
      gives (.derateHoldExpire r t) (fun u => (u.tstr r).derate = false ∧ (u.tstr r).derateDue = none ∧
        (u.tstr r).st = .normal)) ∧
    (∀ (r : Fin 12), (s.tstr r).st = .ramping → s.zeroMet r = true → (s.tstr r).opens = false →
      gives (.rampPark r t) (fun u => (u.tstr r).st = .parked ∧ (u.tstr r).openFrom = n ∧ (u.tstr r).hc = (s.tstr r).hc)) ∧
    (∀ (r : Fin 12) t0, (s.tstr r).st = .ramping → (s.tstr r).episode = some t0 → t0 + (s.tstr r).rampMax ≤ n →
      gives (.rampTimeout r t) (fun u => (u.tstr r).st = .parked ∧ (u.tstr r).openFrom = n)) ∧
    (∀ (r : Fin 12), ((s.tstr r).st = .opening ∨ (s.tstr r).st = .parked) → (s.tstr r).opens = true → (s.tstr r).hc = true →
      (s.zeroMet r = true → gives (.zeroCurrentOpen r t) (fun u => (u.tstr r).hc = false ∧ (u.tstr r).offAt = some n)) ∧
      ((s.tstr r).openFrom + s.rd PW_TRIP_CFG PW_TRIP_CFG_TOPENMAX * ms ≤ n →
        gives (.openTimeout r t) (fun u => (u.tstr r).hc = false ∧ (u.tstr r).offAt = some n))) ∧
    (∀ (r : Fin 12) t0, s.shuntSound r = true → (s.tstr r).overS = some t0 →
      t0 + s.rd PW_TRIP_LIM PW_TRIP_LIM_DLPERS * 1000000 ≤ (s.tstr r).zeroSLast → gives (.dlimExceed r t) (fun u =>
        ∃ v, u.trip.inbox = s.trip.inbox ++ [v] ∧ v.src = 16 ∧ v.on = true ∧ v.native = some r.val)) ∧
    (∀ (r : Fin 12), (s.tstr r).dlimStale = false → (s.tstr r).dlimStamp + s.rd PW_TRIP_TIM PW_TRIP_TIM_DLSTALE * ms ≤ n →
      gives (.dlimStale r t) (fun u => (u.tstr r).dlimStale = true ∧ s.Raised u srcTrip EV_DLIM_STALE [r.val] ∧
        ∃ v, u.trip.inbox = s.trip.inbox ++ [v] ∧ v.src = 17 ∧ v.on = true ∧ v.native = some r.val)) ∧
    (∀ (r : Fin 12) t0, (s.tstr r).closeWait = some t0 → (s.at t).partnerBusy r = false → s.closeReason r = 0 →
      gives (.closeWaitEnd r t) (fun u => (u.tstr r).hc = true ∧ (u.tstr r).pullAt = some n ∧ (u.tstr r).closeWait = none ∧
        (u.tstr r).st = .closing)) ∧
    (∀ (r : Fin 12) t0, (s.tstr r).pullAt = some t0 → (s.tstr r).st = .closing → (s.tstr r).hc = true →
      t0 + s.rd PW_CON_CFG PW_CON_CFG_TPULL * ms ≤ n → s.bothClosed r = false → s.trip.pch.step = 0 →
      gives (.pullInTimeout r t) (fun u => (u.tstr r).hc = false ∧ (u.tstr r).st = .open_ ∧
        ∃ v w, u.trip.inbox = s.trip.inbox ++ [v, w] ∧ v.src = 20 ∧ v.on = true ∧ w.on = false)) ∧
    (∀ (r : Fin 12) t0, (s.tstr r).pullAt = some t0 → (s.tstr r).hc = true → (s.tstr r).econ = false → t0 + 200 * ms ≤ n →
      gives (.economiserStart r t) (fun u => (u.tstr r).econ = true ∧ (u.tstr r).hc = true)) ∧
    (∀ (r : Fin 12) t0, (s.tstr r).offAt = some t0 → (s.tstr r).noWeldCheck = false → 200000 ≤ (s.tstr r).vStr →
      t0 + 100 * ms ≤ n → bit (s.tstr r).weldOk 0 = false → gives (.weldCheckTimeout r t) (fun u =>
        (u.tstr r).offAt = none ∧ bit (u.rd PW_CON_STAT PW_CON_STAT_WLOCK) r = true ∧
        ∃ v w, u.trip.inbox = s.trip.inbox ++ [v, w] ∧ v.src = 20 ∧ v.on = true ∧ w.on = false)) ∧
    (s.trip.pch.step = 2 → s.trip.pch.instant + 6 * s.rd PW_PCH_CFG PW_PCH_CFG_TAUMAX * 5 * ms ≤ n → s.dvOk s.seed = false →
      gives (.prechargeTimeout t) (fun u => u.trip.pch.step = 0 ∧ u.trip.pch.relay = false ∧
        s.Raised u srcTrip EV_PCH_FAIL [s.seed, 2, 4])) ∧
    (∀ (k : Fin 24) (l : Fin 3), l ≠ 1 → Tab.get 0 s.trip.cfbRaw k.val = l.val →
      Tab.get 0 s.trip.cfbSince k.val + s.rd PW_CFB_CFG PW_CFB_CFG_FILT * 100 * us ≤ n →
      s.cfbClosed k ≠ (decide (l = 2) == bit (s.rd PW_CFB_CFG PW_CFB_CFG_POL) k) → (s.tstr (k.val / 2)).hc = false →
      gives (.cfbSample k l t) (fun u => u.cfbClosed k = (decide (l = 2) == bit (s.rd PW_CFB_CFG PW_CFB_CFG_POL) k) ∧
        Tab.get false u.trip.cfbIndet k.val = false))

/-- An admitted clear of a latched string releases it; a request of the program with INHIBIT on the one configured string
inhibits and latches it under source 28, and does nothing while its row is off; a discharge limit completes the pair,
which is stamped and no longer stale; an admitted close starts the pull-in of the string, or waits for its LC partner;
an open of a closed string in NORMAL starts an unlatched RAMP-OPEN; START away from the bus target drives the relay
and enters step 2 with a new attempt; JOIN enters step 5; ABORT ends the sequence with reason 9. (R127, R131, R134,
R139, R140, R146, R147, R148) -/
def Obligations.TripCommandsReachTheirStrings : Prop :=
  ∀ (s : State) (src t : Nat),
    let n := Nat.max s.now t
    let gives := fun (c : Instr) (P : State → Prop) => ∃ u, exec c s = .next u ∧ P u
    (∀ (r : Fin 12) row l, (s.at t).Admits PW_TRIP_CLR (2 ^ r.val) row → (s.tstr r).latch = some l → (s.tstr r).hc = false →
      gives (.tripClr src (2 ^ r.val) t) (fun u => (u.tstr r).latch = none ∧ (u.tstr r).act = 0 ∧
        (u.tstr r).opens = false ∧ u.trip.orphan = false ∧ ∀ q, q ≠ r.val → u.tstr q = s.tstr q)) ∧
    (∀ (r : Fin 12) row v, (s.at t).Admits PW_TRIP_REQ v row →
      (s.rdB (PW_TRIP_SRC 28) PW_TRIP_SRC_EN = false → gives (.tripProgramRequest src v t) (fun u => u.trip = s.trip)) ∧
      (s.rdB (PW_TRIP_SRC 28) PW_TRIP_SRC_EN = true → PW_TRIP_REQ_ACT.get (BitVec.ofNat 32 v) = 4 →
        PW_TRIP_REQ_SCOPE.get (BitVec.ofNat 32 v) = 0 → PW_TRIP_REQ_SMASK.get (BitVec.ofNat 32 v) = 2 ^ r.val →
        s.strings = [r.val] → s.trip.active = [] → s.trip.pch.step = 0 → (s.tstr r).act < 4 → (s.tstr r).latch = none →
        (s.tstr r).st = .normal → gives (.tripProgramRequest src v t) (fun u => (u.tstr r).st = .inhibited ∧
          (u.tstr r).act = 4 ∧ (u.tstr r).latch = some (4, 28) ∧ u.trip.active = []))) ∧
    (∀ (r : Fin 12) row v, (s.at t).Admits (PW_DLIM_DIS r) v row → gives (.dlimDisWrite src r v t) (fun u =>
      (u.tstr r).dlimStamp = n ∧ (u.tstr r).dlimStale = false ∧ (u.tstr r).dlimDis = (u.reg (PW_DLIM_DIS r)).toNat ∧
      u.rd (PW_DLIM_DIS r) PW_DLIM_DIS_LIM = PW_DLIM_DIS_LIM.get (BitVec.ofNat 32 v) ∧
      (u.tstr r).dlimChg = (s.reg (PW_DLIM_CHG r)).toNat)) ∧
    (∀ (r : Fin 12) row, (s.at t).Admits PW_CON_CMD (2 ^ r.val) row →
      ((s.at t).partnerBusy r = false → gives (.contactorClose src r (2 ^ r.val) t) (fun u => (u.tstr r).hc = true ∧
        (u.tstr r).pullAt = some n ∧ (u.tstr r).st = .closing)) ∧
      ((s.at t).partnerBusy r = true → gives (.contactorClose src r (2 ^ r.val) t) (fun u =>
        (u.tstr r).closeWait = some n ∧ (u.tstr r).hc = (s.tstr r).hc))) ∧
    (∀ (r : Fin 12) row, (s.at t).Admits PW_CON_CMD (2 ^ (16 + r.val)) row → (s.tstr r).hc = true → (s.tstr r).act < 3 →
      (s.tstr r).st = .normal → s.trip.pch.step = 0 → gives (.contactorOpen src r (2 ^ (16 + r.val)) t) (fun u =>
        (u.tstr r).act = 3 ∧ (u.tstr r).st = .ramping ∧ (u.tstr r).opens = true ∧ (u.tstr r).latch = (s.tstr r).latch)) ∧
    (∀ row, (s.at t).Admits PW_PCH_CTL 1 row → s.busNear = false → gives (.prechargeStart src 1 t) (fun u =>
      u.trip.pch.step = 2 ∧ u.trip.pch.relay = true ∧ u.trip.pch.start = n ∧ n ∈ u.trip.pch.attempts ∧
      u.rd PW_PCH_STAT PW_PCH_STAT_REASON = 0)) ∧
    (∀ row (r : Fin 12) v, PW_PCH_CTL_JMASK.get (BitVec.ofNat 32 v) = 2 ^ r.val → PW_PCH_CTL_JOIN.get (BitVec.ofNat 32 v) = 1 →
      PW_PCH_CTL_ABORT.get (BitVec.ofNat 32 v) = 0 → PW_PCH_CTL_START.get (BitVec.ofNat 32 v) = 0 →
      (s.at t).Admits PW_PCH_CTL v row → r.val ∈ s.strings → (s.tstr r).hc = false → (s.topAct r).1 < 2 →
      gives (.join src v t) (fun u => u.trip.pch.step = 5 ∧ u.trip.pch.mask = 2 ^ r.val ∧ u.trip.pch.done = 0 ∧
        u.sregMode r = 3)) ∧
    (∀ row, (s.at t).Admits PW_PCH_CTL 2 row → s.trip.pch.step ≠ 0 →
      gives (.abort src 2 t) (fun u => u.trip.pch.step = 0 ∧ u.trip.pch.relay = false ∧
        s.Raised u srcTrip EV_PCH_FAIL [s.seed, s.trip.pch.step, 9]))

/-- At a grid point the sequencer makes a sweep with the next tag (0xFFFE wraps to 0), its grid instant, its period and
its count in the descriptor, takes a period that differs with EV_SWP_PERIOD, and gives every enabled engine of an
enabled port the tag; a missed deadline sets OVERRUN, is recorded with port and tag, and makes every position without
a record of the engine's previous tag stale; a stream-only READ of tag 0xFFFF goes out when due; a 10 ms window ends
with the dwells advanced or, where a string's mean reached ILOAD, the near dwell at 0, and a complete rest dwell gives
the resting period; the periodic open-wire test and OWTNOW start the test; TRIG starts the count of POSTN sweeps, a
further one is recorded; a window whose count has run out freezes with EV_WIN_FREEZE; clearing HOLD re-arms a frozen
window that is archived. (R76, R77, R80, R87, R90, R91, R99, R104, R517) -/
def Obligations.SweepsArePlacedOnTheGrid : Prop :=
  ∀ (s : State) (src t : Nat),
    let n := Nat.max s.now t
    let gives := fun (c : Instr) (P : State → Prop) => ∃ u, exec c s = .next u ∧ P u
    (s.rdB AQ_SWP_CTL AQ_SWP_CTL_EN = true → s.pload ≠ 0 →
      let g := (s.at t).nextGrid (s.at t).periodWanted.1
      g.1 < (s.at t).ns + s.rd AQ_SWP_CTL AQ_SWP_CTL_LEAD * 1000 + 20000 + s.pload → gives (.sweepGridPoint t) (fun u =>
        u.swp.tag = (if s.swp.tag = 0xFFFE then 0 else s.swp.tag + 1) ∧ u.swp.count = s.swp.count + 1 ∧
        u.swp.last = some g.1 ∧ u.swp.period = g.2 ∧
        (∃ d, u.swp.cur = some d ∧ d.tag = s.swp.tag ∧ d.period = g.2 * s.pload ∧ d.seq = s.swp.count + 1 ∧
          d.owtMask = owtLines s.swp.owt) ∧
        (s.swp.owt = 1 → u.swp.owt = 2) ∧ (s.swp.owt = 2 → u.swp.owt = 0) ∧
        ∀ k, k < 20 → s.portEn (portOf k) = true → s.rdB (AQ_PORT_CTL k) AQ_PORT_CTL_EN = true →
          (u.eng k).swTag = some s.swp.tag)) ∧
    (∀ (k : Fin 20) (tag : Fin 65535), gives (.sweepDeadlineMiss k tag t) (fun u =>
      u.rdB AQ_SWP_EVT AQ_SWP_EVT_OVERRUN = true ∧
      s.Raised u srcWindow EV_SWP_DEADLINE [portPos (portOf k) 0, tag] ∧
      ((s.eng k).prevTag = some tag.val → ∀ q, 1 ≤ q → q ≤ s.portNodes (portOf k) → (s.pos (portOf k) q).gotTag ≠ some tag.val →
        (u.pos (portOf k) q).staleSince = some ((s.pos (portOf k) q).staleSince.getD (s.eng k).prevTarget)) ∧
      ((s.eng k).prevTag ≠ some tag.val → u.lnk = s.lnk))) ∧
    (∀ (k : Fin 20) (slot : Nat), s.commands k = true → 5 ≤ s.portState k →
      (∃ q, 1 ≤ q ∧ q ≤ s.portNodes (portOf k) ∧ (s.readSide k).1 ≤ q ∧ q ≤ (s.readSide k).2 ∧ 2 ≤ s.nodeType (portOf k) q) →
      (s.eng k).readOut = none → ((s.eng k).strAt = 0 ∨ (s.eng k).strAt + s.strPer ≤ n) →
      gives (.streamOnlyRead k slot t) (fun u => (u.eng k).strAt = n ∧ ∃ r, (u.eng k).readOut = some r ∧ r.tag = 0xFFFF ∧
        r.first = (s.readSide k).1 ∧ r.last = (s.readSide k).2 ∧ r.slot = Nat.max 1660 slot ∧ r.instant = n)) ∧
    (gives (.meanWindowEnd t) (fun u => u.swp.winSum = [] ∧ u.swp.winN = [] ∧
      (∀ r, r < 12 → s.rdB (AQ_CUR_SRC r) AQ_CUR_SRC_EN = true → bit (s.rd AQ_CUR_STAT AQ_CUR_STAT_STALE) r = false →
        Tab.get 0 s.swp.winN r ≠ 0 → s.rd AQ_SWP_ADAPT AQ_SWP_ADAPT_ILOAD * 10 * Tab.get 0 s.swp.winN r ≤ Tab.get 0 s.swp.winSum r →
        u.swp.dwellNear = 0) ∧
      (s.rd AQ_SWP_ADAPT AQ_SWP_ADAPT_ILOAD = 0 → u.swp.mode = s.swp.mode) ∧
      (s.rd AQ_SWP_ADAPT AQ_SWP_ADAPT_ILOAD ≠ 0 → s.swp.mode ≤ 2 →
        s.rd AQ_SWP_DWELL AQ_SWP_DWELL_TREST * 1000 ≤ u.swp.dwellRest → u.swp.mode = 2))) ∧
    (s.rdB AQ_SWP_CTL AQ_SWP_CTL_EN = true → s.rd AQ_SWP_OWT AQ_SWP_OWT_OWTPER ≠ 0 → s.swp.owt = 0 →
      s.swp.owtAt + s.rd AQ_SWP_OWT AQ_SWP_OWT_OWTPER * 60 * sec ≤ n →
      gives (.owtPeriodic t) (fun u => u.swp.owt = 1 ∧ u.swp.owtAt = n)) ∧
    (∀ v r, (s.at t).Admits AQ_SWP_CTL (AQ_SWP_CTL_OWTNOW.put (BitVec.ofNat 32 v) 1).toNat r →
      gives (.owtnow src v t) (fun u => u.swp.owt = 1 ∧ u.swp.owtAt = n)) ∧
    (∀ v r, (s.at t).Admits AQ_WIN_CTL (AQ_WIN_CTL_TRIG.put (BitVec.ofNat 32 v) 1).toNat r →
      AQ_WIN_CTL_HOLD.get (BitVec.ofNat 32 v) = 1 →
      (s.swp.trig = none → s.rdB AQ_WIN_STAT AQ_WIN_STAT_FROZEN = false → gives (.trig src v t) (fun u =>
        u.swp.trig = some (AQ_WIN_CTL_POSTN.get (BitVec.ofNat 32 v), (s.at t).ns, 2))) ∧
      (s.swp.trig.isSome = true ∨ s.rdB AQ_WIN_STAT AQ_WIN_STAT_FROZEN = true → gives (.trig src v t) (fun u =>
        u.swp = s.swp ∧ s.Raised u srcWindow EV_WIN_RETRIGGER [2]))) ∧
    (∀ ns kind, s.swp.trig = some (0, ns, kind) → s.rdB AQ_WIN_STAT AQ_WIN_STAT_FROZEN = false →
      gives (.windowFreeze t) (fun u => u.rdB AQ_WIN_STAT AQ_WIN_STAT_FROZEN = true ∧ u.swp.frozenBy = some (ns, kind) ∧
        s.Raised u srcWindow EV_WIN_FREEZE [s.rd AQ_SWP_STAT AQ_SWP_STAT_TAG, kind])) ∧
    (∀ v r, (s.at t).Admits AQ_WIN_CTL (AQ_WIN_CTL_HOLD.put (BitVec.ofNat 32 v) 0).toNat r → bit v 0 = false →
      s.rdB AQ_WIN_CTL AQ_WIN_CTL_HOLD = true → s.rdB AQ_WIN_STAT AQ_WIN_STAT_FROZEN = true →
      s.rdB AQ_WIN_STAT AQ_WIN_STAT_ARCH = false → gives (.windowHoldClear src v t) (fun u =>
        u.swp.trig = none ∧ u.rdB AQ_WIN_STAT AQ_WIN_STAT_FROZEN = false))

/-- A decimator output is kept with its corrected instant, and the fourth in a row beyond 0.9 fails the phase's sense, as
does a silent PDAT input; a phase sum is written to its ring, with stamp, value and flags, once every active phase has
its outputs; an AIC sample is scaled, stamped and written to its ring, its channel is over range at the fourth code at
98 %, and a faulty channel of VBSRC makes the bus voltage source faulty; an AIN code outside its window for PERS
samples raises source 18, inside for PERS samples clears it, and a timeout raises it; an old stream becomes stale and
raises source 14; a 1 ms window ends with XFAIL set at the tenth failure and cleared by a passing window; the offsets
of a quiet string are written each second; a current at an instant is interpolated, with a gap recorded. (R110, R111,
R112, R114, R115, R116, R117, R118, R120, R121, R275, R516) -/
def Obligations.CurrentsAreSampledCheckedAndCompared : Prop :=
  ∀ (s : State) (t : Nat),
    let n := Nat.max s.now t
    let gives := fun (c : Instr) (P : State → Prop) => ∃ u, exec c s = .next u ∧ P u
    let wrote := fun (u : State) (x stamp : Nat) (v : Int) (flags : Nat) =>
      u.loadLE (ringAddr x (Tab.get 0 s.cur.ring x)) 8 = stamp % 2 ^ 64 ∧
      u.loadLE (ringAddr x (Tab.get 0 s.cur.ring x) + 8) 4 = wrapInt v 32 ∧
      u.loadLE (ringAddr x (Tab.get 0 s.cur.ring x) + 12) 4 = flags ∧
      Tab.get 0 u.cur.ring x = Tab.get 0 s.cur.ring x + 1
    let src := fun (u : State) (k key : Nat) (on : Bool) =>
      ∃ v ∈ u.trip.inbox, v.src = k ∧ v.key = key ∧ v.on = on
    (∀ (i : Fin 24) (acc : Nat),
      let r3 : Int := ((s.posr i) ^ 3 : Nat)
      let v := nearest ((2 * (acc : Int) - r3) * PW_PH_GAIN_PGAIN.getS (s.reg (PW_PH_GAIN i))) r3 -
        PW_PH_OFS_POFS.getS (s.reg (PW_PH_OFS i))
      let stamp := stampNs ((t : Int) - 75000 * (s.posr i - 1 : Nat) - 10000 * s.rd (PW_PH_CFG i) PW_PH_CFG_PDLY)
      gives (.phaseDecimatorOutput i acc t) (fun u =>
        Tab.get [] u.cur.outs i.val = ((stamp, v) :: Tab.get [] s.cur.outs i.val).take 8 ∧
        (9 * r3 < 10 * (2 * (acc : Int) - r3).natAbs → Tab.get 0 s.cur.ovN i.val = 3 → (u.phase i).senseFail = true))) ∧
    (∀ (i : Fin 24), gives (.pdatNoTransition i t) (fun u => (u.phase i).senseFail = true ∧
      ((s.phase i).senseFail = false → u.rdB PW_REG_EVT PW_REG_EVT_PHSENSE = true))) ∧
    (∀ (r : Fin 12) stamp v rest, Tab.get [] s.cur.sums r.val = (stamp, v) :: rest →
      let act := (List.range 4).filter (fun k => s.phActive r k)
      (∀ k ∈ act.drop 1, (s.phaseAt (s.slotHb r k) stamp).isSome = true) →
      gives (.phaseSumWrite r t) (fun u => Tab.get [] u.cur.sums r.val = rest ∧
        wrote u (12 + r) stamp (v + sumI ((act.drop 1).map (fun k => (s.phaseAt (s.slotHb r k) stamp).getD 0)))
          (1 + 8 * b2n (act.any (fun k => (s.phase (s.slotHb r k)).senseFail))))) ∧
    (∀ (i : Fin 8) (code : Int), s.rdB (AQ_AIC_CFG i) AQ_AIC_CFG_EN = true → -2 ^ 23 ≤ code → code < 2 ^ 23 →
      (s.rd PW_BUS_CFG PW_BUS_CFG_VBSRC ≠ i.val → gives (.aicSample i code t) (fun u =>
        wrote u (26 + i) (stampNs ((t : Int) - aicDelay (s.rd (AQ_AIC_CFG i) AQ_AIC_CFG_ODR) -
            10000 * s.rdS (AQ_AIC_CFG i) AQ_AIC_CFG_AFEDLY))
          (code * AQ_AIC_SCL_SCALE.getS (s.reg (AQ_AIC_SCL i)) / 2 ^ 23 - AQ_AIC_OFS_OFS.getS (s.reg (AQ_AIC_OFS i)))
          (1 + 4 * b2n (Tab.get false u.cur.aicOver i.val) + 8 * b2n (Tab.get false u.cur.aicStuck i.val)) ∧
        (98 * 2 ^ 23 ≤ 100 * code.natAbs → Tab.get 0 s.cur.aicHigh i.val = 3 → Tab.get false s.cur.aicOver i.val = false →
          Tab.get false u.cur.aicOver i.val = true ∧ s.Raised u srcAnalog EV_AIC_FAULT [i.val] ∧ src u 19 0 true))) ∧
      (s.rd PW_BUS_CFG PW_BUS_CFG_VBSRC = i.val → gives (.aicSample i code t) (fun u =>
        Tab.get false u.cur.aicOver i.val = true ∨ Tab.get false u.cur.aicStuck i.val = true → u.regu.vbusFault = true))) ∧
    (∀ (i : Fin 16) (code : Fin 4096), s.rdB (AQ_AIN_CFG i) AQ_AIN_CFG_EN = true →
      let out := code.val < s.rd (AQ_AIN_CFG i) AQ_AIN_CFG_LO ∨ s.rd (AQ_AIN_CFG i) AQ_AIN_CFG_HI < code.val
      let pers := s.rd (AQ_AIN_CFG i) AQ_AIN_CFG_PERS
      gives (.ainConversion i code t) (fun u => Tab.get 0 u.cur.ainCode i.val = code.val ∧ Tab.get 0 u.cur.ainAt i.val = (s.at t).ns ∧
        (out → Tab.get 0 s.cur.ainOut i.val + 1 = pers → u.rdB AQ_CUR_EVT AQ_CUR_EVT_AINWIN = true ∧
          s.Raised u srcAnalog EV_AIN_WIN [i.val] ∧ Tab.get false u.cur.ainHeld i.val = true ∧
          (Tab.get false s.cur.ainHeld i.val = false → src u 18 i true)) ∧
        (¬ out → pers ≤ Tab.get 0 s.cur.ainIn i.val + 1 → Tab.get false u.cur.ainHeld i.val = false ∧
          (Tab.get false s.cur.ainHeld i.val = true → src u 18 i false)))) ∧
    (∀ (i : Fin 16), gives (.ainTimeout i t) (fun u => Tab.get 0 u.cur.ainCode i.val = Tab.get 0 s.cur.ainCode i.val ∧
      u.rdB AQ_CUR_EVT AQ_CUR_EVT_AINWIN = true ∧ s.Raised u srcAnalog EV_AIN_WIN [i.val] ∧
      Tab.get false u.cur.ainHeld i.val = true)) ∧
    (∀ (i : Fin 14), i.val < 12 → s.rdB (AQ_CUR_SRC i) AQ_CUR_SRC_EN = true → bit (s.rd AQ_CUR_STAT AQ_CUR_STAT_STALE) i = false →
      Tab.get 0 s.cur.newest i.val * 1000 + 3 * s.strPer + 500 * us < n → gives (.streamStale i t) (fun u =>
        bit (u.rd AQ_CUR_STAT AQ_CUR_STAT_STALE) i = true ∧ s.Raised u srcAnalog EV_CUR_STALE [i.val] ∧ src u 14 i true ∧
        u.swp.mode = 0)) ∧
    (gives (.xchkWindowEnd t) (fun u => u.cur.winSum = [] ∧ u.cur.winN = [] ∧ u.cur.winBad = [] ∧
      ∀ (r : Fin 12), s.rdB (AQ_CUR_SRC r) AQ_CUR_SRC_EN = true → s.sregEn r = true →
        bit (s.rd AQ_CUR_STAT AQ_CUR_STAT_STALE) r = false → Tab.get 0 s.cur.winN r.val ≠ 0 → Tab.get 0 s.cur.winN (12 + r) ≠ 0 →
        Tab.get false s.cur.winBad r.val = false → Tab.get false s.cur.winBad (12 + r) = false →
        let fails := s.rd AQ_CUR_XCFG AQ_CUR_XCFG_XABS * 100000 + s.rd AQ_CUR_XCFG AQ_CUR_XCFG_XPCT * (s.winMean r).natAbs <
          1000 * (s.winMean r - s.winMean (12 + r)).natAbs
        (¬ fails → bit (u.rd AQ_CUR_STAT AQ_CUR_STAT_XFAIL) r = false ∧ Tab.get 0 u.cur.xfails r.val = 0) ∧
        (fails → Tab.get 0 u.cur.xfails r.val = Tab.get 0 s.cur.xfails r.val + 1) ∧
        (fails → Tab.get 0 s.cur.xfails r.val = 9 → bit (s.rd AQ_CUR_STAT AQ_CUR_STAT_XFAIL) r = false →
          bit (u.rd AQ_CUR_STAT AQ_CUR_STAT_XFAIL) r = true ∧ u.rdB AQ_CUR_EVT AQ_CUR_EVT_XCHK = true ∧ src u 24 r true))) ∧
    (∀ (r : Fin 12) t0, Tab.get none s.cur.offSince r.val = some t0 → s.quiet r = true → t0 + sec ≤ n →
      let mean := fun (x : Nat) => if Tab.get 0 s.cur.offN x = 0 then 0
        else nearest (Tab.get 0 s.cur.offSum x) (10 * Tab.get 0 s.cur.offN x : Nat)
      gives (.offsetMeasure r t) (fun u => s.Raised u srcAnalog EV_CUR_OFFSET [r.val] ∧
        u.rd (AQ_CUR_OFS r) AQ_CUR_OFS_SHOFS = wrapInt (mean r) 16 ∧ u.rd (AQ_CUR_OFS r) AQ_CUR_OFS_PHOFS = wrapInt (mean (12 + r)) 16 ∧
        Tab.get none u.cur.offSince r.val = some n)) ∧
    (∀ (r : Fin 12) (instant : Nat),
      let x := s.selected r
      let res := s.currentOf x instant (s.pathPeriod x)
      gives (.currentAtInstant r instant t) (fun u => u.cur.answer = some (r.val, instant, res.1) ∧
        ((∀ e ∈ s.ringEntries x, e.1 ≤ instant) → res.1 = none) ∧
        (res.2 = true → u.rdB AQ_CUR_EVT AQ_CUR_EVT_GAP = true ∧ s.Raised u srcAnalog EV_CUR_GAP [x])))

/-- An event raised into a stack of fewer than 8 joins it; into a full one it replaces the oldest entry whose severity is
equal or lower, and where none qualifies it is dropped and the drop count rises; a block takes its grains' events in
order of raising; the engine suppresses nothing of severity 6 and of codes 0x51xx, keeps severity 0 out unless LDBG is
1, passes an event whose bucket holds a token and takes that token, and suppresses and counts one whose bucket holds
none; a full queue leaves events in the buffers; the oldest queued record is written with the next sequence into the
next sediment slot, into the next bedrock slot once commissioned; the 24 h mean is judged. (R418, R420, R421, R422,
R423, R424, R425, R426) -/
def Obligations.EventsPassFromStackToSediment : Prop :=
  ∀ (s : State) (t : Nat),
    let n := Nat.max s.now t
    let gives := fun (c : Instr) (P : State → Prop) => ∃ u, exec c s = .next u ∧ P u
    (∀ (src code : Nat) (ws : List Nat),
      let old := Tab.get [] s.led.pile src
      let fits := fun (u : State) (kept : List EvRec) => ∃ e : EvRec, Tab.get [] u.led.pile src = kept ++ [e] ∧
        e.code = code ∧ e.sev = eventSeverity code ∧ e.src = src ∧ e.time = (s.at t).ns ∧ e.words = ws
      (old.length < 8 → gives (.eventRaise src code ws t) (fun u => fits u old)) ∧
      (∀ pre x post, 8 ≤ old.length → old = pre ++ x :: post → x.sev ≤ eventSeverity code →
        (∀ y ∈ pre, eventSeverity code < y.sev) → gives (.eventRaise src code ws t) (fun u => fits u (pre ++ post))) ∧
      (8 ≤ old.length → (∀ y ∈ old, eventSeverity code < y.sev) → gives (.eventRaise src code ws t) (fun u =>
        u.led.pile = s.led.pile ∧ Tab.get 0 u.led.drops src = Nat.min (Tab.get 0 s.led.drops src + 1) 1023 ∧
        u.rdB LEDGER_EVT LEDGER_EVT_LOST = true))) ∧
    (∀ (blk x : Nat) (es : List EvRec), s.led.pile = [(x, es)] → blockOf x = blockOf blk → es.Pairwise (fun a b => a.ord < b.ord) →
      let b := Tab.get {} s.led.bufs (blockOf blk)
      b.circ.length + es.length ≤ 48 → gives (.blockEventCollect blk t) (fun u => u.led.pile = [] ∧
        (Tab.get {} u.led.bufs (blockOf blk)).circ = b.circ ++ es ∧
        (Tab.get {} u.led.bufs (blockOf blk)).unsent = b.unsent ++ es.map (fun e => e.ord) ∧
        (Tab.get {} u.led.bufs (blockOf blk)).total = b.total + es.length ∧
        ∀ k, k ≠ blockOf blk → Tab.get {} u.led.bufs k = Tab.get {} s.led.bufs k)) ∧
    (∀ (blk : Nat) (e : EvRec), s.psReset = false → s.led.commitDone = none → s.nextEntry (blockOf blk) = some e →
      (512 ≤ s.led.queue.length → gives (.ledgerEventReceive blk t) (fun u => u.led = s.led)) ∧
      (s.led.queue.length < 512 →
        (e.sev = 0 → s.rdB LEDGER_CTL LEDGER_CTL_LDBG = false → gives (.ledgerEventReceive blk t) (fun u =>
          u.led.queue = s.led.queue ∧ e.ord ∉ (Tab.get {} u.led.bufs (blockOf blk)).unsent)) ∧
        (e.sev = 6 ∨ (e.sev ≠ 0 ∧ e.code / 256 = 0x51) → gives (.ledgerEventReceive blk t) (fun u =>
          u.led.queue = s.led.queue ++ [e])) ∧
        (∀ b i, s.led.buckets.findIdx? (fun b => b.codes.any (fun c => c.1 == e.code)) = some i → s.led.buckets[i]? = some b →
          b.codes = [(e.code, e.sev)] → e.sev ≠ 0 → e.sev ≠ 6 → e.code / 256 ≠ 0x51 →
          let rate := s.rateOf e.code e.sev
          let level := Nat.min (rate.2 * token) (b.level + rate.1 * (n - b.stamp))
          (token ≤ level → gives (.ledgerEventReceive blk t) (fun u => u.led.queue = s.led.queue ++ [e] ∧
            u.led.buckets = s.led.buckets.set i { b with level := level - token, stamp := n })) ∧
          (level < token → gives (.ledgerEventReceive blk t) (fun u => u.led.queue = s.led.queue ∧
            Tab.get 0 u.led.supp e.code = Nat.min (Tab.get 0 s.led.supp e.code + 1) 4095 ∧
            u.rdB LEDGER_EVT LEDGER_EVT_SUPPR = true))))) ∧
    (∀ (e : EvRec) es verified, s.psReset = false → s.led.queue = e :: es →
      (∀ k, k < 16 → s.rdB (LEDGER_SNAPC k) LEDGER_SNAPC_SEN = true → s.rd (LEDGER_SNAPC k) LEDGER_SNAPC_SCODE ≠ e.code) →
      let a := 0x04790000 + s.led.sedSlot * 64
      let bed := s.rd LEDGER_STAT LEDGER_STAT_BEDN
      gives (.ledgerPersist verified t) (fun u => u.led.queue = es ∧ u.led.seqNext = (s.led.seqNext + 1) % 2 ^ 32 ∧
        u.led.sedSlot = (s.led.sedSlot + 1) % 98304 ∧ u.loadLE a 2 = e.code % 2 ^ 16 ∧ u.loadLE (a + 4) 8 = e.time % 2 ^ 64 ∧
        u.loadLE (a + 12) 4 = s.led.seqNext % 2 ^ 32 ∧
        (s.commissioned = true → bed < 4096 → u.rd LEDGER_STAT LEDGER_STAT_BEDN = bed + 1 ∧
          u.loadLE (0x04450000 + bed * 64) 2 = e.code % 2 ^ 16 ∧ u.loadLE (0x04450000 + bed * 64 + 12) 4 = s.led.seqNext % 2 ^ 32) ∧
        (s.commissioned = false ∨ 4096 ≤ bed → u.rd LEDGER_STAT LEDGER_STAT_BEDN = bed))) ∧
    ((n < s.led.wearSince + 86400 * sec → gives (.ledgerWearCheck t) (fun u => u.led = s.led)) ∧
     (s.led.wearSince + 86400 * sec ≤ n → gives (.ledgerWearCheck t) (fun u => u.led.wearCount = 0 ∧ u.led.wearSince = n ∧
       (86400 * 1000 < s.led.wearCount → u.rdB LEDGER_EVT LEDGER_EVT_WEAR = true ∧
         s.Raised u srcLedger EV_LED_WEAR [s.led.wearCount]) ∧
       (s.led.wearCount ≤ 86400 * 1000 → u.led.pile = s.led.pile ∧ u.regs = s.regs))))

/-- A read of LEDGER_WIN0 latches the record at the cursor, zeros past the newest, and the oldest with LAPPED where the
cursor is older, which moves; a read of LEDGER_WIN15 advances the cursor past a latched record; SEDCLR makes its
record the oldest that can be reached; COMMISSION burns the bit and persists EV_LED_COMMISSION into bedrock slot 0;
BSRC clears a block's first entries; the archive copy goes to the next slot and re-arms the window unless HOLD; a
state block adds to its cell and a wrong block is recorded; a pass takes the references; a batch ends with its redo
slot invalid and its cells committed; commit mode ends with the queue persisted and a journal; a scrub pass records
its corrections, remaps a row corrected twice, and poisons what it cannot correct. (R421, R426, R427, R429, R431,
R433, R434, R435, R437, R438, R441, R442) -/
def Obligations.LedgerReadsArchivesAndCommits : Prop :=
  ∀ (s : State) (src t : Nat),
    let n := Nat.max s.now t
    let gives := fun (c : Instr) (P : State → Prop) => ∃ u, exec c s = .next u ∧ P u
    let unsnapped := fun (code : Nat) =>
      ∀ k, k < 16 → s.rdB (LEDGER_SNAPC k) LEDGER_SNAPC_SEN = true → s.rd (LEDGER_SNAPC k) LEDGER_SNAPC_SCODE ≠ code
    let holds := fun (u : State) (a : Nat) => ∀ i, i < 16 → u.reg (LEDGER_WIN i) = BitVec.ofNat 32 (s.loadLE (a + 4 * i) 4)
    let cur := (s.reg LEDGER_CUR).toNat
    (s.answers (LEDGER_WIN 0) = true →
      (s.rdB LEDGER_RSEL LEDGER_RSEL_AREA = true → cur < s.rd LEDGER_STAT LEDGER_STAT_BEDN →
        gives (.ledgerWin0Read t) (fun u => holds u (0x04450000 + cur * 64) ∧ u.reg LEDGER_CUR = s.reg LEDGER_CUR)) ∧
      (s.rdB LEDGER_RSEL LEDGER_RSEL_AREA = false → s.led.sedReach ≠ 0 →
        (cursorCase cur s.seqNew s.seqOld = 0 → gives (.ledgerWin0Read t) (fun u => holds u (s.sedAddr cur) ∧
          u.reg LEDGER_CUR = s.reg LEDGER_CUR ∧ u.fab.rdata = s.loadLE (s.sedAddr cur) 4)) ∧
        (cursorCase cur s.seqNew s.seqOld = 1 → gives (.ledgerWin0Read t) (fun u =>
          (∀ i, i < 16 → u.reg (LEDGER_WIN i) = 0#32) ∧ u.reg LEDGER_CUR = s.reg LEDGER_CUR)) ∧
        (cursorCase cur s.seqNew s.seqOld = 2 → gives (.ledgerWin0Read t) (fun u => holds u (s.sedAddr s.seqOld) ∧
          u.reg LEDGER_CUR = BitVec.ofNat 32 s.seqOld ∧ u.rdB LEDGER_EVT LEDGER_EVT_LAPPED = true)))) ∧
    (s.answers (LEDGER_WIN 15) = true → gives (.ledgerWin15Read t) (fun u => u.fab.rdata = (s.reg (LEDGER_WIN 15)).toNat ∧
      u.reg LEDGER_CUR = if s.led.winOk then s.reg LEDGER_CUR + 1#32 else s.reg LEDGER_CUR)) ∧
    (∀ v r, (s.at t).Admits LEDGER_CTL (LEDGER_CTL_SEDCLR.put (BitVec.ofNat 32 v) 1).toNat r → bit v 31 = false →
      unsnapped EV_LED_CFG_WRITE → unsnapped EV_LED_SED_CLEAR → gives (.sedclr src v t) (fun u => u.led.sedReach = 1 ∧
        u.led.seqNext = (s.led.seqNext + 2) % 2 ^ 32 ∧
        u.loadLE (0x04790000 + (s.led.sedSlot + 1) % 98304 * 64) 2 = EV_LED_SED_CLEAR)) ∧
    (∀ v r, (s.at t).Admits LEDGER_CTL (LEDGER_CTL_COMMISSION.put (BitVec.ofNat 32 v) 1).toNat r → bit v 30 = false →
      unsnapped EV_LED_CFG_WRITE → unsnapped EV_LED_COMMISSION → s.rd LEDGER_STAT LEDGER_STAT_BEDN = 0 →
      gives (.commission src v t) (fun u => u.commissioned = true ∧ u.rd LEDGER_STAT LEDGER_STAT_BEDN = 1 ∧
        u.loadLE 0x04450000 2 = EV_LED_COMMISSION)) ∧
    (∀ v r, (s.at t).Admits LEDGER_BCLR v r → gives (.bsrc src v t) (fun u =>
      let k := blockOf (v % 4096)
      Tab.get {} u.led.bufs k = { Tab.get {} s.led.bufs k with first := [] } ∧
      ∀ j, j ≠ k → Tab.get {} u.led.bufs j = Tab.get {} s.led.bufs j)) ∧
    (∀ ns kind seq, s.led.archBusy = some (ns, kind, some seq) → s.psReset = false → gives (.archiveCopyDone t) (fun u =>
      u.led.archBusy = none ∧ u.led.archNext = (s.led.archNext + 1) % 8 ∧ s.Raised u srcLedger EV_LED_ARCHIVE [s.led.archNext] ∧
      u.loadLE s.archAddr 4 = 0x46415231 ∧ u.loadLE (s.archAddr + 4) 4 = seq % 2 ^ 32 ∧ u.loadLE (s.archAddr + 8) 8 = ns % 2 ^ 64 ∧
      u.rdB AQ_WIN_STAT AQ_WIN_STAT_ARCH = false ∧
      (s.rdB AQ_WIN_CTL AQ_WIN_CTL_HOLD = false → u.rdB AQ_WIN_STAT AQ_WIN_STAT_FROZEN = false ∧ u.swp.trig = none) ∧
      (s.rdB AQ_WIN_CTL AQ_WIN_CTL_HOLD = true → u.swp = s.swp ∧
        u.rdB AQ_WIN_STAT AQ_WIN_STAT_FROZEN = s.rdB AQ_WIN_STAT AQ_WIN_STAT_FROZEN))) ∧
    (∀ (k j : Fin 64) d ds, s.lifeOn = true → s.psReset = false → s.rd LT_CTL LT_CTL_LTQ = k.val → s.rd LT_CTL LT_CTL_LTDONEQ = j.val →
      j ≠ k → s.queue k = d :: ds → s.rdB (FB_Q_CFG j) FB_Q_CFG_EN = true → (s.queue j).length < s.depth j →
      let a := d.toNat % 2 ^ 32
      let f := s.loadLE a 4
      gives (.lifetimeBlockInput t) (fun u => u.queue k = ds ∧ u.queue j = s.queue j ++ [d] ∧
        (d.toNat / 2 ^ 60 ≠ 1 → s.Raised u srcBoot EV_LT_INPUT [d.toNat % 2 ^ 32, d.toNat / 2 ^ 32]) ∧
        (d.toNat / 2 ^ 60 = 1 → d.toNat / 2 ^ 32 % 65536 = 1 → s.loadLE (a + 4) 4 = 1 → f < 20736 → (s.life f).used = true →
          (u.life f).bal = (s.life f).bal + s.loadLE (a + 20) 4 ∧ (u.life f).lastBlock = some (s.loadLE (a + 8) 8)) ∧
        (d.toNat / 2 ^ 60 = 1 → 20736 < f + s.loadLE (a + 4) 4 →
          s.Raised u srcBoot EV_LT_INPUT [f, s.loadLE (a + 4) 4, d.toNat / 2 ^ 32 % 65536]))) ∧
    (s.lifeOn = true → s.psReset = false → s.led.commitQ = [] → s.led.rollAt + s.rd LT_CTL LT_CTL_LTROLL * sec ≤ n →
      gives (.lifetimeRoll t) (fun u => u.led.rollAt = n ∧ u.led.rIn = s.led.aIn ∧ u.led.rOut = s.led.aOut ∧
        u.led.rInPrev = s.led.rIn ∧ u.led.rOutPrev = s.led.rOut ∧ u.led.batch ≠ none)) ∧
    (∀ b, s.led.batch = some b → s.psReset = false → gives (.lifetimeBatchDone t) (fun u =>
      u.led.redoNext = (s.led.redoNext + 1) % 48 ∧ u.loadLE (redoAddr s.led.redoNext) 8 = 2 ^ 64 - 1 ∧
      (∀ f ∈ b.1, (u.life f).fresh = true) ∧ (s.led.commitQ = [] → s.led.secDirty = false → u.led.batch = none))) ∧
    (s.led.commit = true → s.led.commitDone = none → s.psReset = false → s.sv.deferred = none →
      gives (.powerFailCommitDone t) (fun u => u.led.commitDone = some n ∧ u.led.queue = [] ∧ u.led.jpend = true ∧
        u.led.jseq = if s.led.jpend then s.led.jseq else (s.led.jseq + 1) % 2 ^ 32)) ∧
    (∀ (rows : List (Fin 16384)) k bad, s.led.commit = false → s.psReset = false →
      gives (.mramScrubPass rows k bad t) (fun u => u.led.scrubAt = n ∧ u.led.rowsCorr = rows.map (fun r => r.val) ∧
        ((∀ r ∈ rows, r.val ∉ s.led.rowsCorr) → bad = [] → n ≤ s.led.scrubAt + scrubInterval s.led.scrubBand →
          s.Raised u srcMram EV_MRAM_SCRUB [k] ∧
          u.rd PS_MRAM_CNT PS_MRAM_CNT_CORRN = Nat.min (s.rd PS_MRAM_CNT PS_MRAM_CNT_CORRN + k) 65535) ∧
        (∀ r, rows = [r] → r.val ∈ s.led.rowsCorr → s.led.remap.length < 440 →
          u.rdB PS_MRAM_EVT PS_MRAM_EVT_REMAP = true ∧ u.rd PS_MRAM_STAT PS_MRAM_STAT_SPARES = s.led.remap.length + 1) ∧
        (∀ a, bad = [a] → 0x04000000 ≤ a → a < 0x05000000 → a < 0x04490000 ∨ cellAddr 20736 ≤ a →
          u.rdB PS_MRAM_EVT PS_MRAM_EVT_UNCORR = true ∧ u.sound a 1 = false)))

/-- A core or memory rail under its threshold holds the chip in reset with cause 1, the 3.3 V rail with cause 3, a rail
above its limit starts the pre-sequence, a rail inside is noted; power-on release notes every rail; a power failure is
recorded, starts commit mode and halts the vector grains, and 100 ms of a recovered rail after the commit start the
pre-sequence with cause 8; an expired hold ends, RECLAIM ends one; RESET_N low starts the pre-sequence with cause 2,
its high gives the low time, a glitch is counted, TEST_N low resets with cause 1; at 5 ms the pre-sequence ends in the
chip reset; 5 ms of a held PW end in it too; PS comes up; a released reset restarts chip time from the RTC. (R18,
R150, R151, R470, R471, R472, R473, R474, R476, R479, R480, R484) -/
def Obligations.SupervisorHoldsResetsAndReleases : Prop :=
  ∀ (s : State) (src t : Nat),
    let n := Nat.max s.now t
    let gives := fun (c : Instr) (P : State → Prop) => ∃ u, exec c s = .next u ∧ P u
    let held := fun (u : State) (cause : Nat) => u.sv.resetAt = some n ∧ u.rd SV_RST_STAT SV_RST_STAT_CAUSE = cause ∧
      u.grains = State.reset.grains ∧ u.gate = State.reset.gate ∧ u.trip.str = State.reset.trip.str
    let pre := fun (u : State) (cause : Nat) => u.trip.preseqAt = some n ∧ u.sv.cause = cause
    let free := s.sv.resetAt = none ∧ s.trip.pwHoldAt = none ∧ s.trip.preseqAt = none ∧ s.led.commit = false
    (∀ rail, (rail = .vcore ∨ rail = .vddm → gives (.supplyFault rail .under t) (fun u => held u 1 ∧
        s.Raised u srcSV EV_SV_SUPPLY [railBit rail])) ∧
      (free → gives (.supplyFault .vio33 .under t) (fun u => held u 3)) ∧
      (free → rail ≠ .vbat → gives (.supplyFault rail .above t) (fun u => pre u 3)) ∧
      gives (.supplyFault rail .inside t) (fun u => u.rdB SV_SUP_STAT ⟨railBit rail, railBit rail⟩ = true ∧
        u.sv.resetAt = s.sv.resetAt ∧ u.led = s.led)) ∧
    (∀ vbat x32 (vsys : Fin 65536), s.sv.resetAt ≠ none → s.sv.rails < 16 → gives (.powerOnRelease vbat x32 vsys t) (fun u =>
      u.sv.rails = 15 ∧ u.sv.test = false ∧ u.rd SV_SUP_STAT SV_SUP_STAT_VSYS = vsys ∧
      u.rdB SV_SUP_STAT SV_SUP_STAT_VBATOK = vbat ∧ u.rd SV_CLK_STAT SV_CLK_STAT_LOCK = 15 ∧
      u.rdB SV_CLK_STAT SV_CLK_STAT_XTAL = true ∧ u.rdB SV_CLK_STAT SV_CLK_STAT_X32 = x32)) ∧
    (∀ (vsys : Fin 65536), s.sv.pf = false → vsys.val < s.rd SV_PF_CFG SV_PF_CFG_PFTH * 10 → s.sv.resetAt = none →
      gives (.powerFail vsys t) (fun u => u.sv.pf = true ∧ u.rdB SV_EVT SV_EVT_PF = true ∧
        s.Raised u srcSV EV_SV_POWER_FAIL [vsys.val] ∧
        (s.led.commit = false → s.psReset = false → u.led.commit = true ∧ u.led.commitAt = n) ∧
        (s.led.commit = false → s.psReset = true → u.led.commitWait = true) ∧
        ∀ v, v < 16 → (s.grain (vecSrc v)).run = .running → (u.grain (vecSrc v)).run = .halted)) ∧
    (∀ (vsys : Fin 65536) since, s.sv.pf = true → (s.rd SV_PF_CFG SV_PF_CFG_PFTH + s.rd SV_PF_CFG SV_PF_CFG_PFHYS) * 10 < vsys.val →
      (∀ d, s.sv.resetAt = none → s.trip.pwHoldAt = none → s.trip.preseqAt = none → s.led.commitDone = some d →
        Nat.max since d + 100 * ms ≤ n → gives (.powerFailRecovery vsys since t) (fun u => u.sv.pf = false ∧ pre u 8)) ∧
      (s.sv.resetAt ≠ none → since + 100 * ms ≤ n → gives (.powerFailRecovery vsys since t) (fun u => u.sv.pf = false ∧
        u.sv.resetAt = s.sv.resetAt))) ∧
    (∀ t0, s.sv.holdAt = some t0 → t0 + s.rd SV_HOLD_CTL SV_HOLD_CTL_THOLD * 10 * ms ≤ n → gives (.holdExpire t) (fun u =>
      u.sv.holdAt = none ∧ u.rdB SV_HOLD_CTL SV_HOLD_CTL_HOLDING = false ∧ u.out.ioInputs = true)) ∧
    (∀ v r, (s.at t).Admits SV_HOLD_CTL (SV_HOLD_CTL_RECLAIM.put (BitVec.ofNat 32 v) 1).toNat r → gives (.reclaim src v t) (fun u =>
      u.sv.holdAt = none ∧ u.rdB SV_HOLD_CTL SV_HOLD_CTL_HOLDING = false ∧ s.Raised u srcSV EV_SV_RECLAIM [0])) ∧
    (free → s.sv.lowAt = none → gives (.resetNLow t) (fun u => u.sv.lowAt = some n ∧ pre u 2)) ∧
    (∀ t0, s.sv.lowAt = some t0 → gives (.resetNHigh t) (fun u => u.sv.lowAt = none ∧ u.sv.highAt = n ∧
      u.sv.owedHeld = some (Nat.min (2 ^ 32 - 1) ((n - t0) / ms)) ∧
      (s.sv.resetAt ≠ none → s.rd SV_RST_STAT SV_RST_STAT_CAUSE = 2 →
        u.reg SV_RST_HOLD = BitVec.ofNat 32 (Nat.min (2 ^ 32 - 1) ((n - t0) / ms))))) ∧
    gives (.resetNGlitch t) (fun u => u.sv = s.sv ∧ u.rd SV_RST_STAT SV_RST_STAT_GLITCHN =
      Nat.min (s.rd SV_RST_STAT SV_RST_STAT_GLITCHN + 1) 65535) ∧
    gives (.testNLow t) (fun u => held u 1 ∧ u.sv.test = true) ∧
    (∀ t0, s.trip.preseqAt = some t0 → t0 + 5 * ms ≤ n → s.sv.cause < 16 → s.sv.cause ≠ 1 → gives (.preseqComplete t) (fun u =>
      held u s.sv.cause ∧ u.rdB SV_RST_STAT SV_RST_STAT_PRESEQ = true)) ∧
    ((∀ t0, s.trip.pwHoldAt = some t0 → t0 + 5 * ms ≤ n → s.sv.cause < 16 → s.sv.cause ≠ 1 → gives (.pwResetHold t) (fun u =>
        held u s.sv.cause)) ∧
      (s.trip.pwHoldAt = none → s.trip.preseqAt ≠ none → gives (.pwResetHold t) (fun u =>
        u.trip.pwHoldAt = some n ∧ u.trip.preseqAt = none ∧ u.sv.cause = s.sv.cause))) ∧
    (s.psReset = true → gives (.psResetComplete t) (fun u => u.psReset = false ∧
      (s.led.commitWait = true → u.led.commit = true))) ∧
    (s.releasable = true → gives (.chipResetRelease t) (fun u => u.sv.resetAt = none ∧
      u.rdB SV_SUP_STAT SV_SUP_STAT_RTCLOST = s.sv.rtcBad ∧ u.now % 2500 = 0 ∧
      (s.sv.rtcBad = true → u.now = 0) ∧
      (s.sv.rtcBad = false → (s.at t).rtcNow * 1000 ≤ u.now ∧ u.now < (s.at t).rtcNow * 1000 + 2500))) ∧
    (s.releasable = false → (s.at t).releasable = false → gives (.chipResetRelease t) (fun u => u.sv = s.sv))

/-- PS recovers once per reset: the session word is written and control grain 0 starts at its reset vector on a jump to
the boot ROM; a vector grain that fails its self-test is quarantined and recorded; a stopped crystal or lost lock
resets by way of a held PW with cause 4; two windows of the vote in a row decide; the RTC takes chip time each second;
a die sensor's reading stands in its register and raises its die's band at once, and one that is bad reads 0x7FFF and
forces B4; a band falls when 1 s has passed below it; 1 ms at the limit declares the shutdown, whose time limit starts
the pre-sequence with cause 5; 10 s below the release limit lift the hold. (R232, R440, R446, R482, R483, R484, R486,
R487, R488) -/
def Obligations.SupervisorKeepsClocksAndTemperature : Prop :=
  ∀ (s : State) (t : Nat),
    let n := Nat.max s.now t
    let gives := fun (c : Instr) (P : State → Prop) => ∃ u, exec c s = .next u ∧ P u
    (s.sv.resetAt = none → s.boot.psUp = false → gives (.psBootRecovery t) (fun u => u.boot.psUp = true ∧
      u.grain 0x300 = { run := .running, retired := n } ∧ u.loadLE (aliasBase 0x300) 4 = 0xA8000100 ∧
      u.loadLE 0x04718800 8 = 0x53455331 ∧ u.sv.owedReset = none ∧ u.sv.powerLost = false)) ∧
    (s.boot.psUp = true → gives (.psBootRecovery t) (fun u => u.grains = s.grains ∧ u.mem = s.mem)) ∧
    (∀ (v : Fin 16), (s.grain (vecSrc v)).run = .unstarted →
      gives (.vectorSelftestDone v true t) (fun u => u.rdB (ES_VB_STAT (v / 4)) ⟨v % 4, v % 4⟩ = true ∧ u.grains = s.grains) ∧
      gives (.vectorSelftestDone v false t) (fun u => u.rdB (ES_VB_STAT (v / 4)) ⟨v % 4, v % 4⟩ = false ∧
        (u.grain (vecSrc v)).run = .quarantined ∧ s.Raised u (vecSrc v) EV_VEC_SELFTEST_FAIL [vecSrc v])) ∧
    (∀ why, s.sv.resetAt = none → s.trip.pwHoldAt = none → s.led.commit = false → gives (.clockFault why t) (fun u =>
      u.trip.pwHoldAt = some n ∧ u.sv.cause = 4 ∧ s.Raised u srcSV EV_SV_CLOCK
        [match why with | .crystal => 1 | .core => 4 | .fabric => 5 | .pwm => 6] ∧
      u.rdB SV_CLK_STAT (match why with | .crystal => SV_CLK_STAT_XTAL | .core => ⟨0, 0⟩ | .fabric => ⟨1, 1⟩ | .pwm => ⟨2, 2⟩) = false)) ∧
    (∀ x f m,
      (voteOf x f m ≠ s.sv.vote → gives (.oscVoteWindow x f m t) (fun u => u.sv.vote = voteOf x f m ∧ u.sv.voteN = 1 ∧
        u.regs = s.regs ∧ u.led = s.led)) ∧
      (voteOf x f m = s.sv.vote → s.sv.voteN = 1 →
        (s.sv.vote = 0 → gives (.oscVoteWindow x f m t) (fun u => u.rd SV_CLK_STAT SV_CLK_STAT_VOTE = 0 ∧ u.led = s.led)) ∧
        (s.sv.vote = 3 → gives (.oscVoteWindow x f m t) (fun u => u.rd SV_CLK_STAT SV_CLK_STAT_VOTE = 3 ∧
          u.rdB SV_EVT SV_EVT_CLKVOTE = true ∧ s.Raised u srcSV EV_SV_CLOCK [3])) ∧
        (s.sv.vote = 1 → s.sv.resetAt = none → s.trip.pwHoldAt = none → s.led.commit = false →
          gives (.oscVoteWindow x f m t) (fun u => u.trip.pwHoldAt = some n ∧ u.sv.cause = 4 ∧
            u.rd SV_CLK_STAT SV_CLK_STAT_VOTE = 1)))) ∧
    (s.sv.resetAt = none → s.sv.rtcAt + sec ≤ n → gives (.rtcLoad t) (fun u =>
      u.sv = { s.sv with rtc := n / 1000, rtcAt := n, rtcBad := false })) ∧
    (n < s.sv.rtcAt + sec → gives (.rtcLoad t) (fun u => u.sv = s.sv)) ∧
    (∀ (i : Fin 13) (temp : Int) ok,
      let d := dieOf i
      (ok = true → -5000 ≤ temp → temp ≤ 20000 → s.brokenS i = false → gives (.dieSensorConvert i temp ok t) (fun u =>
        u.rd (SV_TSENS i) SV_TSENS_TS = wrapInt temp 16 ∧ u.tempS i = temp ∧ u.brokenS i = false ∧
        s.rd SV_TH_STAT (bandFld d) ≤ u.rd SV_TH_STAT (bandFld d) ∧
        ∀ b, 1 ≤ b → b ≤ 4 → bandAt d b ≤ temp → b ≤ u.rd SV_TH_STAT (bandFld d))) ∧
      (ok = false ∨ temp < -5000 ∨ 20000 < temp → gives (.dieSensorConvert i temp ok t) (fun u =>
        u.rd (SV_TSENS i) SV_TSENS_TS = 0x7FFF ∧ u.brokenS i = true ∧ 4 ≤ u.rd SV_TH_STAT (bandFld d) ∧
        4 ≤ u.rd SV_TH_STAT SV_TH_STAT_BAND ∧ (s.brokenS i = false → u.rdB SV_EVT SV_EVT_BROKEN = true)))) ∧
    (∀ (d : Fin 2) t0,
      let b := s.rd SV_TH_STAT (bandFld d)
      b ≠ 0 → Tab.get none s.sv.coolAt (d * 8 + b) = some t0 →
      (n < t0 + sec → gives (.bandFall d t) (fun u => u.rd SV_TH_STAT (bandFld d) = b)) ∧
      (t0 + sec ≤ n → b = 1 ∨ Tab.get none s.sv.coolAt (d * 8 + (b - 1)) = none →
        gives (.bandFall d t) (fun u => u.rd SV_TH_STAT (bandFld d) = b - 1))) ∧
    (∀ (i : Fin 13) t0, Tab.get none s.sv.hotAt i.val = some t0 → t0 + ms ≤ n → s.sv.shdnAt = none → s.sv.resetAt = none →
      gives (.thermalShutdown i t) (fun u => u.sv.shdnAt = some n ∧ u.sv.hotDie = dieOf i + 1 ∧
        s.Raised u srcSV EV_SV_THERM_SHDN [i.val, s.rd (SV_TSENS i) SV_TSENS_TS])) ∧
    (s.sv.shdnAt ≠ none → s.sv.shdnStart + (102 + s.rd PW_TRIP_CFG PW_TRIP_CFG_TOPENMAX) * ms ≤ n → s.sv.resetAt = none →
      s.trip.pwHoldAt = none → s.trip.preseqAt = none → s.led.commit = false → gives (.thermalPreseqTrigger t) (fun u =>
        u.trip.preseqAt = some n ∧ u.sv.cause = 5)) ∧
    (∀ t0, s.sv.coldAt = some t0 → (t0 + 10 * sec ≤ n → gives (.thermalResetRelease t) (fun u => u.sv.hotDie = 0)) ∧
      (n < t0 + 10 * sec → gives (.thermalResetRelease t) (fun u => u.sv = s.sv)))

/-- A VSET that no reason refuses becomes the target with its slew, is acknowledged and supersedes one that waits; a
refused one gets its NAK and leaves the target; a repetition gets the answer to the first again; STATQ, IFF and LIMQ
act and are answered while the link is enabled and get NAK 4 otherwise, an unknown type NAK 1; a bad frame is counted
and recorded; responses leave in order with a running sequence; a settled bus completes the VSET; IFF lapses; the
limits go out each period; a silent link is recorded and after 100 ms more falls back; a lost clock stops the link. An
edge of PSYNC_IN is measured, 8 even intervals lock, a far one and a missing one lose the lock, and the hold expires.
(R273, R285, R286, R288, R289, R290, R291, R292, R293, R295, R296, R297) -/
def Obligations.BusVoltageLinkAndSyncTracker : Prop :=
  ∀ (s : State) (t : Nat),
    let n := Nat.max s.now t
    let gives := fun (c : Instr) (P : State → Prop) => ∃ u, exec c s = .next u ∧ P u
    let sends := fun (u : State) (prio ty payload : Nat) => (prio, ty, payload % 2 ^ 24) ∈ u.regu.rsp
    let en := s.rdB PW_BVL_CTL PW_BVL_CTL_EN = true
    (∀ (seq : Fin 256) (payload : Nat),
      let pl := payload % 2 ^ 24
      ((∀ ty ans, s.regu.vsetLast ≠ some (seq.val, pl, ty, ans)) →
        (s.vsetReason pl = 0 → gives (.vset seq payload t) (fun u => u.regu.target = pl / 256 ∧
          u.regu.slew = (if pl % 256 = 0 then s.rd PW_BUS_CFG PW_BUS_CFG_VSLEWDEF else pl % 256) ∧
          u.regu.vsetPend = some seq.val ∧ u.regu.fallback = false ∧ sends u 1 0x41 (seq.val * 2 ^ 16) ∧
          u.rd PW_BVL_STAT PW_BVL_STAT_PENDSEQ = seq ∧ u.rdB PW_BVL_STAT PW_BVL_STAT_PEND = true ∧
          ∀ q, s.regu.vsetPend = some q → sends u 2 0x43 (q % 256 * 2 ^ 16) ∧ u.rdB PW_BVL_EVT PW_BVL_EVT_SUPERSEDED = true)) ∧
        (s.vsetReason pl ≠ 0 → gives (.vset seq payload t) (fun u => u.regu.target = s.regu.target ∧
          u.regu.vsetPend = s.regu.vsetPend ∧ sends u 1 0x44 (seq.val * 2 ^ 16 + 0x100 + s.vsetReason pl) ∧
          u.rdB PW_BVL_EVT PW_BVL_EVT_NAKD = true))) ∧
      (∀ ty ans, s.regu.vsetLast = some (seq.val, pl, ty, ans) → gives (.vset seq payload t) (fun u =>
        u.regu.target = s.regu.target ∧ u.regu.vsetPend = s.regu.vsetPend ∧ ∃ prio, sends u prio ty ans))) ∧
    (∀ (seq : Fin 256),
      (en → gives (.statq seq t) (fun u => sends u 3 0x53 s.statPayload ∧ sends u 3 0x50 s.vbusReport ∧
        u.regu.linkAt = n ∧ u.regu.silentAt = none)) ∧
      (¬ en → gives (.statq seq t) (fun u => sends u 1 0x44 (seq.val * 2 ^ 16 + 0x204))) ∧
      (∀ payload, en → gives (.iff seq payload t) (fun u => u.regu.iff_ = sext payload 24 * 100 ∧ u.regu.iffAt = n)) ∧
      (∀ payload, ¬ en → gives (.iff seq payload t) (fun u => u.regu.iff_ = s.regu.iff_ ∧
        sends u 1 0x44 (seq.val * 2 ^ 16 + 0x304))) ∧
      (en → gives (.limq seq t) (fun u => u.regu.limAt = n ∧ sends u 3 0x51 ((s.at t).sectionCeil true / 100) ∧
        sends u 3 0x52 ((s.at t).sectionCeil false / 100))) ∧
      (∀ (ty : Fin 128), ty.val = 0 ∨ 4 < ty.val → gives (.bvlUnknownType ty seq t) (fun u =>
        sends u 1 0x44 (seq.val * 2 ^ 16 + ty.val * 2 ^ 8 + 1))) ∧
      gives (.bvlFrameDiscard seq t) (fun u => u.rdB PW_BVL_EVT PW_BVL_EVT_CRCERR = true ∧
        s.Raised u srcReg EV_BVL_CRC [seq.val] ∧ u.regu = s.regu)) ∧
    (∀ p ty pl rest, s.regu.rsp = (p, ty, pl) :: rest → s.rd PW_BVL_STAT PW_BVL_STAT_LSTATE ≠ 0 → s.regu.sentEnd ≤ n →
      gives (.bvlResponseSend t) (fun u => u.regu = { s.regu with
        rsp := rest, rspSeq := (s.regu.rspSeq + 1) % 256, sent := some (bvlFrame ty s.regu.rspSeq pl),
        sentEnd := n + 2240000 })) ∧
    (∀ q t0, s.regu.vsetPend = some q → s.regu.settleAt = some t0 → t0 + s.rd PW_BUS_SETTLE PW_BUS_SETTLE_TSETTLE * ms ≤ n →
      gives (.vsetSettled t) (fun u => u.regu.vsetPend = none ∧ sends u 2 0x42 (q % 256 * 2 ^ 16) ∧
        u.rdB PW_BVL_STAT PW_BVL_STAT_PEND = false)) ∧
    (s.regu.iffAt + 10 * ms ≤ n → gives (.iffTimeout t) (fun u => u.regu = { s.regu with iff_ := 0 })) ∧
    (en → s.regu.limAt + s.rd PW_BVL_CTL PW_BVL_CTL_LIMPER * ms ≤ n → gives (.limPeriodic t) (fun u => u.regu.limAt = n ∧
      sends u 3 0x51 ((s.at t).sectionCeil true / 100) ∧ sends u 3 0x52 ((s.at t).sectionCeil false / 100))) ∧
    (en → s.regu.silentAt = none → s.regu.linkAt + 10 * ms ≤ n → gives (.bvlSilence t) (fun u => u.regu.silentAt = some n ∧
      u.rd PW_BVL_STAT PW_BVL_STAT_LSTATE = (if s.regu.fallback then 3 else 2) ∧ s.Raised u srcReg EV_BVL_TIMEOUT [0])) ∧
    (∀ t0, s.regu.silentAt = some t0 → t0 + 100 * ms ≤ n → s.regu.fallback = false → gives (.bvlFallback t) (fun u =>
      u.regu.fallback = true ∧ u.regu.vsetPend = none ∧ u.rd PW_BVL_STAT PW_BVL_STAT_LSTATE = 3 ∧
      u.rdB PW_BVL_STAT PW_BVL_STAT_ALERT = true ∧
      (s.rdB PW_BUS_CFG PW_BUS_CFG_TOACT = true → ∀ r ∈ s.strings, s.sregMode r = 1 → u.sregMode r = 2))) ∧
    gives (.bvlClockLoss t) (fun u => u.rd PW_BVL_STAT PW_BVL_STAT_LSTATE = 0 ∧ u.regu.silentAt.isSome = true ∧
      (s.regu.silentAt = none → s.Raised u srcReg EV_BVL_TIMEOUT [0])) ∧
    (∀ (width : Nat),
      (width < 200 ∨ s.rdB PW_PWM_CFG PW_PWM_CFG_SYNCEN = false → gives (.psyncEdge width t) (fun u =>
        u.regu.psyncAt = s.regu.psyncAt ∧ u.regu.psyncIv = s.regu.psyncIv ∧ u.regs = s.regs)) ∧
      (200 ≤ width → s.rdB PW_PWM_CFG PW_PWM_CFG_SYNCEN = true →
        (s.regu.psyncAt = none → gives (.psyncEdge width t) (fun u => u.regu.psyncAt = some n ∧
          (s.syncState = 0 → u.syncState = 1))) ∧
        (∀ t0, s.regu.psyncAt = some t0 → s.syncState ≠ 2 → gives (.psyncEdge width t) (fun u => u.regu.psyncAt = some n ∧
          u.regu.psyncIv = ((n - t0) :: s.regu.psyncIv).take 8 ∧
          (s.lockable (((n - t0) :: s.regu.psyncIv).take 8) = true → u.syncState = 2 ∧ s.Raised u srcReg EV_REG_SYNC_LOCK [0]) ∧
          (s.lockable (((n - t0) :: s.regu.psyncIv).take 8) = false → u.syncState ≠ 2))) ∧
        (∀ t0, s.regu.psyncAt = some t0 → s.syncState = 2 → 20 * (n - t0) < 19 * s.carrierPer ∨ 21 * s.carrierPer < 20 * (n - t0) →
          gives (.psyncEdge width t) (fun u => u.syncState = 3 ∧ u.regu.holdAt = some n ∧
            s.Raised u srcReg EV_REG_SYNC_LOST [0])))) ∧
    (∀ t0, s.regu.psyncAt = some t0 → s.syncState = 2 → 2 * t0 + 3 * s.carrierPer ≤ 2 * n → gives (.psyncLoss t) (fun u =>
      u.syncState = 3 ∧ u.regu.holdAt = some n ∧ u.regu.psyncAt = none ∧ u.rdB PW_REG_EVT PW_REG_EVT_SYNCLOST = true ∧
      s.Raised u srcReg EV_REG_SYNC_LOST [0])) ∧
    (∀ t0, s.regu.holdAt = some t0 → s.syncState = 3 → t0 + s.rd PW_PWM_SYNC PW_PWM_SYNC_SYNCHOLD * s.carrierPer ≤ n →
      gives (.syncHoldExpire t) (fun u => u.regu.holdAt = none ∧ u.syncState = (if s.regu.psyncAt.isSome then 1 else 0)))

/-- Weights that stand for 100 ms count as stale once, a write of them ends that; 100 ms of a sound bus source return the
idle strings to mode 1; a period of an active phase that may drive moves its carrier, keeps its duty within DMIN and
DMAX and counts a current below 5 % of its share, and the twentieth removes the phase; a removed phase counts as at
zero current after 100 µs; a refresh pulse, a recalibration of the delay line happen when due; PHEN enables a failed
phase again; an admitted START activates the excitation, STOP starts the fall of its envelope, the envelope's end and
an unplaced compensation end it with reasons 1 and 4; a capacitance move ends after 2 s. (R275, R277, R280, R281,
R284, R298, R299, R301, R302, R303, R304, R305) -/
def Obligations.RegulatorsRunRampAndExcite : Prop :=
  ∀ (s : State) (src t : Nat),
    let n := Nat.max s.now t
    let gives := fun (c : Instr) (P : State → Prop) => ∃ u, exec c s = .next u ∧ P u
    (s.regu.weightsStale = false →
      (s.regu.weightsAt + 100 * ms ≤ n → gives (.weightsStale t) (fun u => u.regu.weightsStale = true ∧
        u.rdB PW_REG_EVT PW_REG_EVT_WSTALE = true ∧ s.Raised u srcReg EV_REG_WEIGHTS_STALE [0] ∧
        ∀ r dis, u.weight r dis = 0x1000)) ∧
      (n < s.regu.weightsAt + 100 * ms → gives (.weightsStale t) (fun u => u.regu = s.regu ∧ u.led = s.led))) ∧
    (∀ t0, s.regu.vbusSound = some t0 → s.regu.vbusFault = true → t0 + 100 * ms ≤ n → gives (.vbusSourceRecover t) (fun u =>
      u.regu.vbusFault = false ∧ (s.fallbackIdles = false → ∀ r ∈ s.strings, (s.rstr r).idles = true → s.canRun r = true →
        s.sregMode r = 0 ∨ s.sregMode r = 2 → u.sregMode r = 1))) ∧
    (∀ (r : Fin 12) (slot : Fin 4) (ones len : Nat),
      let k := s.slotHb r slot
      s.sregEn r = true → s.sregMode r ≠ 0 → s.sregMode r ≠ 7 → s.sregMode r ≠ 2 → s.phActive r slot = true → s.regulatorDrives k = true →
      (s.rstr r).burst = false → s.rd (PW_SREG_RAT r) PW_SREG_RAT_IBURST = 0 →
      s.rd (PW_SREG_DLIM r) PW_SREG_DLIM_DMIN ≤ s.rd (PW_SREG_DLIM r) PW_SREG_DLIM_DMAX →
      let cnt := s.openCount r k (s.phaseMean k ones len)
      gives (.phasePeriodStart r slot ones len t) (fun u =>
        s.rd (PW_SREG_DLIM r) PW_SREG_DLIM_DMIN * 256 ≤ (u.phase k).d ∧ (u.phase k).d ≤ s.rd (PW_SREG_DLIM r) PW_SREG_DLIM_DMAX * 256 ∧
        (cnt < 20 → (u.phase k).openN = cnt ∧ ∀ j, j ≠ k → u.phase j = s.phase j) ∧
        (20 ≤ cnt → (u.phase k).isOpen = true ∧ (u.phase k).decayAt = some n ∧ u.rdB PW_REG_EVT PW_REG_EVT_PHOPEN = true ∧
          bit (u.rd (PW_SREG_STAT r) PW_SREG_STAT_PHFAIL) slot = true))) ∧
    (∀ (r : Fin 12) (slot : Fin 4) (ones len : Nat), s.sregMode r = 0 ∨ s.sregMode r = 7 →
      gives (.phasePeriodStart r slot ones len t) (fun u => u.regu = s.regu ∧ u.gate = s.gate ∧ u.regs = s.regs)) ∧
    (∀ (i : Fin 24) t0, (s.phase i).decayAt = some t0 →
      (t0 + 100 * us ≤ n → gives (.phaseDecayDone i t) (fun u => (u.phase i).decayAt = none)) ∧
      (n < t0 + 100 * us → gives (.phaseDecayDone i t) (fun u => u.regu = s.regu))) ∧
    (∀ (i : Fin 24) r, (s.hb i).pend = none → s.stringOfHb i = some r → s.sregMode r = 0 → (s.tstr r).hc = true →
      s.regulatorDrives i = true → s.armed i = true →
      (s.phase i).refreshAt + s.rd PW_PWM_BURST PW_PWM_BURST_TREFRESH * us ≤ n → gives (.refreshPulse i t) (fun u =>
        (u.phase i).refreshAt = n ∧ (u.hb i).en = true ∧ (u.hb i).pulse = false ∧ u.hbState i = 1)) ∧
    (s.regu.dlineAt + 10 * us ≤ n → gives (.delayLineRecal t) (fun u => u.regu = { s.regu with dlineAt := n })) ∧
    (∀ (r : Fin 12) v row, (s.at t).Admits (PW_SHW r) v row → gives (.shareWeightWrite src r v t) (fun u =>
      u.regu.weightsAt = n ∧ u.regu.weightsStale = false ∧
      u.weight r true = PW_SHW_WDIS.get (BitVec.ofNat 32 v) ∧ u.weight r false = PW_SHW_WCHG.get (BitVec.ofNat 32 v))) ∧
    (∀ (r : Fin 12) (k : Fin 4) row, (s.at t).Admits (PW_SREG_PHEN r) (2 ^ k.val) row →
      bit (s.rd (PW_SREG_STAT r) PW_SREG_STAT_PHFAIL) k = true → gives (.phen src r (2 ^ k.val) t) (fun u =>
        bit (u.rd (PW_SREG_STAT r) PW_SREG_STAT_PHFAIL) k = false ∧ (u.phase (s.slotHb r k)).isOpen = false ∧
        (u.phase (s.slotHb r k)).decayAt = none ∧ s.Raised u srcReg EV_REG_PHASE_EN [s.slotHb r k])) ∧
    (∀ v row, (s.at t).Admits PW_EXC_CTL (PW_EXC_CTL_START.put (BitVec.ofNat 32 v) 1).toNat row → bit v 30 = false →
      gives (.excStart src v t) (fun u => u.rdB PW_EXC_CTL PW_EXC_CTL_XACT = true ∧ u.regu.excStop = none ∧
        u.rd PW_EXC_CTL PW_EXC_CTL_XSTR = PW_EXC_CTL_XSTR.get (BitVec.ofNat 32 v))) ∧
    (∀ v row, (s.at t).Admits PW_EXC_CTL (PW_EXC_CTL_STOP.put (BitVec.ofNat 32 v) 1).toNat row → bit v 31 = false →
      s.rdB PW_EXC_CTL PW_EXC_CTL_XACT = true → s.regu.excStop = none → gives (.excStop src v t) (fun u =>
        u.regu.excStop = some (s.at t).ns ∧ u.rdB PW_EXC_CTL PW_EXC_CTL_XACT = true)) ∧
    (∀ st, s.regu.excStop = some st → s.rdB PW_EXC_CTL PW_EXC_CTL_XACT = true →
      st + s.rd PW_EXC_CTL PW_EXC_CTL_XRAMPT * 1000000 ≤ (s.at t).ns → gives (.excEnvelopeEnd t) (fun u =>
        u.rdB PW_EXC_CTL PW_EXC_CTL_XACT = false ∧ u.rd PW_EXC_STAT PW_EXC_STAT_XEND = 1 ∧
        s.Raised u srcReg EV_REG_EXC_END [s.rd PW_EXC_CTL PW_EXC_CTL_XSTR, 1])) ∧
    (∀ t0, s.regu.excShort = some t0 → s.rdB PW_EXC_CTL PW_EXC_CTL_XACT = true → t0 + 10 * ms ≤ n →
      gives (.excCompTimeout t) (fun u => u.rdB PW_EXC_CTL PW_EXC_CTL_XACT = false ∧ u.rd PW_EXC_STAT PW_EXC_STAT_XEND = 4)) ∧
    (∀ (r : Fin 12), s.sregEn r = true → s.sregMode r = 4 → (s.rstr r).capAt + 2 * sec ≤ n → gives (.capmoveTimeout r t) (fun u =>
      u.sregMode r = 0 ∧ (u.rstr r).iref = 0 ∧ s.Raised u srcReg EV_REG_CAPDIS [r.val]))

/-- A pulse edge turns the opposite switch off at once and asks for its own after the dead time, a disable turns both off;
a desaturation flag past the blanking time, at its end too, and a fast overcurrent of a switch that is on are shorts:
the half-bridge is faulted with its cause and everything in scope enters the stop; a stray or missing feedback and an
interlock timeout are faults with both switches hard off; a member of the stop goes hard off when due, and the stop
ends; GATE_KILL puts every switch on plateau, then hard off, and lets go; gate undervoltage faults all half-bridges
while one switches; the leak test runs its steps and latches a failure; a retry and HBCLR clear a fault; test mode
drives its half-bridge and refuses both on. (R311, R312, R313, R314, R315, R317, R318, R319, R321, R322, R323, R325) -/
def Obligations.GatesStopFaultAndRetry : Prop :=
  ∀ (s : State) (src t : Nat),
    let n := Nat.max s.now t
    let gives := fun (c : Instr) (P : State → Prop) => ∃ u, exec c s = .next u ∧ P u
    let cause := fun (u : State) (k c : Nat) => u.faulted k = true ∧ u.rd (PW_HB_STAT k) PW_HB_STAT_CAUSE = c
    let stops := fun (u : State) (k c : Nat) => cause u k c ∧ u.rdB PW_GD_EVT PW_GD_EVT_SHORT = true ∧ u.inStop = true ∧
      (u.hb k).stopFault = true ∧ ∀ m ∈ s.stopScope k, s.hbState m ≠ 3 → s.hbState m ≠ 4 → (u.hb m).inStop = true
    let rest := fun (u : State) (k : Nat) => u.hbState k = if s.armed k then 0 else 7
    (∀ (k : Fin 24) (hi : Bool), (s.hb k).pend = none →
      let on := s.swOut k hi = 2
      let blanked := (if hi then (s.hb k).riseH else (s.hb k).riseL) + s.tblank k ≤ n
      (∀ en pulse, s.regulatorDrives k = true →
        (en = false → gives (.pwmEdge k en pulse t) (fun u => rest u k ∧ (u.hb k).pend = none ∧
          u.swOut k hi = if on then 0 else s.swOut k hi)) ∧
        (en = true → s.armed k = true → gives (.pwmEdge k en pulse t) (fun u => u.hbState k = 1 ∧ u.swOut k (!pulse) ≠ 2 ∧
          (s.swOut k pulse = 2 → u.swOut k pulse = 2) ∧
          (s.swOut k pulse ≠ 2 → u.swOut k pulse ≠ 2 ∧ ∃ due, (u.hb k).pend = some (pulse, due) ∧ n + s.tdead k ≤ due)))) ∧
      (∀ level, gives (.desatFlag k hi level t) (fun u => u.hbDs k hi = level ∧
        (level = true → on → blanked → s.hbState k ≠ 4 → s.hbState k ≠ 3 → (s.hb k).stopFault = false →
          stops u k (if hi then 1 else 2)) ∧
        (level = false ∨ ¬ on → u.gate = s.gate))) ∧
      gives (.blankEnd k hi t) (fun u =>
        (s.hbDs k hi = true → on → blanked → s.hbState k ≠ 4 → s.hbState k ≠ 3 → (s.hb k).stopFault = false →
          stops u k (if hi then 1 else 2)) ∧
        (s.hbDs k hi = false → u.gate = s.gate ∧ u.regs = s.regs)) ∧
      (∀ o1 o2, gives (.fastOvercurrent k o1 o2 t) (fun u => (u.hb k).foc = (s.focOver k o1 && s.focOver k o2) ∧
        (s.focOver k o1 = true → s.focOver k o2 = true → on → s.hbState k ≠ 4 → s.hbState k ≠ 3 → (s.hb k).stopFault = false →
          stops u k 3))) ∧
      (s.gate.leak = none →
        gives (.feedbackChange k hi false t) (fun u => u.hbFb k hi = false ∧ u.gate = s.gate) ∧
        (s.swOut k hi = 0 → (if hi then (s.hb k).fallH else (s.hb k).fallL) + s.til k < n → s.hbState k ≠ 3 → s.hbState k ≠ 4 →
          s.hbState k ≠ 6 → gives (.feedbackChange k hi true t) (fun u => cause u k (if hi then 5 else 6) ∧ u.hbOut k = 0 ∧
            u.rdB PW_GD_EVT PW_GD_EVT_FBERR = true)))) ∧
    (∀ (k : Fin 24),
      (∀ hi due, (s.hb k).pend = some (hi, due) → s.hbFb k (!hi) = true →
        (if hi then (s.hb k).fallL else (s.hb k).fallH) + s.til k ≤ n → gives (.interlockTimeout k t) (fun u =>
          cause u k 4 ∧ u.hbOut k = 0 ∧ u.rdB PW_GD_EVT PW_GD_EVT_INTERLOCK = true)) ∧
      ((s.hb k).pend = none → (s.at t).lateOn k true = true → gives (.interlockTimeout k t) (fun u => cause u k 5 ∧ u.hbOut k = 0)) ∧
      (∀ due, (s.hb k).offDue = some due → (s.hb k).inStop = true → due ≤ n → gives (.stopHardOff k t) (fun u =>
        u.hbOut k = 0 ∧ (u.hb k).offDue = none ∧ due ≤ u.gate.lastOff)) ∧
      (s.hbState k = 3 → (s.hb k).faultAt + s.rd PW_GD_CFG PW_GD_CFG_RWAIT * ms ≤ n →
        (s.faultInactive k = true → gives (.retryWaitEnd k t) (fun u => u.faulted k = false ∧ rest u k ∧
          u.rd (PW_HB_STAT k) PW_HB_STAT_CAUSE = 0 ∧
          s.Raised u srcGate EV_GD_RETRY [k.val, s.rd (PW_HB_STAT k) PW_HB_STAT_CAUSE])) ∧
        (s.faultInactive k = false → (s.hb k).faultAt + s.rd FB_FLT_CFG FB_FLT_CFG_TACTMAX * 10 * ms ≤ n →
          gives (.retryWaitEnd k t) (fun u => u.hbState k = 4 ∧ u.rdB PW_GD_EVT PW_GD_EVT_LATCHED = true))) ∧
      (∀ row, (s.at t).Admits PW_GD_CLR (2 ^ k.val) row → s.hbState k = 4 → gives (.hbclr src (2 ^ k.val) t) (fun u =>
        u.faulted k = false ∧ rest u k ∧ u.rd (PW_HB_STAT k) PW_HB_STAT_TRIES = 0 ∧ (u.hb k).faults = [] ∧
        s.Raised u srcGate EV_GD_CLEAR [k.val, s.rd (PW_HB_STAT k) PW_HB_STAT_CAUSE])) ∧
      (∀ v row, (s.at t).Admits PW_GD_TEST (PW_GD_TEST_TEN.put (BitVec.ofNat 32 v) 1).toNat row →
        PW_GD_TEST_THB.get (BitVec.ofNat 32 v) = k.val → gives (.testModeEnter src v t) (fun u => u.hbState k = 5 ∧
          u.rdB PW_GD_TEST PW_GD_TEST_TEN = true)) ∧
      (∀ cmd row, cmd < 16 → (s.at t).Admits PW_GD_TEST (PW_GD_TEST_TCMD.put (s.reg PW_GD_TEST) cmd).toNat row →
        s.rdB PW_GD_TEST PW_GD_TEST_TEN = true → s.rd PW_GD_TEST PW_GD_TEST_THB = k.val →
        (s.bothOn k cmd = true → gives (.testCommand src cmd t) (fun u => u.hbOut k = 0 ∧
          u.rdB PW_GD_EVT PW_GD_EVT_BOTHON = true ∧ s.Raised u srcGate EV_GD_BOTHON [k.val, cmd])) ∧
        (s.bothOn k cmd = false → cmd / 4 ≠ 2 → cmd % 4 ≠ 2 → gives (.testCommand src cmd t) (fun u => u.hbOut k = cmd ∧
          u.rd PW_GD_TEST PW_GD_TEST_TCMD = cmd)))) ∧
    (s.inStop = true → (∀ m, m < 24 → (s.hb m).inStop = true → (s.hb m).offDue = none) → s.gate.lastOff + 20 * us ≤ n →
      gives (.stopEnd t) (fun u => u.inStop = false ∧ ∀ m, m < 24 → (u.hb m).inStop = false)) ∧
    (s.rdB SF_STAT SF_STAT_GKILL = true → s.rdB PW_GD_STAT PW_GD_STAT_KILL = false → gives (.gateKillAssert t) (fun u =>
      u.rdB PW_GD_STAT PW_GD_STAT_KILL = true ∧ u.gate.killAt = n ∧ s.Raised u srcGate EV_GD_KILL [0, 0] ∧
      ∀ m hi, m < 24 → u.swOut m hi ≠ 2)) ∧
    (s.rdB PW_GD_STAT PW_GD_STAT_KILL = true →
      (s.gate.killAt + us ≤ n → gives (.gateKillHardOff t) (fun u => ∀ m, m < 24 → u.hbOut m = 0 ∧ (u.hb m).pend = none)) ∧
      (s.rdB SF_STAT SF_STAT_GKILL = false → gives (.gateKillRelease t) (fun u =>
        u.rdB PW_GD_STAT PW_GD_STAT_KILL = false ∧ u.gate = s.gate))) ∧
    gives (.gdUvLow t) (fun u => u.rdB PW_GD_STAT PW_GD_STAT_UV = true ∧
      ((∃ m, m < 24 ∧ (s.hbState m = 1 ∨ s.hbState m = 2 ∨ s.hbState m = 5)) → ∀ m, m < 24 → u.hbOut m = 0 ∧
        (s.hbState m ≠ 4 → cause u m 7))) ∧
    gives (.gdUvHigh t) (fun u => u.rdB PW_GD_STAT PW_GD_STAT_UV = false ∧ u.gate = s.gate) ∧
    (∀ v row m ms', (s.at t).Admits PW_GD_LEAK (PW_GD_LEAK_LSTART.put (BitVec.ofNat 32 v) 1).toNat row →
      (List.range 24).filter (fun j => bit (PW_GD_LEAK_LMASK.get (BitVec.ofNat 32 v)) j) = m :: ms' →
      gives (.leakStart src v t) (fun u => u.rdB PW_GD_LEAK PW_GD_LEAK_LBUSY = true ∧
        u.rd PW_GD_LRES PW_GD_LRES_LFAIL = 0 ∧ u.gate.leak = some (m :: ms', 1, n + us) ∧ u.hbState m = 6)) ∧
    (∀ m ms' due, m < 24 → m ∉ ms' → due ≤ n →
      (s.gate.leak = some (m :: ms', 1, due) → s.hbOut m = 0 → gives (.leakStepEnd t) (fun u => u.swOut m true = 3 ∧
        u.gate.leak = some (m :: ms', 2, n + s.rd PW_GD_LTIME PW_GD_LTIME_TLEAK * us))) ∧
      (s.gate.leak = some (m :: ms', 2, due) → s.swOut m true = 3 → s.hbFb m true = true → gives (.leakStepEnd t) (fun u =>
        cause u m 8 ∧ u.hbState m = 4 ∧ bit (u.rd PW_GD_LRES PW_GD_LRES_LFAIL) m = true)) ∧
      (s.gate.leak = some ([m], 5, due) → s.hbOut m = 0 → gives (.leakStepEnd t) (fun u => u.gate.leak = none ∧ rest u m ∧
        u.rdB PW_GD_LEAK PW_GD_LEAK_LBUSY = false)))

/-- A channel whose input changes is on exactly when its input is on and no latch, cooling or lock-out holds it off; a
turn-off clears its sense, limit and open-load readings and adds its clamp energy to the account, which latches it at
the budget, a turn-on of a GC channel after 100 ms opens its inrush window; a load timer starts its next period with
the settings then and ends its high time; an inrush window closes when due; a limiting channel stays on; 175 °C turns
a channel off with the attribution, and latches it in latch mode or after NRST restarts; a cooled GC channel restarts;
160 °C and a broken sensor raise source 21 for an HC or LC channel, and a broken sensor latches a GC channel; a sense
fault and an open load are recorded; VSW low turns every channel off with source 22 and its recovery lets them follow;
LSCLR releases latched channels. (R330, R332, R333, R334, R335, R336, R337, R338, R339, R340, R343, R344) -/
def Obligations.LoadSwitchChannelsFollowTheirInputs : Prop :=
  ∀ (s : State) (c : Fin 24) (src t : Nat),
    let n := Nat.max s.now t
    let gives := fun (c : Instr) (P : State → Prop) => ∃ u, exec c s = .next u ∧ P u
    let lo := fun (u : State) => u.rdB PW_LS_STAT PW_LS_STAT_VSWLO
    let follows := fun (u : State) (c : Nat) =>
      u.lsOn c = (u.lsInput c && !u.lsLatched c && !(u.ls c).cooling && !lo u && !(u.ls c).vswHold)
    let fld := fun (u : State) (f : Fld) => u.rd (PW_LS_STATc c) f
    let words := fun (cause : Nat) => [c.val, cause, fld s PW_LS_STATc_ATTR]
    let recent := fun (ts : List Nat) => ts.filter (fun x => decide (n < x + 10 * sec))
    let sources := fun (u : State) (code : Nat) (on : Bool) => u.trip.inbox = s.trip.inbox ++ (lsStrings c).map (fun r =>
      { src := code, key := 1024 + c.val * 16 + r, on := on, act := 7, scope := 3, native := some r, cause := code, value := 0 })
    (∀ io sense vclamp dur, gives (.channelInputChange c io sense vclamp dur t) (fun u =>
      follows u c ∧ u.out.io = io % 2 ^ 32 ∧ (∀ j, j ≠ c.val → u.ls j = s.ls j ∧ u.lsOn j = s.lsOn j) ∧
      (s.lsOn c = false → u.lsOn c = true → (u.ls c).onAt = n ∧
        (u.ls c).inrush = if 18 ≤ c.val ∧ (∀ t0, (s.ls c).offAt = some t0 → t0 + 100 * ms ≤ n) ∧
          s.rd (PW_LS_CFG c) PW_LS_CFG_TINR ≠ 0 then some (n + s.rd (PW_LS_CFG c) PW_LS_CFG_TINR * 10 * ms)
          else (s.ls c).inrush) ∧
      (s.lsOn c = true → u.lsOn c = false → (u.ls c).offAt = some n ∧ fld u PW_LS_STATc_ISENSE = 0 ∧
        fld u PW_LS_STATc_OPENLD = 0 ∧ fld u PW_LS_STATc_LIM = 0 ∧
        let i := if fld s PW_LS_STATc_ISENSE = 0xFFF then (s.at t).lsLimit c else Nat.min 0xFFE sense * lsScale c / 10
        let e := (s.ls c).energy - (n - (s.ls c).energyAt) * lsDrain c / 1000000 + vclamp * i * dur / 2000000
        (dur = 0 → u.lsLatched c = s.lsLatched c) ∧ (dur ≠ 0 → (u.ls c).energy = e ∧
          u.rd (PW_LS_TJ c) PW_LS_TJ_EACC = Nat.min 65535 (e / 1000000) ∧
          (s.rd (PW_LS_CFG c) PW_LS_CFG_EBUD * 10000000 ≤ e → s.lsLatched c = false → u.lsLatched c = true ∧
            fld u PW_LS_STATc_CAUSE = 3 ∧ sources u 20 true ∧ u.rdB PW_LS_EVT PW_LS_EVT_CLAMP = true) ∧
          (e < s.rd (PW_LS_CFG c) PW_LS_CFG_EBUD * 10000000 → u.lsLatched c = s.lsLatched c))))) ∧
    (∀ (i : Fin 12),
      let x := s.lt i
      let fed := fun (u : State) => ∀ k, k < 24 → s.rd (PW_LS_CFG k) PW_LS_CFG_SRC = 34 + i.val → follows u k
      s.rdB (CT_LT_CFG i) CT_LT_CFG_EN = true → x.stopped = false →
        (x.start + x.period * us ≤ n → gives (.loadTimerEdge i t) (fun u => fed u ∧ u.lt i = { x with
          start := x.start + x.period * us, period := s.rd (CT_LT_CFG i) CT_LT_CFG_PERIOD,
          duty := s.rd (CT_LT_CFG i) CT_LT_CFG_DUTY, high := decide (s.rd (CT_LT_CFG i) CT_LT_CFG_DUTY ≠ 0) })) ∧
        (n < x.start + x.period * us → x.high = true →
          (x.start + x.period * us * x.duty / 1024 ≤ n → gives (.loadTimerEdge i t) (fun u => fed u ∧
            u.lt i = { x with high := false })) ∧
          (n < x.start + x.period * us * x.duty / 1024 → gives (.loadTimerEdge i t) (fun u => u.out = s.out)))) ∧
    (∀ due, (s.ls c).inrush = some due →
      (due ≤ n → gives (.inrushWindowEnd c t) (fun u => u.ls c = { s.ls c with inrush := none } ∧
        ∀ j, j ≠ c.val → u.ls j = s.ls j)) ∧
      (n < due → gives (.inrushWindowEnd c t) (fun u => u.out = s.out))) ∧
    (∀ active, (s.lsOn c = true → gives (.channelCurrentLimit c active t) (fun u => u.lsOn c = true ∧
        u.rdB (PW_LS_STATc c) PW_LS_STATc_LIM = active ∧ u.ls c = { s.ls c with limAt := some n })) ∧
      (s.lsOn c = false → gives (.channelCurrentLimit c active t) (fun u => u.out = s.out ∧ u.regs = s.regs))) ∧
    (∀ (tj : Int) vclamp dur, -32768 ≤ tj → tj < 32768 →
      let again := (recent (s.ls c).restarts).length
      let latches := s.rdB (PW_LS_CFG c) PW_LS_CFG_TMODE = true ∨ s.rd (PW_LS_CFG c) PW_LS_CFG_NRST ≤ again
      (tj < 17500 → gives (.channelThermalTrip c tj vclamp dur t) (fun u => u.lsTemp c = tj ∧ u.lsOn c = s.lsOn c)) ∧
      (17500 ≤ tj → gives (.channelThermalTrip c tj vclamp dur t) (fun u => u.lsTemp c = tj ∧ u.lsOn c = false ∧
        (u.ls c).tripAt = some n ∧ (u.ls c).trips = recent (s.ls c).trips ++ [n] ∧
        fld u PW_LS_STATc_ATTR = (s.at t).lsAttr c ∧ u.rdB PW_LS_EVT PW_LS_EVT_THERM = true ∧
        (latches → u.lsLatched c = true) ∧
        (dur = 0 → (latches → s.lsLatched c = false → fld u PW_LS_STATc_CAUSE = 1) ∧
          (¬ latches → u.lsLatched c = s.lsLatched c ∧ (u.ls c).cooling = true)))) ∧
      (18 ≤ c.val → tj ≤ 16000 → (s.ls c).cooling = true → s.lsInput c = true →
        s.rdB (PW_LS_CFG c) PW_LS_CFG_TMODE = false → gives (.channelThermalRestart c tj t) (fun u => follows u c ∧
          (u.ls c).cooling = false ∧ (u.ls c).restarts = recent (s.ls c).restarts ++ [n] ∧
          (s.lsLatched c = false → lo s = false → (s.ls c).vswHold = false → u.lsOn c = true))) ∧
      (c.val < 18 → gives (.channelThermalRestart c tj t) (fun u => u.out = s.out ∧ u.regs = s.regs)) ∧
      (16000 ≤ tj →
        (c.val < 18 → s.rdB (PW_LS_STATc c) PW_LS_STATc_PREW = false → gives (.channelPrewarn c tj t) (fun u =>
          fld u PW_LS_STATc_PREW = 1 ∧ sources u 21 true ∧ u.lsOn c = s.lsOn c ∧
          s.Raised u srcOut EV_LS_PREWARN (words 0))) ∧
        (18 ≤ c.val → gives (.channelPrewarn c tj t) (fun u => fld u PW_LS_STATc_PREW = 1 ∧ u.lsOn c = s.lsOn c ∧
          u.trip = s.trip ∧ u.led = s.led))) ∧
      (tj < 16000 → gives (.channelPrewarnEnd c tj t) (fun u => fld u PW_LS_STATc_PREW = 0 ∧ u.lsTemp c = tj ∧
        sources u 21 false))) ∧
    ((s.ls c).broken = false →
      (c.val < 18 → gives (.channelSensorBroken c t) (fun u => u.rd (PW_LS_TJ c) PW_LS_TJ_TJ = 0x7FFF ∧
        (u.ls c).broken = true ∧ u.lsOn c = s.lsOn c ∧ sources u 21 true ∧ s.Raised u srcOut EV_LS_TSENS (words 2))) ∧
      (18 ≤ c.val → s.lsLatched c = false → gives (.channelSensorBroken c t) (fun u => (u.ls c).broken = true ∧
        u.lsLatched c = true ∧ u.lsOn c = false ∧ fld u PW_LS_STATc_CAUSE = 2 ∧
        ∃ a, s.Raised u srcOut EV_LS_LATCH [c.val, 2, a]))) ∧
    (s.lsOn c = true → fld s PW_LS_STATc_ISENSE ≠ 0xFFF → gives (.channelSenseFault c t) (fun u =>
      fld u PW_LS_STATc_ISENSE = 0xFFF ∧ u.rdB PW_LS_EVT PW_LS_EVT_SENSE = true ∧
      s.Raised u srcOut EV_LS_SENSE (words (fld s PW_LS_STATc_CAUSE)))) ∧
    (s.lsOn c = true → s.rdB (PW_LS_CFG c) PW_LS_CFG_OLEN = true → s.rdB (PW_LS_STATc c) PW_LS_STATc_OPENLD = false →
      gives (.channelOpenLoad c t) (fun u => fld u PW_LS_STATc_OPENLD = 1 ∧
        s.Raised u srcOut EV_LS_OPENLOAD (words (fld s PW_LS_STATc_CAUSE)))) ∧
    (∀ clamps, lo s = false → gives (.vswLow clamps t) (fun u => lo u = true ∧
      (∀ k, k < 24 → u.lsOn k = false ∧ (k < 18 → (u.ls k).vswHold = true)) ∧
      (clamps = [] → s.Raised u srcOut EV_LS_VSW [0, 4, 31] ∧ u.trip.inbox = s.trip.inbox ++ [
        { src := 22, key := 0, on := true, act := 7, scope := 3, native := none, cause := 22, value := 0 }]))) ∧
    (lo s = true → gives (.vswRecover t) (fun u => lo u = false ∧ (∀ k, k < 24 → follows u k ∧
      ((s.ls k).vswHold = true → s.lsInput k = true → u.lsOn k = false) ∧
      (s.lsInput k = false → (u.ls k).vswHold = false)))) ∧
    (∀ v row, (s.at t).Admits PW_LS_CLR v row → gives (.lsclr src v t) (fun u => ∀ k, k < 24 → bit v k = true →
      s.lsLatched k = true → follows u k ∧ u.lsLatched k = false ∧ (u.ls k).restarts = [] ∧ (u.ls k).cooling = false ∧
      u.rd (PW_LS_STATc k) PW_LS_STATc_CAUSE = 0))

/-- A failed ROM check or self-test locks SF with its outputs off, otherwise it loads the selected set and runs only if
the set is valid and no cause is latched; a safety cycle drives RUN, ramp stop and LOCK by the causes latched, counts
wrong readbacks, and accepts a waiting press only in LOCK with no new and no active cause, both paths reading off and
a valid set; an internal fault disconnects and locks; a lost alive line asserts GATE_KILL and turns the LC channels
off; an unproven path is recorded; a pair in demand raises its function, a long discrepancy and a failed test pulse
fault it; SRSTMAX and lost current end the ramp; a valid press waits, an invalid one is refused, a stuck one is
recorded and ends; the straps are read and a wrong one is a seal fault. (R347, R348, R350, R351, R352, R353, R354,
R357, R358, R364, R365, R367) -/
def Obligations.SafetyFunctionsStopAndRelease : Prop :=
  ∀ (s : State) (t : Nat),
    let n := Nat.max s.now t
    let gives := fun (c : Instr) (P : State → Prop) => ∃ u, exec c s = .next u ∧ P u
    let flag := fun (u : State) (f : Fld) => u.rdB SF_STAT f
    let dark := fun (u : State) => flag u SF_STAT_GKILL = true ∧ flag u SF_STAT_LCOFF = true ∧ flag u SF_STAT_PERM = false ∧
      flag u SF_STAT_SOK = false ∧ u.out.lcWire = 0 ∧ ∀ c, 12 ≤ c → c < 18 → u.lsOn c = false
    let lit := fun (u : State) (sok : Bool) => flag u SF_STAT_GKILL = false ∧ flag u SF_STAT_LCOFF = false ∧
      flag u SF_STAT_PERM = true ∧ flag u SF_STAT_SOK = sok ∧ u.out.lcWire = 0x3F
    let stopped := fun (u : State) (cause : Nat) => u.sfState = 1 ∧ dark u ∧ (cause, true) ∈ u.sf.latched
    let source := fun (u : State) (code : Nat) (on : Bool) =>
      { src := code, key := 0, on := on, act := 7, scope := 3, native := none, cause := code, value := 0 } ∈ u.trip.inbox
    (∀ (rom self : Bool) (seal_ sealn : Fin 256), s.sfState = 0 →
      (rom = false ∨ self = false → gives (.sfInit rom self seal_ sealn t) (fun u => stopped u 16 ∧ u.sf.locked = true ∧
        flag u SF_STAT_SFAULT = true ∧ u.sv.resetAt = s.sv.resetAt)) ∧
      (rom = true → self = true →
        let s1 := (s.at t).wr SF_IO_STAT SF_IO_STAT_SEAL seal_
        gives (.sfInit rom self seal_ sealn t) (fun u => u.rd SF_IO_STAT SF_IO_STAT_SEAL = seal_ ∧
          u.rd SF_IO_STAT SF_IO_STAT_SEALN = sealn ∧
          (u.sfState = 2 ∧ lit u true ∧ u.sf.latched = [] ∧ flag u SF_STAT_SETOK = true ∨
            u.sfState = 1 ∧ dark u ∧ (u.sf.latched ≠ [] ∨ flag u SF_STAT_SETOK = false)) ∧
          (seal_.val / 32 ≠ 5 → (14, true) ∈ u.sf.latched) ∧ (bit (u.set8 7) 0 = false → (17, true) ∈ u.sf.latched) ∧
          (s1.setValid = true → u.sf.set = s1.selectedSet ∧ u.rd SF_STAT SF_STAT_SET = seal_.val % 16 ∧
            flag u SF_STAT_SETOK = true) ∧
          (s1.setValid = false → u.sf.set = s.sf.set ∧ flag u SF_STAT_SETOK = false)))) ∧
    (∀ (hc : Fin 4096) (lc : Fin 64),
      let on := fun (c : Nat) => if c < 12 then bit hc.val c else bit lc.val (c - 12)
      let quiet := s.rd SF_IO_STAT SF_IO_STAT_SEAL + s.rd SF_IO_STAT SF_IO_STAT_SEALN = 255 ∧
        ∀ c, c < 18 → s.rbWrong c (on c) = false
      let cycle := fun (P : State → Prop) => gives (.safetyCycle hc lc t) (fun u => u.sf.press = false ∧
        u.sf.request = false ∧ u.sf.newCause = none ∧ P u)
      let press := fun (P : State → Prop) => s.sfState = 1 → s.sf.press = true → cycle P
      (2 ≤ s.sfState → (∃ c, (c, true) ∈ s.sf.latched) → cycle (fun u => u.sfState = 1 ∧ dark u ∧ source u 25 true)) ∧
      (2 ≤ s.sfState → ∀ c, c < 18 → s.rbWrong c (on c) = true → Tab.get 0 s.sf.rbBad c = 1 →
        cycle (fun u => stopped u 15 ∧ u.rd SF_RB_STAT SF_RB_STAT_HCRB = hc ∧ u.rd SF_RB_STAT SF_RB_STAT_LCRB = lc)) ∧
      (2 ≤ s.sfState → s.rd SF_IO_STAT SF_IO_STAT_SEAL + s.rd SF_IO_STAT SF_IO_STAT_SEALN ≠ 255 → s.sf.sealN = 1 →
        cycle (fun u => stopped u 14 ∧ u.sf.sealFlt = true)) ∧
      (quiet → (∀ c, (c, true) ∉ s.sf.latched) →
        (s.sfState = 2 → s.sf.latched = [] → cycle (fun u => u.sfState = 2 ∧ u.sf.latched = [] ∧
          (flag s SF_STAT_GKILL = true → lit u true))) ∧
        (s.sfState = 2 → s.sf.latched ≠ [] → cycle (fun u => u.sfState = 3 ∧ flag u SF_STAT_SOK = false ∧ u.sf.tR = n ∧
          source u 26 true ∧ ∀ x ∈ s.sfStrings,
            (∀ e ∈ (s.sfStr x.1).samples, u.ns ≤ e.1 + 1000000 → e.1 ≤ u.ns → e.2.natAbs ≤ (u.sfStr x.1).iRef) ∧
            ((u.sfStr x.1).iRef = 0 ∨ ∃ e ∈ (s.sfStr x.1).samples, u.ns ≤ e.1 + 1000000 ∧ e.1 ≤ u.ns ∧
              e.2.natAbs = (u.sfStr x.1).iRef))) ∧
        (s.sfState = 3 → s.rampEnded = true → cycle (fun u => stopped u 4)) ∧
        (s.sfState = 3 → s.rampEnded = false → cycle (fun u => u.sfState = 3 ∧ u.sf.latched = s.sf.latched))) ∧
      (quiet → hc.val = 0 → lc.val = 0 → (s.at t).setValid = true → s.sf.newCause = none →
        (((s.at t).wr SF_RB_STAT SF_RB_STAT_HCRB 0).wr SF_RB_STAT SF_RB_STAT_LCRB 0).sfActive = [] →
        press (fun u => u.sfState = 2 ∧ lit u true ∧ u.sf.latched = [] ∧ u.rd SF_STAT SF_STAT_CAUSE = 0 ∧
          u.rd SF_STAT SF_STAT_SET = s.rd SF_IO_STAT SF_IO_STAT_SEAL % 16 ∧ source u 25 false ∧ source u 26 false)) ∧
      (s.sf.locked = true ∨ hc.val ≠ 0 ∨ lc.val ≠ 0 ∨ s.sf.newCause ≠ none ∨ (s.at t).setValid = false →
        press (fun u => u.sfState = 1 ∧ ∀ c ∈ s.sf.latched, c ∈ u.sf.latched)) ∧
      (s.sfState = 1 → s.sf.press = false → cycle (fun u => u.sfState = 1 ∧
        ∀ i, i < 7 → (if i < 6 then bit lc.val i = false else hc.val = 0) → Tab.get false s.sf.offSeen i = true →
          Tab.get 0 u.sf.proven i = n)) ∧
      (s.sfState = 0 → gives (.safetyCycle hc lc t) (fun u => u.sf = s.sf ∧ u.regs = s.regs))) ∧
    (s.sfState ≠ 1 → gives (.sfInternalFault t) (fun u => stopped u 16 ∧ u.sf.locked = true ∧ n ∈ u.sv.sfReports) ∧
      gives (.romCheck false t) (fun u => stopped u 16 ∧ u.sf.locked = true ∧ n ∈ u.sv.sfReports)) ∧
    gives (.romCheck true t) (fun u => u.sf = s.sf ∧ u.regs = s.regs) ∧
    gives (.sfAliveTimeout t) (fun u => flag u SF_STAT_GKILL = true ∧ flag u SF_STAT_LCOFF = true ∧ u.out.lcWire = 0 ∧
      ∀ c, 12 ≤ c → c < 18 → u.lsOn c = false) ∧
    (∀ i, i < 7 → s.sf.set ≠ [] → flag s SF_STAT_PRDUE = false →
      Tab.get 0 s.sf.proven i + s.set16 46 * 3600 * sec ≤ n → gives (.proofDue t) (fun u => flag u SF_STAT_PRDUE = true ∧
        u.sf.dueAt = n ∧ flag u SF_STAT_SOK = flag s SF_STAT_SOK ∧ s.Raised u srcSF EV_SF_PROOF_DUE [0])) ∧
    (∀ (k : Fin 8) (b level : Bool),
      let dA := if b then s.demandA k else !level
      let dB := if b then (if s.pairAnti k then level else !level) else s.demandB k
      (s.pairFn k ≠ 0 → gives (.pairInputChange k b level t) (fun u =>
        bit (u.rd SF_IN_STAT SF_IN_STAT_DEMAND) k = (dA || dB) ∧
        (dA || dB → ((if s.pairFn k = 1 then 1 else 2), s.pairFn k == 1) ∈ u.sf.latched) ∧
        (u.pair k).disagree = (if dA = dB then none else some ((s.pair k).disagree.getD n)) ∧
        (s.pairFaulted k = true → (s.pair k).both = true → (s.pair k).pulse = false → dA = false → dB = false →
          u.pairFaulted k = false) ∧
        (dA || dB → u.pairFaulted k = s.pairFaulted k))) ∧
      (s.pairFn k = 0 → gives (.pairInputChange k b level t) (fun u => u.sf = s.sf ∧
        bit (u.rd SF_IN_STAT SF_IN_STAT_DEMAND) k = false)) ∧
      (∀ t0, (s.pair k).disagree = some t0 → s.pairFaulted k = false → s.pairFn k ≠ 0 →
        (t0 + s.set8 (15 + 4 * k) * 10 * ms < n → gives (.pairDiscrepancy k t) (fun u => u.pairFaulted k = true ∧
          (12, s.pairFn k == 1) ∈ u.sf.latched ∧ flag u SF_STAT_SFAULT = true ∧ s.Raised u srcSFIO EV_SF_DISCREP [k.val])) ∧
        (n ≤ t0 + s.set8 (15 + 4 * k) * 10 * ms → gives (.pairDiscrepancy k t) (fun u => u.sf = s.sf ∧ u.regs = s.regs))) ∧
      (∀ (stp : Fin 4) (ok : Fin 65536), s.pairFn k ≠ 0 → bit (s.set8 (13 + 4 * k)) 4 = true →
        s.set8 (13 + 4 * k) % 4 = stp.val → bit (s.rd SF_IN_STAT SF_IN_STAT_RAWA) k = true →
        gives (.testPulse stp ok t) (fun u =>
          (bit ok.val k = false → u.pairFaulted k = true ∧ (13, s.pairFn k == 1) ∈ u.sf.latched ∧ (u.pair k).goodA = 0 ∧
            (u.pair k).pulse = true) ∧
          (bit ok.val k = true → (u.pair k).goodA = satAdd (s.pair k).goodA 1 3)))) ∧
    (s.sfState = 3 →
      (s.sf.tR + s.set16 54 * ms ≤ n → gives (.srsTimeout t) (fun u => stopped u 19 ∧ s.Raised u srcSF EV_SF_SDC [19])) ∧
      (n < s.sf.tR + s.set16 54 * ms → gives (.srsTimeout t) (fun u => u.sf = s.sf ∧ u.regs = s.regs)) ∧
      (∀ x ∈ s.sfStrings, (s.sfStr x.1).lastAt + 5 * ms ≤ n → gives (.srsCurrentLost t) (fun u => stopped u 20 ∧
        s.Raised u srcSF EV_SF_SDC [20])) ∧
      ((∀ x ∈ s.sfStrings, n < (s.sfStr x.1).lastAt + 5 * ms) → gives (.srsCurrentLost t) (fun u => u.sf = s.sf))) ∧
    (s.rdB SF_IO_STAT SF_IO_STAT_RSTUCK = false →
      (∀ a0 a1 b0 b1, dist a0 b0 ≤ 50 * ms → dist a1 b1 ≤ 50 * ms → Nat.max a0 b0 + 200 * ms ≤ Nat.min a1 b1 →
        Nat.min a1 b1 ≤ Nat.max a0 b0 + 3 * sec →
        gives (.resetPress (some (a0, a1)) (some (b0, b1)) t) (fun u => u.sf.press = true ∧ u.led = s.led)) ∧
      (∀ x, gives (.resetPress none x t) (fun u => u.sf = s.sf ∧
        s.Raised u srcSF EV_SF_RESET_REFUSED [s.sfActive.headD 0])) ∧
      (∀ (active : Fin 4), gives (.resetStuck active t) (fun u => u.rdB SF_IO_STAT SF_IO_STAT_RSTUCK = true ∧
        flag u SF_STAT_SFAULT = true ∧ s.Raised u srcSFIO EV_SF_RST_STUCK [0]))) ∧
    (s.rdB SF_IO_STAT SF_IO_STAT_RSTUCK = true → ∀ a b, gives (.resetPress a b t) (fun u => u.sf = s.sf ∧ u.led = s.led)) ∧
    gives (.resetStuckClear t) (fun u => u.rdB SF_IO_STAT SF_IO_STAT_RSTUCK = false ∧ u.rd SF_IO_STAT SF_IO_STAT_SRST = 0) ∧
    (∀ (seal_ sealn : Fin 256),
      let bad := s.sfState ≠ 0 ∧ (seal_.val / 32 ≠ 5 ∨
        2 ≤ s.sfState ∧ s.rd SF_IO_STAT SF_IO_STAT_SEAL % 16 ≠ seal_.val % 16)
      gives (.sealChange seal_ sealn t) (fun u => u.rd SF_IO_STAT SF_IO_STAT_SEAL = seal_ ∧
        u.rd SF_IO_STAT SF_IO_STAT_SEALN = sealn ∧ flag u SF_STAT_SWE = bit seal_.val 4 ∧
        (bad → (14, true) ∈ u.sf.latched ∧ s.Raised u srcSFIO EV_SF_SEAL [14]) ∧ (¬ bad → u.sf = s.sf)))

/-- The oldest record copy reaches SF: one that fails its CRC counts as missing; a cell copy is compared with the limits
of the set, with the stack-sum's range and its consistency, and the second violating copy in a row latches its cause;
a stream sample above the envelope during the ramp disconnects; a node without a copy for SSTALE is stale; a verdict
copy of INHIBIT, OPEN or FORCE starts the 5 ms check, which latches cause 18 where a string of the scope is not
stopped; a frame in the mailbox passes its checks in order, the first that fails is the connection's fault, and its
bits count as demands; a silent connection faults with check 5; a producer frame takes the next sequence and waits in
the queue, TXACK presents the next; REQ latches its cause. (R357, R358, R359, R360, R362, R370, R371, R372, R373,
R375, R376, R377) -/
def Obligations.SafetyCopiesConnectionsAndMailbox : Prop :=
  ∀ (s : State) (src t : Nat),
    let n := Nat.max s.now t
    let gives := fun (c : Instr) (P : State → Prop) => ∃ u, exec c s = .next u ∧ P u
    let faults := fun (u : State) (k code : Nat) => u.connState k = 3 ∧ u.rd (SF_CON_STAT k) SF_CON_STAT_LASTF = code ∧
      (u.conn k).sdcOk = false ∧ (u.conn k).srsOk = false ∧ (u.conn k).press = none ∧ (u.conn k).at_ = n ∧
      (10, true) ∈ u.sf.latched ∧ u.rdB SF_STAT SF_STAT_SFAULT = true ∧ s.Raised u srcSFL EV_SF_CONN_FAULT [k, code]
    (∀ p q body rest ok, s.lnk.sfCopies = (p, q, body) :: rest →
      let k := p * 64 + (q - 1)
      let cells := s.nodeCells p q
      let fl := beField body 5 2
      let stack := crecStack body
      let wide := cells * s.set16 58 < stack * 10 ∨ stack * 10 < cells * s.set16 60
      let odd := stack + s.set16 68 * 2000 < (200 * crecResidue body cells).natAbs
      let counts := bit fl 3 = true ∧ bit fl 1 = false ∧ ∀ c, c < cells → crecCell body c ≠ 0xFFFF
      let copy := fun (P : State → Prop) => gives (.sfRecordCopy ok t) (fun u => u.lnk = { s.lnk with sfCopies := rest } ∧ P u)
      (ok = false ∨ s.sf.set = [] → copy (fun u => u.sf = s.sf ∧ u.regs = s.regs)) ∧
      (ok = true → s.sf.set ≠ [] → frameType body = 0x80 →
        (s.sceExpected p q = false → copy (fun u => u.sf = s.sf ∧ u.regs = s.regs)) ∧
        (s.sceExpected p q = true → copy (fun u => (u.sce k).lastAt = n ∧ (u.sce k).stale = false ∧
          (s.sceViolation p q body = none → (u.sce k).vt = 0) ∧
          (s.sceViolation p q body ≠ none → (u.sce k).vt = (s.sce k).vt + 1 ∧
            (1 ≤ (s.sce k).vt → (5, true) ∈ u.sf.latched)) ∧
          (bit fl 3 = false → (u.sce k).range = (s.sce k).range) ∧
          (bit fl 3 = true → (wide → (u.sce k).range = (s.sce k).range + 1 ∧
            (1 ≤ (s.sce k).range → (6, true) ∈ u.sf.latched)) ∧ (¬ wide → (u.sce k).range = 0)) ∧
          (¬ counts → (u.sce k).sum = (s.sce k).sum) ∧
          (counts → (odd → (u.sce k).sum = (s.sce k).sum + 1 ∧ (1 ≤ (s.sce k).sum → (7, false) ∈ u.sf.latched)) ∧
            (¬ odd → (u.sce k).sum = 0))))) ∧
      (∀ x, ok = true → s.sf.set ≠ [] → frameType body = 0x81 →
        s.sfStrings.find? (fun x => x.2.1 == p && x.2.2 == q) = some x →
        let es := (streamSamples body).zip ((List.range 16).map (fun j =>
          (s.at t).extend48 (beField body 22 6) + j * (beField body 28 2 * 250)))
        (s.sfState = 3 → (∃ e ∈ es, s.envelope x.1 e.2 < e.1.natAbs) → copy (fun u => u.sfState = 1 ∧
          (3, true) ∈ u.sf.latched ∧ u.rdB SF_STAT SF_STAT_GKILL = true ∧ u.rdB SF_STAT SF_STAT_PERM = false ∧
          u.out.lcWire = 0)) ∧
        (s.sfState ≠ 3 ∨ (∀ e ∈ es, e.1.natAbs ≤ s.envelope x.1 e.2) → copy (fun u => u.regs = s.regs ∧
          (u.sfStr x.1).lastAt = (if es = [] then (s.sfStr x.1).lastAt else n) ∧
          (∀ e ∈ es, u.ns ≤ e.2 + 2000000 → (e.2, e.1) ∈ (u.sfStr x.1).samples) ∧
          (∀ e ∈ es, s.set16 52 * 100 < e.1.natAbs → (u.sfStr x.1).above = true))))) ∧
    (∀ (p : Fin 18) (i : Fin 64),
      let x := s.sce (p.val * 64 + i.val)
      s.sf.set ≠ [] → s.sceExpected p (i + 1) = true → x.stale = false →
        (Nat.max x.lastAt s.sf.loadAt + s.set16 752 * ms ≤ n → gives (.sceStale p i t) (fun u =>
          (u.sce (p.val * 64 + i.val)).stale = true ∧ (8, false) ∈ u.sf.latched ∧
          s.Raised u srcSFIO EV_SF_SCE [p.val * 1152 + i.val * 18, 0])) ∧
        (n < Nat.max x.lastAt s.sf.loadAt + s.set16 752 * ms → gives (.sceStale p i t) (fun u => u.sf = s.sf))) ∧
    (∀ v rest, s.trip.sfCopies = v :: rest →
      (v.on = true → 4 ≤ s.srcAct v → gives (.sfVerdictCopy t) (fun u => u.trip = { s.trip with sfCopies := rest } ∧
        u.sf = { s.sf with execs := s.sf.execs ++ [⟨n + 5 * ms, s.scopeMask (s.srcScope v) v.native⟩] })) ∧
      (v.on = false ∨ s.srcAct v < 4 → gives (.sfVerdictCopy t) (fun u => u.trip = { s.trip with sfCopies := rest } ∧
        u.sf = s.sf))) ∧
    ((∃ e ∈ s.sf.execs, e.due ≤ n ∧ s.execHeld e.strings = false) → gives (.execCheckTimeout t) (fun u =>
      (18, true) ∈ u.sf.latched ∧ u.sf.execs = s.sf.execs.filter (fun e => decide (n < e.due)))) ∧
    ((∀ e ∈ s.sf.execs, e.due ≤ n → s.execHeld e.strings = true) → gives (.execCheckTimeout t) (fun u =>
      u.sf = { s.sf with execs := s.sf.execs.filter (fun e => decide (n < e.due)) } ∧ u.regs = s.regs)) ∧
    (∀ (k : Fin 32), s.connUsed k = true → s.connProducer k = false →
      (s.connState k ≠ 3 → (s.conn k).at_ + s.connWd k * ms ≤ n → gives (.connWatchdog k t) (fun u => faults u k 5)) ∧
      (s.connState k = 3 ∨ n < (s.conn k).at_ + s.connWd k * ms → gives (.connWatchdog k t) (fun u => u.sf = s.sf ∧
        u.regs = s.regs)) ∧
      (∀ v row, bit v 31 = true → (s.at t).Admits SF_MBX_RXCTL v row →
        let f := s.mbxBytes (v % 64)
        let l := s.connLen k
        let sound := 12 + l ≤ f.length ∧ crc32c (s.connSeed k ++ f.take (8 + l)) = beField f (8 + l) 4
        let seq := beField f 2 2
        let stamp := beField f 4 4
        let b := beField f 8 1
        let dseq := (seq + 65536 - (s.conn k).seq) % 65536
        let dst := (stamp + 2 ^ 32 - (s.conn k).stamp) % 2 ^ 32
        let age : Int := ((((n / us : Nat) : Int) - stamp) * 5000 - (s.conn k).offset) % (5000 * 2 ^ 32)
        let d : Int := if 2 * age < 5000 * 2 ^ 32 then age else age - 5000 * 2 ^ 32
        let late := ((s.set16 (connBase k + 10) * 5000000 : Nat) : Int) < d
        let go := fun (P : State → Prop) => gives (.mailboxGo src v t) P
        let takes := fun (u : State) => u.connState k = 2 ∧ (u.conn k).seq = seq ∧ (u.conn k).stamp = stamp ∧
          (u.conn k).at_ = n ∧ (u.conn k).sdcOk = bit b 0 ∧ (u.conn k).srsOk = bit b 1 ∧
          (bit b 0 = false → (9, true) ∈ u.sf.latched) ∧ (bit b 1 = false → (9, false) ∈ u.sf.latched)
        beField f 0 2 = s.connId k →
        (∀ j, j < k.val → ¬ (s.connUsed j = true ∧ s.connProducer j = false ∧ s.connId j = beField f 0 2)) →
        (¬ sound → go (fun u => faults u k 1)) ∧
        (sound → s.connState k ≠ 2 → go (fun u => takes u ∧
          (u.conn k).offset = (((n / us : Nat) : Int) - stamp) * 5000)) ∧
        (sound → s.connState k = 2 →
          (dseq = 0 → go (fun u => (u.conn k).repeats = (s.conn k).repeats + 1 ∧ u.connState k = 2 ∧
            u.sf.latched = s.sf.latched)) ∧
          (s.set8 (connBase k + 14) < dseq → go (fun u => faults u k 2)) ∧
          (1 ≤ dseq → dseq ≤ s.set8 (connBase k + 14) →
            (dst = 0 ∨ 2 ^ 31 < dst → go (fun u => faults u k 3)) ∧
            (1 ≤ dst → dst ≤ 2 ^ 31 → (late → go (fun u => faults u k 4)) ∧
              (¬ late → go (fun u => takes u ∧
                u.rd (SF_CON_STAT k) SF_CON_STAT_LOSTN = satAdd (s.rd (SF_CON_STAT k) SF_CON_STAT_LOSTN) (dseq - 1) 255 ∧
                (u.conn k).offset = (if d < 0 then (s.conn k).offset + d else (s.conn k).offset) +
                  (((n - (s.conn k).at_) / us : Nat) : Int)))))))) ∧
    (∀ v row, bit v 31 = true → (s.at t).Admits SF_MBX_RXCTL v row →
      (∀ j, j < 32 → ¬ (s.connUsed j = true ∧ s.connProducer j = false ∧ s.connId j = beField (s.mbxBytes (v % 64)) 0 2)) →
      gives (.mailboxGo src v t) (fun u => u.sf = { s.sf with discarded := s.sf.discarded + 1 })) ∧
    (∀ (k : Fin 32), s.connUsed k = true → s.connProducer k = true →
      let f := (s.at t).producerFrame k
      let q := if s.sf.txq.length < Config.mailboxDepth then s.sf.txq ++ [(k.val, f)] else replaceOldest k f s.sf.txq
      beField f 0 2 = s.connId k % 65536 ∧ beField f 2 2 = (s.conn k).nextSeq % 65536 ∧ beField f 4 4 = n / us % 2 ^ 32 ∧
        f.drop (f.length - 4) = beBytes (crc32c (s.connSeed k ++ f.take (f.length - 4))) 4 ∧
      (s.rdB SF_MBX_TXCTL SF_MBX_TXCTL_TXRDY = true → gives (.producerFrame k t) (fun u =>
        (u.conn k).nextSeq = (s.conn k).nextSeq + 1 ∧ u.sf.txq = q)) ∧
      (s.rdB SF_MBX_TXCTL SF_MBX_TXCTL_TXRDY = false → ∀ e r, q = e :: r → gives (.producerFrame k t) (fun u =>
        (u.conn k).nextSeq = (s.conn k).nextSeq + 1 ∧ u.sf.txq = r ∧
        u.rdB SF_MBX_TXCTL SF_MBX_TXCTL_TXRDY = true ∧ u.rd SF_MBX_TXCTL SF_MBX_TXCTL_TXCON = e.1 % 32))) ∧
    (∀ v row, bit v 31 = true → (s.at t).Admits SF_MBX_TXCTL v row →
      (s.sf.txq = [] → gives (.txack src v t) (fun u => u.rdB SF_MBX_TXCTL SF_MBX_TXCTL_TXRDY = false ∧ u.sf = s.sf)) ∧
      (∀ k f r, s.sf.txq = (k, f) :: r → gives (.txack src v t) (fun u => u.sf = { s.sf with txq := r } ∧
        u.rdB SF_MBX_TXCTL SF_MBX_TXCTL_TXRDY = true ∧ u.rd SF_MBX_TXCTL SF_MBX_TXCTL_TXCON = k % 32 ∧
        u.rd SF_MBX_TXCTL SF_MBX_TXCTL_TXLEN = f.length % 64 ∧
        ∀ i, i < 16 → u.reg (SF_MBX_TX i) = BitVec.ofNat 32 (ofBytesLE ((f.drop (4 * i)).take 4))))) ∧
    (∀ v row, (s.at t).Admits SF_MBX_REQ v row → gives (.mailboxReq src v t) (fun u =>
      (11, v % 4 == 1) ∈ u.sf.latched ∧ u.sf.request = true))

/-- A commit copies the shadow to a buffer not in transmission and is deferred for the one in transmission; an abort
removes a pending buffer or marks the one in transmission; arbitration takes the express buffer first, else the lower
arbitration field, and a lost one changes nothing; a completed frame leaves and is reported, an error raises TEC,
counts the run of late bit errors, keeps the buffer pending unless aborted, and counters past their limits change the
state; a received frame goes where the first matching filter or NOMATCH says, into a FIFO with room, else it is lost;
POP releases the oldest; bus-off ends in recovery, BOREL starts it; a reference message is captured, gives a slave its
offset, is sent by a master with the times of the latest success, and its loss clears the slave's offset and starts a
backup master. (R381, R384, R386, R387, R388, R389, R390, R391, R393, R394, R397, R398) -/
def Obligations.CanControllersSendAndReceive : Prop :=
  ∀ (s : State) (n : Fin 6) (src t : Nat),
    let now := Nat.max s.now t
    let gives := fun (c : Instr) (P : State → Prop) => ∃ u, exec c s = .next u ∧ P u
    let buf := fun (u : State) (b : Nat) => Tab.get [] (u.canOf n).bufs b
    let fifo := fun (u : State) (f : Nat) => Tab.get [] (u.canOf n).fifo f
    let err := fun (u : State) (f : Fld) => u.rd (CAN_ERR n) f
    let evt := fun (u : State) (f : Fld) => u.rdB (CAN_EVT n) f
    let still := fun (u : State) => u.can = s.can ∧ u.regs = s.regs ∧ u.led = s.led
    let ctl := CAN_CTL n
    let head := fun (u : State) (f : Nat) => u.rd (CAN_FIFOCTL n f) CAN_FIFOCTL_FCOUNT = (fifo u f).length % 64 ∧
      ∀ w, w < 20 → u.reg (CAN_FIFO n f w) = BitVec.ofNat 32 (((fifo u f).headD []).getD w 0)
    (∀ v row, (s.at t).Admits ctl (CAN_CTL_EN.put (BitVec.ofNat 32 v) 1).toNat row → bit v 26 = false →
      gives (.canEnable src n v t) (fun u => u.canEn n = true ∧ u.can = s.can ∧
        u.canMode n = CAN_CTL_MODE.get (BitVec.ofNat 32 v))) ∧
    (∀ v row, (s.at t).Admits ctl (CAN_CTL_STBY.put (BitVec.ofNat 32 v) 1).toNat row → bit v 26 = false →
      gives (.canStandby src n v t) (fun u => u.rdB ctl CAN_CTL_STBY = true ∧ u.can = s.can)) ∧
    (∀ v row, (s.at t).Admits ctl (CAN_CTL_BOREL.put (BitVec.ofNat 32 v) 1).toNat row →
      gives (.borel src n v t) (fun u => u.canState n = 3 ∧ u.can = s.can)) ∧
    (∀ v row,
      let w : Word := BitVec.ofNat 32 v
      let b := if CAN_TXCMD_EXP.get w = 1 then 64 else CAN_TXCMD_BUF.get w
      (CAN_TXCMD_ABORT.get w = 0 → (s.at t).Admits (CAN_TXCMD n) (CAN_TXCMD_COMMIT.put w 1).toNat row →
        ((s.canOf n).act ≠ some b → gives (.canCommit src n v t) (fun u => buf u b = s.canShadow n b ∧
          u.canPending n b = true ∧ ∀ j, j ≠ b → buf u j = buf s j)) ∧
        ((s.canOf n).act = some b → gives (.canCommit src n v t) (fun u => u.canSwp n b = true ∧
          (u.canOf n).bufs = (s.canOf n).bufs))) ∧
      (CAN_TXCMD_COMMIT.get w = 0 → (s.at t).Admits (CAN_TXCMD n) (CAN_TXCMD_ABORT.put w 1).toNat row →
        (s.canPending n b = false → gives (.canAbort src n v t) (fun u => u.can = s.can ∧ u.led = s.led)) ∧
        (s.canPending n b = true → (s.canOf n).act ≠ some b → gives (.canAbort src n v t) (fun u =>
          u.canPending n b = false ∧ u.canSwp n b = false ∧ ∀ j, j ≠ b → buf u j = buf s j)) ∧
        (s.canPending n b = true → (s.canOf n).act = some b → gives (.canAbort src n v t) (fun u =>
          (u.canOf n).aborting = true ∧ (u.canOf n).bufs = (s.canOf n).bufs ∧
          s.Raised u (canSrc n) EV_CAN_ABORT [canWord n b])))) ∧
    (let free := s.canEn n = true ∧ s.canMode n ≠ 1 ∧ s.rdB ctl CAN_CTL_STBY = false ∧ s.canState n < 2 ∧ (s.canOf n).act = none
      let begins := fun (u : State) (b : Nat) => (u.canOf n).act = some b ∧ u.rdB (CAN_TXSTAT n) CAN_TXSTAT_TXACT = true ∧
        u.rd (CAN_TXSTAT n) CAN_TXSTAT_ACTBUF = b % 128 ∧ (u.canOf n).bufs = (s.canOf n).bufs ∧
        ((s.canOf n).lastBuf ≠ some b → u.rd (CAN_COLL n) CAN_COLL_COLLRUN = 0)
      (free → (s.canPending n 64 = true → gives (.canArbitration n true t) (fun u => begins u 64)) ∧
        (∀ j m k m', j ≠ 64 → k ≠ 64 → (s.canOf n).bufs = [(j, m), (k, m')] → gives (.canArbitration n true t) (fun u =>
          begins u (if canKey m' < canKey m then k else j))) ∧
        ((s.canOf n).bufs = [] → gives (.canArbitration n true t) still) ∧ gives (.canArbitration n false t) still) ∧
      (¬ free → ∀ won, gives (.canArbitration n won t) still)) ∧
    (∀ b, (s.canOf n).act = some b →
      let ends := fun (u : State) => (u.canOf n).act = none ∧ u.rdB (CAN_TXSTAT n) CAN_TXSTAT_TXACT = false
      let limits := fun (u : State) => s.canState n < 2 → u.canState n = (if 255 < err u CAN_ERR_TEC then
        (if s.rdB ctl CAN_CTL_BORMODE then 2 else 3) else if 127 < err u CAN_ERR_TEC ∨ 127 < err u CAN_ERR_REC then 1 else 0)
      (∀ sof tdcv, gives (.canTxComplete n sof tdcv t) (fun u => ends u ∧ limits u ∧
        err u CAN_ERR_TEC = err s CAN_ERR_TEC - 1 ∧ u.rd (CAN_COLL n) CAN_COLL_COLLRUN = 0 ∧
        (s.canSwp n b = false ∨ (s.canOf n).aborting = true → buf u b = []) ∧
        (b < 65 → s.canSwp n b = true → (s.canOf n).aborting = false → buf u b = s.canShadow n b ∧ u.canSwp n b = false) ∧
        (b = 65 → (u.canOf n).sent = some (canByte (buf s b) 0 % 64, sof / 1000) ∧
          u.rd (CAN_TM_STAT n) CAN_TM_STAT_SEQ = canByte (buf s b) 0 % 64))) ∧
      (∀ (lec : Fin 8) late exempt tdcv,
        let run := if lec.val = 7 ∨ (late = true ∧ (lec.val = 4 ∨ lec.val = 5)) then
          satAdd (s.rd (CAN_COLL n) CAN_COLL_COLLRUN) 1 255 else 0
        gives (.canTxError n lec late exempt tdcv t) (fun u => ends u ∧ limits u ∧ err u CAN_ERR_LEC = lec ∧
          evt u CAN_EVT_ERR = true ∧ u.rd (CAN_COLL n) CAN_COLL_COLLRUN = run ∧
          err u CAN_ERR_TEC = (if exempt then err s CAN_ERR_TEC else Nat.min 511 (err s CAN_ERR_TEC + 8)) ∧
          ((s.canOf n).aborting = true → buf u b = []) ∧
          ((s.canOf n).aborting = false → s.canSwp n b = false → buf u b = buf s b) ∧
          (run ≠ 0 → run = s.rd (CAN_COLL n) CAN_COLL_COLLTH → (s.canOf n).reported = false → evt u CAN_EVT_COLL = true ∧
            u.rd (CAN_COLL n) CAN_COLL_COLLBUF = b % 128 ∧ (u.canOf n).reported = true) ∧
          (s.canState n < 2 → 2 ≤ u.canState n → evt u CAN_EVT_BUSOFF = true)))) ∧
    ((s.canOf n).act = none → ∀ sof tdcv lec late exempt, gives (.canTxComplete n sof tdcv t) still ∧
      gives (.canTxError n lec late exempt tdcv t) still) ∧
    (∀ (lec : Fin 8) eight, s.canEn n = true → s.canState n < 2 → gives (.canRxError n lec eight t) (fun u =>
      err u CAN_ERR_LEC = lec ∧ err u CAN_ERR_REC = satAdd (err s CAN_ERR_REC) (if eight then 8 else 1) 255 ∧
      (err s CAN_ERR_TEC ≤ 255 → u.canState n =
        if 127 < err s CAN_ERR_TEC ∨ 127 < err u CAN_ERR_REC then 1 else 0))) ∧
    (∀ w0 w1 data sof, s.canEn n = true → s.canState n < 2 →
      let m := [w0 % 2 ^ 32, w1 % 64, sofUs (sof / 1000), 0] ++ (List.range 16).map (fun i => data.getD i 0 % 2 ^ 32)
      let ref := canByte m 0
      let takes := fun (f idx : Nat) (u : State) =>
        let q := fifo s f
        (s.rdB (CAN_FIFOCTL n f) CAN_FIFOCTL_FEN = false → (u.canOf n).fifo = (s.canOf n).fifo) ∧
        (s.rdB (CAN_FIFOCTL n f) CAN_FIFOCTL_FEN = true →
          (q.length < 32 → fifo u f = q ++ [m.set 1 (w1 % 64 + idx * 2 ^ 8 + Tab.get 0 (s.canOf n).lost f * 2 ^ 16)] ∧
            Tab.get 0 (u.canOf n).lost f = 0 ∧ head u f) ∧
          (32 ≤ q.length → (u.canOf n).fifo = (s.canOf n).fifo ∧ evt u CAN_EVT_LOST = true ∧
            Tab.get 0 (u.canOf n).lost f = satAdd (Tab.get 0 (s.canOf n).lost f) 1 255))
      let arrives := fun (P : State → Prop) => gives (.canFrameReceived n w0 w1 data sof t) (fun u => P u ∧
        (err s CAN_ERR_REC ≤ 127 → err u CAN_ERR_REC = err s CAN_ERR_REC - 1) ∧
        (127 < err s CAN_ERR_REC → 119 ≤ err u CAN_ERR_REC ∧ err u CAN_ERR_REC ≤ 127) ∧
        (s.isReference n m = true → (u.canOf n).refAt = now ∧ (u.canOf n).backup = false ∧
          (u.canOf n).caps = ((ref % 64, sof / 1000) :: (s.canOf n).caps).take 4 ∧
          u.rd (CAN_TM_STAT n) CAN_TM_STAT_SEQ = ref % 64 ∧ u.rdB (CAN_TM_STAT n) CAN_TM_STAT_MDISC = bit ref 7 ∧
          (∀ c, s.rd (CAN_TM_CTL n) CAN_TM_CTL_TMODE = 1 → bit ref 6 = true →
            (((ref % 64, sof / 1000) :: (s.canOf n).caps).take 4).find? (fun c => c.1 == canByte m 1 % 64) = some c →
            let ofs := sext (wrapInt ((refTime m : Int) + s.rdS (CAN_TM_DLY n) CAN_TM_DLY_RMDLY - (c.2 : Int)) 48) 48
            u.rdB (CAN_TM_STAT n) CAN_TM_STAT_TMVALID = true ∧ (u.canOf n).ofs = some (ofs, c.2) ∧ (u.canOf n).ofsAt = now ∧
            u.reg (CAN_TM_OFS n) = BitVec.ofNat 32 (wrapInt (clampI (-(2 ^ 31 - 1)) (2 ^ 31 - 1) ofs) 32))) ∧
        (s.isReference n m = false → (u.canOf n).caps = (s.canOf n).caps))
      (∀ k, k < 128 → s.filterHit n k (w0 % 2 ^ 32) = true → (∀ j, j < k → s.filterHit n j (w0 % 2 ^ 32) = false) →
        (s.rd (CAN_FLTID n k) CAN_FLTID_TGT = 0 → arrives (fun u => (u.canOf n).fifo = (s.canOf n).fifo)) ∧
        (s.rd (CAN_FLTID n k) CAN_FLTID_TGT ≠ 0 → arrives (takes (s.rd (CAN_FLTID n k) CAN_FLTID_TGT - 1) k))) ∧
      ((∀ j, j < 128 → s.filterHit n j (w0 % 2 ^ 32) = false) →
        (s.rd (CAN_FILTCFG n) CAN_FILTCFG_NOMATCH = 0 → arrives (fun u => (u.canOf n).fifo = (s.canOf n).fifo)) ∧
        (∀ f, f < 2 → s.rd (CAN_FILTCFG n) CAN_FILTCFG_NOMATCH = f + 1 → arrives (fun u => ∃ idx, idx < 128 ∧
          takes f idx u)))) ∧
    (s.canEn n = false ∨ 2 ≤ s.canState n → ∀ w0 w1 data sof lec eight,
      gives (.canFrameReceived n w0 w1 data sof t) still ∧ gives (.canRxError n lec eight t) still) ∧
    (∀ (f : Fin 2) v row, (s.at t).Admits (CAN_FIFOCTL n f) (CAN_FIFOCTL_POP.put (BitVec.ofNat 32 v) 1).toNat row →
      gives (.pop src n f v t) (fun u => fifo u f = (fifo s f).drop 1 ∧ head u f ∧
        fifo u (1 - f.val) = fifo s (1 - f.val))) ∧
    (s.canState n = 3 → gives (.canBusoffRecovered n t) (fun u => u.canState n = 0 ∧ err u CAN_ERR_TEC = 0 ∧
      err u CAN_ERR_REC = 0 ∧ u.can = s.can ∧
      (s.rd (CAN_TXCFG n) CAN_TXCFG_EVDEST = 0 → s.Raised u (canSrc n) EV_CAN_BUSOFF_REC [canWord n 0]))) ∧
    (s.canState n ≠ 3 → gives (.canBusoffRecovered n t) still) ∧
    (let mode := s.rd (CAN_TM_CTL n) CAN_TM_CTL_TMODE
      let rmto := s.rd (CAN_TM_PER n) CAN_TM_PER_RMTO * ms
      let m := s.refMessage n
      (s.canEn n = true → mode = 2 ∨ mode = 3 ∧ (s.canOf n).backup = true →
        refTime m = ((s.canOf n).sent.getD (0, 0)).2 % 2 ^ 48 ∧ canByte m 0 % 64 = (s.canOf n).seq % 64 ∧
        m.getD 0 0 % 2 ^ 29 = s.rd (CAN_TM_CTL n) CAN_TM_CTL_RMID ∧
        ((s.canOf n).act ≠ some 65 → gives (.canReferenceSend n t) (fun u => buf u 65 = m ∧
          (u.canOf n).seq = ((s.canOf n).seq + 1) % 64)) ∧
        ((s.canOf n).act = some 65 → gives (.canReferenceSend n t) (fun u => (u.canOf n).refNext = some m ∧
          (u.canOf n).bufs = (s.canOf n).bufs ∧ (u.canOf n).seq = ((s.canOf n).seq + 1) % 64))) ∧
      (s.canEn n = false ∨ mode < 2 ∨ mode = 3 ∧ (s.canOf n).backup = false → gives (.canReferenceSend n t) still) ∧
      (mode = 1 → s.rdB (CAN_TM_STAT n) CAN_TM_STAT_TMVALID = true →
        ((s.canOf n).ofsAt + rmto ≤ now → gives (.canTimeLost n t) (fun u =>
          u.rdB (CAN_TM_STAT n) CAN_TM_STAT_TMVALID = false ∧ evt u CAN_EVT_TMLOST = true ∧ u.can = s.can ∧
          s.Raised u (canSrc n) EV_CAN_TM_LOST [canWord n 0])) ∧
        (now < (s.canOf n).ofsAt + rmto → gives (.canTimeLost n t) still)) ∧
      (mode = 3 → ((s.canOf n).refAt + rmto ≤ now → gives (.canTimeLost n t) (fun u => (u.canOf n).backup = true ∧
          u.regs = s.regs)) ∧
        (now < (s.canOf n).refAt + rmto → gives (.canTimeLost n t) still)))

/-- A received frame with a bad FCS or length is counted and dropped; a frame accepted by address and VLAN goes, without
its tag, with its stamp and header, into the oldest free buffer and its descriptor into the queue of the first rule
that matches, or the default queue; without a free buffer, or with one that is too short, it is lost; the oldest frame
of TXQ leaves padded and with its tag and is reported, one too long is refused, one that waited is discarded with an
event; a change of the link is recorded; PHASE schedules a correction, RATE restarts the servo's time, STEP advances
chip time at once, DISC is recorded, and its loss clears it. (R402, R403, R404, R405, R406, R407, R408, R409, R410) -/
def Obligations.MacsAndChipTime : Prop :=
  ∀ (s : State) (m : Fin 2) (src t : Nat),
    let n := Nat.max s.now t
    let gives := fun (c : Instr) (P : State → Prop) => ∃ u, exec c s = .next u ∧ P u
    let still := fun (u : State) => u.regs = s.regs ∧ u.mem = s.mem ∧ u.fab = s.fab ∧ u.led = s.led ∧ u.eth = s.eth
    let en := s.rdB (ETH_CTL m) ETH_CTL_EN = true
    let evt := fun (u : State) (f : Fld) => u.rdB (ETH_EVT m) f = true
    let stamped := fun (sfd : Nat) (dly : Int) => (((sfd / 1000 : Nat) : Int) + dly).toNat
    let taken := fun (q : Nat) (u : State) (x : Dword) => s.rdB (FB_Q_CFG q) FB_Q_CFG_EN = true →
      (s.queue q).length < s.depth q → u.queue q = s.queue q ++ [x]
    (∀ (frame : List Nat) fcs sfd,
      let f := frame.map (· % 256)
      let dest := beField f 0 6
      let tci := ethTci f
      let plain := if tci.isSome then f.take 12 ++ f.drop 16 else f
      let sized := 64 ≤ f.length + 4 ∧ f.length + 4 ≤ 1522
      let fq := s.rd (ETH_QMAP m) ETH_QMAP_FREEQ
      let arrives := fun (P : State → Prop) => gives (.ethFrameReceived m frame fcs sfd t) P
      let kept := fun (q idx : Nat) =>
        (s.queue fq = [] → arrives (fun u => evt u ETH_EVT_NOBUF ∧ u.mem = s.mem)) ∧
        (∀ d ds, s.queue fq = d :: ds →
          (descLen d * 16 < 16 + plain.length → arrives (fun u => evt u ETH_EVT_OVSZ ∧ u.mem = s.mem)) ∧
          (16 + plain.length ≤ descLen d * 16 → q ≠ fq → s.rdB (FB_Q_CFG q) FB_Q_CFG_EN = true →
            (s.queue q).length < s.depth q →
            let head := bytesLE (stamped sfd (s.rdS (ETH_DLY m) ETH_DLY_RXDLY)) 8 ++ bytesLE plain.length 2 ++
              bytesLE (tci.getD 0) 2 ++ [idx, b2n tci.isSome + 2 * b2n (ptpAddress dest), 0, 0]
            arrives (fun u => u.queue fq = ds ∧
              u.queue q = s.queue q ++ [bufDesc ((plain.length + 31) / 16) (m * 32768 + idx % 128 * 256) (descAddr d)] ∧
              ∀ a, u.byte a = if descAddr d ≤ a ∧ a < descAddr d + 16 + plain.length then
                BitVec.ofNat 8 ((head ++ plain).getD (a - descAddr d) 0) else s.byte a)))
      (¬ en → arrives still) ∧
      (en → fcs = false ∨ ¬ sized → arrives (fun u => evt u ETH_EVT_BADFR ∧ u.mem = s.mem ∧ u.fab = s.fab)) ∧
      (en → fcs = true → sized →
        (s.ethDest m dest = false → arrives still) ∧
        (s.ethDest m dest = true → beField plain 12 2 ≠ 0x8808 →
          (s.ethVlan m tci = false → arrives (fun u => evt u ETH_EVT_BADFR ∧ u.mem = s.mem ∧ u.fab = s.fab)) ∧
          (s.ethVlan m tci = true →
            (∀ k, k < 16 → s.ethRule m k plain tci = true → (∀ j, j < k → s.ethRule m j plain tci = false) →
              kept (s.rd (ETH_RULE m k) ETH_RULE_RQ) k) ∧
            ((∀ j, j < 16 → s.ethRule m j plain tci = false) →
              (s.rdB (ETH_QMAP m) ETH_QMAP_DEFEN = true → kept (s.rd (ETH_QMAP m) ETH_QMAP_DEFQ) 0xFF) ∧
              (s.rdB (ETH_QMAP m) ETH_QMAP_DEFEN = false → arrives still)))))) ∧
    (let tq := s.rd (ETH_QMAP m) ETH_QMAP_TXQ
      let dq := s.rd (ETH_QMAP m) ETH_QMAP_TXDONEQ
      let link := s.rdB (ETH_STAT m) ETH_STAT_LINK = true
      let done := fun (status tag stamp : Nat) =>
        BitVec.ofNat 64 (2 * 2 ^ 60 + status * 2 ^ 56 + m * 2 ^ 55 + tag * 2 ^ 32 + stamp % 2 ^ 32)
      (∀ d ds sfd, s.queue tq = d :: ds → en → tq ≠ dq →
        let ctl := s.loadLE (descAddr d) 2
        let body := s.loadBytes (descAddr d + 16) (descLen d * 16 - 16)
        let f := if bit ctl 1 then body.take 12 ++ [0x81, 0] ++ beBytes (s.loadLE (descAddr d + 2) 2) 2 ++ body.drop 12 else body
        (link → f.length + 4 ≤ 1522 → gives (.ethFrameTransmit m sfd t) (fun u => u.queue tq = ds ∧
          Tab.get [] u.eth.sent m = f ++ List.replicate (60 - f.length) 0 ∧
          taken dq u (done 0 (descTag d) (if bit ctl 0 then stamped sfd (s.rdS (ETH_DLY m) ETH_DLY_TXDLY) else 0)))) ∧
        (link → 1522 < f.length + 4 → gives (.ethFrameTransmit m sfd t) (fun u => u.queue tq = ds ∧ u.eth = s.eth ∧
          taken dq u (done 1 (descTag d) 0))) ∧
        gives (.ethTxTimeout m t) (fun u => u.queue tq = ds ∧ u.eth = s.eth ∧ evt u ETH_EVT_TXTO ∧
          taken dq u (done 2 (descTag d) 0))) ∧
      (¬ en ∨ ¬ link ∨ s.queue tq = [] → ∀ sfd, gives (.ethFrameTransmit m sfd t) still) ∧
      (¬ en ∨ s.queue tq = [] → gives (.ethTxTimeout m t) still) ∧
      (∀ up, (en → s.rdB (ETH_STAT m) ETH_STAT_LINK ≠ up → gives (.ethLinkPoll m up t) (fun u =>
          u.rdB (ETH_STAT m) ETH_STAT_LINK = up ∧ evt u ETH_EVT_LINKCHG ∧ s.Raised u srcComms EV_ETH_LINK [m.val, b2n up])) ∧
        (¬ en ∨ s.rdB (ETH_STAT m) ETH_STAT_LINK = up → gives (.ethLinkPoll m up t) still))) ∧
    (∀ v row,
      ((s.at t).Admits CT_TIME_PHASE v row → gives (.phase src v t) (fun u =>
        u.eth = { s.eth with phase := sext v 32 * 10, slewAcc := 0, servoAt := n } ∧ u.now = n)) ∧
      ((s.at t).Admits CT_TIME_RATE v row → gives (.rate src v t) (fun u =>
        u.eth = { s.eth with servoAt := n } ∧ u.reg CT_TIME_RATE = BitVec.ofNat 32 v)) ∧
      ((s.at t).Admits CT_TIME_STEP v row → gives (.step src v t) (fun u => u.now = n + v * 1000 ∧ u.eth = s.eth ∧
        s.Raised u srcComms EV_TIME_STEP [v])) ∧
      ((s.at t).Admits CT_TIME_CTL (CT_TIME_CTL_DISC.put (BitVec.ofNat 32 v) 1).toNat row → gives (.disc src v t) (fun u =>
        u.rdB CT_TIME_CTL CT_TIME_CTL_DISC = true ∧ u.eth = s.eth ∧
        (s.rdB CT_TIME_CTL CT_TIME_CTL_DISC = false → s.Raised u srcComms EV_TIME_DISC [1])))) ∧
    (s.rdB CT_TIME_CTL CT_TIME_CTL_DISC = true →
      let due := s.eth.servoAt + s.rd CT_TIME_CTL CT_TIME_CTL_TLOSS * 100 * ms
      (due ≤ n → gives (.discLost t) (fun u => u.rdB CT_TIME_CTL CT_TIME_CTL_DISC = false ∧
        u.reg CT_TIME_RATE = s.reg CT_TIME_RATE ∧ s.Raised u srcComms EV_TIME_LOST [0])) ∧
      (n < due → gives (.discLost t) still)) ∧
    (s.rdB CT_TIME_CTL CT_TIME_CTL_DISC = false → gives (.discLost t) still)

/-- The boot ROM acts once on the pins: a valid forced slot, or the first valid slot in the order of preference, is booted
with its trial count written, its segments copied and its grains started, one tried out is rejected, and with none
left, or on request, the part enters recovery with the slot to replace; in recovery HELLO is answered, WRITE stores
into the target slot and invalidates its state word before the first body byte, VERIFY checks the slot, COMMIT after a
good VERIFY writes trial 0 and resets; a repeated command is answered as before and one out of order refused; CONFIRM
confirms the booted slot, ARBGO raises the counter, REVGO revokes a key, REBOOT starts the pre-sequence. (R447, R448,
R449, R450, R451, R452, R454, R455, R456, R457, R474) -/
def Obligations.BootRomBootsAndRecovers : Prop :=
  ∀ (s : State) (src t : Nat),
    let n := Nat.max s.now t
    let gives := fun (c : Instr) (P : State → Prop) => ∃ u, exec c s = .next u ∧ P u
    let stat := fun (u : State) (f : Fld) => u.rd PS_BOOT_STAT f
    let begins := fun (g : Nat) (u : State) => u.grain g = { run := .running, retired := n }
    let ready := s.boot.psUp = true ∧ s.boot.booted = false ∧ s.boot.recover = none ∧ s.sv.resetAt = none ∧
      (s.grain 0x300).run = .running
    let boots := fun (slot outcome : Nat) (u : State) => u.boot.booted = true ∧ u.boot.recover = none ∧
      stat u PS_BOOT_STAT_OUTCOME = outcome ∧ stat u PS_BOOT_STAT_SLOT = slot ∧ u.boot.version = s.imgVersion slot ∧
      u.boot.key = s.imgKey slot ∧ begins 0x300 u ∧
      (∀ i, i < s.imgSegs slot → (s.imgSeg slot i).2.2.2 ≠ 0 → (s.imgSeg slot i).2.2.2 ≠ 0x300 →
        (s.grain (s.imgSeg slot i).2.2.2).run ≠ .quarantined → begins (s.imgSeg slot i).2.2.2 u) ∧
      (∀ k, s.slotState slot = .trial k → u.loadLE (imgState slot) 8 = 0x53544154 * 2 ^ 32 + 0x11 + k) ∧
      (s.imgSegs slot = 1 → ∀ j, j < (s.imgSeg slot 0).2.2.1 →
        u.byte ((s.imgSeg slot 0).1 + j) = s.byte (imgBase slot + 512 + (s.imgSeg slot 0).2.1 + j))
    let recovers := fun (P : Recover → Prop) (u : State) => u.boot.booted = false ∧ stat u PS_BOOT_STAT_OUTCOME = 3 ∧
      u.grains = s.grains ∧ ∃ r, u.boot.recover = some r ∧ r.reply = none ∧ r.verified = false ∧
        stat u PS_BOOT_STAT_SLOT = r.slot ∧ P r
    let served := fun (want : Nat) (r : Recover) => r.iface = if s.otpBit (0x2E0 * 8 + 9 + want) then 2 else want
    let policy := b2n (s.otpBit (0x2E0 * 8 + 11))
    let rejected := fun (u : State) (slot : Nat) => u.loadLE (imgState slot) 8 = 0x53544154 * 2 ^ 32 + 0x30
    let good := fun (slot : Nat) => s.imgCheck slot = 0
    (∀ (p : Fin 8), ready →
      (p.val = 1 ∨ p.val = 2 → gives (.bootRom p t) (recovers (fun r => served (p.val - 1) r ∧
        r.slot = if s.imgCheck 0 ≠ 0 then 0 else if s.imgCheck 1 ≠ 0 then 1 else if s.imgSeq 0 < s.imgSeq 1 then 0 else 1))) ∧
      (p.val = 3 ∨ p.val = 4 →
        let slot := p.val - 3
        (s.slotState slot = .confirmed ∨ (∃ k, k < 3 ∧ s.slotState slot = .trial k) →
          (good slot → gives (.bootRom p t) (boots slot 2)) ∧ (¬ good slot → gives (.bootRom p t) (recovers (served policy)))) ∧
        (s.slotState slot = .trial 3 → gives (.bootRom p t) (fun u => recovers (served policy) u ∧ rejected u slot)) ∧
        (s.slotState slot = .rejected ∨ s.slotState slot = .unbootable →
          gives (.bootRom p t) (recovers (served policy)))) ∧
      (p.val = 0 ∨ 4 < p.val →
        (s.bootOrder = [] → gives (.bootRom p t) (fun u => recovers (served policy) u ∧ stat u PS_BOOT_STAT_BOOTPIN = p)) ∧
        (∀ slot rest, s.bootOrder = slot :: rest →
          (s.slotState slot ≠ .trial 3 → good slot → gives (.bootRom p t) (boots slot 0)) ∧
          (rest = [] → s.slotState slot ≠ .trial 3 → ¬ good slot → gives (.bootRom p t) (recovers (served policy))) ∧
          (rest = [] → s.slotState slot = .trial 3 → gives (.bootRom p t) (fun u => recovers (served policy) u ∧
            rejected u slot)) ∧
          (∀ other, rest = [other] → s.slotState other ≠ .trial 3 → good other →
            (s.slotState slot ≠ .trial 3 → ¬ good slot → gives (.bootRom p t) (boots other 1)) ∧
            (s.slotState slot = .trial 3 → gives (.bootRom p t) (fun u => boots other 1 u ∧ rejected u slot)))))) ∧
    (¬ ready → ∀ p, gives (.bootRom p t) (fun u => u.boot = s.boot ∧ u.regs = s.regs ∧ u.grains = s.grains ∧ u.mem = s.mem)) ∧
    (∀ (seq : Fin 65536) off data r, s.boot.recover = some r → r.iface ≠ 2 →
      let answers := fun (typ status : Nat) (out : List Nat) (sq : Nat) (P : Recover → Prop) (u : State) =>
        ∃ x, u.boot.recover = some x ∧ x.reply = some (typ, status, out) ∧ x.seq = sq ∧ P x
      let free := s.sv.resetAt = none ∧ s.trip.pwHoldAt = none ∧ s.trip.preseqAt = none ∧ s.led.commit = false
      let fits := off + data.length ≤ 0x1FFFC0 ∧ data.length ≤ if r.iface = 0 then 1024 else 56
      let first := 0x200 < off + data.length ∧ r.begun = false
      let p := imgBase r.slot + off
      let c := s.imgCheck r.slot
      (r.reply = none ∨ seq.val = (r.seq + 1) % 65536 ∧ seq.val ≠ r.seq →
        gives (.hello seq t) (fun u => u.mem = s.mem ∧ answers 0x81 0 (s.otpBytes 0 16 ++ [s.arb] ++
          (List.range 2).flatMap (fun k => bytesLE (s.imgSeq k) 4 ++ s.loadBytes (imgState k) 8)) seq (fun _ => True) u) ∧
        (fits → gives (.write seq off data t) (fun u => answers 0x82 0 [] seq (fun x => x.verified = false ∧
            (x.begun = true ↔ r.begun = true ∨ first)) u ∧
          ∀ a, (p ≤ a → a < p + data.length → u.byte a = BitVec.ofNat 8 (data.getD (a - p) 0)) ∧
            (a < p ∨ p + data.length ≤ a → (first → imgState r.slot ≤ a → a < imgState r.slot + 8 → u.byte a = 0#8) ∧
              (¬ first ∨ a < imgState r.slot ∨ imgState r.slot + 8 ≤ a → u.byte a = s.byte a)))) ∧
        (¬ fits → gives (.write seq off data t) (fun u => u.mem = s.mem ∧ answers 0x82 1 [] seq (fun _ => True) u)) ∧
        gives (.verify seq t) (fun u => u.mem = s.mem ∧
          answers 0x83 (if c = 0 then 0 else if c = 6 then 4 else if 3 ≤ c ∧ c ≤ 5 then 3 else 1) [] seq
            (fun x => x.verified = true ↔ c = 0) u) ∧
        (r.verified = true → free → gives (.commit seq t) (fun u => u.trip.preseqAt = some n ∧ u.sv.cause = 7 ∧
          u.loadLE (imgState r.slot) 8 = 0x53544154 * 2 ^ 32 + 0x10 ∧ answers 0x84 0 [] seq (fun _ => True) u)) ∧
        (r.verified = false → gives (.commit seq t) (fun u => u.mem = s.mem ∧ u.trip = s.trip ∧
          answers 0x84 3 [] seq (fun _ => True) u))) ∧
      (r.reply ≠ none → seq.val = r.seq → ∀ c ∈ [Instr.hello seq t, .write seq off data t, .verify seq t, .commit seq t],
        gives c (fun u => u.boot = s.boot ∧ u.mem = s.mem ∧ u.trip = s.trip)) ∧
      (r.reply ≠ none → seq.val ≠ r.seq → seq.val ≠ (r.seq + 1) % 65536 →
        ∀ c ∈ [(1, Instr.hello seq t), (2, .write seq off data t), (3, .verify seq t), (4, .commit seq t)],
        gives c.2 (fun u => u.mem = s.mem ∧ u.trip = s.trip ∧ answers (c.1 + 0x80) 2 [] r.seq (fun _ => True) u))) ∧
    (∀ v row, (∀ i ∈ [15, 23, 28, 29, 30, 31], bit v i = false) →
      let cmd := fun (f : Fld) => (f.put (BitVec.ofNat 32 v) 1).toNat
      let free := s.sv.resetAt = none ∧ s.trip.pwHoldAt = none ∧ s.trip.preseqAt = none
      ((s.at t).Admits PS_BOOT_CMD (cmd PS_BOOT_CMD_CONFIRM) row → gives (.confirm src v t) (fun u =>
        u.loadLE (imgState s.bootSlot) 8 = 0x53544154 * 2 ^ 32 + 0x20 ∧ s.Raised u srcBoot EV_BOOT_CONFIRM [s.bootSlot])) ∧
      ((s.at t).Admits PS_BOOT_CMD (cmd PS_BOOT_CMD_ARBGO) row → v / 65536 % 128 ≤ 64 → gives (.arbgo src v t) (fun u =>
        u.arb = v / 65536 % 128 ∧ s.Raised u srcBoot EV_BOOT_ARB [s.bootSlot, v / 65536 % 128])) ∧
      ((s.at t).Admits PS_BOOT_CMD (cmd PS_BOOT_CMD_REVGO) row → gives (.revgo src v t) (fun u =>
        u.keyRevoked (v / 256 % 4) = true ∧ s.Raised u srcBoot EV_BOOT_REVOKE [v / 256 % 4])) ∧
      ((s.at t).Admits PS_BOOT_CMD (cmd PS_BOOT_CMD_REBOOT) row → free → gives (.reboot src v t) (fun u =>
        u.trip.preseqAt = some n ∧ u.sv.cause = 7)))

/-- A read of the challenge draws 16 bytes that stand until used; DBGGO uses the challenge up, opens the scope of a good
token for its duration and records either way, DBGLOCK closes it, and its end and the end of the challenge come by
time; an admitted burn sets its bit; UNLOCK with the slot's password opens the gate and clears the failure counts,
another one counts, and the fifth starts a lockout of 10 min times 2 to the lockouts before; LOCK and CGTO without a
gated write close the gate; SETPW stores salt and hash, CLRPW empties a slot; each zeroes the password words; IMPORT
takes the section key into the older copy. (R458, R459, R461, R462, R463, R464, R466, R468) -/
def Obligations.GateKeysOtpAndDebugTokens : Prop :=
  ∀ (s : State) (src t : Nat),
    let n := Nat.max s.now t
    let gives := fun (c : Instr) (P : State → Prop) => ∃ u, exec c s = .next u ∧ P u
    let gate := fun (u : State) (f : Fld) => u.rd CG_STAT f
    let open_ := s.rdB PS_BOOT_STAT PS_BOOT_STAT_DBGOPEN
    let blank := fun (u : State) => ∀ i, i < 8 → u.reg (CG_PW i) = 0#32
    (∀ row, regRow? (PS_DBG_CHAL 0) = some row → s.answers (PS_DBG_CHAL 0) = true → gives (.debugChallengeRead t) (fun u =>
      ∃ bs, bs.length = 16 ∧ u.boot.chal = some (bs, n) ∧ u.challenge = some bs ∧
        ∀ i, i < 4 → u.reg (PS_DBG_CHAL i) = BitVec.ofNat 32 (ofBytesLE ((bs.drop (4 * i)).take 4)))) ∧
    ((s.at t).challenge = none → s.boot.dbgDue = none → gives (.debugExpire t) (fun u => u.boot = { s.boot with chal := none } ∧
      u.regs = s.regs)) ∧
    (∀ due, s.boot.dbgDue = some due →
      (due ≤ n → gives (.debugExpire t) (fun u => u.rdB PS_BOOT_STAT PS_BOOT_STAT_DBGOPEN = false ∧
        u.rd PS_BOOT_STAT PS_BOOT_STAT_DBGSCOPE = 0 ∧ u.boot.dbgDue = none)) ∧
      (n < due → gives (.debugExpire t) (fun u => u.boot.dbgDue = some due ∧ u.regs = s.regs))) ∧
    (∀ v row, (∀ i ∈ [15, 23, 28, 29, 30, 31], bit v i = false) →
      let b := s.token
      ((s.at t).Admits PS_BOOT_CMD (PS_BOOT_CMD_DBGGO.put (BitVec.ofNat 32 v) 1).toNat row →
        ((s.at t).tokenOk = true → gives (.dbggo src v t) (fun u => u.boot.chal = none ∧
          u.rdB PS_BOOT_STAT PS_BOOT_STAT_DBGOPEN = true ∧ u.rd PS_BOOT_STAT PS_BOOT_STAT_DBGSCOPE = b.getD 28 0 % 64 ∧
          u.boot.dbgDue = some (n + ofBytesLE ((b.drop 30).take 2) * 60 * sec) ∧
          s.Raised u srcBoot EV_BOOT_DBG_UNLOCK [b.getD 32 0])) ∧
        ((s.at t).tokenOk = false → gives (.dbggo src v t) (fun u => u.boot.chal = none ∧
          u.rdB PS_BOOT_STAT PS_BOOT_STAT_DBGOPEN = open_ ∧ s.Raised u srcBoot EV_BOOT_DBG_FAIL [b.getD 32 0]))) ∧
      ((s.at t).Admits PS_BOOT_CMD (PS_BOOT_CMD_DBGLOCK.put (BitVec.ofNat 32 v) 1).toNat row →
        gives (.dbglock src v t) (fun u => u.rdB PS_BOOT_STAT PS_BOOT_STAT_DBGOPEN = false ∧ u.boot.dbgDue = none))) ∧
    (∀ v row, (s.at t).Admits PS_OTP_PRG (PS_OTP_PRG_GO.put (BitVec.ofNat 32 v) 1).toNat row →
      gives (.otpGo src v t) (fun u => u.otpBit (v % 65536) = true ∧ (∀ i, i ≠ v % 65536 → u.otpBit i = s.otpBit i) ∧
        s.Raised u srcBoot EV_OTP_BURN [v % 65536])) ∧
    (∀ v row, (∀ i ∈ [28, 29, 30, 31], bit v i = false) →
      let w : Word := BitVec.ofNat 32 v
      let slot := CG_CTL_PSLOT.get w
      let pw := s.password (CG_CTL_PWLEN.get w)
      let match_ : Prop := ∃ salt hash, Tab.get none s.boot.pw slot = some (salt, hash) ∧ Config.sha256 (salt ++ pw) = hash
      ((s.at t).Admits CG_CTL (CG_CTL_UNLOCK.put w 1).toNat row →
        (match_ → gives (.unlock src v t) (fun u => blank u ∧ u.unlocked = true ∧ gate u CG_STAT_USED = slot ∧
          gate u CG_STAT_FAILS = 0 ∧ gate u CG_STAT_LOCKN = 0 ∧ u.boot.gateAt = n ∧ s.Raised u srcCG EV_CG_UNLOCK [slot])) ∧
        (¬ match_ → gate s CG_STAT_FAILS < 4 → gives (.unlock src v t) (fun u => blank u ∧ u.unlocked = s.unlocked ∧
          gate u CG_STAT_FAILS = gate s CG_STAT_FAILS + 1 ∧ u.boot.lock = s.boot.lock ∧
          s.Raised u srcCG EV_CG_FAIL [slot])) ∧
        (¬ match_ → 4 ≤ gate s CG_STAT_FAILS → gives (.unlock src v t) (fun u => blank u ∧ u.unlocked = s.unlocked ∧
          gate u CG_STAT_FAILS = 0 ∧ gate u CG_STAT_LOCKN = Nat.min 31 (gate s CG_STAT_LOCKN + 1) ∧
          u.boot.lock = some (n, Nat.min (24 * 3600) (600 * 2 ^ gate s CG_STAT_LOCKN) * sec)))) ∧
      ((s.at t).Admits CG_CTL (CG_CTL_LOCK.put w 1).toNat row → gives (.lock src v t) (fun u => blank u ∧ u.unlocked = false ∧
        (s.unlocked = true → s.Raised u srcCG EV_CG_LOCK [gate s CG_STAT_USED, 1]))) ∧
      ((s.at t).Admits CG_CTL (CG_CTL_SETPW.put w 1).toNat row → gives (.setpw src v t) (fun u => blank u ∧
        (∃ salt, salt.length = 16 ∧ Tab.get none u.boot.pw slot = some (salt, Config.sha256 (salt ++ pw))) ∧
        bit (gate u CG_STAT_SET) slot = true ∧ s.Raised u srcCG EV_CG_PWCHG [slot])) ∧
      ((s.at t).Admits CG_CTL (CG_CTL_CLRPW.put w 1).toNat row → gives (.clrpw src v t) (fun u => blank u ∧
        Tab.get none u.boot.pw slot = none ∧ bit (gate u CG_STAT_SET) slot = false ∧ s.Raised u srcCG EV_CG_PWCHG [slot]))) ∧
    (∀ t0 len, s.boot.lock = some (t0, len) →
      (t0 + len ≤ n → gives (.cgLockoutEnd t) (fun u => u.boot = { s.boot with lock := none })) ∧
      (n < t0 + len → gives (.cgLockoutEnd t) (fun u => u.boot = s.boot))) ∧
    (let due := s.boot.gateAt + s.rd CG_CTL CG_CTL_CGTO * 60 * sec;
      (s.unlocked = true → due ≤ n → gives (.cgIdleTimeout t) (fun u => u.unlocked = false ∧
        s.Raised u srcCG EV_CG_LOCK [gate s CG_STAT_USED, 2])) ∧
      (s.unlocked = false ∨ n < due → gives (.cgIdleTimeout t) (fun u => u.regs = s.regs ∧ u.led = s.led))) ∧
    (∀ v row, (s.at t).Admits PS_KEY_CTL (PS_KEY_CTL_IMPORT.put (BitVec.ofNat 32 v) 1).toNat row →
      let q := Nat.max (Tab.get 0 s.boot.keySeq 0) (Tab.get 0 s.boot.keySeq 1)
      gives (.keyImport src v t) (fun u => Tab.get none u.boot.keys 0 = some
          ((Config.aesDecrypt s.provEnc (List.replicate 16 0) ((s.blob.drop 16).take 32)).take 16) ∧
        (Tab.get 0 s.boot.keySeq 0 ≤ Tab.get 0 s.boot.keySeq 1 → Tab.get 0 u.boot.keySeq 0 = q + 1 ∧
          Tab.get 0 u.boot.keySeq 1 = Tab.get 0 s.boot.keySeq 1) ∧
        (Tab.get 0 s.boot.keySeq 1 < Tab.get 0 s.boot.keySeq 0 → Tab.get 0 u.boot.keySeq 1 = q + 1 ∧
          Tab.get 0 u.boot.keySeq 0 = Tab.get 0 s.boot.keySeq 0) ∧
        bit (u.rd PS_KEY_CTL PS_KEY_CTL_VALID) 0 = true ∧ s.Raised u srcKey EV_KEY_IMPORT [0]))

/-- For every command c and state s, the step of s with c at the front of its queue is exec of c on s with the queue's
rest; on an empty queue the step is one cycle of the chip's clock, which leaves the queue empty, never puts chip time
back, and advances it by 2.5 ns while no rate or phase adjustment is in progress (the idle step is the model's choice,
log 1). (00_scope.md, 15_ethernet_time.md#R408) -/
def Obligations.StepRunsTheFrontCommand : Prop :=
  (∀ (c : Instr) (rest : List Instr) (s : State),
    step { s with pending := c :: rest } = exec c { s with pending := rest }) ∧
  (∀ s : State, s.pending = [] → ∃ u, step s = .next u ∧ u.pending = [] ∧ s.now ≤ u.now ∧
    (s.reg CT_TIME_RATE = 0#32 → s.eth.rateAcc = 0 → s.eth.phase = 0 → u.now = s.now + 2500) ∧
    ∀ p, p ≠ Part.regs_ → p ≠ .eth_ → p ≠ .lost_ → p.same s u)

/-- At reset the invariant of the model holds, no command waits, chip time is 0, memory lists nothing, no event waits,
every grain's inbox is empty, and the registers whose reset value the spec states hold it: the sweep is off, LTROLL is
600, SLEW is 100, both LT_MAP words are all ones, and the default event rates and bursts are the table's first and
last. (00_scope.md, 16_ledger.md, 15_ethernet_time.md) -/
def Obligations.ResetIsSound : Prop :=
  State.reset.Inv ∧ State.reset.pending = [] ∧ State.reset.now = 0 ∧ State.reset.mem = [] ∧
    State.reset.led.pile = [] ∧ (∀ src, (State.reset.grain src).inbox = []) ∧
    State.reset.rd AQ_SWP_CTL AQ_SWP_CTL_EN = 0 ∧ State.reset.rd LT_CTL LT_CTL_LTROLL = 600 ∧
    State.reset.rd CT_TIME_CTL CT_TIME_CTL_SLEW = 100 ∧
    State.reset.reg LT_MAP0 = 0xFFFFFFFF#32 ∧
    State.reset.reg LT_MAP1 = 0xFFFFFFFF#32 ∧
    State.reset.rd (LEDGER_SEVR 5) LEDGER_SEVR_RATE = 1000 ∧ State.reset.rd (LEDGER_SEVR 0) LEDGER_SEVR_BURST = 16

/-- For every state s with the invariant (memory and registers in canonical form, at most 8 events stacked per source, at
most 16 descriptors in an inbox), if the step of s answers a next state, the invariant holds there, whatever command
stood at the front of the queue. (16_ledger.md#R420, 06_fabric_memory.md#R166) -/
def Obligations.EveryStepKeepsTheInvariant : Prop :=
  ∀ s u : State, s.Inv → step s = .next u → u.Inv

/-- Every command of the table, on every state, answers a next state; there the queue of waiting commands is as it was,
every OTP bit burnt before is still burnt, the invariant holds if it held before, and every part of the state that is
not in the command's list stands as it was. (17_boot_security.md#R466, 16_ledger.md#R420, 06_fabric_memory.md#R166) -/
def Obligations.EveryCommandCompletesWithinItsParts : Prop :=
  ∀ (c : Instr) (s : State), ∃ u, exec c s = .next u ∧ u.pending = s.pending ∧
    (∀ i, Tab.get false s.boot.otp i = true → Tab.get false u.boot.otp i = true) ∧ (s.Inv → u.Inv) ∧
    ∀ p, p ∉ touches c → p.same s u
end

