-- ==== Sys2Proof/Laws/Tab.lean ====
section
/-!
SUPPORT. The laws of sparse tables: a read after a write, and the canonical form kept by every operation.
-/

set_option Elab.async false

namespace Sys2Proof.Machine

variable {α : Type}

theorem Tab.get_put_same (d : α) (t : Tab α) (k : Nat) (v : α) : Tab.get d (Tab.put t k v) k = v := by
  induction t with
  | nil => simp [Tab.put, Tab.get]
  | cons p t ih =>
    obtain ⟨j, w⟩ := p
    simp only [Tab.put]
    split
    · simp [Tab.get]
    · split
      · simp [Tab.get]
      · have : ¬ j = k := fun e => ‹¬ k = j› e.symm
        simp [Tab.get, this, ih]

theorem Tab.get_put_ne (d : α) (t : Tab α) {k i : Nat} (v : α) (h : i ≠ k) :
    Tab.get d (Tab.put t k v) i = Tab.get d t i := by
  have h' : ¬ k = i := fun e => h e.symm
  induction t with
  | nil => simp [Tab.put, Tab.get, h']
  | cons p t ih =>
    obtain ⟨j, w⟩ := p
    simp only [Tab.put]
    split
    · simp [Tab.get, h']
    · split
      · subst_vars
        simp [Tab.get, h']
      · simp [Tab.get, ih]

theorem Tab.get_drop_same (d : α) (t : Tab α) (k : Nat) : Tab.get d (Tab.drop t k) k = d := by
  induction t with
  | nil => rfl
  | cons p t ih =>
    obtain ⟨j, w⟩ := p
    simp only [Tab.drop]
    split
    · exact ih
    · simp [Tab.get, ‹¬ j = k›, ih]

theorem Tab.get_drop_ne (d : α) (t : Tab α) {k i : Nat} (h : i ≠ k) : Tab.get d (Tab.drop t k) i = Tab.get d t i := by
  induction t with
  | nil => rfl
  | cons p t ih =>
    obtain ⟨j, w⟩ := p
    simp only [Tab.drop]
    split
    · have : ¬ j = i := fun e => h (by omega)
      simp [Tab.get, this, ih]
    · simp [Tab.get, ih]

/-- A key reads as what was written to it. -/
@[simp] theorem Tab.get_set_same [DecidableEq α] (d : α) (t : Tab α) (k : Nat) (v : α) :
    Tab.get d (Tab.set d t k v) k = v := by
  unfold Tab.set
  split
  · subst_vars; exact Tab.get_drop_same _ t k
  · exact Tab.get_put_same d t k v

/-- A write leaves every other key alone, whatever each key reads as where it is not listed. -/
theorem Tab.get_set_ne [DecidableEq α] (d e : α) (t : Tab α) {k i : Nat} (v : α) (h : i ≠ k) :
    Tab.get d (Tab.set e t k v) i = Tab.get d t i := by
  unfold Tab.set
  split
  · exact Tab.get_drop_ne d t h
  · exact Tab.get_put_ne d t v h

/-- A read after a write, in one equation. -/
theorem Tab.get_set [DecidableEq α] (d : α) (t : Tab α) (k i : Nat) (v : α) :
    Tab.get d (Tab.set d t k v) i = if i = k then v else Tab.get d t i := by
  split
  · subst_vars; exact Tab.get_set_same d t _ v
  · exact Tab.get_set_ne d d t v ‹_›

/-! ## The canonical form -/

/-- Rising keys stay so above any lower bound. -/
theorem Tab.sortedFrom_weaken {n m : Nat} {t : Tab α} (hnm : n ≤ m) (h : Tab.sortedFrom (some m) t = true) :
    Tab.sortedFrom (some n) t = true := by
  cases t with
  | nil => rfl
  | cons p t =>
    obtain ⟨j, w⟩ := p
    simp only [Tab.sortedFrom, Bool.and_eq_true, decide_eq_true_eq] at h ⊢
    exact ⟨Nat.lt_of_le_of_lt hnm h.1, h.2⟩

theorem Tab.sortedFrom_none {n : Nat} {t : Tab α} (h : Tab.sortedFrom (some n) t = true) : Tab.sortedFrom none t = true := by
  cases t with
  | nil => rfl
  | cons p t =>
    obtain ⟨j, w⟩ := p
    simp only [Tab.sortedFrom, Bool.and_eq_true] at h ⊢
    exact h.2

theorem Tab.sortedFrom_put (k : Nat) (v : α) (t : Tab α) :
    ∀ n, n < k → Tab.sortedFrom (some n) t = true → Tab.sortedFrom (some n) (Tab.put t k v) = true := by
  induction t with
  | nil => intro n hn _; simp [Tab.put, Tab.sortedFrom, hn]
  | cons p t ih =>
    obtain ⟨j, w⟩ := p
    intro n hn h
    simp only [Tab.sortedFrom, Bool.and_eq_true, decide_eq_true_eq] at h
    simp only [Tab.put]
    split
    · simp [Tab.sortedFrom, *]
    · split
      · subst_vars; simp [Tab.sortedFrom, hn, h.2]
      · simp only [Tab.sortedFrom, Bool.and_eq_true, decide_eq_true_eq]
        exact ⟨h.1, ih j (by omega) h.2⟩

theorem Tab.sortedFrom_drop (k : Nat) (t : Tab α) :
    ∀ n, Tab.sortedFrom (some n) t = true → Tab.sortedFrom (some n) (Tab.drop t k) = true := by
  induction t with
  | nil => intro n _; rfl
  | cons p t ih =>
    obtain ⟨j, w⟩ := p
    intro n h
    simp only [Tab.sortedFrom, Bool.and_eq_true, decide_eq_true_eq] at h
    simp only [Tab.drop]
    split
    · exact Tab.sortedFrom_weaken (Nat.le_of_lt h.1) (ih j h.2)
    · simp only [Tab.sortedFrom, Bool.and_eq_true, decide_eq_true_eq]
      exact ⟨h.1, ih j h.2⟩

theorem Tab.sortedFrom_filter (f : Nat × α → Bool) (t : Tab α) :
    ∀ n, Tab.sortedFrom (some n) t = true → Tab.sortedFrom (some n) (t.filter f) = true := by
  induction t with
  | nil => intro n _; rfl
  | cons p t ih =>
    obtain ⟨j, w⟩ := p
    intro n h
    simp only [Tab.sortedFrom, Bool.and_eq_true, decide_eq_true_eq] at h
    simp only [List.filter]
    split
    · simp only [Tab.sortedFrom, Bool.and_eq_true, decide_eq_true_eq]
      exact ⟨h.1, ih j h.2⟩
    · exact Tab.sortedFrom_weaken (Nat.le_of_lt h.1) (ih j h.2)

theorem Tab.mem_put {t : Tab α} {k : Nat} {v : α} {p : Nat × α} (h : p ∈ Tab.put t k v) : p = (k, v) ∨ p ∈ t := by
  induction t with
  | nil => simpa [Tab.put] using h
  | cons q t ih =>
    obtain ⟨j, w⟩ := q
    simp only [Tab.put] at h
    split at h
    · simpa using h
    · split at h
      · rcases List.mem_cons.1 h with h | h
        · exact .inl h
        · exact .inr (List.mem_cons_of_mem _ h)
      · rcases List.mem_cons.1 h with h | h
        · exact .inr (h ▸ List.mem_cons_self)
        · exact (ih h).imp id (List.mem_cons_of_mem _)

theorem Tab.mem_drop {t : Tab α} {k : Nat} {p : Nat × α} (h : p ∈ Tab.drop t k) : p ∈ t := by
  induction t with
  | nil => exact h
  | cons q t ih =>
    obtain ⟨j, w⟩ := q
    simp only [Tab.drop] at h
    split at h
    · exact List.mem_cons_of_mem _ (ih h)
    · rcases List.mem_cons.1 h with h | h
      · exact h ▸ List.mem_cons_self
      · exact List.mem_cons_of_mem _ (ih h)

theorem Tab.sortedFrom_none_put (k : Nat) (v : α) (t : Tab α) (h : Tab.sortedFrom none t = true) :
    Tab.sortedFrom none (Tab.put t k v) = true := by
  cases t with
  | nil => rfl
  | cons p t =>
    obtain ⟨j, w⟩ := p
    simp only [Tab.sortedFrom] at h
    simp only [Tab.put]
    split
    · simp [Tab.sortedFrom, *]
    · split
      · subst_vars; simpa [Tab.sortedFrom] using h
      · simp only [Tab.sortedFrom]
        exact Tab.sortedFrom_put k v t j (by omega) h

theorem Tab.sortedFrom_none_drop (k : Nat) (t : Tab α) (h : Tab.sortedFrom none t = true) :
    Tab.sortedFrom none (Tab.drop t k) = true := by
  cases t with
  | nil => rfl
  | cons p t =>
    obtain ⟨j, w⟩ := p
    simp only [Tab.sortedFrom] at h
    simp only [Tab.drop]
    split
    · exact Tab.sortedFrom_none (Tab.sortedFrom_drop k t j h)
    · simp only [Tab.sortedFrom]
      exact Tab.sortedFrom_drop k t j h

/-- A write keeps the canonical form: writing what an unlisted key reads as takes the entry out. -/
theorem Tab.wf_set [DecidableEq α] (d : Nat → α) (t : Tab α) (k : Nat) (v : α) (h : Tab.wf d t = true) :
    Tab.wf d (Tab.set (d k) t k v) = true := by
  simp only [Tab.wf, Bool.and_eq_true, List.all_eq_true, decide_eq_true_eq] at h ⊢
  unfold Tab.set
  split
  · exact ⟨Tab.sortedFrom_none_drop k t h.1, fun p hp => h.2 p (Tab.mem_drop hp)⟩
  · refine ⟨Tab.sortedFrom_none_put k v t h.1, fun p hp => ?_⟩
    rcases Tab.mem_put hp with rfl | hp
    · assumption
    · exact h.2 p hp

/-- Entries taken out keep the canonical form. -/
theorem Tab.wf_filter [DecidableEq α] (d : Nat → α) (f : Nat × α → Bool) (t : Tab α) (h : Tab.wf d t = true) :
    Tab.wf d (t.filter f) = true := by
  simp only [Tab.wf, Bool.and_eq_true, List.all_eq_true, decide_eq_true_eq] at h ⊢
  refine ⟨?_, fun p hp => h.2 p (List.mem_filter.1 hp).1⟩
  have key : ∀ t : Tab α, Tab.sortedFrom none t = true → Tab.sortedFrom none (t.filter f) = true := by
    intro t
    cases t with
    | nil => exact id
    | cons p t =>
      obtain ⟨j, w⟩ := p
      intro h
      simp only [List.filter]
      split
      · exact Tab.sortedFrom_filter f t j h
      · exact Tab.sortedFrom_none (Tab.sortedFrom_filter f t j h)
  exact key t h.1

/-- A key of a table of which only some keys are kept. -/
theorem Tab.get_filter_key (d : α) (f : Nat → Bool) (t : Tab α) (k : Nat) :
    Tab.get d (t.filter (fun p => f p.1)) k = if f k then Tab.get d t k else d := by
  induction t with
  | nil => simp [Tab.get]
  | cons p t ih =>
    obtain ⟨j, w⟩ := p
    by_cases hj : f j <;> by_cases h : j = k
    · subst h; simp [Tab.get, hj]
    · simp [Tab.get, hj, h, ih]
    · subst h; simp [hj, ih]
    · simp [Tab.get, hj, h, ih]

end Sys2Proof.Machine
end

