-- ==== Sys2Proof/Laws/Kept.lean ====
section
/-!
SUPPORT. What every operation of the machine keeps: said here of the updates of fields and of the operations that touch a
tracked field, and in Laws/Kept/ of every other operation, by the operations it is built of.
-/

set_option Elab.async false
set_option linter.unusedTactic false
set_option linter.unreachableTactic false

namespace Sys2Proof.Machine

/-- A part that an operation may change. -/
class May (P : Part → Prop) (x : Part) : Prop where
  may : P x

/-- From one state to another OTP only goes forward, the waiting commands stand, a sound state stays sound, and only the
parts in `P` change. -/
structure Kept (P : Part → Prop) (s0 s : State) : Prop where
  on : State.Onward s0 s
  inv : s0.Inv → s.Inv
  same : ∀ x, ¬ P x → x.same s0 s

/-- The same of an outcome that is a next state. -/
structure KeptO (P : Part → Prop) (s0 : State) (o : Host.Outcome State Fault Refusal) : Prop where
  next : ∀ t, o = .next t → Kept P s0 t

variable {P : Part → Prop}

theorem Part.same_refl (x : Part) (s : State) : x.same s s := by
  cases x
  case regs_ => exact fun _ _ _ => rfl
  case lost_ => exact ⟨rfl, rfl⟩
  case grains_ => exact fun _ => rfl
  case inbox_ => exact fun _ => rfl
  all_goals rfl

theorem Kept.refl (s : State) : Kept P s s := ⟨⟨rfl, fun _ h => h⟩, id, fun x _ => x.same_refl s⟩

theorem KeptO.of_next {s0 s : State} (k : Kept P s0 s) : KeptO P s0 (.next s) := ⟨fun t h => by cases h; exact k⟩

/-- The parts that stand through one more update. -/
theorem Kept.parts {s0 s t : State} (k : Kept P s0 s) (h : ∀ x, ¬ P x → x.same s t) : ∀ x, ¬ P x → x.same s0 t := by
  intro x hx
  have h1 := k.same x hx
  have h2 := h x hx
  cases x
  case regs_ => exact fun a e c => (h2 a e c).trans (h1 a e c)
  case lost_ => exact ⟨h2.1.trans h1.1, h2.2.trans h1.2⟩
  case grains_ => exact fun src => (h2 src).trans (h1 src)
  case inbox_ => exact fun src => (h2 src).trans (h1 src)
  all_goals exact h2.trans h1

/-- An update of fields that are not tracked. -/
theorem Kept.mk' {s0 s : State} {z0 z1 z2 z3 z4 z5 z6 z7 z8 z9 z10 z11 z12 z13 z14 z15 z16 z17 z18 z19 z20 z21}
    (h0 : z0 = s.pending) (h3 : z3 = s.regs) (h4 : z4 = s.mem) (h6 : z6 = s.grains)
    (h7 : z7.pile = s.led.pile) (h11 : z11.otp = s.boot.otp) (k : Kept P s0 s)
    (hz2 : z2 = s.fresh ∨ P .fresh_ := by first | exact .inr May.may | exact .inl rfl)
    (hz5 : z5 = s.fab ∨ P .fab_ := by first | exact .inr May.may | exact .inl rfl)
    (hz7 : z7 = s.led ∨ P .led_ := by first | exact .inr May.may | exact .inl rfl)
    (hz8 : z8 = s.lnk ∨ P .lnk_ := by first | exact .inr May.may | exact .inl rfl)
    (hz9 : z9 = s.swp ∨ P .swp_ := by first | exact .inr May.may | exact .inl rfl)
    (hz10 : z10 = s.trip ∨ P .trip_ := by first | exact .inr May.may | exact .inl rfl)
    (hz11 : z11 = s.boot ∨ P .boot_ := by first | exact .inr May.may | exact .inl rfl)
    (hz12 : z12 = s.gate ∨ P .gate_ := by first | exact .inr May.may | exact .inl rfl)
    (hz13 : z13 = s.regu ∨ P .regu_ := by first | exact .inr May.may | exact .inl rfl)
    (hz14 : z14 = s.out ∨ P .out_ := by first | exact .inr May.may | exact .inl rfl)
    (hz15 : z15 = s.cur ∨ P .cur_ := by first | exact .inr May.may | exact .inl rfl)
    (hz16 : z16 = s.sf ∨ P .sf_ := by first | exact .inr May.may | exact .inl rfl)
    (hz17 : z17 = s.can ∨ P .can_ := by first | exact .inr May.may | exact .inl rfl)
    (hz18 : z18 = s.eth ∨ P .eth_ := by first | exact .inr May.may | exact .inl rfl)
    (hz19 : z19 = s.sv ∨ P .sv_ := by first | exact .inr May.may | exact .inl rfl)
    (hz20 : z20 = s.corr ∨ P .corr_ := by first | exact .inr May.may | exact .inl rfl)
    (hz21 : z21 = s.est ∨ P .est_ := by first | exact .inr May.may | exact .inl rfl) :
    Kept P s0 (State.mk z0 z1 z2 z3 z4 z5 z6 z7 z8 z9 z10 z11 z12 z13 z14 z15 z16 z17 z18 z19 z20 z21) := by
  refine ⟨⟨h0.trans k.on.pending, fun i h => ?_⟩, fun i0 => ?_, k.parts ?_⟩
  · show Tab.get false z11.otp i = true
    rw [h11]; exact k.on.otp i h
  · have i := k.inv i0
    subst h3 h4 h6
    refine ⟨i.mem, i.regs, fun src => ?_, i.inbox⟩
    show (Tab.get [] z7.pile src).length ≤ 8
    rw [h7]; exact i.pile src
  · intro x hx
    cases x
    case fresh_ => exact hz2.resolve_right hx
    case regs_ => exact fun a _ _ => by unfold State.reg; rw [h3]
    case lost_ => exact ⟨by unfold State.reg; rw [h3], by unfold State.reg; rw [h3]⟩
    case mem_ => exact h4
    case fab_ => exact hz5.resolve_right hx
    case grains_ => exact fun src => by unfold State.grain; rw [h6]
    case inbox_ => exact fun src => by unfold State.grain; rw [h6]
    case led_ => exact hz7.resolve_right hx
    case lnk_ => exact hz8.resolve_right hx
    case swp_ => exact hz9.resolve_right hx
    case trip_ => exact hz10.resolve_right hx
    case boot_ => exact hz11.resolve_right hx
    case gate_ => exact hz12.resolve_right hx
    case regu_ => exact hz13.resolve_right hx
    case out_ => exact hz14.resolve_right hx
    case cur_ => exact hz15.resolve_right hx
    case sf_ => exact hz16.resolve_right hx
    case can_ => exact hz17.resolve_right hx
    case eth_ => exact hz18.resolve_right hx
    case sv_ => exact hz19.resolve_right hx
    case corr_ => exact hz20.resolve_right hx
    case est_ => exact hz21.resolve_right hx

theorem Kept.ite {s0 a b : State} {c : Prop} [Decidable c] (ha : Kept P s0 a) (hb : Kept P s0 b) :
    Kept P s0 (if c then a else b) := by
  split <;> assumption

theorem KeptO.ite {s0 : State} {a b : Host.Outcome State Fault Refusal} {c : Prop} [Decidable c] (ha : KeptO P s0 a)
    (hb : KeptO P s0 b) : KeptO P s0 (if c then a else b) := by
  split <;> assumption

theorem Kept.of_snd {α : Type} {s0 s : State} {e : α × State} {x : α} (h : e = (x, s)) (k : Kept P s0 e.2) :
    Kept P s0 s := by
  subst h; exact k

theorem Kept.of_fst {α : Type} {s0 s : State} {e : State × α} {x : α} (h : e = (s, x)) (k : Kept P s0 e.1) :
    Kept P s0 s := by
  subst h; exact k

/-- A fold of kept steps. -/
theorem Kept.foldl {α : Type} {s0 s : State} {f : State → α → State} {l : List α}
    (hf : ∀ s x, Kept P s0 s → Kept P s0 (f s x)) (k : Kept P s0 s) : Kept P s0 (l.foldl f s) := by
  induction l generalizing s with
  | nil => exact k
  | cons x l ih => exact ih (hf s x k)

theorem Kept.foldr {α : Type} {s0 s : State} {f : α → State → State} {l : List α}
    (hf : ∀ s x, Kept P s0 s → Kept P s0 (f x s)) (k : Kept P s0 s) : Kept P s0 (l.foldr f s) := by
  induction l with
  | nil => exact k
  | cons x l ih => exact hf _ x ih

theorem State.reg_setReg_ne (s : State) {a i : Nat} (w : Word) (h : i ≠ a) : (s.setReg a w).reg i = s.reg i :=
  Tab.get_set_ne (regReset i) (regReset a) s.regs w h

theorem State.grain_setGrain (s : State) (src x : Nat) (g : Grain) :
    (s.setGrain src g).grain x = if x = src then g else s.grain x := by
  unfold State.grain State.setGrain
  exact Tab.get_set _ _ _ _ _

/-- The parts that an update of other fields leaves alone. -/
theorem Part.same_of {s t : State} (h3 : t.regs = s.regs) (h6 : t.grains = s.grains)
    (h : ∀ x, x ≠ .regs_ → x ≠ .lost_ → x ≠ .grains_ → x ≠ .inbox_ → ¬ P x → x.same s t) : ∀ x, ¬ P x → x.same s t := by
  intro x hx
  cases x
  case regs_ => exact fun a _ _ => by unfold State.reg; rw [h3]
  case lost_ => exact ⟨by unfold State.reg; rw [h3], by unfold State.reg; rw [h3]⟩
  case grains_ => exact fun src => by unfold State.grain; rw [h6]
  case inbox_ => exact fun src => by unfold State.grain; rw [h6]
  all_goals exact h _ (by decide) (by decide) (by decide) (by decide) hx

theorem State.at_kept {s0 s : State} {t : Nat} (hk : Kept P s0 s) : Kept P s0 (s.at t) :=
  ⟨⟨hk.on.pending, hk.on.otp⟩, fun i => ⟨(hk.inv i).mem, (hk.inv i).regs, (hk.inv i).pile, (hk.inv i).inbox⟩,
    hk.parts (Part.same_of rfl rfl (fun x h1 h2 h3 h4 _ => by cases x <;> first | rfl | contradiction))⟩

/-- A register of lost events written. -/
theorem State.setLost_kept {s0 s : State} {a : Nat} {w : Word} [May P .lost_] (ha : a = LEDGER_EVT ∨ a = LEDGER_CNT)
    (hk : Kept P s0 s) : Kept P s0 (s.setReg a w) := by
  refine ⟨⟨hk.on.pending, hk.on.otp⟩,
    fun i => ⟨(hk.inv i).mem, Tab.wf_set regReset s.regs a w (hk.inv i).regs, (hk.inv i).pile, (hk.inv i).inbox⟩,
    hk.parts (fun x hx => ?_)⟩
  cases x
  case regs_ => exact fun i h1 h2 => s.reg_setReg_ne w (by rintro rfl; exact ha.elim h1 h2)
  case lost_ => exact absurd May.may hx
  case grains_ => exact fun _ => rfl
  case inbox_ => exact fun _ => rfl
  all_goals rfl

theorem State.setReg_kept {s0 s : State} {a : Nat} {w : Word} [May P .regs_] [May P .lost_] (hk : Kept P s0 s) :
    Kept P s0 (s.setReg a w) := by
  refine ⟨⟨hk.on.pending, hk.on.otp⟩,
    fun i => ⟨(hk.inv i).mem, Tab.wf_set regReset s.regs a w (hk.inv i).regs, (hk.inv i).pile, (hk.inv i).inbox⟩,
    hk.parts (fun x hx => ?_)⟩
  cases x
  case regs_ => exact absurd May.may hx
  case lost_ => exact absurd May.may hx
  case grains_ => exact fun _ => rfl
  case inbox_ => exact fun _ => rfl
  all_goals rfl

theorem State.setByte_kept {s0 s : State} {a : Nat} {b : Byte} [May P .mem_] [May P .fab_] (hk : Kept P s0 s) :
    Kept P s0 (s.setByte a b) :=
  ⟨⟨hk.on.pending, hk.on.otp⟩,
    fun i => ⟨Tab.wf_set memDefault s.mem a b (hk.inv i).mem, (hk.inv i).regs, (hk.inv i).pile, (hk.inv i).inbox⟩,
    hk.parts (Part.same_of rfl rfl (fun x h1 h2 h3 h4 h => by
      cases x <;> first | rfl | contradiction | exact absurd May.may h))⟩

theorem State.setGrain_kept {s0 s : State} {src : Nat} {g : Grain} [May P .grains_] [May P .inbox_]
    (h : s.Inv → g.inbox.length ≤ 16) (hk : Kept P s0 s) : Kept P s0 (s.setGrain src g) := by
  refine ⟨⟨hk.on.pending, hk.on.otp⟩, fun i0 => ?_, hk.parts (fun x hx => ?_)⟩
  · have i := hk.inv i0
    refine ⟨i.mem, i.regs, i.pile, fun x => ?_⟩
    rw [State.grain_setGrain]
    split
    · exact h i
    · exact i.inbox x
  · cases x
    case regs_ => exact fun _ _ _ => rfl
    case lost_ => exact ⟨rfl, rfl⟩
    case grains_ => exact absurd May.may hx
    case inbox_ => exact absurd May.may hx
    all_goals rfl

/-- A change of a grain that leaves its inbox alone. -/
theorem State.updGrain_kept {s0 s : State} {src : Nat} {f : Grain → Grain} [May P .grains_]
    (h : ∀ g, (f g).inbox = g.inbox) (hk : Kept P s0 s) : Kept P s0 (s.updGrain src f) := by
  refine ⟨⟨hk.on.pending, hk.on.otp⟩, fun i0 => ?_, hk.parts (fun x hx => ?_)⟩
  · have i := hk.inv i0
    refine ⟨i.mem, i.regs, i.pile, fun x => ?_⟩
    show ((s.setGrain src (f (s.grain src))).grain x).inbox.length ≤ 16
    rw [State.grain_setGrain]
    split
    · rw [h]; exact i.inbox src
    · exact i.inbox x
  · cases x
    case regs_ => exact fun _ _ _ => rfl
    case lost_ => exact ⟨rfl, rfl⟩
    case grains_ => exact absurd May.may hx
    case inbox_ =>
      intro x
      show ((s.setGrain src (f (s.grain src))).grain x).inbox = _
      rw [State.grain_setGrain]
      split
      · subst_vars; exact h _
      · rfl
    all_goals rfl

/-- A change of a grain that adds nothing to its inbox. -/
theorem State.shrinkGrain_kept {s0 s : State} {src : Nat} {f : Grain → Grain} [May P .grains_] [May P .inbox_]
    (h : ∀ g, (f g).inbox.length ≤ g.inbox.length) (hk : Kept P s0 s) : Kept P s0 (s.updGrain src f) :=
  State.setGrain_kept (fun i => Nat.le_trans (h _) (i.inbox src)) hk

theorem evictOldest_length {v : Nat} {st st' : List EvRec} (h : evictOldest v st = some st') :
    st'.length + 1 = st.length := by
  induction st generalizing st' with
  | nil => cases h
  | cons e es ih =>
    simp only [evictOldest] at h
    split at h
    · cases h; rfl
    · split at h
      · cases h
      · cases h; simp [ih ‹_›]

/-- A stack of events holds at most 8 (R420). -/
theorem pushEvent_length {e : EvRec} {st st' : List EvRec} (h : pushEvent e st = some st') (hs : st.length ≤ 8) :
    st'.length ≤ 8 := by
  unfold pushEvent at h
  split at h
  · cases h; simp; omega
  · split at h
    · cases h
    · have := evictOldest_length ‹_›
      cases h; simp; omega

theorem State.inboxPush_kept {s0 s : State} {dest : Nat} {d : Desc} [May P .inbox_]
    (h : (s.grain dest).inbox.length < 16) (hk : Kept P s0 s) : Kept P s0 (s.inboxPush dest d) := by
  refine ⟨⟨hk.on.pending, hk.on.otp⟩, fun i0 => ?_, hk.parts (fun x hx => ?_)⟩
  · have i := hk.inv i0
    refine ⟨i.mem, i.regs, i.pile, fun x => ?_⟩
    show ((s.setGrain dest _).grain x).inbox.length ≤ 16
    rw [State.grain_setGrain]
    split
    · simp; omega
    · exact i.inbox x
  · cases x
    case regs_ => exact fun _ _ _ => rfl
    case lost_ => exact ⟨rfl, rfl⟩
    case inbox_ => exact absurd May.may hx
    case grains_ =>
      intro x
      show { (s.setGrain dest _).grain x with inbox := [] } = _
      rw [State.grain_setGrain]
      split
      · subst_vars; rfl
      · rfl
    all_goals rfl

end Sys2Proof.Machine
end

