-- ==== Sys2Proof/Laws/Memory.lean ====
section
/-!
SUPPORT. The laws of memory: a byte reads as it was written last, every other byte stands, the canonical form is kept, and
what a store of `n` bytes leaves.
-/

set_option Elab.async false

namespace Sys2Proof.Machine

/-! ## One byte -/

theorem State.byte_setByte (s : State) (a x : Nat) (b : Byte) :
    (s.setByte a b).byte x = if x = a then b else s.byte x := by
  unfold State.setByte State.byte
  dsimp only
  split
  · next h => rw [h, Tab.get_set_same]
  · next h => exact Tab.get_set_ne _ _ _ _ h

@[simp] theorem State.byte_setByte_same (s : State) (a : Nat) (b : Byte) : (s.setByte a b).byte a = b := by
  rw [State.byte_setByte, if_pos rfl]

theorem State.byte_setByte_ne (s : State) {a x : Nat} (b : Byte) (h : x ≠ a) : (s.setByte a b).byte x = s.byte x := by
  rw [State.byte_setByte, if_neg h]

theorem State.wf_setByte (s : State) (a : Nat) (b : Byte) (h : Memory.wf s.mem = true) : Memory.wf (s.setByte a b).mem = true :=
  Tab.wf_set _ _ _ _ h

/-! ## Several bytes -/

theorem State.wf_storeLE (s : State) (a n v : Nat) (h : Memory.wf s.mem = true) : Memory.wf (s.storeLE a n v).mem = true := by
  induction n generalizing s a v with
  | zero => exact h
  | succ n ih => exact ih _ _ _ (s.wf_setByte _ _ h)

theorem State.wf_storeBytes (s : State) (a : Nat) (l : List Nat) (h : Memory.wf s.mem = true) :
    Memory.wf (s.storeBytes a l).mem = true := by
  induction l generalizing s a with
  | nil => exact h
  | cons b l ih => exact ih _ _ (s.wf_setByte _ _ h)

/-- A store leaves its bytes, least significant first, and every other byte as it was. -/
theorem State.byte_storeLE (s : State) (p n v x : Nat) :
    (s.storeLE p n v).byte x = if p ≤ x ∧ x < p + n then BitVec.ofNat 8 (v / 2 ^ (8 * (x - p))) else s.byte x := by
  induction n generalizing s p v with
  | zero => rw [if_neg (by omega)]; rfl
  | succ n ih =>
    show ((s.setByte p _).storeLE (p + 1) n (v / 256)).byte x = _
    rw [ih, State.byte_setByte]
    by_cases hx : x = p
    · subst hx
      rw [if_neg (by omega), if_pos rfl, if_pos (by omega), Nat.sub_self]
      simp
    · by_cases h : p + 1 ≤ x ∧ x < p + 1 + n
      · rw [if_pos h, if_pos (by omega), Nat.div_div_eq_div_mul, show 8 * (x - p) = 8 + 8 * (x - (p + 1)) by omega, Nat.pow_add]
      · rw [if_neg h, if_neg hx, if_neg (by omega)]

/-- Bytes poisoned before are mended by a store, and nothing else of the fabric changes. -/
theorem Fabric.mend_eq (f : Fabric) (a : Nat) : ∃ po me, f.mend a = { f with poison := po, mended := me } := by
  unfold Fabric.mend
  dsimp only
  split
  · split
    · exact ⟨_, _, rfl⟩
    · exact ⟨f.poison, _, rfl⟩
  · exact ⟨f.poison, f.mended, rfl⟩

/-- A store changes memory, and the fabric's poison. -/
theorem State.storeLE_eq (s : State) (p n v : Nat) : ∃ me po m,
    s.storeLE p n v = { s with mem := me, fab := { s.fab with poison := po, mended := m } } := by
  induction n generalizing s p v with
  | zero => exact ⟨s.mem, s.fab.poison, s.fab.mended, rfl⟩
  | succ n ih =>
    obtain ⟨me, po, m, h⟩ := ih (s.setByte p (BitVec.ofNat 8 v)) (p + 1) (v / 256)
    obtain ⟨po', m', h'⟩ := Fabric.mend_eq s.fab p
    refine ⟨me, po, m, ?_⟩
    show (s.setByte p _).storeLE (p + 1) n (v / 256) = _
    rw [h]
    unfold State.setByte
    rw [h']

/-! ## Loads -/

theorem State.loadLE_one (s : State) (p : Nat) : s.loadLE p 1 = (s.byte p).toNat := by
  simp [State.loadLE]

theorem toNat_two (x y : Byte) : (x ++ y).toNat = y.toNat + 2 ^ 8 * x.toNat := by
  have h := y.isLt
  rw [BitVec.toNat_append, ← Nat.shiftLeft_add_eq_or_of_lt h, Nat.shiftLeft_eq]
  omega

theorem toNat_four (w x y z : Byte) :
    (w ++ x ++ (y ++ z)).toNat = z.toNat + 2 ^ 8 * y.toNat + 2 ^ 16 * x.toNat + 2 ^ 24 * w.toNat := by
  have h := (y ++ z).isLt
  rw [BitVec.toNat_append, ← Nat.shiftLeft_add_eq_or_of_lt h, Nat.shiftLeft_eq, toNat_two, toNat_two]
  omega

theorem State.loadLE_two (s : State) (p : Nat) : s.loadLE p 2 = (s.byte (p + 1) ++ s.byte p).toNat := by
  rw [toNat_two]
  simp [State.loadLE]

theorem State.loadLE_four (s : State) (p : Nat) :
    s.loadLE p 4 = (s.byte (p + 3) ++ s.byte (p + 2) ++ (s.byte (p + 1) ++ s.byte p)).toNat := by
  rw [toNat_four]
  simp [State.loadLE]

theorem State.loadLE_eight (s : State) (p : Nat) :
    s.loadLE p 8 = s.loadLE p 4 + 2 ^ 32 * s.loadLE (p + 4) 4 := by
  simp only [State.loadLE, Nat.add_assoc, Nat.reduceAdd, Nat.add_zero]
  omega

theorem toNat_join (x y : Word) : (x ++ y).toNat = y.toNat + 2 ^ 32 * x.toNat := by
  have h := y.isLt
  rw [BitVec.toNat_append, ← Nat.shiftLeft_add_eq_or_of_lt h, Nat.shiftLeft_eq]
  omega

theorem State.dword_loadLE (s : State) (p : Nat) :
    BitVec.ofNat 64 (s.loadLE p 8) = (s.byte (p + 7) ++ s.byte (p + 6) ++ (s.byte (p + 5) ++ s.byte (p + 4)) ++
      (s.byte (p + 3) ++ s.byte (p + 2) ++ (s.byte (p + 1) ++ s.byte p)) : Dword) := by
  rw [State.loadLE_eight, State.loadLE_four, State.loadLE_four]
  apply BitVec.eq_of_toNat_eq
  have e := toNat_join (s.byte (p + 7) ++ s.byte (p + 6) ++ (s.byte (p + 5) ++ s.byte (p + 4)))
    (s.byte (p + 3) ++ s.byte (p + 2) ++ (s.byte (p + 1) ++ s.byte p))
  exact (Nat.mod_eq_of_lt (by rw [← e]; exact BitVec.isLt _)).trans e.symm

/-- Time and the grains do not enter a read of memory. -/
theorem State.loadLE_congr {s u : State} (h : u.mem = s.mem) (p n : Nat) : u.loadLE p n = s.loadLE p n := by
  induction n with
  | zero => rfl
  | succ n ih =>
    unfold State.loadLE State.byte
    rw [ih, h]

end Sys2Proof.Machine
end

