-- ==== Sys2Proof/Laws/Word.lean ====
section
/-!
SUPPORT. Signed readings of bit vectors: the model's `sext` and `wrapInt` in terms of bit-vector operations.
-/

set_option Elab.async false

namespace Sys2Proof

theorem sext_toNat {w : Nat} (x : BitVec w) (hw : 0 < w) : sext x.toNat w = x.toInt := by
  obtain ⟨k, rfl⟩ : ∃ k, w = k + 1 := ⟨w - 1, by omega⟩
  have h := x.isLt
  unfold sext
  dsimp only
  rw [Nat.mod_eq_of_lt h, BitVec.toInt_eq_toNat_cond, Nat.add_sub_cancel]
  rw [Nat.pow_succ] at *
  split <;> split <;> omega

theorem ofInt_sext {w : Nat} (x : BitVec w) (hw : 0 < w) : BitVec.ofInt 32 (sext x.toNat w) = x.signExtend 32 := by
  rw [sext_toNat x hw]
  rfl

theorem ofNat_wrapInt (i : Int) : BitVec.ofNat 32 (wrapInt i 32) = BitVec.ofInt 32 i := by
  apply BitVec.eq_of_toNat_eq
  unfold wrapInt
  rw [BitVec.toNat_ofNat, BitVec.toNat_ofInt, Nat.mod_eq_of_lt]
  omega

theorem wrapInt_eq (i : Int) : wrapInt i 32 = (BitVec.ofInt 32 i).toNat := by
  unfold wrapInt
  rw [BitVec.toNat_ofInt]

theorem sext_ofNat {n : Nat} (w : Nat) (h : n < 2 ^ w) (hw : 0 < w) : BitVec.ofInt 32 (sext n w) = (BitVec.ofNat w n).signExtend 32 := by
  rw [← ofInt_sext _ hw, BitVec.toNat_ofNat, Nat.mod_eq_of_lt h]

end Sys2Proof
end

