-- ==== Sys2Proof/Laws/Issue.lean ====
section
/-!
SUPPORT. What an instruction of a grain does when it is issued and completes: the updates of its grain one by one, the
retirement, and the issue.
-/

set_option Elab.async false

namespace Sys2Proof.Machine

/-- The source of a grain names it (R167). -/
theorem grainOfSrc_src (g : GrainId) : grainOfSrc g.src = some g := by
  have main : ∀ K i, (K = 1 ∨ K = 2 ∨ K = 3) → i < 64 → g.src = K * 256 + i / 4 * 16 + i % 4 →
      grainOfSrc g.src = match K with
        | 1 => if h : i < 20 then some (.link ⟨i, h⟩) else none
        | 2 => if h : i < 16 then some (.vec ⟨i, h⟩) else none
        | 3 => if h : i < 8 then some (.ctl ⟨i, h⟩) else none
        | _ => none := by
    intro K i hK hi e
    have h1 : g.src % 16 = i % 4 := by omega
    have h2 : g.src / 16 % 16 * 4 + i % 4 = i := by omega
    have h3 : g.src / 256 = K := by omega
    unfold grainOfSrc
    dsimp only
    rw [h1, if_neg (by omega), h3]
    simp only [h2] <;> rfl
  cases g with
  | ctl g => rw [main 3 g (by omega) (by omega) (by simp only [GrainId.src])]; simp
  | vec g => rw [main 2 g (by omega) (by omega) (by simp only [GrainId.src])]; simp
  | link g => rw [main 1 g (by omega) (by omega) (by simp only [GrainId.src])]; simp

theorem State.grain_updGrain_same (s : State) (src : Nat) (f : Grain → Grain) :
    (s.updGrain src f).grain src = f (s.grain src) := by
  show (s.setGrain src _).grain src = _
  rw [State.grain_setGrain, if_pos rfl]

theorem State.grain_updGrain_ne (s : State) {src x : Nat} (f : Grain → Grain) (h : x ≠ src) :
    (s.updGrain src f).grain x = s.grain x := by
  show (s.setGrain src _).grain x = _
  rw [State.grain_setGrain, if_neg h]

theorem State.did_at (s : State) (g : GrainId) (t : Nat) (ps : List Part) : s.Did g t ps id (s.at t) where
  now := rfl
  pending := rfl
  grain := rfl
  others _ _ := rfl
  fab := .inr rfl
  rest p _ := p.same_refl s |> fun h => by cases p <;> exact h

/-- One more update of the grain. -/
theorem State.Did.upd {s u : State} {g : GrainId} {t : Nat} {ps : List Part} {f : Grain → Grain} (h : s.Did g t ps f u)
    (k : Grain → Grain) : s.Did g t ps (fun x => k (f x)) (u.updGrain g.src k) where
  now := h.now
  pending := h.pending
  grain := by rw [State.grain_updGrain_same, h.grain]
  others x hx := by rw [State.grain_updGrain_ne _ _ hx]; exact h.others x hx
  fab := h.fab
  rest p hp := by
    have := h.rest p hp
    cases p <;> first | exact this | simp at hp

/-- The first update of the grain. -/
theorem State.Did.one (s : State) (g : GrainId) (t : Nat) (k : Grain → Grain) :
    s.Did g t [] k ((s.at t).updGrain g.src k) :=
  (s.did_at g t []).upd k

/-- The same change, with more parts named. -/
theorem State.Did.more {s u : State} {g : GrainId} {t : Nat} {ps qs : List Part} {f : Grain → Grain} (h : s.Did g t ps f u)
    (hp : ∀ p ∈ ps, p ∈ qs) : s.Did g t qs f u :=
  ⟨h.now, h.pending, h.grain, h.others, h.fab.imp (hp _) id, fun p hq => h.rest p (by
    simp only [List.mem_cons, not_or] at hq ⊢
    exact ⟨hq.1, hq.2.1, hq.2.2.1, fun k => hq.2.2.2 (hp _ k)⟩)⟩

/-- The fabric changes where it is named. -/
theorem State.Did.setFab {s u : State} {g : GrainId} {t : Nat} {ps : List Part} {f : Grain → Grain} (h : s.Did g t ps f u)
    (hp : Part.fab_ ∈ ps) (k : Fabric) : s.Did g t ps f { u with fab := k } where
  now := h.now
  pending := h.pending
  grain := h.grain
  others := h.others
  fab := .inl hp
  rest p hq := by
    have := h.rest p hq
    cases p <;> first | exact this | simp at hq

/-- The same change, said otherwise. -/
theorem State.Did.as {s u : State} {g : GrainId} {t : Nat} {ps : List Part} {f f' : Grain → Grain} (h : s.Did g t ps f u)
    (e : f (s.grain g.src) = f' (s.grain g.src)) : s.Did g t ps f' u :=
  ⟨h.now, h.pending, h.grain.trans e, h.others, h.fab, h.rest⟩

theorem State.Did.setG {s u : State} {g : GrainId} {t : Nat} {ps : List Part} {f : Grain → Grain} (h : s.Did g t ps f u)
    (n : Nat) (w : Word) : s.Did g t ps (fun x => (f x).put n w) (u.setG g.src n w) := by
  by_cases hn : n = 0
  · have e : ∀ x : Grain, x.put n w = x := fun x => by unfold Grain.put; rw [if_pos hn]
    unfold State.setG
    rw [if_pos hn]
    simp only [e]
    exact h
  · have e : ∀ x : Grain, x.put n w = { x with g := Tab.set 0#32 x.g n w } := fun x => by unfold Grain.put; rw [if_neg hn]
    unfold State.setG
    rw [if_neg hn]
    simp only [e]
    exact h.upd (fun x => { x with g := Tab.set 0#32 x.g n w })

theorem State.Did.setF {s u : State} {g : GrainId} {t : Nat} {ps : List Part} {f : Grain → Grain} (h : s.Did g t ps f u)
    (n : Nat) (d : Dword) : s.Did g t ps (fun x => (f x).putF n d) (u.setF g.src n d) :=
  h.upd (fun x => x.putF n d)

theorem State.Did.setPc {s u : State} {g : GrainId} {t : Nat} {ps : List Part} {f : Grain → Grain} (h : s.Did g t ps f u)
    (a : Nat) : s.Did g t ps (fun x => { f x with pc := BitVec.ofNat 32 a }) (u.setPc g.src a) :=
  h.upd (fun x => { x with pc := BitVec.ofNat 32 a })

/-- A further change that leaves the grains alone. -/
theorem State.Did.andThen {s u v : State} {g : GrainId} {t : Nat} {ps : List Part} {f : Grain → Grain} (h : s.Did g t ps f u)
    (hn : v.now = u.now) (hp : v.pending = u.pending) (hg : v.grains = u.grains)
    (hf : .fab_ ∈ ps ∨ v.fab = { u.fab with pmon := v.fab.pmon })
    (hr : ∀ p, p ∉ Part.grains_ :: .inbox_ :: .fab_ :: ps → p.same u v) : s.Did g t ps f v where
  now := hn.trans h.now
  pending := hp.trans h.pending
  grain := by unfold State.grain; rw [hg]; exact h.grain
  others x hx := by unfold State.grain; rw [hg]; exact h.others x hx
  fab := hf.elim .inl (fun e => h.fab.imp id (fun e' => by
    have : { u.fab with pmon := v.fab.pmon } = { s.fab with pmon := v.fab.pmon } := by rw [e']
    exact e.trans this))
  rest p hq := by
    have h1 := h.rest p hq
    have h2 := hr p hq
    cases p
    case regs_ => exact fun a e c => (h2 a e c).trans (h1 a e c)
    case lost_ => exact ⟨h2.1.trans h1.1, h2.2.trans h1.2⟩
    case grains_ => exact fun src => (h2 src).trans (h1 src)
    case inbox_ => exact fun src => (h2 src).trans (h1 src)
    all_goals exact h2.trans h1

/-- Monitors count and nothing else changes. -/
theorem State.countOne_eq (s : State) (src k n : Nat) :
    ∃ m, s.countOne src k n = { s with fab := { s.fab with pmon := m } } := by
  unfold State.countOne
  split
  · exact ⟨_, rfl⟩
  · exact ⟨s.fab.pmon, rfl⟩

theorem State.count_eq (s : State) (src k : Nat) : ∃ m, s.count src k = { s with fab := { s.fab with pmon := m } } := by
  have fold : ∀ (l : List Nat) (s : State), ∃ m, l.foldl (fun s n => s.countOne src k n) s
      = { s with fab := { s.fab with pmon := m } } := by
    intro l
    induction l with
    | nil => exact fun s => ⟨s.fab.pmon, rfl⟩
    | cons n l ih =>
      intro s
      obtain ⟨m, h⟩ := State.countOne_eq s src k n
      obtain ⟨m', h'⟩ := ih (s.countOne src k n)
      exact ⟨m', by rw [List.foldl_cons, h', h]⟩
  unfold State.count
  split
  · exact fold _ s
  · exact ⟨s.fab.pmon, rfl⟩

theorem State.Did.count {s u : State} {g : GrainId} {t : Nat} {ps : List Part} {f : Grain → Grain} (h : s.Did g t ps f u)
    (src k : Nat) : s.Did g t ps f (u.count src k) := by
  obtain ⟨m, e⟩ := State.count_eq u src k
  rw [e]
  refine ⟨h.now, h.pending, h.grain, h.others, h.fab.imp id (fun h => ?_), fun p hp => ?_⟩
  · show { u.fab with pmon := m } = { s.fab with pmon := m }
    rw [h]
  · have := h.rest p hp
    cases p <;> first | exact this | simp at hp

/-- The instruction retires. -/
theorem State.Did.retired {s u : State} {g : GrainId} {t : Nat} {ps : List Part} {f : Grain → Grain}
    (h : s.Did g t ps f u) : s.Did g t ps (fun x => { f x with retired := Nat.max s.now t }) (u.retired g.src) := by
  have h1 := h.upd (fun x => { x with retired := u.now })
  rw [h.now] at h1
  unfold State.retired
  rw [h.now]
  dsimp only
  split
  · exact h1
  · exact h1.count _ _

/-- The instruction retires, on at another pc. -/
theorem State.Did.goto {s u : State} {g : GrainId} {t : Nat} {ps : List Part} {f : Grain → Grain} (h : s.Did g t ps f u)
    (a : Nat) : s.Did g t ps (fun x => (f x).goto (BitVec.ofNat 32 a) (Nat.max s.now t))
      ((u.setPc g.src a).retired g.src) :=
  (h.setPc a).retired

/-- The instruction retires and the next one follows. -/
theorem State.Did.stepOn {s u : State} {g : GrainId} {t : Nat} {ps : List Part} {f : Grain → Grain}
    (h : s.Did g t ps f u) : s.Did g t ps (fun x => (f x).next (Nat.max s.now t)) (u.stepOn g.src) := by
  refine (h.goto (u.pc g.src + 4)).as ?_
  unfold State.pc Grain.next
  rw [h.grain, BitVec.ofNat_add, BitVec.ofNat_toNat, BitVec.setWidth_eq]

theorem State.updGrain_updGrain (s : State) (src : Nat) (f k : Grain → Grain) :
    ((s.updGrain src f).updGrain src k).grain src = k (f (s.grain src)) := by
  rw [State.grain_updGrain_same, State.grain_updGrain_same]

/-- What completing an instruction changes: its grain, to the next instruction, and the monitors. -/
theorem State.stepOn_eq (s : State) (src : Nat) : ∃ m,
    s.stepOn src = { ((s.setPc src (s.pc src + 4)).updGrain src (fun x => { x with retired := s.now })) with
      fab := { s.fab with pmon := m } } := by
  unfold State.stepOn State.retired
  dsimp only
  split
  · exact ⟨s.fab.pmon, rfl⟩
  · exact State.count_eq _ _ _

/-- The grain that completed an instruction. -/
theorem State.grain_stepOn (s : State) (src : Nat) : (s.stepOn src).grain src = (s.grain src).next s.now := by
  obtain ⟨m, e⟩ := s.stepOn_eq src
  rw [e]
  show ((s.setPc src (s.pc src + 4)).updGrain src (fun x => { x with retired := s.now })).grain src = _
  rw [State.grain_updGrain_same, State.setPc, State.grain_updGrain_same]
  unfold Grain.next Grain.goto State.pc
  rw [BitVec.ofNat_add, BitVec.ofNat_toNat, BitVec.setWidth_eq]

@[simp] theorem State.lnk_stepOn (s : State) (src : Nat) : (s.stepOn src).lnk = s.lnk := by
  obtain ⟨m, e⟩ := s.stepOn_eq src
  rw [e]
  rfl

@[simp] theorem State.regs_stepOn (s : State) (src : Nat) : (s.stepOn src).regs = s.regs := by
  obtain ⟨m, e⟩ := s.stepOn_eq src
  rw [e]
  rfl

@[simp] theorem State.mem_stepOn (s : State) (src : Nat) : (s.stepOn src).mem = s.mem := by
  obtain ⟨m, e⟩ := s.stepOn_eq src
  rw [e]
  rfl

/-- A ready grain executes an instruction that its kind and its mode permit. -/
theorem State.issue_ready {s : State} {g : GrainId} {t w : Nat} {legal task : Bool} {f : State → State} (h : s.Ready g)
    (hl : legal = true) (ht : task = true ∨ s.super g.src = true) : s.issue g t w legal task f = .next (f (s.at t)) := by
  have h1 : ¬ (((s.at t).grain g.src).run ≠ .running ∨ ((s.at t).grain g.src).wait ≠ .none) :=
    fun e => e.elim (fun k => k h.run) (fun k => k h.wait)
  have h2 : (s.at t).fetchOk g.src ((s.at t).pc g.src) = true := h.fetch
  have h3 : (s.at t).fetchSound g.src ((s.at t).pc g.src) = true := h.sound
  have h4 : ¬ (¬ task = true ∧ ¬ (s.at t).super g.src = true) := fun e => ht.elim e.1 e.2
  unfold State.issue
  dsimp only
  rw [if_neg h1, if_neg (not_not_intro h2), if_neg (not_not_intro h3), if_neg (not_not_intro hl), if_neg h4]

/-- A ready grain executes an instruction that writes one general register. -/
theorem State.compute_sets {s : State} {g : GrainId} {t w rd : Nat} {legal : Bool} {v : State → Word} (h : s.Ready g)
    (hl : legal = true) : s.Sets g t rd (v (s.at t)) (s.compute g t w legal rd v) :=
  ⟨_, State.issue_ready h hl (.inl rfl), ((s.did_at g t []).setG rd _).stepOn⟩

/-- An outcome that is the write of one general register by a ready grain. -/
theorem State.computes {o : Host.Outcome State Fault Refusal} {s : State} {g : GrainId} {t w rd : Nat} {legal : Bool}
    {v : State → Word} {x : Word} (h : s.Ready g) (e : o = s.compute g t w legal rd v) (hl : legal = true)
    (hx : v (s.at t) = x) : s.Sets g t rd x o := by
  rw [e, ← hx]
  exact State.compute_sets h hl

/-! ## Addresses -/

theorem State.effAddr_eq (s : State) (src rs1 : Nat) (imm : Fin 65536) :
    s.effAddr src rs1 imm = (s.gReg src rs1 + BitVec.signExtend 32 (BitVec.ofNat 16 imm)).toNat := by
  unfold State.effAddr
  rw [wrapInt_eq, BitVec.ofInt_add, sext_ofNat 16 imm.isLt (by omega)]
  congr 2
  simp

theorem State.branch_target (pc : Word) {n w : Nat} (h : n < 2 ^ w) (hw : 0 < w) :
    BitVec.ofNat 32 (wrapInt (pc.toNat + 4 * sext n w) 32) = pc + BitVec.signExtend 32 (BitVec.ofNat w n) * 4#32 := by
  rw [ofNat_wrapInt, BitVec.ofInt_add, BitVec.ofInt_mul, sext_ofNat w h hw, BitVec.mul_comm]
  congr 1
  simp

/-! ## Exceptions -/

/-- An instruction that its grain's kind does not carry, or whose registers are not permitted (R178, R180). -/
theorem State.issue_illegal {s : State} {g : GrainId} {t w : Nat} {legal task : Bool} {f : State → State} (h : s.Ready g)
    (hl : legal = false) : s.issue g t w legal task f = .next ((s.at t).exc g.src 1 w) := by
  have h1 : ¬ (((s.at t).grain g.src).run ≠ .running ∨ ((s.at t).grain g.src).wait ≠ .none) :=
    fun e => e.elim (fun k => k h.run) (fun k => k h.wait)
  have h2 : (s.at t).fetchOk g.src ((s.at t).pc g.src) = true := h.fetch
  have h3 : (s.at t).fetchSound g.src ((s.at t).pc g.src) = true := h.sound
  have h4 : ¬ legal = true := by rw [hl]; exact Bool.noConfusion
  unfold State.issue
  dsimp only
  rw [if_neg h1, if_neg (not_not_intro h2), if_neg (not_not_intro h3), if_pos h4]

/-- A privileged instruction in task mode (R182). -/
theorem State.issue_privileged {s : State} {g : GrainId} {t w : Nat} {legal task : Bool} {f : State → State} (h : s.Ready g)
    (hl : legal = true) (ht : task = false) (hs : s.super g.src = false) :
    s.issue g t w legal task f = .next ((s.at t).exc g.src 2 w) := by
  have h1 : ¬ (((s.at t).grain g.src).run ≠ .running ∨ ((s.at t).grain g.src).wait ≠ .none) :=
    fun e => e.elim (fun k => k h.run) (fun k => k h.wait)
  have h2 : (s.at t).fetchOk g.src ((s.at t).pc g.src) = true := h.fetch
  have h3 : (s.at t).fetchSound g.src ((s.at t).pc g.src) = true := h.sound
  have h4 : ¬ task = true ∧ ¬ (s.at t).super g.src = true := by
    rw [ht]
    exact ⟨Bool.noConfusion, fun e => Bool.noConfusion (hs.symm.trans e)⟩
  unfold State.issue
  dsimp only
  rw [if_neg h1, if_neg (not_not_intro h2), if_neg (not_not_intro h3), if_neg (not_not_intro hl), if_pos h4]

/-- The descriptor of an event now: only the instant of the state enters it. -/
theorem State.mkDesc_congr {s u : State} (h : u.now = s.now) (cls src code info a b : Nat) :
    u.mkDesc cls src code info a b = s.mkDesc cls src code info a b := by
  unfold State.mkDesc State.ns
  rw [h]

/-- A synchronous exception of a grain without a kernel, with TRAP 0 and room in its inbox: its descriptor is posted and its
handler entered (R207). -/
theorem State.Did.syncExc {s u : State} {g : GrainId} {t : Nat} {ps : List Part} {f : Grain → Grain} (h : s.Did g t ps f u)
    (hk : (f (s.grain g.src)).kern = none) (ht : bit (f (s.grain g.src)).status.toNat 2 = false)
    (hr : (f (s.grain g.src)).inbox.length < 16) (code a b info : Nat) :
    s.Did g t ps (fun x => ({ f x with inbox := (f x).inbox ++ [(s.at t).mkDesc 1 g.src code info a b] } : Grain).trapped)
      (u.syncExc g.src code a b info) := by
  rw [← h.grain] at hk ht hr
  have hf : u.kernelFault g.src = u := by
    unfold State.kernelFault
    rw [hk]
  have hc : ¬ (bit (u.grain g.src).status.toNat 2 = true ∨ 16 ≤ (u.grain g.src).inbox.length) := by
    rw [ht]
    exact fun e => e.elim Bool.noConfusion (by omega)
  have d := (h.upd (fun x => { x with inbox := x.inbox ++ [u.mkDesc 1 g.src code info a b] })).upd Grain.trapped
  rw [State.mkDesc_congr (u := u) (s := s.at t) h.now] at d
  unfold State.syncExc
  dsimp only
  rw [hf, if_neg hc, State.mkDesc_congr (u := u) (s := s.at t) h.now]
  split
  · exact d.count _ _
  · split
    · exact d.count _ _
    · exact d

/-- An exception of a calm grain: its descriptor is posted and its handler entered (R207). -/
theorem State.exc_traps {s : State} {g : GrainId} {t code b : Nat} (h : s.Calm g) :
    s.Traps g t code b (.next ((s.at t).exc g.src code b)) := by
  have hi : ((s.at t).grain g.src).imprecise = [] := h.imprecise
  have e : (s.at t).exc g.src code b = (s.at t).syncExc g.src code (s.pc g.src) b 0 := by
    unfold State.exc
    rw [hi]
    rfl
  exact ⟨_, rfl, by rw [e]; exact (s.did_at g t []).syncExc h.kern h.trap h.room code (s.pc g.src) b 0⟩

end Sys2Proof.Machine
end

