-- ==== Sys2Proof/Laws/Kept/Ops.lean ====
section
/-!
SUPPORT. What the operations of Machine/Ops.lean keep.
-/

set_option Elab.async false
set_option linter.unusedTactic false
set_option linter.unreachableTactic false

namespace Sys2Proof.Machine

theorem State.drew_kept {P : Part → Prop} [May P .fresh_] {s0 : State} {s : State} {k : Nat} (hk : Kept P s0 s) :
    Kept P s0 (State.drew s k) := by
  unfold State.drew
  try dsimp only
  repeat' first | with_reducible assumption | (with_reducible refine Kept.mk' rfl rfl rfl rfl rfl rfl ?_)

theorem State.wr_kept {P : Part → Prop} [May P .regs_] [May P .lost_] {s0 : State} {s : State} {a : Nat} {f : Fld} {v : Nat} (hk : Kept P s0 s) :
    Kept P s0 (State.wr s a f v) := by
  unfold State.wr
  try dsimp only
  repeat' first | with_reducible assumption | with_reducible apply State.setReg_kept

theorem State.wrBit_kept {P : Part → Prop} [May P .regs_] [May P .lost_] {s0 : State} {s : State} {a : Nat} {i : Nat} {v : Bool} (hk : Kept P s0 s) :
    Kept P s0 (State.wrBit s a i v) := by
  unfold State.wrBit
  try dsimp only
  repeat' first | with_reducible assumption | with_reducible apply State.wr_kept

theorem State.hit_kept {P : Part → Prop} [May P .regs_] [May P .lost_] {s0 : State} {s : State} {evt : Nat} {f : Fld} {cnt : Nat} {c : Fld} (hk : Kept P s0 s) :
    Kept P s0 (State.hit s evt f cnt c) := by
  unfold State.hit
  try dsimp only
  repeat' first | with_reducible assumption | with_reducible apply State.wr_kept

theorem State.bump_kept {P : Part → Prop} [May P .regs_] [May P .lost_] {s0 : State} {s : State} {cnt : Nat} {c : Fld} (hk : Kept P s0 s) :
    Kept P s0 (State.bump s cnt c) := by
  unfold State.bump
  try dsimp only
  repeat' first | with_reducible assumption | with_reducible apply State.wr_kept

theorem State.storeLE_kept {P : Part → Prop} [May P .mem_] [May P .fab_] {s0 : State} {s : State} {a n v : Nat} (hk : Kept P s0 s) : Kept P s0 (s.storeLE a n v) := by
  induction n generalizing s a v with
  | zero => exact hk
  | succ n ih => exact ih (State.setByte_kept hk)

theorem State.storeBytes_kept {P : Part → Prop} [May P .mem_] [May P .fab_] {s0 : State} {s : State} {a : Nat} {l : List Nat} (hk : Kept P s0 s) :
    Kept P s0 (s.storeBytes a l) := by
  induction l generalizing s a with
  | nil => exact hk
  | cons b l ih => exact ih (State.setByte_kept hk)

theorem State.raise_kept {P : Part → Prop} [May P .lost_] [May P .led_] {s0 : State} {s : State} {src code : Nat} {words : List Nat} (hk : Kept P s0 s) :
    Kept P s0 (s.raise src code words) := by
  unfold State.raise
  dsimp only
  split
  · rename_i st h
    refine ⟨⟨hk.on.pending, hk.on.otp⟩, fun i0 => ?_, hk.parts (Part.same_of rfl rfl (fun x _ _ _ _ h => by
      cases x <;> first | rfl | contradiction | exact absurd May.may h))⟩
    have i := hk.inv i0
    refine ⟨i.mem, i.regs, fun x => ?_, i.inbox⟩
    show (Tab.get [] (Tab.set [] s.led.pile src st) x).length ≤ 8
    rw [Tab.get_set]
    split
    · exact pushEvent_length h (i.pile src)
    · exact i.pile x
  · exact State.setLost_kept (.inr rfl) (State.setLost_kept (.inl rfl) (Kept.mk' rfl rfl rfl rfl rfl rfl hk))

theorem State.countOne_kept {P : Part → Prop} [May P .fab_] {s0 : State} {s : State} {src : Nat} {k : Nat} {n : Nat} (hk : Kept P s0 s) :
    Kept P s0 (State.countOne s src k n) := by
  unfold State.countOne
  try dsimp only
  repeat' first
    | with_reducible assumption
    | with_reducible apply Kept.ite
    | split
    | (with_reducible refine Kept.mk' rfl rfl rfl rfl rfl rfl ?_)

theorem State.count_kept {P : Part → Prop} [May P .fab_] {s0 : State} {s : State} {src : Nat} {k : Nat} (hk : Kept P s0 s) :
    Kept P s0 (State.count s src k) := by
  unfold State.count
  try dsimp only
  repeat' first
    | with_reducible assumption
    | with_reducible apply State.countOne_kept
    | with_reducible apply Kept.foldl
    | with_reducible apply Kept.ite
    | (intro _; intros; try dsimp only)

theorem State.post_kept {P : Part → Prop} [May P .fab_] [May P .inbox_] {s0 : State} {s : State} {cls src code dest a b : Nat} (hk : Kept P s0 s) :
    Kept P s0 (s.post cls src code dest a b) := by
  unfold State.post
  dsimp only
  split
  · exact hk
  · split
    · exact hk
    · split
      · exact Kept.mk' rfl rfl rfl rfl rfl rfl hk
      · split
        · exact State.count_kept (State.inboxPush_kept (by omega) hk)
        · exact Kept.mk' rfl rfl rfl rfl rfl rfl hk

theorem State.postReserved_kept {P : Part → Prop} [May P .fab_] [May P .inbox_] {s0 : State} {s : State} {cls src code dest a b : Nat} (hk : Kept P s0 s) :
    Kept P s0 (s.postReserved cls src code dest a b) := by
  unfold State.postReserved
  dsimp only
  split
  · exact hk
  · split
    · exact State.inboxPush_kept ‹_› hk
    · exact Kept.mk' rfl rfl rfl rfl rfl rfl hk

theorem State.qOverflow_kept {P : Part → Prop} [May P .regs_] [May P .lost_] [May P .led_] {s0 : State} {s : State} {n : Nat} {putter : Nat} (hk : Kept P s0 s) :
    Kept P s0 (State.qOverflow s n putter) := by
  unfold State.qOverflow
  try dsimp only
  repeat' first
    | with_reducible assumption
    | with_reducible apply State.hit_kept
    | with_reducible apply State.raise_kept

theorem State.qWatermark_kept {P : Part → Prop} [May P .fab_] [May P .inbox_] {s0 : State} {s : State} {n : Nat} (hk : Kept P s0 s) :
    Kept P s0 (State.qWatermark s n) := by
  unfold State.qWatermark
  try dsimp only
  repeat' first
    | with_reducible assumption
    | with_reducible apply State.post_kept
    | with_reducible apply Kept.ite
    | split
    | (with_reducible refine Kept.mk' rfl rfl rfl rfl rfl rfl ?_)

theorem State.qAppend_kept {P : Part → Prop} [May P .fab_] [May P .inbox_] {s0 : State} {s : State} {n : Nat} {d : Dword} (hk : Kept P s0 s) :
    Kept P s0 (State.qAppend s n d) := by
  unfold State.qAppend
  try dsimp only
  repeat' first
    | with_reducible assumption
    | with_reducible apply State.count_kept
    | with_reducible apply State.qWatermark_kept
    | (with_reducible refine Kept.mk' rfl rfl rfl rfl rfl rfl ?_)

theorem State.qPutHw_kept {P : Part → Prop} [May P .regs_] [May P .lost_] [May P .fab_] [May P .inbox_] [May P .led_] {s0 : State} {s : State} {n : Nat} {putter : Nat} {d : Dword} (hk : Kept P s0 s) :
    Kept P s0 (State.qPutHw s n putter d) := by
  unfold State.qPutHw
  try dsimp only
  repeat' first
    | with_reducible assumption
    | with_reducible apply State.qAppend_kept
    | with_reducible apply State.qOverflow_kept
    | with_reducible apply Kept.ite

theorem State.qTake_kept {P : Part → Prop} [May P .fab_] {s0 : State} {s s1 : State} {n : Nat} {d : Dword} (h : s.qTake n = some (d, s1))
    (hk : Kept P s0 s) : Kept P s0 s1 := by
  unfold State.qTake at h
  split at h
  · cases h
  · cases h; exact Kept.mk' rfl rfl rfl rfl rfl rfl hk

theorem State.setPoison_kept {P : Part → Prop} [May P .fab_] {s0 : State} {s : State} {a : Nat} {b : Bool} (hk : Kept P s0 s) :
    Kept P s0 (State.setPoison s a b) := by
  unfold State.setPoison
  try dsimp only
  repeat' first | with_reducible assumption | (with_reducible refine Kept.mk' rfl rfl rfl rfl rfl rfl ?_)

theorem State.refusalFlag_kept {P : Part → Prop} [May P .regs_] [May P .lost_] {s0 : State} {s : State} {ev : Nat} {a : Nat} (hk : Kept P s0 s) :
    Kept P s0 (State.refusalFlag s ev a) := by
  unfold State.refusalFlag
  try dsimp only
  repeat' first
    | with_reducible assumption
    | with_reducible apply State.bump_kept
    | with_reducible apply State.hit_kept
    | with_reducible apply Kept.ite

theorem State.refuse_kept {P : Part → Prop} [May P .regs_] [May P .lost_] [May P .led_] {s0 : State} {s : State} {ev : Nat} {src : Nat} {a : Nat} {v : Nat} (hk : Kept P s0 s) :
    Kept P s0 (State.refuse s ev src a v) := by
  unfold State.refuse
  try dsimp only
  repeat' first
    | with_reducible assumption
    | with_reducible apply State.raise_kept
    | with_reducible apply State.refusalFlag_kept

theorem State.refuseFb_kept {P : Part → Prop} [May P .lost_] [May P .led_] {s0 : State} {s : State} {src : Nat} {a : Nat} {v : Nat} (hk : Kept P s0 s) :
    Kept P s0 (State.refuseFb s src a v) := by
  unfold State.refuseFb
  try dsimp only
  repeat' first | with_reducible assumption | with_reducible apply State.raise_kept

end Sys2Proof.Machine
end

