-- ==== Sys2Proof/Laws/Kept/Nodes.lean ====
section
/-!
SUPPORT. What the operations of Machine/Nodes.lean keep.
-/

set_option Elab.async false
set_option linter.unusedTactic false
set_option linter.unreachableTactic false

namespace Sys2Proof.Machine

theorem State.setNode_kept {P : Part → Prop} [May P .lnk_] {s0 : State} {s : State} {n : Nat} {x : Node} (hk : Kept P s0 s) :
    Kept P s0 (State.setNode s n x) := by
  unfold State.setNode
  try dsimp only
  repeat' first | with_reducible assumption | (with_reducible refine Kept.mk' rfl rfl rfl rfl rfl rfl ?_)

theorem nodeFrame_kept {P : Part → Prop} [May P .lnk_] {s0 : State} {s : State} {k : Nat} {body : List Nat} {t : Nat} {len : Nat} {node : Bool} {bcast : Bool} {act : Node → Bool → Node} (hk : Kept P s0 s) :
    Kept P s0 (nodeFrame s k body t len node bcast act) := by
  unfold nodeFrame
  try dsimp only
  repeat' first
    | with_reducible assumption
    | with_reducible apply State.at_kept
    | with_reducible apply State.setNode_kept
    | with_reducible apply Kept.ite
    | split

theorem execSample_kept {P : Part → Prop} [May P .lnk_] {s0 : State} {s : State} {p : Fin 18} {i : Fin 64} {body : List Nat} {_arr : Fin 2} {t : Nat} (hk : Kept P s0 s) :
    KeptO P s0 (execSample s p i body _arr t) := by
  unfold execSample
  try dsimp only
  repeat' first | with_reducible assumption | with_reducible apply nodeFrame_kept | with_reducible apply KeptO.of_next

theorem execRead_kept {P : Part → Prop} [May P .lnk_] {s0 : State} {s : State} {p : Fin 18} {i : Fin 64} {body : List Nat} {arr : Fin 2} {t : Nat} (hk : Kept P s0 s) :
    KeptO P s0 (execRead s p i body arr t) := by
  unfold execRead
  try dsimp only
  repeat' first | with_reducible assumption | with_reducible apply nodeFrame_kept | with_reducible apply KeptO.of_next

theorem execTime_kept {P : Part → Prop} [May P .lnk_] {s0 : State} {s : State} {p : Fin 18} {i : Fin 64} {body : List Nat} {arr : Fin 2} {t : Nat} (hk : Kept P s0 s) :
    KeptO P s0 (execTime s p i body arr t) := by
  unfold execTime
  try dsimp only
  repeat' first | with_reducible assumption | with_reducible apply nodeFrame_kept | with_reducible apply KeptO.of_next

theorem execPing_kept {P : Part → Prop} [May P .lnk_] {s0 : State} {s : State} {p : Fin 18} {i : Fin 64} {body : List Nat} {arr : Fin 2} {t : Nat} (hk : Kept P s0 s) :
    KeptO P s0 (execPing s p i body arr t) := by
  unfold execPing
  try dsimp only
  repeat' first | with_reducible assumption | with_reducible apply nodeFrame_kept | with_reducible apply KeptO.of_next

theorem execEnum_kept {P : Part → Prop} [May P .lnk_] {s0 : State} {s : State} {p : Fin 18} {i : Fin 64} {body : List Nat} {arr : Fin 2} {t : Nat} (hk : Kept P s0 s) :
    KeptO P s0 (execEnum s p i body arr t) := by
  unfold execEnum
  try dsimp only
  repeat' first | with_reducible assumption | with_reducible apply nodeFrame_kept | with_reducible apply KeptO.of_next

theorem execSetdly_kept {P : Part → Prop} [May P .lnk_] {s0 : State} {s : State} {p : Fin 18} {i : Fin 64} {body : List Nat} {_arr : Fin 2} {t : Nat} (hk : Kept P s0 s) :
    KeptO P s0 (execSetdly s p i body _arr t) := by
  unfold execSetdly
  try dsimp only
  repeat' first | with_reducible assumption | with_reducible apply nodeFrame_kept | with_reducible apply KeptO.of_next

theorem execRun_kept {P : Part → Prop} [May P .lnk_] {s0 : State} {s : State} {p : Fin 18} {i : Fin 64} {body : List Nat} {arr : Fin 2} {t : Nat} (hk : Kept P s0 s) :
    KeptO P s0 (execRun s p i body arr t) := by
  unfold execRun
  try dsimp only
  repeat' first | with_reducible assumption | with_reducible apply nodeFrame_kept | with_reducible apply KeptO.of_next

theorem execBal_kept {P : Part → Prop} [May P .lnk_] {s0 : State} {s : State} {p : Fin 18} {i : Fin 64} {body : List Nat} {carries : Bool} {arr : Fin 2} {t : Nat} (hk : Kept P s0 s) :
    KeptO P s0 (execBal s p i body carries arr t) := by
  unfold execBal
  try dsimp only
  repeat' first | with_reducible assumption | with_reducible apply nodeFrame_kept | with_reducible apply KeptO.of_next

theorem execOwt_kept {P : Part → Prop} [May P .lnk_] {s0 : State} {s : State} {p : Fin 18} {i : Fin 64} {body : List Nat} {arr : Fin 2} {t : Nat} (hk : Kept P s0 s) :
    KeptO P s0 (execOwt s p i body arr t) := by
  unfold execOwt
  try dsimp only
  repeat' first | with_reducible assumption | with_reducible apply nodeFrame_kept | with_reducible apply KeptO.of_next

theorem execAuth_kept {P : Part → Prop} [May P .lnk_] {s0 : State} {s : State} {p : Fin 18} {i : Fin 64} {body : List Nat} {arr : Fin 2} {t : Nat} (hk : Kept P s0 s) :
    KeptO P s0 (execAuth s p i body arr t) := by
  unfold execAuth
  try dsimp only
  repeat' first | with_reducible assumption | with_reducible apply nodeFrame_kept | with_reducible apply KeptO.of_next

theorem execWreg_kept {P : Part → Prop} [May P .lnk_] {s0 : State} {s : State} {p : Fin 18} {i : Fin 64} {body : List Nat} {arr : Fin 2} {t : Nat} (hk : Kept P s0 s) :
    KeptO P s0 (execWreg s p i body arr t) := by
  unfold execWreg
  try dsimp only
  repeat' first | with_reducible assumption | with_reducible apply nodeFrame_kept | with_reducible apply KeptO.of_next

theorem execRreg_kept {P : Part → Prop} [May P .lnk_] {s0 : State} {s : State} {p : Fin 18} {i : Fin 64} {body : List Nat} {arr : Fin 2} {t : Nat} (hk : Kept P s0 s) :
    KeptO P s0 (execRreg s p i body arr t) := by
  unfold execRreg
  try dsimp only
  repeat' first | with_reducible assumption | with_reducible apply nodeFrame_kept | with_reducible apply KeptO.of_next

theorem execReset_kept {P : Part → Prop} [May P .lnk_] {s0 : State} {s : State} {p : Fin 18} {i : Fin 64} {body : List Nat} {_arr : Fin 2} {t : Nat} (hk : Kept P s0 s) :
    KeptO P s0 (execReset s p i body _arr t) := by
  unfold execReset
  try dsimp only
  repeat' first | with_reducible assumption | with_reducible apply nodeFrame_kept | with_reducible apply KeptO.of_next

theorem execNodeUnknownCommand_kept {P : Part → Prop} [May P .lnk_] {s0 : State} {s : State} {p : Fin 18} {i : Fin 64} {body : List Nat} {arr : Fin 2} {t : Nat} (hk : Kept P s0 s) :
    KeptO P s0 (execNodeUnknownCommand s p i body arr t) := by
  unfold execNodeUnknownCommand
  try dsimp only
  repeat' first | with_reducible assumption | with_reducible apply nodeFrame_kept | with_reducible apply KeptO.of_next

theorem execNodeBadCrcFrame_kept {P : Part → Prop} [May P .lnk_] {s0 : State} {s : State} {p : Fin 18} {i : Fin 64} {body : List Nat} {_arr : Fin 2} {t : Nat} (hk : Kept P s0 s) :
    KeptO P s0 (execNodeBadCrcFrame s p i body _arr t) := by
  unfold execNodeBadCrcFrame
  try dsimp only
  repeat' first
    | with_reducible assumption
    | with_reducible apply State.at_kept
    | with_reducible apply State.setNode_kept
    | with_reducible apply KeptO.of_next
    | with_reducible apply KeptO.ite

theorem execNodeAnswerSend_kept {P : Part → Prop} [May P .lnk_] {s0 : State} {s : State} {p : Fin 18} {i : Fin 64} {t : Nat} (hk : Kept P s0 s) :
    KeptO P s0 (execNodeAnswerSend s p i t) := by
  unfold execNodeAnswerSend
  try dsimp only
  repeat' first
    | with_reducible assumption
    | with_reducible apply State.at_kept
    | with_reducible apply State.setNode_kept
    | with_reducible apply KeptO.of_next
    | with_reducible apply KeptO.ite
    | with_reducible apply Kept.ite
    | split

theorem execNodeSlotResponse_kept {P : Part → Prop} [May P .lnk_] {s0 : State} {s : State} {p : Fin 18} {i : Fin 64} {t : Nat} (hk : Kept P s0 s) :
    KeptO P s0 (execNodeSlotResponse s p i t) := by
  unfold execNodeSlotResponse
  try dsimp only
  repeat' first
    | with_reducible assumption
    | with_reducible apply State.at_kept
    | with_reducible apply State.setNode_kept
    | with_reducible apply KeptO.of_next
    | with_reducible apply KeptO.ite
    | with_reducible apply Kept.ite
    | split

theorem execNodeConversionStep_kept {P : Part → Prop} [May P .lnk_] {s0 : State} {s : State} {p : Fin 18} {i : Fin 64} {val : Nat} {t : Nat} (hk : Kept P s0 s) :
    KeptO P s0 (execNodeConversionStep s p i val t) := by
  unfold execNodeConversionStep
  try dsimp only
  repeat' first
    | with_reducible assumption
    | with_reducible apply State.at_kept
    | with_reducible apply State.setNode_kept
    | with_reducible apply KeptO.of_next

theorem execNodeSweepConversionsEnd_kept {P : Part → Prop} [May P .lnk_] {s0 : State} {s : State} {p : Fin 18} {i : Fin 64} {stack : Nat} {temp : Nat} {fuse : Bool} {t : Nat} (hk : Kept P s0 s) :
    KeptO P s0 (execNodeSweepConversionsEnd s p i stack temp fuse t) := by
  unfold execNodeSweepConversionsEnd
  try dsimp only
  repeat' first
    | with_reducible assumption
    | with_reducible apply State.at_kept
    | with_reducible apply State.setNode_kept
    | with_reducible apply KeptO.of_next

theorem execNodeStreamSample_kept {P : Part → Prop} [May P .lnk_] {s0 : State} {s : State} {p : Fin 18} {i : Fin 64} {cur : Int} {t : Nat} (hk : Kept P s0 s) :
    KeptO P s0 (execNodeStreamSample s p i cur t) := by
  unfold execNodeStreamSample
  try dsimp only
  repeat' first
    | with_reducible assumption
    | with_reducible apply State.at_kept
    | with_reducible apply State.setNode_kept
    | with_reducible apply KeptO.of_next

theorem execNodeAuthComputeDone_kept {P : Part → Prop} [May P .lnk_] {s0 : State} {s : State} {p : Fin 18} {i : Fin 64} {t : Nat} (hk : Kept P s0 s) :
    KeptO P s0 (execNodeAuthComputeDone s p i t) := by
  unfold execNodeAuthComputeDone
  try dsimp only
  repeat' first
    | with_reducible assumption
    | with_reducible apply State.at_kept
    | with_reducible apply State.setNode_kept
    | with_reducible apply KeptO.of_next

theorem execNodeBalTimeout_kept {P : Part → Prop} [May P .lnk_] {s0 : State} {s : State} {p : Fin 18} {i : Fin 64} {t : Nat} (hk : Kept P s0 s) :
    KeptO P s0 (execNodeBalTimeout s p i t) := by
  unfold execNodeBalTimeout
  try dsimp only
  repeat' first
    | with_reducible assumption
    | with_reducible apply State.at_kept
    | with_reducible apply State.setNode_kept
    | with_reducible apply KeptO.of_next
    | with_reducible apply KeptO.ite
    | with_reducible apply Kept.ite

theorem execNodeSleepTimeout_kept {P : Part → Prop} [May P .lnk_] {s0 : State} {s : State} {p : Fin 18} {i : Fin 64} {t : Nat} (hk : Kept P s0 s) :
    KeptO P s0 (execNodeSleepTimeout s p i t) := by
  unfold execNodeSleepTimeout
  try dsimp only
  repeat' first
    | with_reducible assumption
    | with_reducible apply State.at_kept
    | with_reducible apply State.setNode_kept
    | with_reducible apply KeptO.of_next
    | with_reducible apply KeptO.ite
    | with_reducible apply Kept.ite

theorem execNodeWakeTone_kept {P : Part → Prop} [May P .lnk_] {s0 : State} {s : State} {p : Fin 18} {i : Fin 64} {_arr : Fin 2} {t : Nat} (hk : Kept P s0 s) :
    KeptO P s0 (execNodeWakeTone s p i _arr t) := by
  unfold execNodeWakeTone
  try dsimp only
  repeat' first
    | with_reducible assumption
    | with_reducible apply State.at_kept
    | with_reducible apply State.setNode_kept
    | with_reducible apply KeptO.of_next

theorem execNodeInsulationMeasure_kept {P : Part → Prop} [May P .lnk_] {s0 : State} {s : State} {p : Fin 18} {i : Fin 64} {rpos : Nat} {rneg : Nat} {ok : Bool} {t : Nat} (hk : Kept P s0 s) :
    KeptO P s0 (execNodeInsulationMeasure s p i rpos rneg ok t) := by
  unfold execNodeInsulationMeasure
  try dsimp only
  repeat' first
    | with_reducible assumption
    | with_reducible apply State.at_kept
    | with_reducible apply State.setNode_kept
    | with_reducible apply KeptO.of_next
    | with_reducible apply KeptO.ite

theorem execNodePowerUp_kept {P : Part → Prop} [May P .lnk_] {s0 : State} {s : State} {p : Fin 18} {i : Fin 64} {kind : Fin 4} {cells : Fin 19} {auxN : Fin 9} {serial : Nat} {key : Option (List Nat)} {t : Nat} (hk : Kept P s0 s) :
    KeptO P s0 (execNodePowerUp s p i kind cells auxN serial key t) := by
  unfold execNodePowerUp
  try dsimp only
  repeat' first
    | with_reducible assumption
    | with_reducible apply State.at_kept
    | with_reducible apply State.setNode_kept
    | with_reducible apply KeptO.of_next

end Sys2Proof.Machine
end

