-- ==== Sys2Proof/Laws/Kept/Links.lean ====
section
/-!
SUPPORT. What the operations of Machine/Links.lean keep.
-/

set_option Elab.async false
set_option linter.unusedTactic false
set_option linter.unreachableTactic false

namespace Sys2Proof.Machine

theorem State.updEng_kept {P : Part → Prop} [May P .lnk_] {s0 : State} {s : State} {k : Nat} {f : Engine → Engine} (hk : Kept P s0 s) :
    Kept P s0 (State.updEng s k f) := by
  unfold State.updEng
  try dsimp only
  repeat' first | with_reducible assumption | (with_reducible refine Kept.mk' rfl rfl rfl rfl rfl rfl ?_)

theorem State.updPos_kept {P : Part → Prop} [May P .lnk_] {s0 : State} {s : State} {p : Nat} {q : Nat} {f : Pos → Pos} (hk : Kept P s0 s) :
    Kept P s0 (State.updPos s p q f) := by
  unfold State.updPos
  try dsimp only
  repeat' first | with_reducible assumption | (with_reducible refine Kept.mk' rfl rfl rfl rfl rfl rfl ?_)

theorem State.hitPort_kept {P : Part → Prop} [May P .regs_] [May P .lost_] {s0 : State} {s : State} {k : Nat} {f : Fld} {c : Nat} (hk : Kept P s0 s) :
    Kept P s0 (State.hitPort s k f c) := by
  unfold State.hitPort
  try dsimp only
  repeat' first | with_reducible assumption | with_reducible apply State.hit_kept | with_reducible apply Kept.ite

theorem State.hitCrc_kept {P : Part → Prop} [May P .regs_] [May P .lost_] {s0 : State} {s : State} {k : Nat} (hk : Kept P s0 s) :
    Kept P s0 (State.hitCrc s k) := by
  unfold State.hitCrc
  try dsimp only
  repeat' first | with_reducible assumption | with_reducible apply State.hitPort_kept

theorem State.hitMissing_kept {P : Part → Prop} [May P .regs_] [May P .lost_] {s0 : State} {s : State} {k : Nat} (hk : Kept P s0 s) :
    Kept P s0 (State.hitMissing s k) := by
  unfold State.hitMissing
  try dsimp only
  repeat' first | with_reducible assumption | with_reducible apply State.hitPort_kept

theorem State.hitSlot_kept {P : Part → Prop} [May P .regs_] [May P .lost_] {s0 : State} {s : State} {k : Nat} (hk : Kept P s0 s) :
    Kept P s0 (State.hitSlot s k) := by
  unfold State.hitSlot
  try dsimp only
  repeat' first | with_reducible assumption | with_reducible apply State.hitPort_kept

theorem State.hitAuthFail_kept {P : Part → Prop} [May P .regs_] [May P .lost_] {s0 : State} {s : State} {k : Nat} (hk : Kept P s0 s) :
    Kept P s0 (State.hitAuthFail s k) := by
  unfold State.hitAuthFail
  try dsimp only
  repeat' first | with_reducible assumption | with_reducible apply State.hitPort_kept

theorem State.hitSwap_kept {P : Part → Prop} [May P .regs_] [May P .lost_] {s0 : State} {s : State} {k : Nat} (hk : Kept P s0 s) :
    Kept P s0 (State.hitSwap s k) := by
  unfold State.hitSwap
  try dsimp only
  repeat' first | with_reducible assumption | with_reducible apply State.hitPort_kept

theorem State.hitNak_kept {P : Part → Prop} [May P .regs_] [May P .lost_] {s0 : State} {s : State} {k : Nat} (hk : Kept P s0 s) :
    Kept P s0 (State.hitNak s k) := by
  unfold State.hitNak
  try dsimp only
  repeat' first | with_reducible assumption | with_reducible apply State.hitPort_kept

theorem State.hitLate_kept {P : Part → Prop} [May P .regs_] [May P .lost_] {s0 : State} {s : State} {k : Nat} (hk : Kept P s0 s) :
    Kept P s0 (State.hitLate s k) := by
  unfold State.hitLate
  try dsimp only
  repeat' first | with_reducible assumption | with_reducible apply State.hitPort_kept

theorem State.hitDlyShift_kept {P : Part → Prop} [May P .regs_] [May P .lost_] {s0 : State} {s : State} {k : Nat} (hk : Kept P s0 s) :
    Kept P s0 (State.hitDlyShift s k) := by
  unfold State.hitDlyShift
  try dsimp only
  repeat' first | with_reducible assumption | with_reducible apply State.hitPort_kept

theorem State.missing_kept {P : Part → Prop} [May P .regs_] [May P .lost_] [May P .fab_] [May P .led_] [May P .lnk_] {s0 : State} {s : State} {k : Nat} {q : Nat} {tag : Nat} (hk : Kept P s0 s) :
    Kept P s0 (State.missing s k q tag) := by
  unfold State.missing
  try dsimp only
  repeat' first
    | with_reducible assumption
    | with_reducible apply State.count_kept
    | with_reducible apply State.hitMissing_kept
    | with_reducible apply State.raise_kept
    | with_reducible apply State.updPos_kept
    | with_reducible apply Kept.ite

theorem State.verdict_kept {P : Part → Prop} [May P .trip_] {s0 : State} {s : State} {v : Verdict} (hk : Kept P s0 s) :
    Kept P s0 (State.verdict s v) := by
  unfold State.verdict
  try dsimp only
  repeat' first
    | with_reducible assumption
    | with_reducible apply Kept.ite
    | split
    | (with_reducible refine Kept.mk' rfl rfl rfl rfl rfl rfl ?_)

theorem State.nodeSource_kept {P : Part → Prop} [May P .trip_] {s0 : State} {s : State} {src : Nat} {p : Nat} {q : Nat} {idx : Nat} {on : Bool} (hk : Kept P s0 s) :
    Kept P s0 (State.nodeSource s src p q idx on) := by
  unfold State.nodeSource
  try dsimp only
  repeat' first | with_reducible assumption | with_reducible apply State.verdict_kept

theorem State.stringSource_kept {P : Part → Prop} [May P .trip_] {s0 : State} {s : State} {src : Nat} {key : Nat} {native : Option Nat} {on : Bool} (hk : Kept P s0 s) :
    Kept P s0 (State.stringSource s src key native on) := by
  unfold State.stringSource
  try dsimp only
  repeat' first | with_reducible assumption | (with_reducible refine Kept.mk' rfl rfl rfl rfl rfl rfl ?_)

theorem State.unstalePos_kept {P : Part → Prop} [May P .lnk_] [May P .trip_] {s0 : State} {s : State} {p : Nat} {q : Nat} (hk : Kept P s0 s) :
    Kept P s0 (State.unstalePos s p q) := by
  unfold State.unstalePos
  try dsimp only
  repeat' first
    | with_reducible assumption
    | with_reducible apply State.nodeSource_kept
    | with_reducible apply State.updPos_kept
    | with_reducible apply Kept.ite

theorem State.staleDrop_kept {P : Part → Prop} [May P .lnk_] [May P .trip_] {s0 : State} {s : State} {p : Nat} {lo : Nat} {hi : Nat} (hk : Kept P s0 s) :
    Kept P s0 (State.staleDrop s p lo hi) := by
  unfold State.staleDrop
  try dsimp only
  repeat' first
    | with_reducible assumption
    | with_reducible apply State.unstalePos_kept
    | with_reducible apply Kept.foldl
    | (intro _; intros; try dsimp only)

theorem State.engSend_kept {P : Part → Prop} [May P .fab_] [May P .lnk_] {s0 : State} {s : State} {k : Nat} {body : List Nat} (hk : Kept P s0 s) :
    Kept P s0 (State.engSend s k body) := by
  unfold State.engSend
  try dsimp only
  repeat' first
    | with_reducible assumption
    | with_reducible apply State.count_kept
    | with_reducible apply State.updEng_kept

theorem State.wakeTone_kept {P : Part → Prop} [May P .regs_] [May P .lost_] [May P .led_] [May P .lnk_] {s0 : State} {s : State} {k : Nat} {us_ : Nat} (hk : Kept P s0 s) :
    Kept P s0 (State.wakeTone s k us_) := by
  unfold State.wakeTone
  try dsimp only
  repeat' first
    | with_reducible assumption
    | with_reducible apply State.raise_kept
    | with_reducible apply State.updEng_kept
    | with_reducible apply State.wr_kept

theorem State.engRx_kept {P : Part → Prop} [May P .lnk_] {s0 : State} {s : State} {k : Nat} {body : List Nat} {crc : Bool} {viol : Bool} (hk : Kept P s0 s) :
    Kept P s0 (State.engRx s k body crc viol) := by
  unfold State.engRx
  try dsimp only
  repeat' first | with_reducible assumption | with_reducible apply State.updEng_kept

theorem State.sendPing_kept {P : Part → Prop} [May P .fab_] [May P .lnk_] {s0 : State} {s : State} {k : Nat} {q : Nat} (hk : Kept P s0 s) :
    Kept P s0 (State.sendPing s k q) := by
  unfold State.sendPing
  try dsimp only
  repeat' first
    | with_reducible assumption
    | with_reducible apply State.engSend_kept
    | with_reducible apply State.updEng_kept

theorem State.sendAuth_kept {P : Part → Prop} [May P .fresh_] [May P .fab_] [May P .lnk_] {s0 : State} {s : State} {k : Nat} {q : Nat} (hk : Kept P s0 s) :
    Kept P s0 (State.sendAuth s k q) := by
  unfold State.sendAuth
  try dsimp only
  repeat' first
    | with_reducible assumption
    | with_reducible apply State.drew_kept
    | with_reducible apply State.engSend_kept
    | with_reducible apply State.updEng_kept
    | with_reducible apply State.updPos_kept

theorem State.enumDone_kept {P : Part → Prop} [May P .regs_] [May P .lost_] [May P .led_] [May P .lnk_] [May P .trip_] {s0 : State} {s : State} {k : Nat} (hk : Kept P s0 s) :
    Kept P s0 (State.enumDone s k) := by
  unfold State.enumDone
  try dsimp only
  repeat' first
    | with_reducible assumption
    | with_reducible apply State.raise_kept
    | with_reducible apply State.staleDrop_kept
    | with_reducible apply State.updEng_kept
    | with_reducible apply State.wr_kept
    | with_reducible apply Kept.ite

theorem State.authNext_kept {P : Part → Prop} [May P .fresh_] [May P .regs_] [May P .lost_] [May P .fab_] [May P .led_] [May P .lnk_] [May P .trip_] {s0 : State} {s : State} {k : Nat} {q : Nat} (hk : Kept P s0 s) :
    Kept P s0 (State.authNext s k q) := by
  unfold State.authNext
  try dsimp only
  repeat' first
    | with_reducible assumption
    | with_reducible apply State.enumDone_kept
    | with_reducible apply State.sendAuth_kept
    | with_reducible apply State.updEng_kept
    | with_reducible apply State.wr_kept
    | with_reducible apply Kept.ite

theorem State.calDone_kept {P : Part → Prop} [May P .fresh_] [May P .regs_] [May P .lost_] [May P .fab_] [May P .led_] [May P .lnk_] [May P .trip_] {s0 : State} {s : State} {k : Nat} (hk : Kept P s0 s) :
    Kept P s0 (State.calDone s k) := by
  unfold State.calDone
  try dsimp only
  repeat' first
    | with_reducible assumption
    | with_reducible apply State.enumDone_kept
    | with_reducible apply State.sendAuth_kept
    | with_reducible apply State.updEng_kept
    | with_reducible apply State.wr_kept
    | with_reducible apply Kept.ite

theorem State.calStart_kept {P : Part → Prop} [May P .fresh_] [May P .regs_] [May P .lost_] [May P .fab_] [May P .led_] [May P .lnk_] [May P .trip_] {s0 : State} {s : State} {k : Nat} {q : Nat} (hk : Kept P s0 s) :
    Kept P s0 (State.calStart s k q) := by
  unfold State.calStart
  try dsimp only
  repeat' first
    | with_reducible assumption
    | with_reducible apply State.calDone_kept
    | with_reducible apply State.sendPing_kept
    | with_reducible apply State.updEng_kept
    | with_reducible apply Kept.ite

theorem State.calPosition_kept {P : Part → Prop} [May P .regs_] [May P .lost_] [May P .fab_] [May P .led_] [May P .lnk_] {s0 : State} {s : State} {k : Nat} {q : Nat} {d : Nat} (hk : Kept P s0 s) :
    Kept P s0 (State.calPosition s k q d) := by
  unfold State.calPosition
  try dsimp only
  repeat' first
    | with_reducible assumption
    | with_reducible apply State.engSend_kept
    | with_reducible apply State.hitDlyShift_kept
    | with_reducible apply State.raise_kept
    | with_reducible apply State.wr_kept
    | with_reducible apply Kept.ite

theorem State.pong_kept {P : Part → Prop} [May P .fresh_] [May P .regs_] [May P .lost_] [May P .fab_] [May P .led_] [May P .lnk_] [May P .trip_] {s0 : State} {s : State} {k : Nat} (hk : Kept P s0 s) :
    Kept P s0 (State.pong s k) := by
  unfold State.pong
  try dsimp only
  repeat' first
    | with_reducible assumption
    | with_reducible apply State.calPosition_kept
    | with_reducible apply State.calStart_kept
    | with_reducible apply State.sendPing_kept
    | with_reducible apply State.updEng_kept
    | with_reducible apply Kept.ite
    | split

theorem State.sendEnum_kept {P : Part → Prop} [May P .fab_] [May P .lnk_] {s0 : State} {s : State} {k : Nat} {q : Nat} (hk : Kept P s0 s) :
    Kept P s0 (State.sendEnum s k q) := by
  unfold State.sendEnum
  try dsimp only
  repeat' first
    | with_reducible assumption
    | with_reducible apply State.engSend_kept
    | with_reducible apply State.updEng_kept

theorem State.enumStop_kept {P : Part → Prop} [May P .fresh_] [May P .regs_] [May P .lost_] [May P .fab_] [May P .led_] [May P .lnk_] [May P .trip_] {s0 : State} {s : State} {k : Nat} {n : Nat} (hk : Kept P s0 s) :
    Kept P s0 (State.enumStop s k n) := by
  unfold State.enumStop
  try dsimp only
  repeat' first
    | with_reducible assumption
    | with_reducible apply State.calStart_kept
    | with_reducible apply State.updEng_kept
    | with_reducible apply State.wr_kept

theorem State.enumBegin_kept {P : Part → Prop} [May P .regs_] [May P .lost_] [May P .fab_] [May P .lnk_] {s0 : State} {s : State} {k : Nat} {first : Nat} (hk : Kept P s0 s) :
    Kept P s0 (State.enumBegin s k first) := by
  unfold State.enumBegin
  try dsimp only
  repeat' first
    | with_reducible assumption
    | with_reducible apply State.engSend_kept
    | with_reducible apply State.sendEnum_kept
    | with_reducible apply State.updEng_kept
    | with_reducible apply State.wr_kept
    | with_reducible apply Kept.ite

theorem State.enumRetry_kept {P : Part → Prop} [May P .fresh_] [May P .regs_] [May P .lost_] [May P .fab_] [May P .led_] [May P .lnk_] [May P .trip_] {s0 : State} {s : State} {k : Nat} {q : Nat} (hk : Kept P s0 s) :
    Kept P s0 (State.enumRetry s k q) := by
  unfold State.enumRetry
  try dsimp only
  repeat' first
    | with_reducible assumption
    | with_reducible apply State.enumStop_kept
    | with_reducible apply State.sendEnum_kept
    | with_reducible apply State.updEng_kept
    | with_reducible apply Kept.ite

theorem State.unauthSource_kept {P : Part → Prop} [May P .trip_] {s0 : State} {s : State} {p : Nat} {q : Nat} {on : Bool} (hk : Kept P s0 s) :
    Kept P s0 (State.unauthSource s p q on) := by
  unfold State.unauthSource
  try dsimp only
  repeat' first | with_reducible assumption | with_reducible apply State.nodeSource_kept

theorem State.authFail_kept {P : Part → Prop} [May P .fresh_] [May P .regs_] [May P .lost_] [May P .fab_] [May P .led_] [May P .lnk_] [May P .trip_] {s0 : State} {s : State} {k : Nat} {q : Nat} (hk : Kept P s0 s) :
    Kept P s0 (State.authFail s k q) := by
  unfold State.authFail
  try dsimp only
  repeat' first
    | with_reducible assumption
    | with_reducible apply State.authNext_kept
    | with_reducible apply State.hitAuthFail_kept
    | with_reducible apply State.raise_kept
    | with_reducible apply State.sendAuth_kept
    | with_reducible apply State.unauthSource_kept
    | with_reducible apply State.updPos_kept
    | with_reducible apply State.wr_kept
    | with_reducible apply Kept.ite

theorem State.authPass_kept {P : Part → Prop} [May P .fresh_] [May P .regs_] [May P .lost_] [May P .fab_] [May P .led_] [May P .lnk_] [May P .trip_] {s0 : State} {s : State} {k : Nat} {q : Nat} (hk : Kept P s0 s) :
    Kept P s0 (State.authPass s k q) := by
  unfold State.authPass
  try dsimp only
  repeat' first
    | with_reducible assumption
    | with_reducible apply State.authNext_kept
    | with_reducible apply State.unauthSource_kept
    | with_reducible apply State.updPos_kept
    | with_reducible apply State.wr_kept

end Sys2Proof.Machine
end

