-- ==== Sys2Proof/Laws/Kept/GateOps.lean ====
section
/-!
SUPPORT. What the operations of Machine/GateOps.lean keep.
-/

set_option Elab.async false
set_option linter.unusedTactic false
set_option linter.unreachableTactic false

namespace Sys2Proof.Machine

theorem State.updHb_kept {P : Part → Prop} [May P .gate_] {s0 : State} {s : State} {n : Nat} {f : HB → HB} (hk : Kept P s0 s) :
    Kept P s0 (State.updHb s n f) := by
  unfold State.updHb
  try dsimp only
  repeat' first | with_reducible assumption | (with_reducible refine Kept.mk' rfl rfl rfl rfl rfl rfl ?_)

theorem State.setHbState_kept {P : Part → Prop} [May P .regs_] [May P .lost_] {s0 : State} {s : State} {n : Nat} {v : Nat} (hk : Kept P s0 s) :
    Kept P s0 (State.setHbState s n v) := by
  unfold State.setHbState
  try dsimp only
  repeat' first | with_reducible assumption | with_reducible apply State.wr_kept

theorem State.setSw_kept {P : Part → Prop} [May P .regs_] [May P .lost_] [May P .gate_] {s0 : State} {s : State} {n : Nat} {hi : Bool} {v : Nat} (hk : Kept P s0 s) :
    Kept P s0 (State.setSw s n hi v) := by
  unfold State.setSw
  try dsimp only
  repeat' first
    | with_reducible assumption
    | with_reducible apply State.updHb_kept
    | with_reducible apply State.wr_kept
    | with_reducible apply Kept.ite

theorem State.hardOff_kept {P : Part → Prop} [May P .regs_] [May P .lost_] [May P .gate_] {s0 : State} {s : State} {n : Nat} (hk : Kept P s0 s) :
    Kept P s0 (State.hardOff s n) := by
  unfold State.hardOff
  try dsimp only
  repeat' first
    | with_reducible assumption
    | with_reducible apply State.setSw_kept
    | with_reducible apply State.updHb_kept

theorem State.toPlateau_kept {P : Part → Prop} [May P .regs_] [May P .lost_] [May P .gate_] {s0 : State} {s : State} {n : Nat} (hk : Kept P s0 s) :
    Kept P s0 (State.toPlateau s n) := by
  unfold State.toPlateau
  try dsimp only
  repeat' first
    | with_reducible assumption
    | with_reducible apply State.setSw_kept
    | with_reducible apply State.updHb_kept
    | with_reducible apply Kept.ite

theorem State.rearm_kept {P : Part → Prop} [May P .regs_] [May P .lost_] {s0 : State} {s : State} {n : Nat} (hk : Kept P s0 s) :
    Kept P s0 (State.rearm s n) := by
  unfold State.rearm
  try dsimp only
  repeat' first
    | with_reducible assumption
    | with_reducible apply State.setHbState_kept
    | with_reducible apply Kept.ite

theorem State.rearmAll_kept {P : Part → Prop} [May P .regs_] [May P .lost_] {s0 : State} {s : State} (hk : Kept P s0 s) :
    Kept P s0 (State.rearmAll s) := by
  unfold State.rearmAll
  try dsimp only
  repeat' first | with_reducible assumption | with_reducible apply State.rearm_kept | with_reducible apply Kept.foldl

theorem State.source23_kept {P : Part → Prop} [May P .trip_] {s0 : State} {s : State} {n : Nat} (hk : Kept P s0 s) :
    Kept P s0 (State.source23 s n) := by
  unfold State.source23
  try dsimp only
  repeat' first | with_reducible assumption | with_reducible apply State.stringSource_kept | split

theorem State.hbLatch_kept {P : Part → Prop} [May P .regs_] [May P .lost_] [May P .led_] {s0 : State} {s : State} {n : Nat} {cause : Nat} (hk : Kept P s0 s) :
    Kept P s0 (State.hbLatch s n cause) := by
  unfold State.hbLatch
  try dsimp only
  repeat' first
    | with_reducible assumption
    | with_reducible apply State.hit_kept
    | with_reducible apply State.raise_kept
    | with_reducible apply State.setHbState_kept

theorem State.hbFault_kept {P : Part → Prop} [May P .regs_] [May P .lost_] [May P .led_] [May P .trip_] [May P .gate_] {s0 : State} {s : State} {n : Nat} {cause : Nat} (hk : Kept P s0 s) :
    Kept P s0 (State.hbFault s n cause) := by
  unfold State.hbFault
  try dsimp only
  repeat' first
    | with_reducible assumption
    | with_reducible apply State.hbLatch_kept
    | with_reducible apply State.setHbState_kept
    | with_reducible apply State.source23_kept
    | with_reducible apply State.updHb_kept
    | with_reducible apply State.wrBit_kept
    | with_reducible apply State.wr_kept
    | with_reducible apply Kept.ite

theorem State.hbFaultEvent_kept {P : Part → Prop} [May P .regs_] [May P .lost_] [May P .led_] {s0 : State} {s : State} {n : Nat} {cause : Nat} (hk : Kept P s0 s) :
    Kept P s0 (State.hbFaultEvent s n cause) := by
  unfold State.hbFaultEvent
  try dsimp only
  repeat' first
    | with_reducible assumption
    | with_reducible apply State.hit_kept
    | with_reducible apply State.raise_kept
    | with_reducible apply Kept.ite

theorem State.endTests_kept {P : Part → Prop} [May P .regs_] [May P .lost_] [May P .gate_] {s0 : State} {s : State} (hk : Kept P s0 s) :
    Kept P s0 (State.endTests s) := by
  unfold State.endTests
  try dsimp only
  repeat' first
    | with_reducible assumption
    | with_reducible apply State.hardOff_kept
    | with_reducible apply State.rearm_kept
    | with_reducible apply State.setHbState_kept
    | with_reducible apply State.wr_kept
    | with_reducible apply Kept.foldl
    | with_reducible apply Kept.ite
    | (intro _; intros; try dsimp only)
    | split
    | (with_reducible refine Kept.mk' rfl rfl rfl rfl rfl rfl ?_)

theorem State.plainFault_kept {P : Part → Prop} [May P .regs_] [May P .lost_] [May P .led_] [May P .trip_] [May P .gate_] {s0 : State} {s : State} {n : Nat} {cause : Nat} (hk : Kept P s0 s) :
    Kept P s0 (State.plainFault s n cause) := by
  unfold State.plainFault
  try dsimp only
  repeat' first
    | with_reducible assumption
    | with_reducible apply State.endTests_kept
    | with_reducible apply State.hardOff_kept
    | with_reducible apply State.hbFaultEvent_kept
    | with_reducible apply State.hbFault_kept

theorem State.enterStop_kept {P : Part → Prop} [May P .regs_] [May P .lost_] [May P .gate_] {s0 : State} {s : State} {n : Nat} (hk : Kept P s0 s) :
    Kept P s0 (State.enterStop s n) := by
  unfold State.enterStop
  try dsimp only
  repeat' first
    | with_reducible assumption
    | with_reducible apply State.setHbState_kept
    | with_reducible apply State.toPlateau_kept
    | with_reducible apply State.updHb_kept
    | with_reducible apply Kept.ite

theorem State.short_kept {P : Part → Prop} [May P .regs_] [May P .lost_] [May P .led_] [May P .trip_] [May P .gate_] {s0 : State} {s : State} {n : Nat} {cause : Nat} (hk : Kept P s0 s) :
    Kept P s0 (State.short s n cause) := by
  unfold State.short
  try dsimp only
  repeat' first
    | with_reducible assumption
    | with_reducible apply State.endTests_kept
    | with_reducible apply State.enterStop_kept
    | with_reducible apply State.hbFaultEvent_kept
    | with_reducible apply State.hbFault_kept
    | with_reducible apply State.updHb_kept
    | with_reducible apply State.wr_kept
    | with_reducible apply Kept.foldl
    | with_reducible apply Kept.ite
    | split
    | (with_reducible refine Kept.mk' rfl rfl rfl rfl rfl rfl ?_)

theorem State.inhibitString_kept {P : Part → Prop} [May P .regs_] [May P .lost_] [May P .gate_] {s0 : State} {s : State} {r : Nat} {on : Bool} (hk : Kept P s0 s) :
    Kept P s0 (State.inhibitString s r on) := by
  unfold State.inhibitString
  try dsimp only
  repeat' first
    | with_reducible assumption
    | with_reducible apply State.endTests_kept
    | with_reducible apply State.hardOff_kept
    | with_reducible apply State.setHbState_kept
    | with_reducible apply State.updHb_kept
    | with_reducible apply Kept.foldl
    | with_reducible apply Kept.ite
    | (intro _; intros; try dsimp only)

theorem State.settle_kept {P : Part → Prop} [May P .regs_] [May P .lost_] [May P .gate_] {s0 : State} {s : State} {n : Nat} (hk : Kept P s0 s) :
    Kept P s0 (State.settle s n) := by
  unfold State.settle
  try dsimp only
  repeat' first
    | with_reducible assumption
    | with_reducible apply State.setSw_kept
    | with_reducible apply State.updHb_kept
    | with_reducible apply Kept.ite
    | split

theorem State.askOn_kept {P : Part → Prop} [May P .gate_] {s0 : State} {s : State} {n : Nat} {hi : Bool} (hk : Kept P s0 s) :
    Kept P s0 (State.askOn s n hi) := by
  unfold State.askOn
  try dsimp only
  repeat' first | with_reducible assumption | with_reducible apply State.updHb_kept

theorem State.turnOff_kept {P : Part → Prop} [May P .regs_] [May P .lost_] [May P .gate_] {s0 : State} {s : State} {n : Nat} {hi : Bool} (hk : Kept P s0 s) :
    Kept P s0 (State.turnOff s n hi) := by
  unfold State.turnOff
  try dsimp only
  repeat' first
    | with_reducible assumption
    | with_reducible apply State.setSw_kept
    | with_reducible apply State.updHb_kept
    | with_reducible apply Kept.ite

theorem State.driveHb_kept {P : Part → Prop} [May P .regs_] [May P .lost_] [May P .gate_] {s0 : State} {s : State} {n : Nat} {en : Bool} {pulse : Bool} (hk : Kept P s0 s) :
    Kept P s0 (State.driveHb s n en pulse) := by
  unfold State.driveHb
  try dsimp only
  repeat' first
    | with_reducible assumption
    | with_reducible apply State.askOn_kept
    | with_reducible apply State.setHbState_kept
    | with_reducible apply State.turnOff_kept
    | with_reducible apply State.updHb_kept
    | with_reducible apply Kept.ite

end Sys2Proof.Machine
end

