-- ==== Sys2Proof/Laws/Kept/LoadOps.lean ====
section
/-!
SUPPORT. What the operations of Machine/LoadOps.lean keep.
-/

set_option Elab.async false
set_option linter.unusedTactic false
set_option linter.unreachableTactic false

namespace Sys2Proof.Machine

theorem State.updLs_kept {P : Part → Prop} [May P .out_] {s0 : State} {s : State} {c : Nat} {f : LsCh → LsCh} (hk : Kept P s0 s) :
    Kept P s0 (State.updLs s c f) := by
  unfold State.updLs
  try dsimp only
  repeat' first | with_reducible assumption | (with_reducible refine Kept.mk' rfl rfl rfl rfl rfl rfl ?_)

theorem State.updLt_kept {P : Part → Prop} [May P .out_] {s0 : State} {s : State} {n : Nat} {f : LoadTimer → LoadTimer} (hk : Kept P s0 s) :
    Kept P s0 (State.updLt s n f) := by
  unfold State.updLt
  try dsimp only
  repeat' first | with_reducible assumption | (with_reducible refine Kept.mk' rfl rfl rfl rfl rfl rfl ?_)

theorem State.lsSet_kept {P : Part → Prop} [May P .regs_] [May P .lost_] [May P .out_] {s0 : State} {s : State} {c : Nat} {on : Bool} (hk : Kept P s0 s) :
    Kept P s0 (State.lsSet s c on) := by
  unfold State.lsSet
  try dsimp only
  repeat' first
    | with_reducible assumption
    | with_reducible apply State.updLs_kept
    | with_reducible apply State.wrBit_kept
    | with_reducible apply State.wr_kept
    | with_reducible apply Kept.ite

theorem State.lsSync_kept {P : Part → Prop} [May P .regs_] [May P .lost_] [May P .out_] {s0 : State} {s : State} {c : Nat} (hk : Kept P s0 s) :
    Kept P s0 (State.lsSync s c) := by
  unfold State.lsSync
  try dsimp only
  repeat' first
    | with_reducible assumption
    | with_reducible apply State.lsSet_kept
    | with_reducible apply State.updLs_kept
    | with_reducible apply Kept.ite

theorem State.lsSyncAll_kept {P : Part → Prop} [May P .regs_] [May P .lost_] [May P .out_] {s0 : State} {s : State} (hk : Kept P s0 s) :
    Kept P s0 (State.lsSyncAll s) := by
  unfold State.lsSyncAll
  try dsimp only
  repeat' first | with_reducible assumption | with_reducible apply State.lsSync_kept | with_reducible apply Kept.foldl

theorem State.lsTrip_kept {P : Part → Prop} [May P .trip_] {s0 : State} {s : State} {src : Nat} {c : Nat} {on : Bool} (hk : Kept P s0 s) :
    Kept P s0 (State.lsTrip s src c on) := by
  unfold State.lsTrip
  try dsimp only
  repeat' first
    | with_reducible assumption
    | with_reducible apply State.stringSource_kept
    | with_reducible apply Kept.foldl
    | (intro _; intros; try dsimp only)

theorem State.lsLatch_kept {P : Part → Prop} [May P .regs_] [May P .lost_] [May P .led_] [May P .trip_] [May P .out_] {s0 : State} {s : State} {c : Nat} {cause : Nat} (hk : Kept P s0 s) :
    Kept P s0 (State.lsLatch s c cause) := by
  unfold State.lsLatch
  try dsimp only
  repeat' first
    | with_reducible assumption
    | with_reducible apply State.hit_kept
    | with_reducible apply State.lsSync_kept
    | with_reducible apply State.lsTrip_kept
    | with_reducible apply State.raise_kept
    | with_reducible apply State.updLs_kept
    | with_reducible apply State.wr_kept

theorem State.lsAccount_kept {P : Part → Prop} [May P .regs_] [May P .lost_] [May P .out_] {s0 : State} {s : State} {c : Nat} (hk : Kept P s0 s) :
    Kept P s0 (State.lsAccount s c) := by
  unfold State.lsAccount
  try dsimp only
  repeat' first
    | with_reducible assumption
    | with_reducible apply State.updLs_kept
    | with_reducible apply State.wr_kept

theorem State.lsClamp_kept {P : Part → Prop} [May P .regs_] [May P .lost_] [May P .led_] [May P .trip_] [May P .out_] {s0 : State} {s : State} {c : Nat} {vclamp : Nat} {dur : Nat} (hk : Kept P s0 s) :
    Kept P s0 (State.lsClamp s c vclamp dur) := by
  unfold State.lsClamp
  try dsimp only
  repeat' first
    | with_reducible assumption
    | with_reducible apply State.hit_kept
    | with_reducible apply State.lsAccount_kept
    | with_reducible apply State.lsLatch_kept
    | with_reducible apply State.raise_kept
    | with_reducible apply State.updLs_kept
    | with_reducible apply Kept.ite

theorem State.ltLoad_kept {P : Part → Prop} [May P .out_] {s0 : State} {s : State} {n : Nat} {start : Nat} (hk : Kept P s0 s) :
    Kept P s0 (State.ltLoad s n start) := by
  unfold State.ltLoad
  try dsimp only
  repeat' first | with_reducible assumption | with_reducible apply State.updLt_kept

theorem State.ltSync_kept {P : Part → Prop} [May P .regs_] [May P .lost_] [May P .out_] {s0 : State} {s : State} {n : Nat} (hk : Kept P s0 s) :
    Kept P s0 (State.ltSync s n) := by
  unfold State.ltSync
  try dsimp only
  repeat' first | with_reducible assumption | with_reducible apply State.lsSync_kept | with_reducible apply Kept.foldl

end Sys2Proof.Machine
end

