-- ==== Sys2Proof/Laws/Kept/Secure.lean ====
section
/-!
SUPPORT. What the operations of Machine/Secure.lean keep.
-/

set_option Elab.async false
set_option linter.unusedTactic false
set_option linter.unreachableTactic false

namespace Sys2Proof.Machine

theorem State.burnBit_kept {P : Part → Prop} [May P .boot_] {s0 : State} {s : State} {i : Nat} (hk : Kept P s0 s) : Kept P s0 (s.burnBit i) := by
  refine ⟨⟨hk.on.pending, fun j h => ?_⟩, fun i0 => ?_,
    hk.parts (Part.same_of rfl rfl (fun x _ _ _ _ h => by
      cases x <;> first | rfl | contradiction | exact absurd May.may h))⟩
  · show Tab.get false (Tab.set false s.boot.otp i true) j = true
    rw [Tab.get_set]
    split
    · rfl
    · exact hk.on.otp j h
  · have v := hk.inv i0
    exact ⟨v.mem, v.regs, v.pile, v.inbox⟩

end Sys2Proof.Machine
end

