-- ==== Sys2Proof/Laws/Kept/RegRead.lean ====
section
/-!
SUPPORT. What the operations of Machine/RegRead.lean keep.
-/

set_option Elab.async false
set_option linter.unusedTactic false
set_option linter.unreachableTactic false

namespace Sys2Proof.Machine

theorem State.drawChallenge_kept {P : Part → Prop} [May P .fresh_] [May P .regs_] [May P .lost_] [May P .boot_] {s0 : State} {s : State} (hk : Kept P s0 s) :
    Kept P s0 (State.drawChallenge s) := by
  unfold State.drawChallenge
  try dsimp only
  repeat' first
    | with_reducible assumption
    | with_reducible apply State.drew_kept
    | with_reducible apply State.setReg_kept
    | with_reducible apply Kept.foldl
    | (intro _; intros; try dsimp only)
    | (with_reducible refine Kept.mk' rfl rfl rfl rfl rfl rfl ?_)

theorem State.cursorRecord_kept {P : Part → Prop} [May P .regs_] [May P .lost_] {s0 : State} {s : State} (hk : Kept P s0 s) :
    Kept P s0 (State.cursorRecord s).2 := by
  unfold State.cursorRecord
  try dsimp only
  repeat' first
    | with_reducible assumption
    | with_reducible apply State.hit_kept
    | with_reducible apply State.setReg_kept
    | with_reducible apply Kept.ite
    | split

theorem State.winLatch_kept {P : Part → Prop} [May P .regs_] [May P .lost_] [May P .led_] {s0 : State} {s : State} (hk : Kept P s0 s) :
    Kept P s0 (State.winLatch s) := by
  unfold State.winLatch
  try dsimp only
  repeat' first
    | with_reducible assumption
    | with_reducible apply State.cursorRecord_kept
    | with_reducible apply State.setReg_kept
    | with_reducible apply Kept.foldl
    | (with_reducible refine Kept.of_snd ‹_› ?_)
    | (intro _; intros; try dsimp only)
    | split
    | (with_reducible refine Kept.mk' rfl rfl rfl rfl rfl rfl ?_)

theorem State.winAdvance_kept {P : Part → Prop} [May P .regs_] [May P .lost_] {s0 : State} {s : State} (hk : Kept P s0 s) :
    Kept P s0 (State.winAdvance s) := by
  unfold State.winAdvance
  try dsimp only
  repeat' first | with_reducible assumption | with_reducible apply State.setReg_kept | with_reducible apply Kept.ite

theorem State.preRead_kept {P : Part → Prop} [May P .fresh_] [May P .regs_] [May P .lost_] [May P .led_] [May P .boot_] {s0 : State} {s : State} {a : Nat} (hk : Kept P s0 s) :
    Kept P s0 (State.preRead s a) := by
  unfold State.preRead
  try dsimp only
  repeat' first
    | with_reducible assumption
    | with_reducible apply State.drawChallenge_kept
    | with_reducible apply State.drew_kept
    | with_reducible apply State.winLatch_kept
    | with_reducible apply State.wr_kept
    | with_reducible apply Kept.ite

theorem State.postRead_kept {P : Part → Prop} [May P .regs_] [May P .lost_] [May P .fab_] {s0 : State} {s : State} {r : RegRow} {a : Nat} (hk : Kept P s0 s) :
    Kept P s0 (State.postRead s r a) := by
  unfold State.postRead
  try dsimp only
  repeat' first
    | with_reducible assumption
    | with_reducible apply State.setReg_kept
    | with_reducible apply State.winAdvance_kept
    | with_reducible apply Kept.ite
    | split
    | (with_reducible refine Kept.mk' rfl rfl rfl rfl rfl rfl ?_)

theorem State.regRead_kept {P : Part → Prop} [May P .fresh_] [May P .regs_] [May P .lost_] [May P .fab_] [May P .led_] [May P .boot_] {s0 : State} {s : State} {r : RegRow} {a : Nat} (hk : Kept P s0 s) :
    Kept P s0 (State.regRead s r a).2 := by
  unfold State.regRead
  try dsimp only
  repeat' first
    | with_reducible assumption
    | with_reducible apply State.postRead_kept
    | with_reducible apply State.preRead_kept

theorem State.busRead_kept {P : Part → Prop} [May P .fresh_] [May P .regs_] [May P .lost_] [May P .fab_] [May P .led_] [May P .boot_] {s0 : State} {s : State} {a : Nat} (hk : Kept P s0 s) : Kept P s0 (s.busRead a).2 := by
  unfold State.busRead
  split
  · exact hk
  · split
    case h_6 =>
      split
      · split
        · exact State.regRead_kept hk
        · exact hk
      · exact hk
    case h_7 =>
      split
      · exact hk
      · split
        · split
          · exact Kept.mk' rfl rfl rfl rfl rfl rfl (State.qTake_kept ‹_› hk)
          · exact Kept.mk' rfl rfl rfl rfl rfl rfl hk
        · split <;> exact hk
    all_goals exact hk

end Sys2Proof.Machine
end

