-- ==== Sys2Proof/Laws/Kept/LifeOps.lean ====
section
/-!
SUPPORT. What the operations of Machine/LifeOps.lean keep.
-/

set_option Elab.async false
set_option linter.unusedTactic false
set_option linter.unreachableTactic false

namespace Sys2Proof.Machine

theorem State.updLife_kept {P : Part → Prop} [May P .led_] {s0 : State} {s : State} {f : Nat} {g : LifeCell → LifeCell} (hk : Kept P s0 s) :
    Kept P s0 (State.updLife s f g) := by
  unfold State.updLife
  try dsimp only
  repeat' first | with_reducible assumption | (with_reducible refine Kept.mk' rfl rfl rfl rfl rfl rfl ?_)

theorem State.startBatch_kept {P : Part → Prop} [May P .led_] {s0 : State} {s : State} (hk : Kept P s0 s) :
    Kept P s0 (State.startBatch s) := by
  unfold State.startBatch
  try dsimp only
  repeat' first
    | with_reducible assumption
    | with_reducible apply Kept.ite
    | split
    | (with_reducible refine Kept.mk' rfl rfl rfl rfl rfl rfl ?_)

theorem State.lifeCommit_kept {P : Part → Prop} [May P .led_] {s0 : State} {s : State} {f : Nat} (hk : Kept P s0 s) :
    Kept P s0 (State.lifeCommit s f) := by
  unfold State.lifeCommit
  try dsimp only
  repeat' first
    | with_reducible assumption
    | with_reducible apply State.startBatch_kept
    | with_reducible apply Kept.ite
    | split
    | (with_reducible refine Kept.mk' rfl rfl rfl rfl rfl rfl ?_)

theorem State.lifeSection_kept {P : Part → Prop} [May P .led_] {s0 : State} {s : State} (hk : Kept P s0 s) :
    Kept P s0 (State.lifeSection s) := by
  unfold State.lifeSection
  try dsimp only
  repeat' first
    | with_reducible assumption
    | with_reducible apply State.startBatch_kept
    | with_reducible apply Kept.ite
    | split
    | (with_reducible refine Kept.mk' rfl rfl rfl rfl rfl rfl ?_)

theorem State.lifeVolt_kept {P : Part → Prop} [May P .led_] {s0 : State} {s : State} {f : Nat} {v : Nat} (hk : Kept P s0 s) :
    Kept P s0 (State.lifeVolt s f v) := by
  unfold State.lifeVolt
  try dsimp only
  repeat' first
    | with_reducible assumption
    | with_reducible apply State.lifeCommit_kept
    | with_reducible apply State.updLife_kept
    | with_reducible apply Kept.ite

theorem State.lifeVerdict_kept {P : Part → Prop} [May P .led_] {s0 : State} {s : State} {src : Nat} {f : Nat} (hk : Kept P s0 s) :
    Kept P s0 (State.lifeVerdict s src f) := by
  unfold State.lifeVerdict
  try dsimp only
  repeat' first
    | with_reducible assumption
    | with_reducible apply State.lifeCommit_kept
    | with_reducible apply State.updLife_kept
    | with_reducible apply Kept.ite

end Sys2Proof.Machine
end

