-- ==== Sys2Proof/Laws/Kept/LedgerOps.lean ====
section
/-!
SUPPORT. What the operations of Machine/LedgerOps.lean keep.
-/

set_option Elab.async false
set_option linter.unusedTactic false
set_option linter.unreachableTactic false

namespace Sys2Proof.Machine

theorem State.mramWrite_kept {P : Part → Prop} [May P .mem_] [May P .fab_] {s0 : State} {s : State} {a : Nat} {bs : List Nat} (hk : Kept P s0 s) :
    Kept P s0 (State.mramWrite s a bs) := by
  unfold State.mramWrite
  try dsimp only
  repeat' first
    | with_reducible assumption
    | with_reducible apply State.count_kept
    | with_reducible apply State.setPoison_kept
    | with_reducible apply State.storeBytes_kept
    | with_reducible apply Kept.foldl
    | (intro _; intros; try dsimp only)

theorem State.remapRow_kept {P : Part → Prop} [May P .regs_] [May P .lost_] [May P .led_] {s0 : State} {s : State} {row : Nat} (hk : Kept P s0 s) :
    Kept P s0 (State.remapRow s row) := by
  unfold State.remapRow
  try dsimp only
  repeat' first
    | with_reducible assumption
    | with_reducible apply State.hit_kept
    | with_reducible apply State.raise_kept
    | with_reducible apply State.wr_kept
    | with_reducible apply Kept.ite
    | split
    | (with_reducible refine Kept.mk' rfl rfl rfl rfl rfl rfl ?_)

theorem State.collect_kept {P : Part → Prop} [May P .regs_] [May P .lost_] [May P .led_] {s0 : State} {s : State} {blk : Nat} (hk : Kept P s0 s) : Kept P s0 (s.collect blk) := by
  have empty : ∀ (s : State) (x : Nat × List EvRec), Kept P s0 s →
      Kept P s0 { s with led := { s.led with pile := Tab.set [] s.led.pile x.1 [] } } := by
    intro s x k
    refine ⟨⟨k.on.pending, k.on.otp⟩, fun i0 => ?_,
      k.parts (Part.same_of rfl rfl (fun x _ _ _ _ h => by
      cases x <;> first | rfl | contradiction | exact absurd May.may h))⟩
    have i := k.inv i0
    refine ⟨i.mem, i.regs, fun src => ?_, i.inbox⟩
    show (Tab.get [] (Tab.set [] s.led.pile x.1 []) src).length ≤ 8
    rw [Tab.get_set]
    split
    · exact Nat.zero_le _
    · exact i.pile src
  unfold State.collect
  refine Kept.foldl (fun s e k => ?_) (Kept.foldl empty hk)
  dsimp only
  exact Kept.ite (State.hit_kept (Kept.mk' rfl rfl rfl rfl rfl rfl k)) (Kept.mk' rfl rfl rfl rfl rfl rfl k)

theorem State.bucketOf_kept {P : Part → Prop} [May P .lost_] [May P .led_] {s0 : State} {s : State} {code : Nat} {sev : Nat} (hk : Kept P s0 s) :
    Kept P s0 (State.bucketOf s code sev).2 := by
  unfold State.bucketOf
  try dsimp only
  repeat' first
    | with_reducible assumption
    | with_reducible apply State.raise_kept
    | with_reducible apply Kept.ite
    | split
    | (with_reducible refine Kept.mk' rfl rfl rfl rfl rfl rfl ?_)

theorem State.bucketPass_kept {P : Part → Prop} [May P .lost_] [May P .led_] {s0 : State} {s : State} {code : Nat} {sev : Nat} (hk : Kept P s0 s) :
    Kept P s0 (State.bucketPass s code sev).2 := by
  unfold State.bucketPass
  try dsimp only
  repeat' first
    | with_reducible assumption
    | with_reducible apply State.bucketOf_kept
    | with_reducible apply Kept.ite
    | (with_reducible refine Kept.of_snd ‹_› ?_)
    | split
    | (with_reducible refine Kept.mk' rfl rfl rfl rfl rfl rfl ?_)

theorem State.countsRode_kept {P : Part → Prop} [May P .led_] {s0 : State} {s : State} {e : EvRec} (hk : Kept P s0 s) :
    Kept P s0 (State.countsRode s e) := by
  unfold State.countsRode
  try dsimp only
  repeat' first | with_reducible assumption | (with_reducible refine Kept.mk' rfl rfl rfl rfl rfl rfl ?_)

theorem State.writeRecord_kept {P : Part → Prop} [May P .regs_] [May P .lost_] [May P .mem_] [May P .fab_] [May P .led_] {s0 : State} {s : State} {e : EvRec} (hk : Kept P s0 s) :
    Kept P s0 (State.writeRecord s e) := by
  unfold State.writeRecord
  try dsimp only
  repeat' first
    | with_reducible assumption
    | with_reducible apply State.count_kept
    | with_reducible apply State.countsRode_kept
    | with_reducible apply State.mramWrite_kept
    | with_reducible apply State.wr_kept
    | with_reducible apply Kept.ite
    | split
    | (with_reducible refine Kept.mk' rfl rfl rfl rfl rfl rfl ?_)

theorem State.snapWords_kept {P : Part → Prop} [May P .fresh_] [May P .regs_] [May P .lost_] [May P .fab_] [May P .led_] [May P .boot_] {s0 : State} {s : State} {k n j : Nat} (hk : Kept P s0 s) :
    Kept P s0 (s.snapWords k n j).2 := by
  induction n generalizing s j with
  | zero => exact hk
  | succ n ih =>
    unfold State.snapWords
    dsimp only
    split
    · exact hk
    · exact ih (State.busRead_kept hk)

theorem State.snapshot_kept {P : Part → Prop} [May P .fresh_] [May P .regs_] [May P .lost_] [May P .mem_] [May P .fab_] [May P .led_] [May P .boot_] {s0 : State} {s : State} {k : Nat} (hk : Kept P s0 s) :
    Kept P s0 (State.snapshot s k) := by
  unfold State.snapshot
  try dsimp only
  repeat' first
    | with_reducible assumption
    | with_reducible apply State.snapWords_kept
    | with_reducible apply State.writeRecord_kept

theorem State.persist_kept {P : Part → Prop} [May P .fresh_] [May P .regs_] [May P .lost_] [May P .mem_] [May P .fab_] [May P .led_] [May P .boot_] {s0 : State} {s : State} {e : EvRec} (hk : Kept P s0 s) :
    Kept P s0 (State.persist s e) := by
  unfold State.persist
  try dsimp only
  repeat' first
    | with_reducible assumption
    | with_reducible apply State.snapshot_kept
    | with_reducible apply State.writeRecord_kept
    | with_reducible apply Kept.foldl

theorem State.persistOwn_kept {P : Part → Prop} [May P .fresh_] [May P .regs_] [May P .lost_] [May P .mem_] [May P .fab_] [May P .led_] [May P .boot_] {s0 : State} {s : State} {src : Nat} {code : Nat} {words : List Nat} (hk : Kept P s0 s) :
    Kept P s0 (State.persistOwn s src code words) := by
  unfold State.persistOwn
  try dsimp only
  repeat' first | with_reducible assumption | with_reducible apply State.persist_kept

theorem State.markSent_kept {P : Part → Prop} [May P .led_] {s0 : State} {s : State} {blk : Nat} {e : EvRec} (hk : Kept P s0 s) :
    Kept P s0 (State.markSent s blk e) := by
  unfold State.markSent
  try dsimp only
  repeat' first | with_reducible assumption | (with_reducible refine Kept.mk' rfl rfl rfl rfl rfl rfl ?_)

theorem State.receive_kept {P : Part → Prop} [May P .regs_] [May P .lost_] [May P .fab_] [May P .led_] {s0 : State} {s : State} {blk : Nat} (hk : Kept P s0 s) :
    Kept P s0 (State.receive s blk) := by
  unfold State.receive
  try dsimp only
  repeat' first
    | with_reducible assumption
    | with_reducible apply State.bucketPass_kept
    | with_reducible apply State.count_kept
    | with_reducible apply State.hit_kept
    | with_reducible apply State.markSent_kept
    | with_reducible apply Kept.ite
    | (with_reducible refine Kept.of_snd ‹_› ?_)
    | split
    | (with_reducible refine Kept.mk' rfl rfl rfl rfl rfl rfl ?_)

theorem State.persistNext_kept {P : Part → Prop} [May P .fresh_] [May P .regs_] [May P .lost_] [May P .mem_] [May P .fab_] [May P .led_] [May P .boot_] {s0 : State} {s : State} (hk : Kept P s0 s) :
    Kept P s0 (State.persistNext s) := by
  unfold State.persistNext
  try dsimp only
  repeat' first
    | with_reducible assumption
    | with_reducible apply State.persist_kept
    | split
    | (with_reducible refine Kept.mk' rfl rfl rfl rfl rfl rfl ?_)

theorem State.persistAll_kept {P : Part → Prop} [May P .fresh_] [May P .regs_] [May P .lost_] [May P .mem_] [May P .fab_] [May P .led_] [May P .boot_] {s0 : State} {s : State} (hk : Kept P s0 s) :
    Kept P s0 (State.persistAll s) := by
  unfold State.persistAll
  try dsimp only
  repeat' first
    | with_reducible assumption
    | with_reducible apply State.persistNext_kept
    | with_reducible apply Kept.foldl
    | (intro _; intros; try dsimp only)

theorem State.drainEvents_kept {P : Part → Prop} [May P .fresh_] [May P .regs_] [May P .lost_] [May P .mem_] [May P .fab_] [May P .led_] [May P .boot_] {s0 : State} {s : State} (hk : Kept P s0 s) :
    Kept P s0 (State.drainEvents s) := by
  unfold State.drainEvents
  try dsimp only
  repeat' first
    | with_reducible assumption
    | with_reducible apply State.collect_kept
    | with_reducible apply State.persistAll_kept
    | with_reducible apply State.receive_kept
    | with_reducible apply Kept.foldl
    | with_reducible apply Kept.ite
    | (intro _; intros; try dsimp only)

theorem State.changeLog_kept {P : Part → Prop} [May P .fresh_] [May P .regs_] [May P .lost_] [May P .mem_] [May P .fab_] [May P .led_] [May P .boot_] {s0 : State} {s : State} {a : Nat} {old : Nat} {new : Nat} {src : Nat} {slot : Nat} {mram : Bool} (hk : Kept P s0 s) :
    Kept P s0 (State.changeLog s a old new src slot mram) := by
  unfold State.changeLog
  try dsimp only
  repeat' first
    | with_reducible assumption
    | with_reducible apply State.mramWrite_kept
    | with_reducible apply State.persistOwn_kept
    | (with_reducible refine Kept.mk' rfl rfl rfl rfl rfl rfl ?_)

theorem State.sectionWrite_kept {P : Part → Prop} [May P .mem_] [May P .fab_] {s0 : State} {s : State} {o : Nat} {bs : List Nat} (hk : Kept P s0 s) :
    Kept P s0 (State.sectionWrite s o bs) := by
  unfold State.sectionWrite
  try dsimp only
  repeat' first | with_reducible assumption | with_reducible apply State.mramWrite_kept

end Sys2Proof.Machine
end

