-- ==== Sys2Proof/Laws/Kept/LifeStore.lean ====
section
/-!
SUPPORT. What the operations of Machine/LifeStore.lean keep.
-/

set_option Elab.async false
set_option linter.unusedTactic false
set_option linter.unreachableTactic false

namespace Sys2Proof.Machine

theorem State.useSync_kept {P : Part → Prop} [May P .regs_] [May P .lost_] {s0 : State} {s : State} (hk : Kept P s0 s) :
    Kept P s0 (State.useSync s) := by
  unfold State.useSync
  try dsimp only
  repeat' first | with_reducible assumption | with_reducible apply State.wr_kept

theorem State.cellLost_kept {P : Part → Prop} [May P .regs_] [May P .lost_] [May P .mem_] [May P .fab_] [May P .led_] {s0 : State} {s : State} {f : Nat} (hk : Kept P s0 s) :
    Kept P s0 (State.cellLost s f) := by
  unfold State.cellLost
  try dsimp only
  repeat' first
    | with_reducible assumption
    | with_reducible apply State.mramWrite_kept
    | with_reducible apply State.raise_kept
    | with_reducible apply State.updLife_kept
    | with_reducible apply State.useSync_kept

theorem State.cellDone_kept {P : Part → Prop} [May P .led_] {s0 : State} {s : State} {f : Nat} (hk : Kept P s0 s) :
    Kept P s0 (State.cellDone s f) := by
  unfold State.cellDone
  try dsimp only
  repeat' first | with_reducible assumption | with_reducible apply State.updLife_kept

theorem State.sectionCommit_kept {P : Part → Prop} [May P .mem_] [May P .fab_] {s0 : State} {s : State} (hk : Kept P s0 s) :
    Kept P s0 (State.sectionCommit s) := by
  unfold State.sectionCommit
  try dsimp only
  repeat' first | with_reducible assumption | with_reducible apply State.mramWrite_kept

theorem State.redoWrite_kept {P : Part → Prop} [May P .mem_] [May P .fab_] {s0 : State} {s : State} {units : List (Nat × List Nat)} (hk : Kept P s0 s) :
    Kept P s0 (State.redoWrite s units) := by
  unfold State.redoWrite
  try dsimp only
  repeat' first
    | with_reducible assumption
    | with_reducible apply State.mramWrite_kept
    | with_reducible apply Kept.foldl
    | (intro _; intros; try dsimp only)

theorem State.redoApply_kept {P : Part → Prop} [May P .mem_] [May P .fab_] [May P .led_] {s0 : State} {s : State} {units : List (Nat × List Nat)} (hk : Kept P s0 s) :
    Kept P s0 (State.redoApply s units) := by
  unfold State.redoApply
  try dsimp only
  repeat' first
    | with_reducible assumption
    | with_reducible apply State.mramWrite_kept
    | with_reducible apply Kept.foldl
    | (intro _; intros; try dsimp only)
    | (with_reducible refine Kept.mk' rfl rfl rfl rfl rfl rfl ?_)

theorem State.mendBatch_kept {P : Part → Prop} [May P .regs_] [May P .lost_] [May P .mem_] [May P .fab_] [May P .led_] {s0 : State} {s : State} {b : List Nat × Bool} (hk : Kept P s0 s) :
    Kept P s0 (State.mendBatch s b) := by
  unfold State.mendBatch
  try dsimp only
  repeat' first
    | with_reducible assumption
    | with_reducible apply State.cellLost_kept
    | with_reducible apply Kept.foldl
    | with_reducible apply Kept.ite
    | (intro _; intros; try dsimp only)

theorem State.batchDone_kept {P : Part → Prop} [May P .regs_] [May P .lost_] [May P .mem_] [May P .fab_] [May P .led_] {s0 : State} {s : State} (hk : Kept P s0 s) :
    Kept P s0 (State.batchDone s) := by
  unfold State.batchDone
  try dsimp only
  repeat' first
    | with_reducible assumption
    | with_reducible apply State.cellDone_kept
    | with_reducible apply State.mendBatch_kept
    | with_reducible apply State.redoApply_kept
    | with_reducible apply State.redoWrite_kept
    | with_reducible apply State.startBatch_kept
    | with_reducible apply Kept.foldl
    | split
    | (with_reducible refine Kept.mk' rfl rfl rfl rfl rfl rfl ?_)

theorem State.rollStart_kept {P : Part → Prop} [May P .led_] {s0 : State} {s : State} (hk : Kept P s0 s) :
    Kept P s0 (State.rollStart s) := by
  unfold State.rollStart
  try dsimp only
  repeat' first
    | with_reducible assumption
    | with_reducible apply State.startBatch_kept
    | with_reducible apply State.updLife_kept
    | with_reducible apply Kept.foldl
    | (intro _; intros; try dsimp only)
    | (with_reducible refine Kept.mk' rfl rfl rfl rfl rfl rfl ?_)

theorem State.retire_kept {P : Part → Prop} [May P .fresh_] [May P .regs_] [May P .lost_] [May P .mem_] [May P .fab_] [May P .led_] [May P .boot_] {s0 : State} {s : State} {f : Nat} (hk : Kept P s0 s) :
    Kept P s0 (State.retire s f) := by
  unfold State.retire
  try dsimp only
  repeat' first
    | with_reducible assumption
    | with_reducible apply State.mramWrite_kept
    | with_reducible apply State.persistOwn_kept
    | (with_reducible refine Kept.mk' rfl rfl rfl rfl rfl rfl ?_)

theorem State.lifeNode_kept {P : Part → Prop} [May P .fresh_] [May P .regs_] [May P .lost_] [May P .mem_] [May P .fab_] [May P .led_] [May P .boot_] {s0 : State} {s : State} {p : Nat} {q : Nat} (hk : Kept P s0 s) :
    Kept P s0 (State.lifeNode s p q) := by
  unfold State.lifeNode
  try dsimp only
  repeat' first
    | with_reducible assumption
    | with_reducible apply State.mramWrite_kept
    | with_reducible apply State.raise_kept
    | with_reducible apply State.retire_kept
    | with_reducible apply State.updLife_kept
    | with_reducible apply State.useSync_kept
    | with_reducible apply Kept.foldl
    | with_reducible apply Kept.ite
    | (intro _; intros; try dsimp only)

theorem State.lifeSerial_kept {P : Part → Prop} [May P .fresh_] [May P .regs_] [May P .lost_] [May P .mem_] [May P .fab_] [May P .led_] [May P .lnk_] [May P .boot_] {s0 : State} {s : State} {p : Nat} {q : Nat} (hk : Kept P s0 s) :
    Kept P s0 (State.lifeSerial s p q) := by
  unfold State.lifeSerial
  try dsimp only
  repeat' first
    | with_reducible assumption
    | with_reducible apply State.lifeNode_kept
    | with_reducible apply Kept.ite
    | split
    | (with_reducible refine Kept.mk' rfl rfl rfl rfl rfl rfl ?_)

theorem State.lifeStart_kept {P : Part → Prop} [May P .fresh_] [May P .regs_] [May P .lost_] [May P .mem_] [May P .fab_] [May P .led_] [May P .lnk_] [May P .boot_] {s0 : State} {s : State} (hk : Kept P s0 s) :
    Kept P s0 (State.lifeStart s) := by
  unfold State.lifeStart
  try dsimp only
  repeat' first
    | with_reducible assumption
    | with_reducible apply State.lifeNode_kept
    | with_reducible apply Kept.foldl
    | (intro _; intros; try dsimp only)
    | (with_reducible refine Kept.mk' rfl rfl rfl rfl rfl rfl ?_)

theorem State.stateCell_kept {P : Part → Prop} [May P .led_] {s0 : State} {s : State} {f : Nat} {time : Nat} {soc : Nat} {temp : Int} {bal : Nat} (hk : Kept P s0 s) :
    Kept P s0 (State.stateCell s f time soc temp bal) := by
  unfold State.stateCell
  try dsimp only
  repeat' first
    | with_reducible assumption
    | with_reducible apply State.lifeCommit_kept
    | with_reducible apply State.updLife_kept
    | with_reducible apply Kept.ite

theorem State.lifeBlock_kept {P : Part → Prop} [May P .lost_] [May P .led_] {s0 : State} {s : State} {a : Nat} {tag : Nat} (hk : Kept P s0 s) :
    Kept P s0 (State.lifeBlock s a tag) := by
  unfold State.lifeBlock
  try dsimp only
  repeat' first
    | with_reducible assumption
    | with_reducible apply State.raise_kept
    | with_reducible apply State.stateCell_kept
    | with_reducible apply State.updLife_kept
    | with_reducible apply Kept.foldl
    | with_reducible apply Kept.ite
    | (intro _; intros; try dsimp only)

theorem State.lifeInput_kept {P : Part → Prop} [May P .regs_] [May P .lost_] [May P .fab_] [May P .inbox_] [May P .led_] {s0 : State} {s : State} (hk : Kept P s0 s) :
    Kept P s0 (State.lifeInput s) := by
  unfold State.lifeInput
  try dsimp only
  repeat' first
    | with_reducible assumption
    | with_reducible apply State.lifeBlock_kept
    | with_reducible apply State.qPutHw_kept
    | with_reducible apply State.raise_kept
    | with_reducible apply Kept.ite
    | (with_reducible refine State.qTake_kept ‹_› ?_)
    | split

end Sys2Proof.Machine
end

