-- ==== Sys2Proof/Laws/Kept/Journal.lean ====
section
/-!
SUPPORT. What the operations of Machine/Journal.lean keep.
-/

set_option Elab.async false
set_option linter.unusedTactic false
set_option linter.unreachableTactic false

namespace Sys2Proof.Machine

theorem State.discardStores_kept {P : Part → Prop} [May P .mem_] [May P .fab_] [May P .grains_] {s0 : State} {s : State} (hk : Kept P s0 s) :
    Kept P s0 (State.discardStores s) := by
  unfold State.discardStores
  try dsimp only
  repeat' first
    | with_reducible assumption
    | with_reducible apply State.storeLE_kept
    | with_reducible apply State.updGrain_kept
    | with_reducible apply Kept.foldl
    | (intro _; intros; try dsimp only)
    | split
    | (with_reducible refine Kept.mk' rfl rfl rfl rfl rfl rfl ?_)
    | rfl

theorem State.commitEnter_kept {P : Part → Prop} [May P .mem_] [May P .fab_] [May P .grains_] [May P .led_] {s0 : State} {s : State} (hk : Kept P s0 s) :
    Kept P s0 (State.commitEnter s) := by
  unfold State.commitEnter
  try dsimp only
  repeat' first
    | with_reducible assumption
    | with_reducible apply State.discardStores_kept
    | with_reducible apply Kept.foldl
    | (with_reducible refine Kept.mk' rfl rfl rfl rfl rfl rfl ?_)

theorem State.commitTrigger_kept {P : Part → Prop} [May P .mem_] [May P .fab_] [May P .grains_] [May P .led_] {s0 : State} {s : State} (hk : Kept P s0 s) :
    Kept P s0 (State.commitTrigger s) := by
  unfold State.commitTrigger
  try dsimp only
  repeat' first
    | with_reducible assumption
    | with_reducible apply State.commitEnter_kept
    | with_reducible apply Kept.ite
    | split
    | (with_reducible refine Kept.mk' rfl rfl rfl rfl rfl rfl ?_)

theorem State.journalWrite_kept {P : Part → Prop} [May P .mem_] [May P .fab_] [May P .led_] {s0 : State} {s : State} (hk : Kept P s0 s) :
    Kept P s0 (State.journalWrite s) := by
  unfold State.journalWrite
  try dsimp only
  repeat' first
    | with_reducible assumption
    | with_reducible apply State.mramWrite_kept
    | with_reducible apply Kept.foldl
    | (intro _; intros; try dsimp only)
    | (with_reducible refine Kept.mk' rfl rfl rfl rfl rfl rfl ?_)

theorem State.commitFinish_kept {P : Part → Prop} [May P .fresh_] [May P .regs_] [May P .lost_] [May P .mem_] [May P .fab_] [May P .led_] [May P .boot_] {s0 : State} {s : State} (hk : Kept P s0 s) :
    Kept P s0 (State.commitFinish s) := by
  unfold State.commitFinish
  try dsimp only
  repeat' first
    | with_reducible assumption
    | with_reducible apply State.journalWrite_kept
    | with_reducible apply State.persistAll_kept
    | with_reducible apply State.persistOwn_kept
    | with_reducible apply Kept.ite
    | split
    | (with_reducible refine Kept.mk' rfl rfl rfl rfl rfl rfl ?_)

theorem State.psClose_kept {P : Part → Prop} [May P .regs_] [May P .lost_] [May P .mem_] [May P .fab_] [May P .led_] {s0 : State} {s : State} (hk : Kept P s0 s) :
    Kept P s0 (State.psClose s) := by
  unfold State.psClose
  try dsimp only
  repeat' first
    | with_reducible assumption
    | with_reducible apply State.mendBatch_kept
    | with_reducible apply State.mramWrite_kept
    | with_reducible apply State.redoWrite_kept
    | with_reducible apply Kept.ite
    | split

theorem State.redoRecover_kept {P : Part → Prop} [May P .mem_] [May P .fab_] {s0 : State} {s : State} (hk : Kept P s0 s) :
    Kept P s0 (State.redoRecover s).1 := by
  unfold State.redoRecover
  try dsimp only
  repeat' first
    | with_reducible assumption
    | with_reducible apply State.mramWrite_kept
    | with_reducible apply Kept.foldl
    | (intro _; intros; try dsimp only)
    | split

theorem State.findHeads_kept {P : Part → Prop} [May P .regs_] [May P .lost_] [May P .led_] {s0 : State} {s : State} (hk : Kept P s0 s) :
    Kept P s0 (State.findHeads s) := by
  unfold State.findHeads
  try dsimp only
  repeat' first
    | with_reducible assumption
    | with_reducible apply State.wr_kept
    | split
    | (with_reducible refine Kept.mk' rfl rfl rfl rfl rfl rfl ?_)

theorem State.lifeLoad_kept {P : Part → Prop} [May P .regs_] [May P .lost_] [May P .mem_] [May P .fab_] [May P .led_] [May P .trip_] {s0 : State} {s : State} (hk : Kept P s0 s) :
    Kept P s0 (State.lifeLoad s) := by
  unfold State.lifeLoad
  try dsimp only
  repeat' first
    | with_reducible assumption
    | with_reducible apply State.cellLost_kept
    | with_reducible apply State.updLife_kept
    | with_reducible apply State.useSync_kept
    | with_reducible apply Kept.foldl
    | with_reducible apply Kept.ite
    | (intro _; intros; try dsimp only)
    | split
    | (with_reducible refine Kept.mk' rfl rfl rfl rfl rfl rfl ?_)

theorem State.lossInfer_kept {P : Part → Prop} [May P .trip_] {s0 : State} {s : State} {n : Nat} {complete : Bool} {i : Nat} (hk : Kept P s0 s) :
    Kept P s0 (State.lossInfer s n complete i) := by
  unfold State.lossInfer
  try dsimp only
  repeat' first
    | with_reducible assumption
    | with_reducible apply Kept.ite
    | split
    | (with_reducible refine Kept.mk' rfl rfl rfl rfl rfl rfl ?_)

theorem State.heldOpening_kept {P : Part → Prop} [May P .trip_] {s0 : State} {s : State} {n : Nat} (hk : Kept P s0 s) :
    Kept P s0 (State.heldOpening s n) := by
  unfold State.heldOpening
  try dsimp only
  repeat' first | with_reducible assumption | (with_reducible refine Kept.mk' rfl rfl rfl rfl rfl rfl ?_)

theorem State.inferAll_kept {P : Part → Prop} [May P .lost_] [May P .led_] [May P .trip_] {s0 : State} {s : State} {complete : Bool} {rec_ : Nat → Nat × Int} (hk : Kept P s0 s) :
    Kept P s0 (State.inferAll s complete rec_) := by
  unfold State.inferAll
  try dsimp only
  repeat' first
    | with_reducible assumption
    | with_reducible apply State.lossInfer_kept
    | with_reducible apply State.raise_kept
    | with_reducible apply Kept.foldl
    | with_reducible apply Kept.ite
    | (intro _; intros; try dsimp only)

theorem State.applyCell_kept {P : Part → Prop} [May P .mem_] [May P .fab_] {s0 : State} {s : State} {f : Nat} (hk : Kept P s0 s) :
    Kept P s0 (State.applyCell s f) := by
  unfold State.applyCell
  try dsimp only
  repeat' first
    | with_reducible assumption
    | with_reducible apply State.mramWrite_kept
    | with_reducible apply Kept.ite

theorem State.journalRecover_kept {P : Part → Prop} [May P .lost_] [May P .mem_] [May P .fab_] [May P .led_] [May P .trip_] {s0 : State} {s : State} (hk : Kept P s0 s) :
    Kept P s0 (State.journalRecover s).1 := by
  unfold State.journalRecover
  try dsimp only
  repeat' first
    | with_reducible assumption
    | with_reducible apply State.applyCell_kept
    | with_reducible apply State.inferAll_kept
    | with_reducible apply State.mramWrite_kept
    | with_reducible apply State.raise_kept
    | with_reducible apply Kept.foldl
    | with_reducible apply Kept.ite
    | split
    | (with_reducible refine Kept.mk' rfl rfl rfl rfl rfl rfl ?_)

theorem State.bootRecovery_kept {P : Part → Prop} [May P .fresh_] [May P .regs_] [May P .lost_] [May P .mem_] [May P .fab_] [May P .led_] [May P .trip_] [May P .boot_] [May P .sv_] {s0 : State} {s : State} (hk : Kept P s0 s) :
    Kept P s0 (State.bootRecovery s) := by
  unfold State.bootRecovery
  try dsimp only
  repeat' first
    | with_reducible assumption
    | with_reducible apply State.findHeads_kept
    | with_reducible apply State.heldOpening_kept
    | with_reducible apply State.journalRecover_kept
    | with_reducible apply State.lifeLoad_kept
    | with_reducible apply State.mramWrite_kept
    | with_reducible apply State.persistOwn_kept
    | with_reducible apply State.redoRecover_kept
    | with_reducible apply State.startBatch_kept
    | with_reducible apply State.wr_kept
    | with_reducible apply Kept.foldl
    | with_reducible apply Kept.ite
    | (with_reducible refine Kept.of_fst ‹_› ?_)
    | (intro _; intros; try dsimp only)
    | split
    | (with_reducible refine Kept.mk' rfl rfl rfl rfl rfl rfl ?_)

end Sys2Proof.Machine
end

