-- ==== Sys2Proof/Laws/Kept/Checker.lean ====
section
/-!
SUPPORT. What the operations of Machine/Checker.lean keep.
-/

set_option Elab.async false
set_option linter.unusedTactic false
set_option linter.unreachableTactic false

namespace Sys2Proof.Machine

theorem State.applyChecks_kept {P : Part → Prop} [May P .lost_] [May P .fab_] [May P .led_] [May P .lnk_] [May P .trip_] {s0 : State} {s : State} {k : Nat} {p : Nat} {q : Nat} {cs : List Check} (hk : Kept P s0 s) :
    Kept P s0 (State.applyChecks s k p q cs) := by
  unfold State.applyChecks
  try dsimp only
  repeat' first
    | with_reducible assumption
    | with_reducible apply State.count_kept
    | with_reducible apply State.lifeVerdict_kept
    | with_reducible apply State.raise_kept
    | with_reducible apply State.updPos_kept
    | with_reducible apply State.verdict_kept
    | with_reducible apply Kept.foldl
    | with_reducible apply Kept.ite
    | (intro _; intros; try dsimp only)

theorem State.groupEvents_kept {P : Part → Prop} [May P .lost_] [May P .led_] [May P .lnk_] [May P .trip_] {s0 : State} {s : State} {k : Nat} {p : Nat} {q : Nat} (hk : Kept P s0 s) :
    Kept P s0 (State.groupEvents s k p q) := by
  unfold State.groupEvents
  try dsimp only
  repeat' first
    | with_reducible assumption
    | with_reducible apply State.nodeSource_kept
    | with_reducible apply State.raise_kept
    | with_reducible apply State.updPos_kept
    | with_reducible apply Kept.foldl
    | with_reducible apply Kept.ite
    | (intro _; intros; try dsimp only)

theorem State.signatureTest_kept {P : Part → Prop} [May P .lost_] [May P .fab_] [May P .led_] [May P .lnk_] [May P .trip_] {s0 : State} {s : State} {k : Nat} {p : Nat} {q : Nat} {body : List Nat} (hk : Kept P s0 s) :
    Kept P s0 (State.signatureTest s k p q body) := by
  unfold State.signatureTest
  try dsimp only
  repeat' first
    | with_reducible assumption
    | with_reducible apply State.applyChecks_kept
    | with_reducible apply State.raise_kept
    | with_reducible apply State.updEng_kept
    | with_reducible apply State.updPos_kept
    | with_reducible apply Kept.foldl
    | with_reducible apply Kept.ite
    | (intro _; intros; try dsimp only)

theorem State.balOffNode_kept {P : Part → Prop} [May P .fab_] [May P .lnk_] {s0 : State} {s : State} {k : Nat} {p : Nat} {q : Nat} (hk : Kept P s0 s) :
    Kept P s0 (State.balOffNode s k p q) := by
  unfold State.balOffNode
  try dsimp only
  repeat' first | with_reducible assumption | with_reducible apply State.engSend_kept

theorem State.owtActLine_kept {P : Part → Prop} [May P .regs_] [May P .lost_] [May P .fab_] [May P .led_] [May P .lnk_] [May P .trip_] {s0 : State} {s : State} {k : Nat} {p : Nat} {q : Nat} {n : Nat} {body : List Nat} {line : Nat} (hk : Kept P s0 s) :
    Kept P s0 (State.owtActLine s k p q n body line) := by
  unfold State.owtActLine
  try dsimp only
  repeat' first
    | with_reducible assumption
    | with_reducible apply State.balOffNode_kept
    | with_reducible apply State.nodeSource_kept
    | with_reducible apply State.raise_kept
    | with_reducible apply State.updPos_kept
    | with_reducible apply State.wrBit_kept
    | with_reducible apply Kept.ite
    | split

theorem State.owtDecide_kept {P : Part → Prop} [May P .regs_] [May P .lost_] [May P .fab_] [May P .led_] [May P .lnk_] [May P .trip_] {s0 : State} {s : State} {k : Nat} {p : Nat} {q : Nat} {body : List Nat} {mask : Nat} (hk : Kept P s0 s) :
    Kept P s0 (State.owtDecide s k p q body mask) := by
  unfold State.owtDecide
  try dsimp only
  repeat' first
    | with_reducible assumption
    | with_reducible apply State.nodeSource_kept
    | with_reducible apply State.owtActLine_kept
    | with_reducible apply State.updPos_kept
    | with_reducible apply State.wr_kept
    | with_reducible apply Kept.foldl
    | with_reducible apply Kept.ite
    | (intro _; intros; try dsimp only)

end Sys2Proof.Machine
end

