-- ==== Sys2Proof/Laws/Kept/RegOps.lean ====
section
/-!
SUPPORT. What the operations of Machine/RegOps.lean keep.
-/

set_option Elab.async false
set_option linter.unusedTactic false
set_option linter.unreachableTactic false

namespace Sys2Proof.Machine

theorem State.updRstr_kept {P : Part → Prop} [May P .regu_] {s0 : State} {s : State} {r : Nat} {f : RegStr → RegStr} (hk : Kept P s0 s) :
    Kept P s0 (State.updRstr s r f) := by
  unfold State.updRstr
  try dsimp only
  repeat' first | with_reducible assumption | (with_reducible refine Kept.mk' rfl rfl rfl rfl rfl rfl ?_)

theorem State.updPhase_kept {P : Part → Prop} [May P .regu_] {s0 : State} {s : State} {n : Nat} {f : Phase → Phase} (hk : Kept P s0 s) :
    Kept P s0 (State.updPhase s n f) := by
  unfold State.updPhase
  try dsimp only
  repeat' first | with_reducible assumption | (with_reducible refine Kept.mk' rfl rfl rfl rfl rfl rfl ?_)

theorem State.updTstr_kept {P : Part → Prop} [May P .trip_] {s0 : State} {s : State} {r : Nat} {f : TripStr → TripStr} (hk : Kept P s0 s) :
    Kept P s0 (State.updTstr s r f) := by
  unfold State.updTstr
  try dsimp only
  repeat' first | with_reducible assumption | (with_reducible refine Kept.mk' rfl rfl rfl rfl rfl rfl ?_)

theorem State.setMode_kept {P : Part → Prop} [May P .regs_] [May P .lost_] {s0 : State} {s : State} {r : Nat} {m : Nat} (hk : Kept P s0 s) :
    Kept P s0 (State.setMode s r m) := by
  unfold State.setMode
  try dsimp only
  repeat' first | with_reducible assumption | with_reducible apply State.wr_kept

theorem State.gatesOff_kept {P : Part → Prop} [May P .regs_] [May P .lost_] [May P .gate_] {s0 : State} {s : State} {r : Nat} (hk : Kept P s0 s) :
    Kept P s0 (State.gatesOff s r) := by
  unfold State.gatesOff
  try dsimp only
  repeat' first
    | with_reducible assumption
    | with_reducible apply State.driveHb_kept
    | with_reducible apply Kept.foldl
    | (intro _; intros; try dsimp only)

theorem State.enterRun_kept {P : Part → Prop} [May P .regs_] [May P .lost_] [May P .regu_] {s0 : State} {s : State} {r : Nat} (hk : Kept P s0 s) :
    Kept P s0 (State.enterRun s r) := by
  unfold State.enterRun
  try dsimp only
  repeat' first
    | with_reducible assumption
    | with_reducible apply State.setMode_kept
    | with_reducible apply State.updRstr_kept

theorem State.enterRamp_kept {P : Part → Prop} [May P .regs_] [May P .lost_] [May P .regu_] {s0 : State} {s : State} {r : Nat} {idles : Bool} (hk : Kept P s0 s) :
    Kept P s0 (State.enterRamp s r idles) := by
  unfold State.enterRamp
  try dsimp only
  repeat' first
    | with_reducible assumption
    | with_reducible apply State.setMode_kept
    | with_reducible apply State.updRstr_kept
    | with_reducible apply Kept.ite

theorem State.enterIdle_kept {P : Part → Prop} [May P .regs_] [May P .lost_] [May P .gate_] [May P .regu_] {s0 : State} {s : State} {r : Nat} (hk : Kept P s0 s) :
    Kept P s0 (State.enterIdle s r) := by
  unfold State.enterIdle
  try dsimp only
  repeat' first
    | with_reducible assumption
    | with_reducible apply State.gatesOff_kept
    | with_reducible apply State.setMode_kept
    | with_reducible apply State.updRstr_kept
    | with_reducible apply Kept.ite

theorem State.rampDone_kept {P : Part → Prop} [May P .regs_] [May P .lost_] [May P .gate_] [May P .regu_] {s0 : State} {s : State} {r : Nat} (hk : Kept P s0 s) :
    Kept P s0 (State.rampDone s r) := by
  unfold State.rampDone
  try dsimp only
  repeat' first
    | with_reducible assumption
    | with_reducible apply State.gatesOff_kept
    | with_reducible apply State.setMode_kept
    | with_reducible apply State.updRstr_kept

theorem State.rampTick_kept {P : Part → Prop} [May P .regs_] [May P .lost_] [May P .gate_] [May P .regu_] {s0 : State} {s : State} {r : Nat} (hk : Kept P s0 s) :
    Kept P s0 (State.rampTick s r) := by
  unfold State.rampTick
  try dsimp only
  repeat' first
    | with_reducible assumption
    | with_reducible apply State.rampDone_kept
    | with_reducible apply State.updRstr_kept
    | with_reducible apply Kept.ite

theorem State.syncNact_kept {P : Part → Prop} [May P .regs_] [May P .lost_] {s0 : State} {s : State} {r : Nat} (hk : Kept P s0 s) :
    Kept P s0 (State.syncNact s r) := by
  unfold State.syncNact
  try dsimp only
  repeat' first | with_reducible assumption | with_reducible apply State.wr_kept

theorem State.alertSync_kept {P : Part → Prop} [May P .regs_] [May P .lost_] {s0 : State} {s : State} (hk : Kept P s0 s) :
    Kept P s0 (State.alertSync s) := by
  unfold State.alertSync
  try dsimp only
  repeat' first | with_reducible assumption | with_reducible apply State.wr_kept

theorem State.respond_kept {P : Part → Prop} [May P .regu_] {s0 : State} {s : State} {prio : Nat} {ty : Nat} {payload : Nat} (hk : Kept P s0 s) :
    Kept P s0 (State.respond s prio ty payload) := by
  unfold State.respond
  try dsimp only
  repeat' first | with_reducible assumption | (with_reducible refine Kept.mk' rfl rfl rfl rfl rfl rfl ?_)

theorem State.sendLimits_kept {P : Part → Prop} [May P .regu_] {s0 : State} {s : State} (hk : Kept P s0 s) :
    Kept P s0 (State.sendLimits s) := by
  unfold State.sendLimits
  try dsimp only
  repeat' first
    | with_reducible assumption
    | with_reducible apply State.respond_kept
    | (with_reducible refine Kept.mk' rfl rfl rfl rfl rfl rfl ?_)

theorem State.limitsOnChange_kept {P : Part → Prop} [May P .regu_] {s0 : State} {s : State} (hk : Kept P s0 s) :
    Kept P s0 (State.limitsOnChange s) := by
  unfold State.limitsOnChange
  try dsimp only
  repeat' first
    | with_reducible assumption
    | with_reducible apply State.sendLimits_kept
    | with_reducible apply Kept.ite

theorem State.excEnd_kept {P : Part → Prop} [May P .regs_] [May P .lost_] [May P .led_] [May P .regu_] {s0 : State} {s : State} {reason : Nat} (hk : Kept P s0 s) :
    Kept P s0 (State.excEnd s reason) := by
  unfold State.excEnd
  try dsimp only
  repeat' first
    | with_reducible assumption
    | with_reducible apply State.raise_kept
    | with_reducible apply State.wr_kept
    | with_reducible apply Kept.ite
    | split
    | (with_reducible refine Kept.mk' rfl rfl rfl rfl rfl rfl ?_)

theorem State.splitter_kept {P : Part → Prop} [May P .regs_] [May P .lost_] [May P .led_] [May P .gate_] [May P .regu_] {s0 : State} {s : State} (hk : Kept P s0 s) : Kept P s0 (State.splitter s) := by
  have set : ∀ {s : State} {x : Regu}, Kept P s0 s → Kept P s0 { s with regu := x } :=
    fun k => Kept.mk' rfl rfl rfl rfl rfl rfl k
  delta State.splitter
  lift_lets
  intro s1
  have h1 : Kept P s0 s1 := Kept.foldl (fun s r k => State.rampTick_kept k) hk
  clear_value s1
  intro run others dis r0 sign res short p xs comp wsum wt wtot pBus shareOf compOf unplaced s2
  have h2 : Kept P s0 s2 := Kept.foldl (fun s r k => State.wr_kept (State.updRstr_kept k)) h1
  clear_value s2
  intro since x s3
  have h3 : Kept P s0 s3 := set h2
  clear_value s3
  intro s4
  have h4 : Kept P s0 s4 := Kept.ite (State.excEnd_kept h3) h3
  clear_value s4
  intros
  exact State.alertSync_kept (State.limitsOnChange_kept
    (Kept.ite (State.sendLimits_kept (State.raise_kept (State.hit_kept (set h4)))) (set h4)))

theorem State.busLoop_kept {P : Part → Prop} [May P .regs_] [May P .lost_] [May P .led_] [May P .gate_] [May P .regu_] {s0 : State} {s : State} {v : Int} {ts : Nat} (hk : Kept P s0 s) :
    Kept P s0 (State.busLoop s v ts) := by
  unfold State.busLoop
  try dsimp only
  repeat' first
    | with_reducible assumption
    | with_reducible apply State.splitter_kept
    | with_reducible apply State.wr_kept
    | with_reducible apply Kept.ite
    | split
    | (with_reducible refine Kept.mk' rfl rfl rfl rfl rfl rfl ?_)

theorem State.vbusFaulty_kept {P : Part → Prop} [May P .regs_] [May P .lost_] [May P .led_] [May P .regu_] {s0 : State} {s : State} (hk : Kept P s0 s) :
    Kept P s0 (State.vbusFaulty s) := by
  unfold State.vbusFaulty
  try dsimp only
  repeat' first
    | with_reducible assumption
    | with_reducible apply State.alertSync_kept
    | with_reducible apply State.enterRamp_kept
    | with_reducible apply State.raise_kept
    | with_reducible apply Kept.foldl
    | with_reducible apply Kept.ite
    | (intro _; intros; try dsimp only)
    | split
    | (with_reducible refine Kept.mk' rfl rfl rfl rfl rfl rfl ?_)

theorem State.parkRequest_kept {P : Part → Prop} [May P .trip_] {s0 : State} {s : State} {r : Nat} (hk : Kept P s0 s) :
    Kept P s0 (State.parkRequest s r) := by
  unfold State.parkRequest
  try dsimp only
  repeat' first | with_reducible assumption | with_reducible apply State.stringSource_kept

theorem State.removePhase_kept {P : Part → Prop} [May P .regs_] [May P .lost_] [May P .trip_] [May P .gate_] [May P .regu_] {s0 : State} {s : State} {r : Nat} {k : Nat} (hk : Kept P s0 s) :
    Kept P s0 (State.removePhase s r k) := by
  unfold State.removePhase
  try dsimp only
  repeat' first
    | with_reducible assumption
    | with_reducible apply State.driveHb_kept
    | with_reducible apply State.limitsOnChange_kept
    | with_reducible apply State.parkRequest_kept
    | with_reducible apply State.syncNact_kept
    | with_reducible apply State.updPhase_kept
    | with_reducible apply State.wr_kept
    | with_reducible apply Kept.ite

theorem State.phaseSenseFail_kept {P : Part → Prop} [May P .regs_] [May P .lost_] [May P .led_] [May P .trip_] [May P .gate_] [May P .regu_] {s0 : State} {s : State} {n : Nat} (hk : Kept P s0 s) :
    Kept P s0 (State.phaseSenseFail s n) := by
  unfold State.phaseSenseFail
  try dsimp only
  repeat' first
    | with_reducible assumption
    | with_reducible apply State.hit_kept
    | with_reducible apply State.raise_kept
    | with_reducible apply State.removePhase_kept
    | with_reducible apply State.updPhase_kept
    | with_reducible apply Kept.ite
    | split

end Sys2Proof.Machine
end

