-- ==== Sys2Proof/Laws/Kept/Regulators.lean ====
section
/-!
SUPPORT. What the operations of Machine/Regulators.lean keep.
-/

set_option Elab.async false
set_option linter.unusedTactic false
set_option linter.unreachableTactic false

namespace Sys2Proof.Machine

theorem State.resume_kept {P : Part → Prop} [May P .regs_] [May P .lost_] [May P .regu_] {s0 : State} {s : State} (hk : Kept P s0 s) :
    Kept P s0 (State.resume s) := by
  unfold State.resume
  try dsimp only
  repeat' first
    | with_reducible assumption
    | with_reducible apply State.enterRun_kept
    | with_reducible apply Kept.foldl
    | with_reducible apply Kept.ite

theorem State.idleAll_kept {P : Part → Prop} [May P .regs_] [May P .lost_] [May P .regu_] {s0 : State} {s : State} (hk : Kept P s0 s) :
    Kept P s0 (State.idleAll s) := by
  unfold State.idleAll
  try dsimp only
  repeat' first
    | with_reducible assumption
    | with_reducible apply State.enterRamp_kept
    | with_reducible apply Kept.foldl
    | (intro _; intros; try dsimp only)

theorem execWeightsStale_kept {P : Part → Prop} [May P .regs_] [May P .lost_] [May P .led_] [May P .regu_] {s0 : State} {s : State} {t : Nat} (hk : Kept P s0 s) :
    KeptO P s0 (execWeightsStale s t) := by
  unfold execWeightsStale
  try dsimp only
  repeat' first
    | with_reducible assumption
    | with_reducible apply State.at_kept
    | with_reducible apply State.hit_kept
    | with_reducible apply State.raise_kept
    | with_reducible apply KeptO.of_next
    | with_reducible apply KeptO.ite
    | with_reducible apply Kept.ite
    | split
    | (with_reducible refine Kept.mk' rfl rfl rfl rfl rfl rfl ?_)

theorem execVbusSourceRecover_kept {P : Part → Prop} [May P .regs_] [May P .lost_] [May P .regu_] {s0 : State} {s : State} {t : Nat} (hk : Kept P s0 s) :
    KeptO P s0 (execVbusSourceRecover s t) := by
  unfold execVbusSourceRecover
  try dsimp only
  repeat' first
    | with_reducible assumption
    | with_reducible apply State.alertSync_kept
    | with_reducible apply State.at_kept
    | with_reducible apply State.resume_kept
    | with_reducible apply KeptO.of_next
    | with_reducible apply KeptO.ite
    | with_reducible apply Kept.ite
    | split
    | (with_reducible refine Kept.mk' rfl rfl rfl rfl rfl rfl ?_)

theorem State.regPeriod_kept {P : Part → Prop} [May P .fresh_] [May P .regs_] [May P .lost_] [May P .regu_] {s0 : State} {s : State} {r : Nat} (hk : Kept P s0 s) :
    Kept P s0 (State.regPeriod s r) := by
  unfold State.regPeriod
  try dsimp only
  repeat' first
    | with_reducible assumption
    | with_reducible apply State.drew_kept
    | with_reducible apply State.updRstr_kept
    | with_reducible apply State.wr_kept
    | with_reducible apply Kept.ite

theorem State.phaseLoop_kept {P : Part → Prop} [May P .regu_] {s0 : State} {s : State} {r : Nat} {n : Nat} {i : Int} (hk : Kept P s0 s) :
    Kept P s0 (State.phaseLoop s r n i) := by
  unfold State.phaseLoop
  try dsimp only
  repeat' first | with_reducible assumption | with_reducible apply State.updPhase_kept

theorem execPhasePeriodStart_kept {P : Part → Prop} [May P .fresh_] [May P .regs_] [May P .lost_] [May P .led_] [May P .trip_] [May P .gate_] [May P .regu_] {s0 : State} {s : State} {r : Fin 12} {slot : Fin 4} {ones : Nat} {len : Nat} {t : Nat} (hk : Kept P s0 s) :
    KeptO P s0 (execPhasePeriodStart s r slot ones len t) := by
  unfold execPhasePeriodStart
  try dsimp only
  repeat' first
    | with_reducible assumption
    | with_reducible apply State.at_kept
    | with_reducible apply State.driveHb_kept
    | with_reducible apply State.hit_kept
    | with_reducible apply State.phaseLoop_kept
    | with_reducible apply State.raise_kept
    | with_reducible apply State.rampTick_kept
    | with_reducible apply State.regPeriod_kept
    | with_reducible apply State.removePhase_kept
    | with_reducible apply State.updPhase_kept
    | with_reducible apply KeptO.of_next
    | with_reducible apply KeptO.ite
    | with_reducible apply Kept.ite

theorem execPhaseDecayDone_kept {P : Part → Prop} [May P .regu_] {s0 : State} {s : State} {n : Fin 24} {t : Nat} (hk : Kept P s0 s) :
    KeptO P s0 (execPhaseDecayDone s n t) := by
  unfold execPhaseDecayDone
  try dsimp only
  repeat' first
    | with_reducible assumption
    | with_reducible apply State.at_kept
    | with_reducible apply State.updPhase_kept
    | with_reducible apply KeptO.of_next
    | with_reducible apply KeptO.ite
    | with_reducible apply Kept.ite
    | split

theorem execRefreshPulse_kept {P : Part → Prop} [May P .regs_] [May P .lost_] [May P .gate_] [May P .regu_] {s0 : State} {s : State} {n : Fin 24} {t : Nat} (hk : Kept P s0 s) :
    KeptO P s0 (execRefreshPulse s n t) := by
  unfold execRefreshPulse
  try dsimp only
  repeat' first
    | with_reducible assumption
    | with_reducible apply State.at_kept
    | with_reducible apply State.driveHb_kept
    | with_reducible apply State.settle_kept
    | with_reducible apply State.updPhase_kept
    | with_reducible apply KeptO.of_next
    | with_reducible apply KeptO.ite
    | with_reducible apply Kept.ite
    | split

theorem execDelayLineRecal_kept {P : Part → Prop} [May P .regu_] {s0 : State} {s : State} {t : Nat} (hk : Kept P s0 s) :
    KeptO P s0 (execDelayLineRecal s t) := by
  unfold execDelayLineRecal
  try dsimp only
  repeat' first
    | with_reducible assumption
    | with_reducible apply State.at_kept
    | with_reducible apply KeptO.of_next
    | with_reducible apply KeptO.ite
    | with_reducible apply Kept.ite
    | split
    | (with_reducible refine Kept.mk' rfl rfl rfl rfl rfl rfl ?_)

theorem State.setSync_kept {P : Part → Prop} [May P .regs_] [May P .lost_] {s0 : State} {s : State} {v : Nat} (hk : Kept P s0 s) :
    Kept P s0 (State.setSync s v) := by
  unfold State.setSync
  try dsimp only
  repeat' first | with_reducible assumption | with_reducible apply State.wr_kept

theorem State.tbAdvance_kept {P : Part → Prop} [May P .regu_] {s0 : State} {s : State} (hk : Kept P s0 s) :
    Kept P s0 (State.tbAdvance s) := by
  unfold State.tbAdvance
  try dsimp only
  repeat' first
    | with_reducible assumption
    | with_reducible apply Kept.ite
    | split
    | (with_reducible refine Kept.mk' rfl rfl rfl rfl rfl rfl ?_)

theorem State.psyncLose_kept {P : Part → Prop} [May P .regs_] [May P .lost_] [May P .led_] [May P .regu_] {s0 : State} {s : State} (hk : Kept P s0 s) :
    Kept P s0 (State.psyncLose s) := by
  unfold State.psyncLose
  try dsimp only
  repeat' first
    | with_reducible assumption
    | with_reducible apply State.hit_kept
    | with_reducible apply State.raise_kept
    | with_reducible apply State.setSync_kept
    | with_reducible apply State.tbAdvance_kept
    | (with_reducible refine Kept.mk' rfl rfl rfl rfl rfl rfl ?_)

theorem execPsyncEdge_kept {P : Part → Prop} [May P .regs_] [May P .lost_] [May P .led_] [May P .regu_] {s0 : State} {s : State} {width : Nat} {t : Nat} (hk : Kept P s0 s) :
    KeptO P s0 (execPsyncEdge s width t) := by
  unfold execPsyncEdge
  try dsimp only
  repeat' first
    | with_reducible assumption
    | with_reducible apply State.at_kept
    | with_reducible apply State.psyncLose_kept
    | with_reducible apply State.raise_kept
    | with_reducible apply State.setSync_kept
    | with_reducible apply State.tbAdvance_kept
    | with_reducible apply State.wr_kept
    | with_reducible apply KeptO.of_next
    | with_reducible apply KeptO.ite
    | with_reducible apply Kept.ite
    | split
    | (with_reducible refine Kept.mk' rfl rfl rfl rfl rfl rfl ?_)

theorem execPsyncLoss_kept {P : Part → Prop} [May P .regs_] [May P .lost_] [May P .led_] [May P .regu_] {s0 : State} {s : State} {t : Nat} (hk : Kept P s0 s) :
    KeptO P s0 (execPsyncLoss s t) := by
  unfold execPsyncLoss
  try dsimp only
  repeat' first
    | with_reducible assumption
    | with_reducible apply State.at_kept
    | with_reducible apply State.psyncLose_kept
    | with_reducible apply KeptO.of_next
    | with_reducible apply KeptO.ite
    | with_reducible apply Kept.ite
    | split
    | (with_reducible refine Kept.mk' rfl rfl rfl rfl rfl rfl ?_)

theorem execSyncHoldExpire_kept {P : Part → Prop} [May P .regs_] [May P .lost_] [May P .regu_] {s0 : State} {s : State} {t : Nat} (hk : Kept P s0 s) :
    KeptO P s0 (execSyncHoldExpire s t) := by
  unfold execSyncHoldExpire
  try dsimp only
  repeat' first
    | with_reducible assumption
    | with_reducible apply State.at_kept
    | with_reducible apply State.setSync_kept
    | with_reducible apply State.tbAdvance_kept
    | with_reducible apply KeptO.of_next
    | with_reducible apply KeptO.ite
    | with_reducible apply Kept.ite
    | split
    | (with_reducible refine Kept.mk' rfl rfl rfl rfl rfl rfl ?_)

theorem State.setLstate_kept {P : Part → Prop} [May P .regs_] [May P .lost_] {s0 : State} {s : State} {v : Nat} (hk : Kept P s0 s) :
    Kept P s0 (State.setLstate s v) := by
  unfold State.setLstate
  try dsimp only
  repeat' first | with_reducible assumption | with_reducible apply State.wr_kept

theorem State.bvlGood_kept {P : Part → Prop} [May P .regs_] [May P .lost_] [May P .led_] [May P .regu_] {s0 : State} {s : State} (hk : Kept P s0 s) :
    Kept P s0 (State.bvlGood s) := by
  unfold State.bvlGood
  try dsimp only
  repeat' first
    | with_reducible assumption
    | with_reducible apply State.raise_kept
    | with_reducible apply State.setLstate_kept
    | with_reducible apply Kept.ite
    | split
    | (with_reducible refine Kept.mk' rfl rfl rfl rfl rfl rfl ?_)

theorem State.bvlNak_kept {P : Part → Prop} [May P .regs_] [May P .lost_] [May P .regu_] {s0 : State} {s : State} {seq : Nat} {ty : Nat} {reason : Nat} (hk : Kept P s0 s) :
    Kept P s0 (State.bvlNak s seq ty reason) := by
  unfold State.bvlNak
  try dsimp only
  repeat' first
    | with_reducible assumption
    | with_reducible apply State.hit_kept
    | with_reducible apply State.respond_kept

theorem State.vsetAccept_kept {P : Part → Prop} [May P .regs_] [May P .lost_] [May P .regu_] {s0 : State} {s : State} {seq : Nat} {payload : Nat} (hk : Kept P s0 s) :
    Kept P s0 (State.vsetAccept s seq payload) := by
  unfold State.vsetAccept
  try dsimp only
  repeat' first
    | with_reducible assumption
    | with_reducible apply State.alertSync_kept
    | with_reducible apply State.hit_kept
    | with_reducible apply State.respond_kept
    | with_reducible apply State.resume_kept
    | with_reducible apply State.setLstate_kept
    | with_reducible apply State.wr_kept
    | with_reducible apply Kept.ite
    | split
    | (with_reducible refine Kept.mk' rfl rfl rfl rfl rfl rfl ?_)

theorem State.vsetNew_kept {P : Part → Prop} [May P .regs_] [May P .lost_] [May P .regu_] {s0 : State} {s : State} {seq : Nat} {pl : Nat} (hk : Kept P s0 s) :
    Kept P s0 (State.vsetNew s seq pl) := by
  unfold State.vsetNew
  try dsimp only
  repeat' first
    | with_reducible assumption
    | with_reducible apply State.bvlNak_kept
    | with_reducible apply State.vsetAccept_kept
    | with_reducible apply Kept.ite
    | split
    | (with_reducible refine Kept.mk' rfl rfl rfl rfl rfl rfl ?_)

theorem execVset_kept {P : Part → Prop} [May P .regs_] [May P .lost_] [May P .led_] [May P .regu_] {s0 : State} {s : State} {seq : Fin 256} {payload : Nat} {t : Nat} (hk : Kept P s0 s) :
    KeptO P s0 (execVset s seq payload t) := by
  unfold execVset
  try dsimp only
  repeat' first
    | with_reducible assumption
    | with_reducible apply State.at_kept
    | with_reducible apply State.bvlGood_kept
    | with_reducible apply State.respond_kept
    | with_reducible apply State.vsetNew_kept
    | with_reducible apply KeptO.of_next
    | with_reducible apply KeptO.ite
    | with_reducible apply Kept.ite
    | split

theorem execStatq_kept {P : Part → Prop} [May P .regs_] [May P .lost_] [May P .led_] [May P .regu_] {s0 : State} {s : State} {seq : Fin 256} {t : Nat} (hk : Kept P s0 s) :
    KeptO P s0 (execStatq s seq t) := by
  unfold execStatq
  try dsimp only
  repeat' first
    | with_reducible assumption
    | with_reducible apply State.at_kept
    | with_reducible apply State.bvlGood_kept
    | with_reducible apply State.bvlNak_kept
    | with_reducible apply State.respond_kept
    | with_reducible apply KeptO.of_next
    | with_reducible apply KeptO.ite

theorem execIff_kept {P : Part → Prop} [May P .regs_] [May P .lost_] [May P .led_] [May P .regu_] {s0 : State} {s : State} {seq : Fin 256} {payload : Nat} {t : Nat} (hk : Kept P s0 s) :
    KeptO P s0 (execIff s seq payload t) := by
  unfold execIff
  try dsimp only
  repeat' first
    | with_reducible assumption
    | with_reducible apply State.at_kept
    | with_reducible apply State.bvlGood_kept
    | with_reducible apply State.bvlNak_kept
    | with_reducible apply KeptO.of_next
    | with_reducible apply KeptO.ite
    | with_reducible apply Kept.ite
    | split
    | (with_reducible refine Kept.mk' rfl rfl rfl rfl rfl rfl ?_)

theorem execLimq_kept {P : Part → Prop} [May P .regs_] [May P .lost_] [May P .led_] [May P .regu_] {s0 : State} {s : State} {seq : Fin 256} {t : Nat} (hk : Kept P s0 s) :
    KeptO P s0 (execLimq s seq t) := by
  unfold execLimq
  try dsimp only
  repeat' first
    | with_reducible assumption
    | with_reducible apply State.at_kept
    | with_reducible apply State.bvlGood_kept
    | with_reducible apply State.bvlNak_kept
    | with_reducible apply State.sendLimits_kept
    | with_reducible apply KeptO.of_next
    | with_reducible apply KeptO.ite

theorem execBvlUnknownType_kept {P : Part → Prop} [May P .regs_] [May P .lost_] [May P .led_] [May P .regu_] {s0 : State} {s : State} {ty : Fin 128} {seq : Fin 256} {t : Nat} (hk : Kept P s0 s) :
    KeptO P s0 (execBvlUnknownType s ty seq t) := by
  unfold execBvlUnknownType
  try dsimp only
  repeat' first
    | with_reducible assumption
    | with_reducible apply State.at_kept
    | with_reducible apply State.bvlGood_kept
    | with_reducible apply State.bvlNak_kept
    | with_reducible apply KeptO.of_next
    | with_reducible apply KeptO.ite

theorem execBvlFrameDiscard_kept {P : Part → Prop} [May P .regs_] [May P .lost_] [May P .led_] {s0 : State} {s : State} {seq : Fin 256} {t : Nat} (hk : Kept P s0 s) :
    KeptO P s0 (execBvlFrameDiscard s seq t) := by
  unfold execBvlFrameDiscard
  try dsimp only
  repeat' first
    | with_reducible assumption
    | with_reducible apply State.at_kept
    | with_reducible apply State.hit_kept
    | with_reducible apply State.raise_kept
    | with_reducible apply KeptO.of_next

theorem execBvlResponseSend_kept {P : Part → Prop} [May P .regu_] {s0 : State} {s : State} {t : Nat} (hk : Kept P s0 s) :
    KeptO P s0 (execBvlResponseSend s t) := by
  unfold execBvlResponseSend
  try dsimp only
  repeat' first
    | with_reducible assumption
    | with_reducible apply State.at_kept
    | with_reducible apply KeptO.of_next
    | with_reducible apply KeptO.ite
    | with_reducible apply Kept.ite
    | split
    | (with_reducible refine Kept.mk' rfl rfl rfl rfl rfl rfl ?_)

theorem execVsetSettled_kept {P : Part → Prop} [May P .regs_] [May P .lost_] [May P .regu_] {s0 : State} {s : State} {t : Nat} (hk : Kept P s0 s) :
    KeptO P s0 (execVsetSettled s t) := by
  unfold execVsetSettled
  try dsimp only
  repeat' first
    | with_reducible assumption
    | with_reducible apply State.at_kept
    | with_reducible apply State.respond_kept
    | with_reducible apply State.wr_kept
    | with_reducible apply KeptO.of_next
    | with_reducible apply KeptO.ite
    | with_reducible apply Kept.ite
    | split
    | (with_reducible refine Kept.mk' rfl rfl rfl rfl rfl rfl ?_)

theorem execIffTimeout_kept {P : Part → Prop} [May P .regu_] {s0 : State} {s : State} {t : Nat} (hk : Kept P s0 s) :
    KeptO P s0 (execIffTimeout s t) := by
  unfold execIffTimeout
  try dsimp only
  repeat' first
    | with_reducible assumption
    | with_reducible apply State.at_kept
    | with_reducible apply KeptO.of_next
    | with_reducible apply KeptO.ite
    | with_reducible apply Kept.ite
    | split
    | (with_reducible refine Kept.mk' rfl rfl rfl rfl rfl rfl ?_)

theorem execLimPeriodic_kept {P : Part → Prop} [May P .regu_] {s0 : State} {s : State} {t : Nat} (hk : Kept P s0 s) :
    KeptO P s0 (execLimPeriodic s t) := by
  unfold execLimPeriodic
  try dsimp only
  repeat' first
    | with_reducible assumption
    | with_reducible apply State.at_kept
    | with_reducible apply State.sendLimits_kept
    | with_reducible apply KeptO.of_next
    | with_reducible apply KeptO.ite

theorem State.bvlSilent_kept {P : Part → Prop} [May P .regs_] [May P .lost_] [May P .led_] [May P .regu_] {s0 : State} {s : State} {lstate : Nat} (hk : Kept P s0 s) :
    Kept P s0 (State.bvlSilent s lstate) := by
  unfold State.bvlSilent
  try dsimp only
  repeat' first
    | with_reducible assumption
    | with_reducible apply State.hit_kept
    | with_reducible apply State.raise_kept
    | with_reducible apply State.setLstate_kept
    | with_reducible apply Kept.ite
    | split
    | (with_reducible refine Kept.mk' rfl rfl rfl rfl rfl rfl ?_)

theorem execBvlSilence_kept {P : Part → Prop} [May P .regs_] [May P .lost_] [May P .led_] [May P .regu_] {s0 : State} {s : State} {t : Nat} (hk : Kept P s0 s) :
    KeptO P s0 (execBvlSilence s t) := by
  unfold execBvlSilence
  try dsimp only
  repeat' first
    | with_reducible assumption
    | with_reducible apply State.at_kept
    | with_reducible apply State.bvlSilent_kept
    | with_reducible apply KeptO.of_next
    | with_reducible apply KeptO.ite

theorem execBvlFallback_kept {P : Part → Prop} [May P .regs_] [May P .lost_] [May P .regu_] {s0 : State} {s : State} {t : Nat} (hk : Kept P s0 s) :
    KeptO P s0 (execBvlFallback s t) := by
  unfold execBvlFallback
  try dsimp only
  repeat' first
    | with_reducible assumption
    | with_reducible apply State.alertSync_kept
    | with_reducible apply State.at_kept
    | with_reducible apply State.idleAll_kept
    | with_reducible apply State.setLstate_kept
    | with_reducible apply State.wr_kept
    | with_reducible apply KeptO.of_next
    | with_reducible apply KeptO.ite
    | with_reducible apply Kept.ite
    | split
    | (with_reducible refine Kept.mk' rfl rfl rfl rfl rfl rfl ?_)

theorem execBvlClockLoss_kept {P : Part → Prop} [May P .regs_] [May P .lost_] [May P .led_] [May P .regu_] {s0 : State} {s : State} {t : Nat} (hk : Kept P s0 s) :
    KeptO P s0 (execBvlClockLoss s t) := by
  unfold execBvlClockLoss
  try dsimp only
  repeat' first
    | with_reducible assumption
    | with_reducible apply State.at_kept
    | with_reducible apply State.bvlSilent_kept
    | with_reducible apply KeptO.of_next

theorem execCapmoveTimeout_kept {P : Part → Prop} [May P .regs_] [May P .lost_] [May P .led_] [May P .gate_] [May P .regu_] {s0 : State} {s : State} {r : Fin 12} {t : Nat} (hk : Kept P s0 s) :
    KeptO P s0 (execCapmoveTimeout s r t) := by
  unfold execCapmoveTimeout
  try dsimp only
  repeat' first
    | with_reducible assumption
    | with_reducible apply State.at_kept
    | with_reducible apply State.enterIdle_kept
    | with_reducible apply State.raise_kept
    | with_reducible apply KeptO.of_next
    | with_reducible apply KeptO.ite

theorem execExcEnvelopeEnd_kept {P : Part → Prop} [May P .regs_] [May P .lost_] [May P .led_] [May P .regu_] {s0 : State} {s : State} {t : Nat} (hk : Kept P s0 s) :
    KeptO P s0 (execExcEnvelopeEnd s t) := by
  unfold execExcEnvelopeEnd
  try dsimp only
  repeat' first
    | with_reducible assumption
    | with_reducible apply State.at_kept
    | with_reducible apply State.excEnd_kept
    | with_reducible apply KeptO.of_next
    | with_reducible apply KeptO.ite
    | with_reducible apply Kept.ite
    | split

theorem execExcCompTimeout_kept {P : Part → Prop} [May P .regs_] [May P .lost_] [May P .led_] [May P .regu_] {s0 : State} {s : State} {t : Nat} (hk : Kept P s0 s) :
    KeptO P s0 (execExcCompTimeout s t) := by
  unfold execExcCompTimeout
  try dsimp only
  repeat' first
    | with_reducible assumption
    | with_reducible apply State.at_kept
    | with_reducible apply State.excEnd_kept
    | with_reducible apply KeptO.of_next
    | with_reducible apply KeptO.ite
    | with_reducible apply Kept.ite
    | split

theorem State.leaveStop_kept {P : Part → Prop} [May P .regs_] [May P .lost_] [May P .gate_] {s0 : State} {s : State} {n : Nat} (hk : Kept P s0 s) :
    Kept P s0 (State.leaveStop s n) := by
  unfold State.leaveStop
  try dsimp only
  repeat' first
    | with_reducible assumption
    | with_reducible apply State.rearm_kept
    | with_reducible apply State.setHbState_kept
    | with_reducible apply State.updHb_kept
    | with_reducible apply Kept.ite

theorem execStopEnd_kept {P : Part → Prop} [May P .regs_] [May P .lost_] [May P .gate_] [May P .regu_] {s0 : State} {s : State} {t : Nat} (hk : Kept P s0 s) :
    KeptO P s0 (execStopEnd s t) := by
  unfold execStopEnd
  try dsimp only
  repeat' first
    | with_reducible assumption
    | with_reducible apply State.at_kept
    | with_reducible apply State.leaveStop_kept
    | with_reducible apply State.limitsOnChange_kept
    | with_reducible apply State.syncNact_kept
    | with_reducible apply State.updRstr_kept
    | with_reducible apply State.wr_kept
    | with_reducible apply KeptO.of_next
    | with_reducible apply Kept.foldl
    | with_reducible apply KeptO.ite
    | with_reducible apply Kept.ite
    | (intro _; intros; try dsimp only)
    | split
    | (with_reducible refine Kept.mk' rfl rfl rfl rfl rfl rfl ?_)

theorem State.weightsWritten_kept {P : Part → Prop} [May P .regu_] {s0 : State} {s : State} (hk : Kept P s0 s) :
    Kept P s0 (State.weightsWritten s) := by
  unfold State.weightsWritten
  try dsimp only
  repeat' first | with_reducible assumption | (with_reducible refine Kept.mk' rfl rfl rfl rfl rfl rfl ?_)

theorem State.sregCfgEffect_kept {P : Part → Prop} [May P .regs_] [May P .lost_] {s0 : State} {s : State} {r : Nat} (hk : Kept P s0 s) :
    Kept P s0 (State.sregCfgEffect s r) := by
  unfold State.sregCfgEffect
  try dsimp only
  repeat' first
    | with_reducible assumption
    | with_reducible apply State.rearmAll_kept
    | with_reducible apply State.setMode_kept
    | with_reducible apply State.syncNact_kept
    | with_reducible apply Kept.ite

theorem State.phen_kept {P : Part → Prop} [May P .regs_] [May P .lost_] [May P .led_] [May P .regu_] {s0 : State} {s : State} {r : Nat} {v : Nat} (hk : Kept P s0 s) :
    Kept P s0 (State.phen s r v) := by
  unfold State.phen
  try dsimp only
  repeat' first
    | with_reducible assumption
    | with_reducible apply State.raise_kept
    | with_reducible apply State.syncNact_kept
    | with_reducible apply State.updPhase_kept
    | with_reducible apply State.wr_kept
    | with_reducible apply Kept.foldl
    | (intro _; intros; try dsimp only)

theorem State.excBegin_kept {P : Part → Prop} [May P .regs_] [May P .lost_] [May P .regu_] {s0 : State} {s : State} (hk : Kept P s0 s) :
    Kept P s0 (State.excBegin s) := by
  unfold State.excBegin
  try dsimp only
  repeat' first
    | with_reducible assumption
    | with_reducible apply State.wr_kept
    | (with_reducible refine Kept.mk' rfl rfl rfl rfl rfl rfl ?_)

theorem State.excHalt_kept {P : Part → Prop} [May P .regu_] {s0 : State} {s : State} (hk : Kept P s0 s) :
    Kept P s0 (State.excHalt s) := by
  unfold State.excHalt
  try dsimp only
  repeat' first
    | with_reducible assumption
    | with_reducible apply Kept.ite
    | split
    | (with_reducible refine Kept.mk' rfl rfl rfl rfl rfl rfl ?_)

end Sys2Proof.Machine
end

