-- ==== Sys2Proof/Laws/Kept/WinOps.lean ====
section
/-!
SUPPORT. What the operations of Machine/WinOps.lean keep.
-/

set_option Elab.async false
set_option linter.unusedTactic false
set_option linter.unreachableTactic false

namespace Sys2Proof.Machine

theorem State.winTrigger_kept {P : Part → Prop} [May P .regs_] [May P .lost_] [May P .led_] [May P .swp_] {s0 : State} {s : State} {kind : Nat} (hk : Kept P s0 s) :
    Kept P s0 (State.winTrigger s kind) := by
  unfold State.winTrigger
  try dsimp only
  repeat' first
    | with_reducible assumption
    | with_reducible apply State.bump_kept
    | with_reducible apply State.raise_kept
    | with_reducible apply Kept.ite
    | split
    | (with_reducible refine Kept.mk' rfl rfl rfl rfl rfl rfl ?_)

theorem State.winRearm_kept {P : Part → Prop} [May P .regs_] [May P .lost_] [May P .swp_] {s0 : State} {s : State} (hk : Kept P s0 s) :
    Kept P s0 (State.winRearm s) := by
  unfold State.winRearm
  try dsimp only
  repeat' first
    | with_reducible assumption
    | with_reducible apply State.wr_kept
    | (with_reducible refine Kept.mk' rfl rfl rfl rfl rfl rfl ?_)

theorem State.owtStart_kept {P : Part → Prop} [May P .swp_] {s0 : State} {s : State} (hk : Kept P s0 s) :
    Kept P s0 (State.owtStart s) := by
  unfold State.owtStart
  try dsimp only
  repeat' first | with_reducible assumption | (with_reducible refine Kept.mk' rfl rfl rfl rfl rfl rfl ?_)

theorem State.winHoldClear_kept {P : Part → Prop} [May P .regs_] [May P .lost_] [May P .swp_] {s0 : State} {s : State} (hk : Kept P s0 s) :
    Kept P s0 (State.winHoldClear s) := by
  unfold State.winHoldClear
  try dsimp only
  repeat' first | with_reducible assumption | with_reducible apply State.winRearm_kept | with_reducible apply Kept.ite

end Sys2Proof.Machine
end

