-- ==== Sys2Proof/Laws/Kept/TripOps.lean ====
section
/-!
SUPPORT. What the operations of Machine/TripOps.lean keep.
-/

set_option Elab.async false
set_option linter.unusedTactic false
set_option linter.unreachableTactic false

namespace Sys2Proof.Machine

theorem State.strSync_kept {P : Part → Prop} [May P .regs_] [May P .lost_] {s0 : State} {s : State} {r : Nat} (hk : Kept P s0 s) :
    Kept P s0 (State.strSync s r) := by
  unfold State.strSync
  try dsimp only
  repeat' first | with_reducible assumption | with_reducible apply State.wr_kept

theorem State.setSt_kept {P : Part → Prop} [May P .regs_] [May P .lost_] [May P .trip_] {s0 : State} {s : State} {r : Nat} {st : StrState} (hk : Kept P s0 s) :
    Kept P s0 (State.setSt s r st) := by
  unfold State.setSt
  try dsimp only
  repeat' first
    | with_reducible assumption
    | with_reducible apply State.strSync_kept
    | with_reducible apply State.updTstr_kept

theorem State.wearOne_kept {P : Part → Prop} [May P .led_] [May P .trip_] {s0 : State} {s : State} {n : Nat} {f : Nat} {k : Nat} (hk : Kept P s0 s) :
    Kept P s0 (State.wearOne s n f k) := by
  unfold State.wearOne
  try dsimp only
  repeat' first
    | with_reducible assumption
    | with_reducible apply State.lifeSection_kept
    | (with_reducible refine Kept.mk' rfl rfl rfl rfl rfl rfl ?_)

theorem State.wearBoth_kept {P : Part → Prop} [May P .led_] [May P .trip_] {s0 : State} {s : State} {r : Nat} {f : Nat} {k : Nat} (hk : Kept P s0 s) :
    Kept P s0 (State.wearBoth s r f k) := by
  unfold State.wearBoth
  try dsimp only
  repeat' first | with_reducible assumption | with_reducible apply State.wearOne_kept

theorem State.wearMax_kept {P : Part → Prop} [May P .trip_] {s0 : State} {s : State} {n : Nat} {k : Nat} (hk : Kept P s0 s) :
    Kept P s0 (State.wearMax s n k) := by
  unfold State.wearMax
  try dsimp only
  repeat' first | with_reducible assumption | (with_reducible refine Kept.mk' rfl rfl rfl rfl rfl rfl ?_)

theorem State.pathSample_kept {P : Part → Prop} [May P .trip_] {s0 : State} {s : State} {r : Nat} {phase : Bool} {stamp : Nat} {v : Int} {bad : Bool} {period : Nat} (hk : Kept P s0 s) :
    Kept P s0 (State.pathSample s r phase stamp v bad period) := by
  unfold State.pathSample
  try dsimp only
  repeat' first
    | with_reducible assumption
    | with_reducible apply State.stringSource_kept
    | with_reducible apply State.updTstr_kept
    | with_reducible apply Kept.ite

theorem State.capMove_kept {P : Part → Prop} [May P .fresh_] [May P .regs_] [May P .lost_] [May P .gate_] [May P .regu_] {s0 : State} {s : State} {r : Nat} (hk : Kept P s0 s) :
    Kept P s0 (State.capMove s r) := by
  unfold State.capMove
  try dsimp only
  repeat' first
    | with_reducible assumption
    | with_reducible apply State.drew_kept
    | with_reducible apply State.inhibitString_kept
    | with_reducible apply State.setMode_kept
    | with_reducible apply State.updRstr_kept
    | with_reducible apply Kept.ite

theorem State.stopTimers_kept {P : Part → Prop} [May P .regs_] [May P .lost_] [May P .out_] {s0 : State} {s : State} {which : Nat → Bool} (hk : Kept P s0 s) :
    Kept P s0 (State.stopTimers s which) := by
  unfold State.stopTimers
  try dsimp only
  repeat' first
    | with_reducible assumption
    | with_reducible apply State.ltSync_kept
    | with_reducible apply State.updLt_kept
    | with_reducible apply Kept.foldl
    | with_reducible apply Kept.ite
    | (intro _; intros; try dsimp only)

theorem State.hcOff_kept {P : Part → Prop} [May P .fresh_] [May P .regs_] [May P .lost_] [May P .led_] [May P .trip_] [May P .gate_] [May P .regu_] [May P .out_] {s0 : State} {s : State} {r : Nat} {force : Bool} (hk : Kept P s0 s) :
    Kept P s0 (State.hcOff s r force) := by
  unfold State.hcOff
  try dsimp only
  repeat' first
    | with_reducible assumption
    | with_reducible apply State.capMove_kept
    | with_reducible apply State.hit_kept
    | with_reducible apply State.lsSync_kept
    | with_reducible apply State.raise_kept
    | with_reducible apply State.setSt_kept
    | with_reducible apply State.stopTimers_kept
    | with_reducible apply State.updTstr_kept
    | with_reducible apply State.wearBoth_kept
    | with_reducible apply State.wearMax_kept
    | with_reducible apply Kept.ite

theorem State.activeSync_kept {P : Part → Prop} [May P .regs_] [May P .lost_] {s0 : State} {s : State} {n : Nat} (hk : Kept P s0 s) :
    Kept P s0 (State.activeSync s n) := by
  unfold State.activeSync
  try dsimp only
  repeat' first | with_reducible assumption | with_reducible apply State.wr_kept

theorem State.setPchStep_kept {P : Part → Prop} [May P .regs_] [May P .lost_] [May P .trip_] {s0 : State} {s : State} {n : Nat} (hk : Kept P s0 s) :
    Kept P s0 (State.setPchStep s n) := by
  unfold State.setPchStep
  try dsimp only
  repeat' first
    | with_reducible assumption
    | with_reducible apply State.wr_kept
    | with_reducible apply Kept.ite
    | split
    | (with_reducible refine Kept.mk' rfl rfl rfl rfl rfl rfl ?_)

theorem State.setRelay_kept {P : Part → Prop} [May P .regs_] [May P .lost_] [May P .trip_] [May P .out_] {s0 : State} {s : State} {on : Bool} (hk : Kept P s0 s) :
    Kept P s0 (State.setRelay s on) := by
  unfold State.setRelay
  try dsimp only
  repeat' first
    | with_reducible assumption
    | with_reducible apply State.lsSync_kept
    | (with_reducible refine Kept.mk' rfl rfl rfl rfl rfl rfl ?_)

theorem State.pchFailMask_kept {P : Part → Prop} [May P .regs_] [May P .lost_] {s0 : State} {s : State} {r : Nat} (hk : Kept P s0 s) :
    Kept P s0 (State.pchFailMask s r) := by
  unfold State.pchFailMask
  try dsimp only
  repeat' first | with_reducible assumption | with_reducible apply State.wrBit_kept

theorem State.beginRamp_kept {P : Part → Prop} [May P .regs_] [May P .lost_] [May P .trip_] [May P .gate_] [May P .regu_] {s0 : State} {s : State} {r : Nat} {opens : Bool} {limit : Nat} (hk : Kept P s0 s) :
    Kept P s0 (State.beginRamp s r opens limit) := by
  unfold State.beginRamp
  try dsimp only
  repeat' first
    | with_reducible assumption
    | with_reducible apply State.enterIdle_kept
    | with_reducible apply State.enterRamp_kept
    | with_reducible apply State.inhibitString_kept
    | with_reducible apply State.setSt_kept
    | with_reducible apply State.strSync_kept
    | with_reducible apply State.updTstr_kept
    | with_reducible apply Kept.ite
    | split

theorem State.pchFail_kept {P : Part → Prop} [May P .regs_] [May P .lost_] [May P .led_] [May P .trip_] [May P .gate_] [May P .regu_] [May P .out_] {s0 : State} {s : State} {reason : Nat} (hk : Kept P s0 s) :
    Kept P s0 (State.pchFail s reason) := by
  unfold State.pchFail
  try dsimp only
  repeat' first
    | with_reducible assumption
    | with_reducible apply State.beginRamp_kept
    | with_reducible apply State.enterIdle_kept
    | with_reducible apply State.raise_kept
    | with_reducible apply State.setPchStep_kept
    | with_reducible apply State.setRelay_kept
    | with_reducible apply State.wr_kept
    | with_reducible apply Kept.foldl
    | with_reducible apply Kept.ite
    | (intro _; intros; try dsimp only)

theorem State.pchTrip_kept {P : Part → Prop} [May P .regs_] [May P .lost_] [May P .led_] [May P .trip_] [May P .gate_] [May P .regu_] [May P .out_] {s0 : State} {s : State} {r : Nat} (hk : Kept P s0 s) :
    Kept P s0 (State.pchTrip s r) := by
  unfold State.pchTrip
  try dsimp only
  repeat' first
    | with_reducible assumption
    | with_reducible apply State.pchFailMask_kept
    | with_reducible apply State.pchFail_kept
    | with_reducible apply Kept.ite
    | split
    | (with_reducible refine Kept.mk' rfl rfl rfl rfl rfl rfl ?_)

theorem State.inhibitAct_kept {P : Part → Prop} [May P .regs_] [May P .lost_] [May P .trip_] [May P .gate_] [May P .regu_] {s0 : State} {s : State} {r : Nat} (hk : Kept P s0 s) :
    Kept P s0 (State.inhibitAct s r) := by
  unfold State.inhibitAct
  try dsimp only
  repeat' first
    | with_reducible assumption
    | with_reducible apply State.enterIdle_kept
    | with_reducible apply State.inhibitString_kept
    | with_reducible apply State.updTstr_kept

theorem State.startAct_kept {P : Part → Prop} [May P .fresh_] [May P .regs_] [May P .lost_] [May P .led_] [May P .trip_] [May P .gate_] [May P .regu_] [May P .out_] {s0 : State} {s : State} {r : Nat} {act : Nat} {cause : Nat} {latch : Bool} (hk : Kept P s0 s) :
    Kept P s0 (State.startAct s r act cause latch) := by
  unfold State.startAct
  try dsimp only
  repeat' first
    | with_reducible assumption
    | with_reducible apply State.alertSync_kept
    | with_reducible apply State.beginRamp_kept
    | with_reducible apply State.excEnd_kept
    | with_reducible apply State.hcOff_kept
    | with_reducible apply State.inhibitAct_kept
    | with_reducible apply State.pchTrip_kept
    | with_reducible apply State.setSt_kept
    | with_reducible apply State.strSync_kept
    | with_reducible apply State.updTstr_kept
    | with_reducible apply State.wr_kept
    | with_reducible apply Kept.ite
    | split

theorem State.evalString_kept {P : Part → Prop} [May P .fresh_] [May P .regs_] [May P .lost_] [May P .led_] [May P .trip_] [May P .gate_] [May P .regu_] [May P .out_] {s0 : State} {s : State} {r : Nat} (hk : Kept P s0 s) :
    Kept P s0 (State.evalString s r) := by
  unfold State.evalString
  try dsimp only
  repeat' first
    | with_reducible assumption
    | with_reducible apply State.startAct_kept
    | with_reducible apply State.strSync_kept
    | with_reducible apply Kept.ite

theorem State.evalDerate_kept {P : Part → Prop} [May P .regs_] [May P .lost_] [May P .trip_] {s0 : State} {s : State} {r : Nat} (hk : Kept P s0 s) :
    Kept P s0 (State.evalDerate s r) := by
  unfold State.evalDerate
  try dsimp only
  repeat' first
    | with_reducible assumption
    | with_reducible apply State.setSt_kept
    | with_reducible apply State.updTstr_kept
    | with_reducible apply Kept.ite

theorem State.orphanSeq_kept {P : Part → Prop} [May P .fresh_] [May P .regs_] [May P .lost_] [May P .led_] [May P .trip_] [May P .gate_] [May P .regu_] [May P .out_] {s0 : State} {s : State} (hk : Kept P s0 s) :
    Kept P s0 (State.orphanSeq s) := by
  unfold State.orphanSeq
  try dsimp only
  repeat' first
    | with_reducible assumption
    | with_reducible apply State.raise_kept
    | with_reducible apply State.startAct_kept
    | with_reducible apply Kept.foldl
    | (intro _; intros; try dsimp only)
    | (with_reducible refine Kept.mk' rfl rfl rfl rfl rfl rfl ?_)

theorem State.preseqInhibit_kept {P : Part → Prop} [May P .fresh_] [May P .regs_] [May P .lost_] [May P .led_] [May P .trip_] [May P .gate_] [May P .regu_] [May P .out_] {s0 : State} {s : State} (hk : Kept P s0 s) :
    Kept P s0 (State.preseqInhibit s) := by
  unfold State.preseqInhibit
  try dsimp only
  repeat' first
    | with_reducible assumption
    | with_reducible apply State.hcOff_kept
    | with_reducible apply State.inhibitAct_kept
    | with_reducible apply State.setSt_kept
    | with_reducible apply State.updTstr_kept
    | with_reducible apply Kept.foldl
    | with_reducible apply Kept.ite
    | (intro _; intros; try dsimp only)

theorem State.setActive_kept {P : Part → Prop} [May P .regs_] [May P .lost_] [May P .trip_] {s0 : State} {s : State} {v : Verdict} (hk : Kept P s0 s) :
    Kept P s0 (State.setActive s v) := by
  unfold State.setActive
  try dsimp only
  repeat' first
    | with_reducible assumption
    | with_reducible apply State.activeSync_kept
    | with_reducible apply Kept.ite
    | split
    | (with_reducible refine Kept.mk' rfl rfl rfl rfl rfl rfl ?_)

theorem State.tripEvent_kept {P : Part → Prop} [May P .regs_] [May P .lost_] [May P .led_] {s0 : State} {s : State} {act : Nat} {v : Verdict} (hk : Kept P s0 s) :
    Kept P s0 (State.tripEvent s act v) := by
  unfold State.tripEvent
  try dsimp only
  repeat' first
    | with_reducible assumption
    | with_reducible apply State.hit_kept
    | with_reducible apply State.raise_kept
    | with_reducible apply Kept.ite

theorem State.takeVerdict_kept {P : Part → Prop} [May P .fresh_] [May P .regs_] [May P .lost_] [May P .led_] [May P .trip_] [May P .gate_] [May P .regu_] [May P .out_] {s0 : State} {s : State} {v : Verdict} (hk : Kept P s0 s) :
    Kept P s0 (State.takeVerdict s v) := by
  unfold State.takeVerdict
  try dsimp only
  repeat' first
    | with_reducible assumption
    | with_reducible apply State.orphanSeq_kept
    | with_reducible apply State.preseqInhibit_kept
    | with_reducible apply State.setActive_kept
    | with_reducible apply State.tripEvent_kept
    | with_reducible apply Kept.ite

theorem State.takeVerdicts_kept {P : Part → Prop} [May P .fresh_] [May P .regs_] [May P .lost_] [May P .led_] [May P .swp_] [May P .trip_] [May P .gate_] [May P .regu_] [May P .out_] {s0 : State} {s : State} {vs : List Verdict} (hk : Kept P s0 s) :
    Kept P s0 (State.takeVerdicts s vs) := by
  unfold State.takeVerdicts
  try dsimp only
  repeat' first
    | with_reducible assumption
    | with_reducible apply State.alertSync_kept
    | with_reducible apply State.evalDerate_kept
    | with_reducible apply State.evalString_kept
    | with_reducible apply State.limitsOnChange_kept
    | with_reducible apply State.takeVerdict_kept
    | with_reducible apply State.winTrigger_kept
    | with_reducible apply Kept.foldl
    | with_reducible apply Kept.ite
    | (intro _; intros; try dsimp only)

theorem State.tripFlush_kept {P : Part → Prop} [May P .fresh_] [May P .regs_] [May P .lost_] [May P .led_] [May P .swp_] [May P .trip_] [May P .gate_] [May P .regu_] [May P .out_] {s0 : State} {s : State} (hk : Kept P s0 s) :
    Kept P s0 (State.tripFlush s) := by
  unfold State.tripFlush
  try dsimp only
  repeat' first
    | with_reducible assumption
    | with_reducible apply State.takeVerdicts_kept
    | (with_reducible refine Kept.mk' rfl rfl rfl rfl rfl rfl ?_)

theorem State.pulse_kept {P : Part → Prop} [May P .trip_] {s0 : State} {s : State} {v : Verdict} (hk : Kept P s0 s) :
    Kept P s0 (State.pulse s v) := by
  unfold State.pulse
  try dsimp only
  repeat' first | with_reducible assumption | (with_reducible refine Kept.mk' rfl rfl rfl rfl rfl rfl ?_)

theorem State.pulseString_kept {P : Part → Prop} [May P .trip_] {s0 : State} {s : State} {src : Nat} {key : Nat} {r : Nat} (hk : Kept P s0 s) :
    Kept P s0 (State.pulseString s src key r) := by
  unfold State.pulseString
  try dsimp only
  repeat' first | with_reducible assumption | with_reducible apply State.pulse_kept

theorem State.pullIn_kept {P : Part → Prop} [May P .regs_] [May P .lost_] [May P .trip_] [May P .out_] {s0 : State} {s : State} {r : Nat} (hk : Kept P s0 s) :
    Kept P s0 (State.pullIn s r) := by
  unfold State.pullIn
  try dsimp only
  repeat' first
    | with_reducible assumption
    | with_reducible apply State.lsSync_kept
    | with_reducible apply State.setSt_kept
    | with_reducible apply State.updTstr_kept

theorem State.closeReq_kept {P : Part → Prop} [May P .regs_] [May P .lost_] [May P .led_] [May P .trip_] [May P .out_] {s0 : State} {s : State} {r : Nat} (hk : Kept P s0 s) :
    Kept P s0 (State.closeReq s r) := by
  unfold State.closeReq
  try dsimp only
  repeat' first
    | with_reducible assumption
    | with_reducible apply State.pullIn_kept
    | with_reducible apply State.raise_kept
    | with_reducible apply State.updTstr_kept
    | with_reducible apply Kept.ite

theorem State.updPch_kept {P : Part → Prop} [May P .trip_] {s0 : State} {s : State} {f : Precharge → Precharge} (hk : Kept P s0 s) :
    Kept P s0 (State.updPch s f) := by
  unfold State.updPch
  try dsimp only
  repeat' first | with_reducible assumption | (with_reducible refine Kept.mk' rfl rfl rfl rfl rfl rfl ?_)

theorem State.pchDone_kept {P : Part → Prop} [May P .regs_] [May P .lost_] [May P .led_] [May P .trip_] [May P .regu_] {s0 : State} {s : State} (hk : Kept P s0 s) :
    Kept P s0 (State.pchDone s) := by
  unfold State.pchDone
  try dsimp only
  repeat' first
    | with_reducible assumption
    | with_reducible apply State.enterRun_kept
    | with_reducible apply State.raise_kept
    | with_reducible apply State.setPchStep_kept
    | with_reducible apply State.updTstr_kept
    | with_reducible apply Kept.foldl
    | with_reducible apply Kept.ite
    | (intro _; intros; try dsimp only)

theorem State.pchClose_kept {P : Part → Prop} [May P .regs_] [May P .lost_] [May P .led_] [May P .trip_] [May P .gate_] [May P .regu_] [May P .out_] {s0 : State} {s : State} (hk : Kept P s0 s) :
    Kept P s0 (State.pchClose s) := by
  unfold State.pchClose
  try dsimp only
  repeat' first
    | with_reducible assumption
    | with_reducible apply State.closeReq_kept
    | with_reducible apply State.enterIdle_kept
    | with_reducible apply State.pchDone_kept
    | with_reducible apply State.pchFailMask_kept
    | with_reducible apply State.setPchStep_kept
    | with_reducible apply State.updPch_kept
    | with_reducible apply Kept.foldl
    | with_reducible apply Kept.ite
    | (intro _; intros; try dsimp only)

theorem State.pchBuck_kept {P : Part → Prop} [May P .fresh_] [May P .regs_] [May P .lost_] [May P .led_] [May P .trip_] [May P .gate_] [May P .regu_] {s0 : State} {s : State} {mask : Nat} (hk : Kept P s0 s) :
    Kept P s0 (State.pchBuck s mask) := by
  unfold State.pchBuck
  try dsimp only
  repeat' first
    | with_reducible assumption
    | with_reducible apply State.drew_kept
    | with_reducible apply State.inhibitString_kept
    | with_reducible apply State.pchDone_kept
    | with_reducible apply State.setMode_kept
    | with_reducible apply State.setPchStep_kept
    | with_reducible apply State.updPch_kept
    | with_reducible apply State.updRstr_kept
    | with_reducible apply Kept.foldl
    | with_reducible apply Kept.ite
    | (intro _; intros; try dsimp only)

theorem State.pchBus_kept {P : Part → Prop} [May P .fresh_] [May P .regs_] [May P .lost_] [May P .led_] [May P .trip_] [May P .gate_] [May P .regu_] {s0 : State} {s : State} (hk : Kept P s0 s) :
    Kept P s0 (State.pchBus s) := by
  unfold State.pchBus
  try dsimp only
  repeat' first
    | with_reducible assumption
    | with_reducible apply State.pchBuck_kept
    | with_reducible apply State.updTstr_kept
    | with_reducible apply Kept.ite

theorem State.pchSense_kept {P : Part → Prop} [May P .regs_] [May P .lost_] [May P .led_] [May P .trip_] [May P .gate_] [May P .regu_] [May P .out_] {s0 : State} {s : State} {r : Nat} (hk : Kept P s0 s) :
    Kept P s0 (State.pchSense s r) := by
  unfold State.pchSense
  try dsimp only
  repeat' first
    | with_reducible assumption
    | with_reducible apply State.closeReq_kept
    | with_reducible apply State.pchClose_kept
    | with_reducible apply State.pchFail_kept
    | with_reducible apply State.setPchStep_kept
    | with_reducible apply State.updPch_kept
    | with_reducible apply Kept.ite

theorem State.pchClosed_kept {P : Part → Prop} [May P .regs_] [May P .lost_] [May P .led_] [May P .trip_] [May P .gate_] [May P .regu_] [May P .out_] {s0 : State} {s : State} {r : Nat} {ok : Bool} (hk : Kept P s0 s) :
    Kept P s0 (State.pchClosed s r ok) := by
  unfold State.pchClosed
  try dsimp only
  repeat' first
    | with_reducible assumption
    | with_reducible apply State.pchDone_kept
    | with_reducible apply State.pchFailMask_kept
    | with_reducible apply State.pchFail_kept
    | with_reducible apply State.setMode_kept
    | with_reducible apply State.setPchStep_kept
    | with_reducible apply State.setRelay_kept
    | with_reducible apply State.updPch_kept
    | with_reducible apply State.updRstr_kept
    | with_reducible apply Kept.ite

theorem State.cfbChanged_kept {P : Part → Prop} [May P .regs_] [May P .lost_] [May P .led_] [May P .trip_] [May P .gate_] [May P .regu_] [May P .out_] {s0 : State} {s : State} {r : Nat} (hk : Kept P s0 s) :
    Kept P s0 (State.cfbChanged s r) := by
  unfold State.cfbChanged
  try dsimp only
  repeat' first
    | with_reducible assumption
    | with_reducible apply State.pchClosed_kept
    | with_reducible apply State.pulseString_kept
    | with_reducible apply State.raise_kept
    | with_reducible apply State.setSt_kept
    | with_reducible apply State.wearBoth_kept
    | with_reducible apply State.wearMax_kept
    | with_reducible apply State.wrBit_kept
    | with_reducible apply Kept.ite

theorem State.senseRecord_kept {P : Part → Prop} [May P .regs_] [May P .lost_] [May P .led_] [May P .trip_] [May P .gate_] [May P .regu_] [May P .out_] {s0 : State} {s : State} {r : Nat} {v : Int} {vp : Int} {vn : Int} {sweep : Bool} (hk : Kept P s0 s) :
    Kept P s0 (State.senseRecord s r v vp vn sweep) := by
  unfold State.senseRecord
  try dsimp only
  repeat' first
    | with_reducible assumption
    | with_reducible apply State.enterIdle_kept
    | with_reducible apply State.pchSense_kept
    | with_reducible apply State.updTstr_kept
    | with_reducible apply Kept.ite

theorem State.release_kept {P : Part → Prop} [May P .regs_] [May P .lost_] [May P .led_] [May P .trip_] [May P .gate_] [May P .regu_] {s0 : State} {s : State} {r : Nat} (hk : Kept P s0 s) :
    Kept P s0 (State.release s r) := by
  unfold State.release
  try dsimp only
  repeat' first
    | with_reducible assumption
    | with_reducible apply State.alertSync_kept
    | with_reducible apply State.enterRun_kept
    | with_reducible apply State.inhibitString_kept
    | with_reducible apply State.raise_kept
    | with_reducible apply State.setSt_kept
    | with_reducible apply State.strSync_kept
    | with_reducible apply State.updTstr_kept
    | with_reducible apply Kept.ite
    | split
    | (with_reducible refine Kept.mk' rfl rfl rfl rfl rfl rfl ?_)

theorem State.tripClr_kept {P : Part → Prop} [May P .regs_] [May P .lost_] [May P .led_] [May P .trip_] [May P .gate_] [May P .regu_] {s0 : State} {s : State} {mask : Nat} (hk : Kept P s0 s) :
    Kept P s0 (State.tripClr s mask) := by
  unfold State.tripClr
  try dsimp only
  repeat' first
    | with_reducible assumption
    | with_reducible apply State.release_kept
    | with_reducible apply Kept.foldl
    | with_reducible apply Kept.ite
    | (intro _; intros; try dsimp only)

theorem State.tripReq_kept {P : Part → Prop} [May P .fresh_] [May P .regs_] [May P .lost_] [May P .led_] [May P .trip_] [May P .gate_] [May P .regu_] [May P .out_] {s0 : State} {s : State} {v : Nat} (hk : Kept P s0 s) :
    Kept P s0 (State.tripReq s v) := by
  unfold State.tripReq
  try dsimp only
  repeat' first
    | with_reducible assumption
    | with_reducible apply State.evalDerate_kept
    | with_reducible apply State.evalString_kept
    | with_reducible apply State.tripEvent_kept
    | with_reducible apply Kept.foldl
    | with_reducible apply Kept.ite
    | (intro _; intros; try dsimp only)
    | split
    | (with_reducible refine Kept.mk' rfl rfl rfl rfl rfl rfl ?_)

theorem State.conOpen_kept {P : Part → Prop} [May P .fresh_] [May P .regs_] [May P .lost_] [May P .led_] [May P .trip_] [May P .gate_] [May P .regu_] [May P .out_] {s0 : State} {s : State} {mask : Nat} (hk : Kept P s0 s) :
    Kept P s0 (State.conOpen s mask) := by
  unfold State.conOpen
  try dsimp only
  repeat' first
    | with_reducible assumption
    | with_reducible apply State.startAct_kept
    | with_reducible apply Kept.foldl
    | with_reducible apply Kept.ite
    | (intro _; intros; try dsimp only)

theorem State.conClose_kept {P : Part → Prop} [May P .regs_] [May P .lost_] [May P .led_] [May P .trip_] [May P .out_] {s0 : State} {s : State} {mask : Nat} (hk : Kept P s0 s) :
    Kept P s0 (State.conClose s mask) := by
  unfold State.conClose
  try dsimp only
  repeat' first
    | with_reducible assumption
    | with_reducible apply State.closeReq_kept
    | with_reducible apply Kept.foldl

theorem State.dlimWritten_kept {P : Part → Prop} [May P .trip_] [May P .regu_] {s0 : State} {s : State} {r : Nat} (hk : Kept P s0 s) :
    Kept P s0 (State.dlimWritten s r) := by
  unfold State.dlimWritten
  try dsimp only
  repeat' first
    | with_reducible assumption
    | with_reducible apply State.limitsOnChange_kept
    | with_reducible apply State.stringSource_kept
    | with_reducible apply State.updTstr_kept
    | with_reducible apply Kept.ite

theorem State.pchRefuse_kept {P : Part → Prop} [May P .regs_] [May P .lost_] [May P .led_] {s0 : State} {s : State} {reason : Nat} (hk : Kept P s0 s) :
    Kept P s0 (State.pchRefuse s reason) := by
  unfold State.pchRefuse
  try dsimp only
  repeat' first
    | with_reducible assumption
    | with_reducible apply State.raise_kept
    | with_reducible apply State.wr_kept

theorem State.pchStart_kept {P : Part → Prop} [May P .fresh_] [May P .regs_] [May P .lost_] [May P .led_] [May P .trip_] [May P .gate_] [May P .regu_] [May P .out_] {s0 : State} {s : State} (hk : Kept P s0 s) :
    Kept P s0 (State.pchStart s) := by
  unfold State.pchStart
  try dsimp only
  repeat' first
    | with_reducible assumption
    | with_reducible apply State.pchBuck_kept
    | with_reducible apply State.setPchStep_kept
    | with_reducible apply State.setRelay_kept
    | with_reducible apply State.updPch_kept
    | with_reducible apply State.wr_kept
    | with_reducible apply Kept.ite

theorem State.pchJoin_kept {P : Part → Prop} [May P .fresh_] [May P .regs_] [May P .lost_] [May P .led_] [May P .trip_] [May P .gate_] [May P .regu_] {s0 : State} {s : State} (hk : Kept P s0 s) :
    Kept P s0 (State.pchJoin s) := by
  unfold State.pchJoin
  try dsimp only
  repeat' first
    | with_reducible assumption
    | with_reducible apply State.pchBuck_kept
    | with_reducible apply State.wr_kept

theorem State.pchAbort_kept {P : Part → Prop} [May P .regs_] [May P .lost_] [May P .led_] [May P .trip_] [May P .gate_] [May P .regu_] [May P .out_] {s0 : State} {s : State} (hk : Kept P s0 s) :
    Kept P s0 (State.pchAbort s) := by
  unfold State.pchAbort
  try dsimp only
  repeat' first | with_reducible assumption | with_reducible apply State.pchFail_kept | with_reducible apply Kept.ite

end Sys2Proof.Machine
end

