-- ==== Sys2Proof/Laws/Kept/SupOps.lean ====
section
/-!
SUPPORT. What the operations of Machine/SupOps.lean keep.
-/

set_option Elab.async false
set_option linter.unusedTactic false
set_option linter.unreachableTactic false

namespace Sys2Proof.Machine

theorem State.clearBytes_kept {P : Part → Prop} [May P .mem_] [May P .fab_] {s0 : State} {s : State} {lo hi : Nat} (hk : Kept P s0 s) : Kept P s0 (s.clearBytes lo hi) :=
  ⟨⟨hk.on.pending, hk.on.otp⟩,
    fun i => ⟨Tab.wf_filter _ _ _ (hk.inv i).mem, (hk.inv i).regs, (hk.inv i).pile, (hk.inv i).inbox⟩,
    hk.parts (Part.same_of rfl rfl (fun x _ _ _ _ h => by
      cases x <;> first | rfl | contradiction | exact absurd May.may h))⟩

theorem State.clearData_kept {P : Part → Prop} [May P .mem_] [May P .fab_] {s0 : State} {s : State} {src : Nat} (hk : Kept P s0 s) :
    Kept P s0 (State.clearData s src) := by
  unfold State.clearData
  try dsimp only
  repeat' first | with_reducible assumption | with_reducible apply State.clearBytes_kept

theorem State.dropHeld_kept {P : Part → Prop} [May P .fab_] {s0 : State} {s : State} {dest : Nat} (hk : Kept P s0 s) :
    Kept P s0 (State.dropHeld s dest) := by
  unfold State.dropHeld
  try dsimp only
  repeat' first | with_reducible assumption | (with_reducible refine Kept.mk' rfl rfl rfl rfl rfl rfl ?_)

theorem State.grainInit_kept {P : Part → Prop} [May P .fab_] [May P .grains_] [May P .inbox_] {s0 : State} {s : State} {src : Nat} {run : Run} (hk : Kept P s0 s) :
    Kept P s0 (s.grainInit src run) :=
  State.setGrain_kept (fun _ => Nat.zero_le _) (State.dropHeld_kept hk)

theorem State.quarantine_kept {P : Part → Prop} [May P .fab_] [May P .grains_] [May P .inbox_] {s0 : State} {s : State} {src : Nat} (hk : Kept P s0 s) : Kept P s0 (s.quarantine src) := by
  unfold State.quarantine
  exact Kept.ite hk (State.shrinkGrain_kept (fun _ => Nat.zero_le _) (State.dropHeld_kept hk))

theorem State.updUnit_kept {P : Part → Prop} [May P .fab_] {s0 : State} {s : State} {u : Nat} {f : FaultUnit → FaultUnit} (hk : Kept P s0 s) :
    Kept P s0 (State.updUnit s u f) := by
  unfold State.updUnit
  try dsimp only
  repeat' first | with_reducible assumption | (with_reducible refine Kept.mk' rfl rfl rfl rfl rfl rfl ?_)

theorem State.restartGrain_kept {P : Part → Prop} [May P .mem_] [May P .fab_] [May P .grains_] [May P .inbox_] {s0 : State} {s : State} {src : Nat} (hk : Kept P s0 s) :
    Kept P s0 (State.restartGrain s src) := by
  unfold State.restartGrain
  try dsimp only
  repeat' first
    | with_reducible assumption
    | with_reducible apply State.clearData_kept
    | with_reducible apply State.grainInit_kept
    | with_reducible apply State.updUnit_kept
    | with_reducible apply Kept.ite

theorem State.resetRegs_kept {P : Part → Prop} [May P .regs_] [May P .lost_] {s0 : State} {s : State} {lo hi : Nat} (hk : Kept P s0 s) : Kept P s0 (s.resetRegs lo hi) :=
  ⟨⟨hk.on.pending, hk.on.otp⟩,
    fun i => ⟨(hk.inv i).mem, Tab.wf_filter _ _ _ (hk.inv i).regs, (hk.inv i).pile, (hk.inv i).inbox⟩,
    hk.parts (fun x h => by cases x <;> first | exact absurd May.may h | rfl | exact fun _ => rfl)⟩

theorem State.resetBlockState_kept {P : Part → Prop} [May P .lnk_] [May P .swp_] [May P .trip_] [May P .gate_] [May P .regu_] [May P .out_] [May P .cur_] [May P .can_] [May P .eth_] {s0 : State} {s : State} {blk : Nat} (hk : Kept P s0 s) :
    Kept P s0 (State.resetBlockState s blk) := by
  unfold State.resetBlockState
  try dsimp only
  repeat' first | with_reducible assumption | split | (with_reducible refine Kept.mk' rfl rfl rfl rfl rfl rfl ?_)

theorem State.keepFields_kept {P : Part → Prop} [May P .regs_] [May P .lost_] {s0 : State} {s : State} {old : State} {fs : List (Nat × Fld)} (hk : Kept P s0 s) :
    Kept P s0 (State.keepFields s old fs) := by
  unfold State.keepFields
  try dsimp only
  repeat' first
    | with_reducible assumption
    | with_reducible apply State.wr_kept
    | with_reducible apply Kept.foldl
    | (intro _; intros; try dsimp only)

theorem State.gateLock_kept {P : Part → Prop} [May P .regs_] [May P .lost_] [May P .led_] {s0 : State} {s : State} {why : Nat} (hk : Kept P s0 s) :
    Kept P s0 (State.gateLock s why) := by
  unfold State.gateLock
  try dsimp only
  repeat' first
    | with_reducible assumption
    | with_reducible apply State.raise_kept
    | with_reducible apply State.wr_kept
    | with_reducible apply Kept.ite

theorem State.isolate_kept {P : Part → Prop} [May P .fab_] [May P .grains_] [May P .inbox_] {s0 : State} {s : State} {blk : Nat} (hk : Kept P s0 s) :
    Kept P s0 (State.isolate s blk) := by
  unfold State.isolate
  try dsimp only
  repeat' first
    | with_reducible assumption
    | with_reducible apply State.quarantine_kept
    | with_reducible apply Kept.foldl
    | (with_reducible refine Kept.mk' rfl rfl rfl rfl rfl rfl ?_)

theorem State.resetBlock_kept {P : Part → Prop} [May P .regs_] [May P .lost_] [May P .lnk_] [May P .swp_] [May P .trip_] [May P .gate_] [May P .regu_] [May P .out_] [May P .cur_] [May P .can_] [May P .eth_] {s0 : State} {s : State} {blk : Nat} (hk : Kept P s0 s) :
    Kept P s0 (State.resetBlock s blk) := by
  unfold State.resetBlock
  try dsimp only
  repeat' first
    | with_reducible assumption
    | with_reducible apply State.keepFields_kept
    | with_reducible apply State.resetBlockState_kept
    | with_reducible apply State.resetRegs_kept
    | with_reducible apply Kept.ite

theorem State.blockUp_kept {P : Part → Prop} [May P .mem_] [May P .fab_] [May P .grains_] [May P .inbox_] {s0 : State} {s : State} {blk : Nat} (hk : Kept P s0 s) :
    Kept P s0 (State.blockUp s blk) := by
  unfold State.blockUp
  try dsimp only
  repeat' first
    | with_reducible assumption
    | with_reducible apply State.restartGrain_kept
    | with_reducible apply State.updUnit_kept
    | with_reducible apply Kept.foldl
    | (with_reducible refine Kept.mk' rfl rfl rfl rfl rfl rfl ?_)

theorem State.wdogStart_kept {P : Part → Prop} [May P .fab_] {s0 : State} {s : State} (hk : Kept P s0 s) :
    Kept P s0 (State.wdogStart s) := by
  unfold State.wdogStart
  try dsimp only
  repeat' first
    | with_reducible assumption
    | with_reducible apply Kept.ite
    | split
    | (with_reducible refine Kept.mk' rfl rfl rfl rfl rfl rfl ?_)

theorem State.holdStart_kept {P : Part → Prop} [May P .regs_] [May P .lost_] [May P .led_] [May P .sv_] {s0 : State} {s : State} (hk : Kept P s0 s) :
    Kept P s0 (State.holdStart s) := by
  unfold State.holdStart
  try dsimp only
  repeat' first
    | with_reducible assumption
    | with_reducible apply State.hit_kept
    | with_reducible apply State.raise_kept
    | with_reducible apply State.wr_kept
    | (with_reducible refine Kept.mk' rfl rfl rfl rfl rfl rfl ?_)

theorem State.regionReset_kept {P : Part → Prop} [May P .regs_] [May P .lost_] [May P .fab_] [May P .grains_] [May P .inbox_] [May P .led_] [May P .lnk_] [May P .swp_] [May P .trip_] [May P .gate_] [May P .regu_] [May P .out_] [May P .cur_] [May P .can_] [May P .eth_] [May P .sv_] {s0 : State} {s : State} {r : Nat} (hk : Kept P s0 s) :
    Kept P s0 (State.regionReset s r) := by
  unfold State.regionReset
  try dsimp only
  repeat' first
    | with_reducible assumption
    | with_reducible apply State.gateLock_kept
    | with_reducible apply State.holdStart_kept
    | with_reducible apply State.isolate_kept
    | with_reducible apply State.resetBlock_kept
    | with_reducible apply State.setReg_kept
    | with_reducible apply State.updUnit_kept
    | with_reducible apply State.wdogStart_kept
    | with_reducible apply Kept.foldl
    | with_reducible apply Kept.ite
    | (intro _; intros; try dsimp only)
    | split
    | (with_reducible refine Kept.mk' rfl rfl rfl rfl rfl rfl ?_)

theorem State.regionUp_kept {P : Part → Prop} [May P .mem_] [May P .fab_] [May P .grains_] [May P .inbox_] [May P .led_] {s0 : State} {s : State} {r : Nat} (hk : Kept P s0 s) :
    Kept P s0 (State.regionUp s r) := by
  unfold State.regionUp
  try dsimp only
  repeat' first
    | with_reducible assumption
    | with_reducible apply State.blockUp_kept
    | with_reducible apply State.commitEnter_kept
    | with_reducible apply State.updUnit_kept
    | with_reducible apply Kept.foldl
    | with_reducible apply Kept.ite
    | split
    | (with_reducible refine Kept.mk' rfl rfl rfl rfl rfl rfl ?_)

theorem State.resetState_kept {P : Part → Prop} [May P .regs_] [May P .lost_] [May P .mem_] [May P .fab_] [May P .grains_] [May P .inbox_] [May P .led_] [May P .lnk_] [May P .swp_] [May P .trip_] [May P .boot_] [May P .gate_] [May P .regu_] [May P .out_] [May P .cur_] [May P .sf_] [May P .can_] [May P .eth_] [May P .corr_] [May P .est_] {s0 : State} {s : State} {power : Bool} (hk : Kept P s0 s) : Kept P s0 (s.resetState power) := by
  unfold State.resetState
  refine State.keepFields_kept ⟨⟨hk.on.pending, hk.on.otp⟩, fun i0 => ?_,
    hk.parts (fun x h => by cases x <;> first | exact absurd May.may h | rfl | exact fun _ => rfl)⟩
  have i := hk.inv i0
  refine ⟨Tab.wf_filter _ _ _ i.mem, Tab.wf_filter _ _ _ i.regs, fun src => ?_, fun src => Nat.zero_le _⟩
  show (Tab.get [] (s.led.pile.filter (fun p => p.1 == srcSV)) src).length ≤ 8
  rw [Tab.get_filter_key (f := fun k => k == srcSV)]
  split
  · exact i.pile src
  · exact Nat.zero_le _

theorem State.tearStores_kept {P : Part → Prop} [May P .fresh_] [May P .mem_] [May P .fab_] {s0 : State} {s : State} (hk : Kept P s0 s) :
    Kept P s0 (State.tearStores s) := by
  unfold State.tearStores
  try dsimp only
  repeat' first
    | with_reducible assumption
    | with_reducible apply State.drew_kept
    | with_reducible apply State.storeLE_kept
    | with_reducible apply Kept.foldl
    | with_reducible apply Kept.ite
    | (intro _; intros; try dsimp only)

theorem State.chipReset_kept {P : Part → Prop} [May P .fresh_] [May P .regs_] [May P .lost_] [May P .mem_] [May P .fab_] [May P .grains_] [May P .inbox_] [May P .led_] [May P .lnk_] [May P .swp_] [May P .trip_] [May P .boot_] [May P .gate_] [May P .regu_] [May P .out_] [May P .cur_] [May P .sf_] [May P .can_] [May P .eth_] [May P .sv_] [May P .corr_] [May P .est_] {s0 : State} {s : State} {cause : Nat} (hk : Kept P s0 s) :
    Kept P s0 (State.chipReset s cause) := by
  unfold State.chipReset
  try dsimp only
  repeat' first
    | with_reducible assumption
    | with_reducible apply State.drainEvents_kept
    | with_reducible apply State.gateLock_kept
    | with_reducible apply State.psClose_kept
    | with_reducible apply State.resetState_kept
    | with_reducible apply State.setReg_kept
    | with_reducible apply State.tearStores_kept
    | with_reducible apply State.wr_kept
    | with_reducible apply Kept.ite
    | split
    | (with_reducible refine Kept.mk' rfl rfl rfl rfl rfl rfl ?_)

theorem State.preseqStart_kept {P : Part → Prop} [May P .fresh_] [May P .regs_] [May P .lost_] [May P .led_] [May P .swp_] [May P .trip_] [May P .gate_] [May P .regu_] [May P .out_] [May P .sv_] {s0 : State} {s : State} {cause : Nat} (hk : Kept P s0 s) :
    Kept P s0 (State.preseqStart s cause) := by
  unfold State.preseqStart
  try dsimp only
  repeat' first
    | with_reducible assumption
    | with_reducible apply State.stringSource_kept
    | with_reducible apply State.tripFlush_kept
    | (with_reducible refine Kept.mk' rfl rfl rfl rfl rfl rfl ?_)

theorem State.pwHold_kept {P : Part → Prop} [May P .regs_] [May P .lost_] [May P .lnk_] [May P .swp_] [May P .trip_] [May P .gate_] [May P .regu_] [May P .out_] [May P .cur_] [May P .can_] [May P .eth_] [May P .sv_] {s0 : State} {s : State} {cause : Nat} (hk : Kept P s0 s) :
    Kept P s0 (State.pwHold s cause) := by
  unfold State.pwHold
  try dsimp only
  repeat' first
    | with_reducible assumption
    | with_reducible apply State.hardOff_kept
    | with_reducible apply State.resetBlock_kept
    | with_reducible apply Kept.foldl
    | (with_reducible refine Kept.mk' rfl rfl rfl rfl rfl rfl ?_)

theorem State.startReset_kept {P : Part → Prop} [May P .fresh_] [May P .regs_] [May P .lost_] [May P .mem_] [May P .fab_] [May P .grains_] [May P .inbox_] [May P .led_] [May P .lnk_] [May P .swp_] [May P .trip_] [May P .boot_] [May P .gate_] [May P .regu_] [May P .out_] [May P .cur_] [May P .sf_] [May P .can_] [May P .eth_] [May P .sv_] [May P .corr_] [May P .est_] {s0 : State} {s : State} {cause : Nat} {way : Nat} (hk : Kept P s0 s) :
    Kept P s0 (State.startReset s cause way) := by
  unfold State.startReset
  try dsimp only
  repeat' first
    | with_reducible assumption
    | with_reducible apply State.chipReset_kept
    | with_reducible apply State.preseqStart_kept
    | with_reducible apply State.pwHold_kept
    | with_reducible apply Kept.ite

theorem State.requestReset_kept {P : Part → Prop} [May P .fresh_] [May P .regs_] [May P .lost_] [May P .mem_] [May P .fab_] [May P .grains_] [May P .inbox_] [May P .led_] [May P .lnk_] [May P .swp_] [May P .trip_] [May P .boot_] [May P .gate_] [May P .regu_] [May P .out_] [May P .cur_] [May P .sf_] [May P .can_] [May P .eth_] [May P .sv_] [May P .corr_] [May P .est_] {s0 : State} {s : State} {cause : Nat} {way : Nat} (hk : Kept P s0 s) :
    Kept P s0 (State.requestReset s cause way) := by
  unfold State.requestReset
  try dsimp only
  repeat' first
    | with_reducible assumption
    | with_reducible apply State.chipReset_kept
    | with_reducible apply State.startReset_kept
    | with_reducible apply Kept.ite
    | split
    | (with_reducible refine Kept.mk' rfl rfl rfl rfl rfl rfl ?_)

theorem State.runDeferred_kept {P : Part → Prop} [May P .fresh_] [May P .regs_] [May P .lost_] [May P .mem_] [May P .fab_] [May P .grains_] [May P .inbox_] [May P .led_] [May P .lnk_] [May P .swp_] [May P .trip_] [May P .boot_] [May P .gate_] [May P .regu_] [May P .out_] [May P .cur_] [May P .sf_] [May P .can_] [May P .eth_] [May P .sv_] [May P .corr_] [May P .est_] {s0 : State} {s : State} (hk : Kept P s0 s) :
    Kept P s0 (State.runDeferred s) := by
  unfold State.runDeferred
  try dsimp only
  repeat' first
    | with_reducible assumption
    | with_reducible apply State.startReset_kept
    | split
    | (with_reducible refine Kept.mk' rfl rfl rfl rfl rfl rfl ?_)

theorem State.chipFatal_kept {P : Part → Prop} [May P .fresh_] [May P .regs_] [May P .lost_] [May P .mem_] [May P .fab_] [May P .grains_] [May P .inbox_] [May P .led_] [May P .lnk_] [May P .swp_] [May P .trip_] [May P .boot_] [May P .gate_] [May P .regu_] [May P .out_] [May P .cur_] [May P .sf_] [May P .can_] [May P .eth_] [May P .sv_] [May P .corr_] [May P .est_] {s0 : State} {s : State} (hk : Kept P s0 s) :
    Kept P s0 (State.chipFatal s) := by
  unfold State.chipFatal
  try dsimp only
  repeat' first | with_reducible assumption | with_reducible apply State.requestReset_kept

theorem State.preseqEnd_kept {P : Part → Prop} [May P .fresh_] [May P .regs_] [May P .lost_] [May P .mem_] [May P .fab_] [May P .grains_] [May P .inbox_] [May P .led_] [May P .lnk_] [May P .swp_] [May P .trip_] [May P .boot_] [May P .gate_] [May P .regu_] [May P .out_] [May P .cur_] [May P .sf_] [May P .can_] [May P .eth_] [May P .sv_] [May P .corr_] [May P .est_] {s0 : State} {s : State} (hk : Kept P s0 s) :
    Kept P s0 (State.preseqEnd s) := by
  unfold State.preseqEnd
  try dsimp only
  repeat' first
    | with_reducible assumption
    | with_reducible apply State.chipReset_kept
    | with_reducible apply State.hcOff_kept
    | with_reducible apply State.raise_kept
    | with_reducible apply State.tripFlush_kept
    | with_reducible apply Kept.foldl
    | with_reducible apply Kept.ite
    | (intro _; intros; try dsimp only)
    | split

end Sys2Proof.Machine
end

