-- ==== Sys2Proof/Laws/Kept/FaultOps.lean ====
section
/-!
SUPPORT. What the operations of Machine/FaultOps.lean keep.
-/

set_option Elab.async false
set_option linter.unusedTactic false
set_option linter.unreachableTactic false

namespace Sys2Proof.Machine

theorem State.fltNote_kept {P : Part → Prop} [May P .regs_] [May P .lost_] [May P .led_] {s0 : State} {s : State} {src : Nat} {code : Nat} {cls : Nat} {level : Nat} {words : List Nat} (hk : Kept P s0 s) :
    Kept P s0 (State.fltNote s src code cls level words) := by
  unfold State.fltNote
  try dsimp only
  repeat' first
    | with_reducible assumption
    | with_reducible apply State.hit_kept
    | with_reducible apply State.raise_kept
    | with_reducible apply State.wr_kept
    | with_reducible apply Kept.ite

theorem State.escalNote_kept {P : Part → Prop} [May P .regs_] [May P .lost_] [May P .led_] {s0 : State} {s : State} {u : Nat} {cls : Nat} {level : Nat} (hk : Kept P s0 s) :
    Kept P s0 (State.escalNote s u cls level) := by
  unfold State.escalNote
  try dsimp only
  repeat' first
    | with_reducible assumption
    | with_reducible apply State.fltNote_kept
    | with_reducible apply State.hit_kept

theorem State.overlapNote_kept {P : Part → Prop} [May P .regs_] [May P .lost_] [May P .led_] {s0 : State} {s : State} {u : Nat} (hk : Kept P s0 s) :
    Kept P s0 (State.overlapNote s u) := by
  unfold State.overlapNote
  try dsimp only
  repeat' first
    | with_reducible assumption
    | with_reducible apply State.hit_kept
    | with_reducible apply State.raise_kept
    | split

theorem State.countFault_kept {P : Part → Prop} [May P .fab_] {s0 : State} {s : State} {u : Nat} {window : Nat} (hk : Kept P s0 s) :
    Kept P s0 (State.countFault s u window).2 := by
  unfold State.countFault
  try dsimp only
  repeat' first | with_reducible assumption | with_reducible apply State.updUnit_kept

theorem State.waitUnit_kept {P : Part → Prop} [May P .fab_] {s0 : State} {s : State} {u : Nat} {wait : Nat} (hk : Kept P s0 s) :
    Kept P s0 (State.waitUnit s u wait) := by
  unfold State.waitUnit
  try dsimp only
  repeat' first
    | with_reducible assumption
    | with_reducible apply State.updUnit_kept
    | with_reducible apply Kept.foldl
    | (intro _; intros; try dsimp only)

theorem State.regionFatal_kept {P : Part → Prop} [May P .fresh_] [May P .regs_] [May P .lost_] [May P .mem_] [May P .fab_] [May P .grains_] [May P .inbox_] [May P .led_] [May P .lnk_] [May P .swp_] [May P .trip_] [May P .boot_] [May P .gate_] [May P .regu_] [May P .out_] [May P .cur_] [May P .sf_] [May P .can_] [May P .eth_] [May P .sv_] [May P .corr_] [May P .est_] {s0 : State} {s : State} {r : Nat} (hk : Kept P s0 s) :
    Kept P s0 (State.regionFatal s r) := by
  unfold State.regionFatal
  try dsimp only
  repeat' first
    | with_reducible assumption
    | with_reducible apply State.chipFatal_kept
    | with_reducible apply State.countFault_kept
    | with_reducible apply State.escalNote_kept
    | with_reducible apply State.overlapNote_kept
    | with_reducible apply State.regionReset_kept
    | with_reducible apply State.updUnit_kept
    | with_reducible apply Kept.foldl
    | with_reducible apply Kept.ite
    | (with_reducible refine Kept.of_snd ‹_› ?_)
    | (intro _; intros; try dsimp only)

theorem State.blockFault_kept {P : Part → Prop} [May P .fresh_] [May P .regs_] [May P .lost_] [May P .mem_] [May P .fab_] [May P .grains_] [May P .inbox_] [May P .led_] [May P .lnk_] [May P .swp_] [May P .trip_] [May P .boot_] [May P .gate_] [May P .regu_] [May P .out_] [May P .cur_] [May P .sf_] [May P .can_] [May P .eth_] [May P .sv_] [May P .corr_] [May P .est_] {s0 : State} {s : State} {blk : Nat} (hk : Kept P s0 s) :
    Kept P s0 (State.blockFault s blk) := by
  unfold State.blockFault
  try dsimp only
  repeat' first
    | with_reducible assumption
    | with_reducible apply State.countFault_kept
    | with_reducible apply State.escalNote_kept
    | with_reducible apply State.isolate_kept
    | with_reducible apply State.overlapNote_kept
    | with_reducible apply State.regionFatal_kept
    | with_reducible apply State.waitUnit_kept
    | with_reducible apply Kept.ite

theorem State.grainFault_kept {P : Part → Prop} [May P .regs_] [May P .lost_] [May P .fab_] [May P .grains_] [May P .inbox_] [May P .led_] {s0 : State} {s : State} {g : Nat} (hk : Kept P s0 s) :
    Kept P s0 (State.grainFault s g) := by
  unfold State.grainFault
  try dsimp only
  repeat' first
    | with_reducible assumption
    | with_reducible apply State.countFault_kept
    | with_reducible apply State.escalNote_kept
    | with_reducible apply State.overlapNote_kept
    | with_reducible apply State.quarantine_kept
    | with_reducible apply State.updUnit_kept
    | with_reducible apply State.waitUnit_kept
    | with_reducible apply Kept.ite

theorem State.escalate_kept {P : Part → Prop} [May P .fresh_] [May P .regs_] [May P .lost_] [May P .mem_] [May P .fab_] [May P .grains_] [May P .inbox_] [May P .led_] [May P .lnk_] [May P .swp_] [May P .trip_] [May P .boot_] [May P .gate_] [May P .regu_] [May P .out_] [May P .cur_] [May P .sf_] [May P .can_] [May P .eth_] [May P .sv_] [May P .corr_] [May P .est_] {s0 : State} {s : State} {u : Nat} (hk : Kept P s0 s) :
    Kept P s0 (State.escalate s u) := by
  unfold State.escalate
  try dsimp only
  repeat' first
    | with_reducible assumption
    | with_reducible apply State.chipFatal_kept
    | with_reducible apply State.escalNote_kept
    | with_reducible apply State.quarantine_kept
    | with_reducible apply State.regionFatal_kept
    | with_reducible apply State.updUnit_kept
    | split

theorem State.linkFailure_kept {P : Part → Prop} [May P .fresh_] [May P .regs_] [May P .lost_] [May P .mem_] [May P .fab_] [May P .grains_] [May P .inbox_] [May P .led_] [May P .lnk_] [May P .swp_] [May P .trip_] [May P .boot_] [May P .gate_] [May P .regu_] [May P .out_] [May P .cur_] [May P .sf_] [May P .can_] [May P .eth_] [May P .sv_] [May P .corr_] [May P .est_] {s0 : State} {s : State} {u : Nat} (hk : Kept P s0 s) :
    Kept P s0 (State.linkFailure s u) := by
  unfold State.linkFailure
  try dsimp only
  repeat' first
    | with_reducible assumption
    | with_reducible apply State.blockFault_kept
    | with_reducible apply State.chipFatal_kept
    | with_reducible apply State.fltNote_kept
    | with_reducible apply State.regionFatal_kept
    | split

theorem State.eccCorrected_kept {P : Part → Prop} [May P .regs_] [May P .lost_] [May P .fab_] [May P .led_] {s0 : State} {s : State} {a : Nat} (hk : Kept P s0 s) :
    Kept P s0 (State.eccCorrected s a) := by
  unfold State.eccCorrected
  try dsimp only
  repeat' first
    | with_reducible assumption
    | with_reducible apply State.count_kept
    | with_reducible apply State.fltNote_kept
    | with_reducible apply Kept.ite

theorem State.eccFailed_kept {P : Part → Prop} [May P .regs_] [May P .lost_] [May P .fab_] [May P .grains_] [May P .inbox_] [May P .led_] {s0 : State} {s : State} {a : Nat} (hk : Kept P s0 s) :
    Kept P s0 (State.eccFailed s a) := by
  unfold State.eccFailed
  try dsimp only
  repeat' first
    | with_reducible assumption
    | with_reducible apply State.fltNote_kept
    | with_reducible apply State.grainFault_kept
    | with_reducible apply State.setPoison_kept
    | with_reducible apply Kept.ite

theorem State.setSource_kept {P : Part → Prop} [May P .fab_] {s0 : State} {s : State} {u : Nat} {code : Nat} {on : Bool} (hk : Kept P s0 s) :
    Kept P s0 (State.setSource s u code on) := by
  unfold State.setSource
  try dsimp only
  repeat' first | with_reducible assumption | with_reducible apply State.updUnit_kept

theorem State.fltRel_kept {P : Part → Prop} [May P .regs_] [May P .lost_] [May P .mem_] [May P .fab_] [May P .grains_] [May P .inbox_] [May P .lnk_] [May P .swp_] [May P .trip_] [May P .gate_] [May P .regu_] [May P .out_] [May P .cur_] [May P .can_] [May P .eth_] {s0 : State} {s : State} {u : Nat} (hk : Kept P s0 s) :
    Kept P s0 (State.fltRel s u) := by
  unfold State.fltRel
  try dsimp only
  repeat' first
    | with_reducible assumption
    | with_reducible apply State.blockUp_kept
    | with_reducible apply State.clearData_kept
    | with_reducible apply State.grainInit_kept
    | with_reducible apply State.resetBlock_kept
    | with_reducible apply State.updUnit_kept
    | with_reducible apply Kept.ite

end Sys2Proof.Machine
end

