-- ==== Sys2Proof/Laws/Kept/BootOps.lean ====
section
/-!
SUPPORT. What the operations of Machine/BootOps.lean keep.
-/

set_option Elab.async false
set_option linter.unusedTactic false
set_option linter.unreachableTactic false

namespace Sys2Proof.Machine

theorem State.checkSlot_kept {P : Part → Prop} [May P .lost_] [May P .led_] {s0 : State} {s : State} {slot : Nat} (hk : Kept P s0 s) :
    Kept P s0 (State.checkSlot s slot).2 := by
  unfold State.checkSlot
  try dsimp only
  repeat' first
    | with_reducible assumption
    | with_reducible apply State.raise_kept
    | with_reducible apply Kept.ite
    | split

theorem State.slotStateWrite_kept {P : Part → Prop} [May P .mem_] [May P .fab_] {s0 : State} {s : State} {slot : Nat} {v : Nat} (hk : Kept P s0 s) :
    Kept P s0 (State.slotStateWrite s slot v) := by
  unfold State.slotStateWrite
  try dsimp only
  repeat' first | with_reducible assumption | with_reducible apply State.mramWrite_kept

theorem State.confirm_kept {P : Part → Prop} [May P .lost_] [May P .mem_] [May P .fab_] [May P .led_] {s0 : State} {s : State} (hk : Kept P s0 s) :
    Kept P s0 (State.confirm s) := by
  unfold State.confirm
  try dsimp only
  repeat' first
    | with_reducible assumption
    | with_reducible apply State.raise_kept
    | with_reducible apply State.slotStateWrite_kept

theorem State.arbBurn_kept {P : Part → Prop} [May P .boot_] {s0 : State} {s : State} {v : Nat} (hk : Kept P s0 s) :
    Kept P s0 (State.arbBurn s v) := by
  unfold State.arbBurn
  try dsimp only
  repeat' first
    | with_reducible assumption
    | with_reducible apply State.burnBit_kept
    | with_reducible apply Kept.foldl
    | with_reducible apply Kept.ite
    | (intro _; intros; try dsimp only)

theorem State.arbGo_kept {P : Part → Prop} [May P .lost_] [May P .led_] [May P .boot_] {s0 : State} {s : State} {v : Nat} (hk : Kept P s0 s) :
    Kept P s0 (State.arbGo s v) := by
  unfold State.arbGo
  try dsimp only
  repeat' first
    | with_reducible assumption
    | with_reducible apply State.arbBurn_kept
    | with_reducible apply State.raise_kept

theorem State.revGo_kept {P : Part → Prop} [May P .lost_] [May P .led_] [May P .boot_] {s0 : State} {s : State} {k : Nat} (hk : Kept P s0 s) :
    Kept P s0 (State.revGo s k) := by
  unfold State.revGo
  try dsimp only
  repeat' first
    | with_reducible assumption
    | with_reducible apply State.burnBit_kept
    | with_reducible apply State.raise_kept

theorem State.dbgClose_kept {P : Part → Prop} [May P .regs_] [May P .lost_] [May P .boot_] {s0 : State} {s : State} (hk : Kept P s0 s) :
    Kept P s0 (State.dbgClose s) := by
  unfold State.dbgClose
  try dsimp only
  repeat' first
    | with_reducible assumption
    | with_reducible apply State.wr_kept
    | (with_reducible refine Kept.mk' rfl rfl rfl rfl rfl rfl ?_)

theorem State.dbgGo_kept {P : Part → Prop} [May P .regs_] [May P .lost_] [May P .led_] [May P .boot_] {s0 : State} {s : State} (hk : Kept P s0 s) :
    Kept P s0 (State.dbgGo s) := by
  unfold State.dbgGo
  try dsimp only
  repeat' first
    | with_reducible assumption
    | with_reducible apply State.raise_kept
    | with_reducible apply State.wr_kept
    | with_reducible apply Kept.ite
    | split
    | (with_reducible refine Kept.mk' rfl rfl rfl rfl rfl rfl ?_)

theorem State.otpGo_kept {P : Part → Prop} [May P .lost_] [May P .led_] [May P .boot_] {s0 : State} {s : State} {i : Nat} (hk : Kept P s0 s) :
    Kept P s0 (State.otpGo s i) := by
  unfold State.otpGo
  try dsimp only
  repeat' first
    | with_reducible assumption
    | with_reducible apply State.burnBit_kept
    | with_reducible apply State.raise_kept

theorem State.pwZero_kept {P : Part → Prop} [May P .regs_] [May P .lost_] {s0 : State} {s : State} (hk : Kept P s0 s) :
    Kept P s0 (State.pwZero s) := by
  unfold State.pwZero
  try dsimp only
  repeat' first
    | with_reducible assumption
    | with_reducible apply State.setReg_kept
    | with_reducible apply Kept.foldl
    | (intro _; intros; try dsimp only)

theorem State.lockoutStart_kept {P : Part → Prop} [May P .regs_] [May P .lost_] [May P .led_] [May P .boot_] {s0 : State} {s : State} {slot : Nat} (hk : Kept P s0 s) :
    Kept P s0 (State.lockoutStart s slot) := by
  unfold State.lockoutStart
  try dsimp only
  repeat' first
    | with_reducible assumption
    | with_reducible apply State.raise_kept
    | with_reducible apply State.wr_kept
    | (with_reducible refine Kept.mk' rfl rfl rfl rfl rfl rfl ?_)

theorem State.unlock_kept {P : Part → Prop} [May P .regs_] [May P .lost_] [May P .led_] [May P .boot_] {s0 : State} {s : State} {slot : Nat} {len : Nat} (hk : Kept P s0 s) :
    Kept P s0 (State.unlock s slot len) := by
  unfold State.unlock
  try dsimp only
  repeat' first
    | with_reducible assumption
    | with_reducible apply State.lockoutStart_kept
    | with_reducible apply State.pwZero_kept
    | with_reducible apply State.raise_kept
    | with_reducible apply State.wr_kept
    | with_reducible apply Kept.ite
    | split
    | (with_reducible refine Kept.mk' rfl rfl rfl rfl rfl rfl ?_)

theorem State.setpw_kept {P : Part → Prop} [May P .fresh_] [May P .regs_] [May P .lost_] [May P .led_] [May P .boot_] {s0 : State} {s : State} {slot : Nat} {len : Nat} (hk : Kept P s0 s) :
    Kept P s0 (State.setpw s slot len) := by
  unfold State.setpw
  try dsimp only
  repeat' first
    | with_reducible assumption
    | with_reducible apply State.drew_kept
    | with_reducible apply State.pwZero_kept
    | with_reducible apply State.raise_kept
    | with_reducible apply State.wrBit_kept
    | (with_reducible refine Kept.mk' rfl rfl rfl rfl rfl rfl ?_)

theorem State.clrpw_kept {P : Part → Prop} [May P .regs_] [May P .lost_] [May P .led_] [May P .boot_] {s0 : State} {s : State} {slot : Nat} (hk : Kept P s0 s) :
    Kept P s0 (State.clrpw s slot) := by
  unfold State.clrpw
  try dsimp only
  repeat' first
    | with_reducible assumption
    | with_reducible apply State.pwZero_kept
    | with_reducible apply State.raise_kept
    | with_reducible apply State.wrBit_kept
    | (with_reducible refine Kept.mk' rfl rfl rfl rfl rfl rfl ?_)

theorem State.keyTake_kept {P : Part → Prop} [May P .regs_] [May P .lost_] [May P .led_] [May P .boot_] {s0 : State} {s : State} (hk : Kept P s0 s) :
    Kept P s0 (State.keyTake s) := by
  unfold State.keyTake
  try dsimp only
  repeat' first
    | with_reducible assumption
    | with_reducible apply State.raise_kept
    | with_reducible apply State.wrBit_kept
    | with_reducible apply Kept.ite
    | split
    | (with_reducible refine Kept.mk' rfl rfl rfl rfl rfl rfl ?_)

end Sys2Proof.Machine
end

