-- ==== Sys2Proof/Laws/Kept/BootRom.lean ====
section
/-!
SUPPORT. What the operations of Machine/BootRom.lean keep.
-/

set_option Elab.async false
set_option linter.unusedTactic false
set_option linter.unreachableTactic false

namespace Sys2Proof.Machine

theorem State.enterRecovery_kept {P : Part → Prop} [May P .regs_] [May P .lost_] [May P .led_] [May P .boot_] {s0 : State} {s : State} {bad : List Nat} {iface : Nat} (hk : Kept P s0 s) :
    Kept P s0 (State.enterRecovery s bad iface) := by
  unfold State.enterRecovery
  try dsimp only
  repeat' first
    | with_reducible assumption
    | with_reducible apply State.checkSlot_kept
    | with_reducible apply State.raise_kept
    | with_reducible apply State.wr_kept
    | with_reducible apply Kept.ite
    | (with_reducible refine Kept.of_snd ‹_› ?_)
    | split
    | (with_reducible refine Kept.mk' rfl rfl rfl rfl rfl rfl ?_)

theorem State.loadSegments_kept {P : Part → Prop} [May P .mem_] [May P .fab_] {s0 : State} {s : State} {slot : Nat} (hk : Kept P s0 s) :
    Kept P s0 (State.loadSegments s slot) := by
  unfold State.loadSegments
  try dsimp only
  repeat' first
    | with_reducible assumption
    | with_reducible apply State.storeBytes_kept
    | with_reducible apply Kept.foldl
    | (intro _; intros; try dsimp only)
    | (with_reducible refine Kept.mk' rfl rfl rfl rfl rfl rfl ?_)

theorem State.startGrains_kept {P : Part → Prop} [May P .fab_] [May P .grains_] [May P .inbox_] {s0 : State} {s : State} {slot : Nat} (hk : Kept P s0 s) :
    Kept P s0 (State.startGrains s slot) := by
  unfold State.startGrains
  try dsimp only
  repeat' first
    | with_reducible assumption
    | with_reducible apply State.grainInit_kept
    | with_reducible apply Kept.foldl
    | with_reducible apply Kept.ite
    | (intro _; intros; try dsimp only)

theorem State.bootTake_kept {P : Part → Prop} [May P .regs_] [May P .lost_] [May P .mem_] [May P .fab_] [May P .grains_] [May P .inbox_] [May P .led_] [May P .boot_] {s0 : State} {s : State} {slot : Nat} {outcome : Nat} (hk : Kept P s0 s) :
    Kept P s0 (State.bootTake s slot outcome) := by
  unfold State.bootTake
  try dsimp only
  repeat' first
    | with_reducible assumption
    | with_reducible apply State.loadSegments_kept
    | with_reducible apply State.raise_kept
    | with_reducible apply State.slotStateWrite_kept
    | with_reducible apply State.startGrains_kept
    | with_reducible apply State.wr_kept
    | with_reducible apply Kept.ite
    | split
    | (with_reducible refine Kept.mk' rfl rfl rfl rfl rfl rfl ?_)

theorem State.bootTry_kept {P : Part → Prop} [May P .regs_] [May P .lost_] [May P .mem_] [May P .fab_] [May P .grains_] [May P .inbox_] [May P .led_] [May P .boot_] {s0 : State} {s : State} {bad : List Nat} {first : Bool} {l : List Nat} (hk : Kept P s0 s) :
    Kept P s0 (s.bootTry bad first l) := by
  induction l generalizing s bad first with
  | nil => exact State.enterRecovery_kept hk
  | cons slot rest ih =>
    unfold State.bootTry
    dsimp only
    refine Kept.ite (ih (State.slotStateWrite_kept hk)) (Kept.ite ?_ ?_)
    · exact State.bootTake_kept (State.checkSlot_kept hk)
    · exact ih (State.checkSlot_kept hk)

theorem State.bootForced_kept {P : Part → Prop} [May P .regs_] [May P .lost_] [May P .mem_] [May P .fab_] [May P .grains_] [May P .inbox_] [May P .led_] [May P .boot_] {s0 : State} {s : State} {slot : Nat} (hk : Kept P s0 s) :
    Kept P s0 (State.bootForced s slot) := by
  unfold State.bootForced
  try dsimp only
  repeat' first
    | with_reducible assumption
    | with_reducible apply State.bootTake_kept
    | with_reducible apply State.checkSlot_kept
    | with_reducible apply State.enterRecovery_kept
    | with_reducible apply State.slotStateWrite_kept
    | with_reducible apply Kept.ite
    | (with_reducible refine Kept.of_snd ‹_› ?_)
    | split

theorem execBootRom_kept {P : Part → Prop} [May P .regs_] [May P .lost_] [May P .mem_] [May P .fab_] [May P .grains_] [May P .inbox_] [May P .led_] [May P .boot_] {s0 : State} {s : State} {pins : Fin 8} {t : Nat} (hk : Kept P s0 s) :
    KeptO P s0 (execBootRom s pins t) := by
  unfold execBootRom
  try dsimp only
  repeat' first
    | with_reducible assumption
    | with_reducible apply State.at_kept
    | with_reducible apply State.bootForced_kept
    | with_reducible apply State.bootTry_kept
    | with_reducible apply State.enterRecovery_kept
    | with_reducible apply State.raise_kept
    | with_reducible apply State.wr_kept
    | with_reducible apply KeptO.of_next
    | with_reducible apply KeptO.ite
    | with_reducible apply Kept.ite

theorem State.reply_kept {P : Part → Prop} [May P .boot_] {s0 : State} {s : State} {typ : Nat} {status : Nat} {data : List Nat} (hk : Kept P s0 s) :
    Kept P s0 (State.reply s typ status data) := by
  unfold State.reply
  try dsimp only
  repeat' first | with_reducible assumption | split | (with_reducible refine Kept.mk' rfl rfl rfl rfl rfl rfl ?_)

theorem State.recCommand_kept {P : Part → Prop} [May P .boot_] {s0 : State} {s : State} {typ : Nat} {seq : Nat} {f : Recover → State → State} (hf : ∀ x0 s, Kept P s0 s → Kept P s0 (f x0 s)) (hk : Kept P s0 s) :
    Kept P s0 (State.recCommand s typ seq f) := by
  unfold State.recCommand
  try dsimp only
  repeat' first
    | with_reducible assumption
    | with_reducible apply State.reply_kept
    | with_reducible apply Kept.ite
    | split
    | with_reducible apply hf
    | (with_reducible refine Kept.mk' rfl rfl rfl rfl rfl rfl ?_)

theorem execHello_kept {P : Part → Prop} [May P .boot_] {s0 : State} {s : State} {seq : Fin 65536} {t : Nat} (hk : Kept P s0 s) :
    KeptO P s0 (execHello s seq t) := by
  unfold execHello
  try dsimp only
  repeat' first
    | with_reducible assumption
    | with_reducible apply State.at_kept
    | with_reducible apply State.recCommand_kept
    | with_reducible apply State.reply_kept
    | with_reducible apply KeptO.of_next
    | (intro _; intros; try dsimp only)

theorem execWrite_kept {P : Part → Prop} [May P .mem_] [May P .fab_] [May P .boot_] {s0 : State} {s : State} {seq : Fin 65536} {off : Nat} {data : List Nat} {t : Nat} (hk : Kept P s0 s) :
    KeptO P s0 (execWrite s seq off data t) := by
  unfold execWrite
  try dsimp only
  repeat' first
    | with_reducible assumption
    | with_reducible apply State.at_kept
    | with_reducible apply State.mramWrite_kept
    | with_reducible apply State.recCommand_kept
    | with_reducible apply State.reply_kept
    | with_reducible apply State.setPoison_kept
    | with_reducible apply State.storeBytes_kept
    | with_reducible apply KeptO.of_next
    | with_reducible apply Kept.foldl
    | with_reducible apply KeptO.ite
    | with_reducible apply Kept.ite
    | (intro _; intros; try dsimp only)
    | split
    | (with_reducible refine Kept.mk' rfl rfl rfl rfl rfl rfl ?_)

theorem execVerify_kept {P : Part → Prop} [May P .lost_] [May P .led_] [May P .boot_] {s0 : State} {s : State} {seq : Fin 65536} {t : Nat} (hk : Kept P s0 s) :
    KeptO P s0 (execVerify s seq t) := by
  unfold execVerify
  try dsimp only
  repeat' first
    | with_reducible assumption
    | with_reducible apply State.at_kept
    | with_reducible apply State.checkSlot_kept
    | with_reducible apply State.recCommand_kept
    | with_reducible apply State.reply_kept
    | with_reducible apply KeptO.of_next
    | with_reducible apply KeptO.ite
    | with_reducible apply Kept.ite
    | (with_reducible refine Kept.of_snd ‹_› ?_)
    | (intro _; intros; try dsimp only)
    | split
    | (with_reducible refine Kept.mk' rfl rfl rfl rfl rfl rfl ?_)

theorem execCommit_kept {P : Part → Prop} [May P .fresh_] [May P .regs_] [May P .lost_] [May P .mem_] [May P .fab_] [May P .grains_] [May P .inbox_] [May P .led_] [May P .lnk_] [May P .swp_] [May P .trip_] [May P .boot_] [May P .gate_] [May P .regu_] [May P .out_] [May P .cur_] [May P .sf_] [May P .can_] [May P .eth_] [May P .sv_] [May P .corr_] [May P .est_] {s0 : State} {s : State} {seq : Fin 65536} {t : Nat} (hk : Kept P s0 s) :
    KeptO P s0 (execCommit s seq t) := by
  unfold execCommit
  try dsimp only
  repeat' first
    | with_reducible assumption
    | with_reducible apply State.at_kept
    | with_reducible apply State.recCommand_kept
    | with_reducible apply State.reply_kept
    | with_reducible apply State.requestReset_kept
    | with_reducible apply State.slotStateWrite_kept
    | with_reducible apply KeptO.of_next
    | with_reducible apply KeptO.ite
    | with_reducible apply Kept.ite
    | (intro _; intros; try dsimp only)

theorem execDebugChallengeRead_kept {P : Part → Prop} [May P .fresh_] [May P .regs_] [May P .lost_] [May P .fab_] [May P .led_] [May P .boot_] {s0 : State} {s : State} {t : Nat} (hk : Kept P s0 s) :
    KeptO P s0 (execDebugChallengeRead s t) := by
  unfold execDebugChallengeRead
  try dsimp only
  repeat' first
    | with_reducible assumption
    | with_reducible apply State.at_kept
    | with_reducible apply State.busRead_kept
    | with_reducible apply KeptO.of_next
    | (with_reducible refine Kept.of_snd ‹_› ?_)
    | (with_reducible refine Kept.mk' rfl rfl rfl rfl rfl rfl ?_)

theorem execDebugExpire_kept {P : Part → Prop} [May P .regs_] [May P .lost_] [May P .boot_] {s0 : State} {s : State} {t : Nat} (hk : Kept P s0 s) :
    KeptO P s0 (execDebugExpire s t) := by
  unfold execDebugExpire
  try dsimp only
  repeat' first
    | with_reducible assumption
    | with_reducible apply State.at_kept
    | with_reducible apply State.dbgClose_kept
    | with_reducible apply KeptO.of_next
    | with_reducible apply KeptO.ite
    | with_reducible apply Kept.ite
    | split
    | (with_reducible refine Kept.mk' rfl rfl rfl rfl rfl rfl ?_)

theorem execCgLockoutEnd_kept {P : Part → Prop} [May P .boot_] {s0 : State} {s : State} {t : Nat} (hk : Kept P s0 s) :
    KeptO P s0 (execCgLockoutEnd s t) := by
  unfold execCgLockoutEnd
  try dsimp only
  repeat' first
    | with_reducible assumption
    | with_reducible apply State.at_kept
    | with_reducible apply KeptO.of_next
    | with_reducible apply KeptO.ite
    | with_reducible apply Kept.ite
    | split
    | (with_reducible refine Kept.mk' rfl rfl rfl rfl rfl rfl ?_)

theorem execCgIdleTimeout_kept {P : Part → Prop} [May P .regs_] [May P .lost_] [May P .led_] {s0 : State} {s : State} {t : Nat} (hk : Kept P s0 s) :
    KeptO P s0 (execCgIdleTimeout s t) := by
  unfold execCgIdleTimeout
  try dsimp only
  repeat' first
    | with_reducible assumption
    | with_reducible apply State.at_kept
    | with_reducible apply State.gateLock_kept
    | with_reducible apply KeptO.of_next
    | with_reducible apply KeptO.ite
    | with_reducible apply Kept.ite

end Sys2Proof.Machine
end

