-- ==== Sys2Proof/Laws/Kept/CanOps.lean ====
section
/-!
SUPPORT. What the operations of Machine/CanOps.lean keep.
-/

set_option Elab.async false
set_option linter.unusedTactic false
set_option linter.unreachableTactic false

namespace Sys2Proof.Machine

theorem State.updCan_kept {P : Part → Prop} [May P .can_] {s0 : State} {s : State} {n : Nat} {f : Can → Can} (hk : Kept P s0 s) :
    Kept P s0 (State.updCan s n f) := by
  unfold State.updCan
  try dsimp only
  repeat' first | with_reducible assumption | (with_reducible refine Kept.mk' rfl rfl rfl rfl rfl rfl ?_)

theorem State.canPost_kept {P : Part → Prop} [May P .fab_] [May P .inbox_] {s0 : State} {s : State} {n : Nat} {code : Nat} {dest : Nat} {a : Nat} {b : Nat} (hk : Kept P s0 s) :
    Kept P s0 (State.canPost s n code dest a b) := by
  unfold State.canPost
  try dsimp only
  repeat' first | with_reducible assumption | with_reducible apply State.post_kept

theorem State.canPendSync_kept {P : Part → Prop} [May P .regs_] [May P .lost_] {s0 : State} {s : State} {n : Nat} {b : Nat} (hk : Kept P s0 s) :
    Kept P s0 (State.canPendSync s n b) := by
  unfold State.canPendSync
  try dsimp only
  repeat' first
    | with_reducible assumption
    | with_reducible apply State.wrBit_kept
    | with_reducible apply State.wr_kept
    | with_reducible apply Kept.ite

theorem State.setCanSwp_kept {P : Part → Prop} [May P .regs_] [May P .lost_] [May P .can_] {s0 : State} {s : State} {n : Nat} {b : Nat} {v : Bool} (hk : Kept P s0 s) :
    Kept P s0 (State.setCanSwp s n b v) := by
  unfold State.setCanSwp
  try dsimp only
  repeat' first
    | with_reducible assumption
    | with_reducible apply State.updCan_kept
    | with_reducible apply State.wrBit_kept
    | with_reducible apply State.wr_kept
    | with_reducible apply Kept.ite

theorem State.canPut_kept {P : Part → Prop} [May P .regs_] [May P .lost_] [May P .can_] {s0 : State} {s : State} {n : Nat} {b : Nat} {m : List Nat} (hk : Kept P s0 s) :
    Kept P s0 (State.canPut s n b m) := by
  unfold State.canPut
  try dsimp only
  repeat' first
    | with_reducible assumption
    | with_reducible apply State.canPendSync_kept
    | with_reducible apply State.updCan_kept

theorem State.canCommit_kept {P : Part → Prop} [May P .regs_] [May P .lost_] [May P .can_] {s0 : State} {s : State} {n : Nat} {b : Nat} (hk : Kept P s0 s) :
    Kept P s0 (State.canCommit s n b) := by
  unfold State.canCommit
  try dsimp only
  repeat' first
    | with_reducible assumption
    | with_reducible apply State.canPut_kept
    | with_reducible apply State.setCanSwp_kept
    | with_reducible apply Kept.ite

theorem State.canDone_kept {P : Part → Prop} [May P .regs_] [May P .lost_] [May P .fab_] [May P .inbox_] [May P .led_] {s0 : State} {s : State} {n : Nat} {b : Nat} {status : Nat} {sof : Nat} (hk : Kept P s0 s) :
    Kept P s0 (State.canDone s n b status sof) := by
  unfold State.canDone
  try dsimp only
  repeat' first
    | with_reducible assumption
    | with_reducible apply State.canPost_kept
    | with_reducible apply State.qPutHw_kept
    | with_reducible apply Kept.ite

theorem State.canRemove_kept {P : Part → Prop} [May P .regs_] [May P .lost_] [May P .can_] {s0 : State} {s : State} {n : Nat} {b : Nat} (hk : Kept P s0 s) :
    Kept P s0 (State.canRemove s n b) := by
  unfold State.canRemove
  try dsimp only
  repeat' first
    | with_reducible assumption
    | with_reducible apply State.canPut_kept
    | with_reducible apply State.setCanSwp_kept

theorem State.canAbort_kept {P : Part → Prop} [May P .regs_] [May P .lost_] [May P .fab_] [May P .inbox_] [May P .led_] [May P .can_] {s0 : State} {s : State} {n : Nat} {b : Nat} (hk : Kept P s0 s) :
    Kept P s0 (State.canAbort s n b) := by
  unfold State.canAbort
  try dsimp only
  repeat' first
    | with_reducible assumption
    | with_reducible apply State.canDone_kept
    | with_reducible apply State.canRemove_kept
    | with_reducible apply State.raise_kept
    | with_reducible apply State.updCan_kept
    | with_reducible apply Kept.ite

theorem State.canTxCmd_kept {P : Part → Prop} [May P .regs_] [May P .lost_] [May P .fab_] [May P .inbox_] [May P .led_] [May P .can_] {s0 : State} {s : State} {n : Nat} {w : Word} (hk : Kept P s0 s) :
    Kept P s0 (State.canTxCmd s n w) := by
  unfold State.canTxCmd
  try dsimp only
  repeat' first
    | with_reducible assumption
    | with_reducible apply State.canAbort_kept
    | with_reducible apply State.canCommit_kept
    | with_reducible apply Kept.ite

theorem State.canBegin_kept {P : Part → Prop} [May P .regs_] [May P .lost_] [May P .can_] {s0 : State} {s : State} {n : Nat} {b : Nat} (hk : Kept P s0 s) :
    Kept P s0 (State.canBegin s n b) := by
  unfold State.canBegin
  try dsimp only
  repeat' first
    | with_reducible assumption
    | with_reducible apply State.updCan_kept
    | with_reducible apply State.wr_kept
    | with_reducible apply Kept.ite

theorem State.canEnd_kept {P : Part → Prop} [May P .regs_] [May P .lost_] [May P .can_] {s0 : State} {s : State} {n : Nat} (hk : Kept P s0 s) :
    Kept P s0 (State.canEnd s n) := by
  unfold State.canEnd
  try dsimp only
  repeat' first
    | with_reducible assumption
    | with_reducible apply State.updCan_kept
    | with_reducible apply State.wr_kept

theorem State.canConfine_kept {P : Part → Prop} [May P .regs_] [May P .lost_] [May P .fab_] [May P .inbox_] [May P .led_] {s0 : State} {s : State} {n : Nat} (hk : Kept P s0 s) :
    Kept P s0 (State.canConfine s n) := by
  unfold State.canConfine
  try dsimp only
  repeat' first
    | with_reducible assumption
    | with_reducible apply State.canPost_kept
    | with_reducible apply State.hit_kept
    | with_reducible apply State.raise_kept
    | with_reducible apply State.wr_kept
    | with_reducible apply Kept.ite

theorem State.canLec_kept {P : Part → Prop} [May P .regs_] [May P .lost_] {s0 : State} {s : State} {n : Nat} {lec : Nat} (hk : Kept P s0 s) :
    Kept P s0 (State.canLec s n lec) := by
  unfold State.canLec
  try dsimp only
  repeat' first | with_reducible assumption | with_reducible apply State.hit_kept | with_reducible apply State.wr_kept

theorem State.canCollide_kept {P : Part → Prop} [May P .regs_] [May P .lost_] [May P .fab_] [May P .inbox_] [May P .led_] [May P .can_] {s0 : State} {s : State} {n : Nat} {b : Nat} (hk : Kept P s0 s) :
    Kept P s0 (State.canCollide s n b) := by
  unfold State.canCollide
  try dsimp only
  repeat' first
    | with_reducible assumption
    | with_reducible apply State.canPost_kept
    | with_reducible apply State.hit_kept
    | with_reducible apply State.raise_kept
    | with_reducible apply State.updCan_kept
    | with_reducible apply State.wr_kept
    | with_reducible apply Kept.ite

theorem State.canBorel_kept {P : Part → Prop} [May P .regs_] [May P .lost_] {s0 : State} {s : State} {n : Nat} (hk : Kept P s0 s) :
    Kept P s0 (State.canBorel s n) := by
  unfold State.canBorel
  try dsimp only
  repeat' first | with_reducible assumption | with_reducible apply State.wr_kept

theorem State.fifoSync_kept {P : Part → Prop} [May P .regs_] [May P .lost_] [May P .can_] {s0 : State} {s : State} {n : Nat} {f : Nat} (hk : Kept P s0 s) :
    Kept P s0 (State.fifoSync s n f) := by
  unfold State.fifoSync
  try dsimp only
  repeat' first
    | with_reducible assumption
    | with_reducible apply State.setReg_kept
    | with_reducible apply State.updCan_kept
    | with_reducible apply State.wr_kept
    | with_reducible apply Kept.foldl
    | with_reducible apply Kept.ite
    | (intro _; intros; try dsimp only)

theorem State.fifoMark_kept {P : Part → Prop} [May P .fab_] [May P .inbox_] [May P .can_] {s0 : State} {s : State} {n : Nat} {f : Nat} (hk : Kept P s0 s) :
    Kept P s0 (State.fifoMark s n f) := by
  unfold State.fifoMark
  try dsimp only
  repeat' first
    | with_reducible assumption
    | with_reducible apply State.canPost_kept
    | with_reducible apply State.updCan_kept
    | with_reducible apply Kept.ite

theorem State.fifoPut_kept {P : Part → Prop} [May P .regs_] [May P .lost_] [May P .fab_] [May P .inbox_] [May P .led_] [May P .can_] {s0 : State} {s : State} {n : Nat} {f : Nat} {m : List Nat} {idx : Nat} (hk : Kept P s0 s) :
    Kept P s0 (State.fifoPut s n f m idx) := by
  unfold State.fifoPut
  try dsimp only
  repeat' first
    | with_reducible assumption
    | with_reducible apply State.fifoMark_kept
    | with_reducible apply State.fifoSync_kept
    | with_reducible apply State.hit_kept
    | with_reducible apply State.raise_kept
    | with_reducible apply State.updCan_kept
    | with_reducible apply Kept.ite

theorem State.fifoPop_kept {P : Part → Prop} [May P .regs_] [May P .lost_] [May P .can_] {s0 : State} {s : State} {n : Nat} {f : Nat} (hk : Kept P s0 s) :
    Kept P s0 (State.fifoPop s n f) := by
  unfold State.fifoPop
  try dsimp only
  repeat' first
    | with_reducible assumption
    | with_reducible apply State.fifoSync_kept
    | with_reducible apply State.updCan_kept

theorem State.canFilter_kept {P : Part → Prop} [May P .fresh_] [May P .regs_] [May P .lost_] [May P .fab_] [May P .inbox_] [May P .led_] [May P .can_] {s0 : State} {s : State} {n : Nat} {m : List Nat} (hk : Kept P s0 s) :
    Kept P s0 (State.canFilter s n m) := by
  unfold State.canFilter
  try dsimp only
  repeat' first
    | with_reducible assumption
    | with_reducible apply State.drew_kept
    | with_reducible apply State.fifoPut_kept
    | with_reducible apply Kept.ite
    | split

theorem State.setTmSof_kept {P : Part → Prop} [May P .regs_] [May P .lost_] {s0 : State} {s : State} {n : Nat} {ns : Nat} (hk : Kept P s0 s) :
    Kept P s0 (State.setTmSof s n ns) := by
  unfold State.setTmSof
  try dsimp only
  repeat' first | with_reducible assumption | with_reducible apply State.setReg_kept

theorem State.canOffset_kept {P : Part → Prop} [May P .regs_] [May P .lost_] [May P .fab_] [May P .inbox_] [May P .can_] {s0 : State} {s : State} {n : Nat} {m : List Nat} (hk : Kept P s0 s) :
    Kept P s0 (State.canOffset s n m) := by
  unfold State.canOffset
  try dsimp only
  repeat' first
    | with_reducible assumption
    | with_reducible apply State.canPost_kept
    | with_reducible apply State.setReg_kept
    | with_reducible apply State.updCan_kept
    | with_reducible apply State.wr_kept
    | with_reducible apply Kept.ite
    | split

theorem State.canReference_kept {P : Part → Prop} [May P .regs_] [May P .lost_] [May P .fab_] [May P .inbox_] [May P .led_] [May P .can_] {s0 : State} {s : State} {n : Nat} {m : List Nat} {sof : Nat} (hk : Kept P s0 s) :
    Kept P s0 (State.canReference s n m sof) := by
  unfold State.canReference
  try dsimp only
  repeat' first
    | with_reducible assumption
    | with_reducible apply State.canOffset_kept
    | with_reducible apply State.raise_kept
    | with_reducible apply State.setTmSof_kept
    | with_reducible apply State.updCan_kept
    | with_reducible apply State.wr_kept
    | with_reducible apply Kept.ite

end Sys2Proof.Machine
end

