-- ==== Sys2Proof/Laws/Kept/CanBus.lean ====
section
/-!
SUPPORT. What the operations of Machine/CanBus.lean keep.
-/

set_option Elab.async false
set_option linter.unusedTactic false
set_option linter.unreachableTactic false

namespace Sys2Proof.Machine

theorem execCanArbitration_kept {P : Part → Prop} [May P .regs_] [May P .lost_] [May P .can_] {s0 : State} {s : State} {n : Fin 6} {won : Bool} {t : Nat} (hk : Kept P s0 s) :
    KeptO P s0 (execCanArbitration s n won t) := by
  unfold execCanArbitration
  try dsimp only
  repeat' first
    | with_reducible assumption
    | with_reducible apply State.at_kept
    | with_reducible apply State.canBegin_kept
    | with_reducible apply KeptO.of_next
    | with_reducible apply KeptO.ite
    | with_reducible apply Kept.ite
    | split

theorem execCanTxComplete_kept {P : Part → Prop} [May P .regs_] [May P .lost_] [May P .fab_] [May P .inbox_] [May P .led_] [May P .can_] {s0 : State} {s : State} {n : Fin 6} {sof : Nat} {tdcv : Nat} {t : Nat} (hk : Kept P s0 s) :
    KeptO P s0 (execCanTxComplete s n sof tdcv t) := by
  unfold execCanTxComplete
  try dsimp only
  repeat' first
    | with_reducible assumption
    | with_reducible apply State.at_kept
    | with_reducible apply State.canConfine_kept
    | with_reducible apply State.canDone_kept
    | with_reducible apply State.canEnd_kept
    | with_reducible apply State.canPut_kept
    | with_reducible apply State.canRemove_kept
    | with_reducible apply State.setCanSwp_kept
    | with_reducible apply State.setTmSof_kept
    | with_reducible apply State.updCan_kept
    | with_reducible apply State.wr_kept
    | with_reducible apply KeptO.of_next
    | with_reducible apply KeptO.ite
    | with_reducible apply Kept.ite
    | split

theorem execCanTxError_kept {P : Part → Prop} [May P .regs_] [May P .lost_] [May P .fab_] [May P .inbox_] [May P .led_] [May P .can_] {s0 : State} {s : State} {n : Fin 6} {lec : Fin 8} {late : Bool} {exempt : Bool} {tdcv : Nat} {t : Nat} (hk : Kept P s0 s) :
    KeptO P s0 (execCanTxError s n lec late exempt tdcv t) := by
  unfold execCanTxError
  try dsimp only
  repeat' first
    | with_reducible assumption
    | with_reducible apply State.at_kept
    | with_reducible apply State.canCollide_kept
    | with_reducible apply State.canConfine_kept
    | with_reducible apply State.canDone_kept
    | with_reducible apply State.canEnd_kept
    | with_reducible apply State.canLec_kept
    | with_reducible apply State.canPut_kept
    | with_reducible apply State.canRemove_kept
    | with_reducible apply State.hit_kept
    | with_reducible apply State.setCanSwp_kept
    | with_reducible apply State.updCan_kept
    | with_reducible apply State.wr_kept
    | with_reducible apply KeptO.of_next
    | with_reducible apply KeptO.ite
    | with_reducible apply Kept.ite
    | split

theorem execCanRxError_kept {P : Part → Prop} [May P .regs_] [May P .lost_] [May P .fab_] [May P .inbox_] [May P .led_] {s0 : State} {s : State} {n : Fin 6} {lec : Fin 8} {eight : Bool} {t : Nat} (hk : Kept P s0 s) :
    KeptO P s0 (execCanRxError s n lec eight t) := by
  unfold execCanRxError
  try dsimp only
  repeat' first
    | with_reducible assumption
    | with_reducible apply State.at_kept
    | with_reducible apply State.canConfine_kept
    | with_reducible apply State.canLec_kept
    | with_reducible apply State.wr_kept
    | with_reducible apply KeptO.of_next
    | with_reducible apply KeptO.ite

theorem execCanFrameReceived_kept {P : Part → Prop} [May P .fresh_] [May P .regs_] [May P .lost_] [May P .fab_] [May P .inbox_] [May P .led_] [May P .can_] {s0 : State} {s : State} {n : Fin 6} {w0 : Nat} {w1 : Nat} {data : List Nat} {sof : Nat} {t : Nat} (hk : Kept P s0 s) :
    KeptO P s0 (execCanFrameReceived s n w0 w1 data sof t) := by
  unfold execCanFrameReceived
  try dsimp only
  repeat' first
    | with_reducible assumption
    | with_reducible apply State.at_kept
    | with_reducible apply State.canConfine_kept
    | with_reducible apply State.canFilter_kept
    | with_reducible apply State.canReference_kept
    | with_reducible apply State.drew_kept
    | with_reducible apply State.wr_kept
    | with_reducible apply KeptO.of_next
    | with_reducible apply KeptO.ite
    | with_reducible apply Kept.ite

theorem execCanBusoffRecovered_kept {P : Part → Prop} [May P .regs_] [May P .lost_] [May P .fab_] [May P .inbox_] [May P .led_] {s0 : State} {s : State} {n : Fin 6} {t : Nat} (hk : Kept P s0 s) :
    KeptO P s0 (execCanBusoffRecovered s n t) := by
  unfold execCanBusoffRecovered
  try dsimp only
  repeat' first
    | with_reducible assumption
    | with_reducible apply State.at_kept
    | with_reducible apply State.canPost_kept
    | with_reducible apply State.raise_kept
    | with_reducible apply State.wr_kept
    | with_reducible apply KeptO.of_next
    | with_reducible apply KeptO.ite

theorem execCanReferenceSend_kept {P : Part → Prop} [May P .regs_] [May P .lost_] [May P .can_] {s0 : State} {s : State} {n : Fin 6} {t : Nat} (hk : Kept P s0 s) :
    KeptO P s0 (execCanReferenceSend s n t) := by
  unfold execCanReferenceSend
  try dsimp only
  repeat' first
    | with_reducible assumption
    | with_reducible apply State.at_kept
    | with_reducible apply State.canPut_kept
    | with_reducible apply State.updCan_kept
    | with_reducible apply KeptO.of_next
    | with_reducible apply KeptO.ite
    | with_reducible apply Kept.ite

theorem execCanTimeLost_kept {P : Part → Prop} [May P .regs_] [May P .lost_] [May P .led_] [May P .can_] {s0 : State} {s : State} {n : Fin 6} {t : Nat} (hk : Kept P s0 s) :
    KeptO P s0 (execCanTimeLost s n t) := by
  unfold execCanTimeLost
  try dsimp only
  repeat' first
    | with_reducible assumption
    | with_reducible apply State.at_kept
    | with_reducible apply State.hit_kept
    | with_reducible apply State.raise_kept
    | with_reducible apply State.updCan_kept
    | with_reducible apply State.wr_kept
    | with_reducible apply KeptO.of_next
    | with_reducible apply KeptO.ite

end Sys2Proof.Machine
end

