-- ==== Sys2Proof/Laws/Kept/Ethernet.lean ====
section
/-!
SUPPORT. What the operations of Machine/Ethernet.lean keep.
-/

set_option Elab.async false
set_option linter.unusedTactic false
set_option linter.unreachableTactic false

namespace Sys2Proof.Machine

theorem State.ethLost_kept {P : Part → Prop} [May P .regs_] [May P .lost_] {s0 : State} {s : State} {m : Nat} {f : Fld} {c : Fld} (hk : Kept P s0 s) :
    Kept P s0 (State.ethLost s m f c) := by
  unfold State.ethLost
  try dsimp only
  repeat' first | with_reducible assumption | with_reducible apply State.hit_kept

theorem State.ethKeep_kept {P : Part → Prop} [May P .regs_] [May P .lost_] [May P .mem_] [May P .fab_] [May P .inbox_] [May P .led_] {s0 : State} {s : State} {m : Nat} {f : List Nat} {tci : Option Nat} {q : Nat} {idx : Nat} {ptp : Bool} {stamp : Nat} (hk : Kept P s0 s) :
    Kept P s0 (State.ethKeep s m f tci q idx ptp stamp) := by
  unfold State.ethKeep
  try dsimp only
  repeat' first
    | with_reducible assumption
    | with_reducible apply State.ethLost_kept
    | with_reducible apply State.qAppend_kept
    | with_reducible apply State.qOverflow_kept
    | with_reducible apply State.qPutHw_kept
    | with_reducible apply State.storeBytes_kept
    | with_reducible apply Kept.ite
    | (with_reducible refine State.qTake_kept ‹_› ?_)
    | split

theorem execEthFrameReceived_kept {P : Part → Prop} [May P .regs_] [May P .lost_] [May P .mem_] [May P .fab_] [May P .inbox_] [May P .led_] {s0 : State} {s : State} {m : Fin 2} {frame : List Nat} {fcs : Bool} {sfd : Nat} {t : Nat} (hk : Kept P s0 s) :
    KeptO P s0 (execEthFrameReceived s m frame fcs sfd t) := by
  unfold execEthFrameReceived
  try dsimp only
  repeat' first
    | with_reducible assumption
    | with_reducible apply State.at_kept
    | with_reducible apply State.ethKeep_kept
    | with_reducible apply State.ethLost_kept
    | with_reducible apply KeptO.of_next
    | with_reducible apply KeptO.ite
    | with_reducible apply Kept.ite
    | split

theorem State.ethDone_kept {P : Part → Prop} [May P .regs_] [May P .lost_] [May P .fab_] [May P .inbox_] [May P .led_] {s0 : State} {s : State} {m : Nat} {status : Nat} {tag : Nat} {stamp : Nat} (hk : Kept P s0 s) :
    Kept P s0 (State.ethDone s m status tag stamp) := by
  unfold State.ethDone
  try dsimp only
  repeat' first | with_reducible assumption | with_reducible apply State.qPutHw_kept

theorem execEthFrameTransmit_kept {P : Part → Prop} [May P .regs_] [May P .lost_] [May P .fab_] [May P .inbox_] [May P .led_] [May P .eth_] {s0 : State} {s : State} {m : Fin 2} {sfd : Nat} {t : Nat} (hk : Kept P s0 s) :
    KeptO P s0 (execEthFrameTransmit s m sfd t) := by
  unfold execEthFrameTransmit
  try dsimp only
  repeat' first
    | with_reducible assumption
    | with_reducible apply State.at_kept
    | with_reducible apply State.ethDone_kept
    | with_reducible apply KeptO.of_next
    | with_reducible apply KeptO.ite
    | with_reducible apply Kept.ite
    | (with_reducible refine State.qTake_kept ‹_› ?_)
    | split
    | (with_reducible refine Kept.mk' rfl rfl rfl rfl rfl rfl ?_)

theorem execEthTxTimeout_kept {P : Part → Prop} [May P .regs_] [May P .lost_] [May P .fab_] [May P .inbox_] [May P .led_] {s0 : State} {s : State} {m : Fin 2} {t : Nat} (hk : Kept P s0 s) :
    KeptO P s0 (execEthTxTimeout s m t) := by
  unfold execEthTxTimeout
  try dsimp only
  repeat' first
    | with_reducible assumption
    | with_reducible apply State.at_kept
    | with_reducible apply State.ethDone_kept
    | with_reducible apply State.hit_kept
    | with_reducible apply State.raise_kept
    | with_reducible apply KeptO.of_next
    | with_reducible apply KeptO.ite
    | with_reducible apply Kept.ite
    | (with_reducible refine State.qTake_kept ‹_› ?_)
    | split

theorem execEthLinkPoll_kept {P : Part → Prop} [May P .regs_] [May P .lost_] [May P .led_] {s0 : State} {s : State} {m : Fin 2} {link : Bool} {t : Nat} (hk : Kept P s0 s) :
    KeptO P s0 (execEthLinkPoll s m link t) := by
  unfold execEthLinkPoll
  try dsimp only
  repeat' first
    | with_reducible assumption
    | with_reducible apply State.at_kept
    | with_reducible apply State.ethLost_kept
    | with_reducible apply State.raise_kept
    | with_reducible apply State.wr_kept
    | with_reducible apply KeptO.of_next
    | with_reducible apply KeptO.ite

theorem State.phaseSync_kept {P : Part → Prop} [May P .regs_] [May P .lost_] {s0 : State} {s : State} (hk : Kept P s0 s) :
    Kept P s0 (State.phaseSync s) := by
  unfold State.phaseSync
  try dsimp only
  repeat' first | with_reducible assumption | with_reducible apply State.setReg_kept

theorem State.clockCycle_kept {P : Part → Prop} [May P .regs_] [May P .lost_] [May P .eth_] {s0 : State} {s : State} (hk : Kept P s0 s) :
    Kept P s0 (State.clockCycle s) := by
  unfold State.clockCycle
  try dsimp only
  repeat' first
    | with_reducible assumption
    | with_reducible apply State.phaseSync_kept
    | with_reducible apply Kept.ite
    | split
    | (with_reducible refine Kept.mk' rfl rfl rfl rfl rfl rfl ?_)

theorem State.phaseWritten_kept {P : Part → Prop} [May P .eth_] {s0 : State} {s : State} (hk : Kept P s0 s) :
    Kept P s0 (State.phaseWritten s) := by
  unfold State.phaseWritten
  try dsimp only
  repeat' first | with_reducible assumption | (with_reducible refine Kept.mk' rfl rfl rfl rfl rfl rfl ?_)

theorem State.rateWritten_kept {P : Part → Prop} [May P .eth_] {s0 : State} {s : State} (hk : Kept P s0 s) :
    Kept P s0 (State.rateWritten s) := by
  unfold State.rateWritten
  try dsimp only
  repeat' first | with_reducible assumption | (with_reducible refine Kept.mk' rfl rfl rfl rfl rfl rfl ?_)

theorem State.timeStep_kept {P : Part → Prop} [May P .lost_] [May P .led_] {s0 : State} {s : State} {ns : Nat} (hk : Kept P s0 s) :
    Kept P s0 (State.timeStep s ns) := by
  unfold State.timeStep
  try dsimp only
  repeat' first
    | with_reducible assumption
    | with_reducible apply State.raise_kept
    | (with_reducible refine Kept.mk' rfl rfl rfl rfl rfl rfl ?_)

theorem State.discWritten_kept {P : Part → Prop} [May P .lost_] [May P .led_] {s0 : State} {s : State} {old : Bool} (hk : Kept P s0 s) :
    Kept P s0 (State.discWritten s old) := by
  unfold State.discWritten
  try dsimp only
  repeat' first | with_reducible assumption | with_reducible apply State.raise_kept | with_reducible apply Kept.ite

theorem execDiscLost_kept {P : Part → Prop} [May P .regs_] [May P .lost_] [May P .led_] {s0 : State} {s : State} {t : Nat} (hk : Kept P s0 s) :
    KeptO P s0 (execDiscLost s t) := by
  unfold execDiscLost
  try dsimp only
  repeat' first
    | with_reducible assumption
    | with_reducible apply State.at_kept
    | with_reducible apply State.raise_kept
    | with_reducible apply State.wr_kept
    | with_reducible apply KeptO.of_next
    | with_reducible apply KeptO.ite

end Sys2Proof.Machine
end

