-- ==== Sys2Proof/Laws/Kept/Fault.lean ====
section
/-!
SUPPORT. What the operations of Machine/Fault.lean keep.
-/

set_option Elab.async false
set_option linter.unusedTactic false
set_option linter.unreachableTactic false

namespace Sys2Proof.Machine

theorem execSramScrub_kept {P : Part → Prop} [May P .regs_] [May P .lost_] [May P .fab_] [May P .grains_] [May P .inbox_] [May P .led_] {s0 : State} {s : State} {corr : List Nat} {bad : List Nat} {t : Nat} (hk : Kept P s0 s) :
    KeptO P s0 (execSramScrub s corr bad t) := by
  unfold execSramScrub
  try dsimp only
  repeat' first
    | with_reducible assumption
    | with_reducible apply State.at_kept
    | with_reducible apply State.eccCorrected_kept
    | with_reducible apply State.eccFailed_kept
    | with_reducible apply KeptO.of_next
    | with_reducible apply Kept.foldl
    | (with_reducible refine Kept.mk' rfl rfl rfl rfl rfl rfl ?_)

theorem execBeatParityFail_kept {P : Part → Prop} [May P .fresh_] [May P .regs_] [May P .lost_] [May P .mem_] [May P .fab_] [May P .grains_] [May P .inbox_] [May P .led_] [May P .lnk_] [May P .swp_] [May P .trip_] [May P .boot_] [May P .gate_] [May P .regu_] [May P .out_] [May P .cur_] [May P .sf_] [May P .can_] [May P .eth_] [May P .sv_] [May P .corr_] [May P .est_] {s0 : State} {s : State} {u : Nat} {n : Fin 5} {t : Nat} (hk : Kept P s0 s) :
    KeptO P s0 (execBeatParityFail s u n t) := by
  unfold execBeatParityFail
  try dsimp only
  repeat' first
    | with_reducible assumption
    | with_reducible apply State.at_kept
    | with_reducible apply State.count_kept
    | with_reducible apply State.fltNote_kept
    | with_reducible apply State.linkFailure_kept
    | with_reducible apply State.raise_kept
    | with_reducible apply KeptO.of_next
    | with_reducible apply KeptO.ite

theorem execVc0BeatLost_kept {P : Part → Prop} [May P .fresh_] [May P .regs_] [May P .lost_] [May P .mem_] [May P .fab_] [May P .grains_] [May P .inbox_] [May P .led_] [May P .lnk_] [May P .swp_] [May P .trip_] [May P .boot_] [May P .gate_] [May P .regu_] [May P .out_] [May P .cur_] [May P .sf_] [May P .can_] [May P .eth_] [May P .sv_] [May P .corr_] [May P .est_] {s0 : State} {s : State} {u : Nat} {t : Nat} (hk : Kept P s0 s) :
    KeptO P s0 (execVc0BeatLost s u t) := by
  unfold execVc0BeatLost
  try dsimp only
  repeat' first
    | with_reducible assumption
    | with_reducible apply State.at_kept
    | with_reducible apply State.chipFatal_kept
    | with_reducible apply State.fltNote_kept
    | with_reducible apply KeptO.of_next

theorem execFaultReport_kept {P : Part → Prop} [May P .fresh_] [May P .regs_] [May P .lost_] [May P .mem_] [May P .fab_] [May P .grains_] [May P .inbox_] [May P .led_] [May P .lnk_] [May P .swp_] [May P .trip_] [May P .boot_] [May P .gate_] [May P .regu_] [May P .out_] [May P .cur_] [May P .sf_] [May P .can_] [May P .eth_] [May P .sv_] [May P .corr_] [May P .est_] {s0 : State} {s : State} {kind : FaultKind} {u : Nat} {a : Nat} {holds : Bool} {t : Nat} (hk : Kept P s0 s) :
    KeptO P s0 (execFaultReport s kind u a holds t) := by
  unfold execFaultReport
  try dsimp only
  repeat' first
    | with_reducible assumption
    | with_reducible apply State.at_kept
    | with_reducible apply State.eccCorrected_kept
    | with_reducible apply State.eccFailed_kept
    | with_reducible apply State.fltNote_kept
    | with_reducible apply State.grainFault_kept
    | with_reducible apply State.linkFailure_kept
    | with_reducible apply State.setSource_kept
    | with_reducible apply State.updUnit_kept
    | with_reducible apply KeptO.of_next
    | with_reducible apply KeptO.ite
    | with_reducible apply Kept.ite
    | split

theorem execGrainLockup_kept {P : Part → Prop} [May P .regs_] [May P .lost_] [May P .fab_] [May P .grains_] [May P .inbox_] [May P .led_] {s0 : State} {s : State} {g : Nat} {t : Nat} (hk : Kept P s0 s) :
    KeptO P s0 (execGrainLockup s g t) := by
  unfold execGrainLockup
  try dsimp only
  repeat' first
    | with_reducible assumption
    | with_reducible apply State.at_kept
    | with_reducible apply State.fltNote_kept
    | with_reducible apply State.grainFault_kept
    | with_reducible apply KeptO.of_next
    | with_reducible apply KeptO.ite

theorem execRecoveryWaitEnd_kept {P : Part → Prop} [May P .regs_] [May P .lost_] [May P .fab_] [May P .lnk_] [May P .swp_] [May P .trip_] [May P .gate_] [May P .regu_] [May P .out_] [May P .cur_] [May P .can_] [May P .eth_] {s0 : State} {s : State} {u : Nat} {t : Nat} (hk : Kept P s0 s) :
    KeptO P s0 (execRecoveryWaitEnd s u t) := by
  unfold execRecoveryWaitEnd
  try dsimp only
  repeat' first
    | with_reducible assumption
    | with_reducible apply State.at_kept
    | with_reducible apply State.resetBlock_kept
    | with_reducible apply State.updUnit_kept
    | with_reducible apply KeptO.of_next
    | with_reducible apply KeptO.ite
    | with_reducible apply Kept.ite
    | split

theorem execRestartComplete_kept {P : Part → Prop} [May P .mem_] [May P .fab_] [May P .grains_] [May P .inbox_] [May P .led_] {s0 : State} {s : State} {u : Nat} {t : Nat} (hk : Kept P s0 s) :
    KeptO P s0 (execRestartComplete s u t) := by
  unfold execRestartComplete
  try dsimp only
  repeat' first
    | with_reducible assumption
    | with_reducible apply State.at_kept
    | with_reducible apply State.blockUp_kept
    | with_reducible apply State.regionUp_kept
    | with_reducible apply State.restartGrain_kept
    | with_reducible apply KeptO.of_next
    | with_reducible apply KeptO.ite
    | with_reducible apply Kept.ite
    | split

theorem execFaultSourceTimeout_kept {P : Part → Prop} [May P .fresh_] [May P .regs_] [May P .lost_] [May P .mem_] [May P .fab_] [May P .grains_] [May P .inbox_] [May P .led_] [May P .lnk_] [May P .swp_] [May P .trip_] [May P .boot_] [May P .gate_] [May P .regu_] [May P .out_] [May P .cur_] [May P .sf_] [May P .can_] [May P .eth_] [May P .sv_] [May P .corr_] [May P .est_] {s0 : State} {s : State} {u : Nat} {t : Nat} (hk : Kept P s0 s) :
    KeptO P s0 (execFaultSourceTimeout s u t) := by
  unfold execFaultSourceTimeout
  try dsimp only
  repeat' first
    | with_reducible assumption
    | with_reducible apply State.at_kept
    | with_reducible apply State.escalate_kept
    | with_reducible apply State.updUnit_kept
    | with_reducible apply KeptO.of_next
    | with_reducible apply KeptO.ite

theorem execPmonWrap_kept {P : Part → Prop} [May P .regs_] [May P .lost_] [May P .fab_] [May P .inbox_] [May P .led_] {s0 : State} {s : State} {n : Fin 64} {t : Nat} (hk : Kept P s0 s) :
    KeptO P s0 (execPmonWrap s n t) := by
  unfold execPmonWrap
  try dsimp only
  repeat' first
    | with_reducible assumption
    | with_reducible apply State.at_kept
    | with_reducible apply State.bump_kept
    | with_reducible apply State.post_kept
    | with_reducible apply State.raise_kept
    | with_reducible apply KeptO.of_next
    | with_reducible apply KeptO.ite
    | with_reducible apply Kept.ite
    | split
    | (with_reducible refine Kept.mk' rfl rfl rfl rfl rfl rfl ?_)

theorem State.pmonClear_kept {P : Part → Prop} [May P .regs_] [May P .lost_] [May P .fab_] {s0 : State} {s : State} (hk : Kept P s0 s) :
    Kept P s0 (State.pmonClear s) := by
  unfold State.pmonClear
  try dsimp only
  repeat' first
    | with_reducible assumption
    | with_reducible apply State.wr_kept
    | with_reducible apply Kept.foldl
    | (intro _; intros; try dsimp only)
    | (with_reducible refine Kept.mk' rfl rfl rfl rfl rfl rfl ?_)

theorem State.deadlineMissed_kept {P : Part → Prop} [May P .fresh_] [May P .regs_] [May P .lost_] [May P .mem_] [May P .fab_] [May P .grains_] [May P .inbox_] [May P .led_] [May P .lnk_] [May P .swp_] [May P .trip_] [May P .boot_] [May P .gate_] [May P .regu_] [May P .out_] [May P .cur_] [May P .sf_] [May P .can_] [May P .eth_] [May P .sv_] [May P .corr_] [May P .est_] {s0 : State} {s : State} {src : Nat} {slot : Nat} {due : Nat} (hk : Kept P s0 s) :
    Kept P s0 (State.deadlineMissed s src slot due) := by
  unfold State.deadlineMissed
  try dsimp only
  repeat' first
    | with_reducible assumption
    | with_reducible apply State.count_kept
    | with_reducible apply State.fltNote_kept
    | with_reducible apply State.hit_kept
    | with_reducible apply State.postReserved_kept
    | with_reducible apply State.raise_kept
    | with_reducible apply State.regionFatal_kept
    | with_reducible apply Kept.ite

theorem execDeadlineMiss_kept {P : Part → Prop} [May P .fresh_] [May P .regs_] [May P .lost_] [May P .mem_] [May P .fab_] [May P .grains_] [May P .inbox_] [May P .led_] [May P .lnk_] [May P .swp_] [May P .trip_] [May P .boot_] [May P .gate_] [May P .regu_] [May P .out_] [May P .cur_] [May P .sf_] [May P .can_] [May P .eth_] [May P .sv_] [May P .corr_] [May P .est_] {s0 : State} {s : State} {g : Fin 8} {slot : Fin 16} {t : Nat} (hk : Kept P s0 s) :
    KeptO P s0 (execDeadlineMiss s g slot t) := by
  unfold execDeadlineMiss
  try dsimp only
  repeat' first
    | with_reducible assumption
    | with_reducible apply State.at_kept
    | with_reducible apply State.deadlineMissed_kept
    | with_reducible apply State.updGrain_kept
    | with_reducible apply KeptO.of_next
    | with_reducible apply KeptO.ite
    | with_reducible apply Kept.ite
    | (intro _; try dsimp only)
    | split
    | (with_reducible refine Kept.mk' rfl rfl rfl rfl rfl rfl ?_)
    | rfl

theorem State.kick_kept {P : Part → Prop} [May P .fab_] {s0 : State} {s : State} {v : Nat} (hk : Kept P s0 s) :
    Kept P s0 (State.kick s v) := by
  unfold State.kick
  try dsimp only
  repeat' first
    | with_reducible assumption
    | with_reducible apply State.wdogStart_kept
    | with_reducible apply Kept.ite
    | split
    | (with_reducible refine Kept.mk' rfl rfl rfl rfl rfl rfl ?_)

theorem State.kickRefused_kept {P : Part → Prop} [May P .regs_] [May P .lost_] [May P .led_] {s0 : State} {s : State} {src : Nat} {v : Nat} (hk : Kept P s0 s) :
    Kept P s0 (State.kickRefused s src v) := by
  unfold State.kickRefused
  try dsimp only
  repeat' first
    | with_reducible assumption
    | with_reducible apply State.bump_kept
    | with_reducible apply State.raise_kept

theorem execWatchdogExpire_kept {P : Part → Prop} [May P .fresh_] [May P .regs_] [May P .lost_] [May P .mem_] [May P .fab_] [May P .grains_] [May P .inbox_] [May P .led_] [May P .lnk_] [May P .swp_] [May P .trip_] [May P .boot_] [May P .gate_] [May P .regu_] [May P .out_] [May P .cur_] [May P .sf_] [May P .can_] [May P .eth_] [May P .sv_] [May P .corr_] [May P .est_] {s0 : State} {s : State} {t : Nat} (hk : Kept P s0 s) :
    KeptO P s0 (execWatchdogExpire s t) := by
  unfold execWatchdogExpire
  try dsimp only
  repeat' first
    | with_reducible assumption
    | with_reducible apply State.at_kept
    | with_reducible apply State.fltNote_kept
    | with_reducible apply State.regionFatal_kept
    | with_reducible apply State.wdogStart_kept
    | with_reducible apply KeptO.of_next
    | with_reducible apply KeptO.ite
    | with_reducible apply Kept.ite
    | split

theorem execInboxHoldRelease_kept {P : Part → Prop} [May P .lost_] [May P .fab_] [May P .inbox_] [May P .led_] {s0 : State} {s : State} {src dest t : Nat} (hk : Kept P s0 s) :
    KeptO P s0 (execInboxHoldRelease s src dest t) := by
  unfold execInboxHoldRelease
  dsimp only
  split
  · generalize hr : (if _ = 2 then 16 else 14 : Nat) = room
    have hr : room ≤ 16 := by rw [← hr]; split <;> omega
    split
    · rename_i h
      exact KeptO.of_next (State.raise_kept (Kept.mk' rfl rfl rfl rfl rfl rfl
        (State.inboxPush_kept (Nat.lt_of_lt_of_le h hr) (State.at_kept hk))))
    · exact KeptO.of_next (State.at_kept hk)
  · exact KeptO.of_next (State.at_kept hk)

end Sys2Proof.Machine
end

