-- ==== Sys2Proof/Laws/Kept/Gate.lean ====
section
/-!
SUPPORT. What the operations of Machine/Gate.lean keep.
-/

set_option Elab.async false
set_option linter.unusedTactic false
set_option linter.unreachableTactic false

namespace Sys2Proof.Machine

theorem execDesatFlag_kept {P : Part → Prop} [May P .regs_] [May P .lost_] [May P .led_] [May P .trip_] [May P .gate_] {s0 : State} {s : State} {n : Fin 24} {hi : Bool} {level : Bool} {t : Nat} (hk : Kept P s0 s) :
    KeptO P s0 (execDesatFlag s n hi level t) := by
  unfold execDesatFlag
  try dsimp only
  repeat' first
    | with_reducible assumption
    | with_reducible apply State.at_kept
    | with_reducible apply State.settle_kept
    | with_reducible apply State.short_kept
    | with_reducible apply State.wr_kept
    | with_reducible apply KeptO.of_next
    | with_reducible apply KeptO.ite
    | with_reducible apply Kept.ite

theorem execBlankEnd_kept {P : Part → Prop} [May P .regs_] [May P .lost_] [May P .led_] [May P .trip_] [May P .gate_] {s0 : State} {s : State} {n : Fin 24} {hi : Bool} {t : Nat} (hk : Kept P s0 s) :
    KeptO P s0 (execBlankEnd s n hi t) := by
  unfold execBlankEnd
  try dsimp only
  repeat' first
    | with_reducible assumption
    | with_reducible apply State.at_kept
    | with_reducible apply State.settle_kept
    | with_reducible apply State.short_kept
    | with_reducible apply KeptO.of_next
    | with_reducible apply KeptO.ite
    | with_reducible apply Kept.ite

theorem execFastOvercurrent_kept {P : Part → Prop} [May P .regs_] [May P .lost_] [May P .led_] [May P .trip_] [May P .gate_] {s0 : State} {s : State} {n : Fin 24} {ones1 : Fin 9} {ones2 : Fin 9} {t : Nat} (hk : Kept P s0 s) :
    KeptO P s0 (execFastOvercurrent s n ones1 ones2 t) := by
  unfold execFastOvercurrent
  try dsimp only
  repeat' first
    | with_reducible assumption
    | with_reducible apply State.at_kept
    | with_reducible apply State.settle_kept
    | with_reducible apply State.short_kept
    | with_reducible apply State.updHb_kept
    | with_reducible apply KeptO.of_next
    | with_reducible apply KeptO.ite
    | with_reducible apply Kept.ite

theorem State.leakFail_kept {P : Part → Prop} [May P .regs_] [May P .lost_] [May P .led_] [May P .trip_] [May P .gate_] {s0 : State} {s : State} {n : Nat} {hi : Bool} (hk : Kept P s0 s) :
    Kept P s0 (State.leakFail s n hi) := by
  unfold State.leakFail
  try dsimp only
  repeat' first
    | with_reducible assumption
    | with_reducible apply State.hardOff_kept
    | with_reducible apply State.hbFaultEvent_kept
    | with_reducible apply State.hbLatch_kept
    | with_reducible apply State.source23_kept
    | with_reducible apply State.updHb_kept
    | with_reducible apply State.wrBit_kept
    | with_reducible apply State.wr_kept

theorem State.leakNext_kept {P : Part → Prop} [May P .regs_] [May P .lost_] [May P .gate_] {s0 : State} {s : State} {hbs : List Nat} (hk : Kept P s0 s) :
    Kept P s0 (State.leakNext s hbs) := by
  unfold State.leakNext
  try dsimp only
  repeat' first
    | with_reducible assumption
    | with_reducible apply State.hardOff_kept
    | with_reducible apply State.setHbState_kept
    | with_reducible apply State.wr_kept
    | split
    | (with_reducible refine Kept.mk' rfl rfl rfl rfl rfl rfl ?_)

theorem State.leakStep_kept {P : Part → Prop} [May P .regs_] [May P .lost_] [May P .gate_] {s0 : State} {s : State} (hk : Kept P s0 s) :
    Kept P s0 (State.leakStep s) := by
  unfold State.leakStep
  try dsimp only
  repeat' first
    | with_reducible assumption
    | with_reducible apply State.leakNext_kept
    | with_reducible apply State.rearm_kept
    | with_reducible apply State.setHbState_kept
    | with_reducible apply State.setSw_kept
    | with_reducible apply Kept.ite
    | split
    | (with_reducible refine Kept.mk' rfl rfl rfl rfl rfl rfl ?_)

theorem State.leakCheck_kept {P : Part → Prop} [May P .regs_] [May P .lost_] [May P .led_] [May P .trip_] [May P .gate_] {s0 : State} {s : State} {n : Nat} (hk : Kept P s0 s) :
    Kept P s0 (State.leakCheck s n) := by
  unfold State.leakCheck
  try dsimp only
  repeat' first
    | with_reducible assumption
    | with_reducible apply State.leakFail_kept
    | with_reducible apply State.leakNext_kept
    | with_reducible apply Kept.ite
    | split

theorem execFeedbackChange_kept {P : Part → Prop} [May P .regs_] [May P .lost_] [May P .led_] [May P .trip_] [May P .gate_] {s0 : State} {s : State} {n : Fin 24} {hi : Bool} {level : Bool} {t : Nat} (hk : Kept P s0 s) :
    KeptO P s0 (execFeedbackChange s n hi level t) := by
  unfold execFeedbackChange
  try dsimp only
  repeat' first
    | with_reducible assumption
    | with_reducible apply State.at_kept
    | with_reducible apply State.leakCheck_kept
    | with_reducible apply State.plainFault_kept
    | with_reducible apply State.settle_kept
    | with_reducible apply State.wr_kept
    | with_reducible apply KeptO.of_next
    | with_reducible apply KeptO.ite
    | with_reducible apply Kept.ite

theorem execInterlockTimeout_kept {P : Part → Prop} [May P .regs_] [May P .lost_] [May P .led_] [May P .trip_] [May P .gate_] {s0 : State} {s : State} {n : Fin 24} {t : Nat} (hk : Kept P s0 s) :
    KeptO P s0 (execInterlockTimeout s n t) := by
  unfold execInterlockTimeout
  try dsimp only
  repeat' first
    | with_reducible assumption
    | with_reducible apply State.at_kept
    | with_reducible apply State.plainFault_kept
    | with_reducible apply State.settle_kept
    | with_reducible apply State.updHb_kept
    | with_reducible apply KeptO.of_next
    | with_reducible apply KeptO.ite
    | with_reducible apply Kept.ite
    | split

theorem execStopHardOff_kept {P : Part → Prop} [May P .regs_] [May P .lost_] [May P .gate_] {s0 : State} {s : State} {n : Fin 24} {t : Nat} (hk : Kept P s0 s) :
    KeptO P s0 (execStopHardOff s n t) := by
  unfold execStopHardOff
  try dsimp only
  repeat' first
    | with_reducible assumption
    | with_reducible apply State.at_kept
    | with_reducible apply State.hardOff_kept
    | with_reducible apply State.updHb_kept
    | with_reducible apply KeptO.of_next
    | with_reducible apply KeptO.ite
    | with_reducible apply Kept.ite
    | split
    | (with_reducible refine Kept.mk' rfl rfl rfl rfl rfl rfl ?_)

theorem execGateKillAssert_kept {P : Part → Prop} [May P .regs_] [May P .lost_] [May P .led_] [May P .gate_] {s0 : State} {s : State} {t : Nat} (hk : Kept P s0 s) :
    KeptO P s0 (execGateKillAssert s t) := by
  unfold execGateKillAssert
  try dsimp only
  repeat' first
    | with_reducible assumption
    | with_reducible apply State.at_kept
    | with_reducible apply State.endTests_kept
    | with_reducible apply State.raise_kept
    | with_reducible apply State.toPlateau_kept
    | with_reducible apply State.wr_kept
    | with_reducible apply KeptO.of_next
    | with_reducible apply Kept.foldl
    | with_reducible apply KeptO.ite
    | with_reducible apply Kept.ite
    | split
    | (with_reducible refine Kept.mk' rfl rfl rfl rfl rfl rfl ?_)

theorem execGateKillHardOff_kept {P : Part → Prop} [May P .regs_] [May P .lost_] [May P .gate_] {s0 : State} {s : State} {t : Nat} (hk : Kept P s0 s) :
    KeptO P s0 (execGateKillHardOff s t) := by
  unfold execGateKillHardOff
  try dsimp only
  repeat' first
    | with_reducible assumption
    | with_reducible apply State.at_kept
    | with_reducible apply State.hardOff_kept
    | with_reducible apply State.updHb_kept
    | with_reducible apply KeptO.of_next
    | with_reducible apply Kept.foldl
    | with_reducible apply KeptO.ite
    | with_reducible apply Kept.ite
    | (intro _; intros; try dsimp only)

theorem execGateKillRelease_kept {P : Part → Prop} [May P .regs_] [May P .lost_] {s0 : State} {s : State} {t : Nat} (hk : Kept P s0 s) :
    KeptO P s0 (execGateKillRelease s t) := by
  unfold execGateKillRelease
  try dsimp only
  repeat' first
    | with_reducible assumption
    | with_reducible apply State.at_kept
    | with_reducible apply State.rearm_kept
    | with_reducible apply State.setHbState_kept
    | with_reducible apply State.wr_kept
    | with_reducible apply KeptO.of_next
    | with_reducible apply Kept.foldl
    | with_reducible apply KeptO.ite
    | with_reducible apply Kept.ite
    | (intro _; intros; try dsimp only)

theorem execGdUvLow_kept {P : Part → Prop} [May P .regs_] [May P .lost_] [May P .led_] [May P .trip_] [May P .gate_] {s0 : State} {s : State} {t : Nat} (hk : Kept P s0 s) :
    KeptO P s0 (execGdUvLow s t) := by
  unfold execGdUvLow
  try dsimp only
  repeat' first
    | with_reducible assumption
    | with_reducible apply State.at_kept
    | with_reducible apply State.endTests_kept
    | with_reducible apply State.hardOff_kept
    | with_reducible apply State.hbFaultEvent_kept
    | with_reducible apply State.hbFault_kept
    | with_reducible apply State.stringSource_kept
    | with_reducible apply State.updHb_kept
    | with_reducible apply State.wr_kept
    | with_reducible apply KeptO.of_next
    | with_reducible apply Kept.foldl
    | with_reducible apply KeptO.ite
    | with_reducible apply Kept.ite
    | (intro _; intros; try dsimp only)

theorem execGdUvHigh_kept {P : Part → Prop} [May P .regs_] [May P .lost_] {s0 : State} {s : State} {t : Nat} (hk : Kept P s0 s) :
    KeptO P s0 (execGdUvHigh s t) := by
  unfold execGdUvHigh
  try dsimp only
  repeat' first
    | with_reducible assumption
    | with_reducible apply State.at_kept
    | with_reducible apply State.wr_kept
    | with_reducible apply KeptO.of_next

theorem execLeakStepEnd_kept {P : Part → Prop} [May P .regs_] [May P .lost_] [May P .led_] [May P .trip_] [May P .gate_] {s0 : State} {s : State} {t : Nat} (hk : Kept P s0 s) :
    KeptO P s0 (execLeakStepEnd s t) := by
  unfold execLeakStepEnd
  try dsimp only
  repeat' first
    | with_reducible assumption
    | with_reducible apply State.at_kept
    | with_reducible apply State.leakCheck_kept
    | with_reducible apply State.leakStep_kept
    | with_reducible apply KeptO.of_next
    | with_reducible apply KeptO.ite
    | with_reducible apply Kept.ite
    | split

theorem State.hbRelease_kept {P : Part → Prop} [May P .regs_] [May P .lost_] [May P .trip_] {s0 : State} {s : State} {n : Nat} (hk : Kept P s0 s) :
    Kept P s0 (State.hbRelease s n) := by
  unfold State.hbRelease
  try dsimp only
  repeat' first
    | with_reducible assumption
    | with_reducible apply State.rearm_kept
    | with_reducible apply State.setHbState_kept
    | with_reducible apply State.source23_kept
    | with_reducible apply State.wrBit_kept
    | with_reducible apply State.wr_kept

theorem execRetryWaitEnd_kept {P : Part → Prop} [May P .regs_] [May P .lost_] [May P .led_] [May P .trip_] {s0 : State} {s : State} {n : Fin 24} {t : Nat} (hk : Kept P s0 s) :
    KeptO P s0 (execRetryWaitEnd s n t) := by
  unfold execRetryWaitEnd
  try dsimp only
  repeat' first
    | with_reducible assumption
    | with_reducible apply State.at_kept
    | with_reducible apply State.hbLatch_kept
    | with_reducible apply State.hbRelease_kept
    | with_reducible apply State.raise_kept
    | with_reducible apply KeptO.of_next
    | with_reducible apply KeptO.ite

theorem execPwmEdge_kept {P : Part → Prop} [May P .regs_] [May P .lost_] [May P .gate_] {s0 : State} {s : State} {n : Fin 24} {en : Bool} {pulse : Bool} {t : Nat} (hk : Kept P s0 s) :
    KeptO P s0 (execPwmEdge s n en pulse t) := by
  unfold execPwmEdge
  try dsimp only
  repeat' first
    | with_reducible assumption
    | with_reducible apply State.at_kept
    | with_reducible apply State.driveHb_kept
    | with_reducible apply State.settle_kept
    | with_reducible apply KeptO.of_next

theorem State.testDrive_kept {P : Part → Prop} [May P .regs_] [May P .lost_] [May P .led_] [May P .gate_] {s0 : State} {s : State} {n : Nat} {cmd : Nat} (hk : Kept P s0 s) :
    Kept P s0 (State.testDrive s n cmd) := by
  unfold State.testDrive
  try dsimp only
  repeat' first
    | with_reducible assumption
    | with_reducible apply State.askOn_kept
    | with_reducible apply State.hardOff_kept
    | with_reducible apply State.hit_kept
    | with_reducible apply State.raise_kept
    | with_reducible apply State.setSw_kept
    | with_reducible apply State.turnOff_kept
    | with_reducible apply State.wr_kept
    | with_reducible apply Kept.ite

theorem State.gdTestEffect_kept {P : Part → Prop} [May P .regs_] [May P .lost_] [May P .led_] [May P .gate_] {s0 : State} {s : State} {wasTen : Bool} {wasHb : Nat} (hk : Kept P s0 s) :
    Kept P s0 (State.gdTestEffect s wasTen wasHb) := by
  unfold State.gdTestEffect
  try dsimp only
  repeat' first
    | with_reducible assumption
    | with_reducible apply State.hardOff_kept
    | with_reducible apply State.rearm_kept
    | with_reducible apply State.setHbState_kept
    | with_reducible apply State.testDrive_kept
    | with_reducible apply Kept.ite

theorem State.leakStart_kept {P : Part → Prop} [May P .regs_] [May P .lost_] [May P .gate_] {s0 : State} {s : State} (hk : Kept P s0 s) :
    Kept P s0 (State.leakStart s) := by
  unfold State.leakStart
  try dsimp only
  repeat' first
    | with_reducible assumption
    | with_reducible apply State.leakNext_kept
    | with_reducible apply State.wr_kept

theorem State.hbClear_kept {P : Part → Prop} [May P .regs_] [May P .lost_] [May P .led_] [May P .trip_] [May P .gate_] {s0 : State} {s : State} {n : Nat} (hk : Kept P s0 s) :
    Kept P s0 (State.hbClear s n) := by
  unfold State.hbClear
  try dsimp only
  repeat' first
    | with_reducible assumption
    | with_reducible apply State.hbRelease_kept
    | with_reducible apply State.raise_kept
    | with_reducible apply State.updHb_kept
    | with_reducible apply State.wr_kept

end Sys2Proof.Machine
end

