-- ==== Sys2Proof/Laws/Kept/Trip.lean ====
section
/-!
SUPPORT. What the operations of Machine/Trip.lean keep.
-/

set_option Elab.async false
set_option linter.unusedTactic false
set_option linter.unreachableTactic false

namespace Sys2Proof.Machine

theorem execTripVerdict_kept {P : Part → Prop} [May P .fresh_] [May P .regs_] [May P .lost_] [May P .led_] [May P .swp_] [May P .trip_] [May P .gate_] [May P .regu_] [May P .out_] {s0 : State} {s : State} {n : Nat} {t : Nat} (hk : Kept P s0 s) :
    KeptO P s0 (execTripVerdict s n t) := by
  unfold execTripVerdict
  try dsimp only
  repeat' first
    | with_reducible assumption
    | with_reducible apply State.at_kept
    | with_reducible apply State.takeVerdicts_kept
    | with_reducible apply KeptO.of_next
    | (with_reducible refine Kept.mk' rfl rfl rfl rfl rfl rfl ?_)

theorem execDerateHoldExpire_kept {P : Part → Prop} [May P .regs_] [May P .lost_] [May P .trip_] [May P .regu_] {s0 : State} {s : State} {r : Fin 12} {t : Nat} (hk : Kept P s0 s) :
    KeptO P s0 (execDerateHoldExpire s r t) := by
  unfold execDerateHoldExpire
  try dsimp only
  repeat' first
    | with_reducible assumption
    | with_reducible apply State.at_kept
    | with_reducible apply State.limitsOnChange_kept
    | with_reducible apply State.setSt_kept
    | with_reducible apply State.updTstr_kept
    | with_reducible apply KeptO.of_next
    | with_reducible apply KeptO.ite
    | with_reducible apply Kept.ite
    | split

theorem State.park_kept {P : Part → Prop} [May P .regs_] [May P .lost_] [May P .trip_] [May P .gate_] [May P .regu_] {s0 : State} {s : State} {r : Nat} (hk : Kept P s0 s) :
    Kept P s0 (State.park s r) := by
  unfold State.park
  try dsimp only
  repeat' first
    | with_reducible assumption
    | with_reducible apply State.enterIdle_kept
    | with_reducible apply State.inhibitString_kept
    | with_reducible apply State.setSt_kept
    | with_reducible apply State.updTstr_kept

theorem execRampPark_kept {P : Part → Prop} [May P .fresh_] [May P .regs_] [May P .lost_] [May P .led_] [May P .trip_] [May P .gate_] [May P .regu_] [May P .out_] {s0 : State} {s : State} {r : Fin 12} {t : Nat} (hk : Kept P s0 s) :
    KeptO P s0 (execRampPark s r t) := by
  unfold execRampPark
  try dsimp only
  repeat' first
    | with_reducible assumption
    | with_reducible apply State.at_kept
    | with_reducible apply State.hcOff_kept
    | with_reducible apply State.park_kept
    | with_reducible apply KeptO.of_next
    | with_reducible apply KeptO.ite
    | with_reducible apply Kept.ite

theorem execRampTimeout_kept {P : Part → Prop} [May P .regs_] [May P .lost_] [May P .trip_] [May P .gate_] [May P .regu_] {s0 : State} {s : State} {r : Fin 12} {t : Nat} (hk : Kept P s0 s) :
    KeptO P s0 (execRampTimeout s r t) := by
  unfold execRampTimeout
  try dsimp only
  repeat' first
    | with_reducible assumption
    | with_reducible apply State.at_kept
    | with_reducible apply State.park_kept
    | with_reducible apply KeptO.of_next
    | with_reducible apply KeptO.ite
    | with_reducible apply Kept.ite
    | split

theorem execZeroCurrentOpen_kept {P : Part → Prop} [May P .fresh_] [May P .regs_] [May P .lost_] [May P .led_] [May P .trip_] [May P .gate_] [May P .regu_] [May P .out_] {s0 : State} {s : State} {r : Fin 12} {t : Nat} (hk : Kept P s0 s) :
    KeptO P s0 (execZeroCurrentOpen s r t) := by
  unfold execZeroCurrentOpen
  try dsimp only
  repeat' first
    | with_reducible assumption
    | with_reducible apply State.at_kept
    | with_reducible apply State.hcOff_kept
    | with_reducible apply KeptO.of_next
    | with_reducible apply KeptO.ite

theorem execOpenTimeout_kept {P : Part → Prop} [May P .fresh_] [May P .regs_] [May P .lost_] [May P .led_] [May P .trip_] [May P .gate_] [May P .regu_] [May P .out_] {s0 : State} {s : State} {r : Fin 12} {t : Nat} (hk : Kept P s0 s) :
    KeptO P s0 (execOpenTimeout s r t) := by
  unfold execOpenTimeout
  try dsimp only
  repeat' first
    | with_reducible assumption
    | with_reducible apply State.at_kept
    | with_reducible apply State.hcOff_kept
    | with_reducible apply KeptO.of_next
    | with_reducible apply KeptO.ite

theorem execDlimExceed_kept {P : Part → Prop} [May P .trip_] {s0 : State} {s : State} {r : Fin 12} {t : Nat} (hk : Kept P s0 s) :
    KeptO P s0 (execDlimExceed s r t) := by
  unfold execDlimExceed
  try dsimp only
  repeat' first
    | with_reducible assumption
    | with_reducible apply State.at_kept
    | with_reducible apply State.stringSource_kept
    | with_reducible apply KeptO.of_next
    | with_reducible apply KeptO.ite

theorem execDlimStale_kept {P : Part → Prop} [May P .regs_] [May P .lost_] [May P .led_] [May P .trip_] [May P .regu_] {s0 : State} {s : State} {r : Fin 12} {t : Nat} (hk : Kept P s0 s) :
    KeptO P s0 (execDlimStale s r t) := by
  unfold execDlimStale
  try dsimp only
  repeat' first
    | with_reducible assumption
    | with_reducible apply State.at_kept
    | with_reducible apply State.hit_kept
    | with_reducible apply State.limitsOnChange_kept
    | with_reducible apply State.raise_kept
    | with_reducible apply State.stringSource_kept
    | with_reducible apply State.updTstr_kept
    | with_reducible apply KeptO.of_next
    | with_reducible apply KeptO.ite

theorem execCloseWaitEnd_kept {P : Part → Prop} [May P .regs_] [May P .lost_] [May P .led_] [May P .trip_] [May P .gate_] [May P .regu_] [May P .out_] {s0 : State} {s : State} {r : Fin 12} {t : Nat} (hk : Kept P s0 s) :
    KeptO P s0 (execCloseWaitEnd s r t) := by
  unfold execCloseWaitEnd
  try dsimp only
  repeat' first
    | with_reducible assumption
    | with_reducible apply State.at_kept
    | with_reducible apply State.closeReq_kept
    | with_reducible apply State.pchClosed_kept
    | with_reducible apply State.updTstr_kept
    | with_reducible apply KeptO.of_next
    | with_reducible apply KeptO.ite
    | with_reducible apply Kept.ite

theorem execPullInTimeout_kept {P : Part → Prop} [May P .regs_] [May P .lost_] [May P .led_] [May P .trip_] [May P .gate_] [May P .regu_] [May P .out_] {s0 : State} {s : State} {r : Fin 12} {t : Nat} (hk : Kept P s0 s) :
    KeptO P s0 (execPullInTimeout s r t) := by
  unfold execPullInTimeout
  try dsimp only
  repeat' first
    | with_reducible assumption
    | with_reducible apply State.at_kept
    | with_reducible apply State.lsSync_kept
    | with_reducible apply State.pchClosed_kept
    | with_reducible apply State.pulseString_kept
    | with_reducible apply State.setSt_kept
    | with_reducible apply State.updTstr_kept
    | with_reducible apply State.wearBoth_kept
    | with_reducible apply KeptO.of_next
    | with_reducible apply KeptO.ite
    | with_reducible apply Kept.ite
    | split

theorem execEconomiserStart_kept {P : Part → Prop} [May P .regs_] [May P .lost_] [May P .trip_] [May P .out_] {s0 : State} {s : State} {r : Fin 12} {t : Nat} (hk : Kept P s0 s) :
    KeptO P s0 (execEconomiserStart s r t) := by
  unfold execEconomiserStart
  try dsimp only
  repeat' first
    | with_reducible assumption
    | with_reducible apply State.at_kept
    | with_reducible apply State.lsSync_kept
    | with_reducible apply State.updTstr_kept
    | with_reducible apply KeptO.of_next
    | with_reducible apply KeptO.ite
    | with_reducible apply Kept.ite
    | split

theorem execWeldCheckTimeout_kept {P : Part → Prop} [May P .regs_] [May P .lost_] [May P .led_] [May P .trip_] {s0 : State} {s : State} {r : Fin 12} {t : Nat} (hk : Kept P s0 s) :
    KeptO P s0 (execWeldCheckTimeout s r t) := by
  unfold execWeldCheckTimeout
  try dsimp only
  repeat' first
    | with_reducible assumption
    | with_reducible apply State.at_kept
    | with_reducible apply State.pulseString_kept
    | with_reducible apply State.raise_kept
    | with_reducible apply State.updTstr_kept
    | with_reducible apply State.wearOne_kept
    | with_reducible apply State.wrBit_kept
    | with_reducible apply KeptO.of_next
    | with_reducible apply KeptO.ite
    | with_reducible apply Kept.ite
    | split

theorem execPrechargeTimeout_kept {P : Part → Prop} [May P .regs_] [May P .lost_] [May P .led_] [May P .trip_] [May P .gate_] [May P .regu_] [May P .out_] {s0 : State} {s : State} {t : Nat} (hk : Kept P s0 s) :
    KeptO P s0 (execPrechargeTimeout s t) := by
  unfold execPrechargeTimeout
  try dsimp only
  repeat' first
    | with_reducible assumption
    | with_reducible apply State.at_kept
    | with_reducible apply State.pchClose_kept
    | with_reducible apply State.pchFail_kept
    | with_reducible apply KeptO.of_next
    | with_reducible apply KeptO.ite

theorem execCfbSample_kept {P : Part → Prop} [May P .regs_] [May P .lost_] [May P .led_] [May P .trip_] [May P .gate_] [May P .regu_] [May P .out_] {s0 : State} {s : State} {n : Fin 24} {level : Fin 3} {t : Nat} (hk : Kept P s0 s) :
    KeptO P s0 (execCfbSample s n level t) := by
  unfold execCfbSample
  try dsimp only
  repeat' first
    | with_reducible assumption
    | with_reducible apply State.at_kept
    | with_reducible apply State.cfbChanged_kept
    | with_reducible apply State.raise_kept
    | with_reducible apply State.wrBit_kept
    | with_reducible apply KeptO.of_next
    | with_reducible apply KeptO.ite
    | with_reducible apply Kept.ite
    | split
    | (with_reducible refine Kept.mk' rfl rfl rfl rfl rfl rfl ?_)

end Sys2Proof.Machine
end

