-- ==== Sys2Proof/Laws/Kept/Current.lean ====
section
/-!
SUPPORT. What the operations of Machine/Current.lean keep.
-/

set_option Elab.async false
set_option linter.unusedTactic false
set_option linter.unreachableTactic false

namespace Sys2Proof.Machine

theorem State.ringWrite_kept {P : Part → Prop} [May P .mem_] [May P .fab_] [May P .cur_] {s0 : State} {s : State} {x : Nat} {stamp : Nat} {v : Int} {flags : Nat} (hk : Kept P s0 s) :
    Kept P s0 (State.ringWrite s x stamp v flags) := by
  unfold State.ringWrite
  try dsimp only
  repeat' first
    | with_reducible assumption
    | with_reducible apply State.storeLE_kept
    | (with_reducible refine Kept.mk' rfl rfl rfl rfl rfl rfl ?_)

theorem State.windowAdd_kept {P : Part → Prop} [May P .cur_] {s0 : State} {s : State} {x : Nat} {v : Int} {bad : Bool} (hk : Kept P s0 s) :
    Kept P s0 (State.windowAdd s x v bad) := by
  unfold State.windowAdd
  try dsimp only
  repeat' first
    | with_reducible assumption
    | with_reducible apply Kept.ite
    | split
    | (with_reducible refine Kept.mk' rfl rfl rfl rfl rfl rfl ?_)

theorem State.offsetAdd_kept {P : Part → Prop} [May P .cur_] {s0 : State} {s : State} {x : Nat} {r : Nat} {v : Int} (hk : Kept P s0 s) :
    Kept P s0 (State.offsetAdd s x r v) := by
  unfold State.offsetAdd
  try dsimp only
  repeat' first
    | with_reducible assumption
    | with_reducible apply Kept.ite
    | split
    | (with_reducible refine Kept.mk' rfl rfl rfl rfl rfl rfl ?_)

theorem State.integrate_kept {P : Part → Prop} [May P .led_] {s0 : State} {s : State} {x : Nat} {r : Nat} {stamp : Nat} {v : Int} (hk : Kept P s0 s) :
    Kept P s0 (State.integrate s x r stamp v) := by
  unfold State.integrate
  try dsimp only
  repeat' first
    | with_reducible assumption
    | with_reducible apply Kept.ite
    | split
    | (with_reducible refine Kept.mk' rfl rfl rfl rfl rfl rfl ?_)

theorem State.unknownSync_kept {P : Part → Prop} [May P .trip_] [May P .cur_] {s0 : State} {s : State} {r : Nat} (hk : Kept P s0 s) :
    Kept P s0 (State.unknownSync s r) := by
  unfold State.unknownSync
  try dsimp only
  repeat' first
    | with_reducible assumption
    | with_reducible apply State.stringSource_kept
    | with_reducible apply Kept.ite
    | split
    | (with_reducible refine Kept.mk' rfl rfl rfl rfl rfl rfl ?_)

theorem State.unstale_kept {P : Part → Prop} [May P .regs_] [May P .lost_] [May P .trip_] [May P .cur_] {s0 : State} {s : State} {x : Nat} (hk : Kept P s0 s) :
    Kept P s0 (State.unstale s x) := by
  unfold State.unstale
  try dsimp only
  repeat' first
    | with_reducible assumption
    | with_reducible apply State.stringSource_kept
    | with_reducible apply State.unknownSync_kept
    | with_reducible apply State.wrBit_kept
    | with_reducible apply Kept.ite

theorem State.adaptSample_kept {P : Part → Prop} [May P .swp_] {s0 : State} {s : State} {v : Nat} (hk : Kept P s0 s) :
    Kept P s0 (State.adaptSample s v) := by
  unfold State.adaptSample
  try dsimp only
  repeat' first
    | with_reducible assumption
    | with_reducible apply Kept.ite
    | split
    | (with_reducible refine Kept.mk' rfl rfl rfl rfl rfl rfl ?_)

theorem State.adaptLoad_kept {P : Part → Prop} [May P .swp_] {s0 : State} {s : State} (hk : Kept P s0 s) :
    Kept P s0 (State.adaptLoad s) := by
  unfold State.adaptLoad
  try dsimp only
  repeat' first
    | with_reducible assumption
    | with_reducible apply Kept.ite
    | split
    | (with_reducible refine Kept.mk' rfl rfl rfl rfl rfl rfl ?_)

theorem State.makeStale_kept {P : Part → Prop} [May P .regs_] [May P .lost_] [May P .led_] [May P .swp_] [May P .trip_] [May P .cur_] {s0 : State} {s : State} {x : Nat} (hk : Kept P s0 s) :
    Kept P s0 (State.makeStale s x) := by
  unfold State.makeStale
  try dsimp only
  repeat' first
    | with_reducible assumption
    | with_reducible apply State.adaptLoad_kept
    | with_reducible apply State.hit_kept
    | with_reducible apply State.raise_kept
    | with_reducible apply State.stringSource_kept
    | with_reducible apply State.unknownSync_kept
    | with_reducible apply State.wrBit_kept
    | with_reducible apply Kept.ite

theorem State.streamSample_kept {P : Part → Prop} [May P .regs_] [May P .lost_] [May P .mem_] [May P .fab_] [May P .led_] [May P .swp_] [May P .trip_] [May P .cur_] {s0 : State} {s : State} {x : Nat} {stamp : Nat} {v : Int} {period : Nat} (hk : Kept P s0 s) :
    Kept P s0 (State.streamSample s x stamp v period) := by
  unfold State.streamSample
  try dsimp only
  repeat' first
    | with_reducible assumption
    | with_reducible apply State.adaptSample_kept
    | with_reducible apply State.hit_kept
    | with_reducible apply State.integrate_kept
    | with_reducible apply State.offsetAdd_kept
    | with_reducible apply State.pathSample_kept
    | with_reducible apply State.raise_kept
    | with_reducible apply State.ringWrite_kept
    | with_reducible apply State.windowAdd_kept
    | with_reducible apply Kept.ite
    | split
    | (with_reducible refine Kept.mk' rfl rfl rfl rfl rfl rfl ?_)

theorem State.streamIn_kept {P : Part → Prop} [May P .regs_] [May P .lost_] [May P .mem_] [May P .fab_] [May P .led_] [May P .swp_] [May P .trip_] [May P .cur_] {s0 : State} {s : State} {p : Nat} {q : Nat} {body : List Nat} (hk : Kept P s0 s) :
    Kept P s0 (State.streamIn s p q body) := by
  unfold State.streamIn
  try dsimp only
  repeat' first
    | with_reducible assumption
    | with_reducible apply State.hit_kept
    | with_reducible apply State.raise_kept
    | with_reducible apply State.streamSample_kept
    | with_reducible apply State.unstale_kept
    | with_reducible apply Kept.foldl
    | with_reducible apply Kept.ite
    | (intro _; intros; try dsimp only)
    | split
    | (with_reducible refine Kept.mk' rfl rfl rfl rfl rfl rfl ?_)

theorem execStreamStale_kept {P : Part → Prop} [May P .regs_] [May P .lost_] [May P .led_] [May P .swp_] [May P .trip_] [May P .cur_] {s0 : State} {s : State} {i : Fin 14} {t : Nat} (hk : Kept P s0 s) :
    KeptO P s0 (execStreamStale s i t) := by
  unfold execStreamStale
  try dsimp only
  repeat' first
    | with_reducible assumption
    | with_reducible apply State.at_kept
    | with_reducible apply State.makeStale_kept
    | with_reducible apply KeptO.of_next
    | with_reducible apply KeptO.ite

theorem execPhaseDecimatorOutput_kept {P : Part → Prop} [May P .regs_] [May P .lost_] [May P .led_] [May P .trip_] [May P .gate_] [May P .regu_] [May P .cur_] {s0 : State} {s : State} {n : Fin 24} {acc : Nat} {t : Nat} (hk : Kept P s0 s) :
    KeptO P s0 (execPhaseDecimatorOutput s n acc t) := by
  unfold execPhaseDecimatorOutput
  try dsimp only
  repeat' first
    | with_reducible assumption
    | with_reducible apply State.at_kept
    | with_reducible apply State.phaseSenseFail_kept
    | with_reducible apply State.unknownSync_kept
    | with_reducible apply KeptO.of_next
    | with_reducible apply KeptO.ite
    | with_reducible apply Kept.ite
    | split
    | (with_reducible refine Kept.mk' rfl rfl rfl rfl rfl rfl ?_)

theorem execPhaseSumWrite_kept {P : Part → Prop} [May P .mem_] [May P .fab_] [May P .led_] [May P .trip_] [May P .cur_] {s0 : State} {s : State} {r : Fin 12} {t : Nat} (hk : Kept P s0 s) :
    KeptO P s0 (execPhaseSumWrite s r t) := by
  unfold execPhaseSumWrite
  try dsimp only
  repeat' first
    | with_reducible assumption
    | with_reducible apply State.at_kept
    | with_reducible apply State.integrate_kept
    | with_reducible apply State.offsetAdd_kept
    | with_reducible apply State.pathSample_kept
    | with_reducible apply State.ringWrite_kept
    | with_reducible apply State.windowAdd_kept
    | with_reducible apply KeptO.of_next
    | with_reducible apply KeptO.ite
    | with_reducible apply Kept.ite
    | split
    | (with_reducible refine Kept.mk' rfl rfl rfl rfl rfl rfl ?_)

theorem execPdatNoTransition_kept {P : Part → Prop} [May P .regs_] [May P .lost_] [May P .led_] [May P .trip_] [May P .gate_] [May P .regu_] [May P .cur_] {s0 : State} {s : State} {n : Fin 24} {t : Nat} (hk : Kept P s0 s) :
    KeptO P s0 (execPdatNoTransition s n t) := by
  unfold execPdatNoTransition
  try dsimp only
  repeat' first
    | with_reducible assumption
    | with_reducible apply State.at_kept
    | with_reducible apply State.phaseSenseFail_kept
    | with_reducible apply State.unknownSync_kept
    | with_reducible apply KeptO.of_next
    | split

theorem State.aicSource_kept {P : Part → Prop} [May P .trip_] {s0 : State} {s : State} (hk : Kept P s0 s) :
    Kept P s0 (State.aicSource s) := by
  unfold State.aicSource
  try dsimp only
  repeat' first
    | with_reducible assumption
    | with_reducible apply State.stringSource_kept
    | with_reducible apply Kept.ite

theorem State.aicCheck_kept {P : Part → Prop} [May P .regs_] [May P .lost_] [May P .led_] [May P .trip_] [May P .cur_] {s0 : State} {s : State} {n : Nat} {code : Int} (hk : Kept P s0 s) :
    Kept P s0 (State.aicCheck s n code) := by
  unfold State.aicCheck
  try dsimp only
  repeat' first
    | with_reducible assumption
    | with_reducible apply State.aicSource_kept
    | with_reducible apply State.hit_kept
    | with_reducible apply State.raise_kept
    | with_reducible apply Kept.ite
    | split
    | (with_reducible refine Kept.mk' rfl rfl rfl rfl rfl rfl ?_)

theorem execAicSample_kept {P : Part → Prop} [May P .fresh_] [May P .regs_] [May P .lost_] [May P .mem_] [May P .fab_] [May P .led_] [May P .trip_] [May P .gate_] [May P .regu_] [May P .cur_] {s0 : State} {s : State} {n : Fin 8} {code : Int} {t : Nat} (hk : Kept P s0 s) :
    KeptO P s0 (execAicSample s n code t) := by
  unfold execAicSample
  try dsimp only
  repeat' first
    | with_reducible assumption
    | with_reducible apply State.aicCheck_kept
    | with_reducible apply State.at_kept
    | with_reducible apply State.busLoop_kept
    | with_reducible apply State.pchBus_kept
    | with_reducible apply State.ringWrite_kept
    | with_reducible apply State.vbusFaulty_kept
    | with_reducible apply KeptO.of_next
    | with_reducible apply KeptO.ite
    | with_reducible apply Kept.ite
    | split
    | (with_reducible refine Kept.mk' rfl rfl rfl rfl rfl rfl ?_)

theorem State.ainSource_kept {P : Part → Prop} [May P .trip_] [May P .cur_] {s0 : State} {s : State} {n : Nat} {on : Bool} (hk : Kept P s0 s) :
    Kept P s0 (State.ainSource s n on) := by
  unfold State.ainSource
  try dsimp only
  repeat' first
    | with_reducible assumption
    | with_reducible apply State.stringSource_kept
    | with_reducible apply Kept.ite
    | split
    | (with_reducible refine Kept.mk' rfl rfl rfl rfl rfl rfl ?_)

theorem State.ainWin_kept {P : Part → Prop} [May P .regs_] [May P .lost_] [May P .led_] [May P .trip_] [May P .cur_] {s0 : State} {s : State} {n : Nat} (hk : Kept P s0 s) :
    Kept P s0 (State.ainWin s n) := by
  unfold State.ainWin
  try dsimp only
  repeat' first
    | with_reducible assumption
    | with_reducible apply State.ainSource_kept
    | with_reducible apply State.hit_kept
    | with_reducible apply State.raise_kept

theorem execAinConversion_kept {P : Part → Prop} [May P .regs_] [May P .lost_] [May P .led_] [May P .trip_] [May P .cur_] {s0 : State} {s : State} {n : Fin 16} {code : Fin 4096} {t : Nat} (hk : Kept P s0 s) :
    KeptO P s0 (execAinConversion s n code t) := by
  unfold execAinConversion
  try dsimp only
  repeat' first
    | with_reducible assumption
    | with_reducible apply State.ainSource_kept
    | with_reducible apply State.ainWin_kept
    | with_reducible apply State.at_kept
    | with_reducible apply KeptO.of_next
    | with_reducible apply KeptO.ite
    | with_reducible apply Kept.ite
    | split
    | (with_reducible refine Kept.mk' rfl rfl rfl rfl rfl rfl ?_)

theorem execAinTimeout_kept {P : Part → Prop} [May P .regs_] [May P .lost_] [May P .led_] [May P .trip_] [May P .cur_] {s0 : State} {s : State} {n : Fin 16} {t : Nat} (hk : Kept P s0 s) :
    KeptO P s0 (execAinTimeout s n t) := by
  unfold execAinTimeout
  try dsimp only
  repeat' first
    | with_reducible assumption
    | with_reducible apply State.ainWin_kept
    | with_reducible apply State.at_kept
    | with_reducible apply KeptO.of_next

theorem State.xcheck_kept {P : Part → Prop} [May P .regs_] [May P .lost_] [May P .led_] [May P .trip_] [May P .cur_] {s0 : State} {s : State} {r : Nat} (hk : Kept P s0 s) :
    Kept P s0 (State.xcheck s r) := by
  unfold State.xcheck
  try dsimp only
  repeat' first
    | with_reducible assumption
    | with_reducible apply State.hit_kept
    | with_reducible apply State.parkRequest_kept
    | with_reducible apply State.raise_kept
    | with_reducible apply State.wrBit_kept
    | with_reducible apply Kept.ite
    | split
    | (with_reducible refine Kept.mk' rfl rfl rfl rfl rfl rfl ?_)

theorem execXchkWindowEnd_kept {P : Part → Prop} [May P .regs_] [May P .lost_] [May P .led_] [May P .trip_] [May P .cur_] {s0 : State} {s : State} {t : Nat} (hk : Kept P s0 s) :
    KeptO P s0 (execXchkWindowEnd s t) := by
  unfold execXchkWindowEnd
  try dsimp only
  repeat' first
    | with_reducible assumption
    | with_reducible apply State.at_kept
    | with_reducible apply State.xcheck_kept
    | with_reducible apply KeptO.of_next
    | with_reducible apply Kept.foldl
    | (with_reducible refine Kept.mk' rfl rfl rfl rfl rfl rfl ?_)

theorem execOffsetMeasure_kept {P : Part → Prop} [May P .regs_] [May P .lost_] [May P .led_] [May P .cur_] {s0 : State} {s : State} {r : Fin 12} {t : Nat} (hk : Kept P s0 s) :
    KeptO P s0 (execOffsetMeasure s r t) := by
  unfold execOffsetMeasure
  try dsimp only
  repeat' first
    | with_reducible assumption
    | with_reducible apply State.at_kept
    | with_reducible apply State.raise_kept
    | with_reducible apply State.wr_kept
    | with_reducible apply KeptO.of_next
    | with_reducible apply KeptO.ite
    | with_reducible apply Kept.ite
    | split
    | (with_reducible refine Kept.mk' rfl rfl rfl rfl rfl rfl ?_)

theorem execCurrentAtInstant_kept {P : Part → Prop} [May P .regs_] [May P .lost_] [May P .led_] [May P .trip_] [May P .cur_] {s0 : State} {s : State} {r : Fin 12} {instant : Nat} {t : Nat} (hk : Kept P s0 s) :
    KeptO P s0 (execCurrentAtInstant s r instant t) := by
  unfold execCurrentAtInstant
  try dsimp only
  repeat' first
    | with_reducible assumption
    | with_reducible apply State.at_kept
    | with_reducible apply State.hit_kept
    | with_reducible apply State.raise_kept
    | with_reducible apply State.unknownSync_kept
    | with_reducible apply KeptO.of_next
    | with_reducible apply KeptO.ite
    | with_reducible apply Kept.ite
    | split
    | (with_reducible refine Kept.mk' rfl rfl rfl rfl rfl rfl ?_)

end Sys2Proof.Machine
end

