-- ==== Sys2Proof/Laws/Kept/Records.lean ====
section
/-!
SUPPORT. What the operations of Machine/Records.lean keep.
-/

set_option Elab.async false
set_option linter.unusedTactic false
set_option linter.unreachableTactic false

namespace Sys2Proof.Machine

theorem State.sendRead_kept {P : Part → Prop} [May P .fab_] [May P .lnk_] {s0 : State} {s : State} {k : Nat} {tag : Nat} {first : Nat} {last : Nat} {slot : Nat} {retry : Bool} (hk : Kept P s0 s) :
    Kept P s0 (State.sendRead s k tag first last slot retry) := by
  unfold State.sendRead
  try dsimp only
  repeat' first
    | with_reducible assumption
    | with_reducible apply State.engSend_kept
    | with_reducible apply State.updEng_kept

theorem State.updRead_kept {P : Part → Prop} [May P .lnk_] {s0 : State} {s : State} {k : Nat} {f : ReadOut → ReadOut} (hk : Kept P s0 s) :
    Kept P s0 (State.updRead s k f) := by
  unfold State.updRead
  try dsimp only
  repeat' first | with_reducible assumption | with_reducible apply State.updEng_kept

theorem State.recordHeld_kept {P : Part → Prop} [May P .lnk_] [May P .trip_] {s0 : State} {s : State} {k : Nat} {p : Nat} {q : Nat} {tag : Nat} (hk : Kept P s0 s) :
    Kept P s0 (State.recordHeld s k p q tag) := by
  unfold State.recordHeld
  try dsimp only
  repeat' first
    | with_reducible assumption
    | with_reducible apply State.unstalePos_kept
    | with_reducible apply State.updPos_kept
    | with_reducible apply Kept.ite

theorem State.recordFlags_kept {P : Part → Prop} [May P .regs_] [May P .lost_] [May P .led_] {s0 : State} {s : State} {k : Nat} {p : Nat} {q : Nat} {body : List Nat} (hk : Kept P s0 s) :
    Kept P s0 (State.recordFlags s k p q body) := by
  unfold State.recordFlags
  try dsimp only
  repeat' first
    | with_reducible assumption
    | with_reducible apply State.hitLate_kept
    | with_reducible apply State.raise_kept
    | with_reducible apply Kept.ite

theorem State.cellRecord_kept {P : Part → Prop} [May P .regs_] [May P .lost_] [May P .fab_] [May P .led_] [May P .lnk_] [May P .trip_] {s0 : State} {s : State} {k : Nat} {p : Nat} {q : Nat} {body : List Nat} (hk : Kept P s0 s) :
    Kept P s0 (State.cellRecord s k p q body) := by
  unfold State.cellRecord
  try dsimp only
  repeat' first
    | with_reducible assumption
    | with_reducible apply State.applyChecks_kept
    | with_reducible apply State.groupEvents_kept
    | with_reducible apply State.owtDecide_kept
    | with_reducible apply State.recordHeld_kept
    | with_reducible apply State.signatureTest_kept
    | with_reducible apply State.updPos_kept
    | with_reducible apply State.wr_kept
    | with_reducible apply Kept.ite

theorem State.senseIn_kept {P : Part → Prop} [May P .regs_] [May P .lost_] [May P .led_] [May P .trip_] [May P .gate_] [May P .regu_] [May P .out_] {s0 : State} {s : State} {p : Nat} {q : Nat} {body : List Nat} (hk : Kept P s0 s) :
    Kept P s0 (State.senseIn s p q body) := by
  unfold State.senseIn
  try dsimp only
  repeat' first | with_reducible assumption | with_reducible apply State.senseRecord_kept | split

theorem State.senseHeld_kept {P : Part → Prop} [May P .lnk_] [May P .trip_] {s0 : State} {s : State} {k : Nat} {p : Nat} {q : Nat} {body : List Nat} (hk : Kept P s0 s) :
    Kept P s0 (State.senseHeld s k p q body) := by
  unfold State.senseHeld
  try dsimp only
  repeat' first
    | with_reducible assumption
    | with_reducible apply State.recordHeld_kept
    | with_reducible apply State.updPos_kept
    | with_reducible apply Kept.ite

theorem State.stringRecord_kept {P : Part → Prop} [May P .regs_] [May P .lost_] [May P .mem_] [May P .fab_] [May P .led_] [May P .lnk_] [May P .swp_] [May P .trip_] [May P .gate_] [May P .regu_] [May P .out_] [May P .cur_] {s0 : State} {s : State} {k : Nat} {p : Nat} {q : Nat} {body : List Nat} (hk : Kept P s0 s) :
    Kept P s0 (State.stringRecord s k p q body) := by
  unfold State.stringRecord
  try dsimp only
  repeat' first
    | with_reducible assumption
    | with_reducible apply State.applyChecks_kept
    | with_reducible apply State.senseHeld_kept
    | with_reducible apply State.senseIn_kept
    | with_reducible apply State.streamIn_kept
    | with_reducible apply Kept.ite

theorem State.busRecord_kept {P : Part → Prop} [May P .regs_] [May P .lost_] [May P .mem_] [May P .fab_] [May P .led_] [May P .lnk_] [May P .swp_] [May P .trip_] [May P .cur_] {s0 : State} {s : State} {k : Nat} {p : Nat} {q : Nat} {body : List Nat} (hk : Kept P s0 s) :
    Kept P s0 (State.busRecord s k p q body) := by
  unfold State.busRecord
  try dsimp only
  repeat' first
    | with_reducible assumption
    | with_reducible apply State.applyChecks_kept
    | with_reducible apply State.senseHeld_kept
    | with_reducible apply State.streamIn_kept
    | with_reducible apply Kept.ite
    | split
    | (with_reducible refine Kept.mk' rfl rfl rfl rfl rfl rfl ?_)

theorem State.copyToSf_kept {P : Part → Prop} [May P .lnk_] {s0 : State} {s : State} {p : Nat} {q : Nat} {body : List Nat} (hk : Kept P s0 s) :
    Kept P s0 (State.copyToSf s p q body) := by
  unfold State.copyToSf
  try dsimp only
  repeat' first | with_reducible assumption | (with_reducible refine Kept.mk' rfl rfl rfl rfl rfl rfl ?_)

theorem State.badResponse_kept {P : Part → Prop} [May P .regs_] [May P .lost_] [May P .fab_] [May P .led_] [May P .lnk_] {s0 : State} {s : State} {k : Nat} {q : Nat} {crc : Bool} {tag : Nat} (hk : Kept P s0 s) :
    Kept P s0 (State.badResponse s k q crc tag) := by
  unfold State.badResponse
  try dsimp only
  repeat' first
    | with_reducible assumption
    | with_reducible apply State.count_kept
    | with_reducible apply State.hitCrc_kept
    | with_reducible apply State.hitSlot_kept
    | with_reducible apply State.raise_kept
    | with_reducible apply State.updPos_kept
    | with_reducible apply State.updRead_kept
    | with_reducible apply Kept.ite

theorem State.recordIn_kept {P : Part → Prop} [May P .regs_] [May P .lost_] [May P .fab_] [May P .led_] [May P .lnk_] {s0 : State} {s : State} {k : Nat} {body : List Nat} {crc : Bool} {viol : Bool} {take : State → Nat → Nat → Nat → List Nat → State} (htake : ∀ s x1 x2 x3 x4, Kept P s0 s → Kept P s0 (take s x1 x2 x3 x4)) (hk : Kept P s0 s) :
    Kept P s0 (State.recordIn s k body crc viol take) := by
  unfold State.recordIn
  try dsimp only
  repeat' first
    | with_reducible assumption
    | with_reducible apply State.badResponse_kept
    | with_reducible apply State.copyToSf_kept
    | with_reducible apply State.engRx_kept
    | with_reducible apply State.hitCrc_kept
    | with_reducible apply State.hitSlot_kept
    | with_reducible apply State.raise_kept
    | with_reducible apply State.recordFlags_kept
    | with_reducible apply State.updRead_kept
    | with_reducible apply Kept.ite
    | split
    | with_reducible apply htake

theorem State.anyRecord_kept {P : Part → Prop} [May P .regs_] [May P .lost_] [May P .mem_] [May P .fab_] [May P .led_] [May P .lnk_] [May P .swp_] [May P .trip_] [May P .gate_] [May P .regu_] [May P .out_] [May P .cur_] {s0 : State} {s : State} {k : Nat} {p : Nat} {q : Nat} {body : List Nat} (hk : Kept P s0 s) :
    Kept P s0 (State.anyRecord s k p q body) := by
  unfold State.anyRecord
  try dsimp only
  repeat' first
    | with_reducible assumption
    | with_reducible apply State.busRecord_kept
    | with_reducible apply State.cellRecord_kept
    | with_reducible apply State.stringRecord_kept
    | with_reducible apply Kept.ite

theorem execCrec_kept {P : Part → Prop} [May P .regs_] [May P .lost_] [May P .mem_] [May P .fab_] [May P .led_] [May P .lnk_] [May P .swp_] [May P .trip_] [May P .gate_] [May P .regu_] [May P .out_] [May P .cur_] {s0 : State} {s : State} {k : Fin 20} {body : List Nat} {crc : Bool} {viol : Bool} {t : Nat} (hk : Kept P s0 s) :
    KeptO P s0 (execCrec s k body crc viol t) := by
  unfold execCrec
  try dsimp only
  repeat' first
    | with_reducible assumption
    | with_reducible apply State.anyRecord_kept
    | with_reducible apply State.at_kept
    | with_reducible apply State.recordIn_kept
    | with_reducible apply KeptO.of_next

theorem execSrec_kept {P : Part → Prop} [May P .regs_] [May P .lost_] [May P .mem_] [May P .fab_] [May P .led_] [May P .lnk_] [May P .swp_] [May P .trip_] [May P .gate_] [May P .regu_] [May P .out_] [May P .cur_] {s0 : State} {s : State} {k : Fin 20} {body : List Nat} {crc : Bool} {viol : Bool} {t : Nat} (hk : Kept P s0 s) :
    KeptO P s0 (execSrec s k body crc viol t) := by
  unfold execSrec
  try dsimp only
  repeat' first
    | with_reducible assumption
    | with_reducible apply State.anyRecord_kept
    | with_reducible apply State.at_kept
    | with_reducible apply State.recordIn_kept
    | with_reducible apply KeptO.of_next

theorem execBrec_kept {P : Part → Prop} [May P .regs_] [May P .lost_] [May P .mem_] [May P .fab_] [May P .led_] [May P .lnk_] [May P .swp_] [May P .trip_] [May P .gate_] [May P .regu_] [May P .out_] [May P .cur_] {s0 : State} {s : State} {k : Fin 20} {body : List Nat} {crc : Bool} {viol : Bool} {t : Nat} (hk : Kept P s0 s) :
    KeptO P s0 (execBrec s k body crc viol t) := by
  unfold execBrec
  try dsimp only
  repeat' first
    | with_reducible assumption
    | with_reducible apply State.anyRecord_kept
    | with_reducible apply State.at_kept
    | with_reducible apply State.recordIn_kept
    | with_reducible apply KeptO.of_next

theorem State.locatePing_kept {P : Part → Prop} [May P .fab_] [May P .lnk_] {s0 : State} {s : State} {k : Nat} {q : Nat} (hk : Kept P s0 s) :
    Kept P s0 (State.locatePing s k q) := by
  unfold State.locatePing
  try dsimp only
  repeat' first
    | with_reducible assumption
    | with_reducible apply State.engSend_kept
    | with_reducible apply State.updEng_kept

theorem execPong_kept {P : Part → Prop} [May P .fresh_] [May P .regs_] [May P .lost_] [May P .fab_] [May P .led_] [May P .lnk_] [May P .trip_] {s0 : State} {s : State} {k : Fin 20} {body : List Nat} {crc : Bool} {viol : Bool} {t : Nat} (hk : Kept P s0 s) :
    KeptO P s0 (execPong s k body crc viol t) := by
  unfold execPong
  try dsimp only
  repeat' first
    | with_reducible assumption
    | with_reducible apply State.at_kept
    | with_reducible apply State.engRx_kept
    | with_reducible apply State.hitCrc_kept
    | with_reducible apply State.locatePing_kept
    | with_reducible apply State.pong_kept
    | with_reducible apply State.raise_kept
    | with_reducible apply State.updEng_kept
    | with_reducible apply KeptO.of_next
    | with_reducible apply KeptO.ite
    | with_reducible apply Kept.ite
    | split

theorem State.eackKeep_kept {P : Part → Prop} [May P .fresh_] [May P .regs_] [May P .lost_] [May P .mem_] [May P .fab_] [May P .led_] [May P .lnk_] [May P .boot_] {s0 : State} {s : State} {k : Nat} {q : Nat} {body : List Nat} (hk : Kept P s0 s) :
    Kept P s0 (State.eackKeep s k q body) := by
  unfold State.eackKeep
  try dsimp only
  repeat' first
    | with_reducible assumption
    | with_reducible apply State.hitSwap_kept
    | with_reducible apply State.lifeSerial_kept
    | with_reducible apply State.raise_kept
    | with_reducible apply State.setReg_kept
    | with_reducible apply State.updPos_kept
    | with_reducible apply State.wr_kept
    | with_reducible apply Kept.ite

theorem execEack_kept {P : Part → Prop} [May P .fresh_] [May P .regs_] [May P .lost_] [May P .mem_] [May P .fab_] [May P .led_] [May P .lnk_] [May P .trip_] [May P .boot_] {s0 : State} {s : State} {k : Fin 20} {body : List Nat} {crc : Bool} {viol : Bool} {t : Nat} (hk : Kept P s0 s) :
    KeptO P s0 (execEack s k body crc viol t) := by
  unfold execEack
  try dsimp only
  repeat' first
    | with_reducible assumption
    | with_reducible apply State.at_kept
    | with_reducible apply State.eackKeep_kept
    | with_reducible apply State.engRx_kept
    | with_reducible apply State.engSend_kept
    | with_reducible apply State.enumStop_kept
    | with_reducible apply State.hitCrc_kept
    | with_reducible apply State.raise_kept
    | with_reducible apply State.sendEnum_kept
    | with_reducible apply State.updEng_kept
    | with_reducible apply KeptO.of_next
    | with_reducible apply KeptO.ite
    | with_reducible apply Kept.ite
    | split

theorem execRrep_kept {P : Part → Prop} [May P .fresh_] [May P .regs_] [May P .lost_] [May P .fab_] [May P .led_] [May P .lnk_] [May P .trip_] {s0 : State} {s : State} {k : Fin 20} {body : List Nat} {crc : Bool} {viol : Bool} {t : Nat} (hk : Kept P s0 s) :
    KeptO P s0 (execRrep s k body crc viol t) := by
  unfold execRrep
  try dsimp only
  repeat' first
    | with_reducible assumption
    | with_reducible apply State.at_kept
    | with_reducible apply State.engRx_kept
    | with_reducible apply State.engSend_kept
    | with_reducible apply State.enumRetry_kept
    | with_reducible apply KeptO.of_next
    | with_reducible apply KeptO.ite
    | with_reducible apply Kept.ite
    | split

theorem execArsp_kept {P : Part → Prop} [May P .fresh_] [May P .regs_] [May P .lost_] [May P .fab_] [May P .led_] [May P .lnk_] [May P .trip_] {s0 : State} {s : State} {k : Fin 20} {body : List Nat} {crc : Bool} {viol : Bool} {t : Nat} (hk : Kept P s0 s) :
    KeptO P s0 (execArsp s k body crc viol t) := by
  unfold execArsp
  try dsimp only
  repeat' first
    | with_reducible assumption
    | with_reducible apply State.at_kept
    | with_reducible apply State.authFail_kept
    | with_reducible apply State.authPass_kept
    | with_reducible apply State.engRx_kept
    | with_reducible apply State.hitCrc_kept
    | with_reducible apply State.raise_kept
    | with_reducible apply KeptO.of_next
    | with_reducible apply KeptO.ite
    | with_reducible apply Kept.ite

theorem State.nakInSlot_kept {P : Part → Prop} [May P .regs_] [May P .lost_] [May P .led_] [May P .lnk_] {s0 : State} {s : State} {k : Nat} {q : Nat} {body : List Nat} {tag : Nat} (hk : Kept P s0 s) :
    Kept P s0 (State.nakInSlot s k q body tag) := by
  unfold State.nakInSlot
  try dsimp only
  repeat' first
    | with_reducible assumption
    | with_reducible apply State.hitNak_kept
    | with_reducible apply State.raise_kept
    | with_reducible apply State.updPos_kept
    | with_reducible apply State.updRead_kept
    | with_reducible apply Kept.ite

theorem State.nakAuth_kept {P : Part → Prop} [May P .fresh_] [May P .regs_] [May P .lost_] [May P .fab_] [May P .led_] [May P .lnk_] [May P .trip_] {s0 : State} {s : State} {k : Nat} {q : Nat} {reason : Nat} (hk : Kept P s0 s) :
    Kept P s0 (State.nakAuth s k q reason) := by
  unfold State.nakAuth
  try dsimp only
  repeat' first
    | with_reducible assumption
    | with_reducible apply State.authFail_kept
    | with_reducible apply State.updPos_kept
    | with_reducible apply Kept.ite

theorem execNak_kept {P : Part → Prop} [May P .fresh_] [May P .regs_] [May P .lost_] [May P .fab_] [May P .led_] [May P .lnk_] [May P .trip_] {s0 : State} {s : State} {k : Fin 20} {body : List Nat} {crc : Bool} {viol : Bool} {t : Nat} (hk : Kept P s0 s) :
    KeptO P s0 (execNak s k body crc viol t) := by
  unfold execNak
  try dsimp only
  repeat' first
    | with_reducible assumption
    | with_reducible apply State.at_kept
    | with_reducible apply State.badResponse_kept
    | with_reducible apply State.engRx_kept
    | with_reducible apply State.hitCrc_kept
    | with_reducible apply State.hitNak_kept
    | with_reducible apply State.nakAuth_kept
    | with_reducible apply State.nakInSlot_kept
    | with_reducible apply State.raise_kept
    | with_reducible apply KeptO.of_next
    | with_reducible apply KeptO.ite
    | with_reducible apply Kept.ite
    | split

theorem State.staleFrom_kept {P : Part → Prop} [May P .lnk_] {s0 : State} {s : State} {p : Nat} {qs : List Nat} {tag : Nat} {target : Nat} (hk : Kept P s0 s) :
    Kept P s0 (State.staleFrom s p qs tag target) := by
  unfold State.staleFrom
  try dsimp only
  repeat' first
    | with_reducible assumption
    | with_reducible apply State.updPos_kept
    | with_reducible apply Kept.foldl
    | (intro _; intros; try dsimp only)

theorem State.twoEnded_kept {P : Part → Prop} [May P .regs_] [May P .lost_] [May P .led_] [May P .lnk_] {s0 : State} {s : State} {k : Nat} {r : ReadOut} (hk : Kept P s0 s) :
    Kept P s0 (State.twoEnded s k r) := by
  unfold State.twoEnded
  try dsimp only
  repeat' first
    | with_reducible assumption
    | with_reducible apply State.raise_kept
    | with_reducible apply State.updEng_kept
    | with_reducible apply State.wr_kept
    | with_reducible apply Kept.foldl
    | with_reducible apply Kept.ite

theorem execSlotWindowClose_kept {P : Part → Prop} [May P .regs_] [May P .lost_] [May P .fab_] [May P .led_] [May P .lnk_] {s0 : State} {s : State} {k : Fin 20} {t : Nat} (hk : Kept P s0 s) :
    KeptO P s0 (execSlotWindowClose s k t) := by
  unfold execSlotWindowClose
  try dsimp only
  repeat' first
    | with_reducible assumption
    | with_reducible apply State.at_kept
    | with_reducible apply State.missing_kept
    | with_reducible apply State.staleFrom_kept
    | with_reducible apply State.twoEnded_kept
    | with_reducible apply State.updEng_kept
    | with_reducible apply KeptO.of_next
    | with_reducible apply Kept.foldl
    | with_reducible apply KeptO.ite
    | with_reducible apply Kept.ite
    | (intro _; intros; try dsimp only)
    | split

theorem execRetryRead_kept {P : Part → Prop} [May P .fab_] [May P .lnk_] {s0 : State} {s : State} {k : Fin 20} {t : Nat} (hk : Kept P s0 s) :
    KeptO P s0 (execRetryRead s k t) := by
  unfold execRetryRead
  try dsimp only
  repeat' first
    | with_reducible assumption
    | with_reducible apply State.at_kept
    | with_reducible apply State.sendRead_kept
    | with_reducible apply KeptO.of_next
    | with_reducible apply Kept.foldl
    | with_reducible apply KeptO.ite
    | with_reducible apply Kept.ite
    | split

theorem State.breakAt_kept {P : Part → Prop} [May P .regs_] [May P .lost_] [May P .led_] [May P .lnk_] {s0 : State} {s : State} {k : Nat} {m : Nat} (hk : Kept P s0 s) :
    Kept P s0 (State.breakAt s k m) := by
  unfold State.breakAt
  try dsimp only
  repeat' first
    | with_reducible assumption
    | with_reducible apply State.raise_kept
    | with_reducible apply State.updEng_kept
    | with_reducible apply State.wr_kept

theorem execChainBreakLocate_kept {P : Part → Prop} [May P .regs_] [May P .lost_] [May P .fab_] [May P .led_] [May P .lnk_] {s0 : State} {s : State} {k : Fin 20} {t : Nat} (hk : Kept P s0 s) :
    KeptO P s0 (execChainBreakLocate s k t) := by
  unfold execChainBreakLocate
  try dsimp only
  repeat' first
    | with_reducible assumption
    | with_reducible apply State.at_kept
    | with_reducible apply State.breakAt_kept
    | with_reducible apply State.locatePing_kept
    | with_reducible apply KeptO.of_next
    | with_reducible apply KeptO.ite
    | with_reducible apply Kept.ite
    | split

theorem execNodeStaleTimeout_kept {P : Part → Prop} [May P .lost_] [May P .led_] [May P .lnk_] [May P .trip_] {s0 : State} {s : State} {p : Fin 18} {i : Fin 64} {t : Nat} (hk : Kept P s0 s) :
    KeptO P s0 (execNodeStaleTimeout s p i t) := by
  unfold execNodeStaleTimeout
  try dsimp only
  repeat' first
    | with_reducible assumption
    | with_reducible apply State.at_kept
    | with_reducible apply State.nodeSource_kept
    | with_reducible apply State.raise_kept
    | with_reducible apply State.updPos_kept
    | with_reducible apply KeptO.of_next
    | with_reducible apply KeptO.ite
    | with_reducible apply Kept.ite
    | split

theorem execTimeMarker_kept {P : Part → Prop} [May P .fab_] [May P .lnk_] {s0 : State} {s : State} {k : Fin 20} {t : Nat} (hk : Kept P s0 s) :
    KeptO P s0 (execTimeMarker s k t) := by
  unfold execTimeMarker
  try dsimp only
  repeat' first
    | with_reducible assumption
    | with_reducible apply State.at_kept
    | with_reducible apply State.engSend_kept
    | with_reducible apply State.updEng_kept
    | with_reducible apply KeptO.of_next
    | with_reducible apply KeptO.ite

theorem execRecalibration_kept {P : Part → Prop} [May P .fresh_] [May P .regs_] [May P .lost_] [May P .fab_] [May P .led_] [May P .lnk_] [May P .trip_] {s0 : State} {s : State} {k : Fin 20} {ring : Nat} {t : Nat} (hk : Kept P s0 s) :
    KeptO P s0 (execRecalibration s k ring t) := by
  unfold execRecalibration
  try dsimp only
  repeat' first
    | with_reducible assumption
    | with_reducible apply State.at_kept
    | with_reducible apply State.calStart_kept
    | with_reducible apply State.updEng_kept
    | with_reducible apply KeptO.of_next
    | with_reducible apply KeptO.ite
    | with_reducible apply Kept.ite

theorem execPortEnumeration_kept {P : Part → Prop} [May P .regs_] [May P .lost_] [May P .fab_] [May P .lnk_] {s0 : State} {s : State} {k : Fin 20} {first : Fin 65} {t : Nat} (hk : Kept P s0 s) :
    KeptO P s0 (execPortEnumeration s k first t) := by
  unfold execPortEnumeration
  try dsimp only
  repeat' first
    | with_reducible assumption
    | with_reducible apply State.at_kept
    | with_reducible apply State.enumBegin_kept
    | with_reducible apply KeptO.of_next
    | with_reducible apply KeptO.ite

theorem execEnumEackTimeout_kept {P : Part → Prop} [May P .fresh_] [May P .regs_] [May P .lost_] [May P .fab_] [May P .led_] [May P .lnk_] [May P .trip_] {s0 : State} {s : State} {k : Fin 20} {t : Nat} (hk : Kept P s0 s) :
    KeptO P s0 (execEnumEackTimeout s k t) := by
  unfold execEnumEackTimeout
  try dsimp only
  repeat' first
    | with_reducible assumption
    | with_reducible apply State.at_kept
    | with_reducible apply State.enumRetry_kept
    | with_reducible apply KeptO.of_next
    | with_reducible apply KeptO.ite
    | with_reducible apply Kept.ite
    | split

theorem execAuthPeriod_kept {P : Part → Prop} [May P .fresh_] [May P .lost_] [May P .fab_] [May P .led_] [May P .lnk_] {s0 : State} {s : State} {k : Fin 20} {gap : Bool} {t : Nat} (hk : Kept P s0 s) :
    KeptO P s0 (execAuthPeriod s k gap t) := by
  unfold execAuthPeriod
  try dsimp only
  repeat' first
    | with_reducible assumption
    | with_reducible apply State.at_kept
    | with_reducible apply State.raise_kept
    | with_reducible apply State.sendAuth_kept
    | with_reducible apply State.updEng_kept
    | with_reducible apply KeptO.of_next
    | with_reducible apply KeptO.ite

theorem execAuthCollect_kept {P : Part → Prop} [May P .fresh_] [May P .regs_] [May P .lost_] [May P .fab_] [May P .led_] [May P .lnk_] [May P .trip_] {s0 : State} {s : State} {k : Fin 20} {t : Nat} (hk : Kept P s0 s) :
    KeptO P s0 (execAuthCollect s k t) := by
  unfold execAuthCollect
  try dsimp only
  repeat' first
    | with_reducible assumption
    | with_reducible apply State.at_kept
    | with_reducible apply State.authFail_kept
    | with_reducible apply State.engSend_kept
    | with_reducible apply State.updPos_kept
    | with_reducible apply KeptO.of_next
    | with_reducible apply KeptO.ite
    | with_reducible apply Kept.ite
    | split

theorem State.endSeen_kept {P : Part → Prop} [May P .regs_] [May P .lost_] {s0 : State} {s : State} {p : Nat} {v : Bool} (hk : Kept P s0 s) :
    Kept P s0 (State.endSeen s p v) := by
  unfold State.endSeen
  try dsimp only
  repeat' first | with_reducible assumption | with_reducible apply State.wr_kept

theorem State.suspectBreak_kept {P : Part → Prop} [May P .regs_] [May P .lost_] [May P .fab_] [May P .lnk_] {s0 : State} {s : State} {p : Nat} (hk : Kept P s0 s) :
    Kept P s0 (State.suspectBreak s p) := by
  unfold State.suspectBreak
  try dsimp only
  repeat' first
    | with_reducible assumption
    | with_reducible apply State.endSeen_kept
    | with_reducible apply State.engSend_kept
    | with_reducible apply State.updEng_kept
    | with_reducible apply Kept.foldl
    | with_reducible apply Kept.ite
    | split

theorem execRingEnd0FrameTimeout_kept {P : Part → Prop} [May P .regs_] [May P .lost_] [May P .fab_] [May P .lnk_] {s0 : State} {s : State} {ring : Fin 2} {t : Nat} (hk : Kept P s0 s) :
    KeptO P s0 (execRingEnd0FrameTimeout s ring t) := by
  unfold execRingEnd0FrameTimeout
  try dsimp only
  repeat' first
    | with_reducible assumption
    | with_reducible apply State.at_kept
    | with_reducible apply State.suspectBreak_kept
    | with_reducible apply KeptO.of_next
    | with_reducible apply KeptO.ite
    | with_reducible apply Kept.ite
    | split

theorem execRingEnd0FrameAtEnd1_kept {P : Part → Prop} [May P .fresh_] [May P .regs_] [May P .lost_] [May P .fab_] [May P .led_] [May P .lnk_] [May P .trip_] {s0 : State} {s : State} {ring : Fin 2} {body : List Nat} {crc : Bool} {t : Nat} (hk : Kept P s0 s) :
    KeptO P s0 (execRingEnd0FrameAtEnd1 s ring body crc t) := by
  unfold execRingEnd0FrameAtEnd1
  try dsimp only
  repeat' first
    | with_reducible assumption
    | with_reducible apply State.at_kept
    | with_reducible apply State.endSeen_kept
    | with_reducible apply State.engRx_kept
    | with_reducible apply State.enumStop_kept
    | with_reducible apply State.suspectBreak_kept
    | with_reducible apply State.updEng_kept
    | with_reducible apply KeptO.of_next
    | with_reducible apply KeptO.ite
    | with_reducible apply Kept.ite
    | split

end Sys2Proof.Machine
end

