-- ==== Sys2Proof/Laws/Kept/Sweep.lean ====
section
/-!
SUPPORT. What the operations of Machine/Sweep.lean keep.
-/

set_option Elab.async false
set_option linter.unusedTactic false
set_option linter.unreachableTactic false

namespace Sys2Proof.Machine

theorem State.winWrite_kept {P : Part → Prop} [May P .regs_] [May P .lost_] [May P .mem_] [May P .fab_] [May P .swp_] {s0 : State} {s : State} {d : SweepDesc} (hk : Kept P s0 s) :
    Kept P s0 (State.winWrite s d) := by
  unfold State.winWrite
  try dsimp only
  repeat' first
    | with_reducible assumption
    | with_reducible apply State.storeBytes_kept
    | with_reducible apply State.wr_kept
    | with_reducible apply Kept.ite
    | split
    | (with_reducible refine Kept.mk' rfl rfl rfl rfl rfl rfl ?_)

theorem State.sweepExtremes_kept {P : Part → Prop} [May P .led_] {s0 : State} {s : State} {d : SweepDesc} (hk : Kept P s0 s) :
    Kept P s0 (State.sweepExtremes s d) := by
  unfold State.sweepExtremes
  try dsimp only
  repeat' first
    | with_reducible assumption
    | with_reducible apply State.lifeVolt_kept
    | with_reducible apply Kept.foldl
    | with_reducible apply Kept.ite
    | (intro _; intros; try dsimp only)

theorem State.winFlush_kept {P : Part → Prop} [May P .regs_] [May P .lost_] [May P .mem_] [May P .fab_] [May P .led_] [May P .swp_] {s0 : State} {s : State} (hk : Kept P s0 s) :
    Kept P s0 (State.winFlush s) := by
  unfold State.winFlush
  try dsimp only
  repeat' first
    | with_reducible assumption
    | with_reducible apply State.sweepExtremes_kept
    | with_reducible apply State.winWrite_kept
    | with_reducible apply Kept.foldl
    | with_reducible apply Kept.ite
    | (intro _; intros; try dsimp only)
    | split
    | (with_reducible refine Kept.mk' rfl rfl rfl rfl rfl rfl ?_)

theorem State.postSweep_kept {P : Part → Prop} [May P .mem_] [May P .fab_] [May P .inbox_] [May P .lnk_] {s0 : State} {s : State} {k : Nat} {d : SweepDesc} (hk : Kept P s0 s) :
    Kept P s0 (State.postSweep s k d) := by
  unfold State.postSweep
  try dsimp only
  repeat' first
    | with_reducible assumption
    | with_reducible apply State.post_kept
    | with_reducible apply State.storeBytes_kept
    | with_reducible apply State.updEng_kept

theorem State.portOwtNext_kept {P : Part → Prop} [May P .lnk_] {s0 : State} {s : State} {p : Nat} (hk : Kept P s0 s) :
    Kept P s0 (State.portOwtNext s p) := by
  unfold State.portOwtNext
  try dsimp only
  repeat' first | with_reducible assumption | with_reducible apply State.updEng_kept | with_reducible apply Kept.ite

theorem State.ringRejoin_kept {P : Part → Prop} [May P .fresh_] [May P .regs_] [May P .lost_] [May P .fab_] [May P .led_] [May P .lnk_] [May P .trip_] {s0 : State} {s : State} {p : Nat} (hk : Kept P s0 s) :
    Kept P s0 (State.ringRejoin s p) := by
  unfold State.ringRejoin
  try dsimp only
  repeat' first
    | with_reducible assumption
    | with_reducible apply State.calStart_kept
    | with_reducible apply State.raise_kept
    | with_reducible apply State.updEng_kept
    | with_reducible apply State.wr_kept
    | with_reducible apply Kept.ite

theorem State.takeProfiles_kept {P : Part → Prop} [May P .swp_] {s0 : State} {s : State} (hk : Kept P s0 s) :
    Kept P s0 (State.takeProfiles s) := by
  unfold State.takeProfiles
  try dsimp only
  repeat' first | with_reducible assumption | (with_reducible refine Kept.mk' rfl rfl rfl rfl rfl rfl ?_)

theorem State.syncNote_kept {P : Part → Prop} [May P .regs_] [May P .lost_] [May P .led_] [May P .swp_] {s0 : State} {s : State} (hk : Kept P s0 s) :
    Kept P s0 (State.syncNote s) := by
  unfold State.syncNote
  try dsimp only
  repeat' first
    | with_reducible assumption
    | with_reducible apply State.hit_kept
    | with_reducible apply State.raise_kept
    | with_reducible apply State.wr_kept
    | with_reducible apply Kept.ite
    | split
    | (with_reducible refine Kept.mk' rfl rfl rfl rfl rfl rfl ?_)

theorem State.setPeriod_kept {P : Part → Prop} [May P .regs_] [May P .lost_] [May P .led_] [May P .swp_] {s0 : State} {s : State} {per : Nat} {pmode : Nat} (hk : Kept P s0 s) :
    Kept P s0 (State.setPeriod s per pmode) := by
  unfold State.setPeriod
  try dsimp only
  repeat' first
    | with_reducible assumption
    | with_reducible apply State.raise_kept
    | with_reducible apply State.wr_kept
    | with_reducible apply Kept.ite
    | split
    | (with_reducible refine Kept.mk' rfl rfl rfl rfl rfl rfl ?_)

theorem execSweepGridPoint_kept {P : Part → Prop} [May P .fresh_] [May P .regs_] [May P .lost_] [May P .mem_] [May P .fab_] [May P .inbox_] [May P .led_] [May P .lnk_] [May P .swp_] [May P .trip_] {s0 : State} {s : State} {t : Nat} (hk : Kept P s0 s) :
    KeptO P s0 (execSweepGridPoint s t) := by
  unfold execSweepGridPoint
  try dsimp only
  repeat' first
    | with_reducible assumption
    | with_reducible apply State.at_kept
    | with_reducible apply State.portOwtNext_kept
    | with_reducible apply State.postSweep_kept
    | with_reducible apply State.ringRejoin_kept
    | with_reducible apply State.setPeriod_kept
    | with_reducible apply State.syncNote_kept
    | with_reducible apply State.takeProfiles_kept
    | with_reducible apply State.winFlush_kept
    | with_reducible apply State.wr_kept
    | with_reducible apply KeptO.of_next
    | with_reducible apply Kept.foldl
    | with_reducible apply KeptO.ite
    | with_reducible apply Kept.ite
    | (intro _; intros; try dsimp only)
    | split
    | (with_reducible refine Kept.mk' rfl rfl rfl rfl rfl rfl ?_)

theorem execMeanWindowEnd_kept {P : Part → Prop} [May P .swp_] {s0 : State} {s : State} {t : Nat} (hk : Kept P s0 s) :
    KeptO P s0 (execMeanWindowEnd s t) := by
  unfold execMeanWindowEnd
  try dsimp only
  repeat' first
    | with_reducible assumption
    | with_reducible apply State.at_kept
    | with_reducible apply KeptO.of_next
    | with_reducible apply KeptO.ite
    | with_reducible apply Kept.ite
    | split
    | (with_reducible refine Kept.mk' rfl rfl rfl rfl rfl rfl ?_)

theorem execSweepDeadlineMiss_kept {P : Part → Prop} [May P .regs_] [May P .lost_] [May P .led_] [May P .lnk_] {s0 : State} {s : State} {k : Fin 20} {tag : Fin 65535} {t : Nat} (hk : Kept P s0 s) :
    KeptO P s0 (execSweepDeadlineMiss s k tag t) := by
  unfold execSweepDeadlineMiss
  try dsimp only
  repeat' first
    | with_reducible assumption
    | with_reducible apply State.at_kept
    | with_reducible apply State.hit_kept
    | with_reducible apply State.raise_kept
    | with_reducible apply State.staleFrom_kept
    | with_reducible apply KeptO.of_next
    | with_reducible apply KeptO.ite
    | with_reducible apply Kept.ite
    | split

theorem execStreamOnlyRead_kept {P : Part → Prop} [May P .fab_] [May P .lnk_] {s0 : State} {s : State} {k : Fin 20} {slot : Nat} {t : Nat} (hk : Kept P s0 s) :
    KeptO P s0 (execStreamOnlyRead s k slot t) := by
  unfold execStreamOnlyRead
  try dsimp only
  repeat' first
    | with_reducible assumption
    | with_reducible apply State.at_kept
    | with_reducible apply State.sendRead_kept
    | with_reducible apply KeptO.of_next
    | with_reducible apply KeptO.ite

theorem execOwtPeriodic_kept {P : Part → Prop} [May P .swp_] {s0 : State} {s : State} {t : Nat} (hk : Kept P s0 s) :
    KeptO P s0 (execOwtPeriodic s t) := by
  unfold execOwtPeriodic
  try dsimp only
  repeat' first
    | with_reducible assumption
    | with_reducible apply State.at_kept
    | with_reducible apply State.owtStart_kept
    | with_reducible apply KeptO.of_next
    | with_reducible apply KeptO.ite

end Sys2Proof.Machine
end

