-- ==== Sys2Proof/Laws/Kept/Ledger.lean ====
section
/-!
SUPPORT. What the operations of Machine/Ledger.lean keep.
-/

set_option Elab.async false
set_option linter.unusedTactic false
set_option linter.unreachableTactic false

namespace Sys2Proof.Machine

theorem execEventRaise_kept {P : Part → Prop} [May P .lost_] [May P .led_] {s0 : State} {s : State} {src : Nat} {code : Nat} {words : List Nat} {t : Nat} (hk : Kept P s0 s) :
    KeptO P s0 (execEventRaise s src code words t) := by
  unfold execEventRaise
  try dsimp only
  repeat' first
    | with_reducible assumption
    | with_reducible apply State.at_kept
    | with_reducible apply State.raise_kept
    | with_reducible apply KeptO.of_next

theorem execBlockEventCollect_kept {P : Part → Prop} [May P .regs_] [May P .lost_] [May P .led_] {s0 : State} {s : State} {blk : Nat} {t : Nat} (hk : Kept P s0 s) :
    KeptO P s0 (execBlockEventCollect s blk t) := by
  unfold execBlockEventCollect
  try dsimp only
  repeat' first
    | with_reducible assumption
    | with_reducible apply State.at_kept
    | with_reducible apply State.collect_kept
    | with_reducible apply KeptO.of_next

theorem execLedgerEventReceive_kept {P : Part → Prop} [May P .regs_] [May P .lost_] [May P .fab_] [May P .led_] {s0 : State} {s : State} {blk : Nat} {t : Nat} (hk : Kept P s0 s) :
    KeptO P s0 (execLedgerEventReceive s blk t) := by
  unfold execLedgerEventReceive
  try dsimp only
  repeat' first
    | with_reducible assumption
    | with_reducible apply State.at_kept
    | with_reducible apply State.receive_kept
    | with_reducible apply KeptO.of_next

theorem execLedgerPersist_kept {P : Part → Prop} [May P .fresh_] [May P .regs_] [May P .lost_] [May P .mem_] [May P .fab_] [May P .led_] [May P .boot_] {s0 : State} {s : State} {verified : Bool} {t : Nat} (hk : Kept P s0 s) :
    KeptO P s0 (execLedgerPersist s verified t) := by
  unfold execLedgerPersist
  try dsimp only
  repeat' first
    | with_reducible assumption
    | with_reducible apply State.at_kept
    | with_reducible apply State.persistNext_kept
    | with_reducible apply State.remapRow_kept
    | with_reducible apply KeptO.of_next
    | with_reducible apply KeptO.ite
    | with_reducible apply Kept.ite

theorem execLedgerWearCheck_kept {P : Part → Prop} [May P .regs_] [May P .lost_] [May P .led_] {s0 : State} {s : State} {t : Nat} (hk : Kept P s0 s) :
    KeptO P s0 (execLedgerWearCheck s t) := by
  unfold execLedgerWearCheck
  try dsimp only
  repeat' first
    | with_reducible assumption
    | with_reducible apply State.at_kept
    | with_reducible apply State.hit_kept
    | with_reducible apply State.raise_kept
    | with_reducible apply KeptO.of_next
    | with_reducible apply KeptO.ite
    | with_reducible apply Kept.ite
    | split
    | (with_reducible refine Kept.mk' rfl rfl rfl rfl rfl rfl ?_)

theorem State.commission_kept {P : Part → Prop} [May P .fresh_] [May P .regs_] [May P .lost_] [May P .mem_] [May P .fab_] [May P .led_] [May P .boot_] {s0 : State} {s : State} (hk : Kept P s0 s) :
    Kept P s0 (State.commission s) := by
  unfold State.commission
  try dsimp only
  repeat' first
    | with_reducible assumption
    | with_reducible apply State.burnBit_kept
    | with_reducible apply State.mramWrite_kept
    | with_reducible apply State.persistOwn_kept
    | with_reducible apply State.sectionWrite_kept
    | with_reducible apply Kept.ite

theorem State.sedClear_kept {P : Part → Prop} [May P .fresh_] [May P .regs_] [May P .lost_] [May P .mem_] [May P .fab_] [May P .led_] [May P .boot_] {s0 : State} {s : State} (hk : Kept P s0 s) :
    Kept P s0 (State.sedClear s) := by
  unfold State.sedClear
  try dsimp only
  repeat' first
    | with_reducible assumption
    | with_reducible apply State.persistOwn_kept
    | (with_reducible refine Kept.mk' rfl rfl rfl rfl rfl rfl ?_)

theorem State.blockClear_kept {P : Part → Prop} [May P .led_] {s0 : State} {s : State} {src : Nat} (hk : Kept P s0 s) :
    Kept P s0 (State.blockClear s src) := by
  unfold State.blockClear
  try dsimp only
  repeat' first | with_reducible assumption | (with_reducible refine Kept.mk' rfl rfl rfl rfl rfl rfl ?_)

theorem State.extRead_kept {P : Part → Prop} [May P .fresh_] [May P .regs_] [May P .lost_] [May P .fab_] [May P .led_] [May P .boot_] {s0 : State} {s : State} {a : Nat} (hk : Kept P s0 s) :
    Kept P s0 (State.extRead s a) := by
  unfold State.extRead
  try dsimp only
  repeat' first
    | with_reducible assumption
    | with_reducible apply State.busRead_kept
    | (with_reducible refine Kept.of_snd ‹_› ?_)
    | (with_reducible refine Kept.mk' rfl rfl rfl rfl rfl rfl ?_)

theorem execRcRead_kept {P : Part → Prop} [May P .fresh_] [May P .regs_] [May P .lost_] [May P .fab_] [May P .led_] [May P .boot_] {s0 : State} {s : State} {a : Nat} {t : Nat} (hk : Kept P s0 s) :
    KeptO P s0 (execRcRead s a t) := by
  unfold execRcRead
  try dsimp only
  repeat' first
    | with_reducible assumption
    | with_reducible apply State.at_kept
    | with_reducible apply State.extRead_kept
    | with_reducible apply KeptO.of_next

theorem execLedgerWin0Read_kept {P : Part → Prop} [May P .fresh_] [May P .regs_] [May P .lost_] [May P .fab_] [May P .led_] [May P .boot_] {s0 : State} {s : State} {t : Nat} (hk : Kept P s0 s) :
    KeptO P s0 (execLedgerWin0Read s t) := by
  unfold execLedgerWin0Read
  try dsimp only
  repeat' first
    | with_reducible assumption
    | with_reducible apply State.at_kept
    | with_reducible apply State.extRead_kept
    | with_reducible apply KeptO.of_next

theorem execLedgerWin15Read_kept {P : Part → Prop} [May P .fresh_] [May P .regs_] [May P .lost_] [May P .fab_] [May P .led_] [May P .boot_] {s0 : State} {s : State} {t : Nat} (hk : Kept P s0 s) :
    KeptO P s0 (execLedgerWin15Read s t) := by
  unfold execLedgerWin15Read
  try dsimp only
  repeat' first
    | with_reducible assumption
    | with_reducible apply State.at_kept
    | with_reducible apply State.extRead_kept
    | with_reducible apply KeptO.of_next

theorem execWindowFreeze_kept {P : Part → Prop} [May P .regs_] [May P .lost_] [May P .mem_] [May P .fab_] [May P .led_] [May P .swp_] {s0 : State} {s : State} {t : Nat} (hk : Kept P s0 s) :
    KeptO P s0 (execWindowFreeze s t) := by
  unfold execWindowFreeze
  try dsimp only
  repeat' first
    | with_reducible assumption
    | with_reducible apply State.at_kept
    | with_reducible apply State.mramWrite_kept
    | with_reducible apply State.raise_kept
    | with_reducible apply State.wr_kept
    | with_reducible apply KeptO.of_next
    | with_reducible apply KeptO.ite
    | with_reducible apply Kept.ite
    | split
    | (with_reducible refine Kept.mk' rfl rfl rfl rfl rfl rfl ?_)

theorem execArchiveCopyDone_kept {P : Part → Prop} [May P .regs_] [May P .lost_] [May P .mem_] [May P .fab_] [May P .led_] [May P .swp_] {s0 : State} {s : State} {t : Nat} (hk : Kept P s0 s) :
    KeptO P s0 (execArchiveCopyDone s t) := by
  unfold execArchiveCopyDone
  try dsimp only
  repeat' first
    | with_reducible assumption
    | with_reducible apply State.at_kept
    | with_reducible apply State.mramWrite_kept
    | with_reducible apply State.raise_kept
    | with_reducible apply State.winRearm_kept
    | with_reducible apply State.wr_kept
    | with_reducible apply KeptO.of_next
    | with_reducible apply KeptO.ite
    | with_reducible apply Kept.ite
    | split
    | (with_reducible refine Kept.mk' rfl rfl rfl rfl rfl rfl ?_)

theorem execLifetimeBlockInput_kept {P : Part → Prop} [May P .regs_] [May P .lost_] [May P .fab_] [May P .inbox_] [May P .led_] {s0 : State} {s : State} {t : Nat} (hk : Kept P s0 s) :
    KeptO P s0 (execLifetimeBlockInput s t) := by
  unfold execLifetimeBlockInput
  try dsimp only
  repeat' first
    | with_reducible assumption
    | with_reducible apply State.at_kept
    | with_reducible apply State.lifeInput_kept
    | with_reducible apply KeptO.of_next
    | with_reducible apply KeptO.ite

theorem execLifetimeRoll_kept {P : Part → Prop} [May P .led_] {s0 : State} {s : State} {t : Nat} (hk : Kept P s0 s) :
    KeptO P s0 (execLifetimeRoll s t) := by
  unfold execLifetimeRoll
  try dsimp only
  repeat' first
    | with_reducible assumption
    | with_reducible apply State.at_kept
    | with_reducible apply State.rollStart_kept
    | with_reducible apply KeptO.of_next
    | with_reducible apply KeptO.ite

theorem execLifetimeBatchDone_kept {P : Part → Prop} [May P .regs_] [May P .lost_] [May P .mem_] [May P .fab_] [May P .led_] {s0 : State} {s : State} {t : Nat} (hk : Kept P s0 s) :
    KeptO P s0 (execLifetimeBatchDone s t) := by
  unfold execLifetimeBatchDone
  try dsimp only
  repeat' first
    | with_reducible assumption
    | with_reducible apply State.at_kept
    | with_reducible apply State.batchDone_kept
    | with_reducible apply KeptO.of_next
    | with_reducible apply KeptO.ite

theorem execPowerFailCommitDone_kept {P : Part → Prop} [May P .fresh_] [May P .regs_] [May P .lost_] [May P .mem_] [May P .fab_] [May P .grains_] [May P .inbox_] [May P .led_] [May P .lnk_] [May P .swp_] [May P .trip_] [May P .boot_] [May P .gate_] [May P .regu_] [May P .out_] [May P .cur_] [May P .sf_] [May P .can_] [May P .eth_] [May P .sv_] [May P .corr_] [May P .est_] {s0 : State} {s : State} {t : Nat} (hk : Kept P s0 s) :
    KeptO P s0 (execPowerFailCommitDone s t) := by
  unfold execPowerFailCommitDone
  try dsimp only
  repeat' first
    | with_reducible assumption
    | with_reducible apply State.at_kept
    | with_reducible apply State.commitFinish_kept
    | with_reducible apply State.runDeferred_kept
    | with_reducible apply KeptO.of_next
    | with_reducible apply KeptO.ite

theorem State.mramUncorr_kept {P : Part → Prop} [May P .regs_] [May P .lost_] [May P .mem_] [May P .fab_] [May P .led_] {s0 : State} {s : State} {a : Nat} (hk : Kept P s0 s) :
    Kept P s0 (State.mramUncorr s a) := by
  unfold State.mramUncorr
  try dsimp only
  repeat' first
    | with_reducible assumption
    | with_reducible apply State.cellLost_kept
    | with_reducible apply State.hit_kept
    | with_reducible apply State.raise_kept
    | with_reducible apply State.setPoison_kept
    | with_reducible apply Kept.ite

theorem execMramScrubPass_kept {P : Part → Prop} [May P .regs_] [May P .lost_] [May P .mem_] [May P .fab_] [May P .led_] {s0 : State} {s : State} {rows : List (Fin 16384)} {n : Nat} {bad : List Nat} {t : Nat}
    (hk : Kept P s0 s) : KeptO P s0 (execMramScrubPass s rows n bad t) := by
  have done : ∀ {s : State} {rs : List Nat} {at_ band : Nat}, Kept P s0 s →
      Kept P s0 { s with led := { s.led with rowsCorr := rs, scrubAt := at_, scrubBand := band } } :=
    fun k => Kept.mk' rfl rfl rfl rfl rfl rfl k
  unfold execMramScrubPass
  refine KeptO.ite (KeptO.of_next (State.at_kept hk)) (KeptO.of_next (done (Kept.ite (State.raise_kept (State.hit_kept ?_)) ?_)))
  all_goals
    refine State.raise_kept (State.count_kept (State.wr_kept (Kept.foldl (fun s a k => ?_) (Kept.foldl (fun s r k => ?_)
      (State.at_kept hk)))))
    · exact Kept.ite (State.mramUncorr_kept k) k
    · exact State.remapRow_kept k

end Sys2Proof.Machine
end

