-- ==== Sys2Proof/Laws/Kept/LoadSwitch.lean ====
section
/-!
SUPPORT. What the operations of Machine/LoadSwitch.lean keep.
-/

set_option Elab.async false
set_option linter.unusedTactic false
set_option linter.unreachableTactic false

namespace Sys2Proof.Machine

theorem execChannelInputChange_kept {P : Part → Prop} [May P .regs_] [May P .lost_] [May P .led_] [May P .trip_] [May P .out_] {s0 : State} {s : State} {c : Fin 24} {io : Nat} {sense : Nat} {vclamp : Nat} {dur : Nat} {t : Nat} (hk : Kept P s0 s) :
    KeptO P s0 (execChannelInputChange s c io sense vclamp dur t) := by
  unfold execChannelInputChange
  try dsimp only
  repeat' first
    | with_reducible assumption
    | with_reducible apply State.at_kept
    | with_reducible apply State.lsClamp_kept
    | with_reducible apply State.lsSync_kept
    | with_reducible apply State.wr_kept
    | with_reducible apply KeptO.of_next
    | with_reducible apply KeptO.ite
    | with_reducible apply Kept.ite
    | split
    | (with_reducible refine Kept.mk' rfl rfl rfl rfl rfl rfl ?_)

theorem execLoadTimerEdge_kept {P : Part → Prop} [May P .regs_] [May P .lost_] [May P .out_] {s0 : State} {s : State} {n : Fin 12} {t : Nat} (hk : Kept P s0 s) :
    KeptO P s0 (execLoadTimerEdge s n t) := by
  unfold execLoadTimerEdge
  try dsimp only
  repeat' first
    | with_reducible assumption
    | with_reducible apply State.at_kept
    | with_reducible apply State.ltLoad_kept
    | with_reducible apply State.ltSync_kept
    | with_reducible apply State.updLt_kept
    | with_reducible apply KeptO.of_next
    | with_reducible apply KeptO.ite

theorem execInrushWindowEnd_kept {P : Part → Prop} [May P .out_] {s0 : State} {s : State} {c : Fin 24} {t : Nat} (hk : Kept P s0 s) :
    KeptO P s0 (execInrushWindowEnd s c t) := by
  unfold execInrushWindowEnd
  try dsimp only
  repeat' first
    | with_reducible assumption
    | with_reducible apply State.at_kept
    | with_reducible apply State.updLs_kept
    | with_reducible apply KeptO.of_next
    | with_reducible apply KeptO.ite
    | with_reducible apply Kept.ite
    | split

theorem execChannelCurrentLimit_kept {P : Part → Prop} [May P .regs_] [May P .lost_] [May P .out_] {s0 : State} {s : State} {c : Fin 24} {active : Bool} {t : Nat} (hk : Kept P s0 s) :
    KeptO P s0 (execChannelCurrentLimit s c active t) := by
  unfold execChannelCurrentLimit
  try dsimp only
  repeat' first
    | with_reducible assumption
    | with_reducible apply State.at_kept
    | with_reducible apply State.updLs_kept
    | with_reducible apply State.wr_kept
    | with_reducible apply KeptO.of_next
    | with_reducible apply KeptO.ite

theorem State.lsTj_kept {P : Part → Prop} [May P .regs_] [May P .lost_] [May P .out_] {s0 : State} {s : State} {c : Nat} {tj : Int} (hk : Kept P s0 s) :
    Kept P s0 (State.lsTj s c tj) := by
  unfold State.lsTj
  try dsimp only
  repeat' first
    | with_reducible assumption
    | with_reducible apply State.updLs_kept
    | with_reducible apply State.wr_kept

theorem State.lsWarm_kept {P : Part → Prop} [May P .regs_] [May P .lost_] [May P .led_] [May P .trip_] [May P .out_] {s0 : State} {s : State} {c : Nat} {tj : Int} (hk : Kept P s0 s) :
    Kept P s0 (State.lsWarm s c tj) := by
  unfold State.lsWarm
  try dsimp only
  repeat' first
    | with_reducible assumption
    | with_reducible apply State.lsTj_kept
    | with_reducible apply State.lsTrip_kept
    | with_reducible apply State.raise_kept
    | with_reducible apply Kept.ite

theorem execChannelThermalTrip_kept {P : Part → Prop} [May P .regs_] [May P .lost_] [May P .led_] [May P .trip_] [May P .out_] {s0 : State} {s : State} {c : Fin 24} {tj : Int} {vclamp : Nat} {dur : Nat} {t : Nat} (hk : Kept P s0 s) :
    KeptO P s0 (execChannelThermalTrip s c tj vclamp dur t) := by
  unfold execChannelThermalTrip
  try dsimp only
  repeat' first
    | with_reducible assumption
    | with_reducible apply State.at_kept
    | with_reducible apply State.hit_kept
    | with_reducible apply State.lsClamp_kept
    | with_reducible apply State.lsLatch_kept
    | with_reducible apply State.lsSync_kept
    | with_reducible apply State.lsWarm_kept
    | with_reducible apply State.raise_kept
    | with_reducible apply State.updLs_kept
    | with_reducible apply State.wr_kept
    | with_reducible apply KeptO.of_next
    | with_reducible apply KeptO.ite
    | with_reducible apply Kept.ite

theorem execChannelThermalRestart_kept {P : Part → Prop} [May P .regs_] [May P .lost_] [May P .out_] {s0 : State} {s : State} {c : Fin 24} {tj : Int} {t : Nat} (hk : Kept P s0 s) :
    KeptO P s0 (execChannelThermalRestart s c tj t) := by
  unfold execChannelThermalRestart
  try dsimp only
  repeat' first
    | with_reducible assumption
    | with_reducible apply State.at_kept
    | with_reducible apply State.lsSync_kept
    | with_reducible apply State.lsTj_kept
    | with_reducible apply State.updLs_kept
    | with_reducible apply KeptO.of_next
    | with_reducible apply KeptO.ite
    | with_reducible apply Kept.ite

theorem execChannelPrewarn_kept {P : Part → Prop} [May P .regs_] [May P .lost_] [May P .led_] [May P .trip_] [May P .out_] {s0 : State} {s : State} {c : Fin 24} {tj : Int} {t : Nat} (hk : Kept P s0 s) :
    KeptO P s0 (execChannelPrewarn s c tj t) := by
  unfold execChannelPrewarn
  exact KeptO.of_next (State.lsWarm_kept (State.at_kept hk))

theorem execChannelPrewarnEnd_kept {P : Part → Prop} [May P .regs_] [May P .lost_] [May P .trip_] [May P .out_] {s0 : State} {s : State} {c : Fin 24} {tj : Int} {t : Nat} (hk : Kept P s0 s) :
    KeptO P s0 (execChannelPrewarnEnd s c tj t) := by
  unfold execChannelPrewarnEnd
  try dsimp only
  repeat' first
    | with_reducible assumption
    | with_reducible apply State.at_kept
    | with_reducible apply State.lsTj_kept
    | with_reducible apply State.lsTrip_kept
    | with_reducible apply KeptO.of_next
    | with_reducible apply KeptO.ite
    | with_reducible apply Kept.ite

theorem execChannelSensorBroken_kept {P : Part → Prop} [May P .regs_] [May P .lost_] [May P .led_] [May P .trip_] [May P .out_] {s0 : State} {s : State} {c : Fin 24} {t : Nat} (hk : Kept P s0 s) :
    KeptO P s0 (execChannelSensorBroken s c t) := by
  unfold execChannelSensorBroken
  try dsimp only
  repeat' first
    | with_reducible assumption
    | with_reducible apply State.at_kept
    | with_reducible apply State.lsLatch_kept
    | with_reducible apply State.lsTrip_kept
    | with_reducible apply State.raise_kept
    | with_reducible apply State.updLs_kept
    | with_reducible apply State.wr_kept
    | with_reducible apply KeptO.of_next
    | with_reducible apply KeptO.ite
    | with_reducible apply Kept.ite

theorem execChannelSenseFault_kept {P : Part → Prop} [May P .regs_] [May P .lost_] [May P .led_] {s0 : State} {s : State} {c : Fin 24} {t : Nat} (hk : Kept P s0 s) :
    KeptO P s0 (execChannelSenseFault s c t) := by
  unfold execChannelSenseFault
  try dsimp only
  repeat' first
    | with_reducible assumption
    | with_reducible apply State.at_kept
    | with_reducible apply State.hit_kept
    | with_reducible apply State.raise_kept
    | with_reducible apply State.wr_kept
    | with_reducible apply KeptO.of_next
    | with_reducible apply KeptO.ite

theorem execChannelOpenLoad_kept {P : Part → Prop} [May P .regs_] [May P .lost_] [May P .led_] {s0 : State} {s : State} {c : Fin 24} {t : Nat} (hk : Kept P s0 s) :
    KeptO P s0 (execChannelOpenLoad s c t) := by
  unfold execChannelOpenLoad
  try dsimp only
  repeat' first
    | with_reducible assumption
    | with_reducible apply State.at_kept
    | with_reducible apply State.hit_kept
    | with_reducible apply State.raise_kept
    | with_reducible apply State.wr_kept
    | with_reducible apply KeptO.of_next
    | with_reducible apply KeptO.ite

theorem execVswLow_kept {P : Part → Prop} [May P .regs_] [May P .lost_] [May P .led_] [May P .trip_] [May P .out_] {s0 : State} {s : State} {clamps : List (Nat × Nat × Nat)} {t : Nat} (hk : Kept P s0 s) :
    KeptO P s0 (execVswLow s clamps t) := by
  unfold execVswLow
  try dsimp only
  repeat' first
    | with_reducible assumption
    | with_reducible apply State.at_kept
    | with_reducible apply State.hit_kept
    | with_reducible apply State.lsClamp_kept
    | with_reducible apply State.lsSet_kept
    | with_reducible apply State.raise_kept
    | with_reducible apply State.stringSource_kept
    | with_reducible apply State.updLs_kept
    | with_reducible apply State.wr_kept
    | with_reducible apply KeptO.of_next
    | with_reducible apply Kept.foldl
    | with_reducible apply KeptO.ite
    | with_reducible apply Kept.ite
    | (intro _; intros; try dsimp only)

theorem execVswRecover_kept {P : Part → Prop} [May P .regs_] [May P .lost_] [May P .trip_] [May P .out_] {s0 : State} {s : State} {t : Nat} (hk : Kept P s0 s) :
    KeptO P s0 (execVswRecover s t) := by
  unfold execVswRecover
  try dsimp only
  repeat' first
    | with_reducible assumption
    | with_reducible apply State.at_kept
    | with_reducible apply State.lsSyncAll_kept
    | with_reducible apply State.stringSource_kept
    | with_reducible apply State.wr_kept
    | with_reducible apply KeptO.of_next
    | with_reducible apply KeptO.ite

theorem State.lsClear_kept {P : Part → Prop} [May P .regs_] [May P .lost_] [May P .led_] [May P .trip_] [May P .out_] {s0 : State} {s : State} {v : Nat} (hk : Kept P s0 s) :
    Kept P s0 (State.lsClear s v) := by
  unfold State.lsClear
  try dsimp only
  repeat' first
    | with_reducible assumption
    | with_reducible apply State.lsAccount_kept
    | with_reducible apply State.lsSync_kept
    | with_reducible apply State.lsTrip_kept
    | with_reducible apply State.raise_kept
    | with_reducible apply State.updLs_kept
    | with_reducible apply State.wr_kept
    | with_reducible apply Kept.foldl
    | (intro _; intros; try dsimp only)

theorem State.ltWritten_kept {P : Part → Prop} [May P .regs_] [May P .lost_] [May P .out_] {s0 : State} {s : State} {n : Nat} {wasEn : Bool} (hk : Kept P s0 s) :
    Kept P s0 (State.ltWritten s n wasEn) := by
  unfold State.ltWritten
  try dsimp only
  repeat' first
    | with_reducible assumption
    | with_reducible apply State.ltLoad_kept
    | with_reducible apply State.ltSync_kept
    | with_reducible apply State.updLt_kept
    | with_reducible apply Kept.ite

end Sys2Proof.Machine
end

