-- ==== Sys2Proof/Laws/Kept/SafetyOps.lean ====
section
/-!
SUPPORT. What the operations of Machine/SafetyOps.lean keep.
-/

set_option Elab.async false
set_option linter.unusedTactic false
set_option linter.unreachableTactic false

namespace Sys2Proof.Machine

theorem State.updConn_kept {P : Part → Prop} [May P .sf_] {s0 : State} {s : State} {n : Nat} {f : SfConn → SfConn} (hk : Kept P s0 s) :
    Kept P s0 (State.updConn s n f) := by
  unfold State.updConn
  try dsimp only
  repeat' first | with_reducible assumption | (with_reducible refine Kept.mk' rfl rfl rfl rfl rfl rfl ?_)

theorem State.connsStart_kept {P : Part → Prop} [May P .regs_] [May P .lost_] [May P .sf_] {s0 : State} {s : State} (hk : Kept P s0 s) :
    Kept P s0 (State.connsStart s) := by
  unfold State.connsStart
  try dsimp only
  repeat' first
    | with_reducible assumption
    | with_reducible apply State.setReg_kept
    | with_reducible apply State.updConn_kept
    | with_reducible apply State.wr_kept
    | with_reducible apply Kept.foldl
    | with_reducible apply Kept.ite
    | (intro _; intros; try dsimp only)

theorem State.loadSet_kept {P : Part → Prop} [May P .regs_] [May P .lost_] [May P .led_] [May P .sf_] {s0 : State} {s : State} (hk : Kept P s0 s) :
    Kept P s0 (State.loadSet s) := by
  unfold State.loadSet
  try dsimp only
  repeat' first
    | with_reducible assumption
    | with_reducible apply State.connsStart_kept
    | with_reducible apply State.raise_kept
    | with_reducible apply State.setReg_kept
    | with_reducible apply State.wr_kept
    | with_reducible apply Kept.ite
    | split
    | (with_reducible refine Kept.mk' rfl rfl rfl rfl rfl rfl ?_)

theorem State.sfFault_kept {P : Part → Prop} [May P .regs_] [May P .lost_] {s0 : State} {s : State} (hk : Kept P s0 s) :
    Kept P s0 (State.sfFault s) := by
  unfold State.sfFault
  try dsimp only
  repeat' first | with_reducible assumption | with_reducible apply State.wr_kept

theorem State.sfCause_kept {P : Part → Prop} [May P .regs_] [May P .lost_] [May P .sf_] {s0 : State} {s : State} {code : Nat} {sdc : Bool} (hk : Kept P s0 s) :
    Kept P s0 (State.sfCause s code sdc) := by
  unfold State.sfCause
  try dsimp only
  repeat' first
    | with_reducible assumption
    | with_reducible apply State.wr_kept
    | with_reducible apply Kept.ite
    | split
    | (with_reducible refine Kept.mk' rfl rfl rfl rfl rfl rfl ?_)

theorem State.sfOutputsOff_kept {P : Part → Prop} [May P .regs_] [May P .lost_] [May P .out_] {s0 : State} {s : State} (hk : Kept P s0 s) :
    Kept P s0 (State.sfOutputsOff s) := by
  unfold State.sfOutputsOff
  try dsimp only
  repeat' first
    | with_reducible assumption
    | with_reducible apply State.lsSyncAll_kept
    | with_reducible apply State.wr_kept
    | (with_reducible refine Kept.mk' rfl rfl rfl rfl rfl rfl ?_)

theorem State.sfOutputsOn_kept {P : Part → Prop} [May P .regs_] [May P .lost_] [May P .out_] {s0 : State} {s : State} {sok : Bool} (hk : Kept P s0 s) :
    Kept P s0 (State.sfOutputsOn s sok) := by
  unfold State.sfOutputsOn
  try dsimp only
  repeat' first
    | with_reducible assumption
    | with_reducible apply State.lsSyncAll_kept
    | with_reducible apply State.wr_kept
    | (with_reducible refine Kept.mk' rfl rfl rfl rfl rfl rfl ?_)

theorem State.sdc_kept {P : Part → Prop} [May P .regs_] [May P .lost_] [May P .led_] [May P .trip_] [May P .out_] {s0 : State} {s : State} {cause : Nat} (hk : Kept P s0 s) :
    Kept P s0 (State.sdc s cause) := by
  unfold State.sdc
  try dsimp only
  repeat' first
    | with_reducible assumption
    | with_reducible apply State.bump_kept
    | with_reducible apply State.raise_kept
    | with_reducible apply State.sfOutputsOff_kept
    | with_reducible apply State.stringSource_kept
    | with_reducible apply State.wr_kept

theorem State.updSfStr_kept {P : Part → Prop} [May P .sf_] {s0 : State} {s : State} {r : Nat} {f : SfStr → SfStr} (hk : Kept P s0 s) :
    Kept P s0 (State.updSfStr s r f) := by
  unfold State.updSfStr
  try dsimp only
  repeat' first | with_reducible assumption | (with_reducible refine Kept.mk' rfl rfl rfl rfl rfl rfl ?_)

theorem State.srsStart_kept {P : Part → Prop} [May P .regs_] [May P .lost_] [May P .led_] [May P .trip_] [May P .sf_] {s0 : State} {s : State} {cause : Nat} (hk : Kept P s0 s) :
    Kept P s0 (State.srsStart s cause) := by
  unfold State.srsStart
  try dsimp only
  repeat' first
    | with_reducible assumption
    | with_reducible apply State.bump_kept
    | with_reducible apply State.raise_kept
    | with_reducible apply State.stringSource_kept
    | with_reducible apply State.updSfStr_kept
    | with_reducible apply State.wr_kept
    | with_reducible apply Kept.foldl
    | (intro _; intros; try dsimp only)
    | (with_reducible refine Kept.mk' rfl rfl rfl rfl rfl rfl ?_)

theorem State.updPair_kept {P : Part → Prop} [May P .sf_] {s0 : State} {s : State} {n : Nat} {f : SfPair → SfPair} (hk : Kept P s0 s) :
    Kept P s0 (State.updPair s n f) := by
  unfold State.updPair
  try dsimp only
  repeat' first | with_reducible assumption | (with_reducible refine Kept.mk' rfl rfl rfl rfl rfl rfl ?_)

theorem State.pairRaise_kept {P : Part → Prop} [May P .regs_] [May P .lost_] [May P .sf_] {s0 : State} {s : State} {n : Nat} {code : Nat} (hk : Kept P s0 s) :
    Kept P s0 (State.pairRaise s n code) := by
  unfold State.pairRaise
  try dsimp only
  repeat' first | with_reducible assumption | with_reducible apply State.sfCause_kept

theorem State.pairFault_kept {P : Part → Prop} [May P .regs_] [May P .lost_] [May P .sf_] {s0 : State} {s : State} {n : Nat} {code : Nat} (hk : Kept P s0 s) :
    Kept P s0 (State.pairFault s n code) := by
  unfold State.pairFault
  try dsimp only
  repeat' first
    | with_reducible assumption
    | with_reducible apply State.pairRaise_kept
    | with_reducible apply State.sfFault_kept
    | with_reducible apply State.updPair_kept
    | with_reducible apply State.wrBit_kept

theorem State.pairClear_kept {P : Part → Prop} [May P .regs_] [May P .lost_] [May P .sf_] {s0 : State} {s : State} {n : Nat} (hk : Kept P s0 s) :
    Kept P s0 (State.pairClear s n) := by
  unfold State.pairClear
  try dsimp only
  repeat' first
    | with_reducible assumption
    | with_reducible apply State.sfFault_kept
    | with_reducible apply State.updPair_kept
    | with_reducible apply State.wrBit_kept
    | with_reducible apply Kept.ite

theorem State.pairEval_kept {P : Part → Prop} [May P .regs_] [May P .lost_] [May P .sf_] {s0 : State} {s : State} {n : Nat} (hk : Kept P s0 s) :
    Kept P s0 (State.pairEval s n) := by
  unfold State.pairEval
  try dsimp only
  repeat' first
    | with_reducible assumption
    | with_reducible apply State.pairClear_kept
    | with_reducible apply State.pairRaise_kept
    | with_reducible apply State.updPair_kept
    | with_reducible apply State.wrBit_kept
    | with_reducible apply Kept.ite

theorem State.updSce_kept {P : Part → Prop} [May P .sf_] {s0 : State} {s : State} {k : Nat} {f : SceNode → SceNode} (hk : Kept P s0 s) :
    Kept P s0 (State.updSce s k f) := by
  unfold State.updSce
  try dsimp only
  repeat' first | with_reducible assumption | (with_reducible refine Kept.mk' rfl rfl rfl rfl rfl rfl ?_)

theorem State.sceRaise_kept {P : Part → Prop} [May P .regs_] [May P .lost_] [May P .led_] [May P .sf_] {s0 : State} {s : State} {n : Nat} {code : Nat} {idx : Nat} {v : Nat} {sdc : Bool} (hk : Kept P s0 s) :
    Kept P s0 (State.sceRaise s n code idx v sdc) := by
  unfold State.sceRaise
  try dsimp only
  repeat' first
    | with_reducible assumption
    | with_reducible apply State.raise_kept
    | with_reducible apply State.sfCause_kept
    | with_reducible apply Kept.ite

theorem State.sceCopy_kept {P : Part → Prop} [May P .regs_] [May P .lost_] [May P .led_] [May P .sf_] {s0 : State} {s : State} {p : Nat} {q : Nat} {body : List Nat} (hk : Kept P s0 s) :
    Kept P s0 (State.sceCopy s p q body) := by
  unfold State.sceCopy
  try dsimp only
  repeat' first
    | with_reducible assumption
    | with_reducible apply State.sceRaise_kept
    | with_reducible apply State.updSce_kept
    | with_reducible apply Kept.ite

theorem State.streamCopy_kept {P : Part → Prop} [May P .regs_] [May P .lost_] [May P .led_] [May P .trip_] [May P .out_] [May P .sf_] {s0 : State} {s : State} {r : Nat} {body : List Nat} (hk : Kept P s0 s) :
    Kept P s0 (State.streamCopy s r body) := by
  unfold State.streamCopy
  try dsimp only
  repeat' first
    | with_reducible assumption
    | with_reducible apply State.sdc_kept
    | with_reducible apply State.sfCause_kept
    | with_reducible apply State.updSfStr_kept
    | with_reducible apply Kept.ite

theorem State.sfResetRefused_kept {P : Part → Prop} [May P .regs_] [May P .lost_] [May P .led_] {s0 : State} {s : State} {cause : Nat} (hk : Kept P s0 s) :
    Kept P s0 (State.sfResetRefused s cause) := by
  unfold State.sfResetRefused
  try dsimp only
  repeat' first
    | with_reducible assumption
    | with_reducible apply State.bump_kept
    | with_reducible apply State.raise_kept

theorem State.sfResetAccept_kept {P : Part → Prop} [May P .regs_] [May P .lost_] [May P .led_] [May P .trip_] [May P .out_] [May P .sf_] {s0 : State} {s : State} (hk : Kept P s0 s) :
    Kept P s0 (State.sfResetAccept s) := by
  unfold State.sfResetAccept
  try dsimp only
  repeat' first
    | with_reducible assumption
    | with_reducible apply State.loadSet_kept
    | with_reducible apply State.raise_kept
    | with_reducible apply State.sfFault_kept
    | with_reducible apply State.sfOutputsOn_kept
    | with_reducible apply State.stringSource_kept
    | with_reducible apply State.wr_kept
    | with_reducible apply Kept.ite
    | split
    | (with_reducible refine Kept.mk' rfl rfl rfl rfl rfl rfl ?_)

theorem State.sfResetEval_kept {P : Part → Prop} [May P .regs_] [May P .lost_] [May P .led_] [May P .trip_] [May P .out_] [May P .sf_] {s0 : State} {s : State} {was : Nat} (hk : Kept P s0 s) :
    Kept P s0 (State.sfResetEval s was) := by
  unfold State.sfResetEval
  try dsimp only
  repeat' first
    | with_reducible assumption
    | with_reducible apply State.loadSet_kept
    | with_reducible apply State.sfFault_kept
    | with_reducible apply State.sfResetAccept_kept
    | with_reducible apply State.sfResetRefused_kept
    | with_reducible apply Kept.ite

theorem State.updReports_kept {P : Part → Prop} [May P .sv_] {s0 : State} {s : State} {l : List Nat} (hk : Kept P s0 s) :
    Kept P s0 (State.updReports s l) := by
  unfold State.updReports
  try dsimp only
  repeat' first | with_reducible assumption | (with_reducible refine Kept.mk' rfl rfl rfl rfl rfl rfl ?_)

theorem State.sfInternal_kept {P : Part → Prop} [May P .fresh_] [May P .regs_] [May P .lost_] [May P .mem_] [May P .fab_] [May P .grains_] [May P .inbox_] [May P .led_] [May P .lnk_] [May P .swp_] [May P .trip_] [May P .boot_] [May P .gate_] [May P .regu_] [May P .out_] [May P .cur_] [May P .sf_] [May P .can_] [May P .eth_] [May P .sv_] [May P .corr_] [May P .est_] {s0 : State} {s : State} (hk : Kept P s0 s) :
    Kept P s0 (State.sfInternal s) := by
  unfold State.sfInternal
  try dsimp only
  repeat' first
    | with_reducible assumption
    | with_reducible apply State.chipFatal_kept
    | with_reducible apply State.fltNote_kept
    | with_reducible apply State.raise_kept
    | with_reducible apply State.sdc_kept
    | with_reducible apply State.sfCause_kept
    | with_reducible apply State.sfFault_kept
    | with_reducible apply State.updReports_kept
    | with_reducible apply Kept.ite
    | split
    | (with_reducible refine Kept.mk' rfl rfl rfl rfl rfl rfl ?_)

end Sys2Proof.Machine
end

