-- ==== Sys2Proof/Laws/Kept/SafetyLayer.lean ====
section
/-!
SUPPORT. What the operations of Machine/SafetyLayer.lean keep.
-/

set_option Elab.async false
set_option linter.unusedTactic false
set_option linter.unreachableTactic false

namespace Sys2Proof.Machine

theorem execSfInit_kept {P : Part → Prop} [May P .regs_] [May P .lost_] [May P .led_] [May P .out_] [May P .sf_] {s0 : State} {s : State} {rom : Bool} {self : Bool} {seal_ : Fin 256} {sealn : Fin 256} {t : Nat} (hk : Kept P s0 s) :
    KeptO P s0 (execSfInit s rom self seal_ sealn t) := by
  unfold execSfInit
  try dsimp only
  repeat' first
    | with_reducible assumption
    | with_reducible apply State.at_kept
    | with_reducible apply State.fltNote_kept
    | with_reducible apply State.loadSet_kept
    | with_reducible apply State.pairEval_kept
    | with_reducible apply State.raise_kept
    | with_reducible apply State.sfCause_kept
    | with_reducible apply State.sfFault_kept
    | with_reducible apply State.sfOutputsOff_kept
    | with_reducible apply State.sfOutputsOn_kept
    | with_reducible apply State.wr_kept
    | with_reducible apply KeptO.of_next
    | with_reducible apply Kept.foldl
    | with_reducible apply KeptO.ite
    | with_reducible apply Kept.ite
    | split
    | (with_reducible refine Kept.mk' rfl rfl rfl rfl rfl rfl ?_)

theorem State.sealCycle_kept {P : Part → Prop} [May P .regs_] [May P .lost_] [May P .led_] [May P .sf_] {s0 : State} {s : State} (hk : Kept P s0 s) :
    Kept P s0 (State.sealCycle s) := by
  unfold State.sealCycle
  try dsimp only
  repeat' first
    | with_reducible assumption
    | with_reducible apply State.raise_kept
    | with_reducible apply State.sfCause_kept
    | with_reducible apply Kept.ite
    | split
    | (with_reducible refine Kept.mk' rfl rfl rfl rfl rfl rfl ?_)

theorem State.readback_kept {P : Part → Prop} [May P .regs_] [May P .lost_] [May P .led_] [May P .sf_] {s0 : State} {s : State} {hc : Nat} {lc : Nat} (hk : Kept P s0 s) :
    Kept P s0 (State.readback s hc lc) := by
  unfold State.readback
  try dsimp only
  repeat' first
    | with_reducible assumption
    | with_reducible apply State.raise_kept
    | with_reducible apply State.sfCause_kept
    | with_reducible apply State.wr_kept
    | with_reducible apply Kept.foldl
    | with_reducible apply Kept.ite
    | (intro _; intros; try dsimp only)
    | split
    | (with_reducible refine Kept.mk' rfl rfl rfl rfl rfl rfl ?_)

theorem State.proofCycle_kept {P : Part → Prop} [May P .regs_] [May P .lost_] [May P .sf_] {s0 : State} {s : State} {hc : Nat} {lc : Nat} (hk : Kept P s0 s) :
    Kept P s0 (State.proofCycle s hc lc) := by
  unfold State.proofCycle
  try dsimp only
  repeat' first
    | with_reducible assumption
    | with_reducible apply State.wr_kept
    | with_reducible apply Kept.foldl
    | with_reducible apply Kept.ite
    | (intro _; intros; try dsimp only)
    | split
    | (with_reducible refine Kept.mk' rfl rfl rfl rfl rfl rfl ?_)

theorem State.sfTransit_kept {P : Part → Prop} [May P .regs_] [May P .lost_] [May P .led_] [May P .trip_] [May P .out_] [May P .sf_] {s0 : State} {s : State} (hk : Kept P s0 s) :
    Kept P s0 (State.sfTransit s) := by
  unfold State.sfTransit
  try dsimp only
  repeat' first
    | with_reducible assumption
    | with_reducible apply State.sdc_kept
    | with_reducible apply State.sfCause_kept
    | with_reducible apply State.sfOutputsOn_kept
    | with_reducible apply State.srsStart_kept
    | with_reducible apply Kept.ite
    | split

theorem execSafetyCycle_kept {P : Part → Prop} [May P .regs_] [May P .lost_] [May P .led_] [May P .trip_] [May P .out_] [May P .sf_] {s0 : State} {s : State} {hc : Fin 4096} {lc : Fin 64} {t : Nat} (hk : Kept P s0 s) :
    KeptO P s0 (execSafetyCycle s hc lc t) := by
  unfold execSafetyCycle
  try dsimp only
  repeat' first
    | with_reducible assumption
    | with_reducible apply State.at_kept
    | with_reducible apply State.proofCycle_kept
    | with_reducible apply State.readback_kept
    | with_reducible apply State.sealCycle_kept
    | with_reducible apply State.sfFault_kept
    | with_reducible apply State.sfResetEval_kept
    | with_reducible apply State.sfTransit_kept
    | with_reducible apply State.updSfStr_kept
    | with_reducible apply KeptO.of_next
    | with_reducible apply Kept.foldl
    | with_reducible apply KeptO.ite
    | with_reducible apply Kept.ite
    | (intro _; intros; try dsimp only)
    | split
    | (with_reducible refine Kept.mk' rfl rfl rfl rfl rfl rfl ?_)

theorem execSfInternalFault_kept {P : Part → Prop} [May P .fresh_] [May P .regs_] [May P .lost_] [May P .mem_] [May P .fab_] [May P .grains_] [May P .inbox_] [May P .led_] [May P .lnk_] [May P .swp_] [May P .trip_] [May P .boot_] [May P .gate_] [May P .regu_] [May P .out_] [May P .cur_] [May P .sf_] [May P .can_] [May P .eth_] [May P .sv_] [May P .corr_] [May P .est_] {s0 : State} {s : State} {t : Nat} (hk : Kept P s0 s) :
    KeptO P s0 (execSfInternalFault s t) := by
  unfold execSfInternalFault
  try dsimp only
  repeat' first
    | with_reducible assumption
    | with_reducible apply State.at_kept
    | with_reducible apply State.sfInternal_kept
    | with_reducible apply KeptO.of_next

theorem execSfAliveTimeout_kept {P : Part → Prop} [May P .regs_] [May P .lost_] [May P .out_] {s0 : State} {s : State} {t : Nat} (hk : Kept P s0 s) :
    KeptO P s0 (execSfAliveTimeout s t) := by
  unfold execSfAliveTimeout
  try dsimp only
  repeat' first
    | with_reducible assumption
    | with_reducible apply State.at_kept
    | with_reducible apply State.lsSyncAll_kept
    | with_reducible apply State.wr_kept
    | with_reducible apply KeptO.of_next
    | (with_reducible refine Kept.mk' rfl rfl rfl rfl rfl rfl ?_)

theorem execRomCheck_kept {P : Part → Prop} [May P .fresh_] [May P .regs_] [May P .lost_] [May P .mem_] [May P .fab_] [May P .grains_] [May P .inbox_] [May P .led_] [May P .lnk_] [May P .swp_] [May P .trip_] [May P .boot_] [May P .gate_] [May P .regu_] [May P .out_] [May P .cur_] [May P .sf_] [May P .can_] [May P .eth_] [May P .sv_] [May P .corr_] [May P .est_] {s0 : State} {s : State} {ok : Bool} {t : Nat} (hk : Kept P s0 s) :
    KeptO P s0 (execRomCheck s ok t) := by
  unfold execRomCheck
  try dsimp only
  repeat' first
    | with_reducible assumption
    | with_reducible apply State.at_kept
    | with_reducible apply State.sfInternal_kept
    | with_reducible apply KeptO.of_next
    | with_reducible apply KeptO.ite
    | with_reducible apply Kept.ite

theorem execProofDue_kept {P : Part → Prop} [May P .regs_] [May P .lost_] [May P .led_] [May P .sf_] {s0 : State} {s : State} {t : Nat} (hk : Kept P s0 s) :
    KeptO P s0 (execProofDue s t) := by
  unfold execProofDue
  try dsimp only
  repeat' first
    | with_reducible assumption
    | with_reducible apply State.at_kept
    | with_reducible apply State.raise_kept
    | with_reducible apply State.wr_kept
    | with_reducible apply KeptO.of_next
    | with_reducible apply KeptO.ite
    | with_reducible apply Kept.ite
    | split
    | (with_reducible refine Kept.mk' rfl rfl rfl rfl rfl rfl ?_)

theorem execPairInputChange_kept {P : Part → Prop} [May P .regs_] [May P .lost_] [May P .sf_] {s0 : State} {s : State} {n : Fin 8} {b : Bool} {level : Bool} {t : Nat} (hk : Kept P s0 s) :
    KeptO P s0 (execPairInputChange s n b level t) := by
  unfold execPairInputChange
  try dsimp only
  repeat' first
    | with_reducible assumption
    | with_reducible apply State.at_kept
    | with_reducible apply State.pairEval_kept
    | with_reducible apply State.wrBit_kept
    | with_reducible apply KeptO.of_next

theorem execPairDiscrepancy_kept {P : Part → Prop} [May P .regs_] [May P .lost_] [May P .led_] [May P .sf_] {s0 : State} {s : State} {n : Fin 8} {t : Nat} (hk : Kept P s0 s) :
    KeptO P s0 (execPairDiscrepancy s n t) := by
  unfold execPairDiscrepancy
  try dsimp only
  repeat' first
    | with_reducible assumption
    | with_reducible apply State.at_kept
    | with_reducible apply State.pairFault_kept
    | with_reducible apply State.raise_kept
    | with_reducible apply KeptO.of_next
    | with_reducible apply KeptO.ite
    | with_reducible apply Kept.ite
    | split

theorem State.pulseChannel_kept {P : Part → Prop} [May P .regs_] [May P .lost_] [May P .led_] [May P .sf_] {s0 : State} {s : State} {n : Nat} {b : Bool} {ok : Bool} (hk : Kept P s0 s) :
    Kept P s0 (State.pulseChannel s n b ok) := by
  unfold State.pulseChannel
  try dsimp only
  repeat' first
    | with_reducible assumption
    | with_reducible apply State.pairClear_kept
    | with_reducible apply State.pairFault_kept
    | with_reducible apply State.raise_kept
    | with_reducible apply State.updPair_kept
    | with_reducible apply Kept.ite

theorem execTestPulse_kept {P : Part → Prop} [May P .regs_] [May P .lost_] [May P .led_] [May P .sf_] {s0 : State} {s : State} {k : Fin 4} {ok : Fin 65536} {t : Nat} (hk : Kept P s0 s) :
    KeptO P s0 (execTestPulse s k ok t) := by
  unfold execTestPulse
  try dsimp only
  repeat' first
    | with_reducible assumption
    | with_reducible apply State.at_kept
    | with_reducible apply State.pulseChannel_kept
    | with_reducible apply KeptO.of_next
    | with_reducible apply Kept.foldl
    | with_reducible apply KeptO.ite
    | with_reducible apply Kept.ite
    | (intro _; intros; try dsimp only)

theorem execSrsTimeout_kept {P : Part → Prop} [May P .regs_] [May P .lost_] [May P .led_] [May P .trip_] [May P .out_] [May P .sf_] {s0 : State} {s : State} {t : Nat} (hk : Kept P s0 s) :
    KeptO P s0 (execSrsTimeout s t) := by
  unfold execSrsTimeout
  try dsimp only
  repeat' first
    | with_reducible assumption
    | with_reducible apply State.at_kept
    | with_reducible apply State.sdc_kept
    | with_reducible apply State.sfCause_kept
    | with_reducible apply KeptO.of_next
    | with_reducible apply KeptO.ite

theorem execSrsCurrentLost_kept {P : Part → Prop} [May P .regs_] [May P .lost_] [May P .led_] [May P .trip_] [May P .out_] [May P .sf_] {s0 : State} {s : State} {t : Nat} (hk : Kept P s0 s) :
    KeptO P s0 (execSrsCurrentLost s t) := by
  unfold execSrsCurrentLost
  try dsimp only
  repeat' first
    | with_reducible assumption
    | with_reducible apply State.at_kept
    | with_reducible apply State.sdc_kept
    | with_reducible apply State.sfCause_kept
    | with_reducible apply KeptO.of_next
    | with_reducible apply KeptO.ite

theorem execSfRecordCopy_kept {P : Part → Prop} [May P .regs_] [May P .lost_] [May P .led_] [May P .lnk_] [May P .trip_] [May P .out_] [May P .sf_] {s0 : State} {s : State} {ok : Bool} {t : Nat} (hk : Kept P s0 s) :
    KeptO P s0 (execSfRecordCopy s ok t) := by
  unfold execSfRecordCopy
  try dsimp only
  repeat' first
    | with_reducible assumption
    | with_reducible apply State.at_kept
    | with_reducible apply State.sceCopy_kept
    | with_reducible apply State.streamCopy_kept
    | with_reducible apply KeptO.of_next
    | with_reducible apply KeptO.ite
    | with_reducible apply Kept.ite
    | split
    | (with_reducible refine Kept.mk' rfl rfl rfl rfl rfl rfl ?_)

theorem execSceStale_kept {P : Part → Prop} [May P .regs_] [May P .lost_] [May P .led_] [May P .sf_] {s0 : State} {s : State} {p : Fin 18} {i : Fin 64} {t : Nat} (hk : Kept P s0 s) :
    KeptO P s0 (execSceStale s p i t) := by
  unfold execSceStale
  try dsimp only
  repeat' first
    | with_reducible assumption
    | with_reducible apply State.at_kept
    | with_reducible apply State.raise_kept
    | with_reducible apply State.sfCause_kept
    | with_reducible apply State.updSce_kept
    | with_reducible apply KeptO.of_next
    | with_reducible apply KeptO.ite

theorem execSfVerdictCopy_kept {P : Part → Prop} [May P .trip_] [May P .sf_] {s0 : State} {s : State} {t : Nat} (hk : Kept P s0 s) :
    KeptO P s0 (execSfVerdictCopy s t) := by
  unfold execSfVerdictCopy
  try dsimp only
  repeat' first
    | with_reducible assumption
    | with_reducible apply State.at_kept
    | with_reducible apply KeptO.of_next
    | with_reducible apply KeptO.ite
    | with_reducible apply Kept.ite
    | split
    | (with_reducible refine Kept.mk' rfl rfl rfl rfl rfl rfl ?_)

theorem execExecCheckTimeout_kept {P : Part → Prop} [May P .regs_] [May P .lost_] [May P .sf_] {s0 : State} {s : State} {t : Nat} (hk : Kept P s0 s) :
    KeptO P s0 (execExecCheckTimeout s t) := by
  unfold execExecCheckTimeout
  try dsimp only
  repeat' first
    | with_reducible assumption
    | with_reducible apply State.at_kept
    | with_reducible apply State.sfCause_kept
    | with_reducible apply KeptO.of_next
    | with_reducible apply KeptO.ite
    | with_reducible apply Kept.ite
    | split
    | (with_reducible refine Kept.mk' rfl rfl rfl rfl rfl rfl ?_)

theorem execResetPress_kept {P : Part → Prop} [May P .regs_] [May P .lost_] [May P .led_] [May P .sf_] {s0 : State} {s : State} {a : Option (Nat × Nat)} {b : Option (Nat × Nat)} {t : Nat} (hk : Kept P s0 s) :
    KeptO P s0 (execResetPress s a b t) := by
  unfold execResetPress
  try dsimp only
  repeat' first
    | with_reducible assumption
    | with_reducible apply State.at_kept
    | with_reducible apply State.sfResetRefused_kept
    | with_reducible apply State.wr_kept
    | with_reducible apply KeptO.of_next
    | with_reducible apply KeptO.ite
    | with_reducible apply Kept.ite
    | split
    | (with_reducible refine Kept.mk' rfl rfl rfl rfl rfl rfl ?_)

theorem State.resetStuck_kept {P : Part → Prop} [May P .regs_] [May P .lost_] [May P .led_] {s0 : State} {s : State} (hk : Kept P s0 s) :
    Kept P s0 (State.resetStuck s) := by
  unfold State.resetStuck
  try dsimp only
  repeat' first
    | with_reducible assumption
    | with_reducible apply State.raise_kept
    | with_reducible apply State.sfFault_kept
    | with_reducible apply State.wr_kept
    | with_reducible apply Kept.ite

theorem execResetStuck_kept {P : Part → Prop} [May P .regs_] [May P .lost_] [May P .led_] {s0 : State} {s : State} {active : Fin 4} {t : Nat} (hk : Kept P s0 s) :
    KeptO P s0 (execResetStuck s active t) := by
  unfold execResetStuck
  try dsimp only
  repeat' first
    | with_reducible assumption
    | with_reducible apply State.at_kept
    | with_reducible apply State.resetStuck_kept
    | with_reducible apply State.wr_kept
    | with_reducible apply KeptO.of_next

theorem execResetStuckClear_kept {P : Part → Prop} [May P .regs_] [May P .lost_] {s0 : State} {s : State} {t : Nat} (hk : Kept P s0 s) :
    KeptO P s0 (execResetStuckClear s t) := by
  unfold execResetStuckClear
  try dsimp only
  repeat' first
    | with_reducible assumption
    | with_reducible apply State.at_kept
    | with_reducible apply State.sfFault_kept
    | with_reducible apply State.wr_kept
    | with_reducible apply KeptO.of_next

theorem execSealChange_kept {P : Part → Prop} [May P .regs_] [May P .lost_] [May P .led_] [May P .sf_] {s0 : State} {s : State} {seal_ : Fin 256} {sealn : Fin 256} {t : Nat} (hk : Kept P s0 s) :
    KeptO P s0 (execSealChange s seal_ sealn t) := by
  unfold execSealChange
  try dsimp only
  repeat' first
    | with_reducible assumption
    | with_reducible apply State.at_kept
    | with_reducible apply State.raise_kept
    | with_reducible apply State.sfCause_kept
    | with_reducible apply State.wr_kept
    | with_reducible apply KeptO.of_next
    | with_reducible apply KeptO.ite
    | with_reducible apply Kept.ite
    | split
    | (with_reducible refine Kept.mk' rfl rfl rfl rfl rfl rfl ?_)

theorem State.connFault_kept {P : Part → Prop} [May P .regs_] [May P .lost_] [May P .led_] [May P .sf_] {s0 : State} {s : State} {n : Nat} {code : Nat} (hk : Kept P s0 s) :
    Kept P s0 (State.connFault s n code) := by
  unfold State.connFault
  try dsimp only
  repeat' first
    | with_reducible assumption
    | with_reducible apply State.raise_kept
    | with_reducible apply State.sfCause_kept
    | with_reducible apply State.sfFault_kept
    | with_reducible apply State.updConn_kept
    | with_reducible apply State.wr_kept

theorem State.remoteReset_kept {P : Part → Prop} [May P .regs_] [May P .lost_] [May P .led_] [May P .sf_] {s0 : State} {s : State} {n : Nat} {on : Bool} (hk : Kept P s0 s) :
    Kept P s0 (State.remoteReset s n on) := by
  unfold State.remoteReset
  try dsimp only
  repeat' first
    | with_reducible assumption
    | with_reducible apply State.resetStuck_kept
    | with_reducible apply State.updConn_kept
    | with_reducible apply Kept.ite
    | split
    | (with_reducible refine Kept.mk' rfl rfl rfl rfl rfl rfl ?_)

theorem State.connPayload_kept {P : Part → Prop} [May P .regs_] [May P .lost_] [May P .led_] [May P .sf_] {s0 : State} {s : State} {n : Nat} {b : Nat} (hk : Kept P s0 s) :
    Kept P s0 (State.connPayload s n b) := by
  unfold State.connPayload
  try dsimp only
  repeat' first
    | with_reducible assumption
    | with_reducible apply State.remoteReset_kept
    | with_reducible apply State.sfCause_kept
    | with_reducible apply State.sfFault_kept
    | with_reducible apply State.updConn_kept
    | with_reducible apply Kept.ite

theorem State.connAccept_kept {P : Part → Prop} [May P .regs_] [May P .lost_] [May P .led_] [May P .sf_] {s0 : State} {s : State} {n : Nat} {seq : Nat} {stamp : Nat} {offset : Int} {b : Nat} (hk : Kept P s0 s) :
    Kept P s0 (State.connAccept s n seq stamp offset b) := by
  unfold State.connAccept
  try dsimp only
  repeat' first
    | with_reducible assumption
    | with_reducible apply State.connPayload_kept
    | with_reducible apply State.updConn_kept
    | with_reducible apply State.wr_kept

theorem State.connRunning_kept {P : Part → Prop} [May P .regs_] [May P .lost_] [May P .led_] [May P .sf_] {s0 : State} {s : State} {n : Nat} {seq : Nat} {stamp : Nat} {b : Nat} (hk : Kept P s0 s) :
    Kept P s0 (State.connRunning s n seq stamp b) := by
  unfold State.connRunning
  try dsimp only
  repeat' first
    | with_reducible assumption
    | with_reducible apply State.connAccept_kept
    | with_reducible apply State.connFault_kept
    | with_reducible apply State.updConn_kept
    | with_reducible apply State.wr_kept
    | with_reducible apply Kept.ite

theorem State.zenmomor_kept {P : Part → Prop} [May P .regs_] [May P .lost_] [May P .led_] [May P .sf_] {s0 : State} {s : State} {f : List Nat} (hk : Kept P s0 s) :
    Kept P s0 (State.zenmomor s f) := by
  unfold State.zenmomor
  try dsimp only
  repeat' first
    | with_reducible assumption
    | with_reducible apply State.connAccept_kept
    | with_reducible apply State.connFault_kept
    | with_reducible apply State.connRunning_kept
    | with_reducible apply Kept.ite
    | split
    | (with_reducible refine Kept.mk' rfl rfl rfl rfl rfl rfl ?_)

theorem State.mbxGo_kept {P : Part → Prop} [May P .regs_] [May P .lost_] [May P .led_] [May P .sf_] {s0 : State} {s : State} {len : Nat} (hk : Kept P s0 s) :
    Kept P s0 (State.mbxGo s len) := by
  unfold State.mbxGo
  try dsimp only
  repeat' first | with_reducible assumption | with_reducible apply State.zenmomor_kept

theorem execConnWatchdog_kept {P : Part → Prop} [May P .regs_] [May P .lost_] [May P .led_] [May P .sf_] {s0 : State} {s : State} {n : Fin 32} {t : Nat} (hk : Kept P s0 s) :
    KeptO P s0 (execConnWatchdog s n t) := by
  unfold execConnWatchdog
  try dsimp only
  repeat' first
    | with_reducible assumption
    | with_reducible apply State.at_kept
    | with_reducible apply State.connFault_kept
    | with_reducible apply KeptO.of_next
    | with_reducible apply KeptO.ite

theorem State.mbxPresent_kept {P : Part → Prop} [May P .regs_] [May P .lost_] [May P .sf_] {s0 : State} {s : State} (hk : Kept P s0 s) :
    Kept P s0 (State.mbxPresent s) := by
  unfold State.mbxPresent
  try dsimp only
  repeat' first
    | with_reducible assumption
    | with_reducible apply State.setReg_kept
    | with_reducible apply State.wr_kept
    | with_reducible apply Kept.foldl
    | with_reducible apply Kept.ite
    | (intro _; intros; try dsimp only)
    | split
    | (with_reducible refine Kept.mk' rfl rfl rfl rfl rfl rfl ?_)

theorem execProducerFrame_kept {P : Part → Prop} [May P .regs_] [May P .lost_] [May P .sf_] {s0 : State} {s : State} {n : Fin 32} {t : Nat} (hk : Kept P s0 s) :
    KeptO P s0 (execProducerFrame s n t) := by
  unfold execProducerFrame
  try dsimp only
  repeat' first
    | with_reducible assumption
    | with_reducible apply State.at_kept
    | with_reducible apply State.mbxPresent_kept
    | with_reducible apply State.updConn_kept
    | with_reducible apply KeptO.of_next
    | with_reducible apply KeptO.ite
    | with_reducible apply Kept.ite
    | split
    | (with_reducible refine Kept.mk' rfl rfl rfl rfl rfl rfl ?_)

theorem State.mbxAck_kept {P : Part → Prop} [May P .regs_] [May P .lost_] [May P .sf_] {s0 : State} {s : State} (hk : Kept P s0 s) :
    Kept P s0 (State.mbxAck s) := by
  unfold State.mbxAck
  try dsimp only
  repeat' first
    | with_reducible assumption
    | with_reducible apply State.mbxPresent_kept
    | with_reducible apply State.wr_kept

theorem State.mbxReq_kept {P : Part → Prop} [May P .regs_] [May P .lost_] [May P .sf_] {s0 : State} {s : State} {req : Nat} (hk : Kept P s0 s) :
    Kept P s0 (State.mbxReq s req) := by
  unfold State.mbxReq
  try dsimp only
  repeat' first
    | with_reducible assumption
    | with_reducible apply State.sfCause_kept
    | (with_reducible refine Kept.mk' rfl rfl rfl rfl rfl rfl ?_)

end Sys2Proof.Machine
end

