-- ==== Sys2Proof/Laws/Kept/Supervisor.lean ====
section
/-!
SUPPORT. What the operations of Machine/Supervisor.lean keep.
-/

set_option Elab.async false
set_option linter.unusedTactic false
set_option linter.unreachableTactic false

namespace Sys2Proof.Machine

theorem State.railSet_kept {P : Part → Prop} [May P .regs_] [May P .lost_] [May P .sv_] {s0 : State} {s : State} {r : Rail} {ok : Bool} (hk : Kept P s0 s) :
    Kept P s0 (State.railSet s r ok) := by
  unfold State.railSet
  try dsimp only
  repeat' first
    | with_reducible assumption
    | with_reducible apply State.wrBit_kept
    | with_reducible apply Kept.ite
    | split
    | (with_reducible refine Kept.mk' rfl rfl rfl rfl rfl rfl ?_)

theorem State.supplyNote_kept {P : Part → Prop} [May P .lost_] [May P .led_] {s0 : State} {s : State} {r : Rail} (hk : Kept P s0 s) :
    Kept P s0 (State.supplyNote s r) := by
  unfold State.supplyNote
  try dsimp only
  repeat' first | with_reducible assumption | with_reducible apply State.raise_kept

theorem execSupplyFault_kept {P : Part → Prop} [May P .fresh_] [May P .regs_] [May P .lost_] [May P .mem_] [May P .fab_] [May P .grains_] [May P .inbox_] [May P .led_] [May P .lnk_] [May P .swp_] [May P .trip_] [May P .boot_] [May P .gate_] [May P .regu_] [May P .out_] [May P .cur_] [May P .sf_] [May P .can_] [May P .eth_] [May P .sv_] [May P .corr_] [May P .est_] {s0 : State} {s : State} {rail : Rail} {lev : Level} {t : Nat} (hk : Kept P s0 s) :
    KeptO P s0 (execSupplyFault s rail lev t) := by
  unfold execSupplyFault
  try dsimp only
  repeat' first
    | with_reducible assumption
    | with_reducible apply State.at_kept
    | with_reducible apply State.railSet_kept
    | with_reducible apply State.requestReset_kept
    | with_reducible apply State.supplyNote_kept
    | with_reducible apply KeptO.of_next
    | split

theorem execPowerOnRelease_kept {P : Part → Prop} [May P .regs_] [May P .lost_] [May P .sv_] {s0 : State} {s : State} {vbat : Bool} {x32 : Bool} {vsys : Fin 65536} {t : Nat} (hk : Kept P s0 s) :
    KeptO P s0 (execPowerOnRelease s vbat x32 vsys t) := by
  unfold execPowerOnRelease
  try dsimp only
  repeat' first
    | with_reducible assumption
    | with_reducible apply State.at_kept
    | with_reducible apply State.railSet_kept
    | with_reducible apply State.wr_kept
    | with_reducible apply KeptO.of_next
    | with_reducible apply Kept.foldl
    | with_reducible apply KeptO.ite
    | with_reducible apply Kept.ite
    | (intro _; intros; try dsimp only)
    | split
    | (with_reducible refine Kept.mk' rfl rfl rfl rfl rfl rfl ?_)

theorem execPowerFail_kept {P : Part → Prop} [May P .regs_] [May P .lost_] [May P .mem_] [May P .fab_] [May P .grains_] [May P .led_] [May P .trip_] [May P .gate_] [May P .regu_] [May P .sv_] {s0 : State} {s : State} {vsys : Fin 65536} {t : Nat} (hk : Kept P s0 s) :
    KeptO P s0 (execPowerFail s vsys t) := by
  unfold execPowerFail
  try dsimp only
  repeat' first
    | with_reducible assumption
    | with_reducible apply State.at_kept
    | with_reducible apply State.commitTrigger_kept
    | with_reducible apply State.hit_kept
    | with_reducible apply State.inhibitAct_kept
    | with_reducible apply State.raise_kept
    | with_reducible apply State.updGrain_kept
    | with_reducible apply State.wr_kept
    | with_reducible apply KeptO.of_next
    | with_reducible apply Kept.foldl
    | with_reducible apply KeptO.ite
    | with_reducible apply Kept.ite
    | (intro _; intros; try dsimp only)
    | split
    | (with_reducible refine Kept.mk' rfl rfl rfl rfl rfl rfl ?_)
    | rfl

theorem execPowerFailRecovery_kept {P : Part → Prop} [May P .fresh_] [May P .regs_] [May P .lost_] [May P .mem_] [May P .fab_] [May P .grains_] [May P .inbox_] [May P .led_] [May P .lnk_] [May P .swp_] [May P .trip_] [May P .boot_] [May P .gate_] [May P .regu_] [May P .out_] [May P .cur_] [May P .sf_] [May P .can_] [May P .eth_] [May P .sv_] [May P .corr_] [May P .est_] {s0 : State} {s : State} {vsys : Fin 65536} {since : Nat} {t : Nat} (hk : Kept P s0 s) :
    KeptO P s0 (execPowerFailRecovery s vsys since t) := by
  unfold execPowerFailRecovery
  try dsimp only
  repeat' first
    | with_reducible assumption
    | with_reducible apply State.at_kept
    | with_reducible apply State.requestReset_kept
    | with_reducible apply State.wr_kept
    | with_reducible apply KeptO.of_next
    | with_reducible apply KeptO.ite
    | with_reducible apply Kept.ite
    | split
    | (with_reducible refine Kept.mk' rfl rfl rfl rfl rfl rfl ?_)

theorem execHoldExpire_kept {P : Part → Prop} [May P .fresh_] [May P .regs_] [May P .lost_] [May P .led_] [May P .swp_] [May P .trip_] [May P .gate_] [May P .regu_] [May P .out_] [May P .sv_] {s0 : State} {s : State} {t : Nat} (hk : Kept P s0 s) :
    KeptO P s0 (execHoldExpire s t) := by
  unfold execHoldExpire
  try dsimp only
  repeat' first
    | with_reducible assumption
    | with_reducible apply State.at_kept
    | with_reducible apply State.stopTimers_kept
    | with_reducible apply State.stringSource_kept
    | with_reducible apply State.tripFlush_kept
    | with_reducible apply State.wr_kept
    | with_reducible apply KeptO.of_next
    | with_reducible apply KeptO.ite
    | with_reducible apply Kept.ite
    | split
    | (with_reducible refine Kept.mk' rfl rfl rfl rfl rfl rfl ?_)

theorem State.reclaim_kept {P : Part → Prop} [May P .regs_] [May P .lost_] [May P .led_] [May P .sv_] {s0 : State} {s : State} (hk : Kept P s0 s) :
    Kept P s0 (State.reclaim s) := by
  unfold State.reclaim
  try dsimp only
  repeat' first
    | with_reducible assumption
    | with_reducible apply State.raise_kept
    | with_reducible apply State.wr_kept
    | (with_reducible refine Kept.mk' rfl rfl rfl rfl rfl rfl ?_)

theorem execResetNLow_kept {P : Part → Prop} [May P .fresh_] [May P .regs_] [May P .lost_] [May P .mem_] [May P .fab_] [May P .grains_] [May P .inbox_] [May P .led_] [May P .lnk_] [May P .swp_] [May P .trip_] [May P .boot_] [May P .gate_] [May P .regu_] [May P .out_] [May P .cur_] [May P .sf_] [May P .can_] [May P .eth_] [May P .sv_] [May P .corr_] [May P .est_] {s0 : State} {s : State} {t : Nat} (hk : Kept P s0 s) :
    KeptO P s0 (execResetNLow s t) := by
  unfold execResetNLow
  try dsimp only
  repeat' first
    | with_reducible assumption
    | with_reducible apply State.at_kept
    | with_reducible apply State.requestReset_kept
    | with_reducible apply KeptO.of_next
    | with_reducible apply KeptO.ite
    | with_reducible apply Kept.ite
    | split
    | (with_reducible refine Kept.mk' rfl rfl rfl rfl rfl rfl ?_)

theorem execResetNHigh_kept {P : Part → Prop} [May P .regs_] [May P .lost_] [May P .sv_] {s0 : State} {s : State} {t : Nat} (hk : Kept P s0 s) :
    KeptO P s0 (execResetNHigh s t) := by
  unfold execResetNHigh
  try dsimp only
  repeat' first
    | with_reducible assumption
    | with_reducible apply State.at_kept
    | with_reducible apply State.setReg_kept
    | with_reducible apply KeptO.of_next
    | with_reducible apply KeptO.ite
    | with_reducible apply Kept.ite
    | split
    | (with_reducible refine Kept.mk' rfl rfl rfl rfl rfl rfl ?_)

theorem execResetNGlitch_kept {P : Part → Prop} [May P .regs_] [May P .lost_] {s0 : State} {s : State} {t : Nat} (hk : Kept P s0 s) :
    KeptO P s0 (execResetNGlitch s t) := by
  unfold execResetNGlitch
  try dsimp only
  repeat' first
    | with_reducible assumption
    | with_reducible apply State.at_kept
    | with_reducible apply State.bump_kept
    | with_reducible apply KeptO.of_next

theorem execTestNLow_kept {P : Part → Prop} [May P .fresh_] [May P .regs_] [May P .lost_] [May P .mem_] [May P .fab_] [May P .grains_] [May P .inbox_] [May P .led_] [May P .lnk_] [May P .swp_] [May P .trip_] [May P .boot_] [May P .gate_] [May P .regu_] [May P .out_] [May P .cur_] [May P .sf_] [May P .can_] [May P .eth_] [May P .sv_] [May P .corr_] [May P .est_] {s0 : State} {s : State} {t : Nat} (hk : Kept P s0 s) :
    KeptO P s0 (execTestNLow s t) := by
  unfold execTestNLow
  try dsimp only
  repeat' first
    | with_reducible assumption
    | with_reducible apply State.at_kept
    | with_reducible apply State.requestReset_kept
    | with_reducible apply KeptO.of_next
    | (with_reducible refine Kept.mk' rfl rfl rfl rfl rfl rfl ?_)

theorem execPreseqComplete_kept {P : Part → Prop} [May P .fresh_] [May P .regs_] [May P .lost_] [May P .mem_] [May P .fab_] [May P .grains_] [May P .inbox_] [May P .led_] [May P .lnk_] [May P .swp_] [May P .trip_] [May P .boot_] [May P .gate_] [May P .regu_] [May P .out_] [May P .cur_] [May P .sf_] [May P .can_] [May P .eth_] [May P .sv_] [May P .corr_] [May P .est_] {s0 : State} {s : State} {t : Nat} (hk : Kept P s0 s) :
    KeptO P s0 (execPreseqComplete s t) := by
  unfold execPreseqComplete
  try dsimp only
  repeat' first
    | with_reducible assumption
    | with_reducible apply State.at_kept
    | with_reducible apply State.preseqEnd_kept
    | with_reducible apply KeptO.of_next

theorem execPwResetHold_kept {P : Part → Prop} [May P .fresh_] [May P .regs_] [May P .lost_] [May P .mem_] [May P .fab_] [May P .grains_] [May P .inbox_] [May P .led_] [May P .lnk_] [May P .swp_] [May P .trip_] [May P .boot_] [May P .gate_] [May P .regu_] [May P .out_] [May P .cur_] [May P .sf_] [May P .can_] [May P .eth_] [May P .sv_] [May P .corr_] [May P .est_] {s0 : State} {s : State} {t : Nat} (hk : Kept P s0 s) :
    KeptO P s0 (execPwResetHold s t) := by
  unfold execPwResetHold
  try dsimp only
  repeat' first
    | with_reducible assumption
    | with_reducible apply State.at_kept
    | with_reducible apply State.chipReset_kept
    | with_reducible apply State.pwHold_kept
    | with_reducible apply KeptO.of_next
    | with_reducible apply KeptO.ite
    | with_reducible apply Kept.ite
    | split

theorem execPsResetComplete_kept {P : Part → Prop} [May P .mem_] [May P .fab_] [May P .grains_] [May P .inbox_] [May P .led_] {s0 : State} {s : State} {t : Nat} (hk : Kept P s0 s) :
    KeptO P s0 (execPsResetComplete s t) := by
  unfold execPsResetComplete
  try dsimp only
  repeat' first
    | with_reducible assumption
    | with_reducible apply State.at_kept
    | with_reducible apply State.regionUp_kept
    | with_reducible apply KeptO.of_next
    | with_reducible apply KeptO.ite
    | with_reducible apply Kept.ite

theorem State.restartTime_kept {P : Part → Prop} [May P .fab_] [May P .led_] [May P .trip_] [May P .boot_] [May P .sv_] {s0 : State} {s : State} {n : Nat} (hk : Kept P s0 s) :
    Kept P s0 (State.restartTime s n) := by
  unfold State.restartTime
  try dsimp only
  repeat' first | with_reducible assumption | (with_reducible refine Kept.mk' rfl rfl rfl rfl rfl rfl ?_)

theorem execChipResetRelease_kept {P : Part → Prop} [May P .regs_] [May P .lost_] [May P .fab_] [May P .led_] [May P .trip_] [May P .boot_] [May P .sv_] {s0 : State} {s : State} {t : Nat} (hk : Kept P s0 s) :
    KeptO P s0 (execChipResetRelease s t) := by
  unfold execChipResetRelease
  try dsimp only
  repeat' first
    | with_reducible assumption
    | with_reducible apply State.at_kept
    | with_reducible apply State.restartTime_kept
    | with_reducible apply State.wr_kept
    | with_reducible apply KeptO.of_next
    | with_reducible apply KeptO.ite
    | with_reducible apply Kept.ite
    | split
    | (with_reducible refine Kept.mk' rfl rfl rfl rfl rfl rfl ?_)

theorem execPsBootRecovery_kept {P : Part → Prop} [May P .fresh_] [May P .regs_] [May P .lost_] [May P .mem_] [May P .fab_] [May P .grains_] [May P .inbox_] [May P .led_] [May P .trip_] [May P .boot_] [May P .sv_] {s0 : State} {s : State} {t : Nat} (hk : Kept P s0 s) :
    KeptO P s0 (execPsBootRecovery s t) := by
  unfold execPsBootRecovery
  try dsimp only
  repeat' first
    | with_reducible assumption
    | with_reducible apply State.at_kept
    | with_reducible apply State.bootRecovery_kept
    | with_reducible apply State.grainInit_kept
    | with_reducible apply State.storeLE_kept
    | with_reducible apply KeptO.of_next
    | with_reducible apply KeptO.ite
    | with_reducible apply Kept.ite
    | split
    | (with_reducible refine Kept.mk' rfl rfl rfl rfl rfl rfl ?_)

theorem execVectorSelftestDone_kept {P : Part → Prop} [May P .regs_] [May P .lost_] [May P .fab_] [May P .grains_] [May P .led_] {s0 : State} {s : State} {v : Fin 16} {ok : Bool} {t : Nat} (hk : Kept P s0 s) :
    KeptO P s0 (execVectorSelftestDone s v ok t) := by
  unfold execVectorSelftestDone
  try dsimp only
  repeat' first
    | with_reducible assumption
    | with_reducible apply State.at_kept
    | with_reducible apply State.raise_kept
    | with_reducible apply State.updGrain_kept
    | with_reducible apply State.updUnit_kept
    | with_reducible apply State.wrBit_kept
    | with_reducible apply KeptO.of_next
    | with_reducible apply KeptO.ite
    | with_reducible apply Kept.ite
    | (intro _; try dsimp only)
    | split
    | (with_reducible refine Kept.mk' rfl rfl rfl rfl rfl rfl ?_)
    | rfl

theorem State.clockFault_kept {P : Part → Prop} [May P .fresh_] [May P .regs_] [May P .lost_] [May P .mem_] [May P .fab_] [May P .grains_] [May P .inbox_] [May P .led_] [May P .lnk_] [May P .swp_] [May P .trip_] [May P .boot_] [May P .gate_] [May P .regu_] [May P .out_] [May P .cur_] [May P .sf_] [May P .can_] [May P .eth_] [May P .sv_] [May P .corr_] [May P .est_] {s0 : State} {s : State} {osc : Nat} (hk : Kept P s0 s) :
    Kept P s0 (State.clockFault s osc) := by
  unfold State.clockFault
  try dsimp only
  repeat' first
    | with_reducible assumption
    | with_reducible apply State.raise_kept
    | with_reducible apply State.requestReset_kept

theorem execClockFault_kept {P : Part → Prop} [May P .fresh_] [May P .regs_] [May P .lost_] [May P .mem_] [May P .fab_] [May P .grains_] [May P .inbox_] [May P .led_] [May P .lnk_] [May P .swp_] [May P .trip_] [May P .boot_] [May P .gate_] [May P .regu_] [May P .out_] [May P .cur_] [May P .sf_] [May P .can_] [May P .eth_] [May P .sv_] [May P .corr_] [May P .est_] {s0 : State} {s : State} {why : ClockLoss} {t : Nat} (hk : Kept P s0 s) :
    KeptO P s0 (execClockFault s why t) := by
  unfold execClockFault
  try dsimp only
  repeat' first
    | with_reducible assumption
    | with_reducible apply State.at_kept
    | with_reducible apply State.clockFault_kept
    | with_reducible apply State.wrBit_kept
    | with_reducible apply State.wr_kept
    | with_reducible apply KeptO.of_next
    | split

theorem execOscVoteWindow_kept {P : Part → Prop} [May P .fresh_] [May P .regs_] [May P .lost_] [May P .mem_] [May P .fab_] [May P .grains_] [May P .inbox_] [May P .led_] [May P .lnk_] [May P .swp_] [May P .trip_] [May P .boot_] [May P .gate_] [May P .regu_] [May P .out_] [May P .cur_] [May P .sf_] [May P .can_] [May P .eth_] [May P .sv_] [May P .corr_] [May P .est_] {s0 : State} {s : State} {x : Nat} {f : Nat} {m : Nat} {t : Nat} (hk : Kept P s0 s) :
    KeptO P s0 (execOscVoteWindow s x f m t) := by
  unfold execOscVoteWindow
  try dsimp only
  repeat' first
    | with_reducible assumption
    | with_reducible apply State.at_kept
    | with_reducible apply State.clockFault_kept
    | with_reducible apply State.drew_kept
    | with_reducible apply State.hit_kept
    | with_reducible apply State.raise_kept
    | with_reducible apply State.sfInternal_kept
    | with_reducible apply State.wr_kept
    | with_reducible apply KeptO.of_next
    | with_reducible apply KeptO.ite
    | with_reducible apply Kept.ite
    | split
    | (with_reducible refine Kept.mk' rfl rfl rfl rfl rfl rfl ?_)

theorem execRtcLoad_kept {P : Part → Prop} [May P .sv_] {s0 : State} {s : State} {t : Nat} (hk : Kept P s0 s) :
    KeptO P s0 (execRtcLoad s t) := by
  unfold execRtcLoad
  try dsimp only
  repeat' first
    | with_reducible assumption
    | with_reducible apply State.at_kept
    | with_reducible apply KeptO.of_next
    | with_reducible apply KeptO.ite
    | with_reducible apply Kept.ite
    | split
    | (with_reducible refine Kept.mk' rfl rfl rfl rfl rfl rfl ?_)

theorem State.bandSync_kept {P : Part → Prop} [May P .regs_] [May P .lost_] [May P .led_] {s0 : State} {s : State} (hk : Kept P s0 s) :
    Kept P s0 (State.bandSync s) := by
  unfold State.bandSync
  try dsimp only
  repeat' first
    | with_reducible assumption
    | with_reducible apply State.hit_kept
    | with_reducible apply State.raise_kept
    | with_reducible apply State.wr_kept
    | with_reducible apply Kept.foldl
    | with_reducible apply Kept.ite
    | (intro _; intros; try dsimp only)
    | split
    | (with_reducible refine Kept.mk' rfl rfl rfl rfl rfl rfl ?_)

theorem State.dieSpans_kept {P : Part → Prop} [May P .sv_] {s0 : State} {s : State} {d : Nat} (hk : Kept P s0 s) :
    Kept P s0 (State.dieSpans s d) := by
  unfold State.dieSpans
  try dsimp only
  repeat' first
    | with_reducible assumption
    | with_reducible apply Kept.foldl
    | with_reducible apply Kept.ite
    | split
    | (with_reducible refine Kept.mk' rfl rfl rfl rfl rfl rfl ?_)

theorem State.sensorBad_kept {P : Part → Prop} [May P .regs_] [May P .lost_] [May P .led_] [May P .sv_] {s0 : State} {s : State} {n : Nat} (hk : Kept P s0 s) :
    Kept P s0 (State.sensorBad s n) := by
  unfold State.sensorBad
  try dsimp only
  repeat' first
    | with_reducible assumption
    | with_reducible apply State.hit_kept
    | with_reducible apply State.raise_kept
    | with_reducible apply State.wrBit_kept
    | with_reducible apply State.wr_kept
    | with_reducible apply Kept.ite
    | split
    | (with_reducible refine Kept.mk' rfl rfl rfl rfl rfl rfl ?_)

theorem State.sensorGood_kept {P : Part → Prop} [May P .regs_] [May P .lost_] [May P .sv_] {s0 : State} {s : State} {n : Nat} {temp : Int} (hk : Kept P s0 s) :
    Kept P s0 (State.sensorGood s n temp) := by
  unfold State.sensorGood
  try dsimp only
  repeat' first
    | with_reducible assumption
    | with_reducible apply State.wrBit_kept
    | with_reducible apply State.wr_kept
    | with_reducible apply Kept.ite
    | split
    | (with_reducible refine Kept.mk' rfl rfl rfl rfl rfl rfl ?_)

theorem execDieSensorConvert_kept {P : Part → Prop} [May P .regs_] [May P .lost_] [May P .led_] [May P .sv_] {s0 : State} {s : State} {n : Fin 13} {temp : Int} {ok : Bool} {t : Nat} (hk : Kept P s0 s) :
    KeptO P s0 (execDieSensorConvert s n temp ok t) := by
  unfold execDieSensorConvert
  try dsimp only
  repeat' first
    | with_reducible assumption
    | with_reducible apply State.at_kept
    | with_reducible apply State.bandSync_kept
    | with_reducible apply State.dieSpans_kept
    | with_reducible apply State.sensorBad_kept
    | with_reducible apply State.sensorGood_kept
    | with_reducible apply State.wr_kept
    | with_reducible apply KeptO.of_next
    | with_reducible apply KeptO.ite
    | with_reducible apply Kept.ite

theorem State.bandFall_kept {P : Part → Prop} [May P .regs_] [May P .lost_] {s0 : State} {s : State} {d n : Nat} (hk : Kept P s0 s) : Kept P s0 (s.bandFall d n) := by
  induction n generalizing s with
  | zero => exact hk
  | succ n ih =>
    unfold State.bandFall
    dsimp only
    split
    · exact Kept.ite (ih (State.wr_kept hk)) hk
    · exact hk

theorem execBandFall_kept {P : Part → Prop} [May P .regs_] [May P .lost_] [May P .led_] {s0 : State} {s : State} {d : Fin 2} {t : Nat} (hk : Kept P s0 s) :
    KeptO P s0 (execBandFall s d t) := by
  unfold execBandFall
  try dsimp only
  repeat' first
    | with_reducible assumption
    | with_reducible apply State.at_kept
    | with_reducible apply State.bandFall_kept
    | with_reducible apply State.bandSync_kept
    | with_reducible apply KeptO.of_next

theorem execThermalShutdown_kept {P : Part → Prop} [May P .fresh_] [May P .regs_] [May P .lost_] [May P .led_] [May P .swp_] [May P .trip_] [May P .gate_] [May P .regu_] [May P .out_] [May P .sv_] {s0 : State} {s : State} {n : Fin 13} {t : Nat} (hk : Kept P s0 s) :
    KeptO P s0 (execThermalShutdown s n t) := by
  unfold execThermalShutdown
  try dsimp only
  repeat' first
    | with_reducible assumption
    | with_reducible apply State.at_kept
    | with_reducible apply State.raise_kept
    | with_reducible apply State.stringSource_kept
    | with_reducible apply State.tripFlush_kept
    | with_reducible apply KeptO.of_next
    | with_reducible apply KeptO.ite
    | with_reducible apply Kept.ite
    | split
    | (with_reducible refine Kept.mk' rfl rfl rfl rfl rfl rfl ?_)

theorem execThermalPreseqTrigger_kept {P : Part → Prop} [May P .fresh_] [May P .regs_] [May P .lost_] [May P .mem_] [May P .fab_] [May P .grains_] [May P .inbox_] [May P .led_] [May P .lnk_] [May P .swp_] [May P .trip_] [May P .boot_] [May P .gate_] [May P .regu_] [May P .out_] [May P .cur_] [May P .sf_] [May P .can_] [May P .eth_] [May P .sv_] [May P .corr_] [May P .est_] {s0 : State} {s : State} {t : Nat} (hk : Kept P s0 s) :
    KeptO P s0 (execThermalPreseqTrigger s t) := by
  unfold execThermalPreseqTrigger
  try dsimp only
  repeat' first
    | with_reducible assumption
    | with_reducible apply State.at_kept
    | with_reducible apply State.requestReset_kept
    | with_reducible apply KeptO.of_next
    | with_reducible apply KeptO.ite
    | with_reducible apply Kept.ite

theorem execThermalResetRelease_kept {P : Part → Prop} [May P .sv_] {s0 : State} {s : State} {t : Nat} (hk : Kept P s0 s) :
    KeptO P s0 (execThermalResetRelease s t) := by
  unfold execThermalResetRelease
  try dsimp only
  repeat' first
    | with_reducible assumption
    | with_reducible apply State.at_kept
    | with_reducible apply KeptO.of_next
    | with_reducible apply KeptO.ite
    | with_reducible apply Kept.ite
    | split
    | (with_reducible refine Kept.mk' rfl rfl rfl rfl rfl rfl ?_)

end Sys2Proof.Machine
end

