-- ==== Sys2Proof/Laws/Kept/WriteEffects.lean ====
section
/-!
SUPPORT. What the operations of Machine/WriteEffects.lean keep.
-/

set_option Elab.async false
set_option linter.unusedTactic false
set_option linter.unreachableTactic false

namespace Sys2Proof.Machine

theorem State.portWritten_kept {P : Part → Prop} [May P .regs_] [May P .lost_] [May P .led_] [May P .lnk_] [May P .trip_] {s0 : State} {s : State} {k : Nat} {v : Nat} {old : Word} (hk : Kept P s0 s) :
    Kept P s0 (State.portWritten s k v old) := by
  unfold State.portWritten
  try dsimp only
  repeat' first
    | with_reducible assumption
    | with_reducible apply State.staleDrop_kept
    | with_reducible apply State.updEng_kept
    | with_reducible apply State.wakeTone_kept
    | with_reducible apply State.wr_kept
    | with_reducible apply Kept.ite

theorem State.aicOff_kept {P : Part → Prop} [May P .trip_] [May P .cur_] {s0 : State} {s : State} {n : Nat} (hk : Kept P s0 s) :
    Kept P s0 (State.aicOff s n) := by
  unfold State.aicOff
  try dsimp only
  repeat' first
    | with_reducible assumption
    | with_reducible apply State.aicSource_kept
    | with_reducible apply Kept.ite
    | split
    | (with_reducible refine Kept.mk' rfl rfl rfl rfl rfl rfl ?_)

theorem State.ainOff_kept {P : Part → Prop} [May P .trip_] [May P .cur_] {s0 : State} {s : State} {n : Nat} (hk : Kept P s0 s) :
    Kept P s0 (State.ainOff s n) := by
  unfold State.ainOff
  try dsimp only
  repeat' first
    | with_reducible assumption
    | with_reducible apply State.ainSource_kept
    | (with_reducible refine Kept.mk' rfl rfl rfl rfl rfl rfl ?_)

theorem State.effAQ_kept {P : Part → Prop} [May P .regs_] [May P .lost_] [May P .led_] [May P .lnk_] [May P .swp_] [May P .trip_] [May P .cur_] {s0 : State} {s : State} {a : Nat} {v : Nat} {old : Word} (hk : Kept P s0 s) :
    Kept P s0 (State.effAQ s a v old) := by
  unfold State.effAQ
  try dsimp only
  repeat' first
    | with_reducible assumption
    | with_reducible apply State.aicOff_kept
    | with_reducible apply State.ainOff_kept
    | with_reducible apply State.owtStart_kept
    | with_reducible apply State.portWritten_kept
    | with_reducible apply State.unknownSync_kept
    | with_reducible apply State.unstale_kept
    | with_reducible apply State.winHoldClear_kept
    | with_reducible apply State.winTrigger_kept
    | with_reducible apply Kept.ite
    | split
    | (with_reducible refine Kept.mk' rfl rfl rfl rfl rfl rfl ?_)

theorem State.effFB_kept {P : Part → Prop} [May P .regs_] [May P .lost_] [May P .mem_] [May P .fab_] [May P .grains_] [May P .inbox_] [May P .led_] [May P .lnk_] [May P .swp_] [May P .trip_] [May P .gate_] [May P .regu_] [May P .out_] [May P .cur_] [May P .can_] [May P .eth_] [May P .sv_] {s0 : State} {s : State} {a : Nat} {v : Nat} {old : Word} (hk : Kept P s0 s) :
    Kept P s0 (State.effFB s a v old) := by
  unfold State.effFB
  try dsimp only
  repeat' first
    | with_reducible assumption
    | with_reducible apply State.fltRel_kept
    | with_reducible apply State.kick_kept
    | with_reducible apply State.pmonClear_kept
    | with_reducible apply State.reclaim_kept
    | with_reducible apply State.wdogStart_kept
    | with_reducible apply Kept.ite

theorem State.corrClear_kept {P : Part → Prop} [May P .regs_] [May P .lost_] [May P .mem_] [May P .fab_] {s0 : State} {s : State} {b : Nat} (hk : Kept P s0 s) :
    Kept P s0 (State.corrClear s b) := by
  unfold State.corrClear
  try dsimp only
  repeat' first
    | with_reducible assumption
    | with_reducible apply State.clearBytes_kept
    | with_reducible apply State.wr_kept

theorem State.effES_kept {P : Part → Prop} [May P .regs_] [May P .lost_] [May P .mem_] [May P .fab_] {s0 : State} {s : State} {a : Nat} {v : Nat} (hk : Kept P s0 s) :
    Kept P s0 (State.effES s a v) := by
  unfold State.effES
  try dsimp only
  repeat' first
    | with_reducible assumption
    | with_reducible apply State.corrClear_kept
    | with_reducible apply Kept.ite

theorem State.effCan_kept {P : Part → Prop} [May P .regs_] [May P .lost_] [May P .fab_] [May P .inbox_] [May P .led_] [May P .can_] {s0 : State} {s : State} {n : Nat} {o : Nat} {v : Nat} (hk : Kept P s0 s) :
    Kept P s0 (State.effCan s n o v) := by
  unfold State.effCan
  try dsimp only
  repeat' first
    | with_reducible assumption
    | with_reducible apply State.canBorel_kept
    | with_reducible apply State.canTxCmd_kept
    | with_reducible apply State.fifoPop_kept
    | with_reducible apply Kept.ite

theorem State.effCT_kept {P : Part → Prop} [May P .regs_] [May P .lost_] [May P .fab_] [May P .inbox_] [May P .led_] [May P .out_] [May P .can_] [May P .eth_] {s0 : State} {s : State} {a : Nat} {v : Nat} {old : Word} (hk : Kept P s0 s) :
    Kept P s0 (State.effCT s a v old) := by
  unfold State.effCT
  try dsimp only
  repeat' first
    | with_reducible assumption
    | with_reducible apply State.discWritten_kept
    | with_reducible apply State.effCan_kept
    | with_reducible apply State.ltWritten_kept
    | with_reducible apply State.phaseWritten_kept
    | with_reducible apply State.rateWritten_kept
    | with_reducible apply State.timeStep_kept
    | with_reducible apply Kept.ite

theorem State.effGate_kept {P : Part → Prop} [May P .regs_] [May P .lost_] [May P .led_] [May P .trip_] [May P .gate_] {s0 : State} {s : State} {a : Nat} {v : Nat} {old : Word} (hk : Kept P s0 s) :
    Kept P s0 (State.effGate s a v old) := by
  unfold State.effGate
  try dsimp only
  repeat' first
    | with_reducible assumption
    | with_reducible apply State.gdTestEffect_kept
    | with_reducible apply State.hbClear_kept
    | with_reducible apply State.leakStart_kept
    | with_reducible apply State.rearmAll_kept
    | with_reducible apply Kept.foldl
    | with_reducible apply Kept.ite

theorem State.effPch_kept {P : Part → Prop} [May P .fresh_] [May P .regs_] [May P .lost_] [May P .led_] [May P .trip_] [May P .gate_] [May P .regu_] [May P .out_] {s0 : State} {s : State} {v : Nat} (hk : Kept P s0 s) :
    Kept P s0 (State.effPch s v) := by
  unfold State.effPch
  try dsimp only
  repeat' first
    | with_reducible assumption
    | with_reducible apply State.pchAbort_kept
    | with_reducible apply State.pchJoin_kept
    | with_reducible apply State.pchStart_kept
    | with_reducible apply Kept.ite

theorem State.effExc_kept {P : Part → Prop} [May P .regs_] [May P .lost_] [May P .regu_] {s0 : State} {s : State} {v : Nat} (hk : Kept P s0 s) :
    Kept P s0 (State.effExc s v) := by
  unfold State.effExc
  try dsimp only
  repeat' first
    | with_reducible assumption
    | with_reducible apply State.excBegin_kept
    | with_reducible apply State.excHalt_kept
    | with_reducible apply Kept.ite

theorem State.effPW_kept {P : Part → Prop} [May P .fresh_] [May P .regs_] [May P .lost_] [May P .led_] [May P .trip_] [May P .gate_] [May P .regu_] [May P .out_] {s0 : State} {s : State} {a : Nat} {v : Nat} {old : Word} (hk : Kept P s0 s) :
    Kept P s0 (State.effPW s a v old) := by
  unfold State.effPW
  try dsimp only
  repeat' first
    | with_reducible assumption
    | with_reducible apply State.conClose_kept
    | with_reducible apply State.conOpen_kept
    | with_reducible apply State.dlimWritten_kept
    | with_reducible apply State.effExc_kept
    | with_reducible apply State.effGate_kept
    | with_reducible apply State.effPch_kept
    | with_reducible apply State.limitsOnChange_kept
    | with_reducible apply State.lsClear_kept
    | with_reducible apply State.lsSync_kept
    | with_reducible apply State.phen_kept
    | with_reducible apply State.rearmAll_kept
    | with_reducible apply State.sregCfgEffect_kept
    | with_reducible apply State.stringSource_kept
    | with_reducible apply State.tripClr_kept
    | with_reducible apply State.tripReq_kept
    | with_reducible apply State.weightsWritten_kept
    | with_reducible apply Kept.foldl
    | with_reducible apply Kept.ite
    | (intro _; intros; try dsimp only)

theorem State.effBoot_kept {P : Part → Prop} [May P .fresh_] [May P .regs_] [May P .lost_] [May P .mem_] [May P .fab_] [May P .grains_] [May P .inbox_] [May P .led_] [May P .lnk_] [May P .swp_] [May P .trip_] [May P .boot_] [May P .gate_] [May P .regu_] [May P .out_] [May P .cur_] [May P .sf_] [May P .can_] [May P .eth_] [May P .sv_] [May P .corr_] [May P .est_] {s0 : State} {s : State} {v : Nat} (hk : Kept P s0 s) :
    Kept P s0 (State.effBoot s v) := by
  unfold State.effBoot
  try dsimp only
  repeat' first
    | with_reducible assumption
    | with_reducible apply State.arbGo_kept
    | with_reducible apply State.confirm_kept
    | with_reducible apply State.dbgClose_kept
    | with_reducible apply State.dbgGo_kept
    | with_reducible apply State.requestReset_kept
    | with_reducible apply State.revGo_kept
    | with_reducible apply Kept.ite

theorem State.effGateCtl_kept {P : Part → Prop} [May P .fresh_] [May P .regs_] [May P .lost_] [May P .led_] [May P .boot_] {s0 : State} {s : State} {v : Nat} (hk : Kept P s0 s) :
    Kept P s0 (State.effGateCtl s v) := by
  unfold State.effGateCtl
  try dsimp only
  repeat' first
    | with_reducible assumption
    | with_reducible apply State.clrpw_kept
    | with_reducible apply State.gateLock_kept
    | with_reducible apply State.pwZero_kept
    | with_reducible apply State.setpw_kept
    | with_reducible apply State.unlock_kept
    | with_reducible apply Kept.ite

theorem State.effPS_kept {P : Part → Prop} [May P .fresh_] [May P .regs_] [May P .lost_] [May P .mem_] [May P .fab_] [May P .grains_] [May P .inbox_] [May P .led_] [May P .lnk_] [May P .swp_] [May P .trip_] [May P .boot_] [May P .gate_] [May P .regu_] [May P .out_] [May P .cur_] [May P .sf_] [May P .can_] [May P .eth_] [May P .sv_] [May P .corr_] [May P .est_] {s0 : State} {s : State} {a : Nat} {v : Nat} {old : Word} (hk : Kept P s0 s) :
    Kept P s0 (State.effPS s a v old) := by
  unfold State.effPS
  try dsimp only
  repeat' first
    | with_reducible assumption
    | with_reducible apply State.blockClear_kept
    | with_reducible apply State.commission_kept
    | with_reducible apply State.effBoot_kept
    | with_reducible apply State.effGateCtl_kept
    | with_reducible apply State.keyTake_kept
    | with_reducible apply State.lifeStart_kept
    | with_reducible apply State.otpGo_kept
    | with_reducible apply State.sedClear_kept
    | with_reducible apply Kept.ite

theorem State.effSF_kept {P : Part → Prop} [May P .regs_] [May P .lost_] [May P .led_] [May P .sf_] {s0 : State} {s : State} {a : Nat} {v : Nat} (hk : Kept P s0 s) :
    Kept P s0 (State.effSF s a v) := by
  unfold State.effSF
  try dsimp only
  repeat' first
    | with_reducible assumption
    | with_reducible apply State.mbxAck_kept
    | with_reducible apply State.mbxGo_kept
    | with_reducible apply State.mbxReq_kept
    | with_reducible apply Kept.ite

theorem State.writeEffect_kept {P : Part → Prop} [May P .fresh_] [May P .regs_] [May P .lost_] [May P .mem_] [May P .fab_] [May P .grains_] [May P .inbox_] [May P .led_] [May P .lnk_] [May P .swp_] [May P .trip_] [May P .boot_] [May P .gate_] [May P .regu_] [May P .out_] [May P .cur_] [May P .sf_] [May P .can_] [May P .eth_] [May P .sv_] [May P .corr_] [May P .est_] {s0 : State} {s : State} {a : Nat} {v : Nat} {old : Word} (hk : Kept P s0 s) :
    Kept P s0 (State.writeEffect s a v old) := by
  unfold State.writeEffect
  try dsimp only
  repeat' first
    | with_reducible assumption
    | with_reducible apply State.effAQ_kept
    | with_reducible apply State.effCT_kept
    | with_reducible apply State.effES_kept
    | with_reducible apply State.effFB_kept
    | with_reducible apply State.effPS_kept
    | with_reducible apply State.effPW_kept
    | with_reducible apply State.effSF_kept
    | split

end Sys2Proof.Machine
end

