-- ==== Sys2Proof/Laws/Kept/RegWrite.lean ====
section
/-!
SUPPORT. What the operations of Machine/RegWrite.lean keep.
-/

set_option Elab.async false
set_option linter.unusedTactic false
set_option linter.unreachableTactic false

namespace Sys2Proof.Machine

theorem State.noteBad_kept {P : Part → Prop} [May P .regs_] [May P .lost_] [May P .led_] {s0 : State} {s : State} {src : Nat} {a : Nat} {v : Nat} {r : RegRow} {new : Word} (hk : Kept P s0 s) :
    Kept P s0 (State.noteBad s src a v r new) := by
  unfold State.noteBad
  try dsimp only
  repeat' first
    | with_reducible assumption
    | with_reducible apply State.hit_kept
    | with_reducible apply State.kickRefused_kept
    | with_reducible apply State.pchRefuse_kept
    | with_reducible apply State.raise_kept
    | with_reducible apply State.refuse_kept
    | with_reducible apply State.wr_kept
    | with_reducible apply Kept.ite

theorem State.takeLow_kept {P : Part → Prop} [May P .regs_] [May P .lost_] [May P .fab_] {s0 : State} {s : State} {a : Nat} (hk : Kept P s0 s) :
    Kept P s0 (State.takeLow s a) := by
  unfold State.takeLow
  try dsimp only
  repeat' first
    | with_reducible assumption
    | with_reducible apply State.setReg_kept
    | split
    | (with_reducible refine Kept.mk' rfl rfl rfl rfl rfl rfl ?_)

theorem State.regTake_kept {P : Part → Prop} [May P .fresh_] [May P .regs_] [May P .lost_] [May P .mem_] [May P .fab_] [May P .grains_] [May P .inbox_] [May P .led_] [May P .lnk_] [May P .swp_] [May P .trip_] [May P .boot_] [May P .gate_] [May P .regu_] [May P .out_] [May P .cur_] [May P .sf_] [May P .can_] [May P .eth_] [May P .sv_] [May P .corr_] [May P .est_] {s0 : State} {s : State} {src : Nat} {a : Nat} {v : Nat} {r : RegRow} {new : Word} (hk : Kept P s0 s) :
    Kept P s0 (State.regTake s src a v r new) := by
  unfold State.regTake
  try dsimp only
  repeat' first
    | with_reducible assumption
    | with_reducible apply State.changeLog_kept
    | with_reducible apply State.setReg_kept
    | with_reducible apply State.takeLow_kept
    | with_reducible apply State.writeEffect_kept
    | with_reducible apply Kept.ite
    | split
    | (with_reducible refine Kept.mk' rfl rfl rfl rfl rfl rfl ?_)

theorem State.regWrite_kept {P : Part → Prop} [May P .fresh_] [May P .regs_] [May P .lost_] [May P .mem_] [May P .fab_] [May P .grains_] [May P .inbox_] [May P .led_] [May P .lnk_] [May P .swp_] [May P .trip_] [May P .boot_] [May P .gate_] [May P .regu_] [May P .out_] [May P .cur_] [May P .sf_] [May P .can_] [May P .eth_] [May P .sv_] [May P .corr_] [May P .est_] {s0 : State} {s : State} {src : Nat} {a : Nat} {v : Nat} {r : RegRow} (hk : Kept P s0 s) :
    Kept P s0 (State.regWrite s src a v r) := by
  unfold State.regWrite
  try dsimp only
  repeat' first
    | with_reducible assumption
    | with_reducible apply State.noteBad_kept
    | with_reducible apply State.refuse_kept
    | with_reducible apply State.regTake_kept
    | with_reducible apply Kept.ite
    | split
    | (with_reducible refine Kept.mk' rfl rfl rfl rfl rfl rfl ?_)

theorem State.mramStore_kept {P : Part → Prop} [May P .fresh_] [May P .regs_] [May P .lost_] [May P .mem_] [May P .fab_] [May P .led_] [May P .boot_] {s0 : State} {s : State} {src : Nat} {pc : Nat} {a : Nat} {n : Nat} {v : Nat} (hk : Kept P s0 s) :
    Kept P s0 (State.mramStore s src pc a n v) := by
  unfold State.mramStore
  try dsimp only
  repeat' first
    | with_reducible assumption
    | with_reducible apply State.changeLog_kept
    | with_reducible apply State.storeLE_kept
    | with_reducible apply Kept.ite
    | split
    | (with_reducible refine Kept.mk' rfl rfl rfl rfl rfl rfl ?_)

theorem State.overlayTouched_kept {P : Part → Prop} [May P .grains_] {s0 : State} {s : State} {a : Nat} (hk : Kept P s0 s) :
    Kept P s0 (State.overlayTouched s a) := by
  unfold State.overlayTouched
  try dsimp only
  repeat' first
    | with_reducible assumption
    | with_reducible apply State.updGrain_kept
    | with_reducible apply Kept.ite
    | (intro _; try dsimp only)
    | split
    | (with_reducible refine Kept.mk' rfl rfl rfl rfl rfl rfl ?_)
    | rfl

theorem State.writeError_kept {P : Part → Prop} [May P .regs_] [May P .lost_] [May P .led_] {s0 : State} {s : State} {src : Nat} {a : Nat} {v : Nat} (hk : Kept P s0 s) :
    Kept P s0 (State.writeError s src a v).2 := by
  unfold State.writeError
  try dsimp only
  repeat' first
    | with_reducible assumption
    | with_reducible apply State.refuseFb_kept
    | with_reducible apply State.refuse_kept
    | with_reducible apply Kept.ite

theorem State.windowPut_kept {P : Part → Prop} [May P .regs_] [May P .lost_] [May P .fab_] [May P .inbox_] [May P .led_] {s0 : State} {s : State} {src : Nat} {n : Nat} {a : Nat} {v : Nat} (hk : Kept P s0 s) :
    Kept P s0 (State.windowPut s src n a v).2 := by
  unfold State.windowPut
  try dsimp only
  repeat' first
    | with_reducible assumption
    | with_reducible apply State.qAppend_kept
    | with_reducible apply State.qOverflow_kept
    | with_reducible apply State.writeError_kept
    | with_reducible apply Kept.ite
    | (with_reducible refine Kept.of_snd ‹_› ?_)
    | split

theorem State.busStore_kept {P : Part → Prop} [May P .fresh_] [May P .regs_] [May P .lost_] [May P .mem_] [May P .fab_] [May P .grains_] [May P .inbox_] [May P .led_] [May P .lnk_] [May P .swp_] [May P .trip_] [May P .boot_] [May P .gate_] [May P .regu_] [May P .out_] [May P .cur_] [May P .sf_] [May P .can_] [May P .eth_] [May P .sv_] [May P .corr_] [May P .est_] {s0 : State} {s : State} {src : Nat} {pc : Nat} {a : Nat} {n : Nat} {v : Nat} (hk : Kept P s0 s) :
    Kept P s0 (State.busStore s src pc a n v).2 := by
  unfold State.busStore
  try dsimp only
  repeat' first
    | with_reducible assumption
    | with_reducible apply State.mramStore_kept
    | with_reducible apply State.overlayTouched_kept
    | with_reducible apply State.regWrite_kept
    | with_reducible apply State.storeLE_kept
    | with_reducible apply State.windowPut_kept
    | with_reducible apply State.writeError_kept
    | with_reducible apply Kept.ite
    | (with_reducible refine Kept.of_snd ‹_› ?_)
    | split
    | (with_reducible refine Kept.mk' rfl rfl rfl rfl rfl rfl ?_)

theorem State.busWrite_kept {P : Part → Prop} [May P .fresh_] [May P .regs_] [May P .lost_] [May P .mem_] [May P .fab_] [May P .grains_] [May P .inbox_] [May P .led_] [May P .lnk_] [May P .swp_] [May P .trip_] [May P .boot_] [May P .gate_] [May P .regu_] [May P .out_] [May P .cur_] [May P .sf_] [May P .can_] [May P .eth_] [May P .sv_] [May P .corr_] [May P .est_] {s0 : State} {s : State} {src : Nat} {a : Nat} {v : Nat} (hk : Kept P s0 s) :
    Kept P s0 (State.busWrite s src a v) := by
  unfold State.busWrite
  try dsimp only
  repeat' first
    | with_reducible assumption
    | with_reducible apply State.busStore_kept
    | (with_reducible refine Kept.of_snd ‹_› ?_)
    | (with_reducible refine Kept.mk' rfl rfl rfl rfl rfl rfl ?_)

theorem writeReg_kept {P : Part → Prop} [May P .fresh_] [May P .regs_] [May P .lost_] [May P .mem_] [May P .fab_] [May P .grains_] [May P .inbox_] [May P .led_] [May P .lnk_] [May P .swp_] [May P .trip_] [May P .boot_] [May P .gate_] [May P .regu_] [May P .out_] [May P .cur_] [May P .sf_] [May P .can_] [May P .eth_] [May P .sv_] [May P .corr_] [May P .est_] {s0 : State} {s : State} {src : Nat} {a : Nat} {v : Nat} {t : Nat} (hk : Kept P s0 s) :
    KeptO P s0 (writeReg s src a v t) := by
  unfold writeReg
  try dsimp only
  repeat' first
    | with_reducible assumption
    | with_reducible apply State.at_kept
    | with_reducible apply State.busWrite_kept
    | with_reducible apply KeptO.of_next

end Sys2Proof.Machine
end

