-- ==== Sys2Proof/Laws/Kept/Nersel.lean ====
section
/-!
SUPPORT. What the operations of Machine/Nersel.lean keep.
-/

set_option Elab.async false
set_option linter.unusedTactic false
set_option linter.unreachableTactic false

namespace Sys2Proof.Machine

theorem State.setG_kept {P : Part → Prop} [May P .grains_] {s0 : State} {s : State} {src : Nat} {n : Nat} {w : Word} (hk : Kept P s0 s) :
    Kept P s0 (State.setG s src n w) := by
  unfold State.setG
  try dsimp only
  repeat' first
    | with_reducible assumption
    | with_reducible apply State.updGrain_kept
    | with_reducible apply Kept.ite
    | (intro _; try dsimp only)
    | split
    | (with_reducible refine Kept.mk' rfl rfl rfl rfl rfl rfl ?_)
    | rfl

theorem State.setPair_kept {P : Part → Prop} [May P .grains_] {s0 : State} {s : State} {src : Nat} {n : Nat} {d : Dword} (hk : Kept P s0 s) :
    Kept P s0 (State.setPair s src n d) := by
  unfold State.setPair
  try dsimp only
  repeat' first | with_reducible assumption | with_reducible apply State.setG_kept

theorem State.setF_kept {P : Part → Prop} [May P .grains_] {s0 : State} {s : State} {src : Nat} {n : Nat} {d : Dword} (hk : Kept P s0 s) :
    Kept P s0 (State.setF s src n d) := by
  unfold State.setF
  try dsimp only
  repeat' first
    | with_reducible assumption
    | with_reducible apply State.updGrain_kept
    | (intro _; try dsimp only)
    | (with_reducible refine Kept.mk' rfl rfl rfl rfl rfl rfl ?_)
    | rfl

theorem State.setPc_kept {P : Part → Prop} [May P .grains_] {s0 : State} {s : State} {src : Nat} {a : Nat} (hk : Kept P s0 s) :
    Kept P s0 (State.setPc s src a) := by
  unfold State.setPc
  try dsimp only
  repeat' first
    | with_reducible assumption
    | with_reducible apply State.updGrain_kept
    | (intro _; try dsimp only)
    | (with_reducible refine Kept.mk' rfl rfl rfl rfl rfl rfl ?_)
    | rfl

theorem State.retired_kept {P : Part → Prop} [May P .fab_] [May P .grains_] {s0 : State} {s : State} {src : Nat} (hk : Kept P s0 s) :
    Kept P s0 (State.retired s src) := by
  unfold State.retired
  try dsimp only
  repeat' first
    | with_reducible assumption
    | with_reducible apply State.count_kept
    | with_reducible apply State.updGrain_kept
    | with_reducible apply Kept.ite
    | (intro _; try dsimp only)
    | split
    | (with_reducible refine Kept.mk' rfl rfl rfl rfl rfl rfl ?_)
    | rfl

theorem State.stepOn_kept {P : Part → Prop} [May P .fab_] [May P .grains_] {s0 : State} {s : State} {src : Nat} (hk : Kept P s0 s) :
    Kept P s0 (State.stepOn s src) := by
  unfold State.stepOn
  try dsimp only
  repeat' first
    | with_reducible assumption
    | with_reducible apply State.retired_kept
    | with_reducible apply State.setPc_kept

theorem State.trapIn_kept {P : Part → Prop} [May P .grains_] {s0 : State} {s : State} {src : Nat} (hk : Kept P s0 s) :
    Kept P s0 (State.trapIn s src) := by
  unfold State.trapIn
  try dsimp only
  repeat' first
    | with_reducible assumption
    | with_reducible apply State.updGrain_kept
    | (intro _; try dsimp only)
    | (with_reducible refine Kept.mk' rfl rfl rfl rfl rfl rfl ?_)
    | rfl

theorem State.doubleFault_kept {P : Part → Prop} [May P .regs_] [May P .lost_] [May P .fab_] [May P .grains_] [May P .inbox_] [May P .led_] {s0 : State} {s : State} {src : Nat} (hk : Kept P s0 s) :
    Kept P s0 (State.doubleFault s src) := by
  unfold State.doubleFault
  try dsimp only
  repeat' first
    | with_reducible assumption
    | with_reducible apply State.fltNote_kept
    | with_reducible apply State.grainFault_kept

theorem State.kernelFault_kept {P : Part → Prop} [May P .lost_] [May P .fab_] [May P .grains_] [May P .inbox_] [May P .led_] {s0 : State} {s : State} {src : Nat} (hk : Kept P s0 s) :
    Kept P s0 (State.kernelFault s src) := by
  unfold State.kernelFault
  try dsimp only
  repeat' first
    | with_reducible assumption
    | with_reducible apply State.post_kept
    | with_reducible apply State.raise_kept
    | with_reducible apply State.updGrain_kept
    | with_reducible apply Kept.ite
    | (intro _; try dsimp only)
    | split
    | (with_reducible refine Kept.mk' rfl rfl rfl rfl rfl rfl ?_)
    | rfl

theorem State.syncExc_kept {P : Part → Prop} [May P .regs_] [May P .lost_] [May P .fab_] [May P .grains_] [May P .inbox_] [May P .led_] {s0 : State} {s : State} {src code a b info : Nat} (hk : Kept P s0 s) :
    Kept P s0 (s.syncExc src code a b info) := by
  have h1 : Kept P s0 (s.kernelFault src) := State.kernelFault_kept hk
  unfold State.syncExc
  dsimp only
  split
  · exact State.doubleFault_kept h1
  · rename_i h
    have h2 : Kept P s0 ((((s.kernelFault src).inboxPush src ((s.kernelFault src).mkDesc 1 src code info a b))).trapIn src) :=
      State.trapIn_kept (State.inboxPush_kept (by omega) h1)
    exact Kept.ite (State.count_kept h2) (Kept.ite (State.count_kept h2) h2)

theorem State.takeImprecise_kept {P : Part → Prop} [May P .regs_] [May P .lost_] [May P .fab_] [May P .grains_] [May P .inbox_] [May P .led_] {s0 : State} {s : State} {src : Nat} (hk : Kept P s0 s) :
    Kept P s0 (State.takeImprecise s src) := by
  unfold State.takeImprecise
  try dsimp only
  repeat' first
    | with_reducible assumption
    | with_reducible apply State.syncExc_kept
    | with_reducible apply State.updGrain_kept
    | (intro _; try dsimp only)
    | split
    | (with_reducible refine Kept.mk' rfl rfl rfl rfl rfl rfl ?_)
    | rfl

theorem State.exc_kept {P : Part → Prop} [May P .regs_] [May P .lost_] [May P .fab_] [May P .grains_] [May P .inbox_] [May P .led_] {s0 : State} {s : State} {src : Nat} {code : Nat} {b : Nat} (hk : Kept P s0 s) :
    Kept P s0 (State.exc s src code b) := by
  unfold State.exc
  try dsimp only
  repeat' first
    | with_reducible assumption
    | with_reducible apply State.syncExc_kept
    | with_reducible apply State.takeImprecise_kept
    | with_reducible apply Kept.ite

theorem State.issue_kept {P : Part → Prop} [May P .regs_] [May P .lost_] [May P .fab_] [May P .grains_] [May P .inbox_] [May P .led_] {s0 : State} {s : State} {g : GrainId} {t : Nat} {w : Nat} {legal : Bool} {task : Bool} {f : State → State} (hf : ∀ s, Kept P s0 s → Kept P s0 (f s)) (hk : Kept P s0 s) :
    KeptO P s0 (State.issue s g t w legal task f) := by
  unfold State.issue
  try dsimp only
  repeat' first
    | with_reducible assumption
    | with_reducible apply State.at_kept
    | with_reducible apply State.exc_kept
    | with_reducible apply KeptO.of_next
    | with_reducible apply KeptO.ite
    | with_reducible apply Kept.ite
    | split
    | with_reducible apply hf

theorem State.compute_kept {P : Part → Prop} [May P .regs_] [May P .lost_] [May P .fab_] [May P .grains_] [May P .inbox_] [May P .led_] {s0 : State} {s : State} {g : GrainId} {t : Nat} {w : Nat} {legal : Bool} {rd : Nat} {v : State → Word} (hk : Kept P s0 s) :
    KeptO P s0 (State.compute s g t w legal rd v) := by
  unfold State.compute
  try dsimp only
  repeat' first
    | with_reducible assumption
    | with_reducible apply State.issue_kept
    | with_reducible apply State.setG_kept
    | with_reducible apply State.stepOn_kept
    | with_reducible apply KeptO.of_next
    | (intro _; intros; try dsimp only)

theorem State.loadInto_kept {P : Part → Prop} [May P .grains_] {s0 : State} {s : State} {src : Nat} {k : LoadKind} {rd : Nat} {v : Nat} (hk : Kept P s0 s) :
    Kept P s0 (State.loadInto s src k rd v) := by
  unfold State.loadInto
  try dsimp only
  repeat' first
    | with_reducible assumption
    | with_reducible apply State.setF_kept
    | with_reducible apply State.setG_kept
    | split

theorem State.busLoad_kept {P : Part → Prop} [May P .fresh_] [May P .regs_] [May P .lost_] [May P .fab_] [May P .led_] [May P .boot_] {s0 : State} {s : State} {a : Nat} {n : Nat} (hk : Kept P s0 s) :
    Kept P s0 (State.busLoad s a n).2 := by
  unfold State.busLoad
  try dsimp only
  repeat' first
    | with_reducible assumption
    | with_reducible apply State.busRead_kept
    | with_reducible apply Kept.ite
    | (with_reducible refine Kept.of_snd ‹_› ?_)
    | split

theorem State.load_kept {P : Part → Prop} [May P .regs_] [May P .lost_] [May P .fab_] [May P .grains_] [May P .inbox_] [May P .led_] {s0 : State} {s : State} {src : Nat} {k : LoadKind} {rd : Nat} {a : Nat} (hk : Kept P s0 s) :
    Kept P s0 (State.load s src k rd a) := by
  unfold State.load
  try dsimp only
  repeat' first
    | with_reducible assumption
    | with_reducible apply State.exc_kept
    | with_reducible apply State.loadInto_kept
    | with_reducible apply State.stepOn_kept
    | with_reducible apply State.updGrain_kept
    | with_reducible apply Kept.ite
    | (intro _; try dsimp only)
    | split
    | (with_reducible refine Kept.mk' rfl rfl rfl rfl rfl rfl ?_)
    | rfl

theorem State.storeOut_kept {P : Part → Prop} [May P .fresh_] [May P .regs_] [May P .lost_] [May P .mem_] [May P .fab_] [May P .grains_] [May P .inbox_] [May P .led_] [May P .lnk_] [May P .swp_] [May P .trip_] [May P .boot_] [May P .gate_] [May P .regu_] [May P .out_] [May P .cur_] [May P .sf_] [May P .can_] [May P .eth_] [May P .sv_] [May P .corr_] [May P .est_] {s0 : State} {s : State} {src : Nat} {a : Nat} {n : Nat} {v : Nat} (hk : Kept P s0 s) :
    Kept P s0 (State.storeOut s src a n v) := by
  unfold State.storeOut
  try dsimp only
  repeat' first
    | with_reducible assumption
    | with_reducible apply State.busStore_kept
    | with_reducible apply State.updGrain_kept
    | with_reducible apply Kept.ite
    | (with_reducible refine Kept.of_snd ‹_› ?_)
    | (intro _; try dsimp only)
    | split
    | (with_reducible refine Kept.mk' rfl rfl rfl rfl rfl rfl ?_)
    | rfl

theorem State.store_kept {P : Part → Prop} [May P .fresh_] [May P .regs_] [May P .lost_] [May P .mem_] [May P .fab_] [May P .grains_] [May P .inbox_] [May P .led_] [May P .lnk_] [May P .swp_] [May P .trip_] [May P .boot_] [May P .gate_] [May P .regu_] [May P .out_] [May P .cur_] [May P .sf_] [May P .can_] [May P .eth_] [May P .sv_] [May P .corr_] [May P .est_] {s0 : State} {s : State} {src : Nat} {a : Nat} {n : Nat} {v : Nat} (hk : Kept P s0 s) :
    Kept P s0 (State.store s src a n v) := by
  unfold State.store
  try dsimp only
  repeat' first
    | with_reducible assumption
    | with_reducible apply State.exc_kept
    | with_reducible apply State.overlayTouched_kept
    | with_reducible apply State.stepOn_kept
    | with_reducible apply State.storeLE_kept
    | with_reducible apply State.storeOut_kept
    | with_reducible apply Kept.ite
    | split

end Sys2Proof.Machine
end

