-- ==== Sys2Proof/Laws/Kept/VecArith.lean ====
section
/-!
SUPPORT. What the operations of Machine/VecArith.lean keep.
-/

set_option Elab.async false
set_option linter.unusedTactic false
set_option linter.unreachableTactic false

namespace Sys2Proof.Machine

theorem State.setLane_kept {P : Part → Prop} [May P .grains_] {s0 : State} {s : State} {src : Nat} {n : Nat} {i : Nat} {v : Nat} (hk : Kept P s0 s) :
    Kept P s0 (State.setLane s src n i v) := by
  unfold State.setLane
  try dsimp only
  repeat' first
    | with_reducible assumption
    | with_reducible apply State.updGrain_kept
    | (intro _; try dsimp only)
    | (with_reducible refine Kept.mk' rfl rfl rfl rfl rfl rfl ?_)
    | rfl

theorem State.setPbit_kept {P : Part → Prop} [May P .grains_] {s0 : State} {s : State} {src : Nat} {n : Nat} {i : Nat} {b : Bool} (hk : Kept P s0 s) :
    Kept P s0 (State.setPbit s src n i b) := by
  unfold State.setPbit
  try dsimp only
  repeat' first
    | with_reducible assumption
    | with_reducible apply State.updGrain_kept
    | with_reducible apply Kept.ite
    | (intro _; try dsimp only)
    | split
    | (with_reducible refine Kept.mk' rfl rfl rfl rfl rfl rfl ?_)
    | rfl

theorem State.putLanes_kept {P : Part → Prop} [May P .grains_] {s0 : State} {s : State} {src : Nat} {vd : Nat} {l : List Nat} {f : Nat → Nat} (hk : Kept P s0 s) :
    Kept P s0 (State.putLanes s src vd l f) := by
  unfold State.putLanes
  try dsimp only
  repeat' first
    | with_reducible assumption
    | with_reducible apply State.setLane_kept
    | with_reducible apply Kept.foldl
    | (intro _; intros; try dsimp only)

theorem State.putPred_kept {P : Part → Prop} [May P .grains_] {s0 : State} {s : State} {src : Nat} {pd : Nat} {f : Nat → Bool} (hk : Kept P s0 s) :
    Kept P s0 (State.putPred s src pd f) := by
  unfold State.putPred
  try dsimp only
  repeat' first
    | with_reducible assumption
    | with_reducible apply State.setPbit_kept
    | with_reducible apply Kept.foldl
    | (intro _; intros; try dsimp only)

theorem State.laneOp_kept {P : Part → Prop} [May P .regs_] [May P .lost_] [May P .fab_] [May P .grains_] [May P .inbox_] [May P .led_] {s0 : State} {s : State} {g : GrainId} {t : Nat} {w : Nat} {vd : Nat} {pg : Nat} {f : State → Nat → Nat} (hk : Kept P s0 s) :
    KeptO P s0 (State.laneOp s g t w vd pg f) := by
  unfold State.laneOp
  try dsimp only
  repeat' first
    | with_reducible assumption
    | with_reducible apply State.issue_kept
    | with_reducible apply State.putLanes_kept
    | with_reducible apply State.stepOn_kept
    | with_reducible apply KeptO.of_next
    | (intro _; intros; try dsimp only)

theorem State.arith_kept {P : Part → Prop} [May P .regs_] [May P .lost_] [May P .fab_] [May P .grains_] [May P .inbox_] [May P .led_] {s0 : State} {s : State} {g : GrainId} {t : Nat} {func : Nat} {scalar : Bool} {vd : Nat} {a : Nat} {b : Nat} {pg : Nat} {f : Nat → Nat → Nat → Nat} (hk : Kept P s0 s) :
    KeptO P s0 (State.arith s g t func scalar vd a b pg f) := by
  unfold State.arith
  try dsimp only
  repeat' first | with_reducible assumption | with_reducible apply State.laneOp_kept

theorem State.arith1_kept {P : Part → Prop} [May P .regs_] [May P .lost_] [May P .fab_] [May P .grains_] [May P .inbox_] [May P .led_] {s0 : State} {s : State} {g : GrainId} {t : Nat} {func : Nat} {vd : Nat} {a : Nat} {pg : Nat} {f : Nat → Nat} (hk : Kept P s0 s) :
    KeptO P s0 (State.arith1 s g t func vd a pg f) := by
  unfold State.arith1
  try dsimp only
  repeat' first | with_reducible assumption | with_reducible apply State.laneOp_kept

theorem execVaddI_kept {P : Part → Prop} [May P .regs_] [May P .lost_] [May P .fab_] [May P .grains_] [May P .inbox_] [May P .led_] {s0 : State} {s : State} {g : GrainId} {scalar : Bool} {vd : Fin 32} {a : Fin 32} {b : Fin 32} {pg : Fin 8} {t : Nat} (hk : Kept P s0 s) :
    KeptO P s0 (execVaddI s g scalar vd a b pg t) := by
  unfold execVaddI
  try dsimp only
  repeat' first | with_reducible assumption | with_reducible apply State.arith_kept

theorem execVsubI_kept {P : Part → Prop} [May P .regs_] [May P .lost_] [May P .fab_] [May P .grains_] [May P .inbox_] [May P .led_] {s0 : State} {s : State} {g : GrainId} {scalar : Bool} {vd : Fin 32} {a : Fin 32} {b : Fin 32} {pg : Fin 8} {t : Nat} (hk : Kept P s0 s) :
    KeptO P s0 (execVsubI s g scalar vd a b pg t) := by
  unfold execVsubI
  try dsimp only
  repeat' first | with_reducible assumption | with_reducible apply State.arith_kept

theorem execVmulI_kept {P : Part → Prop} [May P .regs_] [May P .lost_] [May P .fab_] [May P .grains_] [May P .inbox_] [May P .led_] {s0 : State} {s : State} {g : GrainId} {scalar : Bool} {vd : Fin 32} {a : Fin 32} {b : Fin 32} {pg : Fin 8} {t : Nat} (hk : Kept P s0 s) :
    KeptO P s0 (execVmulI s g scalar vd a b pg t) := by
  unfold execVmulI
  try dsimp only
  repeat' first | with_reducible assumption | with_reducible apply State.arith_kept

theorem execVand_kept {P : Part → Prop} [May P .regs_] [May P .lost_] [May P .fab_] [May P .grains_] [May P .inbox_] [May P .led_] {s0 : State} {s : State} {g : GrainId} {scalar : Bool} {vd : Fin 32} {a : Fin 32} {b : Fin 32} {pg : Fin 8} {t : Nat} (hk : Kept P s0 s) :
    KeptO P s0 (execVand s g scalar vd a b pg t) := by
  unfold execVand
  try dsimp only
  repeat' first | with_reducible assumption | with_reducible apply State.arith_kept

theorem execVor_kept {P : Part → Prop} [May P .regs_] [May P .lost_] [May P .fab_] [May P .grains_] [May P .inbox_] [May P .led_] {s0 : State} {s : State} {g : GrainId} {scalar : Bool} {vd : Fin 32} {a : Fin 32} {b : Fin 32} {pg : Fin 8} {t : Nat} (hk : Kept P s0 s) :
    KeptO P s0 (execVor s g scalar vd a b pg t) := by
  unfold execVor
  try dsimp only
  repeat' first | with_reducible assumption | with_reducible apply State.arith_kept

theorem execVxor_kept {P : Part → Prop} [May P .regs_] [May P .lost_] [May P .fab_] [May P .grains_] [May P .inbox_] [May P .led_] {s0 : State} {s : State} {g : GrainId} {scalar : Bool} {vd : Fin 32} {a : Fin 32} {b : Fin 32} {pg : Fin 8} {t : Nat} (hk : Kept P s0 s) :
    KeptO P s0 (execVxor s g scalar vd a b pg t) := by
  unfold execVxor
  try dsimp only
  repeat' first | with_reducible assumption | with_reducible apply State.arith_kept

theorem execVsll_kept {P : Part → Prop} [May P .regs_] [May P .lost_] [May P .fab_] [May P .grains_] [May P .inbox_] [May P .led_] {s0 : State} {s : State} {g : GrainId} {scalar : Bool} {vd : Fin 32} {a : Fin 32} {b : Fin 32} {pg : Fin 8} {t : Nat} (hk : Kept P s0 s) :
    KeptO P s0 (execVsll s g scalar vd a b pg t) := by
  unfold execVsll
  try dsimp only
  repeat' first | with_reducible assumption | with_reducible apply State.arith_kept

theorem execVsrl_kept {P : Part → Prop} [May P .regs_] [May P .lost_] [May P .fab_] [May P .grains_] [May P .inbox_] [May P .led_] {s0 : State} {s : State} {g : GrainId} {scalar : Bool} {vd : Fin 32} {a : Fin 32} {b : Fin 32} {pg : Fin 8} {t : Nat} (hk : Kept P s0 s) :
    KeptO P s0 (execVsrl s g scalar vd a b pg t) := by
  unfold execVsrl
  try dsimp only
  repeat' first | with_reducible assumption | with_reducible apply State.arith_kept

theorem execVsra_kept {P : Part → Prop} [May P .regs_] [May P .lost_] [May P .fab_] [May P .grains_] [May P .inbox_] [May P .led_] {s0 : State} {s : State} {g : GrainId} {scalar : Bool} {vd : Fin 32} {a : Fin 32} {b : Fin 32} {pg : Fin 8} {t : Nat} (hk : Kept P s0 s) :
    KeptO P s0 (execVsra s g scalar vd a b pg t) := by
  unfold execVsra
  try dsimp only
  repeat' first | with_reducible assumption | with_reducible apply State.arith_kept

theorem execVminI_kept {P : Part → Prop} [May P .regs_] [May P .lost_] [May P .fab_] [May P .grains_] [May P .inbox_] [May P .led_] {s0 : State} {s : State} {g : GrainId} {scalar : Bool} {vd : Fin 32} {a : Fin 32} {b : Fin 32} {pg : Fin 8} {t : Nat} (hk : Kept P s0 s) :
    KeptO P s0 (execVminI s g scalar vd a b pg t) := by
  unfold execVminI
  try dsimp only
  repeat' first | with_reducible assumption | with_reducible apply State.arith_kept

theorem execVmaxI_kept {P : Part → Prop} [May P .regs_] [May P .lost_] [May P .fab_] [May P .grains_] [May P .inbox_] [May P .led_] {s0 : State} {s : State} {g : GrainId} {scalar : Bool} {vd : Fin 32} {a : Fin 32} {b : Fin 32} {pg : Fin 8} {t : Nat} (hk : Kept P s0 s) :
    KeptO P s0 (execVmaxI s g scalar vd a b pg t) := by
  unfold execVmaxI
  try dsimp only
  repeat' first | with_reducible assumption | with_reducible apply State.arith_kept

theorem execVminu_kept {P : Part → Prop} [May P .regs_] [May P .lost_] [May P .fab_] [May P .grains_] [May P .inbox_] [May P .led_] {s0 : State} {s : State} {g : GrainId} {scalar : Bool} {vd : Fin 32} {a : Fin 32} {b : Fin 32} {pg : Fin 8} {t : Nat} (hk : Kept P s0 s) :
    KeptO P s0 (execVminu s g scalar vd a b pg t) := by
  unfold execVminu
  try dsimp only
  repeat' first | with_reducible assumption | with_reducible apply State.arith_kept

theorem execVmaxu_kept {P : Part → Prop} [May P .regs_] [May P .lost_] [May P .fab_] [May P .grains_] [May P .inbox_] [May P .led_] {s0 : State} {s : State} {g : GrainId} {scalar : Bool} {vd : Fin 32} {a : Fin 32} {b : Fin 32} {pg : Fin 8} {t : Nat} (hk : Kept P s0 s) :
    KeptO P s0 (execVmaxu s g scalar vd a b pg t) := by
  unfold execVmaxu
  try dsimp only
  repeat' first | with_reducible assumption | with_reducible apply State.arith_kept

theorem execVaddF_kept {P : Part → Prop} [May P .regs_] [May P .lost_] [May P .fab_] [May P .grains_] [May P .inbox_] [May P .led_] {s0 : State} {s : State} {g : GrainId} {scalar : Bool} {vd : Fin 32} {a : Fin 32} {b : Fin 32} {pg : Fin 8} {t : Nat} (hk : Kept P s0 s) :
    KeptO P s0 (execVaddF s g scalar vd a b pg t) := by
  unfold execVaddF
  try dsimp only
  repeat' first | with_reducible assumption | with_reducible apply State.arith_kept

theorem execVsubF_kept {P : Part → Prop} [May P .regs_] [May P .lost_] [May P .fab_] [May P .grains_] [May P .inbox_] [May P .led_] {s0 : State} {s : State} {g : GrainId} {scalar : Bool} {vd : Fin 32} {a : Fin 32} {b : Fin 32} {pg : Fin 8} {t : Nat} (hk : Kept P s0 s) :
    KeptO P s0 (execVsubF s g scalar vd a b pg t) := by
  unfold execVsubF
  try dsimp only
  repeat' first | with_reducible assumption | with_reducible apply State.arith_kept

theorem execVmulF_kept {P : Part → Prop} [May P .regs_] [May P .lost_] [May P .fab_] [May P .grains_] [May P .inbox_] [May P .led_] {s0 : State} {s : State} {g : GrainId} {scalar : Bool} {vd : Fin 32} {a : Fin 32} {b : Fin 32} {pg : Fin 8} {t : Nat} (hk : Kept P s0 s) :
    KeptO P s0 (execVmulF s g scalar vd a b pg t) := by
  unfold execVmulF
  try dsimp only
  repeat' first | with_reducible assumption | with_reducible apply State.arith_kept

theorem execVdivF_kept {P : Part → Prop} [May P .regs_] [May P .lost_] [May P .fab_] [May P .grains_] [May P .inbox_] [May P .led_] {s0 : State} {s : State} {g : GrainId} {scalar : Bool} {vd : Fin 32} {a : Fin 32} {b : Fin 32} {pg : Fin 8} {t : Nat} (hk : Kept P s0 s) :
    KeptO P s0 (execVdivF s g scalar vd a b pg t) := by
  unfold execVdivF
  try dsimp only
  repeat' first | with_reducible assumption | with_reducible apply State.arith_kept

theorem execVfma_kept {P : Part → Prop} [May P .regs_] [May P .lost_] [May P .fab_] [May P .grains_] [May P .inbox_] [May P .led_] {s0 : State} {s : State} {g : GrainId} {scalar : Bool} {vd : Fin 32} {a : Fin 32} {b : Fin 32} {pg : Fin 8} {t : Nat} (hk : Kept P s0 s) :
    KeptO P s0 (execVfma s g scalar vd a b pg t) := by
  unfold execVfma
  try dsimp only
  repeat' first | with_reducible assumption | with_reducible apply State.arith_kept

theorem execVfnma_kept {P : Part → Prop} [May P .regs_] [May P .lost_] [May P .fab_] [May P .grains_] [May P .inbox_] [May P .led_] {s0 : State} {s : State} {g : GrainId} {scalar : Bool} {vd : Fin 32} {a : Fin 32} {b : Fin 32} {pg : Fin 8} {t : Nat} (hk : Kept P s0 s) :
    KeptO P s0 (execVfnma s g scalar vd a b pg t) := by
  unfold execVfnma
  try dsimp only
  repeat' first | with_reducible assumption | with_reducible apply State.arith_kept

theorem execVminF_kept {P : Part → Prop} [May P .regs_] [May P .lost_] [May P .fab_] [May P .grains_] [May P .inbox_] [May P .led_] {s0 : State} {s : State} {g : GrainId} {scalar : Bool} {vd : Fin 32} {a : Fin 32} {b : Fin 32} {pg : Fin 8} {t : Nat} (hk : Kept P s0 s) :
    KeptO P s0 (execVminF s g scalar vd a b pg t) := by
  unfold execVminF
  try dsimp only
  repeat' first | with_reducible assumption | with_reducible apply State.arith_kept

theorem execVmaxF_kept {P : Part → Prop} [May P .regs_] [May P .lost_] [May P .fab_] [May P .grains_] [May P .inbox_] [May P .led_] {s0 : State} {s : State} {g : GrainId} {scalar : Bool} {vd : Fin 32} {a : Fin 32} {b : Fin 32} {pg : Fin 8} {t : Nat} (hk : Kept P s0 s) :
    KeptO P s0 (execVmaxF s g scalar vd a b pg t) := by
  unfold execVmaxF
  try dsimp only
  repeat' first | with_reducible assumption | with_reducible apply State.arith_kept

theorem execVsqrtF_kept {P : Part → Prop} [May P .regs_] [May P .lost_] [May P .fab_] [May P .grains_] [May P .inbox_] [May P .led_] {s0 : State} {s : State} {g : GrainId} {vd : Fin 32} {a : Fin 32} {pg : Fin 8} {t : Nat} (hk : Kept P s0 s) :
    KeptO P s0 (execVsqrtF s g vd a pg t) := by
  unfold execVsqrtF
  try dsimp only
  repeat' first | with_reducible assumption | with_reducible apply State.arith1_kept

theorem execVabsF_kept {P : Part → Prop} [May P .regs_] [May P .lost_] [May P .fab_] [May P .grains_] [May P .inbox_] [May P .led_] {s0 : State} {s : State} {g : GrainId} {vd : Fin 32} {a : Fin 32} {pg : Fin 8} {t : Nat} (hk : Kept P s0 s) :
    KeptO P s0 (execVabsF s g vd a pg t) := by
  unfold execVabsF
  try dsimp only
  repeat' first | with_reducible assumption | with_reducible apply State.arith1_kept

theorem execVnegF_kept {P : Part → Prop} [May P .regs_] [May P .lost_] [May P .fab_] [May P .grains_] [May P .inbox_] [May P .led_] {s0 : State} {s : State} {g : GrainId} {vd : Fin 32} {a : Fin 32} {pg : Fin 8} {t : Nat} (hk : Kept P s0 s) :
    KeptO P s0 (execVnegF s g vd a pg t) := by
  unfold execVnegF
  try dsimp only
  repeat' first | with_reducible assumption | with_reducible apply State.arith1_kept

theorem execVcvtFI_kept {P : Part → Prop} [May P .regs_] [May P .lost_] [May P .fab_] [May P .grains_] [May P .inbox_] [May P .led_] {s0 : State} {s : State} {g : GrainId} {vd : Fin 32} {a : Fin 32} {pg : Fin 8} {t : Nat} (hk : Kept P s0 s) :
    KeptO P s0 (execVcvtFI s g vd a pg t) := by
  unfold execVcvtFI
  try dsimp only
  repeat' first | with_reducible assumption | with_reducible apply State.arith1_kept

theorem execVcvtIF_kept {P : Part → Prop} [May P .regs_] [May P .lost_] [May P .fab_] [May P .grains_] [May P .inbox_] [May P .led_] {s0 : State} {s : State} {g : GrainId} {vd : Fin 32} {a : Fin 32} {pg : Fin 8} {t : Nat} (hk : Kept P s0 s) :
    KeptO P s0 (execVcvtIF s g vd a pg t) := by
  unfold execVcvtIF
  try dsimp only
  repeat' first | with_reducible assumption | with_reducible apply State.arith1_kept

end Sys2Proof.Machine
end

