-- ==== Sys2Proof/Laws/Kept/Correlator.lean ====
section
/-!
SUPPORT. What the operations of Machine/Correlator.lean keep.
-/

set_option Elab.async false
set_option linter.unusedTactic false
set_option linter.unreachableTactic false

namespace Sys2Proof.Machine

theorem State.setCorrQueue_kept {P : Part → Prop} [May P .regs_] [May P .lost_] [May P .corr_] {s0 : State} {s : State} {b : Nat} {q : List (List Lane)} (hk : Kept P s0 s) :
    Kept P s0 (State.setCorrQueue s b q) := by
  unfold State.setCorrQueue
  try dsimp only
  repeat' first
    | with_reducible assumption
    | with_reducible apply State.wr_kept
    | (with_reducible refine Kept.mk' rfl rfl rfl rfl rfl rfl ?_)

theorem State.corrCount_kept {P : Part → Prop} [May P .regs_] [May P .lost_] {s0 : State} {s : State} {b : Nat} {n : Nat} {f : Fld} (hk : Kept P s0 s) :
    Kept P s0 (State.corrCount s b n f) := by
  unfold State.corrCount
  try dsimp only
  repeat' first | with_reducible assumption | with_reducible apply State.wr_kept

theorem State.corrTry_kept {P : Part → Prop} [May P .regs_] [May P .lost_] [May P .fab_] [May P .grains_] [May P .corr_] {s0 : State} {s : State} {src : Nat} {lanes : List Lane} (hk : Kept P s0 s) :
    Kept P s0 (State.corrTry s src lanes) := by
  unfold State.corrTry
  try dsimp only
  repeat' first
    | with_reducible assumption
    | with_reducible apply State.corrCount_kept
    | with_reducible apply State.setCorrQueue_kept
    | with_reducible apply State.stepOn_kept
    | with_reducible apply State.updGrain_kept
    | with_reducible apply Kept.ite
    | (intro _; try dsimp only)
    | split
    | (with_reducible refine Kept.mk' rfl rfl rfl rfl rfl rfl ?_)
    | rfl

theorem execVcorr_kept {P : Part → Prop} [May P .regs_] [May P .lost_] [May P .fab_] [May P .grains_] [May P .inbox_] [May P .led_] [May P .corr_] {s0 : State} {s : State} {g : GrainId} {rs : Fin 32} {vs1 : Fin 32} {vs2 : Fin 32} {pg : Fin 8} {t : Nat} (hk : Kept P s0 s) :
    KeptO P s0 (execVcorr s g rs vs1 vs2 pg t) := by
  unfold execVcorr
  try dsimp only
  repeat' first
    | with_reducible assumption
    | with_reducible apply State.corrTry_kept
    | with_reducible apply State.issue_kept
    | with_reducible apply KeptO.of_next
    | (intro _; intros; try dsimp only)

theorem State.corrAdd_kept {P : Part → Prop} [May P .mem_] [May P .fab_] {s0 : State} {s : State} {a : Nat} {value : Nat} {factor : Nat} (hk : Kept P s0 s) :
    Kept P s0 (State.corrAdd s a value factor) := by
  unfold State.corrAdd
  try dsimp only
  repeat' first | with_reducible assumption | with_reducible apply State.storeLE_kept

theorem State.corrFreq_kept {P : Part → Prop} [May P .fresh_] [May P .mem_] [May P .fab_] {s0 : State} {s : State} {b : Nat} {l : Lane} {k : Nat} (hk : Kept P s0 s) :
    Kept P s0 (State.corrFreq s b l k) := by
  unfold State.corrFreq
  try dsimp only
  repeat' first
    | with_reducible assumption
    | with_reducible apply State.corrAdd_kept
    | with_reducible apply State.drew_kept

theorem State.corrLane_kept {P : Part → Prop} [May P .fresh_] [May P .mem_] [May P .fab_] {s0 : State} {s : State} {b : Nat} {l : Lane} (hk : Kept P s0 s) :
    Kept P s0 (State.corrLane s b l) := by
  unfold State.corrLane
  try dsimp only
  repeat' first
    | with_reducible assumption
    | with_reducible apply State.corrFreq_kept
    | with_reducible apply State.storeLE_kept
    | with_reducible apply Kept.foldl
    | (intro _; intros; try dsimp only)

theorem State.corrResume_kept {P : Part → Prop} [May P .regs_] [May P .lost_] [May P .fab_] [May P .grains_] [May P .corr_] {s0 : State} {s : State} {b : Nat} (hk : Kept P s0 s) :
    Kept P s0 (State.corrResume s b) := by
  unfold State.corrResume
  try dsimp only
  repeat' first
    | with_reducible assumption
    | with_reducible apply State.corrTry_kept
    | with_reducible apply Kept.foldl
    | (intro _; intros; try dsimp only)
    | split

theorem execCorrLaneAccumulate_kept {P : Part → Prop} [May P .fresh_] [May P .regs_] [May P .lost_] [May P .mem_] [May P .fab_] [May P .grains_] [May P .corr_] {s0 : State} {s : State} {b : Fin 4} {t : Nat} (hk : Kept P s0 s) :
    KeptO P s0 (execCorrLaneAccumulate s b t) := by
  unfold execCorrLaneAccumulate
  try dsimp only
  repeat' first
    | with_reducible assumption
    | with_reducible apply State.at_kept
    | with_reducible apply State.corrLane_kept
    | with_reducible apply State.corrResume_kept
    | with_reducible apply State.setCorrQueue_kept
    | with_reducible apply KeptO.of_next
    | with_reducible apply KeptO.ite
    | with_reducible apply Kept.ite
    | split

theorem execCorrClearDone_kept {P : Part → Prop} [May P .regs_] [May P .lost_] {s0 : State} {s : State} {b : Fin 4} {t : Nat} (hk : Kept P s0 s) :
    KeptO P s0 (execCorrClearDone s b t) := by
  unfold execCorrClearDone
  try dsimp only
  repeat' first
    | with_reducible assumption
    | with_reducible apply State.at_kept
    | with_reducible apply State.wr_kept
    | with_reducible apply KeptO.of_next

end Sys2Proof.Machine
end

