-- ==== Sys2Proof/Laws/Kept/VecMem.lean ====
section
/-!
SUPPORT. What the operations of Machine/VecMem.lean keep.
-/

set_option Elab.async false
set_option linter.unusedTactic false
set_option linter.unreachableTactic false

namespace Sys2Proof.Machine

theorem State.gather_kept {P : Part → Prop} [May P .regs_] [May P .lost_] [May P .fab_] [May P .grains_] [May P .inbox_] [May P .led_] {s0 : State} {s : State} {src : Nat} {vd : Nat} {l : List Nat} {addr : Nat → Nat} (hk : Kept P s0 s) :
    Kept P s0 (State.gather s src vd l addr) := by
  unfold State.gather
  try dsimp only
  repeat' first
    | with_reducible assumption
    | with_reducible apply State.exc_kept
    | with_reducible apply State.putLanes_kept
    | with_reducible apply State.stepOn_kept
    | split

theorem State.laneWrite_kept {P : Part → Prop} [May P .fresh_] [May P .regs_] [May P .lost_] [May P .mem_] [May P .fab_] [May P .grains_] [May P .inbox_] [May P .led_] [May P .lnk_] [May P .swp_] [May P .trip_] [May P .boot_] [May P .gate_] [May P .regu_] [May P .out_] [May P .cur_] [May P .sf_] [May P .can_] [May P .eth_] [May P .sv_] [May P .corr_] [May P .est_] {s0 : State} {s : State} {src : Nat} {a : Nat} {v : Nat} (hk : Kept P s0 s) :
    Kept P s0 (State.laneWrite s src a v) := by
  unfold State.laneWrite
  try dsimp only
  repeat' first
    | with_reducible assumption
    | with_reducible apply State.busStore_kept
    | with_reducible apply State.overlayTouched_kept
    | with_reducible apply State.storeLE_kept
    | with_reducible apply State.updGrain_kept
    | with_reducible apply State.writeError_kept
    | with_reducible apply Kept.ite
    | (with_reducible refine Kept.of_snd ‹_› ?_)
    | (intro _; try dsimp only)
    | split
    | (with_reducible refine Kept.mk' rfl rfl rfl rfl rfl rfl ?_)
    | rfl

theorem State.scatter_kept {P : Part → Prop} [May P .fresh_] [May P .regs_] [May P .lost_] [May P .mem_] [May P .fab_] [May P .grains_] [May P .inbox_] [May P .led_] [May P .lnk_] [May P .swp_] [May P .trip_] [May P .boot_] [May P .gate_] [May P .regu_] [May P .out_] [May P .cur_] [May P .sf_] [May P .can_] [May P .eth_] [May P .sv_] [May P .corr_] [May P .est_] {s0 : State} {s : State} {src : Nat} {vs : Nat} {l : List Nat} {addr : Nat → Nat} (hk : Kept P s0 s) :
    Kept P s0 (State.scatter s src vs l addr) := by
  unfold State.scatter
  try dsimp only
  repeat' first
    | with_reducible assumption
    | with_reducible apply State.exc_kept
    | with_reducible apply State.laneWrite_kept
    | with_reducible apply State.stepOn_kept
    | with_reducible apply Kept.foldl
    | (intro _; intros; try dsimp only)
    | split

theorem State.vmem_kept {P : Part → Prop} [May P .fresh_] [May P .regs_] [May P .lost_] [May P .mem_] [May P .fab_] [May P .grains_] [May P .inbox_] [May P .led_] [May P .lnk_] [May P .swp_] [May P .trip_] [May P .boot_] [May P .gate_] [May P .regu_] [May P .out_] [May P .cur_] [May P .sf_] [May P .can_] [May P .eth_] [May P .sv_] [May P .corr_] [May P .est_] {s0 : State} {s : State} {g : GrainId} {t : Nat} {w : Nat} {vd : Nat} {pg : Nat} {store : Bool} {addr : State → Nat → Nat} (hk : Kept P s0 s) :
    KeptO P s0 (State.vmem s g t w vd pg store addr) := by
  unfold State.vmem
  try dsimp only
  repeat' first
    | with_reducible assumption
    | with_reducible apply State.gather_kept
    | with_reducible apply State.issue_kept
    | with_reducible apply State.scatter_kept
    | with_reducible apply KeptO.of_next
    | with_reducible apply KeptO.ite
    | with_reducible apply Kept.ite
    | (intro _; intros; try dsimp only)

theorem execVld_kept {P : Part → Prop} [May P .fresh_] [May P .regs_] [May P .lost_] [May P .mem_] [May P .fab_] [May P .grains_] [May P .inbox_] [May P .led_] [May P .lnk_] [May P .swp_] [May P .trip_] [May P .boot_] [May P .gate_] [May P .regu_] [May P .out_] [May P .cur_] [May P .sf_] [May P .can_] [May P .eth_] [May P .sv_] [May P .corr_] [May P .est_] {s0 : State} {s : State} {g : GrainId} {vd : Fin 32} {rs1 : Fin 32} {pg : Fin 8} {t : Nat} (hk : Kept P s0 s) :
    KeptO P s0 (execVld s g vd rs1 pg t) := by
  unfold execVld
  try dsimp only
  repeat' first | with_reducible assumption | with_reducible apply State.vmem_kept

theorem execVlds_kept {P : Part → Prop} [May P .fresh_] [May P .regs_] [May P .lost_] [May P .mem_] [May P .fab_] [May P .grains_] [May P .inbox_] [May P .led_] [May P .lnk_] [May P .swp_] [May P .trip_] [May P .boot_] [May P .gate_] [May P .regu_] [May P .out_] [May P .cur_] [May P .sf_] [May P .can_] [May P .eth_] [May P .sv_] [May P .corr_] [May P .est_] {s0 : State} {s : State} {g : GrainId} {vd : Fin 32} {rs1 : Fin 32} {rs2 : Fin 32} {pg : Fin 8} {t : Nat} (hk : Kept P s0 s) :
    KeptO P s0 (execVlds s g vd rs1 rs2 pg t) := by
  unfold execVlds
  try dsimp only
  repeat' first | with_reducible assumption | with_reducible apply State.vmem_kept

theorem execVst_kept {P : Part → Prop} [May P .fresh_] [May P .regs_] [May P .lost_] [May P .mem_] [May P .fab_] [May P .grains_] [May P .inbox_] [May P .led_] [May P .lnk_] [May P .swp_] [May P .trip_] [May P .boot_] [May P .gate_] [May P .regu_] [May P .out_] [May P .cur_] [May P .sf_] [May P .can_] [May P .eth_] [May P .sv_] [May P .corr_] [May P .est_] {s0 : State} {s : State} {g : GrainId} {vs : Fin 32} {rs1 : Fin 32} {pg : Fin 8} {t : Nat} (hk : Kept P s0 s) :
    KeptO P s0 (execVst s g vs rs1 pg t) := by
  unfold execVst
  try dsimp only
  repeat' first | with_reducible assumption | with_reducible apply State.vmem_kept

theorem execVsts_kept {P : Part → Prop} [May P .fresh_] [May P .regs_] [May P .lost_] [May P .mem_] [May P .fab_] [May P .grains_] [May P .inbox_] [May P .led_] [May P .lnk_] [May P .swp_] [May P .trip_] [May P .boot_] [May P .gate_] [May P .regu_] [May P .out_] [May P .cur_] [May P .sf_] [May P .can_] [May P .eth_] [May P .sv_] [May P .corr_] [May P .est_] {s0 : State} {s : State} {g : GrainId} {vs : Fin 32} {rs1 : Fin 32} {rs2 : Fin 32} {pg : Fin 8} {t : Nat} (hk : Kept P s0 s) :
    KeptO P s0 (execVsts s g vs rs1 rs2 pg t) := by
  unfold execVsts
  try dsimp only
  repeat' first | with_reducible assumption | with_reducible apply State.vmem_kept

theorem execVgth_kept {P : Part → Prop} [May P .fresh_] [May P .regs_] [May P .lost_] [May P .mem_] [May P .fab_] [May P .grains_] [May P .inbox_] [May P .led_] [May P .lnk_] [May P .swp_] [May P .trip_] [May P .boot_] [May P .gate_] [May P .regu_] [May P .out_] [May P .cur_] [May P .sf_] [May P .can_] [May P .eth_] [May P .sv_] [May P .corr_] [May P .est_] {s0 : State} {s : State} {g : GrainId} {vd : Fin 32} {rs1 : Fin 32} {vs2 : Fin 32} {pg : Fin 8} {t : Nat} (hk : Kept P s0 s) :
    KeptO P s0 (execVgth s g vd rs1 vs2 pg t) := by
  unfold execVgth
  try dsimp only
  repeat' first | with_reducible assumption | with_reducible apply State.vmem_kept

theorem execVsct_kept {P : Part → Prop} [May P .fresh_] [May P .regs_] [May P .lost_] [May P .mem_] [May P .fab_] [May P .grains_] [May P .inbox_] [May P .led_] [May P .lnk_] [May P .swp_] [May P .trip_] [May P .boot_] [May P .gate_] [May P .regu_] [May P .out_] [May P .cur_] [May P .sf_] [May P .can_] [May P .eth_] [May P .sv_] [May P .corr_] [May P .est_] {s0 : State} {s : State} {g : GrainId} {vs : Fin 32} {rs1 : Fin 32} {vs2 : Fin 32} {pg : Fin 8} {t : Nat} (hk : Kept P s0 s) :
    KeptO P s0 (execVsct s g vs rs1 vs2 pg t) := by
  unfold execVsct
  try dsimp only
  repeat' first | with_reducible assumption | with_reducible apply State.vmem_kept

theorem execVtld_kept {P : Part → Prop} [May P .regs_] [May P .lost_] [May P .fab_] [May P .grains_] [May P .inbox_] [May P .led_] {s0 : State} {s : State} {g : GrainId} {slot : Fin 4} {rs1 : Fin 32} {t : Nat} (hk : Kept P s0 s) :
    KeptO P s0 (execVtld s g slot rs1 t) := by
  unfold execVtld
  try dsimp only
  repeat' first
    | with_reducible assumption
    | with_reducible apply State.exc_kept
    | with_reducible apply State.issue_kept
    | with_reducible apply State.stepOn_kept
    | with_reducible apply State.updGrain_kept
    | with_reducible apply KeptO.of_next
    | with_reducible apply KeptO.ite
    | with_reducible apply Kept.ite
    | (intro _; intros; try dsimp only)
    | split
    | (with_reducible refine Kept.mk' rfl rfl rfl rfl rfl rfl ?_)
    | rfl

theorem execVtab2_kept {P : Part → Prop} [May P .regs_] [May P .lost_] [May P .fab_] [May P .grains_] [May P .inbox_] [May P .led_] {s0 : State} {s : State} {g : GrainId} {slot : Fin 4} {vd : Fin 32} {vs1 : Fin 32} {vs2 : Fin 32} {pg : Fin 8} {t : Nat} (hk : Kept P s0 s) :
    KeptO P s0 (execVtab2 s g slot vd vs1 vs2 pg t) := by
  unfold execVtab2
  try dsimp only
  repeat' first
    | with_reducible assumption
    | with_reducible apply State.exc_kept
    | with_reducible apply State.issue_kept
    | with_reducible apply State.putLanes_kept
    | with_reducible apply State.stepOn_kept
    | with_reducible apply KeptO.of_next
    | with_reducible apply KeptO.ite
    | with_reducible apply Kept.ite
    | (intro _; intros; try dsimp only)
    | split

theorem execVexp_kept {P : Part → Prop} [May P .fresh_] [May P .regs_] [May P .lost_] [May P .fab_] [May P .grains_] [May P .inbox_] [May P .led_] {s0 : State} {s : State} {g : GrainId} {vd : Fin 32} {vs1 : Fin 32} {pg : Fin 8} {t : Nat} (hk : Kept P s0 s) :
    KeptO P s0 (execVexp s g vd vs1 pg t) := by
  unfold execVexp
  try dsimp only
  repeat' first
    | with_reducible assumption
    | with_reducible apply State.drew_kept
    | with_reducible apply State.issue_kept
    | with_reducible apply State.putLanes_kept
    | with_reducible apply State.stepOn_kept
    | with_reducible apply KeptO.of_next
    | (intro _; intros; try dsimp only)

end Sys2Proof.Machine
end

