-- ==== Sys2Proof/Laws/Kept/EstCore.lean ====
section
/-!
SUPPORT. What the operations of Machine/EstCore.lean keep.
-/

set_option Elab.async false
set_option linter.unusedTactic false
set_option linter.unreachableTactic false

namespace Sys2Proof.Machine

theorem State.kStore_kept {P : Part → Prop} [May P .fresh_] [May P .regs_] [May P .lost_] [May P .mem_] [May P .fab_] [May P .grains_] [May P .inbox_] [May P .led_] [May P .lnk_] [May P .swp_] [May P .trip_] [May P .boot_] [May P .gate_] [May P .regu_] [May P .out_] [May P .cur_] [May P .sf_] [May P .can_] [May P .eth_] [May P .sv_] [May P .corr_] [May P .est_] {s0 : State} {s : State} {src : Nat} {a : Nat} {n : Nat} {v : Nat} (hk : Kept P s0 s) :
    Kept P s0 (State.kStore s src a n v) := by
  unfold State.kStore
  try dsimp only
  repeat' first
    | with_reducible assumption
    | with_reducible apply State.busStore_kept
    | with_reducible apply State.overlayTouched_kept
    | with_reducible apply State.storeLE_kept
    | (with_reducible refine Kept.of_snd ‹_› ?_)
    | split

theorem State.kStoreWords_kept {P : Part → Prop} [May P .fresh_] [May P .regs_] [May P .lost_] [May P .mem_] [May P .fab_] [May P .grains_] [May P .inbox_] [May P .led_] [May P .lnk_] [May P .swp_] [May P .trip_] [May P .boot_] [May P .gate_] [May P .regu_] [May P .out_] [May P .cur_] [May P .sf_] [May P .can_] [May P .eth_] [May P .sv_] [May P .corr_] [May P .est_] {s0 : State} {s : State} {src a : Nat} {ws : List Nat} (hk : Kept P s0 s) :
    Kept P s0 (s.kStoreWords src a ws) := by
  unfold State.kStoreWords
  induction ws generalizing s a with
  | nil => exact hk
  | cons w ws ih => exact ih (State.kStore_kept hk)

theorem State.kPrivate_kept {P : Part → Prop} [May P .fresh_] [May P .regs_] [May P .lost_] [May P .mem_] [May P .fab_] [May P .grains_] [May P .inbox_] [May P .led_] [May P .lnk_] [May P .swp_] [May P .trip_] [May P .boot_] [May P .gate_] [May P .regu_] [May P .out_] [May P .cur_] [May P .sf_] [May P .can_] [May P .eth_] [May P .sv_] [May P .corr_] [May P .est_] {s0 : State} {s : State} {src : Nat} {a : Nat} {n : Nat} (hk : Kept P s0 s) :
    Kept P s0 (State.kPrivate s src a n) := by
  unfold State.kPrivate
  try dsimp only
  repeat' first
    | with_reducible assumption
    | with_reducible apply State.drew_kept
    | with_reducible apply State.kStoreWords_kept

theorem State.storeRec_kept {P : Part → Prop} [May P .fresh_] [May P .regs_] [May P .lost_] [May P .mem_] [May P .fab_] [May P .grains_] [May P .inbox_] [May P .led_] [May P .lnk_] [May P .swp_] [May P .trip_] [May P .boot_] [May P .gate_] [May P .regu_] [May P .out_] [May P .cur_] [May P .sf_] [May P .can_] [May P .eth_] [May P .sv_] [May P .corr_] [May P .est_] {s0 : State} {s : State} {src : Nat} {a : Nat} {r : CellRec} (hk : Kept P s0 s) :
    Kept P s0 (State.storeRec s src a r) := by
  unfold State.storeRec
  try dsimp only
  repeat' first
    | with_reducible assumption
    | with_reducible apply State.kPrivate_kept
    | with_reducible apply State.kStoreWords_kept

theorem State.setEstCell_kept {P : Part → Prop} [May P .est_] {s0 : State} {s : State} {a : Nat} {x : EstCell} (hk : Kept P s0 s) :
    Kept P s0 (State.setEstCell s a x) := by
  unfold State.setEstCell
  try dsimp only
  repeat' first | with_reducible assumption | (with_reducible refine Kept.mk' rfl rfl rfl rfl rfl rfl ?_)

theorem State.updHist_kept {P : Part → Prop} [May P .est_] {s0 : State} {s : State} {a : Nat} {f : EstHist → EstHist} (hk : Kept P s0 s) :
    Kept P s0 (State.updHist s a f) := by
  unfold State.updHist
  try dsimp only
  repeat' first | with_reducible assumption | (with_reducible refine Kept.mk' rfl rfl rfl rfl rfl rfl ?_)

theorem State.overlayCopy_kept {P : Part → Prop} [May P .mem_] [May P .fab_] [May P .grains_] {s0 : State} {s : State} {src : Nat} {id : Nat} (hk : Kept P s0 s) :
    Kept P s0 (State.overlayCopy s src id) := by
  unfold State.overlayCopy
  try dsimp only
  repeat' first
    | with_reducible assumption
    | with_reducible apply State.storeBytes_kept
    | with_reducible apply State.updGrain_kept
    | with_reducible apply Kept.ite
    | (intro _; try dsimp only)
    | split
    | (with_reducible refine Kept.mk' rfl rfl rfl rfl rfl rfl ?_)
    | rfl

theorem execKcall_kept {P : Part → Prop} [May P .regs_] [May P .lost_] [May P .mem_] [May P .fab_] [May P .grains_] [May P .inbox_] [May P .led_] {s0 : State} {s : State} {g : GrainId} {rd : Fin 32} {rs1 : Fin 32} {t : Nat} (hk : Kept P s0 s) :
    KeptO P s0 (execKcall s g rd rs1 t) := by
  unfold execKcall
  try dsimp only
  repeat' first
    | with_reducible assumption
    | with_reducible apply State.exc_kept
    | with_reducible apply State.issue_kept
    | with_reducible apply State.overlayCopy_kept
    | with_reducible apply State.retired_kept
    | with_reducible apply State.setG_kept
    | with_reducible apply State.setPc_kept
    | with_reducible apply State.stepOn_kept
    | with_reducible apply State.updGrain_kept
    | with_reducible apply KeptO.of_next
    | with_reducible apply KeptO.ite
    | with_reducible apply Kept.ite
    | (intro _; intros; try dsimp only)
    | split
    | (with_reducible refine Kept.mk' rfl rfl rfl rfl rfl rfl ?_)
    | rfl

theorem State.kernelRegs_kept {P : Part → Prop} [May P .fresh_] [May P .grains_] {s0 : State} {s : State} {src : Nat} (hk : Kept P s0 s) :
    Kept P s0 (State.kernelRegs s src) := by
  unfold State.kernelRegs
  try dsimp only
  repeat' first
    | with_reducible assumption
    | with_reducible apply State.drew_kept
    | with_reducible apply State.setG_kept
    | with_reducible apply State.setLane_kept
    | with_reducible apply State.setPbit_kept
    | with_reducible apply State.updGrain_kept
    | with_reducible apply Kept.foldl
    | (intro _; intros; try dsimp only)
    | (with_reducible refine Kept.mk' rfl rfl rfl rfl rfl rfl ?_)
    | rfl

theorem State.kernelEnd_kept {P : Part → Prop} [May P .fresh_] [May P .fab_] [May P .grains_] [May P .inbox_] {s0 : State} {s : State} {src : Nat} {k : Active} {status : Nat} (hk : Kept P s0 s) :
    Kept P s0 (State.kernelEnd s src k status) := by
  unfold State.kernelEnd
  try dsimp only
  repeat' first
    | with_reducible assumption
    | with_reducible apply State.kernelRegs_kept
    | with_reducible apply State.post_kept
    | with_reducible apply State.retired_kept
    | with_reducible apply State.setG_kept
    | with_reducible apply State.setPc_kept
    | with_reducible apply State.updGrain_kept
    | with_reducible apply Kept.ite
    | (intro _; try dsimp only)
    | split
    | (with_reducible refine Kept.mk' rfl rfl rfl rfl rfl rfl ?_)
    | rfl

theorem State.kernelExc_kept {P : Part → Prop} [May P .fresh_] [May P .regs_] [May P .lost_] [May P .fab_] [May P .grains_] [May P .inbox_] [May P .led_] {s0 : State} {s : State} {src : Nat} {c : Nat} {a : Nat} (hk : Kept P s0 s) :
    Kept P s0 (State.kernelExc s src c a) := by
  unfold State.kernelExc
  try dsimp only
  repeat' first
    | with_reducible assumption
    | with_reducible apply State.drew_kept
    | with_reducible apply State.exc_kept
    | with_reducible apply State.setPc_kept
    | with_reducible apply State.updGrain_kept
    | (intro _; try dsimp only)
    | (with_reducible refine Kept.mk' rfl rfl rfl rfl rfl rfl ?_)
    | rfl

theorem State.kernelLate_kept {P : Part → Prop} [May P .regs_] [May P .lost_] [May P .led_] {s0 : State} {s : State} {src : Nat} {id : Nat} {d : KDesc} (hk : Kept P s0 s) :
    Kept P s0 (State.kernelLate s src id d).2 := by
  unfold State.kernelLate
  try dsimp only
  repeat' first
    | with_reducible assumption
    | with_reducible apply State.hit_kept
    | with_reducible apply State.raise_kept
    | with_reducible apply State.wr_kept
    | with_reducible apply Kept.ite
    | split

theorem State.kernelRun_kept {P : Part → Prop} [May P .fresh_] [May P .regs_] [May P .lost_] [May P .fab_] [May P .grains_] [May P .inbox_] [May P .led_] {s0 : State} {s : State} {g : GrainId} {t : Nat} {id : Nat} {form : KDesc → Bool} {limit : Nat} {areas : State → KDesc → List (Access × Nat × Nat)} {pre : State → KDesc → Option Nat} {body : State → Nat → KDesc → Nat × State} (hbody : ∀ s x1 x2, Kept P s0 s → Kept P s0 (body s x1 x2).2) (hk : Kept P s0 s) :
    KeptO P s0 (State.kernelRun s g t id form limit areas pre body) := by
  unfold State.kernelRun
  try dsimp only
  repeat' first
    | with_reducible assumption
    | with_reducible apply State.at_kept
    | with_reducible apply State.kernelEnd_kept
    | with_reducible apply State.kernelExc_kept
    | with_reducible apply State.kernelLate_kept
    | with_reducible apply State.raise_kept
    | with_reducible apply KeptO.of_next
    | with_reducible apply KeptO.ite
    | with_reducible apply Kept.ite
    | (with_reducible refine Kept.of_snd ‹_› ?_)
    | split
    | with_reducible apply hbody

end Sys2Proof.Machine
end

