-- ==== Sys2Proof/Laws/Kept/EstFilter.lean ====
section
/-!
SUPPORT. What the operations of Machine/EstFilter.lean keep.
-/

set_option Elab.async false
set_option linter.unusedTactic false
set_option linter.unreachableTactic false

namespace Sys2Proof.Machine

theorem State.calCall_kept {P : Part → Prop} [May P .lost_] [May P .led_] [May P .est_] {s0 : State} {s : State} {a : Nat} {r : Nat} (hk : Kept P s0 s) :
    Kept P s0 (State.calCall s a r) := by
  unfold State.calCall
  try dsimp only
  repeat' first
    | with_reducible assumption
    | with_reducible apply State.raise_kept
    | with_reducible apply Kept.ite
    | split
    | (with_reducible refine Kept.mk' rfl rfl rfl rfl rfl rfl ?_)

theorem State.filterItem_kept {P : Part → Prop} [May P .fresh_] [May P .regs_] [May P .lost_] [May P .mem_] [May P .fab_] [May P .grains_] [May P .inbox_] [May P .led_] [May P .lnk_] [May P .swp_] [May P .trip_] [May P .boot_] [May P .gate_] [May P .regu_] [May P .out_] [May P .cur_] [May P .sf_] [May P .can_] [May P .eth_] [May P .sv_] [May P .corr_] [May P .est_] {s0 : State} {s : State} {src : Nat} {d : KDesc} {pm : Nat → Nat} {im : Img} {acc : FilterAcc} {j : Nat} (hk : Kept P s0 s) :
    Kept P s0 (State.filterItem s src d pm im acc j).1 := by
  delta State.filterItem
  lift_lets
  intro m c a r0 x0 f pick s1 t now st code v vok xs cur s2
  have h2 : Kept P s0 s2 := Kept.ite (State.raise_kept (State.hit_kept (State.drew_kept hk))) (State.drew_kept hk)
  intro mA i tc ha h last c1 c0 dU dt noCur acc x x began s3
  have h3 : Kept P s0 s3 := Kept.ite (State.updHist_kept h2) h2
  clear_value s3
  intro near x finish
  have hf : ∀ s r x acc, Kept P s0 s → Kept P s0 (finish s r x acc).1 := fun s r x acc h =>
    State.setEstCell_kept (State.storeRec_kept h)
  clear_value finish
  intros
  split
  · split
    · exact hf _ _ _ _ (Kept.ite (State.raise_kept h3) h3)
    · exact hf _ _ _ _ h3
  · split
    · exact hf _ _ _ _ (Kept.ite (State.calCall_kept h3) h3)
    · split
      · exact hf _ _ _ _ (State.updHist_kept (State.raise_kept h3))
      · refine hf _ _ _ _ (Kept.ite (State.calCall_kept ?_) ?_) <;> exact Kept.ite (State.raise_kept h3) h3

theorem State.anchorEvents_kept {P : Part → Prop} [May P .lost_] [May P .led_] {s0 : State} {s : State} {src : Nat} {l : List (Nat × Nat)} (hk : Kept P s0 s) :
    Kept P s0 (State.anchorEvents s src l) := by
  unfold State.anchorEvents
  try dsimp only
  repeat' first
    | with_reducible assumption
    | with_reducible apply State.raise_kept
    | with_reducible apply Kept.foldl
    | with_reducible apply Kept.ite
    | (intro _; intros; try dsimp only)

theorem State.calEnd_kept {P : Part → Prop} [May P .est_] {s0 : State} {s : State} {src : Nat} {d : KDesc} (hk : Kept P s0 s) :
    Kept P s0 (State.calEnd s src d) := by
  unfold State.calEnd
  try dsimp only
  repeat' first
    | with_reducible assumption
    | with_reducible apply Kept.foldl
    | with_reducible apply Kept.ite
    | (intro _; intros; try dsimp only)
    | split
    | (with_reducible refine Kept.mk' rfl rfl rfl rfl rfl rfl ?_)

theorem execKernelCellStateFilter_kept {P : Part → Prop} [May P .fresh_] [May P .regs_] [May P .lost_] [May P .mem_] [May P .fab_] [May P .grains_] [May P .inbox_] [May P .led_] [May P .lnk_] [May P .swp_] [May P .trip_] [May P .boot_] [May P .gate_] [May P .regu_] [May P .out_] [May P .cur_] [May P .sf_] [May P .can_] [May P .eth_] [May P .sv_] [May P .corr_] [May P .est_] {s0 : State} {s : State} {g : GrainId} {t : Nat} (hk : Kept P s0 s) :
    KeptO P s0 (execKernelCellStateFilter s g t) := by
  have fold : ∀ (f : State × FilterAcc → Nat → State × FilterAcc) (hf : ∀ p j, Kept P s0 p.1 → Kept P s0 (f p j).1)
      (l : List Nat) (p : State × FilterAcc), Kept P s0 p.1 → Kept P s0 (l.foldl f p).1 := by
    intro f hf l
    induction l with
    | nil => exact fun _ k => k
    | cons j l ih => exact fun p k => ih _ (hf p j k)
  have tagged : ∀ {s : State} {t : Tab (Option Nat)}, Kept P s0 s → Kept P s0 { s with est := { s.est with tags := t } } :=
    fun k => Kept.mk' rfl rfl rfl rfl rfl rfl k
  unfold execKernelCellStateFilter
  refine State.kernelRun_kept (fun s src d k => ?_) hk
  exact tagged (State.calEnd_kept (State.anchorEvents_kept (fold _ (fun p j k => State.filterItem_kept k) _ _ k)))

end Sys2Proof.Machine
end

