-- ==== Sys2Proof/Laws/Kept/EstLearn.lean ====
section
/-!
SUPPORT. What the operations of Machine/EstLearn.lean keep.
-/

set_option Elab.async false
set_option linter.unusedTactic false
set_option linter.unreachableTactic false

namespace Sys2Proof.Machine

theorem State.eachItem_kept {P : Part → Prop} {s0 : State} {s : State} {src : Nat} {d : KDesc} {base : Nat} {f : State → Nat → Item → State} (hf : ∀ s x1 x2, Kept P s0 s → Kept P s0 (f s x1 x2)) (hk : Kept P s0 s) :
    Kept P s0 (State.eachItem s src d base f) := by
  unfold State.eachItem
  try dsimp only
  repeat' first
    | with_reducible assumption
    | with_reducible apply Kept.foldl
    | (intro _; intros; try dsimp only)
    | with_reducible apply hf

theorem State.capacityItem_kept {P : Part → Prop} [May P .fresh_] [May P .regs_] [May P .lost_] [May P .mem_] [May P .fab_] [May P .grains_] [May P .inbox_] [May P .led_] [May P .lnk_] [May P .swp_] [May P .trip_] [May P .boot_] [May P .gate_] [May P .regu_] [May P .out_] [May P .cur_] [May P .sf_] [May P .can_] [May P .eth_] [May P .sv_] [May P .corr_] [May P .est_] {s0 : State} {src : Nat} {d : KDesc} {pm : Nat → Nat} {s : State} {j : Nat} {it : Item} (hk : Kept P s0 s) :
    Kept P s0 (State.capacityItem src d pm s j it) := by
  unfold State.capacityItem
  try dsimp only
  repeat' first
    | with_reducible assumption
    | with_reducible apply State.kPrivate_kept
    | with_reducible apply State.raise_kept
    | with_reducible apply State.setEstCell_kept
    | with_reducible apply State.storeRec_kept
    | with_reducible apply Kept.ite
    | split

theorem execKernelCapacity_kept {P : Part → Prop} [May P .fresh_] [May P .regs_] [May P .lost_] [May P .mem_] [May P .fab_] [May P .grains_] [May P .inbox_] [May P .led_] [May P .lnk_] [May P .swp_] [May P .trip_] [May P .boot_] [May P .gate_] [May P .regu_] [May P .out_] [May P .cur_] [May P .sf_] [May P .can_] [May P .eth_] [May P .sv_] [May P .corr_] [May P .est_] {s0 : State} {s : State} {g : GrainId} {t : Nat} (hk : Kept P s0 s) :
    KeptO P s0 (execKernelCapacity s g t) := by
  unfold execKernelCapacity
  try dsimp only
  repeat' first
    | with_reducible assumption
    | with_reducible apply State.capacityItem_kept
    | with_reducible apply State.eachItem_kept
    | with_reducible apply State.kernelRun_kept
    | with_reducible apply KeptO.of_next
    | (intro _; intros; try dsimp only)

theorem State.resistanceItem_kept {P : Part → Prop} [May P .fresh_] [May P .regs_] [May P .lost_] [May P .mem_] [May P .fab_] [May P .grains_] [May P .inbox_] [May P .led_] [May P .lnk_] [May P .swp_] [May P .trip_] [May P .boot_] [May P .gate_] [May P .regu_] [May P .out_] [May P .cur_] [May P .sf_] [May P .can_] [May P .eth_] [May P .sv_] [May P .corr_] [May P .est_] {s0 : State} {src : Nat} {d : KDesc} {pm : Nat → Nat} {tag : Nat} {s : State} {j : Nat} {it : Item} (hk : Kept P s0 s) :
    Kept P s0 (State.resistanceItem src d pm tag s j it) := by
  unfold State.resistanceItem
  try dsimp only
  repeat' first
    | with_reducible assumption
    | with_reducible apply State.kPrivate_kept
    | with_reducible apply State.setEstCell_kept
    | with_reducible apply State.storeRec_kept

theorem execKernelResistance_kept {P : Part → Prop} [May P .fresh_] [May P .regs_] [May P .lost_] [May P .mem_] [May P .fab_] [May P .grains_] [May P .inbox_] [May P .led_] [May P .lnk_] [May P .swp_] [May P .trip_] [May P .boot_] [May P .gate_] [May P .regu_] [May P .out_] [May P .cur_] [May P .sf_] [May P .can_] [May P .eth_] [May P .sv_] [May P .corr_] [May P .est_] {s0 : State} {s : State} {g : GrainId} {t : Nat} (hk : Kept P s0 s) :
    KeptO P s0 (execKernelResistance s g t) := by
  unfold execKernelResistance
  try dsimp only
  repeat' first
    | with_reducible assumption
    | with_reducible apply State.eachItem_kept
    | with_reducible apply State.kernelRun_kept
    | with_reducible apply State.resistanceItem_kept
    | with_reducible apply KeptO.of_next
    | (intro _; intros; try dsimp only)

theorem State.tintItem_kept {P : Part → Prop} [May P .fresh_] [May P .regs_] [May P .lost_] [May P .mem_] [May P .fab_] [May P .grains_] [May P .inbox_] [May P .led_] [May P .lnk_] [May P .swp_] [May P .trip_] [May P .boot_] [May P .gate_] [May P .regu_] [May P .out_] [May P .cur_] [May P .sf_] [May P .can_] [May P .eth_] [May P .sv_] [May P .corr_] [May P .est_] {s0 : State} {src : Nat} {d : KDesc} {pm : Nat → Nat} {s : State} {j : Nat} {it : Item} (hk : Kept P s0 s) :
    Kept P s0 (State.tintItem src d pm s j it) := by
  unfold State.tintItem
  try dsimp only
  repeat' first
    | with_reducible assumption
    | with_reducible apply State.kPrivate_kept
    | with_reducible apply State.raise_kept
    | with_reducible apply State.setEstCell_kept
    | with_reducible apply State.storeRec_kept
    | with_reducible apply Kept.ite

theorem execKernelInternalTemperature_kept {P : Part → Prop} [May P .fresh_] [May P .regs_] [May P .lost_] [May P .mem_] [May P .fab_] [May P .grains_] [May P .inbox_] [May P .led_] [May P .lnk_] [May P .swp_] [May P .trip_] [May P .boot_] [May P .gate_] [May P .regu_] [May P .out_] [May P .cur_] [May P .sf_] [May P .can_] [May P .eth_] [May P .sv_] [May P .corr_] [May P .est_] {s0 : State} {s : State} {g : GrainId} {t : Nat} (hk : Kept P s0 s) :
    KeptO P s0 (execKernelInternalTemperature s g t) := by
  unfold execKernelInternalTemperature
  try dsimp only
  repeat' first
    | with_reducible assumption
    | with_reducible apply State.eachItem_kept
    | with_reducible apply State.kernelRun_kept
    | with_reducible apply State.tintItem_kept
    | with_reducible apply KeptO.of_next
    | (intro _; intros; try dsimp only)

theorem State.sdItem_kept {P : Part → Prop} [May P .fresh_] [May P .regs_] [May P .lost_] [May P .mem_] [May P .fab_] [May P .grains_] [May P .inbox_] [May P .led_] [May P .lnk_] [May P .swp_] [May P .trip_] [May P .boot_] [May P .gate_] [May P .regu_] [May P .out_] [May P .cur_] [May P .sf_] [May P .can_] [May P .eth_] [May P .sv_] [May P .corr_] [May P .est_] {s0 : State} {src : Nat} {d : KDesc} {pm : Nat → Nat} {med : Nat → Nat} {s : State} {j : Nat} {it : Item} (hk : Kept P s0 s) :
    Kept P s0 (State.sdItem src d pm med s j it) := by
  unfold State.sdItem
  try dsimp only
  repeat' first
    | with_reducible assumption
    | with_reducible apply State.kPrivate_kept
    | with_reducible apply State.raise_kept
    | with_reducible apply State.setEstCell_kept
    | with_reducible apply State.storeRec_kept
    | with_reducible apply Kept.ite
    | split

theorem execKernelSelfDischarge_kept {P : Part → Prop} [May P .fresh_] [May P .regs_] [May P .lost_] [May P .mem_] [May P .fab_] [May P .grains_] [May P .inbox_] [May P .led_] [May P .lnk_] [May P .swp_] [May P .trip_] [May P .boot_] [May P .gate_] [May P .regu_] [May P .out_] [May P .cur_] [May P .sf_] [May P .can_] [May P .eth_] [May P .sv_] [May P .corr_] [May P .est_] {s0 : State} {s : State} {g : GrainId} {t : Nat} (hk : Kept P s0 s) :
    KeptO P s0 (execKernelSelfDischarge s g t) := by
  unfold execKernelSelfDischarge
  try dsimp only
  repeat' first
    | with_reducible assumption
    | with_reducible apply State.eachItem_kept
    | with_reducible apply State.kernelRun_kept
    | with_reducible apply State.sdItem_kept
    | with_reducible apply KeptO.of_next
    | with_reducible apply KeptO.ite
    | with_reducible apply Kept.ite
    | (intro _; intros; try dsimp only)

end Sys2Proof.Machine
end

