-- ==== Sys2Proof/Laws/Kept/EstLimits.lean ====
section
/-!
SUPPORT. What the operations of Machine/EstLimits.lean keep.
-/

set_option Elab.async false
set_option linter.unusedTactic false
set_option linter.unreachableTactic false

namespace Sys2Proof.Machine

theorem State.powerItem_kept {P : Part → Prop} [May P .fresh_] [May P .regs_] [May P .lost_] [May P .mem_] [May P .fab_] [May P .grains_] [May P .inbox_] [May P .led_] [May P .lnk_] [May P .swp_] [May P .trip_] [May P .boot_] [May P .gate_] [May P .regu_] [May P .out_] [May P .cur_] [May P .sf_] [May P .can_] [May P .eth_] [May P .sv_] [May P .corr_] [May P .est_] {s0 : State} {src : Nat} {d : KDesc} {s : State} {j : Nat} {it : Item} (hk : Kept P s0 s) :
    Kept P s0 (State.powerItem src d s j it) := by
  unfold State.powerItem
  try dsimp only
  repeat' first
    | with_reducible assumption
    | with_reducible apply State.drew_kept
    | with_reducible apply State.kStoreWords_kept

theorem execKernelPowerLimits_kept {P : Part → Prop} [May P .fresh_] [May P .regs_] [May P .lost_] [May P .mem_] [May P .fab_] [May P .grains_] [May P .inbox_] [May P .led_] [May P .lnk_] [May P .swp_] [May P .trip_] [May P .boot_] [May P .gate_] [May P .regu_] [May P .out_] [May P .cur_] [May P .sf_] [May P .can_] [May P .eth_] [May P .sv_] [May P .corr_] [May P .est_] {s0 : State} {s : State} {g : GrainId} {t : Nat} (hk : Kept P s0 s) :
    KeptO P s0 (execKernelPowerLimits s g t) := by
  unfold execKernelPowerLimits
  try dsimp only
  repeat' first
    | with_reducible assumption
    | with_reducible apply State.eachItem_kept
    | with_reducible apply State.kernelRun_kept
    | with_reducible apply State.powerItem_kept
    | with_reducible apply KeptO.of_next
    | (intro _; intros; try dsimp only)

theorem execKernelImpedance_kept {P : Part → Prop} [May P .fresh_] [May P .regs_] [May P .lost_] [May P .mem_] [May P .fab_] [May P .grains_] [May P .inbox_] [May P .led_] [May P .lnk_] [May P .swp_] [May P .trip_] [May P .boot_] [May P .gate_] [May P .regu_] [May P .out_] [May P .cur_] [May P .sf_] [May P .can_] [May P .eth_] [May P .sv_] [May P .corr_] [May P .est_] {s0 : State} {s : State} {g : GrainId} {t : Nat} (hk : Kept P s0 s) :
    KeptO P s0 (execKernelImpedance s g t) := by
  unfold execKernelImpedance
  try dsimp only
  repeat' first
    | with_reducible assumption
    | with_reducible apply State.kStoreWords_kept
    | with_reducible apply State.kernelRun_kept
    | with_reducible apply KeptO.of_next
    | with_reducible apply Kept.foldl
    | with_reducible apply KeptO.ite
    | with_reducible apply Kept.ite
    | (intro _; intros; try dsimp only)
    | split
    | (with_reducible refine Kept.mk' rfl rfl rfl rfl rfl rfl ?_)

end Sys2Proof.Machine
end

