-- ==== Sys2Proof/Laws/Kept/EstAggr.lean ====
section
/-!
SUPPORT. What the operations of Machine/EstAggr.lean keep.
-/

set_option Elab.async false
set_option linter.unusedTactic false
set_option linter.unreachableTactic false

namespace Sys2Proof.Machine

theorem execKernelAggregationPartial_kept {P : Part → Prop} [May P .fresh_] [May P .regs_] [May P .lost_] [May P .mem_] [May P .fab_] [May P .grains_] [May P .inbox_] [May P .led_] [May P .lnk_] [May P .swp_] [May P .trip_] [May P .boot_] [May P .gate_] [May P .regu_] [May P .out_] [May P .cur_] [May P .sf_] [May P .can_] [May P .eth_] [May P .sv_] [May P .corr_] [May P .est_] {s0 : State} {s : State} {g : GrainId} {t : Nat} (hk : Kept P s0 s) :
    KeptO P s0 (execKernelAggregationPartial s g t) := by
  unfold execKernelAggregationPartial
  try dsimp only
  repeat' first
    | with_reducible assumption
    | with_reducible apply State.drew_kept
    | with_reducible apply State.kPrivate_kept
    | with_reducible apply State.kernelRun_kept
    | with_reducible apply KeptO.of_next
    | with_reducible apply Kept.foldl
    | (intro _; intros; try dsimp only)
    | (with_reducible refine Kept.mk' rfl rfl rfl rfl rfl rfl ?_)

theorem State.histString_kept {P : Part → Prop} [May P .est_] {s0 : State} {s : State} {a : Nat} {r : Nat} (hk : Kept P s0 s) :
    Kept P s0 (State.histString s a r) := by
  unfold State.histString
  try dsimp only
  repeat' first
    | with_reducible assumption
    | with_reducible apply State.updHist_kept
    | with_reducible apply Kept.ite
    | split

theorem State.secondsOf_kept {P : Part → Prop} [May P .est_] {s0 : State} {s : State} {a : Nat} {x : Nat} (hk : Kept P s0 s) :
    Kept P s0 (State.secondsOf s a x) := by
  unfold State.secondsOf
  try dsimp only
  repeat' first | with_reducible assumption | with_reducible apply State.updHist_kept

theorem State.pathCheck_kept {P : Part → Prop} [May P .lost_] [May P .led_] [May P .est_] {s0 : State} {s : State} {src : Nat} {a : Nat} {pm : Nat → Nat} {r : Nat} (hk : Kept P s0 s) :
    Kept P s0 (State.pathCheck s src a pm r) := by
  unfold State.pathCheck
  try dsimp only
  repeat' first
    | with_reducible assumption
    | with_reducible apply State.raise_kept
    | with_reducible apply State.secondsOf_kept
    | with_reducible apply State.updHist_kept
    | with_reducible apply Kept.ite
    | split

theorem State.kWrite_kept {P : Part → Prop} [May P .fresh_] [May P .regs_] [May P .lost_] [May P .mem_] [May P .fab_] [May P .grains_] [May P .inbox_] [May P .led_] [May P .lnk_] [May P .swp_] [May P .trip_] [May P .boot_] [May P .gate_] [May P .regu_] [May P .out_] [May P .cur_] [May P .sf_] [May P .can_] [May P .eth_] [May P .sv_] [May P .corr_] [May P .est_] {s0 : State} {s : State} {src : Nat} {a : Nat} {v : Nat} (hk : Kept P s0 s) :
    Kept P s0 (State.kWrite s src a v) := by
  unfold State.kWrite
  try dsimp only
  repeat' first | with_reducible assumption | with_reducible apply State.busStore_kept

theorem State.writeLimits_kept {P : Part → Prop} [May P .fresh_] [May P .regs_] [May P .lost_] [May P .mem_] [May P .fab_] [May P .grains_] [May P .inbox_] [May P .led_] [May P .lnk_] [May P .swp_] [May P .trip_] [May P .boot_] [May P .gate_] [May P .regu_] [May P .out_] [May P .cur_] [May P .sf_] [May P .can_] [May P .eth_] [May P .sv_] [May P .corr_] [May P .est_] {s0 : State} {s : State} {src : Nat} {pm : Nat → Nat} {r : Nat} {x : EstPart} (hk : Kept P s0 s) :
    Kept P s0 (State.writeLimits s src pm r x) := by
  unfold State.writeLimits
  try dsimp only
  repeat' first | with_reducible assumption | with_reducible apply State.kWrite_kept

theorem State.aggregate_kept {P : Part → Prop} [May P .fresh_] [May P .regs_] [May P .lost_] [May P .mem_] [May P .fab_] [May P .grains_] [May P .inbox_] [May P .led_] [May P .lnk_] [May P .swp_] [May P .trip_] [May P .boot_] [May P .gate_] [May P .regu_] [May P .out_] [May P .cur_] [May P .sf_] [May P .can_] [May P .eth_] [May P .sv_] [May P .corr_] [May P .est_] {s0 : State} {s : State} {src : Nat} {d : KDesc} (hk : Kept P s0 s) :
    Kept P s0 (State.aggregate s src d) := by
  unfold State.aggregate
  try dsimp only
  repeat' first
    | with_reducible assumption
    | with_reducible apply State.drew_kept
    | with_reducible apply State.histString_kept
    | with_reducible apply State.kPrivate_kept
    | with_reducible apply State.kStoreWords_kept
    | with_reducible apply State.kWrite_kept
    | with_reducible apply State.pathCheck_kept
    | with_reducible apply State.updHist_kept
    | with_reducible apply State.writeLimits_kept
    | with_reducible apply Kept.foldl
    | with_reducible apply Kept.ite
    | (intro _; intros; try dsimp only)

theorem execKernelAggregationFinal_kept {P : Part → Prop} [May P .fresh_] [May P .regs_] [May P .lost_] [May P .mem_] [May P .fab_] [May P .grains_] [May P .inbox_] [May P .led_] [May P .lnk_] [May P .swp_] [May P .trip_] [May P .boot_] [May P .gate_] [May P .regu_] [May P .out_] [May P .cur_] [May P .sf_] [May P .can_] [May P .eth_] [May P .sv_] [May P .corr_] [May P .est_] {s0 : State} {s : State} {g : GrainId} {t : Nat} (hk : Kept P s0 s) :
    KeptO P s0 (execKernelAggregationFinal s g t) := by
  unfold execKernelAggregationFinal
  try dsimp only
  repeat' first
    | with_reducible assumption
    | with_reducible apply State.aggregate_kept
    | with_reducible apply State.kernelRun_kept

end Sys2Proof.Machine
end

