-- ==== Sys2Proof/Laws/Kept/FloatOps.lean ====
section
/-!
SUPPORT. What the operations of Machine/FloatOps.lean keep.
-/

set_option Elab.async false
set_option linter.unusedTactic false
set_option linter.unreachableTactic false

namespace Sys2Proof.Machine

theorem State.fRaise_kept {P : Part → Prop} [May P .grains_] {s0 : State} {s : State} {src : Nat} {fl : Flags} (hk : Kept P s0 s) :
    Kept P s0 (State.fRaise s src fl) := by
  unfold State.fRaise
  try dsimp only
  repeat' first
    | with_reducible assumption
    | with_reducible apply State.updGrain_kept
    | (intro _; try dsimp only)
    | (with_reducible refine Kept.mk' rfl rfl rfl rfl rfl rfl ?_)
    | rfl

theorem State.fpF_kept {P : Part → Prop} [May P .regs_] [May P .lost_] [May P .fab_] [May P .grains_] [May P .inbox_] [May P .led_] {s0 : State} {s : State} {g : GrainId} {rd : Nat} {t : Nat} {w : Nat} {f : State → FRes} (hk : Kept P s0 s) :
    KeptO P s0 (State.fpF s g rd t w f) := by
  unfold State.fpF
  try dsimp only
  repeat' first
    | with_reducible assumption
    | with_reducible apply State.fRaise_kept
    | with_reducible apply State.issue_kept
    | with_reducible apply State.setF_kept
    | with_reducible apply State.stepOn_kept
    | with_reducible apply KeptO.of_next
    | (intro _; intros; try dsimp only)

theorem State.fpG_kept {P : Part → Prop} [May P .regs_] [May P .lost_] [May P .fab_] [May P .grains_] [May P .inbox_] [May P .led_] {s0 : State} {s : State} {g : GrainId} {rd : Nat} {t : Nat} {w : Nat} {f : State → FRes} (hk : Kept P s0 s) :
    KeptO P s0 (State.fpG s g rd t w f) := by
  unfold State.fpG
  try dsimp only
  repeat' first
    | with_reducible assumption
    | with_reducible apply State.fRaise_kept
    | with_reducible apply State.issue_kept
    | with_reducible apply State.setG_kept
    | with_reducible apply State.stepOn_kept
    | with_reducible apply KeptO.of_next
    | (intro _; intros; try dsimp only)

theorem execFadd_kept {P : Part → Prop} [May P .regs_] [May P .lost_] [May P .fab_] [May P .grains_] [May P .inbox_] [May P .led_] {s0 : State} {s : State} {g : GrainId} {p : Bool} {rd : Fin 32} {rs1 : Fin 32} {rs2 : Fin 32} {t : Nat} (hk : Kept P s0 s) :
    KeptO P s0 (execFadd s g p rd rs1 rs2 t) := by
  unfold execFadd
  try dsimp only
  repeat' first | with_reducible assumption | with_reducible apply State.fpF_kept

theorem execFsub_kept {P : Part → Prop} [May P .regs_] [May P .lost_] [May P .fab_] [May P .grains_] [May P .inbox_] [May P .led_] {s0 : State} {s : State} {g : GrainId} {p : Bool} {rd : Fin 32} {rs1 : Fin 32} {rs2 : Fin 32} {t : Nat} (hk : Kept P s0 s) :
    KeptO P s0 (execFsub s g p rd rs1 rs2 t) := by
  unfold execFsub
  try dsimp only
  repeat' first | with_reducible assumption | with_reducible apply State.fpF_kept

theorem execFmul_kept {P : Part → Prop} [May P .regs_] [May P .lost_] [May P .fab_] [May P .grains_] [May P .inbox_] [May P .led_] {s0 : State} {s : State} {g : GrainId} {p : Bool} {rd : Fin 32} {rs1 : Fin 32} {rs2 : Fin 32} {t : Nat} (hk : Kept P s0 s) :
    KeptO P s0 (execFmul s g p rd rs1 rs2 t) := by
  unfold execFmul
  try dsimp only
  repeat' first | with_reducible assumption | with_reducible apply State.fpF_kept

theorem execFdiv_kept {P : Part → Prop} [May P .regs_] [May P .lost_] [May P .fab_] [May P .grains_] [May P .inbox_] [May P .led_] {s0 : State} {s : State} {g : GrainId} {p : Bool} {rd : Fin 32} {rs1 : Fin 32} {rs2 : Fin 32} {t : Nat} (hk : Kept P s0 s) :
    KeptO P s0 (execFdiv s g p rd rs1 rs2 t) := by
  unfold execFdiv
  try dsimp only
  repeat' first | with_reducible assumption | with_reducible apply State.fpF_kept

theorem execFsqrt_kept {P : Part → Prop} [May P .regs_] [May P .lost_] [May P .fab_] [May P .grains_] [May P .inbox_] [May P .led_] {s0 : State} {s : State} {g : GrainId} {p : Bool} {rd : Fin 32} {rs1 : Fin 32} {t : Nat} (hk : Kept P s0 s) :
    KeptO P s0 (execFsqrt s g p rd rs1 t) := by
  unfold execFsqrt
  try dsimp only
  repeat' first | with_reducible assumption | with_reducible apply State.fpF_kept

theorem State.fused_kept {P : Part → Prop} [May P .fresh_] [May P .regs_] [May P .lost_] [May P .fab_] [May P .grains_] [May P .inbox_] [May P .led_] {s0 : State} {s : State} {g : GrainId} {p : Bool} {rd : Nat} {t : Nat} {w : Nat} {f : State → Nat × Nat × Nat} (hk : Kept P s0 s) :
    KeptO P s0 (State.fused s g p rd t w f) := by
  unfold State.fused
  try dsimp only
  repeat' first
    | with_reducible assumption
    | with_reducible apply State.drew_kept
    | with_reducible apply State.fRaise_kept
    | with_reducible apply State.issue_kept
    | with_reducible apply State.setF_kept
    | with_reducible apply State.stepOn_kept
    | with_reducible apply KeptO.of_next
    | (intro _; intros; try dsimp only)

theorem execFmla_kept {P : Part → Prop} [May P .fresh_] [May P .regs_] [May P .lost_] [May P .fab_] [May P .grains_] [May P .inbox_] [May P .led_] {s0 : State} {s : State} {g : GrainId} {p : Bool} {rd : Fin 32} {rs1 : Fin 32} {rs2 : Fin 32} {rs3 : Fin 32} {t : Nat} (hk : Kept P s0 s) :
    KeptO P s0 (execFmla s g p rd rs1 rs2 rs3 t) := by
  unfold execFmla
  try dsimp only
  repeat' first | with_reducible assumption | with_reducible apply State.fused_kept

theorem execFmls_kept {P : Part → Prop} [May P .fresh_] [May P .regs_] [May P .lost_] [May P .fab_] [May P .grains_] [May P .inbox_] [May P .led_] {s0 : State} {s : State} {g : GrainId} {p : Bool} {rd : Fin 32} {rs1 : Fin 32} {rs2 : Fin 32} {rs3 : Fin 32} {t : Nat} (hk : Kept P s0 s) :
    KeptO P s0 (execFmls s g p rd rs1 rs2 rs3 t) := by
  unfold execFmls
  try dsimp only
  repeat' first | with_reducible assumption | with_reducible apply State.fused_kept

theorem execFmnl_kept {P : Part → Prop} [May P .fresh_] [May P .regs_] [May P .lost_] [May P .fab_] [May P .grains_] [May P .inbox_] [May P .led_] {s0 : State} {s : State} {g : GrainId} {p : Bool} {rd : Fin 32} {rs1 : Fin 32} {rs2 : Fin 32} {rs3 : Fin 32} {t : Nat} (hk : Kept P s0 s) :
    KeptO P s0 (execFmnl s g p rd rs1 rs2 rs3 t) := by
  unfold execFmnl
  try dsimp only
  repeat' first | with_reducible assumption | with_reducible apply State.fused_kept

theorem execFmin_kept {P : Part → Prop} [May P .regs_] [May P .lost_] [May P .fab_] [May P .grains_] [May P .inbox_] [May P .led_] {s0 : State} {s : State} {g : GrainId} {p : Bool} {rd : Fin 32} {rs1 : Fin 32} {rs2 : Fin 32} {t : Nat} (hk : Kept P s0 s) :
    KeptO P s0 (execFmin s g p rd rs1 rs2 t) := by
  unfold execFmin
  try dsimp only
  repeat' first | with_reducible assumption | with_reducible apply State.fpF_kept

theorem execFmax_kept {P : Part → Prop} [May P .regs_] [May P .lost_] [May P .fab_] [May P .grains_] [May P .inbox_] [May P .led_] {s0 : State} {s : State} {g : GrainId} {p : Bool} {rd : Fin 32} {rs1 : Fin 32} {rs2 : Fin 32} {t : Nat} (hk : Kept P s0 s) :
    KeptO P s0 (execFmax s g p rd rs1 rs2 t) := by
  unfold execFmax
  try dsimp only
  repeat' first | with_reducible assumption | with_reducible apply State.fpF_kept

theorem execFabs_kept {P : Part → Prop} [May P .regs_] [May P .lost_] [May P .fab_] [May P .grains_] [May P .inbox_] [May P .led_] {s0 : State} {s : State} {g : GrainId} {p : Bool} {rd : Fin 32} {rs1 : Fin 32} {t : Nat} (hk : Kept P s0 s) :
    KeptO P s0 (execFabs s g p rd rs1 t) := by
  unfold execFabs
  try dsimp only
  repeat' first | with_reducible assumption | with_reducible apply State.fpF_kept

theorem execFneg_kept {P : Part → Prop} [May P .regs_] [May P .lost_] [May P .fab_] [May P .grains_] [May P .inbox_] [May P .led_] {s0 : State} {s : State} {g : GrainId} {p : Bool} {rd : Fin 32} {rs1 : Fin 32} {t : Nat} (hk : Kept P s0 s) :
    KeptO P s0 (execFneg s g p rd rs1 t) := by
  unfold execFneg
  try dsimp only
  repeat' first | with_reducible assumption | with_reducible apply State.fpF_kept

theorem execFceq_kept {P : Part → Prop} [May P .regs_] [May P .lost_] [May P .fab_] [May P .grains_] [May P .inbox_] [May P .led_] {s0 : State} {s : State} {g : GrainId} {p : Bool} {rd : Fin 32} {rs1 : Fin 32} {rs2 : Fin 32} {t : Nat} (hk : Kept P s0 s) :
    KeptO P s0 (execFceq s g p rd rs1 rs2 t) := by
  unfold execFceq
  try dsimp only
  repeat' first | with_reducible assumption | with_reducible apply State.fpG_kept

theorem execFclt_kept {P : Part → Prop} [May P .regs_] [May P .lost_] [May P .fab_] [May P .grains_] [May P .inbox_] [May P .led_] {s0 : State} {s : State} {g : GrainId} {p : Bool} {rd : Fin 32} {rs1 : Fin 32} {rs2 : Fin 32} {t : Nat} (hk : Kept P s0 s) :
    KeptO P s0 (execFclt s g p rd rs1 rs2 t) := by
  unfold execFclt
  try dsimp only
  repeat' first | with_reducible assumption | with_reducible apply State.fpG_kept

theorem execFcle_kept {P : Part → Prop} [May P .regs_] [May P .lost_] [May P .fab_] [May P .grains_] [May P .inbox_] [May P .led_] {s0 : State} {s : State} {g : GrainId} {p : Bool} {rd : Fin 32} {rs1 : Fin 32} {rs2 : Fin 32} {t : Nat} (hk : Kept P s0 s) :
    KeptO P s0 (execFcle s g p rd rs1 rs2 t) := by
  unfold execFcle
  try dsimp only
  repeat' first | with_reducible assumption | with_reducible apply State.fpG_kept

theorem execFcun_kept {P : Part → Prop} [May P .regs_] [May P .lost_] [May P .fab_] [May P .grains_] [May P .inbox_] [May P .led_] {s0 : State} {s : State} {g : GrainId} {p : Bool} {rd : Fin 32} {rs1 : Fin 32} {rs2 : Fin 32} {t : Nat} (hk : Kept P s0 s) :
    KeptO P s0 (execFcun s g p rd rs1 rs2 t) := by
  unfold execFcun
  try dsimp only
  repeat' first | with_reducible assumption | with_reducible apply State.fpG_kept

theorem execFkind_kept {P : Part → Prop} [May P .regs_] [May P .lost_] [May P .fab_] [May P .grains_] [May P .inbox_] [May P .led_] {s0 : State} {s : State} {g : GrainId} {p : Bool} {rd : Fin 32} {rs1 : Fin 32} {t : Nat} (hk : Kept P s0 s) :
    KeptO P s0 (execFkind s g p rd rs1 t) := by
  unfold execFkind
  try dsimp only
  repeat' first | with_reducible assumption | with_reducible apply State.fpG_kept

theorem execFtoi_kept {P : Part → Prop} [May P .regs_] [May P .lost_] [May P .fab_] [May P .grains_] [May P .inbox_] [May P .led_] {s0 : State} {s : State} {g : GrainId} {p : Bool} {rd : Fin 32} {rs1 : Fin 32} {t : Nat} (hk : Kept P s0 s) :
    KeptO P s0 (execFtoi s g p rd rs1 t) := by
  unfold execFtoi
  try dsimp only
  repeat' first | with_reducible assumption | with_reducible apply State.fpG_kept

theorem execItof_kept {P : Part → Prop} [May P .regs_] [May P .lost_] [May P .fab_] [May P .grains_] [May P .inbox_] [May P .led_] {s0 : State} {s : State} {g : GrainId} {p : Bool} {rd : Fin 32} {rs1 : Fin 32} {t : Nat} (hk : Kept P s0 s) :
    KeptO P s0 (execItof s g p rd rs1 t) := by
  unfold execItof
  try dsimp only
  repeat' first | with_reducible assumption | with_reducible apply State.fpF_kept

theorem execFnarrow_kept {P : Part → Prop} [May P .regs_] [May P .lost_] [May P .fab_] [May P .grains_] [May P .inbox_] [May P .led_] {s0 : State} {s : State} {g : GrainId} {rd : Fin 32} {rs1 : Fin 32} {t : Nat} (hk : Kept P s0 s) :
    KeptO P s0 (execFnarrow s g rd rs1 t) := by
  unfold execFnarrow
  try dsimp only
  repeat' first | with_reducible assumption | with_reducible apply State.fpF_kept

theorem execFwiden_kept {P : Part → Prop} [May P .regs_] [May P .lost_] [May P .fab_] [May P .grains_] [May P .inbox_] [May P .led_] {s0 : State} {s : State} {g : GrainId} {rd : Fin 32} {rs1 : Fin 32} {t : Nat} (hk : Kept P s0 s) :
    KeptO P s0 (execFwiden s g rd rs1 t) := by
  unfold execFwiden
  try dsimp only
  repeat' first | with_reducible assumption | with_reducible apply State.fpF_kept

theorem execFmvgfLo_kept {P : Part → Prop} [May P .regs_] [May P .lost_] [May P .fab_] [May P .grains_] [May P .inbox_] [May P .led_] {s0 : State} {s : State} {g : GrainId} {rd : Fin 32} {rs1 : Fin 32} {t : Nat} (hk : Kept P s0 s) :
    KeptO P s0 (execFmvgfLo s g rd rs1 t) := by
  unfold execFmvgfLo
  try dsimp only
  repeat' first | with_reducible assumption | with_reducible apply State.fpG_kept

theorem execFmvgfHi_kept {P : Part → Prop} [May P .regs_] [May P .lost_] [May P .fab_] [May P .grains_] [May P .inbox_] [May P .led_] {s0 : State} {s : State} {g : GrainId} {rd : Fin 32} {rs1 : Fin 32} {t : Nat} (hk : Kept P s0 s) :
    KeptO P s0 (execFmvgfHi s g rd rs1 t) := by
  unfold execFmvgfHi
  try dsimp only
  repeat' first | with_reducible assumption | with_reducible apply State.fpG_kept

theorem execFmvfgLo_kept {P : Part → Prop} [May P .regs_] [May P .lost_] [May P .fab_] [May P .grains_] [May P .inbox_] [May P .led_] {s0 : State} {s : State} {g : GrainId} {rd : Fin 32} {rs1 : Fin 32} {t : Nat} (hk : Kept P s0 s) :
    KeptO P s0 (execFmvfgLo s g rd rs1 t) := by
  unfold execFmvfgLo
  try dsimp only
  repeat' first | with_reducible assumption | with_reducible apply State.fpF_kept

theorem execFmvfgHi_kept {P : Part → Prop} [May P .regs_] [May P .lost_] [May P .fab_] [May P .grains_] [May P .inbox_] [May P .led_] {s0 : State} {s : State} {g : GrainId} {rd : Fin 32} {rs1 : Fin 32} {t : Nat} (hk : Kept P s0 s) :
    KeptO P s0 (execFmvfgHi s g rd rs1 t) := by
  unfold execFmvfgHi
  try dsimp only
  repeat' first | with_reducible assumption | with_reducible apply State.fpF_kept

end Sys2Proof.Machine
end

