-- ==== Sys2Proof/Laws/Kept/Integer.lean ====
section
/-!
SUPPORT. What the operations of Machine/Integer.lean keep.
-/

set_option Elab.async false
set_option linter.unusedTactic false
set_option linter.unreachableTactic false

namespace Sys2Proof.Machine

theorem State.aluR_kept {P : Part → Prop} [May P .regs_] [May P .lost_] [May P .fab_] [May P .grains_] [May P .inbox_] [May P .led_] {s0 : State} {s : State} {g : GrainId} {rd : Nat} {rs1 : Nat} {rs2 : Nat} {t : Nat} {w : Nat} {legal : Bool} {f : Word → Word → Word} (hk : Kept P s0 s) :
    KeptO P s0 (State.aluR s g rd rs1 rs2 t w legal f) := by
  unfold State.aluR
  try dsimp only
  repeat' first | with_reducible assumption | with_reducible apply State.compute_kept

theorem State.aluU_kept {P : Part → Prop} [May P .regs_] [May P .lost_] [May P .fab_] [May P .grains_] [May P .inbox_] [May P .led_] {s0 : State} {s : State} {g : GrainId} {rd : Nat} {rs1 : Nat} {t : Nat} {w : Nat} {f : Word → Word} (hk : Kept P s0 s) :
    KeptO P s0 (State.aluU s g rd rs1 t w f) := by
  unfold State.aluU
  try dsimp only
  repeat' first | with_reducible assumption | with_reducible apply State.compute_kept

theorem execAdd_kept {P : Part → Prop} [May P .regs_] [May P .lost_] [May P .fab_] [May P .grains_] [May P .inbox_] [May P .led_] {s0 : State} {s : State} {g : GrainId} {rd : Fin 32} {rs1 : Fin 32} {rs2 : Fin 32} {t : Nat} (hk : Kept P s0 s) :
    KeptO P s0 (execAdd s g rd rs1 rs2 t) := by
  unfold execAdd
  try dsimp only
  repeat' first | with_reducible assumption | with_reducible apply State.aluR_kept

theorem execSub_kept {P : Part → Prop} [May P .regs_] [May P .lost_] [May P .fab_] [May P .grains_] [May P .inbox_] [May P .led_] {s0 : State} {s : State} {g : GrainId} {rd : Fin 32} {rs1 : Fin 32} {rs2 : Fin 32} {t : Nat} (hk : Kept P s0 s) :
    KeptO P s0 (execSub s g rd rs1 rs2 t) := by
  unfold execSub
  try dsimp only
  repeat' first | with_reducible assumption | with_reducible apply State.aluR_kept

theorem execAnd_kept {P : Part → Prop} [May P .regs_] [May P .lost_] [May P .fab_] [May P .grains_] [May P .inbox_] [May P .led_] {s0 : State} {s : State} {g : GrainId} {rd : Fin 32} {rs1 : Fin 32} {rs2 : Fin 32} {t : Nat} (hk : Kept P s0 s) :
    KeptO P s0 (execAnd s g rd rs1 rs2 t) := by
  unfold execAnd
  try dsimp only
  repeat' first | with_reducible assumption | with_reducible apply State.aluR_kept

theorem execOr_kept {P : Part → Prop} [May P .regs_] [May P .lost_] [May P .fab_] [May P .grains_] [May P .inbox_] [May P .led_] {s0 : State} {s : State} {g : GrainId} {rd : Fin 32} {rs1 : Fin 32} {rs2 : Fin 32} {t : Nat} (hk : Kept P s0 s) :
    KeptO P s0 (execOr s g rd rs1 rs2 t) := by
  unfold execOr
  try dsimp only
  repeat' first | with_reducible assumption | with_reducible apply State.aluR_kept

theorem execXor_kept {P : Part → Prop} [May P .regs_] [May P .lost_] [May P .fab_] [May P .grains_] [May P .inbox_] [May P .led_] {s0 : State} {s : State} {g : GrainId} {rd : Fin 32} {rs1 : Fin 32} {rs2 : Fin 32} {t : Nat} (hk : Kept P s0 s) :
    KeptO P s0 (execXor s g rd rs1 rs2 t) := by
  unfold execXor
  try dsimp only
  repeat' first | with_reducible assumption | with_reducible apply State.aluR_kept

theorem execSll_kept {P : Part → Prop} [May P .regs_] [May P .lost_] [May P .fab_] [May P .grains_] [May P .inbox_] [May P .led_] {s0 : State} {s : State} {g : GrainId} {rd : Fin 32} {rs1 : Fin 32} {rs2 : Fin 32} {t : Nat} (hk : Kept P s0 s) :
    KeptO P s0 (execSll s g rd rs1 rs2 t) := by
  unfold execSll
  try dsimp only
  repeat' first | with_reducible assumption | with_reducible apply State.aluR_kept

theorem execSrl_kept {P : Part → Prop} [May P .regs_] [May P .lost_] [May P .fab_] [May P .grains_] [May P .inbox_] [May P .led_] {s0 : State} {s : State} {g : GrainId} {rd : Fin 32} {rs1 : Fin 32} {rs2 : Fin 32} {t : Nat} (hk : Kept P s0 s) :
    KeptO P s0 (execSrl s g rd rs1 rs2 t) := by
  unfold execSrl
  try dsimp only
  repeat' first | with_reducible assumption | with_reducible apply State.aluR_kept

theorem execSra_kept {P : Part → Prop} [May P .regs_] [May P .lost_] [May P .fab_] [May P .grains_] [May P .inbox_] [May P .led_] {s0 : State} {s : State} {g : GrainId} {rd : Fin 32} {rs1 : Fin 32} {rs2 : Fin 32} {t : Nat} (hk : Kept P s0 s) :
    KeptO P s0 (execSra s g rd rs1 rs2 t) := by
  unfold execSra
  try dsimp only
  repeat' first | with_reducible assumption | with_reducible apply State.aluR_kept

theorem execSlt_kept {P : Part → Prop} [May P .regs_] [May P .lost_] [May P .fab_] [May P .grains_] [May P .inbox_] [May P .led_] {s0 : State} {s : State} {g : GrainId} {rd : Fin 32} {rs1 : Fin 32} {rs2 : Fin 32} {t : Nat} (hk : Kept P s0 s) :
    KeptO P s0 (execSlt s g rd rs1 rs2 t) := by
  unfold execSlt
  try dsimp only
  repeat' first | with_reducible assumption | with_reducible apply State.aluR_kept

theorem execSltu_kept {P : Part → Prop} [May P .regs_] [May P .lost_] [May P .fab_] [May P .grains_] [May P .inbox_] [May P .led_] {s0 : State} {s : State} {g : GrainId} {rd : Fin 32} {rs1 : Fin 32} {rs2 : Fin 32} {t : Nat} (hk : Kept P s0 s) :
    KeptO P s0 (execSltu s g rd rs1 rs2 t) := by
  unfold execSltu
  try dsimp only
  repeat' first | with_reducible assumption | with_reducible apply State.aluR_kept

theorem execMin_kept {P : Part → Prop} [May P .regs_] [May P .lost_] [May P .fab_] [May P .grains_] [May P .inbox_] [May P .led_] {s0 : State} {s : State} {g : GrainId} {rd : Fin 32} {rs1 : Fin 32} {rs2 : Fin 32} {t : Nat} (hk : Kept P s0 s) :
    KeptO P s0 (execMin s g rd rs1 rs2 t) := by
  unfold execMin
  try dsimp only
  repeat' first | with_reducible assumption | with_reducible apply State.aluR_kept

theorem execMax_kept {P : Part → Prop} [May P .regs_] [May P .lost_] [May P .fab_] [May P .grains_] [May P .inbox_] [May P .led_] {s0 : State} {s : State} {g : GrainId} {rd : Fin 32} {rs1 : Fin 32} {rs2 : Fin 32} {t : Nat} (hk : Kept P s0 s) :
    KeptO P s0 (execMax s g rd rs1 rs2 t) := by
  unfold execMax
  try dsimp only
  repeat' first | with_reducible assumption | with_reducible apply State.aluR_kept

theorem execMinu_kept {P : Part → Prop} [May P .regs_] [May P .lost_] [May P .fab_] [May P .grains_] [May P .inbox_] [May P .led_] {s0 : State} {s : State} {g : GrainId} {rd : Fin 32} {rs1 : Fin 32} {rs2 : Fin 32} {t : Nat} (hk : Kept P s0 s) :
    KeptO P s0 (execMinu s g rd rs1 rs2 t) := by
  unfold execMinu
  try dsimp only
  repeat' first | with_reducible assumption | with_reducible apply State.aluR_kept

theorem execMaxu_kept {P : Part → Prop} [May P .regs_] [May P .lost_] [May P .fab_] [May P .grains_] [May P .inbox_] [May P .led_] {s0 : State} {s : State} {g : GrainId} {rd : Fin 32} {rs1 : Fin 32} {rs2 : Fin 32} {t : Nat} (hk : Kept P s0 s) :
    KeptO P s0 (execMaxu s g rd rs1 rs2 t) := by
  unfold execMaxu
  try dsimp only
  repeat' first | with_reducible assumption | with_reducible apply State.aluR_kept

theorem execSlli_kept {P : Part → Prop} [May P .regs_] [May P .lost_] [May P .fab_] [May P .grains_] [May P .inbox_] [May P .led_] {s0 : State} {s : State} {g : GrainId} {rd : Fin 32} {rs1 : Fin 32} {sh : Fin 32} {t : Nat} (hk : Kept P s0 s) :
    KeptO P s0 (execSlli s g rd rs1 sh t) := by
  unfold execSlli
  try dsimp only
  repeat' first | with_reducible assumption | with_reducible apply State.aluU_kept

theorem execSrli_kept {P : Part → Prop} [May P .regs_] [May P .lost_] [May P .fab_] [May P .grains_] [May P .inbox_] [May P .led_] {s0 : State} {s : State} {g : GrainId} {rd : Fin 32} {rs1 : Fin 32} {sh : Fin 32} {t : Nat} (hk : Kept P s0 s) :
    KeptO P s0 (execSrli s g rd rs1 sh t) := by
  unfold execSrli
  try dsimp only
  repeat' first | with_reducible assumption | with_reducible apply State.aluU_kept

theorem execSrai_kept {P : Part → Prop} [May P .regs_] [May P .lost_] [May P .fab_] [May P .grains_] [May P .inbox_] [May P .led_] {s0 : State} {s : State} {g : GrainId} {rd : Fin 32} {rs1 : Fin 32} {sh : Fin 32} {t : Nat} (hk : Kept P s0 s) :
    KeptO P s0 (execSrai s g rd rs1 sh t) := by
  unfold execSrai
  try dsimp only
  repeat' first | with_reducible assumption | with_reducible apply State.aluU_kept

theorem execClz_kept {P : Part → Prop} [May P .regs_] [May P .lost_] [May P .fab_] [May P .grains_] [May P .inbox_] [May P .led_] {s0 : State} {s : State} {g : GrainId} {rd : Fin 32} {rs1 : Fin 32} {t : Nat} (hk : Kept P s0 s) :
    KeptO P s0 (execClz s g rd rs1 t) := by
  unfold execClz
  try dsimp only
  repeat' first | with_reducible assumption | with_reducible apply State.aluU_kept

theorem execCtz_kept {P : Part → Prop} [May P .regs_] [May P .lost_] [May P .fab_] [May P .grains_] [May P .inbox_] [May P .led_] {s0 : State} {s : State} {g : GrainId} {rd : Fin 32} {rs1 : Fin 32} {t : Nat} (hk : Kept P s0 s) :
    KeptO P s0 (execCtz s g rd rs1 t) := by
  unfold execCtz
  try dsimp only
  repeat' first | with_reducible assumption | with_reducible apply State.aluU_kept

theorem execPopc_kept {P : Part → Prop} [May P .regs_] [May P .lost_] [May P .fab_] [May P .grains_] [May P .inbox_] [May P .led_] {s0 : State} {s : State} {g : GrainId} {rd : Fin 32} {rs1 : Fin 32} {t : Nat} (hk : Kept P s0 s) :
    KeptO P s0 (execPopc s g rd rs1 t) := by
  unfold execPopc
  try dsimp only
  repeat' first | with_reducible assumption | with_reducible apply State.aluU_kept

theorem execMul_kept {P : Part → Prop} [May P .regs_] [May P .lost_] [May P .fab_] [May P .grains_] [May P .inbox_] [May P .led_] {s0 : State} {s : State} {g : GrainId} {rd : Fin 32} {rs1 : Fin 32} {rs2 : Fin 32} {t : Nat} (hk : Kept P s0 s) :
    KeptO P s0 (execMul s g rd rs1 rs2 t) := by
  unfold execMul
  try dsimp only
  repeat' first | with_reducible assumption | with_reducible apply State.aluR_kept

theorem execMulh_kept {P : Part → Prop} [May P .regs_] [May P .lost_] [May P .fab_] [May P .grains_] [May P .inbox_] [May P .led_] {s0 : State} {s : State} {g : GrainId} {rd : Fin 32} {rs1 : Fin 32} {rs2 : Fin 32} {t : Nat} (hk : Kept P s0 s) :
    KeptO P s0 (execMulh s g rd rs1 rs2 t) := by
  unfold execMulh
  try dsimp only
  repeat' first | with_reducible assumption | with_reducible apply State.aluR_kept

theorem execMulhu_kept {P : Part → Prop} [May P .regs_] [May P .lost_] [May P .fab_] [May P .grains_] [May P .inbox_] [May P .led_] {s0 : State} {s : State} {g : GrainId} {rd : Fin 32} {rs1 : Fin 32} {rs2 : Fin 32} {t : Nat} (hk : Kept P s0 s) :
    KeptO P s0 (execMulhu s g rd rs1 rs2 t) := by
  unfold execMulhu
  try dsimp only
  repeat' first | with_reducible assumption | with_reducible apply State.aluR_kept

theorem execDiv_kept {P : Part → Prop} [May P .regs_] [May P .lost_] [May P .fab_] [May P .grains_] [May P .inbox_] [May P .led_] {s0 : State} {s : State} {g : GrainId} {rd : Fin 32} {rs1 : Fin 32} {rs2 : Fin 32} {t : Nat} (hk : Kept P s0 s) :
    KeptO P s0 (execDiv s g rd rs1 rs2 t) := by
  unfold execDiv
  try dsimp only
  repeat' first | with_reducible assumption | with_reducible apply State.aluR_kept

theorem execDivu_kept {P : Part → Prop} [May P .regs_] [May P .lost_] [May P .fab_] [May P .grains_] [May P .inbox_] [May P .led_] {s0 : State} {s : State} {g : GrainId} {rd : Fin 32} {rs1 : Fin 32} {rs2 : Fin 32} {t : Nat} (hk : Kept P s0 s) :
    KeptO P s0 (execDivu s g rd rs1 rs2 t) := by
  unfold execDivu
  try dsimp only
  repeat' first | with_reducible assumption | with_reducible apply State.aluR_kept

theorem execRem_kept {P : Part → Prop} [May P .regs_] [May P .lost_] [May P .fab_] [May P .grains_] [May P .inbox_] [May P .led_] {s0 : State} {s : State} {g : GrainId} {rd : Fin 32} {rs1 : Fin 32} {rs2 : Fin 32} {t : Nat} (hk : Kept P s0 s) :
    KeptO P s0 (execRem s g rd rs1 rs2 t) := by
  unfold execRem
  try dsimp only
  repeat' first | with_reducible assumption | with_reducible apply State.aluR_kept

theorem execRemu_kept {P : Part → Prop} [May P .regs_] [May P .lost_] [May P .fab_] [May P .grains_] [May P .inbox_] [May P .led_] {s0 : State} {s : State} {g : GrainId} {rd : Fin 32} {rs1 : Fin 32} {rs2 : Fin 32} {t : Nat} (hk : Kept P s0 s) :
    KeptO P s0 (execRemu s g rd rs1 rs2 t) := by
  unfold execRemu
  try dsimp only
  repeat' first | with_reducible assumption | with_reducible apply State.aluR_kept

theorem execAddi_kept {P : Part → Prop} [May P .regs_] [May P .lost_] [May P .fab_] [May P .grains_] [May P .inbox_] [May P .led_] {s0 : State} {s : State} {g : GrainId} {rd : Fin 32} {rs1 : Fin 32} {imm : Fin 65536} {t : Nat} (hk : Kept P s0 s) :
    KeptO P s0 (execAddi s g rd rs1 imm t) := by
  unfold execAddi
  try dsimp only
  repeat' first | with_reducible assumption | with_reducible apply State.aluU_kept

theorem execSlti_kept {P : Part → Prop} [May P .regs_] [May P .lost_] [May P .fab_] [May P .grains_] [May P .inbox_] [May P .led_] {s0 : State} {s : State} {g : GrainId} {rd : Fin 32} {rs1 : Fin 32} {imm : Fin 65536} {t : Nat} (hk : Kept P s0 s) :
    KeptO P s0 (execSlti s g rd rs1 imm t) := by
  unfold execSlti
  try dsimp only
  repeat' first | with_reducible assumption | with_reducible apply State.aluU_kept

theorem execSltiu_kept {P : Part → Prop} [May P .regs_] [May P .lost_] [May P .fab_] [May P .grains_] [May P .inbox_] [May P .led_] {s0 : State} {s : State} {g : GrainId} {rd : Fin 32} {rs1 : Fin 32} {imm : Fin 65536} {t : Nat} (hk : Kept P s0 s) :
    KeptO P s0 (execSltiu s g rd rs1 imm t) := by
  unfold execSltiu
  try dsimp only
  repeat' first | with_reducible assumption | with_reducible apply State.aluU_kept

theorem execAndi_kept {P : Part → Prop} [May P .regs_] [May P .lost_] [May P .fab_] [May P .grains_] [May P .inbox_] [May P .led_] {s0 : State} {s : State} {g : GrainId} {rd : Fin 32} {rs1 : Fin 32} {imm : Fin 65536} {t : Nat} (hk : Kept P s0 s) :
    KeptO P s0 (execAndi s g rd rs1 imm t) := by
  unfold execAndi
  try dsimp only
  repeat' first | with_reducible assumption | with_reducible apply State.aluU_kept

theorem execOri_kept {P : Part → Prop} [May P .regs_] [May P .lost_] [May P .fab_] [May P .grains_] [May P .inbox_] [May P .led_] {s0 : State} {s : State} {g : GrainId} {rd : Fin 32} {rs1 : Fin 32} {imm : Fin 65536} {t : Nat} (hk : Kept P s0 s) :
    KeptO P s0 (execOri s g rd rs1 imm t) := by
  unfold execOri
  try dsimp only
  repeat' first | with_reducible assumption | with_reducible apply State.aluU_kept

theorem execXori_kept {P : Part → Prop} [May P .regs_] [May P .lost_] [May P .fab_] [May P .grains_] [May P .inbox_] [May P .led_] {s0 : State} {s : State} {g : GrainId} {rd : Fin 32} {rs1 : Fin 32} {imm : Fin 65536} {t : Nat} (hk : Kept P s0 s) :
    KeptO P s0 (execXori s g rd rs1 imm t) := by
  unfold execXori
  try dsimp only
  repeat' first | with_reducible assumption | with_reducible apply State.aluU_kept

theorem execLui_kept {P : Part → Prop} [May P .regs_] [May P .lost_] [May P .fab_] [May P .grains_] [May P .inbox_] [May P .led_] {s0 : State} {s : State} {g : GrainId} {rd : Fin 32} {imm : Fin 65536} {t : Nat} (hk : Kept P s0 s) :
    KeptO P s0 (execLui s g rd imm t) := by
  unfold execLui
  try dsimp only
  repeat' first | with_reducible assumption | with_reducible apply State.compute_kept

end Sys2Proof.Machine
end

