-- ==== Sys2Proof/Laws/Kept/LinkOps.lean ====
section
/-!
SUPPORT. What the operations of Machine/LinkOps.lean keep.
-/

set_option Elab.async false
set_option linter.unusedTactic false
set_option linter.unreachableTactic false

namespace Sys2Proof.Machine

theorem State.linkRefuse_kept {P : Part → Prop} [May P .lost_] [May P .fab_] [May P .inbox_] [May P .led_] {s0 : State} {s : State} {src : Nat} {q : Nat} {func : Nat} (hk : Kept P s0 s) :
    Kept P s0 (State.linkRefuse s src q func) := by
  unfold State.linkRefuse
  try dsimp only
  repeat' first
    | with_reducible assumption
    | with_reducible apply State.post_kept
    | with_reducible apply State.raise_kept

theorem State.readUnsent_kept {P : Part → Prop} [May P .regs_] [May P .lost_] [May P .fab_] [May P .led_] [May P .lnk_] {s0 : State} {s : State} {k : Nat} {body : List Nat} (hk : Kept P s0 s) :
    Kept P s0 (State.readUnsent s k body) := by
  unfold State.readUnsent
  try dsimp only
  repeat' first
    | with_reducible assumption
    | with_reducible apply State.missing_kept
    | with_reducible apply Kept.foldl
    | (intro _; intros; try dsimp only)

theorem State.lsendGo_kept {P : Part → Prop} [May P .fab_] [May P .grains_] [May P .lnk_] {s0 : State} {s : State} {src : Nat} {rd : Nat} {body : List Nat} (hk : Kept P s0 s) :
    Kept P s0 (State.lsendGo s src rd body) := by
  unfold State.lsendGo
  try dsimp only
  repeat' first
    | with_reducible assumption
    | with_reducible apply State.engSend_kept
    | with_reducible apply State.setG_kept
    | with_reducible apply State.stepOn_kept
    | with_reducible apply State.updEng_kept
    | with_reducible apply State.updGrain_kept
    | with_reducible apply Kept.ite
    | (intro _; try dsimp only)
    | split
    | (with_reducible refine Kept.mk' rfl rfl rfl rfl rfl rfl ?_)
    | rfl

theorem State.lsendTry_kept {P : Part → Prop} [May P .fab_] [May P .grains_] [May P .lnk_] {s0 : State} {s : State} {src : Nat} {rd : Nat} {body : List Nat} {launch : Nat} (hk : Kept P s0 s) :
    Kept P s0 (State.lsendTry s src rd body launch) := by
  unfold State.lsendTry
  try dsimp only
  repeat' first
    | with_reducible assumption
    | with_reducible apply State.lsendGo_kept
    | with_reducible apply State.updGrain_kept
    | with_reducible apply Kept.ite
    | (intro _; try dsimp only)
    | split
    | (with_reducible refine Kept.mk' rfl rfl rfl rfl rfl rfl ?_)
    | rfl

theorem execLsend_kept {P : Part → Prop} [May P .regs_] [May P .lost_] [May P .fab_] [May P .grains_] [May P .inbox_] [May P .led_] [May P .lnk_] {s0 : State} {s : State} {g : GrainId} {rd : Fin 32} {rs1 : Fin 32} {rs2 : Fin 32} {imm5 : Fin 32} {t : Nat} (hk : Kept P s0 s) :
    KeptO P s0 (execLsend s g rd rs1 rs2 imm5 t) := by
  unfold execLsend
  try dsimp only
  repeat' first
    | with_reducible assumption
    | with_reducible apply State.exc_kept
    | with_reducible apply State.issue_kept
    | with_reducible apply State.linkRefuse_kept
    | with_reducible apply State.lsendTry_kept
    | with_reducible apply State.readUnsent_kept
    | with_reducible apply State.stepOn_kept
    | with_reducible apply KeptO.of_next
    | with_reducible apply KeptO.ite
    | with_reducible apply Kept.ite
    | (intro _; intros; try dsimp only)
    | split

theorem execLsendLaunch_kept {P : Part → Prop} [May P .fab_] [May P .grains_] [May P .lnk_] {s0 : State} {s : State} {g : GrainId} {t : Nat} (hk : Kept P s0 s) :
    KeptO P s0 (execLsendLaunch s g t) := by
  unfold execLsendLaunch
  try dsimp only
  repeat' first
    | with_reducible assumption
    | with_reducible apply State.at_kept
    | with_reducible apply State.lsendTry_kept
    | with_reducible apply KeptO.of_next
    | split

theorem execLtarm_kept {P : Part → Prop} [May P .regs_] [May P .lost_] [May P .fab_] [May P .grains_] [May P .inbox_] [May P .led_] [May P .lnk_] {s0 : State} {s : State} {g : GrainId} {rs1 : Fin 32} {rs2 : Fin 32} {t : Nat} (hk : Kept P s0 s) :
    KeptO P s0 (execLtarm s g rs1 rs2 t) := by
  unfold execLtarm
  try dsimp only
  repeat' first
    | with_reducible assumption
    | with_reducible apply State.issue_kept
    | with_reducible apply State.stepOn_kept
    | with_reducible apply State.updEng_kept
    | with_reducible apply KeptO.of_next
    | (intro _; intros; try dsimp only)

theorem State.lrecvTry_kept {P : Part → Prop} [May P .fresh_] [May P .mem_] [May P .fab_] [May P .grains_] [May P .lnk_] {s0 : State} {s : State} {src : Nat} {rd : Nat} {limit : Nat} (hk : Kept P s0 s) :
    Kept P s0 (State.lrecvTry s src rd limit) := by
  unfold State.lrecvTry
  try dsimp only
  repeat' first
    | with_reducible assumption
    | with_reducible apply State.drew_kept
    | with_reducible apply State.setG_kept
    | with_reducible apply State.stepOn_kept
    | with_reducible apply State.storeBytes_kept
    | with_reducible apply State.updEng_kept
    | with_reducible apply State.updGrain_kept
    | with_reducible apply Kept.ite
    | (intro _; try dsimp only)
    | split
    | (with_reducible refine Kept.mk' rfl rfl rfl rfl rfl rfl ?_)
    | rfl

theorem execLrecv_kept {P : Part → Prop} [May P .fresh_] [May P .regs_] [May P .lost_] [May P .mem_] [May P .fab_] [May P .grains_] [May P .inbox_] [May P .led_] [May P .lnk_] {s0 : State} {s : State} {g : GrainId} {rd : Fin 32} {rs1 : Fin 32} {t : Nat} (hk : Kept P s0 s) :
    KeptO P s0 (execLrecv s g rd rs1 t) := by
  unfold execLrecv
  try dsimp only
  repeat' first
    | with_reducible assumption
    | with_reducible apply State.issue_kept
    | with_reducible apply State.lrecvTry_kept
    | with_reducible apply KeptO.of_next
    | (intro _; intros; try dsimp only)

theorem execLrecvComplete_kept {P : Part → Prop} [May P .fresh_] [May P .mem_] [May P .fab_] [May P .grains_] [May P .lnk_] {s0 : State} {s : State} {g : GrainId} {t : Nat} (hk : Kept P s0 s) :
    KeptO P s0 (execLrecvComplete s g t) := by
  unfold execLrecvComplete
  try dsimp only
  repeat' first
    | with_reducible assumption
    | with_reducible apply State.at_kept
    | with_reducible apply State.lrecvTry_kept
    | with_reducible apply KeptO.of_next
    | split

theorem execLping_kept {P : Part → Prop} [May P .regs_] [May P .lost_] [May P .fab_] [May P .grains_] [May P .inbox_] [May P .led_] [May P .lnk_] {s0 : State} {s : State} {g : GrainId} {rd : Fin 32} {rs1 : Fin 32} {t : Nat} (hk : Kept P s0 s) :
    KeptO P s0 (execLping s g rd rs1 t) := by
  unfold execLping
  try dsimp only
  repeat' first
    | with_reducible assumption
    | with_reducible apply State.engSend_kept
    | with_reducible apply State.issue_kept
    | with_reducible apply State.updGrain_kept
    | with_reducible apply KeptO.of_next
    | (intro _; intros; try dsimp only)
    | (with_reducible refine Kept.mk' rfl rfl rfl rfl rfl rfl ?_)
    | rfl

theorem execLpingComplete_kept {P : Part → Prop} [May P .fab_] [May P .grains_] [May P .lnk_] {s0 : State} {s : State} {g : GrainId} {t : Nat} (hk : Kept P s0 s) :
    KeptO P s0 (execLpingComplete s g t) := by
  unfold execLpingComplete
  try dsimp only
  repeat' first
    | with_reducible assumption
    | with_reducible apply State.at_kept
    | with_reducible apply State.setG_kept
    | with_reducible apply State.stepOn_kept
    | with_reducible apply State.updEng_kept
    | with_reducible apply State.updGrain_kept
    | with_reducible apply KeptO.of_next
    | with_reducible apply KeptO.ite
    | with_reducible apply Kept.ite
    | (intro _; try dsimp only)
    | split
    | (with_reducible refine Kept.mk' rfl rfl rfl rfl rfl rfl ?_)
    | rfl

theorem execLwake_kept {P : Part → Prop} [May P .regs_] [May P .lost_] [May P .fab_] [May P .grains_] [May P .inbox_] [May P .led_] [May P .lnk_] {s0 : State} {s : State} {g : GrainId} {rs1 : Fin 32} {t : Nat} (hk : Kept P s0 s) :
    KeptO P s0 (execLwake s g rs1 t) := by
  unfold execLwake
  try dsimp only
  repeat' first
    | with_reducible assumption
    | with_reducible apply State.issue_kept
    | with_reducible apply State.linkRefuse_kept
    | with_reducible apply State.stepOn_kept
    | with_reducible apply State.wakeTone_kept
    | with_reducible apply KeptO.of_next
    | with_reducible apply KeptO.ite
    | with_reducible apply Kept.ite
    | (intro _; intros; try dsimp only)

theorem execLstat_kept {P : Part → Prop} [May P .regs_] [May P .lost_] [May P .fab_] [May P .grains_] [May P .inbox_] [May P .led_] {s0 : State} {s : State} {g : GrainId} {rd : Fin 32} {imm5 : Fin 32} {t : Nat} (hk : Kept P s0 s) :
    KeptO P s0 (execLstat s g rd imm5 t) := by
  unfold execLstat
  try dsimp only
  repeat' first
    | with_reducible assumption
    | with_reducible apply State.issue_kept
    | with_reducible apply State.setG_kept
    | with_reducible apply State.stepOn_kept
    | with_reducible apply KeptO.of_next
    | (intro _; intros; try dsimp only)

theorem execLslot_kept {P : Part → Prop} [May P .regs_] [May P .lost_] [May P .fab_] [May P .grains_] [May P .inbox_] [May P .led_] [May P .lnk_] {s0 : State} {s : State} {g : GrainId} {rs1 : Fin 32} {rs2 : Fin 32} {t : Nat} (hk : Kept P s0 s) :
    KeptO P s0 (execLslot s g rs1 rs2 t) := by
  unfold execLslot
  try dsimp only
  repeat' first
    | with_reducible assumption
    | with_reducible apply State.issue_kept
    | with_reducible apply State.linkRefuse_kept
    | with_reducible apply State.stepOn_kept
    | with_reducible apply State.updEng_kept
    | with_reducible apply KeptO.of_next
    | with_reducible apply KeptO.ite
    | with_reducible apply Kept.ite
    | (intro _; intros; try dsimp only)

end Sys2Proof.Machine
end

