-- ==== Sys2Proof/Laws/Kept/LoadStore.lean ====
section
/-!
SUPPORT. What the operations of Machine/LoadStore.lean keep.
-/

set_option Elab.async false
set_option linter.unusedTactic false
set_option linter.unreachableTactic false

namespace Sys2Proof.Machine

theorem execLb_kept {P : Part → Prop} [May P .regs_] [May P .lost_] [May P .fab_] [May P .grains_] [May P .inbox_] [May P .led_] {s0 : State} {s : State} {g : GrainId} {rd : Fin 32} {rs1 : Fin 32} {imm : Fin 65536} {t : Nat} (hk : Kept P s0 s) :
    KeptO P s0 (execLb s g rd rs1 imm t) := by
  unfold execLb
  try dsimp only
  repeat' first
    | with_reducible assumption
    | with_reducible apply State.issue_kept
    | with_reducible apply State.load_kept
    | with_reducible apply KeptO.of_next
    | (intro _; intros; try dsimp only)

theorem execLh_kept {P : Part → Prop} [May P .regs_] [May P .lost_] [May P .fab_] [May P .grains_] [May P .inbox_] [May P .led_] {s0 : State} {s : State} {g : GrainId} {rd : Fin 32} {rs1 : Fin 32} {imm : Fin 65536} {t : Nat} (hk : Kept P s0 s) :
    KeptO P s0 (execLh s g rd rs1 imm t) := by
  unfold execLh
  try dsimp only
  repeat' first
    | with_reducible assumption
    | with_reducible apply State.issue_kept
    | with_reducible apply State.load_kept
    | with_reducible apply KeptO.of_next
    | (intro _; intros; try dsimp only)

theorem execLw_kept {P : Part → Prop} [May P .regs_] [May P .lost_] [May P .fab_] [May P .grains_] [May P .inbox_] [May P .led_] {s0 : State} {s : State} {g : GrainId} {rd : Fin 32} {rs1 : Fin 32} {imm : Fin 65536} {t : Nat} (hk : Kept P s0 s) :
    KeptO P s0 (execLw s g rd rs1 imm t) := by
  unfold execLw
  try dsimp only
  repeat' first
    | with_reducible assumption
    | with_reducible apply State.issue_kept
    | with_reducible apply State.load_kept
    | with_reducible apply KeptO.of_next
    | (intro _; intros; try dsimp only)

theorem execLbu_kept {P : Part → Prop} [May P .regs_] [May P .lost_] [May P .fab_] [May P .grains_] [May P .inbox_] [May P .led_] {s0 : State} {s : State} {g : GrainId} {rd : Fin 32} {rs1 : Fin 32} {imm : Fin 65536} {t : Nat} (hk : Kept P s0 s) :
    KeptO P s0 (execLbu s g rd rs1 imm t) := by
  unfold execLbu
  try dsimp only
  repeat' first
    | with_reducible assumption
    | with_reducible apply State.issue_kept
    | with_reducible apply State.load_kept
    | with_reducible apply KeptO.of_next
    | (intro _; intros; try dsimp only)

theorem execLhu_kept {P : Part → Prop} [May P .regs_] [May P .lost_] [May P .fab_] [May P .grains_] [May P .inbox_] [May P .led_] {s0 : State} {s : State} {g : GrainId} {rd : Fin 32} {rs1 : Fin 32} {imm : Fin 65536} {t : Nat} (hk : Kept P s0 s) :
    KeptO P s0 (execLhu s g rd rs1 imm t) := by
  unfold execLhu
  try dsimp only
  repeat' first
    | with_reducible assumption
    | with_reducible apply State.issue_kept
    | with_reducible apply State.load_kept
    | with_reducible apply KeptO.of_next
    | (intro _; intros; try dsimp only)

theorem execFlw_kept {P : Part → Prop} [May P .regs_] [May P .lost_] [May P .fab_] [May P .grains_] [May P .inbox_] [May P .led_] {s0 : State} {s : State} {g : GrainId} {rd : Fin 32} {rs1 : Fin 32} {imm : Fin 65536} {t : Nat} (hk : Kept P s0 s) :
    KeptO P s0 (execFlw s g rd rs1 imm t) := by
  unfold execFlw
  try dsimp only
  repeat' first
    | with_reducible assumption
    | with_reducible apply State.issue_kept
    | with_reducible apply State.load_kept
    | with_reducible apply KeptO.of_next
    | (intro _; intros; try dsimp only)

theorem execFld_kept {P : Part → Prop} [May P .regs_] [May P .lost_] [May P .fab_] [May P .grains_] [May P .inbox_] [May P .led_] {s0 : State} {s : State} {g : GrainId} {rd : Fin 32} {rs1 : Fin 32} {imm : Fin 65536} {t : Nat} (hk : Kept P s0 s) :
    KeptO P s0 (execFld s g rd rs1 imm t) := by
  unfold execFld
  try dsimp only
  repeat' first
    | with_reducible assumption
    | with_reducible apply State.issue_kept
    | with_reducible apply State.load_kept
    | with_reducible apply KeptO.of_next
    | (intro _; intros; try dsimp only)

theorem execSb_kept {P : Part → Prop} [May P .fresh_] [May P .regs_] [May P .lost_] [May P .mem_] [May P .fab_] [May P .grains_] [May P .inbox_] [May P .led_] [May P .lnk_] [May P .swp_] [May P .trip_] [May P .boot_] [May P .gate_] [May P .regu_] [May P .out_] [May P .cur_] [May P .sf_] [May P .can_] [May P .eth_] [May P .sv_] [May P .corr_] [May P .est_] {s0 : State} {s : State} {g : GrainId} {rs2 : Fin 32} {rs1 : Fin 32} {imm : Fin 65536} {t : Nat} (hk : Kept P s0 s) :
    KeptO P s0 (execSb s g rs2 rs1 imm t) := by
  unfold execSb
  try dsimp only
  repeat' first
    | with_reducible assumption
    | with_reducible apply State.issue_kept
    | with_reducible apply State.store_kept
    | with_reducible apply KeptO.of_next
    | (intro _; intros; try dsimp only)

theorem execSh_kept {P : Part → Prop} [May P .fresh_] [May P .regs_] [May P .lost_] [May P .mem_] [May P .fab_] [May P .grains_] [May P .inbox_] [May P .led_] [May P .lnk_] [May P .swp_] [May P .trip_] [May P .boot_] [May P .gate_] [May P .regu_] [May P .out_] [May P .cur_] [May P .sf_] [May P .can_] [May P .eth_] [May P .sv_] [May P .corr_] [May P .est_] {s0 : State} {s : State} {g : GrainId} {rs2 : Fin 32} {rs1 : Fin 32} {imm : Fin 65536} {t : Nat} (hk : Kept P s0 s) :
    KeptO P s0 (execSh s g rs2 rs1 imm t) := by
  unfold execSh
  try dsimp only
  repeat' first
    | with_reducible assumption
    | with_reducible apply State.issue_kept
    | with_reducible apply State.store_kept
    | with_reducible apply KeptO.of_next
    | (intro _; intros; try dsimp only)

theorem execSw_kept {P : Part → Prop} [May P .fresh_] [May P .regs_] [May P .lost_] [May P .mem_] [May P .fab_] [May P .grains_] [May P .inbox_] [May P .led_] [May P .lnk_] [May P .swp_] [May P .trip_] [May P .boot_] [May P .gate_] [May P .regu_] [May P .out_] [May P .cur_] [May P .sf_] [May P .can_] [May P .eth_] [May P .sv_] [May P .corr_] [May P .est_] {s0 : State} {s : State} {g : GrainId} {rs2 : Fin 32} {rs1 : Fin 32} {imm : Fin 65536} {t : Nat} (hk : Kept P s0 s) :
    KeptO P s0 (execSw s g rs2 rs1 imm t) := by
  unfold execSw
  try dsimp only
  repeat' first
    | with_reducible assumption
    | with_reducible apply State.issue_kept
    | with_reducible apply State.store_kept
    | with_reducible apply KeptO.of_next
    | (intro _; intros; try dsimp only)

theorem execFsw_kept {P : Part → Prop} [May P .fresh_] [May P .regs_] [May P .lost_] [May P .mem_] [May P .fab_] [May P .grains_] [May P .inbox_] [May P .led_] [May P .lnk_] [May P .swp_] [May P .trip_] [May P .boot_] [May P .gate_] [May P .regu_] [May P .out_] [May P .cur_] [May P .sf_] [May P .can_] [May P .eth_] [May P .sv_] [May P .corr_] [May P .est_] {s0 : State} {s : State} {g : GrainId} {rs2 : Fin 32} {rs1 : Fin 32} {imm : Fin 65536} {t : Nat} (hk : Kept P s0 s) :
    KeptO P s0 (execFsw s g rs2 rs1 imm t) := by
  unfold execFsw
  try dsimp only
  repeat' first
    | with_reducible assumption
    | with_reducible apply State.issue_kept
    | with_reducible apply State.store_kept
    | with_reducible apply KeptO.of_next
    | (intro _; intros; try dsimp only)

theorem execFsd_kept {P : Part → Prop} [May P .fresh_] [May P .regs_] [May P .lost_] [May P .mem_] [May P .fab_] [May P .grains_] [May P .inbox_] [May P .led_] [May P .lnk_] [May P .swp_] [May P .trip_] [May P .boot_] [May P .gate_] [May P .regu_] [May P .out_] [May P .cur_] [May P .sf_] [May P .can_] [May P .eth_] [May P .sv_] [May P .corr_] [May P .est_] {s0 : State} {s : State} {g : GrainId} {rs2 : Fin 32} {rs1 : Fin 32} {imm : Fin 65536} {t : Nat} (hk : Kept P s0 s) :
    KeptO P s0 (execFsd s g rs2 rs1 imm t) := by
  unfold execFsd
  try dsimp only
  repeat' first
    | with_reducible assumption
    | with_reducible apply State.issue_kept
    | with_reducible apply State.store_kept
    | with_reducible apply KeptO.of_next
    | (intro _; intros; try dsimp only)

theorem execLoadComplete_kept {P : Part → Prop} [May P .fresh_] [May P .regs_] [May P .lost_] [May P .fab_] [May P .grains_] [May P .inbox_] [May P .led_] [May P .boot_] {s0 : State} {s : State} {g : GrainId} {t : Nat} (hk : Kept P s0 s) :
    KeptO P s0 (execLoadComplete s g t) := by
  unfold execLoadComplete
  try dsimp only
  repeat' first
    | with_reducible assumption
    | with_reducible apply State.at_kept
    | with_reducible apply State.busLoad_kept
    | with_reducible apply State.exc_kept
    | with_reducible apply State.loadInto_kept
    | with_reducible apply State.stepOn_kept
    | with_reducible apply State.updGrain_kept
    | with_reducible apply KeptO.of_next
    | with_reducible apply KeptO.ite
    | with_reducible apply Kept.ite
    | (with_reducible refine Kept.of_snd ‹_› ?_)
    | (intro _; try dsimp only)
    | split
    | (with_reducible refine Kept.mk' rfl rfl rfl rfl rfl rfl ?_)
    | rfl

theorem execImpreciseBusError_kept {P : Part → Prop} [May P .regs_] [May P .lost_] [May P .fab_] [May P .grains_] [May P .inbox_] [May P .led_] {s0 : State} {s : State} {g : GrainId} {t : Nat} (hk : Kept P s0 s) :
    KeptO P s0 (execImpreciseBusError s g t) := by
  unfold execImpreciseBusError
  try dsimp only
  repeat' first
    | with_reducible assumption
    | with_reducible apply State.at_kept
    | with_reducible apply State.takeImprecise_kept
    | with_reducible apply KeptO.of_next
    | with_reducible apply KeptO.ite

theorem State.branch_kept {P : Part → Prop} [May P .regs_] [May P .lost_] [May P .fab_] [May P .grains_] [May P .inbox_] [May P .led_] {s0 : State} {s : State} {g : GrainId} {rs1 : Nat} {rs2 : Nat} {off : Nat} {t : Nat} {w : Nat} {c : Word → Word → Bool} (hk : Kept P s0 s) :
    KeptO P s0 (State.branch s g rs1 rs2 off t w c) := by
  unfold State.branch
  try dsimp only
  repeat' first
    | with_reducible assumption
    | with_reducible apply State.issue_kept
    | with_reducible apply State.retired_kept
    | with_reducible apply State.setPc_kept
    | with_reducible apply State.stepOn_kept
    | with_reducible apply KeptO.of_next
    | with_reducible apply KeptO.ite
    | with_reducible apply Kept.ite
    | (intro _; intros; try dsimp only)

theorem execBeq_kept {P : Part → Prop} [May P .regs_] [May P .lost_] [May P .fab_] [May P .grains_] [May P .inbox_] [May P .led_] {s0 : State} {s : State} {g : GrainId} {rs1 : Fin 32} {rs2 : Fin 32} {off : Fin 65536} {t : Nat} (hk : Kept P s0 s) :
    KeptO P s0 (execBeq s g rs1 rs2 off t) := by
  unfold execBeq
  try dsimp only
  repeat' first | with_reducible assumption | with_reducible apply State.branch_kept

theorem execBne_kept {P : Part → Prop} [May P .regs_] [May P .lost_] [May P .fab_] [May P .grains_] [May P .inbox_] [May P .led_] {s0 : State} {s : State} {g : GrainId} {rs1 : Fin 32} {rs2 : Fin 32} {off : Fin 65536} {t : Nat} (hk : Kept P s0 s) :
    KeptO P s0 (execBne s g rs1 rs2 off t) := by
  unfold execBne
  try dsimp only
  repeat' first | with_reducible assumption | with_reducible apply State.branch_kept

theorem execBlt_kept {P : Part → Prop} [May P .regs_] [May P .lost_] [May P .fab_] [May P .grains_] [May P .inbox_] [May P .led_] {s0 : State} {s : State} {g : GrainId} {rs1 : Fin 32} {rs2 : Fin 32} {off : Fin 65536} {t : Nat} (hk : Kept P s0 s) :
    KeptO P s0 (execBlt s g rs1 rs2 off t) := by
  unfold execBlt
  try dsimp only
  repeat' first | with_reducible assumption | with_reducible apply State.branch_kept

theorem execBge_kept {P : Part → Prop} [May P .regs_] [May P .lost_] [May P .fab_] [May P .grains_] [May P .inbox_] [May P .led_] {s0 : State} {s : State} {g : GrainId} {rs1 : Fin 32} {rs2 : Fin 32} {off : Fin 65536} {t : Nat} (hk : Kept P s0 s) :
    KeptO P s0 (execBge s g rs1 rs2 off t) := by
  unfold execBge
  try dsimp only
  repeat' first | with_reducible assumption | with_reducible apply State.branch_kept

theorem execBltu_kept {P : Part → Prop} [May P .regs_] [May P .lost_] [May P .fab_] [May P .grains_] [May P .inbox_] [May P .led_] {s0 : State} {s : State} {g : GrainId} {rs1 : Fin 32} {rs2 : Fin 32} {off : Fin 65536} {t : Nat} (hk : Kept P s0 s) :
    KeptO P s0 (execBltu s g rs1 rs2 off t) := by
  unfold execBltu
  try dsimp only
  repeat' first | with_reducible assumption | with_reducible apply State.branch_kept

theorem execBgeu_kept {P : Part → Prop} [May P .regs_] [May P .lost_] [May P .fab_] [May P .grains_] [May P .inbox_] [May P .led_] {s0 : State} {s : State} {g : GrainId} {rs1 : Fin 32} {rs2 : Fin 32} {off : Fin 65536} {t : Nat} (hk : Kept P s0 s) :
    KeptO P s0 (execBgeu s g rs1 rs2 off t) := by
  unfold execBgeu
  try dsimp only
  repeat' first | with_reducible assumption | with_reducible apply State.branch_kept

theorem execJ_kept {P : Part → Prop} [May P .regs_] [May P .lost_] [May P .fab_] [May P .grains_] [May P .inbox_] [May P .led_] {s0 : State} {s : State} {g : GrainId} {off : Fin 67108864} {t : Nat} (hk : Kept P s0 s) :
    KeptO P s0 (execJ s g off t) := by
  unfold execJ
  try dsimp only
  repeat' first
    | with_reducible assumption
    | with_reducible apply State.issue_kept
    | with_reducible apply State.retired_kept
    | with_reducible apply State.setPc_kept
    | with_reducible apply KeptO.of_next
    | (intro _; intros; try dsimp only)

theorem execJal_kept {P : Part → Prop} [May P .regs_] [May P .lost_] [May P .fab_] [May P .grains_] [May P .inbox_] [May P .led_] {s0 : State} {s : State} {g : GrainId} {off : Fin 67108864} {t : Nat} (hk : Kept P s0 s) :
    KeptO P s0 (execJal s g off t) := by
  unfold execJal
  try dsimp only
  repeat' first
    | with_reducible assumption
    | with_reducible apply State.issue_kept
    | with_reducible apply State.retired_kept
    | with_reducible apply State.setG_kept
    | with_reducible apply State.setPc_kept
    | with_reducible apply KeptO.of_next
    | (intro _; intros; try dsimp only)

theorem execJalr_kept {P : Part → Prop} [May P .regs_] [May P .lost_] [May P .fab_] [May P .grains_] [May P .inbox_] [May P .led_] {s0 : State} {s : State} {g : GrainId} {rd : Fin 32} {rs1 : Fin 32} {imm : Fin 65536} {t : Nat} (hk : Kept P s0 s) :
    KeptO P s0 (execJalr s g rd rs1 imm t) := by
  unfold execJalr
  try dsimp only
  repeat' first
    | with_reducible assumption
    | with_reducible apply State.issue_kept
    | with_reducible apply State.retired_kept
    | with_reducible apply State.setG_kept
    | with_reducible apply State.setPc_kept
    | with_reducible apply KeptO.of_next
    | (intro _; intros; try dsimp only)

end Sys2Proof.Machine
end

