-- ==== Sys2Proof/Laws/Kept/SystemOps.lean ====
section
/-!
SUPPORT. What the operations of Machine/SystemOps.lean keep.
-/

set_option Elab.async false
set_option linter.unusedTactic false
set_option linter.unreachableTactic false

namespace Sys2Proof.Machine

theorem State.setSys_kept {P : Part → Prop} [May P .grains_] {s0 : State} {s : State} {src : Nat} {n : Nat} {w : Word} (hk : Kept P s0 s) :
    Kept P s0 (State.setSys s src n w) := by
  unfold State.setSys
  try dsimp only
  repeat' first
    | with_reducible assumption
    | with_reducible apply State.updGrain_kept
    | with_reducible apply Kept.ite
    | (intro _; try dsimp only)
    | split
    | (with_reducible refine Kept.mk' rfl rfl rfl rfl rfl rfl ?_)
    | rfl

theorem execSrr_kept {P : Part → Prop} [May P .regs_] [May P .lost_] [May P .fab_] [May P .grains_] [May P .inbox_] [May P .led_] {s0 : State} {s : State} {g : GrainId} {rd : Fin 32} {n : Fin 65536} {t : Nat} (hk : Kept P s0 s) :
    KeptO P s0 (execSrr s g rd n t) := by
  unfold execSrr
  try dsimp only
  repeat' first
    | with_reducible assumption
    | with_reducible apply State.issue_kept
    | with_reducible apply State.setG_kept
    | with_reducible apply State.stepOn_kept
    | with_reducible apply State.updGrain_kept
    | with_reducible apply KeptO.of_next
    | with_reducible apply KeptO.ite
    | with_reducible apply Kept.ite
    | (intro _; intros; try dsimp only)
    | split
    | (with_reducible refine Kept.mk' rfl rfl rfl rfl rfl rfl ?_)
    | rfl

theorem execSrw_kept {P : Part → Prop} [May P .regs_] [May P .lost_] [May P .fab_] [May P .grains_] [May P .inbox_] [May P .led_] {s0 : State} {s : State} {g : GrainId} {n : Fin 65536} {rs1 : Fin 32} {t : Nat} (hk : Kept P s0 s) :
    KeptO P s0 (execSrw s g n rs1 t) := by
  unfold execSrw
  try dsimp only
  repeat' first
    | with_reducible assumption
    | with_reducible apply State.issue_kept
    | with_reducible apply State.setSys_kept
    | with_reducible apply State.stepOn_kept
    | with_reducible apply KeptO.of_next
    | (intro _; intros; try dsimp only)

theorem execDlarm_kept {P : Part → Prop} [May P .regs_] [May P .lost_] [May P .fab_] [May P .grains_] [May P .inbox_] [May P .led_] {s0 : State} {s : State} {g : GrainId} {slot : Fin 32} {rs1 : Fin 32} {t : Nat} (hk : Kept P s0 s) :
    KeptO P s0 (execDlarm s g slot rs1 t) := by
  unfold execDlarm
  try dsimp only
  repeat' first
    | with_reducible assumption
    | with_reducible apply State.count_kept
    | with_reducible apply State.issue_kept
    | with_reducible apply State.stepOn_kept
    | with_reducible apply State.updGrain_kept
    | with_reducible apply KeptO.of_next
    | (intro _; intros; try dsimp only)
    | (with_reducible refine Kept.mk' rfl rfl rfl rfl rfl rfl ?_)
    | rfl

theorem execDldone_kept {P : Part → Prop} [May P .fresh_] [May P .regs_] [May P .lost_] [May P .mem_] [May P .fab_] [May P .grains_] [May P .inbox_] [May P .led_] [May P .lnk_] [May P .swp_] [May P .trip_] [May P .boot_] [May P .gate_] [May P .regu_] [May P .out_] [May P .cur_] [May P .sf_] [May P .can_] [May P .eth_] [May P .sv_] [May P .corr_] [May P .est_] {s0 : State} {s : State} {g : GrainId} {rd : Fin 32} {slot : Fin 32} {t : Nat} (hk : Kept P s0 s) :
    KeptO P s0 (execDldone s g rd slot t) := by
  unfold execDldone
  try dsimp only
  repeat' first
    | with_reducible assumption
    | with_reducible apply State.deadlineMissed_kept
    | with_reducible apply State.issue_kept
    | with_reducible apply State.setG_kept
    | with_reducible apply State.stepOn_kept
    | with_reducible apply State.updGrain_kept
    | with_reducible apply KeptO.of_next
    | with_reducible apply KeptO.ite
    | with_reducible apply Kept.ite
    | (intro _; intros; try dsimp only)
    | split
    | (with_reducible refine Kept.mk' rfl rfl rfl rfl rfl rfl ?_)
    | rfl

theorem State.afterFence_kept {P : Part → Prop} [May P .regs_] [May P .lost_] [May P .fab_] [May P .grains_] [May P .inbox_] [May P .led_] {s0 : State} {s : State} {src : Nat} (hk : Kept P s0 s) :
    Kept P s0 (State.afterFence s src) := by
  unfold State.afterFence
  try dsimp only
  repeat' first
    | with_reducible assumption
    | with_reducible apply State.takeImprecise_kept
    | with_reducible apply Kept.ite

theorem State.durable_kept {P : Part → Prop} [May P .fab_] {s0 : State} {s : State} {src : Nat} (hk : Kept P s0 s) :
    Kept P s0 (State.durable s src) := by
  unfold State.durable
  try dsimp only
  repeat' first | with_reducible assumption | (with_reducible refine Kept.mk' rfl rfl rfl rfl rfl rfl ?_)

theorem execFence_kept {P : Part → Prop} [May P .regs_] [May P .lost_] [May P .fab_] [May P .grains_] [May P .inbox_] [May P .led_] {s0 : State} {s : State} {g : GrainId} {t : Nat} (hk : Kept P s0 s) :
    KeptO P s0 (execFence s g t) := by
  unfold execFence
  try dsimp only
  repeat' first
    | with_reducible assumption
    | with_reducible apply State.issue_kept
    | with_reducible apply State.updGrain_kept
    | with_reducible apply KeptO.of_next
    | (intro _; intros; try dsimp only)
    | (with_reducible refine Kept.mk' rfl rfl rfl rfl rfl rfl ?_)
    | rfl

theorem execPfence_kept {P : Part → Prop} [May P .regs_] [May P .lost_] [May P .fab_] [May P .grains_] [May P .inbox_] [May P .led_] {s0 : State} {s : State} {g : GrainId} {t : Nat} (hk : Kept P s0 s) :
    KeptO P s0 (execPfence s g t) := by
  unfold execPfence
  try dsimp only
  repeat' first
    | with_reducible assumption
    | with_reducible apply State.issue_kept
    | with_reducible apply State.updGrain_kept
    | with_reducible apply KeptO.of_next
    | (intro _; intros; try dsimp only)
    | (with_reducible refine Kept.mk' rfl rfl rfl rfl rfl rfl ?_)
    | rfl

theorem execFenceComplete_kept {P : Part → Prop} [May P .regs_] [May P .lost_] [May P .fab_] [May P .grains_] [May P .inbox_] [May P .led_] {s0 : State} {s : State} {g : GrainId} {t : Nat} (hk : Kept P s0 s) :
    KeptO P s0 (execFenceComplete s g t) := by
  unfold execFenceComplete
  try dsimp only
  repeat' first
    | with_reducible assumption
    | with_reducible apply State.afterFence_kept
    | with_reducible apply State.at_kept
    | with_reducible apply State.count_kept
    | with_reducible apply State.durable_kept
    | with_reducible apply State.stepOn_kept
    | with_reducible apply State.syncExc_kept
    | with_reducible apply State.updGrain_kept
    | with_reducible apply KeptO.of_next
    | with_reducible apply KeptO.ite
    | with_reducible apply Kept.ite
    | (intro _; try dsimp only)
    | split
    | (with_reducible refine Kept.mk' rfl rfl rfl rfl rfl rfl ?_)
    | rfl

theorem execEret_kept {P : Part → Prop} [May P .regs_] [May P .lost_] [May P .fab_] [May P .grains_] [May P .inbox_] [May P .led_] {s0 : State} {s : State} {g : GrainId} {t : Nat} (hk : Kept P s0 s) :
    KeptO P s0 (execEret s g t) := by
  unfold execEret
  try dsimp only
  repeat' first
    | with_reducible assumption
    | with_reducible apply State.issue_kept
    | with_reducible apply State.retired_kept
    | with_reducible apply State.updGrain_kept
    | with_reducible apply KeptO.of_next
    | with_reducible apply KeptO.ite
    | with_reducible apply Kept.ite
    | (intro _; intros; try dsimp only)
    | split
    | rfl

theorem execTrap_kept {P : Part → Prop} [May P .regs_] [May P .lost_] [May P .fab_] [May P .grains_] [May P .inbox_] [May P .led_] {s0 : State} {s : State} {g : GrainId} {imm5 : Fin 32} {t : Nat} (hk : Kept P s0 s) :
    KeptO P s0 (execTrap s g imm5 t) := by
  unfold execTrap
  try dsimp only
  repeat' first
    | with_reducible assumption
    | with_reducible apply State.exc_kept
    | with_reducible apply State.issue_kept
    | with_reducible apply KeptO.of_next
    | (intro _; intros; try dsimp only)

theorem execBrk_kept {P : Part → Prop} [May P .regs_] [May P .lost_] [May P .fab_] [May P .grains_] [May P .inbox_] [May P .led_] {s0 : State} {s : State} {g : GrainId} {t : Nat} (hk : Kept P s0 s) :
    KeptO P s0 (execBrk s g t) := by
  unfold execBrk
  try dsimp only
  repeat' first
    | with_reducible assumption
    | with_reducible apply State.exc_kept
    | with_reducible apply State.issue_kept
    | with_reducible apply KeptO.of_next
    | (intro _; intros; try dsimp only)

theorem execTrapEntry_kept {P : Part → Prop} [May P .fresh_] [May P .fab_] [May P .grains_] {s0 : State} {s : State} {g : GrainId} {t : Nat} (hk : Kept P s0 s) :
    KeptO P s0 (execTrapEntry s g t) := by
  unfold execTrapEntry
  try dsimp only
  repeat' first
    | with_reducible assumption
    | with_reducible apply State.at_kept
    | with_reducible apply State.drew_kept
    | with_reducible apply State.setG_kept
    | with_reducible apply State.setPc_kept
    | with_reducible apply State.stepOn_kept
    | with_reducible apply State.trapIn_kept
    | with_reducible apply KeptO.of_next
    | with_reducible apply KeptO.ite
    | with_reducible apply Kept.ite
    | split

theorem execIbget_kept {P : Part → Prop} [May P .regs_] [May P .lost_] [May P .fab_] [May P .grains_] [May P .inbox_] [May P .led_] {s0 : State} {s : State} {g : GrainId} {rd : Fin 32} {t : Nat} (hk : Kept P s0 s) :
    KeptO P s0 (execIbget s g rd t) := by
  unfold execIbget
  refine State.issue_kept (fun s k => ?_) hk
  exact State.stepOn_kept (State.setG_kept (State.setG_kept (State.setG_kept (State.setG_kept
    (State.shrinkGrain_kept (fun x => by simp) k)))))

theorem execIpost_kept {P : Part → Prop} [May P .fresh_] [May P .regs_] [May P .lost_] [May P .fab_] [May P .grains_] [May P .inbox_] [May P .led_] {s0 : State} {s : State} {g : GrainId} {rs1 : Fin 32} {rs2 : Fin 32} {t : Nat} (hk : Kept P s0 s) :
    KeptO P s0 (execIpost s g rs1 rs2 t) := by
  unfold execIpost
  try dsimp only
  repeat' first
    | with_reducible assumption
    | with_reducible apply State.drew_kept
    | with_reducible apply State.exc_kept
    | with_reducible apply State.issue_kept
    | with_reducible apply State.post_kept
    | with_reducible apply State.refuseFb_kept
    | with_reducible apply State.stepOn_kept
    | with_reducible apply KeptO.of_next
    | with_reducible apply KeptO.ite
    | with_reducible apply Kept.ite
    | (intro _; intros; try dsimp only)

end Sys2Proof.Machine
end

