-- ==== Sys2Proof/Laws/Kept/QueueAtomic.lean ====
section
/-!
SUPPORT. What the operations of Machine/QueueAtomic.lean keep.
-/

set_option Elab.async false
set_option linter.unusedTactic false
set_option linter.unreachableTactic false

namespace Sys2Proof.Machine

theorem State.atomic_kept {P : Part → Prop} [May P .regs_] [May P .lost_] [May P .mem_] [May P .fab_] [May P .grains_] [May P .inbox_] [May P .led_] {s0 : State} {s : State} {src : Nat} {rd : Nat} {a : Nat} {f : State → Nat → Option Nat} (hk : Kept P s0 s) :
    Kept P s0 (State.atomic s src rd a f) := by
  unfold State.atomic
  try dsimp only
  repeat' first
    | with_reducible assumption
    | with_reducible apply State.afterFence_kept
    | with_reducible apply State.exc_kept
    | with_reducible apply State.overlayTouched_kept
    | with_reducible apply State.setG_kept
    | with_reducible apply State.stepOn_kept
    | with_reducible apply State.storeLE_kept
    | with_reducible apply State.writeError_kept
    | with_reducible apply Kept.ite
    | (with_reducible refine Kept.of_snd ‹_› ?_)
    | split

theorem execAmoadd_kept {P : Part → Prop} [May P .regs_] [May P .lost_] [May P .mem_] [May P .fab_] [May P .grains_] [May P .inbox_] [May P .led_] {s0 : State} {s : State} {g : GrainId} {rd : Fin 32} {rs1 : Fin 32} {rs2 : Fin 32} {t : Nat} (hk : Kept P s0 s) :
    KeptO P s0 (execAmoadd s g rd rs1 rs2 t) := by
  unfold execAmoadd
  try dsimp only
  repeat' first
    | with_reducible assumption
    | with_reducible apply State.atomic_kept
    | with_reducible apply State.issue_kept
    | with_reducible apply KeptO.of_next
    | (intro _; intros; try dsimp only)

theorem execAmoswap_kept {P : Part → Prop} [May P .regs_] [May P .lost_] [May P .mem_] [May P .fab_] [May P .grains_] [May P .inbox_] [May P .led_] {s0 : State} {s : State} {g : GrainId} {rd : Fin 32} {rs1 : Fin 32} {rs2 : Fin 32} {t : Nat} (hk : Kept P s0 s) :
    KeptO P s0 (execAmoswap s g rd rs1 rs2 t) := by
  unfold execAmoswap
  try dsimp only
  repeat' first
    | with_reducible assumption
    | with_reducible apply State.atomic_kept
    | with_reducible apply State.issue_kept
    | with_reducible apply KeptO.of_next
    | (intro _; intros; try dsimp only)

theorem execAmocas_kept {P : Part → Prop} [May P .regs_] [May P .lost_] [May P .mem_] [May P .fab_] [May P .grains_] [May P .inbox_] [May P .led_] {s0 : State} {s : State} {g : GrainId} {rd : Fin 32} {rs1 : Fin 32} {rs2 : Fin 32} {t : Nat} (hk : Kept P s0 s) :
    KeptO P s0 (execAmocas s g rd rs1 rs2 t) := by
  unfold execAmocas
  try dsimp only
  repeat' first
    | with_reducible assumption
    | with_reducible apply State.atomic_kept
    | with_reducible apply State.issue_kept
    | with_reducible apply KeptO.of_next
    | with_reducible apply KeptO.ite
    | with_reducible apply Kept.ite
    | (intro _; intros; try dsimp only)

theorem State.qputTry_kept {P : Part → Prop} [May P .regs_] [May P .lost_] [May P .fab_] [May P .grains_] [May P .inbox_] [May P .led_] {s0 : State} {s : State} {src : Nat} {rd : Nat} {q : Nat} {d : Dword} (hk : Kept P s0 s) :
    Kept P s0 (State.qputTry s src rd q d) := by
  unfold State.qputTry
  try dsimp only
  repeat' first
    | with_reducible assumption
    | with_reducible apply State.afterFence_kept
    | with_reducible apply State.exc_kept
    | with_reducible apply State.qAppend_kept
    | with_reducible apply State.qOverflow_kept
    | with_reducible apply State.refuseFb_kept
    | with_reducible apply State.setG_kept
    | with_reducible apply State.stepOn_kept
    | with_reducible apply State.updGrain_kept
    | with_reducible apply Kept.ite
    | (intro _; try dsimp only)
    | split
    | (with_reducible refine Kept.mk' rfl rfl rfl rfl rfl rfl ?_)
    | rfl

theorem State.qgetTry_kept {P : Part → Prop} [May P .regs_] [May P .lost_] [May P .fab_] [May P .grains_] [May P .inbox_] [May P .led_] {s0 : State} {s : State} {src : Nat} {rd : Nat} {q : Nat} {waits : Bool} (hk : Kept P s0 s) :
    Kept P s0 (State.qgetTry s src rd q waits) := by
  unfold State.qgetTry
  try dsimp only
  repeat' first
    | with_reducible assumption
    | with_reducible apply State.exc_kept
    | with_reducible apply State.setPair_kept
    | with_reducible apply State.stepOn_kept
    | with_reducible apply State.updGrain_kept
    | with_reducible apply Kept.ite
    | (with_reducible refine State.qTake_kept ‹_› ?_)
    | (intro _; try dsimp only)
    | split
    | (with_reducible refine Kept.mk' rfl rfl rfl rfl rfl rfl ?_)
    | rfl

theorem State.waitqTry_kept {P : Part → Prop} [May P .regs_] [May P .lost_] [May P .fab_] [May P .grains_] [May P .inbox_] [May P .led_] {s0 : State} {s : State} {src : Nat} {rd : Nat} {mask : Nat} (hk : Kept P s0 s) :
    Kept P s0 (State.waitqTry s src rd mask) := by
  unfold State.waitqTry
  try dsimp only
  repeat' first
    | with_reducible assumption
    | with_reducible apply State.exc_kept
    | with_reducible apply State.setG_kept
    | with_reducible apply State.stepOn_kept
    | with_reducible apply State.updGrain_kept
    | with_reducible apply Kept.ite
    | (intro _; try dsimp only)
    | split
    | (with_reducible refine Kept.mk' rfl rfl rfl rfl rfl rfl ?_)
    | rfl

theorem execQput_kept {P : Part → Prop} [May P .regs_] [May P .lost_] [May P .fab_] [May P .grains_] [May P .inbox_] [May P .led_] {s0 : State} {s : State} {g : GrainId} {rd : Fin 32} {rs1 : Fin 32} {rs2 : Fin 32} {t : Nat} (hk : Kept P s0 s) :
    KeptO P s0 (execQput s g rd rs1 rs2 t) := by
  unfold execQput
  try dsimp only
  repeat' first
    | with_reducible assumption
    | with_reducible apply State.exc_kept
    | with_reducible apply State.issue_kept
    | with_reducible apply State.qputTry_kept
    | with_reducible apply KeptO.of_next
    | with_reducible apply KeptO.ite
    | with_reducible apply Kept.ite
    | (intro _; intros; try dsimp only)

theorem execQget_kept {P : Part → Prop} [May P .regs_] [May P .lost_] [May P .fab_] [May P .grains_] [May P .inbox_] [May P .led_] {s0 : State} {s : State} {g : GrainId} {rd : Fin 32} {rs1 : Fin 32} {t : Nat} (hk : Kept P s0 s) :
    KeptO P s0 (execQget s g rd rs1 t) := by
  unfold execQget
  try dsimp only
  repeat' first
    | with_reducible assumption
    | with_reducible apply State.exc_kept
    | with_reducible apply State.issue_kept
    | with_reducible apply State.qgetTry_kept
    | with_reducible apply KeptO.of_next
    | with_reducible apply KeptO.ite
    | with_reducible apply Kept.ite
    | (intro _; intros; try dsimp only)

theorem execQtry_kept {P : Part → Prop} [May P .regs_] [May P .lost_] [May P .fab_] [May P .grains_] [May P .inbox_] [May P .led_] {s0 : State} {s : State} {g : GrainId} {rd : Fin 32} {rs1 : Fin 32} {t : Nat} (hk : Kept P s0 s) :
    KeptO P s0 (execQtry s g rd rs1 t) := by
  unfold execQtry
  try dsimp only
  repeat' first
    | with_reducible assumption
    | with_reducible apply State.exc_kept
    | with_reducible apply State.issue_kept
    | with_reducible apply State.qgetTry_kept
    | with_reducible apply KeptO.of_next
    | with_reducible apply KeptO.ite
    | with_reducible apply Kept.ite
    | (intro _; intros; try dsimp only)

theorem execWaitq_kept {P : Part → Prop} [May P .regs_] [May P .lost_] [May P .fab_] [May P .grains_] [May P .inbox_] [May P .led_] {s0 : State} {s : State} {g : GrainId} {rd : Fin 32} {rs1 : Fin 32} {t : Nat} (hk : Kept P s0 s) :
    KeptO P s0 (execWaitq s g rd rs1 t) := by
  unfold execWaitq
  try dsimp only
  repeat' first
    | with_reducible assumption
    | with_reducible apply State.exc_kept
    | with_reducible apply State.issue_kept
    | with_reducible apply State.waitqTry_kept
    | with_reducible apply KeptO.of_next
    | (intro _; intros; try dsimp only)
    | split

theorem execQueueWaitResume_kept {P : Part → Prop} [May P .regs_] [May P .lost_] [May P .fab_] [May P .grains_] [May P .inbox_] [May P .led_] {s0 : State} {s : State} {g : GrainId} {t : Nat} (hk : Kept P s0 s) :
    KeptO P s0 (execQueueWaitResume s g t) := by
  unfold execQueueWaitResume
  try dsimp only
  repeat' first
    | with_reducible assumption
    | with_reducible apply State.at_kept
    | with_reducible apply State.qgetTry_kept
    | with_reducible apply State.qputTry_kept
    | with_reducible apply State.waitqTry_kept
    | with_reducible apply KeptO.of_next
    | split

end Sys2Proof.Machine
end

