-- ==== Sys2Proof/Laws/Kept/RegCmds.lean ====
section
/-!
SUPPORT. What the operations of Machine/RegCmds.lean keep.
-/

set_option Elab.async false
set_option linter.unusedTactic false
set_option linter.unreachableTactic false

namespace Sys2Proof.Machine

theorem execRegisterWrite_kept {P : Part → Prop} [May P .fresh_] [May P .regs_] [May P .lost_] [May P .mem_] [May P .fab_] [May P .grains_] [May P .inbox_] [May P .led_] [May P .lnk_] [May P .swp_] [May P .trip_] [May P .boot_] [May P .gate_] [May P .regu_] [May P .out_] [May P .cur_] [May P .sf_] [May P .can_] [May P .eth_] [May P .sv_] [May P .corr_] [May P .est_] {s0 : State} {s : State} {src : Nat} {a : Nat} {v : Nat} {t : Nat} (hk : Kept P s0 s) :
    KeptO P s0 (execRegisterWrite s src a v t) := by
  unfold execRegisterWrite
  try dsimp only
  repeat' first | with_reducible assumption | with_reducible apply writeReg_kept

theorem execWake_kept {P : Part → Prop} [May P .fresh_] [May P .regs_] [May P .lost_] [May P .mem_] [May P .fab_] [May P .grains_] [May P .inbox_] [May P .led_] [May P .lnk_] [May P .swp_] [May P .trip_] [May P .boot_] [May P .gate_] [May P .regu_] [May P .out_] [May P .cur_] [May P .sf_] [May P .can_] [May P .eth_] [May P .sv_] [May P .corr_] [May P .est_] {s0 : State} {s : State} {src : Nat} {k : Fin 20} {v : Nat} {t : Nat} (hk : Kept P s0 s) :
    KeptO P s0 (execWake s src k v t) := by
  unfold execWake
  try dsimp only
  repeat' first | with_reducible assumption | with_reducible apply writeReg_kept

theorem execOwtnow_kept {P : Part → Prop} [May P .fresh_] [May P .regs_] [May P .lost_] [May P .mem_] [May P .fab_] [May P .grains_] [May P .inbox_] [May P .led_] [May P .lnk_] [May P .swp_] [May P .trip_] [May P .boot_] [May P .gate_] [May P .regu_] [May P .out_] [May P .cur_] [May P .sf_] [May P .can_] [May P .eth_] [May P .sv_] [May P .corr_] [May P .est_] {s0 : State} {s : State} {src : Nat} {v : Nat} {t : Nat} (hk : Kept P s0 s) :
    KeptO P s0 (execOwtnow s src v t) := by
  unfold execOwtnow
  try dsimp only
  repeat' first | with_reducible assumption | with_reducible apply writeReg_kept

theorem execTrig_kept {P : Part → Prop} [May P .fresh_] [May P .regs_] [May P .lost_] [May P .mem_] [May P .fab_] [May P .grains_] [May P .inbox_] [May P .led_] [May P .lnk_] [May P .swp_] [May P .trip_] [May P .boot_] [May P .gate_] [May P .regu_] [May P .out_] [May P .cur_] [May P .sf_] [May P .can_] [May P .eth_] [May P .sv_] [May P .corr_] [May P .est_] {s0 : State} {s : State} {src : Nat} {v : Nat} {t : Nat} (hk : Kept P s0 s) :
    KeptO P s0 (execTrig s src v t) := by
  unfold execTrig
  try dsimp only
  repeat' first | with_reducible assumption | with_reducible apply writeReg_kept

theorem execWindowHoldClear_kept {P : Part → Prop} [May P .fresh_] [May P .regs_] [May P .lost_] [May P .mem_] [May P .fab_] [May P .grains_] [May P .inbox_] [May P .led_] [May P .lnk_] [May P .swp_] [May P .trip_] [May P .boot_] [May P .gate_] [May P .regu_] [May P .out_] [May P .cur_] [May P .sf_] [May P .can_] [May P .eth_] [May P .sv_] [May P .corr_] [May P .est_] {s0 : State} {s : State} {src : Nat} {v : Nat} {t : Nat} (hk : Kept P s0 s) :
    KeptO P s0 (execWindowHoldClear s src v t) := by
  unfold execWindowHoldClear
  try dsimp only
  repeat' first | with_reducible assumption | with_reducible apply writeReg_kept

theorem execTripClr_kept {P : Part → Prop} [May P .fresh_] [May P .regs_] [May P .lost_] [May P .mem_] [May P .fab_] [May P .grains_] [May P .inbox_] [May P .led_] [May P .lnk_] [May P .swp_] [May P .trip_] [May P .boot_] [May P .gate_] [May P .regu_] [May P .out_] [May P .cur_] [May P .sf_] [May P .can_] [May P .eth_] [May P .sv_] [May P .corr_] [May P .est_] {s0 : State} {s : State} {src : Nat} {v : Nat} {t : Nat} (hk : Kept P s0 s) :
    KeptO P s0 (execTripClr s src v t) := by
  unfold execTripClr
  try dsimp only
  repeat' first | with_reducible assumption | with_reducible apply writeReg_kept

theorem execTripProgramRequest_kept {P : Part → Prop} [May P .fresh_] [May P .regs_] [May P .lost_] [May P .mem_] [May P .fab_] [May P .grains_] [May P .inbox_] [May P .led_] [May P .lnk_] [May P .swp_] [May P .trip_] [May P .boot_] [May P .gate_] [May P .regu_] [May P .out_] [May P .cur_] [May P .sf_] [May P .can_] [May P .eth_] [May P .sv_] [May P .corr_] [May P .est_] {s0 : State} {s : State} {src : Nat} {v : Nat} {t : Nat} (hk : Kept P s0 s) :
    KeptO P s0 (execTripProgramRequest s src v t) := by
  unfold execTripProgramRequest
  try dsimp only
  repeat' first | with_reducible assumption | with_reducible apply writeReg_kept

theorem execDlimDisWrite_kept {P : Part → Prop} [May P .fresh_] [May P .regs_] [May P .lost_] [May P .mem_] [May P .fab_] [May P .grains_] [May P .inbox_] [May P .led_] [May P .lnk_] [May P .swp_] [May P .trip_] [May P .boot_] [May P .gate_] [May P .regu_] [May P .out_] [May P .cur_] [May P .sf_] [May P .can_] [May P .eth_] [May P .sv_] [May P .corr_] [May P .est_] {s0 : State} {s : State} {src : Nat} {r : Fin 12} {v : Nat} {t : Nat} (hk : Kept P s0 s) :
    KeptO P s0 (execDlimDisWrite s src r v t) := by
  unfold execDlimDisWrite
  try dsimp only
  repeat' first | with_reducible assumption | with_reducible apply writeReg_kept

theorem execContactorClose_kept {P : Part → Prop} [May P .fresh_] [May P .regs_] [May P .lost_] [May P .mem_] [May P .fab_] [May P .grains_] [May P .inbox_] [May P .led_] [May P .lnk_] [May P .swp_] [May P .trip_] [May P .boot_] [May P .gate_] [May P .regu_] [May P .out_] [May P .cur_] [May P .sf_] [May P .can_] [May P .eth_] [May P .sv_] [May P .corr_] [May P .est_] {s0 : State} {s : State} {src : Nat} {r : Fin 12} {v : Nat} {t : Nat} (hk : Kept P s0 s) :
    KeptO P s0 (execContactorClose s src r v t) := by
  unfold execContactorClose
  try dsimp only
  repeat' first | with_reducible assumption | with_reducible apply writeReg_kept

theorem execContactorOpen_kept {P : Part → Prop} [May P .fresh_] [May P .regs_] [May P .lost_] [May P .mem_] [May P .fab_] [May P .grains_] [May P .inbox_] [May P .led_] [May P .lnk_] [May P .swp_] [May P .trip_] [May P .boot_] [May P .gate_] [May P .regu_] [May P .out_] [May P .cur_] [May P .sf_] [May P .can_] [May P .eth_] [May P .sv_] [May P .corr_] [May P .est_] {s0 : State} {s : State} {src : Nat} {r : Fin 12} {v : Nat} {t : Nat} (hk : Kept P s0 s) :
    KeptO P s0 (execContactorOpen s src r v t) := by
  unfold execContactorOpen
  try dsimp only
  repeat' first | with_reducible assumption | with_reducible apply writeReg_kept

theorem execPrechargeStart_kept {P : Part → Prop} [May P .fresh_] [May P .regs_] [May P .lost_] [May P .mem_] [May P .fab_] [May P .grains_] [May P .inbox_] [May P .led_] [May P .lnk_] [May P .swp_] [May P .trip_] [May P .boot_] [May P .gate_] [May P .regu_] [May P .out_] [May P .cur_] [May P .sf_] [May P .can_] [May P .eth_] [May P .sv_] [May P .corr_] [May P .est_] {s0 : State} {s : State} {src : Nat} {v : Nat} {t : Nat} (hk : Kept P s0 s) :
    KeptO P s0 (execPrechargeStart s src v t) := by
  unfold execPrechargeStart
  try dsimp only
  repeat' first | with_reducible assumption | with_reducible apply writeReg_kept

theorem execJoin_kept {P : Part → Prop} [May P .fresh_] [May P .regs_] [May P .lost_] [May P .mem_] [May P .fab_] [May P .grains_] [May P .inbox_] [May P .led_] [May P .lnk_] [May P .swp_] [May P .trip_] [May P .boot_] [May P .gate_] [May P .regu_] [May P .out_] [May P .cur_] [May P .sf_] [May P .can_] [May P .eth_] [May P .sv_] [May P .corr_] [May P .est_] {s0 : State} {s : State} {src : Nat} {v : Nat} {t : Nat} (hk : Kept P s0 s) :
    KeptO P s0 (execJoin s src v t) := by
  unfold execJoin
  try dsimp only
  repeat' first | with_reducible assumption | with_reducible apply writeReg_kept

theorem execAbort_kept {P : Part → Prop} [May P .fresh_] [May P .regs_] [May P .lost_] [May P .mem_] [May P .fab_] [May P .grains_] [May P .inbox_] [May P .led_] [May P .lnk_] [May P .swp_] [May P .trip_] [May P .boot_] [May P .gate_] [May P .regu_] [May P .out_] [May P .cur_] [May P .sf_] [May P .can_] [May P .eth_] [May P .sv_] [May P .corr_] [May P .est_] {s0 : State} {s : State} {src : Nat} {v : Nat} {t : Nat} (hk : Kept P s0 s) :
    KeptO P s0 (execAbort s src v t) := by
  unfold execAbort
  try dsimp only
  repeat' first | with_reducible assumption | with_reducible apply writeReg_kept

theorem execShareWeightWrite_kept {P : Part → Prop} [May P .fresh_] [May P .regs_] [May P .lost_] [May P .mem_] [May P .fab_] [May P .grains_] [May P .inbox_] [May P .led_] [May P .lnk_] [May P .swp_] [May P .trip_] [May P .boot_] [May P .gate_] [May P .regu_] [May P .out_] [May P .cur_] [May P .sf_] [May P .can_] [May P .eth_] [May P .sv_] [May P .corr_] [May P .est_] {s0 : State} {s : State} {src : Nat} {r : Fin 12} {v : Nat} {t : Nat} (hk : Kept P s0 s) :
    KeptO P s0 (execShareWeightWrite s src r v t) := by
  unfold execShareWeightWrite
  try dsimp only
  repeat' first | with_reducible assumption | with_reducible apply writeReg_kept

theorem execPhen_kept {P : Part → Prop} [May P .fresh_] [May P .regs_] [May P .lost_] [May P .mem_] [May P .fab_] [May P .grains_] [May P .inbox_] [May P .led_] [May P .lnk_] [May P .swp_] [May P .trip_] [May P .boot_] [May P .gate_] [May P .regu_] [May P .out_] [May P .cur_] [May P .sf_] [May P .can_] [May P .eth_] [May P .sv_] [May P .corr_] [May P .est_] {s0 : State} {s : State} {src : Nat} {r : Fin 12} {v : Nat} {t : Nat} (hk : Kept P s0 s) :
    KeptO P s0 (execPhen s src r v t) := by
  unfold execPhen
  try dsimp only
  repeat' first | with_reducible assumption | with_reducible apply writeReg_kept

theorem execExcStart_kept {P : Part → Prop} [May P .fresh_] [May P .regs_] [May P .lost_] [May P .mem_] [May P .fab_] [May P .grains_] [May P .inbox_] [May P .led_] [May P .lnk_] [May P .swp_] [May P .trip_] [May P .boot_] [May P .gate_] [May P .regu_] [May P .out_] [May P .cur_] [May P .sf_] [May P .can_] [May P .eth_] [May P .sv_] [May P .corr_] [May P .est_] {s0 : State} {s : State} {src : Nat} {v : Nat} {t : Nat} (hk : Kept P s0 s) :
    KeptO P s0 (execExcStart s src v t) := by
  unfold execExcStart
  try dsimp only
  repeat' first | with_reducible assumption | with_reducible apply writeReg_kept

theorem execExcStop_kept {P : Part → Prop} [May P .fresh_] [May P .regs_] [May P .lost_] [May P .mem_] [May P .fab_] [May P .grains_] [May P .inbox_] [May P .led_] [May P .lnk_] [May P .swp_] [May P .trip_] [May P .boot_] [May P .gate_] [May P .regu_] [May P .out_] [May P .cur_] [May P .sf_] [May P .can_] [May P .eth_] [May P .sv_] [May P .corr_] [May P .est_] {s0 : State} {s : State} {src : Nat} {v : Nat} {t : Nat} (hk : Kept P s0 s) :
    KeptO P s0 (execExcStop s src v t) := by
  unfold execExcStop
  try dsimp only
  repeat' first | with_reducible assumption | with_reducible apply writeReg_kept

theorem execTestModeEnter_kept {P : Part → Prop} [May P .fresh_] [May P .regs_] [May P .lost_] [May P .mem_] [May P .fab_] [May P .grains_] [May P .inbox_] [May P .led_] [May P .lnk_] [May P .swp_] [May P .trip_] [May P .boot_] [May P .gate_] [May P .regu_] [May P .out_] [May P .cur_] [May P .sf_] [May P .can_] [May P .eth_] [May P .sv_] [May P .corr_] [May P .est_] {s0 : State} {s : State} {src : Nat} {v : Nat} {t : Nat} (hk : Kept P s0 s) :
    KeptO P s0 (execTestModeEnter s src v t) := by
  unfold execTestModeEnter
  try dsimp only
  repeat' first | with_reducible assumption | with_reducible apply writeReg_kept

theorem execTestCommand_kept {P : Part → Prop} [May P .fresh_] [May P .regs_] [May P .lost_] [May P .mem_] [May P .fab_] [May P .grains_] [May P .inbox_] [May P .led_] [May P .lnk_] [May P .swp_] [May P .trip_] [May P .boot_] [May P .gate_] [May P .regu_] [May P .out_] [May P .cur_] [May P .sf_] [May P .can_] [May P .eth_] [May P .sv_] [May P .corr_] [May P .est_] {s0 : State} {s : State} {src : Nat} {v : Nat} {t : Nat} (hk : Kept P s0 s) :
    KeptO P s0 (execTestCommand s src v t) := by
  unfold execTestCommand
  try dsimp only
  repeat' first | with_reducible assumption | with_reducible apply writeReg_kept

theorem execLeakStart_kept {P : Part → Prop} [May P .fresh_] [May P .regs_] [May P .lost_] [May P .mem_] [May P .fab_] [May P .grains_] [May P .inbox_] [May P .led_] [May P .lnk_] [May P .swp_] [May P .trip_] [May P .boot_] [May P .gate_] [May P .regu_] [May P .out_] [May P .cur_] [May P .sf_] [May P .can_] [May P .eth_] [May P .sv_] [May P .corr_] [May P .est_] {s0 : State} {s : State} {src : Nat} {v : Nat} {t : Nat} (hk : Kept P s0 s) :
    KeptO P s0 (execLeakStart s src v t) := by
  unfold execLeakStart
  try dsimp only
  repeat' first | with_reducible assumption | with_reducible apply writeReg_kept

theorem execHbclr_kept {P : Part → Prop} [May P .fresh_] [May P .regs_] [May P .lost_] [May P .mem_] [May P .fab_] [May P .grains_] [May P .inbox_] [May P .led_] [May P .lnk_] [May P .swp_] [May P .trip_] [May P .boot_] [May P .gate_] [May P .regu_] [May P .out_] [May P .cur_] [May P .sf_] [May P .can_] [May P .eth_] [May P .sv_] [May P .corr_] [May P .est_] {s0 : State} {s : State} {src : Nat} {v : Nat} {t : Nat} (hk : Kept P s0 s) :
    KeptO P s0 (execHbclr s src v t) := by
  unfold execHbclr
  try dsimp only
  repeat' first | with_reducible assumption | with_reducible apply writeReg_kept

theorem execLsclr_kept {P : Part → Prop} [May P .fresh_] [May P .regs_] [May P .lost_] [May P .mem_] [May P .fab_] [May P .grains_] [May P .inbox_] [May P .led_] [May P .lnk_] [May P .swp_] [May P .trip_] [May P .boot_] [May P .gate_] [May P .regu_] [May P .out_] [May P .cur_] [May P .sf_] [May P .can_] [May P .eth_] [May P .sv_] [May P .corr_] [May P .est_] {s0 : State} {s : State} {src : Nat} {v : Nat} {t : Nat} (hk : Kept P s0 s) :
    KeptO P s0 (execLsclr s src v t) := by
  unfold execLsclr
  try dsimp only
  repeat' first | with_reducible assumption | with_reducible apply writeReg_kept

theorem execMailboxGo_kept {P : Part → Prop} [May P .fresh_] [May P .regs_] [May P .lost_] [May P .mem_] [May P .fab_] [May P .grains_] [May P .inbox_] [May P .led_] [May P .lnk_] [May P .swp_] [May P .trip_] [May P .boot_] [May P .gate_] [May P .regu_] [May P .out_] [May P .cur_] [May P .sf_] [May P .can_] [May P .eth_] [May P .sv_] [May P .corr_] [May P .est_] {s0 : State} {s : State} {src : Nat} {v : Nat} {t : Nat} (hk : Kept P s0 s) :
    KeptO P s0 (execMailboxGo s src v t) := by
  unfold execMailboxGo
  try dsimp only
  repeat' first | with_reducible assumption | with_reducible apply writeReg_kept

theorem execTxack_kept {P : Part → Prop} [May P .fresh_] [May P .regs_] [May P .lost_] [May P .mem_] [May P .fab_] [May P .grains_] [May P .inbox_] [May P .led_] [May P .lnk_] [May P .swp_] [May P .trip_] [May P .boot_] [May P .gate_] [May P .regu_] [May P .out_] [May P .cur_] [May P .sf_] [May P .can_] [May P .eth_] [May P .sv_] [May P .corr_] [May P .est_] {s0 : State} {s : State} {src : Nat} {v : Nat} {t : Nat} (hk : Kept P s0 s) :
    KeptO P s0 (execTxack s src v t) := by
  unfold execTxack
  try dsimp only
  repeat' first | with_reducible assumption | with_reducible apply writeReg_kept

theorem execMailboxReq_kept {P : Part → Prop} [May P .fresh_] [May P .regs_] [May P .lost_] [May P .mem_] [May P .fab_] [May P .grains_] [May P .inbox_] [May P .led_] [May P .lnk_] [May P .swp_] [May P .trip_] [May P .boot_] [May P .gate_] [May P .regu_] [May P .out_] [May P .cur_] [May P .sf_] [May P .can_] [May P .eth_] [May P .sv_] [May P .corr_] [May P .est_] {s0 : State} {s : State} {src : Nat} {v : Nat} {t : Nat} (hk : Kept P s0 s) :
    KeptO P s0 (execMailboxReq s src v t) := by
  unfold execMailboxReq
  try dsimp only
  repeat' first | with_reducible assumption | with_reducible apply writeReg_kept

theorem execCanEnable_kept {P : Part → Prop} [May P .fresh_] [May P .regs_] [May P .lost_] [May P .mem_] [May P .fab_] [May P .grains_] [May P .inbox_] [May P .led_] [May P .lnk_] [May P .swp_] [May P .trip_] [May P .boot_] [May P .gate_] [May P .regu_] [May P .out_] [May P .cur_] [May P .sf_] [May P .can_] [May P .eth_] [May P .sv_] [May P .corr_] [May P .est_] {s0 : State} {s : State} {src : Nat} {n : Fin 6} {v : Nat} {t : Nat} (hk : Kept P s0 s) :
    KeptO P s0 (execCanEnable s src n v t) := by
  unfold execCanEnable
  try dsimp only
  repeat' first | with_reducible assumption | with_reducible apply writeReg_kept

theorem execCanStandby_kept {P : Part → Prop} [May P .fresh_] [May P .regs_] [May P .lost_] [May P .mem_] [May P .fab_] [May P .grains_] [May P .inbox_] [May P .led_] [May P .lnk_] [May P .swp_] [May P .trip_] [May P .boot_] [May P .gate_] [May P .regu_] [May P .out_] [May P .cur_] [May P .sf_] [May P .can_] [May P .eth_] [May P .sv_] [May P .corr_] [May P .est_] {s0 : State} {s : State} {src : Nat} {n : Fin 6} {v : Nat} {t : Nat} (hk : Kept P s0 s) :
    KeptO P s0 (execCanStandby s src n v t) := by
  unfold execCanStandby
  try dsimp only
  repeat' first | with_reducible assumption | with_reducible apply writeReg_kept

theorem execCanCommit_kept {P : Part → Prop} [May P .fresh_] [May P .regs_] [May P .lost_] [May P .mem_] [May P .fab_] [May P .grains_] [May P .inbox_] [May P .led_] [May P .lnk_] [May P .swp_] [May P .trip_] [May P .boot_] [May P .gate_] [May P .regu_] [May P .out_] [May P .cur_] [May P .sf_] [May P .can_] [May P .eth_] [May P .sv_] [May P .corr_] [May P .est_] {s0 : State} {s : State} {src : Nat} {n : Fin 6} {v : Nat} {t : Nat} (hk : Kept P s0 s) :
    KeptO P s0 (execCanCommit s src n v t) := by
  unfold execCanCommit
  try dsimp only
  repeat' first | with_reducible assumption | with_reducible apply writeReg_kept

theorem execCanAbort_kept {P : Part → Prop} [May P .fresh_] [May P .regs_] [May P .lost_] [May P .mem_] [May P .fab_] [May P .grains_] [May P .inbox_] [May P .led_] [May P .lnk_] [May P .swp_] [May P .trip_] [May P .boot_] [May P .gate_] [May P .regu_] [May P .out_] [May P .cur_] [May P .sf_] [May P .can_] [May P .eth_] [May P .sv_] [May P .corr_] [May P .est_] {s0 : State} {s : State} {src : Nat} {n : Fin 6} {v : Nat} {t : Nat} (hk : Kept P s0 s) :
    KeptO P s0 (execCanAbort s src n v t) := by
  unfold execCanAbort
  try dsimp only
  repeat' first | with_reducible assumption | with_reducible apply writeReg_kept

theorem execBorel_kept {P : Part → Prop} [May P .fresh_] [May P .regs_] [May P .lost_] [May P .mem_] [May P .fab_] [May P .grains_] [May P .inbox_] [May P .led_] [May P .lnk_] [May P .swp_] [May P .trip_] [May P .boot_] [May P .gate_] [May P .regu_] [May P .out_] [May P .cur_] [May P .sf_] [May P .can_] [May P .eth_] [May P .sv_] [May P .corr_] [May P .est_] {s0 : State} {s : State} {src : Nat} {n : Fin 6} {v : Nat} {t : Nat} (hk : Kept P s0 s) :
    KeptO P s0 (execBorel s src n v t) := by
  unfold execBorel
  try dsimp only
  repeat' first | with_reducible assumption | with_reducible apply writeReg_kept

theorem execPop_kept {P : Part → Prop} [May P .fresh_] [May P .regs_] [May P .lost_] [May P .mem_] [May P .fab_] [May P .grains_] [May P .inbox_] [May P .led_] [May P .lnk_] [May P .swp_] [May P .trip_] [May P .boot_] [May P .gate_] [May P .regu_] [May P .out_] [May P .cur_] [May P .sf_] [May P .can_] [May P .eth_] [May P .sv_] [May P .corr_] [May P .est_] {s0 : State} {s : State} {src : Nat} {n : Fin 6} {f : Fin 2} {v : Nat} {t : Nat} (hk : Kept P s0 s) :
    KeptO P s0 (execPop s src n f v t) := by
  unfold execPop
  try dsimp only
  repeat' first | with_reducible assumption | with_reducible apply writeReg_kept

theorem execPhase_kept {P : Part → Prop} [May P .fresh_] [May P .regs_] [May P .lost_] [May P .mem_] [May P .fab_] [May P .grains_] [May P .inbox_] [May P .led_] [May P .lnk_] [May P .swp_] [May P .trip_] [May P .boot_] [May P .gate_] [May P .regu_] [May P .out_] [May P .cur_] [May P .sf_] [May P .can_] [May P .eth_] [May P .sv_] [May P .corr_] [May P .est_] {s0 : State} {s : State} {src : Nat} {v : Nat} {t : Nat} (hk : Kept P s0 s) :
    KeptO P s0 (execPhase s src v t) := by
  unfold execPhase
  try dsimp only
  repeat' first | with_reducible assumption | with_reducible apply writeReg_kept

theorem execRate_kept {P : Part → Prop} [May P .fresh_] [May P .regs_] [May P .lost_] [May P .mem_] [May P .fab_] [May P .grains_] [May P .inbox_] [May P .led_] [May P .lnk_] [May P .swp_] [May P .trip_] [May P .boot_] [May P .gate_] [May P .regu_] [May P .out_] [May P .cur_] [May P .sf_] [May P .can_] [May P .eth_] [May P .sv_] [May P .corr_] [May P .est_] {s0 : State} {s : State} {src : Nat} {v : Nat} {t : Nat} (hk : Kept P s0 s) :
    KeptO P s0 (execRate s src v t) := by
  unfold execRate
  try dsimp only
  repeat' first | with_reducible assumption | with_reducible apply writeReg_kept

theorem execStep_kept {P : Part → Prop} [May P .fresh_] [May P .regs_] [May P .lost_] [May P .mem_] [May P .fab_] [May P .grains_] [May P .inbox_] [May P .led_] [May P .lnk_] [May P .swp_] [May P .trip_] [May P .boot_] [May P .gate_] [May P .regu_] [May P .out_] [May P .cur_] [May P .sf_] [May P .can_] [May P .eth_] [May P .sv_] [May P .corr_] [May P .est_] {s0 : State} {s : State} {src : Nat} {v : Nat} {t : Nat} (hk : Kept P s0 s) :
    KeptO P s0 (execStep s src v t) := by
  unfold execStep
  try dsimp only
  repeat' first | with_reducible assumption | with_reducible apply writeReg_kept

theorem execDisc_kept {P : Part → Prop} [May P .fresh_] [May P .regs_] [May P .lost_] [May P .mem_] [May P .fab_] [May P .grains_] [May P .inbox_] [May P .led_] [May P .lnk_] [May P .swp_] [May P .trip_] [May P .boot_] [May P .gate_] [May P .regu_] [May P .out_] [May P .cur_] [May P .sf_] [May P .can_] [May P .eth_] [May P .sv_] [May P .corr_] [May P .est_] {s0 : State} {s : State} {src : Nat} {v : Nat} {t : Nat} (hk : Kept P s0 s) :
    KeptO P s0 (execDisc s src v t) := by
  unfold execDisc
  try dsimp only
  repeat' first | with_reducible assumption | with_reducible apply writeReg_kept

theorem execCommission_kept {P : Part → Prop} [May P .fresh_] [May P .regs_] [May P .lost_] [May P .mem_] [May P .fab_] [May P .grains_] [May P .inbox_] [May P .led_] [May P .lnk_] [May P .swp_] [May P .trip_] [May P .boot_] [May P .gate_] [May P .regu_] [May P .out_] [May P .cur_] [May P .sf_] [May P .can_] [May P .eth_] [May P .sv_] [May P .corr_] [May P .est_] {s0 : State} {s : State} {src : Nat} {v : Nat} {t : Nat} (hk : Kept P s0 s) :
    KeptO P s0 (execCommission s src v t) := by
  unfold execCommission
  try dsimp only
  repeat' first | with_reducible assumption | with_reducible apply writeReg_kept

theorem execSedclr_kept {P : Part → Prop} [May P .fresh_] [May P .regs_] [May P .lost_] [May P .mem_] [May P .fab_] [May P .grains_] [May P .inbox_] [May P .led_] [May P .lnk_] [May P .swp_] [May P .trip_] [May P .boot_] [May P .gate_] [May P .regu_] [May P .out_] [May P .cur_] [May P .sf_] [May P .can_] [May P .eth_] [May P .sv_] [May P .corr_] [May P .est_] {s0 : State} {s : State} {src : Nat} {v : Nat} {t : Nat} (hk : Kept P s0 s) :
    KeptO P s0 (execSedclr s src v t) := by
  unfold execSedclr
  try dsimp only
  repeat' first | with_reducible assumption | with_reducible apply writeReg_kept

theorem execBsrc_kept {P : Part → Prop} [May P .fresh_] [May P .regs_] [May P .lost_] [May P .mem_] [May P .fab_] [May P .grains_] [May P .inbox_] [May P .led_] [May P .lnk_] [May P .swp_] [May P .trip_] [May P .boot_] [May P .gate_] [May P .regu_] [May P .out_] [May P .cur_] [May P .sf_] [May P .can_] [May P .eth_] [May P .sv_] [May P .corr_] [May P .est_] {s0 : State} {s : State} {src : Nat} {v : Nat} {t : Nat} (hk : Kept P s0 s) :
    KeptO P s0 (execBsrc s src v t) := by
  unfold execBsrc
  try dsimp only
  repeat' first | with_reducible assumption | with_reducible apply writeReg_kept

theorem execFbFltRel_kept {P : Part → Prop} [May P .fresh_] [May P .regs_] [May P .lost_] [May P .mem_] [May P .fab_] [May P .grains_] [May P .inbox_] [May P .led_] [May P .lnk_] [May P .swp_] [May P .trip_] [May P .boot_] [May P .gate_] [May P .regu_] [May P .out_] [May P .cur_] [May P .sf_] [May P .can_] [May P .eth_] [May P .sv_] [May P .corr_] [May P .est_] {s0 : State} {s : State} {src : Nat} {v : Nat} {t : Nat} (hk : Kept P s0 s) :
    KeptO P s0 (execFbFltRel s src v t) := by
  unfold execFbFltRel
  try dsimp only
  repeat' first | with_reducible assumption | with_reducible apply writeReg_kept

theorem execConfirm_kept {P : Part → Prop} [May P .fresh_] [May P .regs_] [May P .lost_] [May P .mem_] [May P .fab_] [May P .grains_] [May P .inbox_] [May P .led_] [May P .lnk_] [May P .swp_] [May P .trip_] [May P .boot_] [May P .gate_] [May P .regu_] [May P .out_] [May P .cur_] [May P .sf_] [May P .can_] [May P .eth_] [May P .sv_] [May P .corr_] [May P .est_] {s0 : State} {s : State} {src : Nat} {v : Nat} {t : Nat} (hk : Kept P s0 s) :
    KeptO P s0 (execConfirm s src v t) := by
  unfold execConfirm
  try dsimp only
  repeat' first | with_reducible assumption | with_reducible apply writeReg_kept

theorem execArbgo_kept {P : Part → Prop} [May P .fresh_] [May P .regs_] [May P .lost_] [May P .mem_] [May P .fab_] [May P .grains_] [May P .inbox_] [May P .led_] [May P .lnk_] [May P .swp_] [May P .trip_] [May P .boot_] [May P .gate_] [May P .regu_] [May P .out_] [May P .cur_] [May P .sf_] [May P .can_] [May P .eth_] [May P .sv_] [May P .corr_] [May P .est_] {s0 : State} {s : State} {src : Nat} {v : Nat} {t : Nat} (hk : Kept P s0 s) :
    KeptO P s0 (execArbgo s src v t) := by
  unfold execArbgo
  try dsimp only
  repeat' first | with_reducible assumption | with_reducible apply writeReg_kept

theorem execReboot_kept {P : Part → Prop} [May P .fresh_] [May P .regs_] [May P .lost_] [May P .mem_] [May P .fab_] [May P .grains_] [May P .inbox_] [May P .led_] [May P .lnk_] [May P .swp_] [May P .trip_] [May P .boot_] [May P .gate_] [May P .regu_] [May P .out_] [May P .cur_] [May P .sf_] [May P .can_] [May P .eth_] [May P .sv_] [May P .corr_] [May P .est_] {s0 : State} {s : State} {src : Nat} {v : Nat} {t : Nat} (hk : Kept P s0 s) :
    KeptO P s0 (execReboot s src v t) := by
  unfold execReboot
  try dsimp only
  repeat' first | with_reducible assumption | with_reducible apply writeReg_kept

theorem execRevgo_kept {P : Part → Prop} [May P .fresh_] [May P .regs_] [May P .lost_] [May P .mem_] [May P .fab_] [May P .grains_] [May P .inbox_] [May P .led_] [May P .lnk_] [May P .swp_] [May P .trip_] [May P .boot_] [May P .gate_] [May P .regu_] [May P .out_] [May P .cur_] [May P .sf_] [May P .can_] [May P .eth_] [May P .sv_] [May P .corr_] [May P .est_] {s0 : State} {s : State} {src : Nat} {v : Nat} {t : Nat} (hk : Kept P s0 s) :
    KeptO P s0 (execRevgo s src v t) := by
  unfold execRevgo
  try dsimp only
  repeat' first | with_reducible assumption | with_reducible apply writeReg_kept

theorem execDbggo_kept {P : Part → Prop} [May P .fresh_] [May P .regs_] [May P .lost_] [May P .mem_] [May P .fab_] [May P .grains_] [May P .inbox_] [May P .led_] [May P .lnk_] [May P .swp_] [May P .trip_] [May P .boot_] [May P .gate_] [May P .regu_] [May P .out_] [May P .cur_] [May P .sf_] [May P .can_] [May P .eth_] [May P .sv_] [May P .corr_] [May P .est_] {s0 : State} {s : State} {src : Nat} {v : Nat} {t : Nat} (hk : Kept P s0 s) :
    KeptO P s0 (execDbggo s src v t) := by
  unfold execDbggo
  try dsimp only
  repeat' first | with_reducible assumption | with_reducible apply writeReg_kept

theorem execDbglock_kept {P : Part → Prop} [May P .fresh_] [May P .regs_] [May P .lost_] [May P .mem_] [May P .fab_] [May P .grains_] [May P .inbox_] [May P .led_] [May P .lnk_] [May P .swp_] [May P .trip_] [May P .boot_] [May P .gate_] [May P .regu_] [May P .out_] [May P .cur_] [May P .sf_] [May P .can_] [May P .eth_] [May P .sv_] [May P .corr_] [May P .est_] {s0 : State} {s : State} {src : Nat} {v : Nat} {t : Nat} (hk : Kept P s0 s) :
    KeptO P s0 (execDbglock s src v t) := by
  unfold execDbglock
  try dsimp only
  repeat' first | with_reducible assumption | with_reducible apply writeReg_kept

theorem execOtpGo_kept {P : Part → Prop} [May P .fresh_] [May P .regs_] [May P .lost_] [May P .mem_] [May P .fab_] [May P .grains_] [May P .inbox_] [May P .led_] [May P .lnk_] [May P .swp_] [May P .trip_] [May P .boot_] [May P .gate_] [May P .regu_] [May P .out_] [May P .cur_] [May P .sf_] [May P .can_] [May P .eth_] [May P .sv_] [May P .corr_] [May P .est_] {s0 : State} {s : State} {src : Nat} {v : Nat} {t : Nat} (hk : Kept P s0 s) :
    KeptO P s0 (execOtpGo s src v t) := by
  unfold execOtpGo
  try dsimp only
  repeat' first | with_reducible assumption | with_reducible apply writeReg_kept

theorem execUnlock_kept {P : Part → Prop} [May P .fresh_] [May P .regs_] [May P .lost_] [May P .mem_] [May P .fab_] [May P .grains_] [May P .inbox_] [May P .led_] [May P .lnk_] [May P .swp_] [May P .trip_] [May P .boot_] [May P .gate_] [May P .regu_] [May P .out_] [May P .cur_] [May P .sf_] [May P .can_] [May P .eth_] [May P .sv_] [May P .corr_] [May P .est_] {s0 : State} {s : State} {src : Nat} {v : Nat} {t : Nat} (hk : Kept P s0 s) :
    KeptO P s0 (execUnlock s src v t) := by
  unfold execUnlock
  try dsimp only
  repeat' first | with_reducible assumption | with_reducible apply writeReg_kept

theorem execLock_kept {P : Part → Prop} [May P .fresh_] [May P .regs_] [May P .lost_] [May P .mem_] [May P .fab_] [May P .grains_] [May P .inbox_] [May P .led_] [May P .lnk_] [May P .swp_] [May P .trip_] [May P .boot_] [May P .gate_] [May P .regu_] [May P .out_] [May P .cur_] [May P .sf_] [May P .can_] [May P .eth_] [May P .sv_] [May P .corr_] [May P .est_] {s0 : State} {s : State} {src : Nat} {v : Nat} {t : Nat} (hk : Kept P s0 s) :
    KeptO P s0 (execLock s src v t) := by
  unfold execLock
  try dsimp only
  repeat' first | with_reducible assumption | with_reducible apply writeReg_kept

theorem execSetpw_kept {P : Part → Prop} [May P .fresh_] [May P .regs_] [May P .lost_] [May P .mem_] [May P .fab_] [May P .grains_] [May P .inbox_] [May P .led_] [May P .lnk_] [May P .swp_] [May P .trip_] [May P .boot_] [May P .gate_] [May P .regu_] [May P .out_] [May P .cur_] [May P .sf_] [May P .can_] [May P .eth_] [May P .sv_] [May P .corr_] [May P .est_] {s0 : State} {s : State} {src : Nat} {v : Nat} {t : Nat} (hk : Kept P s0 s) :
    KeptO P s0 (execSetpw s src v t) := by
  unfold execSetpw
  try dsimp only
  repeat' first | with_reducible assumption | with_reducible apply writeReg_kept

theorem execClrpw_kept {P : Part → Prop} [May P .fresh_] [May P .regs_] [May P .lost_] [May P .mem_] [May P .fab_] [May P .grains_] [May P .inbox_] [May P .led_] [May P .lnk_] [May P .swp_] [May P .trip_] [May P .boot_] [May P .gate_] [May P .regu_] [May P .out_] [May P .cur_] [May P .sf_] [May P .can_] [May P .eth_] [May P .sv_] [May P .corr_] [May P .est_] {s0 : State} {s : State} {src : Nat} {v : Nat} {t : Nat} (hk : Kept P s0 s) :
    KeptO P s0 (execClrpw s src v t) := by
  unfold execClrpw
  try dsimp only
  repeat' first | with_reducible assumption | with_reducible apply writeReg_kept

theorem execKeyImport_kept {P : Part → Prop} [May P .fresh_] [May P .regs_] [May P .lost_] [May P .mem_] [May P .fab_] [May P .grains_] [May P .inbox_] [May P .led_] [May P .lnk_] [May P .swp_] [May P .trip_] [May P .boot_] [May P .gate_] [May P .regu_] [May P .out_] [May P .cur_] [May P .sf_] [May P .can_] [May P .eth_] [May P .sv_] [May P .corr_] [May P .est_] {s0 : State} {s : State} {src : Nat} {v : Nat} {t : Nat} (hk : Kept P s0 s) :
    KeptO P s0 (execKeyImport s src v t) := by
  unfold execKeyImport
  try dsimp only
  repeat' first | with_reducible assumption | with_reducible apply writeReg_kept

theorem execReclaim_kept {P : Part → Prop} [May P .fresh_] [May P .regs_] [May P .lost_] [May P .mem_] [May P .fab_] [May P .grains_] [May P .inbox_] [May P .led_] [May P .lnk_] [May P .swp_] [May P .trip_] [May P .boot_] [May P .gate_] [May P .regu_] [May P .out_] [May P .cur_] [May P .sf_] [May P .can_] [May P .eth_] [May P .sv_] [May P .corr_] [May P .est_] {s0 : State} {s : State} {src : Nat} {v : Nat} {t : Nat} (hk : Kept P s0 s) :
    KeptO P s0 (execReclaim s src v t) := by
  unfold execReclaim
  try dsimp only
  repeat' first | with_reducible assumption | with_reducible apply writeReg_kept

theorem execClrall_kept {P : Part → Prop} [May P .fresh_] [May P .regs_] [May P .lost_] [May P .mem_] [May P .fab_] [May P .grains_] [May P .inbox_] [May P .led_] [May P .lnk_] [May P .swp_] [May P .trip_] [May P .boot_] [May P .gate_] [May P .regu_] [May P .out_] [May P .cur_] [May P .sf_] [May P .can_] [May P .eth_] [May P .sv_] [May P .corr_] [May P .est_] {s0 : State} {s : State} {src : Nat} {v : Nat} {t : Nat} (hk : Kept P s0 s) :
    KeptO P s0 (execClrall s src v t) := by
  unfold execClrall
  try dsimp only
  repeat' first | with_reducible assumption | with_reducible apply writeReg_kept

theorem execKick_kept {P : Part → Prop} [May P .fresh_] [May P .regs_] [May P .lost_] [May P .mem_] [May P .fab_] [May P .grains_] [May P .inbox_] [May P .led_] [May P .lnk_] [May P .swp_] [May P .trip_] [May P .boot_] [May P .gate_] [May P .regu_] [May P .out_] [May P .cur_] [May P .sf_] [May P .can_] [May P .eth_] [May P .sv_] [May P .corr_] [May P .est_] {s0 : State} {s : State} {src : Nat} {v : Nat} {t : Nat} (hk : Kept P s0 s) :
    KeptO P s0 (execKick s src v t) := by
  unfold execKick
  try dsimp only
  repeat' first | with_reducible assumption | with_reducible apply writeReg_kept

theorem execCorrClr_kept {P : Part → Prop} [May P .fresh_] [May P .regs_] [May P .lost_] [May P .mem_] [May P .fab_] [May P .grains_] [May P .inbox_] [May P .led_] [May P .lnk_] [May P .swp_] [May P .trip_] [May P .boot_] [May P .gate_] [May P .regu_] [May P .out_] [May P .cur_] [May P .sf_] [May P .can_] [May P .eth_] [May P .sv_] [May P .corr_] [May P .est_] {s0 : State} {s : State} {src : Nat} {b : Fin 4} {v : Nat} {t : Nat} (hk : Kept P s0 s) :
    KeptO P s0 (execCorrClr s src b v t) := by
  unfold execCorrClr
  try dsimp only
  repeat' first | with_reducible assumption | with_reducible apply writeReg_kept

theorem execQputhi_kept {P : Part → Prop} [May P .fresh_] [May P .regs_] [May P .lost_] [May P .mem_] [May P .fab_] [May P .grains_] [May P .inbox_] [May P .led_] [May P .lnk_] [May P .swp_] [May P .trip_] [May P .boot_] [May P .gate_] [May P .regu_] [May P .out_] [May P .cur_] [May P .sf_] [May P .can_] [May P .eth_] [May P .sv_] [May P .corr_] [May P .est_] {s0 : State} {s : State} {src : Nat} {n : Fin 64} {v : Nat} {t : Nat} (hk : Kept P s0 s) :
    KeptO P s0 (execQputhi s src n v t) := by
  unfold execQputhi
  try dsimp only
  repeat' first | with_reducible assumption | with_reducible apply writeReg_kept

theorem execQgetlo_kept {P : Part → Prop} [May P .fresh_] [May P .regs_] [May P .lost_] [May P .fab_] [May P .led_] [May P .boot_] {s0 : State} {s : State} {n : Fin 64} {t : Nat} (hk : Kept P s0 s) :
    KeptO P s0 (execQgetlo s n t) := by
  unfold execQgetlo
  try dsimp only
  repeat' first
    | with_reducible assumption
    | with_reducible apply State.at_kept
    | with_reducible apply State.extRead_kept
    | with_reducible apply KeptO.of_next

end Sys2Proof.Machine
end

