-- ==== Sys2Proof/Laws/Kept/VecMove.lean ====
section
/-!
SUPPORT. What the operations of Machine/VecMove.lean keep.
-/

set_option Elab.async false
set_option linter.unusedTactic false
set_option linter.unreachableTactic false

namespace Sys2Proof.Machine

theorem State.vcompare_kept {P : Part → Prop} [May P .regs_] [May P .lost_] [May P .fab_] [May P .grains_] [May P .inbox_] [May P .led_] {s0 : State} {s : State} {g : GrainId} {t : Nat} {func : Nat} {pd : Nat} {a : Nat} {b : Nat} {pg : Nat} {f : Nat → Nat → Bool} (hk : Kept P s0 s) :
    KeptO P s0 (State.vcompare s g t func pd a b pg f) := by
  unfold State.vcompare
  try dsimp only
  repeat' first
    | with_reducible assumption
    | with_reducible apply State.issue_kept
    | with_reducible apply State.putPred_kept
    | with_reducible apply State.stepOn_kept
    | with_reducible apply KeptO.of_next
    | (intro _; intros; try dsimp only)

theorem State.plogic_kept {P : Part → Prop} [May P .regs_] [May P .lost_] [May P .fab_] [May P .grains_] [May P .inbox_] [May P .led_] {s0 : State} {s : State} {g : GrainId} {t : Nat} {func : Nat} {pd : Nat} {a : Nat} {b : Nat} {f : Bool → Bool → Bool} (hk : Kept P s0 s) :
    KeptO P s0 (State.plogic s g t func pd a b f) := by
  unfold State.plogic
  try dsimp only
  repeat' first
    | with_reducible assumption
    | with_reducible apply State.issue_kept
    | with_reducible apply State.putPred_kept
    | with_reducible apply State.stepOn_kept
    | with_reducible apply KeptO.of_next
    | (intro _; intros; try dsimp only)

theorem execVcmpEqI_kept {P : Part → Prop} [May P .regs_] [May P .lost_] [May P .fab_] [May P .grains_] [May P .inbox_] [May P .led_] {s0 : State} {s : State} {g : GrainId} {pd : Fin 8} {a : Fin 32} {b : Fin 32} {pg : Fin 8} {t : Nat} (hk : Kept P s0 s) :
    KeptO P s0 (execVcmpEqI s g pd a b pg t) := by
  unfold execVcmpEqI
  try dsimp only
  repeat' first | with_reducible assumption | with_reducible apply State.vcompare_kept

theorem execVcmpNeI_kept {P : Part → Prop} [May P .regs_] [May P .lost_] [May P .fab_] [May P .grains_] [May P .inbox_] [May P .led_] {s0 : State} {s : State} {g : GrainId} {pd : Fin 8} {a : Fin 32} {b : Fin 32} {pg : Fin 8} {t : Nat} (hk : Kept P s0 s) :
    KeptO P s0 (execVcmpNeI s g pd a b pg t) := by
  unfold execVcmpNeI
  try dsimp only
  repeat' first | with_reducible assumption | with_reducible apply State.vcompare_kept

theorem execVcmpLtI_kept {P : Part → Prop} [May P .regs_] [May P .lost_] [May P .fab_] [May P .grains_] [May P .inbox_] [May P .led_] {s0 : State} {s : State} {g : GrainId} {pd : Fin 8} {a : Fin 32} {b : Fin 32} {pg : Fin 8} {t : Nat} (hk : Kept P s0 s) :
    KeptO P s0 (execVcmpLtI s g pd a b pg t) := by
  unfold execVcmpLtI
  try dsimp only
  repeat' first | with_reducible assumption | with_reducible apply State.vcompare_kept

theorem execVcmpLeI_kept {P : Part → Prop} [May P .regs_] [May P .lost_] [May P .fab_] [May P .grains_] [May P .inbox_] [May P .led_] {s0 : State} {s : State} {g : GrainId} {pd : Fin 8} {a : Fin 32} {b : Fin 32} {pg : Fin 8} {t : Nat} (hk : Kept P s0 s) :
    KeptO P s0 (execVcmpLeI s g pd a b pg t) := by
  unfold execVcmpLeI
  try dsimp only
  repeat' first | with_reducible assumption | with_reducible apply State.vcompare_kept

theorem execVcmpLtu_kept {P : Part → Prop} [May P .regs_] [May P .lost_] [May P .fab_] [May P .grains_] [May P .inbox_] [May P .led_] {s0 : State} {s : State} {g : GrainId} {pd : Fin 8} {a : Fin 32} {b : Fin 32} {pg : Fin 8} {t : Nat} (hk : Kept P s0 s) :
    KeptO P s0 (execVcmpLtu s g pd a b pg t) := by
  unfold execVcmpLtu
  try dsimp only
  repeat' first | with_reducible assumption | with_reducible apply State.vcompare_kept

theorem execVcmpLeu_kept {P : Part → Prop} [May P .regs_] [May P .lost_] [May P .fab_] [May P .grains_] [May P .inbox_] [May P .led_] {s0 : State} {s : State} {g : GrainId} {pd : Fin 8} {a : Fin 32} {b : Fin 32} {pg : Fin 8} {t : Nat} (hk : Kept P s0 s) :
    KeptO P s0 (execVcmpLeu s g pd a b pg t) := by
  unfold execVcmpLeu
  try dsimp only
  repeat' first | with_reducible assumption | with_reducible apply State.vcompare_kept

theorem execVcmpEqF_kept {P : Part → Prop} [May P .regs_] [May P .lost_] [May P .fab_] [May P .grains_] [May P .inbox_] [May P .led_] {s0 : State} {s : State} {g : GrainId} {pd : Fin 8} {a : Fin 32} {b : Fin 32} {pg : Fin 8} {t : Nat} (hk : Kept P s0 s) :
    KeptO P s0 (execVcmpEqF s g pd a b pg t) := by
  unfold execVcmpEqF
  try dsimp only
  repeat' first | with_reducible assumption | with_reducible apply State.vcompare_kept

theorem execVcmpLtF_kept {P : Part → Prop} [May P .regs_] [May P .lost_] [May P .fab_] [May P .grains_] [May P .inbox_] [May P .led_] {s0 : State} {s : State} {g : GrainId} {pd : Fin 8} {a : Fin 32} {b : Fin 32} {pg : Fin 8} {t : Nat} (hk : Kept P s0 s) :
    KeptO P s0 (execVcmpLtF s g pd a b pg t) := by
  unfold execVcmpLtF
  try dsimp only
  repeat' first | with_reducible assumption | with_reducible apply State.vcompare_kept

theorem execVcmpLeF_kept {P : Part → Prop} [May P .regs_] [May P .lost_] [May P .fab_] [May P .grains_] [May P .inbox_] [May P .led_] {s0 : State} {s : State} {g : GrainId} {pd : Fin 8} {a : Fin 32} {b : Fin 32} {pg : Fin 8} {t : Nat} (hk : Kept P s0 s) :
    KeptO P s0 (execVcmpLeF s g pd a b pg t) := by
  unfold execVcmpLeF
  try dsimp only
  repeat' first | with_reducible assumption | with_reducible apply State.vcompare_kept

theorem execVcmpUnF_kept {P : Part → Prop} [May P .regs_] [May P .lost_] [May P .fab_] [May P .grains_] [May P .inbox_] [May P .led_] {s0 : State} {s : State} {g : GrainId} {pd : Fin 8} {a : Fin 32} {b : Fin 32} {pg : Fin 8} {t : Nat} (hk : Kept P s0 s) :
    KeptO P s0 (execVcmpUnF s g pd a b pg t) := by
  unfold execVcmpUnF
  try dsimp only
  repeat' first | with_reducible assumption | with_reducible apply State.vcompare_kept

theorem execPand_kept {P : Part → Prop} [May P .regs_] [May P .lost_] [May P .fab_] [May P .grains_] [May P .inbox_] [May P .led_] {s0 : State} {s : State} {g : GrainId} {pd : Fin 8} {a : Fin 8} {b : Fin 8} {t : Nat} (hk : Kept P s0 s) :
    KeptO P s0 (execPand s g pd a b t) := by
  unfold execPand
  try dsimp only
  repeat' first | with_reducible assumption | with_reducible apply State.plogic_kept

theorem execPor_kept {P : Part → Prop} [May P .regs_] [May P .lost_] [May P .fab_] [May P .grains_] [May P .inbox_] [May P .led_] {s0 : State} {s : State} {g : GrainId} {pd : Fin 8} {a : Fin 8} {b : Fin 8} {t : Nat} (hk : Kept P s0 s) :
    KeptO P s0 (execPor s g pd a b t) := by
  unfold execPor
  try dsimp only
  repeat' first | with_reducible assumption | with_reducible apply State.plogic_kept

theorem execPxor_kept {P : Part → Prop} [May P .regs_] [May P .lost_] [May P .fab_] [May P .grains_] [May P .inbox_] [May P .led_] {s0 : State} {s : State} {g : GrainId} {pd : Fin 8} {a : Fin 8} {b : Fin 8} {t : Nat} (hk : Kept P s0 s) :
    KeptO P s0 (execPxor s g pd a b t) := by
  unfold execPxor
  try dsimp only
  repeat' first | with_reducible assumption | with_reducible apply State.plogic_kept

theorem execPnot_kept {P : Part → Prop} [May P .regs_] [May P .lost_] [May P .fab_] [May P .grains_] [May P .inbox_] [May P .led_] {s0 : State} {s : State} {g : GrainId} {pd : Fin 8} {a : Fin 8} {t : Nat} (hk : Kept P s0 s) :
    KeptO P s0 (execPnot s g pd a t) := by
  unfold execPnot
  try dsimp only
  repeat' first | with_reducible assumption | with_reducible apply State.plogic_kept

theorem execPmv_kept {P : Part → Prop} [May P .regs_] [May P .lost_] [May P .fab_] [May P .grains_] [May P .inbox_] [May P .led_] {s0 : State} {s : State} {g : GrainId} {pd : Fin 8} {rs1 : Fin 32} {t : Nat} (hk : Kept P s0 s) :
    KeptO P s0 (execPmv s g pd rs1 t) := by
  unfold execPmv
  try dsimp only
  repeat' first
    | with_reducible assumption
    | with_reducible apply State.issue_kept
    | with_reducible apply State.putPred_kept
    | with_reducible apply State.stepOn_kept
    | with_reducible apply KeptO.of_next
    | (intro _; intros; try dsimp only)

theorem execPget_kept {P : Part → Prop} [May P .regs_] [May P .lost_] [May P .fab_] [May P .grains_] [May P .inbox_] [May P .led_] {s0 : State} {s : State} {g : GrainId} {rd : Fin 32} {a : Fin 8} {t : Nat} (hk : Kept P s0 s) :
    KeptO P s0 (execPget s g rd a t) := by
  unfold execPget
  try dsimp only
  repeat' first
    | with_reducible assumption
    | with_reducible apply State.issue_kept
    | with_reducible apply State.setG_kept
    | with_reducible apply State.stepOn_kept
    | with_reducible apply KeptO.of_next
    | with_reducible apply Kept.foldl
    | (intro _; intros; try dsimp only)

theorem execVbcast_kept {P : Part → Prop} [May P .regs_] [May P .lost_] [May P .fab_] [May P .grains_] [May P .inbox_] [May P .led_] {s0 : State} {s : State} {g : GrainId} {vd : Fin 32} {rs1 : Fin 32} {pg : Fin 8} {t : Nat} (hk : Kept P s0 s) :
    KeptO P s0 (execVbcast s g vd rs1 pg t) := by
  unfold execVbcast
  try dsimp only
  repeat' first | with_reducible assumption | with_reducible apply State.laneOp_kept

theorem execVins_kept {P : Part → Prop} [May P .regs_] [May P .lost_] [May P .fab_] [May P .grains_] [May P .inbox_] [May P .led_] {s0 : State} {s : State} {g : GrainId} {vd : Fin 32} {rs1 : Fin 32} {lane : Fin 8} {t : Nat} (hk : Kept P s0 s) :
    KeptO P s0 (execVins s g vd rs1 lane t) := by
  unfold execVins
  try dsimp only
  repeat' first
    | with_reducible assumption
    | with_reducible apply State.issue_kept
    | with_reducible apply State.setLane_kept
    | with_reducible apply State.stepOn_kept
    | with_reducible apply KeptO.of_next
    | (intro _; intros; try dsimp only)

theorem execVext_kept {P : Part → Prop} [May P .regs_] [May P .lost_] [May P .fab_] [May P .grains_] [May P .inbox_] [May P .led_] {s0 : State} {s : State} {g : GrainId} {rd : Fin 32} {vs1 : Fin 32} {lane : Fin 8} {t : Nat} (hk : Kept P s0 s) :
    KeptO P s0 (execVext s g rd vs1 lane t) := by
  unfold execVext
  try dsimp only
  repeat' first
    | with_reducible assumption
    | with_reducible apply State.issue_kept
    | with_reducible apply State.setG_kept
    | with_reducible apply State.stepOn_kept
    | with_reducible apply KeptO.of_next
    | (intro _; intros; try dsimp only)

theorem execVsel_kept {P : Part → Prop} [May P .regs_] [May P .lost_] [May P .fab_] [May P .grains_] [May P .inbox_] [May P .led_] {s0 : State} {s : State} {g : GrainId} {vd : Fin 32} {a : Fin 32} {b : Fin 32} {pg : Fin 8} {t : Nat} (hk : Kept P s0 s) :
    KeptO P s0 (execVsel s g vd a b pg t) := by
  unfold execVsel
  try dsimp only
  repeat' first
    | with_reducible assumption
    | with_reducible apply State.issue_kept
    | with_reducible apply State.putLanes_kept
    | with_reducible apply State.stepOn_kept
    | with_reducible apply KeptO.of_next
    | with_reducible apply KeptO.ite
    | with_reducible apply Kept.ite
    | (intro _; intros; try dsimp only)

theorem execVmv_kept {P : Part → Prop} [May P .regs_] [May P .lost_] [May P .fab_] [May P .grains_] [May P .inbox_] [May P .led_] {s0 : State} {s : State} {g : GrainId} {vd : Fin 32} {a : Fin 32} {pg : Fin 8} {t : Nat} (hk : Kept P s0 s) :
    KeptO P s0 (execVmv s g vd a pg t) := by
  unfold execVmv
  try dsimp only
  repeat' first | with_reducible assumption | with_reducible apply State.laneOp_kept

theorem execVid_kept {P : Part → Prop} [May P .regs_] [May P .lost_] [May P .fab_] [May P .grains_] [May P .inbox_] [May P .led_] {s0 : State} {s : State} {g : GrainId} {vd : Fin 32} {pg : Fin 8} {t : Nat} (hk : Kept P s0 s) :
    KeptO P s0 (execVid s g vd pg t) := by
  unfold execVid
  try dsimp only
  repeat' first | with_reducible assumption | with_reducible apply State.laneOp_kept

theorem State.reduce_kept {P : Part → Prop} [May P .regs_] [May P .lost_] [May P .fab_] [May P .grains_] [May P .inbox_] [May P .led_] {s0 : State} {s : State} {g : GrainId} {t : Nat} {func : Nat} {rd : Nat} {a : Nat} {pg : Nat} {ident : Nat} {f : Nat → Nat → Nat} (hk : Kept P s0 s) :
    KeptO P s0 (State.reduce s g t func rd a pg ident f) := by
  unfold State.reduce
  try dsimp only
  repeat' first
    | with_reducible assumption
    | with_reducible apply State.issue_kept
    | with_reducible apply State.setG_kept
    | with_reducible apply State.stepOn_kept
    | with_reducible apply KeptO.of_next
    | with_reducible apply KeptO.ite
    | with_reducible apply Kept.ite
    | (intro _; intros; try dsimp only)

theorem execVredaddI_kept {P : Part → Prop} [May P .regs_] [May P .lost_] [May P .fab_] [May P .grains_] [May P .inbox_] [May P .led_] {s0 : State} {s : State} {g : GrainId} {rd : Fin 32} {a : Fin 32} {pg : Fin 8} {t : Nat} (hk : Kept P s0 s) :
    KeptO P s0 (execVredaddI s g rd a pg t) := by
  unfold execVredaddI
  try dsimp only
  repeat' first | with_reducible assumption | with_reducible apply State.reduce_kept

theorem execVredaddF_kept {P : Part → Prop} [May P .regs_] [May P .lost_] [May P .fab_] [May P .grains_] [May P .inbox_] [May P .led_] {s0 : State} {s : State} {g : GrainId} {rd : Fin 32} {a : Fin 32} {pg : Fin 8} {t : Nat} (hk : Kept P s0 s) :
    KeptO P s0 (execVredaddF s g rd a pg t) := by
  unfold execVredaddF
  try dsimp only
  repeat' first | with_reducible assumption | with_reducible apply State.reduce_kept

theorem execVredmaxF_kept {P : Part → Prop} [May P .regs_] [May P .lost_] [May P .fab_] [May P .grains_] [May P .inbox_] [May P .led_] {s0 : State} {s : State} {g : GrainId} {rd : Fin 32} {a : Fin 32} {pg : Fin 8} {t : Nat} (hk : Kept P s0 s) :
    KeptO P s0 (execVredmaxF s g rd a pg t) := by
  unfold execVredmaxF
  try dsimp only
  repeat' first | with_reducible assumption | with_reducible apply State.reduce_kept

theorem execVredminF_kept {P : Part → Prop} [May P .regs_] [May P .lost_] [May P .fab_] [May P .grains_] [May P .inbox_] [May P .led_] {s0 : State} {s : State} {g : GrainId} {rd : Fin 32} {a : Fin 32} {pg : Fin 8} {t : Nat} (hk : Kept P s0 s) :
    KeptO P s0 (execVredminF s g rd a pg t) := by
  unfold execVredminF
  try dsimp only
  repeat' first | with_reducible assumption | with_reducible apply State.reduce_kept

theorem execVredmaxI_kept {P : Part → Prop} [May P .regs_] [May P .lost_] [May P .fab_] [May P .grains_] [May P .inbox_] [May P .led_] {s0 : State} {s : State} {g : GrainId} {rd : Fin 32} {a : Fin 32} {pg : Fin 8} {t : Nat} (hk : Kept P s0 s) :
    KeptO P s0 (execVredmaxI s g rd a pg t) := by
  unfold execVredmaxI
  try dsimp only
  repeat' first | with_reducible assumption | with_reducible apply State.reduce_kept

theorem execVredminI_kept {P : Part → Prop} [May P .regs_] [May P .lost_] [May P .fab_] [May P .grains_] [May P .inbox_] [May P .led_] {s0 : State} {s : State} {g : GrainId} {rd : Fin 32} {a : Fin 32} {pg : Fin 8} {t : Nat} (hk : Kept P s0 s) :
    KeptO P s0 (execVredminI s g rd a pg t) := by
  unfold execVredminI
  try dsimp only
  repeat' first | with_reducible assumption | with_reducible apply State.reduce_kept

end Sys2Proof.Machine
end

