-- ==== Sys2Proof/Laws/Kept/Dispatch.lean ====
section
/-!
SUPPORT. What every command keeps, and which parts it changes: one lemma per list of parts, and the case split over the
commands.
-/

set_option Elab.async false
set_option linter.unusedTactic false
set_option linter.unreachableTactic false

namespace Sys2Proof.Machine

variable {P : Part → Prop}

theorem May.list0 {C : Prop} (h : ∀ x ∈ ([.fresh_, .regs_, .lost_, .mem_, .fab_, .grains_, .inbox_, .led_, .lnk_,
    .swp_, .trip_, .boot_, .gate_, .regu_, .out_, .cur_, .sf_, .can_, .eth_, .sv_, .corr_, .est_] : List Part), P x)
    (k : [May P .fresh_] → [May P .regs_] → [May P .lost_] → [May P .mem_] → [May P .fab_] → [May P .grains_] → [May
    P .inbox_] → [May P .led_] → [May P .lnk_] → [May P .swp_] → [May P .trip_] → [May P .boot_] → [May P .gate_] →
    [May P .regu_] → [May P .out_] → [May P .cur_] → [May P .sf_] → [May P .can_] → [May P .eth_] → [May P .sv_] →
    [May P .corr_] → [May P .est_] → C) : C :=
  @k ⟨h _ (by decide)⟩ ⟨h _ (by decide)⟩ ⟨h _ (by decide)⟩ ⟨h _ (by decide)⟩ ⟨h _ (by decide)⟩ ⟨h _ (by decide)⟩ ⟨h _ (by decide)⟩ ⟨h _ (by decide)⟩ ⟨h _ (by decide)⟩ ⟨h _ (by decide)⟩ ⟨h _ (by decide)⟩ ⟨h _ (by decide)⟩ ⟨h _ (by decide)⟩ ⟨h _ (by decide)⟩ ⟨h _ (by decide)⟩ ⟨h _ (by decide)⟩ ⟨h _ (by decide)⟩ ⟨h _ (by decide)⟩ ⟨h _ (by decide)⟩ ⟨h _ (by decide)⟩ ⟨h _ (by decide)⟩ ⟨h _ (by decide)⟩

theorem May.list1 {C : Prop} (h : ∀ x ∈ ([.fresh_, .regs_, .lost_, .fab_, .led_, .boot_] : List Part), P x) (k : [May
    P .fresh_] → [May P .regs_] → [May P .lost_] → [May P .fab_] → [May P .led_] → [May P .boot_] → C) : C :=
  @k ⟨h _ (by decide)⟩ ⟨h _ (by decide)⟩ ⟨h _ (by decide)⟩ ⟨h _ (by decide)⟩ ⟨h _ (by decide)⟩ ⟨h _ (by decide)⟩

theorem May.list2 {C : Prop} (h : ∀ x ∈ ([.lnk_] : List Part), P x) (k : [May P .lnk_] → C) : C :=
  @k ⟨h _ (by decide)⟩

theorem May.list3 {C : Prop} (h : ∀ x ∈ ([.regs_, .lost_, .mem_, .fab_, .led_, .lnk_, .swp_, .trip_, .gate_, .regu_,
    .out_, .cur_] : List Part), P x) (k : [May P .regs_] → [May P .lost_] → [May P .mem_] → [May P .fab_] → [May P
    .led_] → [May P .lnk_] → [May P .swp_] → [May P .trip_] → [May P .gate_] → [May P .regu_] → [May P .out_] → [May
    P .cur_] → C) : C :=
  @k ⟨h _ (by decide)⟩ ⟨h _ (by decide)⟩ ⟨h _ (by decide)⟩ ⟨h _ (by decide)⟩ ⟨h _ (by decide)⟩ ⟨h _ (by decide)⟩ ⟨h _ (by decide)⟩ ⟨h _ (by decide)⟩ ⟨h _ (by decide)⟩ ⟨h _ (by decide)⟩ ⟨h _ (by decide)⟩ ⟨h _ (by decide)⟩

theorem May.list4 {C : Prop} (h : ∀ x ∈ ([.fresh_, .regs_, .lost_, .fab_, .led_, .lnk_, .trip_] : List Part), P x) (k
    : [May P .fresh_] → [May P .regs_] → [May P .lost_] → [May P .fab_] → [May P .led_] → [May P .lnk_] → [May P
    .trip_] → C) : C :=
  @k ⟨h _ (by decide)⟩ ⟨h _ (by decide)⟩ ⟨h _ (by decide)⟩ ⟨h _ (by decide)⟩ ⟨h _ (by decide)⟩ ⟨h _ (by decide)⟩ ⟨h _ (by decide)⟩

theorem May.list5 {C : Prop} (h : ∀ x ∈ ([.fresh_, .regs_, .lost_, .mem_, .fab_, .led_, .lnk_, .trip_, .boot_] : List
    Part), P x) (k : [May P .fresh_] → [May P .regs_] → [May P .lost_] → [May P .mem_] → [May P .fab_] → [May P
    .led_] → [May P .lnk_] → [May P .trip_] → [May P .boot_] → C) : C :=
  @k ⟨h _ (by decide)⟩ ⟨h _ (by decide)⟩ ⟨h _ (by decide)⟩ ⟨h _ (by decide)⟩ ⟨h _ (by decide)⟩ ⟨h _ (by decide)⟩ ⟨h _ (by decide)⟩ ⟨h _ (by decide)⟩ ⟨h _ (by decide)⟩

theorem May.list6 {C : Prop} (h : ∀ x ∈ ([.regs_, .lost_, .fab_, .led_, .lnk_] : List Part), P x) (k : [May P .regs_]
    → [May P .lost_] → [May P .fab_] → [May P .led_] → [May P .lnk_] → C) : C :=
  @k ⟨h _ (by decide)⟩ ⟨h _ (by decide)⟩ ⟨h _ (by decide)⟩ ⟨h _ (by decide)⟩ ⟨h _ (by decide)⟩

theorem May.list7 {C : Prop} (h : ∀ x ∈ ([.fab_, .lnk_] : List Part), P x) (k : [May P .fab_] → [May P .lnk_] → C) :
    C :=
  @k ⟨h _ (by decide)⟩ ⟨h _ (by decide)⟩

theorem May.list8 {C : Prop} (h : ∀ x ∈ ([.regs_, .lost_, .fab_, .lnk_] : List Part), P x) (k : [May P .regs_] → [May
    P .lost_] → [May P .fab_] → [May P .lnk_] → C) : C :=
  @k ⟨h _ (by decide)⟩ ⟨h _ (by decide)⟩ ⟨h _ (by decide)⟩ ⟨h _ (by decide)⟩

theorem May.list9 {C : Prop} (h : ∀ x ∈ ([.fresh_, .lost_, .fab_, .led_, .lnk_] : List Part), P x) (k : [May P
    .fresh_] → [May P .lost_] → [May P .fab_] → [May P .led_] → [May P .lnk_] → C) : C :=
  @k ⟨h _ (by decide)⟩ ⟨h _ (by decide)⟩ ⟨h _ (by decide)⟩ ⟨h _ (by decide)⟩ ⟨h _ (by decide)⟩

theorem May.list10 {C : Prop} (h : ∀ x ∈ ([.regs_, .lost_, .fab_, .grains_, .inbox_, .led_, .lnk_] : List Part), P x)
    (k : [May P .regs_] → [May P .lost_] → [May P .fab_] → [May P .grains_] → [May P .inbox_] → [May P .led_] → [May
    P .lnk_] → C) : C :=
  @k ⟨h _ (by decide)⟩ ⟨h _ (by decide)⟩ ⟨h _ (by decide)⟩ ⟨h _ (by decide)⟩ ⟨h _ (by decide)⟩ ⟨h _ (by decide)⟩ ⟨h _ (by decide)⟩

theorem May.list11 {C : Prop} (h : ∀ x ∈ ([.fab_, .grains_, .lnk_] : List Part), P x) (k : [May P .fab_] → [May P
    .grains_] → [May P .lnk_] → C) : C :=
  @k ⟨h _ (by decide)⟩ ⟨h _ (by decide)⟩ ⟨h _ (by decide)⟩

theorem May.list12 {C : Prop} (h : ∀ x ∈ ([.fresh_, .regs_, .lost_, .mem_, .fab_, .grains_, .inbox_, .led_, .lnk_] :
    List Part), P x) (k : [May P .fresh_] → [May P .regs_] → [May P .lost_] → [May P .mem_] → [May P .fab_] → [May P
    .grains_] → [May P .inbox_] → [May P .led_] → [May P .lnk_] → C) : C :=
  @k ⟨h _ (by decide)⟩ ⟨h _ (by decide)⟩ ⟨h _ (by decide)⟩ ⟨h _ (by decide)⟩ ⟨h _ (by decide)⟩ ⟨h _ (by decide)⟩ ⟨h _ (by decide)⟩ ⟨h _ (by decide)⟩ ⟨h _ (by decide)⟩

theorem May.list13 {C : Prop} (h : ∀ x ∈ ([.fresh_, .mem_, .fab_, .grains_, .lnk_] : List Part), P x) (k : [May P
    .fresh_] → [May P .mem_] → [May P .fab_] → [May P .grains_] → [May P .lnk_] → C) : C :=
  @k ⟨h _ (by decide)⟩ ⟨h _ (by decide)⟩ ⟨h _ (by decide)⟩ ⟨h _ (by decide)⟩ ⟨h _ (by decide)⟩

theorem May.list14 {C : Prop} (h : ∀ x ∈ ([.regs_, .lost_, .fab_, .grains_, .inbox_, .led_] : List Part), P x) (k :
    [May P .regs_] → [May P .lost_] → [May P .fab_] → [May P .grains_] → [May P .inbox_] → [May P .led_] → C) : C :=
  @k ⟨h _ (by decide)⟩ ⟨h _ (by decide)⟩ ⟨h _ (by decide)⟩ ⟨h _ (by decide)⟩ ⟨h _ (by decide)⟩ ⟨h _ (by decide)⟩

theorem May.list15 {C : Prop} (h : ∀ x ∈ ([.fresh_, .regs_, .lost_, .mem_, .fab_, .inbox_, .led_, .lnk_, .swp_,
    .trip_] : List Part), P x) (k : [May P .fresh_] → [May P .regs_] → [May P .lost_] → [May P .mem_] → [May P .fab_]
    → [May P .inbox_] → [May P .led_] → [May P .lnk_] → [May P .swp_] → [May P .trip_] → C) : C :=
  @k ⟨h _ (by decide)⟩ ⟨h _ (by decide)⟩ ⟨h _ (by decide)⟩ ⟨h _ (by decide)⟩ ⟨h _ (by decide)⟩ ⟨h _ (by decide)⟩ ⟨h _ (by decide)⟩ ⟨h _ (by decide)⟩ ⟨h _ (by decide)⟩ ⟨h _ (by decide)⟩

theorem May.list16 {C : Prop} (h : ∀ x ∈ ([.regs_, .lost_, .led_, .lnk_] : List Part), P x) (k : [May P .regs_] →
    [May P .lost_] → [May P .led_] → [May P .lnk_] → C) : C :=
  @k ⟨h _ (by decide)⟩ ⟨h _ (by decide)⟩ ⟨h _ (by decide)⟩ ⟨h _ (by decide)⟩

theorem May.list17 {C : Prop} (h : ∀ x ∈ ([.lost_, .led_, .lnk_, .trip_] : List Part), P x) (k : [May P .lost_] →
    [May P .led_] → [May P .lnk_] → [May P .trip_] → C) : C :=
  @k ⟨h _ (by decide)⟩ ⟨h _ (by decide)⟩ ⟨h _ (by decide)⟩ ⟨h _ (by decide)⟩

theorem May.list18 {C : Prop} (h : ∀ x ∈ ([.swp_] : List Part), P x) (k : [May P .swp_] → C) : C :=
  @k ⟨h _ (by decide)⟩

theorem May.list19 {C : Prop} (h : ∀ x ∈ ([.regs_, .lost_, .mem_, .fab_, .led_, .swp_] : List Part), P x) (k : [May P
    .regs_] → [May P .lost_] → [May P .mem_] → [May P .fab_] → [May P .led_] → [May P .swp_] → C) : C :=
  @k ⟨h _ (by decide)⟩ ⟨h _ (by decide)⟩ ⟨h _ (by decide)⟩ ⟨h _ (by decide)⟩ ⟨h _ (by decide)⟩ ⟨h _ (by decide)⟩

theorem May.list20 {C : Prop} (h : ∀ x ∈ ([.regs_, .lost_, .led_, .trip_, .gate_, .regu_, .cur_] : List Part), P x)
    (k : [May P .regs_] → [May P .lost_] → [May P .led_] → [May P .trip_] → [May P .gate_] → [May P .regu_] → [May P
    .cur_] → C) : C :=
  @k ⟨h _ (by decide)⟩ ⟨h _ (by decide)⟩ ⟨h _ (by decide)⟩ ⟨h _ (by decide)⟩ ⟨h _ (by decide)⟩ ⟨h _ (by decide)⟩ ⟨h _ (by decide)⟩

theorem May.list21 {C : Prop} (h : ∀ x ∈ ([.mem_, .fab_, .led_, .trip_, .cur_] : List Part), P x) (k : [May P .mem_]
    → [May P .fab_] → [May P .led_] → [May P .trip_] → [May P .cur_] → C) : C :=
  @k ⟨h _ (by decide)⟩ ⟨h _ (by decide)⟩ ⟨h _ (by decide)⟩ ⟨h _ (by decide)⟩ ⟨h _ (by decide)⟩

theorem May.list22 {C : Prop} (h : ∀ x ∈ ([.fresh_, .regs_, .lost_, .mem_, .fab_, .led_, .trip_, .gate_, .regu_,
    .cur_] : List Part), P x) (k : [May P .fresh_] → [May P .regs_] → [May P .lost_] → [May P .mem_] → [May P .fab_]
    → [May P .led_] → [May P .trip_] → [May P .gate_] → [May P .regu_] → [May P .cur_] → C) : C :=
  @k ⟨h _ (by decide)⟩ ⟨h _ (by decide)⟩ ⟨h _ (by decide)⟩ ⟨h _ (by decide)⟩ ⟨h _ (by decide)⟩ ⟨h _ (by decide)⟩ ⟨h _ (by decide)⟩ ⟨h _ (by decide)⟩ ⟨h _ (by decide)⟩ ⟨h _ (by decide)⟩

theorem May.list23 {C : Prop} (h : ∀ x ∈ ([.regs_, .lost_, .led_, .trip_, .cur_] : List Part), P x) (k : [May P
    .regs_] → [May P .lost_] → [May P .led_] → [May P .trip_] → [May P .cur_] → C) : C :=
  @k ⟨h _ (by decide)⟩ ⟨h _ (by decide)⟩ ⟨h _ (by decide)⟩ ⟨h _ (by decide)⟩ ⟨h _ (by decide)⟩

theorem May.list24 {C : Prop} (h : ∀ x ∈ ([.regs_, .lost_, .led_, .swp_, .trip_, .cur_] : List Part), P x) (k : [May
    P .regs_] → [May P .lost_] → [May P .led_] → [May P .swp_] → [May P .trip_] → [May P .cur_] → C) : C :=
  @k ⟨h _ (by decide)⟩ ⟨h _ (by decide)⟩ ⟨h _ (by decide)⟩ ⟨h _ (by decide)⟩ ⟨h _ (by decide)⟩ ⟨h _ (by decide)⟩

theorem May.list25 {C : Prop} (h : ∀ x ∈ ([.regs_, .lost_, .led_, .cur_] : List Part), P x) (k : [May P .regs_] →
    [May P .lost_] → [May P .led_] → [May P .cur_] → C) : C :=
  @k ⟨h _ (by decide)⟩ ⟨h _ (by decide)⟩ ⟨h _ (by decide)⟩ ⟨h _ (by decide)⟩

theorem May.list26 {C : Prop} (h : ∀ x ∈ ([.regs_, .lost_, .led_, .trip_, .gate_, .regu_, .out_] : List Part), P x)
    (k : [May P .regs_] → [May P .lost_] → [May P .led_] → [May P .trip_] → [May P .gate_] → [May P .regu_] → [May P
    .out_] → C) : C :=
  @k ⟨h _ (by decide)⟩ ⟨h _ (by decide)⟩ ⟨h _ (by decide)⟩ ⟨h _ (by decide)⟩ ⟨h _ (by decide)⟩ ⟨h _ (by decide)⟩ ⟨h _ (by decide)⟩

theorem May.list27 {C : Prop} (h : ∀ x ∈ ([.fresh_, .regs_, .lost_, .led_, .swp_, .trip_, .gate_, .regu_, .out_] :
    List Part), P x) (k : [May P .fresh_] → [May P .regs_] → [May P .lost_] → [May P .led_] → [May P .swp_] → [May P
    .trip_] → [May P .gate_] → [May P .regu_] → [May P .out_] → C) : C :=
  @k ⟨h _ (by decide)⟩ ⟨h _ (by decide)⟩ ⟨h _ (by decide)⟩ ⟨h _ (by decide)⟩ ⟨h _ (by decide)⟩ ⟨h _ (by decide)⟩ ⟨h _ (by decide)⟩ ⟨h _ (by decide)⟩ ⟨h _ (by decide)⟩

theorem May.list28 {C : Prop} (h : ∀ x ∈ ([.regs_, .lost_, .trip_, .regu_] : List Part), P x) (k : [May P .regs_] →
    [May P .lost_] → [May P .trip_] → [May P .regu_] → C) : C :=
  @k ⟨h _ (by decide)⟩ ⟨h _ (by decide)⟩ ⟨h _ (by decide)⟩ ⟨h _ (by decide)⟩

theorem May.list29 {C : Prop} (h : ∀ x ∈ ([.fresh_, .regs_, .lost_, .led_, .trip_, .gate_, .regu_, .out_] : List
    Part), P x) (k : [May P .fresh_] → [May P .regs_] → [May P .lost_] → [May P .led_] → [May P .trip_] → [May P
    .gate_] → [May P .regu_] → [May P .out_] → C) : C :=
  @k ⟨h _ (by decide)⟩ ⟨h _ (by decide)⟩ ⟨h _ (by decide)⟩ ⟨h _ (by decide)⟩ ⟨h _ (by decide)⟩ ⟨h _ (by decide)⟩ ⟨h _ (by decide)⟩ ⟨h _ (by decide)⟩

theorem May.list30 {C : Prop} (h : ∀ x ∈ ([.regs_, .lost_, .trip_, .gate_, .regu_] : List Part), P x) (k : [May P
    .regs_] → [May P .lost_] → [May P .trip_] → [May P .gate_] → [May P .regu_] → C) : C :=
  @k ⟨h _ (by decide)⟩ ⟨h _ (by decide)⟩ ⟨h _ (by decide)⟩ ⟨h _ (by decide)⟩ ⟨h _ (by decide)⟩

theorem May.list31 {C : Prop} (h : ∀ x ∈ ([.trip_] : List Part), P x) (k : [May P .trip_] → C) : C :=
  @k ⟨h _ (by decide)⟩

theorem May.list32 {C : Prop} (h : ∀ x ∈ ([.regs_, .lost_, .led_, .trip_, .regu_] : List Part), P x) (k : [May P
    .regs_] → [May P .lost_] → [May P .led_] → [May P .trip_] → [May P .regu_] → C) : C :=
  @k ⟨h _ (by decide)⟩ ⟨h _ (by decide)⟩ ⟨h _ (by decide)⟩ ⟨h _ (by decide)⟩ ⟨h _ (by decide)⟩

theorem May.list33 {C : Prop} (h : ∀ x ∈ ([.regs_, .lost_, .trip_, .out_] : List Part), P x) (k : [May P .regs_] →
    [May P .lost_] → [May P .trip_] → [May P .out_] → C) : C :=
  @k ⟨h _ (by decide)⟩ ⟨h _ (by decide)⟩ ⟨h _ (by decide)⟩ ⟨h _ (by decide)⟩

theorem May.list34 {C : Prop} (h : ∀ x ∈ ([.regs_, .lost_, .led_, .trip_] : List Part), P x) (k : [May P .regs_] →
    [May P .lost_] → [May P .led_] → [May P .trip_] → C) : C :=
  @k ⟨h _ (by decide)⟩ ⟨h _ (by decide)⟩ ⟨h _ (by decide)⟩ ⟨h _ (by decide)⟩

theorem May.list35 {C : Prop} (h : ∀ x ∈ ([.fresh_, .regs_, .lost_, .fab_, .grains_, .inbox_, .led_, .boot_] : List
    Part), P x) (k : [May P .fresh_] → [May P .regs_] → [May P .lost_] → [May P .fab_] → [May P .grains_] → [May P
    .inbox_] → [May P .led_] → [May P .boot_] → C) : C :=
  @k ⟨h _ (by decide)⟩ ⟨h _ (by decide)⟩ ⟨h _ (by decide)⟩ ⟨h _ (by decide)⟩ ⟨h _ (by decide)⟩ ⟨h _ (by decide)⟩ ⟨h _ (by decide)⟩ ⟨h _ (by decide)⟩

theorem May.list36 {C : Prop} (h : ∀ x ∈ ([.fresh_, .regs_, .lost_, .fab_, .grains_, .inbox_, .led_] : List Part), P
    x) (k : [May P .fresh_] → [May P .regs_] → [May P .lost_] → [May P .fab_] → [May P .grains_] → [May P .inbox_] →
    [May P .led_] → C) : C :=
  @k ⟨h _ (by decide)⟩ ⟨h _ (by decide)⟩ ⟨h _ (by decide)⟩ ⟨h _ (by decide)⟩ ⟨h _ (by decide)⟩ ⟨h _ (by decide)⟩ ⟨h _ (by decide)⟩

theorem May.list37 {C : Prop} (h : ∀ x ∈ ([.regs_, .lost_, .mem_, .fab_, .grains_, .inbox_, .led_] : List Part), P x)
    (k : [May P .regs_] → [May P .lost_] → [May P .mem_] → [May P .fab_] → [May P .grains_] → [May P .inbox_] → [May
    P .led_] → C) : C :=
  @k ⟨h _ (by decide)⟩ ⟨h _ (by decide)⟩ ⟨h _ (by decide)⟩ ⟨h _ (by decide)⟩ ⟨h _ (by decide)⟩ ⟨h _ (by decide)⟩ ⟨h _ (by decide)⟩

theorem May.list38 {C : Prop} (h : ∀ x ∈ ([.fresh_, .fab_, .grains_] : List Part), P x) (k : [May P .fresh_] → [May P
    .fab_] → [May P .grains_] → C) : C :=
  @k ⟨h _ (by decide)⟩ ⟨h _ (by decide)⟩ ⟨h _ (by decide)⟩

theorem May.list39 {C : Prop} (h : ∀ x ∈ ([.lost_, .fab_, .inbox_, .led_] : List Part), P x) (k : [May P .lost_] →
    [May P .fab_] → [May P .inbox_] → [May P .led_] → C) : C :=
  @k ⟨h _ (by decide)⟩ ⟨h _ (by decide)⟩ ⟨h _ (by decide)⟩ ⟨h _ (by decide)⟩

theorem May.list40 {C : Prop} (h : ∀ x ∈ ([.regs_, .lost_, .fab_, .grains_, .inbox_, .led_, .corr_] : List Part), P
    x) (k : [May P .regs_] → [May P .lost_] → [May P .fab_] → [May P .grains_] → [May P .inbox_] → [May P .led_] →
    [May P .corr_] → C) : C :=
  @k ⟨h _ (by decide)⟩ ⟨h _ (by decide)⟩ ⟨h _ (by decide)⟩ ⟨h _ (by decide)⟩ ⟨h _ (by decide)⟩ ⟨h _ (by decide)⟩ ⟨h _ (by decide)⟩

theorem May.list41 {C : Prop} (h : ∀ x ∈ ([.fresh_, .regs_, .lost_, .mem_, .fab_, .grains_, .corr_] : List Part), P
    x) (k : [May P .fresh_] → [May P .regs_] → [May P .lost_] → [May P .mem_] → [May P .fab_] → [May P .grains_] →
    [May P .corr_] → C) : C :=
  @k ⟨h _ (by decide)⟩ ⟨h _ (by decide)⟩ ⟨h _ (by decide)⟩ ⟨h _ (by decide)⟩ ⟨h _ (by decide)⟩ ⟨h _ (by decide)⟩ ⟨h _ (by decide)⟩

theorem May.list42 {C : Prop} (h : ∀ x ∈ ([.regs_, .lost_] : List Part), P x) (k : [May P .regs_] → [May P .lost_] →
    C) : C :=
  @k ⟨h _ (by decide)⟩ ⟨h _ (by decide)⟩

theorem May.list43 {C : Prop} (h : ∀ x ∈ ([.regs_, .lost_, .led_, .regu_] : List Part), P x) (k : [May P .regs_] →
    [May P .lost_] → [May P .led_] → [May P .regu_] → C) : C :=
  @k ⟨h _ (by decide)⟩ ⟨h _ (by decide)⟩ ⟨h _ (by decide)⟩ ⟨h _ (by decide)⟩

theorem May.list44 {C : Prop} (h : ∀ x ∈ ([.regs_, .lost_, .regu_] : List Part), P x) (k : [May P .regs_] → [May P
    .lost_] → [May P .regu_] → C) : C :=
  @k ⟨h _ (by decide)⟩ ⟨h _ (by decide)⟩ ⟨h _ (by decide)⟩

theorem May.list45 {C : Prop} (h : ∀ x ∈ ([.fresh_, .regs_, .lost_, .led_, .trip_, .gate_, .regu_] : List Part), P x)
    (k : [May P .fresh_] → [May P .regs_] → [May P .lost_] → [May P .led_] → [May P .trip_] → [May P .gate_] → [May P
    .regu_] → C) : C :=
  @k ⟨h _ (by decide)⟩ ⟨h _ (by decide)⟩ ⟨h _ (by decide)⟩ ⟨h _ (by decide)⟩ ⟨h _ (by decide)⟩ ⟨h _ (by decide)⟩ ⟨h _ (by decide)⟩

theorem May.list46 {C : Prop} (h : ∀ x ∈ ([.regu_] : List Part), P x) (k : [May P .regu_] → C) : C :=
  @k ⟨h _ (by decide)⟩

theorem May.list47 {C : Prop} (h : ∀ x ∈ ([.regs_, .lost_, .gate_, .regu_] : List Part), P x) (k : [May P .regs_] →
    [May P .lost_] → [May P .gate_] → [May P .regu_] → C) : C :=
  @k ⟨h _ (by decide)⟩ ⟨h _ (by decide)⟩ ⟨h _ (by decide)⟩ ⟨h _ (by decide)⟩

theorem May.list48 {C : Prop} (h : ∀ x ∈ ([.regs_, .lost_, .gate_] : List Part), P x) (k : [May P .regs_] → [May P
    .lost_] → [May P .gate_] → C) : C :=
  @k ⟨h _ (by decide)⟩ ⟨h _ (by decide)⟩ ⟨h _ (by decide)⟩

theorem May.list49 {C : Prop} (h : ∀ x ∈ ([.regs_, .lost_, .led_] : List Part), P x) (k : [May P .regs_] → [May P
    .lost_] → [May P .led_] → C) : C :=
  @k ⟨h _ (by decide)⟩ ⟨h _ (by decide)⟩ ⟨h _ (by decide)⟩

theorem May.list50 {C : Prop} (h : ∀ x ∈ ([.regs_, .lost_, .led_, .gate_, .regu_] : List Part), P x) (k : [May P
    .regs_] → [May P .lost_] → [May P .led_] → [May P .gate_] → [May P .regu_] → C) : C :=
  @k ⟨h _ (by decide)⟩ ⟨h _ (by decide)⟩ ⟨h _ (by decide)⟩ ⟨h _ (by decide)⟩ ⟨h _ (by decide)⟩

theorem May.list51 {C : Prop} (h : ∀ x ∈ ([.regs_, .lost_, .led_, .trip_, .gate_] : List Part), P x) (k : [May P
    .regs_] → [May P .lost_] → [May P .led_] → [May P .trip_] → [May P .gate_] → C) : C :=
  @k ⟨h _ (by decide)⟩ ⟨h _ (by decide)⟩ ⟨h _ (by decide)⟩ ⟨h _ (by decide)⟩ ⟨h _ (by decide)⟩

theorem May.list52 {C : Prop} (h : ∀ x ∈ ([.regs_, .lost_, .led_, .gate_] : List Part), P x) (k : [May P .regs_] →
    [May P .lost_] → [May P .led_] → [May P .gate_] → C) : C :=
  @k ⟨h _ (by decide)⟩ ⟨h _ (by decide)⟩ ⟨h _ (by decide)⟩ ⟨h _ (by decide)⟩

theorem May.list53 {C : Prop} (h : ∀ x ∈ ([.regs_, .lost_, .led_, .trip_, .out_] : List Part), P x) (k : [May P
    .regs_] → [May P .lost_] → [May P .led_] → [May P .trip_] → [May P .out_] → C) : C :=
  @k ⟨h _ (by decide)⟩ ⟨h _ (by decide)⟩ ⟨h _ (by decide)⟩ ⟨h _ (by decide)⟩ ⟨h _ (by decide)⟩

theorem May.list54 {C : Prop} (h : ∀ x ∈ ([.regs_, .lost_, .out_] : List Part), P x) (k : [May P .regs_] → [May P
    .lost_] → [May P .out_] → C) : C :=
  @k ⟨h _ (by decide)⟩ ⟨h _ (by decide)⟩ ⟨h _ (by decide)⟩

theorem May.list55 {C : Prop} (h : ∀ x ∈ ([.out_] : List Part), P x) (k : [May P .out_] → C) : C :=
  @k ⟨h _ (by decide)⟩

theorem May.list56 {C : Prop} (h : ∀ x ∈ ([.regs_, .lost_, .led_, .out_, .sf_] : List Part), P x) (k : [May P .regs_]
    → [May P .lost_] → [May P .led_] → [May P .out_] → [May P .sf_] → C) : C :=
  @k ⟨h _ (by decide)⟩ ⟨h _ (by decide)⟩ ⟨h _ (by decide)⟩ ⟨h _ (by decide)⟩ ⟨h _ (by decide)⟩

theorem May.list57 {C : Prop} (h : ∀ x ∈ ([.regs_, .lost_, .led_, .trip_, .out_, .sf_] : List Part), P x) (k : [May P
    .regs_] → [May P .lost_] → [May P .led_] → [May P .trip_] → [May P .out_] → [May P .sf_] → C) : C :=
  @k ⟨h _ (by decide)⟩ ⟨h _ (by decide)⟩ ⟨h _ (by decide)⟩ ⟨h _ (by decide)⟩ ⟨h _ (by decide)⟩ ⟨h _ (by decide)⟩

theorem May.list58 {C : Prop} (h : ∀ x ∈ ([.regs_, .lost_, .led_, .sf_] : List Part), P x) (k : [May P .regs_] → [May
    P .lost_] → [May P .led_] → [May P .sf_] → C) : C :=
  @k ⟨h _ (by decide)⟩ ⟨h _ (by decide)⟩ ⟨h _ (by decide)⟩ ⟨h _ (by decide)⟩

theorem May.list59 {C : Prop} (h : ∀ x ∈ ([.regs_, .lost_, .sf_] : List Part), P x) (k : [May P .regs_] → [May P
    .lost_] → [May P .sf_] → C) : C :=
  @k ⟨h _ (by decide)⟩ ⟨h _ (by decide)⟩ ⟨h _ (by decide)⟩

theorem May.list60 {C : Prop} (h : ∀ x ∈ ([.regs_, .lost_, .led_, .lnk_, .trip_, .out_, .sf_] : List Part), P x) (k :
    [May P .regs_] → [May P .lost_] → [May P .led_] → [May P .lnk_] → [May P .trip_] → [May P .out_] → [May P .sf_] →
    C) : C :=
  @k ⟨h _ (by decide)⟩ ⟨h _ (by decide)⟩ ⟨h _ (by decide)⟩ ⟨h _ (by decide)⟩ ⟨h _ (by decide)⟩ ⟨h _ (by decide)⟩ ⟨h _ (by decide)⟩

theorem May.list61 {C : Prop} (h : ∀ x ∈ ([.trip_, .sf_] : List Part), P x) (k : [May P .trip_] → [May P .sf_] → C) :
    C :=
  @k ⟨h _ (by decide)⟩ ⟨h _ (by decide)⟩

theorem May.list62 {C : Prop} (h : ∀ x ∈ ([.fresh_, .regs_, .lost_, .fab_, .inbox_, .led_, .can_] : List Part), P x)
    (k : [May P .fresh_] → [May P .regs_] → [May P .lost_] → [May P .fab_] → [May P .inbox_] → [May P .led_] → [May P
    .can_] → C) : C :=
  @k ⟨h _ (by decide)⟩ ⟨h _ (by decide)⟩ ⟨h _ (by decide)⟩ ⟨h _ (by decide)⟩ ⟨h _ (by decide)⟩ ⟨h _ (by decide)⟩ ⟨h _ (by decide)⟩

theorem May.list63 {C : Prop} (h : ∀ x ∈ ([.regs_, .lost_, .fab_, .inbox_, .led_, .can_] : List Part), P x) (k : [May
    P .regs_] → [May P .lost_] → [May P .fab_] → [May P .inbox_] → [May P .led_] → [May P .can_] → C) : C :=
  @k ⟨h _ (by decide)⟩ ⟨h _ (by decide)⟩ ⟨h _ (by decide)⟩ ⟨h _ (by decide)⟩ ⟨h _ (by decide)⟩ ⟨h _ (by decide)⟩

theorem May.list64 {C : Prop} (h : ∀ x ∈ ([.regs_, .lost_, .can_] : List Part), P x) (k : [May P .regs_] → [May P
    .lost_] → [May P .can_] → C) : C :=
  @k ⟨h _ (by decide)⟩ ⟨h _ (by decide)⟩ ⟨h _ (by decide)⟩

theorem May.list65 {C : Prop} (h : ∀ x ∈ ([.regs_, .lost_, .fab_, .inbox_, .led_] : List Part), P x) (k : [May P
    .regs_] → [May P .lost_] → [May P .fab_] → [May P .inbox_] → [May P .led_] → C) : C :=
  @k ⟨h _ (by decide)⟩ ⟨h _ (by decide)⟩ ⟨h _ (by decide)⟩ ⟨h _ (by decide)⟩ ⟨h _ (by decide)⟩

theorem May.list66 {C : Prop} (h : ∀ x ∈ ([.regs_, .lost_, .led_, .can_] : List Part), P x) (k : [May P .regs_] →
    [May P .lost_] → [May P .led_] → [May P .can_] → C) : C :=
  @k ⟨h _ (by decide)⟩ ⟨h _ (by decide)⟩ ⟨h _ (by decide)⟩ ⟨h _ (by decide)⟩

theorem May.list67 {C : Prop} (h : ∀ x ∈ ([.regs_, .lost_, .mem_, .fab_, .inbox_, .led_] : List Part), P x) (k : [May
    P .regs_] → [May P .lost_] → [May P .mem_] → [May P .fab_] → [May P .inbox_] → [May P .led_] → C) : C :=
  @k ⟨h _ (by decide)⟩ ⟨h _ (by decide)⟩ ⟨h _ (by decide)⟩ ⟨h _ (by decide)⟩ ⟨h _ (by decide)⟩ ⟨h _ (by decide)⟩

theorem May.list68 {C : Prop} (h : ∀ x ∈ ([.regs_, .lost_, .fab_, .inbox_, .led_, .eth_] : List Part), P x) (k : [May
    P .regs_] → [May P .lost_] → [May P .fab_] → [May P .inbox_] → [May P .led_] → [May P .eth_] → C) : C :=
  @k ⟨h _ (by decide)⟩ ⟨h _ (by decide)⟩ ⟨h _ (by decide)⟩ ⟨h _ (by decide)⟩ ⟨h _ (by decide)⟩ ⟨h _ (by decide)⟩

theorem May.list69 {C : Prop} (h : ∀ x ∈ ([.lost_, .led_] : List Part), P x) (k : [May P .lost_] → [May P .led_] → C)
    : C :=
  @k ⟨h _ (by decide)⟩ ⟨h _ (by decide)⟩

theorem May.list70 {C : Prop} (h : ∀ x ∈ ([.regs_, .lost_, .fab_, .led_] : List Part), P x) (k : [May P .regs_] →
    [May P .lost_] → [May P .fab_] → [May P .led_] → C) : C :=
  @k ⟨h _ (by decide)⟩ ⟨h _ (by decide)⟩ ⟨h _ (by decide)⟩ ⟨h _ (by decide)⟩

theorem May.list71 {C : Prop} (h : ∀ x ∈ ([.fresh_, .regs_, .lost_, .mem_, .fab_, .led_, .boot_] : List Part), P x)
    (k : [May P .fresh_] → [May P .regs_] → [May P .lost_] → [May P .mem_] → [May P .fab_] → [May P .led_] → [May P
    .boot_] → C) : C :=
  @k ⟨h _ (by decide)⟩ ⟨h _ (by decide)⟩ ⟨h _ (by decide)⟩ ⟨h _ (by decide)⟩ ⟨h _ (by decide)⟩ ⟨h _ (by decide)⟩ ⟨h _ (by decide)⟩

theorem May.list72 {C : Prop} (h : ∀ x ∈ ([.led_] : List Part), P x) (k : [May P .led_] → C) : C :=
  @k ⟨h _ (by decide)⟩

theorem May.list73 {C : Prop} (h : ∀ x ∈ ([.regs_, .lost_, .mem_, .fab_, .led_] : List Part), P x) (k : [May P
    .regs_] → [May P .lost_] → [May P .mem_] → [May P .fab_] → [May P .led_] → C) : C :=
  @k ⟨h _ (by decide)⟩ ⟨h _ (by decide)⟩ ⟨h _ (by decide)⟩ ⟨h _ (by decide)⟩ ⟨h _ (by decide)⟩

theorem May.list74 {C : Prop} (h : ∀ x ∈ ([.fresh_, .regs_, .lost_, .mem_, .fab_, .grains_, .inbox_, .led_, .trip_,
    .boot_, .sv_] : List Part), P x) (k : [May P .fresh_] → [May P .regs_] → [May P .lost_] → [May P .mem_] → [May P
    .fab_] → [May P .grains_] → [May P .inbox_] → [May P .led_] → [May P .trip_] → [May P .boot_] → [May P .sv_] → C)
    : C :=
  @k ⟨h _ (by decide)⟩ ⟨h _ (by decide)⟩ ⟨h _ (by decide)⟩ ⟨h _ (by decide)⟩ ⟨h _ (by decide)⟩ ⟨h _ (by decide)⟩ ⟨h _ (by decide)⟩ ⟨h _ (by decide)⟩ ⟨h _ (by decide)⟩ ⟨h _ (by decide)⟩ ⟨h _ (by decide)⟩

theorem May.list75 {C : Prop} (h : ∀ x ∈ ([.regs_, .lost_, .fab_, .lnk_, .swp_, .trip_, .gate_, .regu_, .out_, .cur_,
    .can_, .eth_] : List Part), P x) (k : [May P .regs_] → [May P .lost_] → [May P .fab_] → [May P .lnk_] → [May P
    .swp_] → [May P .trip_] → [May P .gate_] → [May P .regu_] → [May P .out_] → [May P .cur_] → [May P .can_] → [May
    P .eth_] → C) : C :=
  @k ⟨h _ (by decide)⟩ ⟨h _ (by decide)⟩ ⟨h _ (by decide)⟩ ⟨h _ (by decide)⟩ ⟨h _ (by decide)⟩ ⟨h _ (by decide)⟩ ⟨h _ (by decide)⟩ ⟨h _ (by decide)⟩ ⟨h _ (by decide)⟩ ⟨h _ (by decide)⟩ ⟨h _ (by decide)⟩ ⟨h _ (by decide)⟩

theorem May.list76 {C : Prop} (h : ∀ x ∈ ([.mem_, .fab_, .grains_, .inbox_, .led_] : List Part), P x) (k : [May P
    .mem_] → [May P .fab_] → [May P .grains_] → [May P .inbox_] → [May P .led_] → C) : C :=
  @k ⟨h _ (by decide)⟩ ⟨h _ (by decide)⟩ ⟨h _ (by decide)⟩ ⟨h _ (by decide)⟩ ⟨h _ (by decide)⟩

theorem May.list77 {C : Prop} (h : ∀ x ∈ ([.regs_, .lost_, .fab_, .led_, .trip_, .boot_, .sv_] : List Part), P x) (k
    : [May P .regs_] → [May P .lost_] → [May P .fab_] → [May P .led_] → [May P .trip_] → [May P .boot_] → [May P
    .sv_] → C) : C :=
  @k ⟨h _ (by decide)⟩ ⟨h _ (by decide)⟩ ⟨h _ (by decide)⟩ ⟨h _ (by decide)⟩ ⟨h _ (by decide)⟩ ⟨h _ (by decide)⟩ ⟨h _ (by decide)⟩

theorem May.list78 {C : Prop} (h : ∀ x ∈ ([.regs_, .lost_, .fab_, .grains_, .led_] : List Part), P x) (k : [May P
    .regs_] → [May P .lost_] → [May P .fab_] → [May P .grains_] → [May P .led_] → C) : C :=
  @k ⟨h _ (by decide)⟩ ⟨h _ (by decide)⟩ ⟨h _ (by decide)⟩ ⟨h _ (by decide)⟩ ⟨h _ (by decide)⟩

theorem May.list79 {C : Prop} (h : ∀ x ∈ ([.regs_, .lost_, .mem_, .fab_, .grains_, .inbox_, .led_, .boot_] : List
    Part), P x) (k : [May P .regs_] → [May P .lost_] → [May P .mem_] → [May P .fab_] → [May P .grains_] → [May P
    .inbox_] → [May P .led_] → [May P .boot_] → C) : C :=
  @k ⟨h _ (by decide)⟩ ⟨h _ (by decide)⟩ ⟨h _ (by decide)⟩ ⟨h _ (by decide)⟩ ⟨h _ (by decide)⟩ ⟨h _ (by decide)⟩ ⟨h _ (by decide)⟩ ⟨h _ (by decide)⟩

theorem May.list80 {C : Prop} (h : ∀ x ∈ ([.boot_] : List Part), P x) (k : [May P .boot_] → C) : C :=
  @k ⟨h _ (by decide)⟩

theorem May.list81 {C : Prop} (h : ∀ x ∈ ([.mem_, .fab_, .boot_] : List Part), P x) (k : [May P .mem_] → [May P
    .fab_] → [May P .boot_] → C) : C :=
  @k ⟨h _ (by decide)⟩ ⟨h _ (by decide)⟩ ⟨h _ (by decide)⟩

theorem May.list82 {C : Prop} (h : ∀ x ∈ ([.lost_, .led_, .boot_] : List Part), P x) (k : [May P .lost_] → [May P
    .led_] → [May P .boot_] → C) : C :=
  @k ⟨h _ (by decide)⟩ ⟨h _ (by decide)⟩ ⟨h _ (by decide)⟩

theorem May.list83 {C : Prop} (h : ∀ x ∈ ([.regs_, .lost_, .boot_] : List Part), P x) (k : [May P .regs_] → [May P
    .lost_] → [May P .boot_] → C) : C :=
  @k ⟨h _ (by decide)⟩ ⟨h _ (by decide)⟩ ⟨h _ (by decide)⟩

theorem May.list84 {C : Prop} (h : ∀ x ∈ ([.regs_, .lost_, .sv_] : List Part), P x) (k : [May P .regs_] → [May P
    .lost_] → [May P .sv_] → C) : C :=
  @k ⟨h _ (by decide)⟩ ⟨h _ (by decide)⟩ ⟨h _ (by decide)⟩

theorem May.list85 {C : Prop} (h : ∀ x ∈ ([.regs_, .lost_, .mem_, .fab_, .grains_, .led_, .trip_, .gate_, .regu_,
    .sv_] : List Part), P x) (k : [May P .regs_] → [May P .lost_] → [May P .mem_] → [May P .fab_] → [May P .grains_]
    → [May P .led_] → [May P .trip_] → [May P .gate_] → [May P .regu_] → [May P .sv_] → C) : C :=
  @k ⟨h _ (by decide)⟩ ⟨h _ (by decide)⟩ ⟨h _ (by decide)⟩ ⟨h _ (by decide)⟩ ⟨h _ (by decide)⟩ ⟨h _ (by decide)⟩ ⟨h _ (by decide)⟩ ⟨h _ (by decide)⟩ ⟨h _ (by decide)⟩ ⟨h _ (by decide)⟩

theorem May.list86 {C : Prop} (h : ∀ x ∈ ([.fresh_, .regs_, .lost_, .led_, .swp_, .trip_, .gate_, .regu_, .out_,
    .sv_] : List Part), P x) (k : [May P .fresh_] → [May P .regs_] → [May P .lost_] → [May P .led_] → [May P .swp_] →
    [May P .trip_] → [May P .gate_] → [May P .regu_] → [May P .out_] → [May P .sv_] → C) : C :=
  @k ⟨h _ (by decide)⟩ ⟨h _ (by decide)⟩ ⟨h _ (by decide)⟩ ⟨h _ (by decide)⟩ ⟨h _ (by decide)⟩ ⟨h _ (by decide)⟩ ⟨h _ (by decide)⟩ ⟨h _ (by decide)⟩ ⟨h _ (by decide)⟩ ⟨h _ (by decide)⟩

theorem May.list87 {C : Prop} (h : ∀ x ∈ ([.sv_] : List Part), P x) (k : [May P .sv_] → C) : C :=
  @k ⟨h _ (by decide)⟩

theorem May.list88 {C : Prop} (h : ∀ x ∈ ([.regs_, .lost_, .led_, .sv_] : List Part), P x) (k : [May P .regs_] → [May
    P .lost_] → [May P .led_] → [May P .sv_] → C) : C :=
  @k ⟨h _ (by decide)⟩ ⟨h _ (by decide)⟩ ⟨h _ (by decide)⟩ ⟨h _ (by decide)⟩

/-- Every command keeps what `Kept` says and changes the parts of its list alone. -/
theorem exec_kept (c : Instr) (s : State) (h : ∀ x ∈ touches c, P x) : KeptO P s (exec c s) := by
  cases c with
  | registerWrite => exact May.list0 h (execRegisterWrite_kept (Kept.refl s))
  | wake => exact May.list0 h (execWake_kept (Kept.refl s))
  | owtnow => exact May.list0 h (execOwtnow_kept (Kept.refl s))
  | trig => exact May.list0 h (execTrig_kept (Kept.refl s))
  | windowHoldClear => exact May.list0 h (execWindowHoldClear_kept (Kept.refl s))
  | tripClr => exact May.list0 h (execTripClr_kept (Kept.refl s))
  | tripProgramRequest => exact May.list0 h (execTripProgramRequest_kept (Kept.refl s))
  | dlimDisWrite => exact May.list0 h (execDlimDisWrite_kept (Kept.refl s))
  | contactorClose => exact May.list0 h (execContactorClose_kept (Kept.refl s))
  | contactorOpen => exact May.list0 h (execContactorOpen_kept (Kept.refl s))
  | prechargeStart => exact May.list0 h (execPrechargeStart_kept (Kept.refl s))
  | join => exact May.list0 h (execJoin_kept (Kept.refl s))
  | abort => exact May.list0 h (execAbort_kept (Kept.refl s))
  | preseqComplete => exact May.list0 h (execPreseqComplete_kept (Kept.refl s))
  | pwResetHold => exact May.list0 h (execPwResetHold_kept (Kept.refl s))
  | sb => exact May.list0 h (execSb_kept (Kept.refl s))
  | sh => exact May.list0 h (execSh_kept (Kept.refl s))
  | sw => exact May.list0 h (execSw_kept (Kept.refl s))
  | fsw => exact May.list0 h (execFsw_kept (Kept.refl s))
  | fsd => exact May.list0 h (execFsd_kept (Kept.refl s))
  | qputhi => exact May.list0 h (execQputhi_kept (Kept.refl s))
  | dldone => exact May.list0 h (execDldone_kept (Kept.refl s))
  | vld => exact May.list0 h (execVld_kept (Kept.refl s))
  | vlds => exact May.list0 h (execVlds_kept (Kept.refl s))
  | vst => exact May.list0 h (execVst_kept (Kept.refl s))
  | vsts => exact May.list0 h (execVsts_kept (Kept.refl s))
  | vgth => exact May.list0 h (execVgth_kept (Kept.refl s))
  | vsct => exact May.list0 h (execVsct_kept (Kept.refl s))
  | corrClr => exact May.list0 h (execCorrClr_kept (Kept.refl s))
  | kernelCellStateFilter => exact May.list0 h (execKernelCellStateFilter_kept (Kept.refl s))
  | kernelCapacity => exact May.list0 h (execKernelCapacity_kept (Kept.refl s))
  | kernelResistance => exact May.list0 h (execKernelResistance_kept (Kept.refl s))
  | kernelPowerLimits => exact May.list0 h (execKernelPowerLimits_kept (Kept.refl s))
  | kernelImpedance => exact May.list0 h (execKernelImpedance_kept (Kept.refl s))
  | kernelInternalTemperature => exact May.list0 h (execKernelInternalTemperature_kept (Kept.refl s))
  | kernelSelfDischarge => exact May.list0 h (execKernelSelfDischarge_kept (Kept.refl s))
  | kernelAggregationPartial => exact May.list0 h (execKernelAggregationPartial_kept (Kept.refl s))
  | kernelAggregationFinal => exact May.list0 h (execKernelAggregationFinal_kept (Kept.refl s))
  | shareWeightWrite => exact May.list0 h (execShareWeightWrite_kept (Kept.refl s))
  | phen => exact May.list0 h (execPhen_kept (Kept.refl s))
  | excStart => exact May.list0 h (execExcStart_kept (Kept.refl s))
  | excStop => exact May.list0 h (execExcStop_kept (Kept.refl s))
  | testModeEnter => exact May.list0 h (execTestModeEnter_kept (Kept.refl s))
  | testCommand => exact May.list0 h (execTestCommand_kept (Kept.refl s))
  | leakStart => exact May.list0 h (execLeakStart_kept (Kept.refl s))
  | hbclr => exact May.list0 h (execHbclr_kept (Kept.refl s))
  | lsclr => exact May.list0 h (execLsclr_kept (Kept.refl s))
  | sfInternalFault => exact May.list0 h (execSfInternalFault_kept (Kept.refl s))
  | romCheck => exact May.list0 h (execRomCheck_kept (Kept.refl s))
  | mailboxGo => exact May.list0 h (execMailboxGo_kept (Kept.refl s))
  | txack => exact May.list0 h (execTxack_kept (Kept.refl s))
  | mailboxReq => exact May.list0 h (execMailboxReq_kept (Kept.refl s))
  | canEnable => exact May.list0 h (execCanEnable_kept (Kept.refl s))
  | canStandby => exact May.list0 h (execCanStandby_kept (Kept.refl s))
  | canCommit => exact May.list0 h (execCanCommit_kept (Kept.refl s))
  | canAbort => exact May.list0 h (execCanAbort_kept (Kept.refl s))
  | borel => exact May.list0 h (execBorel_kept (Kept.refl s))
  | pop => exact May.list0 h (execPop_kept (Kept.refl s))
  | phase => exact May.list0 h (execPhase_kept (Kept.refl s))
  | rate => exact May.list0 h (execRate_kept (Kept.refl s))
  | step => exact May.list0 h (execStep_kept (Kept.refl s))
  | disc => exact May.list0 h (execDisc_kept (Kept.refl s))
  | commission => exact May.list0 h (execCommission_kept (Kept.refl s))
  | sedclr => exact May.list0 h (execSedclr_kept (Kept.refl s))
  | bsrc => exact May.list0 h (execBsrc_kept (Kept.refl s))
  | powerFailCommitDone => exact May.list0 h (execPowerFailCommitDone_kept (Kept.refl s))
  | beatParityFail => exact May.list0 h (execBeatParityFail_kept (Kept.refl s))
  | vc0BeatLost => exact May.list0 h (execVc0BeatLost_kept (Kept.refl s))
  | faultReport => exact May.list0 h (execFaultReport_kept (Kept.refl s))
  | faultSourceTimeout => exact May.list0 h (execFaultSourceTimeout_kept (Kept.refl s))
  | fbFltRel => exact May.list0 h (execFbFltRel_kept (Kept.refl s))
  | commit => exact May.list0 h (execCommit_kept (Kept.refl s))
  | confirm => exact May.list0 h (execConfirm_kept (Kept.refl s))
  | arbgo => exact May.list0 h (execArbgo_kept (Kept.refl s))
  | reboot => exact May.list0 h (execReboot_kept (Kept.refl s))
  | revgo => exact May.list0 h (execRevgo_kept (Kept.refl s))
  | dbggo => exact May.list0 h (execDbggo_kept (Kept.refl s))
  | dbglock => exact May.list0 h (execDbglock_kept (Kept.refl s))
  | otpGo => exact May.list0 h (execOtpGo_kept (Kept.refl s))
  | unlock => exact May.list0 h (execUnlock_kept (Kept.refl s))
  | lock => exact May.list0 h (execLock_kept (Kept.refl s))
  | setpw => exact May.list0 h (execSetpw_kept (Kept.refl s))
  | clrpw => exact May.list0 h (execClrpw_kept (Kept.refl s))
  | keyImport => exact May.list0 h (execKeyImport_kept (Kept.refl s))
  | supplyFault => exact May.list0 h (execSupplyFault_kept (Kept.refl s))
  | powerFailRecovery => exact May.list0 h (execPowerFailRecovery_kept (Kept.refl s))
  | reclaim => exact May.list0 h (execReclaim_kept (Kept.refl s))
  | resetNLow => exact May.list0 h (execResetNLow_kept (Kept.refl s))
  | clockFault => exact May.list0 h (execClockFault_kept (Kept.refl s))
  | oscVoteWindow => exact May.list0 h (execOscVoteWindow_kept (Kept.refl s))
  | thermalPreseqTrigger => exact May.list0 h (execThermalPreseqTrigger_kept (Kept.refl s))
  | testNLow => exact May.list0 h (execTestNLow_kept (Kept.refl s))
  | clrall => exact May.list0 h (execClrall_kept (Kept.refl s))
  | deadlineMiss => exact May.list0 h (execDeadlineMiss_kept (Kept.refl s))
  | kick => exact May.list0 h (execKick_kept (Kept.refl s))
  | watchdogExpire => exact May.list0 h (execWatchdogExpire_kept (Kept.refl s))
  | rcRead => exact May.list1 h (execRcRead_kept (Kept.refl s))
  | qgetlo => exact May.list1 h (execQgetlo_kept (Kept.refl s))
  | ledgerWin0Read => exact May.list1 h (execLedgerWin0Read_kept (Kept.refl s))
  | ledgerWin15Read => exact May.list1 h (execLedgerWin15Read_kept (Kept.refl s))
  | debugChallengeRead => exact May.list1 h (execDebugChallengeRead_kept (Kept.refl s))
  | sample p idx body arr t => exact May.list2 h (execSample_kept (_arr := arr) (Kept.refl s))
  | read => exact May.list2 h (execRead_kept (Kept.refl s))
  | time => exact May.list2 h (execTime_kept (Kept.refl s))
  | ping => exact May.list2 h (execPing_kept (Kept.refl s))
  | enum => exact May.list2 h (execEnum_kept (Kept.refl s))
  | setdly p idx body arr t => exact May.list2 h (execSetdly_kept (_arr := arr) (Kept.refl s))
  | run => exact May.list2 h (execRun_kept (Kept.refl s))
  | bal => exact May.list2 h (execBal_kept (Kept.refl s))
  | owt => exact May.list2 h (execOwt_kept (Kept.refl s))
  | auth => exact May.list2 h (execAuth_kept (Kept.refl s))
  | wreg => exact May.list2 h (execWreg_kept (Kept.refl s))
  | rreg => exact May.list2 h (execRreg_kept (Kept.refl s))
  | reset p idx body arr t => exact May.list2 h (execReset_kept (_arr := arr) (Kept.refl s))
  | nodeUnknownCommand => exact May.list2 h (execNodeUnknownCommand_kept (Kept.refl s))
  | nodeAnswerSend => exact May.list2 h (execNodeAnswerSend_kept (Kept.refl s))
  | nodeSlotResponse => exact May.list2 h (execNodeSlotResponse_kept (Kept.refl s))
  | nodeConversionStep => exact May.list2 h (execNodeConversionStep_kept (Kept.refl s))
  | nodeSweepConversionsEnd => exact May.list2 h (execNodeSweepConversionsEnd_kept (Kept.refl s))
  | nodeStreamSample => exact May.list2 h (execNodeStreamSample_kept (Kept.refl s))
  | nodeAuthComputeDone => exact May.list2 h (execNodeAuthComputeDone_kept (Kept.refl s))
  | nodeBalTimeout => exact May.list2 h (execNodeBalTimeout_kept (Kept.refl s))
  | nodeSleepTimeout => exact May.list2 h (execNodeSleepTimeout_kept (Kept.refl s))
  | nodeWakeTone p idx arr t => exact May.list2 h (execNodeWakeTone_kept (_arr := arr) (Kept.refl s))
  | nodeInsulationMeasure => exact May.list2 h (execNodeInsulationMeasure_kept (Kept.refl s))
  | nodePowerUp => exact May.list2 h (execNodePowerUp_kept (Kept.refl s))
  | nodeBadCrcFrame p idx body arr t => exact May.list2 h (execNodeBadCrcFrame_kept (_arr := arr) (Kept.refl s))
  | crec => exact May.list3 h (execCrec_kept (Kept.refl s))
  | srec => exact May.list3 h (execSrec_kept (Kept.refl s))
  | brec => exact May.list3 h (execBrec_kept (Kept.refl s))
  | pong => exact May.list4 h (execPong_kept (Kept.refl s))
  | arsp => exact May.list4 h (execArsp_kept (Kept.refl s))
  | rrep => exact May.list4 h (execRrep_kept (Kept.refl s))
  | nak => exact May.list4 h (execNak_kept (Kept.refl s))
  | recalibration => exact May.list4 h (execRecalibration_kept (Kept.refl s))
  | enumEackTimeout => exact May.list4 h (execEnumEackTimeout_kept (Kept.refl s))
  | authCollect => exact May.list4 h (execAuthCollect_kept (Kept.refl s))
  | ringEnd0FrameAtEnd1 => exact May.list4 h (execRingEnd0FrameAtEnd1_kept (Kept.refl s))
  | eack => exact May.list5 h (execEack_kept (Kept.refl s))
  | slotWindowClose => exact May.list6 h (execSlotWindowClose_kept (Kept.refl s))
  | chainBreakLocate => exact May.list6 h (execChainBreakLocate_kept (Kept.refl s))
  | timeMarker => exact May.list7 h (execTimeMarker_kept (Kept.refl s))
  | retryRead => exact May.list7 h (execRetryRead_kept (Kept.refl s))
  | streamOnlyRead => exact May.list7 h (execStreamOnlyRead_kept (Kept.refl s))
  | portEnumeration => exact May.list8 h (execPortEnumeration_kept (Kept.refl s))
  | ringEnd0FrameTimeout => exact May.list8 h (execRingEnd0FrameTimeout_kept (Kept.refl s))
  | authPeriod => exact May.list9 h (execAuthPeriod_kept (Kept.refl s))
  | lsend => exact May.list10 h (execLsend_kept (Kept.refl s))
  | ltarm => exact May.list10 h (execLtarm_kept (Kept.refl s))
  | lping => exact May.list10 h (execLping_kept (Kept.refl s))
  | lwake => exact May.list10 h (execLwake_kept (Kept.refl s))
  | lslot => exact May.list10 h (execLslot_kept (Kept.refl s))
  | lsendLaunch => exact May.list11 h (execLsendLaunch_kept (Kept.refl s))
  | lpingComplete => exact May.list11 h (execLpingComplete_kept (Kept.refl s))
  | lrecv => exact May.list12 h (execLrecv_kept (Kept.refl s))
  | lrecvComplete => exact May.list13 h (execLrecvComplete_kept (Kept.refl s))
  | lstat => exact May.list14 h (execLstat_kept (Kept.refl s))
  | lb => exact May.list14 h (execLb_kept (Kept.refl s))
  | lh => exact May.list14 h (execLh_kept (Kept.refl s))
  | lw => exact May.list14 h (execLw_kept (Kept.refl s))
  | lbu => exact May.list14 h (execLbu_kept (Kept.refl s))
  | lhu => exact May.list14 h (execLhu_kept (Kept.refl s))
  | impreciseBusError => exact May.list14 h (execImpreciseBusError_kept (Kept.refl s))
  | add => exact May.list14 h (execAdd_kept (Kept.refl s))
  | sub => exact May.list14 h (execSub_kept (Kept.refl s))
  | and => exact May.list14 h (execAnd_kept (Kept.refl s))
  | or => exact May.list14 h (execOr_kept (Kept.refl s))
  | xor => exact May.list14 h (execXor_kept (Kept.refl s))
  | sll => exact May.list14 h (execSll_kept (Kept.refl s))
  | srl => exact May.list14 h (execSrl_kept (Kept.refl s))
  | sra => exact May.list14 h (execSra_kept (Kept.refl s))
  | slt => exact May.list14 h (execSlt_kept (Kept.refl s))
  | sltu => exact May.list14 h (execSltu_kept (Kept.refl s))
  | min => exact May.list14 h (execMin_kept (Kept.refl s))
  | max => exact May.list14 h (execMax_kept (Kept.refl s))
  | minu => exact May.list14 h (execMinu_kept (Kept.refl s))
  | maxu => exact May.list14 h (execMaxu_kept (Kept.refl s))
  | slli => exact May.list14 h (execSlli_kept (Kept.refl s))
  | srli => exact May.list14 h (execSrli_kept (Kept.refl s))
  | srai => exact May.list14 h (execSrai_kept (Kept.refl s))
  | clz => exact May.list14 h (execClz_kept (Kept.refl s))
  | ctz => exact May.list14 h (execCtz_kept (Kept.refl s))
  | popc => exact May.list14 h (execPopc_kept (Kept.refl s))
  | mul => exact May.list14 h (execMul_kept (Kept.refl s))
  | mulh => exact May.list14 h (execMulh_kept (Kept.refl s))
  | mulhu => exact May.list14 h (execMulhu_kept (Kept.refl s))
  | div => exact May.list14 h (execDiv_kept (Kept.refl s))
  | divu => exact May.list14 h (execDivu_kept (Kept.refl s))
  | rem => exact May.list14 h (execRem_kept (Kept.refl s))
  | remu => exact May.list14 h (execRemu_kept (Kept.refl s))
  | addi => exact May.list14 h (execAddi_kept (Kept.refl s))
  | slti => exact May.list14 h (execSlti_kept (Kept.refl s))
  | sltiu => exact May.list14 h (execSltiu_kept (Kept.refl s))
  | andi => exact May.list14 h (execAndi_kept (Kept.refl s))
  | ori => exact May.list14 h (execOri_kept (Kept.refl s))
  | xori => exact May.list14 h (execXori_kept (Kept.refl s))
  | lui => exact May.list14 h (execLui_kept (Kept.refl s))
  | srr => exact May.list14 h (execSrr_kept (Kept.refl s))
  | srw => exact May.list14 h (execSrw_kept (Kept.refl s))
  | beq => exact May.list14 h (execBeq_kept (Kept.refl s))
  | bne => exact May.list14 h (execBne_kept (Kept.refl s))
  | blt => exact May.list14 h (execBlt_kept (Kept.refl s))
  | bge => exact May.list14 h (execBge_kept (Kept.refl s))
  | bltu => exact May.list14 h (execBltu_kept (Kept.refl s))
  | bgeu => exact May.list14 h (execBgeu_kept (Kept.refl s))
  | j => exact May.list14 h (execJ_kept (Kept.refl s))
  | jal => exact May.list14 h (execJal_kept (Kept.refl s))
  | jalr => exact May.list14 h (execJalr_kept (Kept.refl s))
  | flw => exact May.list14 h (execFlw_kept (Kept.refl s))
  | fld => exact May.list14 h (execFld_kept (Kept.refl s))
  | fadd => exact May.list14 h (execFadd_kept (Kept.refl s))
  | fsub => exact May.list14 h (execFsub_kept (Kept.refl s))
  | fmul => exact May.list14 h (execFmul_kept (Kept.refl s))
  | fdiv => exact May.list14 h (execFdiv_kept (Kept.refl s))
  | fsqrt => exact May.list14 h (execFsqrt_kept (Kept.refl s))
  | fmin => exact May.list14 h (execFmin_kept (Kept.refl s))
  | fmax => exact May.list14 h (execFmax_kept (Kept.refl s))
  | fabs => exact May.list14 h (execFabs_kept (Kept.refl s))
  | fneg => exact May.list14 h (execFneg_kept (Kept.refl s))
  | fceq => exact May.list14 h (execFceq_kept (Kept.refl s))
  | fclt => exact May.list14 h (execFclt_kept (Kept.refl s))
  | fcle => exact May.list14 h (execFcle_kept (Kept.refl s))
  | fkind => exact May.list14 h (execFkind_kept (Kept.refl s))
  | ftoi => exact May.list14 h (execFtoi_kept (Kept.refl s))
  | itof => exact May.list14 h (execItof_kept (Kept.refl s))
  | fnarrow => exact May.list14 h (execFnarrow_kept (Kept.refl s))
  | fwiden => exact May.list14 h (execFwiden_kept (Kept.refl s))
  | fmvgfLo => exact May.list14 h (execFmvgfLo_kept (Kept.refl s))
  | fmvgfHi => exact May.list14 h (execFmvgfHi_kept (Kept.refl s))
  | fmvfgLo => exact May.list14 h (execFmvfgLo_kept (Kept.refl s))
  | fmvfgHi => exact May.list14 h (execFmvfgHi_kept (Kept.refl s))
  | fcun => exact May.list14 h (execFcun_kept (Kept.refl s))
  | qput => exact May.list14 h (execQput_kept (Kept.refl s))
  | qget => exact May.list14 h (execQget_kept (Kept.refl s))
  | qtry => exact May.list14 h (execQtry_kept (Kept.refl s))
  | waitq => exact May.list14 h (execWaitq_kept (Kept.refl s))
  | queueWaitResume => exact May.list14 h (execQueueWaitResume_kept (Kept.refl s))
  | fence => exact May.list14 h (execFence_kept (Kept.refl s))
  | pfence => exact May.list14 h (execPfence_kept (Kept.refl s))
  | fenceComplete => exact May.list14 h (execFenceComplete_kept (Kept.refl s))
  | eret => exact May.list14 h (execEret_kept (Kept.refl s))
  | ibget => exact May.list14 h (execIbget_kept (Kept.refl s))
  | trap => exact May.list14 h (execTrap_kept (Kept.refl s))
  | brk => exact May.list14 h (execBrk_kept (Kept.refl s))
  | dlarm => exact May.list14 h (execDlarm_kept (Kept.refl s))
  | vaddI => exact May.list14 h (execVaddI_kept (Kept.refl s))
  | vsubI => exact May.list14 h (execVsubI_kept (Kept.refl s))
  | vmulI => exact May.list14 h (execVmulI_kept (Kept.refl s))
  | vand => exact May.list14 h (execVand_kept (Kept.refl s))
  | vor => exact May.list14 h (execVor_kept (Kept.refl s))
  | vxor => exact May.list14 h (execVxor_kept (Kept.refl s))
  | vsll => exact May.list14 h (execVsll_kept (Kept.refl s))
  | vsrl => exact May.list14 h (execVsrl_kept (Kept.refl s))
  | vsra => exact May.list14 h (execVsra_kept (Kept.refl s))
  | vminI => exact May.list14 h (execVminI_kept (Kept.refl s))
  | vmaxI => exact May.list14 h (execVmaxI_kept (Kept.refl s))
  | vminu => exact May.list14 h (execVminu_kept (Kept.refl s))
  | vmaxu => exact May.list14 h (execVmaxu_kept (Kept.refl s))
  | vaddF => exact May.list14 h (execVaddF_kept (Kept.refl s))
  | vsubF => exact May.list14 h (execVsubF_kept (Kept.refl s))
  | vmulF => exact May.list14 h (execVmulF_kept (Kept.refl s))
  | vdivF => exact May.list14 h (execVdivF_kept (Kept.refl s))
  | vfma => exact May.list14 h (execVfma_kept (Kept.refl s))
  | vfnma => exact May.list14 h (execVfnma_kept (Kept.refl s))
  | vminF => exact May.list14 h (execVminF_kept (Kept.refl s))
  | vmaxF => exact May.list14 h (execVmaxF_kept (Kept.refl s))
  | vsqrtF => exact May.list14 h (execVsqrtF_kept (Kept.refl s))
  | vabsF => exact May.list14 h (execVabsF_kept (Kept.refl s))
  | vnegF => exact May.list14 h (execVnegF_kept (Kept.refl s))
  | vcvtFI => exact May.list14 h (execVcvtFI_kept (Kept.refl s))
  | vcvtIF => exact May.list14 h (execVcvtIF_kept (Kept.refl s))
  | vcmpEqI => exact May.list14 h (execVcmpEqI_kept (Kept.refl s))
  | vcmpNeI => exact May.list14 h (execVcmpNeI_kept (Kept.refl s))
  | vcmpLtI => exact May.list14 h (execVcmpLtI_kept (Kept.refl s))
  | vcmpLeI => exact May.list14 h (execVcmpLeI_kept (Kept.refl s))
  | vcmpLtu => exact May.list14 h (execVcmpLtu_kept (Kept.refl s))
  | vcmpLeu => exact May.list14 h (execVcmpLeu_kept (Kept.refl s))
  | vcmpEqF => exact May.list14 h (execVcmpEqF_kept (Kept.refl s))
  | vcmpLtF => exact May.list14 h (execVcmpLtF_kept (Kept.refl s))
  | vcmpLeF => exact May.list14 h (execVcmpLeF_kept (Kept.refl s))
  | vcmpUnF => exact May.list14 h (execVcmpUnF_kept (Kept.refl s))
  | pand => exact May.list14 h (execPand_kept (Kept.refl s))
  | por => exact May.list14 h (execPor_kept (Kept.refl s))
  | pxor => exact May.list14 h (execPxor_kept (Kept.refl s))
  | pnot => exact May.list14 h (execPnot_kept (Kept.refl s))
  | pmv => exact May.list14 h (execPmv_kept (Kept.refl s))
  | pget => exact May.list14 h (execPget_kept (Kept.refl s))
  | vbcast => exact May.list14 h (execVbcast_kept (Kept.refl s))
  | vins => exact May.list14 h (execVins_kept (Kept.refl s))
  | vext => exact May.list14 h (execVext_kept (Kept.refl s))
  | vsel => exact May.list14 h (execVsel_kept (Kept.refl s))
  | vmv => exact May.list14 h (execVmv_kept (Kept.refl s))
  | vid => exact May.list14 h (execVid_kept (Kept.refl s))
  | vredaddI => exact May.list14 h (execVredaddI_kept (Kept.refl s))
  | vredaddF => exact May.list14 h (execVredaddF_kept (Kept.refl s))
  | vredmaxF => exact May.list14 h (execVredmaxF_kept (Kept.refl s))
  | vredminF => exact May.list14 h (execVredminF_kept (Kept.refl s))
  | vredmaxI => exact May.list14 h (execVredmaxI_kept (Kept.refl s))
  | vredminI => exact May.list14 h (execVredminI_kept (Kept.refl s))
  | vtld => exact May.list14 h (execVtld_kept (Kept.refl s))
  | vtab2 => exact May.list14 h (execVtab2_kept (Kept.refl s))
  | sramScrub => exact May.list14 h (execSramScrub_kept (Kept.refl s))
  | grainLockup => exact May.list14 h (execGrainLockup_kept (Kept.refl s))
  | sweepGridPoint => exact May.list15 h (execSweepGridPoint_kept (Kept.refl s))
  | sweepDeadlineMiss => exact May.list16 h (execSweepDeadlineMiss_kept (Kept.refl s))
  | nodeStaleTimeout => exact May.list17 h (execNodeStaleTimeout_kept (Kept.refl s))
  | meanWindowEnd => exact May.list18 h (execMeanWindowEnd_kept (Kept.refl s))
  | owtPeriodic => exact May.list18 h (execOwtPeriodic_kept (Kept.refl s))
  | windowFreeze => exact May.list19 h (execWindowFreeze_kept (Kept.refl s))
  | archiveCopyDone => exact May.list19 h (execArchiveCopyDone_kept (Kept.refl s))
  | phaseDecimatorOutput => exact May.list20 h (execPhaseDecimatorOutput_kept (Kept.refl s))
  | pdatNoTransition => exact May.list20 h (execPdatNoTransition_kept (Kept.refl s))
  | phaseSumWrite => exact May.list21 h (execPhaseSumWrite_kept (Kept.refl s))
  | aicSample => exact May.list22 h (execAicSample_kept (Kept.refl s))
  | ainConversion => exact May.list23 h (execAinConversion_kept (Kept.refl s))
  | ainTimeout => exact May.list23 h (execAinTimeout_kept (Kept.refl s))
  | xchkWindowEnd => exact May.list23 h (execXchkWindowEnd_kept (Kept.refl s))
  | currentAtInstant => exact May.list23 h (execCurrentAtInstant_kept (Kept.refl s))
  | streamStale => exact May.list24 h (execStreamStale_kept (Kept.refl s))
  | offsetMeasure => exact May.list25 h (execOffsetMeasure_kept (Kept.refl s))
  | cfbSample => exact May.list26 h (execCfbSample_kept (Kept.refl s))
  | closeWaitEnd => exact May.list26 h (execCloseWaitEnd_kept (Kept.refl s))
  | pullInTimeout => exact May.list26 h (execPullInTimeout_kept (Kept.refl s))
  | prechargeTimeout => exact May.list26 h (execPrechargeTimeout_kept (Kept.refl s))
  | tripVerdict => exact May.list27 h (execTripVerdict_kept (Kept.refl s))
  | derateHoldExpire => exact May.list28 h (execDerateHoldExpire_kept (Kept.refl s))
  | rampPark => exact May.list29 h (execRampPark_kept (Kept.refl s))
  | zeroCurrentOpen => exact May.list29 h (execZeroCurrentOpen_kept (Kept.refl s))
  | openTimeout => exact May.list29 h (execOpenTimeout_kept (Kept.refl s))
  | rampTimeout => exact May.list30 h (execRampTimeout_kept (Kept.refl s))
  | dlimExceed => exact May.list31 h (execDlimExceed_kept (Kept.refl s))
  | dlimStale => exact May.list32 h (execDlimStale_kept (Kept.refl s))
  | economiserStart => exact May.list33 h (execEconomiserStart_kept (Kept.refl s))
  | vswRecover => exact May.list33 h (execVswRecover_kept (Kept.refl s))
  | channelPrewarnEnd => exact May.list33 h (execChannelPrewarnEnd_kept (Kept.refl s))
  | weldCheckTimeout => exact May.list34 h (execWeldCheckTimeout_kept (Kept.refl s))
  | retryWaitEnd => exact May.list34 h (execRetryWaitEnd_kept (Kept.refl s))
  | loadComplete => exact May.list35 h (execLoadComplete_kept (Kept.refl s))
  | fmla => exact May.list36 h (execFmla_kept (Kept.refl s))
  | fmls => exact May.list36 h (execFmls_kept (Kept.refl s))
  | fmnl => exact May.list36 h (execFmnl_kept (Kept.refl s))
  | ipost => exact May.list36 h (execIpost_kept (Kept.refl s))
  | vexp => exact May.list36 h (execVexp_kept (Kept.refl s))
  | amoadd => exact May.list37 h (execAmoadd_kept (Kept.refl s))
  | amoswap => exact May.list37 h (execAmoswap_kept (Kept.refl s))
  | amocas => exact May.list37 h (execAmocas_kept (Kept.refl s))
  | kcall => exact May.list37 h (execKcall_kept (Kept.refl s))
  | trapEntry => exact May.list38 h (execTrapEntry_kept (Kept.refl s))
  | inboxHoldRelease => exact May.list39 h (execInboxHoldRelease_kept (Kept.refl s))
  | vcorr => exact May.list40 h (execVcorr_kept (Kept.refl s))
  | corrLaneAccumulate => exact May.list41 h (execCorrLaneAccumulate_kept (Kept.refl s))
  | corrClearDone => exact May.list42 h (execCorrClearDone_kept (Kept.refl s))
  | gateKillRelease => exact May.list42 h (execGateKillRelease_kept (Kept.refl s))
  | gdUvHigh => exact May.list42 h (execGdUvHigh_kept (Kept.refl s))
  | resetNGlitch => exact May.list42 h (execResetNGlitch_kept (Kept.refl s))
  | resetStuckClear => exact May.list42 h (execResetStuckClear_kept (Kept.refl s))
  | weightsStale => exact May.list43 h (execWeightsStale_kept (Kept.refl s))
  | psyncEdge => exact May.list43 h (execPsyncEdge_kept (Kept.refl s))
  | psyncLoss => exact May.list43 h (execPsyncLoss_kept (Kept.refl s))
  | vset => exact May.list43 h (execVset_kept (Kept.refl s))
  | statq => exact May.list43 h (execStatq_kept (Kept.refl s))
  | iff => exact May.list43 h (execIff_kept (Kept.refl s))
  | limq => exact May.list43 h (execLimq_kept (Kept.refl s))
  | bvlUnknownType => exact May.list43 h (execBvlUnknownType_kept (Kept.refl s))
  | bvlSilence => exact May.list43 h (execBvlSilence_kept (Kept.refl s))
  | bvlClockLoss => exact May.list43 h (execBvlClockLoss_kept (Kept.refl s))
  | excEnvelopeEnd => exact May.list43 h (execExcEnvelopeEnd_kept (Kept.refl s))
  | excCompTimeout => exact May.list43 h (execExcCompTimeout_kept (Kept.refl s))
  | vbusSourceRecover => exact May.list44 h (execVbusSourceRecover_kept (Kept.refl s))
  | syncHoldExpire => exact May.list44 h (execSyncHoldExpire_kept (Kept.refl s))
  | vsetSettled => exact May.list44 h (execVsetSettled_kept (Kept.refl s))
  | bvlFallback => exact May.list44 h (execBvlFallback_kept (Kept.refl s))
  | phasePeriodStart => exact May.list45 h (execPhasePeriodStart_kept (Kept.refl s))
  | phaseDecayDone => exact May.list46 h (execPhaseDecayDone_kept (Kept.refl s))
  | delayLineRecal => exact May.list46 h (execDelayLineRecal_kept (Kept.refl s))
  | bvlResponseSend => exact May.list46 h (execBvlResponseSend_kept (Kept.refl s))
  | iffTimeout => exact May.list46 h (execIffTimeout_kept (Kept.refl s))
  | limPeriodic => exact May.list46 h (execLimPeriodic_kept (Kept.refl s))
  | refreshPulse => exact May.list47 h (execRefreshPulse_kept (Kept.refl s))
  | stopEnd => exact May.list47 h (execStopEnd_kept (Kept.refl s))
  | pwmEdge => exact May.list48 h (execPwmEdge_kept (Kept.refl s))
  | stopHardOff => exact May.list48 h (execStopHardOff_kept (Kept.refl s))
  | gateKillHardOff => exact May.list48 h (execGateKillHardOff_kept (Kept.refl s))
  | bvlFrameDiscard => exact May.list49 h (execBvlFrameDiscard_kept (Kept.refl s))
  | channelSenseFault => exact May.list49 h (execChannelSenseFault_kept (Kept.refl s))
  | channelOpenLoad => exact May.list49 h (execChannelOpenLoad_kept (Kept.refl s))
  | resetStuck => exact May.list49 h (execResetStuck_kept (Kept.refl s))
  | ethLinkPoll => exact May.list49 h (execEthLinkPoll_kept (Kept.refl s))
  | discLost => exact May.list49 h (execDiscLost_kept (Kept.refl s))
  | blockEventCollect => exact May.list49 h (execBlockEventCollect_kept (Kept.refl s))
  | ledgerWearCheck => exact May.list49 h (execLedgerWearCheck_kept (Kept.refl s))
  | cgIdleTimeout => exact May.list49 h (execCgIdleTimeout_kept (Kept.refl s))
  | bandFall => exact May.list49 h (execBandFall_kept (Kept.refl s))
  | capmoveTimeout => exact May.list50 h (execCapmoveTimeout_kept (Kept.refl s))
  | desatFlag => exact May.list51 h (execDesatFlag_kept (Kept.refl s))
  | blankEnd => exact May.list51 h (execBlankEnd_kept (Kept.refl s))
  | fastOvercurrent => exact May.list51 h (execFastOvercurrent_kept (Kept.refl s))
  | feedbackChange => exact May.list51 h (execFeedbackChange_kept (Kept.refl s))
  | interlockTimeout => exact May.list51 h (execInterlockTimeout_kept (Kept.refl s))
  | gdUvLow => exact May.list51 h (execGdUvLow_kept (Kept.refl s))
  | leakStepEnd => exact May.list51 h (execLeakStepEnd_kept (Kept.refl s))
  | gateKillAssert => exact May.list52 h (execGateKillAssert_kept (Kept.refl s))
  | channelInputChange => exact May.list53 h (execChannelInputChange_kept (Kept.refl s))
  | channelThermalTrip => exact May.list53 h (execChannelThermalTrip_kept (Kept.refl s))
  | channelPrewarn => exact May.list53 h (execChannelPrewarn_kept (Kept.refl s))
  | channelSensorBroken => exact May.list53 h (execChannelSensorBroken_kept (Kept.refl s))
  | vswLow => exact May.list53 h (execVswLow_kept (Kept.refl s))
  | loadTimerEdge => exact May.list54 h (execLoadTimerEdge_kept (Kept.refl s))
  | channelThermalRestart => exact May.list54 h (execChannelThermalRestart_kept (Kept.refl s))
  | sfAliveTimeout => exact May.list54 h (execSfAliveTimeout_kept (Kept.refl s))
  | channelCurrentLimit => exact May.list54 h (execChannelCurrentLimit_kept (Kept.refl s))
  | inrushWindowEnd => exact May.list55 h (execInrushWindowEnd_kept (Kept.refl s))
  | sfInit => exact May.list56 h (execSfInit_kept (Kept.refl s))
  | safetyCycle => exact May.list57 h (execSafetyCycle_kept (Kept.refl s))
  | srsTimeout => exact May.list57 h (execSrsTimeout_kept (Kept.refl s))
  | srsCurrentLost => exact May.list57 h (execSrsCurrentLost_kept (Kept.refl s))
  | proofDue => exact May.list58 h (execProofDue_kept (Kept.refl s))
  | pairDiscrepancy => exact May.list58 h (execPairDiscrepancy_kept (Kept.refl s))
  | testPulse => exact May.list58 h (execTestPulse_kept (Kept.refl s))
  | sceStale => exact May.list58 h (execSceStale_kept (Kept.refl s))
  | resetPress => exact May.list58 h (execResetPress_kept (Kept.refl s))
  | sealChange => exact May.list58 h (execSealChange_kept (Kept.refl s))
  | connWatchdog => exact May.list58 h (execConnWatchdog_kept (Kept.refl s))
  | pairInputChange => exact May.list59 h (execPairInputChange_kept (Kept.refl s))
  | execCheckTimeout => exact May.list59 h (execExecCheckTimeout_kept (Kept.refl s))
  | producerFrame => exact May.list59 h (execProducerFrame_kept (Kept.refl s))
  | sfRecordCopy => exact May.list60 h (execSfRecordCopy_kept (Kept.refl s))
  | sfVerdictCopy => exact May.list61 h (execSfVerdictCopy_kept (Kept.refl s))
  | canFrameReceived => exact May.list62 h (execCanFrameReceived_kept (Kept.refl s))
  | canTxComplete => exact May.list63 h (execCanTxComplete_kept (Kept.refl s))
  | canTxError => exact May.list63 h (execCanTxError_kept (Kept.refl s))
  | canArbitration => exact May.list64 h (execCanArbitration_kept (Kept.refl s))
  | canReferenceSend => exact May.list64 h (execCanReferenceSend_kept (Kept.refl s))
  | canBusoffRecovered => exact May.list65 h (execCanBusoffRecovered_kept (Kept.refl s))
  | ethTxTimeout => exact May.list65 h (execEthTxTimeout_kept (Kept.refl s))
  | lifetimeBlockInput => exact May.list65 h (execLifetimeBlockInput_kept (Kept.refl s))
  | pmonWrap => exact May.list65 h (execPmonWrap_kept (Kept.refl s))
  | canRxError => exact May.list65 h (execCanRxError_kept (Kept.refl s))
  | canTimeLost => exact May.list66 h (execCanTimeLost_kept (Kept.refl s))
  | ethFrameReceived => exact May.list67 h (execEthFrameReceived_kept (Kept.refl s))
  | ethFrameTransmit => exact May.list68 h (execEthFrameTransmit_kept (Kept.refl s))
  | eventRaise => exact May.list69 h (execEventRaise_kept (Kept.refl s))
  | ledgerEventReceive => exact May.list70 h (execLedgerEventReceive_kept (Kept.refl s))
  | ledgerPersist => exact May.list71 h (execLedgerPersist_kept (Kept.refl s))
  | lifetimeRoll => exact May.list72 h (execLifetimeRoll_kept (Kept.refl s))
  | lifetimeBatchDone => exact May.list73 h (execLifetimeBatchDone_kept (Kept.refl s))
  | mramScrubPass => exact May.list73 h (execMramScrubPass_kept (Kept.refl s))
  | psBootRecovery => exact May.list74 h (execPsBootRecovery_kept (Kept.refl s))
  | recoveryWaitEnd => exact May.list75 h (execRecoveryWaitEnd_kept (Kept.refl s))
  | restartComplete => exact May.list76 h (execRestartComplete_kept (Kept.refl s))
  | psResetComplete => exact May.list76 h (execPsResetComplete_kept (Kept.refl s))
  | chipResetRelease => exact May.list77 h (execChipResetRelease_kept (Kept.refl s))
  | vectorSelftestDone => exact May.list78 h (execVectorSelftestDone_kept (Kept.refl s))
  | bootRom => exact May.list79 h (execBootRom_kept (Kept.refl s))
  | hello => exact May.list80 h (execHello_kept (Kept.refl s))
  | cgLockoutEnd => exact May.list80 h (execCgLockoutEnd_kept (Kept.refl s))
  | write => exact May.list81 h (execWrite_kept (Kept.refl s))
  | verify => exact May.list82 h (execVerify_kept (Kept.refl s))
  | debugExpire => exact May.list83 h (execDebugExpire_kept (Kept.refl s))
  | powerOnRelease => exact May.list84 h (execPowerOnRelease_kept (Kept.refl s))
  | resetNHigh => exact May.list84 h (execResetNHigh_kept (Kept.refl s))
  | powerFail => exact May.list85 h (execPowerFail_kept (Kept.refl s))
  | holdExpire => exact May.list86 h (execHoldExpire_kept (Kept.refl s))
  | thermalShutdown => exact May.list86 h (execThermalShutdown_kept (Kept.refl s))
  | rtcLoad => exact May.list87 h (execRtcLoad_kept (Kept.refl s))
  | thermalResetRelease => exact May.list87 h (execThermalResetRelease_kept (Kept.refl s))
  | dieSensorConvert => exact May.list88 h (execDieSensorConvert_kept (Kept.refl s))

end Sys2Proof.Machine
end

