-- ==== Sys2Proof/Laws/Lanes.lean ====
section
/-!
SUPPORT. The lanes of vector registers and the bits of predicates: what a write of some of them leaves, and the shapes of
the vector instructions.
-/

set_option Elab.async false

namespace Sys2Proof.Machine

/-! ## Lanes -/

theorem State.lane_congr {s u : State} {src : Nat} (h : (u.grain src).v = (s.grain src).v) (n i : Nat) :
    u.lane src n i = s.lane src n i := by
  unfold State.lane
  rw [h]

theorem State.lane_setLane (s : State) (src n i v m j : Nat) (hi : i < 8) (hj : j < 8) :
    (s.setLane src n i v).lane src m j = if m = n ∧ j = i then v % 2 ^ 32 else s.lane src m j := by
  unfold State.lane State.setLane
  rw [State.grain_updGrain_same]
  dsimp only
  split
  · next h => rw [h.1, h.2, Tab.get_set_same, BitVec.toNat_ofNat]
  · next h => rw [Tab.get_set_ne _ _ _ _ (by omega)]

/-- Lanes written one after another, each lane at most once. -/
theorem State.lane_putLanes (s : State) (src vd : Nat) (l : List Nat) (f : Nat → Nat) (hl : ∀ i ∈ l, i < 8) (m j : Nat)
    (hj : j < 8) : (s.putLanes src vd l f).lane src m j = if m = vd ∧ j ∈ l then f j % 2 ^ 32 else s.lane src m j := by
  induction l generalizing s with
  | nil => rw [if_neg (by simp)]; rfl
  | cons i l ih =>
    show ((s.setLane src vd i (f i)).putLanes src vd l f).lane src m j = _
    rw [ih _ (fun k hk => hl k (List.mem_cons_of_mem _ hk)), State.lane_setLane _ _ _ _ _ _ _ (hl i (by simp)) hj]
    by_cases h : m = vd ∧ j ∈ l
    · rw [if_pos h, if_pos ⟨h.1, List.mem_cons_of_mem _ h.2⟩]
    · rw [if_neg h]
      by_cases h' : m = vd ∧ j = i
      · rw [if_pos h', if_pos ⟨h'.1, by simp [h'.2]⟩, h'.2]
      · rw [if_neg h', if_neg]
        rintro ⟨h1, h2⟩
        rcases List.mem_cons.1 h2 with h2 | h2
        · exact h' ⟨h1, h2⟩
        · exact h ⟨h1, h2⟩

theorem State.mem_activeLanes (s : State) (src pg i : Nat) : i ∈ s.activeLanes src pg ↔ i < 8 ∧ s.pbit src pg i = true := by
  unfold State.activeLanes laneIds
  rw [List.mem_filter]
  simp only [List.mem_cons, List.not_mem_nil, or_false]
  constructor
  · rintro ⟨h, k⟩
    exact ⟨by omega, k⟩
  · rintro ⟨h, k⟩
    exact ⟨by omega, k⟩

/-- Writing lanes changes the grain's vector registers alone. -/
theorem State.Did.putLanes {s u : State} {g : GrainId} {t : Nat} {ps : List Part} {f : Grain → Grain} (h : s.Did g t ps f u)
    (vd : Nat) (l : List Nat) (r : Nat → Nat) :
    ∃ v, s.Did g t ps (fun x => { f x with v := v }) (u.putLanes g.src vd l r) := by
  induction l generalizing u f with
  | nil => exact ⟨(f (s.grain g.src)).v, h.as rfl⟩
  | cons i l ih =>
    obtain ⟨v, d⟩ := ih (h.upd (fun x => { x with v := Tab.set 0#32 x.v (vd * 256 + i) (BitVec.ofNat 32 (r i)) }))
    exact ⟨v, d⟩

theorem State.lane_stepOn (s : State) (g src n i : Nat) : (s.stepOn g).lane src n i = s.lane src n i := by
  apply State.lane_congr
  obtain ⟨m, e⟩ := s.stepOn_eq g
  rw [e]
  show (((s.setPc g (s.pc g + 4)).updGrain g (fun x => { x with retired := s.now })).grain src).v = _
  by_cases h : src = g
  · subst h
    unfold State.setPc
    rw [State.updGrain_updGrain]
  · rw [State.grain_updGrain_ne _ _ h]
    unfold State.setPc
    rw [State.grain_updGrain_ne _ _ h]

/-- An outcome in which lanes of `vd` were written, in the active lanes alone. -/
theorem State.setsV_of {s u0 : State} {g : GrainId} {t : Nat} {ps : List Part} {vd pg : Nat} {f r : Nat → Nat}
    {o : Host.Outcome State Fault Refusal} (d : s.Did g t ps id u0)
    (e : o = .next ((u0.putLanes g.src vd (u0.activeLanes g.src pg) r).stepOn g.src))
    (hr : ∀ i, i < 8 → s.pbit g.src pg i = true → r i % 2 ^ 32 = f i % 2 ^ 32) : s.SetsV g t ps vd pg f o := by
  obtain ⟨v, d1⟩ := d.putLanes vd (u0.activeLanes g.src pg) r
  refine ⟨_, v, e, d1.stepOn, fun n i hi => ?_⟩
  have hv : ∀ n i, u0.lane g.src n i = s.lane g.src n i := fun n i => State.lane_congr (by rw [d.grain]; rfl) n i
  have hp : ∀ i, u0.pbit g.src pg i = s.pbit g.src pg i := fun i => by unfold State.pbit; rw [d.grain]; rfl
  rw [State.lane_stepOn, State.lane_putLanes _ _ _ _ _ (fun i hi => ((State.mem_activeLanes _ _ _ _).1 hi).1) _ _ hi, hv]
  simp only [State.mem_activeLanes, hp]
  by_cases h : n = vd ∧ s.pbit g.src pg i = true
  · rw [if_pos ⟨h.1, hi, h.2⟩, if_pos h, hr i hi h.2]
  · rw [if_neg (fun k => h ⟨k.1, k.2.2⟩), if_neg h]

/-- A lane operation of a ready vector grain (R214). -/
theorem State.laneOp_sets {s : State} {g : GrainId} {t w vd pg : Nat} {f : State → Nat → Nat} {r : Nat → Nat}
    (h : s.Ready g) (hk : g.kind = .vec) (hr : ∀ i, i < 8 → f (s.at t) i % 2 ^ 32 = r i % 2 ^ 32) :
    s.SetsV g t [] vd pg r (s.laneOp g t w vd pg f) :=
  State.setsV_of (s.did_at g t []) (State.issue_ready h (by rw [hk]; rfl) (.inl rfl)) (fun i hi _ => hr i hi)

/-! ## Predicates -/

theorem State.pbit_setPbit (s : State) (src n i m j : Nat) (b : Bool) (hi : i < 8) (hj : j < 8) :
    (s.setPbit src n i b).pbit src m j = if m = n ∧ m ≠ 0 ∧ j = i then b else s.pbit src m j := by
  unfold State.setPbit
  by_cases hn : n = 0
  · rw [if_pos hn, if_neg (by omega)]
  · rw [if_neg hn]
    unfold State.pbit
    rw [State.grain_updGrain_same]
    dsimp only
    split
    · next h => rw [h.1, h.2.2, Tab.get_set_same]; simp [hn]
    · next h =>
      by_cases hm : m = 0
      · simp [hm]
      · rw [Tab.get_set_ne _ _ _ _ (by omega)]

theorem State.pbit_fold (s : State) (src pd : Nat) (l : List Nat) (f : Nat → Bool) (hl : ∀ i ∈ l, i < 8) (m j : Nat)
    (hj : j < 8) : (l.foldl (fun s i => s.setPbit src pd i (f i)) s).pbit src m j =
      if m = pd ∧ m ≠ 0 ∧ j ∈ l then f j else s.pbit src m j := by
  induction l generalizing s with
  | nil => rw [if_neg (by simp)]; rfl
  | cons i l ih =>
    rw [List.foldl_cons, ih _ (fun k hk => hl k (List.mem_cons_of_mem _ hk)),
      State.pbit_setPbit _ _ _ _ _ _ _ (hl i (by simp)) hj]
    by_cases h : m = pd ∧ m ≠ 0 ∧ j ∈ l
    · rw [if_pos h, if_pos ⟨h.1, h.2.1, List.mem_cons_of_mem _ h.2.2⟩]
    · rw [if_neg h]
      by_cases h' : m = pd ∧ m ≠ 0 ∧ j = i
      · rw [if_pos h', if_pos ⟨h'.1, h'.2.1, by simp [h'.2.2]⟩, h'.2.2]
      · rw [if_neg h', if_neg]
        rintro ⟨h1, h2, h3⟩
        rcases List.mem_cons.1 h3 with h3 | h3
        · exact h' ⟨h1, h2, h3⟩
        · exact h ⟨h1, h2, h3⟩

theorem State.Did.putPred {s u : State} {g : GrainId} {t : Nat} {ps : List Part} {f : Grain → Grain} (h : s.Did g t ps f u)
    (pd : Nat) (l : List Nat) (r : Nat → Bool) :
    ∃ p, s.Did g t ps (fun x => { f x with p := p }) (l.foldl (fun s i => s.setPbit g.src pd i (r i)) u) := by
  induction l generalizing u f with
  | nil => exact ⟨(f (s.grain g.src)).p, h.as rfl⟩
  | cons i l ih =>
    rw [List.foldl_cons]
    by_cases hn : pd = 0
    · have e : u.setPbit g.src pd i (r i) = u := by unfold State.setPbit; rw [if_pos hn]
      rw [e]
      exact ih h
    · have e : u.setPbit g.src pd i (r i) =
          u.updGrain g.src (fun x => { x with p := Tab.set false x.p (pd * 256 + i) (r i) }) := by
        unfold State.setPbit
        rw [if_neg hn]
      rw [e]
      obtain ⟨p, d⟩ := ih (h.upd (fun x => { x with p := Tab.set false x.p (pd * 256 + i) (r i) }))
      exact ⟨p, d⟩

theorem State.pbit_congr {s u : State} {src : Nat} (h : (u.grain src).p = (s.grain src).p) (n i : Nat) :
    u.pbit src n i = s.pbit src n i := by
  unfold State.pbit
  rw [h]

theorem State.pbit_stepOn (s : State) (g src n i : Nat) : (s.stepOn g).pbit src n i = s.pbit src n i := by
  apply State.pbit_congr
  obtain ⟨m, e⟩ := s.stepOn_eq g
  rw [e]
  show (((s.setPc g (s.pc g + 4)).updGrain g (fun x => { x with retired := s.now })).grain src).p = _
  by_cases h : src = g
  · subst h
    unfold State.setPc
    rw [State.updGrain_updGrain]
  · rw [State.grain_updGrain_ne _ _ h]
    unfold State.setPc
    rw [State.grain_updGrain_ne _ _ h]

/-- A predicate write of a ready vector grain (R213). -/
theorem State.setsP_of {s : State} {g : GrainId} {t pd : Nat} {f r : Nat → Bool} {o : Host.Outcome State Fault Refusal}
    (e : o = .next (((s.at t).putPred g.src pd r).stepOn g.src)) (hr : ∀ i, i < 8 → r i = f i) : s.SetsP g t pd f o := by
  obtain ⟨p, d⟩ := (s.did_at g t []).putPred pd laneIds r
  refine ⟨_, p, e, d.stepOn, fun n i hi => ?_⟩
  rw [State.pbit_stepOn]
  unfold State.putPred
  rw [State.pbit_fold _ _ _ _ _ (by decide) _ _ hi]
  have hm : i ∈ laneIds := by
    unfold laneIds
    simp only [List.mem_cons, List.not_mem_nil, or_false]
    omega
  by_cases h : n = pd ∧ n ≠ 0
  · rw [if_pos ⟨h.1, h.2, hm⟩, if_pos h, hr i hi]
  · rw [if_neg (fun k => h ⟨k.1, k.2.1⟩), if_neg h]
    rfl

end Sys2Proof.Machine
end

