-- ==== Sys2Proof/Laws/State.lean ====
section
/-!
SUPPORT. What each update of the state leaves alone, field by field and accessor by accessor.
-/

set_option Elab.async false

namespace Sys2Proof.Machine

/-! ## `at` -/

@[simp] theorem State.pending_at (s : State) (t : Nat) : (s.at t).pending = s.pending := rfl
@[simp] theorem State.fresh_at (s : State) (t : Nat) : (s.at t).fresh = s.fresh := rfl
@[simp] theorem State.regs_at (s : State) (t : Nat) : (s.at t).regs = s.regs := rfl
@[simp] theorem State.mem_at (s : State) (t : Nat) : (s.at t).mem = s.mem := rfl
@[simp] theorem State.fab_at (s : State) (t : Nat) : (s.at t).fab = s.fab := rfl
@[simp] theorem State.grains_at (s : State) (t : Nat) : (s.at t).grains = s.grains := rfl
@[simp] theorem State.led_at (s : State) (t : Nat) : (s.at t).led = s.led := rfl
@[simp] theorem State.lnk_at (s : State) (t : Nat) : (s.at t).lnk = s.lnk := rfl
@[simp] theorem State.swp_at (s : State) (t : Nat) : (s.at t).swp = s.swp := rfl
@[simp] theorem State.trip_at (s : State) (t : Nat) : (s.at t).trip = s.trip := rfl
@[simp] theorem State.boot_at (s : State) (t : Nat) : (s.at t).boot = s.boot := rfl
@[simp] theorem State.gate_at (s : State) (t : Nat) : (s.at t).gate = s.gate := rfl
@[simp] theorem State.regu_at (s : State) (t : Nat) : (s.at t).regu = s.regu := rfl
@[simp] theorem State.out_at (s : State) (t : Nat) : (s.at t).out = s.out := rfl
@[simp] theorem State.cur_at (s : State) (t : Nat) : (s.at t).cur = s.cur := rfl
@[simp] theorem State.sf_at (s : State) (t : Nat) : (s.at t).sf = s.sf := rfl
@[simp] theorem State.can_at (s : State) (t : Nat) : (s.at t).can = s.can := rfl
@[simp] theorem State.eth_at (s : State) (t : Nat) : (s.at t).eth = s.eth := rfl
@[simp] theorem State.sv_at (s : State) (t : Nat) : (s.at t).sv = s.sv := rfl
@[simp] theorem State.corr_at (s : State) (t : Nat) : (s.at t).corr = s.corr := rfl
@[simp] theorem State.est_at (s : State) (t : Nat) : (s.at t).est = s.est := rfl
@[simp] theorem State.reg_at (s : State) (t : Nat) (a : Nat) : (s.at t).reg a = s.reg a := rfl
@[simp] theorem State.rd_at (s : State) (t : Nat) (a : Nat) (f : Fld) : (s.at t).rd a f = s.rd a f := rfl
@[simp] theorem State.rdB_at (s : State) (t : Nat) (a : Nat) (f : Fld) : (s.at t).rdB a f = s.rdB a f := rfl
@[simp] theorem State.byte_at (s : State) (t : Nat) (a : Nat) : (s.at t).byte a = s.byte a := rfl
@[simp] theorem State.grain_at (s : State) (t : Nat) (g : Nat) : (s.at t).grain g = s.grain g := rfl
@[simp] theorem State.node_at (s : State) (t : Nat) (n : Nat) : (s.at t).node n = s.node n := rfl
@[simp] theorem State.eng_at (s : State) (t : Nat) (n : Nat) : (s.at t).eng n = s.eng n := rfl
@[simp] theorem State.pos_at (s : State) (t : Nat) (x y : Nat) : (s.at t).pos x y = s.pos x y := rfl

/-! ## `drew` -/

@[simp] theorem State.pending_drew (s : State) (k : Nat) : (s.drew k).pending = s.pending := rfl
@[simp] theorem State.now_drew (s : State) (k : Nat) : (s.drew k).now = s.now := rfl
@[simp] theorem State.regs_drew (s : State) (k : Nat) : (s.drew k).regs = s.regs := rfl
@[simp] theorem State.mem_drew (s : State) (k : Nat) : (s.drew k).mem = s.mem := rfl
@[simp] theorem State.fab_drew (s : State) (k : Nat) : (s.drew k).fab = s.fab := rfl
@[simp] theorem State.grains_drew (s : State) (k : Nat) : (s.drew k).grains = s.grains := rfl
@[simp] theorem State.led_drew (s : State) (k : Nat) : (s.drew k).led = s.led := rfl
@[simp] theorem State.lnk_drew (s : State) (k : Nat) : (s.drew k).lnk = s.lnk := rfl
@[simp] theorem State.swp_drew (s : State) (k : Nat) : (s.drew k).swp = s.swp := rfl
@[simp] theorem State.trip_drew (s : State) (k : Nat) : (s.drew k).trip = s.trip := rfl
@[simp] theorem State.boot_drew (s : State) (k : Nat) : (s.drew k).boot = s.boot := rfl
@[simp] theorem State.gate_drew (s : State) (k : Nat) : (s.drew k).gate = s.gate := rfl
@[simp] theorem State.regu_drew (s : State) (k : Nat) : (s.drew k).regu = s.regu := rfl
@[simp] theorem State.out_drew (s : State) (k : Nat) : (s.drew k).out = s.out := rfl
@[simp] theorem State.cur_drew (s : State) (k : Nat) : (s.drew k).cur = s.cur := rfl
@[simp] theorem State.sf_drew (s : State) (k : Nat) : (s.drew k).sf = s.sf := rfl
@[simp] theorem State.can_drew (s : State) (k : Nat) : (s.drew k).can = s.can := rfl
@[simp] theorem State.eth_drew (s : State) (k : Nat) : (s.drew k).eth = s.eth := rfl
@[simp] theorem State.sv_drew (s : State) (k : Nat) : (s.drew k).sv = s.sv := rfl
@[simp] theorem State.corr_drew (s : State) (k : Nat) : (s.drew k).corr = s.corr := rfl
@[simp] theorem State.est_drew (s : State) (k : Nat) : (s.drew k).est = s.est := rfl
@[simp] theorem State.reg_drew (s : State) (k : Nat) (a : Nat) : (s.drew k).reg a = s.reg a := rfl
@[simp] theorem State.rd_drew (s : State) (k : Nat) (a : Nat) (f : Fld) : (s.drew k).rd a f = s.rd a f := rfl
@[simp] theorem State.rdB_drew (s : State) (k : Nat) (a : Nat) (f : Fld) : (s.drew k).rdB a f = s.rdB a f := rfl
@[simp] theorem State.byte_drew (s : State) (k : Nat) (a : Nat) : (s.drew k).byte a = s.byte a := rfl
@[simp] theorem State.grain_drew (s : State) (k : Nat) (g : Nat) : (s.drew k).grain g = s.grain g := rfl
@[simp] theorem State.node_drew (s : State) (k : Nat) (n : Nat) : (s.drew k).node n = s.node n := rfl
@[simp] theorem State.eng_drew (s : State) (k : Nat) (n : Nat) : (s.drew k).eng n = s.eng n := rfl
@[simp] theorem State.pos_drew (s : State) (k : Nat) (x y : Nat) : (s.drew k).pos x y = s.pos x y := rfl
@[simp] theorem State.ns_drew (s : State) (k : Nat) : (s.drew k).ns = s.ns := rfl

/-! ## `setReg` -/

@[simp] theorem State.pending_setReg (s : State) (b : Nat) (w : Word) : (s.setReg b w).pending = s.pending := rfl
@[simp] theorem State.now_setReg (s : State) (b : Nat) (w : Word) : (s.setReg b w).now = s.now := rfl
@[simp] theorem State.fresh_setReg (s : State) (b : Nat) (w : Word) : (s.setReg b w).fresh = s.fresh := rfl
@[simp] theorem State.mem_setReg (s : State) (b : Nat) (w : Word) : (s.setReg b w).mem = s.mem := rfl
@[simp] theorem State.fab_setReg (s : State) (b : Nat) (w : Word) : (s.setReg b w).fab = s.fab := rfl
@[simp] theorem State.grains_setReg (s : State) (b : Nat) (w : Word) : (s.setReg b w).grains = s.grains := rfl
@[simp] theorem State.led_setReg (s : State) (b : Nat) (w : Word) : (s.setReg b w).led = s.led := rfl
@[simp] theorem State.lnk_setReg (s : State) (b : Nat) (w : Word) : (s.setReg b w).lnk = s.lnk := rfl
@[simp] theorem State.swp_setReg (s : State) (b : Nat) (w : Word) : (s.setReg b w).swp = s.swp := rfl
@[simp] theorem State.trip_setReg (s : State) (b : Nat) (w : Word) : (s.setReg b w).trip = s.trip := rfl
@[simp] theorem State.boot_setReg (s : State) (b : Nat) (w : Word) : (s.setReg b w).boot = s.boot := rfl
@[simp] theorem State.gate_setReg (s : State) (b : Nat) (w : Word) : (s.setReg b w).gate = s.gate := rfl
@[simp] theorem State.regu_setReg (s : State) (b : Nat) (w : Word) : (s.setReg b w).regu = s.regu := rfl
@[simp] theorem State.out_setReg (s : State) (b : Nat) (w : Word) : (s.setReg b w).out = s.out := rfl
@[simp] theorem State.cur_setReg (s : State) (b : Nat) (w : Word) : (s.setReg b w).cur = s.cur := rfl
@[simp] theorem State.sf_setReg (s : State) (b : Nat) (w : Word) : (s.setReg b w).sf = s.sf := rfl
@[simp] theorem State.can_setReg (s : State) (b : Nat) (w : Word) : (s.setReg b w).can = s.can := rfl
@[simp] theorem State.eth_setReg (s : State) (b : Nat) (w : Word) : (s.setReg b w).eth = s.eth := rfl
@[simp] theorem State.sv_setReg (s : State) (b : Nat) (w : Word) : (s.setReg b w).sv = s.sv := rfl
@[simp] theorem State.corr_setReg (s : State) (b : Nat) (w : Word) : (s.setReg b w).corr = s.corr := rfl
@[simp] theorem State.est_setReg (s : State) (b : Nat) (w : Word) : (s.setReg b w).est = s.est := rfl
@[simp] theorem State.byte_setReg (s : State) (b : Nat) (w : Word) (a : Nat) : (s.setReg b w).byte a = s.byte a := rfl
@[simp] theorem State.grain_setReg (s : State) (b : Nat) (w : Word) (g : Nat) : (s.setReg b w).grain g = s.grain g := rfl
@[simp] theorem State.node_setReg (s : State) (b : Nat) (w : Word) (n : Nat) : (s.setReg b w).node n = s.node n := rfl
@[simp] theorem State.eng_setReg (s : State) (b : Nat) (w : Word) (n : Nat) : (s.setReg b w).eng n = s.eng n := rfl
@[simp] theorem State.pos_setReg (s : State) (b : Nat) (w : Word) (x y : Nat) : (s.setReg b w).pos x y = s.pos x y := rfl
@[simp] theorem State.ns_setReg (s : State) (b : Nat) (w : Word) : (s.setReg b w).ns = s.ns := rfl

/-! ## `wr` -/

@[simp] theorem State.pending_wr (s : State) (b : Nat) (q : Fld) (v : Nat) : (s.wr b q v).pending = s.pending := rfl
@[simp] theorem State.now_wr (s : State) (b : Nat) (q : Fld) (v : Nat) : (s.wr b q v).now = s.now := rfl
@[simp] theorem State.fresh_wr (s : State) (b : Nat) (q : Fld) (v : Nat) : (s.wr b q v).fresh = s.fresh := rfl
@[simp] theorem State.mem_wr (s : State) (b : Nat) (q : Fld) (v : Nat) : (s.wr b q v).mem = s.mem := rfl
@[simp] theorem State.fab_wr (s : State) (b : Nat) (q : Fld) (v : Nat) : (s.wr b q v).fab = s.fab := rfl
@[simp] theorem State.grains_wr (s : State) (b : Nat) (q : Fld) (v : Nat) : (s.wr b q v).grains = s.grains := rfl
@[simp] theorem State.led_wr (s : State) (b : Nat) (q : Fld) (v : Nat) : (s.wr b q v).led = s.led := rfl
@[simp] theorem State.lnk_wr (s : State) (b : Nat) (q : Fld) (v : Nat) : (s.wr b q v).lnk = s.lnk := rfl
@[simp] theorem State.swp_wr (s : State) (b : Nat) (q : Fld) (v : Nat) : (s.wr b q v).swp = s.swp := rfl
@[simp] theorem State.trip_wr (s : State) (b : Nat) (q : Fld) (v : Nat) : (s.wr b q v).trip = s.trip := rfl
@[simp] theorem State.boot_wr (s : State) (b : Nat) (q : Fld) (v : Nat) : (s.wr b q v).boot = s.boot := rfl
@[simp] theorem State.gate_wr (s : State) (b : Nat) (q : Fld) (v : Nat) : (s.wr b q v).gate = s.gate := rfl
@[simp] theorem State.regu_wr (s : State) (b : Nat) (q : Fld) (v : Nat) : (s.wr b q v).regu = s.regu := rfl
@[simp] theorem State.out_wr (s : State) (b : Nat) (q : Fld) (v : Nat) : (s.wr b q v).out = s.out := rfl
@[simp] theorem State.cur_wr (s : State) (b : Nat) (q : Fld) (v : Nat) : (s.wr b q v).cur = s.cur := rfl
@[simp] theorem State.sf_wr (s : State) (b : Nat) (q : Fld) (v : Nat) : (s.wr b q v).sf = s.sf := rfl
@[simp] theorem State.can_wr (s : State) (b : Nat) (q : Fld) (v : Nat) : (s.wr b q v).can = s.can := rfl
@[simp] theorem State.eth_wr (s : State) (b : Nat) (q : Fld) (v : Nat) : (s.wr b q v).eth = s.eth := rfl
@[simp] theorem State.sv_wr (s : State) (b : Nat) (q : Fld) (v : Nat) : (s.wr b q v).sv = s.sv := rfl
@[simp] theorem State.corr_wr (s : State) (b : Nat) (q : Fld) (v : Nat) : (s.wr b q v).corr = s.corr := rfl
@[simp] theorem State.est_wr (s : State) (b : Nat) (q : Fld) (v : Nat) : (s.wr b q v).est = s.est := rfl
@[simp] theorem State.byte_wr (s : State) (b : Nat) (q : Fld) (v : Nat) (a : Nat) : (s.wr b q v).byte a = s.byte a := rfl
@[simp] theorem State.grain_wr (s : State) (b : Nat) (q : Fld) (v : Nat) (g : Nat) : (s.wr b q v).grain g = s.grain g := rfl
@[simp] theorem State.node_wr (s : State) (b : Nat) (q : Fld) (v : Nat) (n : Nat) : (s.wr b q v).node n = s.node n := rfl
@[simp] theorem State.eng_wr (s : State) (b : Nat) (q : Fld) (v : Nat) (n : Nat) : (s.wr b q v).eng n = s.eng n := rfl
@[simp] theorem State.pos_wr (s : State) (b : Nat) (q : Fld) (v : Nat) (x y : Nat) : (s.wr b q v).pos x y = s.pos x y := rfl
@[simp] theorem State.ns_wr (s : State) (b : Nat) (q : Fld) (v : Nat) : (s.wr b q v).ns = s.ns := rfl

/-! ## `wrBit` -/

@[simp] theorem State.pending_wrBit (s : State) (b i : Nat) (v : Bool) : (s.wrBit b i v).pending = s.pending := rfl
@[simp] theorem State.now_wrBit (s : State) (b i : Nat) (v : Bool) : (s.wrBit b i v).now = s.now := rfl
@[simp] theorem State.fresh_wrBit (s : State) (b i : Nat) (v : Bool) : (s.wrBit b i v).fresh = s.fresh := rfl
@[simp] theorem State.mem_wrBit (s : State) (b i : Nat) (v : Bool) : (s.wrBit b i v).mem = s.mem := rfl
@[simp] theorem State.fab_wrBit (s : State) (b i : Nat) (v : Bool) : (s.wrBit b i v).fab = s.fab := rfl
@[simp] theorem State.grains_wrBit (s : State) (b i : Nat) (v : Bool) : (s.wrBit b i v).grains = s.grains := rfl
@[simp] theorem State.led_wrBit (s : State) (b i : Nat) (v : Bool) : (s.wrBit b i v).led = s.led := rfl
@[simp] theorem State.lnk_wrBit (s : State) (b i : Nat) (v : Bool) : (s.wrBit b i v).lnk = s.lnk := rfl
@[simp] theorem State.swp_wrBit (s : State) (b i : Nat) (v : Bool) : (s.wrBit b i v).swp = s.swp := rfl
@[simp] theorem State.trip_wrBit (s : State) (b i : Nat) (v : Bool) : (s.wrBit b i v).trip = s.trip := rfl
@[simp] theorem State.boot_wrBit (s : State) (b i : Nat) (v : Bool) : (s.wrBit b i v).boot = s.boot := rfl
@[simp] theorem State.gate_wrBit (s : State) (b i : Nat) (v : Bool) : (s.wrBit b i v).gate = s.gate := rfl
@[simp] theorem State.regu_wrBit (s : State) (b i : Nat) (v : Bool) : (s.wrBit b i v).regu = s.regu := rfl
@[simp] theorem State.out_wrBit (s : State) (b i : Nat) (v : Bool) : (s.wrBit b i v).out = s.out := rfl
@[simp] theorem State.cur_wrBit (s : State) (b i : Nat) (v : Bool) : (s.wrBit b i v).cur = s.cur := rfl
@[simp] theorem State.sf_wrBit (s : State) (b i : Nat) (v : Bool) : (s.wrBit b i v).sf = s.sf := rfl
@[simp] theorem State.can_wrBit (s : State) (b i : Nat) (v : Bool) : (s.wrBit b i v).can = s.can := rfl
@[simp] theorem State.eth_wrBit (s : State) (b i : Nat) (v : Bool) : (s.wrBit b i v).eth = s.eth := rfl
@[simp] theorem State.sv_wrBit (s : State) (b i : Nat) (v : Bool) : (s.wrBit b i v).sv = s.sv := rfl
@[simp] theorem State.corr_wrBit (s : State) (b i : Nat) (v : Bool) : (s.wrBit b i v).corr = s.corr := rfl
@[simp] theorem State.est_wrBit (s : State) (b i : Nat) (v : Bool) : (s.wrBit b i v).est = s.est := rfl
@[simp] theorem State.byte_wrBit (s : State) (b i : Nat) (v : Bool) (a : Nat) : (s.wrBit b i v).byte a = s.byte a := rfl
@[simp] theorem State.grain_wrBit (s : State) (b i : Nat) (v : Bool) (g : Nat) : (s.wrBit b i v).grain g = s.grain g := rfl
@[simp] theorem State.node_wrBit (s : State) (b i : Nat) (v : Bool) (n : Nat) : (s.wrBit b i v).node n = s.node n := rfl
@[simp] theorem State.eng_wrBit (s : State) (b i : Nat) (v : Bool) (n : Nat) : (s.wrBit b i v).eng n = s.eng n := rfl
@[simp] theorem State.pos_wrBit (s : State) (b i : Nat) (v : Bool) (x y : Nat) : (s.wrBit b i v).pos x y = s.pos x y := rfl
@[simp] theorem State.ns_wrBit (s : State) (b i : Nat) (v : Bool) : (s.wrBit b i v).ns = s.ns := rfl

/-! ## `hit` -/

@[simp] theorem State.pending_hit (s : State) (b : Nat) (q : Fld) (c : Nat) (r : Fld) : (s.hit b q c r).pending = s.pending := rfl
@[simp] theorem State.now_hit (s : State) (b : Nat) (q : Fld) (c : Nat) (r : Fld) : (s.hit b q c r).now = s.now := rfl
@[simp] theorem State.fresh_hit (s : State) (b : Nat) (q : Fld) (c : Nat) (r : Fld) : (s.hit b q c r).fresh = s.fresh := rfl
@[simp] theorem State.mem_hit (s : State) (b : Nat) (q : Fld) (c : Nat) (r : Fld) : (s.hit b q c r).mem = s.mem := rfl
@[simp] theorem State.fab_hit (s : State) (b : Nat) (q : Fld) (c : Nat) (r : Fld) : (s.hit b q c r).fab = s.fab := rfl
@[simp] theorem State.grains_hit (s : State) (b : Nat) (q : Fld) (c : Nat) (r : Fld) : (s.hit b q c r).grains = s.grains := rfl
@[simp] theorem State.led_hit (s : State) (b : Nat) (q : Fld) (c : Nat) (r : Fld) : (s.hit b q c r).led = s.led := rfl
@[simp] theorem State.lnk_hit (s : State) (b : Nat) (q : Fld) (c : Nat) (r : Fld) : (s.hit b q c r).lnk = s.lnk := rfl
@[simp] theorem State.swp_hit (s : State) (b : Nat) (q : Fld) (c : Nat) (r : Fld) : (s.hit b q c r).swp = s.swp := rfl
@[simp] theorem State.trip_hit (s : State) (b : Nat) (q : Fld) (c : Nat) (r : Fld) : (s.hit b q c r).trip = s.trip := rfl
@[simp] theorem State.boot_hit (s : State) (b : Nat) (q : Fld) (c : Nat) (r : Fld) : (s.hit b q c r).boot = s.boot := rfl
@[simp] theorem State.gate_hit (s : State) (b : Nat) (q : Fld) (c : Nat) (r : Fld) : (s.hit b q c r).gate = s.gate := rfl
@[simp] theorem State.regu_hit (s : State) (b : Nat) (q : Fld) (c : Nat) (r : Fld) : (s.hit b q c r).regu = s.regu := rfl
@[simp] theorem State.out_hit (s : State) (b : Nat) (q : Fld) (c : Nat) (r : Fld) : (s.hit b q c r).out = s.out := rfl
@[simp] theorem State.cur_hit (s : State) (b : Nat) (q : Fld) (c : Nat) (r : Fld) : (s.hit b q c r).cur = s.cur := rfl
@[simp] theorem State.sf_hit (s : State) (b : Nat) (q : Fld) (c : Nat) (r : Fld) : (s.hit b q c r).sf = s.sf := rfl
@[simp] theorem State.can_hit (s : State) (b : Nat) (q : Fld) (c : Nat) (r : Fld) : (s.hit b q c r).can = s.can := rfl
@[simp] theorem State.eth_hit (s : State) (b : Nat) (q : Fld) (c : Nat) (r : Fld) : (s.hit b q c r).eth = s.eth := rfl
@[simp] theorem State.sv_hit (s : State) (b : Nat) (q : Fld) (c : Nat) (r : Fld) : (s.hit b q c r).sv = s.sv := rfl
@[simp] theorem State.corr_hit (s : State) (b : Nat) (q : Fld) (c : Nat) (r : Fld) : (s.hit b q c r).corr = s.corr := rfl
@[simp] theorem State.est_hit (s : State) (b : Nat) (q : Fld) (c : Nat) (r : Fld) : (s.hit b q c r).est = s.est := rfl
@[simp] theorem State.byte_hit (s : State) (b : Nat) (q : Fld) (c : Nat) (r : Fld) (a : Nat) : (s.hit b q c r).byte a = s.byte a := rfl
@[simp] theorem State.grain_hit (s : State) (b : Nat) (q : Fld) (c : Nat) (r : Fld) (g : Nat) : (s.hit b q c r).grain g = s.grain g := rfl
@[simp] theorem State.node_hit (s : State) (b : Nat) (q : Fld) (c : Nat) (r : Fld) (n : Nat) : (s.hit b q c r).node n = s.node n := rfl
@[simp] theorem State.eng_hit (s : State) (b : Nat) (q : Fld) (c : Nat) (r : Fld) (n : Nat) : (s.hit b q c r).eng n = s.eng n := rfl
@[simp] theorem State.pos_hit (s : State) (b : Nat) (q : Fld) (c : Nat) (r : Fld) (x y : Nat) : (s.hit b q c r).pos x y = s.pos x y := rfl
@[simp] theorem State.ns_hit (s : State) (b : Nat) (q : Fld) (c : Nat) (r : Fld) : (s.hit b q c r).ns = s.ns := rfl

/-! ## `bump` -/

@[simp] theorem State.pending_bump (s : State) (c : Nat) (r : Fld) : (s.bump c r).pending = s.pending := rfl
@[simp] theorem State.now_bump (s : State) (c : Nat) (r : Fld) : (s.bump c r).now = s.now := rfl
@[simp] theorem State.fresh_bump (s : State) (c : Nat) (r : Fld) : (s.bump c r).fresh = s.fresh := rfl
@[simp] theorem State.mem_bump (s : State) (c : Nat) (r : Fld) : (s.bump c r).mem = s.mem := rfl
@[simp] theorem State.fab_bump (s : State) (c : Nat) (r : Fld) : (s.bump c r).fab = s.fab := rfl
@[simp] theorem State.grains_bump (s : State) (c : Nat) (r : Fld) : (s.bump c r).grains = s.grains := rfl
@[simp] theorem State.led_bump (s : State) (c : Nat) (r : Fld) : (s.bump c r).led = s.led := rfl
@[simp] theorem State.lnk_bump (s : State) (c : Nat) (r : Fld) : (s.bump c r).lnk = s.lnk := rfl
@[simp] theorem State.swp_bump (s : State) (c : Nat) (r : Fld) : (s.bump c r).swp = s.swp := rfl
@[simp] theorem State.trip_bump (s : State) (c : Nat) (r : Fld) : (s.bump c r).trip = s.trip := rfl
@[simp] theorem State.boot_bump (s : State) (c : Nat) (r : Fld) : (s.bump c r).boot = s.boot := rfl
@[simp] theorem State.gate_bump (s : State) (c : Nat) (r : Fld) : (s.bump c r).gate = s.gate := rfl
@[simp] theorem State.regu_bump (s : State) (c : Nat) (r : Fld) : (s.bump c r).regu = s.regu := rfl
@[simp] theorem State.out_bump (s : State) (c : Nat) (r : Fld) : (s.bump c r).out = s.out := rfl
@[simp] theorem State.cur_bump (s : State) (c : Nat) (r : Fld) : (s.bump c r).cur = s.cur := rfl
@[simp] theorem State.sf_bump (s : State) (c : Nat) (r : Fld) : (s.bump c r).sf = s.sf := rfl
@[simp] theorem State.can_bump (s : State) (c : Nat) (r : Fld) : (s.bump c r).can = s.can := rfl
@[simp] theorem State.eth_bump (s : State) (c : Nat) (r : Fld) : (s.bump c r).eth = s.eth := rfl
@[simp] theorem State.sv_bump (s : State) (c : Nat) (r : Fld) : (s.bump c r).sv = s.sv := rfl
@[simp] theorem State.corr_bump (s : State) (c : Nat) (r : Fld) : (s.bump c r).corr = s.corr := rfl
@[simp] theorem State.est_bump (s : State) (c : Nat) (r : Fld) : (s.bump c r).est = s.est := rfl
@[simp] theorem State.byte_bump (s : State) (c : Nat) (r : Fld) (a : Nat) : (s.bump c r).byte a = s.byte a := rfl
@[simp] theorem State.grain_bump (s : State) (c : Nat) (r : Fld) (g : Nat) : (s.bump c r).grain g = s.grain g := rfl
@[simp] theorem State.node_bump (s : State) (c : Nat) (r : Fld) (n : Nat) : (s.bump c r).node n = s.node n := rfl
@[simp] theorem State.eng_bump (s : State) (c : Nat) (r : Fld) (n : Nat) : (s.bump c r).eng n = s.eng n := rfl
@[simp] theorem State.pos_bump (s : State) (c : Nat) (r : Fld) (x y : Nat) : (s.bump c r).pos x y = s.pos x y := rfl
@[simp] theorem State.ns_bump (s : State) (c : Nat) (r : Fld) : (s.bump c r).ns = s.ns := rfl

/-! ## `setByte` -/

@[simp] theorem State.pending_setByte (s : State) (b : Nat) (v : Byte) : (s.setByte b v).pending = s.pending := rfl
@[simp] theorem State.now_setByte (s : State) (b : Nat) (v : Byte) : (s.setByte b v).now = s.now := rfl
@[simp] theorem State.fresh_setByte (s : State) (b : Nat) (v : Byte) : (s.setByte b v).fresh = s.fresh := rfl
@[simp] theorem State.regs_setByte (s : State) (b : Nat) (v : Byte) : (s.setByte b v).regs = s.regs := rfl
@[simp] theorem State.grains_setByte (s : State) (b : Nat) (v : Byte) : (s.setByte b v).grains = s.grains := rfl
@[simp] theorem State.led_setByte (s : State) (b : Nat) (v : Byte) : (s.setByte b v).led = s.led := rfl
@[simp] theorem State.lnk_setByte (s : State) (b : Nat) (v : Byte) : (s.setByte b v).lnk = s.lnk := rfl
@[simp] theorem State.swp_setByte (s : State) (b : Nat) (v : Byte) : (s.setByte b v).swp = s.swp := rfl
@[simp] theorem State.trip_setByte (s : State) (b : Nat) (v : Byte) : (s.setByte b v).trip = s.trip := rfl
@[simp] theorem State.boot_setByte (s : State) (b : Nat) (v : Byte) : (s.setByte b v).boot = s.boot := rfl
@[simp] theorem State.gate_setByte (s : State) (b : Nat) (v : Byte) : (s.setByte b v).gate = s.gate := rfl
@[simp] theorem State.regu_setByte (s : State) (b : Nat) (v : Byte) : (s.setByte b v).regu = s.regu := rfl
@[simp] theorem State.out_setByte (s : State) (b : Nat) (v : Byte) : (s.setByte b v).out = s.out := rfl
@[simp] theorem State.cur_setByte (s : State) (b : Nat) (v : Byte) : (s.setByte b v).cur = s.cur := rfl
@[simp] theorem State.sf_setByte (s : State) (b : Nat) (v : Byte) : (s.setByte b v).sf = s.sf := rfl
@[simp] theorem State.can_setByte (s : State) (b : Nat) (v : Byte) : (s.setByte b v).can = s.can := rfl
@[simp] theorem State.eth_setByte (s : State) (b : Nat) (v : Byte) : (s.setByte b v).eth = s.eth := rfl
@[simp] theorem State.sv_setByte (s : State) (b : Nat) (v : Byte) : (s.setByte b v).sv = s.sv := rfl
@[simp] theorem State.corr_setByte (s : State) (b : Nat) (v : Byte) : (s.setByte b v).corr = s.corr := rfl
@[simp] theorem State.est_setByte (s : State) (b : Nat) (v : Byte) : (s.setByte b v).est = s.est := rfl
@[simp] theorem State.reg_setByte (s : State) (b : Nat) (v : Byte) (a : Nat) : (s.setByte b v).reg a = s.reg a := rfl
@[simp] theorem State.rd_setByte (s : State) (b : Nat) (v : Byte) (a : Nat) (f : Fld) : (s.setByte b v).rd a f = s.rd a f := rfl
@[simp] theorem State.rdB_setByte (s : State) (b : Nat) (v : Byte) (a : Nat) (f : Fld) : (s.setByte b v).rdB a f = s.rdB a f := rfl
@[simp] theorem State.grain_setByte (s : State) (b : Nat) (v : Byte) (g : Nat) : (s.setByte b v).grain g = s.grain g := rfl
@[simp] theorem State.node_setByte (s : State) (b : Nat) (v : Byte) (n : Nat) : (s.setByte b v).node n = s.node n := rfl
@[simp] theorem State.eng_setByte (s : State) (b : Nat) (v : Byte) (n : Nat) : (s.setByte b v).eng n = s.eng n := rfl
@[simp] theorem State.pos_setByte (s : State) (b : Nat) (v : Byte) (x y : Nat) : (s.setByte b v).pos x y = s.pos x y := rfl
@[simp] theorem State.ns_setByte (s : State) (b : Nat) (v : Byte) : (s.setByte b v).ns = s.ns := rfl

/-! ## `setGrain` -/

@[simp] theorem State.pending_setGrain (s : State) (src : Nat) (m : Grain) : (s.setGrain src m).pending = s.pending := rfl
@[simp] theorem State.now_setGrain (s : State) (src : Nat) (m : Grain) : (s.setGrain src m).now = s.now := rfl
@[simp] theorem State.fresh_setGrain (s : State) (src : Nat) (m : Grain) : (s.setGrain src m).fresh = s.fresh := rfl
@[simp] theorem State.regs_setGrain (s : State) (src : Nat) (m : Grain) : (s.setGrain src m).regs = s.regs := rfl
@[simp] theorem State.mem_setGrain (s : State) (src : Nat) (m : Grain) : (s.setGrain src m).mem = s.mem := rfl
@[simp] theorem State.fab_setGrain (s : State) (src : Nat) (m : Grain) : (s.setGrain src m).fab = s.fab := rfl
@[simp] theorem State.led_setGrain (s : State) (src : Nat) (m : Grain) : (s.setGrain src m).led = s.led := rfl
@[simp] theorem State.lnk_setGrain (s : State) (src : Nat) (m : Grain) : (s.setGrain src m).lnk = s.lnk := rfl
@[simp] theorem State.swp_setGrain (s : State) (src : Nat) (m : Grain) : (s.setGrain src m).swp = s.swp := rfl
@[simp] theorem State.trip_setGrain (s : State) (src : Nat) (m : Grain) : (s.setGrain src m).trip = s.trip := rfl
@[simp] theorem State.boot_setGrain (s : State) (src : Nat) (m : Grain) : (s.setGrain src m).boot = s.boot := rfl
@[simp] theorem State.gate_setGrain (s : State) (src : Nat) (m : Grain) : (s.setGrain src m).gate = s.gate := rfl
@[simp] theorem State.regu_setGrain (s : State) (src : Nat) (m : Grain) : (s.setGrain src m).regu = s.regu := rfl
@[simp] theorem State.out_setGrain (s : State) (src : Nat) (m : Grain) : (s.setGrain src m).out = s.out := rfl
@[simp] theorem State.cur_setGrain (s : State) (src : Nat) (m : Grain) : (s.setGrain src m).cur = s.cur := rfl
@[simp] theorem State.sf_setGrain (s : State) (src : Nat) (m : Grain) : (s.setGrain src m).sf = s.sf := rfl
@[simp] theorem State.can_setGrain (s : State) (src : Nat) (m : Grain) : (s.setGrain src m).can = s.can := rfl
@[simp] theorem State.eth_setGrain (s : State) (src : Nat) (m : Grain) : (s.setGrain src m).eth = s.eth := rfl
@[simp] theorem State.sv_setGrain (s : State) (src : Nat) (m : Grain) : (s.setGrain src m).sv = s.sv := rfl
@[simp] theorem State.corr_setGrain (s : State) (src : Nat) (m : Grain) : (s.setGrain src m).corr = s.corr := rfl
@[simp] theorem State.est_setGrain (s : State) (src : Nat) (m : Grain) : (s.setGrain src m).est = s.est := rfl
@[simp] theorem State.reg_setGrain (s : State) (src : Nat) (m : Grain) (a : Nat) : (s.setGrain src m).reg a = s.reg a := rfl
@[simp] theorem State.rd_setGrain (s : State) (src : Nat) (m : Grain) (a : Nat) (f : Fld) : (s.setGrain src m).rd a f = s.rd a f := rfl
@[simp] theorem State.rdB_setGrain (s : State) (src : Nat) (m : Grain) (a : Nat) (f : Fld) : (s.setGrain src m).rdB a f = s.rdB a f := rfl
@[simp] theorem State.byte_setGrain (s : State) (src : Nat) (m : Grain) (a : Nat) : (s.setGrain src m).byte a = s.byte a := rfl
@[simp] theorem State.node_setGrain (s : State) (src : Nat) (m : Grain) (n : Nat) : (s.setGrain src m).node n = s.node n := rfl
@[simp] theorem State.eng_setGrain (s : State) (src : Nat) (m : Grain) (n : Nat) : (s.setGrain src m).eng n = s.eng n := rfl
@[simp] theorem State.pos_setGrain (s : State) (src : Nat) (m : Grain) (x y : Nat) : (s.setGrain src m).pos x y = s.pos x y := rfl
@[simp] theorem State.ns_setGrain (s : State) (src : Nat) (m : Grain) : (s.setGrain src m).ns = s.ns := rfl

/-! ## `updGrain` -/

@[simp] theorem State.pending_updGrain (s : State) (src : Nat) (m : Grain → Grain) : (s.updGrain src m).pending = s.pending := rfl
@[simp] theorem State.now_updGrain (s : State) (src : Nat) (m : Grain → Grain) : (s.updGrain src m).now = s.now := rfl
@[simp] theorem State.fresh_updGrain (s : State) (src : Nat) (m : Grain → Grain) : (s.updGrain src m).fresh = s.fresh := rfl
@[simp] theorem State.regs_updGrain (s : State) (src : Nat) (m : Grain → Grain) : (s.updGrain src m).regs = s.regs := rfl
@[simp] theorem State.mem_updGrain (s : State) (src : Nat) (m : Grain → Grain) : (s.updGrain src m).mem = s.mem := rfl
@[simp] theorem State.fab_updGrain (s : State) (src : Nat) (m : Grain → Grain) : (s.updGrain src m).fab = s.fab := rfl
@[simp] theorem State.led_updGrain (s : State) (src : Nat) (m : Grain → Grain) : (s.updGrain src m).led = s.led := rfl
@[simp] theorem State.lnk_updGrain (s : State) (src : Nat) (m : Grain → Grain) : (s.updGrain src m).lnk = s.lnk := rfl
@[simp] theorem State.swp_updGrain (s : State) (src : Nat) (m : Grain → Grain) : (s.updGrain src m).swp = s.swp := rfl
@[simp] theorem State.trip_updGrain (s : State) (src : Nat) (m : Grain → Grain) : (s.updGrain src m).trip = s.trip := rfl
@[simp] theorem State.boot_updGrain (s : State) (src : Nat) (m : Grain → Grain) : (s.updGrain src m).boot = s.boot := rfl
@[simp] theorem State.gate_updGrain (s : State) (src : Nat) (m : Grain → Grain) : (s.updGrain src m).gate = s.gate := rfl
@[simp] theorem State.regu_updGrain (s : State) (src : Nat) (m : Grain → Grain) : (s.updGrain src m).regu = s.regu := rfl
@[simp] theorem State.out_updGrain (s : State) (src : Nat) (m : Grain → Grain) : (s.updGrain src m).out = s.out := rfl
@[simp] theorem State.cur_updGrain (s : State) (src : Nat) (m : Grain → Grain) : (s.updGrain src m).cur = s.cur := rfl
@[simp] theorem State.sf_updGrain (s : State) (src : Nat) (m : Grain → Grain) : (s.updGrain src m).sf = s.sf := rfl
@[simp] theorem State.can_updGrain (s : State) (src : Nat) (m : Grain → Grain) : (s.updGrain src m).can = s.can := rfl
@[simp] theorem State.eth_updGrain (s : State) (src : Nat) (m : Grain → Grain) : (s.updGrain src m).eth = s.eth := rfl
@[simp] theorem State.sv_updGrain (s : State) (src : Nat) (m : Grain → Grain) : (s.updGrain src m).sv = s.sv := rfl
@[simp] theorem State.corr_updGrain (s : State) (src : Nat) (m : Grain → Grain) : (s.updGrain src m).corr = s.corr := rfl
@[simp] theorem State.est_updGrain (s : State) (src : Nat) (m : Grain → Grain) : (s.updGrain src m).est = s.est := rfl
@[simp] theorem State.reg_updGrain (s : State) (src : Nat) (m : Grain → Grain) (a : Nat) : (s.updGrain src m).reg a = s.reg a := rfl
@[simp] theorem State.rd_updGrain (s : State) (src : Nat) (m : Grain → Grain) (a : Nat) (f : Fld) : (s.updGrain src m).rd a f = s.rd a f := rfl
@[simp] theorem State.rdB_updGrain (s : State) (src : Nat) (m : Grain → Grain) (a : Nat) (f : Fld) : (s.updGrain src m).rdB a f = s.rdB a f := rfl
@[simp] theorem State.byte_updGrain (s : State) (src : Nat) (m : Grain → Grain) (a : Nat) : (s.updGrain src m).byte a = s.byte a := rfl
@[simp] theorem State.node_updGrain (s : State) (src : Nat) (m : Grain → Grain) (n : Nat) : (s.updGrain src m).node n = s.node n := rfl
@[simp] theorem State.eng_updGrain (s : State) (src : Nat) (m : Grain → Grain) (n : Nat) : (s.updGrain src m).eng n = s.eng n := rfl
@[simp] theorem State.pos_updGrain (s : State) (src : Nat) (m : Grain → Grain) (x y : Nat) : (s.updGrain src m).pos x y = s.pos x y := rfl
@[simp] theorem State.ns_updGrain (s : State) (src : Nat) (m : Grain → Grain) : (s.updGrain src m).ns = s.ns := rfl

/-! ## `setG` -/

@[simp] theorem State.pending_setG (s : State) (src i : Nat) (w : Word) : (s.setG src i w).pending = s.pending := by
  unfold State.setG
  split <;> rfl
@[simp] theorem State.now_setG (s : State) (src i : Nat) (w : Word) : (s.setG src i w).now = s.now := by
  unfold State.setG
  split <;> rfl
@[simp] theorem State.fresh_setG (s : State) (src i : Nat) (w : Word) : (s.setG src i w).fresh = s.fresh := by
  unfold State.setG
  split <;> rfl
@[simp] theorem State.regs_setG (s : State) (src i : Nat) (w : Word) : (s.setG src i w).regs = s.regs := by
  unfold State.setG
  split <;> rfl
@[simp] theorem State.mem_setG (s : State) (src i : Nat) (w : Word) : (s.setG src i w).mem = s.mem := by
  unfold State.setG
  split <;> rfl
@[simp] theorem State.fab_setG (s : State) (src i : Nat) (w : Word) : (s.setG src i w).fab = s.fab := by
  unfold State.setG
  split <;> rfl
@[simp] theorem State.led_setG (s : State) (src i : Nat) (w : Word) : (s.setG src i w).led = s.led := by
  unfold State.setG
  split <;> rfl
@[simp] theorem State.lnk_setG (s : State) (src i : Nat) (w : Word) : (s.setG src i w).lnk = s.lnk := by
  unfold State.setG
  split <;> rfl
@[simp] theorem State.swp_setG (s : State) (src i : Nat) (w : Word) : (s.setG src i w).swp = s.swp := by
  unfold State.setG
  split <;> rfl
@[simp] theorem State.trip_setG (s : State) (src i : Nat) (w : Word) : (s.setG src i w).trip = s.trip := by
  unfold State.setG
  split <;> rfl
@[simp] theorem State.boot_setG (s : State) (src i : Nat) (w : Word) : (s.setG src i w).boot = s.boot := by
  unfold State.setG
  split <;> rfl
@[simp] theorem State.gate_setG (s : State) (src i : Nat) (w : Word) : (s.setG src i w).gate = s.gate := by
  unfold State.setG
  split <;> rfl
@[simp] theorem State.regu_setG (s : State) (src i : Nat) (w : Word) : (s.setG src i w).regu = s.regu := by
  unfold State.setG
  split <;> rfl
@[simp] theorem State.out_setG (s : State) (src i : Nat) (w : Word) : (s.setG src i w).out = s.out := by
  unfold State.setG
  split <;> rfl
@[simp] theorem State.cur_setG (s : State) (src i : Nat) (w : Word) : (s.setG src i w).cur = s.cur := by
  unfold State.setG
  split <;> rfl
@[simp] theorem State.sf_setG (s : State) (src i : Nat) (w : Word) : (s.setG src i w).sf = s.sf := by
  unfold State.setG
  split <;> rfl
@[simp] theorem State.can_setG (s : State) (src i : Nat) (w : Word) : (s.setG src i w).can = s.can := by
  unfold State.setG
  split <;> rfl
@[simp] theorem State.eth_setG (s : State) (src i : Nat) (w : Word) : (s.setG src i w).eth = s.eth := by
  unfold State.setG
  split <;> rfl
@[simp] theorem State.sv_setG (s : State) (src i : Nat) (w : Word) : (s.setG src i w).sv = s.sv := by
  unfold State.setG
  split <;> rfl
@[simp] theorem State.corr_setG (s : State) (src i : Nat) (w : Word) : (s.setG src i w).corr = s.corr := by
  unfold State.setG
  split <;> rfl
@[simp] theorem State.est_setG (s : State) (src i : Nat) (w : Word) : (s.setG src i w).est = s.est := by
  unfold State.setG
  split <;> rfl
@[simp] theorem State.reg_setG (s : State) (src i : Nat) (w : Word) (a : Nat) : (s.setG src i w).reg a = s.reg a := by
  unfold State.reg
  rw [State.regs_setG]
@[simp] theorem State.rd_setG (s : State) (src i : Nat) (w : Word) (a : Nat) (f : Fld) : (s.setG src i w).rd a f = s.rd a f := by
  unfold State.rd State.reg
  rw [State.regs_setG]
@[simp] theorem State.rdB_setG (s : State) (src i : Nat) (w : Word) (a : Nat) (f : Fld) : (s.setG src i w).rdB a f = s.rdB a f := by
  unfold State.rdB State.rd State.reg
  rw [State.regs_setG]
@[simp] theorem State.byte_setG (s : State) (src i : Nat) (w : Word) (a : Nat) : (s.setG src i w).byte a = s.byte a := by
  unfold State.byte
  rw [State.mem_setG]
@[simp] theorem State.node_setG (s : State) (src i : Nat) (w : Word) (n : Nat) : (s.setG src i w).node n = s.node n := by
  unfold State.node
  rw [State.lnk_setG]
@[simp] theorem State.eng_setG (s : State) (src i : Nat) (w : Word) (n : Nat) : (s.setG src i w).eng n = s.eng n := by
  unfold State.eng
  rw [State.lnk_setG]
@[simp] theorem State.pos_setG (s : State) (src i : Nat) (w : Word) (x y : Nat) : (s.setG src i w).pos x y = s.pos x y := by
  unfold State.pos
  rw [State.lnk_setG]
@[simp] theorem State.ns_setG (s : State) (src i : Nat) (w : Word) : (s.setG src i w).ns = s.ns := by
  unfold State.ns
  rw [State.now_setG]

/-! ## `setF` -/

@[simp] theorem State.pending_setF (s : State) (src i : Nat) (d : Dword) : (s.setF src i d).pending = s.pending := rfl
@[simp] theorem State.now_setF (s : State) (src i : Nat) (d : Dword) : (s.setF src i d).now = s.now := rfl
@[simp] theorem State.fresh_setF (s : State) (src i : Nat) (d : Dword) : (s.setF src i d).fresh = s.fresh := rfl
@[simp] theorem State.regs_setF (s : State) (src i : Nat) (d : Dword) : (s.setF src i d).regs = s.regs := rfl
@[simp] theorem State.mem_setF (s : State) (src i : Nat) (d : Dword) : (s.setF src i d).mem = s.mem := rfl
@[simp] theorem State.fab_setF (s : State) (src i : Nat) (d : Dword) : (s.setF src i d).fab = s.fab := rfl
@[simp] theorem State.led_setF (s : State) (src i : Nat) (d : Dword) : (s.setF src i d).led = s.led := rfl
@[simp] theorem State.lnk_setF (s : State) (src i : Nat) (d : Dword) : (s.setF src i d).lnk = s.lnk := rfl
@[simp] theorem State.swp_setF (s : State) (src i : Nat) (d : Dword) : (s.setF src i d).swp = s.swp := rfl
@[simp] theorem State.trip_setF (s : State) (src i : Nat) (d : Dword) : (s.setF src i d).trip = s.trip := rfl
@[simp] theorem State.boot_setF (s : State) (src i : Nat) (d : Dword) : (s.setF src i d).boot = s.boot := rfl
@[simp] theorem State.gate_setF (s : State) (src i : Nat) (d : Dword) : (s.setF src i d).gate = s.gate := rfl
@[simp] theorem State.regu_setF (s : State) (src i : Nat) (d : Dword) : (s.setF src i d).regu = s.regu := rfl
@[simp] theorem State.out_setF (s : State) (src i : Nat) (d : Dword) : (s.setF src i d).out = s.out := rfl
@[simp] theorem State.cur_setF (s : State) (src i : Nat) (d : Dword) : (s.setF src i d).cur = s.cur := rfl
@[simp] theorem State.sf_setF (s : State) (src i : Nat) (d : Dword) : (s.setF src i d).sf = s.sf := rfl
@[simp] theorem State.can_setF (s : State) (src i : Nat) (d : Dword) : (s.setF src i d).can = s.can := rfl
@[simp] theorem State.eth_setF (s : State) (src i : Nat) (d : Dword) : (s.setF src i d).eth = s.eth := rfl
@[simp] theorem State.sv_setF (s : State) (src i : Nat) (d : Dword) : (s.setF src i d).sv = s.sv := rfl
@[simp] theorem State.corr_setF (s : State) (src i : Nat) (d : Dword) : (s.setF src i d).corr = s.corr := rfl
@[simp] theorem State.est_setF (s : State) (src i : Nat) (d : Dword) : (s.setF src i d).est = s.est := rfl
@[simp] theorem State.reg_setF (s : State) (src i : Nat) (d : Dword) (a : Nat) : (s.setF src i d).reg a = s.reg a := rfl
@[simp] theorem State.rd_setF (s : State) (src i : Nat) (d : Dword) (a : Nat) (f : Fld) : (s.setF src i d).rd a f = s.rd a f := rfl
@[simp] theorem State.rdB_setF (s : State) (src i : Nat) (d : Dword) (a : Nat) (f : Fld) : (s.setF src i d).rdB a f = s.rdB a f := rfl
@[simp] theorem State.byte_setF (s : State) (src i : Nat) (d : Dword) (a : Nat) : (s.setF src i d).byte a = s.byte a := rfl
@[simp] theorem State.node_setF (s : State) (src i : Nat) (d : Dword) (n : Nat) : (s.setF src i d).node n = s.node n := rfl
@[simp] theorem State.eng_setF (s : State) (src i : Nat) (d : Dword) (n : Nat) : (s.setF src i d).eng n = s.eng n := rfl
@[simp] theorem State.pos_setF (s : State) (src i : Nat) (d : Dword) (x y : Nat) : (s.setF src i d).pos x y = s.pos x y := rfl
@[simp] theorem State.ns_setF (s : State) (src i : Nat) (d : Dword) : (s.setF src i d).ns = s.ns := rfl

/-! ## `setPc` -/

@[simp] theorem State.pending_setPc (s : State) (src b : Nat) : (s.setPc src b).pending = s.pending := rfl
@[simp] theorem State.now_setPc (s : State) (src b : Nat) : (s.setPc src b).now = s.now := rfl
@[simp] theorem State.fresh_setPc (s : State) (src b : Nat) : (s.setPc src b).fresh = s.fresh := rfl
@[simp] theorem State.regs_setPc (s : State) (src b : Nat) : (s.setPc src b).regs = s.regs := rfl
@[simp] theorem State.mem_setPc (s : State) (src b : Nat) : (s.setPc src b).mem = s.mem := rfl
@[simp] theorem State.fab_setPc (s : State) (src b : Nat) : (s.setPc src b).fab = s.fab := rfl
@[simp] theorem State.led_setPc (s : State) (src b : Nat) : (s.setPc src b).led = s.led := rfl
@[simp] theorem State.lnk_setPc (s : State) (src b : Nat) : (s.setPc src b).lnk = s.lnk := rfl
@[simp] theorem State.swp_setPc (s : State) (src b : Nat) : (s.setPc src b).swp = s.swp := rfl
@[simp] theorem State.trip_setPc (s : State) (src b : Nat) : (s.setPc src b).trip = s.trip := rfl
@[simp] theorem State.boot_setPc (s : State) (src b : Nat) : (s.setPc src b).boot = s.boot := rfl
@[simp] theorem State.gate_setPc (s : State) (src b : Nat) : (s.setPc src b).gate = s.gate := rfl
@[simp] theorem State.regu_setPc (s : State) (src b : Nat) : (s.setPc src b).regu = s.regu := rfl
@[simp] theorem State.out_setPc (s : State) (src b : Nat) : (s.setPc src b).out = s.out := rfl
@[simp] theorem State.cur_setPc (s : State) (src b : Nat) : (s.setPc src b).cur = s.cur := rfl
@[simp] theorem State.sf_setPc (s : State) (src b : Nat) : (s.setPc src b).sf = s.sf := rfl
@[simp] theorem State.can_setPc (s : State) (src b : Nat) : (s.setPc src b).can = s.can := rfl
@[simp] theorem State.eth_setPc (s : State) (src b : Nat) : (s.setPc src b).eth = s.eth := rfl
@[simp] theorem State.sv_setPc (s : State) (src b : Nat) : (s.setPc src b).sv = s.sv := rfl
@[simp] theorem State.corr_setPc (s : State) (src b : Nat) : (s.setPc src b).corr = s.corr := rfl
@[simp] theorem State.est_setPc (s : State) (src b : Nat) : (s.setPc src b).est = s.est := rfl
@[simp] theorem State.reg_setPc (s : State) (src b : Nat) (a : Nat) : (s.setPc src b).reg a = s.reg a := rfl
@[simp] theorem State.rd_setPc (s : State) (src b : Nat) (a : Nat) (f : Fld) : (s.setPc src b).rd a f = s.rd a f := rfl
@[simp] theorem State.rdB_setPc (s : State) (src b : Nat) (a : Nat) (f : Fld) : (s.setPc src b).rdB a f = s.rdB a f := rfl
@[simp] theorem State.byte_setPc (s : State) (src b : Nat) (a : Nat) : (s.setPc src b).byte a = s.byte a := rfl
@[simp] theorem State.node_setPc (s : State) (src b : Nat) (n : Nat) : (s.setPc src b).node n = s.node n := rfl
@[simp] theorem State.eng_setPc (s : State) (src b : Nat) (n : Nat) : (s.setPc src b).eng n = s.eng n := rfl
@[simp] theorem State.pos_setPc (s : State) (src b : Nat) (x y : Nat) : (s.setPc src b).pos x y = s.pos x y := rfl
@[simp] theorem State.ns_setPc (s : State) (src b : Nat) : (s.setPc src b).ns = s.ns := rfl

/-! ## `inboxPush` -/

@[simp] theorem State.pending_inboxPush (s : State) (src : Nat) (d : Desc) : (s.inboxPush src d).pending = s.pending := rfl
@[simp] theorem State.now_inboxPush (s : State) (src : Nat) (d : Desc) : (s.inboxPush src d).now = s.now := rfl
@[simp] theorem State.fresh_inboxPush (s : State) (src : Nat) (d : Desc) : (s.inboxPush src d).fresh = s.fresh := rfl
@[simp] theorem State.regs_inboxPush (s : State) (src : Nat) (d : Desc) : (s.inboxPush src d).regs = s.regs := rfl
@[simp] theorem State.mem_inboxPush (s : State) (src : Nat) (d : Desc) : (s.inboxPush src d).mem = s.mem := rfl
@[simp] theorem State.fab_inboxPush (s : State) (src : Nat) (d : Desc) : (s.inboxPush src d).fab = s.fab := rfl
@[simp] theorem State.led_inboxPush (s : State) (src : Nat) (d : Desc) : (s.inboxPush src d).led = s.led := rfl
@[simp] theorem State.lnk_inboxPush (s : State) (src : Nat) (d : Desc) : (s.inboxPush src d).lnk = s.lnk := rfl
@[simp] theorem State.swp_inboxPush (s : State) (src : Nat) (d : Desc) : (s.inboxPush src d).swp = s.swp := rfl
@[simp] theorem State.trip_inboxPush (s : State) (src : Nat) (d : Desc) : (s.inboxPush src d).trip = s.trip := rfl
@[simp] theorem State.boot_inboxPush (s : State) (src : Nat) (d : Desc) : (s.inboxPush src d).boot = s.boot := rfl
@[simp] theorem State.gate_inboxPush (s : State) (src : Nat) (d : Desc) : (s.inboxPush src d).gate = s.gate := rfl
@[simp] theorem State.regu_inboxPush (s : State) (src : Nat) (d : Desc) : (s.inboxPush src d).regu = s.regu := rfl
@[simp] theorem State.out_inboxPush (s : State) (src : Nat) (d : Desc) : (s.inboxPush src d).out = s.out := rfl
@[simp] theorem State.cur_inboxPush (s : State) (src : Nat) (d : Desc) : (s.inboxPush src d).cur = s.cur := rfl
@[simp] theorem State.sf_inboxPush (s : State) (src : Nat) (d : Desc) : (s.inboxPush src d).sf = s.sf := rfl
@[simp] theorem State.can_inboxPush (s : State) (src : Nat) (d : Desc) : (s.inboxPush src d).can = s.can := rfl
@[simp] theorem State.eth_inboxPush (s : State) (src : Nat) (d : Desc) : (s.inboxPush src d).eth = s.eth := rfl
@[simp] theorem State.sv_inboxPush (s : State) (src : Nat) (d : Desc) : (s.inboxPush src d).sv = s.sv := rfl
@[simp] theorem State.corr_inboxPush (s : State) (src : Nat) (d : Desc) : (s.inboxPush src d).corr = s.corr := rfl
@[simp] theorem State.est_inboxPush (s : State) (src : Nat) (d : Desc) : (s.inboxPush src d).est = s.est := rfl
@[simp] theorem State.reg_inboxPush (s : State) (src : Nat) (d : Desc) (a : Nat) : (s.inboxPush src d).reg a = s.reg a := rfl
@[simp] theorem State.rd_inboxPush (s : State) (src : Nat) (d : Desc) (a : Nat) (f : Fld) : (s.inboxPush src d).rd a f = s.rd a f := rfl
@[simp] theorem State.rdB_inboxPush (s : State) (src : Nat) (d : Desc) (a : Nat) (f : Fld) : (s.inboxPush src d).rdB a f = s.rdB a f := rfl
@[simp] theorem State.byte_inboxPush (s : State) (src : Nat) (d : Desc) (a : Nat) : (s.inboxPush src d).byte a = s.byte a := rfl
@[simp] theorem State.node_inboxPush (s : State) (src : Nat) (d : Desc) (n : Nat) : (s.inboxPush src d).node n = s.node n := rfl
@[simp] theorem State.eng_inboxPush (s : State) (src : Nat) (d : Desc) (n : Nat) : (s.inboxPush src d).eng n = s.eng n := rfl
@[simp] theorem State.pos_inboxPush (s : State) (src : Nat) (d : Desc) (x y : Nat) : (s.inboxPush src d).pos x y = s.pos x y := rfl
@[simp] theorem State.ns_inboxPush (s : State) (src : Nat) (d : Desc) : (s.inboxPush src d).ns = s.ns := rfl

/-! ## `setPoison` -/

@[simp] theorem State.pending_setPoison (s : State) (b : Nat) (v : Bool) : (s.setPoison b v).pending = s.pending := rfl
@[simp] theorem State.now_setPoison (s : State) (b : Nat) (v : Bool) : (s.setPoison b v).now = s.now := rfl
@[simp] theorem State.fresh_setPoison (s : State) (b : Nat) (v : Bool) : (s.setPoison b v).fresh = s.fresh := rfl
@[simp] theorem State.regs_setPoison (s : State) (b : Nat) (v : Bool) : (s.setPoison b v).regs = s.regs := rfl
@[simp] theorem State.mem_setPoison (s : State) (b : Nat) (v : Bool) : (s.setPoison b v).mem = s.mem := rfl
@[simp] theorem State.grains_setPoison (s : State) (b : Nat) (v : Bool) : (s.setPoison b v).grains = s.grains := rfl
@[simp] theorem State.led_setPoison (s : State) (b : Nat) (v : Bool) : (s.setPoison b v).led = s.led := rfl
@[simp] theorem State.lnk_setPoison (s : State) (b : Nat) (v : Bool) : (s.setPoison b v).lnk = s.lnk := rfl
@[simp] theorem State.swp_setPoison (s : State) (b : Nat) (v : Bool) : (s.setPoison b v).swp = s.swp := rfl
@[simp] theorem State.trip_setPoison (s : State) (b : Nat) (v : Bool) : (s.setPoison b v).trip = s.trip := rfl
@[simp] theorem State.boot_setPoison (s : State) (b : Nat) (v : Bool) : (s.setPoison b v).boot = s.boot := rfl
@[simp] theorem State.gate_setPoison (s : State) (b : Nat) (v : Bool) : (s.setPoison b v).gate = s.gate := rfl
@[simp] theorem State.regu_setPoison (s : State) (b : Nat) (v : Bool) : (s.setPoison b v).regu = s.regu := rfl
@[simp] theorem State.out_setPoison (s : State) (b : Nat) (v : Bool) : (s.setPoison b v).out = s.out := rfl
@[simp] theorem State.cur_setPoison (s : State) (b : Nat) (v : Bool) : (s.setPoison b v).cur = s.cur := rfl
@[simp] theorem State.sf_setPoison (s : State) (b : Nat) (v : Bool) : (s.setPoison b v).sf = s.sf := rfl
@[simp] theorem State.can_setPoison (s : State) (b : Nat) (v : Bool) : (s.setPoison b v).can = s.can := rfl
@[simp] theorem State.eth_setPoison (s : State) (b : Nat) (v : Bool) : (s.setPoison b v).eth = s.eth := rfl
@[simp] theorem State.sv_setPoison (s : State) (b : Nat) (v : Bool) : (s.setPoison b v).sv = s.sv := rfl
@[simp] theorem State.corr_setPoison (s : State) (b : Nat) (v : Bool) : (s.setPoison b v).corr = s.corr := rfl
@[simp] theorem State.est_setPoison (s : State) (b : Nat) (v : Bool) : (s.setPoison b v).est = s.est := rfl
@[simp] theorem State.reg_setPoison (s : State) (b : Nat) (v : Bool) (a : Nat) : (s.setPoison b v).reg a = s.reg a := rfl
@[simp] theorem State.rd_setPoison (s : State) (b : Nat) (v : Bool) (a : Nat) (f : Fld) : (s.setPoison b v).rd a f = s.rd a f := rfl
@[simp] theorem State.rdB_setPoison (s : State) (b : Nat) (v : Bool) (a : Nat) (f : Fld) : (s.setPoison b v).rdB a f = s.rdB a f := rfl
@[simp] theorem State.byte_setPoison (s : State) (b : Nat) (v : Bool) (a : Nat) : (s.setPoison b v).byte a = s.byte a := rfl
@[simp] theorem State.grain_setPoison (s : State) (b : Nat) (v : Bool) (g : Nat) : (s.setPoison b v).grain g = s.grain g := rfl
@[simp] theorem State.node_setPoison (s : State) (b : Nat) (v : Bool) (n : Nat) : (s.setPoison b v).node n = s.node n := rfl
@[simp] theorem State.eng_setPoison (s : State) (b : Nat) (v : Bool) (n : Nat) : (s.setPoison b v).eng n = s.eng n := rfl
@[simp] theorem State.pos_setPoison (s : State) (b : Nat) (v : Bool) (x y : Nat) : (s.setPoison b v).pos x y = s.pos x y := rfl
@[simp] theorem State.ns_setPoison (s : State) (b : Nat) (v : Bool) : (s.setPoison b v).ns = s.ns := rfl

/-! ## `raise` -/

@[simp] theorem State.pending_raise (s : State) (src code : Nat) (ws : List Nat) : (s.raise src code ws).pending = s.pending := by
  unfold State.raise
  dsimp only
  split <;> rfl
@[simp] theorem State.now_raise (s : State) (src code : Nat) (ws : List Nat) : (s.raise src code ws).now = s.now := by
  unfold State.raise
  dsimp only
  split <;> rfl
@[simp] theorem State.fresh_raise (s : State) (src code : Nat) (ws : List Nat) : (s.raise src code ws).fresh = s.fresh := by
  unfold State.raise
  dsimp only
  split <;> rfl
@[simp] theorem State.mem_raise (s : State) (src code : Nat) (ws : List Nat) : (s.raise src code ws).mem = s.mem := by
  unfold State.raise
  dsimp only
  split <;> rfl
@[simp] theorem State.fab_raise (s : State) (src code : Nat) (ws : List Nat) : (s.raise src code ws).fab = s.fab := by
  unfold State.raise
  dsimp only
  split <;> rfl
@[simp] theorem State.grains_raise (s : State) (src code : Nat) (ws : List Nat) : (s.raise src code ws).grains = s.grains := by
  unfold State.raise
  dsimp only
  split <;> rfl
@[simp] theorem State.lnk_raise (s : State) (src code : Nat) (ws : List Nat) : (s.raise src code ws).lnk = s.lnk := by
  unfold State.raise
  dsimp only
  split <;> rfl
@[simp] theorem State.swp_raise (s : State) (src code : Nat) (ws : List Nat) : (s.raise src code ws).swp = s.swp := by
  unfold State.raise
  dsimp only
  split <;> rfl
@[simp] theorem State.trip_raise (s : State) (src code : Nat) (ws : List Nat) : (s.raise src code ws).trip = s.trip := by
  unfold State.raise
  dsimp only
  split <;> rfl
@[simp] theorem State.boot_raise (s : State) (src code : Nat) (ws : List Nat) : (s.raise src code ws).boot = s.boot := by
  unfold State.raise
  dsimp only
  split <;> rfl
@[simp] theorem State.gate_raise (s : State) (src code : Nat) (ws : List Nat) : (s.raise src code ws).gate = s.gate := by
  unfold State.raise
  dsimp only
  split <;> rfl
@[simp] theorem State.regu_raise (s : State) (src code : Nat) (ws : List Nat) : (s.raise src code ws).regu = s.regu := by
  unfold State.raise
  dsimp only
  split <;> rfl
@[simp] theorem State.out_raise (s : State) (src code : Nat) (ws : List Nat) : (s.raise src code ws).out = s.out := by
  unfold State.raise
  dsimp only
  split <;> rfl
@[simp] theorem State.cur_raise (s : State) (src code : Nat) (ws : List Nat) : (s.raise src code ws).cur = s.cur := by
  unfold State.raise
  dsimp only
  split <;> rfl
@[simp] theorem State.sf_raise (s : State) (src code : Nat) (ws : List Nat) : (s.raise src code ws).sf = s.sf := by
  unfold State.raise
  dsimp only
  split <;> rfl
@[simp] theorem State.can_raise (s : State) (src code : Nat) (ws : List Nat) : (s.raise src code ws).can = s.can := by
  unfold State.raise
  dsimp only
  split <;> rfl
@[simp] theorem State.eth_raise (s : State) (src code : Nat) (ws : List Nat) : (s.raise src code ws).eth = s.eth := by
  unfold State.raise
  dsimp only
  split <;> rfl
@[simp] theorem State.sv_raise (s : State) (src code : Nat) (ws : List Nat) : (s.raise src code ws).sv = s.sv := by
  unfold State.raise
  dsimp only
  split <;> rfl
@[simp] theorem State.corr_raise (s : State) (src code : Nat) (ws : List Nat) : (s.raise src code ws).corr = s.corr := by
  unfold State.raise
  dsimp only
  split <;> rfl
@[simp] theorem State.est_raise (s : State) (src code : Nat) (ws : List Nat) : (s.raise src code ws).est = s.est := by
  unfold State.raise
  dsimp only
  split <;> rfl
@[simp] theorem State.byte_raise (s : State) (src code : Nat) (ws : List Nat) (a : Nat) : (s.raise src code ws).byte a = s.byte a := by
  unfold State.byte
  rw [State.mem_raise]
@[simp] theorem State.grain_raise (s : State) (src code : Nat) (ws : List Nat) (g : Nat) : (s.raise src code ws).grain g = s.grain g := by
  unfold State.grain
  rw [State.grains_raise]
@[simp] theorem State.node_raise (s : State) (src code : Nat) (ws : List Nat) (n : Nat) : (s.raise src code ws).node n = s.node n := by
  unfold State.node
  rw [State.lnk_raise]
@[simp] theorem State.eng_raise (s : State) (src code : Nat) (ws : List Nat) (n : Nat) : (s.raise src code ws).eng n = s.eng n := by
  unfold State.eng
  rw [State.lnk_raise]
@[simp] theorem State.pos_raise (s : State) (src code : Nat) (ws : List Nat) (x y : Nat) : (s.raise src code ws).pos x y = s.pos x y := by
  unfold State.pos
  rw [State.lnk_raise]
@[simp] theorem State.ns_raise (s : State) (src code : Nat) (ws : List Nat) : (s.raise src code ws).ns = s.ns := by
  unfold State.ns
  rw [State.now_raise]

/-! ## `count` -/

@[simp] theorem State.pending_count (s : State) (src k : Nat) : (s.count src k).pending = s.pending := by
  obtain ⟨m, e⟩ := s.count_eq src k
  rw [e]
@[simp] theorem State.now_count (s : State) (src k : Nat) : (s.count src k).now = s.now := by
  obtain ⟨m, e⟩ := s.count_eq src k
  rw [e]
@[simp] theorem State.fresh_count (s : State) (src k : Nat) : (s.count src k).fresh = s.fresh := by
  obtain ⟨m, e⟩ := s.count_eq src k
  rw [e]
@[simp] theorem State.regs_count (s : State) (src k : Nat) : (s.count src k).regs = s.regs := by
  obtain ⟨m, e⟩ := s.count_eq src k
  rw [e]
@[simp] theorem State.mem_count (s : State) (src k : Nat) : (s.count src k).mem = s.mem := by
  obtain ⟨m, e⟩ := s.count_eq src k
  rw [e]
@[simp] theorem State.grains_count (s : State) (src k : Nat) : (s.count src k).grains = s.grains := by
  obtain ⟨m, e⟩ := s.count_eq src k
  rw [e]
@[simp] theorem State.led_count (s : State) (src k : Nat) : (s.count src k).led = s.led := by
  obtain ⟨m, e⟩ := s.count_eq src k
  rw [e]
@[simp] theorem State.lnk_count (s : State) (src k : Nat) : (s.count src k).lnk = s.lnk := by
  obtain ⟨m, e⟩ := s.count_eq src k
  rw [e]
@[simp] theorem State.swp_count (s : State) (src k : Nat) : (s.count src k).swp = s.swp := by
  obtain ⟨m, e⟩ := s.count_eq src k
  rw [e]
@[simp] theorem State.trip_count (s : State) (src k : Nat) : (s.count src k).trip = s.trip := by
  obtain ⟨m, e⟩ := s.count_eq src k
  rw [e]
@[simp] theorem State.boot_count (s : State) (src k : Nat) : (s.count src k).boot = s.boot := by
  obtain ⟨m, e⟩ := s.count_eq src k
  rw [e]
@[simp] theorem State.gate_count (s : State) (src k : Nat) : (s.count src k).gate = s.gate := by
  obtain ⟨m, e⟩ := s.count_eq src k
  rw [e]
@[simp] theorem State.regu_count (s : State) (src k : Nat) : (s.count src k).regu = s.regu := by
  obtain ⟨m, e⟩ := s.count_eq src k
  rw [e]
@[simp] theorem State.out_count (s : State) (src k : Nat) : (s.count src k).out = s.out := by
  obtain ⟨m, e⟩ := s.count_eq src k
  rw [e]
@[simp] theorem State.cur_count (s : State) (src k : Nat) : (s.count src k).cur = s.cur := by
  obtain ⟨m, e⟩ := s.count_eq src k
  rw [e]
@[simp] theorem State.sf_count (s : State) (src k : Nat) : (s.count src k).sf = s.sf := by
  obtain ⟨m, e⟩ := s.count_eq src k
  rw [e]
@[simp] theorem State.can_count (s : State) (src k : Nat) : (s.count src k).can = s.can := by
  obtain ⟨m, e⟩ := s.count_eq src k
  rw [e]
@[simp] theorem State.eth_count (s : State) (src k : Nat) : (s.count src k).eth = s.eth := by
  obtain ⟨m, e⟩ := s.count_eq src k
  rw [e]
@[simp] theorem State.sv_count (s : State) (src k : Nat) : (s.count src k).sv = s.sv := by
  obtain ⟨m, e⟩ := s.count_eq src k
  rw [e]
@[simp] theorem State.corr_count (s : State) (src k : Nat) : (s.count src k).corr = s.corr := by
  obtain ⟨m, e⟩ := s.count_eq src k
  rw [e]
@[simp] theorem State.est_count (s : State) (src k : Nat) : (s.count src k).est = s.est := by
  obtain ⟨m, e⟩ := s.count_eq src k
  rw [e]
@[simp] theorem State.reg_count (s : State) (src k : Nat) (a : Nat) : (s.count src k).reg a = s.reg a := by
  unfold State.reg
  rw [State.regs_count]
@[simp] theorem State.rd_count (s : State) (src k : Nat) (a : Nat) (f : Fld) : (s.count src k).rd a f = s.rd a f := by
  unfold State.rd State.reg
  rw [State.regs_count]
@[simp] theorem State.rdB_count (s : State) (src k : Nat) (a : Nat) (f : Fld) : (s.count src k).rdB a f = s.rdB a f := by
  unfold State.rdB State.rd State.reg
  rw [State.regs_count]
@[simp] theorem State.byte_count (s : State) (src k : Nat) (a : Nat) : (s.count src k).byte a = s.byte a := by
  unfold State.byte
  rw [State.mem_count]
@[simp] theorem State.grain_count (s : State) (src k : Nat) (g : Nat) : (s.count src k).grain g = s.grain g := by
  unfold State.grain
  rw [State.grains_count]
@[simp] theorem State.node_count (s : State) (src k : Nat) (n : Nat) : (s.count src k).node n = s.node n := by
  unfold State.node
  rw [State.lnk_count]
@[simp] theorem State.eng_count (s : State) (src k : Nat) (n : Nat) : (s.count src k).eng n = s.eng n := by
  unfold State.eng
  rw [State.lnk_count]
@[simp] theorem State.pos_count (s : State) (src k : Nat) (x y : Nat) : (s.count src k).pos x y = s.pos x y := by
  unfold State.pos
  rw [State.lnk_count]
@[simp] theorem State.ns_count (s : State) (src k : Nat) : (s.count src k).ns = s.ns := by
  unfold State.ns
  rw [State.now_count]

/-! ## `setNode` -/

@[simp] theorem State.pending_setNode (s : State) (k : Nat) (m : Node) : (s.setNode k m).pending = s.pending := rfl
@[simp] theorem State.now_setNode (s : State) (k : Nat) (m : Node) : (s.setNode k m).now = s.now := rfl
@[simp] theorem State.fresh_setNode (s : State) (k : Nat) (m : Node) : (s.setNode k m).fresh = s.fresh := rfl
@[simp] theorem State.regs_setNode (s : State) (k : Nat) (m : Node) : (s.setNode k m).regs = s.regs := rfl
@[simp] theorem State.mem_setNode (s : State) (k : Nat) (m : Node) : (s.setNode k m).mem = s.mem := rfl
@[simp] theorem State.fab_setNode (s : State) (k : Nat) (m : Node) : (s.setNode k m).fab = s.fab := rfl
@[simp] theorem State.grains_setNode (s : State) (k : Nat) (m : Node) : (s.setNode k m).grains = s.grains := rfl
@[simp] theorem State.led_setNode (s : State) (k : Nat) (m : Node) : (s.setNode k m).led = s.led := rfl
@[simp] theorem State.swp_setNode (s : State) (k : Nat) (m : Node) : (s.setNode k m).swp = s.swp := rfl
@[simp] theorem State.trip_setNode (s : State) (k : Nat) (m : Node) : (s.setNode k m).trip = s.trip := rfl
@[simp] theorem State.boot_setNode (s : State) (k : Nat) (m : Node) : (s.setNode k m).boot = s.boot := rfl
@[simp] theorem State.gate_setNode (s : State) (k : Nat) (m : Node) : (s.setNode k m).gate = s.gate := rfl
@[simp] theorem State.regu_setNode (s : State) (k : Nat) (m : Node) : (s.setNode k m).regu = s.regu := rfl
@[simp] theorem State.out_setNode (s : State) (k : Nat) (m : Node) : (s.setNode k m).out = s.out := rfl
@[simp] theorem State.cur_setNode (s : State) (k : Nat) (m : Node) : (s.setNode k m).cur = s.cur := rfl
@[simp] theorem State.sf_setNode (s : State) (k : Nat) (m : Node) : (s.setNode k m).sf = s.sf := rfl
@[simp] theorem State.can_setNode (s : State) (k : Nat) (m : Node) : (s.setNode k m).can = s.can := rfl
@[simp] theorem State.eth_setNode (s : State) (k : Nat) (m : Node) : (s.setNode k m).eth = s.eth := rfl
@[simp] theorem State.sv_setNode (s : State) (k : Nat) (m : Node) : (s.setNode k m).sv = s.sv := rfl
@[simp] theorem State.corr_setNode (s : State) (k : Nat) (m : Node) : (s.setNode k m).corr = s.corr := rfl
@[simp] theorem State.est_setNode (s : State) (k : Nat) (m : Node) : (s.setNode k m).est = s.est := rfl
@[simp] theorem State.reg_setNode (s : State) (k : Nat) (m : Node) (a : Nat) : (s.setNode k m).reg a = s.reg a := rfl
@[simp] theorem State.rd_setNode (s : State) (k : Nat) (m : Node) (a : Nat) (f : Fld) : (s.setNode k m).rd a f = s.rd a f := rfl
@[simp] theorem State.rdB_setNode (s : State) (k : Nat) (m : Node) (a : Nat) (f : Fld) : (s.setNode k m).rdB a f = s.rdB a f := rfl
@[simp] theorem State.byte_setNode (s : State) (k : Nat) (m : Node) (a : Nat) : (s.setNode k m).byte a = s.byte a := rfl
@[simp] theorem State.grain_setNode (s : State) (k : Nat) (m : Node) (g : Nat) : (s.setNode k m).grain g = s.grain g := rfl
@[simp] theorem State.ns_setNode (s : State) (k : Nat) (m : Node) : (s.setNode k m).ns = s.ns := rfl

/-! ## `updEng` -/

@[simp] theorem State.pending_updEng (s : State) (k : Nat) (m : Engine → Engine) : (s.updEng k m).pending = s.pending := rfl
@[simp] theorem State.now_updEng (s : State) (k : Nat) (m : Engine → Engine) : (s.updEng k m).now = s.now := rfl
@[simp] theorem State.fresh_updEng (s : State) (k : Nat) (m : Engine → Engine) : (s.updEng k m).fresh = s.fresh := rfl
@[simp] theorem State.regs_updEng (s : State) (k : Nat) (m : Engine → Engine) : (s.updEng k m).regs = s.regs := rfl
@[simp] theorem State.mem_updEng (s : State) (k : Nat) (m : Engine → Engine) : (s.updEng k m).mem = s.mem := rfl
@[simp] theorem State.fab_updEng (s : State) (k : Nat) (m : Engine → Engine) : (s.updEng k m).fab = s.fab := rfl
@[simp] theorem State.grains_updEng (s : State) (k : Nat) (m : Engine → Engine) : (s.updEng k m).grains = s.grains := rfl
@[simp] theorem State.led_updEng (s : State) (k : Nat) (m : Engine → Engine) : (s.updEng k m).led = s.led := rfl
@[simp] theorem State.swp_updEng (s : State) (k : Nat) (m : Engine → Engine) : (s.updEng k m).swp = s.swp := rfl
@[simp] theorem State.trip_updEng (s : State) (k : Nat) (m : Engine → Engine) : (s.updEng k m).trip = s.trip := rfl
@[simp] theorem State.boot_updEng (s : State) (k : Nat) (m : Engine → Engine) : (s.updEng k m).boot = s.boot := rfl
@[simp] theorem State.gate_updEng (s : State) (k : Nat) (m : Engine → Engine) : (s.updEng k m).gate = s.gate := rfl
@[simp] theorem State.regu_updEng (s : State) (k : Nat) (m : Engine → Engine) : (s.updEng k m).regu = s.regu := rfl
@[simp] theorem State.out_updEng (s : State) (k : Nat) (m : Engine → Engine) : (s.updEng k m).out = s.out := rfl
@[simp] theorem State.cur_updEng (s : State) (k : Nat) (m : Engine → Engine) : (s.updEng k m).cur = s.cur := rfl
@[simp] theorem State.sf_updEng (s : State) (k : Nat) (m : Engine → Engine) : (s.updEng k m).sf = s.sf := rfl
@[simp] theorem State.can_updEng (s : State) (k : Nat) (m : Engine → Engine) : (s.updEng k m).can = s.can := rfl
@[simp] theorem State.eth_updEng (s : State) (k : Nat) (m : Engine → Engine) : (s.updEng k m).eth = s.eth := rfl
@[simp] theorem State.sv_updEng (s : State) (k : Nat) (m : Engine → Engine) : (s.updEng k m).sv = s.sv := rfl
@[simp] theorem State.corr_updEng (s : State) (k : Nat) (m : Engine → Engine) : (s.updEng k m).corr = s.corr := rfl
@[simp] theorem State.est_updEng (s : State) (k : Nat) (m : Engine → Engine) : (s.updEng k m).est = s.est := rfl
@[simp] theorem State.reg_updEng (s : State) (k : Nat) (m : Engine → Engine) (a : Nat) : (s.updEng k m).reg a = s.reg a := rfl
@[simp] theorem State.rd_updEng (s : State) (k : Nat) (m : Engine → Engine) (a : Nat) (f : Fld) : (s.updEng k m).rd a f = s.rd a f := rfl
@[simp] theorem State.rdB_updEng (s : State) (k : Nat) (m : Engine → Engine) (a : Nat) (f : Fld) : (s.updEng k m).rdB a f = s.rdB a f := rfl
@[simp] theorem State.byte_updEng (s : State) (k : Nat) (m : Engine → Engine) (a : Nat) : (s.updEng k m).byte a = s.byte a := rfl
@[simp] theorem State.grain_updEng (s : State) (k : Nat) (m : Engine → Engine) (g : Nat) : (s.updEng k m).grain g = s.grain g := rfl
@[simp] theorem State.ns_updEng (s : State) (k : Nat) (m : Engine → Engine) : (s.updEng k m).ns = s.ns := rfl

/-! ## `updPos` -/

@[simp] theorem State.pending_updPos (s : State) (p q : Nat) (m : Pos → Pos) : (s.updPos p q m).pending = s.pending := rfl
@[simp] theorem State.now_updPos (s : State) (p q : Nat) (m : Pos → Pos) : (s.updPos p q m).now = s.now := rfl
@[simp] theorem State.fresh_updPos (s : State) (p q : Nat) (m : Pos → Pos) : (s.updPos p q m).fresh = s.fresh := rfl
@[simp] theorem State.regs_updPos (s : State) (p q : Nat) (m : Pos → Pos) : (s.updPos p q m).regs = s.regs := rfl
@[simp] theorem State.mem_updPos (s : State) (p q : Nat) (m : Pos → Pos) : (s.updPos p q m).mem = s.mem := rfl
@[simp] theorem State.fab_updPos (s : State) (p q : Nat) (m : Pos → Pos) : (s.updPos p q m).fab = s.fab := rfl
@[simp] theorem State.grains_updPos (s : State) (p q : Nat) (m : Pos → Pos) : (s.updPos p q m).grains = s.grains := rfl
@[simp] theorem State.led_updPos (s : State) (p q : Nat) (m : Pos → Pos) : (s.updPos p q m).led = s.led := rfl
@[simp] theorem State.swp_updPos (s : State) (p q : Nat) (m : Pos → Pos) : (s.updPos p q m).swp = s.swp := rfl
@[simp] theorem State.trip_updPos (s : State) (p q : Nat) (m : Pos → Pos) : (s.updPos p q m).trip = s.trip := rfl
@[simp] theorem State.boot_updPos (s : State) (p q : Nat) (m : Pos → Pos) : (s.updPos p q m).boot = s.boot := rfl
@[simp] theorem State.gate_updPos (s : State) (p q : Nat) (m : Pos → Pos) : (s.updPos p q m).gate = s.gate := rfl
@[simp] theorem State.regu_updPos (s : State) (p q : Nat) (m : Pos → Pos) : (s.updPos p q m).regu = s.regu := rfl
@[simp] theorem State.out_updPos (s : State) (p q : Nat) (m : Pos → Pos) : (s.updPos p q m).out = s.out := rfl
@[simp] theorem State.cur_updPos (s : State) (p q : Nat) (m : Pos → Pos) : (s.updPos p q m).cur = s.cur := rfl
@[simp] theorem State.sf_updPos (s : State) (p q : Nat) (m : Pos → Pos) : (s.updPos p q m).sf = s.sf := rfl
@[simp] theorem State.can_updPos (s : State) (p q : Nat) (m : Pos → Pos) : (s.updPos p q m).can = s.can := rfl
@[simp] theorem State.eth_updPos (s : State) (p q : Nat) (m : Pos → Pos) : (s.updPos p q m).eth = s.eth := rfl
@[simp] theorem State.sv_updPos (s : State) (p q : Nat) (m : Pos → Pos) : (s.updPos p q m).sv = s.sv := rfl
@[simp] theorem State.corr_updPos (s : State) (p q : Nat) (m : Pos → Pos) : (s.updPos p q m).corr = s.corr := rfl
@[simp] theorem State.est_updPos (s : State) (p q : Nat) (m : Pos → Pos) : (s.updPos p q m).est = s.est := rfl
@[simp] theorem State.reg_updPos (s : State) (p q : Nat) (m : Pos → Pos) (a : Nat) : (s.updPos p q m).reg a = s.reg a := rfl
@[simp] theorem State.rd_updPos (s : State) (p q : Nat) (m : Pos → Pos) (a : Nat) (f : Fld) : (s.updPos p q m).rd a f = s.rd a f := rfl
@[simp] theorem State.rdB_updPos (s : State) (p q : Nat) (m : Pos → Pos) (a : Nat) (f : Fld) : (s.updPos p q m).rdB a f = s.rdB a f := rfl
@[simp] theorem State.byte_updPos (s : State) (p q : Nat) (m : Pos → Pos) (a : Nat) : (s.updPos p q m).byte a = s.byte a := rfl
@[simp] theorem State.grain_updPos (s : State) (p q : Nat) (m : Pos → Pos) (g : Nat) : (s.updPos p q m).grain g = s.grain g := rfl
@[simp] theorem State.ns_updPos (s : State) (p q : Nat) (m : Pos → Pos) : (s.updPos p q m).ns = s.ns := rfl

/-! ## `hitPort` -/

@[simp] theorem State.pending_hitPort (s : State) (k : Nat) (q : Fld) (c : Nat) : (s.hitPort k q c).pending = s.pending := by
  unfold State.hitPort
  split
  · exact State.pending_hit ..
  · exact State.pending_hit ..
@[simp] theorem State.now_hitPort (s : State) (k : Nat) (q : Fld) (c : Nat) : (s.hitPort k q c).now = s.now := by
  unfold State.hitPort
  split
  · exact State.now_hit ..
  · exact State.now_hit ..
@[simp] theorem State.fresh_hitPort (s : State) (k : Nat) (q : Fld) (c : Nat) : (s.hitPort k q c).fresh = s.fresh := by
  unfold State.hitPort
  split
  · exact State.fresh_hit ..
  · exact State.fresh_hit ..
@[simp] theorem State.mem_hitPort (s : State) (k : Nat) (q : Fld) (c : Nat) : (s.hitPort k q c).mem = s.mem := by
  unfold State.hitPort
  split
  · exact State.mem_hit ..
  · exact State.mem_hit ..
@[simp] theorem State.fab_hitPort (s : State) (k : Nat) (q : Fld) (c : Nat) : (s.hitPort k q c).fab = s.fab := by
  unfold State.hitPort
  split
  · exact State.fab_hit ..
  · exact State.fab_hit ..
@[simp] theorem State.grains_hitPort (s : State) (k : Nat) (q : Fld) (c : Nat) : (s.hitPort k q c).grains = s.grains := by
  unfold State.hitPort
  split
  · exact State.grains_hit ..
  · exact State.grains_hit ..
@[simp] theorem State.led_hitPort (s : State) (k : Nat) (q : Fld) (c : Nat) : (s.hitPort k q c).led = s.led := by
  unfold State.hitPort
  split
  · exact State.led_hit ..
  · exact State.led_hit ..
@[simp] theorem State.lnk_hitPort (s : State) (k : Nat) (q : Fld) (c : Nat) : (s.hitPort k q c).lnk = s.lnk := by
  unfold State.hitPort
  split
  · exact State.lnk_hit ..
  · exact State.lnk_hit ..
@[simp] theorem State.swp_hitPort (s : State) (k : Nat) (q : Fld) (c : Nat) : (s.hitPort k q c).swp = s.swp := by
  unfold State.hitPort
  split
  · exact State.swp_hit ..
  · exact State.swp_hit ..
@[simp] theorem State.trip_hitPort (s : State) (k : Nat) (q : Fld) (c : Nat) : (s.hitPort k q c).trip = s.trip := by
  unfold State.hitPort
  split
  · exact State.trip_hit ..
  · exact State.trip_hit ..
@[simp] theorem State.boot_hitPort (s : State) (k : Nat) (q : Fld) (c : Nat) : (s.hitPort k q c).boot = s.boot := by
  unfold State.hitPort
  split
  · exact State.boot_hit ..
  · exact State.boot_hit ..
@[simp] theorem State.gate_hitPort (s : State) (k : Nat) (q : Fld) (c : Nat) : (s.hitPort k q c).gate = s.gate := by
  unfold State.hitPort
  split
  · exact State.gate_hit ..
  · exact State.gate_hit ..
@[simp] theorem State.regu_hitPort (s : State) (k : Nat) (q : Fld) (c : Nat) : (s.hitPort k q c).regu = s.regu := by
  unfold State.hitPort
  split
  · exact State.regu_hit ..
  · exact State.regu_hit ..
@[simp] theorem State.out_hitPort (s : State) (k : Nat) (q : Fld) (c : Nat) : (s.hitPort k q c).out = s.out := by
  unfold State.hitPort
  split
  · exact State.out_hit ..
  · exact State.out_hit ..
@[simp] theorem State.cur_hitPort (s : State) (k : Nat) (q : Fld) (c : Nat) : (s.hitPort k q c).cur = s.cur := by
  unfold State.hitPort
  split
  · exact State.cur_hit ..
  · exact State.cur_hit ..
@[simp] theorem State.sf_hitPort (s : State) (k : Nat) (q : Fld) (c : Nat) : (s.hitPort k q c).sf = s.sf := by
  unfold State.hitPort
  split
  · exact State.sf_hit ..
  · exact State.sf_hit ..
@[simp] theorem State.can_hitPort (s : State) (k : Nat) (q : Fld) (c : Nat) : (s.hitPort k q c).can = s.can := by
  unfold State.hitPort
  split
  · exact State.can_hit ..
  · exact State.can_hit ..
@[simp] theorem State.eth_hitPort (s : State) (k : Nat) (q : Fld) (c : Nat) : (s.hitPort k q c).eth = s.eth := by
  unfold State.hitPort
  split
  · exact State.eth_hit ..
  · exact State.eth_hit ..
@[simp] theorem State.sv_hitPort (s : State) (k : Nat) (q : Fld) (c : Nat) : (s.hitPort k q c).sv = s.sv := by
  unfold State.hitPort
  split
  · exact State.sv_hit ..
  · exact State.sv_hit ..
@[simp] theorem State.corr_hitPort (s : State) (k : Nat) (q : Fld) (c : Nat) : (s.hitPort k q c).corr = s.corr := by
  unfold State.hitPort
  split
  · exact State.corr_hit ..
  · exact State.corr_hit ..
@[simp] theorem State.est_hitPort (s : State) (k : Nat) (q : Fld) (c : Nat) : (s.hitPort k q c).est = s.est := by
  unfold State.hitPort
  split
  · exact State.est_hit ..
  · exact State.est_hit ..
@[simp] theorem State.byte_hitPort (s : State) (k : Nat) (q : Fld) (c : Nat) (a : Nat) : (s.hitPort k q c).byte a = s.byte a := by
  unfold State.byte
  rw [State.mem_hitPort]
@[simp] theorem State.grain_hitPort (s : State) (k : Nat) (q : Fld) (c : Nat) (g : Nat) : (s.hitPort k q c).grain g = s.grain g := by
  unfold State.grain
  rw [State.grains_hitPort]
@[simp] theorem State.node_hitPort (s : State) (k : Nat) (q : Fld) (c : Nat) (n : Nat) : (s.hitPort k q c).node n = s.node n := by
  unfold State.node
  rw [State.lnk_hitPort]
@[simp] theorem State.eng_hitPort (s : State) (k : Nat) (q : Fld) (c : Nat) (n : Nat) : (s.hitPort k q c).eng n = s.eng n := by
  unfold State.eng
  rw [State.lnk_hitPort]
@[simp] theorem State.pos_hitPort (s : State) (k : Nat) (q : Fld) (c : Nat) (x y : Nat) : (s.hitPort k q c).pos x y = s.pos x y := by
  unfold State.pos
  rw [State.lnk_hitPort]
@[simp] theorem State.ns_hitPort (s : State) (k : Nat) (q : Fld) (c : Nat) : (s.hitPort k q c).ns = s.ns := by
  unfold State.ns
  rw [State.now_hitPort]

/-! ## `verdict` -/

@[simp] theorem State.pending_verdict (s : State) (v : Verdict) : (s.verdict v).pending = s.pending := rfl
@[simp] theorem State.now_verdict (s : State) (v : Verdict) : (s.verdict v).now = s.now := rfl
@[simp] theorem State.fresh_verdict (s : State) (v : Verdict) : (s.verdict v).fresh = s.fresh := rfl
@[simp] theorem State.regs_verdict (s : State) (v : Verdict) : (s.verdict v).regs = s.regs := rfl
@[simp] theorem State.mem_verdict (s : State) (v : Verdict) : (s.verdict v).mem = s.mem := rfl
@[simp] theorem State.fab_verdict (s : State) (v : Verdict) : (s.verdict v).fab = s.fab := rfl
@[simp] theorem State.grains_verdict (s : State) (v : Verdict) : (s.verdict v).grains = s.grains := rfl
@[simp] theorem State.led_verdict (s : State) (v : Verdict) : (s.verdict v).led = s.led := rfl
@[simp] theorem State.lnk_verdict (s : State) (v : Verdict) : (s.verdict v).lnk = s.lnk := rfl
@[simp] theorem State.swp_verdict (s : State) (v : Verdict) : (s.verdict v).swp = s.swp := rfl
@[simp] theorem State.boot_verdict (s : State) (v : Verdict) : (s.verdict v).boot = s.boot := rfl
@[simp] theorem State.gate_verdict (s : State) (v : Verdict) : (s.verdict v).gate = s.gate := rfl
@[simp] theorem State.regu_verdict (s : State) (v : Verdict) : (s.verdict v).regu = s.regu := rfl
@[simp] theorem State.out_verdict (s : State) (v : Verdict) : (s.verdict v).out = s.out := rfl
@[simp] theorem State.cur_verdict (s : State) (v : Verdict) : (s.verdict v).cur = s.cur := rfl
@[simp] theorem State.sf_verdict (s : State) (v : Verdict) : (s.verdict v).sf = s.sf := rfl
@[simp] theorem State.can_verdict (s : State) (v : Verdict) : (s.verdict v).can = s.can := rfl
@[simp] theorem State.eth_verdict (s : State) (v : Verdict) : (s.verdict v).eth = s.eth := rfl
@[simp] theorem State.sv_verdict (s : State) (v : Verdict) : (s.verdict v).sv = s.sv := rfl
@[simp] theorem State.corr_verdict (s : State) (v : Verdict) : (s.verdict v).corr = s.corr := rfl
@[simp] theorem State.est_verdict (s : State) (v : Verdict) : (s.verdict v).est = s.est := rfl
@[simp] theorem State.reg_verdict (s : State) (v : Verdict) (a : Nat) : (s.verdict v).reg a = s.reg a := rfl
@[simp] theorem State.rd_verdict (s : State) (v : Verdict) (a : Nat) (f : Fld) : (s.verdict v).rd a f = s.rd a f := rfl
@[simp] theorem State.rdB_verdict (s : State) (v : Verdict) (a : Nat) (f : Fld) : (s.verdict v).rdB a f = s.rdB a f := rfl
@[simp] theorem State.byte_verdict (s : State) (v : Verdict) (a : Nat) : (s.verdict v).byte a = s.byte a := rfl
@[simp] theorem State.grain_verdict (s : State) (v : Verdict) (g : Nat) : (s.verdict v).grain g = s.grain g := rfl
@[simp] theorem State.node_verdict (s : State) (v : Verdict) (n : Nat) : (s.verdict v).node n = s.node n := rfl
@[simp] theorem State.eng_verdict (s : State) (v : Verdict) (n : Nat) : (s.verdict v).eng n = s.eng n := rfl
@[simp] theorem State.pos_verdict (s : State) (v : Verdict) (x y : Nat) : (s.verdict v).pos x y = s.pos x y := rfl
@[simp] theorem State.ns_verdict (s : State) (v : Verdict) : (s.verdict v).ns = s.ns := rfl

/-! ## `engSend` -/

@[simp] theorem State.pending_engSend (s : State) (k : Nat) (body : List Nat) : (s.engSend k body).pending = s.pending := by
  unfold State.engSend
  rw [State.pending_count]
  rfl
@[simp] theorem State.now_engSend (s : State) (k : Nat) (body : List Nat) : (s.engSend k body).now = s.now := by
  unfold State.engSend
  rw [State.now_count]
  rfl
@[simp] theorem State.fresh_engSend (s : State) (k : Nat) (body : List Nat) : (s.engSend k body).fresh = s.fresh := by
  unfold State.engSend
  rw [State.fresh_count]
  rfl
@[simp] theorem State.regs_engSend (s : State) (k : Nat) (body : List Nat) : (s.engSend k body).regs = s.regs := by
  unfold State.engSend
  rw [State.regs_count]
  rfl
@[simp] theorem State.mem_engSend (s : State) (k : Nat) (body : List Nat) : (s.engSend k body).mem = s.mem := by
  unfold State.engSend
  rw [State.mem_count]
  rfl
@[simp] theorem State.grains_engSend (s : State) (k : Nat) (body : List Nat) : (s.engSend k body).grains = s.grains := by
  unfold State.engSend
  rw [State.grains_count]
  rfl
@[simp] theorem State.led_engSend (s : State) (k : Nat) (body : List Nat) : (s.engSend k body).led = s.led := by
  unfold State.engSend
  rw [State.led_count]
  rfl
@[simp] theorem State.swp_engSend (s : State) (k : Nat) (body : List Nat) : (s.engSend k body).swp = s.swp := by
  unfold State.engSend
  rw [State.swp_count]
  rfl
@[simp] theorem State.trip_engSend (s : State) (k : Nat) (body : List Nat) : (s.engSend k body).trip = s.trip := by
  unfold State.engSend
  rw [State.trip_count]
  rfl
@[simp] theorem State.boot_engSend (s : State) (k : Nat) (body : List Nat) : (s.engSend k body).boot = s.boot := by
  unfold State.engSend
  rw [State.boot_count]
  rfl
@[simp] theorem State.gate_engSend (s : State) (k : Nat) (body : List Nat) : (s.engSend k body).gate = s.gate := by
  unfold State.engSend
  rw [State.gate_count]
  rfl
@[simp] theorem State.regu_engSend (s : State) (k : Nat) (body : List Nat) : (s.engSend k body).regu = s.regu := by
  unfold State.engSend
  rw [State.regu_count]
  rfl
@[simp] theorem State.out_engSend (s : State) (k : Nat) (body : List Nat) : (s.engSend k body).out = s.out := by
  unfold State.engSend
  rw [State.out_count]
  rfl
@[simp] theorem State.cur_engSend (s : State) (k : Nat) (body : List Nat) : (s.engSend k body).cur = s.cur := by
  unfold State.engSend
  rw [State.cur_count]
  rfl
@[simp] theorem State.sf_engSend (s : State) (k : Nat) (body : List Nat) : (s.engSend k body).sf = s.sf := by
  unfold State.engSend
  rw [State.sf_count]
  rfl
@[simp] theorem State.can_engSend (s : State) (k : Nat) (body : List Nat) : (s.engSend k body).can = s.can := by
  unfold State.engSend
  rw [State.can_count]
  rfl
@[simp] theorem State.eth_engSend (s : State) (k : Nat) (body : List Nat) : (s.engSend k body).eth = s.eth := by
  unfold State.engSend
  rw [State.eth_count]
  rfl
@[simp] theorem State.sv_engSend (s : State) (k : Nat) (body : List Nat) : (s.engSend k body).sv = s.sv := by
  unfold State.engSend
  rw [State.sv_count]
  rfl
@[simp] theorem State.corr_engSend (s : State) (k : Nat) (body : List Nat) : (s.engSend k body).corr = s.corr := by
  unfold State.engSend
  rw [State.corr_count]
  rfl
@[simp] theorem State.est_engSend (s : State) (k : Nat) (body : List Nat) : (s.engSend k body).est = s.est := by
  unfold State.engSend
  rw [State.est_count]
  rfl
@[simp] theorem State.reg_engSend (s : State) (k : Nat) (body : List Nat) (a : Nat) : (s.engSend k body).reg a = s.reg a := by
  unfold State.reg
  rw [State.regs_engSend]
@[simp] theorem State.rd_engSend (s : State) (k : Nat) (body : List Nat) (a : Nat) (f : Fld) : (s.engSend k body).rd a f = s.rd a f := by
  unfold State.rd State.reg
  rw [State.regs_engSend]
@[simp] theorem State.rdB_engSend (s : State) (k : Nat) (body : List Nat) (a : Nat) (f : Fld) : (s.engSend k body).rdB a f = s.rdB a f := by
  unfold State.rdB State.rd State.reg
  rw [State.regs_engSend]
@[simp] theorem State.byte_engSend (s : State) (k : Nat) (body : List Nat) (a : Nat) : (s.engSend k body).byte a = s.byte a := by
  unfold State.byte
  rw [State.mem_engSend]
@[simp] theorem State.grain_engSend (s : State) (k : Nat) (body : List Nat) (g : Nat) : (s.engSend k body).grain g = s.grain g := by
  unfold State.grain
  rw [State.grains_engSend]
@[simp] theorem State.ns_engSend (s : State) (k : Nat) (body : List Nat) : (s.engSend k body).ns = s.ns := by
  unfold State.ns
  rw [State.now_engSend]

/-! ## `engRx` -/

@[simp] theorem State.pending_engRx (s : State) (k : Nat) (body : List Nat) (crc viol : Bool) : (s.engRx k body crc viol).pending = s.pending := rfl
@[simp] theorem State.now_engRx (s : State) (k : Nat) (body : List Nat) (crc viol : Bool) : (s.engRx k body crc viol).now = s.now := rfl
@[simp] theorem State.fresh_engRx (s : State) (k : Nat) (body : List Nat) (crc viol : Bool) : (s.engRx k body crc viol).fresh = s.fresh := rfl
@[simp] theorem State.regs_engRx (s : State) (k : Nat) (body : List Nat) (crc viol : Bool) : (s.engRx k body crc viol).regs = s.regs := rfl
@[simp] theorem State.mem_engRx (s : State) (k : Nat) (body : List Nat) (crc viol : Bool) : (s.engRx k body crc viol).mem = s.mem := rfl
@[simp] theorem State.fab_engRx (s : State) (k : Nat) (body : List Nat) (crc viol : Bool) : (s.engRx k body crc viol).fab = s.fab := rfl
@[simp] theorem State.grains_engRx (s : State) (k : Nat) (body : List Nat) (crc viol : Bool) : (s.engRx k body crc viol).grains = s.grains := rfl
@[simp] theorem State.led_engRx (s : State) (k : Nat) (body : List Nat) (crc viol : Bool) : (s.engRx k body crc viol).led = s.led := rfl
@[simp] theorem State.swp_engRx (s : State) (k : Nat) (body : List Nat) (crc viol : Bool) : (s.engRx k body crc viol).swp = s.swp := rfl
@[simp] theorem State.trip_engRx (s : State) (k : Nat) (body : List Nat) (crc viol : Bool) : (s.engRx k body crc viol).trip = s.trip := rfl
@[simp] theorem State.boot_engRx (s : State) (k : Nat) (body : List Nat) (crc viol : Bool) : (s.engRx k body crc viol).boot = s.boot := rfl
@[simp] theorem State.gate_engRx (s : State) (k : Nat) (body : List Nat) (crc viol : Bool) : (s.engRx k body crc viol).gate = s.gate := rfl
@[simp] theorem State.regu_engRx (s : State) (k : Nat) (body : List Nat) (crc viol : Bool) : (s.engRx k body crc viol).regu = s.regu := rfl
@[simp] theorem State.out_engRx (s : State) (k : Nat) (body : List Nat) (crc viol : Bool) : (s.engRx k body crc viol).out = s.out := rfl
@[simp] theorem State.cur_engRx (s : State) (k : Nat) (body : List Nat) (crc viol : Bool) : (s.engRx k body crc viol).cur = s.cur := rfl
@[simp] theorem State.sf_engRx (s : State) (k : Nat) (body : List Nat) (crc viol : Bool) : (s.engRx k body crc viol).sf = s.sf := rfl
@[simp] theorem State.can_engRx (s : State) (k : Nat) (body : List Nat) (crc viol : Bool) : (s.engRx k body crc viol).can = s.can := rfl
@[simp] theorem State.eth_engRx (s : State) (k : Nat) (body : List Nat) (crc viol : Bool) : (s.engRx k body crc viol).eth = s.eth := rfl
@[simp] theorem State.sv_engRx (s : State) (k : Nat) (body : List Nat) (crc viol : Bool) : (s.engRx k body crc viol).sv = s.sv := rfl
@[simp] theorem State.corr_engRx (s : State) (k : Nat) (body : List Nat) (crc viol : Bool) : (s.engRx k body crc viol).corr = s.corr := rfl
@[simp] theorem State.est_engRx (s : State) (k : Nat) (body : List Nat) (crc viol : Bool) : (s.engRx k body crc viol).est = s.est := rfl
@[simp] theorem State.reg_engRx (s : State) (k : Nat) (body : List Nat) (crc viol : Bool) (a : Nat) : (s.engRx k body crc viol).reg a = s.reg a := rfl
@[simp] theorem State.rd_engRx (s : State) (k : Nat) (body : List Nat) (crc viol : Bool) (a : Nat) (f : Fld) : (s.engRx k body crc viol).rd a f = s.rd a f := rfl
@[simp] theorem State.rdB_engRx (s : State) (k : Nat) (body : List Nat) (crc viol : Bool) (a : Nat) (f : Fld) : (s.engRx k body crc viol).rdB a f = s.rdB a f := rfl
@[simp] theorem State.byte_engRx (s : State) (k : Nat) (body : List Nat) (crc viol : Bool) (a : Nat) : (s.engRx k body crc viol).byte a = s.byte a := rfl
@[simp] theorem State.grain_engRx (s : State) (k : Nat) (body : List Nat) (crc viol : Bool) (g : Nat) : (s.engRx k body crc viol).grain g = s.grain g := rfl
@[simp] theorem State.ns_engRx (s : State) (k : Nat) (body : List Nat) (crc viol : Bool) : (s.engRx k body crc viol).ns = s.ns := rfl

/-! ## Registers -/

@[simp] theorem State.reg_setReg_same (s : State) (a : Nat) (w : Word) : (s.setReg a w).reg a = w := Tab.get_set_same _ _ _ _

theorem State.reg_wr_ne (s : State) {a b : Nat} (q : Fld) (v : Nat) (h : a ≠ b) : (s.wr b q v).reg a = s.reg a :=
  s.reg_setReg_ne _ h

@[simp] theorem State.reg_wr_same (s : State) (a : Nat) (q : Fld) (v : Nat) : (s.wr a q v).reg a = q.put (s.reg a) v :=
  s.reg_setReg_same _ _

theorem State.reg_hit_ne (s : State) {a b c : Nat} (q r : Fld) (h : a ≠ b) (h' : a ≠ c) : (s.hit b q c r).reg a = s.reg a := by
  unfold State.hit
  dsimp only
  rw [State.reg_wr_ne _ _ _ h', State.reg_wr_ne _ _ _ h]

/-- An event changes no register but the two that count what was lost from a full stack (R420). -/
theorem State.reg_raise (s : State) (src code : Nat) (ws : List Nat) {a : Nat} (h : a ≠ LEDGER_EVT) (h' : a ≠ LEDGER_CNT) :
    (s.raise src code ws).reg a = s.reg a := by
  unfold State.raise
  dsimp only
  split
  · rfl
  · exact State.reg_hit_ne _ _ _ h h'

/-! ## Links -/

@[simp] theorem State.eng_updEng_same (s : State) (k : Nat) (f : Engine → Engine) : (s.updEng k f).eng k = f (s.eng k) :=
  Tab.get_set_same _ _ _ _

theorem State.eng_updEng_ne (s : State) {j k : Nat} (f : Engine → Engine) (h : j ≠ k) : (s.updEng k f).eng j = s.eng j :=
  Tab.get_set_ne _ _ _ _ h

@[simp] theorem State.pos_updEng (s : State) (k p q : Nat) (f : Engine → Engine) : (s.updEng k f).pos p q = s.pos p q := rfl

@[simp] theorem State.node_updEng (s : State) (k n : Nat) (f : Engine → Engine) : (s.updEng k f).node n = s.node n := rfl

@[simp] theorem State.eng_updPos (s : State) (k p q : Nat) (f : Pos → Pos) : (s.updPos p q f).eng k = s.eng k := rfl

@[simp] theorem State.node_updPos (s : State) (n p q : Nat) (f : Pos → Pos) : (s.updPos p q f).node n = s.node n := rfl

@[simp] theorem State.pos_updPos_same (s : State) (p q : Nat) (f : Pos → Pos) : (s.updPos p q f).pos p q = f (s.pos p q) :=
  Tab.get_set_same _ _ _ _

@[simp] theorem State.eng_setNode (s : State) (k n : Nat) (m : Node) : (s.setNode n m).eng k = s.eng k := rfl

@[simp] theorem State.pos_setNode (s : State) (p q n : Nat) (m : Node) : (s.setNode n m).pos p q = s.pos p q := rfl

@[simp] theorem State.lnk_engSend (s : State) (k : Nat) (body : List Nat) :
    (s.engSend k body).lnk = (s.updEng k (fun e => { e with sent := some (body, s.now) })).lnk := by
  unfold State.engSend
  rw [State.lnk_count]

@[simp] theorem State.eng_engSend_same (s : State) (k : Nat) (body : List Nat) :
    (s.engSend k body).eng k = { s.eng k with sent := some (body, s.now) } := by
  unfold State.engSend
  rw [State.eng_count, State.eng_updEng_same]

theorem State.eng_engSend_ne (s : State) {j k : Nat} (body : List Nat) (h : j ≠ k) : (s.engSend k body).eng j = s.eng j := by
  unfold State.engSend
  rw [State.eng_count, State.eng_updEng_ne _ _ h]

@[simp] theorem State.pos_engSend (s : State) (k p q : Nat) (body : List Nat) : (s.engSend k body).pos p q = s.pos p q := by
  unfold State.engSend
  rw [State.pos_count, State.pos_updEng]

@[simp] theorem State.pos_engRx (s : State) (k p q : Nat) (body : List Nat) (crc viol : Bool) :
    (s.engRx k body crc viol).pos p q = s.pos p q := rfl

@[simp] theorem State.eng_engRx_same (s : State) (k : Nat) (body : List Nat) (crc viol : Bool) :
    (s.engRx k body crc viol).eng k = { s.eng k with
      rxq := (s.eng k).rxq ++ [{ body := body, crc := crc, viol := viol, at_ := s.now }],
      rxN := ((s.eng k).rxN + 1) % 2 ^ 32, rxAt := s.ns } :=
  State.eng_updEng_same _ _ _

/-! ## Time -/

@[simp] theorem State.now_at (s : State) (t : Nat) : (s.at t).now = Nat.max s.now t := rfl

end Sys2Proof.Machine
end

