-- ==== Sys2Proof/Laws/Link.lean ====
section
/-!
SUPPORT. What a link engine's instruction may change beside its grain: the engines, registers, events and memory.
-/

set_option Elab.async false

namespace Sys2Proof.Machine

/-- The engine of a link engine's source is its own number. -/
theorem engOf_src (e : Fin 20) : engOf (GrainId.link e).src = e.val := by revert e; decide

section
variable {s u : State} {g : GrainId} {t : Nat} {ps : List Part} {f : Grain → Grain}

theorem State.Did.updEng (h : s.Did g t ps f u) (hp : Part.lnk_ ∈ ps) (k : Nat) (m : Engine → Engine) :
    s.Did g t ps f (u.updEng k m) :=
  h.andThen rfl rfl rfl (.inr rfl) (fun p hq => by
    cases p
    case lnk_ => exact absurd hp (by simp only [List.mem_cons, not_or] at hq; exact hq.2.2.2)
    case regs_ => exact fun _ _ _ => rfl
    case lost_ => exact ⟨rfl, rfl⟩
    case grains_ => exact fun _ => rfl
    case inbox_ => exact fun _ => rfl
    all_goals rfl)

theorem State.Did.engSend (h : s.Did g t ps f u) (hp : Part.lnk_ ∈ ps) (k : Nat) (body : List Nat) :
    s.Did g t ps f (u.engSend k body) :=
  (h.updEng hp k _).count _ _

theorem State.Did.setReg (h : s.Did g t ps f u) (hp : Part.regs_ ∈ ps) (hl : Part.lost_ ∈ ps) (a : Nat) (w : Word) :
    s.Did g t ps f (u.setReg a w) :=
  h.andThen rfl rfl rfl (.inr rfl) (fun p hq => by
    simp only [List.mem_cons, not_or] at hq
    cases p
    case regs_ => exact absurd hp hq.2.2.2
    case lost_ => exact absurd hl hq.2.2.2
    case grains_ => exact fun _ => rfl
    case inbox_ => exact fun _ => rfl
    all_goals rfl)

theorem State.Did.drew (h : s.Did g t ps f u) (hp : Part.fresh_ ∈ ps) (k : Nat) : s.Did g t ps f (u.drew k) :=
  h.andThen rfl rfl rfl (.inr rfl) (fun p hq => by
    simp only [List.mem_cons, not_or] at hq
    cases p
    case fresh_ => exact absurd hp hq.2.2.2
    case regs_ => exact fun _ _ _ => rfl
    case lost_ => exact ⟨rfl, rfl⟩
    case grains_ => exact fun _ => rfl
    case inbox_ => exact fun _ => rfl
    all_goals rfl)

/-- An event raised. -/
theorem State.Did.raise (h : s.Did g t ps f u) (hp : Part.led_ ∈ ps) (hl : Part.lost_ ∈ ps) (src code : Nat)
    (ws : List Nat) : s.Did g t ps f (u.raise src code ws) :=
  h.andThen (State.now_raise ..) (State.pending_raise ..) (State.grains_raise ..)
    (.inr (by rw [State.fab_raise])) (fun p hq => by
    simp only [List.mem_cons, not_or] at hq
    cases p
    case led_ => exact absurd hp hq.2.2.2
    case lost_ => exact absurd hl hq.2.2.2
    case regs_ => exact fun a e c => u.reg_raise src code ws e c
    case grains_ => exact fun _ => by unfold State.grain; rw [State.grains_raise]
    case inbox_ => exact fun _ => by unfold State.grain; rw [State.grains_raise]
    all_goals simp [Part.same])

/-- Bytes stored. -/
theorem State.Did.setByte (h : s.Did g t ps f u) (hp : Part.mem_ ∈ ps) (hf : Part.fab_ ∈ ps) (a : Nat) (b : Byte) :
    s.Did g t ps f (u.setByte a b) :=
  h.andThen rfl rfl rfl (.inl hf) (fun p hq => by
    simp only [List.mem_cons, not_or] at hq
    cases p
    case mem_ => exact absurd hp hq.2.2.2
    case fab_ => exact absurd hf hq.2.2.2
    case regs_ => exact fun _ _ _ => rfl
    case lost_ => exact ⟨rfl, rfl⟩
    case grains_ => exact fun _ => rfl
    case inbox_ => exact fun _ => rfl
    all_goals rfl)

theorem State.Did.storeBytes (h : s.Did g t ps f u) (hp : Part.mem_ ∈ ps) (hf : Part.fab_ ∈ ps) (a : Nat) (bs : List Nat) :
    s.Did g t ps f (u.storeBytes a bs) := by
  induction bs generalizing a u with
  | nil => exact h
  | cons b bs ih => exact ih (h.setByte hp hf a _) (a + 1)

end

/-- Bytes read where memory is the same. -/
theorem State.loadBytes_congr {s u : State} (h : u.mem = s.mem) (a n : Nat) : u.loadBytes a n = s.loadBytes a n := by
  induction n generalizing a with
  | zero => rfl
  | succ n ih =>
    unfold State.loadBytes State.byte
    rw [ih, h]

/-- What a byte reads as after bytes were stored. -/
theorem State.byte_storeBytes (s : State) (p a : Nat) (bs : List Nat) : (s.storeBytes p bs).byte a =
    if p ≤ a ∧ a < p + bs.length then BitVec.ofNat 8 (bs.getD (a - p) 0) else s.byte a := by
  induction bs generalizing s p with
  | nil => rw [if_neg (by simp)]; rfl
  | cons b bs ih =>
    show ((s.setByte p _).storeBytes (p + 1) bs).byte a = _
    rw [ih, State.byte_setByte]
    by_cases h : a = p
    · subst h
      rw [if_neg (by omega), if_pos rfl, if_pos (by simp)]
      simp
    · by_cases h1 : p + 1 ≤ a ∧ a < p + 1 + bs.length
      · rw [if_pos h1, if_pos (by simp only [List.length_cons]; omega)]
        have : a - p = (a - (p + 1)) + 1 := by omega
        rw [this, List.getD_cons_succ]
      · rw [if_neg h1, if_neg h, if_neg (by simp only [List.length_cons]; omega)]

end Sys2Proof.Machine
end

