-- ==== Sys2Proof/Laws/Nodes.lean ====
section
/-!
SUPPORT. What a command frame does at a node, by whether the node hears it and is addressed: said once for every frame.
-/

set_option Elab.async false

namespace Sys2Proof.Machine

theorem State.node_setNode (s : State) (k j : Nat) (m : Node) : (s.setNode k m).node j = if j = k then m else s.node j :=
  Tab.get_set _ _ _ _ _

/-- A node set to a value. -/
theorem State.nodeBecomes_set (s : State) (k t : Nat) (m : Node) : s.NodeBecomes k t m (.next ((s.at t).setNode k m)) := by
  refine ⟨_, rfl, rfl, ?_, fun j h => ?_, rfl, fun p h => ?_⟩
  · rw [State.node_setNode, if_pos rfl]
  · rw [State.node_setNode, if_neg h]; rfl
  · cases p
    case regs_ => exact fun _ _ _ => rfl
    case lost_ => exact ⟨rfl, rfl⟩
    case grains_ => exact fun _ => rfl
    case inbox_ => exact fun _ => rfl
    case lnk_ => exact absurd rfl h
    all_goals rfl

/-- A node left as it is. -/
theorem State.nodeBecomes_at (s : State) (k t : Nat) : s.NodeBecomes k t (s.node k) (.next (s.at t)) := by
  refine ⟨_, rfl, rfl, rfl, fun _ _ => rfl, rfl, fun p h => ?_⟩
  cases p
  case regs_ => exact fun _ _ _ => rfl
  case lost_ => exact ⟨rfl, rfl⟩
  case grains_ => exact fun _ => rfl
  case inbox_ => exact fun _ => rfl
  all_goals rfl

theorem State.NodeBecomes.as {s : State} {k t : Nat} {m m' : Node} {o : Host.Outcome State Fault Refusal}
    (h : s.NodeBecomes k t m o) (e : m = m') : s.NodeBecomes k t m' o := e ▸ h

theorem State.NodeBecomes.to {s : State} {k t : Nat} {m : Node} {o o' : Host.Outcome State Fault Refusal}
    (h : s.NodeBecomes k t m o) (e : o' = o) : s.NodeBecomes k t m o' := e ▸ h

section
variable {s : State} {k t len : Nat} {body : List Nat} {node bcast : Bool} {act : Node → Bool → Node}

/-- A frame that the node hears, of the right length. -/
theorem nodeFrame_heard (h : s.Hears k t) (hl : len = 0 ∨ body.length = len) :
    nodeFrame s k body t len node bcast act = (s.at t).setNode k (
      match ((s.node k).hear body true t).addressed body with
      | some true => if node then act ((s.node k).hear body true t) true else (s.node k).hear body true t
      | some false => if bcast then act ((s.node k).hear body true t) false else (s.node k).hear body true t
      | none => (s.node k).hear body true t) := by
  unfold nodeFrame
  have e : (s.at t).node k = s.node k := rfl
  simp only [e]
  rw [if_neg (by simp only [Bool.or_eq_true, beq_iff_eq, decide_eq_true_eq]; rintro (h' | h')
                 · exact h.1 h'
                 · exact absurd h.2 (by omega)),
    if_neg (by omega)]
  have e2 : ((s.node k).hear body true t).addressed body = (s.node k).addressed body := rfl
  rw [e2]
  cases (s.node k).addressed body with
  | none => rfl
  | some b => cases b <;> simp only <;> split <;> rfl

/-- A command to the node's own address. -/
theorem nodeFrame_own (h : s.Hears k t) (hl : len = 0 ∨ body.length = len) (hn : node = true)
    (ho : (s.node k).enumerated = true ∧ frameAddr body = (s.node k).addr ∧ (s.node k).addr ≠ 0xFFFF) :
    s.NodeBecomes k t (act ((s.node k).hear body true t) true) (.next (nodeFrame s k body t len node bcast act)) := by
  rw [nodeFrame_heard h hl]
  have e : ((s.node k).hear body true t).addressed body = some true := by
    unfold Node.addressed
    rw [if_neg (by rw [ho.2.1]; exact ho.2.2), if_pos]
    have h1 : ((s.node k).hear body true t).enumerated = true := ho.1
    have h2 : ((s.node k).hear body true t).addr = (s.node k).addr := rfl
    rw [h1, h2, ho.2.1]; simp
  rw [e]; subst hn
  exact s.nodeBecomes_set k t _

/-- A command to every node. -/
theorem nodeFrame_all (h : s.Hears k t) (hl : len = 0 ∨ body.length = len) (hb : bcast = true) (ha : frameAddr body = 0xFFFF) :
    s.NodeBecomes k t (act ((s.node k).hear body true t) false) (.next (nodeFrame s k body t len node bcast act)) := by
  rw [nodeFrame_heard h hl]
  have e : ((s.node k).hear body true t).addressed body = some false := by
    unfold Node.addressed; rw [if_pos ha]
  rw [e]; subst hb
  exact s.nodeBecomes_set k t _

/-- A command to every node that only its own address may reach. -/
theorem nodeFrame_notAll (h : s.Hears k t) (hl : len = 0 ∨ body.length = len) (hb : bcast = false)
    (ha : frameAddr body = 0xFFFF) :
    s.NodeBecomes k t ((s.node k).hear body true t) (.next (nodeFrame s k body t len node bcast act)) := by
  rw [nodeFrame_heard h hl]
  have e : ((s.node k).hear body true t).addressed body = some false := by
    unfold Node.addressed; rw [if_pos ha]
  rw [e]; subst hb
  exact s.nodeBecomes_set k t _

/-- A command of another length: heard, not acted on (R39). -/
theorem nodeFrame_length (h : s.Hears k t) (hl : len ≠ 0 ∧ body.length ≠ len) :
    s.NodeBecomes k t ((s.node k).hear body true t) (.next (nodeFrame s k body t len node bcast act)) := by
  unfold nodeFrame
  have e : (s.at t).node k = s.node k := rfl
  simp only [e]
  rw [if_neg (by simp only [Bool.or_eq_true, beq_iff_eq, decide_eq_true_eq]; rintro (h' | h')
                 · exact h.1 h'
                 · exact absurd h.2 (by omega)),
    if_pos hl]
  exact s.nodeBecomes_set k t _

/-- A frame at a node that sleeps or sends. -/
theorem nodeFrame_unheard (h : ¬ s.Hears k t) :
    s.NodeBecomes k t (s.node k) (.next (nodeFrame s k body t len node bcast act)) := by
  unfold nodeFrame
  have e : (s.at t).node k = s.node k := rfl
  simp only [e]
  rw [if_pos (by
    simp only [Bool.or_eq_true, beq_iff_eq, decide_eq_true_eq]
    by_cases h1 : (s.node k).st = .sleep
    · exact .inl h1
    · exact .inr (by by_contra h2; exact h ⟨h1, by omega⟩))]
  exact s.nodeBecomes_at k t

end

end Sys2Proof.Machine
end

