-- ==== Sys2Proof/Laws/Registers.lean ====
section
/-!
SUPPORT. Fields of registers: what a field reads as after a field was written.
-/

set_option Elab.async false

namespace Sys2Proof.Machine

theorem Fld.get_put (f : Fld) (w : Word) (v : Nat) (h : f.lo + f.width ≤ 32) : f.get (f.put w v) = v % 2 ^ f.width := by
  unfold Fld.get Fld.put
  rw [BitVec.toNat_ofNat]
  have hw := w.isLt
  generalize w.toNat = x at *
  generalize f.lo = a at *
  generalize f.width = b at *
  have e1 : x % 2 ^ a < 2 ^ a := Nat.mod_lt _ (by positivity)
  have e2 : v % 2 ^ b < 2 ^ b := Nat.mod_lt _ (by positivity)
  have e3 : (x % 2 ^ a + v % 2 ^ b * 2 ^ a + x / 2 ^ (a + b) * 2 ^ (a + b)) =
      x % 2 ^ a + 2 ^ a * (v % 2 ^ b + 2 ^ b * (x / 2 ^ (a + b))) := by rw [pow_add]; ring
  have hle : 2 ^ 32 = 2 ^ a * 2 ^ b * 2 ^ (32 - (a + b)) := by
    rw [← pow_add, ← pow_add]; congr 1; omega
  rw [e3, hle, mul_assoc, Nat.mod_mul_right_div_self, Nat.add_mul_div_left _ _ (by positivity), Nat.div_eq_of_lt e1, zero_add,
    Nat.mod_mul_right_mod, Nat.add_mul_mod_self_left, Nat.mod_eq_of_lt e2]

/-- A field that lies apart from the one written. -/
theorem Fld.get_put_ne (f k : Fld) (w : Word) (v : Nat) (h : f.lo + f.width ≤ 32) (hk : k.lo + k.width ≤ 32)
    (hd : f.lo + f.width ≤ k.lo ∨ k.lo + k.width ≤ f.lo) : k.get (f.put w v) = k.get w := by
  unfold Fld.get Fld.put
  rw [BitVec.toNat_ofNat]
  have hw := w.isLt
  generalize w.toNat = x at *
  generalize f.lo = a at *
  generalize f.width = b at *
  generalize k.lo = c at *
  generalize k.width = d at *
  have e1 : x % 2 ^ a < 2 ^ a := Nat.mod_lt _ (by positivity)
  have e2 : v % 2 ^ b < 2 ^ b := Nat.mod_lt _ (by positivity)
  have lt : x % 2 ^ a + v % 2 ^ b * 2 ^ a < 2 ^ (a + b) := by
    rw [pow_add]
    have : v % 2 ^ b + 1 ≤ 2 ^ b := e2
    calc x % 2 ^ a + v % 2 ^ b * 2 ^ a < 2 ^ a + v % 2 ^ b * 2 ^ a := by omega
      _ = (v % 2 ^ b + 1) * 2 ^ a := by ring
      _ ≤ 2 ^ b * 2 ^ a := Nat.mul_le_mul_right _ this
      _ = 2 ^ a * 2 ^ b := by ring
  have small : x % 2 ^ a + v % 2 ^ b * 2 ^ a + x / 2 ^ (a + b) * 2 ^ (a + b) < 2 ^ 32 := by
    have hx : x / 2 ^ (a + b) < 2 ^ (32 - (a + b)) := by
      rw [Nat.div_lt_iff_lt_mul (by positivity), ← pow_add]
      convert hw using 2; omega
    calc _ < 2 ^ (a + b) + x / 2 ^ (a + b) * 2 ^ (a + b) := by omega
      _ = (x / 2 ^ (a + b) + 1) * 2 ^ (a + b) := by ring
      _ ≤ 2 ^ (32 - (a + b)) * 2 ^ (a + b) := Nat.mul_le_mul_right _ hx
      _ = 2 ^ 32 := by rw [← pow_add]; congr 1; omega
  rw [Nat.mod_eq_of_lt small]
  rcases hd with hd | hd
  · have e : x % 2 ^ a + v % 2 ^ b * 2 ^ a + x / 2 ^ (a + b) * 2 ^ (a + b) =
        x % 2 ^ a + v % 2 ^ b * 2 ^ a + 2 ^ (a + b) * (x / 2 ^ (a + b)) := by ring
    have hc : 2 ^ c = 2 ^ (a + b) * 2 ^ (c - (a + b)) := by rw [← pow_add]; congr 1; omega
    rw [e, hc, ← Nat.div_div_eq_div_mul, Nat.add_mul_div_left _ _ (by positivity), Nat.div_eq_of_lt lt, zero_add,
      Nat.div_div_eq_div_mul]
  · have hA : 2 ^ a = 2 ^ c * (2 ^ d * 2 ^ (a - (c + d))) := by rw [← pow_add, ← pow_add]; congr 1; omega
    have e : x % 2 ^ a + v % 2 ^ b * 2 ^ a + x / 2 ^ (a + b) * 2 ^ (a + b) =
        x % 2 ^ a + 2 ^ c * (2 ^ d * (2 ^ (a - (c + d)) * (v % 2 ^ b + 2 ^ b * (x / 2 ^ (a + b))))) := by
      rw [pow_add 2 a b]
      generalize x / (2 ^ a * 2 ^ b) = y
      have : x % 2 ^ a + v % 2 ^ b * 2 ^ a + y * (2 ^ a * 2 ^ b) = x % 2 ^ a + 2 ^ a * (v % 2 ^ b + 2 ^ b * y) := by ring
      rw [this]
      congr 1
      conv_lhs => rw [hA]
      ring
    rw [e, Nat.add_mul_div_left _ _ (by positivity), Nat.add_mul_mod_self_left, hA, Nat.mod_mul_right_div_self,
      Nat.mod_mul_right_mod]

/-- A field read after it was written. -/
theorem State.rd_wr_same (s : State) (a : Nat) (f : Fld) (v : Nat) (h : f.lo + f.width ≤ 32) :
    (s.wr a f v).rd a f = v % 2 ^ f.width := by
  unfold State.rd
  rw [State.reg_wr_same, Fld.get_put _ _ _ h]

/-- Another field of the register. -/
theorem State.rd_wr_apart (s : State) (a : Nat) (f k : Fld) (v : Nat) (h : f.lo + f.width ≤ 32) (hk : k.lo + k.width ≤ 32)
    (hd : f.lo + f.width ≤ k.lo ∨ k.lo + k.width ≤ f.lo) : (s.wr a f v).rd a k = s.rd a k := by
  unfold State.rd
  rw [State.reg_wr_same, Fld.get_put_ne _ _ _ _ h hk hd]

/-- A field of another register. -/
theorem State.rd_wr_ne (s : State) {a b : Nat} (f k : Fld) (v : Nat) (h : a ≠ b) : (s.wr b f v).rd a k = s.rd a k := by
  unfold State.rd
  rw [State.reg_wr_ne _ _ _ h]

/-- A field, after an event. -/
theorem State.rd_raise (s : State) (src code : Nat) (ws : List Nat) {a : Nat} (f : Fld) (h : a ≠ LEDGER_EVT)
    (h' : a ≠ LEDGER_CNT) : (s.raise src code ws).rd a f = s.rd a f := by
  unfold State.rd
  rw [State.reg_raise _ _ _ _ h h']

end Sys2Proof.Machine
end

