-- ==== Sys2Proof/Laws/Store.lean ====
section
/-!
SUPPORT. What a store of a grain leaves: its bytes, and everything else as it was.
-/

set_option Elab.async false

namespace Sys2Proof.Machine

/-- The grain and offset of an address of local memory at its alias (R157). -/
theorem aliasAt_lin (K blk i off a : Nat) (hK : K = 1 ∧ blk < 7 ∨ K = 2 ∧ blk < 4 ∨ K = 3 ∧ blk < 3) (hi : i < 4) (ho : off < 0x20000) (hl : off < localBytes (K * 256 + blk * 16 + i)) 
   (ha : 0x41000000 + K * 0x1000000 + blk * 0x100000 + 0x80000 + i * 0x20000 + off = a) : aliasAt a = some (K * 256 + blk * 16 + i, off) := by
  have h1 : a % 0x100000 = 0x80000 + i * 0x20000 + off := by omega
  have h2 : a / 0x100000 % 16 = blk := by omega
  have h3 : a / 0x1000000 = 0x41 + K := by omega
  have h4 : 0x42000000 ≤ a ∧ a < 0x45000000 ∧ 0x80000 ≤ 0x80000 + i * 0x20000 + off := by omega
  have hb : blockAt a = some (K * 256 + blk * 16 + 15) := by
    clear h1 h4 hl ho ha
    unfold blockAt
    rw [h2, h3]
    rcases hK with ⟨rfl, h⟩ | ⟨rfl, h⟩ | ⟨rfl, h⟩ <;> simp [h]
  have e1 : (K * 256 + blk * 16 + 15) / 16 * 16 + (0x80000 + i * 0x20000 + off - 0x80000) / 0x20000 = K * 256 + blk * 16 + i := by omega
  have e2 : (0x80000 + i * 0x20000 + off - 0x80000) % 0x20000 = off := by omega
  clear ha h2 h3
  unfold aliasAt
  rw [h1]
  dsimp only
  rw [if_pos h4, hb]
  dsimp only
  rw [e1, e2, if_pos hl]

/-- A grain's own memory at its alias is its own (R157). -/
theorem aliasAt_own (g : GrainId) (off : Nat) (h : off < localBytes g.src) : aliasAt (aliasBase g.src + off) = some (g.src, off) := by
  have main : ∀ K blk i, (K = 1 ∧ blk < 7 ∨ K = 2 ∧ blk < 4 ∨ K = 3 ∧ blk < 3) → i < 4 → g.src = K * 256 + blk * 16 + i →
      aliasAt (aliasBase g.src + off) = some (g.src, off) := by
    intro K blk i hK hi e
    have hoff : off < 0x20000 := by
      have : localBytes g.src ≤ 0x20000 := by unfold localBytes; split <;> omega
      omega
    have hb : aliasBase g.src = 0x41000000 + K * 0x1000000 + blk * 0x100000 + 0x80000 + i * 0x20000 := by
      unfold aliasBase windowOf
      dsimp only
      have e1 : g.src / 256 = K := by omega
      have e2 : g.src / 16 % 16 = blk := by omega
      have e3 : g.src % 16 = i := by omega
      rw [e1, e2, e3]
      rcases hK with ⟨rfl, h⟩ | ⟨rfl, h⟩ | ⟨rfl, h⟩ <;> simp
    rw [e]
    exact aliasAt_lin K blk i off _ hK hi hoff (by rw [← e]; exact h) (by rw [← e, hb])
  cases g with
  | ctl g => exact main 3 (g / 4) (g % 4) (by omega) (by omega) (by simp only [GrainId.src])
  | vec g => exact main 2 (g / 4) (g % 4) (by omega) (by omega) (by simp only [GrainId.src])
  | link g => exact main 1 (g / 4) (g % 4) (by omega) (by omega) (by simp only [GrainId.src])

/-- What was stored stands while memory stands and the monitors alone change in the fabric. -/
theorem State.Stored.congr {s u u' : State} {p n v : Nat} (h : s.Stored p n v u) (hm : u'.mem = u.mem) (hf : ∃ m, u'.fab = { u.fab with pmon := m }) : s.Stored p n v u' := by
  obtain ⟨m, hm'⟩ := hf
  obtain ⟨a, b, c, hh⟩ := h.fab
  refine ⟨fun x => ?_, m, b, c, by rw [hm', hh]⟩
  rw [← h.bytes x]
  unfold State.byte
  rw [hm]

/-- A store of `n` bytes, alone. -/
theorem State.stored_storeLE {s : State} {g : GrainId} {t p n v : Nat} :
   s.Did g t [.mem_, .fab_] id ((s.at t).storeLE p n v) ∧ s.Stored p n v ((s.at t).storeLE p n v) := by
  obtain ⟨me, po, m, e⟩ := State.storeLE_eq (s.at t) p n v
  refine ⟨?_, fun a => State.byte_storeLE _ _ _ _ _, ?_⟩
  · rw [e]
    refine ⟨rfl, rfl, rfl, fun _ _ => rfl, .inl (by simp), fun q hq => ?_⟩
    have := (s.did_at g t []).rest q
    cases q <;> first | (simp at hq; done) | exact this (by simp)
  · rw [e]
    exact ⟨_, _, _, rfl⟩

/-- Completing the instruction leaves what was stored. -/
theorem State.Stored.stepOn {s u : State} {g : GrainId} {p n v : Nat} (h : s.Stored p n v u) : s.Stored p n v (u.stepOn g.src) := by
  have : ∃ m, (u.stepOn g.src).fab = { u.fab with pmon := m } ∧ (u.stepOn g.src).mem = u.mem := by
    unfold State.stepOn State.retired
    dsimp only
    split
    · exact ⟨_, rfl, rfl⟩
    · obtain ⟨m, e⟩ := State.count_eq (((u.setPc g.src (u.pc g.src + 4))).updGrain g.src (fun x => { x with retired := (u.setPc g.src (u.pc g.src + 4)).now })) (monSrc g.src 0) 1
      rw [e]
      exact ⟨_, rfl, rfl⟩
  obtain ⟨m, h1, h2⟩ := this
  exact State.Stored.congr h h2 ⟨m, h1⟩

end Sys2Proof.Machine
end

