-- ==== Sys2Proof/Laws/Writes.lean ====
section
/-!
SUPPORT. What a write of a register does when it is admitted, and when it is refused (R513).
-/

set_option Elab.async false

namespace Sys2Proof.Machine

/-- The machine with the response of the latest access from outside a grain. -/
theorem State.busWrite_eq {s : State} {src a v : Nat} {r : RegRow} (h : s.Admits a v r) :
    s.busWrite src a v = { s.regWrite src a v r with
      fab := { (s.regWrite src a v r).fab with rdata := 0, rerr := false } } := by
  have ha : a / 4 * 4 = a := by have := h.aligned; omega
  unfold State.busWrite State.busStore
  dsimp only
  rw [ha, h.place]
  dsimp only
  rw [if_neg (by rw [h.reach, h.answers, h.aligned]; simp), h.row]
  dsimp only
  rw [Nat.mod_eq_of_lt h.word]
  rfl

/-- An admitted write of a register that is no half of a pair takes effect. -/
theorem State.regWrite_admitted {s : State} {src a v : Nat} {r : RegRow} (h : s.Admits a v r) (hp : writePair a = none) :
    s.regWrite src a v r = s.regTake src a v r (mergeWord a r (s.reg a) (BitVec.ofNat 32 v)) := by
  unfold State.regWrite
  dsimp only
  rw [h.rule]
  simp only [Bool.false_eq_true, ↓reduceIte]
  have hr : (r.fields.any fun f => f.outside (BitVec.ofNat 32 v)) = false := by
    rw [List.any_eq_false]
    intro f hf
    rw [h.range f hf]
    decide
  rw [hr]
  have hg : (gatedWrite a r (s.reg a) (mergeWord a r (s.reg a) (BitVec.ofNat 32 v)) v && !s.unlocked) = false := by
    cases hq : gatedWrite a r (s.reg a) (mergeWord a r (s.reg a) (BitVec.ofNat 32 v)) v
    · rfl
    · rw [h.gate hq]; rfl
  rw [hg]
  simp only [Bool.or_self, Bool.false_eq_true, ↓reduceIte, hp]

/-- An admitted write that the change log does not record: the register takes its word and the effects follow. -/
theorem State.regTake_plain {s : State} {src a v : Nat} {r : RegRow} {new : Word} (h : gatedWrite a r (s.reg a) new v = false)
    (hl : writePairLow a = none) : s.regTake src a v r new = (s.setReg a new).writeEffect a v (s.reg a) := by
  unfold State.regTake State.takeLow
  dsimp only
  rw [h, hl]
  rfl

/-- A register without RWL fields is never gated. -/
theorem gatedWrite_free {a : Nat} {r : RegRow} (h : r.fields.all (fun f => f.acc != .rwl) = true) (ha : a ≠ LEDGER_CTL)
    (old new : Word) (v : Nat) : gatedWrite a r old new v = false := by
  unfold gatedWrite
  rw [beq_eq_false_iff_ne.mpr ha, Bool.false_and, Bool.or_false, List.any_eq_false]
  intro f hf
  have := List.all_eq_true.mp h f hf
  simp only [bne_iff_ne, ne_eq] at this
  rw [beq_eq_false_iff_ne.mpr this]
  simp

/-- Whether the register at an address has no field behind the configuration gate. -/
def freeReg (a : Nat) : Bool := (regRow? a).all (fun r => r.fields.all (fun f => f.acc != .rwl))

/-- A write to a register without gated fields, admitted: the machine it leads to. -/
theorem State.writeReg_plain {s : State} {src a v t : Nat} {r : RegRow} (h : (s.at t).Admits a v r)
    (hf : freeReg a = true) (ha : a ≠ LEDGER_CTL) (hp : writePair a = none)
    (hl : writePairLow a = none) : ∃ u : State,
      u = ((s.at t).setReg a (mergeWord a r (s.reg a) (BitVec.ofNat 32 v))).writeEffect a v (s.reg a) ∧
      writeReg s src a v t = .next { u with fab := { u.fab with rdata := 0, rerr := false } } := by
  have hf' : r.fields.all (fun f => f.acc != .rwl) = true := by
    unfold freeReg at hf
    rw [h.row] at hf
    exact hf
  refine ⟨_, rfl, ?_⟩
  unfold writeReg
  rw [State.busWrite_eq h, State.regWrite_admitted h hp, State.regTake_plain (gatedWrite_free hf' ha _ _ _) hl]
  rfl

/-! ## The effects of a write, by region -/

theorem State.writeEffect_fb (s : State) {a : Nat} (v : Nat) (o : Word) (h : a / 0x1000000 = 0x40) :
    s.writeEffect a v o = s.effFB a v o := by
  unfold State.writeEffect
  rw [h]
  rfl

theorem State.writeEffect_sv (s : State) {a : Nat} (v : Nat) (o : Word) (h : a / 0x1000000 = 0x41) :
    s.writeEffect a v o = s.effFB a v o := by
  unfold State.writeEffect
  rw [h]
  rfl

theorem State.writeEffect_aq (s : State) {a : Nat} (v : Nat) (o : Word) (h : a / 0x1000000 = 0x42) :
    s.writeEffect a v o = s.effAQ a v o := by
  unfold State.writeEffect
  rw [h]
  rfl

theorem State.writeEffect_es (s : State) {a : Nat} (v : Nat) (o : Word) (h : a / 0x1000000 = 0x43) :
    s.writeEffect a v o = s.effES a v := by
  unfold State.writeEffect
  rw [h]
  rfl

theorem State.writeEffect_ct (s : State) {a : Nat} (v : Nat) (o : Word) (h : a / 0x1000000 = 0x44) :
    s.writeEffect a v o = s.effCT a v o := by
  unfold State.writeEffect
  rw [h]
  rfl

theorem State.writeEffect_pw (s : State) {a : Nat} (v : Nat) (o : Word) (h : a / 0x1000000 = 0x45) :
    s.writeEffect a v o = s.effPW a v o := by
  unfold State.writeEffect
  rw [h]
  rfl

theorem State.writeEffect_ps (s : State) {a : Nat} (v : Nat) (o : Word) (h : a / 0x1000000 = 0x46) :
    s.writeEffect a v o = s.effPS a v o := by
  unfold State.writeEffect
  rw [h]
  rfl

theorem State.writeEffect_sf (s : State) {a : Nat} (v : Nat) (o : Word) (h : a / 0x1000000 = 0x47) :
    s.writeEffect a v o = s.effSF a v := by
  unfold State.writeEffect
  rw [h]
  rfl

end Sys2Proof.Machine
end

