-- ==== Sys2Proof/WellFormed.lean ====
section
/-!
DEFINITION. Which commands are well formed: the ranges of operands that their types do not give.
-/

namespace Sys2Proof

/-- A 32-bit value. -/
def isWord (v : Nat) : Bool := decide (v < 2 ^ 32)

/-- A source identifier, 12 bits (R167). -/
def isSource (src : Nat) : Bool := decide (src < 4096)

/-- The source of a programmable grain (R167). -/
def isGrain (src : Nat) : Bool := (Sys2Proof.Machine.grainOfSrc src).isSome

/-- At most `n` bytes. -/
def isBytes (n : Nat) (l : List Nat) : Bool := decide (l.length ≤ n) && l.all (fun b => decide (b < 256))

/-- The body of a frame on a cell link: 3 to 120 bytes (R36, R73). -/
def isFrame (l : List Nat) : Bool := decide (3 ≤ l.length) && isBytes 120 l

/-- Snapshot words of an event: at most 12, 32 bits each (R419). -/
def isWords (l : List Nat) : Bool := decide (l.length ≤ 12) && l.all isWord

/-- A node key, if there is one: 16 bytes (R68). -/
def keyOk : Option (List Nat) → Bool
  | none => true
  | some k => k.length == 16 && isBytes 16 k

/-- A command whose operands are in their ranges. -/
def Instr.wellFormed (c : Instr) : Bool :=
  match c with
  | .registerWrite src a v _ => isSource src && isWord a && isWord v
  | .rcRead a _ => isWord a
  | .sample _ _ body _ _ => isFrame body
  | .read _ _ body _ _ => isFrame body
  | .time _ _ body _ _ => isFrame body
  | .ping _ _ body _ _ => isFrame body
  | .enum _ _ body _ _ => isFrame body
  | .setdly _ _ body _ _ => isFrame body
  | .run _ _ body _ _ => isFrame body
  | .bal _ _ body _ _ _ => isFrame body
  | .owt _ _ body _ _ => isFrame body
  | .auth _ _ body _ _ => isFrame body
  | .wreg _ _ body _ _ => isFrame body
  | .rreg _ _ body _ _ => isFrame body
  | .reset _ _ body _ _ => isFrame body
  | .nodeUnknownCommand _ _ body _ _ => isFrame body
  | .nodeAnswerSend _ _ _ => true
  | .nodeSlotResponse _ _ _ => true
  | .nodeConversionStep _ _ _ _ => true
  | .nodeSweepConversionsEnd _ _ _ _ _ _ => true
  | .nodeStreamSample _ _ _ _ => true
  | .nodeAuthComputeDone _ _ _ => true
  | .nodeBalTimeout _ _ _ => true
  | .nodeSleepTimeout _ _ _ => true
  | .nodeWakeTone _ _ _ _ => true
  | .nodeInsulationMeasure _ _ rpos rneg _ _ => isWord rpos && isWord rneg
  | .crec _ body _ _ _ => isFrame body
  | .srec _ body _ _ _ => isFrame body
  | .brec _ body _ _ _ => isFrame body
  | .pong _ body _ _ _ => isFrame body
  | .eack _ body _ _ _ => isFrame body
  | .arsp _ body _ _ _ => isFrame body
  | .rrep _ body _ _ _ => isFrame body
  | .nak _ body _ _ _ => isFrame body
  | .slotWindowClose _ _ => true
  | .timeMarker _ _ => true
  | .recalibration _ _ _ => true
  | .portEnumeration _ _ _ => true
  | .enumEackTimeout _ _ => true
  | .authPeriod _ _ _ => true
  | .authCollect _ _ => true
  | .ringEnd0FrameTimeout _ _ => true
  | .ringEnd0FrameAtEnd1 _ body _ _ => isFrame body
  | .lsend _ _ _ _ _ _ => true
  | .lsendLaunch _ _ => true
  | .ltarm _ _ _ _ => true
  | .lrecv _ _ _ _ => true
  | .lrecvComplete _ _ => true
  | .lping _ _ _ _ => true
  | .lpingComplete _ _ => true
  | .lwake _ _ _ => true
  | .lstat _ _ _ _ => true
  | .lslot _ _ _ _ => true
  | .wake src _ v _ => isSource src && isWord v
  | .sweepGridPoint _ => true
  | .sweepDeadlineMiss _ _ _ => true
  | .retryRead _ _ => true
  | .chainBreakLocate _ _ => true
  | .nodeStaleTimeout _ _ _ => true
  | .streamOnlyRead _ slot _ => decide (slot < 2 ^ 16)
  | .meanWindowEnd _ => true
  | .owtPeriodic _ => true
  | .owtnow src v _ => isSource src && isWord v
  | .trig src v _ => isSource src && isWord v
  | .windowFreeze _ => true
  | .windowHoldClear src v _ => isSource src && isWord v
  | .phaseDecimatorOutput _ _ _ => true
  | .phaseSumWrite _ _ => true
  | .pdatNoTransition _ _ => true
  | .aicSample _ _ _ => true
  | .ainConversion _ _ _ => true
  | .ainTimeout _ _ => true
  | .streamStale _ _ => true
  | .xchkWindowEnd _ => true
  | .offsetMeasure _ _ => true
  | .currentAtInstant _ _ _ => true
  | .cfbSample _ _ _ => true
  | .tripVerdict _ _ => true
  | .derateHoldExpire _ _ => true
  | .rampPark _ _ => true
  | .rampTimeout _ _ => true
  | .zeroCurrentOpen _ _ => true
  | .openTimeout _ _ => true
  | .tripClr src v _ => isSource src && isWord v
  | .tripProgramRequest src v _ => isSource src && isWord v
  | .dlimDisWrite src _ v _ => isSource src && isWord v
  | .dlimExceed _ _ => true
  | .dlimStale _ _ => true
  | .contactorClose src _ v _ => isSource src && isWord v
  | .contactorOpen src _ v _ => isSource src && isWord v
  | .closeWaitEnd _ _ => true
  | .pullInTimeout _ _ => true
  | .economiserStart _ _ => true
  | .weldCheckTimeout _ _ => true
  | .prechargeStart src v _ => isSource src && isWord v
  | .prechargeTimeout _ => true
  | .join src v _ => isSource src && isWord v
  | .abort src v _ => isSource src && isWord v
  | .preseqComplete _ => true
  | .pwResetHold _ => true
  | .lb _ _ _ _ _ => true
  | .lh _ _ _ _ _ => true
  | .lw _ _ _ _ _ => true
  | .lbu _ _ _ _ _ => true
  | .lhu _ _ _ _ _ => true
  | .loadComplete _ _ => true
  | .sb _ _ _ _ _ => true
  | .sh _ _ _ _ _ => true
  | .sw _ _ _ _ _ => true
  | .impreciseBusError _ _ => true
  | .add _ _ _ _ _ => true
  | .sub _ _ _ _ _ => true
  | .and _ _ _ _ _ => true
  | .or _ _ _ _ _ => true
  | .xor _ _ _ _ _ => true
  | .sll _ _ _ _ _ => true
  | .srl _ _ _ _ _ => true
  | .sra _ _ _ _ _ => true
  | .slt _ _ _ _ _ => true
  | .sltu _ _ _ _ _ => true
  | .min _ _ _ _ _ => true
  | .max _ _ _ _ _ => true
  | .minu _ _ _ _ _ => true
  | .maxu _ _ _ _ _ => true
  | .slli _ _ _ _ _ => true
  | .srli _ _ _ _ _ => true
  | .srai _ _ _ _ _ => true
  | .clz _ _ _ _ => true
  | .ctz _ _ _ _ => true
  | .popc _ _ _ _ => true
  | .mul _ _ _ _ _ => true
  | .mulh _ _ _ _ _ => true
  | .mulhu _ _ _ _ _ => true
  | .div _ _ _ _ _ => true
  | .divu _ _ _ _ _ => true
  | .rem _ _ _ _ _ => true
  | .remu _ _ _ _ _ => true
  | .addi _ _ _ _ _ => true
  | .slti _ _ _ _ _ => true
  | .sltiu _ _ _ _ _ => true
  | .andi _ _ _ _ _ => true
  | .ori _ _ _ _ _ => true
  | .xori _ _ _ _ _ => true
  | .lui _ _ _ _ => true
  | .srr _ _ _ _ => true
  | .srw _ _ _ _ => true
  | .beq _ _ _ _ _ => true
  | .bne _ _ _ _ _ => true
  | .blt _ _ _ _ _ => true
  | .bge _ _ _ _ _ => true
  | .bltu _ _ _ _ _ => true
  | .bgeu _ _ _ _ _ => true
  | .j _ _ _ => true
  | .jal _ _ _ => true
  | .jalr _ _ _ _ _ => true
  | .flw _ _ _ _ _ => true
  | .fld _ _ _ _ _ => true
  | .fsw _ _ _ _ _ => true
  | .fsd _ _ _ _ _ => true
  | .fadd _ _ _ _ _ _ => true
  | .fsub _ _ _ _ _ _ => true
  | .fmul _ _ _ _ _ _ => true
  | .fdiv _ _ _ _ _ _ => true
  | .fsqrt _ _ _ _ _ => true
  | .fmla _ _ _ _ _ _ _ => true
  | .fmls _ _ _ _ _ _ _ => true
  | .fmnl _ _ _ _ _ _ _ => true
  | .fmin _ _ _ _ _ _ => true
  | .fmax _ _ _ _ _ _ => true
  | .fabs _ _ _ _ _ => true
  | .fneg _ _ _ _ _ => true
  | .fceq _ _ _ _ _ _ => true
  | .fclt _ _ _ _ _ _ => true
  | .fcle _ _ _ _ _ _ => true
  | .fkind _ _ _ _ _ => true
  | .ftoi _ _ _ _ _ => true
  | .itof _ _ _ _ _ => true
  | .fnarrow _ _ _ _ => true
  | .fwiden _ _ _ _ => true
  | .fmvgfLo _ _ _ _ => true
  | .fmvgfHi _ _ _ _ => true
  | .fmvfgLo _ _ _ _ => true
  | .fmvfgHi _ _ _ _ => true
  | .fcun _ _ _ _ _ _ => true
  | .amoadd _ _ _ _ _ => true
  | .amoswap _ _ _ _ _ => true
  | .amocas _ _ _ _ _ => true
  | .qput _ _ _ _ _ => true
  | .qget _ _ _ _ => true
  | .qtry _ _ _ _ => true
  | .waitq _ _ _ _ => true
  | .queueWaitResume _ _ => true
  | .qputhi src _ v _ => isSource src && isWord v
  | .qgetlo _ _ => true
  | .fence _ _ => true
  | .pfence _ _ => true
  | .fenceComplete _ _ => true
  | .eret _ _ => true
  | .ibget _ _ _ => true
  | .ipost _ _ _ _ => true
  | .trap _ _ _ => true
  | .brk _ _ => true
  | .dlarm _ _ _ _ => true
  | .dldone _ _ _ _ => true
  | .trapEntry _ _ => true
  | .inboxHoldRelease src dest _ => isSource src && isGrain dest
  | .vaddI _ _ _ _ _ _ _ => true
  | .vsubI _ _ _ _ _ _ _ => true
  | .vmulI _ _ _ _ _ _ _ => true
  | .vand _ _ _ _ _ _ _ => true
  | .vor _ _ _ _ _ _ _ => true
  | .vxor _ _ _ _ _ _ _ => true
  | .vsll _ _ _ _ _ _ _ => true
  | .vsrl _ _ _ _ _ _ _ => true
  | .vsra _ _ _ _ _ _ _ => true
  | .vminI _ _ _ _ _ _ _ => true
  | .vmaxI _ _ _ _ _ _ _ => true
  | .vminu _ _ _ _ _ _ _ => true
  | .vmaxu _ _ _ _ _ _ _ => true
  | .vaddF _ _ _ _ _ _ _ => true
  | .vsubF _ _ _ _ _ _ _ => true
  | .vmulF _ _ _ _ _ _ _ => true
  | .vdivF _ _ _ _ _ _ _ => true
  | .vfma _ _ _ _ _ _ _ => true
  | .vfnma _ _ _ _ _ _ _ => true
  | .vminF _ _ _ _ _ _ _ => true
  | .vmaxF _ _ _ _ _ _ _ => true
  | .vsqrtF _ _ _ _ _ => true
  | .vabsF _ _ _ _ _ => true
  | .vnegF _ _ _ _ _ => true
  | .vcvtFI _ _ _ _ _ => true
  | .vcvtIF _ _ _ _ _ => true
  | .vld _ _ _ _ _ => true
  | .vlds _ _ _ _ _ _ => true
  | .vst _ _ _ _ _ => true
  | .vsts _ _ _ _ _ _ => true
  | .vgth _ _ _ _ _ _ => true
  | .vsct _ _ _ _ _ _ => true
  | .vcmpEqI _ _ _ _ _ _ => true
  | .vcmpNeI _ _ _ _ _ _ => true
  | .vcmpLtI _ _ _ _ _ _ => true
  | .vcmpLeI _ _ _ _ _ _ => true
  | .vcmpLtu _ _ _ _ _ _ => true
  | .vcmpLeu _ _ _ _ _ _ => true
  | .vcmpEqF _ _ _ _ _ _ => true
  | .vcmpLtF _ _ _ _ _ _ => true
  | .vcmpLeF _ _ _ _ _ _ => true
  | .vcmpUnF _ _ _ _ _ _ => true
  | .pand _ _ _ _ _ => true
  | .por _ _ _ _ _ => true
  | .pxor _ _ _ _ _ => true
  | .pnot _ _ _ _ => true
  | .pmv _ _ _ _ => true
  | .pget _ _ _ _ => true
  | .vbcast _ _ _ _ _ => true
  | .vins _ _ _ _ _ => true
  | .vext _ _ _ _ _ => true
  | .vsel _ _ _ _ _ _ => true
  | .vmv _ _ _ _ _ => true
  | .vid _ _ _ _ => true
  | .vredaddI _ _ _ _ _ => true
  | .vredaddF _ _ _ _ _ => true
  | .vredmaxF _ _ _ _ _ => true
  | .vredminF _ _ _ _ _ => true
  | .vredmaxI _ _ _ _ _ => true
  | .vredminI _ _ _ _ _ => true
  | .vtld _ _ _ _ => true
  | .vtab2 _ _ _ _ _ _ _ => true
  | .vexp _ _ _ _ _ => true
  | .vcorr _ _ _ _ _ _ => true
  | .corrLaneAccumulate _ _ => true
  | .corrClr src _ v _ => isSource src && isWord v
  | .corrClearDone _ _ => true
  | .kcall _ _ _ _ => true
  | .kernelCellStateFilter _ _ => true
  | .kernelCapacity _ _ => true
  | .kernelResistance _ _ => true
  | .kernelPowerLimits _ _ => true
  | .kernelImpedance _ _ => true
  | .kernelInternalTemperature _ _ => true
  | .kernelSelfDischarge _ _ => true
  | .kernelAggregationPartial _ _ => true
  | .kernelAggregationFinal _ _ => true
  | .shareWeightWrite src _ v _ => isSource src && isWord v
  | .weightsStale _ => true
  | .vbusSourceRecover _ => true
  | .phasePeriodStart _ _ _ _ _ => true
  | .phaseDecayDone _ _ => true
  | .phen src _ v _ => isSource src && isWord v
  | .refreshPulse _ _ => true
  | .delayLineRecal _ => true
  | .pwmEdge _ _ _ _ => true
  | .psyncEdge _ _ => true
  | .psyncLoss _ => true
  | .syncHoldExpire _ => true
  | .vset _ payload _ => decide (payload < 2 ^ 24)
  | .statq _ _ => true
  | .iff _ payload _ => decide (payload < 2 ^ 24)
  | .limq _ _ => true
  | .bvlUnknownType _ _ _ => true
  | .bvlFrameDiscard _ _ => true
  | .bvlResponseSend _ => true
  | .vsetSettled _ => true
  | .iffTimeout _ => true
  | .limPeriodic _ => true
  | .bvlSilence _ => true
  | .bvlFallback _ => true
  | .bvlClockLoss _ => true
  | .capmoveTimeout _ _ => true
  | .excStart src v _ => isSource src && isWord v
  | .excStop src v _ => isSource src && isWord v
  | .excEnvelopeEnd _ => true
  | .excCompTimeout _ => true
  | .desatFlag _ _ _ _ => true
  | .blankEnd _ _ _ => true
  | .fastOvercurrent _ _ _ _ => true
  | .feedbackChange _ _ _ _ => true
  | .interlockTimeout _ _ => true
  | .stopHardOff _ _ => true
  | .stopEnd _ => true
  | .gateKillAssert _ => true
  | .gateKillHardOff _ => true
  | .gateKillRelease _ => true
  | .gdUvLow _ => true
  | .gdUvHigh _ => true
  | .testModeEnter src v _ => isSource src && isWord v
  | .testCommand src v _ => isSource src && isWord v
  | .leakStart src v _ => isSource src && isWord v
  | .leakStepEnd _ => true
  | .retryWaitEnd _ _ => true
  | .hbclr src v _ => isSource src && isWord v
  | .channelInputChange _ _ _ _ _ _ => true
  | .loadTimerEdge _ _ => true
  | .inrushWindowEnd _ _ => true
  | .channelThermalTrip _ _ _ _ _ => true
  | .channelThermalRestart _ _ _ => true
  | .channelPrewarn _ _ _ => true
  | .channelSensorBroken _ _ => true
  | .channelSenseFault _ _ => true
  | .channelOpenLoad _ _ => true
  | .vswLow _ _ => true
  | .vswRecover _ => true
  | .lsclr src v _ => isSource src && isWord v
  | .sfInit _ _ _ _ _ => true
  | .safetyCycle _ _ _ => true
  | .sfInternalFault _ => true
  | .sfAliveTimeout _ => true
  | .romCheck _ _ => true
  | .proofDue _ => true
  | .pairInputChange _ _ _ _ => true
  | .pairDiscrepancy _ _ => true
  | .testPulse _ _ _ => true
  | .srsTimeout _ => true
  | .srsCurrentLost _ => true
  | .sfRecordCopy _ _ => true
  | .sceStale _ _ _ => true
  | .sfVerdictCopy _ => true
  | .execCheckTimeout _ => true
  | .resetPress _ _ _ => true
  | .resetStuck _ _ => true
  | .sealChange _ _ _ => true
  | .mailboxGo src v _ => isSource src && isWord v
  | .connWatchdog _ _ => true
  | .producerFrame _ _ => true
  | .txack src v _ => isSource src && isWord v
  | .mailboxReq src v _ => isSource src && isWord v
  | .canEnable src _ v _ => isSource src && isWord v
  | .canStandby src _ v _ => isSource src && isWord v
  | .canCommit src _ v _ => isSource src && isWord v
  | .canAbort src _ v _ => isSource src && isWord v
  | .canFrameReceived _ w0 w1 data _ _ => isWord w0 && isWord w1 && isBytes 1024 data
  | .canTxComplete _ _ _ _ => true
  | .canTxError _ _ _ _ _ _ => true
  | .canArbitration _ _ _ => true
  | .borel src _ v _ => isSource src && isWord v
  | .canBusoffRecovered _ _ => true
  | .pop src _ _ v _ => isSource src && isWord v
  | .canReferenceSend _ _ => true
  | .canTimeLost _ _ => true
  | .ethFrameReceived _ frame _ _ _ => isBytes 2048 frame
  | .ethFrameTransmit _ _ _ => true
  | .ethTxTimeout _ _ => true
  | .ethLinkPoll _ _ _ => true
  | .phase src v _ => isSource src && isWord v
  | .rate src v _ => isSource src && isWord v
  | .step src v _ => isSource src && isWord v
  | .disc src v _ => isSource src && isWord v
  | .discLost _ => true
  | .eventRaise src code words _ => isSource src && decide (code < 2 ^ 16) && isWords words
  | .blockEventCollect blk _ => isSource blk
  | .ledgerEventReceive blk _ => isSource blk
  | .ledgerPersist _ _ => true
  | .ledgerWearCheck _ => true
  | .commission src v _ => isSource src && isWord v
  | .sedclr src v _ => isSource src && isWord v
  | .bsrc src v _ => isSource src && isWord v
  | .ledgerWin0Read _ => true
  | .ledgerWin15Read _ => true
  | .archiveCopyDone _ => true
  | .lifetimeBlockInput _ => true
  | .lifetimeRoll _ => true
  | .lifetimeBatchDone _ => true
  | .powerFailCommitDone _ => true
  | .psBootRecovery _ => true
  | .mramScrubPass _ _ bad _ => bad.all isWord
  | .sramScrub corr bad _ => corr.all isWord && bad.all isWord
  | .beatParityFail u _ _ => isSource u
  | .vc0BeatLost u _ => isSource u
  | .faultReport _ u a _ _ => isSource u && isWord a
  | .grainLockup g _ => isGrain g
  | .recoveryWaitEnd u _ => isSource u
  | .restartComplete u _ => isSource u
  | .faultSourceTimeout u _ => isSource u
  | .fbFltRel src v _ => isSource src && isWord v
  | .psResetComplete _ => true
  | .chipResetRelease _ => true
  | .vectorSelftestDone _ _ _ => true
  | .bootRom _ _ => true
  | .hello _ _ => true
  | .write _ off data _ => isWord off && isBytes 1024 data
  | .verify _ _ => true
  | .commit _ _ => true
  | .confirm src v _ => isSource src && isWord v
  | .arbgo src v _ => isSource src && isWord v
  | .reboot src v _ => isSource src && isWord v
  | .revgo src v _ => isSource src && isWord v
  | .dbggo src v _ => isSource src && isWord v
  | .dbglock src v _ => isSource src && isWord v
  | .debugChallengeRead _ => true
  | .debugExpire _ => true
  | .otpGo src v _ => isSource src && isWord v
  | .unlock src v _ => isSource src && isWord v
  | .cgLockoutEnd _ => true
  | .lock src v _ => isSource src && isWord v
  | .cgIdleTimeout _ => true
  | .setpw src v _ => isSource src && isWord v
  | .clrpw src v _ => isSource src && isWord v
  | .keyImport src v _ => isSource src && isWord v
  | .supplyFault _ _ _ => true
  | .powerOnRelease _ _ _ _ => true
  | .powerFail _ _ => true
  | .powerFailRecovery _ _ _ => true
  | .holdExpire _ => true
  | .reclaim src v _ => isSource src && isWord v
  | .resetNLow _ => true
  | .resetNHigh _ => true
  | .clockFault _ _ => true
  | .oscVoteWindow _ _ _ _ => true
  | .rtcLoad _ => true
  | .dieSensorConvert _ _ _ _ => true
  | .bandFall _ _ => true
  | .thermalShutdown _ _ => true
  | .thermalPreseqTrigger _ => true
  | .thermalResetRelease _ => true
  | .testNLow _ => true
  | .pmonWrap _ _ => true
  | .clrall src v _ => isSource src && isWord v
  | .deadlineMiss _ _ _ => true
  | .kick src v _ => isSource src && isWord v
  | .watchdogExpire _ => true
  | .nodePowerUp _ _ _ _ _ serial key _ => decide (serial < 2 ^ 64) && keyOk key
  | .nodeBadCrcFrame _ _ body _ _ => isFrame body
  | .resetNGlitch _ => true
  | .resetStuckClear _ => true
  | .canRxError _ _ _ _ => true
  | .channelCurrentLimit _ _ _ => true
  | .channelPrewarnEnd _ _ _ => true

end Sys2Proof
end

section
/-!
PROOF. The register map: the fields of a register share no bit, and the registers that record a refused write are none that
a write can be refused for.
-/

namespace Sys2Proof.Machine

/-! ## Rows -/

/-- Every row of the register map, region by region. -/
def regRowsAll : List RegRow :=
  regRowsFB ++ regRowsAQ ++ regRowsES ++ regRowsCT ++ regRowsPW ++ regRowsPS ++ regRowsSF

theorem mem_regRowsAll_of_mem_regRowsOf {a : Nat} {r : RegRow} (h : r ∈ regRowsOf a) : r ∈ regRowsAll := by
  unfold regRowsOf at h
  simp only [regRowsAll, List.mem_append]
  split at h
  case h_9 => cases h
  all_goals tauto

/-- The row of an address is a row of the map. -/
theorem regRow?_mem {a : Nat} {r : RegRow} (h : regRow? a = some r) : r ∈ regRowsAll :=
  mem_regRowsAll_of_mem_regRowsOf (List.mem_of_find?_eq_some h)

theorem regRow?_has {a : Nat} {r : RegRow} (h : regRow? a = some r) : r.has a = true := by
  unfold regRow? at h
  have := List.find?_some h
  exact this

/-! ## Fields -/

/-- Two fields share no bit. -/
def Fld.apart (f k : Fld) : Bool := decide (f.lo + f.width ≤ k.lo ∨ k.lo + k.width ≤ f.lo)

theorem Fld.apart_comm {f k : Fld} (h : f.apart k = true) : k.apart f = true := by
  simp only [Fld.apart, decide_eq_true_eq] at h ⊢
  exact h.symm

/-- The fields of a row lie in a 32-bit word and share no bit. -/
def RegRow.fieldsApart (r : RegRow) : Bool :=
  r.fields.all (fun f => decide (f.fld.lo + f.fld.width ≤ 32)) &&
    decide (r.fields.Pairwise (fun f k => f.fld.apart k.fld = true))

set_option maxRecDepth 10000 in
theorem regRowsAll_fieldsApart : regRowsAll.all RegRow.fieldsApart = true := by decide

theorem RegRow.field_fits {r : RegRow} (h : r.fieldsApart = true) : ∀ f ∈ r.fields, f.fld.lo + f.fld.width ≤ 32 := by
  intro f hf
  simp only [RegRow.fieldsApart, Bool.and_eq_true, List.all_eq_true, decide_eq_true_eq] at h
  exact h.1 f hf

theorem RegRow.fields_pairwise {r : RegRow} (h : r.fieldsApart = true) :
    r.fields.Pairwise (fun f k => f.fld.apart k.fld = true) := by
  simp only [RegRow.fieldsApart, Bool.and_eq_true, decide_eq_true_eq] at h
  exact h.2

theorem regRow?_fieldsApart {a : Nat} {r : RegRow} (h : regRow? a = some r) : r.fieldsApart = true :=
  List.all_eq_true.mp regRowsAll_fieldsApart r (regRow?_mem h)

theorem Fld.get_lt (f : Fld) (w : Word) : f.get w < 2 ^ f.width := Nat.mod_lt _ (by positivity)

/-! ## The fields of the word written (R3) -/

section Merge

variable {keep : Bool} {v : Word}

/-- Merging one field leaves the fields apart from it. -/
theorem get_mergeField_apart {f k : FieldDesc} (w : Word) (hf : f.fld.lo + f.fld.width ≤ 32)
    (hk : k.fld.lo + k.fld.width ≤ 32) (h : f.fld.apart k.fld = true) :
    k.fld.get (mergeField keep v w f) = k.fld.get w := by
  have put (x : Nat) : k.fld.get (f.fld.put w x) = k.fld.get w :=
    Fld.get_put_ne f.fld k.fld w x hf hk (by simpa only [Fld.apart, decide_eq_true_eq] using h)
  unfold mergeField
  split
  · exact put _
  · exact put _
  · exact put _
  · exact put _
  · split
    · exact put _
    · rfl
  · rfl
  · rfl

/-- What merging makes of a field depends on that field of the word alone. -/
theorem get_mergeField_congr {f : FieldDesc} {w x : Word} (hf : f.fld.lo + f.fld.width ≤ 32) (h : f.fld.get w = f.fld.get x) :
    f.fld.get (mergeField keep v w f) = f.fld.get (mergeField keep v x f) := by
  unfold mergeField
  split
  · simp only [Fld.get_put _ _ _ hf]
  · simp only [Fld.get_put _ _ _ hf]
  · simp only [Fld.get_put _ _ _ hf]
  · simp only [Fld.get_put _ _ _ hf, h]
  · split
    · simp only [Fld.get_put _ _ _ hf]
    · exact h
  · exact h
  · exact h

/-- Merging fields that are all apart from `k` leaves `k`. -/
theorem get_foldl_mergeField_apart {k : FieldDesc} (hk : k.fld.lo + k.fld.width ≤ 32) (fs : List FieldDesc) (w : Word)
    (h : ∀ f ∈ fs, f.fld.lo + f.fld.width ≤ 32 ∧ f.fld.apart k.fld = true) :
    k.fld.get (fs.foldl (mergeField keep v) w) = k.fld.get w := by
  induction fs generalizing w with
  | nil => rfl
  | cons f fs ih =>
    obtain ⟨hf, hd⟩ := h f List.mem_cons_self
    rw [List.foldl_cons, ih _ (fun g hg => h g (List.mem_cons_of_mem _ hg)), get_mergeField_apart w hf hk hd]

/-- Where fields share no bit, each of them is merged as if it stood alone. -/
theorem get_foldl_mergeField {fs : List FieldDesc} (w : Word) (hfit : ∀ f ∈ fs, f.fld.lo + f.fld.width ≤ 32)
    (hd : fs.Pairwise (fun f k => f.fld.apart k.fld = true)) {k : FieldDesc} (hk : k ∈ fs) :
    k.fld.get (fs.foldl (mergeField keep v) w) = k.fld.get (mergeField keep v w k) := by
  induction fs generalizing w with
  | nil => cases hk
  | cons f fs ih =>
    obtain ⟨hf, hfs⟩ := List.forall_mem_cons.mp hfit
    obtain ⟨hhead, htail⟩ := List.pairwise_cons.mp hd
    rw [List.foldl_cons]
    rcases List.mem_cons.mp hk with rfl | hk
    · exact get_foldl_mergeField_apart hf fs _ (fun g hg => ⟨hfs g hg, Fld.apart_comm (hhead g hg)⟩)
    · rw [ih _ hfs htail hk]
      exact get_mergeField_congr (hfs k hk) (get_mergeField_apart w hf (hfs k hk) (hhead k hk))

theorem get_mergeField_rw {f : FieldDesc} (w : Word) (hf : f.fld.lo + f.fld.width ≤ 32) (h : f.acc = .rw) :
    f.fld.get (mergeField keep v w f) = f.fld.get v := by
  simp only [mergeField, h]
  rw [Fld.get_put _ _ _ hf, Nat.mod_eq_of_lt (f.fld.get_lt v)]

theorem get_mergeField_w1c {f : FieldDesc} (w : Word) (hf : f.fld.lo + f.fld.width ≤ 32) (h : f.acc = .w1c) :
    f.fld.get (mergeField keep v w f) = f.fld.get w &&& (f.fld.max - f.fld.get v) := by
  simp only [mergeField, h]
  rw [Fld.get_put _ _ _ hf, Nat.mod_eq_of_lt (Nat.lt_of_le_of_lt Nat.and_le_left (f.fld.get_lt w))]

theorem mergeField_readOnly {f : FieldDesc} (w : Word) (h : f.acc = .ro ∨ f.acc = .rc) : mergeField keep v w f = w := by
  rcases h with h | h <;> simp only [mergeField, h]

end Merge

/-- A field of the word that a register would hold, where the word is merged field by field alone. -/
theorem get_mergeWord {a : Nat} {r : RegRow} (h : regRow? a = some r) (hc : a ≠ PW_CON_STAT) (hl : a ≠ LEDGER_CTL)
    (old v : Word) {f : FieldDesc} (hf : f ∈ r.fields) :
    f.fld.get (mergeWord a r old v) = f.fld.get (mergeField (dataWindow a) v old f) := by
  have hr := regRow?_fieldsApart h
  unfold mergeWord
  rw [if_neg hc, if_neg hl]
  exact get_foldl_mergeField old (RegRow.field_fits hr) (RegRow.fields_pairwise hr) hf

/-! ## The registers that record a refusal (R172, R513) -/

/-- A field that a write sets, so that a write can be refused on its account. -/
def FieldDesc.settable (f : FieldDesc) : Bool :=
  match f.acc with
  | .rw | .rwl | .rws | .wo => true
  | .ro | .rc | .w1c => false

/-- A register that a write can be refused for: one with a settable field, or `LEDGER_CTL` with its gated commands. -/
def refusable (a : Nat) : Bool := (regRow? a).any (fun r => r.fields.any FieldDesc.settable) || a == LEDGER_CTL

theorem FieldDesc.settable_of_outside {f : FieldDesc} {v : Word} (h : f.outside v = true) : f.settable = true := by
  unfold FieldDesc.outside at h
  unfold FieldDesc.settable
  cases hf : f.acc <;> simp_all only [reduceCtorEq]

theorem refusable_of_field {a : Nat} {r : RegRow} (hr : regRow? a = some r) {f : FieldDesc} (hf : f ∈ r.fields)
    (h : f.settable = true) : refusable a = true := by
  unfold refusable
  rw [hr, Option.any_some, List.any_eq_true.mpr ⟨f, hf, h⟩, Bool.true_or]

/-- A gated write is one to a refusable register. -/
theorem refusable_of_gatedWrite {a : Nat} {r : RegRow} (hr : regRow? a = some r) {old new : Word} {v : Nat}
    (h : gatedWrite a r old new v = true) : refusable a = true := by
  simp only [gatedWrite, Bool.or_eq_true, List.any_eq_true, Bool.and_eq_true, beq_iff_eq] at h
  rcases h with ⟨f, hf, hacc, -⟩ | ⟨ha, -⟩
  · exact refusable_of_field hr hf (by simp only [FieldDesc.settable, hacc])
  · simp only [refusable, ha, beq_self_eq_true, Bool.or_true]

theorem ne_of_refusable {a b : Nat} (ha : refusable a = true) (hb : refusable b = false) : a ≠ b := by
  rintro rfl
  rw [ha] at hb
  cases hb

/-- Setting a flag and counting it in registers that are not refusable leaves every refusable register. -/
theorem State.reg_hit_refusable (s : State) {a e c : Nat} (f g : Fld) (ha : refusable a = true) (he : refusable e = false)
    (hc : refusable c = false) : (s.hit e f c g).reg a = s.reg a :=
  s.reg_hit_ne f g (ne_of_refusable ha he) (ne_of_refusable ha hc)

/-- The offset of the last place of an array with these strides and counts. -/
def lastOffset : List (Nat × Nat) → Nat
  | [] => 0
  | (st, ct) :: ds => st * (ct - 1) + lastOffset ds

theorem le_lastOffset {ds : List (Nat × Nat)} {o : Nat} (h : offsetFits ds o = true) : o ≤ lastOffset ds := by
  induction ds generalizing o with
  | nil =>
    simp only [offsetFits, beq_iff_eq] at h
    exact h.le
  | cons d ds ih =>
    obtain ⟨st, ct⟩ := d
    simp only [offsetFits, Bool.and_eq_true, decide_eq_true_eq] at h
    obtain ⟨hplace, hrest⟩ := h
    have hrow : st * (o / st) ≤ st * (ct - 1) := Nat.mul_le_mul_left st (by omega)
    calc o = st * (o / st) + o % st := (Nat.div_add_mod o st).symm
      _ ≤ st * (ct - 1) + lastOffset ds := Nat.add_le_add hrow (ih hrest)

/-- Every place of the row lies from `lo` up to `hi`. -/
def RegRow.within (r : RegRow) (lo hi : Nat) : Bool := decide (lo ≤ r.base ∧ r.base + lastOffset r.dims < hi)

theorem RegRow.bounds_of_within {r : RegRow} {lo hi a : Nat} (hw : r.within lo hi = true) (h : r.has a = true) :
    lo ≤ a ∧ a < hi := by
  simp only [RegRow.has, RegRow.within, Bool.and_eq_true, decide_eq_true_eq] at h hw
  have := le_lastOffset h.2
  omega

/-- The rows that record a refused write in a CAN controller or an Ethernet MAC lie in the windows of those units (R7). -/
def RegRow.recordsHome (r : RegRow) : Bool :=
  (r.refused != EV_CAN_REFUSED || r.within 0x44208000 0x44220000) &&
    (r.refused != EV_ETH_REFUSED || r.within 0x44202000 0x44204000)

set_option maxRecDepth 10000 in
theorem regRowsAll_recordsHome : regRowsAll.all RegRow.recordsHome = true := by decide

theorem regRow?_recordsHome {a : Nat} {r : RegRow} (h : regRow? a = some r) : r.recordsHome = true :=
  List.all_eq_true.mp regRowsAll_recordsHome r (regRow?_mem h)

/-- The CAN controller of a register that records its refusals in one. -/
theorem canOfReg_lt {a : Nat} {r : RegRow} (h : regRow? a = some r) (he : r.refused = EV_CAN_REFUSED) :
    (a - 0x44208000) / 0x4000 < 6 := by
  have hw := regRow?_recordsHome h
  simp only [RegRow.recordsHome, he, bne_self_eq_false, Bool.false_or, Bool.and_eq_true] at hw
  have := RegRow.bounds_of_within hw.1 (regRow?_has h)
  omega

/-- The Ethernet MAC of a register that records its refusals in one. -/
theorem macOfReg_lt {a : Nat} {r : RegRow} (h : regRow? a = some r) (he : r.refused = EV_ETH_REFUSED) :
    (a - 0x44202000) / 0x1000 < 2 := by
  have hw := regRow?_recordsHome h
  simp only [RegRow.recordsHome, he, bne_self_eq_false, Bool.false_or, Bool.and_eq_true] at hw
  have := RegRow.bounds_of_within hw.2 (regRow?_has h)
  omega

theorem not_refusable_canEvt : ∀ n : Fin 6, refusable (CAN_EVT n) = false := by decide
theorem not_refusable_canCnt1 : ∀ n : Fin 6, refusable (CAN_CNT1 n) = false := by decide
theorem not_refusable_ethEvt : ∀ m : Fin 2, refusable (ETH_EVT m) = false := by decide
theorem not_refusable_ethCnt1 : ∀ m : Fin 2, refusable (ETH_CNT1 m) = false := by decide

/-- Recording a refusal leaves the register that the write was refused for, and every other refusable register. -/
theorem State.reg_refusalFlag (s : State) {a : Nat} {r : RegRow} (hr : regRow? a = some r) (ha : refusable a = true) :
    (s.refusalFlag r.refused a).reg a = s.reg a := by
  unfold State.refusalFlag
  split
  · exact s.reg_hit_refusable _ _ ha (by decide) (by decide)
  split
  · exact s.reg_hit_refusable _ _ ha (by decide) (by decide)
  split
  · exact s.reg_hit_refusable _ _ ha (by decide) (by decide)
  split
  · exact s.reg_hit_refusable _ _ ha (by decide) (by decide)
  split
  · exact s.reg_hit_refusable _ _ ha (by decide) (by decide)
  split
  · exact s.reg_hit_refusable _ _ ha (by decide) (by decide)
  split
  · next he =>
    have hn := canOfReg_lt hr he
    exact s.reg_hit_refusable _ _ ha (not_refusable_canEvt ⟨_, hn⟩) (not_refusable_canCnt1 ⟨_, hn⟩)
  split
  · next he =>
    have hm := macOfReg_lt hr he
    exact s.reg_hit_refusable _ _ ha (not_refusable_ethEvt ⟨_, hm⟩) (not_refusable_ethCnt1 ⟨_, hm⟩)
  split
  · exact s.reg_hit_refusable _ _ ha (by decide) (by decide)
  split
  · exact s.reg_hit_refusable _ _ ha (by decide) (by decide)
  split
  · exact s.reg_wr_ne _ _ (ne_of_refusable ha (by decide))
  · rfl

@[simp] theorem State.led_refusalFlag (s : State) (ev a : Nat) : (s.refusalFlag ev a).led = s.led := by
  have k : Kept (fun p => p = .regs_ ∨ p = .lost_) s (s.refusalFlag ev a) :=
    @State.refusalFlag_kept _ ⟨.inl rfl⟩ ⟨.inr rfl⟩ _ _ _ _ (Kept.refl s)
  exact k.same .led_ (by decide)

/-- A refusal recorded leaves the register that the write was refused for. -/
theorem State.reg_refuse (s : State) (src v : Nat) {a : Nat} {r : RegRow} (hr : regRow? a = some r) (ha : refusable a = true) :
    (s.refuse r.refused src a v).reg a = s.reg a := by
  unfold State.refuse
  rw [State.reg_raise _ _ _ _ (ne_of_refusable ha (by decide)) (ne_of_refusable ha (by decide)), s.reg_refusalFlag hr ha]

end Sys2Proof.Machine
end

section
/-!
PROOF. Register writes and reads from outside a grain: the response of each kind of access, and that a write takes effect
whole or is refused whole (R3, R153, R513 to R515).
-/

namespace Sys2Proof.Machine

/-! ## Responses -/

/-- The machine with the response of the latest access from outside a grain: the word read and the error flag. -/
def State.busAnswer (s : State) (word : Nat) (err : Bool) : State := { s with fab := { s.fab with rdata := word, rerr := err } }

@[simp] theorem State.byte_busAnswer (s : State) (w : Nat) (e : Bool) (a : Nat) : (s.busAnswer w e).byte a = s.byte a := rfl
@[simp] theorem State.ns_busAnswer (s : State) (w : Nat) (e : Bool) : (s.busAnswer w e).ns = s.ns := rfl

theorem State.busAnswer_kept {P : Part → Prop} [May P .fab_] {s0 s : State} {w : Nat} {e : Bool} (hk : Kept P s0 s) :
    Kept P s0 (s.busAnswer w e) :=
  Kept.mk' rfl rfl rfl rfl rfl rfl hk

theorem exec_registerWrite_eq (s : State) (src a v t : Nat) :
    exec (.registerWrite src a v t) s =
      .next (((s.at t).busStore src 0 a 4 v).2.busAnswer 0 (!((s.at t).busStore src 0 a 4 v).1)) := rfl

theorem exec_rcRead_eq (s : State) (a t : Nat) :
    exec (.rcRead a t) s =
      .next (((s.at t).busRead a).2.busAnswer (((s.at t).busRead a).1.getD 0) ((s.at t).busRead a).1.isNone) := rfl

/-! ## What stands at an address (R153) -/

/-- A word store to a register that answers is a write of the register. -/
theorem State.busStore_register {s : State} {src pc a v : Nat} {r : RegRow} (hal : a % 4 = 0) (hr : regRow? a = some r)
    (hp : placeOf a = .register) (hc : sfClosed a = false) (ha : s.answers a = true) (hv : v < 2 ^ 32) :
    s.busStore src pc a 4 v = (true, s.regWrite src a v r) := by
  have h4 : a / 4 * 4 = a := by omega
  have hw : v % 2 ^ 32 = v := Nat.mod_eq_of_lt hv
  simp only [State.busStore, h4, hp, hal, hc, ha, hr, hw, ne_eq, not_true_eq_false, Bool.false_eq_true, or_self,
    ↓reduceIte]

theorem State.busStore_none {s : State} {src pc a n v : Nat} (hp : placeOf (a / 4 * 4) = .none) :
    s.busStore src pc a n v = s.writeError src a v := by
  unfold State.busStore
  rw [hp]

theorem State.busStore_ram {s : State} {src pc a n v : Nat} (hal : a % 4 = 0) (hp : placeOf a = .ram)
    (ho : s.ramOpen a = true) : s.busStore src pc a n v = (true, (s.storeLE a n v).overlayTouched a) := by
  have h4 : a / 4 * 4 = a := by omega
  simp [State.busStore, h4, hp, ho]

theorem State.busRead_register {s : State} {a : Nat} {r : RegRow} (hal : a % 4 = 0) (hr : regRow? a = some r)
    (hp : placeOf a = .register) (ha : s.answers a = true) :
    s.busRead a = (some (s.regRead r a).1.toNat, (s.regRead r a).2) := by
  simp [State.busRead, hp, hal, ha, hr]

/-- A kernel overlay marked empty leaves memory. -/
@[simp] theorem State.byte_overlayTouched (s : State) (a b : Nat) : (s.overlayTouched a).byte b = s.byte b := by
  unfold State.overlayTouched
  split
  · split
    · exact s.byte_updGrain _ _ _
    · rfl
  · rfl

/-! ## Refusals -/

/-- Whatever led to it, a raised event is what the stack of its source got. -/
theorem State.raised_of_raise {s s' u : State} {src code : Nat} {ws : List Nat} (hs : s'.led = s.led)
    (hu : u.led = (s'.raise src code ws).led) (hn : u.ns = s'.ns) : s.Raised u src code ws := by
  refine ⟨{ code := code, sev := eventSeverity code, src := src, time := s'.ns, words := ws, ord := s'.led.ord },
    rfl, rfl, rfl, hn.symm, rfl, ?_⟩
  rw [hu, ← hs]
  unfold State.raise
  dsimp only
  split
  · next st h => rw [h, Option.getD_some]; exact Tab.get_set_same _ _ _ _
  · next h => rw [h]; rfl

/-- A recorded refusal raises its event. -/
theorem State.raised_refuse (s : State) (ev src a v t w : Nat) (e : Bool) :
    s.Raised (((s.at t).refuse ev src a v).busAnswer w e) (srcOfReg a) ev [src, a, v] := by
  refine State.raised_of_raise (s' := (s.at t).refusalFlag ev a) ?_ rfl ?_
  · rw [State.led_refusalFlag, State.led_at]
  · rw [State.ns_busAnswer]
    exact State.ns_raise _ _ _ _

/-- A recorded refusal leaves every part but the registers, the ledger's records and the response. -/
theorem State.same_refuse (s : State) (ev src a v t w : Nat) (e : Bool) {p : Part} (hr : p ≠ .regs_) (hl : p ≠ .lost_)
    (hd : p ≠ .led_) (hf : p ≠ .fab_) : p.same s (((s.at t).refuse ev src a v).busAnswer w e) := by
  have k : Kept (· ∈ [.regs_, .lost_, .led_, .fab_]) s (((s.at t).refuse ev src a v).busAnswer w e) :=
    @State.busAnswer_kept _ ⟨by simp⟩ _ _ _ _
      (@State.refuse_kept _ ⟨by simp⟩ ⟨by simp⟩ ⟨by simp⟩ _ _ _ _ _ _ (State.at_kept (Kept.refl s)))
  exact k.same p (by simp [hr, hl, hd, hf])

/-- A refusal recorded by its event alone leaves the registers too. -/
theorem State.same_refuseFb (s : State) (src a v t w : Nat) (e : Bool) {p : Part} (hl : p ≠ .lost_) (hd : p ≠ .led_)
    (hf : p ≠ .fab_) : p.same s (((s.at t).refuseFb src a v).busAnswer w e) := by
  have k : Kept (· ∈ [.lost_, .led_, .fab_]) s (((s.at t).refuseFb src a v).busAnswer w e) :=
    @State.busAnswer_kept _ ⟨by simp⟩ _ _ _ _
      (@State.refuseFb_kept _ ⟨by simp⟩ ⟨by simp⟩ _ _ _ _ _ (State.at_kept (Kept.refl s)))
  exact k.same p (by simp [hl, hd, hf])

/-- A write that a field's range or the locked gate refuses is recorded, and that is all (R513, R514). -/
theorem State.regWrite_refused {s : State} {src a v : Nat} {r : RegRow}
    (hb : s.fieldBad a v (mergeWord a r (s.reg a) (BitVec.ofNat 32 v)) = false)
    (h : r.fields.any (fun f => f.outside (BitVec.ofNat 32 v)) = true ∨
      (gatedWrite a r (s.reg a) (mergeWord a r (s.reg a) (BitVec.ofNat 32 v)) v = true ∧ s.unlocked = false)) :
    s.regWrite src a v r = s.refuse r.refused src a v := by
  unfold State.regWrite
  dsimp only
  rw [if_neg (by rw [hb]; exact Bool.false_ne_true), if_pos]
  rcases h with h | ⟨hg, hu⟩
  · rw [h, Bool.true_or]
  · rw [hg, hu, Bool.not_false, Bool.and_self, Bool.or_true]

/-- A register that a write is refused for has a field that a write sets, or a gated command. -/
theorem refusable_of_refused {a v : Nat} {r : RegRow} {old new : Word} {p : Prop} (hr : regRow? a = some r)
    (h : r.fields.any (fun f => f.outside (BitVec.ofNat 32 v)) = true ∨ (gatedWrite a r old new v = true ∧ p)) :
    refusable a = true := by
  rcases h with h | ⟨hg, -⟩
  · obtain ⟨f, hf, ho⟩ := List.any_eq_true.mp h
    exact refusable_of_field hr hf (FieldDesc.settable_of_outside ho)
  · exact refusable_of_gatedWrite hr hg

/-! ## Reads -/

/-- A read of a register that no latch, pair or view stands before returns its readable fields and clears its RC fields. -/
theorem State.regRead_plain {s : State} {a : Nat} {r : RegRow} (hlo : pairLow a = none) (hhi : pairHigh a = none)
    (hv : s.view a = s.reg a) (h0 : a ≠ LEDGER_WIN 0) (h15 : a ≠ LEDGER_WIN 15) (hc : a ≠ PS_DBG_CHAL 0)
    (hm : a ≠ PS_MRAM_STAT) : s.regRead r a = (readMask r (s.reg a), s.setReg a (readClear r (s.reg a))) := by
  have hpre : s.preRead a = s := by
    unfold State.preRead
    rw [if_neg h0, if_neg hc, if_neg hm]
  have hview : s.pairView a = s.reg a := by
    unfold State.pairView
    rw [hlo]
    exact hv
  have hpost : s.postRead r a = s.setReg a (readClear r (s.reg a)) := by
    unfold State.postRead
    rw [hhi, if_neg h15]
  unfold State.regRead
  dsimp only
  rw [hpre, hview, hpost]

/-! ## The statement, access by access -/

/-- The register after an admitted write without effects beside its fields, and nothing else, has changed. -/
theorem exec_registerWrite_admitted {s : State} {src a v t : Nat} {r : RegRow} (h : (s.at t).Admits a v r)
    (hf : r.fields.all (fun f => f.acc != .rwl) = true) (hp : writePair a = none) (hlo : writePairLow a = none)
    (hl : a ≠ LEDGER_CTL) (he : ∀ (z : State) (o : Word), z.writeEffect a v o = z) :
    exec (.registerWrite src a v t) s =
      .next (((s.at t).setReg a (mergeWord a r (s.reg a) (BitVec.ofNat 32 v))).busAnswer 0 false) := by
  rw [exec_registerWrite_eq, State.busStore_register h.aligned h.row h.place h.reach h.answers h.word,
    State.regWrite_admitted h hp, State.regTake_plain (gatedWrite_free hf hl _ _ _) hlo, he]
  rfl

/-- Each field of a register that takes the merged word is as its access type says (R3). -/
theorem fields_of_mergeWord {s : State} {a v : Nat} {r : RegRow} (hr : regRow? a = some r) (hc : a ≠ PW_CON_STAT)
    (hl : a ≠ LEDGER_CTL) {u : State} (hu : u.reg a = mergeWord a r (s.reg a) (BitVec.ofNat 32 v)) :
    ∀ f ∈ r.fields, (f.acc = .rw → u.rd a f.fld = f.fld.get (BitVec.ofNat 32 v)) ∧
      (f.acc = .ro ∨ f.acc = .rc → u.rd a f.fld = s.rd a f.fld) ∧
      (f.acc = .w1c → u.rd a f.fld = s.rd a f.fld &&& (f.fld.max - f.fld.get (BitVec.ofNat 32 v))) := by
  intro f hf
  have hfit := RegRow.field_fits (regRow?_fieldsApart hr) f hf
  unfold State.rd
  rw [hu, get_mergeWord hr hc hl _ _ hf]
  refine ⟨fun h => get_mergeField_rw _ hfit h, fun h => ?_, fun h => get_mergeField_w1c _ hfit h⟩
  rw [mergeField_readOnly _ h]

/-- A register set and the response given: every other part stands. -/
theorem State.same_setReg (s : State) (a t w : Nat) (x : Word) (e : Bool) {p : Part} (hr : p ≠ .regs_) (hl : p ≠ .lost_)
    (hf : p ≠ .fab_) : p.same s (((s.at t).setReg a x).busAnswer w e) := by
  have k : Kept (· ∈ [.regs_, .lost_, .fab_]) s (((s.at t).setReg a x).busAnswer w e) :=
    @State.busAnswer_kept _ ⟨by simp⟩ _ _ _ _
      (@State.setReg_kept _ _ _ _ _ ⟨by simp⟩ ⟨by simp⟩ (State.at_kept (Kept.refl s)))
  exact k.same p (by simp [hr, hl, hf])

/-- A write to an address with nothing there gets the error response and is recorded, and that is all (R153, R377). -/
theorem State.same_writeError (s : State) (src a v t w : Nat) (e : Bool) {p : Part} (hl : p ≠ .lost_) (hd : p ≠ .led_)
    (hf : p ≠ .fab_) (hr : p = .regs_ → sfClosed a = false) :
    p.same s (((s.at t).writeError src a v).2.busAnswer w e) := by
  unfold State.writeError
  cases hc : sfClosed a with
  | true =>
    have hne : p ≠ .regs_ := fun h => by rw [hr h] at hc; cases hc
    exact s.same_refuse _ _ _ _ _ _ _ hne hl hd hf
  | false => exact s.same_refuseFb _ _ _ _ _ _ hl hd hf

end Sys2Proof.Machine

open Sys2Proof Sys2Proof.Machine

/-- Settles O35, access by access. It turns on two facts of the register map: the fields of a register share no bit, so a
write merges each as if it stood alone, and no register that records a refusal is one that a write can be refused for. -/
theorem registerWritesTakeEffectWholeOrNotAtAll : Obligations.RegisterWritesTakeEffectWholeOrNotAtAll := by
  unfold Obligations.RegisterWritesTakeEffectWholeOrNotAtAll
  intro s src a v t
  refine ⟨?admitted, ?refused, ?absent, ?memory, ?read⟩
  case admitted =>
    intro r h hf hp hlo hc hl he
    have hreg : (((s.at t).setReg a (mergeWord a r (s.reg a) (BitVec.ofNat 32 v))).busAnswer 0 false).reg a = _ :=
      State.reg_setReg_same _ _ _
    exact ⟨_, exec_registerWrite_admitted h hf hp hlo hl he, rfl, fun b hb => State.reg_setReg_ne _ _ hb,
      fields_of_mergeWord h.row hc hl hreg, fun p hr hd hb => s.same_setReg _ _ _ _ _ hr hd hb⟩
  case refused =>
    intro r hv hal hr hp hc ha new hb h
    refine ⟨((s.at t).refuse r.refused src a v).busAnswer 0 false, ?_, rfl, ?_, s.raised_refuse _ _ _ _ _ _ _,
      fun p h1 h2 h3 h4 => s.same_refuse _ _ _ _ _ _ _ h1 h2 h3 h4⟩
    · rw [exec_registerWrite_eq, State.busStore_register (s := s.at t) hal hr hp hc ha hv, State.regWrite_refused hb h]
      rfl
    · exact (s.at t).reg_refuse src v hr (refusable_of_refused hr h)
  case absent =>
    intro hp
    refine ⟨((s.at t).writeError src a v).2.busAnswer 0 true, ?_, rfl,
      fun p h1 h2 h3 h4 => s.same_writeError _ _ _ _ _ _ h1 h2 h3 h4⟩
    rw [exec_registerWrite_eq, State.busStore_none hp]
    rfl
  case memory =>
    intro hal hp ho
    refine ⟨(((s.at t).storeLE a 4 v).overlayTouched a).busAnswer 0 false, ?_, rfl, fun b => ?_⟩
    · rw [exec_registerWrite_eq, State.busStore_ram (s := s.at t) hal hp ho]
      rfl
    · rw [State.byte_busAnswer, State.byte_overlayTouched, State.byte_storeLE, State.byte_at]
  case read =>
    intro r hal hr hp ha hlo hhi hv h0 h15 hch hm
    refine ⟨((s.at t).setReg a (readClear r (s.reg a))).busAnswer (readMask r (s.reg a)).toNat false, ?_, rfl, rfl,
      State.reg_setReg_same _ _ _, fun b hb => State.reg_setReg_ne _ _ hb, rfl, rfl⟩
    rw [exec_rcRead_eq, State.busRead_register (s := s.at t) hal hr hp ha, State.regRead_plain hlo hhi (hv _) h0 h15 hch hm]
    rfl
end

section
/-!
PROOF. Chip time and the stacks of events: a record persisted leaves both, and no operation of the ledger engine or of the
lifetime store changes the time (R420 to R428, R438).
-/

namespace Sys2Proof.Machine

/-- What no step of a fold changes, the fold does not change. -/
theorem foldl_keeps {α β σ : Type} (p : σ → β) {f : σ → α → σ} (h : ∀ s x, p (f s x) = p s) (l : List α) (s : σ) :
    p (l.foldl f s) = p s := by
  induction l generalizing s with
  | nil => rfl
  | cons x l ih => exact (ih (f s x)).trans (h s x)

/-- What both branches agree on. -/
theorem ite_keeps {β σ : Type} (p : σ → β) {c : Prop} [Decidable c] {a b : σ} {x : β} (ha : p a = x) (hb : p b = x) :
    p (if c then a else b) = x := by
  split <;> assumption

/-- The instant, and the events that wait in the stacks of their sources. -/
def State.stage (s : State) : Nat × Tab (List EvRec) := (s.now, s.led.pile)

/-! ## Memory -/

@[simp] theorem State.stage_storeLE (s : State) (a n v : Nat) : (s.storeLE a n v).stage = s.stage := by
  obtain ⟨_, _, _, h⟩ := s.storeLE_eq a n v
  rw [h]
  rfl

@[simp] theorem State.stage_storeBytes (s : State) (a : Nat) (bs : List Nat) : (s.storeBytes a bs).stage = s.stage := by
  induction bs generalizing s a with
  | nil => rfl
  | cons b bs ih => exact ih _ _

@[simp] theorem State.stage_count (s : State) (src k : Nat) : (s.count src k).stage = s.stage := by
  obtain ⟨_, h⟩ := s.count_eq src k
  rw [h]
  rfl

@[simp] theorem State.stage_mramWrite (s : State) (a : Nat) (bs : List Nat) : (s.mramWrite a bs).stage = s.stage := by
  unfold State.mramWrite
  dsimp only
  rw [State.stage_count, foldl_keeps State.stage, State.stage_storeBytes]
  exact fun _ _ => rfl

/-! ## Reads (R3, R153) -/

theorem State.stage_setReg_foldl (f : Nat → Nat) (w : Nat → Word) (l : List Nat) (s : State) :
    (l.foldl (fun s i => s.setReg (f i) (w i)) s).stage = s.stage :=
  foldl_keeps State.stage (by intros; rfl) l s

@[simp] theorem State.stage_drawChallenge (s : State) : s.drawChallenge.stage = s.stage :=
  State.stage_setReg_foldl ..

@[simp] theorem State.stage_cursorRecord (s : State) : s.cursorRecord.2.stage = s.stage := by
  unfold State.cursorRecord
  dsimp only
  split
  · rfl
  split
  · rfl
  split <;> rfl

@[simp] theorem State.stage_winLatch (s : State) : s.winLatch.stage = s.stage := by
  unfold State.winLatch
  dsimp only
  split
  · exact (State.stage_setReg_foldl ..).trans s.stage_cursorRecord
  · exact (State.stage_setReg_foldl ..).trans s.stage_cursorRecord

@[simp] theorem State.stage_preRead (s : State) (a : Nat) : (s.preRead a).stage = s.stage := by
  unfold State.preRead
  split
  · exact s.stage_winLatch
  split
  · exact s.stage_drawChallenge
  split <;> rfl

@[simp] theorem State.stage_winAdvance (s : State) : s.winAdvance.stage = s.stage := by
  unfold State.winAdvance
  split <;> rfl

@[simp] theorem State.stage_postRead (s : State) (r : RegRow) (a : Nat) : (s.postRead r a).stage = s.stage := by
  unfold State.postRead
  dsimp only
  cases pairHigh a with
  | none => exact ite_keeps State.stage (State.stage_winAdvance _) rfl
  | some h => exact ite_keeps State.stage (State.stage_winAdvance _) rfl

@[simp] theorem State.stage_regRead (s : State) (r : RegRow) (a : Nat) : (s.regRead r a).2.stage = s.stage :=
  (State.stage_postRead ..).trans (s.stage_preRead a)

theorem State.stage_qTake {s u : State} {n : Nat} {d : Dword} (h : s.qTake n = some (d, u)) : u.stage = s.stage := by
  unfold State.qTake at h
  cases hq : s.queue n with
  | nil => rw [hq] at h; cases h
  | cons e es => rw [hq] at h; cases h; rfl

@[simp] theorem State.stage_busRead (s : State) (a : Nat) : (s.busRead a).2.stage = s.stage := by
  unfold State.busRead
  split
  · rfl
  split
  case h_6 =>
    split
    · split
      · exact s.stage_regRead _ _
      · rfl
    · rfl
  case h_7 =>
    split
    · rfl
    split
    · split
      · next h =>
        have := State.stage_qTake h
        exact this
      · rfl
    · split <;> rfl
  all_goals rfl

/-! ## Records (R423, R428, R430) -/

@[simp] theorem State.stage_writeRecord (s : State) (e : EvRec) : (s.writeRecord e).stage = s.stage := by
  have rode (c : Bool) : (if c then s.countsRode e else s).stage = s.stage := ite_keeps State.stage rfl rfl
  have slot (c : Bool) (a : Nat) (bs : List Nat) : ((if c then s.countsRode e else s).mramWrite a bs).stage = s.stage :=
    (State.stage_mramWrite ..).trans (rode c)
  unfold State.writeRecord
  dsimp only
  rw [State.stage_count]
  exact ite_keeps State.stage ((State.stage_mramWrite ..).trans (slot ..)) (slot ..)

@[simp] theorem State.stage_snapWords (s : State) (k n j : Nat) : (s.snapWords k n j).2.stage = s.stage := by
  induction n generalizing s j with
  | zero => rfl
  | succ n ih =>
    unfold State.snapWords
    dsimp only
    split
    · rfl
    · exact (ih _ _).trans (s.stage_busRead _)

@[simp] theorem State.stage_snapshot (s : State) (k : Nat) : (s.snapshot k).stage = s.stage :=
  (State.stage_writeRecord ..).trans (s.stage_snapWords k 12 0)

@[simp] theorem State.stage_persist (s : State) (e : EvRec) : (s.persist e).stage = s.stage :=
  (foldl_keeps State.stage (by exact fun s k => s.stage_snapshot k) _ _).trans (s.stage_writeRecord e)

/-- The change log persists its record and leaves the stacks (R430). -/
@[simp] theorem State.stage_changeLog (s : State) (a old new src slot : Nat) (mram : Bool) :
    (s.changeLog a old new src slot mram).stage = s.stage :=
  (State.stage_persist ..).trans (State.stage_mramWrite ..)

/-! ## The ledger engine (R420 to R424) -/

/-- A record persisted takes no chip time. -/
@[simp] theorem State.now_persist (s : State) (e : EvRec) : (s.persist e).now = s.now := congrArg Prod.fst (s.stage_persist e)

@[simp] theorem State.now_mramWrite (s : State) (a : Nat) (bs : List Nat) : (s.mramWrite a bs).now = s.now :=
  congrArg Prod.fst (s.stage_mramWrite a bs)

@[simp] theorem State.now_storeLE (s : State) (a n v : Nat) : (s.storeLE a n v).now = s.now :=
  congrArg Prod.fst (s.stage_storeLE a n v)

@[simp] theorem State.now_collect (s : State) (blk : Nat) : (s.collect blk).now = s.now := by
  unfold State.collect
  dsimp only
  rw [foldl_keeps State.now, foldl_keeps State.now]
  · exact fun _ _ => rfl
  · exact fun s e => ite_keeps State.now rfl rfl

@[simp] theorem State.now_bucketOf (s : State) (code sev : Nat) : (s.bucketOf code sev).2.now = s.now := by
  unfold State.bucketOf
  split
  · rfl
  split
  · rfl
  · dsimp only
    split
    · rfl
    · exact State.now_raise ..

@[simp] theorem State.now_bucketPass (s : State) (code sev : Nat) : (s.bucketPass code sev).2.now = s.now := by
  unfold State.bucketPass
  split
  · rfl
  · dsimp only
    split
    · exact s.now_bucketOf _ _
    · exact s.now_bucketOf _ _

@[simp] theorem State.now_persistNext (s : State) : s.persistNext.now = s.now := by
  unfold State.persistNext
  split
  · rfl
  · exact State.now_persist ..

@[simp] theorem State.now_persistAll (s : State) : s.persistAll.now = s.now :=
  foldl_keeps State.now (by exact fun s _ => s.now_persistNext) _ s

@[simp] theorem State.now_receive (s : State) (blk : Nat) : (s.receive blk).now = s.now := by
  unfold State.receive
  split
  · rfl
  split
  · rfl
  dsimp only
  split
  · rfl
  split
  · exact State.now_bucketPass ..
  · exact (State.now_count ..).trans (State.now_bucketPass ..)

@[simp] theorem State.now_drainEvents (s : State) : s.drainEvents.now = s.now := by
  have forward (s : State) (p : Nat × BlockBuf) :
      (p.2.unsent.foldl (fun s _ => (s.receive p.1).persistAll) s).now = s.now :=
    foldl_keeps State.now (by exact fun s _ => (State.now_persistAll _).trans (s.now_receive _)) _ s
  unfold State.drainEvents
  dsimp only
  split
  · rfl
  · rw [State.now_persistAll, foldl_keeps State.now forward, foldl_keeps State.now]
    exact fun s p => s.now_collect _

/-! ## The lifetime store closes its work (R438, R443) -/

@[simp] theorem State.now_cellLost (s : State) (f : Nat) : (s.cellLost f).now = s.now :=
  (State.now_raise ..).trans (State.now_mramWrite ..)

@[simp] theorem State.now_mendBatch (s : State) (b : List Nat × Bool) : (s.mendBatch b).now = s.now :=
  foldl_keeps State.now (by exact fun s f => ite_keeps State.now rfl (s.now_cellLost f)) _ s

@[simp] theorem State.now_redoWrite (s : State) (us : List (Nat × List Nat)) : (s.redoWrite us).now = s.now := by
  unfold State.redoWrite
  dsimp only
  rw [State.now_mramWrite, foldl_keeps State.now, State.now_mramWrite, State.now_mramWrite]
  exact fun s _ => s.now_mramWrite _ _

@[simp] theorem State.now_psClose (s : State) : s.psClose.now = s.now := by
  unfold State.psClose
  split
  · rfl
  dsimp only
  rw [State.now_mramWrite]
  cases s.led.batch with
  | none => rfl
  | some b => exact (State.now_redoWrite ..).trans (s.now_mendBatch b)

/-! ## A chip reset (R475, R484) -/

@[simp] theorem State.now_gateLock (s : State) (why : Nat) : (s.gateLock why).now = s.now := by
  unfold State.gateLock
  split
  · dsimp only
    rw [State.now_raise, State.now_wr, State.now_wr]
  · rfl

@[simp] theorem State.now_tearStores (s : State) : s.tearStores.now = s.now :=
  foldl_keeps State.now (by exact fun s p => ite_keeps State.now (State.now_storeLE ..) rfl) _ s

end Sys2Proof.Machine
end

section
/-!
PROOF. What the trip, gate, regulator and output operations leave alone of the supervisor's and the clock's: said once of every
operation that a verdict, an opening, a pre-sequence or a power failure sets off (R129 to R133, R147 to R150, R472).
-/

namespace Sys2Proof.Machine

/-- From one state to another time, the supervisor, what the grains do, the pre-sequence's start and the I/O inputs' direction
stand, and so does every register of the fabric and the supervisor: those that lie below the acquisition region (R7). -/
structure Steady (s0 s : State) : Prop where
  now : s.now = s0.now
  sv : s.sv = s0.sv
  run : ∀ g, (s.grain g).run = (s0.grain g).run
  preseqAt : s.trip.preseqAt = s0.trip.preseqAt
  ioInputs : s.out.ioInputs = s0.out.ioInputs
  reg : ∀ a, a < 0x42000000 → s.reg a = s0.reg a

namespace Steady

section
variable {s0 s t : State} {a n c r k v act cause limit step reason : Nat} {w : Word} {q p : Fld} {hi on force opens latch : Bool}

theorem refl (s : State) : Steady s s := ⟨rfl, rfl, fun _ => rfl, rfl, rfl, fun _ _ => rfl⟩

theorem trans (h : Steady s0 s) (k : Steady s t) : Steady s0 t :=
  ⟨k.now.trans h.now, k.sv.trans h.sv, fun g => (k.run g).trans (h.run g), k.preseqAt.trans h.preseqAt, k.ioInputs.trans h.ioInputs,
    fun a ha => (k.reg a ha).trans (h.reg a ha)⟩

/-- An update of other fields. -/
theorem of_eq (h : Steady s0 s) (hn : t.now = s.now) (hv : t.sv = s.sv) (hg : t.grains = s.grains)
    (hp : t.trip.preseqAt = s.trip.preseqAt) (ho : t.out.ioInputs = s.out.ioInputs) (hr : t.regs = s.regs) : Steady s0 t :=
  h.trans ⟨hn, hv, fun _ => by unfold State.grain; rw [hg], hp, ho, fun _ _ => by unfold State.reg; rw [hr]⟩

theorem setTrip {x : Trip} (h : Steady s0 s) (hp : x.preseqAt = s.trip.preseqAt := by rfl) :
    Steady s0 { s with trip := x } := h.of_eq rfl rfl rfl hp rfl rfl

theorem setOut {x : LoadSw} (h : Steady s0 s) (ho : x.ioInputs = s.out.ioInputs := by rfl) :
    Steady s0 { s with out := x } := h.of_eq rfl rfl rfl rfl ho rfl

theorem setRegu {x : Regu} (h : Steady s0 s) : Steady s0 { s with regu := x } := h.of_eq rfl rfl rfl rfl rfl rfl
theorem setGate {x : Gate} (h : Steady s0 s) : Steady s0 { s with gate := x } := h.of_eq rfl rfl rfl rfl rfl rfl
theorem setLed {x : Ledger} (h : Steady s0 s) : Steady s0 { s with led := x } := h.of_eq rfl rfl rfl rfl rfl rfl
theorem setSwp {x : Sweep} (h : Steady s0 s) : Steady s0 { s with swp := x } := h.of_eq rfl rfl rfl rfl rfl rfl

theorem ite {d : Prop} [Decidable d] (hs : Steady s0 s) (ht : Steady s0 t) : Steady s0 (if d then s else t) := by
  split <;> assumption

theorem foldl {α : Type} {f : State → α → State} {l : List α} (h : Steady s0 s)
    (hf : ∀ s x, Steady s0 s → Steady s0 (f s x)) : Steady s0 (l.foldl f s) := by
  induction l generalizing s with
  | nil => exact h
  | cons x l ih => exact ih (hf s x h)

/-! ## Registers above the supervisor's -/

theorem setReg (h : Steady s0 s) (ha : 0x42000000 ≤ a) : Steady s0 (s.setReg a w) :=
  h.trans ⟨rfl, rfl, fun _ => rfl, rfl, rfl, fun _ hb => s.reg_setReg_ne _ (by omega)⟩

theorem wr (h : Steady s0 s) (ha : 0x42000000 ≤ a := by decide) : Steady s0 (s.wr a q n) := h.setReg ha

theorem wrBit (h : Steady s0 s) (ha : 0x42000000 ≤ a := by decide) : Steady s0 (s.wrBit a n on) := h.setReg ha

theorem hit (h : Steady s0 s) (ha : 0x42000000 ≤ a := by decide) (hc : 0x42000000 ≤ c := by decide) :
    Steady s0 (s.hit a q c p) := (h.wr ha).wr hc

theorem bump (h : Steady s0 s) (ha : 0x42000000 ≤ a := by decide) : Steady s0 (s.bump a q) := h.wr ha

theorem raise {src code : Nat} {ws : List Nat} (h : Steady s0 s) : Steady s0 (s.raise src code ws) :=
  h.trans ⟨s.now_raise .., s.sv_raise .., fun g => by rw [s.grain_raise], by rw [s.trip_raise], by rw [s.out_raise],
    fun a ha => s.reg_raise _ _ _ (by rintro rfl; exact absurd ha (by decide)) (by rintro rfl; exact absurd ha (by decide))⟩

theorem hbStat_le : 0x42000000 ≤ PW_HB_STAT n := by unfold PW_HB_STAT; omega
theorem sregStat_le : 0x42000000 ≤ PW_SREG_STAT n := by unfold PW_SREG_STAT; omega
theorem lsStatc_le : 0x42000000 ≤ PW_LS_STATc n := by unfold PW_LS_STATc; omega
theorem tripSrc_le : 0x42000000 ≤ PW_TRIP_SRC n := by unfold PW_TRIP_SRC; omega
theorem tripStr_le : 0x42000000 ≤ PW_TRIP_STR n := by unfold PW_TRIP_STR; omega

/-! ## Fields of one unit -/

theorem drew (h : Steady s0 s) : Steady s0 (s.drew k) := h.of_eq rfl rfl rfl rfl rfl rfl
theorem updTstr {f : TripStr → TripStr} (h : Steady s0 s) : Steady s0 (s.updTstr r f) := h.setTrip
theorem updRstr {f : RegStr → RegStr} (h : Steady s0 s) : Steady s0 (s.updRstr r f) := h.setRegu
theorem updHb {f : HB → HB} (h : Steady s0 s) : Steady s0 (s.updHb n f) := h.setGate
theorem updLs {f : LsCh → LsCh} (h : Steady s0 s) : Steady s0 (s.updLs c f) := h.setOut
theorem updLt {f : LoadTimer → LoadTimer} (h : Steady s0 s) : Steady s0 (s.updLt n f) := h.setOut
theorem stringSource {native : Option Nat} (h : Steady s0 s) : Steady s0 (s.stringSource n k native on) :=
  h.setTrip

/-! ## Load switches (R330 to R334) -/

theorem lsSet (h : Steady s0 s) : Steady s0 (s.lsSet c on) := by
  unfold State.lsSet
  dsimp only
  exact ite h (ite (ite h.wrBit (h.wrBit.wr lsStatc_le)).updLs
    (((h.wrBit.updLs.wr lsStatc_le).wr lsStatc_le).wr lsStatc_le))

theorem lsSync (h : Steady s0 s) : Steady s0 (s.lsSync c) := by
  unfold State.lsSync
  dsimp only
  exact (ite h.updLs h).lsSet

theorem ltSync (h : Steady s0 s) : Steady s0 (s.ltSync n) := h.foldl (fun _ _ h => h.lsSync)

/-! ## Half-bridges (R308 to R316) -/

theorem setHbState (h : Steady s0 s) : Steady s0 (s.setHbState n v) := h.wr hbStat_le

theorem setSw (h : Steady s0 s) : Steady s0 (s.setSw n hi v) :=
  have out {x : Nat} : Steady s0 (s.wr (PW_HB_STAT n) PW_HB_STAT_OUT x) := h.wr hbStat_le
  ite out.updHb (ite out.updHb out)

theorem hardOff (h : Steady s0 s) : Steady s0 (s.hardOff n) := h.setSw.setSw.updHb

theorem rearm (h : Steady s0 s) : Steady s0 (s.rearm n) := ite h.setHbState h

/-- A half-bridge leaves a test. -/
theorem leaveTest {b : Nat} (h : Steady s0 s) :
    Steady s0 (if s.hbState n = b then ((s.hardOff n).setHbState n 0).rearm n else s) :=
  ite h.hardOff.setHbState.rearm h

theorem endTests (h : Steady s0 s) : Steady s0 s.endTests := by
  unfold State.endTests
  dsimp only
  have direct := ite (d := s.rdB PW_GD_TEST PW_GD_TEST_TEN = true)
    ((h.wr (a := PW_GD_TEST) (q := PW_GD_TEST_TEN) (n := 0)).wr (a := PW_GD_TEST) (q := PW_GD_TEST_TCMD) (n := 0)
      |>.leaveTest (n := s.rd PW_GD_TEST PW_GD_TEST_THB) (b := 5)) h
  split
  · exact direct
  · exact direct.setGate.wr.foldl (fun _ _ h => h.leaveTest)

theorem inhibitString (h : Steady s0 s) : Steady s0 (s.inhibitString r on) :=
  h.foldl (fun _ _ h =>
    have tests := ite h.updHb.endTests h.updHb
    ite (ite tests tests.hardOff.setHbState) h.updHb)

theorem turnOff (h : Steady s0 s) : Steady s0 (s.turnOff n hi) := by
  unfold State.turnOff
  exact (ite h.setSw h).updHb

theorem askOn (h : Steady s0 s) : Steady s0 (s.askOn n hi) := by
  unfold State.askOn
  exact h.updHb

theorem driveHb {en pulse : Bool} (h : Steady s0 s) : Steady s0 (s.driveHb n en pulse) :=
  have on := h.updHb.setHbState.turnOff
  ite h.updHb (ite h.updHb.turnOff.turnOff.setHbState (ite h.updHb (ite on on.askOn)))

/-! ## Regulators (R271, R295, R296, R305) -/

theorem setMode (h : Steady s0 s) : Steady s0 (s.setMode r v) := h.wr sregStat_le

theorem gatesOff (h : Steady s0 s) : Steady s0 (s.gatesOff r) := h.foldl (fun _ _ h => h.driveHb)

theorem enterRamp {idles : Bool} (h : Steady s0 s) : Steady s0 (s.enterRamp r idles) := ite h h.setMode.updRstr

theorem enterIdle (h : Steady s0 s) : Steady s0 (s.enterIdle r) := ite h.gatesOff.setMode.updRstr h

theorem alertSync (h : Steady s0 s) : Steady s0 s.alertSync := h.wr

theorem respond {prio ty pl : Nat} (h : Steady s0 s) : Steady s0 (s.respond prio ty pl) := h.setRegu

theorem sendLimits (h : Steady s0 s) : Steady s0 s.sendLimits :=
  h.setRegu.respond.respond

theorem limitsOnChange (h : Steady s0 s) : Steady s0 s.limitsOnChange := ite h.sendLimits h

theorem excEnd (h : Steady s0 s) : Steady s0 (s.excEnd reason) :=
  ite h.wr.wr.setRegu.raise h

/-! ## The window and the contactors' wear (R104, R144) -/

theorem winTrigger (h : Steady s0 s) : Steady s0 (s.winTrigger k) := ite h.bump.raise h.setSwp

theorem startBatch (h : Steady s0 s) : Steady s0 s.startBatch := ite h (ite h h.setLed)

theorem lifeSection (h : Steady s0 s) : Steady s0 s.lifeSection :=
  ite h.setLed.startBatch h

theorem wearOne {f : Nat} (h : Steady s0 s) : Steady s0 (s.wearOne n f k) :=
  h.setTrip.lifeSection

theorem wearBoth {f : Nat} (h : Steady s0 s) : Steady s0 (s.wearBoth r f k) := h.wearOne.wearOne

theorem wearMax (h : Steady s0 s) : Steady s0 (s.wearMax n k) := h.setTrip

/-! ## Strings (R128 to R133, R143) -/

theorem strSync (h : Steady s0 s) : Steady s0 (s.strSync r) :=
  (((h.wr tripStr_le).wr tripStr_le).wr tripStr_le).wr tripStr_le

theorem setSt {st : StrState} (h : Steady s0 s) : Steady s0 (s.setSt r st) := h.updTstr.strSync

theorem capMove (h : Steady s0 s) : Steady s0 (s.capMove r) := ite h.drew.inhibitString.setMode.updRstr h

theorem stopTimers {which : Nat → Bool} (h : Steady s0 s) : Steady s0 (s.stopTimers which) :=
  h.foldl (fun _ _ h => ite h h.updLt.ltSync)

theorem hcOff (h : Steady s0 s) : Steady s0 (s.hcOff r force) :=
  have off := h.updTstr.lsSync
  have timers := ite off.stopTimers off
  have worn := timers.wearBoth.wearBoth.wearMax.wearMax
  (ite timers.wearBoth.raise (ite worn.wearBoth worn).hit.raise).setSt.capMove

theorem activeSync (h : Steady s0 s) : Steady s0 (s.activeSync n) := h.wr tripSrc_le

theorem beginRamp (h : Steady s0 s) : Steady s0 (s.beginRamp r opens limit) := by
  unfold State.beginRamp
  dsimp only
  split
  · exact (ite h.updTstr.updTstr.enterRamp h.updTstr.updTstr).setSt
  · exact (ite h.updTstr.updTstr.enterRamp h.updTstr.updTstr).setSt
  · exact h.updTstr.updTstr
  · exact ite h.updTstr.enterIdle.updTstr.inhibitString.setSt h.updTstr.enterIdle.strSync
  · exact ite h.updTstr.enterIdle.updTstr.inhibitString.setSt h.updTstr.enterIdle.strSync
  · exact (ite h.updTstr.updTstr h.updTstr).strSync
  · exact h.updTstr.strSync

/-! ## Pre-charge (R147) -/

theorem setPchStep (h : Steady s0 s) : Steady s0 (s.setPchStep n) := h.wr.setTrip

theorem setRelay (h : Steady s0 s) : Steady s0 (s.setRelay on) := h.setTrip.lsSync

theorem pchFailMask (h : Steady s0 s) : Steady s0 (s.pchFailMask r) := h.wrBit

theorem pchFail (h : Steady s0 s) : Steady s0 (s.pchFail reason) :=
  have idle := h.setRelay.setPchStep.wr.raise.foldl (fun _ _ h => ite h.enterIdle h)
  ite idle.beginRamp idle

theorem pchTrip (h : Steady s0 s) : Steady s0 (s.pchTrip r) :=
  ite h (ite h.pchFail (ite h.setTrip.pchFailMask h))

/-! ## Actions (R129 to R133) -/

theorem inhibitAct (h : Steady s0 s) : Steady s0 (s.inhibitAct r) := h.updTstr.enterIdle.inhibitString

theorem startAct (h : Steady s0 s) : Steady s0 (s.startAct r act cause latch) := by
  have began {f : TripStr → TripStr} {x reason : Nat} :
      Steady s0 ((((s.updTstr r f).wr (PW_TRIP_STR r) PW_TRIP_STR_CAUSE x).excEnd reason).pchTrip r) :=
    (h.updTstr.wr tripStr_le).excEnd.pchTrip
  unfold State.startAct
  dsimp only
  refine alertSync (ite began.beginRamp (ite began.beginRamp (ite ?_ (ite ?_ ?_))))
  · split
    case h_5 => exact began.inhibitAct.strSync
    all_goals exact began.inhibitAct.setSt
  · exact ite began.inhibitAct.updTstr.setSt began.inhibitAct.updTstr.strSync
  · exact ite began.inhibitAct.hcOff began.inhibitAct.strSync

theorem evalString (h : Steady s0 s) : Steady s0 (s.evalString r) := ite h.startAct h.strSync

theorem evalDerate (h : Steady s0 s) : Steady s0 (s.evalDerate r) :=
  have due := ite h.updTstr (ite h.updTstr h)
  (ite due.setSt due).updTstr

theorem orphanSeq (h : Steady s0 s) : Steady s0 s.orphanSeq :=
  (h.setTrip.foldl (fun _ _ h => h.startAct)).raise

theorem preseqInhibit (h : Steady s0 s) : Steady s0 s.preseqInhibit :=
  h.foldl (fun _ _ h =>
    have opening := h.inhibitAct.updTstr
    ite (ite opening.hcOff opening.setSt) opening)

/-! ## Verdicts (R126 to R131) -/

theorem setActive {x : Verdict} (h : Steady s0 s) : Steady s0 (s.setActive x) := h.setTrip.activeSync

theorem tripEvent {x : Verdict} (h : Steady s0 s) : Steady s0 (s.tripEvent act x) := ite h.raise (ite h.raise h.hit.raise)

theorem takeVerdict {x : Verdict} (h : Steady s0 s) : Steady s0 (s.takeVerdict x) :=
  ite h.preseqInhibit.setActive (ite h.orphanSeq.setActive
    (ite (ite (ite h.setActive h.setActive.tripEvent) h) h.setActive))

theorem takeVerdicts {vs : List Verdict} (h : Steady s0 s) : Steady s0 (s.takeVerdicts vs) :=
  have taken := (h.foldl (fun _ _ h => h.takeVerdict)).foldl (fun _ _ h => h.evalDerate.evalString)
  (ite taken.winTrigger taken).limitsOnChange.alertSync

theorem tripFlush (h : Steady s0 s) : Steady s0 s.tripFlush := h.setTrip.takeVerdicts

/-! ## Commit mode (R206, R437) -/

theorem storeLE {x : Nat} (h : Steady s0 s) : Steady s0 (s.storeLE a n x) := by
  obtain ⟨_, _, _, e⟩ := s.storeLE_eq a n x
  rw [e]
  exact h.of_eq rfl rfl rfl rfl rfl rfl

theorem updGrain {src : Nat} {f : Grain → Grain} (h : Steady s0 s) (hf : (f (s.grain src)).run = (s.grain src).run := by rfl) :
    Steady s0 (s.updGrain src f) :=
  h.trans ⟨rfl, rfl, fun g => by
    by_cases e : g = src
    · rw [e, s.grain_updGrain_same, hf]
    · rw [s.grain_updGrain_ne f e], rfl, rfl, fun _ _ => rfl⟩

theorem discardStores (h : Steady s0 s) : Steady s0 s.discardStores :=
  ((h.foldl (fun _ _ h => h.storeLE)).foldl (fun _ _ h => h.updGrain)).of_eq rfl rfl rfl rfl rfl rfl

theorem commitEnter (h : Steady s0 s) : Steady s0 s.commitEnter := h.discardStores.setLed

theorem commitTrigger (h : Steady s0 s) : Steady s0 s.commitTrigger := ite h (ite h.setLed h.commitEnter)

end

end Steady

end Sys2Proof.Machine
end

section
/-!
PROOF. Resets: what a chip reset, a pre-sequence, a held PW and a region's return leave (R18, R150, R151, R475, R484), and how a
power failure freezes the part (R472).
-/

namespace Sys2Proof.Machine

/-! ## Fields read back -/

theorem State.rdB_wrBit_same (s : State) (a : Nat) {i : Nat} (b : Bool) (h : i < 32) : (s.wrBit a i b).rdB a ⟨i, i⟩ = b := by
  have hw : (⟨i, i⟩ : Fld).width = 1 := Nat.add_sub_cancel_left i 1
  unfold State.rdB State.wrBit
  rw [State.rd_wr_same _ _ _ _ (by rw [hw]; exact h), hw]
  cases b <;> rfl

/-- A field of one bit, cleared. -/
theorem State.rdB_wr_zero (s : State) (a : Nat) {f : Fld} (h : f.lo + f.width ≤ 32) : (s.wr a f 0).rdB a f = false := by
  unfold State.rdB
  rw [State.rd_wr_same _ _ _ _ h, Nat.zero_mod]
  rfl

/-- A field of one bit, set to a truth value. -/
theorem State.rdB_wr_b2n (s : State) (a : Nat) {f : Fld} (b : Bool) (h : f.lo + f.width ≤ 32) (hw : f.width = 1) :
    (s.wr a f (b2n b)).rdB a f = b := by
  unfold State.rdB
  rw [State.rd_wr_same _ _ _ _ h, hw]
  cases b <;> rfl

theorem State.rdB_raise (s : State) (src code : Nat) (ws : List Nat) {a : Nat} (f : Fld) (h : a ≠ LEDGER_EVT)
    (h' : a ≠ LEDGER_CNT) : (s.raise src code ws).rdB a f = s.rdB a f := by
  unfold State.rdB
  rw [State.rd_raise _ _ _ _ _ h h']

/-- A flag set and counted stands (R172). -/
theorem State.rdB_hit_same (s : State) {a c : Nat} (f k : Fld) (h : a ≠ c) (hf : f.lo + f.width ≤ 32) (hw : f.width = 1) :
    (s.hit a f c k).rdB a f = true := by
  unfold State.rdB State.hit
  dsimp only
  rw [State.rd_wr_ne _ _ _ _ h, State.rd_wr_same _ _ _ _ hf, hw]
  rfl

theorem Steady.rd {s0 s : State} (h : Steady s0 s) {a : Nat} (ha : a < 0x42000000) (f : Fld) : s.rd a f = s0.rd a f := by
  unfold State.rd
  rw [h.reg a ha]

theorem Steady.rdB {s0 s : State} (h : Steady s0 s) {a : Nat} (ha : a < 0x42000000) (f : Fld) : s.rdB a f = s0.rdB a f := by
  unfold State.rdB
  rw [h.rd ha]

theorem Steady.ns {s0 s : State} (h : Steady s0 s) : s.ns = s0.ns := by
  unfold State.ns
  rw [h.now]

/-! ## Events -/

/-- An event raised stands in the stack of its source, whatever else changes, while that stack stands. -/
theorem State.raised_of_pile {s s' u : State} {src code : Nat} {ws : List Nat}
    (hs : Tab.get [] s'.led.pile src = Tab.get [] s.led.pile src)
    (hu : Tab.get [] u.led.pile src = Tab.get [] (s'.raise src code ws).led.pile src) (hn : u.ns = s'.ns) :
    s.Raised u src code ws := by
  obtain ⟨e, hcode, hsev, hsrc, htime, hwords, hpile⟩ := State.raised_of_raise (s := s') (u := s'.raise src code ws)
    (src := src) (code := code) (ws := ws) rfl rfl (s'.ns_raise ..)
  refine ⟨e, hcode, hsev, hsrc, ?_, hwords, ?_⟩
  · rw [htime, State.ns_raise, hn]
  · rw [hu, hpile, hs]

@[simp] theorem State.commit_raise (s : State) (src code : Nat) (ws : List Nat) :
    (s.raise src code ws).led.commit = s.led.commit := by
  unfold State.raise
  dsimp only
  split <;> rfl

/-! ## The chip reset (R475) -/

@[simp] theorem State.sv_tearStores (s : State) : s.tearStores.sv = s.sv :=
  foldl_keeps State.sv (by
    exact fun s p => ite_keeps State.sv (by obtain ⟨_, _, _, h⟩ := (s.drew 1).storeLE_eq p.addr 4 p.old; rw [h]; rfl) rfl) _ s

@[simp] theorem State.led_tearStores (s : State) : s.tearStores.led = s.led :=
  foldl_keeps State.led (by
    exact fun s p => ite_keeps State.led (by obtain ⟨_, _, _, h⟩ := (s.drew 1).storeLE_eq p.addr 4 p.old; rw [h]; rfl) rfl) _ s

/-- Held in the chip reset asserted at an instant for a cause: grains, gates and strings as at reset (R475). -/
def State.HeldFor (u : State) (n cause : Nat) : Prop :=
  u.sv.resetAt = some n ∧ u.rd SV_RST_STAT SV_RST_STAT_CAUSE = cause ∧
    u.grains = State.reset.grains ∧ u.gate = State.reset.gate ∧ u.trip.str = State.reset.trip.str

/-- Before a chip reset PS closes its work, or power is lost: neither takes time. -/
theorem State.now_closed (s : State) (power : Bool) :
    (if power then ((s.gateLock 5).drainEvents).psClose else s.tearStores).now = s.now :=
  ite_keeps State.now (by rw [State.now_psClose, State.now_drainEvents, State.now_gateLock]) s.now_tearStores

/-- The fields kept in OTP and MRAM are registers: what no register holds is the reset value's. -/
theorem State.resetState_keeps {β : Type} (p : State → β) {s : State} {power : Bool} {x : β}
    (hset : ∀ (u : State) a w, p (u.setReg a w) = p u)
    (h : ∀ regs mem fab led lnk trip boot, led = s.led.keep → trip.str = State.reset.trip.str → p { State.reset with
      pending := s.pending, now := s.now, fresh := s.fresh, regs := regs, mem := mem, fab := fab, led := led, lnk := lnk,
      trip := trip, boot := boot, sv := s.sv } = x) : p (s.resetState power) = x := by
  unfold State.resetState State.keepFields
  dsimp only
  rw [foldl_keeps p (by exact fun u f => hset u _ _)]
  exact h _ _ _ _ _ _ _ rfl rfl

@[simp] theorem State.now_resetState (s : State) (power : Bool) : (s.resetState power).now = s.now :=
  State.resetState_keeps State.now (by intros; rfl) (by intros; rfl)

@[simp] theorem State.sv_resetState (s : State) (power : Bool) : (s.resetState power).sv = s.sv :=
  State.resetState_keeps State.sv (by intros; rfl) (by intros; rfl)

@[simp] theorem State.led_resetState (s : State) (power : Bool) : (s.resetState power).led = s.led.keep :=
  State.resetState_keeps State.led (by intros; rfl) (by exact fun _ _ _ _ _ _ _ h _ => h)

@[simp] theorem State.grains_resetState (s : State) (power : Bool) : (s.resetState power).grains = State.reset.grains :=
  State.resetState_keeps State.grains (by intros; rfl) (by intros; rfl)

@[simp] theorem State.gate_resetState (s : State) (power : Bool) : (s.resetState power).gate = State.reset.gate :=
  State.resetState_keeps State.gate (by intros; rfl) (by intros; rfl)

@[simp] theorem State.str_resetState (s : State) (power : Bool) : (s.resetState power).trip.str = State.reset.trip.str :=
  State.resetState_keeps (fun u : State => u.trip.str) (by intros; rfl) (by exact fun _ _ _ _ _ _ _ _ h => h)

/-- What the last steps of a chip reset leave: the cause and its record follow what was kept and what was cleared. -/
theorem State.chipReset_keeps {β : Type} (p : State → β) {s : State} {cause : Nat} {x : β}
    (hset : ∀ (u : State) a w, p (u.setReg a w) = p u) (hsv : ∀ (u : State) v, p { u with sv := v } = p u)
    (h : p ((if decide (cause ≠ 1) then ((s.gateLock 5).drainEvents).psClose else s.tearStores).resetState (decide (cause ≠ 1))) = x) :
    p (s.chipReset cause) = x := by
  unfold State.chipReset
  dsimp only
  unfold State.wr
  rw [hset, hset, hset, hsv]
  have kept {r : State} (hr : p r = x) : p (if decide (cause ≠ 1) then r else { r with sv := r.sv.lost }) = x :=
    ite_keeps p hr ((hsv _ _).trans hr)
  exact ite_keeps p (kept h) ((hset _ _ _).trans (kept h))

@[simp] theorem State.now_chipReset (s : State) (cause : Nat) : (s.chipReset cause).now = s.now :=
  State.chipReset_keeps State.now (fun _ _ _ => rfl) (fun _ _ => rfl)
    ((State.now_resetState ..).trans (s.now_closed _))

theorem State.resetAt_chipReset (s : State) (cause : Nat) : (s.chipReset cause).sv.resetAt = some s.now := by
  unfold State.chipReset
  dsimp only
  rw [State.sv_wr, State.sv_wr, State.sv_wr]
  exact congrArg some ((State.now_resetState ..).trans (s.now_closed _))

theorem State.cause_chipReset (s : State) {cause : Nat} (h : cause < 16) :
    (s.chipReset cause).rd SV_RST_STAT SV_RST_STAT_CAUSE = cause := by
  unfold State.chipReset
  dsimp only
  rw [State.rd_wr_ne _ _ _ _ (by decide), State.rd_wr_apart _ _ _ _ _ (by decide) (by decide) (by decide),
    State.rd_wr_same _ _ _ _ (by decide)]
  exact Nat.mod_eq_of_lt h

theorem State.heldFor_chipReset (s : State) {cause : Nat} (h : cause < 16) : (s.chipReset cause).HeldFor s.now cause :=
  ⟨s.resetAt_chipReset cause, s.cause_chipReset h,
    State.chipReset_keeps State.grains (fun _ _ _ => rfl) (fun _ _ => rfl) (State.grains_resetState ..),
    State.chipReset_keeps State.gate (fun _ _ _ => rfl) (fun _ _ => rfl) (State.gate_resetState ..),
    State.chipReset_keeps (fun u : State => u.trip.str) (fun _ _ _ => rfl) (fun _ _ => rfl) (State.str_resetState ..)⟩

/-- A chip reset records whether a pre-sequence led to it. -/
theorem State.preseq_chipReset (s : State) (cause : Nat) :
    (s.chipReset cause).rdB SV_RST_STAT SV_RST_STAT_PRESEQ = s.trip.preseqAt.isSome := by
  unfold State.chipReset
  dsimp only
  unfold State.rdB
  rw [State.rd_wr_ne _ _ _ _ (by decide)]
  exact State.rdB_wr_b2n _ _ _ (by decide) (by decide)

/-- A power-on reset keeps the events of the supervisor. -/
theorem State.pile_chipReset_one (s : State) : Tab.get [] (s.chipReset 1).led.pile srcSV = Tab.get [] s.led.pile srcSV := by
  refine State.chipReset_keeps (fun u : State => Tab.get [] u.led.pile srcSV) (fun _ _ _ => rfl) (fun _ _ => rfl) ?_
  rw [State.led_resetState, if_neg (by decide), State.led_tearStores]
  exact (Tab.get_filter_key (f := fun k => k == srcSV) ..).trans rfl

theorem State.test_chipReset_one (s : State) : (s.chipReset 1).sv.test = s.sv.test := by
  have lost : (s.tearStores.resetState false).sv.lost.test = s.sv.test :=
    congrArg (fun v : Super => v.lost.test) ((State.sv_resetState ..).trans s.sv_tearStores)
  unfold State.chipReset
  simp only [ne_eq, not_true_eq_false, decide_false, Bool.false_eq_true, if_false, State.sv_wr]
  show (ite _ _ _ : State).sv.test = _
  exact ite_keeps (fun u : State => u.sv.test) lost lost

/-! ## The ways to it (R150, R151, R474) -/

/-- In the pre-sequence since an instant, for a cause (R150). -/
def State.PreseqFor (u : State) (n cause : Nat) : Prop := u.trip.preseqAt = some n ∧ u.sv.cause = cause

/-- Nothing leads to a chip reset, and nothing defers one (R474). -/
def State.Clear (s : State) : Prop :=
  s.sv.resetAt = none ∧ s.trip.pwHoldAt = none ∧ s.trip.preseqAt = none ∧ s.led.commit = false

theorem State.requestReset_one (s : State) (way : Nat) : s.requestReset 1 way = s.chipReset 1 := if_pos rfl

/-- With no reset under way, and no commit mode that has yet to end, a reset requested starts. -/
theorem State.requestReset_start {s : State} {cause way : Nat} (hc : cause ≠ 1) (hr : s.sv.resetAt = none)
    (hp : s.trip.pwHoldAt = none) (hq : s.trip.preseqAt = none) (hd : s.led.commit = false ∨ s.led.commitDone ≠ none) :
    s.requestReset cause way = s.startReset cause way := by
  unfold State.requestReset
  rw [if_neg hc, if_neg (by simp [hr, hp, hq]), if_neg]
  rintro ⟨hcommit, hdone, -⟩
  rcases hd with hd | hd
  · rw [hd] at hcommit; cases hcommit
  · exact hd hdone

/-- The pre-sequence starts, and leaves the supervisor but for the cause. -/
theorem State.steady_preseqStart (s : State) (cause : Nat) :
    Steady { s with sv := { s.sv with cause := cause }, trip := { s.trip with preseqAt := some s.now, preseqCause := cause } }
      (s.preseqStart cause) :=
  (Steady.refl _).stringSource.tripFlush

theorem State.preseqFor_preseqStart (s : State) (cause : Nat) : (s.preseqStart cause).PreseqFor s.now cause :=
  ⟨(s.steady_preseqStart cause).preseqAt, by rw [(s.steady_preseqStart cause).sv]⟩

/-- At 5 ms the pre-sequence ends in the chip reset of the supervisor's cause (R150). -/
theorem State.preseqEnd_late {s : State} {t0 : Nat} (h : s.trip.preseqAt = some t0) (hn : t0 + 5 * ms ≤ s.now) :
    ∃ z, Steady s z ∧ s.preseqEnd = z.chipReset s.sv.cause := by
  have flushed := (Steady.refl s).tripFlush
  have opened (l ws : List Nat) : Steady s ((l.foldl (fun s r => s.hcOff r false) s.tripFlush).raise srcTrip EV_PRESEQ ws) :=
    (flushed.foldl (fun _ _ h => h.hcOff)).raise
  unfold State.preseqEnd
  rw [h]
  dsimp only
  rw [if_neg (by rw [flushed.now]; omega), (opened _ _).sv]
  exact ⟨_, opened _ _, rfl⟩

/-! ## A region's return (R18, R170) -/

theorem State.inReset_restartGrain (s : State) (g : Nat) : (s.restartGrain g).fab.inReset = s.fab.inReset :=
  ite_keeps (fun u : State => u.fab.inReset) rfl (ite_keeps (fun u : State => u.fab.inReset) rfl rfl)

theorem State.led_restartGrain (s : State) (g : Nat) : (s.restartGrain g).led = s.led :=
  ite_keeps State.led rfl (ite_keeps State.led rfl rfl)

theorem State.inReset_blockUp (s : State) (blk : Nat) : (s.blockUp blk).fab.inReset = s.fab.inReset :=
  foldl_keeps (fun u : State => u.fab.inReset) (by exact fun s g => s.inReset_restartGrain g) _ _

theorem State.led_blockUp (s : State) (blk : Nat) : (s.blockUp blk).led = s.led :=
  foldl_keeps State.led (by exact fun s g => s.led_restartGrain g) _ _

theorem State.inReset_discardStores (s : State) : s.discardStores.fab.inReset = s.fab.inReset := by
  have stores (l : List PendStore) : (l.foldl (fun s p => s.storeLE p.addr 4 p.old) s).fab.inReset = s.fab.inReset :=
    foldl_keeps (fun u : State => u.fab.inReset) (by
      intro s p
      obtain ⟨_, _, _, h⟩ := s.storeLE_eq p.addr 4 p.old
      rw [h]) l s
  exact (foldl_keeps (fun u : State => u.fab.inReset) (by intros; rfl) _ _).trans (stores _)

/-- PS out of reset, with a commit trigger that waited for it carried out. -/
theorem State.regionUp_ps (s : State) : (s.regionUp 5).psReset = false ∧
    (s.led.commitWait = true → (s.regionUp 5).led.commit = true) := by
  have keeps (u : State) : ((blocksOfRegion 5).foldl (fun s b => s.blockUp b) u).fab.inReset = u.fab.inReset ∧
      ((blocksOfRegion 5).foldl (fun s b => s.blockUp b) u).led = u.led :=
    ⟨foldl_keeps (fun u : State => u.fab.inReset) (by exact fun s b => s.inReset_blockUp b) _ _,
      foldl_keeps State.led (by exact fun s b => s.led_blockUp b) _ _⟩
  unfold State.regionUp
  dsimp only
  generalize hu : (State.updUnit _ _ _) = u
  have hout : Tab.get false u.fab.inReset 5 = false := by rw [← hu]; exact Tab.get_set_same false s.fab.inReset 5 false
  have hwait : u.led = s.led := by rw [← hu]; rfl
  obtain ⟨hin, hled⟩ := keeps u
  generalize (blocksOfRegion 5).foldl (fun (s : State) b => s.blockUp b) u = b at hin hled ⊢
  have out : Tab.get false b.fab.inReset 5 = false := by rw [hin, hout]
  refine ⟨ite_keeps State.psReset ?_ out, fun hw => ?_⟩
  · exact (congrArg (Tab.get false · 5) (State.inReset_discardStores _)).trans out
  · rw [if_pos ⟨Eq.refl 5, by rw [hled, hwait, hw]⟩]
    rfl

end Sys2Proof.Machine
end

section
/-!
PROOF. The supervisor's own commands, one lemma for what each leads to: rails, power failure, the output hold, the reset pins,
and the ways out of a chip reset (R150, R151, R470 to R480, R484).
-/

namespace Sys2Proof.Machine

theorem State.ns_of_now {s u : State} (h : u.now = s.now) : u.ns = s.ns := by
  unfold State.ns
  rw [h]

/-! ## Supplies (R470, R471) -/

/-- A rail noted under its threshold, with the chip reset that follows at once. -/
theorem State.supplyNote_chipReset (s : State) (rail : Rail) {cause : Nat} (h : cause < 16) :
    ((s.supplyNote rail).chipReset cause).HeldFor s.now cause := by
  have held := (s.supplyNote rail).heldFor_chipReset h
  rwa [State.supplyNote, State.now_raise] at held

theorem State.raised_supplyNote_chipReset (s : State) (rail : Rail) :
    s.Raised ((s.supplyNote rail).chipReset 1) srcSV EV_SV_SUPPLY [railBit rail] :=
  State.raised_of_pile rfl (State.pile_chipReset_one _)
    (State.ns_of_now ((State.now_chipReset ..).trans (s.now_raise ..)))

theorem execSupplyFault_core {s : State} {rail : Rail} (h : rail = .vcore ∨ rail = .vddm) (t : Nat) :
    ∃ u, execSupplyFault s rail .under t = .next u ∧ u.HeldFor (s.at t).now 1 ∧ s.Raised u srcSV EV_SV_SUPPLY [railBit rail] := by
  have reset : execSupplyFault s rail .under t = .next ((((s.at t).railSet rail false).supplyNote rail).requestReset 1 0) := by
    rcases h with rfl | rfl <;> rfl
  rw [State.requestReset_one] at reset
  exact ⟨_, reset, ((s.at t).railSet rail false).supplyNote_chipReset rail (by decide),
    ((s.at t).railSet rail false).raised_supplyNote_chipReset rail⟩

/-- A rail noted outside with nothing under way: the reset it asks for starts. -/
theorem State.requestReset_supplyNote {s : State} (h : s.Clear) (t : Nat) (rail : Rail) (ok : Bool) (way : Nat) :
    (((s.at t).railSet rail ok).supplyNote rail).requestReset 3 way =
      (((s.at t).railSet rail ok).supplyNote rail).startReset 3 way := by
  obtain ⟨hr, hp, hq, hc⟩ := h
  unfold State.supplyNote
  apply State.requestReset_start (by decide)
  · rw [State.sv_raise]; exact hr
  · rw [State.trip_raise]; exact hp
  · rw [State.trip_raise]; exact hq
  · rw [State.commit_raise]; exact .inl hc

theorem execSupplyFault_vio33 {s : State} (h : s.Clear) (t : Nat) :
    ∃ u, execSupplyFault s .vio33 .under t = .next u ∧ u.HeldFor (s.at t).now 3 :=
  ⟨_, congrArg Host.Outcome.next (State.requestReset_supplyNote h t .vio33 false 0),
    ((s.at t).railSet .vio33 false).supplyNote_chipReset .vio33 (by decide)⟩

theorem execSupplyFault_above {s : State} {rail : Rail} (h : s.Clear) (hv : rail ≠ .vbat) (t : Nat) :
    ∃ u, execSupplyFault s rail .above t = .next u ∧ u.PreseqFor (s.at t).now 3 := by
  have asked : execSupplyFault s rail .above t = .next ((((s.at t).railSet rail false).supplyNote rail).requestReset 3 1) := by
    cases rail
    case vbat => exact absurd rfl hv
    all_goals rfl
  have started := (((s.at t).railSet rail false).supplyNote rail).preseqFor_preseqStart 3
  rw [State.requestReset_supplyNote h] at asked
  rw [show (((s.at t).railSet rail false).supplyNote rail).now = (s.at t).now from State.now_raise ..] at started
  exact ⟨_, asked, started⟩

theorem execSupplyFault_inside (s : State) (rail : Rail) (t : Nat) :
    ∃ u, execSupplyFault s rail .inside t = .next u ∧ u.rdB SV_SUP_STAT ⟨railBit rail, railBit rail⟩ = true ∧
      u.sv.resetAt = s.sv.resetAt ∧ u.led = s.led := by
  have noted : execSupplyFault s rail .inside t = .next ((s.at t).railSet rail true) := by cases rail <;> rfl
  exact ⟨_, noted, (s.at t).rdB_wrBit_same SV_SUP_STAT true (by cases rail <;> decide), rfl, rfl⟩

/-- The rails seen, with one of the four on-chip rails set or cleared. -/
def railsWith (n i : Nat) (ok : Bool) : Nat := if i = 4 then n else n - b2n (bit n i) * 2 ^ i + b2n ok * 2 ^ i

theorem State.rails_railSet (s : State) (r : Rail) (ok : Bool) :
    (s.railSet r ok).sv.rails = railsWith s.sv.rails (railBit r) ok := rfl

/-- The four rails inside set all four bits of the rails seen. -/
theorem railsWith_all : ∀ x : Fin 16,
    railsWith (railsWith (railsWith (railsWith x.val 0 true) 1 true) 2 true) 3 true = 15 := by decide

theorem execPowerOnRelease_noted {s : State} (vbat x32 : Bool) (vsys : Fin 65536) (t : Nat) (hr : s.sv.resetAt ≠ none)
    (hx : s.sv.rails < 16) : ∃ u, execPowerOnRelease s vbat x32 vsys t = .next u ∧
      u.sv.rails = 15 ∧ u.sv.test = false ∧ u.rd SV_SUP_STAT SV_SUP_STAT_VSYS = vsys ∧
      u.rdB SV_SUP_STAT SV_SUP_STAT_VBATOK = vbat ∧ u.rd SV_CLK_STAT SV_CLK_STAT_LOCK = 15 ∧
      u.rdB SV_CLK_STAT SV_CLK_STAT_XTAL = true ∧ u.rdB SV_CLK_STAT SV_CLK_STAT_X32 = x32 := by
  have held : ¬ (s.at t).sv.resetAt.isNone = true := by
    intro h
    exact hr (Option.isNone_iff_eq_none.mp h)
  obtain ⟨z, hz⟩ : ∃ z, z = [Rail.vcore, .vddm, .vio18, .vio33].foldl (fun s r => s.railSet r true) (s.at t) := ⟨_, rfl⟩
  have rails : z.sv.rails = 15 := by
    rw [hz, List.foldl_cons, List.foldl_cons, List.foldl_cons, List.foldl_cons, List.foldl_nil, State.rails_railSet,
      State.rails_railSet, State.rails_railSet, State.rails_railSet]
    exact railsWith_all ⟨s.sv.rails, hx⟩
  obtain ⟨y, hy⟩ : ∃ y, y = ((((z.railSet .vbat vbat).wr SV_SUP_STAT SV_SUP_STAT_VSYS vsys.val).wr SV_CLK_STAT SV_CLK_STAT_XTAL 1).wr
    SV_CLK_STAT SV_CLK_STAT_LOCK 15).wr SV_CLK_STAT SV_CLK_STAT_X32 (b2n x32) := ⟨_, rfl⟩
  have hsv : y.sv.rails = 15 := by
    rw [hy, State.sv_wr, State.sv_wr, State.sv_wr, State.sv_wr, State.rails_railSet, rails]
    rfl
  unfold execPowerOnRelease
  dsimp only
  rw [if_neg held, ← hz, ← hy]
  refine ⟨_, rfl, hsv, rfl, ?_, ?_, ?_, ?_, ?_⟩
  · show y.rd _ _ = _
    rw [hy, State.rd_wr_ne _ _ _ _ (by decide), State.rd_wr_ne _ _ _ _ (by decide), State.rd_wr_ne _ _ _ _ (by decide),
      State.rd_wr_same _ _ _ _ (by decide)]
    exact Nat.mod_eq_of_lt vsys.isLt
  · have vbatok := z.rdB_wrBit_same SV_SUP_STAT vbat (i := 4) (by decide)
    show (y.rd _ _ == 1) = _
    rw [hy, State.rd_wr_ne _ _ _ _ (by decide), State.rd_wr_ne _ _ _ _ (by decide), State.rd_wr_ne _ _ _ _ (by decide),
      State.rd_wr_apart _ _ _ _ _ (by decide) (by decide) (by decide)]
    exact vbatok
  · show y.rd _ _ = _
    rw [hy, State.rd_wr_apart _ _ _ _ _ (by decide) (by decide) (by decide), State.rd_wr_same _ _ _ _ (by decide)]
    rfl
  · show (y.rd _ _ == 1) = _
    rw [hy, State.rd_wr_apart _ _ _ _ _ (by decide) (by decide) (by decide),
      State.rd_wr_apart _ _ _ _ _ (by decide) (by decide) (by decide), State.rd_wr_same _ _ _ _ (by decide)]
    rfl
  · show y.rdB _ _ = _
    rw [hy]
    exact State.rdB_wr_b2n _ _ _ (by decide) (by decide)

/-! ## Power failure (R472, R473) -/

/-- A vector grain that runs halts. -/
def State.haltRunning (s : State) (v : Nat) : State :=
  if (s.grain (vecSrc v)).run = .running then s.updGrain (vecSrc v) (fun g => { g with run := .halted }) else s

theorem State.haltRunning_keeps {β : Type} (p : State → β) (h : ∀ (u : State) g x, p (u.setGrain g x) = p u) (s : State)
    (v : Nat) : p (s.haltRunning v) = p s :=
  ite_keeps p (h ..) rfl

/-- A grain that runs, or stands halted. -/
def State.Halting (s : State) (g : Nat) : Prop := (s.grain g).run = .running ∨ (s.grain g).run = .halted

theorem State.halted_haltRunning {s : State} {g : Nat} (h : (s.grain g).run = .halted) (v : Nat) :
    ((s.haltRunning v).grain g).run = .halted := by
  unfold State.haltRunning
  split
  · by_cases e : g = vecSrc v
    · rw [e, State.grain_updGrain_same]
    · rw [State.grain_updGrain_ne _ _ e, h]
  · exact h

theorem State.haltRunning_same {s : State} {v : Nat} (h : s.Halting (vecSrc v)) :
    ((s.haltRunning v).grain (vecSrc v)).run = .halted := by
  unfold State.haltRunning
  split
  · rw [State.grain_updGrain_same]
  · next hr => exact h.resolve_left hr

theorem State.Halting.haltRunning {s : State} {g : Nat} (h : s.Halting g) (v : Nat) : (s.haltRunning v).Halting g := by
  by_cases e : g = vecSrc v
  · subst e
    exact .inr (State.haltRunning_same h)
  · unfold State.haltRunning
    split
    · unfold State.Halting
      rwa [State.grain_updGrain_ne _ _ e]
    · exact h

/-- A running vector grain that is listed ends halted. -/
theorem State.Halting.foldl {s : State} {v : Nat} (h : s.Halting (vecSrc v)) {l : List Nat} (hv : v ∈ l) :
    ((l.foldl State.haltRunning s).grain (vecSrc v)).run = .halted := by
  induction l generalizing s with
  | nil => cases hv
  | cons w l ih =>
    rcases List.mem_cons.mp hv with rfl | hv
    · exact List.foldlRecOn (motive := fun u : State => (u.grain (vecSrc v)).run = .halted) l State.haltRunning
        (State.haltRunning_same h) (fun _ hu _ _ => State.halted_haltRunning hu _)
    · exact ih (h.haltRunning w) hv

/-- A power failure seen: the rail's voltage, the failure's instant, its flag and its count (R472). -/
def State.failSeen (s : State) (vsys : Nat) : State :=
  let s1 := s.wr SV_SUP_STAT SV_SUP_STAT_VSYS vsys
  (({ s1 with sv := { s1.sv with pf := true, pfAt := some s1.now, railOkAt := none } } : State).wr SV_SUP_STAT SV_SUP_STAT_PF 1).hit
    SV_EVT SV_EVT_PF SV_CNT SV_CNT_PFN

/-- Every string inhibited, once commit mode is triggered. -/
def State.failInhibit (s : State) : State := (List.range 12).foldl (fun s r => s.inhibitAct r) s.commitTrigger

/-- What a power failure does (R472). -/
def State.failHalt (s : State) : State := (List.range 16).foldl State.haltRunning s.failInhibit

/-- A rail that falls below the threshold outside a reset is a power failure. -/
theorem execPowerFail_eq {s : State} {vsys : Fin 65536} (t : Nat) (hf : s.sv.pf = false)
    (hv : vsys.val < s.rd SV_PF_CFG SV_PF_CFG_PFTH * 10) (hr : s.sv.resetAt = none) :
    execPowerFail s vsys t = .next (((s.at t).failSeen vsys).raise srcSV EV_SV_POWER_FAIL [vsys.val]).failHalt := by
  have fails : ¬ (((s.at t).wr SV_SUP_STAT SV_SUP_STAT_VSYS vsys.val).sv.pf = true ∨
      ((s.at t).wr SV_SUP_STAT SV_SUP_STAT_VSYS vsys.val).rd SV_PF_CFG SV_PF_CFG_PFTH * 10 ≤ vsys.val) := by
    rw [State.rd_wr_ne _ _ _ _ (by decide)]
    rintro (h | h)
    · exact absurd (hf.symm.trans h) (by decide)
    · exact absurd hv (Nat.not_lt.mpr h)
  unfold execPowerFail
  dsimp only
  rw [if_neg fails, if_neg (by rw [State.sv_raise]; exact fun h => absurd ((congrArg Option.isSome hr).symm.trans h) (by decide))]
  rfl

theorem State.steady_failInhibit (s : State) : Steady s s.failInhibit :=
  (Steady.refl s).commitTrigger.foldl (fun _ _ h => h.inhibitAct)

/-- Inhibiting the strings leaves the ledger. -/
theorem State.led_failInhibit (s : State) : s.failInhibit.led = s.commitTrigger.led := by
  have one (s0 u : State) (r : Nat) (k : Kept (fun p => p ≠ .led_) s0 u) : Kept (fun p => p ≠ .led_) s0 (u.inhibitAct r) :=
    @State.inhibitAct_kept _ ⟨by decide⟩ ⟨by decide⟩ ⟨by decide⟩ ⟨by decide⟩ ⟨by decide⟩ _ _ _ k
  exact (Kept.foldl (one s.commitTrigger) (Kept.refl _)).same .led_ (by decide)

theorem State.failHalt_keeps {β : Type} (p : State → β) (h : ∀ (u : State) g x, p (u.setGrain g x) = p u) (s : State) :
    p s.failHalt = p s.failInhibit :=
  foldl_keeps p (by exact fun s v => s.haltRunning_keeps p h v) _ _

@[simp] theorem State.sv_failHalt (s : State) : s.failHalt.sv = s.sv :=
  (State.failHalt_keeps State.sv (by intros; rfl) s).trans s.steady_failInhibit.sv

@[simp] theorem State.now_failHalt (s : State) : s.failHalt.now = s.now :=
  (State.failHalt_keeps State.now (by intros; rfl) s).trans s.steady_failInhibit.now

@[simp] theorem State.led_failHalt (s : State) : s.failHalt.led = s.commitTrigger.led :=
  (State.failHalt_keeps State.led (by intros; rfl) s).trans s.led_failInhibit

theorem State.rdB_failHalt (s : State) {a : Nat} (f : Fld) (h : a < 0x42000000) : s.failHalt.rdB a f = s.rdB a f :=
  (State.failHalt_keeps (fun u : State => u.rdB a f) (by intros; rfl) s).trans (s.steady_failInhibit.rdB h f)

/-- A vector grain that ran is halted. -/
theorem State.halted_failHalt {s : State} {v : Nat} (hv : v < 16) (h : (s.grain (vecSrc v)).run = .running) :
    (s.failHalt.grain (vecSrc v)).run = .halted :=
  State.Halting.foldl (.inl ((s.steady_failInhibit.run _).trans h)) (List.mem_range.mpr hv)

theorem State.led_discardStores (s : State) : s.discardStores.led = s.led :=
  (@State.discardStores_kept (fun p => p ≠ .led_) ⟨by decide⟩ ⟨by decide⟩ ⟨by decide⟩ _ _ (Kept.refl s)).same .led_ (by decide)

/-- Commit mode starts no event. -/
theorem State.pile_commitTrigger (s : State) : s.commitTrigger.led.pile = s.led.pile :=
  ite_keeps (fun u : State => u.led.pile) rfl
    (ite_keeps (fun u : State => u.led.pile) rfl (show s.discardStores.led.pile = _ by rw [State.led_discardStores]))

/-- Commit mode starts at the trigger while PS is up (R437). -/
theorem State.commit_commitTrigger {s : State} (hc : s.led.commit = false) (hp : s.psReset = false) :
    s.commitTrigger.led.commit = true ∧ s.commitTrigger.led.commitAt = s.now := by
  unfold State.commitTrigger
  rw [if_neg (by rw [hc]; decide), if_neg (by rw [hp]; decide)]
  exact ⟨rfl, rfl⟩

/-- A trigger while PS is in reset waits for it (R18). -/
theorem State.commitWait_commitTrigger {s : State} (hc : s.led.commit = false) (hp : s.psReset = true) :
    s.commitTrigger.led.commitWait = true := by
  unfold State.commitTrigger
  rw [if_neg (by rw [hc]; decide), if_pos hp]

theorem execPowerFail_seen {s : State} {vsys : Fin 65536} (t : Nat) (hf : s.sv.pf = false)
    (hv : vsys.val < s.rd SV_PF_CFG SV_PF_CFG_PFTH * 10) (hr : s.sv.resetAt = none) :
    ∃ u, execPowerFail s vsys t = .next u ∧ u.sv.pf = true ∧ u.rdB SV_EVT SV_EVT_PF = true ∧
      s.Raised u srcSV EV_SV_POWER_FAIL [vsys.val] ∧
      (s.led.commit = false → s.psReset = false → u.led.commit = true ∧ u.led.commitAt = (s.at t).now) ∧
      (s.led.commit = false → s.psReset = true → u.led.commitWait = true) ∧
      ∀ v, v < 16 → (s.grain (vecSrc v)).run = .running → (u.grain (vecSrc v)).run = .halted := by
  have seen : ((s.at t).failSeen vsys).rdB SV_EVT SV_EVT_PF = true :=
    State.rdB_hit_same _ _ _ (by decide) (by decide) (by decide)
  obtain ⟨z, hz⟩ : ∃ z, z = ((s.at t).failSeen vsys).raise srcSV EV_SV_POWER_FAIL [vsys.val] := ⟨_, rfl⟩
  have hcommit : z.led.commit = s.led.commit := by rw [hz]; exact State.commit_raise ..
  have hps : z.psReset = s.psReset := by rw [hz]; unfold State.psReset; rw [State.fab_raise]; rfl
  have hnow : z.now = (s.at t).now := by rw [hz]; exact State.now_raise ..
  rw [execPowerFail_eq t hf hv hr, ← hz]
  refine ⟨_, rfl, ?_, ?_, ?_, fun hc hp => ?_, fun hc hp => ?_, fun v hv h => ?_⟩
  · rw [State.sv_failHalt, hz, State.sv_raise]
    rfl
  · rw [State.rdB_failHalt _ _ (by decide), hz, State.rdB_raise _ _ _ _ _ (by decide) (by decide)]
    exact seen
  · refine State.raised_of_pile (s' := (s.at t).failSeen vsys) rfl ?_ (State.ns_of_now (z.now_failHalt.trans hnow))
    rw [State.led_failHalt, State.pile_commitTrigger, hz]
  · rw [State.led_failHalt, ← hnow]
    exact State.commit_commitTrigger (hcommit.trans hc) (hps.trans hp)
  · rw [State.led_failHalt]
    exact State.commitWait_commitTrigger (hcommit.trans hc) (hps.trans hp)
  · refine State.halted_failHalt hv ?_
    rw [hz, State.grain_raise]
    exact h

/-- A recovered rail noted (R473). -/
def State.recoverySeen (s : State) (vsys since : Nat) : State :=
  let s1 := (s.wr SV_SUP_STAT SV_SUP_STAT_VSYS vsys).wr SV_SUP_STAT SV_SUP_STAT_PF 0
  { s1 with sv := { s1.sv with railOkAt := some since } }

/-- The power failure over. -/
def State.failOver (s : State) : State := { s with sv := { s.sv with pf := false } }

/-- A rail above the threshold and its hysteresis has recovered. -/
theorem execPowerFailRecovery_eq {s x : State} {vsys : Fin 65536} {since : Nat} (t : Nat) (hf : s.sv.pf = true)
    (hv : (s.rd SV_PF_CFG SV_PF_CFG_PFTH + s.rd SV_PF_CFG SV_PF_CFG_PFHYS) * 10 < vsys.val)
    (hx : x = (s.at t).recoverySeen vsys since) :
    execPowerFailRecovery s vsys since t =
      if x.sv.resetAt.isSome then .next (if since + 100 * ms ≤ x.now then x.failOver else x)
      else match x.led.commitDone with
        | some d => if Nat.max since d + 100 * ms ≤ x.now then .next (x.failOver.requestReset 8 1) else .next x
        | none => .next x := by
  have recovers : ¬ (¬ ((s.at t).wr SV_SUP_STAT SV_SUP_STAT_VSYS vsys.val).sv.pf = true ∨
      vsys.val ≤ (((s.at t).wr SV_SUP_STAT SV_SUP_STAT_VSYS vsys.val).rd SV_PF_CFG SV_PF_CFG_PFTH +
        ((s.at t).wr SV_SUP_STAT SV_SUP_STAT_VSYS vsys.val).rd SV_PF_CFG SV_PF_CFG_PFHYS) * 10) := by
    rw [State.rd_wr_ne _ _ _ _ (by decide), State.rd_wr_ne _ _ _ _ (by decide)]
    rintro (h | h)
    · exact h hf
    · exact absurd hv (Nat.not_lt.mpr h)
  rw [hx]
  unfold execPowerFailRecovery State.failOver State.recoverySeen
  exact (if_neg recovers).trans rfl

theorem execPowerFailRecovery_preseq {s : State} {vsys : Fin 65536} {since d : Nat} (t : Nat) (hf : s.sv.pf = true)
    (hv : (s.rd SV_PF_CFG SV_PF_CFG_PFTH + s.rd SV_PF_CFG SV_PF_CFG_PFHYS) * 10 < vsys.val) (hr : s.sv.resetAt = none)
    (hp : s.trip.pwHoldAt = none) (hq : s.trip.preseqAt = none) (hd : s.led.commitDone = some d)
    (hn : Nat.max since d + 100 * ms ≤ (s.at t).now) :
    ∃ u, execPowerFailRecovery s vsys since t = .next u ∧ u.sv.pf = false ∧ u.PreseqFor (s.at t).now 8 := by
  obtain ⟨x, hx⟩ : ∃ x, x = (s.at t).recoverySeen vsys since := ⟨_, rfl⟩
  have hdone : x.led.commitDone = some d := by rw [hx]; exact hd
  have hnow : x.now = (s.at t).now := by rw [hx]; rfl
  have hreset : x.sv.resetAt = none := by rw [hx]; exact hr
  have start : x.failOver.requestReset 8 1 = x.failOver.preseqStart 8 :=
    State.requestReset_start (by decide) hreset (by rw [hx]; exact hp) (by rw [hx]; exact hq)
      (.inr (fun h => by cases hdone.symm.trans h))
  have began := x.failOver.preseqFor_preseqStart 8
  refine ⟨x.failOver.preseqStart 8, ?_, ?_, ?_⟩
  · rw [execPowerFailRecovery_eq t hf hv hx, hreset, if_neg (by decide), hdone]
    dsimp only
    rw [hnow, if_pos hn, start]
  · rw [(x.failOver.steady_preseqStart 8).sv]
    rfl
  · rwa [show x.failOver.now = (s.at t).now from hnow] at began

theorem execPowerFailRecovery_held {s : State} {vsys : Fin 65536} {since : Nat} (t : Nat) (hf : s.sv.pf = true)
    (hv : (s.rd SV_PF_CFG SV_PF_CFG_PFTH + s.rd SV_PF_CFG SV_PF_CFG_PFHYS) * 10 < vsys.val) (hr : s.sv.resetAt ≠ none)
    (hn : since + 100 * ms ≤ (s.at t).now) :
    ∃ u, execPowerFailRecovery s vsys since t = .next u ∧ u.sv.pf = false ∧ u.sv.resetAt = s.sv.resetAt := by
  obtain ⟨x, hx⟩ : ∃ x, x = (s.at t).recoverySeen vsys since := ⟨_, rfl⟩
  have hnow : x.now = (s.at t).now := by rw [hx]; rfl
  have hreset : x.sv.resetAt = s.sv.resetAt := by rw [hx]; rfl
  refine ⟨x.failOver, ?_, rfl, hreset⟩
  rw [execPowerFailRecovery_eq t hf hv hx, hreset, if_pos (Option.isSome_iff_ne_none.mpr hr), hnow, if_pos hn]

end Sys2Proof.Machine
end

section
/-!
PROOF. The output hold, the reset pins and the ways out of a chip reset (R18, R150, R151, R476, R479, R480, R484), and the
statement of the supervisor's resets.
-/

namespace Sys2Proof.Machine

/-! ## The output hold (R476) -/

/-- The hold over, with the load channels' inputs released. -/
def State.holdOver (s : State) : State :=
  ({ s with sv := { s.sv with holdAt := none }, out := { s.out with ioInputs := true } } : State).wr SV_HOLD_CTL
    SV_HOLD_CTL_HOLDING 0

theorem State.steady_holdExpire (s : State) :
    Steady s ((((s.stringSource 30 0 none true).stringSource 30 0 none false).tripFlush).stopTimers (fun _ => true)) :=
  (Steady.refl s).stringSource.stringSource.tripFlush.stopTimers

theorem execHoldExpire_over {s : State} {t0 : Nat} (t : Nat) (h : s.sv.holdAt = some t0)
    (hn : t0 + s.rd SV_HOLD_CTL SV_HOLD_CTL_THOLD * 10 * ms ≤ (s.at t).now) :
    ∃ u, execHoldExpire s t = .next u ∧ u.sv.holdAt = none ∧ u.rdB SV_HOLD_CTL SV_HOLD_CTL_HOLDING = false ∧
      u.out.ioInputs = true := by
  have ends := (s.at t).holdOver.steady_holdExpire
  have released : (s.at t).holdOver.rdB SV_HOLD_CTL SV_HOLD_CTL_HOLDING = false := State.rdB_wr_zero _ _ (by decide)
  refine ⟨_, ?_, ?_, ?_, ends.ioInputs⟩
  · unfold execHoldExpire
    dsimp only
    rw [show (s.at t).sv.holdAt = some t0 from h]
    dsimp only
    rw [if_pos (by exact hn)]
    rfl
  · rw [ends.sv]
    rfl
  · rw [ends.rdB (by decide), released]

/-- The change log leaves the stacks of events. -/
theorem State.pile_changeLog (s : State) (a old new src slot : Nat) (mram : Bool) :
    (s.changeLog a old new src slot mram).led.pile = s.led.pile :=
  congrArg Prod.snd (s.stage_changeLog a old new src slot mram)

/-- An admitted word with RECLAIM set reclaims, after its change log entry (R430, R463). -/
theorem State.regTake_reclaim (s : State) (src : Nat) {v : Nat} (r : RegRow) (new : Word) (h : bit v 31 = true) :
    ∃ z : State, z.led.pile = s.led.pile ∧ s.regTake src SV_HOLD_CTL v r new = z.reclaim := by
  have low : (s.setReg SV_HOLD_CTL new).takeLow SV_HOLD_CTL = s.setReg SV_HOLD_CTL new := by
    unfold State.takeLow
    rw [show writePairLow SV_HOLD_CTL = none by decide]
  have effect (z : State) (old : Word) : z.writeEffect SV_HOLD_CTL v old = z.reclaim := by
    rw [State.writeEffect_sv _ _ _ (by decide)]
    unfold State.effFB
    rw [if_neg (by decide), if_neg (by decide), if_neg (by decide), if_neg (by decide), if_pos rfl, if_pos h]
  unfold State.regTake
  dsimp only
  rw [effect, low]
  refine ⟨_, ?_, rfl⟩
  split
  · rw [State.pile_changeLog]
    rfl
  · rfl

/-- The hold given up. -/
def State.unheld (s : State) : State :=
  ({ s with sv := { s.sv with holdAt := none } } : State).wr SV_HOLD_CTL SV_HOLD_CTL_HOLDING 0

@[simp] theorem State.led_unheld (s : State) : s.unheld.led = s.led := by
  unfold State.unheld
  rw [State.led_wr]

theorem State.reclaim_eq (s : State) : s.reclaim = s.unheld.raise srcSV EV_SV_RECLAIM [0] := by
  unfold State.reclaim State.unheld
  rfl

theorem State.holdAt_reclaim (s : State) : s.reclaim.sv.holdAt = none := by
  rw [State.reclaim_eq, State.sv_raise]
  rfl

theorem State.holding_reclaim (s : State) : s.reclaim.rdB SV_HOLD_CTL SV_HOLD_CTL_HOLDING = false := by
  rw [State.reclaim_eq, State.rdB_raise _ _ _ _ _ (by decide) (by decide)]
  exact State.rdB_wr_zero _ _ (by decide)

theorem State.raised_reclaim {s z : State} (h : z.led.pile = s.led.pile) : s.Raised z.reclaim srcSV EV_SV_RECLAIM [0] := by
  rw [State.reclaim_eq]
  exact State.raised_of_pile (s' := z.unheld) (by rw [State.led_unheld, h]) rfl (State.ns_raise ..)

/-- RECLAIM is the top bit of the word written. -/
theorem bit_reclaim (w : Word) : bit (SV_HOLD_CTL_RECLAIM.put w 1).toNat 31 = true :=
  beq_iff_eq.mpr (Fld.get_put SV_HOLD_CTL_RECLAIM w 1 (by decide))

theorem execReclaim_admitted {s : State} {src v t : Nat} {r : RegRow}
    (h : (s.at t).Admits SV_HOLD_CTL (SV_HOLD_CTL_RECLAIM.put (BitVec.ofNat 32 v) 1).toNat r) :
    ∃ u, execReclaim s src v t = .next u ∧ u.sv.holdAt = none ∧ u.rdB SV_HOLD_CTL SV_HOLD_CTL_HOLDING = false ∧
      s.Raised u srcSV EV_SV_RECLAIM [0] := by
  unfold execReclaim writeReg
  rw [State.busWrite_eq h, State.regWrite_admitted h (by decide)]
  obtain ⟨z, pile, taken⟩ := (s.at t).regTake_reclaim src r
    (mergeWord SV_HOLD_CTL r ((s.at t).reg SV_HOLD_CTL) (BitVec.ofNat 32 (SV_HOLD_CTL_RECLAIM.put (BitVec.ofNat 32 v) 1).toNat))
    (bit_reclaim (BitVec.ofNat 32 v))
  rw [taken]
  exact ⟨_, rfl, z.holdAt_reclaim, z.holding_reclaim, State.raised_reclaim pile⟩

/-! ## RESET_N and TEST_N (R479, R480) -/

theorem execResetNLow_preseq {s : State} (t : Nat) (h : s.Clear) (hl : s.sv.lowAt = none) :
    ∃ u, execResetNLow s t = .next u ∧ u.sv.lowAt = some (s.at t).now ∧ u.PreseqFor (s.at t).now 2 := by
  obtain ⟨hr, hp, hq, hc⟩ := h
  obtain ⟨x, hx⟩ : ∃ x, x = ({ s.at t with sv := { (s.at t).sv with lowAt := some (s.at t).now } } : State) := ⟨_, rfl⟩
  have hnow : x.now = (s.at t).now := by rw [hx]
  have start : x.requestReset 2 1 = x.preseqStart 2 := by
    rw [hx]
    exact State.requestReset_start (by decide) hr hp hq (.inl hc)
  have began := x.preseqFor_preseqStart 2
  refine ⟨x.preseqStart 2, ?_, ?_, hnow ▸ began⟩
  · unfold execResetNLow
    dsimp only
    rw [show (s.at t).sv.lowAt = none from hl, if_neg (by decide), ← hx, start]
  · rw [(x.steady_preseqStart 2).sv, hx]

theorem execResetNHigh_timed {s : State} {t0 : Nat} (t : Nat) (hl : s.sv.lowAt = some t0) :
    ∃ u, execResetNHigh s t = .next u ∧ u.sv.lowAt = none ∧ u.sv.highAt = (s.at t).now ∧
      u.sv.owedHeld = some (Nat.min (2 ^ 32 - 1) (((s.at t).now - t0) / ms)) ∧
      (s.sv.resetAt ≠ none → s.rd SV_RST_STAT SV_RST_STAT_CAUSE = 2 →
        u.reg SV_RST_HOLD = BitVec.ofNat 32 (Nat.min (2 ^ 32 - 1) (((s.at t).now - t0) / ms))) := by
  unfold execResetNHigh
  dsimp only
  rw [show (s.at t).sv.lowAt = some t0 from hl]
  dsimp only
  generalize Nat.min (2 ^ 32 - 1) (((s.at t).now - t0) / ms) = n
  refine ⟨_, rfl, ite_keeps (fun u : State => u.sv.lowAt) rfl rfl, ite_keeps (fun u : State => u.sv.highAt) rfl rfl,
    ite_keeps (fun u : State => u.sv.owedHeld) rfl rfl, fun hr hc => ?_⟩
  have inReset : (s.at t).sv.resetAt.isSome = true := Option.isSome_iff_ne_none.mpr hr
  have mine : ((s.at t).rd SV_RST_STAT SV_RST_STAT_CAUSE == 2) = true := beq_iff_eq.mpr hc
  rw [if_pos inReset, if_pos mine, State.reg_setReg_same]

theorem execResetNGlitch_counted (s : State) (t : Nat) : ∃ u, execResetNGlitch s t = .next u ∧ u.sv = s.sv ∧
    u.rd SV_RST_STAT SV_RST_STAT_GLITCHN = Nat.min (s.rd SV_RST_STAT SV_RST_STAT_GLITCHN + 1) 65535 := by
  refine ⟨_, rfl, rfl, ?_⟩
  unfold State.bump
  rw [State.rd_wr_same _ _ _ _ (by decide)]
  exact Nat.mod_eq_of_lt (Nat.lt_of_le_of_lt (Nat.min_le_right ..) (by decide))

theorem execTestNLow_held (s : State) (t : Nat) : ∃ u, execTestNLow s t = .next u ∧ u.HeldFor (s.at t).now 1 ∧ u.sv.test = true := by
  obtain ⟨x, hx⟩ : ∃ x, x = ({ s.at t with sv := { (s.at t).sv with test := true } } : State) := ⟨_, rfl⟩
  have hnow : x.now = (s.at t).now := by rw [hx]
  have held := x.heldFor_chipReset (cause := 1) (by decide)
  refine ⟨x.chipReset 1, ?_, hnow ▸ held, ?_⟩
  · unfold execTestNLow
    dsimp only
    rw [← hx, State.requestReset_one]
  · rw [State.test_chipReset_one, hx]

/-! ## The ends of a pre-sequence, a held PW and a reset of PS (R18, R150, R151) -/

theorem execPreseqComplete_late {s : State} {t0 : Nat} (t : Nat) (h : s.trip.preseqAt = some t0) (hn : t0 + 5 * ms ≤ (s.at t).now)
    (hc : s.sv.cause < 16) : ∃ u, execPreseqComplete s t = .next u ∧ u.HeldFor (s.at t).now s.sv.cause ∧
      u.rdB SV_RST_STAT SV_RST_STAT_PRESEQ = true := by
  obtain ⟨z, steady, ended⟩ := State.preseqEnd_late (s := s.at t) h hn
  have held := z.heldFor_chipReset hc
  rw [steady.now] at held
  refine ⟨z.chipReset s.sv.cause, congrArg Host.Outcome.next ended, held, ?_⟩
  rw [State.preseq_chipReset, steady.preseqAt, show (s.at t).trip.preseqAt = some t0 from h]
  rfl

theorem execPwResetHold_late {s : State} {t0 : Nat} (t : Nat) (h : s.trip.pwHoldAt = some t0) (hn : t0 + 5 * ms ≤ (s.at t).now)
    (hc : s.sv.cause < 16) : ∃ u, execPwResetHold s t = .next u ∧ u.HeldFor (s.at t).now s.sv.cause := by
  refine ⟨(s.at t).chipReset s.sv.cause, ?_, (s.at t).heldFor_chipReset hc⟩
  unfold execPwResetHold
  dsimp only
  rw [show (s.at t).trip.pwHoldAt = some t0 from h]
  dsimp only
  rw [if_pos hn]
  rfl

theorem execPwResetHold_start {s : State} (t : Nat) (h : s.trip.pwHoldAt = none) (hq : s.trip.preseqAt ≠ none) :
    ∃ u, execPwResetHold s t = .next u ∧ u.trip.pwHoldAt = some (s.at t).now ∧ u.trip.preseqAt = none ∧ u.sv.cause = s.sv.cause := by
  refine ⟨(s.at t).pwHold s.sv.cause, ?_, rfl, rfl, rfl⟩
  unfold execPwResetHold
  dsimp only
  rw [show (s.at t).trip.pwHoldAt = none from h]
  dsimp only
  rw [if_pos (by exact Option.isSome_iff_ne_none.mpr hq)]
  rfl

theorem execPsResetComplete_up {s : State} (t : Nat) (h : s.psReset = true) : ∃ u, execPsResetComplete s t = .next u ∧
    u.psReset = false ∧ (s.led.commitWait = true → u.led.commit = true) := by
  refine ⟨(s.at t).regionUp 5, ?_, (s.at t).regionUp_ps⟩
  unfold execPsResetComplete
  dsimp only
  rw [if_pos (by exact h)]

/-! ## The release (R484) -/

/-- What lets a chip reset go still does later. -/
theorem State.releasable_at {s : State} (t : Nat) (h : s.releasable = true) : (s.at t).releasable = true := by
  have later : s.now ≤ (s.at t).now := Nat.le_max_left ..
  unfold State.releasable at h ⊢
  rw [show (s.at t).sv = s.sv from rfl, show (s.at t).rd SV_RST_STAT SV_RST_STAT_CAUSE = s.rd SV_RST_STAT SV_RST_STAT_CAUSE from rfl]
  cases hr : s.sv.resetAt with
  | none => rw [hr] at h; cases h
  | some t0 =>
    rw [hr] at h
    simp only [Bool.and_eq_true, Bool.or_eq_true, decide_eq_true_eq] at h ⊢
    exact h.imp_right (Or.imp_right (fun ⟨h1, h2⟩ => ⟨h1.trans later, h2.trans later⟩))

/-- Chip time restarts at the RTC's time, rounded up to the PWM grid; at 0 when the RTC is invalid. -/
theorem execChipResetRelease_restart {s : State} (t : Nat) (h : s.releasable = true) :
    ∃ u, execChipResetRelease s t = .next u ∧ u.sv.resetAt = none ∧
      u.rdB SV_SUP_STAT SV_SUP_STAT_RTCLOST = s.sv.rtcBad ∧ u.now % 2500 = 0 ∧ (s.sv.rtcBad = true → u.now = 0) ∧
      (s.sv.rtcBad = false → (s.at t).rtcNow * 1000 ≤ u.now ∧ u.now < (s.at t).rtcNow * 1000 + 2500) := by
  obtain ⟨n, hn⟩ : ∃ n, n = if (s.at t).sv.rtcBad = true then 0 else ((s.at t).rtcNow * 1000 + 2499) / 2500 * 2500 := ⟨_, rfl⟩
  obtain ⟨y, hy⟩ : ∃ y, y = ((s.at t).restartTime n).wr SV_SUP_STAT SV_SUP_STAT_RTCLOST (b2n (s.at t).sv.rtcBad) := ⟨_, rfl⟩
  have hnow : y.now = n := by rw [hy, State.now_wr]; rfl
  have lost : y.rdB SV_SUP_STAT SV_SUP_STAT_RTCLOST = s.sv.rtcBad := by
    rw [hy]
    exact State.rdB_wr_b2n _ _ _ (by decide) (by decide)
  unfold execChipResetRelease
  dsimp only
  rw [if_neg (not_not_intro (State.releasable_at t h)), ← hn, ← hy]
  refine ⟨_, rfl, rfl, lost, ?_, fun hb => ?_, fun hb => ?_⟩
  · show y.now % 2500 = 0
    rw [hnow, hn]
    split
    · rfl
    · exact Nat.mul_mod_left ..
  · show y.now = 0
    rw [hnow, hn, if_pos (by exact hb)]
  · show (s.at t).rtcNow * 1000 ≤ y.now ∧ y.now < (s.at t).rtcNow * 1000 + 2500
    rw [hnow, hn, if_neg (by exact fun h => absurd (hb.symm.trans h) (by decide))]
    omega

theorem execChipResetRelease_wait {s : State} (t : Nat) (h : (s.at t).releasable = false) :
    ∃ u, execChipResetRelease s t = .next u ∧ u.sv = s.sv := by
  refine ⟨s.at t, ?_, rfl⟩
  unfold execChipResetRelease
  dsimp only
  rw [if_pos (by rw [h]; decide)]

end Sys2Proof.Machine

open Sys2Proof Sys2Proof.Machine

/-- Settles O43: each command of the supervisor leads where its row says, clause by clause, from what a chip reset and a
pre-sequence leave. -/
theorem supervisorHoldsResetsAndReleases : Obligations.SupervisorHoldsResetsAndReleases := by
  intro s src t n gives held pre free
  refine ⟨fun rail => ⟨fun h => execSupplyFault_core h t, fun h => execSupplyFault_vio33 h t,
      fun h hv => execSupplyFault_above h hv t, execSupplyFault_inside s rail t⟩,
    fun vbat x32 vsys hr hx => execPowerOnRelease_noted vbat x32 vsys t hr hx,
    fun vsys hf hv hr => execPowerFail_seen t hf hv hr,
    fun vsys since hf hv => ⟨fun d hr hp hq hd hn => execPowerFailRecovery_preseq t hf hv hr hp hq hd hn,
      fun hr hn => execPowerFailRecovery_held t hf hv hr hn⟩,
    fun t0 h hn => execHoldExpire_over t h hn,
    fun v r h => execReclaim_admitted h,
    fun h hl => execResetNLow_preseq t h hl,
    fun t0 hl => execResetNHigh_timed t hl,
    execResetNGlitch_counted s t,
    execTestNLow_held s t,
    fun t0 h hn hc _ => execPreseqComplete_late t h hn hc,
    ⟨fun t0 h hn hc _ => execPwResetHold_late t h hn hc, fun h hq => execPwResetHold_start t h hq⟩,
    fun h => execPsResetComplete_up t h,
    fun h => execChipResetRelease_restart t h,
    fun _ h => execChipResetRelease_wait t h⟩
end

section
/-!
PROOF. The nodes: what each command of a node's table does to the node, case by case, and what a node does at its own instants
(R29 to R68).
-/

namespace Sys2Proof.Machine

theorem beBytes_two (a : Nat) : beBytes a 2 = [a / 256 % 256, a % 256] := by simp [beBytes]

namespace Node

/-! ## The commands of R39 -/

section
variable {n : Node} {body : List Nat} {own : Bool} {arr t : Nat}

theorem time_enumerated (h : n.enumerated = true) : n.time body arr t = { n with
    localT := beField body 3 6 * 1000 + (if arr = n.upPort then n.d0 else n.d1) * 1250, localAt := t } := if_pos h

theorem enum_unassigned (h : n.st = .unassigned) : n.enum body arr t =
    ({ n with st := .assigned, rep := true, pos := beField body 3 1, port := beField body 4 1, addr := beField body 5 2,
              upPort := arr } : Node).answering ([0x84] ++ beBytes (beField body 5 2) 2 ++ beBytes n.serial 8 ++
      [n.type, n.cells, n.auxN, n.hw] ++ beBytes n.fw 2) t arr := if_pos h

theorem nak_own (n : Node) (ty reason t arr : Nat) : n.nak true ty reason t arr =
    { n with answer := some ([0x87, n.addr / 256 % 256, n.addr % 256, ty % 256, reason], t + 2000000, arr) } := by
  unfold nak answering nakBody
  rw [beBytes_two]
  rfl

theorem runCmd_enter (he : n.enumerated = true) (hm : beField body 3 1 = 1) (hd : n.dlySet = true) :
    n.runCmd body own arr t = { n with st := .run } := by
  unfold runCmd
  rw [if_neg (not_not_intro he), if_pos hm, if_pos hd]

theorem runCmd_undelayed (he : n.enumerated = true) (hm : beField body 3 1 = 1) (hd : n.dlySet = false) :
    n.runCmd body own arr t = n.nak own 0x16 3 t arr := by
  unfold runCmd
  rw [if_neg (not_not_intro he), if_pos hm, hd]
  rfl

theorem runCmd_leave (hm : beField body 3 1 = 0) (hs : n.st = .run) : n.runCmd body own arr t =
    { n.balStop with st := .assigned, held := [], sweep := none, balOff := false } := by
  have he : n.enumerated = true := by simp [enumerated, hs]
  have h1 : beField body 3 1 ≠ 1 := by omega
  unfold runCmd
  rw [if_neg (not_not_intro he), if_neg h1, if_pos hm, if_pos hs]

/-- The patterns of a BAL that its node takes: within its cells, and no more of them than BALMAX (R63). -/
def balFits (n : Node) (mask : Nat) : Prop := mask < 2 ^ (if n.type = 1 then n.cells else 0) ∧ popc18 mask ≤ n.register 4

theorem bal_idle {carries : Bool} (h : n.st ≠ .run) : n.bal body carries arr t = n.nak true 0x17 1 t arr := if_pos h

theorem bal_unfit {carries : Bool} (h : n.st = .run) (hf : ¬ n.balFits (beField body 3 3)) :
    n.bal body carries arr t = n.nak true 0x17 3 t arr := by
  unfold bal
  rw [if_neg (not_not_intro h), if_pos]
  unfold balFits at hf
  omega

theorem bal_uncarried (h : n.st = .run) (hf : n.balFits (beField body 3 3)) :
    n.bal body false arr t = n.nak true 0x17 4 t arr := by
  obtain ⟨hm, hp⟩ := hf
  unfold bal
  rw [if_neg (not_not_intro h), if_neg (by omega), if_pos Bool.false_ne_true]

theorem bal_taken (h : n.st = .run) (hf : n.balFits (beField body 3 3)) : n.bal body true arr t =
    if beField body 6 1 = 0 then n.balStop
    else { n with balMask := beField body 3 3, balDue := t + beField body 6 1 * sec } := by
  obtain ⟨hm, hp⟩ := hf
  unfold bal
  rw [if_neg (not_not_intro h), if_neg (by omega), if_neg (not_not_intro rfl)]

theorem owt_armed (he : n.enumerated = true) (hm : beField body 3 3 < 2 ^ (n.cells + 1)) :
    n.owt body own arr t = { n with owtArm := beField body 3 3 } := by
  have h : ¬ (2 ^ (n.cells + 1) ≤ beField body 3 3 ∧ own = true) := fun h => absurd h.1 (by omega)
  unfold owt
  rw [if_neg (not_not_intro he), if_neg h, Nat.mod_eq_of_lt hm]

theorem owt_unpopulated (he : n.enumerated = true) (hm : 2 ^ (n.cells + 1) ≤ beField body 3 3) :
    n.owt body true arr t = n.nak true 0x18 3 t arr := by
  unfold owt
  rw [if_neg (not_not_intro he), if_pos ⟨hm, rfl⟩]

/-- The nonce of an AUTH: the 12 bytes that end its body (R39). -/
theorem auth_nonce (hl : body.length = 15) : (body.drop 3).take 12 = body.drop 3 :=
  List.take_of_length_le (by rw [List.length_drop]; omega)

theorem auth_start (hl : body.length = 15) (hn : n.nonce ≠ some (body.drop 3)) : n.auth body arr t =
    { n with nonce := some (body.drop 3), authDue := t + ms, authDone := false } := by
  unfold auth
  rw [auth_nonce hl, if_neg hn]

theorem auth_keyless (hl : body.length = 15) (hn : n.nonce = some (body.drop 3)) (hk : n.key = none) :
    n.auth body arr t = n.nak true 0x19 5 t arr := by
  unfold auth
  rw [auth_nonce hl, if_pos hn, hk]

theorem auth_busy (hl : body.length = 15) (hn : n.nonce = some (body.drop 3)) (hk : n.key ≠ none) (hd : n.authDone = false) :
    n.auth body arr t = n.nak true 0x19 7 t arr := by
  obtain ⟨key, hk⟩ := Option.ne_none_iff_exists'.mp hk
  unfold auth
  rw [auth_nonce hl, if_pos hn, hk, hd]
  rfl

theorem auth_done {key : List Nat} (hl : body.length = 15) (hn : n.nonce = some (body.drop 3)) (hk : n.key = some key)
    (hd : n.authDone = true) : n.auth body arr t = n.answering ([0x85] ++ beBytes n.addr 2 ++
      beBytes (authResponse key (body.drop 3) n.serial n.port n.pos) 8) t arr := by
  unfold auth
  rw [auth_nonce hl, if_pos hn, hk, hd]
  rfl

theorem wreg_taken (h : n.wregOk (beField body 3 1) (beField body 4 4) = true) :
    n.wreg body arr t = { n with regs := Tab.put n.regs (beField body 3 1) (beField body 4 4) } := if_pos h

theorem wreg_refused (h : n.wregOk (beField body 3 1) (beField body 4 4) = false) :
    n.wreg body arr t = n.nak true 0x1A 3 t arr := if_neg (by rw [h]; exact Bool.false_ne_true)

theorem rreg_held (h : n.hasReg (beField body 3 1) = true) : n.rreg body arr t =
    n.answering ([0x86] ++ beBytes n.addr 2 ++ [beField body 3 1] ++ beBytes (n.regValue (beField body 3 1)) 4) t arr :=
  if_pos h

theorem rreg_refused (h : n.hasReg (beField body 3 1) = false) : n.rreg body arr t = n.nak true 0x1B 3 t arr :=
  if_neg (by rw [h]; exact Bool.false_ne_true)

end

/-- The values a node takes into a register (R44). -/
theorem wregOk_iff (n : Node) (r v : Nat) : n.wregOk r v = true ↔
    (r = 1 ∧ v < 256) ∨ (r = 2 ∧ n.type ≠ 1 ∧ 250 ≤ v ∧ v ≤ 4000) ∨
      (r = 3 ∧ n.type = 3 ∧ v < 65536 ∧ 1 ≤ v / 256 ∧ v % 256 ≤ 1) ∨ (r = 4 ∧ 1 ≤ v ∧ v ≤ 18) ∨ (0x10 ≤ r ∧ r < 0x20) := by
  unfold wregOk
  split
  case isTrue h => simp [h]
  split
  case isTrue h => simp [h]
  split
  case isTrue h => simp [h]
  split
  case isTrue h => simp [h]
  case isFalse => simp [*]

/-- The registers a node holds (R44). -/
theorem hasReg_iff (n : Node) (r : Nat) : n.hasReg r = true ↔
    r = 0 ∨ r = 1 ∨ (r = 2 ∧ n.type ≠ 1) ∨ (r = 3 ∧ n.type = 3) ∨ r = 4 ∨ (0x10 ≤ r ∧ r < 0x20) := by
  simp only [hasReg, Bool.or_eq_true, Bool.and_eq_true, beq_iff_eq, bne_iff_ne, decide_eq_true_eq]
  tauto

end Node

end Sys2Proof.Machine
end

section
/-!
PROOF. The commands at a node that hears them: what it does, and what it refuses (R39 to R45, R62, R63).
-/

namespace Sys2Proof.Machine

/-- A frame body names the node itself (R38). -/
def Node.Owns (n : Node) (body : List Nat) : Prop := n.enumerated = true ∧ frameAddr body = n.addr ∧ n.addr ≠ 0xFFFF

section
variable {s : State} {k t len : Nat} {body : List Nat} {node : Bool} {act : Node → Bool → Node}

/-- A command in either of its address forms, at an enumerated node. -/
theorem nodeFrame_either {m : Node} (h : s.Hears k t) (hl : body.length = len)
    (ha : (s.node k).Owns body ∨ (frameAddr body = 0xFFFF ∧ (s.node k).enumerated = true))
    (hm : ∀ own, act ((s.node k).hear body true t) own = m) :
    s.NodeBecomes k t m (.next (nodeFrame s k body t len true true act)) :=
  ha.elim (fun ho => (nodeFrame_own h (.inr hl) rfl ho).as (hm true))
    (fun hb => (nodeFrame_all h (.inr hl) rfl hb.1).as (hm false))

/-- The test that a node's own command makes of whether it hears what arrives (R31, R45). -/
theorem State.hears_iff : s.Hears k t ↔ ((s.node k).st == .sleep || decide (t < (s.node k).sendEnd)) = false := by
  simp [State.Hears]

end

variable {s : State} {p : Fin 18} {i : Fin 64} {arr : Fin 2} {t : Nat} {body : List Nat}

theorem execNodeBadCrcFrame_heard (h : s.Hears (nodeKey p i) t) :
    s.NodeBecomes (nodeKey p i) t { (s.node (nodeKey p i)).hear body false t with
      cmdCrc := satAdd (s.node (nodeKey p i)).cmdCrc 1 255 } (execNodeBadCrcFrame s p i body arr t) :=
  (s.nodeBecomes_set ..).to (if_neg (Bool.eq_false_iff.mp (State.hears_iff.mp h)))

theorem execNodeBadCrcFrame_unheard (h : ¬ s.Hears (nodeKey p i) t) :
    s.NodeBecomes (nodeKey p i) t (s.node (nodeKey p i)) (execNodeBadCrcFrame s p i body arr t) :=
  (s.nodeBecomes_at ..).to (if_pos (Bool.not_eq_false _ ▸ mt State.hears_iff.mpr h))

end Sys2Proof.Machine

open Sys2Proof Sys2Proof.Machine

/-- Settles O28, command by command: the frame reaches the node by its own address or by 0xFFFF, and the node's own equation
says what it becomes. -/
theorem nodesObeyCommands : Obligations.NodesObeyCommands := by
  intro s p i body arr t hears k n h own all r v answer addr off
  have fits {x : Nat} (hy : n.type = 1) (hm : x < 2 ^ n.cells) (hp : popc18 x ≤ n.register 4) : n.balFits x :=
    ⟨by rw [if_pos hy]; exact hm, hp⟩
  have enumerated (ha : own ∨ (all ∧ n.enumerated = true)) : n.enumerated = true := ha.elim (·.1) (·.2)
  have two (a : Nat) : addr a = beBytes a 2 := (beBytes_two a).symm
  refine ⟨?time, ?ping, ?enum, ?setdly, ?run, ?bal, ?owt, ?auth, ?wreg, ?rreg, ?reset⟩
  case time =>
    intro hl ha he
    exact (nodeFrame_all hears (.inr hl) rfl ha).as (Node.time_enumerated (by exact he))
  case ping =>
    intro hl ho
    rw [two]
    exact nodeFrame_own hears (.inr hl) rfl ho
  case enum =>
    intro hl ha hs
    rw [two, two]
    exact (nodeFrame_all hears (.inr hl) rfl ha).as (Node.enum_unassigned (by exact hs))
  case setdly =>
    intro hl ho
    exact nodeFrame_own hears (.inr hl) rfl ho
  case run =>
    intro hl ha
    exact ⟨fun hm hd => nodeFrame_either hears hl ha fun _ => Node.runCmd_enter (enumerated ha) hm hd,
      fun hm hs => nodeFrame_either hears hl ha fun _ => Node.runCmd_leave hm hs⟩
  case bal =>
    intro hl ho hs hy hm hp
    exact (nodeFrame_own hears (.inr hl) rfl ho).as (Node.bal_taken hs (fits hy hm hp))
  case owt =>
    intro hl ha hm
    exact nodeFrame_either hears hl ha fun _ => Node.owt_armed (enumerated ha) hm
  case auth =>
    intro hl ho
    refine ⟨fun hn => (nodeFrame_own hears (.inr hl) rfl ho).as (Node.auth_start hl hn), fun key hn hk hd => ?_⟩
    rw [two]
    exact (nodeFrame_own hears (.inr hl) rfl ho).as (Node.auth_done hl hn hk hd)
  case wreg =>
    intro hl ho hv
    exact (nodeFrame_own hears (.inr hl) rfl ho).as (Node.wreg_taken ((Node.wregOk_iff ..).mpr hv))
  case rreg =>
    intro hl ho hr
    rw [two]
    exact (nodeFrame_own hears (.inr hl) rfl ho).as (Node.rreg_held ((Node.hasReg_iff ..).mpr hr))
  case reset =>
    intro hl ha
    exact ha.elim (nodeFrame_own hears (.inr hl) rfl) (nodeFrame_all hears (.inr hl) rfl)

/-- Settles O29, reason by reason. -/
theorem nodesRefuseWithNak : Obligations.NodesRefuseWithNak := by
  intro s p i body arr t k n r v mask rest own nak silent
  refine ⟨fun hears ho => ?refused, fun hears => ?silent, fun hears => ?unheard⟩
  case refused =>
    have refuses {len : Nat} {bcast : Bool} {act : Node → Bool → Node} {ty reason : Nat} (hl : len = 0 ∨ body.length = len)
        (ha : act (n.hear body true t) true = (n.hear body true t).nak true ty reason t arr.val) :
        s.NodeBecomes k t { rest with
          answer := some ([0x87, n.addr / 256 % 256, n.addr % 256, ty % 256, reason], t + 2000000, arr.val) }
          (.next (nodeFrame s k body t len true bcast act)) :=
      (nodeFrame_own hears hl rfl ho).as (ha.trans (Node.nak_own ..))
    refine ⟨refuses (.inl rfl) rfl, ?run, ?bal, ?owt, ?auth, ?wreg, ?rreg⟩
    case run => exact fun hl hm hd => refuses (.inr hl) (Node.runCmd_undelayed ho.1 hm hd)
    case bal =>
      refine fun hl carries => ⟨fun hs => refuses (.inr hl) (Node.bal_idle hs),
        fun hs hm => refuses (.inr hl) (Node.bal_unfit hs ?_),
        fun hs hy hm hp => refuses (.inr hl) (Node.bal_uncarried hs ⟨by exact (if_pos hy).symm ▸ hm, hp⟩)⟩
      rintro ⟨h1, h2⟩
      change mask < 2 ^ (if n.type = 1 then n.cells else 0) at h1
      change popc18 mask ≤ n.register 4 at h2
      rcases hm with ⟨hy, hm⟩ | ⟨hy, hm⟩ | hm
      · rw [if_neg hy] at h1; omega
      · rw [if_pos hy] at h1; omega
      · omega
    case owt => exact fun hl hm => refuses (.inr hl) (Node.owt_unpopulated ho.1 hm)
    case auth =>
      exact fun hl hn => ⟨fun hk => refuses (.inr hl) (Node.auth_keyless hl hn hk),
        fun hk hd => refuses (.inr hl) (Node.auth_busy hl hn hk hd)⟩
    case wreg =>
      refine fun hl hv => refuses (.inr hl) (Node.wreg_refused (Bool.eq_false_iff.mpr fun hw => ?_))
      have := (Node.wregOk_iff ..).mp hw
      change (r = 1 ∧ v < 256) ∨ (r = 2 ∧ n.type ≠ 1 ∧ 250 ≤ v ∧ v ≤ 4000) ∨
        (r = 3 ∧ n.type = 3 ∧ v < 65536 ∧ 1 ≤ v / 256 ∧ v % 256 ≤ 1) ∨ (r = 4 ∧ 1 ≤ v ∧ v ≤ 18) ∨ (0x10 ≤ r ∧ r < 0x20) at this
      omega
    case rreg =>
      refine fun hl hv => refuses (.inr hl) (Node.rreg_refused (Bool.eq_false_iff.mpr fun hr => ?_))
      have := (Node.hasReg_iff ..).mp hr
      change r = 0 ∨ r = 1 ∨ (r = 2 ∧ n.type ≠ 1) ∨ (r = 3 ∧ n.type = 3) ∨ r = 4 ∨ (0x10 ≤ r ∧ r < 0x20) at this
      omega
  case silent =>
    refine ⟨fun hl => ⟨?_, ?_⟩, fun hl => ⟨?_, ?_⟩, fun hl => ⟨?_, ?_, fun c => ?_⟩, fun ha => ⟨?_, ?_⟩, ?_⟩
    iterate 7 exact nodeFrame_length hears ⟨by decide, hl⟩
    · exact nodeFrame_notAll hears (.inl rfl) rfl ha
    · by_cases hl : body.length = 3
      · exact nodeFrame_notAll hears (.inr hl) rfl ha
      · exact nodeFrame_length hears ⟨by decide, hl⟩
    · exact execNodeBadCrcFrame_heard (arr := arr) hears
  case unheard =>
    exact ⟨nodeFrame_unheard hears, nodeFrame_unheard hears, nodeFrame_unheard hears, execNodeBadCrcFrame_unheard (arr := arr) hears⟩
end

section
/-!
PROOF. A node's sweeps, its slot responses and its own instants (R41, R44, R45, R52 to R68).
-/

namespace Sys2Proof.Machine

theorem beBytes_length (v m : Nat) : (beBytes v m).length = m := by
  induction m with
  | zero => rfl
  | succ m ih => exact congrArg (· + 1) ih

namespace Node
variable {n : Node} {w : NodeSweep} {body : List Nat} {tag arr t : Nat}

/-! ## SAMPLE and READ (R52 to R57) -/

/-- How far ahead of local time the target of a SAMPLE lies, ns (R52). -/
def sampleDelta (n : Node) (body : List Nat) (t : Nat) : Nat :=
  (beField body 5 6 + 2 ^ 48 - n.localAtPs t / 1000 % 2 ^ 48) % 2 ^ 48

/-- The previous sweep still converts at an instant of local time (R54). -/
def converting (n : Node) (target : Nat) : Bool :=
  match n.sweep with
  | some w => decide (target < w.endNs n)
  | none => false

theorem converting_iff {target : Nat} : n.converting target = true ↔ ∃ w, n.sweep = some w ∧ target < w.endNs n := by
  unfold converting
  cases n.sweep <;> simp

/-- A node in RUN repeats what it hears (R29). -/
theorem hear_run (hs : n.st = .run) : n.hear body true t = { n with repeated := some body, lastGood := t } := by
  have he : n.enumerated = true := by simp [enumerated, hs]
  unfold hear
  rw [if_pos he]
  rfl

/-- A SAMPLE is taken when its target is 10 µs to 100 ms ahead and the previous sweep is over by then (R52). -/
theorem sample_eq (hs : n.st = .run) : n.sample body t =
    if n.sampleDelta body t < 10000 || decide (100000000 < n.sampleDelta body t) ||
      n.converting (n.localAtPs t / 1000 + n.sampleDelta body t) then { n with late := true }
    else { n with
      balOff := true
      sweep := some {
        tag := beField body 3 2, target := n.localAtPs t / 1000 + n.sampleDelta body t, mask := beField body 11 8,
        auxEn := bit (beField body 19 1) 0, owt := bit (beField body 19 1) 1 && n.owtArm != 0,
        res := { tag := beField body 3 2, owtAct := bit (beField body 19 1) 1 && n.owtArm != 0 } } } := by
  have armed : (n.owtArm != 0) = decide (n.owtArm ≠ 0) := by simp [bne, BEq.beq]
  unfold sample
  rw [if_neg (not_not_intro hs), armed]
  rfl

theorem read_scheduled (hs : n.st = .run) (hlo : beField body 7 1 ≤ n.pos) (hhi : n.pos ≤ beField body 8 1)
    (ht : beField body 3 2 ≠ 0xFFFF ∨ n.type ≠ 1) : n.read body arr t = { n with
      slot := some (beField body 3 2, (beField body 3 2 == 0xFFFF || n.held.any (fun d => d.tag == beField body 3 2)),
        t + 2000000 + (n.pos - beField body 7 1) * beField body 5 2 * 10000, arr) } :=
  if_pos ⟨hs, hlo, hhi, fun h => ht.elim (· h.1) (· h.2)⟩

/-! ## Frames sent (R33 to R35), and the slot response (R42, R43, R57) -/

theorem send_eq (n : Node) (body : List Nat) (t : Nat) : n.send body t = { n with
    sent := some (body, t), sendEnd := t + (8 * (body.length + 2) + 2) * 20000 } := rfl

theorem slotSend_unheld : n.slotSend tag false t = { n with
    slot := none, sendEnd := t + 58 * 20000, sent := some ([0x87, n.addr / 256 % 256, n.addr % 256, 0x11, 2], t) } := by
  unfold slotSend nakBody
  rw [if_pos Bool.false_ne_true, beBytes_two]
  rfl

/-- The record a node sends for a tag. -/
def recordBody (n : Node) (tag t : Nat) : List Nat :=
  if n.type = 1 then n.crecBody tag ((n.held.find? (fun h => h.tag == tag || tag == 0xFFFF)).getD { tag := tag }) t
  else n.srecBody tag ((n.held.find? (fun h => h.tag == tag || tag == 0xFFFF)).getD { tag := tag })

theorem slotSend_held : n.slotSend tag true t = { n with
    slot := none, late := false, stream := [], discarded := 0, sent := some (n.recordBody tag t, t),
    sendEnd := t + (8 * ((n.recordBody tag t).length + 2) + 2) * 20000 } := by
  unfold slotSend
  rw [if_neg (not_not_intro rfl)]
  dsimp only
  rw [send_eq]
  rfl

/-- A record begins with its type, the node's address and the tag (R42, R43). -/
theorem recordBody_head : (n.recordBody tag t).take 5 = [if n.type = 1 then 0x80 else 0x7F + n.type, n.addr / 256 % 256,
    n.addr % 256, tag / 256 % 256, tag % 256] := by
  unfold recordBody
  split <;> simp [crecBody, srecBody, beBytes_two]

theorem recordBody_length : (n.recordBody tag t).length = if n.type = 1 then 67 else 96 := by
  unfold recordBody
  split
  · simp [crecBody, beBytes_length]
  · unfold srecBody
    split <;> simp [beBytes_length]

/-! ## Conversions (R54 to R56) -/

theorem convert_channel {val : Nat} (hw : n.sweep = some w)
    (ht : w.target + 4000 * clearStep w.mask w.step 64 ≤ n.localAtPs t / 1000) (hd : w.done < n.channels) :
    n.convert val t = { n with sweep := some { w with
      done := w.done + 1, step := clearStep w.mask w.step 64 + 1,
      res := { w.res with vals := Tab.set 0 w.res.vals w.done val } } } := by
  have hc : w.done < n.conversions w.auxEn := Nat.lt_of_lt_of_le hd (Nat.le_add_right ..)
  unfold convert
  rw [hw]
  dsimp only
  rw [if_pos ⟨hc, ht⟩, if_pos hd]

theorem convert_aux {val : Nat} (hw : n.sweep = some w)
    (ht : w.target + 4000 * clearStep w.mask w.step 64 ≤ n.localAtPs t / 1000) (hd : n.channels ≤ w.done)
    (hc : w.done < n.conversions w.auxEn) :
    n.convert val t = { n with sweep := some { w with
      done := w.done + 1, step := clearStep w.mask w.step 64 + 1,
      res := { w.res with aux := Tab.set 0 w.res.aux (w.done - n.channels) val, auxFresh := true } } } := by
  unfold convert
  rw [hw]
  dsimp only
  rw [if_pos ⟨hc, ht⟩, if_neg (by omega)]

theorem conversions_eq (n : Node) (auxEn : Bool) :
    n.conversions auxEn = n.channels + (if auxEn = true ∧ n.type = 1 then n.auxN else 0) := by
  unfold conversions
  cases auxEn <;> simp

theorem sweepEnd_held {stack temp : Nat} {fuse : Bool} (hw : n.sweep = some w) (hd : n.conversions w.auxEn ≤ w.done) :
    n.sweepEnd stack temp fuse = { n with
      sweep := none, balOff := false, fuse := fuse, owtArm := if w.owt then 0 else n.owtArm,
      held := { w.res with stack := stack, aux := Tab.set 0 w.res.aux 8 temp } :: n.held.take 1 } := by
  unfold sweepEnd
  rw [hw]
  dsimp only
  rw [if_neg (by omega)]

/-! ## Stream samples (R61) -/

theorem streamPush_kept {cur : Int} (hy : n.type ≠ 1) (hl : n.stream.length < 16) : n.streamPush cur t = { n with
    stream := n.stream ++ [cur], streamAt := if n.stream = [] then n.localAtPs t / 1000 % 2 ^ 48 else n.streamAt } := by
  unfold streamPush
  rw [if_neg hy, if_pos hl]
  simp only [List.isEmpty_iff]

theorem streamPush_discards {cur : Int} (hy : n.type ≠ 1) (hl : n.stream.length = 16) : n.streamPush cur t = { n with
    stream := n.stream.tail ++ [cur], streamAt := (n.streamAt + n.register 2 * 250) % 2 ^ 48,
    discarded := Nat.min (n.discarded + 1) 255 } := by
  unfold streamPush
  rw [if_neg hy, if_neg (by omega), List.drop_one]
  rfl

end Node

/-! ## The instants of a node -/

section
variable {s : State} {p : Fin 18} {i : Fin 64} {t : Nat}

theorem execNodeAnswerSend_due {body : List Nat} {due port : Nat} (h : (s.node (nodeKey p i)).answer = some (body, due, port))
    (hd : due ≤ t) : s.NodeBecomes (nodeKey p i) t { s.node (nodeKey p i) with
      answer := none, sent := some (body, t), sendEnd := t + (8 * (body.length + 2) + 2) * 20000 }
      (execNodeAnswerSend s p i t) := by
  refine (s.nodeBecomes_set (nodeKey p i) t _).to ?_
  unfold execNodeAnswerSend
  dsimp only
  rw [State.node_at, h]
  dsimp only
  rw [Node.send_eq]
  exact if_pos hd

theorem execNodeSlotResponse_due {tag due port : Nat} {ok : Bool}
    (h : (s.node (nodeKey p i)).slot = some (tag, ok, due, port)) (hd : due ≤ t) :
    s.NodeBecomes (nodeKey p i) t ((s.node (nodeKey p i)).slotSend tag ok t) (execNodeSlotResponse s p i t) := by
  refine (s.nodeBecomes_set (nodeKey p i) t _).to ?_
  unfold execNodeSlotResponse
  dsimp only
  rw [State.node_at, h]
  exact if_pos hd

/-- A node changed where a condition holds. -/
theorem State.nodeBecomes_ite {k : Nat} {m : Node} {c : Prop} [Decidable c] (h : c) :
    s.NodeBecomes k t m (.next (if c then (s.at t).setNode k m else s.at t)) := by
  rw [if_pos h]
  exact s.nodeBecomes_set k t m

end

end Sys2Proof.Machine

open Sys2Proof Sys2Proof.Machine

/-- Settles O30: SAMPLE and READ, the slot response, and the conversions of the sweep up to its end. -/
theorem nodesSampleAndAnswerReads : Obligations.NodesSampleAndAnswerReads := by
  intro s p i body arr t k n h now target tag ctl
  refine ⟨?sample, ?read, ?respond, ?convert, ?last⟩
  case sample =>
    intro hears hs ha hl
    have frame := (nodeFrame_all (act := fun n _ => n.sample body t) (node := false) hears (.inr hl) rfl ha).as
      ((congrArg (Node.sample · body t) (Node.hear_run hs)).trans (Node.sample_eq (n := h) (body := body) (t := t) hs))
    have hd : target = now + h.sampleDelta body t := rfl
    have hc : h.converting target = true ↔ ∃ w, n.sweep = some w ∧ target < w.endNs n := Node.converting_iff (n := h)
    refine ⟨fun ht hw => frame.as (if_neg ?_), fun ht => frame.as (if_pos ?_)⟩
    · simp only [Bool.or_eq_true, decide_eq_true_eq]
      rintro ((h1 | h1) | h1)
      · omega
      · omega
      · obtain ⟨w, hw1, hw2⟩ := hc.mp h1
        exact absurd (hw w hw1) (by omega)
    · simp only [Bool.or_eq_true, decide_eq_true_eq]
      rcases ht with ht | ht | ht
      · exact .inl (.inl (by omega))
      · exact .inl (.inr (by omega))
      · exact .inr (hc.mpr ht)
  case read =>
    intro hears hs ha hl ht hlo hhi
    exact (nodeFrame_all hears (.inr hl) rfl ha).as
      ((congrArg (Node.read · body arr.val t) (Node.hear_run hs)).trans (Node.read_scheduled (n := h) hs hlo hhi ht))
  case respond =>
    intro tg ok due port hslot hd
    have sends := execNodeSlotResponse_due hslot hd
    refine ⟨fun hok => ?_, fun hok => ?_⟩
    · subst hok
      exact sends.as Node.slotSend_unheld
    · subst hok
      exact ⟨n.recordBody tg t, Node.recordBody_head, Node.recordBody_length, sends.as Node.slotSend_held⟩
  case convert =>
    intro w val st hw hst ht
    subst hst
    refine ⟨fun hd => (s.nodeBecomes_set k t _).as (Node.convert_channel hw ht hd), fun hd hy ha hc => ?_⟩
    exact (s.nodeBecomes_set k t _).as (Node.convert_aux hw ht hd (by rw [Node.conversions_eq, if_pos ⟨ha, hy⟩]; exact hc))
  case last =>
    intro w stack temp fuse hw hd
    have ended := Node.sweepEnd_held (stack := stack) (temp := temp) (fuse := fuse) hw (by rw [Node.conversions_eq]; exact hd)
    refine ⟨bit (Config.nodeHealth k t) 0, bit (Config.nodeHealth k t) 1, (s.nodeBecomes_set k t _).as ?_⟩
    rw [State.node_at, ended]

/-- Settles O31, instant by instant. -/
theorem nodesActOnTheirOwn : Obligations.NodesActOnTheirOwn := by
  intro s p i arr t k n off
  refine ⟨?answer, ?stream, ?discard, ?auth, ?timeout, ?sleep, ?awake, ?wake, ?insulation, ?powerUp⟩
  case answer => exact fun body due port h hd => execNodeAnswerSend_due h hd
  case stream => exact fun cur hy hl => (s.nodeBecomes_set k t _).as (Node.streamPush_kept hy hl)
  case discard => exact fun cur hy hl => (s.nodeBecomes_set k t _).as (Node.streamPush_discards hy hl)
  case auth => exact fun h => (s.nodeBecomes_set k t _).as (if_pos (Option.isSome_iff_ne_none.mpr h))
  case timeout => exact fun hm hd => State.nodeBecomes_ite ⟨hm, hd⟩
  case sleep => exact fun hs ht => State.nodeBecomes_ite ⟨hs, ht⟩
  case awake => exact fun ht => (s.nodeBecomes_at k t).to (congrArg _ (if_neg fun h => Nat.not_le.mpr ht h.2))
  case wake =>
    refine (s.nodeBecomes_set k t _).as ?_
    by_cases h : n.st = .sleep
    · rw [if_pos h, State.node_at, if_pos h]
    · rw [if_neg h, State.node_at, if_neg h]
  case insulation =>
    intro rpos rneg ok hy hr ht
    refine (s.nodeBecomes_set k t _).to (if_pos ?_)
    exact ⟨hy, hr, ht⟩
  case powerUp =>
    intro kind cells auxN serial key
    exact ⟨_, rfl, rfl, rfl, rfl, rfl, rfl, rfl, rfl, rfl, rfl, rfl, rfl, rfl, rfl, s.nodeBecomes_set k t _⟩
end

section
/-!
PROOF. The link instructions of an engine: what arming, sending, receiving and pinging change (R58, R67, R73, R74).
-/

namespace Sys2Proof.Machine

/-! ## Engines -/

theorem State.eng_of_lnk {s u : State} (h : u.lnk = s.lnk) (k : Nat) : u.eng k = s.eng k := by
  unfold State.eng
  rw [h]

theorem State.lnk_updEng_congr {s u : State} (h : u.lnk = s.lnk) (k : Nat) (f : Engine → Engine) :
    (u.updEng k f).lnk = (s.updEng k f).lnk := by
  unfold State.updEng State.eng
  rw [h]

theorem State.rd_of_regs {s u : State} (h : u.regs = s.regs) {a : Nat} {f : Fld} : u.rd a f = s.rd a f := by
  unfold State.rd State.reg
  rw [h]

/-- From one state to another engine `k` alone has changed among the links. -/
structure State.EngineAlone (s : State) (k : Nat) (u : State) : Prop where
  others : ∀ j, j ≠ k → u.eng j = s.eng j
  rest : { u.lnk with engines := [] } = { s.lnk with engines := [] }

theorem State.engineAlone_of_lnk {s u : State} {k : Nat} {f : Engine → Engine} (h : u.lnk = (s.updEng k f).lnk) :
    s.EngineAlone k u ∧ u.eng k = f (s.eng k) := by
  refine ⟨⟨fun j hj => ?_, ?_⟩, ?_⟩
  · rw [State.eng_of_lnk h, State.eng_updEng_ne _ _ hj]
  · rw [h]
    rfl
  · rw [State.eng_of_lnk h, State.eng_updEng_same]

/-- A refusal by a link instruction leaves the links (R74). -/
@[simp] theorem State.lnk_linkRefuse (s : State) (src q func : Nat) : (s.linkRefuse src q func).lnk = s.lnk :=
  (@State.linkRefuse_kept (· ≠ Part.lnk_) ⟨nofun⟩ ⟨nofun⟩ ⟨nofun⟩ ⟨nofun⟩ s s src q func (Kept.refl s)).same .lnk_ (· rfl)

/-- It leaves the registers and the pc of every grain: of the grains it changes the inboxes alone. -/
theorem State.regs_linkRefuse (s : State) (src q func g : Nat) :
    ((s.linkRefuse src q func).grain g).g = (s.grain g).g ∧ ((s.linkRefuse src q func).grain g).pc = (s.grain g).pc := by
  have same := (@State.linkRefuse_kept (· ≠ Part.grains_) ⟨nofun⟩ ⟨nofun⟩ ⟨nofun⟩ ⟨nofun⟩ s s src q func (Kept.refl s)).same
    .grains_ (· rfl) g
  exact ⟨(congrArg Grain.g same :), (congrArg Grain.pc same :)⟩

/-! ## Slots (R58) -/

theorem State.minSlot_le (s : State) (p : Nat) : s.minSlot p ≤ 1660 := by
  unfold State.minSlot
  split <;> omega

theorem State.minSlot_cells {s : State} {p : Nat} (h : ∀ q, q < s.portNodes p → s.nodeType p (q + 1) < 2) :
    s.minSlot p = 1196 := by
  unfold State.minSlot
  refine if_neg fun hc => ?_
  obtain ⟨q, hq, h2⟩ := List.any_eq_true.mp hc
  have := h q (List.mem_range.mp hq)
  exact absurd (of_decide_eq_true h2) (by omega)

theorem State.minSlot_sense {s : State} {p : Nat} (h : ∃ q, q < s.portNodes p ∧ 2 ≤ s.nodeType p (q + 1)) :
    s.minSlot p = 1660 := by
  obtain ⟨q, hq, h2⟩ := h
  exact if_pos (List.any_eq_true.mpr ⟨q, List.mem_range.mpr hq, decide_eq_true h2⟩)

theorem State.le_minSlot (s : State) (p : Nat) : 1196 ≤ s.minSlot p := by
  unfold State.minSlot
  split <;> omega

/-! ## The wake tone (R67) -/

@[simp] theorem State.lnk_wakeTone (s : State) (k n : Nat) :
    (s.wakeTone k n).lnk = (s.updEng k (fun e => { e with wake := some (s.now, n) })).lnk := by
  unfold State.wakeTone
  rw [State.lnk_raise]
  rfl

theorem portStat_ne_ledger {k : Nat} (_ : k < 20) : AQ_PORT_STAT k ≠ LEDGER_EVT ∧ AQ_PORT_STAT k ≠ LEDGER_CNT := by
  unfold AQ_PORT_STAT LEDGER_EVT LEDGER_CNT
  omega

/-- The port is in WAKE (R67). -/
theorem State.portState_wakeTone (s : State) {k : Nat} (n : Nat) (hk : k < 20) :
    (s.wakeTone k n).rd (AQ_PORT_STAT k) AQ_PORT_STAT_STATE = 1 := by
  obtain ⟨h1, h2⟩ := portStat_ne_ledger hk
  unfold State.wakeTone
  rw [State.rd_raise _ _ _ _ _ h1 h2, State.rd_wr_same _ _ _ _ (by decide)]
  rfl

theorem State.Did.wakeTone {s u : State} {g : GrainId} {t : Nat} {f : Grain → Grain} {ps : List Part}
    (h : s.Did g t ps f u) (hl : Part.lnk_ ∈ ps) (hr : Part.regs_ ∈ ps) (ho : Part.lost_ ∈ ps) (hd : Part.led_ ∈ ps)
    (k n : Nat) : s.Did g t ps f (u.wakeTone k n) :=
  ((h.updEng hl k _).setReg hr ho _ _).raise hd ho _ _ _

/-! ## The end of an instruction that waited (R73) -/

/-- The wait ends, `rd` takes its value and the next instruction follows. -/
def State.waitDone (s : State) (src rd v : Nat) : State :=
  ((s.updGrain src (fun x => { x with wait := .none })).setG src rd (BitVec.ofNat 32 v)).stepOn src

/-- The grain then. -/
def Grain.waitDone (x : Grain) (rd v n : Nat) : Grain := (({ x with wait := .none } : Grain).put rd (BitVec.ofNat 32 v)).next n

theorem State.Did.waitDone {s u : State} {g : GrainId} {t : Nat} {ps : List Part} (h : s.Did g t ps id u) (rd v : Nat) :
    s.Did g t ps (fun x => x.waitDone rd v (Nat.max s.now t)) (u.waitDone g.src rd v) :=
  ((h.upd (fun x => { x with wait := .none })).setG rd _).stepOn

@[simp] theorem State.lnk_waitDone (s : State) (src rd v : Nat) : (s.waitDone src rd v).lnk = s.lnk := by
  unfold State.waitDone
  rw [State.lnk_stepOn, State.lnk_setG]
  rfl

@[simp] theorem State.mem_waitDone (s : State) (src rd v : Nat) : (s.waitDone src rd v).mem = s.mem := by
  unfold State.waitDone
  rw [State.mem_stepOn, State.mem_setG]
  rfl

/-! ## The instructions of a ready engine (R73, R74) -/

section
variable {s : State} {e : Fin 20} {rd rs1 rs2 imm5 : Fin 32} {t : Nat}

theorem execLtarm_ready (h : s.Ready (.link e)) : execLtarm s (.link e) rs1 rs2 t = .next (((s.at t).updEng
    (engOf (GrainId.link e).src) (fun x => { x with launch := (s.gReg (GrainId.link e).src rs1).toNat +
      (s.gReg (GrainId.link e).src rs2).toNat * 2 ^ 32 })).stepOn (GrainId.link e).src) :=
  State.issue_ready h rfl (.inl rfl)

theorem execLslot_armed (h : s.Ready (.link e))
    (hs : s.minSlot (portOf (engOf (GrainId.link e).src)) ≤ (s.gReg (GrainId.link e).src rs2).toNat) :
    execLslot s (.link e) rs1 rs2 t = .next (((s.at t).updEng (engOf (GrainId.link e).src) (fun x => { x with
      slot := some ((s.gReg (GrainId.link e).src rs1).toNat % 256, (s.gReg (GrainId.link e).src rs1).toNat / 256 % 256,
        (s.gReg (GrainId.link e).src rs2).toNat) })).stepOn (GrainId.link e).src) :=
  (State.issue_ready h rfl (.inl rfl)).trans (congrArg _ (if_neg (Nat.not_lt.mpr hs)))

theorem execLslot_short (h : s.Ready (.link e))
    (hs : (s.gReg (GrainId.link e).src rs2).toNat < s.minSlot (portOf (engOf (GrainId.link e).src))) :
    execLslot s (.link e) rs1 rs2 t = .next ((((s.at t).linkRefuse (GrainId.link e).src 0 7).updEng
      (engOf (GrainId.link e).src) (fun x => { x with slot := none })).stepOn (GrainId.link e).src) :=
  (State.issue_ready h rfl (.inl rfl)).trans (congrArg _ (if_pos hs))

theorem execLwake_sent (h : s.Ready (.link e)) (hlo : 100 ≤ (s.gReg (GrainId.link e).src rs1).toNat)
    (hhi : (s.gReg (GrainId.link e).src rs1).toNat ≤ 10000) : execLwake s (.link e) rs1 t =
      .next (((s.at t).wakeTone (engOf (GrainId.link e).src) (s.gReg (GrainId.link e).src rs1).toNat).stepOn
        (GrainId.link e).src) :=
  (State.issue_ready h rfl (.inl rfl)).trans (congrArg _ (if_neg fun h => h.elim (Nat.not_lt.mpr hlo) (Nat.not_lt.mpr hhi)))

/-- The word that `lstat` reads by its number (R73). -/
def State.linkStatus (s : State) (k n : Nat) : Word :=
  match n with
  | 0 => BitVec.ofNat 32 (s.eng k).rxAt
  | 1 => BitVec.ofNat 32 ((s.eng k).rxAt / 2 ^ 32)
  | 2 => s.reg (AQ_PORT_STAT k)
  | _ => BitVec.ofNat 32 (s.eng k).rxN

theorem execLstat_sets (h : s.Ready (.link e)) (hi : imm5.val < 4) :
    s.Sets (.link e) t rd (s.linkStatus e imm5) (execLstat s (.link e) rd imm5 t) := by
  rw [← engOf_src e]
  exact State.computes (v := fun s => s.linkStatus (engOf (GrainId.link e).src) imm5) h rfl
    (show (_ && _) = true by rw [decide_eq_true hi]; rfl) rfl

theorem execLstat_traps (h : s.Ready (.link e)) (hc : s.Calm (.link e)) (hi : 4 ≤ imm5.val) :
    s.Traps (.link e) t 1 (encR 0x3C rd 0 0 imm5 6) (execLstat s (.link e) rd imm5 t) := by
  have legal : ((GrainId.link e).kind == .link && decide (imm5.val < 4)) = false := by
    rw [decide_eq_false (by omega), Bool.and_false]
  unfold execLstat
  rw [State.issue_illegal h legal]
  exact State.exc_traps hc

end

end Sys2Proof.Machine

open Sys2Proof Sys2Proof.Machine

/-- Settles O24, instruction by instruction. -/
theorem linkEnginesArm : Obligations.LinkEnginesArm := by
  intro s e rd rs1 rs2 imm5 t g v1 v2 n on alone ready
  have engine : engOf g.src = e.val := engOf_src e
  have changes {u : State} {f : Engine → Engine} (h : u.lnk = ((s.at t).updEng (engOf g.src) f).lnk) :
      alone u ∧ u.eng e = f (s.eng e) := by
    rw [engine] at h
    obtain ⟨⟨others, rest⟩, own⟩ := State.engineAlone_of_lnk h
    exact ⟨⟨others, rest⟩, own⟩
  refine ⟨?ltarm, ?lslot, ?lslotShort, ?lwake, ?lstat⟩
  case ltarm =>
    exact ⟨_, execLtarm_ready ready, ((s.did_at g t _).updEng (by simp) _ _).stepOn, changes (State.lnk_stepOn ..)⟩
  case lslot =>
    intro h
    refine ⟨_, execLslot_armed ready ?_, ((s.did_at g t _).updEng (by simp) _ _).stepOn, changes (State.lnk_stepOn ..)⟩
    rw [engine]
    rcases h with h | ⟨h, cells⟩
    · exact Nat.le_trans (s.minSlot_le _) h
    · rw [State.minSlot_cells cells]
      exact h
  case lslotShort =>
    intro h
    have short : v2 < s.minSlot (portOf (engOf g.src)) := by
      rw [engine]
      rcases h with h | ⟨h, sense⟩
      · exact Nat.lt_of_lt_of_le h (s.le_minSlot _)
      · rw [State.minSlot_sense sense]
        exact h
    refine ⟨_, execLslot_short ready short, ?_⟩
    obtain ⟨own, engines⟩ := changes ((State.lnk_stepOn ..).trans (State.lnk_updEng_congr (State.lnk_linkRefuse ..) _ _))
    obtain ⟨gs, pc⟩ := (s.at t).regs_linkRefuse g.src 0 7 g.src
    refine ⟨own, engines, ?_⟩
    rw [State.grain_stepOn]
    exact ⟨gs, congrArg (· + 4#32) pc⟩
  case lwake =>
    intro hlo hhi
    refine ⟨_, execLwake_sent ready hlo hhi, ((s.did_at g t _).wakeTone (by simp) (by simp) (by simp) (by simp) _ _).stepOn, ?_⟩
    obtain ⟨own, engines⟩ := changes ((State.lnk_stepOn _ g.src).trans (State.lnk_wakeTone (s.at t) (engOf g.src) v1))
    refine ⟨own, engines, ?_⟩
    rw [engine]
    exact (State.rd_of_regs (State.regs_stepOn ..)).trans (State.portState_wakeTone _ _ e.isLt)
  case lstat =>
    have status (k : Nat) (hk : imm5.val = k) (h4 : k < 4) :
        s.Sets g t rd (s.linkStatus e k) (exec (.lstat g rd imm5 t) s) := by
      subst hk
      exact execLstat_sets ready h4
    exact ⟨fun h => status 0 h (by decide), fun h => status 1 h (by decide), fun h => status 2 h (by decide),
      fun h => status 3 h (by decide), fun h calm => execLstat_traps ready calm h⟩
end

section
/-!
PROOF. Frames that an engine's program sends and takes: `lsend`, `lrecv` and `lping`, at once and when their wait ends (R57,
R58, R73).
-/

namespace Sys2Proof.Machine

/-! ## Sending (R57, R58) -/

/-- The frame on the line: a READ uses up the armed slot window. -/
def State.lsendOut (s : State) (k : Nat) (body : List Nat) : State :=
  match (s.eng k).slot with
  | some (first, last, slot) =>
    if frameType body = 0x11 then (s.engSend k body).updEng k (fun e => { e with
      readOut := some { tag := beField body 3 2, first := first, last := last, slot := slot, instant := s.now, retry := false },
      slot := none, strAt := s.now })
    else s.engSend k body
  | none => s.engSend k body

theorem State.lsendOut_plain {s : State} {k : Nat} {body : List Nat} (h : frameType body ≠ 0x11) :
    s.lsendOut k body = s.engSend k body := by
  unfold State.lsendOut
  split
  · exact if_neg h
  · rfl

theorem State.lsendOut_read {s : State} {k first last slot : Nat} {body : List Nat} (h : frameType body = 0x11)
    (hs : (s.eng k).slot = some (first, last, slot)) : s.lsendOut k body = (s.engSend k body).updEng k (fun e => { e with
      readOut := some { tag := beField body 3 2, first := first, last := last, slot := slot, instant := s.now, retry := false },
      slot := none, strAt := s.now }) := by
  unfold State.lsendOut
  rw [hs]
  exact if_pos h

theorem State.lsendOut_keeps {β : Type} (p : State → β) (hu : ∀ (s : State) k f, p (s.updEng k f) = p s)
    (hc : ∀ (s : State) a b, p (s.count a b) = p s) (s : State) (k : Nat) (body : List Nat) : p (s.lsendOut k body) = p s := by
  have sent : p (s.engSend k body) = p s := (hc _ _ _).trans (hu ..)
  unfold State.lsendOut
  split
  · split
    · exact (hu ..).trans sent
    · exact sent
  · exact sent

@[simp] theorem State.ns_lsendOut (s : State) (k : Nat) (body : List Nat) : (s.lsendOut k body).ns = s.ns :=
  s.lsendOut_keeps State.ns State.ns_updEng State.ns_count k body

theorem State.sent_lsendOut (s : State) (k : Nat) (body : List Nat) :
    ((s.lsendOut k body).eng k).sent = some (body, s.now) := by
  have sent : ((s.engSend k body).eng k).sent = some (body, s.now) := by rw [State.eng_engSend_same]
  unfold State.lsendOut
  split
  · split
    · rw [State.eng_updEng_same]
      exact sent
    · exact sent
  · exact sent

theorem State.Did.lsendOut {s u : State} {g : GrainId} {t : Nat} {ps : List Part} {f : Grain → Grain} (h : s.Did g t ps f u)
    (hp : Part.lnk_ ∈ ps) (k : Nat) (body : List Nat) : s.Did g t ps f (u.lsendOut k body) := by
  unfold State.lsendOut
  split
  · split
    · exact (h.engSend hp k body).updEng hp _ _
    · exact h.engSend hp k body
  · exact h.engSend hp k body

theorem State.lsendGo_eq (s : State) (src rd : Nat) (body : List Nat) :
    s.lsendGo src rd body = (s.lsendOut (engOf src) body).waitDone src rd s.ns := by
  have ns : ((s.lsendOut (engOf src) body).updGrain src (fun x => { x with wait := .none })).ns = s.ns := State.ns_lsendOut ..
  unfold State.waitDone
  rw [← ns]
  rfl

theorem State.lsendTry_go {s : State} {src rd launch : Nat} {body : List Nat} (hl : launch * 1000 ≤ s.now)
    (hr : (s.eng (engOf src)).readOut = none) : s.lsendTry src rd body launch = s.lsendGo src rd body := if_pos ⟨hl, hr⟩

theorem State.lsendTry_wait {s : State} {src rd launch : Nat} {body : List Nat} (hl : s.now < launch * 1000) :
    s.lsendTry src rd body launch = s.updGrain src (fun x => { x with wait := .lsend rd body launch }) :=
  if_neg fun h => absurd h.1 (by omega)

/-- Only a BAL is barred, and none to a node that may balance (R65, R138). -/
theorem State.balBarred_none {s : State} {k : Nat} {body : List Nat} (h : frameType body = 0x17 →
    s.rdB (AQ_PORT_CTL (eng0 (portOf k))) AQ_PORT_CTL_AUTHREQ = false ∧
      ∀ q, s.rd (AQ_NODE_LIM (eng0 (portOf k)) q) AQ_NODE_LIM_BRKL = 0) : s.balBarred k body = none := by
  unfold State.balBarred
  dsimp only
  split
  · rfl
  · next hb =>
    obtain ⟨free, whole⟩ := h (not_not.mp hb)
    rw [free]
    simp only [whole]
    cases s.posOfAddr (portOf k) (frameAddr body) <;> rfl

section
variable {s : State} {e : Fin 20} {rd rs1 rs2 imm5 : Fin 32} {t : Nat}

/-- The body that `lsend` takes from the frame buffer, in wire order (R36). -/
def State.lsendBody (s : State) (src rs1 rs2 : Nat) : List Nat :=
  swapBody (s.loadBytes (frameAt src (s.gReg src rs1).toNat) (s.gReg src rs2).toNat)

/-- A body that `lsend` may send: 3 to 120 bytes of the frame buffer, sound, a READ only into an armed slot window, a BAL only
to a node that may balance (R73, R74). -/
structure State.MaySend (s : State) (e : Fin 20) (rs1 rs2 : Nat) : Prop where
  least : 3 ≤ (s.gReg (GrainId.link e).src rs2).toNat
  most : (s.gReg (GrainId.link e).src rs2).toNat ≤ 120
  inside : (s.gReg (GrainId.link e).src rs1).toNat + (s.gReg (GrainId.link e).src rs2).toNat ≤ 0x8000
  sound : s.sound (frameAt (GrainId.link e).src (s.gReg (GrainId.link e).src rs1).toNat)
    (s.gReg (GrainId.link e).src rs2).toNat = true
  armed : frameType (s.lsendBody (GrainId.link e).src rs1 rs2) = 0x11 → (s.eng e).slot ≠ none
  balances : frameType (s.lsendBody (GrainId.link e).src rs1 rs2) = 0x17 →
    s.rdB (AQ_PORT_CTL (eng0 (portOf e))) AQ_PORT_CTL_AUTHREQ = false ∧
      ∀ q, s.rd (AQ_NODE_LIM (eng0 (portOf e)) q) AQ_NODE_LIM_BRKL = 0

theorem execLsend_tries (h : s.Ready (.link e)) (hm : s.MaySend e rs1 rs2) : execLsend s (.link e) rd rs1 rs2 imm5 t =
    .next ((s.at t).lsendTry (GrainId.link e).src rd (s.lsendBody (GrainId.link e).src rs1 rs2)
      (if bit imm5 0 then (s.eng e).launch else 0)) := by
  have body : swapBody ((s.at t).loadBytes (frameAt (GrainId.link e).src ((s.at t).gReg (GrainId.link e).src rs1).toNat)
      ((s.at t).gReg (GrainId.link e).src rs2).toNat) = s.lsendBody (GrainId.link e).src rs1 rs2 :=
    congrArg swapBody (State.loadBytes_congr (s := s) (u := s.at t) rfl _ _)
  have barred : (s.at t).balBarred e (s.lsendBody (GrainId.link e).src rs1 rs2) = none := State.balBarred_none hm.balances
  refine (State.issue_ready h rfl (.inl rfl)).trans (congrArg _ ?_)
  dsimp only
  rw [engOf_src e, if_neg (fun hl => hl.elim (Nat.not_lt.mpr hm.least) (Nat.not_lt.mpr hm.most)),
    if_neg (fun hl => hl.elim (Nat.not_lt.mpr hm.inside) (fun hs => hs hm.sound)), body,
    if_neg (fun ha => hm.armed ha.1 ha.2), barred]
  rfl

/-- A frame waits no longer (R58). -/
theorem execLsendLaunch_tries {r launch : Nat} {b : List Nat} (h : (s.grain (GrainId.link e).src).wait = .lsend r b launch) :
    execLsendLaunch s (.link e) t = .next ((s.at t).lsendTry (GrainId.link e).src r b launch) := by
  unfold execLsendLaunch
  dsimp only
  rw [State.grain_at, h]

/-- What sending a frame gives (R57, R73). -/
structure State.SendsFrame (s : State) (e : Fin 20) (t rd : Nat) (b : List Nat) (u : State) : Prop where
  did : s.Did (.link e) t [.lnk_] (fun x => x.waitDone rd (s.at t).ns (Nat.max s.now t)) u
  sent : (u.eng e).sent = some (b, (s.at t).now)
  plain : frameType b ≠ 0x11 → u.eng e = { s.eng e with sent := some (b, (s.at t).now) }
  read : ∀ first last slot, frameType b = 0x11 → (s.eng e).slot = some (first, last, slot) →
    (u.eng e).slot = none ∧ (u.eng e).readOut = some {
      tag := beField b 3 2, first := first, last := last, slot := slot, instant := (s.at t).now, retry := false }

theorem State.sendsFrame_lsendGo (s : State) (e : Fin 20) (t rd : Nat) (b : List Nat) :
    s.SendsFrame e t rd b ((s.at t).lsendGo (GrainId.link e).src rd b) := by
  have eng : ∀ k, ((s.at t).lsendGo (GrainId.link e).src rd b).eng k = ((s.at t).lsendOut e b).eng k := fun k => by
    rw [State.lsendGo_eq, engOf_src]
    exact State.eng_of_lnk (State.lnk_waitDone ..) k
  refine ⟨?_, ?_, fun hb => ?_, fun first last slot hb hs => ?_⟩
  · rw [State.lsendGo_eq]
    exact ((s.did_at (.link e) t _).lsendOut (by simp) _ b).waitDone rd _
  · rw [eng, State.sent_lsendOut]
  · rw [eng, State.lsendOut_plain hb, State.eng_engSend_same]
    rfl
  · rw [eng, State.lsendOut_read (s := s.at t) hb hs, State.eng_updEng_same]
    exact ⟨rfl, rfl⟩

/-! ## Taking received frames (R73) -/

@[simp] theorem State.lnk_storeBytes (s : State) (a : Nat) (bs : List Nat) : (s.storeBytes a bs).lnk = s.lnk := by
  induction bs generalizing s a with
  | nil => rfl
  | cons b bs ih => exact ih _ _

/-- The oldest received frame in the frame buffer at an offset. -/
def State.lrecvStored (s : State) (src off : Nat) (f : RxFrame) (rest : List RxFrame) : State :=
  ((s.drew 1).updEng (engOf src) (fun x => { x with rxq := rest })).storeBytes (frameAt src off) (swapBody f.body)

theorem State.eng_lrecvStored (s : State) (src off : Nat) (f : RxFrame) (rest : List RxFrame) :
    (s.lrecvStored src off f rest).eng (engOf src) = { s.eng (engOf src) with rxq := rest } :=
  (State.eng_of_lnk (State.lnk_storeBytes ..) _).trans (State.eng_updEng_same ..)

/-- What `lrecv` gives for a frame. -/
def RxFrame.word (f : RxFrame) (off : Nat) : Nat :=
  b2n f.crc * 2 ^ 31 + b2n f.viol * 2 ^ 30 + f.body.length % 256 * 2 ^ 22 + off * 2 ^ 7

theorem State.lrecvTry_some {s : State} {src rd limit : Nat} {f : RxFrame} {rest : List RxFrame}
    (h : (s.eng (engOf src)).rxq = f :: rest) : ∃ off, off + f.body.length % 256 ≤ 0x8000 ∧
      s.lrecvTry src rd limit = (s.lrecvStored src off f rest).waitDone src rd (f.word off) := by
  have inside := Nat.mod_lt s.freeNat (show 0 < 0x8000 - f.body.length % 256 + 1 by omega)
  refine ⟨s.freeNat % (0x8000 - f.body.length % 256 + 1), by omega, ?_⟩
  unfold State.lrecvTry
  dsimp only
  rw [h]
  rfl

theorem State.lrecvTry_late {s : State} {src rd limit : Nat} (h : (s.eng (engOf src)).rxq = []) (hl : limit < s.now) :
    s.lrecvTry src rd limit = s.waitDone src rd 0 := by
  unfold State.lrecvTry
  dsimp only
  rw [h]
  exact if_pos hl

/-- What taking a frame gives: its bytes in the frame buffer, and it leaves the queue (R73). -/
structure State.TakesFrame (s : State) (e : Fin 20) (t rd : Nat) (f : RxFrame) (off : Nat) (u : State) : Prop where
  did : s.Did (.link e) t [.fresh_, .lnk_, .mem_, .fab_] (fun x => x.waitDone rd (f.word off) (Nat.max s.now t)) u
  eng : u.eng e = { s.eng e with rxq := (s.eng e).rxq.tail }
  stored : ∀ i, i < (swapBody f.body).length →
    u.byte (frameAt (GrainId.link e).src off + i) = BitVec.ofNat 8 ((swapBody f.body).getD i 0)
  rest : ∀ a, a < frameAt (GrainId.link e).src off ∨ frameAt (GrainId.link e).src off + (swapBody f.body).length ≤ a →
    u.byte a = s.byte a

theorem State.takesFrame_lrecvTry {rd limit : Nat} {f : RxFrame} {rest : List RxFrame} (h : (s.eng e).rxq = f :: rest) :
    ∃ off, off + f.body.length % 256 ≤ 0x8000 ∧ s.TakesFrame e t rd f off ((s.at t).lrecvTry (GrainId.link e).src rd limit) := by
  obtain ⟨off, inside, taken⟩ := State.lrecvTry_some (s := s.at t) (src := (GrainId.link e).src) (rd := rd) (limit := limit)
    (by rw [engOf_src]; exact h)
  have byte (a : Nat) : ((s.at t).lrecvTry (GrainId.link e).src rd limit).byte a = if frameAt (GrainId.link e).src off ≤ a ∧
      a < frameAt (GrainId.link e).src off + (swapBody f.body).length
        then BitVec.ofNat 8 ((swapBody f.body).getD (a - frameAt (GrainId.link e).src off) 0) else s.byte a := by
    rw [taken]
    unfold State.byte
    rw [State.mem_waitDone]
    exact State.byte_storeBytes _ _ _ _
  refine ⟨off, inside, ?_, ?_, fun i hi => ?_, fun a ha => ?_⟩
  · rw [taken]
    exact ((((s.did_at _ t _).drew (by simp) 1).updEng (by simp) _ _).storeBytes (by simp) (by simp) _ _).waitDone rd _
  · have eng := (s.at t).eng_lrecvStored (GrainId.link e).src off f rest
    rw [engOf_src] at eng
    rw [taken, State.eng_of_lnk (State.lnk_waitDone ..), eng, h]
    rfl
  · rw [byte, if_pos (by omega), Nat.add_sub_cancel_left]
  · rw [byte, if_neg (by omega)]

theorem execLrecv_tries (h : s.Ready (.link e)) : execLrecv s (.link e) rd rs1 t =
    .next ((s.at t).lrecvTry (GrainId.link e).src rd ((s.at t).limitAt (s.gReg (GrainId.link e).src rs1).toNat)) :=
  State.issue_ready h rfl (.inl rfl)

theorem execLrecvComplete_tries {r limit : Nat} (h : (s.grain (GrainId.link e).src).wait = .lrecv r limit) :
    execLrecvComplete s (.link e) t = .next ((s.at t).lrecvTry (GrainId.link e).src r limit) := by
  unfold execLrecvComplete
  dsimp only
  rw [State.grain_at, h]

/-! ## PING (R49, R73) -/

theorem execLping_ready (h : s.Ready (.link e)) : execLping s (.link e) rd rs1 t =
    .next (((s.at t).engSend (engOf (GrainId.link e).src) (bodyPing ((s.gReg (GrainId.link e).src rs1).toNat % 2 ^ 16))).updGrain
      (GrainId.link e).src (fun x => { x with wait := .lping rd ((s.gReg (GrainId.link e).src rs1).toNat % 2 ^ 16) (s.at t).now })) :=
  State.issue_ready h rfl (.inl rfl)

theorem bodyPing_mod (v : Nat) : bodyPing (v % 2 ^ 16) = [0x13, v / 256 % 256, v % 256] := by
  unfold bodyPing
  rw [beBytes_two, show v % 2 ^ 16 / 256 % 256 = v / 256 % 256 by omega, show v % 2 ^ 16 % 256 = v % 256 by omega]
  rfl

theorem execLpingComplete_lost {r a since : Nat} (h : (s.grain (GrainId.link e).src).wait = .lping r a since)
    (hf : ∀ f ∈ (s.eng e).rxq, f.pongOf a since = false) (ht : since + 100 * us ≤ (s.at t).now) :
    execLpingComplete s (.link e) t = .next ((s.at t).waitDone (GrainId.link e).src r (2 ^ 32 - 1)) := by
  have none : (s.eng e).rxq.find? (fun f => f.pongOf a since) = none :=
    List.find?_eq_none.mpr fun f hm => by rw [hf f hm]; exact Bool.false_ne_true
  unfold execLpingComplete
  dsimp only
  rw [State.grain_at, h]
  dsimp only
  rw [engOf_src, State.eng_at, none]
  exact if_pos ht

theorem execLpingComplete_pong {r a since : Nat} {f : RxFrame} {rest : List RxFrame}
    (h : (s.grain (GrainId.link e).src).wait = .lping r a since) (hq : (s.eng e).rxq = f :: rest)
    (hf : f.pongOf a since = true) (ht : f.at_ ≤ since + 100 * us) : execLpingComplete s (.link e) t =
      .next (((s.at t).updEng e (fun x => { x with rxq := x.rxq.erase f })).waitDone (GrainId.link e).src r
        ((f.at_ - since) / 2500)) := by
  have first : (s.eng e).rxq.find? (fun f => f.pongOf a since) = some f := by rw [hq]; exact List.find?_cons_of_pos hf
  unfold execLpingComplete
  dsimp only
  rw [State.grain_at, h]
  dsimp only
  rw [engOf_src, State.eng_at, first]
  exact if_pos ht

end

end Sys2Proof.Machine

open Sys2Proof Sys2Proof.Machine

/-- Settles O25, instruction by instruction. -/
theorem linkEnginesSendAndReceive : Obligations.LinkEnginesSendAndReceive := by
  intro s e rd rs1 rs2 imm5 t g off len n ns body done goes takes
  have sends {c : Instr} {r launch : Nat} {b : List Nat} (hc : exec c s = .next ((s.at t).lsendTry g.src r b launch))
      (hl : launch * 1000 ≤ n) (hr : (s.eng e).readOut = none) : goes r b c := by
    obtain ⟨did, sent, plain, read⟩ := s.sendsFrame_lsendGo e t r b
    rw [← State.lsendTry_go (s := s.at t) hl (by rw [engOf_src]; exact hr)] at did sent plain read
    exact ⟨_, hc, did, sent, plain, read⟩
  have taken {c : Instr} {r limit : Nat} {f : RxFrame} {fs : List RxFrame} (hq : (s.eng e).rxq = f :: fs)
      (hc : exec c s = .next ((s.at t).lrecvTry g.src r limit)) : takes r f c := by
    obtain ⟨o, inside, did, eng, stored, rest⟩ := State.takesFrame_lrecvTry (t := t) (rd := r) (limit := limit) hq
    exact ⟨_, o, hc, inside, did, eng, stored, rest⟩
  refine ⟨?lsend, ?launch, ?lrecv, ?late, ?lping, ?pong⟩
  case lsend =>
    intro ready h3 h120 inside sound armed balances
    have tries := execLsend_tries (rd := rd) (imm5 := imm5) (t := t) ready ⟨h3, h120, inside, sound, armed, balances⟩
    refine ⟨fun hr hl => sends tries ?_ hr, fun hb hl => ?_⟩
    · split
      · next hb => exact hl.resolve_left (by rw [hb]; exact Bool.true_eq_false_eq_False)
      · exact (Nat.zero_mul 1000).symm ▸ Nat.zero_le n
    · rw [if_pos hb] at tries
      exact ⟨_, tries.trans (congrArg _ (State.lsendTry_wait (s := s.at t) hl)), State.Did.one s g t _⟩
  case launch => exact fun r b launch hw hl hr _ => sends (execLsendLaunch_tries hw) hl hr
  case lrecv => exact fun f fs hq => ⟨fun ready => taken hq (execLrecv_tries ready),
    fun r limit hw => taken hq (execLrecvComplete_tries hw)⟩
  case late =>
    intro r limit hq hw hl
    exact ⟨_, (execLrecvComplete_tries hw).trans (congrArg _ (State.lrecvTry_late (by rw [engOf_src]; exact hq) hl)),
      (s.did_at g t _).waitDone r 0⟩
  case lping =>
    intro ready
    refine ⟨_, execLping_ready ready, ((s.did_at g t [.lnk_]).engSend (by simp) (engOf g.src) (bodyPing (off % 2 ^ 16))).upd
      (fun x => { x with wait := .lping rd (off % 2 ^ 16) n }), ?_⟩
    show ((s.at t).engSend _ _).eng e = _
    rw [engOf_src, State.eng_engSend_same, bodyPing_mod]
    rfl
  case pong =>
    intro r a since hw
    refine ⟨fun hf ht => ?_, fun f fs hq hty ha hs hm hc hv => ?_⟩
    · have lost : ∀ f ∈ (s.eng e).rxq, f.pongOf a since = false := fun f hm => Bool.eq_false_iff.mpr fun hp => by
        simp only [RxFrame.pongOf, Bool.and_eq_true, beq_iff_eq, decide_eq_true_eq] at hp
        exact hf f hm ⟨hp.1.1.2, hp.1.2, hp.2, hp.1.1.1.1⟩
      exact ⟨_, execLpingComplete_lost hw lost ht, (s.did_at g t _).waitDone r _⟩
    · have good : f.pongOf a since = true := by simp [RxFrame.pongOf, hty, ha, hs, hc, hv]
      refine ⟨_, execLpingComplete_pong hw hq good hm, ((s.did_at g t _).updEng (by simp) _ _).waitDone r _, ?_⟩
      rw [State.eng_of_lnk (State.lnk_waitDone ..), State.eng_updEng_same]
      exact congrArg (fun q => ({ s.eng e with rxq := q } : Engine)) (by rw [State.eng_at, hq, List.erase_cons_head])
end

section
/-!
PROOF. What the engines' own operations change: positions, flags, and the frames they send (R46 to R51, R60, R69, R92).
-/

namespace Sys2Proof.Machine

/-! ## Positions -/

theorem State.pos_of_lnk {s u : State} (h : u.lnk = s.lnk) (p q : Nat) : u.pos p q = s.pos p q := by
  unfold State.pos
  rw [h]

theorem State.pos_updPos (s : State) (p q x y : Nat) (f : Pos → Pos) : (s.updPos p q f).pos x y =
    if x * 64 + (y - 1) = p * 64 + (q - 1) then f (s.pos p q) else s.pos x y :=
  Tab.get_set _ _ _ _ _

/-! ## Registers of an engine -/

theorem State.rd_raise_low (s : State) (src code : Nat) (ws : List Nat) {a : Nat} (f : Fld) (h : a < 0x46000000) :
    (s.raise src code ws).rd a f = s.rd a f :=
  State.rd_raise _ _ _ _ _ (by unfold LEDGER_EVT; omega) (by unfold LEDGER_CNT; omega)

theorem State.rdB_raise_low (s : State) (src code : Nat) (ws : List Nat) {a : Nat} (f : Fld) (h : a < 0x46000000) :
    (s.raise src code ws).rdB a f = s.rdB a f :=
  congrArg (· == 1) (s.rd_raise_low src code ws f h)

theorem State.rdB_wr_ne (s : State) {a b : Nat} (f k : Fld) (v : Nat) (h : a ≠ b) : (s.wr b f v).rdB a k = s.rdB a k :=
  congrArg (· == 1) (s.rd_wr_ne f k v h)

theorem State.rd_hit_ne (s : State) {a e c : Nat} (f g k : Fld) (he : a ≠ e) (hc : a ≠ c) : (s.hit e f c g).rd a k = s.rd a k := by
  unfold State.rd
  rw [State.reg_hit_ne _ _ _ he hc]

theorem portEvt_lt {k : Nat} (_ : k < 20) : AQ_PORT_EVT k < 0x46000000 := by
  unfold AQ_PORT_EVT
  omega

theorem portEvt_ne_cnt (k : Nat) : AQ_PORT_EVT k ≠ AQ_PORT_CNT0 k ∧ AQ_PORT_EVT k ≠ AQ_PORT_CNT1 k := by
  unfold AQ_PORT_EVT AQ_PORT_CNT0 AQ_PORT_CNT1
  omega

theorem linkBase_ne_portEvt (k : Nat) :
    AQ_LINK_BASE ≠ AQ_PORT_EVT k ∧ AQ_LINK_BASE ≠ AQ_PORT_CNT0 k ∧ AQ_LINK_BASE ≠ AQ_PORT_CNT1 k := by
  unfold AQ_LINK_BASE AQ_PORT_EVT AQ_PORT_CNT0 AQ_PORT_CNT1
  omega

theorem linkBase_ne_portStat (k : Nat) : AQ_LINK_BASE ≠ AQ_PORT_STAT k := by
  unfold AQ_LINK_BASE AQ_PORT_STAT
  omega

/-- A flag of the port stands after its occurrence (R172). -/
theorem State.rdB_hitPort (s : State) (k : Nat) (f : Fld) (c : Nat) (hf : f.lo + f.width ≤ 32) (hw : f.width = 1) :
    (s.hitPort k f c).rdB (AQ_PORT_EVT k) f = true := by
  obtain ⟨h0, h1⟩ := portEvt_ne_cnt k
  unfold State.hitPort
  split
  · exact State.rdB_hit_same _ _ _ h0 hf hw
  · exact State.rdB_hit_same _ _ _ h1 hf hw

theorem State.addrOf_hitPort (s : State) (k : Nat) (f : Fld) (c p q : Nat) : (s.hitPort k f c).addrOf p q = s.addrOf p q := by
  obtain ⟨he, h0, h1⟩ := linkBase_ne_portEvt k
  unfold State.addrOf State.hitPort
  split
  · rw [State.rd_hit_ne _ _ _ _ he h0]
  · rw [State.rd_hit_ne _ _ _ _ he h1]

theorem State.addrOf_wr_portStat (s : State) (k : Nat) (f : Fld) (v p q : Nat) :
    (s.wr (AQ_PORT_STAT k) f v).addrOf p q = s.addrOf p q := by
  unfold State.addrOf
  rw [State.rd_wr_ne _ _ _ _ (linkBase_ne_portStat k)]

theorem State.addrOf_raise (s : State) (src code : Nat) (ws : List Nat) (p q : Nat) :
    (s.raise src code ws).addrOf p q = s.addrOf p q := by
  unfold State.addrOf
  rw [State.rd_raise_low _ _ _ _ _ (by decide)]

@[simp] theorem State.addrOf_engSend (s : State) (k : Nat) (body : List Nat) (p q : Nat) :
    (s.engSend k body).addrOf p q = s.addrOf p q := by
  unfold State.addrOf
  rw [State.rd_engSend]

/-! ## The frames that an engine sends of itself -/

@[simp] theorem State.eng_sendPing (s : State) (k q : Nat) : (s.sendPing k q).eng k = { s.eng k with
    sent := some (bodyPing (s.addrOf (portOf k) q), s.now), pingPos := q, pingOut := some (q, s.now) } := by
  unfold State.sendPing
  rw [State.eng_updEng_same, State.eng_engSend_same]

@[simp] theorem State.eng_locatePing (s : State) (k q : Nat) : (s.locatePing k q).eng k = { s.eng k with
    sent := some (bodyPing (s.addrOf (portOf k) q), s.now), locate := some q, pingOut := some (q, s.now) } := by
  unfold State.locatePing
  dsimp only
  rw [State.eng_updEng_same, State.eng_engSend_same]

@[simp] theorem State.eng_sendEnum (s : State) (k q : Nat) : (s.sendEnum k q).eng k = { s.eng k with
    sent := some (bodyEnum (portOf k) q (s.addrOf (portOf k) q), s.now),
    enumPos := some q, enumProbe := false, enumAt := s.now } := by
  unfold State.sendEnum
  dsimp only
  rw [State.eng_updEng_same, State.eng_engSend_same]

@[simp] theorem State.eng_sendRead (s : State) (k tag first last slot : Nat) (retry : Bool) :
    (s.sendRead k tag first last slot retry).eng k = { s.eng k with
      sent := some (bodyRead tag slot first last, s.now)
      readOut := some { tag := tag, first := first, last := last, slot := slot, instant := s.now, retry := retry }
      slot := none, strAt := s.now } := by
  unfold State.sendRead
  dsimp only
  rw [State.eng_updEng_same, State.eng_engSend_same]

/-- The nonce of the next AUTH (R69). -/
def State.nextNonce (s : State) : Nat := Config.freeWord s.fresh % 2 ^ 96

@[simp] theorem State.eng_sendAuth (s : State) (k q : Nat) : (s.sendAuth k q).eng k = { s.eng k with
    sent := some (bodyAuth (s.addrOf (portOf k) q) s.nextNonce, s.now), authPos := q } := by
  unfold State.sendAuth
  dsimp only
  rw [State.eng_updEng_same, State.eng_updPos, State.eng_engSend_same]
  rfl

@[simp] theorem State.pos_sendAuth (s : State) (k q : Nat) : (s.sendAuth k q).pos (portOf k) q = { s.pos (portOf k) q with
    nonce := some s.nextNonce, authAt := s.now, collecting := false, busy := 0 } := by
  unfold State.sendAuth
  dsimp only
  rw [State.pos_updEng, State.pos_updPos_same, State.pos_engSend]
  rfl

@[simp] theorem State.regs_sendAuth (s : State) (k q : Nat) : (s.sendAuth k q).regs = s.regs := by
  unfold State.sendAuth
  dsimp only
  rw [State.regs_updEng, State.regs_updPos, State.regs_engSend]
  rfl

@[simp] theorem State.regs_sendEnum (s : State) (k q : Nat) : (s.sendEnum k q).regs = s.regs := by
  unfold State.sendEnum
  dsimp only
  rw [State.regs_updEng, State.regs_engSend]

/-- A position whose tries are not spent is tried again (R46). -/
theorem State.eng_enumRetry {s : State} {k q : Nat} (h : (s.eng k).enumTry < 2) : (s.enumRetry k q).eng k = { s.eng k with
    enumTry := (s.eng k).enumTry + 1, sent := some (bodyEnum (portOf k) q (s.addrOf (portOf k) q), s.now)
    enumPos := some q, enumProbe := false, enumAt := s.now } := by
  unfold State.enumRetry
  dsimp only
  rw [if_pos (by omega), State.eng_sendEnum, State.eng_updEng_same]
  rfl

end Sys2Proof.Machine
end

section
/-!
PROOF. Responses at an engine: records and refusals in a slot, and the answers to its own commands (R46, R47, R49, R60, R69).
-/

namespace Sys2Proof.Machine

/-! ## An accepted record at its position (R60, R90) -/

/-- The position holds a record of the tag, and but for an indeterminate open-wire test it is neither missing nor stale. -/
structure Pos.Holds (x : Pos) (tag : Nat) : Prop where
  tag : x.gotTag = some tag
  valid : x.indet = false → x.missing = false ∧ x.staleSince = none

@[simp] theorem State.pos_unstalePos (s : State) (p q : Nat) : (s.unstalePos p q).pos p q =
    { s.pos p q with missing := false, staleSince := none, staleActed := false } := by
  have e := s.pos_updPos_same p q (fun x => { x with missing := false, staleSince := none, staleActed := false })
  unfold State.unstalePos
  dsimp only
  split
  · exact e
  · exact e

theorem State.holds_recordHeld (s : State) (k p q : Nat) {tag : Nat} (h : tag ≠ 0xFFFF) :
    ((s.recordHeld k p q tag).pos p q).Holds tag := by
  unfold State.recordHeld
  rw [if_neg h]
  dsimp only
  split
  · next hi =>
    rw [State.pos_updPos_same, State.pos_updPos_same]
    rw [State.pos_updPos_same] at hi
    exact ⟨rfl, fun hn => absurd (hi.symm.trans hn) (by decide)⟩
  · rw [State.pos_unstalePos, State.pos_updPos_same]
    exact ⟨rfl, fun _ => ⟨rfl, rfl⟩⟩

theorem State.lnk_streamIn (s : State) (p q : Nat) (body : List Nat) : (s.streamIn p q body).lnk = s.lnk :=
  (@State.streamIn_kept (· ≠ Part.lnk_) ⟨nofun⟩ ⟨nofun⟩ ⟨nofun⟩ ⟨nofun⟩ ⟨nofun⟩ ⟨nofun⟩ ⟨nofun⟩ ⟨nofun⟩ s s p q body
    (Kept.refl s)).same .lnk_ (· rfl)

theorem State.lnk_senseIn (s : State) (p q : Nat) (body : List Nat) : (s.senseIn p q body).lnk = s.lnk :=
  (@State.senseIn_kept (· ≠ Part.lnk_) ⟨nofun⟩ ⟨nofun⟩ ⟨nofun⟩ ⟨nofun⟩ ⟨nofun⟩ ⟨nofun⟩ ⟨nofun⟩ s s p q body
    (Kept.refl s)).same .lnk_ (· rfl)

section
variable {tag : Nat} {body : List Nat} (hb : beField body 3 2 = tag) (ht : tag ≠ 0xFFFF)
include hb ht

theorem State.holds_senseHeld (s : State) (k p q : Nat) : ((s.senseHeld k p q body).pos p q).Holds tag := by
  subst hb
  unfold State.senseHeld
  rw [if_neg ht]
  exact State.holds_recordHeld _ k p q ht

theorem State.holds_cellRecord (s : State) (k p q : Nat) : ((s.cellRecord k p q body).pos p q).Holds tag := by
  subst hb
  exact State.holds_recordHeld _ k p q ht

theorem State.holds_stringRecord (s : State) (k p q : Nat) : ((s.stringRecord k p q body).pos p q).Holds tag := by
  unfold State.stringRecord
  dsimp only
  rw [hb, if_neg ht, State.pos_of_lnk (State.lnk_senseIn ..), State.pos_of_lnk (State.lnk_streamIn ..)]
  exact State.holds_senseHeld hb ht ..

theorem State.holds_busRecord (s : State) (k p q : Nat) : ((s.busRecord k p q body).pos p q).Holds tag := by
  have held (z : State) : (((z.senseHeld k p q body).streamIn p q body).pos p q).Holds tag := by
    rw [State.pos_of_lnk (State.lnk_streamIn ..)]
    exact State.holds_senseHeld hb ht ..
  unfold State.busRecord
  dsimp only
  split
  · exact held _
  · exact held _

theorem State.holds_anyRecord (s : State) (k p q : Nat) : ((s.anyRecord k p q body).pos p q).Holds tag := by
  unfold State.anyRecord
  split
  · exact State.holds_cellRecord hb ht ..
  · split
    · exact State.holds_stringRecord hb ht ..
    · exact State.holds_busRecord hb ht ..

end

/-! ## A response in a slot (R60) -/

/-- The slot of a READ: no record of its tag is held yet. -/
structure State.InSlot (s : State) (k : Nat) (r : ReadOut) (q : Nat) : Prop where
  read : (s.eng k).readOut = some r
  place : s.slotPos k r = q
  new : r.tag = 0xFFFF ∨ (s.pos (portOf k) q).gotTag ≠ some r.tag

/-- The frame kept for `lrecv` changes nothing that a slot is judged by. -/
theorem State.InSlot.engRx {s : State} {k q : Nat} {r : ReadOut} (h : s.InSlot k r q) (body : List Nat) (crc viol : Bool) :
    (s.engRx k body crc viol).InSlot k r q :=
  ⟨by rw [State.eng_engRx_same]; exact h.read, h.place, by rw [State.pos_engRx]; exact h.new⟩

theorem dist_le {a b d : Nat} (h : b ≤ a + d) (h' : a ≤ b + d) : dist a b ≤ d := by
  unfold dist
  split <;> omega

theorem State.slotFits_of {s : State} {k q len : Nat} {r : ReadOut} {body : List Nat} (hl : body.length = len)
    (ha : frameAddr body = s.addrOf (portOf k) q) (h : s.now ≤ s.slotExpected k r q + 500000)
    (h' : s.slotExpected k r q ≤ s.now + 500000) : s.slotFits k r q body len = true := by
  unfold State.slotFits
  rw [hl, ha, beq_self_eq_true, beq_self_eq_true, decide_eq_true (dist_le h h')]
  rfl

section
variable {s : State} {k q : Nat} {r : ReadOut} {body : List Nat} {take : State → Nat → Nat → Nat → List Nat → State}
  (h : s.InSlot k r q)
include h

theorem State.InSlot.unheld : ¬ (r.tag ≠ 0xFFFF ∧ (s.pos (portOf k) q).gotTag = some r.tag) :=
  fun ⟨ht, hg⟩ => h.new.elim ht (· hg)

theorem State.InSlot.recordIn_accepted (ty : frameType body = 0x7F + s.nodeType (portOf k) q)
    (one : 1 ≤ s.nodeType (portOf k) q) (fits : s.slotFits k r q body (recordLen (s.nodeType (portOf k) q)) = true)
    (tag : beField body 3 2 = r.tag) : ∃ z, s.recordIn k body true false take = (take z k (portOf k) q body).copyToSf (portOf k) q body := by
  have slot := h.engRx body true false
  unfold State.recordIn
  dsimp only
  rw [slot.read]
  dsimp only
  rw [slot.place, if_neg slot.unheld, if_neg (by simp), if_pos ⟨ty, one, fits, tag⟩]
  exact ⟨_, rfl⟩

theorem State.InSlot.recordIn_badCrc (viol : Bool) :
    s.recordIn k body false viol take = (s.engRx k body false viol).badResponse k q false r.tag := by
  have slot := h.engRx body false viol
  unfold State.recordIn
  dsimp only
  rw [slot.read]
  dsimp only
  rw [slot.place, if_neg slot.unheld, if_pos (.inl (by simp))]

end

section
variable {s : State} {k : Fin 20} {body : List Nat} {crc viol : Bool} {t q : Nat}

theorem execNak_inSlot {r : ReadOut} (h : (s.at t).InSlot k r q) (fits : (s.at t).slotFits k r q body 5 = true) :
    execNak s k body true false t = .next (((s.at t).engRx k body true false).nakInSlot k q body r.tag) := by
  have slot := h.engRx body true false
  have fits : ((s.at t).engRx k body true false).slotFits k r q body 5 = true := fits
  unfold execNak
  dsimp only
  rw [slot.read]
  dsimp only
  rw [slot.place, if_neg slot.unheld, if_neg (by simp), if_pos fits]

/-! ## Answers to the engine's own commands (R46, R47, R49, R69) -/

theorem execPong_none (h : (s.eng k).pingOut = none) :
    execPong s k body crc viol t = .next ((s.at t).engRx k body crc viol) := by
  unfold execPong
  dsimp only
  rw [State.eng_engRx_same, State.eng_at]
  dsimp only
  rw [h]

theorem execEack_none (h : (s.eng k).enumPos = none) :
    execEack s k body crc viol t = .next ((s.at t).engRx k body crc viol) := by
  unfold execEack
  dsimp only
  rw [State.eng_engRx_same, State.eng_at]
  dsimp only
  rw [h]

theorem execRrep_none (h : (s.eng k).enumPos = none) :
    execRrep s k body crc viol t = .next ((s.at t).engRx k body crc viol) := by
  unfold execRrep
  dsimp only
  rw [State.eng_engRx_same, State.eng_at]
  dsimp only
  rw [h]

theorem execArsp_none (h : (s.eng k).authPos = 0) :
    execArsp s k body crc viol t = .next ((s.at t).engRx k body crc viol) := by
  unfold execArsp
  dsimp only
  rw [State.eng_engRx_same, State.eng_at]
  dsimp only
  exact if_pos (.inl h)

theorem execPong_measures {t0 : Nat} (h : (s.eng k).pingOut = some (q, t0)) (hl : (s.eng k).locate ≠ some q)
    (hy : frameType body = 0x83) (ha : frameAddr body = s.addrOf (portOf k) q) :
    execPong s k body true false t = .next (((s.at t).engRx k body true false).pong k) := by
  unfold execPong
  dsimp only
  rw [State.eng_engRx_same, State.eng_at]
  dsimp only
  rw [h]
  dsimp only
  rw [if_neg (by simp), if_pos ⟨hy, ha⟩, if_neg hl]

/-- A PONG short of the number to average: its round trip is added and the next PING goes out. -/
theorem State.pong_next {s : State} {k q t0 : Nat} (h : (s.eng k).pingOut = some (q, t0))
    (hn : (s.eng k).pingN + 1 < 2 ^ s.rd (AQ_PORT_CTL k) AQ_PORT_CTL_PINGAVG) : s.pong k = (s.updEng k (fun e => { e with
      pingOut := none, pingN := (s.eng k).pingN + 1
      pingSum := (s.eng k).pingSum + (s.now - t0) / 2500 * 2500 })).sendPing k q := by
  unfold State.pong
  dsimp only
  rw [h]
  exact if_pos hn

theorem execEack_good (h : (s.eng k).enumPos = some q) (hy : frameType body = 0x84) (hl : body.length = 17)
    (ha : frameAddr body = s.addrOf (portOf k) q) (hq : q < 64) : execEack s k body true false t =
      .next (((((s.at t).engRx k body true false).eackKeep k q body).updEng k
        (fun e => { e with found := q, enumTry := 0 })).sendEnum k (q + 1)) := by
  unfold execEack
  dsimp only
  rw [State.eng_engRx_same, State.eng_at]
  dsimp only
  rw [h]
  dsimp only
  rw [if_neg (by simp), if_pos ⟨hy, hl, ha⟩, if_pos hq]

/-- The EACK failed its CRC: the flag, and the RREG of register 0 (R47). -/
def State.eackBad (s : State) (k q : Nat) : State :=
  let s := (s.hitCrc k).raise (engSrc k) EV_LINK_CRC [portPos (portOf k) q]
  (s.engSend k (bodyRreg (s.addrOf (portOf k) q) 0)).updEng k (fun e => { e with enumProbe := true, enumAt := s.now })

theorem execEack_bad (h : (s.eng k).enumPos = some q) :
    execEack s k body false false t = .next (((s.at t).engRx k body false false).eackBad k q) := by
  unfold execEack
  dsimp only
  rw [State.eng_engRx_same, State.eng_at]
  dsimp only
  rw [h]
  dsimp only
  rw [if_pos (.inl (by simp))]
  unfold State.eackBad
  dsimp only
  rw [State.now_raise]
  unfold State.hitCrc
  rw [State.now_hitPort]

theorem execRrep_retries (h : (s.eng k).enumPos = some q) (hp : (s.eng k).enumProbe = true) (hy : frameType body = 0x86)
    (ha : frameAddr body = s.addrOf (portOf k) q) : execRrep s k body true false t =
      .next ((((s.at t).engRx k body true false).engSend k (bodyReset (s.addrOf (portOf k) q))).enumRetry k q) := by
  unfold execRrep
  dsimp only
  rw [State.eng_engRx_same, State.eng_at]
  dsimp only
  rw [h]
  dsimp only
  rw [if_pos ⟨hp, rfl, by simp, hy, ha⟩]
  rfl

theorem execArsp_passes (h0 : 0 < (s.eng k).authPos) (hc : (s.pos (portOf k) (s.eng k).authPos).collecting = true)
    (hy : frameType body = 0x85) (ha : frameAddr body = s.addrOf (portOf k) (s.eng k).authPos)
    (good : (s.at t).authCheck (portOf k) (s.eng k).authPos (beField body 3 8) = true) : execArsp s k body true false t =
      .next (((s.at t).engRx k body true false).authPass k (s.eng k).authPos) := by
  have good : ((s.at t).engRx k body true false).authCheck (portOf k) (s.eng k).authPos (beField body 3 8) = true := good
  unfold execArsp
  dsimp only
  rw [State.eng_engRx_same, State.eng_at]
  dsimp only
  rw [State.pos_engRx, State.pos_at, if_neg (by rintro (h | h); · omega
                                                · exact h hc), if_neg (by simp), if_pos ⟨hy, ha⟩, if_pos good]

end

/-! ## What the answers leave -/

theorem State.rdB_eackBad (s : State) {k : Nat} (hk : k < 20) (q : Nat) :
    (s.eackBad k q).rdB (AQ_PORT_EVT k) AQ_PORT_EVT_CRCERR = true := by
  unfold State.eackBad
  rw [State.rdB_updEng, State.rdB_engSend, State.rdB_raise_low _ _ _ _ _ (portEvt_lt hk)]
  exact State.rdB_hitPort _ _ _ _ (by decide) (by decide)

@[simp] theorem State.eng_eackBad (s : State) (k q : Nat) : (s.eackBad k q).eng k = { s.eng k with
    sent := some (bodyRreg (s.addrOf (portOf k) q) 0, s.now), enumProbe := true, enumAt := s.now } := by
  unfold State.eackBad State.hitCrc
  dsimp only
  rw [State.eng_updEng_same, State.eng_engSend_same, State.addrOf_raise, State.addrOf_hitPort, State.now_raise,
    State.now_hitPort, State.eng_raise, State.eng_hitPort]

section
variable (s : State) {k : Nat} (q tag : Nat) (body : List Nat)

theorem State.rdB_badResponse (hk : k < 20) :
    (s.badResponse k q false tag).rdB (AQ_PORT_EVT k) AQ_PORT_EVT_CRCERR = true := by
  unfold State.badResponse
  dsimp only
  rw [if_neg (by simp), State.rdB_count, State.rdB_raise_low _ _ _ _ _ (portEvt_lt hk)]
  exact State.rdB_hitPort _ _ _ _ (by decide) (by decide)

theorem State.missing_badResponse (h : tag ≠ 0xFFFF) : ((s.badResponse k q false tag).pos (portOf k) q).missing = true := by
  unfold State.badResponse State.hitCrc State.updRead
  dsimp only
  rw [if_neg (by simp), if_neg h, State.pos_count, State.pos_raise, State.pos_hitPort, State.pos_updEng,
    State.pos_updPos_same]

theorem State.rdB_nakInSlot (hk : k < 20) : (s.nakInSlot k q body tag).rdB (AQ_PORT_EVT k) AQ_PORT_EVT_NAK = true := by
  unfold State.nakInSlot
  dsimp only
  rw [State.rdB_raise_low _ _ _ _ _ (portEvt_lt hk)]
  exact State.rdB_hitPort _ _ _ _ (by decide) (by decide)

theorem State.missing_nakInSlot (h : tag ≠ 0xFFFF) : ((s.nakInSlot k q body tag).pos (portOf k) q).missing = true := by
  unfold State.nakInSlot State.hitNak State.updRead
  dsimp only
  rw [if_neg h, State.pos_raise, State.pos_hitPort, State.pos_updEng, State.pos_updPos_same]

end

/-- The position is authenticated and the next one follows (R69). -/
theorem State.authPass_next {s : State} {k q : Nat} (h4 : s.portState k ≠ 4)
    (hn : q + 1 ≤ s.portNodes (portOf k)) :
    (s.authPass k q).nodeAuth (portOf k) q = true ∧ ((s.authPass k q).eng k).authPos = q + 1 := by
  have stat (j : Nat) : AQ_PORT_STAT j ≠ AQ_NODE_STAT (eng0 (portOf k)) q := by
    unfold AQ_PORT_STAT AQ_NODE_STAT
    omega
  unfold State.authPass State.unauthSource State.nodeSource
  dsimp only
  unfold State.authNext
  dsimp only
  unfold State.portState State.portNodes at *
  rw [State.rd_verdict, State.rd_wr_ne _ _ _ _ (stat k), State.rd_updPos, if_neg h4, State.rd_verdict,
    State.rd_wr_ne _ _ _ _ (stat _), State.rd_updPos, if_pos hn, State.eng_sendAuth]
  refine ⟨?_, rfl⟩
  unfold State.nodeAuth State.rdB
  rw [State.rd_of_regs (State.regs_sendAuth ..), State.rd_verdict, State.rd_wr_same _ _ _ _ (by decide)]
  rfl

end Sys2Proof.Machine

open Sys2Proof Sys2Proof.Machine

/-- Settles O32, response by response. -/
theorem enginesTakeResponses : Obligations.EnginesTakeResponses := by
  intro s k body t n p e gives records
  refine ⟨?slot, ?kept, ?pong, ?eack, ?bad, ?rrep, ?arsp⟩
  case slot =>
    intro r q read place new
    have slot : (s.at t).InSlot k r q := ⟨read, place.symm, new⟩
    have every {crc viol : Bool} {u : State} {P : State → Prop} (h : (s.at t).recordIn k body crc viol State.anyRecord = u)
        (hp : P u) : records crc viol P :=
      have h := congrArg Host.Outcome.next h
      ⟨⟨u, h, hp⟩, ⟨u, h, hp⟩, ⟨u, h, hp⟩⟩
    refine ⟨fun ty one len addr late early tag => ?_, fun viol => ?_, fun len addr late early => ?_⟩
    · obtain ⟨z, hz⟩ := slot.recordIn_accepted (take := State.anyRecord) ty one
        (State.slotFits_of len addr late early) tag
      refine every hz ⟨List.getLast?_concat .., fun ht => ?_⟩
      obtain ⟨held, valid⟩ := z.holds_anyRecord tag ht k (portOf k) q
      exact ⟨held, valid⟩
    · exact every (slot.recordIn_badCrc viol) ⟨State.rdB_badResponse _ q r.tag k.isLt,
        State.missing_badResponse _ q r.tag⟩
    · exact ⟨_, execNak_inSlot slot (State.slotFits_of len addr late early), State.rdB_nakInSlot _ q r.tag body k.isLt,
        State.missing_nakInSlot _ q r.tag body⟩
  case kept =>
    intro crc viol noPing noEnum noAuth kept
    have rx : kept ((s.at t).engRx k body crc viol) := State.eng_engRx_same ..
    exact ⟨⟨_, execPong_none noPing, rx⟩, ⟨_, execEack_none noEnum, rx⟩, ⟨_, execRrep_none noEnum, rx⟩,
      ⟨_, execArsp_none noAuth, rx⟩⟩
  case pong =>
    intro q t0 out loc ty addr more
    have next := State.pong_next (s := (s.at t).engRx k body true false) (k := k) (q := q) (t0 := t0)
      (by rw [State.eng_engRx_same]; exact out) (by rw [State.eng_engRx_same]; exact more)
    refine ⟨_, (execPong_measures out loc ty addr).trans (congrArg _ next), ?_⟩
    beta_reduce
    rw [State.eng_sendPing, State.eng_updEng_same, State.eng_engRx_same]
    exact ⟨rfl, rfl, rfl, rfl⟩
  case eack =>
    intro q pos ty len addr more
    refine ⟨_, execEack_good pos ty len addr more, ?_⟩
    beta_reduce
    rw [State.eng_sendEnum, State.eng_updEng_same]
    exact ⟨rfl, rfl, rfl⟩
  case bad =>
    intro q pos
    refine ⟨_, execEack_bad pos, State.rdB_eackBad _ k.isLt q, ?_⟩
    rw [State.eng_eackBad]
    exact ⟨rfl, rfl⟩
  case rrep =>
    intro q pos probe tries ty addr
    refine ⟨_, execRrep_retries pos probe ty addr, ?_⟩
    beta_reduce
    rw [State.eng_enumRetry (by rw [State.eng_engSend_same, State.eng_engRx_same]; exact tries), State.eng_engSend_same,
      State.eng_engRx_same, State.addrOf_engSend, State.now_engSend]
    exact ⟨rfl, rfl, rfl, rfl⟩
  case arsp =>
    intro some collecting ty addr good running more _
    exact ⟨_, execArsp_passes some collecting ty addr good, State.authPass_next running more⟩
end

section
/-!
PROOF. A write of a port control word: no read of the change log's snapshots changes it, and what the write leads to (R3, R67,
R428, R430).
-/

namespace Sys2Proof.Machine

/-! ## Registers that reads leave (R3, R153) -/

/-- A register below those of the ledger, none of whose fields clears on a read. -/
structure ReadLeaves (a : Nat) : Prop where
  low : a < 0x46000000
  noRc : (regRow? a).all (fun r => r.fields.all (fun f => f.acc != .rc)) = true

theorem ReadLeaves.ne {a b : Nat} (h : ReadLeaves a) (hb : 0x46000000 ≤ b) : a ≠ b := fun e => absurd h.low (by omega)

theorem readClear_eq {r : RegRow} (h : r.fields.all (fun f => f.acc != .rc) = true) (w : Word) : readClear r w = w := by
  unfold readClear
  generalize r.fields = fs at h
  induction fs with
  | nil => rfl
  | cons f fs ih =>
    rw [List.all_cons, Bool.and_eq_true, bne_iff_ne] at h
    rw [List.foldl_cons, if_neg h.1]
    exact ih h.2

theorem State.reg_mramWrite (s : State) (b : Nat) (bs : List Nat) {a : Nat} (h : ReadLeaves a) :
    (s.mramWrite b bs).reg a = s.reg a :=
  (@State.mramWrite_kept (fun p => p = .mem_ ∨ p = .fab_) ⟨.inl rfl⟩ ⟨.inr rfl⟩ s s b bs (Kept.refl s)).same .regs_ (by simp) a
    (h.ne (by decide)) (h.ne (by decide))

section
variable {a : Nat} (h : ReadLeaves a)
include h

theorem State.reg_setReg_foldl (f : Nat → Nat) (w : Nat → Word) (l : List Nat) (s : State) (hf : ∀ i, 0x46000000 ≤ f i) :
    (l.foldl (fun s i => s.setReg (f i) (w i)) s).reg a = s.reg a :=
  foldl_keeps (fun u : State => u.reg a) (by exact fun s i => s.reg_setReg_ne _ (h.ne (hf i))) l s

theorem State.reg_drawChallenge (s : State) : s.drawChallenge.reg a = s.reg a :=
  State.reg_setReg_foldl h _ _ _ _ (fun i => by unfold PS_DBG_CHAL; omega)

theorem State.reg_cursorRecord (s : State) : s.cursorRecord.2.reg a = s.reg a := by
  have lapped (w : Word) (f g : Fld) : ((s.setReg LEDGER_CUR w).hit LEDGER_EVT f LEDGER_CNT g).reg a = s.reg a := by
    rw [State.reg_hit_ne _ _ _ (h.ne (by decide)) (h.ne (by decide)), State.reg_setReg_ne _ _ (h.ne (by decide))]
  unfold State.cursorRecord
  dsimp only
  split
  · rfl
  split
  · rfl
  split
  · rfl
  · rfl
  · exact lapped ..

theorem State.reg_winLatch (s : State) : s.winLatch.reg a = s.reg a := by
  have win (i : Nat) : 0x46000000 ≤ LEDGER_WIN i := by
    unfold LEDGER_WIN
    omega
  unfold State.winLatch
  dsimp only
  split
  · exact (State.reg_setReg_foldl h _ _ _ _ win).trans (State.reg_cursorRecord h s)
  · exact (State.reg_setReg_foldl h _ _ _ _ win).trans (State.reg_cursorRecord h s)

theorem State.reg_preRead (s : State) (b : Nat) : (s.preRead b).reg a = s.reg a := by
  unfold State.preRead
  split
  · exact State.reg_winLatch h s
  split
  · exact State.reg_drawChallenge h s
  split
  · exact State.reg_wr_ne _ _ _ (h.ne (by decide))
  · rfl

theorem State.reg_winAdvance (s : State) : s.winAdvance.reg a = s.reg a := by
  unfold State.winAdvance
  split
  · exact s.reg_setReg_ne _ (h.ne (by decide))
  · rfl

theorem State.reg_cleared (s : State) {r : RegRow} {b : Nat} (hr : regRow? b = some r) :
    (s.setReg b (readClear r (s.reg b))).reg a = s.reg a := by
  by_cases hb : a = b
  · subst hb
    have none := h.noRc
    rw [hr] at none
    rw [State.reg_setReg_same, readClear_eq none]
  · exact s.reg_setReg_ne _ hb

theorem State.reg_postRead (s : State) {r : RegRow} {b : Nat} (hr : regRow? b = some r) : (s.postRead r b).reg a = s.reg a := by
  have clear := State.reg_cleared h s hr
  unfold State.postRead
  dsimp only
  cases pairHigh b with
  | none => exact ite_keeps (fun u : State => u.reg a) ((State.reg_winAdvance h _).trans clear) clear
  | some _ => exact ite_keeps (fun u : State => u.reg a) ((State.reg_winAdvance h _).trans clear) clear

theorem State.reg_busRead (s : State) (b : Nat) : (s.busRead b).2.reg a = s.reg a := by
  unfold State.busRead
  split
  · rfl
  split
  case h_6 =>
    split
    · split
      · next hr => exact (State.reg_postRead h _ hr).trans (State.reg_preRead h s b)
      · rfl
    · rfl
  case h_7 n _ _ =>
    split
    · rfl
    split
    · split
      · next d u hq =>
        exact (@State.qTake_kept (· = .fab_) ⟨rfl⟩ s s u n d hq (Kept.refl s)).same .regs_ nofun a (h.ne (by decide))
          (h.ne (by decide))
      · rfl
    · split
      · rfl
      · rfl
  all_goals rfl

theorem State.reg_writeRecord (s : State) (e : EvRec) : (s.writeRecord e).reg a = s.reg a := by
  have slot (c : Bool) (b : Nat) (bs : List Nat) : ((if c then s.countsRode e else s).mramWrite b bs).reg a = s.reg a :=
    (State.reg_mramWrite _ _ _ h).trans (ite_keeps (fun u : State => u.reg a) rfl rfl)
  unfold State.writeRecord
  dsimp only
  rw [State.reg_count]
  exact ite_keeps (fun u : State => u.reg a)
    ((State.reg_wr_ne _ _ _ (h.ne (by decide))).trans ((State.reg_mramWrite _ _ _ h).trans (slot ..))) (slot ..)

theorem State.reg_snapWords (s : State) (k n j : Nat) : (s.snapWords k n j).2.reg a = s.reg a := by
  induction n generalizing s j with
  | zero => rfl
  | succ n ih =>
    unfold State.snapWords
    dsimp only
    split
    · rfl
    · exact (ih _ _).trans (State.reg_busRead h s _)

theorem State.reg_persist (s : State) (e : EvRec) : (s.persist e).reg a = s.reg a :=
  (foldl_keeps (fun u : State => u.reg a)
    (by exact fun s k => (State.reg_writeRecord h _ _).trans (State.reg_snapWords h s k 12 0)) _ _).trans
    (State.reg_writeRecord h s e)

theorem State.reg_changeLog (s : State) (b old new src slot : Nat) (mram : Bool) :
    (s.changeLog b old new src slot mram).reg a = s.reg a :=
  (State.reg_persist h _ _).trans (State.reg_mramWrite s _ _ h)

end

/-- The change log leaves the links (R430). -/
theorem State.lnk_changeLog (s : State) (b old new src slot : Nat) (mram : Bool) :
    (s.changeLog b old new src slot mram).lnk = s.lnk :=
  (@State.changeLog_kept (· ≠ Part.lnk_) ⟨nofun⟩ ⟨nofun⟩ ⟨nofun⟩ ⟨nofun⟩ ⟨nofun⟩ ⟨nofun⟩ ⟨nofun⟩ s s b old new src slot mram
    (Kept.refl s)).same .lnk_ (· rfl)

theorem State.now_changeLog (s : State) (b old new src slot : Nat) (mram : Bool) :
    (s.changeLog b old new src slot mram).now = s.now :=
  congrArg Prod.fst (s.stage_changeLog b old new src slot mram)

/-- An admitted word stands when its effects begin: its change log entry leaves it, the links and the time (R430, R463). -/
theorem State.regTake_readLeaves (s : State) {a : Nat} (h : ReadLeaves a) (hl : writePairLow a = none) (src v : Nat) (r : RegRow)
    (new : Word) : ∃ z : State, z.lnk = s.lnk ∧ z.now = s.now ∧ z.reg a = new ∧
      s.regTake src a v r new = z.writeEffect a v (s.reg a) := by
  have low : (s.setReg a new).takeLow a = s.setReg a new := by
    unfold State.takeLow
    rw [hl]
  unfold State.regTake
  dsimp only
  rw [low]
  refine ⟨_, ?_, ?_, ?_, rfl⟩
  · split
    · rw [State.lnk_changeLog, State.lnk_setReg]
    · rw [State.lnk_setReg]
  · split
    · rw [State.now_changeLog, State.now_setReg]
    · rw [State.now_setReg]
  · split
    · rw [State.reg_changeLog h]
      exact State.reg_setReg_same ..
    · exact State.reg_setReg_same ..

/-! ## The port control word (R28, R67) -/

theorem portCtl_readLeaves (k : Fin 20) : ReadLeaves (AQ_PORT_CTL k) where
  low := by
    unfold AQ_PORT_CTL
    omega
  noRc := by decide +revert

theorem portCtl_enabled {k : Fin 20} {r : RegRow} (h : regRow? (AQ_PORT_CTL k) = some r) : ⟨AQ_PORT_CTL_EN, .rw, 0, 1⟩ ∈ r.fields := by
  have row : ∀ k : Fin 20, (regRow? (AQ_PORT_CTL k)).all (fun r => r.fields.contains ⟨AQ_PORT_CTL_EN, .rw, 0, 1⟩) = true := by
    decide
  have := row k
  rw [h] at this
  exact List.contains_iff_mem.mp this

theorem portCtl_unpaired (k : Fin 20) : writePair (AQ_PORT_CTL k) = none ∧ writePairLow (AQ_PORT_CTL k) = none := by
  decide +revert

theorem engineOff_portCtl (k : Fin 20) : engineOff (AQ_PORT_CTL k) = some (k.val, 0) := by decide +revert

/-- Its write has the effect of the port's alone. -/
theorem State.writeEffect_portCtl (s : State) (k : Fin 20) (v : Nat) (old : Word) :
    s.writeEffect (AQ_PORT_CTL k) v old = s.portWritten k v old := by
  have apart : AQ_PORT_CTL k ≠ AQ_SWP_CTL ∧ AQ_PORT_CTL k ≠ AQ_WIN_CTL ∧ inArray (AQ_PORT_CTL k) (AQ_AIC_CFG 0) 16 8 = false ∧
      inArray (AQ_PORT_CTL k) (AQ_AIN_CFG 0) 4 16 = false ∧ inArray (AQ_PORT_CTL k) (AQ_CUR_SRC 0) 4 12 = false ∧
      AQ_PORT_CTL k / 0x1000000 = 0x42 := by decide +revert
  obtain ⟨swp, win, aic, ain, cur, aq⟩ := apart
  rw [State.writeEffect_aq _ _ _ aq]
  unfold State.effAQ
  dsimp only
  rw [if_neg swp, if_neg win, aic, ain, cur, engineOff_portCtl]
  rfl

/-! ## The wake tone that a write sends (R67) -/

/-- The word that a write of WAKE carries. -/
def wakeWord (v : Nat) : Word := AQ_PORT_CTL_WAKE.put (BitVec.ofNat 32 v) 1

theorem ofNat_wakeWord (v : Nat) : BitVec.ofNat 32 (wakeWord v).toNat = wakeWord v := by
  rw [BitVec.ofNat_toNat, BitVec.setWidth_eq]

theorem bit_wakeWord (v : Nat) : bit (wakeWord v).toNat 28 = true :=
  beq_iff_eq.mpr (Fld.get_put AQ_PORT_CTL_WAKE (BitVec.ofNat 32 v) 1 (by decide))

theorem en_wakeWord (v : Nat) : AQ_PORT_CTL_EN.get (wakeWord v) = AQ_PORT_CTL_EN.get (BitVec.ofNat 32 v) :=
  Fld.get_put_ne _ _ _ _ (by decide) (by decide) (by decide)

theorem en_mergeWord {k : Fin 20} {r : RegRow} (h : regRow? (AQ_PORT_CTL k) = some r) (old w : Word) :
    AQ_PORT_CTL_EN.get (mergeWord (AQ_PORT_CTL k) r old w) = AQ_PORT_CTL_EN.get w := by
  have apart : AQ_PORT_CTL k ≠ PW_CON_STAT ∧ AQ_PORT_CTL k ≠ LEDGER_CTL := by decide +revert
  rw [get_mergeWord h apart.1 apart.2 old w (portCtl_enabled h)]
  exact get_mergeField_rw old (by decide) rfl

theorem State.rdB_portCtl_wakeTone (s : State) (k : Fin 20) (n : Nat) (f : Fld) :
    (s.wakeTone k n).rdB (AQ_PORT_CTL k) f = s.rdB (AQ_PORT_CTL k) f := by
  have ne : AQ_PORT_CTL k ≠ AQ_PORT_STAT k := by
    unfold AQ_PORT_CTL AQ_PORT_STAT
    omega
  unfold State.wakeTone
  dsimp only
  rw [State.rdB_raise_low _ _ _ _ _ (portCtl_readLeaves k).low, State.rdB_wr_ne _ _ _ _ ne, State.rdB_updEng]

/-- A written WAKE on a port that is not disabled by the same word. -/
theorem State.portWritten_wake {s : State} {k : Fin 20} {v : Nat} {old : Word} (hv : bit v 28 = true)
    (he : AQ_PORT_CTL_EN.get old = 1 → s.rdB (AQ_PORT_CTL k) AQ_PORT_CTL_EN = true) : s.portWritten k v old = s.wakeTone k 500 := by
  unfold State.portWritten
  dsimp only
  rw [if_pos hv, if_neg (by rw [State.rdB_portCtl_wakeTone]; exact fun ⟨h1, h2⟩ => h2 (he h1))]

theorem execWake_admitted {s : State} {src v t : Nat} {k : Fin 20} {r : RegRow}
    (h : (s.at t).Admits (AQ_PORT_CTL k) (wakeWord v).toNat r)
    (he : s.rdB (AQ_PORT_CTL k) AQ_PORT_CTL_EN = true → AQ_PORT_CTL_EN.get (BitVec.ofNat 32 v) = 1) : ∃ z : State,
    z.lnk = s.lnk ∧ z.now = Nat.max s.now t ∧ execWake s src k v t = .next { z.wakeTone k 500 with
      fab := { (z.wakeTone k 500).fab with rdata := 0, rerr := false } } := by
  obtain ⟨z, lnk, now, reg, taken⟩ := (s.at t).regTake_readLeaves (portCtl_readLeaves k) (portCtl_unpaired k).2 src
    (wakeWord v).toNat r (mergeWord (AQ_PORT_CTL k) r ((s.at t).reg (AQ_PORT_CTL k)) (BitVec.ofNat 32 (wakeWord v).toNat))
  have stays : AQ_PORT_CTL_EN.get ((s.at t).reg (AQ_PORT_CTL k)) = 1 → z.rdB (AQ_PORT_CTL k) AQ_PORT_CTL_EN = true := by
    intro on
    unfold State.rdB State.rd
    rw [reg, en_mergeWord h.row, ofNat_wakeWord, en_wakeWord, he (beq_iff_eq.mpr on)]
    rfl
  refine ⟨z, lnk, now, ?_⟩
  unfold execWake writeReg
  rw [show AQ_PORT_CTL_WAKE.put (BitVec.ofNat 32 v) 1 = wakeWord v from rfl, State.busWrite_eq h,
    State.regWrite_admitted h (portCtl_unpaired k).1, taken, State.writeEffect_portCtl,
    State.portWritten_wake (bit_wakeWord v) stays]

end Sys2Proof.Machine
end

section
/-!
PROOF. What the engines do at their own times: slots that close, retries and breaks, markers and calibration, enumeration and
authentication, rings (R28, R46 to R51, R60, R69, R89, R90, R92, R95).
-/

namespace Sys2Proof.Machine

/-! ## Positions missing when a slot window closes (R60, R90) -/

theorem State.pos_missing (s : State) (k q : Nat) {tag : Nat} (h : tag ≠ 0xFFFF) (x y : Nat) :
    (s.missing k q tag).pos x y = (s.updPos (portOf k) q (fun x => { x with missing := true })).pos x y := by
  unfold State.missing State.hitMissing
  dsimp only
  rw [if_neg h, State.pos_count, State.pos_raise, State.pos_hitPort]

/-- A position once missing stays so while others are found missing. -/
theorem State.missing_keeps {s : State} {k q tag p x : Nat} (h : tag ≠ 0xFFFF) (hm : (s.pos p x).missing = true) :
    ((s.missing k q tag).pos p x).missing = true := by
  rw [State.pos_missing _ _ _ h, State.pos_updPos]
  split
  · rfl
  · exact hm

theorem State.missing_foldl {k tag q : Nat} (h : tag ≠ 0xFFFF) (l : List Nat) (s : State)
    (hq : q ∈ l ∨ (s.pos (portOf k) q).missing = true) :
    ((l.foldl (fun s q => s.missing k q tag) s).pos (portOf k) q).missing = true := by
  induction l generalizing s with
  | nil => exact hq.resolve_left List.not_mem_nil
  | cons x l ih =>
    refine ih _ ?_
    rcases hq with hq | hq
    · rcases List.mem_cons.mp hq with rfl | hq
      · exact .inr (by rw [State.pos_missing _ _ _ h, State.pos_updPos_same])
      · exact .inl hq
    · exact .inr (State.missing_keeps h hq)

@[simp] theorem State.eng_staleFrom (s : State) (p : Nat) (qs : List Nat) (tag target j : Nat) :
    (s.staleFrom p qs tag target).eng j = s.eng j :=
  foldl_keeps (fun u : State => u.eng j) (by intros; rfl) _ _

theorem State.missing_staleFrom (s : State) (p : Nat) (qs : List Nat) (tag target x q : Nat) :
    ((s.staleFrom p qs tag target).pos x q).missing = (s.pos x q).missing := by
  refine foldl_keeps (fun u : State => (u.pos x q).missing) (fun u y => ?_) _ _
  rw [State.pos_updPos]
  split
  · next same =>
    unfold State.pos
    rw [same]
  · rfl

theorem ReadOut.mem_range {r : ReadOut} {q : Nat} : q ∈ r.range ↔ r.first ≤ q ∧ q ≤ r.last := by
  unfold ReadOut.range
  rw [List.mem_map]
  constructor
  · rintro ⟨i, hi, rfl⟩
    have := List.mem_range.mp hi
    omega
  · rintro ⟨h1, h2⟩
    exact ⟨q - r.first, List.mem_range.mpr (by omega), by omega⟩

theorem portOf_chain {k : Nat} (h : k < 16) : portOf k = k := if_pos h

theorem endOf_chain {k : Nat} (h : k < 16) : endOf k = 0 := if_pos h

theorem eng0_chain {k : Nat} (h : k < 16) : eng0 (portOf k) = k := by
  rw [portOf_chain h]
  exact if_pos h

/-- The positions of a READ whose slots stayed empty. -/
def State.lost (s : State) (k : Nat) (r : ReadOut) : List Nat := (s.expected k r).filter (fun q =>
  !r.seen.contains q && !(r.tag != 0xFFFF && (s.pos (portOf k) q).gotTag == some r.tag))

theorem State.mem_lost {s : State} {k q : Nat} {r : ReadOut} (ht : r.tag ≠ 0xFFFF) (h1 : r.first ≤ q) (h2 : q ≤ r.last)
    (hg : (s.pos (portOf k) q).gotTag ≠ some r.tag) (hs : q ∉ r.seen) : q ∈ s.lost k r := by
  refine List.mem_filter.mpr ⟨List.mem_filter.mpr ⟨ReadOut.mem_range.mpr ⟨h1, h2⟩, ?_⟩, ?_⟩
  · rw [if_neg ht]
  · rw [beq_eq_false_iff_ne.mpr hg, Bool.and_false, List.contains_eq_mem, decide_eq_false hs]
    rfl

section
variable {s : State} {k : Fin 20} {t : Nat}

/-- A chain's window closes: the lost positions are missing, and those without a record go stale. -/
theorem execSlotWindowClose_chain {r : ReadOut} (hr : (s.eng k).readOut = some r) (ht : r.tag ≠ 0xFFFF) (hk : k.val < 16) :
    ∃ target, execSlotWindowClose s k t = .next (((((s.at t).lost k r).foldl (fun s q => s.missing k q r.tag) (s.at t)).updEng k
      (fun e => { e with readOut := none, lastRead := some r })).staleFrom (portOf k) r.range r.tag target) := by
  unfold execSlotWindowClose
  dsimp only
  rw [State.eng_at, hr]
  dsimp only
  rw [if_neg ht, if_pos hk]
  exact ⟨_, rfl⟩

/-! ## The retry (R89) -/

theorem foldl_natMin {l : List Nat} {b : Nat} (hl : l ≠ []) (hb : ∀ x ∈ l, x ≤ b) : l.foldl Nat.min b = l.min hl := by
  have fold : l.foldl Nat.min b = min b (l.min?.getD b) := List.foldl_min
  rw [fold, List.min?_eq_some_min hl]
  exact min_eq_right (hb _ (List.min_mem hl))

theorem foldl_natMax {l : List Nat} (hl : l ≠ []) : l.foldl Nat.max 0 = l.max hl := by
  have fold : l.foldl Nat.max 0 = max 0 (l.max?.getD 0) := List.foldl_max
  rw [fold, List.max?_eq_some_max hl]
  exact Nat.zero_max _

/-- The positions of a READ that hold no record of its tag. -/
def State.unheldOf (s : State) (k : Nat) (r : ReadOut) : List Nat :=
  r.range.filter (fun q => (s.pos (portOf k) q).gotTag != some r.tag)

theorem State.mem_unheldOf {s : State} {k q : Nat} {r : ReadOut} :
    q ∈ s.unheldOf k r ↔ r.first ≤ q ∧ q ≤ r.last ∧ (s.pos (portOf k) q).gotTag ≠ some r.tag := by
  unfold State.unheldOf
  rw [List.mem_filter, ReadOut.mem_range, bne_iff_ne, and_assoc]

theorem execRetryRead_chain {r : ReadOut} (hl : (s.eng k).lastRead = some r) (hr : (s.eng k).readOut = none)
    (ht : r.tag ≠ 0xFFFF) (hy : r.retry = false) (hk : k.val < 16) (h64 : r.last ≤ 64) (hm : s.unheldOf k r ≠ []) :
    execRetryRead s k t = .next ((s.at t).sendRead k r.tag ((s.unheldOf k r).min hm) ((s.unheldOf k r).max hm) r.slot true) := by
  have chain : ¬ (endOf k = 1 ∧ (s.eng k).suspect = true) := by
    rw [endOf_chain hk]
    exact fun h => absurd h.1 (by decide)
  unfold execRetryRead
  dsimp only
  rw [State.eng_at, if_neg chain, hl, hr]
  dsimp only
  rw [← foldl_natMin (b := 64) hm (fun q hq => (State.mem_unheldOf.mp hq).2.1.trans h64), ← foldl_natMax hm]
  refine if_neg ?_
  rintro (h | h | h)
  · exact ht h
  · exact hm h
  · exact absurd (hy.symm.trans h.1) (by decide)

/-! ## Breaks (R92) -/

theorem execChainBreakLocate_ping {m : Nat} (hk : k.val < 16) (hl : (s.eng k).locate = none)
    (hm : s.nextMissing k 0 = some m) (hr : (s.eng k).readOut = none)
    (hb : s.rdB (AQ_PORT_BRK k) AQ_PORT_BRK_BRKVALID = false) :
    execChainBreakLocate s k t = .next ((s.at t).locatePing k m) := by
  have next : (s.at t).nextMissing k 0 = some m := hm
  unfold execChainBreakLocate
  dsimp only
  rw [if_neg (by omega), State.eng_at, hl]
  dsimp only
  rw [next, hr]
  dsimp only
  rw [eng0_chain hk, State.rdB_at, hb]
  rfl

theorem execChainBreakLocate_lost {m q t0 : Nat} (hk : k.val < 16) (hl : (s.eng k).locate = some m)
    (hp : (s.eng k).pingOut = some (q, t0)) (ht : t0 + 100 * us ≤ Nat.max s.now t) :
    execChainBreakLocate s k t = .next ((s.at t).breakAt k m) := by
  unfold execChainBreakLocate
  dsimp only
  rw [if_neg (by omega), State.eng_at, hl, hp]
  exact if_pos ht

theorem State.breakAt_chain (s : State) {m : Nat} (hk : k.val < 16) (h64 : m ≤ 64) :
    (s.breakAt k m).rdB (AQ_PORT_BRK k) AQ_PORT_BRK_BRKVALID = true ∧
      (s.breakAt k m).rd (AQ_PORT_BRK k) AQ_PORT_BRK_BRKPOS = m - 1 ∧ ((s.breakAt k m).eng k).locate = none := by
  have low : AQ_PORT_BRK k < 0x46000000 := by
    unfold AQ_PORT_BRK
    omega
  have width : AQ_PORT_BRK_BRKPOS.width = 7 := by decide
  unfold State.breakAt
  dsimp only
  rw [eng0_chain hk, State.rdB_raise_low _ _ _ _ _ low, State.rd_raise_low _ _ _ _ _ low, State.eng_raise, State.eng_updEng_same,
    State.rdB_updEng, State.rd_updEng, State.rd_wr_same _ _ _ _ (by decide), width, Nat.mod_eq_of_lt (by omega)]
  refine ⟨?_, rfl, rfl⟩
  unfold State.rdB
  rw [State.rd_wr_apart _ _ _ _ _ (by decide) (by decide) (by decide), State.rd_wr_same _ _ _ _ (by decide)]
  rfl

/-! ## Stale positions (R90) -/

theorem State.pos_nodeSource (s : State) (src p q idx : Nat) (on : Bool) (x y : Nat) :
    (s.nodeSource src p q idx on).pos x y = s.pos x y :=
  State.pos_verdict ..

theorem State.inbox_nodeSource (s : State) (src p q idx : Nat) (on : Bool) :
    ∃ v, (s.nodeSource src p q idx on).trip.inbox = s.trip.inbox ++ [v] ∧ v.src = src ∧ v.on = on :=
  ⟨_, rfl, rfl, rfl⟩

theorem execNodeStaleTimeout_acts {p : Fin 18} {i : Fin 64} {t0 : Nat} (hs : (s.pos p (i.val + 1)).staleSince = some t0)
    (ha : (s.pos p (i.val + 1)).staleActed = false) (ht : t0 * 1000 + s.tStale < Nat.max s.now t)
    (hn : i.val + 1 ≤ s.portNodes p) (he : s.portEn p = true) : execNodeStaleTimeout s p i t =
      .next ((((s.at t).updPos p (i.val + 1) (fun x => { x with staleActed := true })).raise (engSrc (eng0 p)) EV_SWP_STALE
        [portPos p (i.val + 1)]).nodeSource 11 p (i.val + 1) 89 true) := by
  unfold execNodeStaleTimeout
  dsimp only
  rw [State.pos_at, hs]
  exact if_pos ⟨ht, hn, he, by rw [ha]; decide⟩

/-! ## Markers and calibration (R48, R51) -/

theorem execTimeMarker_due (hc : s.commands k = true) (hm : s.rdB (AQ_PORT_CTL k) AQ_PORT_CTL_MKEN = true)
    (hr : (s.eng k).readOut = none)
    (ht : (s.eng k).timeAt + s.rd (AQ_PORT_CTL k) AQ_PORT_CTL_TMKPER * 100 * us ≤ Nat.max s.now t) :
    execTimeMarker s k t = .next (((s.at t).engSend k (bodyTime (s.at t).ns)).updEng k
      (fun e => { e with timeAt := Nat.max s.now t })) := by
  have due : ((s.eng k).timeAt == 0 ||
      decide ((s.eng k).timeAt + s.rd (AQ_PORT_CTL k) AQ_PORT_CTL_TMKPER * 100 * us ≤ Nat.max s.now t)) = true := by
    rw [decide_eq_true ht, Bool.or_true]
  unfold execTimeMarker
  exact if_pos ⟨hc, hm, due, hr⟩

theorem execRecalibration_chain {ring : Nat} (hk : k.val < 16) (h5 : 5 ≤ s.portState k) (he : s.portEn (portOf k) = true)
    (hr : (s.eng k).readOut = none) (hp : (s.eng k).pingOut = none) :
    execRecalibration s k ring t = .next ((s.at t).calStart k 1) := by
  have chain : ¬ endOf k = 1 := by
    rw [endOf_chain hk]
    decide
  have en : s.rdB (AQ_PORT_CTL k) AQ_PORT_CTL_EN = true := by
    unfold State.portEn at he
    rwa [eng0_chain hk] at he
  unfold execRecalibration
  dsimp only
  rw [if_pos ⟨by rw [eng0_chain hk]; exact h5, he, en, hr, hp⟩, if_neg chain]

/-- Calibration of a running port with nodes begins with a PING (R51). -/
theorem State.calStart_running {s : State} {k : Nat} (h5 : 5 ≤ s.portState k) (hn : 1 ≤ s.portNodes (portOf k)) :
    s.calStart k 1 = (s.updEng k (fun e => { e with pingN := 0, pingSum := 0 })).sendPing k 1 := by
  unfold State.calStart State.calCount
  rw [if_neg (show ¬ s.portState k = 3 by omega), if_pos hn]

/-! ## Enumeration (R46) -/

theorem execPortEnumeration_first (he : s.rdB (AQ_PORT_CTL k) AQ_PORT_CTL_EN = true)
    (hw : ∀ t0 w, (s.eng k).wake = some (t0, w) → t0 + 15 * ms ≤ Nat.max s.now t) :
    execPortEnumeration s k 1 t = .next ((s.at t).enumBegin k 1) := by
  have awake : (match (s.eng k).wake with
      | some (t0, _) => decide (Nat.max s.now t < t0 + 15 * ms)
      | none => false) = false := by
    cases h : (s.eng k).wake with
    | none => rfl
    | some x => exact decide_eq_false (Nat.not_lt.mpr (hw x.1 x.2 h))
  unfold execPortEnumeration
  dsimp only
  refine if_neg ?_
  rintro (h | h | h)
  · exact h he
  · exact absurd (awake.symm.trans h) (by decide)
  · exact h rfl

theorem State.regs_enumBegin (s : State) (k : Nat) : (s.enumBegin k 1).regs =
    ((s.wr (AQ_PORT_STAT k) AQ_PORT_STAT_STATE 2).wr (AQ_PORT_STAT k) AQ_PORT_STAT_DLYVALID 0).regs := by
  unfold State.enumBegin
  dsimp only
  rw [State.regs_sendEnum, if_pos rfl, State.regs_engSend]
  rfl

theorem State.portState_enumBegin (s : State) (k : Nat) :
    (s.enumBegin k 1).rd (AQ_PORT_STAT k) AQ_PORT_STAT_STATE = 2 ∧
      (s.enumBegin k 1).rdB (AQ_PORT_STAT k) AQ_PORT_STAT_DLYVALID = false := by
  unfold State.rdB
  rw [State.rd_of_regs (s.regs_enumBegin k), State.rd_of_regs (s.regs_enumBegin k),
    State.rd_wr_apart _ _ _ _ _ (by decide) (by decide) (by decide), State.rd_wr_same _ _ _ _ (by decide),
    State.rd_wr_same _ _ _ _ (by decide)]
  exact ⟨rfl, rfl⟩

theorem State.eng_enumBegin (s : State) (k : Nat) : (s.enumBegin k 1).eng k = { s.eng k with
    enumFirst := 1, enumOld := s.portNodes (portOf k), enumTry := 0, found := 0
    sent := some (bodyEnum (portOf k) 1 (s.addrOf (portOf k) 1), s.now)
    enumPos := some 1, enumProbe := false, enumAt := s.now } := by
  unfold State.enumBegin
  dsimp only
  rw [if_pos rfl, State.eng_sendEnum, State.eng_engSend_same, State.addrOf_engSend, State.addrOf_wr_portStat,
    State.addrOf_wr_portStat, State.now_engSend, State.now_wr, State.now_wr, State.eng_wr, State.eng_wr, State.eng_updEng_same]
  rfl

theorem execEnumEackTimeout_due {q : Nat} (h : (s.eng k).enumPos = some q) (ht : (s.eng k).enumAt + 50 * us ≤ Nat.max s.now t) :
    execEnumEackTimeout s k t = .next ((s.at t).enumRetry k q) := by
  unfold execEnumEackTimeout
  dsimp only
  rw [State.eng_at, h]
  exact if_pos ht

/-! ## Authentication (R69) -/

theorem execAuthPeriod_due {gap : Bool} (hq : s.rdB (AQ_PORT_CTL k) AQ_PORT_CTL_AUTHREQ = true)
    (hp : 1 ≤ s.rd (AQ_PORT_CTL k) AQ_PORT_CTL_AUTHPER) (h5 : 5 ≤ s.portState k)
    (ht : (s.eng k).authAt + s.rd (AQ_PORT_CTL k) AQ_PORT_CTL_AUTHPER * 60 * sec ≤ Nat.max s.now t) (h0 : (s.eng k).authPos = 0) :
    execAuthPeriod s k gap t = if gap then
        if 0 < s.portNodes (portOf k) then .next (((s.at t).updEng k (fun e => { e with authBlocked := false })).sendAuth k 1)
        else .next (s.at t)
      else if (s.eng k).authBlocked then .next (s.at t)
      else .next (((s.at t).updEng k (fun e => { e with authBlocked := true })).raise (engSrc k) EV_LINK_REFUSED
        [portPos (portOf k) 0]) := by
  have some : s.rd (AQ_PORT_CTL k) AQ_PORT_CTL_AUTHPER * 60 * sec ≠ 0 :=
    Nat.mul_ne_zero (Nat.mul_ne_zero (by omega) (by decide)) (by decide)
  unfold execAuthPeriod
  refine if_neg ?_
  rintro (h | h | h | h | h)
  · exact some h
  · exact h hq
  · exact absurd h (Nat.not_lt.mpr h5)
  · exact absurd h (Nat.not_lt.mpr ht)
  · exact absurd h (by rw [State.eng_at, h0]; decide)

theorem execAuthCollect_due {nonce : Nat} (h0 : 0 < (s.eng k).authPos)
    (hn : (s.pos (portOf k) (s.eng k).authPos).nonce = some nonce)
    (hc : (s.pos (portOf k) (s.eng k).authPos).collecting = false)
    (ht : (s.pos (portOf k) (s.eng k).authPos).authAt + ms ≤ Nat.max s.now t) :
    execAuthCollect s k t = .next (((s.at t).engSend k (bodyAuth (s.addrOf (portOf k) (s.eng k).authPos) nonce)).updPos (portOf k)
      (s.eng k).authPos (fun x => { x with collecting := true, authAt := Nat.max s.now t })) := by
  unfold execAuthCollect
  dsimp only
  rw [State.eng_at, State.pos_at, hn]
  dsimp only
  rw [if_neg (by omega), if_neg (by rw [hc]; decide)]
  exact if_pos ht

end

/-! ## Rings (R28, R95) -/

@[simp] theorem State.lnk_endSeen (s : State) (p : Nat) (v : Bool) : (s.endSeen p v).lnk = s.lnk := by
  unfold State.endSeen
  rw [State.lnk_wr, State.lnk_wr]

/-- ENDSEEN in both end engines. -/
theorem State.rdB_endSeen (s : State) (p : Nat) (v : Bool) :
    (s.endSeen p v).rdB (AQ_PORT_STAT (eng0 p)) AQ_PORT_STAT_ENDSEEN = v ∧
      (s.endSeen p v).rdB (AQ_PORT_STAT (eng0 p + 1)) AQ_PORT_STAT_ENDSEEN = v := by
  have apart : AQ_PORT_STAT (eng0 p) ≠ AQ_PORT_STAT (eng0 p + 1) := by
    unfold AQ_PORT_STAT
    omega
  unfold State.endSeen
  rw [State.rdB_wr_ne _ _ _ _ apart, State.rdB_wr_b2n _ _ _ (by decide) (by decide),
    State.rdB_wr_b2n _ _ _ (by decide) (by decide)]
  exact ⟨rfl, rfl⟩

/-- End 1 suspects a break, and ENDSEEN falls (R95). -/
def State.suspected (s : State) (p : Nat) : State :=
  (s.endSeen p false).updEng (eng0 p + 1) (fun e => { e with suspect := true })

/-- Suspecting a break may send the missing SAMPLE again from end 1, and does no more. -/
theorem State.suspectBreak_eq (s : State) (p : Nat) :
    s.suspectBreak p = s.suspected p ∨ ∃ body, s.suspectBreak p = (s.suspected p).engSend (eng0 p + 1) body := by
  unfold State.suspectBreak
  dsimp only
  split
  · split
    · exact .inr ⟨_, rfl⟩
    · exact .inl rfl
  · exact .inl rfl

theorem State.suspected_fields (s : State) (p : Nat) :
    ((s.suspected p).eng (eng0 p + 1)).suspect = true ∧
      (s.suspected p).rdB (AQ_PORT_STAT (eng0 p)) AQ_PORT_STAT_ENDSEEN = false ∧
      (s.suspected p).rdB (AQ_PORT_STAT (eng0 p + 1)) AQ_PORT_STAT_ENDSEEN = false := by
  obtain ⟨seen0, seen1⟩ := s.rdB_endSeen p false
  unfold State.suspected
  rw [State.eng_updEng_same, State.rdB_updEng, State.rdB_updEng]
  exact ⟨rfl, seen0, seen1⟩

theorem State.suspectBreak_fields (s : State) (p : Nat) :
    ((s.suspectBreak p).eng (eng0 p + 1)).suspect = true ∧
      (s.suspectBreak p).rdB (AQ_PORT_STAT (eng0 p)) AQ_PORT_STAT_ENDSEEN = false ∧
      (s.suspectBreak p).rdB (AQ_PORT_STAT (eng0 p + 1)) AQ_PORT_STAT_ENDSEEN = false := by
  rcases s.suspectBreak_eq p with h | ⟨body, h⟩
  · rw [h]
    exact s.suspected_fields p
  · rw [h, State.eng_engSend_same, State.rdB_engSend, State.rdB_engSend]
    exact s.suspected_fields p

section
variable {s : State} {ring : Fin 2} {t : Nat} (hp : s.portEn (16 + ring.val) = true)
  (he : s.rdB (AQ_PORT_CTL (eng0 (16 + ring.val) + 1)) AQ_PORT_CTL_EN = true) (ho : (s.eng (eng0 (16 + ring.val))).twoEnd = none)
include hp he ho

theorem execRingEnd0FrameTimeout_due {body : List Nat} {t0 : Nat} (hs : (s.eng (eng0 (16 + ring.val))).sent = some (body, t0))
    (ht : t0 + (s.eng (eng0 (16 + ring.val) + 1)).tRing + us ≤ Nat.max s.now t) :
    execRingEnd0FrameTimeout s ring t = .next ((s.at t).suspectBreak (16 + ring.val)) := by
  have runs : ¬ (¬ (s.at t).portEn (16 + ring.val) = true ∨
      ¬ (s.at t).rdB (AQ_PORT_CTL (eng0 (16 + ring.val) + 1)) AQ_PORT_CTL_EN = true ∨
      (s.eng (eng0 (16 + ring.val))).twoEnd.isSome = true) := by
    rintro (h | h | h)
    · exact h hp
    · exact h he
    · rw [ho] at h
      exact absurd h (by decide)
  unfold execRingEnd0FrameTimeout
  dsimp only
  rw [State.eng_at, State.eng_at, if_neg runs, hs]
  exact if_pos ht

theorem execRingEnd0FrameAtEnd1_good {body : List Nat} (hb : frameType body ≠ 0x14) : execRingEnd0FrameAtEnd1 s ring body true t =
    .next (((s.at t).engRx (eng0 (16 + ring.val) + 1) body true false).endSeen (16 + ring.val) true) := by
  have oneEnd : (((((s.at t).engRx (eng0 (16 + ring.val) + 1) body true false).endSeen (16 + ring.val) true).eng
      (eng0 (16 + ring.val))).twoEnd.isSome) = false := by
    rw [State.eng_of_lnk (State.lnk_endSeen ..)]
    unfold State.engRx
    rw [State.eng_updEng_ne _ _ (by omega), State.eng_at, ho]
    rfl
  have runs : ¬ (¬ (s.at t).portEn (16 + ring.val) = true ∨
      ¬ (s.at t).rdB (AQ_PORT_CTL (eng0 (16 + ring.val) + 1)) AQ_PORT_CTL_EN = true) := by
    rintro (h | h)
    · exact h hp
    · exact h he
  unfold execRingEnd0FrameAtEnd1
  dsimp only
  rw [if_neg runs, if_pos rfl, oneEnd, if_neg Bool.false_ne_true, if_neg hb]

end

end Sys2Proof.Machine

open Sys2Proof Sys2Proof.Machine

/-- Settles O33, time by time. -/
theorem enginesActAtTheirTimes : Obligations.EnginesActAtTheirTimes := by
  intro s k t n p e gives missed
  refine ⟨?close, ?retry, ?locate, ?break_, ?stale, ?marker, ?recal, ?enum, ?wake, ?eack, ?auth, ?collect, ?ring⟩
  case close =>
    intro r hr ht hk
    obtain ⟨target, closes⟩ := execSlotWindowClose_chain (t := t) hr ht hk
    refine ⟨_, closes, ?_⟩
    beta_reduce
    rw [State.eng_staleFrom, State.eng_updEng_same]
    refine ⟨rfl, rfl, fun q ⟨h1, h2, hg⟩ hs _ => ?_⟩
    rw [State.missing_staleFrom, State.pos_updEng]
    exact State.missing_foldl ht _ _ (.inl (State.mem_lost (s := s.at t) ht h1 h2 hg hs))
  case retry =>
    intro r hl hr ht hy hk h64 ⟨q, hq⟩
    have some : s.unheldOf k r ≠ [] := List.ne_nil_of_mem (State.mem_unheldOf.mpr hq)
    refine ⟨_, execRetryRead_chain hl hr ht hy hk h64 some, _, _, fun q hq => ?_, State.mem_unheldOf.mp (List.min_mem some),
      State.mem_unheldOf.mp (List.max_mem some), ?_⟩
    · have hq := State.mem_unheldOf.mpr hq
      exact ⟨List.min_le_of_mem hq, List.le_max_of_mem hq⟩
    · rw [State.eng_sendRead]
      exact ⟨rfl, rfl⟩
  case locate =>
    intro m hk hl hm hr hb
    refine ⟨_, execChainBreakLocate_ping hk hl hm hr hb, ?_⟩
    beta_reduce
    rw [State.eng_locatePing]
    exact ⟨rfl, rfl, rfl⟩
  case break_ => exact fun m q t0 hk hl hp ht _ h64 => ⟨_, execChainBreakLocate_lost hk hl hp ht, State.breakAt_chain _ hk h64⟩
  case stale =>
    intro pp i t0 hs ha ht hn he
    obtain ⟨v, queued, src, on⟩ := State.inbox_nodeSource (((s.at t).updPos pp (i.val + 1)
      (fun x => { x with staleActed := true })).raise (engSrc (eng0 pp)) EV_SWP_STALE [portPos pp (i.val + 1)]) 11 pp (i.val + 1) 89 true
    refine ⟨_, execNodeStaleTimeout_acts hs ha ht hn he, ?_, v, ?_, src, on⟩
    · rw [State.pos_nodeSource, State.pos_raise, State.pos_updPos_same]
    · rw [queued, State.trip_raise]
      rfl
  case marker =>
    intro hc hm hr ht
    refine ⟨_, execTimeMarker_due hc hm hr ht, ?_⟩
    beta_reduce
    rw [State.eng_updEng_same, State.eng_engSend_same]
    rfl
  case recal =>
    intro ring hk h5 he hr hp hn
    refine ⟨_, (execRecalibration_chain hk h5 he hr hp).trans (congrArg _ (State.calStart_running h5 hn)), ?_⟩
    beta_reduce
    rw [State.eng_sendPing, State.eng_updEng_same]
    exact ⟨rfl, rfl, rfl, rfl⟩
  case enum =>
    intro he hw
    obtain ⟨state, dly⟩ := (s.at t).portState_enumBegin k
    refine ⟨_, execPortEnumeration_first he hw, state, dly, ?_⟩
    rw [State.eng_enumBegin]
    exact ⟨rfl, rfl, rfl, rfl⟩
  case wake =>
    intro src v row admits en
    obtain ⟨z, lnk, now, wakes⟩ := execWake_admitted admits en
    refine ⟨_, wakes, ?_, z.portState_wakeTone 500 k.isLt⟩
    show (z.wakeTone k 500).eng k = _
    rw [State.eng_of_lnk (State.lnk_wakeTone ..), State.eng_updEng_same, now, State.eng_of_lnk lnk]
  case eack =>
    intro q pos due tries
    refine ⟨_, execEnumEackTimeout_due pos due, ?_⟩
    beta_reduce
    rw [State.eng_enumRetry (s := s.at t) tries]
    exact ⟨rfl, rfl, rfl⟩
  case auth =>
    intro hq hp h5 ht h0
    have due {gap : Bool} := execAuthPeriod_due (gap := gap) hq hp h5 ht h0
    refine ⟨fun hn => ?_, fun hb => ?_⟩
    · refine ⟨_, due.trans (if_pos hn), ?_⟩
      beta_reduce
      rw [State.eng_sendAuth, State.pos_sendAuth]
      exact ⟨rfl, _, Nat.mod_lt _ (by decide), rfl, rfl, rfl⟩
    · refine ⟨_, due.trans (if_neg fun h => absurd (hb.symm.trans h) (by decide)), ?_⟩
      beta_reduce
      rw [State.eng_raise, State.eng_updEng_same]
      rfl
  case collect =>
    intro nonce h0 hn hc ht
    refine ⟨_, execAuthCollect_due h0 hn hc ht, ?_⟩
    beta_reduce
    rw [State.pos_updPos_same, State.eng_updPos, State.eng_engSend_same]
    exact ⟨rfl, rfl, rfl⟩
  case ring =>
    intro ring k0 hp he ho
    refine ⟨fun b t0 hs ht => ⟨_, execRingEnd0FrameTimeout_due hp he ho hs ht, State.suspectBreak_fields _ _⟩, fun body hb => ?_⟩
    obtain ⟨seen0, seen1⟩ := ((s.at t).engRx (k0 + 1) body true false).rdB_endSeen (16 + ring.val) true
    refine ⟨_, execRingEnd0FrameAtEnd1_good hp he ho hb, seen0, seen1, ?_⟩
    rw [State.eng_of_lnk (State.lnk_endSeen ..), State.eng_engRx_same]
    rfl
end

section
/-!
PROOF. A sweep placed at a grid point: what its preparation leaves of the registers and of the sequencer, and the engines that
get its descriptor (R76, R77, R97, R103, R517).
-/

namespace Sys2Proof.Machine

/-! ## Calibration of a running port (R51) -/

@[simp] theorem State.regs_sendPing (s : State) (k q : Nat) : (s.sendPing k q).regs = s.regs := by
  unfold State.sendPing
  rw [State.regs_updEng, State.regs_engSend]

/-- Outside enumeration calibration writes at most the port's own status. -/
theorem State.reg_calStart_ne {s : State} {a k : Nat} (q : Nat) (h : s.portState k ≠ 3) (ha : a ≠ AQ_PORT_STAT k) :
    (s.calStart k q).reg a = s.reg a := by
  have ping (z : State) : (z.sendPing k q).reg a = z.reg a := by
    unfold State.reg
    rw [State.regs_sendPing]
  have still (m : Engine → Engine) :
      ((s.wr (AQ_PORT_STAT k) AQ_PORT_STAT_DLYVALID 1).updEng k m).portState k = s.portState k := by
    unfold State.portState
    rw [State.rd_updEng, State.rd_wr_apart _ _ _ _ _ (by decide) (by decide) (by decide)]
  unfold State.calStart
  split
  · exact ping _
  · unfold State.calDone
    dsimp only
    rw [still, if_neg h, State.reg_updEng, State.reg_wr_ne _ _ _ ha]

/-! ## A sweep written to the window (R103) -/

/-- The course of the sequencer: its next tag, its count of sweeps, its period and its open-wire test. -/
def Sweep.course (w : Sweep) : Nat × Nat × Nat × Nat := (w.tag, w.count, w.period, w.owt)

theorem Sweep.course_eq {w : Sweep} {tag count period owt : Nat} : w.course = (tag, count, period, owt) ↔
    w.tag = tag ∧ w.count = count ∧ w.period = period ∧ w.owt = owt := by
  unfold Sweep.course
  simp only [Prod.mk.injEq]

theorem State.kept_storeBytes (s : State) (b : Nat) (bs : List Nat) : Kept (· ∈ [.mem_, .fab_]) s (s.storeBytes b bs) :=
  @State.storeBytes_kept _ ⟨by simp⟩ ⟨by simp⟩ _ _ _ _ (Kept.refl s)

@[simp] theorem State.swp_storeBytes (s : State) (b : Nat) (bs : List Nat) : (s.storeBytes b bs).swp = s.swp :=
  (s.kept_storeBytes b bs).same .swp_ (by simp)

/-- A sweep written to the window takes a place in it and changes nothing of the sequencer's course (R103). -/
theorem State.winWrite_cases (s : State) (d : SweepDesc) : s.winWrite d = s ∨ ∃ b bs v, ∃ w : Sweep,
    w.course = s.swp.course ∧ s.winWrite d = { (s.storeBytes b bs).wr AQ_WIN_STAT AQ_WIN_STAT_NSWEEP v with swp := w } := by
  unfold State.winWrite
  dsimp only
  refine (ite_eq_or_eq _ _ _).imp_right (fun e => ⟨_, _, _, _, ?_, e⟩)
  unfold Sweep.course
  rw [State.swp_wr, State.swp_storeBytes]

/-! ## A ring rejoined (R97) -/

theorem eng0_succ_lt {p : Nat} (h : p < 18) : eng0 p + 1 < 20 := by
  unfold eng0
  split <;> omega

/-- Both ends of a ring run again, recorded (R97). -/
def State.ringBack (s : State) (p : Nat) : State :=
  ((s.wr (AQ_PORT_STAT (eng0 p)) AQ_PORT_STAT_STATE 5).wr (AQ_PORT_STAT (eng0 p + 1)) AQ_PORT_STAT_STATE 5).raise
    (engSrc (eng0 p)) EV_SWP_RESTORE [portPos p 0]

theorem State.portState_ringBack (s : State) {p : Nat} (hp : p < 18) :
    (s.ringBack p).portState (eng0 p) = 5 ∧ (s.ringBack p).portState (eng0 p + 1) = 5 := by
  obtain ⟨low0, low1, apart⟩ : AQ_PORT_STAT (eng0 p) < 0x46000000 ∧ AQ_PORT_STAT (eng0 p + 1) < 0x46000000 ∧
      AQ_PORT_STAT (eng0 p) ≠ AQ_PORT_STAT (eng0 p + 1) := by
    have := eng0_succ_lt hp
    unfold AQ_PORT_STAT
    omega
  unfold State.portState State.ringBack
  rw [State.rd_raise_low _ _ _ _ _ low0, State.rd_raise_low _ _ _ _ _ low1, State.rd_wr_ne _ _ _ _ apart,
    State.rd_wr_same _ _ _ _ (by decide), State.rd_wr_same _ _ _ _ (by decide)]
  exact ⟨rfl, rfl⟩

/-! ## Registers that the preparation of a sweep leaves -/

/-- A register that nothing done before a sweep is posted writes: it lies below the status of the sequencer, of the window
and of the ledger, and is no status of a port. -/
structure SweepLeaves (a : Nat) : Prop where
  below : a < AQ_SWP_STAT
  port : ∀ k < 20, a ≠ AQ_PORT_STAT k

theorem sweepLeaves_per : SweepLeaves AQ_SWP_PER := ⟨by decide, by decide⟩

theorem sweepLeaves_portCtl {k : Nat} (hk : k < 20) : SweepLeaves (AQ_PORT_CTL k) where
  below := by
    unfold AQ_PORT_CTL AQ_SWP_STAT
    omega
  port := by
    unfold AQ_PORT_CTL AQ_PORT_STAT
    omega

/-- The sequencer is no register. -/
theorem State.reg_swp (s : State) (w : Sweep) (a : Nat) : ({ s with swp := w } : State).reg a = s.reg a := rfl

/-- The machine that posts a sweep: the window written, the period taken, the profiles latched, the rings rejoined (R76). -/
def State.sweepReady (s : State) (per pmode : Nat) : State :=
  (((((s.winFlush).syncNote).setPeriod per pmode).takeProfiles).ringRejoin 16).ringRejoin 17

section
variable {a : Nat} (h : SweepLeaves a)
include h

theorem SweepLeaves.ne {b : Nat} (hb : AQ_SWP_STAT ≤ b) : a ≠ b := (Nat.lt_of_lt_of_le h.below hb).ne

theorem State.reg_raise_leaves (s : State) (src code : Nat) (ws : List Nat) : (s.raise src code ws).reg a = s.reg a :=
  s.reg_raise _ _ _ (h.ne (by decide)) (h.ne (by decide))

theorem State.reg_winWrite (s : State) (d : SweepDesc) : (s.winWrite d).reg a = s.reg a := by
  have stored (b : Nat) (bs : List Nat) : (s.storeBytes b bs).reg a = s.reg a :=
    (s.kept_storeBytes b bs).same .regs_ (by simp) a (h.ne (by decide)) (h.ne (by decide))
  rcases s.winWrite_cases d with e | ⟨b, bs, v, w, -, e⟩
  · rw [e]
  · rw [e, State.reg_swp, State.reg_wr_ne _ _ _ (h.ne (by decide)), stored]

theorem State.reg_sweepExtremes (s : State) (d : SweepDesc) : (s.sweepExtremes d).reg a = s.reg a :=
  (@State.sweepExtremes_kept (· = .led_) ⟨rfl⟩ s s d (Kept.refl s)).same .regs_ nofun a (h.ne (by decide)) (h.ne (by decide))

theorem State.reg_winFlush (s : State) : s.winFlush.reg a = s.reg a :=
  foldl_keeps (fun u : State => u.reg a)
    (by exact fun s d => (State.reg_sweepExtremes h _ d).trans (State.reg_winWrite h s d)) _ s

theorem State.reg_syncNote (s : State) : s.syncNote.reg a = s.reg a := by
  unfold State.syncNote
  dsimp only
  split
  · rw [State.reg_raise_leaves h, State.reg_hit_ne _ _ _ (h.ne (by decide)) (h.ne (by decide)), State.reg_swp,
      State.reg_wr_ne _ _ _ (h.ne (by decide))]
  · rw [State.reg_swp, State.reg_wr_ne _ _ _ (h.ne (by decide))]

theorem State.reg_setPeriod (s : State) (per pmode : Nat) : (s.setPeriod per pmode).reg a = s.reg a := by
  unfold State.setPeriod
  dsimp only
  split
  · rw [State.reg_wr_ne _ _ _ (h.ne (by decide))]
  · rw [State.reg_raise_leaves h, State.reg_swp, State.reg_wr_ne _ _ _ (h.ne (by decide))]

theorem State.reg_ringRejoin (s : State) {p : Nat} (hp : p < 18) : (s.ringRejoin p).reg a = s.reg a := by
  have lt := eng0_succ_lt hp
  have apart : AQ_PORT_STAT (eng0 p + 1) ≠ AQ_PORT_STAT (eng0 p) := by
    unfold AQ_PORT_STAT
    omega
  have back (z : State) : (((z.ringBack p).calStart (eng0 p) 1).calStart (eng0 p + 1) 1).reg a = z.reg a := by
    obtain ⟨run0, run1⟩ := z.portState_ringBack hp
    have not0 : (z.ringBack p).portState (eng0 p) ≠ 3 := by
      rw [run0]
      decide
    have not1 : ((z.ringBack p).calStart (eng0 p) 1).portState (eng0 p + 1) ≠ 3 := by
      unfold State.portState State.rd at run1 ⊢
      rw [State.reg_calStart_ne _ not0 apart, run1]
      decide
    rw [State.reg_calStart_ne _ not1 (h.port _ lt), State.reg_calStart_ne _ not0 (h.port _ (by omega))]
    unfold State.ringBack
    rw [State.reg_raise_leaves h, State.reg_wr_ne _ _ _ (h.port _ lt), State.reg_wr_ne _ _ _ (h.port _ (by omega))]
  unfold State.ringRejoin
  dsimp only
  split
  · exact back _
  · rfl

theorem State.reg_sweepReady (s : State) (per pmode : Nat) : (s.sweepReady per pmode).reg a = s.reg a := by
  unfold State.sweepReady
  rw [State.reg_ringRejoin h _ (by decide), State.reg_ringRejoin h _ (by decide), State.takeProfiles, State.reg_swp,
    State.reg_setPeriod h, State.reg_syncNote h, State.reg_winFlush h]

end

/-! ## The sequencer's course while a sweep is prepared -/

@[simp] theorem State.course_winFlush (s : State) : s.winFlush.swp.course = s.swp.course := by
  refine foldl_keeps (fun u : State => u.swp.course) (fun s d => ?_) _ s
  have same : ((s.winWrite d).sweepExtremes d).swp = (s.winWrite d).swp :=
    (@State.sweepExtremes_kept (· = .led_) ⟨rfl⟩ _ _ d (Kept.refl _)).same .swp_ nofun
  rw [same]
  rcases s.winWrite_cases d with e | ⟨b, bs, v, w, course, e⟩
  · rw [e]
  · rw [e, ← course]

@[simp] theorem State.course_syncNote (s : State) : s.syncNote.swp.course = s.swp.course := by
  unfold State.syncNote
  dsimp only
  split
  · rw [State.swp_raise, State.swp_hit]
    rfl
  · rfl

@[simp] theorem State.course_setPeriod (s : State) (per pmode : Nat) :
    (s.setPeriod per pmode).swp.course = (s.swp.tag, s.swp.count, per, s.swp.owt) := by
  unfold State.setPeriod
  dsimp only
  split
  · next same => rw [same]; rfl
  · rw [State.swp_raise]
    rfl

@[simp] theorem State.swp_ringRejoin (s : State) (p : Nat) : (s.ringRejoin p).swp = s.swp :=
  (@State.ringRejoin_kept (· ≠ Part.swp_) ⟨nofun⟩ ⟨nofun⟩ ⟨nofun⟩ ⟨nofun⟩ ⟨nofun⟩ ⟨nofun⟩ ⟨nofun⟩ s s p (Kept.refl s)).same
    .swp_ (· rfl)

theorem State.course_sweepReady (s : State) (per pmode : Nat) :
    (s.sweepReady per pmode).swp.course = (s.swp.tag, s.swp.count, per, s.swp.owt) := by
  have course : s.winFlush.syncNote.swp.course = s.swp.course := by
    rw [State.course_syncNote, State.course_winFlush]
  obtain ⟨tag, count, -, owt⟩ := Sweep.course_eq.mp course
  unfold State.sweepReady
  rw [State.swp_ringRejoin, State.swp_ringRejoin]
  show ((s.winFlush.syncNote).setPeriod per pmode).swp.course = _
  rw [State.course_setPeriod, tag, count, owt]

/-! ## Posting (R77) -/

theorem State.lnk_post (s : State) (cls src code dest a b : Nat) : (s.post cls src code dest a b).lnk = s.lnk :=
  (@State.post_kept (· ≠ Part.lnk_) ⟨nofun⟩ ⟨nofun⟩ s s cls src code dest a b (Kept.refl s)).same .lnk_ (· rfl)

theorem State.swTag_postSweep_same (s : State) (k : Nat) (d : SweepDesc) : ((s.postSweep k d).eng k).swTag = some d.tag := by
  unfold State.postSweep
  dsimp only
  rw [State.eng_updEng_same]

theorem State.eng_postSweep_ne (s : State) {j k : Nat} (d : SweepDesc) (h : j ≠ k) : (s.postSweep k d).eng j = s.eng j := by
  unfold State.postSweep
  dsimp only
  rw [State.eng_updEng_ne _ _ h, State.eng_of_lnk (State.lnk_post ..), State.eng_of_lnk (State.lnk_storeBytes ..)]

/-- Every engine of a list gets the tag. -/
theorem State.swTag_postSweep_foldl (d : SweepDesc) {k : Nat} (l : List Nat) (s : State)
    (h : k ∈ l ∨ (s.eng k).swTag = some d.tag) : ((l.foldl (fun s k => s.postSweep k d) s).eng k).swTag = some d.tag := by
  induction l generalizing s with
  | nil => exact h.resolve_left List.not_mem_nil
  | cons j l ih =>
    refine ih _ ?_
    by_cases e : k = j
    · subst e
      exact .inr (s.swTag_postSweep_same k d)
    · exact h.imp (fun m => (List.mem_cons.mp m).resolve_left e) (fun t => by rw [State.eng_postSweep_ne _ _ e, t])

theorem State.swTag_portOwtNext (s : State) (p k : Nat) : ((s.portOwtNext p).eng k).swTag = (s.eng k).swTag := by
  unfold State.portOwtNext
  refine ite_keeps (fun u : State => (u.eng k).swTag) rfl ?_
  by_cases e : k = eng0 p
  · rw [e, State.eng_updEng_same]
  · rw [State.eng_updEng_ne _ _ e]

/-- The engines that get a sweep. -/
def State.sweepEngines (s : State) : List Nat :=
  (List.range 20).filter (fun k => s.portEn (portOf k) && s.rdB (AQ_PORT_CTL k) AQ_PORT_CTL_EN)

/-- The descriptor at every engine that gets it, and the ports' own open-wire tests moved on (R77, R99). -/
def State.postedAll (s : State) (d : SweepDesc) : State :=
  (List.range 18).foldl (fun s p => s.portOwtNext p) (s.sweepEngines.foldl (fun s k => s.postSweep k d) s)

theorem State.swTag_postedAll (s : State) (d : SweepDesc) {k : Nat} (h : k ∈ s.sweepEngines) :
    ((s.postedAll d).eng k).swTag = some d.tag :=
  (foldl_keeps (fun u : State => (u.eng k).swTag) (fun u p => u.swTag_portOwtNext p k) _ _).trans
    (State.swTag_postSweep_foldl d _ s (.inl h))

@[simp] theorem State.swp_postedAll (s : State) (d : SweepDesc) : (s.postedAll d).swp = s.swp := by
  have posted (z : State) (k : Nat) : (z.postSweep k d).swp = z.swp :=
    (@State.postSweep_kept (· ≠ Part.swp_) ⟨nofun⟩ ⟨nofun⟩ ⟨nofun⟩ ⟨nofun⟩ z z k d (Kept.refl z)).same .swp_ (· rfl)
  have moved (z : State) (p : Nat) : (z.portOwtNext p).swp = z.swp :=
    (@State.portOwtNext_kept (· = .lnk_) ⟨rfl⟩ z z p (Kept.refl z)).same .swp_ nofun
  exact (foldl_keeps State.swp moved _ _).trans (foldl_keeps State.swp posted _ s)

/-- The sequencer after a sweep at a grid point, of which it keeps a descriptor. -/
def Sweep.after (w : Sweep) (tag : Nat) (full : SweepDesc) (g : Nat) : Sweep :=
  { w with tag := if tag = 0xFFFE then 0 else tag + 1, cur := some full, count := w.count + 1, last := some g,
           toWrite := w.toWrite ++ [full], owt := owtAfter w.owt }

/-- A sweep sent: every engine has its descriptor, its tag stands in the status register, the sequencer goes on. -/
def State.sweepSent (s : State) (d full : SweepDesc) (g : Nat) : State :=
  let u := (s.postedAll d).wr AQ_SWP_STAT AQ_SWP_STAT_TAG d.tag
  { u with swp := u.swp.after d.tag full g }

/-- What a sweep of a period carries, to the engines and to the sequencer's own descriptor (R77, R99). -/
structure State.SweepWords (s : State) (per : Nat) (d full : SweepDesc) : Prop where
  tag : d.tag = s.swp.tag
  same : full.tag = d.tag
  period : full.period = per * s.pload
  seq : full.seq = s.swp.count + 1
  lines : full.owtMask = owtLines (s.postedAll d).swp.owt

/-- The sweep of a grid point within reach is sent (R76, R77). -/
theorem execSweepGridPoint_sent {s : State} {t : Nat} {g : Nat × Nat} (grid : (s.at t).nextGrid (s.at t).periodWanted.1 = g)
    (hen : s.rdB AQ_SWP_CTL AQ_SWP_CTL_EN = true) (hp : s.pload ≠ 0)
    (hg : g.1 < (s.at t).ns + s.rd AQ_SWP_CTL AQ_SWP_CTL_LEAD * 1000 + 20000 + s.pload) :
    ∃ pmode z d full, z = (s.at t).sweepReady g.2 pmode ∧ z.SweepWords g.2 d full ∧
      execSweepGridPoint s t = .next (z.sweepSent d full g.1) := by
  subst grid
  have runs : ¬ (¬ (s.at t).rdB AQ_SWP_CTL AQ_SWP_CTL_EN = true ∨ (s.at t).pload = 0 ∨
      (s.at t).ns + (s.at t).rd AQ_SWP_CTL AQ_SWP_CTL_LEAD * 1000 + 20000 + (s.at t).pload ≤
        ((s.at t).nextGrid (s.at t).periodWanted.1).1) := by
    rintro (h | h | h)
    · exact h hen
    · exact hp h
    · exact absurd hg (Nat.not_lt.mpr h)
  unfold execSweepGridPoint
  dsimp only
  rw [if_neg runs]
  generalize ready : State.ringRejoin (State.ringRejoin _ 16) 17 = z
  generalize posts : List.foldl (fun s p => State.portOwtNext s p) _ _ = u
  have posted : z.postedAll _ = u := posts
  have sent {d : SweepDesc} (full : SweepDesc) (g : Nat) (h : z.postedAll d = u) :
      z.sweepSent d full g = { u.wr AQ_SWP_STAT AQ_SWP_STAT_TAG d.tag with
        swp := (u.wr AQ_SWP_STAT AQ_SWP_STAT_TAG d.tag).swp.after d.tag full g } := by
    unfold State.sweepSent
    rw [h]
  refine ⟨_, z, _, _, ready.symm, ?_, congrArg _ (sent _ _ posted).symm⟩
  exact ⟨rfl, rfl, rfl, rfl, congrArg (fun u : State => owtLines u.swp.owt) posted.symm⟩

/-! ## What a sweep leaves of the machine before it -/

theorem State.pload_sweepReady (s : State) (per pmode : Nat) : (s.sweepReady per pmode).pload = s.pload := by
  unfold State.pload State.rd
  rw [State.reg_sweepReady sweepLeaves_per]

theorem eng0_portOf_lt {k : Nat} (h : k < 20) : eng0 (portOf k) < 20 := by
  unfold eng0 portOf
  split_ifs <;> omega

/-- An enabled engine of an enabled port is one that the prepared sweep goes to. -/
theorem State.mem_sweepEngines {s : State} {k : Nat} (per pmode : Nat) (hk : k < 20)
    (hp : s.portEn (portOf k) = true) (he : s.rdB (AQ_PORT_CTL k) AQ_PORT_CTL_EN = true) :
    k ∈ (s.sweepReady per pmode).sweepEngines := by
  refine List.mem_filter.mpr ⟨List.mem_range.mpr hk, Bool.and_eq_true_iff.mpr ⟨?_, ?_⟩⟩
  · unfold State.portEn State.rdB State.rd at hp ⊢
    rw [State.reg_sweepReady (sweepLeaves_portCtl (eng0_portOf_lt hk)), hp]
  · unfold State.rdB State.rd at he ⊢
    rw [State.reg_sweepReady (sweepLeaves_portCtl hk), he]

theorem State.swp_sweepSent (s : State) (d full : SweepDesc) (g : Nat) :
    (s.sweepSent d full g).swp = s.swp.after d.tag full g := by
  unfold State.sweepSent
  dsimp only
  rw [State.swp_wr, State.swp_postedAll]

theorem State.swTag_sweepSent (s : State) (d full : SweepDesc) (g : Nat) {k : Nat} (h : k ∈ s.sweepEngines) :
    ((s.sweepSent d full g).eng k).swTag = some d.tag := by
  have same (z : State) (w : Sweep) : ({ z with swp := w } : State).eng k = z.eng k := rfl
  unfold State.sweepSent
  dsimp only
  rw [same, State.eng_wr, s.swTag_postedAll d h]

end Sys2Proof.Machine
end

section
/-!
PROOF. The sequencer at its own times, and the fault window: deadlines, stream-only READs, dwells, the open-wire test, the
trigger, the freeze and the re-arm (R80, R87, R90, R91, R99, R104, R517).
-/

namespace Sys2Proof.Machine

/-! ## Deadlines (R90, R91) -/

/-- A position goes stale at a target, or stays stale since it was (R90). -/
def State.goneStale (s : State) (p target q : Nat) : State :=
  s.updPos p q (fun x => { x with staleSince := some (x.staleSince.getD target) })

theorem State.staleSince_goneStale (s : State) (p target x q : Nat) : ((s.goneStale p target x).pos p q).staleSince =
    if q - 1 = x - 1 then some ((s.pos p q).staleSince.getD target) else (s.pos p q).staleSince := by
  unfold State.goneStale
  rw [State.pos_updPos]
  by_cases same : q - 1 = x - 1
  · unfold State.pos
    rw [if_pos same, if_pos (by omega), same]
  · rw [if_neg same, if_neg (by omega)]

theorem State.staleSince_goneStale_foldl {p q target v : Nat} (l : List Nat) (s : State)
    (hv : (s.pos p q).staleSince.getD target = v) (hq : q ∈ l ∨ (s.pos p q).staleSince = some v) :
    ((l.foldl (fun s q => s.goneStale p target q) s).pos p q).staleSince = some v := by
  induction l generalizing s with
  | nil => exact hq.resolve_left List.not_mem_nil
  | cons x l ih =>
    have step := s.staleSince_goneStale p target x q
    refine ih _ ?_ ?_
    · rw [step]
      split
      · exact hv
      · exact hv
    · rw [step]
      split
      · exact .inr (congrArg some hv)
      · next apart => exact hq.imp_left (fun m => (List.mem_cons.mp m).resolve_left (by rintro rfl; exact apart rfl))

/-- A position without a record of the tag is stale since the target, or since it was before (R90). -/
theorem State.staleSince_staleFrom {s : State} {p q tag : Nat} {qs : List Nat} (target : Nat) (hq : q ∈ qs) (h1 : 1 ≤ q)
    (hn : q ≤ s.portNodes p) (hg : (s.pos p q).gotTag ≠ some tag) :
    ((s.staleFrom p qs tag target).pos p q).staleSince = some ((s.pos p q).staleSince.getD target) := by
  refine State.staleSince_goneStale_foldl _ s rfl (.inl (List.mem_filter.mpr ⟨hq, ?_⟩))
  rw [decide_eq_true ⟨h1, hn⟩, decide_eq_true hg]
  rfl

@[simp] theorem State.led_staleFrom (s : State) (p : Nat) (qs : List Nat) (tag target : Nat) :
    (s.staleFrom p qs tag target).led = s.led :=
  foldl_keeps State.led (by intros; rfl) _ _

@[simp] theorem State.ns_staleFrom (s : State) (p : Nat) (qs : List Nat) (tag target : Nat) :
    (s.staleFrom p qs tag target).ns = s.ns :=
  foldl_keeps State.ns (by intros; rfl) _ _

@[simp] theorem State.rdB_staleFrom (s : State) (p : Nat) (qs : List Nat) (tag target a : Nat) (f : Fld) :
    (s.staleFrom p qs tag target).rdB a f = s.rdB a f :=
  foldl_keeps (fun u : State => u.rdB a f) (by intros; rfl) _ _

/-- A missed deadline recorded (R91). -/
def State.overrun (s : State) (k tag : Nat) : State :=
  (s.hit AQ_SWP_EVT AQ_SWP_EVT_OVERRUN AQ_SWP_CNT AQ_SWP_CNT_OVERRUNN).raise srcWindow EV_SWP_DEADLINE [portPos (portOf k) 0, tag]

theorem State.rdB_overrun (s : State) (k tag : Nat) : (s.overrun k tag).rdB AQ_SWP_EVT AQ_SWP_EVT_OVERRUN = true := by
  unfold State.overrun
  rw [State.rdB_raise_low _ _ _ _ _ (by decide), State.rdB_hit_same _ _ _ (by decide) (by decide) (by decide)]

theorem State.lnk_overrun (s : State) (k tag : Nat) : (s.overrun k tag).lnk = s.lnk := by
  unfold State.overrun
  rw [State.lnk_raise, State.lnk_hit]

theorem State.ns_overrun (s : State) (k tag : Nat) : (s.overrun k tag).ns = s.ns := by
  unfold State.overrun
  rw [State.ns_raise, State.ns_hit]

theorem portOf_lt {k : Nat} (h : k < 20) : portOf k < 18 := by
  unfold portOf
  split <;> omega

theorem State.portNodes_overrun (s : State) (k tag : Nat) {p : Nat} (hp : p < 18) :
    (s.overrun k tag).portNodes p = s.portNodes p := by
  have lt := eng0_succ_lt hp
  have low : AQ_PORT_STAT (eng0 p) < 0x42600000 := by
    unfold AQ_PORT_STAT
    omega
  unfold State.portNodes State.overrun
  rw [State.rd_raise_low _ _ _ _ _ (by omega),
    State.rd_hit_ne _ _ _ _ (by unfold AQ_SWP_EVT; omega) (by unfold AQ_SWP_CNT; omega)]

theorem State.raised_overrun (s u : State) (k tag t : Nat) (hl : u.led = ((s.at t).overrun k tag).led)
    (hn : u.ns = (s.at t).ns) : s.Raised u srcWindow EV_SWP_DEADLINE [portPos (portOf k) 0, tag] :=
  State.raised_of_raise (s' := (s.at t).hit AQ_SWP_EVT AQ_SWP_EVT_OVERRUN AQ_SWP_CNT AQ_SWP_CNT_OVERRUNN) rfl hl hn

theorem State.mem_portPositions {s : State} {p q : Nat} (h1 : 1 ≤ q) (hn : q ≤ s.portNodes p) : q ∈ s.portPositions p :=
  List.mem_map.mpr ⟨q - 1, List.mem_range.mpr (by omega), by omega⟩

section
variable {s : State} {k : Fin 20} {tag : Fin 65535} {t : Nat}

theorem execSweepDeadlineMiss_previous (h : (s.eng k).prevTag = some tag.val) : execSweepDeadlineMiss s k tag t =
    .next (((s.at t).overrun k tag).staleFrom (portOf k) (((s.at t).overrun k tag).portPositions (portOf k)) tag
      (s.eng k).prevTarget) := by
  unfold execSweepDeadlineMiss
  dsimp only
  rw [State.eng_raise, State.eng_hit, State.eng_at, h]
  exact if_pos rfl

theorem execSweepDeadlineMiss_other (h : (s.eng k).prevTag ≠ some tag.val) :
    execSweepDeadlineMiss s k tag t = .next ((s.at t).overrun k tag) := by
  unfold execSweepDeadlineMiss
  dsimp only
  rw [State.eng_raise, State.eng_hit, State.eng_at]
  cases e : (s.eng k).prevTag with
  | none => rfl
  | some pt => exact if_neg (by rintro rfl; exact h e)

end

/-! ## Stream-only READs (R80) -/

theorem execStreamOnlyRead_due {s : State} {k : Fin 20} {slot t : Nat} (hc : s.commands k = true) (h5 : 5 ≤ s.portState k)
    (hs : ∃ q, 1 ≤ q ∧ q ≤ s.portNodes (portOf k) ∧ (s.readSide k).1 ≤ q ∧ q ≤ (s.readSide k).2 ∧
      2 ≤ s.nodeType (portOf k) q)
    (hr : (s.eng k).readOut = none) (ht : (s.eng k).strAt = 0 ∨ (s.eng k).strAt + s.strPer ≤ Nat.max s.now t) :
    execStreamOnlyRead s k slot t =
      .next ((s.at t).sendRead k 0xFFFF (s.readSide k).1 (s.readSide k).2 (Nat.max 1660 slot) false) := by
  obtain ⟨q, h1, hn, lo, hi, two⟩ := hs
  have sense : (List.range (s.portNodes (portOf k))).any (fun i =>
      decide ((s.readSide k).1 ≤ i + 1 ∧ i + 1 ≤ (s.readSide k).2 ∧ 2 ≤ s.nodeType (portOf k) (i + 1))) = true :=
    List.any_eq_true.mpr ⟨q - 1, List.mem_range.mpr (by omega), by
      rw [Nat.sub_add_cancel h1]
      exact decide_eq_true ⟨lo, hi, two⟩⟩
  exact if_pos ⟨hc, h5, sense, hr, ht⟩

/-! ## The adaptive period (R87, R517) -/

/-- A string whose mean reaches the threshold restarts the dwell. -/
theorem State.dwellStep_reached {s : State} {r thr : Nat} (dwell : Nat) (hr : r < 12)
    (en : s.rdB (AQ_CUR_SRC r) AQ_CUR_SRC_EN = true) (live : bit (s.rd AQ_CUR_STAT AQ_CUR_STAT_STALE) r = false)
    (sampled : Tab.get 0 s.swp.winN r ≠ 0) (reach : thr * Tab.get 0 s.swp.winN r ≤ Tab.get 0 s.swp.winSum r) :
    s.dwellStep thr dwell = 0 := by
  have above : s.meanBelow r thr = some false := by
    unfold State.meanBelow
    dsimp only
    rw [live, if_neg Bool.false_ne_true, if_neg sampled, decide_eq_false (Nat.not_lt.mpr reach)]
  unfold State.dwellStep
  refine if_pos (List.any_eq_true.mpr ⟨some false, List.mem_map.mpr ⟨r, ?_, above⟩, rfl⟩)
  exact List.mem_filter.mpr ⟨List.mem_range.mpr hr, en⟩

/-- The mode that a window's dwells call for (R87). -/
def State.modeCalled (s : State) (near rest : Nat) : Nat :=
  if s.rd AQ_SWP_ADAPT AQ_SWP_ADAPT_ILOAD = 0 then 0
  else if s.rd AQ_SWP_DWELL AQ_SWP_DWELL_TREST * 1000 ≤ rest then 2
  else if s.swp.mode = 0 ∧ s.rd AQ_SWP_DWELL AQ_SWP_DWELL_TNEAR * 100 ≤ near then 1
  else s.swp.mode

theorem execMeanWindowEnd_eq (s : State) (t : Nat) :
    let near := s.dwellStep (s.rd AQ_SWP_ADAPT AQ_SWP_ADAPT_ILOAD * 10) s.swp.dwellNear
    let rest := s.dwellStep (s.rd AQ_SWP_ADAPT AQ_SWP_ADAPT_IREST * 10) s.swp.dwellRest
    execMeanWindowEnd s t = .next { s.at t with swp := { s.swp with
      dwellNear := near, dwellRest := rest, winSum := [], winN := [], mode := Nat.max (s.modeCalled near rest) s.swp.mode } } :=
  rfl

/-! ## The periodic open-wire test (R99) -/

theorem execOwtPeriodic_due {s : State} {t : Nat} (he : s.rdB AQ_SWP_CTL AQ_SWP_CTL_EN = true)
    (hp : s.rd AQ_SWP_OWT AQ_SWP_OWT_OWTPER ≠ 0) (ho : s.swp.owt = 0)
    (ht : s.swp.owtAt + s.rd AQ_SWP_OWT AQ_SWP_OWT_OWTPER * 60 * sec ≤ Nat.max s.now t) :
    execOwtPeriodic s t = .next (s.at t).owtStart :=
  if_pos ⟨he, hp, ht, ho⟩

/-! ## The control words of the sequencer and of the window -/

theorem swpCtl_plain : freeReg AQ_SWP_CTL = true ∧ AQ_SWP_CTL ≠ LEDGER_CTL ∧ writePair AQ_SWP_CTL = none ∧
    writePairLow AQ_SWP_CTL = none := by decide

theorem winCtl_plain : freeReg AQ_WIN_CTL = true ∧ AQ_WIN_CTL ≠ LEDGER_CTL ∧ writePair AQ_WIN_CTL = none ∧
    writePairLow AQ_WIN_CTL = none := by decide

/-- POSTN and HOLD of the window's control word take the value written. -/
theorem get_mergeWord_winCtl {r : RegRow} (h : regRow? AQ_WIN_CTL = some r) (old w : Word) :
    AQ_WIN_CTL_POSTN.get (mergeWord AQ_WIN_CTL r old w) = AQ_WIN_CTL_POSTN.get w ∧
      AQ_WIN_CTL_HOLD.get (mergeWord AQ_WIN_CTL r old w) = AQ_WIN_CTL_HOLD.get w := by
  have row : (regRow? AQ_WIN_CTL).all (fun r => r.fields.contains ⟨AQ_WIN_CTL_POSTN, .rw, 0, 255⟩ &&
      r.fields.contains ⟨AQ_WIN_CTL_HOLD, .rw, 0, 1⟩) = true := by decide
  rw [h] at row
  obtain ⟨postn, hold⟩ := Bool.and_eq_true_iff.mp row
  constructor
  · rw [get_mergeWord h (by decide) (by decide) old w (List.contains_iff_mem.mp postn)]
    exact get_mergeField_rw old (by decide) rfl
  · rw [get_mergeWord h (by decide) (by decide) old w (List.contains_iff_mem.mp hold)]
    exact get_mergeField_rw old (by decide) rfl

/-- The sequencer's control word written: the open-wire test starts, and sweeps turned on find no earlier one (R76, R99). -/
theorem State.writeEffect_swpCtl (s : State) (v : Nat) (old : Word) :
    s.writeEffect AQ_SWP_CTL v old =
      let z := if bit v 7 then s.owtStart else s
      if rose AQ_SWP_CTL_EN old (s.reg AQ_SWP_CTL) then { z with swp := { z.swp with last := none } } else z := by
  rw [State.writeEffect_aq _ _ _ (by decide)]
  unfold State.effAQ
  exact if_pos rfl

/-- The effects of the window's control word `w`: a trigger, and HOLD cleared (R104). -/
def State.winWritten (s : State) (w old : Word) : State :=
  let z := if bit w.toNat 0 then s.winTrigger 2 else s
  if fell AQ_WIN_CTL_HOLD old w then z.winHoldClear else z

theorem State.writeEffect_winCtl (s : State) {w old : Word}
    (h : AQ_WIN_CTL_HOLD.get (s.reg AQ_WIN_CTL) = AQ_WIN_CTL_HOLD.get w) :
    s.writeEffect AQ_WIN_CTL w.toNat old = s.winWritten w old := by
  have same : fell AQ_WIN_CTL_HOLD old (s.reg AQ_WIN_CTL) = fell AQ_WIN_CTL_HOLD old w := by
    unfold fell
    rw [h]
  rw [State.writeEffect_aq _ _ _ (by decide)]
  unfold State.effAQ State.winWritten
  dsimp only
  rw [if_neg (by decide), same]
  exact if_pos rfl

/-- A write of the window's control word stores POSTN and has its effects. -/
theorem writeReg_winCtl {s : State} {src t : Nat} {w : Word} {r : RegRow} (h : (s.at t).Admits AQ_WIN_CTL w.toNat r) :
    ∃ new, AQ_WIN_CTL_POSTN.get new = AQ_WIN_CTL_POSTN.get w ∧ writeReg s src AQ_WIN_CTL w.toNat t =
      .next ((((s.at t).setReg AQ_WIN_CTL new).winWritten w (s.reg AQ_WIN_CTL)).busAnswer 0 false) := by
  obtain ⟨free, apart, pair, low⟩ := winCtl_plain
  obtain ⟨postn, hold⟩ := get_mergeWord_winCtl h.row (s.reg AQ_WIN_CTL) w
  obtain ⟨u, effect, written⟩ := State.writeReg_plain (src := src) h free apart pair low
  rw [BitVec.ofNat_toNat, BitVec.setWidth_eq, State.writeEffect_winCtl _ (by rw [State.reg_setReg_same, hold])] at effect
  exact ⟨_, postn, by rw [written, effect]; rfl⟩

section
variable {s : State} {src v t : Nat} {r : RegRow}

/-! ## The open-wire test asked for (R99) -/

theorem execOwtnow_admitted (h : (s.at t).Admits AQ_SWP_CTL (AQ_SWP_CTL_OWTNOW.put (BitVec.ofNat 32 v) 1).toNat r) :
    ∃ u, execOwtnow s src v t = .next u ∧ u.swp.owt = 1 ∧ u.swp.owtAt = Nat.max s.now t := by
  obtain ⟨free, apart, pair, low⟩ := swpCtl_plain
  have asked : bit (AQ_SWP_CTL_OWTNOW.put (BitVec.ofNat 32 v) 1).toNat 7 = true :=
    beq_iff_eq.mpr (Fld.get_put AQ_SWP_CTL_OWTNOW (BitVec.ofNat 32 v) 1 (by decide))
  obtain ⟨u, effect, written⟩ := State.writeReg_plain (src := src) h free apart pair low
  refine ⟨_, written, ?_⟩
  rw [effect, State.writeEffect_swpCtl, asked]
  dsimp only
  split
  · exact ⟨rfl, rfl⟩
  · exact ⟨rfl, rfl⟩

/-! ## The trigger (R104) -/

theorem State.winTrigger_first (hs : s.swp.trig = none) (hf : s.rdB AQ_WIN_STAT AQ_WIN_STAT_FROZEN = false) (kind : Nat) :
    s.winTrigger kind = { s with swp := { s.swp with trig := some (s.rd AQ_WIN_CTL AQ_WIN_CTL_POSTN, s.ns, kind) } } :=
  if_neg (by rw [hs, hf]; decide)

theorem State.winTrigger_further (h : s.swp.trig.isSome = true ∨ s.rdB AQ_WIN_STAT AQ_WIN_STAT_FROZEN = true) (kind : Nat) :
    s.winTrigger kind = (s.bump AQ_WIN_STAT AQ_WIN_STAT_RETRIG).raise srcWindow EV_WIN_RETRIGGER [kind] :=
  if_pos h

/-- A write of TRIG with HOLD is a trigger and no more. -/
theorem execTrig_admitted (h : (s.at t).Admits AQ_WIN_CTL (AQ_WIN_CTL_TRIG.put (BitVec.ofNat 32 v) 1).toNat r)
    (hh : AQ_WIN_CTL_HOLD.get (BitVec.ofNat 32 v) = 1) : ∃ new,
      AQ_WIN_CTL_POSTN.get new = AQ_WIN_CTL_POSTN.get (BitVec.ofNat 32 v) ∧
      execTrig s src v t = .next ((((s.at t).setReg AQ_WIN_CTL new).winTrigger 2).busAnswer 0 false) := by
  have asked : bit (AQ_WIN_CTL_TRIG.put (BitVec.ofNat 32 v) 1).toNat 0 = true :=
    beq_iff_eq.mpr (Fld.get_put AQ_WIN_CTL_TRIG (BitVec.ofNat 32 v) 1 (by decide))
  have stays (old : Word) : fell AQ_WIN_CTL_HOLD old (AQ_WIN_CTL_TRIG.put (BitVec.ofNat 32 v) 1) = false := by
    unfold fell
    rw [Fld.get_put_ne _ _ _ _ (by decide) (by decide) (by decide), hh]
    exact Bool.and_false _
  obtain ⟨new, postn, written⟩ := writeReg_winCtl (src := src) h
  refine ⟨new, ?_, ?_⟩
  · rw [postn, Fld.get_put_ne _ _ _ _ (by decide) (by decide) (by decide)]
  · unfold execTrig
    rw [written]
    unfold State.winWritten
    rw [asked, stays]
    rfl

/-! ## HOLD cleared (R104) -/

theorem bit_holdCleared (v : Nat) : bit (AQ_WIN_CTL_HOLD.put (BitVec.ofNat 32 v) 0).toNat 0 = bit v 0 := by
  have trig := Fld.get_put_ne AQ_WIN_CTL_HOLD AQ_WIN_CTL_TRIG (BitVec.ofNat 32 v) 0 (by decide) (by decide) (by decide)
  have word : AQ_WIN_CTL_TRIG.get (BitVec.ofNat 32 v) = v / 2 ^ 0 % 2 := by
    show (BitVec.ofNat 32 v).toNat / 2 ^ 0 % 2 = _
    rw [BitVec.toNat_ofNat]
    omega
  exact congrArg (· == 1) (trig.trans word)

theorem State.winHoldClear_archived (hf : s.rdB AQ_WIN_STAT AQ_WIN_STAT_FROZEN = true)
    (ha : s.rdB AQ_WIN_STAT AQ_WIN_STAT_ARCH = false) : s.winHoldClear = s.winRearm :=
  if_pos ⟨hf, by rw [ha]; decide⟩

theorem State.rdB_setReg_ne (s : State) {a b : Nat} (w : Word) (f : Fld) (h : a ≠ b) : (s.setReg b w).rdB a f = s.rdB a f := by
  unfold State.rdB State.rd
  rw [State.reg_setReg_ne _ _ h]

theorem execWindowHoldClear_rearms (h : (s.at t).Admits AQ_WIN_CTL (AQ_WIN_CTL_HOLD.put (BitVec.ofNat 32 v) 0).toNat r)
    (hv : bit v 0 = false) (hh : s.rdB AQ_WIN_CTL AQ_WIN_CTL_HOLD = true) (hf : s.rdB AQ_WIN_STAT AQ_WIN_STAT_FROZEN = true)
    (ha : s.rdB AQ_WIN_STAT AQ_WIN_STAT_ARCH = false) : ∃ new,
      execWindowHoldClear s src v t = .next (((s.at t).setReg AQ_WIN_CTL new).winRearm.busAnswer 0 false) := by
  have falls : fell AQ_WIN_CTL_HOLD (s.reg AQ_WIN_CTL) (AQ_WIN_CTL_HOLD.put (BitVec.ofNat 32 v) 0) = true := by
    unfold fell
    rw [Fld.get_put _ _ _ (by decide)]
    exact Bool.and_eq_true_iff.mpr ⟨hh, rfl⟩
  obtain ⟨new, -, written⟩ := writeReg_winCtl (src := src) h
  refine ⟨new, ?_⟩
  unfold execWindowHoldClear
  rw [written]
  unfold State.winWritten
  rw [bit_holdCleared, hv, falls]
  dsimp only
  rw [if_pos rfl, if_neg Bool.false_ne_true, State.winHoldClear_archived]
  · rw [State.rdB_setReg_ne _ _ _ (by decide), State.rdB_at, hf]
  · rw [State.rdB_setReg_ne _ _ _ (by decide), State.rdB_at, ha]

theorem State.winRearm_open (s : State) : s.winRearm.swp.trig = none ∧ s.winRearm.rdB AQ_WIN_STAT AQ_WIN_STAT_FROZEN = false :=
  ⟨rfl, State.rdB_wr_zero s AQ_WIN_STAT (by decide)⟩

end

/-! ## The freeze (R104, R431) -/

theorem State.kept_mramWrite (s : State) (b : Nat) (bs : List Nat) : Kept (· ∈ [.mem_, .fab_]) s (s.mramWrite b bs) :=
  @State.mramWrite_kept _ ⟨by simp⟩ ⟨by simp⟩ _ _ _ _ (Kept.refl s)

theorem State.reg_mramWrite_low (s : State) (b : Nat) (bs : List Nat) {a : Nat} (h : a < 0x46000000) :
    (s.mramWrite b bs).reg a = s.reg a :=
  (s.kept_mramWrite b bs).same .regs_ (by simp) a (by unfold LEDGER_EVT; omega) (by unfold LEDGER_CNT; omega)

/-- A window whose count has run out is frozen by its trigger, recorded (R104). -/
def State.windowFrozen (s : State) (ns kind : Nat) : State :=
  let z := (s.wr AQ_WIN_STAT AQ_WIN_STAT_FROZEN 1).raise srcWindow EV_WIN_FREEZE [s.rd AQ_SWP_STAT AQ_SWP_STAT_TAG, kind]
  { z with swp := { z.swp with frozenBy := some (ns, kind) } }

/-- The archive copy of a frozen window begins (R431). -/
def State.archiveBegun (s : State) (ns kind : Nat) : State :=
  let z := s.mramWrite s.archAddr (List.replicate 8 255)
  ({ z with led := { z.led with archBusy := some (ns, kind, none) } } : State).wr AQ_WIN_STAT AQ_WIN_STAT_ARCH 1

theorem execWindowFreeze_due {s : State} {t ns kind : Nat} (hs : s.swp.trig = some (0, ns, kind))
    (hf : s.rdB AQ_WIN_STAT AQ_WIN_STAT_FROZEN = false) : execWindowFreeze s t =
      if ((s.at t).windowFrozen ns kind).led.commit then .next ((s.at t).windowFrozen ns kind)
      else .next (((s.at t).windowFrozen ns kind).archiveBegun ns kind) := by
  unfold execWindowFreeze
  dsimp only
  rw [State.swp_at, hs]
  exact if_neg (by rw [State.rdB_at, hf]; decide)

/-- What the freeze leaves, whether or not a copy begins. -/
structure State.FrozenAs (s u : State) (ns kind : Nat) : Prop where
  frozen : u.rdB AQ_WIN_STAT AQ_WIN_STAT_FROZEN = true
  cause : u.swp.frozenBy = some (ns, kind)
  event : s.Raised u srcWindow EV_WIN_FREEZE [s.rd AQ_SWP_STAT AQ_SWP_STAT_TAG, kind]

theorem State.frozenAs_windowFrozen (s : State) (t ns kind : Nat) : s.FrozenAs ((s.at t).windowFrozen ns kind) ns kind where
  frozen := by
    show (((s.at t).wr AQ_WIN_STAT AQ_WIN_STAT_FROZEN 1).raise _ _ _).rdB AQ_WIN_STAT AQ_WIN_STAT_FROZEN = true
    rw [State.rdB_raise_low _ _ _ _ _ (by decide)]
    exact State.rdB_wr_b2n _ _ true (by decide) (by decide)
  cause := rfl
  event := State.raised_of_raise (s' := (s.at t).wr AQ_WIN_STAT AQ_WIN_STAT_FROZEN 1) rfl rfl (State.ns_raise ..)

/-- An event raised stands while time and the stacks do. -/
theorem State.Raised.of_stage {s u z : State} {src code : Nat} {ws : List Nat} (h : s.Raised u src code ws)
    (hz : z.stage = u.stage) : s.Raised z src code ws := by
  obtain ⟨now, pile⟩ := Prod.mk.inj hz
  obtain ⟨e, hcode, hsev, hsrc, htime, hwords, hpile⟩ := h
  refine ⟨e, hcode, hsev, hsrc, ?_, hwords, ?_⟩
  · rw [htime]
    unfold State.ns
    rw [now]
  · rw [pile, hpile]

/-- The copy leaves what the freeze left. -/
theorem State.FrozenAs.archiveBegun {s u : State} {ns kind : Nat} (h : s.FrozenAs u ns kind) :
    s.FrozenAs (u.archiveBegun ns kind) ns kind := by
  have stage : (u.archiveBegun ns kind).stage = u.stage := u.stage_mramWrite u.archAddr (List.replicate 8 255)
  have swp : (u.mramWrite u.archAddr (List.replicate 8 255)).swp = u.swp := (u.kept_mramWrite _ _).same .swp_ (by simp)
  refine ⟨?_, (congrArg Sweep.frozenBy swp).trans h.cause, h.event.of_stage stage⟩
  rw [← h.frozen]
  unfold State.archiveBegun State.rdB
  dsimp only
  rw [State.rd_wr_apart _ _ _ _ _ (by decide) (by decide) (by decide)]
  show ((u.mramWrite u.archAddr (List.replicate 8 255)).rd AQ_WIN_STAT AQ_WIN_STAT_FROZEN == 1) = _
  unfold State.rd
  rw [State.reg_mramWrite_low _ _ _ (by decide)]

end Sys2Proof.Machine

open Sys2Proof Sys2Proof.Machine

/-- Settles O39, time by time. A sweep's preparation leaves the sequencer's course and the port control words, so what is posted
is what the machine before it asks for. -/
theorem sweepsArePlacedOnTheGrid : Obligations.SweepsArePlacedOnTheGrid := by
  intro s src t n gives
  refine ⟨?grid, ?deadline, ?stream, ?mean, ?periodic, ?now, ?trig, ?freeze, ?hold⟩
  case grid =>
    intro en loaded g reach
    obtain ⟨pmode, z, d, full, ready, words, sent⟩ := execSweepGridPoint_sent rfl en loaded reach
    have course := (s.at t).course_sweepReady g.2 pmode
    rw [← ready, State.swp_at] at course
    obtain ⟨tag, count, period, owt⟩ : z.swp.tag = s.swp.tag ∧ z.swp.count = s.swp.count ∧ z.swp.period = g.2 ∧
        z.swp.owt = s.swp.owt := Sweep.course_eq.mp course
    have dtag := words.tag.trans tag
    refine ⟨_, sent, ?_⟩
    beta_reduce
    rw [State.swp_sweepSent]
    refine ⟨?_, ?_, rfl, period, ⟨full, rfl, words.same.trans dtag, ?_, ?_, ?_⟩, ?_, ?_, ?_⟩
    · exact congrArg (fun tag => if tag = 0xFFFE then 0 else tag + 1) dtag
    · exact congrArg (· + 1) count
    · rw [words.period, ready, State.pload_sweepReady]
      rfl
    · rw [words.seq, count]
    · rw [words.lines, State.swp_postedAll, owt]
    · intro one
      exact congrArg owtAfter (owt.trans one)
    · intro two
      exact congrArg owtAfter (owt.trans two)
    · intro k hk port engine
      rw [State.swTag_sweepSent _ _ _ _ (ready ▸ State.mem_sweepEngines (s := s.at t) g.2 pmode hk port engine), dtag]
  case deadline =>
    intro k tag
    by_cases previous : (s.eng k).prevTag = some tag.val
    · refine ⟨_, execSweepDeadlineMiss_previous previous, ?_, ?_, fun _ q h1 hn hg => ?_, fun other => absurd previous other⟩
      · rw [State.rdB_staleFrom, State.rdB_overrun]
      · refine s.raised_overrun _ k tag t (State.led_staleFrom ..) ?_
        rw [State.ns_staleFrom, State.ns_overrun]
      · have pos := State.pos_of_lnk ((s.at t).lnk_overrun k tag) (portOf k) q
        have nodes : q ≤ ((s.at t).overrun k tag).portNodes (portOf k) := by
          rw [State.portNodes_overrun _ _ _ (portOf_lt k.isLt)]
          exact hn
        rw [State.staleSince_staleFrom _ (State.mem_portPositions h1 nodes) h1 nodes (by rw [pos]; exact hg), pos]
        rfl
    · refine ⟨_, execSweepDeadlineMiss_other previous, ?_, ?_, fun same => absurd same previous, fun _ => ?_⟩
      · rw [State.rdB_overrun]
      · exact s.raised_overrun _ k tag t rfl (State.ns_overrun ..)
      · rw [State.lnk_overrun, State.lnk_at]
  case stream =>
    intro k slot hc h5 hs hr ht
    refine ⟨_, execStreamOnlyRead_due hc h5 hs hr ht, ?_⟩
    beta_reduce
    rw [State.eng_sendRead]
    exact ⟨rfl, _, rfl, rfl, rfl, rfl, rfl, rfl⟩
  case mean =>
    refine ⟨_, execMeanWindowEnd_eq s t, rfl, rfl, fun r hr en live sampled reach => ?_, fun off => ?_, fun on mode rest => ?_⟩
    · exact State.dwellStep_reached _ hr en live sampled reach
    · show Nat.max (s.modeCalled _ _) s.swp.mode = s.swp.mode
      rw [State.modeCalled, if_pos off]
      exact Nat.zero_max _
    · show Nat.max (s.modeCalled _ _) s.swp.mode = 2
      rw [State.modeCalled, if_neg on, if_pos rest]
      exact Nat.max_eq_left mode
  case periodic => exact fun he hp ho ht => ⟨_, execOwtPeriodic_due he hp ho ht, rfl, rfl⟩
  case now => exact fun v r admits => execOwtnow_admitted admits
  case trig =>
    intro v r admits hold
    obtain ⟨new, postn, written⟩ := execTrig_admitted (src := src) admits hold
    have stat : ((s.at t).setReg AQ_WIN_CTL new).rdB AQ_WIN_STAT AQ_WIN_STAT_FROZEN = s.rdB AQ_WIN_STAT AQ_WIN_STAT_FROZEN :=
      State.rdB_setReg_ne _ _ _ (by decide)
    constructor
    · intro first unfrozen
      refine ⟨_, written, ?_⟩
      rw [State.winTrigger_first (s := (s.at t).setReg AQ_WIN_CTL new) first (stat.trans unfrozen)]
      show some (((s.at t).setReg AQ_WIN_CTL new).rd AQ_WIN_CTL AQ_WIN_CTL_POSTN, _, 2) = _
      unfold State.rd
      rw [State.reg_setReg_same, postn]
      rfl
    · intro further
      refine ⟨_, written, ?_⟩
      rw [State.winTrigger_further (by rw [stat]; exact further)]
      exact ⟨State.swp_raise .., State.raised_of_raise
        (s' := ((s.at t).setReg AQ_WIN_CTL new).bump AQ_WIN_STAT AQ_WIN_STAT_RETRIG) rfl rfl (State.ns_raise ..)⟩
  case freeze =>
    intro ns kind count unfrozen
    have frozen := s.frozenAs_windowFrozen t ns kind
    have due := execWindowFreeze_due (t := t) count unfrozen
    split at due
    · exact ⟨_, due, frozen.frozen, frozen.cause, frozen.event⟩
    · have copied := frozen.archiveBegun
      exact ⟨_, due, copied.frozen, copied.cause, copied.event⟩
  case hold =>
    intro v r admits untriggered held frozen archived
    obtain ⟨new, rearms⟩ := execWindowHoldClear_rearms (src := src) admits untriggered held frozen archived
    exact ⟨_, rearms, State.winRearm_open _⟩
end

section
/-!
PROOF. The trip block: what an operation on a string leaves of that string and of the rest of the block, and what a turned-off HC
channel, an inhibit and a failed pre-charge leave behind (R127 to R133, R141 to R147).
-/

namespace Sys2Proof.Machine

/-! ## Operations that leave the trip block alone -/

@[simp] theorem State.trip_strSync (s : State) (r : Nat) : (s.strSync r).trip = s.trip := rfl
@[simp] theorem State.trip_alertSync (s : State) : s.alertSync.trip = s.trip := rfl

@[simp] theorem State.trip_enterIdle (s : State) (r : Nat) : (s.enterIdle r).trip = s.trip :=
  (@State.enterIdle_kept (· ≠ .trip_) ⟨by decide⟩ ⟨by decide⟩ ⟨by decide⟩ ⟨by decide⟩ _ _ _ (Kept.refl s)).same .trip_ (by decide)

@[simp] theorem State.trip_enterRamp (s : State) (r : Nat) (idles : Bool) : (s.enterRamp r idles).trip = s.trip :=
  (@State.enterRamp_kept (· ≠ .trip_) ⟨by decide⟩ ⟨by decide⟩ ⟨by decide⟩ _ _ _ _ (Kept.refl s)).same .trip_ (by decide)

@[simp] theorem State.trip_inhibitString (s : State) (r : Nat) (on : Bool) : (s.inhibitString r on).trip = s.trip :=
  (@State.inhibitString_kept (· ≠ .trip_) ⟨by decide⟩ ⟨by decide⟩ ⟨by decide⟩ _ _ _ _ (Kept.refl s)).same .trip_ (by decide)

@[simp] theorem State.trip_limitsOnChange (s : State) : s.limitsOnChange.trip = s.trip :=
  (@State.limitsOnChange_kept (· ≠ .trip_) ⟨by decide⟩ _ _ (Kept.refl s)).same .trip_ (by decide)

@[simp] theorem State.trip_lsSync (s : State) (c : Nat) : (s.lsSync c).trip = s.trip :=
  (@State.lsSync_kept (· ≠ .trip_) ⟨by decide⟩ ⟨by decide⟩ ⟨by decide⟩ _ _ _ (Kept.refl s)).same .trip_ (by decide)

@[simp] theorem State.trip_stopTimers (s : State) (which : Nat → Bool) : (s.stopTimers which).trip = s.trip :=
  (@State.stopTimers_kept (· ≠ .trip_) ⟨by decide⟩ ⟨by decide⟩ ⟨by decide⟩ _ _ _ (Kept.refl s)).same .trip_ (by decide)

@[simp] theorem State.trip_capMove (s : State) (r : Nat) : (s.capMove r).trip = s.trip :=
  (@State.capMove_kept (· ≠ .trip_) ⟨by decide⟩ ⟨by decide⟩ ⟨by decide⟩ ⟨by decide⟩ ⟨by decide⟩ _ _ _ (Kept.refl s)).same
    .trip_ (by decide)

@[simp] theorem State.trip_winTrigger (s : State) (kind : Nat) : (s.winTrigger kind).trip = s.trip :=
  (@State.winTrigger_kept (· ≠ .trip_) ⟨by decide⟩ ⟨by decide⟩ ⟨by decide⟩ ⟨by decide⟩ _ _ _ (Kept.refl s)).same .trip_ (by decide)

@[simp] theorem State.trip_excEnd (s : State) (reason : Nat) : (s.excEnd reason).trip = s.trip :=
  (@State.excEnd_kept (· ≠ .trip_) ⟨by decide⟩ ⟨by decide⟩ ⟨by decide⟩ ⟨by decide⟩ _ _ _ (Kept.refl s)).same .trip_ (by decide)

@[simp] theorem State.trip_lifeSection (s : State) : s.lifeSection.trip = s.trip :=
  (@State.lifeSection_kept (· ≠ .trip_) ⟨by decide⟩ _ _ (Kept.refl s)).same .trip_ (by decide)

@[simp] theorem State.trip_tripEvent (s : State) (act : Nat) (v : Verdict) : (s.tripEvent act v).trip = s.trip :=
  ite_keeps State.trip (s.trip_raise ..) (ite_keeps State.trip (s.trip_raise ..) (State.trip_raise ..))

/-! ## One bit of a field -/

theorem bit_eq_testBit (n i : Nat) : bit n i = n.testBit i := by
  rw [Nat.testBit_eq_decide_div_mod_eq]
  rfl

theorem Fld.width_bit (i : Nat) : (⟨i, i⟩ : Fld).width = 1 := Nat.add_sub_cancel_left i 1

/-- A bit of a field is a one-bit field of its register. -/
theorem State.bit_rd (s : State) (a : Nat) (f : Fld) {i : Nat} (h : i < f.width) :
    bit (s.rd a f) i = s.rdB a ⟨f.lo + i, f.lo + i⟩ := by
  unfold State.rdB State.rd Fld.get
  rw [Fld.width_bit, bit_eq_testBit, Nat.testBit_mod_two_pow, Nat.testBit_div_two_pow, decide_eq_true h, Bool.true_and,
    Nat.testBit_eq_decide_div_mod_eq, Nat.add_comm i]
  rfl

/-- A bit of a field, just written. -/
theorem State.bit_rd_wrBit (s : State) (a : Nat) {f : Fld} {i j : Nat} (b : Bool) (h : i < f.width) (hj : f.lo + i = j)
    (h32 : j < 32) : bit ((s.wrBit a j b).rd a f) i = b := by
  rw [State.bit_rd _ _ _ h, hj, State.rdB_wrBit_same _ _ _ h32]

/-! ## A string after an operation on it -/

theorem State.tstr_of_trip {s u : State} (h : u.trip = s.trip) (r : Nat) : u.tstr r = s.tstr r := by
  unfold State.tstr
  rw [h]

@[simp] theorem State.tstr_at (s : State) (t r : Nat) : (s.at t).tstr r = s.tstr r := rfl

@[simp] theorem State.tstr_updTstr_same (s : State) (r : Nat) (f : TripStr → TripStr) : (s.updTstr r f).tstr r = f (s.tstr r) :=
  Tab.get_set_same _ _ _ _

theorem State.tstr_updTstr_ne (s : State) {r q : Nat} (f : TripStr → TripStr) (h : q ≠ r) : (s.updTstr r f).tstr q = s.tstr q :=
  Tab.get_set_ne _ _ _ _ h

theorem State.tstr_setSt (s : State) (r : Nat) {st : StrState} (h : st ≠ .open_) :
    (s.setSt r st).tstr r = { s.tstr r with st := st } := by
  unfold State.setSt
  rw [State.tstr_of_trip (State.trip_strSync _ r), State.tstr_updTstr_same]
  exact if_neg fun c => h c.1

/-- Whatever state a string takes, its channel stands as it did. -/
theorem State.channel_setSt (s : State) (r : Nat) (st : StrState) : ((s.setSt r st).tstr r).st = st ∧
    ((s.setSt r st).tstr r).hc = (s.tstr r).hc ∧ ((s.setSt r st).tstr r).offAt = (s.tstr r).offAt := by
  unfold State.setSt
  rw [State.tstr_of_trip (State.trip_strSync _ r), State.tstr_updTstr_same]
  split <;> exact ⟨rfl, rfl, rfl⟩

/-- A string parked at an instant: t_open_max runs from there (R133). -/
theorem State.tstr_park (s : State) (r : Nat) : (s.park r).tstr r = { s.tstr r with openFrom := s.now, st := .parked } := by
  have idle : ((s.enterIdle r).inhibitString r true).tstr r = s.tstr r := State.tstr_of_trip (by simp) r
  unfold State.park
  rw [State.tstr_setSt _ _ (by decide), State.tstr_updTstr_same, idle]

/-! ## Contactor wear changes no string (R144) -/

/-- From one state to another the trip block has changed in its contactors' wear alone. -/
def State.Worn (s u : State) : Prop := { u.trip with wear := [] } = { s.trip with wear := [] }

theorem State.worn_wearOne (s : State) (n f k : Nat) : s.Worn (s.wearOne n f k) := by
  unfold State.Worn State.wearOne
  rw [State.trip_lifeSection]

theorem State.Worn.trans {s u z : State} (h : s.Worn u) (k : u.Worn z) : s.Worn z := Eq.trans k h

theorem State.worn_wearBoth (s : State) (r f k : Nat) : s.Worn (s.wearBoth r f k) :=
  (s.worn_wearOne _ f k).trans (State.worn_wearOne _ _ f k)

theorem State.worn_of_trip {s u : State} (h : u.trip = s.trip) : s.Worn u := by
  unfold State.Worn
  rw [h]

theorem State.Worn.ite {s u z : State} {c : Prop} [Decidable c] (hu : s.Worn u) (hz : s.Worn z) : s.Worn (if c then u else z) := by
  split <;> assumption

theorem State.Worn.inbox {s u : State} (h : s.Worn u) : u.trip.inbox = s.trip.inbox := (congrArg Trip.inbox h :)
theorem State.Worn.pch {s u : State} (h : s.Worn u) : u.trip.pch = s.trip.pch := (congrArg Trip.pch h :)
theorem State.Worn.str {s u : State} (h : s.Worn u) : u.trip.str = s.trip.str := (congrArg Trip.str h :)

theorem State.Worn.tstr {s u : State} (h : s.Worn u) (r : Nat) : u.tstr r = s.tstr r := by
  unfold State.tstr
  rw [h.str]

/-! ## The HC channel turned off (R133, R143) -/

/-- The HC channel of a string is off since an instant: the welded-contact check runs from there. -/
structure State.OffSince (r n : Nat) (s : State) : Prop where
  hc : (s.tstr r).hc = false
  offAt : (s.tstr r).offAt = some n

namespace State.OffSince

variable {r n : Nat} {s u : State}

theorem of_str (h : s.OffSince r n) (e : u.trip.str = s.trip.str) : u.OffSince r n := by
  have same : u.tstr r = s.tstr r := by unfold State.tstr; rw [e]
  exact ⟨same ▸ h.hc, same ▸ h.offAt⟩

theorem of_trip (h : s.OffSince r n) (e : u.trip = s.trip) : u.OffSince r n := h.of_str (congrArg Trip.str e)

theorem ite {c : Prop} [Decidable c] (hs : s.OffSince r n) (hu : u.OffSince r n) : (if c then s else u).OffSince r n := by
  split <;> assumption

theorem wearBoth {q f k : Nat} (h : s.OffSince r n) : (s.wearBoth q f k).OffSince r n := h.of_str (s.worn_wearBoth q f k).str

theorem wearMax {q k : Nat} (h : s.OffSince r n) : (s.wearMax q k).OffSince r n := h.of_str rfl

theorem raise {src code : Nat} {ws : List Nat} (h : s.OffSince r n) : (s.raise src code ws).OffSince r n :=
  h.of_trip (s.trip_raise ..)

theorem hit {a c : Nat} {f g : Fld} (h : s.OffSince r n) : (s.hit a f c g).OffSince r n := ⟨h.hc, h.offAt⟩

theorem setSt {st : StrState} (h : s.OffSince r n) : (s.setSt r st).OffSince r n := by
  obtain ⟨-, hc, offAt⟩ := s.channel_setSt r st
  exact ⟨hc.trans h.hc, offAt.trans h.offAt⟩

end State.OffSince

theorem State.offSince_hcOff (s : State) (r : Nat) (force : Bool) : (s.hcOff r force).OffSince r s.now := by
  have dropped {f : TripStr → TripStr} (hc : (f (s.tstr r)).hc = false) (offAt : (f (s.tstr r)).offAt = some s.now) :
      ((s.updTstr r f).lsSync r).OffSince r s.now :=
    State.OffSince.of_trip (s := s.updTstr r f)
      ⟨by rw [State.tstr_updTstr_same, hc], by rw [State.tstr_updTstr_same, offAt]⟩ (State.trip_lsSync ..)
  have timers {b : Bool} {g : Nat → Bool} {u : State} (h : u.OffSince r s.now) :
      (if b then u.stopTimers g else u).OffSince r s.now := .ite (h.of_trip (u.trip_stopTimers g)) h
  have forced {b : Bool} {u : State} (h : u.OffSince r s.now) : (if b then u.wearBoth r 3 1 else u).OffSince r s.now :=
    .ite h.wearBoth h
  unfold State.hcOff
  extract_lets
  refine State.OffSince.of_trip (.setSt (.ite ?_ ?_)) (State.trip_capMove ..)
  · refine (timers (dropped ?_ ?_)).wearBoth.raise <;> rfl
  · refine (forced (timers (dropped ?_ ?_)).wearBoth.wearBoth.wearMax.wearMax).hit.raise <;> rfl

end Sys2Proof.Machine
end

section
/-!
PROOF. The trip block at its times: holds and ramps that end, openings, limits, closes, pull-ins and the welded-contact check (R131
to R143).
-/

namespace Sys2Proof.Machine

section
variable {s : State} {r : Fin 12} {t t0 : Nat}

/-! ## Holds, ramps and openings (R131 to R133) -/

theorem execDerateHoldExpire_due {due : Nat} (h : (s.tstr r).derateDue = some due) (hd : due ≤ Nat.max s.now t)
    (hs : (s.tstr r).st = .derated) : execDerateHoldExpire s r t =
      .next (((s.at t).updTstr r (fun x => { x with derate := false, derateDue := none })).setSt r .normal).limitsOnChange := by
  unfold execDerateHoldExpire
  dsimp only
  rw [State.tstr_at, h]
  dsimp only
  rw [if_pos (by exact hd), if_pos (by rw [State.tstr_updTstr_same]; exact hs)]

theorem execRampPark_stays (h : (s.tstr r).st = .ramping) (hz : s.zeroMet r = true) (ho : (s.tstr r).opens = false) :
    execRampPark s r t = .next ((s.at t).park r) := by
  have stays : ¬ (((s.at t).park r).tstr r).opens = true := by rw [State.tstr_park]; exact Bool.eq_false_iff.mp ho
  unfold execRampPark
  dsimp only
  rw [if_pos ⟨h, hz⟩, if_neg fun c => stays c.1]

theorem execRampTimeout_due (h : (s.tstr r).st = .ramping) (he : (s.tstr r).episode = some t0)
    (ht : t0 + (s.tstr r).rampMax ≤ Nat.max s.now t) : execRampTimeout s r t = .next ((s.at t).park r) := by
  unfold execRampTimeout
  dsimp only
  rw [State.tstr_at, he]
  exact if_pos ⟨h, ht⟩

theorem execZeroCurrentOpen_met (h : (s.tstr r).st = .opening ∨ (s.tstr r).st = .parked) (ho : (s.tstr r).opens = true)
    (hc : (s.tstr r).hc = true) (hz : s.zeroMet r = true) : execZeroCurrentOpen s r t = .next ((s.at t).hcOff r false) :=
  if_pos ⟨h, ho, hc, hz⟩

theorem execOpenTimeout_due (h : (s.tstr r).st = .opening ∨ (s.tstr r).st = .parked) (ho : (s.tstr r).opens = true)
    (hc : (s.tstr r).hc = true)
    (ht : (s.tstr r).openFrom + s.rd PW_TRIP_CFG PW_TRIP_CFG_TOPENMAX * ms ≤ Nat.max s.now t) :
    execOpenTimeout s r t = .next ((s.at t).hcOff r false) :=
  if_pos ⟨h, ho, hc, ht⟩

/-! ## The dynamic limits (R135, R136) -/

theorem execDlimExceed_shunt (h : s.shuntSound r = true) (ho : (s.tstr r).overS = some t0)
    (ht : t0 + s.rd PW_TRIP_LIM PW_TRIP_LIM_DLPERS * 1000000 ≤ (s.tstr r).zeroSLast) :
    execDlimExceed s r t = .next ((s.at t).stringSource 16 r (some r.val) true) := by
  unfold execDlimExceed
  dsimp only
  rw [State.tstr_at, ho]
  exact if_pos (by
    rw [Bool.or_eq_true, Bool.and_eq_true]
    exact .inl ⟨h, decide_eq_true ht⟩)

/-- The dynamic limits of a string gone stale, with their flag and event (R136). -/
def State.dlimAged (s : State) (r : Nat) : State :=
  ((s.updTstr r (fun x => { x with dlimStale := true })).hit PW_TRIP_EVT PW_TRIP_EVT_DLSTALE PW_TRIP_CNT PW_TRIP_CNT_DLSTALEN).raise
    srcTrip EV_DLIM_STALE [r]

theorem execDlimStale_due (h : (s.tstr r).dlimStale = false)
    (ht : (s.tstr r).dlimStamp + s.rd PW_TRIP_TIM PW_TRIP_TIM_DLSTALE * ms ≤ Nat.max s.now t) :
    execDlimStale s r t = .next (((s.at t).dlimAged r).stringSource 17 r (some r.val) true).limitsOnChange :=
  if_pos ⟨Bool.eq_false_iff.mp h, ht⟩

theorem State.trip_dlimAged (s : State) (r : Nat) :
    (s.dlimAged r).trip = (s.updTstr r (fun x => { x with dlimStale := true })).trip :=
  State.trip_raise ..

theorem State.led_limitsOnChange (s : State) : s.limitsOnChange.led = s.led :=
  (@State.limitsOnChange_kept (· ≠ .led_) ⟨by decide⟩ _ _ (Kept.refl s)).same .led_ (by decide)

/-! ## Closing and pull-in (R140, R141) -/

theorem State.tstr_pullIn (s : State) (r : Nat) : (s.pullIn r).tstr r = { s.tstr r with
    hc := true, econ := false, pullAt := some s.now, closeWait := none, offAt := none, opens := false, st := .closing } := by
  unfold State.pullIn
  rw [State.tstr_setSt _ _ (by decide), State.tstr_of_trip (State.trip_lsSync _ r), State.tstr_updTstr_same]

/-- Ending the wait of a close changes neither why it would be refused nor what the LC partner does. -/
theorem State.closeReq_waited {s : State} {r : Nat} {x : Option Nat} (hb : s.partnerBusy r = false) (hr : s.closeReason r = 0) :
    (s.updTstr r (fun y => { y with closeWait := x })).closeReq r = (s.updTstr r (fun y => { y with closeWait := x })).pullIn r := by
  have same := s.tstr_updTstr_same r (fun y => { y with closeWait := x })
  have why : (s.updTstr r (fun y => { y with closeWait := x })).closeReason r = s.closeReason r := by
    unfold State.closeReason State.topAct State.senseValid State.dvOk
    rw [same]
    rfl
  have partner : (s.updTstr r (fun y => { y with closeWait := x })).partnerBusy r = s.partnerBusy r := by
    unfold State.partnerBusy
    rw [State.tstr_updTstr_ne _ _ (by split <;> omega)]
    rfl
  unfold State.closeReq
  dsimp only
  rw [if_neg (by rw [why, hr]; decide), if_neg (by rw [partner, hb]; decide)]

theorem execCloseWaitEnd_free (h : (s.tstr r).closeWait = some t0) (hb : (s.at t).partnerBusy r = false)
    (hr : s.closeReason r = 0) :
    execCloseWaitEnd s r t = .next (((s.at t).updTstr r (fun x => { x with closeWait := none })).pullIn r) := by
  unfold execCloseWaitEnd
  dsimp only
  rw [if_pos ⟨by rw [State.tstr_at, h]; rfl, by rw [hb]; decide⟩, State.closeReq_waited hb (by exact hr),
    if_pos (by rw [State.tstr_pullIn])]

/-- HC off after a pull-in that failed, the failure counted (R141, R144). -/
def State.pullFailed (s : State) (r : Nat) : State :=
  ((((s.updTstr r (fun x => { x with hc := false, econ := false })).lsSync r).wearBoth r 7 1).setSt r .open_)

theorem State.pchClosed_idle {s : State} (h : s.trip.pch.step = 0) (r : Nat) (ok : Bool) : s.pchClosed r ok = s := by
  unfold State.pchClosed
  dsimp only
  rw [h, if_neg fun c => absurd c.1 (by decide), if_neg fun c => absurd c.1 (by decide)]

theorem State.worn_pullFailed (s : State) (r : Nat) :
    (s.updTstr r (fun x => { x with hc := false, econ := false })).Worn
      (((s.updTstr r (fun x => { x with hc := false, econ := false })).lsSync r).wearBoth r 7 1) :=
  (State.worn_of_trip (State.trip_lsSync _ r)).trans (State.worn_wearBoth _ r 7 1)

/-- After a failed pull-in the string is open with its channel off, and nothing more waits for the trip block. -/
theorem State.pullFailed_open (s : State) (r : Nat) : ((s.pullFailed r).tstr r).st = .open_ ∧
    ((s.pullFailed r).tstr r).hc = false ∧ (s.pullFailed r).trip.inbox = s.trip.inbox := by
  have worn := s.worn_pullFailed r
  obtain ⟨st, hc, -⟩ := State.channel_setSt
    (((s.updTstr r (fun x => { x with hc := false, econ := false })).lsSync r).wearBoth r 7 1) r .open_
  rw [worn.tstr, State.tstr_updTstr_same] at hc
  exact ⟨st, hc, worn.inbox⟩

theorem execPullInTimeout_due (h : (s.tstr r).pullAt = some t0) (hs : (s.tstr r).st = .closing) (hc : (s.tstr r).hc = true)
    (ht : t0 + s.rd PW_CON_CFG PW_CON_CFG_TPULL * ms ≤ Nat.max s.now t) (ho : s.bothClosed r = false)
    (hp : s.trip.pch.step = 0) :
    execPullInTimeout s r t = .next (((s.at t).pullFailed r).pulseString 20 (2048 + r) r) := by
  have idle : (((s.at t).pullFailed r).pulseString 20 (2048 + r) r).trip.pch.step = 0 := by
    rw [← hp]
    exact congrArg Precharge.step ((s.at t).worn_pullFailed r).pch
  unfold execPullInTimeout
  dsimp only
  rw [State.tstr_at, h]
  dsimp only
  rw [if_pos ⟨hs, hc, ht, Bool.eq_false_iff.mp ho⟩]
  exact congrArg Host.Outcome.next (State.pchClosed_idle idle r false)

theorem execEconomiserStart_due (h : (s.tstr r).pullAt = some t0) (hc : (s.tstr r).hc = true) (he : (s.tstr r).econ = false)
    (ht : t0 + 200 * ms ≤ Nat.max s.now t) :
    execEconomiserStart s r t = .next (((s.at t).updTstr r (fun x => { x with econ := true })).lsSync r) := by
  unfold execEconomiserStart
  dsimp only
  rw [State.tstr_at, h]
  exact if_pos ⟨hc, Bool.eq_false_iff.mp he, ht⟩

/-! ## Welded contacts (R143) -/

/-- A string whose contacts are found welded, before source 20 is sent: its check over, the failures counted, WLOCK set and
EV_CON_WELD raised. -/
def State.weldFound (s : State) (r : Nat) (badP badN : Bool) : State :=
  let s1 := s.updTstr r (fun x => { x with offAt := none })
  let s2 := if badP then s1.wearOne (2 * r) 8 1 else s1
  let s3 := if badN then s2.wearOne (2 * r + 1) 8 1 else s2
  (s3.wrBit PW_CON_STAT (12 + r) true).raise srcTrip EV_CON_WELD [r, wrapInt (s.tstr r).vPos 32, wrapInt (s.tstr r).vNeg 32]

theorem execWeldCheckTimeout_positive (h : (s.tstr r).offAt = some t0) (hn : (s.tstr r).noWeldCheck = false)
    (hv : 200000 ≤ (s.tstr r).vStr) (ht : t0 + 100 * ms ≤ Nat.max s.now t) (hw : bit (s.tstr r).weldOk 0 = false) :
    ∃ badN, execWeldCheckTimeout s r t = .next (((s.at t).weldFound r true badN).pulseString 20 (2048 + r) r) := by
  have check : ¬ ((s.tstr r).noWeldCheck = true ∨ (s.tstr r).vStr < 200000) := by
    rw [hn]
    rintro (c | c)
    · exact absurd c (by decide)
    · omega
  have late : decide (t0 + 100 * ms ≤ (s.at t).now) = true := decide_eq_true ht
  unfold execWeldCheckTimeout
  dsimp only
  rw [State.tstr_at, h]
  dsimp only
  rw [if_neg check, late, hw]
  exact ⟨_, if_pos (.inl rfl)⟩

theorem State.worn_weldFound (s : State) (r : Nat) (badP badN : Bool) :
    (s.updTstr r (fun x => { x with offAt := none })).Worn (s.weldFound r badP badN) := by
  have one {b : Bool} {n : Nat} (u : State) : u.Worn (if b then u.wearOne n 8 1 else u) := .ite (u.worn_wearOne n 8 1) rfl
  exact ((one _).trans (one _)).trans (State.worn_of_trip (State.trip_raise ..))

theorem State.wlock_weldFound (s : State) {r : Nat} (hr : r < 12) (badP badN : Bool) :
    bit ((s.weldFound r badP badN).rd PW_CON_STAT PW_CON_STAT_WLOCK) r = true := by
  unfold State.weldFound
  dsimp only
  rw [State.rd_raise_low _ _ _ _ _ (by decide)]
  exact State.bit_rd_wrBit _ _ _ hr rfl (by omega)

/-! ## Contactor feedback (R122) -/

theorem State.rd_cfbStat_setSt (s : State) (r : Nat) (st : StrState) (f : Fld) :
    (s.setSt r st).rd PW_CFB_STAT f = s.rd PW_CFB_STAT f := by
  have other : PW_CFB_STAT ≠ PW_TRIP_STR r := by unfold PW_CFB_STAT PW_TRIP_STR; omega
  unfold State.setSt State.strSync
  dsimp only
  rw [State.rd_wr_ne _ _ _ _ other, State.rd_wr_ne _ _ _ _ other, State.rd_wr_ne _ _ _ _ other, State.rd_wr_ne _ _ _ _ other]
  rfl

/-- With HC off a change of feedback is noted, and an opening string whose contacts are both open is open. -/
theorem State.cfbChanged_off {s : State} {r : Nat} (h : (s.tstr r).hc = false) :
    s.cfbChanged r = s.wrBit PW_CON_STAT r (s.bothClosed r) ∨
      s.cfbChanged r = (s.wrBit PW_CON_STAT r (s.bothClosed r)).setSt r .open_ := by
  have off : ¬ ((s.wrBit PW_CON_STAT r (s.bothClosed r)).tstr r).hc = true := Bool.eq_false_iff.mp h
  unfold State.cfbChanged
  dsimp only
  rw [if_neg fun c => off c.2.1, if_neg fun c => off c.1]
  exact (ite_eq_or_eq _ _ _).symm

theorem State.cfbChanged_off_keeps {s : State} {r : Nat} (h : (s.tstr r).hc = false) :
    (s.cfbChanged r).rd PW_CFB_STAT PW_CFB_STAT_CLOSED = s.rd PW_CFB_STAT PW_CFB_STAT_CLOSED ∧
      (s.cfbChanged r).trip.cfbIndet = s.trip.cfbIndet := by
  have noted (f : Fld) : (s.wrBit PW_CON_STAT r (s.bothClosed r)).rd PW_CFB_STAT f = s.rd PW_CFB_STAT f :=
    s.rd_wr_ne _ _ _ (by decide)
  rcases State.cfbChanged_off h with e | e
  · rw [e]
    exact ⟨noted _, rfl⟩
  · rw [e, State.rd_cfbStat_setSt]
    exact ⟨noted _, rfl⟩

/-- A level that held for FILT clears the indeterminate state, and the input reads it (R122). -/
def State.cfbTaken (s : State) (k : Nat) (closed : Bool) : State :=
  ({ s with trip := { s.trip with cfbIndet := Tab.set false s.trip.cfbIndet k false } } : State).wrBit PW_CFB_STAT k closed

theorem execCfbSample_taken {k : Fin 24} {l : Fin 3} (hl : l ≠ 1) (hr : Tab.get 0 s.trip.cfbRaw k.val = l.val)
    (ht : Tab.get 0 s.trip.cfbSince k.val + s.rd PW_CFB_CFG PW_CFB_CFG_FILT * 100 * us ≤ Nat.max s.now t)
    (hc : s.cfbClosed k ≠ (decide (l = 2) == bit (s.rd PW_CFB_CFG PW_CFB_CFG_POL) k)) :
    execCfbSample s k l t = .next (((s.at t).cfbTaken k (decide (l = 2) == bit (s.rd PW_CFB_CFG PW_CFB_CFG_POL) k)).cfbChanged
      (k.val / 2)) := by
  unfold execCfbSample
  dsimp only
  rw [if_pos (show Tab.get 0 (s.at t).trip.cfbRaw k.val = l.val from hr), if_neg (by exact Nat.not_lt.mpr ht), if_neg hl]
  exact if_neg hc

end

end Sys2Proof.Machine
end

section
/-!
PROOF. A verdict that inhibits its string, and a pre-charge that fails (R127 to R133, R147).
-/

namespace Sys2Proof.Machine

/-! ## Operations that change strings alone -/

/-- From one state to another the trip block may have changed in its strings, not in what waits, what is active or pre-charge. -/
structure StringsOnly (s0 s : State) : Prop where
  inbox : s.trip.inbox = s0.trip.inbox
  active : s.trip.active = s0.trip.active
  pch : s.trip.pch = s0.trip.pch

namespace StringsOnly

variable {s0 s u : State} {r : Nat}

theorem refl (s : State) : StringsOnly s s := ⟨rfl, rfl, rfl⟩

theorem of_trip (h : StringsOnly s0 s) (e : u.trip = s.trip) : StringsOnly s0 u :=
  ⟨e ▸ h.inbox, e ▸ h.active, e ▸ h.pch⟩

theorem ite {c : Prop} [Decidable c] (hs : StringsOnly s0 s) (hu : StringsOnly s0 u) : StringsOnly s0 (if c then s else u) := by
  split <;> assumption

theorem foldl {α : Type} {f : State → α → State} {l : List α} (h : StringsOnly s0 s)
    (hf : ∀ s x, StringsOnly s0 s → StringsOnly s0 (f s x)) : StringsOnly s0 (l.foldl f s) := by
  induction l generalizing s with
  | nil => exact h
  | cons x l ih => exact ih (hf s x h)

theorem updTstr {f : TripStr → TripStr} (h : StringsOnly s0 s) : StringsOnly s0 (s.updTstr r f) := ⟨h.inbox, h.active, h.pch⟩

theorem strSync (h : StringsOnly s0 s) : StringsOnly s0 (s.strSync r) := h.of_trip rfl

theorem setSt {st : StrState} (h : StringsOnly s0 s) : StringsOnly s0 (s.setSt r st) := h.updTstr.strSync

theorem enterIdle (h : StringsOnly s0 s) : StringsOnly s0 (s.enterIdle r) := h.of_trip (s.trip_enterIdle r)

theorem enterRamp {idles : Bool} (h : StringsOnly s0 s) : StringsOnly s0 (s.enterRamp r idles) :=
  h.of_trip (s.trip_enterRamp r idles)

theorem inhibitString {on : Bool} (h : StringsOnly s0 s) : StringsOnly s0 (s.inhibitString r on) :=
  h.of_trip (s.trip_inhibitString r on)

theorem inhibitAct (h : StringsOnly s0 s) : StringsOnly s0 (s.inhibitAct r) := h.updTstr.enterIdle.inhibitString

theorem beginRamp {opens : Bool} {limit : Nat} (h : StringsOnly s0 s) : StringsOnly s0 (s.beginRamp r opens limit) := by
  unfold State.beginRamp
  dsimp only
  split
  · exact (ite h.updTstr.updTstr.enterRamp h.updTstr.updTstr).setSt
  · exact (ite h.updTstr.updTstr.enterRamp h.updTstr.updTstr).setSt
  · exact h.updTstr.updTstr
  · exact ite h.updTstr.enterIdle.updTstr.inhibitString.setSt h.updTstr.enterIdle.strSync
  · exact ite h.updTstr.enterIdle.updTstr.inhibitString.setSt h.updTstr.enterIdle.strSync
  · exact (ite h.updTstr.updTstr h.updTstr).strSync
  · exact h.updTstr.strSync

theorem evalDerate (h : StringsOnly s0 s) : StringsOnly s0 (s.evalDerate r) :=
  have due := ite h.updTstr (ite h.updTstr h)
  (ite due.setSt due).updTstr

end StringsOnly

/-! ## An inhibit (R129, R130, R133) -/

theorem State.tstr_inhibitAct (s : State) (r : Nat) :
    (s.inhibitAct r).tstr r = { s.tstr r with episode := some ((s.tstr r).episode.getD s.now) } := by
  unfold State.inhibitAct
  dsimp only
  rw [State.tstr_of_trip (State.trip_inhibitString ..), State.tstr_of_trip (State.trip_enterIdle ..), State.tstr_updTstr_same]

theorem State.pchTrip_idle {s : State} (h : s.trip.pch.step = 0) (r : Nat) : s.pchTrip r = s := if_pos h

/-- INHIBIT starts on a string in NORMAL while no pre-charge runs: it is inhibited, and the action latches with its source. -/
theorem State.startAct_inhibit {s : State} {r cause : Nat} (hp : s.trip.pch.step = 0) (hs : (s.tstr r).st = .normal) :
    StringsOnly s (s.startAct r 4 cause true) ∧ ((s.startAct r 4 cause true).tstr r).st = .inhibited ∧
      ((s.startAct r 4 cause true).tstr r).act = 4 ∧ ((s.startAct r 4 cause true).tstr r).latch = some (4, cause) := by
  have before (f : TripStr → TripStr) :
      (((s.updTstr r f).wr (PW_TRIP_STR r) PW_TRIP_STR_CAUSE cause).excEnd 2).trip = (s.updTstr r f).trip := State.trip_excEnd ..
  have began (f : TripStr → TripStr) :
      ((((s.updTstr r f).wr (PW_TRIP_STR r) PW_TRIP_STR_CAUSE cause).excEnd 2).pchTrip r).trip = (s.updTstr r f).trip := by
    rw [State.pchTrip_idle (by rw [before]; exact hp), before]
  unfold State.startAct
  dsimp only
  generalize hu : State.pchTrip _ r = u
  have trip : u.trip = _ := hu ▸ began _
  have str : u.tstr r = _ := (State.tstr_of_trip trip r).trans (s.tstr_updTstr_same r _)
  have normal : (u.tstr r).st = .normal := by rw [str]; exact hs
  have only : StringsOnly s u := (StringsOnly.refl s).updTstr.of_trip trip
  rw [if_neg (by decide), if_neg (by decide), if_pos rfl, normal]
  dsimp only
  have inhibited : ((u.inhibitAct r).setSt r .inhibited).alertSync.tstr r = _ :=
    (State.tstr_of_trip (State.trip_alertSync _) r).trans (State.tstr_setSt _ r (by decide))
  rw [inhibited, State.tstr_inhibitAct, str]
  exact ⟨only.inhibitAct.setSt.of_trip (State.trip_alertSync _), rfl, rfl, rfl⟩

/-- Where no DERATE reaches a string, judging it leaves its state and latch and no action that it did not have. -/
theorem State.tstr_evalDerate_off {s : State} {r : Nat}
    (h : s.trip.active.any (fun a => bit a.strings r && a.act == 1) = false) :
    ((s.evalDerate r).tstr r).st = (s.tstr r).st ∧ ((s.evalDerate r).tstr r).latch = (s.tstr r).latch ∧
      ((s.evalDerate r).tstr r).act ≤ (s.tstr r).act := by
  unfold State.evalDerate
  dsimp only
  simp only [h, Bool.false_eq_true, false_and, ↓reduceIte, State.tstr_updTstr_same]
  generalize hu : (if (s.tstr r).derate = true ∧ (s.tstr r).derateDue = none then _ else s) = u
  have same : (u.tstr r).st = (s.tstr r).st ∧ (u.tstr r).latch = (s.tstr r).latch ∧ (u.tstr r).act = (s.tstr r).act := by
    rw [← hu]
    split
    · rw [State.tstr_updTstr_same]
      exact ⟨rfl, rfl, rfl⟩
    · exact ⟨rfl, rfl, rfl⟩
  obtain ⟨hst, hlatch, hact⟩ := same
  split
  · exact ⟨hst, hlatch, Nat.zero_le _⟩
  · exact ⟨hst, hlatch, hact.le⟩

/-- One active source reaches an unlatched string: its action is the string's most severe (R129). -/
theorem State.topAct_one {s : State} {r : Nat} {a : ActiveSrc} (ha : s.trip.active = [a]) (hb : bit a.strings r = true)
    (h4 : a.act = 4) (hl : (s.tstr r).latch = none) : s.topAct r = (4, a.src) := by
  unfold State.topAct
  simp [ha, hb, h4, hl]

theorem bit_two_pow (r : Nat) : bit (0 + 2 ^ r) r = true := by
  unfold bit
  rw [Nat.zero_add, Nat.div_self (by positivity)]
  rfl

/-- A verdict as an active source, by the row of its source (R127). -/
def State.activeOf (s : State) (v : Verdict) : ActiveSrc :=
  { src := v.src, key := v.key, act := s.srcAct v, strings := s.scopeMask (s.srcScope v) v.native, cause := v.cause }

/-- A verdict whose row inhibits its own string. -/
structure State.Inhibits (s : State) (r : Nat) (v : Verdict) : Prop where
  on : v.on = true
  src : v.src < 25
  native : v.native = some r
  en : s.rdB (PW_TRIP_SRC v.src) PW_TRIP_SRC_EN = true
  act : s.rd (PW_TRIP_SRC v.src) PW_TRIP_SRC_ACT = 4
  scope : s.rd (PW_TRIP_SRC v.src) PW_TRIP_SRC_SCOPE = 0

theorem State.Inhibits.act_activeOf {s : State} {r : Nat} {v : Verdict} (h : s.Inhibits r v) : (s.activeOf v).act = 4 := by
  show s.srcAct v = 4
  unfold State.srcAct State.verdictAct
  dsimp only
  rw [h.act]
  rfl

theorem State.Inhibits.reaches {s : State} {r : Nat} {v : Verdict} (h : s.Inhibits r v) (he : s.sregEn r = true) :
    bit (s.activeOf v).strings r = true := by
  have scope : s.srcScope v = 0 := by
    unfold State.srcScope
    rw [h.act, if_neg (by decide), h.scope]
  show bit (s.scopeMask (s.srcScope v) v.native) r = true
  unfold State.scopeMask
  rw [scope, h.native]
  dsimp only
  rw [if_pos rfl, List.filter_cons_of_pos he]
  exact bit_two_pow r

/-- Such a verdict, where none is active, becomes the one active source; its event is recorded, and the strings stand. -/
theorem State.Inhibits.taken {s : State} {r : Nat} {v : Verdict} (h : s.Inhibits r v) (ha : s.trip.active = []) :
    s.takeVerdict v = (s.setActive v).tripEvent 4 v ∧
      (s.takeVerdict v).trip = { s.trip with active := [s.activeOf v] } := by
  have src := h.src
  have act : s.srcAct v = 4 := h.act_activeOf
  have taken : s.takeVerdict v = (s.setActive v).tripEvent 4 v := by
    unfold State.takeVerdict
    dsimp only
    rw [if_neg (by omega), if_neg (by omega), if_pos h.on, if_pos (.inl h.en), ha, act]
    rfl
  refine ⟨taken, ?_⟩
  rw [taken, State.trip_tripEvent]
  unfold State.setActive
  dsimp only
  rw [ha, h.on]
  rfl

/-- The strings that are configured follow their configuration registers. -/
theorem State.strings_of_reg {s u : State} (h : ∀ r, r < 12 → u.reg (PW_SREG_CFG r) = s.reg (PW_SREG_CFG r)) :
    u.strings = s.strings :=
  List.filter_congr fun r hr => by
    unfold State.sregEn State.rdB State.rd
    rw [h r (List.mem_range.mp hr)]

theorem State.reg_tripEvent {s : State} {v : Verdict} {a : Nat} (h : a < 0x45300000) : (s.tripEvent 4 v).reg a = s.reg a := by
  have evt : a ≠ PW_TRIP_EVT := by unfold PW_TRIP_EVT; omega
  have cnt : a ≠ PW_TRIP_CNT := by unfold PW_TRIP_CNT; omega
  unfold State.tripEvent
  rw [if_neg (by decide), if_neg (by decide),
    State.reg_raise _ _ _ _ (by unfold LEDGER_EVT; omega) (by unfold LEDGER_CNT; omega), State.reg_hit_ne _ _ _ evt cnt]

theorem State.Inhibits.strings_taken {s : State} {r : Nat} {v : Verdict} (h : s.Inhibits r v) (ha : s.trip.active = []) :
    (s.takeVerdict v).strings = s.strings :=
  State.strings_of_reg fun q hq => by
    have low : PW_SREG_CFG q < 0x45300000 := by unfold PW_SREG_CFG; omega
    rw [(h.taken ha).1, State.reg_tripEvent low]
    exact State.reg_wr_ne _ _ _ (by unfold PW_TRIP_SRC; omega)

/-- The last steps of taking verdicts leave the trip block (R104, R295, R296). -/
theorem State.trip_takeVerdicts (s : State) (vs : List Verdict) : (s.takeVerdicts vs).trip =
    ((vs.foldl (fun s v => s.takeVerdict v) s).strings.foldl (fun s r => (s.evalDerate r).evalString r)
      (vs.foldl (fun s v => s.takeVerdict v) s)).trip := by
  unfold State.takeVerdicts
  dsimp only
  rw [State.trip_alertSync, State.trip_limitsOnChange]
  exact ite_keeps State.trip (State.trip_winTrigger ..) rfl

/-- A verdict that inhibits the one configured string, in NORMAL and unlatched, while nothing is active and no pre-charge runs. -/
theorem State.Inhibits.takeVerdicts {s : State} {r : Nat} {v : Verdict} (h : s.Inhibits r v) (hs : s.strings = [r])
    (ha : s.trip.active = []) (hp : s.trip.pch.step = 0) (h4 : (s.tstr r).act < 4) (hl : (s.tstr r).latch = none)
    (hn : (s.tstr r).st = .normal) :
    (s.takeVerdicts [v]).trip.inbox = s.trip.inbox ∧ (s.takeVerdicts [v]).trip.active = [s.activeOf v] ∧
      ((s.takeVerdicts [v]).tstr r).st = .inhibited ∧ ((s.takeVerdicts [v]).tstr r).act = 4 ∧
      ((s.takeVerdicts [v]).tstr r).latch = some (4, v.src) := by
  obtain ⟨-, trip⟩ := h.taken ha
  have same : (s.takeVerdict v).tstr r = s.tstr r := by unfold State.tstr; rw [trip]
  have en : s.sregEn r = true := (List.mem_filter.mp (hs ▸ List.mem_singleton_self r : r ∈ s.strings)).2
  have reach := h.reaches en
  have four := h.act_activeOf
  have active : (s.takeVerdict v).trip.active = [s.activeOf v] := by rw [trip]
  have off : (s.takeVerdict v).trip.active.any (fun a => bit a.strings r && a.act == 1) = false := by
    rw [active, List.any_cons, List.any_nil, four, reach]
    rfl
  obtain ⟨hst, hlatch, hact⟩ := State.tstr_evalDerate_off off
  have judged : StringsOnly (s.takeVerdict v) ((s.takeVerdict v).evalDerate r) := (StringsOnly.refl _).evalDerate
  rw [same] at hst hlatch hact
  have top := State.topAct_one (judged.active.trans active) reach four (hlatch.trans hl)
  have starts : ((s.takeVerdict v).evalDerate r).evalString r = ((s.takeVerdict v).evalDerate r).startAct r 4 v.src true := by
    unfold State.evalString
    dsimp only
    rw [top]
    exact if_pos ⟨(by decide : 2 ≤ 4), Nat.lt_of_le_of_lt hact h4⟩
  obtain ⟨only, st, act, latch⟩ := State.startAct_inhibit (s := (s.takeVerdict v).evalDerate r) (r := r) (cause := v.src)
    (by rw [judged.pch, trip]; exact hp) (hst.trans hn)
  have done : (s.takeVerdicts [v]).trip = (((s.takeVerdict v).evalDerate r).startAct r 4 v.src true).trip := by
    rw [State.trip_takeVerdicts]
    dsimp only [List.foldl_cons, List.foldl_nil]
    rw [h.strings_taken ha, hs]
    exact congrArg State.trip starts
  rw [State.tstr_of_trip done, done, only.inbox, judged.inbox, only.active, judged.active, trip]
  exact ⟨rfl, rfl, st, act, latch⟩

/-! ## Pre-charge failure (R147) -/

theorem State.led_lsSync (s : State) (c : Nat) : (s.lsSync c).led = s.led :=
  (@State.lsSync_kept (· ≠ .led_) ⟨by decide⟩ ⟨by decide⟩ ⟨by decide⟩ _ _ _ (Kept.refl s)).same .led_ (by decide)

theorem State.led_enterIdle (s : State) (r : Nat) : (s.enterIdle r).led = s.led :=
  (@State.enterIdle_kept (· ≠ .led_) ⟨by decide⟩ ⟨by decide⟩ ⟨by decide⟩ ⟨by decide⟩ _ _ _ (Kept.refl s)).same .led_ (by decide)

theorem State.led_beginRamp (s : State) (r : Nat) (opens : Bool) (limit : Nat) : (s.beginRamp r opens limit).led = s.led :=
  (@State.beginRamp_kept (· ≠ .led_) ⟨by decide⟩ ⟨by decide⟩ ⟨by decide⟩ ⟨by decide⟩ ⟨by decide⟩ _ _ _ _ _ (Kept.refl s)).same
    .led_ (by decide)

theorem State.reg_lsSync (s : State) {a c : Nat} (h : a ≠ PW_LS_STAT) (hc : a ≠ PW_LS_STATc c) :
    (s.lsSync c).reg a = s.reg a := by
  have set (u : State) (on : Bool) : (u.lsSet c on).reg a = u.reg a := by
    have wrote (x : State) (f : Fld) (n : Nat) : (x.wr (PW_LS_STATc c) f n).reg a = x.reg a := x.reg_wr_ne f n hc
    have noted (b : Bool) : (u.wrBit PW_LS_STAT c b).reg a = u.reg a := u.reg_wr_ne _ _ h
    unfold State.lsSet
    dsimp only
    refine ite_keeps (fun x : State => x.reg a) rfl (ite_keeps (fun x : State => x.reg a) ?_ ?_)
    · exact ite_keeps (fun x : State => x.reg a) (noted _) ((wrote ..).trans (noted _))
    · exact (((wrote ..).trans (wrote ..)).trans (wrote ..)).trans (noted _)
  unfold State.lsSync
  dsimp only
  rw [set]
  exact ite_keeps (fun x : State => x.reg a) rfl rfl

/-- The sequence off with its relay, and the reason noted (R147). -/
def State.pchOff (s : State) (reason : Nat) : State :=
  ((s.setRelay false).setPchStep 8).wr PW_PCH_STAT PW_PCH_STAT_REASON reason

theorem State.seed_pchOff (s : State) (reason : Nat) : (s.pchOff reason).seed = s.seed := by
  have relay : PW_PCH_CFG ≠ PW_LS_STATc (18 + s.rd PW_PCH_CFG PW_PCH_CFG_SEEDGC) := by
    have code : s.rd PW_PCH_CFG PW_PCH_CFG_SEEDGC < 8 := Nat.mod_lt _ (by decide)
    unfold PW_PCH_CFG PW_LS_STATc at *
    omega
  unfold State.pchOff State.seed
  rw [State.rd_wr_ne _ _ _ _ (by decide)]
  show ((s.setRelay false).wr PW_PCH_STAT PW_PCH_STAT_STEP 8).rd PW_PCH_CFG PW_PCH_CFG_SEED = _
  rw [State.rd_wr_ne _ _ _ _ (by decide)]
  exact congrArg PW_PCH_CFG_SEED.get (State.reg_lsSync _ (by decide) relay)

theorem State.pch_pchOff (s : State) (reason : Nat) :
    (s.pchOff reason).trip.pch.step = 0 ∧ (s.pchOff reason).trip.pch.relay = false :=
  ⟨rfl, congrArg (fun x : Trip => x.pch.relay) (State.trip_lsSync ..)⟩

/-- A failed sequence is off, its event is recorded, and nothing that follows starts it again or raises another (R147). -/
theorem State.pchFail_fails (s : State) (reason : Nat) :
    (s.pchFail reason).trip.pch.step = 0 ∧ (s.pchFail reason).trip.pch.relay = false ∧
      s.Raised (s.pchFail reason) srcTrip EV_PCH_FAIL [s.seed, s.trip.pch.step, reason] := by
  let u := (s.pchOff reason).raise srcTrip EV_PCH_FAIL [(s.pchOff reason).seed, s.trip.pch.step, reason]
  have only : StringsOnly u (s.pchFail reason) :=
    have idle := (StringsOnly.refl u).foldl (fun _ _ h => .ite h.enterIdle h)
    .ite idle.beginRamp idle
  have led : (s.pchFail reason).led = u.led :=
    have idle := foldl_keeps State.led (by exact fun v r => ite_keeps State.led (v.led_enterIdle r) rfl) u.strings u
    ite_keeps State.led ((State.led_beginRamp ..).trans idle) idle
  obtain ⟨step, relay⟩ := s.pch_pchOff reason
  have pch : (s.pchFail reason).trip.pch = (s.pchOff reason).trip.pch :=
    only.pch.trans (congrArg Trip.pch (State.trip_raise ..))
  refine ⟨by rw [pch, step], by rw [pch, relay], ?_⟩
  have off : (s.pchOff reason).led = s.led := State.led_lsSync ..
  have time : (s.pchFail reason).ns = (s.pchOff reason).ns :=
    (Steady.refl s).pchFail.ns.trans (Steady.refl s).setRelay.setPchStep.wr.ns.symm
  have event := State.raised_of_raise (s' := s.pchOff reason) (src := srcTrip) (code := EV_PCH_FAIL)
    (ws := [(s.pchOff reason).seed, s.trip.pch.step, reason]) off led time
  rwa [State.seed_pchOff] at event

theorem execPrechargeTimeout_seed {s : State} {t : Nat} (h : s.trip.pch.step = 2)
    (ht : s.trip.pch.instant + 6 * s.rd PW_PCH_CFG PW_PCH_CFG_TAUMAX * 5 * ms ≤ Nat.max s.now t) (hd : s.dvOk s.seed = false) :
    execPrechargeTimeout s t = .next ((s.at t).pchFail 4) :=
  if_pos ⟨h, ht, Bool.eq_false_iff.mp hd⟩

end Sys2Proof.Machine

open Sys2Proof Sys2Proof.Machine

/-- Settles O37, time by time. What the regulators, the gates and the channels do leaves the trip block, and contactor wear leaves
every string, so each clause reads its string where the last operation on it wrote it. -/
theorem stringsInhibitRampAndOpen : Obligations.StringsInhibitRampAndOpen := by
  unfold Obligations.StringsInhibitRampAndOpen
  intro s t
  dsimp only
  refine ⟨?verdict, ?derate, ?park, ?ramp, ?opening, ?exceed, ?stale, ?wait, ?pull, ?economiser, ?weld, ?precharge, ?feedback⟩
  case verdict =>
    intro r v hi on src native en act scope hs ha hp h4 hl hn
    have inhibits : ({ s.at t with trip := { s.trip with inbox := [] } } : State).Inhibits r v := ⟨on, src, native, en, act, scope⟩
    obtain ⟨inbox, active, st, a, latch⟩ := inhibits.takeVerdicts hs ha hp h4 hl hn
    refine ⟨({ s.at t with trip := { s.trip with inbox := [] } } : State).takeVerdicts [v], ?_, inbox, st, a, latch, _, active, rfl,
      rfl, inhibits.act_activeOf⟩
    show execTripVerdict s 0 t = _
    unfold execTripVerdict
    dsimp only
    rw [show (s.at t).trip.inbox = [v] from hi]
    rfl
  case derate =>
    intro r due h hd hs _
    refine ⟨_, execDerateHoldExpire_due h hd hs, ?_⟩
    rw [State.tstr_of_trip (State.trip_limitsOnChange _), State.tstr_setSt _ _ (by decide), State.tstr_updTstr_same]
    exact ⟨rfl, rfl, rfl⟩
  case park =>
    intro r hs hz ho
    refine ⟨_, execRampPark_stays hs hz ho, ?_⟩
    rw [State.tstr_park]
    exact ⟨rfl, rfl, rfl⟩
  case ramp =>
    intro r t0 hs he ht
    refine ⟨_, execRampTimeout_due hs he ht, ?_⟩
    rw [State.tstr_park]
    exact ⟨rfl, rfl⟩
  case opening =>
    intro r hs ho hc
    have off := (s.at t).offSince_hcOff r false
    exact ⟨fun hz => ⟨_, execZeroCurrentOpen_met hs ho hc hz, off.hc, off.offAt⟩,
      fun ht => ⟨_, execOpenTimeout_due hs ho hc ht, off.hc, off.offAt⟩⟩
  case exceed =>
    intro r t0 sound ho ht
    exact ⟨_, execDlimExceed_shunt sound ho ht, _, rfl, rfl, rfl, rfl⟩
  case stale =>
    intro r hf ht
    have trip : (((s.at t).dlimAged r).stringSource 17 r (some r.val) true).limitsOnChange.trip = _ := State.trip_limitsOnChange _
    refine ⟨_, execDlimStale_due hf ht, ?_, ?_, ?_⟩
    · rw [State.tstr_of_trip trip]
      show (((s.at t).dlimAged r).tstr r).dlimStale = true
      rw [State.tstr_of_trip (State.trip_dlimAged ..), State.tstr_updTstr_same]
    · exact State.raised_of_raise (s' := ((s.at t).updTstr r _).hit PW_TRIP_EVT PW_TRIP_EVT_DLSTALE PW_TRIP_CNT PW_TRIP_CNT_DLSTALEN)
        rfl (State.led_limitsOnChange _) ((Steady.refl _).updTstr.hit.raise.stringSource.limitsOnChange.ns)
    · rw [trip]
      show ∃ v, ((s.at t).dlimAged r).trip.inbox ++ _ = _ ∧ _
      rw [State.trip_dlimAged]
      exact ⟨_, rfl, rfl, rfl, rfl⟩
  case wait =>
    intro r t0 h hb hr
    refine ⟨_, execCloseWaitEnd_free h hb hr, ?_⟩
    rw [State.tstr_pullIn]
    exact ⟨rfl, rfl, rfl, rfl⟩
  case pull =>
    intro r t0 h hs hc ht ho hp
    obtain ⟨open_, off, inbox⟩ := (s.at t).pullFailed_open r
    refine ⟨_, execPullInTimeout_due h hs hc ht ho hp, off, open_, ?_⟩
    show ∃ v w, ((s.at t).pullFailed r).trip.inbox ++ _ = _ ∧ _
    rw [inbox]
    exact ⟨_, _, rfl, rfl, rfl, rfl⟩
  case economiser =>
    intro r t0 h hc he ht
    refine ⟨_, execEconomiserStart_due h hc he ht, ?_⟩
    rw [State.tstr_of_trip (State.trip_lsSync ..), State.tstr_updTstr_same]
    exact ⟨rfl, hc⟩
  case weld =>
    intro r t0 h hn hv ht hw
    obtain ⟨badN, e⟩ := execWeldCheckTimeout_positive h hn hv ht hw
    have worn := (s.at t).worn_weldFound r true badN
    refine ⟨_, e, ?_, ?_, ?_⟩
    · show (((s.at t).weldFound r true badN).tstr r).offAt = none
      rw [worn.tstr, State.tstr_updTstr_same]
    · exact (s.at t).wlock_weldFound r.isLt true badN
    · show ∃ v w, ((s.at t).weldFound r true badN).trip.inbox ++ _ = _ ∧ _
      rw [worn.inbox]
      exact ⟨_, _, rfl, rfl, rfl, rfl⟩
  case precharge =>
    intro hs ht hd
    obtain ⟨step, relay, event⟩ := (s.at t).pchFail_fails 4
    refine ⟨_, execPrechargeTimeout_seed hs ht hd, step, relay, ?_⟩
    have two : (s.at t).trip.pch.step = 2 := hs
    rw [two] at event
    exact event
  case feedback =>
    intro k l hl hr ht hc off
    obtain ⟨closed, indet⟩ := State.cfbChanged_off_keeps (s := (s.at t).cfbTaken k
      (decide (l = 2) == bit (s.rd PW_CFB_CFG PW_CFB_CFG_POL) k)) (r := k.val / 2) off
    refine ⟨_, execCfbSample_taken hl hr ht hc, ?_, ?_⟩
    · unfold State.cfbClosed
      rw [closed]
      exact State.bit_rd_wrBit _ _ _ k.isLt (Nat.zero_add _) (by omega)
    · rw [indet]
      exact Tab.get_set_same false s.trip.cfbIndet k.val false
end

section
/-!
PROOF. The measurement rings and the verdicts that the current paths send: what an entry reads once it is written, and who waits in the
trip block's inbox (R107, R118, R126).
-/

namespace Sys2Proof.Machine

/-! ## A number read back -/

theorem State.loadLE_eq_mod {s : State} {a n v : Nat} (h : ∀ i < n, s.byte (a + i) = BitVec.ofNat 8 (v / 2 ^ (8 * i))) :
    s.loadLE a n = v % 2 ^ (8 * n) := by
  induction n with
  | zero => exact (Nat.mod_one v).symm
  | succ n ih =>
    unfold State.loadLE
    rw [ih fun i hi => h i (Nat.lt_succ_of_lt hi), h n (Nat.lt_succ_self n), Nat.mul_succ, Nat.pow_add, Nat.mod_mul,
      BitVec.toNat_ofNat]

/-- A stored number reads back, cut to its bytes. -/
theorem State.loadLE_storeLE_same (s : State) (a n v : Nat) : (s.storeLE a n v).loadLE a n = v % 2 ^ (8 * n) :=
  State.loadLE_eq_mod fun i hi => by
    rw [State.byte_storeLE, if_pos (by omega), Nat.add_sub_cancel_left]

/-- A store leaves the numbers beside it. -/
theorem State.loadLE_storeLE_apart (s : State) {a n v b m : Nat} (h : b + m ≤ a ∨ a + n ≤ b) :
    (s.storeLE a n v).loadLE b m = s.loadLE b m := by
  induction m with
  | zero => rfl
  | succ m ih =>
    unfold State.loadLE
    rw [ih (by omega), State.byte_storeLE, if_neg (by omega)]

@[simp] theorem State.cur_storeLE (s : State) (a n v : Nat) : (s.storeLE a n v).cur = s.cur := by
  obtain ⟨_, _, _, e⟩ := s.storeLE_eq a n v
  rw [e]

/-! ## Ring entries (R107) -/

/-- The next entry of a source's ring holds a sample, and is the one before the next. -/
structure State.Wrote (s u : State) (x stamp : Nat) (v : Int) (flags : Nat) : Prop where
  stamp : u.loadLE (ringAddr x (Tab.get 0 s.cur.ring x)) 8 = stamp % 2 ^ 64
  value : u.loadLE (ringAddr x (Tab.get 0 s.cur.ring x) + 8) 4 = wrapInt v 32
  flags : u.loadLE (ringAddr x (Tab.get 0 s.cur.ring x) + 12) 4 = flags
  next : Tab.get 0 u.cur.ring x = Tab.get 0 s.cur.ring x + 1

theorem wrapInt_lt (v : Int) (w : Nat) : wrapInt v w < 2 ^ w := by
  have below : v % 2 ^ w < 2 ^ w := Int.emod_lt_of_pos v (by positivity)
  have above : 0 ≤ v % 2 ^ w := Int.emod_nonneg v (by positivity)
  unfold wrapInt
  zify
  rw [Int.toNat_of_nonneg above]
  exact below

/-- The bytes of a ring entry: the stamp, the value and the flags, stored side by side. -/
theorem State.loadLE_ringWrite (s : State) (x stamp : Nat) (v : Int) (flags b n : Nat) :
    (s.ringWrite x stamp v flags).loadLE b n =
      (((s.storeLE (ringAddr x (Tab.get 0 s.cur.ring x)) 8 stamp).storeLE (ringAddr x (Tab.get 0 s.cur.ring x) + 8) 4
        (wrapInt v 32)).storeLE (ringAddr x (Tab.get 0 s.cur.ring x) + 12) 4 flags).loadLE b n := by
  unfold State.ringWrite
  exact State.loadLE_congr (by rfl) b n

theorem State.wrote_ringWrite (s : State) (x stamp : Nat) (v : Int) {flags : Nat} (h : flags < 2 ^ 32) :
    s.Wrote (s.ringWrite x stamp v flags) x stamp v flags := by
  refine ⟨?_, ?_, ?_, ?_⟩
  · rw [State.loadLE_ringWrite, State.loadLE_storeLE_apart _ (.inl (by omega)), State.loadLE_storeLE_apart _ (.inl (by omega)),
      State.loadLE_storeLE_same]
  · rw [State.loadLE_ringWrite, State.loadLE_storeLE_apart _ (.inl (by omega)), State.loadLE_storeLE_same,
      Nat.mod_eq_of_lt (wrapInt_lt v 32)]
  · rw [State.loadLE_ringWrite, State.loadLE_storeLE_same, Nat.mod_eq_of_lt h]
  · unfold State.ringWrite
    dsimp only
    rw [State.cur_storeLE, State.cur_storeLE, State.cur_storeLE, Tab.get_set_same]

theorem State.Wrote.after {s u z : State} {x stamp flags : Nat} {v : Int} (h : s.Wrote u x stamp v flags) (hm : z.mem = u.mem)
    (hr : z.cur.ring = u.cur.ring) : s.Wrote z x stamp v flags :=
  ⟨(State.loadLE_congr hm ..).trans h.stamp, (State.loadLE_congr hm ..).trans h.value, (State.loadLE_congr hm ..).trans h.flags,
    (congrArg (Tab.get 0 · x) hr).trans h.next⟩

theorem State.Wrote.before {s s0 u : State} {x stamp flags : Nat} {v : Int} (h : s.Wrote u x stamp v flags)
    (hr : s.cur.ring = s0.cur.ring) : s0.Wrote u x stamp v flags := by
  obtain ⟨stamp, value, flags, next⟩ := h
  rw [hr] at stamp value flags next
  exact ⟨stamp, value, flags, next⟩

/-! ## Verdicts that wait (R126, R127) -/

/-- A verdict of a source and its holder waits in the trip block's inbox. -/
def State.Sent (u : State) (k key : Nat) (on : Bool) : Prop := ∃ v ∈ u.trip.inbox, v.src = k ∧ v.key = key ∧ v.on = on

theorem State.sent_stringSource (s : State) (k key : Nat) (native : Option Nat) (on : Bool) :
    (s.stringSource k key native on).Sent k key on :=
  ⟨_, List.mem_append_right _ (List.mem_singleton_self _), rfl, rfl, rfl⟩

theorem State.Sent.stringSource {s : State} {k key k' key' : Nat} {native : Option Nat} {on on' : Bool} (h : s.Sent k key on) :
    (s.stringSource k' key' native on').Sent k key on := by
  obtain ⟨v, waits, that⟩ := h
  exact ⟨v, List.mem_append_left _ waits, that⟩

theorem State.Sent.of_trip {s u : State} {k key : Nat} {on : Bool} (h : s.Sent k key on) (e : u.trip = s.trip) :
    u.Sent k key on := by
  unfold State.Sent
  rw [e]
  exact h

/-! ## The unknown current (R118) -/

/-- Whether source 15 of a string is to be told: the trip block then hears of it, and nothing else changes. -/
theorem State.unknownSync_cases (s : State) (r : Nat) : s.unknownSync r = s ∨ ∃ on,
    s.unknownSync r = ({ s with cur := { s.cur with unknown := Tab.set false s.cur.unknown r on } } : State).stringSource 15 r
      (some r) on := by
  unfold State.unknownSync
  dsimp only
  split
  · exact .inl rfl
  · exact .inr ⟨_, rfl⟩

/-- What `unknownSync` does not touch: a reading of the state that neither the unknown strings nor the inbox enter. -/
theorem State.unknownSync_keeps {β : Type} (p : State → β) (s : State) (r : Nat)
    (hp : ∀ on, p (({ s with cur := { s.cur with unknown := Tab.set false s.cur.unknown r on } } : State).stringSource 15 r
      (some r) on) = p s) : p (s.unknownSync r) = p s := by
  obtain e | ⟨on, e⟩ := s.unknownSync_cases r
  · rw [e]
  · rw [e, hp]

theorem State.Sent.unknownSync {s : State} {k key r : Nat} {on : Bool} (h : s.Sent k key on) : (s.unknownSync r).Sent k key on := by
  obtain e | ⟨b, e⟩ := s.unknownSync_cases r
  · rw [e]
    exact h
  · rw [e]
    exact State.Sent.stringSource (s := { s with cur := { s.cur with unknown := Tab.set false s.cur.unknown r b } }) h

end Sys2Proof.Machine
end

section
/-!
PROOF. The phase currents: decimator outputs, a sense that fails and the phase sum written to its ring (R111, R112).
-/

namespace Sys2Proof.Machine

/-! ## A half-bridge turned off by its regulator -/

theorem State.reg_setSw (s : State) (n : Nat) (hi : Bool) (v : Nat) {a : Nat} (h : a ≠ PW_HB_STAT n) :
    (s.setSw n hi v).reg a = s.reg a :=
  ite_keeps (State.reg · a) (s.reg_wr_ne _ _ h) (ite_keeps (State.reg · a) (s.reg_wr_ne _ _ h) (s.reg_wr_ne _ _ h))

theorem State.reg_turnOff (s : State) (n : Nat) (hi : Bool) {a : Nat} (h : a ≠ PW_HB_STAT n) :
    (s.turnOff n hi).reg a = s.reg a :=
  ite_keeps (State.reg · a) (s.reg_setSw n hi 0 h) rfl

/-- A half-bridge's regulator drives no register but the half-bridge's own. -/
theorem State.reg_driveHb (s : State) (n : Nat) (en pulse : Bool) {a : Nat} (h : a ≠ PW_HB_STAT n) :
    (s.driveHb n en pulse).reg a = s.reg a := by
  unfold State.driveHb
  dsimp only
  refine ite_keeps (State.reg · a) rfl (ite_keeps (State.reg · a) ?_ (ite_keeps (State.reg · a) rfl ?_))
  · exact (State.reg_wr_ne _ _ _ h).trans ((State.reg_turnOff _ n false h).trans (State.reg_turnOff _ n true h))
  · exact ite_keeps (State.reg · a) ((State.reg_turnOff _ n _ h).trans (State.reg_wr_ne _ _ _ h))
      ((State.reg_turnOff _ n _ h).trans (State.reg_wr_ne _ _ _ h))

@[simp] theorem State.regu_driveHb (s : State) (n : Nat) (en pulse : Bool) : (s.driveHb n en pulse).regu = s.regu :=
  (@State.driveHb_kept (· ≠ .regu_) ⟨by decide⟩ ⟨by decide⟩ ⟨by decide⟩ _ _ _ _ _ (Kept.refl s)).same .regu_ (by decide)

/-! ## A phase whose sense fails (R112) -/

/-- Limits announced to the bus voltage link leave the registers and every phase. -/
theorem State.reg_limitsOnChange (s : State) (a : Nat) : s.limitsOnChange.reg a = s.reg a := ite_keeps (State.reg · a) rfl rfl

theorem State.phase_limitsOnChange (s : State) (j : Nat) : s.limitsOnChange.phase j = s.phase j :=
  ite_keeps (State.phase · j) rfl rfl

theorem State.phase_of_regu {s u : State} (h : u.regu = s.regu) (j : Nat) : u.phase j = s.phase j := by
  unfold State.phase
  rw [h]

theorem State.phase_updPhase (s : State) (n j : Nat) (f : Phase → Phase) :
    (s.updPhase n f).phase j = if j = n then f (s.phase n) else s.phase j :=
  Tab.get_set _ _ _ _ _

theorem State.regu_parkRequest (s : State) (r : Nat) : (s.parkRequest r).regu = s.regu := rfl
theorem State.reg_parkRequest (s : State) (r a : Nat) : (s.parkRequest r).reg a = s.reg a := rfl

/-- A phase turned off and marked in PHFAIL, its string's active phases counted again (R299). -/
def State.phaseOff (s : State) (r k : Nat) : State :=
  let n := s.slotHb r k
  let before := s.rd (PW_SREG_STAT r) PW_SREG_STAT_PHFAIL
  let s := (s.driveHb n false false).updPhase n (fun x => { x with decayAt := some (s.driveHb n false false).now })
  (s.wr (PW_SREG_STAT r) PW_SREG_STAT_PHFAIL (if bit before k then before else before + 2 ^ k)).syncNact r

/-- A removed phase is turned off; its string may be asked to park, and the new limits are announced. -/
theorem State.removePhase_cases (s : State) (r k : Nat) : s.removePhase r k = (s.phaseOff r k).limitsOnChange ∨
    s.removePhase r k = ((s.phaseOff r k).parkRequest r).limitsOnChange := by
  have unfolded : s.removePhase r k = (if (s.phaseOff r k).nact r = 0 ∨ s.rd (PW_SREG_STAT r) PW_SREG_STAT_PHFAIL ≠ 0 then
      (s.phaseOff r k).parkRequest r else s.phaseOff r k).limitsOnChange := rfl
  rw [unfolded]
  split
  · exact .inr rfl
  · exact .inl rfl

/-- A phase turned off keeps its account of its sense. -/
theorem State.senseFail_phaseOff (s : State) (r k j : Nat) : ((s.phaseOff r k).phase j).senseFail = (s.phase j).senseFail := by
  have drive := s.regu_driveHb (s.slotHb r k) false false
  unfold State.phaseOff State.syncNact
  dsimp only
  rw [State.phase_of_regu (State.regu_wr ..), State.phase_of_regu (State.regu_wr ..), State.phase_updPhase]
  split
  · next e => rw [e, State.phase_of_regu drive]
  · rw [State.phase_of_regu drive]

/-- A phase turned off is seen in the statuses of its regulator and of its half-bridge. -/
theorem State.reg_phaseOff (s : State) (r k : Nat) {a : Nat} (hs : a ≠ PW_SREG_STAT r) (hh : a ≠ PW_HB_STAT (s.slotHb r k)) :
    (s.phaseOff r k).reg a = s.reg a := by
  unfold State.phaseOff State.syncNact
  dsimp only
  rw [State.reg_wr_ne _ _ _ hs, State.reg_wr_ne _ _ _ hs]
  exact s.reg_driveHb _ _ _ hh

theorem State.senseFail_removePhase (s : State) (r k j : Nat) :
    ((s.removePhase r k).phase j).senseFail = (s.phase j).senseFail := by
  obtain e | e := s.removePhase_cases r k
  · rw [e, State.phase_limitsOnChange, State.senseFail_phaseOff]
  · rw [e, State.phase_limitsOnChange, State.phase_of_regu (State.regu_parkRequest ..), State.senseFail_phaseOff]

theorem State.reg_removePhase (s : State) (r k : Nat) {a : Nat} (hs : a ≠ PW_SREG_STAT r) (hh : a ≠ PW_HB_STAT (s.slotHb r k)) :
    (s.removePhase r k).reg a = s.reg a := by
  obtain e | e := s.removePhase_cases r k
  · rw [e, State.reg_limitsOnChange, State.reg_phaseOff _ _ _ hs hh]
  · rw [e, State.reg_limitsOnChange, State.reg_parkRequest, State.reg_phaseOff _ _ _ hs hh]

/-- A phase whose sense failed, told to the supervisor, before the phase is removed. -/
def State.senseLost (s : State) (n : Nat) : State :=
  ((s.updPhase n (fun x => { x with senseFail := true })).hit PW_REG_EVT PW_REG_EVT_PHSENSE PW_REG_CNT0
    PW_REG_CNT0_PHSENSEN).raise srcReg EV_REG_PHASE_SENSE [n]

theorem State.phaseSenseFail_again {s : State} {n : Nat} (h : (s.phase n).senseFail = true) : s.phaseSenseFail n = s := if_pos h

/-- A phase whose sense fails is removed from its regulator, if it is one of its slots. -/
theorem State.phaseSenseFail_first {s : State} {n : Nat} (h : (s.phase n).senseFail = false) :
    s.phaseSenseFail n = s.senseLost n ∨ ∃ r k, s.phaseSenseFail n = (s.senseLost n).removePhase r k := by
  unfold State.phaseSenseFail
  rw [if_neg (Bool.eq_false_iff.mp h)]
  dsimp only
  split
  · exact .inl rfl
  · split
    · exact .inl rfl
    · exact .inr ⟨_, _, rfl⟩

theorem State.senseFail_senseLost (s : State) (n : Nat) : ((s.senseLost n).phase n).senseFail = true := by
  unfold State.senseLost
  rw [State.phase_of_regu (State.regu_raise ..), State.phase_of_regu (State.regu_hit ..), State.phase_updPhase, if_pos rfl]

theorem State.senseFail_phaseSenseFail (s : State) (n : Nat) : ((s.phaseSenseFail n).phase n).senseFail = true := by
  cases h : (s.phase n).senseFail with
  | true => rw [State.phaseSenseFail_again h, h]
  | false =>
    obtain e | ⟨r, k, e⟩ := State.phaseSenseFail_first h
    · rw [e, State.senseFail_senseLost]
    · rw [e, State.senseFail_removePhase, State.senseFail_senseLost]

/-- The first failure of a phase's sense sets PHSENSE. -/
theorem State.phsense_phaseSenseFail {s : State} {n : Nat} (h : (s.phase n).senseFail = false) :
    (s.phaseSenseFail n).rdB PW_REG_EVT PW_REG_EVT_PHSENSE = true := by
  have lost : (s.senseLost n).rdB PW_REG_EVT PW_REG_EVT_PHSENSE = true := by
    unfold State.senseLost
    rw [State.rdB_raise_low _ _ _ _ _ (by decide), State.rdB_hit_same _ _ _ (by decide) (by decide) (by decide)]
  obtain e | ⟨r, k, e⟩ := State.phaseSenseFail_first h
  · rw [e, lost]
  · have other : PW_REG_EVT ≠ PW_SREG_STAT r := by unfold PW_REG_EVT PW_SREG_STAT; omega
    have bridge : PW_REG_EVT ≠ PW_HB_STAT ((s.senseLost n).slotHb r k) := by unfold PW_REG_EVT PW_HB_STAT; omega
    rw [e, ← lost]
    unfold State.rdB State.rd
    rw [State.reg_removePhase _ _ _ other bridge]

@[simp] theorem State.cur_phaseSenseFail (s : State) (n : Nat) : (s.phaseSenseFail n).cur = s.cur :=
  (@State.phaseSenseFail_kept (· ≠ .cur_) ⟨by decide⟩ ⟨by decide⟩ ⟨by decide⟩ ⟨by decide⟩ ⟨by decide⟩ ⟨by decide⟩ _ _ _
    (Kept.refl s)).same .cur_ (by decide)

/-! ## The unknown current leaves the phases -/

@[simp] theorem State.regu_unknownSync (s : State) (r : Nat) : (s.unknownSync r).regu = s.regu :=
  s.unknownSync_keeps State.regu r fun _ => rfl

@[simp] theorem State.outs_unknownSync (s : State) (r : Nat) : (s.unknownSync r).cur.outs = s.cur.outs :=
  s.unknownSync_keeps (·.cur.outs) r fun _ => rfl

end Sys2Proof.Machine
end

section
/-!
PROOF. The commands of the phase bitstreams and of the phase sum (R111, R112).
-/

namespace Sys2Proof.Machine

/-! ## Decimator outputs (R111) -/

/-- The value of a decimator output, with the gain and the offset of its phase. -/
def State.phaseValue (s : State) (n acc : Nat) : Int :=
  let r3 : Int := ((s.posr n) ^ 3 : Nat)
  nearest ((2 * (acc : Int) - r3) * PW_PH_GAIN_PGAIN.getS (s.reg (PW_PH_GAIN n))) r3 - PW_PH_OFS_POFS.getS (s.reg (PW_PH_OFS n))

/-- The corrected instant of a decimator output, in ns. -/
def State.phaseStamp (s : State) (n t : Nat) : Nat :=
  stampNs ((t : Int) - 75000 * (s.posr n - 1 : Nat) - 10000 * s.rd (PW_PH_CFG n) PW_PH_CFG_PDLY)

/-- How many outputs in a row, this one the latest, lie beyond 0.9 of the range (R112). -/
def State.overRun (s : State) (n acc : Nat) : Nat :=
  let r3 : Int := ((s.posr n) ^ 3 : Nat)
  if decide (9 * r3 < 10 * (2 * (acc : Int) - r3).natAbs) then Tab.get 0 s.cur.ovN n + 1 else 0

/-- A decimator output kept among the eight latest, and put in line for the phase sum by a string's first active phase. -/
def State.outputKept (s : State) (n : Nat) (o : Nat × Int) (k : Nat) : State :=
  let s := { s with cur := { s.cur with outs := Tab.set [] s.cur.outs n ((o :: Tab.get [] s.cur.outs n).take 8),
                                        ovN := Tab.set 0 s.cur.ovN n k } }
  match s.stringOfHb n with
  | none => s
  | some r =>
    if ((List.range 4).find? (fun k => s.phActive r k)).map (fun k => s.slotHb r k) = some n then
      { s with cur := { s.cur with sums := Tab.set [] s.cur.sums r (Tab.get [] s.cur.sums r ++ [o]) } }
    else s

/-- The unknown current of the string that uses a half-bridge, judged again. -/
def State.unknownSyncOf (s : State) (n : Nat) : State :=
  match s.stringOfHb n with
  | none => s
  | some r => s.unknownSync r

theorem execPhaseDecimatorOutput_eq (s : State) (n : Fin 24) (acc t : Nat) : execPhaseDecimatorOutput s n acc t =
    .next ((if 4 ≤ s.overRun n acc then
        ((s.at t).outputKept n (s.phaseStamp n t, s.phaseValue n acc) (s.overRun n acc)).phaseSenseFail n
      else (s.at t).outputKept n (s.phaseStamp n t, s.phaseValue n acc) (s.overRun n acc)).unknownSyncOf n) := rfl

theorem execPdatNoTransition_eq (s : State) (n : Fin 24) (t : Nat) :
    execPdatNoTransition s n t = .next (((s.at t).phaseSenseFail n).unknownSyncOf n) := rfl

theorem State.outs_outputKept (s : State) (n : Nat) (o : Nat × Int) (k : Nat) :
    Tab.get [] (s.outputKept n o k).cur.outs n = (o :: Tab.get [] s.cur.outs n).take 8 := by
  have outs : (s.outputKept n o k).cur.outs = Tab.set [] s.cur.outs n ((o :: Tab.get [] s.cur.outs n).take 8) := by
    unfold State.outputKept
    dsimp only
    split
    · rfl
    · split <;> rfl
  rw [outs, Tab.get_set_same]

/-- What judging the unknown current of a half-bridge's string leaves. -/
theorem State.unknownSyncOf_keeps {β : Type} (p : State → β) (hp : ∀ (s : State) (r : Nat), p (s.unknownSync r) = p s) (s : State)
    (n : Nat) : p (s.unknownSyncOf n) = p s := by
  unfold State.unknownSyncOf
  split
  · rfl
  · exact hp _ _

theorem State.outs_unknownSyncOf (s : State) (n : Nat) : (s.unknownSyncOf n).cur.outs = s.cur.outs :=
  State.unknownSyncOf_keeps (·.cur.outs) State.outs_unknownSync s n

theorem State.phase_unknownSyncOf (s : State) (n j : Nat) : (s.unknownSyncOf n).phase j = s.phase j :=
  State.phase_of_regu (State.unknownSyncOf_keeps State.regu State.regu_unknownSync s n) j

theorem State.rdB_unknownSyncOf (s : State) (n a : Nat) (f : Fld) : (s.unknownSyncOf n).rdB a f = s.rdB a f :=
  State.unknownSyncOf_keeps (State.rdB · a f) (fun s r => s.unknownSync_keeps (State.rdB · a f) r fun _ => rfl) s n

/-- A decimator output is the latest of its phase. -/
theorem execPhaseDecimatorOutput_keeps (s : State) (n : Fin 24) (acc t : Nat) : ∃ u,
    execPhaseDecimatorOutput s n acc t = .next u ∧
      Tab.get [] u.cur.outs n.val = ((s.phaseStamp n t, s.phaseValue n acc) :: Tab.get [] s.cur.outs n.val).take 8 ∧
      (s.overRun n acc = 4 → (u.phase n).senseFail = true) := by
  refine ⟨_, execPhaseDecimatorOutput_eq s n acc t, ?_, fun four => ?_⟩
  · rw [State.outs_unknownSyncOf]
    split
    · rw [State.cur_phaseSenseFail, State.outs_outputKept]
      rfl
    · rw [State.outs_outputKept]
      rfl
  · rw [State.phase_unknownSyncOf, if_pos (Nat.le_of_eq four.symm), State.senseFail_phaseSenseFail]

/-! ## The phase sum (R111, R112) -/

/-- What joins a sample to the windows, the paths, the offsets and the charge of its string leaves the rings, and the sums that
wait. -/
structure State.RingsOf (s u : State) : Prop where
  mem : u.mem = s.mem
  ring : u.cur.ring = s.cur.ring
  sums : u.cur.sums = s.cur.sums

theorem State.RingsOf.trans {s u z : State} (h : s.RingsOf u) (k : u.RingsOf z) : s.RingsOf z :=
  ⟨k.mem.trans h.mem, k.ring.trans h.ring, k.sums.trans h.sums⟩

theorem State.ringsOf_windowAdd (s : State) (x : Nat) (v : Int) (bad : Bool) : s.RingsOf (s.windowAdd x v bad) := by
  unfold State.windowAdd
  split <;> exact ⟨rfl, rfl, rfl⟩

theorem State.ringsOf_pathSample (s : State) (r : Nat) (phase : Bool) (stamp : Nat) (v : Int) (bad : Bool) (period : Nat) :
    s.RingsOf (s.pathSample r phase stamp v bad period) := by
  have kept := @State.pathSample_kept (· ≠ .mem_) ⟨by decide⟩ s s r phase stamp v bad period (Kept.refl s)
  have kept' := @State.pathSample_kept (· ≠ .cur_) ⟨by decide⟩ s s r phase stamp v bad period (Kept.refl s)
  exact ⟨kept.same .mem_ (by decide), (congrArg Cur.ring (kept'.same .cur_ (by decide)) :),
    (congrArg Cur.sums (kept'.same .cur_ (by decide)) :)⟩

theorem State.ringsOf_offsetAdd (s : State) (x r : Nat) (v : Int) : s.RingsOf (s.offsetAdd x r v) := by
  unfold State.offsetAdd
  split <;> exact ⟨rfl, rfl, rfl⟩

theorem State.ringsOf_integrate (s : State) (x r stamp : Nat) (v : Int) : s.RingsOf (s.integrate x r stamp v) := by
  unfold State.integrate
  split <;> exact ⟨rfl, rfl, rfl⟩

/-- The oldest phase sum of a string taken from its line. -/
def State.sumTaken (s : State) (r stamp : Nat) (rest : List (Nat × Int)) : State :=
  { s with cur := { s.cur with sums := Tab.set [] s.cur.sums r rest, newest := Tab.set 0 s.cur.newest (12 + r) stamp } }

/-- A phase sum in the ring of its string, the windows and the trip block; one of sound phases joins the offsets and the charge. -/
def State.sumWritten (s : State) (r stamp : Nat) (sum : Int) (bad : Bool) (period : Nat) : State :=
  let s := ((s.ringWrite (12 + r) stamp sum (1 + 8 * b2n bad)).windowAdd (12 + r) sum bad).pathSample r true stamp sum bad period
  if bad then s else (s.offsetAdd (12 + r) r sum).integrate (12 + r) r stamp sum

theorem State.ringsOf_sumWritten (s : State) (r stamp : Nat) (sum : Int) (bad : Bool) (period : Nat) :
    (s.ringWrite (12 + r) stamp sum (1 + 8 * b2n bad)).RingsOf (s.sumWritten r stamp sum bad period) := by
  have joined := (State.ringsOf_windowAdd (s.ringWrite (12 + r) stamp sum (1 + 8 * b2n bad)) (12 + r) sum bad).trans
    (State.ringsOf_pathSample _ r true stamp sum bad period)
  unfold State.sumWritten
  dsimp only
  split
  · exact joined
  · exact joined.trans ((State.ringsOf_offsetAdd ..).trans (State.ringsOf_integrate ..))

theorem State.sums_ringWrite (s : State) (x stamp : Nat) (v : Int) (flags : Nat) :
    (s.ringWrite x stamp v flags).cur.sums = s.cur.sums := by
  unfold State.ringWrite
  dsimp only
  rw [State.cur_storeLE, State.cur_storeLE, State.cur_storeLE]

/-- The slots of a regulator's active phases. -/
def State.actives (s : State) (r : Nat) : List Nat := (List.range 4).filter (fun k => s.phActive r k)

/-- The sum of a string's phases at the instant of its first one's output. -/
def State.phaseSum (s : State) (r stamp : Nat) (v : Int) : Int :=
  v + sumI (((s.actives r).drop 1).map (fun k => (s.phaseAt (s.slotHb r k) stamp).getD 0))

/-- Whether an active phase of a string has a failed sense. -/
def State.sumBad (s : State) (r : Nat) : Bool := (s.actives r).any (fun k => (s.phase (s.slotHb r k)).senseFail)

theorem execPhaseSumWrite_complete {s : State} {r : Fin 12} {t stamp : Nat} {v : Int} {rest : List (Nat × Int)}
    (h : Tab.get [] s.cur.sums r.val = (stamp, v) :: rest)
    (ho : ∀ k ∈ (s.actives r).drop 1, (s.phaseAt (s.slotHb r k) stamp).isSome = true) :
    ∃ period, execPhaseSumWrite s r t =
      .next (((s.at t).sumTaken r stamp rest).sumWritten r stamp (s.phaseSum r stamp v) (s.sumBad r) period) := by
  have enclosed : ¬ (((s.actives r).drop 1).map (fun k => s.phaseAt (s.slotHb r k) stamp)).any (fun o => o.isNone) = true := by
    simp only [List.any_map, List.any_eq_true, Function.comp_apply, not_exists, not_and, Option.isNone_iff_eq_none]
    exact fun k hk none => absurd (ho k hk) (by rw [none]; decide)
  unfold execPhaseSumWrite
  dsimp only
  rw [show Tab.get [] (s.at t).cur.sums r.val = _ from h]
  dsimp only
  rw [List.map_map]
  exact ⟨_, if_neg enclosed⟩

/-- A complete phase sum leaves its line for its ring. -/
theorem State.sumWritten_wrote (s : State) (r stamp : Nat) (sum : Int) (bad : Bool) (period : Nat) (rest : List (Nat × Int)) :
    Tab.get [] ((s.sumTaken r stamp rest).sumWritten r stamp sum bad period).cur.sums r = rest ∧
      s.Wrote ((s.sumTaken r stamp rest).sumWritten r stamp sum bad period) (12 + r) stamp sum (1 + 8 * b2n bad) := by
  have kept := (s.sumTaken r stamp rest).ringsOf_sumWritten r stamp sum bad period
  have small : 1 + 8 * b2n bad < 2 ^ 32 := by cases bad <;> decide
  refine ⟨?_, ((State.wrote_ringWrite _ _ stamp sum small).after kept.mem kept.ring).before rfl⟩
  rw [kept.sums, State.sums_ringWrite]
  exact Tab.get_set_same ..

end Sys2Proof.Machine
end

section
/-!
PROOF. The analog channels: the checks of an AIC code, its ring entry and its voltage source, and the windows of the AIN channels (R113,
R114, R119 to R121, R275, R516).
-/

namespace Sys2Proof.Machine

/-! ## The checks of an AIC code (R516) -/

/-- The accounts of the AIC channels after a code: a new fault is told, and after a change source 19 is judged again. -/
def State.aicTold (s : State) (n : Nat) (c : Cur) (start change : Bool) : State :=
  let s := { s with cur := c }
  let s := if start then
      (s.hit AQ_CUR_EVT AQ_CUR_EVT_AICFLT AQ_CUR_CNT1 AQ_CUR_CNT1_AICFLTN).raise srcAnalog EV_AIC_FAULT [n]
    else s
  if change then s.aicSource else s

theorem State.aicCheck_eq (s : State) (n : Nat) (code : Int) :
    ∃ c start change, s.aicCheck n code = s.aicTold n c start change ∧ c.ring = s.cur.ring :=
  ⟨_, _, _, rfl, rfl⟩

/-- The fourth code in a row at 98 % of the range starts an over-range fault. -/
theorem State.aicCheck_fourth {s : State} {n : Nat} {code : Int} (hb : 98 * 2 ^ 23 ≤ 100 * code.natAbs)
    (hh : Tab.get 0 s.cur.aicHigh n = 3) (ho : Tab.get false s.cur.aicOver n = false) :
    ∃ c, s.aicCheck n code = s.aicTold n c true true ∧ Tab.get false c.aicOver n = true := by
  have big : decide (98 * 2 ^ 23 ≤ 100 * code.natAbs) = true := decide_eq_true hb
  unfold State.aicCheck
  dsimp only
  rw [big, hh, ho]
  refine ⟨_, rfl, ?_⟩
  dsimp only
  exact Tab.get_set_same ..

/-- Source 19 is told, or left alone: the rest of the state stays. -/
theorem State.aicSource_keeps {β : Type} (p : State → β) (s : State) (hp : ∀ on, p (s.stringSource 19 0 none on) = p s) :
    p s.aicSource = p s :=
  ite_keeps p (hp _) rfl

theorem State.aicTold_keeps {β : Type} (p : State → β) (s : State) (n : Nat) (c : Cur) (start change : Bool)
    (hs : ∀ (s : State) on, p (s.stringSource 19 0 none on) = p s)
    (hf : ∀ s : State, p ((s.hit AQ_CUR_EVT AQ_CUR_EVT_AICFLT AQ_CUR_CNT1 AQ_CUR_CNT1_AICFLTN).raise srcAnalog EV_AIC_FAULT [n]) =
      p s) : p (s.aicTold n c start change) = p { s with cur := c } := by
  have told (u : State) : p (if change then u.aicSource else u) = p u := ite_keeps p (u.aicSource_keeps p (hs u)) rfl
  exact (told _).trans (ite_keeps p (hf _) rfl)

theorem State.cur_aicTold (s : State) (n : Nat) (c : Cur) (start change : Bool) : (s.aicTold n c start change).cur = c :=
  s.aicTold_keeps State.cur n c start change (fun _ _ => rfl) fun s => (State.cur_raise ..).trans (s.cur_hit ..)

theorem State.reg_aicTold (s : State) (n : Nat) (c : Cur) (start change : Bool) {a : Nat} (h : a < LEDGER_EVT) (he : a ≠ AQ_CUR_EVT)
    (hc : a ≠ AQ_CUR_CNT1) : (s.aicTold n c start change).reg a = s.reg a :=
  s.aicTold_keeps (State.reg · a) n c start change (fun _ _ => rfl) fun s =>
    (State.reg_raise _ _ _ _ (by omega) (by unfold LEDGER_CNT; unfold LEDGER_EVT at h; omega)).trans (s.reg_hit_ne _ _ he hc)

/-- An over-range channel that is enabled makes source 19 active. -/
theorem State.sent_aicSource {s : State} {n : Nat} (hn : n < 8) (he : s.rdB (AQ_AIC_CFG n) AQ_AIC_CFG_EN = true)
    (ho : Tab.get false s.cur.aicOver n = true) : s.aicSource.Sent 19 0 true := by
  have on : ((List.range 8).any fun n => s.rdB (AQ_AIC_CFG n) AQ_AIC_CFG_EN &&
      (Tab.get false s.cur.aicOver n || Tab.get false s.cur.aicStuck n)) = true :=
    List.any_eq_true.mpr ⟨n, List.mem_range.mpr hn, by rw [he, ho]; rfl⟩
  unfold State.aicSource
  dsimp only
  rw [on, if_pos (.inl rfl)]
  exact State.sent_stringSource ..

theorem State.reg_aicCheck (s : State) (n : Nat) (code : Int) {a : Nat} (h : a < LEDGER_EVT) (he : a ≠ AQ_CUR_EVT)
    (hc : a ≠ AQ_CUR_CNT1) : (s.aicCheck n code).reg a = s.reg a := by
  obtain ⟨c, start, change, e, -⟩ := s.aicCheck_eq n code
  rw [e, State.reg_aicTold _ _ _ _ _ h he hc]

theorem State.ring_aicCheck (s : State) (n : Nat) (code : Int) : (s.aicCheck n code).cur.ring = s.cur.ring := by
  obtain ⟨c, start, change, e, ring⟩ := s.aicCheck_eq n code
  rw [e, State.cur_aicTold, ring]

/-! ## An AIC sample in its ring, and at the bus voltage source (R114, R275) -/

/-- The value of an AIC code, in mV or mA. -/
def State.aicValue (s : State) (n : Nat) (code : Int) : Int :=
  code * AQ_AIC_SCL_SCALE.getS (s.reg (AQ_AIC_SCL n)) / 2 ^ 23 - AQ_AIC_OFS_OFS.getS (s.reg (AQ_AIC_OFS n))

/-- The corrected instant of an AIC sample, in ns. -/
def State.aicStamp (s : State) (n t : Nat) : Nat :=
  stampNs ((t : Int) - aicDelay (s.rd (AQ_AIC_CFG n) AQ_AIC_CFG_ODR) - 10000 * s.rdS (AQ_AIC_CFG n) AQ_AIC_CFG_AFEDLY)

/-- The flags of an AIC sample: valid, over range, stuck. -/
def State.aicFlags (s : State) (n : Nat) : Nat := 1 + 4 * b2n (Tab.get false s.cur.aicOver n) + 8 * b2n (Tab.get false s.cur.aicStuck n)

/-- A sound sample of the bus voltage source runs the bus loop. -/
def State.busSample (s : State) (v : Int) (period : Nat) : State :=
  let since := s.regu.vbusSound.getD s.now
  let s := if s.regu.vbusFault then { s with regu := { s.regu with vbusSound := some since } } else s
  (s.busLoop v period).pchBus

theorem execAicSample_eq {s : State} {n : Fin 8} {code : Int} {t : Nat} (he : s.rdB (AQ_AIC_CFG n) AQ_AIC_CFG_EN = true) :
    execAicSample s n code t =
      let u := (s.at t).aicCheck n (sext (wrapInt code 24) 24)
      let w := u.ringWrite (26 + n) (u.aicStamp n t) (u.aicValue n (sext (wrapInt code 24) 24)) (u.aicFlags n)
      if w.rd PW_BUS_CFG PW_BUS_CFG_VBSRC ≠ n.val then .next w
      else if Tab.get false u.cur.aicOver n.val || Tab.get false u.cur.aicStuck n.val then .next w.vbusFaulty
      else .next (w.busSample (u.aicValue n (sext (wrapInt code 24) 24))
        (aicPeriod (u.rd (AQ_AIC_CFG n) AQ_AIC_CFG_ODR))) :=
  if_neg (by exact fun c => c he)

/-- A code of 24 bits stands for itself. -/
theorem sext_wrapInt_24 {code : Int} (hl : -2 ^ 23 ≤ code) (hu : code < 2 ^ 23) : sext (wrapInt code 24) 24 = code := by
  unfold sext wrapInt
  dsimp only
  split <;> omega

/-- A sample written to a ring changes memory and the ring's count. -/
theorem State.ringWrite_eq (s : State) (x stamp : Nat) (v : Int) (flags : Nat) : ∃ me fab ring,
    s.ringWrite x stamp v flags = { s with mem := me, fab := fab, cur := { s.cur with ring := ring } } := by
  obtain ⟨_, _, _, e1⟩ := s.storeLE_eq (ringAddr x (Tab.get 0 s.cur.ring x)) 8 stamp
  obtain ⟨_, _, _, e2⟩ := (s.storeLE (ringAddr x (Tab.get 0 s.cur.ring x)) 8 stamp).storeLE_eq
    (ringAddr x (Tab.get 0 s.cur.ring x) + 8) 4 (wrapInt v 32)
  obtain ⟨_, _, _, e3⟩ := ((s.storeLE (ringAddr x (Tab.get 0 s.cur.ring x)) 8 stamp).storeLE
    (ringAddr x (Tab.get 0 s.cur.ring x) + 8) 4 (wrapInt v 32)).storeLE_eq (ringAddr x (Tab.get 0 s.cur.ring x) + 12) 4 flags
  unfold State.ringWrite
  dsimp only
  rw [e3, e2, e1]
  exact ⟨_, _, _, rfl⟩

/-- What a sample written to a ring leaves. -/
theorem State.ringWrite_keeps {β : Type} (p : State → β) (s : State) (x stamp : Nat) (v : Int) (flags : Nat)
    (hp : ∀ me fab ring, p { s with mem := me, fab := fab, cur := { s.cur with ring := ring } } = p s) :
    p (s.ringWrite x stamp v flags) = p s := by
  obtain ⟨_, _, _, e⟩ := s.ringWrite_eq x stamp v flags
  rw [e, hp]

theorem State.aicFlags_ringWrite (s : State) (x stamp : Nat) (v : Int) (flags n : Nat) :
    (s.ringWrite x stamp v flags).aicFlags n = s.aicFlags n :=
  s.ringWrite_keeps (State.aicFlags · n) x stamp v flags fun _ _ _ => rfl

section
variable {s : State} {n : Fin 8} {code : Int} {t : Nat}

/-- An AIC sample after its checks, in its ring. -/
def State.aicTaken (s : State) (n : Nat) (code : Int) (t : Nat) : State :=
  (s.aicCheck n code).ringWrite (26 + n) (s.aicStamp n t) (s.aicValue n code) ((s.aicCheck n code).aicFlags n)

theorem State.reg_aicCheck_cfg (s : State) (n : Fin 8) (code : Int) :
    (s.aicCheck n code).reg (AQ_AIC_CFG n) = s.reg (AQ_AIC_CFG n) :=
  s.reg_aicCheck n code (by unfold AQ_AIC_CFG LEDGER_EVT; omega) (by unfold AQ_AIC_CFG AQ_CUR_EVT; omega)
    (by unfold AQ_AIC_CFG AQ_CUR_CNT1; omega)

theorem State.aicStamp_aicCheck (s : State) (n : Fin 8) (code : Int) (t : Nat) :
    (s.aicCheck n code).aicStamp n t = s.aicStamp n t := by
  unfold State.aicStamp State.rd State.rdS
  rw [s.reg_aicCheck_cfg n code]

theorem State.aicValue_aicCheck (s : State) (n : Fin 8) (code : Int) : (s.aicCheck n code).aicValue n code = s.aicValue n code := by
  unfold State.aicValue
  rw [State.reg_aicCheck _ _ _ (by unfold AQ_AIC_SCL LEDGER_EVT; omega) (by unfold AQ_AIC_SCL AQ_CUR_EVT; omega)
    (by unfold AQ_AIC_SCL AQ_CUR_CNT1; omega), State.reg_aicCheck _ _ _ (by unfold AQ_AIC_OFS LEDGER_EVT; omega)
    (by unfold AQ_AIC_OFS AQ_CUR_EVT; omega) (by unfold AQ_AIC_OFS AQ_CUR_CNT1; omega)]

theorem State.rd_busCfg_aicTaken (s : State) (n : Nat) (code : Int) (t : Nat) (f : Fld) :
    (s.aicTaken n code t).rd PW_BUS_CFG f = s.rd PW_BUS_CFG f := by
  unfold State.aicTaken
  rw [State.ringWrite_keeps (State.rd · PW_BUS_CFG f) _ _ _ _ _ fun _ _ _ => rfl]
  unfold State.rd
  rw [State.reg_aicCheck _ _ _ (by decide) (by decide) (by decide)]

theorem execAicSample_taken (he : s.rdB (AQ_AIC_CFG n) AQ_AIC_CFG_EN = true) (hl : -2 ^ 23 ≤ code) (hu : code < 2 ^ 23) :
    execAicSample s n code t =
      if s.rd PW_BUS_CFG PW_BUS_CFG_VBSRC ≠ n.val then .next ((s.at t).aicTaken n code t)
      else if Tab.get false ((s.at t).aicTaken n code t).cur.aicOver n.val || Tab.get false ((s.at t).aicTaken n code t).cur.aicStuck n.val
        then .next ((s.at t).aicTaken n code t).vbusFaulty
      else .next (((s.at t).aicTaken n code t).busSample (s.aicValue n code)
        (aicPeriod (((s.at t).aicCheck n code).rd (AQ_AIC_CFG n) AQ_AIC_CFG_ODR))) := by
  have taken : ((s.at t).aicCheck n code).ringWrite (26 + n) (((s.at t).aicCheck n code).aicStamp n t)
      (((s.at t).aicCheck n code).aicValue n code) (((s.at t).aicCheck n code).aicFlags n) = (s.at t).aicTaken n code t := by
    rw [State.aicStamp_aicCheck, State.aicValue_aicCheck]
    rfl
  have above : ((s.at t).aicTaken n code t).cur.aicOver = ((s.at t).aicCheck n code).cur.aicOver :=
    State.ringWrite_keeps (·.cur.aicOver) _ _ _ _ _ fun _ _ _ => rfl
  have stuck : ((s.at t).aicTaken n code t).cur.aicStuck = ((s.at t).aicCheck n code).cur.aicStuck :=
    State.ringWrite_keeps (·.cur.aicStuck) _ _ _ _ _ fun _ _ _ => rfl
  rw [execAicSample_eq he, sext_wrapInt_24 hl hu]
  dsimp only
  rw [taken, State.rd_busCfg_aicTaken, above, stuck, State.aicValue_aicCheck]
  rfl

theorem State.wrote_aicTaken (s : State) (n : Nat) (code : Int) (t : Nat) :
    s.Wrote (s.aicTaken n code t) (26 + n) (s.aicStamp n t) (s.aicValue n code) ((s.aicTaken n code t).aicFlags n) := by
  have small : (s.aicCheck n code).aicFlags n < 2 ^ 32 := by
    unfold State.aicFlags
    cases Tab.get false (s.aicCheck n code).cur.aicOver n <;> cases Tab.get false (s.aicCheck n code).cur.aicStuck n <;> decide
  have flags : (s.aicTaken n code t).aicFlags n = (s.aicCheck n code).aicFlags n := State.aicFlags_ringWrite ..
  rw [flags]
  exact (State.wrote_ringWrite _ _ _ _ small).before (s.ring_aicCheck n code)

/-- The fourth code at 98 % in a row makes its channel over range, with EV_AIC_FAULT and source 19. -/
theorem State.aicTaken_fourth (hb : 98 * 2 ^ 23 ≤ 100 * code.natAbs) (hh : Tab.get 0 s.cur.aicHigh n.val = 3)
    (ho : Tab.get false s.cur.aicOver n.val = false) (he : s.rdB (AQ_AIC_CFG n) AQ_AIC_CFG_EN = true) :
    Tab.get false (s.aicTaken n code t).cur.aicOver n.val = true ∧
      s.Raised (s.aicTaken n code t) srcAnalog EV_AIC_FAULT [n.val] ∧ (s.aicTaken n code t).Sent 19 0 true := by
  obtain ⟨c, check, above⟩ := State.aicCheck_fourth hb hh ho
  let told := (({ s with cur := c } : State).hit AQ_CUR_EVT AQ_CUR_EVT_AICFLT AQ_CUR_CNT1 AQ_CUR_CNT1_AICFLTN).raise srcAnalog
    EV_AIC_FAULT [n.val]
  have source : s.aicCheck n code = told.aicSource := check
  have cur : told.cur = c := State.cur_raise ..
  have cfg : told.reg (AQ_AIC_CFG n) = s.reg (AQ_AIC_CFG n) := by
    rw [← told.aicSource_keeps (State.reg · (AQ_AIC_CFG n)) fun _ => rfl, ← source]
    exact s.reg_aicCheck_cfg n code
  have enabled : told.rdB (AQ_AIC_CFG n) AQ_AIC_CFG_EN = true := by
    rw [← he]
    unfold State.rdB State.rd
    rw [cfg]
  have sent : (s.aicCheck n code).Sent 19 0 true := source ▸ State.sent_aicSource n.isLt enabled (by rw [cur, above])
  have raised : s.Raised (s.aicCheck n code) srcAnalog EV_AIC_FAULT [n.val] := by
    rw [source]
    exact State.raised_of_raise (s' := ({ s with cur := c } : State).hit AQ_CUR_EVT AQ_CUR_EVT_AICFLT AQ_CUR_CNT1 AQ_CUR_CNT1_AICFLTN)
      rfl (told.aicSource_keeps State.led fun _ => rfl)
      ((told.aicSource_keeps State.ns fun _ => rfl).trans (State.ns_raise ..))
  refine ⟨?_, ?_, ?_⟩
  · unfold State.aicTaken
    rw [State.ringWrite_keeps (·.cur.aicOver) _ _ _ _ _ fun _ _ _ => rfl, source,
      told.aicSource_keeps State.cur fun _ => rfl, cur, above]
  · exact raised.of_stage (State.ringWrite_keeps State.stage _ _ _ _ _ fun _ _ _ => rfl)
  · exact sent.of_trip (State.ringWrite_keeps State.trip _ _ _ _ _ fun _ _ _ => rfl)

theorem State.vbusFault_enterRamp (s : State) (r : Nat) (idles : Bool) : (s.enterRamp r idles).regu.vbusFault = s.regu.vbusFault :=
  ite_keeps (fun u : State => u.regu.vbusFault) rfl rfl

/-- The bus voltage source is faulty once its fault is told (R275). -/
theorem State.vbusFault_vbusFaulty (s : State) : s.vbusFaulty.regu.vbusFault = true := by
  unfold State.vbusFaulty
  split
  · next h => exact h
  · rw [State.regu_raise]
    exact foldl_keeps (fun u : State => u.regu.vbusFault) (fun s _ => s.vbusFault_enterRamp _ true) _ _

theorem State.cur_busSample (s : State) (v : Int) (period : Nat) : (s.busSample v period).cur = s.cur := by
  have looped (u : State) : (u.busLoop v period).pchBus.cur = u.cur :=
    ((@State.pchBus_kept (· ≠ .cur_) ⟨by decide⟩ ⟨by decide⟩ ⟨by decide⟩ ⟨by decide⟩ ⟨by decide⟩ ⟨by decide⟩ ⟨by decide⟩ _ _
      (Kept.refl (u.busLoop v period))).same .cur_ (by decide)).trans
    ((@State.busLoop_kept (· ≠ .cur_) ⟨by decide⟩ ⟨by decide⟩ ⟨by decide⟩ ⟨by decide⟩ ⟨by decide⟩ _ _ _ _ (Kept.refl u)).same .cur_
      (by decide))
  exact (looped _).trans (ite_keeps State.cur rfl rfl)

/-- A sample of a faulty channel of VBSRC makes the bus voltage source faulty; any other leaves the channel's faults. -/
theorem execAicSample_source (he : s.rdB (AQ_AIC_CFG n) AQ_AIC_CFG_EN = true) (hl : -2 ^ 23 ≤ code) (hu : code < 2 ^ 23)
    (hv : s.rd PW_BUS_CFG PW_BUS_CFG_VBSRC = n.val) : ∃ u, execAicSample s n code t = .next u ∧
      (Tab.get false u.cur.aicOver n.val = true ∨ Tab.get false u.cur.aicStuck n.val = true → u.regu.vbusFault = true) := by
  rw [execAicSample_taken he hl hu, if_neg fun c => c hv]
  split
  · exact ⟨_, rfl, fun _ => State.vbusFault_vbusFaulty _⟩
  · next sound =>
    refine ⟨_, rfl, fun faulty => absurd ?_ sound⟩
    rw [State.cur_busSample] at faulty
    rw [Bool.or_eq_true]
    exact faulty

end

end Sys2Proof.Machine
end

section
/-!
PROOF. The AIN channels: their windows, and trip source 18 (R119 to R121).
-/

namespace Sys2Proof.Machine

/-! ## Source 18 and AINWIN (R120, R121) -/

/-- What telling source 18 of a channel leaves. -/
theorem State.ainSource_keeps {β : Type} (p : State → β) (s : State) (n : Nat) (on : Bool)
    (hp : p (({ s with cur := { s.cur with ainHeld := Tab.set false s.cur.ainHeld n on } } : State).stringSource 18 n none on) =
      p s) : p (s.ainSource n on) = p s :=
  ite_keeps p rfl hp

theorem State.held_ainSource (s : State) (n : Nat) (on : Bool) : Tab.get false (s.ainSource n on).cur.ainHeld n = on := by
  unfold State.ainSource
  split
  · next h => exact h
  · exact Tab.get_set_same ..

/-- Source 18 is told where the channel's state changes. -/
theorem State.sent_ainSource {s : State} {n : Nat} {on : Bool} (h : Tab.get false s.cur.ainHeld n ≠ on) :
    (s.ainSource n on).Sent 18 n on := by
  unfold State.ainSource
  rw [if_neg h]
  exact State.sent_stringSource ..

/-- A window left on an AIN channel: AINWIN, EV_AIN_WIN, and source 18 held, told where it was not (R120). -/
structure State.WinLeft (n : Nat) (s u : State) : Prop where
  flag : u.rdB AQ_CUR_EVT AQ_CUR_EVT_AINWIN = true
  event : s.Raised u srcAnalog EV_AIN_WIN [n]
  held : Tab.get false u.cur.ainHeld n = true
  told : Tab.get false s.cur.ainHeld n = false → u.Sent 18 n true

theorem State.winLeft_ainWin (s : State) (n : Nat) : State.WinLeft n s (s.ainWin n) := by
  have cur : ((s.hit AQ_CUR_EVT AQ_CUR_EVT_AINWIN AQ_CUR_CNT1 AQ_CUR_CNT1_AINWINN).raise srcAnalog EV_AIN_WIN [n]).cur = s.cur :=
    State.cur_raise ..
  unfold State.ainWin
  refine ⟨?_, State.raised_of_raise (s' := s.hit AQ_CUR_EVT AQ_CUR_EVT_AINWIN AQ_CUR_CNT1 AQ_CUR_CNT1_AINWINN) rfl ?_ ?_,
    State.held_ainSource .., fun h => State.sent_ainSource ?_⟩
  · rw [State.ainSource_keeps (State.rdB · AQ_CUR_EVT AQ_CUR_EVT_AINWIN) _ n true rfl,
      State.rdB_raise_low _ _ _ _ _ (by decide), State.rdB_hit_same _ _ _ (by decide) (by decide) (by decide)]
  · exact State.ainSource_keeps State.led _ n true rfl
  · exact (State.ainSource_keeps State.ns _ n true rfl).trans (State.ns_raise ..)
  · rw [cur, h]
    decide

theorem State.WinLeft.before {n : Nat} {s s0 u : State} (h : State.WinLeft n s u) (hl : s.led = s0.led) (hc : s.cur.ainHeld = s0.cur.ainHeld) :
    State.WinLeft n s0 u := by
  obtain ⟨flag, event, held, told⟩ := h
  unfold State.Raised at event
  rw [hl] at event
  rw [hc] at told
  exact ⟨flag, event, held, told⟩

/-- What a window left leaves of the channels' codes. -/
theorem State.ainWin_keeps {β : Type} (p : Cur → β) (s : State) (n : Nat)
    (hp : p { s.cur with ainHeld := Tab.set false s.cur.ainHeld n true } = p s.cur) : p (s.ainWin n).cur = p s.cur := by
  have cur : ((s.hit AQ_CUR_EVT AQ_CUR_EVT_AINWIN AQ_CUR_CNT1 AQ_CUR_CNT1_AINWINN).raise srcAnalog EV_AIN_WIN [n]).cur = s.cur :=
    State.cur_raise ..
  unfold State.ainWin
  refine (State.ainSource_keeps (fun u => p u.cur) _ n true ?_).trans (by rw [cur])
  show p { State.cur _ with ainHeld := Tab.set false (State.cur _).ainHeld n true } = _
  rw [cur, hp]

/-! ## A conversion (R119, R120) -/

/-- A conversion's code and instant, with how many in a row were outside and inside its window. -/
def State.ainTaken (s : State) (n code o i : Nat) : State :=
  { s with cur := { s.cur with ainCode := Tab.set 0 s.cur.ainCode n code, ainAt := Tab.set 0 s.cur.ainAt n s.ns,
                               ainOut := Tab.set 0 s.cur.ainOut n o, ainIn := Tab.set 0 s.cur.ainIn n i } }

/-- A code outside the window of its channel. -/
def State.AinOut (s : State) (n code : Nat) : Prop :=
  code < s.rd (AQ_AIN_CFG n) AQ_AIN_CFG_LO ∨ s.rd (AQ_AIN_CFG n) AQ_AIN_CFG_HI < code

section
variable {s : State} {n : Fin 16} {code : Fin 4096} {t : Nat}

theorem execAinConversion_outside (he : s.rdB (AQ_AIN_CFG n) AQ_AIN_CFG_EN = true) (ho : s.AinOut n code) :
    execAinConversion s n code t =
      if Tab.get 0 s.cur.ainOut n.val + 1 = s.rd (AQ_AIN_CFG n) AQ_AIN_CFG_PERS then
        .next (((s.at t).ainTaken n code (Tab.get 0 s.cur.ainOut n.val + 1) 0).ainWin n)
      else .next ((s.at t).ainTaken n code (Tab.get 0 s.cur.ainOut n.val + 1) 0) := by
  have out : decide (code.val < (s.at t).rd (AQ_AIN_CFG n) AQ_AIN_CFG_LO ∨ (s.at t).rd (AQ_AIN_CFG n) AQ_AIN_CFG_HI < code.val) =
      true := decide_eq_true ho
  unfold execAinConversion
  dsimp only
  rw [if_neg (by exact fun c => c he), out]
  by_cases h : Tab.get 0 s.cur.ainOut n.val + 1 = s.rd (AQ_AIN_CFG n) AQ_AIN_CFG_PERS
  · rw [if_pos h]
    exact if_pos ⟨rfl, h⟩
  · rw [if_neg h]
    exact (if_neg fun c => h c.2).trans (if_neg fun c => c.1 rfl)

theorem execAinConversion_inside (he : s.rdB (AQ_AIN_CFG n) AQ_AIN_CFG_EN = true) (ho : ¬ s.AinOut n code) :
    execAinConversion s n code t =
      if s.rd (AQ_AIN_CFG n) AQ_AIN_CFG_PERS ≤ Tab.get 0 s.cur.ainIn n.val + 1 then
        .next (((s.at t).ainTaken n code 0 (Tab.get 0 s.cur.ainIn n.val + 1)).ainSource n false)
      else .next ((s.at t).ainTaken n code 0 (Tab.get 0 s.cur.ainIn n.val + 1)) := by
  have out : decide (code.val < (s.at t).rd (AQ_AIN_CFG n) AQ_AIN_CFG_LO ∨ (s.at t).rd (AQ_AIN_CFG n) AQ_AIN_CFG_HI < code.val) =
      false := decide_eq_false ho
  unfold execAinConversion
  dsimp only
  rw [if_neg (by exact fun c => c he), out, if_neg (by exact fun c => absurd c.1 (by decide))]
  by_cases h : s.rd (AQ_AIN_CFG n) AQ_AIN_CFG_PERS ≤ Tab.get 0 s.cur.ainIn n.val + 1
  · rw [if_pos h]
    exact if_pos ⟨by decide, h⟩
  · rw [if_neg h]
    exact if_neg fun c => h c.2

/-- Whatever a conversion finds, its code and its instant are its channel's latest. -/
structure State.AinRead (n : Nat) (s : State) (code at_ : Nat) : Prop where
  code : Tab.get 0 s.cur.ainCode n = code
  at_ : Tab.get 0 s.cur.ainAt n = at_

theorem State.ainRead_ainTaken (s : State) (n code o i : Nat) : State.AinRead n (s.ainTaken n code o i) code s.ns :=
  ⟨Tab.get_set_same .., Tab.get_set_same ..⟩

theorem State.AinRead.of_cur {n code at_ : Nat} {s u : State} (h : State.AinRead n s code at_) (hc : u.cur.ainCode = s.cur.ainCode)
    (ha : u.cur.ainAt = s.cur.ainAt) : State.AinRead n u code at_ :=
  ⟨(congrArg (Tab.get 0 · n) hc).trans h.code, (congrArg (Tab.get 0 · n) ha).trans h.at_⟩

/-- A code outside its window for the PERS-th time in a row leaves the window; one inside clears source 18. -/
theorem execAinConversion_reads (he : s.rdB (AQ_AIN_CFG n) AQ_AIN_CFG_EN = true) : ∃ u, execAinConversion s n code t = .next u ∧
    State.AinRead n u code (s.at t).ns ∧
    (s.AinOut n code → Tab.get 0 s.cur.ainOut n.val + 1 = s.rd (AQ_AIN_CFG n) AQ_AIN_CFG_PERS → State.WinLeft n s u) ∧
    (¬ s.AinOut n code → s.rd (AQ_AIN_CFG n) AQ_AIN_CFG_PERS ≤ Tab.get 0 s.cur.ainIn n.val + 1 →
      Tab.get false u.cur.ainHeld n.val = false ∧ (Tab.get false s.cur.ainHeld n.val = true → u.Sent 18 n false)) := by
  by_cases ho : s.AinOut n code
  · rw [execAinConversion_outside he ho]
    have read := (s.at t).ainRead_ainTaken n code (Tab.get 0 s.cur.ainOut n.val + 1) 0
    split
    · refine ⟨_, rfl, read.of_cur (State.ainWin_keeps Cur.ainCode _ n rfl) (State.ainWin_keeps Cur.ainAt _ n rfl), fun _ _ => ?_,
        fun c => absurd ho c⟩
      exact (State.winLeft_ainWin _ n.val).before rfl rfl
    · next early => exact ⟨_, rfl, read, fun _ c => absurd c early, fun c => absurd ho c⟩
  · rw [execAinConversion_inside he ho]
    have read := (s.at t).ainRead_ainTaken n code 0 (Tab.get 0 s.cur.ainIn n.val + 1)
    split
    · refine ⟨_, rfl, read.of_cur (State.ainSource_keeps (·.cur.ainCode) _ n _ rfl) (State.ainSource_keeps (·.cur.ainAt) _ n _ rfl),
        fun c => absurd c ho, fun _ _ => ⟨State.held_ainSource .., fun h => State.sent_ainSource ?_⟩⟩
      exact fun c => absurd (h.symm.trans c) (by decide)
    · next early => exact ⟨_, rfl, read, fun c => absurd c ho, fun _ c => absurd c early⟩

end

end Sys2Proof.Machine
end

section
/-!
PROOF. Streams that age, the offsets of a quiet string and the current at an instant (R110, R117, R118).
-/

namespace Sys2Proof.Machine

/-! ## Stale streams (R110) -/

/-- A string whose stream turned stale, told to the supervisor. -/
def State.staleTold (s : State) (x : Nat) : State :=
  ((s.wrBit AQ_CUR_STAT x true).hit AQ_CUR_EVT AQ_CUR_EVT_STALE AQ_CUR_CNT0 AQ_CUR_CNT0_STALEN).raise srcAnalog EV_CUR_STALE [x]

theorem State.makeStale_string {s : State} {x : Nat} (hx : x < 12) (h : bit (s.rd AQ_CUR_STAT AQ_CUR_STAT_STALE) x = false) :
    s.makeStale x = (((s.staleTold x).stringSource 14 x (some x) true).adaptLoad).unknownSync x := by
  have own : staleBit x = x := if_pos hx
  unfold State.makeStale
  rw [own, if_neg (Bool.eq_false_iff.mp h)]
  exact if_pos hx

/-- What a string's stale stream changes beside the registers and the events: the sweep's mode and the trip block's inbox. -/
theorem State.adaptLoad_unknownSync_keeps {β : Type} (p : State → β) (s : State) (x : Nat)
    (hs : ∀ (s : State) (z : Sweep), p { s with swp := z } = p s)
    (hu : ∀ (s : State) on, p (({ s with cur := { s.cur with unknown := Tab.set false s.cur.unknown x on } } : State).stringSource 15
      x (some x) on) = p s) : p ((s.adaptLoad).unknownSync x) = p s :=
  (State.unknownSync_keeps p _ x (hu _)).trans (ite_keeps p (hs _ _) rfl)

theorem State.trip_adaptLoad (s : State) : s.adaptLoad.trip = s.trip := ite_keeps State.trip rfl rfl

theorem State.mode_adaptLoad (s : State) : s.adaptLoad.swp.mode = 0 := by
  unfold State.adaptLoad
  split
  · rfl
  · next h => exact Nat.eq_zero_of_not_pos h

/-- A string whose stream turns stale: its bit, EV_CUR_STALE, source 14, and the sweep at the load's rate. -/
theorem State.makeStale_marks {s : State} {x : Nat} (hx : x < 12) (h : bit (s.rd AQ_CUR_STAT AQ_CUR_STAT_STALE) x = false) :
    bit ((s.makeStale x).rd AQ_CUR_STAT AQ_CUR_STAT_STALE) x = true ∧ s.Raised (s.makeStale x) srcAnalog EV_CUR_STALE [x] ∧
      (s.makeStale x).Sent 14 x true ∧ (s.makeStale x).swp.mode = 0 := by
  rw [State.makeStale_string hx h]
  refine ⟨?_, State.raised_of_raise
    (s' := (s.wrBit AQ_CUR_STAT x true).hit AQ_CUR_EVT AQ_CUR_EVT_STALE AQ_CUR_CNT0 AQ_CUR_CNT0_STALEN) rfl ?_ ?_, ?_, ?_⟩
  · rw [State.adaptLoad_unknownSync_keeps (State.rd · AQ_CUR_STAT AQ_CUR_STAT_STALE) _ x (fun _ _ => rfl) fun _ _ => rfl]
    show bit ((s.staleTold x).rd AQ_CUR_STAT AQ_CUR_STAT_STALE) x = true
    unfold State.staleTold
    rw [State.rd_raise_low _ _ _ _ _ (by decide), State.rd_hit_ne _ _ _ _ (by decide) (by decide)]
    exact State.bit_rd_wrBit _ _ _ (Nat.lt_trans hx (by decide)) (Nat.zero_add x) (by omega)
  · exact State.adaptLoad_unknownSync_keeps State.led _ x (fun _ _ => rfl) fun _ _ => rfl
  · exact (State.adaptLoad_unknownSync_keeps State.ns _ x (fun _ _ => rfl) fun _ _ => rfl).trans (State.ns_raise ..)
  · exact ((State.sent_stringSource _ 14 x (some x) true).of_trip (State.trip_adaptLoad _)).unknownSync
  · rw [State.unknownSync_keeps (·.swp.mode) _ x fun _ => rfl, State.mode_adaptLoad]

theorem execStreamStale_old {s : State} {i : Fin 14} {t : Nat} (hi : i.val < 12)
    (he : s.rdB (AQ_CUR_SRC i) AQ_CUR_SRC_EN = true)
    (ho : Tab.get 0 s.cur.newest i.val * 1000 + 3 * s.strPer + 500 * us < Nat.max s.now t) :
    execStreamStale s i t = .next ((s.at t).makeStale i) := by
  unfold execStreamStale
  dsimp only
  rw [if_pos hi, if_pos hi]
  exact if_pos ⟨he, .inl (decide_eq_true ho)⟩

/-! ## Offsets (R117) -/

/-- The mean of a source over the time its string was quiet, in units of the offset registers. -/
def State.offMean (s : State) (x : Nat) : Int :=
  if Tab.get 0 s.cur.offN x = 0 then 0 else nearest (Tab.get 0 s.cur.offSum x) (10 * Tab.get 0 s.cur.offN x : Nat)

/-- The offsets of a quiet string written and told. -/
def State.offsetsTold (s : State) (r : Nat) : State :=
  ((s.wr (AQ_CUR_OFS r) AQ_CUR_OFS_SHOFS (wrapInt (s.offMean r) 16)).wr (AQ_CUR_OFS r) AQ_CUR_OFS_PHOFS
    (wrapInt (s.offMean (12 + r)) 16)).raise srcAnalog EV_CUR_OFFSET [r]

theorem State.shofs_offsetsTold (s : State) {r : Nat} (hr : r < 12) :
    (s.offsetsTold r).rd (AQ_CUR_OFS r) AQ_CUR_OFS_SHOFS = wrapInt (s.offMean r) 16 := by
  unfold State.offsetsTold
  rw [State.rd_raise_low _ _ _ _ _ (by unfold AQ_CUR_OFS; omega), State.rd_wr_apart _ _ _ _ _ (by decide) (by decide) (by decide),
    State.rd_wr_same _ _ _ _ (by decide)]
  exact Nat.mod_eq_of_lt (wrapInt_lt _ 16)

theorem State.phofs_offsetsTold (s : State) {r : Nat} (hr : r < 12) :
    (s.offsetsTold r).rd (AQ_CUR_OFS r) AQ_CUR_OFS_PHOFS = wrapInt (s.offMean (12 + r)) 16 := by
  unfold State.offsetsTold
  rw [State.rd_raise_low _ _ _ _ _ (by unfold AQ_CUR_OFS; omega), State.rd_wr_same _ _ _ _ (by decide)]
  exact Nat.mod_eq_of_lt (wrapInt_lt _ 16)

theorem State.raised_offsetsTold (s : State) (r : Nat) : s.Raised (s.offsetsTold r) srcAnalog EV_CUR_OFFSET [r] := by
  unfold State.offsetsTold
  exact State.raised_of_raise ((State.led_wr ..).trans (s.led_wr ..)) rfl (State.ns_raise ..)

/-- Offsets written after 1 s: what they read, their event, and the next second from now. -/
theorem execOffsetMeasure_writes {s : State} {r : Fin 12} {t t0 : Nat} (h : Tab.get none s.cur.offSince r.val = some t0)
    (hq : s.quiet r = true) (ht : t0 + sec ≤ Nat.max s.now t) : ∃ u, execOffsetMeasure s r t = .next u ∧
      u.regs = ((s.at t).offsetsTold r).regs ∧ u.stage = ((s.at t).offsetsTold r).stage ∧
      Tab.get none u.cur.offSince r.val = some (Nat.max s.now t) := by
  unfold execOffsetMeasure
  dsimp only
  rw [show Tab.get none (s.at t).cur.offSince r.val = _ from h]
  dsimp only
  refine ⟨_, if_pos ⟨hq, ht⟩, rfl, rfl, ?_⟩
  dsimp only
  exact Tab.get_set_same ..

/-! ## The current at an instant (R118) -/

/-- No sample of a ring is newer than an instant: none encloses it. -/
theorem State.currentOf_none {s : State} {x n : Nat} (h : ∀ e ∈ s.ringEntries x, e.1 ≤ n) (period : Nat) :
    (s.currentOf x n period).1 = none := by
  have later : ((s.ringEntries x).filter (fun e => e.2.2 == 1)).find? (fun e => decide (n < e.1)) = none :=
    List.find?_eq_none.mpr fun e he => by
      rw [decide_eq_true_iff]
      exact Nat.not_lt.mpr (h e (List.mem_of_mem_filter he))
  unfold State.currentOf
  dsimp only
  rw [later]
  split
  · next none => exact absurd none (by simp)
  · rfl

/-- A gap found in a ring, told. -/
def State.gapTold (s : State) (x : Nat) : State :=
  (s.hit AQ_CUR_EVT AQ_CUR_EVT_GAP AQ_CUR_CNT1 AQ_CUR_CNT1_GAPN).raise srcAnalog EV_CUR_GAP [x]

/-- The answer of ES, the gap told before it. -/
def State.answered (s : State) (gap : Bool) (x : Nat) (answer : Nat × Nat × Option Int) : State :=
  let s := if gap then s.gapTold x else s
  { s with cur := { s.cur with answer := some answer } }

theorem execCurrentAtInstant_eq (s : State) (r : Fin 12) (instant t : Nat) :
    execCurrentAtInstant s r instant t =
      let res := s.currentOf (s.selected r) instant (s.pathPeriod (s.selected r))
      .next (((s.at t).answered res.2 (s.selected r) (r.val, instant, res.1)).unknownSync r) := rfl

theorem State.gap_answered (s : State) (x r : Nat) (answer : Nat × Nat × Option Int) :
    ((s.answered true x answer).unknownSync r).rdB AQ_CUR_EVT AQ_CUR_EVT_GAP = true ∧
      s.Raised ((s.answered true x answer).unknownSync r) srcAnalog EV_CUR_GAP [x] := by
  refine ⟨?_, State.raised_of_raise (s' := s.hit AQ_CUR_EVT AQ_CUR_EVT_GAP AQ_CUR_CNT1 AQ_CUR_CNT1_GAPN) rfl ?_ ?_⟩
  · rw [State.unknownSync_keeps (State.rdB · AQ_CUR_EVT AQ_CUR_EVT_GAP) _ r fun _ => rfl]
    show (s.gapTold x).rdB AQ_CUR_EVT AQ_CUR_EVT_GAP = true
    unfold State.gapTold
    rw [State.rdB_raise_low _ _ _ _ _ (by decide), State.rdB_hit_same _ _ _ (by decide) (by decide) (by decide)]
  · exact State.unknownSync_keeps State.led _ r fun _ => rfl
  · exact (State.unknownSync_keeps State.ns _ r fun _ => rfl).trans (State.ns_raise ..)

end Sys2Proof.Machine
end

section
/-!
PROOF. The cross-check of the two current paths over a 1 ms window: each string's check leaves the others alone (R115, R116).
-/

namespace Sys2Proof.Machine

/-! ## What the check of one string leaves of another -/

/-- Writing a bit leaves every other bit of its register. -/
theorem State.rdB_wrBit_other (s : State) (a : Nat) {i j : Nat} (b : Bool) (hi : i < 32) (hj : j < 32) (h : j ≠ i) :
    (s.wrBit a i b).rdB a ⟨j, j⟩ = s.rdB a ⟨j, j⟩ := by
  have apart : i + 1 ≤ j ∨ j + 1 ≤ i := by omega
  exact congrArg (· == 1) (s.rd_wr_apart a ⟨i, i⟩ ⟨j, j⟩ _ (by rw [Fld.width_bit]; exact hi) (by rw [Fld.width_bit]; exact hj)
    (by rw [Fld.width_bit, Fld.width_bit]; exact apart))

/-- From one state to another nothing that the cross-check of string `r` reads or sets has changed; XCHK may have been set and
verdicts sent. -/
structure State.XKept (r : Nat) (s u : State) : Prop where
  fails : Tab.get 0 u.cur.xfails r = Tab.get 0 s.cur.xfails r
  sums : u.cur.winSum = s.cur.winSum
  counts : u.cur.winN = s.cur.winN
  bads : u.cur.winBad = s.cur.winBad
  stale : u.rd AQ_CUR_STAT AQ_CUR_STAT_STALE = s.rd AQ_CUR_STAT AQ_CUR_STAT_STALE
  xfail : bit (u.rd AQ_CUR_STAT AQ_CUR_STAT_XFAIL) r = bit (s.rd AQ_CUR_STAT AQ_CUR_STAT_XFAIL) r
  regs : ∀ a, a ≠ AQ_CUR_STAT → a ≠ AQ_CUR_EVT → a ≠ AQ_CUR_CNT0 → a < LEDGER_EVT → u.reg a = s.reg a
  flag : s.rdB AQ_CUR_EVT AQ_CUR_EVT_XCHK = true → u.rdB AQ_CUR_EVT AQ_CUR_EVT_XCHK = true
  sent : ∀ {k key on}, s.Sent k key on → u.Sent k key on

/-- The count of a string's windows in a row that failed. -/
def State.setXfails (s : State) (r k : Nat) : State := { s with cur := { s.cur with xfails := Tab.set 0 s.cur.xfails r k } }

namespace State.XKept

variable {r q : Nat} {s u z : State}

theorem refl (r : Nat) (s : State) : XKept r s s := ⟨rfl, rfl, rfl, rfl, rfl, rfl, fun _ _ _ _ _ => rfl, id, id⟩

theorem trans (h : XKept r s u) (k : XKept r u z) : XKept r s z :=
  ⟨k.fails.trans h.fails, k.sums.trans h.sums, k.counts.trans h.counts, k.bads.trans h.bads, k.stale.trans h.stale,
    k.xfail.trans h.xfail, fun a a1 a2 a3 a4 => (k.regs a a1 a2 a3 a4).trans (h.regs a a1 a2 a3 a4), k.flag ∘ h.flag,
    fun sent => k.sent (h.sent sent)⟩

theorem setXfails {k : Nat} (h : XKept r s u) (hq : r ≠ q) : XKept r s (u.setXfails q k) :=
  h.trans ⟨Tab.get_set_ne _ _ _ _ hq, rfl, rfl, rfl, rfl, rfl, fun _ _ _ _ _ => rfl, id, id⟩

theorem wrBit {b : Bool} (h : XKept r s u) (hr : r < 12) (hq : q < 12) (ne : r ≠ q) : XKept r s (u.wrBit AQ_CUR_STAT (16 + q) b) := by
  refine h.trans ⟨rfl, rfl, rfl, rfl, ?_, ?_, fun a ha _ _ _ => State.reg_wr_ne _ _ _ ha, fun flag => ?_, id⟩
  · exact State.rd_wr_apart _ _ _ _ _ (by rw [Fld.width_bit]; show 16 + q + 1 ≤ 32; omega) (by decide)
      (.inr (show 14 ≤ 16 + q by omega))
  · rw [State.bit_rd _ _ _ hr, State.bit_rd _ _ _ hr]
    exact State.rdB_wrBit_other _ _ b (show 16 + q < 32 by omega) (show 16 + r < 32 by omega)
      (show 16 + r ≠ 16 + q by omega)
  · rw [← flag]
    exact State.rdB_wr_ne _ _ _ _ (by decide)

theorem told {ws : List Nat} (h : XKept r s u) : XKept r s
    ((u.hit AQ_CUR_EVT AQ_CUR_EVT_XCHK AQ_CUR_CNT0 AQ_CUR_CNT0_XCHKN).raise srcAnalog EV_CUR_XCHK ws) := by
  have stat (f : Fld) : ((u.hit AQ_CUR_EVT AQ_CUR_EVT_XCHK AQ_CUR_CNT0 AQ_CUR_CNT0_XCHKN).raise srcAnalog EV_CUR_XCHK ws).rd
      AQ_CUR_STAT f = u.rd AQ_CUR_STAT f := by
    rw [State.rd_raise_low _ _ _ _ _ (by decide), State.rd_hit_ne _ _ _ _ (by decide) (by decide)]
  have cur : ((u.hit AQ_CUR_EVT AQ_CUR_EVT_XCHK AQ_CUR_CNT0 AQ_CUR_CNT0_XCHKN).raise srcAnalog EV_CUR_XCHK ws).cur = u.cur :=
    State.cur_raise ..
  refine h.trans ⟨by rw [cur], by rw [cur], by rw [cur], by rw [cur], stat _, by rw [stat], fun a _ he hc hl => ?_, fun _ => ?_,
    fun sent => sent.of_trip (State.trip_raise ..)⟩
  · rw [State.reg_raise _ _ _ _ (by omega) (by unfold LEDGER_CNT; unfold LEDGER_EVT at hl; omega), State.reg_hit_ne _ _ _ he hc]
  · rw [State.rdB_raise_low _ _ _ _ _ (by decide), State.rdB_hit_same _ _ _ (by decide) (by decide) (by decide)]

theorem parkRequest (h : XKept r s u) : XKept r s (u.parkRequest q) :=
  h.trans ⟨rfl, rfl, rfl, rfl, rfl, rfl, fun _ _ _ _ _ => rfl, id, State.Sent.stringSource⟩

theorem foldl {l : List Nat} {f : State → Nat → State} (hl : ∀ q ∈ l, ∀ u, XKept r u (f u q)) (s : State) :
    XKept r s (l.foldl f s) := by
  induction l generalizing s with
  | nil => exact refl r s
  | cons q l ih => exact (hl q List.mem_cons_self s).trans (ih (fun p hp => hl p (List.mem_cons_of_mem q hp)) (f s q))

end State.XKept

/-! ## The check of one string -/

/-- The window of a string is checked: both paths delivered samples, and none of them is flagged (R116). -/
structure State.XChecked (r : Nat) (s : State) : Prop where
  enabled : s.rdB (AQ_CUR_SRC r) AQ_CUR_SRC_EN = true
  regulated : s.sregEn r = true
  fresh : bit (s.rd AQ_CUR_STAT AQ_CUR_STAT_STALE) r = false
  shunt : Tab.get 0 s.cur.winN r ≠ 0
  phases : Tab.get 0 s.cur.winN (12 + r) ≠ 0
  shuntGood : Tab.get false s.cur.winBad r = false
  phasesGood : Tab.get false s.cur.winBad (12 + r) = false

/-- The means of a string's two paths differ beyond the tolerance (R115). -/
def State.XFails (r : Nat) (s : State) : Prop :=
  s.rd AQ_CUR_XCFG AQ_CUR_XCFG_XABS * 100000 + s.rd AQ_CUR_XCFG AQ_CUR_XCFG_XPCT * (s.winMean r).natAbs <
    1000 * (s.winMean r - s.winMean (12 + r)).natAbs

/-- The tenth window in a row that fails: XFAIL, XCHK, the event and the park request of the string. -/
def State.xTripped (s : State) (r : Nat) (ws : List Nat) : State :=
  (((s.wrBit AQ_CUR_STAT (16 + r) true).hit AQ_CUR_EVT AQ_CUR_EVT_XCHK AQ_CUR_CNT0 AQ_CUR_CNT0_XCHKN).raise srcAnalog EV_CUR_XCHK
    ws).parkRequest r

/-- Every way the check of a string can end (R115, R116). -/
inductive State.XEnd (s : State) (r : Nat) : State → Prop
  | absent : XEnd s r s
  | counted (k : Nat) : XEnd s r (s.setXfails r k)
  | tripped (k : Nat) (ws : List Nat) : XEnd s r ((s.setXfails r k).xTripped r ws)
  | passed : XEnd s r ((s.setXfails r 0).wrBit AQ_CUR_STAT (16 + r) false)

theorem State.xEnd_xcheck (s : State) (r : Nat) : State.XEnd s r (s.xcheck r) := by
  unfold State.xcheck
  extract_lets
  split
  · exact .absent
  · split
    · exact .counted 0
    · split
      · split
        · exact .tripped _ _
        · exact .counted _
      · exact .passed

theorem State.xKept_xcheck {r q : Nat} (hr : r < 12) (hq : q < 12) (h : r ≠ q) (s : State) : State.XKept r s (s.xcheck q) := by
  have counted (k : Nat) : State.XKept r s (s.setXfails q k) := (State.XKept.refl r s).setXfails h
  have ends := s.xEnd_xcheck q
  generalize s.xcheck q = u at ends ⊢
  cases ends with
  | absent => exact .refl r s
  | counted k => exact counted k
  | tripped k ws => exact ((counted k).wrBit hr hq h).told.parkRequest
  | passed => exact (counted 0).wrBit hr hq h

section
variable {r : Nat} {s u z : State}

/-- A window that is checked is not skipped (R116). -/
theorem State.XChecked.seen (h : State.XChecked r s) :
    ¬ (bit (s.rd AQ_CUR_STAT AQ_CUR_STAT_STALE) r || Tab.get 0 s.cur.winN r == 0 || Tab.get 0 s.cur.winN (12 + r) == 0 ||
      Tab.get false s.cur.winBad r || Tab.get false s.cur.winBad (12 + r)) = true := by
  rw [h.fresh, h.shuntGood, h.phasesGood, beq_false_of_ne h.shunt, beq_false_of_ne h.phases]
  decide

theorem State.xcheck_fails (h : State.XChecked r s) (hf : s.XFails r) : s.xcheck r =
    if Tab.get 0 s.cur.xfails r + 1 = 10 ∧ ¬ bit (s.rd AQ_CUR_STAT AQ_CUR_STAT_XFAIL) r = true then
      (s.setXfails r (Tab.get 0 s.cur.xfails r + 1)).xTripped r [r, wrapInt (s.winMean r) 32, wrapInt (s.winMean (12 + r)) 32]
    else s.setXfails r (Tab.get 0 s.cur.xfails r + 1) := by
  unfold State.xcheck
  dsimp only
  rw [if_neg (by rw [h.enabled, h.regulated]; decide), if_neg h.seen]
  exact if_pos hf

theorem State.xcheck_passes (h : State.XChecked r s) (hf : ¬ s.XFails r) :
    s.xcheck r = (s.setXfails r 0).wrBit AQ_CUR_STAT (16 + r) false := by
  unfold State.xcheck
  dsimp only
  rw [if_neg (by rw [h.enabled, h.regulated]; decide), if_neg h.seen]
  exact if_neg hf

/-- What a checked window leaves of its string (R115): a passing one clears XFAIL and the count, a failing one counts, and the
tenth sets XFAIL and XCHK and asks for parking. -/
structure State.XJudged (r : Nat) (s u : State) : Prop where
  pass : ¬ s.XFails r → bit (u.rd AQ_CUR_STAT AQ_CUR_STAT_XFAIL) r = false ∧ Tab.get 0 u.cur.xfails r = 0
  fail : s.XFails r → Tab.get 0 u.cur.xfails r = Tab.get 0 s.cur.xfails r + 1
  tenth : s.XFails r → Tab.get 0 s.cur.xfails r = 9 → bit (s.rd AQ_CUR_STAT AQ_CUR_STAT_XFAIL) r = false →
    bit (u.rd AQ_CUR_STAT AQ_CUR_STAT_XFAIL) r = true ∧ u.rdB AQ_CUR_EVT AQ_CUR_EVT_XCHK = true ∧ u.Sent 24 r true

theorem State.xfails_setXfails (s : State) (r k : Nat) : Tab.get 0 (s.setXfails r k).cur.xfails r = k := Tab.get_set_same ..

theorem State.cur_xTripped (s : State) (r : Nat) (ws : List Nat) : (s.xTripped r ws).cur = s.cur := State.cur_raise ..

/-- A string found failing: its bit, XCHK and its park request. -/
theorem State.xTripped_marks (s : State) {r : Nat} (hr : r < 12) (ws : List Nat) :
    bit ((s.xTripped r ws).rd AQ_CUR_STAT AQ_CUR_STAT_XFAIL) r = true ∧
      (s.xTripped r ws).rdB AQ_CUR_EVT AQ_CUR_EVT_XCHK = true ∧ (s.xTripped r ws).Sent 24 r true := by
  let told := ((s.wrBit AQ_CUR_STAT (16 + r) true).hit AQ_CUR_EVT AQ_CUR_EVT_XCHK AQ_CUR_CNT0 AQ_CUR_CNT0_XCHKN).raise srcAnalog
    EV_CUR_XCHK ws
  refine ⟨?_, ?_, State.sent_stringSource told 24 r (some r) true⟩
  · show bit (told.rd AQ_CUR_STAT AQ_CUR_STAT_XFAIL) r = true
    rw [State.rd_raise_low _ _ _ _ _ (by decide), State.rd_hit_ne _ _ _ _ (by decide) (by decide)]
    exact State.bit_rd_wrBit _ _ _ hr rfl (by omega)
  · show told.rdB AQ_CUR_EVT AQ_CUR_EVT_XCHK = true
    rw [State.rdB_raise_low _ _ _ _ _ (by decide), State.rdB_hit_same _ _ _ (by decide) (by decide) (by decide)]

theorem State.xJudged_xcheck (hr : r < 12) (h : State.XChecked r s) : State.XJudged r s (s.xcheck r) := by
  by_cases hf : s.XFails r
  · rw [State.xcheck_fails h hf]
    split
    · refine ⟨fun c => absurd hf c, fun _ => ?_, fun _ _ _ => State.xTripped_marks _ hr _⟩
      rw [State.cur_xTripped, State.xfails_setXfails]
    · next early =>
      refine ⟨fun c => absurd hf c, fun _ => s.xfails_setXfails r _, fun _ nine clear => absurd ⟨?_, ?_⟩ early⟩
      · rw [nine]
      · exact Bool.eq_false_iff.mp clear
  · rw [State.xcheck_passes h hf]
    exact ⟨fun _ => ⟨State.bit_rd_wrBit _ _ _ hr rfl (by omega), s.xfails_setXfails r 0⟩, fun c => absurd c hf, fun c => absurd c hf⟩

/-! ## All strings' checks -/

theorem State.XKept.winMean (h : State.XKept r s u) (x : Nat) : u.winMean x = s.winMean x := by
  unfold State.winMean
  rw [h.sums, h.counts]

theorem State.XKept.xFails (h : State.XKept r s u) : u.XFails r ↔ s.XFails r := by
  have cfg (f : Fld) : u.rd AQ_CUR_XCFG f = s.rd AQ_CUR_XCFG f := by
    unfold State.rd
    rw [h.regs AQ_CUR_XCFG (by decide) (by decide) (by decide) (by decide)]
  unfold State.XFails
  rw [cfg, cfg, h.winMean, h.winMean]

theorem State.XChecked.after (h : State.XChecked r s) (hr : r < 12) (k : State.XKept r s u) : State.XChecked r u := by
  obtain ⟨enabled, regulated, fresh, shunt, phases, shuntGood, phasesGood⟩ := h
  have source : u.reg (AQ_CUR_SRC r) = s.reg (AQ_CUR_SRC r) :=
    k.regs _ (by unfold AQ_CUR_SRC AQ_CUR_STAT; omega) (by unfold AQ_CUR_SRC AQ_CUR_EVT; omega)
      (by unfold AQ_CUR_SRC AQ_CUR_CNT0; omega) (by unfold AQ_CUR_SRC LEDGER_EVT; omega)
  have regulator : u.reg (PW_SREG_CFG r) = s.reg (PW_SREG_CFG r) :=
    k.regs _ (by unfold PW_SREG_CFG AQ_CUR_STAT; omega) (by unfold PW_SREG_CFG AQ_CUR_EVT; omega)
      (by unfold PW_SREG_CFG AQ_CUR_CNT0; omega) (by unfold PW_SREG_CFG LEDGER_EVT; omega)
  refine ⟨?_, ?_, k.stale ▸ fresh, k.counts ▸ shunt, k.counts ▸ phases, k.bads ▸ shuntGood, k.bads ▸ phasesGood⟩
  · rw [← enabled]
    unfold State.rdB State.rd
    rw [source]
  · rw [← regulated]
    unfold State.sregEn State.rdB State.rd
    rw [regulator]

theorem State.XJudged.before (h : State.XJudged r u z) (k : State.XKept r s u) : State.XJudged r s z := by
  obtain ⟨pass, fail, tenth⟩ := h
  rw [k.xFails] at pass fail tenth
  rw [k.fails] at fail tenth
  rw [k.xfail] at tenth
  exact ⟨pass, fail, tenth⟩

theorem State.XJudged.after (h : State.XJudged r s u) (k : State.XKept r u z) : State.XJudged r s z :=
  ⟨fun c => ⟨k.xfail.trans (h.pass c).1, k.fails.trans (h.pass c).2⟩, fun c => k.fails.trans (h.fail c), fun c nine clear => by
    obtain ⟨bit, flag, sent⟩ := h.tenth c nine clear
    exact ⟨k.xfail.trans bit, k.flag flag, k.sent sent⟩⟩

/-- Each string's check stands once every string is checked. -/
theorem State.xJudged_all (hr : r < 12) (h : State.XChecked r s) :
    State.XJudged r s ((List.range 12).foldl (fun s r => s.xcheck r) s) := by
  have distinct : (List.range 12).Nodup := List.nodup_range
  have below {q : Nat} (hq : q ∈ List.range 12) : q < 12 := List.mem_range.mp hq
  obtain ⟨before, later, split⟩ := List.append_of_mem (List.mem_range.mpr hr)
  rw [split] at distinct below ⊢
  obtain ⟨-, tail, disjoint⟩ := List.nodup_append.mp distinct
  rw [List.foldl_append, List.foldl_cons]
  have kept := State.XKept.foldl (r := r) (l := before) (f := fun s q => s.xcheck q) (fun q hq u =>
    State.xKept_xcheck hr (below (List.mem_append_left _ hq)) (fun e => disjoint q hq r List.mem_cons_self e.symm) u) s
  refine ((State.xJudged_xcheck hr (h.after hr kept)).before kept).after ?_
  exact .foldl (fun q hq u => State.xKept_xcheck hr (below (List.mem_append_right _ (List.mem_cons_of_mem r hq)))
    (fun e => (List.nodup_cons.mp tail).1 (e ▸ hq)) u) _

end

theorem execXchkWindowEnd_eq (s : State) (t : Nat) : execXchkWindowEnd s t =
    let u := (List.range 12).foldl (fun s r => s.xcheck r) (s.at t)
    .next { u with cur := { u.cur with winSum := [], winN := [], winBad := [] } } := rfl

end Sys2Proof.Machine
end

section
/-!
PROOF. O40: the current paths are sampled, checked and compared.
-/

open Sys2Proof Sys2Proof.Machine

/-- Settles O40: each command is one of the operations above, whose marks hold whatever else is told after them. -/
theorem currentsAreSampledCheckedAndCompared : Obligations.CurrentsAreSampledCheckedAndCompared := by
  unfold Obligations.CurrentsAreSampledCheckedAndCompared
  intro s t
  dsimp only
  refine ⟨?decimator, ?pdat, ?phaseSum, ?aic, ?ain, ?ainTimeout, ?stale, ?window, ?offsets, ?instant⟩
  case decimator =>
    intro i acc
    obtain ⟨u, runs, outs, fails⟩ := execPhaseDecimatorOutput_keeps s i acc t
    refine ⟨u, runs, outs, fun beyond third => fails ?_⟩
    unfold State.overRun
    dsimp only
    rw [decide_eq_true beyond, third]
    rfl
  case pdat =>
    intro i
    refine ⟨_, execPdatNoTransition_eq s i t, ?_, fun sound => ?_⟩
    · rw [State.phase_unknownSyncOf, State.senseFail_phaseSenseFail]
    · rw [State.rdB_unknownSyncOf]
      exact State.phsense_phaseSenseFail (s := s.at t) sound
  case phaseSum =>
    intro r stamp v rest first enclosed
    obtain ⟨period, runs⟩ := execPhaseSumWrite_complete (t := t) first enclosed
    obtain ⟨sums, wrote⟩ := (s.at t).sumWritten_wrote r stamp (s.phaseSum r stamp v) (s.sumBad r) period rest
    exact ⟨_, runs, sums, wrote.stamp, wrote.value, wrote.flags, wrote.next⟩
  case aic =>
    intro i code enabled low high
    refine ⟨fun other => ?_, fun source => execAicSample_source enabled low high source⟩
    have wrote := (s.at t).wrote_aicTaken i code t
    refine ⟨_, (execAicSample_taken enabled low high).trans (if_pos other),
      ⟨wrote.stamp, wrote.value, wrote.flags, wrote.next⟩, fun big three sound => ?_⟩
    exact State.aicTaken_fourth (s := s.at t) big three sound enabled
  case ain =>
    intro i code enabled
    obtain ⟨u, runs, read, outside, inside⟩ := execAinConversion_reads (code := code) (t := t) enabled
    refine ⟨u, runs, read.code, read.at_, fun out pers => ?_, inside⟩
    obtain ⟨flag, event, held, told⟩ := outside out pers
    exact ⟨flag, event, held, told⟩
  case ainTimeout =>
    intro i
    obtain ⟨flag, event, held, -⟩ := (s.at t).winLeft_ainWin i
    exact ⟨_, rfl, congrArg (Tab.get 0 · i.val) (State.ainWin_keeps Cur.ainCode (s.at t) i rfl), flag, event, held⟩
  case stale =>
    intro i string enabled fresh old
    exact ⟨_, execStreamStale_old string enabled old, State.makeStale_marks (s := s.at t) string fresh⟩
  case window =>
    refine ⟨_, execXchkWindowEnd_eq s t, rfl, rfl, rfl, ?_⟩
    intro r enabled regulated fresh shunt phases shuntGood phasesGood
    obtain ⟨pass, fail, tenth⟩ := State.xJudged_all (s := s.at t) r.isLt
      ⟨enabled, regulated, fresh, shunt, phases, shuntGood, phasesGood⟩
    exact ⟨pass, fail, tenth⟩
  case offsets =>
    intro r t0 since quiet due
    obtain ⟨u, runs, regs, stage, again⟩ := execOffsetMeasure_writes since quiet due
    have reads (f : Fld) : u.rd (AQ_CUR_OFS r) f = ((s.at t).offsetsTold r).rd (AQ_CUR_OFS r) f := by
      unfold State.rd State.reg
      rw [regs]
    refine ⟨u, runs, ((s.at t).raised_offsetsTold r).of_stage stage, ?_, ?_, again⟩
    · rw [reads]
      exact State.shofs_offsetsTold _ r.isLt
    · rw [reads]
      exact State.phofs_offsetsTold _ r.isLt
  case instant =>
    intro r instant
    refine ⟨_, execCurrentAtInstant_eq s r instant t, ?_, fun past => State.currentOf_none past _, fun gap => ?_⟩
    · exact State.unknownSync_keeps (·.cur.answer) _ r fun _ => rfl
    · rw [gap]
      exact State.gap_answered (s.at t) ..
end

section
/-!
PROOF. The trip block's commands: what an admitted write of the power region leads to, and what a clear, a request of the program,
a discharge limit and the contactor commands do to their string (R127, R131, R134, R139, R140).
-/

namespace Sys2Proof.Machine

/-! ## Admitted writes of the power region's free registers (R513) -/

/-- A register of the power region that no configuration gate guards and that is no half of a pair. -/
structure PlainPower (a : Nat) : Prop where
  free : freeReg a = true
  ledger : a ≠ LEDGER_CTL
  whole : writePair a = none
  wholeLow : writePairLow a = none
  region : a / 0x1000000 = 0x45

theorem plainPower_tripClr : PlainPower PW_TRIP_CLR := by constructor <;> decide
theorem plainPower_tripReq : PlainPower PW_TRIP_REQ := by constructor <;> decide
theorem plainPower_conCmd : PlainPower PW_CON_CMD := by constructor <;> decide
theorem plainPower_pchCtl : PlainPower PW_PCH_CTL := by constructor <;> decide
theorem plainPower_dlimDis (r : Fin 12) : PlainPower (PW_DLIM_DIS r) := by constructor <;> decide +revert

/-- The register takes the merged word, and the effects of the write follow. -/
theorem PlainPower.written {s : State} {src a v t : Nat} {row : RegRow} (p : PlainPower a) (h : (s.at t).Admits a v row) :
    writeReg s src a v t = .next ((((s.at t).setReg a (mergeWord a row (s.reg a) (BitVec.ofNat 32 v))).effPW a v
      (s.reg a)).busAnswer 0 false) := by
  obtain ⟨u, effect, written⟩ := State.writeReg_plain (src := src) h p.free p.ledger p.whole p.wholeLow
  rw [written, effect, State.writeEffect_pw _ _ _ p.region]
  rfl

/-- An RW field of a register reads as it was written (R3). -/
theorem get_mergeWord_rw {a : Nat} {row : RegRow} {f : FieldDesc} (h : regRow? a = some row) (hc : a ≠ PW_CON_STAT)
    (hl : a ≠ LEDGER_CTL) (hf : (regRow? a).all (fun row => row.fields.contains f) = true) (hrw : f.acc = .rw) (old w : Word) :
    f.fld.get (mergeWord a row old w) = f.fld.get w := by
  rw [h] at hf
  have mem : f ∈ row.fields := List.contains_iff_mem.mp hf
  rw [get_mergeWord h hc hl old w mem]
  exact get_mergeField_rw old (RegRow.field_fits (regRow?_fieldsApart h) f mem) hrw

theorem State.effPW_tripClr (s : State) (v : Nat) (old : Word) : s.effPW PW_TRIP_CLR v old = s.tripClr v := rfl
theorem State.effPW_tripReq (s : State) (v : Nat) (old : Word) : s.effPW PW_TRIP_REQ v old = s.tripReq v := rfl
theorem State.effPW_conCmd (s : State) (v : Nat) (old : Word) :
    s.effPW PW_CON_CMD v old = (s.conOpen (v / 65536 % 4096)).conClose (v % 4096) := rfl
theorem State.effPW_pchCtl (s : State) (v : Nat) (old : Word) : s.effPW PW_PCH_CTL v old = s.effPch v := rfl

theorem State.effPW_dlimDis (s : State) (r : Fin 12) (v : Nat) (old : Word) :
    s.effPW (PW_DLIM_DIS r) v old = s.dlimWritten r := by
  have apart : PW_DLIM_DIS r / 0x100000 ≠ 0x451 ∧ PW_DLIM_DIS r ≠ PW_TRIP_REQ ∧ PW_DLIM_DIS r ≠ PW_TRIP_CLR ∧
      PW_DLIM_DIS r ≠ PW_CON_CMD ∧ PW_DLIM_DIS r ≠ PW_CON_STAT ∧ PW_DLIM_DIS r ≠ PW_PCH_CTL ∧ PW_DLIM_DIS r ≠ PW_EXC_CTL ∧
      PW_DLIM_DIS r ≠ PW_LS_CLR ∧ inArray (PW_DLIM_DIS r) (PW_LS_CFG 0) 16 24 = false ∧
      inArray (PW_DLIM_DIS r) (PW_DLIM_DIS 0) 8 12 = true ∧ (PW_DLIM_DIS r - PW_DLIM_DIS 0) / 8 = r := by decide +revert
  obtain ⟨gate, req, clr, con, stat, pch, exc, ls, cfg, own, place⟩ := apart
  unfold State.effPW
  rw [if_neg gate, if_neg req, if_neg clr, if_neg con, if_neg stat, if_neg pch, if_neg exc, if_neg ls,
    if_neg (Bool.eq_false_iff.mp cfg), if_pos own, place]

/-- The strings of a mask of one string. -/
theorem strings_two_pow (r : Fin 12) : (List.range 12).filter (fun q => bit (2 ^ r.val) q) = [r.val] := by decide +revert
theorem maskStrings_two_pow (r : Fin 12) : maskStrings (2 ^ r.val) = [r.val] := strings_two_pow r

/-- Asking for a bit that is asked for already leaves the word. -/
theorem ask_two_pow (i : Nat) : 2 ^ i + (1 - 2 ^ i / 2 ^ i % 2) * 2 ^ i = 2 ^ i := by
  rw [Nat.div_self (by positivity)]
  exact Nat.add_eq_left.mpr (Nat.zero_mul _)

theorem State.rd_setReg_ne (s : State) {a b : Nat} (w : Word) (f : Fld) (h : a ≠ b) : (s.setReg b w).rd a f = s.rd a f := by
  unfold State.rd
  rw [State.reg_setReg_ne _ _ h]

theorem State.tstr_wr (s : State) (a : Nat) (f : Fld) (v r : Nat) : (s.wr a f v).tstr r = s.tstr r := rfl
theorem State.tstr_stringSource (s : State) (k key : Nat) (native : Option Nat) (on : Bool) (r : Nat) :
    (s.stringSource k key native on).tstr r = s.tstr r := rfl

/-! ## What the answer of the bus leaves -/

section
variable (s : State) (n : Nat) (e : Bool)

theorem State.trip_busAnswer : (s.busAnswer n e).trip = s.trip := rfl
theorem State.tstr_busAnswer (r : Nat) : (s.busAnswer n e).tstr r = s.tstr r := rfl
theorem State.reg_busAnswer (a : Nat) : (s.busAnswer n e).reg a = s.reg a := rfl
theorem State.rd_busAnswer (a : Nat) (f : Fld) : (s.busAnswer n e).rd a f = s.rd a f := rfl
theorem State.sregMode_busAnswer (r : Nat) : (s.busAnswer n e).sregMode r = s.sregMode r := rfl

end

theorem State.Raised.busAnswer {s u : State} {n src code : Nat} {e : Bool} {ws : List Nat} (h : s.Raised u src code ws) :
    s.Raised (u.busAnswer n e) src code ws := h

/-! ## Clearing (R131) -/

/-- The latch, the action and the opening of a string ended. -/
def TripStr.cleared (x : TripStr) : TripStr := { x with latch := none, act := 0, episode := none, opens := false }

/-- A string freed: latch, action and opening ended, its gates released, the orphan sequence over (R131, R149). -/
def State.freed (s : State) (r : Nat) : State :=
  let u := (s.updTstr r TripStr.cleared).inhibitString r false
  { u with trip := { u.trip with orphan := false } }

theorem State.tstr_freed (s : State) (r q : Nat) : (s.freed r).tstr q = (s.updTstr r TripStr.cleared).tstr q :=
  State.tstr_of_trip (State.trip_inhibitString ..) q

/-- Releasing a string with its channel off frees it and no more, in the trip block. -/
theorem State.trip_release_off {s : State} {r : Nat} (h : (s.tstr r).hc = false) : (s.release r).trip = (s.freed r).trip := by
  have off : ¬ ((s.freed r).tstr r).hc = true := by
    rw [State.tstr_freed, State.tstr_updTstr_same]
    exact Bool.eq_false_iff.mp h
  unfold State.release
  dsimp only
  rw [State.trip_alertSync, State.trip_raise, if_neg (by exact off)]
  rfl

/-- The latch, the action and the opening end, and the other strings stand. -/
theorem State.release_off {s : State} {r : Nat} (h : (s.tstr r).hc = false) :
    (s.release r).tstr r = (s.tstr r).cleared ∧ (s.release r).trip.orphan = false ∧
      ∀ q, q ≠ r → (s.release r).tstr q = s.tstr q := by
  have trip := State.trip_release_off h
  refine ⟨?_, congrArg Trip.orphan trip, fun q hq => ?_⟩
  · rw [State.tstr_of_trip trip, State.tstr_freed, State.tstr_updTstr_same]
  · rw [State.tstr_of_trip trip, State.tstr_freed, State.tstr_updTstr_ne _ _ hq]

theorem State.tripClr_one {s : State} {r : Fin 12} (h : (s.tstr r).latch ≠ none) : s.tripClr (2 ^ r.val) = s.release r := by
  show (maskStrings (2 ^ r.val)).foldl _ s = _
  rw [maskStrings_two_pow]
  exact if_neg h

/-! ## The program's request (R127) -/

theorem State.tripReq_off {s : State} (h : s.rdB (PW_TRIP_SRC 28) PW_TRIP_SRC_EN = false) (v : Nat) : s.tripReq v = s :=
  if_pos (Bool.eq_false_iff.mp h)

/-- The one active source inhibits its string, in NORMAL and unlatched, while no pre-charge runs (R129). -/
theorem State.evalString_inhibits {s : State} {r : Nat} {a : ActiveSrc} (ha : s.trip.active = [a])
    (hb : bit a.strings r = true) (h4 : a.act = 4) (hp : s.trip.pch.step = 0) (hc : (s.tstr r).act < 4)
    (hl : (s.tstr r).latch = none) (hn : (s.tstr r).st = .normal) :
    (((s.evalDerate r).evalString r).tstr r).st = .inhibited ∧ (((s.evalDerate r).evalString r).tstr r).act = 4 ∧
      (((s.evalDerate r).evalString r).tstr r).latch = some (4, a.src) := by
  have off : s.trip.active.any (fun a => bit a.strings r && a.act == 1) = false := by
    rw [ha, List.any_cons, List.any_nil, h4, hb]
    rfl
  obtain ⟨st, latch, act⟩ := State.tstr_evalDerate_off off
  have judged : StringsOnly s (s.evalDerate r) := (StringsOnly.refl s).evalDerate
  have top := State.topAct_one (judged.active.trans ha) hb h4 (latch.trans hl)
  have starts : (s.evalDerate r).evalString r = (s.evalDerate r).startAct r 4 a.src true := by
    unfold State.evalString
    dsimp only
    rw [top]
    exact if_pos ⟨(by decide : 2 ≤ 4), Nat.lt_of_le_of_lt act hc⟩
  rw [starts]
  exact (State.startAct_inhibit (by rw [judged.pch, hp]) (st.trans hn)).2

/-- A string stands inhibited under a latched source, and nothing is active. -/
structure State.InhibitedBy (r cause : Nat) (s : State) : Prop where
  active : s.trip.active = []
  st : (s.tstr r).st = .inhibited
  act : (s.tstr r).act = 4
  latch : (s.tstr r).latch = some (4, cause)

namespace State.InhibitedBy

variable {s : State} {r q cause : Nat}

/-- An update of a string that leaves an inhibit in force. -/
theorem updTstr {f : TripStr → TripStr} (h : s.InhibitedBy r cause) (st : (f (s.tstr r)).st = (s.tstr r).st)
    (act : (f (s.tstr r)).act = (s.tstr r).act) (latch : (f (s.tstr r)).latch = (s.tstr r).latch) :
    (s.updTstr q f).InhibitedBy r cause := by
  obtain ⟨none, inhibited, four, held⟩ := h
  by_cases e : r = q
  · subst e
    have own := s.tstr_updTstr_same r f
    exact ⟨none, own ▸ st.trans inhibited, own ▸ act.trans four, own ▸ latch.trans held⟩
  · have other := s.tstr_updTstr_ne f e
    exact ⟨none, other ▸ inhibited, other ▸ four, other ▸ held⟩

/-- With nothing active no DERATE is called for (R131). -/
theorem evalDerate (h : s.InhibitedBy r cause) : (s.evalDerate q).InhibitedBy r cause := by
  unfold State.evalDerate
  simp only [h.active, List.any_nil, Bool.false_eq_true, false_and, ↓reduceIte]
  have keeps {u : State} (k : u.InhibitedBy r cause) :
      (u.updTstr q (fun x => if x.act < 2 then { x with act := 0 } else x)).InhibitedBy r cause := by
    have severe : ¬ (u.tstr r).act < 2 := by rw [k.act]; decide
    refine k.updTstr ?_ ?_ ?_
    all_goals rw [if_neg severe]
  split
  · exact keeps (h.updTstr rfl rfl rfl)
  · exact keeps h

theorem evalDerates (h : s.InhibitedBy r cause) (l : List Nat) : (l.foldl (fun s r => s.evalDerate r) s).InhibitedBy r cause := by
  induction l generalizing s with
  | nil => exact h
  | cons q l ih => exact ih h.evalDerate

end State.InhibitedBy

/-- The trip block with these sources active. -/
def State.withActive (s : State) (l : List ActiveSrc) : State := { s with trip := { s.trip with active := l } }

/-- An inhibit stands once its momentary source is gone. -/
theorem State.inhibitedBy_withActive_nil {s : State} {r cause : Nat} (st : (s.tstr r).st = .inhibited) (act : (s.tstr r).act = 4)
    (latch : (s.tstr r).latch = some (4, cause)) : (s.withActive []).InhibitedBy r cause := ⟨rfl, st, act, latch⟩

/-- Every string judged by the active sources, and by DERATE alone (R129, R131). -/
def State.judgeAll (s : State) : State := s.strings.foldl (fun s r => (s.evalDerate r).evalString r) s
def State.derateAll (s : State) : State := s.strings.foldl (fun s r => s.evalDerate r) s

theorem State.InhibitedBy.derateAll {s : State} {r cause : Nat} (h : s.InhibitedBy r cause) : s.derateAll.InhibitedBy r cause :=
  h.evalDerates _

/-- The verdict, and the momentary source, of a request of the program that inhibits one string (R127). -/
def requestVerdict (r v : Nat) : Verdict :=
  { src := 28, key := r, on := true, act := 4, scope := 0, native := some r, cause := r, value := v }
def State.requestSource (s : State) (r : Nat) : ActiveSrc :=
  { src := 28, key := r, act := 4, strings := s.scopeMask 0 (some r), cause := r }

theorem State.reaches_requestSource {s : State} {r : Nat} (h : s.sregEn r = true) : bit (s.requestSource r).strings r = true := by
  show bit (s.scopeMask 0 (some r)) r = true
  unfold State.scopeMask
  dsimp only
  rw [if_pos rfl, List.filter_cons_of_pos h]
  exact bit_two_pow r

/-- A request whose row is enabled asks to inhibit one string (R127). -/
structure State.Requests (s : State) (r v : Nat) : Prop where
  en : s.rdB (PW_TRIP_SRC 28) PW_TRIP_SRC_EN = true
  act : PW_TRIP_REQ_ACT.get (BitVec.ofNat 32 v) = 4
  scope : PW_TRIP_REQ_SCOPE.get (BitVec.ofNat 32 v) = 0
  mask : PW_TRIP_REQ_SMASK.get (BitVec.ofNat 32 v) = 2 ^ r

/-- The strings are judged while its source is active, and again once it is not (log 12). -/
theorem State.Requests.tripReq {s u : State} {r : Fin 12} {v : Nat} (h : s.Requests r v)
    (hu : s.tripEvent 4 (requestVerdict r v) = u) :
    s.tripReq v = ((u.withActive (u.trip.active ++ [u.requestSource r])).judgeAll.withActive u.trip.active).derateAll := by
  unfold State.tripReq
  dsimp only
  rw [if_neg (by rw [h.en]; decide), h.act, h.scope, h.mask, strings_two_pow, ← hu]
  rfl

theorem State.Requests.inhibits {s : State} {r : Fin 12} {v : Nat} (h : s.Requests r v) (hs : s.strings = [r.val])
    (ha : s.trip.active = []) (hp : s.trip.pch.step = 0) (h4 : (s.tstr r).act < 4) (hl : (s.tstr r).latch = none)
    (hn : (s.tstr r).st = .normal) : (s.tripReq v).InhibitedBy r 28 := by
  obtain ⟨u, hu⟩ : ∃ u, s.tripEvent 4 (requestVerdict r v) = u := ⟨_, rfl⟩
  have trip : u.trip = s.trip := hu ▸ State.trip_tripEvent ..
  have same : (u.withActive [u.requestSource r]).tstr r = s.tstr r := State.tstr_of_trip trip r
  have strings : u.strings = [r.val] := (State.strings_of_reg fun q hq => by
    rw [← hu, State.reg_tripEvent (by unfold PW_SREG_CFG; omega)]).trans hs
  have en : u.sregEn r = true := (List.mem_filter.mp (strings ▸ List.mem_singleton_self r.val : r.val ∈ u.strings)).2
  obtain ⟨st, act, latch⟩ := State.evalString_inhibits (s := u.withActive [u.requestSource r]) rfl
    (State.reaches_requestSource en) rfl ((congrArg (fun x : Trip => x.pch.step) trip).trans hp) (same ▸ h4) (same ▸ hl)
    (same ▸ hn)
  have judged : (u.withActive [u.requestSource r]).judgeAll =
      ((u.withActive [u.requestSource r]).evalDerate r).evalString r := by
    unfold State.judgeAll
    rw [show (u.withActive [u.requestSource r]).strings = [r.val] from strings]
    rfl
  rw [h.tripReq hu, trip, ha, List.nil_append, judged]
  exact (State.inhibitedBy_withActive_nil st act latch).derateAll

/-! ## The dynamic limits (R134, R136) -/

/-- A written discharge limit reads back. -/
theorem get_mergeWord_dlimDis {r : Fin 12} {row : RegRow} (h : regRow? (PW_DLIM_DIS r) = some row) (old w : Word) :
    PW_DLIM_DIS_LIM.get (mergeWord (PW_DLIM_DIS r) row old w) = PW_DLIM_DIS_LIM.get w :=
  get_mergeWord_rw (f := ⟨PW_DLIM_DIS_LIM, .rw, 0, 2147483647⟩) h (by decide +revert) (by decide +revert)
    (by decide +revert) rfl old w

theorem State.regs_limitsOnChange (s : State) : s.limitsOnChange.regs = s.regs := ite_keeps State.regs rfl rfl

/-- A pair of limits completed: stamped, in force, and no longer stale; no register has changed. -/
theorem State.dlimWritten_completes (s : State) (r : Nat) :
    (s.dlimWritten r).regs = s.regs ∧ (s.dlimWritten r).tstr r = { s.tstr r with
      dlimStamp := s.now, dlimStale := false, dlimChg := (s.reg (PW_DLIM_CHG r)).toNat,
      dlimDis := (s.reg (PW_DLIM_DIS r)).toNat } := by
  unfold State.dlimWritten
  dsimp only
  rw [State.regs_limitsOnChange, State.tstr_of_trip (State.trip_limitsOnChange _)]
  split
  · rw [State.tstr_stringSource, State.tstr_updTstr_same]
    exact ⟨rfl, rfl⟩
  · rw [State.tstr_updTstr_same]
    exact ⟨rfl, rfl⟩

/-! ## Contactor commands (R127, R139, R140) -/

/-- Why a close is refused does not depend on a register that none of its conditions reads (R139). -/
theorem State.closeReason_setReg (s : State) (w : Word) (r : Fin 12) :
    (s.setReg PW_CON_CMD w).closeReason r = s.closeReason r := by
  have source : AQ_CUR_SRC r ≠ PW_CON_CMD := by decide +revert
  have perm : (s.setReg PW_CON_CMD w).rdB SF_STAT SF_STAT_PERM = s.rdB SF_STAT SF_STAT_PERM :=
    s.rdB_setReg_ne _ _ (by decide)
  have contacts (n : Nat) : (s.setReg PW_CON_CMD w).cfbClosed n = s.cfbClosed n :=
    congrArg (bit · n) (s.rd_setReg_ne w PW_CFB_STAT_CLOSED (by decide))
  have welded : (s.setReg PW_CON_CMD w).rd PW_CON_STAT PW_CON_STAT_WLOCK = s.rd PW_CON_STAT PW_CON_STAT_WLOCK :=
    s.rd_setReg_ne _ _ (by decide)
  have sense : (s.setReg PW_CON_CMD w).senseValid r = s.senseValid r := by
    unfold State.senseValid State.curPos
    simp only [s.rd_setReg_ne w _ source]
    rfl
  unfold State.closeReason State.bothOpen
  rw [perm, contacts, contacts, welded, sense]
  rfl

theorem State.conOpen_none (s : State) : s.conOpen 0 = s := rfl
theorem State.conClose_none (s : State) : s.conClose 0 = s := rfl

theorem State.conClose_one (s : State) (r : Fin 12) : s.conClose (2 ^ r.val) = s.closeReq r := by
  show (maskStrings (2 ^ r.val)).foldl _ s = _
  rw [maskStrings_two_pow]
  rfl

theorem State.conOpen_one {s : State} {r : Fin 12} (hc : (s.tstr r).hc = true) (h3 : (s.tstr r).act < 3) :
    s.conOpen (2 ^ r.val) = s.startAct r 3 28 false := by
  show (maskStrings (2 ^ r.val)).foldl _ s = _
  rw [maskStrings_two_pow]
  exact if_pos ⟨hc, h3⟩

/-- The halves of a command word that asks for one close, and for one open. -/
theorem close_halves (r : Fin 12) : 2 ^ r.val / 65536 % 4096 = 0 ∧ 2 ^ r.val % 4096 = 2 ^ r.val := by decide +revert
theorem open_halves (r : Fin 12) : 2 ^ (16 + r.val) / 65536 % 4096 = 2 ^ r.val ∧ 2 ^ (16 + r.val) % 4096 = 0 := by decide +revert

/-- An admitted close fails none of its conditions (R139, R513). -/
theorem State.Admits.closeReason {s : State} {r : Fin 12} {row : RegRow} (h : s.Admits PW_CON_CMD (2 ^ r.val) row) :
    s.closeReason r = 0 := by
  have rule : (maskStrings (2 ^ r.val)).any (fun r => s.closeReason r != 0) = false := h.rule
  rw [maskStrings_two_pow, List.any_cons, List.any_nil, Bool.or_false, bne_eq_false_iff_eq] at rule
  exact rule

theorem State.closeReq_pullIn {s : State} {r : Nat} (hr : s.closeReason r = 0) (hb : s.partnerBusy r = false) :
    s.closeReq r = s.pullIn r := by
  unfold State.closeReq
  dsimp only
  rw [if_neg (by rw [hr]; decide), if_neg (by rw [hb]; decide)]

theorem State.closeReq_wait {s : State} {r : Nat} (hr : s.closeReason r = 0) (hb : s.partnerBusy r = true) :
    s.closeReq r = s.updTstr r (fun x => { x with closeWait := some s.now }) := by
  unfold State.closeReq
  dsimp only
  rw [if_neg (by rw [hr]; decide), if_pos hb]

/-- An admitted close, beside its word, is the string's close request. -/
theorem execContactorClose_admitted {s : State} {src t : Nat} {r : Fin 12} {row : RegRow}
    (h : (s.at t).Admits PW_CON_CMD (2 ^ r.val) row) : ∃ w, ((s.at t).setReg PW_CON_CMD w).closeReason r = 0 ∧
      execContactorClose s src r (2 ^ r.val) t = .next ((((s.at t).setReg PW_CON_CMD w).closeReq r).busAnswer 0 false) := by
  refine ⟨mergeWord PW_CON_CMD row (s.reg PW_CON_CMD) (BitVec.ofNat 32 (2 ^ r.val)), ?_, ?_⟩
  · rw [State.closeReason_setReg, h.closeReason]
  · unfold execContactorClose
    rw [ask_two_pow, plainPower_conCmd.written h, State.effPW_conCmd, (close_halves r).1, (close_halves r).2,
      State.conOpen_none, State.conClose_one]

theorem execContactorOpen_admitted {s : State} {src t : Nat} {r : Fin 12} {row : RegRow}
    (h : (s.at t).Admits PW_CON_CMD (2 ^ (16 + r.val)) row) (hc : (s.tstr r).hc = true) (h3 : (s.tstr r).act < 3) :
    ∃ w, execContactorOpen s src r (2 ^ (16 + r.val)) t =
      .next ((((s.at t).setReg PW_CON_CMD w).startAct r 3 28 false).busAnswer 0 false) := by
  refine ⟨mergeWord PW_CON_CMD row (s.reg PW_CON_CMD) (BitVec.ofNat 32 (2 ^ (16 + r.val))), ?_⟩
  unfold execContactorOpen
  rw [ask_two_pow, plainPower_conCmd.written h, State.effPW_conCmd, (open_halves r).1, (open_halves r).2,
    State.conOpen_one (by exact hc) (by exact h3), State.conClose_none]

/-- A RAMP or RAMP-OPEN of a string in NORMAL (R133). -/
theorem State.tstr_beginRamp {s : State} {r : Nat} (h : (s.tstr r).st = .normal) (opens : Bool) (limit : Nat) :
    (s.beginRamp r opens limit).tstr r = { s.tstr r with
      opens := (s.tstr r).opens || opens, episode := some ((s.tstr r).episode.getD s.now), rampMax := limit,
      st := .ramping } := by
  have marked := s.tstr_updTstr_same r (fun x => { x with opens := x.opens || opens, episode := some (x.episode.getD s.now) })
  unfold State.beginRamp
  dsimp only
  rw [marked, h]
  dsimp only
  rw [State.tstr_setSt _ _ (by decide), State.tstr_of_trip (ite_keeps State.trip (State.trip_enterRamp ..) rfl),
    State.tstr_updTstr_same, marked]

/-- The start of an action, before what its kind does: recorded on the string, with an excitation and the string's pre-charge
ended (R130, R147). -/
def State.actBegun (s : State) (r act cause : Nat) (latch : Bool) : State :=
  (((s.updTstr r (fun x => { x with act := act, latch := if latch then some (act, cause) else x.latch })).wr (PW_TRIP_STR r)
    PW_TRIP_STR_CAUSE cause).excEnd 2).pchTrip r

theorem State.tstr_actBegun {s : State} {r : Nat} (h : s.trip.pch.step = 0) (act cause : Nat) (latch : Bool) :
    (s.actBegun r act cause latch).tstr r =
      { s.tstr r with act := act, latch := if latch then some (act, cause) else (s.tstr r).latch } := by
  unfold State.actBegun
  rw [State.pchTrip_idle (by rw [State.trip_excEnd]; exact h), State.tstr_of_trip (State.trip_excEnd ..),
    State.tstr_wr, State.tstr_updTstr_same]

/-- The length of a string's ramp (R133, R488). -/
def State.rampLimit (s : State) (cause : Nat) : Nat :=
  if cause = 27 then 100 * ms else s.rd PW_TRIP_CFG PW_TRIP_CFG_TRAMPMAX * 10 * ms

theorem State.startAct_rampOpen (s : State) (r cause : Nat) (latch : Bool) :
    s.startAct r 3 cause latch = ((s.actBegun r 3 cause latch).beginRamp r true (s.rampLimit cause)).alertSync := rfl

/-- An unlatched RAMP-OPEN of a string in NORMAL while no pre-charge runs. -/
theorem State.startAct_rampOpen_unlatched {s : State} {r cause : Nat} (hp : s.trip.pch.step = 0)
    (hn : (s.tstr r).st = .normal) : ((s.startAct r 3 cause false).tstr r).act = 3 ∧
      ((s.startAct r 3 cause false).tstr r).st = .ramping ∧ ((s.startAct r 3 cause false).tstr r).opens = true ∧
      ((s.startAct r 3 cause false).tstr r).latch = (s.tstr r).latch := by
  have begun := State.tstr_actBegun (r := r) hp 3 cause false
  rw [State.startAct_rampOpen, State.tstr_of_trip (State.trip_alertSync _), State.tstr_beginRamp (by rw [begun]; exact hn), begun]
  exact ⟨rfl, rfl, Bool.or_true _, rfl⟩

end Sys2Proof.Machine
end

section
/-!
PROOF. The pre-charge commands: START away from the bus target, JOIN of one string, and ABORT (R146 to R149).
-/

namespace Sys2Proof.Machine

/-! ## The words of the pre-charge commands (R146 to R148) -/

/-- A one-bit field of a word is that bit of the number written. -/
theorem bit_of_get {v i x : Nat} (hv : v < 2 ^ 32) (h : (⟨i, i⟩ : Fld).get (BitVec.ofNat 32 v) = x) : bit v i = (x == 1) := by
  unfold Fld.get at h
  rw [Fld.width_bit, BitVec.toNat_ofNat, Nat.mod_eq_of_lt hv] at h
  rw [← h]
  rfl

/-- Writing a field's own value leaves the word. -/
theorem Fld.put_get (f : Fld) (w : Word) : f.put w (f.get w) = w := by
  have field : f.get w % 2 ^ f.width = f.get w := Nat.mod_eq_of_lt (f.get_lt w)
  have low := Nat.mod_add_div w.toNat (2 ^ f.lo)
  have high := Nat.mod_add_div (w.toNat / 2 ^ f.lo) (2 ^ f.width)
  rw [Nat.div_div_eq_div_mul, ← pow_add] at high
  have whole : w.toNat % 2 ^ f.lo + f.get w * 2 ^ f.lo + w.toNat / 2 ^ (f.lo + f.width) * 2 ^ (f.lo + f.width) = w.toNat := by
    calc _ = w.toNat % 2 ^ f.lo + 2 ^ f.lo * (f.get w + 2 ^ f.width * (w.toNat / 2 ^ (f.lo + f.width))) := by
          rw [pow_add]
          ring
      _ = w.toNat := by
          unfold Fld.get
          rw [high, low]
  unfold Fld.put
  rw [field, whole, BitVec.ofNat_toNat, BitVec.setWidth_eq]

/-! ## START (R146, R147) -/

/-- Beside its word, a write of the pre-charge control word is the commands of its bits. -/
theorem writeReg_pchCtl {s : State} {src v t : Nat} {row : RegRow} (h : (s.at t).Admits PW_PCH_CTL v row) :
    writeReg s src PW_PCH_CTL v t = .next ((((s.at t).setReg PW_PCH_CTL (mergeWord PW_PCH_CTL row (s.reg PW_PCH_CTL)
      (BitVec.ofNat 32 v))).effPch v).busAnswer 0 false) := by
  rw [plainPower_pchCtl.written h, State.effPW_pchCtl]

theorem State.busTarget_setReg (s : State) {a : Nat} (w : Word) (hv : PW_BUS_VLIM ≠ a) (hc : PW_BUS_CFG ≠ a) :
    (s.setReg a w).busTarget = s.busTarget := by
  unfold State.busTarget
  rw [s.rd_setReg_ne w _ hv, s.rdB_setReg_ne w _ hc]
  rfl

/-- Whether the bus is near its target does not depend on a register that neither holds (R146, R274). -/
theorem State.busNear_setReg (s : State) {a : Nat} (w : Word) (hv : PW_BUS_VLIM ≠ a) (hc : PW_BUS_CFG ≠ a) :
    (s.setReg a w).busNear = s.busNear := by
  unfold State.busNear
  rw [s.busTarget_setReg w hv hc]
  rfl

/-- The latest sequence's reason and mask cleared, as START and JOIN do first. -/
def State.pchFresh (s : State) : State := (s.wr PW_PCH_STAT PW_PCH_STAT_REASON 0).wr PW_PCH_STAT PW_PCH_STAT_FAILMASK 0

theorem State.busNear_pchFresh (s : State) : s.pchFresh.busNear = s.busNear :=
  (State.busNear_setReg _ _ (by decide) (by decide)).trans (State.busNear_setReg _ _ (by decide) (by decide))

/-- Step 2 with a new attempt, before its relay is driven (R147, R149). -/
def State.pchAttempt (s : State) : State :=
  (s.setPchStep 2).updPch (fun p => { p with
    start := s.now, dv0 := (s.tstr s.seed).vPos + (s.tstr s.seed).vNeg, tau := 0, mask := 0, done := 0,
    attempts := s.pchTries ++ [s.now] })

theorem State.pch_pchAttempt (s : State) : s.pchAttempt.trip.pch.step = 2 ∧ s.pchAttempt.trip.pch.start = s.now ∧
    s.now ∈ s.pchAttempt.trip.pch.attempts :=
  ⟨rfl, rfl, List.mem_append_right s.pchTries (List.mem_singleton_self s.now)⟩

theorem State.pchStart_away {s : State} (h : s.busNear = false) : s.pchStart = s.pchFresh.pchAttempt.setRelay true :=
  if_neg (Bool.eq_false_iff.mp ((s.busNear_pchFresh).trans h))

theorem State.reason_pchFresh (s : State) : s.pchFresh.rd PW_PCH_STAT PW_PCH_STAT_REASON = 0 := by
  unfold State.pchFresh
  rw [State.rd_wr_apart _ _ _ _ _ (by decide) (by decide) (by decide), State.rd_wr_same _ _ _ _ (by decide), Nat.zero_mod]

theorem State.reason_pchAttempt (s : State) :
    s.pchAttempt.rd PW_PCH_STAT PW_PCH_STAT_REASON = s.rd PW_PCH_STAT PW_PCH_STAT_REASON :=
  s.rd_wr_apart _ PW_PCH_STAT_STEP _ _ (by decide) (by decide) (by decide)

theorem State.rd_pchStat_setRelay (s : State) (on : Bool) (f : Fld) : (s.setRelay on).rd PW_PCH_STAT f = s.rd PW_PCH_STAT f := by
  have channel (c : Nat) (h : c < 8) : PW_PCH_STAT ≠ PW_LS_STATc (18 + c) := by
    unfold PW_PCH_STAT PW_LS_STATc
    omega
  exact congrArg f.get (State.reg_lsSync _ (by decide) (channel _ (Nat.mod_lt _ (by decide))))

/-- START away from the bus target: the relay driven in step 2, with a new attempt and no reason (R147, R149). -/
theorem State.pchStart_begins {s : State} (h : s.busNear = false) :
    s.pchStart.trip.pch.step = 2 ∧ s.pchStart.trip.pch.relay = true ∧ s.pchStart.trip.pch.start = s.now ∧
      s.now ∈ s.pchStart.trip.pch.attempts ∧ s.pchStart.rd PW_PCH_STAT PW_PCH_STAT_REASON = 0 := by
  have pch : s.pchStart.trip.pch = { s.pchFresh.pchAttempt.trip.pch with relay := true } := by
    rw [State.pchStart_away h]
    exact congrArg Trip.pch (State.trip_lsSync ..)
  obtain ⟨step, start, attempts⟩ := s.pchFresh.pch_pchAttempt
  rw [pch]
  refine ⟨step, rfl, start, attempts, ?_⟩
  rw [State.pchStart_away h, State.rd_pchStat_setRelay, State.reason_pchAttempt, State.reason_pchFresh]

/-! ## JOIN (R148) -/

/-- The bits of a mask of strings are its strings. -/
theorem bit_strings {l : List Nat} (h : l.SortedLT) (r : Nat) : bit (l.foldl (fun m r => m + 2 ^ r) 0) r = decide (r ∈ l) := by
  have sum : l.foldl (fun m r => m + 2 ^ r) 0 = (l.map (2 ^ ·)).sum := by
    rw [List.sum_eq_foldl, List.foldl_map]
  rw [bit_eq_testBit, sum, Bool.eq_iff_iff, ← Nat.mem_bitIndices, Nat.bitIndices_sum_map_two_pow h, decide_eq_true_eq]

/-- A configured string whose channel is off and that no action above DERATE reaches may join. -/
theorem State.bit_pchOthers {s : State} {r : Nat} (hs : r ∈ s.strings) (hc : (s.tstr r).hc = false) (ht : (s.topAct r).1 < 2) :
    bit s.pchOthers r = true := by
  have sorted : (s.strings.filter (fun r => !(s.tstr r).hc && (s.topAct r).1 < 2)).SortedLT :=
    ((List.sortedLT_range 12).pairwise.filter _ |>.filter _).sortedLT
  unfold State.pchOthers
  rw [bit_strings sorted, decide_eq_true_eq, List.mem_filter, hc, decide_eq_true ht]
  exact ⟨hs, rfl⟩

/-- The regulator of a string set to buck pre-charge with a reference (R302). -/
def State.buckMode (s : State) (r : Nat) (i : Int) : State :=
  (((s.drew 1).inhibitString r false).setMode r 3).updRstr r (fun x => { x with iref := i })

theorem State.trip_buckMode (s : State) (r : Nat) (i : Int) : (s.buckMode r i).trip = s.trip :=
  State.trip_inhibitString ..

theorem State.sregMode_setMode (s : State) (r m : Nat) : (s.setMode r m).sregMode r = m % 8 :=
  s.rd_wr_same (PW_SREG_STAT r) PW_SREG_STAT_MODE m (by decide)

theorem State.sregMode_updRstr (s : State) (r q : Nat) (f : RegStr → RegStr) : (s.updRstr r f).sregMode q = s.sregMode q := rfl

theorem State.sregMode_buckMode (s : State) (r : Nat) (i : Int) : (s.buckMode r i).sregMode r = 3 := by
  unfold State.buckMode
  rw [State.sregMode_updRstr, State.sregMode_setMode]

/-- Step 5 with the strings of a mask, none of them done. -/
def State.pchBuckStep (s : State) (mask : Nat) : State :=
  (s.setPchStep 5).updPch (fun p => { p with mask := mask, done := 0 })

/-- The strings of a mask set to buck pre-charge, each with a free reference of at most IPCH (R302, log 4). -/
def State.pchBucked (s : State) (mask : Nat) : State :=
  ((List.range 12).filter (fun r => bit mask r)).foldl (fun z r =>
    z.buckMode r (z.freeNat % ((s.pchBuckStep mask).rd PW_PCH_RATE PW_PCH_RATE_IPCH * 100 + 1) : Nat)) (s.pchBuckStep mask)

theorem State.pchBuck_eq (s : State) (mask : Nat) :
    s.pchBuck mask = if mask = 0 then (s.pchBucked mask).pchDone else s.pchBucked mask := rfl

/-- Buck pre-charge of one string (R147). -/
theorem State.pchBuck_one (s : State) (r : Fin 12) : ∃ i, s.pchBuck (2 ^ r.val) = (s.pchBuckStep (2 ^ r.val)).buckMode r i := by
  have nonempty : ¬ 2 ^ r.val = 0 := by positivity
  rw [State.pchBuck_eq, if_neg nonempty]
  unfold State.pchBucked
  rw [strings_two_pow, List.foldl_cons, List.foldl_nil]
  exact ⟨_, rfl⟩

theorem State.topAct_of_trip {s u : State} (h : u.trip = s.trip) (r : Nat) : u.topAct r = s.topAct r := by
  unfold State.topAct State.tstr
  rw [h]

theorem State.pchJoin_eq (s : State) : s.pchJoin = s.pchFresh.pchBuck (((List.range 12).filter (fun r =>
    bit (s.pchFresh.rd PW_PCH_CTL PW_PCH_CTL_JMASK) r && bit s.pchFresh.pchOthers r)).foldl (fun a r => a + 2 ^ r) 0) := rfl

theorem State.trip_pchFresh (s : State) : s.pchFresh.trip = s.trip := by
  unfold State.pchFresh
  rw [State.trip_wr, State.trip_wr]

theorem State.rd_pchFresh (s : State) {a : Nat} (f : Fld) (h : a ≠ PW_PCH_STAT) : s.pchFresh.rd a f = s.rd a f := by
  unfold State.pchFresh
  rw [State.rd_wr_ne _ _ _ _ h, State.rd_wr_ne _ _ _ _ h]

theorem State.strings_pchFresh (s : State) : s.pchFresh.strings = s.strings :=
  State.strings_of_reg fun q hq => by
    have other : PW_SREG_CFG q ≠ PW_PCH_STAT := by unfold PW_SREG_CFG PW_PCH_STAT; omega
    unfold State.pchFresh
    rw [State.reg_wr_ne _ _ _ other, State.reg_wr_ne _ _ _ other]

theorem State.bit_pchOthers_pchFresh {s : State} {r : Nat} (hs : r ∈ s.strings) (hc : (s.tstr r).hc = false)
    (ht : (s.topAct r).1 < 2) : bit s.pchFresh.pchOthers r = true := by
  refine State.bit_pchOthers ?_ ?_ ?_
  · rw [State.strings_pchFresh]
    exact hs
  · rw [State.tstr_of_trip s.trip_pchFresh]
    exact hc
  · rw [State.topAct_of_trip s.trip_pchFresh]
    exact ht

/-- JOIN of one string that may join enters buck pre-charge of it (R148). -/
theorem State.pchJoin_one {s : State} {r : Fin 12} (hm : s.rd PW_PCH_CTL PW_PCH_CTL_JMASK = 2 ^ r.val) (hs : r.val ∈ s.strings)
    (hc : (s.tstr r).hc = false) (ht : (s.topAct r).1 < 2) : s.pchJoin = s.pchFresh.pchBuck (2 ^ r.val) := by
  have mask : s.pchFresh.rd PW_PCH_CTL PW_PCH_CTL_JMASK = 2 ^ r.val := (s.rd_pchFresh _ (by decide)).trans hm
  have one : (List.range 12).filter (fun q => bit (2 ^ r.val) q && bit s.pchFresh.pchOthers q) = [r.val] := by
    rw [← List.filter_filter, List.filter_comm, strings_two_pow,
      List.filter_cons_of_pos (State.bit_pchOthers_pchFresh hs hc ht), List.filter_nil]
  rw [State.pchJoin_eq, mask, one, List.foldl_cons, List.foldl_nil, Nat.zero_add]

/-- The mask written is the one that JOIN reads. -/
theorem get_mergeWord_pchCtl {row : RegRow} (h : regRow? PW_PCH_CTL = some row) (old w : Word) :
    PW_PCH_CTL_JMASK.get (mergeWord PW_PCH_CTL row old w) = PW_PCH_CTL_JMASK.get w :=
  get_mergeWord_rw (f := ⟨PW_PCH_CTL_JMASK, .rw, 0, 4095⟩) h (by decide) (by decide) (by decide) rfl old w

/-! ## The pre-charge commands at their register (R146 to R148) -/

section
variable {v : Nat}

theorem State.effPch_start (h0 : bit v 0 = true) (h1 : bit v 1 = false) (h2 : bit v 2 = false) (s : State) :
    s.effPch v = s.pchStart := by
  simp only [State.effPch, h0, h1, h2, Bool.false_eq_true, ↓reduceIte]

theorem State.effPch_abort (h0 : bit v 0 = false) (h1 : bit v 1 = true) (h2 : bit v 2 = false) (s : State) :
    s.effPch v = s.pchAbort := by
  simp only [State.effPch, h0, h1, h2, Bool.false_eq_true, ↓reduceIte]

theorem State.effPch_join (h0 : bit v 0 = false) (h1 : bit v 1 = false) (h2 : bit v 2 = true) (s : State) :
    s.effPch v = s.pchJoin := by
  simp only [State.effPch, h0, h1, h2, Bool.false_eq_true, ↓reduceIte]

end

section
variable {s : State} {src v t : Nat} {row : RegRow}

theorem execPrechargeStart_admitted (h : (s.at t).Admits PW_PCH_CTL 1 row) : ∃ w,
    execPrechargeStart s src 1 t = .next (((s.at t).setReg PW_PCH_CTL w).pchStart.busAnswer 0 false) := by
  have word : (PW_PCH_CTL_START.put (BitVec.ofNat 32 1) 1).toNat = 1 := by decide
  refine ⟨mergeWord PW_PCH_CTL row (s.reg PW_PCH_CTL) (BitVec.ofNat 32 1), ?_⟩
  unfold execPrechargeStart
  rw [word, writeReg_pchCtl h, State.effPch_start (by decide) (by decide) (by decide)]

theorem execAbort_admitted (h : (s.at t).Admits PW_PCH_CTL 2 row) : ∃ w,
    execAbort s src 2 t = .next (((s.at t).setReg PW_PCH_CTL w).pchAbort.busAnswer 0 false) := by
  have word : (PW_PCH_CTL_ABORT.put (BitVec.ofNat 32 2) 1).toNat = 2 := by decide
  refine ⟨mergeWord PW_PCH_CTL row (s.reg PW_PCH_CTL) (BitVec.ofNat 32 2), ?_⟩
  unfold execAbort
  rw [word, writeReg_pchCtl h, State.effPch_abort (by decide) (by decide) (by decide)]

/-- A word that asks for JOIN alone: the mask it reads is the one written. -/
theorem execJoin_admitted (h : (s.at t).Admits PW_PCH_CTL v row) (hj : PW_PCH_CTL_JOIN.get (BitVec.ofNat 32 v) = 1)
    (ha : PW_PCH_CTL_ABORT.get (BitVec.ofNat 32 v) = 0) (hs : PW_PCH_CTL_START.get (BitVec.ofNat 32 v) = 0) : ∃ w,
      PW_PCH_CTL_JMASK.get w = PW_PCH_CTL_JMASK.get (BitVec.ofNat 32 v) ∧
      execJoin s src v t = .next (((s.at t).setReg PW_PCH_CTL w).pchJoin.busAnswer 0 false) := by
  have word : (PW_PCH_CTL_JOIN.put (BitVec.ofNat 32 v) 1).toNat = v := by
    rw [← hj, Fld.put_get, BitVec.toNat_ofNat, Nat.mod_eq_of_lt h.word]
  refine ⟨mergeWord PW_PCH_CTL row (s.reg PW_PCH_CTL) (BitVec.ofNat 32 v), get_mergeWord_pchCtl h.row _ _, ?_⟩
  unfold execJoin
  rw [word, writeReg_pchCtl h, State.effPch_join (bit_of_get h.word hs) (bit_of_get h.word ha) (bit_of_get h.word hj)]

end

/-- After JOIN of one string that may join, step 5 holds that string alone, its regulator in buck pre-charge (R148). -/
theorem State.pchJoin_enters {s : State} {r : Fin 12} (hm : s.rd PW_PCH_CTL PW_PCH_CTL_JMASK = 2 ^ r.val)
    (hs : r.val ∈ s.strings) (hc : (s.tstr r).hc = false) (ht : (s.topAct r).1 < 2) : s.pchJoin.trip.pch.step = 5 ∧
      s.pchJoin.trip.pch.mask = 2 ^ r.val ∧ s.pchJoin.trip.pch.done = 0 ∧ s.pchJoin.sregMode r = 3 := by
  obtain ⟨i, e⟩ := s.pchFresh.pchBuck_one r
  rw [State.pchJoin_one hm hs hc ht, e, State.trip_buckMode, State.sregMode_buckMode]
  exact ⟨rfl, rfl, rfl, rfl⟩

/-- ABORT of a running sequence fails it with reason 9 (R147). -/
theorem State.pchAbort_running {s : State} (h : s.trip.pch.step ≠ 0) : s.pchAbort = s.pchFail 9 := if_neg h

theorem State.seed_setReg (s : State) {a : Nat} (w : Word) (h : PW_PCH_CFG ≠ a) : (s.setReg a w).seed = s.seed :=
  s.rd_setReg_ne w _ h

end Sys2Proof.Machine
end

section
/-!
PROOF. O38: the commands of the trip block reach their strings.
-/

open Sys2Proof Sys2Proof.Machine

/-- Settles O38, command by command. Each is an admitted write of its register, and the register's word is read by none of the
conditions of its effect but JOIN's mask and the discharge limit, which are the ones written. -/
theorem tripCommandsReachTheirStrings : Obligations.TripCommandsReachTheirStrings := by
  unfold Obligations.TripCommandsReachTheirStrings
  intro s src t
  dsimp only
  refine ⟨?clear, ?request, ?limit, ?close, ?opening, ?start, ?join, ?abort⟩
  case clear =>
    intro r row l h hl hc
    let z := (s.at t).setReg PW_TRIP_CLR (mergeWord PW_TRIP_CLR row (s.reg PW_TRIP_CLR) (BitVec.ofNat 32 (2 ^ r.val)))
    have latched : (z.tstr r).latch ≠ none := fun c => Option.some_ne_none l (hl.symm.trans c)
    obtain ⟨own, orphan, others⟩ := State.release_off (s := z) (r := r) hc
    refine ⟨(z.release r).busAnswer 0 false, ?_, ?_⟩
    · rw [← State.tripClr_one latched, ← State.effPW_tripClr]
      exact plainPower_tripClr.written h
    · rw [State.tstr_busAnswer, State.trip_busAnswer, own]
      exact ⟨rfl, rfl, rfl, orphan, fun q hq => (State.tstr_busAnswer ..).trans (others q hq)⟩
  case request =>
    intro r row v h
    let z := (s.at t).setReg PW_TRIP_REQ (mergeWord PW_TRIP_REQ row (s.reg PW_TRIP_REQ) (BitVec.ofNat 32 v))
    have written : exec (.tripProgramRequest src v t) s = .next ((z.tripReq v).busAnswer 0 false) := by
      rw [← State.effPW_tripReq]
      exact plainPower_tripReq.written h
    have enabled : z.rdB (PW_TRIP_SRC 28) PW_TRIP_SRC_EN = s.rdB (PW_TRIP_SRC 28) PW_TRIP_SRC_EN :=
      (s.at t).rdB_setReg_ne _ _ (by decide)
    refine ⟨fun off => ⟨_, written, ?_⟩, fun en act scope mask hs ha hp h4 hl hn => ⟨_, written, ?_⟩⟩
    · rw [State.tripReq_off (enabled.trans off), State.trip_busAnswer, State.trip_setReg, State.trip_at]
    · have strings : z.strings = s.strings := State.strings_of_reg fun q hq =>
        (s.at t).reg_setReg_ne _ (by unfold PW_SREG_CFG PW_TRIP_REQ; omega)
      have asks : z.Requests r v := ⟨enabled.trans en, act, scope, mask⟩
      obtain ⟨none, st, four, latch⟩ := asks.inhibits (strings.trans hs) ha hp h4 hl hn
      rw [State.tstr_busAnswer, State.trip_busAnswer]
      exact ⟨st, four, latch, none⟩
  case limit =>
    intro r row v h
    let z := (s.at t).setReg (PW_DLIM_DIS r) (mergeWord (PW_DLIM_DIS r) row (s.reg (PW_DLIM_DIS r)) (BitVec.ofNat 32 v))
    obtain ⟨regs, own⟩ := z.dlimWritten_completes r
    have reg (a : Nat) : (z.dlimWritten r).reg a = z.reg a := by
      unfold State.reg
      rw [regs]
    have charge : z.reg (PW_DLIM_CHG r) = s.reg (PW_DLIM_CHG r) :=
      (s.at t).reg_setReg_ne _ (by unfold PW_DLIM_CHG PW_DLIM_DIS; omega)
    refine ⟨(z.dlimWritten r).busAnswer 0 false, ?_, ?_⟩
    · rw [← State.effPW_dlimDis]
      exact (plainPower_dlimDis r).written h
    · rw [State.tstr_busAnswer, State.reg_busAnswer, State.rd_busAnswer, own, reg, charge]
      refine ⟨rfl, rfl, rfl, ?_, rfl⟩
      unfold State.rd
      rw [reg, State.reg_setReg_same, get_mergeWord_dlimDis h.row]
  case close =>
    intro r row h
    obtain ⟨w, why, written⟩ := execContactorClose_admitted (src := src) h
    refine ⟨fun free => ⟨_, written, ?_⟩, fun busy => ⟨_, written, ?_⟩⟩
    · rw [State.closeReq_pullIn why free, State.tstr_busAnswer, State.tstr_pullIn]
      exact ⟨rfl, rfl, rfl⟩
    · rw [State.closeReq_wait why busy, State.tstr_busAnswer, State.tstr_updTstr_same]
      exact ⟨rfl, rfl⟩
  case opening =>
    intro r row h hc h3 hn hp
    obtain ⟨w, written⟩ := execContactorOpen_admitted (src := src) h hc h3
    refine ⟨_, written, ?_⟩
    rw [State.tstr_busAnswer]
    exact State.startAct_rampOpen_unlatched (s := (s.at t).setReg PW_CON_CMD w) hp hn
  case start =>
    intro row h hb
    obtain ⟨w, written⟩ := execPrechargeStart_admitted (src := src) h
    refine ⟨_, written, ?_⟩
    rw [State.trip_busAnswer, State.rd_busAnswer]
    exact State.pchStart_begins (((s.at t).busNear_setReg w (by decide) (by decide)).trans hb)
  case join =>
    intro row r v hm hj ha hst h hs hc ht
    obtain ⟨w, mask, written⟩ := execJoin_admitted (src := src) h hj ha hst
    have read : ((s.at t).setReg PW_PCH_CTL w).rd PW_PCH_CTL PW_PCH_CTL_JMASK = 2 ^ r.val := by
      unfold State.rd
      rw [State.reg_setReg_same, mask, hm]
    have strings : ((s.at t).setReg PW_PCH_CTL w).strings = s.strings := State.strings_of_reg fun q hq =>
      (s.at t).reg_setReg_ne _ (by unfold PW_SREG_CFG PW_PCH_CTL; omega)
    refine ⟨_, written, ?_⟩
    rw [State.trip_busAnswer, State.sregMode_busAnswer]
    exact State.pchJoin_enters read (strings ▸ hs) hc ht
  case abort =>
    intro row h hp
    obtain ⟨w, written⟩ := execAbort_admitted (src := src) h
    obtain ⟨step, relay, event⟩ := ((s.at t).setReg PW_PCH_CTL w).pchFail_fails 9
    rw [State.seed_setReg _ _ (by decide)] at event
    rw [State.pchAbort_running (by exact hp)] at written
    refine ⟨_, written, ?_⟩
    rw [State.trip_busAnswer]
    exact ⟨step, relay, event.busAnswer⟩
end

section
/-!
PROOF. O17: the queue instructions of a grain (R163 to R165, R198, R199).
-/

namespace Sys2Proof.Machine

/-! ## Grains -/

@[simp] theorem Grain.imprecise_put (x : Grain) (n : Nat) (w : Word) : (x.put n w).imprecise = x.imprecise := by
  unfold Grain.put
  split <;> rfl

/-- With no bus error pending, nothing is left to take after an instruction that orders its accesses (R203, R210). -/
theorem State.Did.afterFence {s u : State} {g : GrainId} {t : Nat} {ps : List Part} {f : Grain → Grain} (h : s.Did g t ps f u)
    (hi : (f (s.grain g.src)).imprecise = []) : u.afterFence g.src = u := by
  unfold State.afterFence
  rw [h.grain, hi]
  exact if_pos rfl

/-- The pair gd, gd + 1 of a grain (R198). -/
def Grain.putPair (x : Grain) (n : Nat) (d : Dword) : Grain :=
  (x.put n (BitVec.ofNat 32 d.toNat)).put (n + 1) (BitVec.ofNat 32 (d.toNat / 2 ^ 32))

theorem State.Did.setPair {s u : State} {g : GrainId} {t : Nat} {ps : List Part} {f : Grain → Grain} (h : s.Did g t ps f u)
    (n : Nat) (d : Dword) : s.Did g t ps (fun x => (f x).putPair n d) (u.setPair g.src n d) :=
  (h.setG _ _).setG _ _

@[simp] theorem State.fab_setPair (s : State) (src n : Nat) (d : Dword) : (s.setPair src n d).fab = s.fab := by
  unfold State.setPair
  rw [State.fab_setG, State.fab_setG]

theorem State.fab_stepOn (s : State) (src : Nat) : ∃ m, (s.stepOn src).fab = { s.fab with pmon := m } := by
  obtain ⟨m, e⟩ := s.stepOn_eq src
  exact ⟨m, by rw [e]⟩

/-- The grain waits for nothing any more. -/
def State.idle (s : State) (src : Nat) : State := s.updGrain src (fun x => { x with wait := .none })

/-! ## The queue controller (R163 to R165) -/

/-- One more descriptor in queue `n` does not bring it to a watermark that is yet to be posted (R165). -/
def State.QuietPut (s : State) (n : Nat) : Prop :=
  s.rd (FB_Q_CFG n) FB_Q_CFG_WMARK = 0 ∨ (s.queue n).length + 1 < s.rd (FB_Q_CFG n) FB_Q_CFG_WMARK ∨
    Tab.get false s.fab.wmPosted n = true

/-- A put that posts no watermark appends its descriptor, and the monitors count it. -/
theorem State.qAppend_quiet {s : State} {n : Nat} (h : s.QuietPut n) (d : Dword) : ∃ m, s.qAppend n d =
    { s with fab := { s.fab with pmon := m, queues := Tab.set [] s.fab.queues n (s.queue n ++ [d]) } } := by
  obtain ⟨m, e⟩ := State.count_eq
    { s with fab := { s.fab with queues := Tab.set [] s.fab.queues n (s.queue n ++ [d]) } } (0x1C0 + n) 1
  unfold State.qAppend
  dsimp only
  rw [e]
  refine ⟨m, if_neg fun ⟨marked, reached, fresh⟩ => ?_⟩
  have length : (Tab.get [] (Tab.set [] s.fab.queues n (s.queue n ++ [d])) n).length = (s.queue n).length + 1 := by
    rw [Tab.get_set_same, List.length_append, List.length_singleton]
  have reached : s.rd (FB_Q_CFG n) FB_Q_CFG_WMARK ≤ (s.queue n).length + 1 := length ▸ reached
  rcases h with h | h | h
  · exact marked h
  · omega
  · rw [show Tab.get false s.fab.wmPosted n = false from fresh] at h
    cases h

theorem State.Did.qOverflow {s u : State} {g : GrainId} {t : Nat} {ps : List Part} {f : Grain → Grain} (h : s.Did g t ps f u)
    (hr : Part.regs_ ∈ ps) (ho : Part.lost_ ∈ ps) (hd : Part.led_ ∈ ps) (n putter : Nat) :
    s.Did g t ps f (u.qOverflow n putter) :=
  ((h.setReg hr ho _ _).setReg hr ho _ _).raise hd ho _ _ _

/-- A get takes the oldest descriptor; the watermark of its queue alone may be posted anew. -/
theorem State.qTake_cons {s : State} {n : Nat} {d : Dword} {ds : List Dword} (h : s.queue n = d :: ds) :
    ∃ w, s.qTake n = some (d, { s with fab := { s.fab with queues := Tab.set [] s.fab.queues n ds, wmPosted := w } }) ∧
      ∀ i, i ≠ n → Tab.get false w i = Tab.get false s.fab.wmPosted i := by
  unfold State.qTake
  rw [h]
  refine ⟨_, rfl, fun i hi => ?_⟩
  split
  · exact Tab.get_set_ne _ _ _ _ hi
  · rfl

theorem State.qTake_nil {s : State} {n : Nat} (h : s.queue n = []) : s.qTake n = none := by
  unfold State.qTake
  rw [h]

/-! ## Puts, gets and waits of a grain (R198, R199) -/

section
variable {s : State} {g : GrainId} {t rd q mask : Nat} {d : Dword} {ds : List Dword}
  {o : Host.Outcome State Fault Refusal}

/-- The outcome is that the grain has put `d` into queue `q`: `rd` takes 1 and the next instruction follows. -/
def State.Puts (s : State) (g : GrainId) (t rd q : Nat) (d : Dword) (o : Host.Outcome State Fault Refusal) : Prop :=
  ∃ u m, o = .next u ∧ s.Did g t [.fab_] (fun x => (({ x with wait := .none } : Grain).put rd 1#32).next (Nat.max s.now t)) u ∧
    u.fab = { s.fab with pmon := m, queues := Tab.set [] s.fab.queues q (s.queue q ++ [d]) }

theorem State.puts_of_qputTry (ho : o = .next ((s.at t).qputTry g.src rd q d)) (hon : s.queueOn q = true) (hk : kindOk d = true) (hf : s.queueFull q = false)
    (hi : (s.grain g.src).imprecise = []) (hw : s.QuietPut q) : s.Puts g t rd q d o := by
  have on : (s.at t).queueOn q = true := hon
  have full : (s.at t).queueFull q = false := hf
  have quiet : ((s.at t).idle g.src).QuietPut q := hw
  obtain ⟨m, appended⟩ := State.qAppend_quiet quiet d
  have did := ((((s.did_at g t [.fab_]).upd (fun x => { x with wait := .none })).setFab (by simp)
    ({ s.fab with pmon := m, queues := Tab.set [] s.fab.queues q (s.queue q ++ [d]) })).setG rd 1#32).stepOn
  have done : (s.at t).qputTry g.src rd q d = ((((s.at t).idle g.src).qAppend q d).setG g.src rd 1#32).stepOn g.src := by
    unfold State.qputTry
    simp only [on, hk, full, not_true_eq_false, or_self, Bool.false_eq_true, if_false]
    rw [show (s.at t).updGrain g.src (fun x => { x with wait := .none }) = (s.at t).idle g.src from rfl, appended]
    exact did.afterFence ((Grain.imprecise_put _ _ _).trans hi)
  rw [done, appended] at ho
  obtain ⟨m', fab⟩ := State.fab_stepOn ((({ (s.at t).idle g.src with fab := { s.fab with
    pmon := m, queues := Tab.set [] s.fab.queues q (s.queue q ++ [d]) } } : State)).setG g.src rd 1#32) g.src
  rw [State.fab_setG] at fab
  exact ⟨_, m', ho, did, fab⟩

theorem State.waits_qputTry (hon : s.queueOn q = true) (hk : kindOk d = true) (hf : s.queueFull q = true)
    (hr : s.rdB (FB_Q_CFG q) FB_Q_CFG_FULLRF = false) :
    s.Did g t [] (fun x => { x with wait := .qput rd q d }) ((s.at t).qputTry g.src rd q d) := by
  have on : (s.at t).queueOn q = true := hon
  have full : (s.at t).queueFull q = true := hf
  have waits : (s.at t).rdB (FB_Q_CFG q) FB_Q_CFG_FULLRF = false := hr
  unfold State.qputTry
  simp only [on, hk, full, waits, not_true_eq_false, or_self, Bool.false_eq_true, if_false, if_true]
  exact State.Did.one s g t _

/-- With FULLRF 1 a full queue refuses the put and records it (R164). -/
theorem State.refused_qputTry (hon : s.queueOn q = true) (hk : kindOk d = true) (hf : s.queueFull q = true)
    (hr : s.rdB (FB_Q_CFG q) FB_Q_CFG_FULLRF = true) (hi : (s.grain g.src).imprecise = []) :
    s.Did g t [.regs_, .lost_, .led_] (fun x => (({ x with wait := .none } : Grain).put rd 0#32).next (Nat.max s.now t))
      ((s.at t).qputTry g.src rd q d) := by
  have on : (s.at t).queueOn q = true := hon
  have full : (s.at t).queueFull q = true := hf
  have refuses : (s.at t).rdB (FB_Q_CFG q) FB_Q_CFG_FULLRF = true := hr
  have did := (((((s.did_at g t [.regs_, .lost_, .led_]).upd (fun x => { x with wait := .none })).qOverflow (by simp) (by simp)
    (by simp) q g.src).setG rd 0#32).stepOn)
  unfold State.qputTry
  simp only [on, hk, full, refuses, not_true_eq_false, or_self, if_false, if_true]
  rw [did.afterFence ((Grain.imprecise_put _ _ _).trans hi)]
  exact did

/-- The outcome is that the grain has taken `d` from queue `q`, where `ds` are left, into the pair at `rd`. -/
def State.Takes (s : State) (g : GrainId) (t rd q : Nat) (d : Dword) (ds : List Dword) (o : Host.Outcome State Fault Refusal) :
    Prop :=
  ∃ u m w, o = .next u ∧ s.Did g t [.fab_] (fun x => (({ x with wait := .none } : Grain).putPair rd d).next (Nat.max s.now t)) u ∧
    u.fab = { s.fab with pmon := m, wmPosted := w, queues := Tab.set [] s.fab.queues q ds } ∧
    ∀ i, i ≠ q → Tab.get false w i = Tab.get false s.fab.wmPosted i

theorem State.takes_of_qgetTry {waits : Bool} (ho : o = .next ((s.at t).qgetTry g.src rd q waits)) (hon : s.queueOn q = true)
    (hq : s.queue q = d :: ds) : s.Takes g t rd q d ds o := by
  have on : (s.at t).queueOn q = true := hon
  obtain ⟨w, taken, others⟩ := State.qTake_cons (s := s.at t) hq
  have did := ((((s.did_at g t [.fab_]).setFab (by simp) ({ s.fab with
    queues := Tab.set [] s.fab.queues q ds, wmPosted := w })).upd (fun x => { x with wait := .none })).setPair rd d).stepOn
  unfold State.qgetTry at ho
  simp only [on, taken, not_true_eq_false, if_false] at ho
  obtain ⟨m, fab⟩ := State.fab_stepOn (((({ s.at t with fab := { s.fab with
    queues := Tab.set [] s.fab.queues q ds, wmPosted := w } } : State)).idle g.src).setPair g.src rd d) g.src
  rw [State.fab_setPair] at fab
  exact ⟨_, m, w, ho, did, fab, others⟩

theorem State.waits_qgetTry (hon : s.queueOn q = true) (hq : s.queue q = []) :
    s.Did g t [] (fun x => { x with wait := .qget rd q }) ((s.at t).qgetTry g.src rd q true) := by
  have on : (s.at t).queueOn q = true := hon
  have empty : (s.at t).qTake q = none := State.qTake_nil hq
  unfold State.qgetTry
  simp only [on, empty, not_true_eq_false, if_false, if_true]
  exact State.Did.one s g t _

/-- `qtry` reads 0 from an empty queue (R198). -/
theorem State.zeros_qgetTry (hon : s.queueOn q = true) (hq : s.queue q = []) :
    s.Did g t [] (fun x => (({ x with wait := .none } : Grain).putPair rd 0#64).next (Nat.max s.now t))
      ((s.at t).qgetTry g.src rd q false) := by
  have on : (s.at t).queueOn q = true := hon
  have empty : (s.at t).qTake q = none := State.qTake_nil hq
  unfold State.qgetTry
  simp only [on, empty, not_true_eq_false, if_false, Bool.false_eq_true]
  exact ((State.Did.one s g t _).setPair rd 0#64).stepOn

theorem State.found_waitqTry (hon : s.offIn mask = none) (hq : s.readyIn mask = some q) :
    s.Did g t [] (fun x => (({ x with wait := .none } : Grain).put rd (BitVec.ofNat 32 q)).next (Nat.max s.now t))
      ((s.at t).waitqTry g.src rd mask) := by
  have on : (s.at t).offIn mask = none := hon
  have ready : (s.at t).readyIn mask = some q := hq
  unfold State.waitqTry
  simp only [on, ready]
  exact ((State.Did.one s g t _).setG rd _).stepOn

/-- An inbox that is not empty ends a wait on queues that hold nothing (R199). -/
theorem State.posted_waitqTry (hon : s.offIn mask = none) (hq : s.readyIn mask = none) (hx : (s.grain g.src).inbox ≠ []) :
    s.Did g t [] (fun x => (({ x with wait := .none } : Grain).put rd 0xFFFFFFFF#32).next (Nat.max s.now t))
      ((s.at t).waitqTry g.src rd mask) := by
  have on : (s.at t).offIn mask = none := hon
  have ready : (s.at t).readyIn mask = none := hq
  unfold State.waitqTry
  simp only [on, ready, State.grain_at, List.isEmpty_eq_false_iff.mpr hx, Bool.false_eq_true, if_false]
  exact ((State.Did.one s g t _).setG rd _).stepOn

theorem State.waits_waitqTry (hon : s.offIn mask = none) (hq : s.readyIn mask = none) (hx : (s.grain g.src).inbox = []) :
    s.Did g t [] (fun x => { x with wait := .waitq rd mask }) ((s.at t).waitqTry g.src rd mask) := by
  have on : (s.at t).offIn mask = none := hon
  have ready : (s.at t).readyIn mask = none := hq
  unfold State.waitqTry
  simp only [on, ready, State.grain_at, hx, List.isEmpty_nil, if_true]
  exact State.Did.one s g t _

/-! ## The instructions of a ready grain -/

theorem execQput_ready {rs1 rs2 rd : Fin 32} (h : s.Ready g) (hl : rs2.val % 2 = 0)
    (ha : s.allows g.src (queueWindow ((s.gReg g.src rs1).toNat % 64)) .write = true) : execQput s g rd rs1 rs2 t =
      .next ((s.at t).qputTry g.src rd ((s.gReg g.src rs1).toNat % 64) (s.gPair g.src rs2)) :=
  (State.issue_ready h (decide_eq_true hl) (.inl rfl)).trans (congrArg _ (if_neg (not_not_intro ha)))

theorem execQget_ready {rs1 rd : Fin 32} (h : s.Ready g) (hl : rd.val % 2 = 0)
    (ha : s.allows g.src (queueWindow ((s.gReg g.src rs1).toNat % 64)) .read = true) : execQget s g rd rs1 t =
      .next ((s.at t).qgetTry g.src rd ((s.gReg g.src rs1).toNat % 64) true) :=
  (State.issue_ready h (decide_eq_true hl) (.inl rfl)).trans (congrArg _ (if_neg (not_not_intro ha)))

theorem execQtry_ready {rs1 rd : Fin 32} (h : s.Ready g) (hl : rd.val % 2 = 0)
    (ha : s.allows g.src (queueWindow ((s.gReg g.src rs1).toNat % 64)) .read = true) : execQtry s g rd rs1 t =
      .next ((s.at t).qgetTry g.src rd ((s.gReg g.src rs1).toNat % 64) false) :=
  (State.issue_ready h (decide_eq_true hl) (.inl rfl)).trans (congrArg _ (if_neg (not_not_intro ha)))

theorem execWaitq_ready {rs1 rd : Fin 32} (h : s.Ready g) (hl : rs1.val % 2 = 0)
    (ha : ∀ i, i < 64 → bit (s.gPair g.src rs1).toNat i = true → s.allows g.src (queueWindow i) .read = true) :
    execWaitq s g rd rs1 t = .next ((s.at t).waitqTry g.src rd (s.gPair g.src rs1).toNat) := by
  have allowed : (List.range 64).find? (fun i => bit ((s.at t).gPair g.src rs1).toNat i &&
      !(s.at t).allows g.src (queueWindow i) .read) = none := by
    rw [List.find?_eq_none]
    intro i hi
    simp only [Bool.and_eq_true, Bool.not_eq_true', not_and, Bool.not_eq_false]
    exact ha i (List.mem_range.mp hi)
  unfold execWaitq
  rw [State.issue_ready h (decide_eq_true hl) (.inl rfl)]
  dsimp only
  rw [allowed]
  rfl

theorem execQueueWaitResume_qput (h : (s.grain g.src).wait = .qput rd q d) :
    execQueueWaitResume s g t = .next ((s.at t).qputTry g.src rd q d) := by
  have waiting : ((s.at t).grain g.src).wait = .qput rd q d := h
  unfold execQueueWaitResume
  simp only [waiting]

theorem execQueueWaitResume_qget (h : (s.grain g.src).wait = .qget rd q) :
    execQueueWaitResume s g t = .next ((s.at t).qgetTry g.src rd q true) := by
  have waiting : ((s.at t).grain g.src).wait = .qget rd q := h
  unfold execQueueWaitResume
  simp only [waiting]

theorem execQueueWaitResume_waitq (h : (s.grain g.src).wait = .waitq rd mask) :
    execQueueWaitResume s g t = .next ((s.at t).waitqTry g.src rd mask) := by
  have waiting : ((s.at t).grain g.src).wait = .waitq rd mask := h
  unfold execQueueWaitResume
  simp only [waiting]

end

end Sys2Proof.Machine

open Sys2Proof Sys2Proof.Machine

/-- Settles O17: each instruction, and the end of its wait, is one try at the queues, and what a try comes to depends on the
queue alone. -/
theorem queueInstructions : Obligations.QueueInstructions := by
  unfold Obligations.QueueInstructions
  intro s g rd rs1 rs2 t q mask d ds n x free pair room puts takes finds window
  have found {c : Instr} (h : exec c s = .next ((s.at t).waitqTry g.src rd mask)) : finds c :=
    ⟨fun on ready => ⟨_, h, State.found_waitqTry on ready⟩, fun on empty post => ⟨_, h, State.posted_waitqTry on empty post⟩,
      fun on empty none => ⟨_, h, State.waits_waitqTry on empty none⟩⟩
  refine ⟨?qput, ?qget, ?waitq, ?putResumes, ?getResumes, ?waitqResumes⟩
  case qput =>
    rintro ready rfl allowed rfl even
    have exec := execQput_ready (t := t) (rd := rd) ready even allowed
    refine ⟨fun ⟨on, kind, room, calm, quiet⟩ => ?_, fun on kind full waits => ?_, fun on kind full refuses calm => ?_⟩
    · exact State.puts_of_qputTry exec on kind room calm quiet
    · exact ⟨_, exec, State.waits_qputTry on kind full waits⟩
    · have did := State.refused_qputTry (t := t) (rd := rd) on kind full refuses calm
      refine ⟨_, exec, did.grain, ?_⟩
      obtain fab | fab := did.fab
      · simp at fab
      · exact (congrArg (fun f : Fabric => Tab.get [] f.queues ((s.gReg g.src rs1).toNat % 64)) fab :)
  case qget =>
    rintro ready rfl allowed even on
    have get := execQget_ready (t := t) (rd := rd) ready even allowed
    have try_ := execQtry_ready (t := t) (rd := rd) ready even allowed
    exact ⟨fun held => ⟨State.takes_of_qgetTry get on held, State.takes_of_qgetTry try_ on held⟩,
      fun empty => ⟨⟨_, get, State.waits_qgetTry on empty⟩, ⟨_, try_, State.zeros_qgetTry on empty⟩⟩⟩
  case waitq =>
    rintro ready rfl even allowed
    exact found (execWaitq_ready ready even allowed)
  case putResumes =>
    rintro waiting ⟨on, kind, room, calm, quiet⟩
    exact State.puts_of_qputTry (execQueueWaitResume_qput waiting) on kind room calm quiet
  case getResumes =>
    intro waiting on held
    exact State.takes_of_qgetTry (execQueueWaitResume_qget waiting) on held
  case waitqResumes =>
    intro waiting
    exact found (execQueueWaitResume_waitq waiting)
end

section
/-!
PROOF. O18: atomics of a ready grain (R155, R197, R203).
-/

namespace Sys2Proof.Machine

/-! ## Where an atomic acts (R153, R155) -/

theorem localBytes_vec {g : GrainId} (h : g.kind = .vec) : localBytes g.src = 0x20000 := by
  unfold localBytes
  rw [grainOfSrc_src]
  cases g with
  | ctl _ => cases h
  | vec _ => rfl
  | link _ => cases h

theorem localBytes_le (src : Nat) : localBytes src ≤ 0x20000 := by
  unfold localBytes
  split <;> decide

/-- The sources of vector grains are those of region 2 (R167). -/
theorem vec_iff_region (g : GrainId) : g.src / 256 = 2 ↔ g.kind = .vec := by
  cases g with
  | ctl g => simp only [GrainId.src, GrainId.kind, reduceCtorEq, iff_false]; omega
  | vec g => simp only [GrainId.src, GrainId.kind, iff_true]; omega
  | link g => simp only [GrainId.src, GrainId.kind, reduceCtorEq, iff_false]; omega

theorem ownAddr_eq_some {src a p : Nat} (h : ownAddr src a = some p) :
    ∃ off, a = 0x08000000 + off ∧ off < localBytes src ∧ p = aliasBase src + off := by
  unfold ownAddr at h
  split at h
  · next inside =>
    exact ⟨a - 0x08000000, by omega, by omega, (Option.some.inj h).symm⟩
  · cases h

theorem ownAddr_ne_none {src off : Nat} (h : off < localBytes src) : ownAddr src (0x08000000 + off) ≠ none := by
  unfold ownAddr
  rw [if_pos (by omega)]
  exact Option.some_ne_none _

/-- The word at `p` is where grain `g` finds its address `a`: in its own memory, where its instruction memory is open to supervisor
mode alone, or in region SRAM open to programs. -/
def State.AtomicAt (s : State) (g : GrainId) (a p : Nat) : Prop :=
  (ownAddr g.src a = some p ∧ (0x08000000 + instrBytes g.src ≤ a ∨ s.super g.src = true)) ∨
    (ownAddr g.src a = none ∧ p = a ∧ placeOf a = .ram ∧ s.ramOpen a = true ∧ aliasAt a = none)

/-- A grain whose word at `a` was stored to: a store into the overlay of a vector grain marks it empty (R231). -/
def Grain.stored (x : Grain) (g : GrainId) (a : Nat) : Grain :=
  { x with overlay := if g.kind = .vec ∧ 0x0801C000 ≤ a ∧ a < 0x08020000 then 0 else x.overlay }

theorem Grain.stored_overlay (x : Grain) {g : GrainId} {off : Nat} (h : g.kind = .vec) (low : 0x1C000 ≤ off) (high : off < 0x20000) :
    x.stored g (0x08000000 + off) = { x with overlay := 0 } := by
  unfold Grain.stored
  rw [if_pos ⟨h, by omega, by omega⟩]

theorem Grain.stored_apart (x : Grain) {g : GrainId} {a : Nat} (h : ¬ (g.kind = .vec ∧ 0x0801C000 ≤ a ∧ a < 0x08020000)) :
    x.stored g a = x := by
  unfold Grain.stored
  rw [if_neg h]

section
variable {s u : State} {g : GrainId} {t rd a p : Nat} {ps : List Part} {f : Grain → Grain}

theorem State.overlayTouched_alias (u : State) {g : GrainId} {a off : Nat} (h : aliasAt a = some (g.src, off)) :
    u.overlayTouched a =
      if g.kind = .vec ∧ 0x1C000 ≤ off then u.updGrain g.src (fun x => { x with overlay := 0 }) else u := by
  unfold State.overlayTouched
  simp only [h, vec_iff_region]

theorem State.Did.overlayTouched (h : s.Did g t ps f u) (hp : s.AtomicAt g a p) :
    s.Did g t ps (fun x => (f x).stored g a) (u.overlayTouched p) := by
  rcases hp with ⟨own, -⟩ | ⟨notOwn, rfl, -, -, plain⟩
  · obtain ⟨off, rfl, inside, rfl⟩ := ownAddr_eq_some own
    have le := localBytes_le g.src
    rw [State.overlayTouched_alias u (aliasAt_own g off inside)]
    split
    · next touched =>
      exact (h.upd (fun x => { x with overlay := 0 })).as (Grain.stored_overlay _ touched.1 touched.2 (by omega)).symm
    · next apart =>
      exact h.as (Grain.stored_apart _ fun ⟨vec, low, high⟩ => apart ⟨vec, by omega⟩).symm
  · unfold State.overlayTouched
    rw [plain]
    refine h.as (Grain.stored_apart _ ?_).symm
    rintro ⟨vec, low, high⟩
    obtain ⟨off, rfl⟩ := Nat.exists_eq_add_of_le (show 0x08000000 ≤ p by omega)
    exact ownAddr_ne_none (by rw [localBytes_vec vec]; omega) notOwn

@[simp] theorem State.mem_overlayTouched (s : State) (a : Nat) : (s.overlayTouched a).mem = s.mem := by
  unfold State.overlayTouched
  split
  · split <;> rfl
  · rfl

@[simp] theorem State.fab_overlayTouched (s : State) (a : Nat) : (s.overlayTouched a).fab = s.fab := by
  unfold State.overlayTouched
  split
  · split <;> rfl
  · rfl

/-- An aligned atomic that the MPU permits, on a sound word of memory that takes one. -/
structure State.Atomic (s : State) (g : GrainId) (a p : Nat) : Prop where
  aligned : a % 4 = 0
  read : s.allows g.src a .read = true
  write : s.allows g.src a .write = true
  sound : s.sound p 4 = true
  place : s.AtomicAt g a p
  calm : (s.grain g.src).imprecise = []

/-- What an atomic leaves before its register takes the old word: the new word stored, or nothing changed. -/
def State.atomicStored (s : State) (p : Nat) : Option Nat → State
  | some v => (s.storeLE p 4 v).overlayTouched p
  | none => s

theorem State.atomic_eq {v : State → Nat → Option Nat} (h : s.Atomic g a p) : (s.at t).atomic g.src rd a v =
    ((((s.at t).atomicStored p (v (s.at t) (s.loadLE p 4))).setG g.src rd (BitVec.ofNat 32 (s.loadLE p 4))).stepOn
      g.src).afterFence g.src := by
  have read : (s.at t).allows g.src a .read = true := h.read
  have write : (s.at t).allows g.src a .write = true := h.write
  have sound : (s.at t).sound p 4 = true := h.sound
  unfold State.atomic
  simp only [h.aligned, read, write, ne_eq, not_true_eq_false, or_self, if_false]
  rcases h.place with ⟨own, open_⟩ | ⟨notOwn, rfl, ram, open_, plain⟩
  · have permitted : ¬ (a < 0x08000000 + instrBytes g.src ∧ ¬ (s.at t).super g.src = true) := fun ⟨low, task⟩ =>
      open_.elim (Nat.not_le.mpr low) task
    rw [own]
    simp only [permitted, sound, not_true_eq_false, if_false]
    rfl
  · have open_ : (s.at t).ramOpen p = true := open_
    have answers : (s.at t).memAnswers p = true := by
      unfold State.memAnswers
      rw [plain]
    rw [notOwn]
    simp only [ram, open_, answers, sound, and_self, if_true, not_true_eq_false, if_false]
    rfl

/-- An atomic that stores a word: the old one goes to its register. -/
theorem State.atomic_stores {v : State → Nat → Option Nat} {o : Host.Outcome State Fault Refusal} {w : Nat}
    (ho : o = .next ((s.at t).atomic g.src rd a v)) (h : s.Atomic g a p) (hv : v (s.at t) (s.loadLE p 4) = some w) :
    s.Stores g t p 4 w (fun x => ((x.stored g a).put rd (BitVec.ofNat 32 (s.loadLE p 4))).next (Nat.max s.now t)) o := by
  obtain ⟨did, stored⟩ := State.stored_storeLE (s := s) (g := g) (t := t) (p := p) (n := 4) (v := w)
  have did := ((did.overlayTouched h.place).setG rd (BitVec.ofNat 32 (s.loadLE p 4))).stepOn
  rw [State.atomic_eq h, hv] at ho
  refine ⟨_, ho, ?_⟩
  rw [State.atomicStored, did.afterFence ((Grain.imprecise_put _ _ _).trans h.calm)]
  refine ⟨did, (stored.congr ?_ ⟨((s.at t).storeLE p 4 w).fab.pmon, ?_⟩).stepOn⟩
  · rw [State.mem_setG, State.mem_overlayTouched]
  · rw [State.fab_setG, State.fab_overlayTouched]

/-- An atomic that stores nothing reads the word alone. -/
theorem State.atomic_reads {v : State → Nat → Option Nat} {o : Host.Outcome State Fault Refusal}
    (ho : o = .next ((s.at t).atomic g.src rd a v)) (h : s.Atomic g a p) (hv : v (s.at t) (s.loadLE p 4) = none) :
    s.Does g t [] (fun x => (x.put rd (BitVec.ofNat 32 (s.loadLE p 4))).next (Nat.max s.now t)) o := by
  have did := ((s.did_at g t []).setG rd (BitVec.ofNat 32 (s.loadLE p 4))).stepOn
  rw [State.atomic_eq h, hv] at ho
  refine ⟨_, ho, ?_⟩
  rw [State.atomicStored, did.afterFence ((Grain.imprecise_put _ _ _).trans h.calm)]
  exact did

end

/-! ## The instructions of a ready grain -/

section
variable {s : State} {g : GrainId} {t : Nat}  {rd rs1 rs2 : Fin 32}

theorem execAmoadd_ready (h : s.Ready g) : execAmoadd s g rd rs1 rs2 t = .next ((s.at t).atomic g.src rd
    (s.gReg g.src rs1).toNat (fun s v => some ((v + (s.gReg g.src rs2).toNat) % 2 ^ 32))) :=
  State.issue_ready h rfl (.inl rfl)

theorem execAmoswap_ready (h : s.Ready g) : execAmoswap s g rd rs1 rs2 t = .next ((s.at t).atomic g.src rd
    (s.gReg g.src rs1).toNat (fun s _ => some (s.gReg g.src rs2).toNat)) :=
  State.issue_ready h rfl (.inl rfl)

theorem execAmocas_ready (h : s.Ready g) (even : rs2.val % 2 = 0) : execAmocas s g rd rs1 rs2 t =
    .next ((s.at t).atomic g.src rd (s.gReg g.src rs1).toNat (fun s v =>
      if v = (s.gReg g.src rs2).toNat then some (s.gReg g.src (rs2 + 1)).toNat else none)) :=
  State.issue_ready h (decide_eq_true even) (.inl rfl)

end

end Sys2Proof.Machine

open Sys2Proof Sys2Proof.Machine

/-- Settles O18: the three atomics are one read and one store of the word, and differ in the word stored. -/
theorem atomicsReadAndReplace : Obligations.AtomicsReadAndReplace := by
  unfold Obligations.AtomicsReadAndReplace
  intro s g rd rs1 rs2 t p ready calm a b c old own sram kept f aligned read write sound place
  have atomic : s.Atomic g a p := ⟨aligned, read, write, sound, place, calm⟩
  have load : s.loadLE p 4 = old.toNat := State.loadLE_four s p
  have word : BitVec.ofNat 32 (s.loadLE p 4) = old := by rw [load, BitVec.ofNat_toNat, BitVec.setWidth_eq]
  have stores {o : Host.Outcome State Fault Refusal} {v : State → Nat → Option Nat} {w : Nat}
      (ho : o = .next ((s.at t).atomic g.src rd a v)) (hv : v (s.at t) old.toNat = some w) : s.Stores g t p 4 w f o := by
    have h := State.atomic_stores ho atomic (load ▸ hv)
    rw [word] at h
    exact h
  refine ⟨?amoadd, ?amoswap, ?amocas, ?amocasFails⟩
  case amoadd =>
    rw [BitVec.toNat_add]
    exact stores (execAmoadd_ready ready) rfl
  case amoswap => exact stores (execAmoswap_ready ready) rfl
  case amocas =>
    intro even equal
    exact stores (execAmocas_ready ready even) (if_pos (congrArg BitVec.toNat equal))
  case amocasFails =>
    intro even differs
    have h := State.atomic_reads (execAmocas_ready (t := t) (rd := rd) ready even) atomic
      (if_neg fun e => differs (BitVec.eq_of_toNat_eq (load.symm.trans e)))
    rw [word] at h
    exact h
end

section
/-!
PROOF. O34: what the fault controller, the memory scrub, the monitors, the deadlines and the watchdog do (R158, R161, R162, R166,
R168 to R171, R174 to R176).
-/

namespace Sys2Proof.Machine

/-! ## The latest fault and its flag (R168) -/

/-- FB_FLT_LAST tells of a fault: its source, class, level and code. -/
def State.LastFault (u : State) (src cls level code : Nat) : Prop :=
  u.rd FB_FLT_LAST FB_FLT_LAST_SRC = src % 4096 ∧ u.rd FB_FLT_LAST FB_FLT_LAST_CLASS = cls ∧
    u.rd FB_FLT_LAST FB_FLT_LAST_LEVEL = level ∧ u.rd FB_FLT_LAST FB_FLT_LAST_CODE = code

/-- The flag of a class of faults, and its count. -/
def faultFlag (cls : Nat) : Fld := if cls = 0 then FB_FLT_EVT_CORR else if cls = 1 then FB_FLT_EVT_RECOV else FB_FLT_EVT_FATAL
def faultCount (cls : Nat) : Fld :=
  if cls = 0 then FB_FLT_CNT0_CORRN else if cls = 1 then FB_FLT_CNT0_RECOVN else FB_FLT_CNT0_FATALN

/-- FB_FLT_LAST set to a fault. -/
def State.setLastFault (s : State) (src code cls level : Nat) : State :=
  (((s.wr FB_FLT_LAST FB_FLT_LAST_SRC src).wr FB_FLT_LAST FB_FLT_LAST_CLASS cls).wr FB_FLT_LAST FB_FLT_LAST_LEVEL level).wr
    FB_FLT_LAST FB_FLT_LAST_CODE code

/-- A part of the state that is neither a register nor the ledger's. -/
structure BesideRegs {α : Type} (p : State → α) : Prop where
  regs : ∀ (s : State) r, p { s with regs := r } = p s
  led : ∀ (s : State) l, p { s with led := l } = p s

namespace BesideRegs

variable {α : Type} {p : State → α} (h : BesideRegs p) {s : State}
include h

theorem wr (a : Nat) (f : Fld) (v : Nat) : p (s.wr a f v) = p s := h.regs _ _

theorem hit (a : Nat) (f : Fld) (c : Nat) (k : Fld) : p (s.hit a f c k) = p s := (h.wr _ _ _).trans (h.wr _ _ _)

theorem raise (src code : Nat) (ws : List Nat) : p (s.raise src code ws) = p s := by
  unfold State.raise
  dsimp only
  split
  · exact h.led _ _
  · exact (h.hit _ _ _ _).trans (h.led _ _)

end BesideRegs

section
variable (s : State) (src code cls level : Nat) (ws : List Nat)

theorem State.fltNote_eq : s.fltNote src code cls level ws = ((s.setLastFault src code cls level).hit FB_FLT_EVT (faultFlag cls)
    FB_FLT_CNT0 (faultCount cls)).raise srcFault code (src :: ws) := by
  unfold State.fltNote State.setLastFault faultFlag faultCount
  split_ifs <;> rfl

variable {s src code cls level ws}

theorem BesideRegs.fltNote {α : Type} {p : State → α} (h : BesideRegs p) : p (s.fltNote src code cls level ws) = p s := by
  rw [State.fltNote_eq, h.raise, h.hit]
  exact (h.wr _ _ _).trans ((h.wr _ _ _).trans ((h.wr _ _ _).trans (h.wr _ _ _)))

theorem State.lastFault_setLastFault (hcls : cls < 4) (hlevel : level < 4) (hcode : code < 65536) :
    (s.setLastFault src code cls level).LastFault src cls level code := by
  have apart {z : State} {f k : Fld} {v : Nat} (hf : f.lo + f.width ≤ 32) (hk : k.lo + k.width ≤ 32)
      (h : f.lo + f.width ≤ k.lo ∨ k.lo + k.width ≤ f.lo) : (z.wr FB_FLT_LAST f v).rd FB_FLT_LAST k = z.rd FB_FLT_LAST k :=
    State.rd_wr_apart _ _ _ _ _ hf hk h
  unfold State.setLastFault
  refine ⟨?_, ?_, ?_, ?_⟩
  · rw [apart (by decide) (by decide) (by decide), apart (by decide) (by decide) (by decide),
      apart (by decide) (by decide) (by decide), State.rd_wr_same _ _ _ _ (by decide)]
    rfl
  · rw [apart (by decide) (by decide) (by decide), apart (by decide) (by decide) (by decide),
      State.rd_wr_same _ _ _ _ (by decide)]
    exact Nat.mod_eq_of_lt hcls
  · rw [apart (by decide) (by decide) (by decide), State.rd_wr_same _ _ _ _ (by decide)]
    exact Nat.mod_eq_of_lt hlevel
  · rw [State.rd_wr_same _ _ _ _ (by decide)]
    exact Nat.mod_eq_of_lt hcode

theorem State.lastFault_fltNote (hcls : cls < 4) (hlevel : level < 4) (hcode : code < 65536) :
    (s.fltNote src code cls level ws).LastFault src cls level code := by
  have rd (f : Fld) : (s.fltNote src code cls level ws).rd FB_FLT_LAST f =
      (s.setLastFault src code cls level).rd FB_FLT_LAST f := by
    rw [State.fltNote_eq, State.rd_raise _ _ _ _ _ (by decide) (by decide), State.rd_hit_ne _ _ _ _ (by decide) (by decide)]
  obtain ⟨hsrc, hcls, hlevel, hcode⟩ := State.lastFault_setLastFault (s := s) (src := src) hcls hlevel hcode
  exact ⟨(rd _).trans hsrc, (rd _).trans hcls, (rd _).trans hlevel, (rd _).trans hcode⟩

theorem faultFlag_fits (cls : Nat) : (faultFlag cls).lo + (faultFlag cls).width ≤ 32 ∧ (faultFlag cls).width = 1 := by
  unfold faultFlag
  split_ifs <;> decide

theorem State.flag_fltNote : (s.fltNote src code cls level ws).rdB FB_FLT_EVT (faultFlag cls) = true := by
  rw [State.fltNote_eq, State.rdB_raise _ _ _ _ _ (by decide) (by decide)]
  exact State.rdB_hit_same _ _ _ (by decide) (faultFlag_fits cls).1 (faultFlag_fits cls).2

/-- A register that a fault noted does not change. -/
def BesideFaults (a : Nat) : Prop :=
  a ≠ FB_FLT_LAST ∧ a ≠ FB_FLT_EVT ∧ a ≠ FB_FLT_CNT0 ∧ a ≠ LEDGER_EVT ∧ a ≠ LEDGER_CNT

theorem State.reg_fltNote {a : Nat} (h : BesideFaults a) : (s.fltNote src code cls level ws).reg a = s.reg a := by
  obtain ⟨last, evt, cnt, ledEvt, ledCnt⟩ := h
  rw [State.fltNote_eq, State.reg_raise _ _ _ _ ledEvt ledCnt, State.reg_hit_ne _ _ _ evt cnt]
  unfold State.setLastFault
  rw [State.reg_wr_ne _ _ _ last, State.reg_wr_ne _ _ _ last, State.reg_wr_ne _ _ _ last, State.reg_wr_ne _ _ _ last]

theorem unitLevel_lt (u : Nat) : unitLevel u < 4 := by
  unfold unitLevel
  split_ifs <;> decide

/-- A unit that escalates shows in ESCAL. -/
theorem State.escal_escalNote {u : Nat} : (s.escalNote u 1 0).rdB FB_FLT_EVT FB_FLT_EVT_ESCAL = true := by
  unfold State.escalNote
  rw [State.fltNote_eq, State.rdB_raise _ _ _ _ _ (by decide) (by decide)]
  unfold State.rdB State.hit State.setLastFault
  dsimp only
  rw [State.rd_wr_ne _ _ _ _ (by decide), State.rd_wr_apart _ _ _ _ _ (by decide) (by decide) (by decide),
    State.rd_wr_ne _ _ _ _ (by decide), State.rd_wr_ne _ _ _ _ (by decide), State.rd_wr_ne _ _ _ _ (by decide),
    State.rd_wr_ne _ _ _ _ (by decide)]
  exact State.rdB_hit_same _ _ _ (by decide) (by decide) (by decide)

end

/-! ## Memory errors and beats (R158, R161, R162) -/

theorem BesideRegs.fab : BesideRegs State.fab := ⟨fun _ _ => rfl, fun _ _ => rfl⟩
theorem BesideRegs.grains : BesideRegs State.grains := ⟨fun _ _ => rfl, fun _ _ => rfl⟩
theorem BesideRegs.mem : BesideRegs State.mem := ⟨fun _ _ => rfl, fun _ _ => rfl⟩

theorem State.eccCorrected_eq (s : State) (a : Nat) :
    ∃ m, s.eccCorrected a = ({ s with fab := { s.fab with pmon := m } } : State).fltNote (memUnit a) EV_FB_ECC_CORR 0 0 [a] := by
  unfold State.eccCorrected
  dsimp only
  split
  · obtain ⟨m, e⟩ := s.count_eq (0x3F0 + (memUnit a / 256 - 1)) 1
    exact ⟨m, by rw [e]⟩
  · exact ⟨s.fab.pmon, rfl⟩

theorem State.eccFailed_above (s : State) {a : Nat} (h : unitLevel (memUnit a) ≠ 0) :
    s.eccFailed a = (s.setPoison a true).fltNote (memUnit a) EV_FB_ECC_UNCORR 1 (unitLevel (memUnit a)) [a] := if_neg h

/-- A scrub pass ended now. -/
def State.sramScrubbed (s : State) : State := { s with fab := { s.fab with sramScrubAt := s.now } }

theorem execSramScrub_corrected (s : State) (a t : Nat) :
    execSramScrub s [a] [] t = .next ((s.at t).eccCorrected a).sramScrubbed := rfl

theorem execSramScrub_failed (s : State) (a t : Nat) :
    execSramScrub s [] [a] t = .next ((s.at t).eccFailed a).sramScrubbed := rfl

theorem execBeatParityFail_again (s : State) (x t : Nat) {k : Fin 5} (h : k.val < 4) : ∃ m, execBeatParityFail s x k t =
    .next (({ s.at t with fab := { s.fab with pmon := m } } : State).fltNote x EV_FB_REPLAY 0 (unitLevel x) []) := by
  obtain ⟨m, e⟩ := (s.at t).count_eq (linkMon x 5) (Nat.min k.val 3)
  refine ⟨m, ?_⟩
  unfold execBeatParityFail
  dsimp only
  rw [if_pos h, e]
  rfl

theorem execVc0BeatLost_starts (x t : Nat) {s : State} (h : s.Clear) :
    ∃ z, execVc0BeatLost s x t = .next (State.preseqStart z 6) := by
  obtain ⟨hr, hp, hq, hc⟩ := h
  refine ⟨(s.at t).fltNote x EV_FB_VC0_LOST 3 3 [], congrArg Host.Outcome.next ?_⟩
  have sv : BesideRegs State.sv := ⟨fun _ _ => rfl, fun _ _ => rfl⟩
  have trip : BesideRegs State.trip := ⟨fun _ _ => rfl, fun _ _ => rfl⟩
  refine State.requestReset_start (by decide) ?_ ?_ ?_ (.inl ?_)
  · rw [sv.fltNote]
    exact hr
  · rw [trip.fltNote]
    exact hp
  · rw [trip.fltNote]
    exact hq
  · rw [State.fltNote_eq, State.commit_raise]
    exact hc


/-! ## Units and their grains (R168 to R171) -/

theorem State.grain_of_grains {s u : State} (h : u.grains = s.grains) (x : Nat) : u.grain x = s.grain x := by
  unfold State.grain
  rw [h]

theorem State.unit_of_fab {s u : State} (h : u.fab = s.fab) (x : Nat) : u.unit x = s.unit x := by
  unfold State.unit
  rw [h]

theorem State.unit_updUnit_same (s : State) (u : Nat) (f : FaultUnit → FaultUnit) : (s.updUnit u f).unit u = f (s.unit u) :=
  Tab.get_set_same _ _ _ _

theorem BesideRegs.overlapNote {α : Type} {p : State → α} (h : BesideRegs p) {s : State} {u : Nat} :
    p (s.overlapNote u) = p s := by
  unfold State.overlapNote
  split
  · rfl
  · exact (h.raise _ _ _).trans (h.hit _ _ _ _)

theorem BesideRegs.escalNote {α : Type} {p : State → α} (h : BesideRegs p) {s : State} {u cls level : Nat} :
    p (s.escalNote u cls level) = p s := h.fltNote.trans (h.hit _ _ _ _)

/-- Ending the recoveries of units changes the fabric alone. -/
theorem recoveries_end_keeps {α : Type} {p : State → α} (h : ∀ (s : State) f, p { s with fab := f } = p s) (l : List Nat)
    (s : State) : p (l.foldl (fun s v => s.updUnit v (fun x => { x with phase := .none })) s) = p s :=
  foldl_keeps p (f := fun s v => s.updUnit v (fun x => { x with phase := .none })) (fun s _ => h s _) l s

theorem State.grains_waitUnit (s : State) (u wait : Nat) : (s.waitUnit u wait).grains = s.grains := by
  unfold State.waitUnit
  dsimp only
  exact recoveries_end_keeps (p := State.grains) (fun _ _ => rfl) _ _

/-- A grain quarantined: it runs nothing, waits for nothing and its inbox is empty (R169). -/
def Grain.quarantined (x : Grain) : Grain := { x with run := .quarantined, wait := .none, inbox := [] }

theorem State.quarantine_started {s : State} {g : Nat} (h : (s.grain g).run ≠ .unstarted) :
    s.quarantine g = (s.dropHeld g).updGrain g Grain.quarantined := if_neg h

theorem State.grain_quarantine {s : State} {g : Nat} (h : (s.grain g).run ≠ .unstarted) :
    (s.quarantine g).grain g = (s.grain g).quarantined := by
  rw [State.quarantine_started h, State.grain_updGrain_same]
  rfl

/-- Whatever follows it in a unit's records, a fault of a grain quarantines it. -/
theorem State.grain_grainFault {s : State} {g : Nat} (hg : (grainOfSrc g).isSome = true) (h : (s.grain g).run ≠ .unstarted) :
    (s.grainFault g).grain g = (s.grain g).quarantined := by
  have same : (((s.overlapNote g).countFault g (60 * sec)).2).grains = s.grains := BesideRegs.grains.overlapNote
  have grain : (((s.overlapNote g).countFault g (60 * sec)).2).grain g = s.grain g := State.grain_of_grains same g
  have quarantined := State.grain_quarantine (s := ((s.overlapNote g).countFault g (60 * sec)).2) (g := g) (by rw [grain]; exact h)
  rw [grain] at quarantined
  have of_grains {z : State} (hz : z.grains = ((((s.overlapNote g).countFault g (60 * sec)).2).quarantine g).grains) :
      z.grain g = (s.grain g).quarantined := (State.grain_of_grains hz g).trans quarantined
  unfold State.grainFault
  rw [if_neg (by simp [Option.isSome_iff_ne_none.mp hg])]
  dsimp only
  split_ifs
  · exact of_grains BesideRegs.grains.escalNote
  · exact quarantined
  · exact of_grains (State.grains_waitUnit _ _ _)
  · exact of_grains (State.grains_waitUnit _ _ _)

theorem execGrainLockup_quarantines {s : State} {g : GrainId} {t : Nat} (run : (s.grain g.src).run = .running)
    (wait : (s.grain g.src).wait = .none) (due : (s.grain g.src).retired + 2 ^ 20 * islandCycle g.src ≤ Nat.max s.now t) :
    ∃ u, execGrainLockup s g.src t = .next u ∧ u.grain g.src = (s.grain g.src).quarantined := by
  have known : (grainOfSrc g.src).isSome = true := by rw [grainOfSrc_src]; rfl
  have same : ((s.at t).fltNote g.src EV_FB_QUARANTINE 1 0 []).grain g.src = s.grain g.src :=
    State.grain_of_grains BesideRegs.grains.fltNote _
  refine ⟨((s.at t).fltNote g.src EV_FB_QUARANTINE 1 0 []).grainFault g.src, if_pos ⟨known, run, wait, due⟩, ?_⟩
  rw [State.grain_grainFault known (by rw [same, run]; decide), same]

theorem execRecoveryWaitEnd_restarts {s : State} {x t due : Nat} (h : (s.unit x).phase = .waiting due)
    (hd : due ≤ Nat.max s.now t) (hx : unitLevel x ≠ 1) : execRecoveryWaitEnd s x t =
      .next ((s.at t).updUnit x (fun y => { y with phase := .restarting (Nat.max s.now t) })) := by
  have waiting : ((s.at t).unit x).phase = .waiting due := h
  have past : due ≤ (s.at t).now := hd
  unfold execRecoveryWaitEnd
  simp only [waiting, past, hx, if_true, if_false]
  rfl

/-! ## The restart of a grain (R169) -/

theorem State.byte_clearBytes (s : State) (lo hi a : Nat) :
    (s.clearBytes lo hi).byte a = if lo ≤ a ∧ a < hi then memDefault a else s.byte a := by
  have cleared : (s.clearBytes lo hi).byte a =
      if (!(decide (lo ≤ a) && decide (a < hi))) = true then s.byte a else memDefault a :=
    Tab.get_filter_key (memDefault a) (fun b => !(decide (lo ≤ b) && decide (b < hi))) s.mem a
  rw [cleared]
  by_cases inside : lo ≤ a ∧ a < hi
  · simp [inside]
  · rw [if_neg inside, if_pos]
    simp only [Bool.not_eq_true', Bool.and_eq_false_iff, decide_eq_false_iff_not]
    omega

/-- Clearing its data memory leaves no poisoned word in the instruction memory of a grain that had none. -/
theorem State.instrPoisoned_clearData {s : State} {g : Nat} (h : s.instrPoisoned g = false) :
    (s.clearData g).instrPoisoned g = false := by
  unfold State.instrPoisoned at h ⊢
  rw [List.any_eq_false] at h ⊢
  exact fun p hp => h p (List.mem_filter.mp hp).1

theorem State.mustEnumerate_clearData (s : State) (g : Nat) : (s.clearData g).mustEnumerate g = s.mustEnumerate g := rfl

/-- A grain that starts again: its data memory is clear, it is at its reset vector, and it is in recovery no more. -/
def State.restarted (s : State) (g : Nat) : State :=
  (((s.clearData g).grainInit g .running).updUnit g (fun u => { u with phase := .none }))

theorem State.restartGrain_sound {s : State} {g : Nat} (run : (s.grain g).run = .quarantined) (phase : (s.unit g).phase ≠ .stays)
    (sound : s.instrPoisoned g = false) (link : s.mustEnumerate g = false) : s.restartGrain g = s.restarted g := by
  unfold State.restartGrain
  rw [if_neg (by simp [run, phase])]
  dsimp only
  rw [State.instrPoisoned_clearData sound, State.mustEnumerate_clearData, link]
  rfl

theorem State.grain_grainInit (s : State) (g : Nat) (r : Run) : (s.grainInit g r).grain g = { run := r, retired := s.now } :=
  Tab.get_set_same _ _ _ _

theorem State.byte_restarted (s : State) {g a : Nat} (low : aliasBase g + instrBytes g ≤ a)
    (high : a < aliasBase g + localBytes g) :
    (s.restarted g).byte a = memDefault a :=
  (s.byte_clearBytes (aliasBase g + instrBytes g) (aliasBase g + localBytes g) a).trans (if_pos ⟨low, high⟩)

theorem execRestartComplete_grain {s : State} {g t t0 : Nat} (phase : (s.unit g).phase = .restarting t0)
    (ended : s.sourceActive g = false) (level : unitLevel g = 0) (run : (s.grain g).run = .quarantined)
    (sound : s.instrPoisoned g = false) (link : s.mustEnumerate g = false) :
    execRestartComplete s g t = .next ((s.at t).restarted g) := by
  have restarting : ((s.at t).unit g).phase = .restarting t0 := phase
  have ended : (s.at t).sourceActive g = false := ended
  unfold execRestartComplete
  simp only [restarting, ended, level, if_true, Bool.false_eq_true, if_false]
  rw [State.restartGrain_sound (s := s.at t) run (by rw [restarting]; exact nofun) sound link]

/-! ## A source active too long (R168, R171) -/

theorem State.escalate_grain {s : State} {x : Nat} (h : unitLevel x = 0) :
    s.escalate x = ((s.escalNote x 1 0).quarantine x).updUnit x (fun y => { y with phase := .stays }) := by
  unfold State.escalate
  simp only [h]

theorem State.escalate_stays {s : State} {x : Nat} (h : unitLevel x = 0) (run : (s.grain x).run ≠ .unstarted) :
    ((s.escalate x).unit x).phase = .stays ∧ ((s.escalate x).unit x).active = (s.unit x).active ∧
      ((s.escalate x).grain x).run = .quarantined ∧ (s.escalate x).rdB FB_FLT_EVT FB_FLT_EVT_ESCAL = true := by
  have grain : (s.escalNote x 1 0).grain x = s.grain x := State.grain_of_grains BesideRegs.grains.escalNote _
  have unit : (s.escalNote x 1 0).unit x = s.unit x := State.unit_of_fab BesideRegs.fab.escalNote _
  have escal := State.escal_escalNote (s := s) (u := x)
  rw [State.escalate_grain h]
  generalize s.escalNote x 1 0 = z at grain unit escal ⊢
  rw [State.quarantine_started (by rw [grain]; exact run), State.unit_updUnit_same]
  exact ⟨rfl, (congrArg FaultUnit.active unit :),
    congrArg Grain.run (State.grain_updGrain_same (z.dropHeld x) x Grain.quarantined), escal⟩

theorem execFaultSourceTimeout_escalates {s : State} {x c t0 t : Nat} (active : (c, t0) ∈ (s.unit x).active)
    (due : t0 + s.rd FB_FLT_CFG FB_FLT_CFG_TACTMAX * 10 * ms ≤ Nat.max s.now t) : execFaultSourceTimeout s x t =
      .next (((s.at t).updUnit x (fun y => { y with active := [] })).escalate x) :=
  if_pos (List.any_eq_true.mpr ⟨(c, t0), active, decide_eq_true due⟩)

/-! ## Held descriptors (R166) -/

/-- The descriptor held under a key is held no more. -/
def State.heldDropped (s : State) (key : Nat) : State := { s with fab := { s.fab with held := Tab.set none s.fab.held key none } }

/-- A held descriptor delivered to its grain, and recorded. -/
def State.heldDelivered (s : State) (src dest : Nat) (h : Held) : State :=
  ((s.inboxPush dest h.out).heldDropped (src * 4096 + dest)).raise srcFault EV_FB_INBOX_HELD [src, h.merges]

section
variable (s : State) (src dest : Nat) (h : Held)

theorem State.grains_heldDelivered : (s.heldDelivered src dest h).grains = (s.inboxPush dest h.out).grains := by
  unfold State.heldDelivered
  rw [State.grains_raise]
  rfl

theorem State.held_heldDelivered : Tab.get none (s.heldDelivered src dest h).fab.held (src * 4096 + dest) = none := by
  unfold State.heldDelivered
  rw [State.fab_raise]
  exact Tab.get_set_same none s.fab.held (src * 4096 + dest) none

theorem State.raised_heldDelivered (t : Nat) :
    s.Raised ((s.at t).heldDelivered src dest h) srcFault EV_FB_INBOX_HELD [src, h.merges] :=
  State.raised_of_raise (s' := ((s.at t).inboxPush dest h.out).heldDropped (src * 4096 + dest)) rfl rfl (State.ns_raise ..)

end

theorem execInboxHoldRelease_room {s : State} {src dest t : Nat} {h : Held} (hsrc : src < 4096) (hdest : dest < 4096)
    (held : Tab.get none s.fab.held (src * 4096 + dest) = some h)
    (room : (s.grain dest).inbox.length < (if h.desc.w0.toNat / 2 ^ 28 = 2 then 16 else 14)) :
    execInboxHoldRelease s src dest t = .next ((s.at t).heldDelivered src dest h) := by
  have held : Tab.get none (s.at t).fab.held (src * 4096 + dest) = some h := held
  unfold execInboxHoldRelease
  simp only [Nat.mod_eq_of_lt hsrc, Nat.mod_eq_of_lt hdest, held]
  exact if_pos room

/-! ## Performance counters (R174) -/

/-- A saturating count raised by one reads so. -/
theorem State.rd_bump (s : State) (c : Nat) {f : Fld} (h : f.lo + f.width ≤ 32) :
    (s.bump c f).rd c f = satAdd (s.rd c f) 1 f.max := by
  have small : satAdd (s.rd c f) 1 f.max < 2 ^ f.width :=
    Nat.lt_of_le_of_lt (Nat.min_le_right _ _) (Nat.sub_lt (by positivity) Nat.one_pos)
  unfold State.bump
  rw [State.rd_wr_same _ _ _ _ h]
  exact Nat.mod_eq_of_lt small

/-- A counter that wraps goes on from what is left, and OVFN counts the wrap. -/
def State.pmonWrapped (s : State) (k left : Nat) : State :=
  (({ s with fab := { s.fab with pmon := Tab.set 0 s.fab.pmon k left } } : State).bump (FB_PMON_CNTHI k)
    FB_PMON_CNTHI_OVFN).raise srcPmon EV_FB_PMON_OVF [k]

section
variable (s : State) (k : Fin 64) (left : Nat)

theorem State.rd_fabric (f : Fabric) (a : Nat) (k : Fld) : ({ s with fab := f } : State).rd a k = s.rd a k := rfl

theorem State.rdB_pmonWrapped_sel (f : Fld) : (s.pmonWrapped k left).rdB (FB_PMON_SEL k) f = s.rdB (FB_PMON_SEL k) f := by
  have low : FB_PMON_SEL k < 0x46000000 := by unfold FB_PMON_SEL; omega
  have apart : FB_PMON_SEL k ≠ FB_PMON_CNTHI k := by unfold FB_PMON_SEL FB_PMON_CNTHI; omega
  exact (State.rdB_raise_low _ _ _ _ _ low).trans (State.rdB_wr_ne _ _ _ _ apart)

theorem State.ovfn_pmonWrapped : (s.pmonWrapped k left).rd (FB_PMON_CNTHI k) FB_PMON_CNTHI_OVFN =
    satAdd (s.rd (FB_PMON_CNTHI k) FB_PMON_CNTHI_OVFN) 1 255 := by
  have low : FB_PMON_CNTHI k < 0x46000000 := by unfold FB_PMON_CNTHI; omega
  unfold State.pmonWrapped
  rw [State.rd_raise_low _ _ _ _ _ low, State.rd_bump _ _ (by decide), State.rd_fabric]
  rfl

theorem State.pmon_pmonWrapped : Tab.get 0 (s.pmonWrapped k left).fab.pmon k.val = left := by
  unfold State.pmonWrapped
  rw [State.fab_raise, State.fab_bump]
  exact Tab.get_set_same 0 s.fab.pmon k.val left

theorem State.grains_pmonWrapped : (s.pmonWrapped k left).grains = s.grains := by
  unfold State.pmonWrapped
  rw [State.grains_raise, State.grains_bump]

end

theorem execPmonWrap_wraps {s : State} {k : Fin 64} {t left : Nat} (h : 2 ^ 48 ≤ Tab.get 0 s.fab.pmon k.val)
    (rest : Tab.get 0 s.fab.pmon k.val - 2 ^ 48 = left) (quiet : s.rdB (FB_PMON_SEL k) FB_PMON_SEL_OVFPOST = false) :
    execPmonWrap s k t = .next ((s.at t).pmonWrapped k left) := by
  have silent : ¬ ((s.at t).pmonWrapped k left).rdB (FB_PMON_SEL k) FB_PMON_SEL_OVFPOST = true := by
    rw [State.rdB_pmonWrapped_sel]
    exact Bool.eq_false_iff.mp quiet
  unfold execPmonWrap
  simp only [State.fab_at, Nat.not_lt.mpr h, rest, if_false]
  exact if_neg silent

/-! ## Deadlines (R175) -/

/-- A deadline missed by control grain `g`: its descriptor, its bit of MISS with the count, and its event. -/
def State.missNoted (s : State) (g slot due : Nat) : State :=
  (((s.postReserved 2 srcDl slot (ctlSrc g) (due / 1000) 0).hit FB_DL_STAT ⟨g, g⟩ (if g < 4 then FB_DL_CNT0 else FB_DL_CNT1)
    ⟨g % 4 * 8 + 7, g % 4 * 8⟩).count (monSrc (ctlSrc g) 7) 1).raise srcDl EV_FB_DL_MISS [ctlSrc g, slot]

theorem State.reg_postReserved (s : State) (cls src code dest a b x : Nat) :
    (s.postReserved cls src code dest a b).reg x = s.reg x := by
  unfold State.postReserved
  dsimp only
  split_ifs <;> rfl

theorem State.esc_missNoted (s : State) (g : Fin 8) (slot due : Nat) :
    (s.missNoted g slot due).reg (FB_DL_ESC (g / 2)) = s.reg (FB_DL_ESC (g / 2)) := by
  have low : FB_DL_ESC (g / 2) < FB_DL_STAT := by unfold FB_DL_ESC FB_DL_STAT; omega
  have ledEvt := Nat.ne_of_lt (Nat.lt_trans low (by decide : FB_DL_STAT < LEDGER_EVT))
  have ledCnt := Nat.ne_of_lt (Nat.lt_trans low (by decide : FB_DL_STAT < LEDGER_CNT))
  unfold State.missNoted
  rw [State.reg_raise _ _ _ _ ledEvt ledCnt, State.reg_count, State.reg_hit_ne _ _ _ (Nat.ne_of_lt low),
    State.reg_postReserved]
  split
  · exact Nat.ne_of_lt (Nat.lt_trans low (by decide))
  · exact Nat.ne_of_lt (Nat.lt_trans low (by decide))

/-- A miss of a slot that is not called region-fatal is a recoverable fault. -/
theorem State.deadlineMissed_mild {s : State} {g : Fin 8} {slot due : Nat}
    (mild : bit (s.reg (FB_DL_ESC (g / 2))).toNat (g % 2 * 16 + slot) = false) : s.deadlineMissed (ctlSrc g) slot due =
      (s.missNoted g slot due).fltNote (ctlSrc g) EV_FB_DL_MISS 1 0 [slot] := by
  have place : ctlSrc g / 16 % 16 * 4 + ctlSrc g % 4 = g := by unfold ctlSrc; omega
  have mild : ¬ bit ((s.missNoted g slot due).reg (FB_DL_ESC (g / 2))).toNat (g % 2 * 16 + slot) = true := by
    rw [State.esc_missNoted]
    exact Bool.eq_false_iff.mp mild
  unfold State.missNoted at mild
  unfold State.deadlineMissed State.missNoted
  rw [place]
  exact if_neg mild

theorem State.miss_missNoted (s : State) (g : Fin 8) (slot due : Nat) : (s.missNoted g slot due).rd FB_DL_STAT ⟨g, g⟩ = 1 := by
  have one : (⟨g, g⟩ : Fld).width = 1 := Nat.add_sub_cancel_left g.val 1
  have flag := State.rdB_hit_same (s.postReserved 2 srcDl slot (ctlSrc g) (due / 1000) 0) (a := FB_DL_STAT)
    (c := if g.val < 4 then FB_DL_CNT0 else FB_DL_CNT1) ⟨g, g⟩ ⟨g % 4 * 8 + 7, g % 4 * 8⟩ (by split <;> decide)
    (by rw [one]; exact Nat.le_trans g.isLt (by decide)) one
  unfold State.missNoted
  rw [State.rd_raise _ _ _ _ _ (by decide) (by decide), State.rd_count]
  exact eq_of_beq flag

/-- Beside its inbox, a grain stands as it was. -/
theorem State.grain_missNoted (s : State) (g slot due x : Nat) :
    { (s.missNoted g slot due).grain x with inbox := [] } = { s.grain x with inbox := [] } := by
  have posted := (@State.postReserved_kept (· ≠ Part.grains_) ⟨nofun⟩ ⟨nofun⟩ s s 2 srcDl slot (ctlSrc g) (due / 1000) 0
    (Kept.refl s)).same .grains_ (· rfl) x
  unfold State.missNoted
  rw [State.grain_raise, State.grain_count, State.grain_hit]
  exact posted

/-- The slot of a grain marked as missed. -/
def State.slotMissed (s : State) (src slot : Nat) (d : DlSlot) : State :=
  s.updGrain src (fun x => { x with dl := Tab.set {} x.dl slot { d with missed := true } })

theorem execDeadlineMiss_notes {s : State} {g : Fin 8} {k : Fin 16} {t : Nat} {d : DlSlot}
    (slot : Tab.get {} (s.grain (ctlSrc g)).dl k.val = d) (armed : d.armed = true) (missed : d.missed = false)
    (due : d.due ≤ Nat.max s.now t)
    (mild : bit (s.reg (FB_DL_ESC (g.val / 2))).toNat (g.val % 2 * 16 + k.val) = false) : execDeadlineMiss s g k t =
      .next ((((s.at t).slotMissed (ctlSrc g) k d).missNoted g k d.due).fltNote (ctlSrc g) EV_FB_DL_MISS 1 0 [k.val]) := by
  subst slot
  have noted := State.deadlineMissed_mild (s := (s.at t).slotMissed (ctlSrc g) k (Tab.get {} (s.grain (ctlSrc g)).dl k.val))
    (due := (Tab.get {} (s.grain (ctlSrc g)).dl k.val).due) mild
  have past := Nat.not_lt.mpr due
  exact (if_neg (by simp [armed, missed, past])).trans (congrArg Host.Outcome.next noted)

theorem State.grain_deadlineMiss (s : State) (g k code : Nat) (d : DlSlot) (ws : List Nat) :
    (Tab.get {} ((((s.slotMissed (ctlSrc g) k d).missNoted g k d.due).fltNote (ctlSrc g) code 1 0 ws).grain (ctlSrc g)).dl
      k).missed = true ∧
    ((((s.slotMissed (ctlSrc g) k d).missNoted g k d.due).fltNote (ctlSrc g) code 1 0 ws).grain (ctlSrc g)).run =
      (s.grain (ctlSrc g)).run := by
  have same := State.grain_missNoted (s.slotMissed (ctlSrc g) k d) g k d.due (ctlSrc g)
  rw [State.grain_of_grains BesideRegs.grains.fltNote]
  rw [show (s.slotMissed (ctlSrc g) k d).grain (ctlSrc g) = _ from State.grain_updGrain_same ..] at same
  constructor
  · rw [(congrArg Grain.dl same :)]
    exact congrArg DlSlot.missed (Tab.get_set_same _ _ _ _)
  · exact (congrArg Grain.run same :)

/-! ## The watchdog (R176) -/

/-- Whether a slot is in trial lies in what booted, in memory and in one register. -/
theorem State.inTrial_congr {s u : State} (boot : u.boot = s.boot) (mem : u.mem = s.mem)
    (stat : u.reg PS_BOOT_STAT = s.reg PS_BOOT_STAT) : u.inTrial = s.inTrial := by
  have slot : u.rd PS_BOOT_STAT PS_BOOT_STAT_SLOT = s.rd PS_BOOT_STAT PS_BOOT_STAT_SLOT := congrArg PS_BOOT_STAT_SLOT.get stat
  unfold State.inTrial
  dsimp only
  rw [slot, boot, State.loadLE_congr mem, State.loadLE_congr mem]

/-- The first region-fatal fault of a CT that is not in trial resets it (R13). -/
theorem State.regionFatal_first {s : State} (trial : s.inTrial = false) (first : (s.unit 0x3FF).faults = []) :
    ∃ z : State, s.regionFatal 3 = z.regionReset 3 ∧ z.now = s.now := by
  have faults : ((s.overlapNote 0x3FF).unit 0x3FF).faults = [] :=
    (congrArg FaultUnit.faults (State.unit_of_fab BesideRegs.fab.overlapNote _)).trans first
  have one : ((s.overlapNote 0x3FF).countFault 0x3FF (600 * sec)).1 = 1 := by
    unfold State.countFault
    dsimp only
    rw [faults]
    rfl
  have few : ¬ 3 < ((s.overlapNote 0x3FF).countFault 0x3FF (600 * sec)).1 := by rw [one]; decide
  unfold State.regionFatal
  rw [if_neg (by decide), if_neg (by decide), if_neg (by simp [trial])]
  refine ⟨_, if_neg few, ?_⟩
  have now : BesideRegs State.now := ⟨fun _ _ => rfl, fun _ _ => rfl⟩
  exact (recoveries_end_keeps (p := State.now) (fun _ _ => rfl) _ _).trans now.overlapNote

theorem State.regionReset_begun (s : State) : Tab.get false (s.regionReset 3).fab.inReset 3 = true ∧
    ((s.regionReset 3).unit 0x3FF).phase = .restarting s.now := by
  obtain ⟨z, reset⟩ : ∃ z : State, s.regionReset 3 =
      ({ z with fab := { z.fab with inReset := Tab.set false z.fab.inReset 3 true } } : State).updUnit 0x3FF
        (fun u => { u with phase := .restarting s.now }) := ⟨_, rfl⟩
  rw [reset, State.unit_updUnit_same]
  exact ⟨Tab.get_set_same false z.fab.inReset 3 true, rfl⟩

theorem execWatchdogExpire_resets {s : State} {due t : Nat} (running : s.fab.wdogDue = some due) (past : due ≤ Nat.max s.now t)
    (trial : s.inTrial = false) (first : (s.unit 0x3FF).faults = []) : ∃ u, execWatchdogExpire s t = .next u ∧
      Tab.get false u.fab.inReset 3 = true ∧ (u.unit 0x3FF).phase = .restarting (Nat.max s.now t) := by
  have running : (s.at t).fab.wdogDue = some due := running
  have past : due ≤ (s.at t).now := past
  have trial : (((s.at t).wdogStart).fltNote 0x3FF EV_FB_WDOG 2 2 []).inTrial = false :=
    (State.inTrial_congr (BesideRegs.fltNote ⟨fun _ _ => rfl, fun _ _ => rfl⟩) BesideRegs.mem.fltNote
      (State.reg_fltNote (by unfold BesideFaults; decide))).trans trial
  have first : ((((s.at t).wdogStart).fltNote 0x3FF EV_FB_WDOG 2 2 []).unit 0x3FF).faults = [] :=
    (congrArg FaultUnit.faults (State.unit_of_fab BesideRegs.fab.fltNote _)).trans first
  obtain ⟨z, resets, now⟩ := State.regionFatal_first trial first
  have now : z.now = Nat.max s.now t := now.trans (BesideRegs.fltNote ⟨fun _ _ => rfl, fun _ _ => rfl⟩)
  refine ⟨z.regionReset 3, ?_, ?_⟩
  · unfold execWatchdogExpire
    simp only [running, past, if_true]
    rw [resets]
  · rw [← now]
    exact z.regionReset_begun

end Sys2Proof.Machine

open Sys2Proof Sys2Proof.Machine

/-- Settles O34: what each command of the fault controller, the monitors, the deadlines and the watchdog comes to. -/
theorem faultsAreClassedAndRecovered : Obligations.FaultsAreClassedAndRecovered := by
  unfold Obligations.FaultsAreClassedAndRecovered
  intro s t n gives last
  have now : BesideRegs State.now := ⟨fun _ _ => rfl, fun _ _ => rfl⟩
  refine ⟨?held, ?scrubbed, ?corrected, ?poisoned, ?again, ?lost, ?single, ?ends, ?lockup, ?waited, ?restart, ?timeout, ?wrap,
    ?missed, ?watchdog⟩
  case held =>
    intro src dest h hsrc hdest held room
    refine ⟨_, execInboxHoldRelease_room hsrc hdest held room, ?_, State.held_heldDelivered .., fun g hg => ?_,
      s.raised_heldDelivered src dest h t⟩
    · rw [State.grain_of_grains (State.grains_heldDelivered ..)]
      exact congrArg Grain.inbox (State.grain_updGrain_same (s.at t) dest _)
    · rw [State.grain_of_grains (State.grains_heldDelivered ..)]
      exact State.grain_updGrain_ne (s.at t) _ hg
  case scrubbed => exact ⟨_, rfl, rfl⟩
  case corrected =>
    intro a
    obtain ⟨m, corrected⟩ := (s.at t).eccCorrected_eq a
    have exec := execSramScrub_corrected s a t
    rw [corrected] at exec
    exact ⟨_, exec, now.fltNote, State.lastFault_fltNote (by decide) (by decide) (by decide), State.flag_fltNote (cls := 0),
      fun b => BesideRegs.fltNote (p := fun z : State => z.byte b) ⟨fun _ _ => rfl, fun _ _ => rfl⟩⟩
  case poisoned =>
    intro a level
    have exec := execSramScrub_failed s a t
    rw [State.eccFailed_above _ level] at exec
    have poison := congrArg (fun f : Fabric => Tab.get false f.poison (a / 8)) (BesideRegs.fab.fltNote
      (s := (s.at t).setPoison a true) (src := memUnit a) (code := EV_FB_ECC_UNCORR) (cls := 1) (level := unitLevel (memUnit a))
      (ws := [a]))
    exact ⟨_, exec, now.fltNote, poison.trans (Tab.get_set_same false s.fab.poison (a / 8) true), State.flag_fltNote (cls := 1)⟩
  case again =>
    intro x k few
    obtain ⟨m, again⟩ := execBeatParityFail_again s x t few
    exact ⟨_, again, State.lastFault_fltNote (by decide) (unitLevel_lt x) (by decide), State.flag_fltNote (cls := 0),
      BesideRegs.grains.fltNote⟩
  case lost =>
    intro x reset hold preseq commit
    obtain ⟨z, starts⟩ := execVc0BeatLost_starts x t ⟨reset, hold, preseq, commit⟩
    exact ⟨_, starts, (z.preseqFor_preseqStart 6).2⟩
  case single =>
    intro x a h
    obtain ⟨m, corrected⟩ := (s.at t).eccCorrected_eq a
    exact ⟨_, congrArg Host.Outcome.next corrected, State.lastFault_fltNote (by decide) (by decide) (by decide)⟩
  case ends =>
    intro x a h
    exact ⟨_, rfl, congrArg FaultUnit.active (State.unit_updUnit_same (s.at t) x _), rfl⟩
  case lockup =>
    intro g run wait due
    obtain ⟨u, locks, grain⟩ := execGrainLockup_quarantines run wait due
    exact ⟨u, locks, congrArg Grain.run grain, congrArg Grain.inbox grain⟩
  case waited =>
    intro x due phase past level
    exact ⟨_, execRecoveryWaitEnd_restarts phase past level, congrArg FaultUnit.phase (State.unit_updUnit_same (s.at t) x _),
      rfl, rfl, rfl⟩
  case restart =>
    intro g t0 phase ended level run sound link
    refine ⟨_, execRestartComplete_grain phase ended level run sound link, ?_, ?_, fun a low high => ?_⟩
    · exact State.grain_grainInit ((s.at t).clearData g.src) g.src .running
    · exact congrArg FaultUnit.phase (State.unit_updUnit_same (((s.at t).clearData g.src).grainInit g.src .running) g.src _)
    · exact (s.at t).byte_restarted low high
  case timeout =>
    intro x c t0 level active due run
    obtain ⟨phase, source, stays, escalated⟩ := State.escalate_stays
      (s := (s.at t).updUnit x (fun y => { y with active := [] })) level run
    refine ⟨_, execFaultSourceTimeout_escalates active due, phase, source.trans ?_, stays, escalated⟩
    exact congrArg FaultUnit.active (State.unit_updUnit_same (s.at t) x _)
  case wrap =>
    intro k high quiet
    obtain ⟨left, rest⟩ : ∃ left, Tab.get 0 s.fab.pmon k.val - 2 ^ 48 = left := ⟨_, rfl⟩
    exact ⟨_, execPmonWrap_wraps high rest quiet, (State.pmon_pmonWrapped _ k left).trans rest.symm,
      State.ovfn_pmonWrapped _ k left, State.grains_pmonWrapped _ k left⟩
  case missed =>
    intro g k d slot armed missed due mild
    obtain ⟨marked, run⟩ := State.grain_deadlineMiss (s.at t) g k EV_FB_DL_MISS d [k.val]
    refine ⟨_, execDeadlineMiss_notes slot armed missed due mild, marked, ?_, State.flag_fltNote (cls := 1), run⟩
    unfold State.rd
    rw [State.reg_fltNote (by unfold BesideFaults; decide)]
    exact State.miss_missNoted _ g k d.due
  case watchdog =>
    intro due running past trial first
    exact execWatchdogExpire_resets running past trial first
end

section
/-!
PROOF. O36: the commands of the fabric's registers and windows: kicks, releases, CLRALL, queue windows, CLR of a correlator (R163,
R164, R169, R174, R176, R227).
-/

namespace Sys2Proof.Machine

/-! ## Admitted writes of registers that no gate guards and that are no half of a pair (R513) -/

/-- A register that no configuration gate guards and that is no half of a pair. -/
structure PlainReg (a : Nat) : Prop where
  free : freeReg a = true
  ledger : a ≠ LEDGER_CTL
  whole : writePair a = none
  wholeLow : writePairLow a = none

theorem plainReg_wdogKick : PlainReg FB_WDOG_KICK := by constructor <;> decide
theorem plainReg_fltRel : PlainReg FB_FLT_REL := by constructor <;> decide
theorem plainReg_pmonCtl : PlainReg FB_PMON_CTL := by constructor <;> decide
theorem plainReg_corrCtl (b : Fin 4) : PlainReg (ES_CORR_CTL b) := by constructor <;> decide +revert

/-- The register takes a word, and the effects of the write follow. -/
theorem PlainReg.written {s : State} {src a v t : Nat} {row : RegRow} (p : PlainReg a) (h : (s.at t).Admits a v row) :
    ∃ w, writeReg s src a v t = .next ((((s.at t).setReg a w).writeEffect a v (s.reg a)).busAnswer 0 false) := by
  obtain ⟨u, effect, written⟩ := State.writeReg_plain (src := src) h p.free p.ledger p.whole p.wholeLow
  exact ⟨mergeWord a row (s.reg a) (BitVec.ofNat 32 v), by rw [written, effect]; rfl⟩

theorem State.effFB_kick (s : State) (v : Nat) (old : Word) : s.effFB FB_WDOG_KICK v old = s.kick v := rfl
theorem State.effFB_fltRel (s : State) (v : Nat) (old : Word) : s.effFB FB_FLT_REL v old = s.fltRel (v % 4096) := rfl
theorem State.effFB_pmonCtl (s : State) (v : Nat) (old : Word) :
    s.effFB FB_PMON_CTL v old = if bit v 2 then s.pmonClear else s := rfl

/-! ## The watchdog's kicks (R176) -/

/-- The row of FB_WDOG_KICK: one write-only field, the whole word. -/
theorem regRow?_wdogKick : regRow? FB_WDOG_KICK =
    some ⟨FB_WDOG_KICK, [], 0x0, [⟨FB_WDOG_KICK_KICK, .wo, 0, 4294967295⟩], EV_FB_REFUSED⟩ := by decide

theorem placeOf_wdogKick : placeOf FB_WDOG_KICK = .register := by decide

theorem State.fieldBad_kick (s : State) (v : Nat) (new : Word) : s.fieldBad FB_WDOG_KICK v new = s.kickBad v := rfl

theorem State.admits_kick {s : State} {v : Nat} (h : s.answers FB_WDOG_KICK = true) (hv : v < 2 ^ 32)
    (good : s.kickBad v = false) : ∃ row, s.Admits FB_WDOG_KICK v row := by
  refine ⟨_, regRow?_wdogKick, placeOf_wdogKick, by decide, hv, by decide, h, (s.fieldBad_kick v _).trans good,
    fun f hf => ?_, fun gated => ?_⟩
  · rw [List.mem_singleton.mp hf]
    have small := FB_WDOG_KICK_KICK.get_lt (BitVec.ofNat 32 v)
    have width : FB_WDOG_KICK_KICK.width = 32 := rfl
    rw [width] at small
    exact decide_eq_false (by dsimp only; omega)
  · rw [gatedWrite_free rfl (by decide)] at gated
    cases gated

/-- A kick in its order takes effect. -/
theorem execKick_good {s : State} {src v t : Nat} (h : s.answers FB_WDOG_KICK = true) (hv : v < 2 ^ 32)
    (good : s.kickBad v = false) :
    ∃ w, execKick s src v t = .next ((((s.at t).setReg FB_WDOG_KICK w).kick v).busAnswer 0 false) := by
  obtain ⟨row, admits⟩ := State.admits_kick (s := s.at t) h hv good
  obtain ⟨w, written⟩ := plainReg_wdogKick.written (src := src) admits
  rw [State.writeEffect_fb _ _ _ (by decide), State.effFB_kick] at written
  exact ⟨w, written⟩

theorem State.kick_second (s : State) : s.kick 0xA5A5 = s.wdogStart := if_neg (by decide)

theorem State.wdogDue_wdogStart {s : State} (h : s.rdB FB_WDOG_CTL FB_WDOG_CTL_WEN = true) :
    s.wdogStart.fab.wdogDue = some (s.now + s.rd FB_WDOG_CTL FB_WDOG_CTL_PERIOD * ms) := if_pos h

theorem State.regWrite_bad {s : State} {src a v : Nat} {r : RegRow}
    (h : s.fieldBad a v (mergeWord a r (s.reg a) (BitVec.ofNat 32 v)) = true) :
    s.regWrite src a v r = s.noteBad src a v r (mergeWord a r (s.reg a) (BitVec.ofNat 32 v)) := if_pos h

/-- A word out of order is refused and recorded. -/
theorem execKick_bad {s : State} {src v t : Nat} (h : s.answers FB_WDOG_KICK = true) (hv : v < 2 ^ 32)
    (bad : s.kickBad v = true) : execKick s src v t = .next (((s.at t).kickRefused src v).busAnswer 0 false) := by
  have answers : (s.at t).answers FB_WDOG_KICK = true := h
  have stored := State.busStore_register (src := src) (pc := 0) (by decide) regRow?_wdogKick placeOf_wdogKick (by decide)
    answers hv
  rw [State.regWrite_bad (((s.at t).fieldBad_kick v _).trans bad)] at stored
  refine (exec_registerWrite_eq s src FB_WDOG_KICK v t).trans ?_
  rw [stored]
  rfl

theorem State.kickBad_first {s : State} (h : s.fab.kicked = false) : s.kickBad 0x5A5A = false := by
  unfold State.kickBad
  rw [h]
  rfl

theorem State.kickBad_second {s : State} (h : s.fab.kicked = true) : s.kickBad 0xA5A5 = false := by
  unfold State.kickBad
  rw [h]
  rfl

theorem State.kickBad_of_ne {s : State} {v : Nat} (h : v ≠ if s.fab.kicked then 0xA5A5 else 0x5A5A) : s.kickBad v = true := by
  unfold State.kickBad
  cases kicked : s.fab.kicked with
  | false => rw [kicked] at h; exact bne_iff_ne.mpr h
  | true => rw [kicked] at h; exact bne_iff_ne.mpr h

section
variable (s : State) (src v : Nat)

theorem State.fab_kickRefused : (s.kickRefused src v).fab = s.fab := by
  unfold State.kickRefused
  rw [State.fab_raise, State.fab_bump]

theorem State.raised_kickRefused (t : Nat) :
    s.Raised ((s.at t).kickRefused src v) srcDl EV_FB_WDOG_BADKICK [src, FB_WDOG_KICK, v] :=
  State.raised_of_raise (s' := (s.at t).bump FB_WDOG_CTL FB_WDOG_CTL_BADN) rfl rfl (State.ns_raise ..)

theorem State.badn_kickRefused : (s.kickRefused src v).rd FB_WDOG_CTL FB_WDOG_CTL_BADN =
    satAdd (s.rd FB_WDOG_CTL FB_WDOG_CTL_BADN) 1 FB_WDOG_CTL_BADN.max := by
  unfold State.kickRefused
  rw [State.rd_raise_low _ _ _ _ _ (by decide), State.rd_bump _ _ (by decide)]

end

/-! ## Releases (R169) -/

theorem src_lt (g : GrainId) : g.src < 4096 := by
  cases g <;> simp only [GrainId.src] <;> omega

theorem State.grain_grainInit_ne (s : State) {x y : Nat} (r : Run) (h : y ≠ x) : (s.grainInit x r).grain y = s.grain y :=
  (State.grain_setGrain (s.dropHeld x) x y _).trans (if_neg h)

/-- A grain that starts at its reset vector and is in recovery no more. -/
def State.started (s : State) (x : Nat) : State := (s.grainInit x .running).updUnit x (fun y => { y with phase := .none })

theorem State.grain_started (s : State) (x : Nat) : (s.started x).grain x = { run := .running, retired := s.now } ∧
    ((s.started x).unit x).phase = .none ∧ ∀ y, y ≠ x → (s.started x).grain y = s.grain y :=
  ⟨State.grain_grainInit s x .running, congrArg FaultUnit.phase (State.unit_updUnit_same (s.grainInit x .running) x _),
    fun _ hy => s.grain_grainInit_ne .running hy⟩

/-- A quarantined grain released starts; its data memory is cleared first, unless it was to stay quarantined. -/
theorem State.fltRel_grain {s : State} {x : Nat} (run : (s.grain x).run = .quarantined) (level : unitLevel x = 0) :
    (s.fltRel x).grain x = { run := .running, retired := s.now } ∧ ((s.fltRel x).unit x).phase = .none ∧
      ∀ y, y ≠ x → (s.fltRel x).grain y = s.grain y := by
  have released : s.fltRel x = (if decide ((s.unit x).phase = .stays) then s else s.clearData x).started x := by
    unfold State.fltRel
    rw [if_neg (by rw [level]; decide), if_pos ⟨level, run⟩]
    rfl
  rw [released]
  split
  · exact s.grain_started x
  · exact (s.clearData x).grain_started x

/-! ## CLRALL (R174) -/

/-- A bit that a command's word sets stands in the word written. -/
theorem bit_clrall (w : Word) : bit (FB_PMON_CTL_CLRALL.put w 1).toNat 2 = true :=
  beq_iff_eq.mpr (Fld.get_put FB_PMON_CTL_CLRALL w 1 (by decide))
theorem bit_corrClr (w : Word) : bit (ES_CORR_CTL_CLR.put w 1).toNat 30 = true :=
  beq_iff_eq.mpr (Fld.get_put ES_CORR_CTL_CLR w 1 (by decide))

/-- OVFN of counter `k` set to 0. -/
def State.clearOvfn (s : State) (k : Nat) : State := s.wr (FB_PMON_CNTHI k) FB_PMON_CNTHI_OVFN 0

theorem State.ovfn_clearOvfns {k : Nat} (l : List Nat) (s : State)
    (h : k ∈ l ∨ s.rd (FB_PMON_CNTHI k) FB_PMON_CNTHI_OVFN = 0) :
    (l.foldl State.clearOvfn s).rd (FB_PMON_CNTHI k) FB_PMON_CNTHI_OVFN = 0 := by
  induction l generalizing s with
  | nil => exact h.resolve_left List.not_mem_nil
  | cons n l ih =>
    refine ih _ ?_
    by_cases e : k = n
    · subst e
      exact .inr (State.rd_wr_same _ _ _ _ (by decide))
    · have apart : FB_PMON_CNTHI k ≠ FB_PMON_CNTHI n := by unfold FB_PMON_CNTHI; omega
      rcases h with h | h
      · exact .inl ((List.mem_cons.mp h).resolve_left e)
      · exact .inr ((State.rd_wr_ne _ _ _ _ apart).trans h)

/-- No counter holds a count. -/
def State.pmonEmpty (s : State) : State := { s with fab := { s.fab with pmon := [] } }

theorem State.pmonClear_eq (s : State) : s.pmonClear = (List.range 64).foldl State.clearOvfn s.pmonEmpty := rfl

theorem State.pmon_busAnswer (s : State) (n : Nat) (e : Bool) : (s.busAnswer n e).fab.pmon = s.fab.pmon := rfl

theorem State.pmon_pmonClear (s : State) : s.pmonClear.fab.pmon = [] := by
  rw [State.pmonClear_eq, foldl_keeps State.fab (f := State.clearOvfn) (fun _ _ => State.fab_wr ..)]
  rfl

theorem State.ovfn_pmonClear (s : State) (k : Fin 64) : s.pmonClear.rd (FB_PMON_CNTHI k) FB_PMON_CNTHI_OVFN = 0 := by
  rw [State.pmonClear_eq]
  exact State.ovfn_clearOvfns (List.range 64) s.pmonEmpty (.inl (List.mem_range.mpr k.isLt))

/-! ## Queue windows (R163, R164) -/

/-- Where a queue's words lie: QPUTHI at 4 and QGETLO at 8 of its window. -/
theorem placeOf_queue (k : Fin 64) : placeOf (0x20000004 + k.val * 0x1000) = .queue k 4 ∧
    placeOf (0x20000008 + k.val * 0x1000) = .queue k 8 := by decide +revert

theorem State.busStore_queue {s : State} {src pc v : Nat} (k : Fin 64) :
    s.busStore src pc (0x20000004 + k.val * 0x1000) 4 v = s.windowPut src k (0x20000004 + k.val * 0x1000) v := by
  have aligned : (0x20000004 + k.val * 0x1000) / 4 * 4 = 0x20000004 + k.val * 0x1000 := by omega
  have word : (0x20000004 + k.val * 0x1000) % 4 = 0 := by omega
  unfold State.busStore
  rw [aligned, (placeOf_queue k).1]
  simp [word]

/-- A write of QPUTHI is a put through the queue's window, answered as the put is. -/
theorem execQputhi_eq (s : State) (src : Nat) (k : Fin 64) (v t : Nat) : execQputhi s src k v t =
    .next (((s.at t).windowPut src k (0x20000004 + k.val * 0x1000) v).2.busAnswer 0
      (!((s.at t).windowPut src k (0x20000004 + k.val * 0x1000) v).1)) := by
  rw [← State.busStore_queue (pc := 0)]
  rfl

/-- The descriptor that a put of a high word makes with the low word written before. -/
def State.putWord (s : State) (k v : Nat) : Dword := BitVec.ofNat 64 (2 ^ 32 * v + (Tab.get 0#32 s.fab.putLo k).toNat)

section
variable {s : State} {src k a v : Nat}

theorem State.windowPut_room (hv : v < 2 ^ 32) (kind : kindOk (s.putWord k v) = true)
    (on : s.rdB (FB_Q_CFG k) FB_Q_CFG_EN = true) (room : (s.queue k).length < s.depth k) :
    s.windowPut src k a v = (true, s.qAppend k (s.putWord k v)) := by
  unfold State.putWord at kind ⊢
  unfold State.windowPut
  simp only [Nat.mod_eq_of_lt hv, kind, on, not_true_eq_false, or_self, Nat.not_le.mpr room, if_false]

theorem State.windowPut_full (hv : v < 2 ^ 32) (kind : kindOk (s.putWord k v) = true)
    (on : s.rdB (FB_Q_CFG k) FB_Q_CFG_EN = true) (full : s.depth k ≤ (s.queue k).length) :
    s.windowPut src k a v = (true, s.qOverflow k src) := by
  unfold State.putWord at kind
  unfold State.windowPut
  simp only [Nat.mod_eq_of_lt hv, kind, on, not_true_eq_false, or_self, full, if_false, if_true]

theorem State.windowPut_kind (hv : v < 2 ^ 32) (kind : kindOk (s.putWord k v) = false) (outside : sfClosed a = false) :
    s.windowPut src k a v = (false, s.refuseFb src a v) := by
  unfold State.putWord at kind
  unfold State.windowPut State.writeError
  simp only [Nat.mod_eq_of_lt hv, kind, outside, Bool.false_eq_true, not_false_eq_true, true_or, if_false, if_true]

end

theorem State.queues_post (s : State) (cls src code dest a b : Nat) :
    (s.post cls src code dest a b).fab.queues = s.fab.queues := by
  unfold State.post
  split
  · rfl
  · dsimp only
    split
    · rfl
    · split
      · rfl
      · split
        · obtain ⟨m, counted⟩ := (s.inboxPush dest (s.mkDesc cls src code 0 a b)).count_eq (monSrc dest 4)
            (if (s.grain dest).run = .running then 1 else 0)
          rw [counted]
          rfl
        · rfl

/-- Whether a put posts a watermark or not, its descriptor stands at the back. -/
theorem State.queues_qAppend (s : State) (k : Nat) (d : Dword) :
    (s.qAppend k d).fab.queues = Tab.set [] s.fab.queues k (s.queue k ++ [d]) := by
  obtain ⟨m, counted⟩ := State.count_eq
    { s with fab := { s.fab with queues := Tab.set [] s.fab.queues k (s.queue k ++ [d]) } } (0x1C0 + k) 1
  unfold State.qAppend State.qWatermark
  dsimp only
  rw [counted]
  split
  · exact State.queues_post ..
  · rfl

theorem State.queue_qAppend_same (s : State) (k : Nat) (d : Dword) : (s.qAppend k d).queue k = s.queue k ++ [d] := by
  unfold State.queue
  rw [State.queues_qAppend, Tab.get_set_same]
  rfl

theorem State.queue_qAppend_ne (s : State) {k j : Nat} (d : Dword) (h : j ≠ k) : (s.qAppend k d).queue j = s.queue j := by
  unfold State.queue
  rw [State.queues_qAppend, Tab.get_set_ne _ _ _ _ h]

theorem State.fab_qOverflow (s : State) (k src : Nat) : (s.qOverflow k src).fab = s.fab := by
  unfold State.qOverflow
  rw [State.fab_raise, State.fab_hit]

theorem State.raised_qOverflow (s : State) (k src t : Nat) :
    s.Raised ((s.at t).qOverflow k src) srcQueue EV_FB_Q_OVF [src, k] :=
  State.raised_of_raise (s' := (s.at t).hit (FB_Q_STAT k) FB_Q_STAT_OVF (FB_Q_STAT k) FB_Q_STAT_OVFN) rfl rfl (State.ns_raise ..)

theorem State.fab_refuseFb (s : State) (src a v : Nat) : (s.refuseFb src a v).fab = s.fab := State.fab_raise ..

/-- A read of QGETLO is a get through the window. -/
theorem execQgetlo_eq (s : State) (k : Fin 64) (t : Nat) : execQgetlo s k t =
    .next (((s.at t).busRead (0x20000008 + k.val * 0x1000)).2.busAnswer
      (((s.at t).busRead (0x20000008 + k.val * 0x1000)).1.getD 0) ((s.at t).busRead (0x20000008 + k.val * 0x1000)).1.isNone) := rfl

/-- The high word that a get leaves to be read. -/
def State.setGetHi (s : State) (k : Nat) (w : Word) : State :=
  { s with fab := { s.fab with getHi := Tab.set 0#32 s.fab.getHi k w } }

section
variable {s : State} {k : Fin 64} {d : Dword}

theorem State.busRead_queue (on : s.rdB (FB_Q_CFG k) FB_Q_CFG_EN = true) : s.busRead (0x20000008 + k.val * 0x1000) =
    match s.qTake k with
    | some (d, u) => (some (d.toNat % 2 ^ 32), u.setGetHi k (BitVec.ofNat 32 (d.toNat / 2 ^ 32)))
    | none => (some 0, s.setGetHi k 0#32) := by
  have word : (0x20000008 + k.val * 0x1000) % 4 = 0 := by omega
  unfold State.busRead
  rw [(placeOf_queue k).2]
  simp only [word, on, ne_eq, not_true_eq_false, if_false, if_true]
  rfl

end

/-! ## CLR of a correlator (R227) -/

theorem State.effES_corrCtl (s : State) (b : Fin 4) (v : Nat) :
    s.effES (ES_CORR_CTL b) v = if bit v 30 then s.corrClear b else s := by
  have start : ES_CORR_CTL b % 0x100000 = 0 := by unfold ES_CORR_CTL; omega
  have block : ES_CORR_CTL b / 0x100000 % 16 = b := by unfold ES_CORR_CTL; omega
  unfold State.effES
  simp only [start, block, true_and]

theorem State.rd_clearBytes (s : State) (lo hi a : Nat) (f : Fld) : (s.clearBytes lo hi).rd a f = s.rd a f := rfl

theorem State.corrBase_corrClear (s : State) (b : Fin 4) : (s.corrClear b).corrBase b = s.corrBase b := by
  have apart : ES_CORR_CTL b ≠ ES_CORR_STAT b := by unfold ES_CORR_CTL ES_CORR_STAT; omega
  have read : (s.corrClear b).rd (ES_CORR_CTL b) ES_CORR_CTL_ACCOFS = s.rd (ES_CORR_CTL b) ES_CORR_CTL_ACCOFS := by
    unfold State.corrClear
    dsimp only
    rw [State.rd_wr_ne _ _ _ _ apart, State.rd_clearBytes]
  unfold State.corrBase
  rw [read]

theorem State.rdB_busAnswer (s : State) (n : Nat) (e : Bool) (a : Nat) (f : Fld) : (s.busAnswer n e).rdB a f = s.rdB a f := rfl

theorem State.corrBase_busAnswer (s : State) (n : Nat) (e : Bool) (b : Nat) : (s.busAnswer n e).corrBase b = s.corrBase b := by
  unfold State.corrBase
  rw [State.rd_busAnswer]

theorem State.busy_corrClear (s : State) (b : Nat) : (s.corrClear b).rdB (ES_CORR_STAT b) ES_CORR_STAT_BUSY = true :=
  State.rdB_wr_b2n _ _ true (by decide) rfl

/-- The accumulators lie in the SRAM of the estimation region, which is 0 unless written. -/
theorem memDefault_corr {s : State} {b : Fin 4} {a : Nat} (low : s.corrBase b ≤ a)
    (high : a < s.corrBase b + 393216 + 4 * 6144) : memDefault a = 0#8 := by
  have offset := ES_CORR_CTL_ACCOFS.get_lt (s.reg (ES_CORR_CTL b))
  rw [show ES_CORR_CTL_ACCOFS.width = 5 from rfl] at offset
  unfold State.corrBase State.rd at low high
  unfold memDefault
  rw [if_neg (by omega), if_neg (by omega)]

theorem State.byte_corrClear {s : State} {b : Fin 4} {a : Nat} (low : s.corrBase b ≤ a)
    (high : a < s.corrBase b + 393216 + 4 * 6144) : (s.corrClear b).byte a = 0#8 := by
  unfold State.corrClear
  dsimp only
  rw [State.byte_wr, State.byte_clearBytes, if_pos ⟨low, high⟩, memDefault_corr low high]

end Sys2Proof.Machine

open Sys2Proof Sys2Proof.Machine

/-- Settles O36: each command is a write or a read of its register or window, and its unit does the rest. -/
theorem fabricCommandsActOnTheirUnits : Obligations.FabricCommandsActOnTheirUnits := by
  unfold Obligations.FabricCommandsActOnTheirUnits
  intro s src t n gives
  refine ⟨fun answers => ⟨?first, ?second, ?bad⟩, ?release, ?clrall, fun k v hv => ⟨?put, ?full, ?kind⟩,
    fun k on => ⟨?get, ?empty⟩, ?correlator⟩
  case first =>
    intro idle
    obtain ⟨w, kicked⟩ := execKick_good (src := src) (t := t) answers (by decide) (State.kickBad_first idle)
    exact ⟨_, kicked, rfl, rfl⟩
  case second =>
    intro kicked enabled
    obtain ⟨w, restarts⟩ := execKick_good (src := src) (t := t) answers (by decide) (State.kickBad_second kicked)
    rw [State.kick_second] at restarts
    have due := State.wdogDue_wdogStart (s := (s.at t).setReg FB_WDOG_KICK w)
      (by rw [State.rdB_setReg_ne _ _ _ (by decide)]; exact enabled)
    rw [State.rd_setReg_ne _ _ _ (by decide)] at due
    exact ⟨_, restarts, rfl, due⟩
  case bad =>
    intro v hv order
    have fab := (s.at t).fab_kickRefused src v
    exact ⟨_, execKick_bad answers hv (State.kickBad_of_ne order), (congrArg Fabric.kicked fab :),
      (congrArg Fabric.wdogDue fab :), (s.raised_kickRefused src v t).busAnswer, (s.at t).badn_kickRefused src v⟩
  case release =>
    intro g row admits run level
    obtain ⟨w, written⟩ := plainReg_fltRel.written (src := src) admits
    rw [State.writeEffect_fb _ _ _ (by decide), State.effFB_fltRel, Nat.mod_eq_of_lt (src_lt g)] at written
    exact ⟨_, written, State.fltRel_grain (s := (s.at t).setReg FB_FLT_REL w) run level⟩
  case clrall =>
    intro v row admits
    obtain ⟨w, written⟩ := plainReg_pmonCtl.written (src := src) admits
    rw [State.writeEffect_fb _ _ _ (by decide), State.effFB_pmonCtl, if_pos (bit_clrall _)] at written
    exact ⟨_, written, (State.pmon_busAnswer ..).trans (State.pmon_pmonClear _),
      fun k => (State.rd_busAnswer ..).trans (State.ovfn_pmonClear _ k)⟩
  case put =>
    intro kind on room
    have exec := execQputhi_eq s src k v t
    rw [State.windowPut_room (s := s.at t) hv kind on room] at exec
    exact ⟨_, exec, State.queue_qAppend_same .., rfl, fun j hj => State.queue_qAppend_ne _ _ hj⟩
  case full =>
    intro kind on full
    have exec := execQputhi_eq s src k v t
    rw [State.windowPut_full (s := s.at t) hv kind on full] at exec
    exact ⟨_, exec, (congrArg Fabric.queues ((s.at t).fab_qOverflow k src) :), rfl, (s.raised_qOverflow k src t).busAnswer⟩
  case kind =>
    intro kind
    have exec := execQputhi_eq s src k v t
    rw [State.windowPut_kind (s := s.at t) hv kind (by unfold sfClosed; simp; omega)] at exec
    exact ⟨_, exec, (congrArg Fabric.queues ((s.at t).fab_refuseFb src _ v) :), rfl⟩
  case get =>
    intro d ds held
    have exec := execQgetlo_eq s k t
    obtain ⟨w, taken, -⟩ := State.qTake_cons (s := s.at t) held
    rw [State.busRead_queue (s := s.at t) on, taken] at exec
    exact ⟨_, exec, Tab.get_set_same [] s.fab.queues k.val ds, rfl, Tab.get_set_same 0#32 s.fab.getHi k.val _, rfl⟩
  case empty =>
    intro none
    have exec := execQgetlo_eq s k t
    rw [State.busRead_queue (s := s.at t) on, State.qTake_nil (s := s.at t) none] at exec
    exact ⟨_, exec, rfl, rfl, Tab.get_set_same 0#32 s.fab.getHi k.val 0#32⟩
  case correlator =>
    intro b v row admits
    obtain ⟨w, written⟩ := (plainReg_corrCtl b).written (src := src) admits
    rw [State.writeEffect_es _ _ _ (by unfold ES_CORR_CTL; omega), State.effES_corrCtl, if_pos (bit_corrClr _)] at written
    obtain ⟨z, cleared⟩ : ∃ z : State, z = (s.at t).setReg (ES_CORR_CTL b) w := ⟨_, rfl⟩
    rw [← cleared] at written
    refine ⟨_, written, (State.rdB_busAnswer ..).trans (z.busy_corrClear b), fun a low high => ?_⟩
    rw [State.corrBase_busAnswer, State.corrBase_corrClear] at low high
    exact (State.byte_busAnswer ..).trans (State.byte_corrClear low high)
end

section
/-!
PROOF. O1, O2 and O3: the integer instructions of a ready grain (R178, R187 to R189).
-/

namespace Sys2Proof.Machine

/-! ## Values (R187) -/

theorem lt_two_pow_bitLen (m : Nat) : m < 2 ^ bitLen m := by
  unfold bitLen
  split
  · next zero => omega
  · exact Nat.lt_log2_self

theorem two_pow_le_of_bitLen {m : Nat} (h : bitLen m ≠ 0) : 2 ^ (bitLen m - 1) ≤ m := by
  unfold bitLen at h ⊢
  split
  · next zero => exact absurd (if_pos zero) h
  · next some => exact Nat.log2_self_le some

theorem bitLen_le {m n : Nat} (h : m < 2 ^ n) : bitLen m ≤ n := by
  unfold bitLen
  split
  · exact Nat.zero_le n
  · next some => exact (Nat.log2_lt some).mpr h

/-- The bits above the leading zeros hold the word, and the highest of them is 1. -/
theorem clzW_spec (w : Word) : clzW w ≤ 32 ∧ w.toNat < 2 ^ (32 - clzW w) ∧ (clzW w < 32 → 2 ^ (31 - clzW w) ≤ w.toNat) := by
  have le := bitLen_le w.isLt
  unfold clzW
  refine ⟨Nat.sub_le .., ?_, fun some => ?_⟩
  · rw [Nat.sub_sub_self le]
    exact lt_two_pow_bitLen _
  · rw [show 31 - (32 - bitLen w.toNat) = bitLen w.toNat - 1 by omega]
    exact two_pow_le_of_bitLen (by omega)

/-- The bits passed over are 0, and the one found is 1. -/
theorem ctzFrom_spec (x n i : Nat) : i ≤ ctzFrom x n i ∧ ctzFrom x n i ≤ i + n ∧
    (∀ j, i ≤ j → j < ctzFrom x n i → bit x j = false) ∧ (ctzFrom x n i < i + n → bit x (ctzFrom x n i) = true) := by
  induction n generalizing i with
  | zero =>
    exact ⟨Nat.le_refl i, Nat.le_refl i, fun j low high => absurd low (Nat.not_le.mpr high), fun h => absurd h (lt_irrefl i)⟩
  | succ n ih =>
    unfold ctzFrom
    split
    · next one => exact ⟨Nat.le_refl i, by omega, fun j low high => absurd low (Nat.not_le.mpr high), fun _ => one⟩
    · next zero =>
      obtain ⟨low, high, zeros, found⟩ := ih (i + 1)
      refine ⟨by omega, by omega, fun j hj below => ?_, fun h => found (by omega)⟩
      rcases Nat.eq_or_lt_of_le hj with rfl | above
      · exact Bool.eq_false_iff.mpr zero
      · exact zeros j above below

theorem boolW_decide (p : Prop) [Decidable p] : boolW (decide p) = if p then 1#32 else 0#32 := by
  unfold boolW
  simp only [decide_eq_true_eq]

theorem remW_eq (a b : Word) : remW a b =
    if b = 0#32 ∨ (a = 0x80000000#32 ∧ b = 0xFFFFFFFF#32) then 0#32 else BitVec.ofInt 32 (a.toInt.tmod b.toInt) := by
  unfold remW
  by_cases zero : b = 0#32
  · rw [if_pos zero, if_pos (.inl zero)]
  · simp only [zero, if_false, false_or]

/-! ## Immediates (R185) -/

theorem immS_eq (i : Fin 65536) : immS i = BitVec.signExtend 32 (BitVec.ofNat 16 i.val) := sext_ofNat 16 i.isLt (by decide)

theorem toInt_immS (i : Fin 65536) : (immS i).toInt = (BitVec.ofNat 16 i.val).toInt := by
  rw [immS_eq, BitVec.toInt_signExtend_of_le (by decide)]

/-! ## The shapes of a register operation (R187) -/

section
variable {s : State} {g : GrainId} {rd rs1 rs2 t w : Nat} {x : Word} {o : Host.Outcome State Fault Refusal}

theorem State.aluR_sets {legal : Bool} {f : Word → Word → Word} (h : s.Ready g) (hl : legal = true)
    (e : o = s.aluR g rd rs1 rs2 t w legal f) (hx : f (s.gReg g.src rs1) (s.gReg g.src rs2) = x) : s.Sets g t rd x o :=
  State.computes h e hl hx

/-- A register operation that the grain's kind does not carry. -/
theorem State.aluR_illegal {legal : Bool} {f : Word → Word → Word} (h : s.Ready g) (hl : legal = false) :
    s.aluR g rd rs1 rs2 t w legal f = .next ((s.at t).exc g.src 1 w) := by
  unfold State.aluR State.compute
  exact State.issue_illegal h hl

theorem State.aluU_sets {f : Word → Word} (h : s.Ready g) (e : o = s.aluU g rd rs1 t w f) (hx : f (s.gReg g.src rs1) = x) :
    s.Sets g t rd x o :=
  State.computes h e rfl hx

end

end Sys2Proof.Machine

open Sys2Proof Sys2Proof.Machine

/-- Settles O1: each instruction writes one general register with the value its definition names; clz and ctz say theirs by
its bits. -/
theorem integerInstructionsSetTheirRegister : Obligations.IntegerInstructionsSetTheirRegister := by
  unfold Obligations.IntegerInstructionsSetTheirRegister
  intro s g rd rs1 rs2 sh t ready
  dsimp only [exec]
  have two {o : Host.Outcome State Fault Refusal} {w : Nat} {f : Word → Word → Word} {x : Word}
      (e : o = s.aluR g rd rs1 rs2 t w true f) (hx : f (s.gReg g.src rs1) (s.gReg g.src rs2) = x) : s.Sets g t rd x o :=
    State.aluR_sets ready rfl e hx
  have one {o : Host.Outcome State Fault Refusal} {w : Nat} {f : Word → Word} {x : Word}
      (e : o = s.aluU g rd rs1 t w f) (hx : f (s.gReg g.src rs1) = x) : s.Sets g t rd x o := State.aluU_sets ready e hx
  refine ⟨two rfl rfl, two rfl rfl, two rfl rfl, two rfl rfl, two rfl rfl, two rfl rfl, two rfl rfl, two rfl rfl,
    two rfl (boolW_decide _), two rfl (boolW_decide _), two rfl rfl, two rfl rfl, two rfl rfl, two rfl rfl, one rfl rfl,
    one rfl rfl, one rfl rfl, ?clz, ?ctz, one rfl rfl, two rfl rfl, two rfl rfl, two rfl rfl⟩
  case clz => exact ⟨clzW (s.gReg g.src rs1), one rfl rfl, clzW_spec _⟩
  case ctz =>
    obtain ⟨-, high, zeros, found⟩ := ctzFrom_spec (s.gReg g.src rs1).toNat 32 0
    exact ⟨ctzW (s.gReg g.src rs1), one rfl rfl, high, fun i below => zeros i (Nat.zero_le i) below, found⟩

/-- Settles O2: each instruction writes one general register with the value of its register form at the extended immediate. -/
theorem immediateInstructionsSetTheirRegister : Obligations.ImmediateInstructionsSetTheirRegister := by
  unfold Obligations.ImmediateInstructionsSetTheirRegister
  intro s g rd rs1 imm t ready
  dsimp only [exec]
  have one {o : Host.Outcome State Fault Refusal} {w : Nat} {f : Word → Word} {x : Word}
      (e : o = s.aluU g rd rs1 t w f) (hx : f (s.gReg g.src rs1) = x) : s.Sets g t rd x o := State.aluU_sets ready e hx
  refine ⟨?addi, ?slti, ?sltiu, one rfl rfl, one rfl rfl, one rfl rfl, State.compute_sets ready rfl⟩
  case addi => exact one rfl (congrArg (s.gReg g.src rs1 + ·) (immS_eq imm))
  case slti =>
    refine one rfl ((boolW_decide _).trans ?_)
    rw [toInt_immS]
  case sltiu =>
    refine one rfl ((boolW_decide _).trans ?_)
    rw [immS_eq]

/-- Settles O3: a control or vector grain writes the saturating result; a link engine carries no divide. -/
theorem divisionSaturates : Obligations.DivisionSaturates := by
  unfold Obligations.DivisionSaturates
  intro s g rd rs1 rs2 t ready a b ends
  refine ⟨fun carries => ?_, fun link => ?_⟩
  · have legal : (g.kind != .link) = true := bne_iff_ne.mpr carries
    dsimp only [exec]
    exact ⟨State.aluR_sets ready legal rfl rfl, State.aluR_sets ready legal rfl rfl,
      State.aluR_sets ready legal rfl (remW_eq a b), State.aluR_sets ready legal rfl rfl⟩
  · have illegal : (g.kind != .link) = false := by rw [link]; rfl
    intro c hc
    simp only [List.mem_cons, List.not_mem_nil, or_false] at hc
    rcases hc with rfl | rfl | rfl | rfl <;> dsimp only [exec] <;> exact State.aluR_illegal ready illegal
end

section
/-!
PROOF. O4: the floating-point instructions of a ready control grain (R195, R196).
-/

namespace Sys2Proof.Machine

variable {s : State} {g : GrainId} {p : Bool} {t rd w : Nat} {o : Host.Outcome State Fault Refusal}

/-- The instruction raises the flags of its result and writes it to an f register. -/
theorem State.fpF_does {f : State → FRes} {r : FRes} (h : s.Ready g) (hk : g.kind = .ctl) (e : o = s.fpF g rd t w f)
    (hr : f (s.at t) = r) :
    s.Does g t [] (fun q => ((q.flags r.2).putF rd (BitVec.ofNat 64 r.1)).next (Nat.max s.now t)) o := by
  subst hr
  exact ⟨_, e.trans (State.issue_ready h (by rw [hk]; rfl) (.inl rfl)),
    ((State.Did.one s g t (fun q => q.flags (f (s.at t)).2)).setF rd _).stepOn⟩

/-- The same with a general register. -/
theorem State.fpG_does {f : State → FRes} {r : FRes} (h : s.Ready g) (hk : g.kind = .ctl) (e : o = s.fpG g rd t w f)
    (hr : f (s.at t) = r) :
    s.Does g t [] (fun q => ((q.flags r.2).put rd (BitVec.ofNat 32 r.1)).next (Nat.max s.now t)) o := by
  subst hr
  exact ⟨_, e.trans (State.issue_ready h (by rw [hk]; rfl) (.inl rfl)),
    ((State.Did.one s g t (fun q => q.flags (f (s.at t)).2)).setG rd _).stepOn⟩

/-- A fused operation draws the flag of infinity times zero plus a quiet NaN, which is free. -/
theorem State.fused_does {f : State → Nat × Nat × Nat} {a b c : Nat} (h : s.Ready g) (hk : g.kind = .ctl)
    (e : o = s.fused g p rd t w f) (hx : f (s.at t) = (a, b, c)) :
    ∃ k, k < 2 ∧ s.Does g t [.fresh_] (fun q => ((q.flags ((fmtOf p).fma (s.frm g.src) a b c (16 * k)).2).putF rd
      (BitVec.ofNat 64 ((fmtOf p).fma (s.frm g.src) a b c (16 * k)).1)).next (Nat.max s.now t)) o := by
  obtain ⟨k, free⟩ : ∃ k, (s.at t).freeNat % 2 = k := ⟨_, rfl⟩
  have did := (((s.did_at g t [.fresh_]).drew (by simp) 1).upd
    (fun q => q.flags ((fmtOf p).fma (s.frm g.src) a b c (16 * k)).2)).setF rd
    (BitVec.ofNat 64 ((fmtOf p).fma (s.frm g.src) a b c (16 * k)).1)
  refine ⟨k, free ▸ Nat.mod_lt _ Nat.two_pos, _, ?_, did.stepOn⟩
  rw [e, State.fused, State.issue_ready h (by rw [hk]; rfl) (.inl rfl)]
  dsimp only
  rw [hx, free]
  rfl

end Sys2Proof.Machine

open Sys2Proof Sys2Proof.Machine

/-- Settles O4: each instruction is one of three shapes, a result in an f register, one in a general register, or a fused
operation. -/
theorem floatInstructionsSetTheirRegister : Obligations.FloatInstructionsSetTheirRegister := by
  unfold Obligations.FloatInstructionsSetTheirRegister
  intro s g p rd rs1 rs2 rs3 t ready kind
  dsimp only [exec]
  have inF {o : Host.Outcome State Fault Refusal} {w : Nat} {f : State → FRes} {r : FRes} (e : o = s.fpF g rd t w f)
      (hr : f (s.at t) = r) := State.fpF_does ready kind e hr
  have inG {o : Host.Outcome State Fault Refusal} {w : Nat} {f : State → FRes} {r : FRes} (e : o = s.fpG g rd t w f)
      (hr : f (s.at t) = r) := State.fpG_does ready kind e hr
  have fuses {o : Host.Outcome State Fault Refusal} {w a b c : Nat} {f : State → Nat × Nat × Nat}
      (e : o = s.fused g p rd t w f) (hx : f (s.at t) = (a, b, c)) := State.fused_does ready kind e hx
  exact ⟨inF rfl rfl, inF rfl rfl, inF rfl rfl, inF rfl rfl, inF rfl rfl, fuses rfl rfl, fuses rfl rfl, fuses rfl rfl,
    inF rfl rfl, inF rfl rfl, inF (r := (_, _)) rfl rfl, inF (r := (_, _)) rfl rfl, inG (r := (_, _)) rfl rfl,
    inG (r := (_, _)) rfl rfl, inG (r := (_, _)) rfl rfl, inG (r := (_, _)) rfl rfl, inG (r := (_, _)) rfl rfl, inG rfl rfl,
    inF rfl rfl, inF rfl rfl, inF rfl rfl, inG (r := (_, _)) rfl rfl, inG (r := (_, _)) rfl rfl, inF (r := (_, _)) rfl rfl,
    inF (r := (_, _)) rfl rfl⟩
end

section
/-!
PROOF. O5: branches and jumps of a ready grain (R193).
-/

namespace Sys2Proof.Machine

theorem ofNat_add_four (pc : Word) : BitVec.ofNat 32 (pc.toNat + 4) = pc + 4#32 := by
  rw [BitVec.ofNat_add, BitVec.ofNat_toNat, BitVec.setWidth_eq]

/-- Bits [1:0] cleared. -/
theorem ofNat_aligned (w : Word) : BitVec.ofNat 32 (w.toNat / 4 * 4) = w &&& 0xFFFFFFFC#32 := by
  have mask : ∀ i : Fin 32, (0xFFFFFFFC#32).getLsbD i = decide (2 ≤ i.val) := by decide
  refine BitVec.eq_of_getLsbD_eq fun i hi => ?_
  rw [BitVec.getLsbD_and, mask ⟨i, hi⟩, BitVec.getLsbD_ofNat, decide_eq_true hi, Bool.true_and,
    show w.toNat / 4 * 4 = w.toNat / 2 ^ 2 * 2 ^ 2 from rfl, Nat.testBit_mul_two_pow, Nat.testBit_div_two_pow]
  by_cases high : 2 ≤ i
  · rw [Nat.sub_add_cancel high, BitVec.testBit_toNat, Bool.and_comm]
  · simp [high]

/-- A branch goes to its target when its condition holds, and on to the next instruction otherwise. -/
theorem State.branch_does {s : State} {g : GrainId} {rs1 rs2 t w : Nat} {off : Fin 65536} {c : Word → Word → Bool} {taken : Prop}
    {o : Host.Outcome State Fault Refusal} (h : s.Ready g) (e : o = s.branch g rs1 rs2 off t w c)
    (hc : c (s.gReg g.src rs1) (s.gReg g.src rs2) = true ↔ taken) :
    (taken → s.Does g t [] (fun x => x.goto ((s.grain g.src).pc + BitVec.signExtend 32 (BitVec.ofNat 16 off) * 4#32)
      (Nat.max s.now t)) o) ∧
    (¬ taken → s.Does g t [] (fun x => x.next (Nat.max s.now t)) o) := by
  have exec := e.trans (State.issue_ready h rfl (.inl rfl))
  refine ⟨fun yes => ⟨_, exec.trans (congrArg _ (if_pos (hc.mpr yes))), ((s.did_at g t []).goto _).as ?_⟩,
    fun no => ⟨_, exec.trans (congrArg _ (if_neg (no ∘ hc.mp))), (s.did_at g t []).stepOn⟩⟩
  exact congrArg (fun pc => (s.grain g.src).goto pc (Nat.max s.now t))
    (State.branch_target (s.grain g.src).pc off.isLt (by decide))

end Sys2Proof.Machine

open Sys2Proof Sys2Proof.Machine

/-- Settles O5: the six branches differ in their condition alone; a jump writes its link, if it has one, and goes to its
target. -/
theorem branchesAndJumps : Obligations.BranchesAndJumps := by
  unfold Obligations.BranchesAndJumps
  intro s g rd rs1 rs2 off imm far t ready
  dsimp only [exec]
  have takes {o : Host.Outcome State Fault Refusal} {w : Nat} {cond : Word → Word → Bool} {taken : Prop}
      (e : o = s.branch g rs1 rs2 off t w cond) (hc : cond (s.gReg g.src rs1) (s.gReg g.src rs2) = true ↔ taken) :=
    State.branch_does ready e hc
  have far_target := State.branch_target (w := 26) (s.grain g.src).pc far.isLt (by decide)
  refine ⟨takes rfl beq_iff_eq, takes rfl bne_iff_ne, takes rfl decide_eq_true_iff, takes rfl decide_eq_true_iff,
    takes rfl decide_eq_true_iff, takes rfl decide_eq_true_iff, ?j, ?jal, ?jalr⟩
  case j =>
    exact ⟨_, State.issue_ready ready rfl (.inl rfl),
      ((s.did_at g t []).goto _).as (congrArg (fun pc => (s.grain g.src).goto pc _) far_target)⟩
  case jal =>
    exact ⟨_, State.issue_ready ready rfl (.inl rfl), (((s.did_at g t []).setG 1 _).goto _).as
      (congrArg₂ (fun link pc => ((s.grain g.src).put 1 link).goto pc _) (ofNat_add_four _) far_target)⟩
  case jalr =>
    have target : BitVec.ofNat 32 (s.effAddr g.src rs1 imm / 4 * 4) =
        (s.gReg g.src rs1 + BitVec.signExtend 32 (BitVec.ofNat 16 imm)) &&& 0xFFFFFFFC#32 := by
      rw [State.effAddr_eq, ofNat_aligned]
    exact ⟨_, State.issue_ready ready rfl (.inl rfl), (((s.did_at g t []).setG rd _).goto _).as
      (congrArg₂ (fun link pc => ((s.grain g.src).put rd link).goto pc _) (ofNat_add_four _) target)⟩
end

section
/-!
PROOF. O6 and O7: loads of a ready grain, from its own memory and from elsewhere (R153, R156, R190, R191).
-/

namespace Sys2Proof.Machine

section
variable {s u : State} {g : GrainId} {t rd a p : Nat} {k : LoadKind} {ps : List Part} {f : Grain → Grain}

/-! ## The value loaded (R190) -/

/-- A grain whose load of a kind has brought the number `v`. -/
def Grain.loaded (x : Grain) (k : LoadKind) (rd v : Nat) : Grain :=
  match k with
  | .b => x.put rd (BitVec.ofInt 32 (sext v 8))
  | .h => x.put rd (BitVec.ofInt 32 (sext v 16))
  | .w | .bu | .hu => x.put rd (BitVec.ofNat 32 v)
  | .fw | .fd => x.putF rd (BitVec.ofNat 64 v)

theorem State.Did.loadInto (h : s.Did g t ps f u) (k : LoadKind) (rd v : Nat) :
    s.Did g t ps (fun x => (f x).loaded k rd v) (u.loadInto g.src k rd v) := by
  cases k with
  | b | h | w | bu | hu => exact h.setG rd _
  | fw | fd => exact h.setF rd _

theorem Grain.loaded_b (x : Grain) (rd : Nat) (s : State) (p : Nat) :
    x.loaded .b rd (s.loadLE p LoadKind.b.width) = x.put rd ((s.byte p).signExtend 32) :=
  congrArg (x.put rd) ((congrArg (fun v => BitVec.ofInt 32 (sext v 8)) (s.loadLE_one p)).trans (ofInt_sext _ (by decide)))

theorem Grain.loaded_h (x : Grain) (rd : Nat) (s : State) (p : Nat) :
    x.loaded .h rd (s.loadLE p LoadKind.h.width) = x.put rd ((s.byte (p + 1) ++ s.byte p).signExtend 32) :=
  congrArg (x.put rd) ((congrArg (fun v => BitVec.ofInt 32 (sext v 16)) (s.loadLE_two p)).trans (ofInt_sext _ (by decide)))

theorem Grain.loaded_w (x : Grain) (rd : Nat) (s : State) (p : Nat) : x.loaded .w rd (s.loadLE p LoadKind.w.width) =
    x.put rd (s.byte (p + 3) ++ s.byte (p + 2) ++ (s.byte (p + 1) ++ s.byte p)) :=
  congrArg (x.put rd) ((congrArg (BitVec.ofNat 32) (s.loadLE_four p)).trans
    ((BitVec.ofNat_toNat ..).trans (BitVec.setWidth_eq _)))

theorem Grain.loaded_bu (x : Grain) (rd : Nat) (s : State) (p : Nat) :
    x.loaded .bu rd (s.loadLE p LoadKind.bu.width) = x.put rd ((s.byte p).zeroExtend 32) :=
  congrArg (x.put rd) ((congrArg (BitVec.ofNat 32) (s.loadLE_one p)).trans (BitVec.ofNat_toNat ..))

theorem Grain.loaded_hu (x : Grain) (rd : Nat) (s : State) (p : Nat) :
    x.loaded .hu rd (s.loadLE p LoadKind.hu.width) = x.put rd ((s.byte (p + 1) ++ s.byte p).zeroExtend 32) :=
  congrArg (x.put rd) ((congrArg (BitVec.ofNat 32) (s.loadLE_two p)).trans (BitVec.ofNat_toNat ..))

theorem Grain.loaded_fw (x : Grain) (rd : Nat) (s : State) (p : Nat) : x.loaded .fw rd (s.loadLE p LoadKind.fw.width) =
    x.putF rd ((s.byte (p + 3) ++ s.byte (p + 2) ++ (s.byte (p + 1) ++ s.byte p)).zeroExtend 64) :=
  congrArg (x.putF rd) ((congrArg (BitVec.ofNat 64) (s.loadLE_four p)).trans (BitVec.ofNat_toNat ..))

theorem Grain.loaded_fd (x : Grain) (rd : Nat) (s : State) (p : Nat) : x.loaded .fd rd (s.loadLE p LoadKind.fd.width) =
    x.putF rd (s.byte (p + 7) ++ s.byte (p + 6) ++ (s.byte (p + 5) ++ s.byte (p + 4)) ++
      (s.byte (p + 3) ++ s.byte (p + 2) ++ (s.byte (p + 1) ++ s.byte p))) :=
  congrArg (x.putF rd) (s.dword_loadLE p)

/-! ## What a load does (R190, R191) -/

/-- A ready grain's load, at gs1 plus the sign-extended immediate. -/
theorem State.issue_load {w rs1 : Nat} {imm : Fin 65536} {legal : Bool} (h : s.Ready g) (hl : legal = true) :
    s.issue g t w legal true (fun s => s.load g.src k rd (s.effAddr g.src rs1 imm)) =
      .next ((s.at t).load g.src k rd (s.gReg g.src rs1 + BitVec.signExtend 32 (BitVec.ofNat 16 imm)).toNat) :=
  (State.issue_ready h hl (.inl rfl)).trans
    (congrArg (fun a => Host.Outcome.next ((s.at t).load g.src k rd a)) ((s.at t).effAddr_eq g.src rs1 imm))

theorem State.load_misaligned (h : a % k.width ≠ 0) : (s.at t).load g.src k rd a = (s.at t).exc g.src 3 a := if_pos h

theorem State.load_denied (h : a % k.width = 0) (hr : s.allows g.src a .read = false) :
    (s.at t).load g.src k rd a = (s.at t).exc g.src 5 a :=
  (if_neg (not_not_intro h)).trans (if_pos (Bool.not_eq_true _ ▸ hr))

/-- An aligned load of sound words of the grain's own memory, which its MPU lets it read, completes at once. -/
theorem State.load_own (h : a % k.width = 0) (hr : s.allows g.src a .read = true) (ho : ownAddr g.src a = some p)
    (hs : s.sound p k.width = true) :
    s.Did g t [] (fun x => (x.loaded k rd (s.loadLE p k.width)).next (Nat.max s.now t)) ((s.at t).load g.src k rd a) := by
  have read : (s.at t).allows g.src a .read = true := hr
  have sound : (s.at t).sound p k.width = true := hs
  have same : (s.at t).loadLE p k.width = s.loadLE p k.width := State.loadLE_congr (State.mem_at s t) p k.width
  unfold State.load
  simp only [h, read, ho, sound, same, ne_eq, not_true_eq_false, if_false, if_true]
  exact ((s.did_at g t []).loadInto k rd _).stepOn

/-- From anywhere else it waits for its data. -/
theorem State.load_elsewhere (h : a % k.width = 0) (hr : s.allows g.src a .read = true) (ho : ownAddr g.src a = none) :
    s.Did g t [] (fun x => { x with wait := .load k rd a }) ((s.at t).load g.src k rd a) := by
  have read : (s.at t).allows g.src a .read = true := hr
  unfold State.load
  simp only [h, read, ho, ne_eq, not_true_eq_false, if_false]
  exact State.Did.one s g t _

/-- A bus load of sound words of memory that answers. -/
theorem State.busLoad_memory (n : Nat)
    (hp : placeOf (a / 4 * 4) = .ram ∨ placeOf (a / 4 * 4) = .rom ∨ placeOf (a / 4 * 4) = .mram)
    (hs : s.sound a n = true) (ha : s.memAnswers a = true) : s.busLoad a n = (some (s.loadLE a n), s) := by
  unfold State.busLoad
  rcases hp with place | place | place <;> simp only [place, hs, ha, Bool.and_self, if_true]

/-- A waiting load receives the bytes of memory at its address. -/
theorem execLoadComplete_brings
    (hp : placeOf (a / 4 * 4) = .ram ∨ placeOf (a / 4 * 4) = .rom ∨ (placeOf (a / 4 * 4) = .mram ∧ s.psReset = false))
    (hw : (s.grain g.src).wait = .load k rd a) (hs : s.sound a k.width = true) (ha : s.memAnswers a = true) :
    s.Does g t [] (fun x => (({ x with wait := .none } : Grain).loaded k rd (s.loadLE a k.width)).next (Nat.max s.now t))
      (execLoadComplete s g t) := by
  have waiting : ((s.at t).grain g.src).wait = .load k rd a := hw
  have answers : ¬ (placeOf (a / 4 * 4) = .mram ∧ (s.at t).psReset = true) := fun ⟨mram, reset⟩ => by
    rcases hp with place | place | ⟨-, out⟩
    · rw [place] at mram
      cases mram
    · rw [place] at mram
      cases mram
    · exact Bool.noConfusion (out.symm.trans reset)
  have load : ((s.at t).updGrain g.src (fun x => { x with wait := .none })).busLoad a k.width =
      (some (s.loadLE a k.width), (s.at t).idle g.src) := by
    rw [← State.loadLE_congr (s := s) (u := (s.at t).idle g.src) rfl a k.width]
    exact State.busLoad_memory k.width (hp.imp_right (Or.imp_right And.left)) hs ha
  unfold execLoadComplete
  simp only [waiting, answers, if_false, load]
  exact ⟨_, rfl, (((s.did_at g t []).upd (fun x => { x with wait := .none })).loadInto k rd _).stepOn⟩

end

end Sys2Proof.Machine

open Sys2Proof Sys2Proof.Machine

/-- Settles O6: the seven loads differ in their kind alone, which says how many bytes they read and how the value is extended. -/
theorem loadsReadOwnMemory : Obligations.LoadsReadOwnMemory := by
  unfold Obligations.LoadsReadOwnMemory
  intro s g rd rs1 imm t p ready a ok b1 b2 b4 b8 setsF read own
  have loads {o : Host.Outcome State Fault Refusal} {k : LoadKind} {f : Grain → Grain}
      (e : o = .next ((s.at t).load g.src k rd a)) (hf : ∀ x : Grain, x.loaded k rd (s.loadLE p k.width) = f x)
      (h : ok k.width) : s.Does g t [] (fun x => (f x).next (Nat.max s.now t)) o :=
    ⟨_, e, (State.load_own h.1 read own h.2).as (congrArg (fun x => x.next (Nat.max s.now t)) (hf _))⟩
  refine ⟨?lb, ?lh, ?lw, ?lbu, ?lhu, ?flw, ?fld⟩
  case lb => exact loads (State.issue_load ready rfl) (fun x => x.loaded_b rd s p)
  case lh => exact loads (State.issue_load ready rfl) (fun x => x.loaded_h rd s p)
  case lw => exact loads (State.issue_load ready rfl) (fun x => x.loaded_w rd s p)
  case lbu => exact loads (State.issue_load ready rfl) (fun x => x.loaded_bu rd s p)
  case lhu => exact loads (State.issue_load ready rfl) (fun x => x.loaded_hu rd s p)
  case flw => exact fun h ctl => loads (State.issue_load ready (by rw [ctl]; rfl)) (fun x => x.loaded_fw rd s p) h
  case fld => exact fun h ctl => loads (State.issue_load ready (by rw [ctl]; rfl)) (fun x => x.loaded_fd rd s p) h

/-- Settles O7: a load from elsewhere waits, and what completes it is one read of memory. -/
theorem loadsFromElsewhereWaitForTheirData : Obligations.LoadsFromElsewhereWaitForTheirData := by
  unfold Obligations.LoadsFromElsewhereWaitForTheirData
  intro s g rd rs1 imm t a waits e brings
  have wait {c : Instr} {k : LoadKind} (h : exec c s = .next ((s.at t).load g.src k rd e)) : waits c k e :=
    fun aligned read own => ⟨_, h, State.load_elsewhere aligned read own⟩
  refine ⟨fun ready => ?general, fun ready ctl => ?float, fun place => ?complete⟩
  case general =>
    exact ⟨wait (State.issue_load ready rfl), wait (State.issue_load ready rfl), wait (State.issue_load ready rfl),
      wait (State.issue_load ready rfl), wait (State.issue_load ready rfl)⟩
  case float =>
    have legal : (g.kind == .ctl) = true := by rw [ctl]; rfl
    exact ⟨wait (State.issue_load ready legal), wait (State.issue_load ready legal)⟩
  case complete =>
    have bring {k : LoadKind} {f : Grain → Grain} (hf : ∀ x : Grain, x.loaded k rd (s.loadLE a k.width) = f x) : brings k f :=
      fun waiting sound answers => by
        obtain ⟨u, done, did⟩ := execLoadComplete_brings (t := t) place waiting sound answers
        exact ⟨u, done, did.as (congrArg (fun x => x.next (Nat.max s.now t)) (hf _))⟩
    exact ⟨bring (fun x => x.loaded_b rd s a), bring (fun x => x.loaded_h rd s a), bring (fun x => x.loaded_w rd s a),
      bring (fun x => x.loaded_bu rd s a), bring (fun x => x.loaded_hu rd s a), bring (fun x => x.loaded_fw rd s a),
      bring (fun x => x.loaded_fd rd s a)⟩
end

section
/-!
PROOF. O8 and O9: stores of a ready grain, and the accesses that trap (R184, R190 to R192, R207, R209, R231).
-/

namespace Sys2Proof.Machine

/-! ## The value stored (R190) -/

/-- The bytes stored depend on the low bits of the value alone. -/
theorem State.Stored.of_low {s u : State} {p n v : Nat} (h : s.Stored p n (v % 2 ^ (8 * n)) u) : s.Stored p n v u := by
  refine ⟨fun a => (h.bytes a).trans (ite_congr rfl (fun inside => ?_) (fun _ => rfl)), h.fab⟩
  obtain ⟨i, rfl⟩ := Nat.exists_eq_add_of_le inside.1
  obtain ⟨m, rfl⟩ := Nat.exists_eq_add_of_lt (show i < n by omega)
  refine BitVec.eq_of_toNat_eq ?_
  rw [BitVec.toNat_ofNat, BitVec.toNat_ofNat, Nat.add_sub_cancel_left, show 8 * (i + m + 1) = 8 * i + 8 * (m + 1) by ring,
    Nat.pow_add, Nat.mod_mul_right_div_self, Nat.mod_mod_of_dvd _ (Nat.pow_dvd_pow 2 (by omega))]

/-! ## Where a store acts (R153, R190 to R192) -/

/-- The byte at `p` is where grain `g` finds its address `a`: in its own memory, where its instruction memory is open to
supervisor mode alone, or in region SRAM open to programs. -/
def State.StoreAt (s : State) (g : GrainId) (a p : Nat) : Prop :=
  (ownAddr g.src a = some p ∧ (0x08000000 + instrBytes g.src ≤ a ∨ s.super g.src = true)) ∨
    (ownAddr g.src a = none ∧ p = a ∧ placeOf (a / 4 * 4) = .ram ∧ s.ramOpen a = true ∧ aliasAt a = none)

/-- A store outside the grain's own memory touches no overlay of it. -/
theorem Grain.stored_elsewhere (x : Grain) {g : GrainId} {a : Nat} (h : ownAddr g.src a = none) : x.stored g a = x := by
  refine Grain.stored_apart x ?_
  rintro ⟨vec, low, high⟩
  obtain ⟨off, rfl⟩ := Nat.exists_eq_add_of_le (show 0x08000000 ≤ a by omega)
  exact ownAddr_ne_none (by rw [localBytes_vec vec]; omega) h

section
variable {s u : State} {g : GrainId} {t a p n v w : Nat} {ps : List Part} {f : Grain → Grain}

theorem State.Did.storeTouched (h : s.Did g t ps f u) (hp : s.StoreAt g a p) :
    s.Did g t ps (fun x => (f x).stored g a) (u.overlayTouched p) := by
  rcases hp with own | ⟨notOwn, rfl, -, -, plain⟩
  · exact h.overlayTouched (.inl own)
  · unfold State.overlayTouched
    rw [plain]
    exact h.as (Grain.stored_elsewhere _ notOwn).symm

/-- A store to region SRAM is one write of memory. -/
theorem State.storeOut_sram (src : Nat) (hn : n ≠ 8) (hp : placeOf (a / 4 * 4) = .ram) (ho : s.ramOpen a = true) :
    s.storeOut src a n v = (s.storeLE a n v).overlayTouched a := by
  unfold State.storeOut State.busStore
  simp only [hn, hp, ho, if_true, if_false]

/-- An aligned store that the MPU permits writes its bytes, touches the overlay and completes. -/
theorem State.store_eq (ha : a % n = 0) (hw : s.allows g.src a .write = true) (hp : s.StoreAt g a p)
    (hn : n ≠ 8 ∨ ownAddr g.src a = some p) :
    (s.at t).store g.src a n v = (((s.at t).storeLE p n v).overlayTouched p).stepOn g.src := by
  have write : (s.at t).allows g.src a .write = true := hw
  unfold State.store
  simp only [ha, write, ne_eq, not_true_eq_false, if_false]
  rcases hp with ⟨own, open_⟩ | ⟨notOwn, rfl, ram, open_, -⟩
  · have permitted : ¬ (a < 0x08000000 + instrBytes g.src ∧ ¬ (s.at t).super g.src = true) := fun ⟨low, task⟩ =>
      open_.elim (Nat.not_le.mpr low) task
    rw [own]
    simp only [permitted, if_false]
  · have small : n ≠ 8 := hn.resolve_right fun own => by rw [notOwn] at own; cases own
    rw [notOwn]
    exact congrArg (State.stepOn · g.src) (State.storeOut_sram (s := s.at t) _ small ram open_)

/-- Such a store leaves the low bytes of its value in memory, and nothing else changes but the overlay. -/
theorem State.store_stores {o : Host.Outcome State Fault Refusal} (e : o = .next ((s.at t).store g.src a n w))
    (hv : w = v % 2 ^ (8 * n)) (ha : a % n = 0) (hw : s.allows g.src a .write = true) (hp : s.StoreAt g a p)
    (hn : n ≠ 8 ∨ ownAddr g.src a = some p) :
    s.Stores g t p n v (fun x => (x.stored g a).next (Nat.max s.now t)) o := by
  obtain ⟨did, stored⟩ := State.stored_storeLE (s := s) (g := g) (t := t) (p := p) (n := n) (v := w)
  rw [State.store_eq ha hw hp hn] at e
  refine ⟨_, e, (did.storeTouched hp).stepOn, State.Stored.stepOn (State.Stored.of_low ?_)⟩
  rw [← hv]
  exact stored.congr (State.mem_overlayTouched ..) ⟨((s.at t).storeLE p n w).fab.pmon, State.fab_overlayTouched ..⟩

/-- A ready grain's store, at gs1 plus the sign-extended immediate. -/
theorem State.issue_store {v : State → Nat} {w rs1 : Nat} {imm : Fin 65536} {legal : Bool} (h : s.Ready g) (hl : legal = true) :
    s.issue g t w legal true (fun s => s.store g.src (s.effAddr g.src rs1 imm) n (v s)) =
      .next ((s.at t).store g.src (s.gReg g.src rs1 + BitVec.signExtend 32 (BitVec.ofNat 16 imm)).toNat n (v (s.at t))) :=
  (State.issue_ready h hl (.inl rfl)).trans
    (congrArg (fun a => Host.Outcome.next ((s.at t).store g.src a n (v (s.at t)))) ((s.at t).effAddr_eq g.src rs1 imm))

/-! ## Accesses that trap (R184, R190) -/

theorem State.store_misaligned (h : a % n ≠ 0) : (s.at t).store g.src a n v = (s.at t).exc g.src 3 a := if_pos h

theorem State.store_denied (h : a % n = 0) (hw : s.allows g.src a .write = false) :
    (s.at t).store g.src a n v = (s.at t).exc g.src 6 a :=
  (if_neg (not_not_intro h)).trans (if_pos (Bool.not_eq_true _ ▸ hw))

theorem State.atomic_misaligned {rd : Nat} {v : State → Nat → Option Nat} (h : a % 4 ≠ 0) :
    (s.at t).atomic g.src rd a v = (s.at t).exc g.src 3 a := if_pos h

/-- The trap of a calm grain, for an outcome that is an exception. -/
theorem State.Calm.traps {code b : Nat} {o : Host.Outcome State Fault Refusal} (h : s.Calm g)
    (e : o = .next ((s.at t).exc g.src code b)) : s.Traps g t code b o := e ▸ State.exc_traps h

theorem State.Calm.load_traps {k : LoadKind} {rd : Nat} {o : Host.Outcome State Fault Refusal} (h : s.Calm g)
    (e : o = .next ((s.at t).load g.src k rd a)) : (a % k.width ≠ 0 → s.Traps g t 3 a o) ∧
      (a % k.width = 0 → s.allows g.src a .read = false → s.Traps g t 5 a o) :=
  ⟨fun odd => h.traps (e.trans (congrArg _ (State.load_misaligned odd))),
    fun aligned denied => h.traps (e.trans (congrArg _ (State.load_denied aligned denied)))⟩

theorem State.Calm.store_traps {o : Host.Outcome State Fault Refusal} (h : s.Calm g)
    (e : o = .next ((s.at t).store g.src a n v)) : (a % n ≠ 0 → s.Traps g t 3 a o) ∧
      (a % n = 0 → s.allows g.src a .write = false → s.Traps g t 6 a o) :=
  ⟨fun odd => h.traps (e.trans (congrArg _ (State.store_misaligned odd))),
    fun aligned denied => h.traps (e.trans (congrArg _ (State.store_denied aligned denied)))⟩

end

end Sys2Proof.Machine

open Sys2Proof Sys2Proof.Machine

/-- Settles O8: the five stores differ in how many bytes they write and from which register. -/
theorem storesWriteTheirBytesAlone : Obligations.StoresWriteTheirBytesAlone := by
  unfold Obligations.StoresWriteTheirBytesAlone
  intro s g rs2 rs1 imm t p ready a v d own sram f
  have write (h : own ∨ sram) : s.allows g.src a .write = true := h.elim And.left And.left
  have at_ (h : own ∨ sram) : s.StoreAt g a p := h.imp And.right And.right
  refine ⟨fun place => ?sb, fun place aligned => ?sh, fun place aligned => ?sw, fun place aligned ctl => ?fsw,
    fun place aligned ctl => ?fsd⟩
  all_goals dsimp only [exec]
  case sb =>
    exact State.store_stores (State.issue_store ready rfl) rfl (Nat.mod_one a) (write place) (at_ place) (.inl (by decide))
  case sh => exact State.store_stores (State.issue_store ready rfl) rfl aligned (write place) (at_ place) (.inl (by decide))
  case sw => exact State.store_stores (State.issue_store ready rfl) rfl aligned (write place) (at_ place) (.inl (by decide))
  case fsw =>
    exact State.store_stores (State.issue_store ready (by rw [ctl]; rfl)) rfl aligned (write place) (at_ place) (.inl (by decide))
  case fsd =>
    exact State.store_stores (State.issue_store ready (by rw [ctl]; rfl))
      (Nat.mod_eq_of_lt (s.fReg g.src rs2).isLt).symm aligned (write (.inl place)) (at_ (.inl place)) (.inr place.2.1)

/-- Settles O9: the alignment is judged first, then the MPU, and either refusal is an exception of a calm grain. -/
theorem misalignedAndDeniedAccessesTrap : Obligations.MisalignedAndDeniedAccessesTrap := by
  unfold Obligations.MisalignedAndDeniedAccessesTrap
  intro s g rd rs1 rs2 imm t ready calm
  dsimp only [exec]
  refine ⟨calm.load_traps (k := .b) (State.issue_load ready rfl), calm.load_traps (k := .bu) (State.issue_load ready rfl),
    calm.load_traps (k := .h) (State.issue_load ready rfl), calm.load_traps (k := .hu) (State.issue_load ready rfl),
    calm.load_traps (k := .w) (State.issue_load ready rfl), fun ctl => ?float, calm.store_traps (State.issue_store ready rfl),
    calm.store_traps (State.issue_store ready rfl), calm.store_traps (State.issue_store ready rfl), fun odd => ?atomics⟩
  case float =>
    have legal : (g.kind == .ctl) = true := by rw [ctl]; rfl
    exact ⟨calm.load_traps (k := .fw) (State.issue_load ready legal), calm.load_traps (k := .fd) (State.issue_load ready legal),
      calm.store_traps (State.issue_store ready legal), calm.store_traps (State.issue_store ready legal)⟩
  case atomics =>
    exact ⟨calm.traps ((execAmoadd_ready ready).trans (congrArg _ (State.atomic_misaligned odd))),
      calm.traps ((execAmoswap_ready ready).trans (congrArg _ (State.atomic_misaligned odd))),
      fun even => calm.traps ((execAmocas_ready ready even).trans (congrArg _ (State.atomic_misaligned odd)))⟩
end

section
/-!
PROOF. O10 and O11: the system registers of a ready grain, and the privileged instructions in task mode (R173, R182, R183, R207,
R209).
-/

namespace Sys2Proof.Machine

/-! ## Which system registers there are (R183) -/

/-- The registers that supervisor mode alone may use: the state of traps, the scratch registers and the MPU. -/
def SupervisorReg (n : Nat) : Prop := n ∈ [0x001, 0x002, 0x003, 0x004, 0x005] ∨ (0x100 ≤ n ∧ n < 0x120)

theorem supervisorReg_mpu (k : Fin 32) : SupervisorReg (0x100 + k.val) := .inr ⟨by omega, by omega⟩

theorem SupervisorReg.writes {n : Nat} (h : SupervisorReg n) (kind : GKind) : sysWrites kind n = true := by
  unfold sysWrites
  rcases h with low | high
  · rw [List.contains_iff_mem.mpr low, Bool.true_or, Bool.true_or]
  · rw [decide_eq_true high, Bool.or_true, Bool.true_or]

theorem SupervisorReg.known {n : Nat} (h : SupervisorReg n) (kind : GKind) : sysKnown kind n = true := by
  unfold sysKnown
  rcases h with low | high
  · have listed : n ∈ [0x000, 0x001, 0x002, 0x003, 0x004, 0x005, 0x008, 0x009, 0x010, 0x011] := by
      simp only [List.mem_cons, List.not_mem_nil, or_false] at low ⊢
      omega
    rw [List.contains_iff_mem.mpr listed, Bool.true_or, Bool.true_or]
  · rw [decide_eq_true high, Bool.or_true, Bool.true_or]

theorem SupervisorReg.not_taskReads {n : Nat} (h : SupervisorReg n) : sysTaskReads n = false := by
  unfold SupervisorReg at h
  unfold sysTaskReads
  rw [← Bool.not_eq_true, List.contains_iff_mem]
  simp only [List.mem_cons, List.not_mem_nil, or_false] at h ⊢
  omega

theorem SupervisorReg.not_fpctl {n : Nat} (h : SupervisorReg n) : (n == 0x020) = false := by
  unfold SupervisorReg at h
  rw [beq_eq_false_iff_ne]
  simp only [List.mem_cons, List.not_mem_nil, or_false] at h
  omega

/-! ## The registers of the MPU (R184) -/

theorem State.sysReg_mpu (s : State) (g : GrainId) (k : Fin 32) :
    s.sysReg g (0x100 + k.val) = Tab.get 0#32 (s.grain g.src).mpu k.val := by
  unfold State.sysReg
  split
  case h_13 => rw [Nat.add_sub_cancel_left]
  all_goals omega

theorem State.setSys_mpu (s : State) (src : Nat) (k : Fin 32) (w : Word) : s.setSys src (0x100 + k.val) w =
    s.updGrain src (fun x => { x with mpu := Tab.set 0#32 x.mpu k.val (if k.val % 2 = 1 then w &&& 0xFFFFFFC0#32 else w) }) := by
  have odd : (0x100 + k.val) % 2 = k.val % 2 := by omega
  unfold State.setSys
  congr 1
  funext x
  split
  case h_7 => rw [Nat.add_sub_cancel_left, odd]
  all_goals omega

/-! ## What srr and srw do (R182, R183) -/

section
variable {s : State} {g : GrainId} {t : Nat} {rd rs1 : Fin 32} {i : Fin 65536}

/-- A system register is read, and no read but that of TIMELO changes one. -/
theorem execSrr_sets {w : Word} (h : s.Ready g) (known : sysKnown g.kind i = true)
    (may : sysTaskReads i = true ∨ s.super g.src = true) (still : i.val ≠ 0x010) (hw : (s.at t).sysReg g i = w) :
    s.Sets g t rd w (execSrr s g rd i t) := by
  refine ⟨_, State.issue_ready h known may, ?_⟩
  rw [hw]
  dsimp only
  rw [if_neg still]
  exact ((s.did_at g t []).setG rd w).stepOn

/-- A read of TIMELO latches the high word of the same instant (R173). -/
theorem execSrr_timelo (h : s.Ready g) :
    s.Does g t [] (fun x => (({ x with timeHi := BitVec.ofNat 32 ((s.at t).ns / 2 ^ 32) } : Grain).put rd
      (BitVec.ofNat 32 (s.at t).ns)).next (Nat.max s.now t)) (execSrr s g rd 0x010 t) :=
  ⟨_, State.issue_ready h rfl (.inl rfl),
    ((State.Did.one s g t (fun x => { x with timeHi := BitVec.ofNat 32 ((s.at t).ns / 2 ^ 32) })).setG rd _).stepOn⟩

/-- A system register is written. -/
theorem execSrw_does {f : Grain → Grain} (h : s.Ready g) (known : sysWrites g.kind i = true)
    (may : (i.val == 0x020) = true ∨ s.super g.src = true)
    (hf : (s.at t).setSys g.src i (s.gReg g.src rs1) = (s.at t).updGrain g.src f) :
    s.Does g t [] (fun x => (f x).next (Nat.max s.now t)) (execSrw s g i rs1 t) := by
  refine ⟨_, State.issue_ready h known may, ?_⟩
  rw [show (s.at t).gReg g.src rs1 = s.gReg g.src rs1 from rfl, hf]
  exact (State.Did.one s g t f).stepOn

end

end Sys2Proof.Machine

open Sys2Proof Sys2Proof.Machine

/-- Settles O10: srr copies a system register and srw writes one; TIMELO alone latches another. -/
theorem systemRegistersReadAndWrite : Obligations.SystemRegistersReadAndWrite := by
  unfold Obligations.SystemRegistersReadAndWrite
  intro s g rd rs1 k t ready x n v kind reads writes
  refine ⟨fun sup => ?supervisor, ?status, ?grainid, ?inboxn, ?timelo, ?timehi, fun ctl => ?control⟩
  case supervisor =>
    refine ⟨?_, ?_, ?_, ?_, ?_, ?readMpu, ?_, ?_, ?_, ?_, ?_, ?writeMpu⟩
    case readMpu =>
      intro i number
      have named : SupervisorReg i := number ▸ supervisorReg_mpu k
      exact execSrr_sets ready (named.known g.kind) (.inr sup) (by omega) (number ▸ (s.at t).sysReg_mpu g k)
    case writeMpu =>
      intro i number
      have named : SupervisorReg i := number ▸ supervisorReg_mpu k
      exact execSrw_does ready (named.writes g.kind) (.inr sup) (number ▸ (s.at t).setSys_mpu g.src k v)
    iterate 5 exact execSrr_sets ready rfl (.inr sup) (by decide) rfl
    iterate 5 exact execSrw_does ready rfl (.inr sup) rfl
  case status | grainid | inboxn | timehi => exact execSrr_sets ready rfl (.inl rfl) (by decide) rfl
  case timelo => exact execSrr_timelo ready
  case control =>
    exact ⟨execSrr_sets ready (by rw [ctl]; rfl) (.inl rfl) (by decide) rfl,
      execSrr_sets ready (by rw [ctl]; rfl) (.inl rfl) (by decide) rfl,
      execSrw_does ready (by rw [ctl]; rfl) (.inl rfl) rfl⟩

/-- Settles O11: the mode is judged before the instruction does anything, and the refusal is an exception of a calm grain. -/
theorem privilegedInstructionsTrapInTaskMode : Obligations.PrivilegedInstructionsTrapInTaskMode := by
  unfold Obligations.PrivilegedInstructionsTrapInTaskMode
  intro s g rd rs1 rs2 i t ready calm task
  dsimp only [exec]
  refine ⟨?eret, fun aligned => ?ibget, fun even => ?ipost, fun (named : SupervisorReg i) => ⟨?srw, ?srr⟩⟩
  case eret => exact calm.traps (State.issue_privileged ready rfl rfl task)
  case ibget => exact calm.traps (State.issue_privileged ready (decide_eq_true aligned) rfl task)
  case ipost => exact calm.traps (State.issue_privileged ready (decide_eq_true even) rfl task)
  case srw => exact calm.traps (State.issue_privileged ready (named.writes g.kind) named.not_fpctl task)
  case srr => exact calm.traps (State.issue_privileged ready (named.known g.kind) named.not_taskReads task)
end

section
/-!
PROOF. O13, O14 and O15: traps, deadline slots and fences of a grain (R199, R201 to R210, R229).
-/

namespace Sys2Proof.Machine

section
variable {s u : State} {g : GrainId} {t rd : Nat} {ps : List Part} {f : Grain → Grain}

/-! ## Traps and the return from them (R207, R229) -/

theorem State.Did.trapIn (h : s.Did g t ps f u) : s.Did g t ps (fun x => (f x).trapped) (u.trapIn g.src) := h.upd Grain.trapped

/-- A running grain with IE 1, TRAP 0 and a descriptor in its inbox takes an asynchronous trap where it may (R207). -/
structure State.Called (s : State) (g : GrainId) : Prop where
  run : (s.grain g.src).run = .running
  ie : bit (s.grain g.src).status.toNat 1 = true
  trap : bit (s.grain g.src).status.toNat 2 = false
  posted : (s.grain g.src).inbox ≠ []

theorem State.Called.goes (h : s.Called g) : ¬ (((s.at t).grain g.src).run ≠ .running ∨
    bit ((s.at t).grain g.src).status.toNat 1 = false ∨ bit ((s.at t).grain g.src).status.toNat 2 = true ∨
    ((s.at t).grain g.src).inbox.isEmpty = true) := by
  rintro (run | ie | trap | empty)
  · exact run h.run
  · exact Bool.noConfusion (h.ie.symm.trans ie)
  · exact Bool.noConfusion (h.trap.symm.trans trap)
  · exact h.posted (List.isEmpty_iff.mp empty)

theorem execTrapEntry_enters (h : s.Called g) (hw : (s.grain g.src).wait = .none ∨
    (∃ q d, (s.grain g.src).wait = .qput rd q d) ∨ ∃ q, (s.grain g.src).wait = .qget rd q) :
    s.Does g t [] Grain.trapped (execTrapEntry s g t) := by
  refine ⟨_, ?_, (s.did_at g t []).trapIn⟩
  unfold execTrapEntry
  dsimp only
  rw [if_neg h.goes]
  rcases hw with wait | ⟨q, d, wait⟩ | ⟨q, wait⟩ <;> rw [State.grain_at, wait]

/-- A waitq completes with all ones before its grain enters the handler (R199). -/
theorem execTrapEntry_waitq {m : Nat} (h : s.Called g) (hw : (s.grain g.src).wait = .waitq rd m) :
    s.Does g t [] (fun x => ((x.put rd 0xFFFFFFFF#32).next (Nat.max s.now t)).trapped) (execTrapEntry s g t) := by
  refine ⟨_, ?_, (((s.did_at g t []).setG rd 0xFFFFFFFF#32).stepOn).trapIn⟩
  unfold execTrapEntry
  dsimp only
  rw [if_neg h.goes, State.grain_at, hw]

/-- A kernel is interrupted at an address of its overlay, which is free (R229). -/
theorem execTrapEntry_kernel (h : s.Called g) (hw : (s.grain g.src).wait = .kernel) :
    ∃ a : Word, 0x0801C000 ≤ a.toNat ∧ a.toNat < 0x08020000 ∧
      s.Does g t [.fresh_] (fun x => ({ x with pc := a } : Grain).trapped) (execTrapEntry s g t) := by
  obtain ⟨k, free⟩ : ∃ k, (s.at t).freeNat % 4096 = k := ⟨_, rfl⟩
  have small : k < 4096 := free ▸ Nat.mod_lt _ (by decide)
  have address : (BitVec.ofNat 32 (0x0801C000 + k * 4)).toNat = 0x0801C000 + k * 4 := by
    rw [BitVec.toNat_ofNat, Nat.mod_eq_of_lt (by omega)]
  refine ⟨BitVec.ofNat 32 (0x0801C000 + k * 4), by omega, by omega, _, ?_,
    (((s.did_at g t [.fresh_]).drew (by simp) 1).setPc (0x0801C000 + k * 4)).trapIn⟩
  unfold execTrapEntry
  dsimp only
  rw [if_neg h.goes, State.grain_at, hw, free]

/-- `eret` restores the status and goes on at EPC, into the kernel that a trap interrupted. -/
theorem execEret_does (h : s.Ready g) (sup : s.super g.src = true) :
    s.Does g t [] (fun x => { x with
      status := x.estat, pc := x.epc, retired := Nat.max s.now t,
      wait := if x.kern.isSome ∧ 0x0801C000 ≤ x.epc.toNat ∧ x.epc.toNat < 0x08020000 then .kernel else .none })
      (execEret s g t) := by
  refine ⟨_, State.issue_ready h rfl (.inr sup), (State.Did.one s g t _).retired.as ?_⟩
  simp only [Bool.and_eq_true, decide_eq_true_eq]

/-! ## Deadline slots (R201, R202) -/

theorem execDlarm_does {slot rs1 : Fin 32} (h : s.Ready g) (ctl : g.kind = .ctl) (low : slot.val < 16) :
    s.Does g t [] (fun x => ({ x with dl := Tab.set {} x.dl slot { armed := true, missed := false, due :=
      (Nat.max s.now t + (s.gReg g.src rs1).toNat * 1000 + 2499) / 2500 * 2500 } } : Grain).next (Nat.max s.now t))
      (execDlarm s g slot rs1 t) :=
  ⟨_, State.issue_ready h (by rw [ctl, decide_eq_true low]; rfl) (.inl rfl), ((State.Did.one s g t _).count _ _).stepOn⟩

/-- `dldone` disarms its slot and reports it; a miss that it finds is declared after it. -/
theorem execDldone_does {rd slot : Fin 32} {d : DlSlot} (h : s.Ready g) (ctl : g.kind = .ctl) (low : slot.val < 16)
    (hd : Tab.get {} (s.grain g.src).dl slot = d) :
    ∃ u, s.Did g t [] (fun x => (({ x with dl := Tab.set {} x.dl slot {} } : Grain).put rd
        (if d.armed = false then 0xFFFFFFFF#32 else if d.missed = true ∨ d.due ≤ Nat.max s.now t then 0#32 else 1#32)).next
        (Nat.max s.now t)) u ∧
      execDldone s g rd slot t = .next (if d.armed = true ∧ d.due ≤ Nat.max s.now t ∧ d.missed = false
        then u.deadlineMissed g.src slot d.due else u) := by
  refine ⟨_, ((State.Did.one s g t (fun x => { x with dl := Tab.set {} x.dl slot {} })).setG rd _).stepOn,
    (State.issue_ready h (by rw [ctl, decide_eq_true low]; rfl) (.inl rfl)).trans ?_⟩
  dsimp only
  rw [State.grain_at, hd]
  simp only [Bool.and_eq_true, Bool.or_eq_true, Bool.not_eq_true', Bool.not_eq_true, decide_eq_true_eq, and_assoc]
  rfl

/-- A slot field of 16 to 31 names no slot. -/
theorem noSlot {slot : Fin 32} (kind : GKind) (high : 16 ≤ slot.val) : (kind == .ctl && decide (slot.val < 16)) = false := by
  rw [decide_eq_false (Nat.not_lt.mpr high), Bool.and_false]

/-! ## Fences (R203 to R206, R210) -/

theorem execFenceComplete_fence (h : (s.grain g.src).wait = .fence) :
    execFenceComplete s g t = .next ((((s.at t).idle g.src).stepOn g.src).afterFence g.src) := by
  unfold execFenceComplete
  dsimp only
  rw [State.grain_at, h]
  rfl

theorem execFenceComplete_pfence (h : (s.grain g.src).wait = .pfence none) (hp : s.psReset = false) :
    execFenceComplete s g t =
      .next ((((((s.at t).idle g.src).durable g.src).count 0x3D3 1).stepOn g.src).afterFence g.src) := by
  have up : (s.at t).psReset = false := hp
  unfold execFenceComplete
  dsimp only
  rw [State.grain_at, h]
  dsimp only
  rw [up]
  rfl

theorem execFenceComplete_discarded {a : Nat} (h : (s.grain g.src).wait = .pfence (some a)) :
    execFenceComplete s g t = .next (((s.at t).idle g.src).syncExc g.src 7 (s.pc g.src) a 0) := by
  unfold execFenceComplete
  dsimp only
  rw [State.grain_at, h]
  rfl

theorem State.Did.durable (h : s.Did g t ps f u) (hp : Part.fab_ ∈ ps) (src : Nat) : s.Did g t ps f (u.durable src) :=
  h.setFab hp _

theorem State.did_idle (s : State) (g : GrainId) (t : Nat) (ps : List Part) :
    s.Did g t ps (fun x => { x with wait := .none }) ((s.at t).idle g.src) :=
  (s.did_at g t ps).upd (fun x => { x with wait := .none })

/-- What a durable fence leaves of the fabric: the grain's own stores are durable, and the monitors count. -/
theorem State.fab_durable (s : State) (src : Nat) : ∃ m, (((s.idle src).durable src).count 0x3D3 1).fab =
    { s.fab with pmon := m, mramPend := s.fab.mramPend.filter (fun p => p.src != src) } := by
  obtain ⟨m, counted⟩ := ((s.idle src).durable src).count_eq 0x3D3 1
  exact ⟨m, by rw [counted]; rfl⟩

/-- A pending imprecise bus error is taken, the oldest first. -/
theorem execImpreciseBusError_takes {e : Nat × Nat} {es : List (Nat × Nat)} (run : (s.grain g.src).run = .running)
    (wait : (s.grain g.src).wait = .none) (he : (s.grain g.src).imprecise = e :: es) : execImpreciseBusError s g t =
      .next (((s.at t).updGrain g.src (fun x => { x with imprecise := es })).syncExc g.src 7 e.1 e.2 1) := by
  unfold execImpreciseBusError State.takeImprecise
  simp only [State.grain_at, run, wait, he, and_self, if_true]

end

end Sys2Proof.Machine

open Sys2Proof Sys2Proof.Machine

/-- Settles O13: a trap or break is an exception of a calm grain; what an asynchronous trap does depends on what its grain
waits for. -/
theorem trapBreakAndReturn : Obligations.TrapBreakAndReturn := by
  unfold Obligations.TrapBreakAndReturn
  intro s g imm5 t rd n x
  dsimp only [exec]
  refine ⟨fun ready calm => ?traps, execEret_does, fun run ie trap posted => ?entry⟩
  case traps => exact ⟨calm.traps (State.issue_ready ready rfl (.inl rfl)), calm.traps (State.issue_ready ready rfl (.inl rfl))⟩
  case entry =>
    have called : s.Called g := ⟨run, ie, trap, posted⟩
    exact ⟨execTrapEntry_enters called, fun ⟨m, wait⟩ => execTrapEntry_waitq called wait, execTrapEntry_kernel called⟩

/-- Settles O14: a slot of 0 to 15 is armed or reported, and a higher one is illegal before anything else happens. -/
theorem deadlineSlots : Obligations.DeadlineSlots := by
  unfold Obligations.DeadlineSlots
  intro s g rd rs1 slot t ready ctl n d due gd
  dsimp only [exec]
  refine ⟨fun low => ⟨execDlarm_does ready ctl low, execDldone_does ready ctl low rfl⟩, fun high calm => ?illegal⟩
  exact ⟨calm.traps (State.issue_illegal ready (noSlot g.kind high)), calm.traps (State.issue_illegal ready (noSlot g.kind high))⟩

/-- Settles O15: a fence only makes its grain wait; what completes it depends on what it waited for and on the pending
imprecise bus errors. -/
theorem fencesWaitAndComplete : Obligations.FencesWaitAndComplete := by
  unfold Obligations.FencesWaitAndComplete
  intro s g t a e es n x on
  dsimp only [exec]
  refine ⟨fun ready => ?waits, fun wait clear => ?fence, fun wait pending => ?taken, fun wait clear up => ?pfence,
    fun wait calm => ?discarded, fun run wait kern trap room pending => ?imprecise⟩
  case waits =>
    exact ⟨⟨_, State.issue_ready ready rfl (.inl rfl), State.Did.one s g t _⟩,
      ⟨_, State.issue_ready ready rfl (.inl rfl), State.Did.one s g t _⟩⟩
  case fence =>
    have did := (s.did_idle g t []).stepOn
    exact ⟨_, (execFenceComplete_fence wait).trans (congrArg _ (did.afterFence clear)), did⟩
  case taken =>
    have did := (s.did_idle g t []).stepOn
    refine ⟨_, did, (execFenceComplete_fence wait).trans (congrArg _ (if_neg ?_))⟩
    rw [did.grain]
    show ¬ (s.grain g.src).imprecise.isEmpty = true
    rw [pending]
    exact Bool.noConfusion
  case pfence =>
    have did := (((s.did_idle g t [.fab_]).durable (by simp) g.src).count 0x3D3 1).stepOn
    obtain ⟨m, fab⟩ := (s.at t).fab_durable g.src
    obtain ⟨m', step⟩ := State.fab_stepOn ((((s.at t).idle g.src).durable g.src).count 0x3D3 1) g.src
    exact ⟨_, m', (execFenceComplete_pfence wait up).trans (congrArg _ (did.afterFence clear)), did, by rw [step, fab]; rfl⟩
  case discarded =>
    exact ⟨_, execFenceComplete_discarded wait, (s.did_idle g t []).syncExc calm.kern calm.trap calm.room 7 (s.pc g.src) a 0⟩
  case imprecise =>
    exact ⟨_, execImpreciseBusError_takes run wait pending,
      (State.Did.one s g t (fun x => { x with imprecise := es })).syncExc kern trap room 7 e.1 e.2 1⟩
end

section
/-!
PROOF. O16: the inbox instructions of a ready grain in supervisor mode (R153, R166, R182, R212).
-/

namespace Sys2Proof.Machine

variable {s : State} {g dst : GrainId} {t : Nat} {rd rs1 rs2 : Fin 32}

/-- A descriptor is delivered at once to a grain that is not quarantined, that has 3 entries free, and for which its source
holds none (R166). -/
theorem State.post_delivers {cls src code a b : Nat} (run : (s.grain dst.src).run ≠ .quarantined)
    (room : (s.grain dst.src).inbox.length < 14) (held : Tab.get none s.fab.held (src * 4096 + dst.src) = none) :
    ∃ m, s.post cls src code dst.src a b =
      { s.inboxPush dst.src (s.mkDesc cls src code 0 a b) with fab := { s.fab with pmon := m } } := by
  obtain ⟨m, counted⟩ := (s.inboxPush dst.src (s.mkDesc cls src code 0 a b)).count_eq (monSrc dst.src 4)
    (if (s.grain dst.src).run = .running then 1 else 0)
  refine ⟨m, ?_⟩
  unfold State.post
  rw [grainOfSrc_src]
  dsimp only
  rw [if_neg run, held]
  dsimp only
  rw [if_pos room, counted]
  rfl

/-- A descriptor pushed changes one inbox and nothing else of any grain. -/
theorem State.grain_inboxPush_body (s : State) (dest src : Nat) (d : Desc) :
    { (s.inboxPush dest d).grain src with inbox := [] } = { s.grain src with inbox := [] } := by
  by_cases own : src = dest
  · subst own
    exact congrArg (fun x : Grain => { x with inbox := [] }) (s.grain_updGrain_same src _)
  · exact congrArg (fun x : Grain => { x with inbox := [] }) (s.grain_updGrain_ne _ own)

/-- Completing an instruction leaves every inbox, and every other grain. -/
theorem State.grain_stepOn_ne (s : State) {src x : Nat} (h : x ≠ src) : (s.stepOn src).grain x = s.grain x := by
  obtain ⟨m, e⟩ := s.stepOn_eq src
  rw [e]
  show ((s.setPc src (s.pc src + 4)).updGrain src (fun x => { x with retired := s.now })).grain x = _
  rw [State.grain_updGrain_ne _ _ h, State.setPc, State.grain_updGrain_ne _ _ h]

theorem State.inbox_stepOn (s : State) (src x : Nat) : ((s.stepOn src).grain x).inbox = (s.grain x).inbox := by
  by_cases own : x = src
  · rw [own, State.grain_stepOn]
    rfl
  · rw [State.grain_stepOn_ne s own]

/-- `ibget` moves the oldest descriptor into its quad, zeros from an empty inbox. -/
theorem execIbget_does {d : Desc} (h : s.Ready g) (sup : s.super g.src = true) (aligned : rd.val % 4 = 0)
    (hd : (s.grain g.src).inbox.headD ⟨0#32, 0#32, 0#32, 0#32⟩ = d) :
    s.Does g t [] (fun x => ((((({ x with inbox := x.inbox.tail } : Grain).put rd d.w0).put (rd.val + 1) d.w1).put
      (rd.val + 2) d.w2).put (rd.val + 3) d.w3).next (Nat.max s.now t)) (execIbget s g rd t) := by
  subst hd
  refine ⟨_, State.issue_ready h (decide_eq_true aligned) (.inr sup),
    ((((((State.Did.one s g t (fun x => { x with inbox := x.inbox.drop 1 })).setG rd _).setG (rd.val + 1) _).setG
      (rd.val + 2) _).setG (rd.val + 3) _).stepOn).as ?_⟩
  rw [List.drop_one]
  rfl

/-- The doorbell of `ipost` is delivered, and its grain goes on. -/
theorem execIpost_delivers (h : s.Ready g) (sup : s.super g.src = true) (even : rs2.val % 2 = 0)
    (named : (s.gReg g.src rs1).toNat % 4096 = dst.src) (run : (s.grain dst.src).run ≠ .quarantined)
    (room : (s.grain dst.src).inbox.length < 14) (held : Tab.get none s.fab.held (g.src * 4096 + dst.src) = none) :
    ∃ m, execIpost s g rs1 rs2 t = .next (State.stepOn { (s.at t).inboxPush dst.src ((s.at t).mkDesc 7 g.src
      ((s.gReg g.src rs1).toNat / 65536 % 256) 0 (s.gReg g.src rs2).toNat (s.gReg g.src (rs2 + 1)).toNat) with
      fab := { s.fab with pmon := m } } g.src) := by
  obtain ⟨m, delivered⟩ := State.post_delivers (s := s.at t) (cls := 7) (code := (s.gReg g.src rs1).toNat / 65536 % 256)
    (a := (s.gReg g.src rs2).toNat) (b := (s.gReg g.src (rs2 + 1)).toNat) run room held
  have accepted : ¬ ((grainOfSrc dst.src).isNone = true ∨ ((s.at t).grain dst.src).run = .quarantined) := by
    rw [grainOfSrc_src]
    exact fun refused => refused.elim Bool.noConfusion run
  refine ⟨m, (State.issue_ready h (decide_eq_true even) (.inr sup)).trans (congrArg _ ?_)⟩
  dsimp only
  rw [show ((s.at t).gReg g.src rs1).toNat % 4096 = dst.src from named, if_neg accepted]
  exact congrArg (State.stepOn · g.src) delivered

/-- An `ipost` to no grain is refused (R153). -/
theorem execIpost_refused (h : s.Ready g) (sup : s.super g.src = true) (even : rs2.val % 2 = 0)
    (nobody : grainOfSrc ((s.gReg g.src rs1).toNat % 4096) = none) : ∃ b, execIpost s g rs1 rs2 t =
      .next ((((s.at t).drew 1).refuseFb g.src b (s.gReg g.src rs1).toNat).exc g.src 7 b) :=
  ⟨(s.at t).freeNat % 2 ^ 32, (State.issue_ready h (decide_eq_true even) (.inr sup)).trans
    (congrArg _ (if_pos (.inl (Option.isNone_iff_eq_none.mpr nobody))))⟩

end Sys2Proof.Machine

open Sys2Proof Sys2Proof.Machine

/-- Settles O16: ibget reads one inbox; ipost posts to one, or is refused. -/
theorem inboxInstructions : Obligations.InboxInstructions := by
  unfold Obligations.InboxInstructions
  intro s g dst rd rs1 rs2 t ready sup n a d e
  refine ⟨fun aligned => execIbget_does ready sup aligned rfl, fun even named run room held => ?posts,
    fun even nobody => execIpost_refused ready sup even nobody⟩
  obtain ⟨m, exec⟩ := execIpost_delivers (t := t) ready sup even named run room held
  obtain ⟨v, delivered⟩ : ∃ v : State, { (s.at t).inboxPush dst.src e with fab := { s.fab with pmon := m } } = v := ⟨_, rfl⟩
  have grains : v.grains = ((s.at t).inboxPush dst.src e).grains := by rw [← delivered]
  have body (src : Nat) : { v.grain src with inbox := [] } = { s.grain src with inbox := [] } := by
    rw [State.grain_of_grains grains]
    exact (s.at t).grain_inboxPush_body dst.src src e
  have pc : (v.grain g.src).pc = (s.grain g.src).pc := (congrArg Grain.pc (body g.src) :)
  obtain ⟨m', fab⟩ := v.fab_stepOn g.src
  rw [delivered] at exec
  refine ⟨_, exec, ?delivers, ?goes, fun src other => ?inboxes, fun src other => ?grains, ?fabric, fun p apart => ?rest⟩
  case delivers =>
    rw [State.inbox_stepOn, State.grain_of_grains grains]
    exact congrArg Grain.inbox ((s.at t).grain_updGrain_same dst.src _)
  case goes =>
    rw [State.grain_stepOn]
    exact congrArg (· + 4#32) pc
  case inboxes =>
    rw [State.inbox_stepOn, State.grain_of_grains grains]
    exact congrArg Grain.inbox ((s.at t).grain_updGrain_ne _ other)
  case grains =>
    rw [State.grain_stepOn_ne _ other]
    exact body src
  case fabric =>
    rw [fab, ← delivered]
  case rest =>
    obtain ⟨m'', step⟩ := v.stepOn_eq g.src
    rw [step, ← delivered]
    cases p
    case regs_ => exact fun _ _ _ => rfl
    case lost_ => exact ⟨rfl, rfl⟩
    case grains_ | inbox_ | fab_ => simp at apart
    all_goals rfl
end


section
/-!
PROOF. O19 to O22: the lane operations, compares, predicate logic, moves and reductions of a ready vector grain (R213 to
R217, R220, R221).
-/

set_option Elab.async false

namespace Sys2Proof.Machine

theorem mem_laneIds {i : Nat} : i ∈ laneIds ↔ i < 8 := by
  unfold laneIds
  simp only [List.mem_cons, List.not_mem_nil, or_false]
  omega

section
variable {s : State} {g : GrainId} {t w func : Nat} {o : Host.Outcome State Fault Refusal}

/-! ## Lane operations (R214, R217) -/

/-- A binary row: the result of each lane's operands, modulo 2^32. -/
theorem State.arith_sets {scalar : Bool} {vd va vb pg : Nat} {f : Nat → Nat → Nat → Nat} {r : Nat → Nat} (h : s.Ready g)
    (hk : g.kind = .vec) (e : o = s.arith g t func scalar vd va vb pg f)
    (hr : ∀ i, f (s.lane g.src vd i) (s.lane g.src va i) (s.operandB g.src scalar vb i) % 2 ^ 32 = r i % 2 ^ 32) :
    s.SetsV g t [] vd pg r o :=
  e ▸ State.laneOp_sets h hk (fun i _ => hr i)

/-- A unary row, and every other lane operation that names the result of each lane. -/
theorem State.laneOp_gives {vd pg : Nat} {f : State → Nat → Nat} {r : Nat → Nat} (h : s.Ready g) (hk : g.kind = .vec)
    (e : o = s.laneOp g t w vd pg f) (hr : f (s.at t) = r) : s.SetsV g t [] vd pg r o :=
  e ▸ State.laneOp_sets h hk (fun i _ => by rw [hr])

/-! ## Predicates (R213, R220) -/

/-- A vector instruction that writes a predicate. -/
theorem State.predOp_sets {pd : Nat} {f : State → Nat → Bool} {r : Nat → Bool} (h : s.Ready g) (hk : g.kind = .vec)
    (e : o = s.issue g t w (g.kind == .vec) true (fun s => (s.putPred g.src pd (f s)).stepOn g.src))
    (hr : f (s.at t) = r) : s.SetsP g t pd r o :=
  State.setsP_of (e.trans (State.issue_ready h (by rw [hk]; rfl) (.inl rfl))) (fun i _ => by rw [hr])

theorem State.vcompare_sets {pd va vb pg : Nat} {f : Nat → Nat → Bool} {r : Nat → Bool} (h : s.Ready g) (hk : g.kind = .vec)
    (e : o = s.vcompare g t func pd va vb pg f) (hr : ∀ i, f (s.lane g.src va i) (s.lane g.src vb i) = r i) :
    s.SetsP g t pd (fun i => s.pbit g.src pg i && r i) o :=
  State.predOp_sets h hk e (funext fun i => congrArg (s.pbit g.src pg i && ·) (hr i))

theorem State.plogic_sets {pd a b : Nat} {f : Bool → Bool → Bool} {r : Nat → Bool} (h : s.Ready g) (hk : g.kind = .vec)
    (e : o = s.plogic g t func pd a b f) (hr : ∀ i, f (s.pbit g.src a i) (s.pbit g.src b i) = r i) : s.SetsP g t pd r o :=
  State.predOp_sets h hk e (funext hr)

/-- Bits collected from the low end upward: a number of that many bits that reads as they are. -/
theorem collect_bits (p : Nat → Bool) (n : Nat) :
    (List.range n).foldl (fun m i => m + b2n (p i) * 2 ^ i) 0 < 2 ^ n ∧
      ∀ i, i < n → bit ((List.range n).foldl (fun m i => m + b2n (p i) * 2 ^ i) 0) i = p i := by
  induction n with
  | zero => exact ⟨Nat.one_pos, fun i hi => absurd hi (Nat.not_lt_zero i)⟩
  | succ n ih =>
    rw [List.range_succ, List.foldl_append, List.foldl_cons, List.foldl_nil]
    generalize (List.range n).foldl (fun m i => m + b2n (p i) * 2 ^ i) 0 = v at ih ⊢
    obtain ⟨small, low⟩ := ih
    rw [Nat.add_comm v, Nat.mul_comm]
    refine ⟨?_, fun i hi => ?_⟩
    · rw [Nat.pow_succ]
      cases p n <;> simp [b2n] <;> omega
    · rw [bit_eq_testBit, Nat.testBit_two_pow_mul_add _ small]
      split
      · next below => rw [← bit_eq_testBit, low i below]
      · next top =>
        obtain rfl : i = n := by omega
        cases p i <;> simp [b2n]

/-! ## General registers and whole vector registers (R220, R221) -/

/-- A vector instruction that writes a general register. -/
theorem State.vec_sets {rd : Nat} {v : State → Word} (h : s.Ready g) (hk : g.kind = .vec)
    (e : o = s.issue g t w (g.kind == .vec) true (fun s => (s.setG g.src rd (v s)).stepOn g.src)) :
    s.Sets g t rd (v (s.at t)) o :=
  State.computes h e (by rw [hk]; rfl) rfl

/-- A vector instruction that writes lanes under no predicate: the lanes of `vd` that a list names. -/
theorem State.setsV_all {vd : Nat} {l : List Nat} {f r : Nat → Nat}
    (e : o = .next (((s.at t).putLanes g.src vd l r).stepOn g.src)) (hl : ∀ i ∈ l, i < 8)
    (hr : ∀ i, i < 8 → f i % 2 ^ 32 = if i ∈ l then r i % 2 ^ 32 else s.lane g.src vd i) : s.SetsV g t [] vd 0 f o := by
  obtain ⟨v, did⟩ := (s.did_at g t []).putLanes vd l r
  refine ⟨_, v, e, did.stepOn, fun n i hi => ?_⟩
  have before : (s.at t).lane g.src n i = s.lane g.src n i := rfl
  rw [State.lane_stepOn, State.lane_putLanes _ _ _ _ _ hl _ _ hi, before]
  by_cases same : n = vd
  · subst same
    rw [if_pos (show n = n ∧ s.pbit g.src 0 i = true from ⟨rfl, rfl⟩), hr i hi]
    simp only [true_and]
  · rw [if_neg (same ·.1), if_neg (same ·.1)]

theorem execVsel_sets {vd va vb : Fin 32} {pg : Fin 8} (h : s.Ready g) (hk : g.kind = .vec) :
    s.SetsV g t [] vd 0 (fun i => if s.pbit g.src pg i then s.lane g.src va i else s.lane g.src vb i)
      (execVsel s g vd va vb pg t) := by
  refine State.setsV_all (State.issue_ready h (by rw [hk]; rfl) (.inl rfl)) (by decide) fun i hi => ?_
  rw [if_pos (mem_laneIds.mpr hi)]
  rfl

theorem execVins_sets {vd rs1 : Fin 32} {lane : Fin 8} (h : s.Ready g) (hk : g.kind = .vec) :
    s.SetsV g t [] vd 0 (fun i => if i = lane.val then (s.gReg g.src rs1).toNat else s.lane g.src vd i)
      (execVins s g vd rs1 lane t) := by
  refine State.setsV_all (l := [lane.val]) (r := fun _ => (s.gReg g.src rs1).toNat)
    (State.issue_ready h (by rw [hk]; rfl) (.inl rfl)) (by simp) fun i hi => ?_
  simp only [List.mem_singleton]
  split
  · rfl
  · exact Nat.mod_eq_of_lt (BitVec.isLt _)

end

end Sys2Proof.Machine

open Sys2Proof Sys2Proof.Machine

/-- Settles O19: each instruction is one row of lane arithmetic; a lane keeps the low 32 bits of its result. -/
theorem vectorIntegerArithmetic : Obligations.VectorIntegerArithmetic := by
  unfold Obligations.VectorIntegerArithmetic
  intro s g scalar vd va vb pg t ready vec
  dsimp only [exec]
  have row {o : Host.Outcome State Fault Refusal} {func : Nat} {f : Nat → Nat → Nat → Nat} {r : Nat → Nat}
      (e : o = s.arith g t func scalar vd va vb pg f)
      (hr : ∀ i, f (s.lane g.src vd i) (s.lane g.src va i) (s.operandB g.src scalar vb i) % 2 ^ 32 = r i % 2 ^ 32) :
      s.SetsV g t [] vd pg r o := State.arith_sets ready vec e hr
  exact ⟨row rfl fun _ => Nat.mod_mod .., row rfl fun _ => Nat.mod_mod .., row rfl fun _ => Nat.mod_mod ..,
    row rfl fun _ => rfl, row rfl fun _ => rfl, row rfl fun _ => rfl, row rfl fun _ => Nat.mod_mod .., row rfl fun _ => rfl,
    row rfl fun _ => rfl, row rfl fun _ => rfl, row rfl fun _ => rfl, row rfl fun _ => rfl, row rfl fun _ => rfl⟩

/-- Settles O20: each instruction is one row of lane arithmetic, of two operands or of one. -/
theorem vectorFloatArithmetic : Obligations.VectorFloatArithmetic := by
  unfold Obligations.VectorFloatArithmetic
  intro s g scalar vd va vb pg t ready vec
  dsimp only [exec]
  have two {o : Host.Outcome State Fault Refusal} {func : Nat} {f : Nat → Nat → Nat → Nat} {r : Nat → Nat}
      (e : o = s.arith g t func scalar vd va vb pg f)
      (hr : ∀ i, f (s.lane g.src vd i) (s.lane g.src va i) (s.operandB g.src scalar vb i) % 2 ^ 32 = r i % 2 ^ 32) :
      s.SetsV g t [] vd pg r o := State.arith_sets ready vec e hr
  have one {o : Host.Outcome State Fault Refusal} {func : Nat} {f : Nat → Nat} {r : Nat → Nat}
      (e : o = s.arith1 g t func vd va pg f) (hr : (fun i => f (s.lane g.src va i)) = r) : s.SetsV g t [] vd pg r o :=
    State.laneOp_gives ready vec e hr
  exact ⟨two rfl fun _ => rfl, two rfl fun _ => rfl, two rfl fun _ => rfl, two rfl fun _ => rfl, two rfl fun _ => rfl,
    two rfl fun _ => rfl, two rfl fun _ => rfl, two rfl fun _ => rfl, one rfl rfl, one rfl rfl, one rfl rfl, one rfl rfl,
    one rfl rfl⟩

/-- Settles O21: an instruction writes a predicate by a compare of lanes, by logic on predicates or from a register, or
collects one into a register. -/
theorem vectorComparesAndPredicates : Obligations.VectorComparesAndPredicates := by
  unfold Obligations.VectorComparesAndPredicates
  intro s g pd pa pb rd va vb pg t ready vec
  dsimp only [exec]
  have holds {o : Host.Outcome State Fault Refusal} {func : Nat} {f : Nat → Nat → Bool} {r : Nat → Bool}
      (e : o = s.vcompare g t func pd va vb pg f) (hr : ∀ i, f (s.lane g.src va i) (s.lane g.src vb i) = r i) :
      s.SetsP g t pd (fun i => s.pbit g.src pg i && r i) o := State.vcompare_sets ready vec e hr
  have logic {o : Host.Outcome State Fault Refusal} {func a b : Nat} {f : Bool → Bool → Bool} {r : Nat → Bool}
      (e : o = s.plogic g t func pd a b f) (hr : ∀ i, f (s.pbit g.src a i) (s.pbit g.src b i) = r i) :
      s.SetsP g t pd r o := State.plogic_sets ready vec e hr
  refine ⟨holds rfl fun _ => beq_eq_decide .., holds rfl ?ne, holds rfl fun _ => rfl, holds rfl fun _ => rfl,
    holds rfl fun _ => rfl, holds rfl fun _ => rfl, holds rfl fun _ => rfl, holds rfl fun _ => rfl, holds rfl fun _ => rfl,
    holds rfl fun _ => rfl, logic rfl fun _ => rfl, logic rfl fun _ => rfl, logic rfl fun _ => rfl,
    logic (b := 0) rfl fun _ => rfl, State.predOp_sets ready vec rfl rfl, ?pget⟩
  case ne => exact fun i => by rw [bne, beq_eq_decide, decide_not]
  case pget =>
    obtain ⟨small, read⟩ := collect_bits (s.pbit g.src pa) 8
    exact ⟨_, State.vec_sets ready vec rfl, small, read⟩

/-- Settles O22: a move writes the active lanes, or every lane, of a vector register; vext and the reductions write a general
register. -/
theorem vectorMovesAndReductions : Obligations.VectorMovesAndReductions := by
  unfold Obligations.VectorMovesAndReductions
  intro s g vd va vb rd rs1 lane pg t ready vec
  dsimp only [exec]
  have lanes {o : Host.Outcome State Fault Refusal} {w : Nat} {f : State → Nat → Nat} {r : Nat → Nat}
      (e : o = s.laneOp g t w vd pg f) (hr : f (s.at t) = r) : s.SetsV g t [] vd pg r o := State.laneOp_gives ready vec e hr
  have reduces {o : Host.Outcome State Fault Refusal} {func e : Nat} {f : Nat → Nat → Nat} {v : Nat}
      (h : o = s.reduce g t func rd va pg e f)
      (hv : tree f (fun i => if s.pbit g.src pg i then s.lane g.src va i else e) = v) : s.Sets g t rd (BitVec.ofNat 32 v) o :=
    hv ▸ State.vec_sets ready vec h
  exact ⟨lanes rfl rfl, lanes rfl rfl, lanes rfl rfl, execVsel_sets ready vec, execVins_sets ready vec,
    State.vec_sets ready vec rfl, reduces rfl rfl, reduces rfl rfl, reduces rfl rfl, reduces rfl rfl, reduces rfl rfl,
    reduces rfl rfl⟩
end


section
/-!
PROOF. O23: vector memory access, tables and the exponential of a ready vector grain (R218, R222 to R224).
-/

set_option Elab.async false

namespace Sys2Proof.Machine

section
variable {s u : State} {g : GrainId} {t w vd pg : Nat} {l : List Nat} {a p v : Nat → Nat} {o : Host.Outcome State Fault Refusal}

/-! ## The addresses of the lanes (R218) -/

/-- Every address is aligned and the MPU permits the access. -/
theorem State.laneCheck_none {src : Nat} {k : Access} {as : List Nat} (h : ∀ x ∈ as, x % 4 = 0 ∧ s.allows src x k = true) :
    s.laneCheck src k as = none := by
  unfold State.laneCheck
  rw [List.findSome?_eq_none_iff]
  intro x hx
  obtain ⟨aligned, permitted⟩ := h x hx
  rw [if_neg (not_not_intro aligned), if_pos permitted]

theorem State.laneRead_at (s : State) (t src x : Nat) : (s.at t).laneRead src x = s.laneRead src x := by
  unfold State.laneRead
  simp only [State.loadLE_congr (State.mem_at s t)]
  rfl

/-- Every word is answered. -/
theorem State.laneRead_find_none {src : Nat} {α : Type} {as : List α} {f : α → Nat}
    (h : ∀ x ∈ as, (s.laneRead src (f x)).isSome = true) :
    as.find? (fun x => ((s.at t).laneRead src (f x)).isNone) = none := by
  rw [List.find?_eq_none]
  intro x hx
  rw [State.laneRead_at, Option.isNone_iff_eq_none]
  exact Option.isSome_iff_ne_none.mp (h x hx)

/-! ## Loads (R218) -/

/-- A gather of lanes that are all aligned, permitted and answered brings each its word. -/
theorem State.gather_eq {src : Nat} (h : ∀ i ∈ l, a i % 4 = 0 ∧ s.allows src (a i) .read = true ∧ s.laneRead src (a i) = some (v i)) :
    (s.at t).gather src vd l a = ((s.at t).putLanes src vd l (fun i => ((s.at t).laneRead src (a i)).getD 0)).stepOn src := by
  have check : (s.at t).laneCheck src .read (l.map a) = none := State.laneCheck_none fun x hx => by
    obtain ⟨i, hi, rfl⟩ := List.mem_map.mp hx
    exact ⟨(h i hi).1, (h i hi).2.1⟩
  have answered : l.find? (fun i => ((s.at t).laneRead src (a i)).isNone) = none :=
    State.laneRead_find_none fun i hi => by rw [(h i hi).2.2]; rfl
  unfold State.gather
  simp only [check, answered]

/-- A vector load of a ready vector grain. -/
theorem State.vmem_loads {addr : State → Nat → Nat} (h : s.Ready g) (hk : g.kind = .vec)
    (e : o = s.vmem g t w vd pg false addr) (ha : addr (s.at t) = a)
    (hv : ∀ i, i < 8 ∧ s.pbit g.src pg i = true →
      a i % 4 = 0 ∧ s.allows g.src (a i) .read = true ∧ s.laneRead g.src (a i) = some (v i)) : s.SetsV g t [] vd pg v o := by
  subst ha
  refine State.setsV_of (s.did_at g t []) ?_ (fun i hi on => ?_)
    (r := fun i => ((s.at t).laneRead g.src (addr (s.at t) i)).getD 0)
  · rw [e, State.vmem, State.issue_ready h (by rw [hk]; rfl) (.inl rfl), ← State.gather_eq (v := v)]
    · rfl
    · exact fun i hi => hv i ((State.mem_activeLanes ..).mp hi)
  · rw [State.laneRead_at, (hv i ⟨hi, on⟩).2.2]
    rfl

/-! ## Stores (R218, R231) -/

/-- The word at `p` is where a lane of grain `g` stores at its address `a`: in its own memory below the overlay, or in region
SRAM open to programs. -/
def State.LaneAt (s : State) (g : GrainId) (a p : Nat) : Prop :=
  (ownAddr g.src a = some p ∧ a < 0x0801C000) ∨ (ownAddr g.src a = none ∧ p = a ∧ inRegionSram a = true ∧ placeOf a = .ram ∧
    s.ramOpen a = true ∧ aliasAt a = none)

/-- Whether a program may write region SRAM does not depend on the state (R153). -/
theorem State.ramOpen_plain {x : Nat} (h : aliasAt x = none) : u.ramOpen x = s.ramOpen x := by
  unfold State.ramOpen
  rw [h]

/-- A lane stored there is one store of its word. -/
theorem State.laneWrite_eq {x q n : Nat} (hx : x % 4 = 0) (h : s.LaneAt g x q) :
    u.laneWrite g.src x n = u.storeLE q 4 n := by
  unfold State.laneWrite
  rcases h with ⟨own, low⟩ | ⟨notOwn, rfl, sram, ram, open_, plain⟩
  · simp only [own]
    obtain ⟨off, rfl, inside, rfl⟩ := ownAddr_eq_some own
    rw [State.overlayTouched_alias _ (aliasAt_own g off inside), if_neg (by omega)]
  · have word : q / 4 * 4 = q := by omega
    have open_ : u.ramOpen q = true := (State.ramOpen_plain plain).trans open_
    have kept : (u.storeLE q 4 n).overlayTouched q = u.storeLE q 4 n := by
      unfold State.overlayTouched
      rw [plain]
    unfold State.busStore
    simp only [notOwn, sram, word, ram, open_, kept, if_true]

/-- The words of a list of lanes stored, one after the other. -/
def State.storeLanes (s : State) (l : List Nat) (p v : Nat → Nat) : State := l.foldl (fun s i => s.storeLE (p i) 4 (v i)) s

theorem State.grains_storeLanes (s : State) (l : List Nat) (p v : Nat → Nat) : (s.storeLanes l p v).grains = s.grains :=
  foldl_keeps State.grains (fun s i => by
    obtain ⟨_, _, _, e⟩ := s.storeLE_eq (p i) 4 (v i)
    rw [e]) l s

/-- The lanes' own stores are those stores: no lane register changes on the way. -/
theorem State.foldl_laneWrite (h : ∀ i ∈ l, a i % 4 = 0 ∧ s.LaneAt g (a i) (p i)) (hu : u.grains = s.grains) :
    l.foldl (fun u i => u.laneWrite g.src (a i) (u.lane g.src vd i)) u = u.storeLanes l p (s.lane g.src vd) := by
  induction l generalizing u with
  | nil => rfl
  | cons i l ih =>
    obtain ⟨aligned, place⟩ := h i (List.mem_cons_self ..)
    have lane : u.lane g.src vd i = s.lane g.src vd i := State.lane_congr (by unfold State.grain; rw [hu]) vd i
    rw [List.foldl_cons, State.laneWrite_eq aligned place, lane]
    exact ih (fun j hj => h j (List.mem_cons_of_mem i hj)) ((State.grains_storeLanes u [i] p _).trans hu)

theorem State.Did.storeLE {ps : List Part} {f : Grain → Grain} (h : s.Did g t ps f u) (hp : Part.mem_ ∈ ps) (hf : Part.fab_ ∈ ps)
    (q n x : Nat) : s.Did g t ps f (u.storeLE q n x) := by
  induction n generalizing u q x with
  | zero => exact h
  | succ n ih => exact ih (h.setByte hp hf q _) (q + 1) (x / 256)

theorem State.Did.storeLanes {ps : List Part} {f : Grain → Grain} (h : s.Did g t ps f u) (hp : Part.mem_ ∈ ps)
    (hf : Part.fab_ ∈ ps) (l : List Nat) (p v : Nat → Nat) : s.Did g t ps f (u.storeLanes l p v) := by
  induction l generalizing u with
  | nil => exact h
  | cons i l ih => exact ih (h.storeLE hp hf (p i) 4 (v i))

/-- A byte that no lane names stands. -/
theorem State.byte_storeLanes {x : Nat} (h : ∀ i ∈ l, ¬ (p i ≤ x ∧ x < p i + 4)) : (s.storeLanes l p v).byte x = s.byte x := by
  induction l generalizing s with
  | nil => rfl
  | cons i l ih =>
    refine (ih (s := s.storeLE (p i) 4 (v i)) fun j hj => h j (List.mem_cons_of_mem i hj)).trans ?_
    rw [State.byte_storeLE, if_neg (h i (List.mem_cons_self ..))]

theorem State.loadLE_storeLanes_apart {x : Nat} (h : ∀ i ∈ l, p i + 4 ≤ x ∨ x + 4 ≤ p i) :
    (s.storeLanes l p v).loadLE x 4 = s.loadLE x 4 := by
  induction l generalizing s with
  | nil => rfl
  | cons i l ih =>
    refine (ih (s := s.storeLE (p i) 4 (v i)) fun j hj => h j (List.mem_cons_of_mem i hj)).trans ?_
    exact State.loadLE_storeLE_apart s (h i (List.mem_cons_self ..)).symm

/-- Of lanes stored in rising order, one that no higher lane overlaps remains. -/
theorem State.loadLE_storeLanes {i : Nat} (sorted : l.Pairwise (· < ·)) (hi : i ∈ l)
    (h : ∀ j ∈ l, i < j → p j + 4 ≤ p i ∨ p i + 4 ≤ p j) : (s.storeLanes l p v).loadLE (p i) 4 = v i % 2 ^ 32 := by
  induction l generalizing s with
  | nil => cases hi
  | cons k l ih =>
    obtain ⟨above, sorted⟩ := List.pairwise_cons.mp sorted
    rcases List.mem_cons.mp hi with rfl | hi
    · refine (State.loadLE_storeLanes_apart (s := s.storeLE (p i) 4 (v i)) fun j hj =>
        h j (List.mem_cons_of_mem i hj) (above j hj)).trans ?_
      exact State.loadLE_storeLE_same s (p i) 4 (v i)
    · exact ih sorted hi fun j hj => h j (List.mem_cons_of_mem k hj)

theorem State.sorted_activeLanes (s : State) (src pg : Nat) : (s.activeLanes src pg).Pairwise (· < ·) :=
  List.Pairwise.filter _ (by decide)

/-- A vector store of a ready vector grain: the highest lane remains where two name one word. -/
theorem State.vmem_stores {addr : State → Nat → Nat} (h : s.Ready g) (hk : g.kind = .vec)
    (e : o = s.vmem g t w vd pg true addr) (ha : addr (s.at t) = a)
    (hp : ∀ i, i < 8 ∧ s.pbit g.src pg i = true → a i % 4 = 0 ∧ s.allows g.src (a i) .write = true ∧ s.LaneAt g (a i) (p i)) :
    ∃ u, o = .next u ∧ s.Did g t [.mem_, .fab_] (fun x => x.next (Nat.max s.now t)) u ∧
      (∀ x, (∀ i, i < 8 ∧ s.pbit g.src pg i = true → ¬ (p i ≤ x ∧ x < p i + 4)) → u.byte x = s.byte x) ∧
      ∀ i, i < 8 ∧ s.pbit g.src pg i = true →
        (∀ j, j < 8 ∧ s.pbit g.src pg j = true → i < j → p j + 4 ≤ p i ∨ p i + 4 ≤ p j) →
        u.loadLE (p i) 4 = s.lane g.src vd i := by
  subst ha
  have active {i : Nat} : i ∈ s.activeLanes g.src pg ↔ i < 8 ∧ s.pbit g.src pg i = true := State.mem_activeLanes ..
  have check : (s.at t).laneCheck g.src .write ((s.activeLanes g.src pg).map (addr (s.at t))) = none :=
    State.laneCheck_none fun x hx => by
      obtain ⟨i, hi, rfl⟩ := List.mem_map.mp hx
      exact ⟨(hp i (active.mp hi)).1, (hp i (active.mp hi)).2.1⟩
  have scattered : (s.at t).scatter g.src vd (s.activeLanes g.src pg) (addr (s.at t)) =
      ((s.at t).storeLanes (s.activeLanes g.src pg) p (s.lane g.src vd)).stepOn g.src := by
    unfold State.scatter
    simp only [check]
    rw [State.foldl_laneWrite (u := s.at t) (s := s) (vd := vd) (p := p) (fun i hi => ⟨(hp i (active.mp hi)).1, (hp i (active.mp hi)).2.2⟩) rfl]
  have did := ((s.did_at g t [.mem_, .fab_]).storeLanes (by simp) (by simp) (s.activeLanes g.src pg) p (s.lane g.src vd)).stepOn
  refine ⟨_, ?_, did, fun x apart => ?_, fun i hi apart => ?_⟩
  · rw [e, State.vmem, State.issue_ready h (by rw [hk]; rfl) (.inl rfl), ← scattered]
    rfl
  · unfold State.byte
    rw [State.mem_stepOn]
    exact State.byte_storeLanes (s := s.at t) fun i hi => apart i (active.mp hi)
  · rw [State.loadLE_congr (State.mem_stepOn ..), State.loadLE_storeLanes (s.sorted_activeLanes g.src pg) (active.mpr hi)
      fun j hj => apart j (active.mp hj)]
    exact Nat.mod_eq_of_lt (BitVec.isLt _)

/-! ## Tables (R222, R223) -/

/-- A table descriptor's slot. -/
def slotOf (src : Nat) (ws : List Nat) : TabSlot := { valid := tableOk src ws, words := ws }

theorem execVtld_fills {slot : Fin 4} {rs1 : Fin 32} {base : Nat} (h : s.Ready g) (hk : g.kind = .vec)
    (hb : (s.gReg g.src rs1).toNat = base) (aligned : base % 32 = 0) (permitted : s.allows g.src base .read = true)
    (answered : ∀ x ∈ (List.range 8).map (fun i => base + 4 * i), (s.laneRead g.src x).isSome = true) :
    s.Does g t [] (fun x => ({ x with tabs := Tab.set {} x.tabs slot (slotOf g.src
      (((List.range 8).map (fun i => base + 4 * i)).map (fun x => (s.laneRead g.src x).getD 0))) } : Grain).next
        (Nat.max s.now t)) (execVtld s g slot rs1 t) := by
  refine ⟨_, ?_, (State.Did.one s g t (fun x => { x with tabs := Tab.set {} x.tabs slot (slotOf g.src
      (((List.range 8).map (fun i => base + 4 * i)).map (fun x => (s.laneRead g.src x).getD 0))) })).stepOn⟩
  have base_at : ((s.at t).gReg g.src rs1).toNat = base := hb
  have allowed : (s.at t).allows g.src base .read = true := permitted
  have found : ((List.range 8).map (fun i => base + 4 * i)).find? (fun x => ((s.at t).laneRead g.src x).isNone) = none :=
    State.laneRead_find_none (f := id) answered
  have same : (fun x => ((s.at t).laneRead g.src x).getD 0) = fun x => (s.laneRead g.src x).getD 0 :=
    funext fun x => by rw [State.laneRead_at]
  unfold execVtld
  rw [State.issue_ready h (by rw [hk]; rfl) (.inl rfl)]
  simp only [base_at, aligned, allowed, found, ne_eq, not_true_eq_false, if_false, same]
  rfl

/-- The addresses of the cells that lane `i` of a two-way table reads. -/
def State.cellReads (s : State) (src : Nat) (slot : Fin 4) (vd vs1 vs2 : Fin 32) (i : Nat) : List Nat :=
  let d := tableOf (Tab.get {} (s.grain src).tabs slot).words
  if d.skips (s.lane src vs1 i) (s.lane src vs2 i) (s.lane src vd i) then []
  else (d.cells (s.lane src vs1 i) (s.lane src vs2 i) (s.lane src vd i)).2.2

theorem execVtab2_interpolates {slot : Fin 4} {vd vs1 vs2 : Fin 32} {pg : Fin 8} {d : Table} (h : s.Ready g) (hk : g.kind = .vec)
    (hd : tableOf (Tab.get {} (s.grain g.src).tabs slot).words = d) (valid : (Tab.get {} (s.grain g.src).tabs slot).valid = true)
    (hr : ∀ i, i < 8 ∧ s.pbit g.src pg i = true →
      ∀ x ∈ (if d.skips (s.lane g.src vs1 i) (s.lane g.src vs2 i) (s.lane g.src vd i) then []
        else (d.cells (s.lane g.src vs1 i) (s.lane g.src vs2 i) (s.lane g.src vd i)).2.2),
        x % 4 = 0 ∧ s.allows g.src x .read = true ∧ (s.laneRead g.src x).isSome = true) :
    s.SetsV g t [] vd pg (fun i => d.interp (s.lane g.src vs1 i) (s.lane g.src vs2 i) (s.lane g.src vd i)
      (fun x => (s.laneRead g.src x).getD 0)) (execVtab2 s g slot vd vs1 vs2 pg t) := by
  subst hd
  have same : (fun x => ((s.at t).laneRead g.src x).getD 0) = fun x => (s.laneRead g.src x).getD 0 :=
    funext fun x => by rw [State.laneRead_at]
  have sound {x : Nat} (hx : x ∈ (s.activeLanes g.src pg).flatMap (s.cellReads g.src slot vd vs1 vs2)) :
      x % 4 = 0 ∧ s.allows g.src x .read = true ∧ (s.laneRead g.src x).isSome = true := by
    obtain ⟨i, hi, hx⟩ := List.mem_flatMap.mp hx
    exact hr i ((State.mem_activeLanes ..).mp hi) x hx
  have check : (s.at t).laneCheck g.src .read ((s.activeLanes g.src pg).flatMap (s.cellReads g.src slot vd vs1 vs2)) = none :=
    State.laneCheck_none fun x hx => ⟨(sound hx).1, (sound hx).2.1⟩
  have found : ((s.activeLanes g.src pg).flatMap (s.cellReads g.src slot vd vs1 vs2)).find?
      (fun x => ((s.at t).laneRead g.src x).isNone) = none :=
    State.laneRead_find_none (f := id) fun x hx => (sound hx).2.2
  refine State.setsV_of (s.did_at g t []) ?_ (fun i _ _ => by rw [same])
    (r := fun i => (tableOf (Tab.get {} (s.grain g.src).tabs slot).words).interp (s.lane g.src vs1 i)
      (s.lane g.src vs2 i) (s.lane g.src vd i) (fun x => ((s.at t).laneRead g.src x).getD 0))
  unfold execVtab2
  rw [State.issue_ready h (by rw [hk]; rfl) (.inl rfl)]
  refine congrArg Host.Outcome.next ((if_neg (not_not_intro valid)).trans ?_)
  split
  · next e => exact absurd (check.symm.trans e) nofun
  · split
    · next e => exact absurd (found.symm.trans e) nofun
    · rfl

/-! ## The exponential (R224) -/

theorem execVexp_picks {vd vs1 : Fin 32} {pg : Fin 8} (h : s.Ready g) (hk : g.kind = .vec) :
    s.SetsV g t [.fresh_] vd pg (fun i => vexpLane (s.lane g.src vs1 i) (Config.freeWord (s.fresh + i)))
      (execVexp s g vd vs1 pg t) := by
  refine State.setsV_of ((s.did_at g t [.fresh_]).drew (by simp) 8) ?_ (fun i _ _ => rfl)
  unfold execVexp
  rw [State.issue_ready h (by rw [hk]; rfl) (.inl rfl)]
  rfl

end

end Sys2Proof.Machine

open Sys2Proof Sys2Proof.Machine

/-- Settles O23: each access goes through the shared rule of its direction, at its own lane addresses. -/
theorem vectorMemoryAndTables : Obligations.VectorMemoryAndTables := by
  unfold Obligations.VectorMemoryAndTables
  intro s g slot vd vs rs1 rs2 pg t ready vec
  dsimp only [exec]
  refine ⟨fun v hv => State.vmem_loads ready vec rfl rfl hv, fun v hv => State.vmem_loads ready vec rfl rfl hv,
    fun v hv => State.vmem_loads ready vec rfl rfl hv, fun p hp => State.vmem_stores ready vec rfl rfl hp,
    fun p hp => State.vmem_stores ready vec rfl rfl hp, fun p hp => State.vmem_stores ready vec rfl rfl hp,
    fun aligned permitted answered => execVtld_fills ready vec rfl aligned permitted answered,
    fun valid hr => execVtab2_interpolates ready vec rfl valid hr, _, execVexp_picks ready vec⟩

end


section
/-!
PROOF. O26: the lanes that vcorr sends to its block's correlator, the accumulation of the oldest lane, and the end of a clear
(R225 to R227).
-/

set_option Elab.async false

namespace Sys2Proof.Machine

/-- The block of a vector grain's source is its own (R167). -/
theorem vblockOf_src (v : Fin 16) : vblockOf (GrainId.vec v).src = v.val / 4 := by revert v; decide

theorem State.corr_stepOn (s : State) (src : Nat) : (s.stepOn src).corr = s.corr := by
  obtain ⟨m, e⟩ := s.stepOn_eq src
  rw [e]
  rfl

theorem State.rd_stepOn (s : State) (src a : Nat) (f : Fld) : (s.stepOn src).rd a f = s.rd a f :=
  State.rd_of_regs (State.regs_stepOn ..)

theorem State.corrQueue_stepOn (s : State) (src b : Nat) : (s.stepOn src).corrQueue b = s.corrQueue b := by
  unfold State.corrQueue
  rw [State.corr_stepOn]

/-- A count of the correlator, saturating. -/
theorem State.rd_corrCount (s : State) (b n : Nat) {f : Fld} (h : f.lo + f.width ≤ 32) (hw : f.width = 16) :
    (s.corrCount b n f).rd (ES_CORR_CNT b) f = Nat.min (s.rd (ES_CORR_CNT b) f + n) 65535 := by
  unfold State.corrCount
  rw [State.rd_wr_same _ _ _ _ h, hw]
  exact Nat.mod_eq_of_lt (Nat.lt_of_le_of_lt (Nat.min_le_right ..) (by decide))

theorem State.corrQueue_setCorrQueue_same (s : State) (b : Nat) (q : List (List Lane)) :
    (s.setCorrQueue b q).corrQueue b = q := by
  unfold State.corrQueue State.setCorrQueue
  rw [State.corr_wr]
  exact Tab.get_set_same ..

theorem State.corrQueue_setCorrQueue_ne (s : State) {b j : Nat} (q : List (List Lane)) (h : j ≠ b) :
    (s.setCorrQueue b q).corrQueue j = s.corrQueue j := by
  unfold State.corrQueue State.setCorrQueue
  rw [State.corr_wr]
  exact Tab.get_set_ne _ _ _ _ h

/-- `PEND` says whether lanes wait in the queue. -/
theorem State.rdB_setCorrQueue (s : State) (b : Nat) (q : List (List Lane)) :
    (s.setCorrQueue b q).rdB (ES_CORR_STAT b) ES_CORR_STAT_PEND = !q.isEmpty :=
  State.rdB_wr_b2n _ _ _ (by decide) (by decide)

theorem State.rd_setCorrQueue_cnt (s : State) (b : Nat) (q : List (List Lane)) (f : Fld) :
    (s.setCorrQueue b q).rd (ES_CORR_CNT b) f = s.rd (ES_CORR_CNT b) f :=
  State.rd_wr_ne _ _ _ _ (by unfold ES_CORR_CNT ES_CORR_STAT; omega)

theorem State.corrQueue_corrCount (s : State) (b n : Nat) (f : Fld) (j : Nat) :
    (s.corrCount b n f).corrQueue j = s.corrQueue j := by
  unfold State.corrQueue State.corrCount
  rw [State.corr_wr]

theorem State.mem_corrCount (s : State) (b n : Nat) (f : Fld) : (s.corrCount b n f).mem = s.mem := State.mem_wr ..

theorem State.mem_setCorrQueue (s : State) (b : Nat) (q : List (List Lane)) : (s.setCorrQueue b q).mem = s.mem := State.mem_wr ..

section
variable {s u : State} {g : GrainId} {t src : Nat} {lanes : List Lane} {ps : List Part} {f : Grain → Grain}

theorem State.Did.setCorrQueue (h : s.Did g t ps f u) (hp : Part.regs_ ∈ ps) (hl : Part.lost_ ∈ ps) (hc : Part.corr_ ∈ ps)
    (b : Nat) (q : List (List Lane)) : s.Did g t ps f (u.setCorrQueue b q) := by
  have queued : s.Did g t ps f { u with corr := Tab.set [] u.corr b q } :=
    h.andThen rfl rfl rfl (.inr rfl) (fun p hq => by
      simp only [List.mem_cons, not_or] at hq
      cases p
      case corr_ => exact absurd hc hq.2.2.2
      case regs_ => exact fun _ _ _ => rfl
      case lost_ => exact ⟨rfl, rfl⟩
      case grains_ => exact fun _ => rfl
      case inbox_ => exact fun _ => rfl
      all_goals rfl)
  exact queued.setReg hp hl _ _

/-! ## What becomes of lanes that reach the correlator (R225) -/

/-- The correlator of block `b` takes no lanes. -/
def State.CorrBusy (s : State) (b : Nat) : Prop :=
  s.rdB (ES_CORR_CTL b) ES_CORR_CTL_RUN = false ∨ s.rdB (ES_CORR_STAT b) ES_CORR_STAT_BUSY = true

/-- The lanes of the channels in use. -/
def State.corrInside (s : State) (b : Nat) (lanes : List Lane) : List Lane :=
  lanes.filter (fun l => decide (l.chan < s.rd (ES_CORR_CTL b) ES_CORR_CTL_NCH))

/-- A grain whose lanes are settled goes on. -/
def State.corrGo (s : State) (src : Nat) : State := (s.updGrain src (fun x => { x with wait := .none })).stepOn src

/-- The state once the lanes are taken: those outside counted, those inside queued. -/
def State.corrTake (s : State) (b : Nat) (lanes : List Lane) : State :=
  let s' := s.corrCount b (lanes.length - (s.corrInside b lanes).length) ES_CORR_CNT_RANGEN
  if (s.corrInside b lanes).isEmpty then s' else s'.setCorrQueue b (s.corrQueue b ++ [s.corrInside b lanes])

/-- The three answers to a grain's lanes. -/
theorem State.corrTry_eq (s : State) (src : Nat) (lanes : List Lane) : s.corrTry src lanes =
    if ¬ s.rdB (ES_CORR_CTL (vblockOf src)) ES_CORR_CTL_RUN ∨ s.rdB (ES_CORR_STAT (vblockOf src)) ES_CORR_STAT_BUSY then
      (s.corrCount (vblockOf src) lanes.length ES_CORR_CNT_IDLEN).corrGo src
    else if 16 ≤ (s.corrQueue (vblockOf src)).length then
      s.updGrain src (fun x => { x with wait := .vcorr (lanes.map (fun l => (l.chan, l.value, l.instant))) })
    else (s.corrTake (vblockOf src) lanes).corrGo src := by
  unfold State.corrTry State.corrTake State.corrGo State.corrInside
  simp only [State.corrQueue_corrCount]

theorem State.corrBusy_iff {b : Nat} : s.CorrBusy b ↔
    (¬ s.rdB (ES_CORR_CTL b) ES_CORR_CTL_RUN = true ∨ s.rdB (ES_CORR_STAT b) ES_CORR_STAT_BUSY = true) := by
  rw [Bool.not_eq_true]
  rfl

theorem State.corrTry_busy (h : s.CorrBusy (vblockOf src)) :
    s.corrTry src lanes = (s.corrCount (vblockOf src) lanes.length ES_CORR_CNT_IDLEN).corrGo src :=
  (s.corrTry_eq src lanes).trans (if_pos (State.corrBusy_iff.mp h))

theorem State.corrTry_full (h : ¬ s.CorrBusy (vblockOf src)) (full : 16 ≤ (s.corrQueue (vblockOf src)).length) :
    s.corrTry src lanes =
      s.updGrain src (fun x => { x with wait := .vcorr (lanes.map (fun l => (l.chan, l.value, l.instant))) }) :=
  (s.corrTry_eq src lanes).trans ((if_neg (mt State.corrBusy_iff.mpr h)).trans (if_pos full))

theorem State.corrTry_room (h : ¬ s.CorrBusy (vblockOf src)) (room : (s.corrQueue (vblockOf src)).length < 16) :
    s.corrTry src lanes = (s.corrTake (vblockOf src) lanes).corrGo src :=
  (s.corrTry_eq src lanes).trans ((if_neg (mt State.corrBusy_iff.mpr h)).trans (if_neg (Nat.not_le.mpr room)))

theorem State.Did.corrGo (h : s.Did g t ps id u) :
    s.Did g t ps (fun x => ({ x with wait := .none } : Grain).next (Nat.max s.now t)) (u.corrGo g.src) :=
  (h.upd (fun x => { x with wait := .none })).stepOn

theorem State.Did.corrTake (h : s.Did g t ps f u) (hp : Part.regs_ ∈ ps) (hl : Part.lost_ ∈ ps) (hc : Part.corr_ ∈ ps)
    (b : Nat) : s.Did g t ps f (u.corrTake b lanes) := by
  unfold State.corrTake
  split
  · exact h.setReg hp hl _ _
  · exact (h.setReg hp hl _ _).setCorrQueue hp hl hc _ _

theorem State.rd_corrTake (s : State) (b : Nat) : (s.corrTake b lanes).rd (ES_CORR_CNT b) ES_CORR_CNT_RANGEN =
    Nat.min (s.rd (ES_CORR_CNT b) ES_CORR_CNT_RANGEN + (lanes.length - (s.corrInside b lanes).length)) 65535 := by
  have counted := s.rd_corrCount b (lanes.length - (s.corrInside b lanes).length) (f := ES_CORR_CNT_RANGEN) (by decide) (by decide)
  unfold State.corrTake
  split
  · exact counted
  · exact (State.rd_setCorrQueue_cnt ..).trans counted

theorem State.corrQueue_corrTake_same (s : State) (b : Nat) : (s.corrTake b lanes).corrQueue b =
    if s.corrInside b lanes = [] then s.corrQueue b else s.corrQueue b ++ [s.corrInside b lanes] := by
  unfold State.corrTake
  simp only [List.isEmpty_iff]
  split
  · exact State.corrQueue_corrCount ..
  · exact State.corrQueue_setCorrQueue_same ..

theorem State.corrQueue_corrTake_ne (s : State) {b j : Nat} (h : j ≠ b) : (s.corrTake b lanes).corrQueue j = s.corrQueue j := by
  unfold State.corrTake
  split
  · exact State.corrQueue_corrCount ..
  · exact (State.corrQueue_setCorrQueue_ne _ _ h).trans (State.corrQueue_corrCount ..)

theorem State.rdB_corrTake (s : State) {b : Nat} (h : s.corrInside b lanes ≠ []) :
    (s.corrTake b lanes).rdB (ES_CORR_STAT b) ES_CORR_STAT_PEND = true := by
  unfold State.corrTake
  rw [if_neg (by simpa using h), State.rdB_setCorrQueue]
  simp

theorem State.mem_corrTake (s : State) (b : Nat) : (s.corrTake b lanes).mem = s.mem := by
  unfold State.corrTake
  exact ite_keeps State.mem (State.mem_corrCount ..) ((State.mem_setCorrQueue ..).trans (State.mem_corrCount ..))

theorem State.mem_corrGo (s : State) (src : Nat) : (s.corrGo src).mem = s.mem := by
  unfold State.corrGo
  rw [State.mem_stepOn, State.mem_updGrain]

theorem State.rd_corrGo (s : State) (src a : Nat) (k : Fld) : (s.corrGo src).rd a k = s.rd a k := by
  unfold State.corrGo
  rw [State.rd_stepOn, State.rd_updGrain]

theorem State.corrQueue_corrGo (s : State) (src b : Nat) : (s.corrGo src).corrQueue b = s.corrQueue b := by
  unfold State.corrGo State.corrQueue
  rw [State.corr_stepOn, State.corr_updGrain]

/-! ## The accumulation of a lane (R226) -/

/-- Lanes that reach the correlator leave memory alone. -/
theorem State.mem_corrTry (s : State) (src : Nat) (lanes : List Lane) : (s.corrTry src lanes).mem = s.mem := by
  rw [State.corrTry_eq]
  refine ite_keeps State.mem ?_ (ite_keeps State.mem (State.mem_updGrain ..) ?_)
  · rw [State.mem_corrGo, State.mem_corrCount]
  · rw [State.mem_corrGo, State.mem_corrTake]

theorem State.mem_corrResume (s : State) (b : Nat) : (s.corrResume b).mem = s.mem :=
  foldl_keeps State.mem (fun s g => by
    dsimp only
    split
    · exact State.mem_corrTry ..
    · rfl) _ s

/-- A lane of the first frequency alone: its two terms added, then its channel counted. -/
theorem State.corrLane_eq {b : Nat} {l : Lane} (h : s.rd (ES_CORR_CTL b) ES_CORR_CTL_NFRQ = 0) :
    s.corrLane b l = (s.corrFreq b l 0).storeLE ((s.corrFreq b l 0).corrBase b + 393216 + l.chan * 4) 4
      (Nat.min ((s.corrFreq b l 0).loadLE ((s.corrFreq b l 0).corrBase b + 393216 + l.chan * 4) 4 + 1) (2 ^ 32 - 1)) := by
  unfold State.corrLane
  rw [h]
  rfl

theorem State.regs_storeLE (s : State) (p n x : Nat) : (s.storeLE p n x).regs = s.regs := by
  obtain ⟨_, _, _, e⟩ := s.storeLE_eq p n x
  rw [e]

theorem State.regs_corrFreq (s : State) (b : Nat) (l : Lane) (k : Nat) : (s.corrFreq b l k).regs = s.regs := by
  unfold State.corrFreq State.corrAdd
  dsimp only
  rw [State.regs_storeLE, State.regs_storeLE, State.regs_drew]

theorem State.corrBase_congr (h : u.regs = s.regs) (b : Nat) : u.corrBase b = s.corrBase b := by
  unfold State.corrBase
  rw [State.rd_of_regs h]

/-- What a term adds to the number at its address, to nearest even. -/
def corrSum (value factor old : Nat) : Nat := (f64.fma 0 (f32.convert f64 0 value).1 factor old 0).1 % 2 ^ 64

/-- The factor of C and that of S, of a lane's instant at a frequency, by the free deviations `x` and `y`. -/
def State.corrCos (s : State) (b : Nat) (l : Lane) (x : Nat) : Nat :=
  cosNear (s.rd (ES_CORR_FRQ b 0) ES_CORR_FRQ_FRQ * l.instant % 10 ^ 13) (10 ^ 13) x
def State.corrSin (s : State) (b : Nat) (l : Lane) (y : Nat) : Nat :=
  cosNear (4 * (s.rd (ES_CORR_FRQ b 0) ES_CORR_FRQ_FRQ * l.instant % 10 ^ 13) + 3 * 10 ^ 13) (4 * 10 ^ 13) y

theorem State.loadLE_corrAdd_same (s : State) (a value factor : Nat) :
    (s.corrAdd a value factor).loadLE a 8 = corrSum value factor (s.loadLE a 8) :=
  State.loadLE_storeLE_same ..

theorem State.loadLE_corrAdd_apart (s : State) {a x n : Nat} (value factor : Nat) (h : x + n ≤ a ∨ a + 8 ≤ x) :
    (s.corrAdd a value factor).loadLE x n = s.loadLE x n :=
  State.loadLE_storeLE_apart s h

/-- The first frequency's terms at C and S of the lane's channel. -/
theorem State.corrFreq_zero (s : State) (b : Nat) (l : Lane) : s.corrFreq b l 0 =
    ((s.drew 2).corrAdd (s.corrBase b + l.chan * 64) l.value (s.corrCos b l (Config.freeWord s.fresh))).corrAdd
      (s.corrBase b + l.chan * 64 + 8) l.value (s.corrSin b l (Config.freeWord (s.fresh + 1))) := by
  unfold State.corrFreq State.corrCos State.corrSin
  rw [Nat.zero_mul, Nat.add_zero]

/-- C, S and N of the lane's channel. -/
theorem State.corrLane_adds {b : Nat} {l : Lane} (h : s.rd (ES_CORR_CTL b) ES_CORR_CTL_NFRQ = 0) (hl : l.chan < 6144)
    {a m : Nat} (ha : s.corrBase b + l.chan * 64 = a) (hm : s.corrBase b + 393216 + l.chan * 4 = m) :
    (s.corrLane b l).loadLE a 8 = corrSum l.value (s.corrCos b l (Config.freeWord s.fresh)) (s.loadLE a 8) ∧
    (s.corrLane b l).loadLE (a + 8) 8 =
      corrSum l.value (s.corrSin b l (Config.freeWord (s.fresh + 1))) (s.loadLE (a + 8) 8) ∧
    (s.corrLane b l).loadLE m 4 = Nat.min (s.loadLE m 4 + 1) (2 ^ 32 - 1) := by
  have beyond : a + 16 ≤ m := by omega
  have drawn : ∀ x n, (s.drew 2).loadLE x n = s.loadLE x n := State.loadLE_congr (State.mem_drew s 2)
  rw [State.corrLane_eq h, State.corrBase_congr (State.regs_corrFreq ..), hm, State.corrFreq_zero, ha]
  refine ⟨?_, ?_, ?_⟩
  · rw [State.loadLE_storeLE_apart _ (by omega), State.loadLE_corrAdd_apart _ _ _ (by omega), State.loadLE_corrAdd_same, drawn]
  · rw [State.loadLE_storeLE_apart _ (by omega), State.loadLE_corrAdd_same, State.loadLE_corrAdd_apart _ _ _ (by omega), drawn]
  · rw [State.loadLE_storeLE_same, State.loadLE_corrAdd_apart _ _ _ (by omega), State.loadLE_corrAdd_apart _ _ _ (by omega),
      drawn]
    exact Nat.mod_eq_of_lt (Nat.lt_of_le_of_lt (Nat.min_le_right ..) (by decide))

theorem execCorrLaneAccumulate_first {b : Fin 4} {l : Lane} {ls : List Lane} {q : List (List Lane)}
    (h : s.corrQueue b = (l :: ls) :: q) : ∃ u, execCorrLaneAccumulate s b t = .next u ∧ u.mem = ((s.at t).corrLane b l).mem := by
  have front : (s.at t).corrQueue b = (l :: ls) :: q := h
  unfold execCorrLaneAccumulate
  simp only [front]
  exact ⟨_, rfl, (State.mem_corrResume ..).trans (State.mem_setCorrQueue ..)⟩

/-! ## A ready vector grain's vcorr (R225) -/

section
variable {v : Fin 16} {rs vs1 vs2 : Fin 32} {pg : Fin 8}

/-- The lanes a vcorr sends. -/
def State.corrLanes (s : State) (src : Nat) (rs vs1 vs2 : Fin 32) (pg : Fin 8) : List Lane :=
  (s.activeLanes src pg).map (fun i =>
    { chan := (s.gReg src rs).toNat + i, value := s.lane src vs1 i, instant := s.lane src vs2 i })

theorem execVcorr_eq (h : s.Ready g) (hk : g.kind = .vec) : execVcorr s g rs vs1 vs2 pg t =
    .next ((s.at t).corrTry g.src (s.corrLanes g.src rs vs1 vs2 pg)) := by
  unfold execVcorr
  rw [State.issue_ready h (by rw [hk]; rfl) (.inl rfl)]
  rfl

theorem execVcorr_busy (h : s.Ready (.vec v)) (busy : s.CorrBusy (v.val / 4)) :
    ∃ u, execVcorr s (.vec v) rs vs1 vs2 pg t = .next u ∧ s.Did (.vec v) t [.regs_, .lost_]
      (fun x => ({ x with wait := .none } : Grain).next (Nat.max s.now t)) u ∧
      u.rd (ES_CORR_CNT (v.val / 4)) ES_CORR_CNT_IDLEN = Nat.min (s.rd (ES_CORR_CNT (v.val / 4)) ES_CORR_CNT_IDLEN +
        (s.corrLanes (GrainId.vec v).src rs vs1 vs2 pg).length) 65535 := by
  rw [← vblockOf_src v] at busy ⊢
  refine ⟨_, (execVcorr_eq h rfl).trans (congrArg _ (State.corrTry_busy (s := s.at t) busy)),
    ((s.did_at (.vec v) t _).setReg (by simp) (by simp) _ _).corrGo, ?_⟩
  rw [State.rd_corrGo, State.rd_corrCount _ _ _ (by decide) (by decide), State.rd_at]

theorem execVcorr_room (h : s.Ready (.vec v)) (idle : ¬ s.CorrBusy (v.val / 4)) (room : (s.corrQueue (v.val / 4)).length < 16) :
    ∃ u, execVcorr s (.vec v) rs vs1 vs2 pg t = .next u ∧ s.Did (.vec v) t [.regs_, .lost_, .corr_]
      (fun x => ({ x with wait := .none } : Grain).next (Nat.max s.now t)) u ∧
      u = ((s.at t).corrTake (v.val / 4) (s.corrLanes (GrainId.vec v).src rs vs1 vs2 pg)).corrGo (GrainId.vec v).src := by
  rw [← vblockOf_src v] at idle room ⊢
  exact ⟨_, (execVcorr_eq h rfl).trans (congrArg _ (State.corrTry_room (s := s.at t) idle room)),
    ((s.did_at (.vec v) t _).corrTake (by simp) (by simp) (by simp) _).corrGo, rfl⟩

theorem execVcorr_full (h : s.Ready (.vec v)) (idle : ¬ s.CorrBusy (v.val / 4)) (full : 16 ≤ (s.corrQueue (v.val / 4)).length) :
    s.Does (.vec v) t [] (fun x => { x with wait := .vcorr ((s.corrLanes (GrainId.vec v).src rs vs1 vs2 pg).map
      (fun l => (l.chan, l.value, l.instant))) }) (execVcorr s (.vec v) rs vs1 vs2 pg t) := by
  rw [← vblockOf_src v] at idle full
  exact ⟨_, (execVcorr_eq h rfl).trans (congrArg _ (State.corrTry_full (s := s.at t) idle full)), State.Did.one ..⟩

end

/-- A clear that ends changes the one register. -/
theorem execCorrClearDone_done (b : Fin 4) : ∃ u, execCorrClearDone s b t = .next u ∧
    u.rdB (ES_CORR_STAT b) ES_CORR_STAT_BUSY = false ∧ (∀ a, a ≠ ES_CORR_STAT b → u.reg a = s.reg a) ∧
    ∀ p, p ≠ Part.regs_ → p ≠ .lost_ → p.same s u := by
  refine ⟨_, rfl, State.rdB_wr_zero _ _ (by decide), fun a h => State.reg_wr_ne _ _ _ h, fun p h h' => ?_⟩
  cases p
  case regs_ => exact absurd rfl h
  case lost_ => exact absurd rfl h'
  case grains_ => exact fun _ => rfl
  case inbox_ => exact fun _ => rfl
  all_goals rfl

end

end Sys2Proof.Machine

open Sys2Proof Sys2Proof.Machine

/-- Settles O26: a vcorr's lanes meet one of three answers, and the oldest lane adds to three numbers that lie apart. -/
theorem correlatorTakesAndAccumulatesLanes : Obligations.CorrelatorTakesAndAccumulatesLanes := by
  unfold Obligations.CorrelatorTakesAndAccumulatesLanes
  intro s v rs vs1 vs2 pg b t
  dsimp only [exec]
  refine ⟨fun ready busy => ?_, fun ready idle room => ?_, fun ready idle full => ?_, fun l ls q front one => ?_, ?_⟩
  · exact execVcorr_busy ready busy
  · obtain ⟨u, e, did, rfl⟩ := execVcorr_room (t := t) (rs := rs) (vs1 := vs1) (vs2 := vs2) (pg := pg) ready idle room
    refine ⟨_, e, did, ?_, ?_, fun j h => ?_, fun some => ?_⟩
    · exact (State.rd_corrGo ..).trans (State.rd_corrTake ..)
    · exact (State.corrQueue_corrGo ..).trans (State.corrQueue_corrTake_same ..)
    · exact (State.corrQueue_corrGo ..).trans (State.corrQueue_corrTake_ne _ h)
    · unfold State.rdB
      rw [State.rd_corrGo]
      exact State.rdB_corrTake _ some
  · exact execVcorr_full ready idle full
  · obtain ⟨u, e, kept⟩ := execCorrLaneAccumulate_first (t := t) front
    refine ⟨u, Config.freeWord s.fresh, Config.freeWord (s.fresh + 1), e, fun inside => ?_⟩
    simp only [State.loadLE_congr kept]
    exact State.corrLane_adds (s := s.at t) one inside rfl rfl
  · exact execCorrClearDone_done b

end


section
/-!
PROOF. O44: clocks, the oscillator vote, the RTC and a vector grain's self-test (R232, R482 to R484).
-/

set_option Elab.async false

namespace Sys2Proof.Machine

section
variable {s u : State} {t : Nat}

/-! ## PW held for a chip reset (R151) -/

/-- A block of PW (R151, R170). -/
def pwBlocks : List Nat := [0x40F, 0x41F, 0x43F]

theorem State.regs_resetBlockState (s : State) (blk : Nat) : (s.resetBlockState blk).regs = s.regs := by
  unfold State.resetBlockState
  dsimp only
  split <;> rfl

theorem State.now_resetBlockState (s : State) (blk : Nat) : (s.resetBlockState blk).now = s.now := by
  unfold State.resetBlockState
  dsimp only
  split <;> rfl

theorem State.led_resetBlockState (s : State) (blk : Nat) : (s.resetBlockState blk).led = s.led := by
  unfold State.resetBlockState
  dsimp only
  split <;> rfl

/-- A block of PW is reset: its registers, then its state. -/
theorem State.resetBlock_pw {blk : Nat} (h : blk ∈ pwBlocks) :
    s.resetBlock blk = (s.resetRegs (windowOf blk) (windowOf blk + 0x7F000)).resetBlockState blk := by
  unfold State.resetBlock
  dsimp only
  rw [if_neg (by revert h; unfold pwBlocks; simp only [List.mem_cons, List.not_mem_nil, or_false]; omega)]

/-- The registers of the supervisor lie below those of PW. -/
theorem State.reg_resetBlock_pw {blk a : Nat} (h : blk ∈ pwBlocks) (ha : a < 0x42000000) : (s.resetBlock blk).reg a = s.reg a := by
  have window : 0x42000000 ≤ windowOf blk := by revert blk; decide
  rw [State.resetBlock_pw h]
  unfold State.reg
  rw [State.regs_resetBlockState]
  refine (Tab.get_filter_key (regReset a) (fun k => !(decide (windowOf blk ≤ k) && decide (k < windowOf blk + 0x7F000))) s.regs a).trans ?_
  rw [decide_eq_false (by omega), Bool.false_and]
  rfl

theorem State.pwHold_keeps {β : Type} (p : State → β) (hard : ∀ (u : State) n, p (u.hardOff n) = p u)
    (block : ∀ (u : State), ∀ b ∈ pwBlocks, p (u.resetBlock b) = p u)
    (held : ∀ (u : State) v w, p { u with sv := v, trip := w } = p u) (s : State) (cause : Nat) :
    p (s.pwHold cause) = p s := by
  unfold State.pwHold
  simp only [List.foldl_cons, List.foldl_nil]
  rw [held, block _ _ (by decide), block _ _ (by decide), block _ _ (by decide)]
  exact foldl_keeps p hard _ s

theorem State.now_pwHold (s : State) (cause : Nat) : (s.pwHold cause).now = s.now :=
  State.pwHold_keeps State.now (fun u n => ((Steady.refl u).hardOff (n := n)).now)
    (fun _ _ h => by rw [State.resetBlock_pw h, State.now_resetBlockState]; rfl) (fun _ _ _ => rfl) s cause

theorem State.led_hardOff (s : State) (n : Nat) : (s.hardOff n).led = s.led :=
  (@State.hardOff_kept (fun p => p ≠ .led_) ⟨by decide⟩ ⟨by decide⟩ ⟨by decide⟩ _ _ n (Kept.refl s)).same .led_ (by decide)

theorem State.led_pwHold (s : State) (cause : Nat) : (s.pwHold cause).led = s.led :=
  State.pwHold_keeps State.led State.led_hardOff
    (fun _ _ h => by rw [State.resetBlock_pw h, State.led_resetBlockState]; rfl) (fun _ _ _ => rfl) s cause

theorem State.reg_pwHold (s : State) (cause : Nat) {a : Nat} (ha : a < 0x42000000) : (s.pwHold cause).reg a = s.reg a :=
  State.pwHold_keeps (fun u : State => u.reg a) (fun u n => ((Steady.refl u).hardOff (n := n)).reg a ha)
    (fun _ _ h => State.reg_resetBlock_pw h ha) (fun _ _ _ => rfl) s cause

/-- With no reset under way and no commit mode, a reset asked for by way of a held PW holds it. -/
theorem State.requestReset_hold {cause : Nat} (hc : cause ≠ 1) (hr : s.sv.resetAt = none) (hp : s.trip.pwHoldAt = none)
    (hd : s.led.commit = false) : s.requestReset cause 2 = s.pwHold cause := by
  unfold State.requestReset
  rw [if_neg hc, if_neg (by simp [hr, hp]), if_neg (by simp [hd])]
  rfl

/-! ## Clock faults (R482) -/

/-- A clock fault with the oscillator concerned was recorded, and PW is held for its chip reset. -/
structure State.FaultHeld (s u : State) (n osc : Nat) : Prop where
  held : u.trip.pwHoldAt = some n
  cause : u.sv.cause = 4
  raised : s.Raised u srcSV EV_SV_CLOCK [osc]

theorem State.clockFault_eq (hr : s.sv.resetAt = none) (hp : s.trip.pwHoldAt = none) (hd : s.led.commit = false) (osc : Nat) :
    s.clockFault osc = (s.raise srcSV EV_SV_CLOCK [osc]).pwHold 4 :=
  State.requestReset_hold (by decide) (by rw [State.sv_raise, hr]) (by rw [State.trip_raise, hp])
    (by rw [State.commit_raise, hd])

/-- No reset is under way, and the ledger is not in commit mode. -/
structure State.Unheld (s : State) : Prop where
  resetAt : s.sv.resetAt = none
  pwHoldAt : s.trip.pwHoldAt = none
  commit : s.led.commit = false

theorem State.Unheld.of (h : s.Unheld) (hv : u.sv = s.sv) (ht : u.trip = s.trip) (hl : u.led = s.led) : u.Unheld :=
  ⟨by rw [hv]; exact h.resetAt, by rw [ht]; exact h.pwHoldAt, by rw [hl]; exact h.commit⟩

theorem State.faultHeld_clockFault (h : u.Unheld) (hl : u.led = s.led) (osc : Nat) : s.FaultHeld (u.clockFault osc) u.now osc := by
  rw [State.clockFault_eq h.resetAt h.pwHoldAt h.commit]
  exact ⟨congrArg some (State.now_raise ..), rfl, State.raised_of_raise hl (State.led_pwHold ..)
    ((State.ns_of_now (State.now_pwHold ..)).trans (State.ns_raise ..))⟩

theorem State.rd_clockFault (h : u.Unheld) (osc : Nat) (f : Fld) : (u.clockFault osc).rd SV_CLK_STAT f = u.rd SV_CLK_STAT f := by
  rw [State.clockFault_eq h.resetAt h.pwHoldAt h.commit]
  unfold State.rd
  rw [State.reg_pwHold _ _ (by decide), State.reg_raise _ _ _ _ (by decide) (by decide)]

/-- The oscillator that a loss concerns, and its flag. -/
def clockOsc : ClockLoss → Nat
  | .crystal => 1
  | .core => 4
  | .fabric => 5
  | .pwm => 6
def clockFlag : ClockLoss → Fld
  | .crystal => SV_CLK_STAT_XTAL
  | .core => ⟨0, 0⟩
  | .fabric => ⟨1, 1⟩
  | .pwm => ⟨2, 2⟩

theorem execClockFault_eq (s : State) (why : ClockLoss) (t : Nat) :
    execClockFault s why t = .next (((s.at t).wr SV_CLK_STAT (clockFlag why) 0).clockFault (clockOsc why)) := by
  cases why <;> rfl

theorem execClockFault_held (why : ClockLoss) (h : s.Unheld) :
    ∃ u, execClockFault s why t = .next u ∧ s.FaultHeld u (s.at t).now (clockOsc why) ∧
      u.rdB SV_CLK_STAT (clockFlag why) = false := by
  have inside : (clockFlag why).lo + (clockFlag why).width ≤ 32 := by cases why <;> decide
  have unheld : ((s.at t).wr SV_CLK_STAT (clockFlag why) 0).Unheld :=
    h.of (State.sv_wr ..) (State.trip_wr ..) (State.led_wr ..)
  have held := State.faultHeld_clockFault unheld (s := s) (State.led_wr ..) (clockOsc why)
  rw [State.now_wr] at held
  refine ⟨_, execClockFault_eq s why t, held, ?_⟩
  unfold State.rdB
  rw [State.rd_clockFault unheld]
  exact State.rdB_wr_zero _ _ inside

/-! ## The vote (R483) -/

/-- A window of the vote counted. -/
def State.voted (s : State) (v n : Nat) : State := { s with sv := { s.sv with vote := v, voteN := n } }

theorem execOscVoteWindow_first {x f m : Nat} (h : voteOf x f m ≠ s.sv.vote) :
    execOscVoteWindow s x f m t = .next ((s.at t).voted (voteOf x f m) 1) := by
  unfold execOscVoteWindow
  extract_lets u v n q w
  have one : n = 1 := if_neg h
  rw [if_pos (by omega)]
  unfold State.voted
  rw [← one]

/-- The second window in a row of an outcome other than 4 decides. -/
theorem execOscVoteWindow_second {x f m v : Nat} (h : voteOf x f m = v) (hv : s.sv.vote = v) (hn : s.sv.voteN = 1) (h4 : v ≠ 4)
    {w z : State} (hw : w = ((s.at t).voted v 2).wr SV_CLK_STAT SV_CLK_STAT_VOTE v)
    (hz : z = w.hit SV_EVT SV_EVT_CLKVOTE SV_CNT SV_CNT_CLKVOTEN) :
    execOscVoteWindow s x f m t = if v = 0 then .next w else if v = 1 then .next (z.clockFault 1)
      else if v = 2 then .next z.sfInternal else if v = 3 then .next (z.raise srcSV EV_SV_CLOCK [3])
      else .next ((z.sfInternal).clockFault 0) := by
  unfold execOscVoteWindow
  extract_lets u v' n q w' z' y'
  have same : v' = v := h
  have two : n = 2 := by
    show (if v' = s.sv.vote then Nat.min 3 (s.sv.voteN + 1) else 1) = 2
    rw [if_pos (same.trans hv.symm), hn]
    decide
  have counted : w' = (s.at t).voted v 2 := by rw [← two, ← same]; rfl
  have decided : z' = w := by rw [hw, ← counted, ← same]; exact if_neg (same ▸ h4)
  have flagged : y' = z := by rw [hz, ← decided]; exact if_neg (same ▸ h4)
  rw [if_neg (by omega), flagged, decided, same, two]
  simp only [ne_eq, not_true_eq_false, false_or]

theorem execOscVoteWindow_agree {x f m : Nat} (h : voteOf x f m = s.sv.vote) (hn : s.sv.voteN = 1) (hv : s.sv.vote = 0) :
    ∃ u, execOscVoteWindow s x f m t = .next u ∧ u.rd SV_CLK_STAT SV_CLK_STAT_VOTE = 0 ∧ u.led = s.led :=
  ⟨_, execOscVoteWindow_second (h.trans hv) hv hn (by decide) rfl rfl, State.rd_wr_same _ _ _ _ (by decide), State.led_wr ..⟩

/-- What the second window of an outlier sets before it acts. -/
theorem State.voteFlags (s : State) {v : Nat} (hv : v < 4) :
    let z := (s.wr SV_CLK_STAT SV_CLK_STAT_VOTE v).hit SV_EVT SV_EVT_CLKVOTE SV_CNT SV_CNT_CLKVOTEN
    z.rd SV_CLK_STAT SV_CLK_STAT_VOTE = v ∧ z.rdB SV_EVT SV_EVT_CLKVOTE = true ∧ z.led = s.led ∧ z.sv = s.sv ∧
      z.trip = s.trip ∧ z.now = s.now := by
  refine ⟨?_, State.rdB_hit_same _ _ _ (by decide) (by decide) (by decide), ?_, ?_, ?_, ?_⟩
  · rw [State.rd_hit_ne _ _ _ _ (by decide) (by decide), State.rd_wr_same _ _ _ _ (by decide)]
    exact Nat.mod_eq_of_lt hv
  · rw [State.led_hit, State.led_wr]
  · rw [State.sv_hit, State.sv_wr]
  · rw [State.trip_hit, State.trip_wr]
  · rw [State.now_hit, State.now_wr]

theorem execOscVoteWindow_monitor {x f m : Nat} (h : voteOf x f m = s.sv.vote) (hn : s.sv.voteN = 1) (hv : s.sv.vote = 3) :
    ∃ u, execOscVoteWindow s x f m t = .next u ∧ u.rd SV_CLK_STAT SV_CLK_STAT_VOTE = 3 ∧
      u.rdB SV_EVT SV_EVT_CLKVOTE = true ∧ s.Raised u srcSV EV_SV_CLOCK [3] := by
  obtain ⟨vote, flag, led, -, -, -⟩ := ((s.at t).voted 3 2).voteFlags (v := 3) (by decide)
  refine ⟨_, execOscVoteWindow_second (h.trans hv) hv hn (by decide) rfl rfl, ?_, ?_,
    State.raised_of_raise led rfl (State.ns_raise ..)⟩
  · rw [State.rd_raise _ _ _ _ _ (by decide) (by decide), vote]
  · rw [State.rdB_raise _ _ _ _ _ (by decide) (by decide), flag]

theorem execOscVoteWindow_crystal {x f m : Nat} (h : voteOf x f m = s.sv.vote) (hn : s.sv.voteN = 1) (hv : s.sv.vote = 1)
    (unheld : s.Unheld) : ∃ u, execOscVoteWindow s x f m t = .next u ∧ s.FaultHeld u (s.at t).now 1 ∧
      u.rd SV_CLK_STAT SV_CLK_STAT_VOTE = 1 := by
  obtain ⟨vote, -, led, sv, trip, now⟩ := ((s.at t).voted 1 2).voteFlags (v := 1) (by decide)
  have unheld' := (show ((s.at t).voted 1 2).Unheld from ⟨unheld.resetAt, unheld.pwHoldAt, unheld.commit⟩).of sv trip led
  have held := State.faultHeld_clockFault unheld' (s := s) led 1
  rw [now] at held
  exact ⟨_, execOscVoteWindow_second (h.trans hv) hv hn (by decide) rfl rfl, held, (State.rd_clockFault unheld' ..).trans vote⟩

/-! ## The RTC (R484) and a vector grain's self-test (R232) -/

theorem execRtcLoad_due (hr : s.sv.resetAt = none) (h : s.sv.rtcAt + sec ≤ (s.at t).now) : ∃ u, execRtcLoad s t = .next u ∧
    u.sv = { s.sv with rtc := (s.at t).now / 1000, rtcAt := (s.at t).now, rtcBad := false } := by
  refine ⟨_, if_neg ?_, rfl⟩
  rintro (reset | early)
  · rw [State.sv_at, hr] at reset; cases reset
  · exact absurd h (Nat.not_le.mpr early)

theorem execRtcLoad_early (h : (s.at t).now < s.sv.rtcAt + sec) : ∃ u, execRtcLoad s t = .next u ∧ u.sv = s.sv :=
  ⟨_, if_pos (.inr h), rfl⟩

theorem ES_VB_STAT_ne (v : Nat) : ES_VB_STAT v ≠ LEDGER_EVT ∧ ES_VB_STAT v ≠ LEDGER_CNT := by
  unfold ES_VB_STAT LEDGER_EVT LEDGER_CNT
  omega

theorem execVectorSelftestDone_passed {v : Fin 16} (h : (s.grain (vecSrc v)).run = .unstarted) :
    ∃ u, execVectorSelftestDone s v true t = .next u ∧ u.rdB (ES_VB_STAT (v / 4)) ⟨v % 4, v % 4⟩ = true ∧ u.grains = s.grains :=
  ⟨_, (if_neg (not_not_intro h)).trans (if_pos rfl), State.rdB_wrBit_same _ _ _ (by omega), rfl⟩

theorem execVectorSelftestDone_failed {v : Fin 16} (h : (s.grain (vecSrc v)).run = .unstarted) :
    ∃ u, execVectorSelftestDone s v false t = .next u ∧ u.rdB (ES_VB_STAT (v / 4)) ⟨v % 4, v % 4⟩ = false ∧
      (u.grain (vecSrc v)).run = .quarantined ∧ s.Raised u (vecSrc v) EV_VEC_SELFTEST_FAIL [vecSrc v] := by
  obtain ⟨evt, cnt⟩ := ES_VB_STAT_ne (v / 4)
  obtain ⟨w, hw⟩ : ∃ w, w = (s.at t).wrBit (ES_VB_STAT (v / 4)) (v % 4) false := ⟨_, rfl⟩
  have led : w.led = s.led := by rw [hw]; exact State.led_wrBit ..
  have flag : w.rdB (ES_VB_STAT (v / 4)) ⟨v % 4, v % 4⟩ = false := by rw [hw]; exact State.rdB_wrBit_same _ _ _ (by omega)
  refine ⟨((w.updGrain (vecSrc v) (fun g => { g with run := .quarantined })).updUnit (vecSrc v)
      (fun u => { u with phase := .stays })).raise (vecSrc v) EV_VEC_SELFTEST_FAIL [vecSrc v],
    by rw [hw]; exact (if_neg (not_not_intro h)).trans (if_neg (by decide)), ?_, ?_,
    State.raised_of_raise (s' := (w.updGrain (vecSrc v) _).updUnit (vecSrc v) _) led rfl (State.ns_raise ..)⟩
  · rw [State.rdB_raise _ _ _ _ _ evt cnt]
    exact flag
  · unfold State.grain
    rw [State.grains_raise]
    exact congrArg Grain.run (w.grain_updGrain_same (vecSrc v) (fun g => { g with run := .quarantined }))

end

end Sys2Proof.Machine

end


section
/-!
PROOF. O44: the temperature of the dies, their bands, and the thermal shutdown's way to a reset (R233, R486 to R488).
-/

set_option Elab.async false

namespace Sys2Proof.Machine

section
variable {s u : State} {t : Nat}

/-! ## The band in force (R487) -/

/-- What a change of the band in force leads to: it is recorded, and by the vector blocks too. -/
def State.bandNote (s : State) (b : Nat) : State :=
  let s := { s with led := { s.led with scrubBand := Nat.max s.led.scrubBand b } }
  let s := (s.hit SV_EVT SV_EVT_BAND SV_CNT SV_CNT_BANDN).raise srcSV EV_SV_BAND [b]
  if s.sv.resetAt.isSome then s
  else [0x20F, 0x21F, 0x22F, 0x23F].foldl (fun s v => s.raise v EV_VEC_THROTTLE [v, b]) s

/-- The hotter of the two dies' bands. -/
def State.bandTop (s : State) : Nat := Nat.max (s.rd SV_TH_STAT SV_TH_STAT_CBAND) (s.rd SV_TH_STAT SV_TH_STAT_PBAND)

theorem State.bandSync_eq (s : State) : s.bandSync = if s.bandTop = s.rd SV_TH_STAT SV_TH_STAT_BAND then s
    else (s.wr SV_TH_STAT SV_TH_STAT_BAND s.bandTop).bandNote s.bandTop := rfl

theorem State.bandNote_keeps {β : Type} (p : State → β) (led : ∀ (u : State) l, p { u with led := l } = p u)
    (hit : ∀ u : State, p (u.hit SV_EVT SV_EVT_BAND SV_CNT SV_CNT_BANDN) = p u)
    (raise : ∀ (u : State) src code ws, p (u.raise src code ws) = p u) (s : State) (b : Nat) : p (s.bandNote b) = p s := by
  have noted (l : Ledger) : p (({ s with led := l }.hit SV_EVT SV_EVT_BAND SV_CNT SV_CNT_BANDN).raise srcSV EV_SV_BAND [b]) = p s := by
    rw [raise, hit, led]
  unfold State.bandNote
  exact ite_keeps p (noted _) ((foldl_keeps p (fun u v => raise u v _ _) _ _).trans (noted _))

theorem State.bandSync_keeps {β : Type} (p : State → β) (led : ∀ (u : State) l, p { u with led := l } = p u)
    (band : ∀ (u : State) v, p (u.wr SV_TH_STAT SV_TH_STAT_BAND v) = p u)
    (hit : ∀ u : State, p (u.hit SV_EVT SV_EVT_BAND SV_CNT SV_CNT_BANDN) = p u)
    (raise : ∀ (u : State) src code ws, p (u.raise src code ws) = p u) (s : State) : p s.bandSync = p s := by
  rw [State.bandSync_eq]
  exact ite_keeps p rfl ((State.bandNote_keeps p led hit raise ..).trans (band ..))

theorem State.sv_bandSync (s : State) : s.bandSync.sv = s.sv :=
  State.bandSync_keeps State.sv (fun _ _ => rfl) (fun _ _ => State.sv_wr ..) (fun _ => State.sv_hit ..)
    (fun _ _ _ _ => State.sv_raise ..) s

/-- A field of the supervisor's that the band in force does not touch. -/
def bandSpares (a : Nat) (f : Fld) : Prop := f.lo + f.width ≤ 32 ∧ a ≠ SV_CNT ∧ a ≠ LEDGER_EVT ∧ a ≠ LEDGER_CNT ∧
  (a = SV_TH_STAT → 3 ≤ f.lo) ∧ (a = SV_EVT → 2 ≤ f.lo)

theorem State.rd_bandSync (s : State) {a : Nat} {f : Fld} (h : bandSpares a f) : s.bandSync.rd a f = s.rd a f := by
  obtain ⟨inside, cnt, evt, lost, band, flag⟩ := h
  refine State.bandSync_keeps (fun u : State => u.rd a f) (fun _ _ => rfl) (fun u v => ?_) (fun u => ?_)
    (fun u _ _ _ => State.rd_raise _ _ _ _ _ evt lost) s
  · by_cases e : a = SV_TH_STAT
    · subst e
      exact State.rd_wr_apart _ _ _ _ _ (by decide) inside (.inl (band rfl))
    · exact State.rd_wr_ne _ _ _ _ e
  · unfold State.hit
    dsimp only
    rw [State.rd_wr_ne _ _ _ _ cnt]
    by_cases e : a = SV_EVT
    · subst e
      exact State.rd_wr_apart _ _ _ _ _ (by decide) inside (.inl (flag rfl))
    · exact State.rd_wr_ne _ _ _ _ e

theorem State.rd_lt (s : State) (a : Nat) (f : Fld) : s.rd a f < 2 ^ f.width := Fld.get_lt f (s.reg a)

/-- The band in force is the hotter die's. -/
theorem State.rd_bandSync_band (s : State) : s.bandSync.rd SV_TH_STAT SV_TH_STAT_BAND = s.bandTop := by
  have small : s.bandTop < 2 ^ SV_TH_STAT_BAND.width :=
    Nat.max_lt.mpr ⟨s.rd_lt SV_TH_STAT SV_TH_STAT_CBAND, s.rd_lt SV_TH_STAT SV_TH_STAT_PBAND⟩
  rw [State.bandSync_eq]
  split
  · next h => exact h.symm
  · rw [State.bandNote_keeps (fun u : State => u.rd SV_TH_STAT SV_TH_STAT_BAND) (fun _ _ => rfl)
      (fun u => State.rd_hit_ne _ _ _ _ (by decide) (by decide))
      (fun _ _ _ _ => State.rd_raise _ _ _ _ _ (by decide) (by decide)), State.rd_wr_same _ _ _ _ (by decide)]
    exact Nat.mod_eq_of_lt small

/-- The field of a die's band. -/
theorem bandFld_spares (d : Nat) : bandSpares SV_TH_STAT (bandFld d) ∧ (bandFld d).width = 3 := by
  unfold bandFld bandSpares
  split <;> exact by decide

theorem State.bandFld_le_bandTop (s : State) (d : Nat) : s.rd SV_TH_STAT (bandFld d) ≤ s.bandTop := by
  unfold bandFld State.bandTop
  split
  · exact Nat.le_max_left ..
  · exact Nat.le_max_right ..

/-! ## The readings of a die (R486, R487) -/

theorem bandAt_mono (d : Nat) {a b : Nat} (ha : 1 ≤ a) (hab : a ≤ b) (hb : b ≤ 4) : bandAt d a ≤ bandAt d b := by
  unfold bandAt
  split_ifs <;> omega

/-- A die's readings select at least each band whose threshold one of them reaches. -/
theorem State.le_bandWanted (s : State) {d b : Nat} (h4 : b ≤ 4) (h : bandAt d b ≤ s.hottest d) :
    b ≤ s.bandWanted d := by
  unfold State.bandWanted
  split
  · exact h4
  · have kept : (List.range' 1 b).filter (fun b => decide (bandAt d b ≤ s.hottest d)) = List.range' 1 b :=
      List.filter_eq_self.mpr fun x hx => by
        rw [List.mem_range'_1] at hx
        exact decide_eq_true ((bandAt_mono d hx.1 (by omega) h4).trans h)
    have listed : (List.range' 1 b).Sublist [1, 2, 3, 4] := List.range'_sublist_right.mpr h4
    calc b = ((List.range' 1 b).filter (fun b => decide (bandAt d b ≤ s.hottest d))).length := by
          rw [kept, List.length_range']
      _ ≤ _ := (listed.filter _).length_le

theorem State.bandWanted_le (s : State) (d : Nat) : s.bandWanted d ≤ 4 := by
  unfold State.bandWanted
  split
  · exact Nat.le_refl 4
  · exact List.length_filter_le ..

/-- A sound sensor's reading counts into the highest. -/
theorem State.tempS_le_hottest (s : State) {d n : Nat} (hn : n ∈ sensorsOf d) (sound : s.brokenS n = false) :
    s.tempS n ≤ s.hottest d := by
  have rises (l : List Nat) (m : Int) :
      m ≤ l.foldl (fun m n => if s.brokenS n then m else if m < s.tempS n then s.tempS n else m) m := by
    induction l generalizing m with
    | nil => exact Int.le_refl m
    | cons k l ih =>
      refine Int.le_trans ?_ (ih _)
      dsimp only
      split_ifs <;> omega
  have counts (l : List Nat) (m : Int) (hn : n ∈ l) :
      s.tempS n ≤ l.foldl (fun m n => if s.brokenS n then m else if m < s.tempS n then s.tempS n else m) m := by
    induction l generalizing m with
    | nil => cases hn
    | cons k l ih =>
      rcases List.mem_cons.mp hn with rfl | hn
      · refine Int.le_trans ?_ (rises l _)
        dsimp only
        rw [if_neg (by rw [sound]; decide)]
        split <;> omega
      · exact ih _ hn
  exact counts _ _ hn

theorem mem_sensorsOf (i : Fin 13) : i.val ∈ sensorsOf (dieOf i) := by revert i; decide

/-- Whether a sensor is broken is one bit of TH_STAT. -/
theorem State.brokenS_eq (s : State) {n : Nat} (hn : n < 13) : s.brokenS n = s.rdB SV_TH_STAT ⟨16 + n, 16 + n⟩ := by
  have field (x : Nat) : bit (x / 2 ^ 16 % 2 ^ 13) n = x.testBit (16 + n) := by
    rw [bit_eq_testBit, Nat.testBit_mod_two_pow, decide_eq_true hn, Bool.true_and, Nat.testBit_div_two_pow, Nat.add_comm]
  unfold State.rdB State.rd Fld.get
  rw [Fld.width_bit]
  exact (field _).trans (bit_eq_testBit _ (16 + n)).symm

/-! ## A conversion (R486, R487) -/

theorem SV_TSENS_spares {n : Nat} (hn : n < 13) : bandSpares (SV_TSENS n) SV_TSENS_TS ∧ SV_TSENS n ≠ SV_TH_STAT := by
  have below : SV_TSENS_TS.lo + SV_TSENS_TS.width ≤ 32 := by decide
  unfold bandSpares SV_TSENS SV_CNT LEDGER_EVT LEDGER_CNT SV_TH_STAT SV_EVT
  exact ⟨⟨below, by omega, by omega, by omega, fun h => absurd h (by omega), fun h => absurd h (by omega)⟩, by omega⟩

/-- A sound sensor's reading stands. -/
theorem State.sensorGood_reads {n : Nat} (hn : n < 13) (h : s.brokenS n = false) (temp : Int) :
    (s.sensorGood n temp).rd (SV_TSENS n) SV_TSENS_TS = wrapInt temp 16 ∧ (s.sensorGood n temp).tempS n = temp ∧
    (s.sensorGood n temp).brokenS n = false ∧ ∀ d, (s.sensorGood n temp).rd SV_TH_STAT (bandFld d) = s.rd SV_TH_STAT (bandFld d) := by
  obtain ⟨w, hw⟩ : ∃ w, w = ({ s with sv := { s.sv with
      temp := Tab.set 0 s.sv.temp n temp, soundAt := Tab.set none s.sv.soundAt n none } } : State) := ⟨_, rfl⟩
  have noted : s.sensorGood n temp = (w.wr (SV_TSENS n) SV_TSENS_TS (wrapInt temp 16)).wrBit SV_TH_STAT (16 + n) false := by
    rw [hw]
    exact if_neg (by rw [h]; rintro ⟨k, -⟩; cases k)
  have other := (SV_TSENS_spares hn).2
  rw [noted]
  refine ⟨?_, ?_, ?_, fun d => ?_⟩
  · unfold State.wrBit
    rw [State.rd_wr_ne _ _ _ _ other, State.rd_wr_same _ _ _ _ (by decide)]
    exact Nat.mod_eq_of_lt (wrapInt_lt temp 16)
  · unfold State.tempS
    rw [State.sv_wrBit, State.sv_wr, hw]
    exact Tab.get_set_same ..
  · rw [State.brokenS_eq _ hn]
    exact State.rdB_wrBit_same _ _ _ (by omega)
  · have inside : (bandFld d).lo + (bandFld d).width ≤ 11 := by unfold bandFld; split <;> decide
    have bitWidth : (⟨16 + n, 16 + n⟩ : Fld).width = 1 := Fld.width_bit _
    have bitLo : (⟨16 + n, 16 + n⟩ : Fld).lo = 16 + n := rfl
    unfold State.wrBit
    rw [State.rd_wr_apart _ _ _ _ _ (by omega) (by omega) (.inr (by omega)), State.rd_wr_ne _ _ _ _ (Ne.symm other), hw]
    rfl

/-- A broken sensor reads too hot, and is recorded when it becomes so. -/
theorem State.sensorBad_reads {n : Nat} (hn : n < 13) :
    (s.sensorBad n).rd (SV_TSENS n) SV_TSENS_TS = 0x7FFF ∧ (s.sensorBad n).brokenS n = true ∧
    (s.brokenS n = false → (s.sensorBad n).rdB SV_EVT SV_EVT_BROKEN = true) := by
  obtain ⟨w, hw⟩ : ∃ w, w = ((({ s with sv := { s.sv with soundAt := Tab.set none s.sv.soundAt n none } } : State).wr
    (SV_TSENS n) SV_TSENS_TS 0x7FFF).wrBit SV_TH_STAT (16 + n) true) := ⟨_, rfl⟩
  obtain ⟨z, hz⟩ : ∃ z, z = (w.hit SV_EVT SV_EVT_BROKEN SV_CNT SV_CNT_BROKENN).raise srcSV EV_SV_SENSOR_BROKEN [n] := ⟨_, rfl⟩
  have noted : s.sensorBad n = if s.brokenS n then w else z := by rw [hz, hw]; rfl
  obtain ⟨⟨-, cnt, evt, lost, -, -⟩, other⟩ := SV_TSENS_spares hn
  have reads : w.rd (SV_TSENS n) SV_TSENS_TS = 0x7FFF := by
    rw [hw]
    unfold State.wrBit
    rw [State.rd_wr_ne _ _ _ _ other, State.rd_wr_same _ _ _ _ (by decide)]
    rfl
  have broken : w.rdB SV_TH_STAT ⟨16 + n, 16 + n⟩ = true := by rw [hw]; exact State.rdB_wrBit_same _ _ _ (by omega)
  have ev : SV_TSENS n ≠ SV_EVT := by unfold SV_TSENS SV_EVT; omega
  rw [State.brokenS_eq _ hn, noted]
  refine ⟨ite_keeps (fun u : State => u.rd (SV_TSENS n) SV_TSENS_TS) reads ?_,
    ite_keeps (fun u : State => u.rdB SV_TH_STAT ⟨16 + n, 16 + n⟩) broken ?_, fun sound => ?_⟩
  · rw [hz, State.rd_raise _ _ _ _ _ evt lost, State.rd_hit_ne _ _ _ _ ev cnt, reads]
  · rw [hz, State.rdB_raise _ _ _ _ _ (by decide) (by decide)]
    unfold State.rdB
    rw [State.rd_hit_ne _ _ _ _ (by decide) (by decide)]
    exact broken
  · rw [if_neg (by rw [sound]; decide), hz, State.rdB_raise _ _ _ _ _ (by decide) (by decide)]
    exact State.rdB_hit_same _ _ _ (by decide) (by decide) (by decide)

/-- A die's spans begin and end, and its band rises to what its readings select. -/
def State.dieRise (s : State) (d : Nat) : State :=
  ((s.dieSpans d).wr SV_TH_STAT (bandFld d) (Nat.max (s.rd SV_TH_STAT (bandFld d)) (s.bandWanted d))).bandSync

theorem execDieSensorConvert_eq (s : State) (i : Fin 13) (temp : Int) (ok : Bool) (t : Nat) : execDieSensorConvert s i temp ok t =
    .next ((if ok ∧ -5000 ≤ temp ∧ temp ≤ 20000 then (s.at t).sensorGood i.val temp else (s.at t).sensorBad i.val).dieRise
      (dieOf i.val)) := rfl

theorem State.tempS_dieRise (s : State) (d n : Nat) : (s.dieRise d).tempS n = s.tempS n := by
  unfold State.tempS State.dieRise
  rw [State.sv_bandSync, State.sv_wr]
  rfl

/-- What the bands do not touch stands. -/
theorem State.rd_dieRise (s : State) (d : Nat) {a : Nat} {f : Fld} (h : bandSpares a f) (hb : a = SV_TH_STAT → 11 ≤ f.lo) :
    (s.dieRise d).rd a f = s.rd a f := by
  have inside : (bandFld d).lo + (bandFld d).width ≤ 11 := by unfold bandFld; split <;> decide
  unfold State.dieRise
  rw [State.rd_bandSync _ h]
  by_cases e : a = SV_TH_STAT
  · subst e
    rw [State.rd_wr_apart _ _ _ _ _ (by omega) h.1 (.inl (inside.trans (hb rfl)))]
    rfl
  · rw [State.rd_wr_ne _ _ _ _ e]
    rfl

theorem State.brokenS_dieRise (s : State) (d n : Nat) : (s.dieRise d).brokenS n = s.brokenS n := by
  unfold State.brokenS
  rw [State.rd_dieRise s d (f := SV_TH_STAT_BROKEN) (by unfold bandSpares; decide) (fun _ => by decide)]

theorem State.rd_dieRise_band (s : State) (d : Nat) :
    (s.dieRise d).rd SV_TH_STAT (bandFld d) = Nat.max (s.rd SV_TH_STAT (bandFld d)) (s.bandWanted d) := by
  obtain ⟨spared, width⟩ := bandFld_spares d
  have small := s.rd_lt SV_TH_STAT (bandFld d)
  have wanted := s.bandWanted_le d
  rw [width] at small
  unfold State.dieRise
  rw [State.rd_bandSync _ spared, State.rd_wr_same _ _ _ _ spared.1, width]
  exact Nat.mod_eq_of_lt (Nat.max_lt.mpr ⟨small, by omega⟩)

/-- The band in force reaches each die's. -/
theorem State.band_dieRise (s : State) (d : Nat) :
    (s.dieRise d).rd SV_TH_STAT (bandFld d) ≤ (s.dieRise d).rd SV_TH_STAT SV_TH_STAT_BAND := by
  unfold State.dieRise
  rw [State.rd_bandSync_band, State.rd_bandSync _ (bandFld_spares d).1]
  exact State.bandFld_le_bandTop ..

theorem execDieSensorConvert_sound {i : Fin 13} {temp : Int} (low : -5000 ≤ temp) (high : temp ≤ 20000)
    (sound : s.brokenS i = false) : ∃ u, execDieSensorConvert s i temp true t = .next u ∧
      u.rd (SV_TSENS i) SV_TSENS_TS = wrapInt temp 16 ∧ u.tempS i = temp ∧ u.brokenS i = false ∧
      s.rd SV_TH_STAT (bandFld (dieOf i)) ≤ u.rd SV_TH_STAT (bandFld (dieOf i)) ∧
      ∀ b, 1 ≤ b → b ≤ 4 → bandAt (dieOf i) b ≤ temp → b ≤ u.rd SV_TH_STAT (bandFld (dieOf i)) := by
  obtain ⟨reads, temps, whole, band⟩ := State.sensorGood_reads (s := s.at t) i.isLt sound temp
  obtain ⟨spared, other⟩ := SV_TSENS_spares i.isLt
  refine ⟨_, (execDieSensorConvert_eq ..).trans (by rw [if_pos ⟨rfl, low, high⟩]), ?_⟩
  rw [State.rd_dieRise _ _ spared (absurd · other), State.tempS_dieRise, State.brokenS_dieRise, State.rd_dieRise_band]
  refine ⟨reads, temps, whole, (band _).symm.trans_le (Nat.le_max_left ..), fun b _ h4 h => ?_⟩
  have reached := State.tempS_le_hottest _ (mem_sensorsOf i) whole
  rw [temps] at reached
  exact (State.le_bandWanted _ h4 (h.trans reached)).trans (Nat.le_max_right ..)

theorem execDieSensorConvert_bad {i : Fin 13} {temp : Int} {ok : Bool} (h : ok = false ∨ temp < -5000 ∨ 20000 < temp) :
    ∃ u, execDieSensorConvert s i temp ok t = .next u ∧ u.rd (SV_TSENS i) SV_TSENS_TS = 0x7FFF ∧ u.brokenS i = true ∧
      4 ≤ u.rd SV_TH_STAT (bandFld (dieOf i)) ∧ 4 ≤ u.rd SV_TH_STAT SV_TH_STAT_BAND ∧
      (s.brokenS i = false → u.rdB SV_EVT SV_EVT_BROKEN = true) := by
  obtain ⟨reads, broken, noted⟩ := State.sensorBad_reads (s := s.at t) i.isLt
  obtain ⟨spared, other⟩ := SV_TSENS_spares i.isLt
  have outside : ¬ (ok = true ∧ -5000 ≤ temp ∧ temp ≤ 20000) := by
    rintro ⟨rfl, low, high⟩
    rcases h with h | h | h
    · cases h
    · omega
    · omega
  have forced : ((s.at t).sensorBad i).bandWanted (dieOf i) = 4 := by
    unfold State.bandWanted
    exact if_pos (List.any_eq_true.mpr ⟨i.val, mem_sensorsOf i, broken⟩)
  have hot : 4 ≤ (((s.at t).sensorBad i).dieRise (dieOf i)).rd SV_TH_STAT (bandFld (dieOf i)) := by
    rw [State.rd_dieRise_band, forced]
    exact Nat.le_max_right ..
  refine ⟨_, (execDieSensorConvert_eq ..).trans (by rw [if_neg outside]), ?_, ?_, hot, hot.trans (State.band_dieRise ..), fun sound => ?_⟩
  · rw [State.rd_dieRise _ _ spared (absurd · other), reads]
  · rw [State.brokenS_dieRise, broken]
  · unfold State.rdB
    rw [State.rd_dieRise _ _ (by unfold bandSpares; decide) (fun e => absurd e (by decide))]
    exact noted sound

/-! ## A band that falls (R487) -/

/-- A band is left as it is before its second has passed. -/
theorem execBandFall_early {d : Fin 2} {b t0 : Nat} (hb : s.rd SV_TH_STAT (bandFld d) = b)
    (h : Tab.get none s.sv.coolAt (d * 8 + b) = some t0) (early : (s.at t).now < t0 + sec) :
    ∃ u, execBandFall s d t = .next u ∧ u.rd SV_TH_STAT (bandFld d) = b := by
  have stays : (s.at t).bandFall d 4 = s.at t := by
    unfold State.bandFall
    simp only [State.rd_at, State.sv_at, hb, h]
    exact if_neg (fun k => absurd early (Nat.not_lt.mpr k.2))
  refine ⟨_, rfl, ?_⟩
  rw [State.rd_bandSync _ (bandFld_spares d).1, stays, State.rd_at, hb]

/-- It falls by one when the band below has no such second. -/
theorem execBandFall_due {d : Fin 2} {b t0 : Nat} (hb : s.rd SV_TH_STAT (bandFld d) = b) (h0 : b ≠ 0)
    (h : Tab.get none s.sv.coolAt (d * 8 + b) = some t0) (due : t0 + sec ≤ (s.at t).now)
    (below : b = 1 ∨ Tab.get none s.sv.coolAt (d * 8 + (b - 1)) = none) :
    ∃ u, execBandFall s d t = .next u ∧ u.rd SV_TH_STAT (bandFld d) = b - 1 := by
  obtain ⟨spared, width⟩ := bandFld_spares d
  obtain ⟨w, hw⟩ : ∃ w, w = (s.at t).wr SV_TH_STAT (bandFld d) (b - 1) := ⟨_, rfl⟩
  have small := s.rd_lt SV_TH_STAT (bandFld d)
  have fallen : w.rd SV_TH_STAT (bandFld d) = b - 1 := by
    rw [hw, State.rd_wr_same _ _ _ _ spared.1]
    exact Nat.mod_eq_of_lt (by omega)
  have cool : w.sv.coolAt = s.sv.coolAt := by rw [hw, State.sv_wr]; rfl
  have stays : w.bandFall d 3 = w := by
    unfold State.bandFall
    rw [fallen, cool]
    dsimp only
    rcases below with rfl | ended
    · split
      · exact if_neg (fun k => k.1 rfl)
      · rfl
    · rw [ended]
  have falls : (s.at t).bandFall d 4 = w := by
    rw [← stays, hw]
    unfold State.bandFall
    simp only [State.rd_at, State.sv_at, hb, h]
    exact if_pos ⟨h0, due⟩
  refine ⟨_, rfl, ?_⟩
  rw [State.rd_bandSync _ spared, falls, fallen]

/-! ## The ways out of a shutdown (R488) -/

theorem execThermalPreseqTrigger_due (shut : s.sv.shdnAt ≠ none)
    (due : s.sv.shdnStart + (102 + s.rd PW_TRIP_CFG PW_TRIP_CFG_TOPENMAX) * ms ≤ (s.at t).now) (hr : s.sv.resetAt = none)
    (hp : s.trip.pwHoldAt = none) (hq : s.trip.preseqAt = none) (hd : s.led.commit = false) :
    ∃ u, execThermalPreseqTrigger s t = .next u ∧ u.PreseqFor (s.at t).now 5 := by
  have started : (s.at t).requestReset 5 1 = (s.at t).preseqStart 5 :=
    State.requestReset_start (by decide) hr hp hq (.inl hd)
  refine ⟨_, ?_, (s.at t).preseqFor_preseqStart 5⟩
  unfold execThermalPreseqTrigger
  dsimp only
  rw [if_neg (by rw [State.sv_at, Option.isNone_iff_eq_none]; exact shut), if_pos (.inr due), started]

theorem execThermalResetRelease_due {t0 : Nat} (h : s.sv.coldAt = some t0) (due : t0 + 10 * sec ≤ (s.at t).now) :
    ∃ u, execThermalResetRelease s t = .next u ∧ u.sv.hotDie = 0 := by
  unfold execThermalResetRelease
  simp only [State.sv_at, h]
  exact ⟨_, congrArg Host.Outcome.next (if_pos due), rfl⟩

theorem execThermalResetRelease_early {t0 : Nat} (h : s.sv.coldAt = some t0) (early : (s.at t).now < t0 + 10 * sec) :
    ∃ u, execThermalResetRelease s t = .next u ∧ u.sv = s.sv := by
  unfold execThermalResetRelease
  simp only [State.sv_at, h]
  exact ⟨_, congrArg Host.Outcome.next (if_neg (Nat.not_le.mpr early)), rfl⟩

end

end Sys2Proof.Machine

end


section
/-!
PROOF. O44: the supervisor's waiting events stand while the trip block acts, and the thermal shutdown (R126 to R131, R147, R488).
-/

set_option Elab.async false

namespace Sys2Proof.Machine

/-- Another part than the ledger. -/
abbrev besideLed (x : Part) : Prop := x ≠ .led_

/-- From one state to another the supervisor's waiting events stand. -/
def SvStands (s0 s : State) : Prop := Tab.get [] s.led.pile srcSV = Tab.get [] s0.led.pile srcSV

namespace SvStands

section
variable {s0 s t : State} {n f k r a act cause reason : Nat} {q : Fld} {force latch on : Bool} {v : Verdict}

theorem refl (s : State) : SvStands s s := Eq.refl _

/-- A change that leaves the waiting events. -/
theorem of_pile (h : SvStands s0 s) (e : t.led.pile = s.led.pile) : SvStands s0 t := by
  unfold SvStands
  rw [e]
  exact h

theorem setTrip {x : Trip} (h : SvStands s0 s) : SvStands s0 { s with trip := x } := h
theorem setRegu {x : Regu} (h : SvStands s0 s) : SvStands s0 { s with regu := x } := h
theorem setSwp {x : Sweep} (h : SvStands s0 s) : SvStands s0 { s with swp := x } := h

/-- A change beside the ledger. -/
theorem beside (h : SvStands s0 s) (k : [May besideLed .fresh_] → [May besideLed .regs_] → [May besideLed .lost_] →
    [May besideLed .trip_] → [May besideLed .gate_] → [May besideLed .regu_] → [May besideLed .out_] → [May besideLed .swp_] →
    Kept besideLed s t) : SvStands s0 t :=
  have kept := @k ⟨by decide⟩ ⟨by decide⟩ ⟨by decide⟩ ⟨by decide⟩ ⟨by decide⟩ ⟨by decide⟩ ⟨by decide⟩ ⟨by decide⟩
  h.of_pile (congrArg Ledger.pile (kept.same .led_ (not_not_intro rfl)))

theorem ite {d : Prop} [Decidable d] (hs : SvStands s0 s) (ht : SvStands s0 t) : SvStands s0 (if d then s else t) := by
  split <;> assumption

theorem foldl {α : Type} {f : State → α → State} {l : List α} (h : SvStands s0 s)
    (hf : ∀ s x, SvStands s0 s → SvStands s0 (f s x)) : SvStands s0 (l.foldl f s) := by
  induction l generalizing s with
  | nil => exact h
  | cons x l ih => exact ih (hf s x h)

/-- Another source's event. -/
theorem raise {src code : Nat} {ws : List Nat} (h : SvStands s0 s) (hs : srcSV ≠ src := by decide) :
    SvStands s0 (s.raise src code ws) := by
  unfold SvStands State.raise
  dsimp only
  split
  · exact (Tab.get_set_ne _ _ _ _ hs).trans h
  · rw [State.led_hit]
    exact h

theorem startBatch (h : SvStands s0 s) : SvStands s0 s.startBatch := by
  unfold State.startBatch
  exact ite h (ite h h)

theorem lifeSection (h : SvStands s0 s) : SvStands s0 s.lifeSection := by
  unfold State.lifeSection
  exact ite (startBatch h) h

theorem wearOne (h : SvStands s0 s) : SvStands s0 (s.wearOne n f k) := lifeSection h

theorem wearBoth (h : SvStands s0 s) : SvStands s0 (s.wearBoth r f k) := h.wearOne.wearOne

/-! ## Operations that raise nothing -/

theorem wr (h : SvStands s0 s) : SvStands s0 (s.wr a q n) := h.beside (State.wr_kept (Kept.refl s))
theorem hit {c : Nat} {p : Fld} (h : SvStands s0 s) : SvStands s0 (s.hit a q c p) := h.beside (State.hit_kept (Kept.refl s))
theorem updTstr {f : TripStr → TripStr} (h : SvStands s0 s) : SvStands s0 (s.updTstr r f) :=
  h.beside (State.updTstr_kept (Kept.refl s))
theorem lsSync (h : SvStands s0 s) : SvStands s0 (s.lsSync n) := h.beside (State.lsSync_kept (Kept.refl s))
theorem stopTimers {which : Nat → Bool} (h : SvStands s0 s) : SvStands s0 (s.stopTimers which) :=
  h.beside (State.stopTimers_kept (Kept.refl s))
theorem wearMax (h : SvStands s0 s) : SvStands s0 (s.wearMax n k) := h.beside (State.wearMax_kept (Kept.refl s))
theorem strSync (h : SvStands s0 s) : SvStands s0 (s.strSync r) := h.beside (State.strSync_kept (Kept.refl s))
theorem setSt {st : StrState} (h : SvStands s0 s) : SvStands s0 (s.setSt r st) := h.beside (State.setSt_kept (Kept.refl s))
theorem capMove (h : SvStands s0 s) : SvStands s0 (s.capMove r) := h.beside (State.capMove_kept (Kept.refl s))
theorem enterIdle (h : SvStands s0 s) : SvStands s0 (s.enterIdle r) := h.beside (State.enterIdle_kept (Kept.refl s))
theorem beginRamp {opens : Bool} {limit : Nat} (h : SvStands s0 s) : SvStands s0 (s.beginRamp r opens limit) :=
  h.beside (State.beginRamp_kept (Kept.refl s))
theorem inhibitAct (h : SvStands s0 s) : SvStands s0 (s.inhibitAct r) := h.beside (State.inhibitAct_kept (Kept.refl s))
theorem alertSync (h : SvStands s0 s) : SvStands s0 s.alertSync := h.beside (State.alertSync_kept (Kept.refl s))
theorem setActive (h : SvStands s0 s) : SvStands s0 (s.setActive v) := h.beside (State.setActive_kept (Kept.refl s))
theorem evalDerate (h : SvStands s0 s) : SvStands s0 (s.evalDerate r) := h.beside (State.evalDerate_kept (Kept.refl s))

/-! ## Strings (R128 to R133, R143, R147) -/

theorem hcOff (h : SvStands s0 s) : SvStands s0 (s.hcOff r force) :=
  have off := h.updTstr.lsSync
  have timers := ite off.stopTimers off
  have worn := timers.wearBoth.wearBoth.wearMax.wearMax
  (ite timers.wearBoth.raise (ite worn.wearBoth worn).hit.raise).setSt.capMove

theorem excEnd (h : SvStands s0 s) : SvStands s0 (s.excEnd reason) := ite h.wr.wr.setRegu.raise h

theorem pchFail (h : SvStands s0 s) : SvStands s0 (s.pchFail reason) :=
  have failed := h.beside (State.wr_kept (a := PW_PCH_STAT) (f := PW_PCH_STAT_REASON) (v := reason)
    (State.setPchStep_kept (n := 8) (State.setRelay_kept (on := false) (Kept.refl s))))
  have idle := failed.raise.foldl (fun _ _ h => ite h.enterIdle h)
  ite idle.beginRamp idle

theorem pchTrip (h : SvStands s0 s) : SvStands s0 (s.pchTrip r) :=
  ite h (ite h.pchFail (ite (h.setTrip.beside (State.pchFailMask_kept (Kept.refl _))) h))

/-! ## Actions (R129 to R133) -/

theorem startAct (h : SvStands s0 s) : SvStands s0 (s.startAct r act cause latch) := by
  have began {f : TripStr → TripStr} {x reason : Nat} :
      SvStands s0 ((((s.updTstr r f).wr (PW_TRIP_STR r) PW_TRIP_STR_CAUSE x).excEnd reason).pchTrip r) :=
    h.updTstr.wr.excEnd.pchTrip
  unfold State.startAct
  dsimp only
  refine alertSync (ite began.beginRamp (ite began.beginRamp (ite ?_ (ite ?_ ?_))))
  · split
    case h_5 => exact began.inhibitAct.strSync
    all_goals exact began.inhibitAct.setSt
  · exact ite began.inhibitAct.updTstr.setSt began.inhibitAct.updTstr.strSync
  · exact ite began.inhibitAct.hcOff began.inhibitAct.strSync

theorem evalString (h : SvStands s0 s) : SvStands s0 (s.evalString r) := ite h.startAct h.strSync

theorem orphanSeq (h : SvStands s0 s) : SvStands s0 s.orphanSeq :=
  (h.setTrip.foldl (fun _ _ h => h.startAct)).raise

theorem preseqInhibit (h : SvStands s0 s) : SvStands s0 s.preseqInhibit :=
  h.foldl (fun _ _ h =>
    have opening := h.inhibitAct.updTstr
    ite (ite opening.hcOff opening.setSt) opening)

/-! ## Verdicts (R126 to R131) -/

theorem tripEvent (h : SvStands s0 s) : SvStands s0 (s.tripEvent act v) := ite h.raise (ite h.raise h.hit.raise)

theorem takeVerdict (h : SvStands s0 s) : SvStands s0 (s.takeVerdict v) :=
  ite h.preseqInhibit.setActive (ite h.orphanSeq.setActive
    (ite (ite (ite h.setActive h.setActive.tripEvent) h) h.setActive))

theorem winTrigger (h : SvStands s0 s) : SvStands s0 (s.winTrigger k) :=
  ite (h.beside (State.bump_kept (Kept.refl s))).raise h.setSwp

theorem takeVerdicts {vs : List Verdict} (h : SvStands s0 s) : SvStands s0 (s.takeVerdicts vs) :=
  have taken := (h.foldl (fun _ _ h => h.takeVerdict)).foldl (fun _ _ h => h.evalDerate.evalString)
  (ite taken.winTrigger taken).beside (State.alertSync_kept (State.limitsOnChange_kept (Kept.refl _)))

theorem tripFlush (h : SvStands s0 s) : SvStands s0 s.tripFlush :=
  h.setTrip.takeVerdicts

end

end SvStands

/-! ## The shutdown (R488) -/

theorem execThermalShutdown_due {s : State} {i : Fin 13} {t0 t : Nat} (h : Tab.get none s.sv.hotAt i.val = some t0)
    (due : t0 + ms ≤ (s.at t).now) (hs : s.sv.shdnAt = none) (hr : s.sv.resetAt = none) :
    ∃ u, execThermalShutdown s i t = .next u ∧ u.sv.shdnAt = some (s.at t).now ∧ u.sv.hotDie = dieOf i + 1 ∧
      s.Raised u srcSV EV_SV_THERM_SHDN [i.val, s.rd (SV_TSENS i) SV_TSENS_TS] := by
  obtain ⟨w, hw⟩ : ∃ w : State, w = { s.at t with sv := { (s.at t).sv with
    shdnAt := some (s.at t).now, shdnStart := t0, hotDie := dieOf i.val + 1, coldAt := none } } := ⟨_, rfl⟩
  obtain ⟨z, hz⟩ : ∃ z, z = w.raise srcSV EV_SV_THERM_SHDN [i.val, s.rd (SV_TSENS i) SV_TSENS_TS] := ⟨_, rfl⟩
  have shut : execThermalShutdown s i t = .next (z.stringSource 27 0 none true).tripFlush := by
    have waits : ¬ ((s.at t).now < t0 + ms ∨ (s.at t).sv.shdnAt.isSome ∨ (s.at t).sv.resetAt.isSome) := by
      rw [State.sv_at, hs, hr]
      rintro (early | k | k)
      · omega
      · cases k
      · cases k
    unfold execThermalShutdown
    simp only [show Tab.get none (s.at t).sv.hotAt i.val = some t0 from h]
    exact (if_neg waits).trans (by rw [hz, hw]; rfl)
  have steady : Steady z (z.stringSource 27 0 none true).tripFlush := (Steady.refl z).stringSource.tripFlush
  have sv : z.sv = w.sv := by rw [hz, State.sv_raise]
  have stands : SvStands z (z.stringSource 27 0 none true).tripFlush := (SvStands.refl z).setTrip.tripFlush
  refine ⟨_, shut, ?_, ?_, State.raised_of_pile (s' := w) (by rw [hw]; rfl) (by rw [← hz]; exact stands) ?_⟩
  · rw [steady.sv, sv, hw]
  · rw [steady.sv, sv, hw]
  · rw [steady.ns, hz, State.ns_raise]

end Sys2Proof.Machine

end


section
/-!
PROOF. O44: the recovery of PS from a reset, and the statement assembled (R156, R432, R440, R446).
-/

set_option Elab.async false

namespace Sys2Proof.Machine

section
variable {s u : State} {t : Nat}

/-! ## Recovery takes no chip time -/

theorem State.now_redoRecover (s : State) : s.redoRecover.1.now = s.now := by
  unfold State.redoRecover
  split
  · rfl
  · exact (State.now_mramWrite ..).trans (foldl_keeps State.now (fun _ _ => State.now_mramWrite ..) _ _)

theorem State.now_findHeads (s : State) : s.findHeads.now = s.now := by
  unfold State.findHeads
  extract_lets bed w l z
  have counted : w.now = s.now := State.now_wr ..
  clear_value w
  have found : z.now = w.now := by
    unfold z
    split
    · rfl
    · rfl
  clear_value z
  split
  · exact found.trans counted
  · exact found.trans counted

theorem State.now_lifeLoad (s : State) : s.lifeLoad.now = s.now := by
  unfold State.lifeLoad
  dsimp only
  unfold State.useSync
  rw [State.now_wr, foldl_keeps State.now (by intros; rfl), foldl_keeps State.now (by exact fun _ _ => State.now_cellLost ..)]

theorem State.now_startBatch (s : State) : s.startBatch.now = s.now := (Steady.refl s).startBatch.now

theorem State.now_applyCell (s : State) (f : Nat) : (s.applyCell f).now = s.now :=
  ite_keeps State.now rfl (State.now_mramWrite ..)

theorem State.now_lossInfer (s : State) (n : Nat) (complete : Bool) (i : Nat) : (s.lossInfer n complete i).now = s.now :=
  ite_keeps State.now (ite_keeps State.now rfl rfl) rfl

theorem State.now_inferAll (s : State) (complete : Bool) (h : Nat → Nat × Int) : (s.inferAll complete h).now = s.now := by
  refine foldl_keeps State.now (fun u r => ?_) _ s
  have one (v : State) (n i : Nat) (c : Bool) : (if c then v.lossInfer n complete i else v).now = v.now :=
    ite_keeps State.now (State.now_lossInfer ..) rfl
  exact ite_keeps State.now rfl ((State.now_raise ..).trans ((one ..).trans (one ..)))

theorem State.now_journalRecover (s : State) : s.journalRecover.1.now = s.now := by
  unfold State.journalRecover
  extract_lets seq pend whole sec used a h b c w l raised h' inferred last d e l'
  have applied : a.now = s.now := foldl_keeps State.now (fun _ _ => State.now_applyCell ..) _ _
  have torn : raised.now = s.now := State.now_raise ..
  have closed : inferred.now = s.now := ite_keeps State.now ((State.now_inferAll ..).trans torn) torn
  have sectioned : d.now = s.now := (State.now_mramWrite ..).trans closed
  have ended : e.now = s.now := ite_keeps State.now ((State.now_mramWrite ..).trans sectioned) sectioned
  split
  · exact (State.now_raise ..).trans ((State.now_mramWrite ..).trans ((State.now_mramWrite ..).trans
      ((State.now_inferAll ..).trans applied)))
  · split
    · exact ended
    · rfl

/-! ## The session word (R440) -/

/-- The bytes of the session word. -/
def sessionByte (x : Nat) : Prop := 0x04718800 ≤ x ∧ x < 0x04718808

/-- From one state to another no chip time passes and the session word stands. -/
structure SessionKept (s u : State) : Prop where
  now : u.now = s.now
  byte : ∀ x, sessionByte x → u.byte x = s.byte x

theorem SessionKept.refl (s : State) : SessionKept s s := ⟨rfl, fun _ _ => rfl⟩

theorem SessionKept.trans {v : State} (h : SessionKept s u) (k : SessionKept u v) : SessionKept s v :=
  ⟨k.now.trans h.now, fun x hx => (k.byte x hx).trans (h.byte x hx)⟩

theorem SessionKept.of_mem (hn : u.now = s.now) (hm : u.mem = s.mem) : SessionKept s u :=
  ⟨hn, fun x _ => by unfold State.byte; rw [hm]⟩

theorem SessionKept.ite {v : State} {c : Prop} [Decidable c] (h : SessionKept s u) (k : SessionKept s v) :
    SessionKept s (if c then u else v) := by
  split <;> assumption

/-- Where MRAM is written, its bytes are those written, and the others stand. -/
theorem State.byte_mramWrite (s : State) (a x : Nat) (bs : List Nat) : (s.mramWrite a bs).byte x =
    if a ≤ x ∧ x < a + bs.length then BitVec.ofNat 8 (bs.getD (x - a) 0) else s.byte x := by
  unfold State.mramWrite
  dsimp only
  rw [State.byte_count, foldl_keeps (fun u : State => u.byte x) (by intros; rfl)]
  exact State.byte_storeBytes ..

theorem length_bytesLE (v n : Nat) : (bytesLE v n).length = n := by
  induction n generalizing v with
  | zero => rfl
  | succ n ih => exact congrArg (· + 1) (ih _)

theorem getD_bytesLE {v n i : Nat} (h : i < n) : (bytesLE v n).getD i 0 = v / 256 ^ i % 256 := by
  induction n generalizing v i with
  | zero => omega
  | succ n ih =>
    cases i with
    | zero => simp [bytesLE]
    | succ i =>
      rw [bytesLE, List.getD_cons_succ, ih (by omega), Nat.div_div_eq_div_mul, Nat.pow_succ, Nat.mul_comm]

/-- A number written to MRAM reads back. -/
theorem State.loadLE_mramWrite (s : State) (a v n : Nat) : (s.mramWrite a (bytesLE v n)).loadLE a n = v % 2 ^ (8 * n) :=
  State.loadLE_eq_mod fun i hi => by
    have power : (256 : Nat) ^ i = 2 ^ (8 * i) := by rw [Nat.pow_mul]
    rw [State.byte_mramWrite, length_bytesLE, if_pos (by omega), Nat.add_sub_cancel_left, getD_bytesLE hi, power]
    exact BitVec.eq_of_toNat_eq (by rw [BitVec.toNat_ofNat, BitVec.toNat_ofNat, Nat.mod_mod])

theorem length_evRecBytes (e : EvRec) (seq w : Nat) (cnt : Bool) : (e.bytes seq cnt w).length = 64 := by
  unfold EvRec.bytes
  simp [length_bytesLE, List.length_flatMap]

/-- A record written outside the session word. -/
theorem SessionKept.mramWrite {a : Nat} {bs : List Nat} (h : SessionKept s u) (ha : a + bs.length ≤ 0x04718800 ∨ 0x04718808 ≤ a) :
    SessionKept s (u.mramWrite a bs) :=
  h.trans ⟨State.now_mramWrite .., fun x hx => by
    obtain ⟨low, high⟩ := hx
    rw [State.byte_mramWrite, if_neg (by omega)]⟩

theorem State.mem_busRead (s : State) (a : Nat) : (s.busRead a).2.mem = s.mem :=
  (@State.busRead_kept (fun p => p ≠ .mem_) ⟨by decide⟩ ⟨by decide⟩ ⟨by decide⟩ ⟨by decide⟩ ⟨by decide⟩ ⟨by decide⟩ _ _ _
    (Kept.refl s)).same .mem_ (by decide)

theorem State.mem_snapWords (s : State) (k n j : Nat) : (s.snapWords k n j).2.mem = s.mem := by
  induction n generalizing s j with
  | zero => rfl
  | succ n ih =>
    unfold State.snapWords
    dsimp only
    split
    · rfl
    · exact (ih _ _).trans (s.mem_busRead _)

/-- A record goes to sediment and to bedrock, never to the session word. -/
theorem State.sessionKept_writeRecord (s : State) (e : EvRec) : SessionKept s (s.writeRecord e) := by
  unfold State.writeRecord
  extract_lets seq d cnt bs z w bed v
  have short : bs.length = 64 := length_evRecBytes ..
  have counts : SessionKept s z := SessionKept.ite (SessionKept.of_mem rfl rfl) (SessionKept.refl s)
  have sediment : SessionKept s w := counts.mramWrite (.inr (by omega))
  have bedrock : SessionKept s v := by
    show SessionKept s (if w.commissioned = true ∧ bed < 4096 then _ else w)
    split
    · next h => exact (sediment.mramWrite (.inl (by omega))).trans (SessionKept.of_mem (State.now_wr ..) (State.mem_wr ..))
    · exact sediment
  exact bedrock.trans (SessionKept.of_mem (State.now_count ..) (State.mem_count ..))

theorem State.sessionKept_snapshot (s : State) (k : Nat) : SessionKept s (s.snapshot k) :=
  (SessionKept.of_mem (congrArg Prod.fst (s.stage_snapWords k 12 0)) (s.mem_snapWords k 12 0)).trans
    (State.sessionKept_writeRecord ..)

theorem State.sessionKept_persist (s : State) (e : EvRec) : SessionKept s (s.persist e) := by
  have taken (l : List Nat) (u : State) : SessionKept u (l.foldl State.snapshot u) := by
    induction l generalizing u with
    | nil => exact SessionKept.refl u
    | cons k l ih => exact (u.sessionKept_snapshot k).trans (ih _)
  exact (s.sessionKept_writeRecord e).trans (taken _ _)

theorem State.sessionKept_persistOwn (s : State) (src code : Nat) (ws : List Nat) : SessionKept s (s.persistOwn src code ws) :=
  s.sessionKept_persist _

theorem State.loadLE_of_byte {a n : Nat} (h : ∀ i < n, u.byte (a + i) = s.byte (a + i)) : u.loadLE a n = s.loadLE a n := by
  induction n with
  | zero => rfl
  | succ n ih =>
    unfold State.loadLE
    rw [ih fun i hi => h i (Nat.lt_succ_of_lt hi), h n (Nat.lt_succ_self n)]

theorem SessionKept.loadLE (h : SessionKept s u) : u.loadLE 0x04718800 8 = s.loadLE 0x04718800 8 :=
  State.loadLE_of_byte fun i hi => h.byte _ ⟨by omega, by omega⟩

/-- PS recovered: the session word is written and what was owed is paid. -/
structure State.Recovered (u : State) (n : Nat) : Prop where
  now : u.now = n
  word : u.loadLE 0x04718800 8 = 0x53455331
  owed : u.sv.owedReset = none
  power : u.sv.powerLost = false

theorem State.recovered_bootRecovery (s : State) : s.bootRecovery.Recovered s.now := by
  unfold State.bootRecovery
  extract_lets w redo heads life opened l v batch j session newest booted reset held rtc v'
  have found : heads.now = s.now := (State.now_findHeads ..).trans ((State.now_redoRecover ..).trans (State.now_wr ..))
  have loaded : life.now = s.now := (State.now_lifeLoad ..).trans found
  have wears : opened.now = s.now :=
    (foldl_keeps State.now (by exact fun u n => ite_keeps State.now (show (u.heldOpening n).now = u.now from rfl) rfl) _ _).trans loaded
  have batched : batch.now = s.now := ite_keeps State.now loaded ((State.now_startBatch _).trans wears)
  have journal : j.1.now = s.now := by
    rw [show j = batch.journalRecover from rfl]
    exact (State.now_journalRecover batch).trans batched
  have written : session.now = s.now := (State.now_mramWrite j.1 _ _).trans journal
  have word : session.loadLE 0x04718800 8 = 0x53455331 :=
    (State.loadLE_mramWrite j.1 0x04718800 0x53455331 8).trans (by decide)
  have toBoot : SessionKept session booted := State.sessionKept_persistOwn ..
  have toReset : SessionKept session reset := by
    unfold reset
    split
    · exact toBoot.trans (State.sessionKept_persistOwn ..)
    · exact toBoot
  have toHeld : SessionKept session held := by
    unfold held
    split
    · exact toReset.trans (State.sessionKept_persistOwn ..)
    · exact toReset
  have toRtc : SessionKept session rtc := SessionKept.ite (toHeld.trans (State.sessionKept_persistOwn ..)) toHeld
  exact ⟨toRtc.now.trans written, toRtc.loadLE.trans word, rfl, rfl⟩

theorem execPsBootRecovery_runs (hr : s.sv.resetAt = none) (hd : s.boot.psUp = false) : ∃ u, execPsBootRecovery s t = .next u ∧
    u.boot.psUp = true ∧ u.grain 0x300 = { run := .running, retired := Nat.max s.now t } ∧
    u.loadLE (aliasBase 0x300) 4 = 0xA8000100 ∧ u.loadLE 0x04718800 8 = 0x53455331 ∧ u.sv.owedReset = none ∧
    u.sv.powerLost = false := by
  obtain ⟨now, word, owed, power⟩ := (s.at t).recovered_bootRecovery
  obtain ⟨w, hw⟩ : ∃ w : State, w = { (s.at t).bootRecovery with boot := { (s.at t).bootRecovery.boot with psUp := true } } := ⟨_, rfl⟩
  obtain ⟨me, po, m, stored⟩ := w.storeLE_eq (aliasBase 0x300) 4 0xA8000100
  have base : aliasBase 0x300 = 0x44080000 := by decide
  have up : execPsBootRecovery s t = .next ((w.storeLE (aliasBase 0x300) 4 0xA8000100).grainInit 0x300 .running) := by
    rw [hw]
    exact if_neg (by rw [State.sv_at, hr, State.boot_at, hd]; rintro (k | k) <;> cases k)
  have mem : ((w.storeLE (aliasBase 0x300) 4 0xA8000100).grainInit 0x300 .running).mem =
    (w.storeLE (aliasBase 0x300) 4 0xA8000100).mem := rfl
  refine ⟨_, up, ?_, ?_, ?_, ?_, ?_, ?_⟩
  · show (w.storeLE (aliasBase 0x300) 4 0xA8000100).boot.psUp = true
    rw [stored, hw]
  · refine (State.grain_setGrain ..).trans ((if_pos rfl).trans ?_)
    rw [State.now_storeLE, hw]
    exact congrArg (fun n => ({ run := .running, retired := n } : Grain)) now
  · rw [State.loadLE_congr mem, State.loadLE_storeLE_same]
    rfl
  · rw [State.loadLE_congr mem, State.loadLE_storeLE_apart _ (by omega), hw]
    exact word
  · show (w.storeLE (aliasBase 0x300) 4 0xA8000100).sv.owedReset = none
    rw [stored, hw]
    exact owed
  · show (w.storeLE (aliasBase 0x300) 4 0xA8000100).sv.powerLost = false
    rw [stored, hw]
    exact power

theorem execPsBootRecovery_again (h : s.boot.psUp = true) : ∃ u, execPsBootRecovery s t = .next u ∧ u.grains = s.grains ∧ u.mem = s.mem :=
  ⟨_, if_pos (.inr h), rfl, rfl⟩

end

end Sys2Proof.Machine

open Sys2Proof Sys2Proof.Machine

/-- Settles O44: each command of the supervisor meets the lemma of its case. -/
theorem supervisorKeepsClocksAndTemperature : Obligations.SupervisorKeepsClocksAndTemperature := by
  unfold Obligations.SupervisorKeepsClocksAndTemperature
  intro s t
  dsimp only [exec]
  refine ⟨fun reset down => execPsBootRecovery_runs reset down, fun up => execPsBootRecovery_again up,
    fun v unstarted => ⟨execVectorSelftestDone_passed unstarted, execVectorSelftestDone_failed unstarted⟩,
    fun why reset held commit => ?_, fun x f m => ⟨fun other => ?_, fun same once => ⟨fun zero => ?_, fun three => ?_,
      fun one reset held commit => ?_⟩⟩,
    fun reset due => execRtcLoad_due reset due, fun early => execRtcLoad_early early,
    fun i temp ok => ⟨fun whole low high sound => ?_, fun bad => execDieSensorConvert_bad bad⟩,
    fun d t0 hot cool => ⟨fun early => execBandFall_early rfl cool early, fun due below => execBandFall_due rfl hot cool due below⟩,
    fun i t0 hot due shut reset => execThermalShutdown_due hot due shut reset,
    fun shut due reset held pre commit => execThermalPreseqTrigger_due shut due reset held pre commit,
    fun t0 cold => ⟨fun due => execThermalResetRelease_due cold due, fun early => execThermalResetRelease_early cold early⟩⟩
  · obtain ⟨u, e, fault, flag⟩ := execClockFault_held (t := t) why ⟨reset, held, commit⟩
    refine ⟨u, e, fault.held, fault.cause, ?_, ?_⟩
    · cases why <;> exact fault.raised
    · cases why <;> exact flag
  · exact ⟨_, execOscVoteWindow_first other, rfl, rfl, rfl, rfl⟩
  · exact execOscVoteWindow_agree same once zero
  · exact execOscVoteWindow_monitor same once three
  · obtain ⟨u, e, fault, vote⟩ := execOscVoteWindow_crystal (t := t) same once one ⟨reset, held, commit⟩
    exact ⟨u, e, fault.held, fault.cause, vote⟩
  · subst whole
    exact execDieSensorConvert_sound low high sound

end


section
/-!
PROOF. O27: how kcall answers, and how each resident kernel ends with its status (R228 to R231, R237, R238, R240).
-/

set_option Elab.async false

namespace Sys2Proof.Machine

section
variable {s z u : State} {g : GrainId} {k : Active} {t src st : Nat}

/-! ## What a kernel reads does not depend on the instant -/

theorem State.kLoad_at (s : State) (t src a n : Nat) : (s.at t).kLoad src a n = s.kLoad src a n :=
  State.loadLE_congr (State.mem_at s t) ..

theorem State.kdesc_at (s : State) (t src a : Nat) : (s.at t).kdesc src a = s.kdesc src a := by
  unfold State.kdesc
  simp only [State.kLoad_at]

theorem State.mapEntry_at (s : State) (t src a i : Nat) : (s.at t).mapEntry src a i = s.mapEntry src a i := by
  unfold State.mapEntry
  simp only [State.kLoad_at]

theorem State.prmOk_at (s : State) (t src a : Nat) : (s.at t).prmOk src a = s.prmOk src a := by
  unfold State.prmOk
  simp only [State.kLoad_at]

theorem State.chem_at (s : State) (t src a i : Nat) : (s.at t).chem src a i = s.chem src a i := by
  unfold State.chem
  simp only [State.kLoad_at]

theorem State.areaFault_at (s : State) (t src : Nat) (k : Access) (a n : Nat) :
    (s.at t).areaFault src k a n = s.areaFault src k a n := rfl

theorem State.windowBad_at (s : State) (t src : Nat) (d : KDesc) : (s.at t).windowBad src d = s.windowBad src d := by
  unfold State.windowBad
  simp only [State.kLoad_at, State.rd_at]
  rfl

/-! ## The end of a kernel (R228) -/

/-- A kernel has ended with a status: the grain continues after its kcall, and none is active. -/
structure State.KernelEnded (u : State) (src : Nat) (k : Active) (st : Nat) : Prop where
  kern : (u.grain src).kern = none
  wait : (u.grain src).wait = .none
  pc : (u.grain src).pc = BitVec.ofNat 32 k.ret
  status : k.rd ≠ 0 → u.gReg src k.rd = BitVec.ofNat 32 st

/-- A change of the grain elsewhere. -/
theorem State.KernelEnded.of_grain (h : z.KernelEnded src k st) (hk : (u.grain src).kern = (z.grain src).kern)
    (hw : (u.grain src).wait = (z.grain src).wait) (hp : (u.grain src).pc = (z.grain src).pc)
    (hg : (u.grain src).g = (z.grain src).g) : u.KernelEnded src k st where
  kern := hk.trans h.kern
  wait := hw.trans h.wait
  pc := hp.trans h.pc
  status hr := by
    have value := h.status hr
    unfold State.gReg at value ⊢
    rw [hg]
    exact value

theorem State.KernelEnded.post {cls c code dest a b : Nat} (h : z.KernelEnded src k st) :
    (z.post cls c code dest a b).KernelEnded src k st := by
  have same := (@State.post_kept (· ≠ Part.grains_) ⟨nofun⟩ ⟨nofun⟩ z z cls c code dest a b (Kept.refl z)).same .grains_ (· rfl) src
  have kern := congrArg Grain.kern same
  have wait := congrArg Grain.wait same
  have pc := congrArg Grain.pc same
  have regs := congrArg Grain.g same
  exact h.of_grain kern wait pc regs

theorem State.KernelEnded.retired (h : z.KernelEnded src k st) : (z.retired src).KernelEnded src k st := by
  have grain := z.grain_updGrain_same src (fun x => { x with retired := z.now })
  have noted : (z.updGrain src (fun x => { x with retired := z.now })).KernelEnded src k st :=
    h.of_grain (by rw [grain]) (by rw [grain]) (by rw [grain]) (by rw [grain])
  unfold State.retired
  dsimp only
  split
  · exact noted
  · have counted := State.grain_count (z.updGrain src (fun x => { x with retired := z.now })) (monSrc src 0) 1 src
    exact noted.of_grain (by rw [counted]) (by rw [counted]) (by rw [counted]) (by rw [counted])

/-- Whatever a kernel left, it ends so. -/
theorem State.kernelEnded_kernelEnd (z : State) (src : Nat) (k : Active) (st : Nat) :
    (z.kernelEnd src k st).KernelEnded src k st := by
  have ended (y : State) : ((((y.setG src k.rd (BitVec.ofNat 32 st)).updGrain src (fun x => { x with kern := none, wait := .none })).setPc
      src k.ret)).KernelEnded src k st := by
    have grain : (((y.setG src k.rd (BitVec.ofNat 32 st)).updGrain src (fun x => { x with kern := none, wait := .none })).setPc
        src k.ret).grain src = { (y.setG src k.rd (BitVec.ofNat 32 st)).grain src with
          kern := none, wait := .none, pc := BitVec.ofNat 32 k.ret } := State.updGrain_updGrain ..
    refine ⟨by rw [grain], by rw [grain], by rw [grain], fun hk => ?_⟩
    unfold State.gReg
    rw [grain, if_neg hk]
    unfold State.setG
    rw [if_neg hk, State.grain_updGrain_same]
    exact Tab.get_set_same ..
  have retired := (ended (z.kernelRegs src)).retired
  unfold State.kernelEnd
  dsimp only
  split
  · exact retired.post
  · exact retired

/-! ## The checks of a kernel before it runs (R228, R237, R238, R240) -/

/-- Kernel `k` is active on the grain, which waits for its end. -/
structure State.Runs (s : State) (g : GrainId) (k : Active) : Prop where
  kern : (s.grain g.src).kern = some k
  run : (s.grain g.src).run = .running
  wait : (s.grain g.src).wait = .kernel

/-- What every kernel reads: parameters, and but for the final aggregation map and profiles. -/
def kernelAreas (id : Nat) (d : KDesc) : List (Access × Nat × Nat) :=
  [(.read, d.prm, 128), (.read, d.map, if id = 8 ∧ d.b = 1 then 0 else 8 * d.items),
    (.read, d.chem, if id = 8 ∧ d.b = 1 then 0 else 1024)]

/-- The map entries of a kernel's cells. -/
def State.kernelMaps (s : State) (src id : Nat) (d : KDesc) : List MapEntry :=
  if id = 8 ∧ d.b = 1 then [] else (List.range d.items).map (s.mapEntry src d.map)

theorem State.kernelMaps_at (s : State) (t src id : Nat) (d : KDesc) : (s.at t).kernelMaps src id d = s.kernelMaps src id d := by
  unfold State.kernelMaps
  rw [show (s.at t).mapEntry src d.map = s.mapEntry src d.map from funext fun i => s.mapEntry_at t src d.map i]

section
variable {id limit : Nat} {form : KDesc → Bool} {areas : State → KDesc → List (Access × Nat × Nat)}
  {pre : State → KDesc → Option Nat} {body : State → Nat → KDesc → Nat × State} {d : KDesc}

/-- A run that comes to an end, with its status. -/
def endsWith (o : Host.Outcome State Fault Refusal) (src : Nat) (k : Active) (st : Nat) : Prop :=
  ∃ u, o = .next u ∧ u.KernelEnded src k st

theorem endsWith_kernelEnd {o : Host.Outcome State Fault Refusal} (h : o = .next (z.kernelEnd src k st)) : endsWith o src k st :=
  ⟨_, h, z.kernelEnded_kernelEnd src k st⟩

/-- A count of items of 0 or above the limit. -/
theorem kernelRun_count (on : s.Runs g k) (hid : k.id = id) (hd : s.kdesc g.src k.desc = d) (hf : form d = true)
    (h : d.items = 0 ∨ limit < d.items) : endsWith (s.kernelRun g t id form limit areas pre body) g.src k 4 := by
  have kern : ((s.at t).grain g.src).kern = some k := on.kern
  have awake : ¬ (((s.at t).grain g.src).run ≠ .running ∨ ((s.at t).grain g.src).wait ≠ .kernel ∨ k.id ≠ id ∨ ¬ form d = true) := by
    rintro (e | e | e | e)
    · exact e on.run
    · exact e on.wait
    · exact e hid
    · exact e hf
  refine endsWith_kernelEnd (z := s.at t) ?_
  unfold State.kernelRun
  simp only [kern, State.kdesc_at, hd]
  rw [if_neg awake, if_pos h]

/-- With sound areas, what the checks find decides. -/
theorem kernelRun_checked (on : s.Runs g k) (hid : k.id = id) (hd : s.kdesc g.src k.desc = d) (hf : form d = true)
    (h1 : 1 ≤ d.items) (h2 : d.items ≤ limit)
    (ha : ∀ m ∈ kernelAreas id d ++ areas (s.at t) d, s.areaFault g.src m.1 m.2.1 m.2.2 = none) :
    s.kernelRun g t id form limit areas pre body =
      (if ¬ s.prmOk g.src d.prm = true ∨ ¬ (s.kernelMaps g.src id d).all MapEntry.ok = true then
        .next (((s.at t).raise g.src EV_EST_PARAM [id]).kernelEnd g.src k 0x11)
      else if ¬ (s.kernelMaps g.src id d).all (fun m => (s.chem g.src d.chem m.chem).ok) = true then
        .next ((s.at t).kernelEnd g.src k 0x12)
      else match pre (s.at t) d with
        | some st => .next ((s.at t).kernelEnd g.src k st)
        | none =>
          let r := body (s.at t) g.src d
          let late := r.2.kernelLate g.src id d
          .next (late.2.kernelEnd g.src k (if late.1 then 0x10 else r.1))) := by
  have kern : ((s.at t).grain g.src).kern = some k := on.kern
  have awake : ¬ (((s.at t).grain g.src).run ≠ .running ∨ ((s.at t).grain g.src).wait ≠ .kernel ∨ k.id ≠ id ∨ ¬ form d = true) := by
    rintro (e | e | e | e)
    · exact e on.run
    · exact e on.wait
    · exact e hid
    · exact e hf
  have sound : (kernelAreas id d ++ areas (s.at t) d).findSome? (fun (m, a, n) => (s.at t).areaFault g.src m a n) = none :=
    List.findSome?_eq_none_iff.mpr fun m hm => ha m hm
  have maps := s.kernelMaps_at t g.src id d
  unfold State.kernelRun
  simp only [kern, State.kdesc_at, hd]
  rw [if_neg awake, if_neg (by omega)]
  split
  · next e => exact absurd (sound.symm.trans e) nofun
  · unfold State.kernelMaps at maps ⊢
    simp only [maps, State.prmOk_at, State.chem_at] <;> rfl

/-- Parameters or a map out of range. -/
theorem kernelRun_param (on : s.Runs g k) (hid : k.id = id) (hd : s.kdesc g.src k.desc = d) (hf : form d = true)
    (h1 : 1 ≤ d.items) (h2 : d.items ≤ limit)
    (ha : ∀ m ∈ kernelAreas id d ++ areas (s.at t) d, s.areaFault g.src m.1 m.2.1 m.2.2 = none)
    (bad : s.prmOk g.src d.prm = false) : endsWith (s.kernelRun g t id form limit areas pre body) g.src k 0x11 :=
  endsWith_kernelEnd ((kernelRun_checked on hid hd hf h1 h2 ha).trans (if_pos (.inl (by rw [bad]; decide))))

/-- What a kernel that passes the checks of ranges and profiles goes on to. -/
structure State.KernelSound (s : State) (src id : Nat) (d : KDesc) : Prop where
  prm : s.prmOk src d.prm = true
  maps : (s.kernelMaps src id d).all MapEntry.ok = true

/-- A bad profile (R240). -/
theorem kernelRun_profile (on : s.Runs g k) (hid : k.id = id) (hd : s.kdesc g.src k.desc = d) (hf : form d = true)
    (h1 : 1 ≤ d.items) (h2 : d.items ≤ limit)
    (ha : ∀ m ∈ kernelAreas id d ++ areas (s.at t) d, s.areaFault g.src m.1 m.2.1 m.2.2 = none) (hs : s.KernelSound g.src id d)
    (bad : (s.kernelMaps g.src id d).all (fun m => (s.chem g.src d.chem m.chem).ok) = false) :
    endsWith (s.kernelRun g t id form limit areas pre body) g.src k 0x12 :=
  endsWith_kernelEnd ((kernelRun_checked on hid hd hf h1 h2 ha).trans ((if_neg (by rw [hs.prm, hs.maps]; decide)).trans
    (if_pos (by rw [bad]; decide))))

/-- All in range and no deadline: the status of the kernel's own check, else its result. -/
theorem kernelRun_result (on : s.Runs g k) (hid : k.id = id) (hd : s.kdesc g.src k.desc = d) (hf : form d = true)
    (h1 : 1 ≤ d.items) (h2 : d.items ≤ limit)
    (ha : ∀ m ∈ kernelAreas id d ++ areas (s.at t) d, s.areaFault g.src m.1 m.2.1 m.2.2 = none) (hs : s.KernelSound g.src id d)
    (hc : (s.kernelMaps g.src id d).all (fun m => (s.chem g.src d.chem m.chem).ok) = true) (h0 : d.deadline = 0) :
    endsWith (s.kernelRun g t id form limit areas pre body) g.src k ((pre (s.at t) d).getD (body (s.at t) g.src d).1) := by
  have checked := kernelRun_checked on hid hd hf h1 h2 ha (pre := pre) (body := body) (t := t)
  rw [if_neg (by rw [hs.prm, hs.maps]; decide), if_neg (by rw [hc]; decide)] at checked
  cases hp : pre (s.at t) d with
  | some st =>
    rw [hp] at checked
    exact endsWith_kernelEnd checked
  | none =>
    have timely : (body (s.at t) g.src d).2.kernelLate g.src id d = (false, (body (s.at t) g.src d).2) := if_pos (.inl h0)
    rw [hp] at checked
    simp only [timely] at checked
    exact endsWith_kernelEnd checked

end

end

end Sys2Proof.Machine

end


section
/-!
PROOF. O27: what a kcall answers or starts, and the statement assembled (R228 to R231).
-/

set_option Elab.async false

namespace Sys2Proof.Machine

section
variable {s u : State} {g : GrainId} {t src : Nat} {rd rs1 : Fin 32} {a id above : Nat}

/-- A kcall that answers a status at once. -/
def State.kcallAnswer (s : State) (src rd v : Nat) : State := (s.setG src rd (BitVec.ofNat 32 v)).stepOn src

/-- A kcall that continues at its override. -/
def State.kcallOver (s : State) (src rd a above : Nat) : State :=
  (((((s.setG src rd 0#32).setG src 3 (BitVec.ofNat 32 a)).setG src 1 (BitVec.ofNat 32 (s.pc src + 4)))).setPc src above).retired src

/-- A kcall that starts its kernel. -/
def State.kcallStart (s : State) (src rd a id : Nat) : State :=
  (((s.overlayCopy src id).setG src 3 (BitVec.ofNat 32 a)).setPc src 0x0801C000).updGrain src (fun x => { x with
    kern := some { id := id, desc := a, rd := rd, ret := (s.pc src + 4) % 2 ^ 32 }, wait := .kernel })

/-- The override of a kernel ID's block. -/
def State.kcallAbove (s : State) (src id : Nat) : Nat :=
  if 1 ≤ id ∧ id < 16 then (s.reg (ES_KOVR (src / 16 % 16) id)).toNat else 0

theorem State.kcallAbove_vec (s : State) (v : Fin 16) (h1 : 1 ≤ id) (h2 : id < 16) :
    s.kcallAbove (GrainId.vec v).src id = (s.reg (ES_KOVR (v.val / 4) id)).toNat := by
  rw [← vblockOf_src v]
  exact if_pos ⟨h1, h2⟩

theorem State.kcallAnswer_sets (s : State) (g : GrainId) (t rd v : Nat) {o : Host.Outcome State Fault Refusal}
    (e : o = .next ((s.at t).kcallAnswer g.src rd v)) : s.Sets g t rd (BitVec.ofNat 32 v) o :=
  ⟨_, e, ((s.did_at g t []).setG rd _).stepOn⟩

theorem State.kcallOver_did (s : State) (g : GrainId) (t rd a above : Nat) :
    s.Did g t [] (fun x => (((x.put rd 0).put 3 (BitVec.ofNat 32 a)).put 1 (x.pc + 4#32)).goto (BitVec.ofNat 32 above)
      (Nat.max s.now t)) ((s.at t).kcallOver g.src rd a above) := by
  have next : BitVec.ofNat 32 ((s.at t).pc g.src + 4) = (s.grain g.src).pc + 4#32 := by
    show BitVec.ofNat 32 ((s.grain g.src).pc.toNat + 4) = _
    rw [BitVec.ofNat_add, BitVec.ofNat_toNat, BitVec.setWidth_eq]
  refine ((((s.did_at g t []).setG rd _).setG 3 _).setG 1 _).goto above |>.as ?_
  rw [next]
  rfl

theorem State.Did.overlayCopy {ps : List Part} {f : Grain → Grain} (h : s.Did g t ps f u) (hp : Part.mem_ ∈ ps) (hf : Part.fab_ ∈ ps)
    (id : Nat) : s.Did g t ps (fun x => { f x with overlay := id }) (u.overlayCopy g.src id) := by
  unfold State.overlayCopy
  split
  · next e =>
    refine h.as ?_
    rw [← e, h.grain]
  · exact (h.storeBytes hp hf _ _).upd (fun x => { x with overlay := id })

theorem State.kcallStart_did (s : State) (g : GrainId) (t rd a id : Nat) : s.Did g t [.mem_, .fab_] (fun x =>
    { x.put 3 (BitVec.ofNat 32 a) with
      pc := 0x0801C000#32, overlay := id, wait := .kernel,
      kern := some { id := id, desc := a, rd := rd, ret := (x.pc.toNat + 4) % 2 ^ 32 } })
      ((s.at t).kcallStart g.src rd a id) :=
  (((((s.did_at g t [.mem_, .fab_]).overlayCopy (by simp) (by simp) id).setG 3 _).setPc _).upd _).as rfl

/-- While a kernel is active the answer is 5. -/
theorem execKcall_busy (h : s.Ready g) (hk : g.kind = .vec) (busy : (s.grain g.src).kern ≠ none) :
    s.Sets g t rd 5 (execKcall s g rd rs1 t) := by
  refine s.kcallAnswer_sets g t rd 5 ?_
  unfold execKcall
  rw [State.issue_ready h (by rw [hk]; rfl) (.inl rfl)]
  exact congrArg Host.Outcome.next (if_pos (Option.isSome_iff_ne_none.mpr busy))

theorem execKcall_misplaced (h : s.Ready g) (hk : g.kind = .vec) (idle : (s.grain g.src).kern = none)
    (ha : (s.gReg g.src rs1).toNat = a) (bad : kernelDescOk g.src a = false) : s.Sets g t rd 3 (execKcall s g rd rs1 t) := by
  subst ha
  refine s.kcallAnswer_sets g t rd 3 ?_
  unfold execKcall
  rw [State.issue_ready h (by rw [hk]; rfl) (.inl rfl)]
  exact congrArg Host.Outcome.next ((if_neg (fun k => Option.isSome_iff_ne_none.mp k idle)).trans
    (if_pos (fun k => Bool.noConfusion (bad.symm.trans k))))

/-- With no kernel active and a descriptor that can be read, its ID, its override and its version decide. -/
theorem execKcall_read (h : s.Ready g) (hk : g.kind = .vec) (idle : (s.grain g.src).kern = none)
    (ha : (s.gReg g.src rs1).toNat = a) (ok : kernelDescOk g.src a = true) (sound : s.areaFault g.src .read a 64 = none)
    (hid : s.kLoad g.src a 1 = id) (hab : s.kcallAbove g.src id = above) : execKcall s g rd rs1 t = .next (
      if ¬ (1 ≤ id ∧ id ≤ 8) ∧ above = 0 then (s.at t).kcallAnswer g.src rd 1
      else if above ≠ 0 then (s.at t).kcallOver g.src rd a above
      else if s.kLoad g.src (a + 1) 1 ≠ 1 then (s.at t).kcallAnswer g.src rd 2
      else (s.at t).kcallStart g.src rd a id) := by
  subst ha
  have sound' : (s.at t).areaFault g.src .read ((s.at t).gReg g.src rs1).toNat 64 = none := sound
  have id' : (s.at t).kLoad g.src ((s.at t).gReg g.src rs1).toNat 1 = id := (s.kLoad_at ..).trans hid
  have version : (s.at t).kLoad g.src (((s.at t).gReg g.src rs1).toNat + 1) 1 = s.kLoad g.src ((s.gReg g.src rs1).toNat + 1) 1 :=
    s.kLoad_at ..
  have above' : (if 1 ≤ id ∧ id < 16 then ((s.at t).reg (ES_KOVR (g.src / 16 % 16) id)).toNat else 0) = above := hab
  unfold execKcall
  rw [State.issue_ready h (by rw [hk]; rfl) (.inl rfl)]
  refine congrArg Host.Outcome.next ((if_neg (fun k => Option.isSome_iff_ne_none.mp k idle)).trans
    ((if_neg (not_not_intro ok)).trans ?_))
  rw [sound']
  simp only [id', above', version]
  rfl

/-! ## The runs of each kernel (R230, R236 to R240) -/

/-- What each kernel's run needs beside its own areas: a count of items in range, sound areas, ranges and profiles. -/
structure State.KernelFit (s : State) (g : GrainId) (d : KDesc) (l : List (Access × Nat × Nat)) : Prop where
  least : 1 ≤ d.items
  most : d.items ≤ 6144
  areas : ∀ m ∈ [(Access.read, d.prm, 128), (.read, d.map, 8 * d.items), (.read, d.chem, 1024)] ++ l,
    s.areaFault g.src m.1 m.2.1 m.2.2 = none

theorem kernelAreas_cells {d : KDesc} (h : ¬ (id = 8 ∧ d.b = 1)) :
    kernelAreas id d = [(.read, d.prm, 128), (.read, d.map, 8 * d.items), (.read, d.chem, 1024)] := by
  unfold kernelAreas
  rw [if_neg h, if_neg h]

theorem State.kernelMaps_cells {d : KDesc} (h : ¬ (id = 8 ∧ d.b = 1)) :
    s.kernelMaps src id d = (List.range d.items).map (s.mapEntry src d.map) := if_neg h

/-- All the cells' map entries and profiles are in range, and there is no deadline. -/
structure State.KernelValid (s : State) (src : Nat) (d : KDesc) : Prop where
  prm : s.prmOk src d.prm = true
  maps : ∀ m ∈ (List.range d.items).map (s.mapEntry src d.map), m.ok = true
  chems : ∀ m ∈ (List.range d.items).map (s.mapEntry src d.map), (s.chem src d.chem m.chem).ok = true
  deadline : d.deadline = 0

section
variable {k : Active} {form : KDesc → Bool} {areas : State → KDesc → List (Access × Nat × Nat)}
  {pre : State → KDesc → Option Nat} {body : State → Nat → KDesc → Nat × State} {d : KDesc} {l : List (Access × Nat × Nat)} {st : Nat}

/-- A kernel over cells that is valid ends with the status of its own check, else its result. -/
theorem kernelRun_valid (on : s.Runs g k) (hid : k.id = id) (hd : s.kdesc g.src k.desc = d) (hf : form d = true)
    (cells : ¬ (id = 8 ∧ d.b = 1)) (hl : areas (s.at t) d = l) (fit : s.KernelFit g d l) (valid : s.KernelValid g.src d)
    (hst : (pre (s.at t) d).getD (body (s.at t) g.src d).1 = st) :
    endsWith (s.kernelRun g t id form 6144 areas pre body) g.src k st := by
  rw [← hst]
  refine kernelRun_result on hid hd hf fit.least fit.most ?_ ⟨valid.prm, ?_⟩ ?_ valid.deadline
  · rw [kernelAreas_cells cells, hl]
    exact fit.areas
  · rw [State.kernelMaps_cells cells]
    exact List.all_eq_true.mpr valid.maps
  · rw [State.kernelMaps_cells cells]
    exact List.all_eq_true.mpr valid.chems

end

theorem endsWith.mem {o : Host.Outcome State Fault Refusal} {k : Active} {st : Nat} {sts : List Nat} (h : endsWith o src k st)
    (hm : st ∈ sts) : ∃ u st, o = .next u ∧ st ∈ sts ∧ (u.grain src).kern = none ∧ (u.grain src).wait = .none ∧
      (u.grain src).pc = BitVec.ofNat 32 k.ret ∧ (k.rd ≠ 0 → u.gReg src k.rd = BitVec.ofNat 32 st) := by
  obtain ⟨u, e, ended⟩ := h
  exact ⟨u, st, e, hm, ended.kern, ended.wait, ended.pc, ended.status⟩

/-- The greatest number of a list bounds it, and is of it but where that is empty of any above 0. -/
theorem foldl_max_top (l : List Nat) : (∀ x ∈ l, x ≤ l.foldl Nat.max 0) ∧ (l.foldl Nat.max 0 = 0 ∨ l.foldl Nat.max 0 ∈ l) := by
  induction l using List.reverseRecOn with
  | nil => exact ⟨nofun, .inl rfl⟩
  | append_singleton l x ih =>
    obtain ⟨bound, found⟩ := ih
    rw [List.foldl_append, List.foldl_cons, List.foldl_nil]
    generalize l.foldl Nat.max 0 = top at bound found
    have larger : Nat.max top x = top ∧ x ≤ top ∨ Nat.max top x = x ∧ top ≤ x := by
      rcases Nat.le_total x top with e | e
      · exact .inl ⟨Nat.max_eq_left e, e⟩
      · exact .inr ⟨Nat.max_eq_right e, e⟩
    simp only [List.mem_append, List.mem_singleton]
    rcases larger with ⟨e, le⟩ | ⟨e, le⟩ <;> rw [e]
    · exact ⟨fun y hy => hy.elim (bound y) (fun h => h ▸ le), found.imp_right .inl⟩
    · exact ⟨fun y hy => hy.elim (fun h => (bound y h).trans le) (fun h => h.le), .inr (.inr rfl)⟩

/-- The highest node of the cells' map entries, which bounds the filter's input. -/
def State.topNode (s : State) (src : Nat) (d : KDesc) : Nat :=
  ((List.range d.items).map (fun j => (s.mapEntry src d.map j).node)).foldl Nat.max 0

theorem State.topNode_spec (s : State) (src : Nat) (d : KDesc) :
    (∀ m ∈ (List.range d.items).map (s.mapEntry src d.map), m.node ≤ s.topNode src d) ∧
      (s.topNode src d = 0 ∨ ∃ m ∈ (List.range d.items).map (s.mapEntry src d.map), m.node = s.topNode src d) := by
  have nodes : (List.range d.items).map (fun j => (s.mapEntry src d.map j).node) =
      ((List.range d.items).map (s.mapEntry src d.map)).map MapEntry.node := by
    rw [List.map_map]
    rfl
  obtain ⟨bound, found⟩ := foldl_max_top ((List.range d.items).map (fun j => (s.mapEntry src d.map j).node))
  refine ⟨fun m hm => bound _ (nodes ▸ List.mem_map_of_mem hm), found.imp_right fun h => ?_⟩
  exact List.mem_map.mp (nodes ▸ h)

theorem State.topNode_at (s : State) (t src : Nat) (d : KDesc) : (s.at t).topNode src d = s.topNode src d := by
  unfold State.topNode
  simp only [State.mapEntry_at]

/-! ## Each kernel (R238, R240, R257) -/

section
variable {k : Active} {d : KDesc}

/-- The statuses of a filter whose input can be applied. -/
theorem filterStatus_mem (incons held : Bool) : (if incons = true then 0x20 else if held = true then 0x21 else 0) ∈ [0, 0x20, 0x21] := by
  revert incons held
  decide

/-- The areas of the filter. -/
def State.filterAreas (s : State) (src : Nat) (d : KDesc) : List (Access × Nat × Nat) :=
  [(.read, d.input, 64 + 40 * (s.topNode src d + 1)), (.read, d.b, 16 * (s.topNode src d + 1)), (.read, d.state, 96 * d.items),
    (.write, d.state, 96 * d.items)]

theorem State.filterAreas_at (s : State) (t src : Nat) (d : KDesc) : (s.at t).filterAreas src d = s.filterAreas src d := by
  unfold State.filterAreas
  rw [State.topNode_at]

/-- Whether the filter's sweep is newer than the last one applied (R238). -/
def State.filterNewer (s : State) (src : Nat) (d : KDesc) : Bool :=
  tagNewer (s.kLoad src d.input 2) (Tab.get none s.est.tags (physOf src d.state))

theorem State.filterNewer_at (s : State) (t src : Nat) (d : KDesc) : (s.at t).filterNewer src d = s.filterNewer src d := by
  unfold State.filterNewer
  rw [State.kLoad_at]
  rfl

theorem execKernelCellStateFilter_run (s : State) (g : GrainId) (t : Nat) :
    ∃ body : State → Nat → KDesc → Nat × State, (∀ z src d, (body z src d).1 ∈ [0, 0x20, 0x21]) ∧
      execKernelCellStateFilter s g t = s.kernelRun g t 1 (fun _ => true) 6144 (fun z d => z.filterAreas g.src d)
        (fun z d => if z.filterNewer g.src d then none else some 0x13) body := by
  refine ⟨_, fun z src d => ?_, rfl⟩
  exact filterStatus_mem ..

/-- The filter refuses a tag that is not newer, and else ends with one of its results. -/
theorem execKernelCellStateFilter_ends (on : s.Runs g k) (hid : k.id = 1) (hd : s.kdesc g.src k.desc = d)
    (fit : s.KernelFit g d (s.filterAreas g.src d)) (valid : s.KernelValid g.src d) :
    ∃ st ∈ (if s.filterNewer g.src d then [0, 0x20, 0x21] else [0x13]), endsWith (execKernelCellStateFilter s g t) g.src k st := by
  obtain ⟨body, results, run⟩ := execKernelCellStateFilter_run s g t
  rw [run]
  refine ⟨_, ?_, kernelRun_valid on hid hd rfl (by omega) (s.filterAreas_at t g.src d) fit valid rfl⟩
  rw [State.filterNewer_at]
  split
  · exact results ..
  · exact List.mem_singleton_self _

/-- The impedance refuses to read a running correlator, then a bad window. -/
theorem execKernelImpedance_ends (on : s.Runs g k) (hid : k.id = 5) (hd : s.kdesc g.src k.desc = d)
    (fit : s.KernelFit g d [(.write, d.output, 32 * d.items), (.read, d.a, 417792)]) (valid : s.KernelValid g.src d) :
    endsWith (execKernelImpedance s g t) g.src k
      (if s.rdB (ES_CORR_CTL (vblockOf g.src)) ES_CORR_CTL_RUN = true ∨ s.rdB (ES_CORR_STAT (vblockOf g.src)) ES_CORR_STAT_PEND = true
        then 0x30 else if s.windowBad g.src d = true then 0x31 else 0) := by
  unfold execKernelImpedance
  refine kernelRun_valid on hid hd rfl (by omega) rfl fit valid ?_
  rw [State.windowBad_at]
  change (if s.rdB (ES_CORR_CTL (vblockOf g.src)) ES_CORR_CTL_RUN = true ∨
    s.rdB (ES_CORR_STAT (vblockOf g.src)) ES_CORR_STAT_PEND = true then some 0x30
    else if s.windowBad g.src d = true then some 0x31 else none).getD 0 = _
  split
  · rfl
  · split <;> rfl

/-- A kernel with no check of its own, whose result is 0. -/
def KernelResults (s : State) (g : GrainId) (t : Nat) (o : Host.Outcome State Fault Refusal) (id : Nat) (form : KDesc → Bool)
    (areas : KDesc → List (Access × Nat × Nat)) : Prop :=
  ∃ effect : State → Nat → KDesc → State, o = s.kernelRun g t id form 6144 (fun _ => areas) (fun _ _ => none)
    (fun s src d => (0, effect s src d))

theorem execKernelCapacity_results (s : State) (g : GrainId) (t : Nat) :
    KernelResults s g t (execKernelCapacity s g t) 2 (fun _ => true) (fun d => learnAreas d 16) := ⟨_, rfl⟩

theorem execKernelResistance_results (s : State) (g : GrainId) (t : Nat) : KernelResults s g t (execKernelResistance s g t) 3
    (fun _ => true) (fun d => (.read, d.input, 64) :: learnAreas d 16) := ⟨_, rfl⟩

theorem execKernelPowerLimits_results (s : State) (g : GrainId) (t : Nat) : KernelResults s g t (execKernelPowerLimits s g t) 4
    (fun _ => true) (fun d => [(.read, d.input, 96 * d.items), (.write, d.output, 24 * d.items)]) := ⟨_, rfl⟩

theorem execKernelInternalTemperature_results (s : State) (g : GrainId) (t : Nat) :
    KernelResults s g t (execKernelInternalTemperature s g t) 6
      (fun _ => true) (fun d => (.read, d.input, 32 * d.items) :: learnAreas d 4) := ⟨_, rfl⟩

theorem execKernelSelfDischarge_results (s : State) (g : GrainId) (t : Nat) : KernelResults s g t (execKernelSelfDischarge s g t) 7
    (fun _ => true) (fun d => (.read, d.input, 4 * d.items) :: learnAreas d 16) := ⟨_, rfl⟩

theorem execKernelAggregationPartial_results (s : State) (g : GrainId) (t : Nat) :
    KernelResults s g t (execKernelAggregationPartial s g t) 8 (fun d => d.b != 1)
      (fun d => [(.read, d.input, 96 * d.items), (.read, d.a, 24 * d.items), (.write, d.output, 3072)]) := ⟨_, rfl⟩

section
variable {o : Host.Outcome State Fault Refusal} {form : KDesc → Bool} {areas : KDesc → List (Access × Nat × Nat)}

theorem KernelResults.run (h : KernelResults s g t o id form areas) :
    ∃ areas pre body, o = s.kernelRun g t id form 6144 areas pre body := by
  obtain ⟨effect, run⟩ := h
  exact ⟨_, _, _, run⟩

variable (h : KernelResults s g t o id form areas) (on : s.Runs g k) (hid : k.id = id)
  (hf : form (s.kdesc g.src k.desc) = true) (cells : ¬ (id = 8 ∧ (s.kdesc g.src k.desc).b = 1))
  (fit : s.KernelFit g (s.kdesc g.src k.desc) (areas (s.kdesc g.src k.desc)))
include h on hid hf cells fit

/-- Such a kernel, all in range, ends with 0. -/
theorem KernelResults.ends (valid : s.KernelValid g.src (s.kdesc g.src k.desc)) : endsWith o g.src k 0 := by
  obtain ⟨effect, run⟩ := h
  rw [run]
  exact kernelRun_valid on hid rfl hf cells rfl fit valid rfl

/-- It refuses parameters out of range. -/
theorem KernelResults.param (bad : s.prmOk g.src (s.kdesc g.src k.desc).prm = false) : endsWith o g.src k 0x11 := by
  obtain ⟨effect, run⟩ := h
  rw [run]
  refine kernelRun_param on hid rfl hf fit.least fit.most ?_ bad
  rw [kernelAreas_cells cells]
  exact fit.areas

/-- It refuses a bad profile of one of its cells. -/
theorem KernelResults.profile (prm : s.prmOk g.src (s.kdesc g.src k.desc).prm = true)
    (maps : ∀ m ∈ (List.range (s.kdesc g.src k.desc).items).map (s.mapEntry g.src (s.kdesc g.src k.desc).map), m.ok = true)
    (bad : ∃ m ∈ (List.range (s.kdesc g.src k.desc).items).map (s.mapEntry g.src (s.kdesc g.src k.desc).map),
      (s.chem g.src (s.kdesc g.src k.desc).chem m.chem).ok = false) : endsWith o g.src k 0x12 := by
  obtain ⟨effect, run⟩ := h
  obtain ⟨m, hm, bad⟩ := bad
  rw [run]
  refine kernelRun_profile on hid rfl hf fit.least fit.most ?_ ⟨prm, ?_⟩ ?_
  · rw [kernelAreas_cells cells]
    exact fit.areas
  · rw [State.kernelMaps_cells cells]
    exact List.all_eq_true.mpr maps
  · rw [State.kernelMaps_cells cells]
    exact List.all_eq_false.mpr ⟨m, hm, by rw [bad]; decide⟩

end

/-- Every kernel over cells but the aggregation is a run with the limit of 6,144 items. -/
theorem kernels_run (s : State) (g : GrainId) (t : Nat) :
    ∀ c ∈ [(1, Instr.kernelCellStateFilter g t), (2, .kernelCapacity g t), (3, .kernelResistance g t), (4, .kernelPowerLimits g t),
      (5, .kernelImpedance g t), (6, .kernelInternalTemperature g t), (7, .kernelSelfDischarge g t)],
      ∃ areas pre body, exec c.2 s = s.kernelRun g t c.1 (fun _ => true) 6144 areas pre body := by
  obtain ⟨body, -, filter⟩ := execKernelCellStateFilter_run s g t
  have impedance : ∃ areas pre body, execKernelImpedance s g t = s.kernelRun g t 5 (fun _ => true) 6144 areas pre body := by
    unfold execKernelImpedance
    exact ⟨_, _, _, rfl⟩
  simp only [List.forall_mem_cons]
  dsimp only [exec]
  exact ⟨⟨_, _, _, filter⟩, (execKernelCapacity_results s g t).run, (execKernelResistance_results s g t).run,
    (execKernelPowerLimits_results s g t).run, impedance, (execKernelInternalTemperature_results s g t).run,
    (execKernelSelfDischarge_results s g t).run, nofun⟩

/-- The final aggregation reads no cells: its own areas and the parameters are enough. -/
theorem execKernelAggregationFinal_ends (on : s.Runs g k) (hid : k.id = 8) (hd : s.kdesc g.src k.desc = d) (hb : d.b = 1)
    (h1 : 1 ≤ d.items) (h2 : d.items ≤ 16) (prm : s.prmOk g.src d.prm = true) (deadline : d.deadline = 0)
    (sound : ∀ m ∈ [(Access.read, d.prm, 128), (.read, d.input, 3072 * d.items), (.write, d.output, 1664), (.write, d.state, 65536)],
      s.areaFault g.src m.1 m.2.1 m.2.2 = none) : endsWith (execKernelAggregationFinal s g t) g.src k 0 := by
  have final : 8 = 8 ∧ d.b = 1 := ⟨rfl, hb⟩
  have maps : s.kernelMaps g.src 8 d = [] := if_pos final
  refine kernelRun_result on hid hd (beq_iff_eq.mpr hb) h1 h2 ?_ ⟨prm, by rw [maps]; rfl⟩ (by rw [maps]; rfl) deadline
  unfold kernelAreas
  rw [if_pos final, if_pos final]
  simp only [List.cons_append, List.nil_append, List.forall_mem_cons] at sound ⊢
  obtain ⟨read, own⟩ := sound
  exact ⟨read, if_pos rfl, if_pos rfl, own⟩

end

end

end Sys2Proof.Machine

open Sys2Proof Sys2Proof.Machine

/-- Settles O27: a kcall is answered by the first reason that holds, and every kernel's run ends through `kernelEnd`. -/
theorem kernelsStartAndEnd : Obligations.KernelsStartAndEnd := by
  unfold Obligations.KernelsStartAndEnd
  intro s v rd rs1 t
  refine ⟨fun ready => ⟨fun busy => execKcall_busy ready rfl busy, fun idle bad => execKcall_misplaced ready rfl idle rfl bad,
    fun idle ok sound => ?_⟩, fun k kern run wait => ?_⟩
  · have answered := execKcall_read (t := t) (rd := rd) ready rfl idle rfl ok sound rfl rfl
    dsimp only [exec]
    generalize s.kLoad (GrainId.vec v).src (s.gReg (GrainId.vec v).src rs1).toNat 1 = id at answered ⊢
    have unnamed (h : ¬ (1 ≤ id ∧ id ≤ 8)) (h0 : s.kcallAbove (GrainId.vec v).src id = 0) :
        s.Sets (.vec v) t rd 1 (execKcall s (.vec v) rd rs1 t) := by
      rw [if_pos ⟨h, h0⟩] at answered
      exact s.kcallAnswer_sets _ t rd 1 answered
    have own (h1 : 1 ≤ id) (h2 : id < 16) := s.kcallAbove_vec v h1 h2
    refine ⟨fun h => unnamed (by omega) (if_neg (by omega)),
      fun h1 h2 h0 => unnamed (by omega) ((own (by omega) h2).trans h0), fun h1 h2 above => ?_,
      fun h1 h2 h0 version => ?_, fun h1 h2 h0 version => ?_⟩
    · rw [own h1 h2, if_neg (fun h => above h.2), if_pos above] at answered
      exact ⟨_, answered, s.kcallOver_did ..⟩
    · rw [own h1 (by omega), if_neg (fun h => h.1 ⟨h1, h2⟩), if_neg (not_not_intro h0), if_pos version] at answered
      exact s.kcallAnswer_sets _ t rd 2 answered
    · rw [own h1 (by omega), if_neg (fun h => h.1 ⟨h1, h2⟩), if_neg (not_not_intro h0), if_neg (not_not_intro version)] at answered
      exact ⟨_, answered, s.kcallStart_did ..⟩
  · have on : s.Runs (.vec v) k := ⟨kern, run, wait⟩
    refine ⟨fun c hc hid bad => ?_, fun ⟨least, most, prm, maps, chems, deadline⟩ => ?_, fun hid hb h1 h2 prm deadline sound =>
      (execKernelAggregationFinal_ends on hid rfl hb h1 h2 prm deadline sound).mem (List.mem_singleton_self _),
      fun h1 h2 hid can bad => ?_, fun h1 h2 hid can prm maps bad => ?_⟩
    · obtain ⟨areas, pre, body, e⟩ := kernels_run s (.vec v) t c hc
      exact (e ▸ kernelRun_count on hid.symm rfl rfl bad).mem (List.mem_singleton_self _)
    · have valid : s.KernelValid (GrainId.vec v).src (s.kdesc (GrainId.vec v).src k.desc) := ⟨prm, maps, chems, deadline⟩
      have zero (c : Instr) {id : Nat} {form : KDesc → Bool} {areas : KDesc → List (Access × Nat × Nat)}
          (h : KernelResults s (.vec v) t (exec c s) id form areas) (hid : k.id = id) (hf : form (s.kdesc _ k.desc) = true)
          (cells : ¬ (id = 8 ∧ (s.kdesc (GrainId.vec v).src k.desc).b = 1))
          (can : ∀ m ∈ [(Access.read, (s.kdesc _ k.desc).prm, 128), (.read, (s.kdesc _ k.desc).map, 8 * (s.kdesc _ k.desc).items),
            (.read, (s.kdesc _ k.desc).chem, 1024)] ++ areas (s.kdesc _ k.desc), s.areaFault (GrainId.vec v).src m.1 m.2.1 m.2.2 = none) :=
        (h.ends on hid hf cells ⟨least, most, can⟩ valid).mem (List.mem_singleton_self _)
      refine ⟨fun hid can => ?_, fun hid can => zero (.kernelCapacity (.vec v) t) (execKernelCapacity_results ..) hid rfl (by omega) can,
        fun hid can => zero (.kernelResistance (.vec v) t) (execKernelResistance_results ..) hid rfl (by omega) can,
        fun hid can => zero (.kernelPowerLimits (.vec v) t) (execKernelPowerLimits_results ..) hid rfl (by omega) can,
        fun hid can => ?_,
        fun hid can => zero (.kernelInternalTemperature (.vec v) t) (execKernelInternalTemperature_results ..) hid rfl (by omega) can,
        fun hid can => zero (.kernelSelfDischarge (.vec v) t) (execKernelSelfDischarge_results ..) hid rfl (by omega) can,
        fun hid hb can => zero (.kernelAggregationPartial (.vec v) t) (execKernelAggregationPartial_results ..) hid
          (bne_iff_ne.mpr hb) (fun h => hb h.2) can⟩
      · have top := s.topNode_spec (GrainId.vec v).src (s.kdesc (GrainId.vec v).src k.desc)
        obtain ⟨st, hst, ends⟩ := execKernelCellStateFilter_ends (t := t) on hid rfl ⟨least, most, can _ top.1 top.2⟩ valid
        exact ends.mem hst
      · have ends := execKernelImpedance_ends (t := t) on hid rfl ⟨least, most, can⟩ valid
        rw [vblockOf_src] at ends
        refine ends.mem ?_
        split
        · exact List.mem_singleton_self _
        · split <;> exact List.mem_singleton_self _
    · exact ((execKernelCapacity_results s (.vec v) t).param on hid rfl (by omega) ⟨h1, h2, can⟩ bad).mem (List.mem_singleton_self _)
    · exact ((execKernelCapacity_results s (.vec v) t).profile on hid rfl (by omega) ⟨h1, h2, can⟩ prm maps bad).mem
        (List.mem_singleton_self _)

end
